-- ==== Sys2Proof/Word.lean ====
section
/-!
DEFINITION. The word types of the QX128 model and nothing else: every helper over them stands in Machine/.
-/

namespace Sys2Proof

/-- One byte of a window, a payload or a memory. -/
abbrev Byte := BitVec 8

/-- A 32-bit word of a host window (R50). -/
abbrev Word := BitVec 32

/-- A 64-bit quantity: tick time (R187), a key half, an identity. -/
abbrev Word64 := BitVec 64

/-- A byte string, lowest offset first (R8). -/
abbrev Bytes := List (BitVec 8)

end Sys2Proof
end

