-- ==== Sys2Proof/Syntax.lean ====
section
/-!
DEFINITION. The syntax: the commands and events the QX128 block takes, one constructor per row of
spec/opcode_table.json, and the closed types of their operands. The rows with operands come first, in the
table's order, then those without: the compiler numbers at most 245 constructors that carry data.
A row's operands are what the step takes from outside the block: a written word, a pin level, a received
block, a measured value. What the block itself knows (counters, deadlines, tables) is State, not operand.
-/

namespace Sys2Proof

/-- The port a host access comes in on: PCI Express, or QSPI with its command byte (R46 to R48). -/
inductive HostPort where
  | pcie
  | qspi (cmd : BitVec 8)
deriving DecidableEq, Repr

/-- The three ports with a read latch and a held low word of their own (R52, R53): the selected host port, the debug port and the
management processor. -/
inductive AccessPort where
  | host (p : HostPort)
  | debug
  | mp
deriving DecidableEq, Repr

/-- The two fields of a received Ahnub block header that are not its type (R136): the constructor names the type. -/
structure RxHeader where
  /-- ETAG, the port and epoch tag of R148. -/
  etag : BitVec 2
  /-- SEQ, the block's sequence number (R139). -/
  seq : BitVec 8
deriving DecidableEq, Repr

/-- The four service lanes RING_E, RING_W, TWIN_A and TWIN_B (R5, R98: lanes 128 to 131). -/
inductive ServiceLane where
  | ringE | ringW | twinA | twinB
deriving DecidableEq, Repr

/-- The two ring neighbours (R404). -/
inductive RingSide where
  | e | w
deriving DecidableEq, Repr

/-- The two twin lanes (R371). -/
inductive TwinSide where
  | a | b
deriving DecidableEq, Repr

/-- The two PTP messages a station port sends on a timer (R211). -/
inductive PtpTimer where
  | sync | pdelayReq
deriving DecidableEq, Repr

/-- The two blocks of one comparison, TW_COMPARE_A and TW_COMPARE_B (R375). -/
inductive ComparePart where
  | a | b
deriving DecidableEq, Repr

/-- One item of a resync or qualification chunk (R369, R377): what it carries is named by the rules, its layout is internal to the
stepping, so the operand is the decoded content. -/
inductive TwItem where
  /-- A value forwarded under R72. -/
  | param (id inst : BitVec 16) (value : List (BitVec 8))
  /-- An entry of the shadow roll, or of the working roll. -/
  | roll (working : Bool) (lane : Fin 128) (entry : List (BitVec 8))
  /-- ROLL_GEN, LE_GEN and the count of forwarded writes accepted. -/
  | gens (rollGen leGen fwdCount : BitVec 32)
  /-- A loop descriptor of the shadow tables, or of the working tables. -/
  | desc (working : Bool) (n : Fin 512) (b : List (BitVec 8))
  /-- A coefficient set of the shadow tables, or of the working tables. -/
  | coef (working : Bool) (n : Fin 512) (b : List (BitVec 8))
  /-- An entry of the larder. -/
  | larder (n : Fin 16384) (v : BitVec 16)
  /-- A string's trip mask; 0 for a string that is not tripped. -/
  | tripMask (str : Fin 16) (mask : BitVec 16)
  /-- A bypass record and its cause, or that none is held. -/
  | bypass (lane : Fin 128) (cause : Option (BitVec 8))
  /-- RIDE_STATE. -/
  | ride (state reason : BitVec 8)
  /-- A loop's state after a walk: I, the sections' x1 x2 y1 y2, the region, the output. -/
  | loop (n : Fin 512) (i : Int) (bq : List Int) (region : Fin 8) (out : Int)
  /-- A leg's dead time, fallback flag and bad count. -/
  | deadTime (lane : Fin 128) (leg : Fin 6) (dtw : Nat) (fallback : Bool) (bad : Nat)
  /-- A leg's carry. -/
  | carry (lane : Fin 128) (leg : Fin 6) (c : Int)
  /-- A leg's held transitions, in order: ideal time on the tick scale, direction and dead time. -/
  | heldTrans (lane : Fin 128) (leg : Fin 6) (l : List (Int × Bool × Nat))
  /-- A member's previous insertion state. -/
  | insertion (lane : Fin 128) (x : Int)
deriving DecidableEq, Repr

/-- The content of a TW_STATE block (R371): what it carries is named by the rules that send it, and its
layout is internal to the stepping, so the operand is the decoded content. -/
inductive TwStateMsg where
  /-- One working dead-time step of a lane's leg, with its t_on (R279). -/
  | dtStep (lane : Fin 128) (leg : Fin 6) (tOn : BitVec 32) (step : Int)
  /-- A leg enters fallback at a value, or leaves it, with its t_on (R281, R279). -/
  | dtFallback (lane : Fin 128) (leg : Fin 6) (tOn : BitVec 32) (value : BitVec 16) (on : Bool)
  /-- The active's sort order of a string for boundary k (R288). -/
  | order (str : Fin 16) (k : Nat) (lanes : List (Fin 128))
  /-- The active's ride-through state (R360). -/
  | ride (state : BitVec 8) (reason : BitVec 8)
  /-- A part of the state the active sends during RESYNC (R377). -/
  | resync (items : List TwItem) (last : Bool)
  /-- A part of the state sent for qualification (R369). -/
  | qualify (items : List TwItem) (last : Bool)
deriving DecidableEq, Repr

/-- The outcome of one periodic self-test (R379, R520). -/
inductive TestResult where
  | pass | fail | overdue
deriving DecidableEq, Repr

/-- The self-tests of the safety channels (R520). -/
inductive SafeTest where
  | cpu | ram | rom
deriving DecidableEq, Repr

/-- A write another pantry port makes to the same word in the same cycle (R424, R426). -/
structure PortWrite where
  /-- The word written. -/
  data : BitVec 32
  /-- The byte enables, bit n for byte n. -/
  be : BitVec 4
deriving DecidableEq, Repr

/-- What the management port does with the word of another port's access in the same cycle (R424, R426). -/
inductive MgmtAccess where
  | idle
  | read
  | write (w : PortWrite)
deriving DecidableEq, Repr

/-- The JTAG instructions of R642. -/
inductive JtagInstr where
  | bypass | idcode | samplePreload | extest | privateDebug
deriving DecidableEq, Repr

/-- The memories a debugger reaches (R643). -/
inductive DebugSpace where
  | tcm | bar0 | pantry
deriving DecidableEq, Repr

/-- The commands and events of the block, one constructor per row of spec/opcode_table.json. -/
inductive Instr where
  /-- HATCH_DOORBELL (R60): A host write of HATCH_DOORBELL rings mailboxes: each one in IDLE or DONE enters PENDING, and each one in PENDING or ACTIVE sets the ignored flags. -/
  | hatchDoorbell (w : BitVec 32)
  /-- HATCH_DONE_WRITE (R59): A W1C write of HATCH_DONE moves each mailbox named from DONE to IDLE and clears its DONE interrupt condition. -/
  | hatchDoneWrite (w : BitVec 32)
  /-- HOST_ERR_WRITE (R55): A W1C write of HOST_ERR clears the named error bits and with them the HOST_ERR interrupt condition. -/
  | hostErrWrite (w : BitVec 32)
  /-- LOW_WORD_READ (R52): A 32-bit read of the low word of a 64-bit value returns the live low word and latches the high word with its tag in the reading port's latch. Where `whole`, the access is one of 8 bytes and takes both words at once (R49). -/
  | lowWordRead (port : AccessPort) (addr : BitVec 24) (whole : Bool := false)
  /-- HIGH_WORD_READ (R52): A 32-bit read of the high word returns the latched word if the tag matches and clears the tag, and returns the live word otherwise. -/
  | highWordRead (port : AccessPort) (addr : BitVec 24)
  /-- LOW_WORD_WRITE (R53): A 32-bit write of the low word of a writable 64-bit value is held with no effect of its own. -/
  | lowWordWrite (port : AccessPort) (addr : BitVec 24) (v : BitVec 32)
  /-- HIGH_WORD_WRITE (R53): A 32-bit write of the high word writes both words together, using the held low word if this port holds one. Where `low` is given, the access is one of 8 bytes that carries both words (R49). -/
  | highWordWrite (port : AccessPort) (addr : BitVec 24) (v : BitVec 32) (low : Option (BitVec 32) := none)
  /-- NR_CTRL_WRITE (R673): A write of NR_CTRL sets the notification thresholds; a change of NR_ENABLE from 0 to 1 resets head, tail and phase and writes out the hold queue, and a change from 1 to 0 starts holding entries. -/
  | nrCtrlWrite (w : BitVec 32)
  /-- NR_TAIL_WRITE (R82): A host write of NR_TAIL advances the read index of the notification ring and may clear the notification interrupt condition. -/
  | nrTailWrite (w : BitVec 32)
  /-- REGISTER_WRITE (R11): A host write to any register that has no row of its own sets the fields under their access codes. -/
  | registerWrite (addr : BitVec 24) (v : BitVec 32) (p : HostPort := .pcie)
  /-- HATCH_PING (R75): Returns the role, the shed level, MP_LOAD and the present short time. -/
  | hatchPing (mb : Fin 8)
  /-- PARAM_GET (R76): Returns the shadow value or the value in effect of one parameter instance, with its size and class. -/
  | paramGet (mb : Fin 8)
  /-- PARAM_SET (R77): Checks every record and then applies them all, or none, as live, shadowed, held or halt-only values. -/
  | paramSet (mb : Fin 8)
  /-- PARAM_COMMIT (R79): Moves the mailbox's held set into the shadow, so that it takes effect at one boundary of its block. -/
  | paramCommit (mb : Fin 8)
  /-- PARAM_DISCARD (R75): Drops the mailbox's held set and returns the number of records discarded. -/
  | paramDiscard (mb : Fin 8)
  /-- PARAM_INFO (R75): Returns the size, access, class, instance kind and flags of a parameter. -/
  | paramInfo (mb : Fin 8)
  /-- LOAD_WINDOW_END (R89): At the end of each 1 ms window Ubfer updates MP_LOAD and moves the shed level up or down. -/
  | loadWindowEnd (load : BitVec 10)
  /-- ROLL_LOAD (R37): Copies roll entries from the pantry into the shadow roll. -/
  | rollLoad (mb : Fin 8)
  /-- ROLL_COMMIT (R34): Checks the whole shadow roll and, if the checks pass, makes it the pending set, forwards it to the standby and saves it to MRAM. -/
  | rollCommit (mb : Fin 8)
  /-- ROLL_READ (R37): Returns the shadow entry or the working entry of a lane, with ROLL_GEN. -/
  | rollRead (mb : Fin 8)
  /-- RACK_PLL_LOCK_START (R111): At the staggered time after HATCH_READY, a rack PLL begins to lock. -/
  | rackPllLockStart (k : Fin 9)
  /-- RACK_PLL_LOCKED (R111): A rack PLL or the service lane PLL achieves lock, and its lanes that are not OFF begin training attempts. -/
  | rackPllLocked (k : Fin 9)
  /-- LANE_CLOCK_LOCK (R112): A lane receiver locks its clock after signal detect and enters TRAIN_EQ. -/
  | laneClockLock (lane : Fin 132)
  /-- LANE_PRESET_TRIAL_END (R112): A 0.5 ms trial of one linear equaliser preset ends; the next preset is tried, or the best preset is kept. -/
  | lanePresetTrialEnd (lane : Fin 132) (upper middle lower : BitVec 8)
  /-- LANE_DFE_CONVERGED (R112): The DFE taps have settled, and the lane enters CHECK. -/
  | laneDfeConverged (lane : Fin 132)
  /-- LANE_CHECK_WINDOW_END (R113): The 2^25-bit check window ends; on a pass the lane switches to IDLE blocks in ALIGN. -/
  | laneCheckWindowEnd (lane : Fin 132) (errors : Nat)
  /-- LANE_BLOCK_LOCK (R114): 64 consecutive good blocks at one offset give block lock; the lane enters LINKED and sends ROLE. -/
  | laneBlockLock (lane : Fin 132)
  /-- LANE_ATTEMPT_TIMEOUT (R112): A training attempt not LINKED within 15 ms is abandoned; the lane enters RETRY, or DOWN with LANE_TRAIN_FAIL after the last attempt. -/
  | laneAttemptTimeout (lane : Fin 132)
  /-- LANE_RETRY_END (R115): The 1 ms of electrical idle in RETRY ends and the next training attempt starts. -/
  | laneRetryEnd (lane : Fin 132)
  /-- LANE_SIGNAL_DETECT_CHANGE (R125): The lane receiver asserts or deasserts signal detect on its input level. -/
  | laneSignalDetectChange (lane : Fin 132) (level : Bool)
  /-- LANE_AUTO_RETRAIN (R117): A DOWN lane with LANE_AUTO = 1 that has seen signal detect for 1 ms starts an attempt with a fresh retry count. -/
  | laneAutoRetrain (lane : Fin 132)
  /-- LANE_HUNT_TIMEOUT (R119): Lock has not returned within LOCK_HUNT, and the lane starts a training attempt. -/
  | laneHuntTimeout (lane : Fin 132)
  /-- RACK_PLL_UNLOCK (R120): A rack PLL or the service lane PLL loses lock; its lanes go OFF and RACK_PLL_UNLOCK is raised. -/
  | rackPllUnlock (k : Fin 9)
  /-- CRC_WINDOW_END (R121): A one-second CRC alarm window of a lane ends and the next window starts. -/
  | crcWindowEnd (lane : Fin 132)
  /-- DFE_ADAPT_INTERVAL (R104): At the end of 2^DFE_RATE decisions each DFE tap moves one unit toward the sign of its accumulated sum. -/
  | dfeAdaptInterval (lane : Fin 132) (s1 s2 s3 s4 s5 : Int)
  /-- EYE_WINDOW_END (R106): The eye openings of LANE_EYE are updated at the end of each 2^20-symbol window. -/
  | eyeWindowEnd (lane : Fin 132) (upper middle lower : BitVec 8)
  /-- LANE_IDLE_ENTER (R122): After 8 block times with only IDLE to send, a permitted transmitter enters power-save idle and SLEEP. -/
  | laneIdleEnter (lane : Fin 132)
  /-- IDLE_MAX_GAP_WAKE (R122): IDLE_MAX_GAP has passed since the last wake burst; the transmitter sends a wake burst and one IDLE block. -/
  | idleMaxGapWake (lane : Fin 132)
  /-- WAKE_BURST_RX (R125): The receiver recovers symbol phase from a received wake burst and takes block alignment from its marker. -/
  | wakeBurstRx (lane : Fin 132)
  /-- WAKE_MARKER_TIMEOUT (R125): No wake marker is found within 128 symbols of signal detect, and the lane enters HUNT. -/
  | wakeMarkerTimeout (lane : Fin 132)
  /-- IDLE_GAP_TIMEOUT (R123): A received idle gap exceeds IDLE_MAX_GAP + 2 µs and counts as a loss of block lock. -/
  | idleGapTimeout (lane : Fin 132)
  /-- TEST_CHECKER_LOCK (R128), with up to four symbols whose levels were received since the last, in order: The pattern checker locks after 64 matching symbols, or loses lock after too many errors and counts LOCK_LOSSES. -/
  | testCheckerLock (lane : Fin 132) (x0 x1 x2 x3 : Option (Fin 4))
  /-- LANE_RETRAIN (R132): Starts a training attempt with a fresh retry count on each lane of a range, in this unit, the twin or both. -/
  | laneRetrain (mb : Fin 8)
  /-- LANE_HALT (R132): Puts each lane of a range into HALTED. -/
  | laneHalt (mb : Fin 8)
  /-- LANE_TEST_START (R132): Puts a lane into TEST with a chosen mode and pattern, and clears its test counters. -/
  | laneTestStart (mb : Fin 8)
  /-- LANE_TEST_STOP (R132): Ends a lane's test; the lane starts a training attempt, or returns to OFF. -/
  | laneTestStop (mb : Fin 8)
  /-- LANE_TEST_READ (R132): Returns the test mode, the checker state and the test counters of a lane. -/
  | laneTestRead (mb : Fin 8)
  /-- DOWNSTREAM_SLOT (R141): Each downstream block slot of a cell lane is filled with the first waiting block in priority order, or with IDLE. -/
  | downstreamSlot (lane : Fin 128)
  /-- BLOCK_CRC_FAIL (R139): A received block fails its CRC check; it is discarded and counted toward the CRC alarm and the loss of lock. -/
  | blockCrcFail (lane : Fin 132)
  /-- MISDIRECTED_RX (R140): A received block whose type is not defined for its direction or lane is discarded and counted as MISDIRECTED. -/
  | misdirectedRx (lane : Fin 132) (h : RxHeader)
  /-- SAMPLE_RX (R157): An upstream SAMPLE block is taken: its time is rebuilt, its values are converted and become the latest, and protection compares them. -/
  | sampleRx (lane : Fin 128) (h : RxHeader) (p : BitVec 96)
  /-- NODE_EDGE_RX (R274): An upstream NODE_EDGE block is taken; its records are matched to sent edges and the transitions are judged. -/
  | nodeEdgeRx (lane : Fin 128) (h : RxHeader) (p : BitVec 96)
  /-- HEALTH_RX (R159): An upstream STATUS HEALTH block is taken and updates EP_STATUS and the endpoint's state as seen by the head. -/
  | healthRx (lane : Fin 128) (h : RxHeader) (p : BitVec 96)
  /-- PARAM_ACK_RX (R163): An upstream PARAM_ACK ends a pending PARAM exchange with its result and value. -/
  | paramAckRx (lane : Fin 128) (h : RxHeader) (p : BitVec 96)
  /-- FAULT_RX (R342): An upstream FAULT block is taken once per fault, raises EP_FAULT and takes the head's reaction to its code. -/
  | faultRx (lane : Fin 128) (h : RxHeader) (p : BitVec 96)
  /-- STREAM_RX (R161): An upstream STREAM block is written as a record into its slot's pantry area, and STREAM_WPTR advances. -/
  | streamRx (lane : Fin 128) (h : RxHeader) (p : BitVec 96)
  /-- TIME_SYNC_REPLY_RX (R168): An endpoint REPLY is stamped as T4; the lane delay is measured and filtered, and DELAY_RESP is sent. -/
  | timeSyncReplyRx (lane : Fin 132) (h : RxHeader) (p : BitVec 96)
  /-- AUTH_IDENT_RX (R170): An upstream AUTH IDENT gives the endpoint's identity and type for the exchange and for the roll comparison. -/
  | authIdentRx (lane : Fin 128) (h : RxHeader) (p : BitVec 96)
  /-- AUTH_CHALLENGE_RX (R170): An upstream AUTH CHALLENGE gives the endpoint's nonce for the head's response. -/
  | authChallengeRx (lane : Fin 128) (h : RxHeader) (p : BitVec 96)
  /-- AUTH_RESPONSE_RX (R171): An upstream AUTH RESPONSE is checked against the key from the strongbox, and the head sends its own response and result. -/
  | authResponseRx (lane : Fin 128) (h : RxHeader) (p : BitVec 96)
  /-- AUTH_RESULT_RX (R172): The endpoint's AUTH RESULT completes the exchange as passed or failed. -/
  | authResultRx (lane : Fin 128) (h : RxHeader) (p : BitVec 96)
  /-- ROLE_REPEAT_DUE (R143): ROLE_REPEAT blocks have passed, and a ROLE block is queued again. -/
  | roleRepeatDue (lane : Fin 128)
  /-- PARAM_RETRY_TIMEOUT (R163): No PARAM_ACK has arrived within 50 µs; the PARAM block is sent again, or EP_PARAM fails after four sends. -/
  | paramRetryTimeout (lane : Fin 128)
  /-- AUTH_TIMEOUT (R172): An authentication exchange not complete within 1.0 ms fails, and LINK_AUTH_FAIL is raised. -/
  | authTimeout (lane : Fin 128)
  /-- AUTH_RETRY_EXPIRE (R172): AUTH_RETRY after a failed exchange has passed, and a new CHALLENGE is sent. -/
  | authRetryExpire (lane : Fin 128)
  /-- UP_LOSS_TIMEOUT (R179): No valid upstream block has arrived for UP_LOSS_TIME; LINK_UP_LOSS is raised and the lane's samples are marked stale. -/
  | upLossTimeout (lane : Fin 128)
  /-- EP_PARAM (R184): Carries one endpoint parameter read or write on a lane's stream and returns the acknowledgement. -/
  | epParam (mb : Fin 8)
  /-- EP_REAUTH (R185): Restarts authentication on a lane and replies when the exchange ends. -/
  | epReauth (mb : Fin 8)
  /-- TS_INTERVAL_EXPIRE (R204): A lane's slot within TS_INTERVAL arrives, and a TIME_SYNC SYNC is sent on it. -/
  | tsIntervalExpire (lane : Fin 128)
  /-- SYNC_RX (R407): A SYNC from a twin or ring source is received and answered with REPLY. -/
  | syncRx (port : ServiceLane) (h : RxHeader) (p : BitVec 96)
  /-- DELAY_RESP_RX (R193): A DELAY_RESP from the time source gives the offset, which updates the lock state and TIME_RATE or steps tick time. -/
  | delayRespRx (port : ServiceLane) (h : RxHeader) (p : BitVec 96)
  /-- RING_TIME_RX (R197): A ring time message is judged by TIME_GEN, MASTER_HEAD and HOPS, may be followed, and is forwarded. -/
  | ringTimeRx (side : RingSide) (h : RxHeader) (p : BitVec 96)
  /-- STA_FRAME_RX (R212): A station port frame is received, stamped and admitted to PTP, or dropped and counted. -/
  | staFrameRx (port : Fin 2) (frame : List (BitVec 8))
  /-- STA_LINK_UP (R213): A station port's link comes up, and the receive comma alignment is measured. -/
  | staLinkUp (port : Fin 2) (align : Fin 10)
  /-- PTP_MESSAGE_TIMER (R211): The Sync or Pdelay_Req interval of a PTP port expires, and the message is sent. -/
  | ptpMessageTimer (port : Fin 2) (kind : PtpTimer)
  /-- STA_LAUNCH_DUE (R216): A queued timed frame reaches its LAUNCH_TIME and is sent, with its stamp queued if asked. -/
  | staLaunchDue (port : Fin 2)
  /-- TCAP_CAPTURE (R221): A write of TCAP_CTRL.CAPTURE stores the tick time and the PTP time of its arrival, or counts OVERRUN. -/
  | tcapCapture (w : BitVec 32)
  /-- TIME_CAP_IN_EDGE (R221): A selected edge on TIME_CAP_IN stores a capture of tick time and PTP time. -/
  | timeCapInEdge (rising : Bool) (ticks : BitVec 32 := 16)
  /-- TCAP_STATUS_WRITE (R220): A W1C write of TCAP_STATUS frees the capture registers or clears OVERRUN. -/
  | tcapStatusWrite (w : BitVec 32)
  /-- TIME_SET (R226): Loads tick time on the master and returns the time it replaced. -/
  | timeSet (mb : Fin 8)
  /-- TIME_MASTER_SET (R227): Names the group time master by sending a new TIME_GEN round the ring. -/
  | timeMasterSet (mb : Fin 8)
  /-- RING_MASTER_RX (R227): A RING_MASTER claim or acknowledgement is taken and may complete a pending TIME_MASTER_SET. -/
  | ringMasterRx (side : RingSide) (h : RxHeader) (p : BitVec 96)
  /-- STA_LAUNCH (R228): Copies a frame from the pantry into a station port's launch queue. -/
  | staLaunch (mb : Fin 8)
  /-- STA_STAMP_READ (R229): Removes and returns the host-owned transmit stamps of a port. -/
  | staStampRead (mb : Fin 8)
  /-- STRING_BOUNDARY (R231): At a string period boundary the modulator captures the shadows, references, dead times and bypass decisions, and begins the plan of the output period. -/
  | stringBoundary (str : Fin 16)
  /-- PLAN_COMPLETE (R232): A string's plan is complete and its edges are expanded onto the shelves; pending bypass and release replies are written. -/
  | planComplete (str : Fin 16)
  /-- SHELF_ENTRY_EXPIRE (R251): A shelf entry's time passes; it leaves the shelf and further entries are expanded into the room. -/
  | shelfEntryExpire (lane : Fin 128)
  /-- STRING_START (R266): Starts a string at a given first output instant and returns B_0 and N. -/
  | stringStart (mb : Fin 8)
  /-- STRING_STOP (R267): Stops a string at its next captured boundary, or cancels a start that has not reached its first output. -/
  | stringStop (mb : Fin 8)
  /-- RAW_EDGE_LOAD (R268): Checks host-written raw edges and shelves them all, or none. -/
  | rawEdgeLoad (mb : Fin 8)
  /-- STRING_FIRST_OUTPUT (R257): A starting string reaches O_0 and is RUNNING; START_BYPASSED members receive bypass records. -/
  | stringFirstOutput (str : Fin 16)
  /-- STRING_STOP_OUTPUT (R261): A stopping string reaches O_k and becomes STOPPED. -/
  | stringStopOutput (str : Fin 16)
  /-- DT_JUDGE_TIMEOUT (R274): A selected transition is judged with the records received by t_on + 4 µs + LANE_DELAY. -/
  | dtJudgeTimeout (lane : Fin 128) (leg : Fin 6)
  /-- SORT_STATS_FORMED (R286): At B_k + 2,560 ticks a string's order and statistics count as formed and are offered to the loop engine and to the standby. -/
  | sortStatsFormed (str : Fin 16)
  /-- TWIN_ORDER_TIMEOUT (R288): The active's order has not arrived at the standby by B_k + 6,400 ticks; the standby uses its own order and counts TWIN_ORDER_MISS. -/
  | twinOrderTimeout (str : Fin 16)
  /-- DT_RESET (R291): Returns the selected legs to DT_INIT, clears their fallback and zeroes their bad counts. -/
  | dtReset (mb : Fin 8)
  /-- SORT_READ (R293): Returns the order used by a string's latest plan. -/
  | sortRead (mb : Fin 8)
  /-- LOOP_LOAD (R327): Copies descriptors or coefficient sets from the pantry into a shadow table. -/
  | loopLoad (mb : Fin 8)
  /-- LOOP_COMMIT (R328): Checks the shadow loop tables and hands them to the engine for adoption at the next walked boundary. -/
  | loopCommit (mb : Fin 8)
  /-- LARDER_WRITE (R329): Copies entries from the pantry into the larder, live. -/
  | larderWrite (mb : Fin 8)
  /-- LARDER_READ (R329): Returns entries of the larder. -/
  | larderRead (mb : Fin 8)
  /-- LE_START (R330): Starts the loop engine at the first boundary at least 1 µs ahead. -/
  | leStart (mb : Fin 8)
  /-- LE_STOP (R330): Stops the loop engine at the next boundary. -/
  | leStop (mb : Fin 8)
  /-- LOOP_PRESET (R331): Sets one loop's integrator at its next walked boundary. -/
  | loopPreset (mb : Fin 8)
  /-- PROT_SOURCE_STALE (R335): A protection source goes stale under PROT_STALE, which trips a running string with BLIND. -/
  | protSourceStale (str : Fin 16)
  /-- UV_ARM_EXPIRE (R335): UV_ARM after O_0 passes, and the undervoltage causes are armed. -/
  | uvArmExpire (str : Fin 16)
  /-- STRING_TRIP (R362): The host trips a string with cause HOST. -/
  | stringTrip (mb : Fin 8)
  /-- TRIP_CLEAR (R350): Clears a string's trip when no latched cause is present; the string becomes STOPPED. -/
  | tripClear (mb : Fin 8)
  /-- CELL_BYPASS (R362): The host bypasses an MV cell by the planned path or the urgent path. -/
  | cellBypass (mb : Fin 8)
  /-- CELL_RELEASE (R362): The host removes a bypass record, and the cell returns at the next boundary of a running string. -/
  | cellRelease (mb : Fin 8)
  /-- RIDE_CMD (R359): GO, ABORT or SKIP_DEW acts on the restart order. -/
  | rideCmd (mb : Fin 8)
  /-- SERVICE_SLOT (R408): Each block slot of a twin or ring lane is filled by type priority with forwarded and own blocks. -/
  | serviceSlot (port : ServiceLane)
  /-- TW_ROLE_RX (R369): A TW_ROLE block is taken; it may accept a joining standby or reveal a newer epoch. -/
  | twRoleRx (side : TwinSide) (h : RxHeader) (p : BitVec 96)
  /-- TW_COMPARE_RX (R375): The standby receives the active's comparison digests and classifies the period. -/
  | twCompareRx (side : TwinSide) (h : RxHeader) (part : ComparePart) (p : BitVec 96)
  /-- TW_TRIP_RX (R378): A trip from the twin is taken whatever its epoch, latching the sender's causes, and TRIP_SOLO is counted if this unit had not decided the trip. -/
  | twTripRx (side : TwinSide) (h : RxHeader) (p : BitVec 96)
  /-- TW_FWD_RX (R373): The standby takes a forwarded request in chunks, applies it, and answers TW_ACK. -/
  | twFwdRx (side : TwinSide) (h : RxHeader) (p : BitVec 96)
  /-- TW_ACK_RX (R373): An acknowledgement of a forwarded request lets the active's command complete or fail. -/
  | twAckRx (side : TwinSide) (h : RxHeader) (p : BitVec 96)
  /-- TW_STATE_RX (R377): The standby takes a dead-time step, an order, a ride state, or a resync or qualification chunk from the active. -/
  | twStateRx (side : TwinSide) (h : RxHeader) (s : TwStateMsg)
  /-- TW_HEALTH_RX (R380): A TW_HEALTH report from the twin updates TWIN_HEALTH and the SAFETY presence of an unused island. -/
  | twHealthRx (side : TwinSide) (h : RxHeader) (p : BitVec 96)
  /-- TW_CASE_RX (R388): A TW_CASE message opens a case with frozen evidence, requests a resync, or closes a case. -/
  | twCaseRx (side : TwinSide) (h : RxHeader) (p : BitVec 96)
  /-- TW_SURRENDER_RX (R382): The standby receives TW_SURRENDER from the active. -/
  | twSurrenderRx (side : TwinSide) (h : RxHeader) (p : BitVec 96)
  /-- TW_RESET_RX (R398): A reset request from the twin starts a chip reset of this unit. -/
  | twResetRx (side : TwinSide) (h : RxHeader) (p : BitVec 96)
  /-- SELFTEST_PERIOD (R379): A periodic self-test of R379 runs, or has not completed within twice its period. -/
  | selftestPeriod (bit : Fin 12) (result : TestResult)
  /-- CASE_REPLAY_DONE (R390): A unit's checker finishes replaying its evidence, and the result is sent as a claim. -/
  | caseReplayDone (reproduced : Bool)
  /-- REFEREE_REPLAY_DONE (R389): The referee's own replay of the active's evidence completes and a verdict is sent. -/
  | refereeReplayDone (head : Fin 8) (matchActive matchStandby : Bool)
  /-- ARB_VD_STABLE (R389): A non-zero ARB_VD code stable for 2 µs while ARB_REQ_N is low is taken as the verdict. -/
  | arbVdStable (code : BitVec 2)
  /-- ROLE_SET (R396): Sets the role of the receiving unit. -/
  | roleSet (mb : Fin 8)
  /-- TWIN_SWITCH (R397): Moves the active role to the qualified standby at C_s. -/
  | twinSwitch (mb : Fin 8)
  /-- UNIT_RESET (R398): Requests a chip reset of this unit or of the twin, 1 ms after DONE. -/
  | unitReset (mb : Fin 8)
  /-- TWIN_RESYNC (R399): Starts a resync of the standby from the active at once. -/
  | twinResync (mb : Fin 8)
  /-- RING_CENSUS_RX (R410): A census block updates the presence of its node and head, and may raise RING_NODE_CLASH. -/
  | ringCensusRx (side : RingSide) (h : RxHeader) (p : BitVec 96)
  /-- RING_SUMMARY_RX (R413): A string summary from another head becomes the latest summary of its global string. -/
  | ringSummaryRx (side : RingSide) (h : RxHeader) (p : BitVec 96)
  /-- RING_WRITE_RX (R416): A group window write is applied, skipped or discarded by its WSEQ. -/
  | ringWriteRx (side : RingSide) (h : RxHeader) (p : BitVec 96) (mgmt : MgmtAccess := .idle)
  /-- RING_HEALTH_RX (R406): A unit's health report arrives over the ring at the referee. -/
  | ringHealthRx (side : RingSide) (h : RxHeader) (p : BitVec 96)
  /-- RING_REF_RX (R414): An arbitration request, claim, evidence chunk, verdict or cancel arrives over the ring. -/
  | ringRefRx (side : RingSide) (h : RxHeader) (p : BitVec 96)
  /-- CENSUS_NODE_TIMEOUT (R410): No census from a node for 300 µs; the node is no longer present and RING_NODE_LOST is raised. -/
  | censusNodeTimeout (node : Fin 17)
  /-- PANTRY_HOST_READ (R426): A host read of BAR2 reads pantry words, directly or through the alias, with arbitration and clash warnings. -/
  | pantryHostRead (addr : BitVec 24) (mgmt : MgmtAccess) (ring : Option PortWrite) (p : HostPort := .pcie)
  /-- PANTRY_HOST_WRITE (R426): A host write of BAR2 writes pantry words, directly or through the alias, with collision handling. -/
  | pantryHostWrite (addr : BitVec 24) (v : BitVec 32) (be : BitVec 4) (mgmt : MgmtAccess) (ring : Option PortWrite) (p : HostPort := .pcie)
  /-- BANK_IDLE_TIMEOUT (R430): A woken bank has seen no access for 10 µs and returns to Retention. -/
  | bankIdleTimeout (bank : Fin 16)
  /-- BANK_CLEAR_DONE (R431): A bank switched on from Off finishes clearing and stops counting as Off. -/
  | bankClearDone (bank : Fin 16)
  /-- ADC_CONVERSION_DONE (R441): A sequence or urgent conversion completes, and its value is formed and checked against its limits. -/
  | adcConversionDone (pair : Fin 2) (codeE codeO : BitVec 12)
  /-- HK_PAIR_SLEEP (R447): A converter pair with no conversion for 2 µs goes to sleep. -/
  | hkPairSleep (pair : Fin 2)
  /-- HK_WAKE_DONE (R447): A converter pair's 0.5 µs wake ends, and its pending conversion starts. -/
  | hkWakeDone (pair : Fin 2)
  /-- FAN_TACH_EDGE (R453): A FAN_TACH pulse updates the fan's period and speed. -/
  | fanTachEdge (fan : Fin 4)
  /-- FAN_PULSE_TIMEOUT (R453): A fan with no pulse for 1 s reads 0 rpm. -/
  | fanPulseTimeout (fan : Fin 4)
  /-- HK_CONVERT (R466): Queues an urgent conversion and returns its codes and value. -/
  | hkConvert (mb : Fin 8)
  /-- THERM_READ (R467): Returns a shutdown record and marks it read. -/
  | thermRead (mb : Fin 8)
  /-- THERM_CLEAR (R467): Removes a read shutdown record, and its zone leaves shutdown. -/
  | thermClear (mb : Fin 8)
  /-- AUX_PERIOD_BOUNDARY (R478): At a bridge's PWM period boundary the bridge takes up its shadowed values, changes mode, or inserts a refresh. -/
  | auxPeriodBoundary (b : Fin 2)
  /-- AUX_SCHEDULED_EDGE (R480): A scheduled gate edge of a PWM level change, a refresh or a mode change becomes due. -/
  | auxScheduledEdge (b : Fin 2)
  /-- AUX_OFF_RISE (R474): A gate-off confirmation input rises, and a waiting turn-on of the partner switch takes place. -/
  | auxOffRise (b : Fin 2) (k : Fin 6)
  /-- AUX_CONF_TIMEOUT_EXPIRE (R474): A waiting turn-on is abandoned after AUX_CONF_TIMEOUT, and AUX_CONF_FAIL is raised. -/
  | auxConfTimeoutExpire (b : Fin 2) (k : Fin 6)
  /-- AUX_OFF_STUCK_TIMEOUT (R475): An OFF input still low 2 µs after its switch was commanded off raises AUX_OFF_STUCK. -/
  | auxOffStuckTimeout (b : Fin 2) (k : Fin 6)
  /-- AUX_SG_FILTER_EXPIRE (R476): An SG input has been low or high for AUX_UV_FILT; the switch's lockout begins or ends. -/
  | auxSgFilterExpire (b : Fin 2) (k : Fin 6)
  /-- AUX_NODE_CHANGE (R483): A change of a node input gives the node time of a transition for dead-time adaptation. -/
  | auxNodeChange (b : Fin 2) (p : Fin 3) (level : Bool)
  /-- AUX_NODE_WINDOW_END (R483): 2 µs after a turn-off without a node change, the transition is classed NOCROSS. -/
  | auxNodeWindowEnd (b : Fin 2) (p : Fin 3)
  /-- AUX_TRIP_PIN_EDGE (R488): An edge on a trip input starts or restarts its filter count. -/
  | auxTripPinEdge (b i : Fin 2) (level : Bool)
  /-- AUX_TRIP_ACTIVE (R488): A trip input has been low for FILT steps and latches a trip of its bridge. -/
  | auxTripActive (b i : Fin 2)
  /-- AUX_TRIP_CLEAR (R495): Clears latched bridge trips and sets the bridge's mode to OFF. -/
  | auxTripClear (mb : Fin 8)
  /-- AUX_SAFE (R495): Puts a bridge at once into OFF or into an active short. -/
  | auxSafe (mb : Fin 8)
  /-- POS_EDGE (R501): An accepted A or B edge, or a tooth, moves COUNT and STAMP. -/
  | posEdge (ch : Fin 4) (a b : Bool)
  /-- POS_INDEX (R503): An accepted index latches REF_LATCH and may reset COUNT or take a pending POS_SET. -/
  | posIndex (ch : Fin 4)
  /-- POS_WIRE_FILTER_EXPIRE (R500): A pair's wires disagree, or agree again, for WIRE_FILT steps; the wire flag is set or cleared. -/
  | posWireFilterExpire (ch : Fin 4) (pair : Fin 3)
  /-- POS_SPEED_WINDOW (R507): A speed window ends; SPEED is updated and the speed mode may change. -/
  | posSpeedWindow (ch : Fin 4)
  /-- POS_ZERO_TIMEOUT (R507): No count change for ZERO_TIME sets SPEED to 0 and sets ZERO. -/
  | posZeroTimeout (ch : Fin 4)
  /-- POS_CMP_PULSE_END (R511): PULSE steps after a firing, POS<n>_CMP_OUT falls. -/
  | posCmpPulseEnd (u : Fin 8)
  /-- POS_SET (R514): Sets COUNT now, or at the next index or reference. -/
  | posSet (mb : Fin 8)
  /-- SAFE_INPUT_EDGE (R526): A safety input changes level in the safety island. -/
  | safeInputEdge (inp : Fin 17) (level : Bool)
  /-- SAFE_DEMAND_FILTER (R528): An input low for its filter time is in demand, stops the island, and removes the outputs. -/
  | safeDemandFilter (inp : Fin 14)
  /-- SAFE_DISCREPANCY_TIMEOUT (R528): The two inputs of a pair differ beyond the discrepancy time, and the function fault DISCREPANCY is latched. -/
  | safeDiscrepancyTimeout (fn : Fin 5)
  /-- SAFE_TEST_PULSE (R527): A test output pulses low, and its expected window is checked on the inputs it feeds. -/
  | safeTestPulse (out : Fin 2) (own cross : BitVec 17)
  /-- SAFE_SEAL_CHECK (R525): The seal is read again every 10 ms; any change locks the island out. -/
  | safeSealCheck (sealV : BitVec 16)
  /-- SAFE_CLOCK_CHECK (R519): Every 1 ms each channel measures the other's clock; a deviation beyond ±10% locks the island out. -/
  | safeClockCheck (deviation : Int)
  /-- SAFE_CHANNEL_EXCHANGE (R536): Every 500 µs the two channels exchange their decisions and readings; a disagreement beyond 1 ms locks the island out. -/
  | safeChannelExchange (pPermit hPermit : Bool) (inputsDiffer : Bool)
  /-- SAFE_SELFTEST (R520): A self-test of channel P completes, fails, or overruns and locks the island out. -/
  | safeSelftest (test : SafeTest) (result : TestResult)
  /-- SAFE_START_DONE (R532): START ends in STOPPED, LOCKOUT or UNUSED after its self-tests and seal checks. -/
  | safeStartDone (sealV : BitVec 16)
  /-- SAFE_READBACK_TIMEOUT (R522): An output differs from its gates for more than 20 µs, and the island locks out with OUTPUT_READBACK. -/
  | safeReadbackTimeout (out : Fin 4)
  /-- SAFE_CHAIN_MEASURE (R538): A returned inhibit chain's period is measured, and LOOP_CROSS or LOOP_STUCK is found. -/
  | safeChainMeasure (chain : Fin 2) (period : Nat)
  /-- SAFE_LOOP_BROKEN_TIMEOUT (R538): A return shows no edge for 50 µs with its carrier on, and LOOP_BROKEN is reported. -/
  | safeLoopBrokenTimeout (chain : Fin 2)
  /-- SAFE_PERMIT_LINE_CHANGE (R540): The permit line changes; GSTAT.SAFE_PERMIT follows, and a fall trips the active strings with SAFETY. -/
  | safePermitLineChange (level : Bool)
  /-- EN_GRACE_EXPIRE (R560): |p| has exceeded its limit for GRACE, and EN_LIMIT_EXCEEDED is raised. -/
  | enGraceExpire (port : Fin 16)
  /-- ENERGY_READ (R562): Returns a signed readout of a port's registers. -/
  | energyRead (mb : Fin 8)
  /-- DEMAND_RESET (R563): Sets the maximum demands of a port or of every port to 0 and logs the reset. -/
  | demandReset (mb : Fin 8)
  /-- RTC_SET (R565): Loads the RTC seconds at the next whole second and logs the change. -/
  | rtcSet (mb : Fin 8)
  /-- TAMP_ZEROISE (R569): Zeroises the MRAM key on command. -/
  | tampZeroise (mb : Fin 8)
  /-- TAMPER_SAMPLE (R566): Every 1/256 s the tamper inputs are sampled, and an event is raised after FILT failing samples. -/
  | tamperSample (levels : BitVec 4)
  /-- VBAT_LOW_DETECT (R566): VBAT below 2.30 V while it supplies the domain raises a tamper event. -/
  | vbatLowDetect (mv : BitVec 16)
  /-- BATTERY_SWITCHOVER (R564): The battery domain changes its supply between VDD_IO and VBAT without loss of state. -/
  | batterySwitchover (toVbat : Bool)
  /-- FAULT_RECORD_MIRROR (R590): An opened or changed fault record is mirrored to the attic. -/
  | faultRecordMirror (id : BitVec 32)
  /-- FAULT_READ (R594): Returns a fault record and marks it read. -/
  | faultRead (mb : Fin 8)
  /-- FAULT_CLEAR (R595): Removes a read fault record that has no present source, or clears the overflow flags. -/
  | faultClear (mb : Fin 8)
  /-- FAULT_INJECT (R596): Fires a source in the collector alone, for test. -/
  | faultInject (mb : Fin 8)
  /-- LOFT_WRITE (R605): Copies bytes from the pantry into the loft and cancels any schedule. -/
  | loftWrite (mb : Fin 8)
  /-- LOFT_VERIFY (R605): Checks the loft image and marks it VERIFIED. -/
  | loftVerify (mb : Fin 8)
  /-- LOFT_SCHEDULE (R606): Schedules the activation of the loft image at a tick time, or cancels it. -/
  | loftSchedule (mb : Fin 8)
  /-- EP_IMAGE_STORE (R610): Checks an endpoint image and stores it in a slot. -/
  | epImageStore (mb : Fin 8)
  /-- EP_IMAGE_SEND (R610): Sends a stored endpoint image to a range of lanes as IMAGE_CHUNK blocks. -/
  | epImageSend (mb : Fin 8)
  /-- PKG_APPLY (R614): Checks a signed package and applies its parameter, larder, roll and loop records. -/
  | pkgApply (mb : Fin 8)
  /-- OWNER_LOCK (R616): Sets the owner lock, or clears it with a signed token. -/
  | ownerLock (mb : Fin 8)
  /-- LC_SET (R618): Makes a life-cycle transition, wiping the strongbox first. -/
  | lcSet (mb : Fin 8)
  /-- ATTIC_READ (R619): Returns entries of the attic log. -/
  | atticRead (mb : Fin 8)
  /-- SUPPLY_MONITOR_LOW (R626): A monitored rail below 96% for 2 µs starts a chip reset with cause POWER_ON. -/
  | supplyMonitorLow (rail : Fin 5)
  /-- DBG_UNLOCK (R648): Opens the debug port in FIELD under an owner token for a scope and a time. -/
  | dbgUnlock (mb : Fin 8)
  /-- DBG_LOCK (R649): Closes an opening by token, resumes the cores and clears breakpoints. -/
  | dbgLock (mb : Fin 8)
  /-- JTAG_INSTRUCTION_LOAD (R642): An instruction is loaded into the test access port; it acts, or selects bypass while the port is closed. -/
  | jtagInstructionLoad (i : JtagInstr)
  /-- DEBUG_HALT (R643): An open debug port halts a Ubfer core. -/
  | debugHalt (core : Fin 2)
  /-- DEBUG_RESUME (R643): An open debug port resumes a halted core. -/
  | debugResume (core : Fin 2)
  /-- DEBUG_STEP (R643): An open debug port single-steps a halted core. -/
  | debugStep (core : Fin 2)
  /-- DEBUG_BREAKPOINT_HIT (R643): A core meets an instruction breakpoint or a data watchpoint and halts. -/
  | debugBreakpointHit (core : Fin 2)
  /-- DEBUG_MEM_ACCESS (R643): An open debug port accesses tightly coupled memory, BAR0 or the pantry. -/
  | debugMemAccess (space : DebugSpace) (addr : BitVec 32) (write : Option (BitVec 32))
  /-- IDLE_BLOCK_RX (R139): An IDLE block with a valid CRC is received on a cell, twin or ring lane; its SEQ is checked for loss and it counts as a valid block for the upstream-loss and twin-stream timers. -/
  | idleBlockRx (lane : Fin 132) (h : RxHeader)
  /-- AUX_SG_EDGE (R476): An edge on an AUX SG input starts or restarts the AUX_UV_FILT count toward lockout or its end. -/
  | auxSgEdge (b : Fin 2) (k : Fin 6) (level : Bool)
  /-- POS_PIN_EDGE (R499): An edge on a position input line or wire starts or restarts its FILT + 1 or WIRE_FILT acceptance count. -/
  | posPinEdge (ch : Fin 4) (line : Fin 3) (plus minus : Bool)
  /-- SAFE_FUNCTION_PERMIT_FILTER (R528): Both inputs of a function have been high for 200 µs, or 400 µs for the OSSDs, and the function ends its stop demand, which may also clear a latched function fault under R534. -/
  | safeFunctionPermitFilter (fn : Fin 6)
  /-- SAFE_THC_PAIR_TIMEOUT (R530): One contact of a two-hand input has changed and its partner has not followed within 50 ms, and the function fault THC_PAIR is latched. -/
  | safeThcPairTimeout (hand : Fin 2)
  /-- MAIN_PLL_LOCK (R638): The main PLL locks after a chip reset; this is the end of reset, tick time starts and HOST_SEL is sampled. -/
  | mainPllLock (hostSel : Bool := false)
  /-- GSTAT_READ (R64): A host read of GSTAT returns the global status and clears the pending FAULT_PIN-change interrupt condition. -/
  | gstatRead
  /-- GLOAD_READ (R55): A host read of GLOAD returns the load and clears the read-clear field MP_LOAD_PEAK. -/
  | gloadRead
  /-- NR_DROPPED_READ (R82): A host read of NR_DROPPED returns the count of dropped entries and clears it. -/
  | nrDroppedRead
  /-- MAILBOX_TAKE (R61): Ubfer takes the oldest pending mailbox, copies its whole request, enters ACTIVE and dispatches the request. -/
  | mailboxTake
  /-- NR_HOLDOFF_EXPIRE (R82): The oldest unread notification becomes older than NR_HOLDOFF, and the notification interrupt is raised. -/
  | nrHoldoffExpire
  /-- HOST_LINK_DOWN (R92): A PCI Express link-down, hot reset or PERST_N assertion makes Ubfer discard the pending requests and every held set, without resetting the device. -/
  | hostLinkDown
  /-- RING_TIME_SEND (R196): Every 10 µs the active of the master head sends RING_TIME and a SYNC on both ring lanes. -/
  | ringTimeSend
  /-- TIME_NEIGHBOUR_TIMEOUT (R197): The followed ring neighbour has delivered no valid message for 30 µs, and the unit changes neighbour. -/
  | timeNeighbourTimeout
  /-- MASTER_LOSS_EXPIRE (R198): The time source has been silent for MASTER_LOSS; the unit enters HOLDOVER at the held rate and raises TIME_MASTER_LOSS. -/
  | masterLossExpire
  /-- PPS_SECOND (R223): A whole second of PTP time raises TIME_PPS_OUT. -/
  | ppsSecond
  /-- PPS_PULSE_END (R223): PPS_WIDTH after the rise, TIME_PPS_OUT falls. -/
  | ppsPulseEnd
  /-- TIME_MASTER_SET_TIMEOUT (R227): 200 µs after sending, a TIME_MASTER_SET reaches its point of commitment without every acknowledgement. -/
  | timeMasterSetTimeout
  /-- CONTROL_BOUNDARY (R296): At a control period boundary the loop engine takes its snapshot and starts the walk, or skips the boundary after an overrun. -/
  | controlBoundary
  /-- WALK_COMPLETE (R298): A walk completes and its output set is published to the modulator and to the sorter. -/
  | walkComplete
  /-- MV_RETURN_TIME_EXPIRE (R351): M has stayed at or above RETURN_LEVEL for RETURN_TIME; the MV supply has returned and DARK is left. -/
  | mvReturnTimeExpire
  /-- DEW_HOLD_EXPIRE (R355): DEW_MARGIN has stayed at or above DEW_MIN for DEW_HOLD; DEW_WAIT passes to PRECHARGE. -/
  | dewHoldExpire
  /-- DEW_TIMEOUT_EXPIRE (R355): DEW_TIMEOUT runs out in DEW_WAIT, and the sequence halts with reason 0x02. -/
  | dewTimeoutExpire
  /-- PC_TIMEOUT_EXPIRE (R356): PC_TIMEOUT ends PRECHARGE, with the completion checks applied. -/
  | pcTimeoutExpire
  /-- SYNC_TIMEOUT_EXPIRE (R357): SYNC_TIMEOUT runs out, and the sequence halts with reason 0x05. -/
  | syncTimeoutExpire
  /-- STAGE_GAP_EXPIRE (R358): STAGE_GAP after the previous string reached RUNNING, the next string of ENABLE_ORDER is started. -/
  | stageGapExpire
  /-- PEER_ALIVE_TIMEOUT (R367): TWIN_ALIVE_IN has shown no edge for 20 µs, and the peer counts as dead. -/
  | peerAliveTimeout
  /-- COMPARE_DEADLINE (R375): C_(j+1) + 8 µs passes; the period is classified, or missed comparison records count toward take-over. -/
  | compareDeadline
  /-- TW_FWD_TIMEOUT (R373): No acknowledgement arrives within 200 µs, and the forwarded command ends FAILED. -/
  | twFwdTimeout
  /-- TWIN_STREAM_LOST (R371): Neither twin lane has delivered a valid block for 2 µs. -/
  | twinStreamLost
  /-- TW_HEALTH_PERIOD (R380): Every 1 ms each unit sends TW_HEALTH, also to the referee where REF_MODE is 1. -/
  | twHealthPeriod
  /-- QUALIFY_COMPLETE (R369): The joining standby has loaded the active's configuration, becomes QUALIFIED and raises TWIN_QUALIFIED. -/
  | qualifyComplete
  /-- TWIN_LANES_DOWN_TIMEOUT (R370): The twin lanes have been down for more than 1 s, and the standby loses QUALIFIED. -/
  | twinLanesDownTimeout
  /-- TWIN_STANDBY_TIMEOUT (R385): No twin block for 2 ms with the peer dead; the active declares the standby lost. -/
  | twinStandbyTimeout
  /-- TWIN_SWITCH_BOUNDARY (R387): At C_s the standby becomes ACTIVE at E + 1 in a planned switchover. -/
  | twinSwitchBoundary
  /-- SWITCH_HANDOVER_END (R387): 20 µs after C_s the former active becomes STANDBY at E + 1. -/
  | switchHandoverEnd
  /-- REF_TIMEOUT_EXPIRE (R390): 500 µs after a case opened without a verdict, REF_DEFAULT is applied. -/
  | refTimeoutExpire
  /-- UNIT_RESET_DELAY (R398): 1 ms after a UNIT_RESET was done, the target begins its chip reset. -/
  | unitResetDelay
  /-- CENSUS_PERIOD (R410): Every 100 µs the unit sends its RING_CENSUS. -/
  | censusPeriod
  /-- TAMPER_CORE_EVENT (R436): A tamper event reaches the core and starts the strongbox wipe. -/
  | tamperCoreEvent
  /-- STRONGBOX_WIPE_DONE (R437): A strongbox wipe completes; SB_STATE returns to READY and STRONGBOX_WIPED is notified. -/
  | strongboxWipeDone
  /-- HK_ROUND (R450): At each 10 ms round boundary both converter sequences start. -/
  | hkRound
  /-- AUX_DRIVE_START (R493): 1 µs after a unit becomes ACTIVE, it starts to drive the gate outputs with every switch off. -/
  | auxDriveStart
  /-- SAFE_SUPPLY_OUT (R518): VDD_SAFE outside its limits for 10 µs makes both channels remove every output. -/
  | safeSupplyOut
  /-- SAFE_SUPPLY_RETURN (R518): VDD_SAFE returns within its limits and the island enters START. -/
  | safeSupplyReturn
  /-- SAFE_RESET_RELEASE (R531): A valid press of SAFE_RESET ends in a release and acts as the reset. -/
  | safeResetRelease
  /-- SAFE_LC_CLEAR_EXPIRE (R533): After a stop caused only by the light curtain, 500 ms of a clear curtain grants under S7. -/
  | safeLcClearExpire
  /-- SAFE_EDM_TIMEOUT (R523): The EDM inputs have not changed within 100 ms of a TRIP change, and the island locks out with EDM. -/
  | safeEdmTimeout
  /-- SAFE_DEMAND_DUE (R539): 30 days without a removal of the outputs set DEMAND_DUE. -/
  | safeDemandDue
  /-- SAFE_MIRROR_SEND (R541): The island sends its state over the mirror link every 1 ms and on any change. -/
  | safeMirrorSend
  /-- SAFE_MIRROR_RX (R541): The management island stamps a mirror frame, updates page 0x14 and writes the safety notifications. -/
  | safeMirrorRx
  /-- SAFE_MIRROR_TIMEOUT (R541): No valid mirror frame for 10 ms raises SAFE_MIRROR_LOST. -/
  | safeMirrorTimeout
  /-- ENERGY_COPY_PERIOD (R555): Every 100 ms the registers and the demand state are written to the alternate MRAM copy. -/
  | energyCopyPeriod
  /-- DEMAND_INTERVAL_END (R556): A 900 s demand interval ends; the demands are formed and a non-partial maximum is kept. -/
  | demandIntervalEnd
  /-- RTC_SECOND (R558): At each RTC second the schedule entry and the port limits in effect are chosen afresh and published. -/
  | rtcSecond
  /-- OSC_STOP_DETECT (R566): The 32.768 kHz oscillator stopped for 1 ms raises a tamper event. -/
  | oscStopDetect
  /-- TAMPER_LOG_COPY (R568): Ubfer copies new tamper log entries to the attic, verifies them and clears them from the log. -/
  | tamperLogCopy
  /-- FAULT_CHIP_RESET_DUE (R580): A CHIP_RESET reaction starts its chip reset once mirrored, or 5 ms after the firing. -/
  | faultChipResetDue
  /-- LOFT_ACTIVATE_AT (R607): Tick time reaches ACTIVATE_AT; the unit starts the new image, or skips if it is active and running. -/
  | loftActivateAt
  /-- FW_CONFIRM (R607): Every fatal check passes once under the new image; slot 0 rises and FW_ACTIVATED is written with result 1. -/
  | fwConfirm
  /-- FW_CONFIRM_TIMEOUT (R607): Without confirmation within 5 s the unit resets and exchanges the regions back. -/
  | fwConfirmTimeout
  /-- SUPPLY_MONITOR_RESTORE (R626): Every monitored rail returns above 97%, releasing its hold on the chip reset. -/
  | supplyMonitorRestore
  /-- RESET_N_ASSERT (R634): RESET_N low for 1 µs starts a chip reset with cause RESET_PIN. -/
  | resetNAssert
  /-- RESET_N_RELEASE (R634): RESET_N rises and releases its hold on the chip reset. -/
  | resetNRelease
  /-- CLOCK_LOSS (R632): REFCLK silent for 50 ns, or main PLL unlock, gates every output and starts a chip reset with cause CLOCK. -/
  | clockLoss
  /-- CLOCK_RESTORED (R632): REFCLK within ±1,000 ppm for 1 ms releases the clock hold on the chip reset. -/
  | clockRestored
  /-- SYNC_IN_EDGE (R630): The first SYNC_IN rising edge after lock restarts the output dividers and sets SYNC_ALIGNED. -/
  | syncInEdge
  /-- CLOCK_DIV_BOUNDARY (R629): At each whole microsecond of tick time the output dividers take up their shadow. -/
  | clockDivBoundary
  /-- WATCHDOG_EXPIRE (R635): The watchdog expires unserved; the outputs are gated and a chip reset with cause WATCHDOG starts. -/
  | watchdogExpire
  /-- BOOT_ROM_CHECK_DONE (R639): The boot ROM finishes checking the active image and starts Ubfer, or serves the recovery hatch. -/
  | bootRomCheckDone
  /-- UBFER_READY (R639): Ubfer has restored configuration, records and copies; HATCH_READY becomes 1 and RESET_REPORT is raised. -/
  | ubferReady
  /-- DBG_OPENING_EXPIRE (R644): A debug opening by token reaches its time and closes. -/
  | dbgOpeningExpire
  /-- EXTEST_EXIT (R645): Leaving EXTEST starts a chip reset with cause RESET_PIN. -/
  | extestExit
  /-- TWIN_ALIVE_IN_EDGE (R367): An edge on TWIN_ALIVE_IN restarts the 20 µs alive timer, and a first edge after the peer counted as dead makes it alive again. -/
  | twinAliveInEdge
  /-- VDD_FIELD_LOSS (R472): VDD_FIELD is removed, and the auxiliary gate outputs and the other field outputs become high-impedance. -/
  | vddFieldLoss
  /-- VDD_FIELD_RETURN (R472): VDD_FIELD returns, and a driving unit drives its gate outputs again. -/
  | vddFieldReturn
  /-- BATTERY_DOMAIN_POWER_LOSS (R565): Both VDD_IO and VBAT are gone, and the battery domain loses its RTC, its key and its log. -/
  | batteryDomainPowerLoss
  /-- BATTERY_DOMAIN_POWER_RETURN (R565): Power returns to a battery domain that had lost all power; the RTC starts from 0 with SET = 0 and the power-on flag is set. -/
  | batteryDomainPowerReturn
  /-- PCIE_LINK_TRAINED (R639): The PCI Express link trains and the device answers configuration requests again. -/
  | pcieLinkTrained
deriving DecidableEq, Repr

end Sys2Proof
end

