-- ==== Sys2Proof/Config.lean ====
section
/-!
DEFINITION. What one chip fixes (its fuses and the image it is delivered with) and the free values: constants
with no body, so that no proof can lean on a value of theirs (log 2).
-/

namespace Sys2Proof.Config

/-- The n-th free value: what the spec leaves open each time it is formed (log 2). -/
opaque free : Nat → BitVec 64

/-- The fused unique device number ID_SERIAL (R54). -/
opaque serial : BitVec 64

/-- The fused grade: true for QX128-X (R54). -/
opaque gradeX : Bool

/-- A digest of R374 over what it covers: the CRC-32 in an order internal to the stepping, so an uninterpreted function of the kind of
digest and of the values covered (log 14). -/
opaque dig : Nat → List Int → BitVec 32

/-- The value of a fixed conversion of R442 that the spec gives only an accuracy for (inputs 16 to 27), by input and code (log 17). -/
opaque hkFixed : Nat → Nat → BitVec 16

/-- SAFE_VERSION: the versions of channel P's firmware, of channel H and the CRC of the island ROM (R520, R542). -/
opaque safeVersion : BitVec 64

/-- The fused hash of the vendor's public key (R602). -/
opaque vendorHash : BitVec 256

/-- The vendor's public key the delivered image carries (R602). -/
opaque vendorKey : BitVec 512

/-- VERSION of the Ubfer image the device is delivered with (R601). -/
opaque fwVersion : BitVec 24

/-- ID_FW_BUILD of an image by its VERSION (R54, log 14). -/
opaque fwBuild : Nat → BitVec 32

/-- PAIR_MIN of the Ubfer image the device is delivered with (R601). -/
opaque fwPairMin : BitVec 24

/-- VERSION of the Ubfer image the other unit of the pair runs: no message of the spec carries it (R609, log 14). -/
opaque peerVersion : BitVec 24

/-- PAIR_MIN of the Ubfer image the other unit of the pair runs (R609, log 14). -/
opaque peerPairMin : BitVec 24

end Sys2Proof.Config
end

