-- ==== Sys2Proof/Machine/Bytes.lean ====
section
/-!
DEFINITION. Byte strings and numbers: the little-endian order of R8, two's complement, saturation (R9), bit fields.
Values are decoded to Nat or Int, computed on exactly, and narrowed where they are written back.
-/

namespace Sys2Proof.Machine

/-- The number a little-endian byte string spells (R8). -/
def leNat : Bytes → Nat
  | [] => 0
  | b :: r => b.toNat + 256 * leNat r

/-- The n low bytes of a number, little-endian (R8). -/
def leBytes : Nat → Nat → Bytes
  | 0, _ => []
  | n + 1, v => BitVec.ofNat 8 (v % 256) :: leBytes n (v / 256)

/-- The n low bytes of a number, most significant first. -/
def beBytes (n v : Nat) : Bytes := (leBytes n v).reverse

/-- The two's complement value of the low w bits of a number. -/
def signed (w v : Nat) : Int :=
  let m := v % 2 ^ w
  if 2 * m < 2 ^ w then (m : Int) else (m : Int) - (2 ^ w : Nat)

/-- The low w bits of an integer as a number. -/
def wrap (w : Nat) (i : Int) : Nat := (i % (2 ^ w : Nat)).toNat

/-- The n low bytes of an integer in two's complement, little-endian. -/
def leBytesI (n : Nat) (i : Int) : Bytes := leBytes n (wrap (8 * n) i)

/-- One byte of a string; beyond its end a byte is 0. -/
def byteAt (l : Bytes) (off : Nat) : Nat := (l.getD off 0).toNat

/-- A field of n bytes at an offset; bytes beyond the string's end are 0. -/
def slice (l : Bytes) (off n : Nat) : Bytes := (List.range n).map fun i => l.getD (off + i) 0

/-- The unsigned field of n bytes at an offset. -/
def uAt (l : Bytes) (off n : Nat) : Nat := leNat (slice l off n)

/-- The signed field of n bytes at an offset. -/
def sAt (l : Bytes) (off n : Nat) : Int := signed (8 * n) (uAt l off n)

/-- A string at least n bytes long, padded with 0. -/
def padTo (l : Bytes) (n : Nat) : Bytes := l ++ List.replicate (n - l.length) 0

/-- A string with a field replaced at an offset, padded with 0 where it was shorter. -/
def setSlice (l : Bytes) (off : Nat) (v : Bytes) : Bytes :=
  let p := padTo l (off + v.length)
  p.take off ++ v ++ p.drop (off + v.length)

/-- Whether a byte string is all 0. -/
def allZero (l : Bytes) : Bool := l.all (· == 0)

/-- Bits hi down to lo of a number. -/
def bits (v hi lo : Nat) : Nat := v / 2 ^ lo % 2 ^ (hi - lo + 1)

/-- One bit of a number. -/
def bit (v n : Nat) : Bool := v / 2 ^ n % 2 == 1

/-- A Boolean as a bit. -/
def b2n (b : Bool) : Nat := if b then 1 else 0

/-- A number with one bit set or cleared. -/
def setBit (v n : Nat) (b : Bool) : Nat := v - b2n (bit v n) * 2 ^ n + b2n b * 2 ^ n

/-- An integer limited to a range (R9). -/
def clampI (lo hi i : Int) : Int := if i < lo then lo else if hi < i then hi else i

/-- A number limited to a highest value: a saturating count. -/
def satN (w n : Nat) : Nat := if n < 2 ^ w then n else 2 ^ w - 1

/-- Saturation to a signed w-bit value (R9). -/
def satI (w : Nat) (i : Int) : Int := clampI (-((2 ^ (w - 1) : Nat) : Int)) ((2 ^ (w - 1) : Nat) - 1) i

/-- Q1.15 saturation (R9). -/
def sat16 (i : Int) : Int := satI 16 i

/-- The signed difference of two numbers on a circle of 2^w (R85, R188). -/
def sdiff (w a b : Nat) : Int := signed w (wrap w ((a : Int) - b))

/-- Ceiling division. -/
def ceilDiv (a b : Nat) : Nat := (a + b - 1) / b

/-- The greatest of a list of numbers, or 0. -/
def listMax (l : List Nat) : Nat := l.foldl max 0

/-- Removes one element from a list, if it is there. -/
def removeOne {α : Type} [DecidableEq α] (x : α) : List α → List α
  | [] => []
  | y :: r => if x = y then r else y :: removeOne x r

end Sys2Proof.Machine
end

