-- ==== Sys2Proof/Machine/ParamRow.lean ====
section
/-!
DEFINITION. The form of one row of a parameter page (R74, R75) and the small checks the pages' tables are written with.
-/

namespace Sys2Proof.Machine

/-- The access codes, in the order of PARAM_INFO (R11, R75). -/
inductive Access where
  | ro | rw | wo | w1c | rc
deriving DecidableEq, Repr

/-- The change classes, in the order of PARAM_GET's CLASS (R13, R75). -/
inductive ParamClass where
  | live | shadowed | halt | perField
deriving DecidableEq, Repr

/-- The instance kinds, in the order of PARAM_INFO (R75). -/
inductive InstKind where
  | none | lane | string | loop | other
deriving DecidableEq, Repr

/-- The block that owns a parameter's boundary (R13, R79). -/
inductive Owner where
  /-- No boundary: the value is live. -/
  | live
  /-- The modulator, per string: instance kind string, or lane values of the string in the working roll. -/
  | string
  /-- The loop engine. -/
  | loops
  /-- The housekeeping sequences. -/
  | hk
  /-- An auxiliary bridge, by instance. -/
  | bridge
  /-- A position channel or compare unit. -/
  | pos
  /-- The clock block. -/
  | clock
  /-- A page with its own commit command. -/
  | own
deriving DecidableEq, Repr

/-- One row of a parameter page. -/
structure ParamRow where
  /-- The ID. -/
  id : Nat
  /-- The size in bytes. -/
  size : Nat
  /-- The access code. -/
  acc : Access := .rw
  /-- The change class. -/
  cls : ParamClass := .live
  /-- The instance kind. -/
  kind : InstKind := .none
  /-- The number of instances. -/
  count : Nat := 1
  /-- The owning block. -/
  owner : Owner := .live
  /-- Whether the page has its own commit command (R80). -/
  ownCommit : Bool := false
  /-- Whether the owner lock refuses a write (R81). -/
  lockable : Bool := false
  /-- Whether a write is saved to the configuration store before the reply. -/
  saved : Bool := false
  /-- The reset value by instance; bytes not given are 0. -/
  reset : Nat → Bytes := fun _ => []
  /-- The range of reason 0x05, by instance. -/
  ok : Nat → Bytes → Bool := fun _ _ => true
  /-- Whether the reserved fields are 0 (reason 0x0D). -/
  rsvd : Bytes → Bool := fun _ => true
  /-- The widths in bytes of the saturating counts an RC parameter holds, in order. -/
  fields : List Nat := []

/-- A number within a range. -/
def inR (v lo hi : Nat) : Bool := decide (lo ≤ v) && decide (v ≤ hi)

/-- An integer within a range. -/
def inI (v lo hi : Int) : Bool := decide (lo ≤ v) && decide (v ≤ hi)

/-- Whether n bytes at an offset are 0. -/
def zeroAt (v : Bytes) (off n : Nat) : Bool := uAt v off n == 0

/-- The highest instance number plus one, or the INSTANCE of kind none (R74). -/
def ParamRow.instOk (r : ParamRow) (inst : Nat) : Bool :=
  match r.kind with
  | .none => inst == 0xFFFF
  | _ => decide (inst < r.count)

/-- The reset value at full size. -/
def ParamRow.resetVal (r : ParamRow) (inst : Nat) : Bytes := (padTo (r.reset inst) r.size).take r.size

/-- One unsigned number filling the parameter, with its range and reset value. -/
def numRow (id size reset lo hi : Nat) : ParamRow :=
  { id, size, reset := fun _ => leBytes size reset, ok := fun _ v => inR (uAt v 0 size) lo hi }

/-- A row of class H. -/
def haltRow (r : ParamRow) : ParamRow := { r with cls := .halt }

/-- A row of class S with its owning block. -/
def shadowRow (o : Owner) (r : ParamRow) : ParamRow := { r with cls := .shadowed, owner := o }

/-- A row with its instance kind and count. -/
def perRow (k : InstKind) (n : Nat) (r : ParamRow) : ParamRow := { r with kind := k, count := n }

/-- A row saved to the configuration store. -/
def savedRow (r : ParamRow) : ParamRow := { r with saved := true }

/-- A read-only row. -/
def roRow (id size : Nat) (kind : InstKind := .none) (count : Nat := 1) : ParamRow :=
  { id, size, acc := .ro, kind, count }

/-- A read-and-clear row of saturating counts. -/
def rcRow (id : Nat) (fields : List Nat) (kind : InstKind := .none) (count : Nat := 1) : ParamRow :=
  { id, size := fields.foldl (· + ·) 0, acc := .rc, kind, count, fields }

end Sys2Proof.Machine
end

