-- ==== Sys2Proof/Machine/PagesCore.lean ====
section
/-!
DEFINITION. The parameter pages of the host, the roll, time, the station ports, the twin, faults, clocks and debug:
pages 0x01 (R56), 0x02 (R88), 0x03 (R36), 0x06 (R224), 0x07 (R225), 0x0D (R395), 0x0F (R438), 0x17 (R593), 0x19 (R646), 0x1A (R647).
-/

namespace Sys2Proof.Machine

/-- Page 0x01, global parameters (R56). -/
def page01 : List ParamRow := [
  roRow 0x0101 24,
  roRow 0x0102 12,
  roRow 0x0103 8,
  { id := 0x0104, size := 32, saved := true },
  roRow 0x0105 8]

/-- Page 0x02, load and shedding (R88). The ordering of the thresholds is a relation of R77 step 4. -/
def page02 : List ParamRow := [
  roRow 0x0201 2,
  numRow 0x0202 2 800 0 0xFFFF,
  numRow 0x0203 2 900 0 0xFFFF,
  numRow 0x0204 2 950 0 0xFFFF,
  numRow 0x0205 2 50 10 200,
  rcRow 0x0206 [4]]

/-- Page 0x03, the cell roll (R36). -/
def page03 : List ParamRow := [
  roRow 0x0301 4,
  roRow 0x0302 1,
  { id := 0x0303, size := 128, cls := .perField, kind := .lane, count := 128, owner := .own, ownCommit := true }]

/-- Page 0x06, time (R224). -/
def page06 : List ParamRow := [
  roRow 0x0601 8,
  roRow 0x0602 4,
  roRow 0x0603 4,
  numRow 0x0604 4 50000 1000 100000,
  numRow 0x0605 4 800 80 800000,
  numRow 0x0606 2 16 4 1600,
  numRow 0x0607 2 100 30 10000,
  numRow 0x0608 2 1000 100 10000,
  numRow 0x0609 1 16 1 64,
  roRow 0x060A 8 .lane 132,
  numRow 0x060B 4 80000 800 800000,
  numRow 0x060C 2 800 0 16000,
  { id := 0x060D, size := 12, ok := fun _ v => inR (uAt v 6 4) 0 999999999 && inR (uAt v 10 1) 0 7,
    rsvd := fun v => zeroAt v 11 1 },
  numRow 0x060E 1 0 0 3,
  numRow 0x060F 4 100 1 500000,
  rcRow 0x0610 [4] .lane 128]

/-- A row of page 0x07, by port. -/
def staRow (r : ParamRow) : ParamRow := { r with kind := .other, count := 2 }

/-- Page 0x07, the station ports (R225). -/
def page07 : List ParamRow := [
  staRow (haltRow (numRow 0x0701 1 0 0 2)),
  staRow { id := 0x0702, size := 6, cls := .halt },
  staRow (numRow 0x0703 2 0 0 16000),
  staRow (numRow 0x0704 2 0 0 16000),
  staRow
  { id := 0x0705, size := 8,
    ok := fun _ v => inR (uAt v 0 1) 0 2 && inI (sAt v 4 1) (-4) 4 && inI (sAt v 5 1) (-4) 4 && inR (uAt v 6 2) 0 4094 },
  roRow 0x0706 12 .other 2,
  rcRow 0x0707 [4, 4, 4, 2, 2] .other 2,
  staRow (numRow 0x0708 1 0 0 1)]

/-- Page 0x0D, the twin (R395). -/
def page0D : List ParamRow := [
  roRow 0x0D01 16,
  { id := 0x0D02, size := 8, cls := .halt, saved := true, reset := fun _ => [0, 0, 0, 0, 8, 0, 0, 0],
    ok := fun _ v => inR (uAt v 1 1) 0 2 && inR (uAt v 2 1) 0 1 && inR (uAt v 4 2) 1 65535,
    rsvd := fun v => inR (uAt v 0 1) 0 3 && zeroAt v 3 1 && zeroAt v 6 2 },
  { id := 0x0D03, size := 1, cls := .halt, saved := true },
  roRow 0x0D04 12 .other 2,
  rcRow 0x0D05 [4, 4, 2, 2, 2, 2, 2, 2, 2, 2],
  roRow 0x0D06 32]

/-- Page 0x0E (R417). -/
def page0E : List ParamRow := [
  savedRow (numRow 0x0E01 1 0 0 1),
  { id := 0x0E02, size := 4, cls := .halt, saved := true, reset := fun _ => [0, 17, 0xFF, 0],
    ok := fun _ v => inR (uAt v 0 1) 0 16 && inR (uAt v 1 1) 2 17 && (inR (uAt v 2 1) 0 13 || uAt v 2 1 == 0xFF),
    rsvd := fun v => zeroAt v 3 1 },
  roRow 0x0E03 8,
  roRow 0x0E04 8 .other 8,
  rcRow 0x0E05 [4, 2, 2, 2, 2, 2, 2],
  roRow 0x0E06 2 .other 8]

/-- Page 0x0F, the pantry (R438). The refusals of R432 are conditions of their own. -/
def page0F : List ParamRow := [
  { id := 0x0F01, size := 4, ok := fun _ v => (List.range 16).all fun b => bits (uAt v 0 4) (2 * b + 1) (2 * b) != 3 },
  numRow 0x0F02 1 0 0 3,
  rcRow 0x0F03 [4, 4, 2, 2, 2, 2],
  roRow 0x0F04 8]

/-- The sources of R575: number, island (none for a rack source), whether it is a condition, the block a BLOCK_RESET resets,
the reset reaction and the reset PIN flag. -/
structure FaultSource where
  /-- The source's number. -/
  src : Nat
  /-- Its island; none where the lane's rack decides. -/
  island : Option Nat
  /-- Whether it is a condition source. -/
  cond : Bool
  /-- Whether a block stands in the Block column. -/
  block : Bool
  /-- The reset reaction code. -/
  react : Nat
  /-- The reset PIN flag. -/
  pin : Bool
deriving DecidableEq, Repr

/-- The table of R575. -/
def faultSources : List FaultSource := [
  ⟨0x10, none, false, true, 1, false⟩, ⟨0x11, none, false, true, 0, false⟩, ⟨0x12, none, false, true, 0, false⟩,
  ⟨0x13, none, true, true, 1, true⟩, ⟨0x14, none, true, true, 1, false⟩, ⟨0x15, none, false, true, 1, false⟩,
  ⟨0x16, none, true, false, 1, false⟩, ⟨0x17, none, true, false, 1, false⟩, ⟨0x18, none, false, false, 0, false⟩,
  ⟨0x19, none, false, true, 1, false⟩,
  ⟨0x20, some 0x08, true, false, 1, false⟩, ⟨0x21, some 0x08, true, false, 1, false⟩,
  ⟨0x28, some 0x08, true, false, 1, false⟩, ⟨0x29, some 0x08, false, false, 1, false⟩,
  ⟨0x2A, some 0x08, false, false, 1, false⟩, ⟨0x2B, some 0x08, false, false, 1, false⟩,
  ⟨0x2C, some 0x08, true, false, 1, false⟩, ⟨0x2D, some 0x08, true, false, 1, false⟩,
  ⟨0x30, some 0x09, false, false, 0, false⟩, ⟨0x31, some 0x09, false, false, 1, true⟩,
  ⟨0x38, some 0x08, false, false, 1, false⟩, ⟨0x39, some 0x08, true, false, 1, true⟩,
  ⟨0x3A, some 0x08, false, false, 1, false⟩, ⟨0x3B, some 0x08, false, false, 1, false⟩,
  ⟨0x3C, some 0x08, true, false, 1, false⟩,
  ⟨0x40, some 0x0A, false, false, 1, false⟩, ⟨0x41, some 0x0A, false, false, 0, false⟩,
  ⟨0x42, some 0x0A, false, false, 1, false⟩, ⟨0x43, some 0x0A, true, false, 1, true⟩,
  ⟨0x44, some 0x0A, true, false, 1, false⟩, ⟨0x45, some 0x0A, false, false, 1, false⟩,
  ⟨0x46, some 0x0A, true, false, 1, true⟩, ⟨0x47, some 0x0A, true, false, 1, true⟩,
  ⟨0x48, some 0x0A, false, false, 1, true⟩, ⟨0x49, some 0x0A, false, false, 1, true⟩,
  ⟨0x4A, some 0x0A, true, false, 1, false⟩,
  ⟨0x50, some 0x0A, true, false, 1, false⟩, ⟨0x51, some 0x0A, true, true, 1, true⟩,
  ⟨0x52, some 0x0A, true, true, 1, false⟩, ⟨0x53, some 0x0A, false, false, 0, false⟩,
  ⟨0x54, some 0x0A, false, false, 0, false⟩, ⟨0x58, some 0x0A, false, false, 2, false⟩,
  ⟨0x60, some 0x0C, false, true, 1, false⟩, ⟨0x61, some 0x0C, true, false, 1, false⟩,
  ⟨0x62, some 0x0C, true, false, 1, false⟩, ⟨0x63, some 0x0C, true, false, 1, false⟩,
  ⟨0x64, some 0x0C, true, false, 1, true⟩, ⟨0x68, some 0x0C, false, true, 1, true⟩,
  ⟨0x69, some 0x0C, false, true, 1, false⟩, ⟨0x6A, some 0x0C, true, true, 1, true⟩,
  ⟨0x6B, some 0x0C, true, false, 1, false⟩, ⟨0x6C, some 0x0C, false, false, 1, false⟩,
  ⟨0x6D, some 0x0C, true, true, 1, false⟩, ⟨0x6E, some 0x0C, true, false, 1, true⟩,
  ⟨0x6F, some 0x0C, true, false, 1, true⟩, ⟨0x70, some 0x0C, true, true, 1, false⟩,
  ⟨0x71, some 0x0C, false, true, 0, false⟩, ⟨0x72, some 0x0C, false, true, 1, false⟩,
  ⟨0x78, some 0x0D, true, false, 1, false⟩, ⟨0x79, some 0x0D, true, false, 1, true⟩,
  ⟨0x80, some 0x0A, false, false, 1, false⟩, ⟨0x81, some 0x0E, false, false, 1, true⟩]

/-- The source of a number, or none for a reserved one (R575). -/
def faultSource (src : Nat) : Option FaultSource := faultSources.find? fun x => x.src == src

/-- The reset configuration of a source: REACTION, then PIN (R575, R593); a reserved source reads 0. -/
def faultCfgReset (src : Nat) : Bytes :=
  match faultSource src with
  | some x => [BitVec.ofNat 8 x.react, BitVec.ofNat 8 (b2n x.pin), 0, 0]
  | none => [0, 0, 0, 0]

/-- Page 0x17, fault collection (R593). That BLOCK_RESET needs a block (R579, reason 0xE5) is a condition of its own. -/
def page17 : List ParamRow := [
  { id := 0x1701, size := 4, kind := .other, count := 256, saved := true, reset := faultCfgReset,
    ok := fun i v => inR (uAt v 0 1) 0 4 && ((faultSource i).isSome || allZero v),
    rsvd := fun v => inR (uAt v 1 1) 0 1 && zeroAt v 2 2 },
  numRow 0x1702 4 8000000 8000 80000000,
  roRow 0x1703 12,
  roRow 0x1704 8 .other 256,
  rcRow 0x1705 [4, 4, 2, 2, 2, 2]]

/-- Page 0x19, clocks and reset (R646). -/
def page19 : List ParamRow := [
  roRow 0x1901 8,
  { id := 0x1902, size := 1, cls := .shadowed, owner := .clock, reset := fun _ => [5],
    ok := fun _ v => uAt v 0 1 == 5 || uAt v 0 1 == 8 || uAt v 0 1 == 10 },
  roRow 0x1903 12]

/-- Page 0x1A, the debug port (R647). -/
def page1A : List ParamRow := [
  roRow 0x1A01 8,
  { id := 0x1A02, size := 1, rsvd := fun v => inR (uAt v 0 1) 0 1 }]

end Sys2Proof.Machine
end

