-- ==== Sys2Proof/Machine/PagesField.lean ====
section
/-!
DEFINITION. The parameter pages of housekeeping, thermal, the auxiliary drives, position, safety, energy and the battery domain:
pages 0x10 (R464), 0x11 (R465), 0x12 (R494), 0x13 (R513), 0x14 (R542), 0x15 (R561), 0x16 (R571).
-/

namespace Sys2Proof.Machine

/-- The fixed part of HK_INPUT_CFG: KIND, MODE, GAIN, OFFSET of inputs 16 to 29 and LO, HI of 28 and 29 (R442). -/
def hkInputReset (i : Nat) : Bytes :=
  if 16 ≤ i ∧ i ≤ 19 then [1]
  else if 20 ≤ i ∧ i ≤ 27 then [3]
  else if i = 28 then [3, 0, 0, 0, 0, 0] ++ leBytes 2 4720 ++ leBytes 2 4880
  else if i = 29 then [3, 0, 0, 0, 0, 0, 0, 0, 40, 0]
  else []

/-- Whether an input is marked fixed (R442). -/
def hkFixed (i : Nat) : Bool := inR i 16 29

/-- The range of HK_INPUT_CFG: inputs marked fixed accept only LO and HI, and 28 and 29 not those either (R442, R464, log 86). -/
def hkInputOk (i : Nat) (v : Bytes) : Bool :=
  if hkFixed i then
    slice v 0 6 == slice (hkInputReset i) 0 6 && (decide (i < 28) || slice v 6 4 == slice (hkInputReset i) 6 4)
  else inR (uAt v 0 1) 0 5 && inR (uAt v 1 1) 0 4

/-- Page 0x10 (R464). -/
def page10 : List ParamRow := [
  roRow 0x1001 8,
  savedRow
  { id := 0x1002, size := 12, kind := .other, count := 32, reset := hkInputReset, ok := hkInputOk,
    rsvd := fun v => zeroAt v 10 2 },
  savedRow
  { id := 0x1003, size := 68, cls := .shadowed, kind := .other, count := 2, owner := .hk, ok := fun _ v => inR (uAt v 0 1) 0 32,
    rsvd := fun v => zeroAt v 1 3 && (List.range 32).all fun i => bits (uAt v (4 + 2 * i) 1) 6 5 == 0 && bits (uAt v (5 + 2 * i) 1) 7 5 == 0 },
  savedRow { id := 0x1004, size := 66, kind := .other, count := 4 },
  roRow 0x1005 8 .other 32,
  savedRow (numRow 0x1006 2 24 1 4095),
  savedRow
  { id := 0x1007, size := 4, kind := .other, count := 4, reset := fun _ => [2], ok := fun _ v => inR (uAt v 0 1) 1 16,
    rsvd := fun v => zeroAt v 1 1 },
  roRow 0x1008 4 .other 4,
  savedRow
  { id := 0x1009, size := 4, reset := fun _ => [0xFF, 0xFF],
    ok := fun _ v => (List.range 2).all fun i => inR (uAt v i 1) 0 31 || uAt v i 1 == 0xFF, rsvd := fun v => zeroAt v 2 2 },
  roRow 0x100A 8,
  rcRow 0x100B [4, 4, 2, 2, 2, 2]]

/-- Page 0x11 (R465). The relations of reason 0xA4 are conditions of their own. -/
def page11 : List ParamRow := [
  savedRow
  { id := 0x1101, size := 32, cls := .shadowed, kind := .other, count := 16, owner := .hk,
    ok := fun _ v => inR (uAt v 14 1) 0 16 && (inR (uAt v 16 1) 0 31 || uAt v 16 1 == 0xFF),
    rsvd := fun v => bits (uAt v 15 1) 7 2 == 0 && zeroAt v 17 1 && zeroAt v 22 10 },
  roRow 0x1102 12 .other 16,
  numRow 0x1103 2 5 1 1000,
  rcRow 0x1104 [2, 2, 2, 2]]

/-- A row of page 0x12, by bridge. -/
def auxRow (r : ParamRow) : ParamRow := { r with kind := .other, count := 2, saved := true }

/-- A row of page 0x12 that a boundary of the bridge takes up (R478). -/
def auxShadow (r : ParamRow) : ParamRow := shadowRow .bridge (auxRow r)

/-- The reset value of AUX_DT_CFG (R494, log 88). -/
def auxDtReset : Bytes :=
  [0, 0] ++ leBytes 2 200 ++ leBytes 2 40 ++ leBytes 2 1600 ++ leBytes 2 40 ++ leBytes 2 8 ++ [1, 4, 16, 0] ++ leBytes 2 800 ++ leBytes 2 0

/-- Page 0x12 (R494). The relations of reason 0xB0 are a condition of their own. -/
def page12 : List ParamRow := [
  auxShadow (numRow 0x1201 1 0 0 3),
  auxShadow (numRow 0x1202 2 10000 500 65535),
  auxShadow { id := 0x1203, size := 8, rsvd := fun v => zeroAt v 6 2 },
  auxShadow { id := 0x1204, size := 1, reset := fun _ => [7], rsvd := fun v => inR (uAt v 0 1) 0 7 },
  auxRow { id := 0x1205, size := 1, rsvd := fun v => inR (uAt v 0 1) 0 63 },
  haltRow (auxRow
  { id := 0x1206, size := 20, reset := fun _ => auxDtReset,
    ok := fun _ v => inR (uAt v 0 1) 0 1 && [2, 4, 6, 8, 10, 16, 18].all fun o => inR (uAt v o 2) 0 4000,
    rsvd := fun v => zeroAt v 1 1 && zeroAt v 15 1 }),
  auxShadow (numRow 0x1207 2 40 0 4000),
  auxRow
  { id := 0x1208, size := 4, reset := fun _ => leBytes 2 400 ++ leBytes 2 40,
    ok := fun _ v => inR (uAt v 0 2) 40 4000 && inR (uAt v 2 2) 4 4000 },
  auxRow
  { id := 0x1209, size := 8, reset := fun _ => [40, 0, 0, 0, 40, 0, 0, 0],
    ok := fun _ v => [0, 4].all fun o => inR (uAt v o 2) 0 1023 && inR (uAt v (o + 2) 1) 0 1,
    rsvd := fun v => [3, 7].all fun o => inR (uAt v o 1) 0 1 },
  auxShadow
  { id := 0x120A, size := 4, reset := fun _ => leBytes 2 20 ++ leBytes 2 400,
    ok := fun _ v => inR (uAt v 0 2) 1 1000 && inR (uAt v 2 2) 40 4000 },
  roRow 0x120B 12 .other 2,
  roRow 0x120C 8 .other 2,
  rcRow 0x120D [2, 2, 2, 2, 4, 2, 2] .other 2]

/-- A row of page 0x13, by channel. -/
def posRow (r : ParamRow) : ParamRow := { r with kind := .other, count := 4, saved := true }

/-- Page 0x13 (R513). The relation of reason 0xC2 and the refusal of reason 0xC3 are conditions of their own. -/
def page13 : List ParamRow := [
  haltRow (posRow
  { id := 0x1301, size := 8, reset := fun _ => [0, 8] ++ leBytes 2 400 ++ [0, 1],
    ok := fun _ v => inR (uAt v 0 1) 0 2 && inR (uAt v 1 1) 0 63 && inR (uAt v 2 2) 4 4000 && inR (uAt v 5 1) 0 1,
    rsvd := fun v => bits (uAt v 4 1) 7 4 == 0 && zeroAt v 6 2 }),
  haltRow (posRow
  { id := 0x1302, size := 4, reset := fun _ => [60, 0, 0, 24],
    ok := fun _ v => inR (uAt v 0 2) 8 1024 && inR (uAt v 2 1) 0 1 && inR (uAt v 3 1) 20 48 }),
  posRow
  { id := 0x1303, size := 16,
    reset := fun _ => leBytes 4 800000 ++ leBytes 4 320000 ++ leBytes 4 240000 ++ leBytes 2 100 ++ [4],
    ok := fun _ v => inR (uAt v 0 4) 80000 80000000 && uAt v 0 4 % 20 == 0 && inR (uAt v 12 2) 1 10000 &&
      (uAt v 14 1 == 1 || uAt v 14 1 == 4),
    rsvd := fun v => zeroAt v 15 1 },
  roRow 0x1304 16 .other 4,
  roRow 0x1305 12 .other 4,
  roRow 0x1306 4 .other 4,
  { id := 0x1307, size := 12, kind := .other, count := 8, saved := true, reset := fun _ => [0, 0, 0, 0, 0, 0, 0, 0, 40],
    ok := fun _ v => inR (uAt v 4 1) 0 3 && inR (uAt v 6 1) 0 1 && inR (uAt v 7 1) 0 1 && inR (uAt v 8 2) 4 4000,
    rsvd := fun v => bits (uAt v 5 1) 7 4 == 0 && zeroAt v 10 2 },
  roRow 0x1308 8 .other 8,
  rcRow 0x1309 [4, 2, 2, 2, 2] .other 4]

/-- Page 0x14 (R542). -/
def page14 : List ParamRow := [
  roRow 0x1401 12, roRow 0x1402 8, roRow 0x1403 4, roRow 0x1404 12, roRow 0x1405 16, roRow 0x1406 8]

/-- Whether the starts of an EN_SCHED with REPEAT_DAY are seconds of the day (R559). -/
def schedDayOk (v : Bytes) : Bool :=
  bits (uAt v 1 1) 0 0 == 0 || (List.range (uAt v 0 1)).all fun i => decide (uAt v (4 + 8 * i) 4 < 86400)

/-- Page 0x15 (R570). The relations of reasons 0xD3 and 0xD6 are conditions of their own. -/
def page15 : List ParamRow := [
  savedRow
  { id := 0x1501, size := 48, cls := .halt, kind := .other, count := 16, lockable := true,
    ok := fun _ v => inR (uAt v 0 1) 0 3 && inR (uAt v 1 1) 0 1 && (inR (uAt v 2 1) 0 30 || uAt v 2 1 == 0xFF) &&
      inR (uAt v 40 4) 8000 8000000,
    rsvd := fun v => zeroAt v 3 1 && zeroAt v 44 4 && (List.range 6).all fun i => zeroAt v (7 + 4 * i) 1 },
  roRow 0x1502 48 .other 16,
  roRow 0x1503 24 .other 16,
  roRow 0x1504 16 .other 16,
  savedRow
  { id := 0x1505, size := 260, kind := .other, count := 16, lockable := true,
    ok := fun _ v => inR (uAt v 0 1) 0 32 && schedDayOk v, rsvd := fun v => inR (uAt v 1 1) 0 1 && zeroAt v 2 2 },
  { id := 0x1506, size := 8, kind := .other, count := 16, reset := fun _ => leBytes 2 0x7FFF ++ leBytes 2 0x7FFF ++ leBytes 2 1000,
    ok := fun _ v => inR (uAt v 4 2) 10 60000, rsvd := fun v => zeroAt v 6 2 },
  roRow 0x1507 16,
  roRow 0x1508 68,
  rcRow 0x1509 [4, 4, 2, 2] .other 16]

/-- Page 0x16 (R571). -/
def page16 : List ParamRow := [
  roRow 0x1601 8,
  { id := 0x1602, size := 2, lockable := true, ok := fun _ v => inI (sAt v 0 2) (-2000) 2000 },
  { id := 0x1603, size := 4, kind := .other, count := 4, ok := fun _ v => inR (uAt v 0 1) 0 3 && inR (uAt v 1 1) 1 8,
    rsvd := fun v => zeroAt v 2 2 },
  roRow 0x1604 8,
  roRow 0x1605 16 .other 8]

/-- Page 0x18 (R620). -/
def page18 : List ParamRow := [
  roRow 0x1801 20,
  roRow 0x1802 8,
  roRow 0x1803 8 .other 65,
  { id := 0x1804, size := 4, reset := fun _ => [0xFF], ok := fun _ v => inR (uAt v 0 1) 0 31 || uAt v 0 1 == 0xFF,
    rsvd := fun v => zeroAt v 1 1 },
  roRow 0x1805 12 .other 2,
  roRow 0x1806 68,
  roRow 0x1807 8]

end Sys2Proof.Machine
end

