-- ==== Sys2Proof/Machine/PagesLink.lean ====
section
/-!
DEFINITION. The parameter pages of the lanes, page 0x04 (R130), and of the link, page 0x05 (R183).
-/

namespace Sys2Proof.Machine

/-- A row of page 0x04 with a lane instance under R98. -/
def laneRow (r : ParamRow) : ParamRow := perRow .other 132 r

/-- A row with a cell lane instance. -/
def cellRow (r : ParamRow) : ParamRow := perRow .lane 128 r

/-- Page 0x04, the lanes (R130). -/
def page04 : List ParamRow := [
  laneRow (roRow 0x0401 4),
  laneRow (haltRow (numRow 0x0402 1 0 0 1)),
  laneRow (haltRow { id := 0x0403, size := 1, rsvd := fun v => inR (uAt v 0 1) 0 3 }),
  laneRow { id := 0x0404, size := 2, reset := fun _ => leBytes 2 800,
            ok := fun _ v => inR (uAt v 0 2) 400 1000 && uAt v 0 2 % 50 == 0 },
  laneRow (numRow 0x0405 1 4 0 12),
  laneRow (haltRow { id := 0x0406, size := 1, reset := fun _ => [0xFF],
                     ok := fun _ v => inR (uAt v 0 1) 0 3 || uAt v 0 1 == 0xFF }),
  laneRow (numRow 0x0407 1 0 0 1),
  laneRow (numRow 0x0408 1 10 6 16),
  laneRow { id := 0x0409, size := 8, rsvd := fun v => zeroAt v 6 2,
            ok := fun _ v => inI (sAt v 0 1) (-48) 48 && inI (sAt v 1 1) (-32) 32 && inI (sAt v 2 1) (-16) 16 &&
              inI (sAt v 3 1) (-16) 16 && inI (sAt v 4 1) (-16) 16 },
  laneRow (roRow 0x040A 4),
  laneRow { rcRow 0x040B [8, 4, 2, 2, 2] with size := 24 },
  laneRow (numRow 0x040C 1 0 0 1),
  numRow 0x040D 2 100 10 1000,
  numRow 0x040E 1 2 0 255,
  numRow 0x040F 1 1 0 7,
  numRow 0x0410 2 100 10 10000,
  numRow 0x0411 2 1000 1 65535,
  roRow 0x0412 4 .other 9,
  laneRow (numRow 0x0413 1 1 0 1)]

/-- Page 0x05, the link (R183). -/
def page05 : List ParamRow := [
  numRow 0x0501 1 1 0 1,
  cellRow (roRow 0x0502 1),
  numRow 0x0503 2 1000 10 60000,
  cellRow (numRow 0x0504 1 1 0 1),
  cellRow (numRow 0x0505 2 1500 100 10000),
  numRow 0x0506 2 2000 500 20000,
  cellRow (numRow 0x0507 2 2400 400 16000),
  numRow 0x0508 2 1024 256 65535,
  numRow 0x0509 1 1 0 1,
  numRow 0x050A 2 5 1 1000,
  cellRow (rcRow 0x050B [4, 4, 4, 2, 2, 4]),
  cellRow (roRow 0x050C 16),
  cellRow (roRow 0x050D 12),
  perRow .other 4 (haltRow
  { id := 0x050E, size := 12, reset := fun _ => [0xFF, 0xFF], rsvd := fun v => zeroAt v 2 2,
    ok := fun _ v => (uAt v 0 2 == 0xFFFF || inR (uAt v 0 2) 0 127) && (uAt v 4 4 % 64 == 0 && uAt v 8 4 % 64 == 0 &&
      decide (4096 ≤ uAt v 8 4) && decide (uAt v 4 4 + uAt v 8 4 ≤ 0x1C0000)) }),
  perRow .other 4 (roRow 0x050F 4)]

end Sys2Proof.Machine
end

