-- ==== Sys2Proof/Machine/PagesPlant.lean ====
section
/-!
DEFINITION. The parameter pages of the modulator, page 0x08 (R265), of the dead times, page 0x09 (R290), of the sorter, page 0x0A (R292), and of
protection and ride-through, page 0x0C (R361).
-/

namespace Sys2Proof.Machine

/-- A row with a string instance. -/
def strRow (r : ParamRow) : ParamRow := perRow .string 16 r

/-- A row of class S owned by the string. -/
def strS (r : ParamRow) : ParamRow := strRow (shadowRow .string r)

/-- A row of class S with a lane instance, owned by the lane's string (R79). -/
def laneS (r : ParamRow) : ParamRow := cellRow (shadowRow .string r)

/-- Page 0x08, the modulator (R265). -/
def page08 : List ParamRow := [
  strRow (roRow 0x0801 4),
  strRow (haltRow (numRow 0x0802 1 0 0 4)),
  strS (numRow 0x0803 4 400000 80000 8000000),
  strRow (haltRow (numRow 0x0804 4 40000 8000 800000)),
  strRow (haltRow { id := 0x0805, size := 1, reset := fun _ => [0x09], rsvd := fun v => inR (uAt v 0 1) 0 0x1F }),
  strS (numRow 0x0806 1 1 1 16),
  strS (numRow 0x0807 2 4000 0 16000),
  strS (numRow 0x0808 2 0 0 16384),
  strS (numRow 0x0809 2 400 0 8000),
  strRow (haltRow { id := 0x080A, size := 1, reset := fun _ => [0x0F], rsvd := fun v => inR (uAt v 0 1) 0 0x0F }),
  strS { id := 0x080B, size := 2 },
  strS { id := 0x080C, size := 2 },
  laneS { id := 0x080D, size := 2 },
  laneS { id := 0x080E, size := 2 },
  numRow 0x080F 2 1600 400 16000,
  cellRow (rcRow 0x0810 [4, 4, 2, 2, 4]),
  cellRow (roRow 0x0811 8),
  strRow (roRow 0x0812 12),
  strRow (roRow 0x0813 4)]

/-- A string row of one number of n bytes. -/
def strNum (id size reset lo hi : Nat) : ParamRow := strRow (numRow id size reset lo hi)

/-- Page 0x09, dead times (R290). The orderings with reason 0x50 are relations of R77 step 4. -/
def page09 : List ParamRow := [
  strS (numRow 0x0901 1 0 0 2),
  haltRow (strNum 0x0902 2 800 160 12000),
  haltRow (strNum 0x0903 2 8000 160 12000),
  haltRow (strNum 0x0904 2 2400 0 65535),
  strNum 0x0905 2 400 0 4000,
  strNum 0x0906 2 80 0 2000,
  strNum 0x0907 1 8 1 255,
  strNum 0x0908 1 40 1 255,
  strNum 0x0909 2 240 16 4000,
  strNum 0x090A 1 1 1 16,
  haltRow (strNum 0x090B 4 120000 40000 800000),
  strNum 0x090C 1 16 1 255,
  strNum 0x090D 1 64 1 255,
  haltRow (strNum 0x090E 2 8000 0 65535),
  cellRow (roRow 0x090F 16),
  cellRow (rcRow 0x0910 [4, 4, 4, 2, 2, 2, 2, 2, 2]),
  cellRow { roRow 0x0911 12 with reset := fun _ => [0, 0x80, 0, 0x80, 0, 0x80, 0, 0x80, 0, 0x80, 0, 0x80] },
  rcRow 0x0912 [4]]

/-- Whether a BAL_ISRC value names a source (R292). -/
def isrcOk (v : Bytes) : Bool :=
  match uAt v 0 1 with
  | 0 => true
  | 1 => inR (uAt v 1 2) 0 127 && inR (uAt v 3 1) 0 7
  | 2 => inR (uAt v 1 2) 0 511 && uAt v 3 1 == 0
  | _ => false

/-- Page 0x0A, the sorter (R292). -/
def page0A : List ParamRow := [
  strS (numRow 0x0A01 1 1 0 1),
  strS { id := 0x0A02, size := 4, ok := fun _ v => isrcOk v },
  strS (numRow 0x0A03 2 0x0148 0 0x7FFF),
  strS (numRow 0x0A04 2 328 0 16384),
  strS (numRow 0x0A05 4 800000 8000 8000000),
  strNum 0x0A06 2 0 0 0x7FFF,
  strNum 0x0A07 2 100 1 65535,
  strRow (roRow 0x0A08 16),
  strRow (rcRow 0x0A09 [4, 2, 2])]

/-- Whether a source record names a lane and channel, or none (R335, R361). -/
def srcOk (v : Bytes) (off : Nat) : Bool := uAt v off 2 == 0xFFFF || (inR (uAt v off 2) 0 127 && inR (uAt v (off + 2) 1) 0 7)

/-- Page 0x0C, protection, bypass and ride-through (R361). -/
def page0C : List ParamRow := [
  strRow (roRow 0x0C01 8),
  strRow { id := 0x0C02, size := 2, reset := fun _ => leBytes 2 0x003F, rsvd := fun v => inR (uAt v 0 2) 0 0x3F },
  strRow { id := 0x0C03, size := 8, reset := fun _ => [0xFF, 0xFF, 0, 0, 0xFF, 0xFF, 0, 0],
           ok := fun _ v => srcOk v 0 && srcOk v 4, rsvd := fun v => zeroAt v 3 1 && zeroAt v 7 1 },
  strRow { id := 0x0C04, size := 12,
           reset := fun _ => leBytes 2 0x7000 ++ leBytes 2 0x2000 ++ [1, 0, 0, 0] ++ leBytes 4 240000,
           ok := fun _ v => inR (uAt v 4 1) 1 4 && inR (uAt v 8 4) 8000 8000000, rsvd := fun v => zeroAt v 5 3 },
  strRow { id := 0x0C05, size := 8,
           reset := fun _ => leBytes 2 0x7333 ++ leBytes 2 0x4000 ++ leBytes 2 0x7333 ++ leBytes 2 0x2000 },
  strRow { id := 0x0C06, size := 8, reset := fun _ => [1, 0, 0, 0] ++ leBytes 4 8000000,
           ok := fun _ v => inR (uAt v 0 1) 0 1 && inR (uAt v 1 1) 0 3 && inR (uAt v 2 1) 0 64 && inR (uAt v 3 1) 0 1 &&
             inR (uAt v 4 4) 0 800000000 },
  numRow 0x0C07 4 240000 8000 8000000,
  cellRow (roRow 0x0C08 8),
  strRow (rcRow 0x0C09 [4, 2, 2, 2, 2]),
  roRow 0x0C0A 8,
  { id := 0x0C0B, size := 8, reset := fun _ => [0, 0, 0, 0] ++ leBytes 4 0xAAAAAAAA,
    ok := fun _ v => (List.range 16).all fun k => bits (uAt v 4 4) (2 * k + 1) (2 * k) != 3,
    rsvd := fun v => inR (uAt v 0 1) 0 3 && zeroAt v 1 3 },
  { id := 0x0C0C, size := 12, reset := fun _ => [0xFF, 0xFF, 0, 0, 0xFF, 0xFF, 0, 0, 0xFF, 0xFF, 0, 0],
    ok := fun _ v => srcOk v 0 && srcOk v 4 && srcOk v 8,
    rsvd := fun v => zeroAt v 3 1 && zeroAt v 7 1 && zeroAt v 11 1 },
  { id := 0x0C0D, size := 8, reset := fun _ => leBytes 2 0x2000 ++ leBytes 2 0x5000 ++ [4, 0] ++ leBytes 2 2000,
    ok := fun _ v => decide (sAt v 0 2 < sAt v 2 2) && inR (uAt v 4 1) 1 255 && inR (uAt v 6 2) 10 60000,
    rsvd := fun v => zeroAt v 5 1 },
  { id := 0x0C0E, size := 8, reset := fun _ => leBytes 2 30 ++ leBytes 2 60 ++ leBytes 2 300,
    ok := fun _ v => inR (uAt v 0 2) 0 200 && inR (uAt v 2 2) 1 3600 && inR (uAt v 4 2) 0 3600 },
  { id := 0x0C0F, size := 8, reset := fun _ => leBytes 2 0x5800 ++ leBytes 2 0x0CCD ++ leBytes 4 30000,
    ok := fun _ v => inR (uAt v 4 4) 100 600000 },
  { id := 0x0C10, size := 12,
    reset := fun _ => [0xFF, 0xFF, 0xFF, 0xFF] ++ leBytes 2 0xB6 ++ leBytes 2 0x86 ++ leBytes 2 2500 ++ leBytes 2 5000,
    ok := fun _ v => (uAt v 0 2 == 0xFFFF || inR (uAt v 0 2) 0 511) && (uAt v 2 2 == 0xFFFF || inR (uAt v 2 2) 0 511) &&
      inR (uAt v 8 2) 1 65535 && inR (uAt v 10 2) 100 60000 },
  { id := 0x0C11, size := 20, reset := fun _ => List.replicate 16 0xFF ++ leBytes 2 100,
    ok := fun _ v => ((List.range 16).all fun k => inR (uAt v k 1) 0 15 || uAt v k 1 == 0xFF) && inR (uAt v 16 2) 0 10000,
    rsvd := fun v => zeroAt v 18 2 },
  rcRow 0x0C12 [2, 2, 2, 2]]

/-- Page 0x0B, the loop engine (R326). LE_PHASE below LE_PERIOD and the commit of LOOP_DESC and COEF_SET are conditions of their own. -/
def page0B : List ParamRow := [
  roRow 0x0B01 8,
  { id := 0x0B02, size := 4, cls := .halt, reset := fun _ => leBytes 4 160000,
    ok := fun _ v => inR (uAt v 0 4) 80000 800000 && uAt v 0 4 % 20 == 0 },
  { id := 0x0B03, size := 4, cls := .halt },
  numRow 0x0B04 4 160000 8000 8000000,
  { id := 0x0B05, size := 48, cls := .shadowed, kind := .loop, count := 512, owner := .loops, ownCommit := true },
  { id := 0x0B06, size := 32, cls := .shadowed, kind := .other, count := 512, owner := .loops, ownCommit := true },
  roRow 0x0B07 8 .loop 512,
  { id := 0x0B08, size := 2, kind := .other, count := 32 },
  roRow 0x0B09 4,
  roRow 0x0B0A 1,
  rcRow 0x0B0B [4, 4, 4, 4],
  rcRow 0x0B0C [4, 2, 2] .loop 512]

end Sys2Proof.Machine
end

