-- ==== Sys2Proof/Machine/ParamTable.lean ====
section
/-!
DEFINITION. The parameter table: the row of an ID, its page found by the high byte of the ID (R74).
-/

namespace Sys2Proof.Machine

/-- The rows of a page (R74). -/
def paramPage (pg : Nat) : List ParamRow :=
  match pg with
  | 0x01 => page01
  | 0x02 => page02
  | 0x03 => page03
  | 0x04 => page04
  | 0x05 => page05
  | 0x06 => page06
  | 0x07 => page07
  | 0x08 => page08
  | 0x09 => page09
  | 0x0A => page0A
  | 0x0B => page0B
  | 0x0C => page0C
  | 0x0D => page0D
  | 0x0E => page0E
  | 0x0F => page0F
  | 0x10 => page10
  | 0x11 => page11
  | 0x12 => page12
  | 0x13 => page13
  | 0x14 => page14
  | 0x15 => page15
  | 0x16 => page16
  | 0x17 => page17
  | 0x18 => page18
  | 0x19 => page19
  | 0x1A => page1A
  | _ => []

/-- The row of a parameter ID, if there is one. -/
def paramRow (id : Nat) : Option ParamRow := (paramPage (id / 256)).find? fun r => r.id == id

/-- The key of a parameter instance in the stores. -/
def pKey (id inst : Nat) : Nat := id * 65536 + inst

/-- INSTANCE of a parameter without instances (R74). -/
def noInst : Nat := 0xFFFF

/-- The reset value of a parameter instance, or nothing for an unknown ID. -/
def paramReset (id inst : Nat) : Bytes :=
  match paramRow id with
  | some r => r.resetVal inst
  | none => []

end Sys2Proof.Machine
end

