-- ==== Sys2Proof/Machine/Parts/Act.lean ====
section
/-!
DEFINITION. The actions one rule sets off in another block within the same step: plain data, taken in order by settle
(Machine/Settle.lean) before the step ends (log 5).
-/

namespace Sys2Proof.Machine

/-- An action still to be taken within the present step. -/
inductive Act where
  /-- The block of a source's instance is reset (R579). -/
  | blockReset (src inst : Nat)
  /-- A lane has lost its working link, its upstream or its authentication (R43, R343). -/
  | memberLost (lane : Nat) (auth : Bool := false)
  /-- A trip is decided for a string, with the bit of its cause and the lane of the sample, or 0xFFFF (R337). -/
  | trip (str cause lane : Nat)
  /-- A failed MV cell is bypassed at once (R345). -/
  | urgent (lane cause : Nat)
  /-- A service lane has entered LINKED, or left it (R371, R411). -/
  | svcLink (lane : Nat) (up : Bool)
  /-- The read of DT_FLOOR of a lane has ended: RESULT and VALUE, or no acknowledgement (R277). -/
  | dtFloor (lane : Nat) (res : Option (Nat × Nat))
  /-- A channel has taken a value: protection, the grid detector and the energy ports look at it (R335, R351, R550). -/
  | sample (lane chan : Nat)
  /-- A HEALTH has been taken from a lane (R348, R459). -/
  | health (lane : Nat)
  /-- A fault has been taken from an endpoint, with its code (R342). -/
  | epFault (lane code : Nat)
  /-- A fatal self-test failure or a reset of the active surrenders its role (R381, R383). -/
  | surrender
  /-- A chip reset with a cause and a fault source (R636). -/
  | chipReset (cause src : Nat)
  /-- An IMAGE_CHUNK has left on a lane (R610). -/
  | imageSent (lane : Nat)
  /-- The role or the role epoch has changed (R79, R143). -/
  | roleChanged
  /-- Tick time has been stepped from one value to another: the recurring boundaries go on from the new one (R672). -/
  | timeStepped (old : Nat)
  /-- A term of the ports' limits has changed (R558). -/
  | limits
  /-- A control boundary has come: the ring summaries go out (R412). -/
  | summaries
deriving DecidableEq, Repr

end Sys2Proof.Machine
end

