-- ==== Sys2Proof/Machine/Tab.lean ====
section
/-!
DEFINITION. Sparse tables: plain data keyed by a number (a lane, a string, a bank, a parameter instance), where an
unlisted key reads as a default the reader names.
-/

namespace Sys2Proof.Machine

/-- A table of entries by key, keys rising. -/
structure Tab (α : Type) where
  /-- The listed entries. -/
  cells : List (Nat × α) := []
deriving DecidableEq, Repr

/-- The entry at a key in a list of entries. -/
def tabFind {α : Type} (k : Nat) : List (Nat × α) → Option α
  | [] => none
  | (k', v) :: r => if k' = k then some v else tabFind k r

/-- A list of entries with one key set, in place or at its sorted place. -/
def tabInsert {α : Type} (k : Nat) (v : α) : List (Nat × α) → List (Nat × α)
  | [] => [(k, v)]
  | (k', v') :: r =>
    if k' = k then (k, v) :: r
    else if k < k' ∧ tabFind k r = none then (k, v) :: (k', v') :: r
    else (k', v') :: tabInsert k v r

/-- A list of entries without a key. -/
def tabErase {α : Type} (k : Nat) : List (Nat × α) → List (Nat × α)
  | [] => []
  | (k', v') :: r => if k' = k then tabErase k r else (k', v') :: tabErase k r

/-- The entry a table lists at a key. -/
def Tab.get? {α : Type} (t : Tab α) (k : Nat) : Option α := tabFind k t.cells

/-- The entry at a key, or the default. -/
def Tab.get {α : Type} (t : Tab α) (d : α) (k : Nat) : α := (t.get? k).getD d

/-- The table with one entry set. -/
def Tab.set {α : Type} (t : Tab α) (k : Nat) (v : α) : Tab α := { cells := tabInsert k v t.cells }

/-- The table without an entry. -/
def Tab.erase {α : Type} (t : Tab α) (k : Nat) : Tab α := { cells := tabErase k t.cells }

/-- The table with the entry at a key (or the default) changed. -/
def Tab.mod {α : Type} (t : Tab α) (d : α) (k : Nat) (f : α → α) : Tab α := t.set k (f (t.get d k))

end Sys2Proof.Machine
end

