-- ==== Sys2Proof/Machine/Parts/Battery.lean ====
section
/-!
DEFINITION. State of the battery domain (chapter 17).
-/

namespace Sys2Proof.Machine

/-- An entry of the tamper log (R568). -/
structure TampEntry where
  /-- SOURCE. [17 R568; 8 bit; set at the entry] -/
  source : Nat
  /-- FLAGS. [17 R568; 8 bit; set at the entry] -/
  flags : Nat
  /-- SEQ. [17 R568; 16 bit; set at the entry] -/
  seq : Nat
  /-- RTC_SEC. [17 R568; 32 bit; set at the entry] -/
  sec : Nat
  /-- RTC_SUB. [17 R568; 16 bit; set at the entry] -/
  sub : Nat
  /-- LOST. [17 R568; 16 bit; set at the entry] -/
  lost : Nat
  /-- ARG. [17 R568; 32 bit; set at the entry] -/
  arg : Nat
deriving DecidableEq, Repr

/-- An RTC_SET that waits for its second (R565, R571). -/
structure RtcPending where
  /-- The mailbox. [17 R571; 3 bit; set by the command] -/
  mb : Nat
  /-- SECONDS. [17 R571; 32 bit; set by the command] -/
  sec : Nat
  /-- FROM_PTP. [17 R571; 1 bit; set by the command] -/
  ptp : Bool
deriving DecidableEq, Repr

/-- The battery domain, and the copies of its log in MRAM. -/
structure Battery where
  /-- Whether the domain has power. [17 R564; supply; DESIGN CHOICE present (log 4)] -/
  powered : Bool := true
  /-- The power-on flag. [17 R568; 1 bit; DESIGN CHOICE 0 (log 4)] -/
  powerOn : Bool := false
  /-- Whether VBAT supplies the domain. [17 R564; 1 bit; DESIGN CHOICE VDD_IO (log 4)] -/
  onVbat : Bool := false
  /-- VBAT as last measured, mV. [17 R571; 16 bit; 0] -/
  vbat : Nat := 0
  /-- Whether VBAT was found below 2.30 V. [17 R566; 1 bit; 0] -/
  vbatLow : Bool := false
  /-- RTC_SEC. [17 R565; 32 bit; 0] -/
  rtcSec : Nat := 0
  /-- When the present second began, in elapsed ticks: RTC_SUB follows from it. [17 R565; elapsed ticks; 0] -/
  secAt : Nat := 0
  /-- Whether the clock has been set. [17 R565; 1 bit; 0] -/
  rtcSet : Bool := false
  /-- The RTC_SET that waits. [17 R565; command; none] -/
  rtcPending : Option RtcPending := none
  /-- RTC_CAL. [17 R571; 16 bit; DESIGN CHOICE 0 (log 4)] -/
  cal : Bytes := [0, 0]
  /-- TAMP_CFG by input. [17 R571; 4 × 32 bit; DESIGN CHOICE 0 (log 4)] -/
  tampCfg : Tab Bytes := {}
  /-- The inputs' levels at the latest sample. [17 R571; 4 bit; 0] -/
  levels : Nat := 0
  /-- Failing samples in a row, by input. [17 R566; count; 0] -/
  failing : Tab Nat := {}
  /-- The bit TAMP_DRV drives for the next sample. [17 R566; pin; DESIGN CHOICE 0 (log 4)] -/
  drv : Bool := false
  /-- The MRAM key; 0 where it is zeroised. [17 R564, R567; 256 bit; DESIGN CHOICE 0 (log 4)] -/
  mramKey : Nat := 0
  /-- The log since its last copy. [17 R568; at most 8 entries; DESIGN CHOICE empty (log 4)] -/
  log : List TampEntry := []
  /-- The next SEQ. [17 R568; 16 bit; DESIGN CHOICE 0 (log 4)] -/
  logSeq : Nat := 0
  /-- LOST. [17 R568; 16 bit; DESIGN CHOICE 0 (log 4)] -/
  lost : Nat := 0
  /-- Events on their way to the core. [17 R567; count; 0] -/
  signals : Nat := 0
  /-- The latest eight entries written to the attic, newest first. [17 R571; 8 entries; DESIGN CHOICE empty (log 4)] -/
  copied : List TampEntry := []
deriving DecidableEq, Repr

end Sys2Proof.Machine
end

