-- ==== Sys2Proof/Machine/Parts/Bridge.lean ====
section
/-!
DEFINITION. State of the auxiliary drives (chapter 14). Times are in elapsed ticks; one step is 20 ticks.
-/

namespace Sys2Proof.Machine

/-- One switch of a bridge (R470, R473). -/
structure AuxSw where
  /-- Whether it is commanded on. [14 R473; 1 bit; 0] -/
  cmd : Bool := false
  /-- Whether its gate is driven high. [14 R470; pin; low] -/
  on : Bool := false
  /-- The OFF input. [14 R470; pin; DESIGN CHOICE low (log 4)] -/
  off : Bool := false
  /-- Whether OFF has been seen high since the switch was last commanded off. [14 R473; 1 bit; 0] -/
  offSeen : Bool := false
  /-- When the switch was last commanded off. [14 R475; elapsed ticks; none] -/
  offAt : Option Nat := none
  /-- The SG input. [14 R470; pin; DESIGN CHOICE low (log 4)] -/
  sg : Bool := false
  /-- When SG changed last. [14 R476; elapsed ticks; 0] -/
  sgAt : Nat := 0
  /-- Whether the switch is locked out. [14 R476; 1 bit; 0] -/
  locked : Bool := false
  /-- When the turn-on that waits for confirmation was due. [14 R474; elapsed ticks; none] -/
  pend : Option Nat := none
deriving DecidableEq, Repr

/-- A transition whose dead time is still to be judged (R483). -/
structure AuxJudge where
  /-- The outgoing turn-off. -/
  tOff : Nat
  /-- Whether the phase goes high. -/
  up : Bool
  /-- The corrected node time, once the node has changed. -/
  tx : Option Int := none
  /-- The incoming turn-on, once it has taken place. -/
  tOn : Option Nat := none
  /-- Whether the turn-on was abandoned. -/
  lost : Bool := false
deriving DecidableEq, Repr

/-- One phase of a bridge (R479 to R486). -/
structure AuxPhase where
  /-- The level produced; none while the phase floats. [14 R479; level; floating] -/
  level : Option Bool := none
  /-- The dead time in effect, in steps; none before the first: DT_INIT. [14 R483; 16 bit; DT_INIT] -/
  dt : Option Nat := none
  /-- The dead time to take at the next boundary. [14 R483; 16 bit; none] -/
  dtNext : Option Nat := none
  /-- Whether the phase is in fallback. [14 R483; 1 bit; 0] -/
  fallback : Bool := false
  /-- Consecutive bad transitions. [14 R483; count; 0] -/
  bad : Nat := 0
  /-- Consecutive good transitions in fallback. [14 R483; count; 0] -/
  good : Nat := 0
  /-- Consecutive periods with the high side on throughout. [14 R485; count; 0] -/
  refresh : Nat := 0
  /-- Whether the high side has been commanded on throughout the present period so far. [14 R485; 1 bit; 0] -/
  through : Bool := false
  /-- Whether the present period carries a refresh, whose own pulse does not break the count of periods. [14 R485; 1 bit; 0] -/
  refreshing : Bool := false
  /-- The NODE input. [14 R470; pin; DESIGN CHOICE low (log 4)] -/
  node : Bool := false
  /-- The transition being judged. [14 R483; transition; none] -/
  judge : Option AuxJudge := none
  /-- Whether the phase's short is incomplete. [14 R487; 1 bit; 0] -/
  incomplete : Bool := false
deriving DecidableEq, Repr

/-- An edge to come (R480, R485, R487). -/
structure AuxEdge where
  /-- When. -/
  at_ : Nat
  /-- The switch. -/
  k : Nat
  /-- Whether it is turned on. -/
  on : Bool
  /-- Whether it is the high side's turn-on after a refresh (R486). -/
  check : Bool := false
  /-- Whether it belongs to a transition that R483 judges. -/
  judged : Bool := false
deriving DecidableEq, Repr

/-- One trip input (R488). -/
structure AuxTripIn where
  /-- Since when the pin has been low. [14 R488; elapsed ticks; none] -/
  lowSince : Option Nat := none
  /-- Whether its trip is latched. [14 R488; 1 bit; 0] -/
  latched : Bool := false
  /-- Whether the latched trip's ACTION is SHORT. [14 R490; 1 bit; 0] -/
  short : Bool := false
deriving DecidableEq, Repr

/-- One bridge. -/
structure Bridge where
  /-- The switches 0 to 5. [14 R470; 6 switches; off] -/
  sw : Tab AuxSw := {}
  /-- The phases U, V, W. [14 R470; 3 phases; floating] -/
  phase : Tab AuxPhase := {}
  /-- The trip inputs 0 and 1. [14 R470; 2 inputs; high] -/
  trip : Tab AuxTripIn := {}
  /-- The edges to come, earliest first. [14 R480; list; empty] -/
  edges : List AuxEdge := []
  /-- The mode the gates follow. [14 R477; 2 bit; OFF] -/
  mode : Nat := 0
  /-- Whether the bridge is in an active short. [14 R487; 1 bit; 0] -/
  short : Bool := false
  /-- The latest boundary. [14 R478; elapsed ticks; 0] -/
  bAt : Nat := 0
  /-- The next boundary. [14 R478; elapsed ticks; 0] -/
  next : Nat := 0
  /-- Boundaries since reset. [14 R494; 32 bit; 0] -/
  boundaries : Nat := 0
  /-- The M of the latest transition judged, in steps; 0x8000 if none. [14 R494; 16 bit; 0x8000] -/
  lastM : Int := -32768
deriving DecidableEq, Repr

/-- The auxiliary drives. -/
structure AuxUnit where
  /-- The bridges AUX0 and AUX1. [14 R470; 2 bridges; off] -/
  bridge : Tab Bridge := {}
  /-- Whether the unit drives the gate outputs. [14 R492; 1 bit; 0] -/
  driving : Bool := false
deriving DecidableEq, Repr

end Sys2Proof.Machine
end

