-- ==== Sys2Proof/Machine/Parts/Mod.lean ====
section
/-!
DEFINITION. State of the modulator: the strings' period clocks and plans, the lanes' carriers, legs and shelves (chapter 06).
-/

namespace Sys2Proof.Machine

/-- The states of a string, in the order of MOD_STATE (R265). -/
inductive StrSt where
  | stopped | starting | running | stopping | tripped
deriving DecidableEq, Repr

/-- A transition of a leg: its ideal time as a tick time, and whether the leg goes high (R236). -/
structure Trans where
  /-- The ideal time. -/
  t : Int
  /-- Whether the leg goes high. -/
  up : Bool
  /-- The leg's dead time as captured for the plan that made the transition. -/
  dt : Nat := 0
deriving DecidableEq, Repr

/-- The BYPASS actions, by their codes (R149). -/
inductive BypAct where
  | enter | hold | release | allOff
deriving DecidableEq, Repr

/-- What an edge of an entry means to the dead-time block: the leg, the direction of its transition, and whether it is the
turn-off or the turn-on of it (R236, R274). -/
structure EdgeMark where
  /-- The leg. -/
  leg : Nat
  /-- Whether the leg goes high. -/
  up : Bool
  /-- Whether this is the turn-off edge. -/
  off : Bool
  /-- Whether the transition is selected for a node report. -/
  sel : Bool := false
  /-- Whether the transition is held (R250). -/
  held : Bool := false
deriving DecidableEq, Repr

/-- An entry of a shelf (R237, R251). -/
structure Entry where
  /-- The time of the edge or action, as a tick time. -/
  time : Int
  /-- The BYPASS action, for an action entry. -/
  act : Option BypAct := none
  /-- The whole word of a raw entry; other entries' words follow from their marks when they are sent. -/
  raw : Option Nat := none
  /-- NODE_REQ. -/
  node : Bool := false
  /-- PERIOD_START. -/
  mark : Bool := false
  /-- Whether the entry has been sent. -/
  sent : Bool := false
  /-- EDGE_ID, once sent. -/
  id : Option Nat := none
  /-- The transitions' edges it holds. -/
  marks : List EdgeMark := []
deriving DecidableEq, Repr

/-- Whether an entry is held: it holds an edge of a held transition (R250). -/
def Entry.held (x : Entry) : Bool := x.marks.any (·.held)

/-- A leg of a cell (R236, R248, R249). -/
structure LegSt where
  /-- The latest released transition, or the start instant a of R258. [06 R249; tick time; 0] -/
  prev : Int := 0
  /-- The dead time of that transition. [06 R236; ticks; 0] -/
  prevDt : Nat := 0
  /-- The carry owed to the switch turned on by the next surviving transition. [06 R249; ticks; 0] -/
  carry : Int := 0
  /-- The held transitions. [06 R250; list; empty] -/
  held : List Trans := []
deriving DecidableEq, Repr

/-- A lane as the modulator sees it. -/
structure ModLane where
  /-- Whether the member has been started (R258) and not withdrawn since. [06 R258; 1 bit; 0] -/
  on : Bool := false
  /-- The carrier shift at which the previous cycle ended. [06 R240; ticks; none] -/
  sPrev : Option Int := none
  /-- The isolation shift at which the previous period ended. [06 R245; ticks; none] -/
  isoPrev : Option Int := none
  /-- The isolation phase of the previous plan. [06 R247; ticks; none] -/
  isoPhase : Option Int := none
  /-- The legs 0 to 5. [06 R235; 6 legs; as their parts] -/
  legs : Tab LegSt := {}
  /-- The insertion state of nearest-level control: −1, 0 or +1. [06 R242; 2 bit; 0] -/
  nlc : Int := 0
  /-- Whether the next zero is reached through both legs high. [06 R244; 1 bit; 0] -/
  zeroHigh : Bool := false
  /-- Whether the present zero stands with both legs high. [06 R244; 1 bit; 0] -/
  atHigh : Bool := false
  /-- The latest principal cycle, while its first entry may still come (R238). [06 R238; two tick times; none] -/
  cycle : Option (Int × Int) := none
  /-- The switch-state word after the entries taken so far, held ones left out. [06 R237; 16 bit; 0] -/
  word : Nat := 0
  /-- The shelf, in time order. [06 R251; at most 32 entries; empty] -/
  shelf : List Entry := []
  /-- The planned entries not yet expanded, in time order. [06 R251; list; empty] -/
  wait : List Entry := []
  /-- EDGE_ID of the next entry sent. [06 R253; 8 bit; DESIGN CHOICE 0 (log 3)] -/
  edgeId : Nat := 0
  /-- The highest occupancy since reset. [06 R265; 8 bit; 0] -/
  maxOcc : Nat := 0
  /-- The time of the latest raw entry. [06 R264; tick time; none] -/
  rawLast : Option Int := none
  /-- The raw switch-state word after the latest raw entry. [06 R264; 16 bit; 0] -/
  rawWord : Nat := 0
  /-- When each switch was last turned off by a raw entry, by bit. [06 R264; 16 tick times; none] -/
  rawOff : Tab Int := {}
deriving DecidableEq, Repr

/-- What a plan brings to one lane when it is complete (R232). -/
structure LanePlan where
  /-- The lane. -/
  lane : Nat
  /-- Whether the lane leaves the plan, so that its held transitions are released as they stand (R259). -/
  leaves : Bool := false
  /-- The entries to expand, in time order. -/
  add : List Entry := []
  /-- The principal cycle, whose first entry carries PERIOD_START (R238). -/
  cycle : Option (Int × Int) := none
  /-- The time after which unsent entries are withdrawn (R259, R261). -/
  cut : Option Int := none
  /-- The mailbox replies it brings: the time of a planned ENTER (R362). -/
  enter : Option Int := none
  /-- The time of the RELEASE of a recorded release (R362). -/
  release : Option Int := none
deriving DecidableEq, Repr

/-- A plan in progress (R231, R232). -/
structure Plan where
  /-- B_k. -/
  at_ : Nat
  /-- What each lane receives. -/
  lanes : List LanePlan := []
deriving DecidableEq, Repr

/-- A string's period clock and plan. -/
structure Str where
  /-- MOD_STATE byte 0. [06 R265; 3 bit; STOPPED] -/
  st : StrSt := .stopped
  /-- MOD_STATE byte 1: the mode in effect. [06 R265; 3 bit; 0 OFF] -/
  mode : Nat := 0
  /-- N of the latest plan. [06 R239, R265; 8 bit; 0] -/
  n : Nat := 0
  /-- Tick time of the latest boundary. [06 R265; 64 bit; 0] -/
  bAt : Nat := 0
  /-- k of the latest boundary. [06 R265; 32 bit; 0] -/
  k : Nat := 0
  /-- Tick time of the next boundary. [06 R231, R260; 64 bit; 400,000 (tick time 0 and the reset MOD_PERIOD)] -/
  next : Nat := 400000
  /-- O_0 of the present or next run. [06 R257; 64 bit; 0] -/
  o0 : Nat := 0
  /-- Whether the first plan is still to be made. [06 R257; 1 bit; 0] -/
  first : Bool := false
  /-- O_k at which a stop takes effect. [06 R261; tick time; none] -/
  stopAt : Option Nat := none
  /-- Whether a stop has been accepted and its boundary not yet come. [06 R261; 1 bit; 0] -/
  stopReq : Bool := false
  /-- Whether a standby's plan waits for the active's order. [07 R288; 1 bit; 0] -/
  orderWait : Bool := false
  /-- Whether that stop is a dark stop, with ALL_OFF to every member (R352). [09 R352; 1 bit; 0] -/
  darkStop : Bool := false
  /-- The plan in progress. [06 R232; plan; none] -/
  plan : Option Plan := none
  /-- The rejected set of MOD_PERIOD, ISO_DIV and MIN_PULSE last reported. [06 R233; 3 values; none] -/
  rejected : Option (Nat × Nat × Nat) := none
  /-- NLC_LEVEL n. [06 R265; 16 bit, signed; 0] -/
  level : Int := 0
  /-- LEVEL_SAT. [06 R265; 16 bit; 0] -/
  levelSat : Nat := 0
  /-- PERIOD in effect from the latest boundary: T_k. [06 R231; ticks; 400,000] -/
  period : Nat := 400000
deriving DecidableEq, Repr

/-- The modulator. -/
structure Mod where
  /-- The strings 0 to 15. [06 R231; 16 strings; STOPPED] -/
  str : Tab Str := {}
  /-- The cell lanes 0 to 127. [06 R251; 128 lanes; empty] -/
  lane : Tab ModLane := {}
  /-- The references the loop engine published last: REF_S, REF_C, PHI_S, PHI_C by kind × 256 + string or lane. [06 R235; Q1.15; 0] -/
  loopRef : Tab Int := {}
  /-- The references captured at each string's latest boundary, keyed likewise. [06 R231; Q1.15; 0] -/
  capRef : Tab Int := {}
deriving DecidableEq, Repr

end Sys2Proof.Machine
end

