-- ==== Sys2Proof/Machine/Parts/Dt.lean ====
section
/-!
DEFINITION. State of the adaptive dead time and of the sorter (chapter 07).
-/

namespace Sys2Proof.Machine

/-- What a judged transition does to the working dead time (R276, R281, R291). -/
inductive DtMove where
  /-- A step up by a number of ticks. -/
  | up (n : Nat)
  /-- A step down. -/
  | down (n : Nat)
  /-- A value set: fallback entry. -/
  | set (v : Nat)
deriving DecidableEq, Repr

/-- A NODE_EDGE record as received (R158). -/
structure NodeRec where
  /-- TIME, as a tick time. -/
  time : Int
  /-- DIR. -/
  rising : Bool
  /-- KIND. -/
  kind : Nat
deriving DecidableEq, Repr

/-- A selected transition not yet judged (R274). -/
structure DtPend where
  /-- Whether the leg goes high. -/
  up : Bool
  /-- The time of its turn-off edge. -/
  tOff : Int
  /-- The time of its turn-on edge. -/
  tOn : Int
  /-- The turn-off record. -/
  off : Option NodeRec := none
  /-- The turn-on record. -/
  on : Option NodeRec := none
deriving DecidableEq, Repr

/-- The dead time of a leg. -/
structure DtLeg where
  /-- DTw after every step taken into effect. [07 R276, R290; ticks; 2,400 (DT_INIT)] -/
  dtw : Nat := 2400
  /-- The dead time captured at the latest boundary. [07 R278, R290; ticks; 2,400] -/
  cap : Nat := 2400
  /-- The steps not yet taken into effect, by t_on. [07 R278; list; empty] -/
  steps : List (Int × DtMove) := []
  /-- The copy of DTw the standby's own law runs on. [07 R279; ticks; 2,400] -/
  copy : Nat := 2400
  /-- The copy's steps not yet taken into effect. [07 R279; list; empty] -/
  copySteps : List (Int × DtMove) := []
  /-- Consecutive bad judgements. [07 R280; count; 0] -/
  bad : Nat := 0
  /-- Consecutive good judgements in fallback. [07 R281; count; 0] -/
  good : Nat := 0
  /-- Whether the leg is in fallback. [07 R281; 1 bit; 0] -/
  fallback : Bool := false
  /-- The latest M. [07 R290; 16 bit, signed; 0x8000, none] -/
  margin : Option Int := none
  /-- Final transitions since the count of NODE_DIV restarted. [07 R273; count; 0] -/
  count : Nat := 0
  /-- The selected transitions not yet judged. [07 R274; list; empty] -/
  pend : List DtPend := []
  /-- Whether a DT_RESET waits for the next boundary. [07 R291; 1 bit; 0] -/
  resetWait : Bool := false
  /-- Tick time of the latest DT_RESET: earlier transitions take no step. [07 R291; tick time; none] -/
  resetAt : Option Nat := none
  /-- The time of the latest raw turn-off edge of the leg that asked for a report, and the direction of a transition it would begin.
  [07 R271; tick time and 1 bit; none] -/
  rawOff : Option (Int × Bool) := none
deriving DecidableEq, Repr

/-- A sent entry that asked for node reports (R274). -/
structure SentEdge where
  /-- The time of the edge. -/
  time : Int
  /-- What it changed. -/
  marks : List EdgeMark
deriving DecidableEq, Repr

/-- The dead-time block's view of a lane. -/
structure DtLane where
  /-- The legs 0 to 5. [07 R276; 6 legs; as their parts] -/
  legs : Tab DtLeg := {}
  /-- The endpoint's DT_FLOOR, once read. [07 R277; ticks; none] -/
  floor : Option Nat := none
  /-- The latest sent entry with NODE_REQ of each EDGE_ID. [07 R274; 256 entries; none] -/
  sent : Tab SentEdge := {}
deriving DecidableEq, Repr

/-- One member in the order of a string (R284, R293). -/
structure SortMember where
  /-- Its lane. -/
  lane : Nat
  /-- Its position. -/
  pos : Nat
  /-- Its voltage. -/
  v : Int
  /-- Whether it is stale (R282). -/
  stale : Bool
  /-- Whether it has no channel of kind 0x01 (R282). -/
  noKey : Bool
  /-- Its key. -/
  key : Int
  /-- Its state after the plan: −1, 0 or +1. -/
  after : Int := 0
deriving DecidableEq, Repr

/-- The statistics of a string (R286, R292). -/
structure SortStat where
  /-- MEAN. [07 R286; Q1.15; 0] -/
  mean : Int := 0
  /-- MIN. [07 R286; Q1.15; 0] -/
  min : Int := 0
  /-- MAX. [07 R286; Q1.15; 0] -/
  max : Int := 0
  /-- MIN_POS. [07 R286; 8 bit; 0] -/
  minPos : Nat := 0
  /-- MAX_POS. [07 R286; 8 bit; 0] -/
  maxPos : Nat := 0
  /-- Keyed members that are not stale. [07 R292; 8 bit; 0] -/
  keyed : Nat := 0
  /-- Stale members. [07 R292; 8 bit; 0] -/
  stale : Nat := 0
  /-- dir. [07 R283; −1, 0 or 1; 0] -/
  dir : Int := 0
  /-- k of the boundary. [07 R292; 32 bit; 0] -/
  k : Nat := 0
  /-- Each member's RANK, by lane. [07 R286; per lane; none] -/
  ranks : Tab Nat := {}
  /-- Tick time of the boundary the statistics belong to. [07 R286; tick time; 0] -/
  at_ : Nat := 0
deriving DecidableEq, Repr

/-- The sorter's view of a string. -/
structure SortStr where
  /-- The order used by the latest plan. [07 R293; at most 64 members; empty] -/
  order : List SortMember := []
  /-- SORT_STAT: the statistics at the latest boundary. [07 R292; 16 B; 0] -/
  stat : SortStat := {}
  /-- The statistics that count as formed, as the loop engine and the ring take them. [07 R286; as SORT_STAT; 0] -/
  formed : SortStat := {}
  /-- Consecutive boundaries with SPREAD beyond the alarm. [07 R287; count; 0] -/
  overN : Nat := 0
  /-- Consecutive boundaries with SPREAD at or below it. [07 R287; count; 0] -/
  underN : Nat := 0
  /-- Whether BAL_SPREAD has been raised and not yet ended. [07 R287; 1 bit; 0] -/
  alarm : Bool := false
  /-- The active's order for a boundary, on a standby. [07 R288; k and lanes; none] -/
  fromActive : Option (Nat × List Nat) := none
  /-- The k whose use of the active's order, or miss, has been settled. [07 R288; 32 bit; none] -/
  judgedK : Option Nat := none
deriving DecidableEq, Repr

/-- Dead times and orders. -/
structure Dt where
  /-- The cell lanes 0 to 127. [07 R290; 128 lanes; as their parts] -/
  lane : Tab DtLane := {}
  /-- The strings 0 to 15. [07 R292; 16 strings; as their parts] -/
  sort : Tab SortStr := {}
deriving DecidableEq, Repr

end Sys2Proof.Machine
end

