-- ==== Sys2Proof/Machine/Parts/Energy.lean ====
section
/-!
DEFINITION. State of energy accounting and load shedding (chapter 17).
-/

namespace Sys2Proof.Machine

/-- What MRAM keeps of a port (R552, R555, R556). -/
structure EnKept where
  /-- A_IMP, A_EXP, R_Q1 to R_Q4. [17 R552; 6 × 64 bit; DESIGN CHOICE 0 (log 4)] -/
  reg : Tab Nat := {}
  /-- A_IMP when the demand interval began. [17 R556; 64 bit; DESIGN CHOICE 0 (log 4)] -/
  imp0 : Nat := 0
  /-- A_EXP when the demand interval began. [17 R556; 64 bit; DESIGN CHOICE 0 (log 4)] -/
  exp0 : Nat := 0
  /-- MD_IMP, W. [17 R556; 32 bit; DESIGN CHOICE 0 (log 4)] -/
  mdImp : Nat := 0
  /-- MD_IMP_RTC. [17 R556; 32 bit; DESIGN CHOICE 0 (log 4)] -/
  mdImpRtc : Nat := 0
  /-- MD_EXP, W. [17 R556; 32 bit; DESIGN CHOICE 0 (log 4)] -/
  mdExp : Nat := 0
  /-- MD_EXP_RTC. [17 R556; 32 bit; DESIGN CHOICE 0 (log 4)] -/
  mdExpRtc : Nat := 0
  /-- Import demand of the last interval, W. [17 R570; 32 bit; DESIGN CHOICE 0 (log 4)] -/
  lastImp : Nat := 0
  /-- Export demand of the last interval, W. [17 R570; 32 bit; DESIGN CHOICE 0 (log 4)] -/
  lastExp : Nat := 0
  /-- DEMAND_RESETS. [17 R557; 16 bit; DESIGN CHOICE 0 (log 4)] -/
  resets : Nat := 0
  /-- GAP_TIME, in ticks. [17 R551, R561; count; DESIGN CHOICE 0 (log 4)] -/
  gap : Nat := 0
deriving DecidableEq, Repr

/-- A metered port. -/
structure EnPort where
  /-- What MRAM keeps. [17 R555; see parts; see parts] -/
  kept : EnKept := {}
  /-- The fractions of the registers, in 2^-32 of their units. [17 R551; 6 × 32 bit; 0] -/
  acc : Tab Nat := {}
  /-- The latest computed instant. [17 R551; tick time; none] -/
  last : Option Nat := none
  /-- Whether the span since the start is still to be added to GAP_TIME. [17 R555; 1 bit; 0] -/
  started : Bool := false
  /-- Voltages by instant, for reactive power of KIND 2, latest first. [17 R550; instants; empty] -/
  hist : List (Nat × Int) := []
  /-- p in µW. [17 R550, R570; signed; 0] -/
  p : Int := 0
  /-- q in µvar. [17 R550, R570; signed; 0] -/
  q : Int := 0
  /-- Whether the interval is PARTIAL. [17 R557; 1 bit; 1] -/
  partial_ : Bool := true
  /-- The import limit in effect. [17 R558; Q1.15; 0x7FFF] -/
  limImp : Int := 0x7FFF
  /-- The export limit in effect. [17 R558; Q1.15; 0x7FFF] -/
  limExp : Int := 0x7FFF
  /-- Whether a schedule entry is in effect. [17 R570; 1 bit; 0] -/
  sched : Bool := false
  /-- Since when |p| exceeds its limit, in elapsed ticks. [17 R560; elapsed ticks; none] -/
  over_ : Option Nat := none
  /-- Since when it does not. [17 R560; elapsed ticks; 0] -/
  below : Nat := 0
  /-- Whether EN_LIMIT_EXCEEDED may be raised. [17 R560; 1 bit; 1] -/
  armed : Bool := true
  /-- When |p| / RATING last exceeded 5%, in elapsed ticks. [19 R612; elapsed ticks; none] -/
  heavyAt : Option Nat := none
deriving DecidableEq, Repr

/-- A copy in MRAM (R555); its CRC-32 stands for its validity. -/
structure EnCopy where
  /-- Sequence number. [17 R555; count; none] -/
  seq : Nat
  /-- The ports. [17 R555; 16 ports; none] -/
  port : Tab EnKept
  /-- CFG_GEN. [17 R554; 32 bit; none] -/
  cfgGen : Nat
  /-- OUTAGES. [17 R555; 16 bit; none] -/
  outages : Nat
  /-- TAMPER_COUNT. [17 R568; 16 bit; none] -/
  tampers : Nat
  /-- The start of the demand interval. [17 R556; RTC seconds; none] -/
  from_ : Nat
deriving DecidableEq, Repr

/-- Energy accounting. -/
structure Energy where
  /-- The ports. [17 R549; 16 ports; see parts] -/
  port : Tab EnPort := {}
  /-- CFG_GEN. [17 R554; 32 bit; DESIGN CHOICE 0 (log 4)] -/
  cfgGen : Nat := 0
  /-- OUTAGES. [17 R555; 16 bit; DESIGN CHOICE 0 (log 4)] -/
  outages : Nat := 0
  /-- TAMPER_COUNT. [17 R568; 16 bit; DESIGN CHOICE 0 (log 4)] -/
  tampers : Nat := 0
  /-- The RTC second at which the demand interval began. [17 R556; 32 bit; DESIGN CHOICE 0 (log 4)] -/
  from_ : Nat := 0
  /-- The two MRAM copies, the newer first. [17 R555; 2 copies; DESIGN CHOICE none (log 4)] -/
  copies : List EnCopy := []
  /-- When the latest copy was written. [17 R555; elapsed ticks; none] -/
  copyAt : Option Nat := none
deriving DecidableEq, Repr

end Sys2Proof.Machine
end

