-- ==== Sys2Proof/Machine/Parts/Fault.lean ====
section
/-!
DEFINITION. State of the fault collector and of the attic log it writes (chapter 18; the log's format is chapter 19 R619).
-/

namespace Sys2Proof.Machine

/-- An open record (R583). Every field below begins when a firing opens the record. -/
structure FaultRec where
  /-- RECORD_ID. [18 R583; 32 bit; set at opening] -/
  id : Nat
  /-- PRIMARY. [18 R583; 8 bit; set at opening] -/
  primary : Nat
  /-- ISLAND. [18 R583; 8 bit; set at opening] -/
  island : Nat
  /-- REACTION. [18 R583; 8 bit; set at opening] -/
  reaction : Nat
  /-- FLAGS.INJ. [18 R583; 1 bit; set at opening] -/
  inj : Bool
  /-- FLAGS.REAL. [18 R583; 1 bit; 0] -/
  real : Bool := false
  /-- FLAGS.PIN. [18 R583; 1 bit; set at opening] -/
  pin : Bool
  /-- FLAGS.READ. [18 R583; 1 bit; 0] -/
  read : Bool := false
  /-- FLAGS.RESTORED. [18 R583; 1 bit; 0] -/
  restored : Bool := false
  /-- FLAGS.RTC_SET. [18 R583; 1 bit; set at opening] -/
  rtcSet : Bool
  /-- INSTANCE. [18 R583; 16 bit; set at opening] -/
  inst : Nat
  /-- EPOCH. [18 R583; 16 bit; set at opening] -/
  epoch : Nat
  /-- MERGE_COUNT. [18 R583; 32 bit; 0] -/
  merges : Nat := 0
  /-- TICK_FIRST. [18 R583; 64 bit; set at opening] -/
  tickFirst : Nat
  /-- TICK_LAST. [18 R583; 64 bit; set at opening] -/
  tickLast : Nat
  /-- The sources of SECONDARY. [18 R583; 256 bit; none] -/
  secondary : List Nat := []
  /-- ARG. [18 R583; 4 B; set at opening] -/
  arg : Bytes
  /-- RTC_SEC. [18 R583; 32 bit; set at opening] -/
  rtcSec : Nat
  /-- Whether the attic's copy is older than the record (R590). [18 R590; 1 bit; 1] -/
  dirty : Bool := true
deriving DecidableEq, Repr

/-- A condition source's present entry: its source, its instance and a further argument of the instance (R676). -/
structure Present where
  /-- The source. -/
  src : Nat
  /-- The instance. -/
  inst : Nat
  /-- The further argument that tells entries of one instance apart. -/
  sub : Nat
deriving DecidableEq, Repr

/-- The collector (R574 to R596). -/
structure Faults where
  /-- The open records, oldest first. [18 R583; at most 64 of 80 B; DESIGN CHOICE empty (log 4)] -/
  open_ : List FaultRec := []
  /-- The last RECORD_ID given, kept in MRAM. [18 R583; 32 bit; DESIGN CHOICE 0 (log 4)] -/
  lastId : Nat := 0
  /-- LOST. [18 R593; 32 bit; 0] -/
  lost : Nat := 0
  /-- OVERFLOW. [18 R586; 1 bit; 0] -/
  overflow : Bool := false
  /-- OVERFLOW_PIN. [18 R586; 1 bit; 0] -/
  overflowPin : Bool := false
  /-- FIRINGS by source. [18 R593; 256 counts of 32 bit; 0] -/
  firings : Tab Nat := {}
  /-- The conditions present. [18 R574; set; empty] -/
  present : List Present := []
  /-- The records' copies in the attic. [18 R590; at most 64; DESIGN CHOICE empty (log 4)] -/
  mirror : List FaultRec := []
  /-- Whether Ubfer has restored the records since the reset, so that FAULT_N may be driven. [18 R591; 1 bit; 0] -/
  restoredDone : Bool := false
  /-- GSTAT.FAULT_PIN: whether FAULT_N is driven low. [18 R591; 1 bit; 0] -/
  pinLow : Bool := false
  /-- Non-maskable traps taken by Ubfer: an output. [18 R577; count; 0] -/
  nmiTaken : Nat := 0
  /-- A chip reset reaction: the source, the record and the latest instant it starts at. [18 R580; source, record and elapsed ticks; none] -/
  chipResetDue : Option (Nat × Nat × Nat) := none
  /-- The attic log, oldest entry first. [19 R619; 30,720 entries of 32 B; DESIGN CHOICE empty (log 4)] -/
  attic : List Bytes := []
  /-- The next SEQ of the attic log. [19 R619; 32 bit; DESIGN CHOICE 0 (log 4)] -/
  atticSeq : Nat := 0
deriving DecidableEq, Repr

end Sys2Proof.Machine
end

