-- ==== Sys2Proof/Machine/Memory.lean ====
section
/-!
DEFINITION. Byte memories in one canonical form: addresses strictly rising and no entry equal to 0, which is what an
unlisted address reads as (pantry banks 0 to 13 hold 0 after reset, R422; log 6 for the other memories).
-/

namespace Sys2Proof.Machine

/-- A memory: the listed bytes, addresses strictly rising, none of them 0. -/
abbrev Memory := List Host.Cell

/-- The canonical form from a lowest allowed address on. -/
def Memory.wfFrom (lo : Nat) : Memory → Bool
  | [] => true
  | (a, b) :: r => decide (lo ≤ a) && (b != 0#8) && Memory.wfFrom (a + 1) r

/-- The canonical form. -/
def Memory.wf (m : Memory) : Bool := m.wfFrom 0

/-- What an unlisted address reads as (R422). -/
def Memory.unlisted : Byte := 0

/-- One byte of a memory (log 6). -/
def Memory.read : Memory → Nat → Byte
  | [], _ => Memory.unlisted
  | (a, b) :: r, k => if a = k then b else if k < a then Memory.unlisted else Memory.read r k

/-- The memory without an address. -/
def Memory.drop1 : Memory → Nat → Memory
  | [], _ => []
  | (a, b) :: r, k => if a = k then r else if k < a then (a, b) :: r else (a, b) :: Memory.drop1 r k

/-- The memory with a byte that is not 0 at an address. -/
def Memory.put1 : Memory → Nat → Byte → Memory
  | [], k, v => [(k, v)]
  | (a, b) :: r, k, v =>
    if a = k then (k, v) :: r else if k < a then (k, v) :: (a, b) :: r else (a, b) :: Memory.put1 r k v

/-- One byte written: writing 0 removes the entry. -/
def Memory.write (m : Memory) (k : Nat) (v : Byte) : Memory := if v = 0#8 then m.drop1 k else m.put1 k v

/-- n bytes from an address. -/
def Memory.readN (m : Memory) (k n : Nat) : Bytes := (List.range n).map fun i => m.read (k + i)

/-- A byte string written from an address on. -/
def Memory.writeN (m : Memory) (k : Nat) : Bytes → Memory
  | [] => m
  | b :: r => Memory.writeN (m.write k b) (k + 1) r

/-- A span set to 0. -/
def Memory.clear (m : Memory) (lo n : Nat) : Memory := m.filter fun c => !(decide (lo ≤ c.1) && decide (c.1 < lo + n))

end Sys2Proof.Machine
end

