-- ==== Sys2Proof/Machine/Parts/Firm.lean ====
section
/-!
DEFINITION. State of the MRAM regions, the loft, the keys and the life-cycle (chapter 19).
-/

namespace Sys2Proof.Machine

/-- Life-cycle states, in the order of their codes (R617). -/
inductive LcState where
  | factory | provisioned | field | returned
deriving DecidableEq, Repr

/-- LOFT_STATE, in the order of its codes (R605). -/
inductive LoftState where
  | empty | written | verified | scheduled | previous
deriving DecidableEq, Repr

/-- KEY_STATE, in the order of its codes (R570). -/
inductive KeyState where
  | ready | new | absent
deriving DecidableEq, Repr

/-- An image region of MRAM: its bytes, or the image the device is delivered with (R599, log 4). -/
structure Image where
  /-- Whether it holds the image the device is delivered with. [19 R599; 1 bit; set by the exchange] -/
  factory : Bool := false
  /-- Its bytes; what is not listed is 0. [19 R599; 2 MiB or 512 KiB; 0 (log 6)] -/
  mem : Memory := []
deriving DecidableEq, Repr

/-- An endpoint image slot (R610, R620). -/
structure EpSlot where
  /-- Whether it holds a checked item. [19 R620; 1 bit; DESIGN CHOICE 0 (log 4)] -/
  valid : Bool := false
  /-- The item. [19 R599; 512 KiB; DESIGN CHOICE 0 (log 6)] -/
  image : Image := {}
  /-- IMAGE_ID. [19 R620; 16 bit; DESIGN CHOICE 0 (log 4)] -/
  imageId : Nat := 0
  /-- TARGET. [19 R620; 8 bit; DESIGN CHOICE 0 (log 4)] -/
  target : Nat := 0
  /-- VERSION. [19 R620; 32 bit; DESIGN CHOICE 0 (log 4)] -/
  version : Nat := 0
  /-- LENGTH. [19 R620; 32 bit; DESIGN CHOICE 0 (log 4)] -/
  length : Nat := 0
deriving DecidableEq, Repr

/-- An EP_IMAGE_SEND in progress (R610). -/
structure ImageSend where
  /-- The mailbox. [19 R610; 3 bit; set by the command] -/
  mb : Nat
  /-- The slot. [19 R610; 1 bit; set by the command] -/
  slot : Nat
  /-- The lanes still to serve, the present one first. [19 R610; lanes; set by the command] -/
  lanes : List Nat
  /-- The next OFFSET. [19 R610; count; 0] -/
  next : Nat := 0
  /-- The lanes completed. [19 R610; count; 0] -/
  done : Nat := 0
deriving DecidableEq, Repr

/-- What the next boot does with the loft and the active region (R607). -/
inductive BootPlan where
  /-- Nothing. -/
  | none
  /-- The loft is checked and exchanged with the active region; when the start was made, in elapsed ticks. -/
  | exchange (at_ : Nat)
  /-- The regions were exchanged, and the start, made at an instant in elapsed ticks, waits for its confirmation. -/
  | confirm (at_ : Nat)
  /-- The regions are exchanged back. -/
  | revert
deriving DecidableEq, Repr

/-- MRAM and life-cycle. -/
structure Firm where
  /-- The life-cycle word. [19 R617; 2 bit; DESIGN CHOICE FACTORY (log 4)] -/
  lc : LcState := .factory
  /-- The owner public key, X then Y. [19 R602; 64 B; DESIGN CHOICE none (log 4)] -/
  ownerKey : Option Bytes := none
  /-- The owner lock. [19 R616; 1 bit; DESIGN CHOICE 0 (log 4)] -/
  locked : Bool := false
  /-- The anti-rollback slot 0. [19 R603; 24 bit; DESIGN CHOICE 0 (log 4)] -/
  slot0 : Nat := 0
  /-- The anti-rollback slots 1 to 64: IMAGE_ID and VERSION. [19 R603; 64 slots; DESIGN CHOICE none taken (log 4)] -/
  slots : List (Nat × Nat) := []
  /-- The active Ubfer image. [19 R599; 2 MiB; DESIGN CHOICE the delivered image (log 4)] -/
  active : Image := { factory := true }
  /-- The loft. [19 R599; 2 MiB; DESIGN CHOICE 0 (log 4)] -/
  loft : Image := {}
  /-- LOFT_STATE. [19 R605; 3 bit; DESIGN CHOICE EMPTY (log 4)] -/
  loftSt : LoftState := .empty
  /-- ACTIVATE_AT. [19 R606; tick time; 0] -/
  activateAt : Nat := 0
  /-- Last activation result. [19 R620; 8 bit; DESIGN CHOICE 0 (log 4)] -/
  result : Nat := 0
  /-- What the next boot does. [19 R607; plan; none] -/
  boot : BootPlan := .none
  /-- The activation result still to be reported once Ubfer runs. [19 R607, R621; 2 bit; none] -/
  report : Option Nat := none
  /-- FW_CHALLENGE. [19 R616; 64 bit; DESIGN CHOICE free (log 2)] -/
  challenge : Nat := 0
  /-- The unit signing key. [17 R567; 256 bit; DESIGN CHOICE none (log 4)] -/
  signKey : Option Nat := none
  /-- The key-agreement key. [17 R567; 256 bit; DESIGN CHOICE none (log 4)] -/
  kaKey : Option Nat := none
  /-- The link keys in MRAM, by ENDPOINT_ID. [19 R615; secrets; DESIGN CHOICE none (log 4)] -/
  linkKeys : List (Nat × Bytes) := []
  /-- KEY_GEN. [17 R567; 16 bit; DESIGN CHOICE 0 (log 4)] -/
  keyGen : Nat := 0
  /-- KEY_STATE. [17 R567; 2 bit; DESIGN CHOICE ABSENT (log 4)] -/
  keyState : KeyState := .absent
  /-- The endpoint image slots. [19 R599; 2 slots; DESIGN CHOICE invalid (log 4)] -/
  slot : Tab EpSlot := {}
  /-- The latest package applied: its mailbox and the pages its records write, which other mailboxes find busy until it is DONE. [19 R614; mailbox and pages; none] -/
  pkg : Option (Nat × List Nat) := none
  /-- The EP_IMAGE_SEND in progress. [19 R610; command; none] -/
  sending : Option ImageSend := none
deriving DecidableEq, Repr

end Sys2Proof.Machine
end

