-- ==== Sys2Proof/Machine/Parts/Hk.lean ====
section
/-!
DEFINITION. State of housekeeping and of the thermal block (chapter 13).
-/

namespace Sys2Proof.Machine

/-- What an urgent conversion is for (R448). -/
inductive UrgentFor where
  /-- HK_CONVERT from a mailbox (R466). -/
  | mailbox (mb : Nat)
  /-- The confirmation of a zone's shutdown (R459). -/
  | confirm (zone : Nat)
deriving DecidableEq, Repr

/-- An urgent request (R448). -/
structure Urgent where
  /-- The input. -/
  input : Nat
  /-- Whether both converters convert it. -/
  paired : Bool
  /-- What it is for. -/
  for_ : UrgentFor
deriving DecidableEq, Repr

/-- A conversion in progress (R441, R444, R448). -/
inductive HkConv where
  /-- An entry of the sequence. -/
  | seq (i : Nat)
  /-- The urgent request at the head of the queue. -/
  | urgent (u : Urgent)
deriving DecidableEq, Repr

/-- One pair of converters (R441, R447, R448). -/
structure HkPair where
  /-- Whether the pair is awake. [13 R464; 1 bit; 0] -/
  awake : Bool := false
  /-- When its wake began, in elapsed ticks. [13 R447; elapsed ticks; none] -/
  wakeFrom : Option Nat := none
  /-- Since when it has had no conversion to make, in elapsed ticks. [13 R447; elapsed ticks; 0] -/
  idleFrom : Nat := 0
  /-- The conversion in progress. [13 R441; conversion; none] -/
  conv : Option HkConv := none
  /-- When it started, in elapsed ticks. [13 R441; elapsed ticks; 0] -/
  convAt : Nat := 0
  /-- The short time at which it sampled. [13 R466; 32 bit; 0] -/
  convShort : Nat := 0
  /-- The entry of the sequence to convert next; none when the sequence of the round has ended. [13 R444; 5 bit; none] -/
  next : Option Nat := none
  /-- How often in a row the entry to convert next has been interrupted. [13 R448; count; 0] -/
  interrupts : Nat := 0
  /-- The urgent requests that wait. [13 R448; at most 4 and confirmations; empty] -/
  urgent : List Urgent := []
deriving DecidableEq, Repr

/-- HK_VALUE of an input (R464). -/
structure HkValue where
  /-- Value, Q1.15. [13 R464; 16 bit; 0] -/
  value : Int := 0
  /-- Code. [13 R464; 16 bit; 0] -/
  code : Nat := 0
  /-- VALID. [13 R464; 1 bit; 0] -/
  valid : Bool := false
  /-- IMPLAUSIBLE. [13 R464; 1 bit; 0] -/
  bad : Bool := false
  /-- BELOW_LO. [13 R464; 1 bit; 0] -/
  below : Bool := false
  /-- ABOVE_HI. [13 R464; 1 bit; 0] -/
  above : Bool := false
  /-- Round count at conversion. [13 R464; 16 bit; 0] -/
  round : Nat := 0
deriving DecidableEq, Repr

/-- A fan's tachometer (R453). -/
structure FanTach where
  /-- When the latest pulse began, in elapsed ticks. [13 R453; elapsed ticks; none] -/
  at_ : Option Nat := none
  /-- rpm. [13 R464; 16 bit; 0] -/
  rpm : Nat := 0
  /-- Rounds in a row with a speed below FAN_MIN. [13 R453; count; 0] -/
  low : Nat := 0
deriving DecidableEq, Repr

/-- A zone (R455, R456, R465). -/
structure ThermZone where
  /-- T; none if blind. [13 R465; 16 bit; DESIGN CHOICE 0 (log 3)] -/
  t : Option Int := some 0
  /-- D. [13 R456; 5 bit; 0] -/
  d : Nat := 0
  /-- The recovery count. [13 R456; 4 bit; 0] -/
  count : Nat := 0
  /-- SOURCE. [13 R465; 16 bit; 0] -/
  src : Nat := 0
  /-- The factor F last published. [13 R457; Q1.15; 0x7FFF] -/
  factor : Nat := 0x7FFF
  /-- The cell whose next HEALTH decides a shutdown. [13 R459; lane; none] -/
  cellWait : Option Nat := none
deriving DecidableEq, Repr

/-- An uncleared shutdown record (R461). -/
structure ThermRec where
  /-- RECORD_ID. [13 R461; 32 bit; set at the decision] -/
  id : Nat
  /-- ZONE. [13 R461; 8 bit; set at the decision] -/
  zone : Nat
  /-- FLAGS.READ. [13 R461; 1 bit; 0] -/
  read : Bool := false
  /-- FLAGS.RESTORED. [13 R461; 1 bit; 0] -/
  restored : Bool := false
  /-- FLAGS.RTC_SET. [13 R461; 1 bit; set at the decision] -/
  rtcSet : Bool
  /-- SOURCE. [13 R461; 16 bit; set at the decision] -/
  src : Nat
  /-- T_TRIP. [13 R461; 16 bit; set at the decision] -/
  trip : Int
  /-- T_PEAK. [13 R461; 16 bit; set at the decision] -/
  peak : Int
  /-- STRINGS. [13 R461; 16 bit; set at the decision] -/
  strings : Nat
  /-- TICK. [13 R461; 64 bit; set at the decision] -/
  tick : Nat
  /-- RTC. [13 R461; 32 bit; set at the decision] -/
  rtc : Nat
deriving DecidableEq, Repr

/-- DEW_STATE (R464). -/
structure DewState where
  /-- T in 0.1 °C. [13 R464; 16 bit; 0x8000] -/
  t : Int := -32768
  /-- RH in 0.1 %RH. [13 R464; 16 bit; 0x8000] -/
  rh : Int := -32768
  /-- DEW_POINT. [13 R464; 16 bit; 0x8000] -/
  point : Int := -32768
  /-- DEW_MARGIN. [13 R464; 16 bit; 0x8000] -/
  margin : Int := -32768
deriving DecidableEq, Repr

/-- Housekeeping and thermal. -/
structure HkUnit where
  /-- The pairs A and B. [13 R441; 2 pairs; asleep] -/
  pair : Tab HkPair := {}
  /-- HK_VALUE. [13 R464; 32 inputs; 0] -/
  value : Tab HkValue := {}
  /-- Rounds run. [13 R464; 32 bit; 0] -/
  rounds : Nat := 0
  /-- The round boundaries run, in units of 10 ms of tick time, as spans first to last. [13 R450; spans; none] -/
  ran : List (Nat × Nat) := []
  /-- When the present round's boundary came, in elapsed ticks. [13 R450; elapsed ticks; 0] -/
  roundAt : Nat := 0
  /-- Whether the present round has still to evaluate its zones. [13 R450; 1 bit; 0] -/
  open_ : Bool := false
  /-- Whether the present round has still to publish. [13 R450; 1 bit; 0] -/
  publish : Bool := false
  /-- The converters that left the limits of input 28 or 29 in the present round. [13 R446; 4 bit; none] -/
  badConv : List Nat := []
  /-- The results of the present round: converter and input. [13 R446; list; empty] -/
  results : List (Nat × Nat) := []
  /-- The fans. [13 R453; 4 fans; 0] -/
  fan : Tab FanTach := {}
  /-- DEW_STATE. [13 R464; 8 B; 0x8000] -/
  dew : DewState := {}
  /-- The zones. [13 R455; 16 zones; as their parts] -/
  zone : Tab ThermZone := {}
  /-- TEMP of each cell's latest HEALTH and of the one before. [13 R459; per lane; none] -/
  cellTemp : Tab (Int × Option Int) := {}
  /-- The uncleared records, oldest first, which the attic keeps too. [13 R461, R462; list; DESIGN CHOICE empty (log 4)] -/
  recs : List ThermRec := []
  /-- The last RECORD_ID given, kept in MRAM. [13 R461; 32 bit; DESIGN CHOICE 0 (log 4)] -/
  lastId : Nat := 0
deriving DecidableEq, Repr

end Sys2Proof.Machine
end

