-- ==== Sys2Proof/Machine/Parts/Host.lean ====
section
/-!
DEFINITION. State of the host island: the host port, the read latches, the hatch with its mailboxes, the notification
ring, the shedding level and the parameter stores (chapter 02).
-/

namespace Sys2Proof.Machine

/-- The states of a mailbox, in the order of their codes (R58). -/
inductive MbState where
  | idle | pending | active | done
deriving DecidableEq, Repr

/-- A request as Ubfer copied it from the request area (R61, R65). -/
structure Request where
  /-- OPCODE. [02 R65; 16 bit; 0] -/
  opcode : Nat := 0
  /-- SEQ. [02 R65; 16 bit; 0] -/
  seq : Nat := 0
  /-- EPOCH. [02 R65; 16 bit; 0] -/
  epoch : Nat := 0
  /-- LENGTH. [02 R65; 16 bit; 0] -/
  length : Nat := 0
  /-- PAYLOAD. [02 R65; up to 504 B; empty] -/
  payload : Bytes := []
deriving DecidableEq, Repr

/-- The last completed request of a mailbox and its reply (R69). -/
structure Kept where
  /-- The request, header and payload. [02 R69; request; none] -/
  req : Request := {}
  /-- The reply bytes, header and payload. [02 R69; up to 512 B; none] -/
  reply : Bytes := []
deriving DecidableEq, Repr

/-- One record of a held set (R79). -/
structure HeldRec where
  /-- Parameter ID. -/
  id : Nat
  /-- INSTANCE. -/
  inst : Nat
  /-- The value. -/
  value : Bytes
  /-- The string it belonged to when it was checked, if it is string-owned. -/
  str : Option Nat := none
deriving DecidableEq, Repr

/-- What an ACTIVE mailbox whose command has begun waits for before its reply is written. -/
inductive Waiting where
  /-- The command has not begun or nothing is outstanding. -/
  | none
  /-- The reply with this status and payload is held until the standby acknowledges (R72, R373). -/
  | standbyAck (status : Nat) (payload : Bytes)
  /-- EP_PARAM waits for the exchange on a lane (R184). -/
  | epParam (lane : Nat)
  /-- EP_REAUTH waits for the exchange on a lane (R185). -/
  | reauth (lane : Nat)
  /-- EP_REAUTH of the twin alone waits for the exchange the twin began by an elapsed tick (R185). -/
  | twinAuth (lane at_ : Nat)
  /-- EP_IMAGE_SEND waits for its last chunk (R610). -/
  | epImage
  /-- TIME_MASTER_SET waits for the acknowledgements of the group (R227). -/
  | timeMaster
  /-- CELL_BYPASS waits for the planned ENTER of a lane (R362). -/
  | cellBypass (lane : Nat)
  /-- CELL_RELEASE waits for the planned RELEASE of a lane (R362). -/
  | cellRelease (lane : Nat)
  /-- HK_CONVERT waits for its urgent conversion (R466). -/
  | hkConvert
  /-- RTC_SET waits for the second at which the clock is set (R565). -/
  | rtcSet
deriving DecidableEq, Repr

/-- One mailbox (R57 to R69, R79). -/
structure Mailbox where
  /-- The state reported in HATCH_STATE. [02 R58; 2 bit; IDLE] -/
  state : MbState := .idle
  /-- The request area; bytes not listed are 0. [02 R57; 512 B; DESIGN CHOICE 0 (log 3)] -/
  request : Bytes := []
  /-- The reply area; bytes not listed are 0. [02 R57; 512 B; DESIGN CHOICE 0 (log 3)] -/
  reply : Bytes := []
  /-- Ubfer's copy of the request being executed. [02 R61; request; none] -/
  taken : Option Request := none
  /-- The last completed request and its reply. [02 R69; request and reply; none] -/
  kept : Option Kept := none
  /-- What the reply of an executing command waits for. [02 R61; reason; none] -/
  waiting : Waiting := .none
  /-- The held set, in order of writing. [02 R79; at most 64 records; empty] -/
  held : List HeldRec := []
deriving DecidableEq, Repr

/-- A port's read latch (R52). -/
structure ReadLatch where
  /-- The offset the latched word answers for, if the tag is set. [02 R52; 16 bit; none] -/
  tag : Option Nat := none
  /-- The latched high word. [02 R52; 32 bit; DESIGN CHOICE 0 (log 3)] -/
  high : Nat := 0
deriving DecidableEq, Repr

/-- What one port of the register window holds (R52, R53). -/
structure PortState where
  /-- The read latch. [02 R52; 32 bit and tag; no tag] -/
  latch : ReadLatch := {}
  /-- The held low word and the offset of its value. [02 R53; 32 bit and offset; none] -/
  heldLow : Option (Nat × Nat) := none
  /-- The word the port's latest modelled read returned: an output. [02 R52; 32 bit; DESIGN CHOICE 0 (log 3)] -/
  lastRead : Nat := 0
  /-- The upper word that the port's latest read of 8 bytes returned: an output. [02 R49; 32 bit; DESIGN CHOICE 0 (log 3)] -/
  lastHigh : Nat := 0
deriving DecidableEq, Repr

/-- The host port and the hatch. -/
structure Hatch where
  /-- Whether QSPI is the selected port, from HOST_SEL at the end of reset. [02 R46; 1 bit; the pin] -/
  qspi : Bool := false
  /-- The mailboxes 0 to 7. [02 R57; 8 mailboxes; all IDLE] -/
  boxes : Tab Mailbox := {}
  /-- Pending mailboxes in the order their doorbells were accepted. [02 R61; at most 8; empty] -/
  order : List Nat := []
  /-- The ACTIVE mailboxes in the order Ubfer took them. [02 R63; at most 8; empty] -/
  active : List Nat := []
  /-- HATCH_IRQ_EN bits 10:0. [02 R59; 11 bit; 0] -/
  irqEn : Nat := 0
  /-- HOST_ERR bits 15:0. [02 R55; 16 bit; 0] -/
  hostErr : Nat := 0
  /-- Whether FAULT_PIN has changed since GSTAT was read: the condition of vector 3. [02 R64; 1 bit; 0] -/
  faultPinChanged : Bool := false
  /-- MSI-X messages sent, one count per vector 0 to 3: an output. [02 R64; 4 counts; 0] -/
  msix : List Nat := [0, 0, 0, 0]
  /-- The MSI-X table's words by offset. [02 R47; 16 words; PRESUMED 0, and 1 for the vector-control words (log 19)] -/
  msixTable : Tab Nat := {}
  /-- The vectors whose message a mask bit has held back. [02 R47; 4 bit; PRESUMED 0 (log 19)] -/
  msixHeld : Nat := 0
  /-- The host port's latch, held word and last read. [02 R52; see parts; see parts] -/
  host : PortState := {}
  /-- The debug port's latch, held word and last read. [02 R52; see parts; see parts] -/
  jtag : PortState := {}
  /-- The management processor's latch, held word and last read. [02 R52; see parts; see parts] -/
  mp : PortState := {}
  /-- Whether the PCI Express link is trained. [20 R639; 1 bit; 0] -/
  pcieUp : Bool := false
deriving DecidableEq, Repr

/-- A notification entry (R83). -/
structure Note where
  /-- ISLAND. [02 R83; 8 bit; none] -/
  island : Nat
  /-- SEQ. [02 R83; 16 bit; none] -/
  seq : Nat
  /-- TIME. [02 R83; 32 bit; none] -/
  time : Nat
  /-- CODE. [02 R83; 16 bit; none] -/
  code : Nat
  /-- EPOCH. [02 R83; 16 bit; none] -/
  epoch : Nat
  /-- ARGS. [02 R83; 20 B; none] -/
  args : Bytes
deriving DecidableEq, Repr

/-- The notification ring's control and queues, and the load figures (R82 to R91). -/
structure Notif where
  /-- NR_BASE.BASE. [02 R82; 8 bit; 0] -/
  base : Nat := 0
  /-- NR_CTRL.NR_HOLDOFF. [02 R82; 16 bit; 100] -/
  holdoff : Nat := 100
  /-- NR_CTRL.NR_THRESH. [02 R82; 8 bit; 1] -/
  thresh : Nat := 1
  /-- NR_CTRL.NR_ENABLE. [02 R82; 1 bit; 0] -/
  enable : Bool := false
  /-- NR_HEAD.HEAD. [02 R82; 8 bit; 0] -/
  head : Nat := 0
  /-- NR_HEAD.PHASE. [02 R82; 1 bit; 1] -/
  phase : Bool := true
  /-- NR_TAIL.TAIL. [02 R82; 8 bit; 0] -/
  tail : Nat := 0
  /-- NR_DROPPED. [02 R82; 32 bit; 0] -/
  dropped : Nat := 0
  /-- The hold queue. [02 R673; at most 64 entries; empty] -/
  hold : List Note := []
  /-- Whether the next entry written carries LOST. [02 R673; 1 bit; 0] -/
  lost : Bool := false
  /-- The per-island sequence numbers of the next event. [02 R85; 15 counts of 16 bit; DESIGN CHOICE 0 (log 3)] -/
  seq : Tab Nat := {}
  /-- Deferred notifications under shedding. [02 R89; entries; empty] -/
  deferred : List Note := []
  /-- When each unread entry was written, oldest first, in elapsed ticks. [02 R84; at most 255; empty] -/
  unreadAt : List Nat := []
  /-- Whether the oldest unread entry has outlived NR_HOLDOFF. [02 R84; 1 bit; 0] -/
  heldOff : Bool := false
  /-- GLOAD.MP_LOAD. [02 R55, R87; 10 bit; 0] -/
  mpLoad : Nat := 0
  /-- GLOAD.MP_LOAD_PEAK. [02 R55; 10 bit; 0] -/
  mpPeak : Nat := 0
  /-- GSTAT.SHED_LEVEL. [02 R55, R89; 2 bit; 0] -/
  shed : Nat := 0
  /-- When the present load window began. [02 R87; elapsed ticks; DESIGN CHOICE 0 (log 3)] -/
  windowFrom : Nat := 0
deriving DecidableEq, Repr

/-- The parameter stores (R11 to R16, R56, R74 to R81), keyed by ID × 65536 + INSTANCE. A parameter with no entry
holds its reset value. -/
structure Params where
  /-- The shadow or last written values. [02 R14, R16; per parameter; each chapter's Reset column] -/
  shadow : Tab Bytes := {}
  /-- The values in effect. [02 R14, R76; per parameter; each chapter's Reset column] -/
  eff : Tab Bytes := {}
  /-- The MRAM configuration store. [02 R56; per restored parameter; DESIGN CHOICE empty (log 4)] -/
  store : Tab Bytes := {}
  /-- Saves to the configuration store since reset. [02 R56; 32 bit; 0] -/
  saves : Nat := 0
  /-- Short time of the latest save. [02 R56; 32 bit; 0] -/
  savedAt : Nat := 0
  /-- The counts of the RC parameters, keyed by ID × 65536 + INSTANCE, one per field of the parameter: NR_CNT and its like, of
  every chapter. [02 R11; per RC parameter of each chapter; 0] -/
  counters : Tab (List Nat) := {}
deriving DecidableEq, Repr

end Sys2Proof.Machine
end

