-- ==== Sys2Proof/Machine/Parts/Lane.lean ====
section
/-!
DEFINITION. State of the lanes and of the lane PLLs (chapter 03).
-/

namespace Sys2Proof.Machine

/-- The lane states, in the order of their codes (R107). -/
inductive LaneSt where
  | off | down | halted | trainCdr | trainEq | check | align | linked | sleep | hunt | test | retry
deriving DecidableEq, Repr

/-- The pattern test of a lane (R127, R128, R132). -/
structure LaneTest where
  /-- MODE, 0 if not in TEST. [03 R132; 8 bit; 0] -/
  mode : Nat := 0
  /-- PATTERN. [03 R132; 8 bit; 0] -/
  pattern : Nat := 0
  /-- CHK_LOCK. [03 R132; 1 bit; 0] -/
  chkLock : Bool := false
  /-- LOCK_LOSSES. [03 R128; 32 bit; 0] -/
  lockLosses : Nat := 0
  /-- BITS. [03 R128; 64 bit; 0] -/
  bits : Nat := 0
  /-- BIT_ERR. [03 R128; 64 bit; 0] -/
  bitErr : Nat := 0
  /-- SYM_ERR. [03 R128; 64 bit; 0] -/
  symErr : Nat := 0
  /-- The pattern generator: its latest bits, the newest in bit 0. [03 R126; 31 bit; 0] -/
  gen : Nat := 0
  /-- The checker's generator: from the received bits until it locks, on its own from then. [03 R128; 31 bit; 0] -/
  ref : Nat := 0
  /-- Consecutive symbols that matched, while the checker is not locked. [03 R128; count; 0] -/
  run : Nat := 0
  /-- The latest symbols' errors, newest first, while it is locked. [03 R128; at most 256; empty] -/
  errs : List Bool := []
  /-- START_TIME in elapsed ticks. [03 R132; elapsed ticks; 0] -/
  startAt : Nat := 0
deriving DecidableEq, Repr

/-- One lane (R98 to R132). -/
structure Lane where
  /-- LANE_STATE byte 0. [03 R107, R130; 4 bit; OFF] -/
  st : LaneSt := .off
  /-- The attempt number of LANE_STATE byte 1. [03 R115; 8 bit; 0] -/
  attempt : Nat := 0
  /-- When the present attempt started, in elapsed ticks. [03 R112; elapsed ticks; 0] -/
  attemptAt : Nat := 0
  /-- When the present state was entered, in elapsed ticks. [03 R107; elapsed ticks; 0] -/
  stateAt : Nat := 0
  /-- Presets tried in this attempt. [03 R112; 0 to 4; 0] -/
  tried : Nat := 0
  /-- The best preset so far and its smallest eye. [03 R112; preset and eye; none] -/
  best : Option (Nat × Nat) := none
  /-- Whether the linear preset of this attempt is fixed. [03 R112; 1 bit; 0] -/
  presetFixed : Bool := false
  /-- The preset in use. [03 R130; 8 bit; 0] -/
  preset : Nat := 0
  /-- TRAIN_ERR_MAX as it applies to the present check window. [03 R130; 8 bit; 0] -/
  errMax : Nat := 0
  /-- The DFE taps h1 to h5. [03 R103, R130; 5 of 8 bit; 0] -/
  taps : List Int := [0, 0, 0, 0, 0]
  /-- LANE_EYE: upper, middle, lower. [03 R106, R130; 3 of 0 to 64; 0] -/
  eye : List Nat := [0, 0, 0]
  /-- When the present eye window began, in elapsed ticks. [03 R106; elapsed ticks; 0] -/
  eyeAt : Nat := 0
  /-- When the present adaptation interval began, in elapsed ticks. [03 R104; elapsed ticks; 0] -/
  dfeAt : Nat := 0
  /-- The taps before each change of the latest 0.5 ms, newest first. [03 R112; elapsed ticks and taps; empty] -/
  tapHist : List (Nat × List Int) := []
  /-- Signal detect. [03 R125; 1 bit; 0] -/
  signal : Bool := false
  /-- Since when signal detect has its level, in elapsed ticks. [03 R117; elapsed ticks; 0] -/
  signalAt : Nat := 0
  /-- The latest blocks' CRC results, newest first, true for a failure. [03 R118; at most 64; empty] -/
  hist : List Bool := []
  /-- When the present CRC alarm window began, in elapsed ticks. [03 R121; elapsed ticks; 0] -/
  crcWinAt : Nat := 0
  /-- CRC failures in the present window. [03 R121; count; 0] -/
  crcWinFails : Nat := 0
  /-- Whether the present window has raised LANE_CRC_ALARM. [03 R121; 1 bit; 0] -/
  crcAlarmed : Bool := false
  /-- Since when the received signal is in an accepted idle gap, in elapsed ticks. [03 R123; elapsed ticks; none] -/
  rxGap : Option Nat := none
  /-- Whether signal detect has returned and the wake marker is awaited, and since when. [03 R125; elapsed ticks; none] -/
  wakeFrom : Option Nat := none
  /-- Consecutive downstream slots with only IDLE to send. [03 R122; count; 0] -/
  idleRun : Nat := 0
  /-- When the lane last sent a wake burst, in elapsed ticks. [03 R122; elapsed ticks; 0] -/
  burstAt : Nat := 0
  /-- The transmit precoder's last symbol. [03 R101; 2 bit; 0] -/
  txSym : Nat := 0
  /-- Whether a wake burst goes out ahead of the next symbols. [03 R124; 1 bit; 0] -/
  burst : Bool := false
  /-- The levels put out last, −3, −1, +1 or +3: a block's or a pattern's, behind their wake burst where there is one; none in electrical
  idle: an output. [03 R100, R102, R107, R124; levels; empty] -/
  lineOut : List Int := []
  /-- The receive precoder's last symbol. [03 R101; 2 bit; 0] -/
  rxSym : Nat := 0
  /-- The pattern test. [03 R127; see parts; off] -/
  test : LaneTest := {}
deriving DecidableEq, Repr

/-- The states of a lane PLL, in the order of RACK_STATE (R130). -/
inductive RackSt where
  | off | locking | locked | relocking
deriving DecidableEq, Repr

/-- One lane PLL: racks 0 to 7, 8 for the service lanes (R96, R130). -/
structure Rack where
  /-- RACK_STATE byte 0. [03 R130; 2 bit; OFF] -/
  st : RackSt := .off
  /-- Losses of lock. [03 R130; 16 bit; 0] -/
  losses : Nat := 0
deriving DecidableEq, Repr

/-- The lanes and their PLLs. -/
structure Lanes where
  /-- The lanes 0 to 131. [03 R96; 132 lanes; OFF] -/
  lane : Tab Lane := {}
  /-- The lane PLLs 0 to 8. [03 R96; 9 PLLs; OFF] -/
  rack : Tab Rack := {}
  /-- When HATCH_READY became 1, in elapsed ticks: the t0 of the staggered start. [03 R111; elapsed ticks; none] -/
  readyAt : Option Nat := none
deriving DecidableEq, Repr

end Sys2Proof.Machine
end

