-- ==== Sys2Proof/Machine/Parts/Link.lean ====
section
/-!
DEFINITION. State of the Ahnub link on each lane (chapter 04), service lanes included.
-/

namespace Sys2Proof.Machine

/-- A block waiting for a downstream slot: TYPE and the 96 bits of payload (R136). -/
structure DownBlock where
  /-- TYPE. -/
  type : Nat
  /-- P[95:0]. -/
  payload : Nat
deriving DecidableEq, Repr

/-- AUTH_STATE, in the order of its codes (R183). -/
inductive AuthSt where
  | none | running | passed | failed | open_
deriving DecidableEq, Repr

/-- A channel's latest value and sampling instant (R677). -/
structure Sample where
  /-- The converted value, Q1.15. [04 R677; 16 bit; 0] -/
  value : Int := 0
  /-- The sampling instant as a tick time; none before the first value. [04 R677; tick time; none] -/
  at_ : Option Nat := none
  /-- The value before it, which stands at a boundary before the latest instant. [08 R297; 16 bit; 0] -/
  value0 : Int := 0
  /-- The sampling instant of that value. [08 R297; tick time; none] -/
  at0 : Option Nat := none
deriving DecidableEq, Repr

/-- What the endpoint's IDENT gave (R170, R183). -/
structure EpIdent where
  /-- ENDPOINT_ID. [04 R183; 64 bit; 0] -/
  id : Nat := 0
  /-- CELL_TYPE. [04 R183; 8 bit; 0] -/
  cellType : Nat := 0
  /-- EP_VERSION. [04 R183; 16 bit; 0] -/
  version : Nat := 0
  /-- Whether the IDENT came since the lane's latest entry into LINKED. [01 R42; 1 bit; 0] -/
  fresh : Bool := false
deriving DecidableEq, Repr

/-- Who asked for a PARAM exchange (R184, R277). -/
inductive ParamFor where
  /-- EP_PARAM from a mailbox. -/
  | mailbox (mb : Nat)
  /-- The read of DT_FLOOR. -/
  | dtFloor
deriving DecidableEq, Repr

/-- A PARAM exchange (R163). -/
structure ParamExch where
  /-- PARAM_ID. -/
  id : Nat
  /-- OP. -/
  op : Nat
  /-- TAG. -/
  tag : Nat
  /-- VALUE. -/
  value : Nat
  /-- Sends made. -/
  tries : Nat
  /-- When it was sent last, in elapsed ticks. -/
  sentAt : Nat
  /-- Who asked. -/
  for_ : ParamFor
  /-- Whether it has been sent at all: its point of commitment (R184). -/
  sent : Bool := false
deriving DecidableEq, Repr

/-- A PARAM access that waits for the one in progress on its lane. -/
structure ParamWait where
  /-- PARAM_ID. -/
  id : Nat
  /-- OP. -/
  op : Nat
  /-- VALUE. -/
  value : Nat
  /-- Who asked. -/
  for_ : ParamFor
deriving DecidableEq, Repr

/-- The link of one lane. -/
structure Link where
  /-- SEQ of the next block sent. [04 R139; 8 bit; DESIGN CHOICE 0 (log 3)] -/
  downSeq : Nat := 0
  /-- SEQ of the latest block received. [04 R139; 8 bit; none] -/
  upSeq : Option Nat := none
  /-- Whether ROLE is owed ahead of every other block. [04 R141, R143; 1 bit; 0] -/
  roleOwed : Bool := false
  /-- Whether a ROLE repetition is owed. [04 R141, R143; 1 bit; 0] -/
  roleRepeat : Bool := false
  /-- Blocks sent since the latest ROLE. [04 R143; count; 0] -/
  sinceRole : Nat := 0
  /-- The blocks that wait, in order, but for ROLE and the shelf's timed actions. [04 R141; list; empty] -/
  queue : List DownBlock := []
  /-- The second copy of an EDGE or EDGE_PAIR still to be sent. [04 R153; block; none] -/
  copy : Option DownBlock := none
  /-- The 128 bits of the block sent last: an output. [04 R135; 128 bit; 0] -/
  lastOut : Nat := 0
  /-- The channels' latest values. [04 R677; 8 channels; 0, no instant] -/
  samples : Tab Sample := {}
  /-- Whether the lane's samples are marked stale. [04 R179; 1 bit; 0] -/
  stale : Bool := false
  /-- The latest HEALTH payload in received order. [04 R183; 12 B; 0] -/
  health : Bytes := []
  /-- Its receipt short time. [04 R183; 32 bit; 0] -/
  healthAt : Nat := 0
  /-- When a HEALTH came last, in elapsed ticks. [04 R159; elapsed ticks; none] -/
  healthMono : Option Nat := none
  /-- EP_IDENT. [04 R183; 12 B; 0] -/
  ident : EpIdent := {}
  /-- AUTH_STATE. [04 R183; 8 bit; NONE] -/
  auth : AuthSt := .none
  /-- When the present exchange began or the latest one failed, in elapsed ticks. [04 R170, R172; elapsed ticks; 0] -/
  authAt : Nat := 0
  /-- NONCE_H. [04 R170; 64 bit; none] -/
  nonceH : Nat := 0
  /-- NONCE_E. [04 R170; 64 bit; none] -/
  nonceE : Option Nat := none
  /-- Whether the head's own outcome of the exchange is PASS or OPEN, once formed. [04 R172; 2 bit; none] -/
  headOutcome : Option AuthSt := none
  /-- ENDPOINT_ID as the present exchange's IDENT gave it. [04 R170; 64 bit; none] -/
  authId : Option Nat := none
  /-- The cause to report if the exchange fails. [18 R676; 8 bit; 3] -/
  authCause : Nat := 3
  /-- The mailbox whose EP_REAUTH waits for the exchange. [04 R185; mailbox; none] -/
  authMb : Option Nat := none
  /-- The COAST_CFG payload queued last since the lane was authenticated. [04 R165; 96 bit; none] -/
  coast : Option Nat := none
  /-- Whether a COAST_CFG has been sent since then. [04 R165; 1 bit; 0] -/
  coastSent : Bool := false
  /-- IDLE_OK of the lane when it was last looked at. [04 R165, R179; 1 bit; 0] -/
  idleWas : Bool := false
  /-- Whether the read of DT_FLOOR that precedes the first timed action has ended. [07 R277; 1 bit; 0] -/
  floorDone : Bool := false
  /-- The PARAM exchange in progress. [04 R163; exchange; none] -/
  param : Option ParamExch := none
  /-- The accesses that wait for it. [04 R163; list; empty] -/
  paramWait : List ParamWait := []
  /-- The TAG of the next PARAM. [04 R163; 8 bit; DESIGN CHOICE 0 (log 3)] -/
  paramTag : Nat := 0
  /-- The faults taken: CODE, TIME and the elapsed ticks of receipt, by which further copies are known. [04 R160; list; empty] -/
  faultsSeen : List (Nat × Nat × Nat) := []
  /-- When the latest valid block came, in elapsed ticks. [04 R179; elapsed ticks; 0] -/
  validAt : Nat := 0
deriving DecidableEq, Repr

/-- The links and the stream slots. -/
structure Links where
  /-- The links of lanes 0 to 131. [04 R139; 132 links; as their parts] -/
  link : Tab Link := {}
  /-- STREAM_WPTR of each slot. [04 R183; 4 of 32 bit; 0] -/
  wptr : Tab Nat := {}
deriving DecidableEq, Repr

end Sys2Proof.Machine
end

