-- ==== Sys2Proof/Machine/Parts/Loop.lean ====
section
/-!
DEFINITION. State of the loop engine: tables, loop states, walks and commits (chapter 08).
-/

namespace Sys2Proof.Machine

/-- The state of a biquad section: its latest two inputs and outputs (R314). -/
structure Biquad where
  /-- x1. [08 R314; Q1.15; 0] -/
  x1 : Int := 0
  /-- x2. [08 R314; Q1.15; 0] -/
  x2 : Int := 0
  /-- y1. [08 R314; Q1.15; 0] -/
  y1 : Int := 0
  /-- y2. [08 R314; Q1.15; 0] -/
  y2 : Int := 0
deriving DecidableEq, Repr

/-- The state of one loop (R304, R326). -/
structure LoopSt where
  /-- The integrator I. [08 R313; Q9.31, 40 bit; 0] -/
  i : Int := 0
  /-- Section 0. [08 R314; see parts; 0] -/
  bq0 : Biquad := {}
  /-- Section 1. [08 R314; see parts; 0] -/
  bq1 : Biquad := {}
  /-- How many sections hold a state from the latest walk. [08 R320; 0 to 2; 0] -/
  bqSet : Nat := 0
  /-- The region in use. [08 R318; 0 to 7; 0] -/
  region : Nat := 0
  /-- The previous output. [08 R300, R326; Q1.15; 0] -/
  out : Int := 0
  /-- Clipped high. [08 R315; 1 bit; 0] -/
  clipHi : Bool := false
  /-- Clipped low. [08 R315; 1 bit; 0] -/
  clipLo : Bool := false
  /-- Stale in the latest walk. [08 R326; 1 bit; 0] -/
  stale : Bool := false
  /-- Whether the next walk is the first after enabling. [08 R320; 1 bit; 1] -/
  fresh : Bool := true
  /-- Whether the region is to be chosen afresh. [08 R323; 1 bit; 0] -/
  anew : Bool := false
  /-- Whether I was rescaled and is still to be bounded with the region the next walk chooses. [08 R323; 1 bit; 0] -/
  rebound : Bool := false
  /-- Whether the loop ran in the latest walk. [08 R357; 1 bit; 0] -/
  ran : Bool := false
deriving DecidableEq, Repr

/-- The descriptor table and the coefficient pool of one copy (R304): entries not listed are all 0. -/
structure LoopTables where
  /-- The descriptors. [08 R305; 512 of 48 B; restored, or 0] -/
  desc : Tab (List (BitVec 8)) := {}
  /-- The coefficient sets. [08 R309; 512 of 32 B; restored, or 0] -/
  coef : Tab (List (BitVec 8)) := {}
deriving DecidableEq, Repr

/-- A walk in progress: what it will leave when it is complete (R298). -/
structure Walk where
  /-- Its j. -/
  j : Nat
  /-- The tick time at which its set is published. -/
  doneAt : Nat
  /-- The states of the loops it walked. -/
  loops : List (Nat × LoopSt)
  /-- The walks that clipped, were stale, or changed region, by loop. -/
  marks : List (Nat × Bool × Bool × Bool)
deriving DecidableEq, Repr

/-- The loop engine. -/
structure LoopEng where
  /-- LE_STATE byte 0. [08 R326; 1 bit; STOPPED] -/
  running : Bool := false
  /-- The first boundary of a start, as a tick time. [08 R330; tick time; none] -/
  startAt : Option Nat := none
  /-- The boundary at which the engine stops. [08 R330; tick time; none] -/
  stopAt : Option Nat := none
  /-- The working tables. [08 R304; see parts; restored, or 0] -/
  work : LoopTables := {}
  /-- The shadow tables. [08 R304; see parts; restored, or 0] -/
  shadow : LoopTables := {}
  /-- The tables of an accepted commit not yet adopted. [08 R323; see parts; none] -/
  pend : Option LoopTables := none
  /-- The tick time from which a walked boundary adopts them. [08 R325; tick time; 0] -/
  pendSince : Nat := 0
  /-- The stored tables. [08 R323; see parts; DESIGN CHOICE empty (log 4)] -/
  stored : LoopTables := {}
  /-- LE_GEN. [08 R323, R326; 32 bit; restored, or 0] -/
  gen : Nat := 0
  /-- LE_GEN as stored. [08 R323; 32 bit; DESIGN CHOICE 0 (log 4)] -/
  storedGen : Nat := 0
  /-- The larder. [08 R304, R312; 16,384 of 16 bit; restored, or 0] -/
  larder : Tab Nat := {}
  /-- The larder as stored. [08 R324; 16,384 of 16 bit; DESIGN CHOICE empty (log 4)] -/
  storedLarder : Tab Nat := {}
  /-- The loops' states. [08 R304; 512 loops; as their parts] -/
  loop : Tab LoopSt := {}
  /-- LE_STATE bytes 4 to 7: j of the latest boundary. [08 R326; 32 bit; 0] -/
  j : Nat := 0
  /-- The tick time of the next boundary. [08 R296; tick time; 0] -/
  next : Nat := 0
  /-- The walk in progress. [08 R298; walk; none] -/
  walk : Option Walk := none
  /-- The set of a complete walk that is not yet published, where the next walk has begun: its tick time, and values by reference.
  [08 R298; tick time and list; none] -/
  outset : Option (Nat × List (Nat × Int)) := none
  /-- Consecutive skipped boundaries. [08 R303; count; 0] -/
  skips : Nat := 0
  /-- The presets that wait for the next walked boundary: loop and VALUE. [08 R331; list; empty] -/
  presets : List (Nat × Int) := []
  /-- The latest boundary that was walked, as a tick time. [08 R296; tick time; none] -/
  walkedAt : Option Nat := none
deriving DecidableEq, Repr

end Sys2Proof.Machine
end

