-- ==== Sys2Proof/Machine/Parts/Pantry.lean ====
section
/-!
DEFINITION. State of the pantry and the strongbox (chapter 12).
-/

namespace Sys2Proof.Machine

/-- The warnings of one port and code between two notifications (R427). -/
structure WarnState where
  /-- Warnings since the previous notification. [12 R427; 16 bit; 0] -/
  count : Nat := 0
  /-- When that notification was written, in elapsed ticks. [12 R427; elapsed ticks; none] -/
  at_ : Option Nat := none
deriving DecidableEq, Repr

/-- The pantry and the strongbox. -/
structure Pantry where
  /-- The bytes of banks 0 to 13; what is not listed is 0. [12 R421, R422; 1,792 KiB; 0] -/
  mem : Memory := []
  /-- Until when each bank set on again is cleared, in elapsed ticks. [12 R431; per bank; none] -/
  clearing : Tab Nat := {}
  /-- When each woken bank in Retention was last accessed, in elapsed ticks; no entry: asleep. [12 R430; per bank; none] -/
  awake : Tab Nat := {}
  /-- The wipe in progress: its cause and start, in elapsed ticks. [12 R436; cause; none] -/
  wiping : Option (Nat × Nat) := none
  /-- SB_STATE: cause of the latest wipe. [12 R438; 8 bit; 0] -/
  wipeCause : Nat := 0
  /-- SB_STATE: wipes since reset. [12 R438; 16 bit; 0] -/
  wipes : Nat := 0
  /-- SB_STATE: short time at which the latest wipe completed. [12 R438; 32 bit; 0] -/
  wipeDoneAt : Nat := 0
  /-- What the strongbox holds: the link keys loaded, by endpoint identity. [12 R435, R437; 256 KiB; empty (wiped)] -/
  linkKeys : List (Nat × Bytes) := []
  /-- The warnings by port × 2 + code. [12 R427; 4 counts; 0] -/
  warn : Tab WarnState := {}
  /-- Whether XBUSY_N is low. [12 R428; pin; high] -/
  xbusyLow : Bool := false
deriving DecidableEq, Repr

end Sys2Proof.Machine
end

