-- ==== Sys2Proof/Machine/Parts/Pos.lean ====
section
/-!
DEFINITION. State of the position channels and the compare units (chapter 15).
-/

namespace Sys2Proof.Machine

/-- One line of a channel: its two single-ended receivers (R498, R500). -/
structure PosLine where
  /-- The positive wire's level. [15 R498; pin; DESIGN CHOICE low (log 4)] -/
  plus : Bool := false
  /-- The negative wire's level. [15 R498; pin; DESIGN CHOICE high (log 4)] -/
  minus : Bool := true
  /-- Since when the wires agree or disagree as they do, in elapsed ticks. [15 R500; elapsed ticks; 0] -/
  since : Nat := 0
  /-- The level of the differential receiver. [15 R498; 1 bit; low (log 4)] -/
  lv : Bool := false
  /-- Since when it has been so. [15 R499; elapsed ticks; 0] -/
  lvAt : Nat := 0
  /-- WIRE_x. [15 R513; 1 bit; 0] -/
  wire : Bool := false
deriving DecidableEq, Repr

/-- One channel. -/
structure PosChan where
  /-- The lines A, B, Z. [15 R498; 3 lines; differential low] -/
  line : Tab PosLine := {}
  /-- The accepted level of A. [15 R499; 1 bit; DESIGN CHOICE low (log 4)] -/
  a : Bool := false
  /-- The accepted level of B. [15 R499; 1 bit; DESIGN CHOICE low (log 4)] -/
  b : Bool := false
  /-- The accepted level of Z. [15 R499; 1 bit; DESIGN CHOICE low (log 4)] -/
  z : Bool := false
  /-- COUNT. [15 R502; 32 bit; 0] -/
  count : Nat := 0
  /-- REF_LATCH. [15 R513; 32 bit; 0] -/
  latch : Nat := 0
  /-- STAMP. [15 R502; 64 bit; 0] -/
  stamp : Nat := 0
  /-- VALID. [15 R506; 1 bit; 0] -/
  valid : Bool := false
  /-- DIR, 1 up. [15 R513; 1 bit; 0] -/
  up : Bool := false
  /-- Whether a count has changed since reset. [15 R510; 1 bit; 0] -/
  moved : Bool := false
  /-- REF_SEEN. [15 R513; 1 bit; 0] -/
  refSeen : Bool := false
  /-- A pending POS_SET. [15 R514; 32 bit; none] -/
  pending : Option Nat := none
  /-- Illegal samples since the previous raising of POS_QUAD_ILLEGAL. [15 R501; count; 0] -/
  illegal : Nat := 0
  /-- When POS_QUAD_ILLEGAL was raised last, in elapsed ticks. [15 R501; elapsed ticks; none] -/
  illegalAt : Option Nat := none
  /-- When the previous tooth came, in elapsed ticks. [15 R504; elapsed ticks; none] -/
  toothAt : Option Nat := none
  /-- P'. [15 R504; ticks; none] -/
  prevP : Option Nat := none
  /-- The P of an extra tooth, to be added to the next. [15 R504; ticks; none] -/
  extraP : Option Nat := none
  /-- Pitches counted since the previous reference. [15 R505; count; 0] -/
  pitches : Nat := 0
  /-- Whether a reference has come since start. [15 R505; 1 bit; 0] -/
  refOnce : Bool := false
  /-- The period the speed takes in MODE TOOTH. [15 R504, R507; ticks; none] -/
  toothP : Option Nat := none
  /-- When the latest count changes of one direction came, newest first, in elapsed ticks. [15 R507; at most 5; empty] -/
  changes : List Nat := []
  /-- When a count changed last, in elapsed ticks. [15 R507; elapsed ticks; 0] -/
  changeAt : Nat := 0
  /-- SPEED. [15 R507; signed 32 bit; 0] -/
  speed : Int := 0
  /-- PERIOD. [15 R513; 32 bit; 0] -/
  period : Nat := 0
  /-- Whether the channel is in count mode. [15 R508; 1 bit; 0] -/
  countMode : Bool := false
  /-- ZERO. [15 R507; 1 bit; 0] -/
  zero : Bool := false
  /-- The number of the window that runs. [15 R507; count; 0] -/
  window : Nat := 0
  /-- COUNT at its start. [15 R507; 32 bit; 0] -/
  windowCount : Nat := 0
deriving DecidableEq, Repr

/-- One compare unit: its latest firing (R513). -/
structure PosCmp where
  /-- FIRED. [15 R513; 1 bit; 0] -/
  fired : Bool := false
  /-- LATE. [15 R513; 1 bit; 0] -/
  late : Bool := false
  /-- INVALID. [15 R513; 1 bit; 0] -/
  invalid : Bool := false
  /-- Short time of the latest firing. [15 R513; 32 bit; 0] -/
  at_ : Nat := 0
  /-- Until when CMP_OUT is raised, in elapsed ticks. [15 R511; elapsed ticks; none] -/
  pulse : Option Nat := none
deriving DecidableEq, Repr

/-- The position channels and the compare units. -/
structure PosUnit where
  /-- The channels. [15 R498; 4 channels; as their parts] -/
  chan : Tab PosChan := {}
  /-- The compare units. [15 R509; 8 units; disarmed] -/
  cmp : Tab PosCmp := {}
deriving DecidableEq, Repr

end Sys2Proof.Machine
end

