-- ==== Sys2Proof/Machine/Parts/Prot.lean ====
section
/-!
DEFINITION. State of string protection, cell bypass and riding through outages (chapter 09).
-/

namespace Sys2Proof.Machine

/-- The bypass state of a lane (R344, R361). -/
structure Byp where
  /-- The first cause of the bypass record held. [09 R344; 8 bit; none] -/
  held : Option Nat := none
  /-- Whether the record was made since its string's latest capture. [06 R269; 1 bit; 0] -/
  fresh : Bool := false
  /-- Tick time of the ENTER, once it is timed. [09 R361; tick time; none] -/
  enterAt : Option Nat := none
  /-- Whether a release is recorded for the next boundary (R347). [09 R347; 1 bit; 0] -/
  relWanted : Bool := false
  /-- Tick time of the RELEASE, until it has passed. [09 R361; tick time; none] -/
  relAt : Option Nat := none
  /-- The time of the latest RELEASE, until a HEALTH after it has been judged (R348). [09 R348; tick time; none] -/
  judgeAt : Option Nat := none
deriving DecidableEq, Repr

/-- The protection of a string. -/
structure ProtStr where
  /-- The latched causes. [09 R334, R361; 16 bit; 0] -/
  mask : Nat := 0
  /-- The first cause, as a bit number. [09 R361; 8 bit; 0] -/
  first : Nat := 0
  /-- Short time of the trip. [09 R361; 32 bit; 0] -/
  tripAt : Nat := 0
  /-- Consecutive samples of I_SRC beyond OC_LIMIT. [09 R334; count; 0] -/
  ocRun : Nat := 0
  /-- The previous sample of I_SRC and its instant. [09 R334; Q1.15 and tick time; none] -/
  iPrev : Option (Int × Nat) := none
  /-- Whether UV_ARM has passed since the string's O_0 (R335). [09 R335; 1 bit; 0] -/
  uvArmed : Bool := false
  /-- The lanes whose failure raised CELL_FAIL, still to be looked at by TRIP_CLEAR. [09 R334; list; empty] -/
  failed : List Nat := []
  /-- The lanes whose disabling tripped the string under R33. [09 R334; list; empty] -/
  disabled : List Nat := []
  /-- When the trip was decided, in elapsed ticks, of a trip this unit took itself. [10 R378; elapsed ticks; none] -/
  ownTrip : Option Nat := none
deriving DecidableEq, Repr

/-- The states of the ride-through sequence, in the order of their codes (R354). -/
inductive RideSt where
  | off | grid | dark | dewWait | precharge | sync | enable | halted
deriving DecidableEq, Repr

/-- The ride-through sequence. -/
structure Ride where
  /-- RIDE_STATE byte 0. [09 R354; 8 bit; OFF] -/
  st : RideSt := .off
  /-- RIDE_STATE byte 1: the halt reason. [09 R361; 8 bit; 0] -/
  reason : Nat := 0
  /-- RIDE_STATE byte 2: the string of reason 0x07. [09 R361; 8 bit; 0] -/
  str : Nat := 0
  /-- RIDE_STATE bytes 4 to 7: short time of entry. [09 R361; 32 bit; 0] -/
  enteredAt : Nat := 0
  /-- When the state was entered, in elapsed ticks. [09 R354; elapsed ticks; 0] -/
  enteredMono : Nat := 0
  /-- The state a halt interrupted. [09 R359; state; OFF] -/
  halted : RideSt := .off
  /-- Consecutive evaluations with M below LOSS_LEVEL. [09 R351; count; 0] -/
  lossRun : Nat := 0
  /-- Since when every evaluation has found M at or above RETURN_LEVEL, in elapsed ticks. [09 R351; elapsed ticks; none] -/
  returnFrom : Option Nat := none
  /-- When MV was lost, in elapsed ticks. [09 R355; elapsed ticks; 0] -/
  lostAt : Nat := 0
  /-- When MV returned, in elapsed ticks. [09 R355; elapsed ticks; 0] -/
  returnedAt : Nat := 0
  /-- Since when DEW_MARGIN has been at or above DEW_MIN, in elapsed ticks. [09 R355; elapsed ticks; none] -/
  dewFrom : Option Nat := none
  /-- Each member's v at the entry of PRECHARGE. [09 R356; per lane Q1.15; 0] -/
  pcNoted : Tab Int := {}
  /-- Consecutive walks in lock. [09 R357; count; 0] -/
  syncRun : Nat := 0
  /-- The index in ORDER of the string being started or awaited. [09 R358; 0 to 16; 0] -/
  index : Nat := 0
  /-- The strings that STRING_STOP has stopped in the present sequence. [09 R363; list; empty] -/
  stopped : List Nat := []
  /-- Since when the next start waits for STAGE_GAP, in elapsed ticks. [09 R358; elapsed ticks; none] -/
  gapFrom : Option Nat := none
deriving DecidableEq, Repr

/-- Protection, bypass and ride-through. -/
structure Prot where
  /-- The strings 0 to 15. [09 R361; 16 strings; as their parts] -/
  str : Tab ProtStr := {}
  /-- The cell lanes 0 to 127. [09 R361; 128 lanes; IN] -/
  byp : Tab Byp := {}
  /-- The sequence. [09 R354; see parts; OFF] -/
  ride : Ride := {}
deriving DecidableEq, Repr

end Sys2Proof.Machine
end

