-- ==== Sys2Proof/Machine/Parts/Time.lean ====
section
/-!
DEFINITION. State of the time unit, of the lanes' delay filters, of the tick-time capture and of the two station ports
(chapter 05).
-/

namespace Sys2Proof.Machine

/-- TIME_STATE, in the order of its codes (R191). -/
inductive TimeState where
  | free | master | locking | locked | holdover
deriving DecidableEq, Repr

/-- TIME_SOURCE, in the order of its codes in TIME_INFO (R192, R224). -/
inductive TimeSource where
  | none | twinA | twinB | ringE | ringW
deriving DecidableEq, Repr

/-- A two-way exchange begun and not yet ended (R167, R204, R407). -/
structure Exchange where
  /-- The exchange's ID. [04 R167; 8 bit; none] -/
  id : Nat
  /-- Fine T1 in 1/16 tick, after the correction of R202. [05 R204; 1/16 tick; none] -/
  t1 : Nat
  /-- When the SYNC was sent, in elapsed ticks. [05 R205; elapsed ticks; none] -/
  at_ : Nat
  /-- Which step of tick time the SYNC followed. [05 R205; count; none] -/
  stepNo : Nat
  /-- T4 of the request received, on the answering side, or T2 of a SYNC received. [05 R202; 1/16 tick; 0] -/
  t2 : Nat := 0
deriving DecidableEq, Repr

/-- A lane's delay filter and launch counters (R205, R209). -/
structure DelayFilter where
  /-- The latest accepted measurements in 1/16 tick, newest first. [05 R205; at most 64; empty] -/
  meas : List Nat := []
  /-- Consecutive drops. [05 R205; count; 0] -/
  drops : Nat := 0
  /-- LAUNCH_LATE. [05 R224; 16 bit; 0] -/
  late : Nat := 0
  /-- The exchange outstanding. [05 R204; exchange; none] -/
  exch : Option Exchange := none
  /-- The next exchange's ID. [04 R167; 8 bit; DESIGN CHOICE 0 (log 3)] -/
  nextId : Nat := 0
  /-- When the latest SYNC was queued, in elapsed ticks. [05 R204; elapsed ticks; none] -/
  lastSync : Option Nat := none
  /-- Whether a SYNC is owed within 20 µs of entering LINKED or of a step. [05 R204; 1 bit; 0] -/
  syncOwed : Bool := false
deriving DecidableEq, Repr

/-- A ring neighbour as a source of time (R197). -/
structure TimeNeighbour where
  /-- HOPS of its latest valid message of the current generation and master. [05 R197; 8 bit; none] -/
  hops : Option Nat := none
  /-- When that message came, in elapsed ticks. [05 R197; elapsed ticks; 0] -/
  at_ : Nat := 0
deriving DecidableEq, Repr

/-- A TIME_MASTER_SET between its sending and its point of commitment (R227). -/
structure MasterClaim where
  /-- The mailboxes that asked for it. -/
  mbs : List Nat
  /-- The head named. -/
  head : Nat
  /-- The generation claimed. -/
  gen : Nat
  /-- The heads still to acknowledge. -/
  waitFor : List Nat
  /-- When it was sent, in elapsed ticks. -/
  at_ : Nat
deriving DecidableEq, Repr

/-- The time unit. -/
structure TimeUnit where
  /-- Tick time. [05 R187, R190; 64 bit; 0] -/
  tick : Nat := 0
  /-- The part of a tick beyond tick time, in 10^-9 tick: the interpolator's fine phase. [05 R187; parts of a tick; 0] -/
  frac : Nat := 0
  /-- Whether tick time advances: the reset has ended and the time base runs. [05 R190, 20 R632; 1 bit; 0] -/
  running : Bool := false
  /-- TIME_RATE. [05 R190, R194; ppb, signed; 0] -/
  rate : Int := 0
  /-- TIME_STATE. [05 R190, R191; 4 bit; FREE] -/
  state : TimeState := .free
  /-- TIME_SOURCE. [05 R192; 8 bit; none] -/
  source : TimeSource := .none
  /-- Whether a source has been held since reset. [05 R191; 1 bit; 0] -/
  held : Bool := false
  /-- HOPS of the followed message. [05 R224; 8 bit; 0] -/
  hops : Nat := 0
  /-- MASTER_HEAD. [05 R196; 3 bit; 0] -/
  masterHead : Nat := 0
  /-- TIME_GEN. [05 R196; 16 bit; 0] -/
  gen : Nat := 0
  /-- TIME_GEN_STEP. [05 R195, R224; 1 bit; 0] -/
  genStep : Bool := false
  /-- Whether TIME_SET has been accepted or the unit has been named master. [05 R193; 1 bit; 0] -/
  named : Bool := false
  /-- TIME_OFFSET. [05 R224; 1/16 tick, signed; 0] -/
  offset : Int := 0
  /-- Consecutive exchanges within TIME_LOCK_LIMIT. [05 R193; count; 0] -/
  within : Nat := 0
  /-- Consecutive exchanges beyond twice the limit. [05 R193; count; 0] -/
  beyond : Nat := 0
  /-- The rates held in LOCKED or MASTER over the latest 1.0 s, newest first: duration in ticks and ppb. [05 R194; list; empty] -/
  rateHist : List (Nat × Int) := []
  /-- Since when the present rate is held, in elapsed ticks. [05 R194; elapsed ticks; 0] -/
  rateSince : Nat := 0
  /-- When the followed source delivered its latest valid message, in elapsed ticks. [05 R198; elapsed ticks; 0] -/
  lastMsg : Nat := 0
  /-- The neighbour on RING_E. [05 R197; see parts; none] -/
  east : TimeNeighbour := {}
  /-- The neighbour on RING_W. [05 R197; see parts; none] -/
  west : TimeNeighbour := {}
  /-- How many steps tick time has taken. [05 R205; count; 0] -/
  stepNo : Nat := 0
  /-- The SYNC stamps the peer is still to be answered for, by lane: ID, T2. [11 R407; per service lane; none] -/
  svcAnswer : Tab Exchange := {}
  /-- The delay filters of the lanes 0 to 131. [05 R205; per lane; empty] -/
  delay : Tab DelayFilter := {}
  /-- The TIME_MASTER_SET in progress. [05 R227; claim; none] -/
  claim : Option MasterClaim := none
  /-- When the next ring time message is due, in elapsed ticks. [05 R196; elapsed ticks; 0] -/
  ringDue : Nat := 0
  /-- TCAP_CTRL.CAP_EDGE. [05 R220; 2 bit; 0] -/
  capEdge : Nat := 0
  /-- The level of TIME_CAP_IN past the filter, once one has been taken. [05 R221; pin; none] -/
  capLevel : Option Bool := none
  /-- TCAP_CTRL.PPS_EN. [05 R220; 1 bit; 0] -/
  ppsEn : Bool := false
  /-- TCAP_STATUS.CAP_SEQ. [05 R220; 16 bit; 0] -/
  capSeq : Nat := 0
  /-- TCAP_STATUS.OVERRUN. [05 R220; 1 bit; 0] -/
  capOverrun : Bool := false
  /-- TCAP_STATUS.SOURCE. [05 R220; 1 bit; 0] -/
  capPin : Bool := false
  /-- TCAP_STATUS.VALID. [05 R220; 1 bit; 0] -/
  capValid : Bool := false
  /-- TCAP_TICK. [05 R220; 64 bit; 0] -/
  capTick : Nat := 0
  /-- TCAP_PTP_SEC. [05 R220; 48 bit; 0] -/
  capSec : Nat := 0
  /-- TCAP_PTP_NS. [05 R220; 30 bit; 0] -/
  capNs : Nat := 0
  /-- TCAP_PTP_SUB. [05 R220; 3 bit; 0] -/
  capSub : Nat := 0
  /-- When TIME_PPS_OUT, now high, falls, in elapsed ticks. [05 R223; pin; low] -/
  ppsHigh : Option Nat := none
  /-- The whole second of PTP time whose pulse was given last. [05 R223; 48 bit; none] -/
  ppsLast : Option Nat := none
deriving DecidableEq, Repr

/-- A frame in a port's launch queue (R216). -/
structure StaFrame where
  /-- FRAME_ID. -/
  id : Nat
  /-- STAMP. -/
  stamp : Bool
  /-- Whether LAUNCH_TIME had passed at acceptance (R217). -/
  late : Bool
  /-- LAUNCH_TIME as a tick time. -/
  at_ : Nat
  /-- The frame's bytes from the destination address. -/
  data : Bytes
deriving DecidableEq, Repr

/-- An entry of a port's transmit stamp queue (R218). -/
structure StaStamp where
  /-- FRAME_ID. -/
  id : Nat
  /-- FLAGS bit 0 LATE. -/
  late : Bool
  /-- TIME. -/
  tick : Nat
deriving DecidableEq, Repr

/-- A clock as the choice of the best master clock compares it: the data set of an Announce, or this unit's own (R211, log 13). -/
structure PtpClock where
  /-- grandmasterPriority1. -/
  p1 : Nat
  /-- clockClass. -/
  cls : Nat
  /-- clockAccuracy. -/
  acc : Nat
  /-- offsetScaledLogVariance. -/
  var : Nat
  /-- grandmasterPriority2. -/
  p2 : Nat
  /-- grandmasterIdentity. -/
  gm : Nat
  /-- stepsRemoved. -/
  steps : Nat
  /-- The port identity of the sender. -/
  sender : Nat
deriving DecidableEq, Repr

/-- A foreign master a port has heard (R211, log 13). -/
structure PtpForeign where
  /-- Its latest Announce. -/
  clock : PtpClock
  /-- When that came, in elapsed ticks. -/
  at_ : Nat
  /-- When the one before it came, in elapsed ticks. -/
  prev : Option Nat
deriving DecidableEq, Repr

/-- A PTP frame that waits for a gap between timed frames (R217). -/
structure PtpMsg where
  /-- The frame from the destination address. -/
  data : Bytes
  /-- sequenceId of an event message, which is stamped. -/
  event : Option Nat := none
  /-- Of an event message: what stands before and behind its stamp in the general message that follows it. -/
  follow : Option (Bytes × Bytes) := none
  /-- Whether its stamp is kept as T1 of the link delay. -/
  keep : Bool := false
  /-- From when it can be sent, in tick time. -/
  at_ : Nat
deriving DecidableEq, Repr

/-- A station port (R210 to R219). -/
structure StaPort where
  /-- Whether the link is up. [05 R213; 1 bit; 0] -/
  linkUp : Bool := false
  /-- The receive comma alignment in unit intervals. [05 R213; 0 to 9; 0] -/
  align : Nat := 0
  /-- The launch queue, in order of launch. [05 R216; at most 32 frames; empty] -/
  queue : List StaFrame := []
  /-- The transmit stamp queue. [05 R218; at most 16 entries; empty] -/
  stamps : List StaStamp := []
  /-- Until when the port is sending, in tick time. [05 R217; tick time; 0] -/
  busyUntil : Nat := 0
  /-- Since when the port listens for Announce messages, in elapsed ticks. [05 R211; elapsed ticks; 0] -/
  listenAt : Nat := 0
  /-- The foreign masters heard, newest first. [05 R211; at most 5; empty] -/
  foreign : List PtpForeign := []
  /-- The master the servo follows, which makes UNCALIBRATED SLAVE. [05 R211, R214; 80-bit port identity; none] -/
  servo : Option Nat := none
  /-- PTP messages that wait for the port, oldest first. [05 R217; frames; empty] -/
  ptpWait : List PtpMsg := []
  /-- When Announce was last sent, in elapsed ticks. [05 R211; elapsed ticks; none] -/
  announceAt : Option Nat := none
  /-- sequenceId of the next Announce. [05 R211; 16 bit; DESIGN CHOICE 0 (log 3)] -/
  announceSeq : Nat := 0
  /-- PTP_STATE offset from master. [05 R225; ns, signed; 0] -/
  ptpOffset : Int := 0
  /-- PTP_STATE mean link delay. [05 R225; ns; 0] -/
  ptpDelay : Nat := 0
  /-- When Sync was last sent, in elapsed ticks. [05 R211; elapsed ticks; 0] -/
  syncAt : Nat := 0
  /-- When Pdelay_Req was last sent, in elapsed ticks. [05 R211; elapsed ticks; 0] -/
  pdelayAt : Nat := 0
  /-- sequenceId of the next Sync. [05 R211; 16 bit; DESIGN CHOICE 0 (log 3)] -/
  syncSeq : Nat := 0
  /-- sequenceId of the next Pdelay_Req. [05 R211; 16 bit; DESIGN CHOICE 0 (log 3)] -/
  pdelaySeq : Nat := 0
  /-- Transmit stamp of the latest Pdelay_Req. [05 R211; tick time; 0] -/
  pdelayT1 : Nat := 0
  /-- Receive stamp of the latest Pdelay_Resp and its requestReceiptTimestamp in ns. [05 R211; tick time and ns; none] -/
  pdelayT4 : Option (Nat × Nat) := none
  /-- Receive stamp of the latest two-step Sync. [05 R211; sequenceId and tick time; none] -/
  syncRx : Option (Nat × Nat) := none
  /-- PTP frames Ubfer sent, newest last: an output. [05 R211; frames; empty] -/
  ptpOut : List Bytes := []
  /-- The timed frame sent last: an output. [05 R216; frame; empty] -/
  lastTx : Bytes := []
deriving DecidableEq, Repr

end Sys2Proof.Machine
end

