-- ==== Sys2Proof/Machine/Parts/Ring.lean ====
section
/-!
DEFINITION. State of the group ring (chapter 11).
-/

namespace Sys2Proof.Machine

/-- What a unit knows of a node by its census (R410). -/
structure RingNode where
  /-- Whether the node is present. [11 R410; 1 bit; 0] -/
  present : Bool := false
  /-- ROLE of its latest census. [11 R406; 4 bit; 0] -/
  role : Nat := 0
  /-- QUALIFIED of its latest census. [11 R406; 1 bit; 0] -/
  qualified : Bool := false
  /-- SYNC_ALIGNED of its latest census. [11 R406; 1 bit; 0] -/
  aligned : Bool := false
  /-- HEAD_ID of its latest census. [11 R406; 3 bit; 0] -/
  head : Nat := 0
  /-- TIME_GEN of its latest census. [11 R406; 16 bit; 0] -/
  gen : Nat := 0
  /-- REF_SERVE of its latest census. [11 R406; 8 bit; 0] -/
  refServe : Nat := 0
  /-- NONCE of its latest census. [11 R406; 16 bit; 0] -/
  nonce : Nat := 0
  /-- When that census came, in elapsed ticks. [11 R410; elapsed ticks; 0] -/
  at_ : Nat := 0
  /-- Receipt short time of that census. [11 R417; 32 bit; 0] -/
  short : Nat := 0
  /-- When any ring message of the node came last, in elapsed ticks. [10 R382; elapsed ticks; none] -/
  heardAt : Option Nat := none
  /-- FAILED of its latest RING_HEALTH. [11 R406; 16 bit; none] -/
  failed : Option Nat := none
  /-- REPORT_SEQ of that RING_HEALTH. [11 R406, R408; 14 bit; none] -/
  healthSeq : Option Nat := none
  /-- When that RING_HEALTH came, in elapsed ticks. [10 R389; elapsed ticks; 0] -/
  failedAt : Nat := 0
deriving DecidableEq, Repr

/-- The latest summary of a global string (R406, R413). -/
structure Summary where
  /-- STATE. [11 R406; 3 bit; none] -/
  state : Nat
  /-- VALID. [11 R406; 1 bit; none] -/
  valid : Bool
  /-- J[4:0]. [11 R406; 5 bit; none] -/
  j : Nat
  /-- MEAN. [11 R406; Q1.15; none] -/
  mean : Int
  /-- MIN. [11 R406; Q1.15; none] -/
  min : Int
  /-- MAX. [11 R406; Q1.15; none] -/
  max : Int
  /-- Tick time of receipt. [11 R413; tick time; none] -/
  at_ : Nat
deriving DecidableEq, Repr

/-- The ring unit. -/
structure RingUnit where
  /-- NONCE of this unit's census. [11 R406; 16 bit; free at each reset (log 2)] -/
  nonce : Nat := 0
  /-- The nodes 0 to 16. [11 R410; 17 nodes; absent] -/
  node : Tab RingNode := {}
  /-- The newest pair epoch seen from each head, 0 to 7. [11 R409; 8 of 16 bit; none] -/
  headEpoch : Tab Nat := {}
  /-- The newest epoch seen from each node of no head. [11 R409; 17 of 16 bit; none] -/
  nodeEpoch : Tab Nat := {}
  /-- The latest summary of each global string. [11 R413; 128 summaries; none] -/
  summary : Tab Summary := {}
  /-- The WSEQ of the next write this unit sends. [11 R416; 13 bit; DESIGN CHOICE 0 (log 3)] -/
  wseq : Nat := 0
  /-- The last WSEQ applied of each slice; no entry where the next write sets the base. [11 R416, R417; 8 of 13 bit; none] -/
  applied : Tab Nat := {}
  /-- GW_WSEQ: the last WSEQ applied of each slice. [11 R417; 8 of 16 bit; 0] -/
  wlast : Tab Nat := {}
  /-- The RING_REF copies taken: SRC, KIND, CASE, CHUNK. [11 R414; list; empty] -/
  refSeen : List (Nat × Nat × Nat × Nat) := []
  /-- When this unit sent its latest census, in elapsed ticks. [11 R410; elapsed ticks; 0] -/
  censusAt : Nat := 0
  /-- Whether a change of role asks for a census within 10 µs. [11 R410; 1 bit; 0] -/
  censusOwed : Bool := false
  /-- SYNC_ID of the next ring time message. [11 R407; 8 bit; DESIGN CHOICE 0 (log 3)] -/
  syncId : Nat := 0
  /-- The SYNC_ID and side of the time message followed, whose SYNC is awaited. [11 R407; 8 bit and side; none] -/
  awaited : Tab Nat := {}
  /-- The ring neighbour whose time messages are followed or forwarded. [05 R197; 1 bit; none] -/
  follow : TimeSource := .none
deriving DecidableEq, Repr

end Sys2Proof.Machine
end

