-- ==== Sys2Proof/Machine/Parts/Roll.lean ====
section
/-!
DEFINITION. State of the cell roll (chapter 01). An entry not listed is all 0, a lane of type NONE.
-/

namespace Sys2Proof.Machine

/-- An accepted commit that strings have still to adopt (R38). -/
structure PendingRoll where
  /-- The set: the entries that differ from the working roll. [01 R38; 128 entries of 128 B; none] -/
  entries : Tab Bytes
  /-- The lanes not yet adopted. [01 R38; list; none] -/
  left : List Nat
  /-- The tick time from which a boundary of a string that is not stopped adopts: both units of a pair have the set by then.
  [01 R40; tick time; none] -/
  since : Nat
deriving DecidableEq, Repr

/-- The cell roll. -/
structure Roll where
  /-- The shadow roll. [01 R25, R36; 128 entries of 128 B; restored, or 0] -/
  shadow : Tab Bytes := {}
  /-- The working roll. [01 R25, R41; 128 entries of 128 B; restored, or 0] -/
  working : Tab Bytes := {}
  /-- The pending set of an accepted commit. [01 R38; set; none] -/
  pend : Option PendingRoll := none
  /-- ROLL_GEN. [01 R36; 32 bit; restored, or 0] -/
  gen : Nat := 0
  /-- The stored roll and its ROLL_GEN. [01 R41; 128 entries of 128 B; DESIGN CHOICE empty (log 4)] -/
  stored : Tab Bytes := {}
  /-- ROLL_GEN as stored. [01 R41; 32 bit; DESIGN CHOICE 0 (log 4)] -/
  storedGen : Nat := 0
deriving DecidableEq, Repr

end Sys2Proof.Machine
end

