-- ==== Sys2Proof/Machine/Parts/Safe.lean ====
section
/-!
DEFINITION. State of the safety island, and of its mirror in the management island (chapter 16).
-/

namespace Sys2Proof.Machine

/-- SAFE_STATE, in the order of its codes (R532). -/
inductive SafeState where
  | unused | start | stopped | ready | permit | lockout
deriving DecidableEq, Repr

/-- What a mirror frame reports beside the state (R544). -/
inductive SafeEvent where
  /-- A change of state: the new state's code and SAFE_STATE byte 1. -/
  | change (st outs : Nat)
  /-- Functions demanding. -/
  | demand (mask : Nat)
  /-- A function fault: code, function, detected by. -/
  | funcFault (code fn by_ : Nat)
  /-- A lockout: code, function, detected by. -/
  | lockout (code fn by_ : Nat)
  /-- LOOP_BROKEN: chain, broken or returned. -/
  | loopBroken (chain : Nat) (broken : Bool)
deriving DecidableEq, Repr

/-- SAFE_FAULT as the island holds it (R542). -/
structure SafeFault where
  /-- Code. [16 R543; 8 bit; 0] -/
  code : Nat := 0
  /-- Function. [16 R542; 8 bit; 0] -/
  fn : Nat := 0
  /-- Detected by. [16 R542; 8 bit; 0] -/
  by_ : Nat := 0
  /-- Island cycle count. [16 R541; 32 bit; 0] -/
  cycle : Nat := 0
deriving DecidableEq, Repr

/-- A frame of the mirror link (R541, R542). -/
structure SafeFrame where
  /-- The state. [16 R542; 3 bit; 0] -/
  st : Nat := 0
  /-- SAFE_STATE byte 1. [16 R542; 8 bit; 0] -/
  outs : Nat := 0
  /-- Functions demanding a stop. [16 R542; 6 bit; 0] -/
  demand : Nat := 0
  /-- Functions with a latched fault. [16 R542; 6 bit; 0] -/
  fault : Nat := 0
  /-- SAFE_INPUTS. [16 R542; 17 bit; 0] -/
  inputs : Nat := 0
  /-- SAFE_SEAL bytes 0 to 2. [16 R542; 24 bit; 0] -/
  sealIn : Nat := 0
  /-- SAFE_FAULT without the frame's time. [16 R542; 64 bit; 0] -/
  last : SafeFault := {}
  /-- SAFE_CNT. [16 R542; 16 B; 0] -/
  cnt : List Nat := [0, 0, 0, 0, 0]
  /-- SAFE_VERSION. [16 R542; 64 bit; 0] -/
  version : Nat := 0
  /-- What happened since the frame before. [16 R544; list; empty] -/
  events : List SafeEvent := []
deriving DecidableEq, Repr

/-- The two-hand control's memory (R530). -/
structure SafeHands where
  /-- Whether both hands have been released since the latest actuation. [16 R530; 1 bit; 0] -/
  armed : Bool := false
  /-- The hand actuated first and when, in elapsed ticks. [16 R530; hand and elapsed ticks; none] -/
  first : Option (Nat × Nat) := none
deriving DecidableEq, Repr

/-- The safety island. -/
structure SafeUnit where
  /-- Whether VDD_SAFE is within its limits. [16 R518; supply; DESIGN CHOICE within (log 4)] -/
  supplied : Bool := true
  /-- When VDD_SAFE left its limits. [16 R535; elapsed ticks; 0] -/
  outAt : Nat := 0
  /-- Whether it left them in READY or PERMIT. [16 R535; 1 bit; 0] -/
  outOn : Bool := false
  /-- SAFE_STATE. [16 R532; 3 bit; DESIGN CHOICE START (log 4)] -/
  st : SafeState := .start
  /-- When START began. [16 R541; elapsed ticks; 0] -/
  startAt : Nat := 0
  /-- The seal as first read at START. [16 R525; 16 bit; none] -/
  sealIn : Option Nat := none
  /-- Whether the seal's checks passed. [16 R525; 1 bit; 0] -/
  sealOk : Bool := false
  /-- The levels of the 17 inputs of SAFE_INPUTS, without the test pulses they show. [16 R526; 17 bit; DESIGN CHOICE low (log 4)] -/
  level : Tab Bool := {}
  /-- When each input last changed. [16 R528; 17 elapsed ticks; 0] -/
  since : Tab Nat := {}
  /-- When the latest low pulse of SAFE_TP_A and SAFE_TP_B ended. [16 R527; 2 elapsed ticks; none] -/
  pulse : Tab Nat := {}
  /-- The functions demanding a stop. [16 R528; 6 bit; 0] -/
  demand : Nat := 0
  /-- The functions with a latched fault. [16 R534; 6 bit; 0] -/
  fault : Nat := 0
  /-- The faulty functions whose inputs have since been in demand together. [16 R534; 6 bit; 0] -/
  together : Nat := 0
  /-- The functions that have demanded a stop since the island last left READY or PERMIT; all of them where it never did. [16 R533; 6 bit; all] -/
  cause : Nat := 0x3F
  /-- The length of the latest press of SAFE_RESET that has ended. [16 R531; ticks; none] -/
  press : Option Nat := none
  /-- The two-hand control. [16 R530; see parts; see parts] -/
  hands : SafeHands := {}
  /-- P permits. [16 R542; 1 bit; 0] -/
  pPermit : Bool := false
  /-- H permits. [16 R542; 1 bit; 0] -/
  hPermit : Bool := false
  /-- Since when one channel permits and the other does not. [16 R536; elapsed ticks; none] -/
  differ : Option Nat := none
  /-- Since when the channels read an input differently. [16 R536; elapsed ticks; none] -/
  inDiffer : Option Nat := none
  /-- When the carriers last went on. [16 R538, R539; elapsed ticks; 0] -/
  onAt : Nat := 0
  /-- When the carriers last went off. [16 R538; elapsed ticks; 0] -/
  offAt : Nat := 0
  /-- The latest edge of each return. [16 R538; 2 elapsed ticks; 0] -/
  edge : Tab Nat := {}
  /-- LOOP_BROKEN by chain. [16 R538; 2 bit; 0] -/
  broken : Nat := 0
  /-- DEMAND_DUE. [16 R539; 1 bit; 0] -/
  due : Bool := false
  /-- The EDM check in progress: since when, and the level both inputs must reach. [16 R523; elapsed ticks and 1 bit; none] -/
  edm : Option (Nat × Bool) := none
  /-- When each self-test of channel P was last completed: CPU, RAM, ROM. [16 R520; 3 elapsed ticks; 0] -/
  testAt : Tab Nat := {}
  /-- SAFE_FAULT. [16 R542; 64 bit; 0] -/
  last : SafeFault := {}
  /-- SAFE_CNT: DEMANDS, GRANTS, FUNCTION_FAULTS, THC_SYNC_FAIL, LOOP_BROKEN. [16 R542; 5 counts; 0] -/
  cnt : List Nat := [0, 0, 0, 0, 0]
  /-- What the next frame reports. [16 R541; list; empty] -/
  events : List SafeEvent := []
  /-- Frames on the mirror link. [16 R541; frames; empty] -/
  sent : List SafeFrame := []
  /-- The latest frame received. [16 R541; frame; DESIGN CHOICE 0 (log 4)] -/
  frame : SafeFrame := {}
  /-- Its short time. [16 R541; 32 bit; 0] -/
  frameAt : Nat := 0
  /-- When it came, in elapsed ticks. [16 R541; elapsed ticks; 0] -/
  frameMono : Nat := 0
  /-- The short time of the frame that reported SAFE_FAULT. [16 R542; 32 bit; 0] -/
  faultAt : Nat := 0
  /-- MIRROR_FLAGS bit 0. [16 R541; 1 bit; 0] -/
  stale : Bool := false
  /-- GSTAT.SAFE_PERMIT: the permit line as the device follows it. [02 R55, 16 R540; 1 bit; 0] -/
  permit : Bool := false
deriving DecidableEq, Repr

end Sys2Proof.Machine
end

