-- ==== Sys2Proof/Machine/Parts/Sys.lean ====
section
/-!
DEFINITION. State of the supplies, clocks, reset, boot, watchdog and debug port (chapter 20).
-/

namespace Sys2Proof.Machine

/-- The states of the main PLL, in the order of their codes (R646). -/
inductive PllState where
  | off | locking | locked
deriving DecidableEq, Repr

/-- How far the start has come (R638 to R641). -/
inductive BootStage where
  /-- The chip reset is held or the main PLL has not locked. -/
  | inReset
  /-- The reset has ended; the boot ROM runs. -/
  | bootRom
  /-- Ubfer has been started and restores the stored state. -/
  | ubferStarting
  /-- Ubfer serves the hatch. -/
  | serving
  /-- The boot ROM serves the recovery hatch. -/
  | recovery
deriving DecidableEq, Repr

/-- What holds a chip reset (R626, R632, R634). -/
structure ResetHold where
  /-- RESET_N is low. [20 R634; pin; low (log 4)] -/
  pin : Bool := true
  /-- A monitored rail lies below its limit, one flag per rail VDD_CORE, VDD_LANE, VDD_TERM, VDD_IO, VDDA. [20 R626; 5 bit; none] -/
  rails : List Nat := []
  /-- REFCLK has not yet returned after a clock loss. [20 R632; 1 bit; 0] -/
  clock : Bool := false
deriving DecidableEq, Repr

/-- Where a core of the management processor stands for the debug port (R643). -/
structure DebugCore where
  /-- Whether the core is halted. [20 R647; 1 bit; 0] -/
  halted : Bool := false
  /-- Instructions single-stepped while halted: an output. [20 R643; count; 0] -/
  stepped : Nat := 0
deriving DecidableEq, Repr

/-- Supplies, clocks, reset, boot, watchdog and the debug port. -/
structure Sys where
  /-- How far the start has come. [20 R638; stage; in reset] -/
  stage : BootStage := .inReset
  /-- What holds the chip reset. [20 R634; see parts; RESET_N low (log 4)] -/
  hold : ResetHold := {}
  /-- Whether the outputs are gated as under R632. [20 R636; 1 bit; 1] -/
  gated : Bool := true
  /-- Whether VDD_FIELD is present. [20 R626; supply; DESIGN CHOICE present (log 4)] -/
  vddField : Bool := true
  /-- Whether REFCLK shows edges. [20 R646; 1 bit; DESIGN CHOICE present (log 4)] -/
  refclk : Bool := true
  /-- REFCLK offset as the monitor measures it. [20 R646; ppm, signed; DESIGN CHOICE 0 (log 4)] -/
  refOffset : Int := 0
  /-- The main PLL. [20 R646; 2 bit; OFF] -/
  pll : PllState := .off
  /-- SYNC_ALIGNED. [20 R630; 1 bit; 0] -/
  syncAligned : Bool := false
  /-- When the present chip reset began. [20 R650; elapsed ticks; none] -/
  resetAt : Option Nat := none
  /-- RESET_INFO: cause of the latest chip reset. [20 R646; 8 bit; 1 POWER_ON (log 4)] -/
  cause : Nat := 1
  /-- RESET_INFO: fault source, or 0xFF. [20 R646; 8 bit; 0xFF (log 4)] -/
  causeSrc : Nat := 0xFF
  /-- RESET_INFO: boot result. [20 R646; 8 bit; 0] -/
  bootResult : Nat := 0
  /-- RESET_INFO: chip resets since power-on. [20 R646; 16 bit; 0] -/
  resets : Nat := 0
  /-- RESET_INFO: WATCHDOG resets since power-on. [20 R646; 16 bit; 0] -/
  wdtResets : Nat := 0
  /-- RESET_INFO: CLOCK resets since power-on. [20 R646; 16 bit; 0] -/
  clkResets : Nat := 0
  /-- Whether LANES_READY may report: HATCH_READY has been 1 since the end of reset. [02 R55; 1 bit; 0] -/
  hatchSeen : Bool := false
  /-- The JTAG instruction loaded. [20 R642; 8 bit; PRESUMED IDCODE (log 4)] -/
  jtag : JtagInstr := .idcode
  /-- The word a debugger's latest read returned: an output. [20 R643; 32 bit; 0] -/
  debugRead : Nat := 0
  /-- Core 0. [20 R643; see parts; running] -/
  core0 : DebugCore := {}
  /-- Core 1. [20 R643; see parts; running] -/
  core1 : DebugCore := {}
  /-- Instruction breakpoints and data watchpoints set: whether each of the four and two is armed. [20 R643; 6 bit; 0] -/
  breaks : List Nat := []
  /-- An opening by token: SCOPE and the RTC second it ends at. [20 R644; 3 bit and 32 bit; none] -/
  opening : Option (Nat × Nat) := none
  /-- The tightly coupled memory's words written through the debug port. [20 R643; 1 MiB; DESIGN CHOICE free (log 2)] -/
  tcm : Tab Nat := {}
deriving DecidableEq, Repr

end Sys2Proof.Machine
end

