-- ==== Sys2Proof/Machine/Parts/Twin.lean ====
section
/-!
DEFINITION. State of the role, of twin operation, of the comparison and of arbitration (chapter 10).
-/

namespace Sys2Proof.Machine

/-- The roles, in the order of their codes in GSTAT.ROLE (R55). -/
inductive Role where
  | none | active | standby | referee | ringMember | maint
deriving DecidableEq, Repr

/-- The digests a unit forms for one comparison period (R374). -/
structure Digests where
  /-- The period's j. [10 R374; 32 bit; 0] -/
  j : Nat := 0
  /-- IN_DIG. [10 R374; 32 bit; 0] -/
  inDig : Nat := 0
  /-- OUT_DIG. [10 R374; 32 bit; 0] -/
  outDig : Nat := 0
  /-- EDGE_DIG. [10 R374; 32 bit; 0] -/
  edgeDig : Nat := 0
  /-- STATE_DIG. [10 R374; 32 bit; 0] -/
  stateDig : Nat := 0
  /-- CFG_DIG. [10 R374; 16 bit; 0] -/
  cfgDig : Nat := 0
deriving DecidableEq, Repr

/-- The latest case as TWIN_CASE reports it (R395). -/
structure TwinCase where
  /-- j. [10 R395; 32 bit; 0] -/
  j : Nat := 0
  /-- Short time of t0. [10 R395; 32 bit; 0] -/
  t0 : Nat := 0
  /-- Short time of the verdict. [10 R395; 32 bit; 0] -/
  verdictAt : Nat := 0
  /-- CLASS. [10 R395; 3 bit; 0] -/
  cls : Nat := 0
  /-- VERDICT. [10 R395; 8 bit; 0] -/
  verdict : Nat := 0
  /-- RULE. [10 R395; 8 bit; 0] -/
  rule : Nat := 0
  /-- Byte 15, the replay results. [10 R395; 4 bit; 0] -/
  replay : Nat := 0
  /-- The active's OUT_DIG. [10 R395; 32 bit; 0] -/
  outActive : Nat := 0
  /-- The standby's OUT_DIG. [10 R395; 32 bit; 0] -/
  outStandby : Nat := 0
  /-- The active's EDGE_DIG. [10 R395; 32 bit; 0] -/
  edgeActive : Nat := 0
  /-- The standby's EDGE_DIG. [10 R395; 32 bit; 0] -/
  edgeStandby : Nat := 0
deriving DecidableEq, Repr

/-- A forwarded write between its sending and its acknowledgement (R373). -/
structure FwdOut where
  /-- The mailbox whose reply waits. -/
  mb : Nat
  /-- XFER. -/
  xfer : Nat
  /-- When its last chunk was queued, in elapsed ticks. -/
  at_ : Nat
deriving DecidableEq, Repr

/-- A forwarded write being received in chunks (R371, R373). -/
structure FwdIn where
  /-- XFER. -/
  xfer : Nat
  /-- The bytes received so far. -/
  data : Bytes
  /-- The INDEX of the next chunk. -/
  next : Nat
deriving DecidableEq, Repr

/-- A unit's claim in a case (R414). -/
structure RefClaim where
  /-- Whether its replay reproduced its digests. -/
  reproduced : Bool
  /-- CHUNKS. -/
  chunks : Nat
  /-- EVID_DIG. -/
  dig : Nat
deriving DecidableEq, Repr

/-- A case another pair has put to this unit as its referee (R389, R392, R414). -/
structure RefereeCase where
  /-- The pair's head. -/
  head : Nat
  /-- CASE: the low 12 bits of j. -/
  num : Nat
  /-- The node of the pair's active and that of its standby, at the request. -/
  nodes : Nat × Nat
  /-- The active's claim. -/
  claimA : Option RefClaim := none
  /-- The standby's claim. -/
  claimS : Option RefClaim := none
  /-- The evidence chunks received of the active, by index. -/
  evidence : Tab Nat := {}
  /-- When the request arrived, in elapsed ticks. -/
  at_ : Nat := 0
deriving DecidableEq, Repr

/-- A planned switch (R387). -/
structure SwitchPlan where
  /-- C_s as tick time. -/
  at_ : Nat
  /-- Whether this unit is the one that becomes ACTIVE. -/
  rising : Bool
deriving DecidableEq, Repr

/-- The evidence of one comparison period (R388). -/
structure Evidence where
  /-- The period's j. [10 R388; 32 bit; 0] -/
  j : Nat := 0
  /-- The loop states before its walk. [10 R388; 512 loops; as their parts] -/
  loops : Tab LoopSt := {}
  /-- The snapshot its walk used: values and whether they were stale. [10 R297, R388; list; empty] -/
  snap : List Int := []
  /-- The inputs of its plans. [10 R374, R388; list; empty] -/
  inputs : List Int := []
deriving DecidableEq, Repr

/-- The role and the twin. -/
structure Twin where
  /-- GSTAT.ROLE. [02 R55; 4 bit; NONE] -/
  role : Role := .none
  /-- ROLE_EPOCH. [02 R55; 16 bit; 0] -/
  epoch : Nat := 0
  /-- Short time of the latest role change. [10 R395; 32 bit; 0] -/
  roleAt : Nat := 0
  /-- When that role was taken, in elapsed ticks. [14 R493; elapsed ticks; 0] -/
  roleMono : Nat := 0
  /-- The peer's role by its latest TW_ROLE, if known. [10 R395; 8 bit; 0xFF unknown (log 4)] -/
  peerRole : Option Nat := none
  /-- The peer's epoch by its latest TW_ROLE. [10 R395; 16 bit; 0] -/
  peerEpoch : Nat := 0
  /-- The peer's UNIT by its latest TW_ROLE. [10 R371; 1 bit; 0] -/
  peerUnit : Nat := 0
  /-- The peer's QUALIFIED by its latest TW_ROLE or TW_HEALTH. [10 R371; 1 bit; 0] -/
  peerQualified : Bool := false
  /-- ROLL_GEN and LE_GEN of the peer's latest TW_ROLE. [10 R371; 64 bit; 0] -/
  peerGens : Nat × Nat := (0, 0)
  /-- QUALIFIED of this unit as standby. [10 R370; 1 bit; 0] -/
  qualified : Bool := false
  /-- Whether a fatal failure bars qualification until a chip reset. [10 R381; 1 bit; 0] -/
  barred : Bool := false
  /-- Whether qualification of the joined standby is under way, and since when. [10 R369; elapsed ticks; none] -/
  qualifying : Option Nat := none
  /-- Whether the active has declared its standby lost. [10 R385; 1 bit; 0] -/
  standbyLost : Bool := false
  /-- Whether the unit has been joined by a standby or has joined as one, so that a pair exists. [10 R368; 1 bit; 0] -/
  paired : Bool := false
  /-- Whether TWIN_ALIVE_OUT runs. [10 R367; pin; stopped] -/
  aliveOut : Bool := false
  /-- Whether the peer counts as alive. [10 R367; 1 bit; 0] -/
  peerAlive : Bool := false
  /-- When TWIN_ALIVE_IN last showed an edge, in elapsed ticks. [10 R367; elapsed ticks; 0] -/
  aliveAt : Nat := 0
  /-- When the latest valid twin block came, in elapsed ticks. [10 R371; elapsed ticks; 0] -/
  rxAt : Nat := 0
  /-- The SEQ of the latest twin block taken. [10 R371; 8 bit; none] -/
  rxSeq : Option Nat := none
  /-- The SEQ of the next twin block sent. [10 R371; 8 bit; DESIGN CHOICE 0 (log 3)] -/
  txSeq : Nat := 0
  /-- Since when both twin lanes are down, in elapsed ticks. [10 R370; elapsed ticks; none] -/
  downSince : Option Nat := none
  /-- XFER of the next forwarded write. [10 R371; 8 bit; DESIGN CHOICE 0 (log 3)] -/
  xfer : Nat := 0
  /-- The forwarded writes awaiting acknowledgement. [10 R373; list; empty] -/
  fwdOut : List FwdOut := []
  /-- The forwarded write being received. [10 R373; chunks; none] -/
  fwdIn : Option FwdIn := none
  /-- Forwarded writes accepted. [10 R374; count; 0] -/
  fwdCount : Nat := 0
  /-- CASE_OPEN. [10 R390; 1 bit; 0] -/
  caseOpen : Bool := false
  /-- When the case was opened, in elapsed ticks. [10 R390; elapsed ticks; 0] -/
  caseAt : Nat := 0
  /-- TWIN_CASE. [10 R395; 32 B; 0] -/
  case : TwinCase := {}
  /-- RESYNC. [10 R377; 1 bit; 0] -/
  resync : Bool := false
  /-- The period from which a resync suspends classification. [10 R377; 32 bit; 0] -/
  resyncFrom : Nat := 0
  /-- Whether the resync chunks have all been received. [10 R377; 1 bit; 0] -/
  resyncIn : Bool := false
  /-- Failed checks of R379. [10 R379; 12 bit; 0] -/
  failed : Nat := 0
  /-- Checks completed within their period. [10 R380; 12 bit; 0] -/
  run : Nat := 0
  /-- When each check last completed, in elapsed ticks. [10 R379; 12 instants; 0] -/
  checkAt : Tab Nat := {}
  /-- REPORT_SEQ of the next report. [10 R380; 16 bit; DESIGN CHOICE 0 (log 3)] -/
  reportSeq : Nat := 0
  /-- When TW_HEALTH was last sent, in elapsed ticks. [10 R380; elapsed ticks; 0] -/
  healthAt : Nat := 0
  /-- Whether a change asks for a TW_HEALTH within 20 µs. [10 R380; 1 bit; 0] -/
  healthOwed : Bool := false
  /-- TWIN_HEALTH of this unit. [10 R395; 12 B; 0] -/
  ownHealth : Bytes := []
  /-- TWIN_HEALTH of the peer. [10 R395; 12 B; 0] -/
  peerHealth : Bytes := []
  /-- When the peer's TW_HEALTH came, in elapsed ticks. [10 R389; elapsed ticks; none] -/
  peerHealthAt : Option Nat := none
  /-- The unit's own digests of its latest four periods, newest first. [10 R374, R388; at most 4; empty] -/
  digests : List Digests := []
  /-- The loop states before the walk of the present period. [10 R388; 512 loops; as their parts] -/
  walkLoops : Tab LoopSt := {}
  /-- The snapshot of the present period's walk. [10 R297, R374; list; empty] -/
  walkSnap : List Int := []
  /-- The evidence of the latest four periods, newest first. [10 R388; at most 4; empty] -/
  evid : List Evidence := []
  /-- The evidence frozen for the open case. [10 R388; evidence; none] -/
  frozen : Option Evidence := none
  /-- Whether CFG_DIG agreed with the active's at the latest classification. [10 R379; 1 bit; 1] -/
  cfgEq : Bool := true
  /-- Whether the other unit has the same stepping: how the pair is fitted, which no block tells. [10 R366, R369; 1 bit; DESIGN CHOICE 1 (log 117)] -/
  sameStepping : Bool := true
  /-- TW_COMPARE_A received and awaiting its TW_COMPARE_B: J, IN_DIG, OUT_DIG. [10 R375; block; none] -/
  rxA : Option (Nat × Nat × Nat) := none
  /-- TW_COMPARE_B received and awaiting its TW_COMPARE_A: CFG_DIG, J, EDGE_DIG, STATE_DIG. [10 R375; block; none] -/
  rxB : Option (Nat × Nat × Nat × Nat) := none
  /-- j of the latest classification. [10 R395; 32 bit; 0] -/
  classJ : Nat := 0
  /-- The period whose STATE_DIG was last found equal. [10 R375; 32 bit; none] -/
  stateEqJ : Option Nat := none
  /-- Consecutive periods whose TW_COMPARE_A missed its due time. [10 R382; count; 0] -/
  missed : Nat := 0
  /-- The latest period whose TW_COMPARE_A was received in time. [10 R382; 32 bit; none] -/
  compareJ : Option Nat := none
  /-- The latest period whose due time was judged. [10 R382; 32 bit; none] -/
  dueJ : Option Nat := none
  /-- Input divergences in the present whole second. [10 R377; count; 0] -/
  divergences : Nat := 0
  /-- The whole second of tick time they are counted in. [10 R377; count; 0] -/
  divSecond : Nat := 0
  /-- Whether TWIN_INPUT_DIVERGE has been raised for that second. [10 R377; 1 bit; 0] -/
  divRaised : Bool := false
  /-- The planned switch. [10 R387; plan; none] -/
  switch : Option SwitchPlan := none
  /-- Until when the former active goes on sending as ACTIVE, in elapsed ticks. [10 R387; elapsed ticks; none] -/
  handoverUntil : Option Nat := none
  /-- When a UNIT_RESET begins, in elapsed ticks, and whether its target is the twin. [10 R398; elapsed ticks; none] -/
  resetDue : Option (Nat × Bool) := none
  /-- Whether ARB_REQ_N is held low. [10 R389; pin; high] -/
  arbReqLow : Bool := false
  /-- Whether the unit's self-replay has been done for the open case, and whether it reproduced. [10 R389; result; none] -/
  replayed : Option Bool := none
  /-- The peer's claimed self-replay. [10 R389; result; none] -/
  peerReplayed : Option Bool := none
  /-- The cases put to this unit as referee, in order of arrival. [10 R392; list; empty] -/
  refCases : List RefereeCase := []
  /-- The blocks one twin lane has sent and the other is still to send, with their SEQ: SEQ, TYPE, payload. [10 R371; per twin lane; empty] -/
  ahead : Tab (List (Nat × Nat × Nat)) := {}
  /-- Whether neither lane has delivered a valid block for 2 µs. [10 R371; 1 bit; 0] -/
  streamLost : Bool := false
  /-- Whether a TW_ROLE is owed. [10 R372; 1 bit; 0] -/
  roleOwed : Bool := false
  /-- The items of a resync received and not yet adopted. [10 R377; list; empty] -/
  resyncItems : List TwItem := []
  /-- The number of qualification chunks received since the unit joined. [10 R369; count; 0] -/
  qualifyIn : Nat := 0
  /-- Whether the qualification data are complete. [10 R369; 1 bit; 0] -/
  qualifyDone : Bool := false
  /-- What the present comparison period has gathered for IN_DIG. [10 R374; list; empty] -/
  gatherIn : List Int := []
  /-- What the present comparison period has gathered for EDGE_DIG. [10 R374; list; empty] -/
  gatherEdge : List Int := []
  /-- The evidence the active still sends to the referee: CASE, next chunk, chunks in all. [11 R414; chunk counts; none] -/
  evidOut : Option (Nat × Nat × Nat) := none
deriving DecidableEq, Repr

end Sys2Proof.Machine
end

