-- ==== Sys2Proof/Machine/State.lean ====
section
/-!
DEFINITION. The whole state of the block as plain data, the reasons a step can stop for, and the state after reset.
Each field is one island or unit of the chip; its parts stand in Machine/Parts/, each field there with its rule, its width
and its reset value as the default.
-/

namespace Sys2Proof.Machine

/-- The reasons a command faults: the spec gives every row an effect and names no fault of the block, so there is none. -/
inductive Fault where
  /-- Raised by no meaning: it only makes the type inhabited. Safe. -/
  | none_
deriving DecidableEq, Repr

/-- The reasons a command is refused by the model itself. -/
inductive Refusal where
  /-- Raised by no meaning: a row of the table the model gives no meaning to. Safe. -/
  | notModelled (mnemonic : String)
deriving DecidableEq, Repr

/-- The state of the block. -/
structure State where
  /-- The commands that wait, first in, first out. [the model's own; list; empty] -/
  pending : List Instr := []
  /-- Physical time elapsed since the state began, in units of 125 ps: the model's own clock for deadlines (log 1). [the model's own; count; DESIGN CHOICE 0 (log 1)] -/
  mono : Nat := 0
  /-- How many free values have been taken: the argument of the next one (log 2). [the model's own; count; DESIGN CHOICE 0 (log 2)] -/
  freeCount : Nat := 0
  /-- Actions one rule sets off in another block, still to be taken within the present step (log 5). [the model's own; list; empty] -/
  todo : List Act := []
  /-- The host port and the hatch (chapter 02). -/
  hatch : Hatch := {}
  /-- The notification ring and the load figures (chapter 02). -/
  notif : Notif := {}
  /-- The parameter stores (chapter 02). -/
  par : Params := {}
  /-- The fault collector and the attic log (chapters 18, 19). -/
  faults : Faults := {}
  /-- Supplies, clocks, reset, boot and debug (chapter 20). -/
  sys : Sys := {}
  /-- The time unit, the delay filters and the capture block (chapter 05). -/
  time : TimeUnit := {}
  /-- The station ports 0 and 1 (chapter 05). -/
  sta : Tab StaPort := {}
  /-- The role and the twin (chapter 10). -/
  twin : Twin := {}
  /-- The battery domain (chapter 17). -/
  bat : Battery := {}
  /-- The pantry and the strongbox (chapter 12). -/
  pantry : Pantry := {}
  /-- The lanes and their PLLs (chapter 03). -/
  lanes : Lanes := {}
  /-- The cell roll (chapter 01). -/
  roll : Roll := {}
  /-- The Ahnub links (chapter 04). -/
  links : Links := {}
  /-- The modulator (chapter 06). -/
  mod : Mod := {}
  /-- Protection, bypass and ride-through (chapter 09). -/
  prot : Prot := {}
  /-- Dead times and the sorter (chapter 07). -/
  dt : Dt := {}
  /-- The loop engine (chapter 08). -/
  le : LoopEng := {}
  /-- The group ring (chapter 11). -/
  ring : RingUnit := {}
  /-- Housekeeping and the thermal block (chapter 13). -/
  hk : HkUnit := {}
  /-- The auxiliary drives (chapter 14). -/
  aux : AuxUnit := {}
  /-- The position channels (chapter 15). -/
  pos : PosUnit := {}
  /-- The safety island and its mirror (chapter 16). -/
  safe : SafeUnit := {}
  /-- Energy accounting and load shedding (chapter 17). -/
  en : Energy := {}
  /-- The MRAM regions, the loft, the keys and the life-cycle (chapter 19). -/
  fw : Firm := {}
deriving DecidableEq, Repr

/-- The block at the end of the power-on reset: the main PLL has just locked, the strongbox is being wiped before the boot
ROM begins, and every field has its reset value (R12, R436, R638, R639, log 4, log 3, log 107, log 117). -/
def State.reset : State :=
  { sys := { stage := .bootRom, hold := { pin := false }, gated := false, pll := .locked }, time := { running := true },
    twin := { aliveOut := true }, pantry := { wiping := some (1, 0), wipeCause := 1 } }

end Sys2Proof.Machine
end

