-- ==== Sys2Proof/Machine/Updates.lean ====
section
/-!
DEFINITION. One named update per field of State: every write of a meaning goes through one of these.
-/

namespace Sys2Proof.Machine

/-- Changes the field pending and nothing else. -/
def State.updPending (s : State) (f : List Instr → List Instr) : State := { s with pending := f s.pending }

/-- Changes the field mono and nothing else. -/
def State.updMono (s : State) (f : Nat → Nat) : State := { s with mono := f s.mono }

/-- Changes the field freeCount and nothing else. -/
def State.updFreeCount (s : State) (f : Nat → Nat) : State := { s with freeCount := f s.freeCount }

/-- Changes the field todo and nothing else. -/
def State.updTodo (s : State) (f : List Act → List Act) : State := { s with todo := f s.todo }

/-- Changes the field hatch and nothing else. -/
def State.updHatch (s : State) (f : Hatch → Hatch) : State := { s with hatch := f s.hatch }

/-- Changes the field notif and nothing else. -/
def State.updNotif (s : State) (f : Notif → Notif) : State := { s with notif := f s.notif }

/-- Changes the field par and nothing else. -/
def State.updPar (s : State) (f : Params → Params) : State := { s with par := f s.par }

/-- Changes the field faults and nothing else. -/
def State.updFaults (s : State) (f : Faults → Faults) : State := { s with faults := f s.faults }

/-- Changes the field sys and nothing else. -/
def State.updSys (s : State) (f : Sys → Sys) : State := { s with sys := f s.sys }

/-- Changes the field time and nothing else. -/
def State.updTime (s : State) (f : TimeUnit → TimeUnit) : State := { s with time := f s.time }

/-- Changes the field sta and nothing else. -/
def State.updSta (s : State) (f : Tab StaPort → Tab StaPort) : State := { s with sta := f s.sta }

/-- Changes the field twin and nothing else. -/
def State.updTwin (s : State) (f : Twin → Twin) : State := { s with twin := f s.twin }

/-- Changes the field bat and nothing else. -/
def State.updBat (s : State) (f : Battery → Battery) : State := { s with bat := f s.bat }

/-- Changes the field pantry and nothing else. -/
def State.updPantry (s : State) (f : Pantry → Pantry) : State := { s with pantry := f s.pantry }

/-- Changes the field lanes and nothing else. -/
def State.updLanes (s : State) (f : Lanes → Lanes) : State := { s with lanes := f s.lanes }

/-- Changes the field roll and nothing else. -/
def State.updRoll (s : State) (f : Roll → Roll) : State := { s with roll := f s.roll }

/-- Changes the field links and nothing else. -/
def State.updLinks (s : State) (f : Links → Links) : State := { s with links := f s.links }

/-- Changes the field mod and nothing else. -/
def State.updMod (s : State) (f : Mod → Mod) : State := { s with mod := f s.mod }

/-- Changes the field prot and nothing else. -/
def State.updProt (s : State) (f : Prot → Prot) : State := { s with prot := f s.prot }

/-- Changes the field dt and nothing else. -/
def State.updDt (s : State) (f : Dt → Dt) : State := { s with dt := f s.dt }

/-- Changes the field le and nothing else. -/
def State.updLe (s : State) (f : LoopEng → LoopEng) : State := { s with le := f s.le }

/-- Changes the field ring and nothing else. -/
def State.updRing (s : State) (f : RingUnit → RingUnit) : State := { s with ring := f s.ring }

/-- Changes the field hk and nothing else. -/
def State.updHk (s : State) (f : HkUnit → HkUnit) : State := { s with hk := f s.hk }

/-- Changes the field aux and nothing else. -/
def State.updAux (s : State) (f : AuxUnit → AuxUnit) : State := { s with aux := f s.aux }

/-- Changes the field pos and nothing else. -/
def State.updPos (s : State) (f : PosUnit → PosUnit) : State := { s with pos := f s.pos }

/-- Changes the field safe and nothing else. -/
def State.updSafe (s : State) (f : SafeUnit → SafeUnit) : State := { s with safe := f s.safe }

/-- Changes the field en and nothing else. -/
def State.updEn (s : State) (f : Energy → Energy) : State := { s with en := f s.en }

/-- Changes the field fw and nothing else. -/
def State.updFw (s : State) (f : Firm → Firm) : State := { s with fw := f s.fw }

end Sys2Proof.Machine
end

