-- ==== Sys2Proof/Machine/Ops.lean ====
section
/-!
DEFINITION. The operations every chapter shares: time readings, free values, parameter values and counts, the derived status
words, interrupt messages, pantry words, notifications and the attic log.
-/

namespace Sys2Proof.Machine

/-! ### Time, free values, role -/

/-- Tick time (R187). -/
def State.now (s : State) : Nat := s.time.tick

/-- Short time: bits 31:0 of tick time (R188). -/
def State.shortNow (s : State) : Nat := s.time.tick % 2 ^ 32

/-- The signed difference of two short times (R188). -/
def shortDiff (a b : Nat) : Int := sdiff 32 a b

/-- The tick time nearest to now whose short time is given (R188). -/
def State.tickOf (s : State) (short : Nat) : Nat := ((s.now : Int) + shortDiff short s.shortNow).toNat

/-- Whether a given future short time lies ahead by at most 100 ms (R189). -/
def State.aheadOk (s : State) (short : Nat) : Bool :=
  let d := shortDiff short s.shortNow
  decide (0 < d) && decide (d ≤ 800000000)

/-- The present free value (log 2). -/
def State.freeVal (s : State) : Nat := (Config.free s.freeCount).toNat

/-- The state after a free value has been taken (log 2). -/
def State.tookFree (s : State) : State := s.updFreeCount (· + 1)

/-- A free value of some bytes (log 2, log 20). -/
def State.freeBytes (s : State) (n : Nat) : Bytes := (List.range n).map fun k => (Config.free (s.freeCount + k)).setWidth 8

/-- The code of AUTH_STATE (R183). -/
def AuthSt.code : AuthSt → Nat
  | .none => 0
  | .running => 1
  | .passed => 2
  | .failed => 3
  | .open_ => 4

/-- The code of a role in GSTAT.ROLE (R55). -/
def Role.code : Role → Nat
  | .none => 0
  | .active => 1
  | .standby => 2
  | .referee => 3
  | .ringMember => 4
  | .maint => 5

/-- The code of a mailbox state (R58). -/
def MbState.code : MbState → Nat
  | .idle => 0
  | .pending => 1
  | .active => 2
  | .done => 3

/-- The code of TIME_STATE (R191). -/
def TimeState.code : TimeState → Nat
  | .free => 0
  | .master => 1
  | .locking => 2
  | .locked => 3
  | .holdover => 4

/-- The code of TIME_SOURCE in TIME_INFO (R224). -/
def TimeSource.code : TimeSource → Nat
  | .none => 0
  | .twinA => 1
  | .twinB => 2
  | .ringE => 3
  | .ringW => 4

/-- Sets off an action in another block within the present step (log 5, log 53). -/
def State.later (s : State) (a : Act) : State := s.updTodo (· ++ [a])

/-! ### Parameters -/

/-- The value in effect of a parameter instance (R76). -/
def State.peff (s : State) (id inst : Nat) : Bytes := (s.par.eff.get? (pKey id inst)).getD (paramReset id inst)

/-- The shadow or last written value of a parameter instance (R16, R76). -/
def State.pshadow (s : State) (id inst : Nat) : Bytes := (s.par.shadow.get? (pKey id inst)).getD (paramReset id inst)

/-- An unsigned field of a value in effect. -/
def State.pu (s : State) (id inst off n : Nat) : Nat := uAt (s.peff id inst) off n

/-- A signed field of a value in effect. -/
def State.ps (s : State) (id inst off n : Nat) : Int := sAt (s.peff id inst) off n

/-- The whole value in effect of a parameter without instances, as a number. -/
def State.p0 (s : State) (id : Nat) : Nat := leNat (s.peff id noInst)

/-- Sets a value in the shadow and in effect: a live or halt-only write, or an S value of a stopped block (R13, R80). -/
def State.setParam (s : State) (id inst : Nat) (v : Bytes) : State :=
  s.updPar fun p => { p with shadow := p.shadow.set (pKey id inst) v, eff := p.eff.set (pKey id inst) v }

/-- Sets a value in the shadow alone (R14). -/
def State.setShadow (s : State) (id inst : Nat) (v : Bytes) : State :=
  s.updPar fun p => { p with shadow := p.shadow.set (pKey id inst) v }

/-- Captures the shadow of one instance at its block's boundary (R14). -/
def State.capture (s : State) (id inst : Nat) : State :=
  match s.par.shadow.get? (pKey id inst) with
  | some v => s.updPar fun p => { p with eff := p.eff.set (pKey id inst) v }
  | none => s

/-- Captures several parameters of one instance. -/
def State.captureAll (s : State) (ids : List Nat) (inst : Nat) : State := ids.foldl (fun s id => s.capture id inst) s

/-- Saves a value to the MRAM configuration store (R56). -/
def State.saveParam (s : State) (id inst : Nat) (v : Bytes) : State :=
  s.updPar fun p => { p with store := p.store.set (pKey id inst) v, saves := satN 32 (p.saves + 1), savedAt := s.shortNow }

/-- Counts a save to the configuration store of what is not a parameter value. -/
def State.countSave (s : State) : State :=
  s.updPar fun p => { p with saves := satN 32 (p.saves + 1), savedAt := s.shortNow }

/-- The widths of an RC parameter's counts. -/
def rcFields (id : Nat) : List Nat :=
  match paramRow id with
  | some r => r.fields
  | none => []

/-- The counts of an RC parameter instance. -/
def State.counts (s : State) (id inst : Nat) : List Nat :=
  (s.par.counters.get? (pKey id inst)).getD ((rcFields id).map fun _ => 0)

/-- Adds to one count of an RC parameter, saturating at its width (R11). -/
def State.bumpBy (s : State) (id inst field n : Nat) : State :=
  let c := s.counts id inst
  let w := (rcFields id).getD field 4
  s.updPar fun p => { p with counters := p.counters.set (pKey id inst) (c.set field (satN (8 * w) (c.getD field 0 + n))) }

/-- Adds one to a count of an RC parameter. -/
def State.bump (s : State) (id inst field : Nat) : State := s.bumpBy id inst field 1

/-- The value of an RC parameter instance. -/
def State.rcValue (s : State) (id inst : Nat) : Bytes :=
  ((rcFields id).zip (s.counts id inst)).foldl (fun l fc => l ++ leBytes fc.1 fc.2) []

/-- Clears the counts of an RC parameter instance after its read (R11). -/
def State.rcClear (s : State) (id inst : Nat) : State :=
  s.updPar fun p => { p with counters := p.counters.erase (pKey id inst) }

/-! ### Interrupts -/

/-- Whether an unread notification asks for an interrupt: R84's condition of either field of NR_CTRL. -/
def Notif.wants (n : Notif) : Bool :=
  decide (max 1 n.thresh ≤ (n.head + 256 - n.tail) % 256) || n.heldOff

/-- A mailbox of the hatch. -/
def State.box (s : State) (mb : Nat) : Mailbox := s.hatch.boxes.get {} mb

/-- The conditions of R64 pending and enabled: one flag per mailbox, then notification, HOST_ERR, FAULT_PIN change (log 19). -/
def State.irqConds (s : State) : List Bool :=
  ((List.range 8).map fun n => bit s.hatch.irqEn n && decide ((s.box n).state = .done)) ++
    [bit s.hatch.irqEn 8 && s.notif.wants, bit s.hatch.irqEn 9 && s.hatch.hostErr != 0,
      bit s.hatch.irqEn 10 && s.hatch.faultPinChanged]

/-- The vector of each condition of irqConds (R64, log 19). -/
def irqVector (i : Nat) : Nat := if i < 8 then 0 else i - 7

/-- A word of the MSI-X table; the vector-control words come out of reset with their mask bit set (R47, PRESUMED, log 19). -/
def Hatch.msixWord (h : Hatch) (off : Nat) : Nat := (h.msixTable.get? off).getD (if off % 16 = 12 then 1 else 0)

/-- A vector's message is sent, or held back in the pending-bit array by the mask bit of its entry (R47, R64, log 19). -/
def Hatch.sendVector (h : Hatch) (v : Nat) : Hatch :=
  if bit (h.msixWord (0x800C + 16 * v)) 0 then { h with msixHeld := h.msixHeld ||| 2 ^ v }
  else { h with msix := h.msix.set v (h.msix.getD v 0 + 1), msixHeld := h.msixHeld - (h.msixHeld &&& 2 ^ v) }

/-- Whether some condition of a vector holds (R64). -/
def State.vectorWants (s : State) (v : Nat) : Bool := (List.range 11).any fun i => irqVector i == v && s.irqConds.getD i false

/-- Whether the pending-bit array shows a vector: its message was held back and a condition of it still holds (R47, log 19). -/
def State.vectorHeld (s : State) (v : Nat) : Bool := bit s.hatch.msixHeld v && s.vectorWants v

/-- The pending-bit array (R47). -/
def State.msixPending (s : State) : Nat := (List.range 4).foldl (fun n v => n + b2n (s.vectorHeld v) * 2 ^ v) 0

/-- Sends the messages of the conditions that arose between two states, on the PCI Express port (R64). -/
def irqSince (a b : State) : State :=
  if b.hatch.qspi then b
  else
    let ca := a.irqConds
    let cb := b.irqConds
    let rose := (List.range 11).filter fun i => cb.getD i false && !(ca.getD i false)
    rose.foldl (fun s i => s.updHatch fun h => h.sendVector (irqVector i)) b

/-- Whether XIRQ_N is low: the QSPI port is selected, the unit is not in reset and an enabled condition is pending (R48, R64, R636). -/
def State.xirqLow (s : State) : Bool := s.hatch.qspi && decide (s.sys.stage ≠ .inReset) && s.irqConds.any id

/-- Sets bits of HOST_ERR and sends the interrupt that arises (R55, R64). -/
def State.hostErrSet (s : State) (mask : Nat) : State :=
  irqSince s (s.updHatch fun h => { h with hostErr := h.hostErr ||| mask })

/-! ### The pantry as the management port sees it -/

/-- The power state of a bank: 0 On, 1 Retention, 2 Off (R429, R438). -/
def State.bankPower (s : State) (b : Nat) : Nat := bits (s.p0 0x0F01) (2 * b + 1) (2 * b)

/-- Whether a bank counts as Off: set so, or not yet cleared (R429, R431). -/
def State.bankOff (s : State) (b : Nat) : Bool := s.bankPower b == 2 || (s.pantry.clearing.get? b).isSome

/-- Wakes a bank in Retention that is accessed (R430). -/
def State.bankTouch (s : State) (b : Nat) : State :=
  if s.bankPower b = 1 then s.updPantry fun p => { p with awake := p.awake.set b s.mono } else s

/-- A read of n bytes through the management port; an Off bank reads 0 (R429, R430). -/
def State.mpRead (s : State) (off n : Nat) : Bytes :=
  (List.range n).map fun i => if s.bankOff ((off + i) / 0x20000) then 0 else s.pantry.mem.read (off + i)

/-- A write through the management port; an Off bank drops it, counted (R429, R438, log 80). -/
def State.mpWrite (s : State) (off : Nat) (v : Bytes) : State :=
  if s.bankOff (off / 0x20000) then s.bumpBy 0x0F03 noInst 4 (ceilDiv v.length 4)
  else (s.bankTouch (off / 0x20000)).updPantry fun p => { p with mem := p.mem.writeN off v }

/-- The words of a bank among n bytes from an offset. -/
def wordsIn (b off n : Nat) : Nat :=
  let lo := max (off / 4 * 4) (b * 0x20000)
  if n = 0 then 0 else ceilDiv (min (off + n) ((b + 1) * 0x20000) - lo) 4

/-- What a read of n bytes through the management port leaves behind: each word of an Off bank is counted, a bank in Retention wakes
(R425, R429, R430). -/
def State.mpTook (s : State) (off n : Nat) : State :=
  (List.range 14).foldl (fun s b =>
    let k := wordsIn b off n
    if k = 0 then s else if s.bankOff b then s.bumpBy 0x0F03 noInst 4 k else s.bankTouch b) s

/-- Whether a span of the pantry lies below bank 14 (R435). -/
def spanOk (off n : Nat) : Bool := decide (off + n ≤ 0x1C0000)

/-! ### Notifications -/

/-- The 32 bytes of an entry (R83). -/
def Note.bytes (n : Note) (phase lost : Bool) : Bytes :=
  leBytes 1 n.island ++ leBytes 1 (b2n phase + 2 * b2n lost) ++ leBytes 2 n.seq ++ leBytes 4 n.time ++
    leBytes 2 n.code ++ leBytes 2 n.epoch ++ (padTo n.args 20).take 20

/-- An entry that finds its queue full is dropped (R84, R673, log 34). -/
def State.dropNote (s : State) : State :=
  (s.updNotif fun n => { n with dropped := (n.dropped + 1) % 2 ^ 32, lost := true }).hostErrSet 0x10

/-- Writes an entry to the ring, or to the hold queue while the ring is off (R84, R673). -/
def State.putNote (s : State) (e : Note) : State :=
  if s.notif.enable then
    if (s.notif.head + 1) % 256 = s.notif.tail then s.dropNote
    else
      let s1 := s.mpWrite (s.notif.base * 8192 + s.notif.head * 32) (e.bytes s.notif.phase s.notif.lost)
      irqSince s (s1.updNotif fun n =>
        { n with head := (n.head + 1) % 256, phase := if n.head = 255 then !n.phase else n.phase, lost := false,
                 unreadAt := n.unreadAt ++ [s.mono] })
  else if s.notif.hold.length < 64 then s.updNotif fun n => { n with hold := n.hold ++ [e] }
  else s.dropNote

/-- An event of an island at a short time: it takes the island's next SEQ, and is written, or deferred under shedding where it
is informational (R83, R85, R89). -/
def State.noteAt (s : State) (island code time : Nat) (args : Bytes) (info : Bool := false) : State :=
  let q := s.notif.seq.get 0 island
  let e : Note := { island, seq := q, time, code, epoch := s.twin.epoch, args }
  let s1 := s.updNotif fun n => { n with seq := n.seq.set island ((q + 1) % 65536) }
  if info && decide (2 ≤ s.notif.shed) then s1.updNotif fun n => { n with deferred := n.deferred ++ [e] }
  else s1.putNote e

/-- An event of an island now. -/
def State.note (s : State) (island code : Nat) (args : Bytes) (info : Bool := false) : State :=
  s.noteAt island code s.shortNow args info

/-! ### The attic log -/

/-- Writes one entry of 32 bytes to the attic log, which overwrites its oldest (R619). -/
def State.attic (s : State) (cls sub code : Nat) (args : Bytes) : State :=
  let e := leBytes 4 s.faults.atticSeq ++ leBytes 1 cls ++ leBytes 1 sub ++ leBytes 2 code ++ leBytes 8 s.now ++
    leBytes 4 s.bat.rtcSec ++ (padTo args 12).take 12
  s.updFaults fun f =>
    { f with atticSeq := (f.atticSeq + 1) % 2 ^ 32,
             attic := (if 30720 ≤ f.attic.length then f.attic.drop 1 else f.attic) ++ [e] }

/-! ### Timers -/

/-- Whether a deadline on the elapsed time has come: n ticks after a start. -/
def State.elapsed (s : State) (since n : Nat) : Bool := decide (since + n ≤ s.mono)

/-- Ticks of a number of microseconds (R187). -/
def us (n : Nat) : Nat := 8000 * n

/-- Ticks of a number of milliseconds. -/
def ms (n : Nat) : Nat := 8000000 * n

end Sys2Proof.Machine
end

