-- ==== Sys2Proof/Machine/FaultOps.lean ====
section
/-!
DEFINITION. The fault collector's shared operations: a firing (R581 to R588), entering and leaving a condition (R574, R676),
the FAULT_N pin (R591).
-/

namespace Sys2Proof.Machine

/-- The island of a lane under R83: its rack, or management for a service lane (R575). -/
def laneIsland (lane : Nat) : Nat := if lane < 128 then lane / 16 else 0x0A

/-- The island a firing belongs to (R575). -/
def fireIsland (src inst : Nat) : Nat :=
  match faultSource src with
  | some x =>
    match x.island with
    | some i => i
    | none => if src = 0x13 then (if inst < 8 then inst else 0x0A) else laneIsland inst
  | none => 0x0A

/-- Whether FAULT_N is to be low: restored records or newer ones routed to it, or OVERFLOW_PIN (R591). -/
def Faults.pinWanted (f : Faults) : Bool := f.restoredDone && (f.open_.any (·.pin) || f.overflowPin)

/-- Drives FAULT_N as R591 says and marks a change for vector 3 (R55, R64, R591). -/
def State.faultPin (s : State) : State :=
  let w := s.faults.pinWanted
  if w = s.faults.pinLow then s
  else irqSince s ((s.updFaults fun f => { f with pinLow := w }).updHatch fun h => { h with faultPinChanged := true })

/-- Whether a source is in a record, as PRIMARY or in SECONDARY. -/
def FaultRec.holds (r : FaultRec) (src : Nat) : Bool := r.primary == src || r.secondary.contains src

/-- The next RECORD_ID after one, skipping the IDs of open records (R583); the fuel bounds the skips by the 64 open records. -/
def nextRecordId (open_ : List FaultRec) : Nat → Nat → Nat
  | 0, last => if 0xFFFFFFFE ≤ last then 1 else last + 1
  | k + 1, last =>
    let n := if 0xFFFFFFFE ≤ last then 1 else last + 1
    if open_.any fun r => r.id == n then nextRecordId open_ k n else n

/-- Replaces the record of an ID. -/
def recSet (l : List FaultRec) (r : FaultRec) : List FaultRec := l.map fun x => if x.id = r.id then r else x

/-- Takes a reaction (R577, R579, R580). -/
def State.react (s : State) (react src inst rec : Nat) : State :=
  let s1 := if 2 ≤ react then (s.bump 0x1705 noInst 3).updFaults fun f => { f with nmiTaken := f.nmiTaken + 1 } else s
  let s2 := if react = 3 then (s1.bump 0x1705 noInst 4).later (.blockReset src inst) else s1
  if react = 4 then s2.updFaults fun f => { f with chipResetDue := some (f.chipResetDue.getD (src, rec, s.mono + ms 5)) } else s2

/-- The notification and the attic entry of a firing (R581, R619). -/
def State.fireNote (s : State) (src inst : Nat) (taken : Option Nat) (flags rec : Nat) (args : Bytes) (log : Bool) : State :=
  let a := leBytes 1 (taken.getD 0xFF) ++ leBytes 1 flags ++ leBytes 2 inst ++ leBytes 4 rec ++ (padTo args 12).take 12
  (s.note (fireIsland src inst) (0x1700 + src) a log).attic 1 (fireIsland src inst) (0x1700 + src) a

/-- A firing merged into an open record (R585, R588, log 98). -/
def State.fireMerge (s : State) (r : FaultRec) (case1 : Bool) (src inst react : Nat) (pin inj : Bool) (args : Bytes)
    (log : Bool) : State :=
  let full := case1 && !inj && r.inj
  let esc := decide (r.reaction < react)
  let taken := if esc || full then some react else none
  let r' : FaultRec := { r with
    secondary := if r.secondary.contains src then r.secondary else r.secondary ++ [src],
    merges := satN 32 (r.merges + 1), tickLast := s.now, real := r.real || full, pin := r.pin || pin,
    reaction := if esc then react else r.reaction, dirty := true }
  let s1 := (s.updFaults fun f => { f with open_ := recSet f.open_ r' }).bump 0x1705 noInst 1
  let s2 := if esc then s1.bump 0x1705 noInst 5 else s1
  let s3 := s2.faultPin.fireNote src inst taken (b2n inj + 2 * b2n full + 4 + 8 * b2n pin) r.id args log
  match taken with
  | some c => s3.react c src inst r.id
  | none => s3

/-- A firing that opens a record (R584 case 3, R586, log 98). -/
def State.fireOpen (s : State) (src inst react : Nat) (pin inj : Bool) (args : Bytes) (log : Bool) : State :=
  if 64 ≤ s.faults.open_.length then
    let s1 := s.updFaults fun f =>
      { f with lost := satN 32 (f.lost + 1), overflow := true, overflowPin := f.overflowPin || pin }
    (s1.faultPin.fireNote src inst (some react) (b2n inj + 8 * b2n pin) 0 args log).react react src inst 0
  else
    let id := nextRecordId s.faults.open_ 64 s.faults.lastId
    let r : FaultRec :=
      { id, primary := src, island := fireIsland src inst, reaction := react, inj, pin, rtcSet := s.bat.rtcSet, inst,
        epoch := s.twin.epoch, tickFirst := s.now, tickLast := s.now, arg := (padTo args 4).take 4, rtcSec := s.bat.rtcSec }
    let s1 := (s.updFaults fun f => { f with open_ := f.open_ ++ [r], lastId := id }).bump 0x1705 noInst 0
    (s1.faultPin.fireNote src inst (some react) (b2n inj + 8 * b2n pin) id args log).react react src inst id

/-- The record a firing merges into under cases 1 and 2 of R584, and whether it was case 1. -/
def State.fireTarget (s : State) (src inst : Nat) : Option (FaultRec × Bool) :=
  match s.faults.open_.find? fun r => r.holds src with
  | some r => some (r, true)
  | none =>
    match s.faults.open_.reverse.find? fun r =>
      r.island == fireIsland src inst && decide (s.now ≤ r.tickLast + s.p0 0x1702) with
    | some r => some (r, false)
    | none => none

/-- A firing of a source, real or injected, with the reaction limit of an injection (R584, R587). -/
def State.fireWith (s : State) (src inst : Nat) (args : Bytes) (inj : Bool) (limit : Nat) : State :=
  match faultSource src with
  | none => s
  | some _ =>
    let conf := s.pu 0x1701 src 0 1
    let pin := bit (s.pu 0x1701 src 1 1) 0
    let react := if inj then min conf limit else conf
    let s1 := s.updFaults fun f => { f with firings := f.firings.set src (satN 32 (f.firings.get 0 src + 1)) }
    match s1.fireTarget src inst with
    | some (r, c1) => s1.fireMerge r c1 src inst react pin inj args (conf == 0)
    | none =>
      if 0 < react ∨ pin = true then s1.fireOpen src inst react pin inj args (conf == 0)
      else s1.fireNote src inst none (b2n inj + 8 * b2n pin) 0 args (conf == 0)

/-- A real firing of a source (R574, R584). -/
def State.fire (s : State) (src inst : Nat) (args : Bytes) : State := s.fireWith src inst args false 4

/-- A condition source is entered for an instance and a further argument: a firing, once per entry (R574, R676). -/
def State.condOn (s : State) (src inst sub : Nat) (args : Bytes) : State :=
  let p : Present := { src, inst, sub }
  if s.faults.present.contains p then s
  else (s.updFaults fun f => { f with present := f.present ++ [p] }).fire src inst args

/-- A condition source is left for an instance and a further argument. -/
def State.condOff (s : State) (src inst sub : Nat) : State :=
  s.updFaults fun f => { f with present := f.present.filter fun p => p ≠ { src, inst, sub } }

/-- A condition source is left for every argument of an instance. -/
def State.condOffInst (s : State) (src inst : Nat) : State :=
  s.updFaults fun f => { f with present := f.present.filter fun p => !(p.src == src && p.inst == inst) }

/-- Enters or leaves a condition as a Boolean says. -/
def State.cond (s : State) (on : Bool) (src inst sub : Nat) (args : Bytes) : State :=
  if on then s.condOn src inst sub args else s.condOff src inst sub

/-- Whether a source is present for any instance (R676). -/
def Faults.isPresent (f : Faults) (src : Nat) : Bool := f.present.any fun p => p.src == src

/-- PRESENT of a record: a condition source it holds is present (R583). -/
def Faults.recPresent (f : Faults) (r : FaultRec) : Bool := f.present.any fun p => r.holds p.src

/-- FLAGS of a record (R583). -/
def Faults.recFlags (f : Faults) (r : FaultRec) : Nat :=
  b2n r.inj + 2 * b2n r.real + 4 * b2n r.pin + 8 * b2n r.read + 16 * b2n r.restored + 32 * b2n (f.recPresent r) +
    64 * b2n r.rtcSet

/-- The 80 bytes of a record (R583). -/
def Faults.recBytes (f : Faults) (r : FaultRec) : Bytes :=
  leBytes 4 r.id ++ leBytes 1 r.primary ++ leBytes 1 r.island ++ leBytes 1 r.reaction ++ leBytes 1 (f.recFlags r) ++
    leBytes 2 r.inst ++ leBytes 2 r.epoch ++ leBytes 4 r.merges ++ leBytes 8 r.tickFirst ++ leBytes 8 r.tickLast ++
    ((List.range 32).map fun b => BitVec.ofNat 8 ((List.range 8).foldl
      (fun n k => n + (if r.secondary.contains (8 * b + k) then 2 ^ k else 0)) 0)) ++
    r.arg ++ leBytes 4 r.rtcSec ++ List.replicate 8 0

end Sys2Proof.Machine
end

