-- ==== Sys2Proof/Machine/Opcodes.lean ====
section
/-!
DEFINITION. The opcodes of the mailbox commands (R75): their request lengths (R674 row 7) and who accepts them (R72, R394).
-/

namespace Sys2Proof.Machine

/-- One command of the hatch. -/
structure OpRow where
  /-- The opcode. -/
  op : Nat
  /-- The fixed request length; none where it varies. -/
  len : Option Nat
  /-- Whether it is a read command, accepted in every role (R72). -/
  read : Bool := false
  /-- Whether it is accepted in every role though it is no read (R394 and the command's chapter). -/
  anyRole : Bool := false
deriving DecidableEq, Repr

/-- The commands of every chapter. -/
def opRows : List OpRow := [
  { op := 0x0210, len := some 0, read := true }, { op := 0x0211, len := some 8, read := true },
  { op := 0x0212, len := none }, { op := 0x0213, len := some 4 },
  { op := 0x0214, len := some 0 }, { op := 0x0215, len := some 4, read := true },
  { op := 0x0310, len := some 8 }, { op := 0x0311, len := some 4 }, { op := 0x0312, len := some 4, read := true },
  { op := 0x0420, len := some 8 }, { op := 0x0421, len := some 8 }, { op := 0x0422, len := some 8 },
  { op := 0x0423, len := some 4, read := true }, { op := 0x0424, len := some 4 },
  { op := 0x0510, len := some 12 }, { op := 0x0511, len := some 4 },
  { op := 0x0620, len := some 16, anyRole := true }, { op := 0x0621, len := some 4 },
  { op := 0x0710, len := some 16, anyRole := true }, { op := 0x0711, len := some 4, read := true },
  { op := 0x0820, len := some 8 }, { op := 0x0821, len := some 4 }, { op := 0x0822, len := none },
  { op := 0x0920, len := some 4 }, { op := 0x0A20, len := some 4, read := true },
  { op := 0x0B10, len := some 12 }, { op := 0x0B11, len := some 4 }, { op := 0x0B12, len := some 8 },
  { op := 0x0B13, len := some 4, read := true }, { op := 0x0B14, len := some 0 }, { op := 0x0B15, len := some 0 },
  { op := 0x0B16, len := some 8 },
  { op := 0x0C20, len := some 4 }, { op := 0x0C21, len := some 4 }, { op := 0x0C22, len := some 4 },
  { op := 0x0C23, len := some 4 }, { op := 0x0C24, len := some 4 },
  { op := 0x0D10, len := some 4 }, { op := 0x0D11, len := some 4 },
  { op := 0x0D12, len := some 4, anyRole := true }, { op := 0x0D13, len := some 4 },
  { op := 0x1010, len := some 4, anyRole := true }, { op := 0x1110, len := some 4, read := true }, { op := 0x1111, len := some 4 },
  { op := 0x1220, len := some 4 }, { op := 0x1221, len := some 4 }, { op := 0x1310, len := some 8 },
  { op := 0x1510, len := some 12, read := true }, { op := 0x1511, len := some 4 },
  { op := 0x1610, len := some 8, anyRole := true }, { op := 0x1611, len := some 4, anyRole := true },
  { op := 0x1710, len := some 8, read := true }, { op := 0x1711, len := some 4, anyRole := true },
  { op := 0x1712, len := some 8, anyRole := true },
  { op := 0x1810, len := some 16 }, { op := 0x1811, len := some 4 }, { op := 0x1812, len := some 16 },
  { op := 0x1813, len := some 12 }, { op := 0x1814, len := some 4 }, { op := 0x1815, len := some 12 },
  { op := 0x1816, len := some 68 }, { op := 0x1817, len := some 68, anyRole := true },
  { op := 0x1818, len := some 8, read := true },
  { op := 0x1A10, len := some 68, anyRole := true }, { op := 0x1A11, len := some 0, anyRole := true }]

/-- The row of an opcode, if it is implemented (R674 row 6). -/
def opRow (op : Nat) : Option OpRow := opRows.find? fun r => r.op == op

/-- The own-unit pages of R394. -/
def ownUnitPage (pg : Nat) : Bool := [0x01, 0x02, 0x0D, 0x0E, 0x16, 0x19, 0x1A].contains pg

/-- The pages a referee or a ring member accepts (R394, R403). -/
def refereePage (pg : Nat) : Bool := ownUnitPage pg || pg == 0x06 || (decide (0x16 ≤ pg) && decide (pg ≤ 0x1A))

/-- The opcodes the recovery hatch accepts (R641). -/
def recoveryOp (op : Nat) : Bool := [0x0210, 0x0211, 0x1810, 0x1811, 0x1812, 0x0D12].contains op

end Sys2Proof.Machine
end

