-- ==== Sys2Proof/Machine/RoleOps.lean ====
section
/-!
DEFINITION. What a role and a twin mean to every chapter: who commands, whether writes are forwarded, whether the twin link is
up; and the lanes and links seen by number.
-/

namespace Sys2Proof.Machine

/-- A lane. -/
def State.lane (s : State) (n : Nat) : Lane := s.lanes.lane.get {} n

/-- Changes a lane. -/
def State.modLane (s : State) (n : Nat) (f : Lane → Lane) : State :=
  s.updLanes fun l => { l with lane := l.lane.mod {} n f }

/-- A lane's link. -/
def State.lnk (s : State) (n : Nat) : Link := s.links.link.get {} n

/-- Changes a lane's link. -/
def State.modLink (s : State) (n : Nat) (f : Link → Link) : State :=
  s.updLinks fun l => { l with link := l.link.mod {} n f }

/-- Whether a lane state is trained (R109). -/
def LaneSt.trained : LaneSt → Bool
  | .linked => true
  | .sleep => true
  | _ => false

/-- Whether a lane state is a working link (R109). -/
def LaneSt.working : LaneSt → Bool
  | .linked => true
  | .sleep => true
  | .hunt => true
  | _ => false

/-- Whether a lane counts as stopped for its class H parameters (R110). -/
def LaneSt.stopped : LaneSt → Bool
  | .off => true
  | .down => true
  | .halted => true
  | _ => false

/-- TWIN_EN (R395). -/
def State.twinEn (s : State) : Bool := bit (s.pu 0x0D02 noInst 0 1) 0

/-- UNIT (R395). -/
def State.unit (s : State) : Nat := b2n (bit (s.pu 0x0D02 noInst 0 1) 1)

/-- REF_MODE (R395). -/
def State.refMode (s : State) : Nat := s.pu 0x0D02 noInst 1 1

/-- Whether the twin link is up: a twin lane is LINKED (R371). -/
def State.twinLinkUp (s : State) : Bool := decide ((s.lane 130).st = .linked) || decide ((s.lane 131).st = .linked)

/-- Whether the unit is an active with a standby (R72, R385). -/
def State.hasStandby (s : State) : Bool :=
  decide (s.twin.role = .active) && s.twinEn && s.twin.paired && !s.twin.standbyLost && s.twin.peerRole == some 2

/-- Whether the standby is qualified (R370). -/
def State.qualifiedStandby (s : State) : Bool := s.hasStandby && s.twin.peerQualified

/-- Whether the unit commands its plant: the active, or a unit without a twin (R132, R394). -/
def State.commanding (s : State) : Bool := decide (s.twin.role = .active) || decide (s.twin.role = .maint)

/-- HEAD_ID: NODE div 2, and 0 for NODE 16 (R402). -/
def State.headId (s : State) : Nat := let n := s.pu 0x0E02 noInst 0 1; if n = 16 then 0 else n / 2

/-- Whether the unit is the time master: the active of the master head (R191, log 46). -/
def State.isMaster (s : State) : Bool := decide (s.twin.role = .active) && decide (s.time.masterHead = s.headId)

/-- Whether a role accepts a write or command of a page (R394, R403). -/
def Role.acceptsPage (r : Role) (pg : Nat) : Bool :=
  match r with
  | .active => true
  | .maint => true
  | .none => ownUnitPage pg
  | .standby => ownUnitPage pg
  | .referee => refereePage pg
  | .ringMember => refereePage pg

/-- Whether a role accepts an opcode (R72, R394): the page of a PARAM_SET is judged record by record. -/
def Role.acceptsOp (r : Role) (op : Nat) : Bool :=
  match opRow op with
  | .some row => row.read || row.anyRole || (r.acceptsPage (op / 256) && !(decide (r ≠ .active) && op == 0x0621))
  | .none => false

/-- The page of each record of a PARAM_SET payload, as far as the records can be laid out. -/
def recordPages : Nat → Bytes → List Nat
  | 0, _ => []
  | n + 1, l =>
    if l.length < 8 then []
    else (uAt l 0 2 / 256) :: recordPages n (l.drop (8 + (uAt l 4 2 + 3) / 4 * 4))

end Sys2Proof.Machine
end

