-- ==== Sys2Proof/Machine/AuxOps.lean ====
section
/-!
DEFINITION. The auxiliary drives: switches under the interlock, PWM, dead times, refresh, the active short and trips (R470 to R493).
-/

namespace Sys2Proof.Machine

/-! ### Parts of the state -/

/-- A bridge. -/
def State.br (s : State) (b : Nat) : Bridge := s.aux.bridge.get {} b

/-- Changes a bridge. -/
def State.modBr (s : State) (b : Nat) (f : Bridge → Bridge) : State :=
  s.updAux fun a => { a with bridge := a.bridge.mod {} b f }

/-- A switch. -/
def State.sw (s : State) (b k : Nat) : AuxSw := (s.br b).sw.get {} k

/-- Changes a switch. -/
def State.modSw (s : State) (b k : Nat) (f : AuxSw → AuxSw) : State :=
  s.modBr b fun x => { x with sw := x.sw.mod {} k f }

/-- A phase. -/
def State.aph (s : State) (b p : Nat) : AuxPhase := (s.br b).phase.get {} p

/-- Changes a phase. -/
def State.modAph (s : State) (b p : Nat) (f : AuxPhase → AuxPhase) : State :=
  s.modBr b fun x => { x with phase := x.phase.mod {} p f }

/-- Ticks of a number of steps. -/
def stp (n : Nat) : Nat := 20 * n

/-- The other switch of a phase (R470). -/
def swOther (k : Nat) : Nat := if k % 2 = 0 then k + 1 else k - 1

/-- Whether any trip of a bridge is latched (R488). -/
def Bridge.tripped (x : Bridge) : Bool := (x.trip.get {} 0).latched || (x.trip.get {} 1).latched

/-- Whether a trip input is active: low for FILT steps (R488). -/
def State.auxActive (s : State) (b i : Nat) : Bool :=
  match ((s.br b).trip.get {} i).lowSince with
  | some t => s.elapsed t (stp (s.pu 0x1209 b (4 * i) 2))
  | none => false

/-- A field of AUX_DT_CFG (R494). -/
def State.auxDt (s : State) (b off : Nat) : Nat := s.pu 0x1206 b off 2

/-- Whether a bridge's dead times adapt (R483). -/
def State.auxAdapts (s : State) (b : Nat) : Bool := s.pu 0x1206 b 0 1 == 1

/-- The dead time of a phase in effect, in steps (R483). -/
def State.phaseDt (s : State) (b p : Nat) : Nat := ((s.aph b p).dt).getD (s.auxDt b 2)

/-! ### Judging dead times (R483) -/

/-- A judgement that counts as good or bad toward fallback (R483, R280, R281). -/
def State.auxTally (s : State) (b p : Nat) (bad : Bool) : State :=
  let x := s.aph b p
  if bad then
    let n := x.bad + 1
    let s1 := s.modAph b p fun y => { y with bad := n, good := 0 }
    if s.pu 0x1206 b 14 1 ≤ n ∧ x.fallback = false then
      (s1.modAph b p fun y => { y with fallback := true, bad := 0, dtNext := some (s.auxDt b 16) }).condOn 0x6D b p (leBytes 1 p)
    else s1
  else
    let g := x.good + 1
    let s1 := s.modAph b p fun y => { y with bad := 0, good := g }
    if x.fallback ∧ 64 ≤ g then (s1.modAph b p fun y => { y with fallback := false }).condOff 0x6D b p else s1

/-- One step of the law of R276 with the bridge's values. -/
def State.auxLaw (s : State) (b p : Nat) (m : Int) : State :=
  let v := ((s.aph b p).dtNext).getD (s.phaseDt b p)
  let target : Int := s.auxDt b 8
  let band : Int := s.auxDt b 10
  if (s.aph b p).fallback then s
  else if 0 ≤ m ∧ target + band < m then
    s.modAph b p fun y => { y with dtNext := some (max (s.auxDt b 4) (v - s.pu 0x1206 b 12 1)) }
  else if (0 ≤ m ∧ m < target - band) ∨ (m < 0 ∧ -band < m) then
    s.modAph b p fun y => { y with dtNext := some (min (s.auxDt b 6) (v + s.pu 0x1206 b 13 1)) }
  else s

/-- Judges a transition: MISSING, NOCROSS, IMPLAUSIBLE, or by its margin (R275, R483). -/
def State.auxJudge (s : State) (b p : Nat) (j : AuxJudge) : State :=
  let s1 := s.modAph b p fun y => { y with judge := none }
  match j.lost, j.tx, j.tOn with
  | false, some tx, some tOn =>
    let m : Int := ((tOn : Int) - tx) / 20
    if tx < (j.tOff : Int) - 40 then s1.auxTally b p true
    else ((s1.modBr b fun x => { x with lastM := satI 16 m }).auxLaw b p m).auxTally b p false
  | _, _, _ => s1.auxTally b p true

/-- Judges the open transition of a phase once its window has passed and its turn-on is settled. -/
def State.auxTryJudge (s : State) (b p : Nat) : State :=
  match (s.aph b p).judge with
  | some j =>
    if (s.elapsed j.tOff (us 2) || j.tx.isSome) && (j.tOn.isSome || j.lost) then s.auxJudge b p j else s
  | none => s

/-! ### Switches (R473 to R476) -/

/-- A transition whose turn-on is lost by its gate supply is not judged (R476, R496, log 134). -/
def State.dropJudge (s : State) (b k : Nat) : State :=
  s.modAph b (k / 2) fun y =>
    { y with judge := y.judge.bind fun j => if j.tOn.isNone && (j.up == decide (k % 2 = 0)) then none else some j }

/-- Commands a switch off. -/
def State.swOff (s : State) (b k : Nat) : State :=
  let x := s.sw b k
  let s1 := if k % 2 = 0 then s.modAph b (k / 2) fun y => { y with through := y.through && y.refreshing } else s
  if x.on then s1.modSw b k fun y => { y with cmd := false, on := false, pend := none, offSeen := false, offAt := some s.mono }
  else s1.modSw b k fun y => { y with cmd := false, pend := none }

/-- The low side of an incomplete short that turns on completes its phase (R487). -/
def State.shortMade (s : State) (b k : Nat) : State :=
  if (s.aph b (k / 2)).incomplete && decide (k % 2 = 1) then
    (s.modAph b (k / 2) fun y => { y with incomplete := false }).condOff 0x6E b (k / 2)
  else s

/-- A switch turns on at an instant (log 89). -/
def State.swOn (s : State) (b k t : Nat) : State :=
  let s1 := (s.shortMade b k).modSw b k fun y => { y with cmd := true, on := true, off := false, pend := none }
  let s2 := s1.modAph b (k / 2) fun y =>
    { y with judge := y.judge.map fun j => if j.tOn.isNone && (j.up == decide (k % 2 = 0)) then { j with tOn := some t } else j }
  s2.auxTryJudge b (k / 2)

/-- A low side of a short that cannot turn on leaves it incomplete (R487). -/
def State.shortFail (s : State) (b k : Nat) : State :=
  if (s.br b).short && decide (k % 2 = 1) then
    (s.modAph b (k / 2) fun y => { y with incomplete := true }).condOn 0x6E b (k / 2) (leBytes 1 (k / 2))
  else s

/-- A turn-on under the interlock: at once, waiting for the partner's confirmation, or not at all (R473, R474, R476, log 89). -/
def State.tryOn (s : State) (b k due : Nat) : State :=
  let x := s.sw b k
  let o := s.sw b (swOther k)
  if x.on || x.pend.isSome then s
  else if x.locked || !x.sg || o.cmd then (s.dropJudge b k).shortFail b k
  else if o.offSeen then s.swOn b k due
  else s.modSw b k fun y => { y with cmd := true, pend := some due }

/-- Ends the short: no phase is incomplete any longer (R487, R491). -/
def State.shortEnd (s : State) (b : Nat) : State :=
  (List.range 3).foldl (fun s p => (s.modAph b p fun y => { y with incomplete := false }).condOff 0x6E b p)
    (s.modBr b fun x => { x with short := false })

/-- Every switch off, every edge to come dropped, every phase floating. -/
def State.auxAllOff (s : State) (b : Nat) : State :=
  let s1 := (List.range 6).foldl (fun s k => s.swOff b k) s
  let s2 := (List.range 3).foldl (fun s p => s.modAph b p fun y => { y with level := none, judge := none, refresh := 0 }) s1
  (s2.modBr b fun x => { x with edges := [] }).shortEnd b

/-- Puts an edge in its place among those to come; off edges go ahead of on edges of the same time. -/
def edgeInsert (e : AuxEdge) : List AuxEdge → List AuxEdge
  | [] => [e]
  | x :: r => if x.at_ < e.at_ ∨ (x.at_ = e.at_ ∧ (!x.on || e.on)) then x :: edgeInsert e r else e :: x :: r

/-- Adds edges to a bridge. -/
def State.addEdges (s : State) (b : Nat) (l : List AuxEdge) : State :=
  s.modBr b fun x => { x with edges := l.foldl (fun es e => edgeInsert e es) x.edges }

/-- The active short from now: high sides off, each low side not already on at now + DT (R487). -/
def State.shortStart (s : State) (b : Nat) : State :=
  let s1 := s.modBr b fun x => { x with edges := [], short := true }
  let s2 := (List.range 3).foldl (fun s p =>
    let s := (s.swOff b (2 * p)).modAph b p fun y => { y with level := none, judge := none, refresh := 0 }
    if (s.sw b (2 * p + 1)).on then s else s.swOff b (2 * p + 1)) s1
  s2.addEdges b (((List.range 3).filter fun p => !(s2.sw b (2 * p + 1)).on).map fun p =>
    { at_ := s.mono + stp (s.phaseDt b p), k := 2 * p + 1, on := true })

/-! ### DIRECT (R475) -/

/-- Both switches of a phase commanded on: neither turns on (R475). -/
def State.auxInterlock (s : State) (b p : Nat) : State :=
  (((s.swOff b (2 * p)).swOff b (2 * p + 1)).bump 0x120D b 2).fire 0x68 b (leBytes 1 p)

/-- The host's gate word takes effect (R475, R477). -/
def State.auxDirect (s : State) (b w : Nat) : State :=
  (List.range 3).foldl (fun s p =>
    let h := bit w (2 * p)
    let l := bit w (2 * p + 1)
    if h && l then s.auxInterlock b p
    else
      let s1 := if h then s else s.swOff b (2 * p)
      let s2 := if l then s1 else s1.swOff b (2 * p + 1)
      let s3 := if h && !(s2.sw b (2 * p)).cmd then s2.tryOn b (2 * p) s.mono else s2
      if l && !(s3.sw b (2 * p + 1)).cmd then s3.tryOn b (2 * p + 1) s.mono else s3) s

/-! ### PWM (R479 to R486) -/

/-- The switch of a level of a phase. -/
def levelSw (p : Nat) (high : Bool) : Nat := if high then 2 * p else 2 * p + 1

/-- CMP of a phase, at most PER (R479). -/
def State.auxCmp (s : State) (b p : Nat) : Nat := min (s.pu 0x1203 b (2 * p) 2) (s.pu 0x1202 b 0 2)

/-- Whether an interval is too short to be produced (R481). -/
def tooShort (len dt minOn : Nat) : Bool := decide (len < dt + max 1 minOn)

/-- The changes of level of a phase in a period, in steps after its boundary, from the level it has, with the intervals dropped
(R479, R481). -/
def pwmChanges (lv0 : Bool) (per c dt minOn : Nat) : List (Nat × Bool) × Nat :=
  if c = 0 then (if lv0 then [(0, false)] else [], 0)
  else if c = per then (if lv0 then [] else [(0, true)], 0)
  else
    let dropLow := tooShort (2 * (per - c)) dt minOn
    let tail := if dropLow then [] else [(per + c, false)]
    if lv0 && tooShort (per - c) dt minOn then (tail, b2n dropLow)
    else
      let head := if lv0 then [(0, false)] else []
      if tooShort (2 * c) dt minOn then (head, 1) else (head ++ [(per - c, true)] ++ tail, b2n dropLow)

/-- The edges of a change of level (R480). -/
def changeEdges (bAt p dt : Nat) (x : Nat × Bool) : List AuxEdge :=
  [{ at_ := bAt + stp (x.1 - dt / 2), k := levelSw p (!x.2), on := false, judged := true },
    { at_ := bAt + stp (x.1 + (dt - dt / 2)), k := levelSw p x.2, on := true, judged := true }]

/-- A refresh at a boundary (R485, log 90). -/
def refreshEdges (bAt p dt w : Nat) : List AuxEdge :=
  [{ at_ := bAt, k := 2 * p, on := false }, { at_ := bAt + stp dt, k := 2 * p + 1, on := true },
    { at_ := bAt + stp (dt + w), k := 2 * p + 1, on := false },
    { at_ := bAt + stp (2 * dt + w), k := 2 * p, on := true, check := true }]

/-- The PWM of one phase over the period that has begun; a floating phase turns on the switch of its ideal level a delay after the
instant it starts at (R479 to R482, R485, R486, log 90). -/
def State.pwmPhase (s : State) (b p start delay : Nat) (boundary : Bool) : State :=
  let x := s.aph b p
  let bAt := (s.br b).bAt
  let per := s.pu 0x1202 b 0 2
  let c := s.auxCmp b p
  let dt := s.phaseDt b p
  if bit (s.pu 0x1204 b 0 1) p = false then
    ((s.swOff b (2 * p)).swOff b (2 * p + 1)).modAph b p fun y => { y with level := none, refresh := 0 }
  else
    match x.level with
    | none =>
      let lv := decide (c = per)
      let ch := (pwmChanges lv per c dt (s.pu 0x1207 b 0 2))
      let past := ch.1.filter fun x => decide (bAt + stp x.1 ≤ start + stp (delay + dt / 2))
      let es := ((ch.1.drop past.length).map (changeEdges bAt p dt)).flatten
      (((s.modAph b p fun y => { y with level := some ((ch.1.map (·.2)).getLastD lv), refresh := 0, refreshing := false }).addEdges b
        ({ at_ := start + stp delay, k := levelSw p ((past.map (·.2)).getLastD lv), on := true } :: es)).bumpBy 0x120D b 3 ch.2)
    | some lv =>
      let ch := pwmChanges lv per c dt (s.pu 0x1207 b 0 2)
      let n := if boundary && x.through && (s.sw b (2 * p)).on then x.refresh + 1 else 0
      let go := decide (s.pu 0x120A b 0 2 ≤ n) && lv && (ch.1.head?.map (·.1)) != some 0
      let s1 := s.modAph b p fun y =>
        { y with level := some ((ch.1.map (·.2)).getLastD lv), refresh := if go then 0 else n, through := (s.sw b (2 * p)).on, refreshing := false }
      let s2 := (s1.addEdges b (ch.1.map (changeEdges bAt p dt)).flatten).bumpBy 0x120D b 3 ch.2
      if go then
        ((s2.modAph b p fun y => { y with refreshing := true }).addEdges b (refreshEdges bAt p dt (s.pu 0x120A b 2 2))).bump 0x120D b 4
      else s2

/-- The PWM of every phase; the delay of a turn-on from floating is DT_hi, or the whole DT after a short (R482). -/
def State.pwmAll (s : State) (b start : Nat) (whole boundary : Bool) : State :=
  (List.range 3).foldl (fun s p =>
    let dt := s.phaseDt b p
    s.pwmPhase b p start (if whole then dt else dt - dt / 2) boundary) s

/-! ### Modes (R477, R482) -/

/-- Takes a mode up at an instant, coming from another (R482). -/
def State.auxMode (s : State) (b old new start : Nat) (boundary : Bool) : State :=
  let s0 := s.modBr b fun x => { x with mode := new }
  if new = 0 then (if old = 0 then s0 else s0.auxAllOff b)
  else if new = 3 then (if (s.br b).short then s0 else s0.shortStart b)
  else if new = 1 then
    if old = 1 then s0.pwmAll b start false boundary
    else (s0.auxAllOff b).pwmAll b start (decide (old = 3)) boundary
  else
    let w := s.pu 0x1205 b 0 1
    if old = 2 then s0
    else if old = 3 then
      let s1 := s0.auxAllOff b
      (List.range 3).foldl (fun s p =>
        let h := bit w (2 * p)
        let l := bit w (2 * p + 1)
        if h && l then s.auxInterlock b p
        else if h || l then
          s.addEdges b [{ at_ := start + stp (s.phaseDt b p), k := levelSw p h, on := true }]
        else s) s1
    else
      let s1 := (List.range 3).foldl (fun s p => s.modAph b p fun y => { y with level := none, judge := none, refresh := 0 })
        (s0.modBr b fun x => { x with edges := [] })
      s1.auxDirect b w

/-- The low sides a short still lacks are tried again (R487). -/
def State.shortRetry (s : State) (b : Nat) : State :=
  (List.range 3).foldl (fun s p =>
    if (s.aph b p).incomplete then
      s.tryOn b (2 * p + 1) s.mono
    else s) s

/-- The shadowed parameters of a bridge (R478). -/
def auxShadowed : List Nat := [0x1201, 0x1202, 0x1203, 0x1204, 0x1207, 0x120A]

/-- Takes the dead times that stand for the boundary, held within DT_MIN and DT_MAX (R483). -/
def State.auxDtTake (s : State) (b p : Nat) : State :=
  s.modAph b p fun y =>
    { y with dt := if s.auxAdapts b then some (max (s.auxDt b 4) (min (s.auxDt b 6) ((y.dtNext).getD (s.phaseDt b p)))) else some (s.auxDt b 2),
             dtNext := none }

/-- A period boundary of a bridge (R478 to R487). -/
def State.auxBoundary (s : State) (b : Nat) : State :=
  let t := (s.br b).next
  let s1 := s.captureAll auxShadowed b
  let s2 := s1.modBr b fun x =>
    { x with bAt := t, next := t + stp (2 * s1.pu 0x1202 b 0 2), boundaries := (x.boundaries + 1) % 2 ^ 32 }
  let s3 := (List.range 3).foldl (fun s p => s.auxDtTake b p) s2
  let old := (s.br b).mode
  let new := s3.pu 0x1201 b 0 1
  if !s3.aux.driving then s3.modBr b fun x => { x with mode := new }
  else if (s3.br b).tripped then (s3.modBr b fun x => { x with mode := new }).shortRetry b
  else
    let s4 := if old = 3 ∧ new = 3 then s3 else s3.auxMode b old new t true
    if (s4.br b).short then s4.shortRetry b else s4

/-- Puts a bridge into OFF or SHORT at once, the mode set in the shadow and in effect; a latched trip lets the mode alone change
(R495, R496). -/
def State.auxAct (s : State) (b : Nat) (short : Bool) : State :=
  let m := if short then 3 else 0
  let s1 := (s.setParam 0x1201 b (leBytes 1 m)).saveParam 0x1201 b (leBytes 1 m)
  let s2 := s1.modBr b fun x => { x with mode := m }
  if !s.aux.driving || (s.br b).tripped then s2
  else if short then (if (s.br b).short then s2 else s2.shortStart b)
  else s2.auxAllOff b

/-- A trip input latches its bridge's trip (R488, R490). -/
def State.auxTrip (s : State) (b i : Nat) : State :=
  let short := s.pu 0x1209 b (4 * i + 2) 1 == 1
  let s1 := (s.modBr b fun x => { x with trip := x.trip.mod {} i fun t => { t with latched := true, short } }).bump 0x120D b 6
  let s2 := if !s.aux.driving || (s.br b).short then s1
    else if short then s1.shortStart b
    else s1.auxAllOff b
  s2.condOn 0x6F b i (leBytes 1 i)

/-- Clears the trips of a mask: the mode is OFF and every switch off (R491). -/
def State.auxClear (s : State) (b mask : Nat) : State :=
  let s1 := (List.range 2).foldl (fun s i =>
    if bit mask i then
      (s.modBr b fun x => { x with trip := x.trip.mod {} i fun t => { t with latched := false, short := false } }).condOff 0x6F b i
    else s) s
  let s2 := (s1.setParam 0x1201 b [0]).saveParam 0x1201 b [0]
  (s2.modBr b fun x => { x with mode := 0 }).auxAllOff b

/-! ### Driving (R472, R492, R493) -/

/-- Whether the unit may drive the gate outputs: the active or a unit in MAINT outside the end of a planned switch, or a unit without a twin, in service and
with its supplies (R472, R492, R493, log 18). -/
def State.auxMay (s : State) : Bool :=
  decide (s.sys.stage = .serving) && s.sys.vddField && !s.sys.gated && s.twin.handoverUntil.isNone &&
    (s.commanding || !s.twinEn)

/-- The gate outputs become high-impedance: nothing is driven (R472, R493). -/
def State.auxRelease (s : State) : State :=
  (List.range 2).foldl (fun s b => s.auxAllOff b) (s.updAux fun a => { a with driving := false })

/-- Stops driving where the unit may no longer (R493, log 18). -/
def State.auxWatch (s : State) : State := if s.aux.driving && !s.auxMay then s.auxRelease else s

/-- Starts to drive: every switch off, dead times from DT_INIT, and the latched trips or the mode at once (R493, log 18). -/
def State.auxStart (s : State) : State :=
  let s1 := s.updAux fun a => { a with driving := true }
  (List.range 2).foldl (fun s b =>
    let s2 := (List.range 3).foldl (fun s p =>
      (s.modAph b p fun y =>
        { y with dt := none, dtNext := none, fallback := false, bad := 0, good := 0, refresh := 0, through := false, refreshing := false }).condOff 0x6D b p)
      (s.auxAllOff b)
    let x := s2.br b
    if x.tripped then
      (if (x.trip.get {} 0).latched && (x.trip.get {} 0).short || (x.trip.get {} 1).latched && (x.trip.get {} 1).short then s2.shortStart b
       else s2)
    else s2.auxMode b 0 (s2.pu 0x1201 b 0 1) s.mono false) s1

end Sys2Proof.Machine
end

