-- ==== Sys2Proof/Machine/HatchOps.lean ====
section
/-!
DEFINITION. Mailboxes: requests, replies, and the forwarding of an active's writes to its standby (R57 to R72, R373).
-/

namespace Sys2Proof.Machine

/-- Changes a mailbox. -/
def State.modBox (s : State) (mb : Nat) (f : Mailbox → Mailbox) : State :=
  s.updHatch fun h => { h with boxes := h.boxes.mod {} mb f }

/-- STATUS codes (R67). -/
def stOk : Nat := 0
/-- BUSY (R67). -/
def stBusy : Nat := 1
/-- STALE_EPOCH (R67). -/
def stStale : Nat := 2
/-- REFUSED_STATE (R67). -/
def stRefused : Nat := 3
/-- BAD_PARAM (R67). -/
def stBadParam : Nat := 4
/-- NOT_IN_ROLE (R67). -/
def stNotInRole : Nat := 5
/-- LOCKED (R67). -/
def stLocked : Nat := 6
/-- TRIP_ACTIVE (R67). -/
def stTrip : Nat := 7
/-- UNKNOWN_OPCODE (R67). -/
def stUnknown : Nat := 8
/-- BAD_LENGTH (R67). -/
def stBadLength : Nat := 9
/-- BAD_SEQ (R67). -/
def stBadSeq : Nat := 10
/-- EPOCH_AHEAD (R67). -/
def stAhead : Nat := 11
/-- FAILED (R67). -/
def stFailed : Nat := 12

/-- The request in a request area (R65). -/
def requestOf (area : Bytes) : Request :=
  let len := uAt area 6 2
  { opcode := uAt area 0 2, seq := uAt area 2 2, epoch := uAt area 4 2, length := len, payload := slice area 8 (min len 504) }

/-- The bytes of a reply (R66). -/
def replyBytes (status seq epoch : Nat) (payload : Bytes) : Bytes :=
  leBytes 2 status ++ leBytes 2 seq ++ leBytes 2 epoch ++ leBytes 2 payload.length ++ payload

/-- The payload of a refusal without a layout of its own (R68). -/
def reasonPayload (reason failIndex : Nat) : Bytes := leBytes 1 reason ++ [0] ++ leBytes 2 failIndex

/-- A mailbox enters DONE with a reply in its reply area, and the interrupt is sent (R61, R64). -/
def State.enterDone (s : State) (mb : Nat) (reply : Bytes) : State :=
  irqSince s ((s.modBox mb fun b => { b with state := .done, reply, taken := none, waiting := .none }).updHatch fun h =>
    { h with active := h.active.filter (· != mb) })

/-- Writes the reply of a taken request; a completed one is kept (R66, R69, log 26). -/
def State.writeReply (s : State) (mb status : Nat) (payload : Bytes) (keep : Bool) : State :=
  match (s.box mb).taken with
  | none => s
  | some q =>
    let r := replyBytes status q.seq s.twin.epoch payload
    let s1 := if status = stBusy then s.bump 0x0206 noInst 0 else s
    let s2 := if keep && status != stBusy then s1.modBox mb fun b => { b with kept := some { req := q, reply := r } } else s1
    s2.enterDone mb r

/-- The reply of a command that has reached its own checks (R69). -/
def State.reply (s : State) (mb status : Nat) (payload : Bytes) : State := s.writeReply mb status payload true

/-- A reply OK. -/
def State.replyOk (s : State) (mb : Nat) (payload : Bytes) : State := s.reply mb stOk payload

/-- A refusal by a command's own checks in the form of R68. -/
def State.refuse (s : State) (mb status reason : Nat) (failIndex : Nat := 0xFFFF) : State :=
  s.reply mb status (reasonPayload reason failIndex)

/-- A command's own BUSY with its retry-after time in µs (R68, R91). -/
def State.busy (s : State) (mb retry : Nat) : State := s.reply mb stBusy (leBytes 4 retry)

/-- A reply by a generic check (R68, R674). -/
def State.generic (s : State) (mb status reason : Nat) (failIndex : Nat := 0xFFFF) : State :=
  s.writeReply mb status (reasonPayload reason failIndex) false

/-- Whether a mailbox is the first taken of those whose command has not begun: requests take effect in the order in which Ubfer took them,
whichever objects they act on (R63, log 108). -/
def State.myTurn (s : State) (mb : Nat) : Bool :=
  match s.hatch.active.find? fun m => decide ((s.box m).state = .active) && decide ((s.box m).waiting = .none) with
  | some m => m == mb
  | none => true

/-- Runs a command on the mailbox whose taken request has its opcode, once the requests taken before it have begun (R63). A command with a point of commitment first ends with
STALE_EPOCH where the role has changed since the epoch check (R71, log 23). -/
def State.withCmd (s : State) (mb op : Nat) (commits : Bool) (f : Request → State → State) : State :=
  match (s.box mb).taken with
  | none => s
  | some q =>
    if (s.box mb).state ≠ .active ∨ (s.box mb).waiting ≠ .none ∨ q.opcode ≠ op ∨ s.myTurn mb = false then s
    else if commits && q.epoch != s.twin.epoch then s.refuse mb stStale 0
    else f q s

/-- Marks what an executing command's reply waits for. -/
def State.waitFor (s : State) (mb : Nat) (w : Waiting) : State := s.modBox mb fun b => { b with waiting := w }

/-- Discards every held set (R79, R92). -/
def State.discardHeld (s : State) : State :=
  (List.range 8).foldl (fun s n => s.modBox n fun b => { b with held := [] }) s

/-! ### Blocks queued on links -/

/-- The link whose queue feeds a lane: the twin lanes share one stream (R371). -/
def queueLane (lane : Nat) : Nat := if lane = 131 then 130 else lane

/-- Queues a block behind the others of a lane (R141, R408, log 22). -/
def State.queueBlock (s : State) (lane type payload : Nat) : State :=
  s.modLink (queueLane lane) fun l => { l with queue := l.queue ++ [{ type, payload }] }

/-- Sends a block on both twin lanes (R371, log 22). -/
def State.twinSend (s : State) (type payload : Nat) : State := if s.twinLinkUp then s.queueBlock 130 type payload else s

/-- A payload field: a value placed with its lowest bit at a position of P[95:0] (R135). -/
def pf (lo v : Nat) : Nat := v * 2 ^ lo

/-! ### Forwarding to the standby -/

/-- The bytes a forwarded request is sent as: its EPOCH first, then opcode, length and payload (R371). -/
def fwdBytes (q : Request) : Bytes := leBytes 2 q.epoch ++ leBytes 2 q.opcode ++ leBytes 2 q.length ++ [0, 0] ++ q.payload

/-- The TW_FWD blocks of a byte string, in 8-byte chunks from an index on; the fuel is the number of chunks (R371). -/
def fwdChunks (xfer : Nat) : Nat → Nat → Bytes → List Nat
  | 0, _, _ => []
  | n + 1, idx, l =>
    (pf 88 xfer + pf 76 (idx % 4096) + pf 75 (b2n (n == 0)) + leNat ((slice l 0 8).reverse)) :: fwdChunks xfer n (idx + 1) (l.drop 8)

/-- Queues the forwarded form of a taken request on the twin lanes, with the pantry bytes it names where it names some
(R72, R373, log 16). -/
def State.forwardRequest (s : State) (mb : Nat) (q : Request) (data : Bytes := []) : State :=
  let d := fwdBytes q ++ data
  let x := s.twin.xfer
  let s1 := (fwdChunks x (ceilDiv d.length 8) 0 d).foldl (fun s p => s.twinSend 0x34 p) s
  s1.updTwin fun t => { t with xfer := (x + 1) % 256, fwdOut := t.fwdOut ++ [{ mb, xfer := x, at_ := s.mono }] }

/-- Whether a write that R72 would forward is refused because the twin link is down and the peer is alive (R373). -/
def State.forwardBarred (s : State) : Bool := s.hasStandby && !s.twinLinkUp && s.twin.peerAlive

/-- The tick time from which boundaries adopt a commit accepted now. In a pair it is the end of the 200 µs within which the standby must
have acknowledged, so that both units adopt at the same boundaries (R40, R325, R373, log 115). -/
def State.adoptSince (s : State) : Nat := if s.hasStandby then s.now + us 200 else s.now

/-- Ends an accepted configuration write: the reply at once, or held until the standby acknowledges (R72, R373). -/
def State.finishWrite (s : State) (mb : Nat) (q : Request) (payload : Bytes) (data : Bytes := []) : State :=
  if s.hasStandby then (s.forwardRequest mb q data).waitFor mb (.standbyAck stOk payload) else s.replyOk mb payload

/-- Whether another mailbox's package, not yet DONE, holds a page (R614). -/
def State.pkgHolds (s : State) (mb pg : Nat) : Bool :=
  match s.fw.pkg with
  | some (m, pages) =>
    m != mb && pages.contains pg && decide ((s.box m).state = .active) && ((s.box m).taken.map (·.opcode)) == some 0x1815
  | none => false

/-- Runs a command whose effect R72 forwards: refused while it cannot be (R373), and answered BUSY by a former active during
a switch (R387) and while a package writes its page (R614). -/
def State.withWrite (s : State) (mb op : Nat) (f : Request → State → State) : State :=
  s.withCmd mb op true fun q s =>
    if s.twin.handoverUntil.isSome then s.busy mb 20
    else if s.forwardBarred then s.refuse mb stRefused 0x80
    else if s.pkgHolds mb (op / 256) then s.busy mb 1000
    else f q s

end Sys2Proof.Machine
end

