-- ==== Sys2Proof/Machine/BlockOps.lean ====
section
/-!
DEFINITION. The Ahnub block: bits in transmission order, the check and the scrambler (R135 to R138).
-/

namespace Sys2Proof.Machine

/-- The low n bits of a number, the highest first. -/
def bitsMsb : Nat → Nat → List Bool
  | 0, _ => []
  | n + 1, v => bit v n :: bitsMsb n v

/-- The number a list of bits spells, the first the highest. -/
def ofMsb (l : List Bool) : Nat := l.foldl (fun n b => 2 * n + b2n b) 0

/-- One bit into the check register of R137. -/
def crc16Bit (c : Nat) (b : Bool) : Nat :=
  let s := 2 * c % 65536
  if bit c 15 != b then s ^^^ 0x1021 else s

/-- The CRC-16 of R137 over bits in transmission order. -/
def crc16 (l : List Bool) : Nat := l.foldl crc16Bit 0xFFFF

/-- One step of the scrambler's register (R138). -/
def scramNext (s : Nat) : Nat :=
  2 * s % 65536 + b2n (bit s 15 != (bit s 13 != (bit s 12 != bit s 10)))

/-- Bits XORed with the scrambler's output from a register value on (R138). -/
def scramble : Nat → List Bool → List Bool
  | _, [] => []
  | s, b :: r => (b != bit s 15) :: scramble (scramNext s) r

/-- The header of a block (R136). -/
def blockHeader (type etag seq : Nat) : Nat := type % 64 * 2 ^ 10 + etag % 4 * 2 ^ 8 + seq % 256

/-- The 128 bits of a block as they are sent: header, scrambled payload and check (R135 to R138). -/
def blockBits (type etag seq payload : Nat) : List Bool :=
  let h := bitsMsb 16 (blockHeader type etag seq)
  let p := bitsMsb 96 payload
  let c := bitsMsb 16 (crc16 (h ++ p))
  h ++ scramble (blockHeader type etag seq ||| 1) (p ++ c)

/-- The symbol value of a bit pair, first bit first (R100). -/
def symOf (a b : Bool) : Nat := if a then (if b then 2 else 3) else (if b then 1 else 0)

/-- The symbols of bits in transmission order (R100). -/
def symbols : List Bool → List Nat
  | a :: b :: r => symOf a b :: symbols r
  | _ => []

/-- The precoder: the symbols sent, from the last symbol sent before (R101). -/
def precode : Nat → List Nat → List Nat
  | _, [] => []
  | y, x :: r => let z := (x + 4 - y % 4) % 4; z :: precode z r

/-- The receive side of the precoder: the symbols recovered, from the last symbol received before (R101). -/
def unprecode : Nat → List Nat → List Nat
  | _, [] => []
  | y, z :: r => (z + y) % 4 :: unprecode z r

/-- The bits of a symbol value, first bit first (R100). -/
def symBits (x : Nat) : Bool × Bool := (decide (2 ≤ x), x == 1 || x == 2)

/-- A received symbol as its level reads with LANE_POLARITY bit 1 applied (R102). -/
def invertRx (invert : Bool) (x : Nat) : Nat := if invert then 3 - x else x

/-- The marker of the wake burst: its symbols 48 to 63 (R124). -/
def burstMarker : List Int := [-3, -3, 3, 3, -3, 3, -3, -3, 3, 3, 3, -3, 3, -3, -3, 3]

/-- The levels of the wake burst, inverted where the polarity bit is set; it is not precoded (R102, R124). -/
def wakeBurst (invert : Bool) : List Int :=
  (((List.range 48).map fun k => if k % 2 = 0 then (3 : Int) else -3) ++ burstMarker).map fun x => if invert then -x else x

/-! ### Test patterns (R126) -/

/-- The bits a pattern's generator holds: 13 for PRBS13Q (0), 31 for PRBS31 (1). -/
def patWidth (pattern : Nat) : Nat := if pattern = 0 then 13 else 31

/-- The next bit of a pattern from the latest ones, the newest in bit 0: x^31 + x^28 + 1 (R126), or the polynomial of PRBS13Q, which the
spec takes from IEEE 802.3 Clause 120 (log 118). -/
def patBit (pattern g : Nat) : Bool :=
  if pattern = 0 then bit g 12 != (bit g 11 != (bit g 1 != bit g 0)) else bit g 30 != bit g 27

/-- A bit taken into a generator. -/
def patPush (pattern g : Nat) (b : Bool) : Nat := (2 * g + b2n b) % 2 ^ patWidth pattern

/-- The next symbol of a pattern, two bits under R100, and the generator after it. -/
def patSymbol (pattern g : Nat) : Nat × Nat :=
  let a := patBit pattern g
  let g1 := patPush pattern g a
  let b := patBit pattern g1
  (symOf a b, patPush pattern g1 b)

/-- The next n symbols of a pattern, and the generator after them. -/
def patSymbols (pattern : Nat) : Nat → Nat → List Nat × Nat
  | 0, g => ([], g)
  | n + 1, g =>
    let x := patSymbol pattern g
    let r := patSymbols pattern n x.2
    (x.1 :: r.1, r.2)

/-- The level of a symbol, inverted where the polarity bit is set (R100, R102). -/
def levelOf (invert : Bool) (x : Nat) : Int := (if invert then -1 else 1) * (2 * (x : Int) - 3)

end Sys2Proof.Machine
end

