-- ==== Sys2Proof/Machine/RollOps.lean ====
section
/-!
DEFINITION. The cell roll as the other chapters see it: the fields of an entry, the members of a string (R20 to R31), and the
checks of a commit (R34).
-/

namespace Sys2Proof.Machine

/-! ### Sorting -/

/-- Inserts an element into a sorted list. -/
def insertLe {α : Type} (le : α → α → Bool) (x : α) : List α → List α
  | [] => [x]
  | y :: r => if le x y then x :: y :: r else y :: insertLe le x r

/-- A stable insertion sort. -/
def sortLe {α : Type} (le : α → α → Bool) (l : List α) : List α := l.foldr (insertLe le) []

/-! ### The fields of an entry (R25) -/

/-- An entry of a roll: 128 bytes, all 0 where none is listed. -/
def entryOf (t : Tab Bytes) (lane : Nat) : Bytes := (t.get? lane).getD (List.replicate 128 0)

/-- The working entry of a lane. -/
def State.entry (s : State) (lane : Nat) : Bytes := entryOf s.roll.working lane

/-- CELL_TYPE (R20). -/
def eType (e : Bytes) : Nat := uAt e 0 1
/-- STRING (R25). -/
def eStr (e : Bytes) : Nat := uAt e 2 1
/-- POSITION (R25). -/
def ePos (e : Bytes) : Nat := uAt e 3 1
/-- START_BYPASSED (R25). -/
def eStartByp (e : Bytes) : Bool := bit (uAt e 1 1) 1
/-- VCAP_RATED (R25). -/
def eVcap (e : Bytes) : Nat := uAt e 4 2
/-- CAPACITANCE (R25). -/
def eCap (e : Bytes) : Nat := uAt e 6 2
/-- A byte of SWITCH_MAP (R23). -/
def eMap (e : Bytes) (b : Nat) : Nat := uAt e (0x10 + b) 1
/-- GAIN of a channel (R25). -/
def eGain (e : Bytes) (c : Nat) : Int := sAt e (0x20 + 4 * c) 2
/-- OFFSET of a channel (R25). -/
def eOffset (e : Bytes) (c : Nat) : Int := sAt e (0x22 + 4 * c) 2
/-- CHANNEL_KIND of a channel (R27). -/
def eKind (e : Bytes) (c : Nat) : Nat := uAt e (0x40 + c) 1
/-- ENDPOINT_ID (R25). -/
def eId (e : Bytes) : Nat := uAt e 0x48 8
/-- ENTRY_TAG (R25). -/
def eTag (e : Bytes) : Bytes := slice e 0x50 4

/-- Whether an entry is enabled (R31). -/
def eEnabled (e : Bytes) : Bool := eType e != 0 && bit (uAt e 1 1) 0

/-- Whether a type has switches (R20). -/
def typeSwitches (t : Nat) : Bool := inR t 1 4

/-- How many legs a type has (R20). -/
def typeLegs (t : Nat) : Nat := if t = 1 then 6 else if typeSwitches t then 1 else 0

/-- USED of a SWITCH_MAP byte (R23). -/
def mapUsed (b : Nat) : Bool := bit b 7
/-- SIDE of a SWITCH_MAP byte: true for an upper switch (R23). -/
def mapUpper (b : Nat) : Bool := bit b 4
/-- LEG of a SWITCH_MAP byte (R23). -/
def mapLeg (b : Nat) : Nat := bits b 2 0

/-- The bit of the switch-state word that drives a switch, if it is mapped (R23). -/
def mapBit (e : Bytes) (leg : Nat) (upper : Bool) : Option Nat :=
  (List.range 16).find? fun b => mapUsed (eMap e b) && mapLeg (eMap e b) == leg && mapUpper (eMap e b) == upper

/-- The word bit of a switch as a mask, 0 where it is not mapped. -/
def mapMask (e : Bytes) (leg : Nat) (upper : Bool) : Nat :=
  match mapBit e leg upper with
  | some b => 2 ^ b
  | none => 0

/-! ### Strings -/

/-- A string of the modulator. -/
def State.str (s : State) (n : Nat) : Str := s.mod.str.get {} n

/-- Changes a string. -/
def State.modStr (s : State) (n : Nat) (f : Str → Str) : State :=
  s.updMod fun m => { m with str := m.str.mod {} n f }

/-- A cell lane of the modulator. -/
def State.ml (s : State) (n : Nat) : ModLane := s.mod.lane.get {} n

/-- Changes a cell lane of the modulator. -/
def State.modMl (s : State) (n : Nat) (f : ModLane → ModLane) : State :=
  s.updMod fun m => { m with lane := m.lane.mod {} n f }

/-- The protection of a string. -/
def State.prt (s : State) (n : Nat) : ProtStr := s.prot.str.get {} n

/-- Changes the protection of a string. -/
def State.modPrt (s : State) (n : Nat) (f : ProtStr → ProtStr) : State :=
  s.updProt fun p => { p with str := p.str.mod {} n f }

/-- The bypass state of a lane. -/
def State.byp (s : State) (n : Nat) : Byp := s.prot.byp.get {} n

/-- Changes the bypass state of a lane. -/
def State.modByp (s : State) (n : Nat) (f : Byp → Byp) : State :=
  s.updProt fun p => { p with byp := p.byp.mod {} n f }

/-- Whether a string is stopped: MOD_STATE reads STOPPED (R265), or there is no such string (log 28). -/
def State.strStopped (s : State) (n : Nat) : Bool := decide (16 ≤ n) || decide ((s.str n).st = .stopped)

/-- Whether a string runs: STARTING, RUNNING or STOPPING (R265). -/
def State.strRuns (s : State) (n : Nat) : Bool :=
  decide ((s.str n).st = .starting) || decide ((s.str n).st = .running) || decide ((s.str n).st = .stopping)

/-- The string a lane's working entry names. -/
def State.strOf (s : State) (lane : Nat) : Nat := eStr (s.entry lane)

/-- The lanes whose working entry has a type and names a string, in lane order. -/
def State.lanesOf (s : State) (str : Nat) : List Nat :=
  (s.roll.working.cells.filter fun c => eType c.2 != 0 && eStr c.2 == str).map (·.1)

/-- The enabled switching members of a string in ascending order of position (R22). -/
def State.members (s : State) (str : Nat) : List Nat :=
  ((sortLe (fun a b => decide (ePos a.2 ≤ ePos b.2))
    (s.roll.working.cells.filter fun c => eEnabled c.2 && typeSwitches (eType c.2) && eStr c.2 == str))).map (·.1)

/-- The switching type of a string, 0 if it has none (R21). -/
def State.strType (s : State) (str : Nat) : Nat :=
  match s.members str with
  | l :: _ => eType (s.entry l)
  | [] => 0

/-- Whether a lane holds a bypass record (R344). -/
def State.bypassed (s : State) (lane : Nat) : Bool := (s.byp lane).held.isSome

/-- The enabled members of a string that are not bypassed. -/
def State.activeMembers (s : State) (str : Nat) : List Nat := (s.members str).filter fun l => !s.bypassed l

/-- Whether the dark hold excuses a lost MV member (R353). -/
def State.darkExempt (s : State) (lane : Nat) : Bool :=
  let e := s.entry lane
  let r := s.prot.ride
  let st := if r.st = .halted then r.halted else r.st
  eEnabled e && eType e == 1 && decide (eStr e < 16) && bits (s.pu 0x0C0B noInst 4 4) (2 * eStr e + 1) (2 * eStr e) != 0 &&
    (decide (st = .dark) || decide (st = .dewWait) || decide (st = .precharge))

/-! ### The checks of a commit (R30, R34) -/

/-- Whether the H fields of two entries are the same (R28, log 28). -/
def sameH (a b : Bytes) : Bool :=
  slice a 0 1 == slice b 0 1 && slice a 2 2 == slice b 2 2 && slice a 0x10 16 == slice b 0x10 16 &&
    slice a 0x40 8 == slice b 0x40 8

/-- Whether a change of H fields of a lane is allowed (R30, log 28). -/
def State.hAllowed (s : State) (old new : Bytes) : Bool :=
  sameH old new || (!eEnabled old && !eEnabled new) || (s.strStopped (eStr old) && s.strStopped (eStr new))

/-- The used bytes of a SWITCH_MAP. -/
def usedMap (e : Bytes) : List Nat := ((List.range 16).map (eMap e)).filter mapUsed

/-- Whether two used bytes name the same LEG and SIDE. -/
def dupSwitch : List Nat → Bool
  | [] => false
  | b :: r => r.any (fun c => mapLeg c == mapLeg b && mapUpper c == mapUpper b) || dupSwitch r

/-- Whether every RSVD field of an entry is 0 (R23, R25). -/
def entryRsvd (e : Bytes) : Bool :=
  decide (uAt e 1 1 < 4) && zeroAt e 0x0C 4 && zeroAt e 0x54 44 &&
    ((List.range 16).all fun b => bits (eMap e b) 6 5 == 0 && !bit (eMap e b) 3)

/-- The reason a lane's entry of the set fails for, 0 if none (R34, log 27). -/
def State.entryReason (s : State) (set : Tab Bytes) (lane : Nat) : Nat :=
  let e := entryOf set lane
  let t := eType e
  let lower := (List.range lane).map (entryOf set)
  let u := usedMap e
  if 5 < t then 0x01
  else if eEnabled e && (decide (15 < eStr e) || decide (63 < ePos e)) then 0x02
  else if eEnabled e && lower.any (fun d => eEnabled d && eStr d == eStr e && ePos d == ePos e) then 0x03
  else if typeSwitches t && u.any (fun b => decide (typeLegs t ≤ mapLeg b)) then 0x04
  else if dupSwitch u then 0x05
  else if t == 1 && ((mapBit e 0 false).isNone || (mapBit e 1 false).isNone) then 0x06
  else if (t == 0 || t == 5) && !u.isEmpty then 0x07
  else if eEnabled e && typeSwitches t &&
      lower.any (fun d => eEnabled d && typeSwitches (eType d) && eStr d == eStr e && eType d != t) then 0x08
  else if eEnabled e && typeSwitches t && eVcap e == 0 then 0x09
  else if (List.range 8).any (fun c => decide (5 < eKind e c)) then 0x0A
  else if !entryRsvd e then 0x0B
  else if !s.hAllowed (s.entry lane) e then 0x0C
  else 0

/-- The first failing lane of a set and its reason (R34): lanes that are all 0 in the set and in the working roll pass. -/
def State.setReason (s : State) (set : Tab Bytes) : Option (Nat × Nat) :=
  (List.range 128).findSome? fun l =>
    if (set.get? l).isNone && (s.roll.working.get? l).isNone then none
    else
      let r := s.entryReason set l
      if r = 0 then none else some (l, r)

end Sys2Proof.Machine
end

