-- ==== Sys2Proof/Machine/LinkOps.lean ====
section
/-!
DEFINITION. The link of a lane as other chapters use it: sending a block, receiving one, ROLE, COAST_CFG, PARAM exchanges,
authentication and the two-way time exchange (R139 to R173, R202 to R205).
-/

namespace Sys2Proof.Machine

/-! ### Block types (R140) -/

/-- IDLE. -/
def tyIdle : Nat := 0x00
/-- EDGE. -/
def tyEdge : Nat := 0x01
/-- EDGE_PAIR. -/
def tyPair : Nat := 0x02
/-- BYPASS. -/
def tyBypass : Nat := 0x03
/-- PARAM. -/
def tyParam : Nat := 0x05
/-- TIME_SYNC from head to endpoint, or a SYNC or DELAY_RESP on a service lane. -/
def tyTime : Nat := 0x06
/-- ROLE. -/
def tyRole : Nat := 0x07
/-- COAST_CFG. -/
def tyCoast : Nat := 0x08
/-- IMAGE_CHUNK. -/
def tyImage : Nat := 0x09
/-- AUTH downstream. -/
def tyAuth : Nat := 0x0A
/-- REPLY on a service lane. -/
def tyReply : Nat := 0x25

/-- A field of a payload: bits hi to lo of P (R135). -/
def pbits (p : BitVec 96) (hi lo : Nat) : Nat := bits p.toNat hi lo

/-! ### Time stamps -/

/-- Tick time in 1/16 tick, with the interpolator's phase (R187). -/
def State.fine (s : State) : Nat := 16 * s.now + 16 * s.time.frac / 1000000000

/-- The fine T1 of a block whose first symbol is stamped now (R202). -/
def State.fineTx (s : State) : Nat := s.fine + 16 * 184

/-- The fine arrival stamp of a block received now (R202, log 40). -/
def State.fineRx (s : State) : Int := (s.fine : Int) - 16 * 312

/-- A lane's delay filter. -/
def State.dly (s : State) (lane : Nat) : DelayFilter := s.time.delay.get {} lane

/-- Changes a lane's delay filter. -/
def State.modDly (s : State) (lane : Nat) (f : DelayFilter → DelayFilter) : State :=
  s.updTime fun t => { t with delay := t.delay.mod {} lane f }

/-- LANE_DELAY in 1/16 tick: the mean of the measurements held (R205). -/
def DelayFilter.mean (d : DelayFilter) : Nat :=
  if d.meas.isEmpty then 0 else d.meas.foldl (· + ·) 0 / d.meas.length

/-- LANE_DELAY in whole ticks, to nearest. -/
def State.laneDelay (s : State) (lane : Nat) : Nat := ((s.dly lane).mean + 8) / 16

/-- LEAD of R208 in ticks. -/
def State.lead (s : State) (lane : Nat) : Nat := s.laneDelay lane + 184 + 103 + 1600 + s.p0 0x060C

/-! ### Sending -/

/-- The role code in a ROLE block: as GSTAT.ROLE (R143). -/
def State.roleCode (s : State) : Nat := s.twin.role.code

/-- The payload of a ROLE block stamped now: its first symbol leaves the head 184 ticks later (R143, R202). -/
def State.rolePayload (s : State) (lane : Nat) : Nat :=
  pf 80 s.twin.epoch + pf 72 s.roleCode + pf 69 s.headId + pf 68 s.unit + pf 56 lane + pf 16 ((s.shortNow + 184) % 2 ^ 32)

/-- The last moment's fields of a block: the send times of SYNC and REPLY (R167, R204, R407). -/
def State.stampPayload (s : State) (type payload : Nat) : Nat :=
  if type = tyTime ∧ bits payload 95 88 = 1 then payload / 2 ^ 64 * 2 ^ 64 + (s.fineTx + 8) / 16 % 2 ^ 64
  else if type = tyReply then payload / 2 ^ 32 * 2 ^ 32 + (s.fineTx + 8) / 16 % 2 ^ 32
  else payload

/-- What sending a block does to its sender's own records (R143, R163, R165, R170, R204). -/
def State.noteSent (s : State) (lane type payload : Nat) : State :=
  if type = tyTime ∧ bits payload 95 88 = 1 then
    s.modDly lane fun d =>
      { d with exch := some { id := bits payload 87 80, t1 := s.fineTx, at_ := s.mono, stepNo := s.time.stepNo } }
  else if type = tyRole then s.modLink lane fun l => { l with roleOwed := false, roleRepeat := false, sinceRole := 0 }
  else if type = tyParam then
    s.modLink lane fun l => { l with param := l.param.map fun x => { x with sentAt := s.mono, sent := true } }
  else if type = tyCoast then s.modLink lane fun l => { l with coastSent := true }
  else if type = tyAuth ∧ bits payload 95 88 = 1 then s.modLink lane fun l => { l with authAt := s.mono }
  else s

/-- Symbols as a lane sends them, precoded where LANE_PRECODE is 1 (R101). -/
def State.precoded (s : State) (lane : Nat) (x : List Nat) : List Nat :=
  if s.pu 0x0402 lane 0 1 = 1 then precode (s.lane lane).txSym x else x

/-- Puts symbols out on a lane, behind the wake burst where one is due (R100 to R102, R124). -/
def State.putOut (s : State) (lane : Nat) (x : List Nat) : State :=
  let y := s.precoded lane x
  let inv := bit (s.pu 0x0403 lane 0 1) 0
  s.modLane lane fun l =>
    { l with txSym := y.getLastD l.txSym, burst := false, lineOut := (if l.burst then wakeBurst inv else []) ++ y.map (levelOf inv) }

/-- The lane leaves electrical idle: a wake burst is due, and the precoder starts from 0 (R101, R124). -/
def State.burstDue (s : State) (lane : Nat) : State := s.modLane lane fun l => { l with burst := true, txSym := 0, burstAt := s.mono }

/-- Sends one block on a lane with an ETAG: its header takes the next SEQ (R136, R139). -/
def State.sendTagged (s : State) (lane tag type payload : Nat) : State :=
  let p := s.stampPayload type payload
  let b := blockBits type tag (s.lnk lane).downSeq p
  let s1 := s.putOut lane (symbols b)
  (s1.modLink lane fun l =>
    { l with lastOut := ofMsb b, downSeq := (l.downSeq + 1) % 256, sinceRole := l.sinceRole + 1 }).noteSent lane type p

/-- Sends one block on a lane with the tag of the unit's own epoch (R136, R139). -/
def State.sendBlock (s : State) (lane type payload : Nat) : State := s.sendTagged lane (s.twin.epoch % 4) type payload

/-! ### What may be sent -/

/-- Whether a lane has passed authentication (R172). -/
def Link.passed (l : Link) : Bool := decide (l.auth = .passed) || decide (l.auth = .open_)

/-- Whether only ROLE, TIME_SYNC, AUTH and IDLE may be sent: role NONE, or not authenticated (R143, R172). -/
def State.restricted (s : State) (lane : Nat) : Bool := decide (s.twin.role = .none) || !(s.lnk lane).passed

/-- Whether a lane has a working link for R43: its state, and authentication passed (R109, R172). -/
def State.workingLink (s : State) (lane : Nat) : Bool := (s.lane lane).st.working && (s.lnk lane).passed

/-- Whether timed actions may be sent: authenticated, the first COAST_CFG sent, DT_FLOOR read (R165, R172, R277). -/
def State.timedOk (s : State) (lane : Nat) : Bool :=
  let l := s.lnk lane
  !s.restricted lane && l.coastSent && l.floorDone

/-! ### COAST_CFG (R165) -/

/-- Whether power-save idle is permitted on a lane, but for the count of IDLE blocks (R122). -/
def State.idleOk (s : State) (lane : Nat) : Bool :=
  decide (lane < 128) && decide (s.pu 0x040C lane 0 1 = 1) && (!eEnabled (s.entry lane) || s.strStopped (s.strOf lane))

/-- The payload of COAST_CFG for a lane. -/
def State.coastPayload (s : State) (lane : Nat) : Nat :=
  pf 88 (s.pu 0x0504 lane 0 1) + pf 80 (b2n (s.idleOk lane)) + pf 64 (s.pu 0x0505 lane 0 2) + pf 48 (s.p0 0x0506) +
    pf 32 (s.pu 0x0507 lane 0 2) + pf 16 (s.p0 0x040D + 2)

/-- IDLE_OK as it now is; where it has ended, UP_LOSS_TIME counts from here (R165, R179). -/
def State.idleWatch (s : State) (lane : Nat) : State :=
  let ok := s.idleOk lane
  if (s.lnk lane).idleWas = ok then s
  else s.modLink lane fun l => { l with idleWas := ok, validAt := if ok then l.validAt else s.mono }

/-- Queues COAST_CFG on an authenticated lane where a value it carries has changed, or none was sent. -/
def State.coastRefresh (s0 : State) (lane : Nat) : State :=
  let s := s0.idleWatch lane
  let p := s.coastPayload lane
  if (s.lnk lane).passed && (s.lnk lane).coast != some p then
    (s.queueBlock lane tyCoast p).modLink lane fun l => { l with coast := some p }
  else s

/-- The same for several lanes. -/
def State.coastLanes (s : State) (lanes : List Nat) : State := lanes.foldl State.coastRefresh s

/-! ### PARAM exchanges (R163) -/

/-- Queues the PARAM block of an exchange (R163). -/
def State.paramSend (s : State) (lane : Nat) (x : ParamExch) : State :=
  s.queueBlock lane tyParam (pf 80 x.id + pf 72 x.op + pf 64 x.tag + pf 32 x.value)

/-- Starts an exchange, or queues it behind the one in progress. -/
def State.paramStart (s : State) (lane : Nat) (w : ParamWait) : State :=
  let l := s.lnk lane
  if l.param.isSome then s.modLink lane fun l => { l with paramWait := l.paramWait ++ [w] }
  else
    let x : ParamExch := { id := w.id, op := w.op, tag := l.paramTag, value := w.value, tries := 1, sentAt := s.mono, for_ := w.for_ }
    (s.modLink lane fun l => { l with param := some x, paramTag := (l.paramTag + 1) % 256 }).paramSend lane x

/-- Ends an access whose PARAM block has not been sent with STALE_EPOCH, where a mailbox asked for it: the role has changed before its point of
commitment (R71, R184). -/
def State.paramStale (s : State) : ParamFor → State
  | .mailbox mb => s.refuse mb stStale 0
  | .dtFloor => s

/-- Whether a mailbox asked for an access. -/
def ParamFor.host : ParamFor → Bool
  | .mailbox _ => true
  | .dtFloor => false

/-- Ends the exchange in progress with its result and hands it on; the next waiting access starts (R163, R184, R277). -/
def State.paramEnd (s : State) (lane : Nat) (res : Option (Nat × Nat)) : State :=
  match (s.lnk lane).param with
  | none => s
  | some x =>
    let s1 := s.modLink lane fun l => { l with param := none }
    let s2 := match x.for_ with
      | .mailbox mb =>
        match res with
        | some (r, v) => s1.replyOk mb (leBytes 1 r ++ leBytes 1 x.tries ++ [0, 0] ++ leBytes 4 v)
        | none => (s1.refuse mb stFailed 0x26)
      | .dtFloor => (s1.modLink lane fun l => { l with floorDone := true }).later (.dtFloor lane res)
    let s3 := if res.isNone then s2.bump 0x050B lane 4 else s2
    match (s3.lnk lane).paramWait with
    | [] => s3
    | w :: r => (s3.modLink lane fun l => { l with paramWait := r }).paramStart lane w

/-- A role change ends the host's accesses of a lane that have not been sent (R71, R184). -/
def State.paramRole (s : State) (lane : Nat) : State :=
  let wait := (s.lnk lane).paramWait
  let s1 := (wait.filter fun w => w.for_.host).foldl (fun s w => s.paramStale w.for_) s
  let s2 := s1.modLink lane fun l => { l with paramWait := wait.filter fun w => !w.for_.host }
  match (s2.lnk lane).param with
  | none => s2
  | some x =>
    if x.sent || !x.for_.host then s2
    else
      let s3 := (s2.paramStale x.for_).modLink lane fun l => { l with param := none, queue := l.queue.filter fun b => b.type != tyParam }
      match (s3.lnk lane).paramWait with
      | [] => s3
      | w :: r => (s3.modLink lane fun l => { l with paramWait := r }).paramStart lane w

/-! ### Authentication (R170 to R173) -/

/-- Starts an exchange: a fresh NONCE_H and AUTH CHALLENGE, from whose sending the exchange's time counts (R170). -/
def State.authStart (s : State) (lane : Nat) : State :=
  let n := s.freeVal
  ((s.tookFree).modLink lane fun l =>
    { l with auth := .running, authAt := s.mono, nonceH := n, nonceE := none, headOutcome := none, authId := none,
             authCause := 3, coast := none, coastSent := false, floorDone := false }).queueBlock lane tyAuth (pf 88 1 + n)

/-- Writes the reply of an EP_REAUTH that waits for the exchange (R185, log 9). -/
def State.reauthReply (s : State) (lane : Nat) (code : Nat) : State :=
  match (s.lnk lane).authMb with
  | some mb => (s.modLink lane fun l => { l with authMb := none }).replyOk mb (leBytes 1 code ++ [0, 0, 0])
  | none => s

/-- The exchange passes: COAST_CFG goes out, DT_FLOOR is read and does not bind until the read ends (R165, R172, R277). -/
def State.authPass (s : State) (lane : Nat) (as_ : AuthSt) : State :=
  let s1 := ((s.modLink lane fun l => { l with auth := as_ }).updDt fun d =>
    { d with lane := d.lane.mod {} lane fun l => { l with floor := none } }).coastRefresh lane
  ((s1.condOff 0x39 lane 0).paramStart lane { id := 0x000B, op := 0, value := 0, for_ := .dtFloor }).reauthReply lane (if as_ = .open_ then 4 else 2)

/-- The exchange fails: LINK_AUTH_FAIL with its cause, and R43 (R172, R343, R676). -/
def State.authFail (s : State) (lane cause : Nat) : State :=
  let l := s.lnk lane
  let s1 := s.modLink lane fun l => { l with auth := .failed, authAt := s.mono }
  ((s1.fire 0x15 lane (leBytes 1 cause ++ leBytes 8 (l.authId.getD 0))).later (.memberLost lane true)).reauthReply lane 3

/-! ### Entering and leaving LINKED -/

/-- The link of a lane that enters LINKED from ALIGN (R143, R170, R204); a service lane has no authentication. -/
def State.linkEnter (s : State) (lane : Nat) : State :=
  let s1 := s.modLink lane fun l =>
    { l with queue := if lane < 130 then [] else l.queue, copy := none, roleOwed := decide (lane < 128), roleRepeat := false, sinceRole := 0,
             ident := { l.ident with fresh := false }, validAt := s.mono, coast := none, coastSent := false, floorDone := false }
  if lane < 128 then (s1.modDly lane fun d => { d with syncOwed := true }).authStart lane
  else s1.later (.svcLink lane true)

/-- The link of a lane that returns from HUNT to LINKED: an entry into LINKED, so that an IDENT held is an earlier one's (R42, R143, R170). -/
def State.linkReturn (s : State) (lane : Nat) : State :=
  let s1 := s.modLink lane fun l =>
    { l with roleOwed := decide (lane < 128), validAt := s.mono, ident := { l.ident with fresh := false } }
  if lane < 128 then s1.modDly lane fun d => { d with syncOwed := true } else s1.later (.svcLink lane true)

/-- The link of a lane that leaves the states of R109 with a working link: R43 and R343 apply from here (log 39). -/
def State.linkLeave (s : State) (lane : Nat) : State :=
  let s1 := s.modLink lane fun l =>
    { l with queue := if lane < 130 then [] else l.queue, copy := none, roleOwed := false, roleRepeat := false, ident := { l.ident with fresh := false },
             auth := if l.auth = .running then .running else .none }
  if lane < 128 then s1.later (.memberLost lane) else s1

/-! ### Receiving -/

/-- Whether a lane takes received blocks: it is block-locked (R107, R109). -/
def LaneSt.receives : LaneSt → Bool
  | .linked => true
  | .sleep => true
  | _ => false

/-- What every block with a valid CRC does: BLOCKS_RX, the lost blocks its SEQ implies, the end of an upstream loss (R131, R139,
R179). -/
def State.rxValid (s : State) (lane : Nat) (h : RxHeader) : State :=
  let gap := match (s.lnk lane).upSeq with
    | some q => (h.seq.toNat + 255 - q) % 256
    | none => 0
  let s1 := (s.bump 0x040B lane 0).modLane lane fun l => { l with hist := (false :: l.hist).take 64 }
  let s2 := if lane < 128 ∧ 0 < gap then s1.bumpBy 0x050B lane 0 gap else s1
  let s3 := s2.modLink lane fun l => { l with upSeq := some h.seq.toNat, validAt := s.mono, stale := false }
  let s4 := if 130 ≤ lane then
      let s5 := s3.updTwin fun t => { t with rxAt := s.mono, streamLost := false }
      if s.twin.streamLost then s5.later (.svcLink lane true) else s5
    else s3
  if (s.lnk lane).stale then s4.condOff 0x14 lane 0 else s4

/-- Takes the first copy of a twin block; a second copy is discarded. The SEQs of a lost stream are forgotten (R139, R371). -/
def State.twinFirst (s : State) (lane : Nat) (h : RxHeader) (f : State → State) : State :=
  let s1 := s.rxValid lane h
  let dup := match s.twin.rxSeq with
    | some q => decide (sdiff 8 h.seq.toNat q ≤ 0)
    | none => false
  if dup then s1 else f (s1.updTwin fun t => { t with rxSeq := some h.seq.toNat })

/-- Takes a block of a service lane: the first copy of a twin block (R371, R405). -/
def State.svcTake (s : State) (lane : Nat) (h : RxHeader) (f : State → State) : State :=
  if 130 ≤ lane then s.twinFirst lane h f else f (s.rxValid lane h)

/-- Takes a common upstream block: it is used whatever its tag, and a lagging tag is counted (R148). -/
def State.rxCommon (s : State) (lane : Nat) (h : RxHeader) : State :=
  let s1 := s.rxValid lane h
  if h.etag.toNat = s.twin.epoch % 4 then s1 else s1.bump 0x050B lane 2

/-- A per-port upstream block: taken if its tag matches, else discarded, counted, and ROLE is sent in the next free slot (R148). -/
def State.rxPort (s : State) (lane : Nat) (h : RxHeader) (f : State → State) : State :=
  let s1 := s.rxValid lane h
  if h.etag.toNat = s.twin.epoch % 4 then f s1
  else (s1.bump 0x050B lane 1).modLink lane fun l => { l with roleRepeat := true }

/-! ### Identity and type (R42) -/

/-- Compares the IDENT held since the lane's latest entry into LINKED with the working entry. An ENDPOINT_ID of 0 skips the comparison of
identities, and the latest one stands (R42). -/
def State.identCheck (s : State) (lane : Nat) : State :=
  let i := (s.lnk lane).ident
  let e := s.entry lane
  if i.fresh then
    let s1 := if eId e = 0 then s else s.cond (i.id != eId e) 0x16 lane 0 (eTag e ++ leBytes 8 i.id)
    s1.cond (i.cellType != eType e) 0x17 lane 0 (eTag e ++ leBytes 1 i.cellType ++ leBytes 1 (eType e))
  else s

/-! ### Lane delay (R205) -/

/-- Takes one delay measurement in 1/16 tick into a lane's filter (R205, log 40). -/
def State.measure (s : State) (lane : Nat) (m : Int) : State :=
  let d := s.dly lane
  if m < 0 ∨ 16 * (s.p0 0x060B : Int) < m then s.fire 0x19 lane (leBytesI 4 m)
  else
    let n := s.p0 0x0609
    let v := m.toNat
    if n ≤ d.meas.length ∧ 128 < (m - d.mean).natAbs then
      if d.drops + 1 < 4 then s.modDly lane fun d => { d with drops := d.drops + 1 }
      else (s.modDly lane fun d => { d with drops := 0, meas := [v] }).fire 0x18 lane []
    else s.modDly lane fun d => { d with drops := 0, meas := (v :: d.meas).take n }

/-- Takes a REPLY for the exchange outstanding on a lane: measured unless it is late or a step lies between, and answered with
DELAY_RESP (R168, R205, R407). -/
def State.takeReply (s : State) (lane : Nat) (p : BitVec 96) : State :=
  match (s.dly lane).exch with
  | none => s
  | some x =>
    if x.id ≠ pbits p 87 80 then s
    else
      let s0 := s.modDly lane fun d => { d with exch := none }
      if x.at_ + us 20 < s.mono ∨ x.stepNo ≠ s.time.stepNo then s0
      else
        let m := (s.fineRx - x.t1 - 16 * shortDiff (pbits p 31 0) (pbits p 63 32)) / 2
        let s1 := s0.measure lane m
        let resid := (x.t1 : Int) - 16 * ((x.t1 + 8) / 16 : Nat)
        s1.queueBlock lane tyTime (pf 88 2 + pf 80 x.id + pf 32 (wrap 32 ((s1.dly lane).mean + resid)))

/-- Queues a SYNC on a lane with the next exchange's number (R167, R204, log 42). -/
def State.queueSync (s : State) (lane : Nat) : State :=
  let d := s.dly lane
  (s.modDly lane fun d => { d with nextId := (d.nextId + 1) % 256, lastSync := some s.mono, syncOwed := false }).queueBlock lane tyTime
    (pf 88 1 + pf 80 d.nextId)

end Sys2Proof.Machine
end

