-- ==== Sys2Proof/Machine/LaneOps.lean ====
section
/-!
DEFINITION. The lanes and their PLLs: changes of state, training attempts, loss of block lock (R107 to R125).
-/

namespace Sys2Proof.Machine

/-- The code of a lane state (R107). -/
def LaneSt.code : LaneSt → Nat
  | .off => 0
  | .down => 1
  | .halted => 2
  | .trainCdr => 3
  | .trainEq => 4
  | .check => 5
  | .align => 6
  | .linked => 7
  | .sleep => 8
  | .hunt => 9
  | .test => 10
  | .retry => 11

/-- Whether an attempt is in progress (R112). -/
def LaneSt.training : LaneSt → Bool
  | .trainCdr => true
  | .trainEq => true
  | .check => true
  | .align => true
  | _ => false

/-- The rack of a lane; 8 for the service lanes (R96, R130). -/
def rackOf (lane : Nat) : Nat := if lane < 128 then lane / 16 else 8

/-- The lanes of a rack. -/
def rackLanes (k : Nat) : List Nat := if k < 8 then (List.range 16).map (16 * k + ·) else [128, 129, 130, 131]

/-- A lane PLL. -/
def State.rack (s : State) (k : Nat) : Rack := s.lanes.rack.get {} k

/-- Changes a lane PLL. -/
def State.modRack (s : State) (k : Nat) (f : Rack → Rack) : State :=
  s.updLanes fun l => { l with rack := l.rack.mod {} k f }

/-- Whether a lane is OFF by its roll entry or because the function it serves is disabled (R108, R371, R404). -/
def State.laneUnused (s : State) (lane : Nat) : Bool :=
  if lane < 128 then eType (s.entry lane) == 0
  else if lane < 130 then s.p0 0x0E01 == 0
  else !s.twinEn

/-- Whether the transmitter is in electrical idle in a state (R107); the patterns of TEST are the test's own. -/
def LaneSt.idles : LaneSt → Bool
  | .off => true
  | .down => true
  | .halted => true
  | .sleep => true
  | .retry => true
  | _ => false

/-- Whether the DFE may adapt in a state (R104). A lane in SLEEP counts as in electrical idle (log 119). -/
def LaneSt.adapts : LaneSt → Bool
  | .trainCdr => true
  | .trainEq => true
  | .check => true
  | .align => true
  | .linked => true
  | .test => true
  | _ => false

/-- A lane entering a state at a time: an idle gap lasts while blocks are taken, and leaving TEST ends the test (R107, R123, R128). -/
def Lane.enter (l : Lane) (st : LaneSt) (at_ : Nat) : Lane :=
  let gap := l.st.receives && st.receives
  { l with st, stateAt := at_, idleRun := 0, lineOut := if st.idles then [] else l.lineOut,
           rxGap := if gap then l.rxGap else none, wakeFrom := if gap then l.wakeFrom else none,
           dfeAt := if l.st.adapts then l.dfeAt else at_,
           test := if st = .test then l.test else { l.test with mode := 0, chkLock := false } }

/-- Puts a lane into a state; leaving the states with a working link ends the link, and a service lane tells its function. -/
def State.setLane (s : State) (lane : Nat) (st : LaneSt) : State :=
  let old := (s.lane lane).st
  let s1 := s.modLane lane fun l => l.enter st s.mono
  let s2 := if old.working && !st.working then s1.linkLeave lane else s1
  if decide (128 ≤ lane) && decide (old = .linked) && decide (st ≠ .linked) then s2.later (.svcLink lane false) else s2

/-- A seed of PRBS13Q, which the spec does not give: any but 0 (log 118, log 2). -/
def State.seed13 (s : State) : Nat := s.freeVal % 8191 + 1

/-- Starts a training attempt with a number: a wake burst and PRBS13Q go out (R107, R112, R115, R124). -/
def State.startAttempt (s : State) (lane n : Nat) : State :=
  let c := s.pu 0x0406 lane 0 1
  let s1 := ((s.setLane lane .trainCdr).bump 0x040B lane 3).modLane lane fun l =>
    { l with attempt := n, attemptAt := s.mono, tried := 0, best := none, presetFixed := decide (c ≠ 0xFF),
             preset := if c = 0xFF then 0 else c, hist := [], rxSym := 0, eyeAt := s.mono }
  (s1.tookFree.burstDue lane).putOut lane (patSymbols 0 64 s.seed13).1

/-- Whether a lane is held HALTED: a cell lane of a standby that is not QUALIFIED (R370). -/
def State.laneHeld (s : State) (lane : Nat) : Bool := decide (lane < 128) && decide (s.twin.role = .standby) && !s.twin.qualified

/-- Starts an attempt with a fresh retry count, or leaves the lane OFF while it is unused or its PLL is not locked (R108), or HALTED while
it is held so (R370). -/
def State.freshAttempt (s : State) (lane : Nat) : State :=
  if s.laneUnused lane || decide ((s.rack (rackOf lane)).st ≠ .locked) then s.setLane lane .off
  else if s.laneHeld lane then s.setLane lane .halted
  else s.startAttempt lane 0

/-- A failed attempt: RETRY, or DOWN with LANE_TRAIN_FAIL after the last (R115). -/
def State.attemptFail (s : State) (lane : Nat) : State :=
  let l := s.lane lane
  if l.attempt < s.p0 0x040F then s.setLane lane .retry
  else (s.setLane lane .down).fire 0x10 lane (leBytes 1 l.st.code ++ leBytes 1 (l.attempt + 1))

/-- A lane enters HUNT (R118, R125, R131, log 38). -/
def State.enterHunt (s : State) (lane : Nat) : State :=
  ((s.setLane lane .hunt).bump 0x040B lane 2).modLane lane fun l => { l with hist := [] }

/-- A lane loses block lock: HUNT, with LANE_LOCK_LOSS, which the dark hold excuses (R118, R353). -/
def State.lockLoss (s : State) (lane : Nat) : State :=
  if decide (lane < 128) && s.darkExempt lane then s.enterHunt lane else (s.enterHunt lane).fire 0x11 lane []

/-- A lane enters LINKED: the CRC alarm's windows start afresh (R121). -/
def State.enterLinked (s : State) (lane : Nat) : State :=
  let was := (s.lane lane).st
  let s1 := (s.setLane lane .linked).modLane lane fun l =>
    { l with crcWinAt := s.mono, crcWinFails := 0, crcAlarmed := false, hist := [] }
  if was = .hunt then s1.linkReturn lane else s1.linkEnter lane

/-- The lane side of a change of CELL_TYPE in the working roll (R116, R133). -/
def State.laneTypeChanged (s : State) (lane old new : Nat) : State :=
  if old = new then s else s.freshAttempt lane

/-- Whether a lane's DFE adapts now (R104). -/
def State.dfeAdapts (s : State) (lane : Nat) : Bool :=
  let l := s.lane lane
  decide (s.pu 0x0407 lane 0 1 = 0) && l.rxGap.isNone && !(decide (l.st = .test) && l.test.mode == 2) &&
    l.st.adapts

/-- The range of each tap in A/64 (R103). -/
def tapRange : List Int := [48, 32, 16, 16, 16]

/-- A tap after an interval: one unit toward the sign of its sum, within its range (R103, R104). -/
def tapStep (r t sum : Int) : Int := clampI (-r) r (t + Int.sign sum)

/-- The ticks of 2^DFE_RATE decisions at five symbols in eight ticks (R99, R104). -/
def State.dfeTicks (s : State) (lane : Nat) : Nat := ceilDiv (8 * 2 ^ s.pu 0x0408 lane 0 1) 5

/-- A lane with new taps; the taps before them are remembered for 0.5 ms (R112). -/
def Lane.withTaps (l : Lane) (now : Nat) (t : List Int) : Lane :=
  { l with taps := t, tapHist := (now, l.taps) :: l.tapHist.filter fun x => decide (now < x.1 + us 500) }

/-- Whether no tap has moved more than one unit over the latest 0.5 ms: all its values there lie within one unit (R112, log 120). -/
def State.dfeSettled (s : State) (lane : Nat) : Bool :=
  let l := s.lane lane
  let seen := l.taps :: (l.tapHist.filter fun x => decide (s.mono < x.1 + us 500)).map (·.2)
  (List.range 5).all fun i => seen.all fun a => seen.all fun b => decide (a.getD i 0 ≤ b.getD i 0 + 1)

end Sys2Proof.Machine
end

