-- ==== Sys2Proof/Machine/ModOps.lean ====
section
/-!
DEFINITION. The shelves: expanding entries, withdrawing them, and sending them as BYPASS, EDGE and EDGE_PAIR blocks
(R149, R153, R208, R209, R236, R237, R251 to R255).
-/

namespace Sys2Proof.Machine

/-- The code of a BYPASS action (R149). -/
def BypAct.code : BypAct → Nat
  | .enter => 1
  | .hold => 2
  | .release => 3
  | .allOff => 4

/-- A tick time as a short time (R188). -/
def shortOf (t : Int) : Nat := wrap 32 t

/-! ### Words (R236, R237) -/

/-- Whether a switch of a leg is on in a word; an unmapped one is not (R23). -/
def switchOn (e : Bytes) (w leg : Nat) (upper : Bool) : Bool :=
  match mapBit e leg upper with
  | some b => bit w b
  | none => false

/-- The word after one edge: the outgoing switch off, or the incoming switch on, which never joins the other switch of its leg
(R24, R236). -/
def markWord (e : Bytes) (w : Nat) (m : EdgeMark) : Nat :=
  match mapBit e m.leg (m.up != m.off) with
  | some b => if !m.off && switchOn e w m.leg (m.up == m.off) then w else setBit w b (!m.off)
  | none => w

/-- The word after an entry (R237, R264). -/
def entryWord (e : Bytes) (w : Nat) (x : Entry) : Nat :=
  match x.raw with
  | some r => r
  | none => x.marks.foldl (markWord e) w

/-- Whether an edge has a mapped switch to change (R237). -/
def markMapped (e : Bytes) (m : EdgeMark) : Bool := (mapBit e m.leg (m.up != m.off)).isSome

/-! ### Lists of entries in time order -/

/-- Whether two entries are edges of one time that form one entry (R237). -/
def mergeable (a b : Entry) : Bool :=
  a.time == b.time && a.act.isNone && b.act.isNone && a.raw.isNone && b.raw.isNone && !a.sent && !b.sent

/-- Places an entry in time order behind its equals, or merges it with an unsent edge entry of its time (R237). -/
def placeEntry (x : Entry) : List Entry → List Entry
  | [] => [x]
  | y :: r =>
    if mergeable x y then
      { y with marks := y.marks ++ x.marks, node := y.node || x.node, mark := y.mark || x.mark } :: r
    else if x.time < y.time then x :: y :: r
    else y :: placeEntry x r

/-- Whether an entry can no longer be sent by its latest slot (R208). -/
def State.entryLate (s : State) (lane : Nat) (x : Entry) : Bool := x.act.isNone && decide (x.time < (s.now + s.lead lane : Nat))

/-- Adds entries to a lane and expands what waits, in time order, into the 32 places of its shelf. An entry that waited for room beyond its
latest slot counts SHELF_LATE (R251, R254). -/
def State.addEntries (s : State) (lane : Nat) (xs : List Entry) : State :=
  let l := s.ml lane
  let sent := l.shelf.filter (·.sent)
  let all := xs.foldl (fun acc x => placeEntry x acc) ((l.shelf.filter fun x => !x.sent) ++ l.wait)
  let room := 32 - sent.length
  let late := ((all.take room).filter fun x => s.entryLate lane x && l.wait.any fun y => y.time == x.time).length
  let s1 := s.modMl lane fun l =>
    { l with shelf := sent ++ all.take room, wait := all.drop room, maxOcc := max l.maxOcc (sent.length + (all.take room).length) }
  if late = 0 then s1 else s1.bumpBy 0x0810 lane 3 late

/-- Expands waiting entries as room appears. An edge whose time passes while it waits is dropped, and counts LAUNCH_DROPPED and SHELF_LATE
(R209, R251, R254). -/
def State.refill (s : State) (lane : Nat) : State :=
  let l := s.ml lane
  let gone := if l.shelf.all (·.sent) then l.wait.takeWhile fun x => x.act.isNone && !x.held && decide (x.time ≤ (s.now : Int)) else []
  if gone.isEmpty then s.addEntries lane []
  else
    let s1 := s.modMl lane fun l => { l with wait := l.wait.drop gone.length, word := gone.foldl (entryWord (s.entry lane)) l.word }
    ((s1.bumpBy 0x0610 lane 0 gone.length).bumpBy 0x0810 lane 3 gone.length).addEntries lane []

/-- Withdraws the unsent entries of a lane that a predicate names, and expands others into the room (R251, R255). -/
def State.withdraw (s : State) (lane : Nat) (p : Entry → Bool) : State :=
  (s.modMl lane fun l =>
    { l with shelf := l.shelf.filter fun x => x.sent || !p x, wait := l.wait.filter fun x => !p x }).addEntries lane []

/-- Shelves an action of a lane with its time (R149, R251). -/
def State.pushAct (s : State) (lane : Nat) (a : BypAct) (t : Int) : State := s.addEntries lane [{ time := t, act := some a }]

/-- Shelves a second action of the same time behind the first. -/
def State.pushTwo (s : State) (lane : Nat) (a b : BypAct) (t : Int) : State := (s.pushAct lane a t).pushAct lane b t

/-! ### Sending -/

/-- The first entry of a lane that may be sent: every earlier one has been (R252). An action that is already due needs no place on a shelf
that is full of sent entries: its time has passed when it is sent (R209, R251, R337). -/
def State.nextEntry (s : State) (lane : Nat) : Option Entry :=
  match (s.ml lane).shelf.find? fun x => !x.sent with
  | some x => if x.held then none else some x
  | none =>
    match (s.ml lane).wait with
    | x :: _ => if x.act.isSome && decide (x.time ≤ s.now) then some x else none
    | [] => none

/-- The entry that follows it as the second half of an EDGE_PAIR (R252). -/
def State.pairEntry (s : State) (lane : Nat) (x : Entry) : Option Entry :=
  match ((s.ml lane).shelf.filter fun y => !y.sent).drop 1 with
  | y :: _ =>
    if x.act.isNone && y.act.isNone && !y.held && decide (1 ≤ y.time - x.time) && decide (y.time - x.time ≤ 65535) then some y
    else none
  | [] => none

/-- Marks the first n unsent entries of a shelf as sent. -/
def markSent : Nat → List Entry → List Entry
  | 0, l => l
  | _ + 1, [] => []
  | n + 1, x :: r => if x.sent then x :: markSent (n + 1) r else { x with sent := true } :: markSent n r

/-- An action is sent: from its place on the shelf, or, where the shelf holds sent entries alone, from those that wait. -/
def ModLane.sentAct (l : ModLane) : ModLane :=
  if l.shelf.all (·.sent) then { l with wait := l.wait.drop 1, word := 0 } else { l with shelf := markSent 1 l.shelf, word := 0 }

/-- Removes the first unsent entry of a shelf. -/
def dropFirst : List Entry → List Entry
  | [] => []
  | x :: r => if x.sent then x :: dropFirst r else r

/-- Drops the edge entries whose time has passed ahead of the first that has not; each counts LAUNCH_DROPPED (R209). -/
def State.dropPassed : Nat → Nat → State → State
  | 0, _, s => s
  | n + 1, lane, s =>
    match s.nextEntry lane with
    | none => s
    | some x =>
      if x.act.isNone && decide (x.time ≤ s.now) then
        State.dropPassed n lane ((s.modMl lane fun l =>
          { l with shelf := dropFirst l.shelf, word := entryWord (s.entry lane) l.word x }).bump 0x0610 lane 0)
      else s

/-- Drops the second copy of a repeated block once its time has passed, counted (R153, R209). -/
def State.copyPass (s : State) (lane : Nat) : State :=
  match (s.lnk lane).copy with
  | some b =>
    if shortDiff (bits b.payload 95 64) s.shortNow ≤ 0 then (s.modLink lane fun l => { l with copy := none }).bump 0x0610 lane 0 else s
  | none => s

/-- Entries whose time has passed leave a lane's shelf, unsent edges and a copy among them dropped, and others are expanded into the room
(R153, R209, R251). -/
def State.shelfPass (s0 : State) (lane : Nat) : State :=
  let s := s0.copyPass lane
  (State.dropPassed 64 lane (s.modMl lane fun l => { l with shelf := l.shelf.filter fun x => !(x.sent && decide (x.time ≤ s.now)) })).refill lane

/-- Counts LAUNCH_LATE of a lane (R209, R224). -/
def State.launchLate (s : State) (lane : Nat) : State := s.modDly lane fun d => { d with late := satN 16 (d.late + 1) }

/-- Whether an action with a time can no longer be placed by its latest slot (R208). -/
def State.pastLatest (s : State) (lane : Nat) (t : Int) : Bool := decide (t < (s.now + s.lead lane : Nat))

/-- The dead-time block remembers a sent entry that asks for a node report (R274). -/
def State.noteNode (s : State) (lane id : Nat) (x : Entry) : State :=
  if x.node then
    s.updDt fun d => { d with lane := d.lane.mod {} lane fun l => { l with sent := l.sent.set id { time := x.time, marks := x.marks } } }
  else s

/-- Sends the first entry of a lane, alone or with the next as a pair; with EDGE_REPEAT = 1 a second copy is owed
(R149, R153, R209, R252, R253). -/
def State.launch (s : State) (lane : Nat) (x : Entry) : State :=
  let s0 := if s.pastLatest lane x.time then s.launchLate lane else s
  match x.act with
  | some a =>
    (s0.modMl lane ModLane.sentAct).sendBlock lane tyBypass (pf 64 (shortOf x.time) + pf 56 a.code)
  | none =>
    let e := s.entry lane
    let w0 := (s.ml lane).word
    let w1 := entryWord e w0 x
    let id := (s.ml lane).edgeId
    match s.pairEntry lane x with
    | some y =>
      let w2 := entryWord e w1 y
      let p := pf 64 (shortOf x.time) + pf 48 w1 + pf 32 (y.time - x.time).toNat + pf 16 w2 + pf 8 id + b2n x.node + 2 * b2n y.node +
        4 * b2n x.mark + 8 * b2n y.mark
      let s1 := (s0.modMl lane fun l =>
        { l with shelf := markSent 2 l.shelf, word := w2, edgeId := (id + 2) % 256 }).sendBlock lane tyPair p
      let s2 := (s1.noteNode lane id x).noteNode lane ((id + 1) % 256) y
      if s.p0 0x0509 = 1 then s2.modLink lane fun l => { l with copy := some { type := tyPair, payload := p } } else s2
    | none =>
      let p := pf 64 (shortOf x.time) + pf 48 w1 + pf 32 (w0 ^^^ w1) + pf 24 id + pf 16 (b2n x.node + 2 * b2n x.mark)
      let s1 := (s0.modMl lane fun l =>
        { l with shelf := markSent 1 l.shelf, word := w1, edgeId := (id + 1) % 256 }).sendBlock lane tyEdge p
      let s2 := s1.noteNode lane id x
      if s.p0 0x0509 = 1 then s2.modLink lane fun l => { l with copy := some { type := tyEdge, payload := p } } else s2

/-- Sends the second copy of a repeated block (R153). -/
def State.sendCopy (s : State) (lane : Nat) (b : DownBlock) : State :=
  (s.modLink lane fun l => { l with copy := none }).sendBlock lane b.type b.payload

/-! ### The slot (R141) -/

/-- The place of a queued block's type in the order of R141 (log 43). -/
def typeRank (t : Nat) : Nat :=
  if t = 0x06 then 4 else if t = 0x08 then 5 else if t = 0x04 then 6 else if t = 0x05 then 7 else if t = 0x0A then 8 else 10

/-- Whether a queued block may be sent on a lane (R143, R172). -/
def State.mayQueue (s : State) (lane : Nat) (b : DownBlock) : Bool :=
  !s.restricted lane || b.type == tyTime || b.type == tyAuth

/-- The first of the waiting blocks in the order of R141 (log 43). -/
def State.bestQueued (s : State) (lane : Nat) : Option DownBlock :=
  ((s.lnk lane).queue.filter (s.mayQueue lane)).foldl
    (fun acc b => match acc with
      | none => some b
      | some a => if typeRank b.type < typeRank a.type then some b else some a) none

/-- Sends one queued block. -/
def State.sendQueued (s : State) (lane : Nat) (b : DownBlock) : State :=
  (s.modLink lane fun l => { l with queue := removeOne b l.queue }).sendBlock lane b.type b.payload

/-- What a slot does once the passed entries are out of the way. -/
def State.slotBody (s : State) (lane : Nat) : Option State :=
  let l := s.lnk lane
  let x := if s.timedOk lane then s.nextEntry lane else none
  let isAct := match x with
    | some y => y.act.isSome
    | none => false
  if l.roleOwed then some (s.sendBlock lane tyRole (s.rolePayload lane))
  else if isAct then x.map (s.launch lane)
  else if s.timedOk lane && l.copy.isSome then l.copy.map (s.sendCopy lane)
  else if x.isSome then x.map (s.launch lane)
  else
    match s.bestQueued lane with
    | some b =>
      if typeRank b.type < 9 ∨ l.roleRepeat = false then some (s.sendQueued lane b)
      else some (s.sendBlock lane tyRole (s.rolePayload lane))
    | none => if l.roleRepeat then some (s.sendBlock lane tyRole (s.rolePayload lane)) else none

end Sys2Proof.Machine
end

