-- ==== Sys2Proof/Machine/DtOps.lean ====
section
/-!
DEFINITION. The adaptive dead time of a leg: capture at a boundary, selection, judging, the law and the fallback (R271 to R281, R291, R294).
-/

namespace Sys2Proof.Machine

/-! ### Access -/

/-- A lane of the dead-time block. -/
def State.dtl (s : State) (lane : Nat) : DtLane := s.dt.lane.get {} lane

/-- Changes a lane of the dead-time block. -/
def State.modDtl (s : State) (lane : Nat) (f : DtLane → DtLane) : State :=
  s.updDt fun d => { d with lane := d.lane.mod {} lane f }

/-- The dead time of a leg. -/
def State.dleg (s : State) (lane leg : Nat) : DtLeg := (s.dtl lane).legs.get {} leg

/-- Changes the dead time of a leg. -/
def State.modDleg (s : State) (lane leg : Nat) (f : DtLeg → DtLeg) : State :=
  s.modDtl lane fun l => { l with legs := l.legs.mod {} leg f }

/-- Whether a leg is adapted: both of its switches are mapped (R272). -/
def legAdapted (e : Bytes) (leg : Nat) : Bool := (mapBit e leg true).isSome && (mapBit e leg false).isSome

/-- Whether a leg has a mapped switch at all. -/
def legMapped (e : Bytes) (leg : Nat) : Bool := (mapBit e leg true).isSome || (mapBit e leg false).isSome

/-- DT_MODE of a string: 0 FIXED, 1 ADAPT, 2 HOLD (R271). -/
def State.dtMode (s : State) (str : Nat) : Nat := s.pu 0x0901 str 0 1

/-- DTW_MAX of a string. -/
def State.dtMax (s : State) (str : Nat) : Nat := s.pu 0x0903 str 0 2

/-- DT_INIT of a string. -/
def State.dtInit (s : State) (str : Nat) : Nat := s.pu 0x0904 str 0 2

/-- LO of a lane: the larger of DTW_MIN and the endpoint's DT_FLOOR, once read (R276, R277). -/
def State.dtLo (s : State) (lane : Nat) : Nat := max (s.pu 0x0902 (s.strOf lane) 0 2) ((s.dtl lane).floor.getD 0)

/-- A dead time held within [LO, DTW_MAX]; at DTW_MAX where the floor exceeds it (R276, R277). -/
def State.dtBound (s : State) (lane v : Nat) : Nat := min (s.dtMax (s.strOf lane)) (max (s.dtLo lane) v)

/-- Queues a TW_STATE of a kind for the standby; the layout of a kind is internal to the stepping (R371, log 2). -/
def State.twState (s : State) (kind : Nat) : State :=
  if s.hasStandby && s.twinLinkUp then (s.tookFree).twinSend 0x36 (pf 88 kind + s.freeVal) else s

/-! ### Taking steps into effect (R278, R279, R294) -/

/-- One step of the law, bounded (R276). -/
def State.dtMove (s : State) (lane v : Nat) : DtMove → Nat
  | .up n => s.dtBound lane (v + n)
  | .down n => s.dtBound lane (v - n)
  | .set w => s.dtBound lane w

/-- Whether a move is a fallback entry. -/
def DtMove.isSet : DtMove → Bool
  | .set _ => true
  | _ => false

/-- A value after the steps due, in t_on order: a fallback among them stands (R281, R294). -/
def State.dtTake (s : State) (lane v : Nat) (steps : List (Int × DtMove)) : Nat :=
  let o := sortLe (fun a b => decide (a.1 ≤ b.1)) steps
  match o.reverse.find? fun x => x.2.isSet with
  | some x => s.dtMove lane v x.2
  | none => o.foldl (fun v x => s.dtMove lane v x.2) (s.dtBound lane v)

/-- Ends the fallback of a leg and its share of DT_REPORT_LOSS (R281). -/
def State.dtUnfall (s : State) (lane leg : Nat) : State :=
  (s.modDleg lane leg fun d => { d with fallback := false, good := 0 }).condOff 0x2C lane leg

/-- Sets a leg to DT_INIT at once, with its fallback and bad count cleared (R290, R291). -/
def State.dtToInit (s : State) (lane leg : Nat) : State :=
  let v := s.dtInit (s.strOf lane)
  (s.dtUnfall lane leg).modDleg lane leg fun d =>
    { d with dtw := v, cap := v, copy := v, steps := [], copySteps := [], bad := 0, resetWait := false }

/-- Whether a step is due at a boundary (R278). -/
def State.dtDue (s : State) (lane : Nat) (at_ : Int) (x : Int × DtMove) : Bool :=
  decide (x.1 ≤ at_ - s.pu 0x090B (s.strOf lane) 0 4)

/-- A DT_RESET that waits takes effect at a boundary of the string: steps of transitions before its commitment are not taken, and it stands over
those due at the boundary; later ones are kept (R291, R294). -/
def State.dtResetTake (s : State) (lane leg : Nat) (at_ : Int) : State :=
  let v := s.dtInit (s.strOf lane)
  let d := s.dleg lane leg
  let later := fun (x : Int × DtMove) => !s.dtDue lane at_ x && decide (((d.resetAt.getD 0 : Nat) : Int) ≤ x.1)
  let again := d.fallback && (d.steps.filter later).any fun x => x.2.isSet
  (if again then s else s.dtUnfall lane leg).modDleg lane leg fun d =>
    { d with dtw := v, cap := v, copy := v, steps := d.steps.filter later, copySteps := d.copySteps.filter later,
             bad := if again then d.bad else 0, resetWait := false }

/-- What every boundary of a string does to its adapted legs, planned or not: a waiting DT_RESET takes effect, and in FIXED each leg takes
DT_INIT with its fallback cleared (R291, R294). -/
def State.dtBoundary (s : State) (lane leg : Nat) (at_ : Int) : State :=
  let v := s.dtInit (s.strOf lane)
  if (s.dleg lane leg).resetWait then s.dtResetTake lane leg at_
  else if s.dtMode (s.strOf lane) = 0 ∧ legAdapted (s.entry lane) leg = true then
    (s.dtUnfall lane leg).modDleg lane leg fun d => { d with dtw := v, cap := v, copy := v, steps := [], copySteps := [] }
  else s

/-- The steps due at a boundary that are taken: all of them in ADAPT, a fallback entry alone in HOLD and in fallback (R271, R276, R281). -/
def State.dtTaken (s : State) (lane : Nat) (d : DtLeg) (at_ : Int) (l : List (Int × DtMove)) : List (Int × DtMove) :=
  l.filter fun x => s.dtDue lane at_ x && ((decide (s.dtMode (s.strOf lane) = 1) && !d.fallback) || x.2.isSet)

/-- The capture of a leg's dead time at a boundary (R236, R271, R278, R279). -/
def State.dtCapture (s : State) (lane leg : Nat) (at_ : Int) : State :=
  let str := s.strOf lane
  let d := s.dleg lane leg
  let v := s.dtInit str
  if !legAdapted (s.entry lane) leg || decide (s.dtMode str = 0) then s.modDleg lane leg fun d => { d with cap := v }
  else
    let due := s.dtDue lane at_
    let w := s.dtTake lane d.dtw (s.dtTaken lane d at_ d.steps)
    let c := s.dtTake lane d.copy (s.dtTaken lane d at_ d.copySteps)
    let s1 := s.modDleg lane leg fun d =>
      { d with dtw := w, cap := w, copy := if s.twin.role = .standby then c else w,
               steps := d.steps.filter fun x => !due x, copySteps := d.copySteps.filter fun x => !due x }
    if s.twin.role = .standby ∧ c ≠ w then s1.bump 0x0912 noInst 0 else s1

/-- Discards the pending judgements of a lane, uncounted (R294). -/
def State.dtDiscard (s : State) (lane : Nat) : State :=
  (List.range 6).foldl (fun s leg => s.modDleg lane leg fun d => { d with pend := [], rawOff := none }) s

/-- A committed change of an H field of a lane (R273, R290, R294). -/
def State.dtRollChange (s : State) (lane : Nat) : State :=
  (List.range 6).foldl (fun s leg => (s.dtToInit lane leg).modDleg lane leg fun d => { d with count := 0 }) (s.dtDiscard lane)

/-! ### Selection (R273) -/

/-- Makes a transition of an adapted leg final: one of every NODE_DIV is selected, and waits to be judged (log 54). -/
def State.dtSelect (s : State) (lane : Nat) (leg : Nat) (t : Trans) : State × Bool :=
  let str := s.strOf lane
  if s.dtMode str = 0 ∨ legAdapted (s.entry lane) leg = false then (s, false)
  else
    let n := max 1 (s.pu 0x090A str 0 1)
    let sel := (s.dleg lane leg).count % n == 0
    let lo : Int := (t.dt / 2 : Nat)
    let p : DtPend := { up := t.up, tOff := t.t - lo, tOn := t.t + (t.dt - lo) }
    (s.modDleg lane leg fun d =>
      { d with count := (d.count + 1) % n, pend := if sel then d.pend ++ [p] else d.pend }, sel)

/-! ### Judging (R274, R275) -/

/-- The classes of R275. -/
inductive DtClass where
  | missing | implausible | nocross | soft | late | hard
deriving DecidableEq, Repr

/-- The count of DT_CNT a class adds to (R290). -/
def DtClass.field : DtClass → Nat
  | .soft => 0
  | .late => 1
  | .hard => 2
  | .nocross => 3
  | .missing => 4
  | .implausible => 5

/-- Whether a class counts as bad (R280). -/
def DtClass.bad : DtClass → Bool
  | .missing => true
  | .implausible => true
  | .nocross => true
  | _ => false

/-- M: from the turn-off record's TIME to the turn-on edge, as a signed 32-bit difference (R275). -/
def DtPend.margin (p : DtPend) (x : NodeRec) : Int := signed 32 (wrap 32 (p.tOn - x.time))

/-- Whether the turn-on record says the node crossed where it cannot have (R275). -/
def DtPend.onWrong (p : DtPend) (x : NodeRec) : Bool :=
  match p.on with
  | some y =>
    decide (y.kind = 1) && (decide (y.time < p.tOn - 16) || decide (16 < p.margin x) || decide (16 < (y.time - x.time).natAbs))
  | none => false

/-- The class of a transition (R275). -/
def DtPend.cls (p : DtPend) (hard : Int) : DtClass :=
  match p.off with
  | none => .missing
  | some x =>
    let wrongDir := x.rising != p.up || (match p.on with
      | some y => y.rising != p.up
      | none => false)
    if wrongDir then .implausible
    else if x.kind = 2 then .nocross
    else if x.time < p.tOff - 16 ∨ p.tOff + 16016 < x.time ∨ p.onWrong x = true then .implausible
    else if 0 ≤ p.margin x then .soft
    else if -hard < p.margin x then .late
    else .hard

/-- The step the law asks for (R276). -/
def State.dtLaw (s : State) (str : Nat) (c : DtClass) (m : Int) : Option DtMove :=
  let target : Int := s.pu 0x0905 str 0 2
  let band : Int := s.pu 0x0906 str 0 2
  if c = .soft ∧ target + band < m then some (.down (s.pu 0x0907 str 0 1))
  else if (c = .soft ∧ m < target - band) ∨ c = .late then some (.up (s.pu 0x0908 str 0 1))
  else none

/-- Takes one step of the law: the active's goes into effect and to the standby, a standby's runs on its copy (R278, R279). -/
def State.dtStep (s : State) (lane leg : Nat) (tOn : Int) (m : DtMove) : State :=
  if s.twin.role = .standby then s.modDleg lane leg fun d => { d with copySteps := d.copySteps ++ [(tOn, m)] }
  else
    let f := match m with
      | .up _ => 7
      | _ => 8
    ((s.modDleg lane leg fun d => { d with steps := d.steps ++ [(tOn, m)] }).bump 0x0910 lane f).twState 1

/-- A leg enters fallback: DT_FALLBACK at the boundary of R278, and DT_REPORT_LOSS with the leg (R281). -/
def State.dtFall (s : State) (lane leg : Nat) (tOn : Int) : State :=
  let v := s.pu 0x090E (s.strOf lane) 0 2
  if s.twin.role = .standby then s.modDleg lane leg fun d => { d with copySteps := d.copySteps ++ [(tOn, .set v)] }
  else
    ((s.modDleg lane leg fun d =>
      { d with fallback := true, good := 0, steps := (d.steps.filter fun x => x.2.isSet) ++ [(tOn, .set v)] }).twState 1).condOn
      0x2C lane leg (leBytes 1 leg)

/-- Counts a bad or a good judgement of an adapted leg: fallback is entered, or left (R280, R281). -/
def State.dtTally (s : State) (lane leg : Nat) (c : DtClass) (tOn : Int) : State :=
  let str := s.strOf lane
  let d := s.dleg lane leg
  if legAdapted (s.entry lane) leg = false then s
  else if c.bad then
    let s1 := s.modDleg lane leg fun d => { d with bad := d.bad + 1, good := 0 }
    if s.dtMode str ≠ 0 ∧ d.fallback = false ∧ s.pu 0x090C str 0 1 ≤ d.bad + 1 then s1.dtFall lane leg tOn else s1
  else
    let s1 := s.modDleg lane leg fun d => { d with bad := 0, good := if d.fallback then d.good + 1 else 0 }
    if d.fallback = true ∧ s.pu 0x090D str 0 1 ≤ d.good + 1 ∧ s.twin.role ≠ .standby then (s1.dtUnfall lane leg).twState 1 else s1

/-- Judges one selected transition (R274 to R281): it is counted, tallied, and steps the law. -/
def State.dtJudge (s : State) (lane leg : Nat) (p : DtPend) : State :=
  let str := s.strOf lane
  let d := s.dleg lane leg
  let c := p.cls (s.pu 0x0909 str 0 2)
  let m : Int := match p.off with
    | some x => p.margin x
    | none => 0
  let s1 := (s.modDleg lane leg fun d => { d with pend := removeOne p d.pend, margin := if c.bad then d.margin else some m }).bump
    0x0910 lane c.field
  let s2 := s1.dtTally lane leg c p.tOn
  let afterReset := match d.resetAt with
    | some r => decide ((r : Int) ≤ p.tOn)
    | none => true
  if s.dtMode str = 1 && !d.fallback && !c.bad && (s.str str).mode != 4 && legAdapted (s.entry lane) leg && afterReset then
    match s.dtLaw str c m with
    | some mv =>
      if p.tOn + s.pu 0x090B str 0 4 - 8000 < (s.now : Int) then s2.bump 0x0910 lane 6 else s2.dtStep lane leg p.tOn mv
    | none => s2
  else s2

/-- Whether both records of a transition are in (R274). -/
def DtPend.both (p : DtPend) : Bool := p.off.isSome && p.on.isSome

/-- Puts a record to a selected transition's edge (R274). -/
def pendTake (x : SentEdge) (m : EdgeMark) (r : NodeRec) (p : DtPend) : DtPend :=
  if m.off then (if p.tOff = x.time ∧ p.up = m.up then { p with off := some r } else p)
  else if p.tOn = x.time ∧ p.up = m.up then { p with on := some r } else p

/-- Takes one NODE_EDGE record: leg, record and EDGE_ID (R274, R275). A stray adds one to IMPLAUSIBLE. -/
def State.dtRecord (s : State) (lane leg id : Nat) (r : NodeRec) : State :=
  match (s.dtl lane).sent.get? id with
  | none => s.bump 0x0910 lane 5
  | some x =>
    match x.marks.filter fun m => m.leg == leg with
    | [] => s.bump 0x0910 lane 5
    | ms =>
      match ms.find? (·.sel) with
      | none => s
      | some m =>
        let s1 := s.modDleg lane leg fun d => { d with pend := d.pend.map (pendTake x m r) }
        ((s1.dleg lane leg).pend.filter (·.both)).foldl (fun s p => s.dtJudge lane leg p) s1

/-! ### The end of the read of DT_FLOOR (R277) -/

/-- DT_FLOOR is not known: LO stays DTW_MIN. -/
def State.noFloor (s : State) (lane : Nat) (args : Bytes) : State := (s.modDtl lane fun l => { l with floor := none }).fire 0x2A lane args

/-- The result of the read of DT_FLOOR, or that none came. -/
def State.dtFloorRead (s : State) (lane : Nat) (res : Option (Nat × Nat)) : State :=
  match res with
  | some (0, v) =>
    let s1 := s.modDtl lane fun l => { l with floor := some v }
    if s.dtMax (s.strOf lane) < v then s1.fire 0x2B lane (leBytes 4 v) else s1
  | some (r, _) => s.noFloor lane (leBytes 1 r)
  | none => s.noFloor lane [0xFF]

end Sys2Proof.Machine
end

