-- ==== Sys2Proof/Machine/SortOps.lean ====
section
/-!
DEFINITION. The sorter: keys, order and statistics of a string at a boundary (R282 to R288).
-/

namespace Sys2Proof.Machine

/-- A string of the sorter. -/
def State.srt (s : State) (n : Nat) : SortStr := s.dt.sort.get {} n

/-- Changes a string of the sorter. -/
def State.modSrt (s : State) (n : Nat) (f : SortStr → SortStr) : State :=
  s.updDt fun d => { d with sort := d.sort.mod {} n f }

/-- The lowest-numbered channel of a kind in an entry (R282). -/
def chanOf (e : Bytes) (kind : Nat) : Option Nat := (List.range 8).find? fun c => eKind e c == kind

/-- A channel's value at or before an instant, with its sampling instant (R282, R297). -/
def State.sampleAt (s : State) (lane chan b : Nat) : Int × Option Nat :=
  let x := (s.lnk lane).samples.get {} chan
  match x.at_ with
  | some t => if t ≤ b then (x.value, some t) else (x.value0, x.at0)
  | none => (0, none)

/-- Whether a channel is stale at an instant: no sampling instant, one too far back, or a lane marked stale (R179, R282, R677). -/
def State.sampleStale (s : State) (lane chan b limit : Nat) : Bool :=
  (s.lnk lane).stale ||
    match (s.sampleAt lane chan b).2 with
    | some t => decide (t + limit < b)
    | none => true

/-- The output of a loop as published last (R299, R300). -/
def State.loopOut (s : State) (n : Nat) : Int := (s.le.loop.get {} n).out

/-- The sign of the string current, 0 within the dead band or where its source is stale or absent (R283). -/
def State.currentSign (s : State) (str b : Nat) : Int :=
  let kind := s.pu 0x0A02 str 0 1
  let idx := s.pu 0x0A02 str 1 2
  let ch := s.pu 0x0A02 str 3 1
  let i : Int :=
    if kind = 1 then
      if eEnabled (s.entry idx) && !s.sampleStale idx ch b (s.pu 0x0A05 str 0 4) then (s.sampleAt idx ch b).1 else 0
    else if kind = 2 then s.loopOut idx
    else 0
  if i.natAbs ≤ s.pu 0x0A03 str 0 2 then 0 else Int.sign i

/-- A member as the sorter keys it (R282, R284). -/
def State.sortKey (s : State) (str b : Nat) (dir n : Int) (lane : Nat) : SortMember :=
  let e := s.entry lane
  let stale := match chanOf e 1 with
    | some c => s.sampleStale lane c b (s.pu 0x0A05 str 0 4)
    | none => false
  let v := match chanOf e 1 with
    | some c => (s.sampleAt lane c b).1
    | none => 0
  let prev := (s.ml lane).nlc
  let key : Int :=
    if s.pu 0x0A01 str 0 1 = 0 then 0
    else if stale || (chanOf e 1).isNone then 65535
    else dir * v - (if prev ≠ 0 ∧ prev = Int.sign n then (s.pu 0x0A04 str 0 2 : Int) else 0)
  { lane, pos := ePos e, v, stale, noKey := (chanOf e 1).isNone, key }

/-- The order: ascending key, equal keys by ascending position (R284). -/
def sortOrder (l : List SortMember) : List SortMember :=
  sortLe (fun a b => decide (a.key < b.key) || (decide (a.key = b.key) && decide (a.pos ≤ b.pos))) l

/-- The first |n| of an order, inserted with the sign of n (R242, R284). -/
def insertFirst (n : Int) (l : List SortMember) : List SortMember :=
  (l.take n.natAbs).map (fun m => { m with after := Int.sign n }) ++ (l.drop n.natAbs).map fun m => { m with after := 0 }

/-- The first member of a list by a comparison of voltages, the lower position where equal (R286). -/
def extreme (lt : Int → Int → Bool) : List SortMember → Option SortMember
  | [] => none
  | m :: r =>
    match extreme lt r with
    | none => some m
    | some x => if lt m.v x.v || (decide (m.v = x.v) && decide (m.pos < x.pos)) then some m else some x

/-- The statistics over the keyed members that are not stale (R286, R292). -/
def sortStats (l : List SortMember) (dir : Int) (k at_ : Nat) : SortStat :=
  let g := l.filter fun m => !m.stale && !m.noKey
  let lo := extreme (fun a b => decide (a < b)) g
  let hi := extreme (fun a b => decide (b < a)) g
  let sum := g.foldl (fun a m => a + m.v) (0 : Int)
  { mean := if g.isEmpty then 0 else sum / g.length,
    min := (lo.map (·.v)).getD 0, max := (hi.map (·.v)).getD 0,
    minPos := (lo.map (·.pos)).getD 0xFF, maxPos := (hi.map (·.pos)).getD 0xFF,
    keyed := g.length, stale := (l.filter (·.stale)).length, dir, k, at_,
    ranks := (l.zip (List.range l.length)).foldl (fun t x => t.set x.1.lane x.2) {} }

/-- SPREAD, saturated to its format (R9, R286). -/
def SortStat.spread (x : SortStat) : Int := sat16 (x.max - x.min)

/-- Ends BAL_SPREAD at once and restarts its counts (R287). -/
def State.spreadEnd (s : State) (str : Nat) : State :=
  (s.modSrt str fun x => { x with overN := 0, underN := 0, alarm := false }).condOff 0x2D str 0

/-- Compares the spread with its alarm at a boundary (R287, log 58). -/
def State.spreadCheck (s : State) (str : Nat) : State :=
  let a := s.pu 0x0A06 str 0 2
  let p := s.pu 0x0A07 str 0 2
  let x := s.srt str
  if a = 0 then s.spreadEnd str
  else if (a : Int) < x.stat.spread then
    let s1 := s.modSrt str fun x => { x with overN := x.overN + 1, underN := 0 }
    if p ≤ x.overN + 1 ∧ x.alarm = false then
      (s1.modSrt str fun x => { x with alarm := true }).condOn 0x2D str 0
        (leBytes 1 x.stat.minPos ++ leBytes 1 x.stat.maxPos ++ leBytesI 2 x.stat.spread)
    else s1
  else
    let s1 := s.modSrt str fun x => { x with overN := 0, underN := x.underN + 1 }
    if x.alarm = true ∧ p ≤ x.underN + 1 then s1.spreadEnd str else s1

/-- The sorting pass of a string at a boundary: order, insertion, counts and statistics (R282 to R287). -/
def State.sortPass (s : State) (str b k : Nat) (dir n : Int) (lanes : List Nat) : State :=
  let o := insertFirst n (sortOrder (lanes.map (s.sortKey str b dir n)))
  let s1 := s.modSrt str fun x => { x with order := o, stat := sortStats o dir k b }
  let s2 := (s1.bumpBy 0x0A09 str 0 (o.filter (·.stale)).length).bumpBy 0x0A09 str 1 (o.filter (·.noKey)).length
  s2.spreadCheck str

/-- An order taken from the active for a boundary: the members in its sequence, if it names the same set (R288). -/
def activeOrder (own : List SortMember) (lanes : List Nat) : Option (List SortMember) :=
  if lanes.length = own.length ∧ own.all (fun m => lanes.contains m.lane) then
    some (lanes.filterMap fun l => own.find? fun m => m.lane == l)
  else none

end Sys2Proof.Machine
end

