-- ==== Sys2Proof/Machine/PlanOps.lean ====
section
/-!
DEFINITION. The plan of an output period: cycles and levels, isolation stages, short pulses and carries, and the entries they
become (R233 to R250, R257 to R260).
-/

namespace Sys2Proof.Machine

/-! ### What a string is set to -/

/-- MOD_OUT_DELAY, D. -/
def State.modDelay (s : State) (str : Nat) : Nat := s.pu 0x0804 str 0 4

/-- MIN_PULSE in effect. -/
def State.minPulse (s : State) (str : Nat) : Nat := s.pu 0x0807 str 0 2

/-- A bit of MOD_FLAGS: 0 PSC_INTERLEAVE, 1 ZERO_ALT, 2 ISO_EN, 3 ISO_HALFSTEP, 4 ISO_INTERLEAVE. -/
def State.modFlag (s : State) (str n : Nat) : Bool := bit (s.pu 0x0805 str 0 1) n

/-- The largest LEAD among a string's enabled lanes (R233). -/
def State.leadMax (s : State) (str : Nat) : Nat :=
  listMax (((s.lanesOf str).filter fun l => eEnabled (s.entry l)).map s.lead)

/-- The delay condition of R233. -/
def State.delayOk (s : State) (str : Nat) : Bool :=
  decide (s.leadMax str + 9600 + s.minPulse str + s.dtMax str ≤ s.modDelay str)

/-- The cycle condition of R233 for a MOD_PERIOD, ISO_DIV and MIN_PULSE in a mode. -/
def State.cycleOk (s : State) (str mode t div minP : Nat) : Bool :=
  let j2 := 2 * (minP + s.dtMax str)
  let iso := s.strType str == 1 && (mode == 3 || ((mode == 1 || mode == 2) && s.modFlag str 2))
  (mode != 1 || decide (j2 ≤ t / 2)) && (mode != 2 || decide (j2 ≤ t)) && (!iso || decide (j2 ≤ t / max 1 div / 2))

/-- The members a plan serves: those not bypassed, and before O_0 not those that start bypassed (R239, R347). -/
def State.planMembers (s : State) (str : Nat) : List Nat :=
  (s.activeMembers str).filter fun l =>
    !(decide ((s.str str).st = .starting) && eType (s.entry l) == 1 && eStartByp (s.entry l))

/-! ### References (R234, R235) -/

/-- The place of a reference: kind 0 REF_S, 1 REF_C, 2 PHI_S, 3 PHI_C, and its string or lane. -/
def refKey (kind idx : Nat) : Nat := kind * 256 + idx

/-- The parameter that holds the host's reference of a kind. -/
def refParam (kind : Nat) : Nat := if kind = 0 then 0x080B else if kind = 1 then 0x080D else if kind = 2 then 0x080C else 0x080E

/-- Captures one reference from its source (R235). -/
def State.refTake (s : State) (str kind idx : Nat) : State :=
  let v := if bit (s.pu 0x080A str 0 1) kind then s.mod.loopRef.get 0 (refKey kind idx) else s.ps (refParam kind) idx 0 2
  s.updMod fun m => { m with capRef := m.capRef.set (refKey kind idx) v }

/-- Captures the references of a string and of its lanes (R231). -/
def State.refCapture (s : State) (str : Nat) : State :=
  (s.lanesOf str).foldl (fun s l => (s.refTake str 1 l).refTake str 3 l) ((s.refTake str 0 str).refTake str 2 str)

/-- The captured sum of a string's and a cell's reference, saturated: m_c for kind 0, the isolation phase for kind 2 (R234). -/
def State.refSum (s : State) (str lane kind : Nat) : Int :=
  sat16 (s.mod.capRef.get 0 (refKey kind str) + s.mod.capRef.get 0 (refKey (kind + 1) lane))

/-! ### Carriers (R239 to R241) -/

/-- The carrier shift's target of the member of rank i among n (R240). -/
def State.pscTarget (s : State) (str i n : Nat) : Int :=
  if s.modFlag str 0 then ((i * (s.str str).period / ((if s.strType str = 1 then 2 else 1) * max 1 n) : Nat) : Int) else 0

/-- The shift at which the next cycle ends (R240). -/
def pscNext (prev : Option Int) (target : Int) (t : Nat) : Int :=
  match prev with
  | some p => p + clampI (-((t / 2 : Nat) : Int)) (t / 2 : Nat) (target - p)
  | none => target

/-- The high interval of a leg in a cycle (R241). -/
def pscLeg (c len x : Int) : List (Int × Bool) :=
  let w := (len * (x + 32768) + 32768) / 65536
  if w ≤ 0 then [] else [(c + (len - w) / 2, true), (c + (len - w) / 2 + w, false)]

/-! ### Nearest level (R242 to R244) -/

/-- The level of a string before saturation: halves rounded away from zero (R242). -/
def nlcRound (ref : Int) (nref : Nat) : Int :=
  let p := ref * nref
  let m := ((2 * p.natAbs + 8388608) / 16777216 : Nat)
  if p < 0 then -(m : Int) else m

/-- Two lists taken by turns, the first list first. -/
def byTurns {α : Type} : List α → List α → List α
  | [], r => r
  | x :: l, [] => x :: l
  | x :: l, y :: r => x :: y :: byTurns l r

/-- The members that change, in the sequence in which they switch (R244, log 55). -/
def State.nlcSeq (s : State) (order : List SortMember) : List Nat :=
  let ch := order.filter fun m => m.after != (s.ml m.lane).nlc
  byTurns ((ch.filter fun m => (s.ml m.lane).nlc != 0).map (·.lane)) ((ch.filter fun m => (s.ml m.lane).nlc == 0).map (·.lane))

/-- The levels of legs 0 and 1 in an insertion state (R242, log 55). -/
def nlcLegs (state : Int) (zeroHigh : Bool) : Bool × Bool :=
  if state = 0 then (zeroHigh, zeroHigh) else (decide (0 < state), decide (state < 0))

/-! ### The plan of a leg (R248 to R250, R258) -/

/-- What a plan asks of one leg. -/
structure LegWork where
  /-- The leg. -/
  leg : Nat
  /-- The level planned before the first transition. -/
  lvl : Bool := false
  /-- The ideal transitions, in time order. -/
  trs : List (Int × Bool) := []
  /-- The start of the leg's first cycle in the next plan. -/
  nextAt : Int
deriving DecidableEq, Repr

/-- What the removals of R248 leave of a leg's transitions. -/
structure LegOut where
  /-- The surviving transitions. -/
  keep : List Trans := []
  /-- The carry still owed. -/
  carry : Int := 0
  /-- Pulses removed. -/
  dropped : Nat := 0
  /-- Gaps removed. -/
  merged : Nat := 0
  /-- Removals no longer than DT. -/
  swallowed : Nat := 0
  /-- Ticks of carry lost. -/
  lost : Nat := 0
deriving DecidableEq, Repr

/-- The ticks that dead time takes from the interval between two transitions: DT_hi of the first and DT_lo of the second, which is DT where
both have the same (R24, R236, R248, log 112). -/
def gapDt (a b : Nat) : Int := ((a - a / 2 + b / 2 : Nat) : Int)

/-- The rules of R248 to R250 over the transitions of a leg in time order, after the latest released transition and its dead time; the fuel
is their number (log 112). -/
def filterLeg (minP : Int) : Nat → Int → Nat → Int → List Trans → LegOut
  | 0, _, _, carry, _ => { carry }
  | _ + 1, _, _, carry, [] => { carry }
  | f + 1, prev, pdt, carry, t :: r =>
    let move := if 0 < carry then min carry (max 0 (t.t - prev - minP - gapDt pdt t.dt)) else 0
    let lost := (carry - move).toNat
    let t' := { t with t := t.t - move }
    match r with
    | [] => { keep := [t'], lost }
    | u :: r' =>
      let len := u.t - t'.t
      let dt := gapDt t.dt u.dt
      if len - dt < max minP 1 then
        let o := filterLeg minP f prev pdt (min len minP) r'
        { o with dropped := o.dropped + b2n t.up, merged := o.merged + b2n (!t.up), swallowed := o.swallowed + b2n (decide (len ≤ dt)),
                 lost := o.lost + lost + (len - min len minP).toNat }
      else
        let o := filterLeg minP f t'.t t.dt 0 (u :: r')
        { o with keep := t' :: o.keep, lost := o.lost + lost }

/-- The edge entries of a transition, those of absent switches left out (R236, R237). -/
def transEntries (e : Bytes) (leg : Nat) (t : Trans) (sel held noOff : Bool) : List Entry :=
  let lo : Int := (t.dt / 2 : Nat)
  let off : EdgeMark := { leg, up := t.up, off := true, sel, held }
  let on : EdgeMark := { leg, up := t.up, off := false, sel, held }
  (if markMapped e off && !noOff then [{ time := t.t - lo, node := sel, marks := [off] }] else []) ++
    (if markMapped e on then [{ time := t.t + (t.dt - lo), node := sel, marks := [on] }] else [])

/-- Adds the counts of a leg's removals (R248, R249, R265). -/
def State.legCounts (s : State) (lane : Nat) (o : LegOut) : State :=
  if o.dropped + o.merged + o.lost = 0 then s
  else (((s.bumpBy 0x0810 lane 0 o.dropped).bumpBy 0x0810 lane 1 o.merged).bumpBy 0x0810 lane 2 o.swallowed).bumpBy 0x0810 lane 4 o.lost

/-- Releases transitions: each is counted for selection and gives its entries (R236, R273). -/
def State.releaseTrans (s : State) (lane leg : Nat) (noOff : Option Int) (ts : List Trans) : State × List Entry :=
  ts.foldl (fun a t =>
    let r := a.1.dtSelect lane leg t
    (r.1, a.2 ++ transEntries (s.entry lane) leg t r.2 false (decide (noOff = some t.t)))) (s, [])

/-- Plans one leg: a fresh one begins at a with all switches off (R258). Where the first transition's turn-off would not
come after the turn-on at a + DT_hi, the switch is not turned on at all (log 10). -/
def State.planLeg (s : State) (str lane : Nat) (fresh : Option Int) (w : LegWork) : State × List Entry :=
  let e := s.entry lane
  let minP := s.minPulse str
  let dt := (s.dleg lane w.leg).cap
  let l := (s.ml lane).legs.get {} w.leg
  let lvl := match fresh with
    | some a => ((w.trs.filter fun (x : Int × Bool) => decide (x.1 ≤ a)).getLast?.map (fun x => x.2)).getD w.lvl
    | none => w.lvl
  let ts := (match fresh with
    | some a => w.trs.filter fun (x : Int × Bool) => decide (a < x.1)
    | none => w.trs).map fun (x : Int × Bool) => ({ t := x.1, up := x.2, dt } : Trans)
  let prev := fresh.getD l.prev
  let o := if fresh.isSome then filterLeg minP ts.length prev dt 0 ts
    else filterLeg minP (l.held.length + ts.length) prev l.prevDt l.carry (l.held ++ ts)
  let hold := w.nextAt - minP - s.dtMax str
  let rel := o.keep.filter fun t => decide (t.t < hold)
  let hld := o.keep.filter fun t => !decide (t.t < hold)
  let onAt := prev + (dt - dt / 2 : Nat)
  let clash := match o.keep with
    | t :: _ => fresh.isSome && decide (t.t - (dt / 2 : Nat) ≤ onAt)
    | [] => false
  let onMark : EdgeMark := { leg := w.leg, up := lvl, off := false }
  let start : List Entry := if fresh.isSome && !clash && markMapped e onMark then [{ time := onAt, marks := [onMark] }] else []
  let r := (s.legCounts lane o).releaseTrans lane w.leg (if clash then (o.keep.head?.map (·.t)) else none) rel
  let s1 := r.1.modMl lane fun m =>
    { m with legs := m.legs.set w.leg { prev := (rel.getLast?.map (·.t)).getD prev,
                                        prevDt := (rel.getLast?.map (·.dt)).getD (if fresh.isSome then dt else l.prevDt),
                                        carry := o.carry, held := hld } }
  (s1, start ++ r.2 ++ (hld.map fun t => transEntries e w.leg t false true false).flatten)

/-! ### Isolation stages (R245 to R247) -/

/-- Whether the isolation stages of a lane run. -/
def State.isoRuns (s : State) (str lane : Nat) : Bool :=
  let m := (s.str str).mode
  eType (s.entry lane) == 1 && (m == 3 || ((m == 1 || m == 2) && s.modFlag str 2))

/-- T_ISO in ticks. -/
def State.isoT (s : State) (str : Nat) : Nat := (s.str str).period / max 1 (s.pu 0x0806 str 0 1)

/-- The isolation shift of a lane (R245). -/
def State.isoShift (s : State) (str lane : Nat) : Int :=
  if s.modFlag str 4 then ((ePos (s.entry lane) * s.isoT str / 128 : Nat) : Int) else 0

/-- The phase in ticks (R246). -/
def State.isoPhi (s : State) (str lane : Nat) : Int := (s.refSum str lane 2 * s.isoT str + 32768) / 65536

/-- The starts of the isolation cycles of an output period from o: the first takes up the remainder (R245). -/
def State.isoStarts (s : State) (str lane : Nat) (o : Int) : List Int :=
  let div := max 1 (s.pu 0x0806 str 0 1)
  let sn := s.isoShift str lane
  (List.range div).map fun q =>
    if q = 0 then o + (s.ml lane).isoPrev.getD sn else o + (s.str str).period + sn - ((div - q) * s.isoT str : Nat)

/-- The lag of the first lagging transition of the plan: half the change with ISO_HALFSTEP = 1 (R247, log 11). -/
def State.isoFirstLag (s : State) (str lane : Nat) : Int :=
  let ph := s.isoPhi str lane
  match (s.ml lane).isoPhase with
  | some old => if s.modFlag str 3 then ((old + (ph - old) / 2).natAbs : Int) else (ph.natAbs : Int)
  | none => (ph.natAbs : Int)

/-- The transitions of the legs 2 to 5 (R246, R247). -/
def State.isoWork (s : State) (str lane : Nat) (o : Int) : List LegWork :=
  let starts := s.isoStarts str lane o
  let h : Int := (s.isoT str / 2 : Nat)
  let ph := s.isoPhi str lane
  let lag : Int := (ph.natAbs : Int)
  let firstLag := s.isoFirstLag str lane
  let nextAt := o + (s.str str).period + s.isoShift str lane
  let leadT : List (Int × Bool) := (starts.map fun a => [(a, true), (a + h, false)]).flatten
  let lagT : List (Int × Bool) := ((starts.zip (List.range starts.length)).map fun x =>
    [(x.1 + (if x.2 = 0 then firstLag else lag), true), (x.1 + lag + h, false)]).flatten
  let inv := fun (l : List (Int × Bool)) => l.map fun x => (x.1, !x.2)
  let pri := if 0 ≤ ph then leadT else lagT
  let sec := if 0 ≤ ph then lagT else leadT
  [{ leg := 2, lvl := false, trs := pri, nextAt }, { leg := 3, lvl := true, trs := inv pri, nextAt },
    { leg := 4, lvl := false, trs := sec, nextAt }, { leg := 5, lvl := true, trs := inv sec, nextAt }]

/-! ### The plan of a member -/

/-- A member's main legs and principal cycle, with its lane's new carrier state. -/
structure MainPlan where
  /-- The work of legs 0 and 1. -/
  work : List LegWork
  /-- The start of the first cycle. -/
  a : Int
  /-- The principal cycle. -/
  cycle : Int × Int
  /-- The lane's carriers and insertion state after the plan. -/
  after : ModLane

/-- A member of a PSC string (R240, R241). -/
def State.mainPsc (s : State) (str lane i n : Nat) (o : Int) : MainPlan :=
  let l := s.ml lane
  let t := (s.str str).period
  let sn := pscNext l.sPrev (s.pscTarget str i n) t
  let c := o + l.sPrev.getD sn
  let ce := o + t + sn
  let m := s.refSum str lane 0
  let legs : List LegWork := [{ leg := 0, trs := pscLeg c (ce - c) m, nextAt := ce }] ++
    (if eType (s.entry lane) = 1 then [{ leg := 1, trs := pscLeg c (ce - c) (min 32767 (-m)), nextAt := ce }] else [])
  { work := legs, a := c, cycle := (c, ce), after := { l with sPrev := some sn } }

/-- A member of an NLC string, with its place in the switching sequence (R242 to R244). -/
def State.mainNlc (s : State) (str lane : Nat) (o : Int) (seq : List Nat) (order : List SortMember) : MainPlan :=
  let l := s.ml lane
  let t := (s.str str).period
  let new := ((order.find? fun m => m.lane == lane).map (·.after)).getD 0
  let j := (seq.findIdx? fun x => x == lane).getD 0
  let u := o + (j * s.pu 0x0809 str 0 2 : Nat)
  let zh := s.modFlag str 1 && l.zeroHigh
  let old := nlcLegs l.nlc l.atHigh
  let tgt := nlcLegs new (if l.nlc = 0 then l.atHigh else zh)
  let toZero := decide (new = 0) && decide (l.nlc ≠ 0)
  let next := o + t
  { work := [{ leg := 0, lvl := old.1, trs := if old.1 = tgt.1 then [] else [(u, tgt.1)], nextAt := next },
      { leg := 1, lvl := old.2, trs := if old.2 = tgt.2 then [] else [(u, tgt.2)], nextAt := next }],
    a := o, cycle := (o, next),
    after := { l with nlc := new, atHigh := if toZero then zh else l.atHigh,
                      zeroHigh := if toZero && s.modFlag str 1 then !l.zeroHigh else l.zeroHigh } }

/-- A member of an ISO_ONLY string: legs 0 and 1 are held low (R245). -/
def State.mainIso (s : State) (str lane : Nat) (o : Int) : MainPlan :=
  let next := o + (s.str str).period
  { work := [{ leg := 0, nextAt := next }, { leg := 1, nextAt := next }], a := o, cycle := (o, next), after := s.ml lane }

/-- Plans one member (R239 to R250, R257, R258). -/
def State.planMember (s : State) (str lane i n : Nat) (seq : List Nat) : State :=
  let x := s.str str
  let o : Int := ((x.bAt + s.modDelay str : Nat) : Int)
  let fresh := !(s.ml lane).on
  let s0 := if fresh then s.modMl lane fun m =>
      { m with on := true, sPrev := none, isoPrev := none, isoPhase := none, legs := {}, nlc := 0, atHigh := false, cycle := none }
    else s
  let s1 := if fresh then (List.range 6).foldl (fun s g => s.modDleg lane g fun d => { d with count := 0 }) s0 else s0
  let p := if x.mode = 1 then s1.mainPsc str lane i n o
    else if x.mode = 2 then s1.mainNlc str lane o seq (s1.srt str).order
    else s1.mainIso str lane o
  let iso := s1.isoRuns str lane
  let starts := s1.isoStarts str lane o
  let work := (p.work ++ (if iso then s1.isoWork str lane o else [])).filter fun w => legMapped (s.entry lane) w.leg
  let cyc := if iso && x.mode != 1 then
      (starts.headD o, (starts.drop 1).headD (o + x.period + s1.isoShift str lane))
    else p.cycle
  let after := if iso then { p.after with isoPrev := some (s1.isoShift str lane), isoPhase := some (s1.isoPhi str lane) } else p.after
  let s2 := s1.modMl lane fun _ => after
  let r := work.foldl (fun a w =>
    let q := a.1.planLeg str lane (if fresh then some p.a else none) w
    (q.1, a.2 ++ q.2)) (s2, ([] : List Entry))
  let relAt : Int := if x.first then o else p.a
  let isMv := eType (s.entry lane) == 1
  let acts : List Entry := if fresh && isMv then [{ time := relAt, act := some .release }] else []
  let s3 := if fresh && isMv && (s.byp lane).relWanted then
      r.1.modByp lane fun b => { b with relWanted := false, relAt := some relAt.toNat }
    else r.1
  let s4 := if fresh && isMv then s3.modByp lane fun b => { b with judgeAt := some relAt.toNat } else s3
  s4.modStr str fun y =>
    { y with plan := y.plan.map fun q =>
        { q with lanes := q.lanes ++ [{ lane, add := acts ++ r.2, cycle := some cyc, release := if fresh && isMv then some relAt else none }] } }

/-- A lane leaves the plan on the planned path: ENTER at the end of its last cycle (R259). -/
def State.planGone (s : State) (str lane : Nat) : State :=
  let x := s.str str
  let o : Int := ((x.bAt + s.modDelay str : Nat) : Int)
  let te := o + (if x.mode = 1 then (s.ml lane).sPrev.getD 0 else 0)
  let enters := eType (s.entry lane) == 1 && (s.byp lane).enterAt.isNone && s.bypassed lane
  let s1 := (s.modMl lane fun m => { m with on := false, legs := {}, nlc := 0, atHigh := false, cycle := none }).dtDiscard lane
  let s2 := if enters then s1.modByp lane fun b => { b with enterAt := some te.toNat } else s1
  s2.modStr str fun y =>
    { y with plan := y.plan.map fun q =>
        { q with lanes := q.lanes ++
          [{ lane, leaves := true, add := if enters then [{ time := te, act := some .enter }] else [], cut := some te,
             enter := if enters then some te else none }] } }

/-- The lanes of a string that receive HOLD in a period: bypassed or disabled MV cells without an ENTER of the same plan, that have
a working link (R31, R260). -/
def State.holdLanes (s : State) (str : Nat) (mem : List Nat) : List Nat :=
  (s.lanesOf str).filter fun l =>
    eType (s.entry l) == 1 && !mem.contains l && s.workingLink l &&
      !(match (s.str str).plan with
        | some p => p.lanes.any fun q => q.lane == l && q.enter.isSome
        | none => false)

/-- Makes the plan of the output period that follows the latest boundary (R231, R239 to R260). -/
def State.planNow (s : State) (str : Nat) : State :=
  let x := s.str str
  let mem := s.planMembers str
  let n := mem.length
  let o : Int := ((x.bAt + s.modDelay str : Nat) : Int)
  let seq := if x.mode = 2 then s.nlcSeq (s.srt str).order else []
  let s1 := s.modStr str fun y => { y with n, plan := some { at_ := y.bAt }, orderWait := false }
  let gone := (s.lanesOf str).filter fun l => (s.ml l).on && !mem.contains l
  let s2 := gone.foldl (fun s l => s.planGone str l) s1
  let s3 := (mem.zip (List.range n)).foldl (fun s m => s.planMember str m.1 m.2 n seq) s2
  let s4 := s3.modStr str fun y =>
    { y with first := false,
             plan := y.plan.map fun q => { q with lanes := q.lanes ++ ((s3.holdLanes str mem).map fun l =>
               ({ lane := l, leaves := true, add := [{ time := o, act := some .hold }] } : LanePlan)) } }
  s4

/-! ### Completion -/

/-- An entry without its held edges, if any edge is left (R250). -/
def dropHeld (x : Entry) : Option Entry :=
  if !x.held then some x
  else
    let m := x.marks.filter fun m => !m.held
    if m.isEmpty then none else some { x with marks := m, node := m.any (·.sel) }

/-- An entry whose held edges are released as they stand (R259, R261). -/
def freeHeld (x : Entry) : Entry := { x with marks := x.marks.map fun m => { m with held := false } }

/-- Removes a lane's held transitions from its shelf, and expands others into the room, or releases them as they stand (R250, R251). -/
def State.unhold (s : State) (lane : Nat) (stand : Bool) : State :=
  (s.modMl lane fun l =>
    if stand then { l with shelf := l.shelf.map freeHeld, wait := l.wait.map freeHeld }
    else { l with shelf := l.shelf.filterMap dropHeld, wait := l.wait.filterMap dropHeld }).addEntries lane []

/-- Sets PERIOD_START on the first unsent edge entry of a span; also tells whether it stands (R238). -/
def markFirst (c ce : Int) : List Entry → List Entry × Bool
  | [] => ([], false)
  | x :: r =>
    if x.act.isNone && x.raw.isNone && decide (c ≤ x.time) && decide (x.time < ce) then
      (if x.sent then (x :: r, true) else ({ x with mark := true } :: r, !x.held))
    else
      let q := markFirst c ce r
      (x :: q.1, q.2)

/-- Marks the first entry of a principal cycle on a lane (R238). -/
def State.markCycle (s : State) (lane : Nat) (c : Int × Int) : State :=
  let l := s.ml lane
  let q := markFirst c.1 c.2 (l.shelf ++ l.wait)
  s.modMl lane fun m =>
    { m with shelf := q.1.take l.shelf.length, wait := q.1.drop l.shelf.length, cycle := if q.2 then none else some c }

/-- The reply of a command that waited for a plan: now, or once the standby has acknowledged too (R72, R362, log 68). -/
def State.plannedReply (s : State) (mb : Nat) (payload : Bytes) : State :=
  if s.twin.fwdOut.any fun f => f.mb == mb then s.waitFor mb (.standbyAck stOk payload) else s.replyOk mb payload

/-- Writes the replies of the mailboxes that wait with a given mark (R362, log 68). -/
def State.answerWaiting (s : State) (w : Waiting) (payload : Bytes) : State :=
  (List.range 8).foldl (fun s mb => if (s.box mb).waiting = w then s.plannedReply mb payload else s) s

/-- Completes a plan on one lane (R232, R237, R238, R250, R251, R259, R362). -/
def State.lanePlanDone (s : State) (p : LanePlan) : State :=
  let s1 := s.unhold p.lane p.leaves
  let s2 := match p.cut with
    | some c => s1.withdraw p.lane fun x => decide (c < x.time)
    | none => s1
  let s3 := s2.addEntries p.lane p.add
  let s4 := match (s3.ml p.lane).cycle with
    | some c => s3.markCycle p.lane c
    | none => s3
  let s5 := match p.cycle with
    | some c => s4.markCycle p.lane c
    | none => s4
  let s6 := match p.enter with
    | some t => s5.answerWaiting (.cellBypass p.lane) (leBytes 4 (shortOf t))
    | none => s5
  match p.release with
  | some t => s6.answerWaiting (.cellRelease p.lane) (leBytes 4 (shortOf t))
  | none => s6

end Sys2Proof.Machine
end

