-- ==== Sys2Proof/Machine/ProtOps.lean ====
section
/-!
DEFINITION. String protection and cell bypass: trips, records, urgent and planned bypasses, and the reactions to samples, faults and
lost cells (R334 to R349).
-/

namespace Sys2Proof.Machine

/-! ### Actions -/

/-- Shelves an action on a lane that has a working link (log 64). -/
def State.sendAct (s : State) (lane : Nat) (a : BypAct) (t : Int) : State :=
  if s.workingLink lane then s.pushAct lane a t else s

/-- Takes a lane out of its plan at once: every unsent entry withdrawn, carries cleared, pending judgements and its part of a plan in
progress discarded (R255, R259, R294). -/
def State.laneOut (s : State) (lane : Nat) : State :=
  let s1 := (s.withdraw lane fun _ => true).modMl lane fun m =>
    { m with on := false, legs := {}, nlc := 0, atHigh := false, sPrev := none, isoPrev := none, isoPhase := none, cycle := none }
  (s1.dtDiscard lane).modStr (s.strOf lane) fun y =>
    { y with plan := y.plan.map fun q => { q with lanes := q.lanes.filter fun p => p.lane != lane } }

/-- The enabled MV members of a string that are bypassed, counted against BYP_MAX (R346). -/
def State.bypCount (s : State) (str : Nat) : Nat :=
  ((s.members str).filter fun l => eType (s.entry l) == 1 && s.bypassed l).length

/-- Whether the bypassed members exceed BYP_MAX (R346, log 67). -/
def State.bypOver (s : State) (str : Nat) : Bool := decide (s.pu 0x0C06 str 2 1 < s.bypCount str)

/-! ### Stopping (R261, R349) -/

/-- What a string does on becoming STOPPED: RELEASE to members without a bypass pair, 8,000 ticks later; judgements discarded; COAST_CFG
follows IDLE_OK (R165, R294, R349, log 56). -/
def State.becomeStopped (s : State) (str : Nat) : State :=
  let s1 := (s.modStr str fun y =>
    { y with st := .stopped, stopAt := none, stopReq := false, darkStop := false, first := false, orderWait := false, plan := none,
             n := 0 }).modPrt str fun p => { p with uvArmed := false }
  let mem := s1.members str
  let s2 := mem.foldl (fun s l =>
    let s := (s.modMl l fun m => { m with on := false, legs := {}, nlc := 0, cycle := none }).dtDiscard l
    if eType (s.entry l) = 1 then s else s.sendAct l .release ((s.now + 8000 : Nat) : Int)) s1
  s2.coastLanes (s2.lanesOf str)

/-! ### Trips (R337, R341, R262) -/

/-- Whether a lane's ENTER is still to be sent: not yet timed, or waiting on the shelf (R346, R364, log 62). -/
def State.enterUnsent (s : State) (lane : Nat) : Bool :=
  (s.byp lane).enterAt.isNone || ((s.ml lane).shelf ++ (s.ml lane).wait).any fun x => x.act == some .enter && !x.sent

/-- The trip action of one lane, timed at an instant: twice, or ENTER and then HOLD, at the decision; once, with HOLD for ENTER, at a
boundary; HOLD for a member whose ENTER has gone out (R337, R346, R364, log 62). -/
def State.tripAction (s : State) (str lane : Nat) (t : Int) (again entered : Bool) : State :=
  let e := s.entry lane
  if eType e = 1 ∧ entered = true then s.sendAct lane .hold t
  else if eType e = 1 ∧ s.pu 0x0C06 str 0 1 = 1 then
    (if again then s.sendAct lane .hold t else (s.sendAct lane .enter t).sendAct lane .hold t)
  else if again then s.sendAct lane .allOff t
  else (s.sendAct lane .allOff t).sendAct lane .allOff t

/-- Sends TW_TRIP where a twin takes part (R371, R378). -/
def State.twinTrip (s : State) (str mask : Nat) : State :=
  if s.twinEn && s.twinLinkUp && (decide (s.twin.role = .active) || decide (s.twin.role = .standby)) then
    s.twinSend 0x33 (pf 80 s.twin.epoch + pf 72 str + pf 56 mask + pf 24 s.shortNow)
  else s

/-- One lane of a string that trips: out of the plan, its pending bypass timed by the trip action, its pending release discarded
(R262, R337, R346, R362, R364, log 62). -/
def State.tripLane (s : State) (str : Nat) (lane : Nat) : State :=
  let entered := s.bypassed lane && !s.enterUnsent lane
  let s1 := s.laneOut lane
  let b := s1.byp lane
  let s2 := if b.held.isSome && b.enterAt.isNone then s1.modByp lane fun b => { b with enterAt := some s.now } else s1
  let s3 := s2.modByp lane fun b => { b with relWanted := false, relAt := none, judgeAt := none }
  let s4 := (s3.answerWaiting (.cellBypass lane) (leBytes 4 s.shortNow)).answerWaiting (.cellRelease lane) (leBytes 4 0)
  if eEnabled (s.entry lane) && typeSwitches (eType (s.entry lane)) then s4.tripAction str lane s.now false entered else s4

/-- A trip with a mask of causes: the string becomes TRIPPED, or the causes join the mask (R337, R341, log 61). -/
def State.tripMask (s : State) (str mask lane : Nat) : State :=
  let first := ((List.range 16).find? fun b => bit mask b).getD 0
  if (s.str str).st = .tripped then s.modPrt str fun p => { p with mask := p.mask ||| mask }
  else
    let s1 := (s.modStr str fun y =>
      { y with st := .tripped, plan := none, orderWait := false, stopReq := false, stopAt := none, darkStop := false, first := false,
               n := 0 }).modPrt str fun p => { p with mask, first, tripAt := s.shortNow, uvArmed := false }
    let s2 := (s.lanesOf str).foldl (fun s l => s.tripLane str l) s1
    ((s2.bump 0x0C09 str 0).note 0x08 0x0C01 (leBytes 1 str ++ leBytes 1 first ++ leBytes 2 lane)).coastLanes (s2.lanesOf str)

/-- A trip this unit decides: it is noted and told to the twin (R378). In a string already TRIPPED the cause is added to the mask, and
nothing is sent (R341, log 61). -/
def State.trip (s : State) (str cause lane : Nat) : State :=
  if (s.str str).st = .tripped then s.tripMask str (2 ^ cause) lane
  else ((s.tripMask str (2 ^ cause) lane).modPrt str fun p => { p with ownTrip := some s.mono }).twinTrip str (2 ^ cause)

/-! ### Bypass (R344 to R347) -/

/-- Makes a bypass record where none is held, and discards a pending release (R344, R364). -/
def State.record (s : State) (lane cause : Nat) : State :=
  let s1 := s.answerWaiting (.cellRelease lane) (leBytes 4 0)
  s1.modByp lane fun b =>
    match b.held with
    | some _ => { b with relWanted := false }
    | none => { held := some cause, fresh := true }

/-- ENTER at once: the cell's unsent entries are withdrawn, and it leaves the plan (R259, R345). -/
def State.enterNow (s : State) (lane : Nat) : State :=
  (((s.laneOut lane).modByp lane fun b => { b with enterAt := some s.now }).sendAct lane .enter s.now).answerWaiting
    (.cellBypass lane) (leBytes 4 s.shortNow)

/-- Whether a record just made takes its string past BYP_MAX, so that the string trips (R346, log 67). -/
def State.limitTrips (s : State) (str : Nat) : Bool :=
  (decide ((s.str str).st = .running) || decide ((s.str str).st = .starting)) && s.bypOver str

/-- Whether the ENTER of a record is still ahead and not sent, so that an urgent cause brings it forward (R345). -/
def State.enterAhead (s : State) (lane : Nat) : Bool :=
  s.enterUnsent lane && (match (s.byp lane).enterAt with
    | some t => decide (s.now < t)
    | none => true)

/-- An urgent bypass of an MV cell; one whose planned bypass is pending enters at once, with its first cause (R344, R345, R346, log 64). -/
def State.urgentBypass (s : State) (lane cause : Nat) : State :=
  let str := s.strOf lane
  if s.bypassed lane then
    if s.enterAhead lane then (s.record lane cause).enterNow lane else s.record lane cause
  else
    let s1 := (s.record lane cause).bump 0x0C09 str 1
    if s1.limitTrips str then s1.trip str 8 0xFFFF else s1.enterNow lane

/-- A planned bypass of an MV cell: in a RUNNING string at its next boundary, otherwise at once (R345, R346). -/
def State.plannedBypass (s : State) (lane cause : Nat) : State :=
  let str := s.strOf lane
  if s.bypassed lane then s.record lane cause
  else
    let s1 := (s.record lane cause).bump 0x0C09 str 2
    if s1.limitTrips str then s1.trip str 8 0xFFFF
    else if (s.str str).st = .running then s1
    else s1.enterNow lane

/-! ### What a lane's health says -/

/-- EP_STATE of the latest HEALTH (R159, R174). -/
def Link.epState (l : Link) : Nat := uAt l.health 1 1 / 16

/-- A flag of the latest HEALTH (R159). -/
def Link.epFlag (l : Link) (n : Nat) : Bool := bit (uAt l.health 3 1 + 256 * uAt l.health 2 1) n

/-- A HEALTH is judged for a refused release (R348). -/
def State.healthTaken (s : State) (lane : Nat) : State :=
  match (s.byp lane).judgeAt with
  | none => s
  | some t =>
    if s.now < t then s
    else
      let l := s.lnk lane
      let s1 := s.modByp lane fun b => { b with judgeAt := none }
      if (l.epFlag 5 || decide (l.epState = 6)) && eEnabled (s.entry lane) && !s.bypassed lane then
        ((s1.urgentBypass lane 0x0A).bump 0x0C09 (s.strOf lane) 4).fire 0x3A lane []
      else s1

/-! ### Faults and lost cells (R342, R343) -/

/-- A member whose failure trips its string (R334, R342, R343). -/
def State.cellFail (s : State) (lane : Nat) : State :=
  let str := s.strOf lane
  (s.modPrt str fun p => { p with failed := lane :: p.failed.filter (· != lane) }).trip str 7 0xFFFF

/-- Whether a string names a lane as a protection source (R335). -/
def State.usesSource (s : State) (str lane : Nat) : Bool := s.pu 0x0C03 str 0 2 == lane || s.pu 0x0C03 str 4 2 == lane

/-- The reactions to an enabled lane that has lost its link, its upstream or its authentication; the dark hold excuses all but a failed
authentication (R43, R343, R353). -/
def State.lostMember (s : State) (lane : Nat) (auth : Bool := false) : State :=
  let e := s.entry lane
  if !eEnabled e then s
  else if eType e = 1 then
    if s.darkExempt lane && !auth then s.bump 0x0C12 noInst 3 else s.urgentBypass lane 3
  else if eType e = 5 then
    let s1 := (s.modLink lane fun l => { l with stale := true }).condOn 0x39 lane 0 []
    (List.range 16).foldl (fun s str =>
      if (s.str str).st = .running ∧ s.usesSource str lane = true then s.trip str 6 0xFFFF else s) s1
  else s.cellFail lane

/-- The reaction to an endpoint's fault code (R342, log 64). -/
def State.faultTaken (s : State) (lane code : Nat) : State :=
  let e := s.entry lane
  let str := eStr e
  if !eEnabled e || !typeSwitches (eType e) then s
  else
    let mv := eType e == 1
    let hard := [0x01, 0x02, 0x03, 0x04].contains code || (decide (0x80 ≤ code) && s.pu 0x0C06 str 3 1 == 1)
    if hard then (if mv then s.urgentBypass lane 4 else s.cellFail lane)
    else if code = 0x09 then s.cellFail lane
    else if code = 0x0B then
      if s.strStopped str then s else if mv then s.urgentBypass lane 5 else s.cellFail lane
    else if code = 0x0D then s.trip str 14 0xFFFF
    else s

/-! ### Samples (R335, R336) -/

/-- Whether a cause of bits 0 to 5 is armed (R335). -/
def State.armed (s : State) (str n : Nat) : Bool := bit (s.pu 0x0C02 str 0 2) n

/-- A protection source's channel value, where it is not stale: its lane enabled, its lane not marked stale, its sampling instant within
PROT_STALE (R31, R335). -/
def State.protFresh (s : State) (lane chan : Nat) : Bool :=
  let l := s.lnk lane
  eEnabled (s.entry lane) && !l.stale &&
    match (l.samples.get {} chan).at_ with
    | some t => decide (s.now ≤ t + s.p0 0x0C07)
    | none => false

/-- A new value of I_SRC of a string (R334, R335). -/
def State.protCurrent (s : State) (str lane chan : Nat) : State :=
  let x := (s.lnk lane).samples.get {} chan
  let t := x.at_.getD 0
  let i := x.value
  let p := s.prt str
  let beyond := decide (s.ps 0x0C04 str 0 2 < (i.natAbs : Int))
  let open_ := decide ((s.str str).st ≠ .tripped) && s.protFresh lane chan
  let run := if open_ && s.armed str 0 && beyond then p.ocRun + 1 else 0
  let ror := match p.iPrev with
    | some (i0, t0) => decide (s.ps 0x0C04 str 2 2 < ((i - i0).natAbs : Int)) && decide (t ≤ t0 + s.pu 0x0C04 str 8 4)
    | none => false
  let s1 := s.modPrt str fun p => { p with ocRun := run, iPrev := some (i, t) }
  if open_ = false then s1
  else if s.armed str 0 && beyond && decide (s.pu 0x0C04 str 4 1 ≤ run) then s1.trip str 0 lane
  else if s.armed str 1 && ror then s1.trip str 1 lane
  else s1

/-- A new value of BUS_SRC of a string (R334, R335). -/
def State.protBus (s : State) (str lane chan : Nat) : State :=
  let v := ((s.lnk lane).samples.get {} chan).value
  if (s.str str).st = .tripped ∨ s.protFresh lane chan = false then s
  else if s.armed str 4 && decide (s.ps 0x0C05 str 4 2 < v) then s.trip str 4 lane
  else if s.armed str 5 && (s.prt str).uvArmed && decide (v < s.ps 0x0C05 str 6 2) then s.trip str 5 lane
  else s

/-- A new capacitor voltage of a member (R334 to R336). -/
def State.protCap (s : State) (lane chan : Nat) : State :=
  let e := s.entry lane
  let str := eStr e
  let v := ((s.lnk lane).samples.get {} chan).value
  let byp := fun n => eType e == 1 && bit (s.pu 0x0C06 str 1 1) n
  if !eEnabled e || !typeSwitches (eType e) || s.bypassed lane || decide (chanOf e 1 ≠ some chan) ||
      decide ((s.str str).st = .tripped) then s
  else if s.armed str 2 && decide (s.ps 0x0C05 str 0 2 < v) then (if byp 0 then s.urgentBypass lane 6 else s.trip str 2 lane)
  else if s.armed str 3 && (s.prt str).uvArmed && decide (v < s.ps 0x0C05 str 2 2) then
    (if byp 1 then s.urgentBypass lane 7 else s.trip str 3 lane)
  else s

/-- Every comparison of string protection with a channel's new value, string by string (R335). -/
def State.protSample (s : State) (lane chan : Nat) : State :=
  let s1 := (List.range 16).foldl (fun s str =>
    let a := if s.pu 0x0C03 str 0 2 = lane ∧ s.pu 0x0C03 str 2 1 = chan ∧ eEnabled (s.entry lane) = true then
      s.protCurrent str lane chan else s
    if s.pu 0x0C03 str 4 2 = lane ∧ s.pu 0x0C03 str 6 1 = chan ∧ eEnabled (s.entry lane) = true then a.protBus str lane chan else a) s
  s1.protCap lane chan

/-- Whether a named source of a string is stale, so that BLIND is raised or present (R334, R335). -/
def State.sourceStale (s : State) (str : Nat) : Bool :=
  let one := fun off => s.pu 0x0C03 str off 2 != 0xFFFF && !s.protFresh (s.pu 0x0C03 str off 2) (s.pu 0x0C03 str (off + 2) 1)
  one 0 || one 4

/-! ### The state parameters (R361) -/

/-- BYP_STATE byte 0 (R361). -/
def State.bypCode (s : State) (lane : Nat) : Nat :=
  let b := s.byp lane
  let relPending := b.relWanted || (match b.relAt with
    | some t => decide (s.now < t)
    | none => false)
  if relPending then 3
  else if b.held.isNone then 0
  else
    match b.enterAt with
    | some t => if s.now < t then 2 else 1
    | none => 2

end Sys2Proof.Machine
end

