-- ==== Sys2Proof/Machine/RideOps.lean ====
section
/-!
DEFINITION. Starting and stopping a string, and the sequence that rides through an outage (R257, R261, R266, R267, R351 to R360).
-/

namespace Sys2Proof.Machine

/-! ### Starting and stopping a string -/

/-- The states of the sequence in which STRING_START of a string in ENABLE_ORDER is refused (R363). -/
def RideSt.restarting : RideSt → Bool
  | .dewWait => true
  | .precharge => true
  | .sync => true
  | .enable => true
  | _ => false

/-- ORDER of ENABLE_CFG up to its end (R358). -/
def State.rideOrder (s : State) : List Nat :=
  ((List.range 16).map fun k => s.pu 0x0C11 noInst k 1).takeWhile fun x => decide (x < 16)

/-- Whether MOD_MODE suits a string's type: OFF never, none without a switching type, NLC and ISO_ONLY with MV_CELL alone (R21, R266). -/
def State.modeSuits (s : State) (str : Nat) : Bool :=
  let m := s.pu 0x0802 str 0 1
  decide (m ≠ 0) && decide (s.strType str ≠ 0) && ((m != 2 && m != 3) || s.strType str == 1)

/-- The refusal of a start at a short time, status and reason, if any (R233, R266, log 57). -/
def State.startRefusal (s : State) (str short : Nat) : Option (Nat × Nat) :=
  let st := (s.str str).st
  let b0 : Int := (s.tickOf short : Int) - s.modDelay str
  if st = .tripped then some (stTrip, 0x41)
  else if st ≠ .stopped then some (stRefused, 0x42)
  else if !s.delayOk str then some (stRefused, 0x43)
  else if !s.modeSuits str then some (stRefused, 0x44)
  else if !s.cycleOk str (s.pu 0x0802 str 0 1) (s.pu 0x0803 str 0 4) (s.pu 0x0806 str 0 1) (s.minPulse str) then some (stRefused, 0x45)
  else if !s.aheadOk short then some (stBadParam, 0x34)
  else if b0 < (s.now + 8000 : Nat) then some (stBadParam, 0x46)
  else none

/-- The reactions of R43 to the enabled lanes of a string that have no working link when it starts (log 113). -/
def State.lostAtStart (s : State) (str : Nat) : State :=
  ((s.lanesOf str).filter fun l => eEnabled (s.entry l) && !s.workingLink l).foldl (fun s l => s.lostMember l) s

/-- Hands an accepted start to the modulator: B_0 = O_0 − D (R43, R257). -/
def State.startString (s : State) (str short : Nat) : State :=
  let o0 := s.tickOf short
  let b0 := o0 - s.modDelay str
  let s1 := s.modStr str fun y =>
    { y with st := .starting, mode := s.pu 0x0802 str 0 1, o0, first := true, next := min y.next b0, stopReq := false, darkStop := false,
             rejected := none, plan := none }
  let s2 := (s1.modPrt str fun p => { p with uvArmed := false }).modSrt str fun x => { x with order := [] }
  (s2.coastLanes (s2.lanesOf str)).lostAtStart str

/-- Cancels a start before O_0: no RELEASE is sent (R267). -/
def State.cancelStart (s : State) (str : Nat) : State :=
  (((s.lanesOf str).foldl (fun s l => s.laneOut l) s)).becomeStopped str

/-- Asks for a stop at the next boundary (R261); a dark stop sends ALL_OFF to every member (R352). -/
def State.askStop (s : State) (str : Nat) (dark : Bool) : State :=
  if (s.str str).st = .starting then s.cancelStart str
  else if (s.str str).st = .running then
    s.modStr str fun y => { y with stopReq := true, darkStop := y.darkStop || dark }
  else s

/-- A stop by the host; the sequence does not start a string stopped while it runs (R261, R363). -/
def State.hostStop (s : State) (str : Nat) : State :=
  let s1 := s.askStop str false
  if s.prot.ride.st.restarting && s.rideOrder.contains str then
    s1.updProt fun p => { p with ride := { p.ride with stopped := str :: p.ride.stopped.filter (· != str) } }
  else s1

/-- The stop at a boundary B_k: held transitions stand, ENTER or ALL_OFF at O_k, later entries withdrawn (R261, R269, R352, log 52). -/
def State.stopAtBoundary (s : State) (str : Nat) (o : Nat) : State :=
  let dark := (s.str str).darkStop
  let s1 := (s.lanesOf str).foldl (fun s l =>
    let e := s.entry l
    let was := (s.ml l).on
    let s1 := ((s.unhold l true).withdraw l fun x => decide ((o : Int) < x.time)).modMl l fun m =>
      { m with on := false, legs := {}, nlc := 0, atHigh := false, sPrev := none, isoPrev := none, isoPhase := none, cycle := none }
    let b := s1.byp l
    let s2 := if b.held.isSome && b.enterAt.isNone then
        (s1.modByp l fun b => { b with enterAt := some o }).answerWaiting (.cellBypass l) (leBytes 4 (shortOf o))
      else s1
    let s3 := if b.relWanted then
        (s2.modByp l fun b => { b with relWanted := false }).answerWaiting (.cellRelease l) (leBytes 4 0)
      else s2
    if eEnabled e && typeSwitches (eType e) && (was || !s.bypassed l) then
      s3.sendAct l (if eType e = 1 ∧ dark = false then .enter else .allOff) o
    else if eType e = 1 then s3.sendAct l .hold o
    else s3) s
  s1.modStr str fun y => { y with st := .stopping, stopAt := some o, stopReq := false, plan := none, orderWait := false }

/-! ### Changes of the sequence's state -/

/-- The code of a state (R354). -/
def RideSt.code : RideSt → Nat
  | .off => 0
  | .grid => 1
  | .dark => 2
  | .dewWait => 3
  | .precharge => 4
  | .sync => 5
  | .enable => 6
  | .halted => 7

/-- Changes the sequence. -/
def State.modRide (s : State) (f : Ride → Ride) : State := s.updProt fun p => { p with ride := f p.ride }

/-- Takes a state of the sequence: RIDE_STATE, RIDE_STEP, and the standby is told (R354, R360). -/
def State.rideTo (s : State) (st : RideSt) (reason : Nat := 0) (str : Nat := 0) : State :=
  ((s.modRide fun r => { r with st, reason, str, enteredAt := s.shortNow, enteredMono := s.mono }).note 0x08 0x0C02
    (leBytes 1 st.code ++ leBytes 1 reason)).twState 3

/-- Halts the sequence with a reason (R359). -/
def State.rideHalt (s : State) (reason : Nat) (str : Nat := 0) : State :=
  let was := s.prot.ride.st
  ((s.modRide fun r => { r with halted := was }).rideTo .halted reason str).bump 0x0C12 noInst 2

/-- Whether this unit runs the sequence (R360). -/
def State.rideRuns (s : State) : Bool := s.commanding

/-! ### ENABLE (R358) -/

/-- Takes the strings of the order in turn from the present index: TRIPPED strings and those the host has stopped are skipped, the first
other one is started; the fuel is the order's length (R358, R363). -/
def State.rideNext : Nat → State → State
  | 0, s => s.rideTo .grid
  | n + 1, s =>
    let r := s.prot.ride
    match s.rideOrder.drop r.index with
    | [] => s.rideTo .grid
    | str :: _ =>
      let short := (s.now + s.modDelay str + 16000) % 2 ^ 32
      if (s.str str).st = .tripped then
        State.rideNext n ((s.note 0x08 0x0C03 (leBytes 1 str)).modRide fun r => { r with index := r.index + 1 })
      else if r.stopped.contains str then State.rideNext n (s.modRide fun r => { r with index := r.index + 1 })
      else if (s.startRefusal str short).isSome then s.rideHalt 0x07 str
      else (s.startString str short).modRide fun r => { r with gapFrom := none }

/-- Enters ENABLE (R358). -/
def State.rideEnable (s : State) : State :=
  ((s.rideTo .enable).modRide fun r => { r with index := 0, gapFrom := none }).rideNext 17

/-- The string the sequence waits for has reached RUNNING, or will not reach it: the next is due STAGE_GAP later, or the order has
ended (R358). -/
def State.rideReached (s : State) (str : Nat) : State :=
  let r := s.prot.ride
  if r.st = .enable ∧ r.gapFrom = none ∧ s.rideOrder[r.index]? = some str ∧ s.rideRuns = true then
    if s.rideOrder.length ≤ r.index + 1 then s.rideTo .grid else s.modRide fun r => { r with gapFrom := some s.mono }
  else s

/-! ### SYNC (R357) -/

/-- Enters SYNC (R357). -/
def State.rideSync (s : State) : State :=
  if !s.le.running then (s.rideTo .sync).rideHalt 0x06
  else if s.pu 0x0C10 noInst 0 2 = 0xFFFF ∧ s.pu 0x0C10 noInst 2 2 = 0xFFFF then (s.rideTo .sync).rideEnable
  else (s.rideTo .sync).modRide fun r => { r with syncRun := 0 }

/-- Whether a loop lies within its tolerance after a walk that ran it with fresh inputs; 0xFFFF names none (R357). -/
def State.loopLocked (s : State) (loop tol : Nat) : Bool :=
  loop == 0xFFFF ||
    (let l := s.le.loop.get {} loop
     l.ran && !l.stale && decide ((l.out.natAbs : Int) ≤ signed 16 tol))

/-- A walk has completed: the lock is counted (R357). -/
def State.rideWalk (s : State) : State :=
  let r := s.prot.ride
  if r.st = .sync ∧ s.rideRuns = true then
    if s.loopLocked (s.pu 0x0C10 noInst 0 2) (s.pu 0x0C10 noInst 4 2) &&
        s.loopLocked (s.pu 0x0C10 noInst 2 2) (s.pu 0x0C10 noInst 6 2) then
      if s.pu 0x0C10 noInst 8 2 ≤ r.syncRun + 1 then s.rideEnable else s.modRide fun r => { r with syncRun := r.syncRun + 1 }
    else s.modRide fun r => { r with syncRun := 0 }
  else s

/-! ### PRECHARGE (R356) -/

/-- The MV_CELL strings of the order. -/
def State.pcStrings (s : State) : List Nat := s.rideOrder.filter fun str => s.strType str == 1

/-- A member's latest voltage, 0 if it has none (R356). -/
def State.capNow (s : State) (lane : Nat) : Int :=
  match chanOf (s.entry lane) 1 with
  | some c => ((s.lnk lane).samples.get {} c).value
  | none => 0

/-- Whether every member has reached PC_LEVEL (R356). -/
def State.pcReached (s : State) : Bool :=
  s.pcStrings.all fun str => (s.activeMembers str).all fun l => decide (s.ps 0x0C0F noInst 0 2 ≤ s.capNow l)

/-- The charge delivered to a member since the entry (R356). -/
def State.pcCharge (s : State) (lane : Nat) : Int :=
  (eCap (s.entry lane) : Int) * eVcap (s.entry lane) * (s.capNow lane - s.prot.ride.pcNoted.get 0 lane)

/-- Bypasses one member that failed the pre-charge, by its cause's path, with PRECHARGE_DEV (R345, R356). -/
def State.pcFail (s : State) (lane cause : Nat) : State :=
  (if cause = 3 then s.urgentBypass lane cause else s.plannedBypass lane cause).fire 0x3B lane (leBytes 1 cause ++ leBytesI 2 (s.capNow lane))

/-- The completion checks over one string: each member against the mean over the string's members (R356, log 12). -/
def State.pcJudge (s : State) (str : Nat) : State :=
  let mem := s.activeMembers str
  let n := mem.length
  let sum := mem.foldl (fun a l => a + s.pcCharge l) (0 : Int)
  mem.foldl (fun t l =>
    if !s.workingLink l then t.pcFail l 3
    else if s.capNow l < s.ps 0x0C0F noInst 0 2 ∨
        s.ps 0x0C0F noInst 2 2 * sum < ((n * s.pcCharge l - sum).natAbs : Int) * 32768 then t.pcFail l 9
    else t) s

/-- Completes PRECHARGE (R356). -/
def State.pcDone (s : State) : State :=
  let s1 := s.pcStrings.foldl (fun s str => s.pcJudge str) s
  if s1.pcStrings.any fun str => s1.bypOver str then s1.rideHalt 0x03 else s1.rideSync

/-- Enters PRECHARGE; after a take-over the voltages noted stand (R356, R360). -/
def State.ridePrecharge (s : State) (keep : Bool) : State :=
  let clear := fun (s : State) (str : Nat) =>
    if (s.str str).st = .tripped ∧ (s.prt str).mask = 2 ^ 13 then
      (s.modPrt str fun p => { p with mask := 0, failed := [], disabled := [] }).becomeStopped str
    else s
  let s1 := s.pcStrings.foldl clear (s.modRide fun r => { r with st := .precharge })
  let mem := (s1.pcStrings.map s1.activeMembers).flatten
  let s2 := mem.foldl (fun s l => s.sendAct l .allOff s.now) s1
  let s3 := if keep then s2
    else s2.modRide fun r => { r with pcNoted := mem.foldl (fun t l => t.set l (s2.capNow l)) {} }
  let s4 := s3.rideTo .precharge
  if s4.pcReached then s4.pcDone else s4

/-! ### DARK and DEW_WAIT (R351 to R355) -/

/-- Enters DEW_WAIT, or PRECHARGE where the outage was shorter than DEW_SKIP (R355, log 65). -/
def State.rideDew (s : State) : State :=
  let r := s.prot.ride
  if r.returnedAt - r.lostAt < ms (1000 * s.pu 0x0C0E noInst 4 2) then s.ridePrecharge false
  else (s.rideTo .dewWait).bump 0x0C12 noInst 1

/-- DARK_ACTION of a string at MV loss (R352, log 63). -/
def State.darkAction (s : State) (str : Nat) : State :=
  let a := bits (s.pu 0x0C0B noInst 4 4) (2 * str + 1) (2 * str)
  if a = 1 then s.askStop str true else if a = 2 then s.trip str 13 0xFFFF else s

/-- MV loss: DARK, MV_LOSS, and each string's action; a further loss acts on the strings then started (R352, R354, log 63). -/
def State.mvLoss (s : State) (m : Int) : State :=
  let first := decide (s.prot.ride.st = .grid)
  let s1 := (((s.modRide fun r => { r with lostAt := s.mono, returnFrom := none, gapFrom := none, stopped := [] }).rideTo .dark).bump 0x0C12 noInst 0).condOn
    0x3C noInst 0 (leBytesI 2 m)
  (List.range 16).foldl (fun s str => if first || s.strRuns str then s.darkAction str else s) s1

/-- The MV supply has returned (R351, R354). -/
def State.mvReturn (s : State) : State :=
  let s1 := (s.modRide fun r => { r with returnedAt := s.mono }).condOff 0x3C noInst 0
  if bit (s.pu 0x0C0B noInst 0 1) 1 then s1.rideDew else s1.rideHalt 0x01

/-- M: the largest magnitude among the three phase voltages, a stale one counting as 0 (R351). -/
def State.gridM (s : State) : Int :=
  [0, 4, 8].foldl (fun m off =>
    let lane := s.pu 0x0C0C noInst off 2
    let ch := s.pu 0x0C0C noInst (off + 2) 1
    let v : Int := if lane != 0xFFFF && s.protFresh lane ch then ((((s.lnk lane).samples.get {} ch).value).natAbs : Int) else 0
    max m v) 0

/-- An evaluation of the MV supply at a sample of the first phase (R351). -/
def State.gridEval (s : State) : State :=
  let m := s.gridM
  let r := s.prot.ride
  let low := decide (m < s.ps 0x0C0D noInst 0 2)
  let run := if low then r.lossRun + 1 else 0
  let s1 := s.modRide fun r =>
    { r with lossRun := run, returnFrom := if s.ps 0x0C0D noInst 2 2 ≤ m then some (r.returnFrom.getD s.mono) else none }
  if low && decide (s.pu 0x0C0D noInst 4 1 ≤ run) && s.rideRuns && (r.st.restarting || decide (r.st = .grid)) then s1.mvLoss m else s1

/-- What the sequence does with a channel's new value (R351, R356). -/
def State.rideSample (s : State) (lane chan : Nat) : State :=
  let s1 := if s.pu 0x0C0C noInst 0 2 = lane ∧ s.pu 0x0C0C noInst 2 1 = chan ∧ s.prot.ride.st ≠ .off then s.gridEval else s
  if s1.prot.ride.st = .precharge ∧ s1.rideRuns = true ∧ s1.pcReached = true then s1.pcDone else s1

/-- A new dew-point margin, in 0.1 K, where one is formed: since when it has been at or above DEW_MIN (R355). -/
def State.rideMargin (s : State) (margin : Option Int) : State :=
  s.modRide fun r =>
    { r with dewFrom := match margin with
        | some m => if (s.pu 0x0C0E noInst 0 2 : Int) ≤ m then some (r.dewFrom.getD s.mono) else none
        | none => none }

/-- RIDE_EN written (R354). -/
def State.rideEn (s : State) (on : Bool) : State :=
  if on && decide (s.prot.ride.st = .off) then
    (s.modRide fun r => { r with lossRun := 0, returnFrom := none }).rideTo .grid
  else if !on && decide (s.prot.ride.st ≠ .off) then (s.condOff 0x3C noInst 0).rideTo .off
  else s

/-- The standby mirrors the active's state; at an entry into PRECHARGE it notes the members' voltages, as the active does (R356, R360,
log 114). -/
def State.rideMirror (s : State) (st : RideSt) (reason : Nat) : State :=
  let mem := (s.pcStrings.map s.activeMembers).flatten
  let enters := decide (st = .precharge) && decide (s.prot.ride.st ≠ .precharge)
  s.modRide fun r =>
    { r with st, reason, enteredAt := s.shortNow, enteredMono := s.mono, stopped := if st = .dark then [] else r.stopped,
             pcNoted := if enters then mem.foldl (fun t l => t.set l (s.capNow l)) {} else r.pcNoted }

/-- The new active restarts the present step from its entry (R360). -/
def State.rideRestart (s : State) : State :=
  match s.prot.ride.st with
  | .dewWait => s.rideTo .dewWait
  | .precharge => s.ridePrecharge true
  | .sync => s.rideSync
  | .enable => s.rideEnable
  | _ => s

/-- GO: the halted step again from its entry; DEW_WAIT for reason 0x01 (R359). -/
def State.rideGo (s : State) : State :=
  if s.prot.ride.reason = 1 then s.rideDew
  else
    match s.prot.ride.halted with
    | .dewWait => (s.rideTo .dewWait).bump 0x0C12 noInst 1
    | .precharge => s.ridePrecharge false
    | .sync => s.rideSync
    | .enable => s.rideEnable
    | _ => s.rideDew

end Sys2Proof.Machine
end

