-- ==== Sys2Proof/Machine/AdoptOps.lean ====
section
/-!
DEFINITION. Adoption of a committed roll, lane by lane, at the boundaries of the strings or at once (R28 to R33, R38, R42, R269, R290).
-/

namespace Sys2Proof.Machine

/-- The string whose boundary adopts a lane's change: the one its working entry names (R28). -/
def State.adoptsWith (s : State) (lane : Nat) : Nat := s.strOf lane

/-- An entry that becomes enabled without a working link is a failed cell: a SENSE cell in any state of its string, another in a running
string; an MV cell joins in bypass whatever its link (R32, R43, log 113). -/
def State.adoptLost (s : State) (lane : Nat) (old new : Bytes) : State :=
  if eEnabled new && !eEnabled old && !s.workingLink lane && (eType new == 5 || (s.strRuns (eStr new) && eType new != 1)) then
    s.lostMember lane
  else s

/-- What a running string makes of an entry that becomes enabled or disabled (R32, R33). -/
def State.adoptEnable (s : State) (lane : Nat) (old new : Bytes) : State :=
  let str := eStr new
  if !s.strRuns str || eEnabled old == eEnabled new then s
  else if eEnabled new then
    if eType new = 1 ∧ s.bypassed lane = false then
      let s1 := (s.record lane 2).modByp lane fun b => { b with enterAt := some s.now }
      if s1.limitTrips str then s1.trip str 8 0xFFFF else s1
    else s
  else if eType old = 1 then s.plannedBypass lane 2
  else if typeSwitches (eType old) then
    (s.modPrt str fun p => { p with disabled := lane :: p.disabled.filter (· != lane) }).trip str 7 0xFFFF
  else s

/-- One lane takes its committed entry into the working roll (R38). -/
def State.adoptLane (s : State) (lane : Nat) (new : Bytes) : State :=
  let old := s.entry lane
  let s1 := s.updRoll fun r => { r with working := if allZero new then r.working.erase lane else r.working.set lane new }
  let s2 := s1.laneTypeChanged lane (eType old) (eType new)
  let s3 := if eId old = eId new then s2 else s2.identCheck lane
  let s4 := if sameH old new then s3 else s3.dtRollChange lane
  ((s4.adoptEnable lane old new).adoptLost lane old new).coastRefresh lane

/-- The lanes of a pending set adopt as a predicate says; the set is complete when none is left (R38). -/
def State.adoptWhere (s : State) (p : State → Nat → Bool) : State :=
  match s.roll.pend with
  | none => s
  | some q =>
    let go := q.left.filter (p s)
    let rest := q.left.filter fun l => !(p s l)
    let s1 := s.updRoll fun r => { r with pend := if rest.isEmpty then none else some { q with left := rest } }
    go.foldl (fun s l => s.adoptLane l (entryOf q.entries l)) s1

/-- A string adopts its part at its boundary b, once the set is due (R29, R38, R40, log 115). -/
def State.adoptStr (s : State) (str b : Nat) : State :=
  match s.roll.pend with
  | some q => if q.since ≤ b then s.adoptWhere fun s l => s.adoptsWith l == str else s
  | none => s

/-- What belongs to stopped strings is adopted at once (R29, log 29). -/
def State.adoptStopped (s : State) : State := s.adoptWhere fun s l => s.strStopped (s.adoptsWith l)

/-- Hands a checked set over as the pending set, due from a tick time: ROLL_GEN counts, the set is saved, and stopped strings adopt
(R36, R38, R40, R41). A lane whose entry the commit does not change has nothing to adopt (log 116). -/
def State.commitRoll (s : State) (set : Tab Bytes) (since : Nat) : State :=
  let gen := if s.roll.gen = 0xFFFFFFFF then 1 else s.roll.gen + 1
  let left := (List.range 128).filter fun l => entryOf set l != s.entry l
  let s1 := s.updRoll fun r =>
    { r with pend := if left.isEmpty then none else some { entries := set, left, since }, gen, stored := set, storedGen := gen }
  s1.countSave.adoptStopped

/-- A string's first boundary at or after a tick time (R29, R231). -/
def State.strBoundaryFrom (s : State) (str t : Nat) : Nat :=
  let y := s.str str
  y.next + ceilDiv (t - y.next) (max 1 y.period) * max 1 y.period

/-- The latest boundary at which a string adopts the pending set, as a tick time (R37, R38, R40); the present one where no string is left
to adopt at a boundary (log 116). -/
def State.adoptBy (s : State) : Nat :=
  match s.roll.pend with
  | none => s.now
  | some q => listMax (q.left.map fun l => s.strBoundaryFrom (s.adoptsWith l) q.since)

/-- The retry-after time of a commit while one is pending, in µs (R39). -/
def State.rollRetry (s : State) : Nat :=
  match s.roll.pend with
  | none => 1
  | some q =>
    max 1 (listMax ((q.left.filter fun l => !s.strStopped (s.adoptsWith l)).map fun l => ceilDiv (s.str (s.adoptsWith l)).period 8000))

end Sys2Proof.Machine
end

