-- ==== Sys2Proof/Machine/BoundaryOps.lean ====
section
/-!
DEFINITION. A string's period boundary: adoption, capture, the decisions recorded, the sorter, and the plan or the actions of a string
that plans nothing (R231 to R235, R257 to R263, R269).
-/

namespace Sys2Proof.Machine

/-- The shadowed parameters of a string but for the three of the cycle condition (R265, R290, R292). -/
def strShadowed : List Nat := [0x0808, 0x0809, 0x080B, 0x080C, 0x0901, 0x0A01, 0x0A02, 0x0A03, 0x0A04, 0x0A05]

/-- MOD_PERIOD, ISO_DIV and MIN_PULSE as the shadow holds them. -/
def State.cycleShadow (s : State) (str : Nat) : Nat × Nat × Nat :=
  (leNat (s.pshadow 0x0803 str), leNat (s.pshadow 0x0806 str), leNat (s.pshadow 0x0807 str))

/-- Captures MOD_PERIOD, ISO_DIV and MIN_PULSE together, or rejects the set in a running string (R233). -/
def State.cycleCapture (s : State) (str : Nat) : State :=
  let c := s.cycleShadow str
  let same := c == (s.pu 0x0803 str 0 4, s.pu 0x0806 str 0 1, s.pu 0x0807 str 0 2)
  if same || !s.strRuns str || s.cycleOk str (s.str str).mode c.1 c.2.1 c.2.2 then
    (s.captureAll [0x0803, 0x0806, 0x0807] str).modStr str fun y => { y with rejected := none }
  else if (s.str str).rejected = some c then s
  else (s.modStr str fun y => { y with rejected := some c }).fire 0x29 str []

/-- Captures a string's shadow at its boundary (R14, R231, R233). -/
def State.strCapture (s : State) (str : Nat) : State :=
  let s1 := (s.cycleCapture str).captureAll strShadowed str
  (s1.lanesOf str).foldl (fun s l => s.captureAll [0x080D, 0x080E] l) s1

/-- Captures the dead times of the members' legs (R236, R278). -/
def State.deadCapture (s : State) (str b : Nat) : State :=
  (s.members str).foldl (fun s l =>
    ((List.range 6).filter fun g => legMapped (s.entry l) g).foldl (fun s g => s.dtCapture l g b) s) s

/-- Resets and FIXED dead times at a boundary, whatever the string's state (R291, R294). -/
def State.deadBoundary (s : State) (str b : Nat) : State :=
  (s.lanesOf str).foldl (fun s l => (List.range 6).foldl (fun s g => s.dtBoundary l g b) s) s

/-- One lane's recorded release at a boundary: the record is removed, or, where it was made since the latest capture, the bypass stands and
the release is discarded (R269, R347, R362). -/
def State.takeRelease (s : State) (str l : Nat) : State :=
  let b := s.byp l
  if b.relWanted && b.fresh then
    (s.modByp l fun b => { b with relWanted := false, fresh := false }).answerWaiting (.cellRelease l) (leBytes 4 0)
  else if b.relWanted then (s.modByp l fun b => { b with held := none, enterAt := none }).bump 0x0C09 str 3
  else s.modByp l fun b => { b with fresh := false }

/-- Takes the releases recorded for a running string (R269, R347). -/
def State.takeReleases (s : State) (str : Nat) : State := (s.lanesOf str).foldl (fun s l => s.takeRelease str l) s

/-- The level of an NLC string at a boundary, saturated and counted (R242, R265). -/
def State.levelTake (s : State) (str : Nat) : State :=
  let n : Int := ((s.planMembers str).length : Nat)
  let raw := nlcRound (s.mod.capRef.get 0 (refKey 0 str)) (s.pu 0x0808 str 0 2)
  let v := clampI (-n) n raw
  s.modStr str fun y => { y with level := v, levelSat := if v = raw then y.levelSat else satN 16 (y.levelSat + 1) }

/-- The sorting pass of a boundary by the mode: NLC and PSC with the charge direction, ISO_ONLY for the statistics alone
(R282, R283, R286, log 58). -/
def State.boundarySort (s : State) (str b k : Nat) : State :=
  let m := (s.str str).mode
  let n := (s.str str).level
  if m = 2 then s.sortPass str b k (Int.sign n * s.currentSign str b) n (s.planMembers str)
  else if m = 1 then s.sortPass str b k (s.currentSign str b) 0 (s.planMembers str)
  else if m = 3 then s.sortPass str b k 0 0 (s.planMembers str)
  else s

/-- The planned boundary of a string that runs a mode (R231, R233, R269, R288). -/
def State.planBoundary (s : State) (str b k : Nat) : State :=
  let s2 := ((s.refCapture str).deadCapture str b).takeReleases str
  let s3 := if (s2.str str).mode = 2 then s2.levelTake str else s2
  let s4 := s3.boundarySort str b k
  if (s4.str str).mode = 2 ∧ s4.twin.role = .standby then
    match (s4.srt str).fromActive with
    | some (k', lanes) =>
      match (if k' = k then activeOrder (s4.srt str).order lanes else none) with
      | some o => (s4.modSrt str fun x => { x with order := insertFirst (s4.str str).level o, judgedK := some k }).planNow str
      | none => s4.modStr str fun y => { y with orderWait := true }
    | none => s4.modStr str fun y => { y with orderWait := true }
  else s4.planNow str

/-- The boundary of a string that plans nothing: HOLD to bypassed and disabled MV cells of a stopped string, the trip action of a
tripped one (R260, R337). -/
def State.idleBoundary (s : State) (str o : Nat) : State :=
  let st := (s.str str).st
  (s.lanesOf str).foldl (fun s l =>
    let e := s.entry l
    if st = .tripped ∧ eEnabled e = true ∧ typeSwitches (eType e) = true then s.tripAction str l o true (s.bypassed l)
    else if eType e = 1 ∧ (s.bypassed l = true ∨ eEnabled e = false) then s.sendAct l .hold o
    else s) s

/-- The boundary of a RAW string: HOLD alone, and RELEASE at O_0 or for a cell that returns (R257, R258, R260, R263). -/
def State.rawBoundary (s : State) (str o : Nat) : State :=
  let s1 := s.takeReleases str
  let mem := s1.planMembers str
  let gone := (s1.lanesOf str).filter fun l => (s1.ml l).on && !mem.contains l
  let s2 := s1.modStr str fun y => { y with n := mem.length, plan := some { at_ := y.bAt } }
  let s3 := gone.foldl (fun s l => s.planGone str l) s2
  let s4 := mem.foldl (fun s l =>
    if (s.ml l).on then s
    else
      let s1 := s.modMl l fun m => { m with on := true, rawLast := none, rawWord := 0, rawOff := {}, legs := {}, cycle := none }
      if eType (s.entry l) = 1 then
        (s1.modByp l fun b =>
          { b with relAt := if b.relWanted then some o else b.relAt, relWanted := false, judgeAt := some o }).modStr str fun y =>
            { y with plan := y.plan.map fun q =>
                { q with lanes := q.lanes ++ [{ lane := l, leaves := true, add := [{ time := o, act := some .release }], release := some o }] } }
      else s1) s3
  s4.modStr str fun y =>
    { y with first := false,
             plan := y.plan.map fun q => { q with lanes := q.lanes ++ ((s4.holdLanes str mem).map fun l =>
               ({ lane := l, leaves := true, add := [{ time := o, act := some .hold }] } : LanePlan)) } }

/-- The delay condition at a boundary of a running string: MOD_LEAD_SHORT at each entry into its failure (R233). -/
def State.leadCheck (s : State) (str : Nat) : State :=
  if s.strRuns str then s.cond (!s.delayOk str) 0x28 str 0 (leBytes 4 (s.leadMax str)) else s

/-- A period boundary of a string (R231, R233, R257, R260, R261, R269). -/
def State.boundary (s : State) (str : Nat) : State :=
  let b := (s.str str).next
  let s1 := (((s.adoptStr str b).strCapture str).deadBoundary str b).leadCheck str
  let t := s1.pu 0x0803 str 0 4
  let x := s1.str str
  let d := s1.modDelay str
  let isFirst := decide (x.st = .starting) && x.first && decide (b + d = x.o0)
  let k := if isFirst then 0 else (x.k + 1) % 2 ^ 32
  let next := if decide (x.st = .starting) && x.first && !isFirst then min (b + t) (x.o0 - d) else b + t
  let s2 := s1.modStr str fun y => { y with bAt := b, k, period := t, next }
  if x.st = .running ∧ x.stopReq = true then s2.stopAtBoundary str (b + d)
  else if x.st = .running ∨ (x.st = .starting ∧ (isFirst = true ∨ x.first = false)) then
    if x.mode = 4 then s2.rawBoundary str (b + d) else s2.planBoundary str b k
  else if x.st = .stopping then s2
  else s2.idleBoundary str (b + d)

/-- A plan is complete: every lane takes its part (R232). -/
def State.planDone (s : State) (str : Nat) : State :=
  match (s.str str).plan with
  | none => s
  | some p => p.lanes.foldl (fun s q => s.lanePlanDone q) (s.modStr str fun y => { y with plan := none })

end Sys2Proof.Machine
end

