-- ==== Sys2Proof/Machine/RingOps.lean ====
section
/-!
DEFINITION. The group ring as the other chapters use it: the header, sending, forwarding, the epochs held (R402 to R409).
-/

namespace Sys2Proof.Machine

/-- NODE of RING_CFG (R402). -/
def State.node (s : State) : Nat := s.pu 0x0E02 noInst 0 1

/-- RING_EN (R417). -/
def State.ringEn (s : State) : Bool := s.p0 0x0E01 == 1

/-- What is known of a node. -/
def State.rnode (s : State) (n : Nat) : RingNode := s.ring.node.get {} n

/-- Changes what is known of a node. -/
def State.modNode (s : State) (n : Nat) (f : RingNode → RingNode) : State :=
  s.updRing fun r => { r with node := r.node.mod {} n f }

/-- The lane of a ring neighbour (R98). -/
def ringLane : RingSide → Nat
  | .e => 128
  | .w => 129

/-- The lane of a service port (R98). -/
def svcLane : ServiceLane → Nat
  | .ringE => 128
  | .ringW => 129
  | .twinA => 130
  | .twinB => 131

/-- The lane of a twin port (R98). -/
def twinLane : TwinSide → Nat
  | .a => 130
  | .b => 131

/-- The other lane of the ring. -/
def otherRing (lane : Nat) : Nat := if lane = 128 then 129 else 128

/-- The common header of a ring block (R405). -/
def State.ringHdr (s : State) (dst : Nat) : Nat := pf 91 s.node + pf 86 dst + pf 64 s.twin.epoch

/-- Every node (R405). -/
def allNodes : Nat := 0x1F

/-- Queues a block on a ring lane that is LINKED (R405, R411). -/
def State.ringQueue (s : State) (lane type payload : Nat) : State :=
  if (s.lane lane).st = .linked then s.queueBlock lane type payload else s

/-- Sends a block of this unit in both directions (R405, log 22). -/
def State.ringSend (s : State) (type dst body : Nat) : State :=
  if s.ringEn then
    (s.ringQueue 128 type (s.ringHdr dst + body)).ringQueue 129 type (s.ringHdr dst + body)
  else s

/-- Forwards a block to the other neighbour with HOPS incremented, unless R408 excludes it. -/
def State.ringForward (s : State) (lane type : Nat) (p : BitVec 96) : State :=
  if pbits p 95 91 = s.node ∨ pbits p 90 86 = s.node then s
  else if s.pu 0x0E02 noInst 1 1 - 1 < pbits p 85 81 + 1 then s.bump 0x0E05 noInst 2
  else if (s.lane (otherRing lane)).st = .linked then
    (s.queueBlock (otherRing lane) type (p.toNat + 2 ^ 81)).bump 0x0E05 noInst 0
  else s

/-- Whether a node belongs to a head: its number says so, and its latest census names no role without one (R402, R409). -/
def State.ofHead (s : State) (n : Nat) : Bool := decide (n < 16) && (s.rnode n).role != 3 && (s.rnode n).role != 4

/-- The epoch held for a node: its head's, or its own (R409). -/
def State.epochHeld (s : State) (n : Nat) : Option Nat :=
  if s.ofHead n then s.ring.headEpoch.get? (n / 2) else s.ring.nodeEpoch.get? n

/-- Holds a newer epoch of a node; a head's new epoch sets a new base for its slice (R409, R416). -/
def State.holdEpoch (s : State) (n e : Nat) : State :=
  let newer := match s.epochHeld n with
    | some h => decide (0 < sdiff 16 e h)
    | none => true
  if !newer then s
  else if s.ofHead n then
    s.updRing fun r => { r with headEpoch := r.headEpoch.set (n / 2) e, applied := r.applied.erase (n / 2) }
  else s.updRing fun r => { r with nodeEpoch := r.nodeEpoch.set n e }

/-- Whether a block's epoch is older than the one held (R409). -/
def State.ringStale (s : State) (p : BitVec 96) : Bool :=
  match s.epochHeld (pbits p 95 91) with
  | some h => decide (sdiff 16 (pbits p 79 64) h < 0)
  | none => false

/-- Notes that a node was heard (R382). -/
def State.heard (s : State) (n : Nat) : State := s.modNode n fun x => { x with heardAt := some s.mono }

/-- Takes a ring block that is forwarded: counted, forwarded, discarded where its epoch is older, and taken where it is addressed to this
unit and not its own (R408, R409). -/
def State.ringTake (s : State) (side : RingSide) (h : RxHeader) (type : Nat) (p : BitVec 96) (f : State → State) : State :=
  let s1 := (s.rxValid (ringLane side) h).ringForward (ringLane side) type p
  if s1.ringStale p then s1.bump 0x0E05 noInst 1
  else
    let src := pbits p 95 91
    let s2 := (s1.heard src).holdEpoch src (pbits p 79 64)
    if src ≠ s.node ∧ (pbits p 90 86 = s.node ∨ pbits p 90 86 = allNodes) then f s2 else s2

/-- Whether a head is present: one of its nodes is, in role ACTIVE, or this unit is its active (R410). -/
def State.headPresent (s : State) (h : Nat) : Bool :=
  (decide (s.headId = h) && decide (s.twin.role = .active)) ||
    [2 * h, 2 * h + 1].any fun n => (s.rnode n).present && (s.rnode n).role == 1

/-- The node of a head's ACTIVE unit, as the census shows it (R417, log 82). -/
def State.headNode (s : State) (h : Nat) : Option Nat :=
  [2 * h, 2 * h + 1].find? fun n => (s.rnode n).present && (s.rnode n).role == 1

end Sys2Proof.Machine
end

