-- ==== Sys2Proof/Machine/PantryOps.lean ====
section
/-!
DEFINITION. The pantry's words under its ports, the warnings, the group window and the strongbox's wipe (R415, R416, R421 to R437).
-/

namespace Sys2Proof.Machine

/-! ### Warnings (R427) -/

/-- A warning of a port, 1 management and 2 host, with its code, 0 clash and 1 collision, at a word: counted, and notified at most once
per 10 µs (R427). -/
def State.pantryWarn (s : State) (port code off : Nat) : State :=
  let s1 := s.bump 0x0F03 noInst (2 * code + (2 - port))
  let s2 := if port = 2 then
      (s1.hostErrSet (code + 1)).updPantry fun p => { p with xbusyLow := p.xbusyLow || s1.hatch.qspi }
    else s1
  let k := 2 * port + code
  let w := s2.pantry.warn.get {} k
  let n := satN 16 (w.count + 1)
  let go := match w.at_ with
    | some t => s2.elapsed t (us 10)
    | none => true
  if go then
    (s2.updPantry fun p => { p with warn := p.warn.set k { count := 0, at_ := some s2.mono } }).note 0x0A (0x0F01 + code)
      (leBytes 1 port ++ [0] ++ leBytes 2 n ++ leBytes 4 off) true
  else s2.updPantry fun p => { p with warn := p.warn.set k { w with count := n } }

/-! ### Words (R424, R426, R429) -/

/-- The bytes of a word a write enables, as offsets and values. -/
def enabledBytes (off : Nat) (w : PortWrite) : List (Nat × Byte) :=
  ((List.range 4).filter fun k => bit w.be.toNat k).map fun k => (off + k, BitVec.ofNat 8 (w.data.toNat / 2 ^ (8 * k)))

/-- A word write lands, or is dropped and counted in an Off bank (R429, R439). -/
def State.land (s : State) (off : Nat) (w : PortWrite) : State :=
  if s.bankOff (off / 0x20000) then s.bump 0x0F03 noInst 4
  else (s.bankTouch (off / 0x20000)).updPantry fun p =>
    { p with mem := (enabledBytes off w).foldl (fun m c => m.write c.1 c.2) p.mem }

/-- The group-window bank, while RING_EN is 1 (R415, R426, log 79). -/
def State.gwBank (s : State) : Option Nat :=
  let b := s.pu 0x0E02 noInst 2 1
  if s.ringEn && decide (b ≤ 13) then some b else none

/-- Whether a word lies in the group window. -/
def State.inGw (s : State) (off : Nat) : Bool := s.gwBank == some (off / 0x20000)

/-- The slice of a word of the group window (R415). -/
def gwSlice (off : Nat) : Nat := off % 0x20000 / 0x4000

/-- Whether a local write of a word of the group window is this unit's to make (R415). -/
def State.gwOwn (s : State) (off : Nat) : Bool := decide (s.twin.role = .active) && decide (gwSlice off = s.headId)

/-- This unit's RING_WRITEs that wait on a lane (R415). -/
def State.gwWaiting (s : State) (lane : Nat) : Nat :=
  ((s.lnk lane).queue.filter fun b => b.type == 0x43 && bits b.payload 95 91 == s.node).length

/-- Queues a local write as RING_WRITE to every node; a full queue sends nothing (R415, R416, log 79). -/
def State.gwSend (s : State) (off : Nat) (w : PortWrite) : State :=
  let h := gwSlice off
  let q := s.ring.wseq
  let s1 := s.updRing fun r => { r with wseq := (q + 1) % 8192, applied := r.applied.set h q, wlast := r.wlast.set h q }
  if 512 ≤ max (s.gwWaiting 128) (s.gwWaiting 129) then (s1.bump 0x0E05 noInst 4).fire 0x53 h []
  else s1.ringSend 0x43 allNodes (pf 61 h + pf 49 (off % 0x4000 / 4) + pf 45 w.be.toNat + pf 32 q + w.data.toNat)

/-- A local write lands, and goes to the ring where it is into the unit's own slice (R415). -/
def State.landLocal (s : State) (off : Nat) (w : PortWrite) : State :=
  if s.inGw off then (s.land off w).gwSend off w else s.land off w

/-- Drops a local write into a slice that is not this unit's to write (R415, log 80). -/
def State.gwJudge (s : State) (off : Nat) (w : Option PortWrite) : State × Option PortWrite :=
  if w.isSome && s.inGw off && !s.gwOwn off then (s.bump 0x0E05 noInst 5, none) else (s, w)

/-- The writes of one word in one cycle: outside the group-window bank both land, management first; within it ring wins over
management over host, and each loser is dropped whole and warned (R426, R427). -/
def State.wordWrites (s : State) (off : Nat) (ring mgmt host : Option PortWrite) : State :=
  let m := s.gwJudge off mgmt
  let h := m.1.gwJudge off host
  let t := h.1
  if t.inGw off then
    match ring, m.2, h.2 with
    | some r, mw, hw =>
      let s1 := t.land off r
      let s2 := if mw.isSome then s1.pantryWarn 1 1 off else s1
      if hw.isSome then s2.pantryWarn 2 1 off else s2
    | none, some w, hw =>
      let s1 := t.landLocal off w
      if hw.isSome then s1.pantryWarn 2 1 off else s1
    | none, none, some w => t.landLocal off w
    | none, none, none => t
  else
    let s1 := match m.2 with
      | some w => t.land off w
      | none => t
    match h.2 with
    | some w => s1.land off w
    | none => s1

/-- What a word holds for a read: 0 in an Off bank (R429). -/
def State.wordValue (s : State) (off : Nat) : Nat := leNat (s.mpRead off 4)

/-- The write a management access makes. -/
def mgmtWrite : MgmtAccess → Option PortWrite
  | .write w => some w
  | _ => none

/-- A management read of a word met by a write of a port: its data is undefined, and the later of the two ports is warned, 1 the management
port and 2 the host (R426, R427). -/
def State.mgmtMet (s : State) (mgmt : MgmtAccess) (later : Nat) (off : Nat) : State :=
  if mgmt = .read then s.pantryWarn later 0 off else s

/-- A host read of one word beside the writes of the same cycle: met by a write it returns undefined data and is warned (R426). -/
def State.wordRead (s : State) (off : Nat) (ring mgmt : Option PortWrite) : State × Nat :=
  let meets := mgmt.isSome || (ring.isSome && s.inGw off)
  let v := if s.bankOff (off / 0x20000) then 0 else if meets then s.freeVal % 2 ^ 32 else s.wordValue off
  let s1 := if s.bankOff (off / 0x20000) then s.bump 0x0F03 noInst 4 else s.bankTouch (off / 0x20000)
  let s2 := if meets then s1.tookFree.pantryWarn 2 0 off else s1
  (s2.wordWrites off ring mgmt none, v)

/-! ### The host's offsets (R51, R433, R434) -/

/-- The words of a host access and its rotation: one directly, two through the alias with a rotation (R433). -/
def State.hostWords (s : State) (off : Nat) : List Nat × Nat :=
  let a := off % 0x200000 / 4 * 4
  let r := if 0x200000 ≤ off then s.pu 0x0F02 noInst 0 1 else 0
  (if r = 0 then [a] else [a, (a + 4) % 0x200000], r)

/-- Whether any byte of a host access lies in bank 14 or 15 (R434, R435). -/
def State.hostDenied (s : State) (off : Nat) : Bool := (s.hostWords off).1.any fun a => decide (0x1C0000 ≤ a)

/-- A host access to the strongbox: denied, flagged and counted (R435). -/
def State.sbDenied (s : State) : State := (s.hostErrSet 4).bump 0x0F03 noInst 5

/-! ### The ring port (R416) -/

/-- Applies a RING_WRITE to a slice of the group window, beside what the management port does with the same word (R416, R426). -/
def State.ringLand (s : State) (slice word be data : Nat) (mgmt : MgmtAccess) : State :=
  match s.gwBank with
  | some b =>
    let off := b * 0x20000 + slice * 0x4000 + word * 4
    (s.wordWrites off (some { data := BitVec.ofNat 32 data, be := BitVec.ofNat 4 be }) (mgmtWrite mgmt) none).mgmtMet mgmt 1 off
  | none => s

/-- A management access to the word of a RING_WRITE that is discarded (R416). -/
def State.ringSkip (s : State) (slice word : Nat) (mgmt : MgmtAccess) : State :=
  match s.gwBank with
  | some b => s.wordWrites (b * 0x20000 + slice * 0x4000 + word * 4) none (mgmtWrite mgmt) none
  | none => s

/-- A RING_WRITE judged by its WSEQ (R416). -/
def State.ringWrite (s : State) (slice word be q data : Nat) (mgmt : MgmtAccess) : State :=
  let go := (s.ringLand slice word be data mgmt).updRing fun r => { r with applied := r.applied.set slice q, wlast := r.wlast.set slice q }
  match s.ring.applied.get? slice with
  | none => go
  | some last =>
    let d := sdiff 13 q last
    if d ≤ 0 then s.ringSkip slice word mgmt
    else if d = 1 then go
    else (go.bump 0x0E05 noInst 3).fire 0x54 slice (leBytesI 2 d)

/-! ### The strongbox (R436, R437) -/

/-- A wipe of 81.92 µs starts, or starts again, with a cause: the link keys are gone from here (R436, R437). -/
def State.wipe (s : State) (cause : Nat) : State :=
  s.updPantry fun p => { p with wiping := some (cause, s.mono), wipeCause := cause, linkKeys := [] }

/-- A bank's clearing begins: 81.92 µs (R431). -/
def State.bankClear (s : State) (b : Nat) : State :=
  s.updPantry fun p => { p with mem := p.mem.clear (b * 0x20000) 0x20000, clearing := p.clearing.set b (s.mono + 655360) }

/-- PANTRY_POWER takes effect: a bank set Off loses its contents, and a bank set on again is cleared (R429, R431). -/
def State.bankPowerSet (s : State) (old new : Nat) : State :=
  (List.range 16).foldl (fun s b =>
    let o := bits old (2 * b + 1) (2 * b)
    let n := bits new (2 * b + 1) (2 * b)
    if n = 2 ∧ o ≠ 2 then
      s.updPantry fun p => { p with mem := p.mem.clear (b * 0x20000) 0x20000, clearing := p.clearing.erase b, awake := p.awake.erase b }
    else if o = 2 ∧ n ≠ 2 then s.bankClear b
    else s) s

end Sys2Proof.Machine
end

