-- ==== Sys2Proof/Machine/BatteryOps.lean ====
section
/-!
DEFINITION. The battery domain's shared operations: the clock, the tamper log, the keys it guards (R564 to R569).
-/

namespace Sys2Proof.Machine

/-- RTC_SUB: the part of the present second gone, in 1/32,768 s (R565). -/
def State.rtcSub (s : State) : Nat := min 32767 ((s.mono - s.bat.secAt) * 32768 / ms 1000)

/-- Whether VDD_CORE is present (R567). -/
def State.corePresent (s : State) : Bool := !s.sys.hold.rails.contains 0

/-- The 16 bytes of a log entry (R568, log 97). -/
def TampEntry.bytes (e : TampEntry) : Bytes :=
  leBytes 1 e.source ++ leBytes 1 e.flags ++ leBytes 2 e.seq ++ leBytes 4 e.sec ++ leBytes 2 e.sub ++ leBytes 2 e.lost ++ leBytes 4 e.arg

/-- The next entry of the log (R568). -/
def State.tampEntry (s : State) (source : Nat) (zeroised : Bool) (arg : Nat) : TampEntry :=
  { source, flags := b2n s.corePresent + 2 * b2n zeroised, seq := s.bat.logSeq, sec := s.bat.rtcSec, sub := s.rtcSub,
    lost := s.bat.lost, arg }

/-- Writes an entry to the log, or counts it as lost (R568). -/
def State.tampLog (s : State) (source : Nat) (zeroised : Bool) (arg : Nat) : State :=
  s.updBat fun b =>
    if b.log.length < 8 then { b with log := b.log ++ [s.tampEntry source zeroised arg], logSeq := (b.logSeq + 1) % 65536 }
    else { b with lost := satN 16 (b.lost + 1), logSeq := (b.logSeq + 1) % 65536 }

/-- The MRAM key is zeroised: every secret stored under it is unreadable (R567). -/
def State.zeroise (s : State) : State :=
  (s.updBat fun b => { b with mramKey := 0 }).updFw fun f => { f with signKey := none, kaKey := none, linkKeys := [] }

/-- A tamper event: the key zeroised, the entry written, the core signalled (R567). -/
def State.tampEvent (s : State) (source : Nat) : State :=
  let s1 := s.zeroise.tampLog source true 0
  if s.corePresent then s1.updBat fun b => { b with signals := b.signals + 1 } else s1

/-- An entry written to the attic, and shown in TAMP_LOG (R568, R571, R619). -/
def State.tampAttic (s : State) (e : TampEntry) : State :=
  (s.attic 3 0 e.source e.bytes).updBat fun b => { b with copied := (e :: b.copied).take 8 }

/-- Copies the log's entries to the attic, fires and counts those with KEY_ZEROISED, and clears them (R568). -/
def State.tampCopy (s : State) : State :=
  let s1 := s.bat.log.foldl (fun s e =>
    let t := s.tampAttic e
    if bit e.flags 1 then
      (t.fire 0x81 e.source (leBytes 1 e.flags ++ leBytes 2 e.seq ++ leBytes 4 e.sec ++ leBytes 2 e.sub ++ leBytes 2 e.lost)).updEn
        fun n => { n with tampers := satN 16 (n.tampers + 1) }
    else t) s
  s1.updBat fun b => { b with log := [] }

/-- MODE and FILT of a tamper input (R571). -/
def Battery.tamp (b : Battery) (i : Nat) : Bytes := b.tampCfg.get [0, 0, 0, 0] i

/-- Whether an input fails its sample (R566). -/
def tampFails (mode : Nat) (level drv : Bool) : Bool :=
  match mode with
  | 1 => level
  | 2 => !level
  | 3 => level != drv
  | _ => false

/-- One sample of an input: an event where it fails for the FILT-th time in a row (R566). -/
def State.tampInput (s : State) (i : Nat) (level : Bool) : State :=
  let c := s.bat.tamp i
  let n := if tampFails (uAt c 0 1) level s.bat.drv then s.bat.failing.get 0 i + 1 else 0
  let s1 := s.updBat fun b => { b with failing := b.failing.set i n }
  if n ≠ 0 ∧ n = max 1 (uAt c 1 1) then s1.tampEvent i else s1

/-- A value nobody can predict, of 256 bits and never 0 (log 2). -/
def State.freeKey (s : State) : Nat :=
  1 + ((List.range 4).foldl (fun n i => n * 2 ^ 64 + (Config.free (s.freeCount + i)).toNat) 0) % (2 ^ 256 - 1)

/-- The state after such a value has been taken. -/
def State.tookKey (s : State) : State := s.updFreeCount (· + 4)

/-- New unit keys, KEY_STATE NEW (R567, R618, log 7). -/
def State.newUnitKeys (s : State) : State :=
  let s1 := s.updFw fun f => { f with signKey := some s.freeKey }
  let s2 := s1.tookKey
  (s2.updFw fun f => { f with kaKey := some s2.freeKey, keyState := .new }).tookKey

/-- KEY_GEN + 1. -/
def State.keyGenUp (s : State) : State := s.updFw fun f => { f with keyGen := (f.keyGen + 1) % 65536 }

/-- A domain that had lost all power is found at a start (R568, log 97). -/
def State.batteryFound (s : State) : State :=
  if s.bat.powerOn then
    let e := s.tampEntry 0x12 true 0
    ((s.zeroise.updBat fun b => { b with powerOn := false, logSeq := (b.logSeq + 1) % 65536 })).tampAttic e
  else s

/-- A start with a zero key: a new MRAM key, and new unit keys in PROVISIONED and FIELD (R567). -/
def State.keysAtStart (s : State) : State :=
  if s.bat.mramKey ≠ 0 then s
  else
    let s1 := ((s.zeroise.updBat fun b => { b with mramKey := s.freeKey }).tookKey).keyGenUp
    if s1.fw.lc = .provisioned ∨ s1.fw.lc = .field then s1.newUnitKeys else s1.updFw fun f => { f with keyState := .absent }

/-- TAMP_STATE (R571). -/
def State.tampState (s : State) : Bytes :=
  let en := (List.range 4).foldl (fun n i => n + b2n (uAt (s.bat.tamp i) 0 1 != 0) * 2 ^ i) 0
  leBytes 1 s.bat.levels ++ leBytes 1 en ++ leBytes 1 s.bat.log.length ++ [0] ++ leBytes 2 s.bat.vbat ++ leBytes 2 s.bat.lost

end Sys2Proof.Machine
end

