-- ==== Sys2Proof/Machine/HkOps.lean ====
section
/-!
DEFINITION. Housekeeping and the thermal block: conversions, rounds, the dew point, zones, derating and shutdown (R441 to R463).
-/

namespace Sys2Proof.Machine

/-! ### Parts of the state -/

/-- A pair of converters. -/
def State.hkPair (s : State) (k : Nat) : HkPair := s.hk.pair.get {} k

/-- Changes a pair. -/
def State.modPair (s : State) (k : Nat) (f : HkPair → HkPair) : State :=
  s.updHk fun h => { h with pair := h.pair.mod {} k f }

/-- HK_VALUE of an input. -/
def State.hkVal (s : State) (i : Nat) : HkValue := s.hk.value.get {} i

/-- Changes HK_VALUE of an input. -/
def State.modHkVal (s : State) (i : Nat) (f : HkValue → HkValue) : State :=
  s.updHk fun h => { h with value := h.value.mod {} i f }

/-- A zone. -/
def State.zone (s : State) (z : Nat) : ThermZone := s.hk.zone.get {} z

/-- Changes a zone. -/
def State.modZone (s : State) (z : Nat) (f : ThermZone → ThermZone) : State :=
  s.updHk fun h => { h with zone := h.zone.mod {} z f }

/-! ### Values (R442, R443) -/

/-- The kind of an input (R442, R443). -/
def State.hkKind (s : State) (i : Nat) : Nat := s.pu 0x1002 i 0 1

/-- The limits LO and HI of an input. -/
def State.hkLimits (s : State) (i : Nat) : Int × Int := (s.ps 0x1002 i 6 2, s.ps 0x1002 i 8 2)

/-- An arithmetic shift right. -/
def sar (i : Int) (n : Nat) : Int := i / (2 ^ n : Nat)

/-- The value of a code on an input (R442, R443): inputs 28 and 29 measure the full scale of 1.200 V in 1/8 mV, and of inputs 16 to 27 the
spec gives an accuracy alone (log 17, log 86). -/
def State.hkConvert (s : State) (i c : Nat) : Int :=
  let m := s.pu 0x1002 i 1 1
  if inR i 16 27 then signed 16 (Config.hkFixed i c).toNat
  else if inR i 28 29 then sat16 (sar ((c * 8 * 4800 : Nat) : Int) 14)
  else if m = 0 then sat16 (sar ((c : Int) * 8 * s.ps 0x1002 i 2 2) 14 + s.ps 0x1002 i 4 2)
  else
    let l := fun (k : Nat) => s.ps 0x1004 (m - 1) (2 * k) 2
    let p := c / 128
    l p + sar ((l (p + 1) - l p) * ((c % 128 : Nat) : Int)) 7

/-- Whether a code of an input lies outside the input's limits. -/
def State.hkOutside (s : State) (i c : Nat) : Bool :=
  let v := s.hkConvert i c
  decide (v < (s.hkLimits i).1) || decide ((s.hkLimits i).2 < v)

/-- Notes a converter's result in the round, and a converter that left the limits of input 28 or 29 (R446). -/
def State.hkResult (s : State) (conv i c : Nat) : State :=
  let bad := inR i 28 29 && s.hkOutside i c
  s.updHk fun h => { h with results := (conv, i) :: h.results, badConv := if bad then conv :: h.badConv else h.badConv }

/-- Raises HK_INPUT_LIMIT on entry, with its count, or ends it (R451). -/
def State.hkLimit (s : State) (i : Nat) (out : Bool) (v : Int) : State :=
  let was := s.faults.present.contains { src := 0x61, inst := i, sub := 0 }
  let s1 := s.cond out 0x61 i 0 (leBytesI 2 v)
  if out && !was then s1.bump 0x100B noInst 5 else s1

/-- Takes an input's value from a code, with its flags and its limits (R443, R451). -/
def State.hkStore (s : State) (i c : Nat) (out : Bool) : State :=
  if s.hkKind i = 0 then s
  else
    let v := s.hkConvert i c
    let l := s.hkLimits i
    let below := decide (v < l.1)
    let above := decide (l.2 < v)
    (s.modHkVal i fun _ =>
      { value := v, code := c, valid := true, bad := false, below, above, round := s.hk.rounds % 2 ^ 16 }).hkLimit i
      (below || above || out) v

/-- Marks IMPLAUSIBLE every result of the round of a converter that left the limits of input 28 or 29 (R446). -/
def State.hkMark (s : State) : State :=
  s.hk.results.foldl (fun s r => if s.hk.badConv.contains r.1 then s.modHkVal r.2 fun x => { x with bad := true } else s) s

/-- The result of a PAIRED conversion: the mean, or a mismatch (R445). -/
def State.hkPaired (s : State) (k i a b : Nat) : State :=
  let s1 := (s.hkResult (2 * k) i a).hkResult (2 * k + 1) i b
  let diff := ((a : Int) - b).natAbs
  if s.hkKind i = 0 then s1
  else if s.p0 0x1006 < diff then
    ((s1.modHkVal i fun x => { x with bad := true }).bump 0x100B noInst 4).fire 0x60 i (leBytes 2 a ++ leBytes 2 b)
  else s1.hkStore i ((a + b) / 2) (inR i 28 29 && (s.hkOutside i a || s.hkOutside i b))

/-- The result of one converter (R443, R446). -/
def State.hkSingle (s : State) (conv i c : Nat) : State := (s.hkResult conv i c).hkStore i c false

/-! ### Running a pair (R444, R447, R448) -/

/-- An entry of a pair's sequence: PAIRED, INPUT_E, INPUT_O (R464). -/
def State.hkEntry (s : State) (k i : Nat) : Bool × Nat × Nat :=
  let b := s.pu 0x1003 k (4 + 2 * i) 1
  (bit b 7, bits b 4 0, bits (s.pu 0x1003 k (5 + 2 * i) 1) 4 0)

/-- Starts a conversion now. -/
def State.hkStart (s : State) (k : Nat) (c : HkConv) : State :=
  s.modPair k fun p => { p with conv := some c, convAt := s.mono, convShort := s.shortNow }

/-- Takes up a pair's next conversion: an urgent one, unless an entry has been interrupted four times, else the sequence's; a pair asleep
wakes first (R447, R448). -/
def State.hkNext (s : State) (k : Nat) : State :=
  let p := s.hkPair k
  let work := !p.urgent.isEmpty || p.next.isSome
  if p.conv.isSome then s
  else if !work then s
  else if !p.awake then
    if p.wakeFrom.isSome then s
    else (s.modPair k fun p => { p with wakeFrom := some s.mono }).bump 0x100B noInst 1
  else
    match p.urgent, p.next with
    | u :: r, none => (s.modPair k fun p => { p with urgent := r }).hkStart k (.urgent u)
    | u :: r, some i =>
      if p.interrupts < 4 then (s.modPair k fun p => { p with urgent := r }).hkStart k (.urgent u) else s.hkStart k (.seq i)
    | [], some i => s.hkStart k (.seq i)
    | [], none => s

/-- Queues an urgent request: an entry in progress is discarded and repeated, unless it has been interrupted four times (R448, log 86). -/
def State.hkUrgent (s : State) (k : Nat) (u : Urgent) : State :=
  let s1 := (s.modPair k fun p => { p with urgent := p.urgent ++ [u] }).bump 0x100B noInst 2
  match (s.hkPair k).conv with
  | some (.seq _) =>
    if (s.hkPair k).interrupts < 4 then
      ((s1.modPair k fun p => { p with conv := none, interrupts := p.interrupts + 1 }).bump 0x100B noInst 3).hkNext k
    else s1
  | some (.urgent _) => s1
  | none => s1.hkNext k

/-- Starts a pair's sequence from entry 0 (R444, R450, R579). -/
def State.hkRestart (s : State) (k : Nat) : State :=
  (s.modPair k fun p =>
    { p with next := if s.pu 0x1003 k 0 1 = 0 then none else some 0, interrupts := 0,
             conv := match p.conv with
               | some (.urgent u) => some (.urgent u)
               | _ => none }).hkNext k

/-- Whether a confirmation is outstanding on a pair. -/
def HkPair.confirming (p : HkPair) : Bool :=
  let is := fun (u : Urgent) => match u.for_ with
    | .confirm _ => true
    | .mailbox _ => false
  p.urgent.any is || (match p.conv with
    | some (.urgent u) => is u
    | _ => false)

/-- Whether a pair's sequence of the round has ended. -/
def HkPair.ended (p : HkPair) : Bool :=
  p.next.isNone && (match p.conv with
    | some (.seq _) => false
    | _ => true)

/-! ### The dew point (R454) -/

/-- The scale of the fixed-point logarithm. -/
def lnScale : Int := 1000000000000

/-- The odd powers' sum of the series of ln, with the terms left as fuel. -/
def lnSeries : Nat → Int → Int → Int → Int
  | 0, _, _, _ => 0
  | n + 1, z, p, k => p / k + lnSeries n z (p * z / lnScale * z / lnScale) (k + 2)

/-- ln(n / d) for n at least d and at most 128 d, scaled; the fuel halves the quotient until it lies below 2. -/
def lnQuot : Nat → Int → Int → Int
  | 0, _, _ => 0
  | f + 1, n, d =>
    if 2 * d ≤ n then 693147180560 + lnQuot f n (2 * d)
    else
      let z := (n - d) * lnScale / (n + d)
      2 * lnSeries 14 z z 1

/-- Td of the Magnus form in 0.001 °C from T in 1/128 °C and RH in 1/256 %RH (R454). -/
def magnus (t rh : Int) : Int :=
  let r := clampI 256 25600 rh
  let g := 1762 * t * lnScale / (3111936 + 100 * t) - lnQuot 9 25600 r
  243120 * g / (17620000000000 - g)

/-- DEW_POINT: Td in 0.1 °C rounded up, of a Td within 0.1 K of the Magnus form over −40 to 85 °C, and unstated beyond; the deviation is a
free value (R454, log 2). -/
def State.dewPoint (s : State) (t rh : Int) : Int :=
  if inI t (-5120) 10880 then -((-(magnus t rh + ((s.freeVal % 201 : Nat) : Int) - 100)) / 100) else signed 16 s.freeVal

/-- Whether an input serves the dew point: in use, plausible and converted in the round (R454). -/
def State.dewOk (s : State) (i : Nat) : Bool :=
  let v := s.hkVal i
  decide (i < 32) && s.hkKind i != 0 && v.valid && !v.bad && v.round == s.hk.rounds % 2 ^ 16

/-- Forms DEW_STATE, and tells the restart gate the margin (R355, R454). -/
def State.hkDew (s : State) : State :=
  let a := s.pu 0x1009 noInst 0 1
  let b := s.pu 0x1009 noInst 1 1
  if s.dewOk a && s.dewOk b then
    let t := (s.hkVal a).value
    let rh := (s.hkVal b).value
    let t10 := t * 10 / 128
    let p := s.dewPoint t rh
    (s.tookFree.updHk fun h => { h with dew := { t := t10, rh := rh * 10 / 256, point := p, margin := t10 - p } }).rideMargin (some (t10 - p))
  else (s.updHk fun h => { h with dew := { h.dew with margin := -32768 } }).rideMargin none

/-! ### Zones (R452, R455) -/

/-- EN of a zone. -/
def State.zoneEn (s : State) (z : Nat) : Bool := bit (s.pu 0x1101 z 15 1) 0

/-- A cell's temperature for a round: the TEMP of a HEALTH recent enough of an enabled entry (R452). -/
def State.cellT (s : State) (lane : Nat) : Option Int :=
  if eEnabled (s.entry lane) then
    match (s.lnk lane).healthMono, s.hk.cellTemp.get? lane with
    | some t, some x => if s.hk.roundAt ≤ t + ms (s.p0 0x1103) then some x.1 else none
    | _, _ => none
  else none

/-- A zone's sources with their valid temperatures (R455, log 85). -/
def State.zoneTemps (s : State) (z : Nat) : List (Nat × Int) :=
  let m := s.pu 0x1101 z 0 4
  let c := s.pu 0x1101 z 4 2
  ((List.range 32).filterMap fun i =>
    if bit m i && s.hkKind i == 1 && (s.hkVal i).valid && !(s.hkVal i).bad then some (i, (s.hkVal i).value) else none) ++
  ((List.range 128).filterMap fun l => if bit c (s.strOf l) then (s.cellT l).map fun t => (0x100 + l, t) else none)

/-- The highest of a list of sources (R455). -/
def hottest : List (Nat × Int) → Option (Nat × Int)
  | [] => none
  | x :: r =>
    match hottest r with
    | some y => if x.2 < y.2 then some y else some x
    | none => some x

/-- The uncleared record of a zone. -/
def State.thermRec (s : State) (z : Nat) : Option ThermRec := s.hk.recs.find? fun r => r.zone == z

/-- Whether a unit acts on its zones: the active, or a unit without a twin, which a MAINT unit counts as (R394, R456, R458, R460). -/
def State.thermActs (s : State) : Bool := s.commanding || !s.twinEn

/-- Forms a zone's temperature in a round (R455, R460, log 85). -/
def State.zoneForm (s : State) (z : Nat) : State :=
  let h := hottest (s.zoneTemps z)
  let s1 := s.modZone z fun x => { x with t := h.map (·.2), src := (h.map (·.1)).getD x.src, cellWait := none }
  let was := s.faults.present.contains { src := 0x63, inst := z, sub := 0 }
  let blind := h.isNone && s.zoneEn z
  let s2 := s1.cond blind 0x63 z 0 []
  let s3 := if blind && !was then s2.bump 0x1104 noInst 3 else s2
  match h with
  | some x => s3.updHk fun k => { k with recs := k.recs.map fun r => if r.zone = z then { r with peak := max r.peak x.2 } else r }
  | none => s3

/-! ### Shutdown (R459 to R461) -/

/-- The next RECORD_ID, skipping those of uncleared records; the fuel bounds the skips by the 16 zones (R461). -/
def nextThermId (recs : List ThermRec) : Nat → Nat → Nat
  | 0, last => if 0xFFFFFFFF ≤ last then 1 else last + 1
  | k + 1, last =>
    let n := if 0xFFFFFFFF ≤ last then 1 else last + 1
    if recs.any fun r => r.id == n then nextThermId recs k n else n

/-- The 32 bytes of a record, with the zone's latest T and the number of uncleared records (R461, log 14). -/
def State.thermBytes (s : State) (r : ThermRec) : Bytes :=
  leBytes 4 r.id ++ leBytes 1 r.zone ++ leBytes 1 (b2n r.read + 2 * b2n r.restored + 4 * b2n r.rtcSet) ++ leBytes 2 r.src ++
    leBytesI 2 r.trip ++ leBytesI 2 r.peak ++ leBytesI 2 ((s.zone r.zone).t.getD (-32768)) ++ leBytes 2 r.strings ++
    leBytes 8 r.tick ++ leBytes 4 r.rtc ++ leBytes 1 s.hk.recs.length ++ [0, 0, 0]

/-- The opcode by which the model forwards a shutdown record: the twin's layout is internal to the stepping (R460, log 14). -/
def opThermRec : Nat := 0x1100

/-- A record enters the unit: the zone is in shutdown (R460, R462, log 87). -/
def State.thermAdd (s : State) (r : ThermRec) : State :=
  (s.updHk fun h => { h with recs := h.recs ++ [r] }).condOn 0x64 r.zone 0 (leBytes 4 r.id)

/-- Trips the strings of a mask with THERMAL (R334, R337, log 87). -/
def State.thermTrip (s : State) (mask : Nat) : State :=
  ((List.range 16).filter fun n => bit mask n).foldl (fun s n => s.trip n 11 0xFFFF) s

/-- A confirmed shutdown of a zone (R460, R468). -/
def State.thermShut (s : State) (z src : Nat) (t : Int) : State :=
  match s.thermRec z with
  | some r => s.updHk fun h => { h with recs := h.recs.map fun x => if x = r then { x with peak := max x.peak t } else x }
  | none =>
    if !s.thermActs then s
    else
      let id := nextThermId s.hk.recs 17 s.hk.lastId
      let mask := s.pu 0x1101 z 18 2
      let r : ThermRec :=
        { id, zone := z, rtcSet := s.bat.rtcSet, src, trip := t, peak := t, strings := mask, tick := s.now, rtc := s.bat.rtcSec }
      let s1 := (s.thermTrip mask).updHk fun h => { h with lastId := id }
      let s2 := (s1.thermAdd r).bump 0x1104 noInst 2
      if s2.hasStandby then s2.forwardRequest 8 { opcode := opThermRec, epoch := s2.twin.epoch, length := 32, payload := s2.thermBytes r }
      else s2

/-- Whether a pair's sequence in effect holds an input. -/
def State.hkHolds (s : State) (k i : Nat) : Bool :=
  (List.range (s.pu 0x1003 k 0 1)).any fun n =>
    let e := s.hkEntry k n
    e.2.1 == i || (!e.1 && e.2.2 == i)

/-- Asks for the confirmation of a zone at or above TH_SHUT (R459). -/
def State.thermAsk (s : State) (z : Nat) : State :=
  let x := s.zone z
  match x.t with
  | none => s
  | some t =>
    if s.zoneEn z = false ∨ t < s.ps 0x1101 z 10 2 then s
    else if x.src < 32 then
      let k := if s.hkHolds 1 x.src && !s.hkHolds 0 x.src then 1 else 0
      s.hkUrgent k { input := x.src, paired := true, for_ := .confirm z }
    else
      let lane := x.src - 0x100
      match (s.hk.cellTemp.get? lane) with
      | some (_, some t0) => if s.ps 0x1101 z 10 2 ≤ t0 then s.thermShut z x.src t else s.modZone z fun y => { y with cellWait := some lane }
      | _ => s.modZone z fun y => { y with cellWait := some lane }

/-- The result of a confirmation: the lower value, or a mismatch, confirms (R459). -/
def State.thermConfirm (s : State) (z i a b : Nat) : State :=
  let low := min (s.hkConvert i a) (s.hkConvert i b)
  if s.p0 0x1006 < ((a : Int) - b).natAbs ∨ s.ps 0x1101 z 10 2 ≤ low then s.thermShut z i low else s

/-- A HEALTH of a cell: its temperature is kept with the one before, and a shutdown that waits for it is judged (R452, R459). -/
def State.thermHealth (s : State) (lane : Nat) : State :=
  let h := (s.lnk lane).health
  let t := signed 16 (256 * uAt h 4 1 + uAt h 5 1)
  let s1 := s.updHk fun k => { k with cellTemp := k.cellTemp.set lane (t, (k.cellTemp.get? lane).map (·.1)) }
  (List.range 16).foldl (fun s z =>
    if (s.zone z).cellWait = some lane then
      let s2 := s.modZone z fun y => { y with cellWait := none }
      match s2.hk.cellTemp.get? lane with
      | some (_, some t0) =>
        if s2.ps 0x1101 z 10 2 ≤ min t t0 then s2.thermShut z (0x100 + lane) t else s2
      | _ => s2
    else s) s1

/-! ### Derating (R456 to R458) -/

/-- A zone's factor from D (R457). -/
def derFactor (d : Nat) : Nat := if d = 0 then 0x7FFF else (16 - d) * 2048

/-- D and the recovery count after a round (R456). -/
def derStep (t : Option Int) (blindHot : Bool) (th hyst : Int) (dMax d count : Nat) : Nat × Nat :=
  let d0 := min d dMax
  let hot := match t with
    | some v => decide (th < v)
    | none => blindHot
  let cool := match t with
    | some v => decide (v < th - hyst)
    | none => false
  if hot then (if d0 < dMax then d0 + 1 else d0, 0)
  else if cool then (if count + 1 = 10 then (d0 - 1, 0) else (d0, count + 1))
  else (d0, 0)

/-- Publishes a zone's factor to its ports and its host signal; a change is forwarded, and a standby publishes nothing (R457, R458). -/
def State.derPublish (s : State) (z : Nat) : State :=
  let f := derFactor (s.zone z).d
  let sig := s.pu 0x1101 z 16 1
  let s1 := if s.thermActs then (s.modZone z fun x => { x with factor := f }).later .limits else s
  if s.thermActs && decide (sig ≠ 0xFF) then
    let v := leBytes 2 f
    let s2 := s1.setParam 0x0B08 sig v
    if s2.hasStandby && decide (f ≠ (s.zone z).factor) then
      let rec_ := leBytes 2 1 ++ leBytes 2 0 ++ leBytes 2 0x0B08 ++ leBytes 2 sig ++ leBytes 2 2 ++ [0, 0] ++ v ++ [0, 0]
      s2.forwardRequest 8 { opcode := 0x0212, epoch := s2.twin.epoch, length := rec_.length, payload := rec_ }
    else s2
  else s1

/-- Steps and publishes one enabled zone (R456, R457). -/
def State.derate (s : State) (z : Nat) : State :=
  if s.zoneEn z then
    let x := s.zone z
    let n := derStep x.t (bit (s.pu 0x1101 z 15 1) 1) (s.ps 0x1101 z 6 2) (s.ps 0x1101 z 8 2) (s.pu 0x1101 z 14 1) x.d x.count
    let s1 := s.modZone z fun y => { y with d := n.1, count := n.2 }
    let s2 := if n.1 = x.d then s1
      else (s1.bump 0x1104 noInst (if n.1 < x.d then 0 else 1)).note 0x0C 0x1101 (leBytes 1 z ++ leBytes 1 n.1) true
    s2.derPublish z
  else s

/-- The fans at a round (R453). -/
def State.fanRound (s : State) (f : Nat) : State :=
  let lo := s.pu 0x1007 f 2 2
  let x := s.hk.fan.get {} f
  if lo ≠ 0 ∧ x.rpm < lo then
    let s1 := s.updHk fun h => { h with fan := h.fan.set f { x with low := x.low + 1 } }
    if 2 ≤ x.low + 1 then s1.condOn 0x62 f 0 (leBytes 2 x.rpm) else s1
  else (s.updHk fun h => { h with fan := h.fan.set f { x with low := 0 } }).condOff 0x62 f 0

/-- Publishes the round (R450, R453 to R457). -/
def State.hkPublish (s : State) : State :=
  let s1 := (s.updHk fun h => { h with publish := false }).hkDew
  let s2 := (List.range 16).foldl (fun s z => s.derate z) s1
  (List.range 4).foldl (fun s f => s.fanRound f) s2

/-- Publishes once no confirmation of the round is outstanding (R450). -/
def State.hkTryPublish (s : State) : State :=
  if s.hk.publish && !(s.hkPair 0).confirming && !(s.hkPair 1).confirming then s.hkPublish else s

/-- Evaluates the zones once both sequences of the round have ended (R450, R455, R459). -/
def State.hkTryEval (s : State) : State :=
  if s.hk.open_ && (s.hkPair 0).ended && (s.hkPair 1).ended then
    let s1 := s.updHk fun h => { h with open_ := false, publish := true }
    let s2 := (List.range 16).foldl (fun s z => s.zoneForm z) s1
    ((List.range 16).foldl (fun s z => s.thermAsk z) s2).hkTryPublish
  else s.hkTryPublish

/-! ### Rounds (R450) -/

/-- Notes a boundary as run, in its span. -/
def ranAdd (n : Nat) : List (Nat × Nat) → List (Nat × Nat)
  | [] => [(n, n)]
  | (a, b) :: r => if b + 1 = n then (a, n) :: r else (a, b) :: ranAdd n r

/-- Whether a boundary has run. -/
def ranHas (n : Nat) (l : List (Nat × Nat)) : Bool := l.any fun x => decide (x.1 ≤ n) && decide (n ≤ x.2)

/-- Starts a round: HK_SEQ and the zones' configuration are adopted, and both sequences start (R444, R450, R465). -/
def State.hkRoundStart (s : State) (n : Nat) : State :=
  let s1 := (List.range 2).foldl (fun s k => s.capture 0x1003 k) s
  let s2 := (List.range 16).foldl (fun s z => s.capture 0x1101 z) s1
  let s3 := s2.updHk fun h =>
    { h with rounds := (h.rounds + 1) % 2 ^ 32, ran := ranAdd n h.ran, roundAt := s.mono, open_ := true, publish := false,
             badConv := [], results := [] }
  ((s3.hkRestart 0).hkRestart 1).hkTryEval

/-- A reset of the block: both sequences restart from entry 0, the urgent queues are emptied (R579). -/
def State.hkReset (s : State) : State :=
  let drop := fun (s : State) (k : Nat) =>
    let p := s.hkPair k
    let us_ := p.urgent ++ (match p.conv with
      | some (.urgent u) => [u]
      | _ => [])
    let s1 := us_.foldl (fun s u => match u.for_ with
      | .mailbox mb => s.refuse mb stFailed 0
      | .confirm _ => s) s
    (s1.modPair k fun p => { p with urgent := [], conv := none }).hkRestart k
  (drop (drop s 0) 1).hkTryEval

end Sys2Proof.Machine
end

