-- ==== Sys2Proof/Machine/Cmac.lean ====
section
/-!
DEFINITION. AES-128 and AES-CMAC, which R171 takes from NIST SP 800-38B: bytes as numbers below 256, a block as 16 of them, first byte first.
-/

namespace Sys2Proof.Machine

/-! ### The field of AES -/

/-- Doubling in the field of AES, whose polynomial is x^8 + x^4 + x^3 + x + 1. -/
def gfDouble (a : Nat) : Nat := if a < 128 then 2 * a else (2 * a % 256) ^^^ 0x1B

/-- The product of two field elements, over the lowest n bits of the second. -/
def gfMul : Nat → Nat → Nat → Nat
  | 0, _, _ => 0
  | n + 1, a, b => (if b % 2 = 1 then a else 0) ^^^ gfMul n (gfDouble a) (b / 2)

/-- The inverse of a field element, 0 for 0: its power 254. -/
def gfInv (a : Nat) : Nat :=
  let up := fun r => gfMul 8 (gfMul 8 r r) a
  let r := up (up (up (up (up (up a)))))
  gfMul 8 r r

/-- A byte rotated left. -/
def rotl8 (a n : Nat) : Nat := a * 2 ^ n % 256 + a / 2 ^ (8 - n)

/-- The substitution box of AES. -/
def aesSub (a : Nat) : Nat :=
  let b := gfInv a
  b ^^^ rotl8 b 1 ^^^ rotl8 b 2 ^^^ rotl8 b 3 ^^^ rotl8 b 4 ^^^ 0x63

/-! ### The cipher -/

/-- Two byte strings combined by exclusive or. -/
def xorBytes (a b : List Nat) : List Nat := List.zipWith (· ^^^ ·) a b

/-- The next round key after one, with its round constant. -/
def aesNextKey (k : List Nat) (rcon : Nat) : List Nat :=
  let t := xorBytes [aesSub (k.getD 13 0), aesSub (k.getD 14 0), aesSub (k.getD 15 0), aesSub (k.getD 12 0)] [rcon, 0, 0, 0]
  let w0 := xorBytes (k.take 4) t
  let w1 := xorBytes ((k.drop 4).take 4) w0
  let w2 := xorBytes ((k.drop 8).take 4) w1
  w0 ++ w1 ++ w2 ++ xorBytes (k.drop 12) w2

/-- ShiftRows after SubBytes. -/
def aesSubShift (b : List Nat) : List Nat := (List.range 16).map fun i => aesSub (b.getD ((i + 4 * (i % 4)) % 16) 0)

/-- MixColumns. -/
def aesMix (b : List Nat) : List Nat :=
  (List.range 16).map fun i =>
    let c := i / 4 * 4
    let x := fun k => b.getD (c + (i + k) % 4) 0
    gfDouble (x 0) ^^^ gfDouble (x 1) ^^^ x 1 ^^^ x 2 ^^^ x 3

/-- The rounds from one on: the fuel counts those left, the last of which does not mix. -/
def aesRounds : Nat → Nat → List Nat → List Nat → List Nat
  | 0, _, _, b => b
  | n + 1, rcon, k, b =>
    let k1 := aesNextKey k rcon
    let c := aesSubShift b
    aesRounds n (gfDouble rcon) k1 (xorBytes (if n = 0 then c else aesMix c) k1)

/-- AES-128 of one block. -/
def aes128 (key b : List Nat) : List Nat := aesRounds 10 1 key (xorBytes b key)

/-! ### The MAC -/

/-- A block doubled, as a subkey is formed. -/
def cmacDouble (b : List Nat) : List Nat :=
  let n := b.foldl (fun n x => 256 * n + x) 0
  let d := 2 * n % 2 ^ 128 ^^^ (if 2 ^ 127 ≤ n then 0x87 else 0)
  (List.range 16).map fun i => d / 256 ^ (15 - i) % 256

/-- The chain over the blocks of a message, the last masked with a subkey; the fuel bounds the blocks. -/
def cmacChain (key k1 k2 : List Nat) : Nat → List Nat → List Nat → List Nat
  | 0, c, _ => c
  | n + 1, c, m =>
    if 16 < m.length then cmacChain key k1 k2 n (aes128 key (xorBytes c (m.take 16))) (m.drop 16)
    else
      let last := if m.length = 16 then xorBytes m k1 else xorBytes (m ++ 0x80 :: List.replicate (15 - m.length) 0) k2
      aes128 key (xorBytes c last)

/-- AES-CMAC under a 128-bit key, first byte first (R171). -/
def cmacBytes (key m : List Nat) : List Nat :=
  let z := List.replicate 16 0
  let k1 := cmacDouble (aes128 key z)
  cmacChain key k1 (cmacDouble k1) (m.length / 16 + 1) z m

/-- The most significant 64 bits of AES-CMAC over a message (R171, log 7). -/
def cmac64 (key m : Bytes) : Nat :=
  ((cmacBytes (key.map (·.toNat)) (m.map (·.toNat))).take 8).foldl (fun n x => 256 * n + x) 0

end Sys2Proof.Machine
end

