-- ==== Sys2Proof/Machine/P256.lean ====
section
/-!
DEFINITION. The curve P-256 of FIPS 186-4 and ECDSA over it, which R561, R602, R615 and R616 name. Points stand in Jacobian coordinates: (x, y, z)
for x / z^2 and y / z^3, and z = 0 for the point at infinity.
-/

namespace Sys2Proof.Machine

/-- The field's prime. -/
def ecP : Nat := 0xFFFFFFFF00000001000000000000000000000000FFFFFFFFFFFFFFFFFFFFFFFF

/-- The group's order. -/
def ecN : Nat := 0xFFFFFFFF00000000FFFFFFFFFFFFFFFFBCE6FAADA7179E84F3B9CAC2FC632551

/-- The curve's coefficient b; a is -3. -/
def ecB : Nat := 0x5AC635D8AA3A93E7B3EBBD55769886BC651D06B0CC53B0F63BCE3C3E27D2604B

/-- A power modulo m, over the bits of the exponent, the highest first. -/
def powMod (m b : Nat) (e : List Bool) : Nat := e.foldl (fun r i => if i then r * r % m * b % m else r * r % m) 1

/-- The inverse modulo a prime below 2^256, 0 for 0: the power p - 2. -/
def invMod (p a : Nat) : Nat := powMod p a (bitsMsb 256 (p - 2))

/-- A difference in the field, of two elements. -/
def ecSub (a b : Nat) : Nat := (a + (ecP - b)) % ecP

/-- A product in the field. -/
def ecMul (a b : Nat) : Nat := a * b % ecP

/-- A point. -/
structure EcPoint where
  (x y z : Nat)
deriving DecidableEq, Repr

/-- The generator. -/
def ecG : EcPoint :=
  ⟨0x6B17D1F2E12C4247F8BCE6E563A440F277037D812DEB33A0F4A13945D898C296,
   0x4FE342E2FE1A7F9B8EE7EB4A7C0F9E162BCE33576B315ECECBB6406837BF51F5, 1⟩

/-- Twice a point. -/
def EcPoint.double (p : EcPoint) : EcPoint :=
  let d := ecMul p.z p.z
  let g := ecMul p.y p.y
  let b := ecMul p.x g
  let a := 3 * ecMul (ecSub p.x d) (p.x + d) % ecP
  let x := ecSub (ecMul a a) (8 * b % ecP)
  ⟨x, ecSub (ecMul a (ecSub (4 * b % ecP) x)) (8 * (g * g) % ecP), 2 * p.y * p.z % ecP⟩

/-- The sum of two points. -/
def EcPoint.add (p q : EcPoint) : EcPoint :=
  if p.z = 0 then q
  else if q.z = 0 then p
  else
    let a := ecMul p.z p.z
    let b := ecMul q.z q.z
    let u := ecMul p.x b
    let h := ecSub (ecMul q.x a) u
    let s := ecMul p.y (ecMul q.z b)
    let r := ecSub (ecMul q.y (ecMul p.z a)) s
    if h = 0 then if r = 0 then p.double else ⟨1, 1, 0⟩
    else
      let h2 := ecMul h h
      let v := ecMul u h2
      let h3 := ecMul h h2
      let x := ecSub (ecMul r r) ((h3 + 2 * v) % ecP)
      ⟨x, ecSub (ecMul r (ecSub v x)) (ecMul s h3), ecMul h (ecMul p.z q.z)⟩

/-- A multiple of a point, over the bits of the factor, the highest first. -/
def EcPoint.times (p : EcPoint) (e : List Bool) : EcPoint :=
  e.foldl (fun r i => if i then r.double.add p else r.double) ⟨1, 1, 0⟩

/-- A multiple of a point by a factor below 2^256. -/
def EcPoint.mul (p : EcPoint) (k : Nat) : EcPoint := p.times (bitsMsb 256 k)

/-- A point's coordinates; none for infinity. -/
def EcPoint.affine (p : EcPoint) : Option (Nat × Nat) :=
  if p.z = 0 then none
  else
    let i := invMod ecP p.z
    some (ecMul p.x (ecMul i i), ecMul p.y (ecMul i (ecMul i i)))

/-- Whether two coordinates are those of a point of the curve. -/
def onCurve (x y : Nat) : Bool :=
  decide (x < ecP) && decide (y < ecP) && ecMul y y == (x * x * x + (ecP - 3) * x + ecB) % ecP

/-- The number 32 bytes spell, the first the highest. -/
def be32 (l : Bytes) (off : Nat) : Nat := leNat (slice l off 32).reverse

/-- The point of a public key of 64 bytes, X then Y; none where it is no point of the curve. -/
def pointOf (key : Bytes) : Option EcPoint :=
  let x := be32 key 0
  let y := be32 key 32
  if onCurve x y then some ⟨x, y, 1⟩ else none

/-- A private key as a factor from 1 to the order less 1, from any number. -/
def ecScalar (k : Nat) : Nat := k % (ecN - 1) + 1

/-- The public key of a private key, X then Y (R561, R620, log 7). -/
def publicKey (k : Nat) : Bytes :=
  match (ecG.mul (ecScalar k)).affine with
  | some (x, y) => beBytes 32 x ++ beBytes 32 y
  | none => List.replicate 64 0

/-- Whether an ECDSA signature of 64 bytes, r then s, over a hash verifies under a public key (R602, R616, log 7). -/
def ecdsaVerify (key : Bytes) (hash : Nat) (sig : Bytes) : Bool :=
  let r := be32 sig 0
  let s := be32 sig 32
  if r = 0 ∨ s = 0 ∨ ecN ≤ r ∨ ecN ≤ s then false
  else
    match pointOf key with
    | none => false
    | some q =>
      let w := invMod ecN s
      match ((ecG.mul (hash * w % ecN)).add (q.mul (r * w % ecN))).affine with
      | none => false
      | some (x, _) => x % ecN == r

/-- The ECDSA signature of a hash by a private key, r then s, with the number drawn for it (R561, log 7). -/
def ecdsaSign (key hash drawn : Nat) : Bytes :=
  let k := ecScalar drawn
  let r := (match (ecG.mul k).affine with
    | some (x, _) => x
    | none => 0) % ecN
  beBytes 32 r ++ beBytes 32 (invMod ecN k * (hash + r * ecScalar key) % ecN)

/-- The X coordinate of the ECDH product of a private key and a public key (R615); none where that is no point of the curve. -/
def ecdh (key : Nat) (pub : Bytes) : Option Nat := ((pointOf pub).bind fun q => (q.mul (ecScalar key)).affine).map (·.1)

end Sys2Proof.Machine
end

