-- ==== Sys2Proof/Machine/Sha256.lean ====
section
/-!
DEFINITION. SHA-256 of FIPS 180-4, which R561, R602, R615 and R616 name, on words as numbers below 2^32.
-/

namespace Sys2Proof.Machine

/-- The round constants, the first four rows. -/
def shaK0 : List Nat :=
  [0x428a2f98, 0x71374491, 0xb5c0fbcf, 0xe9b5dba5, 0x3956c25b, 0x59f111f1, 0x923f82a4, 0xab1c5ed5,
   0xd807aa98, 0x12835b01, 0x243185be, 0x550c7dc3, 0x72be5d74, 0x80deb1fe, 0x9bdc06a7, 0xc19bf174,
   0xe49b69c1, 0xefbe4786, 0x0fc19dc6, 0x240ca1cc, 0x2de92c6f, 0x4a7484aa, 0x5cb0a9dc, 0x76f988da,
   0x983e5152, 0xa831c66d, 0xb00327c8, 0xbf597fc7, 0xc6e00bf3, 0xd5a79147, 0x06ca6351, 0x14292967]

/-- The round constants, the last four rows. -/
def shaK1 : List Nat :=
  [0x27b70a85, 0x2e1b2138, 0x4d2c6dfc, 0x53380d13, 0x650a7354, 0x766a0abb, 0x81c2c92e, 0x92722c85,
   0xa2bfe8a1, 0xa81a664b, 0xc24b8b70, 0xc76c51a3, 0xd192e819, 0xd6990624, 0xf40e3585, 0x106aa070,
   0x19a4c116, 0x1e376c08, 0x2748774c, 0x34b0bcb5, 0x391c0cb3, 0x4ed8aa4a, 0x5b9cca4f, 0x682e6ff3,
   0x748f82ee, 0x78a5636f, 0x84c87814, 0x8cc70208, 0x90befffa, 0xa4506ceb, 0xbef9a3f7, 0xc67178f2]

/-- A word rotated right. -/
def rotr32 (n x : Nat) : Nat := x / 2 ^ n + x % 2 ^ n * 2 ^ (32 - n)

/-- The eight words of a hash under way. -/
structure ShaState where
  (a b c d e f g h : Nat)
deriving DecidableEq, Repr

/-- The hash before the first block. -/
def shaInit : ShaState :=
  ⟨0x6a09e667, 0xbb67ae85, 0x3c6ef372, 0xa54ff53a, 0x510e527f, 0x9b05688c, 0x1f83d9ab, 0x5be0cd19⟩

/-- One round, with its constant and its word of the schedule. -/
def shaRound (k w : Nat) (x : ShaState) : ShaState :=
  let s1 := rotr32 6 x.e ^^^ rotr32 11 x.e ^^^ rotr32 25 x.e
  let ch := (x.e &&& x.f) ^^^ ((0xFFFFFFFF ^^^ x.e) &&& x.g)
  let t1 := x.h + s1 + ch + k + w
  let s0 := rotr32 2 x.a ^^^ rotr32 13 x.a ^^^ rotr32 22 x.a
  let maj := (x.a &&& x.b) ^^^ (x.a &&& x.c) ^^^ (x.b &&& x.c)
  ⟨(t1 + s0 + maj) % 2 ^ 32, x.a, x.b, x.c, (x.d + t1) % 2 ^ 32, x.e, x.f, x.g⟩

/-- The next word of the schedule after 16 of them. -/
def shaNext (w : List Nat) : Nat :=
  let a := w.getD 1 0
  let b := w.getD 14 0
  ((rotr32 17 b ^^^ rotr32 19 b ^^^ b / 2 ^ 10) + w.getD 9 0 + (rotr32 7 a ^^^ rotr32 18 a ^^^ a / 2 ^ 3) + w.getD 0 0) % 2 ^ 32

/-- The rounds with the constants given, over a window of the schedule's next 16 words. -/
def shaRounds : List Nat → List Nat → ShaState → ShaState
  | [], _, x => x
  | k :: r, w, x => shaRounds r (w.drop 1 ++ [shaNext w]) (shaRound k (w.getD 0 0) x)

/-- One block of 16 words taken into the hash. -/
def shaBlock (w : List Nat) (x : ShaState) : ShaState :=
  let y := shaRounds (shaK0 ++ shaK1) w x
  let add := fun a b => (a + b) % 2 ^ 32
  ⟨add x.a y.a, add x.b y.b, add x.c y.c, add x.d y.d, add x.e y.e, add x.f y.f, add x.g y.g, add x.h y.h⟩

/-- A message padded to whole blocks. -/
def shaPad (m : Bytes) : Bytes :=
  m ++ [0x80] ++ List.replicate ((119 - m.length % 64) % 64) 0 ++ beBytes 8 (8 * m.length)

/-- The words of one block. -/
def shaWords (b : Bytes) : List Nat := (List.range 16).map fun i => leNat (slice b (4 * i) 4).reverse

/-- The blocks of a message in order; the first argument bounds them. -/
def shaBlocks : Nat → Bytes → ShaState → ShaState
  | 0, _, x => x
  | n + 1, m, x => shaBlocks n (m.drop 64) (shaBlock (shaWords m) x)

/-- SHA-256 of a message, as the 256-bit number its bytes spell, first byte first (R561, R602, R615, R616, log 7). -/
def sha256 (m : Bytes) : Nat :=
  let p := shaPad m
  let x := shaBlocks (p.length / 64) p shaInit
  [x.a, x.b, x.c, x.d, x.e, x.f, x.g, x.h].foldl (fun n w => 2 ^ 32 * n + w) 0

end Sys2Proof.Machine
end

