-- ==== Sys2Proof/Machine/KeyWrap.lean ====
section
/-!
DEFINITION. AES-256 backwards and the key unwrapping of RFC 3394, under the KEK of R615.
-/

namespace Sys2Proof.Machine

/-- The inverse of the substitution box. -/
def aesInvSub (a : Nat) : Nat := gfInv (rotl8 a 1 ^^^ rotl8 a 3 ^^^ rotl8 a 6 ^^^ 0x05)

/-- The next 32 bytes of the key schedule of AES-256 after 32, with their round constant. -/
def aesNextKey256 (k : List Nat) (rcon : Nat) : List Nat :=
  let word := fun i => (k.drop (4 * i)).take 4
  let w0 := xorBytes (word 0) (xorBytes [aesSub (k.getD 29 0), aesSub (k.getD 30 0), aesSub (k.getD 31 0), aesSub (k.getD 28 0)] [rcon, 0, 0, 0])
  let w1 := xorBytes (word 1) w0
  let w2 := xorBytes (word 2) w1
  let w3 := xorBytes (word 3) w2
  let w4 := xorBytes (word 4) (w3.map aesSub)
  let w5 := xorBytes (word 5) w4
  let w6 := xorBytes (word 6) w5
  w0 ++ w1 ++ w2 ++ w3 ++ w4 ++ w5 ++ w6 ++ xorBytes (word 7) w6

/-- The round keys of AES-256 in their order, from 32 bytes of the schedule on; the first argument counts the further steps. -/
def aesKeys256 : Nat → Nat → List Nat → List (List Nat)
  | 0, _, k => [k.take 16]
  | n + 1, rcon, k => k.take 16 :: k.drop 16 :: aesKeys256 n (gfDouble rcon) (aesNextKey256 k rcon)

/-- InvShiftRows and InvSubBytes. -/
def aesInvSubShift (b : List Nat) : List Nat := (List.range 16).map fun i => aesInvSub (b.getD ((i + 12 * (i % 4)) % 16) 0)

/-- InvMixColumns. -/
def aesInvMix (b : List Nat) : List Nat :=
  (List.range 16).map fun i =>
    let c := i / 4 * 4
    let x := fun k => b.getD (c + (i + k) % 4) 0
    gfMul 8 (x 0) 14 ^^^ gfMul 8 (x 1) 11 ^^^ gfMul 8 (x 2) 13 ^^^ gfMul 8 (x 3) 9

/-- The rounds backwards, over the round keys that are left, the latest first. -/
def aesBack : List (List Nat) → List Nat → List Nat
  | [], b => b
  | [k], b => xorBytes (aesInvSubShift b) k
  | k :: r, b => aesBack r (aesInvMix (xorBytes (aesInvSubShift b) k))

/-- AES-256 backwards over one block, with the round keys, the latest first. -/
def aesDecrypt (keys : List (List Nat)) (b : List Nat) : List Nat :=
  match keys with
  | [] => b
  | k :: r => aesBack r (xorBytes b k)

/-- One step of the unwrapping: the register, and the two halves of the key. -/
def unwrapStep (keys : List (List Nat)) (t : Nat) (x : List Nat × List Nat × List Nat) : List Nat × List Nat × List Nat :=
  let b := aesDecrypt keys (xorBytes x.1 (List.replicate 7 0 ++ [t]) ++ x.2.2)
  (b.take 8, b.drop 8, x.2.1)

/-- The 16 bytes that 24 unwrap to under a key of 32 (RFC 3394); none where the check of the register fails. -/
def unwrapBytes (kek w : List Nat) : Option (List Nat) :=
  let keys := (aesKeys256 7 1 kek).reverse
  let x := [12, 11, 10, 9, 8, 7, 6, 5, 4, 3, 2, 1].foldl (fun x t => unwrapStep keys t x)
    (w.take 8, (w.drop 8).take 8, w.drop 16)
  if x.1 = List.replicate 8 0xA6 then some (x.2.1 ++ x.2.2) else none

/-- The link key a KEYS record unwraps to, by the unit's key-agreement key, the ephemeral public key and the 24 wrapped bytes; none where the
unwrapping fails (R615, log 7). -/
def keyUnwrap (key : Nat) (pub w : Bytes) : Option Bytes :=
  (ecdh key pub).bind fun x =>
    (unwrapBytes ((beBytes 32 (sha256 (beBytes 32 x))).map (·.toNat)) (w.map (·.toNat))).map fun l => l.map (BitVec.ofNat 8)

end Sys2Proof.Machine
end

