-- ==== Sys2Proof/Machine/EnergyOps.lean ====
section
/-!
DEFINITION. Energy accounting's shared operations: instants, registers, demand, limits, copies, readouts (R549 to R562).
-/

namespace Sys2Proof.Machine

/-- A port. -/
def State.enPort (s : State) (n : Nat) : EnPort := s.en.port.get {} n

/-- Changes a port. -/
def State.modEn (s : State) (n : Nat) (f : EnPort → EnPort) : State := s.updEn fun e => { e with port := e.port.mod {} n f }

/-- KIND in effect (R549). -/
def State.enKind (s : State) (n : Nat) : Nat := s.pu 0x1501 n 0 1

/-- The phases of a kind. -/
def enPhases (kind : Nat) : Nat := if kind = 3 then 3 else 1

/-- A source of a port: lane and channel; the first three are voltages (R570). -/
def State.enSrc (s : State) (n i : Nat) : Nat × Nat := (s.pu 0x1501 n (4 + 4 * i) 2, s.pu 0x1501 n (6 + 4 * i) 1)

/-- The sources of a port (R549). -/
def State.enSrcs (s : State) (n : Nat) : List (Nat × Nat) :=
  let k := enPhases (s.enKind n)
  (List.range k).map (s.enSrc n) ++ (List.range k).map fun i => s.enSrc n (3 + i)

/-- A source's latest value and its instant. -/
def State.enVal (s : State) (x : Nat × Nat) : Int × Option Nat :=
  let v := (s.lnk x.1).samples.get {} x.2
  (v.value, v.at_)

/-- The instant at which every source of a port has delivered (R550). -/
def State.enInstant (s : State) (n : Nat) : Option Nat :=
  match s.enSrcs n with
  | [] => none
  | x :: r =>
    match (s.enVal x).2 with
    | some t => if r.all fun y => (s.enVal y).2 == some t then some t else none
    | none => none

/-- Whether a source of a port is stale (R317, R551). -/
def State.enStale (s : State) (n : Nat) : Bool :=
  (s.enSrcs n).any fun x =>
    !eEnabled (s.entry x.1) || (s.lnk x.1).stale ||
      match (s.enVal x).2 with
      | some t => decide (t + s.p0 0x0B04 < s.now)
      | none => true

/-- A quarter of the nominal period in ticks (R550). -/
def State.enQuarter (s : State) (n : Nat) : Nat := if s.pu 0x1501 n 1 1 = 0 then 40000000 else 33333333

/-- The voltage of the instant nearest to a given one (R550, log 94). -/
def nearestV (t : Nat) : List (Nat × Int) → Int → Nat → Int
  | [], v, _ => v
  | x :: r, v, d =>
    let e := max x.1 t - min x.1 t
    if e < d then nearestV t r x.2 e else nearestV t r v d

/-- The active and reactive power of an instant, in 2^-30 µW and µvar (R26, R550); 1/√3 is taken to 64 bits (log 94). -/
def State.enPower (s : State) (n t : Nat) : Int × Int :=
  let v := fun i => (s.enVal (s.enSrc n i)).1
  let c := fun i => (s.enVal (s.enSrc n (3 + i))).1
  let k : Int := (s.pu 0x1501 n 28 4 * s.pu 0x1501 n 32 4 : Nat)
  match s.enKind n with
  | 3 =>
    ((v 0 * c 0 + v 1 * c 1 + v 2 * c 2) * k,
      ((c 0 * (v 1 - v 2) + c 1 * (v 2 - v 0) + c 2 * (v 0 - v 1)) * k * 10650232656628343401).tdiv (2 ^ 64))
  | 2 =>
    let u := t - s.enQuarter n
    (v 0 * c 0 * k, nearestV u (s.enPort n).hist (v 0) (t - u) * c 0 * k)
  | _ => (v 0 * c 0 * k, 0)

/-- Adds a power over a span to a register, in 2^-32 of its unit with whole units carried (R551, R552, log 94). -/
def EnPort.add (x : EnPort) (r : Nat) (p : Int) (dt : Nat) : EnPort :=
  let a := x.acc.get 0 r + p.natAbs * dt / 7200000000000000
  { x with acc := x.acc.set r (a % 2 ^ 32),
           kept := { x.kept with reg := x.kept.reg.set r ((x.kept.reg.get 0 r + a / 2 ^ 32) % 2 ^ 64) } }

/-- The reactive register of the signs of p and q (R552). -/
def enQuadrant (p q : Int) : Nat := if 0 ≤ p then (if 0 ≤ q then 2 else 5) else (if 0 ≤ q then 3 else 4)

/-- A span added to GAP_TIME (R551, R555, R557, log 95). -/
def State.enGap (s : State) (n dt : Nat) (counts : Bool) : State :=
  let g := (s.enPort n).kept.gap
  let s1 := s.modEn n fun x => { x with kept := { x.kept with gap := g + dt }, partial_ := true }
  let s2 := s1.bumpBy 0x1509 n 1 ((g + dt) / ms 1 - g / ms 1)
  if counts then s2.bump 0x1509 n 0 else s2

/-- Whether |p| exceeds a share of RATING in Q1.15; p in µW. -/
def State.enExceeds (s : State) (n : Nat) (p : Int) (lim : Int) : Bool :=
  decide (lim * ((s.pu 0x1501 n 36 4 * 1000000 : Nat) : Int) < (p.natAbs : Int) * 32768)

/-- The limit in effect for a port's direction (R560). -/
def EnPort.limit (x : EnPort) : Int := if 0 ≤ x.p then x.limImp else x.limExp

/-- Looks at a port's power after an instant or a change of limits (R560, R612). -/
def State.enWatch (s : State) (n : Nat) : State :=
  let x := s.enPort n
  let grace := ms (s.pu 0x1506 n 4 2)
  s.modEn n fun y =>
    let z := if s.enExceeds n x.p 0x0666 then { y with heavyAt := some s.mono } else y
    if s.enExceeds n x.p x.limit then
      match z.over_ with
      | some _ => z
      | none => { z with over_ := some s.mono, armed := z.armed || decide (z.below + grace ≤ s.mono) }
    else { z with over_ := none, below := if z.over_.isSome then s.mono else z.below }

/-- An instant of a port (R550 to R552, log 94). -/
def State.enTake (s : State) (n t : Nat) : State :=
  let x := s.enPort n
  let pq := s.enPower n t
  let s1 := match x.last with
    | none => if x.started then s.enGap n t false else s
    | some t0 =>
      let dt := t - t0
      if s.pu 0x1501 n 40 4 < dt ∨ s.enStale n = true then s.enGap n dt true
      else s.modEn n fun y => (y.add (if 0 ≤ pq.1 then 0 else 1) pq.1 dt).add (enQuadrant pq.1 pq.2) pq.2 dt
  let q := s.enQuarter n
  (s1.modEn n fun y =>
    { y with last := some t, started := false, p := pq.1.tdiv (2 ^ 30), q := pq.2.tdiv (2 ^ 30),
             hist := (t, (s.enVal (s.enSrc n 0)).1) :: y.hist.takeWhile fun h => decide (t ≤ h.1 + 2 * q) }).enWatch n

/-- A channel's new value: every port whose sources are then complete takes its instant (R550). -/
def State.enSample (s : State) (lane chan : Nat) : State :=
  (List.range 16).foldl (fun s n =>
    if s.enKind n ≠ 0 ∧ (s.enSrcs n).contains (lane, chan) = true then
      match s.enInstant n with
      | some t =>
        match (s.enPort n).last with
        | some t0 => if t0 < t then s.enTake n t else s
        | none => s.enTake n t
      | none => s
    else s) s

/-! ### Demand (R556, R557) -/

/-- The demand of an energy, in W. -/
def demandOf (e : Nat) : Nat := e * 4 / 1000

/-- The end of a port's demand interval. -/
def State.enDemand (s : State) (n : Nat) : State :=
  if s.enKind n = 0 then s
  else
    let x := s.enPort n
    let imp := demandOf (x.kept.reg.get 0 0 - x.kept.imp0)
    let exp := demandOf (x.kept.reg.get 0 1 - x.kept.exp0)
    let s1 := s.modEn n fun y =>
      let k := y.kept
      let k1 := if !y.partial_ && decide (k.mdImp < imp) then { k with mdImp := imp, mdImpRtc := s.en.from_ } else k
      let k2 := if !y.partial_ && decide (k.mdExp < exp) then { k1 with mdExp := exp, mdExpRtc := s.en.from_ } else k1
      { y with partial_ := false,
               kept := { k2 with lastImp := imp, lastExp := exp, imp0 := k.reg.get 0 0, exp0 := k.reg.get 0 1 } }
    if x.partial_ then s1.bump 0x1509 n 2 else s1

/-- The end of the demand interval at the RTC second that has come (log 95). -/
def State.demandEnd (s : State) : State :=
  ((List.range 16).foldl State.enDemand s).updEn fun e => { e with from_ := s.bat.rtcSec / 900 * 900 }

/-- Marks the interval of every port PARTIAL (R557). -/
def State.enPartial (s : State) : State :=
  (List.range 16).foldl (fun s n => s.modEn n fun y => { y with partial_ := true }) s

/-! ### Limits (R558, R559) -/

/-- The index of the entry of a schedule in effect at a second (R559). -/
def schedIndex (v : Bytes) (sec : Nat) : Option Nat :=
  let n := uAt v 0 1
  let rep_ := bit (uAt v 1 1) 0
  let t := if rep_ then sec % 86400 else sec
  match ((List.range n).filter fun i => decide (uAt v (4 + 8 * i) 4 ≤ t)).getLast? with
  | some i => some i
  | none => if rep_ && decide (0 < n) then some (n - 1) else none

/-- A limit term from the zones that name a port (R457, R558). -/
def State.enZone (s : State) (n : Nat) : Int :=
  (List.range 16).foldl (fun (m : Int) z =>
    if s.zoneEn z && bit (s.pu 0x1101 z 20 2) n then min m (s.zone z).factor else m) 0x7FFF

/-- Publishes a value to a host signal; a change is forwarded (R457, R558). -/
def State.putHostSig (s : State) (sig : Nat) (v : Int) : State :=
  let b := leBytesI 2 v
  let s1 := s.setParam 0x0B08 sig b
  if s.hasStandby && decide (s.peff 0x0B08 sig ≠ b) then
    let r := leBytes 2 1 ++ leBytes 2 0 ++ leBytes 2 0x0B08 ++ leBytes 2 sig ++ leBytes 2 2 ++ [0, 0] ++ b ++ [0, 0]
    s1.forwardRequest 8 { opcode := 0x0212, epoch := s1.twin.epoch, length := r.length, payload := r }
  else s1

/-- A port's limits in effect, chosen afresh and published (R558, R559). -/
def State.enLimits (s : State) (n : Nat) : State :=
  let v := s.peff 0x1505 n
  let e := if s.bat.rtcSet then schedIndex v s.bat.rtcSec else none
  let f := s.enZone n
  let lim := fun off => min f (min (s.ps 0x1506 n off 2) (match e with
    | some i => sAt v (8 + 8 * i + off) 2
    | none => 0x7FFF))
  let s1 := (s.modEn n fun x => { x with limImp := lim 0, limExp := lim 2, sched := e.isSome })
  let sig := s.pu 0x1501 n 2 1
  if s.enKind n = 0 then s1
  else
    let s2 := s1.enWatch n
    if sig ≠ 0xFF ∧ s.thermActs = true then (s2.putHostSig sig (lim 0)).putHostSig (sig + 1) (lim 2) else s2

/-- Every port's limits (log 96). -/
def State.enAllLimits (s : State) : State := (List.range 16).foldl State.enLimits s

/-- A host signal that a port with KIND not 0 publishes (R558). -/
def State.enOwnsSig (s : State) (sig : Nat) : Bool :=
  (List.range 16).any fun n =>
    s.enKind n != 0 && (let g := s.pu 0x1501 n 2 1
                        g != 0xFF && (sig == g || sig == g + 1))

/-! ### Copies (R555) -/

/-- Writes the older of the two copies. -/
def State.enCopy (s : State) : State :=
  s.updEn fun e =>
    let c : EnCopy :=
      { seq := (match e.copies with
          | [] => 0
          | x :: _ => x.seq + 1), port := { cells := e.port.cells.map fun x => (x.1, x.2.kept) }, cfgGen := e.cfgGen, outages := e.outages,
        tampers := e.tampers, from_ := e.from_ }
    { e with copies := c :: e.copies.take 1, copyAt := some s.mono }

/-- Loads the newer copy at a start; OUTAGES counts one, and an interval that has passed ends as PARTIAL (R555, R557, R572). -/
def State.enRestore (s : State) : State :=
  let s1 := s.updEn fun e =>
    match e.copies with
    | [] => { copies := [], outages := 1 }
    | c :: _ =>
      { copies := e.copies, cfgGen := c.cfgGen, outages := satN 16 (c.outages + 1), tampers := c.tampers, from_ := c.from_,
        port := { cells := c.port.cells.map fun x => (x.1, { kept := x.2, started := true }) } }
  let s2 := if s1.bat.rtcSec / 900 * 900 ≠ s1.en.from_ then s1.demandEnd else s1
  s2.enPartial

/-! ### Configuration and readouts -/

/-- The attic entries of a value, 12 bytes each, from a PART on (R619); the fuel bounds them by 64. -/
def State.atticParts (s : State) : Nat → Nat → Bytes → State
  | 0, _, _ => s
  | k + 1, part, l => if l = [] then s else (s.attic 2 part 0 (l.take 12)).atticParts k (part + 1) (l.drop 12)

/-- A port written OFF has no power, and exceeds no limit (R549, R560). -/
def State.enOff (s : State) (n : Nat) : State :=
  if s.enKind n = 0 then s.modEn n fun x => { x with p := 0, q := 0, over_ := none, armed := true } else s

/-- An accepted write of page 0x15 configuration: CFG_GEN, the attic, a PARTIAL interval (R554, R557, R619). -/
def State.enConfig (s : State) (id n : Nat) (old new : Bytes) : State :=
  let s1 := s.updEn fun e => { e with cfgGen := (e.cfgGen + 1) % 2 ^ 32 }
  let s2 := s1.modEn n fun x => { x with partial_ := true, last := if id = 0x1501 then none else x.last }
  ((s2.attic 2 0 0 (leBytes 2 id ++ leBytes 2 n ++ leBytes 2 new.length ++ [0, 0] ++ leBytes 4 s2.en.cfgGen)).atticParts 64 1
    (old ++ new))

/-- Bytes 0 to 111 of a readout (R561). -/
def State.readout (s : State) (n : Nat) (nonce : Bytes) : Bytes :=
  let k := (s.enPort n).kept
  leBytes 2 1 ++ leBytes 1 n ++
    leBytes 1 (b2n s.bat.rtcSet + 2 * b2n (decide (s.time.state = .locked)) + 4 * b2n (decide (s.twin.role = .active))) ++
    leBytes 8 Config.serial.toNat ++ nonce ++ leBytes 8 s.now ++ leBytes 4 s.bat.rtcSec ++ leBytes 4 s.en.cfgGen ++
    leBytes 2 s.fw.keyGen ++ leBytes 2 s.en.tampers ++ ((List.range 6).flatMap fun i => leBytes 8 (k.reg.get 0 i)) ++
    leBytes 4 k.mdImp ++ leBytes 4 k.mdImpRtc ++ leBytes 4 k.mdExp ++ leBytes 4 k.mdExpRtc ++ leBytes 2 k.resets ++
    leBytes 2 s.en.outages ++ leBytes 4 (satN 32 (k.gap / ms 1))

/-- A public key as a parameter of 68 bytes; 0 where there is no key (R570, R620). -/
def pubKeyParam (k : Option Nat) : Bytes :=
  match k with
  | some x => [4] ++ publicKey x ++ [0, 0, 0]
  | none => List.replicate 68 0

/-- The RO values of pages 0x15 and 0x16 (R570, R571). -/
def State.enValue (s : State) (id n : Nat) : Bytes :=
  let x := s.enPort n
  let k := x.kept
  match id with
  | 0x1502 => (List.range 6).flatMap fun i => leBytes 8 (k.reg.get 0 i)
  | 0x1503 => leBytes 4 k.mdImp ++ leBytes 4 k.mdImpRtc ++ leBytes 4 k.mdExp ++ leBytes 4 k.mdExpRtc ++ leBytes 4 k.lastImp ++
      leBytes 4 k.lastExp
  | 0x1504 => leBytesI 4 (x.p.tdiv 1000000) ++ leBytesI 4 (x.q.tdiv 1000000) ++ leBytesI 2 x.limImp ++ leBytesI 2 x.limExp ++
      leBytes 1 (b2n x.over_.isSome + 2 * b2n x.sched) ++ [0, 0, 0]
  | 0x1507 => leBytes 4 s.en.cfgGen ++ leBytes 2 s.fw.keyGen ++
      leBytes 1 (match s.fw.keyState with
        | .ready => 0
        | .new => 1
        | .absent => 2) ++ [0] ++ leBytes 2 s.en.outages ++ leBytes 2 s.en.tampers ++ [0, 0, 0, 0]
  | 0x1508 => pubKeyParam s.fw.signKey
  | 0x1601 => leBytes 4 s.bat.rtcSec ++ leBytes 2 s.rtcSub ++ leBytes 1 (b2n s.bat.rtcSet) ++ [0]
  | 0x1602 => s.bat.cal
  | 0x1603 => s.bat.tamp n
  | 0x1604 => s.tampState
  | 0x1605 => match s.bat.copied[n]? with
    | some e => e.bytes
    | none => List.replicate 16 0
  | _ => []

/-! ### RTC_SET (R565, R571) -/

/-- The waiting RTC_SET takes effect (log 95). -/
def State.rtcLoad (s : State) (r : RtcPending) : State :=
  let old := s.bat.rtcSec
  let s1 := s.updBat fun b => { b with rtcSec := r.sec, secAt := s.mono, rtcSet := true, rtcPending := none }
  let s2 := (s1.tampLog 0x21 false old).enPartial
  let s3 := s2.updEn fun e => { e with from_ := r.sec / 900 * 900 }
  if (s3.box r.mb).waiting = .rtcSet then s3.replyOk r.mb (leBytes 4 r.sec) else s3

/-- A whole second of PTP time comes (R565). -/
def State.rtcPtp (s : State) : State :=
  match s.bat.rtcPending with
  | some r => if r.ptp then s.rtcLoad r else s
  | none => s

end Sys2Proof.Machine
end

