-- ==== Sys2Proof/Machine/FirmOps.lean ====
section
/-!
DEFINITION. Images, signatures, the loft, endpoint images, tokens and the life-cycle: shared operations (R599 to R618).
-/

namespace Sys2Proof.Machine

/-! ### Items (R601 to R604) -/

/-- A reader of an item's bytes: n bytes from an offset. -/
abbrev ItemBytes := Nat → Nat → Bytes

/-- A 32-bit field of an item's header. -/
def hdr (rd : ItemBytes) (off n : Nat) : Nat := leNat (rd off n)

/-- KIND of an item. -/
def itemKind (rd : ItemBytes) : Nat := hdr rd 4 1

/-- VERSION of an item, an unsigned 24-bit value. -/
def itemVersion (rd : ItemBytes) : Nat := hdr rd 8 3

/-- PAIR_MIN of an item. -/
def itemPairMin (rd : ItemBytes) : Nat := hdr rd 12 4

/-- BODY_LEN of an item. -/
def itemBodyLen (rd : ItemBytes) : Nat := hdr rd 16 4

/-- ID_STEP: B1 in ASCII (R54, R601). -/
def stepAscii : Nat := 0x4231

/-- The key an item's signature is verified under: the vendor's, where its hash is the fused one, or the owner's (R602). -/
def State.itemKey (s : State) (rd : ItemBytes) : Option Bytes :=
  if hdr rd 5 1 = 0 then
    let k := rd 64 64
    if sha256 k = Config.vendorHash.toNat then some k else none
  else s.fw.ownerKey

/-- Whether a signer may sign a kind (R602). -/
def signerOk (kind signer : Nat) : Bool :=
  match kind with
  | 1 => signer == 0
  | 2 => decide (signer ≤ 1)
  | _ => signer == 1

/-- Whether an item is not sound for a kind within a number of bytes: status and reason of the first failing check (R602, R604). -/
def State.itemFault (s : State) (rd : ItemBytes) (kinds : List Nat) (room : Nat) : Option (Nat × Nat) :=
  let kind := itemKind rd
  if hdr rd 0 4 ≠ 0x4B505851 ∨ kinds.contains kind = false ∨ hdr rd 6 2 ≠ 0 ∨ hdr rd 11 1 ≠ 0 ∨ allZero (rd 26 6) = false ∨
      room < 192 + itemBodyLen rd then some (4, 0xF0)
  else if hdr rd 5 1 = 1 ∧ s.fw.ownerKey.isNone = true then some (3, 0xF7)
  else if signerOk kind (hdr rd 5 1) = false then some (4, 0xF1)
  else
    match s.itemKey rd with
    | none => some (4, 0xF1)
    | some k =>
      if ecdsaVerify k (sha256 (rd 0 128)) (rd 128 64) = false then some (4, 0xF1)
      else if sha256 (rd 192 (itemBodyLen rd)) ≠ leNat (rd 32 32).reverse then some (4, 0xF2)
      else if (kind ≠ 2 ∧ hdr rd 20 2 ≠ 0x0128) ∨ (hdr rd 22 2 ≠ 0 ∧ hdr rd 22 2 ≠ stepAscii) then some (4, 0xF3)
      else none

/-- An endpoint image's slot of the anti-rollback store (R603). -/
def Firm.rollback (f : Firm) (imageId : Nat) : Option Nat := (f.slots.find? fun x => x.1 == imageId).map (·.2)

/-- Whether an UBFER or ENDPOINT item is below its counter, or has no slot free (R603). -/
def Firm.tooOld (f : Firm) (rd : ItemBytes) : Bool :=
  if itemKind rd = 1 then decide (itemVersion rd < f.slot0)
  else
    match f.rollback (hdr rd 24 2) with
    | some v => decide (itemVersion rd < v)
    | none => decide (64 ≤ f.slots.length)

/-- An image region's reader. -/
def Image.rd (i : Image) : ItemBytes := fun off n => i.mem.readN off n

/-- Whether an Ubfer image passes the boot check: the delivered image does (R602, R603, log 4, log 99). -/
def State.bootable (s : State) (i : Image) : Bool :=
  i.factory || ((s.itemFault i.rd [1] 0x200000).isNone && !s.fw.tooOld i.rd)

/-- VERSION of an Ubfer image. -/
def Image.version (i : Image) : Nat := if i.factory then Config.fwVersion.toNat else itemVersion i.rd

/-- PAIR_MIN of an Ubfer image. -/
def Image.pairMin (i : Image) : Nat := if i.factory then Config.fwPairMin.toNat else itemPairMin i.rd

/-- LOFT_VERIFY's judgement: status and reason of a refusal (R602, R603, R605, log 99). -/
def State.loftFault (s : State) : Option (Nat × Nat) :=
  if s.fw.loft.factory then none
  else
    match s.itemFault s.fw.loft.rd [1] 0x200000 with
    | some r => some r
    | none => if s.fw.tooOld s.fw.loft.rd then some (3, 0xF4) else none

/-! ### The loft (R605 to R607) -/

/-- The code of LOFT_STATE (R605). -/
def LoftState.code : LoftState → Nat
  | .empty => 0
  | .written => 1
  | .verified => 2
  | .scheduled => 3
  | .previous => 4

/-- Writes bytes into the loft: WRITTEN, any schedule cancelled (R605). -/
def State.loftPut (s : State) (off : Nat) (d : Bytes) : State :=
  s.updFw fun f =>
    { f with loft := { mem := f.loft.mem.writeN off d }, loftSt := .written, activateAt := 0 }

/-- Cancels a schedule (R606). -/
def Firm.unschedule (f : Firm) : Firm :=
  if f.loftSt = .scheduled then { f with loftSt := .verified, activateAt := 0 } else f

/-- The loft and active regions are exchanged (R607). -/
def Firm.exchange (f : Firm) : Firm := { f with active := f.loft, loft := f.active, loftSt := .previous, activateAt := 0 }

/-- FW_ACTIVATED, in the attic and as a notification (R607, R621). -/
def State.fwActivated (s : State) (result : Nat) : State :=
  let a := leBytes 1 result ++ [0, 0, 0] ++ leBytes 4 s.fw.active.version
  (((s.updFw fun f => { f with result }).note 0x0A 0x1801 a).attic 5 0 0x1801 a)

/-- What a chip reset does to the loft and the plan of the next boot (R606, R607, R622, log 100). -/
def Firm.atReset (f : Firm) : Firm :=
  match f.boot with
  | .exchange _ => { f with sending := none }
  | _ => { f.unschedule with sending := none }

/-- The boot ROM's work on the loft and the active region (R607, log 99). -/
def State.bootLoft (s : State) : State :=
  match s.fw.boot with
  | .exchange t =>
    if s.bootable s.fw.loft then s.updFw fun f => { f.exchange with boot := .confirm t }
    else s.updFw fun f => { f.unschedule with boot := .none, report := some 3 }
  | .revert => s.updFw fun f => { f.exchange with boot := .none, report := some 2 }
  | _ => s

/-! ### Endpoint images (R610) -/

/-- Stores a checked item in a slot, and raises its anti-rollback counter (R603, R610). -/
def State.epStore (s : State) (slot : Nat) (d : Bytes) : State :=
  let rd : ItemBytes := fun off n => slice d off n
  let id := hdr rd 24 2
  let v := itemVersion rd
  s.updFw fun f =>
    { f with
      slot := f.slot.set slot { valid := true, image := { mem := Memory.writeN [] 0 d }, imageId := id, target := hdr rd 20 2 % 256,
                                version := hdr rd 8 4, length := d.length },
      slots := if (f.rollback id).isSome then f.slots.map fun x => if x.1 = id then (id, v) else x else f.slots ++ [(id, v)] }

/-- The lanes EP_IMAGE_SEND serves (R610). -/
def State.imageLanes (s : State) (slot first count : Nat) : List Nat :=
  ((List.range count).map (first + ·)).filter fun l =>
    eEnabled (s.entry l) && eType (s.entry l) == (s.fw.slot.get {} slot).target

/-- The chunks of an item. -/
def EpSlot.chunks (e : EpSlot) : Nat := (e.length + 7) / 8

/-- Queues the next chunk of a send, moves on to the next lane, or ends the send; the fuel bounds the lanes passed (R166, R610). -/
def State.imageNext (s : State) : Nat → State
  | 0 => s
  | k + 1 =>
    match s.fw.sending with
    | none => s
    | some x =>
      match x.lanes with
      | [] => (s.updFw fun f => { f with sending := none }).replyOk x.mb (leBytes 1 x.done ++ [0, 0, 0])
      | l :: r =>
        let e := s.fw.slot.get {} x.slot
        if (s.lane l).st.working = false then (s.updFw fun f => { f with sending := some { x with lanes := r, next := 0 } }).imageNext k
        else if e.chunks ≤ x.next then
          (s.updFw fun f => { f with sending := some { x with lanes := r, next := 0, done := x.done + 1 } }).imageNext k
        else
          (s.queueBlock l 0x09 (pf 80 e.imageId + pf 64 x.next + leNat (e.image.mem.readN (8 * x.next) 8).reverse)).updFw fun f =>
            { f with sending := some { x with next := x.next + 1 } }

/-- A slot of a lane has gone: the next chunk follows once the lane's queue holds none (R610). -/
def State.imageSent (s : State) (lane : Nat) : State :=
  match s.fw.sending with
  | some x =>
    if x.lanes.head? = some lane ∧ ((s.lnk lane).queue.any fun b => b.type == 0x09) = false then s.imageNext 200 else s
  | none => s

/-- The lane a send is serving has lost its link: the send goes on with the next lane (R610). -/
def State.imageLost (s : State) (lane : Nat) : State :=
  match s.fw.sending with
  | some x => if x.lanes.head? = some lane then s.imageNext 200 else s
  | none => s

/-- Ends a send before its end: LANES counts the lanes completed (R622). -/
def State.imageEnd (s : State) : State :=
  match s.fw.sending with
  | some x => (s.updFw fun f => { f with sending := none }).replyOk x.mb (leBytes 1 x.done ++ [0, 0, 0])
  | none => s

/-! ### Tokens and the life-cycle (R616 to R618) -/

/-- The code of a life-cycle state (R617). -/
def LcState.code : LcState → Nat
  | .factory => 0
  | .provisioned => 1
  | .field => 2
  | .returned => 3

/-- The life-cycle state of a code. -/
def lcOf : Nat → Option LcState
  | 0 => some .factory
  | 1 => some .provisioned
  | 2 => some .field
  | 3 => some .returned
  | _ => none

/-- Whether a token verifies: a signature over ID_SERIAL, FW_CHALLENGE, the opcode and further fields of 2 bytes (R616, R648). -/
def State.tokenOk (s : State) (key : Option Bytes) (op : Nat) (fields : List Nat) (token : Bytes) : Bool :=
  match key with
  | none => false
  | some k =>
    ecdsaVerify k
      (sha256 (leBytes 8 Config.serial.toNat ++ leBytes 8 s.fw.challenge ++ leBytes 2 op ++ fields.flatMap fun x => leBytes 2 x))
      token

/-- FW_CHALLENGE takes a fresh random value (R616). -/
def State.freshChallenge (s : State) : State := (s.updFw fun f => { f with challenge := s.freeVal }).tookFree

/-- The vendor key kept from the active image: its PUBKEY (R602). -/
def State.vendorKey (s : State) : Option Bytes := if s.fw.active.factory then some (leBytes 64 Config.vendorKey.toNat) else some (s.fw.active.rd 64 64)

/-- What the end of an opening does to the cores and the port: the cores resume, breakpoints and watchpoints go, a private instruction
selects the bypass register (R642, R649). -/
def Sys.shut (y : Sys) : Sys :=
  { y with opening := none, core0 := { y.core0 with halted := false }, core1 := { y.core1 with halted := false }, breaks := [],
           jtag := if y.jtag = .privateDebug then .bypass else y.jtag }

/-- An end of a debug opening by token (R644, R649). -/
def State.dbgClose (s : State) : State :=
  match s.sys.opening with
  | some o => (s.updSys Sys.shut).note 0x0A 0x1A02 (leBytes 1 o.1)
  | none => s

/-- The parts of page 0x18 (R620). -/
def State.firmValue (s : State) (id n : Nat) : Bytes :=
  let f := s.fw
  match id with
  | 0x1801 => leBytes 1 f.lc.code ++ leBytes 1 (b2n f.locked) ++ leBytes 1 f.loftSt.code ++ leBytes 1 f.result ++
      leBytes 4 f.loft.version ++ leBytes 8 f.activateAt ++ [0, 0, 0, 0]
  | 0x1802 => leBytes 8 f.challenge
  | 0x1803 =>
    if n = 0 then [0, 0, 0, 0] ++ leBytes 4 f.slot0
    else
      match f.slots[n - 1]? with
      | some x => leBytes 2 x.1 ++ [0, 0] ++ leBytes 4 x.2
      | none => List.replicate 8 0
  | 0x1805 =>
    let e := f.slot.get {} n
    leBytes 2 e.imageId ++ leBytes 1 e.target ++ leBytes 1 (b2n e.valid) ++ leBytes 4 e.version ++ leBytes 4 e.length
  | 0x1806 => pubKeyParam f.kaKey
  | 0x1807 => leBytes 4 s.faults.atticSeq ++ leBytes 4 s.faults.attic.length
  | _ => []

end Sys2Proof.Machine
end

