-- ==== Sys2Proof/Machine/TimeOps.lean ====
section
/-!
DEFINITION. The time unit: its source, its lock, its rate, a step of tick time, the ring time messages and PTP time
(R187 to R201, R214, R221, R223, R672).
-/

namespace Sys2Proof.Machine

/-! ### Rates and states -/

/-- Keeps the latest spans of a rate history whose durations add up to at most n ticks (R194). -/
def rateTrim : Nat → List (Nat × Int) → List (Nat × Int)
  | _, [] => []
  | n, (d, r) :: l => if n = 0 then [] else if n ≤ d then [(n, r)] else (d, r) :: rateTrim (n - d) l

/-- The rate history with the present rate's span, which counts in LOCKED and MASTER alone (R194). -/
def State.rateSpans (s : State) : List (Nat × Int) :=
  let t := s.time
  if t.state = .locked ∨ t.state = .master then rateTrim (ms 1000) ((s.mono - t.rateSince, t.rate) :: t.rateHist) else t.rateHist

/-- The held rate: the mean over the latest 1.0 s in LOCKED or MASTER, or over the whole of it (R194). -/
def State.heldRate (s : State) : Int :=
  let l := s.rateSpans
  let d := l.foldl (fun (n : Nat) x => n + x.1) 0
  if d = 0 then s.time.rate else l.foldl (fun (n : Int) x => n + (x.1 : Int) * x.2) 0 / (d : Int)

/-- Sets TIME_STATE and TIME_RATE; the span of the rate that ends is kept (R191, R194). -/
def State.setTime (s : State) (st : TimeState) (rate : Int) : State :=
  let h := s.rateSpans
  s.updTime fun t => { t with state := st, rate := clampI (-200000) 200000 rate, rateHist := h, rateSince := s.mono }

/-- GSTAT.TIME_LOCKED (R193). -/
def State.timeLocked (s : State) : Bool :=
  decide (s.time.state = .locked) || (decide (s.time.state = .master) && s.time.named)

/-! ### Sources (R192, R197) -/

/-- Whether a ring neighbour has delivered a valid message within 30 µs (R197). -/
def State.nbrFresh (s : State) (n : TimeNeighbour) : Bool := n.hops.isSome && decide (s.mono < n.at_ + us 30)

/-- The ring neighbour to follow: the present one while it delivers, else the one with fewer HOPS, RING_W where equal (R197, log 45). -/
def State.pickFollow (s : State) : TimeSource :=
  let t := s.time
  let e := s.nbrFresh t.east
  let w := s.nbrFresh t.west
  if s.ring.follow = .ringE ∧ e = true then .ringE
  else if s.ring.follow = .ringW ∧ w = true then .ringW
  else if e && (!w || decide (t.east.hops.getD 0 < t.west.hops.getD 0)) then .ringE
  else if w then .ringW
  else .none

/-- The source of R192 for the present role. -/
def State.pickSource (s : State) : TimeSource :=
  let ring := if s.ringEn then s.ring.follow else .none
  match s.twin.role with
  | .none => .none
  | .standby =>
    if (s.lane 130).st = .linked then .twinA else if (s.lane 131).st = .linked then .twinB else ring
  | .active => if s.isMaster then .none else ring
  | .referee => ring
  | .ringMember => ring
  | .maint => .none

/-- Loss of the time source: HOLDOVER at the held rate, with TIME_MASTER_LOSS (R198). -/
def State.masterLoss (s : State) : State :=
  ((s.updTime fun t => { t with within := 0, beyond := 0 }).setTime .holdover s.heldRate).condOn 0x20 noInst 0
    (leBytes 1 s.time.masterHead ++ leBytes 2 s.time.gen)

/-- A source is followed: LOCKING, its silence counted from now on (R191, R193, R198). -/
def State.timeFollow (s : State) : State :=
  (s.updTime fun t => { t with lastMsg := s.mono, within := 0, beyond := 0, held := true }).setTime .locking s.time.rate

/-- A valid message of the unit's source has come; it ends HOLDOVER (R198). -/
def State.sourceHeard (s : State) : State :=
  let s1 := s.updTime fun t => { t with lastMsg := s.mono }
  if s.time.state = .holdover then (s1.condOffInst 0x20 noInst).timeFollow else s1

/-- Chooses the source afresh, and the state that goes with it: MASTER for the master, LOCKING for a newly found source; a former master
without a source is in HOLDOVER where it has held one since reset, else FREE (R191, R192, R198, R200, log 132). -/
def State.timeRefresh (s : State) : State :=
  let s1 := s.updRing fun r => { r with follow := s.pickFollow }
  let src := s1.pickSource
  let s2 := s1.updTime fun t =>
    { t with source := src, within := if src = t.source then t.within else 0, beyond := if src = t.source then t.beyond else 0 }
  if s2.isMaster then
    if s2.time.state = .master then s2
    else (s2.condOffInst 0x20 noInst).setTime .master s2.time.rate
  else if s2.time.state = .master then
    if src ≠ .none then s2.timeFollow else if s2.time.held then s2.masterLoss else s2.setTime .free s2.time.rate
  else if s2.time.state = .free ∧ src ≠ .none then s2.timeFollow
  else s2

/-- Takes a newer claim to the mastership: the neighbours are judged afresh, and HOLDOVER ends (R197, R198). The source is chosen when the
claim has been taken (State.timeRefresh). -/
def State.timeClaim (s : State) (gen head : Nat) : State :=
  let s1 := (s.updTime fun t =>
    { t with gen, masterHead := head, east := {}, west := {},
             named := t.named || (decide (s.headId = head) && decide (s.twin.role = .active)) }).updRing fun r =>
      { r with follow := .none }
  s1.sourceHeard

/-- A claim to the mastership that comes without a time message: taken, and the source chosen at once (R197, R227). -/
def State.timeAdopt (s : State) (gen head : Nat) : State := (s.timeClaim gen head).timeRefresh

/-! ### Steps of tick time (R195, R672) -/

/-- PTP time in ticks: PTP_OFFSET plus tick time (R214). -/
def State.ptpOffset (s : State) : Nat :=
  let v := s.peff 0x060D noInst
  uAt v 0 6 * 8000000000 + uAt v 6 4 * 8 + uAt v 10 1

/-- PTP time at a tick time, in ticks, the seconds taken modulo 2^48. -/
def State.ptpTime (s : State) (tick : Nat) : Nat := (s.ptpOffset + tick) % (2 ^ 48 * 8000000000)

/-- PTP_OFFSET as its bytes, of a number of ticks. -/
def ptpBytes (t : Int) : Bytes :=
  let n := (t % ((2 ^ 48 * 8000000000 : Nat) : Int)).toNat
  leBytes 6 (n / 8000000000) ++ leBytes 4 (n % 8000000000 / 8) ++ leBytes 1 (n % 8) ++ [0]

/-- Takes the present second of PTP time as pulsed, so that a step gives no extra pulse (R223). -/
def State.ppsSync (s : State) : State := s.updTime fun t => { t with ppsLast := some (s.ptpTime s.now / 8000000000) }

/-- The actions of a lane of a stopped string after a step: unsent ones discarded and issued afresh on the new scale (R195). -/
def State.stepLane (s : State) (old lane : Nat) : State :=
  let acts := ((s.ml lane).shelf ++ (s.ml lane).wait).filter fun x => x.act.isSome && !x.sent
  let s1 := s.withdraw lane fun _ => true
  acts.foldl (fun s x =>
    match x.act with
    | some a => s.sendAct lane a ((s.now : Int) + max 0 (x.time - old))
    | none => s) s1

/-- A tick time at which a port's launch or transmission stands after a step: what has come by the old time moves with the scale, a
launch a forward step passes over is made at the step (R672). -/
def stepPoint (old new t : Nat) : Nat := if t ≤ old then t + new - old else max t new

/-- A station port's points after a step of tick time (R672). -/
def StaPort.step (p : StaPort) (old new : Nat) : StaPort :=
  { p with busyUntil := if p.busyUntil = 0 then 0 else p.busyUntil + new - old,
           queue := p.queue.map fun x => { x with at_ := stepPoint old new x.at_ },
           ptpWait := p.ptpWait.map fun x => { x with at_ := x.at_ + new - old } }

/-- Steps tick time to a value: unsent actions are issued afresh, the period clocks of strings that do not run start from the new time,
the station ports go on, every lane owes a SYNC, TIME_STEPPED is raised (R195, R204, R260, R672, log 48, log 49). -/
def State.timeStep (s0 : State) (new : Nat) : State :=
  let old := s0.now
  let s := s0.updSta fun t => (t.mod {} 0 fun p => p.step old new).mod {} 1 fun p => p.step old new
  let s1 := s.updTime fun t => { t with tick := new % 2 ^ 64, frac := 0, genStep := true, stepNo := t.stepNo + 1 }
  let s2 := (List.range 128).foldl (fun s l => if (s.ml l).shelf.isEmpty && (s.ml l).wait.isEmpty then s else s.stepLane old l) s1
  let s3 := (List.range 16).foldl (fun s n =>
    if s.strRuns n then s else s.modStr n fun y => { y with next := s.now + y.period }) s2
  let s4 := (List.range 128).foldl (fun s l =>
    if (s.lane l).st.trained then s.modDly l fun d => { d with syncOwed := true } else s) s3
  (s4.ppsSync.note 0x08 0x0601 (leBytesI 8 ((new : Int) - old))).later (.timeStepped old)

/-- Whether a string of the unit runs (R195, log 48). -/
def State.anyRuns (s : State) : Bool := (List.range 16).any s.strRuns

/-- Takes an offset to the source, in 1/16 tick: the lock, a step where every string is stopped, else a slew within the bounds of R194,
whose exact value is free (R193 to R195, log 2, log 47). -/
def State.takeOffset (s : State) (c : Int) : State :=
  let lim : Int := s.p0 0x0606
  let a : Int := c.natAbs
  let s1 := s.updTime fun t =>
    { t with offset := satI 32 c, within := if a ≤ lim then t.within + 1 else 0, beyond := if 2 * lim < a then t.beyond + 1 else 0,
             lastMsg := s.mono }
  let large := decide (16 * (s.p0 0x0605 : Int) < a)
  let s2 := s1.cond (large && s.anyRuns) 0x21 noInst 0 (leBytesI 8 (c / 16))
  if large && !s.anyRuns then
    ((s2.timeStep ((s.now : Int) + c / 16).toNat).updTime fun t => { t with within := 0, beyond := 0 }).setTime .locking s2.time.rate
  else
    let held := s2.heldRate
    let mag := s2.freeVal % (s.p0 0x0604 + 1)
    let rate := held + Int.sign c * mag
    let st : TimeState :=
      if 8 ≤ s2.time.within then .locked
      else if s2.time.state = .locked ∧ s2.time.beyond < 2 then .locked
      else .locking
    s2.tookFree.setTime st rate

/-! ### Ring time messages (R196, R197, R407) -/

/-- Sends RING_TIME and a SYNC of the same SYNC_ID on a ring lane that is LINKED (R196, R407). -/
def State.sendRingTime (s : State) (lane hops : Nat) : State :=
  if (s.lane lane).st = .linked then
    let id := s.ring.syncId
    ((s.queueBlock lane 0x40 (s.ringHdr allNodes + pf 81 hops + pf 48 s.time.gen + pf 45 s.time.masterHead + pf 37 id)).queueBlock
      lane tyTime (pf 88 1 + pf 80 id)).updRing fun r => { r with syncId := (r.syncId + 1) % 256 }
  else s

/-- Notes a neighbour's valid time message (R197). -/
def State.nbrNote (s : State) (lane hops : Nat) : State :=
  let n : TimeNeighbour := { hops := some hops, at_ := s.mono }
  s.updTime fun t => if lane = 128 then { t with east := n } else { t with west := n }

/-- The source a ring lane stands for. -/
def ringSource (lane : Nat) : TimeSource := if lane = 128 then .ringE else .ringW

/-- A ring time message of the current generation and master, taken from a neighbour: noted, followed where it is the neighbour's turn,
and forwarded (R197, R198, R407, log 45). -/
def State.ringTimeValid (s : State) (lane hops id : Nat) : State :=
  let s1 := (s.nbrNote lane hops).timeRefresh
  if s1.isMaster then s1
  else if s1.ring.follow ≠ ringSource lane then s1
  else
    let s2 := s1.updRing fun r => { r with awaited := r.awaited.set lane id }
    let s3 := if s2.time.source = ringSource lane then (s2.updTime fun t => { t with hops }).sourceHeard else s2
    if s3.time.state = .holdover then s3 else s3.sendRingTime (otherRing lane) (hops + 1)

/-- A RING_TIME judged by TIME_GEN, MASTER_HEAD and HOPS (R197). -/
def State.ringTime (s : State) (lane hops gen head id : Nat) : State :=
  if 16 < hops then s
  else
    let d := sdiff 16 gen s.time.gen
    if d < 0 then s
    else if 0 < d then (s.timeClaim gen head).ringTimeValid lane hops id
    else if head < s.time.masterHead then (s.timeClaim gen head).ringTimeValid lane hops id
    else if s.time.masterHead < head then s
    else s.ringTimeValid lane hops id

/-! ### The master choice (R227) -/

/-- A RING_MASTER block to every node or to one (R406). -/
def State.masterSend (s : State) (kind dst gen head claimant : Nat) : State :=
  s.ringSend 0x44 dst (pf 60 kind + pf 44 gen + pf 41 head + pf 36 claimant)

/-- Ends this unit's claim without effect: each request for it is answered (R227). -/
def State.masterDrop (s : State) (c : MasterClaim) (status reason : Nat) : State :=
  c.mbs.foldl (fun s mb => s.refuse mb status reason) (s.updTime fun t => { t with claim := none })

/-- Commits a TIME_MASTER_SET: the claim is adopted and the reply written. A claim of its generation for a lower head that has been
adopted meanwhile stands, and a newer generation differs from the one expected (R227, log 50). -/
def State.masterCommit (s : State) : State :=
  match s.time.claim with
  | none => s
  | some c =>
    let d := sdiff 16 s.time.gen c.gen
    if 0 < d then s.masterDrop c stRefused 0x39
    else if d = 0 ∧ s.time.masterHead < c.head then s.masterDrop c stRefused 0x38
    else
      c.mbs.foldl (fun s mb => s.replyOk mb (leBytes 2 c.gen)) ((s.updTime fun t => { t with claim := none }).timeAdopt c.gen c.head)

/-- A role change before the point of commitment ends a claim with STALE_EPOCH and no effect (R71, R227). -/
def State.masterRole (s : State) : State :=
  match s.time.claim with
  | none => s
  | some c => s.masterDrop c stStale 0

/-- A CLAIM received: adopted and acknowledged, unless this unit's own claim of the generation names a lower head (R227, log 50). -/
def State.masterClaimed (s : State) (gen head claimant : Nat) : State :=
  match s.time.claim with
  | some c =>
    if c.gen = gen ∧ c.head < head then s
    else if c.gen = gen ∧ head < c.head then
      ((s.masterDrop c stRefused 0x38).timeAdopt gen head).masterSend 2 claimant gen head claimant
    else s.masterSend 2 claimant gen head claimant
  | none =>
    let d := sdiff 16 gen s.time.gen
    let s1 := if 0 < d ∨ (d = 0 ∧ head < s.time.masterHead) then s.timeAdopt gen head else s
    if s.twin.role = .active ∧ 0 ≤ d then s1.masterSend 2 claimant gen head claimant else s1

/-- An ACK received for this unit's claim (R227, log 50). -/
def State.masterAcked (s : State) (gen head src claimant : Nat) : State :=
  match s.time.claim with
  | some c =>
    if c.gen = gen ∧ c.head = head ∧ claimant = s.node then
      let left := c.waitFor.filter (· != src / 2)
      let s1 := s.updTime fun t => { t with claim := some { c with waitFor := left } }
      if left.isEmpty then s1.masterCommit else s1
    else s
  | none => s

/-! ### Captures (R220, R221) -/

/-- Stores a capture of a tick time, or counts an overrun (R220, R221). -/
def State.tcap (s : State) (tick : Nat) (pin : Bool) : State :=
  if s.time.capValid then s.updTime fun t => { t with capOverrun := true }
  else
    let p := s.ptpTime tick
    s.updTime fun t =>
      { t with capValid := true, capPin := pin, capSeq := (t.capSeq + 1) % 2 ^ 16, capTick := tick % 2 ^ 64,
               capSec := p / 8000000000, capNs := p % 8000000000 / 8, capSub := p % 8 }

/-- Writes TCAP_CTRL's fields (R220). -/
def State.tcapCtrl (s : State) (w : Nat) : State :=
  let on := bit w 1
  let s1 := if on && !s.time.ppsEn then s.ppsSync else s
  s1.updTime fun t => { t with capEdge := bits w 5 4, ppsEn := on }

end Sys2Proof.Machine
end

