-- ==== Sys2Proof/Machine/TwinOps.lean ====
section
/-!
DEFINITION. The twin: roles and epochs, qualification, comparison, take-over and cases (R366 to R392).
-/

namespace Sys2Proof.Machine

/-! ### Roles and lanes -/

/-- The role of a code (R55). -/
def roleOf (n : Nat) : Option Role :=
  match n with
  | 0 => some .none
  | 1 => some .active
  | 2 => some .standby
  | 3 => some .referee
  | 4 => some .ringMember
  | 5 => some .maint
  | _ => none

/-- Halts every cell lane that is not OFF (R369, R381, R383). -/
def State.haltCells (s : State) : State :=
  (List.range 128).foldl (fun s l =>
    if (s.lane l).st = .off ∨ (s.lane l).st = .halted then s else s.setLane l .halted) s

/-- Starts attempts on the cell lanes that are HALTED (R112, R369). -/
def State.freshCells (s : State) : State :=
  (List.range 128).foldl (fun s l => if (s.lane l).st = .halted then s.freshAttempt l else s) s

/-- Sends TW_ROLE (R371). -/
def State.twRole (s : State) : State :=
  (s.twinSend 0x30 (pf 80 s.twin.epoch + pf 72 s.roleCode + pf 71 s.unit + pf 70 (b2n s.twin.qualified) + pf 32 s.roll.gen +
    s.le.gen)).updTwin fun t => { t with roleOwed := false }

/-- Takes a role at an epoch: the paths of R393 follow within the step (R55, R368, R394). -/
def State.setRole (s : State) (r : Role) (epoch : Nat) : State :=
  (s.updTwin fun t =>
    { t with role := r, epoch := epoch % 2 ^ 16, roleAt := s.shortNow, roleMono := s.mono, healthOwed := true,
             qualified := t.qualified && decide (r = .standby) }).later .roleChanged

/-- The next epoch (R368). -/
def State.nextEpoch (s : State) : Nat := (s.twin.epoch + 1) % 2 ^ 16

/-- Whether a unit is one of a pair: TWIN_EN and a role of one (R366). -/
def State.inPair (s : State) : Bool := s.twinEn && (decide (s.twin.role = .active) || decide (s.twin.role = .standby))

/-! ### The loss of the link (R371, R385) -/

/-- TWIN_LINK_LOST while the twin link is down or the comparison records stay away with the peer alive (R385, R400). -/
def State.twinLinkWatch (s : State) : State :=
  s.cond (s.inPair && s.twin.paired && s.twin.peerAlive && (!s.twinLinkUp || s.twin.streamLost || decide (2 ≤ s.twin.missed)))
    0x47 noInst 0 []

/-! ### Cases (R388 to R391) -/

/-- Sends TW_CASE with a code and a verdict for the open case (R371). -/
def State.twCase (s : State) (code verdict j : Nat) : State :=
  s.twinSend 0x38 (pf 80 s.twin.epoch + pf 64 (j % 2 ^ 16) + pf 56 code + pf 48 verdict)

/-- Ends an open case with a verdict and a rule, without acting on it (R391, R395). -/
def State.caseEnd (s : State) (verdict rule : Nat) : State :=
  let bits3 := if rule = 3 then (if verdict = 1 then 4 else if verdict = 2 then 8 else 0) else 0
  (s.updTwin fun t =>
    { t with caseOpen := false, arbReqLow := false, replayed := none, peerReplayed := none, evidOut := none, frozen := none,
             case := { t.case with verdict, rule, verdictAt := s.shortNow, replay := t.case.replay + bits3 } }).updTwin fun t =>
      { t with healthOwed := true }

/-- A case ended by an event that meets it: CANCELLED (R395, R400). -/
def State.caseCancel (s : State) : State :=
  if s.twin.caseOpen then
    let s1 := if s.refMode = 1 then s.ringSend 0x46 16 (pf 60 5 + pf 48 (s.twin.case.j % 4096) + pf 40 s.headId) else s
    (s1.twCase 3 4 s.twin.case.j).caseEnd 4 s.twin.case.rule
  else s

/-! ### Take-over (R382, R383, R386) -/

/-- Takes MAINT at an epoch with the cell lanes halted (R383, R386, R391). -/
def State.toMaint (s : State) (epoch : Nat) : State := (s.setRole .maint epoch).haltCells

/-- Becomes ACTIVE at an epoch: lanes a standby held halted start, the ride step restarts from its entry (R360, R382, R387). -/
def State.toActive (s : State) (epoch : Nat) : State :=
  let s1 := s.setRole .active epoch
  let s2 := if s.twin.role = .standby ∧ s.twin.qualified = true then s1
    else if s.twin.role = .standby ∨ s.twin.role = .maint then s1.freshCells else s1
  (s2.updTwin fun t => { t with qualifying := none, missed := 0, switch := none }).timeRefresh.rideRestart

/-- A take-over: ACTIVE at E + 1, TWIN_TAKEOVER, an open case CANCELLED (R382, R400). -/
def State.takeOver (s : State) : State :=
  let e := s.nextEpoch
  ((s.caseCancel.toActive e).bump 0x0D05 noInst 7).fire 0x45 noInst (leBytes 2 e)

/-- The active gives up its role: TW_SURRENDER, cell lanes halted, MAINT at E + 1 (R383). -/
def State.surrender (s : State) : State :=
  if s.twin.role = .active then
    let s1 := s.caseCancel
    (s1.twinSend 0x39 (pf 80 s.twin.epoch + pf 64 s.twin.failed)).toMaint s.nextEpoch
  else s

/-- The other unit is ACTIVE at a newer epoch: MAINT at that epoch, with TWIN_SPLIT; the new active of a planned switch is expected (R386,
R387). -/
def State.splitSeen (s : State) (epoch : Nat) : State :=
  if s.twin.role = .active ∧ ¬(s.twin.handoverUntil.isSome = true ∧ epoch = s.nextEpoch) then (s.toMaint epoch).fire 0x48 noInst (leBytes 2 epoch) else s

/-- A verdict acts on an open case (R391): 1 KEEP_ACTIVE, 2 PROMOTE, 3 BOTH, on which the active raises TWIN_BOTH_SUSPECT. -/
def State.verdict (s : State) (v rule : Nat) : State :=
  if s.twin.caseOpen then
    let j := s.twin.case.j
    let e := s.nextEpoch
    let s1 := ((s.twCase 3 v j).caseEnd v rule).note 0x0A 0x0D03 (leBytes 1 v ++ leBytes 1 rule)
    let s2 := if v = 3 ∧ s.twin.role = .active then s1.fire 0x49 noInst (leBytes 4 j ++ leBytes 1 rule) else s1
    if v = 2 then
      if s.twin.role = .active then s2.toMaint e
      else if s.twin.role = .standby then ((s2.toActive e).bump 0x0D05 noInst 7).fire 0x45 noInst (leBytes 2 e)
      else s2
    else if s.twin.role = .active then s2.setRole .active e
    else if s.twin.role = .standby then s2.toMaint e
    else s2
  else s

/-- Opens a case on a period: evidence frozen, TWIN_DISAGREE, the referee asked (R388 to R390, log 75). -/
def State.caseOpen (s : State) (c : TwinCase) : State :=
  let s1 := (s.updTwin fun t =>
    { t with caseOpen := true, caseAt := s.mono, case := c, replayed := none, peerReplayed := none, healthOwed := true,
             frozen := t.evid.find? fun e => e.j == c.j, arbReqLow := decide (s.refMode = 2) }).bump 0x0D05 noInst 8
  let s2 := s1.note 0x0A 0x0D02 (leBytes 4 c.j)
  if s.refMode = 1 then
    let absent := !((s.rnode 16).present && (s.rnode 16).role == 3 && bit (s.rnode 16).refServe s.headId)
    let s3 := s2.cond absent 0x4A noInst 0 []
    if s.twin.role = .standby then s3.ringSend 0x46 16 (pf 60 1 + pf 48 (c.j % 4096) + pf 40 s.headId) else s3
  else s2

/-! ### Qualification (R369, R370, R376, R381) -/

/-- The active sends its whole configuration; the chunks stand for what the stepping lays out (R369, log 14). -/
def State.qualifyStart (s : State) : State :=
  (s.tookFree.twinSend 0x36 (pf 88 5 + s.freeVal)).updTwin fun t => { t with qualifying := some s.mono, peerQualified := false }

/-- The standby loses QUALIFIED: its cell lanes are held HALTED, a new qualification starts empty (R370). -/
def State.unqualify (s : State) : State :=
  if s.twin.role = .standby ∧ s.twin.qualified = true then
    ((s.updTwin fun t => { t with qualified := false, qualifyDone := false, healthOwed := true, roleOwed := true }).haltCells).twRole
  else s

/-- The active accepts a joining standby (R368, R369, R385, log 14). -/
def State.acceptJoin (s : State) (epoch : Nat) : State :=
  let e := if 0 < sdiff 16 epoch s.twin.epoch then epoch else s.nextEpoch
  ((((s.setRole .active e).updTwin fun t => { t with paired := true, standbyLost := false }).condOffInst 0x46 noInst).twRole).qualifyStart

/-! ### Digests and classification (R374 to R377) -/

/-- The digests of the period that ends at C_(j+1) (R374): what they cover is gathered from the state (log 14). -/
def State.formDigests (s : State) (j : Nat) (walked : Bool) : Digests :=
  let outs := s.le.loop.cells.map fun c => c.2.out
  let states := (s.le.loop.cells.map fun c => [(c.1 : Int), c.2.i, c.2.bq0.x1, c.2.bq0.x2, c.2.bq0.y1, c.2.bq0.y2, c.2.bq1.x1, c.2.bq1.x2,
    c.2.bq1.y1, c.2.bq1.y2, c.2.region]).flatten
  let legs := (s.mod.lane.cells.map fun c => (c.2.legs.cells.map fun g =>
    [(c.1 : Int), g.1, g.2.carry, g.2.prev] ++ (g.2.held.map fun t => [t.t, (b2n t.up : Int)]).flatten).flatten).flatten
  { j, inDig := (Config.dig 0 ((b2n walked : Int) :: (s.twin.walkSnap ++ s.twin.gatherIn))).toNat, outDig := (Config.dig 1 outs).toNat,
    edgeDig := (Config.dig 2 s.twin.gatherEdge).toNat, stateDig := (Config.dig 3 (states ++ legs)).toNat,
    cfgDig := (Config.dig 4 [(s.roll.gen : Int), s.le.gen, s.twin.fwdCount]).toNat % 2 ^ 16 }

/-- Gathers for IN_DIG what a string's boundary has captured: its dead times, order, bypass and release decisions (R374). -/
def State.gatherBoundary (s : State) (str : Nat) : State :=
  let mem := s.members str
  let dead := (mem.map fun l => (List.range 6).map fun g => ((s.dleg l g).cap : Int)).flatten
  let byp := mem.map fun l => (b2n (s.bypassed l) + 2 * b2n (s.byp l).relAt.isSome : Int)
  let order := (s.srt str).order.map fun m => (m.lane : Int)
  s.updTwin fun t => { t with gatherIn := t.gatherIn ++ [(str : Int), (s.str str).k] ++ dead ++ order ++ byp }

/-- Gathers for EDGE_DIG the entries a plan brings to the shelves (R374). -/
def State.gatherPlan (s : State) (str : Nat) : State :=
  match (s.str str).plan with
  | none => s
  | some p =>
    let e := (p.lanes.map fun q => (q.add.map fun x =>
      [(q.lane : Int), x.time] ++ x.marks.map fun m => ((m.leg + 8 * b2n m.up + 16 * b2n m.off : Nat) : Int)).flatten).flatten
    s.updTwin fun t => { t with gatherEdge := t.gatherEdge ++ e }

/-- The active sends TW_COMPARE_A and TW_COMPARE_B of a period (R375). -/
def State.compareSend (s : State) (d : Digests) : State :=
  (s.twinSend 0x31 (pf 80 s.twin.epoch + pf 64 (d.j % 2 ^ 16) + pf 32 d.inDig + d.outDig)).twinSend 0x32
    (pf 80 d.cfgDig + pf 64 (d.j % 2 ^ 16) + pf 32 d.edgeDig + d.stateDig)

/-- Closes a comparison period at a control boundary: the digests are formed and kept with the evidence for four periods, and sent by an active that has a
standby (R374, R375, R388). -/
def State.periodEnd (s : State) (j : Nat) (walked : Bool) : State :=
  let d := s.formDigests j walked
  let s1 := s.updTwin fun t =>
    { t with digests := (d :: t.digests).take 4, gatherIn := [], gatherEdge := [], walkLoops := s.le.loop, walkSnap := [],
             evid := ({ j, loops := t.walkLoops, snap := t.walkSnap, inputs := t.gatherIn } :: t.evid).take 4 }
  if s.hasStandby then s1.compareSend d else s1

/-- An input divergence: RESYNC is requested, and too many in one second are reported (R377). -/
def State.inputDiff (s : State) (j : Nat) : State :=
  let sec := s.now / 8000000000
  let n := if s.twin.divSecond = sec then s.twin.divergences + 1 else 1
  let raised := s.twin.divRaised && decide (s.twin.divSecond = sec)
  let go := decide (s.pu 0x0D02 noInst 4 2 < n) && !raised
  let s1 := (s.updTwin fun t =>
    { t with divergences := n, divSecond := sec, divRaised := raised || go, resync := true, resyncFrom := j, resyncIn := false,
             resyncItems := [], healthOwed := true }).twCase 2 0 j
  let s2 := (s1.bump 0x0D05 noInst 1).bump 0x0D05 noInst 4
  if go then s2.fire 0x41 noInst (leBytes 4 n) else s2

/-- Classifies a period from the unit's own digests and the active's records (R375 to R377, R388). -/
def State.classify (s : State) (d : Digests) (a : Nat × Nat × Nat) (b : Nat × Nat × Nat × Nat) : State :=
  let s0 := s.updTwin fun t => { t with rxA := none, rxB := none }
  if s.twin.resync || s.twin.caseOpen || !s.twin.qualified then s0
  else
    let outEq := a.2.2 == d.outDig
    let edgeEq := b.2.2.1 == d.edgeDig
    let stateEq := b.2.2.2 == d.stateDig
    let prevEq := s.twin.stateEqJ == some (d.j - 1) && decide (0 < d.j)
    let s1 := s0.updTwin fun t => { t with classJ := d.j, cfgEq := decide (b.1 = d.cfgDig), stateEqJ := if stateEq then some d.j else t.stateEqJ }
    if b.1 ≠ d.cfgDig then ((s1.bump 0x0D05 noInst 2).fire 0x40 noInst (leBytes 4 d.j)).unqualify
    else if a.2.1 ≠ d.inDig then s1.inputDiff d.j
    else if outEq && edgeEq && stateEq then s1.bump 0x0D05 noInst 0
    else if prevEq then
      (((s1.bump 0x0D05 noInst 3).twCase 1 0 d.j).caseOpen
        { j := d.j, t0 := s.shortNow, cls := b2n (!outEq) + 2 * b2n (!edgeEq) + 4 * b2n (!stateEq), outActive := a.2.2,
          outStandby := d.outDig, edgeActive := b.2.2.1, edgeStandby := d.edgeDig })
    else s1.inputDiff d.j

/-- Classifies the period whose two records and own digests are all in (R375). -/
def State.classifyReady (s : State) : State :=
  match s.twin.rxA, s.twin.rxB with
  | some a, some b =>
    if a.1 = b.2.1 then
      match s.twin.digests.find? fun d => d.j % 2 ^ 16 == a.1 with
      | some d => s.classify d a b
      | none => s
    else s
  | _, _ => s

/-! ### Resync (R377) -/

/-- The active sends its resync chunks; they stand for what the stepping lays out (R377, log 14). -/
def State.resyncSend (s : State) : State :=
  (s.tookFree.twinSend 0x36 (pf 88 4 + s.freeVal)).updTwin fun t => { t with resync := false, resyncIn := false, healthOwed := true }

/-- The biquad of four numbers. -/
def biquadOf (l : List Int) : Biquad := { x1 := l.getD 0 0, x2 := l.getD 1 0, y1 := l.getD 2 0, y2 := l.getD 3 0 }

/-- The bypass record of a lane as the active holds it (R369, R377). -/
def State.takeBypass (s : State) (lane : Nat) (c : Option Nat) : State :=
  match c with
  | some n => s.modByp lane fun b => if b.held.isSome then b else { b with held := some n, enterAt := some s.now }
  | none => s.modByp lane fun b => { b with held := none, enterAt := none }

/-- Loads one item of a resync or qualification into the standby's state (R369, R377). -/
def State.takeItem (s : State) (x : TwItem) : State :=
  match x with
  | .param id inst v => s.setParam id.toNat inst.toNat v
  | .roll true l e =>
    (s.updRoll fun r => { r with working := if allZero e then r.working.erase l else r.working.set l e }).laneTypeChanged l
      (eType (s.entry l)) (eType e)
  | .roll false l e => s.updRoll fun r => { r with shadow := if allZero e then r.shadow.erase l else r.shadow.set l e }
  | .gens g h n =>
    ((s.updRoll fun r => { r with gen := g.toNat }).updLe fun e => { e with gen := h.toNat }).updTwin fun t => { t with fwdCount := n.toNat }
  | .desc true n b => s.updLe fun e => { e with work := { e.work with desc := e.work.desc.set n b } }
  | .desc false n b => s.updLe fun e => { e with shadow := { e.shadow with desc := e.shadow.desc.set n b } }
  | .coef true n b => s.updLe fun e => { e with work := { e.work with coef := e.work.coef.set n b } }
  | .coef false n b => s.updLe fun e => { e with shadow := { e.shadow with coef := e.shadow.coef.set n b } }
  | .larder n v => s.updLe fun e => { e with larder := e.larder.set n v.toNat }
  | .tripMask str m =>
    if m.toNat = 0 then s
    else if (s.str str).st = .tripped then s.modPrt str fun p => { p with mask := m.toNat }
    else s.tripMask str m.toNat 0xFFFF
  | .bypass l c => s.takeBypass l (c.map (·.toNat))
  | .ride st reason =>
    match [RideSt.off, .grid, .dark, .dewWait, .precharge, .sync, .enable, .halted][st.toNat]? with
    | some r => s.rideMirror r reason.toNat
    | none => s
  | .loop n i bq region out =>
    s.updLe fun e => { e with loop := e.loop.mod {} n fun x =>
      { x with i, bq0 := biquadOf bq, bq1 := biquadOf (bq.drop 4), region, out } }
  | .deadTime l g v f bad =>
    let s1 := s.modDleg l g fun d => { d with dtw := v, copy := v, steps := [], copySteps := [], fallback := f, bad }
    if f && !(s.dleg l g).fallback then s1.condOn 0x2C l g (leBytes 1 g)
    else if !f && (s.dleg l g).fallback then s1.condOff 0x2C l g
    else s1
  | .carry l g c => s.modMl l fun m => { m with legs := m.legs.mod {} g fun x => { x with carry := c } }
  | .heldTrans l g h =>
    s.modMl l fun m => { m with legs := m.legs.mod {} g fun x => { x with held := h.map fun y => { t := y.1, up := y.2.1, dt := y.2.2 } } }
  | .insertion l x => s.modMl l fun m => { m with nlc := x }

/-- The lane an item belongs to, if it is one a string adopts (R377). -/
def itemLane : TwItem → Option Nat
  | .deadTime l _ _ _ _ => some l
  | .carry l _ _ => some l
  | .heldTrans l _ _ => some l
  | .bypass l _ => some l
  | .insertion l _ => some l
  | _ => none

/-- Adopts the received items a predicate names; RESYNC ends with the last of them (R377). -/
def State.resyncAdopt (s : State) (p : TwItem → Bool) : State :=
  if s.twin.resyncIn then
    let go := s.twin.resyncItems.filter p
    let s1 := go.foldl (fun s x => s.takeItem x) (s.updTwin fun t => { t with resyncItems := t.resyncItems.filter fun x => !p x })
    if s1.twin.resyncItems.isEmpty then s1.updTwin fun t => { t with resync := false, resyncIn := false, healthOwed := true } else s1
  else s

/-- A string's first boundary after receipt adopts what belongs to its lanes (R377). -/
def State.resyncStr (s : State) (str : Nat) : State :=
  s.resyncAdopt fun x =>
    match itemLane x with
    | some l => s.strOf l == str || s.strOf l > 15
    | none => false

/-- The first walked boundary after receipt adopts the loop states (R377). -/
def State.resyncLoops (s : State) : State := s.resyncAdopt fun x => (itemLane x).isNone

/-! ### Checks (R379 to R381) -/

/-- The period of a check in ticks; none for a continuous one (R379). -/
def checkPeriod (b : Nat) : Option Nat :=
  match b with
  | 2 => some (ms 10)
  | 3 => some (ms 10)
  | 4 => some (ms 10)
  | 5 => some (ms 10)
  | 6 => some (ms 100)
  | 7 => some (ms 1000)
  | _ => none

/-- RUN of a report: the checks completed within their period (R380). -/
def State.runMask (s : State) : Nat :=
  (List.range 12).foldl (fun n b =>
    let ok := match s.twin.checkAt.get? b with
      | some t => (match checkPeriod b with
        | some p => decide (s.mono < t + p)
        | none => true)
      | none => false
    n + b2n ok * 2 ^ b) 0

/-- An active that has failed a fatal check gives its role up as soon as it has a qualified standby (R381). -/
def State.fatalWatch (s : State) : State :=
  if s.twin.role = .active ∧ bits s.twin.failed 7 0 ≠ 0 ∧ s.qualifiedStandby = true then s.surrender else s

/-- Whether a check that follows from the state passes now: the twin link, the time state, CFG_DIG of a standby, the peer's life (R379). -/
def State.checkNow (s : State) (b : Nat) : Bool :=
  match b with
  | 8 => s.twinLinkUp
  | 9 => decide (s.time.state = .locked) || decide (s.time.state = .master)
  | 10 => decide (s.twin.role ≠ .standby) || s.twin.cfgEq
  | _ => s.twin.peerAlive

/-- What a change of the failed checks leads to (R381). -/
def State.checksJudge (s : State) (before : Nat) : State :=
  let f := s.twin.failed
  let fatalNew := bits f 7 0 != 0 && bits f 7 0 != bits before 7 0
  let deg := bits f 11 8
  let degraded := fun (s : State) => if s.inPair then s.cond (deg != 0) 0x44 noInst 0 (leBytes 2 f) else s
  let failing := fun (s : State) => degraded (s.cond (bits f 7 0 != 0) 0x43 noInst 0 (leBytes 2 f))
  if s.twin.role = .active then (if fatalNew && s.qualifiedStandby then (degraded s).surrender else failing s)
  else if s.twin.role = .standby then
    let s2 := failing s
    if fatalNew then ((s2.caseCancel.updTwin fun t => { t with barred := true }).unqualify).haltCells else s2
  else degraded s

/-- A check completes, or is found failed (R379). -/
def State.checkDone (s : State) (b : Nat) (pass : Bool) : State :=
  let before := s.twin.failed
  let s1 := s.updTwin fun t =>
    { t with failed := setBit t.failed b (!pass), checkAt := if pass then t.checkAt.set b s.mono else t.checkAt,
             healthOwed := t.healthOwed || decide (setBit t.failed b (!pass) ≠ before) }
  s1.checksJudge before

end Sys2Proof.Machine
end

