-- ==== Sys2Proof/Machine/LoopOps.lean ====
section
/-!
DEFINITION. The loop engine: selectors, the chain of one loop, regions, the walk, the budget and the checks of a commit (R296 to R331).
-/

namespace Sys2Proof.Machine

/-! ### Descriptors and sets (R305, R306, R309) -/

/-- A descriptor of a copy: 48 bytes, all 0 where none is listed. -/
def LoopTables.descOf (t : LoopTables) (n : Nat) : Bytes := (t.desc.get? n).getD (List.replicate 48 0)

/-- A coefficient set of a copy: 32 bytes, all 0 where none is listed. -/
def LoopTables.coefOf (t : LoopTables) (n : Nat) : Bytes := (t.coef.get? n).getD (List.replicate 32 0)

/-- EN (R306). -/
def dEn (d : Bytes) : Bool := bit (uAt d 0 2) 0
/-- STAGE (R306). -/
def dStage (d : Bytes) : Nat := bits (uAt d 0 2) 2 1
/-- ERR_MODE (R306). -/
def dErr (d : Bytes) : Nat := bits (uAt d 0 2) 4 3
/-- LMODE (R306). -/
def dLmode (d : Bytes) : Nat := bits (uAt d 0 2) 6 5
/-- INTERP (R306). -/
def dInterp (d : Bytes) : Bool := bit (uAt d 0 2) 7
/-- NBQ (R306). -/
def dNbq (d : Bytes) : Nat := bits (uAt d 0 2) 9 8
/-- WRAP (R306). -/
def dWrap (d : Bytes) : Bool := bit (uAt d 0 2) 10
/-- STALE_HOLD (R306). -/
def dHold (d : Bytes) : Bool := bit (uAt d 0 2) 11
/-- SHIFT (R305). -/
def dShift (d : Bytes) : Nat := bits (uAt d 2 1) 3 0
/-- NREG (R305). -/
def dNreg (d : Bytes) : Nat := uAt d 3 1
/-- SET_BASE (R305). -/
def dBase (d : Bytes) : Nat := uAt d 4 2
/-- A selector: KIND, INDEX, SUB (R307). -/
def selAt (d : Bytes) (off : Nat) : Nat × Nat × Nat := (uAt d off 1, uAt d (off + 1) 2, uAt d (off + 3) 1)
/-- A weight (R305). -/
def dW (d : Bytes) (k : Nat) : Int := sAt d (0x18 + 2 * k) 2
/-- HYST (R305). -/
def dHyst (d : Bytes) : Int := sAt d 0x2C 2
/-- RATE_MAX (R305). -/
def dRate (d : Bytes) : Int := sAt d 0x2A 2
/-- LIM_LO of a set (R309). -/
def cLo (c : Bytes) : Int := sAt c 0x18 2
/-- LIM_HI of a set (R309). -/
def cHi (c : Bytes) : Int := sAt c 0x1A 2
/-- TH of a set (R309). -/
def cTh (c : Bytes) : Int := sAt c 0x1C 2
/-- The base of a set's larder segment, in units of 32 entries (R309). -/
def cBase (c : Bytes) : Nat := bits (uAt c 0x1E 2) 8 0
/-- The size code of a set's larder segment (R309). -/
def cSize (c : Bytes) : Nat := bits (uAt c 0x1E 2) 11 9

/-! ### Arithmetic (R310) -/

/-- The 40-bit accumulator: saturated at the ends of Q9.31, or wrapped (R310). -/
def acc40 (wrap_ : Bool) (a : Int) : Int := if wrap_ then signed 40 (wrap 40 a) else satI 40 a

/-- ROUND(a, s) (R310). -/
def loopRound (wrap_ : Bool) (a : Int) (s : Nat) : Int :=
  let v := (a + (2 ^ (15 - s) : Nat)) / (2 ^ (16 - s) : Nat)
  if wrap_ then signed 16 (wrap 16 v) else sat16 v

/-- A product of two Q1.15 values rounded to Q1.15 (R311). -/
def prod15 (a b : Int) : Int := sat16 ((a * b + 16384) / 32768)

/-! ### Selectors (R307, R317) -/

/-- A statistic by its SUB (R307). -/
def statSub (mean min max : Int) (sub : Nat) : Int :=
  if sub = 0 then mean else if sub = 1 then min else if sub = 2 then max else sat16 (max - min)

/-- The statistics of a string that count as formed at an instant (R286, R297). -/
def State.formedAt (s : State) (str c : Nat) : SortStat :=
  let x := s.srt str
  if x.stat.at_ + 2560 ≤ c then x.stat else x.formed

/-- A channel's value in the snapshot of an instant, and whether it is stale (R297, R317, R677). -/
def State.snapSample (s : State) (lane chan c : Nat) : Int × Bool :=
  if !eEnabled (s.entry lane) then (0, true)
  else
    match s.sampleAt lane chan c with
    | (_, none) => (0, true)
    | (v, some t) => (v, (s.lnk lane).stale || decide (t + s.p0 0x0B04 < c))

/-- A selector's value at an instant and whether it is stale; the outputs as the loop that asks sees them (R300, R307, R317, log 15). -/
def State.selValue (s : State) (c : Nat) (outs : Tab Int) (x : Nat × Nat × Nat) : Int × Bool :=
  let stat := fun str => (s.formedAt str c, (s.formedAt str c).keyed == 0)
  match x.1 with
  | 1 => s.snapSample x.2.1 x.2.2 c
  | 2 => (outs.get 0 x.2.1, false)
  | 3 => let y := stat x.2.1
         (statSub y.1.mean y.1.min y.1.max x.2.2, y.2)
  | 4 =>
    let y := stat (s.strOf x.2.1)
    (match y.1.ranks.get? x.2.1 with
      | some r => sat16 (512 * r)
      | none => -32768, y.2)
  | 5 =>
    if x.2.1 / 16 = s.headId then
      let y := stat (x.2.1 % 16)
      (statSub y.1.mean y.1.min y.1.max x.2.2, y.2)
    else
      match s.ring.summary.get? x.2.1 with
      | some r => (statSub r.mean r.min r.max x.2.2, !r.valid || decide (r.at_ + s.p0 0x0B04 < c))
      | none => (0, true)
  | 6 => (s.ps 0x0B08 x.2.1 0 2, false)
  | _ => (0, false)

/-! ### The chain (R311 to R316) -/

/-- The error of four inputs (R311). -/
def loopError (d : Bytes) (v : List Int) : Int :=
  let w := dWrap d
  let r : Int := sAt d 6 2 * 16384
  let i := fun k => v.getD k 0
  if dErr d = 1 then
    loopRound w (acc40 w (4 * (r + dW d 0 * prod15 (i 0) (i 1) + dW d 2 * prod15 (i 2) (i 3)))) 0
  else loopRound w (acc40 w (4 * (r + dW d 0 * i 0 + dW d 1 * i 1 + dW d 2 * i 2 + dW d 3 * i 3))) 0

/-- The lookup of an argument in a set's segment of the larder (R312). -/
def larderLook (larder : Tab Nat) (c : Bytes) (wrap_ interp : Bool) (x : Int) : Int :=
  let k := 5 + cSize c
  let n := 2 ^ k
  let b := 32 * cBase c
  let q := (x + 32768).toNat
  let p := q / 2 ^ (16 - k)
  let f := q % 2 ^ (16 - k)
  let l := fun i => signed 16 (larder.get 0 (b + i))
  let p' := if p = n - 1 then (if wrap_ then 0 else n - 1) else p + 1
  if interp then l p + ((l p' - l p) * f) / (2 ^ (16 - k) : Nat) else l p

/-- The error after the larder (R312). -/
def loopShape (larder : Tab Nat) (d c : Bytes) (e : Int) : Int :=
  if dLmode d = 0 then e
  else
    let g := larderLook larder c (dWrap d) (dInterp d) e
    if dLmode d = 1 then loopRound (dWrap d) (acc40 (dWrap d) (4 * e * g)) 0 else g

/-- The integrator bounded to a set's limits, or wrapped (R313, R316). -/
def boundI (d c : Bytes) (i : Int) : Int :=
  if dWrap d then signed 40 (wrap 40 i)
  else
    let m : Int := (2 ^ (16 - dShift d) : Nat)
    clampI (cLo c * m) (cHi c * m) (satI 40 i)

/-- One biquad section: its output and its state (R314). -/
def biquadStep (c : Bytes) (off : Nat) (q : Biquad) (x : Int) : Int × Biquad :=
  let k := fun n => sAt c (off + 2 * n) 2
  let y := loopRound false (satI 40 (4 * (k 0 * x + k 1 * q.x1 + k 2 * q.x2 - k 3 * q.y1 - k 4 * q.y2))) 0
  (y, { x1 := x, x2 := q.x1, y1 := y, y2 := q.y1 })

/-- A section's state at its first use: the steady state of its own input (R320). -/
def biquadInit (x : Int) : Biquad := { x1 := x, x2 := x, y1 := x, y2 := x }

/-- One walk of one loop that is not held (R311 to R316). -/
def loopChain (larder : Tab Nat) (d c : Bytes) (st : LoopSt) (v : List Int) : LoopSt :=
  let w := dWrap d
  let e := loopShape larder d c (loopError d v)
  let p := 4 * sAt c 0 2 * e
  let dd := 4 * sAt c 2 2 * e
  let frozen := (st.clipHi && decide (0 < dd)) || (st.clipLo && decide (dd < 0))
  let i := boundI d c (if frozen then st.i else st.i + dd)
  let u := loopRound w (acc40 w (p + i)) (dShift d)
  let b0 := biquadStep c 4 (if st.bqSet < 1 then biquadInit u else st.bq0) u
  let v1 := if 1 ≤ dNbq d then b0.1 else u
  let b1 := biquadStep c 0x0E (if st.bqSet < 2 then biquadInit v1 else st.bq1) v1
  let v2 := if 2 ≤ dNbq d then b1.1 else v1
  let lim := clampI (cLo c) (cHi c) v2
  let out := if w then v2
    else if dRate d = 0 then lim
    else clampI (sat16 (st.out - dRate d)) (sat16 (st.out + dRate d)) lim
  { st with i, bq0 := if 1 ≤ dNbq d then b0.2 else st.bq0, bq1 := if 2 ≤ dNbq d then b1.2 else st.bq1, bqSet := dNbq d, out,
            clipHi := !w && decide (out < v2), clipLo := !w && decide (v2 < out) }

/-! ### Regions (R318, R320) -/

/-- TH of a region, TH_0 being −∞ (R318). -/
def LoopTables.th (t : LoopTables) (d : Bytes) (q : Nat) : Option Int := if q = 0 then none else some (cTh (t.coefOf (dBase d + q)))

/-- The largest region whose threshold less a margin lies at or below a value (R318). -/
def LoopTables.regionAt (t : LoopTables) (d : Bytes) (m v : Int) : Nat :=
  ((List.range (dNreg d)).filter fun q => match t.th d q with
    | none => true
    | some x => decide (x - m ≤ v)).foldl max 0

/-- The region chosen from the present one (R318). -/
def LoopTables.regionNext (t : LoopTables) (d : Bytes) (r : Nat) (v : Int) : Nat :=
  if dNreg d ≤ 1 then 0
  else if decide (r + 1 < dNreg d) && decide (cTh (t.coefOf (dBase d + r + 1)) ≤ v) then t.regionAt d 0 v
  else if decide (0 < r) && decide (v < cTh (t.coefOf (dBase d + r)) - dHyst d) then t.regionAt d (dHyst d) v
  else r

/-! ### The budget (R301, R302) -/

/-- The cost of an enabled loop in cycles (R301). -/
def loopCost (d : Bytes) : Nat := 10 + 2 * dNbq d + (if dLmode d ≠ 0 ∧ dInterp d = true then 1 else 0)

/-- The index of the least element of a list, the first where equal. -/
def leastIdx (l : List Nat) : Nat :=
  (l.zip (List.range l.length)).foldl (fun (b : Nat) x => if x.1 < l.getD b 0 then x.2 else b) 0

/-- The cost of a stage's loops over the eight lanes (R301). -/
def stageCost (costs : List Nat) : Nat :=
  if costs.isEmpty then 0
  else listMax (costs.foldl (fun l c => let k := leastIdx l; l.set k (l.getD k 0 + c)) (List.replicate 8 0)) + 6

/-- The enabled loops of a copy with their descriptors, in ascending order. -/
def LoopTables.enabled (t : LoopTables) : List (Nat × Bytes) := t.desc.cells.filter fun c => dEn c.2

/-- LE_COST (R301). -/
def LoopTables.cost (t : LoopTables) : Nat :=
  (List.range 4).foldl (fun n k => n + stageCost ((t.enabled.filter fun c => dStage c.2 == k).map fun c => loopCost c.2)) 0

/-- Whether a copy is within the budget for LE_PERIOD (R302): LE_COST ≤ 0.8 × LE_PERIOD / 20. -/
def State.inBudget (s : State) (t : LoopTables) : Bool := decide (25 * t.cost ≤ s.p0 0x0B02)

/-! ### The walk (R297 to R300, R317 to R321) -/

/-- A loop's state (log 15). -/
def State.loopSt (s : State) (n : Nat) : LoopSt := s.le.loop.get {} n

/-- The state a loop's walk starts from: its first after enabling, or a region chosen afresh (R320, R323). -/
def State.loopBegin (s : State) (d : Bytes) (n : Nat) (v : Int) : LoopSt :=
  let t := s.le.work
  let st := s.loopSt n
  if st.fresh then
    { st with i := sAt d 0x28 2 * (2 ^ (16 - dShift d) : Nat), out := sAt d 0x28 2, clipHi := false, clipLo := false, bqSet := 0,
              region := t.regionAt d 0 v, fresh := false, anew := false, rebound := false }
  else if st.anew then { st with region := t.regionAt d 0 v, anew := false }
  else st

/-- I as the walk takes it, once its region is chosen: bounded after a rescaling, or preset and bounded (R313, R323, R331, R332). -/
def State.loopPreset (s : State) (d : Bytes) (n : Nat) (st : LoopSt) : LoopSt :=
  let c := s.le.work.coefOf (dBase d + st.region)
  let st1 := if st.rebound then { st with i := boundI d c st.i, rebound := false } else st
  match (s.le.presets.filter fun p => p.1 == n).getLast? with
  | some p => { st1 with i := boundI d c (p.2 * (2 ^ (16 - dShift d) : Nat)) }
  | none => st1

/-- One loop of a walk at C_j: its new state, and whether it clipped, was stale, changed region. -/
def State.loopWalk (s : State) (c : Nat) (outs : Tab Int) (n : Nat) (d : Bytes) : LoopSt × Bool × Bool × Bool :=
  let t := s.le.work
  let ins := [8, 12, 16, 20].map fun off => s.selValue c outs (selAt d off)
  let rv := s.selValue c outs (selAt d 0x20)
  let stale := ins.any (·.2) || (decide (1 < dNreg d) && rv.2)
  let st := s.loopBegin d n rv.1
  if stale && dHold d then ({ s.loopPreset d n st with stale := true, ran := true }, false, true, false)
  else
    let r := t.regionNext d st.region rv.1
    let st1 := loopChain s.le.larder d (t.coefOf (dBase d + r)) (s.loopPreset d n { st with region := r }) (ins.map (·.1))
    ({ st1 with stale, ran := true }, st1.clipHi || st1.clipLo, stale, r != st.region)

/-- One stage of a walk: every loop of it sees lower stages' outputs of this walk and the others' of the previous one (R300). -/
def State.stageWalk (s : State) (c : Nat) (k : Nat) (a : Tab Int × List (Nat × LoopSt × Bool × Bool × Bool)) :
    Tab Int × List (Nat × LoopSt × Bool × Bool × Bool) :=
  let done := (s.le.work.enabled.filter fun x => dStage x.2 == k).map fun x => (x.1, s.loopWalk c a.1 x.1 x.2)
  (done.foldl (fun t x => t.set x.1 x.2.1.out) a.1, a.2 ++ done)

/-- How long after its walk is complete an output set is published (R298). -/
def publishTicks : Nat := 80

/-- The walk of a boundary, to be published when it is complete (R298, R299). -/
def State.walkAt (s : State) (j c : Nat) : Walk :=
  let prev := s.le.loop.cells.foldl (fun t x => t.set x.1 x.2.out) ({} : Tab Int)
  let r := ((List.range 4).foldl (fun a k => s.stageWalk c k a) (prev, [])).2
  { j, doneAt := c + 400 + 20 * s.le.work.cost + publishTicks, loops := r.map fun x => (x.1, x.2.1),
    marks := r.map fun x => (x.1, x.2.2.1, x.2.2.2.1, x.2.2.2.2) }

/-- Counts what a walk marked (R317, R318, R326). -/
def State.walkCounts (s : State) (w : Walk) : State :=
  w.marks.foldl (fun s m =>
    let s1 := if m.2.1 then s.bump 0x0B0C m.1 0 else s
    let s2 := if m.2.2.1 then (s1.bump 0x0B0C m.1 1).bump 0x0B0B noInst 2 else s1
    if m.2.2.2 then (s2.bump 0x0B0C m.1 2).bump 0x0B0B noInst 3 else s2) s

/-- The key of the reference a descriptor's destination names (R308). -/
def destKey (d : Bytes) : Option Nat := let k := uAt d 0x24 1; if k = 0 then none else some ((k - 1) * 256 + uAt d 0x25 2)

/-- The output set of a complete walk, by the references the descriptors name (R308). -/
def State.outsetOf (s : State) (w : Walk) : List (Nat × Int) :=
  w.loops.filterMap fun x => (destKey (s.le.work.descOf x.1)).map fun k => (k, x.2.out)

/-- Publishes a set to the modulator and the sorter (R298, R299). -/
def State.publishSet (s : State) (l : List (Nat × Int)) : State :=
  s.updMod fun m => { m with loopRef := l.foldl (fun t x => t.set x.1 x.2) m.loopRef }

/-- Publishes the set of a complete walk that the next walk has overtaken (R298). -/
def State.publishLate (s : State) : State :=
  match s.le.outset with
  | some o => (s.updLe fun e => { e with outset := none }).publishSet o.2
  | none => s

/-- A walk is complete: its loops' states and counts stand, and its set is to be published 80 ticks later (R298, R304). -/
def State.walkEnd (s : State) : State :=
  match s.le.walk with
  | none => s
  | some w =>
    let idle : Tab LoopSt := { cells := s.le.loop.cells.map fun c => (c.1, { c.2 with ran := false }) }
    let o := s.outsetOf w
    (s.updLe fun e =>
      { e with walk := none, loop := w.loops.foldl (fun t x => t.set x.1 x.2) idle, outset := some (w.doneAt, o) }).walkCounts w

/-- Publishes a complete walk: states, counts, references, and what the ride sequence makes of it (R298, R299, R308, R357). -/
def State.publish (s : State) : State :=
  match s.le.walk with
  | none => s
  | some _ => s.publishLate.walkEnd.publishLate.rideWalk

/-! ### Adoption (R323, R332) -/

/-- A loop's state across an adoption (R320, R323). A rescaled I is bounded in the walk that follows, once its region is chosen. -/
def adoptLoop (old new : LoopTables) (n : Nat) (st : LoopSt) : LoopSt :=
  let d0 := old.descOf n
  let d := new.descOf n
  if !dEn d then st
  else if !dEn d0 then { st with fresh := true }
  else
    let moved := decide (dShift d ≠ dShift d0)
    { st with i := if moved then st.i * (2 ^ dShift d0 : Nat) / (2 ^ dShift d : Nat) else st.i, rebound := st.rebound || moved,
              bqSet := min st.bqSet (dNbq d), anew := st.anew || decide (dNreg d ≤ st.region) }

/-- Adopts the pending tables (R323). -/
def State.loopAdopt (s : State) : State :=
  match s.le.pend with
  | none => s
  | some t =>
    s.updLe fun e =>
      { e with work := t, pend := none, loop := t.enabled.foldl (fun l x => l.set x.1 (adoptLoop e.work t x.1 (l.get {} x.1))) e.loop }

/-- Every enabled loop is enabled again (R320). -/
def State.loopsFresh (s : State) : State :=
  s.updLe fun e => { e with loop := e.work.enabled.foldl (fun l x => l.mod {} x.1 fun y => { y with fresh := true }) e.loop }

/-! ### Boundaries (R296, R303, R330, R672) -/

/-- The first boundary at or after a tick time (R296). -/
def State.boundaryFrom (s : State) (t : Nat) : Nat :=
  let p := max 1 (s.p0 0x0B02)
  let f := s.p0 0x0B03
  if t ≤ f then (f - t) % p + t else f + ceilDiv (t - f) p * p

/-- j of a boundary (R296, R326, log 59). -/
def State.boundaryJ (s : State) (c : Nat) : Nat := (c - s.p0 0x0B03) / max 1 (s.p0 0x0B02) % 2 ^ 32

/-- LE_STALL trips the RUNNING strings that take a reference from the engine (R303, R334). -/
def State.stallTrips (s : State) : State :=
  (List.range 16).foldl (fun s str =>
    if (s.str str).st = .running ∧ s.pu 0x080A str 0 1 ≠ 0 then s.trip str 9 0xFFFF else s) s

/-- A boundary at which walk j has not completed (R303, log 49). -/
def State.skipBoundary (s : State) (j : Nat) : State :=
  let n := s.le.skips + 1
  let s1 := (((s.updLe fun e => { e with skips := n }).bump 0x0B0B noInst 0).bump 0x0B0B noInst 1).fire 0x30 noInst (leBytes 4 j)
  if n = 2 then (s1.fire 0x31 noInst (leBytes 4 j)).stallTrips else s1

/-- The engine stops: outputs keep their values; a pending commit is adopted, and SYNC halts (R323, R330, R332, R357). -/
def State.loopStop (s : State) : State :=
  let s1 := (s.updLe fun e => { e with running := false, stopAt := none, skips := 0 }).loopAdopt
  if s1.prot.ride.st = .sync ∧ s1.rideRuns = true then s1.rideHalt 0x06 else s1

/-- What the enabled loops' selectors give at a boundary, each with whether it is stale (R297, R307, R374). -/
def State.snapshotOf (s : State) (c : Nat) : List Int :=
  let prev := s.le.loop.cells.foldl (fun t x => t.set x.1 x.2.out) ({} : Tab Int)
  s.le.work.enabled.flatMap fun x => [8, 12, 16, 20, 0x20].flatMap fun off =>
    let v := s.selValue c prev (selAt x.2 off)
    [v.1, (b2n v.2 : Int)]

/-- A walked boundary: adoption, presets, the walk; the comparison keeps what the walk begins from (R296 to R299, R323, R331, R374, R388). -/
def State.walkBoundary (s : State) (j c : Nat) : State :=
  let s1 := (if s.le.pendSince ≤ c then s.loopAdopt else s).resyncLoops
  let w := s1.walkAt j c
  (s1.updTwin fun t => { t with walkLoops := s1.le.loop, walkSnap := s1.snapshotOf c }).updLe fun e => { e with walk := some w, presets := [], skips := 0, walkedAt := some c }

/-- A control boundary C_j: the comparison period before it ends, the engine starts, stops, walks or skips, and the ring summaries go out
(R296, R303, R330, R374, R412, log 59). -/
def State.controlBoundary (s : State) (c : Nat) : State :=
  let j := s.boundaryJ c
  let walked := s.le.walkedAt == some (c - s.p0 0x0B02)
  let s1 := (s.periodEnd s.le.j walked).updLe fun e => { e with j, next := c + max 1 (s.p0 0x0B02) }
  let starts := match s1.le.startAt with
    | some t => decide (t ≤ c)
    | none => false
  let s2 := if starts then (s1.updLe fun e => { e with running := true, startAt := none }).loopAdopt.loopsFresh else s1
  let stops := match s2.le.stopAt with
    | some t => decide (t ≤ c)
    | none => false
  let s3 := if stops then s2.loopStop else s2
  let s4 := match s3.le.walk with
    | some w =>
      if s3.le.running = false then s3
      else if c + publishTicks < w.doneAt then s3.skipBoundary w.j
      else if c < w.doneAt then s3.publishLate.walkEnd.rideWalk.walkBoundary j c
      else s3.publish.walkBoundary j c
    | none => if s3.le.running then s3.walkBoundary j c else s3.resyncLoops
  s4.later .summaries

/-! ### The checks of a commit (R322) -/

/-- Whether a selector is in range (R307). -/
def selOk (x : Nat × Nat × Nat) : Bool :=
  match x.1 with
  | 0 => x.2.1 == 0 && x.2.2 == 0
  | 1 => decide (x.2.1 ≤ 127) && decide (x.2.2 ≤ 7)
  | 2 => decide (x.2.1 ≤ 511) && x.2.2 == 0
  | 3 => decide (x.2.1 ≤ 15) && decide (x.2.2 ≤ 3)
  | 4 => decide (x.2.1 ≤ 127) && x.2.2 == 0
  | 5 => decide (x.2.1 ≤ 127) && decide (x.2.2 ≤ 3)
  | 6 => decide (x.2.1 ≤ 31) && x.2.2 == 0
  | _ => false

/-- Whether a destination is in range (R308). -/
def destOk (k i : Nat) : Bool :=
  match k with
  | 0 => true
  | 1 => decide (i ≤ 15)
  | 2 => decide (i ≤ 127)
  | 3 => decide (i ≤ 15)
  | 4 => decide (i ≤ 127)
  | _ => false

/-- The sets an enabled descriptor names. -/
def LoopTables.setsOf (t : LoopTables) (d : Bytes) : List Bytes := (List.range (dNreg d)).map fun r => t.coefOf (dBase d + r)

/-- Whether thresholds ascend strictly (R318). -/
def ascends : List Int → Bool
  | [] => true
  | [_] => true
  | a :: b :: r => decide (a < b) && ascends (b :: r)

/-- The reason an enabled descriptor fails for, 0 if none, in the order of R322's table. A reserved bit of SHIFT, and RATE_MAX or HYST
outside R305's range, count as values of 0x60 (log 27). -/
def LoopTables.descReason (t : LoopTables) (d : Bytes) : Nat :=
  let sets := t.setsOf d
  if 2 ≤ dErr d ∨ dLmode d = 3 ∨ dNbq d = 3 ∨ inR (dNreg d) 1 8 = false ∨ bits (uAt d 2 1) 7 4 ≠ 0 ∨
      32767 < uAt d 0x2A 2 ∨ 32767 < uAt d 0x2C 2 then 0x60
  else if 511 < dBase d + dNreg d - 1 then 0x61
  else if sets.any fun c => decide (cHi c < cLo c) || decide (5 < cSize c) || cBase c % 2 ^ cSize c != 0 then 0x62
  else if ascends ((sets.drop 1).map cTh) = false then 0x63
  else if dWrap d ∧ dNbq d ≠ 0 then 0x65
  else if ([8, 12, 16, 20, 0x20].all fun off => selOk (selAt d off)) = false ∨ destOk (uAt d 0x24 1) (uAt d 0x25 2) = false then 0x66
  else if bits (uAt d 0 2) 15 12 ≠ 0 ∨ uAt d 0x27 1 ≠ 0 ∨ uAt d 0x2E 2 ≠ 0 ∨
      (sets.any fun c => bits (uAt c 0x1E 2) 15 12 != 0) = true then 0x69
  else 0

/-- The higher loop of the first pair that names one destination (R322). -/
def LoopTables.destClash (t : LoopTables) : List (Nat × Bytes) → List Nat → Option Nat
  | [], _ => none
  | x :: r, seen =>
    match destKey x.2 with
    | some k => if seen.contains k then some x.1 else t.destClash r (k :: seen)
    | none => t.destClash r seen

/-- The first failure of a shadow's checks but for EXPECT_GEN: status, FAIL_INDEX, reason (R322). -/
def State.loopFailure (s : State) (t : LoopTables) : Option (Nat × Nat × Nat) :=
  match t.enabled.findSome? fun x => let r := t.descReason x.2; if r = 0 then none else some (stBadParam, x.1, r) with
  | some f => some f
  | none =>
    match t.destClash t.enabled [] with
    | some n => some (stBadParam, n, 0x64)
    | none => if s.inBudget t then none else some (stBadParam, 0xFFFF, 0x67)

/-- Hands a checked shadow to the engine, due from a tick time (R323, R325, R328). -/
def State.loopCommit (s : State) (since : Nat) : State :=
  let gen := if s.le.gen = 0xFFFFFFFF then 1 else s.le.gen + 1
  let s1 := (s.updLe fun e => { e with pend := some e.shadow, pendSince := since, gen, stored := e.shadow, storedGen := gen }).countSave
  if s1.le.running then s1 else s1.loopAdopt

/-- The tick time of the boundary that adopts a commit due from a tick time (R323, R325, R328). -/
def State.loopAdoptAt (s : State) (since : Nat) : Nat :=
  if s.le.running then (if since ≤ s.le.next then s.le.next else s.boundaryFrom since) else s.now

/-! ### Loading tables from bytes (R327, R329) -/

/-- Writes entries of a shadow table: 0 descriptors, 1 coefficient sets (R327). -/
def State.loopLoad (s : State) (table first n : Nat) (data : Bytes) : State :=
  let w := if table = 0 then 48 else 32
  (List.range n).foldl (fun s k =>
    let e := slice data (w * k) w
    s.updLe fun l => { l with shadow :=
      if table = 0 then { l.shadow with desc := l.shadow.desc.set (first + k) e }
      else { l.shadow with coef := l.shadow.coef.set (first + k) e } }) s

/-- Writes entries of the larder, live, and to the store (R324, R329). -/
def State.larderPut (s : State) (first n : Nat) (data : Bytes) : State :=
  ((List.range n).foldl (fun s k => s.updLe fun l =>
    { l with larder := l.larder.set (first + k) (uAt data (2 * k) 2),
             storedLarder := l.storedLarder.set (first + k) (uAt data (2 * k) 2) }) s).countSave

end Sys2Proof.Machine
end

