-- ==== Sys2Proof/Machine/PosOps.lean ====
section
/-!
DEFINITION. The position channels: counting, references, speed and the compare units (R498 to R512).
-/

namespace Sys2Proof.Machine

/-- A channel. -/
def State.pch (s : State) (c : Nat) : PosChan := s.pos.chan.get {} c

/-- Changes a channel. -/
def State.modPch (s : State) (c : Nat) (f : PosChan → PosChan) : State :=
  s.updPos fun p => { p with chan := p.chan.mod {} c f }

/-- MODE of a channel: 0 OFF, 1 QUAD, 2 TOOTH (R513). -/
def State.posMode (s : State) (c : Nat) : Nat := s.pu 0x1301 c 0 1

/-- A bit of FLAGS of POS_CFG (R513). -/
def State.posFlag (s : State) (c n : Nat) : Bool := bit (s.pu 0x1301 c 4 1) n

/-- A line of a channel: 0 A, 1 B, 2 Z. -/
def PosChan.ln (x : PosChan) (n : Nat) : PosLine := x.line.get {} n

/-- Whether a pair of the channel disagrees (R500, R506). -/
def PosChan.anyWire (x : PosChan) : Bool := (x.ln 0).wire || (x.ln 1).wire || (x.ln 2).wire

/-- The level of a line as the channel takes it into use: the receiver's once it has been the same for FILT + 1 steps, else the one
accepted before (R499, log 91). -/
def State.posLevel (s : State) (c n : Nat) : Bool :=
  let x := s.pch c
  let l := x.ln n
  if s.elapsed l.lvAt (stp (s.pu 0x1301 c 1 1 + 1)) then l.lv
  else match n with
    | 0 => x.a
    | 1 => x.b
    | _ => x.z

/-- The level of POS<n>_CMP_OUT: high-impedance unless the unit may drive its field outputs (R498, R511, R512). -/
def State.cmpOut (s : State) (c : Nat) : Option Bool :=
  if s.auxMay then some ((s.pos.cmp.get {} (2 * c)).pulse.isSome || (s.pos.cmp.get {} (2 * c + 1)).pulse.isSome) else none

/-- The signed difference of a count and a compare value (R509). -/
def State.cmpDiff (s : State) (u count : Nat) : Int := sdiff 32 count (s.pu 0x1307 u 0 4)

/-- MODE of a compare unit: 0 while it is disarmed (R509). -/
def State.cmpMode (s : State) (u : Nat) : Nat := s.pu 0x1307 u 4 1

/-- Byte 0 of POS_CMP_STATE (R513). -/
def State.cmpFlags (s : State) (u : Nat) : Nat :=
  let x := s.pos.cmp.get {} u
  b2n (s.cmpMode u != 0) + 2 * b2n x.fired + 4 * b2n x.late + 8 * b2n x.invalid

/-- A compare unit fires: it disarms, and takes its notify and pin actions (R509 to R511). -/
def State.cmpFire (s : State) (u : Nat) (late invalid : Bool) : State :=
  let act := s.pu 0x1307 u 5 1
  let s1 := s.setParam 0x1307 u (setSlice (s.peff 0x1307 u) 4 [0])
  let pulse := if bit act 1 then some (s.mono + stp (s.pu 0x1307 u 8 2)) else (s.pos.cmp.get {} u).pulse
  let s2 := s1.updPos fun p =>
    { p with cmp := p.cmp.set u { fired := true, late, invalid, at_ := s.shortNow, pulse } }
  let s3 := if late then s2.bump 0x1309 (u / 2) 4 else s2
  if bit act 0 then
    s3.note 0x0C 0x1301 (leBytes 1 u ++ leBytes 1 (s3.cmpFlags u) ++ leBytes 4 (s.pch (u / 2)).count)
  else s3

/-- Units fire together: of two bridge actions on one bridge SHORT prevails (R511, R515). -/
def State.cmpFireAll (s : State) (us_ : List Nat) (late invalid : Bool) : State :=
  let acts := (us_.filter fun u => bit (s.pu 0x1307 u 5 1) 2).map fun u => (s.pu 0x1307 u 6 1, s.pu 0x1307 u 7 1)
  let s1 := us_.foldl (fun s u => s.cmpFire u late invalid) s
  (List.range 2).foldl (fun s b =>
    if acts.contains (b, 1) then s.auxAct b true else if acts.contains (b, 0) then s.auxAct b false else s) s1

/-- The armed units of a channel that a predicate names. -/
def State.cmpPick (s : State) (c : Nat) (p : Nat → Bool) : List Nat :=
  [2 * c, 2 * c + 1].filter fun u => s.cmpMode u != 0 && p u

/-- VALID is cleared: units that require it fire INVALID (R506, R511). -/
def State.posInvalid (s : State) (c : Nat) : State :=
  if (s.pch c).valid then
    let s1 := s.modPch c fun x => { x with valid := false }
    s1.cmpFireAll (s1.cmpPick c fun u => bit (s.pu 0x1307 u 5 1) 3) false true
  else s

/-- Whether a value lies behind COUNT (R510). -/
def State.cmpBehind (s : State) (c u : Nat) : Bool :=
  let x := s.pch c
  let d := s.cmpDiff u x.count
  let m := s.cmpMode u
  if m = 1 then decide (0 ≤ d)
  else if m = 2 then decide (d ≤ 0)
  else decide (d = 0) || (x.moved && (if x.up then decide (0 < d) else decide (d < 0)))

/-- The check of the step after arming, or after a jump of COUNT (R510). -/
def State.cmpCheck (s : State) (c : Nat) (p : Nat → Bool) : State :=
  s.cmpFireAll (s.cmpPick c fun u => p u && s.cmpBehind c u) true false

/-- Whether a move takes a unit across its value (R509). -/
def State.cmpCrosses (s : State) (u old new : Nat) : Bool :=
  let a := s.cmpDiff u old
  let b := s.cmpDiff u new
  let up := decide (a < 0) && decide (0 ≤ b)
  let down := decide (0 < a) && decide (b ≤ 0)
  let m := s.cmpMode u
  if m = 1 then up else if m = 2 then down else up || down

/-- COUNT moves by travel: the stamp, the direction, the changes the speed is formed from, and the crossings (R501, R502, R507, R509). -/
def State.posMove (s : State) (c : Nat) (n : Nat) (up : Bool) : State :=
  let x := s.pch c
  if n = 0 then s
  else
    let new := wrap 32 ((x.count : Int) + (if up then (n : Int) else -(n : Int)))
    let keep := if x.moved && x.up != up then [] else x.changes
    let s1 := s.modPch c fun y =>
      { y with count := new, stamp := s.now, up, moved := true, changes := (s.mono :: keep).take 5, changeAt := s.mono, zero := false }
    s1.cmpFireAll (s1.cmpPick c fun u => s1.cmpCrosses u x.count new) false false

/-- COUNT jumps to a value (R503, R506, R510). -/
def State.posJump (s : State) (c v : Nat) (valid : Bool) : State :=
  let s1 := s.modPch c fun y => { y with count := v, stamp := s.now, valid := y.valid || (valid && !y.anyWire) }
  s1.cmpCheck c fun _ => true

/-- What an index or a reference does beyond its checks: REF_LATCH, INDEX_RESET, a pending POS_SET, VALID (R503, R505, R506). -/
def State.posRef (s : State) (c : Nat) (good : Bool) : State :=
  let s1 := s.modPch c fun y => { y with latch := y.count, refSeen := true, valid := y.valid || (good && !y.anyWire) }
  let s2 := if s.posFlag c 2 then s1.posJump c 0 false else s1
  match (s.pch c).pending with
  | some v =>
    ((s2.modPch c fun y => { y with pending := none }).posJump c v good).note 0x0C 0x1302 (leBytes 1 c ++ leBytes 4 v)
  | none => s2

/-- An edge of A or B in MODE QUAD (R501). -/
def State.posQuad (s : State) (c : Nat) (a b : Bool) : State :=
  let x := s.pch c
  let da := x.a != a
  let db := x.b != b
  let s1 := s.modPch c fun y => { y with a, b }
  if (x.ln 0).wire || (x.ln 1).wire then s1
  else if da && db then
    let n := x.illegal + 1
    let go := match x.illegalAt with
      | some t => s.elapsed t (us 10)
      | none => true
    let s2 := ((s1.bump 0x1309 c 0).modPch c fun y =>
      { y with illegal := if go then 0 else n, illegalAt := if go then some s.mono else y.illegalAt }).posInvalid c
    if go then s2.fire 0x71 c (leBytes 4 n) else s2
  else if da || db then s1.posMove c 1 (((da && a != b) || (db && a == b)) != s.posFlag c 0)
  else s1

/-- A reference in MODE TOOTH: the pitches are checked, but for the first (R505). -/
def State.toothRef (s : State) (c : Nat) : State :=
  let x := s.pch c
  let bad := x.refOnce && decide (x.pitches ≠ s.pu 0x1302 c 0 2)
  let s1 := s.modPch c fun y => { y with pitches := 0, refOnce := true }
  let s2 := if bad then ((s1.bump 0x1309 c 2).posInvalid c).fire 0x72 c (leBytes 2 x.pitches) else s1
  s2.posRef c (!bad)

/-- A tooth (R504). -/
def State.posTooth (s : State) (c : Nat) : State :=
  let x := s.pch c
  let up := !s.posFlag c 3
  let ratio := s.pu 0x1302 c 3 1
  let kind := s.pu 0x1302 c 2 1
  match x.toothAt with
  | none => (s.modPch c fun y => { y with toothAt := some s.mono, pitches := y.pitches + 1 }).posMove c 1 up
  | some t =>
    let p := s.mono - t + x.extraP.getD 0
    let s1 := s.modPch c fun y => { y with toothAt := some s.mono, extraP := none }
    let plain := fun (s : State) =>
      (s.modPch c fun y => { y with prevP := some p, toothP := some p, pitches := y.pitches + 1 }).posMove c 1 up
    match x.prevP with
    | none => plain s1
    | some p0 =>
      if kind = 0 ∧ p0 * ratio < 16 * p then
        ((s1.modPch c fun y => { y with prevP := some p, toothP := some (p / 2), pitches := y.pitches + 2 }).posMove c 2 up).toothRef c
      else if kind = 1 ∧ p * ratio < 16 * p0 then
        (s1.modPch c fun y => { y with extraP := some p }).toothRef c
      else plain s1

/-- Restarts a channel's filters and the periods it holds (R504, R579). -/
def PosChan.restart (x : PosChan) (now : Nat) : PosChan :=
  { x with toothAt := none, prevP := none, extraP := none, pitches := 0, refOnce := false, toothP := none, changes := [],
           changeAt := now, line := { cells := x.line.cells.map fun l => (l.1, { l.2 with since := now, lvAt := now }) } }

/-- PERIOD_N as it applies (R507). -/
def State.periodN (s : State) (c : Nat) : Nat := if s.posMode c = 2 then 1 else s.pu 0x1303 c 14 1

/-- T over the latest PERIOD_N count changes of one direction (R507). -/
def State.posT (s : State) (c : Nat) : Option Nat :=
  let x := s.pch c
  let n := s.periodN c
  if s.posMode c = 2 then (if 2 ≤ x.changes.length then x.toothP else none)
  else
    match x.changes[0]?, x.changes[n]? with
    | some a, some b => some (a - b)
    | _, _ => none

/-- SPEED in period mode (R507, log 91). -/
def State.speedPeriod (s : State) (c : Nat) : Int × Nat :=
  match s.posT c with
  | some t =>
    let n := s.periodN c
    let t' := max 1 (max t (n * (s.mono - (s.pch c).changeAt)))
    let v : Int := (n * 128000000000 / t' : Nat)
    (satI 32 (if (s.pch c).up then v else -v), t)
  | none => (0, 0)

/-- SPEED in count mode (R507). -/
def State.speedCount (s : State) (c : Nat) : Int :=
  let x := s.pch c
  satI 32 (Int.tdiv (sdiff 32 x.count x.windowCount * 128000000000) (max 1 (s.pu 0x1303 c 0 4)))

/-- The end of a window of a channel (R507, R508). -/
def State.posWindow (s : State) (c n : Nat) : State :=
  let x := s.pch c
  let per := s.speedPeriod c
  let v := if x.zero then 0 else if x.countMode then s.speedCount c else per.1
  let mode := if x.countMode then decide ((s.pu 0x1303 c 8 4 : Int) ≤ v.natAbs) else decide ((s.pu 0x1303 c 4 4 : Int) ≤ v.natAbs)
  s.modPch c fun y => { y with speed := v, period := per.2, countMode := mode, window := n, windowCount := y.count }

end Sys2Proof.Machine
end

