-- ==== Sys2Proof/Machine/SafeOps.lean ====
section
/-!
DEFINITION. The safety island's shared operations: its inputs, demands, faults, grants and lockout (R517 to R539, R547).
-/

namespace Sys2Proof.Machine

/-! ### Seal and inputs -/

/-- Switch Sk of the seal (R524). -/
def SafeUnit.sw (u : SafeUnit) (k : Nat) : Bool := bit (u.sealIn.getD 0) k

/-- Whether a function is in use (R529). -/
def SafeUnit.inUse (u : SafeUnit) (fn : Nat) : Bool :=
  match fn with
  | 0 => true
  | 1 => u.sw 0
  | 2 => u.sw 1
  | 3 => u.sw 2
  | 4 => u.sw 4
  | _ => u.sw 3

/-- The function of an input; 0xFF for SAFE_RESET and the EDM inputs (R526, R529). -/
def safeFn (inp : Nat) : Nat :=
  if inp < 8 then inp / 2 else if inp < 12 then 5 else if inp < 14 then 4 else 0xFF

/-- The two inputs of functions 0 to 4 (R526). -/
def safePair (fn : Nat) : Nat × Nat := if fn = 4 then (12, 13) else (2 * fn, 2 * fn + 1)

/-- The test output an input is fed from: 0 SAFE_TP_A, 1 SAFE_TP_B (R526). -/
def safeFeed (inp : Nat) : Option Nat :=
  if inp < 12 then some (inp % 2) else if inp = 14 then some 0 else none

/-- The filter time of an input (R528). -/
def safeFilter (inp : Nat) : Nat := if inp = 12 ∨ inp = 13 then us 400 else us 200

/-- The level of an input (R526). -/
def SafeUnit.lev (u : SafeUnit) (inp : Nat) : Bool := u.level.get false inp

/-- When an input last changed. -/
def SafeUnit.at_ (u : SafeUnit) (inp : Nat) : Nat := u.since.get 0 inp

/-- The ticks two spans share. -/
def overlap (a b c d : Nat) : Nat := min b d - max a c

/-- How long an input has been at its level, outside the expected window of the latest pulse of its test output (R527, R528). -/
def SafeUnit.held (u : SafeUnit) (inp mono : Nat) : Nat :=
  let t := u.at_ inp
  let w := match (safeFeed inp).bind fun o => if u.sw 6 then u.pulse.get? o else none with
    | some p => overlap t mono (p - us 100) (p + us 50)
    | none => 0
  mono - t - w

/-- Whether an input is in demand (R528). -/
def SafeUnit.inDemand (u : SafeUnit) (inp mono : Nat) : Bool := !u.lev inp && decide (safeFilter inp ≤ u.held inp mono)

/-- Whether a function in use demands a stop (R528, R529). -/
def SafeUnit.demands (u : SafeUnit) (mono fn : Nat) : Bool :=
  u.inUse fn && decide (fn < 5) &&
    (bit u.demand fn || u.inDemand (safePair fn).1 mono || u.inDemand (safePair fn).2 mono)

/-- Whether the island works: supplied and not UNUSED (R518, R545). -/
def SafeUnit.live (u : SafeUnit) : Bool := u.supplied && decide (u.st ≠ .unused)

/-- Whether the INHIBIT outputs are on (R532). -/
def SafeUnit.inhibitOn (u : SafeUnit) : Bool := u.supplied && (decide (u.st = .ready) || decide (u.st = .permit))

/-- Whether the TRIP outputs are on (R532). -/
def SafeUnit.tripOn (u : SafeUnit) : Bool := u.supplied && decide (u.st = .permit)

/-- The permit line (R540). -/
def SafeUnit.line (u : SafeUnit) : Bool := u.inhibitOn && u.pPermit && u.hPermit

/-- The period of the carrier an INHIBIT output sends, in ticks; none while it is steady low (R521). -/
def SafeUnit.carrier (u : SafeUnit) (chain : Nat) : Option Nat := if u.line then some (if chain = 0 then 81920 else 78080) else none

/-- The code of a state (R532). -/
def SafeState.code : SafeState → Nat
  | .unused => 0
  | .start => 1
  | .stopped => 2
  | .ready => 3
  | .permit => 4
  | .lockout => 5

/-- SAFE_STATE byte 1 (R542). -/
def SafeUnit.outs (u : SafeUnit) : Nat :=
  3 * b2n u.inhibitOn + 12 * b2n u.tripOn + 16 * b2n u.pPermit + 32 * b2n u.hPermit + 64 * b2n u.due + 128 * b2n (u.broken != 0)

/-- Adds one to a count of SAFE_CNT, wrapping at its width (R542). -/
def SafeUnit.count (u : SafeUnit) (i : Nat) : SafeUnit :=
  { u with cnt := u.cnt.set i ((u.cnt.getD i 0 + 1) % (if i < 2 then 2 ^ 32 else 2 ^ 16)) }

/-- Records a fault (R541, R542). -/
def SafeUnit.record (u : SafeUnit) (mono code fn by_ : Nat) : SafeUnit :=
  { u with last := { code, fn, by_, cycle := (mono - u.startAt) / us 500 % 2 ^ 32 } }

/-! ### Leaving and entering states -/

/-- A change of state, reported in the next frame (R541, R544). -/
def SafeUnit.enter (u : SafeUnit) (st : SafeState) : SafeUnit :=
  if st = u.st then u
  else
    let v := { u with st }
    { v with events := v.events ++ [.change st.code v.outs] }

/-- Removes every output: the carriers go off, the EDM inputs must return, DEMAND_DUE and LOOP_BROKEN end (R521, R523, R538, R539, log 92). -/
def SafeUnit.off (u : SafeUnit) (mono : Nat) : SafeUnit :=
  { u with pPermit := false, hPermit := false, due := if u.inhibitOn then false else u.due,
           broken := if u.inhibitOn then 0 else u.broken, offAt := if u.inhibitOn then mono else u.offAt,
           edm := if u.tripOn then some (mono, true) else u.edm, cause := if u.inhibitOn then 0 else u.cause }

/-- A stop in READY or PERMIT (R533, log 92). -/
def SafeUnit.stop (u : SafeUnit) (mono : Nat) : SafeUnit := if u.inhibitOn then (u.off mono).enter .stopped else u

/-- An island fault: LOCKOUT, unless the island is UNUSED (R535, R545, log 92). -/
def SafeUnit.lockout (u : SafeUnit) (mono code by_ : Nat) : SafeUnit :=
  if u.live then
    let v := (u.record mono code 0xFF by_).off mono
    if v.st = .lockout then v else { v.enter .lockout with events := (v.enter .lockout).events ++ [.lockout code 0xFF by_] }
  else u

/-- A function fault: latched, and the island stops (R534, log 92). -/
def SafeUnit.fnFault (u : SafeUnit) (mono code fn by_ : Nat) : SafeUnit :=
  if !u.live || !u.inUse fn || bit u.fault fn then u
  else
    let u1 : SafeUnit := { u with fault := setBit u.fault fn true, together := setBit u.together fn false }
    let v := (u1.record mono code (2 ^ fn) by_).count 2
    let w : SafeUnit := { v with events := v.events ++ [.funcFault code (2 ^ fn) by_] }
    w.stop mono

/-- Whether a grant's conditions hold (R533, R547). -/
def SafeUnit.mayGrant (u : SafeUnit) (mono : Nat) (dst : SafeState) : Bool :=
  u.live && (List.range 5).all (fun fn => !u.demands mono fn) && u.fault == 0 && u.differ.isNone && u.inDiffer.isNone &&
    (decide (dst ≠ SafeState.permit) || (u.lev 15 && u.lev 16))

/-- A grant: the outputs of the new state go on (R521, R523, R533). -/
def SafeUnit.grant (u : SafeUnit) (mono : Nat) (dst : SafeState) : SafeUnit :=
  if u.mayGrant mono dst then
    let v := { u with pPermit := true, hPermit := true, onAt := if u.inhibitOn then u.onAt else mono,
                      edge := if u.inhibitOn then u.edge else (u.edge.set 0 mono).set 1 mono,
                      edm := if dst = SafeState.permit then some (mono, false) else u.edm }
    (v.count 1).enter dst
  else u

/-- The reset, or what stands for it (R531, R533). -/
def SafeUnit.resetEvent (u : SafeUnit) (mono : Nat) : SafeUnit :=
  if u.st = .stopped then u.grant mono (if u.sw 3 then .ready else .permit) else u

/-- A valid two-hand actuation (R530, R533). -/
def SafeUnit.actuation (u : SafeUnit) (mono : Nat) : SafeUnit :=
  if u.sw 3 && ((decide (u.st = .ready) && !u.sw 5) || (decide (u.st = .stopped) && u.sw 5)) then u.grant mono .permit else u

/-! ### The two-hand control (R530) -/

/-- Whether a hand is actuated. -/
def SafeUnit.pressed (u : SafeUnit) (hand : Nat) : Bool := u.lev (8 + 2 * hand) && !u.lev (9 + 2 * hand)

/-- Whether a hand is released. -/
def SafeUnit.released (u : SafeUnit) (hand : Nat) : Bool := !u.lev (8 + 2 * hand) && u.lev (9 + 2 * hand)

/-- What a change at a hand's contact does. -/
def SafeUnit.handEdge (u : SafeUnit) (mono hand : Nat) : SafeUnit :=
  if !u.live || !u.inUse 5 then u
  else if u.released 0 && u.released 1 then { u with hands := { armed := true } }
  else if u.pressed hand then
    let a := u.at_ (8 + 2 * hand)
    let b := u.at_ (9 + 2 * hand)
    let w := { u with hands := {} }
    if ms 50 < max a b - min a b then w.fnFault mono 3 5 3
    else
      match u.hands.armed, u.hands.first with
      | false, _ => u
      | true, none => if u.released (1 - hand) then { u with hands := { armed := true, first := some (hand, mono) } } else w
      | true, some (h, t) =>
        if h = hand then u
        else if mono ≤ t + ms 500 then w.actuation mono
        else w.count 3
  else u

/-! ### The device's side -/

/-- Changes the island's state. -/
def State.modSafe (s : State) (f : SafeUnit → Nat → SafeUnit) : State := s.updSafe fun u => f u s.mono

/-- Whether the unit's safety island is UNUSED (R380, R545). -/
def State.safeUnused (s : State) : Bool := decide (s.safe.st = .unused)

/-- SAFE_INPUTS as a number (R542). -/
def SafeUnit.inputs (u : SafeUnit) : Nat := (List.range 17).foldl (fun n i => n + b2n (u.lev i) * 2 ^ i) 0

/-- The frame of the mirror link (R541, R542). -/
def SafeUnit.form (u : SafeUnit) : SafeFrame :=
  { st := u.st.code, outs := u.outs, demand := u.demand, fault := u.fault, inputs := u.inputs,
    sealIn := u.sealIn.getD 0 + 65536 * b2n u.sealOk, last := u.last, cnt := u.cnt, version := Config.safeVersion.toNat,
    events := u.events }

/-- The notification of an event (R544). -/
def State.safeNote (s : State) : SafeEvent → State
  | .change st outs => s.note 0x0D 0x1401 (leBytes 1 st ++ leBytes 1 outs)
  | .demand mask => s.note 0x0D 0x1402 (leBytes 1 mask)
  | .funcFault code fn by_ => s.note 0x0D 0x1403 (leBytes 1 code ++ leBytes 1 fn ++ leBytes 1 by_)
  | .lockout code fn by_ => s.note 0x0D 0x1404 (leBytes 1 code ++ leBytes 1 fn ++ leBytes 1 by_)
  | .loopBroken chain broken => s.note 0x0D 0x1405 (leBytes 1 (2 ^ chain) ++ leBytes 1 (b2n broken))

/-- The bytes of page 0x14 (R542). -/
def State.safeValue (s : State) (id : Nat) : Bytes :=
  let f := s.safe.frame
  match id with
  | 0x1401 => leBytes 1 f.st ++ leBytes 1 f.outs ++ leBytes 1 f.demand ++ leBytes 1 f.fault ++ leBytes 1 (b2n s.safe.stale) ++
      [0, 0, 0] ++ leBytes 4 s.safe.frameAt
  | 0x1402 => leBytes 8 f.inputs
  | 0x1403 => leBytes 4 f.sealIn
  | 0x1404 => leBytes 1 f.last.code ++ leBytes 1 f.last.fn ++ leBytes 1 f.last.by_ ++ [0] ++ leBytes 4 f.last.cycle ++
      leBytes 4 s.safe.faultAt
  | 0x1405 => leBytes 4 (f.cnt.getD 0 0) ++ leBytes 4 (f.cnt.getD 1 0) ++ leBytes 2 (f.cnt.getD 2 0) ++
      leBytes 2 (f.cnt.getD 3 0) ++ leBytes 2 (f.cnt.getD 4 0) ++ [0, 0]
  | _ => leBytes 8 f.version

end Sys2Proof.Machine
end

