-- ==== Sys2Proof/Machine/SysOps.lean ====
section
/-!
DEFINITION. Chip reset, the end of reset and the start: shared operations (R579, R590, R634 to R641).
-/

namespace Sys2Proof.Machine

/-! ### Chip reset (R634 to R637) -/

/-- Whether nothing holds the chip reset (R626, R632, R634). -/
def ResetHold.free (h : ResetHold) : Bool := !h.pin && h.rails.isEmpty && !h.clock

/-- RESET_INFO's counts after a chip reset; a loss of VDD_CORE clears them (R637, R646). -/
def Sys.counted (y : Sys) (cause : Nat) (coreLost : Bool) : Sys :=
  if coreLost then { y with resets := 0, wdtResets := 0, clkResets := 0 }
  else { y with resets := satN 16 (y.resets + 1), wdtResets := satN 16 (y.wdtResets + b2n (cause == 5)),
                clkResets := satN 16 (y.clkResets + b2n (cause == 6)) }

/-- One less, but for a count that is saturated. -/
def lessOne (n : Nat) : Nat := if n = 65535 then n else n - 1

/-- Another cause meets the one a reset began with: the one first in the order of R634 is recorded, and counted in its stead (R650). -/
def Sys.recause (y : Sys) (cause src : Nat) : Sys :=
  { y with cause, causeSrc := src,
           wdtResets := if y.cause = 5 then lessOne y.wdtResets else satN 16 (y.wdtResets + b2n (cause == 5)),
           clkResets := if y.cause = 6 then lessOne y.clkResets else y.clkResets }

/-- The supplies, clocks and debug port from the start of a chip reset (R636, R637, R644, log 4, log 100). -/
def Sys.atReset (y : Sys) (cause src : Nat) : Sys :=
  { y.counted cause (y.hold.rails.contains 0) with
    stage := .inReset, gated := true, pll := if y.hold.free then .locking else .off, syncAligned := false, cause,
    causeSrc := src, bootResult := 0, hatchSeen := false, jtag := if y.jtag = .extest then .bypass else y.jtag, core0 := {},
    core1 := {}, breaks := [], opening := none, tcm := {} }

/-- What MRAM keeps of the collector (R590, R619). -/
def Faults.atReset (f : Faults) : Faults :=
  { mirror := f.mirror, lastId := f.lastId, attic := f.attic, atticSeq := f.atticSeq, nmiTaken := f.nmiTaken }

/-- The safety island and its mirror: the island is untouched (R517, R636). -/
def SafeUnit.atReset (u : SafeUnit) (mono : Nat) : SafeUnit :=
  { u with frame := {}, frameAt := 0, frameMono := mono, faultAt := 0, stale := false, permit := false }

/-- A chip reset with a cause and, for a fault reaction, its source; one that comes while another is in progress is the same reset
(R634, R636, R637, R650, log 4). -/
def State.chipReset (s : State) (cause src : Nat) : State :=
  if s.sys.stage = .inReset then
    if s.sys.resetAt = some s.mono ∧ cause < s.sys.cause then s.updSys fun y => y.recause cause src else s
  else
    let s0 := if s.sys.stage = .serving ∧ s.corePresent = true ∧ cause ≠ 1 then s.enCopy else s
    let s1 : State := {
      pending := s.pending, mono := s.mono, freeCount := s.freeCount,
      hatch := { qspi := s.hatch.qspi, msix := s.hatch.msix },
      par := { store := s.par.store },
      faults := s.faults.atReset,
      sys := { s.sys.atReset cause src with resetAt := some s.mono },
      pantry := { wiping := some (1, s.mono), wipeCause := 1 },
      roll := { stored := s.roll.stored, storedGen := s.roll.storedGen },
      le := { stored := s.le.stored, storedGen := s.le.storedGen, storedLarder := s.le.storedLarder },
      hk := { recs := s.hk.recs, lastId := s.hk.lastId },
      bat := { s.bat with rtcPending := none, signals := 0 },
      en := { copies := s0.en.copies },
      fw := s.fw.atReset,
      safe := s.safe.atReset s.mono }
    let s2 := (s1.updRing fun r => { r with nonce := s1.freeVal % 65536 }).tookFree
    s2.freshChallenge

/-- A hold on the chip reset ends; once none is left the main PLL begins to lock (R626, R632, R634, R638). -/
def State.holdEnd (s : State) (f : ResetHold → ResetHold) : State :=
  s.updSys fun y =>
    let h := f y.hold
    { y with hold := h, pll := if y.stage = .inReset ∧ h.free = true ∧ y.pll = .off then .locking else y.pll }

/-- The end of reset: the main PLL has locked, tick time starts from 0, HOST_SEL selects the host port, and the strongbox's wipe runs before
the boot ROM begins (R46, R436, R638, R639, log 4). -/
def State.endOfReset (s : State) (hostSel : Bool) : State :=
  ((((s.updHatch fun h => { h with qspi := hostSel }).updPantry fun p => { p with wiping := p.wiping.map fun w => (w.1, s.mono) }).updSys fun y =>
    { y with stage := .bootRom, gated := false, pll := .locked }).updTime fun t =>
      { t with running := true, tick := 0, frac := 0 }).updTwin fun t => { t with aliveOut := true }

/-! ### The start (R639 to R641) -/

/-- RESET_REPORT (R640). -/
def State.resetReport (s : State) : State :=
  s.note 0x0A 0x1901 (leBytes 1 s.sys.cause ++ leBytes 1 (if s.sys.cause = 4 then s.sys.causeSrc else 0xFF) ++
    leBytes 1 s.sys.bootResult ++ [0] ++ leBytes 2 s.sys.resets)

/-- The stored parameter values come back (R56). -/
def State.restoreParams (s : State) : State :=
  s.updPar fun p =>
    { p with shadow := { cells := p.store.cells }, eff := { cells := p.store.cells } }

/-- The stored roll and loop tables come back (R41, R323, R324). -/
def State.restoreTables (s : State) : State :=
  (s.updRoll fun r => { r with shadow := r.stored, working := r.stored, gen := r.storedGen }).updLe fun e =>
    { e with work := e.stored, shadow := e.stored, gen := e.storedGen, larder := e.storedLarder }

/-- The open fault records come back, and FAULT_N is driven (R590, R591, log 98). -/
def State.restoreFaults (s : State) : State :=
  (s.updFaults fun f =>
    { f with open_ := (f.mirror.take 64).map fun r => { r with restored := true, read := false, dirty := true }, restoredDone := true }).faultPin

/-- The uncleared shutdown records come back: their zones are in shutdown and their strings trip (R462, log 103). -/
def State.restoreTherm (s : State) : State :=
  let s1 := s.updHk fun h => { h with recs := h.recs.map fun r => { r with restored := true, read := false } }
  s1.hk.recs.foldl (fun s r =>
    let t := (List.range 16).foldl (fun s n => if bit r.strings n then s.tripMask n 2048 0xFFFF else s) s
    t.updFaults fun f => { f with present := f.present ++ [{ src := 0x64, inst := r.zone, sub := 0 }] }) s1

/-- Ubfer has restored everything and serves the hatch (R567, R568, R607, R639). -/
def State.ubferStart (s : State) : State :=
  let s1 := (s.restoreParams.restoreTables.restoreFaults).restoreTherm
  let s2 := (s1.batteryFound.tampCopy.keysAtStart).enRestore
  let s3 := (s2.updPantry fun p => { p with linkKeys := s2.fw.linkKeys }).updSys fun y =>
    { y with stage := .serving, hatchSeen := true, bootResult := 0 }
  let s4 := (s3.updLanes fun l => { l with readyAt := some s.mono }).resetReport.enAllLimits
  match s4.fw.report with
  | some r => (s4.updFw fun f => { f with report := none }).fwActivated r
  | none => s4

end Sys2Proof.Machine
end

