-- ==== Sys2Proof/Machine/Settle.lean ====
section
/-!
DEFINITION. The actions set off in other blocks, taken in order until none is left (log 5).
-/

namespace Sys2Proof.Machine

/-! ### What the actions do -/

/-- A block reset asked by a fault reaction (R579). -/
def State.blockReset (s : State) (src inst : Nat) : State :=
  if src = 0x10 ∨ src = 0x11 ∨ src = 0x12 ∨ src = 0x14 ∨ src = 0x15 ∨ src = 0x19 then s.freshAttempt inst
  else if src = 0x13 then
    (rackLanes inst).foldl (fun s l => s.setLane l .off)
      (s.modRack inst fun r => if r.st = .locked then { r with st := .relocking } else r)
  else if src = 0x51 ∨ src = 0x52 then (s.freshAttempt 128).freshAttempt 129
  else if src = 0x60 then s.hkReset
  else if src = 0x68 ∨ src = 0x69 ∨ src = 0x6A ∨ src = 0x6D then s.auxAct inst false
  else if src = 0x70 ∨ src = 0x71 ∨ src = 0x72 then (s.modPch inst fun x => x.restart s.mono).posInvalid inst
  else s

/-- A service lane has entered LINKED or left it (R371, R385, R411). -/
def State.svcChange (s : State) (lane : Nat) (up : Bool) : State :=
  if lane < 130 then (if s.ringEn then s.cond (!up) 0x52 lane 0 [] else s).timeRefresh
  else
    let down := !(decide ((s.lane 130).st = .linked) || decide ((s.lane 131).st = .linked))
    let s1 := s.updTwin fun t =>
      { t with downSince := if down then some (t.downSince.getD s.mono) else none, rxSeq := if down then none else t.rxSeq,
               ahead := if up then t.ahead.erase lane else t.ahead }
    (if up then s1.twRole else s1).twinLinkWatch.timeRefresh

/-- The role or the role epoch has changed: ROLE is owed on every working cell link, held sets are discarded, the census, the time source,
the drives, the limits, accesses not yet sent and an image send follow (R79, R143, R184, R371, R409, R410, R493, R558, R610). -/
def State.roleFollow (s : State) : State :=
  let met := (List.range 128).filter fun l =>
    (s.lane l).st.working || (s.lnk l).param.isSome || !(s.lnk l).paramWait.isEmpty
  let s1 := met.foldl (fun s l =>
    let s1 := s.paramRole l
    if (s1.lane l).st.working then s1.modLink l fun x => { x with roleOwed := true } else s1) s.discardHeld
  let s2 := s1.masterRole.updRing fun r =>
    { r with censusOwed := true, headEpoch := r.headEpoch.set s.headId s.twin.epoch, applied := r.applied.erase s.headId }
  let s3 := s2.timeRefresh.twRole.auxWatch
  (if s3.commanding then s3 else s3.imageEnd).enAllLimits

/-- The boundaries of a period, counted from tick time 0, that lie before a time: the one at the time itself is still to come (R672). -/
def passed (t p : Nat) : Nat := if t % p = 0 then t / p - 1 else t / p

/-- A round boundary that a forward step has passed over is not run (R450, R672). -/
def State.hkMoved (s : State) (old : Nat) : State :=
  let n := passed s.now 80000000
  if old / 80000000 < n then s.updHk fun h => { h with ran := if ranHas n h.ran then h.ran else ranAdd n h.ran } else s

/-- The scale of tick time has moved from an old time: the recurring boundaries go on from the new time, and a walk under way ends after
the ticks it still needs (R299, R672). -/
def State.scaleMoved (s0 : State) (old : Nat) : State :=
  let s := s0.hkMoved old
  let s1 := s.updLe fun e =>
    { e with next := s.boundaryFrom s.now, walk := e.walk.map fun w => { w with doneAt := w.doneAt + s.now - old },
             outset := e.outset.map fun o => (o.1 + s.now - old, o.2) }
  let s2 := (List.range 4).foldl (fun s c => s.modPch c fun x => { x with window := passed s.now (max 1 (s.pu 0x1303 c 0 4)) }) s1
  (List.range 16).foldl (fun s n => s.modEn n fun x => { x with last := none, hist := [] }) s2

/-- One string's RING_SUMMARY, formed at the control boundary just taken, and kept by the unit itself (R406, R412, R413). -/
def State.summarySend (s : State) (str : Nat) : State :=
  let c := s.le.next - max 1 (s.p0 0x0B02)
  let x := s.formedAt str c
  let st := match (s.str str).st with
    | .stopped => 0
    | .starting => 1
    | .running => 2
    | .stopping => 3
    | .tripped => 4
  let g := s.headId * 16 + str
  let own : Summary :=
    { state := st, valid := decide (0 < x.keyed), j := s.le.j % 32, mean := x.mean, min := x.min, max := x.max, at_ := s.now }
  let s1 := s.ringSend 0x42 allNodes (pf 57 g + pf 54 st + pf 53 (b2n own.valid) + pf 48 own.j + pf 32 (wrap 16 x.mean) +
    pf 16 (wrap 16 x.min) + wrap 16 x.max)
  s1.updRing fun r => { r with summary := r.summary.set g own }

/-- The summaries of the active's strings, and the resync its standby has asked for (R377, R412, log 78). -/
def State.summaries (s : State) : State :=
  let s1 := if s.twin.role = .active ∧ s.ringEn = true then
      ((List.range 16).filter fun n => s.pu 0x0802 n 0 1 != 0).foldl State.summarySend s
    else s
  if s1.twin.role = .active ∧ s1.twin.resync = true ∧ (s1.le.walk.isSome = true ∨ s1.le.running = false) then s1.resyncSend else s1

/-- Takes one action. -/
def State.act (s : State) : Act → State
  | .blockReset src inst => s.blockReset src inst
  | .memberLost lane auth => (s.lostMember lane auth).imageLost lane
  | .trip str cause lane => s.trip str cause lane
  | .urgent lane cause => s.urgentBypass lane cause
  | .svcLink lane up => s.svcChange lane up
  | .dtFloor lane res => s.dtFloorRead lane res
  | .sample lane chan => ((s.protSample lane chan).rideSample lane chan).enSample lane chan
  | .health lane => (s.healthTaken lane).thermHealth lane
  | .epFault lane code => s.faultTaken lane code
  | .surrender => s.surrender
  | .chipReset cause src => s.chipReset cause src
  | .imageSent lane => s.imageSent lane
  | .roleChanged => s.roleFollow
  | .timeStepped old => s.scaleMoved old
  | .limits => s.enAllLimits
  | .summaries => s.summaries

/-- Takes the actions that wait, first in, first out; the fuel bounds one step's chain, and what it leaves is taken in the next (log 5). -/
def State.settleN : Nat → State → State
  | 0, s => s
  | n + 1, s =>
    match s.todo with
    | [] => s
    | a :: r => State.settleN n ((s.updTodo fun _ => r).act a)

/-- The sequence in ENABLE: the string it waits for has tripped and is skipped, or will not come and STAGE_GAP begins (R358). -/
def State.rideWatch (s : State) : State :=
  let r := s.prot.ride
  if r.st = .enable ∧ r.gapFrom = none ∧ s.rideRuns = true then
    match s.rideOrder[r.index]? with
    | none => s
    | some str =>
      if (s.str str).st = .tripped then (s.note 0x08 0x0C03 (leBytes 1 str)).rideReached str
      else if (s.str str).st = .stopped then s.rideReached str
      else s
  else s

/-- Takes every action that waits (log 5). -/
def State.settle (s : State) : State := ((s.settleN 100000).rideWatch).settleN 100000

/-- The end of a step: the actions it set off are taken (log 5). -/
def State.done (s : State) : Host.Outcome State Fault Refusal := .next s.settle

end Sys2Proof.Machine
end

