-- ==== Sys2Proof/Machine/AuxDrives.lean ====
section
/-!
DEFINITION. The meanings of the rows of the auxiliary drives (chapter 14).
-/

namespace Sys2Proof.Machine

/-- AUX_PERIOD_BOUNDARY (R478 to R487). -/
def execAuxPeriodBoundary (b : Fin 2) (s : State) : Host.Outcome State Fault Refusal :=
  if (s.br b).next ≤ s.mono ∧ s.sys.stage ≠ .inReset then (s.auxBoundary b).done else .next s

/-- A high side that is due on after a refresh without its supply: forced off until the next boundary (R486). -/
def State.hsUnder (s : State) (b p : Nat) : State :=
  (((s.swOff b (2 * p)).swOff b (2 * p + 1)).modAph b p fun y => { y with level := none, refresh := 0 }).modBr b fun x =>
    { x with edges := x.edges.filter fun e => e.k / 2 != p }

/-- One edge takes place (R473, R480, R483, R486). -/
def State.auxEdge (s : State) (b : Nat) (e : AuxEdge) : State :=
  let p := e.k / 2
  if e.on then
    if e.check && !(s.sw b e.k).sg then (s.hsUnder b p).fire 0x6C b (leBytes 1 p) else s.tryOn b e.k e.at_
  else
    let open_ := e.judged && s.auxAdapts b && (s.sw b e.k).on
    let s1 := s.swOff b e.k
    if open_ then s1.modAph b p fun y => { y with judge := some { tOff := e.at_, up := decide (e.k % 2 = 1) } } else s1

/-- AUX_SCHEDULED_EDGE (R473, R480, R485, R486): the earliest edge that is due. -/
def execAuxScheduledEdge (b : Fin 2) (s : State) : Host.Outcome State Fault Refusal :=
  match (s.br b).edges with
  | e :: r =>
    if e.at_ ≤ s.mono ∧ s.aux.driving = true then ((s.modBr b fun x => { x with edges := r }).auxEdge b e).done else .next s
  | [] => .next s

/-- AUX_OFF_RISE (R471, R473, R474, R496): a turn-on that waits for it takes place 2 steps later, or is abandoned where its own gate
supply has fallen (log 134). -/
def execAuxOffRise (b : Fin 2) (k : Fin 6) (s : State) : Host.Outcome State Fault Refusal :=
  let s1 := (s.modSw b k fun x => { x with off := true, offSeen := x.offSeen || !x.on }).condOff 0x6A b k
  let o := swOther k
  let x := s1.sw b o
  if x.pend.isSome && !(s1.sw b k).on then
    (if x.sg && !x.locked then (s1.swOn b o (s.mono + stp 2)).bump 0x120D b 0
     else (((s1.modSw b o fun y => { y with cmd := false, pend := none }).dropJudge b o).shortFail b o)).done
  else s1.done

/-- AUX_CONF_TIMEOUT_EXPIRE (R474, R483). -/
def execAuxConfTimeoutExpire (b : Fin 2) (k : Fin 6) (s : State) : Host.Outcome State Fault Refusal :=
  match (s.sw b k).pend with
  | some t =>
    if s.elapsed t (stp (s.pu 0x1208 b 0 2)) = true then
      let s1 := ((s.modSw b k fun x => { x with cmd := false, pend := none }).bump 0x120D b 1).fire 0x69 b (leBytes 1 k)
      let s2 := s1.modAph b (k / 2) fun y => { y with judge := y.judge.map fun j => { j with lost := true } }
      ((s2.auxTryJudge b (k / 2)).shortFail b k).done
    else .next s
  | none => .next s

/-- AUX_OFF_STUCK_TIMEOUT (R475). -/
def execAuxOffStuckTimeout (b : Fin 2) (k : Fin 6) (s : State) : Host.Outcome State Fault Refusal :=
  let x := s.sw b k
  match x.offAt with
  | some t =>
    if x.on = false ∧ x.offSeen = false ∧ x.off = false ∧ s.elapsed t (us 2) = true then (s.condOn 0x6A b k (leBytes 1 k)).done
    else .next s
  | none => .next s

/-- AUX_SG_EDGE (R476): the gate-supply input changes. -/
def execAuxSgEdge (b : Fin 2) (k : Fin 6) (level : Bool) (s : State) : Host.Outcome State Fault Refusal :=
  if (s.sw b k).sg = level then .next s else .next (s.modSw b k fun x => { x with sg := level, sgAt := s.mono })

/-- AUX_SG_FILTER_EXPIRE (R476): the switch is locked out, or its lockout ends. -/
def execAuxSgFilterExpire (b : Fin 2) (k : Fin 6) (s : State) : Host.Outcome State Fault Refusal :=
  let x := s.sw b k
  if s.elapsed x.sgAt (stp (s.pu 0x1208 b 2 2)) = false then .next s
  else if x.sg = false ∧ x.locked = false then
    let s1 := (((s.swOff b k).dropJudge b k).modSw b k fun y => { y with locked := true }).bump 0x120D b 5
    ((s1.condOn 0x6B b k (leBytes 1 k)).shortFail b k).done
  else if x.sg = true ∧ x.locked = true then ((s.modSw b k fun y => { y with locked := false }).condOff 0x6B b k).done
  else .next s

/-- AUX_NODE_CHANGE (R483): the node's first change in the transition's direction, less NODE_LAT. -/
def execAuxNodeChange (b : Fin 2) (p : Fin 3) (level : Bool) (s : State) : Host.Outcome State Fault Refusal :=
  let t : Int := (s.mono + stp 2 : Nat) - (stp (s.auxDt b 18) : Nat)
  let s1 := s.modAph b p fun y =>
    { y with node := level,
             judge := y.judge.map fun j =>
               if j.tx.isNone && (j.up == level) && decide (s.mono ≤ j.tOff + us 2) then { j with tx := some t } else j }
  (s1.auxTryJudge b p).done

/-- AUX_NODE_WINDOW_END (R483). -/
def execAuxNodeWindowEnd (b : Fin 2) (p : Fin 3) (s : State) : Host.Outcome State Fault Refusal := (s.auxTryJudge b p).done

/-- AUX_TRIP_PIN_EDGE (R471, R488). -/
def execAuxTripPinEdge (b i : Fin 2) (level : Bool) (s : State) : Host.Outcome State Fault Refusal :=
  .next (s.modBr b fun x => { x with trip := x.trip.mod {} i fun t =>
    { t with lowSince := if level then none else some (t.lowSince.getD s.mono) } })

/-- AUX_TRIP_ACTIVE (R488 to R490): an enabled input becomes active (log 134). -/
def execAuxTripActive (b i : Fin 2) (s : State) : Host.Outcome State Fault Refusal :=
  if s.auxActive b i = true ∧ bit (s.pu 0x1209 b (4 * i + 3) 1) 0 = true ∧ ((s.br b).trip.get {} i).latched = false then
    (s.auxTrip b i).done
  else .next s

/-- AUX_DRIVE_START (R472, R492, R493): 1 µs after the unit has become one that drives. -/
def execAuxDriveStart (s : State) : Host.Outcome State Fault Refusal :=
  if s.auxMay = true ∧ s.aux.driving = false ∧ s.elapsed s.twin.roleMono 8000 = true then s.auxStart.done else .next s

/-- AUX_TRIP_CLEAR (R491, R495). -/
def execAuxTripClear (mb : Fin 8) (s : State) : Host.Outcome State Fault Refusal :=
  (s.withWrite mb 0x1220 fun q s =>
    let b := uAt q.payload 0 1
    let m := uAt q.payload 1 1
    let mask := fun (f : Nat → Bool) => (List.range 2).foldl (fun n i => n + (if bit m i && f i then 2 ^ i else 0)) 0
    let active := mask (s.auxActive b)
    let latched := mask fun i => ((s.br b).trip.get {} i).latched
    if 1 < b then s.refuse mb stBadParam 0x05
    else if active ≠ 0 then s.refuse mb stTrip 0xB1
    else if latched = 0 then s.refuse mb stRefused 0xB2
    else (s.auxClear b latched).finishWrite mb q (leBytes 1 latched ++ [0, 0, 0])).done

/-- AUX_SAFE (R487, R495, R496). -/
def execAuxSafe (mb : Fin 8) (s : State) : Host.Outcome State Fault Refusal :=
  (s.withWrite mb 0x1221 fun q s =>
    let b := uAt q.payload 0 1
    let a := uAt q.payload 1 1
    if 1 < b ∨ 1 < a then s.refuse mb stBadParam 0x05
    else (s.auxAct b (a == 1)).finishWrite mb q (leBytes 4 s.shortNow)).done

end Sys2Proof.Machine
end

