-- ==== Sys2Proof/Machine/Link.lean ====
section
/-!
DEFINITION. The meanings of the rows of chapter 04 but for DOWNSTREAM_SLOT: blocks received on a lane, authentication, PARAM
exchanges and the link commands; and of TIME_SYNC_REPLY_RX and TS_INTERVAL_EXPIRE of chapter 05.
-/

namespace Sys2Proof.Machine

/-- A received block is taken only while the lane is block-locked (R109). -/
def State.onRx (s : State) (lane : Nat) (f : State → State) : Host.Outcome State Fault Refusal :=
  if (s.lane lane).st.receives = true then (f s).done else .next s

/-- MISDIRECTED_RX (R140, R371, R406): discarded and counted on the lane's own page. It passed its check, so it counts as a valid block for
SEQ and for the upstream's loss (log 125). -/
def execMisdirectedRx (lane : Fin 132) (h : RxHeader) (s : State) : Host.Outcome State Fault Refusal :=
  s.onRx lane fun s =>
    s.svcTake lane h fun s1 =>
      if lane.val < 128 then s1.bump 0x050B lane 3
      else if lane.val < 130 then s1.bump 0x0E05 noInst 6
      else s1

/-- A valid upstream IDLE (R139, R140, R148, R179): its payload is ignored. -/
def execIdleBlockRx (lane : Fin 132) (h : RxHeader) (s : State) : Host.Outcome State Fault Refusal :=
  s.onRx lane fun s => if lane.val < 128 then s.rxPort lane h id else s.svcTake lane h id

/-! ### Reports -/

/-- A raw value converted under R26. -/
def convert (e : Bytes) (c : Nat) (raw : Int) : Int := sat16 (raw * eGain e c / 16384 + eOffset e c)

/-- SAMPLE_RX (R26, R157, R677): the time is rebuilt, the values converted and taken as the channels' latest. -/
def execSampleRx (lane : Fin 128) (h : RxHeader) (p : BitVec 96) (s : State) : Host.Outcome State Fault Refusal :=
  s.onRx lane fun s =>
    let s1 := s.rxCommon lane h
    let d := sdiff 24 (pbits p 95 72) (s.now % 2 ^ 24)
    if 800 < d then s1.bump 0x050B lane 5
    else
      let t := ((s.now : Int) + d).toNat
      let g := 4 * (pbits p 71 64 % 2)
      let e := s.entry lane
      (List.range 4).foldl (fun s i =>
        if eKind e (g + i) = 0 then s
        else
          let v := convert e (g + i) (signed 16 (pbits p (63 - 16 * i) (48 - 16 * i)))
          (s.modLink lane fun l =>
            let o := l.samples.get {} (g + i)
            { l with samples := l.samples.set (g + i) { value := v, at_ := some t, value0 := o.value, at0 := o.at_ } }).later
            (.sample lane (g + i))) s1

/-- The payload bytes of a block in received order. -/
def rxBytes (p : BitVec 96) : Bytes := (leBytes 12 p.toNat).reverse

/-- HEALTH_RX (R159, R183): EP_STATUS takes it, and R348 and R459 look at it. -/
def execHealthRx (lane : Fin 128) (h : RxHeader) (p : BitVec 96) (s : State) : Host.Outcome State Fault Refusal :=
  s.onRx lane fun s =>
    let s1 := s.rxCommon lane h
    if pbits p 95 88 = 1 then
      (s1.modLink lane fun l =>
        { l with health := rxBytes p, healthAt := s.shortNow, healthMono := some s.mono }).later (.health lane)
    else s1

/-- PARAM_ACK_RX (R148, R163): ends the exchange whose TAG and PARAM_ID it carries. -/
def execParamAckRx (lane : Fin 128) (h : RxHeader) (p : BitVec 96) (s : State) : Host.Outcome State Fault Refusal :=
  s.onRx lane fun s => s.rxPort lane h fun s =>
    match (s.lnk lane).param with
    | some x =>
      if pbits p 95 88 = 2 ∧ x.tag = pbits p 79 72 ∧ x.id = pbits p 63 48 then
        s.paramEnd lane (some (pbits p 87 80, pbits p 31 0))
      else s
    | none => s

/-- FAULT_RX (R160, R342): copies of equal CODE and TIME are one fault, which raises EP_FAULT and takes its reaction (log 41). -/
def execFaultRx (lane : Fin 128) (h : RxHeader) (p : BitVec 96) (s : State) : Host.Outcome State Fault Refusal :=
  s.onRx lane fun s =>
    let s1 := s.rxCommon lane h
    let code := pbits p 95 88
    let t := pbits p 63 32
    let seen := (s.lnk lane).faultsSeen.filter fun x => decide (s.mono < x.2.2 + 2 ^ 31)
    if seen.any fun x => x.1 == code && x.2.1 == t then s1
    else
      ((s1.modLink lane fun l => { l with faultsSeen := (code, t, s.mono) :: seen }).fire 0x38 lane
        (leBytes 1 code ++ leBytes 1 (pbits p 87 84) ++ leBytes 1 (pbits p 79 72) ++ leBytes 1 (pbits p 71 64) ++ leBytes 4 t ++
          leBytes 4 (pbits p 31 0))).later (.epFault lane code)

/-- The pantry areas that are written beside a slot: the other slots' that are in use, and the notification ring's while it is on (R92, R186). -/
def State.slotOthers (s : State) (k : Nat) : List (Nat × Nat) :=
  (if s.notif.enable then [(s.notif.base * 8192, 8192)] else []) ++
    (((List.range 4).filter fun j => j != k && s.pu 0x050E j 0 2 != 0xFFFF).map fun j => (s.pu 0x050E j 4 4, s.pu 0x050E j 8 4))

/-- STREAM_RX (R161): one record of 16 bytes into the area of each slot that names the lane. What is written where areas overlap is a free
value (R186, log 35, log 2). -/
def execStreamRx (lane : Fin 128) (h : RxHeader) (p : BitVec 96) (s : State) : Host.Outcome State Fault Refusal :=
  s.onRx lane fun s =>
    (List.range 4).foldl (fun s k =>
      if s.pu 0x050E k 0 2 = lane.val then
        let w := s.links.wptr.get 0 k
        let a := s.pu 0x050E k 4 4 + w
        let clash := (s.slotOthers k).any fun x => decide (x.1 < a + 16) && decide (a < x.1 + x.2)
        let s1 := if clash then (s.updFreeCount (· + 16)).mpWrite a (s.freeBytes 16) else s.mpWrite a (rxBytes p ++ leBytes 4 s.shortNow)
        s1.updLinks fun l => { l with wptr := l.wptr.set k ((w + 16) % max 16 (s.pu 0x050E k 8 4)) }
      else s) (s.rxCommon lane h)

/-- TIME_SYNC_REPLY_RX (R168, R205, R371, R407): per port on a cell lane; the first copy on the twin lanes, whose exchanges are one (log 40). -/
def execTimeSyncReplyRx (lane : Fin 132) (h : RxHeader) (p : BitVec 96) (s : State) : Host.Outcome State Fault Refusal :=
  s.onRx lane fun s =>
    let take := fun (s : State) => if pbits p 95 88 = 3 then s.takeReply (queueLane lane) p else s
    if lane.val < 128 then s.rxPort lane h take else s.svcTake lane h take

/-! ### Authentication (R170 to R173) -/

/-- AUTH_IDENT_RX (R42, R170, R183): compared with the roll each time one arrives; an exchange in progress takes its ENDPOINT_ID. -/
def execAuthIdentRx (lane : Fin 128) (h : RxHeader) (p : BitVec 96) (s : State) : Host.Outcome State Fault Refusal :=
  s.onRx lane fun s => s.rxPort lane h fun s =>
    if pbits p 95 88 = 0x11 then
      (s.modLink lane fun l =>
        { l with ident := { id := pbits p 63 0, cellType := pbits p 87 80, version := pbits p 79 64, fresh := true },
                 authId := if l.auth = .running then some (pbits p 63 0) else l.authId }).identCheck lane
    else s

/-- AUTH_CHALLENGE_RX (R170). -/
def execAuthChallengeRx (lane : Fin 128) (h : RxHeader) (p : BitVec 96) (s : State) : Host.Outcome State Fault Refusal :=
  s.onRx lane fun s => s.rxPort lane h fun s =>
    if pbits p 95 88 = 0x12 ∧ (s.lnk lane).auth = .running then
      s.modLink lane fun l => { l with nonceE := some (pbits p 63 0) }
    else s

/-- A 64-bit value as bytes, most significant first (R171). -/
def msb8 (v : Nat) : Bytes := (leBytes 8 v).reverse

/-- A MAC of R171: the most significant 64 bits of the CMAC over a tag byte, ENDPOINT_ID and two nonces. -/
def macOf (key : Bytes) (tag id a b : Nat) : Nat := cmac64 key (leBytes 1 tag ++ msb8 id ++ msb8 a ++ msb8 b)

/-- The key of an endpoint in the strongbox, while it is not being wiped (R171, R437). -/
def State.linkKey (s : State) (id : Nat) : Option Bytes :=
  if s.pantry.wiping.isSome then none else (s.pantry.linkKeys.find? fun k => k.1 == id).map (·.2)

/-- AUTH_RESPONSE_RX (R170 to R173): MAC_E is checked unless AUTH_REQUIRED is 0, and the head's RESPONSE and RESULT go out. An unknown
ENDPOINT_ID fails the exchange whatever AUTH_REQUIRED is (log 126); where no key gives MAC_H it is a free value (log 2). -/
def execAuthResponseRx (lane : Fin 128) (h : RxHeader) (p : BitVec 96) (s : State) : Host.Outcome State Fault Refusal :=
  s.onRx lane fun s => s.rxPort lane h fun s =>
    let l := s.lnk lane
    if pbits p 95 88 = 0x13 ∧ l.auth = .running ∧ l.headOutcome = none then
      let key := match l.authId with
        | some i => s.linkKey i
        | none => none
      let i := l.authId.getD 0
      let ne := l.nonceE.getD 0
      let good := match key, l.nonceE with
        | some k, some _ => macOf k 0x45 i l.nonceH ne == pbits p 63 0
        | _, _ => false
      let open_ := decide (s.p0 0x0501 = 0) && key.isSome
      let macH := match key, l.nonceE with
        | some k, some _ => macOf k 0x48 i ne l.nonceH
        | _, _ => s.freeVal
      let out : AuthSt := if open_ then .open_ else if good then .passed else .failed
      let code := if open_ then 2 else if good then 0 else 1
      let s1 := ((s.tookFree.queueBlock lane tyAuth (pf 88 2 + macH)).queueBlock lane tyAuth (pf 88 3 + pf 80 code)).modLink lane
        fun l => { l with headOutcome := some out }
      if out = .failed then s1.authFail lane (if key.isSome then 0 else 1) else s1
    else s

/-- AUTH_RESULT_RX (R172). A PASS that comes before the head has its own outcome completes nothing (log 127). -/
def execAuthResultRx (lane : Fin 128) (h : RxHeader) (p : BitVec 96) (s : State) : Host.Outcome State Fault Refusal :=
  s.onRx lane fun s => s.rxPort lane h fun s =>
    let l := s.lnk lane
    if pbits p 95 88 = 0x14 ∧ l.auth = .running then
      if pbits p 87 80 ≠ 0 then s.authFail lane 2
      else
        match l.headOutcome with
        | some o => s.authPass lane o
        | none => s
    else s

/-- Whether a mailbox waits for an exchange of the twin on a lane, which has ended after 1.0 ms (R185). -/
def State.twinAuthDue (s : State) (lane mb : Nat) : Bool :=
  match (s.box mb).waiting with
  | .twinAuth l t => l == lane && s.elapsed t (ms 1)
  | _ => false

/-- Answers the EP_REAUTHs of the twin alone whose exchange has ended. AUTH_STATE of the twin comes with no block of the spec: a free value
among PASSED, FAILED and OPEN (R185, log 2). -/
def State.twinAuthEnd (s : State) (lane : Nat) : State :=
  (List.range 8).foldl (fun s mb =>
    if s.twinAuthDue lane mb then s.tookFree.replyOk mb (leBytes 1 (2 + s.freeVal % 3) ++ [0, 0, 0]) else s) s

/-- AUTH_TIMEOUT (R170, R172, R185, log 39). -/
def execAuthTimeout (lane : Fin 128) (s : State) : Host.Outcome State Fault Refusal :=
  let s1 := s.twinAuthEnd lane
  if (s.lnk lane).auth = .running ∧ s.elapsed (s.lnk lane).authAt (ms 1) = true then (s1.authFail lane 3).done else s1.done

/-- AUTH_RETRY_EXPIRE (R172). -/
def execAuthRetryExpire (lane : Fin 128) (s : State) : Host.Outcome State Fault Refusal :=
  if (s.lnk lane).auth = .failed ∧ s.elapsed (s.lnk lane).authAt (ms (s.p0 0x0503)) = true ∧ (s.lane lane).st.trained = true then
    (s.authStart lane).done
  else .next s

/-! ### Timers of a lane -/

/-- ROLE_REPEAT_DUE (R143, log 21): the next block is the ROLE_REPEAT-th since the latest ROLE. -/
def execRoleRepeatDue (lane : Fin 128) (s : State) : Host.Outcome State Fault Refusal :=
  if (s.lane lane).st.working = true ∧ s.p0 0x0508 ≤ (s.lnk lane).sinceRole + 1 then
    .next (s.modLink lane fun l => { l with roleRepeat := true })
  else .next s

/-- PARAM_RETRY_TIMEOUT (R163): the PARAM block is sent again, up to four sends in all. On a lane that cannot send, the exchange ends
without an acknowledgement (R184, log 128). -/
def execParamRetryTimeout (lane : Fin 128) (s : State) : Host.Outcome State Fault Refusal :=
  match (s.lnk lane).param with
  | some x =>
    let sends := (s.lane lane).st.working
    if s.elapsed x.sentAt (us 50) = true ∧ (sends = false ∨ ((s.lnk lane).queue.any fun b => b.type == tyParam) = false) then
      if x.tries < 4 ∧ sends = true then
        let y := { x with tries := x.tries + 1, sentAt := s.mono }
        ((s.modLink lane fun l => { l with param := some y }).paramSend lane y).done
      else (s.paramEnd lane none).done
    else .next s
  | none => .next s

/-- UP_LOSS_TIMEOUT (R179, R343, R353). -/
def execUpLossTimeout (lane : Fin 128) (s : State) : Host.Outcome State Fault Refusal :=
  if (s.lane lane).st.working = true ∧ s.idleOk lane = false ∧ (s.lnk lane).stale = false ∧
      s.elapsed (s.lnk lane).validAt (us (s.p0 0x050A)) = true then
    let s1 := s.modLink lane fun l => { l with stale := true }
    ((if s.darkExempt lane then s1 else s1.condOn 0x14 lane 0 []).later (.memberLost lane)).done
  else .next s

/-- The slots of a lane's SYNC that have come by an elapsed time: TS_INTERVAL apart, those of the 128 lanes spread evenly in lane order
(R204, log 42). -/
def syncSlots (interval lane t : Nat) : Nat := if interval = 0 then t else (t + interval - lane * interval / 128) / interval

/-- TS_INTERVAL_EXPIRE (R204): a SYNC on an authenticated lane in its slot of every TS_INTERVAL, or within 20 µs where one is owed
(log 42). -/
def execTsIntervalExpire (lane : Fin 128) (s : State) : Host.Outcome State Fault Refusal :=
  let d := s.dly lane
  let slots := syncSlots (us (s.p0 0x0608)) lane
  let due := match d.lastSync with
    | some t => decide (slots t < slots s.mono) || s.elapsed t (us (s.p0 0x0608))
    | none => true
  if (s.lane lane).st.trained = true ∧ (d.syncOwed = true ∨ ((s.lnk lane).passed = true ∧ due = true)) then
    (s.queueSync lane).done
  else .next s

/-! ### Link commands (R184, R185) -/

/-- EP_PARAM (R163, R184): the access is sent, and the reply waits for its end. -/
def execEpParam (mb : Fin 8) (s : State) : Host.Outcome State Fault Refusal :=
  (s.withCmd mb 0x0510 true fun q s =>
    let lane := uAt q.payload 0 2
    let op := uAt q.payload 2 1
    if 127 < lane ∨ 1 < op then s.refuse mb stBadParam 0x05
    else if (s.lane lane).st.trained = false ∨ (s.lnk lane).passed = false then s.refuse mb stRefused 0x24
    else
      (s.paramStart lane
        { id := uAt q.payload 4 2, op, value := if op = 1 then uAt q.payload 8 4 else 0, for_ := .mailbox mb }).waitFor mb
        (.epParam lane)).done

/-- Restarts a lane's exchange for a mailbox, which waits for its end; the lane has no working link while it runs (R170, R172, R185). An
EP_REAUTH that waited for the exchange so ended is answered RUNNING (log 9). -/
def State.reauth (s : State) (mb lane : Nat) : State :=
  let s1 := s.reauthReply lane 1
  let s2 := if (s.lnk lane).passed then s1.later (.memberLost lane) else s1
  ((s2.modLink lane fun l => { l with authMb := some mb }).authStart lane).waitFor mb (.reauth lane)

/-- An EP_REAUTH that the standby has taken: of both units this one's exchange begins, of the twin alone its end is awaited. A lane that has
left LINKED and SLEEP meanwhile answers with its AUTH_STATE (R185). -/
def State.reauthTaken (s : State) (mb : Nat) (q : Request) : State :=
  let lane := uAt q.payload 0 2
  if uAt q.payload 2 1 = 1 then s.waitFor mb (.twinAuth lane s.mono)
  else if (s.lane lane).st.trained then s.reauth mb lane
  else s.replyOk mb (leBytes 1 (s.lnk lane).auth.code ++ [0, 0, 0])

/-- EP_REAUTH (R170, R185): with UNIT 1 or 2 the standby takes it first (log 9). -/
def execEpReauth (mb : Fin 8) (s : State) : Host.Outcome State Fault Refusal :=
  (s.withCmd mb 0x0511 true fun q s =>
    let lane := uAt q.payload 0 2
    let unit := uAt q.payload 2 1
    if 127 < lane ∨ 2 < unit then s.refuse mb stBadParam 0x05
    else if 1 ≤ unit ∧ s.hasStandby = false then s.refuse mb stBadParam 0x22
    else if 1 ≤ unit ∧ s.forwardBarred = true then s.refuse mb stRefused 0x80
    else if unit = 1 then (s.forwardRequest mb q).waitFor mb (.standbyAck stOk [])
    else if s.twin.role = .active ∧ eEnabled (s.entry lane) = true ∧ s.strRuns (s.strOf lane) = true then
      s.refuse mb stRefused 0x20
    else if (s.lane lane).st.trained = false then s.refuse mb stRefused 0x24
    else if unit = 2 then (s.forwardRequest mb q).waitFor mb (.standbyAck stOk [])
    else s.reauth mb lane).done

end Sys2Proof.Machine
end

