-- ==== Sys2Proof/Machine/DeadTime.lean ====
section
/-!
DEFINITION. The meanings of the rows of the dead-time block and the sorter (chapter 07).
-/

namespace Sys2Proof.Machine

/-- A NODE_EDGE record from its 48 bits: leg, EDGE_ID and the record; none where unused (R158). -/
def State.nodeRec (s : State) (r : Nat) : Option (Nat × Nat × NodeRec) :=
  let kind := bits r 3 2
  if kind = 0 then none
  else some (bits r 7 5, bits r 15 8, { time := (s.tickOf (bits r 47 16) : Int), rising := bit r 4, kind })

/-- Takes a record if it is used. -/
def State.takeNodeRec (s : State) (lane r : Nat) : State :=
  match s.nodeRec r with
  | some x => s.dtRecord lane x.1 x.2.1 x.2.2
  | none => s

/-- NODE_EDGE_RX (R158, R274, R275): both records are matched, and transitions with both records in are judged. -/
def execNodeEdgeRx (lane : Fin 128) (h : RxHeader) (p : BitVec 96) (s : State) : Host.Outcome State Fault Refusal :=
  s.onRx lane fun s =>
    ((s.rxCommon lane h).takeNodeRec lane (pbits p 95 48)).takeNodeRec lane (pbits p 47 0)

/-- DT_JUDGE_TIMEOUT (R274): the transitions whose time of judgement has come are judged with the records received. -/
def execDtJudgeTimeout (lane : Fin 128) (leg : Fin 6) (s : State) : Host.Outcome State Fault Refusal :=
  let due := (s.dleg lane leg).pend.filter fun p => decide (p.tOn + 32000 + s.laneDelay lane ≤ (s.now : Int))
  if due.isEmpty then .next s else (due.foldl (fun s p => s.dtJudge lane leg p) s).done

/-- SORT_STATS_FORMED (R286, R288): the order and statistics of the latest boundary count as formed; the active sends the order. -/
def execSortStatsFormed (str : Fin 16) (s : State) : Host.Outcome State Fault Refusal :=
  let x := s.srt str
  if x.stat.at_ + 2560 ≤ s.now ∧ x.formed ≠ x.stat then
    let s1 := s.modSrt str fun y => { y with formed := y.stat }
    (if s.twin.role = .active then s1.twState 2 else s1).done
  else .next s

/-- TWIN_ORDER_TIMEOUT (R288): the standby plans with its own order, and counts TWIN_ORDER_MISS. -/
def execTwinOrderTimeout (str : Fin 16) (s : State) : Host.Outcome State Fault Refusal :=
  if (s.str str).orderWait = true ∧ (s.str str).bAt + 6400 ≤ s.now then
    (((s.bump 0x0A09 str 2).modSrt str fun x => { x with judgedK := some (s.str str).k }).planNow str).done
  else .next s

/-! ### Commands -/

/-- The lanes of a DT_RESET with at least one adapted leg selected (R291). -/
def State.resetLanes (s : State) (first count legs : Nat) : List Nat :=
  ((List.range count).map (first + ·)).filter fun l =>
    (List.range 6).any fun g => bit legs g && legAdapted (s.entry l) g

/-- Resets the selected legs of a lane: at the string's next boundary, or at once while it is stopped (R291). -/
def State.dtReset (s : State) (lane legs : Nat) : State :=
  ((List.range 6).filter fun g => bit legs g).foldl (fun s g =>
    let s1 := s.modDleg lane g fun d => { d with resetAt := some s.now }
    if s.strStopped (s.strOf lane) then s1.dtToInit lane g
    else (s1.modDleg lane g fun d => { d with resetWait := true, bad := 0 })) s

/-- DT_RESET (R291). -/
def execDtReset (mb : Fin 8) (s : State) : Host.Outcome State Fault Refusal :=
  (s.withWrite mb 0x0920 fun q s =>
    let first := uAt q.payload 0 1
    let n := uAt q.payload 1 1
    let legs := uAt q.payload 2 1
    if !inR first 0 127 || !inR n 1 128 || decide (128 < first + n) || decide (63 < legs) then s.refuse mb stBadParam 0x05
    else
      let lanes := s.resetLanes first n legs
      let by_ := listMax (s.now :: ((lanes.filter fun l => !s.strStopped (s.strOf l)).map fun l => (s.str (s.strOf l)).next))
      let s1 := ((List.range n).map (first + ·)).foldl (fun s l => s.dtReset l legs) s
      s1.finishWrite mb q (leBytes 2 lanes.length ++ [0, 0] ++ leBytes 4 (by_ % 2 ^ 32))).done

/-- The record of one member in SORT_READ's reply (R293). -/
def sortRec (m : SortMember) : Bytes :=
  leBytes 1 m.pos ++ leBytes 1 m.lane ++
    leBytes 1 (b2n (m.after != 0) + 2 * b2n (decide (m.after < 0)) + 4 * b2n m.stale + 8 * b2n m.noKey) ++ [0] ++ leBytesI 2 m.v

/-- SORT_READ (R293, log 24). -/
def execSortRead (mb : Fin 8) (s : State) : Host.Outcome State Fault Refusal :=
  .next (s.withCmd mb 0x0A20 false fun q s =>
    let str := uAt q.payload 0 1
    if 15 < str then s.refuse mb stBadParam 0x05
    else
      let x := s.srt str
      s.replyOk mb (leBytes 4 x.stat.k ++ leBytes 1 x.order.length ++ leBytesI 1 x.stat.dir ++ [0, 0] ++ (x.order.map sortRec).flatten))

end Sys2Proof.Machine
end

