-- ==== Sys2Proof/Machine/Energy.lean ====
section
/-!
DEFINITION. The meanings of the rows of energy accounting and the battery domain (chapter 17).
-/

namespace Sys2Proof.Machine

/-! ### Energy -/

/-- Whether the next copy is due: 100 ms ± 10 ms after the one before (R555). -/
def State.copyDue (s : State) : Bool :=
  match s.en.copyAt with
  | some t => s.elapsed t (ms 90)
  | none => true

/-- ENERGY_COPY_PERIOD (R555). -/
def execEnergyCopyPeriod (s : State) : Host.Outcome State Fault Refusal :=
  if s.sys.stage = .serving ∧ s.copyDue = true then .next s.enCopy else .next s

/-- DEMAND_INTERVAL_END (R556, R557): the RTC has reached the next multiple of 900 s. -/
def execDemandIntervalEnd (s : State) : Host.Outcome State Fault Refusal :=
  if s.sys.stage = .serving ∧ s.bat.rtcSec / 900 * 900 ≠ s.en.from_ then s.demandEnd.done else .next s

/-- RTC_SECOND (R558, R559, R565): the next whole second of the RTC (log 97). -/
def execRtcSecond (s : State) : Host.Outcome State Fault Refusal :=
  if s.bat.powered = false then .next s
  else
    let s1 := match s.bat.rtcPending with
      | some r => if r.ptp then s.updBat fun b => { b with rtcSec := (b.rtcSec + 1) % 2 ^ 32, secAt := s.mono } else s.rtcLoad r
      | none => s.updBat fun b => { b with rtcSec := (b.rtcSec + 1) % 2 ^ 32, secAt := s.mono }
    if s1.sys.stage = .serving then s1.enAllLimits.done else s1.done

/-- EN_GRACE_EXPIRE (R560). -/
def execEnGraceExpire (port : Fin 16) (s : State) : Host.Outcome State Fault Refusal :=
  let x := s.enPort port
  match x.over_ with
  | some t =>
    if x.armed = true ∧ s.elapsed t (ms (s.pu 0x1506 port 4 2)) = true then
      (((s.modEn port fun y => { y with armed := false }).bump 0x1509 port 3).fire 0x80 port
        (leBytesI 4 (x.p.tdiv 1000000) ++ leBytesI 2 x.limit ++ leBytes 1 (b2n (decide (x.p < 0))))).done
    else .next s
  | none => .next s

/-- ENERGY_READ (R561, R562, log 97): the number drawn for the signature is free (log 7). -/
def execEnergyRead (mb : Fin 8) (s : State) : Host.Outcome State Fault Refusal :=
  (s.withCmd mb 0x1510 true fun q s =>
    let n := uAt q.payload 0 1
    if 15 < n then s.refuse mb stBadParam 0x05
    else if s.enKind n = 0 then s.refuse mb stBadParam 0xD1
    else if s.fw.keyState ≠ .ready then s.refuse mb stRefused 0xD0
    else
      match s.fw.signKey with
      | none => s.refuse mb stFailed 0xD0
      | some k =>
        let r := s.readout n (slice q.payload 4 8)
        s.tookKey.replyOk mb (r ++ ecdsaSign k (sha256 r) s.freeKey)).done

/-- The maxima of a port are set to 0 (R557). -/
def State.demandZero (s : State) (n : Nat) : State :=
  s.modEn n fun x => { x with kept := { x.kept with mdImp := 0, mdImpRtc := 0, mdExp := 0, mdExpRtc := 0, resets := satN 16 (x.kept.resets + 1) } }

/-- DEMAND_RESET (R557, R563, log 95). -/
def execDemandReset (mb : Fin 8) (s : State) : Host.Outcome State Fault Refusal :=
  (s.withWrite mb 0x1511 fun q s =>
    let n := uAt q.payload 0 1
    if 15 < n ∧ n ≠ 0xFF then s.refuse mb stBadParam 0x05
    else if s.fw.locked = true then s.refuse mb stLocked 0x09
    else
      let s1 := ((if n = 0xFF then List.range 16 else [n]).foldl State.demandZero s).attic 7 0 0x1511 (leBytes 1 n)
      s1.finishWrite mb q (leBytes 2 (s1.enPort (if n = 0xFF then 0 else n)).kept.resets ++ [0, 0])).done

/-! ### The battery domain -/

/-- RTC_SET (R565, R571): the reply waits for the second. -/
def execRtcSet (mb : Fin 8) (s : State) : Host.Outcome State Fault Refusal :=
  (s.withCmd mb 0x1610 true fun q s =>
    let ptp := bit (uAt q.payload 4 1) 0
    if s.fw.locked = true then s.refuse mb stLocked 0xD4
    else if ptp = true ∧ s.p0 0x060E = 0 then s.refuse mb stRefused 0xD8
    else
      match s.bat.rtcPending with
      | some _ => s.busy mb 1000
      | none => (s.waitFor mb .rtcSet).updBat fun b => { b with rtcPending := some { mb, sec := uAt q.payload 0 4, ptp } }).done

/-- TAMP_ZEROISE (R569). -/
def execTampZeroise (mb : Fin 8) (s : State) : Host.Outcome State Fault Refusal :=
  (s.withCmd mb 0x1611 true fun q s =>
    if uAt q.payload 0 4 ≠ 0x5A45524F then s.refuse mb stBadParam 0xD5 else (s.tampEvent 0x20).replyOk mb []).done

/-- TAMPER_SAMPLE (R566, log 97). -/
def execTamperSample (levels : BitVec 4) (s : State) : Host.Outcome State Fault Refusal :=
  if s.bat.powered = false then .next s
  else
    let s1 := (List.range 4).foldl (fun s i => s.tampInput i (bit levels.toNat i)) s
    .next ((s1.updBat fun b => { b with levels := levels.toNat, drv := bit s1.freeVal 0 }).tookFree)

/-- OSC_STOP_DETECT (R566). -/
def execOscStopDetect (s : State) : Host.Outcome State Fault Refusal :=
  if s.bat.powered = true then .next (s.tampEvent 0x10) else .next s

/-- VBAT_LOW_DETECT (R566): VBAT as measured; it falls below 2.30 V while it supplies the domain. -/
def execVbatLowDetect (mv : BitVec 16) (s : State) : Host.Outcome State Fault Refusal :=
  let low := decide (mv.toNat < 2300) && s.bat.onVbat
  let s1 := s.updBat fun b => { b with vbat := mv.toNat, vbatLow := low }
  if low = true ∧ s.bat.vbatLow = false ∧ s.bat.powered = true then .next (s1.tampEvent 0x11) else .next s1

/-- TAMPER_LOG_COPY (R568). -/
def execTamperLogCopy (s : State) : Host.Outcome State Fault Refusal :=
  if s.sys.stage = .serving then s.tampCopy.done else .next s

/-- BATTERY_SWITCHOVER (R564). -/
def execBatterySwitchover (toVbat : Bool) (s : State) : Host.Outcome State Fault Refusal :=
  .next (s.updBat fun b => { b with onVbat := toVbat, vbatLow := false })

/-- BATTERY_DOMAIN_POWER_LOSS (R565): the clock, the key and the log are gone. -/
def execBatteryDomainPowerLoss (s : State) : Host.Outcome State Fault Refusal :=
  if s.bat.powered = false then .next s
  else .next (s.zeroise.updBat fun b => { copied := b.copied, rtcPending := b.rtcPending, powered := false })

/-- BATTERY_DOMAIN_POWER_RETURN (R565, R568). -/
def execBatteryDomainPowerReturn (s : State) : Host.Outcome State Fault Refusal :=
  if s.bat.powered = true then .next s
  else .next (s.updBat fun b => { copied := b.copied, rtcPending := b.rtcPending, powered := true, powerOn := true, secAt := s.mono })

end Sys2Proof.Machine
end

