-- ==== Sys2Proof/Machine/Faults.lean ====
section
/-!
DEFINITION. The meanings of the rows of the fault collector (chapter 18).
-/

namespace Sys2Proof.Machine

/-- Copies a record to the attic (R590). -/
def State.mirrorRec (s : State) (r : FaultRec) : State :=
  let r' := { r with dirty := false }
  s.updFaults fun f =>
    { f with open_ := recSet f.open_ r', mirror := (f.mirror.filter fun x => x.id != r.id) ++ [r'] }

/-- FAULT_RECORD_MIRROR (R590). -/
def execFaultRecordMirror (id : BitVec 32) (s : State) : Host.Outcome State Fault Refusal :=
  match s.faults.open_.find? fun r => r.id == id.toNat with
  | some r => if r.dirty then .next (s.mirrorRec r) else .next s
  | none => .next s

/-- FAULT_CHIP_RESET_DUE (R580, R597): every mirror is complete, or 5 ms have passed. -/
def execFaultChipResetDue (s : State) : Host.Outcome State Fault Refusal :=
  match s.faults.chipResetDue with
  | some (src, _, t) =>
    if s.faults.open_.any (·.dirty) = true ∧ s.mono < t then .next s
    else ((s.updFaults fun f => { f with chipResetDue := none }).later (.chipReset 4 src)).done
  | none => .next s

/-- The record FAULT_READ selects (R594). -/
def Faults.select (f : Faults) (id : Nat) (next : Bool) : Option FaultRec :=
  if next then f.open_.find? fun r => decide (id < r.id) else f.open_.find? fun r => r.id == id

/-- FAULT_READ (R594). -/
def execFaultRead (mb : Fin 8) (s : State) : Host.Outcome State Fault Refusal :=
  (s.withCmd mb 0x1710 false fun q s =>
    match s.faults.select (uAt q.payload 0 4) (bit (uAt q.payload 4 1) 0) with
    | none => s.replyOk mb (List.replicate 80 0)
    | some r =>
      let r' := { r with read := true, dirty := true }
      let s1 := s.updFaults fun f => { f with open_ := recSet f.open_ r' }
      s1.replyOk mb (s1.faults.recBytes r')).done

/-- The counts FAULT_CLEAR replies (R595). -/
def Faults.counts (f : Faults) : Bytes := leBytes 1 f.open_.length ++ leBytes 1 (f.open_.filter (·.pin)).length ++ [0, 0]

/-- FAULT_CLEAR (R589, R591, R595). -/
def execFaultClear (mb : Fin 8) (s : State) : Host.Outcome State Fault Refusal :=
  (s.withCmd mb 0x1711 true fun q s =>
    let id := uAt q.payload 0 4
    if id = 0xFFFFFFFF then
      if 64 ≤ s.faults.open_.length then s.refuse mb stRefused 0xE2
      else
        let s1 := (s.updFaults fun f => { f with overflow := false, overflowPin := false }).faultPin
        s1.replyOk mb s1.faults.counts
    else
      match s.faults.open_.find? fun r => r.id == id with
      | none => s.refuse mb stBadParam 0xE0
      | some r =>
        if s.faults.recPresent r then s.refuse mb stRefused 0xE1
        else if r.read = false then s.refuse mb stRefused 0xE3
        else
          let s1 := (s.updFaults fun f =>
            { f with open_ := f.open_.filter fun x => x.id != id, mirror := f.mirror.filter fun x => x.id != id }).faultPin
          s1.replyOk mb s1.faults.counts).done

/-- FAULT_INJECT (R587, R596). -/
def execFaultInject (mb : Fin 8) (s : State) : Host.Outcome State Fault Refusal :=
  (s.withCmd mb 0x1712 true fun q s =>
    let src := uAt q.payload 0 1
    let limit := uAt q.payload 1 1
    let inst := uAt q.payload 2 2
    if 4 < limit then s.refuse mb stBadParam 0x05
    else if (faultSource src).isNone then s.refuse mb stBadParam 0xE6
    else if 3 ≤ limit ∧ (List.range 16).all s.strStopped = false then s.refuse mb stRefused 0xE4
    else if s.fw.lc = .field then s.refuse mb stRefused 0xE7
    else
      let s1 := (s.fireWith src inst (slice q.payload 4 4) true limit).bump 0x1705 noInst 2
      let joined := match s.fireTarget src inst with
        | some x => x.1.id
        | none => if s1.faults.lastId = s.faults.lastId then 0 else s1.faults.lastId
      s1.replyOk mb (leBytes 4 joined)).done

/-- The values of page 0x17 that are not stored (R593). -/
def State.faultValue (s : State) (id n : Nat) : Bytes :=
  let f := s.faults
  if id = 0x1703 then
    let newest := match f.open_.getLast? with
      | some r => r.id
      | none => 0
    leBytes 1 f.open_.length ++ leBytes 1 (f.open_.filter (·.pin)).length ++ leBytes 1 (b2n f.overflow + 2 * b2n f.overflowPin) ++ [0] ++
      leBytes 4 f.lost ++ leBytes 4 newest
  else
    leBytes 1 (b2n (f.isPresent n) + 2 * b2n (f.open_.any fun r => r.holds n)) ++ [0, 0, 0] ++ leBytes 4 (f.firings.get 0 n)

end Sys2Proof.Machine
end

