-- ==== Sys2Proof/Machine/Lane.lean ====
section
/-!
DEFINITION. The meanings of the rows of chapter 03: lane PLLs, training, loss of lock, adaptation, idle and pattern tests, and the
lane commands.
-/

namespace Sys2Proof.Machine

/-! ### Lane PLLs (R111, R120) -/

/-- RACK_PLL_LOCK_START (R111): the PLL begins to lock at its staggered time after HATCH_READY. -/
def execRackPllLockStart (k : Fin 9) (s : State) : Host.Outcome State Fault Refusal :=
  match s.lanes.readyAt with
  | none => .next s
  | some t =>
    if (s.rack k).st = .off ∧ (k.val = 8 ∨ s.elapsed t (ms 2 + k.val * ms 2 - us 100) = true) then
      .next (s.modRack k fun r => { r with st := .locking })
    else .next s

/-- RACK_PLL_LOCKED (R111, R120): the PLL is locked and its lanes that are not OFF by their entry begin attempts. -/
def execRackPllLocked (k : Fin 9) (s : State) : Host.Outcome State Fault Refusal :=
  if (s.rack k).st = .locking ∨ (s.rack k).st = .relocking then
    let s1 := (s.modRack k fun r => { r with st := .locked }).condOff 0x13 k 0
    ((rackLanes k).foldl (fun s l => if (s.lane l).st = .off then s.freshAttempt l else s) s1).done
  else .next s

/-- RACK_PLL_UNLOCK (R120, R133): its lanes go OFF, tests end, and RACK_PLL_UNLOCK is raised. -/
def execRackPllUnlock (k : Fin 9) (s : State) : Host.Outcome State Fault Refusal :=
  if (s.rack k).st = .locked then
    let s1 := s.modRack k fun r => { r with st := .relocking, losses := satN 16 (r.losses + 1) }
    let s2 := (rackLanes k).foldl (fun s l => s.setLane l .off) s1
    (s2.condOn 0x13 k 0 []).done
  else .next s

/-! ### Training (R112 to R117) -/

/-- LANE_CLOCK_LOCK (R112): TRAIN_EQ after signal detect. -/
def execLaneClockLock (lane : Fin 132) (s : State) : Host.Outcome State Fault Refusal :=
  if (s.lane lane).st = .trainCdr ∧ (s.lane lane).signal = true then (s.setLane lane .trainEq).done else .next s

/-- LANE_PRESET_TRIAL_END (R112): the trial of a preset ends with its eyes; after the fourth, the preset with the largest smallest
eye is kept. Between equal smallest eyes the spec does not choose: a free value does (log 2). -/
def execLanePresetTrialEnd (lane : Fin 132) (upper middle lower : BitVec 8) (s : State) : Host.Outcome State Fault Refusal :=
  let l := s.lane lane
  if l.st = .trainEq ∧ l.presetFixed = false ∧ s.elapsed l.stateAt ((l.tried + 1) * us 500) = true then
    let eye := [upper.toNat, middle.toNat, lower.toNat].map (min 64)
    let e := eye.foldl min 64
    let best := match l.best with
      | none => (l.tried, e)
      | some (p, b) => if b < e ∨ (b = e ∧ s.freeVal % 2 = 1) then (l.tried, e) else (p, b)
    let last := decide (l.tried = 3)
    .next (s.tookFree.modLane lane fun l =>
      { l with tried := l.tried + 1, best := some best, eye, presetFixed := last, preset := if last then best.1 else l.tried + 1 })
  else .next s

/-- LANE_DFE_CONVERGED (R112): after 0.5 ms of TRAIN_EQ in which no tap moved more than one unit: CHECK, with the TRAIN_ERR_MAX of this
window (R130, log 120). -/
def execLaneDfeConverged (lane : Fin 132) (s : State) : Host.Outcome State Fault Refusal :=
  if (s.lane lane).st = .trainEq ∧ (s.lane lane).presetFixed = true ∧ s.elapsed (s.lane lane).stateAt (us 500) = true ∧
      s.dfeSettled lane = true then
    ((s.setLane lane .check).modLane lane fun l => { l with errMax := s.p0 0x040E }).done
  else .next s

/-- LANE_CHECK_WINDOW_END (R112, R113): on a pass the lane sends IDLE blocks in ALIGN; otherwise the attempt is not LINKED and
is abandoned at its 15 ms (log 8). The precoder goes on from the last symbol of the training pattern, which the spec leaves open: a free
value (R101, log 118). -/
def execLaneCheckWindowEnd (lane : Fin 132) (errors : Nat) (s : State) : Host.Outcome State Fault Refusal :=
  let l := s.lane lane
  if l.st = .check ∧ s.elapsed l.stateAt 26843546 = true ∧ errors ≤ l.errMax then
    ((s.tookFree.setLane lane .align).modLane lane fun l => { l with txSym := s.freeVal % 4 }).done
  else .next s

/-- LANE_BLOCK_LOCK (R114, R119): LINKED, from ALIGN or from HUNT. -/
def execLaneBlockLock (lane : Fin 132) (s : State) : Host.Outcome State Fault Refusal :=
  if (s.lane lane).st = .align ∨ (s.lane lane).st = .hunt then (s.enterLinked lane).done else .next s

/-- LANE_ATTEMPT_TIMEOUT (R112, R115): an attempt not LINKED within 15 ms fails (log 8). -/
def execLaneAttemptTimeout (lane : Fin 132) (s : State) : Host.Outcome State Fault Refusal :=
  if (s.lane lane).st.training = true ∧ s.elapsed (s.lane lane).attemptAt (ms 15) = true then (s.attemptFail lane).done
  else .next s

/-- LANE_RETRY_END (R115): the next attempt starts. -/
def execLaneRetryEnd (lane : Fin 132) (s : State) : Host.Outcome State Fault Refusal :=
  if (s.lane lane).st = .retry ∧ s.elapsed (s.lane lane).stateAt (ms 1) = true then
    (s.startAttempt lane ((s.lane lane).attempt + 1)).done
  else .next s

/-- LANE_AUTO_RETRAIN (R117): the 1.0 ms counts from the later of signal detect and the entry into DOWN (log 121). -/
def execLaneAutoRetrain (lane : Fin 132) (s : State) : Host.Outcome State Fault Refusal :=
  let l := s.lane lane
  if l.st = .down ∧ s.pu 0x0413 lane 0 1 = 1 ∧ l.signal = true ∧ s.elapsed (max l.signalAt l.stateAt) (ms 1) = true then
    (s.freshAttempt lane).done
  else .next s

/-- LANE_HUNT_TIMEOUT (R119). -/
def execLaneHuntTimeout (lane : Fin 132) (s : State) : Host.Outcome State Fault Refusal :=
  if (s.lane lane).st = .hunt ∧ s.elapsed (s.lane lane).stateAt (us (s.p0 0x0410)) = true then (s.freshAttempt lane).done
  else .next s

/-! ### Signal detect and idle (R118, R122 to R125) -/

/-- LANE_SIGNAL_DETECT_CHANGE (R118, R125): a drop where idle is not permitted is a loss of block lock; where it is, an idle gap
begins, and a return is followed by the search for the wake marker. -/
def execLaneSignalDetectChange (lane : Fin 132) (level : Bool) (s : State) : Host.Outcome State Fault Refusal :=
  let l := s.lane lane
  if l.signal = level then .next s
  else
    let s1 := s.modLane lane fun l => { l with signal := level, signalAt := s.mono }
    if level then
      .next (s1.modLane lane fun l => { l with wakeFrom := if l.rxGap.isSome then some s.mono else l.wakeFrom })
    else if l.st.receives then
      if s.idleOk lane then .next (s1.modLane lane fun l => { l with rxGap := some s.mono }) else (s1.lockLoss lane).done
    else .next s1

/-- WAKE_BURST_RX (R125, R131): symbol phase and block alignment are taken from the burst; the precoder starts from 0 (R101, log 38). -/
def execWakeBurstRx (lane : Fin 132) (s : State) : Host.Outcome State Fault Refusal :=
  if (s.lane lane).st.receives = true ∧ (s.lane lane).rxGap.isSome = true then
    .next ((s.bump 0x040B lane 4).modLane lane fun l => { l with rxGap := none, wakeFrom := none, rxSym := 0, dfeAt := s.mono })
  else .next s

/-- WAKE_MARKER_TIMEOUT (R125): no marker within 128 symbols of signal detect. -/
def execWakeMarkerTimeout (lane : Fin 132) (s : State) : Host.Outcome State Fault Refusal :=
  match (s.lane lane).wakeFrom with
  | some t => if (s.lane lane).st.receives = true ∧ s.elapsed t 205 = true then (s.enterHunt lane).done else .next s
  | none => .next s

/-- IDLE_GAP_TIMEOUT (R123): a gap longer than IDLE_MAX_GAP + 2 µs is a loss of block lock. -/
def execIdleGapTimeout (lane : Fin 132) (s : State) : Host.Outcome State Fault Refusal :=
  match (s.lane lane).rxGap with
  | some t =>
    if (s.lane lane).st.receives = true ∧ s.elapsed t (us (s.p0 0x040D + 2)) = true then (s.lockLoss lane).done else .next s
  | none => .next s

/-- LANE_IDLE_ENTER (R122): power-save idle after 8 block times with only IDLE to send. -/
def execLaneIdleEnter (lane : Fin 132) (s : State) : Host.Outcome State Fault Refusal :=
  if (s.lane lane).st = .linked ∧ s.idleOk lane = true ∧ 8 ≤ (s.lane lane).idleRun then
    (s.setLane lane .sleep).done
  else .next s

/-- IDLE_MAX_GAP_WAKE (R122, R124): a wake burst and one IDLE block, after which the lane is idle again. -/
def execIdleMaxGapWake (lane : Fin 132) (s : State) : Host.Outcome State Fault Refusal :=
  if (s.lane lane).st = .sleep ∧ s.elapsed (s.lane lane).burstAt (us (s.p0 0x040D)) = true then
    ((s.burstDue lane).sendBlock lane tyIdle 0).done
  else .next s

/-! ### CRC, DFE and eyes (R104, R106, R118, R121) -/

/-- LANE_CRC_ALARM, once for a window that counts more than CRC_ALARM failures (R121). -/
def State.crcAlarm (s : State) (lane : Nat) : State :=
  let l := s.lane lane
  if s.p0 0x0411 < l.crcWinFails ∧ l.crcAlarmed = false then
    (s.modLane lane fun l => { l with crcAlarmed := true }).fire 0x12 lane (leBytes 4 l.crcWinFails)
  else s

/-- BLOCK_CRC_FAIL (R118, R121, R139): counted, toward the alarm once a window and toward the loss of lock (log 37). -/
def execBlockCrcFail (lane : Fin 132) (s : State) : Host.Outcome State Fault Refusal :=
  if (s.lane lane).st.receives = true then
    let n := (s.lane lane).crcWinFails + 1
    let h := (true :: (s.lane lane).hist).take 64
    let s1 := (s.bump 0x040B lane 1).modLane lane fun l => { l with hist := h, crcWinFails := n }
    let s2 := s1.crcAlarm lane
    (if 8 ≤ (h.filter id).length then s2.lockLoss lane else s2).done
  else .next s

/-- CRC_WINDOW_END (R121): the next whole one-second window starts; CRC_ALARM may have been lowered since the last failure. -/
def execCrcWindowEnd (lane : Fin 132) (s : State) : Host.Outcome State Fault Refusal :=
  let l := s.lane lane
  if l.st.receives = true ∧ s.elapsed l.crcWinAt (ms 1000) = true then
    ((s.crcAlarm lane).modLane lane fun l => { l with crcWinAt := l.crcWinAt + ms 1000, crcWinFails := 0, crcAlarmed := false }).done
  else .next s

/-- DFE_ADAPT_INTERVAL (R104): after 2^DFE_RATE decisions each tap moves one unit toward the sign of its sum, within R103. -/
def execDfeAdaptInterval (lane : Fin 132) (s1 s2 s3 s4 s5 : Int) (s : State) : Host.Outcome State Fault Refusal :=
  if s.dfeAdapts lane = true ∧ s.elapsed (s.lane lane).dfeAt (s.dfeTicks lane) = true then
    .next (s.modLane lane fun l =>
      { l.withTaps s.mono (List.zipWith (fun rt sum => tapStep rt.1 rt.2 sum) (tapRange.zip l.taps) [s1, s2, s3, s4, s5]) with
        dfeAt := s.mono })
  else .next s

/-- Whether a lane's receiver decides symbols: in training, with a working link, or checking a received pattern (R107, R127). -/
def State.rxRuns (s : State) (lane : Nat) : Bool :=
  let l := s.lane lane
  l.st.training || l.st.working || (decide (l.st = .test) && l.test.mode != 2)

/-- EYE_WINDOW_END (R106): after 2^20 symbols, 1,677,721.6 ticks. -/
def execEyeWindowEnd (lane : Fin 132) (upper middle lower : BitVec 8) (s : State) : Host.Outcome State Fault Refusal :=
  if s.rxRuns lane = true ∧ s.elapsed (s.lane lane).eyeAt 1677722 = true then
    .next (s.modLane lane fun l => { l with eyeAt := s.mono, eye := [upper.toNat, middle.toNat, lower.toNat].map (min 64) })
  else .next s

/-! ### Pattern tests (R127, R128) -/

/-- One received symbol in the checker (R128): unlocked, it predicts from the received bits, and 64 matches lock it; locked, it compares with
its own generator, and more than 32 errors in the latest 256 symbols lose the lock (log 122). -/
def LaneTest.check (t : LaneTest) (x : Nat) : LaneTest :=
  let w := patSymbol t.pattern t.ref
  let a := symBits x
  if t.chkLock then
    let b := symBits w.1
    let errs := ((x != w.1) :: t.errs).take 256
    let t1 : LaneTest :=
      { t with ref := w.2, errs, bits := satN 64 (t.bits + 2), symErr := satN 64 (t.symErr + b2n (x != w.1)),
               bitErr := satN 64 (t.bitErr + b2n (a.1 != b.1) + b2n (a.2 != b.2)) }
    if 32 < (errs.filter id).length then
      { t1 with chkLock := false, lockLosses := satN 32 (t.lockLosses + 1), run := 0, errs := [] }
    else t1
  else
    let run := if t.ref ≠ 0 ∧ x = w.1 then t.run + 1 else 0
    { t with ref := patPush t.pattern (patPush t.pattern t.ref a.1) a.2, run, chkLock := decide (64 ≤ run), errs := [] }

/-- Puts the next n symbols of a test's pattern out, or, in NEAR_LOOP, keeps them from the pins (R126, R127). -/
def State.patternOut (s : State) (lane n : Nat) : State :=
  let t := (s.lane lane).test
  let r := patSymbols t.pattern n t.gen
  let s1 := s.modLane lane fun l => { l with test := { l.test with gen := r.2 } }
  if t.mode = 1 then s1 else s1.putOut lane r.1

/-- TEST_CHECKER_LOCK (R101, R102, R126 to R128): the symbols (up to four) a lane in TEST has received since the last such row, inverted and decoded, go
through the checker; in NEAR_LOOP it is the lane's own pattern that does. As many symbols of the pattern have gone out meanwhile. -/
def execTestCheckerLock (lane : Fin 132) (x0 x1 x2 x3 : Option (Fin 4)) (s : State) : Host.Outcome State Fault Refusal :=
  let l := s.lane lane
  let rx := [x0, x1, x2, x3].filterMap id
  if l.st = .test then
    let s1 := s.patternOut lane rx.length
    let y := rx.map fun x => invertRx (bit (s.pu 0x0403 lane 0 1) 1) x.val
    let x := if l.test.mode = 1 then (patSymbols l.test.pattern rx.length l.test.gen).1
      else if s.pu 0x0402 lane 0 1 = 1 then unprecode l.rxSym y else y
    if l.test.mode = 2 then .next s1
    else .next (s1.modLane lane fun l => { l with rxSym := y.getLastD l.rxSym, test := x.foldl LaneTest.check l.test })
  else .next s

/-! ### Commands (R132) -/

/-- The part of a command with a UNIT field that concerns the twin: reason 0x22 without one, and the forwarding of UNIT 1 and 2
to the standby, whose acknowledgement the reply then waits for (R132, R373). -/
def State.unitCmd (s : State) (mb : Nat) (q : Request) (unit : Nat) (payload : Bytes) (own : State → State) : State :=
  if 1 ≤ unit ∧ s.hasStandby = false then s.refuse mb stBadParam 0x22
  else if 1 ≤ unit ∧ s.forwardBarred = true then s.refuse mb stRefused 0x80
  else
    let s1 := if unit = 1 then s else own s
    if unit = 0 then s1.replyOk mb payload else s1.finishWrite mb q payload

/-- The lanes a range command acts on in this unit: those not OFF (R132). -/
def State.rangeLanes (s : State) (first count : Nat) : List Nat :=
  ((List.range count).map (first + ·)).filter fun l => decide ((s.lane l).st ≠ .off)

/-- Whether the lane range and UNIT of LANE_RETRAIN and LANE_HALT are in range (R132). -/
def rangeOk (p : Bytes) : Bool :=
  inR (uAt p 0 2) 0 131 && inR (uAt p 2 2) 1 132 && decide (uAt p 0 2 + uAt p 2 2 ≤ 132) && decide (uAt p 4 1 ≤ 2)

/-- LANE_RETRAIN (R116, R132): an attempt with a fresh retry count on each lane of the range. -/
def execLaneRetrain (mb : Fin 8) (s : State) : Host.Outcome State Fault Refusal :=
  (s.withCmd mb 0x0420 true fun q s =>
    if rangeOk q.payload then
      let ls := s.rangeLanes (uAt q.payload 0 2) (uAt q.payload 2 2)
      let n := if uAt q.payload 4 1 = 1 then 0 else ls.length
      s.unitCmd mb q (uAt q.payload 4 1) (leBytes 2 n ++ [0, 0]) fun s => ls.foldl State.freshAttempt s
    else s.refuse mb stBadParam 0x05).done

/-- LANE_HALT (R116, R132): each lane of the range enters HALTED. -/
def execLaneHalt (mb : Fin 8) (s : State) : Host.Outcome State Fault Refusal :=
  (s.withCmd mb 0x0421 true fun q s =>
    if rangeOk q.payload then
      let ls := s.rangeLanes (uAt q.payload 0 2) (uAt q.payload 2 2)
      let n := if uAt q.payload 4 1 = 1 then 0 else ls.length
      s.unitCmd mb q (uAt q.payload 4 1) (leBytes 2 n ++ [0, 0]) fun s => ls.foldl (fun s l => s.setLane l .halted) s
    else s.refuse mb stBadParam 0x05).done

/-- Whether a lane may not be tested because its string runs on this active unit (R132). -/
def State.laneInUse (s : State) (lane : Nat) : Bool :=
  decide (s.twin.role = .active) && eEnabled (s.entry lane) && s.strRuns (s.strOf lane)

/-- Puts a lane into TEST (R127, R128): a wake burst leaves electrical idle (R124), and the pattern's first symbols go out but in NEAR_LOOP.
An OFF lane enters TEST whether or not its PLL is locked (log 123). The seed of PRBS13Q is a free value (log 118). -/
def State.startTest (s : State) (lane mode pattern : Nat) : State :=
  let idle := (s.lane lane).st.idles
  let seed := if pattern = 0 then s.seed13 else 2 ^ 31 - 1
  let s1 := (s.tookFree.setLane lane .test).modLane lane fun l =>
    { l with rxSym := 0, eyeAt := s.mono, dfeAt := s.mono, lineOut := if mode = 1 then [] else l.lineOut,
             test := { mode, pattern, startAt := s.mono, gen := seed } }
  if mode = 1 then s1 else (if idle then s1.burstDue lane else s1).patternOut lane 64

/-- LANE_TEST_START (R127, R128, R132). The twin's link and ring use its service lanes as this unit's do. START_TIME of the twin does not come
with its acknowledgement: a free value (log 2). -/
def execLaneTestStart (mb : Fin 8) (s : State) : Host.Outcome State Fault Refusal :=
  (s.withCmd mb 0x0422 true fun q s =>
    let lane := uAt q.payload 0 2
    let mode := uAt q.payload 2 1
    let pat := uAt q.payload 3 1
    let unit := uAt q.payload 4 1
    if 131 < lane ∨ mode = 0 ∨ 3 < mode ∨ 1 < pat ∨ 1 < unit then s.refuse mb stBadParam 0x05
    else if unit = 0 ∧ lane < 128 ∧ s.laneInUse lane = true then s.refuse mb stRefused 0x20
    else if 128 ≤ lane ∧ s.laneUnused lane = false ∧ (unit = 0 ∨ s.hasStandby = true) then s.refuse mb stRefused 0x21
    else s.tookFree.unitCmd mb q unit (leBytes 4 (if unit = 0 then s.shortNow else s.freeVal)) fun s => s.startTest lane mode pat).done

/-- LANE_TEST_STOP (R132): the lane leaves TEST for an attempt, or for OFF where it is unused; a lane that is not in TEST stays as it is
(log 124). -/
def execLaneTestStop (mb : Fin 8) (s : State) : Host.Outcome State Fault Refusal :=
  (s.withCmd mb 0x0424 true fun q s =>
    let lane := uAt q.payload 0 2
    let unit := uAt q.payload 2 1
    if 131 < lane ∨ 1 < unit then s.refuse mb stBadParam 0x05
    else s.unitCmd mb q unit [] fun s => if (s.lane lane).st = .test then s.freshAttempt lane else s).done

/-- LANE_TEST_READ (R132). -/
def execLaneTestRead (mb : Fin 8) (s : State) : Host.Outcome State Fault Refusal :=
  (s.withCmd mb 0x0423 false fun q s =>
    let lane := uAt q.payload 0 2
    if 131 < lane then s.refuse mb stBadParam 0x05
    else
      let t := (s.lane lane).test
      s.replyOk mb (leBytes 1 t.mode ++ leBytes 1 t.pattern ++ leBytes 1 (b2n t.chkLock) ++ [0] ++ leBytes 4 t.lockLosses ++
        leBytes 8 t.bits ++ leBytes 8 t.bitErr ++ leBytes 8 t.symErr ++ leBytes 4 ((s.mono - t.startAt) / ms 1))).done

end Sys2Proof.Machine
end

