-- ==== Sys2Proof/Machine/Hatch.lean ====
section
/-!
DEFINITION. The hatch, the notification ring's registers and the load windows: the meanings of the rows HATCH_DOORBELL,
HATCH_DONE_WRITE, HOST_ERR_WRITE, GLOAD_READ, NR_CTRL_WRITE, NR_TAIL_WRITE, NR_DROPPED_READ, MAILBOX_TAKE, NR_HOLDOFF_EXPIRE,
LOAD_WINDOW_END and HOST_LINK_DOWN (chapter 02).
-/

namespace Sys2Proof.Machine

/-- Whether the host windows answer: the reset has ended (R46, R54). -/
def State.windowsUp (s : State) : Bool := decide (s.sys.stage ≠ .inReset)

/-- A new host transaction lets XBUSY_N go high (R428). -/
def State.newTransaction (s : State) : State := s.updPantry fun p => { p with xbusyLow := false }

/-- Whether a host port answers: the reset has ended and HOST_SEL selected it; the other is inert (R46). -/
def State.portUp (s : State) (p : HostPort) : Bool :=
  s.windowsUp && (match p with
    | .pcie => !s.hatch.qspi
    | .qspi _ => s.hatch.qspi)

/-- What a host access reaches. -/
inductive HostTarget where
  /-- A register offset of BAR0. -/
  | bar0 (off : Nat)
  /-- A byte offset of BAR2. -/
  | bar2 (off : Nat)
  /-- An address of neither: it reads 0 and ignores writes. -/
  | nowhere
  /-- No access at all. -/
  | inert
deriving DecidableEq, Repr

/-- The QSPI target of a command and an address: 0x02 and 0x32 write, 0x0B and 0xEB read; BAR2 lies below 0x40_0000 and BAR0 at 0x40_0000
(R48). -/
def qspiTarget (write : Bool) (cmd a : Nat) : HostTarget :=
  if (if write then cmd == 0x02 || cmd == 0x32 else cmd == 0x0B || cmd == 0xEB) = false then .inert
  else if a < 0x400000 then .bar2 a
  else if a < 0x410000 then .bar0 (a - 0x400000)
  else .nowhere

/-- What an access by a port reaches: an offset of the row's BAR on PCI Express, and the address map on QSPI (R47, R48). -/
def hostTarget (p : HostPort) (write inBar2 : Bool) (a : Nat) : HostTarget :=
  match p with
  | .pcie => if inBar2 then .bar2 (a % 0x400000) else .bar0 (a % 0x10000)
  | .qspi cmd => qspiTarget write cmd.toNat a

/-- A host write to another offset discards the host port's held low word (R53). -/
def State.hostWrote (s : State) : State := s.updHatch fun h => { h with host := { h.host with heldLow := none } }

/-- The word a host read returned: an output. -/
def State.hostReads (s : State) (v : Nat) : State := s.updHatch fun h => { h with host := { h.host with lastRead := v } }

/-! ### Doorbells and DONE -/

/-- One mailbox is rung (R60). -/
def State.ringBox (s : State) (mb : Nat) : State :=
  match (s.box mb).state with
  | .idle => (s.modBox mb fun b => { b with state := .pending }).updHatch fun h => { h with order := h.order ++ [mb] }
  | .done => (s.modBox mb fun b => { b with state := .pending }).updHatch fun h => { h with order := h.order ++ [mb] }
  | .pending => s.hostErrSet (0x8 + 2 ^ (8 + mb))
  | .active => s.hostErrSet (0x8 + 2 ^ (8 + mb))

/-- A write of HATCH_DOORBELL: the mailboxes named are rung in ascending order (R59, R60). -/
def State.doorbell (s : State) (v : Nat) : State := ((List.range 8).filter fun n => bit v n).foldl State.ringBox s

/-- HATCH_DOORBELL (R59, R60). -/
def execHatchDoorbell (w : Word) (s : State) : Host.Outcome State Fault Refusal :=
  if s.windowsUp then .next (s.hostWrote.doorbell w.toNat) else .next s

/-- A write of HATCH_DONE: each mailbox named passes from DONE to IDLE (R59). -/
def State.doneWrite (s : State) (v : Nat) : State :=
  ((List.range 8).filter fun n => bit v n).foldl
    (fun s n => if (s.box n).state = .done then s.modBox n fun b => { b with state := .idle } else s) s

/-- HATCH_DONE (R59). -/
def execHatchDoneWrite (w : Word) (s : State) : Host.Outcome State Fault Refusal :=
  if s.windowsUp then .next (s.hostWrote.doneWrite w.toNat) else .next s

/-- A write of HOST_ERR: each bit written as 1 is cleared (R11, R55). -/
def State.hostErrClear (s : State) (v : Nat) : State :=
  s.updHatch fun h => { h with hostErr := h.hostErr - (h.hostErr &&& v % 0x10000) }

/-- HOST_ERR (R11, R55). -/
def execHostErrWrite (w : Word) (s : State) : Host.Outcome State Fault Refusal :=
  if s.windowsUp then .next (s.hostWrote.hostErrClear w.toNat) else .next s

/-- GLOAD as a word (R55). -/
def Notif.gload (n : Notif) : Nat := n.mpLoad + n.mpPeak * 2 ^ 16

/-- GLOAD (R55): the read clears MP_LOAD_PEAK. -/
def execGloadRead (s : State) : Host.Outcome State Fault Refusal :=
  if s.windowsUp then .next ((s.hostReads s.notif.gload).updNotif fun n => { n with mpPeak := 0 }) else .next s

/-! ### The notification ring -/

/-- Writes out the hold queue into a ring just enabled (R673). -/
def State.flushHold (s : State) : State :=
  s.notif.hold.foldl (fun s e => s.putNote e) (s.updNotif fun n => { n with hold := [] })

/-- A write of NR_CTRL: the thresholds are set; a change of NR_ENABLE from 0 to 1 starts the ring afresh and writes out the
hold queue (R82, R673). -/
def State.nrCtrl (s : State) (v : Nat) : State :=
  let en := bit v 0
  let was := s.notif.enable
  let s1 := s.updNotif fun n => { n with holdoff := bits v 31 16, thresh := bits v 15 8, enable := en }
  if en && !was then
    irqSince s (s1.updNotif fun n => { n with head := 0, tail := 0, phase := true, unreadAt := [], heldOff := false }).flushHold
  else irqSince s s1

/-- NR_CTRL (R82, R673). -/
def execNrCtrlWrite (w : Word) (s : State) : Host.Outcome State Fault Refusal :=
  if s.windowsUp then .next (s.hostWrote.nrCtrl w.toNat) else .next s

/-- A write of NR_TAIL, the host's read index (R82, R84). A value outside the unread range is undefined (R95): the index becomes a free
value (log 2). -/
def State.nrTail (s : State) (v : Nat) : State :=
  let t := v % 256
  let n := s.notif
  let unread := (n.head + 256 - n.tail) % 256
  let adv := (t + 256 - n.tail) % 256
  if unread < adv then (s.updNotif fun n => { n with tail := s.freeVal % 256, unreadAt := [], heldOff := false }).tookFree
  else s.updNotif fun n => { n with tail := t, unreadAt := n.unreadAt.drop adv, heldOff := false }

/-- NR_TAIL (R82, R84). -/
def execNrTailWrite (w : Word) (s : State) : Host.Outcome State Fault Refusal :=
  if s.windowsUp then .next (s.hostWrote.nrTail w.toNat) else .next s

/-- NR_DROPPED (R82): the read clears the count. -/
def execNrDroppedRead (s : State) : Host.Outcome State Fault Refusal :=
  if s.windowsUp then .next ((s.hostReads s.notif.dropped).updNotif fun n => { n with dropped := 0 }) else .next s

/-- NR_HOLDOFF expires (R82, R84): the oldest unread entry is older than NR_HOLDOFF (log 21). -/
def execNrHoldoffExpire (s : State) : Host.Outcome State Fault Refusal :=
  match s.notif.unreadAt with
  | t :: _ =>
    if s.mono > t + us (max 1 s.notif.holdoff) then .next (irqSince s (s.updNotif fun n => { n with heldOff := true }))
    else .next s
  | [] => .next s

/-! ### Taking a request -/

/-- Whether R89 exempts a request from the BUSY of level 3: HATCH_PING, PARAM_GET and PARAM_INFO on pages 0x01 and 0x02, and the
role commands. -/
def shedExempt (q : Request) : Bool :=
  let onPage := fun id => id / 256 == 1 || id / 256 == 2
  q.opcode == 0x0210 || ((q.opcode == 0x0211 || q.opcode == 0x0215) && onPage (uAt q.payload 0 2)) ||
    [0x0D10, 0x0D11, 0x0D12, 0x0D13].contains q.opcode

/-- Ubfer's estimate of the time until the level falls below 3, a free value within its bounds (R91). -/
def State.retryEstimate (s : State) : Nat := 100 + s.freeVal % 9901

/-- The reason for which this unit's role does not accept a request, PARAM_SET apart: TIME_SET away from the active of the master head has
one of its own (R226, R394, R397, R399, R674 row 8). -/
def State.roleReason (s : State) (op : Nat) : Option Nat :=
  if op = 0x0620 then (if s.isMaster then none else some 0x32)
  else if op = 0x0D11 ∨ op = 0x0D13 then (if s.twin.role = .active then none else some 0x8B)
  else if s.twin.role.acceptsOp op then none
  else some 0x8B

/-- The first record of a PARAM_SET whose page the role does not accept (R674). -/
def Role.firstRefused (r : Role) (q : Request) : Option Nat :=
  (recordPages (min (uAt q.payload 0 2) 32) (q.payload.drop 4)).findIdx? fun pg => !r.acceptsPage pg

/-- The generic checks of R674 on a request just taken, in their order; a request to which none applies stays ACTIVE for its own
checks. -/
def State.genericChecks (s : State) (mb : Nat) (q : Request) : State :=
  let kept := (s.box mb).kept
  let role := s.twin.role
  let d := sdiff 16 q.epoch s.twin.epoch
  let known := (opRow q.opcode).isSome && (decide (s.sys.stage ≠ .recovery) || recoveryOp q.opcode)
  match kept with
  | some k =>
    if k.req = q then s.enterDone mb k.reply
    else if k.req.seq = q.seq then s.generic mb stBadSeq 0
    else go known d role s
  | none => go known d role s
where
  /-- Rows 3 to 8 of R674. -/
  go (known : Bool) (d : Int) (role : Role) (s : State) : State :=
    if 504 < q.length then s.generic mb stBadLength 0x0C
    else if s.notif.shed = 3 ∧ shedExempt q = false then
      s.tookFree.writeReply mb stBusy (leBytes 4 s.retryEstimate) false
    else if d < 0 then s.generic mb stStale 0
    else if 0 < d then s.generic mb stAhead 0
    else if known = false then s.generic mb stUnknown 0
    else
      match opRow q.opcode with
      | none => s.generic mb stUnknown 0
      | some row =>
        if row.len.isSome && row.len != some q.length then s.generic mb stBadLength 0x0C
        else if q.opcode = 0x0212 then
          match role.firstRefused q with
          | some i => s.generic mb stNotInRole 0x8B i
          | none => s
        else
          match s.roleReason q.opcode with
          | some k => s.generic mb stNotInRole k
          | none => s

/-- MAILBOX_TAKE (R61, R674): Ubfer takes the oldest pending mailbox, copies its whole request, enters ACTIVE and makes the
generic checks (log 105). -/
def execMailboxTake (s : State) : Host.Outcome State Fault Refusal :=
  if s.sys.stage ≠ .serving ∧ s.sys.stage ≠ .recovery ∨ s.sys.core0.halted = true ∨ s.sys.core1.halted = true then .next s
  else
    match s.hatch.order with
    | [] => .next s
    | mb :: rest =>
      let q := requestOf (s.box mb).request
      let s1 := (s.updHatch fun h => { h with order := rest, active := h.active.filter (· != mb) ++ [mb] }).modBox mb fun b =>
        { b with state := .active, taken := some q, waiting := .none }
      .next (s1.genericChecks mb q)

/-! ### Load and shedding -/

/-- The threshold a level is entered at (R88). -/
def State.shedThreshold (s : State) (level : Nat) : Nat := s.p0 (0x0201 + level)

/-- The shed level after a window with a load (R89, log 36). -/
def State.nextShed (s : State) (load : Nat) : Nat :=
  let reach := if s.shedThreshold 3 ≤ load then 3 else if s.shedThreshold 2 ≤ load then 2
    else if s.shedThreshold 1 ≤ load then 1 else 0
  let cur := s.notif.shed
  if cur < reach then reach
  else if 0 < cur ∧ load + s.p0 0x0205 < s.shedThreshold cur then cur - 1 else cur

/-- Whether telemetry streaming runs: it stops at level 1 (R89, log 109). -/
def State.telemetryOn (s : State) : Bool := decide (s.notif.shed < 1)

/-- Whether the aggregation of counters into the attic is deferred: from level 2 (R89, log 109). -/
def State.aggregationDeferred (s : State) : Bool := decide (2 ≤ s.notif.shed)

/-- Writes the deferred notifications in SEQ order (R89). -/
def State.flushDeferred (s : State) : State :=
  s.notif.deferred.foldl (fun s e => s.putNote e) (s.updNotif fun n => { n with deferred := [] })

/-- LOAD_WINDOW_END (R87, R89): MP_LOAD takes the busy fraction of the window just ended, and the shed level moves (log 36). -/
def execLoadWindowEnd (load : BitVec 10) (s : State) : Host.Outcome State Fault Refusal :=
  if s.sys.stage = .serving ∧ s.elapsed s.notif.windowFrom (ms 1) = true then
    let l := min load.toNat 1000
    let lvl := s.nextShed l
    let s1 := s.updNotif fun n => { n with mpLoad := l, mpPeak := max n.mpPeak l, shed := lvl, windowFrom := s.mono }
    if lvl < 2 ∧ 2 ≤ s.notif.shed then .next s1.flushDeferred else .next s1
  else .next s

/-! ### Loss of the host link -/

/-- HOST_LINK_DOWN (R92): pending requests and held sets are discarded; active ones complete. -/
def execHostLinkDown (s : State) : Host.Outcome State Fault Refusal :=
  if s.hatch.qspi then .next s
  else
    let s1 := (List.range 8).foldl (fun s n => s.modBox n fun b => { b with state := if b.state = .pending then .idle else b.state }) s
    .next ((s1.updHatch fun h => { h with order := [], pcieUp := false }).discardHeld)

end Sys2Proof.Machine
end

