-- ==== Sys2Proof/Machine/PtpOps.lean ====
section
/-!
DEFINITION. The station ports: frames, stamps and the part of IEEE 1588-2019 that Ubfer runs on them (R210 to R219, R225). The message
formats and the choice of master are the standard's, shortened (PRESUMED, log 13).
-/

namespace Sys2Proof.Machine

/-- A station port. -/
def State.port (s : State) (n : Nat) : StaPort := s.sta.get {} n

/-- Changes a station port. -/
def State.modPort (s : State) (n : Nat) (f : StaPort → StaPort) : State := s.updSta fun t => t.mod {} n f

/-- The number at an offset, most significant byte first. -/
def beAt (l : Bytes) (off n : Nat) : Nat := leNat (slice l off n).reverse

/-- STA_MAC in the order sent. -/
def State.staMac (s : State) (n : Nat) : Bytes := slice (s.peff 0x0702 n) 0 6

/-- Whether a port runs (R210). -/
def State.staOn (s : State) (n : Nat) : Bool := s.pu 0x0701 n 0 1 != 0

/-- The first two destinations a PTP frame may have (R212). -/
def ptpDests : List Bytes := [[0x01, 0x1B, 0x19, 0, 0, 0], [0x01, 0x80, 0xC2, 0, 0, 0x0E]]

/-- Where the EtherType of a frame stands: after one IEEE 802.1Q tag, or without (R211). -/
def etherAt (f : Bytes) : Nat := if beAt f 12 2 = 0x8100 then 16 else 12

/-- Whether a port admits a frame (R212). -/
def State.staAdmits (s : State) (n : Nat) (f : Bytes) : Bool :=
  beAt f (etherAt f) 2 == 0x88F7 && ((slice f 0 6 :: []).any fun d => ptpDests.contains d || d == s.staMac n)

/-- The receive stamp of a frame that arrives now: at the medium (R213). -/
def State.staRxStamp (s : State) (n : Nat) : Nat := s.now - (512 + 64 * (s.port n).align / 10 + s.pu 0x0704 n 0 2)

/-- Ubfer takes its own stamps from the head of a port's queue (R218, R219). -/
def State.stampPop (s : State) (n : Nat) : State :=
  s.modPort n fun p => { p with stamps := p.stamps.dropWhile fun x => decide (0xF000 ≤ x.id) }

/-- Places a stamp, or loses it to a full queue; whether it was placed (R218, R219). -/
def State.stampPut (s : State) (n : Nat) (x : StaStamp) : State × Bool :=
  if 16 ≤ (s.port n).stamps.length then (s.bump 0x0707 n 4, false)
  else (s.modPort n fun p => { p with stamps := p.stamps ++ [x] }, true)

/-- Ticks a frame of n bytes without FCS takes on the medium, preamble, padding and FCS included (R216). -/
def frameTicks (n : Nat) : Nat := (8 + max 60 n + 4) * 64

/-- One bit of the Ethernet check, the least significant first (IEEE 802.3, PRESUMED, log 133). -/
def crc32Bit (c : BitVec 32) : BitVec 32 := if c.getLsbD 0 then (c >>> 1) ^^^ 0xEDB88320#32 else c >>> 1

/-- The Ethernet check over one more byte. -/
def crc32Byte (c : BitVec 32) (b : BitVec 8) : BitVec 32 :=
  crc32Bit (crc32Bit (crc32Bit (crc32Bit (crc32Bit (crc32Bit (crc32Bit (crc32Bit (c ^^^ b.setWidth 32))))))))

/-- The FCS of a frame, in the order sent (R216, log 133). -/
def fcs (l : Bytes) : Bytes := leBytes 4 (l.foldl crc32Byte 0xFFFFFFFF#32 ^^^ 0xFFFFFFFF#32).toNat

/-- A frame as the port sends it: the preamble, the start-of-frame delimiter, the data padded to 60 bytes and the FCS (R216, log 133). -/
def wireFrame (data : Bytes) : Bytes :=
  let d := padTo data 60
  List.replicate 7 0x55 ++ [0xD5] ++ d ++ fcs d

/-- Whether a port runs and its link is up (R210, R213). -/
def State.staUp (s : State) (n : Nat) : Bool := s.staOn n && (s.port n).linkUp

/-- When a frame whose time is t can start: at once, or one interframe gap after the frame being sent (R217, log 133). -/
def State.portFree (s : State) (n t : Nat) : Nat :=
  let b := (s.port n).busyUntil
  max t (if b = 0 then 0 else b + 768)

/-- The Ethernet frame of a PTP message, with its tag where a VLAN is set (R211). -/
def State.ptpFrame (s : State) (n : Nat) (body : Bytes) : Bytes :=
  let vlan := s.pu 0x0705 n 6 2
  let dst := if byteAt body 0 % 16 = 2 ∨ byteAt body 0 % 16 = 3 ∨ byteAt body 0 % 16 = 10 then [0x01, 0x80, 0xC2, 0, 0, 0x0E]
    else [0x01, 0x1B, 0x19, 0, 0, 0]
  dst ++ s.staMac n ++ (if vlan = 0 then [] else beBytes 2 0x8100 ++ beBytes 2 vlan) ++ beBytes 2 0x88F7 ++ body

/-- The header of a PTP message: type, length, sequenceId, flags (IEEE 1588-2019, log 13). -/
def State.ptpHdr (s : State) (n type len seq flags : Nat) : Bytes :=
  let mac := s.staMac n
  [BitVec.ofNat 8 type, 2] ++ beBytes 2 len ++ leBytes 1 (s.pu 0x0705 n 1 1) ++ [0] ++ beBytes 2 flags ++ beBytes 8 0 ++ beBytes 4 0 ++
    (slice mac 0 3 ++ [0xFF, 0xFE] ++ slice mac 3 3 ++ beBytes 2 1) ++ beBytes 2 seq ++ [0] ++
    (if type = 0 ∨ type = 8 then leBytes 1 (s.pu 0x0705 n 4 1) else if type = 11 then [0] else [0x7F])

/-- A PTP timestamp of a tick time: 48 bits of seconds and 32 of nanoseconds. -/
def State.ptpStamp (s : State) (tick : Nat) : Bytes :=
  let p := s.ptpTime tick
  beBytes 6 (p / 8000000000) ++ beBytes 4 (p % 8000000000 / 8)

/-- Sends the first PTP message that waits, from a time on: an event message is stamped at the medium, and where its stamp has a place,
the general message that carries the stamp waits next (R211, R213, R217, R218). -/
def State.ptpOut1 (s : State) (n : Nat) (x : PtpMsg) (rest : List PtpMsg) (start : Nat) : State :=
  let s1 := (s.modPort n fun p =>
    { p with ptpWait := rest, ptpOut := (p.ptpOut ++ [wireFrame x.data]).drop (p.ptpOut.length - 7),
             busyUntil := start + frameTicks x.data.length }).bump 0x0707 n 0
  match x.event with
  | none => s1
  | some seq =>
    let t := start + 384 + s.pu 0x0703 n 0 2
    let r := s1.stampPut n { id := 0xF000 + seq % 0x1000, late := false, tick := t }
    let s2 := r.1.stampPop n
    if r.2 then
      s2.modPort n fun p =>
        { p with pdelayT1 := if x.keep then t else p.pdelayT1,
                 ptpWait := match x.follow with
                   | some (a, b) => { data := a ++ s.ptpStamp t ++ b, at_ := start } :: p.ptpWait
                   | none => p.ptpWait }
    else s2

/-- Sends the PTP messages whose gap has come: the port is free, and no timed frame is due first (R217, log 133). -/
def State.ptpDrainN : Nat → Nat → State → State
  | 0, _, s => s
  | k + 1, n, s =>
    match (s.port n).ptpWait with
    | [] => s
    | x :: rest =>
      let start := s.portFree n x.at_
      if s.now < start ∨ ((s.port n).queue.any fun y => decide (y.at_ ≤ start)) = true ∨ s.staUp n = false then s
      else State.ptpDrainN k n (s.ptpOut1 n x rest start)

/-- Sends every PTP message of a port whose gap has come; each may be followed by one more (log 133). -/
def State.ptpDrain (s : State) (n : Nat) : State := State.ptpDrainN (2 * (s.port n).ptpWait.length) n s

/-- Sends a PTP message in the next gap (R217). -/
def State.ptpSend (s : State) (n : Nat) (x : PtpMsg) : State :=
  (s.modPort n fun p => { p with ptpWait := p.ptpWait ++ [x] }).ptpDrain n

/-! ### The best master clock (R211, R214, log 13) -/

/-- Whether a list of numbers comes before another of its length. -/
def listLt : List Nat → List Nat → Bool
  | a :: r, b :: t => decide (a < b) || (a == b && listLt r t)
  | _, _ => false

/-- Whether a clock is better than another, each with the port it was heard on: two paths to one grandmaster by their steps, sender and
port, else by the clocks' attributes. -/
def PtpClock.better (a : PtpClock) (i : Nat) (b : PtpClock) (j : Nat) : Bool :=
  if a.gm = b.gm then listLt [a.steps, a.sender, i] [b.steps, b.sender, j]
  else listLt [a.p1, a.cls, a.acc, a.var, a.p2, a.gm] [b.p1, b.cls, b.acc, b.var, b.p2, b.gm]

/-- The identity of a port's clock, and of the port. -/
def State.ptpIdent (s : State) (n : Nat) : Bytes := slice (s.staMac n) 0 3 ++ [0xFF, 0xFE] ++ slice (s.staMac n) 3 3

/-- This unit's own clock on a port: the profile's default attributes (log 13). -/
def State.ptpOwn (s : State) (n : Nat) : PtpClock :=
  let id := beAt (s.ptpIdent n) 0 8
  { p1 := s.pu 0x0705 n 2 1, cls := if s.pu 0x0705 n 0 1 = 1 then 255 else 248, acc := 0xFE, var := 0xFFFF, p2 := s.pu 0x0705 n 3 1,
    gm := id, steps := 0, sender := id * 65536 + 1 }

/-- Whether a port runs PTP: enabled, its link up, and slave-only on the time master alone (R211, R214, log 13). -/
def State.ptpRuns (s : State) (n : Nat) : Bool :=
  let role := s.pu 0x0705 n 0 1
  s.staUp n && (role == 2 || (role == 1 && s.isMaster))

/-- The best clock a port hears: of the foreign masters with two Announces in 4 s, the latest less than 3 s ago. -/
def State.ptpBest (s : State) (n : Nat) : Option PtpClock :=
  (((s.port n).foreign.filter fun f => decide (s.mono < f.at_ + ms 3000) && f.prev.any fun t => decide (s.mono < t + ms 4000)).map
    (·.clock)).foldl (fun b c => match b with
      | none => some c
      | some x => if c.better n x n then some c else some x) none

/-- The state a port of a clock with one port would have: LISTENING, MASTER, PASSIVE or SLAVE. A unit that is not time master never
follows (log 13). -/
def State.ptpWish (s : State) (n : Nat) : Nat :=
  match s.ptpBest n with
  | none => if s.pu 0x0705 n 0 1 = 2 ∧ s.elapsed (s.port n).listenAt (ms 3000) = true then 6 else 4
  | some c =>
    if s.pu 0x0705 n 0 1 = 2 ∧ (s.ptpOwn n).better n c n = true then 6 else if s.isMaster then 9 else 7

/-- portState of a port: 0 stopped, 3 DISABLED, 1 INITIALIZING without a link, 4 LISTENING, 6 MASTER, 7 PASSIVE, 8 UNCALIBRATED, 9 SLAVE. One
port is active at a time, and the other is PASSIVE (R211, R214, R225, log 13). -/
def State.ptpCode (s : State) (n : Nat) : Nat :=
  let m := 1 - n
  let other := if s.ptpRuns m then s.ptpWish m else 0
  if s.staOn n = false then 0
  else if s.pu 0x0705 n 0 1 = 0 then 3
  else if (s.port n).linkUp = false then 1
  else if s.ptpRuns n = false then 3
  else
    match s.ptpWish n, s.ptpBest n, s.ptpBest m with
    | 9, some c, some d =>
      if other = 9 ∧ d.better m c n = true then 7 else if (s.port n).servo = some c.sender then 9 else 8
    | 9, some c, none => if (s.port n).servo = some c.sender then 9 else 8
    | 6, _, _ => if other = 9 ∨ (other = 6 ∧ m < n) then 7 else 6
    | w, _, _ => w

/-- The master a port follows: that of a port in UNCALIBRATED or SLAVE, on the time master alone. -/
def State.ptpParent (s : State) (n : Nat) : Option Nat :=
  if s.ptpCode n = 8 ∨ s.ptpCode n = 9 then (s.ptpBest n).map (·.sender) else none

/-- The data set of an Announce. -/
def announceClock (m : Bytes) : PtpClock :=
  { p1 := byteAt m 47, cls := byteAt m 48, acc := byteAt m 49, var := beAt m 50 2, p2 := byteAt m 52, gm := beAt m 53 8,
    steps := beAt m 61 2, sender := beAt m 20 10 }

/-- An Announce received: noted of its sender, unless that is this unit or too far away (log 13). -/
def State.ptpHear (s : State) (n : Nat) (m : Bytes) : State :=
  let c := announceClock m
  if 255 ≤ c.steps ∨ slice m 20 8 = s.ptpIdent n then s
  else
    s.modPort n fun p =>
      let old := p.foreign.find? fun f => f.clock.sender == c.sender
      { p with foreign := ({ clock := c, at_ := s.mono, prev := old.map (·.at_) } ::
        (p.foreign.filter fun f => f.clock.sender != c.sender)).take 5 }

/-- A port in MASTER announces itself every second (log 13). -/
def State.ptpAnnounce (s : State) (n : Nat) : State :=
  let p := s.port n
  let due := match p.announceAt with
    | some t => s.elapsed t (ms 1000)
    | none => true
  if s.ptpCode n = 6 ∧ due = true then
    let c := s.ptpOwn n
    let s1 := s.modPort n fun p => { p with announceAt := some s.mono, announceSeq := (p.announceSeq + 1) % 2 ^ 16 }
    s1.ptpSend n
      { data := s.ptpFrame n (s.ptpHdr n 11 64 p.announceSeq 0x0008 ++ beBytes 10 0 ++ beBytes 2 0 ++ [0] ++ leBytes 1 c.p1 ++
          [BitVec.ofNat 8 c.cls, 0xFE, 0xFF, 0xFF] ++ leBytes 1 c.p2 ++ s.ptpIdent n ++ beBytes 2 0 ++ [0xA0]), at_ := s.now }
  else s

/-! ### Messages received -/

/-- Nanoseconds of a PTP timestamp in a message. -/
def stampNs (m : Bytes) (off : Nat) : Nat := beAt m off 6 * 1000000000 + beAt m (off + 6) 4

/-- correctionField of a message, in ns. -/
def corrNs (m : Bytes) : Int := signed 64 (beAt m 8 8) / 65536

/-- PTP time at a tick time, in ns. -/
def State.ptpNs (s : State) (tick : Nat) : Int := (s.ptpTime tick / 8 : Nat)

/-- Whether a port's servo acts on tick time: TIME_DISCIPLINE of the time master selects it (R214). -/
def State.disciplines (s : State) (n : Nat) : Bool :=
  s.isMaster && (let d := s.p0 0x060E
                 d == n + 1 || (d == 3 && s.ptpCode n == 9))

/-- An offset from the grandmaster, in ns, as the servo takes it: PTP_OFFSET is stepped where it is large, else TIME_RATE moves within
R194 by a free amount (R194, R214, log 2). -/
def State.ptpServo (s : State) (n : Nat) (off : Int) : State :=
  let s1 := s.modPort n fun p => { p with servo := s.ptpParent n, ptpOffset := satI 32 off }
  if s.disciplines n then
    if (s.p0 0x0605 : Int) < 8 * (off.natAbs : Int) then
      (s1.setParam 0x060D noInst (ptpBytes ((s.ptpOffset : Int) - 8 * off))).ppsSync
    else s1.tookFree.setTime s1.time.state (s1.heldRate - Int.sign off * (s1.freeVal % (s1.p0 0x0604 + 1) : Nat))
  else s1

/-- What Ubfer makes of an admitted PTP message received with a stamp (R211, log 13). -/
def State.ptpTake (s : State) (n : Nat) (m : Bytes) (rx : Nat) : State :=
  let seq := beAt m 30 2
  let p := s.port n
  let follows := s.ptpParent n == some (beAt m 20 10)
  if s.ptpRuns n = false ∨ byteAt m 4 ≠ s.pu 0x0705 n 1 1 then s
  else
    match byteAt m 0 % 16 with
    | 0 =>
      if follows then
        if bit (byteAt m 6) 1 then s.modPort n fun p => { p with syncRx := some (seq, rx) }
        else s.ptpServo n (s.ptpNs rx - stampNs m 34 - p.ptpDelay - corrNs m)
      else s
    | 8 =>
      match p.syncRx with
      | some (q, t) =>
        if follows = true ∧ q = seq then
          (s.modPort n fun p => { p with syncRx := none }).ptpServo n (s.ptpNs t - stampNs m 34 - p.ptpDelay - corrNs m)
        else s
      | none => s
    | 2 =>
      s.ptpSend n
        { data := s.ptpFrame n (s.ptpHdr n 3 54 seq 0x0200 ++ s.ptpStamp rx ++ slice m 20 10), event := some seq,
          follow := some (s.ptpFrame n (s.ptpHdr n 10 54 seq 0), slice m 20 10), at_ := s.now }
    | 3 => if seq + 1 = p.pdelaySeq then s.modPort n fun p => { p with pdelayT4 := some (rx, stampNs m 34) } else s
    | 10 =>
      match p.pdelayT4 with
      | some (t4, t2) =>
        let d : Int := ((s.ptpNs t4 - s.ptpNs p.pdelayT1) - ((stampNs m 34 : Int) - t2)) / 2
        s.modPort n fun p => { p with pdelayT4 := none, ptpDelay := satN 32 d.toNat }
      | none => s
    | 11 => s.ptpHear n m
    | _ => s

/-- The interval of a logarithm to base 2 of seconds, in ticks (R211). -/
def logTicks (v : Int) : Nat := if 0 ≤ v then ms 1000 * 2 ^ v.toNat else ms 1000 / 2 ^ (-v).toNat

end Sys2Proof.Machine
end

