-- ==== Sys2Proof/Machine/Time.lean ====
section
/-!
DEFINITION. The meanings of the rows of chapter 05 but for those of the cell lanes: time sources, the group master, the station ports,
captures, and the time commands (R190 to R229).
-/

namespace Sys2Proof.Machine

/-! ### Exchanges with a time source -/

/-- Whether a twin block without an EPOCH field is of the receiver's epoch, by its ETAG (R372). -/
def State.tagOk (s : State) (lane : Nat) (h : RxHeader) : Bool := decide (lane < 130) || h.etag.toNat == s.twin.epoch % 4

/-- A twin block by its ETAG: an older one is discarded, counted, and TW_ROLE is owed (R372). -/
def State.staleRx (s : State) : State := (s.bump 0x0D05 noInst 6).updTwin fun t => { t with roleOwed := true }

/-- The source a service lane stands for. -/
def laneSource (lane : Nat) : TimeSource :=
  if lane = 128 then .ringE else if lane = 129 then .ringW else if lane = 130 then .twinA else .twinB

/-- Whether a lane belongs to the unit's source: the ring lane it follows, or either twin lane while a twin lane is the source, since the
first copy of each twin block is the one that is taken (R192, R371, log 131). -/
def State.fromSource (s : State) (lane : Nat) : Bool :=
  s.time.source == laneSource lane || (decide (130 ≤ lane) && (s.time.source == .twinA || s.time.source == .twinB))

/-- SYNC_RX (R167, R202, R371, R407): stamped, kept and answered with REPLY. -/
def execSyncRx (port : ServiceLane) (h : RxHeader) (p : BitVec 96) (s : State) : Host.Outcome State Fault Refusal :=
  let lane := svcLane port
  s.onRx lane fun s =>
    s.svcTake lane h fun s1 =>
    if s1.tagOk lane h = false then s1.staleRx
    else if pbits p 95 88 ≠ 1 then s1
    else
      let t2 := s1.fineRx.toNat
      let x : Exchange := { id := pbits p 87 80, t1 := 16 * pbits p 63 0, at_ := s.mono, stepNo := s.time.stepNo, t2 }
      let s2 := s1.updTime fun t => { t with svcAnswer := t.svcAnswer.set (queueLane lane) x }
      (if s2.fromSource lane then s2.sourceHeard else s2).queueBlock lane tyReply (pf 88 3 + pf 80 (pbits p 87 80) + pf 32 ((t2 + 8) / 16 % 2 ^ 32))

/-- Whether a lane is the unit's source for the exchange of an ID: the twin lane in use, or the ring neighbour whose RING_TIME carried
the ID (R192, R407). -/
def State.sourceLane (s : State) (lane id : Nat) : Bool :=
  s.fromSource lane && (decide (130 ≤ lane) || s.ring.awaited.get? lane == some id)

/-- DELAY_RESP_RX (R193 to R195, R198, R205, R407): the offset to the source. -/
def execDelayRespRx (port : ServiceLane) (h : RxHeader) (p : BitVec 96) (s : State) : Host.Outcome State Fault Refusal :=
  let lane := svcLane port
  s.onRx lane fun s =>
    s.svcTake lane h fun s1 =>
    if s1.tagOk lane h = false then s1.staleRx
    else
      match s1.time.svcAnswer.get? (queueLane lane) with
      | some x =>
        if pbits p 95 88 = 2 ∧ x.id = pbits p 87 80 then
          let s2 := s1.updTime fun t => { t with svcAnswer := t.svcAnswer.erase (queueLane lane) }
          if x.stepNo = s.time.stepNo ∧ s.sourceLane lane x.id = true then
            s2.sourceHeard.takeOffset ((x.t1 : Int) + pbits p 63 32 - x.t2)
          else s2
        else s1
      | none => s1

/-- RING_TIME_SEND (R196, R199). -/
def execRingTimeSend (s : State) : Host.Outcome State Fault Refusal :=
  if s.ringEn ∧ s.isMaster ∧ s.time.ringDue ≤ s.mono then
    (((s.sendRingTime 128 0).sendRingTime 129 0).updTime fun t => { t with ringDue := s.mono + us 10 }).done
  else .next s

/-- RING_TIME_RX (R196 to R198, R407, R409): never forwarded as it stands. -/
def execRingTimeRx (side : RingSide) (h : RxHeader) (p : BitVec 96) (s : State) : Host.Outcome State Fault Refusal :=
  let lane := ringLane side
  s.onRx lane fun s =>
    let s1 := s.rxValid lane h
    if s1.ringStale p then s1.bump 0x0E05 noInst 1
    else
      ((s1.heard (pbits p 95 91)).holdEpoch (pbits p 95 91) (pbits p 79 64)).ringTime lane (pbits p 85 81) (pbits p 63 48) (pbits p 47 45)
        (pbits p 44 37)

/-- TIME_NEIGHBOUR_TIMEOUT (R197): the neighbour followed has been silent for 30 µs. -/
def execTimeNeighbourTimeout (s : State) : Host.Outcome State Fault Refusal :=
  let n := if s.ring.follow = .ringE then s.time.east else s.time.west
  if s.ring.follow ≠ .none ∧ s.elapsed n.at_ (us 30) = true then s.timeRefresh.done else .next s

/-- MASTER_LOSS_EXPIRE (R198). -/
def execMasterLossExpire (s : State) : Host.Outcome State Fault Refusal :=
  if (s.time.state = .locking ∨ s.time.state = .locked) ∧ s.elapsed s.time.lastMsg (us (s.p0 0x0607)) = true then s.masterLoss.done
  else .next s

/-! ### Station ports -/

/-- STA_FRAME_RX (R211 to R213). -/
def execStaFrameRx (port : Fin 2) (frame : List (BitVec 8)) (s : State) : Host.Outcome State Fault Refusal :=
  if s.staOn port && (s.port port).linkUp then
    if s.staAdmits port frame then
      (((s.bump 0x0707 port 1).ptpTake port (frame.drop (etherAt frame + 2)) (s.staRxStamp port)).ptpDrain port).done
    else .next (s.bump 0x0707 port 2)
  else .next s

/-- STA_LINK_UP (R213, log 104). -/
def execStaLinkUp (port : Fin 2) (align : Fin 10) (s : State) : Host.Outcome State Fault Refusal :=
  if s.staOn port then
    .next (s.modPort port fun p => { p with linkUp := true, align, listenAt := if p.linkUp then p.listenAt else s.mono })
  else .next s

/-- PTP_MESSAGE_TIMER (R211, R214, R217): Pdelay_Req from any port that runs PTP; Sync and Follow_Up from a port in MASTER, which also
announces itself every second. Messages that have waited for the port go first (log 13, log 133). -/
def execPtpMessageTimer (port : Fin 2) (kind : PtpTimer) (s0 : State) : Host.Outcome State Fault Refusal :=
  let s := (s0.ptpDrain port).ptpAnnounce port
  let p := s.port port
  if s.ptpRuns port = false then .next s
  else
    match kind with
    | .pdelayReq =>
      if s.elapsed p.pdelayAt (logTicks (s.ps 0x0705 port 5 1)) then
        let s1 := s.modPort port fun p => { p with pdelayAt := s.mono, pdelaySeq := (p.pdelaySeq + 1) % 2 ^ 16, pdelayT4 := none }
        .next (s1.ptpSend port
          { data := s.ptpFrame port (s.ptpHdr port 2 54 p.pdelaySeq 0 ++ beBytes 10 0 ++ beBytes 10 0), event := some p.pdelaySeq,
            keep := true, at_ := s.now })
      else .next s
    | .sync =>
      if s.ptpCode port = 6 ∧ s.elapsed p.syncAt (logTicks (s.ps 0x0705 port 4 1)) = true then
        let s1 := s.modPort port fun p => { p with syncAt := s.mono, syncSeq := (p.syncSeq + 1) % 2 ^ 16 }
        .next (s1.ptpSend port
          { data := s.ptpFrame port (s.ptpHdr port 0 44 p.syncSeq 0x0200 ++ beBytes 10 0), event := some p.syncSeq,
            follow := some (s.ptpFrame port (s.ptpHdr port 8 44 p.syncSeq 0), []), at_ := s.now })
      else .next s

/-- STA_LAUNCH_DUE (R210, R216 to R218): on a port that runs, the earliest frame is sent once its time has come and the port is free; its
stamp lies within 64 ticks of its launch (log 2). PTP messages whose gap came before go first (log 133). -/
def execStaLaunchDue (port : Fin 2) (s0 : State) : Host.Outcome State Fault Refusal :=
  let s := s0.ptpDrain port
  match (s.port port).queue with
  | [] => .next s
  | x :: rest =>
    let start := s.portFree port x.at_
    if s.now < start ∨ s.staUp port = false then .next s
    else
      let late := x.late || decide (x.at_ < start)
      let s1 := (s.tookFree.modPort port fun p =>
        { p with queue := rest, lastTx := wireFrame x.data, busyUntil := start + frameTicks x.data.length }).bump 0x0707 port 0
      let s2 := if late then s1.bump 0x0707 port 3 else s1
      .next (if x.stamp then ((s2.stampPut port { id := x.id, late, tick := start + s.freeVal % 65 }).1).stampPop port else s2)

/-! ### Captures and the pulse -/

/-- A write of TCAP_CTRL: a capture is stamped 150 ns to 350 ns after the write reaches the port; where, is free (R220, R221, log 2). -/
def State.tcapWrite (s : State) (v : Nat) : State :=
  let s1 := s.tcapCtrl v
  if bit v 0 then s1.tookFree.tcap (s.now + 1200 + s1.freeVal % 1601) false else s1

/-- TCAP_CAPTURE (R220, R221). -/
def execTcapCapture (w : BitVec 32) (s : State) : Host.Outcome State Fault Refusal :=
  if s.windowsUp then .next (s.hostWrote.tcapWrite w.toNat) else .next s

/-- TIME_CAP_IN_EDGE (R220, R221): the pin takes a level and keeps it for a number of ticks. Fewer than 16 are filtered out, and so is the
return from a pulse so ignored; an edge that stands is stamped within 2 ticks of it, where, is free (log 2). -/
def execTimeCapInEdge (rising : Bool) (s : State) (ticks : BitVec 32 := 16) : Host.Outcome State Fault Refusal :=
  let e := s.time.capEdge
  if ticks.toNat < 16 ∨ s.time.capLevel = some rising then .next s
  else
    let s1 := s.updTime fun t => { t with capLevel := some rising }
    if s.time.running && (e == 2 || (e == 0 && rising) || (e == 1 && !rising)) then
      .next (s1.tookFree.tcap (s.now + s.freeVal % 5 - 2) true)
    else .next s1

/-- A write of TCAP_STATUS (R11, R220). -/
def State.tcapStatus (s : State) (v : Nat) : State :=
  s.updTime fun t => { t with capValid := t.capValid && !bit v 0, capOverrun := t.capOverrun && !bit v 2 }

/-- TCAP_STATUS_WRITE (R220). -/
def execTcapStatusWrite (w : BitVec 32) (s : State) : Host.Outcome State Fault Refusal :=
  if s.windowsUp then .next (s.hostWrote.tcapStatus w.toNat) else .next s

/-- PPS_SECOND (R223, R565). -/
def execPpsSecond (s : State) : Host.Outcome State Fault Refusal :=
  let sec := s.ptpTime s.now / 8000000000
  if s.time.running ∧ s.time.ppsLast ≠ some sec then
    ((s.updTime fun t =>
      { t with ppsLast := some sec, ppsHigh := if t.ppsEn then some (s.mono + us (s.p0 0x060F)) else t.ppsHigh }).rtcPtp).done
  else .next s

/-- PPS_PULSE_END (R223). -/
def execPpsPulseEnd (s : State) : Host.Outcome State Fault Refusal :=
  match s.time.ppsHigh with
  | some t => if t ≤ s.mono then .next (s.updTime fun t => { t with ppsHigh := none }) else .next s
  | none => .next s

/-! ### Commands -/

/-- Whether a string of the group runs, as the ring summaries and this unit's own strings show (R226, R413). -/
def State.groupRuns (s : State) : Bool :=
  s.anyRuns || s.ring.summary.cells.any fun c => inR c.2.state 1 3

/-- TIME_SET (R226, R672, log 48). -/
def execTimeSet (mb : Fin 8) (s : State) : Host.Outcome State Fault Refusal :=
  (s.withCmd mb 0x0620 true fun q s =>
    let new := uAt q.payload 0 8
    let old := s.now
    if s.isMaster = false then s.generic mb stNotInRole 0x32
    else if s.groupRuns = true then s.refuse mb stRefused 0x30
    else
      let s1 := if bit (uAt q.payload 8 1) 0 then s.setParam 0x060D noInst (ptpBytes ((s.ptpOffset : Int) + old - new)) else s
      ((s1.timeStep new).updTime fun t => { t with named := true }).replyOk mb (leBytes 8 old)).done

/-- Sends a claim for a head round the ring, for a mailbox that waits for its acknowledgements (R227). -/
def State.claimMaster (s : State) (mb head : Nat) : State :=
  let gen := (s.time.gen + 1) % 2 ^ 16
  let others := (List.range 8).filter fun h => h != s.headId && s.headPresent h
  let c : MasterClaim := { mbs := [mb], head, gen, waitFor := others, at_ := s.mono }
  let s1 := ((s.updTime fun t => { t with claim := some c }).masterSend 1 allNodes gen head s.node).waitFor mb .timeMaster
  if others.isEmpty then s1.masterCommit else s1

/-- TIME_MASTER_SET (R227): the claim goes round the ring; the reply waits for the acknowledgements. While a claim of this unit is out, a
second one is of the same generation: for the same head it joins, else the lower head stands (log 50). -/
def execTimeMasterSet (mb : Fin 8) (s : State) : Host.Outcome State Fault Refusal :=
  (s.withCmd mb 0x0621 true fun q s =>
    let head := uAt q.payload 0 1
    let expect := uAt q.payload 2 2
    if 7 < head ∨ s.headPresent head = false then s.refuse mb stBadParam 0x05
    else if expect ≠ 0xFFFF ∧ expect ≠ s.time.gen then s.refuse mb stRefused 0x39
    else
      match s.time.claim with
      | none => s.claimMaster mb head
      | some c =>
        if head = c.head then (s.updTime fun t => { t with claim := some { c with mbs := c.mbs ++ [mb.val] } }).waitFor mb .timeMaster
        else if head < c.head then (s.masterDrop c stRefused 0x38).claimMaster mb head
        else s.refuse mb stRefused 0x38).done

/-- RING_MASTER_RX (R227, R408). -/
def execRingMasterRx (side : RingSide) (h : RxHeader) (p : BitVec 96) (s : State) : Host.Outcome State Fault Refusal :=
  s.onRx (ringLane side) fun s =>
    s.ringTake side h 0x44 p fun s =>
      if pbits p 63 60 = 1 then s.masterClaimed (pbits p 59 44) (pbits p 43 41) (pbits p 40 36)
      else if pbits p 63 60 = 2 then s.masterAcked (pbits p 59 44) (pbits p 43 41) (pbits p 95 91) (pbits p 40 36)
      else s

/-- TIME_MASTER_SET_TIMEOUT (R227). -/
def execTimeMasterSetTimeout (s : State) : Host.Outcome State Fault Refusal :=
  match s.time.claim with
  | some c => if s.elapsed c.at_ (us 200) then s.masterCommit.done else .next s
  | none => .next s

/-- Puts a frame into a launch queue behind those of an earlier or an equal time (R216). -/
def launchInsert (x : StaFrame) : List StaFrame → List StaFrame
  | [] => [x]
  | y :: r => if y.at_ ≤ x.at_ then y :: launchInsert x r else x :: y :: r

/-- STA_LAUNCH (R189, R216 to R218, R228). -/
def execStaLaunch (mb : Fin 8) (s : State) : Host.Outcome State Fault Refusal :=
  (s.withCmd mb 0x0710 true fun q s =>
    let port := uAt q.payload 0 1
    let id := uAt q.payload 2 2
    let short := uAt q.payload 4 4
    let off := uAt q.payload 8 4
    let len := uAt q.payload 12 2
    let d := shortDiff short s.shortNow
    if 1 < port then s.refuse mb stBadParam 0x05
    else if s.staOn port = false then s.refuse mb stRefused 0x36
    else if 0xF000 ≤ id then s.refuse mb stBadParam 0x35
    else if inR len 14 1514 = false ∨ spanOk off len = false then s.refuse mb stBadParam 0x05
    else if 800000000 < d then s.refuse mb stBadParam 0x34
    else if d ≤ 0 ∧ s.pu 0x0708 port 0 1 = 0 then s.refuse mb stRefused 0x33
    else if 32 ≤ (s.port port).queue.length then
      let t := (((s.port port).queue.map (·.at_)).head?).getD s.now
      s.busy mb (ceilDiv (s.portFree port t - s.now) 8000)
    else
      let x : StaFrame :=
        { id, stamp := bit (uAt q.payload 1 1) 0, late := decide (d ≤ 0), at_ := if d ≤ 0 then s.now else s.tickOf short,
          data := s.mpRead off len }
      let s1 := (s.mpTook off len).modPort port fun p => { p with queue := launchInsert x p.queue }
      s1.replyOk mb (leBytes 1 (32 - (s1.port port).queue.length) ++ [0, 0, 0])).done

/-- STA_STAMP_READ (R218, R219, R229). -/
def execStaStampRead (mb : Fin 8) (s : State) : Host.Outcome State Fault Refusal :=
  (s.withCmd mb 0x0711 false fun q s =>
    let port := uAt q.payload 0 1
    if 1 < port then s.refuse mb stBadParam 0x05
    else
      let mine := (s.port port).stamps.filter fun x => decide (x.id < 0xF000)
      let s1 := s.modPort port fun p => { p with stamps := p.stamps.filter fun x => decide (0xF000 ≤ x.id) }
      (s1.stampPop port).replyOk mb (leBytes 1 mine.length ++ [0] ++ leBytes 2 ((s.counts 0x0707 port).getD 4 0) ++
        (mine.map fun x => leBytes 2 x.id ++ leBytes 2 (b2n x.late) ++ leBytes 8 x.tick).flatten)).done

end Sys2Proof.Machine
end

