-- ==== Sys2Proof/Machine/Twin.lean ====
section
/-!
DEFINITION. The meanings of the rows of chapter 10 but for TW_FWD_RX and TW_HEALTH_PERIOD: the twin lanes' blocks, checks, cases, switches
and the role commands (R366 to R399).
-/

namespace Sys2Proof.Machine

/-! ### Receiving (R371, R372) -/

/-- Takes the first copy of a twin block; a second copy is discarded (R371). -/
def State.twinTake (s : State) (side : TwinSide) (h : RxHeader) (f : State → State) : State :=
  s.twinFirst (twinLane side) h f

/-- Takes a block by its EPOCH field: an older one is discarded (R372). -/
def State.byEpoch (s : State) (e : Nat) (f : State → State) : State := if sdiff 16 e s.twin.epoch < 0 then s.staleRx else f s

/-- Takes a block without an EPOCH field by its ETAG (R372). -/
def State.byTag (s : State) (h : RxHeader) (f : State → State) : State :=
  if h.etag.toNat = s.twin.epoch % 4 then f s else s.staleRx

/-- What a TW_ROLE of the peer means to an active (R368, R369, R386). -/
def State.peerSeen (s : State) (was : Option Nat) (e role unit : Nat) (qual : Bool) : State :=
  let newer := decide (0 < sdiff 16 e s.twin.epoch)
  if role = 1 then (if newer then s.splitSeen e else s)
  else if role = 2 ∧ s.twinEn = true ∧ unit ≠ s.unit then
    if s.twin.sameStepping = false then s
    else if s.twin.paired = false ∨ s.twin.standbyLost = true ∨ was ≠ some 2 then s.acceptJoin e
    else
      let s1 := if newer then s.setRole .active e else s
      if qual then s1.updTwin fun t => { t with qualifying := none }
      else if s1.twin.qualifying.isNone then s1.qualifyStart else s1
  else if newer then s.setRole .active e
  else s

/-- TW_ROLE_RX (R368, R369, R371, R386). -/
def execTwRoleRx (side : TwinSide) (h : RxHeader) (p : BitVec 96) (s : State) : Host.Outcome State Fault Refusal :=
  s.onRx (twinLane side) fun s => s.twinTake side h fun s => s.byEpoch (pbits p 95 80) fun s =>
    let e := pbits p 95 80
    let role := pbits p 79 72
    let qual := pbits p 70 70 = 1
    let s1 := s.updTwin fun t =>
      { t with peerRole := some role, peerEpoch := e, peerUnit := pbits p 71 71, peerQualified := decide qual,
               peerGens := (pbits p 63 32, pbits p 31 0) }
    match s.twin.role with
    | .active => (s1.peerSeen s.twin.peerRole e role (pbits p 71 71) qual).fatalWatch
    | .standby => if 0 < sdiff 16 e s.twin.epoch then s1.setRole .standby e else s1
    | .maint => if s.twinEn = true ∧ 0 < sdiff 16 e s.twin.epoch then s1.setRole .maint e else s1
    | _ => s1

/-- Whether the present boundary's record may still come in time: 8 µs after the boundary that ended its period (R375, R382). -/
def State.compareInTime (s : State) : Bool := decide (s.now ≤ s.le.next - s.p0 0x0B02 + us 8)

/-- TW_COMPARE_RX (R374 to R377, R382). -/
def execTwCompareRx (side : TwinSide) (h : RxHeader) (part : ComparePart) (p : BitVec 96) (s : State) :
    Host.Outcome State Fault Refusal :=
  s.onRx (twinLane side) fun s => s.twinTake side h fun s =>
    match part with
    | .a => s.byEpoch (pbits p 95 80) fun s =>
      if s.twin.role = .standby then
        (s.updTwin fun t =>
          { t with rxA := some (pbits p 79 64, pbits p 63 32, pbits p 31 0),
                   compareJ := if s.compareInTime then some (pbits p 79 64) else t.compareJ }).classifyReady
      else s
    | .b => s.byTag h fun s =>
      if s.twin.role = .standby then
        (s.updTwin fun t =>
          { t with rxB := some (pbits p 95 80, pbits p 79 64, pbits p 63 32, pbits p 31 0) }).classifyReady
      else s

/-- Whether no ring message of the active has come for 20 µs, where both units are ring members (R382). -/
def State.ringSilent (s : State) : Bool :=
  let n := 2 * s.headId + (1 - s.unit)
  let x := s.rnode n
  !s.ringEn || !x.present || (match x.heardAt with
    | some t => s.elapsed t (us 20)
    | none => true)

/-- COMPARE_DEADLINE (R375, R382, R400): 8 µs after the boundary that ended the period. -/
def execCompareDeadline (s : State) : Host.Outcome State Fault Refusal :=
  match s.twin.digests with
  | [] => .next s
  | d :: _ =>
    let c := s.le.next - s.p0 0x0B02
    if c + us 8 ≤ s.now ∧ s.twin.dueJ ≠ some d.j then
      let s1 := s.updTwin fun t => { t with dueJ := some d.j }
      if s.twin.role ≠ .standby ∨ s.twin.qualified = false then .next s1
      else
        let got := s.twin.compareJ == some (d.j % 2 ^ 16)
        let s2 := s1.classifyReady.updTwin fun t => { t with missed := if got then 0 else t.missed + 1, rxA := none, rxB := none }
        let s3 := s2.twinLinkWatch
        (if 2 ≤ s3.twin.missed ∧ s3.twin.peerAlive = false ∧ s3.twin.qualified = true ∧ s3.ringSilent = true then s3.takeOver
         else s3).done
    else .next s

/-- TW_TRIP_RX (R372, R378): whatever its epoch. -/
def execTwTripRx (side : TwinSide) (h : RxHeader) (p : BitVec 96) (s : State) : Host.Outcome State Fault Refusal :=
  s.onRx (twinLane side) fun s => s.twinTake side h fun s =>
    let str := pbits p 79 72
    let mask := pbits p 71 56
    if s.inPair = false ∨ 15 < str then s
    else
      let own := match (s.prt str).ownTrip with
        | some t => decide (s.mono ≤ t + us 4)
        | none => false
      let s1 := s.tripMask str mask 0xFFFF
      if own then s1 else (s1.bump 0x0D05 noInst 5).fire 0x42 str (leBytes 2 mask)

/-! ### Acknowledgements (R373, R387) -/

/-- Ends the command of a forwarded write with a result: 0 OK, and counted, 1 STALE, otherwise failed (R372 to R374, log 74). -/
def State.fwdEnd (s : State) (f : FwdOut) (result : Nat) : State :=
  let s1 := s.updTwin fun t =>
    { t with fwdOut := t.fwdOut.filter fun x => x.xfer != f.xfer, fwdCount := if result = 0 then t.fwdCount + 1 else t.fwdCount }
  if result = 1 then s1.refuse f.mb stStale 0
  else if result ≠ 0 then s1.refuse f.mb stFailed 0x8C
  else
    match (s.box f.mb).waiting with
    | .standbyAck st pl =>
      let q := (s.box f.mb).taken.getD { opcode := 0, seq := 0, epoch := 0, length := 0, payload := [] }
      if q.opcode = 0x0511 then s1.reauthTaken f.mb q
      else if q.opcode = 0x0D11 then
        let c := s.boundaryFrom (s.now + 8000)
        (s1.updTwin fun t => { t with switch := some { at_ := c, rising := false } }).reply f.mb st (leBytes 4 c)
      else s1.reply f.mb st pl
    | _ => s1

/-- TW_ACK_RX (R372, R373, log 72, log 74). -/
def execTwAckRx (side : TwinSide) (h : RxHeader) (p : BitVec 96) (s : State) : Host.Outcome State Fault Refusal :=
  s.onRx (twinLane side) fun s => s.twinTake side h fun s => s.byEpoch (pbits p 95 80) fun s =>
    match s.twin.fwdOut.find? fun f => f.xfer == pbits p 79 72 with
    | some f => s.fwdEnd f (pbits p 71 64)
    | none => s

/-- TW_FWD_TIMEOUT (R373). -/
def execTwFwdTimeout (s : State) : Host.Outcome State Fault Refusal :=
  match s.twin.fwdOut.find? fun f => s.elapsed f.at_ (us 200) with
  | some f => (s.fwdEnd f 2).done
  | none => .next s

/-! ### State from the active (R279, R288, R360, R369, R377) -/

/-- The active's order of a string's boundary: a plan that waits for it is made (R288). -/
def State.orderTake (s : State) (str k : Nat) (lanes : List Nat) : State :=
  let s1 := s.modSrt str fun x => { x with fromActive := some (k, lanes) }
  let y := s.str str
  if y.orderWait = true ∧ y.k = k ∧ s.now ≤ y.bAt + 6400 then
    match activeOrder (s1.srt str).order lanes with
    | some o =>
      ((s1.modSrt str fun x => { x with order := insertFirst y.level o, judgedK := some k }).modStr str fun y =>
        { y with orderWait := false }).planNow str
    | none => s1
  else s1

/-- Takes the content of a TW_STATE block (R371). -/
def State.twinState (s : State) (m : TwStateMsg) : State :=
  match m with
  | .dtStep l g t n =>
    let mv : DtMove := if 0 ≤ n then .up n.toNat else .down n.natAbs
    s.modDleg l g fun d => { d with steps := d.steps ++ [((s.tickOf t.toNat : Int), mv)] }
  | .dtFallback l g t v on =>
    if on then
      (s.modDleg l g fun d =>
        { d with fallback := true, good := 0, steps := d.steps ++ [((s.tickOf t.toNat : Int), .set v.toNat)] }).condOn 0x2C l g
        (leBytes 1 g)
    else s.dtUnfall l g
  | .order str k lanes => s.orderTake str k (lanes.map (·.val))
  | .ride st reason => s.takeItem (.ride st reason)
  | .resync items last =>
    if s.twin.resync then
      s.updTwin fun t => { t with resyncItems := t.resyncItems ++ items, resyncIn := t.resyncIn || last }
    else s
  | .qualify items last =>
    if s.twin.qualified then s
    else (items.foldl (fun s x => s.takeItem x) s).updTwin fun t =>
      { t with qualifyIn := t.qualifyIn + 1, qualifyDone := t.qualifyDone || last }

/-- TW_STATE_RX (R371, R372). -/
def execTwStateRx (side : TwinSide) (h : RxHeader) (m : TwStateMsg) (s : State) : Host.Outcome State Fault Refusal :=
  s.onRx (twinLane side) fun s => s.twinTake side h fun s => s.byTag h fun s => if s.twin.role = .standby then s.twinState m else s

/-! ### Health, cases, surrender, reset -/

/-- TW_HEALTH_RX (R380, R381): the peer's report; an unqualified standby is qualified again (R376). -/
def execTwHealthRx (side : TwinSide) (h : RxHeader) (p : BitVec 96) (s : State) : Host.Outcome State Fault Refusal :=
  s.onRx (twinLane side) fun s => s.twinTake side h fun s => s.byEpoch (pbits p 95 80) fun s =>
    (s.updTwin fun t =>
      { t with peerHealth := rxBytes p, peerHealthAt := some s.mono, peerQualified := decide (pbits p 32 32 = 1) }).fatalWatch

/-- Starts a resync on the active: the chunks follow its next walk, or its next control boundary while the engine is STOPPED (R377, R399,
log 78). -/
def State.resyncBegin (s : State) : State :=
  if s.twin.role = .active then s.updTwin fun t => { t with resync := true, resyncFrom := s.le.j, resyncIn := false, resyncItems := [], healthOwed := true } else s

/-- The rule of R389 that settled a case the other unit has closed, which TW_CASE does not carry: a free one of those that REF_MODE leaves
(R371, R388, R389, R391, log 2). -/
def State.closedRule (s : State) : Nat :=
  if s.refMode = 1 then 1 + s.freeVal % 4 else if s.refMode = 2 then 4 + s.freeVal % 2 else 4

/-- TW_CASE_RX (R377, R386, R388 to R391, log 75). -/
def execTwCaseRx (side : TwinSide) (h : RxHeader) (p : BitVec 96) (s : State) : Host.Outcome State Fault Refusal :=
  s.onRx (twinLane side) fun s => s.twinTake side h fun s => s.byEpoch (pbits p 95 80) fun s =>
    let j := pbits p 79 64
    let code := pbits p 63 56
    let v := pbits p 55 48
    if code = 1 then
      if s.twin.role = .active ∧ s.twin.caseOpen = false then
        let d := (s.twin.digests.find? fun d => d.j % 2 ^ 16 == j).getD {}
        let f := s.freeVal
        s.tookFree.caseOpen
          { j := if d.j % 2 ^ 16 = j then d.j else j, t0 := s.shortNow, cls := f % 8, outActive := d.outDig, outStandby := f / 8 % 2 ^ 32,
            edgeActive := d.edgeDig, edgeStandby := f / 2 ^ 20 % 2 ^ 32 }
      else s
    else if code = 2 then s.resyncBegin
    else if code = 3 ∧ s.twin.role = .active ∧ v = 2 ∧ 0 < sdiff 16 (pbits p 95 80) s.twin.epoch then s.splitSeen (pbits p 95 80)
    else if code = 3 ∧ s.twin.caseOpen = true then
      if inR v 1 3 then s.tookFree.verdict v s.closedRule else s.caseEnd 4 s.twin.case.rule
    else s

/-- TW_SURRENDER_RX (R382, R400). -/
def execTwSurrenderRx (side : TwinSide) (h : RxHeader) (p : BitVec 96) (s : State) : Host.Outcome State Fault Refusal :=
  s.onRx (twinLane side) fun s => s.twinTake side h fun s => s.byEpoch (pbits p 95 80) fun s =>
    if s.twin.role = .standby ∧ s.twin.qualified = true then (s.updTwin fun t => { t with peerRole := some 5 }).takeOver else s

/-- TW_RESET_RX (R398): a chip reset with cause UNIT_RESET (R646). -/
def execTwResetRx (side : TwinSide) (h : RxHeader) (p : BitVec 96) (s : State) : Host.Outcome State Fault Refusal :=
  s.onRx (twinLane side) fun s => s.twinTake side h fun s => s.byEpoch (pbits p 95 80) fun s => s.later (.chipReset 3 0xFF)

/-! ### Timers of the twin -/

/-- PEER_ALIVE_TIMEOUT (R367, R385). -/
def execPeerAliveTimeout (s : State) : Host.Outcome State Fault Refusal :=
  if s.twin.peerAlive = true ∧ s.elapsed s.twin.aliveAt (us 20) = true then
    ((s.updTwin fun t => { t with peerAlive := false }).twinLinkWatch).done
  else .next s

/-- TWIN_ALIVE_IN_EDGE (R367). -/
def execTwinAliveInEdge (s : State) : Host.Outcome State Fault Refusal :=
  ((s.updTwin fun t => { t with peerAlive := true, aliveAt := s.mono }).twinLinkWatch).done

/-- TWIN_STREAM_LOST (R371, R192, R385): neither lane has delivered a valid block for 2 µs. -/
def execTwinStreamLost (s : State) : Host.Outcome State Fault Refusal :=
  if s.twinEn = true ∧ s.twin.streamLost = false ∧ s.elapsed s.twin.rxAt (us 2) = true then
    ((s.updTwin fun t => { t with streamLost := true, rxSeq := none }).twinLinkWatch.timeRefresh).done
  else .next s

/-- SELFTEST_PERIOD (R379, R381): overdue only after twice the check's period; checks 8 to 11 follow from the state. -/
def execSelftestPeriod (bit : Fin 12) (result : TestResult) (s : State) : Host.Outcome State Fault Refusal :=
  let late := match checkPeriod bit with
    | some p => s.elapsed (s.twin.checkAt.get 0 bit) (2 * p)
    | none => true
  if 8 ≤ bit.val then (s.checkDone bit (s.checkNow bit)).done
  else match result with
  | .pass => (s.checkDone bit true).done
  | .fail => (s.checkDone bit false).done
  | .overdue => if late then (s.checkDone bit false).done else .next s

/-- QUALIFY_COMPLETE (R369). -/
def execQualifyComplete (s : State) : Host.Outcome State Fault Refusal :=
  if s.twin.role = .standby ∧ s.twin.qualified = false ∧ s.twin.qualifyDone = true ∧ s.twin.barred = false ∧
      bits s.twin.failed 7 0 = 0 then
    let s1 := (s.updTwin fun t => { t with qualified := true, healthOwed := true, missed := 0, stateEqJ := none }).note 0x0A 0x0D01
      (leBytes 2 s.twin.epoch)
    s1.freshCells.twRole.done
  else .next s

/-- TWIN_LANES_DOWN_TIMEOUT (R370). -/
def execTwinLanesDownTimeout (s : State) : Host.Outcome State Fault Refusal :=
  match s.twin.downSince with
  | some t => if s.twin.role = .standby ∧ s.twin.qualified = true ∧ s.elapsed t (ms 1000) = true then s.unqualify.done else .next s
  | none => .next s

/-- TWIN_STANDBY_TIMEOUT (R385). -/
def execTwinStandbyTimeout (s : State) : Host.Outcome State Fault Refusal :=
  if s.twin.role = .active ∧ s.twin.paired = true ∧ s.twin.standbyLost = false ∧ s.twin.peerAlive = false ∧
      s.elapsed s.twin.rxAt (ms 2) = true then
    ((s.updTwin fun t => { t with standbyLost := true, peerRole := none, qualifying := none, resync := false }).condOn 0x46 noInst 0
      []).done
  else .next s

/-- TWIN_SWITCH_BOUNDARY (R370, R387): C_s has come; a standby that has lost QUALIFIED does not rise. -/
def execTwinSwitchBoundary (s : State) : Host.Outcome State Fault Refusal :=
  match s.twin.switch with
  | some w =>
    if s.now < w.at_ then .next s
    else
      let s1 := s.updTwin fun t => { t with switch := none }
      if w.rising then (if s.twin.role = .standby ∧ s.twin.qualified = true then (s1.toActive s.nextEpoch).done else .next s1)
      else .next (s1.updTwin fun t => { t with handoverUntil := some (s.mono + 160000) })
  | none => .next s

/-- SWITCH_HANDOVER_END (R387): the former active becomes STANDBY at E + 1. -/
def execSwitchHandoverEnd (s : State) : Host.Outcome State Fault Refusal :=
  match s.twin.handoverUntil with
  | some t =>
    if s.mono < t then .next s
    else
      let s1 := (s.updTwin fun t => { t with handoverUntil := none }).setRole .standby s.nextEpoch
      (s1.updTwin fun t => { t with qualified := true, qualifyDone := true, peerRole := some 1, missed := 0 }).timeRefresh.done
  | none => .next s

/-! ### Arbitration -/

/-- CASE_REPLAY_DONE (R389, R390, R414): the claim goes to a referee on the ring. What the peer's replay gave, and the length of the
evidence, are free values (log 14). -/
def execCaseReplayDone (reproduced : Bool) (s : State) : Host.Outcome State Fault Refusal :=
  if s.twin.caseOpen = true ∧ s.twin.replayed = none ∧ s.inPair = true then
    let act := decide (s.twin.role = .active)
    let f := s.freeVal
    let own := b2n reproduced
    let peer := f % 2
    let num := s.twin.case.j % 4096
    let chunks := f / 2 % 16385
    let e := s.twin.frozen.getD {}
    let dig := (Config.dig 5 ((e.j : Int) :: (e.loops.cells.flatMap fun c => [(c.1 : Int), c.2.i, c.2.out]) ++ e.snap ++ e.inputs)).toNat
    let s1 := s.tookFree.updTwin fun t =>
      { t with replayed := some reproduced, case := { t.case with replay := if act then own + 2 * peer else peer + 2 * own },
               evidOut := if act && decide (s.refMode = 1) then some (num, 0, chunks) else none }
    (if s.refMode = 1 then s1.ringSend 0x46 16 (pf 60 2 + pf 48 num + pf 47 own + pf 32 chunks + dig) else s1).done
  else .next s

/-- ARB_VD_STABLE (R389): a code other than none, stable for 2 µs while ARB_REQ_N is low. -/
def execArbVdStable (code : BitVec 2) (s : State) : Host.Outcome State Fault Refusal :=
  if s.twin.arbReqLow = true ∧ code ≠ 0 then (s.verdict code.toNat 5).done else .next s

/-- REF_TIMEOUT_EXPIRE (R388, R390, log 76). -/
def execRefTimeoutExpire (s : State) : Host.Outcome State Fault Refusal :=
  if s.twin.caseOpen = true ∧ s.elapsed s.twin.caseAt (us 500) = true then (s.verdict (1 + s.pu 0x0D02 noInst 2 1) 4).done else .next s

/-! ### Commands -/

/-- Whether neither unit's Ubfer VERSION lies below the other's PAIR_MIN (R609, log 14). -/
def State.pairCompatible (s : State) : Bool :=
  decide (Config.peerPairMin.toNat ≤ s.fw.active.version) && decide (s.fw.active.pairMin ≤ Config.peerVersion.toNat)

/-- The refusal of a ROLE_SET, status and reason, if any (R396, log 117). -/
def State.roleRefusal (s : State) (r : Role) (force : Bool) : Option Nat :=
  let now := s.twin.role
  let up := s.twinLinkUp
  let stopped := (List.range 16).all s.strStopped
  match r with
  | .active =>
    if s.twinEn ∧ now ≠ .active ∧ ((up = true ∧ s.twin.peerRole = some 1) ∨ (up = false ∧ s.twin.peerAlive = true ∧ force = false)) then
      some 0x81
    else none
  | .standby =>
    if s.twinEn = false ∨ up = false ∨ s.twin.peerRole ≠ some 1 then some 0x82
    else if s.twin.peerUnit = s.unit ∨ s.twin.sameStepping = false then some 0x8A
    else if s.pairCompatible = false then some 0xF8
    else none
  | .referee => if now = .active ∨ now = .standby then some 0x83 else none
  | .maint =>
    if now = .active ∧ s.qualifiedStandby = true ∧ force = false then some 0x84
    else if now = .active ∧ s.qualifiedStandby = false ∧ stopped = false then some 0x85
    else none
  | _ => none

/-- A referee holds no roll: both copies are empty, nothing is pending, ROLL_GEN reads 0; the stored roll stays (R45, log 129). -/
def State.dropRoll (s : State) : State :=
  s.roll.working.cells.foldl (fun s c => s.laneTypeChanged c.1 (eType c.2) 0)
    (s.updRoll fun r => { r with working := {}, shadow := {}, pend := none, gen := 0 })

/-- Takes the role of a ROLE_SET that is not refused (R368, R369, R396). -/
def State.roleTake (s : State) (r : Role) : State :=
  if r = s.twin.role then s
  else
    match r with
    | .active => s.toActive s.nextEpoch
    | .standby =>
      let e := (if 0 < sdiff 16 s.twin.peerEpoch s.twin.epoch then s.twin.peerEpoch else s.twin.epoch) + 1
      let s1 := (s.setRole .standby e).updTwin fun t =>
        { t with paired := true, qualified := false, qualifyDone := false, qualifyIn := 0, missed := 0,
                 barred := t.barred || decide (bits t.failed 7 0 ≠ 0) }
      (s1.haltCells.twRole).timeRefresh
    | .maint => if s.twin.role = .active ∧ s.qualifiedStandby = true then s.surrender else s.setRole .maint s.nextEpoch
    | .referee => (s.setRole r s.nextEpoch).dropRoll
    | _ => s.setRole r s.nextEpoch

/-- ROLE_SET (R396). -/
def execRoleSet (mb : Fin 8) (s : State) : Host.Outcome State Fault Refusal :=
  (s.withCmd mb 0x0D10 true fun q s =>
    match roleOf (uAt q.payload 0 1) with
    | none => s.refuse mb stBadParam 0x05
    | some r =>
      match s.roleRefusal r (bit (uAt q.payload 1 1) 0) with
      | some x => s.refuse mb stRefused x
      | none =>
        let s1 := s.roleTake r
        s1.replyOk mb (leBytes 2 s1.twin.epoch ++ leBytes 1 s1.roleCode ++ [0])).done

/-- TWIN_SWITCH (R387, R397): the reply waits for the standby's acknowledgement. -/
def execTwinSwitch (mb : Fin 8) (s : State) : Host.Outcome State Fault Refusal :=
  (s.withCmd mb 0x0D11 true fun q s =>
    if s.twin.role ≠ .active then s.generic mb stNotInRole 0x8B
    else if s.qualifiedStandby = false then s.refuse mb stRefused 0x86
    else if s.twin.caseOpen = true ∨ s.twin.resync = true then s.refuse mb stRefused 0x87
    else if s.twinLinkUp = false then s.refuse mb stRefused 0x80
    else (s.forwardRequest mb q).waitFor mb (.standbyAck stOk [])).done

/-- UNIT_RESET (R383, R398). -/
def execUnitReset (mb : Fin 8) (s : State) : Host.Outcome State Fault Refusal :=
  (s.withCmd mb 0x0D12 true fun q s =>
    let target := uAt q.payload 0 1
    let force := bit (uAt q.payload 1 1) 0
    let busy := s.twin.role = .active ∧ (List.range 16).all s.strStopped = false
    if 1 < target then s.refuse mb stBadParam 0x05
    else if target = 0 ∧ busy ∧ force = false then s.refuse mb stRefused 0x88
    else if target = 1 ∧ s.twin.peerRole = some 1 then s.refuse mb stRefused 0x89
    else if target = 1 ∧ s.twinLinkUp = false then s.refuse mb stRefused 0x80
    else
      let s1 := if target = 0 ∧ busy then s.surrender else s
      (s1.updTwin fun t => { t with resetDue := some (s.mono + ms 1, target == 1) }).replyOk mb []).done

/-- UNIT_RESET_DELAY (R398): 1 ms after DONE this unit resets, or asks the twin to. -/
def execUnitResetDelay (s : State) : Host.Outcome State Fault Refusal :=
  match s.twin.resetDue with
  | some (t, twin) =>
    if s.mono < t then .next s
    else
      let s1 := s.updTwin fun t => { t with resetDue := none }
      (if twin then s1.twinSend 0x3A (pf 80 s.twin.epoch) else s1.later (.chipReset 3 0xFF)).done
  | none => .next s

/-- TWIN_RESYNC (R377, R399): the boundary at which the standby adopts is a free value (log 2). -/
def execTwinResync (mb : Fin 8) (s : State) : Host.Outcome State Fault Refusal :=
  (s.withCmd mb 0x0D13 true fun _ s =>
    if s.twin.role ≠ .active then s.generic mb stNotInRole 0x8B
    else if s.qualifiedStandby = false then s.refuse mb stRefused 0x86
    else if s.twin.caseOpen = true ∨ s.twin.resync = true then s.refuse mb stRefused 0x87
    else if s.twinLinkUp = false then s.refuse mb stRefused 0x80
    else (s.tookFree.resyncBegin).replyOk mb (leBytes 4 s.freeVal)).done

end Sys2Proof.Machine
end

