-- ==== Sys2Proof/Machine/Firmware.lean ====
section
/-!
DEFINITION. The meanings of the rows of the loft, the start of new firmware, endpoint images, the owner lock, the life-cycle and the
attic log (chapter 19), but for PKG_APPLY.
-/

namespace Sys2Proof.Machine

/-! ### The loft (R605, R606) -/

/-- A command with a UNIT field, this unit's own check and effect, and pantry bytes the forwarded form carries (R132, R605, log 16). -/
def State.unitData (s : State) (mb : Nat) (q : Request) (unit : Nat) (payload d : Bytes) (own : State → State) : State :=
  if 1 ≤ unit ∧ s.hasStandby = false then s.refuse mb stBadParam 0x22
  else if 1 ≤ unit ∧ s.forwardBarred = true then s.refuse mb stRefused 0x80
  else
    let s1 := if unit = 1 then s else own s
    if unit = 0 then s1.replyOk mb payload else s1.finishWrite mb q payload d

/-- LOFT_WRITE with its bytes (R605, log 99). -/
def State.loftWrite (s : State) (mb : Nat) (q : Request) (d : Bytes) : State :=
  s.unitData mb q (uAt q.payload 0 1) [] d fun s => s.loftPut (uAt q.payload 8 4) d

/-- LOFT_WRITE (R605, R622). -/
def execLoftWrite (mb : Fin 8) (s : State) : Host.Outcome State Fault Refusal :=
  (s.withCmd mb 0x1810 true fun q s =>
    let unit := uAt q.payload 0 1
    let off := uAt q.payload 4 4
    let dst := uAt q.payload 8 4
    let n := uAt q.payload 12 4
    if 2 < unit ∨ off % 4 ≠ 0 ∨ dst % 4 ≠ 0 ∨ inR n 4 131072 = false ∨ spanOk off n = false ∨ 0x200000 < dst + n then
      s.refuse mb stBadParam 0x05
    else (s.mpTook off n).loftWrite mb q (s.mpRead off n)).done

/-- LOFT_VERIFY's refusal by this unit's own checks; `both` asks for the pair's too (R602, R603, R609). -/
def State.verifyFault (s : State) (both : Bool) : Option (Nat × Nat) :=
  match s.loftFault with
  | some r => some r
  | none => if both && decide (Config.peerVersion.toNat < s.fw.loft.pairMin) then some (stRefused, 0xF8) else none

/-- LOFT_VERIFY (R602, R603, R605, R609). With UNIT 1 the versions of the standby's loft are free values (log 2, log 14, log 99). -/
def execLoftVerify (mb : Fin 8) (s : State) : Host.Outcome State Fault Refusal :=
  (s.withCmd mb 0x1811 true fun q s =>
    let unit := uAt q.payload 0 1
    if 2 < unit then s.refuse mb stBadParam 0x05
    else if unit = 1 then s.tookFree.unitData mb q unit (leBytes 8 s.freeVal) [] id
    else
      match s.verifyFault (unit == 2) with
      | some r => s.refuse mb r.1 r.2
      | none =>
        s.unitData mb q unit (leBytes 4 s.fw.loft.version ++ leBytes 4 s.fw.loft.pairMin) [] fun s =>
          s.updFw fun f => { f with loftSt := .verified, activateAt := 0 }).done

/-- LOFT_SCHEDULE (R604, R606). -/
def execLoftSchedule (mb : Fin 8) (s : State) : Host.Outcome State Fault Refusal :=
  (s.withCmd mb 0x1812 true fun q s =>
    let unit := uAt q.payload 0 1
    let t := uAt q.payload 8 8
    if 2 < unit then s.refuse mb stBadParam 0x05
    else if unit ≠ 1 ∧ s.fw.loftSt ≠ .verified ∧ s.fw.loftSt ≠ .scheduled then s.refuse mb stRefused 0xF9
    else if t ≠ 0 ∧ t < s.now + 8000000 then s.refuse mb stBadParam 0xFA
    else
      s.unitData mb q unit [] [] fun s =>
        s.updFw fun f => { f with loftSt := if t = 0 then .verified else .scheduled, activateAt := t }).done

/-! ### The start of new firmware (R607) -/

/-- LOFT_ACTIVATE_AT (R606, R607, R672): the unit starts the new image, or skips while it is ACTIVE with a string not STOPPED. -/
def execLoftActivateAt (s : State) : Host.Outcome State Fault Refusal :=
  if s.fw.loftSt = .scheduled ∧ s.fw.activateAt ≤ s.now ∧ s.time.running = true then
    if s.twin.role = .active ∧ (List.range 16).all s.strStopped = false then
      (((s.updFw Firm.unschedule).note 0x0A 0x1802 []).attic 5 0 0x1802 []).done
    else ((s.updFw fun f => { f with boot := .exchange s.mono }).chipReset 7 0xFF).done
  else .next s

/-- FW_CONFIRM (R379, R603, R607): every fatal check has passed once under the new image. -/
def execFwConfirm (s : State) : Host.Outcome State Fault Refusal :=
  match s.fw.boot with
  | .confirm _ =>
    if s.sys.stage = .serving ∧ (List.range 8).all (fun b => (s.twin.checkAt.get? b).isSome) = true then
      ((s.updFw fun f => { f with boot := .none, slot0 := max f.slot0 f.active.version }).fwActivated 1).done
    else .next s
  | _ => .next s

/-- FW_CONFIRM_TIMEOUT (R607): no confirmation within 5.0 s of the start. -/
def execFwConfirmTimeout (s : State) : Host.Outcome State Fault Refusal :=
  match s.fw.boot with
  | .confirm t =>
    if s.elapsed t (ms 5000) = true then ((s.updFw fun f => { f with boot := .revert }).chipReset 7 0xFF).done else .next s
  | _ => .next s

/-! ### Endpoint images (R610) -/

/-- EP_IMAGE_STORE with its bytes (R602, R603, R610, R622). -/
def State.imageStore (s : State) (mb : Nat) (q : Request) (d : Bytes) : State :=
  let slot := uAt q.payload 0 1
  let rd : ItemBytes := fun off n => slice d off n
  match s.itemFault rd [2] d.length with
  | some r => s.refuse mb r.1 r.2
  | none =>
    if s.fw.tooOld rd then s.refuse mb stRefused 0xF4
    else
      let ends := match s.fw.sending with
        | some x => x.slot == slot
        | none => false
      ((if ends then s.imageEnd else s).epStore slot d).finishWrite mb q [] d

/-- EP_IMAGE_STORE (R610, log 102). -/
def execEpImageStore (mb : Fin 8) (s : State) : Host.Outcome State Fault Refusal :=
  (s.withWrite mb 0x1813 fun q s =>
    let off := uAt q.payload 4 4
    let n := uAt q.payload 8 4
    if 1 < uAt q.payload 0 1 ∨ 524288 < n ∨ spanOk off n = false then s.refuse mb stBadParam 0x05
    else (s.mpTook off n).imageStore mb q (s.mpRead off n)).done

/-- EP_IMAGE_SEND (R610): the reply waits for the last chunk (log 102). -/
def execEpImageSend (mb : Fin 8) (s : State) : Host.Outcome State Fault Refusal :=
  (s.withCmd mb 0x1814 true fun q s =>
    let slot := uAt q.payload 0 1
    let first := uAt q.payload 1 1
    let count := uAt q.payload 2 1
    if 1 < slot ∨ 127 < first ∨ 128 < first + count then s.refuse mb stBadParam 0x05
    else if s.fw.sending.isSome then s.busy mb 1000
    else
      ((s.waitFor mb .epImage).updFw fun f =>
        { f with sending := some { mb, slot, lanes := s.imageLanes slot first count } }).imageNext 200).done

/-! ### The owner lock and the life-cycle (R616 to R618) -/

/-- The owner lock takes a state (R616). -/
def State.lockSet (s : State) (on : Bool) : State := s.updFw fun f => { f with locked := on }

/-- OWNER_LOCK (R616): the resulting lock state is forwarded. -/
def execOwnerLock (mb : Fin 8) (s : State) : Host.Outcome State Fault Refusal :=
  (s.withWrite mb 0x1816 fun q s =>
    let a := uAt q.payload 0 1
    if a = 1 then (s.lockSet true).finishWrite mb q []
    else if a = 2 then
      let s1 := s.freshChallenge
      if s.tokenOk s.fw.ownerKey 0x1816 [2] (slice q.payload 4 64) then (s1.lockSet false).finishWrite mb q []
      else s1.refuse mb stBadParam 0xFE
    else s.refuse mb stBadParam 0x05).done

/-- Whether a transition of the life-cycle is one of R618's, and whose token signs it: 0 none, 1 the owner's, 2 the vendor's. -/
def lcSigner (old new : LcState) : Option Nat :=
  match old, new with
  | .factory, .provisioned => some 0
  | .provisioned, .field => some 1
  | .field, .provisioned => some 1
  | .provisioned, .returned => some 1
  | .field, .returned => some 1
  | .returned, .factory => some 2
  | _, _ => none

/-- The energy registers, demand, OUTAGES and TAMPER_COUNT set to 0 (R554, R618). -/
def State.energyZero (s : State) : State :=
  s.updEn fun e =>
    { e with port := { cells := e.port.cells.map fun x => (x.1, { x.2 with kept := {}, acc := {} }) }, outages := 0, tampers := 0 }

/-- A transition's further effects (R618). -/
def State.lcEffects (s : State) (old new : LcState) (arg : Bytes) : State :=
  if old = .factory then
    ((s.updFw fun f => { f with ownerKey := some arg }).newUnitKeys.keyGenUp).energyZero
  else if new = .returned then s.zeroise.updFw fun f => { f with ownerKey := none, locked := false }
  else s

/-- A transition of the life-cycle: the strongbox wipe first, then the word, then the attic entry and LC_CHANGED; a debug opening ends, in
FIELD the port is closed (log 103), and a schedule is cancelled (R436, R618, R621, R622, R644). -/
def State.lcTransition (s : State) (new : LcState) (arg : Bytes) : State :=
  let old := s.fw.lc
  let a := leBytes 1 old.code ++ leBytes 1 new.code
  let s1 := ((s.wipe 3).updFw fun f => { f.unschedule with lc := new }).lcEffects old new arg
  let s2 := if new = .field then s1.updSys Sys.shut else s1.dbgClose
  (s2.attic 4 0 0x1803 a).note 0x0A 0x1803 a

/-- LC_SET (R618, R645). -/
def execLcSet (mb : Fin 8) (s : State) : Host.Outcome State Fault Refusal :=
  (s.withCmd mb 0x1817 true fun q s =>
    let arg := slice q.payload 4 64
    if s.twin.role ≠ .maint ∧ s.twinEn = true then s.generic mb stNotInRole 0x8B
    else
      match lcOf (uAt q.payload 0 1) with
      | none => s.refuse mb stBadParam 0x05
      | some new =>
        if (List.range 16).all s.strStopped = false then s.refuse mb stRefused 0xFF
        else if s.sys.jtag = .extest then s.refuse mb stRefused 0x97
        else
          match lcSigner s.fw.lc new with
          | none => s.refuse mb stRefused 0xFD
          | some 0 => (s.lcTransition new arg).replyOk mb []
          | some k =>
            let s1 := s.freshChallenge
            if s.tokenOk (if k = 1 then s.fw.ownerKey else s.vendorKey) 0x1817 [new.code] arg then
              (s1.lcTransition new arg).replyOk mb []
            else s1.refuse mb stBadParam 0xFE).done

/-! ### The attic log (R619) -/

/-- The log's entries at or after a SEQ, oldest first: SEQ compared by signed difference, as it wraps (R619). -/
def Faults.atticFrom (f : Faults) (seq : Nat) : List Bytes := f.attic.filter fun e => decide (0 ≤ sdiff 32 (uAt e 0 4) seq)

/-- ATTIC_READ (R619). -/
def execAtticRead (mb : Fin 8) (s : State) : Host.Outcome State Fault Refusal :=
  (s.withCmd mb 0x1818 false fun q s =>
    let n := uAt q.payload 4 1
    if inR n 1 15 = false then s.refuse mb stBadParam 0x05
    else
      let l := (s.faults.atticFrom (uAt q.payload 0 4)).take n
      let first := match l with
        | [] => s.faults.atticSeq
        | e :: _ => uAt e 0 4
      s.replyOk mb (leBytes 4 first ++ leBytes 1 l.length ++ [0, 0, 0] ++ l.flatten)).done

end Sys2Proof.Machine
end

