-- ==== Sys2Proof/Machine/Hk.lean ====
section
/-!
DEFINITION. The meanings of the rows of housekeeping and the thermal block (chapter 13).
-/

namespace Sys2Proof.Machine

/-- HK_ROUND (R444, R450, R465): each boundary value runs at most one round (log 21). -/
def execHkRound (s : State) : Host.Outcome State Fault Refusal :=
  let n := s.now / 80000000
  if s.sys.stage = .inReset ∨ ranHas n s.hk.ran = true then .next s else (s.hkRoundStart n).done

/-- The reply of HK_CONVERT (R466). -/
def State.hkReply (s : State) (mb k : Nat) (u : Urgent) (a b : Nat) : State :=
  let v := s.hkVal u.input
  s.replyOk mb (leBytes 2 a ++ leBytes 2 (if u.paired then b else 0xFFFF) ++ leBytesI 2 v.value ++
    leBytes 1 (b2n v.valid + 2 * b2n v.bad + 4 * b2n v.below + 8 * b2n v.above) ++ [0] ++ leBytes 4 (s.hkPair k).convShort)

/-- The end of an urgent conversion (R448, R459, R466). -/
def State.urgentDone (s : State) (k : Nat) (u : Urgent) (a b : Nat) : State :=
  let s1 := ((if u.paired then s.hkPaired k u.input a b else s.hkSingle (2 * k) u.input a).bumpBy 0x100B noInst 0
    (if u.paired then 2 else 1)).hkMark
  match u.for_ with
  | .mailbox mb => s1.hkReply mb k u a b
  | .confirm z => s1.thermConfirm z u.input a b

/-- The end of a sequence entry (R444 to R446). -/
def State.entryDone (s : State) (k i a b : Nat) : State :=
  let e := s.hkEntry k i
  let s1 := if e.1 then s.hkPaired k e.2.1 a b else (s.hkSingle (2 * k) e.2.1 a).hkSingle (2 * k + 1) e.2.2 b
  ((s1.bumpBy 0x100B noInst 0 2).hkMark).modPair k fun p =>
    { p with next := if i + 1 < s.pu 0x1003 k 0 1 then some (i + 1) else none, interrupts := 0 }

/-- ADC_CONVERSION_DONE (R441 to R451, R454 to R460). -/
def execAdcConversionDone (pair : Fin 2) (codeE codeO : BitVec 12) (s : State) : Host.Outcome State Fault Refusal :=
  let p := s.hkPair pair
  match p.conv with
  | none => .next s
  | some c =>
    if s.elapsed p.convAt 1980 = false then .next s
    else
      let s1 := s.modPair pair fun p => { p with conv := none, idleFrom := s.mono }
      let s2 := match c with
        | .seq i => s1.entryDone pair i codeE.toNat codeO.toNat
        | .urgent u => s1.urgentDone pair u codeE.toNat codeO.toNat
      ((s2.hkNext pair).hkTryEval).done

/-- HK_PAIR_SLEEP (R447): no conversion to make for more than 2 µs. -/
def execHkPairSleep (pair : Fin 2) (s : State) : Host.Outcome State Fault Refusal :=
  let p := s.hkPair pair
  if p.awake = true ∧ p.conv = none ∧ p.next = none ∧ p.urgent = [] ∧ p.idleFrom + 16000 < s.mono then
    .next (s.modPair pair fun p => { p with awake := false })
  else .next s

/-- HK_WAKE_DONE (R447): the wake ends, and a conversion that waits starts. -/
def execHkWakeDone (pair : Fin 2) (s : State) : Host.Outcome State Fault Refusal :=
  match (s.hkPair pair).wakeFrom with
  | some t =>
    if s.elapsed t 3980 = true then
      ((s.modPair pair fun p => { p with awake := true, wakeFrom := none, idleFrom := s.mono }).hkNext pair).done
    else .next s
  | none => .next s

/-- FAN_TACH_EDGE (R453): the period of the latest complete pulse. -/
def execFanTachEdge (fan : Fin 4) (s : State) : Host.Outcome State Fault Refusal :=
  let x := s.hk.fan.get {} fan
  let rpm := match x.at_ with
    | some t => satN 16 (480000000000 / max 1 ((s.mono - t) * max 1 (s.pu 0x1007 fan 0 1)))
    | none => x.rpm
  .next (s.updHk fun h => { h with fan := h.fan.set fan { x with at_ := some s.mono, rpm } })

/-- FAN_PULSE_TIMEOUT (R453): no pulse for 1 s. -/
def execFanPulseTimeout (fan : Fin 4) (s : State) : Host.Outcome State Fault Refusal :=
  let x := s.hk.fan.get {} fan
  match x.at_ with
  | some t =>
    if s.elapsed t (ms 1000) = true then .next (s.updHk fun h => { h with fan := h.fan.set fan { x with at_ := none, rpm := 0 } })
    else .next s
  | none => .next s

/-- HK_CONVERT (R448, R449, R466): the reply waits for the conversion. -/
def execHkConvert (mb : Fin 8) (s : State) : Host.Outcome State Fault Refusal :=
  (s.withCmd mb 0x1010 true fun q s =>
    let k := uAt q.payload 0 1
    let i := uAt q.payload 1 1
    if 1 < k ∨ 31 < i then s.refuse mb stBadParam 0x05
    else if s.hkKind i = 0 then s.refuse mb stRefused 0xA0
    else if 4 ≤ (s.hkPair k).urgent.length then s.busy mb 1
    else (s.waitFor mb .hkConvert).hkUrgent k { input := i, paired := bit (uAt q.payload 2 1) 0, for_ := .mailbox mb }).done

/-- THERM_READ (R461, R467). -/
def execThermRead (mb : Fin 8) (s : State) : Host.Outcome State Fault Refusal :=
  (s.withCmd mb 0x1110 false fun q s =>
    let z := uAt q.payload 0 1
    if 15 < z ∧ z ≠ 0xFF then s.refuse mb stBadParam 0x05
    else
      match if z = 0xFF then s.hk.recs.head? else s.thermRec z with
      | none => s.replyOk mb (List.replicate 32 0)
      | some r =>
        let r' := { r with read := true }
        let s1 := s.updHk fun h => { h with recs := h.recs.map fun x => if x = r then r' else x }
        s1.replyOk mb (s1.thermBytes r')).done

/-- THERM_CLEAR (R463, R467). -/
def execThermClear (mb : Fin 8) (s : State) : Host.Outcome State Fault Refusal :=
  (s.withWrite mb 0x1111 fun q s =>
    match s.hk.recs.find? fun r => r.id == uAt q.payload 0 4 with
    | none => s.refuse mb stBadParam 0xA6
    | some r =>
      let low := match (s.zone r.zone).t with
        | some t => decide (t < s.ps 0x1101 r.zone 12 2)
        | none => false
      if r.read = false then s.refuse mb stRefused 0xA7
      else if low = false then s.refuse mb stRefused 0xA8
      else
        let s1 := (s.updHk fun h => { h with recs := h.recs.filter fun x => x ≠ r }).condOff 0x64 r.zone 0
        s1.finishWrite mb q (leBytes 1 s1.hk.recs.length ++ [0, 0, 0])).done

end Sys2Proof.Machine
end

