-- ==== Sys2Proof/Machine/LoopEngine.lean ====
section
/-!
DEFINITION. The meanings of the rows of chapter 08: the control boundary, the walk, and the loop commands (R296 to R331).
-/

namespace Sys2Proof.Machine

/-- CONTROL_BOUNDARY (R296 to R303, R374, R412): once the next boundary has come. -/
def execControlBoundary (s : State) : Host.Outcome State Fault Refusal :=
  if s.time.running = true ∧ s.le.next ≤ s.now then (s.controlBoundary s.le.next).done else .next s

/-- WALK_COMPLETE (R298, R299, R357): the publication of a walk's set, or of one that the next walk has overtaken. -/
def execWalkComplete (s : State) : Host.Outcome State Fault Refusal :=
  match s.le.outset, s.le.walk with
  | some o, _ => if o.1 ≤ s.now then s.publishLate.done else .next s
  | none, some w => if w.doneAt ≤ s.now then s.publish.done else .next s
  | none, none => .next s

/-- LOOP_LOAD (R327). -/
def execLoopLoad (mb : Fin 8) (s : State) : Host.Outcome State Fault Refusal :=
  (s.withWrite mb 0x0B10 fun q s =>
    let off := uAt q.payload 0 4
    let table := uAt q.payload 4 1
    let first := uAt q.payload 6 2
    let n := uAt q.payload 8 2
    let w := if table = 0 then 48 else 32
    if off % 16 ≠ 0 ∨ spanOk off (w * n) = false ∨ 1 < table ∨ 511 < first ∨ inR n 1 512 = false ∨ 512 < first + n then
      s.refuse mb stBadParam 0x05
    else
      let d := s.mpRead off (w * n)
      ((s.mpTook off (w * n)).loopLoad table first n d).finishWrite mb q (leBytes 2 n ++ [0, 0]) d).done

/-- The reply of LOOP_COMMIT (R328, log 25). -/
def loopReply (gen fail reason by_ cost : Nat) : Bytes :=
  leBytes 4 gen ++ leBytes 2 fail ++ leBytes 1 reason ++ [0] ++ leBytes 4 (by_ % 2 ^ 32) ++ leBytes 2 cost ++ [0, 0]

/-- LOOP_COMMIT of the shadow, due from a tick time, which the forwarded write carries (R322, R323, R325, R328, log 16). ADOPT_BY of a
refusal is a free value (log 2). -/
def State.loopRun (s : State) (mb : Nat) (q : Request) (since : Nat) : State :=
  let expect := uAt q.payload 0 4
  let cost := s.le.shadow.cost
  if s.le.pend.isSome then s.busy mb (ceilDiv (s.p0 0x0B02) 8000)
  else if expect ≠ 0xFFFFFFFF ∧ expect ≠ s.le.gen then
    s.tookFree.reply mb stRefused (loopReply s.le.gen 0xFFFF 0x68 s.freeVal cost)
  else
    match s.loopFailure s.le.shadow with
    | some f => s.tookFree.reply mb f.1 (loopReply s.le.gen f.2.1 f.2.2 s.freeVal cost)
    | none =>
      let s1 := s.loopCommit since
      s1.finishWrite mb q (loopReply s1.le.gen 0xFFFF 0 (s.loopAdoptAt since) cost) (leBytes 8 since)

/-- LOOP_COMMIT (R322, R323, R328). -/
def execLoopCommit (mb : Fin 8) (s : State) : Host.Outcome State Fault Refusal :=
  (s.withWrite mb 0x0B11 fun q s => s.loopRun mb q s.adoptSince).done

/-- LARDER_WRITE (R324, R329). -/
def execLarderWrite (mb : Fin 8) (s : State) : Host.Outcome State Fault Refusal :=
  (s.withWrite mb 0x0B12 fun q s =>
    let off := uAt q.payload 0 4
    let first := uAt q.payload 4 2
    let n := uAt q.payload 6 2
    if off % 2 ≠ 0 ∨ spanOk off (2 * n) = false ∨ 16383 < first ∨ 16384 < first + n ∨ 0x1C0000 ≤ off then s.refuse mb stBadParam 0x05
    else
      let d := s.mpRead off (2 * n)
      ((s.mpTook off (2 * n)).larderPut first n d).finishWrite mb q [] d).done

/-- LARDER_READ (R329). -/
def execLarderRead (mb : Fin 8) (s : State) : Host.Outcome State Fault Refusal :=
  (s.withCmd mb 0x0B13 false fun q s =>
    let first := uAt q.payload 0 2
    let n := uAt q.payload 2 2
    if inR n 1 248 = false ∨ 16384 < first + n then s.refuse mb stBadParam 0x05
    else s.replyOk mb (((List.range n).map fun k => leBytes 2 (s.le.larder.get 0 (first + k))).flatten)).done

/-- LE_START (R302, R320, R330): of two accepted starts the earlier begins. -/
def execLeStart (mb : Fin 8) (s : State) : Host.Outcome State Fault Refusal :=
  (s.withWrite mb 0x0B14 fun q s =>
    if s.le.running = true then s.refuse mb stRefused 0x6A
    else if s.inBudget s.le.work = false then s.refuse mb stBadParam 0x67
    else
      let c := s.boundaryFrom (s.now + 8000)
      (s.updLe fun e => { e with startAt := some (min c (e.startAt.getD c)) }).finishWrite mb q (leBytes 4 c)).done

/-- LE_STOP (R330): a start not yet begun is cancelled. -/
def execLeStop (mb : Fin 8) (s : State) : Host.Outcome State Fault Refusal :=
  (s.withWrite mb 0x0B15 fun q s =>
    if (List.range 16).any (fun str => decide ((s.str str).st = .running) && s.pu 0x080A str 0 1 != 0) then s.refuse mb stRefused 0x6B
    else
      let c := s.le.next
      (s.updLe fun e => { e with startAt := none, stopAt := if e.running then some c else none }).finishWrite mb q (leBytes 4 c)).done

/-- LOOP_PRESET (R331): ADOPT_BY is the next boundary, or the first of a start not yet begun. -/
def execLoopPreset (mb : Fin 8) (s : State) : Host.Outcome State Fault Refusal :=
  (s.withWrite mb 0x0B16 fun q s =>
    let n := uAt q.payload 0 2
    if 511 < n then s.refuse mb stBadParam 0x05
    else (s.updLe fun e => { e with presets := e.presets ++ [(n, sAt q.payload 2 2)] }).finishWrite mb q (leBytes 4 (s.le.startAt.getD s.le.next))).done

end Sys2Proof.Machine
end

