-- ==== Sys2Proof/Machine/Modulator.lean ====
section
/-!
DEFINITION. The meanings of the modulator's rows: boundaries, plans, shelves, starting, stopping and raw edges (chapter 06), and the
downstream slot (R141).
-/

namespace Sys2Proof.Machine

/-- STRING_BOUNDARY (R231): once B_(k+1) has come; a plan still open is completed first (R232), and what a resync brought is adopted
(R377). -/
def execStringBoundary (str : Fin 16) (s : State) : Host.Outcome State Fault Refusal :=
  if (s.str str).next ≤ s.now then
    (((((s.gatherPlan str).planDone str).resyncStr str).boundary str).gatherBoundary str).done
  else .next s

/-- PLAN_COMPLETE (R232): the plan's entries are expanded, and waiting replies written. -/
def execPlanComplete (str : Fin 16) (s : State) : Host.Outcome State Fault Refusal :=
  if (s.str str).plan.isSome then ((s.gatherPlan str).planDone str).done else .next s

/-- SHELF_ENTRY_EXPIRE (R209, R251): sent entries whose time has passed leave, unsent passed edges are dropped, and further entries are
expanded into the room. -/
def execShelfEntryExpire (lane : Fin 128) (s : State) : Host.Outcome State Fault Refusal :=
  (s.shelfPass lane).done

/-- STRING_FIRST_OUTPUT (R257, R347): O_0 has come; the string is RUNNING, and members that start bypassed get their records. -/
def execStringFirstOutput (str : Fin 16) (s : State) : Host.Outcome State Fault Refusal :=
  let x := s.str str
  if x.st = .starting ∧ x.first = false ∧ x.o0 ≤ s.now then
    let s1 := s.modStr str fun y => { y with st := .running }
    let byp := (s1.activeMembers str).filter fun l => eType (s1.entry l) == 1 && eStartByp (s1.entry l)
    let s2 := byp.foldl (fun s l => (s.record l 8).modByp l fun b => { b with enterAt := some x.o0 }) s1
    let s3 := if !byp.isEmpty && s2.limitTrips str then s2.trip str 8 0xFFFF else s2
    (s3.rideReached str).done
  else .next s

/-- STRING_STOP_OUTPUT (R261): O_k has come, and the stopping string is STOPPED. -/
def execStringStopOutput (str : Fin 16) (s : State) : Host.Outcome State Fault Refusal :=
  match (s.str str).stopAt with
  | some o => if (s.str str).st = .stopping ∧ o ≤ s.now then (s.becomeStopped str).done else .next s
  | none => .next s

/-- STRING_START (R257, R266, R363). -/
def execStringStart (mb : Fin 8) (s : State) : Host.Outcome State Fault Refusal :=
  (s.withWrite mb 0x0820 fun q s =>
    let str := uAt q.payload 0 1
    let short := uAt q.payload 4 4
    if 15 < str then s.refuse mb stBadParam 0x05
    else
      match s.startRefusal str short with
      | some r => s.refuse mb r.1 r.2
      | none =>
        if s.prot.ride.st.restarting && s.rideOrder.contains str then s.refuse mb stRefused 0x77
        else
          let s1 := s.startString str short
          s1.finishWrite mb q (leBytes 4 ((s.tickOf short - s.modDelay str) % 2 ^ 32) ++ leBytes 1 (s1.planMembers str).length ++
            [0, 0, 0])).done

/-- STRING_STOP (R261, R267, R363, log 24, log 52, log 51). -/
def execStringStop (mb : Fin 8) (s : State) : Host.Outcome State Fault Refusal :=
  (s.withWrite mb 0x0821 fun q s =>
    let str := uAt q.payload 0 1
    let x := s.str str
    if 15 < str then s.refuse mb stBadParam 0x05
    else if x.st = .starting then (s.hostStop str).finishWrite mb q (leBytes 4 (shortOf x.o0))
    else if x.st = .running then (s.hostStop str).finishWrite mb q (leBytes 4 (shortOf (x.next + s.modDelay str : Nat)))
    else s.refuse mb stRefused 0x42).done

/-! ### RAW_EDGE_LOAD (R264, R268) -/

/-- One record of RAW_EDGE_LOAD. -/
structure RawRec where
  /-- LANE. -/
  lane : Nat
  /-- NODE_REQ. -/
  node : Bool
  /-- STATE. -/
  word : Nat
  /-- TIME. -/
  short : Nat
deriving DecidableEq, Repr

/-- The records of a request. -/
def rawRecords (p : Bytes) : List RawRec :=
  (List.range (uAt p 1 1)).map fun i =>
    let o := 4 + 8 * i
    { lane := uAt p o 1, node := bit (uAt p (o + 1) 1) 0, word := uAt p (o + 2) 2, short := uAt p (o + 4) 4 }

/-- The bit of the other switch of a mapped bit's leg. -/
def otherBit (e : Bytes) (b : Nat) : Option Nat := mapBit e (mapLeg (eMap e b)) (!mapUpper (eMap e b))

/-- The reason one record fails for, 0 if none (R264). -/
def State.rawReason (s : State) (str : Nat) (r : RawRec) : Nat :=
  let e := s.entry r.lane
  let l := s.ml r.lane
  let t : Int := s.tickOf r.short
  let set := (List.range 16).filter fun b => bit r.word b
  if 127 < r.lane || !(s.activeMembers str).contains r.lane then 0x47
  else if !s.aheadOk r.short || decide (t < (s.now + s.lead r.lane : Nat)) then 0x34
  else if (match l.rawLast with
    | some u => decide (t ≤ u)
    | none => false) then 0x48
  else if set.any fun b => !mapUsed (eMap e b) then 0x49
  else if set.any (fun b => match otherBit e b with
    | some c => bit r.word c
    | none => false) then 0x4A
  else if set.any (fun b => !bit l.rawWord b && (match otherBit e b with
    | some c =>
      bit l.rawWord c || (match l.rawOff.get? c with
        | some u => decide (t - u < s.p0 0x080F)
        | none => false)
    | none => false)) then 0x4B
  else 0

/-- The raw state of a lane after a record (R264). -/
def State.rawTake (s : State) (r : RawRec) : State :=
  let t : Int := s.tickOf r.short
  s.modMl r.lane fun l =>
    let off := (List.range 16).filter fun b => bit l.rawWord b && !bit r.word b
    { l with rawLast := some t, rawWord := r.word, rawOff := off.foldl (fun o b => o.set b t) l.rawOff }

/-- Checks the records in order, each with those before it taken: the first failure's index and reason, or the raw states after all. -/
def State.rawCheck (str : Nat) : Nat → List RawRec → State → State × Option (Nat × Nat)
  | _, [], s => (s, none)
  | i, r :: rest, s =>
    let x := s.rawReason str r
    if x = 0 then State.rawCheck str (i + 1) rest (s.rawTake r) else (s, some (i, x))

/-- The edges of a record as the dead-time block sees them. -/
def rawMarks (e : Bytes) (old new : Nat) (sel : Bool) : List EdgeMark :=
  ((List.range 16).filter fun b => mapUsed (eMap e b) && bit old b != bit new b).map fun b =>
    { leg := mapLeg (eMap e b), up := mapUpper (eMap e b) == bit new b, off := !bit new b, sel }

/-- Remembers a raw turn-off that asked for a report, and forms a transition at the turn-on of the leg's other switch (R271). -/
def State.rawJudge (s : State) (lane : Nat) (t : Int) (m : EdgeMark) : State :=
  if m.off then s.modDleg lane m.leg fun d => { d with rawOff := if m.sel then some (t, m.up) else none }
  else
    match (s.dleg lane m.leg).rawOff with
    | some (t0, up) =>
      s.modDleg lane m.leg fun d =>
        { d with rawOff := none, pend := if up = m.up then d.pend ++ [{ up, tOff := t0, tOn := t }] else d.pend }
    | none => s

/-- Shelves one record (R264). -/
def State.rawShelve (s : State) (old : Nat) (r : RawRec) : State :=
  let t : Int := s.tickOf r.short
  let marks := rawMarks (s.entry r.lane) old r.word r.node
  marks.foldl (fun s m => s.rawJudge r.lane t m) (s.addEntries r.lane [{ time := t, raw := some r.word, node := r.node, marks }])

/-- Shelves every record, each with MASK from the lane's raw state before it. -/
def State.rawApply (s : State) (rs : List RawRec) : State :=
  rs.foldl (fun s r => (s.rawShelve (s.ml r.lane).rawWord r).rawTake r) s

/-- Whether the shelves have room for the records (R264). -/
def State.rawRoom (s : State) (rs : List RawRec) : Bool :=
  rs.all fun r => decide ((s.ml r.lane).shelf.length + (s.ml r.lane).wait.length + (rs.filter fun x => x.lane == r.lane).length ≤ 32)

/-- The time until enough entries have left, in µs (R264). -/
def State.rawRetry (s : State) (rs : List RawRec) : Nat :=
  let short := fun (r : RawRec) => (s.ml r.lane).shelf.length + (s.ml r.lane).wait.length + (rs.filter fun x => x.lane == r.lane).length - 32
  max 1 (listMax ((rs.filter fun r => short r != 0).map fun r =>
    let l := s.ml r.lane
    let need := short r
    let times := ((l.shelf ++ l.wait).map fun x => (x.time - (s.now : Int)).toNat)
    ceilDiv ((sortLe (fun a b => decide (a ≤ b)) times).getD (min need times.length - 1) 0) 8000))

/-- The reply of RAW_EDGE_LOAD (R268). -/
def rawReply (loaded index reason : Nat) : Bytes := leBytes 1 loaded ++ leBytes 1 index ++ leBytes 1 reason ++ [0]

/-- RAW_EDGE_LOAD (R263, R264, R268). -/
def execRawEdgeLoad (mb : Fin 8) (s : State) : Host.Outcome State Fault Refusal :=
  (s.withWrite mb 0x0822 fun q s =>
    let str := uAt q.payload 0 1
    let n := uAt q.payload 1 1
    if !inR n 1 60 || decide (15 < str) then s.reply mb stBadParam (rawReply 0 0xFF 0x05)
    else if q.length ≠ 4 + 8 * n then s.reply mb stBadLength (rawReply 0 0xFF 0x0C)
    else if (s.str str).st ≠ .running ∨ (s.str str).mode ≠ 4 then s.reply mb stRefused (rawReply 0 0xFF 0x42)
    else
      let rs := rawRecords q.payload
      match (State.rawCheck str 0 rs s).2 with
      | some f => s.reply mb stBadParam (rawReply 0 f.1 f.2)
      | none =>
        if s.rawRoom rs then (s.rawApply rs).finishWrite mb q (rawReply n 0xFF 0) else s.busy mb (s.rawRetry rs)).done

/-! ### The downstream slot (R122, R141) -/

/-- Sends IDLE in a slot with nothing else to send (R141). -/
def State.slotIdle (s : State) (lane : Nat) : State :=
  (s.modLane lane fun l => { l with idleRun := l.idleRun + 1 }).sendBlock lane tyIdle 0

/-- Leaves power-save idle with a wake burst (R122, R124). -/
def State.wakeUp (s : State) (lane : Nat) : State :=
  (s.setLane lane .linked).burstDue lane

/-- DOWNSTREAM_SLOT (R141, R209, R252): the first waiting block, or IDLE; a lane in power-save idle wakes where something waits or idle
is no longer permitted. -/
def execDownstreamSlot (lane : Fin 128) (s : State) : Host.Outcome State Fault Refusal :=
  match (s.lane lane).st with
  | .align => .next (s.sendBlock lane tyIdle 0)
  | .linked | .hunt =>
    let s1 := s.shelfPass lane
    match s1.slotBody lane with
    | some t => ((t.modLane lane fun l => { l with idleRun := 0 }).later (.imageSent lane)).done
    | none => (s1.slotIdle lane).done
  | .sleep =>
    let s1 := s.shelfPass lane
    if (s1.slotBody lane).isSome || !s1.idleOk lane then
      let s2 := s1.wakeUp lane
      match s2.slotBody lane with
      | some t => (t.later (.imageSent lane)).done
      | none => (s2.slotIdle lane).done
    else .next s1
  | _ => .next s

end Sys2Proof.Machine
end

