-- ==== Sys2Proof/Machine/SysRows.lean ====
section
/-!
DEFINITION. The meanings of the rows of the supplies, the clocks, reset, the start, the watchdog and the debug port (chapter 20), but for
DEBUG_MEM_ACCESS.
-/

namespace Sys2Proof.Machine

/-! ### Supplies, RESET_N and clocks (R626 to R634) -/

/-- Holds the chip reset: the main PLL does not lock while anything does (R626, R632, R634). -/
def State.holdReset (s : State) (f : ResetHold → ResetHold) : State :=
  s.updSys fun y => { y with hold := f y.hold, pll := .off }

/-- SUPPLY_MONITOR_LOW (R626, R637): a monitored rail lies below 96%; rail 0 is VDD_CORE, whose loss clears the reset counts. -/
def execSupplyMonitorLow (rail : Fin 5) (s : State) : Host.Outcome State Fault Refusal :=
  let n := rail.val
  let s1 := s.holdReset fun h => { h with rails := if h.rails.contains n then h.rails else h.rails ++ [n] }
  let s2 := if n = 0 then s1.updSys fun y => { y with resets := 0, wdtResets := 0, clkResets := 0 } else s1
  (s2.chipReset 1 0xFF).done

/-- SUPPLY_MONITOR_RESTORE (R626): every monitored rail lies above 97% again. -/
def execSupplyMonitorRestore (s : State) : Host.Outcome State Fault Refusal :=
  .next (s.holdEnd fun h => { h with rails := [] })

/-- RESET_N_ASSERT (R634). -/
def execResetNAssert (s : State) : Host.Outcome State Fault Refusal :=
  ((s.holdReset fun h => { h with pin := true }).chipReset 2 0xFF).done

/-- RESET_N_RELEASE (R634). -/
def execResetNRelease (s : State) : Host.Outcome State Fault Refusal := .next (s.holdEnd fun h => { h with pin := false })

/-- CLOCK_LOSS (R632, R650). -/
def execClockLoss (s : State) : Host.Outcome State Fault Refusal :=
  (((s.holdReset fun h => { h with clock := true }).updSys fun y => { y with refclk := false }).chipReset 6 0xFF).done

/-- CLOCK_RESTORED (R632): REFCLK has shown edges within ±1,000 ppm for 1 ms; the offset the monitor measures is a free value in that
range (log 2). -/
def execClockRestored (s : State) : Host.Outcome State Fault Refusal :=
  .next (((s.updSys fun y => { y with refclk := true, refOffset := (s.freeVal % 2001 : Nat) - 1000 }).tookFree).holdEnd fun h =>
    { h with clock := false })

/-- MAIN_PLL_LOCK (R46, R628, R638): the end of reset, with the level of HOST_SEL then. -/
def execMainPllLock (s : State) (hostSel : Bool := false) : Host.Outcome State Fault Refusal :=
  if s.sys.stage = .inReset ∧ s.sys.hold.free = true ∧ s.sys.pll = .locking then .next (s.endOfReset hostSel) else .next s

/-- SYNC_IN_EDGE (R418, R630, R650): the first rising edge after a lock of the main PLL; later ones are ignored. -/
def execSyncInEdge (s : State) : Host.Outcome State Fault Refusal :=
  if s.sys.pll = .locked then .next (s.updSys fun y => { y with syncAligned := true }) else .next s

/-- CLOCK_DIV_BOUNDARY (R629): at a whole microsecond of tick time the dividers take up their shadow (log 21). -/
def execClockDivBoundary (s : State) : Host.Outcome State Fault Refusal :=
  if s.time.running = true then .next (s.capture 0x1902 noInst) else .next s

/-- Whether DBG_CFG.WDT_HOLD holds the watchdog: a core is halted and the role is NONE or MAINT (R635). -/
def State.wdtHeld (s : State) : Bool :=
  (s.sys.core0.halted || s.sys.core1.halted) && bit (s.p0 0x1A02) 0 && (decide (s.twin.role = .none) || decide (s.twin.role = .maint))

/-- WATCHDOG_EXPIRE (R607, R635, R650): before confirmation the start is taken back. -/
def execWatchdogExpire (s : State) : Host.Outcome State Fault Refusal :=
  if s.sys.stage = .inReset ∨ s.wdtHeld = true then .next s
  else
    let s1 := match s.fw.boot with
      | .confirm _ => s.updFw fun f => { f with boot := .revert }
      | _ => s
    (s1.chipReset 5 0xFF).done

/-! ### The start (R639 to R641) -/

/-- BOOT_ROM_CHECK_DONE (R602, R603, R607, R639, R641): Ubfer is started, or the recovery hatch is served (log 84). -/
def execBootRomCheckDone (s : State) : Host.Outcome State Fault Refusal :=
  if s.sys.stage = .bootRom ∧ s.pantry.wiping.isNone = true then
    let s1 := s.bootLoft
    if s1.bootable s1.fw.active then .next (s1.updSys fun y => { y with stage := .ubferStarting })
    else ((s1.updSys fun y => { y with stage := .recovery, bootResult := 1, hatchSeen := true }).resetReport).done
  else .next s

/-- UBFER_READY (R639): HATCH_READY becomes 1. -/
def execUbferReady (s : State) : Host.Outcome State Fault Refusal :=
  if s.sys.stage = .ubferStarting then s.ubferStart.done else .next s

/-- PCIE_LINK_TRAINED (R639). -/
def execPcieLinkTrained (s : State) : Host.Outcome State Fault Refusal :=
  if s.hatch.qspi = true ∨ s.sys.stage = .inReset then .next s else .next (s.updHatch fun h => { h with pcieUp := true })

/-! ### VDD_FIELD (R472, R512) -/

/-- VDD_FIELD_LOSS (R472): the field outputs become high-impedance. -/
def execVddFieldLoss (s : State) : Host.Outcome State Fault Refusal :=
  ((s.updSys fun y => { y with vddField := false }).auxWatch).done

/-- VDD_FIELD_RETURN (R472, R493): a unit that drives its outputs drives them again. -/
def execVddFieldReturn (s : State) : Host.Outcome State Fault Refusal :=
  let s1 := s.updSys fun y => { y with vddField := true }
  (if s.sys.vddField = false ∧ s1.auxMay = true ∧ s1.elapsed s1.twin.roleMono 8000 = true then s1.auxStart else s1).done

/-! ### The debug port (R642 to R649) -/

/-- The scope in effect: everything where the life-cycle opens the port, the token's in FIELD, 0 while it is closed (R644, R647). -/
def State.dbgScope (s : State) : Nat :=
  if s.fw.lc ≠ .field then 7
  else
    match s.sys.opening with
    | some o => o.1
    | none => 0

/-- DBG_STATE byte 0 (R647). -/
def State.dbgCode (s : State) : Nat := if s.fw.lc ≠ .field then 1 else b2n s.sys.opening.isSome * 2

/-- Whether EXTEST may be loaded: role NONE or MAINT and every string STOPPED (R645). -/
def State.extestMay (s : State) : Bool :=
  (decide (s.twin.role = .none) || decide (s.twin.role = .maint)) && (List.range 16).all s.strStopped

/-- EXTEST is left: a chip reset with cause RESET_PIN (R645, log 103). -/
def State.extestLeave (s : State) (i : JtagInstr) : State := ((s.updSys fun y => { y with jtag := i }).chipReset 2 0xFF)

/-- DBG_UNLOCK (R648). -/
def execDbgUnlock (mb : Fin 8) (s : State) : Host.Outcome State Fault Refusal :=
  (s.withCmd mb 0x1A10 true fun q s =>
    let scope := uAt q.payload 0 1
    let mins := uAt q.payload 2 2
    if s.fw.lc ≠ .field then s.refuse mb stRefused 0x95
    else if 7 < scope ∨ inR mins 1 1440 = false then s.refuse mb stBadParam 0x05
    else if bit scope 2 = true ∧ s.extestMay = false then s.refuse mb stRefused 0x96
    else
      let s1 := s.freshChallenge
      if s.tokenOk s.fw.ownerKey 0x1A10 [scope, mins] (slice q.payload 4 64) then
        let until_ := (s.bat.rtcSec + 60 * mins) % 2 ^ 32
        ((s1.updSys fun y => { y with opening := some (scope, until_) }).note 0x0A 0x1A01
          (leBytes 1 scope ++ [0] ++ leBytes 2 mins)).replyOk mb (leBytes 4 until_ ++ [0, 0, 0, 0])
      else s1.refuse mb stBadParam 0x94).done

/-- DBG_LOCK (R645, R649). -/
def execDbgLock (mb : Fin 8) (s : State) : Host.Outcome State Fault Refusal :=
  (s.withCmd mb 0x1A11 true fun _ s =>
    if s.fw.lc ≠ .field then s.refuse mb stRefused 0x95
    else
      let s1 := s.dbgClose.replyOk mb (leBytes 1 s.dbgCode ++ [0, 0, 0])
      if s.sys.jtag = .extest then s1.extestLeave .bypass else s1).done

/-- DBG_OPENING_EXPIRE (R644, R645, R650). -/
def execDbgOpeningExpire (s : State) : Host.Outcome State Fault Refusal :=
  match s.sys.opening with
  | some o =>
    if o.2 ≤ s.bat.rtcSec then (if s.sys.jtag = .extest then s.dbgClose.extestLeave .bypass else s.dbgClose).done else .next s
  | none => .next s

/-- The device identification register of the debug port: stepping B1, part 0x0128, manufacturer 0x25A (R642). -/
def jtagIdcode : BitVec 32 := 0x301284B5

/-- The bits the selected data register of the debug port is loaded with: IDCODE's register, or bypass (R642). -/
def State.jtagCapture (s : State) : Option (BitVec 32) :=
  match s.sys.jtag with
  | .idcode => some jtagIdcode
  | .bypass => some 0
  | .samplePreload => none
  | .extest => none
  | .privateDebug => none

/-- JTAG_INSTRUCTION_LOAD (R642, R645): EXTEST and the private instructions select the bypass register while the port is closed to them;
an instruction that replaces EXTEST leaves it. -/
def execJtagInstructionLoad (i : JtagInstr) (s : State) : Host.Outcome State Fault Refusal :=
  let j := match i with
    | .extest => if bit s.dbgScope 2 && s.extestMay then .extest else .bypass
    | .privateDebug => if s.dbgScope = 0 then .bypass else .privateDebug
    | .bypass => .bypass
    | .idcode => .idcode
    | .samplePreload => .samplePreload
  if s.sys.jtag = .extest ∧ j ≠ .extest then (s.extestLeave j).done else .next (s.updSys fun y => { y with jtag := j })

/-- EXTEST_EXIT (R645). -/
def execExtestExit (s : State) : Host.Outcome State Fault Refusal :=
  if s.sys.jtag = .extest then (s.extestLeave .bypass).done else .next s

/-- Changes a core. -/
def State.modCore (s : State) (c : Nat) (f : DebugCore → DebugCore) : State :=
  s.updSys fun y => if c = 0 then { y with core0 := f y.core0 } else { y with core1 := f y.core1 }

/-- DEBUG_HALT (R643). -/
def execDebugHalt (core : Fin 2) (s : State) : Host.Outcome State Fault Refusal :=
  if bit s.dbgScope 0 = true then .next (s.modCore core fun c => { c with halted := true }) else .next s

/-- DEBUG_RESUME (R643). -/
def execDebugResume (core : Fin 2) (s : State) : Host.Outcome State Fault Refusal :=
  if bit s.dbgScope 0 = true then .next (s.modCore core fun c => { c with halted := false }) else .next s

/-- DEBUG_STEP (R643): one instruction of a halted core. -/
def execDebugStep (core : Fin 2) (s : State) : Host.Outcome State Fault Refusal :=
  if bit s.dbgScope 0 = true then .next (s.modCore core fun c => if c.halted then { c with stepped := c.stepped + 1 } else c)
  else .next s

/-- DEBUG_BREAKPOINT_HIT (R643): the core halts (log 103). -/
def execDebugBreakpointHit (core : Fin 2) (s : State) : Host.Outcome State Fault Refusal :=
  if bit s.dbgScope 0 = true then .next (s.modCore core fun c => { c with halted := true }) else .next s

end Sys2Proof.Machine
end

