-- ==== Sys2Proof/Machine/Status.lean ====
section
/-!
DEFINITION. The register window: what each offset of BAR0 reads as and what a write does, the read latches and held words, and the meanings
of GSTAT_READ, LOW_WORD_READ, HIGH_WORD_READ, LOW_WORD_WRITE, HIGH_WORD_WRITE, REGISTER_WRITE and DEBUG_MEM_ACCESS (R50 to R59, R82, R220,
R643).
-/

namespace Sys2Proof.Machine

/-! ### What offsets read as (R50, R54, R55, R59, R82, R220) -/

/-- GSTAT.HATCH_READY: Ubfer, or the boot ROM in recovery, serves the hatch (R55, R641). -/
def State.hatchReady (s : State) : Bool := decide (s.sys.stage = .serving) || decide (s.sys.stage = .recovery)

/-- GSTAT.LANES_READY (R55). -/
def State.lanesReady (s : State) : Bool :=
  s.sys.hatchSeen && (List.range 128).all fun l => eType (s.entry l) == 0 || (s.lane l).st.trained

/-- GSTAT (R55). -/
def State.gstat (s : State) : Nat :=
  s.twin.epoch * 2 ^ 16 + s.headId * 2 ^ 12 + s.roleCode * 2 ^ 8 + s.notif.shed * 2 ^ 6 + b2n s.timeLocked * 2 ^ 5 +
    b2n s.safe.permit * 2 ^ 4 + b2n ((List.range 16).any fun n => decide ((s.str n).st = .tripped)) * 2 ^ 3 +
    b2n s.faults.pinLow * 2 ^ 2 + b2n s.lanesReady * 2 + b2n s.hatchReady

/-- ID_STEP (R54): B1 in ASCII, the grade as fused, the port as HOST_SEL chose it. -/
def State.idStep (s : State) : Nat := b2n s.hatch.qspi * 2 ^ 20 + b2n Config.gradeX * 2 ^ 16 + 0x4231

/-- ID_FW: the version of the image that runs, 0 until Ubfer serves the hatch (R54, R641). -/
def State.idFw (s : State) : Nat := if s.sys.stage = .serving then s.fw.active.version else 0

/-- ID_FW_BUILD (R54). -/
def State.idBuild (s : State) : Nat := if s.sys.stage = .serving then (Config.fwBuild s.fw.active.version).toNat else 0

/-- HATCH_STATE (R58, R59). -/
def State.hatchState (s : State) : Nat := (List.range 8).foldl (fun n k => n + (s.box k).state.code * 4 ^ k) 0

/-- HATCH_DONE (R59). -/
def State.hatchDone (s : State) : Nat := (List.range 8).foldl (fun n k => n + b2n (decide ((s.box k).state = .done)) * 2 ^ k) 0

/-- The word of the mailbox areas at an offset (R57). -/
def State.boxWord (s : State) (off : Nat) : Nat :=
  let b := s.box ((off - 0x2000) / 0x400)
  let o := off % 0x400
  if o < 0x200 then uAt (padTo b.request 512) o 4 else uAt (padTo b.reply 512) (o - 0x200) 4

/-- The live word at an offset of BAR0; offsets not listed read 0 (R50, log 19). -/
def State.regWord (s : State) (off : Nat) : Nat :=
  let t := s.time
  if 0x2000 ≤ off ∧ off < 0x4000 then s.boxWord off
  else if 0x8000 ≤ off ∧ off < 0x8040 then s.hatch.msixWord off
  else if off = 0x8800 then s.msixPending
  else
    match off with
    | 0x0000 => 0x57590128
    | 0x0004 => s.idStep
    | 0x0008 => Config.serial.toNat % 2 ^ 32
    | 0x000C => Config.serial.toNat / 2 ^ 32
    | 0x0010 => s.idFw
    | 0x0014 => s.idBuild
    | 0x0100 => s.gstat
    | 0x0104 => s.notif.gload
    | 0x0108 => s.hatch.hostErr
    | 0x0200 => t.capEdge * 16 + b2n t.ppsEn * 2
    | 0x0204 => t.capSeq * 2 ^ 16 + t.state.code * 2 ^ 12 + b2n t.capOverrun * 4 + b2n t.capPin * 2 + b2n t.capValid
    | 0x0208 => t.capTick % 2 ^ 32
    | 0x020C => t.capTick / 2 ^ 32
    | 0x0210 => t.capSec % 2 ^ 32
    | 0x0214 => t.capSec / 2 ^ 32
    | 0x0218 => t.capNs
    | 0x021C => t.capSub
    | 0x0220 => s.now % 2 ^ 32
    | 0x0224 => s.now / 2 ^ 32
    | 0x0228 => wrap 32 t.rate
    | 0x1004 => s.hatchState
    | 0x1008 => s.hatchDone
    | 0x100C => s.hatch.irqEn
    | 0x4000 => s.notif.base * 2 ^ 13
    | 0x4004 => s.notif.holdoff * 2 ^ 16 + s.notif.thresh * 2 ^ 8 + b2n s.notif.enable
    | 0x4008 => b2n s.notif.phase * 2 ^ 8 + s.notif.head
    | 0x400C => s.notif.tail
    | 0x4010 => s.notif.dropped
    | _ => 0

/-- Whether the low word of a writable 64-bit value stands at an offset: the message addresses of the MSI-X table (R47, R53, log 19). -/
def writable64 (off : Nat) : Bool := decide (0x8000 ≤ off) && decide (off < 0x8040) && off % 16 == 0

/-- Whether the low word of a 64-bit value stands at an offset: ID_SERIAL, the capture and time registers, the MSI-X message addresses and
the pending-bit array (R47, R52, R54, R220, log 19). -/
def lowOf64 (off : Nat) : Bool := [0x0008, 0x0208, 0x0210, 0x0220, 0x8800].contains off || writable64 off

/-- Whether an offset lies in the reply area of an ACTIVE mailbox, whose content is undefined (R62, log 2). -/
def State.replyOpen (s : State) (off : Nat) : Bool :=
  decide (0x2000 ≤ off) && decide (off < 0x4000) && decide (0x200 ≤ off % 0x400) &&
    decide ((s.box ((off - 0x2000) / 0x400)).state = .active)

/-- The word a read of an offset returns: the live one, and a free value in the reply area of an ACTIVE mailbox (R50, R62, log 2). -/
def State.readWord (s : State) (off : Nat) : Nat := if s.replyOpen off then s.freeVal % 2 ^ 32 else s.regWord off

/-- What a read does to a register: GSTAT ends the FAULT_PIN condition, GLOAD clears its peak, NR_DROPPED is cleared (R11, R55, R64, R82). -/
def State.regTouch (s : State) (off : Nat) : State :=
  match off with
  | 0x0100 => s.updHatch fun h => { h with faultPinChanged := false }
  | 0x0104 => s.updNotif fun n => { n with mpPeak := 0 }
  | 0x4010 => s.updNotif fun n => { n with dropped := 0 }
  | _ => s

/-! ### What a write does (R11, R50, R57, R59, R82, R220) -/

/-- A word of a request area is written; while the mailbox is PENDING the bytes written are free values (R57, R95, log 2). -/
def State.requestWrite (s : State) (off v : Nat) : State :=
  let mb := (off - 0x2000) / 0x400
  if (s.box mb).state = .pending then
    (s.modBox mb fun b => { b with request := setSlice (padTo b.request 512) (off % 0x400) (leBytes 4 s.freeVal) }).tookFree
  else s.modBox mb fun b => { b with request := setSlice (padTo b.request 512) (off % 0x400) (leBytes 4 v) }

/-- A word written to the MSI-X table; a mask bit that is cleared lets the message held back go (R47, log 19). -/
def State.msixWrite (s : State) (off v : Nat) : State :=
  let n := (off - 0x8000) / 16
  let s1 := s.updHatch fun h => { h with msixTable := h.msixTable.set off v }
  if off % 16 = 12 ∧ bit v 0 = false ∧ s.vectorHeld n = true ∧ s.hatch.qspi = false then s1.updHatch fun h => h.sendVector n else s1

/-- A word written at an offset of BAR0, under the access codes of its fields; other offsets ignore it, and so do the RSVD bits of a register
(R11, R50; log 110). -/
def State.regWrite (s : State) (off v : Nat) : State :=
  if 0x2000 ≤ off ∧ off < 0x4000 then (if off % 0x400 < 0x200 then s.requestWrite off v else s)
  else if 0x8000 ≤ off ∧ off < 0x8040 then s.msixWrite off v
  else
    match off with
    | 0x0108 => s.hostErrClear v
    | 0x0200 => s.tcapWrite v
    | 0x0204 => s.tcapStatus v
    | 0x1000 => s.doorbell v
    | 0x1008 => s.doneWrite v
    | 0x100C => irqSince s (s.updHatch fun h => { h with irqEn := v % 2 ^ 11 })
    | 0x4000 =>
      if bits v 20 13 < 0xE0 then
        if s.notif.enable then (s.updNotif fun n => { n with base := s.freeVal % 0xE0 }).tookFree
        else s.updNotif fun n => { n with base := bits v 20 13 }
      else s
    | 0x4004 => s.nrCtrl v
    | 0x400C => s.nrTail v
    | _ => s

/-! ### Ports, latches and held words (R52, R53) -/

/-- What a port of the window holds. -/
def State.acc (s : State) : AccessPort → PortState
  | .host _ => s.hatch.host
  | .debug => s.hatch.jtag
  | .mp => s.hatch.mp

/-- Changes what a port holds. -/
def State.modAcc (s : State) (p : AccessPort) (f : PortState → PortState) : State :=
  s.updHatch fun h =>
    match p with
    | .host _ => { h with host := f h.host }
    | .debug => { h with jtag := f h.jtag }
    | .mp => { h with mp := f h.mp }

/-- Whether a port reaches the window: the selected host port once the reset has ended, the debug port while it is open for memory, the
management processor once it runs (R46, R54, R639, R643). -/
def State.accOpen (s : State) : AccessPort → Bool
  | .host p => s.portUp p
  | .debug => s.windowsUp && bit s.dbgScope 1
  | .mp => decide (s.sys.stage = .ubferStarting) || s.hatchReady

/-- What a port's access reaches: its own address map for the host (R47, R48), an offset of BAR0 for the others. -/
def portTarget (p : AccessPort) (write : Bool) (a : Nat) : HostTarget :=
  match p with
  | .host h => hostTarget h write false a
  | _ => .bar0 (a % 0x10000)

/-- Whether a port makes accesses of 8 bytes: the host does (R49). -/
def portWide : AccessPort → Bool
  | .host _ => true
  | _ => false

/-- The free value behind a word of undefined content has been taken (R62, log 2). -/
def State.tookWord (s : State) (off : Nat) : State := if s.replyOpen off then s.tookFree else s

/-- A read at an offset that finds no latched word: the live word, and for the low word of a 64-bit value the high word of the same instant
in the latch (R52). -/
def State.liveRead (s : State) (p : AccessPort) (off : Nat) : State :=
  (((s.modAcc p fun x =>
    { x with lastRead := s.readWord off,
             latch := if lowOf64 off then { tag := some (off + 4), high := s.regWord (off + 4) } else x.latch }).regTouch off)).tookWord off

/-- One read of 8 bytes: both words of one instant, whatever the latch holds (R49, log 111). -/
def State.wholeRead (s : State) (p : AccessPort) (off : Nat) : State :=
  ((((s.modAcc p fun x => { x with lastRead := s.readWord off, lastHigh := s.readWord (off + 4) }).regTouch off).regTouch
    (off + 4))).tookWord off

/-- A read at an offset, by the latch where its tag matches (R52). -/
def State.accRead (s : State) (p : AccessPort) (off : Nat) : State :=
  if (s.acc p).latch.tag = some off then
    s.modAcc p fun x => { x with lastRead := x.latch.high, latch := { x.latch with tag := none } }
  else s.liveRead p off

/-- A write at an offset: a low word of a writable 64-bit value is held, a high word goes with the low word held or the current one, and any
other write discards the held word (R53). -/
def State.accWrite (s : State) (p : AccessPort) (off v : Nat) : State :=
  if writable64 off then s.modAcc p fun x => { x with heldLow := some (off, v) }
  else
    let low := match (s.acc p).heldLow with
      | some (o, l) => if o + 4 = off ∧ writable64 o = true then some l else none
      | none => none
    let s1 := s.modAcc p fun x => { x with heldLow := none }
    match low with
    | some l => (s1.regWrite (off - 4) l).regWrite off v
    | none => s1.regWrite off v

/-- One write of 8 bytes whose high word stands at an offset: both words together, and the held word is gone (R49, R53, log 111). -/
def State.wholeWrite (s : State) (p : AccessPort) (off l v : Nat) : State :=
  ((s.modAcc p fun x => { x with heldLow := none }).regWrite (off - 4) l).regWrite off v

/-- A port's write discards the low word it holds (R53). -/
def State.dropHeld (s : State) (p : AccessPort) : State := s.modAcc p fun x => { x with heldLow := none }

/-- A read by a port of what its address reaches: an address of neither BAR reads 0, and one of BAR2 is no access of these rows (R48). -/
def State.portRead (s : State) (p : AccessPort) (a : Nat) (f : Nat → State) : State :=
  match portTarget p false a with
  | .bar0 off => f off
  | .nowhere => s.modAcc p fun x => { x with lastRead := 0, lastHigh := 0 }
  | .bar2 _ => s
  | .inert => s

/-- A write by a port to what its address reaches: an address of neither BAR ignores it (R48, R53). -/
def State.portWrite (s : State) (p : AccessPort) (a : Nat) (f : Nat → State) : State :=
  match portTarget p true a with
  | .bar0 off => f off
  | .nowhere => s.dropHeld p
  | .bar2 _ => s
  | .inert => s

/-- An access of a port begins: on QSPI its chip select falls, which lets XBUSY_N go high (R48, R428). -/
def State.busStart (s : State) (p : AccessPort) : State :=
  match p with
  | .host (.qspi _) => s.newTransaction
  | _ => s

/-! ### Rows -/

/-- GSTAT_READ (R55, R64). -/
def execGstatRead (s : State) : Host.Outcome State Fault Refusal :=
  if s.windowsUp then .next (s.liveRead (.host .pcie) 0x0100) else .next s

/-- LOW_WORD_READ (R48, R49, R52): the low word, or both words of a value in one access of 8 bytes. -/
def execLowWordRead (port : AccessPort) (addr : BitVec 24) (s : State) (whole : Bool := false) : Host.Outcome State Fault Refusal :=
  if s.accOpen port then
    let s1 := s.busStart port
    .next (s1.portRead port addr.toNat fun off => if whole && portWide port then s1.wholeRead port off else s1.liveRead port off)
  else .next s

/-- HIGH_WORD_READ (R48, R52). -/
def execHighWordRead (port : AccessPort) (addr : BitVec 24) (s : State) : Host.Outcome State Fault Refusal :=
  if s.accOpen port then
    let s1 := s.busStart port
    .next (s1.portRead port addr.toNat fun off => s1.accRead port off)
  else .next s

/-- LOW_WORD_WRITE (R48, R53). -/
def execLowWordWrite (port : AccessPort) (addr : BitVec 24) (v : BitVec 32) (s : State) : Host.Outcome State Fault Refusal :=
  if s.accOpen port then
    let s1 := s.busStart port
    .next (s1.portWrite port addr.toNat fun off => s1.accWrite port off v.toNat)
  else .next s

/-- HIGH_WORD_WRITE (R48, R49, R53): the high word, or both words of a value in one access of 8 bytes. -/
def execHighWordWrite (port : AccessPort) (addr : BitVec 24) (v : BitVec 32) (s : State) (low : Option (BitVec 32) := none) :
    Host.Outcome State Fault Refusal :=
  if s.accOpen port then
    let s1 := s.busStart port
    .next (s1.portWrite port addr.toNat fun off =>
      match low with
      | some l => if portWide port then s1.wholeWrite port off l.toNat v.toNat else s1.accWrite port off v.toNat
      | none => s1.accWrite port off v.toNat)
  else .next s

/-- REGISTER_WRITE (R11, R48, R50). -/
def execRegisterWrite (addr : BitVec 24) (v : BitVec 32) (s : State) (p : HostPort := .pcie) : Host.Outcome State Fault Refusal :=
  if s.portUp p then
    let s1 := s.busStart (.host p)
    .next (s1.portWrite (.host p) addr.toNat fun off => s1.accWrite (.host p) off v.toNat)
  else .next s

/-- A debug access to the tightly coupled memory; a word the debugger has not written is Ubfer's own and reads as a free value (R643, log 2). -/
def State.tcmAccess (s : State) (a : Nat) (w : Option (BitVec 32)) : State :=
  match w with
  | some v => s.updSys fun y => { y with tcm := y.tcm.set a v.toNat }
  | none =>
    match s.sys.tcm.get? a with
    | some v => s.updSys fun y => { y with debugRead := v }
    | none => (s.updSys fun y => { y with debugRead := s.freeVal % 2 ^ 32 }).tookFree

/-- A debug access to the pantry through the management port; the strongbox reads 0, drops writes and raises PANTRY_SB_ACCESS
(R423, R435, R643). -/
def State.pantryAccess (s : State) (a : Nat) (w : Option (BitVec 32)) : State :=
  let off := a % 0x200000 / 4 * 4
  if 0x1C0000 ≤ off then (s.updSys fun y => { y with debugRead := 0 }).fire 0x58 noInst (leBytes 4 off ++ [3])
  else
    match w with
    | some v => s.wordWrites off none (some { data := v, be := 15 }) none
    | none =>
      let s1 := if s.bankOff (off / 0x20000) then s.bump 0x0F03 noInst 4 else s.bankTouch (off / 0x20000)
      s1.updSys fun y => { y with debugRead := s.wordValue off }

/-- DEBUG_MEM_ACCESS (R52, R53, R643). -/
def execDebugMemAccess (space : DebugSpace) (addr : BitVec 32) (write : Option (BitVec 32)) (s : State) :
    Host.Outcome State Fault Refusal :=
  if s.accOpen .debug then
    match space with
    | .tcm => .next ((if write.isSome then s.dropHeld .debug else s).tcmAccess (addr.toNat % 0x100000 / 4 * 4) write)
    | .pantry => ((if write.isSome then s.dropHeld .debug else s).pantryAccess addr.toNat write).done
    | .bar0 =>
      let off := addr.toNat % 0x10000
      match write with
      | some v => .next (s.accWrite .debug off v.toNat)
      | none =>
        let s1 := s.accRead .debug off
        .next (s1.updSys fun y => { y with debugRead := s1.hatch.jtag.lastRead })
  else .next s

end Sys2Proof.Machine
end

