-- ==== Sys2Proof/Machine/ParamValues.lean ====
section
/-!
DEFINITION. What a read of each parameter finds: the read-only values of every page formed from the state, the counts, and the
values written (R16, R74 to R76).
-/

namespace Sys2Proof.Machine

/-- A list of flags as a number, the first its bit 0. -/
def flagNum : List Bool → Nat
  | [] => 0
  | b :: r => b2n b + 2 * flagNum r

/-- The code of a string's state in MOD_STATE (R265). -/
def StrSt.code : StrSt → Nat
  | .stopped => 0
  | .starting => 1
  | .running => 2
  | .stopping => 3
  | .tripped => 4

/-- The code of a lane PLL's state (R130). -/
def RackSt.code : RackSt → Nat
  | .off => 0
  | .locking => 1
  | .locked => 2
  | .relocking => 3

/-- The code of the main PLL's state (R646). -/
def PllState.code : PllState → Nat
  | .off => 0
  | .locking => 1
  | .locked => 2

/-- Pages 0x01 and 0x02: identity, status, load (R54 to R56, R88). -/
def State.hostValue (s : State) (id : Nat) : Bytes :=
  match id with
  | 0x0101 => leBytes 4 (s.regWord 0x0000) ++ leBytes 4 s.idStep ++ leBytes 4 (s.regWord 0x0008) ++ leBytes 4 (s.regWord 0x000C) ++
      leBytes 4 s.idFw ++ leBytes 4 s.idBuild
  | 0x0102 => leBytes 4 s.gstat ++ leBytes 4 s.notif.gload ++ leBytes 4 s.hatch.hostErr
  | 0x0103 => leBytes 8 s.now
  | 0x0105 => leBytes 4 s.par.saves ++ leBytes 4 s.par.savedAt
  | _ => leBytes 2 s.notif.mpLoad

/-- Page 0x04: lanes and lane PLLs (R130). -/
def State.laneValue (s : State) (id n : Nat) : Bytes :=
  let l := s.lane n
  match id with
  | 0x0401 => leBytes 1 l.st.code ++ leBytes 1 l.attempt ++ [0, 0]
  | 0x0409 => (l.taps.flatMap fun h => leBytesI 1 h) ++ leBytes 1 l.preset ++ [0, 0]
  | 0x040A => (l.eye.flatMap fun e => leBytes 1 e) ++ [0]
  | _ => leBytes 1 (s.rack n).st.code ++ [0] ++ leBytes 2 (s.rack n).losses

/-- Page 0x05: links (R183). -/
def State.linkValue (s : State) (id n : Nat) : Bytes :=
  let l := s.lnk n
  match id with
  | 0x0502 => leBytes 1 l.auth.code
  | 0x050C => padTo l.health 12 ++ leBytes 4 l.healthAt
  | 0x050D => leBytes 8 l.ident.id ++ leBytes 1 l.ident.cellType ++ [0] ++ leBytes 2 l.ident.version
  | _ => leBytes 4 (s.links.wptr.get 0 n)

/-- Pages 0x06 and 0x07: time and the station ports (R224, R225). -/
def State.timeValue (s : State) (id n : Nat) : Bytes :=
  let t := s.time
  let p := s.sta.get {} n
  match id with
  | 0x0601 => leBytes 1 t.state.code ++ leBytes 1 t.source.code ++ leBytes 1 t.hops ++ leBytes 1 t.masterHead ++ leBytes 2 t.gen ++
      leBytes 1 (b2n t.genStep) ++ [0]
  | 0x0602 => leBytesI 4 t.offset
  | 0x0603 => leBytesI 4 t.rate
  | 0x060A => leBytes 4 (s.dly n).mean ++ leBytes 2 (s.dly n).meas.length ++ leBytes 2 (s.dly n).late
  | _ => leBytes 1 (s.ptpCode n) ++ [0, 0, 0] ++ leBytesI 4 p.ptpOffset ++ leBytes 4 p.ptpDelay

/-- Page 0x08: the modulator (R265, log 56). -/
def State.modValue (s : State) (id n : Nat) : Bytes :=
  let x := s.str n
  let m := s.ml n
  match id with
  | 0x0801 => leBytes 1 x.st.code ++ leBytes 1 x.mode ++ leBytes 1 x.n ++
      leBytes 1 ((s.lanesOf n).filter fun k => eType (s.entry k) == 1 && s.bypassed k).length
  | 0x0811 =>
    let first := match m.shelf with
      | e :: _ => shortOf e.time
      | [] => 0
    leBytes 1 m.shelf.length ++ leBytes 1 m.maxOcc ++ leBytes 1 (m.shelf.filter (·.held)).length ++ [0] ++ leBytes 4 first
  | 0x0812 => leBytes 8 x.bAt ++ leBytes 4 x.k
  | _ => leBytesI 2 x.level ++ leBytes 2 x.levelSat

/-- Pages 0x09 and 0x0A: dead times and the sorter (R290, R292). -/
def State.dtValue (s : State) (id n : Nat) : Bytes :=
  match id with
  | 0x090F => ((List.range 6).flatMap fun k => leBytes 2 (s.dleg n k).cap) ++
      leBytes 1 (flagNum ((List.range 6).map fun k => (s.dleg n k).fallback)) ++
      leBytes 1 (flagNum ((List.range 6).map fun k => legAdapted (s.entry n) k)) ++ leBytes 2 (s.dtLo n)
  | 0x0911 => (List.range 6).flatMap fun k => leBytesI 2 ((s.dleg n k).margin.getD (-32768))
  | _ =>
    let t := (s.srt n).stat
    leBytesI 2 t.mean ++ leBytesI 2 t.min ++ leBytes 1 t.minPos ++ leBytes 1 t.maxPos ++ leBytesI 2 t.max ++ leBytes 1 t.keyed ++
      leBytes 1 t.stale ++ leBytesI 1 t.dir ++ [0] ++ leBytes 4 t.k

/-- The stages that hold an enabled loop (R300, R326, log 60). -/
def LoopTables.stages (t : LoopTables) : Nat :=
  ((List.range 4).filter fun k => t.enabled.any fun c => dStage c.2 == k).length

/-- Page 0x0B: the loop engine (R326). -/
def State.loopValue (s : State) (id n : Nat) : Bytes :=
  let x := s.loopSt n
  let d := s.le.work.descOf n
  match id with
  | 0x0B01 => leBytes 1 (b2n s.le.running) ++ leBytes 1 s.le.work.stages ++ leBytes 2 s.le.work.cost ++ leBytes 4 s.le.j
  | 0x0B07 => leBytesI 2 x.out ++ leBytes 1 x.region ++
      leBytes 1 (flagNum [x.clipHi, x.clipLo, x.stale, !dEn d]) ++ leBytesI 4 (satI 32 (x.i * (2 ^ dShift d : Nat)))
  | 0x0B09 => leBytes 4 s.le.gen
  | _ => leBytes 1 (b2n s.le.pend.isSome)

/-- Page 0x0C: protection, bypass, ride-through (R361). -/
def State.protValue (s : State) (id n : Nat) : Bytes :=
  let p := s.prt n
  let b := s.byp n
  let r := s.prot.ride
  match id with
  | 0x0C01 => leBytes 2 p.mask ++ leBytes 1 p.first ++ [0] ++ leBytes 4 p.tripAt
  | 0x0C08 =>
    let at_ := match b.enterAt with
      | some t => t % 2 ^ 32
      | none => 0
    leBytes 1 (s.bypCode n) ++ leBytes 1 (b.held.getD 0) ++ [0, 0] ++ leBytes 4 at_
  | _ => leBytes 1 r.st.code ++ leBytes 1 r.reason ++ leBytes 1 r.str ++ [0] ++ leBytes 4 r.enteredAt

/-- Page 0x0D: the twin (R395). -/
def State.twinValue (s : State) (id n : Nat) : Bytes :=
  let t := s.twin
  let c := t.case
  match id with
  | 0x0D01 => leBytes 1 t.role.code ++ leBytes 1 s.unit ++ leBytes 1 (t.peerRole.getD 0xFF) ++
      leBytes 1 (flagNum [t.qualified, s.twinLinkUp, t.peerAlive, t.caseOpen, t.resync]) ++ leBytes 2 t.epoch ++
      leBytes 2 t.peerEpoch ++ leBytes 4 t.classJ ++ leBytes 4 t.roleAt
  | 0x0D04 => padTo (if n = 0 then t.ownHealth else t.peerHealth) 12
  | _ => leBytes 4 c.j ++ leBytes 4 c.t0 ++ leBytes 4 c.verdictAt ++ leBytes 1 c.cls ++ leBytes 1 c.verdict ++ leBytes 1 c.rule ++
      leBytes 1 c.replay ++ leBytes 4 c.outActive ++ leBytes 4 c.outStandby ++ leBytes 4 c.edgeActive ++ leBytes 4 c.edgeStandby

/-- The latest census of a head's nodes (R417): the ACTIVE's, or the newer of the two (log 82). -/
def State.headCensus (s : State) (h : Nat) : Nat :=
  match s.headNode h with
  | some n => (s.rnode n).short
  | none => if (s.rnode (2 * h)).at_ < (s.rnode (2 * h + 1)).at_ then (s.rnode (2 * h + 1)).short else (s.rnode (2 * h)).short

/-- Page 0x0E: the ring (R417). -/
def State.ringValue (s : State) (id n : Nat) : Bytes :=
  let here := (List.range 17).map fun k => (s.rnode k).present
  match id with
  | 0x0E03 => leBytes 4 (flagNum here) ++
      leBytes 1 (flagNum [decide ((s.lane 128).st = .linked), decide ((s.lane 129).st = .linked), s.sys.syncAligned]) ++
      leBytes 1 (here.filter fun b => b).length ++ [0, 0]
  | 0x0E04 =>
    let act := if s.headId = n ∧ s.twin.role = .active then s.node else (s.headNode n).getD 0xFF
    leBytes 1 (b2n (s.headPresent n)) ++ leBytes 1 act ++ leBytes 2 (s.ring.headEpoch.get 0 n) ++ leBytes 4 (s.headCensus n)
  | _ => leBytes 2 (s.ring.wlast.get 0 n)

/-- SB_STATE (R438). -/
def State.sbValue (s : State) : Bytes :=
  leBytes 1 (b2n s.pantry.wiping.isSome) ++ leBytes 1 s.pantry.wipeCause ++ leBytes 2 s.pantry.wipes ++ leBytes 4 s.pantry.wipeDoneAt

/-- Pages 0x10 and 0x11: housekeeping and thermal (R464, R465). -/
def State.hkParam (s : State) (id n : Nat) : Bytes :=
  let v := s.hkVal n
  let d := s.hk.dew
  let z := s.zone n
  match id with
  | 0x1001 => leBytes 1 (flagNum [(s.hkPair 0).awake, (s.hkPair 1).awake]) ++
      leBytes 1 ((s.hkPair 0).urgent.length + (s.hkPair 1).urgent.length) ++ [0, 0] ++ leBytes 4 s.hk.rounds
  | 0x1005 => leBytesI 2 v.value ++ leBytes 2 v.code ++ leBytes 1 (flagNum [v.valid, v.bad, v.below, v.above]) ++ [0] ++ leBytes 2 v.round
  | 0x1008 => leBytes 2 (s.hk.fan.get {} n).rpm ++ leBytes 1 (b2n (decide (2 ≤ (s.hk.fan.get {} n).low))) ++ [0]
  | 0x100A => leBytesI 2 d.t ++ leBytesI 2 d.rh ++ leBytesI 2 d.point ++ leBytesI 2 d.margin
  | _ =>
    let rec_ := s.thermRec n
    let recId := match rec_ with
      | some r => r.id
      | none => 0
    let unread := s.hk.recs.any fun r => r.zone == n && !r.read
    leBytesI 2 (z.t.getD (-32768)) ++ leBytes 1 z.d ++ leBytes 1 (flagNum [rec_.isSome, z.t.isNone, unread]) ++ leBytes 1 z.count ++ [0] ++
      leBytes 2 z.src ++ leBytes 4 recId

/-- Page 0x12: the auxiliary drives (R494). -/
def State.auxValue (s : State) (id b : Nat) : Bytes :=
  let x := s.br b
  let ph := (List.range 3).map fun p => s.aph b p
  match id with
  | 0x120B => leBytes 1 x.mode ++
      leBytes 1 (flagNum [(x.trip.get {} 0).latched, (x.trip.get {} 1).latched, s.auxActive b 0, s.auxActive b 1, ph.any (·.incomplete),
        s.aux.driving]) ++
      leBytes 1 (flagNum ((List.range 6).map fun k => (s.sw b k).on)) ++ leBytes 1 (flagNum ((List.range 6).map fun k => (s.sw b k).off)) ++
      leBytes 1 (flagNum ((List.range 6).map fun k => (s.sw b k).sg)) ++
      leBytes 1 (flagNum (ph.map (·.node)) + 8 * flagNum (ph.map (·.fallback))) ++ [0, 0] ++ leBytes 4 x.boundaries
  | _ => ((List.range 3).flatMap fun p => leBytes 2 (s.phaseDt b p)) ++ leBytesI 2 x.lastM

/-- Page 0x13: position (R513, log 91). -/
def State.posValue (s : State) (id n : Nat) : Bytes :=
  let x := s.pch n
  let c := s.pos.cmp.get {} n
  match id with
  | 0x1304 => leBytes 4 x.count ++ leBytes 4 x.latch ++ leBytes 8 x.stamp
  | 0x1305 => leBytesI 4 x.speed ++ leBytes 4 x.period ++ leBytes 1 (b2n x.countMode) ++ leBytes 1 (b2n x.zero) ++ [0, 0]
  | 0x1306 => leBytes 1 (flagNum [x.valid, (x.ln 0).wire, (x.ln 1).wire, (x.ln 2).wire, x.up, x.refSeen, x.pending.isSome]) ++
      leBytes 1 (flagNum [s.posLevel n 0, s.posLevel n 1, s.posLevel n 2]) ++ [0, 0]
  | _ => leBytes 1 (flagNum [s.cmpMode n != 0, c.fired, c.late, c.invalid]) ++ [0, 0, 0] ++ leBytes 4 c.at_

/-- Pages 0x19 and 0x1A: clocks, reset, debug (R646, R647). -/
def State.sysValue (s : State) (id : Nat) : Bytes :=
  let y := s.sys
  match id with
  | 0x1901 => leBytes 1 y.pll.code ++ leBytes 1 (flagNum [y.refclk, y.syncAligned]) ++ leBytes 1 (s.p0 0x1902) ++ [0] ++
      leBytesI 4 y.refOffset
  | 0x1903 => leBytes 1 y.cause ++ leBytes 1 y.causeSrc ++ leBytes 1 y.bootResult ++ [0] ++ leBytes 2 y.resets ++ leBytes 2 y.wdtResets ++
      leBytes 2 y.clkResets ++ [0, 0]
  | _ =>
    let left := if s.dbgCode = 2 then
        match y.opening with
        | some o => ceilDiv (o.2 - s.bat.rtcSec) 60
        | none => 0
      else 0
    leBytes 1 s.dbgCode ++ leBytes 1 s.dbgScope ++ leBytes 2 left ++
      leBytes 1 (flagNum [y.core0.halted, y.core1.halted, decide (y.jtag = .extest)]) ++ [0, 0, 0]

/-- The value of a read-only parameter, and of a writable one that its block holds. -/
def State.roValue (s : State) (id n : Nat) : Bytes :=
  match id / 256 with
  | 0x01 => s.hostValue id
  | 0x02 => s.hostValue id
  | 0x03 => if id = 0x0301 then leBytes 4 s.roll.gen else leBytes 1 (b2n s.roll.pend.isSome)
  | 0x04 => s.laneValue id n
  | 0x05 => s.linkValue id n
  | 0x06 => s.timeValue id n
  | 0x07 => s.timeValue id n
  | 0x08 => s.modValue id n
  | 0x09 => s.dtValue id n
  | 0x0A => s.dtValue id n
  | 0x0B => s.loopValue id n
  | 0x0C => s.protValue id n
  | 0x0D => s.twinValue id n
  | 0x0E => s.ringValue id n
  | 0x0F => s.sbValue
  | 0x10 => s.hkParam id n
  | 0x11 => s.hkParam id n
  | 0x12 => s.auxValue id n
  | 0x13 => s.posValue id n
  | 0x14 => s.safeValue id
  | 0x15 => s.enValue id n
  | 0x16 => s.enValue id n
  | 0x17 => s.faultValue id n
  | 0x18 => s.firmValue id n
  | _ => s.sysValue id

/-- The value of a writable parameter: SELECT 0 its shadow or last written value, 1 the value in effect (R76). DFE_TAPS, the roll, the
loop tables and the battery domain's settings stand in their blocks. -/
def State.rwValue (s : State) (id n sel : Nat) : Bytes :=
  match id with
  | 0x0303 => entryOf (if sel = 0 then s.roll.shadow else s.roll.working) n
  | 0x0409 => s.laneValue id n
  | 0x0B05 => (if sel = 0 then s.le.shadow else s.le.work).descOf n
  | 0x0B06 => (if sel = 0 then s.le.shadow else s.le.work).coefOf n
  | 0x1602 => s.enValue id n
  | 0x1603 => s.enValue id n
  | _ => if sel = 0 then s.pshadow id n else s.peff id n

/-- The value of a parameter at its full size; of an H value both selections return the last written one (R76). -/
def State.paramValue (s : State) (r : ParamRow) (n sel : Nat) : Bytes :=
  let v := match r.acc with
    | .ro => s.roValue r.id n
    | .rc => s.rcValue r.id n
    | _ => s.rwValue r.id n (if r.cls = .halt then 0 else sel)
  (padTo v r.size).take r.size

/-- What a read of a parameter clears: an RC parameter's counts (R11), TIME_GEN_STEP (R224). -/
def State.paramRead (s : State) (r : ParamRow) (n : Nat) : State :=
  if r.acc = .rc then s.rcClear r.id n
  else if r.id = 0x0601 then s.updTime fun t => { t with genStep := false }
  else s

end Sys2Proof.Machine
end

