-- ==== Sys2Proof/Machine/ParamHooks.lean ====
section
/-!
DEFINITION. What each chapter adds to a write of its parameters: the conditions it is refused for, the relations between values, and
what an accepted write sets off (R77, R78 and the chapters' rules).
-/

namespace Sys2Proof.Machine

/-- A record of a request (R76). -/
structure ParamRec where
  /-- Parameter ID. -/
  id : Nat
  /-- INSTANCE. -/
  inst : Nat
  /-- The value. -/
  v : Bytes
deriving DecidableEq, Repr

/-! ### Blocks and boundaries (R13, R79, R80) -/

/-- The string a value belongs to, if it is string-owned: its instance, or the string of the lane's working entry (R79). -/
def State.recString (s : State) (r : ParamRow) (n : Nat) : Option Nat :=
  if r.kind = .string then some n else if eType (s.entry n) = 0 then none else some (s.strOf n)

/-- Whether the block of an S value is stopped, so that the value takes effect at once (R80). The housekeeping rounds, the bridges'
boundaries (R478) and the clock block's (R629) never cease (log 29). -/
def State.blockStopped (s : State) (r : ParamRow) (n : Nat) : Bool :=
  match r.owner with
  | .string =>
    match s.recString r n with
    | some str => s.strStopped str
    | none => true
  | _ => false

/-- The tick time of the boundary at which an S value accepted now takes effect (R14, R80, log 29). -/
def State.recBoundary (s : State) (r : ParamRow) (n : Nat) : Nat :=
  if s.blockStopped r n then s.now
  else
    match r.owner with
    | .string => (s.str ((s.recString r n).getD 0)).next
    | .hk => (s.now / 80000000 + 1) * 80000000
    | .bridge => s.now + ((s.br n).next - s.mono)
    | .clock => (s.now / 8000 + 1) * 8000
    | _ => s.now

/-- The block, and the string or bridge of it, that a held value belongs to, with the string it belonged to when it was checked; none where
the value cannot be held (R79). -/
def heldBlock (r : ParamRow) (n : Nat) (str : Option Nat) : Option (Owner × Nat) :=
  match r.owner with
  | .string => str.map fun k => (.string, k)
  | .bridge => some (.bridge, n)
  | o => some (o, 0)

/-! ### Conditions (R77 step 3) -/

/-- Whether a bank may not be set Off: it holds the notification ring, a stream slot's area or the gateway window (R432). -/
def State.bankHeld (s : State) (b : Nat) : Bool :=
  (s.notif.enable && s.notif.base * 8192 / 0x20000 == b) ||
    ((List.range 4).any fun k =>
      s.pu 0x050E k 0 2 != 0xFFFF && decide (s.pu 0x050E k 4 4 < (b + 1) * 0x20000) &&
        decide (b * 0x20000 < s.pu 0x050E k 4 4 + s.pu 0x050E k 8 4)) ||
    (s.ringEn && s.pu 0x0E02 noInst 2 1 == b)

/-- Why a PANTRY_POWER value is refused (R432). -/
def State.powerRefusal (s : State) (v : Nat) : Option (Nat × Nat) :=
  let off := (List.range 16).filter fun b => bits v (2 * b + 1) (2 * b) == 2
  if off.any fun b => decide (14 ≤ b) then some (stBadParam, 0x92)
  else if off.any s.bankHeld then some (stRefused, 0x93)
  else none

/-- The REF_SRC bit of a reference parameter (R235). -/
def refBit (id : Nat) : Nat := if id = 0x080B then 0 else if id = 0x080D then 1 else if id = 0x080C then 2 else 3

/-- Whether the starts of an EN_SCHED ascend strictly (R559). -/
def schedAscends (v : Bytes) : Bool :=
  (List.range (uAt v 0 1 - 1)).all fun i => decide (uAt v (4 + 8 * i) 4 < uAt v (12 + 8 * i) 4)

/-- Whether a host signal is named by an enabled zone (R457). -/
def State.zoneOwnsSig (s : State) (sig : Nat) : Bool :=
  (List.range 16).any fun z => s.zoneEn z && s.pu 0x1101 z 16 1 == sig

/-- The condition of its chapter that one record breaks: status and reason. What an entry of the roll, a descriptor or a coefficient set
holds is checked by its own commit alone (R34, R80, R322, log 27, log 88). -/
def State.recCond (s : State) (r : ParamRow) (n : Nat) (v : Bytes) : Option (Nat × Nat) :=
  let no := fun (b : Bool) (st reason : Nat) => if b then some (st, reason) else none
  match r.id with
  | 0x0501 => no (uAt v 0 1 == 0 && decide (s.fw.lc = .field)) stRefused 0x25
  | 0x060D => no (s.p0 0x060E != 0) stRefused 0x31
  | 0x080B => no (bit (s.pu 0x080A n 0 1) 0) stRefused 0x40
  | 0x080C => no (bit (s.pu 0x080A n 0 1) 2) stRefused 0x40
  | 0x080D => no (eType (s.entry n) != 0 && bit (s.pu 0x080A (s.strOf n) 0 1) 1) stRefused 0x40
  | 0x080E => no (eType (s.entry n) != 0 && bit (s.pu 0x080A (s.strOf n) 0 1) 3) stRefused 0x40
  | 0x0B08 => if s.zoneOwnsSig n then some (stRefused, 0xA5) else no (s.enOwnsSig n) stRefused 0xD2
  | 0x0E01 => no (uAt v 0 1 == 1 && (decide (s.twin.role = .active) || decide (s.twin.role = .standby)) && s.unit != s.node % 2) stRefused 0x90
  | 0x0F01 => s.powerRefusal (uAt v 0 4)
  | 0x1101 => no (decide (sAt v 10 2 ≤ sAt v 12 2) || decide (sAt v 6 2 < sAt v 8 2)) stBadParam 0xA4
  | 0x1206 => no ([2, 16].any fun o => decide (uAt v o 2 < uAt v 4 2) || decide (uAt v 6 2 < uAt v o 2)) stBadParam 0xB0
  | 0x1303 => no (decide (uAt v 4 4 ≤ uAt v 8 4)) stBadParam 0xC2
  | 0x1307 => no (uAt v 4 1 != 0 && bit (uAt v 5 1) 3 && !(s.pch (n / 2)).valid) stRefused 0xC3
  | 0x1505 => no (!schedAscends v) stBadParam 0xD6
  | 0x1603 => no (decide (s.fw.lc = .field) || decide (s.fw.lc = .returned)) stRefused 0xD7
  | 0x1701 => no (uAt v 0 1 == 3 && !((faultSource n).any (·.block))) stBadParam 0xE5
  | _ => none

/-! ### Relations between values (R77 step 4) -/

/-- The last written value of a parameter as it would stand after the records of a request (R77). -/
def State.after (s : State) (l : List ParamRec) (id n : Nat) : Bytes :=
  match l.reverse.find? fun x => x.id == id && x.inst == n with
  | some x => x.v
  | none => s.pshadow id n

/-- The index of the last record that writes one of the values concerned. -/
def lastIndex (l : List ParamRec) (p : ParamRec → Bool) : Nat :=
  (l.zip (List.range l.length)).foldl (fun (b : Nat) x => if p x.1 then x.2 else b) 0

/-- The dead times of a string that leave an order untrue: those of DTW_MIN ≤ DT_INIT ≤ DTW_MAX, and those of DTW_MIN ≤ DT_FALLBACK ≤ DTW_MAX
(R290). -/
def State.dtBroken (s : State) (l : List ParamRec) (str : Nat) : List Nat :=
  let u := fun id => uAt (s.after l id str) 0 2
  let of := fun id => if inR (u id) (u 0x0902) (u 0x0903) then []
    else (if u id < u 0x0902 then [0x0902, id] else []) ++ (if u 0x0903 < u id then [id, 0x0903] else [])
  of 0x0904 ++ of 0x090E

/-- The thresholds that leave 0 < SHED_T1 < SHED_T2 < SHED_T3 ≤ 1,000 untrue (R88). -/
def State.shedBroken (s : State) (l : List ParamRec) : List Nat :=
  let u := fun id => uAt (s.after l id noInst) 0 2
  (if u 0x0202 = 0 then [0x0202] else []) ++ (if u 0x0203 ≤ u 0x0202 then [0x0202, 0x0203] else []) ++
    (if u 0x0204 ≤ u 0x0203 then [0x0203, 0x0204] else []) ++ (if 1000 < u 0x0204 then [0x0204] else [])

/-- The records, as parameter and instance, whose host signals collide with those a metered port publishes, its own among them: another
port's or an enabled zone's (R558, log 96). -/
def State.portClash (s : State) (l : List ParamRec) (n : Nat) : List (Nat × Nat) :=
  let v := s.after l 0x1501 n
  let sig := uAt v 2 1
  let mine := fun g => g == sig || g == sig + 1
  if uAt v 0 1 = 0 ∨ sig = 0xFF then []
  else
    let ports := (List.range 16).filter fun m =>
      let w := s.after l 0x1501 m
      m != n && uAt w 0 1 != 0 && uAt w 2 1 != 0xFF && (mine (uAt w 2 1) || mine (uAt w 2 1 + 1))
    let zones := (List.range 16).filter fun z =>
      let w := s.after l 0x1101 z
      bit (uAt w 15 1) 0 && uAt w 16 1 != 0xFF && mine (uAt w 16 1)
    if ports.isEmpty && zones.isEmpty then [] else (0x1501, n) :: (ports.map fun m => (0x1501, m)) ++ zones.map fun z => (0x1101, z)

/-- The records, as parameter and instance, of an enabled zone and of the metered ports that publish the host signal it names (R558, log 96). -/
def State.zoneClash (s : State) (l : List ParamRec) (z : Nat) : List (Nat × Nat) :=
  let v := s.after l 0x1101 z
  let sig := uAt v 16 1
  if bit (uAt v 15 1) 0 = false ∨ sig = 0xFF then []
  else
    let ports := (List.range 16).filter fun m =>
      let w := s.after l 0x1501 m
      uAt w 0 1 != 0 && uAt w 2 1 != 0xFF && (sig == uAt w 2 1 || sig == uAt w 2 1 + 1)
    if ports.isEmpty then [] else (0x1101, z) :: ports.map fun m => (0x1501, m)

/-- The relation that a record's parameter stands in, where the request leaves it untrue: the index of the last record concerned, and
the reason (R88, R290, R326, R361, R558). -/
def State.relation (s : State) (l : List ParamRec) (x : ParamRec) : Option (Nat × Nat) :=
  let u := fun id off w => uAt (s.after l id x.inst) off w
  let no := fun (which : List (Nat × Nat)) (reason : Nat) =>
    if which.isEmpty then none else some (lastIndex l fun y => which.contains (y.id, y.inst), reason)
  let here := fun (ids : List Nat) => ids.map fun id => (id, x.inst)
  let if_ := fun (b : Bool) (ids : List Nat) => if b then here ids else []
  match x.id with
  | 0x0202 => no (here (s.shedBroken l)) 0x05
  | 0x0203 => no (here (s.shedBroken l)) 0x05
  | 0x0204 => no (here (s.shedBroken l)) 0x05
  | 0x0902 => no (here (s.dtBroken l x.inst)) 0x50
  | 0x0903 => no (here (s.dtBroken l x.inst)) 0x50
  | 0x0904 => no (here (s.dtBroken l x.inst)) 0x50
  | 0x090E => no (here (s.dtBroken l x.inst)) 0x50
  | 0x0B02 => no (if_ (decide (u 0x0B02 0 4 ≤ u 0x0B03 0 4)) [0x0B02, 0x0B03]) 0x05
  | 0x0B03 => no (if_ (decide (u 0x0B02 0 4 ≤ u 0x0B03 0 4)) [0x0B02, 0x0B03]) 0x05
  | 0x0C0B =>
    no (if_ (bit (u 0x0C0B 0 1) 0 && ([0, 4, 8].any fun o => u 0x0C0C o 2 == 0xFFFF)) [0x0C0B, 0x0C0C]) 0x7A
  | 0x1101 => no (s.zoneClash l x.inst) 0xA5
  | 0x1501 => no (s.portClash l x.inst) 0xD3
  | _ => none

/-! ### What an accepted write sets off -/

/-- A write of RING_EN: the ring lanes train, or go OFF; the node's picture of the ring starts afresh (R410, R411, R416, R417, log 83). -/
def State.ringEnable (s : State) (on : Bool) : State :=
  let s1 := s.updRing fun r => { r with applied := {}, node := if on then r.node else {}, censusOwed := on }
  let s2 := if on then s1
    else s1.updFaults fun f => { f with present := f.present.filter fun p => !(p.src == 0x50 || p.src == 0x51 || p.src == 0x52) }
  ((s2.freshAttempt 128).freshAttempt 129).timeRefresh

/-- The host's gate word takes effect at once in DIRECT, unless a trip or a short holds the gates (R475, R490). -/
def State.directWrite (s : State) (b : Nat) : State :=
  let x := s.br b
  if s.aux.driving = true ∧ x.mode = 2 ∧ x.tripped = false ∧ x.short = false then s.auxDirect b (s.pu 0x1205 b 0 1) else s

/-- A port whose PTP role has been changed by a write listens afresh (R211, log 13). -/
def State.ptpRole (s : State) (n : Nat) (old new : Nat) : State :=
  if old = new then s else s.updSta fun t => t.mod {} n fun p => { p with listenAt := s.mono, foreign := [], servo := none, ptpWait := [] }

/-- What a write sets off beside the stored value (log 44, log 104). -/
def State.paramHook (s : State) (id n : Nat) (old v : Bytes) : State :=
  match id with
  | 0x0407 => s.modLane n fun l => { l with dfeAt := s.mono }
  | 0x040C => if n < 128 then s.coastRefresh n else s
  | 0x050E => s.updLinks fun l => { l with wptr := l.wptr.set n (l.wptr.get 0 n % max 16 (s.pu 0x050E n 8 4)) }
  | 0x040D => s.coastLanes (List.range 128)
  | 0x0504 => s.coastRefresh n
  | 0x0505 => s.coastRefresh n
  | 0x0506 => s.coastLanes (List.range 128)
  | 0x0507 => s.coastRefresh n
  | 0x060D => s.ppsSync
  | 0x060E => s.ppsSync
  | 0x0701 => s.updSta fun t => t.mod {} n fun p =>
      if old = v then p else { p with linkUp := false, foreign := [], servo := none, ptpWait := [] }
  | 0x0705 => s.ptpRole n (uAt old 0 1) (uAt v 0 1)
  | 0x0A06 => if uAt v 0 2 = 0 then s.spreadEnd n else s
  | 0x0B02 => s.updLe fun e => { e with next := s.boundaryFrom s.now }
  | 0x0B03 => s.updLe fun e => { e with next := s.boundaryFrom s.now }
  | 0x0C0B => s.rideEn (bit (uAt v 0 1) 0)
  | 0x0D02 => if bit (uAt old 0 1) 0 = bit (uAt v 0 1) 0 then s else (s.freshAttempt 130).freshAttempt 131
  | 0x0E01 => if old = v then s else s.ringEnable (uAt v 0 1 == 1)
  | 0x0F01 => s.bankPowerSet (uAt old 0 4) (uAt v 0 4)
  | 0x1205 => s.directWrite n
  | 0x1301 => if old = v then s else (s.modPch n fun x => x.restart s.mono).posInvalid n
  | 0x1307 => if uAt v 4 1 = 0 then s else s.cmpCheck (n / 2) fun u => u == n
  | 0x1501 => ((s.enConfig id n old v).enOff n).enAllLimits
  | 0x1505 => (s.enConfig id n old v).enAllLimits
  | 0x1506 => s.enAllLimits
  | 0x1603 => (s.updBat fun b => { b with failing := b.failing.set n 0 }).tampLog 0x22 false (leNat old)
  | _ => s

/-- Whether the block that owns a class H value runs (R13, R17): a lane outside OFF, DOWN and HALTED (R110), a slot that names a lane, a
port with its STA_MODE not 0 (R210), a string that is not STOPPED, the loop engine, the twin function outside NONE and MAINT (R395), the
ring with RING_EN = 1 (R417), a bridge with a mode in effect or a trip latched (R494), a channel with its MODE not OFF (R513), a metered
port with its KIND not 0 (R570, log 20). -/
def State.haltRuns (s : State) (r : ParamRow) (n : Nat) : Bool :=
  match r.id / 256 with
  | 0x04 => !(s.lane n).st.stopped
  | 0x05 => s.pu 0x050E n 0 2 != 0xFFFF
  | 0x07 => s.pu 0x0701 n 0 1 != 0
  | 0x08 => !s.strStopped n
  | 0x09 => !s.strStopped n
  | 0x0B => s.le.running
  | 0x0D => !(decide (s.twin.role = .none) || decide (s.twin.role = .maint))
  | 0x0E => s.ringEn
  | 0x12 => (s.br n).mode != 0 || (s.br n).tripped
  | 0x13 => s.pu 0x1301 n 0 1 != 0
  | 0x15 => s.pu 0x1501 n 0 1 != 0
  | _ => false

/-- Whether a class H value stops its own block: a slot with LANE 0xFFFF, a STA_MODE of 0, a MODE of OFF, a KIND of 0. The spec gives no other
way to stop these blocks, so such a write is taken as it stands (DEDUCED, log 20). -/
def haltStops (id : Nat) (v : Bytes) : Bool :=
  match id with
  | 0x050E => uAt v 0 2 == 0xFFFF
  | 0x0701 => uAt v 0 1 == 0
  | 0x1301 => uAt v 0 1 == 0
  | 0x1501 => uAt v 0 1 == 0
  | _ => false

/-- A class H value written while its block runs (R17, R78): the value written stands as the last written one; the value in effect is free
among those its parameter can hold, since R19 leaves the result undefined (log 20). -/
def State.setUndefined (s : State) (r : ParamRow) (n : Nat) (v : Bytes) : State :=
  let f := s.freeBytes r.size
  let e := if r.ok n f && r.rsvd f then f else v
  ((s.setParam r.id n v).updPar fun p => { p with eff := p.eff.set (pKey r.id n) e }).updFreeCount (· + r.size)

/-- Puts an accepted value in its place: the tables and settings that blocks hold, the shadow of an S value whose block runs, an H value
whose block runs (R17), or the value itself (R13, R14, R78, R80, log 20, log 53). -/
def State.storeRec (s : State) (r : ParamRow) (n : Nat) (v : Bytes) : State :=
  match r.id with
  | 0x0303 => s.updRoll fun t => { t with shadow := if allZero v then t.shadow.erase n else t.shadow.set n v }
  | 0x0409 => s.modLane n fun l => l.withTaps s.mono ((List.range 5).map fun k => sAt v k 1)
  | 0x0B05 => s.loopLoad 0 n 1 v
  | 0x0B06 => s.loopLoad 1 n 1 v
  | 0x1602 => s.updBat fun b => { b with cal := v }
  | 0x1603 => s.updBat fun b => { b with tampCfg := b.tampCfg.set n v }
  | _ =>
    if r.cls = .shadowed ∧ s.blockStopped r n = false then s.setShadow r.id n v
    else if r.cls = .halt ∧ s.haltRuns r n = true ∧ haltStops r.id v = false then s.setUndefined r n v
    else s.setParam r.id n v

/-- An accepted record takes its place, is saved where its page saves it, and has its effects (R78). -/
def State.applyRec (s : State) (r : ParamRow) (n : Nat) (v : Bytes) : State :=
  let old := s.rwValue r.id n 0
  let s1 := s.storeRec r n v
  (if r.saved then s1.saveParam r.id n v else s1).paramHook r.id n old v

/-- The records of an accepted request, in order. -/
def State.applyAll (s : State) (l : List ParamRec) : State :=
  l.foldl (fun s x =>
    match paramRow x.id with
    | some r => s.applyRec r x.inst x.v
    | none => s) s

end Sys2Proof.Machine
end

