-- ==== Sys2Proof/Machine/ParamCmds.lean ====
section
/-!
DEFINITION. The generic commands of page 0x02: HATCH_PING, PARAM_GET, PARAM_SET, PARAM_COMMIT, PARAM_DISCARD and PARAM_INFO
(R74 to R81).
-/

namespace Sys2Proof.Machine

/-- HATCH_PING (R75). -/
def execHatchPing (mb : Fin 8) (s : State) : Host.Outcome State Fault Refusal :=
  .next (s.withCmd mb 0x0210 false fun _ s =>
    s.replyOk mb (leBytes 1 s.twin.role.code ++ leBytes 1 s.notif.shed ++ leBytes 2 s.notif.mpLoad ++ leBytes 4 s.shortNow))

/-- The code of a class in CLASS (R75). -/
def ParamClass.code : ParamClass → Nat
  | .live => 0
  | .shadowed => 1
  | .halt => 2
  | .perField => 3

/-- The code of an access in ACCESS (R75). -/
def Access.code : Access → Nat
  | .ro => 0
  | .rw => 1
  | .wo => 2
  | .w1c => 3
  | .rc => 4

/-- The code of an instance kind (R75). -/
def InstKind.code : InstKind → Nat
  | .none => 0
  | .lane => 1
  | .string => 2
  | .loop => 3
  | .other => 4

/-- The row a read finds: the recovery hatch serves pages 0x01, 0x18 and 0x19 alone (R641, log 33). -/
def State.readRow (s : State) (id : Nat) : Option ParamRow :=
  if s.sys.stage = .recovery ∧ [0x01, 0x18, 0x19].contains (id / 256) = false then none else paramRow id

/-- PARAM_GET (R75, R76, R81, log 23). -/
def execParamGet (mb : Fin 8) (s : State) : Host.Outcome State Fault Refusal :=
  .next (s.withCmd mb 0x0211 false fun q s =>
    let id := uAt q.payload 0 2
    let n := uAt q.payload 2 2
    let sel := uAt q.payload 4 1
    match s.readRow id with
    | none => s.refuse mb stBadParam 0x01
    | some r =>
      if r.instOk n = false then s.refuse mb stBadParam 0x02
      else if uAt q.payload 5 3 ≠ 0 then s.refuse mb stBadParam 0x0D
      else if 1 < sel then s.refuse mb stBadParam 0x05
      else
        (s.paramRead r n).replyOk mb (leBytes 2 id ++ leBytes 2 n ++ leBytes 2 r.size ++ leBytes 1 r.cls.code ++ [0] ++ s.paramValue r n sel))

/-- Whether a page has its own commit command (R75, R80, R326, log 30). -/
def ownCommitPage (pg : Nat) : Bool := pg == 0x03 || pg == 0x0B

/-- BLOCK_RUNNING of a parameter without instances: whether its page's block runs now (R75, R395, R417, R629, log 30). -/
def State.pageRuns (s : State) (pg : Nat) : Bool :=
  match pg with
  | 0x0B => s.le.running
  | 0x0D => !(decide (s.twin.role = .none) || decide (s.twin.role = .maint))
  | 0x0E => s.ringEn
  | 0x10 => true
  | 0x11 => true
  | 0x19 => true
  | _ => false

/-- PARAM_INFO (R75, R81, log 23). -/
def execParamInfo (mb : Fin 8) (s : State) : Host.Outcome State Fault Refusal :=
  .next (s.withCmd mb 0x0215 false fun q s =>
    let id := uAt q.payload 0 2
    match s.readRow id with
    | none => s.refuse mb stBadParam 0x01
    | some r =>
      if uAt q.payload 2 2 ≠ 0 then s.refuse mb stBadParam 0x0D
      else
      let flags := flagNum [ownCommitPage (id / 256), r.lockable, decide (r.kind = .none) && s.pageRuns (id / 256)]
      s.replyOk mb (leBytes 2 id ++ leBytes 2 r.size ++ leBytes 1 r.acc.code ++ leBytes 1 r.cls.code ++ leBytes 1 r.kind.code ++ [0] ++
        leBytes 2 r.count ++ leBytes 2 flags ++ [0, 0, 0, 0]))

/-! ### PARAM_SET -/

/-- A record as it stands in a request, with its SIZE and RSVD fields (R76). -/
structure SetRec where
  /-- The record. -/
  rec_ : ParamRec
  /-- SIZE. -/
  size : Nat
  /-- The RSVD field. -/
  rsvd : Nat
deriving DecidableEq, Repr

/-- Lays out a number of records; none where they and the bytes disagree (R76, R77 step 2). -/
def layRecords : Nat → Bytes → Option (List SetRec)
  | 0, l => if l.isEmpty then some [] else none
  | n + 1, l =>
    let size := uAt l 4 2
    let len := 8 + ceilDiv size 4 * 4
    if l.length < len then none
    else (layRecords n (l.drop len)).map fun r =>
      { rec_ := { id := uAt l 0 2, inst := uAt l 2 2, v := slice l 8 size }, size, rsvd := uAt l 6 2 } :: r

/-- A record as the bytes of a request (R76). -/
def ParamRec.bytes (x : ParamRec) : Bytes :=
  leBytes 2 x.id ++ leBytes 2 x.inst ++ leBytes 2 x.v.length ++ [0, 0] ++ padTo x.v (ceilDiv x.v.length 4 * 4)

/-- Why a record cannot join a held set: HOLD on a value that cannot be held, another block or string, a full set (R79 to R81). -/
def State.holdReason (s : State) (r : ParamRow) (x : ParamRec) (held : List HeldRec) : Nat :=
  let block := fun (y : HeldRec) => (paramRow y.id).bind fun w => heldBlock w y.inst y.str
  let mine := heldBlock r x.inst (s.recString r x.inst)
  let size := (held.map fun y => y.value.length).foldl (· + ·) x.v.length
  if r.cls ≠ .shadowed ∨ ownCommitPage (x.id / 256) = true then 0x06
  else if mine.isNone ∨ (held.any fun y => block y != mine) = true then 0x07
  else if 64 < held.length + 1 ∨ 2048 < size then 0x08
  else 0

/-- The first check a record fails, with the records held before it where HOLD is set: status and reason (R77 step 3, R81). -/
def State.recFailure (s : State) (x : SetRec) (held : Option (List HeldRec)) : Option (Nat × Nat) :=
  match paramRow x.rec_.id with
  | none => some (stBadParam, 0x01)
  | some r =>
    let n := x.rec_.inst
    let v := x.rec_.v
    if r.instOk n = false then some (stBadParam, 0x02)
    else if x.size ≠ r.size then some (stBadParam, 0x03)
    else if r.acc = .ro ∨ r.acc = .rc then some (stBadParam, 0x04)
    else if x.rsvd ≠ 0 ∨ r.rsvd v = false then some (stBadParam, 0x0D)
    else if r.ok n v = false then some (stBadParam, 0x05)
    else
      match s.recCond r n v with
      | some f => some f
      | none =>
        if r.lockable = true ∧ s.fw.locked = true then some (stLocked, 0x09)
        else
          match held with
          | none => none
          | some h =>
            let k := s.holdReason r x.rec_ h
            if k = 0 then none else some (stBadParam, k)

/-- A record as a held set keeps it: with the string it belongs to now, if it is string-owned (R79, log 31). -/
def State.heldRec (s : State) (x : ParamRec) : HeldRec :=
  { id := x.id, inst := x.inst, value := x.v, str := (paramRow x.id).bind fun r => if r.owner = .string then s.recString r x.inst else none }

/-- The first failing record: its index, status and reason (R77). -/
def State.setFailure (s : State) (hold : Bool) : Nat → List HeldRec → List SetRec → Option (Nat × Nat × Nat)
  | _, _, [] => none
  | k, held, x :: r =>
    match s.recFailure x (if hold then some held else none) with
    | some f => some (k, f)
    | none => s.setFailure hold (k + 1) (held ++ [s.heldRec x.rec_]) r

/-- The status of a reason a relation gives (R81). -/
def State.relationFailure (s : State) (l : List ParamRec) : Option (Nat × Nat × Nat) :=
  (l.findSome? fun x => s.relation l x).map fun f => (f.1, stBadParam, f.2)

/-- The reply of PARAM_SET (R76). -/
def setReply (applied index reason : Nat) : Bytes := leBytes 2 applied ++ leBytes 2 index ++ leBytes 1 reason ++ [0, 0, 0]

/-- The held set of a mailbox (log 31). -/
def State.heldSet (s : State) (mb : Nat) : List ParamRec := (s.box mb).held.map fun h => { id := h.id, inst := h.inst, v := h.value }

/-- Adds records to a mailbox's held set (R78, R79, log 31). -/
def State.hold (s : State) (mb : Nat) (l : List ParamRec) : State :=
  s.modBox mb fun b => { b with held := b.held ++ l.map s.heldRec }

/-- Ends a write of records: the part that R72 forwards goes to the standby as a request of its own, the reply waiting for it; a write of
own-unit pages alone is answered at once (R72, R394, log 32). -/
def State.finishRecords (s : State) (mb : Nat) (q : Request) (l : List ParamRec) (payload : Bytes) : State :=
  let out := l.filter fun x => !ownUnitPage (x.id / 256)
  if out.isEmpty then s.replyOk mb payload
  else
    let p := leBytes 2 out.length ++ [0, 0] ++ out.flatMap ParamRec.bytes
    s.finishWrite mb { q with opcode := 0x0212, length := p.length, payload := p } payload

/-- Why a write of records that would be forwarded is refused now: BUSY during a switch, the twin link down, or a package on their pages
(R373, R387, R614). -/
def State.recordsBarred (s : State) (mb : Nat) (ids : List Nat) (payload : Bytes) (s' : State) : State :=
  if ids.all fun id => ownUnitPage (id / 256) then s'
  else if s.twin.handoverUntil.isSome then s.busy mb 20
  else if s.forwardBarred then s.reply mb stRefused payload
  else if ids.any fun id => s.pkgHolds mb (id / 256) then s.busy mb 1000
  else s'

/-- PARAM_SET (R76 to R81, log 23). -/
def execParamSet (mb : Fin 8) (s : State) : Host.Outcome State Fault Refusal :=
  (s.withCmd mb 0x0212 true fun q s =>
    let count := uAt q.payload 0 2
    let hold := bit (uAt q.payload 2 2) 0
    if inR count 1 32 = false then s.reply mb stBadParam (setReply 0 0xFFFF 0x0E)
    else
      match layRecords count (q.payload.drop 4) with
      | none => s.reply mb stBadLength (setReply 0 0xFFFF 0x0C)
      | some l =>
        let recs := l.map (·.rec_)
        if 1 < uAt q.payload 2 2 then s.reply mb stBadParam (setReply 0 0xFFFF 0x0D)
        else
        s.recordsBarred mb (recs.map (·.id)) (setReply 0 0xFFFF 0x80)
          (match s.setFailure hold 0 (s.box mb).held l with
          | some f => s.reply mb f.2.1 (setReply 0 f.1 f.2.2)
          | none =>
            match s.relationFailure recs with
            | some f => s.reply mb f.2.1 (setReply 0 f.1 f.2.2)
            | none =>
              if hold then (s.hold mb recs).replyOk mb (setReply count 0xFFFF 0)
              else (s.applyAll recs).finishRecords mb q recs (setReply count 0xFFFF 0))).done

/-! ### The held set -/

/-- The reply of PARAM_COMMIT (R76, log 25). -/
def commitReply (n reason by_ : Nat) : Bytes := leBytes 2 n ++ leBytes 1 reason ++ [0] ++ leBytes 4 (by_ % 2 ^ 32)

/-- The tick time at which a held set takes effect: at the boundary of the block and string it was checked for (R15, R76, R79, R80). -/
def State.heldBoundary (s : State) (l : List HeldRec) : Nat :=
  match l with
  | [] => s.now
  | x :: _ =>
    match paramRow x.id with
    | some r =>
      match x.str with
      | some k => if s.strStopped k then s.now else (s.str k).next
      | none => s.recBoundary r x.inst
    | none => s.now

/-- PARAM_COMMIT (R76, R79, R80). ADOPT_BY of a refusal is a free value (log 2, log 23). -/
def execParamCommit (mb : Fin 8) (s : State) : Host.Outcome State Fault Refusal :=
  (s.withCmd mb 0x0213 true fun q s0 =>
    let f := s0.freeVal
    let s := s0.tookFree
    let l := s.heldSet mb
    let expect := uAt q.payload 0 2
    s.recordsBarred mb (l.map (·.id)) (commitReply 0 0x80 f)
      (if l.isEmpty then s.reply mb stBadParam (commitReply 0 0x0A f)
      else if uAt q.payload 2 2 ≠ 0 then s.reply mb stBadParam (commitReply 0 0x0D f)
      else if expect ≠ 0 ∧ expect ≠ l.length then s.reply mb stRefused (commitReply 0 0x0B f)
      else
        ((s.modBox mb fun b => { b with held := [] }).applyAll l).finishRecords mb q l (commitReply l.length 0 (s.heldBoundary (s.box mb).held)))).done

/-- PARAM_DISCARD (R76). -/
def execParamDiscard (mb : Fin 8) (s : State) : Host.Outcome State Fault Refusal :=
  .next (s.withCmd mb 0x0214 true fun _ s =>
    (s.modBox mb fun b => { b with held := [] }).replyOk mb (leBytes 2 (s.heldSet mb).length))

end Sys2Proof.Machine
end

