-- ==== Sys2Proof/Machine/RollCmds.lean ====
section
/-!
DEFINITION. The meanings of the roll's commands (R34 to R41).
-/

namespace Sys2Proof.Machine

/-- Copies entries into the shadow roll (R37). -/
def State.loadRoll (s : State) (first n : Nat) (data : Bytes) : State :=
  (List.range n).foldl (fun s i =>
    let e := slice data (128 * i) 128
    s.updRoll fun r => { r with shadow := if allZero e then r.shadow.erase (first + i) else r.shadow.set (first + i) e }) s

/-- ROLL_LOAD (R37). -/
def execRollLoad (mb : Fin 8) (s : State) : Host.Outcome State Fault Refusal :=
  (s.withWrite mb 0x0310 fun q s =>
    let off := uAt q.payload 0 4
    let first := uAt q.payload 4 1
    let n := uAt q.payload 5 1
    if off % 128 ≠ 0 ∨ spanOk off (128 * n) = false ∨ 127 < first ∨ inR n 1 128 = false ∨ 128 < first + n then
      s.refuse mb stBadParam 0x05
    else
      let d := s.mpRead off (128 * n)
      ((s.mpTook off (128 * n)).loadRoll first n d).finishWrite mb q (leBytes 1 n) d).done

/-- The reply of ROLL_COMMIT (R37, log 25). -/
def rollReply (gen lane reason by_ : Nat) : Bytes := leBytes 4 gen ++ leBytes 1 lane ++ leBytes 1 reason ++ [0, 0] ++ leBytes 4 (by_ % 2 ^ 32)

/-- The bytes a pending set is forwarded as: the tick time it is due from, then each entry behind its lane (R40, log 16). -/
def rollSetBytes (set : Tab Bytes) (since : Nat) : Bytes := leBytes 8 since ++ (set.cells.map fun c => leBytes 1 c.1 ++ c.2).flatten

/-- The set that forwarded bytes hold (R40, log 16). -/
def rollSetOf (d : Bytes) : Tab Bytes :=
  (List.range ((d.length - 8) / 129)).foldl (fun t k => t.set (uAt d (8 + 129 * k) 1) (slice d (9 + 129 * k) 128)) {}

/-- ROLL_COMMIT on a set that is due from a tick time (R34 to R41). ADOPT_BY of a refusal is a free value (log 2). -/
def State.rollRun (s : State) (mb : Nat) (q : Request) (set : Tab Bytes) (since : Nat) : State :=
  let expect := uAt q.payload 0 4
  if s.roll.pend.isSome then s.busy mb s.rollRetry
  else if expect ≠ 0xFFFFFFFF ∧ expect ≠ s.roll.gen then
    s.tookFree.reply mb stRefused (rollReply s.roll.gen 0xFF 0x0D s.freeVal)
  else
    match s.setReason set with
    | some f => s.tookFree.reply mb (if f.2 = 0x0C then stRefused else stBadParam) (rollReply s.roll.gen f.1 f.2 s.freeVal)
    | none =>
      let s1 := s.commitRoll set since
      s1.finishWrite mb q (rollReply s1.roll.gen 0xFF 0 s1.adoptBy) (rollSetBytes set since)

/-- ROLL_COMMIT (R34 to R41): the shadow roll is the set. -/
def execRollCommit (mb : Fin 8) (s : State) : Host.Outcome State Fault Refusal :=
  (s.withWrite mb 0x0311 fun q s => s.rollRun mb q s.roll.shadow s.adoptSince).done

/-- ROLL_READ (R37). -/
def execRollRead (mb : Fin 8) (s : State) : Host.Outcome State Fault Refusal :=
  .next (s.withCmd mb 0x0312 false fun q s =>
    let lane := uAt q.payload 0 1
    let sel := uAt q.payload 1 1
    if 127 < lane ∨ 1 < sel then s.refuse mb stBadParam 0x05
    else s.replyOk mb ((if sel = 0 then entryOf s.roll.shadow lane else s.entry lane) ++ leBytes 4 s.roll.gen))

end Sys2Proof.Machine
end

