-- ==== Sys2Proof/Machine/Package.lean ====
section
/-!
DEFINITION. The meaning of PKG_APPLY: configuration packages and link keys (R612 to R615).
-/

namespace Sys2Proof.Machine

/-! ### Records (R613) -/

/-- A record of a package. -/
structure PkgRec where
  /-- TYPE. -/
  type : Nat
  /-- INSTANCE. -/
  inst : Nat
  /-- DATA. -/
  data : Bytes
deriving DecidableEq, Repr

/-- The records of a package body, and whether the body is whole; the fuel is the body's length (R613). -/
def pkgRecords : Nat → Bytes → List PkgRec × Bool
  | 0, l => ([], l.isEmpty)
  | f + 1, l =>
    if l.isEmpty then ([], true)
    else
      let n := uAt l 4 4
      if l.length < 8 + ceilDiv n 4 * 4 then ([], false)
      else
        let r := pkgRecords f (l.drop (8 + ceilDiv n 4 * 4))
        ({ type := uAt l 0 2, inst := uAt l 2 2, data := slice l 8 n } :: r.1, r.2)

/-- The PARAM_SET records in a PARAM record's data; none where they do not fill it; the fuel is its length (R613). -/
def paramRecords : Nat → Bytes → Option (List SetRec)
  | 0, l => if l.isEmpty then some [] else none
  | f + 1, l =>
    if l.isEmpty then some []
    else
      let size := uAt l 4 2
      let len := 8 + ceilDiv size 4 * 4
      if l.length < len then none
      else (paramRecords f (l.drop len)).map fun r =>
        { rec_ := { id := uAt l 0 2, inst := uAt l 2 2, v := slice l 8 size }, size, rsvd := uAt l 6 2 } :: r

/-- The PARAM_SET records of a record of type PARAM. -/
def PkgRec.params (x : PkgRec) : List SetRec := if x.type = 1 then (paramRecords x.data.length x.data).getD [] else []

/-- The unit size of a table record and the number of entries of its table: roll, descriptors, coefficient sets, larder (R613). -/
def pkgTable (type : Nat) : Option (Nat × Nat) :=
  match type with
  | 2 => some (128, 128)
  | 3 => some (48, 512)
  | 4 => some (32, 512)
  | 5 => some (2, 16384)
  | _ => none

/-- Whether a record is laid out for its type and within its table, and its PARAM records pass their pages' checks (R81, R613, R614). -/
def State.pkgRecOk (s : State) (x : PkgRec) : Bool :=
  if x.type = 1 then
    x.inst == 0 && (match paramRecords x.data.length x.data with
      | some l => l.all fun y => (s.recFailure y none).isNone
      | none => false)
  else
    match pkgTable x.type with
    | some t => x.data.length % t.1 == 0 && decide (x.inst + x.data.length / t.1 ≤ t.2)
    | none => false

/-! ### The tables as they would stand (R614) -/

/-- The PARAM records of a package, in order. -/
def pkgParams (l : List PkgRec) : List ParamRec := (l.flatMap PkgRec.params).map (·.rec_)

/-- Puts the records of a table type into their tables. -/
def State.pkgTables (s : State) (l : List PkgRec) (type : Nat) : State :=
  (l.filter fun x => x.type == type).foldl (fun s x =>
    match type with
    | 2 => s.loadRoll x.inst (x.data.length / 128) x.data
    | 3 => s.loopLoad 0 x.inst (x.data.length / 48) x.data
    | 4 => s.loopLoad 1 x.inst (x.data.length / 32) x.data
    | _ => s.larderPut x.inst (x.data.length / 2) x.data) s

/-- Whether a package holds a record of one of some types. -/
def pkgHas (l : List PkgRec) (types : List Nat) : Bool := l.any fun x => types.contains x.type

/-- The index of the last record of some types that passes a test, or the last of those types. -/
def pkgIndex (l : List PkgRec) (types : List Nat) (p : PkgRec → Bool) : Nat :=
  let z := (l.zip (List.range l.length)).filter fun x => types.contains x.1.type
  match (z.filter fun x => p x.1).getLast?, z.getLast? with
  | some x, _ => x.2
  | none, some x => x.2
  | none, none => 0

/-- The first record of a package that fails its page's checks (R614, log 101). -/
def State.pkgFailure (s : State) (l : List PkgRec) (whole : Bool) : Option Nat :=
  let ps := pkgParams l
  match l.findIdx? fun x => !s.pkgRecOk x with
  | some k => some k
  | none =>
    if !whole then some l.length
    else
      match ps.findSome? fun x => s.relation ps x with
      | some f => some (pkgIndex l [1] fun x => x.params.any fun y => some y.rec_ == ps[f.1]?)
      | none =>
        let roll := ((l.flatMap PkgRec.params).filter fun y => y.rec_.id == 0x0303).foldl (fun s y => s.loadRoll y.rec_.inst 1 y.rec_.v) s
        match if pkgHas l [2] then (roll.pkgTables l 2).setReason (roll.pkgTables l 2).roll.shadow else none with
        | some f => some (pkgIndex l [2] fun x => decide (x.inst ≤ f.1) && decide (f.1 < x.inst + x.data.length / 128))
        | none =>
          let loops := ((applyTables s ps).pkgTables l 3).pkgTables l 4
          match if pkgHas l [3, 4] then loops.loopFailure loops.le.shadow else none with
          | some f => some (pkgIndex l [3, 4] fun x => x.type == 3 && decide (x.inst ≤ f.2.1) && decide (f.2.1 < x.inst + x.data.length / 48))
          | none => none
where
  /-- The loop tables' own PARAM records. -/
  applyTables (s : State) (ps : List ParamRec) : State :=
    ps.foldl (fun s y =>
      if y.id = 0x0B05 then s.loopLoad 0 y.inst 1 y.v else if y.id = 0x0B06 then s.loopLoad 1 y.inst 1 y.v else s) s

/-- Applies a checked package: parameters, the larder, the roll and its commit, the loop tables and their commit, due from a tick time
(R40, R325, R614). -/
def State.pkgWrite (s : State) (l : List PkgRec) (since : Nat) : State :=
  let s1 := (s.applyAll (pkgParams l)).pkgTables l 5
  let s2 := if pkgHas l [2] then (s1.pkgTables l 2).commitRoll (s1.pkgTables l 2).roll.shadow since else s1
  if pkgHas l [3, 4] then ((s2.pkgTables l 3).pkgTables l 4).loopCommit since else s2

/-- The pages a package's records write. -/
def pkgPages (l : List PkgRec) : List Nat :=
  (pkgParams l).map (·.id / 256) ++ (if pkgHas l [2] then [0x03] else []) ++ (if pkgHas l [3, 4, 5] then [0x0B] else [])

/-! ### The command -/

/-- The reply of PKG_APPLY (R614). -/
def State.pkgReply (s : State) (index reason : Nat) : Bytes :=
  leBytes 2 index ++ leBytes 1 reason ++ [0] ++ leBytes 4 s.roll.gen ++ leBytes 4 s.le.gen

/-- The outcome in the attic: the item's KIND, the status and the reason (R619, log 101). -/
def State.pkgLog (s : State) (kind status reason : Nat) : State := s.attic 8 0 0x1815 (leBytes 1 kind ++ leBytes 1 status ++ leBytes 1 reason)

/-- A refusal, noted in the attic. -/
def State.pkgRefuse (s : State) (mb kind status reason : Nat) (index : Nat := 0xFFFF) : State :=
  (s.pkgLog kind status reason).reply mb status (s.pkgReply index reason)

/-- Whether the plant's load bars a package: a string runs, and the metered ports have exceeded 5% within the latest second, or none is
enabled (R612). -/
def State.pkgLoad (s : State) : Bool :=
  let ports := (List.range 16).filter fun n => s.enKind n != 0
  ((List.range 16).any fun str => decide ((s.str str).st = .running)) &&
    (ports.isEmpty || ports.any fun n =>
      match (s.enPort n).heavyAt with
      | some t => !s.elapsed t (ms 1000)
      | none => false)

/-- Whether the control supply bars a package (R612). -/
def State.pkgSupply (s : State) : Bool :=
  let i := s.pu 0x1804 noInst 0 1
  i != 0xFF && (!(s.hkVal i).valid || decide ((s.hkVal i).value < s.ps 0x1804 noInst 2 2))

/-- The link keys a KEYS body unwraps to; none where one fails (R615). -/
def State.unwrapKeys (s : State) (pub : Bytes) : Nat → Bytes → Option (List (Nat × Bytes))
  | 0, _ => some []
  | n + 1, l =>
    match s.fw.kaKey.bind fun k => keyUnwrap k pub (slice l 8 24), s.unwrapKeys pub n (l.drop 32) with
    | some key, some r => some ((uAt l 0 8, key) :: r)
    | _, _ => none

/-- Keys replace earlier keys of the same endpoints. -/
def keysPut (old new : List (Nat × Bytes)) : List (Nat × Bytes) :=
  new.foldl (fun l x => x :: l.filter fun y => y.1 != x.1) old

/-- Installs accepted keys: stored, loaded into the strongbox, and the unit's own keys vouched for (R615). -/
def State.installKeys (s : State) (keys : List (Nat × Bytes)) : State :=
  ((s.updFw fun f => { f with linkKeys := keysPut f.linkKeys keys, keyState := .ready }).updPantry fun p =>
    { p with linkKeys := if p.wiping.isSome then p.linkKeys else keysPut p.linkKeys keys }).pkgLog 4 0 0

/-- A KEYS item whose header is sound, for this unit (R615). -/
def State.keysApply (s : State) (mb : Nat) (d : Bytes) : State :=
  let rd : ItemBytes := fun off n => slice d off n
  let n := itemBodyLen rd / 32
  match s.unwrapKeys (rd 64 64) n (d.drop 192) with
  | none => s.pkgRefuse mb 4 stBadParam 0xFC
  | some keys => let s1 := s.installKeys keys; s1.replyOk mb (s1.pkgReply 0xFFFF 0)

/-- A PACKAGE item whose header is sound (R612 to R614). -/
def State.packageApply (s : State) (mb : Nat) (q : Request) (d : Bytes) (since : Nat) : State :=
  let rd : ItemBytes := fun off n => slice d off n
  let body := rd 192 (itemBodyLen rd)
  let l := pkgRecords body.length body
  if s.pkgLoad then s.pkgRefuse mb 3 stRefused 0xF5
  else if s.pkgSupply then s.pkgRefuse mb 3 stRefused 0xF6
  else if s.fw.locked then s.pkgRefuse mb 3 stLocked 0x09
  else
    match s.pkgFailure l.1 l.2 with
    | some k => s.pkgRefuse mb 3 stBadParam 0xFB k
    | none =>
      let s1 := ((s.pkgWrite l.1 since).updFw fun f => { f with pkg := some (mb, pkgPages l.1) }).pkgLog 3 0 0
      s1.finishWrite mb q (s1.pkgReply 0xFFFF 0) (d ++ leBytes 8 since)

/-- PKG_APPLY on the bytes of its item, its commits due from a tick time (R602, R612 to R615, R617, log 101). -/
def State.pkgApply (s : State) (mb : Nat) (q : Request) (d : Bytes) (since : Nat) : State :=
  let rd : ItemBytes := fun off n => slice d off n
  let unit := uAt q.payload 0 1
  let kind := itemKind rd
  let fwd := kind == 3 || unit == 1
  if fwd && s.twin.handoverUntil.isSome then s.busy mb 20
  else if fwd && s.forwardBarred then s.reply mb stRefused (s.pkgReply 0xFFFF 0x80)
  else if s.roll.pend.isSome then s.busy mb s.rollRetry
  else if s.le.pend.isSome then s.busy mb (ceilDiv (s.p0 0x0B02) 8000)
  else
    match s.itemFault rd [3, 4] d.length with
    | some f => s.pkgRefuse mb kind f.1 f.2
    | none =>
      if s.fw.lc = .factory ∨ s.fw.lc = .returned then s.pkgRefuse mb kind stRefused 0xF7
      else if (kind = 3 ∧ 131072 < itemBodyLen rd) ∨ (kind = 4 ∧ itemBodyLen rd % 32 ≠ 0) then s.pkgRefuse mb kind stBadParam 0xF0
      else if kind = 3 then (if unit = 0 then s.packageApply mb q d since else s.reply mb stBadParam (s.pkgReply 0xFFFF 0x05))
      else if unit = 0 then s.keysApply mb d
      else if s.hasStandby = false then s.reply mb stBadParam (s.pkgReply 0xFFFF 0x22)
      else s.finishWrite mb q (s.pkgReply 0xFFFF 0) d

/-- PKG_APPLY (R614). -/
def execPkgApply (mb : Fin 8) (s : State) : Host.Outcome State Fault Refusal :=
  (s.withCmd mb 0x1815 true fun q s =>
    let off := uAt q.payload 4 4
    let n := uAt q.payload 8 4
    if 1 < uAt q.payload 0 1 ∨ spanOk off n = false then s.reply mb stBadParam (s.pkgReply 0xFFFF 0x05)
    else (s.mpTook off n).pkgApply mb q (s.mpRead off n) s.adoptSince).done

end Sys2Proof.Machine
end

