-- ==== Sys2Proof/Machine/Pantry.lean ====
section
/-!
DEFINITION. The meanings of the rows of the pantry and the strongbox (chapter 12).
-/

namespace Sys2Proof.Machine

/-- A host read of a word of BAR2 (R51, R424 to R430, R433 to R435). -/
def State.hostPantryRead (s0 : State) (off : Nat) (mgmt : MgmtAccess) (ring : Option PortWrite) : State :=
  if s0.hostDenied off then s0.sbDenied.hostReads 0
  else
    let w := s0.hostWords off
    let a := s0.wordRead (w.1.headD 0) ring (mgmtWrite mgmt)
    let b := match w.1.drop 1 with
      | [] => (a.1, 0)
      | x :: _ => a.1.wordRead x none none
    b.1.hostReads ((b.2 * 2 ^ 32 + a.2) / 2 ^ (8 * w.2) % 2 ^ 32)

/-- PANTRY_HOST_READ (R48, R51, R424 to R430, R433 to R435): the word the host reads, beside a management and a ring write to the access's
first word in the same cycle. -/
def execPantryHostRead (addr : BitVec 24) (mgmt : MgmtAccess) (ring : Option PortWrite) (s : State) (p : HostPort := .pcie) :
    Host.Outcome State Fault Refusal :=
  if s.portUp p then
    match hostTarget p false true addr.toNat with
    | .bar2 off => (s.newTransaction.hostPantryRead off mgmt ring).done
    | .nowhere => .next (s.newTransaction.hostReads 0)
    | .bar0 _ => .next s
    | .inert => .next s
  else .next s

/-- The pantry area a load command reads: offset and length (R37, R228, R327, R329, R605, R610, R614, log 35). -/
def loadArea (q : Request) : Nat × Nat :=
  let u := uAt q.payload
  match q.opcode with
  | 0x0310 => (u 0 4, 128 * u 5 1)
  | 0x0710 => (u 8 4, u 12 2)
  | 0x0B10 => (u 0 4, (if u 4 1 = 0 then 48 else 32) * u 8 2)
  | 0x0B12 => (u 0 4, 2 * u 6 2)
  | 0x1810 => (u 4 4, u 12 4)
  | 0x1813 => (u 4 4, u 8 4)
  | 0x1815 => (u 4 4, u 8 4)
  | _ => (0, 0)

/-- The source area of the load command that waits or runs in a mailbox, between its doorbell and DONE (R440, log 35). -/
def State.boxArea (s : State) (k : Nat) : Nat × Nat :=
  match (s.box k).state with
  | .pending => loadArea (requestOf (s.box k).request)
  | .active => match (s.box k).taken with
    | some q => loadArea q
    | none => (0, 0)
  | _ => (0, 0)

/-- Whether what a host write leaves in a word is undefined: the word lies in the notification ring while it is on, in the area of an active
stream slot, or in the source area of a load command between doorbell and DONE (R440, log 35). -/
def State.openWord (s : State) (a : Nat) : Bool :=
  let within := fun (x : Nat × Nat) => decide (x.1 < a + 4) && decide (a < x.1 + x.2)
  (s.notif.enable && within (s.notif.base * 8192, 8192)) ||
    ((List.range 4).any fun k => s.pu 0x050E k 0 2 != 0xFFFF && within (s.pu 0x050E k 4 4, s.pu 0x050E k 8 4)) ||
    ((List.range 8).any fun k => within (s.boxArea k))

/-- A host write of the bytes enabled in a word of BAR2; where R440 leaves the result undefined the value written is a free one (R51, R415,
R424 to R430, R433 to R435, R440, log 35). -/
def State.hostPantryWrite (s0 : State) (off v be : Nat) (mgmt : MgmtAccess) (ring : Option PortWrite) : State :=
  if s0.hostDenied off then s0.sbDenied
  else
    let w := s0.hostWords off
    let open_ := w.1.any s0.openWord
    let d := (if open_ then s0.freeVal % 2 ^ 32 else v) * 2 ^ (8 * w.2)
    let e := be * 2 ^ w.2
    let part := fun (k : Nat) =>
      ({ data := BitVec.ofNat 32 (d / 2 ^ (32 * k)), be := BitVec.ofNat 4 (e / 16 ^ k) } : PortWrite)
    let first := w.1.headD 0
    let s1 := ((if open_ then s0.tookFree else s0).wordWrites first ring (mgmtWrite mgmt) (some (part 0))).mgmtMet mgmt 2 first
    match w.1.drop 1 with
    | [] => s1
    | x :: _ => if (part 1).be = 0 then s1 else s1.wordWrites x none none (some (part 1))

/-- PANTRY_HOST_WRITE (R48, R51, R415, R424 to R430, R433 to R435, R440): the bytes the host enables are written, beside a management and a
ring write to the access's first word in the same cycle; a QSPI write has no byte enables (R48). -/
def execPantryHostWrite (addr : BitVec 24) (v : BitVec 32) (be : BitVec 4) (mgmt : MgmtAccess) (ring : Option PortWrite) (s : State)
    (p : HostPort := .pcie) :
    Host.Outcome State Fault Refusal :=
  if s.portUp p then
    match hostTarget p true true addr.toNat with
    | .bar2 off => (s.hostWrote.newTransaction.hostPantryWrite off v.toNat (if p = .pcie then be.toNat else 15) mgmt ring).done
    | .nowhere => .next s.hostWrote.newTransaction
    | .bar0 _ => .next s
    | .inert => .next s
  else .next s

/-- BANK_IDLE_TIMEOUT (R430): a woken bank without an access for 10 µs returns to Retention. -/
def execBankIdleTimeout (bank : Fin 16) (s : State) : Host.Outcome State Fault Refusal :=
  match s.pantry.awake.get? bank with
  | some t =>
    if s.elapsed t (us 10) = true then .next (s.updPantry fun p => { p with awake := p.awake.erase bank }) else .next s
  | none => .next s

/-- BANK_CLEAR_DONE (R431). -/
def execBankClearDone (bank : Fin 16) (s : State) : Host.Outcome State Fault Refusal :=
  match s.pantry.clearing.get? bank with
  | some t =>
    if t ≤ s.mono then .next (s.updPantry fun p => { p with clearing := p.clearing.erase bank }) else .next s
  | none => .next s

/-- TAMPER_CORE_EVENT (R436, R437): a tamper event reaches the core, which wipes the strongbox. -/
def execTamperCoreEvent (s : State) : Host.Outcome State Fault Refusal :=
  .next ((s.wipe 2).updBat fun b => { b with signals := b.signals - 1 })

/-- STRONGBOX_WIPE_DONE (R437); after a life-cycle transition other than one into RETURNED the link keys are reloaded (R618, log 84). -/
def execStrongboxWipeDone (s : State) : Host.Outcome State Fault Refusal :=
  match s.pantry.wiping with
  | some (c, t) =>
    if s.sys.stage ≠ .inReset ∧ s.elapsed t 655360 = true then
      let keys := if c = 3 ∧ s.fw.lc ≠ .returned then s.fw.linkKeys else s.pantry.linkKeys
      ((s.updPantry fun p => { p with linkKeys := keys, wiping := none, wipes := satN 16 (p.wipes + 1), wipeDoneAt := s.shortNow }).note 0x0A 0x0F03
        (leBytes 1 c)).done
    else .next s
  | none => .next s

end Sys2Proof.Machine
end

