-- ==== Sys2Proof/Machine/Pos.lean ====
section
/-!
DEFINITION. The meanings of the rows of the position channels (chapter 15).
-/

namespace Sys2Proof.Machine

/-- POS_EDGE (R499, R501, R502, R504, R505, R509): the accepted levels of A and B, once the filter gives them. -/
def execPosEdge (ch : Fin 4) (a b : Bool) (s : State) : Host.Outcome State Fault Refusal :=
  let x := s.pch ch
  if s.posLevel ch 0 ≠ a ∨ s.posLevel ch 1 ≠ b then .next s
  else if s.posMode ch = 1 then (s.posQuad ch a b).done
  else
    let s1 := s.modPch ch fun y => { y with a, b }
    if s.posMode ch = 2 ∧ a = true ∧ x.a = false ∧ (x.ln 0).wire = false then (s1.posTooth ch).done else .next s1

/-- POS_INDEX (R500, R503): an accepted rising edge of Z. -/
def execPosIndex (ch : Fin 4) (s : State) : Host.Outcome State Fault Refusal :=
  let x := s.pch ch
  if x.z = true ∨ s.posLevel ch 2 = false then .next s
  else
    let s1 := s.modPch ch fun y => { y with z := true }
    if s.posMode ch = 1 ∧ s.posFlag ch 1 = true ∧ (x.ln 2).wire = false ∧ (s.pu 0x1301 ch 5 1 = 0 ∨ (x.a = true ∧ x.b = true)) then
      ((s1.bump 0x1309 ch 3).posRef ch true).done
    else .next s1

/-- POS_PIN_EDGE (R498 to R500, log 91): the single-ended receivers of a line change; a level the filter had accepted before stands. -/
def execPosPinEdge (ch : Fin 4) (line : Fin 3) (plus minus : Bool) (s : State) : Host.Outcome State Fault Refusal :=
  .next (s.modPch ch fun x => { x with
    z := if line.val = 2 ∧ s.posLevel ch 2 = false then false else x.z,
    line := x.line.mod {} line fun l =>
      let lv := if plus = minus then l.lv else plus
      { l with plus, minus, since := if (l.plus == l.minus) = (plus == minus) then l.since else s.mono,
               lv, lvAt := if lv = l.lv then l.lvAt else s.mono } })

/-- POS_WIRE_FILTER_EXPIRE (R500, R511): a pair disagrees, or agrees again, for WIRE_FILT steps. -/
def execPosWireFilterExpire (ch : Fin 4) (pair : Fin 3) (s : State) : Host.Outcome State Fault Refusal :=
  let l := (s.pch ch).ln pair
  let same := l.plus == l.minus
  let checked := s.posMode ch = 1 ∨ (s.posMode ch = 2 ∧ pair.val = 0)
  let set := fun (s : State) (v : Bool) =>
    s.modPch ch fun x => { x with line := x.line.mod {} pair fun l => { l with wire := v } }
  if s.elapsed l.since (stp (s.pu 0x1301 ch 2 2)) = false then .next s
  else if same = true ∧ l.wire = false ∧ checked then
    ((((set s true).bump 0x1309 ch 1).posInvalid ch).condOn 0x70 ch pair (leBytes 1 pair)).done
  else if same = false ∧ l.wire = true then ((set s false).condOff 0x70 ch pair).done
  else .next s

/-- POS_SPEED_WINDOW (R507, R508): the end of a window of SPEED_WIN ticks from tick time 0. -/
def execPosSpeedWindow (ch : Fin 4) (s : State) : Host.Outcome State Fault Refusal :=
  let n := s.now / max 1 (s.pu 0x1303 ch 0 4)
  if n = (s.pch ch).window then .next s else .next (s.posWindow ch n)

/-- POS_ZERO_TIMEOUT (R504, R507): no count change for ZERO_TIME. -/
def execPosZeroTimeout (ch : Fin 4) (s : State) : Host.Outcome State Fault Refusal :=
  let x := s.pch ch
  if s.elapsed x.changeAt (ms (s.pu 0x1303 ch 12 2)) = true ∧ x.zero = false then
    .next (s.modPch ch fun y =>
      { y with speed := 0, zero := true, changes := [], toothAt := none, prevP := none, extraP := none, toothP := none })
  else .next s

/-- POS_CMP_PULSE_END (R511). -/
def execPosCmpPulseEnd (u : Fin 8) (s : State) : Host.Outcome State Fault Refusal :=
  match (s.pos.cmp.get {} u).pulse with
  | some t =>
    if t ≤ s.mono then .next (s.updPos fun p => { p with cmp := p.cmp.mod {} u fun x => { x with pulse := none } }) else .next s
  | none => .next s

/-- POS_SET (R506, R510, R514, log 91). -/
def execPosSet (mb : Fin 8) (s : State) : Host.Outcome State Fault Refusal :=
  (s.withWrite mb 0x1310 fun q s =>
    let c := uAt q.payload 0 1
    let w := uAt q.payload 1 1
    let v := uAt q.payload 4 4
    if 3 < c ∨ 1 < w then s.refuse mb stBadParam 0x05
    else if s.posMode c = 0 then s.refuse mb stRefused 0xC0
    else if w = 1 ∧ s.posMode c = 1 ∧ s.posFlag c 1 = false then s.refuse mb stRefused 0xC1
    else if w = 0 ∧ (s.pch c).anyWire = true then s.refuse mb stRefused 0xC4
    else if w = 1 then (s.modPch c fun x => { x with pending := some v }).finishWrite mb q (leBytes 4 0)
    else ((s.modPch c fun x => { x with pending := none }).posJump c v true).finishWrite mb q (leBytes 4 s.shortNow)).done

end Sys2Proof.Machine
end

