-- ==== Sys2Proof/Machine/Protection.lean ====
section
/-!
DEFINITION. The meanings of the rows of string protection, bypass and riding through (chapter 09).
-/

namespace Sys2Proof.Machine

/-- PROT_SOURCE_STALE (R334, R335): BLIND trips a RUNNING string whose named source is stale. -/
def execProtSourceStale (str : Fin 16) (s : State) : Host.Outcome State Fault Refusal :=
  if (s.str str).st = .running ∧ s.sourceStale str = true then (s.trip str 6 0xFFFF).done else .next s

/-- UV_ARM_EXPIRE (R335): UV_ARM after O_0 has passed in a RUNNING string. -/
def execUvArmExpire (str : Fin 16) (s : State) : Host.Outcome State Fault Refusal :=
  if (s.str str).st = .running ∧ (s.str str).o0 + s.pu 0x0C06 str 4 4 ≤ s.now then
    .next (s.modPrt str fun p => { p with uvArmed := true })
  else .next s

/-- A refusal in the layout of a command whose one field has no value there: the field is a free value (R68, R362, log 2, log 25). -/
def State.refuse4 (s : State) (mb status : Nat) : State := s.tookFree.reply mb status (leBytes 4 s.freeVal)

/-- STRING_TRIP (R341, R362). -/
def execStringTrip (mb : Fin 8) (s : State) : Host.Outcome State Fault Refusal :=
  (s.withWrite mb 0x0C20 fun q s =>
    let str := uAt q.payload 0 1
    if 15 < str then s.refuse4 mb stBadParam
    else (s.trip str 12 0xFFFF).finishWrite mb q (leBytes 4 s.shortNow)).done

/-- The reply of a bypass that is timed already, or marks the mailbox as waiting for the boundary (R362, log 25). -/
def State.bypassReply (s : State) (mb : Nat) (q : Request) (lane : Nat) : State :=
  match (s.byp lane).enterAt with
  | some t => s.finishWrite mb q (leBytes 4 (t % 2 ^ 32))
  | none => (if s.hasStandby then s.forwardRequest mb q else s).waitFor mb (.cellBypass lane)

/-- CELL_BYPASS (R269, R344 to R346, R362); it discards a release not yet taken (log 68). -/
def execCellBypass (mb : Fin 8) (s : State) : Host.Outcome State Fault Refusal :=
  (s.withWrite mb 0x0C22 fun q s =>
    let lane := uAt q.payload 0 1
    let mode := uAt q.payload 1 1
    let e := s.entry lane
    let str := eStr e
    if 127 < lane ∨ 1 < mode then s.refuse4 mb stBadParam
    else if eEnabled e = false ∨ eType e ≠ 1 then s.refuse4 mb stRefused
    else if s.bypassed lane then
      let s1 := s.record lane 1
      (if mode = 1 ∧ (s1.byp lane).enterAt.isNone = true then s1.enterNow lane else s1).bypassReply mb q lane
    else if (s.str str).st = .running ∧ s.pu 0x0C06 str 2 1 < s.bypCount str + 1 then s.refuse4 mb stRefused
    else (if mode = 1 then s.urgentBypass lane 1 else s.plannedBypass lane 1).bypassReply mb q lane).done

/-- The status a release is refused with, if any (R362). -/
def State.releaseRefusal (s : State) (lane : Nat) : Option Nat :=
  let e := s.entry lane
  let str := eStr e
  let l := s.lnk lane
  let v := s.capNow lane
  if eEnabled e = false ∨ eType e ≠ 1 then some stRefused
  else if s.bypassed lane = false then some stRefused
  else if (s.str str).st = .tripped then some stTrip
  else if s.workingLink lane = false ∨ l.stale = true ∨ l.epFlag 2 = true ∨ l.epState = 8 ∨ l.epState = 7 ∨
      ((s.str str).st = .running ∧ (v < s.ps 0x0C05 str 2 2 ∨ s.ps 0x0C05 str 0 2 < v)) then some stRefused
  else none

/-- CELL_RELEASE (R269, R347, R362, log 68). -/
def execCellRelease (mb : Fin 8) (s : State) : Host.Outcome State Fault Refusal :=
  (s.withWrite mb 0x0C23 fun q s =>
    let lane := uAt q.payload 0 1
    if 127 < lane then s.refuse4 mb stBadParam
    else
      match s.releaseRefusal lane with
      | some st => s.refuse4 mb st
      | none =>
        if (s.str (s.strOf lane)).st = .running then
          let s1 := s.modByp lane fun b => { b with relWanted := true }
          (if s1.hasStandby then s1.forwardRequest mb q else s1).waitFor mb (.cellRelease lane)
        else
          ((s.modByp lane fun b => { b with held := none, enterAt := none }).bump 0x0C09 (s.strOf lane) 3).finishWrite mb q
            (leBytes 4 0)).done

/-! ### TRIP_CLEAR (R334, R350, R362) -/

/-- Whether SAFETY is present: by the unit's own permit, or, with an island that is UNUSED, by the twin's report (R334, R545). -/
def State.safetyPresent (s : State) : Bool :=
  if s.safeUnused then
    let f := uAt s.twin.peerHealth 7 1
    let old := match s.twin.peerHealthAt with
      | some t => s.elapsed t (ms 2)
      | none => true
    (bit f 4 && !bit f 5) || old
  else !s.safe.permit

/-- Whether a member that tripped its string for CELL_FAIL keeps the cause present (R334). -/
def State.failPresent (s : State) (str : Nat) : Bool :=
  let p := s.prt str
  let bad := fun l => !s.workingLink l || (s.lnk l).epFlag 2
  p.failed.any bad || p.disabled.any fun l => bad l || !eEnabled (s.entry l)

/-- Whether a cause is present (R334, log 69). -/
def State.causePresent (s : State) (str cause : Nat) : Bool :=
  let v := fun off => ((s.lnk (s.pu 0x0C03 str off 2)).samples.get {} (s.pu 0x0C03 str (off + 2) 1)).value
  match cause with
  | 0 => s.pu 0x0C03 str 0 2 != 0xFFFF && decide (s.ps 0x0C04 str 0 2 < ((v 0).natAbs : Int))
  | 2 => (s.activeMembers str).any fun l => decide (s.ps 0x0C05 str 0 2 < s.capNow l)
  | 4 => s.pu 0x0C03 str 4 2 != 0xFFFF && decide (s.ps 0x0C05 str 4 2 < v 4)
  | 6 => s.sourceStale str
  | 7 => s.failPresent str
  | 8 => s.bypOver str
  | 10 => s.safetyPresent
  | 11 => s.hk.recs.any fun r => bit r.strings str
  | 13 => decide (s.prot.ride.st = .dark)
  | 14 => (s.members str).any fun l => decide ((s.lnk l).epState = 7)
  | _ => false

/-- The latched causes of a string that are present. -/
def State.persisting (s : State) (str : Nat) : Nat :=
  (List.range 16).foldl (fun n b => n + b2n (bit (s.prt str).mask b && s.causePresent str b) * 2 ^ b) 0

/-- The reply of TRIP_CLEAR (R362). -/
def clearReply (cleared persisting : Nat) : Bytes := leBytes 2 cleared ++ leBytes 2 persisting

/-- TRIP_CLEAR (R260, R349, R350, R362, log 24). -/
def execTripClear (mb : Fin 8) (s : State) : Host.Outcome State Fault Refusal :=
  (s.withWrite mb 0x0C21 fun q s =>
    let str := uAt q.payload 0 1
    let expect := uAt q.payload 2 2
    if 15 < str then s.reply mb stBadParam (clearReply 0 0)
    else
      let p := s.persisting str
      let m := (s.prt str).mask
      if (s.str str).st ≠ .tripped then s.reply mb stRefused (clearReply 0 p)
      else if expect ≠ 0xFFFF ∧ expect ≠ m then s.reply mb stRefused (clearReply 0 p)
      else if p ≠ 0 then s.reply mb stTrip (clearReply 0 p)
      else
        ((s.modPrt str fun x => { x with mask := 0, failed := [], disabled := [], ocRun := 0 }).becomeStopped str).finishWrite mb q
          (clearReply m 0)).done

/-- RIDE_CMD (R359, R362, log 66). -/
def execRideCmd (mb : Fin 8) (s : State) : Host.Outcome State Fault Refusal :=
  (s.withWrite mb 0x0C24 fun q s =>
    let a := uAt q.payload 0 1
    let r := s.prot.ride
    let pay := fun (t : State) => leBytes 1 t.prot.ride.st.code ++ leBytes 1 t.prot.ride.reason ++ [0, 0]
    let answer := fun (t : State) => t.finishWrite mb q (pay t)
    if !inR a 1 3 then s.reply mb stBadParam (pay s)
    else if a = 3 ∧ (r.st = .dewWait ∨ (r.st = .halted ∧ r.reason = 2)) then
      let s1 := s.ridePrecharge false
      answer (s1.attic 6 0 0x0C02 (leBytes 1 s1.prot.ride.st.code ++ leBytes 1 s1.prot.ride.reason))
    else if a = 1 ∧ r.st = .halted then answer s.rideGo
    else if a = 2 ∧ r.st = .halted then answer (s.rideTo .grid)
    else s.reply mb stRefused (pay s)).done

/-- MV_RETURN_TIME_EXPIRE (R351, R354). -/
def execMvReturnTimeExpire (s : State) : Host.Outcome State Fault Refusal :=
  match s.prot.ride.returnFrom with
  | some t =>
    if s.prot.ride.st = .dark ∧ s.rideRuns = true ∧ s.elapsed t (ms (s.pu 0x0C0D noInst 6 2)) = true then s.mvReturn.done else .next s
  | none => .next s

/-- DEW_HOLD_EXPIRE (R355, log 65). -/
def execDewHoldExpire (s : State) : Host.Outcome State Fault Refusal :=
  match s.prot.ride.dewFrom with
  | some t =>
    if s.prot.ride.st = .dewWait ∧ s.rideRuns = true ∧ s.elapsed t (ms (1000 * s.pu 0x0C0E noInst 2 2)) = true then
      (s.ridePrecharge false).done
    else .next s
  | none => .next s

/-- DEW_TIMEOUT_EXPIRE (R355): a DEW_TIMEOUT other than 0 has run out. -/
def execDewTimeoutExpire (s : State) : Host.Outcome State Fault Refusal :=
  let n := s.pu 0x0C0E noInst 6 2
  if s.prot.ride.st = .dewWait ∧ s.rideRuns = true ∧ n ≠ 0 ∧ s.elapsed s.prot.ride.enteredMono (ms (60000 * n)) = true then
    (s.rideHalt 0x02).done
  else .next s

/-- PC_TIMEOUT_EXPIRE (R356). -/
def execPcTimeoutExpire (s : State) : Host.Outcome State Fault Refusal :=
  if s.prot.ride.st = .precharge ∧ s.rideRuns = true ∧ s.elapsed s.prot.ride.enteredMono (ms (s.pu 0x0C0F noInst 4 4)) = true then
    s.pcDone.done
  else .next s

/-- SYNC_TIMEOUT_EXPIRE (R357). -/
def execSyncTimeoutExpire (s : State) : Host.Outcome State Fault Refusal :=
  if s.prot.ride.st = .sync ∧ s.rideRuns = true ∧ s.elapsed s.prot.ride.enteredMono (ms (s.pu 0x0C10 noInst 10 2)) = true then
    (s.rideHalt 0x05).done
  else .next s

/-- STAGE_GAP_EXPIRE (R358): the next string of the order. -/
def execStageGapExpire (s : State) : Host.Outcome State Fault Refusal :=
  match s.prot.ride.gapFrom with
  | some t =>
    if s.prot.ride.st = .enable ∧ s.rideRuns = true ∧ s.elapsed t (ms (s.pu 0x0C11 noInst 16 2)) = true then
      (State.rideNext 17 (s.modRide fun r => { r with index := r.index + 1, gapFrom := none })).done
    else .next s
  | none => .next s

end Sys2Proof.Machine
end

