-- ==== Sys2Proof/Machine/Ring.lean ====
section
/-!
DEFINITION. The meanings of the rows of the group ring (chapter 11) and of SERVICE_SLOT, which fills the slots of the ring lanes and of
the twin lanes (R371, R405, R408).
-/

namespace Sys2Proof.Machine

/-! ### Service slots (R371, R408) -/

/-- The place of a ring block in the order of R408. -/
def ringRank (b : DownBlock) : Nat :=
  if b.type = 0x06 ∨ b.type = 0x25 ∨ b.type = 0x40 then 1
  else if b.type = 0x44 then 2
  else if b.type = 0x46 then (if bits b.payload 63 60 = 3 then 8 else 3)
  else if b.type = 0x42 then 4
  else if b.type = 0x45 then 5
  else if b.type = 0x41 then 6
  else if b.type = 0x43 then 7
  else 9

/-- Queues the next chunk of evidence in both directions; its content is internal to the stepping, so a free value (R388, R414,
log 14). -/
def State.evidNext (s : State) : State :=
  match s.twin.evidOut with
  | some (num, i, n) =>
    if i < n then
      (s.tookFree.ringSend 0x46 16 (pf 60 3 + pf 48 num + pf 32 i + s.freeVal % 2 ^ 32)).updTwin fun t =>
        { t with evidOut := some (num, i + 1, n) }
    else s.updTwin fun t => { t with evidOut := none }
  | none => s

/-- The first waiting block of the lowest rank. -/
def ringFirst (l : List DownBlock) : Option DownBlock :=
  (List.range 10).findSome? fun r => l.find? fun b => ringRank b == r

/-- Fills a slot of a ring lane: the first waiting block in the order of R408, else evidence, else IDLE. -/
def State.ringSlot (s : State) (lane : Nat) : State :=
  let s1 := if (s.lnk lane).queue.isEmpty then s.evidNext else s
  match ringFirst (s1.lnk lane).queue with
  | some b =>
    let s2 := s1.modLink lane fun l => { l with queue := removeOne b l.queue }
    s2.sendTagged lane (if b.type = 0x06 ∨ b.type = 0x25 then s.twin.epoch % 4 else bits b.payload 65 64) b.type b.payload
  | none => s1.sendBlock lane tyIdle 0

/-- The next block of the common stream: a TW_ROLE that is owed, the first that waits, or IDLE; the other twin lane is to send the same
(R371, R372). -/
def State.twinNext (s : State) (lane : Nat) : State :=
  let other := if lane = 130 then 131 else 130
  let role := pf 80 s.twin.epoch + pf 72 s.roleCode + pf 71 s.unit + pf 70 (b2n s.twin.qualified) + pf 32 s.roll.gen + s.le.gen
  let s1 := if s.twin.roleOwed then
      (s.modLink 130 fun l => { l with queue := { type := 0x30, payload := role } :: l.queue }).updTwin fun t =>
        { t with roleOwed := false }
    else s
  let due := match (s1.dly 130).lastSync with
    | some t => s1.elapsed t (us (s1.p0 0x0608))
    | none => true
  let s2 := if s1.twin.role = .active ∧ due = true ∧ s1.twinEn = true then s1.queueSync 130 else s1
  let b : DownBlock := (s2.lnk 130).queue.headD { type := tyIdle, payload := 0 }
  let q := s2.twin.txSeq
  let s3 := s2.modLink 130 fun l => { l with queue := l.queue.drop 1 }
  let s4 := s3.updTwin fun t =>
    { t with txSeq := (q + 1) % 256,
             ahead := if (s.lane other).st = .linked then t.ahead.mod [] other fun l => l ++ [(q, b.type, b.payload)] else t.ahead }
  (s4.modLink lane fun l => { l with downSeq := q }).sendBlock lane b.type b.payload

/-- Fills a slot of a twin lane: what the other lane has sent and this one has not, else the next block of the stream (R371, log 77). -/
def State.twinSlot (s : State) (lane : Nat) : State :=
  match s.twin.ahead.get [] lane with
  | (q, ty, p) :: r =>
    ((s.updTwin fun t => { t with ahead := t.ahead.set lane r }).modLink lane fun l => { l with downSeq := q }).sendBlock lane ty p
  | [] => s.twinNext lane

/-- SERVICE_SLOT (R371, R405, R408): a slot of a service lane that is LINKED or in HUNT (R107, R118). -/
def execServiceSlot (port : ServiceLane) (s : State) : Host.Outcome State Fault Refusal :=
  let lane := svcLane port
  if (s.lane lane).st = .linked ∨ (s.lane lane).st = .hunt then (if lane < 130 then (s.ringSlot lane).done else (s.twinSlot lane).done)
  else if (s.lane lane).st = .align then .next (s.sendBlock lane tyIdle 0)
  else .next s

/-! ### The census (R410) -/

/-- Sends this unit's census (R406, R410). -/
def State.censusSend (s : State) : State :=
  (s.ringSend 0x41 allNodes (pf 60 s.roleCode + pf 59 (b2n s.twin.qualified) + pf 58 (b2n s.sys.syncAligned) + pf 55 s.headId +
    pf 32 s.time.gen + pf 24 (s.p0 0x0D03) + s.ring.nonce)).updRing fun r => { r with censusAt := s.mono, censusOwed := false }

/-- CENSUS_PERIOD (R410): every 100 µs ± 10 µs, and within 10 µs of a change of role. -/
def execCensusPeriod (s : State) : Host.Outcome State Fault Refusal :=
  if s.ringEn = true ∧ (s.ring.censusOwed = true ∨ s.elapsed s.ring.censusAt (us 90) = true) then s.censusSend.done else .next s

/-- Takes a census of another node: presence, what it says, and the split of a pair it may show (R386, R410). -/
def State.census (s : State) (p : BitVec 96) : State :=
  let n := pbits p 95 91
  let role := pbits p 63 60
  let e := pbits p 79 64
  let s1 := (s.modNode n fun x =>
    { x with present := true, role, qualified := decide (pbits p 59 59 = 1), aligned := decide (pbits p 58 58 = 1),
             head := pbits p 57 55, gen := pbits p 47 32, refServe := pbits p 31 24, nonce := pbits p 15 0, at_ := s.mono,
             short := s.shortNow }).condOffInst 0x50 n
  let s2 := if n = 16 ∧ role = 3 ∧ bit (pbits p 31 24) s.headId = true then s1.condOffInst 0x4A noInst else s1
  if s.twinEn = true ∧ n = 2 * s.headId + (1 - s.unit) ∧ role = 1 ∧ 0 < sdiff 16 e s.twin.epoch then s2.splitSeen e else s2

/-- A census that bears this unit's own NODE: its own returning, or a clash (R410, log 81). -/
def State.ownCensus (s : State) (p : BitVec 96) : State :=
  let n := pbits p 95 91
  let s1 := s.modNode n fun x => { x with present := true, at_ := s.mono, short := s.shortNow }
  if pbits p 15 0 = s.ring.nonce then s1 else s1.condOn 0x51 n 0 (leBytes 2 (pbits p 15 0))

/-- RING_CENSUS_RX (R386, R406, R408 to R410). -/
def execRingCensusRx (side : RingSide) (h : RxHeader) (p : BitVec 96) (s : State) : Host.Outcome State Fault Refusal :=
  s.onRx (ringLane side) fun s =>
    let s1 := s.ringTake side h 0x41 p fun s => s.census p
    if pbits p 95 91 = s.node then s1.ownCensus p else s1

/-- CENSUS_NODE_TIMEOUT (R392, R410): no census of a node for 300 µs (log 81). -/
def execCensusNodeTimeout (node : Fin 17) (s : State) : Host.Outcome State Fault Refusal :=
  let x := s.rnode node
  if x.present = true ∧ s.elapsed x.at_ (us 300) = true then
    let s1 := s.modNode node fun x => { x with present := false }
    let s2 := if node.val = 16 ∧ s.refMode = 1 ∧ s.inPair = true then s1.condOn 0x4A noInst 0 [] else s1
    (if node.val = s.node then s2.condOffInst 0x51 node else s2.condOn 0x50 node 0 []).done
  else .next s

/-! ### Summaries, writes, health (R412 to R416, R380) -/

/-- Whether a summary is a later one than the one held: J[4:0] compared as a signed 5-bit difference while the one held is recent
(R406, R412, log 78). -/
def State.summaryNew (s : State) (g j : Nat) : Bool :=
  match s.ring.summary.get? g with
  | some x => decide (0 < sdiff 5 j x.j) || decide (x.at_ + 16 * s.p0 0x0B02 < s.now)
  | none => true

/-- RING_SUMMARY_RX (R406, R408, R409, R413). -/
def execRingSummaryRx (side : RingSide) (h : RxHeader) (p : BitVec 96) (s : State) : Host.Outcome State Fault Refusal :=
  s.onRx (ringLane side) fun s => s.ringTake side h 0x42 p fun s =>
    let g := pbits p 63 57
    let x : Summary :=
      { state := pbits p 56 54, valid := decide (pbits p 53 53 = 1), j := pbits p 52 48, mean := signed 16 (pbits p 47 32),
        min := signed 16 (pbits p 31 16), max := signed 16 (pbits p 15 0), at_ := s.now }
    if s.summaryNew g x.j then s.updRing fun r => { r with summary := r.summary.set g x } else s

/-- RING_WRITE_RX (R406, R408, R409, R415, R416, R426): beside what the management port does with the same word. -/
def execRingWriteRx (side : RingSide) (h : RxHeader) (p : BitVec 96) (s : State) (mgmt : MgmtAccess := .idle) : Host.Outcome State Fault Refusal :=
  s.onRx (ringLane side) fun s => s.ringTake side h 0x43 p fun s =>
    s.ringWrite (pbits p 63 61) (pbits p 60 49) (pbits p 48 45) (pbits p 44 32) (pbits p 31 0) mgmt

/-- RING_HEALTH_RX (R380, R389, R406, R408): the first copy of a report, by its number. -/
def execRingHealthRx (side : RingSide) (h : RxHeader) (p : BitVec 96) (s : State) : Host.Outcome State Fault Refusal :=
  s.onRx (ringLane side) fun s => s.ringTake side h 0x45 p fun s =>
    s.modNode (pbits p 95 91) fun x =>
      if x.healthSeq = some (pbits p 13 0) then x
      else { x with failed := some (pbits p 63 48), failedAt := s.mono, healthSeq := some (pbits p 13 0) }

/-! ### Cases (R388 to R392, R414) -/

/-- Whether a case's unit loses by its health: a report at most 1 ms old when the case arrived, with a failed check other than TWIN_LINK
(R389, log 76). -/
def State.refSick (s : State) (n at_ : Nat) : Bool :=
  let x := s.rnode n
  match x.failed with
  | some f => decide (at_ ≤ x.failedAt + ms 1) && setBit f 8 false != 0
  | none => false

/-- The verdict of two units of which some are at fault: 3 both, 2 the active, 1 the standby (R389). -/
def faultVerdict (active standby : Bool) : Nat := if active && standby then 3 else if active then 2 else 1

/-- Sends a verdict of the first case, in the pair's epoch, and ends the case (R389, R392, R414, log 14, log 76). -/
def State.refVerdict (s : State) (c : RefereeCase) (v rule : Nat) : State :=
  let e := (s.ring.headEpoch.get? c.head).getD 0
  let p := pf 91 s.node + pf 86 allNodes + pf 64 e + pf 60 4 + pf 48 c.num + pf 46 v + pf 43 rule + pf 40 c.head
  ((s.ringQueue 128 0x46 p).ringQueue 129 0x46 p).updTwin fun t => { t with refCases := t.refCases.filter fun x => x ≠ c }

/-- Judges the oldest case by the rules that need no replay of the referee's own; a case older than REF_TIMEOUT is dropped; the fuel is
the number of cases (R389, R390, R392, log 76). -/
def State.refJudge : Nat → State → State
  | 0, s => s
  | n + 1, s =>
    match s.twin.refCases with
    | [] => s
    | c :: r =>
      if s.elapsed c.at_ (us 500) then State.refJudge n (s.updTwin fun t => { t with refCases := r })
      else
        let a := s.refSick c.nodes.1 c.at_
        let b := s.refSick c.nodes.2 c.at_
        if a || b then State.refJudge n (s.refVerdict c (faultVerdict a b) 1)
        else
          match c.claimA, c.claimS with
          | some x, some y =>
            if !x.reproduced || !y.reproduced then
              State.refJudge n (s.refVerdict c (faultVerdict (!x.reproduced) (!y.reproduced)) 2)
            else if x.dig ≠ y.dig then State.refJudge n (s.refVerdict c (1 + s.pu 0x0D02 noInst 2 1) 4)
            else s
          | _, _ => s

/-- Judges the cases put to this unit. -/
def State.refGo (s : State) : State := State.refJudge (s.twin.refCases.length + 1) s

/-- Changes the open case of a head and a number. -/
def State.modCase (s : State) (src num : Nat) (f : RefereeCase → RefereeCase) : State :=
  s.updTwin fun t => { t with refCases := t.refCases.map fun c =>
    if c.num = num ∧ (c.nodes.1 = src ∨ c.nodes.2 = src) then f c else c }

/-- What a referee does with REQUEST, CLAIM, EVIDENCE and CANCEL (R389, R392, R414). -/
def State.refereeTake (s : State) (p : BitVec 96) : State :=
  let src := pbits p 95 91
  let kind := pbits p 63 60
  let num := pbits p 59 48
  let head := pbits p 42 40
  let key := (src, kind, num, if kind = 3 then pbits p 45 32 else 0)
  if s.ring.refSeen.contains key then s
  else
    let s1 := if kind = 3 then s else s.updRing fun r => { r with refSeen := (key :: r.refSeen).take 64 }
    if kind = 1 then
      if bit (s.p0 0x0D03) head then
        (s1.updTwin fun t =>
          { t with refCases := t.refCases ++ [{ head, num, nodes := (2 * head + (1 - src % 2), src), at_ := s.mono }] }).refGo
      else s1
    else if kind = 2 then
      let x : RefClaim := { reproduced := decide (pbits p 47 47 = 1), chunks := pbits p 46 32, dig := pbits p 31 0 }
      (s1.modCase src num fun c =>
        if c.nodes.1 = src then { c with claimA := some x } else { c with claimS := some x }).refGo
    else if kind = 3 then
      s1.modCase src num fun c => { c with evidence := c.evidence.set (pbits p 45 32) (pbits p 31 0) }
    else if kind = 5 then
      (s1.updTwin fun t => { t with refCases := t.refCases.filter fun c => !(c.head == head && c.num == num) }).refGo
    else s1

/-- A VERDICT at a unit of the pair: from node 16 and not in an older epoch. At an active of an older epoch it shows the other unit ACTIVE
(R386, R391, R392, R414, log 130). -/
def State.verdictTake (s : State) (p : BitVec 96) : State :=
  if pbits p 95 91 = 16 ∧ pbits p 42 40 = s.headId ∧ s.twin.role = .active ∧ 0 < sdiff 16 (pbits p 79 64) s.twin.epoch ∧
      pbits p 47 46 ≠ 0 then
    s.splitSeen (pbits p 79 64)
  else if pbits p 95 91 = 16 ∧ pbits p 42 40 = s.headId ∧ s.twin.caseOpen = true ∧ s.refMode = 1 ∧
      pbits p 59 48 = s.twin.case.j % 4096 ∧ 0 ≤ sdiff 16 (pbits p 79 64) s.twin.epoch ∧ pbits p 47 46 ≠ 0 then
    s.verdict (pbits p 47 46) (pbits p 45 43)
  else s

/-- RING_REF_RX (R388 to R392, R408, R409, R414): a verdict carries the pair's epoch and is judged by the pair alone. -/
def execRingRefRx (side : RingSide) (h : RxHeader) (p : BitVec 96) (s : State) : Host.Outcome State Fault Refusal :=
  s.onRx (ringLane side) fun s =>
    if pbits p 63 60 = 4 then ((s.rxValid (ringLane side) h).ringForward (ringLane side) 0x46 p).verdictTake p
    else s.ringTake side h 0x46 p fun s => if s.twin.role = .referee then s.refereeTake p else s

/-- REFEREE_REPLAY_DONE (R389, R390): the referee has replayed the active's evidence of the oldest case. -/
def execRefereeReplayDone (head : Fin 8) (matchActive matchStandby : Bool) (s : State) : Host.Outcome State Fault Refusal :=
  match s.twin.refCases with
  | [] => .next s
  | c :: _ =>
    match c.claimA, c.claimS with
    | some x, some y =>
      if s.twin.role = .referee ∧ c.head = head.val ∧ x.reproduced = true ∧ y.reproduced = true ∧ x.dig = y.dig ∧
          x.chunks ≤ c.evidence.cells.length then
        let v := if matchActive && matchStandby then (1 + s.pu 0x0D02 noInst 2 1, 4)
          else (faultVerdict (!matchActive) (!matchStandby), 3)
        (s.refVerdict c v.1 v.2).refGo.done
      else .next s
    | _, _ => .next s

end Sys2Proof.Machine
end

