-- ==== Sys2Proof/Machine/Safe.lean ====
section
/-!
DEFINITION. The meanings of the safety island's rows (chapter 16).
-/

namespace Sys2Proof.Machine

/-- SAFE_INPUT_EDGE (R523, R526, R530): a level changes; a two-hand contact may complete an actuation. -/
def execSafeInputEdge (inp : Fin 17) (level : Bool) (s : State) : Host.Outcome State Fault Refusal :=
  if s.safe.lev inp = level then .next s
  else .next (s.modSafe fun u m =>
    let v := { u with level := u.level.set inp level, since := u.since.set inp m,
                      press := if inp.val = 14 ∧ level = false then some (m - u.at_ 14) else u.press }
    let w := match v.edm with
      | some (t, want) => if 15 ≤ inp.val ∧ v.lev 15 = want ∧ v.lev 16 = want ∧ m ≤ t + ms 100 then { v with edm := none } else v
      | none => v
    if 8 ≤ inp.val ∧ inp.val < 12 then w.handEdge m ((inp.val - 8) / 2) else w)

/-- SAFE_DEMAND_FILTER (R528, R529, R533): an input low for its filter time. -/
def execSafeDemandFilter (inp : Fin 14) (s : State) : Host.Outcome State Fault Refusal :=
  let fn := safeFn inp
  let u := s.safe
  if u.live = false ∨ fn = 5 ∨ u.inUse fn = false ∨ u.inDemand inp s.mono = false then .next s
  else .next (s.modSafe fun u m =>
    let both := u.inDemand (safePair fn).1 m && u.inDemand (safePair fn).2 m
    let v := if both && bit u.fault fn then { u with together := setBit u.together fn true } else u
    if bit v.demand fn then v
    else
      let w := ({ v with demand := setBit v.demand fn true }.count 0).stop m
      { w with cause := setBit w.cause fn true, events := w.events ++ [.demand w.demand] })

/-- SAFE_DISCREPANCY_TIMEOUT (R528): the inputs of a pair have differed for more than 100 ms, or 20 ms for the OSSDs. -/
def execSafeDiscrepancyTimeout (fn : Fin 5) (s : State) : Host.Outcome State Fault Refusal :=
  let u := s.safe
  let p := safePair fn
  let from_ := max (u.at_ p.1) (u.at_ p.2)
  if u.lev p.1 ≠ u.lev p.2 ∧ from_ + (if fn.val = 4 then ms 20 else ms 100) < s.mono then
    .next (s.modSafe fun u m => u.fnFault m 1 fn 3)
  else .next s

/-- The functions whose inputs fail a test pulse: closed but not low in its own pulse, or low in the other output's (R527). -/
def SafeUnit.pulseFails (u : SafeUnit) (out own cross : Nat) : List Nat :=
  ((List.range 12).filter fun i =>
    if safeFeed i = some out then u.lev i && !bit own i else u.lev i && bit cross i).map safeFn

/-- SAFE_TEST_PULSE (R527): the end of a pulse, with the inputs of this output that are low (own) and those of the other output that
show the pulse (cross). -/
def execSafeTestPulse (out : Fin 2) (own cross : BitVec 17) (s : State) : Host.Outcome State Fault Refusal :=
  if s.safe.live = false ∨ s.safe.sw 6 = false then .next s
  else .next (s.modSafe fun u m =>
    let v := { u with pulse := u.pulse.set out m }
    (u.pulseFails out own.toNat cross.toNat).foldl (fun v fn => v.fnFault m 2 fn 3) v)

/-- SAFE_SEAL_CHECK (R525, R547): the seal is read again. -/
def execSafeSealCheck (sealV : BitVec 16) (s : State) : Host.Outcome State Fault Refusal :=
  .next (s.modSafe fun u m =>
    match u.sealIn with
    | none => if u.live then { u with sealIn := some sealV.toNat } else u
    | some v => if v = sealV.toNat then u else u.lockout m 0x17 3)

/-- SAFE_CLOCK_CHECK (R519): the deviation of the other channel's clock, in parts per million (log 93). -/
def execSafeClockCheck (deviation : Int) (s : State) : Host.Outcome State Fault Refusal :=
  if 100000 < deviation.natAbs then .next (s.modSafe fun u m => u.lockout m 0x18 3) else .next s

/-- Since when something has held, when it holds now. -/
def sinceIf (on : Bool) (since : Option Nat) (m : Nat) : Option Nat := if on then some (since.getD m) else none

/-- Whether something has held for longer than 1 ms. -/
def heldMs (since : Option Nat) (m : Nat) : Bool :=
  match since with
  | some t => decide (t + ms 1 < m)
  | none => false

/-- SAFE_CHANNEL_EXCHANGE (R533, R536): the channels' permit decisions, and whether they read an input differently. -/
def execSafeChannelExchange (pPermit hPermit : Bool) (inputsDiffer : Bool) (s : State) : Host.Outcome State Fault Refusal :=
  if s.safe.live = false ∨ s.safe.st = .lockout then .next s
  else .next (s.modSafe fun u m =>
    let v := { u with pPermit, hPermit, differ := sinceIf (pPermit != hPermit) u.differ m, inDiffer := sinceIf inputsDiffer u.inDiffer m }
    if heldMs v.differ m || heldMs v.inDiffer m then v.lockout m 0x10 3
    else if v.inhibitOn && !(pPermit && hPermit) then { v.stop m with pPermit, hPermit }
    else v)

/-- A self-test's number and its period: every cycle, every second, every 10 seconds (R520, R536). -/
def safeTest : SafeTest → Nat × Nat
  | .cpu => (0, us 500)
  | .ram => (1, ms 1000)
  | .rom => (2, ms 10000)

/-- SAFE_SELFTEST (R520): a test of channel P passes or fails, or is overdue once twice its period has passed. -/
def execSafeSelftest (test : SafeTest) (result : TestResult) (s : State) : Host.Outcome State Fault Refusal :=
  let t := safeTest test
  match result with
  | .pass => .next (s.modSafe fun u m => { u with testAt := u.testAt.set t.1 m })
  | .fail => .next (s.modSafe fun u m => u.lockout m 0x1A 1)
  | .overdue =>
    if max s.safe.startAt (s.safe.testAt.get 0 t.1) + 2 * t.2 < s.mono then .next (s.modSafe fun u m => u.lockout m 0x1A 1) else .next s

/-- SAFE_SUPPLY_OUT (R518, R535): VDD_SAFE has been outside its limits for 10 µs. -/
def execSafeSupplyOut (s : State) : Host.Outcome State Fault Refusal :=
  if s.safe.supplied = false then .next s
  else .next (s.modSafe fun u m => { u.off m with outOn := u.inhibitOn, supplied := false, outAt := m })

/-- SAFE_SUPPLY_RETURN (R518, R535): START, unless a lockout was not without supply for 100 ms (log 92). -/
def execSafeSupplyReturn (s : State) : Host.Outcome State Fault Refusal :=
  if s.safe.supplied = true then .next s
  else .next (s.modSafe fun u m =>
    if u.st = .lockout ∧ m < u.outAt + ms 100 then { u with supplied := true }
    else
      let v : SafeUnit :=
        { startAt := m, offAt := m, level := u.level, since := u.since, frame := u.frame, frameAt := u.frameAt,
          frameMono := u.frameMono, faultAt := u.faultAt, stale := u.stale, permit := u.permit,
          events := [.change 1 0] }
      if u.outOn then v.record m 0x19 0xFF 3 else v)

/-- SAFE_START_DONE (R525, R532): the seal is checked, and START ends (log 92). -/
def execSafeStartDone (sealV : BitVec 16) (s : State) : Host.Outcome State Fault Refusal :=
  let v := sealV.toNat
  if s.safe.supplied = false ∨ s.safe.st ≠ .start then .next s
  else .next (s.modSafe fun u m =>
    let w := { u with sealIn := some (u.sealIn.getD v) }
    if u.sealIn.getD v ≠ v then w.lockout m 0x17 3
    else if v = 0 then w.enter .unused
    else if (List.range 8).any fun k => bit v k == bit v (k + 8) then w.lockout m 0x15 3
    else if (bit v 5 && !bit v 3) || (bit v 7 && !bit v 4) then w.lockout m 0x16 3
    else { w with sealOk := true }.enter .stopped)

/-- SAFE_RESET_RELEASE (R531, R533): the release of SAFE_RESET ends a press. -/
def execSafeResetRelease (s : State) : Host.Outcome State Fault Refusal :=
  .next (s.modSafe fun u m =>
    let v := if u.lev 14 then { u with level := u.level.set 14 false, since := u.since.set 14 m, press := none } else { u with press := none }
    match if u.lev 14 then some (m - u.at_ 14) else u.press with
    | some n => if ms 100 ≤ n ∧ n ≤ ms 5000 ∧ u.sw 5 = false then v.resetEvent m else v
    | none => v)

/-- SAFE_LC_CLEAR_EXPIRE (R533): the light curtain has been clear for 500 ms after a stop caused only by it. -/
def execSafeLcClearExpire (s : State) : Host.Outcome State Fault Refusal :=
  let u := s.safe
  if u.st = .stopped ∧ u.sw 7 = true ∧ u.sw 4 = true ∧ u.cause = 16 ∧ u.lev 12 = true ∧ u.lev 13 = true ∧
      max (u.at_ 12) (u.at_ 13) + ms 500 ≤ s.mono then
    .next (s.modSafe fun u m => u.resetEvent m)
  else .next s

/-- SAFE_EDM_TIMEOUT (R523): the check fails unless both inputs are at the level they must reach. -/
def execSafeEdmTimeout (s : State) : Host.Outcome State Fault Refusal :=
  match s.safe.edm with
  | some (t, want) =>
    if s.elapsed t (ms 100) = true then
      .next (s.modSafe fun u m =>
        let v := { u with edm := none }
        if u.lev 15 = want ∧ u.lev 16 = want then v else v.lockout m 0x12 3)
    else .next s
  | none => .next s

/-- SAFE_READBACK_TIMEOUT (R522): an output has differed from its gates for more than 20 µs. -/
def execSafeReadbackTimeout (out : Fin 4) (s : State) : Host.Outcome State Fault Refusal :=
  if out.val < 4 then .next (s.modSafe fun u m => u.lockout m 0x11 3) else .next s

/-- SAFE_CHAIN_MEASURE (R538): the mean period of a return over 8 periods, in ticks (log 93). -/
def execSafeChainMeasure (chain : Fin 2) (period : Nat) (s : State) : Host.Outcome State Fault Refusal :=
  let isA := inR period 80320 83520
  let isB := inR period 76480 79680
  .next (s.modSafe fun u m =>
    if u.inhibitOn then
      if (if chain.val = 0 then isB else isA) then u.lockout m 0x14 1
      else
        let v := { u with edge := u.edge.set chain m, broken := setBit u.broken chain false }
        let w : SafeUnit := { v with events := v.events ++ [.loopBroken chain false] }
        if bit u.broken chain then w.record m 0x20 0xFF 1 else v
    else if u.live && decide (u.st ≠ .lockout) && decide (u.offAt + us 50 < m) then u.lockout m 0x13 1
    else u)

/-- SAFE_LOOP_BROKEN_TIMEOUT (R538): no edge for 50 µs with the carrier on. -/
def execSafeLoopBrokenTimeout (chain : Fin 2) (s : State) : Host.Outcome State Fault Refusal :=
  let u := s.safe
  if u.inhibitOn = true ∧ bit u.broken chain = false ∧ u.edge.get 0 chain + us 50 ≤ s.mono then
    .next (s.modSafe fun u m =>
      let v := ({ u with broken := setBit u.broken chain true }.record m 0x20 0xFF 1).count 4
      { v with events := v.events ++ [.loopBroken chain true] })
  else .next s

/-- SAFE_DEMAND_DUE (R539): 30 days without a removal of the outputs. -/
def execSafeDemandDue (s : State) : Host.Outcome State Fault Refusal :=
  if s.safe.inhibitOn = true ∧ s.safe.onAt + ms 2592000000 ≤ s.mono then .next (s.updSafe fun u => { u with due := true })
  else .next s

/-- SAFE_MIRROR_SEND (R541). -/
def execSafeMirrorSend (s : State) : Host.Outcome State Fault Refusal :=
  if s.safe.supplied = false then .next s
  else .next (s.updSafe fun u => { u with sent := u.sent ++ [u.form], events := [] })

/-- SAFE_MIRROR_RX (R541, R544): the frame is stamped, page 0x14 shows it, and its events are notified. -/
def execSafeMirrorRx (s : State) : Host.Outcome State Fault Refusal :=
  match s.safe.sent with
  | [] => .next s
  | f :: r =>
    if s.sys.stage = .inReset then .next (s.updSafe fun u => { u with sent := r })
    else
      let s1 := s.updSafe fun u =>
        { u with sent := r, frame := f, frameAt := s.shortNow, frameMono := s.mono, stale := false,
                 faultAt := if f.last = u.frame.last then u.faultAt else s.shortNow }
      let s2 := f.events.foldl (fun s e => s.safeNote e) (s1.condOff 0x78 0xFFFF 0)
      (s2.cond (f.st == 5) 0x79 0xFFFF 0 (leBytes 1 f.last.code ++ leBytes 1 f.last.fn ++ leBytes 1 f.last.by_)).done

/-- SAFE_MIRROR_TIMEOUT (R541): no valid frame for 10 ms. -/
def execSafeMirrorTimeout (s : State) : Host.Outcome State Fault Refusal :=
  if s.sys.stage = .inReset ∨ s.safe.stale = true ∨ s.elapsed s.safe.frameMono (ms 10) = false then .next s
  else ((((s.updSafe fun u => { u with stale := true }).note 0x0D 0x1406 []).condOn 0x78 0xFFFF 0 [])).done

/-- SAFE_PERMIT_LINE_CHANGE (R334, R380, R540): GSTAT.SAFE_PERMIT follows; a fall trips the strings that are not STOPPED or TRIPPED. -/
def execSafePermitLineChange (level : Bool) (s : State) : Host.Outcome State Fault Refusal :=
  if s.safe.line ≠ level ∨ s.safe.permit = level ∨ s.sys.stage = .inReset then .next s
  else
    let s1 := (s.updSafe fun u => { u with permit := level }).updTwin fun t => { t with healthOwed := true }
    if level = true then s1.done
    else ((List.range 16).foldl (fun s str =>
      match (s.str str).st with
      | .starting => s.trip str 10 0xFFFF
      | .running => s.trip str 10 0xFFFF
      | .stopping => s.trip str 10 0xFFFF
      | .stopped => s
      | .tripped => s) s1).done

/-- SAFE_FUNCTION_PERMIT_FILTER (R528, R534): both inputs high for their filter time, or both hands released. -/
def execSafeFunctionPermitFilter (fn : Fin 6) (s : State) : Host.Outcome State Fault Refusal :=
  let u := s.safe
  if u.live = false then .next s
  else if fn.val = 5 then
    if u.released 0 = true ∧ u.released 1 = true then .next (s.updSafe fun u => { u with fault := setBit u.fault 5 false }) else .next s
  else
    let p := safePair fn
    let n := if fn.val = 4 then us 400 else us 200
    if u.lev p.1 = true ∧ u.lev p.2 = true ∧ max (u.at_ p.1) (u.at_ p.2) + n ≤ s.mono then
      .next (s.updSafe fun u =>
        { u with demand := setBit u.demand fn false,
                 fault := if bit u.together fn then setBit u.fault fn false else u.fault,
                 together := setBit u.together fn false })
    else .next s

/-- SAFE_THC_PAIR_TIMEOUT (R530): a hand's contacts have not both changed within 50 ms. -/
def execSafeThcPairTimeout (hand : Fin 2) (s : State) : Host.Outcome State Fault Refusal :=
  let u := s.safe
  if u.pressed hand = true ∨ u.released hand = true then .next s
  else if max (u.at_ (8 + 2 * hand)) (u.at_ (9 + 2 * hand)) + ms 50 < s.mono then
    .next (s.modSafe fun u m => u.fnFault m 3 5 3)
  else .next s

end Sys2Proof.Machine
end

