-- ==== Sys2Proof/Machine/TwinLate.lean ====
section
/-!
DEFINITION. The meanings of TW_FWD_RX and TW_HEALTH_PERIOD: what a standby does with a forwarded request, and the health report
(R373, R380).
-/

namespace Sys2Proof.Machine

/-! ### Applying a forwarded request (R72, R325, R373, R495) -/

/-- Replaces one byte. -/
def setByte (l : Bytes) (at_ : Nat) (b : Byte) : Bytes := l.take at_ ++ [b] ++ l.drop (at_ + 1)

/-- Where a forwarded command has its UNIT field, if it has one (R132, R184, R605, R614). -/
def unitAt (op : Nat) : Option Nat :=
  if [0x0420, 0x0421, 0x0422].contains op then some 4
  else if [0x0424, 0x0511].contains op then some 2
  else if [0x1810, 0x1811, 0x1812, 0x1815].contains op then some 0
  else none

/-- A forwarded request as the standby runs it: at its own epoch, and for this unit (R132, log 70). -/
def State.ownRequest (s : State) (q : Request) : Request :=
  match unitAt q.opcode with
  | some n => { q with epoch := s.twin.epoch, payload := setByte q.payload n 0 }
  | none => { q with epoch := s.twin.epoch }

/-- The state an outcome leaves; a stop leaves the state before it. -/
def nextOr (s : State) (o : Host.Outcome State Fault Refusal) : State :=
  match o with
  | .next t => t
  | _ => s

/-- The mailbox a forwarded request is run on (log 70). -/
def fwdBox : Fin 8 := 7

/-- Runs a forwarded command with the meaning it has on the active (R72). -/
def State.runForwarded (s : State) (op : Nat) : State :=
  nextOr s (match op with
    | 0x0420 => execLaneRetrain fwdBox s
    | 0x0421 => execLaneHalt fwdBox s
    | 0x0422 => execLaneTestStart fwdBox s
    | 0x0424 => execLaneTestStop fwdBox s
    | 0x0511 => execEpReauth fwdBox s
    | 0x0820 => execStringStart fwdBox s
    | 0x0821 => execStringStop fwdBox s
    | 0x0822 => execRawEdgeLoad fwdBox s
    | 0x0920 => execDtReset fwdBox s
    | 0x0B14 => execLeStart fwdBox s
    | 0x0B15 => execLeStop fwdBox s
    | 0x0B16 => execLoopPreset fwdBox s
    | 0x0C20 => execStringTrip fwdBox s
    | 0x0C21 => execTripClear fwdBox s
    | 0x0C22 => execCellBypass fwdBox s
    | 0x0C23 => execCellRelease fwdBox s
    | 0x0C24 => execRideCmd fwdBox s
    | 0x1220 => execAuxTripClear fwdBox s
    | 0x1221 => execAuxSafe fwdBox s
    | 0x1310 => execPosSet fwdBox s
    | 0x1511 => execDemandReset fwdBox s
    | 0x1811 => execLoftVerify fwdBox s
    | 0x1812 => execLoftSchedule fwdBox s
    | _ => .next (s.refuse fwdBox.val stUnknown 0))

/-- A shutdown record as the active sends it (R460, R461, log 14). -/
def thermRecOf (b : Bytes) : ThermRec :=
  let f := uAt b 5 1
  { id := uAt b 0 4, zone := uAt b 4 1, read := bit f 0, restored := bit f 1, rtcSet := bit f 2, src := uAt b 6 2, trip := sAt b 8 2,
    peak := sAt b 10 2, strings := uAt b 14 2, tick := uAt b 16 8, rtc := uAt b 24 4 }

/-- A shutdown record enters the standby once (R460). -/
def State.thermTake (s : State) (r : ThermRec) : State := if s.hk.recs.any fun x => x.id == r.id then s else s.thermAdd r

/-- A shutdown record leaves the standby at the active's THERM_CLEAR: the active has judged it (R463, R467, log 71). -/
def State.thermDrop (s : State) (id : Nat) : State :=
  match s.hk.recs.find? fun r => r.id == id with
  | some r => (s.updHk fun h => { h with recs := h.recs.filter fun x => x ≠ r }).condOff 0x64 r.zone 0
  | none => s

/-- Applies the records of a forwarded PARAM_SET, which the active has checked (R72, R77, log 32). -/
def State.fwdRecords (s : State) (p : Bytes) : Option State :=
  (layRecords (uAt p 0 2) (p.drop 4)).map fun l => s.applyAll (l.map (·.rec_))

/-- The forwarded writes that the standby takes without a reply of their own; none for the commands it runs (R72, R373, log 71, log 72). -/
def State.fwdDirect (s : State) (q : Request) (d : Bytes) : Option (Option State) :=
  let p := q.payload
  match q.opcode with
  | 0x0212 => some (s.fwdRecords p)
  | 0x0310 => some (some (s.loadRoll (uAt p 4 1) (uAt p 5 1) d))
  | 0x0B10 => some (some (s.loopLoad (uAt p 4 1) (uAt p 6 2) (uAt p 8 2) d))
  | 0x0B12 => some (some (s.larderPut (uAt p 4 2) (uAt p 6 2) d))
  | 0x0D11 =>
    some (if s.twin.qualified then
        some (s.updTwin fun t => { t with switch := some { at_ := s.boundaryFrom (s.now + 8000), rising := true } })
      else none)
  | 0x1100 => some (some (s.thermTake (thermRecOf p)))
  | 0x1111 => some (some (s.thermDrop (uAt p 0 4)))
  | 0x1816 => some (some (s.lockSet (uAt p 0 1 == 1)))
  | _ => none

/-- The forwarded commands that carry pantry bytes, and those without (R72, log 16). -/
def State.fwdRun (s : State) (q : Request) (d : Bytes) : State :=
  let p := q.payload
  match q.opcode with
  | 0x1810 => s.loftWrite fwdBox.val q (slice d 0 (uAt p 12 4))
  | 0x1813 => s.imageStore fwdBox.val q (slice d 0 (uAt p 8 4))
  | 0x1815 => s.pkgApply fwdBox.val q (slice d 0 (uAt p 8 4)) (uAt d (uAt p 8 4) 8)
  | 0x0311 => s.rollRun fwdBox.val q (rollSetOf d) (uAt d 0 8)
  | 0x0B11 => s.loopRun fwdBox.val q (uAt d 0 8)
  | _ => s.runForwarded q.opcode

/-- Gives the standby's own mailbox back, with its interrupt enables and its count of BUSY replies, after a forwarded command has been
run on it: the command's reply goes to the active's host alone (R72, R373, log 70). -/
def State.giveBack (before after : State) : State :=
  let s1 := (after.modBox fwdBox.val fun _ => before.box fwdBox.val).updHatch fun h => { h with irqEn := before.hatch.irqEn, active := before.hatch.active }
  let k := pKey 0x0206 noInst
  let s2 := s1.updPar fun p =>
    { p with counters := match before.par.counters.get? k with
      | some c => p.counters.set k c
      | none => p.counters.erase k }
  (List.range 128).foldl (fun s l =>
    if (s.lnk l).authMb = some fwdBox.val ∧ (before.lnk l).authMb ≠ some fwdBox.val then
      s.modLink l fun x => { x with authMb := none }
    else s) s2

/-- Runs a forwarded command on a mailbox lent to it; whether it was accepted comes with the state (R72, R373, log 70). -/
def State.fwdCommand (s : State) (q : Request) (d : Bytes) : State × Bool :=
  let q' := s.ownRequest q
  let s1 := (s.modBox fwdBox.val fun b =>
    { b with state := .active, waiting := .none, taken := some q', reply := [] }).updHatch fun h =>
    { h with irqEn := setBit h.irqEn 7 false, active := [fwdBox.val] }
  let s2 := s1.fwdRun q' d
  let b := s2.box fwdBox.val
  let ok := decide (b.state ≠ .done) || decide (uAt b.reply 0 2 = stOk)
  (s.giveBack s2, ok)

/-- Answers a forwarded write (R371, R373): 0 OK, 1 STALE, 2 REFUSED, 3 INCOMPLETE. -/
def State.fwdAck (s : State) (xfer result : Nat) : State := s.twinSend 0x35 (pf 80 s.twin.epoch + pf 72 xfer + pf 64 result)

/-- A forwarded write is accepted (R374). -/
def State.fwdTaken (s : State) (xfer : Nat) : State := (s.updTwin fun t => { t with fwdCount := t.fwdCount + 1 }).fwdAck xfer 0

/-- Applies a whole forwarded request and answers it (R71, R72, R372, R373, log 71). -/
def State.fwdApply (s : State) (xfer : Nat) (b : Bytes) : State :=
  let n := uAt b 4 2
  let q : Request := { opcode := uAt b 2 2, seq := 0, epoch := uAt b 0 2, length := n, payload := slice b 8 n }
  let d := b.drop (8 + n)
  if sdiff 16 q.epoch s.twin.epoch < 0 then s.staleRx.fwdAck xfer 1
  else if s.twin.role ≠ .standby then s.fwdAck xfer 2
  else
    match s.fwdDirect q d with
    | some (some t) => t.fwdTaken xfer
    | some none => s.fwdAck xfer 2
    | none =>
      let r := s.fwdCommand q d
      if r.2 then r.1.fwdTaken xfer else r.1.fwdAck xfer 2

/-- Takes a chunk: INDEX 0 begins a request, a chunk out of its place ends it INCOMPLETE, the last one has it applied (R371, R373, log 71). -/
def State.fwdChunk (s : State) (xfer index : Nat) (last : Bool) (data : Bytes) : State :=
  let goesOn : Bool := match s.twin.fwdIn with
    | some f => f.xfer == xfer && f.next % 4096 == index
    | none => false
  let drop := s.updTwin fun t => { t with fwdIn := none }
  if goesOn = true ∨ index = 0 then
    let f : FwdIn := if goesOn then s.twin.fwdIn.getD { xfer, data := [], next := 0 } else { xfer, data := [], next := 0 }
    let b := f.data ++ data
    if last then drop.fwdApply xfer b
    else s.updTwin fun t => { t with fwdIn := some { xfer, data := b, next := f.next + 1 } }
  else if last then drop.fwdAck xfer 3
  else drop

/-- TW_FWD_RX (R72, R371 to R373). -/
def execTwFwdRx (side : TwinSide) (h : RxHeader) (p : BitVec 96) (s : State) : Host.Outcome State Fault Refusal :=
  s.onRx (twinLane side) fun s => s.twinTake side h fun s =>
    let xfer := pbits p 95 88
    let last := pbits p 75 75 = 1
    if h.etag.toNat = s.twin.epoch % 4 then s.fwdChunk xfer (pbits p 87 76) last (beBytes 8 (pbits p 63 0))
    else
      let s1 := s.staleRx
      if last then s1.fwdAck xfer 1 else s1

/-! ### The health report (R380) -/

/-- FLAGS of TW_HEALTH (R380). -/
def State.healthFlags (s : State) : Nat :=
  flagNum [s.twin.qualified, s.twin.caseOpen, s.twin.resync, s.twin.peerAlive, !s.safeUnused, s.safe.permit]

/-- The payload of TW_HEALTH (R380). -/
def State.healthReport (s : State) : Nat :=
  pf 80 s.twin.epoch + pf 64 s.twin.failed + pf 48 s.runMask + pf 40 s.roleCode + pf 32 s.healthFlags + pf 16 s.notif.mpLoad + s.twin.reportSeq

/-- The same report as RING_HEALTH lays it out (R380, R406). -/
def State.ringHealth (s : State) : Nat :=
  pf 48 s.twin.failed + pf 32 s.runMask + pf 28 s.roleCode + pf 24 (s.healthFlags % 16) + pf 14 (s.notif.mpLoad % 1024) +
    s.twin.reportSeq % 2 ^ 14

/-- TW_HEALTH_PERIOD (R380): every 1 ms ± 0.1 ms, and at once where a change asks for it (log 73). -/
def execTwHealthPeriod (s : State) : Host.Outcome State Fault Refusal :=
  if s.sys.stage = .serving ∧ s.twinEn = true ∧ (s.twin.healthOwed = true ∨ s.elapsed s.twin.healthAt (us 900) = true) then
    let r := s.healthReport
    let s1 := s.twinSend 0x37 r
    let s2 := if s.refMode = 1 then s1.ringSend 0x45 16 s.ringHealth else s1
    (s2.updTwin fun t =>
      { t with ownHealth := beBytes 12 r, run := s.runMask, healthAt := s.mono, healthOwed := false,
               reportSeq := (t.reportSeq + 1) % 2 ^ 16 }).done
  else .next s

end Sys2Proof.Machine
end

