-- ==== Sys2Proof/Machine/Dispatch.lean ====
section
/-!
DEFINITION. One arm per row of spec/opcode_table.json.
-/

namespace Sys2Proof.Machine

/-- The effect of a command or event on everything but the queue. -/
def exec (i : Instr) (s : State) : Host.Outcome State Fault Refusal :=
  match i with
  | .hatchDoorbell w => Sys2Proof.Machine.execHatchDoorbell w s
  | .hatchDoneWrite w => Sys2Proof.Machine.execHatchDoneWrite w s
  | .hostErrWrite w => Sys2Proof.Machine.execHostErrWrite w s
  | .gstatRead => Sys2Proof.Machine.execGstatRead s
  | .gloadRead => Sys2Proof.Machine.execGloadRead s
  | .lowWordRead port addr whole => Sys2Proof.Machine.execLowWordRead port addr s whole
  | .highWordRead port addr => Sys2Proof.Machine.execHighWordRead port addr s
  | .lowWordWrite port addr v => Sys2Proof.Machine.execLowWordWrite port addr v s
  | .highWordWrite port addr v low => Sys2Proof.Machine.execHighWordWrite port addr v s low
  | .nrCtrlWrite w => Sys2Proof.Machine.execNrCtrlWrite w s
  | .nrTailWrite w => Sys2Proof.Machine.execNrTailWrite w s
  | .nrDroppedRead => Sys2Proof.Machine.execNrDroppedRead s
  | .registerWrite addr v p => Sys2Proof.Machine.execRegisterWrite addr v s p
  | .mailboxTake => Sys2Proof.Machine.execMailboxTake s
  | .hatchPing mb => Sys2Proof.Machine.execHatchPing mb s
  | .paramGet mb => Sys2Proof.Machine.execParamGet mb s
  | .paramSet mb => Sys2Proof.Machine.execParamSet mb s
  | .paramCommit mb => Sys2Proof.Machine.execParamCommit mb s
  | .paramDiscard mb => Sys2Proof.Machine.execParamDiscard mb s
  | .paramInfo mb => Sys2Proof.Machine.execParamInfo mb s
  | .nrHoldoffExpire => Sys2Proof.Machine.execNrHoldoffExpire s
  | .loadWindowEnd load => Sys2Proof.Machine.execLoadWindowEnd load s
  | .hostLinkDown => Sys2Proof.Machine.execHostLinkDown s
  | .rollLoad mb => Sys2Proof.Machine.execRollLoad mb s
  | .rollCommit mb => Sys2Proof.Machine.execRollCommit mb s
  | .rollRead mb => Sys2Proof.Machine.execRollRead mb s
  | .rackPllLockStart k => Sys2Proof.Machine.execRackPllLockStart k s
  | .rackPllLocked k => Sys2Proof.Machine.execRackPllLocked k s
  | .laneClockLock lane => Sys2Proof.Machine.execLaneClockLock lane s
  | .lanePresetTrialEnd lane upper middle lower => Sys2Proof.Machine.execLanePresetTrialEnd lane upper middle lower s
  | .laneDfeConverged lane => Sys2Proof.Machine.execLaneDfeConverged lane s
  | .laneCheckWindowEnd lane errors => Sys2Proof.Machine.execLaneCheckWindowEnd lane errors s
  | .laneBlockLock lane => Sys2Proof.Machine.execLaneBlockLock lane s
  | .laneAttemptTimeout lane => Sys2Proof.Machine.execLaneAttemptTimeout lane s
  | .laneRetryEnd lane => Sys2Proof.Machine.execLaneRetryEnd lane s
  | .laneSignalDetectChange lane level => Sys2Proof.Machine.execLaneSignalDetectChange lane level s
  | .laneAutoRetrain lane => Sys2Proof.Machine.execLaneAutoRetrain lane s
  | .laneHuntTimeout lane => Sys2Proof.Machine.execLaneHuntTimeout lane s
  | .rackPllUnlock k => Sys2Proof.Machine.execRackPllUnlock k s
  | .crcWindowEnd lane => Sys2Proof.Machine.execCrcWindowEnd lane s
  | .dfeAdaptInterval lane s1 s2 s3 s4 s5 => Sys2Proof.Machine.execDfeAdaptInterval lane s1 s2 s3 s4 s5 s
  | .eyeWindowEnd lane upper middle lower => Sys2Proof.Machine.execEyeWindowEnd lane upper middle lower s
  | .laneIdleEnter lane => Sys2Proof.Machine.execLaneIdleEnter lane s
  | .idleMaxGapWake lane => Sys2Proof.Machine.execIdleMaxGapWake lane s
  | .wakeBurstRx lane => Sys2Proof.Machine.execWakeBurstRx lane s
  | .wakeMarkerTimeout lane => Sys2Proof.Machine.execWakeMarkerTimeout lane s
  | .idleGapTimeout lane => Sys2Proof.Machine.execIdleGapTimeout lane s
  | .testCheckerLock lane x0 x1 x2 x3 => Sys2Proof.Machine.execTestCheckerLock lane x0 x1 x2 x3 s
  | .laneRetrain mb => Sys2Proof.Machine.execLaneRetrain mb s
  | .laneHalt mb => Sys2Proof.Machine.execLaneHalt mb s
  | .laneTestStart mb => Sys2Proof.Machine.execLaneTestStart mb s
  | .laneTestStop mb => Sys2Proof.Machine.execLaneTestStop mb s
  | .laneTestRead mb => Sys2Proof.Machine.execLaneTestRead mb s
  | .downstreamSlot lane => Sys2Proof.Machine.execDownstreamSlot lane s
  | .blockCrcFail lane => Sys2Proof.Machine.execBlockCrcFail lane s
  | .misdirectedRx lane h => Sys2Proof.Machine.execMisdirectedRx lane h s
  | .sampleRx lane h p => Sys2Proof.Machine.execSampleRx lane h p s
  | .nodeEdgeRx lane h p => Sys2Proof.Machine.execNodeEdgeRx lane h p s
  | .healthRx lane h p => Sys2Proof.Machine.execHealthRx lane h p s
  | .paramAckRx lane h p => Sys2Proof.Machine.execParamAckRx lane h p s
  | .faultRx lane h p => Sys2Proof.Machine.execFaultRx lane h p s
  | .streamRx lane h p => Sys2Proof.Machine.execStreamRx lane h p s
  | .timeSyncReplyRx lane h p => Sys2Proof.Machine.execTimeSyncReplyRx lane h p s
  | .authIdentRx lane h p => Sys2Proof.Machine.execAuthIdentRx lane h p s
  | .authChallengeRx lane h p => Sys2Proof.Machine.execAuthChallengeRx lane h p s
  | .authResponseRx lane h p => Sys2Proof.Machine.execAuthResponseRx lane h p s
  | .authResultRx lane h p => Sys2Proof.Machine.execAuthResultRx lane h p s
  | .roleRepeatDue lane => Sys2Proof.Machine.execRoleRepeatDue lane s
  | .paramRetryTimeout lane => Sys2Proof.Machine.execParamRetryTimeout lane s
  | .authTimeout lane => Sys2Proof.Machine.execAuthTimeout lane s
  | .authRetryExpire lane => Sys2Proof.Machine.execAuthRetryExpire lane s
  | .upLossTimeout lane => Sys2Proof.Machine.execUpLossTimeout lane s
  | .epParam mb => Sys2Proof.Machine.execEpParam mb s
  | .epReauth mb => Sys2Proof.Machine.execEpReauth mb s
  | .tsIntervalExpire lane => Sys2Proof.Machine.execTsIntervalExpire lane s
  | .syncRx port h p => Sys2Proof.Machine.execSyncRx port h p s
  | .delayRespRx port h p => Sys2Proof.Machine.execDelayRespRx port h p s
  | .ringTimeSend => Sys2Proof.Machine.execRingTimeSend s
  | .ringTimeRx side h p => Sys2Proof.Machine.execRingTimeRx side h p s
  | .timeNeighbourTimeout => Sys2Proof.Machine.execTimeNeighbourTimeout s
  | .masterLossExpire => Sys2Proof.Machine.execMasterLossExpire s
  | .staFrameRx port frame => Sys2Proof.Machine.execStaFrameRx port frame s
  | .staLinkUp port align => Sys2Proof.Machine.execStaLinkUp port align s
  | .ptpMessageTimer port kind => Sys2Proof.Machine.execPtpMessageTimer port kind s
  | .staLaunchDue port => Sys2Proof.Machine.execStaLaunchDue port s
  | .tcapCapture w => Sys2Proof.Machine.execTcapCapture w s
  | .timeCapInEdge rising ticks => Sys2Proof.Machine.execTimeCapInEdge rising s ticks
  | .tcapStatusWrite w => Sys2Proof.Machine.execTcapStatusWrite w s
  | .ppsSecond => Sys2Proof.Machine.execPpsSecond s
  | .ppsPulseEnd => Sys2Proof.Machine.execPpsPulseEnd s
  | .timeSet mb => Sys2Proof.Machine.execTimeSet mb s
  | .timeMasterSet mb => Sys2Proof.Machine.execTimeMasterSet mb s
  | .ringMasterRx side h p => Sys2Proof.Machine.execRingMasterRx side h p s
  | .timeMasterSetTimeout => Sys2Proof.Machine.execTimeMasterSetTimeout s
  | .staLaunch mb => Sys2Proof.Machine.execStaLaunch mb s
  | .staStampRead mb => Sys2Proof.Machine.execStaStampRead mb s
  | .stringBoundary str => Sys2Proof.Machine.execStringBoundary str s
  | .planComplete str => Sys2Proof.Machine.execPlanComplete str s
  | .shelfEntryExpire lane => Sys2Proof.Machine.execShelfEntryExpire lane s
  | .stringStart mb => Sys2Proof.Machine.execStringStart mb s
  | .stringStop mb => Sys2Proof.Machine.execStringStop mb s
  | .rawEdgeLoad mb => Sys2Proof.Machine.execRawEdgeLoad mb s
  | .stringFirstOutput str => Sys2Proof.Machine.execStringFirstOutput str s
  | .stringStopOutput str => Sys2Proof.Machine.execStringStopOutput str s
  | .dtJudgeTimeout lane leg => Sys2Proof.Machine.execDtJudgeTimeout lane leg s
  | .sortStatsFormed str => Sys2Proof.Machine.execSortStatsFormed str s
  | .twinOrderTimeout str => Sys2Proof.Machine.execTwinOrderTimeout str s
  | .dtReset mb => Sys2Proof.Machine.execDtReset mb s
  | .sortRead mb => Sys2Proof.Machine.execSortRead mb s
  | .controlBoundary => Sys2Proof.Machine.execControlBoundary s
  | .walkComplete => Sys2Proof.Machine.execWalkComplete s
  | .loopLoad mb => Sys2Proof.Machine.execLoopLoad mb s
  | .loopCommit mb => Sys2Proof.Machine.execLoopCommit mb s
  | .larderWrite mb => Sys2Proof.Machine.execLarderWrite mb s
  | .larderRead mb => Sys2Proof.Machine.execLarderRead mb s
  | .leStart mb => Sys2Proof.Machine.execLeStart mb s
  | .leStop mb => Sys2Proof.Machine.execLeStop mb s
  | .loopPreset mb => Sys2Proof.Machine.execLoopPreset mb s
  | .protSourceStale str => Sys2Proof.Machine.execProtSourceStale str s
  | .uvArmExpire str => Sys2Proof.Machine.execUvArmExpire str s
  | .stringTrip mb => Sys2Proof.Machine.execStringTrip mb s
  | .tripClear mb => Sys2Proof.Machine.execTripClear mb s
  | .cellBypass mb => Sys2Proof.Machine.execCellBypass mb s
  | .cellRelease mb => Sys2Proof.Machine.execCellRelease mb s
  | .rideCmd mb => Sys2Proof.Machine.execRideCmd mb s
  | .mvReturnTimeExpire => Sys2Proof.Machine.execMvReturnTimeExpire s
  | .dewHoldExpire => Sys2Proof.Machine.execDewHoldExpire s
  | .dewTimeoutExpire => Sys2Proof.Machine.execDewTimeoutExpire s
  | .pcTimeoutExpire => Sys2Proof.Machine.execPcTimeoutExpire s
  | .syncTimeoutExpire => Sys2Proof.Machine.execSyncTimeoutExpire s
  | .stageGapExpire => Sys2Proof.Machine.execStageGapExpire s
  | .peerAliveTimeout => Sys2Proof.Machine.execPeerAliveTimeout s
  | .serviceSlot port => Sys2Proof.Machine.execServiceSlot port s
  | .twRoleRx side h p => Sys2Proof.Machine.execTwRoleRx side h p s
  | .twCompareRx side h part p => Sys2Proof.Machine.execTwCompareRx side h part p s
  | .compareDeadline => Sys2Proof.Machine.execCompareDeadline s
  | .twTripRx side h p => Sys2Proof.Machine.execTwTripRx side h p s
  | .twFwdRx side h p => Sys2Proof.Machine.execTwFwdRx side h p s
  | .twAckRx side h p => Sys2Proof.Machine.execTwAckRx side h p s
  | .twFwdTimeout => Sys2Proof.Machine.execTwFwdTimeout s
  | .twStateRx side h m => Sys2Proof.Machine.execTwStateRx side h m s
  | .twHealthRx side h p => Sys2Proof.Machine.execTwHealthRx side h p s
  | .twCaseRx side h p => Sys2Proof.Machine.execTwCaseRx side h p s
  | .twSurrenderRx side h p => Sys2Proof.Machine.execTwSurrenderRx side h p s
  | .twResetRx side h p => Sys2Proof.Machine.execTwResetRx side h p s
  | .twinStreamLost => Sys2Proof.Machine.execTwinStreamLost s
  | .selftestPeriod bit result => Sys2Proof.Machine.execSelftestPeriod bit result s
  | .twHealthPeriod => Sys2Proof.Machine.execTwHealthPeriod s
  | .qualifyComplete => Sys2Proof.Machine.execQualifyComplete s
  | .twinLanesDownTimeout => Sys2Proof.Machine.execTwinLanesDownTimeout s
  | .twinStandbyTimeout => Sys2Proof.Machine.execTwinStandbyTimeout s
  | .twinSwitchBoundary => Sys2Proof.Machine.execTwinSwitchBoundary s
  | .switchHandoverEnd => Sys2Proof.Machine.execSwitchHandoverEnd s
  | .caseReplayDone reproduced => Sys2Proof.Machine.execCaseReplayDone reproduced s
  | .refereeReplayDone head matchActive matchStandby => Sys2Proof.Machine.execRefereeReplayDone head matchActive matchStandby s
  | .arbVdStable code => Sys2Proof.Machine.execArbVdStable code s
  | .refTimeoutExpire => Sys2Proof.Machine.execRefTimeoutExpire s
  | .roleSet mb => Sys2Proof.Machine.execRoleSet mb s
  | .twinSwitch mb => Sys2Proof.Machine.execTwinSwitch mb s
  | .unitReset mb => Sys2Proof.Machine.execUnitReset mb s
  | .unitResetDelay => Sys2Proof.Machine.execUnitResetDelay s
  | .twinResync mb => Sys2Proof.Machine.execTwinResync mb s
  | .ringCensusRx side h p => Sys2Proof.Machine.execRingCensusRx side h p s
  | .ringSummaryRx side h p => Sys2Proof.Machine.execRingSummaryRx side h p s
  | .ringWriteRx side h p mgmt => Sys2Proof.Machine.execRingWriteRx side h p s mgmt
  | .ringHealthRx side h p => Sys2Proof.Machine.execRingHealthRx side h p s
  | .ringRefRx side h p => Sys2Proof.Machine.execRingRefRx side h p s
  | .censusPeriod => Sys2Proof.Machine.execCensusPeriod s
  | .censusNodeTimeout node => Sys2Proof.Machine.execCensusNodeTimeout node s
  | .pantryHostRead addr mgmt ring p => Sys2Proof.Machine.execPantryHostRead addr mgmt ring s p
  | .pantryHostWrite addr v be mgmt ring p => Sys2Proof.Machine.execPantryHostWrite addr v be mgmt ring s p
  | .bankIdleTimeout bank => Sys2Proof.Machine.execBankIdleTimeout bank s
  | .bankClearDone bank => Sys2Proof.Machine.execBankClearDone bank s
  | .tamperCoreEvent => Sys2Proof.Machine.execTamperCoreEvent s
  | .strongboxWipeDone => Sys2Proof.Machine.execStrongboxWipeDone s
  | .hkRound => Sys2Proof.Machine.execHkRound s
  | .adcConversionDone pair codeE codeO => Sys2Proof.Machine.execAdcConversionDone pair codeE codeO s
  | .hkPairSleep pair => Sys2Proof.Machine.execHkPairSleep pair s
  | .hkWakeDone pair => Sys2Proof.Machine.execHkWakeDone pair s
  | .fanTachEdge fan => Sys2Proof.Machine.execFanTachEdge fan s
  | .fanPulseTimeout fan => Sys2Proof.Machine.execFanPulseTimeout fan s
  | .hkConvert mb => Sys2Proof.Machine.execHkConvert mb s
  | .thermRead mb => Sys2Proof.Machine.execThermRead mb s
  | .thermClear mb => Sys2Proof.Machine.execThermClear mb s
  | .auxPeriodBoundary b => Sys2Proof.Machine.execAuxPeriodBoundary b s
  | .auxScheduledEdge b => Sys2Proof.Machine.execAuxScheduledEdge b s
  | .auxOffRise b k => Sys2Proof.Machine.execAuxOffRise b k s
  | .auxConfTimeoutExpire b k => Sys2Proof.Machine.execAuxConfTimeoutExpire b k s
  | .auxOffStuckTimeout b k => Sys2Proof.Machine.execAuxOffStuckTimeout b k s
  | .auxSgFilterExpire b k => Sys2Proof.Machine.execAuxSgFilterExpire b k s
  | .auxNodeChange b p level => Sys2Proof.Machine.execAuxNodeChange b p level s
  | .auxNodeWindowEnd b p => Sys2Proof.Machine.execAuxNodeWindowEnd b p s
  | .auxTripPinEdge b n1 level => Sys2Proof.Machine.execAuxTripPinEdge b n1 level s
  | .auxTripActive b n1 => Sys2Proof.Machine.execAuxTripActive b n1 s
  | .auxDriveStart => Sys2Proof.Machine.execAuxDriveStart s
  | .auxTripClear mb => Sys2Proof.Machine.execAuxTripClear mb s
  | .auxSafe mb => Sys2Proof.Machine.execAuxSafe mb s
  | .posEdge ch a b => Sys2Proof.Machine.execPosEdge ch a b s
  | .posIndex ch => Sys2Proof.Machine.execPosIndex ch s
  | .posWireFilterExpire ch pair => Sys2Proof.Machine.execPosWireFilterExpire ch pair s
  | .posSpeedWindow ch => Sys2Proof.Machine.execPosSpeedWindow ch s
  | .posZeroTimeout ch => Sys2Proof.Machine.execPosZeroTimeout ch s
  | .posCmpPulseEnd u => Sys2Proof.Machine.execPosCmpPulseEnd u s
  | .posSet mb => Sys2Proof.Machine.execPosSet mb s
  | .safeInputEdge inp level => Sys2Proof.Machine.execSafeInputEdge inp level s
  | .safeDemandFilter inp => Sys2Proof.Machine.execSafeDemandFilter inp s
  | .safeDiscrepancyTimeout fn => Sys2Proof.Machine.execSafeDiscrepancyTimeout fn s
  | .safeTestPulse out own cross => Sys2Proof.Machine.execSafeTestPulse out own cross s
  | .safeSealCheck sealV => Sys2Proof.Machine.execSafeSealCheck sealV s
  | .safeClockCheck deviation => Sys2Proof.Machine.execSafeClockCheck deviation s
  | .safeChannelExchange pPermit hPermit inputsDiffer => Sys2Proof.Machine.execSafeChannelExchange pPermit hPermit inputsDiffer s
  | .safeSelftest test result => Sys2Proof.Machine.execSafeSelftest test result s
  | .safeSupplyOut => Sys2Proof.Machine.execSafeSupplyOut s
  | .safeSupplyReturn => Sys2Proof.Machine.execSafeSupplyReturn s
  | .safeStartDone sealV => Sys2Proof.Machine.execSafeStartDone sealV s
  | .safeResetRelease => Sys2Proof.Machine.execSafeResetRelease s
  | .safeLcClearExpire => Sys2Proof.Machine.execSafeLcClearExpire s
  | .safeEdmTimeout => Sys2Proof.Machine.execSafeEdmTimeout s
  | .safeReadbackTimeout out => Sys2Proof.Machine.execSafeReadbackTimeout out s
  | .safeChainMeasure chain period => Sys2Proof.Machine.execSafeChainMeasure chain period s
  | .safeLoopBrokenTimeout chain => Sys2Proof.Machine.execSafeLoopBrokenTimeout chain s
  | .safeDemandDue => Sys2Proof.Machine.execSafeDemandDue s
  | .safeMirrorSend => Sys2Proof.Machine.execSafeMirrorSend s
  | .safeMirrorRx => Sys2Proof.Machine.execSafeMirrorRx s
  | .safeMirrorTimeout => Sys2Proof.Machine.execSafeMirrorTimeout s
  | .safePermitLineChange level => Sys2Proof.Machine.execSafePermitLineChange level s
  | .energyCopyPeriod => Sys2Proof.Machine.execEnergyCopyPeriod s
  | .demandIntervalEnd => Sys2Proof.Machine.execDemandIntervalEnd s
  | .rtcSecond => Sys2Proof.Machine.execRtcSecond s
  | .enGraceExpire port => Sys2Proof.Machine.execEnGraceExpire port s
  | .energyRead mb => Sys2Proof.Machine.execEnergyRead mb s
  | .demandReset mb => Sys2Proof.Machine.execDemandReset mb s
  | .rtcSet mb => Sys2Proof.Machine.execRtcSet mb s
  | .tampZeroise mb => Sys2Proof.Machine.execTampZeroise mb s
  | .tamperSample levels => Sys2Proof.Machine.execTamperSample levels s
  | .oscStopDetect => Sys2Proof.Machine.execOscStopDetect s
  | .vbatLowDetect mv => Sys2Proof.Machine.execVbatLowDetect mv s
  | .tamperLogCopy => Sys2Proof.Machine.execTamperLogCopy s
  | .batterySwitchover toVbat => Sys2Proof.Machine.execBatterySwitchover toVbat s
  | .faultRecordMirror id => Sys2Proof.Machine.execFaultRecordMirror id s
  | .faultChipResetDue => Sys2Proof.Machine.execFaultChipResetDue s
  | .faultRead mb => Sys2Proof.Machine.execFaultRead mb s
  | .faultClear mb => Sys2Proof.Machine.execFaultClear mb s
  | .faultInject mb => Sys2Proof.Machine.execFaultInject mb s
  | .loftWrite mb => Sys2Proof.Machine.execLoftWrite mb s
  | .loftVerify mb => Sys2Proof.Machine.execLoftVerify mb s
  | .loftSchedule mb => Sys2Proof.Machine.execLoftSchedule mb s
  | .loftActivateAt => Sys2Proof.Machine.execLoftActivateAt s
  | .fwConfirm => Sys2Proof.Machine.execFwConfirm s
  | .fwConfirmTimeout => Sys2Proof.Machine.execFwConfirmTimeout s
  | .epImageStore mb => Sys2Proof.Machine.execEpImageStore mb s
  | .epImageSend mb => Sys2Proof.Machine.execEpImageSend mb s
  | .pkgApply mb => Sys2Proof.Machine.execPkgApply mb s
  | .ownerLock mb => Sys2Proof.Machine.execOwnerLock mb s
  | .lcSet mb => Sys2Proof.Machine.execLcSet mb s
  | .atticRead mb => Sys2Proof.Machine.execAtticRead mb s
  | .supplyMonitorLow rail => Sys2Proof.Machine.execSupplyMonitorLow rail s
  | .supplyMonitorRestore => Sys2Proof.Machine.execSupplyMonitorRestore s
  | .resetNAssert => Sys2Proof.Machine.execResetNAssert s
  | .resetNRelease => Sys2Proof.Machine.execResetNRelease s
  | .clockLoss => Sys2Proof.Machine.execClockLoss s
  | .clockRestored => Sys2Proof.Machine.execClockRestored s
  | .mainPllLock hostSel => Sys2Proof.Machine.execMainPllLock s hostSel
  | .syncInEdge => Sys2Proof.Machine.execSyncInEdge s
  | .clockDivBoundary => Sys2Proof.Machine.execClockDivBoundary s
  | .watchdogExpire => Sys2Proof.Machine.execWatchdogExpire s
  | .bootRomCheckDone => Sys2Proof.Machine.execBootRomCheckDone s
  | .ubferReady => Sys2Proof.Machine.execUbferReady s
  | .dbgUnlock mb => Sys2Proof.Machine.execDbgUnlock mb s
  | .dbgLock mb => Sys2Proof.Machine.execDbgLock mb s
  | .dbgOpeningExpire => Sys2Proof.Machine.execDbgOpeningExpire s
  | .jtagInstructionLoad n1 => Sys2Proof.Machine.execJtagInstructionLoad n1 s
  | .extestExit => Sys2Proof.Machine.execExtestExit s
  | .debugHalt core => Sys2Proof.Machine.execDebugHalt core s
  | .debugResume core => Sys2Proof.Machine.execDebugResume core s
  | .debugStep core => Sys2Proof.Machine.execDebugStep core s
  | .debugBreakpointHit core => Sys2Proof.Machine.execDebugBreakpointHit core s
  | .debugMemAccess space addr write => Sys2Proof.Machine.execDebugMemAccess space addr write s
  | .idleBlockRx lane h => Sys2Proof.Machine.execIdleBlockRx lane h s
  | .twinAliveInEdge => Sys2Proof.Machine.execTwinAliveInEdge s
  | .auxSgEdge b k level => Sys2Proof.Machine.execAuxSgEdge b k level s
  | .posPinEdge ch line plus minus => Sys2Proof.Machine.execPosPinEdge ch line plus minus s
  | .vddFieldLoss => Sys2Proof.Machine.execVddFieldLoss s
  | .vddFieldReturn => Sys2Proof.Machine.execVddFieldReturn s
  | .batteryDomainPowerLoss => Sys2Proof.Machine.execBatteryDomainPowerLoss s
  | .batteryDomainPowerReturn => Sys2Proof.Machine.execBatteryDomainPowerReturn s
  | .pcieLinkTrained => Sys2Proof.Machine.execPcieLinkTrained s
  | .safeFunctionPermitFilter fn => Sys2Proof.Machine.execSafeFunctionPermitFilter fn s
  | .safeThcPairTimeout hand => Sys2Proof.Machine.execSafeThcPairTimeout hand s

end Sys2Proof.Machine
end

