-- ==== Sys2Proof/Machine/Idle.lean ====
section
/-!
DEFINITION. The passing of time: one tick of 125 ps of elapsed time, which moves tick time on at its rate (R187, R190, log 1).
-/

namespace Sys2Proof.Machine

/-- Tick time after one tick of elapsed time at TIME_RATE, in parts per 10^9 (R187, R190, log 1). -/
def TimeUnit.advance (t : TimeUnit) : TimeUnit :=
  if t.running then
    let f := ((t.frac : Int) + 1000000000 + t.rate).toNat
    { t with tick := (t.tick + f / 1000000000) % 2 ^ 64, frac := f % 1000000000 }
  else t

/-- One tick of elapsed time (log 1, log 105). -/
def State.idle (s : State) : State := (s.updMono (· + 1)).updTime TimeUnit.advance

end Sys2Proof.Machine
end

