-- ==== Sys2Proof/Safety.lean ====
section
/-!
DEFINITION. What counts as a safe run, in the words the statements use: the parts of the state, what a step leaves alone, the
bounds the state keeps, and how a command completes.
-/

namespace Sys2Proof.Machine

/-! ### What a step leaves alone -/

/-- The parts of the state: one per field of State. -/
inductive Part where
  | pending | mono | freeCount | todo | hatch | notif | par | faults | sys | time | sta | twin | bat | pantry | lanes | roll
  | links | mod | prot | dt | le | ring | hk | aux | pos | safe | en | fw
deriving DecidableEq, Repr

/-- A part has the same contents in two states. -/
def Part.same (p : Part) (s t : State) : Prop :=
  match p with
  | .pending => t.pending = s.pending
  | .mono => t.mono = s.mono
  | .freeCount => t.freeCount = s.freeCount
  | .todo => t.todo = s.todo
  | .hatch => t.hatch = s.hatch
  | .notif => t.notif = s.notif
  | .par => t.par = s.par
  | .faults => t.faults = s.faults
  | .sys => t.sys = s.sys
  | .time => t.time = s.time
  | .sta => t.sta = s.sta
  | .twin => t.twin = s.twin
  | .bat => t.bat = s.bat
  | .pantry => t.pantry = s.pantry
  | .lanes => t.lanes = s.lanes
  | .roll => t.roll = s.roll
  | .links => t.links = s.links
  | .mod => t.mod = s.mod
  | .prot => t.prot = s.prot
  | .dt => t.dt = s.dt
  | .le => t.le = s.le
  | .ring => t.ring = s.ring
  | .hk => t.hk = s.hk
  | .aux => t.aux = s.aux
  | .pos => t.pos = s.pos
  | .safe => t.safe = s.safe
  | .en => t.en = s.en
  | .fw => t.fw = s.fw

/-- A state differs from another in the listed parts at most. -/
def Only (l : List Part) (s t : State) : Prop := ∀ p : Part, p ∉ l → p.same s t

/-! ### The bounds the state keeps -/

/-- The fault collector's bounds: at most 64 open records (R583) and an attic log of its size (R619). -/
structure Faults.Ok (f : Faults) : Prop where
  /-- At most 64 records are open. -/
  recs : f.open_.length ≤ 64
  /-- The attic log holds at most its 30,720 entries (R619). -/
  attic : f.attic.length ≤ 30720

/-- The notification unit's bounds: a hold queue of 64 entries (R673), ring indices of 8 bits (R82), a ring below the strongbox
(R82), a shedding level up to 3 (R89) and load figures in ‰ (R55, R87). -/
structure Notif.Ok (n : Notif) : Prop where
  /-- The hold queue holds at most 64 entries. -/
  hold : n.hold.length ≤ 64
  /-- HEAD is an index of the ring. -/
  head : n.head < 256
  /-- TAIL is an index of the ring. -/
  tail : n.tail < 256
  /-- The ring lies below bank 14. -/
  base : n.base < 0xE0
  /-- The shedding level. -/
  shed : n.shed ≤ 3
  /-- MP_LOAD. -/
  load : n.mpLoad ≤ 1000
  /-- MP_LOAD_PEAK. -/
  peak : n.mpPeak ≤ 1000

/-- What every state of a run keeps. -/
structure State.Inv (s : State) : Prop where
  /-- The pantry's memory keeps its canonical form. -/
  mem : s.pantry.mem.wf = true
  /-- The fault collector's bounds. -/
  faults : s.faults.Ok
  /-- The notification unit's bounds. -/
  notif : s.notif.Ok

/-! ### Completion -/

/-- Whether an outcome is a next state. -/
def goesOn (o : Host.Outcome State Fault Refusal) : Prop := ∃ t, o = .next t

/-- The outcome is a next state of which something holds. -/
def Next (o : Host.Outcome State Fault Refusal) (P : State → Prop) : Prop := ∃ t, o = .next t ∧ P t

/-- The outcome is a next state: the one of which something holds, once the acts it has set off in other blocks are taken
(settle, log 5). -/
def Lands (o : Host.Outcome State Fault Refusal) (P : State → Prop) : Prop := ∃ e, o = .next e.settle ∧ P e

/-- No act waits, and the restart sequence is not waiting for a string: nothing is left for settle to take. -/
def State.atRest (s : State) : Prop := s.todo = [] ∧ s.prot.ride.st ≠ .enable

/-! ### Lanes -/

/-- A lane takes received blocks, and the block's ETAG is of the unit's role epoch (R109, R148). -/
structure State.Takes (s : State) (lane : Nat) (h : RxHeader) : Prop where
  /-- The lane is block-locked. -/
  receives : (s.lane lane).st.receives = true
  /-- The tag. -/
  tag : h.etag.toNat = s.twin.epoch % 4

/-- A ring block is taken: the lane is block-locked, the block's epoch is not older than the one held for its source, the source is
another node, and the destination is this node or every node (R405, R408, R409). -/
structure State.RingTakes (s : State) (side : RingSide) (p : BitVec 96) : Prop where
  /-- The lane is block-locked. -/
  receives : (s.lane (ringLane side)).st.receives = true
  /-- The epoch. -/
  fresh : s.ringStale p = false
  /-- Another node sent it. -/
  source : pbits p 95 91 ≠ s.node
  /-- It is for this node. -/
  dest : pbits p 90 86 = s.node ∨ pbits p 90 86 = allNodes

/-- A twin block is taken: the lane is block-locked, and the other lane has not delivered the block before (R371). -/
structure State.TwinTakes (s : State) (side : TwinSide) (h : RxHeader) : Prop where
  /-- The lane is block-locked. -/
  receives : (s.lane (twinLane side)).st.receives = true
  /-- It is the first copy. -/
  first : ∀ q, s.twin.rxSeq = some q → 0 < sdiff 8 h.seq.toNat q

/-- A block of a service lane is taken: the lane is block-locked, a twin block is the first copy and its ETAG is of the unit's role epoch; a ring
block's epoch is judged otherwise (R371, R372, R409). -/
structure State.SvcTakes (s : State) (port : ServiceLane) (h : RxHeader) : Prop where
  /-- The lane is block-locked. -/
  receives : (s.lane (svcLane port)).st.receives = true
  /-- The tag. -/
  tag : s.tagOk (svcLane port) h = true
  /-- It is the first copy. -/
  first : 130 ≤ svcLane port → ∀ q, s.twin.rxSeq = some q → 0 < sdiff 8 h.seq.toNat q

/-- Between two states no link changes but a lane's own. -/
def State.OneLink (s t : State) (lane : Nat) : Prop := ∀ m, m ≠ lane → t.lnk m = s.lnk m

/-- Between two states no lane changes but one. -/
def State.OneLane (s t : State) (lane : Nat) : Prop := ∀ m, m ≠ lane → t.lane m = s.lane m

/-- The state a lane comes to by an attempt with a fresh retry count: OFF while it is unused or its PLL is not locked (R108), HALTED while its
unit holds it so (R370). -/
def State.freshSt (s : State) (lane : Nat) : LaneSt :=
  if s.laneUnused lane = true ∨ (s.rack (rackOf lane)).st ≠ .locked then .off else if s.laneHeld lane = true then .halted else .trainCdr

/-! ### Faults -/

/-- Between two states one fault source has fired once: its count of firings has risen by one, up to its maximum (R583, R593). -/
def State.Fired (s t : State) (src : Nat) : Prop := t.faults.firings.get 0 src = min (2 ^ 32 - 1) (s.faults.firings.get 0 src + 1)

/-! ### Commands of the hatch -/

/-- A mailbox executes a request with an opcode: the request is taken, its reply is not formed and waits for nothing, its EPOCH is
the unit's role epoch, and no request taken before it has still to begin (R61, R63, R71). -/
structure State.Runs (s : State) (mb : Nat) (op : Nat) (q : Request) : Prop where
  /-- The request taken. -/
  taken : (s.box mb).taken = some q
  /-- The mailbox is ACTIVE. -/
  active : (s.box mb).state = .active
  /-- Nothing is waited for. -/
  waits : (s.box mb).waiting = .none
  /-- The opcode. -/
  opcode : q.opcode = op
  /-- The epoch. -/
  epoch : q.epoch = s.twin.epoch
  /-- The requests taken before it have begun (R63). -/
  turn : s.myTurn mb = true

/-- Nothing turns a configuration write of a page away: no switch of roles hands over (R387), no package of another mailbox writes the page
(R614), and a unit with a standby can forward it, the twin link being up or the peer silent (R373). -/
structure State.Writes (s : State) (mb pg : Nat) : Prop where
  /-- No switch of roles. -/
  handover : s.twin.handoverUntil = none
  /-- No package on the page. -/
  package : s.pkgHolds mb pg = false
  /-- A standby can be told. -/
  barred : s.forwardBarred = false

/-- The next state's mailboxes are those of a state but for one, which has completed its request with a reply (R61, R66); a completed
request is kept with its reply, but for BUSY (R69). -/
structure State.Replies (s t : State) (mb : Nat) (q : Request) (status : Nat) (payload : Bytes) : Prop where
  /-- The mailbox is DONE. -/
  done : (t.box mb).state = .done
  /-- It holds no request. -/
  taken : (t.box mb).taken = none
  /-- The reply. -/
  reply : (t.box mb).reply = replyBytes status q.seq s.twin.epoch payload
  /-- What is kept. -/
  kept : (t.box mb).kept = if status = stBusy then (s.box mb).kept
    else some { req := q, reply := replyBytes status q.seq s.twin.epoch payload }
  /-- The request area. -/
  request : (t.box mb).request = (s.box mb).request
  /-- Every other mailbox. -/
  others : ∀ n, n ≠ mb → t.box n = s.box n

/-- The next state's mailboxes are those of a state but for one, whose request a generic check has answered (R674): what it keeps of the
request before stays (R69). -/
structure State.Turned (s t : State) (mb : Nat) (q : Request) (status : Nat) (payload : Bytes) : Prop where
  /-- The mailbox is DONE. -/
  done : (t.box mb).state = .done
  /-- It holds no request. -/
  taken : (t.box mb).taken = none
  /-- The reply. -/
  reply : (t.box mb).reply = replyBytes status q.seq s.twin.epoch payload
  /-- What is kept. -/
  kept : (t.box mb).kept = (s.box mb).kept

/-- The next state's mailboxes are those of a state but for one, whose request goes to the standby and whose reply OK waits for the
acknowledgement (R72, R373). -/
structure State.Forwards (s t : State) (mb : Nat) (payload : Bytes) : Prop where
  /-- The mailbox waits. -/
  box : t.box mb = { s.box mb with waiting := .standbyAck stOk payload, held := (t.box mb).held }
  /-- Every other mailbox. -/
  others : ∀ n, n ≠ mb → t.box n = s.box n
  /-- The transfer. -/
  sent : t.twin.fwdOut = s.twin.fwdOut ++ [{ mb, xfer := s.twin.xfer, at_ := s.mono }]

/-- A configuration write is accepted: answered OK, or, where the unit has a standby, forwarded to it with the reply waiting (R72). -/
def State.Accepts (s t : State) (mb : Nat) (q : Request) (payload : Bytes) : Prop :=
  if s.hasStandby then s.Forwards t mb payload else s.Replies t mb q stOk payload

/-- A configuration write is accepted as State.Accepts says it of its own mailbox, where its effect may also answer others (R72, R362). -/
def State.Answers (s t : State) (mb : Nat) (q : Request) (payload : Bytes) : Prop :=
  if s.hasStandby then (t.box mb).waiting = .standbyAck stOk payload
  else (t.box mb).state = .done ∧ (t.box mb).taken = none ∧ (t.box mb).reply = replyBytes stOk q.seq s.twin.epoch payload

/-- A state differs from another in the listed parts and the hatch at most, and, where the unit has a standby, in what the forwarding of
the request takes: the twin's transfers and the twin lanes' queue. -/
def OnlyWrite (l : List Part) (s t : State) : Prop := Only (.hatch :: (if s.hasStandby then [.twin, .links] else []) ++ l) s t

/-- A claim of the mastership comes to its point of commitment: a newer generation or, in the same, a lower head that has been adopted meanwhile ends
it with REFUSED; else its generation and its head are adopted, and each request for it is answered (R227). -/
structure State.CommitsMaster (s t : State) (c : MasterClaim) : Prop where
  /-- No claim is out. -/
  claim : t.time.claim = none
  /-- Tick time goes on. -/
  tick : t.time.tick = s.time.tick
  /-- The generation and the head. -/
  taken : sdiff 16 s.time.gen c.gen < 0 ∨ (sdiff 16 s.time.gen c.gen = 0 ∧ c.head ≤ s.time.masterHead) →
    t.time.gen = c.gen ∧ t.time.masterHead = c.head
  /-- A claim that comes too late changes neither. -/
  left : 0 < sdiff 16 s.time.gen c.gen ∨ (sdiff 16 s.time.gen c.gen = 0 ∧ s.time.masterHead < c.head) →
    t.time.gen = s.time.gen ∧ t.time.masterHead = s.time.masterHead
  /-- The answers. -/
  answers : ∀ n ∈ c.mbs, ∀ q, (s.box n).taken = some q → (t.box n).state = .done ∧ (t.box n).taken = none ∧ (t.box n).reply =
    if 0 < sdiff 16 s.time.gen c.gen then replyBytes stRefused q.seq s.twin.epoch [0x39, 0, 0xFF, 0xFF]
    else if sdiff 16 s.time.gen c.gen = 0 ∧ s.time.masterHead < c.head then replyBytes stRefused q.seq s.twin.epoch [0x38, 0, 0xFF, 0xFF]
    else replyBytes stOk q.seq s.twin.epoch (leBytes 2 c.gen)

/-! ### Ports of the register window -/

/-- What an access by one port leaves of the ports: the others' latches and held words (R52, R53). -/
structure State.OtherPorts (s t : State) (p : AccessPort) : Prop where
  /-- The host port. -/
  host : portWide p = false → t.hatch.host = s.hatch.host
  /-- The debug port. -/
  debug : p ≠ .debug → t.hatch.jtag = s.hatch.jtag
  /-- The management processor. -/
  mp : p ≠ .mp → t.hatch.mp = s.hatch.mp

end Sys2Proof.Machine
end

