-- ==== Sys2Proof/Certificates/Slice0/Obligations.lean ====
section
/-!
DEFINITION. The statements for the provers: how the block steps, what every step keeps, and family by family what each command or event
does, what it answers and what it leaves alone.
-/

open Sys2Proof Sys2Proof.Machine Host

/-- How the block steps: a step on a queue with a command at its front is that command's effect on the state with the queue's rest; on an empty
queue one tick of elapsed time passes (log 1), which moves tick time and nothing else; and where no act waits and no restart waits for a
string, there is nothing left to settle (log 5). -/
def Obligations.StepRunsFront : Prop :=
  (∀ (c : Instr) (rest : List Instr) (s : State), s.pending = c :: rest → step s = exec c { s with pending := rest }) ∧
  (∀ s : State, s.pending = [] → Next (step s) fun t => Only [.mono, .time] s t ∧ t.mono = s.mono + 1 ∧
    t.time = { s.time with tick := t.time.tick, frac := t.time.frac } ∧
    (s.time.running = false → t.time = s.time) ∧
    (s.time.running = true → s.time.rate = 0 → s.time.frac < 1000000000 → t.time.tick = (s.time.tick + 1) % 2 ^ 64 ∧
      t.time.frac = s.time.frac)) ∧
  (∀ s : State, s.atRest → s.settle = s)

/-- What the start finds (R12, R55, R58, R84, R190, R191, R637): the mailboxes are idle, HOST_ERR and NR_ENABLE are 0, tick time is 0 in state FREE, the
role is NONE at epoch 0, every string is STOPPED, no lane is linked, nothing is pending, the fault collector holds no record, no parameter
has been written and the pantry lists no byte. -/
def Obligations.ResetState : Prop :=
  State.reset.pending = [] ∧ (∀ n, (State.reset.box n).state = .idle ∧ (State.reset.box n).held = []) ∧ State.reset.hatch.hostErr = 0 ∧
  State.reset.notif.enable = false ∧ State.reset.notif.hold = [] ∧ State.reset.now = 0 ∧ State.reset.time.state = .free ∧
  State.reset.time.rate = 0 ∧ State.reset.time.gen = 0 ∧ State.reset.twin.role = .none ∧ State.reset.twin.epoch = 0 ∧
  (∀ n, (State.reset.str n).st = .stopped ∧ (State.reset.prt n).mask = 0) ∧ (∀ n, (State.reset.lane n).st = .off) ∧
  State.reset.faults.open_ = [] ∧ State.reset.prot.ride.st = .grid ∧ State.reset.sys.stage = .bootRom ∧
  (∀ id n, State.reset.peff id n = paramReset id n) ∧ State.reset.pantry.mem = [] ∧ State.reset.safe.st = .start ∧
  State.reset.aux.driving = false ∧ State.reset.atRest

/-- The state after reset keeps the invariant: the pantry's canonical form and the bounds of the fault collector and the notification unit. -/
def Obligations.ResetInv : Prop :=
  State.reset.Inv

/-- Every step keeps the invariant: the pantry's memory stays in its canonical form, at most 64 fault records are open (R583), the attic log holds at
most 30,720 entries (R619), the hold queue at most 64 (R673), the ring's indices and base stay in range (R82), the shedding level at most 3
(R89) and the load figures at most 1,000 ‰ (R55). -/
def Obligations.InvKept : Prop :=
  ∀ s t : State, s.Inv → step s = .next t → t.Inv

/-- Every command and event of the block has a next state, which leaves the queue and the elapsed time alone. -/
def Obligations.EveryCommandCompletes : Prop :=
  ∀ (c : Instr) (s : State), Next (exec c s) fun t => t.pending = s.pending ∧ t.mono = s.mono

/-- R59, R60: a doorbell rings the idle and done mailboxes it names, in ascending order, and reports the others it names in HOST_ERR. HATCH_DONE
returns done mailboxes to IDLE. HOST_ERR bits clear where written 1. No other part of the state changes. -/
def Obligations.HatchDoorbells : Prop :=
  ∀ (w : Word) (s : State), s.sys.stage ≠ .inReset →
    (Next (exec (.hatchDoorbell w) s) fun t => Only [.hatch] s t ∧
      (∀ n, t.box n = if n < 8 ∧ w.getLsbD n = true ∧ ((s.box n).state = .idle ∨ (s.box n).state = .done)
        then { s.box n with state := .pending } else s.box n) ∧
      t.hatch.order = s.hatch.order ++ (List.range 8).filter (fun n => w.getLsbD n &&
        (decide ((s.box n).state = .idle) || decide ((s.box n).state = .done))) ∧
      (∀ i, t.hatch.hostErr.testBit i = true ↔ s.hatch.hostErr.testBit i = true ∨
        ∃ n < 8, w.getLsbD n = true ∧ ((s.box n).state = .pending ∨ (s.box n).state = .active) ∧ (i = 3 ∨ i = 8 + n))) ∧
    (Next (exec (.hatchDoneWrite w) s) fun t => Only [.hatch] s t ∧ t.hatch.order = s.hatch.order ∧ t.hatch.hostErr = s.hatch.hostErr ∧
      ∀ n, t.box n = if n < 8 ∧ w.getLsbD n = true ∧ (s.box n).state = .done then { s.box n with state := .idle } else s.box n) ∧
    (Next (exec (.hostErrWrite w) s) fun t => Only [.hatch] s t ∧ t.hatch.boxes = s.hatch.boxes ∧ t.hatch.order = s.hatch.order ∧
      ∀ i < 16, t.hatch.hostErr.testBit i = (s.hatch.hostErr.testBit i && !w.getLsbD i))

/-- R48, R49, R52: what a port's address reaches is read. A read of a low word returns the live low word and latches the high word of the same
instant under its offset; a read at the latched offset returns the latched word and clears the tag; any other read returns the live word and
leaves the latch; the reply area of an ACTIVE mailbox returns any word (R62). An access of 8 bytes returns both words and leaves the latch
(log 111). An address of neither BAR reads 0. Each port has a latch of its own; XBUSY_N apart, a read changes nothing but its latch and what a
read clears. -/
def Obligations.ReadLatch : Prop :=
  ∀ (p : AccessPort) (a : BitVec 24) (s : State), s.accOpen p = true →
    (∀ off, portTarget p false a.toNat = .bar0 off →
      (∀ whole, (whole && portWide p) = false → Next (exec (.lowWordRead p a whole) s) fun t =>
        Only [.freeCount, .hatch, .notif, .pantry] s t ∧ t.pantry = (s.busStart p).pantry ∧ s.OtherPorts t p ∧
        (s.replyOpen off = false → t.freeCount = s.freeCount ∧ (t.acc p).lastRead = s.regWord off) ∧
        (t.acc p).latch = (if lowOf64 off = true then { tag := some (off + 4), high := s.regWord (off + 4) } else (s.acc p).latch)) ∧
      (portWide p = true → Next (exec (.lowWordRead p a true) s) fun t =>
        Only [.freeCount, .hatch, .notif, .pantry] s t ∧ t.pantry = (s.busStart p).pantry ∧ s.OtherPorts t p ∧
        (s.replyOpen off = false → t.freeCount = s.freeCount ∧ (t.acc p).lastRead = s.regWord off) ∧
        (s.replyOpen (off + 4) = false → (t.acc p).lastHigh = s.regWord (off + 4)) ∧ (t.acc p).latch = (s.acc p).latch) ∧
      ((s.acc p).latch.tag = some off → Next (exec (.highWordRead p a) s) fun t => Only [.hatch, .pantry] s t ∧
        t.pantry = (s.busStart p).pantry ∧ s.OtherPorts t p ∧ (t.acc p).lastRead = (s.acc p).latch.high ∧ (t.acc p).latch.tag = none) ∧
      ((s.acc p).latch.tag ≠ some off → exec (.highWordRead p a) s = exec (.lowWordRead p a false) s)) ∧
    (portTarget p false a.toNat = .nowhere → Next (exec (.lowWordRead p a false) s) (fun t => Only [.hatch, .pantry] s t ∧
      (t.acc p).lastRead = 0 ∧ (t.acc p).latch = (s.acc p).latch ∧ s.OtherPorts t p) ∧
      exec (.highWordRead p a) s = exec (.lowWordRead p a false) s)

/-- R48, R49, R53: a write of the low word of a writable 64-bit value is held and has no effect by itself; a write of its high word writes both
words, with the low word the same port holds for that value or else the current one; an access of 8 bytes writes both; a write by the port to
another offset discards the held word, and the word written there takes effect as REGISTER_WRITE says. An address of neither BAR ignores a
write. The writable 64-bit values are the message addresses of the MSI-X table (log 19). -/
def Obligations.HeldWord : Prop :=
  ∀ (p : AccessPort) (a : BitVec 24) (v : BitVec 32) (s : State), s.accOpen p = true →
    (∀ off, portTarget p true a.toNat = .bar0 off →
      (writable64 off = true → Next (exec (.lowWordWrite p a v) s) fun t => Only [.hatch, .pantry] s t ∧ t.pantry = (s.busStart p).pantry ∧
        t.hatch.msixTable = s.hatch.msixTable ∧ t.hatch.boxes = s.hatch.boxes ∧ (t.acc p).heldLow = some (off, v.toNat) ∧
        s.OtherPorts t p) ∧
      (∀ low : Option (BitVec 32), 4 ≤ off → writable64 (off - 4) = true → Next (exec (.highWordWrite p a v low) s) fun t =>
        Only [.hatch, .pantry] s t ∧ t.pantry = (s.busStart p).pantry ∧ t.hatch.boxes = s.hatch.boxes ∧
        t.hatch.msixTable.get 0 off = v.toNat ∧ t.hatch.msixTable.get 0 (off - 4) =
          (match low, portWide p, (s.acc p).heldLow with
            | some l, true, _ => l.toNat
            | _, _, some (o, l) => if o = off - 4 then l else s.hatch.msixTable.get 0 (off - 4)
            | _, _, none => s.hatch.msixTable.get 0 (off - 4)) ∧
        (t.acc p).heldLow = none ∧ s.OtherPorts t p) ∧
      (writable64 off = false → Next (exec (.lowWordWrite p a v) s) fun t => (t.acc p).heldLow = none)) ∧
    (∀ h : HostPort, p = .host h → exec (.lowWordWrite p a v) s = exec (.registerWrite a v h) s) ∧
    (exec (.highWordWrite p a v none) s = exec (.lowWordWrite p a v) s) ∧
    (portTarget p true a.toNat = .nowhere → Next (exec (.lowWordWrite p a v) s) fun t => Only [.hatch, .pantry] s t ∧
      t.hatch.msixTable = s.hatch.msixTable ∧ t.hatch.boxes = s.hatch.boxes ∧ (t.acc p).heldLow = none ∧ s.OtherPorts t p)

/-- R11, R47, R48, R50, R55, R57, R59, R82: what a register write through the host port does, by the offset its address reaches: HATCH_IRQ_EN takes
bits 10:0; NR_BASE takes a base below 0xE0 and ignores another, and while NR_ENABLE = 1 the base it takes is open (R95); a word of a mailbox's
request area is stored, and is open while the mailbox is PENDING (R95); a word of the MSI-X table is stored; the doorbell, DONE, HOST_ERR,
NR_CTRL and NR_TAIL are the rows of those names; a read-only or unlisted offset and the reply areas are left alone. -/
def Obligations.RegisterWrites : Prop :=
  ∀ (p : HostPort) (a : BitVec 24) (v : BitVec 32) (s : State) (off : Nat), s.portUp p = true → hostTarget p true false a.toNat = .bar0 off →
    (off = 0x100C → Next (exec (.registerWrite a v p) s) fun t => Only [.hatch, .pantry] s t ∧ t.hatch.irqEn = v.toNat % 2048 ∧
      t.hatch.boxes = s.hatch.boxes ∧ t.hatch.hostErr = s.hatch.hostErr) ∧
    (off = 0x4000 → (s.notif.enable = false ∨ 0xE0 ≤ v.toNat / 2 ^ 13 % 256) → Next (exec (.registerWrite a v p) s) fun t =>
      Only [.hatch, .notif, .pantry] s t ∧
      t.notif = if v.toNat / 2 ^ 13 % 256 < 0xE0 then { s.notif with base := v.toNat / 2 ^ 13 % 256 } else s.notif) ∧
    (off = 0x4000 → s.notif.enable = true → v.toNat / 2 ^ 13 % 256 < 0xE0 → Next (exec (.registerWrite a v p) s) fun t =>
      Only [.freeCount, .hatch, .notif, .pantry] s t ∧ t.notif.base < 0xE0 ∧ t.notif = { s.notif with base := t.notif.base }) ∧
    (∀ (mb : Fin 8) (k : Fin 128), off = 0x2000 + 0x400 * mb + 4 * k → Next (exec (.registerWrite a v p) s) fun t =>
      Only [.freeCount, .hatch, .pantry] s t ∧ ((s.box mb).state ≠ .pending → t.freeCount = s.freeCount) ∧
      (∃ x, ((s.box mb).state ≠ .pending → x = v.toNat) ∧
        t.box mb = { s.box mb with request := setSlice (padTo (s.box mb).request 512) (4 * k) (leBytes 4 x) }) ∧
      ∀ n, n ≠ mb → t.box n = s.box n) ∧
    (0x8000 ≤ off → off < 0x8040 → writable64 off = false → Next (exec (.registerWrite a v p) s) fun t => Only [.hatch, .pantry] s t ∧
      t.hatch.msixTable.get 0 off = v.toNat ∧ t.hatch.boxes = s.hatch.boxes) ∧
    (p = .pcie → (off = 0x1000 → exec (.registerWrite a v p) s = exec (.hatchDoorbell v) s) ∧
      (off = 0x1008 → exec (.registerWrite a v p) s = exec (.hatchDoneWrite v) s) ∧
      (off = 0x0108 → exec (.registerWrite a v p) s = exec (.hostErrWrite v) s) ∧
      (off = 0x4004 → exec (.registerWrite a v p) s = exec (.nrCtrlWrite v) s) ∧
      (off = 0x400C → exec (.registerWrite a v p) s = exec (.nrTailWrite v) s)) ∧
    (off ∉ [0x0108, 0x0200, 0x0204, 0x1000, 0x1008, 0x100C, 0x4000, 0x4004, 0x400C] → (off < 0x2000 ∨ 0x4000 ≤ off ∨ 0x200 ≤ off % 0x400) →
      (off < 0x8000 ∨ 0x8040 ≤ off) → Next (exec (.registerWrite a v p) s) fun t => Only [.hatch, .pantry] s t ∧
        t.hatch = { s.hatch with host := { s.hatch.host with heldLow := none } } ∧ t.pantry = (s.busStart (.host p)).pantry)

/-- R55, R64, R82: GSTAT returns the status and ends the FAULT_PIN condition; GLOAD returns the load and its peak and clears the peak; NR_DROPPED
returns its count and clears it. Nothing else of the notification unit changes. -/
def Obligations.ReadsThatClear : Prop :=
  ∀ s : State, s.sys.stage ≠ .inReset →
    (Next (exec .gstatRead s) fun t => Only [.hatch] s t ∧ t.hatch.host.lastRead = s.gstat ∧ t.hatch.faultPinChanged = false ∧
      t.hatch.boxes = s.hatch.boxes ∧ t.hatch.hostErr = s.hatch.hostErr) ∧
    (Next (exec .gloadRead s) fun t => Only [.hatch, .notif] s t ∧ t.hatch.host.lastRead = s.notif.mpLoad + s.notif.mpPeak * 65536 ∧
      t.notif = { s.notif with mpPeak := 0 } ∧ t.hatch.boxes = s.hatch.boxes) ∧
    (Next (exec .nrDroppedRead s) fun t => Only [.hatch, .notif] s t ∧ t.hatch.host.lastRead = s.notif.dropped ∧
      t.notif = { s.notif with dropped := 0 } ∧ t.hatch.boxes = s.hatch.boxes)

/-- R82, R84, R673: NR_CTRL takes its thresholds and NR_ENABLE; a change of NR_ENABLE from 0 to 1 starts the ring at index 0 with phase 1 and writes
the hold queue out, its oldest entry first, each of 32 bytes at its index of the ring where the bank is not Off. NR_TAIL within the unread
entries is taken as it stands; outside them it becomes some index (R95: the spec leaves it undefined). When the oldest unread entry is older
than NR_HOLDOFF the interrupt condition holds.
And R87, R89: at the end of a 1 ms window MP_LOAD takes the load, the peak follows it, and the shedding level rises to the highest level whose
threshold is reached, or falls by one where the load is below the level's threshold less SHED_HYST; a fall below level 2 writes the deferred
notifications out, which at levels 2 and 3 stay deferred. -/
def Obligations.NotificationRing : Prop :=
  (
  ∀ (w : Word) (s : State),
      (s.sys.stage ≠ .inReset → (w.getLsbD 0 = false ∨ s.notif.enable = true) → Next (exec (.nrCtrlWrite w) s) fun t =>
        Only [.hatch, .notif] s t ∧
        t.notif = { s.notif with enable := w.getLsbD 0, holdoff := w.toNat / 2 ^ 16, thresh := w.toNat / 2 ^ 8 % 256 }) ∧
      (s.sys.stage ≠ .inReset → w.getLsbD 0 = true → s.notif.enable = false → s.notif.hold.length ≤ 64 →
        Next (exec (.nrCtrlWrite w) s) fun t => Only [.hatch, .notif, .par, .pantry] s t ∧ (s.notif.hold = [] → Only [.hatch, .notif] s t) ∧
          t.notif.enable = true ∧ t.notif.head = s.notif.hold.length ∧ t.notif.tail = 0 ∧ t.notif.phase = true ∧ t.notif.hold = [] ∧
          t.notif.holdoff = w.toNat / 2 ^ 16 ∧ t.notif.thresh = w.toNat / 2 ^ 8 % 256 ∧
          t.notif.seq = s.notif.seq ∧ t.notif.dropped = s.notif.dropped ∧
          (s.bankOff (s.notif.base / 16) = false → s.pantry.mem.wf = true → ∀ i e, s.notif.hold[i]? = some e →
            t.pantry.mem.readN (s.notif.base * 8192 + 32 * i) 32 = e.bytes true (i == 0 && s.notif.lost))) ∧
      (s.sys.stage ≠ .inReset → (w.toNat % 256 + 256 - s.notif.tail) % 256 ≤ (s.notif.head + 256 - s.notif.tail) % 256 →
        Next (exec (.nrTailWrite w) s) fun t => Only [.hatch, .notif] s t ∧ t.notif.tail = w.toNat % 256 ∧ t.notif.head = s.notif.head ∧
          t.notif.heldOff = false ∧ t.notif.dropped = s.notif.dropped) ∧
      (s.sys.stage ≠ .inReset → (s.notif.head + 256 - s.notif.tail) % 256 < (w.toNat % 256 + 256 - s.notif.tail) % 256 →
        Next (exec (.nrTailWrite w) s) fun t => Only [.freeCount, .hatch, .notif] s t ∧ t.notif.tail < 256 ∧ t.notif.head = s.notif.head ∧
          t.notif.dropped = s.notif.dropped) ∧
      (∀ x r, s.notif.unreadAt = x :: r → x + 8000 * (max 1 s.notif.holdoff) < s.mono →
        Next (exec .nrHoldoffExpire s) fun t => Only [.hatch, .notif] s t ∧ t.notif = { s.notif with heldOff := true } ∧ t.notif.wants = true)) ∧
  (
  ∀ (load : BitVec 10) (s : State), s.sys.stage = .serving → s.notif.windowFrom + 8000000 ≤ s.mono → load.toNat ≤ 1000 →
      Next (exec (.loadWindowEnd load) s) fun t => Only [.hatch, .notif, .par, .pantry] s t ∧ t.notif.mpLoad = load.toNat ∧
        t.notif.mpPeak = max s.notif.mpPeak load.toNat ∧ t.notif.windowFrom = s.mono ∧
        (∀ k ∈ [1, 2, 3], s.notif.shed < k → s.p0 (0x0201 + k) ≤ load.toNat → k ≤ t.notif.shed) ∧
        (0 < s.notif.shed → (∀ k ∈ [1, 2, 3], load.toNat < s.p0 (0x0201 + k)) → load.toNat + s.p0 0x0205 < s.p0 (0x0201 + s.notif.shed) →
          t.notif.shed = s.notif.shed - 1) ∧
        ((∀ k ∈ [1, 2, 3], s.notif.shed < k → load.toNat < s.p0 (0x0201 + k)) →
          s.p0 (0x0201 + s.notif.shed) ≤ load.toNat + s.p0 0x0205 → t.notif.shed = s.notif.shed) ∧
        t.notif.deferred = (if t.notif.shed < 2 ∧ 2 ≤ s.notif.shed then [] else s.notif.deferred) ∧
        (s.notif.shed < 2 ∨ 2 ≤ t.notif.shed ∨ s.notif.deferred = [] → Only [.notif] s t))

/-- R92: the loss of the host link discards the pending requests, whose mailboxes become IDLE, and every held set; requests being executed and replies
already written stay. QSPI has no link to lose. -/
def Obligations.HostLinkLoss : Prop :=
  ∀ s : State,
    (s.hatch.qspi = false → Next (exec .hostLinkDown s) fun t => Only [.hatch] s t ∧ t.hatch.order = [] ∧ t.hatch.active = s.hatch.active ∧
      t.hatch.pcieUp = false ∧
      ∀ n < 8, t.box n = { s.box n with state := if (s.box n).state = .pending then .idle else (s.box n).state, held := [] }) ∧
    (s.hatch.qspi = true → exec .hostLinkDown s = .next s)

/-- R61, R63, R69, R674: while the hatch is served, the oldest pending mailbox is taken and its whole request copied; the generic checks answer it in
their order: a repeated request gets its reply again, another one of the same SEQ BAD_SEQ, then BAD_LENGTH, BUSY at shedding level 3, STALE_EPOCH,
EPOCH_AHEAD, UNKNOWN_OPCODE, BAD_LENGTH for the opcode's own length and NOT_IN_ROLE. A request to which none applies stays ACTIVE, last in the
order of taking. No other mailbox changes. -/
def Obligations.MailboxTaken : Prop :=
  ∀ (s : State) (mb : Fin 8) (rest : List Nat) (q : Request), (s.sys.stage = .serving ∨ s.sys.stage = .recovery) → s.sys.core0.halted = false →
    s.sys.core1.halted = false → s.hatch.order = mb.val :: rest → q = requestOf (s.box mb).request →
    Next (exec .mailboxTake s) fun t => Only [.freeCount, .hatch, .par] s t ∧ t.hatch.order = rest ∧ (∀ n, n ≠ mb.val → t.box n = s.box n) ∧
      (t.box mb).request = (s.box mb).request ∧ (t.box mb).held = (s.box mb).held ∧
      (∀ k, (s.box mb).kept = some k → k.req = q → (t.box mb).state = .done ∧ (t.box mb).reply = k.reply) ∧
      (∀ k, (s.box mb).kept = some k → k.req ≠ q → k.req.seq = q.seq → s.Turned t mb q stBadSeq [0, 0, 0xFF, 0xFF]) ∧
      ((∀ k, (s.box mb).kept = some k → k.req.seq ≠ q.seq) →
        if 504 < q.length then s.Turned t mb q stBadLength [0x0C, 0, 0xFF, 0xFF]
        else if s.notif.shed = 3 ∧ shedExempt q = false then ∃ us, 100 ≤ us ∧ us ≤ 10000 ∧ s.Turned t mb q stBusy (leBytes 4 us)
        else if sdiff 16 q.epoch s.twin.epoch < 0 then s.Turned t mb q stStale [0, 0, 0xFF, 0xFF]
        else if 0 < sdiff 16 q.epoch s.twin.epoch then s.Turned t mb q stAhead [0, 0, 0xFF, 0xFF]
        else match opRow q.opcode with
          | none => s.Turned t mb q stUnknown [0, 0, 0xFF, 0xFF]
          | some r =>
            if s.sys.stage = .recovery ∧ recoveryOp q.opcode = false then s.Turned t mb q stUnknown [0, 0, 0xFF, 0xFF]
            else if r.len.isSome = true ∧ r.len ≠ some q.length then s.Turned t mb q stBadLength [0x0C, 0, 0xFF, 0xFF]
            else if q.opcode = 0x0212 then
              (∀ i, s.twin.role.firstRefused q = some i → s.Turned t mb q stNotInRole (leBytes 1 0x8B ++ [0] ++ leBytes 2 i)) ∧
              (s.twin.role.firstRefused q = none → (t.box mb) = { s.box mb with state := .active, taken := some q, waiting := .none })
            else
              (∀ k, s.roleReason q.opcode = some k → s.Turned t mb q stNotInRole (leBytes 1 k ++ [0, 0xFF, 0xFF])) ∧
              (s.roleReason q.opcode = none → (t.box mb) = { s.box mb with state := .active, taken := some q, waiting := .none } ∧
                t.hatch.active = s.hatch.active.filter (· != mb.val) ++ [mb.val])) ∧
      (s.notif.shed ≠ 3 → t.freeCount = s.freeCount)

/-- R70, R75, R76, R81: HATCH_PING answers with the role, the shedding level, the load and the time; PARAM_INFO describes a parameter, refuses an unknown
one with reason 0x01 and an RSVD field that is not 0 with reason 0x0D; PARAM_DISCARD empties the mailbox's held set and answers how many records
it held. None changes a parameter. -/
def Obligations.ParameterReads : Prop :=
  ∀ (s : State) (mb : Fin 8) (q : Request),
    (s.Runs mb 0x0210 q → Next (exec (.hatchPing mb) s) fun t => Only [.hatch] s t ∧
      s.Replies t mb q stOk (leBytes 1 s.twin.role.code ++ leBytes 1 s.notif.shed ++ leBytes 2 s.notif.mpLoad ++ leBytes 4 s.shortNow)) ∧
    (s.Runs mb 0x0214 q → Next (exec (.paramDiscard mb) s) fun t => Only [.hatch] s t ∧
      (t.box mb).held = [] ∧ s.Replies t mb q stOk (leBytes 2 (s.box mb).held.length)) ∧
    (s.Runs mb 0x0215 q → ∀ r, s.readRow (uAt q.payload 0 2) = some r → Next (exec (.paramInfo mb) s) fun t => Only [.hatch] s t ∧
      (uAt q.payload 2 2 = 0 → s.Replies t mb q stOk (leBytes 2 (uAt q.payload 0 2) ++ leBytes 2 r.size ++ leBytes 1 r.acc.code ++
        leBytes 1 r.cls.code ++ leBytes 1 r.kind.code ++ [0] ++ leBytes 2 r.count ++
        leBytes 2 (flagNum [ownCommitPage (uAt q.payload 0 2 / 256), r.lockable,
          decide (r.kind = .none) && s.pageRuns (uAt q.payload 0 2 / 256)]) ++ [0, 0, 0, 0])) ∧
      (uAt q.payload 2 2 ≠ 0 → s.Replies t mb q stBadParam [0x0D, 0, 0xFF, 0xFF])) ∧
    (s.Runs mb 0x0215 q → s.readRow (uAt q.payload 0 2) = none → Next (exec (.paramInfo mb) s) fun t => Only [.hatch] s t ∧
      s.Replies t mb q stBadParam [0x01, 0, 0xFF, 0xFF])

/-- R13 to R15, R17, R76 to R81: PARAM_GET returns the value selected, and a read of an RC parameter leaves its counts at 0. PARAM_SET applies a request
none of whose records and relations fail, record by record, or with HOLD adds the records to the held set; it refuses a request with the first
failing record's index and reason and changes nothing else. A live value written takes effect at once; an S value does where its block is
stopped and stands in the shadow otherwise; an H value of a stopped block takes effect. PARAM_COMMIT empties the held set and applies it; an
empty set is refused with reason 0x0A. -/
def Obligations.ParameterWrites : Prop :=
  ∀ (s : State) (mb : Fin 8) (q : Request),
    (s.Runs mb 0x0211 q → ∀ r, s.readRow (uAt q.payload 0 2) = some r → r.instOk (uAt q.payload 2 2) = true → uAt q.payload 4 1 ≤ 1 →
      uAt q.payload 5 3 = 0 → Next (exec (.paramGet mb) s) fun t => Only [.hatch, .par, .time] s t ∧
        s.Replies t mb q stOk (leBytes 2 (uAt q.payload 0 2) ++ leBytes 2 (uAt q.payload 2 2) ++ leBytes 2 r.size ++ leBytes 1 r.cls.code ++
          [0] ++ s.paramValue r (uAt q.payload 2 2) (uAt q.payload 4 1)) ∧
        (r.acc ≠ .rc → r.id ≠ 0x0601 → Only [.hatch] s t) ∧ (r.id = 0x0601 → r.acc ≠ .rc → t.time = { s.time with genStep := false }) ∧
        (r.acc = .rc → t.time = s.time ∧ t.counts r.id (uAt q.payload 2 2) = (rcFields r.id).map fun _ => 0)) ∧
    (s.Runs mb 0x0212 q → ∀ l, 1 ≤ uAt q.payload 0 2 → uAt q.payload 0 2 ≤ 32 → uAt q.payload 2 2 ≤ 1 →
      layRecords (uAt q.payload 0 2) (q.payload.drop 4) = some l →
      (∀ x ∈ l, ownUnitPage (x.rec_.id / 256) = true ∨ s.Writes mb (x.rec_.id / 256)) →
      (∀ f, s.setFailure (bit (uAt q.payload 2 2) 0) 0 (s.box mb).held l = some f →
        Lands (exec (.paramSet mb) s) fun e => Only [.hatch] s e ∧ s.Replies e mb q f.2.1 (setReply 0 f.1 f.2.2)) ∧
      (s.setFailure (bit (uAt q.payload 2 2) 0) 0 (s.box mb).held l = none → s.relationFailure (l.map (·.rec_)) = none →
        (uAt q.payload 2 2 = 1 → Lands (exec (.paramSet mb) s) fun e => Only [.hatch] s e ∧
          (e.box mb).held = (s.box mb).held ++ l.map (fun x => s.heldRec x.rec_) ∧
          s.Replies e mb q stOk (setReply (uAt q.payload 0 2) 0xFFFF 0)) ∧
        (uAt q.payload 2 2 = 0 → Lands (exec (.paramSet mb) s) fun e =>
          e = (s.applyAll (l.map (·.rec_))).finishRecords mb q (l.map (·.rec_)) (setReply (uAt q.payload 0 2) 0xFFFF 0)))) ∧
    (∀ (r : ParamRow) (n : Nat) (v : Bytes), [0x0303, 0x0409, 0x0B05, 0x0B06, 0x1602, 0x1603].contains r.id = false →
      (∀ id m, pKey id m ≠ pKey r.id n → (s.storeRec r n v).peff id m = s.peff id m ∧ (s.storeRec r n v).pshadow id m = s.pshadow id m) ∧
      (s.storeRec r n v).pshadow r.id n = v ∧ Only [.freeCount, .par] s (s.storeRec r n v) ∧
      (r.cls = .live → (s.storeRec r n v).peff r.id n = v) ∧
      (r.cls = .shadowed → (s.storeRec r n v).peff r.id n = if s.blockStopped r n = true then v else s.peff r.id n) ∧
      (r.cls = .halt → s.haltRuns r n = false → (s.storeRec r n v).peff r.id n = v)) ∧
    (s.Runs mb 0x0213 q → (∀ x ∈ (s.box mb).held, ownUnitPage (x.id / 256) = true ∨ s.Writes mb (x.id / 256)) → (s.box mb).held ≠ [] →
      uAt q.payload 2 2 = 0 → (uAt q.payload 0 2 = 0 ∨ uAt q.payload 0 2 = (s.box mb).held.length) →
      Lands (exec (.paramCommit mb) s) fun e => e = ((s.tookFree.modBox mb fun b => { b with held := [] }).applyAll (s.heldSet mb)).finishRecords
        mb q (s.heldSet mb) (commitReply (s.box mb).held.length 0 (s.tookFree.heldBoundary (s.box mb).held))) ∧
    (s.Runs mb 0x0213 q → s.Writes mb 0x08 → ∀ str < 16, ∀ v : Bytes, (s.box mb).held = [{ id := 0x0803, inst := str, value := v, str := some str }] →
      s.strStopped str = true → uAt q.payload 0 2 = 0 → uAt q.payload 2 2 = 0 →
      Lands (exec (.paramCommit mb) s) fun e => OnlyWrite [.freeCount, .par] s e ∧ (e.box mb).held = [] ∧
        s.Accepts e mb q ([1, 0, 0, 0] ++ leBytes 4 (s.now % 2 ^ 32)) ∧ e.peff 0x0803 str = v ∧ e.pshadow 0x0803 str = v) ∧
    (s.Runs mb 0x0213 q → (s.box mb).held = [] → Lands (exec (.paramCommit mb) s) fun e => Only [.freeCount, .hatch] s e ∧
      ∃ by_, s.Replies e mb q stBadParam (commitReply 0 0x0A by_))

/-- R111, R120, R133: a lane PLL begins to lock at its time after HATCH_READY; once locked, each of its lanes that was OFF begins an attempt unless it is
unused or held HALTED (R370); on a loss of lock every lane of its rack is OFF, the loss is counted and RACK_PLL_UNLOCK fires on entry of the condition. No lane of
another rack changes. -/
def Obligations.LanePlls : Prop :=
  ∀ (k : Fin 9) (s : State),
    (∀ t, s.lanes.readyAt = some t → (s.rack k).st = .off → (k.val = 8 ∨ t + 16000000 + 16000000 * k ≤ s.mono) →
      Next (exec (.rackPllLockStart k) s) fun u => Only [.lanes] s u ∧ (u.rack k).st = .locking ∧ u.lanes.lane = s.lanes.lane ∧
        ∀ j, j ≠ k.val → u.rack j = s.rack j) ∧
    ((s.rack k).st = .locking ∨ (s.rack k).st = .relocking →
      Lands (exec (.rackPllLocked k) s) fun e => (e.rack k).st = .locked ∧ Only [.freeCount, .todo, .par, .faults, .lanes, .links] s e ∧
        ∀ l < 132, if rackOf l = k ∧ (s.lane l).st = .off
          then (e.lane l).st = (if s.laneUnused l = true then .off else if s.laneHeld l = true then .halted else .trainCdr)
          else e.lane l = s.lane l) ∧
    ((s.rack k).st = .locked →
      Lands (exec (.rackPllUnlock k) s) fun e => (e.rack k).st = .relocking ∧ (e.rack k).losses = min 65535 ((s.rack k).losses + 1) ∧
        (s.faults.present.contains { src := 0x13, inst := k, sub := 0 } = false → s.Fired e 0x13) ∧
        Only [.todo, .hatch, .notif, .par, .faults, .pantry, .lanes, .links] s e ∧
        ∀ l < 132, if rackOf l = k then (e.lane l).st = .off else e.lane l = s.lane l)

/-- R112, R114, R115, R117, R119: how a training attempt goes from state to state, lane by lane, and what ends it. No other lane changes.
And R101, R102, R126 to R128: the symbols (up to four) a lane under test has received go through the checker, inverted and decoded where its parameters say so; in
NEAR_LOOP the lane's own pattern does, and in TX_ONLY nothing. A locked checker counts two bits a symbol and the errors in them; an unlocked
one counts nothing and locks on 64 symbols in a row that match (log 122). No other lane changes. -/
def Obligations.LaneTraining : Prop :=
  (
  ∀ (lane : Fin 132) (s : State),
      ((s.lane lane).st = .trainCdr → (s.lane lane).signal = true → Lands (exec (.laneClockLock lane) s) fun e =>
        (e.lane lane).st = .trainEq ∧ Only [.todo, .lanes, .links] s e ∧ s.OneLane e lane) ∧
      (∀ u m l : BitVec 8, (s.lane lane).st = .trainEq → (s.lane lane).presetFixed = false → u.toNat ≤ 64 → m.toNat ≤ 64 → l.toNat ≤ 64 →
        (s.lane lane).stateAt + 4000000 * ((s.lane lane).tried + 1) ≤ s.mono → Next (exec (.lanePresetTrialEnd lane u m l) s) fun t =>
          Only [.freeCount, .lanes] s t ∧ (t.lane lane).tried = (s.lane lane).tried + 1 ∧ (t.lane lane).eye = [u.toNat, m.toNat, l.toNat] ∧
          (t.lane lane).presetFixed = decide ((s.lane lane).tried = 3) ∧
          ((s.lane lane).tried ≠ 3 → (t.lane lane).preset = (s.lane lane).tried + 1) ∧
          (∀ p b, (s.lane lane).tried = 3 → (s.lane lane).best = some (p, b) → b < u.toNat → b < m.toNat → b < l.toNat → b < 64 →
            (t.lane lane).preset = 3) ∧
          (∀ p b, (s.lane lane).tried = 3 → (s.lane lane).best = some (p, b) → (u.toNat < b ∨ m.toNat < b ∨ l.toNat < b) →
            (t.lane lane).preset = p) ∧
          s.OneLane t lane) ∧
      ((s.lane lane).st = .trainEq → (s.lane lane).presetFixed = true → (s.lane lane).stateAt + 4000000 ≤ s.mono → s.dfeSettled lane = true →
        Lands (exec (.laneDfeConverged lane) s) fun e => (e.lane lane).st = .check ∧ (e.lane lane).errMax = s.p0 0x040E ∧
          Only [.todo, .lanes, .links] s e ∧ s.OneLane e lane) ∧
      (∀ errors, (s.lane lane).st = .check → (s.lane lane).stateAt + 26843546 ≤ s.mono → errors ≤ (s.lane lane).errMax →
        Lands (exec (.laneCheckWindowEnd lane errors) s) fun e => (e.lane lane).st = .align ∧ Only [.freeCount, .todo, .lanes, .links] s e ∧
          s.OneLane e lane) ∧
      ((s.lane lane).st = .align ∨ (s.lane lane).st = .hunt → Lands (exec (.laneBlockLock lane) s) fun e => (e.lane lane).st = .linked ∧
        (e.lane lane).crcWinFails = 0 ∧ (e.lane lane).crcWinAt = s.mono ∧ Only [.freeCount, .todo, .time, .lanes, .links] s e ∧
        s.OneLane e lane) ∧
      ((s.lane lane).st.training = true → (s.lane lane).attemptAt + 120000000 ≤ s.mono →
        ((s.lane lane).attempt < s.p0 0x040F → Lands (exec (.laneAttemptTimeout lane) s) fun e => (e.lane lane).st = .retry ∧
          (e.lane lane).attempt = (s.lane lane).attempt ∧ Only [.todo, .lanes, .links] s e ∧ s.OneLane e lane) ∧
        (s.p0 0x040F ≤ (s.lane lane).attempt → Lands (exec (.laneAttemptTimeout lane) s) fun e => (e.lane lane).st = .down ∧ s.Fired e 0x10 ∧
          Only [.todo, .hatch, .notif, .par, .faults, .pantry, .lanes, .links] s e ∧ s.OneLane e lane)) ∧
      ((s.lane lane).st = .retry → (s.lane lane).stateAt + 8000000 ≤ s.mono → Lands (exec (.laneRetryEnd lane) s) fun e =>
        (e.lane lane).st = .trainCdr ∧ (e.lane lane).attempt = (s.lane lane).attempt + 1 ∧ (e.lane lane).attemptAt = s.mono ∧
        Only [.freeCount, .todo, .par, .lanes, .links] s e ∧ s.OneLane e lane) ∧
      ((s.lane lane).st = .down → s.pu 0x0413 lane 0 1 = 1 → (s.lane lane).signal = true → (s.lane lane).signalAt + 8000000 ≤ s.mono →
        (s.lane lane).stateAt + 8000000 ≤ s.mono → Lands (exec (.laneAutoRetrain lane) s) fun e => (e.lane lane).st = s.freshSt lane ∧
          (s.freshSt lane = .trainCdr → (e.lane lane).attempt = 0) ∧ Only [.freeCount, .todo, .par, .lanes, .links] s e ∧ s.OneLane e lane) ∧
      ((s.lane lane).st = .hunt → (s.lane lane).stateAt + 8000 * s.p0 0x0410 ≤ s.mono → Lands (exec (.laneHuntTimeout lane) s) fun e =>
        (e.lane lane).st = s.freshSt lane ∧ (s.freshSt lane = .trainCdr → (e.lane lane).attempt = 0) ∧
        Only [.freeCount, .todo, .par, .lanes, .links] s e ∧ s.OneLane e lane)) ∧
  (
  (∀ (lane : Fin 132) (x0 x1 x2 x3 : Option (Fin 4)) (s : State), (s.lane lane).st = .test → ∀ rx, rx = [x0, x1, x2, x3].filterMap id →
      Next (exec (.testCheckerLock lane x0 x1 x2 x3) s) fun t => Only [.lanes] s t ∧ (t.lane lane).st = .test ∧ s.OneLane t lane ∧
        ∃ gen, gen = (patSymbols (s.lane lane).test.pattern rx.length (s.lane lane).test.gen).2 ∧
        ((s.lane lane).test.mode = 2 → (t.lane lane).test = { (s.lane lane).test with gen }) ∧
        ((s.lane lane).test.mode = 1 → (t.lane lane).test = ((patSymbols (s.lane lane).test.pattern rx.length (s.lane lane).test.gen).1).foldl
          LaneTest.check { (s.lane lane).test with gen }) ∧
        ((s.lane lane).test.mode ≠ 1 → (s.lane lane).test.mode ≠ 2 → ∀ y, y = rx.map (fun x => if (s.pu 0x0403 lane 0 1).testBit 1 then 3 - x.val else x.val) →
          (t.lane lane).test = (if s.pu 0x0402 lane 0 1 = 1 then unprecode (s.lane lane).rxSym y else y).foldl LaneTest.check
            { (s.lane lane).test with gen })) ∧
    (∀ (c : LaneTest) (x : Nat),
      (c.chkLock = true → (c.check x).bits = min (2 ^ 64 - 1) (c.bits + 2) ∧
        (c.check x).symErr = min (2 ^ 64 - 1) (c.symErr + (if x = (patSymbol c.pattern c.ref).1 then 0 else 1)) ∧
        (x = (patSymbol c.pattern c.ref).1 → (c.check x).bitErr = min (2 ^ 64 - 1) c.bitErr) ∧
        ((c.check x).chkLock = false → (c.check x).lockLosses = min (2 ^ 32 - 1) (c.lockLosses + 1)) ∧
        ((c.check x).chkLock = false ↔ 32 < (((x != (patSymbol c.pattern c.ref).1) :: c.errs).take 256).count true)) ∧
      (c.chkLock = false → (c.check x).bits = c.bits ∧ (c.check x).symErr = c.symErr ∧ (c.check x).bitErr = c.bitErr ∧
        (c.check x).lockLosses = c.lockLosses ∧
        ((c.check x).chkLock = true ↔ c.ref ≠ 0 ∧ x = (patSymbol c.pattern c.ref).1 ∧ 63 ≤ c.run))))

/-- R101, R102, R104, R106, R118, R121 to R128: what a lane's receiver does on signal detect, idle gaps, wake bursts and failed blocks, and what the
transmitter's idle, the taps, the eyes and the pattern checker take. A loss of block lock is raised unless the dark hold excuses it (R353). No
other lane changes. -/
def Obligations.LaneReceiver : Prop :=
  ∀ (lane : Fin 132) (s : State),
    ((s.lane lane).signal = false → Next (exec (.laneSignalDetectChange lane true) s) fun t => Only [.lanes] s t ∧
      (t.lane lane).signal = true ∧ (t.lane lane).signalAt = s.mono ∧ (t.lane lane).st = (s.lane lane).st ∧
      ((s.lane lane).rxGap.isSome = true → (t.lane lane).wakeFrom = some s.mono) ∧ s.OneLane t lane) ∧
    ((s.lane lane).signal = true → (s.lane lane).st.receives = false → Next (exec (.laneSignalDetectChange lane false) s) fun t =>
      Only [.lanes] s t ∧ t.lane lane = { s.lane lane with signal := false, signalAt := s.mono } ∧ s.OneLane t lane) ∧
    ((s.lane lane).signal = true → (s.lane lane).st.receives = true → s.idleOk lane = true →
      Next (exec (.laneSignalDetectChange lane false) s) fun t => Only [.lanes] s t ∧ (t.lane lane).signal = false ∧
        (t.lane lane).rxGap = some s.mono ∧ (t.lane lane).st = (s.lane lane).st ∧ s.OneLane t lane) ∧
    ((s.lane lane).signal = true → (s.lane lane).st.receives = true → s.idleOk lane = false →
      Lands (exec (.laneSignalDetectChange lane false) s) fun e => (e.lane lane).st = .hunt ∧
        (128 ≤ lane.val ∨ s.darkExempt lane = false → s.Fired e 0x11) ∧
        Only [.todo, .hatch, .notif, .par, .faults, .pantry, .lanes, .links] s e ∧ s.OneLane e lane) ∧
    ((s.lane lane).st.receives = true → (s.lane lane).rxGap.isSome = true → Next (exec (.wakeBurstRx lane) s) fun t =>
      Only [.par, .lanes] s t ∧ (t.lane lane).rxGap = none ∧ (t.lane lane).rxSym = 0 ∧ (t.lane lane).st = (s.lane lane).st ∧
      s.OneLane t lane) ∧
    (∀ t, (s.lane lane).wakeFrom = some t → (s.lane lane).st.receives = true → t + 205 ≤ s.mono →
      Lands (exec (.wakeMarkerTimeout lane) s) fun e => (e.lane lane).st = .hunt ∧ Only [.todo, .par, .lanes, .links] s e ∧
        s.OneLane e lane) ∧
    (∀ t, (s.lane lane).rxGap = some t → (s.lane lane).st.receives = true → t + 8000 * (s.p0 0x040D + 2) ≤ s.mono →
      Lands (exec (.idleGapTimeout lane) s) fun e => (e.lane lane).st = .hunt ∧
        (128 ≤ lane.val ∨ s.darkExempt lane = false → s.Fired e 0x11) ∧
        Only [.todo, .hatch, .notif, .par, .faults, .pantry, .lanes, .links] s e ∧ s.OneLane e lane) ∧
    ((s.lane lane).st.receives = true → ((s.lane lane).hist.take 63).count true < 7 →
      Lands (exec (.blockCrcFail lane) s) fun e => (e.lane lane).st = (s.lane lane).st ∧
        (e.lane lane).crcWinFails = (s.lane lane).crcWinFails + 1 ∧
        (if s.p0 0x0411 < (s.lane lane).crcWinFails + 1 ∧ (s.lane lane).crcAlarmed = false
          then s.Fired e 0x12 ∧ (e.lane lane).crcAlarmed = true ∧ Only [.todo, .hatch, .notif, .par, .faults, .pantry, .lanes] s e
          else Only [.par, .lanes] s e) ∧ s.OneLane e lane) ∧
    ((s.lane lane).st.receives = true → 7 ≤ ((s.lane lane).hist.take 63).count true → Lands (exec (.blockCrcFail lane) s) fun e =>
      (e.lane lane).st = .hunt ∧ Only [.todo, .hatch, .notif, .par, .faults, .pantry, .lanes, .links] s e ∧
      s.OneLane e lane) ∧
    ((s.lane lane).st.receives = true → (s.lane lane).crcWinAt + 8000000000 ≤ s.mono → Lands (exec (.crcWindowEnd lane) s) fun e =>
      (e.lane lane).crcWinFails = 0 ∧ (e.lane lane).crcAlarmed = false ∧ (e.lane lane).crcWinAt = (s.lane lane).crcWinAt + 8000000000 ∧
      (if s.p0 0x0411 < (s.lane lane).crcWinFails ∧ (s.lane lane).crcAlarmed = false
        then s.Fired e 0x12 ∧ Only [.todo, .hatch, .notif, .par, .faults, .pantry, .lanes] s e else Only [.lanes] s e) ∧
      s.OneLane e lane) ∧
    ((s.lane lane).st = .linked → s.idleOk lane = true → 8 ≤ (s.lane lane).idleRun → Lands (exec (.laneIdleEnter lane) s) fun e =>
      (e.lane lane).st = .sleep ∧ (e.lane lane).lineOut = [] ∧ Only [.todo, .lanes, .links] s e ∧ s.OneLane e lane) ∧
    ((s.lane lane).st = .sleep → (s.lane lane).burstAt + 8000 * s.p0 0x040D ≤ s.mono → Lands (exec (.idleMaxGapWake lane) s) fun e =>
      (e.lane lane).st = .sleep ∧ (e.lane lane).burstAt = s.mono ∧ Only [.time, .lanes, .links] s e ∧ s.OneLane e lane) ∧
    (∀ s1 s2 s3 s4 s5 : Int, s.dfeAdapts lane = true → (s.lane lane).dfeAt + s.dfeTicks lane ≤ s.mono →
      ∀ t1 t2 t3 t4 t5, (s.lane lane).taps = [t1, t2, t3, t4, t5] →
      Next (exec (.dfeAdaptInterval lane s1 s2 s3 s4 s5) s) fun t => Only [.lanes] s t ∧
        (t.lane lane).taps = [tapStep 48 t1 s1, tapStep 32 t2 s2, tapStep 16 t3 s3, tapStep 16 t4 s4, tapStep 16 t5 s5] ∧
        (t.lane lane).dfeAt = s.mono ∧ s.OneLane t lane) ∧
    (∀ u m l : BitVec 8, s.rxRuns lane = true → (s.lane lane).eyeAt + 1677722 ≤ s.mono → u.toNat ≤ 64 → m.toNat ≤ 64 → l.toNat ≤ 64 →
      Next (exec (.eyeWindowEnd lane u m l) s) fun t => Only [.lanes] s t ∧ (t.lane lane).eye = [u.toNat, m.toNat, l.toNat] ∧
        (t.lane lane).eyeAt = s.mono ∧ s.OneLane t lane)

/-- R116, R127, R128, R132, R373: LANE_RETRAIN starts a fresh attempt on, and LANE_HALT halts, each lane of the range that is not OFF: on this unit, on
the twin, to which the command is forwarded, or on both; without a twin a UNIT of 1 or 2 is refused with reason 0x22. LANE_TEST_START puts a
lane under test with cleared counters, LANE_TEST_STOP takes it back, LANE_TEST_READ answers what the checker counted. -/
def Obligations.LaneCommands : Prop :=
  ∀ (s : State) (mb : Fin 8) (q : Request) (first count unit : Nat), first = uAt q.payload 0 2 → count = uAt q.payload 2 2 → unit = uAt q.payload 4 1 →
    (s.Runs mb 0x0420 q → rangeOk q.payload = true →
      ((unit = 0 ∨ (s.hasStandby = true ∧ s.forwardBarred = false)) → Lands (exec (.laneRetrain mb) s) fun e =>
        OnlyWrite [.freeCount, .todo, .par, .lanes, .links] s e ∧
        (∀ l < 132, if unit ≠ 1 ∧ first ≤ l ∧ l < first + count ∧ (s.lane l).st ≠ .off then (e.lane l).st = s.freshSt l else e.lane l = s.lane l) ∧
        ∃ n, n = (if unit = 1 then 0 else (List.range count).countP fun k => decide ((s.lane (first + k)).st ≠ .off)) ∧
          if unit = 0 then s.Replies e mb q stOk (leBytes 2 n ++ [0, 0]) else s.Forwards e mb (leBytes 2 n ++ [0, 0])) ∧
      (1 ≤ unit → s.hasStandby = false → Lands (exec (.laneRetrain mb) s) fun e => Only [.hatch] s e ∧
        s.Replies e mb q stBadParam [0x22, 0, 0xFF, 0xFF])) ∧
    (s.Runs mb 0x0421 q → rangeOk q.payload = true →
      ((unit = 0 ∨ (s.hasStandby = true ∧ s.forwardBarred = false)) → Lands (exec (.laneHalt mb) s) fun e =>
        OnlyWrite [.todo, .lanes, .links] s e ∧
        (∀ l < 132, if unit ≠ 1 ∧ first ≤ l ∧ l < first + count ∧ (s.lane l).st ≠ .off then (e.lane l).st = .halted else e.lane l = s.lane l) ∧
        ∃ n, n = (if unit = 1 then 0 else (List.range count).countP fun k => decide ((s.lane (first + k)).st ≠ .off)) ∧
          if unit = 0 then s.Replies e mb q stOk (leBytes 2 n ++ [0, 0]) else s.Forwards e mb (leBytes 2 n ++ [0, 0])) ∧
      (1 ≤ unit → s.hasStandby = false → Lands (exec (.laneHalt mb) s) fun e => Only [.hatch] s e ∧
        s.Replies e mb q stBadParam [0x22, 0, 0xFF, 0xFF])) ∧
    (∀ mode pat un, s.Runs mb 0x0422 q → first ≤ 131 → mode ∈ [1, 2, 3] → pat ≤ 1 → mode = uAt q.payload 2 1 → pat = uAt q.payload 3 1 →
      un = uAt q.payload 4 1 →
      (un = 0 → (if first < 128 then s.laneInUse first = false else s.laneUnused first = true) →
        Lands (exec (.laneTestStart mb) s) fun e => Only [.freeCount, .hatch, .todo, .lanes, .links] s e ∧ (e.lane first).st = .test ∧
          (e.lane first).test = { mode, pattern := pat, startAt := s.mono, gen := (e.lane first).test.gen } ∧ s.OneLane e first ∧
          s.Replies e mb q stOk (leBytes 4 s.shortNow)) ∧
      (un = 0 → first < 128 → s.laneInUse first = true → Lands (exec (.laneTestStart mb) s) fun e => Only [.hatch] s e ∧
        s.Replies e mb q stRefused [0x20, 0, 0xFF, 0xFF]) ∧
      (un = 0 → 128 ≤ first → s.laneUnused first = false → Lands (exec (.laneTestStart mb) s) fun e => Only [.hatch] s e ∧
        s.Replies e mb q stRefused [0x21, 0, 0xFF, 0xFF]) ∧
      (un = 1 → s.hasStandby = true → s.forwardBarred = false → (128 ≤ first → s.laneUnused first = true) →
        Lands (exec (.laneTestStart mb) s) fun e => Only [.freeCount, .hatch, .twin, .links] s e ∧ ∃ v, s.Forwards e mb (leBytes 4 v)) ∧
      (un = 1 → s.hasStandby = false → Lands (exec (.laneTestStart mb) s) fun e => Only [.freeCount, .hatch] s e ∧
        s.Replies e mb q stBadParam [0x22, 0, 0xFF, 0xFF])) ∧
    (s.Runs mb 0x0424 q → first ≤ 131 →
      (uAt q.payload 2 1 = 0 → Lands (exec (.laneTestStop mb) s) fun e => Only [.freeCount, .hatch, .todo, .par, .lanes, .links] s e ∧
        (if (s.lane first).st = .test then (e.lane first).st = s.freshSt first ∧
          (e.lane first).test = { (s.lane first).test with mode := 0, chkLock := false } else e.lane first = s.lane first) ∧
        s.OneLane e first ∧ s.Replies e mb q stOk []) ∧
      (uAt q.payload 2 1 = 1 → s.hasStandby = true → s.forwardBarred = false → Lands (exec (.laneTestStop mb) s) fun e =>
        Only [.hatch, .twin, .links] s e ∧ s.Forwards e mb []) ∧
      (uAt q.payload 2 1 = 1 → s.hasStandby = false → Lands (exec (.laneTestStop mb) s) fun e => Only [.hatch] s e ∧
        s.Replies e mb q stBadParam [0x22, 0, 0xFF, 0xFF])) ∧
    (s.Runs mb 0x0423 q → first ≤ 131 → Lands (exec (.laneTestRead mb) s) fun e => Only [.hatch] s e ∧
      s.Replies e mb q stOk (leBytes 1 (s.lane first).test.mode ++ leBytes 1 (s.lane first).test.pattern ++
        leBytes 1 (b2n (s.lane first).test.chkLock) ++ [0] ++ leBytes 4 (s.lane first).test.lockLosses ++
        leBytes 8 (s.lane first).test.bits ++ leBytes 8 (s.lane first).test.bitErr ++ leBytes 8 (s.lane first).test.symErr ++
        leBytes 4 ((s.mono - (s.lane first).test.startAt) / 8000000)))

/-- R42, R139, R140, R148, R157 to R161, R179, R183, R186, R371, R406: what a head takes from valid upstream blocks: converted samples unless they are
stamped too far ahead, health, faults once per CODE and TIME, stream records into the pantry slot that names the lane; IDLE and misdirected
blocks, which every lane can receive, leave no report but mark the link's latest valid block. A block of another role epoch makes the head
repeat ROLE. Every byte of the pantry but the 16 of the stream record stays, and so does every other lane's link. -/
def Obligations.CellReports : Prop :=
  (∀ (lane : Fin 132) (h : RxHeader) (s : State), (s.lane lane).st.receives = true → ∀ c ∈ [Instr.misdirectedRx lane h, Instr.idleBlockRx lane h],
    Lands (exec c s) fun e => Only [.todo, .par, .faults, .twin, .lanes, .links] s e ∧
      (lane.val < 130 → Only [.par, .faults, .lanes, .links] s e) ∧ s.OneLink e lane ∧ s.OneLane e lane ∧
      (e.lnk lane).upSeq = some h.seq.toNat ∧ (e.lnk lane).validAt = s.mono ∧ (e.lnk lane).stale = false ∧
      (e.lnk lane).samples = (s.lnk lane).samples ∧ (e.lnk lane).queue = (s.lnk lane).queue ∧
      (lane.val < 128 → c = .idleBlockRx lane h → h.etag.toNat ≠ s.twin.epoch % 4 → (e.lnk lane).roleRepeat = true) ∧
      (130 ≤ lane.val → e.twin.rxAt = s.mono)) ∧
  (∀ (lane : Fin 128) (h : RxHeader) (p : BitVec 96) (s : State), (s.lane lane).st.receives = true →
    (Lands (exec (.sampleRx lane h p) s) fun e =>
      Only [.todo, .par, .faults, .lanes, .links] s e ∧ s.OneLink e lane ∧ (e.lnk lane).health = (s.lnk lane).health ∧
      (800 < sdiff 24 (p.toNat / 2 ^ 72 % 2 ^ 24) (s.now % 2 ^ 24) → (e.lnk lane).samples = (s.lnk lane).samples) ∧
      (sdiff 24 (p.toNat / 2 ^ 72 % 2 ^ 24) (s.now % 2 ^ 24) ≤ 800 →
        (∀ i < 4, ∀ c, c = 4 * (p.toNat / 2 ^ 64 % 2) + i → eKind (s.entry lane) c ≠ 0 →
          ((e.lnk lane).samples.get {} c).value = sat16 (signed 16 (p.toNat / 2 ^ (48 - 16 * i) % 2 ^ 16) * eGain (s.entry lane) c / 16384 +
            eOffset (s.entry lane) c) ∧
          ((e.lnk lane).samples.get {} c).at_ = some ((s.now : Int) + sdiff 24 (p.toNat / 2 ^ 72 % 2 ^ 24) (s.now % 2 ^ 24)).toNat) ∧
        (∀ c, c / 4 ≠ p.toNat / 2 ^ 64 % 2 ∨ eKind (s.entry lane) c = 0 → (e.lnk lane).samples.get {} c = (s.lnk lane).samples.get {} c))) ∧
    (Lands (exec (.healthRx lane h p) s) fun e => Only [.todo, .par, .faults, .lanes, .links] s e ∧ s.OneLink e lane ∧
      (e.lnk lane).samples = (s.lnk lane).samples ∧
      (if p.toNat / 2 ^ 88 = 1 then (e.lnk lane).health = rxBytes p ∧ (e.lnk lane).healthAt = s.shortNow
        else (e.lnk lane).health = (s.lnk lane).health ∧ (e.lnk lane).healthAt = (s.lnk lane).healthAt)) ∧
    (Lands (exec (.faultRx lane h p) s) fun e => s.OneLink e lane ∧
      if ∃ x ∈ (s.lnk lane).faultsSeen, x.1 = p.toNat / 2 ^ 88 ∧ x.2.1 = p.toNat / 2 ^ 32 % 2 ^ 32 ∧ s.mono < x.2.2 + 2 ^ 31
      then Only [.par, .faults, .lanes, .links] s e ∧ e.faults.firings = s.faults.firings
      else s.Fired e 0x38 ∧ Only [.todo, .hatch, .notif, .par, .faults, .pantry, .lanes, .links] s e ∧
        (e.lnk lane).faultsSeen.head? = some (p.toNat / 2 ^ 88, p.toNat / 2 ^ 32 % 2 ^ 32, s.mono)) ∧
    ((∀ j < 4, s.pu 0x050E j 0 2 ≠ lane.val) → Lands (exec (.streamRx lane h p) s) fun e => Only [.par, .faults, .lanes, .links] s e ∧
      e.links.wptr = s.links.wptr ∧ s.OneLink e lane) ∧
    (∀ k < 4, ∀ a, a = s.pu 0x050E k 4 4 + s.links.wptr.get 0 k → (∀ j < 4, s.pu 0x050E j 0 2 = lane.val ↔ j = k) → s.pantry.mem.wf = true →
      Lands (exec (.streamRx lane h p) s) fun e => Only [.freeCount, .par, .faults, .pantry, .lanes, .links] s e ∧
        e.links.wptr.get 0 k = (s.links.wptr.get 0 k + 16) % max 16 (s.pu 0x050E k 8 4) ∧ s.OneLink e lane ∧
        (∀ b, b < a ∨ a + 16 ≤ b → e.pantry.mem.read b = s.pantry.mem.read b) ∧
        (s.bankOff (a / 0x20000) = true → e.pantry.mem = s.pantry.mem) ∧
        (s.bankOff (a / 0x20000) = false → (∀ x ∈ s.slotOthers k, a + 16 ≤ x.1 ∨ x.1 + x.2 ≤ a) → e.freeCount = s.freeCount ∧
          ∀ i < 16, e.pantry.mem.read (a + i) = (rxBytes p ++ leBytes 4 s.shortNow).getD i 0)))

/-- R42, R148, R163, R168, R170 to R173, R184, R185, R205, R277: how an authentication goes on the blocks of the endpoint: the identity and the nonce are
kept; a right response makes the head's own outcome PASS, or OPEN where AUTH_REQUIRED is 0, a wrong one or an unknown identity fails the
exchange; RESULT 0 then makes the lane authenticated, and any other RESULT fails it; EP_REAUTH is answered at the end. An acknowledgement ends
the PARAM exchange it names, and the access that waits behind it starts. A REPLY in time ends a delay measurement with a DELAY_RESP. Of a block
of another role epoch nothing is taken (LinkSending, CellReports). -/
def Obligations.LinkExchanges : Prop :=
  (∀ (lane : Fin 128) (h : RxHeader) (p : BitVec 96) (s : State), s.Takes lane h →
    (p.toNat / 2 ^ 88 = 0x11 → Lands (exec (.authIdentRx lane h p) s) fun e =>
      (e.lnk lane).ident = { id := p.toNat % 2 ^ 64, cellType := p.toNat / 2 ^ 80 % 2 ^ 8, version := p.toNat / 2 ^ 64 % 2 ^ 16, fresh := true } ∧
      (e.lnk lane).authId = (if (s.lnk lane).auth = .running then some (p.toNat % 2 ^ 64) else (s.lnk lane).authId) ∧
      Only [.todo, .hatch, .notif, .par, .faults, .pantry, .lanes, .links] s e ∧ s.OneLink e lane) ∧
    (p.toNat / 2 ^ 88 = 0x12 → (s.lnk lane).auth = .running → Lands (exec (.authChallengeRx lane h p) s) fun e =>
      (e.lnk lane).nonceE = some (p.toNat % 2 ^ 64) ∧ (e.lnk lane).auth = .running ∧ Only [.par, .faults, .lanes, .links] s e ∧
      s.OneLink e lane) ∧
    (∀ id ne key, p.toNat / 2 ^ 88 = 0x13 → (s.lnk lane).auth = .running → (s.lnk lane).headOutcome = none →
      (s.lnk lane).authId = some id → (s.lnk lane).nonceE = some ne → s.linkKey id = some key →
      (s.p0 0x0501 = 0 ∨ macOf key 0x45 id (s.lnk lane).nonceH ne = p.toNat % 2 ^ 64) → Lands (exec (.authResponseRx lane h p) s) fun e =>
        (e.lnk lane).headOutcome = some (if s.p0 0x0501 = 0 then .open_ else .passed) ∧ (e.lnk lane).auth = .running ∧
        (e.lnk lane).queue = (s.lnk lane).queue ++ [{ type := 0x0A, payload := 2 * 2 ^ 88 + macOf key 0x48 id ne (s.lnk lane).nonceH },
          { type := 0x0A, payload := 3 * 2 ^ 88 + (if s.p0 0x0501 = 0 then 2 * 2 ^ 80 else 0) }] ∧
        Only [.freeCount, .par, .faults, .lanes, .links] s e ∧ s.OneLink e lane) ∧
    (∀ id, p.toNat / 2 ^ 88 = 0x13 → (s.lnk lane).auth = .running → (s.lnk lane).headOutcome = none → (s.lnk lane).authId = some id →
      (s.linkKey id = none ∨ (s.p0 0x0501 ≠ 0 ∧ ∀ key ne, s.linkKey id = some key → (s.lnk lane).nonceE = some ne →
        macOf key 0x45 id (s.lnk lane).nonceH ne ≠ p.toNat % 2 ^ 64)) → Lands (exec (.authResponseRx lane h p) s) fun e =>
        (e.lnk lane).headOutcome = some .failed ∧ (e.lnk lane).auth = .failed ∧ s.Fired e 0x15 ∧
        (∃ m, (e.lnk lane).queue = (s.lnk lane).queue ++ [{ type := 0x0A, payload := 2 * 2 ^ 88 + m },
          { type := 0x0A, payload := 3 * 2 ^ 88 + 2 ^ 80 }]) ∧
        Only [.freeCount, .todo, .hatch, .notif, .par, .faults, .pantry, .lanes, .links] s e ∧ s.OneLink e lane) ∧
    (∀ o, p.toNat / 2 ^ 80 = 0x1400 → (s.lnk lane).auth = .running → (s.lnk lane).headOutcome = some o →
      Lands (exec (.authResultRx lane h p) s) fun e => (e.lnk lane).auth = o ∧ (e.dt.lane.get {} lane).floor = none ∧
        (∀ mb q, (s.lnk lane).authMb = some mb → (s.box mb).taken = some q →
          s.Replies e mb q stOk (leBytes 1 (if o = .open_ then 4 else 2) ++ [0, 0, 0])) ∧
        ((s.lnk lane).authMb = none → e.hatch = s.hatch) ∧
        Only [.hatch, .par, .faults, .lanes, .links, .dt] s e ∧ s.OneLink e lane) ∧
    (p.toNat / 2 ^ 88 = 0x14 → p.toNat / 2 ^ 80 % 2 ^ 8 ≠ 0 → (s.lnk lane).auth = .running →
      Lands (exec (.authResultRx lane h p) s) fun e => (e.lnk lane).auth = .failed ∧ (e.lnk lane).authAt = s.mono ∧ s.Fired e 0x15 ∧
        Only [.todo, .hatch, .notif, .par, .faults, .pantry, .lanes, .links] s e ∧ s.OneLink e lane) ∧
    (∀ x, (s.lnk lane).param = some x → p.toNat / 2 ^ 88 = 2 → p.toNat / 2 ^ 72 % 2 ^ 8 = x.tag → p.toNat / 2 ^ 48 % 2 ^ 16 = x.id →
      Lands (exec (.paramAckRx lane h p) s) fun e => Only [.todo, .hatch, .par, .faults, .lanes, .links] s e ∧ s.OneLink e lane ∧
        ((s.lnk lane).paramWait = [] → (e.lnk lane).param = none) ∧
        (∀ w r, (s.lnk lane).paramWait = w :: r → (e.lnk lane).paramWait = r ∧ (e.lnk lane).param = some
          { id := w.id, op := w.op, tag := (s.lnk lane).paramTag, value := w.value, tries := 1, sentAt := s.mono, for_ := w.for_ }) ∧
        (x.for_ = .dtFloor → (e.lnk lane).floorDone = true ∧ e.hatch = s.hatch) ∧
        ∀ mb q, x.for_ = .mailbox mb → (s.box mb).taken = some q →
          s.Replies e mb q stOk (leBytes 1 (p.toNat / 2 ^ 80 % 2 ^ 8) ++ leBytes 1 x.tries ++ [0, 0] ++ leBytes 4 (p.toNat % 2 ^ 32)))) ∧
  (∀ (lane : Fin 132) (h : RxHeader) (p : BitVec 96) (s : State) (x : Exchange) (l : Nat), l = queueLane lane → (s.lane lane).st.receives = true →
    (lane.val < 128 → h.etag.toNat = s.twin.epoch % 4) → (∀ q, 130 ≤ lane.val → s.twin.rxSeq = some q → 0 < sdiff 8 h.seq.toNat q) →
    p.toNat / 2 ^ 88 = 3 → (s.dly l).exch = some x → x.id = p.toNat / 2 ^ 80 % 2 ^ 8 →
    Lands (exec (.timeSyncReplyRx lane h p) s) fun e => (e.dly l).exch = none ∧ (∀ m, m ≠ l → e.dly m = s.dly m) ∧
      Only [.todo, .hatch, .notif, .par, .faults, .time, .twin, .pantry, .lanes, .links] s e ∧ e.time.tick = s.time.tick ∧
      if s.mono ≤ x.at_ + 160000 ∧ x.stepNo = s.time.stepNo then
        ∃ v < 2 ^ 32, (e.lnk l).queue = (s.lnk l).queue ++ [{ type := 0x06, payload := 2 * 2 ^ 88 + x.id * 2 ^ 80 + v * 2 ^ 32 }]
      else (e.lnk l).queue = (s.lnk l).queue)

/-- R143, R163, R170, R172, R179, R184, R185, R204: what a lane's timers do: a PARAM block not acknowledged is sent again up to four times and then fails
its access, a late authentication fails with LINK_AUTH_FAIL, a failed one starts afresh, ROLE falls due after ROLE_REPEAT blocks, silence for
UP_LOSS marks the samples stale unless the dark hold excuses it (R353), and a SYNC is queued each TS_INTERVAL and where one is owed. -/
def Obligations.LinkTimers : Prop :=
  ∀ (lane : Fin 128) (s : State),
    ((s.lane lane).st.working = true → s.p0 0x0508 ≤ (s.lnk lane).sinceRole + 1 → Next (exec (.roleRepeatDue lane) s) fun t => Only [.links] s t ∧
      (t.lnk lane) = { s.lnk lane with roleRepeat := true } ∧ s.OneLink t lane) ∧
    (∀ x, (s.lnk lane).param = some x → x.sentAt + 400000 ≤ s.mono → x.tries < 4 → (s.lane lane).st.working = true →
      (∀ b ∈ (s.lnk lane).queue, b.type ≠ 0x05) →
      Lands (exec (.paramRetryTimeout lane) s) fun e => Only [.links] s e ∧ (e.lnk lane).param = some { x with tries := x.tries + 1, sentAt := s.mono } ∧
        (e.lnk lane).queue = (s.lnk lane).queue ++
          [{ type := 0x05, payload := x.id * 2 ^ 80 + x.op * 2 ^ 72 + x.tag * 2 ^ 64 + x.value * 2 ^ 32 }] ∧ s.OneLink e lane) ∧
    (∀ x, (s.lnk lane).param = some x → x.sentAt + 400000 ≤ s.mono →
      ((s.lane lane).st.working = false ∨ (4 ≤ x.tries ∧ ∀ b ∈ (s.lnk lane).queue, b.type ≠ 0x05)) →
      Lands (exec (.paramRetryTimeout lane) s) fun e => Only [.todo, .hatch, .par, .links] s e ∧ s.OneLink e lane ∧
        ((s.lnk lane).paramWait = [] → (e.lnk lane).param = none) ∧
        ∀ mb q, x.for_ = .mailbox mb → (s.box mb).taken = some q → s.Replies e mb q stFailed [0x26, 0, 0xFF, 0xFF]) ∧
    ((s.lnk lane).auth = .running → (s.lnk lane).authAt + 8000000 ≤ s.mono →
      Lands (exec (.authTimeout lane) s) fun e => (e.lnk lane).auth = .failed ∧ (e.lnk lane).authAt = s.mono ∧ s.Fired e 0x15 ∧
        Only [.freeCount, .todo, .hatch, .notif, .par, .faults, .pantry, .links] s e ∧ s.OneLink e lane) ∧
    ((s.lnk lane).auth = .failed → (s.lnk lane).authAt + 8000000 * s.p0 0x0503 ≤ s.mono → (s.lane lane).st.trained = true →
      Lands (exec (.authRetryExpire lane) s) fun e => (e.lnk lane).auth = .running ∧ (e.lnk lane).authAt = s.mono ∧
        (e.lnk lane).headOutcome = none ∧ (e.lnk lane).queue = (s.lnk lane).queue ++ [{ type := 0x0A, payload := 2 ^ 88 + (e.lnk lane).nonceH }] ∧
        Only [.freeCount, .links] s e ∧ s.OneLink e lane) ∧
    ((s.lane lane).st.working = true → s.idleOk lane = false → (s.lnk lane).stale = false →
      (s.lnk lane).validAt + 8000 * s.p0 0x050A ≤ s.mono → Lands (exec (.upLossTimeout lane) s) fun e => (e.lnk lane).stale = true ∧
        (if s.darkExempt lane = true then Only [.todo, .links] s e
          else s.faults.present.contains { src := 0x14, inst := lane, sub := 0 } = false → s.Fired e 0x14) ∧
        Only [.todo, .hatch, .notif, .par, .faults, .pantry, .links] s e ∧ s.OneLink e lane) ∧
    ((s.lane lane).st.trained = true → ((s.dly lane).syncOwed = true ∨ ((s.lnk lane).passed = true ∧ ((s.dly lane).lastSync = none ∨
        ∃ t, (s.dly lane).lastSync = some t ∧ (t + 8000 * s.p0 0x0608 ≤ s.mono ∨
          syncSlots (8000 * s.p0 0x0608) lane t < syncSlots (8000 * s.p0 0x0608) lane s.mono)))) →
      Lands (exec (.tsIntervalExpire lane) s) fun e => Only [.time, .links] s e ∧ (e.dly lane).lastSync = some s.mono ∧
        (e.dly lane).syncOwed = false ∧ (∀ m, m ≠ lane.val → e.dly m = s.dly m) ∧
        (e.lnk lane).queue = (s.lnk lane).queue ++ [{ type := 0x06, payload := 2 ^ 88 + (s.dly lane).nextId * 2 ^ 80 }] ∧ s.OneLink e lane)

/-- R122, R141, R143, R172, R184, R185: what a downstream slot sends: ROLE where it is owed, before anything else; with nothing timed to send the first
waiting block the lane may send; else IDLE, which is also all a lane in ALIGN sends; a lane in power-save idle sends nothing while nothing waits,
and a lane in no working state nothing at all. EP_PARAM sends its access, or queues it behind the one in progress, and its reply waits; EP_REAUTH
restarts the exchange and waits for its end; with a UNIT of 1 or 2 the standby takes it first. -/
def Obligations.LinkSending : Prop :=
  ∀ (s : State),
    (∀ lane : Fin 128, (s.lane lane).st = .linked ∨ (s.lane lane).st = .hunt → (s.lnk lane).roleOwed = true →
      Lands (exec (.downstreamSlot lane) s) fun e => (e.lnk lane).roleOwed = false ∧ (e.lnk lane).sinceRole = 0 ∧
        (e.lnk lane).downSeq = ((s.lnk lane).downSeq + 1) % 256 ∧ (e.lnk lane).queue = (s.lnk lane).queue ∧
        (e.lnk lane).lastOut = ofMsb (blockBits 0x07 (s.twin.epoch % 4) (s.lnk lane).downSeq (s.rolePayload lane)) ∧
        Only [.todo, .par, .lanes, .links, .mod] s e ∧ s.OneLink e lane ∧ s.OneLane e lane) ∧
    (∀ (lane : Fin 128) (b : DownBlock), (s.lane lane).st = .linked ∨ (s.lane lane).st = .hunt → (s.lnk lane).roleOwed = false →
      (s.lnk lane).roleRepeat = false → s.timedOk lane = false → s.bestQueued lane = some b → Lands (exec (.downstreamSlot lane) s) fun e =>
        (e.lnk lane).queue = removeOne b (s.lnk lane).queue ∧ (e.lnk lane).downSeq = ((s.lnk lane).downSeq + 1) % 256 ∧
        (e.lnk lane).lastOut = ofMsb (blockBits b.type (s.twin.epoch % 4) (s.lnk lane).downSeq (s.stampPayload b.type b.payload)) ∧
        Only [.todo, .par, .time, .lanes, .links, .mod] s e ∧ s.OneLink e lane ∧ s.OneLane e lane) ∧
    (∀ lane : Fin 128, (s.lane lane).st = .linked ∨ (s.lane lane).st = .hunt → (s.lnk lane).roleOwed = false → (s.lnk lane).roleRepeat = false →
      s.timedOk lane = false → s.bestQueued lane = none → Lands (exec (.downstreamSlot lane) s) fun e =>
        (e.lnk lane).lastOut = ofMsb (blockBits 0x00 (s.twin.epoch % 4) (s.lnk lane).downSeq 0) ∧
        (e.lnk lane).downSeq = ((s.lnk lane).downSeq + 1) % 256 ∧ (e.lane lane).idleRun = (s.lane lane).idleRun + 1 ∧
        Only [.par, .lanes, .links, .mod] s e ∧ s.OneLink e lane ∧ s.OneLane e lane) ∧
    (∀ lane : Fin 128, (s.lane lane).st = .sleep → s.idleOk lane = true → (s.lnk lane).roleOwed = false → (s.lnk lane).roleRepeat = false →
      s.timedOk lane = false → s.bestQueued lane = none → Next (exec (.downstreamSlot lane) s) fun t => Only [.par, .links, .mod] s t ∧
        (t.lnk lane).lastOut = (s.lnk lane).lastOut ∧ (t.lnk lane).downSeq = (s.lnk lane).downSeq) ∧
    (∀ lane : Fin 128, (s.lane lane).st ∉ [.align, .linked, .hunt, .sleep] → exec (.downstreamSlot lane) s = .next s) ∧
    (∀ lane : Fin 128, (s.lane lane).st = .align → Next (exec (.downstreamSlot lane) s) fun t =>
      (t.lnk lane).lastOut = ofMsb (blockBits 0x00 (s.twin.epoch % 4) (s.lnk lane).downSeq 0) ∧
      (t.lnk lane).downSeq = ((s.lnk lane).downSeq + 1) % 256 ∧ Only [.lanes, .links] s t ∧ s.OneLink t lane ∧ s.OneLane t lane) ∧
    (∀ (mb : Fin 8) (q : Request) (lane : Nat), s.Runs mb 0x0510 q → lane = uAt q.payload 0 2 → lane ≤ 127 → uAt q.payload 2 1 ≤ 1 →
      (((s.lane lane).st.trained = true ∧ (s.lnk lane).passed = true) → Lands (exec (.epParam mb) s) fun e => Only [.hatch, .links] s e ∧
        (e.box mb) = { s.box mb with waiting := .epParam lane } ∧ (∀ n, n ≠ mb.val → e.box n = s.box n) ∧
        (let v := if uAt q.payload 2 1 = 1 then uAt q.payload 8 4 else 0
          if (s.lnk lane).param.isSome = true then (e.lnk lane).paramWait = (s.lnk lane).paramWait ++
            [{ id := uAt q.payload 4 2, op := uAt q.payload 2 1, value := v, for_ := .mailbox mb }]
          else (e.lnk lane).param = some
            { id := uAt q.payload 4 2, op := uAt q.payload 2 1, tag := (s.lnk lane).paramTag, value := v, tries := 1, sentAt := s.mono,
              for_ := .mailbox mb }) ∧ s.OneLink e lane) ∧
      (((s.lane lane).st.trained = false ∨ (s.lnk lane).passed = false) → Lands (exec (.epParam mb) s) fun e => Only [.hatch] s e ∧
        s.Replies e mb q stRefused [0x24, 0, 0xFF, 0xFF])) ∧
    (∀ (mb : Fin 8) (q : Request) (lane : Nat), s.Runs mb 0x0511 q → lane = uAt q.payload 0 2 → lane ≤ 127 →
      (uAt q.payload 2 1 = 0 → (s.twin.role ≠ .active ∨ eEnabled (s.entry lane) = false ∨ s.strRuns (s.strOf lane) = false) →
        (s.lane lane).st.trained = true → Lands (exec (.epReauth mb) s) fun e => Only [.freeCount, .todo, .hatch, .links] s e ∧
          (e.lnk lane).auth = .running ∧ (e.lnk lane).authMb = some mb ∧ (e.lnk lane).authAt = s.mono ∧
          ((s.lnk lane).authMb = none → (e.box mb) = { s.box mb with waiting := .reauth lane }) ∧
          (∀ n, n ≠ mb.val → (s.lnk lane).authMb ≠ some n → e.box n = s.box n) ∧ s.OneLink e lane) ∧
      (uAt q.payload 2 1 = 1 → s.hasStandby = true → s.forwardBarred = false → Lands (exec (.epReauth mb) s) fun e =>
        Only [.hatch, .twin, .links] s e ∧ s.Forwards e mb []) ∧
      (1 ≤ uAt q.payload 2 1 → uAt q.payload 2 1 ≤ 2 → s.hasStandby = false → Lands (exec (.epReauth mb) s) fun e => Only [.hatch] s e ∧
        s.Replies e mb q stBadParam [0x22, 0, 0xFF, 0xFF]))

/-- R167, R192 to R199, R202, R227, R407: a SYNC is answered with a REPLY of its number on the same lane; a DELAY_RESP of the source gives the offset,
and tick time is stepped by a large one where no string runs, else left as it is; the master sends RING_TIME and a SYNC each way every 10 µs; a ring
message is judged by its epoch, its hops, its generation and its head; a neighbour followed is left after 30 µs; a source silent for the loss
time leaves the unit in HOLDOVER with TIME_MASTER_LOSS; a claim to the mastership is adopted and acknowledged, and this unit's own is committed by the
last acknowledgement or after 200 µs. -/
def Obligations.TimeSources : Prop :=
  ∀ (s : State) (h : RxHeader) (p : BitVec 96),
    (∀ port : ServiceLane, s.SvcTakes port h → p.toNat / 2 ^ 88 = 1 → Lands (exec (.syncRx port h p) s) fun e =>
      (∃ x, e.time.svcAnswer.get? (queueLane (svcLane port)) = some x ∧ x.id = p.toNat / 2 ^ 80 % 2 ^ 8 ∧ x.t1 = 16 * (p.toNat % 2 ^ 64) ∧
        x.at_ = s.mono ∧ x.stepNo = s.time.stepNo ∧ (e.lnk (queueLane (svcLane port))).queue = (s.lnk (queueLane (svcLane port))).queue ++
          [{ type := 0x25, payload := 3 * 2 ^ 88 + (p.toNat / 2 ^ 80 % 2 ^ 8) * 2 ^ 80 + ((x.t2 + 8) / 16 % 2 ^ 32) * 2 ^ 32 }]) ∧
      e.time.tick = s.time.tick ∧ (s.fromSource (svcLane port) = true → e.time.lastMsg = s.mono ∧ e.time.state ≠ .holdover) ∧
      Only [.todo, .par, .faults, .time, .twin, .lanes, .links] s e) ∧
    (∀ (port : ServiceLane) x, s.SvcTakes port h → p.toNat / 2 ^ 88 = 2 → s.time.svcAnswer.get? (queueLane (svcLane port)) = some x →
      x.id = p.toNat / 2 ^ 80 % 2 ^ 8 → Lands (exec (.delayRespRx port h p) s) fun e =>
        e.time.svcAnswer.get? (queueLane (svcLane port)) = none ∧
        Only [.freeCount, .todo, .hatch, .notif, .par, .faults, .time, .sta, .twin, .pantry, .lanes, .links, .mod] s e ∧
        let c := (x.t1 : Int) + p.toNat / 2 ^ 32 % 2 ^ 32 - x.t2
        let large := decide (16 * s.p0 0x0605 < c.natAbs)
        let within := if c.natAbs ≤ s.p0 0x0606 then (if s.time.state = .holdover then 0 else s.time.within) + 1 else 0
        let beyond := if 2 * s.p0 0x0606 < c.natAbs then (if s.time.state = .holdover then 0 else s.time.beyond) + 1 else 0
        if x.stepNo = s.time.stepNo ∧ s.sourceLane (svcLane port) x.id = true then
          e.time.offset = satI 32 c ∧ e.time.lastMsg = s.mono ∧ -200000 ≤ e.time.rate ∧ e.time.rate ≤ 200000 ∧
          (large = true → s.anyRuns = false → e.time.tick = ((s.now : Int) + c / 16).toNat % 2 ^ 64 ∧ e.time.stepNo = s.time.stepNo + 1 ∧
            e.time.genStep = true ∧ e.time.state = .locking) ∧
          (large = false ∨ s.anyRuns = true → e.time.tick = s.time.tick ∧ e.time.stepNo = s.time.stepNo ∧ e.time.within = within ∧
            e.time.state = if 8 ≤ within ∨ (s.time.state = .locked ∧ beyond < 2) then .locked else .locking)
        else e.time = { s.time with svcAnswer := s.time.svcAnswer.erase (queueLane (svcLane port)) }) ∧
    (s.ringEn = true → s.isMaster = true → s.time.ringDue ≤ s.mono →
      Lands (exec .ringTimeSend s) fun e => e.time = { s.time with ringDue := s.mono + 80000 } ∧ Only [.time, .links, .ring] s e ∧
        ∀ lane ∈ [128, 129], (e.lnk lane).queue = if (s.lane lane).st = .linked then
          let id := if lane = 129 ∧ (s.lane 128).st = .linked then (s.ring.syncId + 1) % 256 else s.ring.syncId
          (s.lnk lane).queue ++ [{ type := 0x40, payload := s.ringHdr allNodes + s.time.gen * 2 ^ 48 + s.time.masterHead * 2 ^ 45 + id * 2 ^ 37 },
            { type := 0x06, payload := 2 ^ 88 + id * 2 ^ 80 }] else (s.lnk lane).queue) ∧
    (∀ side : RingSide, (s.lane (ringLane side)).st.receives = true →
      Lands (exec (.ringTimeRx side h p) s) fun e => e.time.tick = s.time.tick ∧
        Only [.todo, .hatch, .notif, .par, .faults, .time, .twin, .pantry, .lanes, .links, .ring] s e ∧
        let d := sdiff 16 (p.toNat / 2 ^ 48 % 2 ^ 16) s.time.gen
        let head := p.toNat / 2 ^ 45 % 2 ^ 3
        if s.ringStale p = true ∨ 16 < p.toNat / 2 ^ 81 % 2 ^ 5 ∨ d < 0 ∨ (d = 0 ∧ s.time.masterHead < head) then
          e.time = s.time ∧ (e.lnk 128).queue = (s.lnk 128).queue ∧ (e.lnk 129).queue = (s.lnk 129).queue
        else
          (if 0 < d ∨ head < s.time.masterHead then e.time.gen = p.toNat / 2 ^ 48 % 2 ^ 16 ∧ e.time.masterHead = head
            else e.time.gen = s.time.gen ∧ e.time.masterHead = s.time.masterHead) ∧
          (if side = .e then e.time.east else e.time.west) = { hops := some (p.toNat / 2 ^ 81 % 2 ^ 5), at_ := s.mono } ∧
          (d = 0 → head = s.time.masterHead → s.ring.follow = ringSource (ringLane side) → s.isMaster = false → s.ringEn = true →
            (s.twin.role = .active ∨ s.twin.role = .referee ∨ s.twin.role = .ringMember) →
            e.ring.awaited.get? (ringLane side) = some (p.toNat / 2 ^ 37 % 2 ^ 8) ∧ e.time.lastMsg = s.mono ∧
            e.time.hops = p.toNat / 2 ^ 81 % 2 ^ 5 ∧ ((s.lane (otherRing (ringLane side))).st = .linked →
              (e.lnk (otherRing (ringLane side))).queue = (s.lnk (otherRing (ringLane side))).queue ++
                [{ type := 0x40, payload := s.ringHdr allNodes + (p.toNat / 2 ^ 81 % 2 ^ 5 + 1) * 2 ^ 81 + s.time.gen * 2 ^ 48 +
                    s.time.masterHead * 2 ^ 45 + s.ring.syncId * 2 ^ 37 }, { type := 0x06, payload := 2 ^ 88 + s.ring.syncId * 2 ^ 80 }]))) ∧
    (∀ side : RingSide, let other := otherRing (ringLane side)
      s.ring.follow = ringSource (ringLane side) → (if side = .e then s.time.east else s.time.west).at_ + 240000 ≤ s.mono →
      Lands (exec .timeNeighbourTimeout s) fun e => e.time.tick = s.time.tick ∧
        e.ring.follow = (if s.nbrFresh (if side = .e then s.time.west else s.time.east) = true then ringSource other else .none) ∧
        Only [.todo, .hatch, .notif, .par, .faults, .time, .pantry, .ring] s e) ∧
    (s.time.state = .locking ∨ s.time.state = .locked → s.time.lastMsg + 8000 * s.p0 0x0607 ≤ s.mono →
      Lands (exec .masterLossExpire s) fun e => e.time.state = .holdover ∧ e.time.rate = clampI (-200000) 200000 s.heldRate ∧
        e.time.tick = s.time.tick ∧ (s.faults.present.contains { src := 0x20, inst := noInst, sub := 0 } = false → s.Fired e 0x20) ∧
        Only [.todo, .hatch, .notif, .par, .faults, .time, .pantry] s e) ∧
    (∀ side : RingSide, s.RingTakes side p → p.toNat / 2 ^ 60 % 2 ^ 4 = 1 → Lands (exec (.ringMasterRx side h p) s) fun e =>
      let gen := p.toNat / 2 ^ 44 % 2 ^ 16
      let head := p.toNat / 2 ^ 41 % 2 ^ 3
      let claimant := p.toNat / 2 ^ 36 % 2 ^ 5
      let d := sdiff 16 gen s.time.gen
      let acked := s.ringEn = true → ∀ lane ∈ [128, 129], (s.lane lane).st = .linked → (e.lnk lane).queue.getLast? =
        some { type := 0x44, payload := s.ringHdr claimant + (2 * 2 ^ 60 + gen * 2 ^ 44 + head * 2 ^ 41 + claimant * 2 ^ 36) }
      e.time.tick = s.time.tick ∧
      (s.time.claim = none → (if 0 < d ∨ (d = 0 ∧ head < s.time.masterHead) then e.time.gen = gen ∧ e.time.masterHead = head
          else e.time.gen = s.time.gen ∧ e.time.masterHead = s.time.masterHead) ∧
        (s.twin.role = .active → 0 ≤ d → acked)) ∧
      (∀ c, s.time.claim = some c → c.gen = gen →
        (c.head < head → e.time.claim = some c ∧ e.time.gen = s.time.gen) ∧
        (head < c.head → e.time.claim = none ∧ e.time.gen = gen ∧ e.time.masterHead = head ∧ acked ∧
          ∀ n ∈ c.mbs, ∀ q, (s.box n).taken = some q → (e.box n).state = .done ∧
            (e.box n).reply = replyBytes stRefused q.seq s.twin.epoch [0x38, 0, 0xFF, 0xFF]))) ∧
    (∀ (side : RingSide) c, s.RingTakes side p → p.toNat / 2 ^ 60 % 2 ^ 4 = 2 → s.time.claim = some c → c.gen = p.toNat / 2 ^ 44 % 2 ^ 16 →
      c.head = p.toNat / 2 ^ 41 % 2 ^ 3 → p.toNat / 2 ^ 36 % 2 ^ 5 = s.node → Lands (exec (.ringMasterRx side h p) s) fun e =>
        let left := c.waitFor.filter (· != p.toNat / 2 ^ 91 % 2 ^ 5 / 2)
        if left ≠ [] then e.time = { s.time with claim := some { c with waitFor := left } } else s.CommitsMaster e c) ∧
    (∀ c, s.time.claim = some c → c.at_ + 1600000 ≤ s.mono → Lands (exec .timeMasterSetTimeout s) fun e => s.CommitsMaster e c ∧
      Only [.todo, .hatch, .notif, .par, .faults, .time, .pantry, .ring] s e)

/-- R210 to R213, R216 to R218, R228, R229: frames an enabled port with its link up does not admit are dropped and counted, those it admits are
counted as received; a link's alignment is taken; a port that runs PTP sends Pdelay_Req at its interval, and as master Sync at its own; the earliest
frame queued is sent once its time has come and the port is free, preamble, delimiter, padding and FCS around it, late frames counted, and stamped
where asked; a port that is off sends nothing. STA_LAUNCH checks its operands in order and queues a frame in the order of its time;
STA_STAMP_READ hands over the host's stamps and removes them. -/
def Obligations.StationPorts : Prop :=
  ∀ (s : State) (port : Fin 2),
    (∀ frame a b c d f, s.staUp port = true → s.counts 0x0707 port = [a, b, c, d, f] →
      (s.staAdmits port frame = false → Next (exec (.staFrameRx port frame) s) fun t => Only [.par] s t ∧
        t.counts 0x0707 port = [a, b, min (2 ^ 32 - 1) (c + 1), d, f]) ∧
      (s.staAdmits port frame = true → Lands (exec (.staFrameRx port frame) s) fun e => Only [.freeCount, .par, .time, .sta] s e ∧
        (e.counts 0x0707 port).getD 1 0 = min (2 ^ 32 - 1) (b + 1) ∧ e.time.tick = s.time.tick ∧ (e.port port).queue = (s.port port).queue ∧
        ∀ n, n ≠ port.val → e.port n = s.port n)) ∧
    (∀ frame, s.staUp port = false → exec (.staFrameRx port frame) s = .next s) ∧
    (∀ align, s.staOn port = true → Next (exec (.staLinkUp port align) s) fun t => Only [.sta] s t ∧
      t.port port = { s.port port with linkUp := true, align, listenAt := if (s.port port).linkUp = true then (s.port port).listenAt else s.mono } ∧
      ∀ n, n ≠ port.val → t.port n = s.port n) ∧
    (s.ptpRuns port = true → (s.port port).pdelayAt + logTicks (s.ps 0x0705 port 5 1) ≤ s.mono →
      Next (exec (.ptpMessageTimer port .pdelayReq) s) fun t =>
        Only [.par, .sta] s t ∧ (t.port port).pdelayAt = s.mono ∧ (t.port port).pdelaySeq = ((s.port port).pdelaySeq + 1) % 65536 ∧
        (t.port port).pdelayT4 = none ∧ (t.port port).queue = (s.port port).queue ∧ (∀ n, n ≠ port.val → t.port n = s.port n) ∧
        (s.ptpCode port ≠ 6 → (s.port port).ptpWait = [] → (s.port port).queue = [] → (s.port port).busyUntil = 0 →
          (t.port port).ptpOut.getLast? = some (wireFrame (s.ptpFrame port
            (s.ptpHdr port 2 54 (s.port port).pdelaySeq 0 ++ beBytes 10 0 ++ beBytes 10 0))) ∧
          ((s.port port).stamps.length < 16 → (t.port port).pdelayT1 = s.now + 384 + s.pu 0x0703 port 0 2))) ∧
    (s.ptpCode port = 6 → s.ptpRuns port = true → (s.port port).syncAt + logTicks (s.ps 0x0705 port 4 1) ≤ s.mono →
      Next (exec (.ptpMessageTimer port .sync) s) fun t => Only [.par, .sta] s t ∧ (t.port port).syncAt = s.mono ∧
        (t.port port).syncSeq = ((s.port port).syncSeq + 1) % 65536 ∧ (t.port port).queue = (s.port port).queue ∧
        ∀ n, n ≠ port.val → t.port n = s.port n) ∧
    (∀ kind, s.ptpRuns port = false → (s.port port).ptpWait = [] → exec (.ptpMessageTimer port kind) s = .next s) ∧
    (∀ x rest a b c d f, let u := s.ptpDrain port
      (u.port port).queue = x :: rest → u.portFree port x.at_ ≤ s.now → s.staUp port = true → u.counts 0x0707 port = [a, b, c, d, f] →
      Next (exec (.staLaunchDue port) s) fun t => Only [.freeCount, .par, .sta] s t ∧ (t.port port).queue = rest ∧
        (t.port port).lastTx = wireFrame x.data ∧ (t.port port).busyUntil = u.portFree port x.at_ + frameTicks x.data.length ∧
        (let late := x.late || decide (x.at_ < u.portFree port x.at_)
          let lost := x.stamp && decide (16 ≤ (u.port port).stamps.length)
          t.counts 0x0707 port = [min (2 ^ 32 - 1) (a + 1), b, c, if late = true then min 65535 (d + 1) else d,
            if lost = true then min 65535 (f + 1) else f] ∧
          (x.stamp = false → (t.port port).stamps = (u.port port).stamps) ∧
          (x.stamp = true → lost = false → ∃ k ≤ 64, (t.port port).stamps = List.dropWhile (fun y : StaStamp => decide (0xF000 ≤ y.id))
            ((u.port port).stamps ++ [{ id := x.id, late, tick := u.portFree port x.at_ + k }]))) ∧
        ∀ n, n ≠ port.val → t.port n = s.port n) ∧
    (s.staUp port = false → (s.port port).ptpWait = [] → exec (.staLaunchDue port) s = .next s) ∧
    (∀ (mb : Fin 8) (q : Request), s.Runs mb 0x0710 q → Lands (exec (.staLaunch mb) s) fun e =>
      let p := uAt q.payload 0 1
      let id := uAt q.payload 2 2
      let off := uAt q.payload 8 4
      let len := uAt q.payload 12 2
      let d := shortDiff (uAt q.payload 4 4) s.shortNow
      let tells := fun status (reason : Byte) => Only [.hatch] s e ∧ s.Replies e mb q status [reason, 0, 0xFF, 0xFF]
      if 1 < p then tells stBadParam 0x05
      else if s.staOn p = false then tells stRefused 0x36
      else if 0xF000 ≤ id then tells stBadParam 0x35
      else if len < 14 ∨ 1514 < len ∨ 0x1C0000 < off + len then tells stBadParam 0x05
      else if 800000000 < d then tells stBadParam 0x34
      else if d ≤ 0 ∧ s.pu 0x0708 p 0 1 = 0 then tells stRefused 0x33
      else if 32 ≤ (s.port p).queue.length then ∃ us, Only [.hatch, .par] s e ∧ s.Replies e mb q stBusy (leBytes 4 us) ∧
        ∀ x rest, (s.port p).queue = x :: rest → us = ceilDiv (s.portFree p x.at_ - s.now) 8000
      else Only [.hatch, .par, .pantry, .sta] s e ∧ s.Replies e mb q stOk (leBytes 1 (31 - (s.port p).queue.length) ++ [0, 0, 0]) ∧
        (e.port p).queue = launchInsert ⟨id, bit (uAt q.payload 1 1) 0, decide (d ≤ 0),
          if d ≤ 0 then s.now else s.tickOf (uAt q.payload 4 4), s.mpRead off len⟩ (s.port p).queue ∧
        ∀ n, n ≠ p → e.port n = s.port n) ∧
    (∀ (mb : Fin 8) (q : Request), s.Runs mb 0x0711 q → Lands (exec (.staStampRead mb) s) fun e =>
      let p := uAt q.payload 0 1
      let mine := (s.port p).stamps.filter fun x => decide (x.id < 0xF000)
      if 1 < p then Only [.hatch] s e ∧ s.Replies e mb q stBadParam [0x05, 0, 0xFF, 0xFF]
      else Only [.hatch, .sta] s e ∧ e.port p = { s.port p with stamps := [] } ∧ (∀ n, n ≠ p → e.port n = s.port n) ∧
        s.Replies e mb q stOk (leBytes 1 mine.length ++ [0] ++ leBytes 2 ((s.counts 0x0707 p).getD 4 0) ++
          (mine.map fun x => leBytes 2 x.id ++ leBytes 2 (b2n x.late) ++ leBytes 8 x.tick).flatten))

/-- R220, R221, R223: a capture started by the host or by an edge of TIME_CAP_IN that CAP_EDGE selects and that stands for 16 ticks is stored once,
with the tick time it lies at and the PTP time of the same instant; a further one before the host has read it only marks an overrun; TCAP_STATUS
clears its bits where written 1; each second of PTP time starts a pulse while PPS_EN is 1, which ends after its length.
And R195, R204, R226, R227: TIME_SET on the group's master with no string of the group running puts tick time at the value given and answers the old
one, with FLAGS bit 0 leaving PTP time where it is; it is refused while a string runs, and a unit that is not the master turns it away.
TIME_MASTER_SET checks its head and the generation expected; with no other head present it takes the next generation at once, else it sends its claim
and waits for the acknowledgements; while a claim is out, one for the same head joins it and of two heads the lower stands. -/
def Obligations.TimeCaptures : Prop :=
  (
  ∀ (s : State) (w : BitVec 32),
      (s.sys.stage ≠ .inReset → Next (exec (.tcapCapture w) s) fun t => Only [.freeCount, .hatch, .time] s t ∧ t.hatch.boxes = s.hatch.boxes ∧
        t.time.ppsEn = w.getLsbD 1 ∧ t.time.capEdge = w.toNat / 2 ^ 4 % 2 ^ 2 ∧ t.time.tick = s.time.tick ∧
        (w.getLsbD 0 = true → s.time.capValid = false → t.time.capValid = true ∧ t.time.capPin = false ∧
          t.time.capSeq = (s.time.capSeq + 1) % 65536 ∧ ∃ k, s.now + 1200 ≤ k ∧ k ≤ s.now + 2800 ∧ t.time.capTick = k % 2 ^ 64 ∧
            t.time.capSec = s.ptpTime k / 8000000000 ∧ t.time.capNs = s.ptpTime k % 8000000000 / 8 ∧ t.time.capSub = s.ptpTime k % 8) ∧
        (w.getLsbD 0 = true → s.time.capValid = true → t.time.capOverrun = true ∧ t.time.capTick = s.time.capTick ∧
          t.time.capSeq = s.time.capSeq ∧ t.time.capValid = true) ∧
        (w.getLsbD 0 = false → t.time.capValid = s.time.capValid ∧ t.time.capOverrun = s.time.capOverrun ∧ t.time.capTick = s.time.capTick ∧
          t.time.capSeq = s.time.capSeq)) ∧
      (∀ (rising : Bool) (ticks : BitVec 32), 16 ≤ ticks.toNat → s.time.capLevel ≠ some rising →
        Next (exec (.timeCapInEdge rising ticks) s) fun t => Only [.freeCount, .time] s t ∧ t.time.capLevel = some rising ∧
          t.time.tick = s.time.tick ∧
          if s.time.running = true ∧ (s.time.capEdge = 2 ∨ (s.time.capEdge = 0 ∧ rising = true) ∨ (s.time.capEdge = 1 ∧ rising = false)) then
            (s.time.capValid = false → t.time.capValid = true ∧ t.time.capPin = true ∧ t.time.capSeq = (s.time.capSeq + 1) % 65536 ∧
              ∃ k, s.now ≤ k + 2 ∧ k ≤ s.now + 2 ∧ t.time.capTick = k % 2 ^ 64 ∧ t.time.capSec = s.ptpTime k / 8000000000 ∧
                t.time.capNs = s.ptpTime k % 8000000000 / 8 ∧ t.time.capSub = s.ptpTime k % 8) ∧
            (s.time.capValid = true → t.time = { s.time with capLevel := some rising, capOverrun := true })
          else t.time = { s.time with capLevel := some rising }) ∧
      (∀ (rising : Bool) (ticks : BitVec 32), ticks.toNat < 16 ∨ s.time.capLevel = some rising → exec (.timeCapInEdge rising ticks) s = .next s) ∧
      (s.sys.stage ≠ .inReset → Next (exec (.tcapStatusWrite w) s) fun t => Only [.hatch, .time] s t ∧
        t.time = { s.time with capValid := s.time.capValid && !w.getLsbD 0, capOverrun := s.time.capOverrun && !w.getLsbD 2 } ∧
        t.hatch.boxes = s.hatch.boxes) ∧
      (s.time.running = true → s.time.ppsLast ≠ some (s.ptpTime s.now / 8000000000) → Lands (exec .ppsSecond s) fun e =>
        e.time = { s.time with ppsLast := some (s.ptpTime s.now / 8000000000),
                               ppsHigh := if s.time.ppsEn = true then some (s.mono + 8000 * s.p0 0x060F) else s.time.ppsHigh } ∧
        Only [.hatch, .par, .time, .bat, .en] s e) ∧
      (∀ k, s.time.ppsHigh = some k → k ≤ s.mono → Next (exec .ppsPulseEnd s) fun t => Only [.time] s t ∧
        t.time = { s.time with ppsHigh := none })) ∧
  (
  ∀ (s : State) (mb : Fin 8) (q : Request),
      (s.Runs mb 0x0620 q → Lands (exec (.timeSet mb) s) fun e =>
        if s.isMaster = false then Only [.hatch] s e ∧ s.Turned e mb q stNotInRole [0x32, 0, 0xFF, 0xFF]
        else if s.groupRuns = true then Only [.hatch] s e ∧ s.Replies e mb q stRefused [0x30, 0, 0xFF, 0xFF]
        else e.now = uAt q.payload 0 8 ∧ e.time.named = true ∧ e.time.genStep = true ∧ e.time.stepNo = s.time.stepNo + 1 ∧
          e.peff 0x060D noInst = (if bit (uAt q.payload 8 1) 0 = true then ptpBytes ((s.ptpOffset : Int) + s.now - uAt q.payload 0 8)
            else s.peff 0x060D noInst) ∧
          (∀ lane < 128, (s.lane lane).st.trained = true → (e.dly lane).syncOwed = true) ∧
          (∀ n < 16, (e.str n).next = uAt q.payload 0 8 + (s.str n).period) ∧
          Only [.todo, .hatch, .notif, .par, .time, .sta, .pantry, .mod] s e ∧ s.Replies e mb q stOk (leBytes 8 s.now)) ∧
      (s.Runs mb 0x0621 q → Lands (exec (.timeMasterSet mb) s) fun e =>
        let head := uAt q.payload 0 1
        let gen := (s.time.gen + 1) % 65536
        let others := (List.range 8).filter fun h => h != s.headId && s.headPresent h
        if 7 < head ∨ s.headPresent head = false then Only [.hatch] s e ∧ s.Replies e mb q stBadParam [0x05, 0, 0xFF, 0xFF]
        else if uAt q.payload 2 2 ≠ 0xFFFF ∧ uAt q.payload 2 2 ≠ s.time.gen then
          Only [.hatch] s e ∧ s.Replies e mb q stRefused [0x39, 0, 0xFF, 0xFF]
        else
          (s.time.claim = none → others = [] → e.time.gen = gen ∧ e.time.masterHead = head ∧ e.time.claim = none ∧
            s.Replies e mb q stOk (leBytes 2 gen)) ∧
          (s.time.claim = none → others ≠ [] → Only [.hatch, .time, .links] s e ∧
            e.time = { s.time with claim := some { mbs := [mb.val], head, gen, waitFor := others, at_ := s.mono } } ∧
            e.box mb = { s.box mb with waiting := .timeMaster } ∧ (∀ n, n ≠ mb.val → e.box n = s.box n) ∧
            ∀ lane ∈ [128, 129], (e.lnk lane).queue = if s.ringEn = true ∧ (s.lane lane).st = .linked then (s.lnk lane).queue ++
              [{ type := 0x44, payload := s.ringHdr allNodes + (2 ^ 60 + gen * 2 ^ 44 + head * 2 ^ 41 + s.node * 2 ^ 36) }]
              else (s.lnk lane).queue) ∧
          ∀ c, s.time.claim = some c →
            (head = c.head → Only [.hatch, .time] s e ∧ e.time = { s.time with claim := some { c with mbs := c.mbs ++ [mb.val] } } ∧
              e.box mb = { s.box mb with waiting := .timeMaster } ∧ ∀ n, n ≠ mb.val → e.box n = s.box n) ∧
            (c.head < head → Only [.hatch] s e ∧ s.Replies e mb q stRefused [0x38, 0, 0xFF, 0xFF]) ∧
            (head < c.head → others ≠ [] → mb.val ∉ c.mbs →
              e.time = { s.time with claim := some { mbs := [mb.val], head, gen, waitFor := others, at_ := s.mono } } ∧
              e.box mb = { s.box mb with waiting := .timeMaster } ∧ ∀ n ∈ c.mbs, ∀ r, (s.box n).taken = some r → (e.box n).state = .done ∧
                (e.box n).reply = replyBytes stRefused r.seq s.twin.epoch [0x38, 0, 0xFF, 0xFF])))

/-- R34 to R41: ROLL_LOAD copies entries from the pantry into the shadow roll and touches no other lane; ROLL_COMMIT is busy while a commit is
pending, refuses another generation than the one expected and a roll that fails a check, with the first failing lane and its reason, and else counts
ROLL_GEN, saves the roll, lets stopped strings adopt and answers by when the others do; ROLL_READ answers one entry and ROLL_GEN. -/
def Obligations.RollCommands : Prop :=
  ∀ (s : State) (mb : Fin 8) (q : Request),
    (s.Runs mb 0x0310 q → s.Writes mb 3 → Lands (exec (.rollLoad mb) s) fun e =>
      let off := uAt q.payload 0 4
      let first := uAt q.payload 4 1
      let n := uAt q.payload 5 1
      if off % 128 ≠ 0 ∨ 0x1C0000 < off + 128 * n ∨ 127 < first ∨ n < 1 ∨ 128 < n ∨ 128 < first + n then
        Only [.hatch] s e ∧ s.Replies e mb q stBadParam [0x05, 0, 0xFF, 0xFF]
      else OnlyWrite [.par, .pantry, .roll] s e ∧ e.roll.working = s.roll.working ∧ e.roll.gen = s.roll.gen ∧
        (∀ l, entryOf e.roll.shadow l = if first ≤ l ∧ l < first + n then slice (s.mpRead off (128 * n)) (128 * (l - first)) 128
          else entryOf s.roll.shadow l) ∧ s.Accepts e mb q (leBytes 1 n)) ∧
    (s.Runs mb 0x0311 q → s.Writes mb 3 → Lands (exec (.rollCommit mb) s) fun e =>
      let expect := uAt q.payload 0 4
      (s.roll.pend.isSome = true → Only [.hatch, .par] s e ∧ s.Replies e mb q stBusy (leBytes 4 s.rollRetry)) ∧
      (s.roll.pend = none → expect ≠ 0xFFFFFFFF → expect ≠ s.roll.gen → Only [.freeCount, .hatch] s e ∧
        ∃ by_, s.Replies e mb q stRefused (leBytes 4 s.roll.gen ++ [0xFF, 0x0D, 0, 0] ++ leBytes 4 by_)) ∧
      (s.roll.pend = none → expect = 0xFFFFFFFF ∨ expect = s.roll.gen → ∀ f, s.setReason s.roll.shadow = some f →
        Only [.freeCount, .hatch] s e ∧ ∃ by_, s.Replies e mb q (if f.2 = 0x0C then stRefused else stBadParam)
          (leBytes 4 s.roll.gen ++ leBytes 1 f.1 ++ leBytes 1 f.2 ++ [0, 0] ++ leBytes 4 by_)) ∧
      (s.roll.pend = none → expect = 0xFFFFFFFF ∨ expect = s.roll.gen → s.setReason s.roll.shadow = none →
        (∀ l v, s.roll.shadow.get? l = some v → v.length = 128) →
        OnlyWrite [.freeCount, .todo, .notif, .par, .faults, .pantry, .lanes, .roll, .links, .mod, .prot, .dt] s e ∧
        e.roll.gen = (if s.roll.gen = 0xFFFFFFFF then 1 else s.roll.gen + 1) ∧ e.roll.stored = s.roll.shadow ∧
        e.roll.storedGen = e.roll.gen ∧ e.roll.shadow = s.roll.shadow ∧
        s.Answers e mb q (rollReply e.roll.gen 0xFF 0 e.adoptBy) ∧
        (∀ l < 128, s.strStopped (s.strOf l) = true → e.entry l = entryOf s.roll.shadow l) ∧
        (∀ l < 128, e.entry l = entryOf s.roll.shadow l ∨
          ∃ p, e.roll.pend = some p ∧ p.since = s.adoptSince ∧ l ∈ p.left ∧ e.entry l = s.entry l))) ∧
    (s.Runs mb 0x0312 q → Next (exec (.rollRead mb) s) fun t => Only [.hatch] s t ∧
      let lane := uAt q.payload 0 1
      if 127 < lane ∨ 1 < uAt q.payload 1 1 then s.Replies t mb q stBadParam [0x05, 0, 0xFF, 0xFF]
      else s.Replies t mb q stOk ((if uAt q.payload 1 1 = 0 then entryOf s.roll.shadow lane else s.entry lane) ++ leBytes 4 s.roll.gen))

/-- R29, R38, R231, R232, R257, R260, R261, R347: at a boundary a string takes its number, its period and the next boundary; it adopts its part of a
pending roll; the first boundary of a start is number 0; a running string that plans opens a plan, one asked to stop is STOPPING until O_k. O_0
makes a starting string RUNNING, with records for the members that start bypassed; O_k makes a stopping one STOPPED. A plan that completes is open no
longer, and no sent entry of a shelf outlives its time. -/
def Obligations.StringPeriods : Prop :=
  ∀ (str : Fin 16) (s : State),
    ((s.str str).next ≤ s.now → s.roll.pend = none → s.twin.resyncIn = false → Lands (exec (.stringBoundary str) s) fun e =>
      let x := s.str str
      let y := e.str str
      let isFirst := x.st = .starting ∧ x.first = true ∧ x.next + s.modDelay str = x.o0
      Only [.todo, .hatch, .notif, .par, .faults, .pantry, .mod, .prot, .dt, .twin] s e ∧ (∀ n, n ≠ str.val → e.str n = s.str n) ∧
      y.bAt = x.next ∧ y.period = e.pu 0x0803 str 0 4 ∧ y.k = (if isFirst then 0 else (x.k + 1) % 2 ^ 32) ∧
      y.next = (if x.st = .starting ∧ x.first = true ∧ ¬isFirst then min (x.next + y.period) (x.o0 - s.modDelay str) else x.next + y.period) ∧
      y.st = (if x.st = .running ∧ x.stopReq = true then .stopping else x.st) ∧
      (x.st = .running → x.stopReq = true → y.stopAt = some (x.next + s.modDelay str) ∧ y.plan = none) ∧
      ((x.st = .running ∧ x.stopReq = false) ∨ (x.st = .starting ∧ (isFirst ∨ x.first = false)) →
        ¬(x.mode = 2 ∧ s.twin.role = .standby) → y.first = false ∧ ∃ p, y.plan = some p ∧ p.at_ = x.next)) ∧
    (∀ p, (s.str str).next ≤ s.now → s.roll.pend = some p → s.twin.resyncIn = false → p.since ≤ (s.str str).next →
      (∀ l, (entryOf p.entries l).length = 128) → Lands (exec (.stringBoundary str) s) fun e =>
        (∀ l ∈ p.left, s.strOf l = str → e.entry l = entryOf p.entries l) ∧
        (∀ l, (l ∉ p.left ∨ s.strOf l ≠ str) → e.entry l = s.entry l) ∧
        e.roll.pend = (let rest := p.left.filter fun l => s.strOf l != str
          if rest = [] then none else some { p with left := rest })) ∧
    (s.now < (s.str str).next → exec (.stringBoundary str) s = .next s) ∧
    ((s.str str).plan.isSome = true → Lands (exec (.planComplete str) s) fun e => Only [.hatch, .par, .twin, .mod] s e ∧
      e.str str = { s.str str with plan := none } ∧ ∀ n, n ≠ str.val → e.str n = s.str n) ∧
    ((s.str str).st = .starting → (s.str str).first = false → (s.str str).o0 ≤ s.now →
      Lands (exec (.stringFirstOutput str) s) fun e => Only [.freeCount, .hatch, .notif, .par, .pantry, .links, .mod, .prot, .dt] s e ∧
        (∀ l ∈ s.activeMembers str, eType (s.entry l) = 1 → eStartByp (s.entry l) = true → (e.byp l).held.isSome = true) ∧
        ((∀ l ∈ s.activeMembers str, eType (s.entry l) = 1 → eStartByp (s.entry l) = false) →
          e.str str = { s.str str with st := .running } ∧ ∀ n, n ≠ str.val → e.str n = s.str n)) ∧
    (∀ o, (s.str str).stopAt = some o → (s.str str).st = .stopping → o ≤ s.now → Lands (exec (.stringStopOutput str) s) fun e =>
      Only [.par, .links, .mod, .prot, .dt] s e ∧ (e.str str).st = .stopped ∧ (e.str str).stopAt = none ∧ (e.str str).n = 0 ∧
      ∀ n, n ≠ str.val → e.str n = s.str n) ∧
    (∀ lane : Fin 128, Lands (exec (.shelfEntryExpire lane) s) fun e =>
      Only [.par, .links, .mod] s e ∧ (∀ x ∈ (e.ml lane).shelf, x.sent = true → (s.now : Int) < x.time) ∧ e.mod.str = s.mod.str ∧
      ∀ n, n ≠ lane.val → e.ml n = s.ml n)

/-- R43, R257, R261, R263, R264, R266 to R268: STRING_START starts a string that passes its checks, and answers its first boundary and the
number of its members; a member without a working link is bypassed. STRING_STOP asks a running string to stop at its next boundary, cancels a start
and is refused in every other state. RAW_EDGE_LOAD loads all its records where each passes in its order and the shelves have room, else none. Each
refusal changes nothing but the reply. -/
def Obligations.StringCommands : Prop :=
  ∀ (s : State) (mb : Fin 8) (q : Request),
    (s.Runs mb 0x0820 q → s.Writes mb 8 → Lands (exec (.stringStart mb) s) fun e =>
      let str := uAt q.payload 0 1
      let short := uAt q.payload 4 4
      if 15 < str then Only [.hatch] s e ∧ s.Replies e mb q stBadParam [0x05, 0, 0xFF, 0xFF]
      else
        (∀ r, s.startRefusal str short = some r → Only [.hatch] s e ∧ s.Replies e mb q r.1 (leBytes 1 r.2 ++ [0, 0xFF, 0xFF])) ∧
        (s.startRefusal str short = none → s.prot.ride.st.restarting = true → str ∈ s.rideOrder →
          Only [.hatch] s e ∧ s.Replies e mb q stRefused [0x77, 0, 0xFF, 0xFF]) ∧
        (s.startRefusal str short = none → (s.prot.ride.st.restarting = false ∨ str ∉ s.rideOrder) →
          OnlyWrite [.todo, .notif, .par, .faults, .pantry, .links, .mod, .prot, .dt] s e ∧
          (∀ l ∈ s.lanesOf str, eEnabled (s.entry l) = true → eType (s.entry l) = 1 → s.workingLink l = false → s.darkExempt l = false →
            (e.byp l).held.isSome = true) ∧
          ((∀ l ∈ s.lanesOf str, eEnabled (s.entry l) = true → s.workingLink l = true) →
            OnlyWrite [.links, .mod, .prot, .dt] s e ∧ (e.str str).st = .starting ∧ (e.str str).mode = s.pu 0x0802 str 0 1 ∧
            (e.str str).o0 = s.tickOf short ∧ (e.str str).first = true ∧
            (e.str str).next = min (s.str str).next (s.tickOf short - s.modDelay str) ∧ (∀ n, n ≠ str → e.str n = s.str n) ∧
            s.Accepts e mb q (leBytes 4 ((s.tickOf short - s.modDelay str) % 2 ^ 32) ++ leBytes 1 (e.planMembers str).length ++ [0, 0, 0])))) ∧
    (∀ (str : Nat) short, (s.str str).st = .tripped → s.startRefusal str short = some (stTrip, 0x41)) ∧
    (∀ (str : Nat) short, (s.str str).st ≠ .tripped → (s.str str).st ≠ .stopped → s.startRefusal str short = some (stRefused, 0x42)) ∧
    (s.Runs mb 0x0821 q → s.Writes mb 8 → Lands (exec (.stringStop mb) s) fun e =>
      let str := uAt q.payload 0 1
      if 15 < str then Only [.hatch] s e ∧ s.Replies e mb q stBadParam [0x05, 0, 0xFF, 0xFF]
      else if (s.str str).st = .starting then OnlyWrite [.par, .links, .mod, .prot, .dt] s e ∧ (e.str str).st = .stopped ∧
        (∀ n, n ≠ str → (e.str n).st = (s.str n).st) ∧ s.Accepts e mb q (leBytes 4 ((s.str str).o0 % 2 ^ 32))
      else if (s.str str).st = .running then OnlyWrite [.mod, .prot] s e ∧ e.str str = { s.str str with stopReq := true } ∧
        (∀ n, n ≠ str → e.str n = s.str n) ∧ s.Accepts e mb q (leBytes 4 (((s.str str).next + s.modDelay str) % 2 ^ 32))
      else Only [.hatch] s e ∧ s.Replies e mb q stRefused [0x42, 0, 0xFF, 0xFF]) ∧
    (s.Runs mb 0x0822 q → s.Writes mb 8 → Lands (exec (.rawEdgeLoad mb) s) fun e =>
      let str := uAt q.payload 0 1
      let n := uAt q.payload 1 1
      let rs := rawRecords q.payload
      if n < 1 ∨ 60 < n ∨ 15 < str then Only [.hatch] s e ∧ s.Replies e mb q stBadParam [0, 0xFF, 0x05, 0]
      else if q.length ≠ 4 + 8 * n then Only [.hatch] s e ∧ s.Replies e mb q stBadLength [0, 0xFF, 0x0C, 0]
      else if (s.str str).st ≠ .running ∨ (s.str str).mode ≠ 4 then Only [.hatch] s e ∧ s.Replies e mb q stRefused [0, 0xFF, 0x42, 0]
      else
        (∀ f, (State.rawCheck str 0 rs s).2 = some f → Only [.hatch] s e ∧
          s.Replies e mb q stBadParam ([0] ++ leBytes 1 f.1 ++ leBytes 1 f.2 ++ [0])) ∧
        ((State.rawCheck str 0 rs s).2 = none → s.rawRoom rs = false → Only [.hatch, .par] s e ∧
          s.Replies e mb q stBusy (leBytes 4 (s.rawRetry rs))) ∧
        ((State.rawCheck str 0 rs s).2 = none → s.rawRoom rs = true → OnlyWrite [.par, .mod, .dt] s e ∧ e.mod.str = s.mod.str ∧
          s.Accepts e mb q (leBytes 1 n ++ [0xFF, 0, 0]) ∧ (∀ l, (∀ r ∈ rs, r.lane ≠ l) → e.ml l = s.ml l) ∧
          ∀ r, rs.getLast? = some r → (e.ml r.lane).rawWord = r.word ∧ (e.ml r.lane).rawLast = some (s.tickOf r.short : Int))) ∧
    (∀ (str : Nat) (r : RawRec), r.lane ≤ 127 → s.rawReason str r = 0 → r.lane ∈ s.activeMembers str ∧ s.aheadOk r.short = true ∧
      s.now + s.lead r.lane ≤ s.tickOf r.short ∧ (∀ u, (s.ml r.lane).rawLast = some u → u < s.tickOf r.short) ∧
      ∀ b < 16, bit r.word b = true → mapUsed (eMap (s.entry r.lane) b) = true ∧
        ∀ c, otherBit (s.entry r.lane) b = some c → bit r.word c = false)

/-- R158, R274, R275, R291, R293: of a NODE_EDGE block each used record is put to the selected transition its EDGE_ID names, one that names none
counts IMPLAUSIBLE, and a transition with both records in is judged, counted in its class and waits no longer; what has waited its time is judged with the
records received. DT_RESET sets the selected legs of stopped strings to DT_INIT and lets those of others wait for their boundary. No other
lane's dead times change.
And R286, R288, R293: the statistics of a boundary count as formed 2,560 ticks later; a standby that has not received the active's order within 6,400
ticks plans with its own and counts TWIN_ORDER_MISS; SORT_READ answers the order used by the latest plan. -/
def Obligations.DeadTimes : Prop :=
  (
  ∀ (lane : Fin 128) (s : State),
      (∀ (h : RxHeader) (p : BitVec 96), (s.lane lane).st.receives = true → Lands (exec (.nodeEdgeRx lane h p) s) fun e =>
        e = ((s.rxCommon lane h).takeNodeRec lane (p.toNat / 2 ^ 48)).takeNodeRec lane (p.toNat % 2 ^ 48) ∧
        (∀ n, n ≠ lane.val → e.dtl n = s.dtl n) ∧
        Only [.freeCount, .todo, .hatch, .notif, .par, .faults, .pantry, .lanes, .links, .dt] s e) ∧
      (∀ r, r / 4 % 4 = 0 → s.takeNodeRec lane r = s) ∧
      (∀ r, r / 4 % 4 ≠ 0 → (s.dtl lane).sent.get? (r / 2 ^ 8 % 2 ^ 8) = none → s.takeNodeRec lane r = s.bump 0x0910 lane 5) ∧
      (∀ (r : Nat) (x : SentEdge) (m : EdgeMark), r / 4 % 4 ≠ 0 → (s.dtl lane).sent.get? (r / 2 ^ 8 % 2 ^ 8) = some x →
        (x.marks.filter fun m => m.leg == r / 2 ^ 5 % 8).find? (·.sel) = some m →
        let leg := r / 2 ^ 5 % 8
        let rec_ : NodeRec := { time := (s.tickOf (r / 2 ^ 16 % 2 ^ 32) : Nat), rising := decide (r / 2 ^ 4 % 2 = 1), kind := r / 4 % 4 }
        let e := s.takeNodeRec lane r
        ((∀ p ∈ (s.dleg lane leg).pend, (pendTake x m rec_ p).both = false) →
          e.dleg lane leg = { s.dleg lane leg with pend := (s.dleg lane leg).pend.map (pendTake x m rec_) } ∧ Only [.dt] s e ∧
          (∀ g, g ≠ leg → e.dleg lane g = s.dleg lane g)) ∧
        (∀ p, (s.dleg lane leg).pend = [p] → (pendTake x m rec_ p).both = true → (s.counts 0x0910 lane).length = 9 →
          (e.dleg lane leg).pend = [] ∧ (∀ g, g ≠ leg → e.dleg lane g = s.dleg lane g) ∧
          ∀ f, f = ((pendTake x m rec_ p).cls (s.pu 0x0909 (s.strOf lane) 0 2)).field →
            (e.counts 0x0910 lane).getD f 0 = satN (8 * (rcFields 0x0910).getD f 4) ((s.counts 0x0910 lane).getD f 0 + 1))) ∧
      (∀ leg : Fin 6, (∃ x ∈ (s.dleg lane leg).pend, x.tOn + 32000 + s.laneDelay lane ≤ s.now) →
        Lands (exec (.dtJudgeTimeout lane leg) s) fun e => Only [.freeCount, .todo, .hatch, .notif, .par, .faults, .pantry, .links, .dt] s e ∧
          (e.dleg lane leg).pend = (s.dleg lane leg).pend.filter (fun x => decide ((s.now : Int) < x.tOn + 32000 + s.laneDelay lane)) ∧
          (∀ g, g ≠ leg.val → e.dleg lane g = s.dleg lane g) ∧ ∀ n, n ≠ lane.val → e.dtl n = s.dtl n) ∧
      (∀ (mb : Fin 8) (q : Request), s.Runs mb 0x0920 q → s.Writes mb 9 → Lands (exec (.dtReset mb) s) fun e =>
        let first := uAt q.payload 0 1
        let n := uAt q.payload 1 1
        let legs := uAt q.payload 2 1
        if 127 < first ∨ n < 1 ∨ 128 < n ∨ 128 < first + n ∨ 63 < legs then Only [.hatch] s e ∧ s.Replies e mb q stBadParam [0x05, 0, 0xFF, 0xFF]
        else OnlyWrite [.faults, .dt] s e ∧
          (∀ l, first ≤ l → l < first + n → ∀ g < 6, bit legs g = true → (e.dleg l g).resetAt = some s.now ∧ (e.dleg l g).bad = 0 ∧
            (s.strStopped (s.strOf l) = true → (e.dleg l g).dtw = s.dtInit (s.strOf l) ∧ (e.dleg l g).fallback = false ∧
              (e.dleg l g).steps = []) ∧
            (s.strStopped (s.strOf l) = false → e.dleg l g = { s.dleg l g with resetAt := some s.now, resetWait := true, bad := 0 })) ∧
          (∀ l g, bit legs g = false → e.dleg l g = s.dleg l g) ∧
          (∀ l, (l < first ∨ first + n ≤ l) → e.dtl l = s.dtl l) ∧
          s.Accepts e mb q (leBytes 2 (s.resetLanes first n legs).length ++ [0, 0] ++ leBytes 4 (listMax (s.now ::
            ((s.resetLanes first n legs).filter fun l => !s.strStopped (s.strOf l)).map fun l => (s.str (s.strOf l)).next) % 2 ^ 32)))) ∧
  (
  ∀ (str : Fin 16) (s : State),
      ((s.srt str).stat.at_ + 2560 ≤ s.now → (s.srt str).formed ≠ (s.srt str).stat → Lands (exec (.sortStatsFormed str) s) fun e =>
        Only [.freeCount, .links, .dt] s e ∧ e.srt str = { s.srt str with formed := (s.srt str).stat } ∧ e.dt.lane = s.dt.lane ∧
        ∀ n, n ≠ str.val → e.srt n = s.srt n) ∧
      ((s.str str).orderWait = true → (s.str str).bAt + 6400 ≤ s.now → Lands (exec (.twinOrderTimeout str) s) fun e =>
        Only [.par, .mod, .prot, .dt] s e ∧ (e.str str).orderWait = false ∧ (e.str str).plan.isSome = true ∧
        (e.srt str).judgedK = some (s.str str).k ∧ (e.srt str).order = (s.srt str).order ∧
        (e.counts 0x0A09 str) = (s.counts 0x0A09 str).set 2 (min 65535 ((s.counts 0x0A09 str).getD 2 0 + 1)) ∧
        ∀ n, n ≠ str.val → e.str n = s.str n ∧ e.srt n = s.srt n) ∧
      ((s.str str).orderWait = false ∨ s.now < (s.str str).bAt + 6400 → exec (.twinOrderTimeout str) s = .next s) ∧
      (∀ (mb : Fin 8) (q : Request), s.Runs mb 0x0A20 q → Next (exec (.sortRead mb) s) fun t => Only [.hatch] s t ∧
        let n := uAt q.payload 0 1
        if 15 < n then s.Replies t mb q stBadParam [0x05, 0, 0xFF, 0xFF]
        else s.Replies t mb q stOk (leBytes 4 (s.srt n).stat.k ++ leBytes 1 (s.srt n).order.length ++
          leBytesI 1 (s.srt n).stat.dir ++ [0, 0] ++ ((s.srt n).order.map sortRec).flatten)))

/-- R296 to R299, R303, R308, R323, R330, R331: each control boundary takes its j and sets the next one LE_PERIOD later; a stopped engine walks
nothing; an engine that runs or is due to start adopts what is pending and walks, unless it is due to stop; a boundary that finds walk j unfinished is skipped,
counted and reported, and the second in a row trips the strings that depend on the engine. A complete walk leaves its loops' states and publishes their
outputs at their destinations. -/
def Obligations.ControlBoundaries : Prop :=
  ∀ s : State,
    (s.time.running = true → s.le.next ≤ s.now → s.twin.resyncIn = false → Lands (exec .controlBoundary s) fun e =>
      let c := s.le.next
      let starts := ∃ t, s.le.startAt = some t ∧ t ≤ c
      let stops := ∃ t, s.le.stopAt = some t ∧ t ≤ c
      e.le.j = (c - s.p0 0x0B03) / max 1 (s.p0 0x0B02) % 2 ^ 32 ∧ e.le.next = c + max 1 (s.p0 0x0B02) ∧
      Only [.freeCount, .todo, .hatch, .notif, .par, .faults, .twin, .pantry, .links, .mod, .prot, .dt, .le] s e ∧
      (s.le.running = false → ¬starts → ¬stops → e.le = { s.le with j := e.le.j, next := e.le.next } ∧ Only [.todo, .twin, .links, .le] s e) ∧
      (stops → e.le.running = false ∧ e.le.stopAt = none ∧ e.le.skips = 0 ∧ e.le.pend = none ∧ e.le.walk = s.le.walk ∧
        ∀ t, s.le.pend = some t → e.le.work = t) ∧
      (s.le.running = true ∨ starts → ¬stops →
        e.le.running = true ∧ e.le.startAt = (if s.le.startAt.any (fun t => decide (t ≤ c)) then none else s.le.startAt) ∧
        ((∀ w, s.le.walk = some w → w.doneAt ≤ c + 80) → e.le.presets = [] ∧ e.le.skips = 0 ∧ e.le.walkedAt = some c ∧
          (∃ w, e.le.walk = some w ∧ w.j = e.le.j ∧ w.doneAt = c + 400 + 20 * e.le.work.cost + 80) ∧
          (∀ t, s.le.pend = some t → s.le.pendSince ≤ c ∨ starts → e.le.work = t ∧ e.le.pend = none) ∧
          (∀ w, s.le.walk = some w → c < w.doneAt → e.le.outset = some (w.doneAt, s.outsetOf w) ∨ starts)) ∧
        (∀ w, s.le.walk = some w → c + 80 < w.doneAt → e.le.skips = s.le.skips + 1 ∧ e.le.walk = some w ∧ s.Fired e 0x30 ∧
          (s.le.skips = 1 → s.Fired e 0x31 ∧
            ∀ n < 16, (s.str n).st = .running → s.pu 0x080A n 0 1 ≠ 0 → (e.str n).st = .tripped)))) ∧
    (s.time.running = false ∨ s.now < s.le.next → exec .controlBoundary s = .next s) ∧
    (∀ o, s.le.outset = some o → o.1 ≤ s.now → Lands (exec .walkComplete s) fun e => Only [.mod, .le] s e ∧
      e.le = { s.le with outset := none } ∧ ((o.2.map (·.1)).Nodup → ∀ x ∈ o.2, e.mod.loopRef.get 0 x.1 = x.2)) ∧
    (∀ w, s.le.outset = none → s.le.walk = some w → w.doneAt ≤ s.now → (w.loops.map (·.1)).Nodup → Lands (exec .walkComplete s) fun e =>
      Only [.freeCount, .todo, .hatch, .notif, .par, .faults, .pantry, .links, .mod, .prot, .dt, .le] s e ∧ e.le.walk = none ∧ e.le.outset = none ∧
      (∀ n x, (n, x) ∈ w.loops → e.le.loop.get {} n = x) ∧
      (∀ n x k, (n, x) ∈ w.loops → destKey (s.le.work.descOf n) = some k →
        (∀ m y, (m, y) ∈ w.loops → destKey (s.le.work.descOf m) = some k → m = n) → e.mod.loopRef.get 0 k = x.out) ∧
      (∀ k, (∀ m y, (m, y) ∈ w.loops → destKey (s.le.work.descOf m) ≠ some k) → e.mod.loopRef.get 0 k = s.mod.loopRef.get 0 k) ∧
      e.le.work = s.le.work ∧ e.le.larder = s.le.larder ∧ e.le.j = s.le.j ∧ e.le.next = s.le.next)

/-- R304, R322 to R325, R327 to R331: LOOP_LOAD writes shadow entries; LOOP_COMMIT is busy while a commit is pending, refuses another generation
than the one expected and a shadow that fails a check, and else counts LE_GEN, saves the shadow and hands it over, adopted at once by a stopped
engine; the larder is written live and saved, and read back; LE_START and LE_STOP set the boundary at which the engine starts or stops; a preset
waits for the next walked boundary. -/
def Obligations.LoopCommands : Prop :=
  ∀ (s : State) (mb : Fin 8) (q : Request),
    (s.Runs mb 0x0B10 q → s.Writes mb 0x0B → Lands (exec (.loopLoad mb) s) fun e =>
      let off := uAt q.payload 0 4
      let table := uAt q.payload 4 1
      let first := uAt q.payload 6 2
      let n := uAt q.payload 8 2
      if off % 16 ≠ 0 ∨ 0x1C0000 < off + (if table = 0 then 48 else 32) * n ∨ 1 < table ∨ 511 < first ∨ n < 1 ∨ 512 < n ∨ 512 < first + n then
        Only [.hatch] s e ∧ s.Replies e mb q stBadParam [0x05, 0, 0xFF, 0xFF]
      else OnlyWrite [.par, .pantry, .le] s e ∧ e.le.work = s.le.work ∧ e.le.gen = s.le.gen ∧ e.le.larder = s.le.larder ∧
        (table = 0 → (∀ k, e.le.shadow.coefOf k = s.le.shadow.coefOf k) ∧ ∀ k, e.le.shadow.descOf k =
          if first ≤ k ∧ k < first + n then s.mpRead (off + 48 * (k - first)) 48 else s.le.shadow.descOf k) ∧
        (table = 1 → (∀ k, e.le.shadow.descOf k = s.le.shadow.descOf k) ∧ ∀ k, e.le.shadow.coefOf k =
          if first ≤ k ∧ k < first + n then s.mpRead (off + 32 * (k - first)) 32 else s.le.shadow.coefOf k) ∧
        s.Accepts e mb q (leBytes 2 n ++ [0, 0])) ∧
    (s.Runs mb 0x0B11 q → s.Writes mb 0x0B → Lands (exec (.loopCommit mb) s) fun e =>
      let expect := uAt q.payload 0 4
      let cost := leBytes 2 s.le.shadow.cost ++ [0, 0]
      (s.le.pend.isSome = true → Only [.hatch, .par] s e ∧ s.Replies e mb q stBusy (leBytes 4 (ceilDiv (s.p0 0x0B02) 8000))) ∧
      (s.le.pend = none → expect ≠ 0xFFFFFFFF → expect ≠ s.le.gen → Only [.freeCount, .hatch] s e ∧
        ∃ by_, s.Replies e mb q stRefused (leBytes 4 s.le.gen ++ [0xFF, 0xFF, 0x68, 0] ++ leBytes 4 by_ ++ cost)) ∧
      (∀ f, s.le.pend = none → expect = 0xFFFFFFFF ∨ expect = s.le.gen → s.loopFailure s.le.shadow = some f → Only [.freeCount, .hatch] s e ∧
        ∃ by_, s.Replies e mb q f.1 (leBytes 4 s.le.gen ++ leBytes 2 f.2.1 ++ leBytes 1 f.2.2 ++ [0] ++ leBytes 4 by_ ++ cost)) ∧
      (s.le.pend = none → expect = 0xFFFFFFFF ∨ expect = s.le.gen → s.loopFailure s.le.shadow = none → OnlyWrite [.par, .le] s e ∧
        e.le.gen = (if s.le.gen = 0xFFFFFFFF then 1 else s.le.gen + 1) ∧ e.le.stored = s.le.shadow ∧
        (s.le.running = true → e.le.pend = some s.le.shadow ∧ e.le.pendSince = s.adoptSince ∧ e.le.work = s.le.work) ∧
        (s.le.running = false → e.le.pend = none ∧ e.le.work = s.le.shadow) ∧
        s.Accepts e mb q (leBytes 4 e.le.gen ++ [0xFF, 0xFF, 0, 0] ++ leBytes 4 (s.loopAdoptAt s.adoptSince % 2 ^ 32) ++ cost))) ∧
    (s.Runs mb 0x0B12 q → s.Writes mb 0x0B → Lands (exec (.larderWrite mb) s) fun e =>
      let off := uAt q.payload 0 4
      let first := uAt q.payload 4 2
      let n := uAt q.payload 6 2
      if off % 2 ≠ 0 ∨ 0x1C0000 < off + 2 * n ∨ 16383 < first ∨ 16384 < first + n ∨ 0x1C0000 ≤ off then
        Only [.hatch] s e ∧ s.Replies e mb q stBadParam [0x05, 0, 0xFF, 0xFF]
      else OnlyWrite [.par, .pantry, .le] s e ∧
        (∀ k, e.le.larder.get 0 k = if first ≤ k ∧ k < first + n then leNat (s.mpRead (off + 2 * (k - first)) 2) else s.le.larder.get 0 k) ∧
        e.le.work = s.le.work ∧ e.le.shadow = s.le.shadow ∧ s.Accepts e mb q []) ∧
    (s.Runs mb 0x0B13 q → Lands (exec (.larderRead mb) s) fun e => Only [.hatch] s e ∧
      let first := uAt q.payload 0 2
      let n := uAt q.payload 2 2
      if n < 1 ∨ 248 < n ∨ 16384 < first + n then s.Replies e mb q stBadParam [0x05, 0, 0xFF, 0xFF]
      else s.Replies e mb q stOk (((List.range n).map fun k => leBytes 2 (s.le.larder.get 0 (first + k))).flatten)) ∧
    (s.Runs mb 0x0B14 q → s.Writes mb 0x0B → Lands (exec (.leStart mb) s) fun e =>
      let c := s.boundaryFrom (s.now + 8000)
      if s.le.running = true then Only [.hatch] s e ∧ s.Replies e mb q stRefused [0x6A, 0, 0xFF, 0xFF]
      else if s.inBudget s.le.work = false then Only [.hatch] s e ∧ s.Replies e mb q stBadParam [0x67, 0, 0xFF, 0xFF]
      else OnlyWrite [.le] s e ∧ e.le = { s.le with startAt := some (min c (s.le.startAt.getD c)) } ∧ s.Accepts e mb q (leBytes 4 c)) ∧
    (s.Runs mb 0x0B15 q → s.Writes mb 0x0B → Lands (exec (.leStop mb) s) fun e =>
      if (List.range 16).any (fun n => decide ((s.str n).st = .running) && s.pu 0x080A n 0 1 != 0) = true then Only [.hatch] s e ∧ s.Replies e mb q stRefused [0x6B, 0, 0xFF, 0xFF]
      else OnlyWrite [.le] s e ∧ e.le = { s.le with startAt := none, stopAt := if s.le.running then some s.le.next else none } ∧
        s.Accepts e mb q (leBytes 4 s.le.next)) ∧
    (s.Runs mb 0x0B16 q → s.Writes mb 0x0B → Lands (exec (.loopPreset mb) s) fun e =>
      let n := uAt q.payload 0 2
      if 511 < n then Only [.hatch] s e ∧ s.Replies e mb q stBadParam [0x05, 0, 0xFF, 0xFF]
      else OnlyWrite [.le] s e ∧ e.le = { s.le with presets := s.le.presets ++ [(n, sAt q.payload 2 2)] } ∧
        s.Accepts e mb q (leBytes 4 (s.le.startAt.getD s.le.next)))

/-- R334, R335, R337, R341, R349, R350, R362: STRING_TRIP trips a string and adds its cause to one that is tripped; a stale named source trips a running
string; UV_ARM arms the undervoltage causes; TRIP_CLEAR clears and stops a tripped string whose mask it names, with no cause present, and else
clears nothing. No other string changes, but for the lanes of the one. -/
def Obligations.Trips : Prop :=
  ∀ (s : State) (mb : Fin 8) (q : Request),
    (s.Runs mb 0x0C20 q → s.Writes mb 0x0C → Lands (exec (.stringTrip mb) s) fun e =>
      let str := uAt q.payload 0 1
      if 15 < str then Only [.freeCount, .hatch] s e ∧ ∃ t, s.Replies e mb q stBadParam (leBytes 4 t)
      else OnlyWrite [.notif, .par, .pantry, .links, .mod, .prot, .dt] s e ∧ (e.str str).st = .tripped ∧
        (∀ n, n ≠ str → e.str n = { s.str n with plan := (e.str n).plan } ∧ e.prt n = s.prt n) ∧
        ((s.str str).st = .tripped → (e.prt str).mask = (s.prt str).mask ||| 2 ^ 12 ∧ (e.prt str).first = (s.prt str).first ∧
          e.mod = s.mod) ∧
        ((s.str str).st ≠ .tripped → (e.prt str).mask = 2 ^ 12 ∧ (e.prt str).first = 12 ∧ (e.prt str).tripAt = s.shortNow) ∧
        s.Answers e mb q (leBytes 4 s.shortNow) ∧ ((∀ n < 8, (s.box n).waiting = .none) → s.Accepts e mb q (leBytes 4 s.shortNow))) ∧
    (∀ str : Fin 16, (s.str str).st = .running → s.sourceStale str = true → Lands (exec (.protSourceStale str) s) fun e =>
      Only [.hatch, .notif, .par, .pantry, .links, .mod, .prot, .dt] s e ∧ (e.str str).st = .tripped ∧ (e.prt str).mask = 2 ^ 6 ∧
      ∀ n, n ≠ str.val → e.str n = { s.str n with plan := (e.str n).plan } ∧ e.prt n = s.prt n) ∧
    (∀ str : Fin 16, (s.str str).st ≠ .running ∨ s.sourceStale str = false → exec (.protSourceStale str) s = .next s) ∧
    (∀ str : Fin 16, (s.str str).st = .running → (s.str str).o0 + s.pu 0x0C06 str 4 4 ≤ s.now → Next (exec (.uvArmExpire str) s) fun t =>
      Only [.prot] s t ∧ t.prt str = { s.prt str with uvArmed := true } ∧ ∀ n, n ≠ str.val → t.prt n = s.prt n) ∧
    (s.Runs mb 0x0C21 q → s.Writes mb 0x0C → Lands (exec (.tripClear mb) s) fun e =>
      let str := uAt q.payload 0 1
      let expect := uAt q.payload 2 2
      let p := s.persisting str
      if 15 < str then Only [.hatch] s e ∧ s.Replies e mb q stBadParam [0, 0, 0, 0]
      else if (s.str str).st ≠ .tripped ∨ (expect ≠ 0xFFFF ∧ expect ≠ (s.prt str).mask) then
        Only [.hatch] s e ∧ s.Replies e mb q stRefused ([0, 0] ++ leBytes 2 p)
      else if p ≠ 0 then Only [.hatch] s e ∧ s.Replies e mb q stTrip ([0, 0] ++ leBytes 2 p)
      else OnlyWrite [.par, .links, .mod, .prot, .dt] s e ∧ (e.str str).st = .stopped ∧ (e.prt str).mask = 0 ∧
        (∀ n, n ≠ str → e.str n = s.str n ∧ e.prt n = s.prt n) ∧ s.Accepts e mb q (leBytes 2 (s.prt str).mask ++ [0, 0]))

/-- R344 to R347, R362: CELL_BYPASS of an enabled MV cell makes its record, unless a running string would hold too many; ENTER is timed at once, or in a
running string at the next boundary, when the reply waits; CELL_RELEASE of a cell that may return removes the record outside a running string, and
in a running one waits for the boundary. -/
def Obligations.Bypasses : Prop :=
  ∀ (s : State) (mb : Fin 8) (q : Request),
    (s.Runs mb 0x0C22 q → s.Writes mb 0x0C → Lands (exec (.cellBypass mb) s) fun e =>
      let lane := uAt q.payload 0 1
      let mode := uAt q.payload 1 1
      let str := s.strOf lane
      let refused := fun st => Only [.freeCount, .hatch] s e ∧ ∃ t, s.Replies e mb q st (leBytes 4 t)
      if 127 < lane ∨ 1 < mode then refused stBadParam
      else if eEnabled (s.entry lane) = false ∨ eType (s.entry lane) ≠ 1 then refused stRefused
      else if s.bypassed lane = false ∧ (s.str str).st = .running ∧ s.pu 0x0C06 str 2 1 < s.bypCount str + 1 then refused stRefused
      else OnlyWrite [.notif, .par, .pantry, .links, .mod, .prot, .dt] s e ∧
        (e.byp lane).held = (if s.bypassed lane = true then (s.byp lane).held else some 1) ∧ (e.byp lane).relWanted = false ∧
        ((e.byp lane).enterAt = none → (e.box mb).waiting = .cellBypass lane ∧ (e.box mb).state = .active ∧
          (e.box mb).taken = some q) ∧
        (∀ t, (e.byp lane).enterAt = some t → s.Answers e mb q (leBytes 4 (t % 2 ^ 32))) ∧
        (s.bypassed lane = false → (s.str str).st = .stopped ∨ mode = 1 → (e.byp lane).enterAt = some s.now) ∧
        (s.bypassed lane = false → mode = 0 → (s.str str).st = .running → (s.record lane 1).limitTrips str = false →
          (e.byp lane).enterAt = none) ∧
        (s.bypassed lane = true ∨ (s.record lane 1).limitTrips str = false → ∀ n, n ≠ lane → e.byp n = s.byp n)) ∧
    (s.Runs mb 0x0C23 q → s.Writes mb 0x0C → Lands (exec (.cellRelease mb) s) fun e =>
      let lane := uAt q.payload 0 1
      let refused := fun st => Only [.freeCount, .hatch] s e ∧ ∃ t, s.Replies e mb q st (leBytes 4 t)
      if 127 < lane then refused stBadParam
      else
        (∀ st, s.releaseRefusal lane = some st → refused st) ∧
        (s.releaseRefusal lane = none → (∀ n, n ≠ lane → e.byp n = s.byp n) ∧
          ((s.str (s.strOf lane)).st ≠ .running → OnlyWrite [.par, .prot] s e ∧
            e.byp lane = { s.byp lane with held := none, enterAt := none } ∧ s.Accepts e mb q [0, 0, 0, 0]) ∧
          ((s.str (s.strOf lane)).st = .running → OnlyWrite [.prot] s e ∧ e.byp lane = { s.byp lane with relWanted := true } ∧
            (e.box mb).waiting = .cellRelease lane ∧ (e.box mb).state = .active ∧ (e.box mb).taken = some q)))

/-- R351, R354 to R359, R363: how riding through an outage goes on once its times run out: from DARK to a halt, to DEW_WAIT or past it, from DEW_WAIT to
PRECHARGE or a halt, out of PRECHARGE, from SYNC to a halt, and from one string of the order to the next or to GRID, past those that are
tripped or that the host has stopped. RIDE_CMD goes on from a halt, aborts it to GRID, or ends DEW_WAIT, and is refused in every other state. -/
def Obligations.RideThrough : Prop :=
  ∀ s : State, s.commanding = true →
    (∀ t, s.prot.ride.returnFrom = some t → s.prot.ride.st = .dark → t + 8000000 * s.pu 0x0C0D noInst 6 2 ≤ s.mono →
      Lands (exec .mvReturnTimeExpire s) fun e => e.prot.ride.st ≠ .dark ∧ e.prot.ride.returnedAt = s.mono ∧
        (bit (s.pu 0x0C0B noInst 0 1) 1 = false → e.prot.ride.st = .halted ∧ e.prot.ride.reason = 1 ∧ e.prot.ride.halted = .dark ∧
          Only [.freeCount, .hatch, .notif, .par, .faults, .pantry, .links, .prot] s e) ∧
        (bit (s.pu 0x0C0B noInst 0 1) 1 = true → 8000000000 * s.pu 0x0C0E noInst 4 2 ≤ s.mono - s.prot.ride.lostAt →
          e.prot.ride.st = .dewWait ∧ e.prot.ride.enteredMono = s.mono ∧
          Only [.freeCount, .hatch, .notif, .par, .faults, .pantry, .links, .prot] s e) ∧
        Only [.freeCount, .todo, .hatch, .notif, .par, .faults, .pantry, .links, .mod, .prot, .dt] s e) ∧
    (∀ t, s.prot.ride.dewFrom = some t → s.prot.ride.st = .dewWait → t + 8000000000 * s.pu 0x0C0E noInst 2 2 ≤ s.mono →
      Lands (exec .dewHoldExpire s) fun e => e.prot.ride.st ≠ .dewWait ∧
        Only [.freeCount, .todo, .hatch, .notif, .par, .faults, .pantry, .links, .mod, .prot, .dt] s e ∧
        (∀ str l, str ∈ s.pcStrings → l ∈ s.activeMembers str → s.capNow l < s.ps 0x0C0F noInst 0 2 →
          e.prot.ride.st = .precharge ∧ e.prot.ride.enteredMono = s.mono ∧ e.prot.ride.pcNoted.get 0 l = s.capNow l ∧
          (∀ n ∈ s.pcStrings, (s.str n).st = .tripped → (s.prt n).mask = 2 ^ 13 → (e.str n).st = .stopped ∧ (e.prt n).mask = 0) ∧
          ((∀ n ∈ s.pcStrings, (s.str n).st ≠ .tripped) → e.mod.str = s.mod.str))) ∧
    (s.prot.ride.st = .dewWait → s.pu 0x0C0E noInst 6 2 ≠ 0 →
      s.prot.ride.enteredMono + 480000000000 * s.pu 0x0C0E noInst 6 2 ≤ s.mono → Lands (exec .dewTimeoutExpire s) fun e =>
        Only [.freeCount, .hatch, .notif, .par, .pantry, .links, .prot] s e ∧ e.prot.ride.st = .halted ∧ e.prot.ride.reason = 2 ∧
        e.prot.ride.halted = .dewWait) ∧
    (s.prot.ride.st = .precharge → s.prot.ride.enteredMono + 8000000 * s.pu 0x0C0F noInst 4 4 ≤ s.mono →
      Lands (exec .pcTimeoutExpire s) fun e =>
        Only [.freeCount, .todo, .hatch, .notif, .par, .faults, .pantry, .links, .mod, .prot, .dt] s e ∧ e.prot.ride.st ≠ .precharge ∧
        (s.pcStrings = [] → s.le.running = false → e.prot.ride.st = .halted ∧ e.prot.ride.reason = 6)) ∧
    (s.prot.ride.st = .sync → s.prot.ride.enteredMono + 8000000 * s.pu 0x0C10 noInst 10 2 ≤ s.mono →
      Lands (exec .syncTimeoutExpire s) fun e => Only [.freeCount, .hatch, .notif, .par, .pantry, .links, .prot] s e ∧
        e.prot.ride.st = .halted ∧ e.prot.ride.reason = 5 ∧ e.prot.ride.halted = .sync) ∧
    (∀ t, s.prot.ride.gapFrom = some t → s.prot.ride.st = .enable → t + 8000000 * s.pu 0x0C11 noInst 16 2 ≤ s.mono →
      Lands (exec .stageGapExpire s) fun e =>
        Only [.freeCount, .todo, .hatch, .notif, .par, .faults, .pantry, .links, .mod, .prot, .dt] s e ∧
        (s.rideOrder.length ≤ s.prot.ride.index + 1 → e.prot.ride.st = .grid) ∧
        ∀ str rest, s.rideOrder.drop (s.prot.ride.index + 1) = str :: rest →
          ((s.str str).st = .tripped ∨ str ∈ s.prot.ride.stopped → rest = [] → e.prot.ride.st = .grid) ∧
          ((s.str str).st ≠ .tripped → str ∉ s.prot.ride.stopped →
            let refusal := s.startRefusal str ((s.now + s.modDelay str + 16000) % 2 ^ 32)
            (refusal.isSome = true → e.prot.ride.st = .halted ∧ e.prot.ride.reason = 7 ∧ e.prot.ride.str = str ∧ e.prot.ride.halted = .enable) ∧
            (refusal = none → e.prot.ride.st = .enable ∧ e.prot.ride.index = s.prot.ride.index + 1 ∧ e.prot.ride.gapFrom = none ∧
              ((∀ l ∈ s.lanesOf str, eEnabled (s.entry l) = true → s.workingLink l = true) →
                (e.str str).st = .starting ∧ ∀ n, n ≠ str → e.str n = s.str n)))) ∧
    (∀ (mb : Fin 8) (q : Request), s.Runs mb 0x0C24 q → s.Writes mb 0x0C → Lands (exec (.rideCmd mb) s) fun e =>
      let a := uAt q.payload 0 1
      let r := s.prot.ride
      let shows := fun (u : State) => leBytes 1 u.prot.ride.st.code ++ leBytes 1 u.prot.ride.reason ++ [0, 0]
      if a < 1 ∨ 3 < a then Only [.hatch] s e ∧ s.Replies e mb q stBadParam (shows s)
      else if (a = 3 ∧ (r.st = .dewWait ∨ (r.st = .halted ∧ r.reason = 2))) ∨ (a ≤ 2 ∧ r.st = .halted) then
        OnlyWrite [.freeCount, .todo, .notif, .par, .faults, .pantry, .links, .mod, .prot, .dt] s e ∧ s.Answers e mb q (shows e) ∧
        (a = 2 → e.prot.ride.st = .grid ∧ e.prot.ride.reason = 0 ∧ s.Accepts e mb q (shows e)) ∧
        (a = 1 → r.reason ≠ 1 → r.halted = .dewWait → e.prot.ride.st = .dewWait ∧ e.prot.ride.enteredMono = s.mono) ∧
        (a = 3 → e.prot.ride.st ≠ .dewWait)
      else Only [.hatch] s e ∧ s.Replies e mb q stRefused (shows s))

/-- R368 to R378, R380, R382, R386 to R388, R391, R398: what a unit takes from the first copy of a twin block: the peer's role and epoch; comparison records,
which a qualified standby classifies once both are in; trips, whatever their epoch; chunks of forwarded writes and their answers; state of the active;
the peer's health, cases, surrender and reset. A block of an older epoch, or with another ETAG where it has no EPOCH, changes nothing but the
count STALE_RX and owes a TW_ROLE. -/
def Obligations.TwinBlocks : Prop :=
  ∀ (side : TwinSide) (h : RxHeader) (p : BitVec 96) (s : State), s.TwinTakes side h →
    let base : List Part := [.todo, .par, .faults, .twin, .lanes, .links]
    let all : List Part := [.freeCount, .time, .hatch, .notif, .pantry, .mod, .prot, .dt, .ring] ++ base
    let epoch := pbits p 95 80
    let d := sdiff 16 epoch s.twin.epoch
    let kept := fun (e : State) => e.twin.role = s.twin.role ∧ e.twin.epoch = s.twin.epoch
    let stale := fun (e : State) => Only base s e ∧ e.twin.roleOwed = true ∧ kept e
    Lands (exec (.twRoleRx side h p) s) (fun e =>
      if d < 0 then stale e
      else
        let role := pbits p 79 72
        let split := s.twin.role = .active ∧ role = 1 ∧ 0 < d ∧ ¬(s.twin.handoverUntil.isSome = true ∧ epoch = s.nextEpoch)
        let joins := s.twin.role = .active ∧ role = 2 ∧ s.twinEn = true ∧ pbits p 71 71 ≠ s.unit ∧ s.twin.sameStepping = true ∧
          (s.twin.paired = false ∨ s.twin.standbyLost = true ∨ s.twin.peerRole ≠ some 2)
        Only all s e ∧ e.twin.peerRole = some role ∧ e.twin.peerEpoch = epoch ∧ e.twin.peerUnit = pbits p 71 71 ∧
        e.twin.peerGens = (pbits p 63 32, pbits p 31 0) ∧
        (s.twin.role ≠ .active → e.twin.peerQualified = decide (pbits p 70 70 = 1) ∧ e.twin.role = s.twin.role ∧ e.twin.epoch =
          if 0 < d ∧ (s.twin.role = .standby ∨ (s.twin.role = .maint ∧ s.twinEn = true)) then epoch else s.twin.epoch) ∧
        (split → e.twin.role = .maint ∧ e.twin.epoch = epoch ∧ s.Fired e 0x48) ∧
        (joins → e.twin.role = .active ∧ e.twin.paired = true ∧ e.twin.standbyLost = false ∧ e.twin.qualifying = some s.mono ∧
          e.twin.epoch = if 0 < d then epoch else (s.twin.epoch + 1) % 2 ^ 16) ∧
        (d = 0 → ¬joins → bits s.twin.failed 7 0 = 0 → kept e)) ∧
    Lands (exec (.twCompareRx side h .a p) s) (fun e =>
      if d < 0 then stale e
      else if s.twin.role ≠ .standby then Only base s e ∧ kept e
      else s.twin.rxB = none → Only base s e ∧ kept e ∧ e.twin.rxA = some (pbits p 79 64, pbits p 63 32, pbits p 31 0) ∧
        e.twin.compareJ = if s.compareInTime = true then some (pbits p 79 64) else s.twin.compareJ) ∧
    Lands (exec (.twCompareRx side h .b p) s) (fun e =>
      if h.etag.toNat ≠ s.twin.epoch % 4 then stale e
      else if s.twin.role ≠ .standby then Only base s e ∧ kept e
      else s.twin.rxA = none → Only base s e ∧ kept e ∧ e.twin.rxB = some (epoch, pbits p 79 64, pbits p 63 32, pbits p 31 0)) ∧
    (∀ part (a : Nat × Nat × Nat) (b : Nat × Nat × Nat × Nat) (own : Digests), s.twin.role = .standby → s.twin.qualified = true →
      s.twin.resync = false → s.twin.caseOpen = false →
      (part = .a → 0 ≤ d ∧ a = (pbits p 79 64, pbits p 63 32, pbits p 31 0) ∧ s.twin.rxB = some b) →
      (part = .b → h.etag.toNat = s.twin.epoch % 4 ∧ b = (epoch, pbits p 79 64, pbits p 63 32, pbits p 31 0) ∧ s.twin.rxA = some a) →
      a.1 = b.2.1 → (s.twin.digests.find? fun x => x.j % 2 ^ 16 == a.1) = some own →
      Lands (exec (.twCompareRx side h part p) s) fun e => Only all s e ∧ kept e ∧ e.twin.rxA = none ∧ e.twin.rxB = none ∧
        e.twin.classJ = own.j ∧
        if b.1 ≠ own.cfgDig then e.twin.qualified = false ∧ s.Fired e 0x40 ∧ e.twin.caseOpen = false
        else e.twin.qualified = true ∧
          if a.2.1 ≠ own.inDig then e.twin.resync = true ∧ e.twin.resyncFrom = own.j ∧ e.twin.caseOpen = false
          else if a.2.2 = own.outDig ∧ b.2.2.1 = own.edgeDig ∧ b.2.2.2 = own.stateDig then
            e.twin.resync = false ∧ e.twin.caseOpen = false ∧ e.faults.firings = s.faults.firings
          else if 0 < own.j ∧ s.twin.stateEqJ = some (own.j - 1) then
            e.twin.caseOpen = true ∧ e.twin.case.j = own.j ∧ e.twin.caseAt = s.mono ∧ e.twin.resync = false
          else e.twin.resync = true ∧ e.twin.resyncFrom = own.j ∧ e.twin.caseOpen = false) ∧
    Lands (exec (.twTripRx side h p) s) (fun e =>
      let str := pbits p 79 72
      let mask := pbits p 71 56
      if s.inPair = false ∨ 15 < str then Only base s e ∧ kept e
      else Only all s e ∧ kept e ∧ (e.str str).st = .tripped ∧
        (e.prt str).mask = (if (s.str str).st = .tripped then (s.prt str).mask ||| mask else mask) ∧
        (∀ n, n ≠ str → e.str n = { s.str n with plan := (e.str n).plan } ∧ e.prt n = s.prt n) ∧
        ((∀ t, (s.prt str).ownTrip = some t → t + 32000 < s.mono) → s.Fired e 0x42) ∧
        ∀ t, (s.prt str).ownTrip = some t → s.mono ≤ t + 32000 → e.faults.firings = s.faults.firings) ∧
    (let xfer := pbits p 95 88
      let index := pbits p 87 76
      let last := pbits p 75 75 = 1
      let data := beBytes 8 (pbits p 63 0)
      let goesOn := ∃ f, s.twin.fwdIn = some f ∧ f.xfer = xfer ∧ f.next % 4096 = index
      let answers := fun (e : State) (r : Nat) => (e.lnk 130).queue = if s.twinLinkUp = true then
        (s.lnk 130).queue ++ [{ type := 0x35, payload := s.twin.epoch * 2 ^ 80 + xfer * 2 ^ 72 + r * 2 ^ 64 }] else (s.lnk 130).queue
      (h.etag.toNat ≠ s.twin.epoch % 4 → Lands (exec (.twFwdRx side h p) s) fun e => stale e ∧ (last → answers e 1) ∧
        (¬last → (e.lnk 130).queue = (s.lnk 130).queue)) ∧
      (h.etag.toNat = s.twin.epoch % 4 →
        (¬goesOn → index ≠ 0 → Lands (exec (.twFwdRx side h p) s) fun e => Only base s e ∧ kept e ∧ e.twin.fwdIn = none ∧
          (last → answers e 3)) ∧
        (¬goesOn → index = 0 → ¬last → Lands (exec (.twFwdRx side h p) s) fun e => Only base s e ∧ kept e ∧
          e.twin.fwdIn = some { xfer, data, next := 1 }) ∧
        (∀ f, s.twin.fwdIn = some f → f.xfer = xfer → f.next % 4096 = index →
          (¬last → Lands (exec (.twFwdRx side h p) s) fun e => Only base s e ∧ kept e ∧
            e.twin.fwdIn = some { xfer, data := f.data ++ data, next := f.next + 1 }) ∧
          (last →
            let b := f.data ++ data
            let e' := sdiff 16 (uAt b 0 2) s.twin.epoch
            (e' < 0 → Lands (exec (.twFwdRx side h p) s) fun e => stale e ∧ e.twin.fwdIn = none ∧ answers e 1) ∧
            (0 ≤ e' → s.twin.role ≠ .standby → Lands (exec (.twFwdRx side h p) s) fun e => Only base s e ∧ kept e ∧
              e.twin.fwdIn = none ∧ answers e 2) ∧
            (0 ≤ e' → s.twin.role = .standby → uAt b 2 2 = 0x0D11 → Lands (exec (.twFwdRx side h p) s) fun e => Only base s e ∧ kept e ∧
              if s.twin.qualified = true then answers e 0 ∧ e.twin.fwdCount = s.twin.fwdCount + 1 ∧
                ∃ w, e.twin.switch = some w ∧ w.rising = true ∧ w.at_ = s.boundaryFrom (s.now + 8000)
              else answers e 2 ∧ e.twin.switch = s.twin.switch) ∧
            (0 ≤ e' → s.twin.role = .standby → uAt b 2 2 = 0x1816 → Lands (exec (.twFwdRx side h p) s) fun e =>
              answers e 0 ∧ kept e ∧ e.twin.fwdCount = s.twin.fwdCount + 1 ∧
              e.fw.locked = decide (uAt (slice b 8 (uAt b 4 2)) 0 1 = 1)))))) ∧
    Lands (exec (.twAckRx side h p) s) (fun e =>
      if d < 0 then stale e
      else
        let found := s.twin.fwdOut.find? fun f => f.xfer == pbits p 79 72
        (found = none → Only base s e ∧ kept e ∧ e.twin.fwdOut = s.twin.fwdOut) ∧
        ∀ f q st pl, found = some f → (s.box f.mb).waiting = .standbyAck st pl → (s.box f.mb).taken = some q →
          kept e ∧ e.twin.fwdOut = s.twin.fwdOut.filter (fun x => x.xfer != f.xfer) ∧
          e.twin.fwdCount = (if pbits p 71 64 = 0 then s.twin.fwdCount + 1 else s.twin.fwdCount) ∧
          if pbits p 71 64 = 1 then Only (.hatch :: base) s e ∧ s.Replies e f.mb q stStale [0, 0, 0xFF, 0xFF]
          else if pbits p 71 64 ≠ 0 then Only (.hatch :: base) s e ∧ s.Replies e f.mb q stFailed [0x8C, 0, 0xFF, 0xFF]
          else if q.opcode = 0x0D11 then
            Only (.hatch :: base) s e ∧ s.Replies e f.mb q st (leBytes 4 (s.boundaryFrom (s.now + 8000))) ∧
            ∃ w, e.twin.switch = some w ∧ w.rising = false ∧ w.at_ = s.boundaryFrom (s.now + 8000)
          else q.opcode ≠ 0x0511 → Only (.hatch :: base) s e ∧ s.Replies e f.mb q st pl) ∧
    (h.etag.toNat ≠ s.twin.epoch % 4 → ∀ m, Lands (exec (.twStateRx side h m) s) stale) ∧
    (h.etag.toNat = s.twin.epoch % 4 → s.twin.role ≠ .standby → ∀ m, Lands (exec (.twStateRx side h m) s) fun e => Only base s e ∧ kept e) ∧
    (h.etag.toNat = s.twin.epoch % 4 → s.twin.role = .standby →
      (∀ (l : Fin 128) (g : Fin 6) (t : BitVec 32) (n : Int), Lands (exec (.twStateRx side h (.dtStep l g t n)) s) fun e =>
        Only (.dt :: base) s e ∧ e.dleg l g = { s.dleg l g with
          steps := (s.dleg l g).steps ++ [((s.tickOf t.toNat : Int), if 0 ≤ n then .up n.toNat else .down n.natAbs)] } ∧
        (∀ k, k ≠ g.val → e.dleg l k = s.dleg l k) ∧ ∀ m, m ≠ l.val → e.dtl m = s.dtl m) ∧
      (∀ (l : Fin 128) (g : Fin 6) (t : BitVec 32) (v : BitVec 16) (on : Bool),
        Lands (exec (.twStateRx side h (.dtFallback l g t v on)) s) fun e => Only (.dt :: [.hatch, .notif, .pantry] ++ base) s e ∧
          (e.dleg l g).fallback = on ∧ (e.dleg l g).good = 0 ∧
          (e.dleg l g).steps = (s.dleg l g).steps ++ (if on = true then [((s.tickOf t.toNat : Int), .set v.toNat)] else []) ∧
          ∀ m, m ≠ l.val → e.dtl m = s.dtl m) ∧
      (∀ (n : Fin 16) (k : Nat) (l : List (Fin 128)), (s.str n).orderWait = false → Lands (exec (.twStateRx side h (.order n k l)) s) fun e =>
        Only (.mod :: base) s e ∧ e.mod = (s.modSrt n fun x => { x with fromActive := some (k, l.map (·.val)) }).mod) ∧
      (∀ st reason : BitVec 8, st.toNat < 8 → Lands (exec (.twStateRx side h (.ride st reason)) s) fun e => Only (.prot :: base) s e ∧
        e.prot.ride.st.code = st.toNat ∧ e.prot.ride.reason = reason.toNat ∧ e.prot.ride.enteredMono = s.mono) ∧
      (∀ items last, Lands (exec (.twStateRx side h (.resync items last)) s) fun e => Only base s e ∧ kept e ∧
        if s.twin.resync = true then e.twin.resyncItems = s.twin.resyncItems ++ items ∧ e.twin.resyncIn = (s.twin.resyncIn || last)
        else e.twin.resyncItems = s.twin.resyncItems ∧ e.twin.resyncIn = s.twin.resyncIn) ∧
      (∀ items last, Lands (exec (.twStateRx side h (.qualify items last)) s) fun e => kept e ∧
        if s.twin.qualified = true then Only base s e ∧ e.twin.qualifyIn = s.twin.qualifyIn
        else e.twin.qualifyIn = s.twin.qualifyIn + 1 ∧ e.twin.qualifyDone = (s.twin.qualifyDone || last)) ∧
      (∀ (id inst : BitVec 16) v last, s.twin.qualified = false →
        Lands (exec (.twStateRx side h (.qualify [.param id inst v] last)) s) fun e => Only base s e ∧ e.peff id.toNat inst.toNat = v)) ∧
    Lands (exec (.twHealthRx side h p) s) (fun e =>
      if d < 0 then stale e
      else Only base s e ∧ e.twin.peerHealth = rxBytes p ∧ e.twin.peerHealthAt = some s.mono ∧
        e.twin.peerQualified = decide (pbits p 32 32 = 1) ∧
        (s.twin.role ≠ .active ∨ bits s.twin.failed 7 0 = 0 → kept e)) ∧
    Lands (exec (.twCaseRx side h p) s) (fun e =>
      let code := pbits p 63 56
      let v := pbits p 55 48
      if d < 0 then stale e
      else Only all s e ∧
        (code = 1 → kept e ∧ if s.twin.role = .active ∧ s.twin.caseOpen = false then
          e.twin.caseOpen = true ∧ e.twin.caseAt = s.mono ∧ e.twin.case.j % 2 ^ 16 = pbits p 79 64 else e.twin.case = s.twin.case) ∧
        (code = 2 → kept e ∧ e.twin.resync = (s.twin.resync || decide (s.twin.role = .active)) ∧
          (s.twin.role = .active → e.twin.resyncFrom = s.le.j)) ∧
        (code = 3 →
          let splits := s.twin.role = .active ∧ v = 2 ∧ 0 < d
          (splits → ¬(s.twin.handoverUntil.isSome = true ∧ epoch = s.nextEpoch) →
            e.twin.role = .maint ∧ e.twin.epoch = epoch ∧ s.Fired e 0x48) ∧
          (¬splits → s.twin.caseOpen = false → kept e) ∧
          (¬splits → s.twin.caseOpen = true → e.twin.caseOpen = false ∧
            if 1 ≤ v ∧ v ≤ 3 then e.twin.case.verdict = v ∧ 1 ≤ e.twin.case.rule ∧ e.twin.case.rule ≤ 5 ∧
              e.twin.role = (if s.twin.role = .active then (if v = 2 then .maint else .active)
                else if s.twin.role = .standby then (if v = 2 then .active else .maint) else s.twin.role) ∧
              (s.inPair = true → e.twin.epoch = (s.twin.epoch + 1) % 2 ^ 16)
            else e.twin.case.verdict = 4 ∧ kept e)) ∧
        (code = 0 ∨ 3 < code → kept e)) ∧
    Lands (exec (.twSurrenderRx side h p) s) (fun e =>
      if d < 0 then stale e
      else if s.twin.role = .standby ∧ s.twin.qualified = true then Only all s e ∧ e.twin.role = .active ∧
        e.twin.epoch = (s.twin.epoch + 1) % 2 ^ 16 ∧ e.twin.peerRole = some 5 ∧ s.Fired e 0x45 ∧ e.twin.caseOpen = false
      else Only base s e ∧ kept e) ∧
    Lands (exec (.twResetRx side h p) s) (fun e =>
      if d < 0 then stale e else Only base s e ∧ kept e ∧ e.todo.getLast? = some (.chipReset 3 0xFF))

/-- R367, R370, R371, R373, R375, R379 to R382, R385, R387, R398: what the twin's times bring: the peer counts as alive until 20 µs without an edge, the
standby is lost, a forwarded write without an answer fails, a missed record is counted and two of them bring a take-over, a check completes or
fails, a qualified standby takes a planned switch, a standby whose data are complete is qualified, and a reset due begins. A slot of a service
lane that is not trained sends nothing; in HUNT it sends as in LINKED. -/
def Obligations.TwinTimes : Prop :=
  ∀ s : State,
    let told : List Part := [.todo, .hatch, .notif, .par, .faults, .twin, .pantry]
    let rise : List Part := [.freeCount, .lanes, .links, .time, .ring, .mod, .prot, .dt] ++ told
    (s.twin.peerAlive = true → s.twin.aliveAt + 160000 ≤ s.mono → Lands (exec .peerAliveTimeout s) fun e =>
      Only [.twin, .faults] s e ∧ e.twin = { s.twin with peerAlive := false }) ∧
    (Lands (exec .twinAliveInEdge s) fun e => Only told s e ∧ e.twin = { s.twin with peerAlive := true, aliveAt := s.mono }) ∧
    (∀ d r, s.twin.digests = d :: r → s.twin.dueJ ≠ some d.j → s.le.next - s.p0 0x0B02 + 64000 ≤ s.now →
      (s.twin.role ≠ .standby ∨ s.twin.qualified = false → Next (exec .compareDeadline s) fun t => Only [.twin] s t ∧
        t.twin = { s.twin with dueJ := some d.j }) ∧
      (s.twin.role = .standby → s.twin.qualified = true → s.twin.compareJ = some (d.j % 2 ^ 16) → Lands (exec .compareDeadline s) fun e =>
        Only (.lanes :: .links :: told) s e ∧ e.twin.missed = 0 ∧ e.twin.dueJ = some d.j ∧ e.twin.rxA = none ∧ e.twin.rxB = none ∧
        e.twin.role = .standby ∧ e.twin.epoch = s.twin.epoch) ∧
      (s.twin.role = .standby → s.twin.qualified = true → s.twin.compareJ ≠ some (d.j % 2 ^ 16) → s.twin.rxA = none ∨ s.twin.rxB = none →
        Lands (exec .compareDeadline s) fun e => e.twin.dueJ = some d.j ∧ e.twin.rxA = none ∧ e.twin.rxB = none ∧
          if 2 ≤ s.twin.missed + 1 ∧ s.twin.peerAlive = false ∧ s.ringSilent = true then
            Only rise s e ∧ e.twin.role = .active ∧ e.twin.epoch = (s.twin.epoch + 1) % 2 ^ 16 ∧ s.Fired e 0x45
          else Only told s e ∧ e.twin.missed = s.twin.missed + 1 ∧ e.twin.role = .standby ∧ e.twin.epoch = s.twin.epoch)) ∧
    (∀ f q, (s.twin.fwdOut.find? fun f => decide (f.at_ + 1600000 ≤ s.mono)) = some f → (s.box f.mb).taken = some q →
      Lands (exec .twFwdTimeout s) fun e => Only [.hatch, .twin] s e ∧ e.twin.fwdOut = s.twin.fwdOut.filter (fun x => x.xfer != f.xfer) ∧
        s.Replies e f.mb q stFailed [0x8C, 0, 0xFF, 0xFF]) ∧
    (s.twinEn = true → s.twin.streamLost = false → s.twin.rxAt + 16000 ≤ s.mono → Lands (exec .twinStreamLost s) fun e =>
      Only (.time :: .ring :: told) s e ∧ e.twin = { s.twin with streamLost := true, rxSeq := none }) ∧
    (∀ (b : Fin 12) (r : TestResult), 8 ≤ b.val ∨ r ≠ .overdue → Lands (exec (.selftestPeriod b r) s) fun e =>
      let ok := if 8 ≤ b.val then s.checkNow b else decide (r = .pass)
      Only (.lanes :: .links :: told) s e ∧ e.twin.failed.testBit b = !ok ∧
      (∀ k, k ≠ b.val → e.twin.failed.testBit k = s.twin.failed.testBit k) ∧
      e.twin.checkAt.get? b = (if ok = true then some s.mono else s.twin.checkAt.get? b) ∧
      (b.val < 8 → r = .fail → s.twin.failed.testBit b = false →
        (s.qualifiedStandby = true → e.twin.role = .maint ∧ e.twin.epoch = (s.twin.epoch + 1) % 2 ^ 16) ∧
        (s.twin.role = .standby → e.twin.barred = true ∧ e.twin.qualified = false ∧ e.twin.role = .standby))) ∧
    (∀ b : Fin 12, b.val < 8 → (∀ n, checkPeriod b = some n → s.twin.checkAt.get 0 b + 2 * n ≤ s.mono) →
      Lands (exec (.selftestPeriod b .overdue) s) fun e =>
        Only (.lanes :: .links :: told) s e ∧ e.twin.failed.testBit b = true ∧ e.twin.checkAt = s.twin.checkAt) ∧
    (s.sys.stage = .serving → s.twinEn = true → s.twin.healthOwed = true ∨ s.twin.healthAt + 7200000 ≤ s.mono →
      Lands (exec .twHealthPeriod s) fun e => Only [.twin, .links] s e ∧ e.twin.healthAt = s.mono ∧ e.twin.healthOwed = false ∧
        e.twin.reportSeq = (s.twin.reportSeq + 1) % 2 ^ 16 ∧ e.twin.ownHealth = beBytes 12 s.healthReport ∧
        (s.twinLinkUp = true → (e.lnk 130).queue = (s.lnk 130).queue ++ [{ type := 0x37, payload := s.healthReport }])) ∧
    (s.twin.role = .standby → s.twin.qualified = false → s.twin.qualifyDone = true → s.twin.barred = false → bits s.twin.failed 7 0 = 0 →
      Lands (exec .qualifyComplete s) fun e => Only [.freeCount, .todo, .hatch, .notif, .par, .twin, .pantry, .lanes, .links] s e ∧
        e.twin.qualified = true ∧ e.twin.role = .standby ∧ e.twin.epoch = s.twin.epoch ∧ e.twin.missed = 0 ∧
        ∀ l < 128, (e.lane l).st = if (s.lane l).st = .halted then
          (if s.laneUnused l = true ∨ (s.rack (rackOf l)).st ≠ .locked then .off else .trainCdr) else (s.lane l).st) ∧
    (∀ t, s.twin.downSince = some t → s.twin.role = .standby → s.twin.qualified = true → t + 8000000000 ≤ s.mono →
      Lands (exec .twinLanesDownTimeout s) fun e => Only [.todo, .twin, .lanes, .links] s e ∧ e.twin.qualified = false ∧
        e.twin.qualifyDone = false ∧ e.twin.role = .standby ∧
        ∀ l < 132, if l < 128 ∧ (s.lane l).st ≠ .off then (e.lane l).st = .halted else e.lane l = s.lane l) ∧
    (s.twin.role = .active → s.twin.paired = true → s.twin.standbyLost = false → s.twin.peerAlive = false →
      s.twin.rxAt + 16000000 ≤ s.mono → Lands (exec .twinStandbyTimeout s) fun e => Only told s e ∧ e.twin.standbyLost = true ∧
        e.twin.peerRole = none ∧ e.twin.role = .active ∧
        (s.faults.present.contains { src := 0x46, inst := noInst, sub := 0 } = false → s.Fired e 0x46)) ∧
    (∀ w, s.twin.switch = some w → w.at_ ≤ s.now →
      if w.rising = false then Next (exec .twinSwitchBoundary s) fun t => Only [.twin] s t ∧
        t.twin = { s.twin with switch := none, handoverUntil := some (s.mono + 160000) }
      else if s.twin.role = .standby ∧ s.twin.qualified = true then Lands (exec .twinSwitchBoundary s) fun e => Only rise s e ∧
        e.twin.role = .active ∧ e.twin.epoch = (s.twin.epoch + 1) % 2 ^ 16 ∧ e.twin.switch = none
      else Next (exec .twinSwitchBoundary s) fun t => Only [.twin] s t ∧ t.twin = { s.twin with switch := none }) ∧
    (∀ t, s.twin.handoverUntil = some t → t ≤ s.mono → Lands (exec .switchHandoverEnd s) fun e =>
      Only (.time :: .ring :: told) s e ∧ e.twin.role = .standby ∧ e.twin.epoch = (s.twin.epoch + 1) % 2 ^ 16 ∧
      e.twin.handoverUntil = none ∧ e.twin.qualified = true ∧ e.twin.peerRole = some 1) ∧
    (∀ t twin, s.twin.resetDue = some (t, twin) → t ≤ s.mono → Lands (exec .unitResetDelay s) fun e => Only [.todo, .twin, .links] s e ∧
      e.twin.resetDue = none ∧ (twin = false → e.todo = s.todo ++ [.chipReset 3 0xFF]) ∧
      (twin = true → e.todo = s.todo ∧ (s.twinLinkUp = true →
        (e.lnk 130).queue = (s.lnk 130).queue ++ [{ type := 0x3A, payload := s.twin.epoch * 2 ^ 80 }]))) ∧
    (∀ port : ServiceLane,
      let lane := svcLane port
      let l := s.lnk lane
      let out := fun (e : State) (seq tag type payload : Nat) =>
        (e.lnk lane).lastOut = ofMsb (blockBits type tag seq (s.stampPayload type payload)) ∧ (e.lnk lane).downSeq = (seq + 1) % 256
      ((s.lane lane).st ≠ .linked → (s.lane lane).st ≠ .hunt → (s.lane lane).st ≠ .align → exec (.serviceSlot port) s = .next s) ∧
      ((s.lane lane).st = .align → Next (exec (.serviceSlot port) s) fun t => Only [.time, .lanes, .links] s t ∧
        out t l.downSeq (s.twin.epoch % 4) tyIdle 0) ∧
      ((s.lane lane).st = .linked ∨ (s.lane lane).st = .hunt →
        (lane < 130 →
          (∀ b, ringFirst l.queue = some b → Lands (exec (.serviceSlot port) s) fun e => Only [.time, .lanes, .links] s e ∧
            (e.lnk lane).queue = removeOne b l.queue ∧
            out e l.downSeq (if b.type = 0x06 ∨ b.type = 0x25 then s.twin.epoch % 4 else bits b.payload 65 64) b.type b.payload) ∧
          (l.queue = [] → s.twin.evidOut = none → Lands (exec (.serviceSlot port) s) fun e => Only [.time, .lanes, .links] s e ∧
            out e l.downSeq (s.twin.epoch % 4) tyIdle 0)) ∧
        (130 ≤ lane →
          (∀ q ty pl r, s.twin.ahead.get [] lane = (q, ty, pl) :: r → Lands (exec (.serviceSlot port) s) fun e =>
            Only [.twin, .time, .lanes, .links] s e ∧ e.twin.txSeq = s.twin.txSeq ∧ e.twin.ahead.get [] lane = r ∧
            out e q (s.twin.epoch % 4) ty pl) ∧
          (s.twin.ahead.get [] lane = [] → s.twin.role ≠ .active → s.twin.roleOwed = false → Lands (exec (.serviceSlot port) s) fun e =>
            Only [.twin, .time, .lanes, .links] s e ∧ e.twin.txSeq = (s.twin.txSeq + 1) % 256 ∧
            (e.lnk 130).queue = (s.lnk 130).queue.drop 1 ∧
            let b := (s.lnk 130).queue.headD { type := tyIdle, payload := 0 }
            out e s.twin.txSeq (s.twin.epoch % 4) b.type b.payload))))

/-- R388 to R391: a unit's replay of a case is kept; a verdict of the arbiter's pins, or the default once REF_TIMEOUT has run out, ends the case and
moves the roles at E + 1; a referee that has replayed the active's evidence sends its verdict and drops the case. -/
def Obligations.Verdicts : Prop :=
  ∀ s : State,
    let all : List Part := [.freeCount, .todo, .hatch, .notif, .par, .faults, .time, .twin, .pantry, .lanes, .links, .mod, .prot, .dt, .ring]
    let ends := fun (e : State) (v rule : Nat) => e.twin.caseOpen = false ∧ e.twin.arbReqLow = false ∧ e.twin.case.verdict = v ∧
      e.twin.case.rule = rule ∧ e.twin.epoch = (if s.twin.role = .active ∨ s.twin.role = .standby then (s.twin.epoch + 1) % 2 ^ 16
        else s.twin.epoch) ∧
      e.twin.role = (if s.twin.role = .active then (if v = 2 then .maint else .active)
        else if s.twin.role = .standby then (if v = 2 then .active else .maint) else s.twin.role) ∧
      (v = 3 → s.twin.role = .active → s.Fired e 0x49) ∧ (v = 2 → s.twin.role = .standby → s.Fired e 0x45)
    (∀ r : Bool, s.twin.caseOpen = true → s.twin.replayed = none → s.inPair = true → Lands (exec (.caseReplayDone r) s) fun e =>
      Only [.freeCount, .twin, .links] s e ∧ e.twin.replayed = some r ∧ e.twin.caseOpen = true ∧ e.twin.role = s.twin.role ∧
      e.twin.case.replay.testBit (if s.twin.role = .active then 0 else 1) = r) ∧
    (∀ code : BitVec 2, code ≠ 0 → s.twin.arbReqLow = true → s.twin.caseOpen = true →
      Lands (exec (.arbVdStable code) s) fun e => Only all s e ∧ ends e code.toNat 5) ∧
    (∀ code : BitVec 2, code = 0 ∨ s.twin.arbReqLow = false → exec (.arbVdStable code) s = .next s) ∧
    (s.twin.caseOpen = true → s.twin.caseAt + 4000000 ≤ s.mono → Lands (exec .refTimeoutExpire s) fun e => Only all s e ∧
      ends e (1 + s.pu 0x0D02 noInst 2 1) 4) ∧
    (∀ (c : RefereeCase) (r : List RefereeCase) (x y : RefClaim) (a b : Bool) (head : Fin 8), s.twin.refCases = c :: r → c.head = head →
      c.claimA = some x → c.claimS = some y → x.reproduced = true → y.reproduced = true → x.dig = y.dig →
      x.chunks ≤ c.evidence.cells.length → s.twin.role = .referee → Lands (exec (.refereeReplayDone head a b) s) fun e =>
        Only [.twin, .links] s e ∧ c ∉ e.twin.refCases ∧ ((s.lane 128).st = .linked → ∃ more, (e.lnk 128).queue = (s.lnk 128).queue ++
          { type := 0x46, payload := pf 91 s.node + pf 86 31 + pf 64 ((s.ring.headEpoch.get? head).getD 0) + pf 60 4 + pf 48 c.num +
            pf 46 (if a && b then 1 + s.pu 0x0D02 noInst 2 1 else if a then 1 else if b then 2 else 3) +
            pf 43 (if a && b then 4 else 3) + pf 40 head } :: more))

/-- R383, R387, R394, R396 to R399: ROLE_SET takes the role it names, at the next epoch, or, for a STANDBY, at the next after the later of the two units' epochs, and
a qualified standby has the active surrender to MAINT; TWIN_SWITCH and TWIN_RESYNC need an active with a qualified standby, no case or
resync and the twin link; UNIT_RESET is due 1 ms later, and an active whose strings run surrenders first. -/
def Obligations.RoleCommands : Prop :=
  ∀ (s : State) (mb : Fin 8) (q : Request),
    (s.Runs mb 0x0D10 q → Lands (exec (.roleSet mb) s) fun e =>
      (roleOf (uAt q.payload 0 1) = none → Only [.hatch] s e ∧ s.Replies e mb q stBadParam [5, 0, 0xFF, 0xFF]) ∧
      ∀ r, roleOf (uAt q.payload 0 1) = some r →
        (∀ x, s.roleRefusal r (bit (uAt q.payload 1 1) 0) = some x → Only [.hatch] s e ∧
          s.Replies e mb q stRefused (leBytes 1 x ++ [0, 0xFF, 0xFF])) ∧
        (s.roleRefusal r (bit (uAt q.payload 1 1) 0) = none →
          Only [.freeCount, .todo, .hatch, .notif, .par, .faults, .time, .twin, .pantry, .lanes, .roll, .links, .mod, .prot, .dt, .ring] s e ∧
          e.twin.role = r ∧ (r ≠ s.twin.role → e.twin.roleAt = s.shortNow) ∧ e.twin.epoch =
            (if r = s.twin.role then s.twin.epoch
             else if r = .standby ∧ 0 < sdiff 16 s.twin.peerEpoch s.twin.epoch then (s.twin.peerEpoch + 1) % 2 ^ 16
             else (s.twin.epoch + 1) % 2 ^ 16) ∧
          (r = .referee → s.twin.role ≠ .referee → e.roll = { s.roll with working := {}, shadow := {}, pend := none, gen := 0 }) ∧
          (e.box mb).state = .done ∧ (e.box mb).taken = none ∧
          (e.box mb).reply = replyBytes stOk q.seq e.twin.epoch (leBytes 2 e.twin.epoch ++ leBytes 1 (uAt q.payload 0 1) ++ [0]))) ∧
    (s.Runs mb 0x0D11 q → Lands (exec (.twinSwitch mb) s) fun e =>
      let refused := fun x : Byte => Only [.hatch] s e ∧ s.Replies e mb q stRefused [x, 0, 0xFF, 0xFF]
      if s.twin.role ≠ .active then Only [.hatch] s e ∧ s.Turned e mb q stNotInRole [0x8B, 0, 0xFF, 0xFF]
      else if s.qualifiedStandby = false then refused 0x86
      else if s.twin.caseOpen = true ∨ s.twin.resync = true then refused 0x87
      else if s.twinLinkUp = false then refused 0x80
      else Only [.hatch, .twin, .links] s e ∧ s.Forwards e mb [] ∧ e.twin.role = .active ∧ (e.box mb).taken = some q) ∧
    (s.Runs mb 0x0D13 q → Lands (exec (.twinResync mb) s) fun e =>
      let refused := fun x : Byte => Only [.hatch] s e ∧ s.Replies e mb q stRefused [x, 0, 0xFF, 0xFF]
      if s.twin.role ≠ .active then Only [.hatch] s e ∧ s.Turned e mb q stNotInRole [0x8B, 0, 0xFF, 0xFF]
      else if s.qualifiedStandby = false then refused 0x86
      else if s.twin.caseOpen = true ∨ s.twin.resync = true then refused 0x87
      else if s.twinLinkUp = false then refused 0x80
      else Only [.freeCount, .hatch, .twin] s e ∧ e.twin.resync = true ∧ e.twin.resyncFrom = s.le.j ∧ e.twin.role = .active ∧
        ∃ n, s.Replies e mb q stOk (leBytes 4 n)) ∧
    (s.Runs mb 0x0D12 q → Lands (exec (.unitReset mb) s) fun e =>
      let target := uAt q.payload 0 1
      let busy := s.twin.role = .active ∧ (List.range 16).all s.strStopped = false
      let refused := fun x : Byte => Only [.hatch] s e ∧ s.Replies e mb q stRefused [x, 0, 0xFF, 0xFF]
      if 1 < target then Only [.hatch] s e ∧ s.Replies e mb q stBadParam [5, 0, 0xFF, 0xFF]
      else if target = 0 ∧ busy then
        if bit (uAt q.payload 1 1) 0 = false then refused 0x88
        else Only [.todo, .hatch, .twin, .lanes, .links] s e ∧ e.twin.role = .maint ∧ e.twin.epoch = (s.twin.epoch + 1) % 2 ^ 16 ∧
          e.twin.resetDue = some (s.mono + 8000000, false) ∧ (e.box mb).reply = replyBytes stOk q.seq e.twin.epoch [] ∧
          (e.box mb).state = .done ∧ (∀ l < 128, (e.lane l).st = if (s.lane l).st = .off then .off else .halted)
      else if target = 1 ∧ s.twin.peerRole = some 1 then refused 0x89
      else if target = 1 ∧ s.twinLinkUp = false then refused 0x80
      else Only [.hatch, .twin] s e ∧ e.twin = { s.twin with resetDue := some (s.mono + 8000000, target == 1) } ∧ s.Replies e mb q stOk [])

/-- R377, R380, R386, R389, R391, R405, R406, R408 to R410, R413, R416: what a node takes from a ring block that is addressed to it and whose epoch is
not old: a census of another node marks it present, its own nonce alone is no clash, a later summary replaces the one held, a write lands in the
group window by its WSEQ, a health report is kept, a referee takes cases, a verdict of node 16 ends the case or shows the other unit ACTIVE. A
block of an old epoch changes none of this.
And R392, R406, R410: the census goes out every 100 µs in both directions; a node without a census for 300 µs is present no longer, and the loss of
another node is reported. -/
def Obligations.RingBlocks : Prop :=
  (
  ∀ (side : RingSide) (h : RxHeader) (p : BitVec 96) (s : State),
      let base : List Part := [.par, .faults, .lanes, .links]
      let told : List Part := [.todo, .hatch, .notif, .pantry, .ring] ++ base
      let src := pbits p 95 91
      let epoch := pbits p 79 64
      let kept := fun (e : State) => e.twin.role = s.twin.role ∧ e.twin.epoch = s.twin.epoch
      ((s.lane (ringLane side)).st.receives = true → s.ringStale p = true →
        (∀ c ∈ [Instr.ringSummaryRx side h p, .ringWriteRx side h p .idle, .ringHealthRx side h p], Lands (exec c s) (Only base s)) ∧
        (src ≠ s.node → Lands (exec (.ringCensusRx side h p) s) (Only base s)) ∧
        (pbits p 63 60 ≠ 4 → Lands (exec (.ringRefRx side h p) s) (Only base s))) ∧
      (s.RingTakes side p → Lands (exec (.ringCensusRx side h p) s) fun e =>
        let split := s.twinEn = true ∧ src = 2 * s.headId + (1 - s.unit) ∧ pbits p 63 60 = 1 ∧ 0 < sdiff 16 epoch s.twin.epoch ∧
          s.twin.role = .active ∧ ¬(s.twin.handoverUntil.isSome = true ∧ epoch = s.nextEpoch)
        let x := e.rnode src
        x.present = true ∧ x.role = pbits p 63 60 ∧ x.qualified = decide (pbits p 59 59 = 1) ∧ x.aligned = decide (pbits p 58 58 = 1) ∧
        x.head = pbits p 57 55 ∧ x.gen = pbits p 47 32 ∧ x.refServe = pbits p 31 24 ∧ x.nonce = pbits p 15 0 ∧ x.at_ = s.mono ∧
        (∀ n, n ≠ src → e.rnode n = s.rnode n) ∧
        (split → Only (.twin :: told) s e ∧ e.twin.role = .maint ∧ e.twin.epoch = epoch ∧ s.Fired e 0x48) ∧
        (¬split → Only (.ring :: base) s e)) ∧
      ((s.lane (ringLane side)).st.receives = true → src = s.node → Lands (exec (.ringCensusRx side h p) s) fun e =>
        (e.rnode src).present = true ∧ (e.rnode src).at_ = s.mono ∧ (∀ n, n ≠ src → e.rnode n = s.rnode n) ∧
        if pbits p 15 0 = s.ring.nonce then Only (.ring :: base) s e
        else Only told s e ∧ (s.faults.present.contains { src := 0x51, inst := src, sub := 0 } = false → s.Fired e 0x51)) ∧
      (s.RingTakes side p → Lands (exec (.ringSummaryRx side h p) s) fun e => Only (.ring :: base) s e ∧
        (∀ g, g ≠ pbits p 63 57 → e.ring.summary.get? g = s.ring.summary.get? g) ∧
        e.ring.summary.get? (pbits p 63 57) = if s.summaryNew (pbits p 63 57) (pbits p 52 48) = true then
          some ⟨pbits p 56 54, decide (pbits p 53 53 = 1), pbits p 52 48, signed 16 (pbits p 47 32), signed 16 (pbits p 31 16),
            signed 16 (pbits p 15 0), s.now⟩
        else s.ring.summary.get? (pbits p 63 57)) ∧
      (∀ mgmt, s.RingTakes side p → Lands (exec (.ringWriteRx side h p mgmt) s) fun e =>
        let slice := pbits p 63 61
        let q := pbits p 44 32
        let last := (s.holdEpoch src epoch).ring.applied.get? slice
        let d := sdiff 13 q (last.getD 0)
        Only told s e ∧
        (last = none ∨ 0 < d → e.ring.applied.get? slice = some q) ∧
        (∀ r, last = some r → 1 < d → s.Fired e 0x54) ∧
        (∀ r, last = some r → d ≤ 0 → mgmt = .idle → e.pantry = s.pantry ∧ e.ring.applied.get? slice = some r) ∧
        (s.pantry.mem.wf = true → s.notif.enable = false ∨ (mgmt = .idle ∧ (last = none ∨ d = 1)) → last = none ∨ 0 < d →
          ∀ a, e.pantry.mem.read a =
            match s.gwBank with
            | some b =>
              let off := 0x20000 * b + 0x4000 * slice + 4 * pbits p 60 49
              if s.bankOff b = false ∧ off ≤ a ∧ a < off + 4 ∧ (pbits p 48 45).testBit (a - off) = true then
                BitVec.ofNat 8 (pbits p 31 0 / 2 ^ (8 * (a - off)))
              else s.pantry.mem.read a
            | none => s.pantry.mem.read a)) ∧
      (s.RingTakes side p → Lands (exec (.ringHealthRx side h p) s) fun e => Only (.ring :: base) s e ∧
        (∀ n, n ≠ src → e.rnode n = s.rnode n) ∧ e.rnode src = if (s.rnode src).healthSeq = some (pbits p 13 0) then
          { s.rnode src with heardAt := some s.mono }
        else { s.rnode src with heardAt := some s.mono, failed := some (pbits p 63 48), failedAt := s.mono, healthSeq := some (pbits p 13 0) }) ∧
      (let kind := pbits p 63 60
        let num := pbits p 59 48
        let head := pbits p 42 40
        let ours := (s.lane (ringLane side)).st.receives = true ∧ src = 16 ∧ head = s.headId ∧ pbits p 47 46 ≠ 0
        let split := s.twin.role = .active ∧ 0 < sdiff 16 epoch s.twin.epoch
        (kind ≠ 4 → s.RingTakes side p → s.twin.role ≠ .referee → Lands (exec (.ringRefRx side h p) s) (Only (.ring :: base) s)) ∧
        (kind ≠ 4 → s.RingTakes side p → s.twin.role = .referee → Lands (exec (.ringRefRx side h p) s) fun e =>
          Only (.twin :: .ring :: base) s e ∧ kept e ∧
          (kind ≠ 3 → (src, kind, num, 0) ∉ s.ring.refSeen →
            (src, kind, num, 0) ∈ e.ring.refSeen ∧
            (kind = 1 → bit (s.p0 0x0D03) head = true → s.twin.refCases = [] → (s.rnode src).failed = none →
              (s.rnode (2 * head + (1 - src % 2))).failed = none →
              e.twin.refCases = [{ head, num, nodes := (2 * head + (1 - src % 2), src), at_ := s.mono }]) ∧
            (kind = 1 → bit (s.p0 0x0D03) head = false → e.twin.refCases = s.twin.refCases) ∧
            (kind = 5 → ∀ c ∈ e.twin.refCases, c.head ≠ head ∨ c.num ≠ num)) ∧
          (kind = 3 → (src, kind, num, pbits p 45 32) ∉ s.ring.refSeen → e.twin.refCases = s.twin.refCases.map fun c =>
            if c.num = num ∧ (c.nodes.1 = src ∨ c.nodes.2 = src) then
              { c with evidence := c.evidence.set (pbits p 45 32) (pbits p 31 0) } else c)) ∧
        (kind = 4 → ours → split → ¬(s.twin.handoverUntil.isSome = true ∧ epoch = s.nextEpoch) → Lands (exec (.ringRefRx side h p) s) fun e =>
          Only (.twin :: told) s e ∧ e.twin.role = .maint ∧ e.twin.epoch = epoch ∧ s.Fired e 0x48) ∧
        (kind = 4 → ours → ¬split → s.twin.caseOpen = true → s.refMode = 1 → num = s.twin.case.j % 4096 → 0 ≤ sdiff 16 epoch s.twin.epoch →
          Lands (exec (.ringRefRx side h p) s) fun e =>
            Only ([.freeCount, .time, .twin, .mod, .prot, .dt] ++ told) s e ∧ e.twin.caseOpen = false ∧ e.twin.case.verdict = pbits p 47 46 ∧
            e.twin.case.rule = pbits p 45 43 ∧
            e.twin.role = (if s.twin.role = .active then (if pbits p 47 46 = 2 then .maint else .active)
              else if s.twin.role = .standby then (if pbits p 47 46 = 2 then .active else .maint) else s.twin.role)) ∧
        (kind = 4 → (s.lane (ringLane side)).st.receives = true →
          ¬ours ∨ (¬split ∧ (s.twin.caseOpen = false ∨ s.refMode ≠ 1 ∨ num ≠ s.twin.case.j % 4096 ∨ sdiff 16 epoch s.twin.epoch < 0)) →
          Lands (exec (.ringRefRx side h p) s) (Only base s)))) ∧
  (
  ∀ s : State,
      (s.ringEn = true → s.ring.censusOwed = true ∨ s.ring.censusAt + 720000 ≤ s.mono → Lands (exec .censusPeriod s) fun e =>
        Only [.links, .ring] s e ∧ e.ring = { s.ring with censusAt := s.mono, censusOwed := false } ∧
        ∀ l, l = 128 ∨ l = 129 → (e.lnk l).queue = if (s.lane l).st = .linked then (s.lnk l).queue ++
          [{ type := 0x41, payload := s.node * 2 ^ 91 + 31 * 2 ^ 86 + s.twin.epoch * 2 ^ 64 + (s.twin.role.code * 2 ^ 60 + b2n s.twin.qualified * 2 ^ 59 +
              b2n s.sys.syncAligned * 2 ^ 58 + s.headId * 2 ^ 55 + s.time.gen * 2 ^ 32 + s.p0 0x0D03 * 2 ^ 24 + s.ring.nonce) }]
          else (s.lnk l).queue) ∧
      (∀ n : Fin 17, (s.rnode n).present = true → (s.rnode n).at_ + 2400000 ≤ s.mono → Lands (exec (.censusNodeTimeout n) s) fun e =>
        Only [.todo, .hatch, .notif, .par, .faults, .pantry, .ring] s e ∧ e.rnode n = { s.rnode n with present := false } ∧
        (∀ m, m ≠ n.val → e.rnode m = s.rnode m) ∧
        (n.val ≠ s.node → s.faults.present.contains { src := 0x50, inst := n, sub := 0 } = false → s.Fired e 0x50) ∧
        (n.val = s.node → n.val ≠ 16 ∨ s.refMode ≠ 1 ∨ s.inPair = false → Only [.faults, .ring] s e ∧ e.faults.firings = s.faults.firings) ∧
        (n.val = 16 → s.refMode = 1 → s.inPair = true → s.faults.present.contains { src := 0x4A, inst := noInst, sub := 0 } = false →
          s.Fired e 0x4A)) ∧
      (∀ n : Fin 17, (s.rnode n).present = false ∨ s.mono < (s.rnode n).at_ + 2400000 → exec (.censusNodeTimeout n) s = .next s))

/-- R48, R51, R415, R424, R426, R429, R433 to R435, R440: a host read of a word of banks 0 to 13 that are on, met by no write, returns its four bytes,
rotated through the alias, and changes none; a bank that is Off reads 0; a host write changes the bytes it enables and no other, where R440
leaves the value undefined to an open value; into the group window it lands in the active's own slice alone, and goes to the ring. An access to the
strongbox is denied, flagged and changes no byte. An access that meets another port's ends too. -/
def Obligations.PantryAccess : Prop :=
  ∀ (p : HostPort) (addr : BitVec 24) (s : State),
    let all : List Part := [.freeCount, .todo, .hatch, .notif, .par, .faults, .pantry, .links, .ring]
    (s.portUp p = false → ∀ v be m r, exec (.pantryHostRead addr m r p) s = .next s ∧ exec (.pantryHostWrite addr v be m r p) s = .next s) ∧
    (s.portUp p = true → hostTarget p false true addr.toNat = .nowhere → ∀ m r, Next (exec (.pantryHostRead addr m r p) s) fun t =>
      Only [.hatch, .pantry] s t ∧ t.hatch.host.lastRead = 0 ∧ t.pantry.mem = s.pantry.mem) ∧
    (s.portUp p = true → hostTarget p true true addr.toNat = .nowhere → ∀ v be m r, Next (exec (.pantryHostWrite addr v be m r p) s) fun t =>
      Only [.hatch, .pantry] s t ∧ t.pantry.mem = s.pantry.mem ∧ t.hatch.boxes = s.hatch.boxes) ∧
    (hostTarget p false true addr.toNat = .inert → ∀ m r, exec (.pantryHostRead addr m r p) s = .next s) ∧
    (hostTarget p true true addr.toNat = .inert → ∀ v be m r, exec (.pantryHostWrite addr v be m r p) s = .next s) ∧
    (∀ off m r, s.portUp p = true → hostTarget p false true addr.toNat = .bar2 off → Lands (exec (.pantryHostRead addr m r p) s) fun e =>
      let words := (s.hostWords off).1
      if s.hostDenied off = true then
        Only [.hatch, .par, .pantry] s e ∧ e.pantry.mem = s.pantry.mem ∧ e.hatch.host.lastRead = 0 ∧ e.hatch.hostErr.testBit 2 = true
      else Only all s e ∧ (m = .idle → r = none → (s.hostWords off).2 ≤ 3 →
        ((∀ w ∈ words, s.bankOff (w / 0x20000) = false) → Only [.hatch, .pantry] s e ∧ e.pantry.mem = s.pantry.mem ∧
          e.hatch.boxes = s.hatch.boxes ∧
          e.hatch.host.lastRead = leNat (s.pantry.mem.readN (off % 0x200000 / 4 * 4 + (s.hostWords off).2) 4)) ∧
        ((∀ w ∈ words, s.bankOff (w / 0x20000) = true) → Only [.hatch, .pantry, .par] s e ∧ e.pantry.mem = s.pantry.mem ∧
          e.hatch.host.lastRead = 0))) ∧
    (∀ off v be m r, s.portUp p = true → hostTarget p true true addr.toNat = .bar2 off → Lands (exec (.pantryHostWrite addr v be m r p) s) fun e =>
      let words := (s.hostWords off).1
      let lo := off % 0x200000 / 4 * 4 + (s.hostWords off).2
      let on := fun (a : Nat) => lo ≤ a ∧ a < lo + 4 ∧ (p = .pcie → be.getLsbD (a - lo) = true)
      let kept := ∀ a, ¬on a → e.pantry.mem.read a = s.pantry.mem.read a
      let lands := ∀ a, on a → e.pantry.mem.read a = BitVec.ofNat 8 (v.toNat / 2 ^ (8 * (a - lo)))
      if s.hostDenied off = true then
        Only [.hatch, .par, .pantry] s e ∧ e.pantry.mem = s.pantry.mem ∧ e.hatch.hostErr.testBit 2 = true
      else Only all s e ∧ (m = .idle → r = none → (s.hostWords off).2 ≤ 3 → s.pantry.mem.wf = true →
        ((∀ w ∈ words, s.inGw w = false ∧ s.bankOff (w / 0x20000) = false) → e.hatch.boxes = s.hatch.boxes ∧ kept ∧
          (words.any s.openWord = false → Only [.hatch, .pantry] s e ∧ lands)) ∧
        ((∀ w ∈ words, s.inGw w = false ∧ s.bankOff (w / 0x20000) = true) → e.pantry.mem = s.pantry.mem) ∧
        (∀ w, words = [w] → s.inGw w = true →
          (s.gwOwn w = false → e.pantry.mem = s.pantry.mem ∧ e.ring = s.ring) ∧
          (s.gwOwn w = true → s.bankOff (w / 0x20000) = false → s.gwWaiting 128 < 512 → s.gwWaiting 129 < 512 → kept ∧
            (s.openWord w = false → lands) ∧ e.ring.wseq = (s.ring.wseq + 1) % 8192 ∧
            e.ring.applied.get? (gwSlice w) = some s.ring.wseq ∧
            ((s.lane 128).st = .linked → (e.lnk 128).queue.length = (s.lnk 128).queue.length + 1)))))

/-- R430, R431, R436, R437, R618: a woken bank returns to Retention 10 µs after its latest access; a bank set on again is readable once its clearing
has ended; a tamper event empties the strongbox at once, and the wipe ends 81.92 µs later and is counted, and after a change of the life cycle the
link keys are loaded again. Before these times nothing changes. -/
def Obligations.BanksAndWipes : Prop :=
  ∀ s : State,
    (∀ (b : Fin 16) (t : Nat), s.pantry.awake.get? b = some t →
      (t + 80000 ≤ s.mono → Next (exec (.bankIdleTimeout b) s) fun u =>
        Only [.pantry] s u ∧ u.pantry = { s.pantry with awake := s.pantry.awake.erase b } ∧ u.pantry.awake.get? b = none) ∧
      (s.mono < t + 80000 → exec (.bankIdleTimeout b) s = .next s)) ∧
    (∀ (b : Fin 16) (t : Nat), s.pantry.clearing.get? b = some t →
      (t ≤ s.mono → Next (exec (.bankClearDone b) s) fun u => Only [.pantry] s u ∧
        u.pantry = { s.pantry with clearing := s.pantry.clearing.erase b } ∧ u.bankOff b = decide (u.bankPower b = 2)) ∧
      (s.mono < t → exec (.bankClearDone b) s = .next s)) ∧
    (Next (exec .tamperCoreEvent s) fun u => Only [.bat, .pantry] s u ∧ u.pantry.mem = s.pantry.mem ∧ u.pantry.linkKeys = [] ∧
      u.pantry.wiping = some (2, s.mono) ∧ u.pantry.wipeCause = 2 ∧ u.bat = { s.bat with signals := s.bat.signals - 1 }) ∧
    (∀ c t, s.pantry.wiping = some (c, t) → s.sys.stage ≠ .inReset → t + 655360 ≤ s.mono → Lands (exec .strongboxWipeDone s) fun e =>
      Only [.hatch, .notif, .par, .pantry] s e ∧ e.pantry.wiping = none ∧ e.pantry.wipes = min 65535 (s.pantry.wipes + 1) ∧
      e.pantry.wipeDoneAt = s.shortNow ∧
      e.pantry.linkKeys = (if c = 3 ∧ s.fw.lc ≠ .returned then s.fw.linkKeys else s.pantry.linkKeys) ∧
      (s.notif.enable = false → e.pantry.mem = s.pantry.mem))

/-- R441 to R448, R450, R453, R459, R466: a round starts once per boundary and starts both sequences; a conversion that ends gives its input, or each of
its two, a value, PAIRED the mean or a mismatch, and answers the mailbox that asked; a pair without work sleeps and wakes; a fan's speed is the
period of its latest pulse. -/
def Obligations.Housekeeping : Prop :=
  ∀ s : State,
    let all : List Part := [.freeCount, .todo, .hatch, .notif, .par, .faults, .twin, .pantry, .links, .mod, .prot, .dt, .hk]
    (s.sys.stage ≠ .inReset → ranHas (s.now / 80000000) s.hk.ran = false → Lands (exec .hkRound s) fun e => Only all s e ∧
      e.hk.rounds = (s.hk.rounds + 1) % 2 ^ 32 ∧ e.hk.roundAt = s.mono ∧
      ((∀ x ∈ s.hk.ran, x.1 ≤ x.2) → ranHas (s.now / 80000000) e.hk.ran = true) ∧
      ((s.capture 0x1003 0).pu 0x1003 0 0 1 ≠ 0 → Only [.par, .hk] s e ∧ e.hk.open_ = true ∧ (e.hkPair 0).next = some 0 ∧
        e.hk.value = s.hk.value ∧ e.hk.zone = s.hk.zone ∧ e.hk.recs = s.hk.recs)) ∧
    (s.sys.stage = .inReset ∨ ranHas (s.now / 80000000) s.hk.ran = true → exec .hkRound s = .next s) ∧
    (∀ (pair : Fin 2) (codeE codeO : BitVec 12),
      (∀ c, (s.hkPair pair).conv = some c → (s.hkPair pair).convAt + 1980 ≤ s.mono → Lands (exec (.adcConversionDone pair codeE codeO) s) fun e =>
        let holds := fun (i code : Nat) => s.hkKind i ≠ 0 → (e.hkVal i).value = s.hkConvert i code ∧ (e.hkVal i).code = code ∧
          (e.hkVal i).valid = true ∧ (e.hkVal i).round = s.hk.rounds % 2 ^ 16 ∧
          (e.hkVal i).below = decide (s.hkConvert i code < s.ps 0x1002 i 6 2) ∧
          (e.hkVal i).above = decide (s.ps 0x1002 i 8 2 < s.hkConvert i code)
        let same := fun (i : Nat) => (e.hkVal i).value = (s.hkVal i).value ∧ (e.hkVal i).code = (s.hkVal i).code
        let both := fun (i : Nat) => s.hkKind i ≠ 0 →
          if s.p0 0x1006 < ((codeE.toNat : Int) - codeO.toNat).natAbs then (e.hkVal i).bad = true ∧ same i ∧ s.Fired e 0x60
          else holds i ((codeE.toNat + codeO.toNat) / 2)
        Only all s e ∧
        (∀ u, c = .urgent u → (∀ j, j ≠ u.input → same j) ∧ (if u.paired = true then both u.input else holds u.input codeE.toNat) ∧
          ∀ mb q, u.for_ = .mailbox mb → (s.box mb).taken = some q →
            let x := e.hkVal u.input
            (e.box mb).state = .done ∧ (e.box mb).taken = none ∧ (e.box mb).reply = replyBytes stOk q.seq s.twin.epoch
              (leBytes 2 codeE.toNat ++ leBytes 2 (if u.paired then codeO.toNat else 0xFFFF) ++ leBytesI 2 x.value ++
                leBytes 1 (b2n x.valid + 2 * b2n x.bad + 4 * b2n x.below + 8 * b2n x.above) ++ [0] ++ leBytes 4 (s.hkPair pair).convShort)) ∧
        (∀ i, c = .seq i →
          let x := s.hkEntry pair i
          (∀ j, j ≠ x.2.1 → j ≠ x.2.2 → same j) ∧
          if x.1 = true then both x.2.1 else holds x.2.2 codeO.toNat ∧ (x.2.1 ≠ x.2.2 → holds x.2.1 codeE.toNat))) ∧
      ((s.hkPair pair).conv = none ∨ s.mono < (s.hkPair pair).convAt + 1980 → exec (.adcConversionDone pair codeE codeO) s = .next s)) ∧
    (∀ pair : Fin 2, (s.hkPair pair).awake = true → (s.hkPair pair).conv = none → (s.hkPair pair).next = none →
      (s.hkPair pair).urgent = [] → (s.hkPair pair).idleFrom + 16000 < s.mono → Next (exec (.hkPairSleep pair) s) fun t =>
        Only [.hk] s t ∧ t.hkPair pair = { s.hkPair pair with awake := false } ∧ ∀ k, k ≠ pair.val → t.hkPair k = s.hkPair k) ∧
    (∀ (pair : Fin 2) (t : Nat), (s.hkPair pair).wakeFrom = some t → t + 3980 ≤ s.mono → Lands (exec (.hkWakeDone pair) s) fun e =>
      Only [.hk] s e ∧ (∀ k, k ≠ pair.val → e.hkPair k = s.hkPair k) ∧
      let p : HkPair := { s.hkPair pair with awake := true, wakeFrom := none, idleFrom := s.mono }
      let starts := fun (p : HkPair) (c : HkConv) => e.hkPair pair = { p with conv := some c, convAt := s.mono, convShort := s.shortNow }
      (p.conv.isSome = true ∨ (p.urgent = [] ∧ p.next = none) → e.hkPair pair = p) ∧
      (p.conv = none →
        (∀ u r, p.urgent = u :: r → p.next = none ∨ p.interrupts < 4 → starts { p with urgent := r } (.urgent u)) ∧
        (∀ i, p.next = some i → p.urgent = [] ∨ 4 ≤ p.interrupts → starts p (.seq i)))) ∧
    (∀ fan : Fin 4,
      let x := s.hk.fan.get {} fan
      let others := fun (u : State) => ∀ f, f ≠ fan.val → u.hk.fan.get {} f = s.hk.fan.get {} f
      (Next (exec (.fanTachEdge fan) s) fun u => Only [.hk] s u ∧ others u ∧ (u.hk.fan.get {} fan).at_ = some s.mono ∧
        (u.hk.fan.get {} fan).low = x.low ∧ (x.at_ = none → (u.hk.fan.get {} fan).rpm = x.rpm) ∧
        ∀ t, x.at_ = some t → (u.hk.fan.get {} fan).rpm = min 65535 (480000000000 / max 1 ((s.mono - t) * max 1 (s.pu 0x1007 fan 0 1)))) ∧
      (∀ t, x.at_ = some t → t + 8000000000 ≤ s.mono → Next (exec (.fanPulseTimeout fan) s) fun u => Only [.hk] s u ∧ others u ∧
        u.hk.fan.get {} fan = { x with at_ := none, rpm := 0 }))

/-- R448, R461, R463, R466, R467: HK_CONVERT of an input in use queues its conversion and its reply waits, and a full queue is BUSY; THERM_READ answers
the oldest record, or a zone's, and marks it read; THERM_CLEAR of a record that has been read and whose zone has cooled removes it, and else
keeps it. -/
def Obligations.ThermalCommands : Prop :=
  ∀ (s : State) (mb : Fin 8) (q : Request),
    (s.Runs mb 0x1010 q → Lands (exec (.hkConvert mb) s) fun e =>
      let k := uAt q.payload 0 1
      let i := uAt q.payload 1 1
      let u : Urgent := { input := i, paired := bit (uAt q.payload 2 1) 0, for_ := .mailbox mb }
      if 1 < k ∨ 31 < i then Only [.hatch] s e ∧ s.Replies e mb q stBadParam [5, 0, 0xFF, 0xFF]
      else if s.hkKind i = 0 then Only [.hatch] s e ∧ s.Replies e mb q stRefused [0xA0, 0, 0xFF, 0xFF]
      else if 4 ≤ (s.hkPair k).urgent.length then Only [.hatch, .par] s e ∧ s.Replies e mb q stBusy [1, 0, 0, 0]
      else Only [.hatch, .par, .hk] s e ∧ (e.box mb).waiting = .hkConvert ∧ (e.box mb).state = .active ∧ (e.box mb).taken = some q ∧
        (∀ j, j ≠ k → e.hkPair j = s.hkPair j) ∧ (u ∈ (e.hkPair k).urgent ∨ (e.hkPair k).conv = some (.urgent u)) ∧
        ((s.hkPair k).urgent = [] → (s.hkPair k).conv = none → (s.hkPair k).awake = false → (s.hkPair k).wakeFrom = none →
          e.hkPair k = { s.hkPair k with urgent := [u], wakeFrom := some s.mono }) ∧
        ((s.hkPair k).urgent = [] → (s.hkPair k).conv = none → (s.hkPair k).awake = true → (s.hkPair k).next = none →
          e.hkPair k = { s.hkPair k with conv := some (.urgent u), convAt := s.mono, convShort := s.shortNow })) ∧
    (s.Runs mb 0x1110 q → Lands (exec (.thermRead mb) s) fun e =>
      let z := uAt q.payload 0 1
      if 15 < z ∧ z ≠ 0xFF then Only [.hatch] s e ∧ s.Replies e mb q stBadParam [5, 0, 0xFF, 0xFF]
      else Only [.hatch, .hk] s e ∧
        match s.hk.recs.find? fun r => z == 0xFF || r.zone == z with
        | none => e.hk = s.hk ∧ s.Replies e mb q stOk (List.replicate 32 0)
        | some r => e.hk = { s.hk with recs := s.hk.recs.map fun x => if x = r then { r with read := true } else x } ∧
            s.Replies e mb q stOk (s.thermBytes { r with read := true })) ∧
    (s.Runs mb 0x1111 q → s.Writes mb 0x11 → Lands (exec (.thermClear mb) s) fun e =>
      let refused := fun st (x : Byte) => Only [.hatch] s e ∧ s.Replies e mb q st [x, 0, 0xFF, 0xFF]
      match s.hk.recs.find? fun r => r.id == uAt q.payload 0 4 with
      | none => refused stBadParam 0xA6
      | some r =>
        if r.read = false then refused stRefused 0xA7
        else if ∃ t, (s.zone r.zone).t = some t ∧ t < s.ps 0x1101 r.zone 12 2 then
          OnlyWrite [.faults, .hk] s e ∧ e.hk = { s.hk with recs := s.hk.recs.filter fun x => x ≠ r } ∧
          e.faults.firings = s.faults.firings ∧
          s.Accepts e mb q (leBytes 1 (s.hk.recs.filter fun x => x ≠ r).length ++ [0, 0, 0])
        else refused stRefused 0xA8)

/-- R471, R473 to R476, R480, R483, R486, R487, R496: the switches of a bridge under the interlock. A gate-supply input is taken as it changes; low for
its filter time it locks the switch out and turns it off, and high for that time it ends the lockout without turning anything on; an OFF
input that rises turns on the partner that waits for it, 2 steps later, or gives the wait up where its gate supply has gone, and is otherwise
only kept; a wait that runs out is abandoned and reported, and so is an OFF input that stays low for 2 µs; an edge of the schedule turns its
switch off, or on, at once or when the partner's turn-off is confirmed, or not at all; a refresh edge whose supply is low forces its phase
off; the node's first change in the transition's direction is kept with its latency taken off, and a transition whose turn-on is known is then
judged: by its margin, or as a bad one. A row that is not due changes nothing, and no other switch or phase changes. -/
def Obligations.AuxSwitches : Prop :=
  ∀ (s : State) (b : Fin 2) (k : Fin 6),
    let all : List Part := [.todo, .hatch, .notif, .par, .faults, .pantry, .aux]
    let x := s.sw b k
    let y := s.sw b (swOther k)
    let otherSw := fun (e : State) (i : Nat) => ∀ c j, c ≠ b.val ∨ j ≠ i → e.sw c j = s.sw c j
    let short := fun (e : State) (i : Nat) => (s.br b).short = true → i % 2 = 1 → (e.aph b (i / 2)).incomplete = true
    let judged := fun (e : State) (p : Nat) (j : AuxJudge) =>
      let v := ((s.aph b p).dtNext).getD (s.phaseDt b p)
      let good := fun (m : Int) =>
        (e.br b).lastM = satI 16 m ∧ (e.aph b p).bad = 0 ∧ (e.aph b p).good = (s.aph b p).good + 1 ∧
        ((s.aph b p).fallback = true → 64 ≤ (s.aph b p).good + 1 → (e.aph b p).fallback = false) ∧
        (e.aph b p).dtNext =
          if (s.aph b p).fallback = true then (s.aph b p).dtNext
          else if 0 ≤ m ∧ (s.pu 0x1206 b 8 2 : Int) + s.pu 0x1206 b 10 2 < m then some (max (s.pu 0x1206 b 4 2) (v - s.pu 0x1206 b 12 1))
          else if (0 ≤ m ∧ m < (s.pu 0x1206 b 8 2 : Int) - s.pu 0x1206 b 10 2) ∨ (m < 0 ∧ -(s.pu 0x1206 b 10 2 : Int) < m) then
            some (min (s.pu 0x1206 b 6 2) (v + s.pu 0x1206 b 13 1))
          else (s.aph b p).dtNext
      let bad :=
        if s.pu 0x1206 b 14 1 ≤ (s.aph b p).bad + 1 ∧ (s.aph b p).fallback = false then
          (e.aph b p).fallback = true ∧ (e.aph b p).bad = 0 ∧ (e.aph b p).dtNext = some (s.pu 0x1206 b 16 2)
        else (e.aph b p).fallback = (s.aph b p).fallback ∧ (e.aph b p).bad = (s.aph b p).bad + 1 ∧ (e.aph b p).dtNext = (s.aph b p).dtNext
      (e.aph b p).judge = none ∧
      match j.lost, j.tx, j.tOn with
      | false, some tx, some tOn => if tx < (j.tOff : Int) - 40 then bad else good (((tOn : Int) - tx) / 20)
      | _, _, _ => bad
    let ready := fun (j : AuxJudge) => (j.tOff + 16000 ≤ s.mono ∨ j.tx.isSome = true) ∧ (j.tOn.isSome = true ∨ j.lost = true)
    (∀ level, Next (exec (.auxSgEdge b k level) s) fun t => Only [.aux] s t ∧ otherSw t k ∧
      t.sw b k = if x.sg = level then x else { x with sg := level, sgAt := s.mono }) ∧
    (Lands (exec (.auxSgFilterExpire b k) s) fun e =>
      if x.sgAt + 20 * s.pu 0x1208 b 2 2 ≤ s.mono ∧ x.sg = false ∧ x.locked = false then
        Only all s e ∧ otherSw e k ∧ short e k ∧ (e.sw b k).locked = true ∧ (e.sw b k).on = false ∧ (e.sw b k).cmd = false ∧
        (e.sw b k).pend = none ∧ ({ src := 0x6B, inst := b, sub := k } ∉ s.faults.present → s.Fired e 0x6B)
      else if x.sgAt + 20 * s.pu 0x1208 b 2 2 ≤ s.mono ∧ x.sg = true ∧ x.locked = true then
        Only [.faults, .aux] s e ∧ otherSw e k ∧ e.sw b k = { x with locked := false } ∧ e.faults.firings = s.faults.firings
      else True) ∧
    (s.mono < x.sgAt + 20 * s.pu 0x1208 b 2 2 ∨ x.sg ≠ x.locked → exec (.auxSgFilterExpire b k) s = .next s) ∧
    (Lands (exec (.auxOffRise b k) s) fun e =>
      e.sw b k = { x with off := true, offSeen := x.offSeen || !x.on } ∧
      (∀ c j, c ≠ b.val ∨ (j ≠ k.val ∧ j ≠ swOther k) → e.sw c j = s.sw c j) ∧
      if y.pend.isSome = true ∧ x.on = false then
        if y.sg = true ∧ y.locked = false then
          Only all s e ∧ e.sw b (swOther k) = { y with cmd := true, on := true, off := false, pend := none } ∧
          (s.counts 0x120D b ≠ [] → (e.counts 0x120D b).getD 0 0 = min 65535 ((s.counts 0x120D b).getD 0 0 + 1)) ∧
          (∀ j, (s.aph b (k / 2)).judge = some j → j.tx = none → s.mono < j.tOff + 16000 → j.tOn = none → j.up = decide (swOther k % 2 = 0) →
            (e.aph b (k / 2)).judge = some { j with tOn := some (s.mono + 40) })
        else Only all s e ∧ e.sw b (swOther k) = { y with cmd := false, pend := none } ∧ short e (swOther k)
      else Only [.faults, .aux] s e ∧ e.sw b (swOther k) = y ∧ e.faults.firings = s.faults.firings) ∧
    (∀ t, x.pend = some t → t + 20 * s.pu 0x1208 b 0 2 ≤ s.mono → Lands (exec (.auxConfTimeoutExpire b k) s) fun e =>
      Only all s e ∧ e.sw b k = { x with cmd := false, pend := none } ∧ s.Fired e 0x69 ∧ otherSw e k ∧ short e k ∧
      ∀ j, (s.aph b (k / 2)).judge = some j → j.tx = none → s.mono < j.tOff + 16000 → (e.aph b (k / 2)).judge = some { j with lost := true }) ∧
    ((∀ t, x.pend = some t → s.mono < t + 20 * s.pu 0x1208 b 0 2) → exec (.auxConfTimeoutExpire b k) s = .next s) ∧
    (∀ t, x.offAt = some t → t + 16000 ≤ s.mono → x.on = false → x.offSeen = false → x.off = false →
      Lands (exec (.auxOffStuckTimeout b k) s) fun e =>
        if { src := 0x6A, inst := b, sub := k } ∈ s.faults.present then e = s
        else Only [.todo, .hatch, .notif, .par, .faults, .pantry] s e ∧ s.Fired e 0x6A) ∧
    ((∀ t, x.offAt = some t → s.mono < t + 16000) ∨ x.on = true ∨ x.offSeen = true ∨ x.off = true →
      exec (.auxOffStuckTimeout b k) s = .next s) ∧
    (∀ (a : AuxEdge) (rest : List AuxEdge), (s.br b).edges = a :: rest →
      let u := s.sw b a.k
      let o := s.sw b (swOther a.k)
      (a.at_ ≤ s.mono → s.aux.driving = true → Lands (exec (.auxScheduledEdge b) s) fun e => Only all s e ∧
        if a.on = false then
          Only [.aux] s e ∧ (e.sw b a.k).on = false ∧ (e.sw b a.k).cmd = false ∧ (e.sw b a.k).pend = none ∧ (e.br b).edges = rest ∧
          otherSw e a.k ∧ (a.judged = true → s.pu 0x1206 b 0 1 = 1 → u.on = true →
            (e.aph b (a.k / 2)).judge = some { tOff := a.at_, up := decide (a.k % 2 = 1) })
        else if a.check = true ∧ u.sg = false then
          s.Fired e 0x6C ∧ (e.br b).edges = rest.filter (fun z => z.k / 2 != a.k / 2) ∧ (e.aph b (a.k / 2)).level = none ∧
          (∀ j, j / 2 = a.k / 2 → (e.sw b j).on = false ∧ (e.sw b j).cmd = false ∧ (e.sw b j).pend = none) ∧
          ∀ c j, c ≠ b.val ∨ j / 2 ≠ a.k / 2 → e.sw c j = s.sw c j
        else
          (e.br b).edges = rest ∧ otherSw e a.k ∧ e.sw b a.k =
            if u.on = true ∨ u.pend.isSome = true ∨ u.locked = true ∨ u.sg = false ∨ o.cmd = true then u
            else if o.offSeen = true then { u with cmd := true, on := true, off := false, pend := none }
            else { u with cmd := true, pend := some a.at_ }) ∧
      (s.mono < a.at_ ∨ s.aux.driving = false → exec (.auxScheduledEdge b) s = .next s)) ∧
    ((s.br b).edges = [] → exec (.auxScheduledEdge b) s = .next s) ∧
    (∀ (p : Fin 3) (level : Bool), Lands (exec (.auxNodeChange b p level) s) fun e => Only all s e ∧ (e.aph b p).node = level ∧
      (∀ c j, c ≠ b.val ∨ j ≠ p.val → e.aph c j = s.aph c j) ∧ (∀ c j, e.sw c j = s.sw c j) ∧
      ((s.aph b p).judge = none → Only [.aux] s e ∧ e.aph b p = { s.aph b p with node := level }) ∧
      ∀ j, (s.aph b p).judge = some j →
        let j' := if j.tx = none ∧ j.up = level ∧ s.mono ≤ j.tOff + 16000 then
            { j with tx := some ((s.mono + 40 : Int) - 20 * s.pu 0x1206 b 18 2) } else j
        if ready j' then judged e p j' else Only [.aux] s e ∧ e.aph b p = { s.aph b p with node := level, judge := some j' }) ∧
    (∀ p : Fin 3,
      (∀ j, (s.aph b p).judge = some j → ready j → Lands (exec (.auxNodeWindowEnd b p) s) fun e => Only all s e ∧ judged e p j ∧
        (e.aph b p).node = (s.aph b p).node ∧ (∀ c n, c ≠ b.val ∨ n ≠ p.val → e.aph c n = s.aph c n) ∧ ∀ c n, e.sw c n = s.sw c n) ∧
      ((∀ j, (s.aph b p).judge = some j → ¬ ready j) → Lands (exec (.auxNodeWindowEnd b p) s) fun e => e = s))

/-- R472, R477 to R482, R487 to R491, R493, R495, R496: a bridge's boundary takes the shadowed values up, and its mode: OFF turns every switch off, SHORT
the high sides, and the low sides not already on come on DT later; a PWM phase that stays enabled gets the four edges of its period; DIRECT
follows the gate word. A trip input takes its edges, and once it has been low for its filter time it latches and, unless the bridge is
already in the short, turns every switch off or starts the short; AUX_TRIP_CLEAR clears what is latched and turns every switch off, and clears
nothing while an input is active or none is latched; AUX_SAFE sets OFF or SHORT; a unit that may drive starts with every switch off. -/
def Obligations.AuxModes : Prop :=
  ∀ (s : State) (b : Fin 2),
    let all : List Part := [.todo, .hatch, .notif, .par, .faults, .pantry, .aux]
    let others := fun (e : State) (i : Nat) => ∀ c, c ≠ i → e.br c = s.br c
    let allOff := fun (e : State) (i : Nat) => (∀ k < 6, (e.sw i k).on = false ∧ (e.sw i k).cmd = false ∧ (e.sw i k).pend = none) ∧
      (e.br i).edges = [] ∧ (e.br i).short = false
    let shorted := fun (e : State) (i : Nat) => (e.br i).short = true ∧ ∀ p < 3, (e.sw i (2 * p)).on = false ∧ (e.sw i (2 * p)).cmd = false ∧
      ((s.sw i (2 * p + 1)).on = true ∨ { at_ := s.mono + 20 * e.phaseDt i p, k := 2 * p + 1, on := true } ∈ (e.br i).edges)
    let w := s.captureAll auxShadowed b
    let old := (s.br b).mode
    let new := w.pu 0x1201 b 0 1
    let due := (s.br b).next ≤ s.mono ∧ s.sys.stage ≠ .inReset
    let starts := s.auxMay = true ∧ s.aux.driving = false ∧ s.twin.roleMono + 8000 ≤ s.mono
    (due → Lands (exec (.auxPeriodBoundary b) s) fun e => Only all s e ∧ others e b ∧ (e.br b).bAt = (s.br b).next ∧
        (e.br b).next = (s.br b).next + 40 * w.pu 0x1202 b 0 2 ∧ (e.br b).boundaries = ((s.br b).boundaries + 1) % 2 ^ 32 ∧
        (e.br b).mode = new ∧
        (s.aux.driving = false ∨ ((s.br b).tripped = true ∧ ∀ p < 3, (s.aph b p).incomplete = false) → ∀ k, e.sw b k = s.sw b k) ∧
        (s.aux.driving = true → (s.br b).tripped = false →
          (new = 0 → old ≠ 0 → allOff e b) ∧
          (new = 3 → old ≠ 3 → (s.br b).short = false → shorted e b) ∧
          (new = 1 → old = 1 → ∀ p < 3,
            let per := w.pu 0x1202 b 0 2
            let c := min (w.pu 0x1203 b (2 * p) 2) per
            let dt := e.phaseDt b p
            let at_ := fun (n : Nat) => (s.br b).next + 20 * n
            (bit (w.pu 0x1204 b 0 1) p = false → (e.sw b (2 * p)).on = false) ∧
            (bit (w.pu 0x1204 b 0 1) p = true → (s.aph b p).level = some false → 0 < c → c < per →
              dt + max 1 (w.pu 0x1207 b 0 2) ≤ 2 * c → dt + max 1 (w.pu 0x1207 b 0 2) ≤ 2 * (per - c) →
              { at_ := at_ (per - c - dt / 2), k := 2 * p + 1, on := false, judged := true } ∈ (e.br b).edges ∧
              { at_ := at_ (per - c + (dt - dt / 2)), k := 2 * p, on := true, judged := true } ∈ (e.br b).edges ∧
              { at_ := at_ (per + c - dt / 2), k := 2 * p, on := false, judged := true } ∈ (e.br b).edges ∧
              { at_ := at_ (per + c + (dt - dt / 2)), k := 2 * p + 1, on := true, judged := true } ∈ (e.br b).edges)) ∧
          (new = 2 → old < 2 → (s.br b).short = false → ∀ p < 3,
            let g := w.pu 0x1205 b 0 1
            (bit g (2 * p) = bit g (2 * p + 1) → ∀ k, k / 2 = p → (e.sw b k).on = false ∧ (e.sw b k).cmd = false) ∧
            (∀ k, k / 2 = p → bit g k = false → (e.sw b k).on = false) ∧
            (∀ k, k / 2 = p → bit g k = true → bit g (swOther k) = false → (s.sw b k).sg = true → (s.sw b k).locked = false →
              (s.sw b k).cmd = false → (s.sw b k).on = false → (s.sw b k).pend = none → (s.sw b (swOther k)).on = false →
              (s.sw b (swOther k)).offSeen = true → (e.sw b k).on = true)))) ∧
    (¬ due → exec (.auxPeriodBoundary b) s = .next s) ∧
    (∀ (i : Fin 2) (level : Bool), Next (exec (.auxTripPinEdge b i level) s) fun t => Only [.aux] s t ∧
      (t.br b).trip.get {} i = { (s.br b).trip.get {} i with
        lowSince := if level then none else some (((s.br b).trip.get {} i).lowSince.getD s.mono) } ∧
      (∀ j, j ≠ i.val → (t.br b).trip.get {} j = (s.br b).trip.get {} j) ∧ (∀ k, t.sw b k = s.sw b k) ∧
      others t b) ∧
    (∀ i : Fin 2,
      let x := (s.br b).trip.get {} i
      let comes := s.auxActive b i = true ∧ bit (s.pu 0x1209 b (4 * i + 3) 1) 0 = true ∧ x.latched = false
      (s.auxActive b i = true ↔ ∃ t, x.lowSince = some t ∧ t + 20 * s.pu 0x1209 b (4 * i) 2 ≤ s.mono) ∧
      (comes → Lands (exec (.auxTripActive b i) s) fun e => Only all s e ∧ others e b ∧
        (e.br b).trip.get {} i = { x with latched := true, short := s.pu 0x1209 b (4 * i + 2) 1 == 1 } ∧
        (∀ j, j ≠ i.val → (e.br b).trip.get {} j = (s.br b).trip.get {} j) ∧
        ({ src := 0x6F, inst := b, sub := i } ∉ s.faults.present → s.Fired e 0x6F) ∧
        if s.aux.driving = false ∨ (s.br b).short = true then (∀ k, e.sw b k = s.sw b k) ∧ (e.br b).short = (s.br b).short
        else if s.pu 0x1209 b (4 * i + 2) 1 = 1 then shorted e b
        else allOff e b) ∧
      (¬ comes → exec (.auxTripActive b i) s = .next s)) ∧
    (∀ (mb : Fin 8) (q : Request), s.Runs mb 0x1220 q → s.Writes mb 0x12 → Lands (exec (.auxTripClear mb) s) fun e =>
      let i := uAt q.payload 0 1
      let m := uAt q.payload 1 1
      let t := fun j => (s.br i).trip.get {} j
      let refused := fun st (x : Byte) => Only [.hatch] s e ∧ s.Replies e mb q st [x, 0, 0xFF, 0xFF]
      if 1 < i then refused stBadParam 5
      else if (bit m 0 = true ∧ s.auxActive i 0 = true) ∨ (bit m 1 = true ∧ s.auxActive i 1 = true) then refused stTrip 0xB1
      else if (bit m 0 = false ∨ (t 0).latched = false) ∧ (bit m 1 = false ∨ (t 1).latched = false) then refused stRefused 0xB2
      else OnlyWrite [.par, .faults, .aux] s e ∧ others e i ∧ (e.br i).mode = 0 ∧ allOff e i ∧ e.peff 0x1201 i = [0] ∧
        s.Accepts e mb q (leBytes 1 (b2n (bit m 0 && (t 0).latched) + 2 * b2n (bit m 1 && (t 1).latched)) ++ [0, 0, 0]) ∧
        ∀ j < 2, (e.br i).trip.get {} j = if bit m j = true ∧ (t j).latched = true then { t j with latched := false, short := false } else t j) ∧
    (∀ (mb : Fin 8) (q : Request), s.Runs mb 0x1221 q → s.Writes mb 0x12 → Lands (exec (.auxSafe mb) s) fun e =>
      let i := uAt q.payload 0 1
      let a := uAt q.payload 1 1
      if 1 < i ∨ 1 < a then Only [.hatch] s e ∧ s.Replies e mb q stBadParam [5, 0, 0xFF, 0xFF]
      else OnlyWrite [.par, .faults, .aux] s e ∧ others e i ∧ (e.br i).mode = 3 * a ∧ e.peff 0x1201 i = leBytes 1 (3 * a) ∧
        s.Accepts e mb q (leBytes 4 s.shortNow) ∧
        if s.aux.driving = false ∨ (s.br i).tripped = true then ∀ k, e.sw i k = s.sw i k
        else if a = 0 then allOff e i
        else if (s.br i).short = true then ∀ k, e.sw i k = s.sw i k
        else shorted e i) ∧
    ((starts → Lands (exec .auxDriveStart s) fun e => Only all s e ∧ e.aux.driving = true ∧ ∀ c < 2,
        let x := s.br c
        let asked := ((x.trip.get {} 0).latched = true ∧ (x.trip.get {} 0).short = true) ∨ ((x.trip.get {} 1).latched = true ∧ (x.trip.get {} 1).short = true)
        (∀ i, (e.br c).trip.get {} i = x.trip.get {} i) ∧ (e.br c).mode = (if x.tripped = true then x.mode else s.pu 0x1201 c 0 1) ∧
        ((x.tripped = true ∨ s.pu 0x1201 c 0 1 < 2 ∨ s.pu 0x1201 c 0 1 = 3) → ∀ k < 6, (e.sw c k).on = false ∧ (e.sw c k).cmd = false) ∧
        ((e.br c).short = true ↔ if x.tripped = true then asked else s.pu 0x1201 c 0 1 = 3) ∧
        (x.tripped = true → ¬ asked → (e.br c).edges = []) ∧ (x.tripped = false → s.pu 0x1201 c 0 1 = 0 → (e.br c).edges = [])) ∧
      (¬ starts → exec .auxDriveStart s = .next s))

/-- R498 to R511: POS_EDGE takes the levels of A and B once the filter gives them. In QUAD one accepted edge of A or B moves COUNT by one, up where A
leads B and INVERT_DIR is clear; two in one sample move nothing, count QUAD_ERR and clear VALID; a disagreeing pair stops the count. In TOOTH a
tooth moves COUNT by one and a missing tooth by two; a missing or an extra tooth is a reference, whose pitches are checked but for the
first. An index or a reference copies COUNT to REF_LATCH, sets it to 0 with INDEX_RESET or to a waiting POS_SET's value, and sets VALID
where no pair disagrees. An armed compare unit fires where a move crosses its value, and where VALID is cleared if it requires it. A receiver
pair that disagrees clears VALID; the end of a window forms the speed; ZERO_TIME without a change gives speed 0; a compare pulse ends; POS_SET sets
COUNT or waits for the index. An event that is not due changes nothing, and no other channel changes.
And R503, R506, R510, R514: POS_SET of a channel in use sets COUNT and VALID at once where no pair disagrees, and any compare unit that the value leaves
behind fires; with WHEN = 1 it waits for the next index or reference. No other channel changes. -/
def Obligations.Positions : Prop :=
  (
  ∀ (s : State) (c : Fin 4),
      let x := s.pch c
      let all : List Part := [.todo, .hatch, .notif, .par, .faults, .pantry, .aux, .pos]
      let others := fun (e : State) => ∀ d, d ≠ c.val → e.pch d = s.pch d
      let fires := fun (e : State) (p : Nat → Prop) => ∀ u, u / 2 = c.val → s.cmpMode u ≠ 0 → p u →
        (e.pos.cmp.get {} u).fired = true ∧ (e.pos.cmp.get {} u).at_ = s.shortNow ∧ e.cmpMode u = 0
      let leaves := fun (e : State) (p : Nat → Prop) => ∀ u < 8, s.cmpMode u = 0 ∨ u / 2 ≠ c.val ∨ ¬ p u →
        e.pos.cmp.get {} u = s.pos.cmp.get {} u ∧ e.cmpMode u = s.cmpMode u
      let crosses := fun (n u : Nat) =>
        let from_ := sdiff 32 x.count (s.pu 0x1307 u 0 4)
        let to_ := sdiff 32 n (s.pu 0x1307 u 0 4)
        (s.cmpMode u ≠ 2 ∧ from_ < 0 ∧ 0 ≤ to_) ∨ (s.cmpMode u ≠ 1 ∧ 0 < from_ ∧ to_ ≤ 0)
      let moved := fun (n : Nat) (up : Bool) => wrap 32 ((x.count : Int) + if up then (n : Int) else -(n : Int))
      let travels := fun (e : State) (n : Nat) (up : Bool) =>
        (e.pch c).count = moved n up ∧ (e.pch c).stamp = s.now ∧ (e.pch c).up = up ∧ (e.pch c).moved = true ∧ (e.pch c).zero = false ∧
        (e.pch c).changeAt = s.mono ∧ fires e (crosses (moved n up)) ∧ leaves e (crosses (moved n up))
      let refers := fun (e : State) (at_ : Nat) (good : Bool) =>
        (e.pch c).latch = at_ ∧ (e.pch c).refSeen = true ∧ (e.pch c).pending = none ∧
        (e.pch c).count = (match x.pending with | some v => v | none => if s.posFlag c 2 = true then 0 else at_) ∧
        (e.pch c).valid = if good = true then x.valid || !x.anyWire else false
      let n := s.now / max 1 (s.pu 0x1303 c 0 4)
      (∀ a b,
        (s.posLevel c 0 ≠ a ∨ s.posLevel c 1 ≠ b → exec (.posEdge c a b) s = .next s) ∧
        (s.posLevel c 0 = a → s.posLevel c 1 = b → Lands (exec (.posEdge c a b) s) fun e => Only all s e ∧ others e ∧ (e.pch c).a = a ∧
          (e.pch c).b = b ∧
          if s.posMode c = 1 then
            (e.pch c).latch = x.latch ∧
            if (x.ln 0).wire = true ∨ (x.ln 1).wire = true ∨ (x.a = a ∧ x.b = b) then Only [.pos] s e ∧ e.pch c = { x with a, b }
            else if x.a ≠ a ∧ x.b ≠ b then
              (e.pch c).count = x.count ∧ (e.pch c).valid = false ∧
              (s.counts 0x1309 c ≠ [] → (e.counts 0x1309 c).getD 0 0 = min (2 ^ 32 - 1) ((s.counts 0x1309 c).getD 0 0 + 1)) ∧
              (x.valid = true → fires e fun u => bit (s.pu 0x1307 u 5 1) 3 = true) ∧
              (if ∃ t, x.illegalAt = some t ∧ s.mono < t + 80000 then (e.pch c).illegal = x.illegal + 1 ∧ (e.pch c).illegalAt = x.illegalAt
               else (e.pch c).illegal = 0 ∧ (e.pch c).illegalAt = some s.mono ∧ s.Fired e 0x71)
            else travels e 1 ((((x.a != a) && (a != b)) || ((x.b != b) && (a == b))) != s.posFlag c 0) ∧ (e.pch c).valid = x.valid
          else if s.posMode c = 2 ∧ a = true ∧ x.a = false ∧ (x.ln 0).wire = false then
            let up := !s.posFlag c 3
            (e.pch c).toothAt = some s.mono ∧
            match x.toothAt with
            | none => travels e 1 up ∧ (e.pch c).pitches = x.pitches + 1 ∧ (e.pch c).valid = x.valid
            | some t =>
              let p := s.mono - t + x.extraP.getD 0
              let plain := travels e 1 up ∧ (e.pch c).pitches = x.pitches + 1 ∧ (e.pch c).prevP = some p ∧ (e.pch c).toothP = some p ∧
                (e.pch c).extraP = none ∧ (e.pch c).valid = x.valid
              let ref := fun (at_ seen : Nat) =>
                (e.pch c).pitches = 0 ∧ (e.pch c).refOnce = true ∧
                refers e at_ (!x.refOnce || seen == s.pu 0x1302 c 0 2) ∧
                (x.refOnce = true → seen ≠ s.pu 0x1302 c 0 2 → s.Fired e 0x72)
              match x.prevP with
              | none => plain
              | some p0 =>
                if s.pu 0x1302 c 2 1 = 0 ∧ p0 * s.pu 0x1302 c 3 1 < 16 * p then ref (moved 2 up) (x.pitches + 2) ∧ (e.pch c).toothP = some (p / 2)
                else if s.pu 0x1302 c 2 1 = 1 ∧ p * s.pu 0x1302 c 3 1 < 16 * p0 then ref x.count x.pitches ∧ (e.pch c).extraP = some p
                else plain
          else Only [.pos] s e ∧ e.pch c = { x with a, b })) ∧
      (x.z = true ∨ s.posLevel c 2 = false → exec (.posIndex c) s = .next s) ∧
      (x.z = false → s.posLevel c 2 = true → Lands (exec (.posIndex c) s) fun e => Only all s e ∧ others e ∧ (e.pch c).z = true ∧
        if s.posMode c = 1 ∧ s.posFlag c 1 = true ∧ (x.ln 2).wire = false ∧ (s.pu 0x1301 c 5 1 = 0 ∨ (x.a = true ∧ x.b = true)) then
          refers e x.count true ∧ (e.pch c).a = x.a ∧ (e.pch c).b = x.b
        else Only [.pos] s e ∧ e.pch c = { x with z := true }) ∧
      (∀ (l : Fin 3) (plus minus : Bool), Next (exec (.posPinEdge c l plus minus) s) fun t =>
        let y := x.ln l
        let lv := if plus = minus then y.lv else plus
        Only [.pos] s t ∧ others t ∧ (∀ k, k ≠ l.val → (t.pch c).ln k = x.ln k) ∧
        (t.pch c).ln l = { y with plus, minus, lv, lvAt := (if lv = y.lv then y.lvAt else s.mono), since :=
          (if (y.plus == y.minus) = (plus == minus) then y.since else s.mono) } ∧
        (t.pch c).count = x.count ∧ (t.pch c).a = x.a ∧ (t.pch c).b = x.b ∧
        (t.pch c).z = if l = 2 ∧ s.posLevel c 2 = false then false else x.z) ∧
      (∀ p : Fin 3,
        let y := x.ln p
        let due := y.since + 20 * s.pu 0x1301 c 2 2 ≤ s.mono
        let checked := s.posMode c = 1 ∨ (s.posMode c = 2 ∧ p = 0)
        (due → y.plus = y.minus → y.wire = false → checked → Lands (exec (.posWireFilterExpire c p) s) fun e => Only all s e ∧ others e ∧
          (e.pch c).ln p = { y with wire := true } ∧ (∀ k, k ≠ p.val → (e.pch c).ln k = x.ln k) ∧ (e.pch c).valid = false ∧
          (e.pch c).count = x.count ∧ (x.valid = true → fires e fun u => bit (s.pu 0x1307 u 5 1) 3 = true) ∧
          ({ src := 0x70, inst := c, sub := p } ∉ s.faults.present → s.Fired e 0x70)) ∧
        (due → y.plus ≠ y.minus → y.wire = true → Lands (exec (.posWireFilterExpire c p) s) fun e => Only [.faults, .pos] s e ∧ others e ∧
          (e.pch c).ln p = { y with wire := false } ∧ (∀ k, k ≠ p.val → (e.pch c).ln k = x.ln k) ∧ (e.pch c).valid = x.valid ∧
          (e.pch c).count = x.count ∧ e.faults.firings = s.faults.firings) ∧
        (¬ due ∨ (y.plus = y.minus ∧ (y.wire = true ∨ ¬ checked)) ∨ (y.plus ≠ y.minus ∧ y.wire = false) →
          exec (.posWireFilterExpire c p) s = .next s)) ∧
      (Next (exec (.posSpeedWindow c) s) fun t => Only [.pos] s t ∧ others t ∧ (t.pch c).window = n ∧
          if n = x.window then t.pch c = x
          else (t.pch c).windowCount = x.count ∧ (t.pch c).count = x.count ∧
            (t.pch c).speed = (if x.zero = true then 0
              else if x.countMode = true then
                satI 32 (Int.tdiv (sdiff 32 x.count x.windowCount * 128000000000) (max 1 (s.pu 0x1303 c 0 4)))
              else (s.speedPeriod c).1) ∧
            (∀ a b, s.posMode c ≠ 2 → x.changes[0]? = some a → x.changes[s.pu 0x1303 c 14 1]? = some b →
              let v : Int := (s.pu 0x1303 c 14 1 * 128000000000 / max 1 (max (a - b) (s.pu 0x1303 c 14 1 * (s.mono - x.changeAt))) : Nat)
              (s.speedPeriod c).1 = satI 32 (if x.up = true then v else -v)) ∧
            (t.pch c).countMode = decide ((s.pu 0x1303 c (if x.countMode then 8 else 4) 4 : Int) ≤ (t.pch c).speed.natAbs)) ∧
      (Next (exec (.posZeroTimeout c) s) fun t => Only [.pos] s t ∧ others t ∧
        if x.changeAt + 8000000 * s.pu 0x1303 c 12 2 ≤ s.mono ∧ x.zero = false then
          (t.pch c).speed = 0 ∧ (t.pch c).zero = true ∧ (t.pch c).count = x.count ∧ (t.pch c).valid = x.valid ∧ (t.pch c).changes = [] ∧
          (t.pch c).toothAt = none
        else t.pch c = x) ∧
      (∀ u : Fin 8, Next (exec (.posCmpPulseEnd u) s) fun e => Only [.pos] s e ∧ e.pos.chan = s.pos.chan ∧
        (∀ v, v ≠ u.val → e.pos.cmp.get {} v = s.pos.cmp.get {} v) ∧
        if ∃ t, (s.pos.cmp.get {} u).pulse = some t ∧ t ≤ s.mono then e.pos.cmp.get {} u = { s.pos.cmp.get {} u with pulse := none }
        else e.pos.cmp.get {} u = s.pos.cmp.get {} u)) ∧
  (
  ∀ (s : State) (mb : Fin 8) (q : Request), s.Runs mb 0x1310 q → s.Writes mb 0x13 → Lands (exec (.posSet mb) s) fun e =>
      let c := uAt q.payload 0 1
      let w := uAt q.payload 1 1
      let v := uAt q.payload 4 4
      let x := s.pch c
      let refused := fun st (r : Byte) => Only [.hatch] s e ∧ s.Replies e mb q st [r, 0, 0xFF, 0xFF]
      if 3 < c ∨ 1 < w then refused stBadParam 5
      else if s.posMode c = 0 then refused stRefused 0xC0
      else if w = 1 ∧ s.posMode c = 1 ∧ s.posFlag c 1 = false then refused stRefused 0xC1
      else if w = 0 ∧ ((x.ln 0).wire = true ∨ (x.ln 1).wire = true ∨ (x.ln 2).wire = true) then refused stRefused 0xC4
      else (∀ d, d ≠ c → e.pch d = s.pch d) ∧
        if w = 1 then OnlyWrite [.pos] s e ∧ s.Accepts e mb q [0, 0, 0, 0] ∧ e.pch c = { x with pending := some v }
        else OnlyWrite [.notif, .par, .faults, .pantry, .aux, .pos] s e ∧ s.Accepts e mb q (leBytes 4 s.shortNow) ∧
          e.pch c = { x with count := v, stamp := s.now, valid := true, pending := none } ∧
          ∀ u, u / 2 = c → s.cmpMode u ≠ 0 →
            let d := sdiff 32 v (s.pu 0x1307 u 0 4)
            ((s.cmpMode u = 1 → 0 ≤ d) ∧ (s.cmpMode u = 2 → d ≤ 0) ∧
              (2 < s.cmpMode u → d = 0 ∨ (x.moved = true ∧ (if x.up = true then 0 < d else d < 0))) →
              (e.pos.cmp.get {} u).fired = true ∧ (e.pos.cmp.get {} u).late = true ∧ e.cmpMode u = 0) ∧
            (s.cmpMode u = 1 → d < 0 → e.pos.cmp.get {} u = s.pos.cmp.get {} u) ∧ (s.cmpMode u = 2 → 0 < d → e.pos.cmp.get {} u = s.pos.cmp.get {} u))

/-- R523, R526 to R534, R538, R539: how the safety island follows its inputs. A level is kept with its time; the second hand of a two-hand actuation grants
PERMIT, too late it grants nothing; a demand and a fault of a function end READY and PERMIT; a demand ends once both inputs have been closed; a
valid reset, or the end of a curtain's stop, grants READY or PERMIT; a chain's edges, a broken loop and a demand that is due are kept. An event that
is not due changes nothing, and nothing outside the island changes. -/
def Obligations.SafetyInputs : Prop :=
  ∀ s : State,
    let u := s.safe
    let stops := fun (t : State) => t.safe.inhibitOn = false ∧ if u.inhibitOn = true then
      t.safe.st = .stopped ∧ t.safe.pPermit = false ∧ t.safe.hPermit = false ∧ t.safe.offAt = s.mono else t.safe.st = u.st
    let faults := fun (t : State) (fn code : Nat) =>
      if u.live = true ∧ u.inUse fn = true ∧ bit u.fault fn = false then
        bit t.safe.fault fn = true ∧ t.safe.last.code = code ∧ t.safe.last.fn = 2 ^ fn ∧ t.safe.last.by_ = 3 ∧ stops t
      else t.safe = u
    let dst := if u.sw 3 = true then SafeState.ready else .permit
    (∀ (i : Fin 17) (level : Bool), Next (exec (.safeInputEdge i level) s) fun t => Only [.safe] s t ∧
      if u.lev i = level then t = s
      else
        let v := { u with level := u.level.set i level, since := u.since.set i s.mono }
        t.safe.lev i = level ∧ t.safe.at_ i = s.mono ∧ (∀ j, j ≠ i.val → t.safe.lev j = u.lev j ∧ t.safe.at_ j = u.at_ j) ∧
        t.safe.demand = u.demand ∧
        (i.val < 8 ∨ 12 ≤ i.val → t.safe.st = u.st ∧ t.safe.fault = u.fault ∧ t.safe.hands = u.hands ∧
          (i = 14 → level = false → t.safe.press = some (s.mono - u.at_ 14)) ∧
          t.safe.edm = match u.edm with
            | some (a, w) => if 15 ≤ i.val ∧ v.lev 15 = w ∧ v.lev 16 = w ∧ s.mono ≤ a + 800000000 then none else u.edm
            | none => none) ∧
        (8 ≤ i.val → i.val < 12 → u.live = true → u.inUse 5 = true →
          let h := (i.val - 8) / 2
          let apart := max (v.at_ (8 + 2 * h)) (v.at_ (9 + 2 * h)) - min (v.at_ (8 + 2 * h)) (v.at_ (9 + 2 * h))
          (v.released 0 = true → v.released 1 = true → t.safe.hands = { armed := true } ∧ t.safe.st = u.st) ∧
          (v.pressed h = true → 400000000 < apart → bit u.fault 5 = false → bit t.safe.fault 5 = true ∧ t.safe.last.code = 3 ∧ stops t) ∧
          (v.pressed h = true → apart ≤ 400000000 → u.hands.armed = true → v.released (1 - h) = true → u.hands.first = none →
            t.safe.hands = { armed := true, first := some (h, s.mono) } ∧ t.safe.st = u.st) ∧
          (∀ a, v.pressed h = true → apart ≤ 400000000 → u.hands = { armed := true, first := some (1 - h, a) } → t.safe.hands = {} ∧
            if s.mono ≤ a + 4000000000 then
              (u.st = (if u.sw 5 then .stopped else .ready) → v.mayGrant s.mono .permit = true →
                t.safe.st = .permit ∧ t.safe.line = true ∧ t.safe.edm = some (s.mono, false)) ∧
              (u.st ≠ (if u.sw 5 then .stopped else .ready) ∨ v.mayGrant s.mono .permit = false → t.safe.st = u.st)
            else t.safe.st = u.st ∧ t.safe.fault = u.fault))) ∧
    (∀ i : Fin 14, Next (exec (.safeDemandFilter i) s) fun t => Only [.safe] s t ∧
      if u.live = true ∧ safeFn i ≠ 5 ∧ u.inUse (safeFn i) = true ∧ u.inDemand i s.mono = true then
        bit t.safe.demand (safeFn i) = true ∧
        (u.inDemand (safePair (safeFn i)).1 s.mono = true → u.inDemand (safePair (safeFn i)).2 s.mono = true → bit u.fault (safeFn i) = true →
          bit t.safe.together (safeFn i) = true) ∧
        if bit u.demand (safeFn i) = true then t.safe.demand = u.demand ∧ t.safe.st = u.st
        else stops t ∧ bit t.safe.cause (safeFn i) = true
      else t = s) ∧
    (∀ k : Fin 5, Next (exec (.safeDiscrepancyTimeout k) s) fun t => Only [.safe] s t ∧
      if u.lev (safePair k).1 ≠ u.lev (safePair k).2 ∧
        max (u.at_ (safePair k).1) (u.at_ (safePair k).2) + (if k = 4 then 160000000 else 800000000) < s.mono then faults t k 1
      else t = s) ∧
    (∀ h : Fin 2, Next (exec (.safeThcPairTimeout h) s) fun t => Only [.safe] s t ∧
      if u.pressed h = false ∧ u.released h = false ∧ max (u.at_ (8 + 2 * h)) (u.at_ (9 + 2 * h)) + 400000000 < s.mono then faults t 5 3
      else t = s) ∧
    (∀ (o : Fin 2) (own cross : BitVec 17), Next (exec (.safeTestPulse o own cross) s) fun t => Only [.safe] s t ∧
      if u.live = true ∧ u.sw 6 = true then
        let fails := fun fn => ∃ i < 12, safeFn i = fn ∧ u.lev i = true ∧
          (i % 2 = o.val ∧ bit own.toNat i = false ∨ i % 2 ≠ o.val ∧ bit cross.toNat i = true)
        t.safe.pulse = u.pulse.set o s.mono ∧ t.safe.demand = u.demand ∧
        (∀ fn < 6, bit t.safe.fault fn = true ↔ bit u.fault fn = true ∨ (u.inUse fn = true ∧ fails fn)) ∧
        ((∃ fn < 6, bit u.fault fn = false ∧ u.inUse fn = true ∧ fails fn) → stops t ∧ t.safe.last.code = 2) ∧
        ((∀ fn < 6, bit u.fault fn = true ∨ u.inUse fn = false ∨ ¬ fails fn) → t.safe = { u with pulse := u.pulse.set o s.mono })
      else t = s) ∧
    (∀ fn : Fin 6, Next (exec (.safeFunctionPermitFilter fn) s) fun t => Only [.safe] s t ∧ t.safe.st = u.st ∧
      if u.live = true ∧ (if fn = 5 then u.released 0 = true ∧ u.released 1 = true
          else u.lev (safePair fn).1 = true ∧ u.lev (safePair fn).2 = true ∧
            max (u.at_ (safePair fn).1) (u.at_ (safePair fn).2) + (if fn = 4 then 3200000 else 1600000) ≤ s.mono) then
        bit t.safe.fault fn = (if fn = 5 then false else bit u.fault fn && !bit u.together fn) ∧ (fn ≠ 5 → bit t.safe.demand fn = false) ∧
        ∀ k < 6, k ≠ fn.val → bit t.safe.fault k = bit u.fault k ∧ bit t.safe.demand k = bit u.demand k
      else t = s) ∧
    (Next (exec .safeResetRelease s) fun t => Only [.safe] s t ∧ t.safe.lev 14 = false ∧ t.safe.press = none ∧
      if u.st = .stopped ∧ u.sw 5 = false ∧ u.mayGrant s.mono dst = true ∧
        (if u.lev 14 = true then 800000000 ≤ s.mono - u.at_ 14 ∧ s.mono - u.at_ 14 ≤ 40000000000
          else 800000000 ≤ u.press.getD 0 ∧ u.press.getD 0 ≤ 40000000000) then
        t.safe.st = dst ∧ t.safe.line = true
      else t.safe.st = u.st ∧ t.safe.pPermit = u.pPermit ∧ t.safe.hPermit = u.hPermit) ∧
    (Next (exec .safeLcClearExpire s) fun t => Only [.safe] s t ∧
      if u.st = .stopped ∧ u.sw 7 = true ∧ u.sw 4 = true ∧ u.cause = 16 ∧ u.lev 12 = true ∧ u.lev 13 = true ∧
        max (u.at_ 12) (u.at_ 13) + 4000000000 ≤ s.mono ∧ u.mayGrant s.mono dst = true then t.safe.st = dst ∧ t.safe.line = true
      else t = s) ∧
    (∀ k : Fin 2, Next (exec (.safeLoopBrokenTimeout k) s) fun t => Only [.safe] s t ∧
      if u.inhibitOn = true ∧ bit u.broken k = false ∧ u.edge.get 0 k + 400000 ≤ s.mono then
        bit t.safe.broken k = true ∧ t.safe.last.code = 0x20 ∧ t.safe.st = u.st
      else t = s) ∧
    (∀ (k : Fin 2) (p : Nat), Next (exec (.safeChainMeasure k p) s) fun t => Only [.safe] s t ∧
      if u.inhibitOn = true then
        if (if k = 0 then 76480 else 80320) ≤ p ∧ p ≤ (if k = 0 then 79680 else 83520) then
          t.safe.st = .lockout ∧ t.safe.last.code = 0x14 ∧ t.safe.inhibitOn = false
        else t.safe.edge.get 0 k = s.mono ∧ bit t.safe.broken k = false ∧ t.safe.st = u.st ∧ (bit u.broken k = false → t.safe.last = u.last)
      else if u.live = true ∧ u.st ≠ .lockout ∧ u.offAt + 400000 < s.mono then t.safe.st = .lockout ∧ t.safe.last.code = 0x13
      else t = s) ∧
    (Next (exec .safeDemandDue s) fun t => Only [.safe] s t ∧
      if u.inhibitOn = true ∧ u.onAt + 20736000000000000 ≤ s.mono then t.safe = { u with due := true } else t = s)

/-- R518 to R520, R522 to R525, R532, R535, R536, R547: the island's faults end in LOCKOUT with every output off; without its supply nothing is
on, and with the supply back the island starts again; START ends in UNUSED, STOPPED or LOCKOUT by the seal; the channels' decisions remove the
permit at once. A check that passes locks nothing out, and nothing outside the island changes.
And R334, R540, R541, R544: the mirror link's frames are formed and taken in order, a lockout in one raises its fault, a silent link is stale and reported,
and the fall of the permit line trips every string that starts, runs or stops. -/
def Obligations.SafetyLockout : Prop :=
  (
  ∀ s : State,
      let u := s.safe
      let locked := fun (t : State) (code : Nat) => t.safe.st = .lockout ∧ t.safe.last.code = code ∧ t.safe.last.fn = 0xFF ∧
        t.safe.inhibitOn = false ∧ t.safe.tripOn = false ∧ t.safe.line = false
      (∀ d, Next (exec (.safeClockCheck d) s) fun t => Only [.safe] s t ∧
        if 100000 < d.natAbs ∧ u.live = true then locked t 0x18 else t = s) ∧
      (∀ v : BitVec 16, Next (exec (.safeSealCheck v) s) fun t => Only [.safe] s t ∧
        if u.live = false ∨ u.sealIn = some v.toNat then t = s
        else match u.sealIn with
          | none => t.safe = { u with sealIn := some v.toNat }
          | some _ => locked t 0x17) ∧
      (∀ p h d, Next (exec (.safeChannelExchange p h d) s) fun t => Only [.safe] s t ∧
        if u.live = true ∧ u.st ≠ .lockout then
          if (p ≠ h ∧ u.differ.getD s.mono + 8000000 < s.mono) ∨ (d = true ∧ u.inDiffer.getD s.mono + 8000000 < s.mono) then
            locked t 0x10
          else t.safe.pPermit = p ∧ t.safe.hPermit = h ∧
            t.safe.differ = (if p ≠ h then some (u.differ.getD s.mono) else none) ∧
            t.safe.inDiffer = (if d = true then some (u.inDiffer.getD s.mono) else none) ∧
            t.safe.st = (if u.inhibitOn = true ∧ (p && h) = false then .stopped else u.st)
        else t = s) ∧
      (∀ (k : SafeTest) (r : TestResult), Next (exec (.safeSelftest k r) s) fun t => Only [.safe] s t ∧
        let n := match k with | .cpu => 0 | .ram => 1 | .rom => 2
        let period := match k with | .cpu => 4000000 | .ram => 8000000000 | .rom => 80000000000
        if r = .pass then t.safe = { u with testAt := u.testAt.set n s.mono }
        else if u.live = true ∧ (r = .fail ∨ max u.startAt (u.testAt.get 0 n) + 2 * period < s.mono) then locked t 0x1A
        else t = s) ∧
      (Next (exec .safeEdmTimeout s) fun t => Only [.safe] s t ∧
        match u.edm with
        | some (a, w) =>
          if s.mono < a + 800000000 then t = s
          else if u.live = true ∧ (u.lev 15 ≠ w ∨ u.lev 16 ≠ w) then locked t 0x12
          else t.safe = { u with edm := none }
        | none => t = s) ∧
      (∀ o, Next (exec (.safeReadbackTimeout o) s) fun t => Only [.safe] s t ∧ if u.live = true then locked t 0x11 else t = s) ∧
      (Next (exec .safeSupplyOut s) fun t => Only [.safe] s t ∧
        if u.supplied = true then t.safe.supplied = false ∧ t.safe.inhibitOn = false ∧ t.safe.tripOn = false ∧ t.safe.outAt = s.mono ∧
          t.safe.outOn = u.inhibitOn ∧ t.safe.st = u.st
        else t = s) ∧
      (Next (exec .safeSupplyReturn s) fun t => Only [.safe] s t ∧ t.safe.supplied = true ∧
        if u.supplied = true then t = s
        else if u.st = .lockout ∧ s.mono < u.outAt + 800000000 then t.safe = { u with supplied := true }
        else t.safe.st = .start ∧ t.safe.startAt = s.mono ∧ t.safe.fault = 0 ∧ t.safe.demand = 0 ∧ t.safe.sealIn = none ∧
          (u.outOn = true → t.safe.last.code = 0x19)) ∧
      (∀ v : BitVec 16, Next (exec (.safeStartDone v) s) fun t => Only [.safe] s t ∧
        if u.supplied = false ∨ u.st ≠ .start then t = s
        else if u.sealIn.getD v.toNat ≠ v.toNat then t.safe.st = .lockout ∧ t.safe.last.code = 0x17
        else t.safe.sealIn = some v.toNat ∧
          if v = 0 then t.safe.st = .unused ∧ t.safe.inhibitOn = false
          else if ∃ k : Fin 8, bit v.toNat k = bit v.toNat (k.val + 8) then t.safe.st = .lockout ∧ t.safe.last.code = 0x15
          else if (bit v.toNat 5 = true ∧ bit v.toNat 3 = false) ∨ (bit v.toNat 7 = true ∧ bit v.toNat 4 = false) then
            t.safe.st = .lockout ∧ t.safe.last.code = 0x16
          else t.safe.st = .stopped ∧ t.safe.sealOk = true)) ∧
  (
  ∀ s : State,
      let all : List Part := [.todo, .hatch, .notif, .par, .faults, .pantry, .safe]
      (Next (exec .safeMirrorSend s) fun t => Only [.safe] s t ∧
        if s.safe.supplied = true then t.safe = { s.safe with sent := s.safe.sent ++ [s.safe.form], events := [] } else t = s) ∧
      (s.safe.sent = [] → exec .safeMirrorRx s = .next s) ∧
      (∀ f r, s.safe.sent = f :: r →
        (s.sys.stage = .inReset → Next (exec .safeMirrorRx s) fun t => Only [.safe] s t ∧ t.safe = { s.safe with sent := r }) ∧
        (s.sys.stage ≠ .inReset → Lands (exec .safeMirrorRx s) fun e => Only all s e ∧
          e.safe = { s.safe with sent := r, frame := f, frameAt := s.shortNow, frameMono := s.mono, stale := false, faultAt :=
            (if f.last = s.safe.frame.last then s.safe.faultAt else s.shortNow) } ∧
          (f.st = 5 → { src := 0x79, inst := 0xFFFF, sub := 0 } ∉ s.faults.present → s.Fired e 0x79) ∧
          (f.st ≠ 5 → e.faults.firings = s.faults.firings ∧ { src := 0x79, inst := 0xFFFF, sub := 0 } ∉ e.faults.present) ∧
          (f.st ≠ 5 → f.events = [] → Only [.faults, .safe] s e))) ∧
      (let due := s.sys.stage ≠ .inReset ∧ s.safe.stale = false ∧ s.safe.frameMono + 80000000 ≤ s.mono
       (due → Lands (exec .safeMirrorTimeout s) fun e => Only all s e ∧ e.safe = { s.safe with stale := true } ∧
        ({ src := 0x78, inst := 0xFFFF, sub := 0 } ∉ s.faults.present → s.Fired e 0x78)) ∧
       (¬ due → exec .safeMirrorTimeout s = .next s)) ∧
      (∀ level : Bool,
        (s.safe.line ≠ level ∨ s.safe.permit = level ∨ s.sys.stage = .inReset → exec (.safePermitLineChange level) s = .next s) ∧
        (s.safe.line = level → s.safe.permit ≠ level → s.sys.stage ≠ .inReset → Lands (exec (.safePermitLineChange level) s) fun e =>
          e.safe = { s.safe with permit := level } ∧
          if level = true then Only [.twin, .safe] s e
          else Only [.hatch, .notif, .par, .twin, .pantry, .links, .mod, .prot, .dt, .safe] s e ∧
            ∀ str < 16,
              if (s.str str).st = .stopped ∨ (s.str str).st = .tripped then e.str str = { s.str str with plan := (e.str str).plan } ∧ e.prt str = s.prt str
              else (e.str str).st = .tripped ∧ (e.prt str).mask = 2 ^ 10 ∧ (e.prt str).first = 10)))

/-- R555 to R562, R565: energy accounting. A copy takes every port's registers and goes ahead of the older one; the end of a demand interval writes
each port's demand and its maximum and starts the next; the clock counts its seconds, or takes the one set, and the limits in effect follow; a limit
exceeded for the grace time is reported once; ENERGY_READ signs the readout and moves nothing; DEMAND_RESET sets the maxima of one port, or of all, to
0; RTC_SET waits for the second. A locked unit refuses the last two, and an event that is not due changes nothing. -/
def Obligations.EnergyAccounting : Prop :=
  ∀ s : State,
    let copyDue := s.sys.stage = .serving ∧ ∀ t, s.en.copyAt = some t → t + 720000000 ≤ s.mono
    let intervalDue := s.sys.stage = .serving ∧ s.bat.rtcSec / 900 * 900 ≠ s.en.from_
    (copyDue → Next (exec .energyCopyPeriod s) fun t => Only [.en] s t ∧ t.en.port = s.en.port ∧ t.en.copyAt = some s.mono ∧
      ∃ c, t.en.copies = c :: s.en.copies.take 1 ∧
        c.port.cells = s.en.port.cells.map (fun x => (x.1, x.2.kept)) ∧ c.cfgGen = s.en.cfgGen ∧ c.outages = s.en.outages ∧
        c.tampers = s.en.tampers ∧ c.from_ = s.en.from_ ∧ (∀ d, s.en.copies.head? = some d → c.seq = d.seq + 1)) ∧
    (¬ copyDue → exec .energyCopyPeriod s = .next s) ∧
    (intervalDue → Lands (exec .demandIntervalEnd s) fun e => Only [.par, .en] s e ∧
      e.en.from_ = s.bat.rtcSec / 900 * 900 ∧ (∀ n, 16 ≤ n ∨ s.enKind n = 0 → e.enPort n = s.enPort n) ∧
      ∀ n < 16, s.enKind n ≠ 0 →
        let x := s.enPort n
        let y := e.enPort n
        y.kept.lastImp = (x.kept.reg.get 0 0 - x.kept.imp0) * 4 / 1000 ∧ y.kept.lastExp = (x.kept.reg.get 0 1 - x.kept.exp0) * 4 / 1000 ∧
        y.kept.imp0 = x.kept.reg.get 0 0 ∧ y.kept.exp0 = x.kept.reg.get 0 1 ∧ y.kept.reg = x.kept.reg ∧ y.partial_ = false ∧
        y.kept.mdImp = (if x.partial_ then x.kept.mdImp else max x.kept.mdImp y.kept.lastImp) ∧
        y.kept.mdExp = (if x.partial_ then x.kept.mdExp else max x.kept.mdExp y.kept.lastExp)) ∧
    (¬ intervalDue → exec .demandIntervalEnd s = .next s) ∧
    (s.bat.powered = false → exec .rtcSecond s = .next s) ∧
    (s.bat.powered = true → Lands (exec .rtcSecond s) fun e => e.bat.secAt = s.mono ∧
      (s.sys.stage ≠ .serving → Only [.hatch, .par, .bat, .en] s e) ∧ (s.sys.stage = .serving → Only [.hatch, .par, .twin, .links, .bat, .en] s e) ∧
      ((∀ r, s.bat.rtcPending = some r → r.ptp = true) → e.bat = { s.bat with rtcSec := (s.bat.rtcSec + 1) % 2 ^ 32, secAt := s.mono } ∧
        e.hatch = s.hatch ∧ e.en.from_ = s.en.from_) ∧
      (∀ r, s.bat.rtcPending = some r → r.ptp = false → e.bat.rtcSec = r.sec ∧ e.bat.rtcSet = true ∧ e.bat.rtcPending = none ∧
        e.en.from_ = r.sec / 900 * 900 ∧ (∀ n < 16, (e.enPort n).partial_ = true) ∧
        (s.bat.log.length < 8 → e.bat.log = s.bat.log ++ [{ s.tampEntry 0x21 false s.bat.rtcSec with sec := r.sec, sub := 0 }]) ∧
        (8 ≤ s.bat.log.length → e.bat.log = s.bat.log ∧ e.bat.lost = min 65535 (s.bat.lost + 1)) ∧
        ∀ q, (s.box r.mb).taken = some q → (s.box r.mb).waiting = .rtcSet → s.Replies e r.mb q stOk (leBytes 4 r.sec)) ∧
      (s.sys.stage = .serving → ∀ n < 16,
        let v := s.peff 0x1505 n
        let limit := fun off => min (s.enZone n) (min (s.ps 0x1506 n off 2)
          (match if e.bat.rtcSet = true then schedIndex v e.bat.rtcSec else none with
            | some i => sAt v (8 + 8 * i + off) 2
            | none => 0x7FFF))
        (e.enPort n).limImp = limit 0 ∧ (e.enPort n).limExp = limit 2 ∧ (e.enPort n).kept = (s.enPort n).kept)) ∧
    (∀ n : Fin 16,
      let x := s.enPort n
      let due := x.armed = true ∧ ∃ t, x.over_ = some t ∧ t + 8000000 * s.pu 0x1506 n 4 2 ≤ s.mono
      (due → Lands (exec (.enGraceExpire n) s) fun e => Only [.todo, .hatch, .notif, .par, .faults, .pantry, .en] s e ∧ s.Fired e 0x80 ∧
        e.enPort n = { x with armed := false } ∧ ∀ m, m ≠ n.val → e.enPort m = s.enPort m) ∧
      (¬ due → exec (.enGraceExpire n) s = .next s)) ∧
    (∀ (mb : Fin 8) (q : Request),
      let refused := fun e st (x : Byte) => Only [.hatch] s e ∧ s.Replies e mb q st [x, 0, 0xFF, 0xFF]
      let n := uAt q.payload 0 1
      (s.Runs mb 0x1510 q → Lands (exec (.energyRead mb) s) fun e =>
        if 15 < n then refused e stBadParam 5
        else if s.enKind n = 0 then refused e stBadParam 0xD1
        else if s.fw.keyState ≠ .ready then refused e stRefused 0xD0
        else match s.fw.signKey with
          | none => refused e stFailed 0xD0
          | some k => Only [.freeCount, .hatch] s e ∧ e.freeCount = s.freeCount + 4 ∧ s.Replies e mb q stOk
              (s.readout n (slice q.payload 4 8) ++ ecdsaSign k (sha256 (s.readout n (slice q.payload 4 8))) s.freeKey)) ∧
      (s.Runs mb 0x1511 q → s.Writes mb 0x15 → Lands (exec (.demandReset mb) s) fun e =>
        if 15 < n ∧ n ≠ 0xFF then refused e stBadParam 5
        else if s.fw.locked = true then refused e stLocked 9
        else OnlyWrite [.faults, .en] s e ∧
          s.Accepts e mb q (leBytes 2 (min 65535 ((s.enPort (if n = 0xFF then 0 else n)).kept.resets + 1)) ++ [0, 0]) ∧
          ∀ m < 16,
            if m = n ∨ n = 0xFF then (e.enPort m).kept.mdImp = 0 ∧ (e.enPort m).kept.mdExp = 0 ∧ (e.enPort m).kept.mdImpRtc = 0 ∧
              (e.enPort m).kept.mdExpRtc = 0 ∧ (e.enPort m).kept.reg = (s.enPort m).kept.reg ∧
              (e.enPort m).kept.resets = min 65535 ((s.enPort m).kept.resets + 1)
            else e.enPort m = s.enPort m) ∧
      (s.Runs mb 0x1610 q → Lands (exec (.rtcSet mb) s) fun e =>
        let ptp := bit (uAt q.payload 4 1) 0
        if s.fw.locked = true then refused e stLocked 0xD4
        else if ptp = true ∧ s.p0 0x060E = 0 then refused e stRefused 0xD8
        else if s.bat.rtcPending.isSome = true then Only [.hatch, .par] s e ∧ s.Replies e mb q stBusy (leBytes 4 1000)
        else Only [.hatch, .bat] s e ∧ e.bat = { s.bat with rtcPending := some { mb, sec := uAt q.payload 0 4, ptp } } ∧
          (e.box mb).waiting = .rtcSet ∧ (e.box mb).state = .active ∧ (e.box mb).taken = some q ∧ ∀ m, m ≠ mb.val → e.box m = s.box m))

/-- R564 to R569: the battery domain. A tamper event zeroises the MRAM key and makes the secrets under it unreadable, writes its entry while the log has
room for it and else counts it as lost; TAMP_ZEROISE, a stopped oscillator, a low battery that carries the domain and each input that has failed
often enough are such events; a sample that does not fail clears its input's run; the log goes to the attic and is cleared; without power
everything is lost. -/
def Obligations.BatteryDomain : Prop :=
  ∀ s : State,
    let zeroised := fun (t : State) => t.bat.mramKey = 0 ∧ t.fw.signKey = none ∧ t.fw.kaKey = none ∧ t.fw.linkKeys = []
    let event := fun (t : State) (src : Nat) => zeroised t ∧ t.bat.signals = s.bat.signals + b2n s.corePresent ∧
      t.bat.logSeq = (s.bat.logSeq + 1) % 65536 ∧
      if s.bat.log.length < 8 then t.bat.log = s.bat.log ++ [s.tampEntry src true 0] ∧ t.bat.lost = s.bat.lost
      else t.bat.log = s.bat.log ∧ t.bat.lost = min 65535 (s.bat.lost + 1)
    (Next (exec .oscStopDetect s) fun t => if s.bat.powered = true then Only [.bat, .fw] s t ∧ event t 0x10 else t = s) ∧
    (∀ mv : BitVec 16, Next (exec (.vbatLowDetect mv) s) fun t => t.bat.vbat = mv.toNat ∧
      t.bat.vbatLow = (decide (mv.toNat < 2300) && s.bat.onVbat) ∧
      if mv.toNat < 2300 ∧ s.bat.onVbat = true ∧ s.bat.vbatLow = false ∧ s.bat.powered = true then Only [.bat, .fw] s t ∧ event t 0x11
      else Only [.bat] s t ∧ t.bat = { s.bat with vbat := mv.toNat, vbatLow := decide (mv.toNat < 2300) && s.bat.onVbat }) ∧
    (∀ l : BitVec 4, Next (exec (.tamperSample l) s) fun t =>
      if s.bat.powered = false then t = s
      else
        let run := fun i =>
          if (uAt (s.bat.tamp i) 0 1 = 1 ∧ bit l.toNat i = true) ∨ (uAt (s.bat.tamp i) 0 1 = 2 ∧ bit l.toNat i = false) ∨
            (uAt (s.bat.tamp i) 0 1 = 3 ∧ bit l.toNat i ≠ s.bat.drv) then s.bat.failing.get 0 i + 1 else 0
        let hits := (List.range 4).filter fun i => decide (run i ≠ 0 ∧ run i = max 1 (uAt (s.bat.tamp i) 1 1))
        t.bat.levels = l.toNat ∧ t.freeCount = s.freeCount + 1 ∧ (∀ i < 4, t.bat.failing.get 0 i = run i) ∧
        t.bat.log.map (·.source) = s.bat.log.map (·.source) ++ hits.take (8 - s.bat.log.length) ∧
        t.bat.lost = (if hits.length ≤ 8 - s.bat.log.length then s.bat.lost
          else min 65535 (s.bat.lost + (hits.length - (8 - s.bat.log.length)))) ∧
        if hits = [] then Only [.freeCount, .bat] s t ∧ t.bat.mramKey = s.bat.mramKey else Only [.freeCount, .bat, .fw] s t ∧ zeroised t) ∧
    (∀ (mb : Fin 8) (q : Request), s.Runs mb 0x1611 q → Lands (exec (.tampZeroise mb) s) fun e =>
      if uAt q.payload 0 4 = 0x5A45524F then Only [.hatch, .bat, .fw] s e ∧ event e 0x20 ∧ s.Replies e mb q stOk []
      else Only [.hatch] s e ∧ s.Replies e mb q stBadParam [0xD5, 0, 0xFF, 0xFF]) ∧
    (s.sys.stage ≠ .serving → exec .tamperLogCopy s = .next s) ∧
    (s.sys.stage = .serving → Lands (exec .tamperLogCopy s) fun e =>
      let k := (s.bat.log.filter fun x => bit x.flags 1).length
      Only [.todo, .hatch, .notif, .par, .faults, .bat, .pantry, .en] s e ∧
      e.bat = { s.bat with log := [], copied := if s.bat.log = [] then s.bat.copied else (s.bat.log.reverse ++ s.bat.copied).take 8 } ∧
      e.faults.firings.get 0 0x81 = (if k = 0 then s.faults.firings.get 0 0x81 else min (2 ^ 32 - 1) (s.faults.firings.get 0 0x81 + k)) ∧
      e.en = { s.en with tampers := if k = 0 then s.en.tampers else min 65535 (s.en.tampers + k) }) ∧
    (∀ v, Next (exec (.batterySwitchover v) s) fun t => Only [.bat] s t ∧ t.bat = { s.bat with onVbat := v, vbatLow := false }) ∧
    (Next (exec .batteryDomainPowerLoss s) fun t =>
      if s.bat.powered = true then Only [.bat, .fw] s t ∧ zeroised t ∧ t.bat = { copied := s.bat.copied, rtcPending := s.bat.rtcPending, powered := false }
      else t = s) ∧
    (Next (exec .batteryDomainPowerReturn s) fun t =>
      if s.bat.powered = false then Only [.bat] s t ∧
        t.bat = { copied := s.bat.copied, rtcPending := s.bat.rtcPending, powered := true, powerOn := true, secAt := s.mono }
      else t = s)

/-- R580, R583 to R587, R589 to R591, R594 to R596: a record that has changed is copied to the attic's mirror and stays as it is; a chip reset waits for
every record's copy or its time, and no longer; FAULT_READ answers a record, or the next one, and marks it read, or answers zeros; FAULT_CLEAR removes
a record that has been read and whose sources are absent, and no other, or ends the overflow while a place is free; FAULT_INJECT joins the record its
firing merges into, or opens one marked INJECTED, and is refused in the field. -/
def Obligations.FaultRecords : Prop :=
  ∀ s : State,
    (∀ id : BitVec 32, Next (exec (.faultRecordMirror id) s) fun t =>
      match s.faults.open_.find? fun x => x.id == id.toNat with
      | none => t = s
      | some r =>
        if r.dirty = false then t = s
        else Only [.faults] s t ∧ t.faults.open_ = recSet s.faults.open_ { r with dirty := false } ∧ t.faults.firings = s.faults.firings ∧
          t.faults.mirror = (s.faults.mirror.filter fun x => x.id != r.id) ++ [{ r with dirty := false }] ∧ t.faults.attic = s.faults.attic) ∧
    (∀ (src rec_ t : Nat), s.faults.chipResetDue = some (src, rec_, t) →
      (t ≤ s.mono ∨ (∀ r ∈ s.faults.open_, r.dirty = false) → Lands (exec .faultChipResetDue s) fun e =>
        Only [.todo, .faults] s e ∧ e.faults = { s.faults with chipResetDue := none } ∧ e.todo = s.todo ++ [.chipReset 4 src]) ∧
      (s.mono < t → (∃ r ∈ s.faults.open_, r.dirty = true) → exec .faultChipResetDue s = .next s)) ∧
    (s.faults.chipResetDue = none → exec .faultChipResetDue s = .next s) ∧
    (∀ (mb : Fin 8) (q : Request),
      let refused := fun e st (x : Byte) => Only [.hatch] s e ∧ s.Replies e mb q st [x, 0, 0xFF, 0xFF]
      let id := uAt q.payload 0 4
      (s.Runs mb 0x1710 q → Lands (exec (.faultRead mb) s) fun e =>
        match s.faults.open_.find? fun x => if bit (uAt q.payload 4 1) 0 then decide (id < x.id) else x.id == id with
        | none => Only [.hatch] s e ∧ s.Replies e mb q stOk (List.replicate 80 0)
        | some r => Only [.hatch, .faults] s e ∧ s.Replies e mb q stOk (s.faults.recBytes { r with read := true, dirty := true }) ∧
            e.faults = { s.faults with open_ := recSet s.faults.open_ { r with read := true, dirty := true } }) ∧
      (s.Runs mb 0x1711 q → Lands (exec (.faultClear mb) s) fun e =>
        let cleared := fun (l : List FaultRec) => Only [.hatch, .faults] s e ∧ e.faults.open_ = l ∧ e.faults.pinLow = e.faults.pinWanted ∧
          e.faults.firings = s.faults.firings ∧ s.Replies e mb q stOk (leBytes 1 l.length ++ leBytes 1 (l.filter (·.pin)).length ++ [0, 0])
        if id = 2 ^ 32 - 1 then
          if 64 ≤ s.faults.open_.length then refused e stRefused 0xE2
          else cleared s.faults.open_ ∧ e.faults.overflow = false ∧ e.faults.overflowPin = false ∧ e.faults.mirror = s.faults.mirror
        else match s.faults.open_.find? fun x => x.id == id with
          | none => refused e stBadParam 0xE0
          | some r =>
            if s.faults.recPresent r = true then refused e stRefused 0xE1
            else if r.read = false then refused e stRefused 0xE3
            else cleared (s.faults.open_.filter fun x => x.id != id) ∧ e.faults.mirror = s.faults.mirror.filter (fun x => x.id != id) ∧
              e.faults.overflow = s.faults.overflow) ∧
      (s.Runs mb 0x1712 q → Lands (exec (.faultInject mb) s) fun e =>
        let src := uAt q.payload 0 1
        let limit := uAt q.payload 1 1
        let inst := uAt q.payload 2 2
        let react := min (s.pu 0x1701 src 0 1) limit
        let pin := bit (s.pu 0x1701 src 1 1) 0
        if 4 < limit then refused e stBadParam 5
        else if faultSource src = none then refused e stBadParam 0xE6
        else if 3 ≤ limit ∧ ¬ ∀ n < 16, (s.str n).st = .stopped then refused e stRefused 0xE4
        else if s.fw.lc = .field then refused e stRefused 0xE7
        else Only [.todo, .hatch, .notif, .par, .faults, .pantry] s e ∧ s.Fired e src ∧
          match s.fireTarget src inst with
          | some (r, _) => s.Replies e mb q stOk (leBytes 4 r.id) ∧ e.faults.open_ = recSet s.faults.open_ { r with
              secondary := if r.secondary.contains src then r.secondary else r.secondary ++ [src], merges := min (2 ^ 32 - 1) (r.merges + 1),
              tickLast := s.now, pin := r.pin || pin, reaction := max r.reaction react, dirty := true }
          | none =>
            if (0 < react ∨ pin = true) ∧ s.faults.open_.length < 64 then
              ∃ r, e.faults.open_ = s.faults.open_ ++ [r] ∧ r.primary = src ∧ r.inst = inst ∧ r.inj = true ∧ r.real = false ∧ r.pin = pin ∧
                r.arg = slice q.payload 4 4 ∧ r.reaction = react ∧ r.tickFirst = s.now ∧ r.tickLast = s.now ∧
                (r.id ≠ s.faults.lastId → s.Replies e mb q stOk (leBytes 4 r.id))
            else e.faults.open_ = s.faults.open_ ∧ s.Replies e mb q stOk [0, 0, 0, 0] ∧
              (0 < react ∨ pin = true → e.faults.overflow = true)))

/-- R601 to R603, R605 to R607, R610: LOFT_WRITE copies pantry bytes into the loft and nowhere else, and the loft is WRITTEN; LOFT_VERIFY sets VERIFIED
where its checks pass; LOFT_SCHEDULE sets or cancels the time, and needs a verified loft; each acts here, in the standby or in both as its UNIT
says. At that time the unit goes into a chip reset for the new image, or skips it where a string runs; the start is confirmed once every fatal
check has passed, and reverts after 5 s; a checked endpoint item is stored in its slot; EP_IMAGE_SEND queues the first chunk on the first of
its lanes that works, and answers at once where there is none. -/
def Obligations.LoftAndImages : Prop :=
  ∀ s : State,
    (∀ (mb : Fin 8) (q : Request),
      let unit := uAt q.payload 0 1
      let refused := fun (e : State) (st reason : Nat) => Only [.hatch] s e ∧ s.Replies e mb q st (leBytes 1 reason ++ [0, 0xFF, 0xFF])
      let shut := fun (l : List Part) (e : State) (reason st : Nat) => Only (.hatch :: l) s e ∧
        s.Replies e mb q st (leBytes 1 reason ++ [0, 0xFF, 0xFF])
      let took := fun (l : List Part) (e : State) (payload : Bytes) =>
        if unit = 0 then Only (.hatch :: l) s e ∧ s.Replies e mb q stOk payload else Only (.hatch :: .twin :: .links :: l) s e ∧ s.Forwards e mb payload
      (s.Runs mb 0x1810 q → Lands (exec (.loftWrite mb) s) fun e =>
        let off := uAt q.payload 4 4
        let dst := uAt q.payload 8 4
        let n := uAt q.payload 12 4
        if 2 < unit ∨ off % 4 ≠ 0 ∨ dst % 4 ≠ 0 ∨ n < 4 ∨ 131072 < n ∨ 0x1C0000 < off + n ∨ 0x200000 < dst + n then refused e stBadParam 5
        else if 1 ≤ unit ∧ s.hasStandby = false then shut [.par, .pantry] e 0x22 stBadParam
        else if 1 ≤ unit ∧ s.forwardBarred = true then shut [.par, .pantry] e 0x80 stRefused
        else took [.par, .pantry, .fw] e [] ∧
          if unit = 1 then e.fw = s.fw
          else e.fw = { s.fw with loft := { mem := e.fw.loft.mem }, loftSt := .written, activateAt := 0 } ∧
            (s.fw.loft.mem.wf = true → e.fw.loft.mem.readN dst n = s.mpRead off n ∧
              ∀ a, a < dst ∨ dst + n ≤ a → e.fw.loft.mem.read a = s.fw.loft.mem.read a)) ∧
      (s.Runs mb 0x1811 q → Lands (exec (.loftVerify mb) s) fun e =>
        if 2 < unit then refused e stBadParam 5
        else if unit = 1 then e.fw = s.fw ∧ e.freeCount = s.freeCount + 1 ∧
          if s.hasStandby = false then shut [.freeCount] e 0x22 stBadParam
          else if s.forwardBarred = true then shut [.freeCount] e 0x80 stRefused
          else took [.freeCount] e (leBytes 8 s.freeVal)
        else match s.loftFault with
          | some r => refused e r.1 r.2
          | none =>
            if unit = 2 ∧ Config.peerVersion.toNat < s.fw.loft.pairMin then refused e stRefused 0xF8
            else if unit = 2 ∧ s.hasStandby = false then refused e stBadParam 0x22
            else if unit = 2 ∧ s.forwardBarred = true then refused e stRefused 0x80
            else took [.fw] e (leBytes 4 s.fw.loft.version ++ leBytes 4 s.fw.loft.pairMin) ∧
              e.fw = { s.fw with loftSt := .verified, activateAt := 0 }) ∧
      (s.Runs mb 0x1812 q → Lands (exec (.loftSchedule mb) s) fun e =>
        let t := uAt q.payload 8 8
        if 2 < unit then refused e stBadParam 5
        else if unit ≠ 1 ∧ s.fw.loftSt ≠ .verified ∧ s.fw.loftSt ≠ .scheduled then refused e stRefused 0xF9
        else if t ≠ 0 ∧ t < s.now + 8000000 then refused e stBadParam 0xFA
        else if 1 ≤ unit ∧ s.hasStandby = false then refused e stBadParam 0x22
        else if 1 ≤ unit ∧ s.forwardBarred = true then refused e stRefused 0x80
        else took [.fw] e [] ∧ e.fw = if unit = 1 then s.fw else
          { s.fw with loftSt := if t = 0 then .verified else .scheduled, activateAt := t }) ∧
      (s.Runs mb 0x1813 q → s.Writes mb 0x18 → Lands (exec (.epImageStore mb) s) fun e =>
        let slot := uAt q.payload 0 1
        let off := uAt q.payload 4 4
        let n := uAt q.payload 8 4
        let rd := fun o k => slice (s.mpRead off n) o k
        if 1 < slot ∨ 524288 < n ∨ 0x1C0000 < off + n then refused e stBadParam 5
        else match s.itemFault rd [2] n with
          | some r => shut [.par, .pantry] e r.2 r.1
          | none =>
            if s.fw.tooOld rd = true then shut [.par, .pantry] e 0xF4 stRefused
            else OnlyWrite [.par, .pantry, .fw] s e ∧ ((∀ x, s.fw.sending = some x → x.mb ≠ mb) → s.Answers e mb q []) ∧
              (s.fw.sending = none → s.Accepts e mb q []) ∧
              (e.fw.slot.get {} slot).valid = true ∧ (e.fw.slot.get {} slot).length = n ∧
              (e.fw.slot.get {} slot).version = hdr rd 8 4 ∧ (e.fw.slot.get {} slot).imageId = hdr rd 24 2 ∧
              (∀ k, k ≠ slot → e.fw.slot.get {} k = s.fw.slot.get {} k) ∧ e.fw.rollback (hdr rd 24 2) = some (itemVersion rd) ∧
              (∀ x, s.fw.sending = some x → e.fw.sending = if x.slot = slot then none else some x)) ∧
      (s.Runs mb 0x1814 q → Lands (exec (.epImageSend mb) s) fun e =>
        let slot := uAt q.payload 0 1
        let first := uAt q.payload 1 1
        let count := uAt q.payload 2 1
        let works := (s.imageLanes slot first count).filter fun l => (s.lane l).st.working
        if 1 < slot ∨ 127 < first ∨ 128 < first + count then refused e stBadParam 5
        else if s.fw.sending.isSome = true then Only [.hatch, .par] s e ∧ s.Replies e mb q stBusy (leBytes 4 1000)
        else if works = [] ∨ (s.fw.slot.get {} slot).chunks = 0 then Only [.hatch, .fw] s e ∧ e.fw = s.fw ∧
          s.Replies e mb q stOk (leBytes 1 works.length ++ [0, 0, 0])
        else Only [.hatch, .links, .fw] s e ∧ (e.box mb).state = .active ∧ (e.box mb).waiting = .epImage ∧ (e.box mb).taken = some q ∧
          ∃ l rest, (s.imageLanes slot first count).dropWhile (fun l => !(s.lane l).st.working) = l :: rest ∧
            e.fw = { s.fw with sending := some { mb, slot, lanes := l :: rest, next := 1 } } ∧
            (e.lnk l).queue.length = (s.lnk l).queue.length + 1 ∧ s.OneLink e l)) ∧
    (let due := s.fw.loftSt = .scheduled ∧ s.fw.activateAt ≤ s.now ∧ s.time.running = true
     (¬ due → exec .loftActivateAt s = .next s) ∧
     (due → s.twin.role = .active → (∃ str < 16, s.strStopped str = false) → Lands (exec .loftActivateAt s) fun e =>
        Only [.hatch, .notif, .par, .faults, .pantry, .fw] s e ∧ e.fw = { s.fw with loftSt := .verified, activateAt := 0 }) ∧
     (due → (s.twin.role = .active → ∀ str < 16, s.strStopped str = true) → s.sys.stage ≠ .inReset → Lands (exec .loftActivateAt s) fun e =>
        e.sys.stage = .inReset ∧ e.sys.cause = 7 ∧ e.fw.boot = .exchange s.mono ∧ e.fw.loft = s.fw.loft ∧ e.fw.active = s.fw.active)) ∧
    ((∀ t, s.fw.boot ≠ .confirm t) → exec .fwConfirm s = .next s ∧ exec .fwConfirmTimeout s = .next s) ∧
    (∀ t, s.fw.boot = .confirm t →
      (s.sys.stage = .serving → (∀ b < 8, (s.twin.checkAt.get? b).isSome = true) → Lands (exec .fwConfirm s) fun e =>
        Only [.hatch, .notif, .par, .faults, .pantry, .fw] s e ∧
        e.fw = { s.fw with boot := .none, result := 1, slot0 := max s.fw.slot0 s.fw.active.version }) ∧
      (s.sys.stage ≠ .serving ∨ (∃ b < 8, s.twin.checkAt.get? b = none) → exec .fwConfirm s = .next s) ∧
      (t + 40000000000 ≤ s.mono → s.sys.stage ≠ .inReset → Lands (exec .fwConfirmTimeout s) fun e =>
        e.sys.stage = .inReset ∧ e.sys.cause = 7 ∧ e.fw.boot = .revert) ∧
      (s.mono < t + 40000000000 → exec .fwConfirmTimeout s = .next s))

/-- R612 to R619: the owner lock is set without a token and released by one that verifies; the life-cycle goes only where R618 lets it: a FACTORY
unit becomes PROVISIONED with the owner's key, new unit keys and a wiped strongbox, and every other transition needs a token of its signer;
ATTIC_READ answers the oldest entries from a sequence number on.
And R602, R612 to R615: PKG_APPLY checks its item, the life-cycle and, for a package, the load, the supply and the lock, and then every record; a sound
package is applied whole, its roll and loop tables committed, and a KEYS item for this unit installs its keys and makes the unit's own keys
ready. A refusal applies nothing. -/
def Obligations.KeysAndLifeCycle : Prop :=
  (
  ∀ (s : State) (mb : Fin 8) (q : Request),
      let refused := fun (e : State) (st : Nat) (x : Byte) => Only [.hatch] s e ∧ s.Replies e mb q st [x, 0, 0xFF, 0xFF]
      let drawn := fun (e : State) => Only [.freeCount, .hatch, .fw] s e ∧ e.fw = { s.fw with challenge := s.freeVal } ∧
        s.Replies e mb q stBadParam [0xFE, 0, 0xFF, 0xFF]
      let code := uAt q.payload 0 1
      (s.Runs mb 0x1816 q → s.Writes mb 0x18 → Lands (exec (.ownerLock mb) s) fun e =>
        if code = 1 then OnlyWrite [.fw] s e ∧ e.fw = { s.fw with locked := true } ∧ s.Accepts e mb q []
        else if code = 2 then
          if s.tokenOk s.fw.ownerKey 0x1816 [2] (slice q.payload 4 64) = true then OnlyWrite [.freeCount, .fw] s e ∧
            e.fw = { s.fw with locked := false, challenge := s.freeVal } ∧ s.Accepts e mb q []
          else drawn e
        else refused e stBadParam 5) ∧
      (s.Runs mb 0x1817 q → Lands (exec (.lcSet mb) s) fun e =>
        let arg := slice q.payload 4 64
        let moved := fun (new : LcState) (challenge : Nat) =>
          Only [.freeCount, .hatch, .notif, .par, .faults, .sys, .bat, .pantry, .en, .fw] s e ∧ e.fw.lc = new ∧ e.fw.challenge = challenge ∧
          e.pantry.wiping = some (3, s.mono) ∧ e.pantry.linkKeys = [] ∧ e.sys.opening = none ∧ s.Replies e mb q stOk [] ∧
          (s.fw.lc = .factory → e.fw.ownerKey = some arg ∧ e.fw.keyState = .new ∧ e.fw.keyGen = (s.fw.keyGen + 1) % 65536 ∧
            e.fw.locked = s.fw.locked) ∧
          (s.fw.lc ≠ .factory → new = .returned → e.bat.mramKey = 0 ∧ e.fw.signKey = none ∧ e.fw.ownerKey = none ∧ e.fw.locked = false) ∧
          (s.fw.lc ≠ .factory → new ≠ .returned → e.fw.ownerKey = s.fw.ownerKey ∧ e.fw.locked = s.fw.locked ∧ e.bat = s.bat)
        let by_ := fun (new : LcState) (key : Option Bytes) =>
          if s.tokenOk key 0x1817 [code] arg = true then moved new s.freeVal else drawn e
        if s.twin.role ≠ .maint ∧ s.twinEn = true then Only [.hatch] s e ∧ s.Turned e mb q stNotInRole [0x8B, 0, 0xFF, 0xFF]
        else if 3 < code then refused e stBadParam 5
        else if ¬ ∀ str < 16, (s.str str).st = .stopped then refused e stRefused 0xFF
        else if s.sys.jtag = .extest then refused e stRefused 0x97
        else match s.fw.lc, code with
          | .factory, 1 => moved .provisioned s.fw.challenge
          | .provisioned, 2 => by_ .field s.fw.ownerKey
          | .field, 1 => by_ .provisioned s.fw.ownerKey
          | .provisioned, 3 => by_ .returned s.fw.ownerKey
          | .field, 3 => by_ .returned s.fw.ownerKey
          | .returned, 0 => by_ .factory s.vendorKey
          | _, _ => refused e stRefused 0xFD) ∧
      (s.Runs mb 0x1818 q → Lands (exec (.atticRead mb) s) fun e =>
        let n := uAt q.payload 4 1
        if n < 1 ∨ 15 < n then refused e stBadParam 5
        else Only [.hatch] s e ∧ s.Replies e mb q stOk
          (match (s.faults.attic.filter fun x => decide (0 ≤ sdiff 32 (uAt x 0 4) (uAt q.payload 0 4))).take n with
            | [] => leBytes 4 s.faults.atticSeq ++ [0, 0, 0, 0]
            | x :: r => leBytes 4 (uAt x 0 4) ++ leBytes 1 (r.length + 1) ++ [0, 0, 0] ++ x ++ r.flatten))) ∧
  (
  ∀ (s : State) (mb : Fin 8) (q : Request), s.Runs mb 0x1815 q → Lands (exec (.pkgApply mb) s) fun e =>
      let unit := uAt q.payload 0 1
      let off := uAt q.payload 4 4
      let n := uAt q.payload 8 4
      let d := s.mpRead off n
      let rd := fun o k => slice d o k
      let kind := itemKind rd
      let refused := fun (st reason index : Nat) => Only [.hatch, .par, .faults, .pantry] s e ∧ s.Replies e mb q st (s.pkgReply index reason)
      let busy := fun (us_ : Nat) => Only [.hatch, .par, .pantry] s e ∧ s.Replies e mb q stBusy (leBytes 4 us_)
      if 1 < unit ∨ 0x1C0000 < off + n then refused stBadParam 5 0xFFFF
      else if (kind = 3 ∨ unit = 1) ∧ s.twin.handoverUntil.isSome = true then busy 20
      else if (kind = 3 ∨ unit = 1) ∧ s.forwardBarred = true then refused stRefused 0x80 0xFFFF
      else if s.roll.pend.isSome = true then busy s.rollRetry
      else if s.le.pend.isSome = true then busy (ceilDiv (s.p0 0x0B02) 8000)
      else match s.itemFault rd [3, 4] n with
        | some f => refused f.1 f.2 0xFFFF
        | none =>
          if s.fw.lc = .factory ∨ s.fw.lc = .returned then refused stRefused 0xF7 0xFFFF
          else if (kind = 3 ∧ 131072 < itemBodyLen rd) ∨ (kind = 4 ∧ itemBodyLen rd % 32 ≠ 0) then refused stBadParam 0xF0 0xFFFF
          else if kind = 3 then
            let body := rd 192 (itemBodyLen rd)
            let l := pkgRecords body.length body
            if unit ≠ 0 then refused stBadParam 5 0xFFFF
            else if s.pkgLoad = true then refused stRefused 0xF5 0xFFFF
            else if (s.mpTook off n).pkgSupply = true then refused stRefused 0xF6 0xFFFF
            else if s.fw.locked = true then refused stLocked 9 0xFFFF
            else match (s.mpTook off n).pkgFailure l.1 l.2 with
              | some k => refused stBadParam 0xFB k
              | none =>
                let t := ((((s.mpTook off n).pkgWrite l.1 s.adoptSince).updFw fun f => { f with pkg := some (mb, pkgPages l.1) }).pkgLog 3 0 0)
                e = t.finishWrite mb q (t.pkgReply 0xFFFF 0) (d ++ leBytes 8 s.adoptSince) ∧ e.fw = { s.fw with pkg := some (mb, pkgPages l.1) } ∧
                e.roll.gen = (if pkgHas l.1 [2] then (if s.roll.gen = 2 ^ 32 - 1 then 1 else s.roll.gen + 1) else s.roll.gen) ∧
                e.le.gen = (if pkgHas l.1 [3, 4] then (if s.le.gen = 2 ^ 32 - 1 then 1 else s.le.gen + 1) else s.le.gen)
          else if unit = 0 then
            match s.unwrapKeys (rd 64 64) (itemBodyLen rd / 32) (d.drop 192) with
            | none => refused stBadParam 0xFC 0xFFFF
            | some keys => Only [.hatch, .par, .faults, .pantry, .fw] s e ∧
                e.fw = { s.fw with linkKeys := keysPut s.fw.linkKeys keys, keyState := .ready } ∧
                e.pantry.linkKeys = (if s.pantry.wiping.isSome = true then s.pantry.linkKeys else keysPut s.pantry.linkKeys keys) ∧
                s.Replies e mb q stOk (s.pkgReply 0xFFFF 0)
          else if s.hasStandby = false then refused stBadParam 0x22 0xFFFF
          else Only [.hatch, .par, .twin, .pantry, .links] s e ∧ s.Forwards e mb (s.pkgReply 0xFFFF 0))

/-- R626, R632, R634 to R637, R645, R650: outside reset a low rail, RESET_N, a lost clock, the watchdog and the end of EXTEST start a chip reset with
their cause: the parameters, mailboxes, strings, lanes, tick time and role go back to their reset values, and the stored values, the fault
mirror, the attic, the stored tables, the clock of the battery domain and the safety island's state are kept; a start not yet confirmed is
taken back by the watchdog. In reset a hold joins the others, and of causes of one instant the one first in the table is recorded. A held
watchdog, and an end of EXTEST while it is not loaded, change nothing. -/
def Obligations.ChipResets : Prop :=
  ∀ s : State,
    (∀ (c : Instr) (cause : Nat), s.sys.stage ≠ .inReset →
      (c = .resetNAssert ∧ cause = 2) ∨ (c = .clockLoss ∧ cause = 6) ∨ (∃ r : Fin 5, c = .supplyMonitorLow r ∧ cause = 1) ∨
        (c = .watchdogExpire ∧ s.wdtHeld = false ∧ cause = 5) ∨ (c = .extestExit ∧ s.sys.jtag = .extest ∧ cause = 2) →
      Lands (exec c s) fun e => e.sys.stage = .inReset ∧ e.sys.cause = cause ∧ e.sys.gated = true ∧ e.sys.opening = none ∧
        (∀ n, e.box n = {}) ∧ e.par.eff = {} ∧ e.par.shadow = {} ∧ e.par.store = s.par.store ∧ e.mod = {} ∧ e.prot = {} ∧ e.lanes = {} ∧
        e.links = {} ∧ e.time = {} ∧ e.twin = {} ∧ e.faults.open_ = [] ∧ e.faults.mirror = s.faults.mirror ∧
        e.faults.attic = s.faults.attic ∧ e.roll.stored = s.roll.stored ∧ e.le.stored = s.le.stored ∧ e.hk.recs = s.hk.recs ∧
        e.bat.rtcSec = s.bat.rtcSec ∧ e.bat.mramKey = s.bat.mramKey ∧ e.fw.lc = s.fw.lc ∧ e.fw.locked = s.fw.locked ∧
        e.fw.signKey = s.fw.signKey ∧ e.safe.st = s.safe.st ∧ e.safe.demand = s.safe.demand ∧ e.pending = s.pending ∧ e.mono = s.mono ∧
        ((∀ r : Fin 5, c = .supplyMonitorLow r → r ≠ 0) → s.sys.hold.rails.contains 0 = false →
          e.sys.resets = min 65535 (s.sys.resets + 1)) ∧ (c = .supplyMonitorLow 0 → e.sys.resets = 0) ∧
        (c = .resetNAssert → e.sys.hold.pin = true ∧ e.sys.pll = .off) ∧ (c = .clockLoss → e.sys.hold.clock = true ∧ e.sys.pll = .off) ∧
        (∀ r : Fin 5, c = .supplyMonitorLow r → r.val ∈ e.sys.hold.rails ∧ e.sys.pll = .off) ∧
        (∀ t, c = .watchdogExpire → s.fw.boot = .confirm t → e.fw.boot = .revert)) ∧
    (s.sys.stage = .inReset →
      let cause := fun (n : Nat) => if s.sys.resetAt = some s.mono ∧ n < s.sys.cause then n else s.sys.cause
      (Lands (exec .resetNAssert s) fun e => Only [.sys] s e ∧ e.sys.stage = .inReset ∧ e.sys.hold = { s.sys.hold with pin := true } ∧
        e.sys.pll = .off ∧ e.sys.cause = cause 2) ∧
      (Lands (exec .clockLoss s) fun e => Only [.sys] s e ∧ e.sys.stage = .inReset ∧ e.sys.hold = { s.sys.hold with clock := true } ∧
        e.sys.pll = .off ∧ e.sys.refclk = false ∧ e.sys.cause = cause 6) ∧
      (∀ r : Fin 5, Lands (exec (.supplyMonitorLow r) s) fun e => Only [.sys] s e ∧ e.sys.stage = .inReset ∧ r.val ∈ e.sys.hold.rails ∧
        (∀ n ∈ s.sys.hold.rails, n ∈ e.sys.hold.rails) ∧ e.sys.pll = .off ∧ e.sys.cause = cause 1 ∧ (r = 0 → e.sys.resets = 0)) ∧
      (s.sys.jtag = .extest → Lands (exec .extestExit s) fun e => Only [.sys] s e ∧ e.sys.stage = .inReset ∧ e.sys.jtag = .bypass)) ∧
    ((s.sys.stage = .inReset ∨ s.wdtHeld = true) → exec .watchdogExpire s = .next s) ∧
    (s.sys.jtag ≠ .extest → exec .extestExit s = .next s)

/-- R46, R418, R472, R493, R602, R607, R626, R628 to R630, R632, R634, R638, R639, R641: how a unit starts. A hold ends, and the last one that does lets
the main PLL lock; its lock ends reset with tick time at 0 and the level of HOST_SEL; the boot ROM carries out the plan for the images and starts
a sound one once the strongbox is wiped, or serves the recovery hatch; Ubfer serves the hatch; SYNC_IN aligns after the lock; the dividers take up
their value; the PCI Express link comes up; VDD_FIELD's loss ends the driving of the gates and its return starts it. Out of its time each of
them changes nothing. -/
def Obligations.Starting : Prop :=
  ∀ s : State,
    (let pll := fun (h : ResetHold) => if s.sys.stage = .inReset ∧ h.pin = false ∧ h.rails = [] ∧ h.clock = false ∧ s.sys.pll = .off then .locking
      else s.sys.pll
     (Next (exec .supplyMonitorRestore s) fun t => Only [.sys] s t ∧
        t.sys = { s.sys with hold := { s.sys.hold with rails := [] }, pll := pll { s.sys.hold with rails := [] } }) ∧
     (Next (exec .resetNRelease s) fun t => Only [.sys] s t ∧
        t.sys = { s.sys with hold := { s.sys.hold with pin := false }, pll := pll { s.sys.hold with pin := false } }) ∧
     (Next (exec .clockRestored s) fun t => Only [.freeCount, .sys] s t ∧ t.freeCount = s.freeCount + 1 ∧
        t.sys = { s.sys with hold := { s.sys.hold with clock := false }, pll := pll { s.sys.hold with clock := false }, refclk := true,
                             refOffset := t.sys.refOffset } ∧ -1000 ≤ t.sys.refOffset ∧ t.sys.refOffset ≤ 1000)) ∧
    (∀ sel : Bool,
      let due := s.sys.stage = .inReset ∧ s.sys.hold.pin = false ∧ s.sys.hold.rails = [] ∧ s.sys.hold.clock = false ∧ s.sys.pll = .locking
      (¬ due → exec (.mainPllLock sel) s = .next s) ∧
      (due → Next (exec (.mainPllLock sel) s) fun t => Only [.hatch, .sys, .time, .twin, .pantry] s t ∧
        t.hatch = { s.hatch with qspi := sel } ∧ t.sys = { s.sys with stage := .bootRom, gated := false, pll := .locked } ∧ t.now = 0 ∧
        t.time.running = true ∧ t.twin = { s.twin with aliveOut := true } ∧ t.pantry.mem = s.pantry.mem)) ∧
    (¬ (s.sys.stage = .bootRom ∧ s.pantry.wiping = none) → exec .bootRomCheckDone s = .next s) ∧
    (s.sys.stage = .bootRom → s.pantry.wiping = none →
      let swapped : Firm := { s.fw with active := s.fw.loft, loft := s.fw.active, loftSt := .previous, activateAt := 0 }
      let f : Firm := match s.fw.boot with
        | .exchange t =>
          if s.bootable s.fw.loft = true then { swapped with boot := .confirm t }
          else if s.fw.loftSt = .scheduled then { s.fw with loftSt := .verified, activateAt := 0, boot := .none, report := some 3 }
          else { s.fw with boot := .none, report := some 3 }
        | .revert => { swapped with boot := .none, report := some 2 }
        | _ => s.fw
      (({ s with fw := f } : State).bootable f.active = true → Next (exec .bootRomCheckDone s) fun t => Only [.sys, .fw] s t ∧ t.fw = f ∧
        t.sys = { s.sys with stage := .ubferStarting }) ∧
      (({ s with fw := f } : State).bootable f.active = false → Lands (exec .bootRomCheckDone s) fun e =>
        Only [.hatch, .notif, .par, .sys, .pantry, .fw] s e ∧ e.fw = f ∧
        e.sys = { s.sys with stage := .recovery, bootResult := 1, hatchSeen := true })) ∧
    (s.sys.stage = .ubferStarting → Lands (exec .ubferReady s) fun e => e.sys.stage = .serving ∧ e.sys.hatchSeen = true ∧
      e.lanes.readyAt = some s.mono ∧ e.roll.gen = s.roll.storedGen ∧ e.pantry.linkKeys = e.fw.linkKeys ∧ e.pending = s.pending) ∧
    (s.sys.stage ≠ .ubferStarting → exec .ubferReady s = .next s) ∧
    (s.sys.pll = .locked → Next (exec .syncInEdge s) fun t => Only [.sys] s t ∧ t.sys = { s.sys with syncAligned := true }) ∧
    (s.sys.pll ≠ .locked → Next (exec .syncInEdge s) fun t => t = s) ∧
    (∀ v, s.time.running = true → s.par.shadow.get? (pKey 0x1902 noInst) = some v → Next (exec .clockDivBoundary s) fun t =>
      Only [.par] s t ∧ t.peff 0x1902 noInst = v ∧ t.par.shadow = s.par.shadow ∧
      ∀ id n, pKey id n ≠ pKey 0x1902 noInst → t.peff id n = s.peff id n) ∧
    ((s.time.running = false ∨ s.par.shadow.get? (pKey 0x1902 noInst) = none) → exec .clockDivBoundary s = .next s) ∧
    (s.hatch.qspi = false → s.sys.stage ≠ .inReset → Next (exec .pcieLinkTrained s) fun t => Only [.hatch] s t ∧
      t.hatch = { s.hatch with pcieUp := true }) ∧
    ((s.hatch.qspi = true ∨ s.sys.stage = .inReset) → exec .pcieLinkTrained s = .next s) ∧
    (Lands (exec .vddFieldLoss s) fun e => Only [.faults, .sys, .aux] s e ∧ e.sys = { s.sys with vddField := false } ∧
      e.aux.driving = false ∧ e.faults.firings = s.faults.firings ∧
      (s.aux.driving = true → ∀ b < 2, ∀ k < 6, (e.sw b k).on = false)) ∧
    (let starts := s.sys.vddField = false ∧ s.sys.stage = .serving ∧ s.sys.gated = false ∧ s.twin.handoverUntil = none ∧
       (s.commanding = true ∨ s.twinEn = false) ∧ s.twin.roleMono + 8000 ≤ s.mono
     (starts → Lands (exec .vddFieldReturn s) fun e =>
        Only [.todo, .hatch, .notif, .par, .faults, .pantry, .sys, .aux] s e ∧ e.sys = { s.sys with vddField := true } ∧
        e.aux.driving = true) ∧
     (¬ starts → Lands (exec .vddFieldReturn s) fun e => Only [.sys] s e ∧ e.sys = { s.sys with vddField := true }))

/-- R52, R53, R423, R426, R429, R435, R642 to R645, R647 to R649: with the port open to it, the debugger halts, resumes and steps a core, reads
and writes the tightly coupled memory, the pantry below the strongbox, and BAR0 as its words' rows do; a memory word it has not written is open;
with the port closed it does nothing. DBG_UNLOCK opens the port in the field by a token that verifies, and is refused otherwise; DBG_LOCK and the
opening's end close it; an instruction the port is closed to selects the bypass register, and the end of EXTEST is a chip reset. -/
def Obligations.DebugPort : Prop :=
  ∀ s : State,
    (∀ (core : Fin 2), (bit s.dbgScope 0 = true →
        (∀ c, c = .debugHalt core ∨ c = .debugBreakpointHit core → Next (exec c s) fun t => Only [.sys] s t ∧
          (core = 0 → t.sys = { s.sys with core0 := { s.sys.core0 with halted := true } }) ∧
          (core = 1 → t.sys = { s.sys with core1 := { s.sys.core1 with halted := true } })) ∧
        (Next (exec (.debugResume core) s) fun t => Only [.sys] s t ∧
          (core = 0 → t.sys = { s.sys with core0 := { s.sys.core0 with halted := false } }) ∧
          (core = 1 → t.sys = { s.sys with core1 := { s.sys.core1 with halted := false } })) ∧
        (Next (exec (.debugStep core) s) fun t => Only [.sys] s t ∧
          (core = 0 → t.sys = if s.sys.core0.halted = true then { s.sys with core0 := { halted := true, stepped := s.sys.core0.stepped + 1 } }
            else s.sys) ∧
          (core = 1 → t.sys = if s.sys.core1.halted = true then { s.sys with core1 := { halted := true, stepped := s.sys.core1.stepped + 1 } }
            else s.sys))) ∧
      (bit s.dbgScope 0 = false → ∀ c, c = .debugHalt core ∨ c = .debugBreakpointHit core ∨ c = .debugResume core ∨ c = .debugStep core →
        Next (exec c s) fun t => t = s)) ∧
    (∀ (a v : BitVec 32), s.accOpen .debug = true →
      (Next (exec (.debugMemAccess .tcm a (some v)) s) fun t => Only [.hatch, .sys] s t ∧ s.OtherPorts t .debug ∧ t.hatch.boxes = s.hatch.boxes ∧
        t.hatch.jtag = { s.hatch.jtag with heldLow := none } ∧ t.sys.tcm.get? (a.toNat % 0x100000 / 4 * 4) = some v.toNat ∧
        ∀ b, b ≠ a.toNat % 0x100000 / 4 * 4 → t.sys.tcm.get? b = s.sys.tcm.get? b) ∧
      (∀ x, s.sys.tcm.get? (a.toNat % 0x100000 / 4 * 4) = some x → Next (exec (.debugMemAccess .tcm a none) s) fun t => Only [.sys] s t ∧
        t.sys = { s.sys with debugRead := x }) ∧
      (s.sys.tcm.get? (a.toNat % 0x100000 / 4 * 4) = none → Next (exec (.debugMemAccess .tcm a none) s) fun t => Only [.freeCount, .sys] s t ∧
        t.freeCount = s.freeCount + 1 ∧ t.sys = { s.sys with debugRead := t.sys.debugRead } ∧ t.sys.debugRead < 2 ^ 32) ∧
      (let off := a.toNat % 0x200000 / 4 * 4
       (0x1C0000 ≤ off → ∀ w, Lands (exec (.debugMemAccess .pantry a w) s) fun e =>
          Only [.todo, .hatch, .notif, .par, .faults, .sys, .pantry] s e ∧ e.sys = { s.sys with debugRead := 0 } ∧
          s.Fired e 0x58) ∧
       (off < 0x1C0000 → s.bankOff (off / 0x20000) = true →
          (Lands (exec (.debugMemAccess .pantry a none) s) fun e => Only [.par, .sys] s e ∧ e.sys = { s.sys with debugRead := 0 }) ∧
          (s.inGw off = false → Lands (exec (.debugMemAccess .pantry a (some v)) s) fun e => Only [.hatch, .par] s e ∧ e.hatch.boxes = s.hatch.boxes)) ∧
       (off < 0x1C0000 → s.bankOff (off / 0x20000) = false →
          (Lands (exec (.debugMemAccess .pantry a none) s) fun e => Only [.sys, .pantry] s e ∧ e.pantry.mem = s.pantry.mem ∧
            e.sys = { s.sys with debugRead := leNat (s.pantry.mem.readN off 4) }) ∧
          (s.inGw off = false → s.pantry.mem.wf = true → Lands (exec (.debugMemAccess .pantry a (some v)) s) fun e => Only [.hatch, .pantry] s e ∧
            e.hatch.boxes = s.hatch.boxes ∧ e.pantry.mem.readN off 4 = leBytes 4 v.toNat ∧
            ∀ b, b < off ∨ off + 4 ≤ b → e.pantry.mem.read b = s.pantry.mem.read b)) ∧
       (off < 0x1C0000 → s.inGw off = true → s.gwOwn off = false → Lands (exec (.debugMemAccess .pantry a (some v)) s) fun e =>
          Only [.hatch, .par] s e ∧ e.hatch.boxes = s.hatch.boxes) ∧
       (off < 0x1C0000 → s.inGw off = true → s.gwOwn off = true → Lands (exec (.debugMemAccess .pantry a (some v)) s) fun e =>
          Only [.todo, .hatch, .notif, .par, .faults, .pantry, .links, .ring] s e ∧ e.ring.wseq = (s.ring.wseq + 1) % 8192 ∧
          e.ring.applied.get? (gwSlice off) = some s.ring.wseq ∧
          (s.bankOff (off / 0x20000) = false → s.gwWaiting 128 < 512 → s.gwWaiting 129 < 512 → s.pantry.mem.wf = true →
            e.pantry.mem.readN off 4 = leBytes 4 v.toNat ∧ ∀ b, b < off ∨ off + 4 ≤ b → e.pantry.mem.read b = s.pantry.mem.read b))) ∧
      (exec (.debugMemAccess .bar0 a (some v)) s = exec (.lowWordWrite .debug (a.setWidth 24) v) s) ∧
      (Next (exec (.debugMemAccess .bar0 a (some v)) s) fun t => Only [.freeCount, .hatch, .notif, .par, .time, .pantry] s t ∧
        s.OtherPorts t .debug) ∧
      (Next (exec (.debugMemAccess .bar0 a none) s) fun t => ∃ u, exec (.highWordRead .debug (a.setWidth 24)) s = .next u ∧
        Only [.sys] u t ∧ t.sys = { u.sys with debugRead := u.hatch.jtag.lastRead } ∧ s.OtherPorts t .debug)) ∧
    (s.accOpen .debug = false → ∀ sp a w, Next (exec (.debugMemAccess sp a w) s) fun t => t = s) ∧
    (∀ (mb : Fin 8) (q : Request), s.Runs mb 0x1A10 q → Lands (exec (.dbgUnlock mb) s) fun e =>
      let scope := uAt q.payload 0 1
      let mins := uAt q.payload 2 2
      let refused := fun (st : Nat) (x : Byte) => Only [.hatch] s e ∧ s.Replies e mb q st [x, 0, 0xFF, 0xFF]
      if s.fw.lc ≠ .field then refused stRefused 0x95
      else if 7 < scope ∨ mins < 1 ∨ 1440 < mins then refused stBadParam 5
      else if bit scope 2 = true ∧ ¬ ((s.twin.role = .none ∨ s.twin.role = .maint) ∧ ∀ str < 16, (s.str str).st = .stopped) then refused stRefused 0x96
      else if s.tokenOk s.fw.ownerKey 0x1A10 [scope, mins] (slice q.payload 4 64) = true then
        Only [.freeCount, .hatch, .notif, .par, .sys, .pantry, .fw] s e ∧
        e.sys = { s.sys with opening := some (scope, (s.bat.rtcSec + 60 * mins) % 2 ^ 32) } ∧ e.fw = { s.fw with challenge := s.freeVal } ∧
        s.Replies e mb q stOk (leBytes 4 ((s.bat.rtcSec + 60 * mins) % 2 ^ 32) ++ [0, 0, 0, 0])
      else Only [.freeCount, .hatch, .fw] s e ∧ e.fw = { s.fw with challenge := s.freeVal } ∧ s.Replies e mb q stBadParam [0x94, 0, 0xFF, 0xFF]) ∧
    (let shut := fun (e : State) => e.sys.opening = none ∧ e.sys.core0.halted = false ∧ e.sys.core1.halted = false
     (∀ (mb : Fin 8) (q : Request), s.Runs mb 0x1A11 q → Lands (exec (.dbgLock mb) s) fun e =>
        if s.fw.lc ≠ .field then Only [.hatch] s e ∧ s.Replies e mb q stRefused [0x95, 0, 0xFF, 0xFF]
        else if s.sys.jtag = .extest then (s.sys.opening ≠ none → shut e) ∧ e.sys.jtag = .bypass ∧
          (s.sys.stage ≠ .inReset → e.sys.stage = .inReset ∧ e.sys.cause = 2)
        else if s.sys.opening = none then Only [.hatch] s e ∧ s.Replies e mb q stOk [0, 0, 0, 0]
        else Only [.hatch, .notif, .par, .sys, .pantry] s e ∧ shut e ∧ s.Replies e mb q stOk [2, 0, 0, 0]) ∧
     (∀ o, s.sys.opening = some o → o.2 ≤ s.bat.rtcSec → s.sys.jtag ≠ .extest → Lands (exec .dbgOpeningExpire s) fun e =>
        Only [.hatch, .notif, .par, .sys, .pantry] s e ∧ shut e) ∧
     (∀ o, s.sys.opening = some o → o.2 ≤ s.bat.rtcSec → s.sys.jtag = .extest → Lands (exec .dbgOpeningExpire s) fun e =>
        shut e ∧ e.sys.jtag = .bypass ∧ (s.sys.stage ≠ .inReset → e.sys.stage = .inReset ∧ e.sys.cause = 2)) ∧
     ((∀ o, s.sys.opening = some o → s.bat.rtcSec < o.2) → exec .dbgOpeningExpire s = .next s)) ∧
    (∀ i : JtagInstr,
      let j : JtagInstr := match i with
        | .extest => if bit s.dbgScope 2 = true ∧ (s.twin.role = .none ∨ s.twin.role = .maint) ∧ (List.range 16).all s.strStopped = true then .extest
          else .bypass
        | .privateDebug => if s.dbgScope = 0 then .bypass else .privateDebug
        | .bypass => .bypass
        | .idcode => .idcode
        | .samplePreload => .samplePreload
      ((s.sys.jtag ≠ .extest ∨ j = .extest) → Next (exec (.jtagInstructionLoad i) s) fun t => Only [.sys] s t ∧ t.sys = { s.sys with jtag := j }) ∧
      (s.sys.jtag = .extest → j ≠ .extest → Lands (exec (.jtagInstructionLoad i) s) fun e => e.sys.jtag = j ∧
        (s.sys.stage = .inReset → Only [.sys] s e) ∧ (s.sys.stage ≠ .inReset → e.sys.stage = .inReset ∧ e.sys.cause = 2)))

/-- R35: where ROLL_COMMIT ends with another status than OK, the working roll, the shadow roll and ROLL_GEN are unchanged. -/
def Obligations.RefusedCommit : Prop :=
  ∀ (s : State) (mb : Fin 8), Lands (exec (.rollCommit mb) s) fun e =>
    (e.box mb).state = .done → uAt (e.box mb).reply 0 2 ≠ 0 →
      e.roll.working = s.roll.working ∧ e.roll.shadow = s.roll.shadow ∧ e.roll.gen = s.roll.gen

/-- R341: a cause raised while its string is TRIPPED is ORed into the mask, the first cause and the time of the trip stay, and nothing is sent: whatever
raises it, and at a STRING_TRIP. -/
def Obligations.TrippedAgain : Prop :=
  ∀ (s : State) (str : Fin 16), (s.str str).st = .tripped →
    (∀ cause lane, Only [.prot] s (s.trip str cause lane) ∧
      (s.trip str cause lane).prt str = { s.prt str with mask := (s.prt str).mask ||| 2 ^ cause } ∧
      ∀ n, n ≠ str.val → (s.trip str cause lane).prt n = s.prt n) ∧
    ∀ (mb : Fin 8) (q : Request), s.Runs mb 0x0C20 q → s.Writes mb 0x0C → uAt q.payload 0 1 = str →
      Lands (exec (.stringTrip mb) s) fun e => OnlyWrite [.prot] s e ∧
        e.prt str = { s.prt str with mask := (s.prt str).mask ||| 2 ^ 12 } ∧ (∀ n, n ≠ str.val → e.prt n = s.prt n) ∧
        s.Accepts e mb q (leBytes 4 s.shortNow)

/-- R490: when both trip inputs of one bridge latch, an action of SHORT on either input prevails, and a trip that latches while the bridge is
already in a short keeps the short. -/
def Obligations.ShortPrevails : Prop :=
  ∀ (s : State) (b i : Fin 2) (t : Nat), ((s.br b).trip.get {} i).lowSince = some t → t + 20 * s.pu 0x1209 b (4 * i) 2 ≤ s.mono →
    bit (s.pu 0x1209 b (4 * i + 3) 1) 0 = true → ((s.br b).trip.get {} i).latched = false → s.aux.driving = true →
    (s.pu 0x1209 b (4 * i + 2) 1 = 1 → Lands (exec (.auxTripActive b i) s) fun e => (e.br b).short = true ∧
      ((e.br b).trip.get {} i).latched = true) ∧
    ((s.br b).short = true → Lands (exec (.auxTripActive b i) s) fun e => (e.br b).short = true ∧
      ((e.br b).trip.get {} i).latched = true ∧ ∀ k < 6, e.sw b k = s.sw b k)
end

