-- ==== Sys2Proof/Laws/State.lean ====
section
/-!
SUPPORT. One lemma per field per update of State, each true by rfl: what an update writes and what it leaves.
-/

namespace Sys2Proof.Machine

@[simp] theorem updPending_pending (s : State) (f : List Instr → List Instr) : (s.updPending f).pending = f s.pending := rfl
@[simp] theorem updPending_mono (s : State) (f : List Instr → List Instr) : (s.updPending f).mono = s.mono := rfl
@[simp] theorem updPending_freeCount (s : State) (f : List Instr → List Instr) : (s.updPending f).freeCount = s.freeCount := rfl
@[simp] theorem updPending_todo (s : State) (f : List Instr → List Instr) : (s.updPending f).todo = s.todo := rfl
@[simp] theorem updPending_hatch (s : State) (f : List Instr → List Instr) : (s.updPending f).hatch = s.hatch := rfl
@[simp] theorem updPending_notif (s : State) (f : List Instr → List Instr) : (s.updPending f).notif = s.notif := rfl
@[simp] theorem updPending_par (s : State) (f : List Instr → List Instr) : (s.updPending f).par = s.par := rfl
@[simp] theorem updPending_faults (s : State) (f : List Instr → List Instr) : (s.updPending f).faults = s.faults := rfl
@[simp] theorem updPending_sys (s : State) (f : List Instr → List Instr) : (s.updPending f).sys = s.sys := rfl
@[simp] theorem updPending_time (s : State) (f : List Instr → List Instr) : (s.updPending f).time = s.time := rfl
@[simp] theorem updPending_sta (s : State) (f : List Instr → List Instr) : (s.updPending f).sta = s.sta := rfl
@[simp] theorem updPending_twin (s : State) (f : List Instr → List Instr) : (s.updPending f).twin = s.twin := rfl
@[simp] theorem updPending_bat (s : State) (f : List Instr → List Instr) : (s.updPending f).bat = s.bat := rfl
@[simp] theorem updPending_pantry (s : State) (f : List Instr → List Instr) : (s.updPending f).pantry = s.pantry := rfl
@[simp] theorem updPending_lanes (s : State) (f : List Instr → List Instr) : (s.updPending f).lanes = s.lanes := rfl
@[simp] theorem updPending_roll (s : State) (f : List Instr → List Instr) : (s.updPending f).roll = s.roll := rfl
@[simp] theorem updPending_links (s : State) (f : List Instr → List Instr) : (s.updPending f).links = s.links := rfl
@[simp] theorem updPending_mod (s : State) (f : List Instr → List Instr) : (s.updPending f).mod = s.mod := rfl
@[simp] theorem updPending_prot (s : State) (f : List Instr → List Instr) : (s.updPending f).prot = s.prot := rfl
@[simp] theorem updPending_dt (s : State) (f : List Instr → List Instr) : (s.updPending f).dt = s.dt := rfl
@[simp] theorem updPending_le (s : State) (f : List Instr → List Instr) : (s.updPending f).le = s.le := rfl
@[simp] theorem updPending_ring (s : State) (f : List Instr → List Instr) : (s.updPending f).ring = s.ring := rfl
@[simp] theorem updPending_hk (s : State) (f : List Instr → List Instr) : (s.updPending f).hk = s.hk := rfl
@[simp] theorem updPending_aux (s : State) (f : List Instr → List Instr) : (s.updPending f).aux = s.aux := rfl
@[simp] theorem updPending_pos (s : State) (f : List Instr → List Instr) : (s.updPending f).pos = s.pos := rfl
@[simp] theorem updPending_safe (s : State) (f : List Instr → List Instr) : (s.updPending f).safe = s.safe := rfl
@[simp] theorem updPending_en (s : State) (f : List Instr → List Instr) : (s.updPending f).en = s.en := rfl
@[simp] theorem updPending_fw (s : State) (f : List Instr → List Instr) : (s.updPending f).fw = s.fw := rfl

@[simp] theorem updMono_pending (s : State) (f : Nat → Nat) : (s.updMono f).pending = s.pending := rfl
@[simp] theorem updMono_mono (s : State) (f : Nat → Nat) : (s.updMono f).mono = f s.mono := rfl
@[simp] theorem updMono_freeCount (s : State) (f : Nat → Nat) : (s.updMono f).freeCount = s.freeCount := rfl
@[simp] theorem updMono_todo (s : State) (f : Nat → Nat) : (s.updMono f).todo = s.todo := rfl
@[simp] theorem updMono_hatch (s : State) (f : Nat → Nat) : (s.updMono f).hatch = s.hatch := rfl
@[simp] theorem updMono_notif (s : State) (f : Nat → Nat) : (s.updMono f).notif = s.notif := rfl
@[simp] theorem updMono_par (s : State) (f : Nat → Nat) : (s.updMono f).par = s.par := rfl
@[simp] theorem updMono_faults (s : State) (f : Nat → Nat) : (s.updMono f).faults = s.faults := rfl
@[simp] theorem updMono_sys (s : State) (f : Nat → Nat) : (s.updMono f).sys = s.sys := rfl
@[simp] theorem updMono_time (s : State) (f : Nat → Nat) : (s.updMono f).time = s.time := rfl
@[simp] theorem updMono_sta (s : State) (f : Nat → Nat) : (s.updMono f).sta = s.sta := rfl
@[simp] theorem updMono_twin (s : State) (f : Nat → Nat) : (s.updMono f).twin = s.twin := rfl
@[simp] theorem updMono_bat (s : State) (f : Nat → Nat) : (s.updMono f).bat = s.bat := rfl
@[simp] theorem updMono_pantry (s : State) (f : Nat → Nat) : (s.updMono f).pantry = s.pantry := rfl
@[simp] theorem updMono_lanes (s : State) (f : Nat → Nat) : (s.updMono f).lanes = s.lanes := rfl
@[simp] theorem updMono_roll (s : State) (f : Nat → Nat) : (s.updMono f).roll = s.roll := rfl
@[simp] theorem updMono_links (s : State) (f : Nat → Nat) : (s.updMono f).links = s.links := rfl
@[simp] theorem updMono_mod (s : State) (f : Nat → Nat) : (s.updMono f).mod = s.mod := rfl
@[simp] theorem updMono_prot (s : State) (f : Nat → Nat) : (s.updMono f).prot = s.prot := rfl
@[simp] theorem updMono_dt (s : State) (f : Nat → Nat) : (s.updMono f).dt = s.dt := rfl
@[simp] theorem updMono_le (s : State) (f : Nat → Nat) : (s.updMono f).le = s.le := rfl
@[simp] theorem updMono_ring (s : State) (f : Nat → Nat) : (s.updMono f).ring = s.ring := rfl
@[simp] theorem updMono_hk (s : State) (f : Nat → Nat) : (s.updMono f).hk = s.hk := rfl
@[simp] theorem updMono_aux (s : State) (f : Nat → Nat) : (s.updMono f).aux = s.aux := rfl
@[simp] theorem updMono_pos (s : State) (f : Nat → Nat) : (s.updMono f).pos = s.pos := rfl
@[simp] theorem updMono_safe (s : State) (f : Nat → Nat) : (s.updMono f).safe = s.safe := rfl
@[simp] theorem updMono_en (s : State) (f : Nat → Nat) : (s.updMono f).en = s.en := rfl
@[simp] theorem updMono_fw (s : State) (f : Nat → Nat) : (s.updMono f).fw = s.fw := rfl

@[simp] theorem updFreeCount_pending (s : State) (f : Nat → Nat) : (s.updFreeCount f).pending = s.pending := rfl
@[simp] theorem updFreeCount_mono (s : State) (f : Nat → Nat) : (s.updFreeCount f).mono = s.mono := rfl
@[simp] theorem updFreeCount_freeCount (s : State) (f : Nat → Nat) : (s.updFreeCount f).freeCount = f s.freeCount := rfl
@[simp] theorem updFreeCount_todo (s : State) (f : Nat → Nat) : (s.updFreeCount f).todo = s.todo := rfl
@[simp] theorem updFreeCount_hatch (s : State) (f : Nat → Nat) : (s.updFreeCount f).hatch = s.hatch := rfl
@[simp] theorem updFreeCount_notif (s : State) (f : Nat → Nat) : (s.updFreeCount f).notif = s.notif := rfl
@[simp] theorem updFreeCount_par (s : State) (f : Nat → Nat) : (s.updFreeCount f).par = s.par := rfl
@[simp] theorem updFreeCount_faults (s : State) (f : Nat → Nat) : (s.updFreeCount f).faults = s.faults := rfl
@[simp] theorem updFreeCount_sys (s : State) (f : Nat → Nat) : (s.updFreeCount f).sys = s.sys := rfl
@[simp] theorem updFreeCount_time (s : State) (f : Nat → Nat) : (s.updFreeCount f).time = s.time := rfl
@[simp] theorem updFreeCount_sta (s : State) (f : Nat → Nat) : (s.updFreeCount f).sta = s.sta := rfl
@[simp] theorem updFreeCount_twin (s : State) (f : Nat → Nat) : (s.updFreeCount f).twin = s.twin := rfl
@[simp] theorem updFreeCount_bat (s : State) (f : Nat → Nat) : (s.updFreeCount f).bat = s.bat := rfl
@[simp] theorem updFreeCount_pantry (s : State) (f : Nat → Nat) : (s.updFreeCount f).pantry = s.pantry := rfl
@[simp] theorem updFreeCount_lanes (s : State) (f : Nat → Nat) : (s.updFreeCount f).lanes = s.lanes := rfl
@[simp] theorem updFreeCount_roll (s : State) (f : Nat → Nat) : (s.updFreeCount f).roll = s.roll := rfl
@[simp] theorem updFreeCount_links (s : State) (f : Nat → Nat) : (s.updFreeCount f).links = s.links := rfl
@[simp] theorem updFreeCount_mod (s : State) (f : Nat → Nat) : (s.updFreeCount f).mod = s.mod := rfl
@[simp] theorem updFreeCount_prot (s : State) (f : Nat → Nat) : (s.updFreeCount f).prot = s.prot := rfl
@[simp] theorem updFreeCount_dt (s : State) (f : Nat → Nat) : (s.updFreeCount f).dt = s.dt := rfl
@[simp] theorem updFreeCount_le (s : State) (f : Nat → Nat) : (s.updFreeCount f).le = s.le := rfl
@[simp] theorem updFreeCount_ring (s : State) (f : Nat → Nat) : (s.updFreeCount f).ring = s.ring := rfl
@[simp] theorem updFreeCount_hk (s : State) (f : Nat → Nat) : (s.updFreeCount f).hk = s.hk := rfl
@[simp] theorem updFreeCount_aux (s : State) (f : Nat → Nat) : (s.updFreeCount f).aux = s.aux := rfl
@[simp] theorem updFreeCount_pos (s : State) (f : Nat → Nat) : (s.updFreeCount f).pos = s.pos := rfl
@[simp] theorem updFreeCount_safe (s : State) (f : Nat → Nat) : (s.updFreeCount f).safe = s.safe := rfl
@[simp] theorem updFreeCount_en (s : State) (f : Nat → Nat) : (s.updFreeCount f).en = s.en := rfl
@[simp] theorem updFreeCount_fw (s : State) (f : Nat → Nat) : (s.updFreeCount f).fw = s.fw := rfl

@[simp] theorem updTodo_pending (s : State) (f : List Act → List Act) : (s.updTodo f).pending = s.pending := rfl
@[simp] theorem updTodo_mono (s : State) (f : List Act → List Act) : (s.updTodo f).mono = s.mono := rfl
@[simp] theorem updTodo_freeCount (s : State) (f : List Act → List Act) : (s.updTodo f).freeCount = s.freeCount := rfl
@[simp] theorem updTodo_todo (s : State) (f : List Act → List Act) : (s.updTodo f).todo = f s.todo := rfl
@[simp] theorem updTodo_hatch (s : State) (f : List Act → List Act) : (s.updTodo f).hatch = s.hatch := rfl
@[simp] theorem updTodo_notif (s : State) (f : List Act → List Act) : (s.updTodo f).notif = s.notif := rfl
@[simp] theorem updTodo_par (s : State) (f : List Act → List Act) : (s.updTodo f).par = s.par := rfl
@[simp] theorem updTodo_faults (s : State) (f : List Act → List Act) : (s.updTodo f).faults = s.faults := rfl
@[simp] theorem updTodo_sys (s : State) (f : List Act → List Act) : (s.updTodo f).sys = s.sys := rfl
@[simp] theorem updTodo_time (s : State) (f : List Act → List Act) : (s.updTodo f).time = s.time := rfl
@[simp] theorem updTodo_sta (s : State) (f : List Act → List Act) : (s.updTodo f).sta = s.sta := rfl
@[simp] theorem updTodo_twin (s : State) (f : List Act → List Act) : (s.updTodo f).twin = s.twin := rfl
@[simp] theorem updTodo_bat (s : State) (f : List Act → List Act) : (s.updTodo f).bat = s.bat := rfl
@[simp] theorem updTodo_pantry (s : State) (f : List Act → List Act) : (s.updTodo f).pantry = s.pantry := rfl
@[simp] theorem updTodo_lanes (s : State) (f : List Act → List Act) : (s.updTodo f).lanes = s.lanes := rfl
@[simp] theorem updTodo_roll (s : State) (f : List Act → List Act) : (s.updTodo f).roll = s.roll := rfl
@[simp] theorem updTodo_links (s : State) (f : List Act → List Act) : (s.updTodo f).links = s.links := rfl
@[simp] theorem updTodo_mod (s : State) (f : List Act → List Act) : (s.updTodo f).mod = s.mod := rfl
@[simp] theorem updTodo_prot (s : State) (f : List Act → List Act) : (s.updTodo f).prot = s.prot := rfl
@[simp] theorem updTodo_dt (s : State) (f : List Act → List Act) : (s.updTodo f).dt = s.dt := rfl
@[simp] theorem updTodo_le (s : State) (f : List Act → List Act) : (s.updTodo f).le = s.le := rfl
@[simp] theorem updTodo_ring (s : State) (f : List Act → List Act) : (s.updTodo f).ring = s.ring := rfl
@[simp] theorem updTodo_hk (s : State) (f : List Act → List Act) : (s.updTodo f).hk = s.hk := rfl
@[simp] theorem updTodo_aux (s : State) (f : List Act → List Act) : (s.updTodo f).aux = s.aux := rfl
@[simp] theorem updTodo_pos (s : State) (f : List Act → List Act) : (s.updTodo f).pos = s.pos := rfl
@[simp] theorem updTodo_safe (s : State) (f : List Act → List Act) : (s.updTodo f).safe = s.safe := rfl
@[simp] theorem updTodo_en (s : State) (f : List Act → List Act) : (s.updTodo f).en = s.en := rfl
@[simp] theorem updTodo_fw (s : State) (f : List Act → List Act) : (s.updTodo f).fw = s.fw := rfl

@[simp] theorem updHatch_pending (s : State) (f : Hatch → Hatch) : (s.updHatch f).pending = s.pending := rfl
@[simp] theorem updHatch_mono (s : State) (f : Hatch → Hatch) : (s.updHatch f).mono = s.mono := rfl
@[simp] theorem updHatch_freeCount (s : State) (f : Hatch → Hatch) : (s.updHatch f).freeCount = s.freeCount := rfl
@[simp] theorem updHatch_todo (s : State) (f : Hatch → Hatch) : (s.updHatch f).todo = s.todo := rfl
@[simp] theorem updHatch_hatch (s : State) (f : Hatch → Hatch) : (s.updHatch f).hatch = f s.hatch := rfl
@[simp] theorem updHatch_notif (s : State) (f : Hatch → Hatch) : (s.updHatch f).notif = s.notif := rfl
@[simp] theorem updHatch_par (s : State) (f : Hatch → Hatch) : (s.updHatch f).par = s.par := rfl
@[simp] theorem updHatch_faults (s : State) (f : Hatch → Hatch) : (s.updHatch f).faults = s.faults := rfl
@[simp] theorem updHatch_sys (s : State) (f : Hatch → Hatch) : (s.updHatch f).sys = s.sys := rfl
@[simp] theorem updHatch_time (s : State) (f : Hatch → Hatch) : (s.updHatch f).time = s.time := rfl
@[simp] theorem updHatch_sta (s : State) (f : Hatch → Hatch) : (s.updHatch f).sta = s.sta := rfl
@[simp] theorem updHatch_twin (s : State) (f : Hatch → Hatch) : (s.updHatch f).twin = s.twin := rfl
@[simp] theorem updHatch_bat (s : State) (f : Hatch → Hatch) : (s.updHatch f).bat = s.bat := rfl
@[simp] theorem updHatch_pantry (s : State) (f : Hatch → Hatch) : (s.updHatch f).pantry = s.pantry := rfl
@[simp] theorem updHatch_lanes (s : State) (f : Hatch → Hatch) : (s.updHatch f).lanes = s.lanes := rfl
@[simp] theorem updHatch_roll (s : State) (f : Hatch → Hatch) : (s.updHatch f).roll = s.roll := rfl
@[simp] theorem updHatch_links (s : State) (f : Hatch → Hatch) : (s.updHatch f).links = s.links := rfl
@[simp] theorem updHatch_mod (s : State) (f : Hatch → Hatch) : (s.updHatch f).mod = s.mod := rfl
@[simp] theorem updHatch_prot (s : State) (f : Hatch → Hatch) : (s.updHatch f).prot = s.prot := rfl
@[simp] theorem updHatch_dt (s : State) (f : Hatch → Hatch) : (s.updHatch f).dt = s.dt := rfl
@[simp] theorem updHatch_le (s : State) (f : Hatch → Hatch) : (s.updHatch f).le = s.le := rfl
@[simp] theorem updHatch_ring (s : State) (f : Hatch → Hatch) : (s.updHatch f).ring = s.ring := rfl
@[simp] theorem updHatch_hk (s : State) (f : Hatch → Hatch) : (s.updHatch f).hk = s.hk := rfl
@[simp] theorem updHatch_aux (s : State) (f : Hatch → Hatch) : (s.updHatch f).aux = s.aux := rfl
@[simp] theorem updHatch_pos (s : State) (f : Hatch → Hatch) : (s.updHatch f).pos = s.pos := rfl
@[simp] theorem updHatch_safe (s : State) (f : Hatch → Hatch) : (s.updHatch f).safe = s.safe := rfl
@[simp] theorem updHatch_en (s : State) (f : Hatch → Hatch) : (s.updHatch f).en = s.en := rfl
@[simp] theorem updHatch_fw (s : State) (f : Hatch → Hatch) : (s.updHatch f).fw = s.fw := rfl

@[simp] theorem updNotif_pending (s : State) (f : Notif → Notif) : (s.updNotif f).pending = s.pending := rfl
@[simp] theorem updNotif_mono (s : State) (f : Notif → Notif) : (s.updNotif f).mono = s.mono := rfl
@[simp] theorem updNotif_freeCount (s : State) (f : Notif → Notif) : (s.updNotif f).freeCount = s.freeCount := rfl
@[simp] theorem updNotif_todo (s : State) (f : Notif → Notif) : (s.updNotif f).todo = s.todo := rfl
@[simp] theorem updNotif_hatch (s : State) (f : Notif → Notif) : (s.updNotif f).hatch = s.hatch := rfl
@[simp] theorem updNotif_notif (s : State) (f : Notif → Notif) : (s.updNotif f).notif = f s.notif := rfl
@[simp] theorem updNotif_par (s : State) (f : Notif → Notif) : (s.updNotif f).par = s.par := rfl
@[simp] theorem updNotif_faults (s : State) (f : Notif → Notif) : (s.updNotif f).faults = s.faults := rfl
@[simp] theorem updNotif_sys (s : State) (f : Notif → Notif) : (s.updNotif f).sys = s.sys := rfl
@[simp] theorem updNotif_time (s : State) (f : Notif → Notif) : (s.updNotif f).time = s.time := rfl
@[simp] theorem updNotif_sta (s : State) (f : Notif → Notif) : (s.updNotif f).sta = s.sta := rfl
@[simp] theorem updNotif_twin (s : State) (f : Notif → Notif) : (s.updNotif f).twin = s.twin := rfl
@[simp] theorem updNotif_bat (s : State) (f : Notif → Notif) : (s.updNotif f).bat = s.bat := rfl
@[simp] theorem updNotif_pantry (s : State) (f : Notif → Notif) : (s.updNotif f).pantry = s.pantry := rfl
@[simp] theorem updNotif_lanes (s : State) (f : Notif → Notif) : (s.updNotif f).lanes = s.lanes := rfl
@[simp] theorem updNotif_roll (s : State) (f : Notif → Notif) : (s.updNotif f).roll = s.roll := rfl
@[simp] theorem updNotif_links (s : State) (f : Notif → Notif) : (s.updNotif f).links = s.links := rfl
@[simp] theorem updNotif_mod (s : State) (f : Notif → Notif) : (s.updNotif f).mod = s.mod := rfl
@[simp] theorem updNotif_prot (s : State) (f : Notif → Notif) : (s.updNotif f).prot = s.prot := rfl
@[simp] theorem updNotif_dt (s : State) (f : Notif → Notif) : (s.updNotif f).dt = s.dt := rfl
@[simp] theorem updNotif_le (s : State) (f : Notif → Notif) : (s.updNotif f).le = s.le := rfl
@[simp] theorem updNotif_ring (s : State) (f : Notif → Notif) : (s.updNotif f).ring = s.ring := rfl
@[simp] theorem updNotif_hk (s : State) (f : Notif → Notif) : (s.updNotif f).hk = s.hk := rfl
@[simp] theorem updNotif_aux (s : State) (f : Notif → Notif) : (s.updNotif f).aux = s.aux := rfl
@[simp] theorem updNotif_pos (s : State) (f : Notif → Notif) : (s.updNotif f).pos = s.pos := rfl
@[simp] theorem updNotif_safe (s : State) (f : Notif → Notif) : (s.updNotif f).safe = s.safe := rfl
@[simp] theorem updNotif_en (s : State) (f : Notif → Notif) : (s.updNotif f).en = s.en := rfl
@[simp] theorem updNotif_fw (s : State) (f : Notif → Notif) : (s.updNotif f).fw = s.fw := rfl

@[simp] theorem updPar_pending (s : State) (f : Params → Params) : (s.updPar f).pending = s.pending := rfl
@[simp] theorem updPar_mono (s : State) (f : Params → Params) : (s.updPar f).mono = s.mono := rfl
@[simp] theorem updPar_freeCount (s : State) (f : Params → Params) : (s.updPar f).freeCount = s.freeCount := rfl
@[simp] theorem updPar_todo (s : State) (f : Params → Params) : (s.updPar f).todo = s.todo := rfl
@[simp] theorem updPar_hatch (s : State) (f : Params → Params) : (s.updPar f).hatch = s.hatch := rfl
@[simp] theorem updPar_notif (s : State) (f : Params → Params) : (s.updPar f).notif = s.notif := rfl
@[simp] theorem updPar_par (s : State) (f : Params → Params) : (s.updPar f).par = f s.par := rfl
@[simp] theorem updPar_faults (s : State) (f : Params → Params) : (s.updPar f).faults = s.faults := rfl
@[simp] theorem updPar_sys (s : State) (f : Params → Params) : (s.updPar f).sys = s.sys := rfl
@[simp] theorem updPar_time (s : State) (f : Params → Params) : (s.updPar f).time = s.time := rfl
@[simp] theorem updPar_sta (s : State) (f : Params → Params) : (s.updPar f).sta = s.sta := rfl
@[simp] theorem updPar_twin (s : State) (f : Params → Params) : (s.updPar f).twin = s.twin := rfl
@[simp] theorem updPar_bat (s : State) (f : Params → Params) : (s.updPar f).bat = s.bat := rfl
@[simp] theorem updPar_pantry (s : State) (f : Params → Params) : (s.updPar f).pantry = s.pantry := rfl
@[simp] theorem updPar_lanes (s : State) (f : Params → Params) : (s.updPar f).lanes = s.lanes := rfl
@[simp] theorem updPar_roll (s : State) (f : Params → Params) : (s.updPar f).roll = s.roll := rfl
@[simp] theorem updPar_links (s : State) (f : Params → Params) : (s.updPar f).links = s.links := rfl
@[simp] theorem updPar_mod (s : State) (f : Params → Params) : (s.updPar f).mod = s.mod := rfl
@[simp] theorem updPar_prot (s : State) (f : Params → Params) : (s.updPar f).prot = s.prot := rfl
@[simp] theorem updPar_dt (s : State) (f : Params → Params) : (s.updPar f).dt = s.dt := rfl
@[simp] theorem updPar_le (s : State) (f : Params → Params) : (s.updPar f).le = s.le := rfl
@[simp] theorem updPar_ring (s : State) (f : Params → Params) : (s.updPar f).ring = s.ring := rfl
@[simp] theorem updPar_hk (s : State) (f : Params → Params) : (s.updPar f).hk = s.hk := rfl
@[simp] theorem updPar_aux (s : State) (f : Params → Params) : (s.updPar f).aux = s.aux := rfl
@[simp] theorem updPar_pos (s : State) (f : Params → Params) : (s.updPar f).pos = s.pos := rfl
@[simp] theorem updPar_safe (s : State) (f : Params → Params) : (s.updPar f).safe = s.safe := rfl
@[simp] theorem updPar_en (s : State) (f : Params → Params) : (s.updPar f).en = s.en := rfl
@[simp] theorem updPar_fw (s : State) (f : Params → Params) : (s.updPar f).fw = s.fw := rfl

@[simp] theorem updFaults_pending (s : State) (f : Faults → Faults) : (s.updFaults f).pending = s.pending := rfl
@[simp] theorem updFaults_mono (s : State) (f : Faults → Faults) : (s.updFaults f).mono = s.mono := rfl
@[simp] theorem updFaults_freeCount (s : State) (f : Faults → Faults) : (s.updFaults f).freeCount = s.freeCount := rfl
@[simp] theorem updFaults_todo (s : State) (f : Faults → Faults) : (s.updFaults f).todo = s.todo := rfl
@[simp] theorem updFaults_hatch (s : State) (f : Faults → Faults) : (s.updFaults f).hatch = s.hatch := rfl
@[simp] theorem updFaults_notif (s : State) (f : Faults → Faults) : (s.updFaults f).notif = s.notif := rfl
@[simp] theorem updFaults_par (s : State) (f : Faults → Faults) : (s.updFaults f).par = s.par := rfl
@[simp] theorem updFaults_faults (s : State) (f : Faults → Faults) : (s.updFaults f).faults = f s.faults := rfl
@[simp] theorem updFaults_sys (s : State) (f : Faults → Faults) : (s.updFaults f).sys = s.sys := rfl
@[simp] theorem updFaults_time (s : State) (f : Faults → Faults) : (s.updFaults f).time = s.time := rfl
@[simp] theorem updFaults_sta (s : State) (f : Faults → Faults) : (s.updFaults f).sta = s.sta := rfl
@[simp] theorem updFaults_twin (s : State) (f : Faults → Faults) : (s.updFaults f).twin = s.twin := rfl
@[simp] theorem updFaults_bat (s : State) (f : Faults → Faults) : (s.updFaults f).bat = s.bat := rfl
@[simp] theorem updFaults_pantry (s : State) (f : Faults → Faults) : (s.updFaults f).pantry = s.pantry := rfl
@[simp] theorem updFaults_lanes (s : State) (f : Faults → Faults) : (s.updFaults f).lanes = s.lanes := rfl
@[simp] theorem updFaults_roll (s : State) (f : Faults → Faults) : (s.updFaults f).roll = s.roll := rfl
@[simp] theorem updFaults_links (s : State) (f : Faults → Faults) : (s.updFaults f).links = s.links := rfl
@[simp] theorem updFaults_mod (s : State) (f : Faults → Faults) : (s.updFaults f).mod = s.mod := rfl
@[simp] theorem updFaults_prot (s : State) (f : Faults → Faults) : (s.updFaults f).prot = s.prot := rfl
@[simp] theorem updFaults_dt (s : State) (f : Faults → Faults) : (s.updFaults f).dt = s.dt := rfl
@[simp] theorem updFaults_le (s : State) (f : Faults → Faults) : (s.updFaults f).le = s.le := rfl
@[simp] theorem updFaults_ring (s : State) (f : Faults → Faults) : (s.updFaults f).ring = s.ring := rfl
@[simp] theorem updFaults_hk (s : State) (f : Faults → Faults) : (s.updFaults f).hk = s.hk := rfl
@[simp] theorem updFaults_aux (s : State) (f : Faults → Faults) : (s.updFaults f).aux = s.aux := rfl
@[simp] theorem updFaults_pos (s : State) (f : Faults → Faults) : (s.updFaults f).pos = s.pos := rfl
@[simp] theorem updFaults_safe (s : State) (f : Faults → Faults) : (s.updFaults f).safe = s.safe := rfl
@[simp] theorem updFaults_en (s : State) (f : Faults → Faults) : (s.updFaults f).en = s.en := rfl
@[simp] theorem updFaults_fw (s : State) (f : Faults → Faults) : (s.updFaults f).fw = s.fw := rfl

@[simp] theorem updSys_pending (s : State) (f : Sys → Sys) : (s.updSys f).pending = s.pending := rfl
@[simp] theorem updSys_mono (s : State) (f : Sys → Sys) : (s.updSys f).mono = s.mono := rfl
@[simp] theorem updSys_freeCount (s : State) (f : Sys → Sys) : (s.updSys f).freeCount = s.freeCount := rfl
@[simp] theorem updSys_todo (s : State) (f : Sys → Sys) : (s.updSys f).todo = s.todo := rfl
@[simp] theorem updSys_hatch (s : State) (f : Sys → Sys) : (s.updSys f).hatch = s.hatch := rfl
@[simp] theorem updSys_notif (s : State) (f : Sys → Sys) : (s.updSys f).notif = s.notif := rfl
@[simp] theorem updSys_par (s : State) (f : Sys → Sys) : (s.updSys f).par = s.par := rfl
@[simp] theorem updSys_faults (s : State) (f : Sys → Sys) : (s.updSys f).faults = s.faults := rfl
@[simp] theorem updSys_sys (s : State) (f : Sys → Sys) : (s.updSys f).sys = f s.sys := rfl
@[simp] theorem updSys_time (s : State) (f : Sys → Sys) : (s.updSys f).time = s.time := rfl
@[simp] theorem updSys_sta (s : State) (f : Sys → Sys) : (s.updSys f).sta = s.sta := rfl
@[simp] theorem updSys_twin (s : State) (f : Sys → Sys) : (s.updSys f).twin = s.twin := rfl
@[simp] theorem updSys_bat (s : State) (f : Sys → Sys) : (s.updSys f).bat = s.bat := rfl
@[simp] theorem updSys_pantry (s : State) (f : Sys → Sys) : (s.updSys f).pantry = s.pantry := rfl
@[simp] theorem updSys_lanes (s : State) (f : Sys → Sys) : (s.updSys f).lanes = s.lanes := rfl
@[simp] theorem updSys_roll (s : State) (f : Sys → Sys) : (s.updSys f).roll = s.roll := rfl
@[simp] theorem updSys_links (s : State) (f : Sys → Sys) : (s.updSys f).links = s.links := rfl
@[simp] theorem updSys_mod (s : State) (f : Sys → Sys) : (s.updSys f).mod = s.mod := rfl
@[simp] theorem updSys_prot (s : State) (f : Sys → Sys) : (s.updSys f).prot = s.prot := rfl
@[simp] theorem updSys_dt (s : State) (f : Sys → Sys) : (s.updSys f).dt = s.dt := rfl
@[simp] theorem updSys_le (s : State) (f : Sys → Sys) : (s.updSys f).le = s.le := rfl
@[simp] theorem updSys_ring (s : State) (f : Sys → Sys) : (s.updSys f).ring = s.ring := rfl
@[simp] theorem updSys_hk (s : State) (f : Sys → Sys) : (s.updSys f).hk = s.hk := rfl
@[simp] theorem updSys_aux (s : State) (f : Sys → Sys) : (s.updSys f).aux = s.aux := rfl
@[simp] theorem updSys_pos (s : State) (f : Sys → Sys) : (s.updSys f).pos = s.pos := rfl
@[simp] theorem updSys_safe (s : State) (f : Sys → Sys) : (s.updSys f).safe = s.safe := rfl
@[simp] theorem updSys_en (s : State) (f : Sys → Sys) : (s.updSys f).en = s.en := rfl
@[simp] theorem updSys_fw (s : State) (f : Sys → Sys) : (s.updSys f).fw = s.fw := rfl

@[simp] theorem updTime_pending (s : State) (f : TimeUnit → TimeUnit) : (s.updTime f).pending = s.pending := rfl
@[simp] theorem updTime_mono (s : State) (f : TimeUnit → TimeUnit) : (s.updTime f).mono = s.mono := rfl
@[simp] theorem updTime_freeCount (s : State) (f : TimeUnit → TimeUnit) : (s.updTime f).freeCount = s.freeCount := rfl
@[simp] theorem updTime_todo (s : State) (f : TimeUnit → TimeUnit) : (s.updTime f).todo = s.todo := rfl
@[simp] theorem updTime_hatch (s : State) (f : TimeUnit → TimeUnit) : (s.updTime f).hatch = s.hatch := rfl
@[simp] theorem updTime_notif (s : State) (f : TimeUnit → TimeUnit) : (s.updTime f).notif = s.notif := rfl
@[simp] theorem updTime_par (s : State) (f : TimeUnit → TimeUnit) : (s.updTime f).par = s.par := rfl
@[simp] theorem updTime_faults (s : State) (f : TimeUnit → TimeUnit) : (s.updTime f).faults = s.faults := rfl
@[simp] theorem updTime_sys (s : State) (f : TimeUnit → TimeUnit) : (s.updTime f).sys = s.sys := rfl
@[simp] theorem updTime_time (s : State) (f : TimeUnit → TimeUnit) : (s.updTime f).time = f s.time := rfl
@[simp] theorem updTime_sta (s : State) (f : TimeUnit → TimeUnit) : (s.updTime f).sta = s.sta := rfl
@[simp] theorem updTime_twin (s : State) (f : TimeUnit → TimeUnit) : (s.updTime f).twin = s.twin := rfl
@[simp] theorem updTime_bat (s : State) (f : TimeUnit → TimeUnit) : (s.updTime f).bat = s.bat := rfl
@[simp] theorem updTime_pantry (s : State) (f : TimeUnit → TimeUnit) : (s.updTime f).pantry = s.pantry := rfl
@[simp] theorem updTime_lanes (s : State) (f : TimeUnit → TimeUnit) : (s.updTime f).lanes = s.lanes := rfl
@[simp] theorem updTime_roll (s : State) (f : TimeUnit → TimeUnit) : (s.updTime f).roll = s.roll := rfl
@[simp] theorem updTime_links (s : State) (f : TimeUnit → TimeUnit) : (s.updTime f).links = s.links := rfl
@[simp] theorem updTime_mod (s : State) (f : TimeUnit → TimeUnit) : (s.updTime f).mod = s.mod := rfl
@[simp] theorem updTime_prot (s : State) (f : TimeUnit → TimeUnit) : (s.updTime f).prot = s.prot := rfl
@[simp] theorem updTime_dt (s : State) (f : TimeUnit → TimeUnit) : (s.updTime f).dt = s.dt := rfl
@[simp] theorem updTime_le (s : State) (f : TimeUnit → TimeUnit) : (s.updTime f).le = s.le := rfl
@[simp] theorem updTime_ring (s : State) (f : TimeUnit → TimeUnit) : (s.updTime f).ring = s.ring := rfl
@[simp] theorem updTime_hk (s : State) (f : TimeUnit → TimeUnit) : (s.updTime f).hk = s.hk := rfl
@[simp] theorem updTime_aux (s : State) (f : TimeUnit → TimeUnit) : (s.updTime f).aux = s.aux := rfl
@[simp] theorem updTime_pos (s : State) (f : TimeUnit → TimeUnit) : (s.updTime f).pos = s.pos := rfl
@[simp] theorem updTime_safe (s : State) (f : TimeUnit → TimeUnit) : (s.updTime f).safe = s.safe := rfl
@[simp] theorem updTime_en (s : State) (f : TimeUnit → TimeUnit) : (s.updTime f).en = s.en := rfl
@[simp] theorem updTime_fw (s : State) (f : TimeUnit → TimeUnit) : (s.updTime f).fw = s.fw := rfl

@[simp] theorem updSta_pending (s : State) (f : Tab StaPort → Tab StaPort) : (s.updSta f).pending = s.pending := rfl
@[simp] theorem updSta_mono (s : State) (f : Tab StaPort → Tab StaPort) : (s.updSta f).mono = s.mono := rfl
@[simp] theorem updSta_freeCount (s : State) (f : Tab StaPort → Tab StaPort) : (s.updSta f).freeCount = s.freeCount := rfl
@[simp] theorem updSta_todo (s : State) (f : Tab StaPort → Tab StaPort) : (s.updSta f).todo = s.todo := rfl
@[simp] theorem updSta_hatch (s : State) (f : Tab StaPort → Tab StaPort) : (s.updSta f).hatch = s.hatch := rfl
@[simp] theorem updSta_notif (s : State) (f : Tab StaPort → Tab StaPort) : (s.updSta f).notif = s.notif := rfl
@[simp] theorem updSta_par (s : State) (f : Tab StaPort → Tab StaPort) : (s.updSta f).par = s.par := rfl
@[simp] theorem updSta_faults (s : State) (f : Tab StaPort → Tab StaPort) : (s.updSta f).faults = s.faults := rfl
@[simp] theorem updSta_sys (s : State) (f : Tab StaPort → Tab StaPort) : (s.updSta f).sys = s.sys := rfl
@[simp] theorem updSta_time (s : State) (f : Tab StaPort → Tab StaPort) : (s.updSta f).time = s.time := rfl
@[simp] theorem updSta_sta (s : State) (f : Tab StaPort → Tab StaPort) : (s.updSta f).sta = f s.sta := rfl
@[simp] theorem updSta_twin (s : State) (f : Tab StaPort → Tab StaPort) : (s.updSta f).twin = s.twin := rfl
@[simp] theorem updSta_bat (s : State) (f : Tab StaPort → Tab StaPort) : (s.updSta f).bat = s.bat := rfl
@[simp] theorem updSta_pantry (s : State) (f : Tab StaPort → Tab StaPort) : (s.updSta f).pantry = s.pantry := rfl
@[simp] theorem updSta_lanes (s : State) (f : Tab StaPort → Tab StaPort) : (s.updSta f).lanes = s.lanes := rfl
@[simp] theorem updSta_roll (s : State) (f : Tab StaPort → Tab StaPort) : (s.updSta f).roll = s.roll := rfl
@[simp] theorem updSta_links (s : State) (f : Tab StaPort → Tab StaPort) : (s.updSta f).links = s.links := rfl
@[simp] theorem updSta_mod (s : State) (f : Tab StaPort → Tab StaPort) : (s.updSta f).mod = s.mod := rfl
@[simp] theorem updSta_prot (s : State) (f : Tab StaPort → Tab StaPort) : (s.updSta f).prot = s.prot := rfl
@[simp] theorem updSta_dt (s : State) (f : Tab StaPort → Tab StaPort) : (s.updSta f).dt = s.dt := rfl
@[simp] theorem updSta_le (s : State) (f : Tab StaPort → Tab StaPort) : (s.updSta f).le = s.le := rfl
@[simp] theorem updSta_ring (s : State) (f : Tab StaPort → Tab StaPort) : (s.updSta f).ring = s.ring := rfl
@[simp] theorem updSta_hk (s : State) (f : Tab StaPort → Tab StaPort) : (s.updSta f).hk = s.hk := rfl
@[simp] theorem updSta_aux (s : State) (f : Tab StaPort → Tab StaPort) : (s.updSta f).aux = s.aux := rfl
@[simp] theorem updSta_pos (s : State) (f : Tab StaPort → Tab StaPort) : (s.updSta f).pos = s.pos := rfl
@[simp] theorem updSta_safe (s : State) (f : Tab StaPort → Tab StaPort) : (s.updSta f).safe = s.safe := rfl
@[simp] theorem updSta_en (s : State) (f : Tab StaPort → Tab StaPort) : (s.updSta f).en = s.en := rfl
@[simp] theorem updSta_fw (s : State) (f : Tab StaPort → Tab StaPort) : (s.updSta f).fw = s.fw := rfl

@[simp] theorem updTwin_pending (s : State) (f : Twin → Twin) : (s.updTwin f).pending = s.pending := rfl
@[simp] theorem updTwin_mono (s : State) (f : Twin → Twin) : (s.updTwin f).mono = s.mono := rfl
@[simp] theorem updTwin_freeCount (s : State) (f : Twin → Twin) : (s.updTwin f).freeCount = s.freeCount := rfl
@[simp] theorem updTwin_todo (s : State) (f : Twin → Twin) : (s.updTwin f).todo = s.todo := rfl
@[simp] theorem updTwin_hatch (s : State) (f : Twin → Twin) : (s.updTwin f).hatch = s.hatch := rfl
@[simp] theorem updTwin_notif (s : State) (f : Twin → Twin) : (s.updTwin f).notif = s.notif := rfl
@[simp] theorem updTwin_par (s : State) (f : Twin → Twin) : (s.updTwin f).par = s.par := rfl
@[simp] theorem updTwin_faults (s : State) (f : Twin → Twin) : (s.updTwin f).faults = s.faults := rfl
@[simp] theorem updTwin_sys (s : State) (f : Twin → Twin) : (s.updTwin f).sys = s.sys := rfl
@[simp] theorem updTwin_time (s : State) (f : Twin → Twin) : (s.updTwin f).time = s.time := rfl
@[simp] theorem updTwin_sta (s : State) (f : Twin → Twin) : (s.updTwin f).sta = s.sta := rfl
@[simp] theorem updTwin_twin (s : State) (f : Twin → Twin) : (s.updTwin f).twin = f s.twin := rfl
@[simp] theorem updTwin_bat (s : State) (f : Twin → Twin) : (s.updTwin f).bat = s.bat := rfl
@[simp] theorem updTwin_pantry (s : State) (f : Twin → Twin) : (s.updTwin f).pantry = s.pantry := rfl
@[simp] theorem updTwin_lanes (s : State) (f : Twin → Twin) : (s.updTwin f).lanes = s.lanes := rfl
@[simp] theorem updTwin_roll (s : State) (f : Twin → Twin) : (s.updTwin f).roll = s.roll := rfl
@[simp] theorem updTwin_links (s : State) (f : Twin → Twin) : (s.updTwin f).links = s.links := rfl
@[simp] theorem updTwin_mod (s : State) (f : Twin → Twin) : (s.updTwin f).mod = s.mod := rfl
@[simp] theorem updTwin_prot (s : State) (f : Twin → Twin) : (s.updTwin f).prot = s.prot := rfl
@[simp] theorem updTwin_dt (s : State) (f : Twin → Twin) : (s.updTwin f).dt = s.dt := rfl
@[simp] theorem updTwin_le (s : State) (f : Twin → Twin) : (s.updTwin f).le = s.le := rfl
@[simp] theorem updTwin_ring (s : State) (f : Twin → Twin) : (s.updTwin f).ring = s.ring := rfl
@[simp] theorem updTwin_hk (s : State) (f : Twin → Twin) : (s.updTwin f).hk = s.hk := rfl
@[simp] theorem updTwin_aux (s : State) (f : Twin → Twin) : (s.updTwin f).aux = s.aux := rfl
@[simp] theorem updTwin_pos (s : State) (f : Twin → Twin) : (s.updTwin f).pos = s.pos := rfl
@[simp] theorem updTwin_safe (s : State) (f : Twin → Twin) : (s.updTwin f).safe = s.safe := rfl
@[simp] theorem updTwin_en (s : State) (f : Twin → Twin) : (s.updTwin f).en = s.en := rfl
@[simp] theorem updTwin_fw (s : State) (f : Twin → Twin) : (s.updTwin f).fw = s.fw := rfl

@[simp] theorem updBat_pending (s : State) (f : Battery → Battery) : (s.updBat f).pending = s.pending := rfl
@[simp] theorem updBat_mono (s : State) (f : Battery → Battery) : (s.updBat f).mono = s.mono := rfl
@[simp] theorem updBat_freeCount (s : State) (f : Battery → Battery) : (s.updBat f).freeCount = s.freeCount := rfl
@[simp] theorem updBat_todo (s : State) (f : Battery → Battery) : (s.updBat f).todo = s.todo := rfl
@[simp] theorem updBat_hatch (s : State) (f : Battery → Battery) : (s.updBat f).hatch = s.hatch := rfl
@[simp] theorem updBat_notif (s : State) (f : Battery → Battery) : (s.updBat f).notif = s.notif := rfl
@[simp] theorem updBat_par (s : State) (f : Battery → Battery) : (s.updBat f).par = s.par := rfl
@[simp] theorem updBat_faults (s : State) (f : Battery → Battery) : (s.updBat f).faults = s.faults := rfl
@[simp] theorem updBat_sys (s : State) (f : Battery → Battery) : (s.updBat f).sys = s.sys := rfl
@[simp] theorem updBat_time (s : State) (f : Battery → Battery) : (s.updBat f).time = s.time := rfl
@[simp] theorem updBat_sta (s : State) (f : Battery → Battery) : (s.updBat f).sta = s.sta := rfl
@[simp] theorem updBat_twin (s : State) (f : Battery → Battery) : (s.updBat f).twin = s.twin := rfl
@[simp] theorem updBat_bat (s : State) (f : Battery → Battery) : (s.updBat f).bat = f s.bat := rfl
@[simp] theorem updBat_pantry (s : State) (f : Battery → Battery) : (s.updBat f).pantry = s.pantry := rfl
@[simp] theorem updBat_lanes (s : State) (f : Battery → Battery) : (s.updBat f).lanes = s.lanes := rfl
@[simp] theorem updBat_roll (s : State) (f : Battery → Battery) : (s.updBat f).roll = s.roll := rfl
@[simp] theorem updBat_links (s : State) (f : Battery → Battery) : (s.updBat f).links = s.links := rfl
@[simp] theorem updBat_mod (s : State) (f : Battery → Battery) : (s.updBat f).mod = s.mod := rfl
@[simp] theorem updBat_prot (s : State) (f : Battery → Battery) : (s.updBat f).prot = s.prot := rfl
@[simp] theorem updBat_dt (s : State) (f : Battery → Battery) : (s.updBat f).dt = s.dt := rfl
@[simp] theorem updBat_le (s : State) (f : Battery → Battery) : (s.updBat f).le = s.le := rfl
@[simp] theorem updBat_ring (s : State) (f : Battery → Battery) : (s.updBat f).ring = s.ring := rfl
@[simp] theorem updBat_hk (s : State) (f : Battery → Battery) : (s.updBat f).hk = s.hk := rfl
@[simp] theorem updBat_aux (s : State) (f : Battery → Battery) : (s.updBat f).aux = s.aux := rfl
@[simp] theorem updBat_pos (s : State) (f : Battery → Battery) : (s.updBat f).pos = s.pos := rfl
@[simp] theorem updBat_safe (s : State) (f : Battery → Battery) : (s.updBat f).safe = s.safe := rfl
@[simp] theorem updBat_en (s : State) (f : Battery → Battery) : (s.updBat f).en = s.en := rfl
@[simp] theorem updBat_fw (s : State) (f : Battery → Battery) : (s.updBat f).fw = s.fw := rfl

@[simp] theorem updPantry_pending (s : State) (f : Pantry → Pantry) : (s.updPantry f).pending = s.pending := rfl
@[simp] theorem updPantry_mono (s : State) (f : Pantry → Pantry) : (s.updPantry f).mono = s.mono := rfl
@[simp] theorem updPantry_freeCount (s : State) (f : Pantry → Pantry) : (s.updPantry f).freeCount = s.freeCount := rfl
@[simp] theorem updPantry_todo (s : State) (f : Pantry → Pantry) : (s.updPantry f).todo = s.todo := rfl
@[simp] theorem updPantry_hatch (s : State) (f : Pantry → Pantry) : (s.updPantry f).hatch = s.hatch := rfl
@[simp] theorem updPantry_notif (s : State) (f : Pantry → Pantry) : (s.updPantry f).notif = s.notif := rfl
@[simp] theorem updPantry_par (s : State) (f : Pantry → Pantry) : (s.updPantry f).par = s.par := rfl
@[simp] theorem updPantry_faults (s : State) (f : Pantry → Pantry) : (s.updPantry f).faults = s.faults := rfl
@[simp] theorem updPantry_sys (s : State) (f : Pantry → Pantry) : (s.updPantry f).sys = s.sys := rfl
@[simp] theorem updPantry_time (s : State) (f : Pantry → Pantry) : (s.updPantry f).time = s.time := rfl
@[simp] theorem updPantry_sta (s : State) (f : Pantry → Pantry) : (s.updPantry f).sta = s.sta := rfl
@[simp] theorem updPantry_twin (s : State) (f : Pantry → Pantry) : (s.updPantry f).twin = s.twin := rfl
@[simp] theorem updPantry_bat (s : State) (f : Pantry → Pantry) : (s.updPantry f).bat = s.bat := rfl
@[simp] theorem updPantry_pantry (s : State) (f : Pantry → Pantry) : (s.updPantry f).pantry = f s.pantry := rfl
@[simp] theorem updPantry_lanes (s : State) (f : Pantry → Pantry) : (s.updPantry f).lanes = s.lanes := rfl
@[simp] theorem updPantry_roll (s : State) (f : Pantry → Pantry) : (s.updPantry f).roll = s.roll := rfl
@[simp] theorem updPantry_links (s : State) (f : Pantry → Pantry) : (s.updPantry f).links = s.links := rfl
@[simp] theorem updPantry_mod (s : State) (f : Pantry → Pantry) : (s.updPantry f).mod = s.mod := rfl
@[simp] theorem updPantry_prot (s : State) (f : Pantry → Pantry) : (s.updPantry f).prot = s.prot := rfl
@[simp] theorem updPantry_dt (s : State) (f : Pantry → Pantry) : (s.updPantry f).dt = s.dt := rfl
@[simp] theorem updPantry_le (s : State) (f : Pantry → Pantry) : (s.updPantry f).le = s.le := rfl
@[simp] theorem updPantry_ring (s : State) (f : Pantry → Pantry) : (s.updPantry f).ring = s.ring := rfl
@[simp] theorem updPantry_hk (s : State) (f : Pantry → Pantry) : (s.updPantry f).hk = s.hk := rfl
@[simp] theorem updPantry_aux (s : State) (f : Pantry → Pantry) : (s.updPantry f).aux = s.aux := rfl
@[simp] theorem updPantry_pos (s : State) (f : Pantry → Pantry) : (s.updPantry f).pos = s.pos := rfl
@[simp] theorem updPantry_safe (s : State) (f : Pantry → Pantry) : (s.updPantry f).safe = s.safe := rfl
@[simp] theorem updPantry_en (s : State) (f : Pantry → Pantry) : (s.updPantry f).en = s.en := rfl
@[simp] theorem updPantry_fw (s : State) (f : Pantry → Pantry) : (s.updPantry f).fw = s.fw := rfl

@[simp] theorem updLanes_pending (s : State) (f : Lanes → Lanes) : (s.updLanes f).pending = s.pending := rfl
@[simp] theorem updLanes_mono (s : State) (f : Lanes → Lanes) : (s.updLanes f).mono = s.mono := rfl
@[simp] theorem updLanes_freeCount (s : State) (f : Lanes → Lanes) : (s.updLanes f).freeCount = s.freeCount := rfl
@[simp] theorem updLanes_todo (s : State) (f : Lanes → Lanes) : (s.updLanes f).todo = s.todo := rfl
@[simp] theorem updLanes_hatch (s : State) (f : Lanes → Lanes) : (s.updLanes f).hatch = s.hatch := rfl
@[simp] theorem updLanes_notif (s : State) (f : Lanes → Lanes) : (s.updLanes f).notif = s.notif := rfl
@[simp] theorem updLanes_par (s : State) (f : Lanes → Lanes) : (s.updLanes f).par = s.par := rfl
@[simp] theorem updLanes_faults (s : State) (f : Lanes → Lanes) : (s.updLanes f).faults = s.faults := rfl
@[simp] theorem updLanes_sys (s : State) (f : Lanes → Lanes) : (s.updLanes f).sys = s.sys := rfl
@[simp] theorem updLanes_time (s : State) (f : Lanes → Lanes) : (s.updLanes f).time = s.time := rfl
@[simp] theorem updLanes_sta (s : State) (f : Lanes → Lanes) : (s.updLanes f).sta = s.sta := rfl
@[simp] theorem updLanes_twin (s : State) (f : Lanes → Lanes) : (s.updLanes f).twin = s.twin := rfl
@[simp] theorem updLanes_bat (s : State) (f : Lanes → Lanes) : (s.updLanes f).bat = s.bat := rfl
@[simp] theorem updLanes_pantry (s : State) (f : Lanes → Lanes) : (s.updLanes f).pantry = s.pantry := rfl
@[simp] theorem updLanes_lanes (s : State) (f : Lanes → Lanes) : (s.updLanes f).lanes = f s.lanes := rfl
@[simp] theorem updLanes_roll (s : State) (f : Lanes → Lanes) : (s.updLanes f).roll = s.roll := rfl
@[simp] theorem updLanes_links (s : State) (f : Lanes → Lanes) : (s.updLanes f).links = s.links := rfl
@[simp] theorem updLanes_mod (s : State) (f : Lanes → Lanes) : (s.updLanes f).mod = s.mod := rfl
@[simp] theorem updLanes_prot (s : State) (f : Lanes → Lanes) : (s.updLanes f).prot = s.prot := rfl
@[simp] theorem updLanes_dt (s : State) (f : Lanes → Lanes) : (s.updLanes f).dt = s.dt := rfl
@[simp] theorem updLanes_le (s : State) (f : Lanes → Lanes) : (s.updLanes f).le = s.le := rfl
@[simp] theorem updLanes_ring (s : State) (f : Lanes → Lanes) : (s.updLanes f).ring = s.ring := rfl
@[simp] theorem updLanes_hk (s : State) (f : Lanes → Lanes) : (s.updLanes f).hk = s.hk := rfl
@[simp] theorem updLanes_aux (s : State) (f : Lanes → Lanes) : (s.updLanes f).aux = s.aux := rfl
@[simp] theorem updLanes_pos (s : State) (f : Lanes → Lanes) : (s.updLanes f).pos = s.pos := rfl
@[simp] theorem updLanes_safe (s : State) (f : Lanes → Lanes) : (s.updLanes f).safe = s.safe := rfl
@[simp] theorem updLanes_en (s : State) (f : Lanes → Lanes) : (s.updLanes f).en = s.en := rfl
@[simp] theorem updLanes_fw (s : State) (f : Lanes → Lanes) : (s.updLanes f).fw = s.fw := rfl

@[simp] theorem updRoll_pending (s : State) (f : Roll → Roll) : (s.updRoll f).pending = s.pending := rfl
@[simp] theorem updRoll_mono (s : State) (f : Roll → Roll) : (s.updRoll f).mono = s.mono := rfl
@[simp] theorem updRoll_freeCount (s : State) (f : Roll → Roll) : (s.updRoll f).freeCount = s.freeCount := rfl
@[simp] theorem updRoll_todo (s : State) (f : Roll → Roll) : (s.updRoll f).todo = s.todo := rfl
@[simp] theorem updRoll_hatch (s : State) (f : Roll → Roll) : (s.updRoll f).hatch = s.hatch := rfl
@[simp] theorem updRoll_notif (s : State) (f : Roll → Roll) : (s.updRoll f).notif = s.notif := rfl
@[simp] theorem updRoll_par (s : State) (f : Roll → Roll) : (s.updRoll f).par = s.par := rfl
@[simp] theorem updRoll_faults (s : State) (f : Roll → Roll) : (s.updRoll f).faults = s.faults := rfl
@[simp] theorem updRoll_sys (s : State) (f : Roll → Roll) : (s.updRoll f).sys = s.sys := rfl
@[simp] theorem updRoll_time (s : State) (f : Roll → Roll) : (s.updRoll f).time = s.time := rfl
@[simp] theorem updRoll_sta (s : State) (f : Roll → Roll) : (s.updRoll f).sta = s.sta := rfl
@[simp] theorem updRoll_twin (s : State) (f : Roll → Roll) : (s.updRoll f).twin = s.twin := rfl
@[simp] theorem updRoll_bat (s : State) (f : Roll → Roll) : (s.updRoll f).bat = s.bat := rfl
@[simp] theorem updRoll_pantry (s : State) (f : Roll → Roll) : (s.updRoll f).pantry = s.pantry := rfl
@[simp] theorem updRoll_lanes (s : State) (f : Roll → Roll) : (s.updRoll f).lanes = s.lanes := rfl
@[simp] theorem updRoll_roll (s : State) (f : Roll → Roll) : (s.updRoll f).roll = f s.roll := rfl
@[simp] theorem updRoll_links (s : State) (f : Roll → Roll) : (s.updRoll f).links = s.links := rfl
@[simp] theorem updRoll_mod (s : State) (f : Roll → Roll) : (s.updRoll f).mod = s.mod := rfl
@[simp] theorem updRoll_prot (s : State) (f : Roll → Roll) : (s.updRoll f).prot = s.prot := rfl
@[simp] theorem updRoll_dt (s : State) (f : Roll → Roll) : (s.updRoll f).dt = s.dt := rfl
@[simp] theorem updRoll_le (s : State) (f : Roll → Roll) : (s.updRoll f).le = s.le := rfl
@[simp] theorem updRoll_ring (s : State) (f : Roll → Roll) : (s.updRoll f).ring = s.ring := rfl
@[simp] theorem updRoll_hk (s : State) (f : Roll → Roll) : (s.updRoll f).hk = s.hk := rfl
@[simp] theorem updRoll_aux (s : State) (f : Roll → Roll) : (s.updRoll f).aux = s.aux := rfl
@[simp] theorem updRoll_pos (s : State) (f : Roll → Roll) : (s.updRoll f).pos = s.pos := rfl
@[simp] theorem updRoll_safe (s : State) (f : Roll → Roll) : (s.updRoll f).safe = s.safe := rfl
@[simp] theorem updRoll_en (s : State) (f : Roll → Roll) : (s.updRoll f).en = s.en := rfl
@[simp] theorem updRoll_fw (s : State) (f : Roll → Roll) : (s.updRoll f).fw = s.fw := rfl

@[simp] theorem updLinks_pending (s : State) (f : Links → Links) : (s.updLinks f).pending = s.pending := rfl
@[simp] theorem updLinks_mono (s : State) (f : Links → Links) : (s.updLinks f).mono = s.mono := rfl
@[simp] theorem updLinks_freeCount (s : State) (f : Links → Links) : (s.updLinks f).freeCount = s.freeCount := rfl
@[simp] theorem updLinks_todo (s : State) (f : Links → Links) : (s.updLinks f).todo = s.todo := rfl
@[simp] theorem updLinks_hatch (s : State) (f : Links → Links) : (s.updLinks f).hatch = s.hatch := rfl
@[simp] theorem updLinks_notif (s : State) (f : Links → Links) : (s.updLinks f).notif = s.notif := rfl
@[simp] theorem updLinks_par (s : State) (f : Links → Links) : (s.updLinks f).par = s.par := rfl
@[simp] theorem updLinks_faults (s : State) (f : Links → Links) : (s.updLinks f).faults = s.faults := rfl
@[simp] theorem updLinks_sys (s : State) (f : Links → Links) : (s.updLinks f).sys = s.sys := rfl
@[simp] theorem updLinks_time (s : State) (f : Links → Links) : (s.updLinks f).time = s.time := rfl
@[simp] theorem updLinks_sta (s : State) (f : Links → Links) : (s.updLinks f).sta = s.sta := rfl
@[simp] theorem updLinks_twin (s : State) (f : Links → Links) : (s.updLinks f).twin = s.twin := rfl
@[simp] theorem updLinks_bat (s : State) (f : Links → Links) : (s.updLinks f).bat = s.bat := rfl
@[simp] theorem updLinks_pantry (s : State) (f : Links → Links) : (s.updLinks f).pantry = s.pantry := rfl
@[simp] theorem updLinks_lanes (s : State) (f : Links → Links) : (s.updLinks f).lanes = s.lanes := rfl
@[simp] theorem updLinks_roll (s : State) (f : Links → Links) : (s.updLinks f).roll = s.roll := rfl
@[simp] theorem updLinks_links (s : State) (f : Links → Links) : (s.updLinks f).links = f s.links := rfl
@[simp] theorem updLinks_mod (s : State) (f : Links → Links) : (s.updLinks f).mod = s.mod := rfl
@[simp] theorem updLinks_prot (s : State) (f : Links → Links) : (s.updLinks f).prot = s.prot := rfl
@[simp] theorem updLinks_dt (s : State) (f : Links → Links) : (s.updLinks f).dt = s.dt := rfl
@[simp] theorem updLinks_le (s : State) (f : Links → Links) : (s.updLinks f).le = s.le := rfl
@[simp] theorem updLinks_ring (s : State) (f : Links → Links) : (s.updLinks f).ring = s.ring := rfl
@[simp] theorem updLinks_hk (s : State) (f : Links → Links) : (s.updLinks f).hk = s.hk := rfl
@[simp] theorem updLinks_aux (s : State) (f : Links → Links) : (s.updLinks f).aux = s.aux := rfl
@[simp] theorem updLinks_pos (s : State) (f : Links → Links) : (s.updLinks f).pos = s.pos := rfl
@[simp] theorem updLinks_safe (s : State) (f : Links → Links) : (s.updLinks f).safe = s.safe := rfl
@[simp] theorem updLinks_en (s : State) (f : Links → Links) : (s.updLinks f).en = s.en := rfl
@[simp] theorem updLinks_fw (s : State) (f : Links → Links) : (s.updLinks f).fw = s.fw := rfl

@[simp] theorem updMod_pending (s : State) (f : Mod → Mod) : (s.updMod f).pending = s.pending := rfl
@[simp] theorem updMod_mono (s : State) (f : Mod → Mod) : (s.updMod f).mono = s.mono := rfl
@[simp] theorem updMod_freeCount (s : State) (f : Mod → Mod) : (s.updMod f).freeCount = s.freeCount := rfl
@[simp] theorem updMod_todo (s : State) (f : Mod → Mod) : (s.updMod f).todo = s.todo := rfl
@[simp] theorem updMod_hatch (s : State) (f : Mod → Mod) : (s.updMod f).hatch = s.hatch := rfl
@[simp] theorem updMod_notif (s : State) (f : Mod → Mod) : (s.updMod f).notif = s.notif := rfl
@[simp] theorem updMod_par (s : State) (f : Mod → Mod) : (s.updMod f).par = s.par := rfl
@[simp] theorem updMod_faults (s : State) (f : Mod → Mod) : (s.updMod f).faults = s.faults := rfl
@[simp] theorem updMod_sys (s : State) (f : Mod → Mod) : (s.updMod f).sys = s.sys := rfl
@[simp] theorem updMod_time (s : State) (f : Mod → Mod) : (s.updMod f).time = s.time := rfl
@[simp] theorem updMod_sta (s : State) (f : Mod → Mod) : (s.updMod f).sta = s.sta := rfl
@[simp] theorem updMod_twin (s : State) (f : Mod → Mod) : (s.updMod f).twin = s.twin := rfl
@[simp] theorem updMod_bat (s : State) (f : Mod → Mod) : (s.updMod f).bat = s.bat := rfl
@[simp] theorem updMod_pantry (s : State) (f : Mod → Mod) : (s.updMod f).pantry = s.pantry := rfl
@[simp] theorem updMod_lanes (s : State) (f : Mod → Mod) : (s.updMod f).lanes = s.lanes := rfl
@[simp] theorem updMod_roll (s : State) (f : Mod → Mod) : (s.updMod f).roll = s.roll := rfl
@[simp] theorem updMod_links (s : State) (f : Mod → Mod) : (s.updMod f).links = s.links := rfl
@[simp] theorem updMod_mod (s : State) (f : Mod → Mod) : (s.updMod f).mod = f s.mod := rfl
@[simp] theorem updMod_prot (s : State) (f : Mod → Mod) : (s.updMod f).prot = s.prot := rfl
@[simp] theorem updMod_dt (s : State) (f : Mod → Mod) : (s.updMod f).dt = s.dt := rfl
@[simp] theorem updMod_le (s : State) (f : Mod → Mod) : (s.updMod f).le = s.le := rfl
@[simp] theorem updMod_ring (s : State) (f : Mod → Mod) : (s.updMod f).ring = s.ring := rfl
@[simp] theorem updMod_hk (s : State) (f : Mod → Mod) : (s.updMod f).hk = s.hk := rfl
@[simp] theorem updMod_aux (s : State) (f : Mod → Mod) : (s.updMod f).aux = s.aux := rfl
@[simp] theorem updMod_pos (s : State) (f : Mod → Mod) : (s.updMod f).pos = s.pos := rfl
@[simp] theorem updMod_safe (s : State) (f : Mod → Mod) : (s.updMod f).safe = s.safe := rfl
@[simp] theorem updMod_en (s : State) (f : Mod → Mod) : (s.updMod f).en = s.en := rfl
@[simp] theorem updMod_fw (s : State) (f : Mod → Mod) : (s.updMod f).fw = s.fw := rfl

@[simp] theorem updProt_pending (s : State) (f : Prot → Prot) : (s.updProt f).pending = s.pending := rfl
@[simp] theorem updProt_mono (s : State) (f : Prot → Prot) : (s.updProt f).mono = s.mono := rfl
@[simp] theorem updProt_freeCount (s : State) (f : Prot → Prot) : (s.updProt f).freeCount = s.freeCount := rfl
@[simp] theorem updProt_todo (s : State) (f : Prot → Prot) : (s.updProt f).todo = s.todo := rfl
@[simp] theorem updProt_hatch (s : State) (f : Prot → Prot) : (s.updProt f).hatch = s.hatch := rfl
@[simp] theorem updProt_notif (s : State) (f : Prot → Prot) : (s.updProt f).notif = s.notif := rfl
@[simp] theorem updProt_par (s : State) (f : Prot → Prot) : (s.updProt f).par = s.par := rfl
@[simp] theorem updProt_faults (s : State) (f : Prot → Prot) : (s.updProt f).faults = s.faults := rfl
@[simp] theorem updProt_sys (s : State) (f : Prot → Prot) : (s.updProt f).sys = s.sys := rfl
@[simp] theorem updProt_time (s : State) (f : Prot → Prot) : (s.updProt f).time = s.time := rfl
@[simp] theorem updProt_sta (s : State) (f : Prot → Prot) : (s.updProt f).sta = s.sta := rfl
@[simp] theorem updProt_twin (s : State) (f : Prot → Prot) : (s.updProt f).twin = s.twin := rfl
@[simp] theorem updProt_bat (s : State) (f : Prot → Prot) : (s.updProt f).bat = s.bat := rfl
@[simp] theorem updProt_pantry (s : State) (f : Prot → Prot) : (s.updProt f).pantry = s.pantry := rfl
@[simp] theorem updProt_lanes (s : State) (f : Prot → Prot) : (s.updProt f).lanes = s.lanes := rfl
@[simp] theorem updProt_roll (s : State) (f : Prot → Prot) : (s.updProt f).roll = s.roll := rfl
@[simp] theorem updProt_links (s : State) (f : Prot → Prot) : (s.updProt f).links = s.links := rfl
@[simp] theorem updProt_mod (s : State) (f : Prot → Prot) : (s.updProt f).mod = s.mod := rfl
@[simp] theorem updProt_prot (s : State) (f : Prot → Prot) : (s.updProt f).prot = f s.prot := rfl
@[simp] theorem updProt_dt (s : State) (f : Prot → Prot) : (s.updProt f).dt = s.dt := rfl
@[simp] theorem updProt_le (s : State) (f : Prot → Prot) : (s.updProt f).le = s.le := rfl
@[simp] theorem updProt_ring (s : State) (f : Prot → Prot) : (s.updProt f).ring = s.ring := rfl
@[simp] theorem updProt_hk (s : State) (f : Prot → Prot) : (s.updProt f).hk = s.hk := rfl
@[simp] theorem updProt_aux (s : State) (f : Prot → Prot) : (s.updProt f).aux = s.aux := rfl
@[simp] theorem updProt_pos (s : State) (f : Prot → Prot) : (s.updProt f).pos = s.pos := rfl
@[simp] theorem updProt_safe (s : State) (f : Prot → Prot) : (s.updProt f).safe = s.safe := rfl
@[simp] theorem updProt_en (s : State) (f : Prot → Prot) : (s.updProt f).en = s.en := rfl
@[simp] theorem updProt_fw (s : State) (f : Prot → Prot) : (s.updProt f).fw = s.fw := rfl

@[simp] theorem updDt_pending (s : State) (f : Dt → Dt) : (s.updDt f).pending = s.pending := rfl
@[simp] theorem updDt_mono (s : State) (f : Dt → Dt) : (s.updDt f).mono = s.mono := rfl
@[simp] theorem updDt_freeCount (s : State) (f : Dt → Dt) : (s.updDt f).freeCount = s.freeCount := rfl
@[simp] theorem updDt_todo (s : State) (f : Dt → Dt) : (s.updDt f).todo = s.todo := rfl
@[simp] theorem updDt_hatch (s : State) (f : Dt → Dt) : (s.updDt f).hatch = s.hatch := rfl
@[simp] theorem updDt_notif (s : State) (f : Dt → Dt) : (s.updDt f).notif = s.notif := rfl
@[simp] theorem updDt_par (s : State) (f : Dt → Dt) : (s.updDt f).par = s.par := rfl
@[simp] theorem updDt_faults (s : State) (f : Dt → Dt) : (s.updDt f).faults = s.faults := rfl
@[simp] theorem updDt_sys (s : State) (f : Dt → Dt) : (s.updDt f).sys = s.sys := rfl
@[simp] theorem updDt_time (s : State) (f : Dt → Dt) : (s.updDt f).time = s.time := rfl
@[simp] theorem updDt_sta (s : State) (f : Dt → Dt) : (s.updDt f).sta = s.sta := rfl
@[simp] theorem updDt_twin (s : State) (f : Dt → Dt) : (s.updDt f).twin = s.twin := rfl
@[simp] theorem updDt_bat (s : State) (f : Dt → Dt) : (s.updDt f).bat = s.bat := rfl
@[simp] theorem updDt_pantry (s : State) (f : Dt → Dt) : (s.updDt f).pantry = s.pantry := rfl
@[simp] theorem updDt_lanes (s : State) (f : Dt → Dt) : (s.updDt f).lanes = s.lanes := rfl
@[simp] theorem updDt_roll (s : State) (f : Dt → Dt) : (s.updDt f).roll = s.roll := rfl
@[simp] theorem updDt_links (s : State) (f : Dt → Dt) : (s.updDt f).links = s.links := rfl
@[simp] theorem updDt_mod (s : State) (f : Dt → Dt) : (s.updDt f).mod = s.mod := rfl
@[simp] theorem updDt_prot (s : State) (f : Dt → Dt) : (s.updDt f).prot = s.prot := rfl
@[simp] theorem updDt_dt (s : State) (f : Dt → Dt) : (s.updDt f).dt = f s.dt := rfl
@[simp] theorem updDt_le (s : State) (f : Dt → Dt) : (s.updDt f).le = s.le := rfl
@[simp] theorem updDt_ring (s : State) (f : Dt → Dt) : (s.updDt f).ring = s.ring := rfl
@[simp] theorem updDt_hk (s : State) (f : Dt → Dt) : (s.updDt f).hk = s.hk := rfl
@[simp] theorem updDt_aux (s : State) (f : Dt → Dt) : (s.updDt f).aux = s.aux := rfl
@[simp] theorem updDt_pos (s : State) (f : Dt → Dt) : (s.updDt f).pos = s.pos := rfl
@[simp] theorem updDt_safe (s : State) (f : Dt → Dt) : (s.updDt f).safe = s.safe := rfl
@[simp] theorem updDt_en (s : State) (f : Dt → Dt) : (s.updDt f).en = s.en := rfl
@[simp] theorem updDt_fw (s : State) (f : Dt → Dt) : (s.updDt f).fw = s.fw := rfl

@[simp] theorem updLe_pending (s : State) (f : LoopEng → LoopEng) : (s.updLe f).pending = s.pending := rfl
@[simp] theorem updLe_mono (s : State) (f : LoopEng → LoopEng) : (s.updLe f).mono = s.mono := rfl
@[simp] theorem updLe_freeCount (s : State) (f : LoopEng → LoopEng) : (s.updLe f).freeCount = s.freeCount := rfl
@[simp] theorem updLe_todo (s : State) (f : LoopEng → LoopEng) : (s.updLe f).todo = s.todo := rfl
@[simp] theorem updLe_hatch (s : State) (f : LoopEng → LoopEng) : (s.updLe f).hatch = s.hatch := rfl
@[simp] theorem updLe_notif (s : State) (f : LoopEng → LoopEng) : (s.updLe f).notif = s.notif := rfl
@[simp] theorem updLe_par (s : State) (f : LoopEng → LoopEng) : (s.updLe f).par = s.par := rfl
@[simp] theorem updLe_faults (s : State) (f : LoopEng → LoopEng) : (s.updLe f).faults = s.faults := rfl
@[simp] theorem updLe_sys (s : State) (f : LoopEng → LoopEng) : (s.updLe f).sys = s.sys := rfl
@[simp] theorem updLe_time (s : State) (f : LoopEng → LoopEng) : (s.updLe f).time = s.time := rfl
@[simp] theorem updLe_sta (s : State) (f : LoopEng → LoopEng) : (s.updLe f).sta = s.sta := rfl
@[simp] theorem updLe_twin (s : State) (f : LoopEng → LoopEng) : (s.updLe f).twin = s.twin := rfl
@[simp] theorem updLe_bat (s : State) (f : LoopEng → LoopEng) : (s.updLe f).bat = s.bat := rfl
@[simp] theorem updLe_pantry (s : State) (f : LoopEng → LoopEng) : (s.updLe f).pantry = s.pantry := rfl
@[simp] theorem updLe_lanes (s : State) (f : LoopEng → LoopEng) : (s.updLe f).lanes = s.lanes := rfl
@[simp] theorem updLe_roll (s : State) (f : LoopEng → LoopEng) : (s.updLe f).roll = s.roll := rfl
@[simp] theorem updLe_links (s : State) (f : LoopEng → LoopEng) : (s.updLe f).links = s.links := rfl
@[simp] theorem updLe_mod (s : State) (f : LoopEng → LoopEng) : (s.updLe f).mod = s.mod := rfl
@[simp] theorem updLe_prot (s : State) (f : LoopEng → LoopEng) : (s.updLe f).prot = s.prot := rfl
@[simp] theorem updLe_dt (s : State) (f : LoopEng → LoopEng) : (s.updLe f).dt = s.dt := rfl
@[simp] theorem updLe_le (s : State) (f : LoopEng → LoopEng) : (s.updLe f).le = f s.le := rfl
@[simp] theorem updLe_ring (s : State) (f : LoopEng → LoopEng) : (s.updLe f).ring = s.ring := rfl
@[simp] theorem updLe_hk (s : State) (f : LoopEng → LoopEng) : (s.updLe f).hk = s.hk := rfl
@[simp] theorem updLe_aux (s : State) (f : LoopEng → LoopEng) : (s.updLe f).aux = s.aux := rfl
@[simp] theorem updLe_pos (s : State) (f : LoopEng → LoopEng) : (s.updLe f).pos = s.pos := rfl
@[simp] theorem updLe_safe (s : State) (f : LoopEng → LoopEng) : (s.updLe f).safe = s.safe := rfl
@[simp] theorem updLe_en (s : State) (f : LoopEng → LoopEng) : (s.updLe f).en = s.en := rfl
@[simp] theorem updLe_fw (s : State) (f : LoopEng → LoopEng) : (s.updLe f).fw = s.fw := rfl

@[simp] theorem updRing_pending (s : State) (f : RingUnit → RingUnit) : (s.updRing f).pending = s.pending := rfl
@[simp] theorem updRing_mono (s : State) (f : RingUnit → RingUnit) : (s.updRing f).mono = s.mono := rfl
@[simp] theorem updRing_freeCount (s : State) (f : RingUnit → RingUnit) : (s.updRing f).freeCount = s.freeCount := rfl
@[simp] theorem updRing_todo (s : State) (f : RingUnit → RingUnit) : (s.updRing f).todo = s.todo := rfl
@[simp] theorem updRing_hatch (s : State) (f : RingUnit → RingUnit) : (s.updRing f).hatch = s.hatch := rfl
@[simp] theorem updRing_notif (s : State) (f : RingUnit → RingUnit) : (s.updRing f).notif = s.notif := rfl
@[simp] theorem updRing_par (s : State) (f : RingUnit → RingUnit) : (s.updRing f).par = s.par := rfl
@[simp] theorem updRing_faults (s : State) (f : RingUnit → RingUnit) : (s.updRing f).faults = s.faults := rfl
@[simp] theorem updRing_sys (s : State) (f : RingUnit → RingUnit) : (s.updRing f).sys = s.sys := rfl
@[simp] theorem updRing_time (s : State) (f : RingUnit → RingUnit) : (s.updRing f).time = s.time := rfl
@[simp] theorem updRing_sta (s : State) (f : RingUnit → RingUnit) : (s.updRing f).sta = s.sta := rfl
@[simp] theorem updRing_twin (s : State) (f : RingUnit → RingUnit) : (s.updRing f).twin = s.twin := rfl
@[simp] theorem updRing_bat (s : State) (f : RingUnit → RingUnit) : (s.updRing f).bat = s.bat := rfl
@[simp] theorem updRing_pantry (s : State) (f : RingUnit → RingUnit) : (s.updRing f).pantry = s.pantry := rfl
@[simp] theorem updRing_lanes (s : State) (f : RingUnit → RingUnit) : (s.updRing f).lanes = s.lanes := rfl
@[simp] theorem updRing_roll (s : State) (f : RingUnit → RingUnit) : (s.updRing f).roll = s.roll := rfl
@[simp] theorem updRing_links (s : State) (f : RingUnit → RingUnit) : (s.updRing f).links = s.links := rfl
@[simp] theorem updRing_mod (s : State) (f : RingUnit → RingUnit) : (s.updRing f).mod = s.mod := rfl
@[simp] theorem updRing_prot (s : State) (f : RingUnit → RingUnit) : (s.updRing f).prot = s.prot := rfl
@[simp] theorem updRing_dt (s : State) (f : RingUnit → RingUnit) : (s.updRing f).dt = s.dt := rfl
@[simp] theorem updRing_le (s : State) (f : RingUnit → RingUnit) : (s.updRing f).le = s.le := rfl
@[simp] theorem updRing_ring (s : State) (f : RingUnit → RingUnit) : (s.updRing f).ring = f s.ring := rfl
@[simp] theorem updRing_hk (s : State) (f : RingUnit → RingUnit) : (s.updRing f).hk = s.hk := rfl
@[simp] theorem updRing_aux (s : State) (f : RingUnit → RingUnit) : (s.updRing f).aux = s.aux := rfl
@[simp] theorem updRing_pos (s : State) (f : RingUnit → RingUnit) : (s.updRing f).pos = s.pos := rfl
@[simp] theorem updRing_safe (s : State) (f : RingUnit → RingUnit) : (s.updRing f).safe = s.safe := rfl
@[simp] theorem updRing_en (s : State) (f : RingUnit → RingUnit) : (s.updRing f).en = s.en := rfl
@[simp] theorem updRing_fw (s : State) (f : RingUnit → RingUnit) : (s.updRing f).fw = s.fw := rfl

@[simp] theorem updHk_pending (s : State) (f : HkUnit → HkUnit) : (s.updHk f).pending = s.pending := rfl
@[simp] theorem updHk_mono (s : State) (f : HkUnit → HkUnit) : (s.updHk f).mono = s.mono := rfl
@[simp] theorem updHk_freeCount (s : State) (f : HkUnit → HkUnit) : (s.updHk f).freeCount = s.freeCount := rfl
@[simp] theorem updHk_todo (s : State) (f : HkUnit → HkUnit) : (s.updHk f).todo = s.todo := rfl
@[simp] theorem updHk_hatch (s : State) (f : HkUnit → HkUnit) : (s.updHk f).hatch = s.hatch := rfl
@[simp] theorem updHk_notif (s : State) (f : HkUnit → HkUnit) : (s.updHk f).notif = s.notif := rfl
@[simp] theorem updHk_par (s : State) (f : HkUnit → HkUnit) : (s.updHk f).par = s.par := rfl
@[simp] theorem updHk_faults (s : State) (f : HkUnit → HkUnit) : (s.updHk f).faults = s.faults := rfl
@[simp] theorem updHk_sys (s : State) (f : HkUnit → HkUnit) : (s.updHk f).sys = s.sys := rfl
@[simp] theorem updHk_time (s : State) (f : HkUnit → HkUnit) : (s.updHk f).time = s.time := rfl
@[simp] theorem updHk_sta (s : State) (f : HkUnit → HkUnit) : (s.updHk f).sta = s.sta := rfl
@[simp] theorem updHk_twin (s : State) (f : HkUnit → HkUnit) : (s.updHk f).twin = s.twin := rfl
@[simp] theorem updHk_bat (s : State) (f : HkUnit → HkUnit) : (s.updHk f).bat = s.bat := rfl
@[simp] theorem updHk_pantry (s : State) (f : HkUnit → HkUnit) : (s.updHk f).pantry = s.pantry := rfl
@[simp] theorem updHk_lanes (s : State) (f : HkUnit → HkUnit) : (s.updHk f).lanes = s.lanes := rfl
@[simp] theorem updHk_roll (s : State) (f : HkUnit → HkUnit) : (s.updHk f).roll = s.roll := rfl
@[simp] theorem updHk_links (s : State) (f : HkUnit → HkUnit) : (s.updHk f).links = s.links := rfl
@[simp] theorem updHk_mod (s : State) (f : HkUnit → HkUnit) : (s.updHk f).mod = s.mod := rfl
@[simp] theorem updHk_prot (s : State) (f : HkUnit → HkUnit) : (s.updHk f).prot = s.prot := rfl
@[simp] theorem updHk_dt (s : State) (f : HkUnit → HkUnit) : (s.updHk f).dt = s.dt := rfl
@[simp] theorem updHk_le (s : State) (f : HkUnit → HkUnit) : (s.updHk f).le = s.le := rfl
@[simp] theorem updHk_ring (s : State) (f : HkUnit → HkUnit) : (s.updHk f).ring = s.ring := rfl
@[simp] theorem updHk_hk (s : State) (f : HkUnit → HkUnit) : (s.updHk f).hk = f s.hk := rfl
@[simp] theorem updHk_aux (s : State) (f : HkUnit → HkUnit) : (s.updHk f).aux = s.aux := rfl
@[simp] theorem updHk_pos (s : State) (f : HkUnit → HkUnit) : (s.updHk f).pos = s.pos := rfl
@[simp] theorem updHk_safe (s : State) (f : HkUnit → HkUnit) : (s.updHk f).safe = s.safe := rfl
@[simp] theorem updHk_en (s : State) (f : HkUnit → HkUnit) : (s.updHk f).en = s.en := rfl
@[simp] theorem updHk_fw (s : State) (f : HkUnit → HkUnit) : (s.updHk f).fw = s.fw := rfl

@[simp] theorem updAux_pending (s : State) (f : AuxUnit → AuxUnit) : (s.updAux f).pending = s.pending := rfl
@[simp] theorem updAux_mono (s : State) (f : AuxUnit → AuxUnit) : (s.updAux f).mono = s.mono := rfl
@[simp] theorem updAux_freeCount (s : State) (f : AuxUnit → AuxUnit) : (s.updAux f).freeCount = s.freeCount := rfl
@[simp] theorem updAux_todo (s : State) (f : AuxUnit → AuxUnit) : (s.updAux f).todo = s.todo := rfl
@[simp] theorem updAux_hatch (s : State) (f : AuxUnit → AuxUnit) : (s.updAux f).hatch = s.hatch := rfl
@[simp] theorem updAux_notif (s : State) (f : AuxUnit → AuxUnit) : (s.updAux f).notif = s.notif := rfl
@[simp] theorem updAux_par (s : State) (f : AuxUnit → AuxUnit) : (s.updAux f).par = s.par := rfl
@[simp] theorem updAux_faults (s : State) (f : AuxUnit → AuxUnit) : (s.updAux f).faults = s.faults := rfl
@[simp] theorem updAux_sys (s : State) (f : AuxUnit → AuxUnit) : (s.updAux f).sys = s.sys := rfl
@[simp] theorem updAux_time (s : State) (f : AuxUnit → AuxUnit) : (s.updAux f).time = s.time := rfl
@[simp] theorem updAux_sta (s : State) (f : AuxUnit → AuxUnit) : (s.updAux f).sta = s.sta := rfl
@[simp] theorem updAux_twin (s : State) (f : AuxUnit → AuxUnit) : (s.updAux f).twin = s.twin := rfl
@[simp] theorem updAux_bat (s : State) (f : AuxUnit → AuxUnit) : (s.updAux f).bat = s.bat := rfl
@[simp] theorem updAux_pantry (s : State) (f : AuxUnit → AuxUnit) : (s.updAux f).pantry = s.pantry := rfl
@[simp] theorem updAux_lanes (s : State) (f : AuxUnit → AuxUnit) : (s.updAux f).lanes = s.lanes := rfl
@[simp] theorem updAux_roll (s : State) (f : AuxUnit → AuxUnit) : (s.updAux f).roll = s.roll := rfl
@[simp] theorem updAux_links (s : State) (f : AuxUnit → AuxUnit) : (s.updAux f).links = s.links := rfl
@[simp] theorem updAux_mod (s : State) (f : AuxUnit → AuxUnit) : (s.updAux f).mod = s.mod := rfl
@[simp] theorem updAux_prot (s : State) (f : AuxUnit → AuxUnit) : (s.updAux f).prot = s.prot := rfl
@[simp] theorem updAux_dt (s : State) (f : AuxUnit → AuxUnit) : (s.updAux f).dt = s.dt := rfl
@[simp] theorem updAux_le (s : State) (f : AuxUnit → AuxUnit) : (s.updAux f).le = s.le := rfl
@[simp] theorem updAux_ring (s : State) (f : AuxUnit → AuxUnit) : (s.updAux f).ring = s.ring := rfl
@[simp] theorem updAux_hk (s : State) (f : AuxUnit → AuxUnit) : (s.updAux f).hk = s.hk := rfl
@[simp] theorem updAux_aux (s : State) (f : AuxUnit → AuxUnit) : (s.updAux f).aux = f s.aux := rfl
@[simp] theorem updAux_pos (s : State) (f : AuxUnit → AuxUnit) : (s.updAux f).pos = s.pos := rfl
@[simp] theorem updAux_safe (s : State) (f : AuxUnit → AuxUnit) : (s.updAux f).safe = s.safe := rfl
@[simp] theorem updAux_en (s : State) (f : AuxUnit → AuxUnit) : (s.updAux f).en = s.en := rfl
@[simp] theorem updAux_fw (s : State) (f : AuxUnit → AuxUnit) : (s.updAux f).fw = s.fw := rfl

@[simp] theorem updPos_pending (s : State) (f : PosUnit → PosUnit) : (s.updPos f).pending = s.pending := rfl
@[simp] theorem updPos_mono (s : State) (f : PosUnit → PosUnit) : (s.updPos f).mono = s.mono := rfl
@[simp] theorem updPos_freeCount (s : State) (f : PosUnit → PosUnit) : (s.updPos f).freeCount = s.freeCount := rfl
@[simp] theorem updPos_todo (s : State) (f : PosUnit → PosUnit) : (s.updPos f).todo = s.todo := rfl
@[simp] theorem updPos_hatch (s : State) (f : PosUnit → PosUnit) : (s.updPos f).hatch = s.hatch := rfl
@[simp] theorem updPos_notif (s : State) (f : PosUnit → PosUnit) : (s.updPos f).notif = s.notif := rfl
@[simp] theorem updPos_par (s : State) (f : PosUnit → PosUnit) : (s.updPos f).par = s.par := rfl
@[simp] theorem updPos_faults (s : State) (f : PosUnit → PosUnit) : (s.updPos f).faults = s.faults := rfl
@[simp] theorem updPos_sys (s : State) (f : PosUnit → PosUnit) : (s.updPos f).sys = s.sys := rfl
@[simp] theorem updPos_time (s : State) (f : PosUnit → PosUnit) : (s.updPos f).time = s.time := rfl
@[simp] theorem updPos_sta (s : State) (f : PosUnit → PosUnit) : (s.updPos f).sta = s.sta := rfl
@[simp] theorem updPos_twin (s : State) (f : PosUnit → PosUnit) : (s.updPos f).twin = s.twin := rfl
@[simp] theorem updPos_bat (s : State) (f : PosUnit → PosUnit) : (s.updPos f).bat = s.bat := rfl
@[simp] theorem updPos_pantry (s : State) (f : PosUnit → PosUnit) : (s.updPos f).pantry = s.pantry := rfl
@[simp] theorem updPos_lanes (s : State) (f : PosUnit → PosUnit) : (s.updPos f).lanes = s.lanes := rfl
@[simp] theorem updPos_roll (s : State) (f : PosUnit → PosUnit) : (s.updPos f).roll = s.roll := rfl
@[simp] theorem updPos_links (s : State) (f : PosUnit → PosUnit) : (s.updPos f).links = s.links := rfl
@[simp] theorem updPos_mod (s : State) (f : PosUnit → PosUnit) : (s.updPos f).mod = s.mod := rfl
@[simp] theorem updPos_prot (s : State) (f : PosUnit → PosUnit) : (s.updPos f).prot = s.prot := rfl
@[simp] theorem updPos_dt (s : State) (f : PosUnit → PosUnit) : (s.updPos f).dt = s.dt := rfl
@[simp] theorem updPos_le (s : State) (f : PosUnit → PosUnit) : (s.updPos f).le = s.le := rfl
@[simp] theorem updPos_ring (s : State) (f : PosUnit → PosUnit) : (s.updPos f).ring = s.ring := rfl
@[simp] theorem updPos_hk (s : State) (f : PosUnit → PosUnit) : (s.updPos f).hk = s.hk := rfl
@[simp] theorem updPos_aux (s : State) (f : PosUnit → PosUnit) : (s.updPos f).aux = s.aux := rfl
@[simp] theorem updPos_pos (s : State) (f : PosUnit → PosUnit) : (s.updPos f).pos = f s.pos := rfl
@[simp] theorem updPos_safe (s : State) (f : PosUnit → PosUnit) : (s.updPos f).safe = s.safe := rfl
@[simp] theorem updPos_en (s : State) (f : PosUnit → PosUnit) : (s.updPos f).en = s.en := rfl
@[simp] theorem updPos_fw (s : State) (f : PosUnit → PosUnit) : (s.updPos f).fw = s.fw := rfl

@[simp] theorem updSafe_pending (s : State) (f : SafeUnit → SafeUnit) : (s.updSafe f).pending = s.pending := rfl
@[simp] theorem updSafe_mono (s : State) (f : SafeUnit → SafeUnit) : (s.updSafe f).mono = s.mono := rfl
@[simp] theorem updSafe_freeCount (s : State) (f : SafeUnit → SafeUnit) : (s.updSafe f).freeCount = s.freeCount := rfl
@[simp] theorem updSafe_todo (s : State) (f : SafeUnit → SafeUnit) : (s.updSafe f).todo = s.todo := rfl
@[simp] theorem updSafe_hatch (s : State) (f : SafeUnit → SafeUnit) : (s.updSafe f).hatch = s.hatch := rfl
@[simp] theorem updSafe_notif (s : State) (f : SafeUnit → SafeUnit) : (s.updSafe f).notif = s.notif := rfl
@[simp] theorem updSafe_par (s : State) (f : SafeUnit → SafeUnit) : (s.updSafe f).par = s.par := rfl
@[simp] theorem updSafe_faults (s : State) (f : SafeUnit → SafeUnit) : (s.updSafe f).faults = s.faults := rfl
@[simp] theorem updSafe_sys (s : State) (f : SafeUnit → SafeUnit) : (s.updSafe f).sys = s.sys := rfl
@[simp] theorem updSafe_time (s : State) (f : SafeUnit → SafeUnit) : (s.updSafe f).time = s.time := rfl
@[simp] theorem updSafe_sta (s : State) (f : SafeUnit → SafeUnit) : (s.updSafe f).sta = s.sta := rfl
@[simp] theorem updSafe_twin (s : State) (f : SafeUnit → SafeUnit) : (s.updSafe f).twin = s.twin := rfl
@[simp] theorem updSafe_bat (s : State) (f : SafeUnit → SafeUnit) : (s.updSafe f).bat = s.bat := rfl
@[simp] theorem updSafe_pantry (s : State) (f : SafeUnit → SafeUnit) : (s.updSafe f).pantry = s.pantry := rfl
@[simp] theorem updSafe_lanes (s : State) (f : SafeUnit → SafeUnit) : (s.updSafe f).lanes = s.lanes := rfl
@[simp] theorem updSafe_roll (s : State) (f : SafeUnit → SafeUnit) : (s.updSafe f).roll = s.roll := rfl
@[simp] theorem updSafe_links (s : State) (f : SafeUnit → SafeUnit) : (s.updSafe f).links = s.links := rfl
@[simp] theorem updSafe_mod (s : State) (f : SafeUnit → SafeUnit) : (s.updSafe f).mod = s.mod := rfl
@[simp] theorem updSafe_prot (s : State) (f : SafeUnit → SafeUnit) : (s.updSafe f).prot = s.prot := rfl
@[simp] theorem updSafe_dt (s : State) (f : SafeUnit → SafeUnit) : (s.updSafe f).dt = s.dt := rfl
@[simp] theorem updSafe_le (s : State) (f : SafeUnit → SafeUnit) : (s.updSafe f).le = s.le := rfl
@[simp] theorem updSafe_ring (s : State) (f : SafeUnit → SafeUnit) : (s.updSafe f).ring = s.ring := rfl
@[simp] theorem updSafe_hk (s : State) (f : SafeUnit → SafeUnit) : (s.updSafe f).hk = s.hk := rfl
@[simp] theorem updSafe_aux (s : State) (f : SafeUnit → SafeUnit) : (s.updSafe f).aux = s.aux := rfl
@[simp] theorem updSafe_pos (s : State) (f : SafeUnit → SafeUnit) : (s.updSafe f).pos = s.pos := rfl
@[simp] theorem updSafe_safe (s : State) (f : SafeUnit → SafeUnit) : (s.updSafe f).safe = f s.safe := rfl
@[simp] theorem updSafe_en (s : State) (f : SafeUnit → SafeUnit) : (s.updSafe f).en = s.en := rfl
@[simp] theorem updSafe_fw (s : State) (f : SafeUnit → SafeUnit) : (s.updSafe f).fw = s.fw := rfl

@[simp] theorem updEn_pending (s : State) (f : Energy → Energy) : (s.updEn f).pending = s.pending := rfl
@[simp] theorem updEn_mono (s : State) (f : Energy → Energy) : (s.updEn f).mono = s.mono := rfl
@[simp] theorem updEn_freeCount (s : State) (f : Energy → Energy) : (s.updEn f).freeCount = s.freeCount := rfl
@[simp] theorem updEn_todo (s : State) (f : Energy → Energy) : (s.updEn f).todo = s.todo := rfl
@[simp] theorem updEn_hatch (s : State) (f : Energy → Energy) : (s.updEn f).hatch = s.hatch := rfl
@[simp] theorem updEn_notif (s : State) (f : Energy → Energy) : (s.updEn f).notif = s.notif := rfl
@[simp] theorem updEn_par (s : State) (f : Energy → Energy) : (s.updEn f).par = s.par := rfl
@[simp] theorem updEn_faults (s : State) (f : Energy → Energy) : (s.updEn f).faults = s.faults := rfl
@[simp] theorem updEn_sys (s : State) (f : Energy → Energy) : (s.updEn f).sys = s.sys := rfl
@[simp] theorem updEn_time (s : State) (f : Energy → Energy) : (s.updEn f).time = s.time := rfl
@[simp] theorem updEn_sta (s : State) (f : Energy → Energy) : (s.updEn f).sta = s.sta := rfl
@[simp] theorem updEn_twin (s : State) (f : Energy → Energy) : (s.updEn f).twin = s.twin := rfl
@[simp] theorem updEn_bat (s : State) (f : Energy → Energy) : (s.updEn f).bat = s.bat := rfl
@[simp] theorem updEn_pantry (s : State) (f : Energy → Energy) : (s.updEn f).pantry = s.pantry := rfl
@[simp] theorem updEn_lanes (s : State) (f : Energy → Energy) : (s.updEn f).lanes = s.lanes := rfl
@[simp] theorem updEn_roll (s : State) (f : Energy → Energy) : (s.updEn f).roll = s.roll := rfl
@[simp] theorem updEn_links (s : State) (f : Energy → Energy) : (s.updEn f).links = s.links := rfl
@[simp] theorem updEn_mod (s : State) (f : Energy → Energy) : (s.updEn f).mod = s.mod := rfl
@[simp] theorem updEn_prot (s : State) (f : Energy → Energy) : (s.updEn f).prot = s.prot := rfl
@[simp] theorem updEn_dt (s : State) (f : Energy → Energy) : (s.updEn f).dt = s.dt := rfl
@[simp] theorem updEn_le (s : State) (f : Energy → Energy) : (s.updEn f).le = s.le := rfl
@[simp] theorem updEn_ring (s : State) (f : Energy → Energy) : (s.updEn f).ring = s.ring := rfl
@[simp] theorem updEn_hk (s : State) (f : Energy → Energy) : (s.updEn f).hk = s.hk := rfl
@[simp] theorem updEn_aux (s : State) (f : Energy → Energy) : (s.updEn f).aux = s.aux := rfl
@[simp] theorem updEn_pos (s : State) (f : Energy → Energy) : (s.updEn f).pos = s.pos := rfl
@[simp] theorem updEn_safe (s : State) (f : Energy → Energy) : (s.updEn f).safe = s.safe := rfl
@[simp] theorem updEn_en (s : State) (f : Energy → Energy) : (s.updEn f).en = f s.en := rfl
@[simp] theorem updEn_fw (s : State) (f : Energy → Energy) : (s.updEn f).fw = s.fw := rfl

@[simp] theorem updFw_pending (s : State) (f : Firm → Firm) : (s.updFw f).pending = s.pending := rfl
@[simp] theorem updFw_mono (s : State) (f : Firm → Firm) : (s.updFw f).mono = s.mono := rfl
@[simp] theorem updFw_freeCount (s : State) (f : Firm → Firm) : (s.updFw f).freeCount = s.freeCount := rfl
@[simp] theorem updFw_todo (s : State) (f : Firm → Firm) : (s.updFw f).todo = s.todo := rfl
@[simp] theorem updFw_hatch (s : State) (f : Firm → Firm) : (s.updFw f).hatch = s.hatch := rfl
@[simp] theorem updFw_notif (s : State) (f : Firm → Firm) : (s.updFw f).notif = s.notif := rfl
@[simp] theorem updFw_par (s : State) (f : Firm → Firm) : (s.updFw f).par = s.par := rfl
@[simp] theorem updFw_faults (s : State) (f : Firm → Firm) : (s.updFw f).faults = s.faults := rfl
@[simp] theorem updFw_sys (s : State) (f : Firm → Firm) : (s.updFw f).sys = s.sys := rfl
@[simp] theorem updFw_time (s : State) (f : Firm → Firm) : (s.updFw f).time = s.time := rfl
@[simp] theorem updFw_sta (s : State) (f : Firm → Firm) : (s.updFw f).sta = s.sta := rfl
@[simp] theorem updFw_twin (s : State) (f : Firm → Firm) : (s.updFw f).twin = s.twin := rfl
@[simp] theorem updFw_bat (s : State) (f : Firm → Firm) : (s.updFw f).bat = s.bat := rfl
@[simp] theorem updFw_pantry (s : State) (f : Firm → Firm) : (s.updFw f).pantry = s.pantry := rfl
@[simp] theorem updFw_lanes (s : State) (f : Firm → Firm) : (s.updFw f).lanes = s.lanes := rfl
@[simp] theorem updFw_roll (s : State) (f : Firm → Firm) : (s.updFw f).roll = s.roll := rfl
@[simp] theorem updFw_links (s : State) (f : Firm → Firm) : (s.updFw f).links = s.links := rfl
@[simp] theorem updFw_mod (s : State) (f : Firm → Firm) : (s.updFw f).mod = s.mod := rfl
@[simp] theorem updFw_prot (s : State) (f : Firm → Firm) : (s.updFw f).prot = s.prot := rfl
@[simp] theorem updFw_dt (s : State) (f : Firm → Firm) : (s.updFw f).dt = s.dt := rfl
@[simp] theorem updFw_le (s : State) (f : Firm → Firm) : (s.updFw f).le = s.le := rfl
@[simp] theorem updFw_ring (s : State) (f : Firm → Firm) : (s.updFw f).ring = s.ring := rfl
@[simp] theorem updFw_hk (s : State) (f : Firm → Firm) : (s.updFw f).hk = s.hk := rfl
@[simp] theorem updFw_aux (s : State) (f : Firm → Firm) : (s.updFw f).aux = s.aux := rfl
@[simp] theorem updFw_pos (s : State) (f : Firm → Firm) : (s.updFw f).pos = s.pos := rfl
@[simp] theorem updFw_safe (s : State) (f : Firm → Firm) : (s.updFw f).safe = s.safe := rfl
@[simp] theorem updFw_en (s : State) (f : Firm → Firm) : (s.updFw f).en = s.en := rfl
@[simp] theorem updFw_fw (s : State) (f : Firm → Firm) : (s.updFw f).fw = f s.fw := rfl

end Sys2Proof.Machine
end

