-- ==== Sys2Proof/Laws/Tab.lean ====
section
/-!
SUPPORT. Sparse tables: what a write leaves at its key and at every other.
-/

namespace Sys2Proof.Machine

theorem tabFind_insert {α : Type} (k : Nat) (v : α) (l : List (Nat × α)) : tabFind k (tabInsert k v l) = some v := by
  induction l with
  | nil => simp [tabInsert, tabFind]
  | cons a r ih =>
    obtain ⟨k', v'⟩ := a
    unfold tabInsert
    split
    · simp [tabFind]
    · split
      · simp [tabFind]
      · rename_i h _
        simp [tabFind, h, ih]

theorem tabFind_insert_ne {α : Type} {j k : Nat} (h : j ≠ k) (v : α) (l : List (Nat × α)) :
    tabFind j (tabInsert k v l) = tabFind j l := by
  induction l with
  | nil => simp [tabInsert, tabFind, h.symm]
  | cons a r ih =>
    obtain ⟨k', v'⟩ := a
    unfold tabInsert
    split
    · rename_i e
      simp [tabFind, h.symm, e]
    · split
      · simp [tabFind, h.symm]
      · simp [tabFind, ih]

theorem tabFind_erase {α : Type} (k : Nat) (l : List (Nat × α)) : tabFind k (tabErase k l) = none := by
  induction l with
  | nil => rfl
  | cons a r ih =>
    obtain ⟨k', v'⟩ := a
    unfold tabErase
    split
    · exact ih
    · rename_i e
      simp [tabFind, e, ih]

theorem tabFind_erase_ne {α : Type} {j k : Nat} (h : j ≠ k) (l : List (Nat × α)) : tabFind j (tabErase k l) = tabFind j l := by
  induction l with
  | nil => rfl
  | cons a r ih =>
    obtain ⟨k', v'⟩ := a
    unfold tabErase
    split
    · rename_i e
      simp [tabFind, ih, e, h.symm]
    · simp [tabFind, ih]

@[simp] theorem Tab.get?_set {α : Type} (t : Tab α) (k : Nat) (v : α) : (t.set k v).get? k = some v := tabFind_insert k v t.cells
@[simp] theorem Tab.get?_set_ne {α : Type} (t : Tab α) {j k : Nat} (h : j ≠ k) (v : α) : (t.set k v).get? j = t.get? j :=
  tabFind_insert_ne h v t.cells
@[simp] theorem Tab.get_set {α : Type} (t : Tab α) (d : α) (k : Nat) (v : α) : (t.set k v).get d k = v := by simp [Tab.get]
@[simp] theorem Tab.get_set_ne {α : Type} (t : Tab α) (d : α) {j k : Nat} (h : j ≠ k) (v : α) : (t.set k v).get d j = t.get d j := by
  simp [Tab.get, h]
@[simp] theorem Tab.get?_erase {α : Type} (t : Tab α) (k : Nat) : (t.erase k).get? k = none := tabFind_erase k t.cells
@[simp] theorem Tab.get?_erase_ne {α : Type} (t : Tab α) {j k : Nat} (h : j ≠ k) : (t.erase k).get? j = t.get? j :=
  tabFind_erase_ne h t.cells
@[simp] theorem Tab.get_mod {α : Type} (t : Tab α) (d : α) (k : Nat) (f : α → α) : (t.mod d k f).get d k = f (t.get d k) := by
  simp [Tab.mod]
@[simp] theorem Tab.get_mod_ne {α : Type} (t : Tab α) (d : α) {j k : Nat} (h : j ≠ k) (f : α → α) :
    (t.mod d k f).get d j = t.get d j := by simp [Tab.mod, h]

end Sys2Proof.Machine
end

