-- ==== Sys2Proof/Laws/Elements.lean ====
section
/-!
SUPPORT. The elements of the state (a mailbox, a lane, a link, a string …): what a change leaves in the element changed and in every
other.
-/

namespace Sys2Proof.Machine

@[simp] theorem box_modBox (s : State) (n : Nat) (f : Mailbox → Mailbox) : (s.modBox n f).box n = f (s.box n) := by
  simp [State.box, State.modBox]
@[simp] theorem box_modBox_ne (s : State) {m n : Nat} (h : m ≠ n) (f : Mailbox → Mailbox) : (s.modBox n f).box m = s.box m := by
  simp [State.box, State.modBox, h]

@[simp] theorem lane_modLane (s : State) (n : Nat) (f : Lane → Lane) : (s.modLane n f).lane n = f (s.lane n) := by
  simp [State.lane, State.modLane]
@[simp] theorem lane_modLane_ne (s : State) {m n : Nat} (h : m ≠ n) (f : Lane → Lane) : (s.modLane n f).lane m = s.lane m := by
  simp [State.lane, State.modLane, h]

@[simp] theorem lnk_modLink (s : State) (n : Nat) (f : Link → Link) : (s.modLink n f).lnk n = f (s.lnk n) := by
  simp [State.lnk, State.modLink]
@[simp] theorem lnk_modLink_ne (s : State) {m n : Nat} (h : m ≠ n) (f : Link → Link) : (s.modLink n f).lnk m = s.lnk m := by
  simp [State.lnk, State.modLink, h]

@[simp] theorem rack_modRack (s : State) (n : Nat) (f : Rack → Rack) : (s.modRack n f).rack n = f (s.rack n) := by
  simp [State.rack, State.modRack]
@[simp] theorem rack_modRack_ne (s : State) {m n : Nat} (h : m ≠ n) (f : Rack → Rack) : (s.modRack n f).rack m = s.rack m := by
  simp [State.rack, State.modRack, h]

@[simp] theorem dly_modDly (s : State) (n : Nat) (f : DelayFilter → DelayFilter) : (s.modDly n f).dly n = f (s.dly n) := by
  simp [State.dly, State.modDly]
@[simp] theorem dly_modDly_ne (s : State) {m n : Nat} (h : m ≠ n) (f : DelayFilter → DelayFilter) : (s.modDly n f).dly m = s.dly m := by
  simp [State.dly, State.modDly, h]

@[simp] theorem str_modStr (s : State) (n : Nat) (f : Str → Str) : (s.modStr n f).str n = f (s.str n) := by
  simp [State.str, State.modStr]
@[simp] theorem str_modStr_ne (s : State) {m n : Nat} (h : m ≠ n) (f : Str → Str) : (s.modStr n f).str m = s.str m := by
  simp [State.str, State.modStr, h]

@[simp] theorem ml_modMl (s : State) (n : Nat) (f : ModLane → ModLane) : (s.modMl n f).ml n = f (s.ml n) := by
  simp [State.ml, State.modMl]
@[simp] theorem ml_modMl_ne (s : State) {m n : Nat} (h : m ≠ n) (f : ModLane → ModLane) : (s.modMl n f).ml m = s.ml m := by
  simp [State.ml, State.modMl, h]

@[simp] theorem prt_modPrt (s : State) (n : Nat) (f : ProtStr → ProtStr) : (s.modPrt n f).prt n = f (s.prt n) := by
  simp [State.prt, State.modPrt]
@[simp] theorem prt_modPrt_ne (s : State) {m n : Nat} (h : m ≠ n) (f : ProtStr → ProtStr) : (s.modPrt n f).prt m = s.prt m := by
  simp [State.prt, State.modPrt, h]

@[simp] theorem byp_modByp (s : State) (n : Nat) (f : Byp → Byp) : (s.modByp n f).byp n = f (s.byp n) := by
  simp [State.byp, State.modByp]
@[simp] theorem byp_modByp_ne (s : State) {m n : Nat} (h : m ≠ n) (f : Byp → Byp) : (s.modByp n f).byp m = s.byp m := by
  simp [State.byp, State.modByp, h]

@[simp] theorem dtl_modDtl (s : State) (n : Nat) (f : DtLane → DtLane) : (s.modDtl n f).dtl n = f (s.dtl n) := by
  simp [State.dtl, State.modDtl]
@[simp] theorem dtl_modDtl_ne (s : State) {m n : Nat} (h : m ≠ n) (f : DtLane → DtLane) : (s.modDtl n f).dtl m = s.dtl m := by
  simp [State.dtl, State.modDtl, h]

@[simp] theorem srt_modSrt (s : State) (n : Nat) (f : SortStr → SortStr) : (s.modSrt n f).srt n = f (s.srt n) := by
  simp [State.srt, State.modSrt]
@[simp] theorem srt_modSrt_ne (s : State) {m n : Nat} (h : m ≠ n) (f : SortStr → SortStr) : (s.modSrt n f).srt m = s.srt m := by
  simp [State.srt, State.modSrt, h]

@[simp] theorem rnode_modNode (s : State) (n : Nat) (f : RingNode → RingNode) : (s.modNode n f).rnode n = f (s.rnode n) := by
  simp [State.rnode, State.modNode]
@[simp] theorem rnode_modNode_ne (s : State) {m n : Nat} (h : m ≠ n) (f : RingNode → RingNode) : (s.modNode n f).rnode m = s.rnode m := by
  simp [State.rnode, State.modNode, h]

@[simp] theorem hkPair_modPair (s : State) (n : Nat) (f : HkPair → HkPair) : (s.modPair n f).hkPair n = f (s.hkPair n) := by
  simp [State.hkPair, State.modPair]
@[simp] theorem hkPair_modPair_ne (s : State) {m n : Nat} (h : m ≠ n) (f : HkPair → HkPair) : (s.modPair n f).hkPair m = s.hkPair m := by
  simp [State.hkPair, State.modPair, h]

@[simp] theorem hkVal_modHkVal (s : State) (n : Nat) (f : HkValue → HkValue) : (s.modHkVal n f).hkVal n = f (s.hkVal n) := by
  simp [State.hkVal, State.modHkVal]
@[simp] theorem hkVal_modHkVal_ne (s : State) {m n : Nat} (h : m ≠ n) (f : HkValue → HkValue) : (s.modHkVal n f).hkVal m = s.hkVal m := by
  simp [State.hkVal, State.modHkVal, h]

@[simp] theorem zone_modZone (s : State) (n : Nat) (f : ThermZone → ThermZone) : (s.modZone n f).zone n = f (s.zone n) := by
  simp [State.zone, State.modZone]
@[simp] theorem zone_modZone_ne (s : State) {m n : Nat} (h : m ≠ n) (f : ThermZone → ThermZone) : (s.modZone n f).zone m = s.zone m := by
  simp [State.zone, State.modZone, h]

@[simp] theorem br_modBr (s : State) (n : Nat) (f : Bridge → Bridge) : (s.modBr n f).br n = f (s.br n) := by
  simp [State.br, State.modBr]
@[simp] theorem br_modBr_ne (s : State) {m n : Nat} (h : m ≠ n) (f : Bridge → Bridge) : (s.modBr n f).br m = s.br m := by
  simp [State.br, State.modBr, h]

@[simp] theorem pch_modPch (s : State) (n : Nat) (f : PosChan → PosChan) : (s.modPch n f).pch n = f (s.pch n) := by
  simp [State.pch, State.modPch]
@[simp] theorem pch_modPch_ne (s : State) {m n : Nat} (h : m ≠ n) (f : PosChan → PosChan) : (s.modPch n f).pch m = s.pch m := by
  simp [State.pch, State.modPch, h]

@[simp] theorem port_modPort (s : State) (n : Nat) (f : StaPort → StaPort) : (s.modPort n f).port n = f (s.port n) := by
  simp [State.port, State.modPort]
@[simp] theorem port_modPort_ne (s : State) {m n : Nat} (h : m ≠ n) (f : StaPort → StaPort) : (s.modPort n f).port m = s.port m := by
  simp [State.port, State.modPort, h]

@[simp] theorem enPort_modEn (s : State) (n : Nat) (f : EnPort → EnPort) : (s.modEn n f).enPort n = f (s.enPort n) := by
  simp [State.enPort, State.modEn]
@[simp] theorem enPort_modEn_ne (s : State) {m n : Nat} (h : m ≠ n) (f : EnPort → EnPort) : (s.modEn n f).enPort m = s.enPort m := by
  simp [State.enPort, State.modEn, h]

@[simp] theorem sw_modSw (s : State) (b n : Nat) (f : AuxSw → AuxSw) : (s.modSw b n f).sw b n = f (s.sw b n) := by
  simp [State.sw, State.modSw]
theorem sw_modSw_ne (s : State) {b c m n : Nat} (h : ¬(c = b ∧ m = n)) (f : AuxSw → AuxSw) : (s.modSw b n f).sw c m = s.sw c m := by
  by_cases e : c = b
  · subst e
    have k : m ≠ n := fun k => h ⟨rfl, k⟩
    simp [State.sw, State.modSw, k]
  · simp [State.sw, State.modSw, e]

@[simp] theorem aph_modAph (s : State) (b n : Nat) (f : AuxPhase → AuxPhase) : (s.modAph b n f).aph b n = f (s.aph b n) := by
  simp [State.aph, State.modAph]
theorem aph_modAph_ne (s : State) {b c m n : Nat} (h : ¬(c = b ∧ m = n)) (f : AuxPhase → AuxPhase) : (s.modAph b n f).aph c m = s.aph c m := by
  by_cases e : c = b
  · subst e
    have k : m ≠ n := fun k => h ⟨rfl, k⟩
    simp [State.aph, State.modAph, k]
  · simp [State.aph, State.modAph, e]

@[simp] theorem dleg_modDleg (s : State) (b n : Nat) (f : DtLeg → DtLeg) : (s.modDleg b n f).dleg b n = f (s.dleg b n) := by
  simp [State.dleg, State.modDleg]
theorem dleg_modDleg_ne (s : State) {b c m n : Nat} (h : ¬(c = b ∧ m = n)) (f : DtLeg → DtLeg) : (s.modDleg b n f).dleg c m = s.dleg c m := by
  by_cases e : c = b
  · subst e
    have k : m ≠ n := fun k => h ⟨rfl, k⟩
    simp [State.dleg, State.modDleg, k]
  · simp [State.dleg, State.modDleg, e]

end Sys2Proof.Machine
end

