-- ==== Sys2Proof/Laws/Memory.lean ====
section
/-!
SUPPORT. The laws of a byte memory: a read after a write, what a write leaves alone, and that every operation keeps the
canonical form.
-/

namespace Sys2Proof.Machine

theorem Memory.wfFrom_mono (m : Memory) {lo lo' : Nat} (h : lo' ≤ lo) (w : m.wfFrom lo = true) : m.wfFrom lo' = true := by
  cases m with
  | nil => rfl
  | cons c r =>
    simp only [Memory.wfFrom, Bool.and_eq_true, decide_eq_true_eq] at w ⊢
    exact ⟨⟨by omega, w.1.2⟩, w.2⟩

theorem Memory.read_below (m : Memory) {lo k : Nat} (h : k < lo) (w : m.wfFrom lo = true) :
    m.read k = Memory.unlisted := by
  cases m with
  | nil => rfl
  | cons c r =>
    obtain ⟨a, b⟩ := c
    simp [Memory.wfFrom] at w
    have h1 : a ≠ k := by omega
    have h2 : k < a := by omega
    simp [Memory.read, h1, h2]

theorem Memory.drop1_wfFrom (m : Memory) {lo : Nat} (k : Nat) (w : m.wfFrom lo = true) :
    (m.drop1 k).wfFrom lo = true := by
  induction m generalizing lo with
  | nil => rfl
  | cons c r ih =>
    obtain ⟨a, b⟩ := c
    have w' := w
    simp only [Memory.wfFrom, Bool.and_eq_true, decide_eq_true_eq] at w
    obtain ⟨⟨hl, hb⟩, hr⟩ := w
    simp only [Memory.drop1]
    split
    · exact Memory.wfFrom_mono r (by omega) hr
    · split
      · exact w'
      · simp only [Memory.wfFrom, Bool.and_eq_true, decide_eq_true_eq]
        exact ⟨⟨hl, hb⟩, ih hr⟩

theorem Memory.put1_wfFrom (m : Memory) {lo : Nat} (k : Nat) (v : Byte) (hk : lo ≤ k) (hv : v ≠ 0#8)
    (w : m.wfFrom lo = true) : (m.put1 k v).wfFrom lo = true := by
  induction m generalizing lo with
  | nil => simp [Memory.put1, Memory.wfFrom, hk, hv]
  | cons c r ih =>
    obtain ⟨a, b⟩ := c
    simp only [Memory.wfFrom, Bool.and_eq_true, decide_eq_true_eq] at w
    obtain ⟨⟨hl, hb⟩, hr⟩ := w
    simp only [Memory.put1]
    split
    · subst_vars; simp [Memory.wfFrom, hl, hv, hr]
    · split
      · simp only [Memory.wfFrom, Bool.and_eq_true, decide_eq_true_eq]
        exact ⟨⟨hk, by simpa using hv⟩, ⟨by omega, hb⟩, hr⟩
      · simp only [Memory.wfFrom, Bool.and_eq_true, decide_eq_true_eq]
        exact ⟨⟨hl, hb⟩, ih (by omega) hr⟩

/-- A write keeps the canonical form. -/
theorem Memory.write_wf (m : Memory) (k : Nat) (v : Byte) (w : m.wf = true) : (m.write k v).wf = true := by
  simp only [Memory.write, Memory.wf]
  split
  · exact Memory.drop1_wfFrom m k w
  · exact Memory.put1_wfFrom m k v (Nat.zero_le k) ‹_› w

/-- A string written keeps the canonical form. -/
theorem Memory.writeN_wf (m : Memory) (k : Nat) (bs : Bytes) (w : m.wf = true) : (m.writeN k bs).wf = true := by
  induction bs generalizing m k with
  | nil => exact w
  | cons b r ih => exact ih _ _ (Memory.write_wf m k b w)

/-- A list of byte writes keeps the canonical form. -/
theorem Memory.foldl_write_wf (m : Memory) (l : List (Nat × Byte)) (w : m.wf = true) :
    (l.foldl (fun m c => m.write c.1 c.2) m).wf = true := by
  induction l generalizing m with
  | nil => exact w
  | cons c r ih => exact ih _ (Memory.write_wf m c.1 c.2 w)

theorem Memory.filter_wfFrom (m : Memory) (p : Host.Cell → Bool) {lo : Nat} (w : m.wfFrom lo = true) :
    Memory.wfFrom lo (m.filter p) = true := by
  induction m generalizing lo with
  | nil => rfl
  | cons c r ih =>
    obtain ⟨a, b⟩ := c
    simp only [Memory.wfFrom, Bool.and_eq_true, decide_eq_true_eq] at w
    obtain ⟨⟨hl, hb⟩, hr⟩ := w
    simp only [List.filter]
    split
    · simp only [Memory.wfFrom, Bool.and_eq_true, decide_eq_true_eq]
      exact ⟨⟨hl, hb⟩, ih hr⟩
    · exact Memory.wfFrom_mono _ (by omega) (ih hr)

/-- Clearing a span keeps the canonical form. -/
theorem Memory.clear_wf (m : Memory) (lo n : Nat) (w : m.wf = true) : (m.clear lo n).wf = true :=
  Memory.filter_wfFrom m _ w

theorem Memory.read_drop1_same (m : Memory) (k : Nat) {lo : Nat} (w : m.wfFrom lo = true) :
    (m.drop1 k).read k = Memory.unlisted := by
  induction m generalizing lo with
  | nil => rfl
  | cons c r ih =>
    obtain ⟨a, b⟩ := c
    simp only [Memory.wfFrom, Bool.and_eq_true, decide_eq_true_eq] at w
    obtain ⟨⟨_, _⟩, hr⟩ := w
    simp only [Memory.drop1]
    split
    · subst_vars; exact Memory.read_below r (by omega) hr
    · split
      · have : a ≠ k := ‹_›
        simp_all [Memory.read]
      · simp_all [Memory.read]; exact ih hr

theorem Memory.read_drop1_other (m : Memory) (k j : Nat) (h : j ≠ k) {lo : Nat} (w : m.wfFrom lo = true) :
    (m.drop1 k).read j = m.read j := by
  induction m generalizing lo with
  | nil => rfl
  | cons c r ih =>
    obtain ⟨a, b⟩ := c
    simp only [Memory.wfFrom, Bool.and_eq_true, decide_eq_true_eq] at w
    obtain ⟨⟨_, _⟩, hr⟩ := w
    simp only [Memory.drop1]
    split
    · subst_vars
      simp only [Memory.read, Ne.symm h, if_false]
      split
      · exact Memory.read_below r (by omega) hr
      · rfl
    · split
      · rfl
      · simp only [Memory.read]; rw [ih hr]

theorem Memory.read_put1_same (m : Memory) (k : Nat) (v : Byte) : (m.put1 k v).read k = v := by
  induction m with
  | nil => simp [Memory.put1, Memory.read]
  | cons c r ih =>
    obtain ⟨a, b⟩ := c
    simp only [Memory.put1]
    split
    · simp [Memory.read]
    · split
      · simp [Memory.read]
      · rename_i h2 h1
        rw [Memory.read, if_neg h2, if_neg h1]
        exact ih

theorem Memory.read_put1_other (m : Memory) (k j : Nat) (v : Byte) (h : j ≠ k) {lo : Nat} (w : m.wfFrom lo = true) :
    (m.put1 k v).read j = m.read j := by
  induction m generalizing lo with
  | nil => simp [Memory.put1, Memory.read, Ne.symm h]
  | cons c r ih =>
    obtain ⟨a, b⟩ := c
    simp only [Memory.wfFrom, Bool.and_eq_true, decide_eq_true_eq] at w
    obtain ⟨⟨_, _⟩, hr⟩ := w
    simp only [Memory.put1]
    split
    · subst_vars; simp [Memory.read, Ne.symm h]
    · split
      · simp only [Memory.read, Ne.symm h, if_false]
        split
        · have h1 : a ≠ j := by omega
          have h2 : j < a := by omega
          simp [h1, h2]
        · rfl
      · simp only [Memory.read]; rw [ih hr]

/-- A read after a write to the same address gives the byte written. -/
theorem Memory.read_write_same (m : Memory) (k : Nat) (v : Byte) (w : m.wf = true) : (m.write k v).read k = v := by
  simp only [Memory.write]
  split
  · subst_vars; exact Memory.read_drop1_same m k w
  · exact Memory.read_put1_same m k v

/-- A write leaves every other address alone. -/
theorem Memory.read_write_other (m : Memory) (k j : Nat) (v : Byte) (h : j ≠ k) (w : m.wf = true) :
    (m.write k v).read j = m.read j := by
  simp only [Memory.write]
  split
  · exact Memory.read_drop1_other m k j h w
  · exact Memory.read_put1_other m k j v h w

/-- A string written leaves every address outside it alone. -/
theorem Memory.read_writeN_other (m : Memory) (k j : Nat) (bs : Bytes) (h : j < k ∨ k + bs.length ≤ j) (w : m.wf = true) :
    (m.writeN k bs).read j = m.read j := by
  induction bs generalizing m k with
  | nil => rfl
  | cons b r ih =>
    simp only [List.length_cons] at h
    rw [Memory.writeN, ih (m.write k b) (k + 1) (by omega) (Memory.write_wf m k b w)]
    exact Memory.read_write_other m k j b (by omega) w

/-- Each byte of a string written is read back. -/
theorem Memory.read_writeN_same (m : Memory) (k i : Nat) (bs : Bytes) (h : i < bs.length) (w : m.wf = true) :
    (m.writeN k bs).read (k + i) = bs[i] := by
  induction bs generalizing m k i with
  | nil => simp at h
  | cons b r ih =>
    cases i with
    | zero =>
      rw [Memory.writeN, Nat.add_zero, Memory.read_writeN_other _ _ _ _ (by omega) (Memory.write_wf m k b w)]
      exact Memory.read_write_same m k b w
    | succ i =>
      simp only [List.length_cons] at h
      rw [Memory.writeN, show k + (i + 1) = k + 1 + i by omega, ih (m.write k b) (k + 1) i (by omega) (Memory.write_wf m k b w)]
      rfl

end Sys2Proof.Machine
end

