-- ==== Sys2Proof/Machine/Frame.lean ====
section
/-!
DEFINITION. Frames (theorems beside the functions they speak of, so that whoever mends a function mends its frame): a function changes nothing but the parts of its mask, and keeps the bounds of State.Inv. One lemma per named update
and per combinator; the lemmas of the model's functions are in Frame1.lean and after.
-/

namespace Sys2Proof.Machine

/-- The bit of a part in a mask. -/
def Part.bit : Part → Nat
  | .pending => 0
  | .mono => 1
  | .freeCount => 2
  | .todo => 3
  | .hatch => 4
  | .notif => 5
  | .par => 6
  | .faults => 7
  | .sys => 8
  | .time => 9
  | .sta => 10
  | .twin => 11
  | .bat => 12
  | .pantry => 13
  | .lanes => 14
  | .roll => 15
  | .links => 16
  | .mod => 17
  | .prot => 18
  | .dt => 19
  | .le => 20
  | .ring => 21
  | .hk => 22
  | .aux => 23
  | .pos => 24
  | .safe => 25
  | .en => 26
  | .fw => 27

/-- The mask of a list of parts. -/
def maskOf (l : List Part) : Nat := l.foldl (fun m p => m ||| 2 ^ p.bit) 0

/-- A mask lies within another. -/
abbrev Sub (a b : Nat) : Prop := a &&& b = a

theorem Sub.trans {a b c : Nat} (h : Sub a b) (k : Sub b c) : Sub a c := by
  unfold Sub at *
  rw [← h, Nat.land_assoc, k]

theorem Sub.bit {M : Nat} (i : Nat) (h : Sub (2 ^ i) M) : M.testBit i = true := by
  have := congrArg (fun x => Nat.testBit x i) h
  simpa [Nat.testBit_and, Nat.testBit_two_pow_self] using this

/-- A state differs from another within a mask at most, and keeps its bounds. -/
structure Keeps (M : Nat) (s t : State) : Prop where
  /-- Every other part is the same. -/
  all : ∀ p : Part, M.testBit p.bit = false → p.same s t
  /-- The bounds are kept. -/
  inv : s.Inv → t.Inv

/-- The same of an outcome. -/
def KeepsO (M : Nat) (s : State) (o : Host.Outcome State Fault Refusal) : Prop := ∀ t, o = .next t → Keeps M s t

/-- New contents of the fault collector keep its bounds. -/
def FaultsTo (t : State) (x : Faults) : Prop := t.Inv → x.Ok
/-- New contents of the notification unit keep its bounds. -/
def NotifTo (t : State) (x : Notif) : Prop := t.Inv → x.Ok
/-- New contents of the pantry keep its canonical form. -/
def PantryTo (t : State) (x : Pantry) : Prop := t.Inv → x.mem.wf = true

theorem Keeps.refl (M : Nat) (s : State) : Keeps M s s := ⟨by intro p _; cases p <;> rfl, id⟩

theorem keepsO_next {M : Nat} {s t : State} (h : Keeps M s t) : KeepsO M s (.next t) := by
  intro u hu; cases hu; exact h

theorem Keeps.trans {M : Nat} {s t u : State} (h : Keeps M s t) (k : Keeps M t u) : Keeps M s u := by
  refine ⟨fun p hp => ?_, fun i => k.inv (h.inv i)⟩
  have a := h.all p hp
  have b := k.all p hp
  cases p <;> exact Eq.trans b a

/-- What a mask leaves out is the same. -/
theorem Keeps.only {M : Nat} {s t : State} {l : List Part} (h : Keeps M s t) (hl : Sub M (maskOf l)) : Only l s t := by
  intro p hp
  refine h.all p ?_
  have key : ∀ (l : List Part) (m i : Nat), (l.foldl (fun m p => m ||| 2 ^ p.bit) m).testBit i = true →
      m.testBit i = true ∨ ∃ q ∈ l, q.bit = i := by
    intro l
    induction l with
    | nil => intro m i h; exact .inl h
    | cons a r ih =>
      intro m i h
      rcases ih _ _ h with h | ⟨q, hq, e⟩
      · rw [Nat.testBit_or, Bool.or_eq_true] at h
        rcases h with h | h
        · exact .inl h
        · exact .inr ⟨a, by simp, by rw [Nat.testBit_two_pow] at h; simpa using h⟩
      · exact .inr ⟨q, List.mem_cons_of_mem _ hq, e⟩
  cases hb : M.testBit p.bit
  · rfl
  · exfalso
    have h2 : (maskOf l).testBit p.bit = true := by
      have := congrArg (fun x => Nat.testBit x p.bit) hl
      simpa [Nat.testBit_and, hb] using this
    rcases key l 0 _ h2 with h3 | ⟨q, hq, e⟩
    · simp at h3
    · have : q = p := by
        cases q <;> cases p <;> first | rfl | exact absurd e (by decide)
      exact hp (this ▸ hq)

theorem keeps_id {M : Nat} {s t : State} (h : Keeps M s t) : Keeps M s (id t) := h

theorem keeps_ite {M : Nat} {s t u : State} {c : Prop} [Decidable c] (h : c → Keeps M s t) (k : ¬c → Keeps M s u) :
    Keeps M s (if c then t else u) := by
  split
  · exact h ‹_›
  · exact k ‹_›

theorem keepsO_ite {M : Nat} {s : State} {c : Prop} [Decidable c] {a b : Host.Outcome State Fault Refusal}
    (h : c → KeepsO M s a) (k : ¬c → KeepsO M s b) : KeepsO M s (if c then a else b) := by
  split
  · exact h ‹_›
  · exact k ‹_›

theorem keeps_foldl {M : Nat} {s t : State} {α : Type} {l : List α} {f : State → α → State} (h : Keeps M s t)
    (hf : ∀ u x, Keeps M s u → Keeps M s (f u x)) : Keeps M s (l.foldl f t) := by
  induction l generalizing t with
  | nil => exact h
  | cons a r ih => exact ih (hf t a h)

theorem keeps_foldlP {M : Nat} {s : State} {α β : Type} {l : List α} {f : State × β → α → State × β} {p : State × β}
    (h : Keeps M s p.1) (hf : ∀ u x, Keeps M s u.1 → Keeps M s (f u x).1) : Keeps M s (l.foldl f p).1 := by
  induction l generalizing p with
  | nil => exact h
  | cons a r ih => exact ih (hf p a h)

theorem updPending_keeps {M : Nat} {s : State} (hM : Sub 1 M) :
    ∀ {t : State} {f}, Keeps M s t → Keeps M s (t.updPending f) := by
  intro t f h
  refine ⟨fun p hp => ?_, fun i => ⟨(h.inv i).mem, (h.inv i).faults, (h.inv i).notif⟩⟩
  have hq := h.all p hp
  cases p <;> first | exact hq | exact absurd (Sub.bit 0 hM) (by rw [show M.testBit 0 = false from hp]; decide)

theorem updMono_keeps {M : Nat} {s : State} (hM : Sub 2 M) :
    ∀ {t : State} {f}, Keeps M s t → Keeps M s (t.updMono f) := by
  intro t f h
  refine ⟨fun p hp => ?_, fun i => ⟨(h.inv i).mem, (h.inv i).faults, (h.inv i).notif⟩⟩
  have hq := h.all p hp
  cases p <;> first | exact hq | exact absurd (Sub.bit 1 hM) (by rw [show M.testBit 1 = false from hp]; decide)

theorem updFreeCount_keeps {M : Nat} {s : State} (hM : Sub 4 M) :
    ∀ {t : State} {f}, Keeps M s t → Keeps M s (t.updFreeCount f) := by
  intro t f h
  refine ⟨fun p hp => ?_, fun i => ⟨(h.inv i).mem, (h.inv i).faults, (h.inv i).notif⟩⟩
  have hq := h.all p hp
  cases p <;> first | exact hq | exact absurd (Sub.bit 2 hM) (by rw [show M.testBit 2 = false from hp]; decide)

theorem updTodo_keeps {M : Nat} {s : State} (hM : Sub 8 M) :
    ∀ {t : State} {f}, Keeps M s t → Keeps M s (t.updTodo f) := by
  intro t f h
  refine ⟨fun p hp => ?_, fun i => ⟨(h.inv i).mem, (h.inv i).faults, (h.inv i).notif⟩⟩
  have hq := h.all p hp
  cases p <;> first | exact hq | exact absurd (Sub.bit 3 hM) (by rw [show M.testBit 3 = false from hp]; decide)

theorem updHatch_keeps {M : Nat} {s : State} (hM : Sub 16 M) :
    ∀ {t : State} {f}, Keeps M s t → Keeps M s (t.updHatch f) := by
  intro t f h
  refine ⟨fun p hp => ?_, fun i => ⟨(h.inv i).mem, (h.inv i).faults, (h.inv i).notif⟩⟩
  have hq := h.all p hp
  cases p <;> first | exact hq | exact absurd (Sub.bit 4 hM) (by rw [show M.testBit 4 = false from hp]; decide)

theorem updNotif_keeps {M : Nat} {s : State} (hM : Sub 32 M) :
    ∀ {t : State} {f}, Keeps M s t → NotifTo t (f t.notif) → Keeps M s (t.updNotif f) := by
  intro t f h hf
  refine ⟨fun p hp => ?_, fun i => ⟨(h.inv i).mem, (h.inv i).faults, hf (h.inv i)⟩⟩
  have hq := h.all p hp
  cases p <;> first | exact hq | exact absurd (Sub.bit 5 hM) (by rw [show M.testBit 5 = false from hp]; decide)

theorem updPar_keeps {M : Nat} {s : State} (hM : Sub 64 M) :
    ∀ {t : State} {f}, Keeps M s t → Keeps M s (t.updPar f) := by
  intro t f h
  refine ⟨fun p hp => ?_, fun i => ⟨(h.inv i).mem, (h.inv i).faults, (h.inv i).notif⟩⟩
  have hq := h.all p hp
  cases p <;> first | exact hq | exact absurd (Sub.bit 6 hM) (by rw [show M.testBit 6 = false from hp]; decide)

theorem updFaults_keeps {M : Nat} {s : State} (hM : Sub 128 M) :
    ∀ {t : State} {f}, Keeps M s t → FaultsTo t (f t.faults) → Keeps M s (t.updFaults f) := by
  intro t f h hf
  refine ⟨fun p hp => ?_, fun i => ⟨(h.inv i).mem, hf (h.inv i), (h.inv i).notif⟩⟩
  have hq := h.all p hp
  cases p <;> first | exact hq | exact absurd (Sub.bit 7 hM) (by rw [show M.testBit 7 = false from hp]; decide)

theorem updSys_keeps {M : Nat} {s : State} (hM : Sub 256 M) :
    ∀ {t : State} {f}, Keeps M s t → Keeps M s (t.updSys f) := by
  intro t f h
  refine ⟨fun p hp => ?_, fun i => ⟨(h.inv i).mem, (h.inv i).faults, (h.inv i).notif⟩⟩
  have hq := h.all p hp
  cases p <;> first | exact hq | exact absurd (Sub.bit 8 hM) (by rw [show M.testBit 8 = false from hp]; decide)

theorem updTime_keeps {M : Nat} {s : State} (hM : Sub 512 M) :
    ∀ {t : State} {f}, Keeps M s t → Keeps M s (t.updTime f) := by
  intro t f h
  refine ⟨fun p hp => ?_, fun i => ⟨(h.inv i).mem, (h.inv i).faults, (h.inv i).notif⟩⟩
  have hq := h.all p hp
  cases p <;> first | exact hq | exact absurd (Sub.bit 9 hM) (by rw [show M.testBit 9 = false from hp]; decide)

theorem updSta_keeps {M : Nat} {s : State} (hM : Sub 1024 M) :
    ∀ {t : State} {f}, Keeps M s t → Keeps M s (t.updSta f) := by
  intro t f h
  refine ⟨fun p hp => ?_, fun i => ⟨(h.inv i).mem, (h.inv i).faults, (h.inv i).notif⟩⟩
  have hq := h.all p hp
  cases p <;> first | exact hq | exact absurd (Sub.bit 10 hM) (by rw [show M.testBit 10 = false from hp]; decide)

theorem updTwin_keeps {M : Nat} {s : State} (hM : Sub 2048 M) :
    ∀ {t : State} {f}, Keeps M s t → Keeps M s (t.updTwin f) := by
  intro t f h
  refine ⟨fun p hp => ?_, fun i => ⟨(h.inv i).mem, (h.inv i).faults, (h.inv i).notif⟩⟩
  have hq := h.all p hp
  cases p <;> first | exact hq | exact absurd (Sub.bit 11 hM) (by rw [show M.testBit 11 = false from hp]; decide)

theorem updBat_keeps {M : Nat} {s : State} (hM : Sub 4096 M) :
    ∀ {t : State} {f}, Keeps M s t → Keeps M s (t.updBat f) := by
  intro t f h
  refine ⟨fun p hp => ?_, fun i => ⟨(h.inv i).mem, (h.inv i).faults, (h.inv i).notif⟩⟩
  have hq := h.all p hp
  cases p <;> first | exact hq | exact absurd (Sub.bit 12 hM) (by rw [show M.testBit 12 = false from hp]; decide)

theorem updPantry_keeps {M : Nat} {s : State} (hM : Sub 8192 M) :
    ∀ {t : State} {f}, Keeps M s t → PantryTo t (f t.pantry) → Keeps M s (t.updPantry f) := by
  intro t f h hf
  refine ⟨fun p hp => ?_, fun i => ⟨hf (h.inv i), (h.inv i).faults, (h.inv i).notif⟩⟩
  have hq := h.all p hp
  cases p <;> first | exact hq | exact absurd (Sub.bit 13 hM) (by rw [show M.testBit 13 = false from hp]; decide)

theorem updLanes_keeps {M : Nat} {s : State} (hM : Sub 16384 M) :
    ∀ {t : State} {f}, Keeps M s t → Keeps M s (t.updLanes f) := by
  intro t f h
  refine ⟨fun p hp => ?_, fun i => ⟨(h.inv i).mem, (h.inv i).faults, (h.inv i).notif⟩⟩
  have hq := h.all p hp
  cases p <;> first | exact hq | exact absurd (Sub.bit 14 hM) (by rw [show M.testBit 14 = false from hp]; decide)

theorem updRoll_keeps {M : Nat} {s : State} (hM : Sub 32768 M) :
    ∀ {t : State} {f}, Keeps M s t → Keeps M s (t.updRoll f) := by
  intro t f h
  refine ⟨fun p hp => ?_, fun i => ⟨(h.inv i).mem, (h.inv i).faults, (h.inv i).notif⟩⟩
  have hq := h.all p hp
  cases p <;> first | exact hq | exact absurd (Sub.bit 15 hM) (by rw [show M.testBit 15 = false from hp]; decide)

theorem updLinks_keeps {M : Nat} {s : State} (hM : Sub 65536 M) :
    ∀ {t : State} {f}, Keeps M s t → Keeps M s (t.updLinks f) := by
  intro t f h
  refine ⟨fun p hp => ?_, fun i => ⟨(h.inv i).mem, (h.inv i).faults, (h.inv i).notif⟩⟩
  have hq := h.all p hp
  cases p <;> first | exact hq | exact absurd (Sub.bit 16 hM) (by rw [show M.testBit 16 = false from hp]; decide)

theorem updMod_keeps {M : Nat} {s : State} (hM : Sub 131072 M) :
    ∀ {t : State} {f}, Keeps M s t → Keeps M s (t.updMod f) := by
  intro t f h
  refine ⟨fun p hp => ?_, fun i => ⟨(h.inv i).mem, (h.inv i).faults, (h.inv i).notif⟩⟩
  have hq := h.all p hp
  cases p <;> first | exact hq | exact absurd (Sub.bit 17 hM) (by rw [show M.testBit 17 = false from hp]; decide)

theorem updProt_keeps {M : Nat} {s : State} (hM : Sub 262144 M) :
    ∀ {t : State} {f}, Keeps M s t → Keeps M s (t.updProt f) := by
  intro t f h
  refine ⟨fun p hp => ?_, fun i => ⟨(h.inv i).mem, (h.inv i).faults, (h.inv i).notif⟩⟩
  have hq := h.all p hp
  cases p <;> first | exact hq | exact absurd (Sub.bit 18 hM) (by rw [show M.testBit 18 = false from hp]; decide)

theorem updDt_keeps {M : Nat} {s : State} (hM : Sub 524288 M) :
    ∀ {t : State} {f}, Keeps M s t → Keeps M s (t.updDt f) := by
  intro t f h
  refine ⟨fun p hp => ?_, fun i => ⟨(h.inv i).mem, (h.inv i).faults, (h.inv i).notif⟩⟩
  have hq := h.all p hp
  cases p <;> first | exact hq | exact absurd (Sub.bit 19 hM) (by rw [show M.testBit 19 = false from hp]; decide)

theorem updLe_keeps {M : Nat} {s : State} (hM : Sub 1048576 M) :
    ∀ {t : State} {f}, Keeps M s t → Keeps M s (t.updLe f) := by
  intro t f h
  refine ⟨fun p hp => ?_, fun i => ⟨(h.inv i).mem, (h.inv i).faults, (h.inv i).notif⟩⟩
  have hq := h.all p hp
  cases p <;> first | exact hq | exact absurd (Sub.bit 20 hM) (by rw [show M.testBit 20 = false from hp]; decide)

theorem updRing_keeps {M : Nat} {s : State} (hM : Sub 2097152 M) :
    ∀ {t : State} {f}, Keeps M s t → Keeps M s (t.updRing f) := by
  intro t f h
  refine ⟨fun p hp => ?_, fun i => ⟨(h.inv i).mem, (h.inv i).faults, (h.inv i).notif⟩⟩
  have hq := h.all p hp
  cases p <;> first | exact hq | exact absurd (Sub.bit 21 hM) (by rw [show M.testBit 21 = false from hp]; decide)

theorem updHk_keeps {M : Nat} {s : State} (hM : Sub 4194304 M) :
    ∀ {t : State} {f}, Keeps M s t → Keeps M s (t.updHk f) := by
  intro t f h
  refine ⟨fun p hp => ?_, fun i => ⟨(h.inv i).mem, (h.inv i).faults, (h.inv i).notif⟩⟩
  have hq := h.all p hp
  cases p <;> first | exact hq | exact absurd (Sub.bit 22 hM) (by rw [show M.testBit 22 = false from hp]; decide)

theorem updAux_keeps {M : Nat} {s : State} (hM : Sub 8388608 M) :
    ∀ {t : State} {f}, Keeps M s t → Keeps M s (t.updAux f) := by
  intro t f h
  refine ⟨fun p hp => ?_, fun i => ⟨(h.inv i).mem, (h.inv i).faults, (h.inv i).notif⟩⟩
  have hq := h.all p hp
  cases p <;> first | exact hq | exact absurd (Sub.bit 23 hM) (by rw [show M.testBit 23 = false from hp]; decide)

theorem updPos_keeps {M : Nat} {s : State} (hM : Sub 16777216 M) :
    ∀ {t : State} {f}, Keeps M s t → Keeps M s (t.updPos f) := by
  intro t f h
  refine ⟨fun p hp => ?_, fun i => ⟨(h.inv i).mem, (h.inv i).faults, (h.inv i).notif⟩⟩
  have hq := h.all p hp
  cases p <;> first | exact hq | exact absurd (Sub.bit 24 hM) (by rw [show M.testBit 24 = false from hp]; decide)

theorem updSafe_keeps {M : Nat} {s : State} (hM : Sub 33554432 M) :
    ∀ {t : State} {f}, Keeps M s t → Keeps M s (t.updSafe f) := by
  intro t f h
  refine ⟨fun p hp => ?_, fun i => ⟨(h.inv i).mem, (h.inv i).faults, (h.inv i).notif⟩⟩
  have hq := h.all p hp
  cases p <;> first | exact hq | exact absurd (Sub.bit 25 hM) (by rw [show M.testBit 25 = false from hp]; decide)

theorem updEn_keeps {M : Nat} {s : State} (hM : Sub 67108864 M) :
    ∀ {t : State} {f}, Keeps M s t → Keeps M s (t.updEn f) := by
  intro t f h
  refine ⟨fun p hp => ?_, fun i => ⟨(h.inv i).mem, (h.inv i).faults, (h.inv i).notif⟩⟩
  have hq := h.all p hp
  cases p <;> first | exact hq | exact absurd (Sub.bit 26 hM) (by rw [show M.testBit 26 = false from hp]; decide)

theorem updFw_keeps {M : Nat} {s : State} (hM : Sub 134217728 M) :
    ∀ {t : State} {f}, Keeps M s t → Keeps M s (t.updFw f) := by
  intro t f h
  refine ⟨fun p hp => ?_, fun i => ⟨(h.inv i).mem, (h.inv i).faults, (h.inv i).notif⟩⟩
  have hq := h.all p hp
  cases p <;> first | exact hq | exact absurd (Sub.bit 27 hM) (by rw [show M.testBit 27 = false from hp]; decide)

end Sys2Proof.Machine
end

