-- ==== Sys2Proof/Machine/Frame1.lean ====
section
/-!
DEFINITION. Frames, part 1: the functions from tookFree to rxPort, in the order of their calls. Each lemma says
which parts its function may change (a mask over Part.bit) and that it keeps the bounds of State.Inv.
-/

namespace Sys2Proof.Machine

set_option linter.unreachableTactic false
set_option linter.unusedTactic false
set_option linter.unusedSimpArgs false

theorem tookFree_keeps {M : Nat} {s : State} (hM : Sub 4 M) :
    ∀ {t : State}, Keeps M s t → Keeps M s (State.tookFree t) := by
  intro _ h0
  unfold State.tookFree
  repeat' first
    | with_reducible assumption | with_reducible refine updFreeCount_keeps (Sub.trans (by decide) hM) ?_

theorem later_keeps {M : Nat} {s : State} (hM : Sub 8 M) :
    ∀ {t : State} {a1}, Keeps M s t → Keeps M s (State.later t a1) := by
  intro _ _ h0
  unfold State.later
  repeat' first
    | with_reducible assumption | with_reducible refine updTodo_keeps (Sub.trans (by decide) hM) ?_

theorem setParam_keeps {M : Nat} {s : State} (hM : Sub 64 M) :
    ∀ {t : State} {a1 a2 a3}, Keeps M s t → Keeps M s (State.setParam t a1 a2 a3) := by
  intro _ _ _ _ h0
  unfold State.setParam
  repeat' first
    | with_reducible assumption | with_reducible refine updPar_keeps (Sub.trans (by decide) hM) ?_

theorem setShadow_keeps {M : Nat} {s : State} (hM : Sub 64 M) :
    ∀ {t : State} {a1 a2 a3}, Keeps M s t → Keeps M s (State.setShadow t a1 a2 a3) := by
  intro _ _ _ _ h0
  unfold State.setShadow
  repeat' first
    | with_reducible assumption | with_reducible refine updPar_keeps (Sub.trans (by decide) hM) ?_

theorem capture_keeps {M : Nat} {s : State} (hM : Sub 64 M) :
    ∀ {t : State} {a1 a2}, Keeps M s t → Keeps M s (State.capture t a1 a2) := by
  intro _ _ _ h0
  unfold State.capture
  repeat' first
    | with_reducible assumption | with_reducible refine updPar_keeps (Sub.trans (by decide) hM) ?_
    | with_reducible refine keeps_ite (fun _ => ?_) (fun _ => ?_) | with_reducible refine keeps_id ?_ | with_reducible split

theorem captureAll_keeps {M : Nat} {s : State} (hM : Sub 64 M) :
    ∀ {t : State} {a1 a2}, Keeps M s t → Keeps M s (State.captureAll t a1 a2) := by
  intro _ _ _ h0
  unfold State.captureAll
  repeat' first
    | with_reducible assumption | with_reducible refine capture_keeps (Sub.trans (by decide) hM) ?_
    | with_reducible refine keeps_foldl ?_ ?_ | with_reducible refine keeps_foldlP ?_ ?_
    | with_reducible refine keeps_ite (fun _ => ?_) (fun _ => ?_) | with_reducible refine keeps_id ?_ | with_reducible split
    | with_reducible intro _

theorem saveParam_keeps {M : Nat} {s : State} (hM : Sub 64 M) :
    ∀ {t : State} {a1 a2 a3}, Keeps M s t → Keeps M s (State.saveParam t a1 a2 a3) := by
  intro _ _ _ _ h0
  unfold State.saveParam
  repeat' first
    | with_reducible assumption | with_reducible refine updPar_keeps (Sub.trans (by decide) hM) ?_

theorem countSave_keeps {M : Nat} {s : State} (hM : Sub 64 M) :
    ∀ {t : State}, Keeps M s t → Keeps M s (State.countSave t) := by
  intro _ h0
  unfold State.countSave
  repeat' first
    | with_reducible assumption | with_reducible refine updPar_keeps (Sub.trans (by decide) hM) ?_

theorem bumpBy_keeps {M : Nat} {s : State} (hM : Sub 64 M) :
    ∀ {t : State} {a1 a2 a3 a4}, Keeps M s t → Keeps M s (State.bumpBy t a1 a2 a3 a4) := by
  intro _ _ _ _ _ h0
  unfold State.bumpBy
  repeat' first
    | with_reducible assumption | with_reducible refine updPar_keeps (Sub.trans (by decide) hM) ?_

theorem bump_keeps {M : Nat} {s : State} (hM : Sub 64 M) :
    ∀ {t : State} {a1 a2 a3}, Keeps M s t → Keeps M s (State.bump t a1 a2 a3) := by
  intro _ _ _ _ h0
  unfold State.bump
  repeat' first
    | with_reducible assumption | with_reducible refine bumpBy_keeps (Sub.trans (by decide) hM) ?_

theorem rcClear_keeps {M : Nat} {s : State} (hM : Sub 64 M) :
    ∀ {t : State} {a1 a2}, Keeps M s t → Keeps M s (State.rcClear t a1 a2) := by
  intro _ _ _ h0
  unfold State.rcClear
  repeat' first
    | with_reducible assumption | with_reducible refine updPar_keeps (Sub.trans (by decide) hM) ?_

theorem irqSince_keeps {M : Nat} {s : State} (hM : Sub 16 M) :
    ∀ {t t2 : State}, Keeps M s t → Keeps M s t2 → Keeps M s (irqSince t t2) := by
  intro _ _ h0 h1
  unfold irqSince
  repeat' first
    | with_reducible assumption | with_reducible refine updHatch_keeps (Sub.trans (by decide) hM) ?_
    | with_reducible refine keeps_foldl ?_ ?_ | with_reducible refine keeps_foldlP ?_ ?_
    | with_reducible refine keeps_ite (fun _ => ?_) (fun _ => ?_) | with_reducible refine keeps_id ?_ | with_reducible split
    | with_reducible intro _

theorem hostErrSet_keeps {M : Nat} {s : State} (hM : Sub 16 M) :
    ∀ {t : State} {a1}, Keeps M s t → Keeps M s (State.hostErrSet t a1) := by
  intro _ _ h0
  unfold State.hostErrSet
  repeat' first
    | with_reducible assumption | with_reducible refine irqSince_keeps (Sub.trans (by decide) hM) ?_ ?_
    | with_reducible refine updHatch_keeps (Sub.trans (by decide) hM) ?_

theorem bankTouch_keeps {M : Nat} {s : State} (hM : Sub 8192 M) :
    ∀ {t : State} {a1}, Keeps M s t → Keeps M s (State.bankTouch t a1) := by
  intro _ _ h0
  unfold State.bankTouch
  repeat' first
    | with_reducible assumption | with_reducible refine updPantry_keeps (Sub.trans (by decide) hM) ?_ ?_
    | with_reducible refine keeps_ite (fun _ => ?_) (fun _ => ?_) | with_reducible refine keeps_id ?_ | (intro hi; exact hi.mem)

theorem mpWrite_keeps {M : Nat} {s : State} (hM : Sub 8256 M) :
    ∀ {t : State} {a1 a2}, Keeps M s t → Keeps M s (State.mpWrite t a1 a2) := by
  intro _ _ _ h0
  unfold State.mpWrite
  refine keeps_ite (fun _ => ?_) (fun _ => ?_)
  · exact bumpBy_keeps (Sub.trans (by decide) hM) h0
  · refine updPantry_keeps (Sub.trans (by decide) hM) (bankTouch_keeps (Sub.trans (by decide) hM) h0) ?_
    intro hi; exact Memory.writeN_wf _ _ _ hi.mem

theorem mpTook_keeps {M : Nat} {s : State} (hM : Sub 8256 M) :
    ∀ {t : State} {a1 a2}, Keeps M s t → Keeps M s (State.mpTook t a1 a2) := by
  intro _ _ _ h0
  unfold State.mpTook
  repeat' first
    | with_reducible assumption | with_reducible refine bumpBy_keeps (Sub.trans (by decide) hM) ?_
    | with_reducible refine bankTouch_keeps (Sub.trans (by decide) hM) ?_ | with_reducible refine keeps_foldl ?_ ?_
    | with_reducible refine keeps_foldlP ?_ ?_ | with_reducible refine keeps_ite (fun _ => ?_) (fun _ => ?_)
    | with_reducible refine keeps_id ?_ | with_reducible split | with_reducible intro _

theorem dropNote_keeps {M : Nat} {s : State} (hM : Sub 48 M) :
    ∀ {t : State}, Keeps M s t → Keeps M s (State.dropNote t) := by
  intro _ h0
  unfold State.dropNote
  repeat' first
    | with_reducible assumption | with_reducible refine hostErrSet_keeps (Sub.trans (by decide) hM) ?_
    | with_reducible refine updNotif_keeps (Sub.trans (by decide) hM) ?_ ?_
    | with_reducible refine keeps_ite (fun _ => ?_) (fun _ => ?_) | with_reducible refine keeps_id ?_
    | (intro hi; obtain ⟨a, b, c, d, e, f, g⟩ := hi.notif; refine ⟨?_, ?_, ?_, ?_, ?_, ?_, ?_⟩ <;> first | assumption | exact Nat.mod_lt _ (by decide) | exact Nat.zero_le _ | (simp; done) | (simp; omega))

theorem putNote_keeps {M : Nat} {s : State} (hM : Sub 8304 M) :
    ∀ {t : State} {a1}, Keeps M s t → Keeps M s (State.putNote t a1) := by
  intro _ _ h0
  unfold State.putNote
  repeat' first
    | with_reducible assumption | with_reducible refine dropNote_keeps (Sub.trans (by decide) hM) ?_
    | with_reducible refine mpWrite_keeps (Sub.trans (by decide) hM) ?_
    | with_reducible refine irqSince_keeps (Sub.trans (by decide) hM) ?_ ?_
    | with_reducible refine updNotif_keeps (Sub.trans (by decide) hM) ?_ ?_
    | with_reducible refine keeps_ite (fun _ => ?_) (fun _ => ?_) | with_reducible refine keeps_id ?_
    | (intro hi; obtain ⟨a, b, c, d, e, f, g⟩ := hi.notif; refine ⟨?_, ?_, ?_, ?_, ?_, ?_, ?_⟩ <;> first | assumption | exact Nat.mod_lt _ (by decide) | exact Nat.zero_le _ | (simp; done) | (simp; omega))

theorem noteAt_keeps {M : Nat} {s : State} (hM : Sub 8304 M) :
    ∀ {t : State} {a1 a2 a3 a4 a5}, Keeps M s t → Keeps M s (State.noteAt t a1 a2 a3 a4 a5) := by
  intro _ _ _ _ _ _ h0
  unfold State.noteAt
  repeat' first
    | with_reducible assumption | with_reducible refine updNotif_keeps (Sub.trans (by decide) hM) ?_ ?_
    | with_reducible refine putNote_keeps (Sub.trans (by decide) hM) ?_
    | with_reducible refine keeps_ite (fun _ => ?_) (fun _ => ?_) | with_reducible refine keeps_id ?_
    | (intro hi; obtain ⟨a, b, c, d, e, f, g⟩ := hi.notif; refine ⟨?_, ?_, ?_, ?_, ?_, ?_, ?_⟩ <;> first | assumption | exact Nat.mod_lt _ (by decide) | exact Nat.zero_le _ | (simp; done) | (simp; omega))

theorem note_keeps {M : Nat} {s : State} (hM : Sub 8304 M) :
    ∀ {t : State} {a1 a2 a3 a4}, Keeps M s t → Keeps M s (State.note t a1 a2 a3 a4) := by
  intro _ _ _ _ _ h0
  unfold State.note
  repeat' first
    | with_reducible assumption | with_reducible refine noteAt_keeps (Sub.trans (by decide) hM) ?_

theorem attic_keeps {M : Nat} {s : State} (hM : Sub 128 M) :
    ∀ {t : State} {a1 a2 a3 a4}, Keeps M s t → Keeps M s (State.attic t a1 a2 a3 a4) := by
  intro _ _ _ _ _ h0
  unfold State.attic
  refine updFaults_keeps (Sub.trans (by decide) hM) h0 ?_
  intro hi
  obtain ⟨a, b⟩ := hi.faults
  refine ⟨a, ?_⟩
  simp only [List.length_append, List.length_cons, List.length_nil]
  split
  · simp only [List.length_drop]; omega
  · omega

theorem faultPin_keeps {M : Nat} {s : State} (hM : Sub 144 M) :
    ∀ {t : State}, Keeps M s t → Keeps M s (State.faultPin t) := by
  intro _ h0
  unfold State.faultPin
  repeat' first
    | with_reducible assumption | with_reducible refine irqSince_keeps (Sub.trans (by decide) hM) ?_ ?_
    | with_reducible refine updHatch_keeps (Sub.trans (by decide) hM) ?_
    | with_reducible refine updFaults_keeps (Sub.trans (by decide) hM) ?_ ?_
    | with_reducible refine keeps_ite (fun _ => ?_) (fun _ => ?_) | with_reducible refine keeps_id ?_
    | (intro hi; obtain ⟨a, b⟩ := hi.faults; refine ⟨?_, ?_⟩ <;> first | assumption | (simp [recSet]; done) | (simp only [recSet, List.length_map, List.length_append, List.length_take, List.length_cons, List.length_nil]; omega) | exact Nat.le_trans (List.length_filter_le _ _) a)

theorem react_keeps {M : Nat} {s : State} (hM : Sub 200 M) :
    ∀ {t : State} {a1 a2 a3 a4}, Keeps M s t → Keeps M s (State.react t a1 a2 a3 a4) := by
  intro _ _ _ _ _ h0
  unfold State.react
  repeat' first
    | with_reducible assumption | with_reducible refine updFaults_keeps (Sub.trans (by decide) hM) ?_ ?_
    | with_reducible refine bump_keeps (Sub.trans (by decide) hM) ?_
    | with_reducible refine later_keeps (Sub.trans (by decide) hM) ?_ | with_reducible refine keeps_ite (fun _ => ?_) (fun _ => ?_)
    | with_reducible refine keeps_id ?_
    | (intro hi; obtain ⟨a, b⟩ := hi.faults; refine ⟨?_, ?_⟩ <;> first | assumption | (simp [recSet]; done) | (simp only [recSet, List.length_map, List.length_append, List.length_take, List.length_cons, List.length_nil]; omega) | exact Nat.le_trans (List.length_filter_le _ _) a)

theorem fireNote_keeps {M : Nat} {s : State} (hM : Sub 8432 M) :
    ∀ {t : State} {a1 a2 a3 a4 a5 a6 a7}, Keeps M s t → Keeps M s (State.fireNote t a1 a2 a3 a4 a5 a6 a7) := by
  intro _ _ _ _ _ _ _ _ h0
  unfold State.fireNote
  repeat' first
    | with_reducible assumption | with_reducible refine attic_keeps (Sub.trans (by decide) hM) ?_
    | with_reducible refine note_keeps (Sub.trans (by decide) hM) ?_

theorem fireMerge_keeps {M : Nat} {s : State} (hM : Sub 8440 M) :
    ∀ {t : State} {a1 a2 a3 a4 a5 a6 a7 a8 a9}, Keeps M s t → Keeps M s (State.fireMerge t a1 a2 a3 a4 a5 a6 a7 a8 a9) := by
  intro _ _ _ _ _ _ _ _ _ _ h0
  unfold State.fireMerge
  repeat' first
    | with_reducible assumption | with_reducible refine bump_keeps (Sub.trans (by decide) hM) ?_
    | with_reducible refine updFaults_keeps (Sub.trans (by decide) hM) ?_ ?_
    | with_reducible refine fireNote_keeps (Sub.trans (by decide) hM) ?_
    | with_reducible refine faultPin_keeps (Sub.trans (by decide) hM) ?_
    | with_reducible refine react_keeps (Sub.trans (by decide) hM) ?_ | with_reducible refine keeps_ite (fun _ => ?_) (fun _ => ?_)
    | with_reducible refine keeps_id ?_
    | (intro hi; obtain ⟨a, b⟩ := hi.faults; refine ⟨?_, ?_⟩ <;> first | assumption | (simp [recSet]; done) | (simp only [recSet, List.length_map, List.length_append, List.length_take, List.length_cons, List.length_nil]; omega) | exact Nat.le_trans (List.length_filter_le _ _) a)
    | with_reducible split | with_reducible intro _ | with_reducible dsimp only

theorem fireOpen_keeps {M : Nat} {s : State} (hM : Sub 8440 M) :
    ∀ {t : State} {a1 a2 a3 a4 a5 a6 a7}, Keeps M s t → Keeps M s (State.fireOpen t a1 a2 a3 a4 a5 a6 a7) := by
  intro _ _ _ _ _ _ _ _ h0
  unfold State.fireOpen
  repeat' first
    | with_reducible assumption | with_reducible refine updFaults_keeps (Sub.trans (by decide) hM) ?_ ?_
    | with_reducible refine react_keeps (Sub.trans (by decide) hM) ?_
    | with_reducible refine fireNote_keeps (Sub.trans (by decide) hM) ?_
    | with_reducible refine faultPin_keeps (Sub.trans (by decide) hM) ?_
    | with_reducible refine bump_keeps (Sub.trans (by decide) hM) ?_ | with_reducible refine keeps_ite (fun _ => ?_) (fun _ => ?_)
    | with_reducible refine keeps_id ?_
    | (intro hi; obtain ⟨a, b⟩ := hi.faults; refine ⟨?_, ?_⟩ <;> first | assumption | (simp [recSet]; done) | (simp only [recSet, List.length_map, List.length_append, List.length_take, List.length_cons, List.length_nil]; omega) | exact Nat.le_trans (List.length_filter_le _ _) a)

theorem fireWith_keeps {M : Nat} {s : State} (hM : Sub 8440 M) :
    ∀ {t : State} {a1 a2 a3 a4 a5}, Keeps M s t → Keeps M s (State.fireWith t a1 a2 a3 a4 a5) := by
  intro _ _ _ _ _ _ h0
  unfold State.fireWith
  repeat' first
    | with_reducible assumption | with_reducible refine updFaults_keeps (Sub.trans (by decide) hM) ?_ ?_
    | with_reducible refine fireMerge_keeps (Sub.trans (by decide) hM) ?_
    | with_reducible refine fireOpen_keeps (Sub.trans (by decide) hM) ?_
    | with_reducible refine fireNote_keeps (Sub.trans (by decide) hM) ?_
    | with_reducible refine keeps_ite (fun _ => ?_) (fun _ => ?_) | with_reducible refine keeps_id ?_
    | (intro hi; obtain ⟨a, b⟩ := hi.faults; refine ⟨?_, ?_⟩ <;> first | assumption | (simp [recSet]; done) | (simp only [recSet, List.length_map, List.length_append, List.length_take, List.length_cons, List.length_nil]; omega) | exact Nat.le_trans (List.length_filter_le _ _) a)
    | with_reducible split | with_reducible intro _ | with_reducible dsimp only

theorem fire_keeps {M : Nat} {s : State} (hM : Sub 8440 M) :
    ∀ {t : State} {a1 a2 a3}, Keeps M s t → Keeps M s (State.fire t a1 a2 a3) := by
  intro _ _ _ _ h0
  unfold State.fire
  repeat' first
    | with_reducible assumption | with_reducible refine fireWith_keeps (Sub.trans (by decide) hM) ?_

theorem condOn_keeps {M : Nat} {s : State} (hM : Sub 8440 M) :
    ∀ {t : State} {a1 a2 a3 a4}, Keeps M s t → Keeps M s (State.condOn t a1 a2 a3 a4) := by
  intro _ _ _ _ _ h0
  unfold State.condOn
  repeat' first
    | with_reducible assumption | with_reducible refine fire_keeps (Sub.trans (by decide) hM) ?_
    | with_reducible refine updFaults_keeps (Sub.trans (by decide) hM) ?_ ?_
    | with_reducible refine keeps_ite (fun _ => ?_) (fun _ => ?_) | with_reducible refine keeps_id ?_
    | (intro hi; obtain ⟨a, b⟩ := hi.faults; refine ⟨?_, ?_⟩ <;> first | assumption | (simp [recSet]; done) | (simp only [recSet, List.length_map, List.length_append, List.length_take, List.length_cons, List.length_nil]; omega) | exact Nat.le_trans (List.length_filter_le _ _) a)

theorem condOff_keeps {M : Nat} {s : State} (hM : Sub 128 M) :
    ∀ {t : State} {a1 a2 a3}, Keeps M s t → Keeps M s (State.condOff t a1 a2 a3) := by
  intro _ _ _ _ h0
  unfold State.condOff
  repeat' first
    | with_reducible assumption | with_reducible refine updFaults_keeps (Sub.trans (by decide) hM) ?_ ?_
    | with_reducible refine keeps_ite (fun _ => ?_) (fun _ => ?_) | with_reducible refine keeps_id ?_
    | (intro hi; obtain ⟨a, b⟩ := hi.faults; refine ⟨?_, ?_⟩ <;> first | assumption | (simp [recSet]; done) | (simp only [recSet, List.length_map, List.length_append, List.length_take, List.length_cons, List.length_nil]; omega) | exact Nat.le_trans (List.length_filter_le _ _) a)

theorem condOffInst_keeps {M : Nat} {s : State} (hM : Sub 128 M) :
    ∀ {t : State} {a1 a2}, Keeps M s t → Keeps M s (State.condOffInst t a1 a2) := by
  intro _ _ _ h0
  unfold State.condOffInst
  repeat' first
    | with_reducible assumption | with_reducible refine updFaults_keeps (Sub.trans (by decide) hM) ?_ ?_
    | with_reducible refine keeps_ite (fun _ => ?_) (fun _ => ?_) | with_reducible refine keeps_id ?_
    | (intro hi; obtain ⟨a, b⟩ := hi.faults; refine ⟨?_, ?_⟩ <;> first | assumption | (simp [recSet]; done) | (simp only [recSet, List.length_map, List.length_append, List.length_take, List.length_cons, List.length_nil]; omega) | exact Nat.le_trans (List.length_filter_le _ _) a)

theorem cond_keeps {M : Nat} {s : State} (hM : Sub 8440 M) :
    ∀ {t : State} {a1 a2 a3 a4 a5}, Keeps M s t → Keeps M s (State.cond t a1 a2 a3 a4 a5) := by
  intro _ _ _ _ _ _ h0
  unfold State.cond
  repeat' first
    | with_reducible assumption | with_reducible refine condOn_keeps (Sub.trans (by decide) hM) ?_
    | with_reducible refine condOff_keeps (Sub.trans (by decide) hM) ?_
    | with_reducible refine keeps_ite (fun _ => ?_) (fun _ => ?_)

theorem modLane_keeps {M : Nat} {s : State} (hM : Sub 16384 M) :
    ∀ {t : State} {a1 a2}, Keeps M s t → Keeps M s (State.modLane t a1 a2) := by
  intro _ _ _ h0
  unfold State.modLane
  repeat' first
    | with_reducible assumption | with_reducible refine updLanes_keeps (Sub.trans (by decide) hM) ?_

theorem modLink_keeps {M : Nat} {s : State} (hM : Sub 65536 M) :
    ∀ {t : State} {a1 a2}, Keeps M s t → Keeps M s (State.modLink t a1 a2) := by
  intro _ _ _ h0
  unfold State.modLink
  repeat' first
    | with_reducible assumption | with_reducible refine updLinks_keeps (Sub.trans (by decide) hM) ?_

theorem modBr_keeps {M : Nat} {s : State} (hM : Sub 8388608 M) :
    ∀ {t : State} {a1 a2}, Keeps M s t → Keeps M s (State.modBr t a1 a2) := by
  intro _ _ _ h0
  unfold State.modBr
  repeat' first
    | with_reducible assumption | with_reducible refine updAux_keeps (Sub.trans (by decide) hM) ?_

theorem modSw_keeps {M : Nat} {s : State} (hM : Sub 8388608 M) :
    ∀ {t : State} {a1 a2 a3}, Keeps M s t → Keeps M s (State.modSw t a1 a2 a3) := by
  intro _ _ _ _ h0
  unfold State.modSw
  repeat' first
    | with_reducible assumption | with_reducible refine modBr_keeps (Sub.trans (by decide) hM) ?_

theorem modAph_keeps {M : Nat} {s : State} (hM : Sub 8388608 M) :
    ∀ {t : State} {a1 a2 a3}, Keeps M s t → Keeps M s (State.modAph t a1 a2 a3) := by
  intro _ _ _ _ h0
  unfold State.modAph
  repeat' first
    | with_reducible assumption | with_reducible refine modBr_keeps (Sub.trans (by decide) hM) ?_

theorem auxTally_keeps {M : Nat} {s : State} (hM : Sub 8397048 M) :
    ∀ {t : State} {a1 a2 a3}, Keeps M s t → Keeps M s (State.auxTally t a1 a2 a3) := by
  intro _ _ _ _ h0
  unfold State.auxTally
  repeat' first
    | with_reducible assumption | with_reducible refine modAph_keeps (Sub.trans (by decide) hM) ?_
    | with_reducible refine condOn_keeps (Sub.trans (by decide) hM) ?_
    | with_reducible refine condOff_keeps (Sub.trans (by decide) hM) ?_
    | with_reducible refine keeps_ite (fun _ => ?_) (fun _ => ?_)

theorem auxLaw_keeps {M : Nat} {s : State} (hM : Sub 8388608 M) :
    ∀ {t : State} {a1 a2 a3}, Keeps M s t → Keeps M s (State.auxLaw t a1 a2 a3) := by
  intro _ _ _ _ h0
  unfold State.auxLaw
  repeat' first
    | with_reducible assumption | with_reducible refine modAph_keeps (Sub.trans (by decide) hM) ?_
    | with_reducible refine keeps_ite (fun _ => ?_) (fun _ => ?_)

theorem auxJudge_keeps {M : Nat} {s : State} (hM : Sub 8397048 M) :
    ∀ {t : State} {a1 a2 a3}, Keeps M s t → Keeps M s (State.auxJudge t a1 a2 a3) := by
  intro _ _ _ _ h0
  unfold State.auxJudge
  repeat' first
    | with_reducible assumption | with_reducible refine modAph_keeps (Sub.trans (by decide) hM) ?_
    | with_reducible refine auxTally_keeps (Sub.trans (by decide) hM) ?_
    | with_reducible refine auxLaw_keeps (Sub.trans (by decide) hM) ?_
    | with_reducible refine modBr_keeps (Sub.trans (by decide) hM) ?_ | with_reducible refine keeps_ite (fun _ => ?_) (fun _ => ?_)
    | with_reducible refine keeps_id ?_ | with_reducible split

theorem auxTryJudge_keeps {M : Nat} {s : State} (hM : Sub 8397048 M) :
    ∀ {t : State} {a1 a2}, Keeps M s t → Keeps M s (State.auxTryJudge t a1 a2) := by
  intro _ _ _ h0
  unfold State.auxTryJudge
  repeat' first
    | with_reducible assumption | with_reducible refine auxJudge_keeps (Sub.trans (by decide) hM) ?_
    | with_reducible refine keeps_ite (fun _ => ?_) (fun _ => ?_) | with_reducible refine keeps_id ?_ | with_reducible split

theorem dropJudge_keeps {M : Nat} {s : State} (hM : Sub 8388608 M) :
    ∀ {t : State} {a1 a2}, Keeps M s t → Keeps M s (State.dropJudge t a1 a2) := by
  intro _ _ _ h0
  unfold State.dropJudge
  repeat' first
    | with_reducible assumption | with_reducible refine modAph_keeps (Sub.trans (by decide) hM) ?_

theorem swOff_keeps {M : Nat} {s : State} (hM : Sub 8388608 M) :
    ∀ {t : State} {a1 a2}, Keeps M s t → Keeps M s (State.swOff t a1 a2) := by
  intro _ _ _ h0
  unfold State.swOff
  repeat' first
    | with_reducible assumption | with_reducible refine modAph_keeps (Sub.trans (by decide) hM) ?_
    | with_reducible refine modSw_keeps (Sub.trans (by decide) hM) ?_ | with_reducible refine keeps_ite (fun _ => ?_) (fun _ => ?_)

theorem shortMade_keeps {M : Nat} {s : State} (hM : Sub 8388736 M) :
    ∀ {t : State} {a1 a2}, Keeps M s t → Keeps M s (State.shortMade t a1 a2) := by
  intro _ _ _ h0
  unfold State.shortMade
  repeat' first
    | with_reducible assumption | with_reducible refine condOff_keeps (Sub.trans (by decide) hM) ?_
    | with_reducible refine modAph_keeps (Sub.trans (by decide) hM) ?_ | with_reducible refine keeps_ite (fun _ => ?_) (fun _ => ?_)

theorem swOn_keeps {M : Nat} {s : State} (hM : Sub 8397048 M) :
    ∀ {t : State} {a1 a2 a3}, Keeps M s t → Keeps M s (State.swOn t a1 a2 a3) := by
  intro _ _ _ _ h0
  unfold State.swOn
  repeat' first
    | with_reducible assumption | with_reducible refine modSw_keeps (Sub.trans (by decide) hM) ?_
    | with_reducible refine shortMade_keeps (Sub.trans (by decide) hM) ?_
    | with_reducible refine modAph_keeps (Sub.trans (by decide) hM) ?_
    | with_reducible refine auxTryJudge_keeps (Sub.trans (by decide) hM) ?_

theorem shortFail_keeps {M : Nat} {s : State} (hM : Sub 8397048 M) :
    ∀ {t : State} {a1 a2}, Keeps M s t → Keeps M s (State.shortFail t a1 a2) := by
  intro _ _ _ h0
  unfold State.shortFail
  repeat' first
    | with_reducible assumption | with_reducible refine condOn_keeps (Sub.trans (by decide) hM) ?_
    | with_reducible refine modAph_keeps (Sub.trans (by decide) hM) ?_ | with_reducible refine keeps_ite (fun _ => ?_) (fun _ => ?_)

theorem tryOn_keeps {M : Nat} {s : State} (hM : Sub 8397048 M) :
    ∀ {t : State} {a1 a2 a3}, Keeps M s t → Keeps M s (State.tryOn t a1 a2 a3) := by
  intro _ _ _ _ h0
  unfold State.tryOn
  repeat' first
    | with_reducible assumption | with_reducible refine shortFail_keeps (Sub.trans (by decide) hM) ?_
    | with_reducible refine dropJudge_keeps (Sub.trans (by decide) hM) ?_
    | with_reducible refine swOn_keeps (Sub.trans (by decide) hM) ?_
    | with_reducible refine modSw_keeps (Sub.trans (by decide) hM) ?_ | with_reducible refine keeps_ite (fun _ => ?_) (fun _ => ?_)

theorem shortEnd_keeps {M : Nat} {s : State} (hM : Sub 8388736 M) :
    ∀ {t : State} {a1}, Keeps M s t → Keeps M s (State.shortEnd t a1) := by
  intro _ _ h0
  unfold State.shortEnd
  repeat' first
    | with_reducible assumption | with_reducible refine condOff_keeps (Sub.trans (by decide) hM) ?_
    | with_reducible refine modAph_keeps (Sub.trans (by decide) hM) ?_
    | with_reducible refine modBr_keeps (Sub.trans (by decide) hM) ?_ | with_reducible refine keeps_foldl ?_ ?_
    | with_reducible refine keeps_foldlP ?_ ?_ | with_reducible refine keeps_ite (fun _ => ?_) (fun _ => ?_)
    | with_reducible refine keeps_id ?_ | with_reducible split | with_reducible intro _

theorem auxAllOff_keeps {M : Nat} {s : State} (hM : Sub 8388736 M) :
    ∀ {t : State} {a1}, Keeps M s t → Keeps M s (State.auxAllOff t a1) := by
  intro _ _ h0
  unfold State.auxAllOff
  repeat' first
    | with_reducible assumption | with_reducible refine swOff_keeps (Sub.trans (by decide) hM) ?_
    | with_reducible refine modAph_keeps (Sub.trans (by decide) hM) ?_
    | with_reducible refine shortEnd_keeps (Sub.trans (by decide) hM) ?_
    | with_reducible refine modBr_keeps (Sub.trans (by decide) hM) ?_ | with_reducible refine keeps_foldl ?_ ?_
    | with_reducible refine keeps_foldlP ?_ ?_ | with_reducible refine keeps_ite (fun _ => ?_) (fun _ => ?_)
    | with_reducible refine keeps_id ?_ | with_reducible split | with_reducible intro _

theorem addEdges_keeps {M : Nat} {s : State} (hM : Sub 8388608 M) :
    ∀ {t : State} {a1 a2}, Keeps M s t → Keeps M s (State.addEdges t a1 a2) := by
  intro _ _ _ h0
  unfold State.addEdges
  repeat' first
    | with_reducible assumption | with_reducible refine modBr_keeps (Sub.trans (by decide) hM) ?_

theorem shortStart_keeps {M : Nat} {s : State} (hM : Sub 8388608 M) :
    ∀ {t : State} {a1}, Keeps M s t → Keeps M s (State.shortStart t a1) := by
  intro _ _ h0
  unfold State.shortStart
  repeat' first
    | with_reducible assumption | with_reducible refine modBr_keeps (Sub.trans (by decide) hM) ?_
    | with_reducible refine modAph_keeps (Sub.trans (by decide) hM) ?_
    | with_reducible refine swOff_keeps (Sub.trans (by decide) hM) ?_
    | with_reducible refine addEdges_keeps (Sub.trans (by decide) hM) ?_ | with_reducible refine keeps_foldl ?_ ?_
    | with_reducible refine keeps_foldlP ?_ ?_ | with_reducible refine keeps_ite (fun _ => ?_) (fun _ => ?_)
    | with_reducible refine keeps_id ?_ | with_reducible split | with_reducible intro _

theorem auxInterlock_keeps {M : Nat} {s : State} (hM : Sub 8397048 M) :
    ∀ {t : State} {a1 a2}, Keeps M s t → Keeps M s (State.auxInterlock t a1 a2) := by
  intro _ _ _ h0
  unfold State.auxInterlock
  repeat' first
    | with_reducible assumption | with_reducible refine fire_keeps (Sub.trans (by decide) hM) ?_
    | with_reducible refine bump_keeps (Sub.trans (by decide) hM) ?_
    | with_reducible refine swOff_keeps (Sub.trans (by decide) hM) ?_

theorem auxDirect_keeps {M : Nat} {s : State} (hM : Sub 8397048 M) :
    ∀ {t : State} {a1 a2}, Keeps M s t → Keeps M s (State.auxDirect t a1 a2) := by
  intro _ _ _ h0
  unfold State.auxDirect
  repeat' first
    | with_reducible assumption | with_reducible refine auxInterlock_keeps (Sub.trans (by decide) hM) ?_
    | with_reducible refine swOff_keeps (Sub.trans (by decide) hM) ?_
    | with_reducible refine tryOn_keeps (Sub.trans (by decide) hM) ?_ | with_reducible refine keeps_foldl ?_ ?_
    | with_reducible refine keeps_foldlP ?_ ?_ | with_reducible refine keeps_ite (fun _ => ?_) (fun _ => ?_)
    | with_reducible refine keeps_id ?_ | with_reducible split | with_reducible intro _

theorem pwmPhase_keeps {M : Nat} {s : State} (hM : Sub 8388672 M) :
    ∀ {t : State} {a1 a2 a3 a4 a5}, Keeps M s t → Keeps M s (State.pwmPhase t a1 a2 a3 a4 a5) := by
  intro _ _ _ _ _ _ h0
  unfold State.pwmPhase
  repeat' first
    | with_reducible assumption | with_reducible refine modAph_keeps (Sub.trans (by decide) hM) ?_
    | with_reducible refine swOff_keeps (Sub.trans (by decide) hM) ?_
    | with_reducible refine bumpBy_keeps (Sub.trans (by decide) hM) ?_
    | with_reducible refine addEdges_keeps (Sub.trans (by decide) hM) ?_
    | with_reducible refine bump_keeps (Sub.trans (by decide) hM) ?_ | with_reducible refine keeps_ite (fun _ => ?_) (fun _ => ?_)
    | with_reducible refine keeps_id ?_ | with_reducible split

theorem pwmAll_keeps {M : Nat} {s : State} (hM : Sub 8388672 M) :
    ∀ {t : State} {a1 a2 a3 a4}, Keeps M s t → Keeps M s (State.pwmAll t a1 a2 a3 a4) := by
  intro _ _ _ _ _ h0
  unfold State.pwmAll
  repeat' first
    | with_reducible assumption | with_reducible refine pwmPhase_keeps (Sub.trans (by decide) hM) ?_
    | with_reducible refine keeps_foldl ?_ ?_ | with_reducible refine keeps_foldlP ?_ ?_
    | with_reducible refine keeps_ite (fun _ => ?_) (fun _ => ?_) | with_reducible refine keeps_id ?_ | with_reducible split
    | with_reducible intro _

theorem auxMode_keeps {M : Nat} {s : State} (hM : Sub 8397048 M) :
    ∀ {t : State} {a1 a2 a3 a4 a5}, Keeps M s t → Keeps M s (State.auxMode t a1 a2 a3 a4 a5) := by
  intro _ _ _ _ _ _ h0
  unfold State.auxMode
  repeat' first
    | with_reducible assumption | with_reducible refine modBr_keeps (Sub.trans (by decide) hM) ?_
    | with_reducible refine auxAllOff_keeps (Sub.trans (by decide) hM) ?_
    | with_reducible refine shortStart_keeps (Sub.trans (by decide) hM) ?_
    | with_reducible refine pwmAll_keeps (Sub.trans (by decide) hM) ?_
    | with_reducible refine auxInterlock_keeps (Sub.trans (by decide) hM) ?_
    | with_reducible refine addEdges_keeps (Sub.trans (by decide) hM) ?_
    | with_reducible refine modAph_keeps (Sub.trans (by decide) hM) ?_
    | with_reducible refine auxDirect_keeps (Sub.trans (by decide) hM) ?_ | with_reducible refine keeps_foldl ?_ ?_
    | with_reducible refine keeps_foldlP ?_ ?_ | with_reducible refine keeps_ite (fun _ => ?_) (fun _ => ?_)
    | with_reducible refine keeps_id ?_ | with_reducible split | with_reducible intro _

theorem shortRetry_keeps {M : Nat} {s : State} (hM : Sub 8397048 M) :
    ∀ {t : State} {a1}, Keeps M s t → Keeps M s (State.shortRetry t a1) := by
  intro _ _ h0
  unfold State.shortRetry
  repeat' first
    | with_reducible assumption | with_reducible refine tryOn_keeps (Sub.trans (by decide) hM) ?_
    | with_reducible refine keeps_foldl ?_ ?_ | with_reducible refine keeps_foldlP ?_ ?_
    | with_reducible refine keeps_ite (fun _ => ?_) (fun _ => ?_) | with_reducible refine keeps_id ?_ | with_reducible split
    | with_reducible intro _

theorem auxDtTake_keeps {M : Nat} {s : State} (hM : Sub 8388608 M) :
    ∀ {t : State} {a1 a2}, Keeps M s t → Keeps M s (State.auxDtTake t a1 a2) := by
  intro _ _ _ h0
  unfold State.auxDtTake
  repeat' first
    | with_reducible assumption | with_reducible refine modAph_keeps (Sub.trans (by decide) hM) ?_

theorem auxBoundary_keeps {M : Nat} {s : State} (hM : Sub 8397048 M) :
    ∀ {t : State} {a1}, Keeps M s t → Keeps M s (State.auxBoundary t a1) := by
  intro _ _ h0
  unfold State.auxBoundary
  repeat' first
    | with_reducible assumption | with_reducible refine captureAll_keeps (Sub.trans (by decide) hM) ?_
    | with_reducible refine modBr_keeps (Sub.trans (by decide) hM) ?_
    | with_reducible refine auxDtTake_keeps (Sub.trans (by decide) hM) ?_
    | with_reducible refine shortRetry_keeps (Sub.trans (by decide) hM) ?_
    | with_reducible refine auxMode_keeps (Sub.trans (by decide) hM) ?_ | with_reducible refine keeps_foldl ?_ ?_
    | with_reducible refine keeps_foldlP ?_ ?_ | with_reducible refine keeps_ite (fun _ => ?_) (fun _ => ?_)
    | with_reducible refine keeps_id ?_ | with_reducible split | with_reducible intro _

theorem auxAct_keeps {M : Nat} {s : State} (hM : Sub 8388800 M) :
    ∀ {t : State} {a1 a2}, Keeps M s t → Keeps M s (State.auxAct t a1 a2) := by
  intro _ _ _ h0
  unfold State.auxAct
  repeat' first
    | with_reducible assumption | with_reducible refine saveParam_keeps (Sub.trans (by decide) hM) ?_
    | with_reducible refine setParam_keeps (Sub.trans (by decide) hM) ?_
    | with_reducible refine modBr_keeps (Sub.trans (by decide) hM) ?_
    | with_reducible refine shortStart_keeps (Sub.trans (by decide) hM) ?_
    | with_reducible refine auxAllOff_keeps (Sub.trans (by decide) hM) ?_
    | with_reducible refine keeps_ite (fun _ => ?_) (fun _ => ?_)

theorem auxTrip_keeps {M : Nat} {s : State} (hM : Sub 8397048 M) :
    ∀ {t : State} {a1 a2}, Keeps M s t → Keeps M s (State.auxTrip t a1 a2) := by
  intro _ _ _ h0
  unfold State.auxTrip
  repeat' first
    | with_reducible assumption | with_reducible refine bump_keeps (Sub.trans (by decide) hM) ?_
    | with_reducible refine modBr_keeps (Sub.trans (by decide) hM) ?_
    | with_reducible refine shortStart_keeps (Sub.trans (by decide) hM) ?_
    | with_reducible refine auxAllOff_keeps (Sub.trans (by decide) hM) ?_
    | with_reducible refine condOn_keeps (Sub.trans (by decide) hM) ?_ | with_reducible refine keeps_ite (fun _ => ?_) (fun _ => ?_)

theorem auxClear_keeps {M : Nat} {s : State} (hM : Sub 8388800 M) :
    ∀ {t : State} {a1 a2}, Keeps M s t → Keeps M s (State.auxClear t a1 a2) := by
  intro _ _ _ h0
  unfold State.auxClear
  repeat' first
    | with_reducible assumption | with_reducible refine condOff_keeps (Sub.trans (by decide) hM) ?_
    | with_reducible refine modBr_keeps (Sub.trans (by decide) hM) ?_
    | with_reducible refine saveParam_keeps (Sub.trans (by decide) hM) ?_
    | with_reducible refine setParam_keeps (Sub.trans (by decide) hM) ?_
    | with_reducible refine auxAllOff_keeps (Sub.trans (by decide) hM) ?_ | with_reducible refine keeps_foldl ?_ ?_
    | with_reducible refine keeps_foldlP ?_ ?_ | with_reducible refine keeps_ite (fun _ => ?_) (fun _ => ?_)
    | with_reducible refine keeps_id ?_ | with_reducible split | with_reducible intro _

theorem auxRelease_keeps {M : Nat} {s : State} (hM : Sub 8388736 M) :
    ∀ {t : State}, Keeps M s t → Keeps M s (State.auxRelease t) := by
  intro _ h0
  unfold State.auxRelease
  repeat' first
    | with_reducible assumption | with_reducible refine auxAllOff_keeps (Sub.trans (by decide) hM) ?_
    | with_reducible refine updAux_keeps (Sub.trans (by decide) hM) ?_ | with_reducible refine keeps_foldl ?_ ?_
    | with_reducible refine keeps_foldlP ?_ ?_ | with_reducible refine keeps_ite (fun _ => ?_) (fun _ => ?_)
    | with_reducible refine keeps_id ?_ | with_reducible split | with_reducible intro _

theorem auxWatch_keeps {M : Nat} {s : State} (hM : Sub 8388736 M) :
    ∀ {t : State}, Keeps M s t → Keeps M s (State.auxWatch t) := by
  intro _ h0
  unfold State.auxWatch
  repeat' first
    | with_reducible assumption | with_reducible refine auxRelease_keeps (Sub.trans (by decide) hM) ?_
    | with_reducible refine keeps_ite (fun _ => ?_) (fun _ => ?_)

theorem auxStart_keeps {M : Nat} {s : State} (hM : Sub 8397048 M) :
    ∀ {t : State}, Keeps M s t → Keeps M s (State.auxStart t) := by
  intro _ h0
  unfold State.auxStart
  repeat' first
    | with_reducible assumption | with_reducible refine updAux_keeps (Sub.trans (by decide) hM) ?_
    | with_reducible refine condOff_keeps (Sub.trans (by decide) hM) ?_
    | with_reducible refine modAph_keeps (Sub.trans (by decide) hM) ?_
    | with_reducible refine auxAllOff_keeps (Sub.trans (by decide) hM) ?_
    | with_reducible refine shortStart_keeps (Sub.trans (by decide) hM) ?_
    | with_reducible refine auxMode_keeps (Sub.trans (by decide) hM) ?_ | with_reducible refine keeps_foldl ?_ ?_
    | with_reducible refine keeps_foldlP ?_ ?_ | with_reducible refine keeps_ite (fun _ => ?_) (fun _ => ?_)
    | with_reducible refine keeps_id ?_ | with_reducible split | with_reducible intro _

theorem modBox_keeps {M : Nat} {s : State} (hM : Sub 16 M) :
    ∀ {t : State} {a1 a2}, Keeps M s t → Keeps M s (State.modBox t a1 a2) := by
  intro _ _ _ h0
  unfold State.modBox
  repeat' first
    | with_reducible assumption | with_reducible refine updHatch_keeps (Sub.trans (by decide) hM) ?_

theorem enterDone_keeps {M : Nat} {s : State} (hM : Sub 16 M) :
    ∀ {t : State} {a1 a2}, Keeps M s t → Keeps M s (State.enterDone t a1 a2) := by
  intro _ _ _ h0
  unfold State.enterDone
  repeat' first
    | with_reducible assumption | with_reducible refine irqSince_keeps (Sub.trans (by decide) hM) ?_ ?_
    | with_reducible refine updHatch_keeps (Sub.trans (by decide) hM) ?_
    | with_reducible refine modBox_keeps (Sub.trans (by decide) hM) ?_

theorem writeReply_keeps {M : Nat} {s : State} (hM : Sub 80 M) :
    ∀ {t : State} {a1 a2 a3 a4}, Keeps M s t → Keeps M s (State.writeReply t a1 a2 a3 a4) := by
  intro _ _ _ _ _ h0
  unfold State.writeReply
  repeat' first
    | with_reducible assumption | with_reducible refine bump_keeps (Sub.trans (by decide) hM) ?_
    | with_reducible refine modBox_keeps (Sub.trans (by decide) hM) ?_
    | with_reducible refine enterDone_keeps (Sub.trans (by decide) hM) ?_
    | with_reducible refine keeps_ite (fun _ => ?_) (fun _ => ?_) | with_reducible refine keeps_id ?_ | with_reducible split

theorem reply_keeps {M : Nat} {s : State} (hM : Sub 80 M) :
    ∀ {t : State} {a1 a2 a3}, Keeps M s t → Keeps M s (State.reply t a1 a2 a3) := by
  intro _ _ _ _ h0
  unfold State.reply
  repeat' first
    | with_reducible assumption | with_reducible refine writeReply_keeps (Sub.trans (by decide) hM) ?_

theorem replyOk_keeps {M : Nat} {s : State} (hM : Sub 80 M) :
    ∀ {t : State} {a1 a2}, Keeps M s t → Keeps M s (State.replyOk t a1 a2) := by
  intro _ _ _ h0
  unfold State.replyOk
  repeat' first
    | with_reducible assumption | with_reducible refine reply_keeps (Sub.trans (by decide) hM) ?_

theorem refuse_keeps {M : Nat} {s : State} (hM : Sub 80 M) :
    ∀ {t : State} {a1 a2 a3 a4}, Keeps M s t → Keeps M s (State.refuse t a1 a2 a3 a4) := by
  intro _ _ _ _ _ h0
  unfold State.refuse
  repeat' first
    | with_reducible assumption | with_reducible refine reply_keeps (Sub.trans (by decide) hM) ?_

theorem busy_keeps {M : Nat} {s : State} (hM : Sub 80 M) :
    ∀ {t : State} {a1 a2}, Keeps M s t → Keeps M s (State.busy t a1 a2) := by
  intro _ _ _ h0
  unfold State.busy
  repeat' first
    | with_reducible assumption | with_reducible refine reply_keeps (Sub.trans (by decide) hM) ?_

theorem generic_keeps {M : Nat} {s : State} (hM : Sub 80 M) :
    ∀ {t : State} {a1 a2 a3 a4}, Keeps M s t → Keeps M s (State.generic t a1 a2 a3 a4) := by
  intro _ _ _ _ _ h0
  unfold State.generic
  repeat' first
    | with_reducible assumption | with_reducible refine writeReply_keeps (Sub.trans (by decide) hM) ?_

theorem withCmd_keeps {M : Nat} {s : State} (hM : Sub 80 M) : ∀ {t : State} {mb op : Nat} {c : Bool} {f : Request → State → State},
    Keeps M s t → (∀ q u, Keeps M s u → Keeps M s (f q u)) → Keeps M s (t.withCmd mb op c f) := by
  intro t mb op c f h hf
  unfold State.withCmd
  split
  · exact h
  · refine keeps_ite (fun _ => h) (fun _ => keeps_ite (fun _ => ?_) (fun _ => hf _ _ h))
    exact refuse_keeps (Sub.trans (by decide) hM) h

theorem waitFor_keeps {M : Nat} {s : State} (hM : Sub 16 M) :
    ∀ {t : State} {a1 a2}, Keeps M s t → Keeps M s (State.waitFor t a1 a2) := by
  intro _ _ _ h0
  unfold State.waitFor
  repeat' first
    | with_reducible assumption | with_reducible refine modBox_keeps (Sub.trans (by decide) hM) ?_

theorem discardHeld_keeps {M : Nat} {s : State} (hM : Sub 16 M) :
    ∀ {t : State}, Keeps M s t → Keeps M s (State.discardHeld t) := by
  intro _ h0
  unfold State.discardHeld
  repeat' first
    | with_reducible assumption | with_reducible refine modBox_keeps (Sub.trans (by decide) hM) ?_
    | with_reducible refine keeps_foldl ?_ ?_ | with_reducible refine keeps_foldlP ?_ ?_
    | with_reducible refine keeps_ite (fun _ => ?_) (fun _ => ?_) | with_reducible refine keeps_id ?_ | with_reducible split
    | with_reducible intro _

theorem queueBlock_keeps {M : Nat} {s : State} (hM : Sub 65536 M) :
    ∀ {t : State} {a1 a2 a3}, Keeps M s t → Keeps M s (State.queueBlock t a1 a2 a3) := by
  intro _ _ _ _ h0
  unfold State.queueBlock
  repeat' first
    | with_reducible assumption | with_reducible refine modLink_keeps (Sub.trans (by decide) hM) ?_

theorem twinSend_keeps {M : Nat} {s : State} (hM : Sub 65536 M) :
    ∀ {t : State} {a1 a2}, Keeps M s t → Keeps M s (State.twinSend t a1 a2) := by
  intro _ _ _ h0
  unfold State.twinSend
  repeat' first
    | with_reducible assumption | with_reducible refine queueBlock_keeps (Sub.trans (by decide) hM) ?_
    | with_reducible refine keeps_ite (fun _ => ?_) (fun _ => ?_)

theorem forwardRequest_keeps {M : Nat} {s : State} (hM : Sub 67584 M) :
    ∀ {t : State} {a1 a2 a3}, Keeps M s t → Keeps M s (State.forwardRequest t a1 a2 a3) := by
  intro _ _ _ _ h0
  unfold State.forwardRequest
  repeat' first
    | with_reducible assumption | with_reducible refine twinSend_keeps (Sub.trans (by decide) hM) ?_
    | with_reducible refine updTwin_keeps (Sub.trans (by decide) hM) ?_ | with_reducible refine keeps_foldl ?_ ?_
    | with_reducible refine keeps_foldlP ?_ ?_ | with_reducible refine keeps_ite (fun _ => ?_) (fun _ => ?_)
    | with_reducible refine keeps_id ?_ | with_reducible split | with_reducible intro _

theorem finishWrite_keeps {M : Nat} {s : State} (hM : Sub 67664 M) :
    ∀ {t : State} {a1 a2 a3 a4}, Keeps M s t → Keeps M s (State.finishWrite t a1 a2 a3 a4) := by
  intro _ _ _ _ _ h0
  unfold State.finishWrite
  repeat' first
    | with_reducible assumption | with_reducible refine waitFor_keeps (Sub.trans (by decide) hM) ?_
    | with_reducible refine forwardRequest_keeps (Sub.trans (by decide) hM) ?_
    | with_reducible refine replyOk_keeps (Sub.trans (by decide) hM) ?_
    | with_reducible refine keeps_ite (fun _ => ?_) (fun _ => ?_)

theorem withWrite_keeps {M : Nat} {s : State} (hM : Sub 80 M) : ∀ {t : State} {mb op : Nat} {f : Request → State → State},
    Keeps M s t → (∀ q u, Keeps M s u → Keeps M s (f q u)) → Keeps M s (t.withWrite mb op f) := by
  intro t mb op f h hf
  refine withCmd_keeps (Sub.trans (by decide) hM) h ?_
  intro q u hu
  refine keeps_ite (fun _ => ?_) (fun _ => keeps_ite (fun _ => ?_) (fun _ => keeps_ite (fun _ => ?_) (fun _ => hf _ _ hu)))
  · exact busy_keeps (Sub.trans (by decide) hM) hu
  · exact refuse_keeps (Sub.trans (by decide) hM) hu
  · exact busy_keeps (Sub.trans (by decide) hM) hu

theorem modStr_keeps {M : Nat} {s : State} (hM : Sub 131072 M) :
    ∀ {t : State} {a1 a2}, Keeps M s t → Keeps M s (State.modStr t a1 a2) := by
  intro _ _ _ h0
  unfold State.modStr
  repeat' first
    | with_reducible assumption | with_reducible refine updMod_keeps (Sub.trans (by decide) hM) ?_

theorem modMl_keeps {M : Nat} {s : State} (hM : Sub 131072 M) :
    ∀ {t : State} {a1 a2}, Keeps M s t → Keeps M s (State.modMl t a1 a2) := by
  intro _ _ _ h0
  unfold State.modMl
  repeat' first
    | with_reducible assumption | with_reducible refine updMod_keeps (Sub.trans (by decide) hM) ?_

theorem modPrt_keeps {M : Nat} {s : State} (hM : Sub 262144 M) :
    ∀ {t : State} {a1 a2}, Keeps M s t → Keeps M s (State.modPrt t a1 a2) := by
  intro _ _ _ h0
  unfold State.modPrt
  repeat' first
    | with_reducible assumption | with_reducible refine updProt_keeps (Sub.trans (by decide) hM) ?_

theorem modByp_keeps {M : Nat} {s : State} (hM : Sub 262144 M) :
    ∀ {t : State} {a1 a2}, Keeps M s t → Keeps M s (State.modByp t a1 a2) := by
  intro _ _ _ h0
  unfold State.modByp
  repeat' first
    | with_reducible assumption | with_reducible refine updProt_keeps (Sub.trans (by decide) hM) ?_

theorem modDly_keeps {M : Nat} {s : State} (hM : Sub 512 M) :
    ∀ {t : State} {a1 a2}, Keeps M s t → Keeps M s (State.modDly t a1 a2) := by
  intro _ _ _ h0
  unfold State.modDly
  repeat' first
    | with_reducible assumption | with_reducible refine updTime_keeps (Sub.trans (by decide) hM) ?_

theorem noteSent_keeps {M : Nat} {s : State} (hM : Sub 66048 M) :
    ∀ {t : State} {a1 a2 a3}, Keeps M s t → Keeps M s (State.noteSent t a1 a2 a3) := by
  intro _ _ _ _ h0
  unfold State.noteSent
  repeat' first
    | with_reducible assumption | with_reducible refine modDly_keeps (Sub.trans (by decide) hM) ?_
    | with_reducible refine modLink_keeps (Sub.trans (by decide) hM) ?_
    | with_reducible refine keeps_ite (fun _ => ?_) (fun _ => ?_)

theorem putOut_keeps {M : Nat} {s : State} (hM : Sub 16384 M) :
    ∀ {t : State} {a1 a2}, Keeps M s t → Keeps M s (State.putOut t a1 a2) := by
  intro _ _ _ h0
  unfold State.putOut
  repeat' first
    | with_reducible assumption | with_reducible refine modLane_keeps (Sub.trans (by decide) hM) ?_

theorem burstDue_keeps {M : Nat} {s : State} (hM : Sub 16384 M) :
    ∀ {t : State} {a1}, Keeps M s t → Keeps M s (State.burstDue t a1) := by
  intro _ _ h0
  unfold State.burstDue
  repeat' first
    | with_reducible assumption | with_reducible refine modLane_keeps (Sub.trans (by decide) hM) ?_

theorem sendTagged_keeps {M : Nat} {s : State} (hM : Sub 82432 M) :
    ∀ {t : State} {a1 a2 a3 a4}, Keeps M s t → Keeps M s (State.sendTagged t a1 a2 a3 a4) := by
  intro _ _ _ _ _ h0
  unfold State.sendTagged
  repeat' first
    | with_reducible assumption | with_reducible refine putOut_keeps (Sub.trans (by decide) hM) ?_
    | with_reducible refine noteSent_keeps (Sub.trans (by decide) hM) ?_
    | with_reducible refine modLink_keeps (Sub.trans (by decide) hM) ?_

theorem sendBlock_keeps {M : Nat} {s : State} (hM : Sub 82432 M) :
    ∀ {t : State} {a1 a2 a3}, Keeps M s t → Keeps M s (State.sendBlock t a1 a2 a3) := by
  intro _ _ _ _ h0
  unfold State.sendBlock
  repeat' first
    | with_reducible assumption | with_reducible refine sendTagged_keeps (Sub.trans (by decide) hM) ?_

theorem idleWatch_keeps {M : Nat} {s : State} (hM : Sub 65536 M) :
    ∀ {t : State} {a1}, Keeps M s t → Keeps M s (State.idleWatch t a1) := by
  intro _ _ h0
  unfold State.idleWatch
  repeat' first
    | with_reducible assumption | with_reducible refine modLink_keeps (Sub.trans (by decide) hM) ?_
    | with_reducible refine keeps_ite (fun _ => ?_) (fun _ => ?_)

theorem coastRefresh_keeps {M : Nat} {s : State} (hM : Sub 65536 M) :
    ∀ {t : State} {a1}, Keeps M s t → Keeps M s (State.coastRefresh t a1) := by
  intro _ _ h0
  unfold State.coastRefresh
  repeat' first
    | with_reducible assumption | with_reducible refine idleWatch_keeps (Sub.trans (by decide) hM) ?_
    | with_reducible refine modLink_keeps (Sub.trans (by decide) hM) ?_
    | with_reducible refine queueBlock_keeps (Sub.trans (by decide) hM) ?_
    | with_reducible refine keeps_ite (fun _ => ?_) (fun _ => ?_)

theorem coastLanes_keeps {M : Nat} {s : State} (hM : Sub 65536 M) :
    ∀ {t : State} {a1}, Keeps M s t → Keeps M s (State.coastLanes t a1) := by
  intro _ _ h0
  unfold State.coastLanes
  repeat' first
    | with_reducible assumption | with_reducible refine coastRefresh_keeps (Sub.trans (by decide) hM) ?_
    | with_reducible refine keeps_foldl ?_ ?_ | with_reducible refine keeps_foldlP ?_ ?_
    | with_reducible refine keeps_ite (fun _ => ?_) (fun _ => ?_) | with_reducible refine keeps_id ?_ | with_reducible split
    | with_reducible intro _

theorem paramSend_keeps {M : Nat} {s : State} (hM : Sub 65536 M) :
    ∀ {t : State} {a1 a2}, Keeps M s t → Keeps M s (State.paramSend t a1 a2) := by
  intro _ _ _ h0
  unfold State.paramSend
  repeat' first
    | with_reducible assumption | with_reducible refine queueBlock_keeps (Sub.trans (by decide) hM) ?_

theorem paramStart_keeps {M : Nat} {s : State} (hM : Sub 65536 M) :
    ∀ {t : State} {a1 a2}, Keeps M s t → Keeps M s (State.paramStart t a1 a2) := by
  intro _ _ _ h0
  unfold State.paramStart
  repeat' first
    | with_reducible assumption | with_reducible refine modLink_keeps (Sub.trans (by decide) hM) ?_
    | with_reducible refine paramSend_keeps (Sub.trans (by decide) hM) ?_
    | with_reducible refine keeps_ite (fun _ => ?_) (fun _ => ?_)

theorem paramStale_keeps {M : Nat} {s : State} (hM : Sub 80 M) :
    ∀ {t : State} {a1}, Keeps M s t → Keeps M s (State.paramStale t a1) := by
  intro _ _ h0
  unfold State.paramStale
  repeat' first
    | with_reducible assumption | with_reducible refine refuse_keeps (Sub.trans (by decide) hM) ?_
    | with_reducible refine keeps_ite (fun _ => ?_) (fun _ => ?_) | with_reducible refine keeps_id ?_ | with_reducible split

theorem paramEnd_keeps {M : Nat} {s : State} (hM : Sub 65624 M) :
    ∀ {t : State} {a1 a2}, Keeps M s t → Keeps M s (State.paramEnd t a1 a2) := by
  intro _ _ _ h0
  unfold State.paramEnd
  repeat' first
    | with_reducible assumption | with_reducible refine modLink_keeps (Sub.trans (by decide) hM) ?_
    | with_reducible refine replyOk_keeps (Sub.trans (by decide) hM) ?_
    | with_reducible refine refuse_keeps (Sub.trans (by decide) hM) ?_
    | with_reducible refine later_keeps (Sub.trans (by decide) hM) ?_
    | with_reducible refine bump_keeps (Sub.trans (by decide) hM) ?_
    | with_reducible refine paramStart_keeps (Sub.trans (by decide) hM) ?_
    | with_reducible refine keeps_ite (fun _ => ?_) (fun _ => ?_) | with_reducible refine keeps_id ?_ | with_reducible split
    | with_reducible intro _ | with_reducible dsimp only

theorem paramRole_keeps {M : Nat} {s : State} (hM : Sub 65616 M) :
    ∀ {t : State} {a1}, Keeps M s t → Keeps M s (State.paramRole t a1) := by
  intro _ _ h0
  unfold State.paramRole
  repeat' first
    | with_reducible assumption | with_reducible refine paramStale_keeps (Sub.trans (by decide) hM) ?_
    | with_reducible refine modLink_keeps (Sub.trans (by decide) hM) ?_
    | with_reducible refine paramStart_keeps (Sub.trans (by decide) hM) ?_ | with_reducible refine keeps_foldl ?_ ?_
    | with_reducible refine keeps_foldlP ?_ ?_ | with_reducible refine keeps_ite (fun _ => ?_) (fun _ => ?_)
    | with_reducible refine keeps_id ?_ | with_reducible split | with_reducible intro _ | with_reducible dsimp only

theorem authStart_keeps {M : Nat} {s : State} (hM : Sub 65540 M) :
    ∀ {t : State} {a1}, Keeps M s t → Keeps M s (State.authStart t a1) := by
  intro _ _ h0
  unfold State.authStart
  repeat' first
    | with_reducible assumption | with_reducible refine queueBlock_keeps (Sub.trans (by decide) hM) ?_
    | with_reducible refine modLink_keeps (Sub.trans (by decide) hM) ?_
    | with_reducible refine tookFree_keeps (Sub.trans (by decide) hM) ?_

theorem reauthReply_keeps {M : Nat} {s : State} (hM : Sub 65616 M) :
    ∀ {t : State} {a1 a2}, Keeps M s t → Keeps M s (State.reauthReply t a1 a2) := by
  intro _ _ _ h0
  unfold State.reauthReply
  repeat' first
    | with_reducible assumption | with_reducible refine replyOk_keeps (Sub.trans (by decide) hM) ?_
    | with_reducible refine modLink_keeps (Sub.trans (by decide) hM) ?_
    | with_reducible refine keeps_ite (fun _ => ?_) (fun _ => ?_) | with_reducible refine keeps_id ?_ | with_reducible split

theorem authPass_keeps {M : Nat} {s : State} (hM : Sub 590032 M) :
    ∀ {t : State} {a1 a2}, Keeps M s t → Keeps M s (State.authPass t a1 a2) := by
  intro _ _ _ h0
  unfold State.authPass
  repeat' first
    | with_reducible assumption | with_reducible refine coastRefresh_keeps (Sub.trans (by decide) hM) ?_
    | with_reducible refine updDt_keeps (Sub.trans (by decide) hM) ?_
    | with_reducible refine modLink_keeps (Sub.trans (by decide) hM) ?_
    | with_reducible refine reauthReply_keeps (Sub.trans (by decide) hM) ?_
    | with_reducible refine paramStart_keeps (Sub.trans (by decide) hM) ?_
    | with_reducible refine condOff_keeps (Sub.trans (by decide) hM) ?_

theorem authFail_keeps {M : Nat} {s : State} (hM : Sub 73976 M) :
    ∀ {t : State} {a1 a2}, Keeps M s t → Keeps M s (State.authFail t a1 a2) := by
  intro _ _ _ h0
  unfold State.authFail
  repeat' first
    | with_reducible assumption | with_reducible refine modLink_keeps (Sub.trans (by decide) hM) ?_
    | with_reducible refine reauthReply_keeps (Sub.trans (by decide) hM) ?_
    | with_reducible refine later_keeps (Sub.trans (by decide) hM) ?_
    | with_reducible refine fire_keeps (Sub.trans (by decide) hM) ?_

theorem linkEnter_keeps {M : Nat} {s : State} (hM : Sub 66060 M) :
    ∀ {t : State} {a1}, Keeps M s t → Keeps M s (State.linkEnter t a1) := by
  intro _ _ h0
  unfold State.linkEnter
  repeat' first
    | with_reducible assumption | with_reducible refine modLink_keeps (Sub.trans (by decide) hM) ?_
    | with_reducible refine authStart_keeps (Sub.trans (by decide) hM) ?_
    | with_reducible refine modDly_keeps (Sub.trans (by decide) hM) ?_
    | with_reducible refine later_keeps (Sub.trans (by decide) hM) ?_ | with_reducible refine keeps_ite (fun _ => ?_) (fun _ => ?_)

theorem linkReturn_keeps {M : Nat} {s : State} (hM : Sub 66056 M) :
    ∀ {t : State} {a1}, Keeps M s t → Keeps M s (State.linkReturn t a1) := by
  intro _ _ h0
  unfold State.linkReturn
  repeat' first
    | with_reducible assumption | with_reducible refine modLink_keeps (Sub.trans (by decide) hM) ?_
    | with_reducible refine modDly_keeps (Sub.trans (by decide) hM) ?_
    | with_reducible refine later_keeps (Sub.trans (by decide) hM) ?_ | with_reducible refine keeps_ite (fun _ => ?_) (fun _ => ?_)

theorem linkLeave_keeps {M : Nat} {s : State} (hM : Sub 65544 M) :
    ∀ {t : State} {a1}, Keeps M s t → Keeps M s (State.linkLeave t a1) := by
  intro _ _ h0
  unfold State.linkLeave
  repeat' first
    | with_reducible assumption | with_reducible refine modLink_keeps (Sub.trans (by decide) hM) ?_
    | with_reducible refine later_keeps (Sub.trans (by decide) hM) ?_ | with_reducible refine keeps_ite (fun _ => ?_) (fun _ => ?_)

theorem rxValid_keeps {M : Nat} {s : State} (hM : Sub 84168 M) :
    ∀ {t : State} {a1 a2}, Keeps M s t → Keeps M s (State.rxValid t a1 a2) := by
  intro _ _ _ h0
  unfold State.rxValid
  repeat' first
    | with_reducible assumption | with_reducible refine modLane_keeps (Sub.trans (by decide) hM) ?_
    | with_reducible refine bump_keeps (Sub.trans (by decide) hM) ?_
    | with_reducible refine bumpBy_keeps (Sub.trans (by decide) hM) ?_
    | with_reducible refine modLink_keeps (Sub.trans (by decide) hM) ?_
    | with_reducible refine updTwin_keeps (Sub.trans (by decide) hM) ?_
    | with_reducible refine later_keeps (Sub.trans (by decide) hM) ?_
    | with_reducible refine condOff_keeps (Sub.trans (by decide) hM) ?_
    | with_reducible refine keeps_ite (fun _ => ?_) (fun _ => ?_)

theorem twinFirst_keeps {M : Nat} {s : State} (hM : Sub 84168 M) : ∀ {t : State} {e : Nat} {k : RxHeader} {f : State → State},
    Keeps M s t → (∀ u, Keeps M s u → Keeps M s (f u)) → Keeps M s (t.twinFirst e k f) := by
  intro t e k f h hf
  unfold State.twinFirst
  repeat' first
    | with_reducible assumption | with_reducible refine keeps_ite (fun _ => ?_) (fun _ => ?_) | with_reducible refine hf _ ?_
    | with_reducible refine updTwin_keeps (Sub.trans (by decide) hM) ?_
    | with_reducible refine rxValid_keeps (Sub.trans (by decide) hM) ?_

theorem svcTake_keeps {M : Nat} {s : State} (hM : Sub 84168 M) : ∀ {t : State} {e : Nat} {k : RxHeader} {f : State → State},
    Keeps M s t → (∀ u, Keeps M s u → Keeps M s (f u)) → Keeps M s (t.svcTake e k f) := by
  intro t e k f h hf
  unfold State.svcTake
  repeat' first
    | with_reducible assumption | with_reducible refine keeps_ite (fun _ => ?_) (fun _ => ?_) | with_reducible refine hf _ ?_
    | with_reducible refine rxValid_keeps (Sub.trans (by decide) hM) ?_
    | with_reducible refine twinFirst_keeps (Sub.trans (by decide) hM) ?_ hf

theorem rxCommon_keeps {M : Nat} {s : State} (hM : Sub 84168 M) :
    ∀ {t : State} {a1 a2}, Keeps M s t → Keeps M s (State.rxCommon t a1 a2) := by
  intro _ _ _ h0
  unfold State.rxCommon
  repeat' first
    | with_reducible assumption | with_reducible refine rxValid_keeps (Sub.trans (by decide) hM) ?_
    | with_reducible refine bump_keeps (Sub.trans (by decide) hM) ?_ | with_reducible refine keeps_ite (fun _ => ?_) (fun _ => ?_)

theorem rxPort_keeps {M : Nat} {s : State} (hM : Sub 84168 M) : ∀ {t : State} {e : Nat} {k : RxHeader} {f : State → State},
    Keeps M s t → (∀ u, Keeps M s u → Keeps M s (f u)) → Keeps M s (t.rxPort e k f) := by
  intro t e k f h hf
  unfold State.rxPort
  repeat' first
    | with_reducible assumption | with_reducible refine keeps_ite (fun _ => ?_) (fun _ => ?_) | with_reducible refine hf _ ?_
    | with_reducible refine bump_keeps (Sub.trans (by decide) hM) ?_
    | with_reducible refine modLink_keeps (Sub.trans (by decide) hM) ?_
    | with_reducible refine rxValid_keeps (Sub.trans (by decide) hM) ?_

end Sys2Proof.Machine
end

