-- ==== Sys2Proof/Machine/Frame2.lean ====
section
/-!
DEFINITION. Frames, part 2: the functions from identCheck to rideMirror, in the order of their calls. Each lemma says
which parts its function may change (a mask over Part.bit) and that it keeps the bounds of State.Inv.
-/

namespace Sys2Proof.Machine

set_option linter.unreachableTactic false
set_option linter.unusedTactic false
set_option linter.unusedSimpArgs false

theorem identCheck_keeps {M : Nat} {s : State} (hM : Sub 8440 M) :
    ∀ {t : State} {a1}, Keeps M s t → Keeps M s (State.identCheck t a1) := by
  intro _ _ h0
  unfold State.identCheck
  repeat' first
    | with_reducible assumption | with_reducible refine cond_keeps (Sub.trans (by decide) hM) ?_
    | with_reducible refine keeps_ite (fun _ => ?_) (fun _ => ?_)

theorem measure_keeps {M : Nat} {s : State} (hM : Sub 8952 M) :
    ∀ {t : State} {a1 a2}, Keeps M s t → Keeps M s (State.measure t a1 a2) := by
  intro _ _ _ h0
  unfold State.measure
  repeat' first
    | with_reducible assumption | with_reducible refine fire_keeps (Sub.trans (by decide) hM) ?_
    | with_reducible refine modDly_keeps (Sub.trans (by decide) hM) ?_ | with_reducible refine keeps_ite (fun _ => ?_) (fun _ => ?_)

theorem takeReply_keeps {M : Nat} {s : State} (hM : Sub 74488 M) :
    ∀ {t : State} {a1 a2}, Keeps M s t → Keeps M s (State.takeReply t a1 a2) := by
  intro _ _ _ h0
  unfold State.takeReply
  repeat' first
    | with_reducible assumption | with_reducible refine modDly_keeps (Sub.trans (by decide) hM) ?_
    | with_reducible refine measure_keeps (Sub.trans (by decide) hM) ?_
    | with_reducible refine queueBlock_keeps (Sub.trans (by decide) hM) ?_
    | with_reducible refine keeps_ite (fun _ => ?_) (fun _ => ?_) | with_reducible refine keeps_id ?_ | with_reducible split

theorem queueSync_keeps {M : Nat} {s : State} (hM : Sub 66048 M) :
    ∀ {t : State} {a1}, Keeps M s t → Keeps M s (State.queueSync t a1) := by
  intro _ _ h0
  unfold State.queueSync
  repeat' first
    | with_reducible assumption | with_reducible refine queueBlock_keeps (Sub.trans (by decide) hM) ?_
    | with_reducible refine modDly_keeps (Sub.trans (by decide) hM) ?_

theorem modRack_keeps {M : Nat} {s : State} (hM : Sub 16384 M) :
    ∀ {t : State} {a1 a2}, Keeps M s t → Keeps M s (State.modRack t a1 a2) := by
  intro _ _ _ h0
  unfold State.modRack
  repeat' first
    | with_reducible assumption | with_reducible refine updLanes_keeps (Sub.trans (by decide) hM) ?_

theorem setLane_keeps {M : Nat} {s : State} (hM : Sub 81928 M) :
    ∀ {t : State} {a1 a2}, Keeps M s t → Keeps M s (State.setLane t a1 a2) := by
  intro _ _ _ h0
  unfold State.setLane
  repeat' first
    | with_reducible assumption | with_reducible refine modLane_keeps (Sub.trans (by decide) hM) ?_
    | with_reducible refine linkLeave_keeps (Sub.trans (by decide) hM) ?_
    | with_reducible refine later_keeps (Sub.trans (by decide) hM) ?_ | with_reducible refine keeps_ite (fun _ => ?_) (fun _ => ?_)

theorem startAttempt_keeps {M : Nat} {s : State} (hM : Sub 81996 M) :
    ∀ {t : State} {a1 a2}, Keeps M s t → Keeps M s (State.startAttempt t a1 a2) := by
  intro _ _ _ h0
  unfold State.startAttempt
  repeat' first
    | with_reducible assumption | with_reducible refine modLane_keeps (Sub.trans (by decide) hM) ?_
    | with_reducible refine bump_keeps (Sub.trans (by decide) hM) ?_
    | with_reducible refine setLane_keeps (Sub.trans (by decide) hM) ?_
    | with_reducible refine putOut_keeps (Sub.trans (by decide) hM) ?_
    | with_reducible refine burstDue_keeps (Sub.trans (by decide) hM) ?_
    | with_reducible refine tookFree_keeps (Sub.trans (by decide) hM) ?_

theorem freshAttempt_keeps {M : Nat} {s : State} (hM : Sub 81996 M) :
    ∀ {t : State} {a1}, Keeps M s t → Keeps M s (State.freshAttempt t a1) := by
  intro _ _ h0
  unfold State.freshAttempt
  repeat' first
    | with_reducible assumption | with_reducible refine setLane_keeps (Sub.trans (by decide) hM) ?_
    | with_reducible refine startAttempt_keeps (Sub.trans (by decide) hM) ?_
    | with_reducible refine keeps_ite (fun _ => ?_) (fun _ => ?_)

theorem attemptFail_keeps {M : Nat} {s : State} (hM : Sub 90360 M) :
    ∀ {t : State} {a1}, Keeps M s t → Keeps M s (State.attemptFail t a1) := by
  intro _ _ h0
  unfold State.attemptFail
  repeat' first
    | with_reducible assumption | with_reducible refine setLane_keeps (Sub.trans (by decide) hM) ?_
    | with_reducible refine fire_keeps (Sub.trans (by decide) hM) ?_ | with_reducible refine keeps_ite (fun _ => ?_) (fun _ => ?_)

theorem enterHunt_keeps {M : Nat} {s : State} (hM : Sub 81992 M) :
    ∀ {t : State} {a1}, Keeps M s t → Keeps M s (State.enterHunt t a1) := by
  intro _ _ h0
  unfold State.enterHunt
  repeat' first
    | with_reducible assumption | with_reducible refine modLane_keeps (Sub.trans (by decide) hM) ?_
    | with_reducible refine bump_keeps (Sub.trans (by decide) hM) ?_
    | with_reducible refine setLane_keeps (Sub.trans (by decide) hM) ?_

theorem lockLoss_keeps {M : Nat} {s : State} (hM : Sub 90360 M) :
    ∀ {t : State} {a1}, Keeps M s t → Keeps M s (State.lockLoss t a1) := by
  intro _ _ h0
  unfold State.lockLoss
  repeat' first
    | with_reducible assumption | with_reducible refine enterHunt_keeps (Sub.trans (by decide) hM) ?_
    | with_reducible refine fire_keeps (Sub.trans (by decide) hM) ?_ | with_reducible refine keeps_ite (fun _ => ?_) (fun _ => ?_)

theorem enterLinked_keeps {M : Nat} {s : State} (hM : Sub 82444 M) :
    ∀ {t : State} {a1}, Keeps M s t → Keeps M s (State.enterLinked t a1) := by
  intro _ _ h0
  unfold State.enterLinked
  repeat' first
    | with_reducible assumption | with_reducible refine modLane_keeps (Sub.trans (by decide) hM) ?_
    | with_reducible refine setLane_keeps (Sub.trans (by decide) hM) ?_
    | with_reducible refine linkReturn_keeps (Sub.trans (by decide) hM) ?_
    | with_reducible refine linkEnter_keeps (Sub.trans (by decide) hM) ?_
    | with_reducible refine keeps_ite (fun _ => ?_) (fun _ => ?_)

theorem laneTypeChanged_keeps {M : Nat} {s : State} (hM : Sub 81996 M) :
    ∀ {t : State} {a1 a2 a3}, Keeps M s t → Keeps M s (State.laneTypeChanged t a1 a2 a3) := by
  intro _ _ _ _ h0
  unfold State.laneTypeChanged
  repeat' first
    | with_reducible assumption | with_reducible refine freshAttempt_keeps (Sub.trans (by decide) hM) ?_
    | with_reducible refine keeps_ite (fun _ => ?_) (fun _ => ?_)

theorem addEntries_keeps {M : Nat} {s : State} (hM : Sub 131136 M) :
    ∀ {t : State} {a1 a2}, Keeps M s t → Keeps M s (State.addEntries t a1 a2) := by
  intro _ _ _ h0
  unfold State.addEntries
  repeat' first
    | with_reducible assumption | with_reducible refine modMl_keeps (Sub.trans (by decide) hM) ?_
    | with_reducible refine bumpBy_keeps (Sub.trans (by decide) hM) ?_ | with_reducible refine keeps_foldl ?_ ?_
    | with_reducible refine keeps_foldlP ?_ ?_ | with_reducible refine keeps_ite (fun _ => ?_) (fun _ => ?_)

theorem refill_keeps {M : Nat} {s : State} (hM : Sub 131136 M) :
    ∀ {t : State} {a1}, Keeps M s t → Keeps M s (State.refill t a1) := by
  intro _ _ h0
  unfold State.refill
  repeat' first
    | with_reducible assumption | with_reducible refine addEntries_keeps (Sub.trans (by decide) hM) ?_
    | with_reducible refine modMl_keeps (Sub.trans (by decide) hM) ?_
    | with_reducible refine bumpBy_keeps (Sub.trans (by decide) hM) ?_ | with_reducible refine keeps_foldl ?_ ?_
    | with_reducible refine keeps_foldlP ?_ ?_ | with_reducible refine keeps_ite (fun _ => ?_) (fun _ => ?_)

theorem withdraw_keeps {M : Nat} {s : State} (hM : Sub 131136 M) :
    ∀ {t : State} {a1 a2}, Keeps M s t → Keeps M s (State.withdraw t a1 a2) := by
  intro _ _ _ h0
  unfold State.withdraw
  repeat' first
    | with_reducible assumption | with_reducible refine addEntries_keeps (Sub.trans (by decide) hM) ?_
    | with_reducible refine modMl_keeps (Sub.trans (by decide) hM) ?_

theorem pushAct_keeps {M : Nat} {s : State} (hM : Sub 131136 M) :
    ∀ {t : State} {a1 a2 a3}, Keeps M s t → Keeps M s (State.pushAct t a1 a2 a3) := by
  intro _ _ _ _ h0
  unfold State.pushAct
  repeat' first
    | with_reducible assumption | with_reducible refine addEntries_keeps (Sub.trans (by decide) hM) ?_

theorem pushTwo_keeps {M : Nat} {s : State} (hM : Sub 131136 M) :
    ∀ {t : State} {a1 a2 a3 a4}, Keeps M s t → Keeps M s (State.pushTwo t a1 a2 a3 a4) := by
  intro _ _ _ _ _ h0
  unfold State.pushTwo
  repeat' first
    | with_reducible assumption | with_reducible refine pushAct_keeps (Sub.trans (by decide) hM) ?_

theorem dropPassed_keeps {M : Nat} {s : State} (hM : Sub 131136 M) : ∀ {n : Nat} {lane : Nat} {t : State}, Keeps M s t → Keeps M s (State.dropPassed n lane t) := by
  intro n
  induction n with
  | zero =>
    intro lane t h
    unfold State.dropPassed
    first
      | exact h
  | succ n ih =>
    intro lane t h
    unfold State.dropPassed
    repeat' first
      | with_reducible assumption | with_reducible refine keeps_ite (fun _ => ?_) (fun _ => ?_)
      | with_reducible refine bump_keeps (Sub.trans (by decide) hM) ?_
      | with_reducible refine modMl_keeps (Sub.trans (by decide) hM) ?_ | with_reducible refine ih ?_ | with_reducible split
  

theorem copyPass_keeps {M : Nat} {s : State} (hM : Sub 65600 M) :
    ∀ {t : State} {a1}, Keeps M s t → Keeps M s (State.copyPass t a1) := by
  intro _ _ h0
  unfold State.copyPass
  repeat' first
    | with_reducible assumption | with_reducible refine bump_keeps (Sub.trans (by decide) hM) ?_
    | with_reducible refine modLink_keeps (Sub.trans (by decide) hM) ?_
    | with_reducible refine keeps_ite (fun _ => ?_) (fun _ => ?_) | with_reducible refine keeps_id ?_ | with_reducible split

theorem shelfPass_keeps {M : Nat} {s : State} (hM : Sub 196672 M) :
    ∀ {t : State} {a1}, Keeps M s t → Keeps M s (State.shelfPass t a1) := by
  intro _ _ h0
  unfold State.shelfPass
  repeat' first
    | with_reducible assumption | with_reducible refine copyPass_keeps (Sub.trans (by decide) hM) ?_
    | with_reducible refine refill_keeps (Sub.trans (by decide) hM) ?_
    | with_reducible refine dropPassed_keeps (Sub.trans (by decide) hM) ?_
    | with_reducible refine modMl_keeps (Sub.trans (by decide) hM) ?_

theorem launchLate_keeps {M : Nat} {s : State} (hM : Sub 512 M) :
    ∀ {t : State} {a1}, Keeps M s t → Keeps M s (State.launchLate t a1) := by
  intro _ _ h0
  unfold State.launchLate
  repeat' first
    | with_reducible assumption | with_reducible refine modDly_keeps (Sub.trans (by decide) hM) ?_

theorem noteNode_keeps {M : Nat} {s : State} (hM : Sub 524288 M) :
    ∀ {t : State} {a1 a2 a3}, Keeps M s t → Keeps M s (State.noteNode t a1 a2 a3) := by
  intro _ _ _ _ h0
  unfold State.noteNode
  repeat' first
    | with_reducible assumption | with_reducible refine updDt_keeps (Sub.trans (by decide) hM) ?_
    | with_reducible refine keeps_ite (fun _ => ?_) (fun _ => ?_)

theorem launch_keeps {M : Nat} {s : State} (hM : Sub 737792 M) :
    ∀ {t : State} {a1 a2}, Keeps M s t → Keeps M s (State.launch t a1 a2) := by
  intro _ _ _ h0
  unfold State.launch
  repeat' first
    | with_reducible assumption | with_reducible refine launchLate_keeps (Sub.trans (by decide) hM) ?_
    | with_reducible refine sendBlock_keeps (Sub.trans (by decide) hM) ?_
    | with_reducible refine modMl_keeps (Sub.trans (by decide) hM) ?_
    | with_reducible refine noteNode_keeps (Sub.trans (by decide) hM) ?_
    | with_reducible refine modLink_keeps (Sub.trans (by decide) hM) ?_
    | with_reducible refine keeps_ite (fun _ => ?_) (fun _ => ?_) | with_reducible refine keeps_id ?_ | with_reducible split

theorem sendCopy_keeps {M : Nat} {s : State} (hM : Sub 82432 M) :
    ∀ {t : State} {a1 a2}, Keeps M s t → Keeps M s (State.sendCopy t a1 a2) := by
  intro _ _ _ h0
  unfold State.sendCopy
  repeat' first
    | with_reducible assumption | with_reducible refine sendBlock_keeps (Sub.trans (by decide) hM) ?_
    | with_reducible refine modLink_keeps (Sub.trans (by decide) hM) ?_

theorem sendQueued_keeps {M : Nat} {s : State} (hM : Sub 82432 M) :
    ∀ {t : State} {a1 a2}, Keeps M s t → Keeps M s (State.sendQueued t a1 a2) := by
  intro _ _ _ h0
  unfold State.sendQueued
  repeat' first
    | with_reducible assumption | with_reducible refine sendBlock_keeps (Sub.trans (by decide) hM) ?_
    | with_reducible refine modLink_keeps (Sub.trans (by decide) hM) ?_

theorem slotBody_keeps {M : Nat} {s : State} (hM : Sub 737792 M) : ∀ {t u : State} {lane : Nat}, Keeps M s t → t.slotBody lane = some u → Keeps M s u := by
  intro t u lane h hu
  unfold State.slotBody at hu
  dsimp only at hu
  repeat' split at hu
  all_goals first
    | (cases hu; done) | (cases hu; exact sendBlock_keeps (Sub.trans (by decide) hM) h)
    | (cases hu; exact sendQueued_keeps (Sub.trans (by decide) hM) h)
    | (rw [Option.map_eq_some_iff] at hu; obtain ⟨x, _, rfl⟩ := hu
       first
         | exact launch_keeps (Sub.trans (by decide) hM) h
         | exact sendCopy_keeps (Sub.trans (by decide) hM) h)

theorem modDtl_keeps {M : Nat} {s : State} (hM : Sub 524288 M) :
    ∀ {t : State} {a1 a2}, Keeps M s t → Keeps M s (State.modDtl t a1 a2) := by
  intro _ _ _ h0
  unfold State.modDtl
  repeat' first
    | with_reducible assumption | with_reducible refine updDt_keeps (Sub.trans (by decide) hM) ?_

theorem modDleg_keeps {M : Nat} {s : State} (hM : Sub 524288 M) :
    ∀ {t : State} {a1 a2 a3}, Keeps M s t → Keeps M s (State.modDleg t a1 a2 a3) := by
  intro _ _ _ _ h0
  unfold State.modDleg
  repeat' first
    | with_reducible assumption | with_reducible refine modDtl_keeps (Sub.trans (by decide) hM) ?_

theorem twState_keeps {M : Nat} {s : State} (hM : Sub 65540 M) :
    ∀ {t : State} {a1}, Keeps M s t → Keeps M s (State.twState t a1) := by
  intro _ _ h0
  unfold State.twState
  repeat' first
    | with_reducible assumption | with_reducible refine twinSend_keeps (Sub.trans (by decide) hM) ?_
    | with_reducible refine tookFree_keeps (Sub.trans (by decide) hM) ?_
    | with_reducible refine keeps_ite (fun _ => ?_) (fun _ => ?_)

theorem dtUnfall_keeps {M : Nat} {s : State} (hM : Sub 524416 M) :
    ∀ {t : State} {a1 a2}, Keeps M s t → Keeps M s (State.dtUnfall t a1 a2) := by
  intro _ _ _ h0
  unfold State.dtUnfall
  repeat' first
    | with_reducible assumption | with_reducible refine condOff_keeps (Sub.trans (by decide) hM) ?_
    | with_reducible refine modDleg_keeps (Sub.trans (by decide) hM) ?_

theorem dtToInit_keeps {M : Nat} {s : State} (hM : Sub 524416 M) :
    ∀ {t : State} {a1 a2}, Keeps M s t → Keeps M s (State.dtToInit t a1 a2) := by
  intro _ _ _ h0
  unfold State.dtToInit
  repeat' first
    | with_reducible assumption | with_reducible refine modDleg_keeps (Sub.trans (by decide) hM) ?_
    | with_reducible refine dtUnfall_keeps (Sub.trans (by decide) hM) ?_

theorem dtResetTake_keeps {M : Nat} {s : State} (hM : Sub 524416 M) :
    ∀ {t : State} {a1 a2 a3}, Keeps M s t → Keeps M s (State.dtResetTake t a1 a2 a3) := by
  intro _ _ _ _ h0
  unfold State.dtResetTake
  repeat' first
    | with_reducible assumption | with_reducible refine modDleg_keeps (Sub.trans (by decide) hM) ?_
    | with_reducible refine dtUnfall_keeps (Sub.trans (by decide) hM) ?_
    | with_reducible refine keeps_ite (fun _ => ?_) (fun _ => ?_)

theorem dtBoundary_keeps {M : Nat} {s : State} (hM : Sub 524416 M) :
    ∀ {t : State} {a1 a2 a3}, Keeps M s t → Keeps M s (State.dtBoundary t a1 a2 a3) := by
  intro _ _ _ _ h0
  unfold State.dtBoundary
  repeat' first
    | with_reducible assumption | with_reducible refine dtResetTake_keeps (Sub.trans (by decide) hM) ?_
    | with_reducible refine modDleg_keeps (Sub.trans (by decide) hM) ?_
    | with_reducible refine dtUnfall_keeps (Sub.trans (by decide) hM) ?_
    | with_reducible refine keeps_ite (fun _ => ?_) (fun _ => ?_)

theorem dtCapture_keeps {M : Nat} {s : State} (hM : Sub 524352 M) :
    ∀ {t : State} {a1 a2 a3}, Keeps M s t → Keeps M s (State.dtCapture t a1 a2 a3) := by
  intro _ _ _ _ h0
  unfold State.dtCapture
  repeat' first
    | with_reducible assumption | with_reducible refine modDleg_keeps (Sub.trans (by decide) hM) ?_
    | with_reducible refine bump_keeps (Sub.trans (by decide) hM) ?_ | with_reducible refine keeps_ite (fun _ => ?_) (fun _ => ?_)

theorem dtDiscard_keeps {M : Nat} {s : State} (hM : Sub 524288 M) :
    ∀ {t : State} {a1}, Keeps M s t → Keeps M s (State.dtDiscard t a1) := by
  intro _ _ h0
  unfold State.dtDiscard
  repeat' first
    | with_reducible assumption | with_reducible refine modDleg_keeps (Sub.trans (by decide) hM) ?_
    | with_reducible refine keeps_foldl ?_ ?_ | with_reducible refine keeps_foldlP ?_ ?_
    | with_reducible refine keeps_ite (fun _ => ?_) (fun _ => ?_) | with_reducible refine keeps_id ?_ | with_reducible split
    | with_reducible intro _

theorem dtRollChange_keeps {M : Nat} {s : State} (hM : Sub 524416 M) :
    ∀ {t : State} {a1}, Keeps M s t → Keeps M s (State.dtRollChange t a1) := by
  intro _ _ h0
  unfold State.dtRollChange
  repeat' first
    | with_reducible assumption | with_reducible refine modDleg_keeps (Sub.trans (by decide) hM) ?_
    | with_reducible refine dtToInit_keeps (Sub.trans (by decide) hM) ?_
    | with_reducible refine dtDiscard_keeps (Sub.trans (by decide) hM) ?_ | with_reducible refine keeps_foldl ?_ ?_
    | with_reducible refine keeps_foldlP ?_ ?_ | with_reducible refine keeps_ite (fun _ => ?_) (fun _ => ?_)
    | with_reducible refine keeps_id ?_ | with_reducible split | with_reducible intro _

theorem dtSelect_keeps {M : Nat} {s : State} (hM : Sub 524288 M) :
    ∀ {t : State} {a1 a2 a3}, Keeps M s t → Keeps M s (State.dtSelect t a1 a2 a3).1 := by
  intro _ _ _ _ h0
  unfold State.dtSelect
  repeat' first
    | with_reducible assumption | with_reducible refine modDleg_keeps (Sub.trans (by decide) hM) ?_
    | with_reducible refine keeps_ite (fun _ => ?_) (fun _ => ?_) | with_reducible refine keeps_id ?_ | with_reducible split
    | with_reducible intro _ | with_reducible dsimp only

theorem dtStep_keeps {M : Nat} {s : State} (hM : Sub 589892 M) :
    ∀ {t : State} {a1 a2 a3 a4}, Keeps M s t → Keeps M s (State.dtStep t a1 a2 a3 a4) := by
  intro _ _ _ _ _ h0
  unfold State.dtStep
  repeat' first
    | with_reducible assumption | with_reducible refine modDleg_keeps (Sub.trans (by decide) hM) ?_
    | with_reducible refine twState_keeps (Sub.trans (by decide) hM) ?_
    | with_reducible refine bump_keeps (Sub.trans (by decide) hM) ?_ | with_reducible refine keeps_ite (fun _ => ?_) (fun _ => ?_)

theorem dtFall_keeps {M : Nat} {s : State} (hM : Sub 598268 M) :
    ∀ {t : State} {a1 a2 a3}, Keeps M s t → Keeps M s (State.dtFall t a1 a2 a3) := by
  intro _ _ _ _ h0
  unfold State.dtFall
  repeat' first
    | with_reducible assumption | with_reducible refine modDleg_keeps (Sub.trans (by decide) hM) ?_
    | with_reducible refine condOn_keeps (Sub.trans (by decide) hM) ?_
    | with_reducible refine twState_keeps (Sub.trans (by decide) hM) ?_
    | with_reducible refine keeps_ite (fun _ => ?_) (fun _ => ?_)

theorem dtTally_keeps {M : Nat} {s : State} (hM : Sub 598268 M) :
    ∀ {t : State} {a1 a2 a3 a4}, Keeps M s t → Keeps M s (State.dtTally t a1 a2 a3 a4) := by
  intro _ _ _ _ _ h0
  unfold State.dtTally
  repeat' first
    | with_reducible assumption | with_reducible refine modDleg_keeps (Sub.trans (by decide) hM) ?_
    | with_reducible refine dtFall_keeps (Sub.trans (by decide) hM) ?_
    | with_reducible refine twState_keeps (Sub.trans (by decide) hM) ?_
    | with_reducible refine dtUnfall_keeps (Sub.trans (by decide) hM) ?_
    | with_reducible refine keeps_ite (fun _ => ?_) (fun _ => ?_)

theorem dtJudge_keeps {M : Nat} {s : State} (hM : Sub 598268 M) :
    ∀ {t : State} {a1 a2 a3}, Keeps M s t → Keeps M s (State.dtJudge t a1 a2 a3) := by
  intro _ _ _ _ h0
  unfold State.dtJudge
  repeat' first
    | with_reducible assumption | with_reducible refine bump_keeps (Sub.trans (by decide) hM) ?_
    | with_reducible refine modDleg_keeps (Sub.trans (by decide) hM) ?_
    | with_reducible refine dtTally_keeps (Sub.trans (by decide) hM) ?_
    | with_reducible refine dtStep_keeps (Sub.trans (by decide) hM) ?_ | with_reducible refine keeps_ite (fun _ => ?_) (fun _ => ?_)
    | with_reducible refine keeps_id ?_ | with_reducible split

theorem dtRecord_keeps {M : Nat} {s : State} (hM : Sub 598268 M) :
    ∀ {t : State} {a1 a2 a3 a4}, Keeps M s t → Keeps M s (State.dtRecord t a1 a2 a3 a4) := by
  intro _ _ _ _ _ h0
  unfold State.dtRecord
  repeat' first
    | with_reducible assumption | with_reducible refine bump_keeps (Sub.trans (by decide) hM) ?_
    | with_reducible refine modDleg_keeps (Sub.trans (by decide) hM) ?_
    | with_reducible refine dtJudge_keeps (Sub.trans (by decide) hM) ?_ | with_reducible refine keeps_foldl ?_ ?_
    | with_reducible refine keeps_foldlP ?_ ?_ | with_reducible refine keeps_ite (fun _ => ?_) (fun _ => ?_)
    | with_reducible refine keeps_id ?_ | with_reducible split | with_reducible intro _

theorem noFloor_keeps {M : Nat} {s : State} (hM : Sub 532728 M) :
    ∀ {t : State} {a1 a2}, Keeps M s t → Keeps M s (State.noFloor t a1 a2) := by
  intro _ _ _ h0
  unfold State.noFloor
  repeat' first
    | with_reducible assumption | with_reducible refine fire_keeps (Sub.trans (by decide) hM) ?_
    | with_reducible refine modDtl_keeps (Sub.trans (by decide) hM) ?_

theorem dtFloorRead_keeps {M : Nat} {s : State} (hM : Sub 532728 M) :
    ∀ {t : State} {a1 a2}, Keeps M s t → Keeps M s (State.dtFloorRead t a1 a2) := by
  intro _ _ _ h0
  unfold State.dtFloorRead
  repeat' first
    | with_reducible assumption | with_reducible refine modDtl_keeps (Sub.trans (by decide) hM) ?_
    | with_reducible refine fire_keeps (Sub.trans (by decide) hM) ?_
    | with_reducible refine noFloor_keeps (Sub.trans (by decide) hM) ?_
    | with_reducible refine keeps_ite (fun _ => ?_) (fun _ => ?_) | with_reducible refine keeps_id ?_ | with_reducible split

theorem modSrt_keeps {M : Nat} {s : State} (hM : Sub 524288 M) :
    ∀ {t : State} {a1 a2}, Keeps M s t → Keeps M s (State.modSrt t a1 a2) := by
  intro _ _ _ h0
  unfold State.modSrt
  repeat' first
    | with_reducible assumption | with_reducible refine updDt_keeps (Sub.trans (by decide) hM) ?_

theorem spreadEnd_keeps {M : Nat} {s : State} (hM : Sub 524416 M) :
    ∀ {t : State} {a1}, Keeps M s t → Keeps M s (State.spreadEnd t a1) := by
  intro _ _ h0
  unfold State.spreadEnd
  repeat' first
    | with_reducible assumption | with_reducible refine condOff_keeps (Sub.trans (by decide) hM) ?_
    | with_reducible refine modSrt_keeps (Sub.trans (by decide) hM) ?_

theorem spreadCheck_keeps {M : Nat} {s : State} (hM : Sub 532728 M) :
    ∀ {t : State} {a1}, Keeps M s t → Keeps M s (State.spreadCheck t a1) := by
  intro _ _ h0
  unfold State.spreadCheck
  repeat' first
    | with_reducible assumption | with_reducible refine spreadEnd_keeps (Sub.trans (by decide) hM) ?_
    | with_reducible refine modSrt_keeps (Sub.trans (by decide) hM) ?_
    | with_reducible refine condOn_keeps (Sub.trans (by decide) hM) ?_ | with_reducible refine keeps_ite (fun _ => ?_) (fun _ => ?_)

theorem sortPass_keeps {M : Nat} {s : State} (hM : Sub 532728 M) :
    ∀ {t : State} {a1 a2 a3 a4 a5 a6}, Keeps M s t → Keeps M s (State.sortPass t a1 a2 a3 a4 a5 a6) := by
  intro _ _ _ _ _ _ _ h0
  unfold State.sortPass
  repeat' first
    | with_reducible assumption | with_reducible refine modSrt_keeps (Sub.trans (by decide) hM) ?_
    | with_reducible refine bumpBy_keeps (Sub.trans (by decide) hM) ?_
    | with_reducible refine spreadCheck_keeps (Sub.trans (by decide) hM) ?_

theorem refTake_keeps {M : Nat} {s : State} (hM : Sub 131072 M) :
    ∀ {t : State} {a1 a2 a3}, Keeps M s t → Keeps M s (State.refTake t a1 a2 a3) := by
  intro _ _ _ _ h0
  unfold State.refTake
  repeat' first
    | with_reducible assumption | with_reducible refine updMod_keeps (Sub.trans (by decide) hM) ?_

theorem refCapture_keeps {M : Nat} {s : State} (hM : Sub 131072 M) :
    ∀ {t : State} {a1}, Keeps M s t → Keeps M s (State.refCapture t a1) := by
  intro _ _ h0
  unfold State.refCapture
  repeat' first
    | with_reducible assumption | with_reducible refine refTake_keeps (Sub.trans (by decide) hM) ?_
    | with_reducible refine keeps_foldl ?_ ?_ | with_reducible refine keeps_foldlP ?_ ?_
    | with_reducible refine keeps_ite (fun _ => ?_) (fun _ => ?_) | with_reducible refine keeps_id ?_ | with_reducible split
    | with_reducible intro _

theorem legCounts_keeps {M : Nat} {s : State} (hM : Sub 64 M) :
    ∀ {t : State} {a1 a2}, Keeps M s t → Keeps M s (State.legCounts t a1 a2) := by
  intro _ _ _ h0
  unfold State.legCounts
  repeat' first
    | with_reducible assumption | with_reducible refine bumpBy_keeps (Sub.trans (by decide) hM) ?_
    | with_reducible refine keeps_ite (fun _ => ?_) (fun _ => ?_)

theorem releaseTrans_keeps {M : Nat} {s : State} (hM : Sub 524288 M) :
    ∀ {t : State} {a1 a2 a3 a4}, Keeps M s t → Keeps M s (State.releaseTrans t a1 a2 a3 a4).1 := by
  intro _ _ _ _ _ h0
  unfold State.releaseTrans
  repeat' first
    | with_reducible assumption | with_reducible refine dtSelect_keeps (Sub.trans (by decide) hM) ?_
    | with_reducible refine keeps_foldl ?_ ?_ | with_reducible refine keeps_foldlP ?_ ?_
    | with_reducible refine keeps_ite (fun _ => ?_) (fun _ => ?_) | with_reducible refine keeps_id ?_ | with_reducible split
    | with_reducible intro _

theorem planLeg_keeps {M : Nat} {s : State} (hM : Sub 655424 M) :
    ∀ {t : State} {a1 a2 a3 a4}, Keeps M s t → Keeps M s (State.planLeg t a1 a2 a3 a4).1 := by
  intro _ _ _ _ _ h0
  unfold State.planLeg
  repeat' first
    | with_reducible assumption | with_reducible refine releaseTrans_keeps (Sub.trans (by decide) hM) ?_
    | with_reducible refine legCounts_keeps (Sub.trans (by decide) hM) ?_
    | with_reducible refine modMl_keeps (Sub.trans (by decide) hM) ?_

theorem planMember_keeps {M : Nat} {s : State} (hM : Sub 917568 M) :
    ∀ {t : State} {a1 a2 a3 a4 a5}, Keeps M s t → Keeps M s (State.planMember t a1 a2 a3 a4 a5) := by
  intro _ _ _ _ _ _ h0
  unfold State.planMember
  repeat' first
    | with_reducible assumption | with_reducible refine modMl_keeps (Sub.trans (by decide) hM) ?_
    | with_reducible refine modDleg_keeps (Sub.trans (by decide) hM) ?_
    | with_reducible refine planLeg_keeps (Sub.trans (by decide) hM) ?_
    | with_reducible refine modByp_keeps (Sub.trans (by decide) hM) ?_
    | with_reducible refine modStr_keeps (Sub.trans (by decide) hM) ?_ | with_reducible refine keeps_foldl ?_ ?_
    | with_reducible refine keeps_foldlP ?_ ?_ | with_reducible refine keeps_ite (fun _ => ?_) (fun _ => ?_)
    | with_reducible refine keeps_id ?_ | with_reducible split | with_reducible intro _

theorem planGone_keeps {M : Nat} {s : State} (hM : Sub 917504 M) :
    ∀ {t : State} {a1 a2}, Keeps M s t → Keeps M s (State.planGone t a1 a2) := by
  intro _ _ _ h0
  unfold State.planGone
  repeat' first
    | with_reducible assumption | with_reducible refine dtDiscard_keeps (Sub.trans (by decide) hM) ?_
    | with_reducible refine modMl_keeps (Sub.trans (by decide) hM) ?_
    | with_reducible refine modByp_keeps (Sub.trans (by decide) hM) ?_
    | with_reducible refine modStr_keeps (Sub.trans (by decide) hM) ?_ | with_reducible refine keeps_ite (fun _ => ?_) (fun _ => ?_)

theorem planNow_keeps {M : Nat} {s : State} (hM : Sub 917568 M) :
    ∀ {t : State} {a1}, Keeps M s t → Keeps M s (State.planNow t a1) := by
  intro _ _ h0
  unfold State.planNow
  repeat' first
    | with_reducible assumption | with_reducible refine modStr_keeps (Sub.trans (by decide) hM) ?_
    | with_reducible refine planGone_keeps (Sub.trans (by decide) hM) ?_
    | with_reducible refine planMember_keeps (Sub.trans (by decide) hM) ?_ | with_reducible refine keeps_foldl ?_ ?_
    | with_reducible refine keeps_foldlP ?_ ?_ | with_reducible refine keeps_ite (fun _ => ?_) (fun _ => ?_)
    | with_reducible refine keeps_id ?_ | with_reducible split | with_reducible intro _

theorem unhold_keeps {M : Nat} {s : State} (hM : Sub 131136 M) :
    ∀ {t : State} {a1 a2}, Keeps M s t → Keeps M s (State.unhold t a1 a2) := by
  intro _ _ _ h0
  unfold State.unhold
  repeat' first
    | with_reducible assumption | with_reducible refine addEntries_keeps (Sub.trans (by decide) hM) ?_
    | with_reducible refine modMl_keeps (Sub.trans (by decide) hM) ?_

theorem markCycle_keeps {M : Nat} {s : State} (hM : Sub 131072 M) :
    ∀ {t : State} {a1 a2}, Keeps M s t → Keeps M s (State.markCycle t a1 a2) := by
  intro _ _ _ h0
  unfold State.markCycle
  repeat' first
    | with_reducible assumption | with_reducible refine modMl_keeps (Sub.trans (by decide) hM) ?_

theorem plannedReply_keeps {M : Nat} {s : State} (hM : Sub 80 M) :
    ∀ {t : State} {a1 a2}, Keeps M s t → Keeps M s (State.plannedReply t a1 a2) := by
  intro _ _ _ h0
  unfold State.plannedReply
  repeat' first
    | with_reducible assumption | with_reducible refine waitFor_keeps (Sub.trans (by decide) hM) ?_
    | with_reducible refine replyOk_keeps (Sub.trans (by decide) hM) ?_
    | with_reducible refine keeps_ite (fun _ => ?_) (fun _ => ?_)

theorem answerWaiting_keeps {M : Nat} {s : State} (hM : Sub 80 M) :
    ∀ {t : State} {a1 a2}, Keeps M s t → Keeps M s (State.answerWaiting t a1 a2) := by
  intro _ _ _ h0
  unfold State.answerWaiting
  repeat' first
    | with_reducible assumption | with_reducible refine plannedReply_keeps (Sub.trans (by decide) hM) ?_
    | with_reducible refine keeps_foldl ?_ ?_ | with_reducible refine keeps_foldlP ?_ ?_
    | with_reducible refine keeps_ite (fun _ => ?_) (fun _ => ?_) | with_reducible refine keeps_id ?_ | with_reducible split
    | with_reducible intro _

theorem lanePlanDone_keeps {M : Nat} {s : State} (hM : Sub 131152 M) :
    ∀ {t : State} {a1}, Keeps M s t → Keeps M s (State.lanePlanDone t a1) := by
  intro _ _ h0
  unfold State.lanePlanDone
  repeat' first
    | with_reducible assumption | with_reducible refine unhold_keeps (Sub.trans (by decide) hM) ?_
    | with_reducible refine withdraw_keeps (Sub.trans (by decide) hM) ?_
    | with_reducible refine addEntries_keeps (Sub.trans (by decide) hM) ?_
    | with_reducible refine markCycle_keeps (Sub.trans (by decide) hM) ?_
    | with_reducible refine answerWaiting_keeps (Sub.trans (by decide) hM) ?_
    | with_reducible refine keeps_ite (fun _ => ?_) (fun _ => ?_) | with_reducible refine keeps_id ?_ | with_reducible split
    | with_reducible intro _ | with_reducible dsimp only

theorem sendAct_keeps {M : Nat} {s : State} (hM : Sub 131136 M) :
    ∀ {t : State} {a1 a2 a3}, Keeps M s t → Keeps M s (State.sendAct t a1 a2 a3) := by
  intro _ _ _ _ h0
  unfold State.sendAct
  repeat' first
    | with_reducible assumption | with_reducible refine pushAct_keeps (Sub.trans (by decide) hM) ?_
    | with_reducible refine keeps_ite (fun _ => ?_) (fun _ => ?_)

theorem laneOut_keeps {M : Nat} {s : State} (hM : Sub 655424 M) :
    ∀ {t : State} {a1}, Keeps M s t → Keeps M s (State.laneOut t a1) := by
  intro _ _ h0
  unfold State.laneOut
  repeat' first
    | with_reducible assumption | with_reducible refine modMl_keeps (Sub.trans (by decide) hM) ?_
    | with_reducible refine withdraw_keeps (Sub.trans (by decide) hM) ?_
    | with_reducible refine modStr_keeps (Sub.trans (by decide) hM) ?_
    | with_reducible refine dtDiscard_keeps (Sub.trans (by decide) hM) ?_

theorem becomeStopped_keeps {M : Nat} {s : State} (hM : Sub 983104 M) :
    ∀ {t : State} {a1}, Keeps M s t → Keeps M s (State.becomeStopped t a1) := by
  intro _ _ h0
  unfold State.becomeStopped
  repeat' first
    | with_reducible assumption | with_reducible refine modPrt_keeps (Sub.trans (by decide) hM) ?_
    | with_reducible refine modStr_keeps (Sub.trans (by decide) hM) ?_
    | with_reducible refine dtDiscard_keeps (Sub.trans (by decide) hM) ?_
    | with_reducible refine modMl_keeps (Sub.trans (by decide) hM) ?_
    | with_reducible refine sendAct_keeps (Sub.trans (by decide) hM) ?_
    | with_reducible refine coastLanes_keeps (Sub.trans (by decide) hM) ?_ | with_reducible refine keeps_foldl ?_ ?_
    | with_reducible refine keeps_foldlP ?_ ?_ | with_reducible refine keeps_ite (fun _ => ?_) (fun _ => ?_)
    | with_reducible refine keeps_id ?_ | with_reducible split | with_reducible intro _

theorem tripAction_keeps {M : Nat} {s : State} (hM : Sub 131136 M) :
    ∀ {t : State} {a1 a2 a3 a4 a5}, Keeps M s t → Keeps M s (State.tripAction t a1 a2 a3 a4 a5) := by
  intro _ _ _ _ _ _ h0
  unfold State.tripAction
  repeat' first
    | with_reducible assumption | with_reducible refine sendAct_keeps (Sub.trans (by decide) hM) ?_
    | with_reducible refine keeps_ite (fun _ => ?_) (fun _ => ?_)

theorem twinTrip_keeps {M : Nat} {s : State} (hM : Sub 65536 M) :
    ∀ {t : State} {a1 a2}, Keeps M s t → Keeps M s (State.twinTrip t a1 a2) := by
  intro _ _ _ h0
  unfold State.twinTrip
  repeat' first
    | with_reducible assumption | with_reducible refine twinSend_keeps (Sub.trans (by decide) hM) ?_
    | with_reducible refine keeps_ite (fun _ => ?_) (fun _ => ?_)

theorem tripLane_keeps {M : Nat} {s : State} (hM : Sub 917584 M) :
    ∀ {t : State} {a1 a2}, Keeps M s t → Keeps M s (State.tripLane t a1 a2) := by
  intro _ _ _ h0
  unfold State.tripLane
  repeat' first
    | with_reducible assumption | with_reducible refine laneOut_keeps (Sub.trans (by decide) hM) ?_
    | with_reducible refine modByp_keeps (Sub.trans (by decide) hM) ?_
    | with_reducible refine answerWaiting_keeps (Sub.trans (by decide) hM) ?_
    | with_reducible refine tripAction_keeps (Sub.trans (by decide) hM) ?_
    | with_reducible refine keeps_ite (fun _ => ?_) (fun _ => ?_)

theorem tripMask_keeps {M : Nat} {s : State} (hM : Sub 991344 M) :
    ∀ {t : State} {a1 a2 a3}, Keeps M s t → Keeps M s (State.tripMask t a1 a2 a3) := by
  intro _ _ _ _ h0
  unfold State.tripMask
  repeat' first
    | with_reducible assumption | with_reducible refine modPrt_keeps (Sub.trans (by decide) hM) ?_
    | with_reducible refine modStr_keeps (Sub.trans (by decide) hM) ?_
    | with_reducible refine tripLane_keeps (Sub.trans (by decide) hM) ?_
    | with_reducible refine coastLanes_keeps (Sub.trans (by decide) hM) ?_
    | with_reducible refine note_keeps (Sub.trans (by decide) hM) ?_
    | with_reducible refine bump_keeps (Sub.trans (by decide) hM) ?_ | with_reducible refine keeps_foldl ?_ ?_
    | with_reducible refine keeps_foldlP ?_ ?_ | with_reducible refine keeps_ite (fun _ => ?_) (fun _ => ?_)
    | with_reducible refine keeps_id ?_ | with_reducible split | with_reducible intro _

theorem trip_keeps {M : Nat} {s : State} (hM : Sub 991344 M) :
    ∀ {t : State} {a1 a2 a3}, Keeps M s t → Keeps M s (State.trip t a1 a2 a3) := by
  intro _ _ _ _ h0
  unfold State.trip
  repeat' first
    | with_reducible assumption | with_reducible refine tripMask_keeps (Sub.trans (by decide) hM) ?_
    | with_reducible refine twinTrip_keeps (Sub.trans (by decide) hM) ?_
    | with_reducible refine modPrt_keeps (Sub.trans (by decide) hM) ?_ | with_reducible refine keeps_ite (fun _ => ?_) (fun _ => ?_)

theorem record_keeps {M : Nat} {s : State} (hM : Sub 262224 M) :
    ∀ {t : State} {a1 a2}, Keeps M s t → Keeps M s (State.record t a1 a2) := by
  intro _ _ _ h0
  unfold State.record
  repeat' first
    | with_reducible assumption | with_reducible refine answerWaiting_keeps (Sub.trans (by decide) hM) ?_
    | with_reducible refine modByp_keeps (Sub.trans (by decide) hM) ?_

theorem enterNow_keeps {M : Nat} {s : State} (hM : Sub 917584 M) :
    ∀ {t : State} {a1}, Keeps M s t → Keeps M s (State.enterNow t a1) := by
  intro _ _ h0
  unfold State.enterNow
  repeat' first
    | with_reducible assumption | with_reducible refine answerWaiting_keeps (Sub.trans (by decide) hM) ?_
    | with_reducible refine sendAct_keeps (Sub.trans (by decide) hM) ?_
    | with_reducible refine modByp_keeps (Sub.trans (by decide) hM) ?_
    | with_reducible refine laneOut_keeps (Sub.trans (by decide) hM) ?_

theorem urgentBypass_keeps {M : Nat} {s : State} (hM : Sub 991344 M) :
    ∀ {t : State} {a1 a2}, Keeps M s t → Keeps M s (State.urgentBypass t a1 a2) := by
  intro _ _ _ h0
  unfold State.urgentBypass
  repeat' first
    | with_reducible assumption | with_reducible refine enterNow_keeps (Sub.trans (by decide) hM) ?_
    | with_reducible refine record_keeps (Sub.trans (by decide) hM) ?_
    | with_reducible refine bump_keeps (Sub.trans (by decide) hM) ?_
    | with_reducible refine trip_keeps (Sub.trans (by decide) hM) ?_ | with_reducible refine keeps_ite (fun _ => ?_) (fun _ => ?_)

theorem plannedBypass_keeps {M : Nat} {s : State} (hM : Sub 991344 M) :
    ∀ {t : State} {a1 a2}, Keeps M s t → Keeps M s (State.plannedBypass t a1 a2) := by
  intro _ _ _ h0
  unfold State.plannedBypass
  repeat' first
    | with_reducible assumption | with_reducible refine record_keeps (Sub.trans (by decide) hM) ?_
    | with_reducible refine bump_keeps (Sub.trans (by decide) hM) ?_
    | with_reducible refine trip_keeps (Sub.trans (by decide) hM) ?_
    | with_reducible refine enterNow_keeps (Sub.trans (by decide) hM) ?_
    | with_reducible refine keeps_ite (fun _ => ?_) (fun _ => ?_)

theorem healthTaken_keeps {M : Nat} {s : State} (hM : Sub 991480 M) :
    ∀ {t : State} {a1}, Keeps M s t → Keeps M s (State.healthTaken t a1) := by
  intro _ _ h0
  unfold State.healthTaken
  repeat' first
    | with_reducible assumption | with_reducible refine modByp_keeps (Sub.trans (by decide) hM) ?_
    | with_reducible refine fire_keeps (Sub.trans (by decide) hM) ?_
    | with_reducible refine bump_keeps (Sub.trans (by decide) hM) ?_
    | with_reducible refine urgentBypass_keeps (Sub.trans (by decide) hM) ?_
    | with_reducible refine keeps_ite (fun _ => ?_) (fun _ => ?_) | with_reducible refine keeps_id ?_ | with_reducible split

theorem cellFail_keeps {M : Nat} {s : State} (hM : Sub 991344 M) :
    ∀ {t : State} {a1}, Keeps M s t → Keeps M s (State.cellFail t a1) := by
  intro _ _ h0
  unfold State.cellFail
  repeat' first
    | with_reducible assumption | with_reducible refine trip_keeps (Sub.trans (by decide) hM) ?_
    | with_reducible refine modPrt_keeps (Sub.trans (by decide) hM) ?_

theorem lostMember_keeps {M : Nat} {s : State} (hM : Sub 991480 M) :
    ∀ {t : State} {a1 a2}, Keeps M s t → Keeps M s (State.lostMember t a1 a2) := by
  intro _ _ _ h0
  unfold State.lostMember
  repeat' first
    | with_reducible assumption | with_reducible refine bump_keeps (Sub.trans (by decide) hM) ?_
    | with_reducible refine urgentBypass_keeps (Sub.trans (by decide) hM) ?_
    | with_reducible refine condOn_keeps (Sub.trans (by decide) hM) ?_
    | with_reducible refine modLink_keeps (Sub.trans (by decide) hM) ?_
    | with_reducible refine trip_keeps (Sub.trans (by decide) hM) ?_
    | with_reducible refine cellFail_keeps (Sub.trans (by decide) hM) ?_ | with_reducible refine keeps_foldl ?_ ?_
    | with_reducible refine keeps_foldlP ?_ ?_ | with_reducible refine keeps_ite (fun _ => ?_) (fun _ => ?_)
    | with_reducible refine keeps_id ?_ | with_reducible split | with_reducible intro _

theorem faultTaken_keeps {M : Nat} {s : State} (hM : Sub 991344 M) :
    ∀ {t : State} {a1 a2}, Keeps M s t → Keeps M s (State.faultTaken t a1 a2) := by
  intro _ _ _ h0
  unfold State.faultTaken
  repeat' first
    | with_reducible assumption | with_reducible refine urgentBypass_keeps (Sub.trans (by decide) hM) ?_
    | with_reducible refine cellFail_keeps (Sub.trans (by decide) hM) ?_
    | with_reducible refine trip_keeps (Sub.trans (by decide) hM) ?_ | with_reducible refine keeps_ite (fun _ => ?_) (fun _ => ?_)

theorem protCurrent_keeps {M : Nat} {s : State} (hM : Sub 991344 M) :
    ∀ {t : State} {a1 a2 a3}, Keeps M s t → Keeps M s (State.protCurrent t a1 a2 a3) := by
  intro _ _ _ _ h0
  unfold State.protCurrent
  repeat' first
    | with_reducible assumption | with_reducible refine modPrt_keeps (Sub.trans (by decide) hM) ?_
    | with_reducible refine trip_keeps (Sub.trans (by decide) hM) ?_ | with_reducible refine keeps_ite (fun _ => ?_) (fun _ => ?_)

theorem protBus_keeps {M : Nat} {s : State} (hM : Sub 991344 M) :
    ∀ {t : State} {a1 a2 a3}, Keeps M s t → Keeps M s (State.protBus t a1 a2 a3) := by
  intro _ _ _ _ h0
  unfold State.protBus
  repeat' first
    | with_reducible assumption | with_reducible refine trip_keeps (Sub.trans (by decide) hM) ?_
    | with_reducible refine keeps_ite (fun _ => ?_) (fun _ => ?_)

theorem protCap_keeps {M : Nat} {s : State} (hM : Sub 991344 M) :
    ∀ {t : State} {a1 a2}, Keeps M s t → Keeps M s (State.protCap t a1 a2) := by
  intro _ _ _ h0
  unfold State.protCap
  repeat' first
    | with_reducible assumption | with_reducible refine urgentBypass_keeps (Sub.trans (by decide) hM) ?_
    | with_reducible refine trip_keeps (Sub.trans (by decide) hM) ?_ | with_reducible refine keeps_ite (fun _ => ?_) (fun _ => ?_)

theorem protSample_keeps {M : Nat} {s : State} (hM : Sub 991344 M) :
    ∀ {t : State} {a1 a2}, Keeps M s t → Keeps M s (State.protSample t a1 a2) := by
  intro _ _ _ h0
  unfold State.protSample
  repeat' first
    | with_reducible assumption | with_reducible refine protCurrent_keeps (Sub.trans (by decide) hM) ?_
    | with_reducible refine protBus_keeps (Sub.trans (by decide) hM) ?_
    | with_reducible refine protCap_keeps (Sub.trans (by decide) hM) ?_ | with_reducible refine keeps_foldl ?_ ?_
    | with_reducible refine keeps_foldlP ?_ ?_ | with_reducible refine keeps_ite (fun _ => ?_) (fun _ => ?_)
    | with_reducible refine keeps_id ?_ | with_reducible split | with_reducible intro _

theorem lostAtStart_keeps {M : Nat} {s : State} (hM : Sub 991480 M) :
    ∀ {t : State} {a1}, Keeps M s t → Keeps M s (State.lostAtStart t a1) := by
  intro _ _ h0
  unfold State.lostAtStart
  repeat' first
    | with_reducible assumption | with_reducible refine lostMember_keeps (Sub.trans (by decide) hM) ?_
    | with_reducible refine keeps_foldl ?_ ?_ | with_reducible refine keeps_foldlP ?_ ?_
    | with_reducible refine keeps_ite (fun _ => ?_) (fun _ => ?_) | with_reducible refine keeps_id ?_ | with_reducible split
    | with_reducible intro _

theorem startString_keeps {M : Nat} {s : State} (hM : Sub 991480 M) :
    ∀ {t : State} {a1 a2}, Keeps M s t → Keeps M s (State.startString t a1 a2) := by
  intro _ _ _ h0
  unfold State.startString
  repeat' first
    | with_reducible assumption | with_reducible refine modStr_keeps (Sub.trans (by decide) hM) ?_
    | with_reducible refine modSrt_keeps (Sub.trans (by decide) hM) ?_
    | with_reducible refine modPrt_keeps (Sub.trans (by decide) hM) ?_
    | with_reducible refine lostAtStart_keeps (Sub.trans (by decide) hM) ?_
    | with_reducible refine coastLanes_keeps (Sub.trans (by decide) hM) ?_

theorem cancelStart_keeps {M : Nat} {s : State} (hM : Sub 983104 M) :
    ∀ {t : State} {a1}, Keeps M s t → Keeps M s (State.cancelStart t a1) := by
  intro _ _ h0
  unfold State.cancelStart
  repeat' first
    | with_reducible assumption | with_reducible refine becomeStopped_keeps (Sub.trans (by decide) hM) ?_
    | with_reducible refine laneOut_keeps (Sub.trans (by decide) hM) ?_ | with_reducible refine keeps_foldl ?_ ?_
    | with_reducible refine keeps_foldlP ?_ ?_ | with_reducible refine keeps_ite (fun _ => ?_) (fun _ => ?_)
    | with_reducible refine keeps_id ?_ | with_reducible split | with_reducible intro _

theorem askStop_keeps {M : Nat} {s : State} (hM : Sub 983104 M) :
    ∀ {t : State} {a1 a2}, Keeps M s t → Keeps M s (State.askStop t a1 a2) := by
  intro _ _ _ h0
  unfold State.askStop
  repeat' first
    | with_reducible assumption | with_reducible refine cancelStart_keeps (Sub.trans (by decide) hM) ?_
    | with_reducible refine modStr_keeps (Sub.trans (by decide) hM) ?_ | with_reducible refine keeps_ite (fun _ => ?_) (fun _ => ?_)

theorem hostStop_keeps {M : Nat} {s : State} (hM : Sub 983104 M) :
    ∀ {t : State} {a1}, Keeps M s t → Keeps M s (State.hostStop t a1) := by
  intro _ _ h0
  unfold State.hostStop
  repeat' first
    | with_reducible assumption | with_reducible refine askStop_keeps (Sub.trans (by decide) hM) ?_
    | with_reducible refine updProt_keeps (Sub.trans (by decide) hM) ?_
    | with_reducible refine keeps_ite (fun _ => ?_) (fun _ => ?_)

theorem stopAtBoundary_keeps {M : Nat} {s : State} (hM : Sub 393296 M) :
    ∀ {t : State} {a1 a2}, Keeps M s t → Keeps M s (State.stopAtBoundary t a1 a2) := by
  intro _ _ _ h0
  unfold State.stopAtBoundary
  repeat' first
    | with_reducible assumption | with_reducible refine modMl_keeps (Sub.trans (by decide) hM) ?_
    | with_reducible refine withdraw_keeps (Sub.trans (by decide) hM) ?_
    | with_reducible refine unhold_keeps (Sub.trans (by decide) hM) ?_
    | with_reducible refine answerWaiting_keeps (Sub.trans (by decide) hM) ?_
    | with_reducible refine modByp_keeps (Sub.trans (by decide) hM) ?_
    | with_reducible refine sendAct_keeps (Sub.trans (by decide) hM) ?_
    | with_reducible refine modStr_keeps (Sub.trans (by decide) hM) ?_ | with_reducible refine keeps_foldl ?_ ?_
    | with_reducible refine keeps_foldlP ?_ ?_ | with_reducible refine keeps_ite (fun _ => ?_) (fun _ => ?_)
    | with_reducible refine keeps_id ?_ | with_reducible split | with_reducible intro _

theorem modRide_keeps {M : Nat} {s : State} (hM : Sub 262144 M) :
    ∀ {t : State} {a1}, Keeps M s t → Keeps M s (State.modRide t a1) := by
  intro _ _ h0
  unfold State.modRide
  repeat' first
    | with_reducible assumption | with_reducible refine updProt_keeps (Sub.trans (by decide) hM) ?_

theorem rideTo_keeps {M : Nat} {s : State} (hM : Sub 335988 M) :
    ∀ {t : State} {a1 a2 a3}, Keeps M s t → Keeps M s (State.rideTo t a1 a2 a3) := by
  intro _ _ _ _ h0
  unfold State.rideTo
  repeat' first
    | with_reducible assumption | with_reducible refine twState_keeps (Sub.trans (by decide) hM) ?_
    | with_reducible refine note_keeps (Sub.trans (by decide) hM) ?_
    | with_reducible refine modRide_keeps (Sub.trans (by decide) hM) ?_

theorem rideHalt_keeps {M : Nat} {s : State} (hM : Sub 335988 M) :
    ∀ {t : State} {a1 a2}, Keeps M s t → Keeps M s (State.rideHalt t a1 a2) := by
  intro _ _ _ h0
  unfold State.rideHalt
  repeat' first
    | with_reducible assumption | with_reducible refine bump_keeps (Sub.trans (by decide) hM) ?_
    | with_reducible refine rideTo_keeps (Sub.trans (by decide) hM) ?_
    | with_reducible refine modRide_keeps (Sub.trans (by decide) hM) ?_

theorem rideNext_keeps {M : Nat} {s : State} (hM : Sub 991484 M) : ∀ {n : Nat} {t : State}, Keeps M s t → Keeps M s (State.rideNext n t) := by
  intro n
  induction n with
  | zero =>
    intro t h
    unfold State.rideNext
    first
      | exact h | exact rideTo_keeps (Sub.trans (by decide) hM) h
  | succ n ih =>
    intro t h
    unfold State.rideNext
    repeat' first
      | with_reducible assumption | with_reducible refine keeps_ite (fun _ => ?_) (fun _ => ?_)
      | with_reducible refine rideTo_keeps (Sub.trans (by decide) hM) ?_
      | with_reducible refine modRide_keeps (Sub.trans (by decide) hM) ?_
      | with_reducible refine rideHalt_keeps (Sub.trans (by decide) hM) ?_
      | with_reducible refine startString_keeps (Sub.trans (by decide) hM) ?_
      | with_reducible refine note_keeps (Sub.trans (by decide) hM) ?_ | with_reducible refine ih ?_ | with_reducible split
      | with_reducible intro _ | with_reducible dsimp only
  

theorem rideEnable_keeps {M : Nat} {s : State} (hM : Sub 991484 M) :
    ∀ {t : State}, Keeps M s t → Keeps M s (State.rideEnable t) := by
  intro _ h0
  unfold State.rideEnable
  repeat' first
    | with_reducible assumption | with_reducible refine rideNext_keeps (Sub.trans (by decide) hM) ?_
    | with_reducible refine modRide_keeps (Sub.trans (by decide) hM) ?_
    | with_reducible refine rideTo_keeps (Sub.trans (by decide) hM) ?_

theorem rideReached_keeps {M : Nat} {s : State} (hM : Sub 335988 M) :
    ∀ {t : State} {a1}, Keeps M s t → Keeps M s (State.rideReached t a1) := by
  intro _ _ h0
  unfold State.rideReached
  repeat' first
    | with_reducible assumption | with_reducible refine rideTo_keeps (Sub.trans (by decide) hM) ?_
    | with_reducible refine modRide_keeps (Sub.trans (by decide) hM) ?_
    | with_reducible refine keeps_ite (fun _ => ?_) (fun _ => ?_)

theorem rideSync_keeps {M : Nat} {s : State} (hM : Sub 991484 M) :
    ∀ {t : State}, Keeps M s t → Keeps M s (State.rideSync t) := by
  intro _ h0
  unfold State.rideSync
  repeat' first
    | with_reducible assumption | with_reducible refine rideHalt_keeps (Sub.trans (by decide) hM) ?_
    | with_reducible refine rideTo_keeps (Sub.trans (by decide) hM) ?_
    | with_reducible refine rideEnable_keeps (Sub.trans (by decide) hM) ?_
    | with_reducible refine modRide_keeps (Sub.trans (by decide) hM) ?_
    | with_reducible refine keeps_ite (fun _ => ?_) (fun _ => ?_)

theorem rideWalk_keeps {M : Nat} {s : State} (hM : Sub 991484 M) :
    ∀ {t : State}, Keeps M s t → Keeps M s (State.rideWalk t) := by
  intro _ h0
  unfold State.rideWalk
  repeat' first
    | with_reducible assumption | with_reducible refine rideEnable_keeps (Sub.trans (by decide) hM) ?_
    | with_reducible refine modRide_keeps (Sub.trans (by decide) hM) ?_
    | with_reducible refine keeps_ite (fun _ => ?_) (fun _ => ?_)

theorem pcFail_keeps {M : Nat} {s : State} (hM : Sub 991480 M) :
    ∀ {t : State} {a1 a2}, Keeps M s t → Keeps M s (State.pcFail t a1 a2) := by
  intro _ _ _ h0
  unfold State.pcFail
  repeat' first
    | with_reducible assumption | with_reducible refine fire_keeps (Sub.trans (by decide) hM) ?_
    | with_reducible refine urgentBypass_keeps (Sub.trans (by decide) hM) ?_
    | with_reducible refine plannedBypass_keeps (Sub.trans (by decide) hM) ?_
    | with_reducible refine keeps_ite (fun _ => ?_) (fun _ => ?_)

theorem pcJudge_keeps {M : Nat} {s : State} (hM : Sub 991480 M) :
    ∀ {t : State} {a1}, Keeps M s t → Keeps M s (State.pcJudge t a1) := by
  intro _ _ h0
  unfold State.pcJudge
  repeat' first
    | with_reducible assumption | with_reducible refine pcFail_keeps (Sub.trans (by decide) hM) ?_
    | with_reducible refine keeps_foldl ?_ ?_ | with_reducible refine keeps_foldlP ?_ ?_
    | with_reducible refine keeps_ite (fun _ => ?_) (fun _ => ?_) | with_reducible refine keeps_id ?_ | with_reducible split
    | with_reducible intro _

theorem pcDone_keeps {M : Nat} {s : State} (hM : Sub 991484 M) :
    ∀ {t : State}, Keeps M s t → Keeps M s (State.pcDone t) := by
  intro _ h0
  unfold State.pcDone
  repeat' first
    | with_reducible assumption | with_reducible refine pcJudge_keeps (Sub.trans (by decide) hM) ?_
    | with_reducible refine rideHalt_keeps (Sub.trans (by decide) hM) ?_
    | with_reducible refine rideSync_keeps (Sub.trans (by decide) hM) ?_ | with_reducible refine keeps_foldl ?_ ?_
    | with_reducible refine keeps_foldlP ?_ ?_ | with_reducible refine keeps_ite (fun _ => ?_) (fun _ => ?_)
    | with_reducible refine keeps_id ?_ | with_reducible split | with_reducible intro _

theorem ridePrecharge_keeps {M : Nat} {s : State} (hM : Sub 991484 M) :
    ∀ {t : State} {a1}, Keeps M s t → Keeps M s (State.ridePrecharge t a1) := by
  intro _ _ h0
  unfold State.ridePrecharge
  repeat' first
    | with_reducible assumption | with_reducible refine becomeStopped_keeps (Sub.trans (by decide) hM) ?_
    | with_reducible refine modPrt_keeps (Sub.trans (by decide) hM) ?_
    | with_reducible refine modRide_keeps (Sub.trans (by decide) hM) ?_
    | with_reducible refine sendAct_keeps (Sub.trans (by decide) hM) ?_
    | with_reducible refine rideTo_keeps (Sub.trans (by decide) hM) ?_
    | with_reducible refine pcDone_keeps (Sub.trans (by decide) hM) ?_ | with_reducible refine keeps_foldl ?_ ?_
    | with_reducible refine keeps_foldlP ?_ ?_ | with_reducible refine keeps_ite (fun _ => ?_) (fun _ => ?_)
    | with_reducible refine keeps_id ?_ | with_reducible split | with_reducible intro _

theorem rideDew_keeps {M : Nat} {s : State} (hM : Sub 991484 M) :
    ∀ {t : State}, Keeps M s t → Keeps M s (State.rideDew t) := by
  intro _ h0
  unfold State.rideDew
  repeat' first
    | with_reducible assumption | with_reducible refine ridePrecharge_keeps (Sub.trans (by decide) hM) ?_
    | with_reducible refine bump_keeps (Sub.trans (by decide) hM) ?_
    | with_reducible refine rideTo_keeps (Sub.trans (by decide) hM) ?_ | with_reducible refine keeps_ite (fun _ => ?_) (fun _ => ?_)

theorem darkAction_keeps {M : Nat} {s : State} (hM : Sub 991344 M) :
    ∀ {t : State} {a1}, Keeps M s t → Keeps M s (State.darkAction t a1) := by
  intro _ _ h0
  unfold State.darkAction
  repeat' first
    | with_reducible assumption | with_reducible refine askStop_keeps (Sub.trans (by decide) hM) ?_
    | with_reducible refine trip_keeps (Sub.trans (by decide) hM) ?_ | with_reducible refine keeps_ite (fun _ => ?_) (fun _ => ?_)

theorem mvLoss_keeps {M : Nat} {s : State} (hM : Sub 991484 M) :
    ∀ {t : State} {a1}, Keeps M s t → Keeps M s (State.mvLoss t a1) := by
  intro _ _ h0
  unfold State.mvLoss
  repeat' first
    | with_reducible assumption | with_reducible refine condOn_keeps (Sub.trans (by decide) hM) ?_
    | with_reducible refine bump_keeps (Sub.trans (by decide) hM) ?_
    | with_reducible refine rideTo_keeps (Sub.trans (by decide) hM) ?_
    | with_reducible refine modRide_keeps (Sub.trans (by decide) hM) ?_
    | with_reducible refine darkAction_keeps (Sub.trans (by decide) hM) ?_ | with_reducible refine keeps_foldl ?_ ?_
    | with_reducible refine keeps_foldlP ?_ ?_ | with_reducible refine keeps_ite (fun _ => ?_) (fun _ => ?_)
    | with_reducible refine keeps_id ?_ | with_reducible split | with_reducible intro _

theorem mvReturn_keeps {M : Nat} {s : State} (hM : Sub 991484 M) :
    ∀ {t : State}, Keeps M s t → Keeps M s (State.mvReturn t) := by
  intro _ h0
  unfold State.mvReturn
  repeat' first
    | with_reducible assumption | with_reducible refine condOff_keeps (Sub.trans (by decide) hM) ?_
    | with_reducible refine modRide_keeps (Sub.trans (by decide) hM) ?_
    | with_reducible refine rideDew_keeps (Sub.trans (by decide) hM) ?_
    | with_reducible refine rideHalt_keeps (Sub.trans (by decide) hM) ?_
    | with_reducible refine keeps_ite (fun _ => ?_) (fun _ => ?_)

theorem gridEval_keeps {M : Nat} {s : State} (hM : Sub 991484 M) :
    ∀ {t : State}, Keeps M s t → Keeps M s (State.gridEval t) := by
  intro _ h0
  unfold State.gridEval
  repeat' first
    | with_reducible assumption | with_reducible refine modRide_keeps (Sub.trans (by decide) hM) ?_
    | with_reducible refine mvLoss_keeps (Sub.trans (by decide) hM) ?_ | with_reducible refine keeps_ite (fun _ => ?_) (fun _ => ?_)

theorem rideSample_keeps {M : Nat} {s : State} (hM : Sub 991484 M) :
    ∀ {t : State} {a1 a2}, Keeps M s t → Keeps M s (State.rideSample t a1 a2) := by
  intro _ _ _ h0
  unfold State.rideSample
  repeat' first
    | with_reducible assumption | with_reducible refine gridEval_keeps (Sub.trans (by decide) hM) ?_
    | with_reducible refine pcDone_keeps (Sub.trans (by decide) hM) ?_ | with_reducible refine keeps_ite (fun _ => ?_) (fun _ => ?_)

theorem rideMargin_keeps {M : Nat} {s : State} (hM : Sub 262144 M) :
    ∀ {t : State} {a1}, Keeps M s t → Keeps M s (State.rideMargin t a1) := by
  intro _ _ h0
  unfold State.rideMargin
  repeat' first
    | with_reducible assumption | with_reducible refine modRide_keeps (Sub.trans (by decide) hM) ?_

theorem rideEn_keeps {M : Nat} {s : State} (hM : Sub 336116 M) :
    ∀ {t : State} {a1}, Keeps M s t → Keeps M s (State.rideEn t a1) := by
  intro _ _ h0
  unfold State.rideEn
  repeat' first
    | with_reducible assumption | with_reducible refine rideTo_keeps (Sub.trans (by decide) hM) ?_
    | with_reducible refine modRide_keeps (Sub.trans (by decide) hM) ?_
    | with_reducible refine condOff_keeps (Sub.trans (by decide) hM) ?_
    | with_reducible refine keeps_ite (fun _ => ?_) (fun _ => ?_)

theorem rideMirror_keeps {M : Nat} {s : State} (hM : Sub 262144 M) :
    ∀ {t : State} {a1 a2}, Keeps M s t → Keeps M s (State.rideMirror t a1 a2) := by
  intro _ _ _ h0
  unfold State.rideMirror
  repeat' first
    | with_reducible assumption | with_reducible refine modRide_keeps (Sub.trans (by decide) hM) ?_

end Sys2Proof.Machine
end

