-- ==== Sys2Proof/Machine/Frame3.lean ====
section
/-!
DEFINITION. Frames, part 3: the functions from rideRestart to imageEnd, in the order of their calls. Each lemma says
which parts its function may change (a mask over Part.bit) and that it keeps the bounds of State.Inv.
-/

namespace Sys2Proof.Machine

set_option linter.unreachableTactic false
set_option linter.unusedTactic false
set_option linter.unusedSimpArgs false

theorem rideRestart_keeps {M : Nat} {s : State} (hM : Sub 991484 M) :
    ∀ {t : State}, Keeps M s t → Keeps M s (State.rideRestart t) := by
  intro _ h0
  unfold State.rideRestart
  repeat' first
    | with_reducible assumption | with_reducible refine rideTo_keeps (Sub.trans (by decide) hM) ?_
    | with_reducible refine ridePrecharge_keeps (Sub.trans (by decide) hM) ?_
    | with_reducible refine rideSync_keeps (Sub.trans (by decide) hM) ?_
    | with_reducible refine rideEnable_keeps (Sub.trans (by decide) hM) ?_
    | with_reducible refine keeps_ite (fun _ => ?_) (fun _ => ?_) | with_reducible refine keeps_id ?_ | with_reducible split

theorem rideGo_keeps {M : Nat} {s : State} (hM : Sub 991484 M) :
    ∀ {t : State}, Keeps M s t → Keeps M s (State.rideGo t) := by
  intro _ h0
  unfold State.rideGo
  repeat' first
    | with_reducible assumption | with_reducible refine rideDew_keeps (Sub.trans (by decide) hM) ?_
    | with_reducible refine bump_keeps (Sub.trans (by decide) hM) ?_
    | with_reducible refine rideTo_keeps (Sub.trans (by decide) hM) ?_
    | with_reducible refine ridePrecharge_keeps (Sub.trans (by decide) hM) ?_
    | with_reducible refine rideSync_keeps (Sub.trans (by decide) hM) ?_
    | with_reducible refine rideEnable_keeps (Sub.trans (by decide) hM) ?_
    | with_reducible refine keeps_ite (fun _ => ?_) (fun _ => ?_) | with_reducible refine keeps_id ?_ | with_reducible split

theorem modPair_keeps {M : Nat} {s : State} (hM : Sub 4194304 M) :
    ∀ {t : State} {a1 a2}, Keeps M s t → Keeps M s (State.modPair t a1 a2) := by
  intro _ _ _ h0
  unfold State.modPair
  repeat' first
    | with_reducible assumption | with_reducible refine updHk_keeps (Sub.trans (by decide) hM) ?_

theorem modHkVal_keeps {M : Nat} {s : State} (hM : Sub 4194304 M) :
    ∀ {t : State} {a1 a2}, Keeps M s t → Keeps M s (State.modHkVal t a1 a2) := by
  intro _ _ _ h0
  unfold State.modHkVal
  repeat' first
    | with_reducible assumption | with_reducible refine updHk_keeps (Sub.trans (by decide) hM) ?_

theorem modZone_keeps {M : Nat} {s : State} (hM : Sub 4194304 M) :
    ∀ {t : State} {a1 a2}, Keeps M s t → Keeps M s (State.modZone t a1 a2) := by
  intro _ _ _ h0
  unfold State.modZone
  repeat' first
    | with_reducible assumption | with_reducible refine updHk_keeps (Sub.trans (by decide) hM) ?_

theorem hkResult_keeps {M : Nat} {s : State} (hM : Sub 4194304 M) :
    ∀ {t : State} {a1 a2 a3}, Keeps M s t → Keeps M s (State.hkResult t a1 a2 a3) := by
  intro _ _ _ _ h0
  unfold State.hkResult
  repeat' first
    | with_reducible assumption | with_reducible refine updHk_keeps (Sub.trans (by decide) hM) ?_

theorem hkLimit_keeps {M : Nat} {s : State} (hM : Sub 8440 M) :
    ∀ {t : State} {a1 a2 a3}, Keeps M s t → Keeps M s (State.hkLimit t a1 a2 a3) := by
  intro _ _ _ _ h0
  unfold State.hkLimit
  repeat' first
    | with_reducible assumption | with_reducible refine cond_keeps (Sub.trans (by decide) hM) ?_
    | with_reducible refine bump_keeps (Sub.trans (by decide) hM) ?_ | with_reducible refine keeps_ite (fun _ => ?_) (fun _ => ?_)

theorem hkStore_keeps {M : Nat} {s : State} (hM : Sub 4202744 M) :
    ∀ {t : State} {a1 a2 a3}, Keeps M s t → Keeps M s (State.hkStore t a1 a2 a3) := by
  intro _ _ _ _ h0
  unfold State.hkStore
  repeat' first
    | with_reducible assumption | with_reducible refine hkLimit_keeps (Sub.trans (by decide) hM) ?_
    | with_reducible refine modHkVal_keeps (Sub.trans (by decide) hM) ?_
    | with_reducible refine keeps_ite (fun _ => ?_) (fun _ => ?_)

theorem hkMark_keeps {M : Nat} {s : State} (hM : Sub 4194304 M) :
    ∀ {t : State}, Keeps M s t → Keeps M s (State.hkMark t) := by
  intro _ h0
  unfold State.hkMark
  repeat' first
    | with_reducible assumption | with_reducible refine modHkVal_keeps (Sub.trans (by decide) hM) ?_
    | with_reducible refine keeps_foldl ?_ ?_ | with_reducible refine keeps_foldlP ?_ ?_
    | with_reducible refine keeps_ite (fun _ => ?_) (fun _ => ?_) | with_reducible refine keeps_id ?_ | with_reducible split
    | with_reducible intro _

theorem hkPaired_keeps {M : Nat} {s : State} (hM : Sub 4202744 M) :
    ∀ {t : State} {a1 a2 a3 a4}, Keeps M s t → Keeps M s (State.hkPaired t a1 a2 a3 a4) := by
  intro _ _ _ _ _ h0
  unfold State.hkPaired
  repeat' first
    | with_reducible assumption | with_reducible refine hkResult_keeps (Sub.trans (by decide) hM) ?_
    | with_reducible refine fire_keeps (Sub.trans (by decide) hM) ?_
    | with_reducible refine bump_keeps (Sub.trans (by decide) hM) ?_
    | with_reducible refine modHkVal_keeps (Sub.trans (by decide) hM) ?_
    | with_reducible refine hkStore_keeps (Sub.trans (by decide) hM) ?_
    | with_reducible refine keeps_ite (fun _ => ?_) (fun _ => ?_)

theorem hkSingle_keeps {M : Nat} {s : State} (hM : Sub 4202744 M) :
    ∀ {t : State} {a1 a2 a3}, Keeps M s t → Keeps M s (State.hkSingle t a1 a2 a3) := by
  intro _ _ _ _ h0
  unfold State.hkSingle
  repeat' first
    | with_reducible assumption | with_reducible refine hkStore_keeps (Sub.trans (by decide) hM) ?_
    | with_reducible refine hkResult_keeps (Sub.trans (by decide) hM) ?_

theorem hkStart_keeps {M : Nat} {s : State} (hM : Sub 4194304 M) :
    ∀ {t : State} {a1 a2}, Keeps M s t → Keeps M s (State.hkStart t a1 a2) := by
  intro _ _ _ h0
  unfold State.hkStart
  repeat' first
    | with_reducible assumption | with_reducible refine modPair_keeps (Sub.trans (by decide) hM) ?_

theorem hkNext_keeps {M : Nat} {s : State} (hM : Sub 4194368 M) :
    ∀ {t : State} {a1}, Keeps M s t → Keeps M s (State.hkNext t a1) := by
  intro _ _ h0
  unfold State.hkNext
  repeat' first
    | with_reducible assumption | with_reducible refine bump_keeps (Sub.trans (by decide) hM) ?_
    | with_reducible refine modPair_keeps (Sub.trans (by decide) hM) ?_
    | with_reducible refine hkStart_keeps (Sub.trans (by decide) hM) ?_
    | with_reducible refine keeps_ite (fun _ => ?_) (fun _ => ?_) | with_reducible refine keeps_id ?_ | with_reducible split

theorem hkUrgent_keeps {M : Nat} {s : State} (hM : Sub 4194368 M) :
    ∀ {t : State} {a1 a2}, Keeps M s t → Keeps M s (State.hkUrgent t a1 a2) := by
  intro _ _ _ h0
  unfold State.hkUrgent
  repeat' first
    | with_reducible assumption | with_reducible refine bump_keeps (Sub.trans (by decide) hM) ?_
    | with_reducible refine modPair_keeps (Sub.trans (by decide) hM) ?_
    | with_reducible refine hkNext_keeps (Sub.trans (by decide) hM) ?_ | with_reducible refine keeps_ite (fun _ => ?_) (fun _ => ?_)
    | with_reducible refine keeps_id ?_ | with_reducible split

theorem hkRestart_keeps {M : Nat} {s : State} (hM : Sub 4194368 M) :
    ∀ {t : State} {a1}, Keeps M s t → Keeps M s (State.hkRestart t a1) := by
  intro _ _ h0
  unfold State.hkRestart
  repeat' first
    | with_reducible assumption | with_reducible refine hkNext_keeps (Sub.trans (by decide) hM) ?_
    | with_reducible refine modPair_keeps (Sub.trans (by decide) hM) ?_

theorem hkDew_keeps {M : Nat} {s : State} (hM : Sub 4456452 M) :
    ∀ {t : State}, Keeps M s t → Keeps M s (State.hkDew t) := by
  intro _ h0
  unfold State.hkDew
  repeat' first
    | with_reducible assumption | with_reducible refine rideMargin_keeps (Sub.trans (by decide) hM) ?_
    | with_reducible refine updHk_keeps (Sub.trans (by decide) hM) ?_
    | with_reducible refine tookFree_keeps (Sub.trans (by decide) hM) ?_
    | with_reducible refine keeps_ite (fun _ => ?_) (fun _ => ?_)

theorem zoneForm_keeps {M : Nat} {s : State} (hM : Sub 4202744 M) :
    ∀ {t : State} {a1}, Keeps M s t → Keeps M s (State.zoneForm t a1) := by
  intro _ _ h0
  unfold State.zoneForm
  repeat' first
    | with_reducible assumption | with_reducible refine modZone_keeps (Sub.trans (by decide) hM) ?_
    | with_reducible refine cond_keeps (Sub.trans (by decide) hM) ?_
    | with_reducible refine bump_keeps (Sub.trans (by decide) hM) ?_
    | with_reducible refine updHk_keeps (Sub.trans (by decide) hM) ?_ | with_reducible refine keeps_ite (fun _ => ?_) (fun _ => ?_)
    | with_reducible refine keeps_id ?_ | with_reducible split | with_reducible intro _ | with_reducible dsimp only

theorem thermAdd_keeps {M : Nat} {s : State} (hM : Sub 4202744 M) :
    ∀ {t : State} {a1}, Keeps M s t → Keeps M s (State.thermAdd t a1) := by
  intro _ _ h0
  unfold State.thermAdd
  repeat' first
    | with_reducible assumption | with_reducible refine condOn_keeps (Sub.trans (by decide) hM) ?_
    | with_reducible refine updHk_keeps (Sub.trans (by decide) hM) ?_

theorem thermTrip_keeps {M : Nat} {s : State} (hM : Sub 991344 M) :
    ∀ {t : State} {a1}, Keeps M s t → Keeps M s (State.thermTrip t a1) := by
  intro _ _ h0
  unfold State.thermTrip
  repeat' first
    | with_reducible assumption | with_reducible refine trip_keeps (Sub.trans (by decide) hM) ?_
    | with_reducible refine keeps_foldl ?_ ?_ | with_reducible refine keeps_foldlP ?_ ?_
    | with_reducible refine keeps_ite (fun _ => ?_) (fun _ => ?_) | with_reducible refine keeps_id ?_ | with_reducible split
    | with_reducible intro _

theorem thermShut_keeps {M : Nat} {s : State} (hM : Sub 5187832 M) :
    ∀ {t : State} {a1 a2 a3}, Keeps M s t → Keeps M s (State.thermShut t a1 a2 a3) := by
  intro _ _ _ _ h0
  unfold State.thermShut
  repeat' first
    | with_reducible assumption | with_reducible refine updHk_keeps (Sub.trans (by decide) hM) ?_
    | with_reducible refine thermTrip_keeps (Sub.trans (by decide) hM) ?_
    | with_reducible refine bump_keeps (Sub.trans (by decide) hM) ?_
    | with_reducible refine thermAdd_keeps (Sub.trans (by decide) hM) ?_
    | with_reducible refine forwardRequest_keeps (Sub.trans (by decide) hM) ?_
    | with_reducible refine keeps_ite (fun _ => ?_) (fun _ => ?_) | with_reducible refine keeps_id ?_ | with_reducible split

theorem thermAsk_keeps {M : Nat} {s : State} (hM : Sub 5187832 M) :
    ∀ {t : State} {a1}, Keeps M s t → Keeps M s (State.thermAsk t a1) := by
  intro _ _ h0
  unfold State.thermAsk
  repeat' first
    | with_reducible assumption | with_reducible refine hkUrgent_keeps (Sub.trans (by decide) hM) ?_
    | with_reducible refine thermShut_keeps (Sub.trans (by decide) hM) ?_
    | with_reducible refine modZone_keeps (Sub.trans (by decide) hM) ?_
    | with_reducible refine keeps_ite (fun _ => ?_) (fun _ => ?_) | with_reducible refine keeps_id ?_ | with_reducible split
    | with_reducible intro _ | with_reducible dsimp only

theorem thermConfirm_keeps {M : Nat} {s : State} (hM : Sub 5187832 M) :
    ∀ {t : State} {a1 a2 a3 a4}, Keeps M s t → Keeps M s (State.thermConfirm t a1 a2 a3 a4) := by
  intro _ _ _ _ _ h0
  unfold State.thermConfirm
  repeat' first
    | with_reducible assumption | with_reducible refine thermShut_keeps (Sub.trans (by decide) hM) ?_
    | with_reducible refine keeps_ite (fun _ => ?_) (fun _ => ?_)

theorem thermHealth_keeps {M : Nat} {s : State} (hM : Sub 5187832 M) :
    ∀ {t : State} {a1}, Keeps M s t → Keeps M s (State.thermHealth t a1) := by
  intro _ _ h0
  unfold State.thermHealth
  repeat' first
    | with_reducible assumption | with_reducible refine updHk_keeps (Sub.trans (by decide) hM) ?_
    | with_reducible refine modZone_keeps (Sub.trans (by decide) hM) ?_
    | with_reducible refine thermShut_keeps (Sub.trans (by decide) hM) ?_ | with_reducible refine keeps_foldl ?_ ?_
    | with_reducible refine keeps_foldlP ?_ ?_ | with_reducible refine keeps_ite (fun _ => ?_) (fun _ => ?_)
    | with_reducible refine keeps_id ?_ | with_reducible split | with_reducible intro _ | with_reducible dsimp only

theorem derPublish_keeps {M : Nat} {s : State} (hM : Sub 4261960 M) :
    ∀ {t : State} {a1}, Keeps M s t → Keeps M s (State.derPublish t a1) := by
  intro _ _ h0
  unfold State.derPublish
  repeat' first
    | with_reducible assumption | with_reducible refine later_keeps (Sub.trans (by decide) hM) ?_
    | with_reducible refine modZone_keeps (Sub.trans (by decide) hM) ?_
    | with_reducible refine setParam_keeps (Sub.trans (by decide) hM) ?_
    | with_reducible refine forwardRequest_keeps (Sub.trans (by decide) hM) ?_
    | with_reducible refine keeps_ite (fun _ => ?_) (fun _ => ?_)

theorem derate_keeps {M : Nat} {s : State} (hM : Sub 4270200 M) :
    ∀ {t : State} {a1}, Keeps M s t → Keeps M s (State.derate t a1) := by
  intro _ _ h0
  unfold State.derate
  repeat' first
    | with_reducible assumption | with_reducible refine modZone_keeps (Sub.trans (by decide) hM) ?_
    | with_reducible refine note_keeps (Sub.trans (by decide) hM) ?_
    | with_reducible refine bump_keeps (Sub.trans (by decide) hM) ?_
    | with_reducible refine derPublish_keeps (Sub.trans (by decide) hM) ?_
    | with_reducible refine keeps_ite (fun _ => ?_) (fun _ => ?_)

theorem fanRound_keeps {M : Nat} {s : State} (hM : Sub 4202744 M) :
    ∀ {t : State} {a1}, Keeps M s t → Keeps M s (State.fanRound t a1) := by
  intro _ _ h0
  unfold State.fanRound
  repeat' first
    | with_reducible assumption | with_reducible refine updHk_keeps (Sub.trans (by decide) hM) ?_
    | with_reducible refine condOn_keeps (Sub.trans (by decide) hM) ?_
    | with_reducible refine condOff_keeps (Sub.trans (by decide) hM) ?_
    | with_reducible refine keeps_ite (fun _ => ?_) (fun _ => ?_)

theorem hkPublish_keeps {M : Nat} {s : State} (hM : Sub 4532476 M) :
    ∀ {t : State}, Keeps M s t → Keeps M s (State.hkPublish t) := by
  intro _ h0
  unfold State.hkPublish
  repeat' first
    | with_reducible assumption | with_reducible refine hkDew_keeps (Sub.trans (by decide) hM) ?_
    | with_reducible refine updHk_keeps (Sub.trans (by decide) hM) ?_
    | with_reducible refine derate_keeps (Sub.trans (by decide) hM) ?_
    | with_reducible refine fanRound_keeps (Sub.trans (by decide) hM) ?_ | with_reducible refine keeps_foldl ?_ ?_
    | with_reducible refine keeps_foldlP ?_ ?_ | with_reducible refine keeps_ite (fun _ => ?_) (fun _ => ?_)
    | with_reducible refine keeps_id ?_ | with_reducible split | with_reducible intro _

theorem hkTryPublish_keeps {M : Nat} {s : State} (hM : Sub 4532476 M) :
    ∀ {t : State}, Keeps M s t → Keeps M s (State.hkTryPublish t) := by
  intro _ h0
  unfold State.hkTryPublish
  repeat' first
    | with_reducible assumption | with_reducible refine hkPublish_keeps (Sub.trans (by decide) hM) ?_
    | with_reducible refine keeps_ite (fun _ => ?_) (fun _ => ?_)

theorem hkTryEval_keeps {M : Nat} {s : State} (hM : Sub 5187836 M) :
    ∀ {t : State}, Keeps M s t → Keeps M s (State.hkTryEval t) := by
  intro _ h0
  unfold State.hkTryEval
  repeat' first
    | with_reducible assumption | with_reducible refine updHk_keeps (Sub.trans (by decide) hM) ?_
    | with_reducible refine zoneForm_keeps (Sub.trans (by decide) hM) ?_
    | with_reducible refine hkTryPublish_keeps (Sub.trans (by decide) hM) ?_
    | with_reducible refine thermAsk_keeps (Sub.trans (by decide) hM) ?_ | with_reducible refine keeps_foldl ?_ ?_
    | with_reducible refine keeps_foldlP ?_ ?_ | with_reducible refine keeps_ite (fun _ => ?_) (fun _ => ?_)
    | with_reducible refine keeps_id ?_ | with_reducible split | with_reducible intro _

theorem hkRoundStart_keeps {M : Nat} {s : State} (hM : Sub 5187836 M) :
    ∀ {t : State} {a1}, Keeps M s t → Keeps M s (State.hkRoundStart t a1) := by
  intro _ _ h0
  unfold State.hkRoundStart
  repeat' first
    | with_reducible assumption | with_reducible refine capture_keeps (Sub.trans (by decide) hM) ?_
    | with_reducible refine updHk_keeps (Sub.trans (by decide) hM) ?_
    | with_reducible refine hkTryEval_keeps (Sub.trans (by decide) hM) ?_
    | with_reducible refine hkRestart_keeps (Sub.trans (by decide) hM) ?_ | with_reducible refine keeps_foldl ?_ ?_
    | with_reducible refine keeps_foldlP ?_ ?_ | with_reducible refine keeps_ite (fun _ => ?_) (fun _ => ?_)
    | with_reducible refine keeps_id ?_ | with_reducible split | with_reducible intro _

theorem hkReset_keeps {M : Nat} {s : State} (hM : Sub 5187836 M) :
    ∀ {t : State}, Keeps M s t → Keeps M s (State.hkReset t) := by
  intro _ h0
  unfold State.hkReset
  repeat' first
    | with_reducible assumption | with_reducible refine refuse_keeps (Sub.trans (by decide) hM) ?_
    | with_reducible refine hkRestart_keeps (Sub.trans (by decide) hM) ?_
    | with_reducible refine modPair_keeps (Sub.trans (by decide) hM) ?_
    | with_reducible refine hkTryEval_keeps (Sub.trans (by decide) hM) ?_ | with_reducible refine keeps_foldl ?_ ?_
    | with_reducible refine keeps_foldlP ?_ ?_ | with_reducible refine keeps_ite (fun _ => ?_) (fun _ => ?_)
    | with_reducible refine keeps_id ?_ | with_reducible split | with_reducible intro _

theorem adoptLost_keeps {M : Nat} {s : State} (hM : Sub 991480 M) :
    ∀ {t : State} {a1 a2 a3}, Keeps M s t → Keeps M s (State.adoptLost t a1 a2 a3) := by
  intro _ _ _ _ h0
  unfold State.adoptLost
  repeat' first
    | with_reducible assumption | with_reducible refine lostMember_keeps (Sub.trans (by decide) hM) ?_
    | with_reducible refine keeps_ite (fun _ => ?_) (fun _ => ?_)

theorem adoptEnable_keeps {M : Nat} {s : State} (hM : Sub 991344 M) :
    ∀ {t : State} {a1 a2 a3}, Keeps M s t → Keeps M s (State.adoptEnable t a1 a2 a3) := by
  intro _ _ _ _ h0
  unfold State.adoptEnable
  repeat' first
    | with_reducible assumption | with_reducible refine modByp_keeps (Sub.trans (by decide) hM) ?_
    | with_reducible refine record_keeps (Sub.trans (by decide) hM) ?_
    | with_reducible refine trip_keeps (Sub.trans (by decide) hM) ?_
    | with_reducible refine plannedBypass_keeps (Sub.trans (by decide) hM) ?_
    | with_reducible refine modPrt_keeps (Sub.trans (by decide) hM) ?_ | with_reducible refine keeps_ite (fun _ => ?_) (fun _ => ?_)

theorem adoptLane_keeps {M : Nat} {s : State} (hM : Sub 1040636 M) :
    ∀ {t : State} {a1 a2}, Keeps M s t → Keeps M s (State.adoptLane t a1 a2) := by
  intro _ _ _ h0
  unfold State.adoptLane
  repeat' first
    | with_reducible assumption | with_reducible refine updRoll_keeps (Sub.trans (by decide) hM) ?_
    | with_reducible refine laneTypeChanged_keeps (Sub.trans (by decide) hM) ?_
    | with_reducible refine identCheck_keeps (Sub.trans (by decide) hM) ?_
    | with_reducible refine dtRollChange_keeps (Sub.trans (by decide) hM) ?_
    | with_reducible refine coastRefresh_keeps (Sub.trans (by decide) hM) ?_
    | with_reducible refine adoptLost_keeps (Sub.trans (by decide) hM) ?_
    | with_reducible refine adoptEnable_keeps (Sub.trans (by decide) hM) ?_
    | with_reducible refine keeps_ite (fun _ => ?_) (fun _ => ?_)

theorem adoptWhere_keeps {M : Nat} {s : State} (hM : Sub 1040636 M) : ∀ {t : State} {p}, Keeps M s t → Keeps M s (t.adoptWhere p) := by
  intro t p h
  unfold State.adoptWhere
  split
  · exact h
  · refine keeps_foldl (updRoll_keeps (Sub.trans (by decide) hM) h) ?_
    intro u x hu
    exact adoptLane_keeps (Sub.trans (by decide) hM) hu

theorem adoptStr_keeps {M : Nat} {s : State} (hM : Sub 1040636 M) :
    ∀ {t : State} {a1 a2}, Keeps M s t → Keeps M s (State.adoptStr t a1 a2) := by
  intro _ _ _ h0
  unfold State.adoptStr
  repeat' first
    | with_reducible assumption | with_reducible refine adoptWhere_keeps (Sub.trans (by decide) hM) ?_
    | with_reducible refine keeps_ite (fun _ => ?_) (fun _ => ?_) | with_reducible refine keeps_id ?_ | with_reducible split

theorem adoptStopped_keeps {M : Nat} {s : State} (hM : Sub 1040636 M) :
    ∀ {t : State}, Keeps M s t → Keeps M s (State.adoptStopped t) := by
  intro _ h0
  unfold State.adoptStopped
  repeat' first
    | with_reducible assumption | with_reducible refine adoptWhere_keeps (Sub.trans (by decide) hM) ?_

theorem commitRoll_keeps {M : Nat} {s : State} (hM : Sub 1040636 M) :
    ∀ {t : State} {a1 a2}, Keeps M s t → Keeps M s (State.commitRoll t a1 a2) := by
  intro _ _ _ h0
  unfold State.commitRoll
  repeat' first
    | with_reducible assumption | with_reducible refine updRoll_keeps (Sub.trans (by decide) hM) ?_
    | with_reducible refine adoptStopped_keeps (Sub.trans (by decide) hM) ?_
    | with_reducible refine countSave_keeps (Sub.trans (by decide) hM) ?_

theorem cycleCapture_keeps {M : Nat} {s : State} (hM : Sub 139512 M) :
    ∀ {t : State} {a1}, Keeps M s t → Keeps M s (State.cycleCapture t a1) := by
  intro _ _ h0
  unfold State.cycleCapture
  repeat' first
    | with_reducible assumption | with_reducible refine modStr_keeps (Sub.trans (by decide) hM) ?_
    | with_reducible refine captureAll_keeps (Sub.trans (by decide) hM) ?_
    | with_reducible refine fire_keeps (Sub.trans (by decide) hM) ?_ | with_reducible refine keeps_ite (fun _ => ?_) (fun _ => ?_)

theorem strCapture_keeps {M : Nat} {s : State} (hM : Sub 139512 M) :
    ∀ {t : State} {a1}, Keeps M s t → Keeps M s (State.strCapture t a1) := by
  intro _ _ h0
  unfold State.strCapture
  repeat' first
    | with_reducible assumption | with_reducible refine captureAll_keeps (Sub.trans (by decide) hM) ?_
    | with_reducible refine cycleCapture_keeps (Sub.trans (by decide) hM) ?_ | with_reducible refine keeps_foldl ?_ ?_
    | with_reducible refine keeps_foldlP ?_ ?_ | with_reducible refine keeps_ite (fun _ => ?_) (fun _ => ?_)
    | with_reducible refine keeps_id ?_ | with_reducible split | with_reducible intro _

theorem deadCapture_keeps {M : Nat} {s : State} (hM : Sub 524352 M) :
    ∀ {t : State} {a1 a2}, Keeps M s t → Keeps M s (State.deadCapture t a1 a2) := by
  intro _ _ _ h0
  unfold State.deadCapture
  repeat' first
    | with_reducible assumption | with_reducible refine dtCapture_keeps (Sub.trans (by decide) hM) ?_
    | with_reducible refine keeps_foldl ?_ ?_ | with_reducible refine keeps_foldlP ?_ ?_
    | with_reducible refine keeps_ite (fun _ => ?_) (fun _ => ?_) | with_reducible refine keeps_id ?_ | with_reducible split
    | with_reducible intro _

theorem deadBoundary_keeps {M : Nat} {s : State} (hM : Sub 524416 M) :
    ∀ {t : State} {a1 a2}, Keeps M s t → Keeps M s (State.deadBoundary t a1 a2) := by
  intro _ _ _ h0
  unfold State.deadBoundary
  repeat' first
    | with_reducible assumption | with_reducible refine dtBoundary_keeps (Sub.trans (by decide) hM) ?_
    | with_reducible refine keeps_foldl ?_ ?_ | with_reducible refine keeps_foldlP ?_ ?_
    | with_reducible refine keeps_ite (fun _ => ?_) (fun _ => ?_) | with_reducible refine keeps_id ?_ | with_reducible split
    | with_reducible intro _

theorem takeRelease_keeps {M : Nat} {s : State} (hM : Sub 262224 M) :
    ∀ {t : State} {a1 a2}, Keeps M s t → Keeps M s (State.takeRelease t a1 a2) := by
  intro _ _ _ h0
  unfold State.takeRelease
  repeat' first
    | with_reducible assumption | with_reducible refine answerWaiting_keeps (Sub.trans (by decide) hM) ?_
    | with_reducible refine modByp_keeps (Sub.trans (by decide) hM) ?_
    | with_reducible refine bump_keeps (Sub.trans (by decide) hM) ?_ | with_reducible refine keeps_ite (fun _ => ?_) (fun _ => ?_)

theorem takeReleases_keeps {M : Nat} {s : State} (hM : Sub 262224 M) :
    ∀ {t : State} {a1}, Keeps M s t → Keeps M s (State.takeReleases t a1) := by
  intro _ _ h0
  unfold State.takeReleases
  repeat' first
    | with_reducible assumption | with_reducible refine takeRelease_keeps (Sub.trans (by decide) hM) ?_
    | with_reducible refine keeps_foldl ?_ ?_ | with_reducible refine keeps_foldlP ?_ ?_
    | with_reducible refine keeps_ite (fun _ => ?_) (fun _ => ?_) | with_reducible refine keeps_id ?_ | with_reducible split
    | with_reducible intro _

theorem levelTake_keeps {M : Nat} {s : State} (hM : Sub 131072 M) :
    ∀ {t : State} {a1}, Keeps M s t → Keeps M s (State.levelTake t a1) := by
  intro _ _ h0
  unfold State.levelTake
  repeat' first
    | with_reducible assumption | with_reducible refine modStr_keeps (Sub.trans (by decide) hM) ?_

theorem boundarySort_keeps {M : Nat} {s : State} (hM : Sub 532728 M) :
    ∀ {t : State} {a1 a2 a3}, Keeps M s t → Keeps M s (State.boundarySort t a1 a2 a3) := by
  intro _ _ _ _ h0
  unfold State.boundarySort
  repeat' first
    | with_reducible assumption | with_reducible refine sortPass_keeps (Sub.trans (by decide) hM) ?_
    | with_reducible refine keeps_ite (fun _ => ?_) (fun _ => ?_)

theorem planBoundary_keeps {M : Nat} {s : State} (hM : Sub 925944 M) :
    ∀ {t : State} {a1 a2 a3}, Keeps M s t → Keeps M s (State.planBoundary t a1 a2 a3) := by
  intro _ _ _ _ h0
  unfold State.planBoundary
  repeat' first
    | with_reducible assumption | with_reducible refine takeReleases_keeps (Sub.trans (by decide) hM) ?_
    | with_reducible refine deadCapture_keeps (Sub.trans (by decide) hM) ?_
    | with_reducible refine refCapture_keeps (Sub.trans (by decide) hM) ?_
    | with_reducible refine levelTake_keeps (Sub.trans (by decide) hM) ?_
    | with_reducible refine boundarySort_keeps (Sub.trans (by decide) hM) ?_
    | with_reducible refine planNow_keeps (Sub.trans (by decide) hM) ?_
    | with_reducible refine modSrt_keeps (Sub.trans (by decide) hM) ?_
    | with_reducible refine modStr_keeps (Sub.trans (by decide) hM) ?_ | with_reducible refine keeps_ite (fun _ => ?_) (fun _ => ?_)
    | with_reducible refine keeps_id ?_ | with_reducible split

theorem idleBoundary_keeps {M : Nat} {s : State} (hM : Sub 131136 M) :
    ∀ {t : State} {a1 a2}, Keeps M s t → Keeps M s (State.idleBoundary t a1 a2) := by
  intro _ _ _ h0
  unfold State.idleBoundary
  repeat' first
    | with_reducible assumption | with_reducible refine tripAction_keeps (Sub.trans (by decide) hM) ?_
    | with_reducible refine sendAct_keeps (Sub.trans (by decide) hM) ?_ | with_reducible refine keeps_foldl ?_ ?_
    | with_reducible refine keeps_foldlP ?_ ?_ | with_reducible refine keeps_ite (fun _ => ?_) (fun _ => ?_)
    | with_reducible refine keeps_id ?_ | with_reducible split | with_reducible intro _

theorem rawBoundary_keeps {M : Nat} {s : State} (hM : Sub 917584 M) :
    ∀ {t : State} {a1 a2}, Keeps M s t → Keeps M s (State.rawBoundary t a1 a2) := by
  intro _ _ _ h0
  unfold State.rawBoundary
  repeat' first
    | with_reducible assumption | with_reducible refine takeReleases_keeps (Sub.trans (by decide) hM) ?_
    | with_reducible refine modStr_keeps (Sub.trans (by decide) hM) ?_
    | with_reducible refine planGone_keeps (Sub.trans (by decide) hM) ?_
    | with_reducible refine modMl_keeps (Sub.trans (by decide) hM) ?_
    | with_reducible refine modByp_keeps (Sub.trans (by decide) hM) ?_ | with_reducible refine keeps_foldl ?_ ?_
    | with_reducible refine keeps_foldlP ?_ ?_ | with_reducible refine keeps_ite (fun _ => ?_) (fun _ => ?_)
    | with_reducible refine keeps_id ?_ | with_reducible split | with_reducible intro _

theorem leadCheck_keeps {M : Nat} {s : State} (hM : Sub 8440 M) :
    ∀ {t : State} {a1}, Keeps M s t → Keeps M s (State.leadCheck t a1) := by
  intro _ _ h0
  unfold State.leadCheck
  repeat' first
    | with_reducible assumption | with_reducible refine cond_keeps (Sub.trans (by decide) hM) ?_
    | with_reducible refine keeps_ite (fun _ => ?_) (fun _ => ?_)

theorem boundary_keeps {M : Nat} {s : State} (hM : Sub 1040636 M) :
    ∀ {t : State} {a1}, Keeps M s t → Keeps M s (State.boundary t a1) := by
  intro _ _ h0
  unfold State.boundary
  repeat' first
    | with_reducible assumption | with_reducible refine leadCheck_keeps (Sub.trans (by decide) hM) ?_
    | with_reducible refine deadBoundary_keeps (Sub.trans (by decide) hM) ?_
    | with_reducible refine strCapture_keeps (Sub.trans (by decide) hM) ?_
    | with_reducible refine adoptStr_keeps (Sub.trans (by decide) hM) ?_
    | with_reducible refine modStr_keeps (Sub.trans (by decide) hM) ?_
    | with_reducible refine stopAtBoundary_keeps (Sub.trans (by decide) hM) ?_
    | with_reducible refine rawBoundary_keeps (Sub.trans (by decide) hM) ?_
    | with_reducible refine planBoundary_keeps (Sub.trans (by decide) hM) ?_
    | with_reducible refine idleBoundary_keeps (Sub.trans (by decide) hM) ?_
    | with_reducible refine keeps_ite (fun _ => ?_) (fun _ => ?_)

theorem planDone_keeps {M : Nat} {s : State} (hM : Sub 131152 M) :
    ∀ {t : State} {a1}, Keeps M s t → Keeps M s (State.planDone t a1) := by
  intro _ _ h0
  unfold State.planDone
  repeat' first
    | with_reducible assumption | with_reducible refine lanePlanDone_keeps (Sub.trans (by decide) hM) ?_
    | with_reducible refine modStr_keeps (Sub.trans (by decide) hM) ?_ | with_reducible refine keeps_foldl ?_ ?_
    | with_reducible refine keeps_foldlP ?_ ?_ | with_reducible refine keeps_ite (fun _ => ?_) (fun _ => ?_)
    | with_reducible refine keeps_id ?_ | with_reducible split | with_reducible intro _

theorem modNode_keeps {M : Nat} {s : State} (hM : Sub 2097152 M) :
    ∀ {t : State} {a1 a2}, Keeps M s t → Keeps M s (State.modNode t a1 a2) := by
  intro _ _ _ h0
  unfold State.modNode
  repeat' first
    | with_reducible assumption | with_reducible refine updRing_keeps (Sub.trans (by decide) hM) ?_

theorem ringQueue_keeps {M : Nat} {s : State} (hM : Sub 65536 M) :
    ∀ {t : State} {a1 a2 a3}, Keeps M s t → Keeps M s (State.ringQueue t a1 a2 a3) := by
  intro _ _ _ _ h0
  unfold State.ringQueue
  repeat' first
    | with_reducible assumption | with_reducible refine queueBlock_keeps (Sub.trans (by decide) hM) ?_
    | with_reducible refine keeps_ite (fun _ => ?_) (fun _ => ?_)

theorem ringSend_keeps {M : Nat} {s : State} (hM : Sub 65536 M) :
    ∀ {t : State} {a1 a2 a3}, Keeps M s t → Keeps M s (State.ringSend t a1 a2 a3) := by
  intro _ _ _ _ h0
  unfold State.ringSend
  repeat' first
    | with_reducible assumption | with_reducible refine ringQueue_keeps (Sub.trans (by decide) hM) ?_
    | with_reducible refine keeps_ite (fun _ => ?_) (fun _ => ?_)

theorem ringForward_keeps {M : Nat} {s : State} (hM : Sub 65600 M) :
    ∀ {t : State} {a1 a2 a3}, Keeps M s t → Keeps M s (State.ringForward t a1 a2 a3) := by
  intro _ _ _ _ h0
  unfold State.ringForward
  repeat' first
    | with_reducible assumption | with_reducible refine bump_keeps (Sub.trans (by decide) hM) ?_
    | with_reducible refine queueBlock_keeps (Sub.trans (by decide) hM) ?_
    | with_reducible refine keeps_ite (fun _ => ?_) (fun _ => ?_)

theorem holdEpoch_keeps {M : Nat} {s : State} (hM : Sub 2097152 M) :
    ∀ {t : State} {a1 a2}, Keeps M s t → Keeps M s (State.holdEpoch t a1 a2) := by
  intro _ _ _ h0
  unfold State.holdEpoch
  repeat' first
    | with_reducible assumption | with_reducible refine updRing_keeps (Sub.trans (by decide) hM) ?_
    | with_reducible refine keeps_ite (fun _ => ?_) (fun _ => ?_)

theorem heard_keeps {M : Nat} {s : State} (hM : Sub 2097152 M) :
    ∀ {t : State} {a1}, Keeps M s t → Keeps M s (State.heard t a1) := by
  intro _ _ h0
  unfold State.heard
  repeat' first
    | with_reducible assumption | with_reducible refine modNode_keeps (Sub.trans (by decide) hM) ?_

theorem ringTake_keeps {M : Nat} {s : State} (hM : Sub 2181320 M) : ∀ {t : State} {e : RingSide} {k : RxHeader} {ty : Nat} {p : BitVec 96} {f : State → State},
    Keeps M s t → (∀ u, Keeps M s u → Keeps M s (f u)) → Keeps M s (t.ringTake e k ty p f) := by
  intro t e k ty p f h hf
  unfold State.ringTake
  repeat' first
    | with_reducible assumption | with_reducible refine keeps_ite (fun _ => ?_) (fun _ => ?_) | with_reducible refine hf _ ?_
    | with_reducible refine bump_keeps (Sub.trans (by decide) hM) ?_
    | with_reducible refine holdEpoch_keeps (Sub.trans (by decide) hM) ?_
    | with_reducible refine heard_keeps (Sub.trans (by decide) hM) ?_
    | with_reducible refine ringForward_keeps (Sub.trans (by decide) hM) ?_
    | with_reducible refine rxValid_keeps (Sub.trans (by decide) hM) ?_

theorem pantryWarn_keeps {M : Nat} {s : State} (hM : Sub 8304 M) :
    ∀ {t : State} {a1 a2 a3}, Keeps M s t → Keeps M s (State.pantryWarn t a1 a2 a3) := by
  intro _ _ _ _ h0
  unfold State.pantryWarn
  repeat' first
    | with_reducible assumption | with_reducible refine bump_keeps (Sub.trans (by decide) hM) ?_
    | with_reducible refine updPantry_keeps (Sub.trans (by decide) hM) ?_ ?_
    | with_reducible refine hostErrSet_keeps (Sub.trans (by decide) hM) ?_
    | with_reducible refine note_keeps (Sub.trans (by decide) hM) ?_ | with_reducible refine keeps_ite (fun _ => ?_) (fun _ => ?_)
    | with_reducible refine keeps_id ?_ | (intro hi; exact hi.mem)

theorem land_keeps {M : Nat} {s : State} (hM : Sub 8256 M) :
    ∀ {t : State} {a1 a2}, Keeps M s t → Keeps M s (State.land t a1 a2) := by
  intro _ _ _ h0
  unfold State.land
  refine keeps_ite (fun _ => ?_) (fun _ => ?_)
  · exact bump_keeps (Sub.trans (by decide) hM) h0
  · refine updPantry_keeps (Sub.trans (by decide) hM) (bankTouch_keeps (Sub.trans (by decide) hM) h0) ?_
    intro hi
    exact Memory.foldl_write_wf _ _ hi.mem

theorem gwSend_keeps {M : Nat} {s : State} (hM : Sub 2171128 M) :
    ∀ {t : State} {a1 a2}, Keeps M s t → Keeps M s (State.gwSend t a1 a2) := by
  intro _ _ _ h0
  unfold State.gwSend
  repeat' first
    | with_reducible assumption | with_reducible refine updRing_keeps (Sub.trans (by decide) hM) ?_
    | with_reducible refine fire_keeps (Sub.trans (by decide) hM) ?_
    | with_reducible refine bump_keeps (Sub.trans (by decide) hM) ?_
    | with_reducible refine ringSend_keeps (Sub.trans (by decide) hM) ?_
    | with_reducible refine keeps_ite (fun _ => ?_) (fun _ => ?_)

theorem landLocal_keeps {M : Nat} {s : State} (hM : Sub 2171128 M) :
    ∀ {t : State} {a1 a2}, Keeps M s t → Keeps M s (State.landLocal t a1 a2) := by
  intro _ _ _ h0
  unfold State.landLocal
  repeat' first
    | with_reducible assumption | with_reducible refine gwSend_keeps (Sub.trans (by decide) hM) ?_
    | with_reducible refine land_keeps (Sub.trans (by decide) hM) ?_ | with_reducible refine keeps_ite (fun _ => ?_) (fun _ => ?_)

theorem gwJudge_keeps {M : Nat} {s : State} (hM : Sub 64 M) :
    ∀ {t : State} {a1 a2}, Keeps M s t → Keeps M s (State.gwJudge t a1 a2).1 := by
  intro _ _ _ h0
  unfold State.gwJudge
  repeat' first
    | with_reducible assumption | with_reducible refine bump_keeps (Sub.trans (by decide) hM) ?_
    | with_reducible refine keeps_ite (fun _ => ?_) (fun _ => ?_) | with_reducible refine keeps_id ?_ | with_reducible split

theorem wordWrites_keeps {M : Nat} {s : State} (hM : Sub 2171128 M) :
    ∀ {t : State} {a1 a2 a3 a4}, Keeps M s t → Keeps M s (State.wordWrites t a1 a2 a3 a4) := by
  intro _ _ _ _ _ h0
  unfold State.wordWrites
  repeat' first
    | with_reducible assumption | with_reducible refine gwJudge_keeps (Sub.trans (by decide) hM) ?_
    | with_reducible refine land_keeps (Sub.trans (by decide) hM) ?_
    | with_reducible refine pantryWarn_keeps (Sub.trans (by decide) hM) ?_
    | with_reducible refine landLocal_keeps (Sub.trans (by decide) hM) ?_
    | with_reducible refine keeps_ite (fun _ => ?_) (fun _ => ?_) | with_reducible refine keeps_id ?_ | with_reducible split

theorem mgmtMet_keeps {M : Nat} {s : State} (hM : Sub 8304 M) :
    ∀ {t : State} {a1 a2 a3}, Keeps M s t → Keeps M s (State.mgmtMet t a1 a2 a3) := by
  intro _ _ _ _ h0
  unfold State.mgmtMet
  repeat' first
    | with_reducible assumption | with_reducible refine pantryWarn_keeps (Sub.trans (by decide) hM) ?_
    | with_reducible refine keeps_ite (fun _ => ?_) (fun _ => ?_)

theorem wordRead_keeps {M : Nat} {s : State} (hM : Sub 2171132 M) :
    ∀ {t : State} {a1 a2 a3}, Keeps M s t → Keeps M s (State.wordRead t a1 a2 a3).1 := by
  intro _ _ _ _ h0
  unfold State.wordRead
  repeat' first
    | with_reducible assumption | with_reducible refine bump_keeps (Sub.trans (by decide) hM) ?_
    | with_reducible refine bankTouch_keeps (Sub.trans (by decide) hM) ?_
    | with_reducible refine pantryWarn_keeps (Sub.trans (by decide) hM) ?_
    | with_reducible refine tookFree_keeps (Sub.trans (by decide) hM) ?_
    | with_reducible refine wordWrites_keeps (Sub.trans (by decide) hM) ?_
    | with_reducible refine keeps_ite (fun _ => ?_) (fun _ => ?_)

theorem sbDenied_keeps {M : Nat} {s : State} (hM : Sub 80 M) :
    ∀ {t : State}, Keeps M s t → Keeps M s (State.sbDenied t) := by
  intro _ h0
  unfold State.sbDenied
  repeat' first
    | with_reducible assumption | with_reducible refine bump_keeps (Sub.trans (by decide) hM) ?_
    | with_reducible refine hostErrSet_keeps (Sub.trans (by decide) hM) ?_

theorem ringLand_keeps {M : Nat} {s : State} (hM : Sub 2171128 M) :
    ∀ {t : State} {a1 a2 a3 a4 a5}, Keeps M s t → Keeps M s (State.ringLand t a1 a2 a3 a4 a5) := by
  intro _ _ _ _ _ _ h0
  unfold State.ringLand
  repeat' first
    | with_reducible assumption | with_reducible refine mgmtMet_keeps (Sub.trans (by decide) hM) ?_
    | with_reducible refine wordWrites_keeps (Sub.trans (by decide) hM) ?_
    | with_reducible refine keeps_ite (fun _ => ?_) (fun _ => ?_) | with_reducible refine keeps_id ?_ | with_reducible split

theorem ringSkip_keeps {M : Nat} {s : State} (hM : Sub 2171128 M) :
    ∀ {t : State} {a1 a2 a3}, Keeps M s t → Keeps M s (State.ringSkip t a1 a2 a3) := by
  intro _ _ _ _ h0
  unfold State.ringSkip
  repeat' first
    | with_reducible assumption | with_reducible refine wordWrites_keeps (Sub.trans (by decide) hM) ?_
    | with_reducible refine keeps_ite (fun _ => ?_) (fun _ => ?_) | with_reducible refine keeps_id ?_ | with_reducible split

theorem ringWrite_keeps {M : Nat} {s : State} (hM : Sub 2171128 M) :
    ∀ {t : State} {a1 a2 a3 a4 a5 a6}, Keeps M s t → Keeps M s (State.ringWrite t a1 a2 a3 a4 a5 a6) := by
  intro _ _ _ _ _ _ _ h0
  unfold State.ringWrite
  repeat' first
    | with_reducible assumption | with_reducible refine updRing_keeps (Sub.trans (by decide) hM) ?_
    | with_reducible refine ringLand_keeps (Sub.trans (by decide) hM) ?_
    | with_reducible refine ringSkip_keeps (Sub.trans (by decide) hM) ?_
    | with_reducible refine fire_keeps (Sub.trans (by decide) hM) ?_
    | with_reducible refine bump_keeps (Sub.trans (by decide) hM) ?_ | with_reducible refine keeps_ite (fun _ => ?_) (fun _ => ?_)
    | with_reducible refine keeps_id ?_ | with_reducible split

theorem wipe_keeps {M : Nat} {s : State} (hM : Sub 8192 M) :
    ∀ {t : State} {a1}, Keeps M s t → Keeps M s (State.wipe t a1) := by
  intro _ _ h0
  unfold State.wipe
  repeat' first
    | with_reducible assumption | with_reducible refine updPantry_keeps (Sub.trans (by decide) hM) ?_ ?_
    | with_reducible refine keeps_ite (fun _ => ?_) (fun _ => ?_) | with_reducible refine keeps_id ?_ | (intro hi; exact hi.mem)

theorem bankClear_keeps {M : Nat} {s : State} (hM : Sub 8192 M) :
    ∀ {t : State} {a1}, Keeps M s t → Keeps M s (State.bankClear t a1) := by
  intro _ _ h0
  unfold State.bankClear
  refine updPantry_keeps (Sub.trans (by decide) hM) h0 ?_
  intro hi; exact Memory.clear_wf _ _ _ hi.mem

theorem bankPowerSet_keeps {M : Nat} {s : State} (hM : Sub 8192 M) :
    ∀ {t : State} {a1 a2}, Keeps M s t → Keeps M s (State.bankPowerSet t a1 a2) := by
  intro _ _ _ h0
  unfold State.bankPowerSet
  refine keeps_foldl h0 ?_
  intro u x h
  refine keeps_ite (fun _ => ?_) (fun _ => keeps_ite (fun _ => ?_) (fun _ => h))
  · refine updPantry_keeps (Sub.trans (by decide) hM) h ?_
    intro hi; exact Memory.clear_wf _ _ _ hi.mem
  · exact bankClear_keeps (Sub.trans (by decide) hM) h

theorem tampLog_keeps {M : Nat} {s : State} (hM : Sub 4096 M) :
    ∀ {t : State} {a1 a2 a3}, Keeps M s t → Keeps M s (State.tampLog t a1 a2 a3) := by
  intro _ _ _ _ h0
  unfold State.tampLog
  repeat' first
    | with_reducible assumption | with_reducible refine updBat_keeps (Sub.trans (by decide) hM) ?_

theorem zeroise_keeps {M : Nat} {s : State} (hM : Sub 134221824 M) :
    ∀ {t : State}, Keeps M s t → Keeps M s (State.zeroise t) := by
  intro _ h0
  unfold State.zeroise
  repeat' first
    | with_reducible assumption | with_reducible refine updFw_keeps (Sub.trans (by decide) hM) ?_
    | with_reducible refine updBat_keeps (Sub.trans (by decide) hM) ?_

theorem tampEvent_keeps {M : Nat} {s : State} (hM : Sub 134221824 M) :
    ∀ {t : State} {a1}, Keeps M s t → Keeps M s (State.tampEvent t a1) := by
  intro _ _ h0
  unfold State.tampEvent
  repeat' first
    | with_reducible assumption | with_reducible refine tampLog_keeps (Sub.trans (by decide) hM) ?_
    | with_reducible refine zeroise_keeps (Sub.trans (by decide) hM) ?_
    | with_reducible refine updBat_keeps (Sub.trans (by decide) hM) ?_ | with_reducible refine keeps_ite (fun _ => ?_) (fun _ => ?_)

theorem tampAttic_keeps {M : Nat} {s : State} (hM : Sub 4224 M) :
    ∀ {t : State} {a1}, Keeps M s t → Keeps M s (State.tampAttic t a1) := by
  intro _ _ h0
  unfold State.tampAttic
  repeat' first
    | with_reducible assumption | with_reducible refine updBat_keeps (Sub.trans (by decide) hM) ?_
    | with_reducible refine attic_keeps (Sub.trans (by decide) hM) ?_

theorem tampCopy_keeps {M : Nat} {s : State} (hM : Sub 67121400 M) :
    ∀ {t : State}, Keeps M s t → Keeps M s (State.tampCopy t) := by
  intro _ h0
  unfold State.tampCopy
  repeat' first
    | with_reducible assumption | with_reducible refine tampAttic_keeps (Sub.trans (by decide) hM) ?_
    | with_reducible refine updEn_keeps (Sub.trans (by decide) hM) ?_
    | with_reducible refine fire_keeps (Sub.trans (by decide) hM) ?_
    | with_reducible refine updBat_keeps (Sub.trans (by decide) hM) ?_ | with_reducible refine keeps_foldl ?_ ?_
    | with_reducible refine keeps_foldlP ?_ ?_ | with_reducible refine keeps_ite (fun _ => ?_) (fun _ => ?_)
    | with_reducible refine keeps_id ?_ | with_reducible split | with_reducible intro _

theorem tampInput_keeps {M : Nat} {s : State} (hM : Sub 134221824 M) :
    ∀ {t : State} {a1 a2}, Keeps M s t → Keeps M s (State.tampInput t a1 a2) := by
  intro _ _ _ h0
  unfold State.tampInput
  repeat' first
    | with_reducible assumption | with_reducible refine updBat_keeps (Sub.trans (by decide) hM) ?_
    | with_reducible refine tampEvent_keeps (Sub.trans (by decide) hM) ?_
    | with_reducible refine keeps_ite (fun _ => ?_) (fun _ => ?_)

theorem tookKey_keeps {M : Nat} {s : State} (hM : Sub 4 M) :
    ∀ {t : State}, Keeps M s t → Keeps M s (State.tookKey t) := by
  intro _ h0
  unfold State.tookKey
  repeat' first
    | with_reducible assumption | with_reducible refine updFreeCount_keeps (Sub.trans (by decide) hM) ?_

theorem newUnitKeys_keeps {M : Nat} {s : State} (hM : Sub 134217732 M) :
    ∀ {t : State}, Keeps M s t → Keeps M s (State.newUnitKeys t) := by
  intro _ h0
  unfold State.newUnitKeys
  repeat' first
    | with_reducible assumption | with_reducible refine updFw_keeps (Sub.trans (by decide) hM) ?_
    | with_reducible refine tookKey_keeps (Sub.trans (by decide) hM) ?_

theorem keyGenUp_keeps {M : Nat} {s : State} (hM : Sub 134217728 M) :
    ∀ {t : State}, Keeps M s t → Keeps M s (State.keyGenUp t) := by
  intro _ h0
  unfold State.keyGenUp
  repeat' first
    | with_reducible assumption | with_reducible refine updFw_keeps (Sub.trans (by decide) hM) ?_

theorem batteryFound_keeps {M : Nat} {s : State} (hM : Sub 134221952 M) :
    ∀ {t : State}, Keeps M s t → Keeps M s (State.batteryFound t) := by
  intro _ h0
  unfold State.batteryFound
  repeat' first
    | with_reducible assumption | with_reducible refine tampAttic_keeps (Sub.trans (by decide) hM) ?_
    | with_reducible refine updBat_keeps (Sub.trans (by decide) hM) ?_
    | with_reducible refine zeroise_keeps (Sub.trans (by decide) hM) ?_
    | with_reducible refine keeps_ite (fun _ => ?_) (fun _ => ?_)

theorem keysAtStart_keeps {M : Nat} {s : State} (hM : Sub 134221828 M) :
    ∀ {t : State}, Keeps M s t → Keeps M s (State.keysAtStart t) := by
  intro _ h0
  unfold State.keysAtStart
  repeat' first
    | with_reducible assumption | with_reducible refine keyGenUp_keeps (Sub.trans (by decide) hM) ?_
    | with_reducible refine tookKey_keeps (Sub.trans (by decide) hM) ?_
    | with_reducible refine updBat_keeps (Sub.trans (by decide) hM) ?_
    | with_reducible refine zeroise_keeps (Sub.trans (by decide) hM) ?_
    | with_reducible refine newUnitKeys_keeps (Sub.trans (by decide) hM) ?_
    | with_reducible refine updFw_keeps (Sub.trans (by decide) hM) ?_ | with_reducible refine keeps_ite (fun _ => ?_) (fun _ => ?_)

theorem modEn_keeps {M : Nat} {s : State} (hM : Sub 67108864 M) :
    ∀ {t : State} {a1 a2}, Keeps M s t → Keeps M s (State.modEn t a1 a2) := by
  intro _ _ _ h0
  unfold State.modEn
  repeat' first
    | with_reducible assumption | with_reducible refine updEn_keeps (Sub.trans (by decide) hM) ?_

theorem enGap_keeps {M : Nat} {s : State} (hM : Sub 67108928 M) :
    ∀ {t : State} {a1 a2 a3}, Keeps M s t → Keeps M s (State.enGap t a1 a2 a3) := by
  intro _ _ _ _ h0
  unfold State.enGap
  repeat' first
    | with_reducible assumption | with_reducible refine modEn_keeps (Sub.trans (by decide) hM) ?_
    | with_reducible refine bumpBy_keeps (Sub.trans (by decide) hM) ?_
    | with_reducible refine bump_keeps (Sub.trans (by decide) hM) ?_ | with_reducible refine keeps_ite (fun _ => ?_) (fun _ => ?_)

theorem enWatch_keeps {M : Nat} {s : State} (hM : Sub 67108864 M) :
    ∀ {t : State} {a1}, Keeps M s t → Keeps M s (State.enWatch t a1) := by
  intro _ _ h0
  unfold State.enWatch
  repeat' first
    | with_reducible assumption | with_reducible refine modEn_keeps (Sub.trans (by decide) hM) ?_

theorem enTake_keeps {M : Nat} {s : State} (hM : Sub 67108928 M) :
    ∀ {t : State} {a1 a2}, Keeps M s t → Keeps M s (State.enTake t a1 a2) := by
  intro _ _ _ h0
  unfold State.enTake
  repeat' first
    | with_reducible assumption | with_reducible refine enGap_keeps (Sub.trans (by decide) hM) ?_
    | with_reducible refine modEn_keeps (Sub.trans (by decide) hM) ?_
    | with_reducible refine enWatch_keeps (Sub.trans (by decide) hM) ?_
    | with_reducible refine keeps_ite (fun _ => ?_) (fun _ => ?_) | with_reducible refine keeps_id ?_ | with_reducible split

theorem enSample_keeps {M : Nat} {s : State} (hM : Sub 67108928 M) :
    ∀ {t : State} {a1 a2}, Keeps M s t → Keeps M s (State.enSample t a1 a2) := by
  intro _ _ _ h0
  unfold State.enSample
  repeat' first
    | with_reducible assumption | with_reducible refine enTake_keeps (Sub.trans (by decide) hM) ?_
    | with_reducible refine keeps_foldl ?_ ?_ | with_reducible refine keeps_foldlP ?_ ?_
    | with_reducible refine keeps_ite (fun _ => ?_) (fun _ => ?_) | with_reducible refine keeps_id ?_ | with_reducible split
    | with_reducible intro _

theorem enDemand_keeps {M : Nat} {s : State} (hM : Sub 67108928 M) :
    ∀ {t : State} {a1}, Keeps M s t → Keeps M s (State.enDemand t a1) := by
  intro _ _ h0
  unfold State.enDemand
  repeat' first
    | with_reducible assumption | with_reducible refine modEn_keeps (Sub.trans (by decide) hM) ?_
    | with_reducible refine bump_keeps (Sub.trans (by decide) hM) ?_ | with_reducible refine keeps_ite (fun _ => ?_) (fun _ => ?_)

theorem demandEnd_keeps {M : Nat} {s : State} (hM : Sub 67108928 M) :
    ∀ {t : State}, Keeps M s t → Keeps M s (State.demandEnd t) := by
  intro _ h0
  unfold State.demandEnd
  repeat' first
    | with_reducible assumption | with_reducible refine updEn_keeps (Sub.trans (by decide) hM) ?_
    | with_reducible refine enDemand_keeps (Sub.trans (by decide) hM) ?_ | with_reducible refine keeps_foldl ?_ ?_
    | with_reducible refine keeps_foldlP ?_ ?_ | with_reducible refine keeps_ite (fun _ => ?_) (fun _ => ?_)
    | with_reducible refine keeps_id ?_ | with_reducible split | with_reducible intro _

theorem enPartial_keeps {M : Nat} {s : State} (hM : Sub 67108864 M) :
    ∀ {t : State}, Keeps M s t → Keeps M s (State.enPartial t) := by
  intro _ h0
  unfold State.enPartial
  repeat' first
    | with_reducible assumption | with_reducible refine modEn_keeps (Sub.trans (by decide) hM) ?_
    | with_reducible refine keeps_foldl ?_ ?_ | with_reducible refine keeps_foldlP ?_ ?_
    | with_reducible refine keeps_ite (fun _ => ?_) (fun _ => ?_) | with_reducible refine keeps_id ?_ | with_reducible split
    | with_reducible intro _

theorem putHostSig_keeps {M : Nat} {s : State} (hM : Sub 67648 M) :
    ∀ {t : State} {a1 a2}, Keeps M s t → Keeps M s (State.putHostSig t a1 a2) := by
  intro _ _ _ h0
  unfold State.putHostSig
  repeat' first
    | with_reducible assumption | with_reducible refine setParam_keeps (Sub.trans (by decide) hM) ?_
    | with_reducible refine forwardRequest_keeps (Sub.trans (by decide) hM) ?_
    | with_reducible refine keeps_ite (fun _ => ?_) (fun _ => ?_)

theorem enLimits_keeps {M : Nat} {s : State} (hM : Sub 67176512 M) :
    ∀ {t : State} {a1}, Keeps M s t → Keeps M s (State.enLimits t a1) := by
  intro _ _ h0
  unfold State.enLimits
  repeat' first
    | with_reducible assumption | with_reducible refine modEn_keeps (Sub.trans (by decide) hM) ?_
    | with_reducible refine enWatch_keeps (Sub.trans (by decide) hM) ?_
    | with_reducible refine putHostSig_keeps (Sub.trans (by decide) hM) ?_
    | with_reducible refine keeps_ite (fun _ => ?_) (fun _ => ?_)

theorem enAllLimits_keeps {M : Nat} {s : State} (hM : Sub 67176512 M) :
    ∀ {t : State}, Keeps M s t → Keeps M s (State.enAllLimits t) := by
  intro _ h0
  unfold State.enAllLimits
  repeat' first
    | with_reducible assumption | with_reducible refine enLimits_keeps (Sub.trans (by decide) hM) ?_
    | with_reducible refine keeps_foldl ?_ ?_ | with_reducible refine keeps_foldlP ?_ ?_
    | with_reducible refine keeps_ite (fun _ => ?_) (fun _ => ?_) | with_reducible refine keeps_id ?_ | with_reducible split
    | with_reducible intro _

theorem enCopy_keeps {M : Nat} {s : State} (hM : Sub 67108864 M) :
    ∀ {t : State}, Keeps M s t → Keeps M s (State.enCopy t) := by
  intro _ h0
  unfold State.enCopy
  repeat' first
    | with_reducible assumption | with_reducible refine updEn_keeps (Sub.trans (by decide) hM) ?_

theorem enRestore_keeps {M : Nat} {s : State} (hM : Sub 67108928 M) :
    ∀ {t : State}, Keeps M s t → Keeps M s (State.enRestore t) := by
  intro _ h0
  unfold State.enRestore
  repeat' first
    | with_reducible assumption | with_reducible refine updEn_keeps (Sub.trans (by decide) hM) ?_
    | with_reducible refine demandEnd_keeps (Sub.trans (by decide) hM) ?_
    | with_reducible refine enPartial_keeps (Sub.trans (by decide) hM) ?_
    | with_reducible refine keeps_ite (fun _ => ?_) (fun _ => ?_)

theorem atticParts_keeps {M : Nat} {s : State} (hM : Sub 128 M) : ∀ {t : State} {n p : Nat} {l : Bytes}, Keeps M s t → Keeps M s (t.atticParts n p l) := by
  intro t n
  induction n generalizing t with
  | zero => intro p l h; exact h | succ n ih =>
    intro p l h
    unfold State.atticParts
    exact keeps_ite (fun _ => h) (fun _ => ih (attic_keeps (Sub.trans (by decide) hM) h))

theorem enOff_keeps {M : Nat} {s : State} (hM : Sub 67108864 M) :
    ∀ {t : State} {a1}, Keeps M s t → Keeps M s (State.enOff t a1) := by
  intro _ _ h0
  unfold State.enOff
  repeat' first
    | with_reducible assumption | with_reducible refine modEn_keeps (Sub.trans (by decide) hM) ?_
    | with_reducible refine keeps_ite (fun _ => ?_) (fun _ => ?_)

theorem enConfig_keeps {M : Nat} {s : State} (hM : Sub 67108992 M) :
    ∀ {t : State} {a1 a2 a3 a4}, Keeps M s t → Keeps M s (State.enConfig t a1 a2 a3 a4) := by
  intro _ _ _ _ _ h0
  unfold State.enConfig
  repeat' first
    | with_reducible assumption | with_reducible refine updEn_keeps (Sub.trans (by decide) hM) ?_
    | with_reducible refine modEn_keeps (Sub.trans (by decide) hM) ?_
    | with_reducible refine atticParts_keeps (Sub.trans (by decide) hM) ?_
    | with_reducible refine attic_keeps (Sub.trans (by decide) hM) ?_

theorem rtcLoad_keeps {M : Nat} {s : State} (hM : Sub 67113040 M) :
    ∀ {t : State} {a1}, Keeps M s t → Keeps M s (State.rtcLoad t a1) := by
  intro _ _ h0
  unfold State.rtcLoad
  repeat' first
    | with_reducible assumption | with_reducible refine updBat_keeps (Sub.trans (by decide) hM) ?_
    | with_reducible refine enPartial_keeps (Sub.trans (by decide) hM) ?_
    | with_reducible refine tampLog_keeps (Sub.trans (by decide) hM) ?_
    | with_reducible refine updEn_keeps (Sub.trans (by decide) hM) ?_
    | with_reducible refine replyOk_keeps (Sub.trans (by decide) hM) ?_
    | with_reducible refine keeps_ite (fun _ => ?_) (fun _ => ?_)

theorem rtcPtp_keeps {M : Nat} {s : State} (hM : Sub 67113040 M) :
    ∀ {t : State}, Keeps M s t → Keeps M s (State.rtcPtp t) := by
  intro _ h0
  unfold State.rtcPtp
  repeat' first
    | with_reducible assumption | with_reducible refine rtcLoad_keeps (Sub.trans (by decide) hM) ?_
    | with_reducible refine keeps_ite (fun _ => ?_) (fun _ => ?_) | with_reducible refine keeps_id ?_ | with_reducible split

theorem loftPut_keeps {M : Nat} {s : State} (hM : Sub 134217728 M) :
    ∀ {t : State} {a1 a2}, Keeps M s t → Keeps M s (State.loftPut t a1 a2) := by
  intro _ _ _ h0
  unfold State.loftPut
  repeat' first
    | with_reducible assumption | with_reducible refine updFw_keeps (Sub.trans (by decide) hM) ?_

theorem fwActivated_keeps {M : Nat} {s : State} (hM : Sub 134226160 M) :
    ∀ {t : State} {a1}, Keeps M s t → Keeps M s (State.fwActivated t a1) := by
  intro _ _ h0
  unfold State.fwActivated
  repeat' first
    | with_reducible assumption | with_reducible refine attic_keeps (Sub.trans (by decide) hM) ?_
    | with_reducible refine note_keeps (Sub.trans (by decide) hM) ?_
    | with_reducible refine updFw_keeps (Sub.trans (by decide) hM) ?_

theorem bootLoft_keeps {M : Nat} {s : State} (hM : Sub 134217728 M) :
    ∀ {t : State}, Keeps M s t → Keeps M s (State.bootLoft t) := by
  intro _ h0
  unfold State.bootLoft
  repeat' first
    | with_reducible assumption | with_reducible refine updFw_keeps (Sub.trans (by decide) hM) ?_
    | with_reducible refine keeps_ite (fun _ => ?_) (fun _ => ?_) | with_reducible refine keeps_id ?_ | with_reducible split

theorem epStore_keeps {M : Nat} {s : State} (hM : Sub 134217728 M) :
    ∀ {t : State} {a1 a2}, Keeps M s t → Keeps M s (State.epStore t a1 a2) := by
  intro _ _ _ h0
  unfold State.epStore
  repeat' first
    | with_reducible assumption | with_reducible refine updFw_keeps (Sub.trans (by decide) hM) ?_

theorem imageNext_keeps {M : Nat} {s : State} (hM : Sub 134283344 M) : ∀ {n : Nat} {t : State}, Keeps M s t → Keeps M s (t.imageNext n) := by
  intro n
  induction n with
  | zero =>
    intro t h
    unfold State.imageNext
    first
      | exact h
  | succ n ih =>
    intro t h
    unfold State.imageNext
    repeat' first
      | with_reducible assumption | with_reducible refine keeps_ite (fun _ => ?_) (fun _ => ?_)
      | with_reducible refine replyOk_keeps (Sub.trans (by decide) hM) ?_
      | with_reducible refine updFw_keeps (Sub.trans (by decide) hM) ?_
      | with_reducible refine queueBlock_keeps (Sub.trans (by decide) hM) ?_ | with_reducible refine ih ?_ | with_reducible split
  

theorem imageSent_keeps {M : Nat} {s : State} (hM : Sub 134283344 M) :
    ∀ {t : State} {a1}, Keeps M s t → Keeps M s (State.imageSent t a1) := by
  intro _ _ h0
  unfold State.imageSent
  repeat' first
    | with_reducible assumption | with_reducible refine imageNext_keeps (Sub.trans (by decide) hM) ?_
    | with_reducible refine keeps_ite (fun _ => ?_) (fun _ => ?_) | with_reducible refine keeps_id ?_ | with_reducible split

theorem imageLost_keeps {M : Nat} {s : State} (hM : Sub 134283344 M) :
    ∀ {t : State} {a1}, Keeps M s t → Keeps M s (State.imageLost t a1) := by
  intro _ _ h0
  unfold State.imageLost
  repeat' first
    | with_reducible assumption | with_reducible refine imageNext_keeps (Sub.trans (by decide) hM) ?_
    | with_reducible refine keeps_ite (fun _ => ?_) (fun _ => ?_) | with_reducible refine keeps_id ?_ | with_reducible split

theorem imageEnd_keeps {M : Nat} {s : State} (hM : Sub 134217808 M) :
    ∀ {t : State}, Keeps M s t → Keeps M s (State.imageEnd t) := by
  intro _ h0
  unfold State.imageEnd
  repeat' first
    | with_reducible assumption | with_reducible refine replyOk_keeps (Sub.trans (by decide) hM) ?_
    | with_reducible refine updFw_keeps (Sub.trans (by decide) hM) ?_ | with_reducible refine keeps_ite (fun _ => ?_) (fun _ => ?_)
    | with_reducible refine keeps_id ?_ | with_reducible split

end Sys2Proof.Machine
end

