-- ==== Sys2Proof/Machine/Frame4.lean ====
section
/-!
DEFINITION. Frames, part 4: the functions from freshChallenge to hkMoved, in the order of their calls. Each lemma says
which parts its function may change (a mask over Part.bit) and that it keeps the bounds of State.Inv.
-/

namespace Sys2Proof.Machine

set_option linter.unreachableTactic false
set_option linter.unusedTactic false
set_option linter.unusedSimpArgs false

theorem freshChallenge_keeps {M : Nat} {s : State} (hM : Sub 134217732 M) :
    ∀ {t : State}, Keeps M s t → Keeps M s (State.freshChallenge t) := by
  intro _ h0
  unfold State.freshChallenge
  repeat' first
    | with_reducible assumption | with_reducible refine tookFree_keeps (Sub.trans (by decide) hM) ?_
    | with_reducible refine updFw_keeps (Sub.trans (by decide) hM) ?_

theorem dbgClose_keeps {M : Nat} {s : State} (hM : Sub 8560 M) :
    ∀ {t : State}, Keeps M s t → Keeps M s (State.dbgClose t) := by
  intro _ h0
  unfold State.dbgClose
  repeat' first
    | with_reducible assumption | with_reducible refine note_keeps (Sub.trans (by decide) hM) ?_
    | with_reducible refine updSys_keeps (Sub.trans (by decide) hM) ?_ | with_reducible refine keeps_ite (fun _ => ?_) (fun _ => ?_)
    | with_reducible refine keeps_id ?_ | with_reducible split

theorem setTime_keeps {M : Nat} {s : State} (hM : Sub 512 M) :
    ∀ {t : State} {a1 a2}, Keeps M s t → Keeps M s (State.setTime t a1 a2) := by
  intro _ _ _ h0
  unfold State.setTime
  repeat' first
    | with_reducible assumption | with_reducible refine updTime_keeps (Sub.trans (by decide) hM) ?_

theorem masterLoss_keeps {M : Nat} {s : State} (hM : Sub 8952 M) :
    ∀ {t : State}, Keeps M s t → Keeps M s (State.masterLoss t) := by
  intro _ h0
  unfold State.masterLoss
  repeat' first
    | with_reducible assumption | with_reducible refine condOn_keeps (Sub.trans (by decide) hM) ?_
    | with_reducible refine setTime_keeps (Sub.trans (by decide) hM) ?_
    | with_reducible refine updTime_keeps (Sub.trans (by decide) hM) ?_

theorem timeFollow_keeps {M : Nat} {s : State} (hM : Sub 512 M) :
    ∀ {t : State}, Keeps M s t → Keeps M s (State.timeFollow t) := by
  intro _ h0
  unfold State.timeFollow
  repeat' first
    | with_reducible assumption | with_reducible refine setTime_keeps (Sub.trans (by decide) hM) ?_
    | with_reducible refine updTime_keeps (Sub.trans (by decide) hM) ?_

theorem sourceHeard_keeps {M : Nat} {s : State} (hM : Sub 640 M) :
    ∀ {t : State}, Keeps M s t → Keeps M s (State.sourceHeard t) := by
  intro _ h0
  unfold State.sourceHeard
  repeat' first
    | with_reducible assumption | with_reducible refine updTime_keeps (Sub.trans (by decide) hM) ?_
    | with_reducible refine timeFollow_keeps (Sub.trans (by decide) hM) ?_
    | with_reducible refine condOffInst_keeps (Sub.trans (by decide) hM) ?_
    | with_reducible refine keeps_ite (fun _ => ?_) (fun _ => ?_)

theorem timeRefresh_keeps {M : Nat} {s : State} (hM : Sub 2106104 M) :
    ∀ {t : State}, Keeps M s t → Keeps M s (State.timeRefresh t) := by
  intro _ h0
  unfold State.timeRefresh
  repeat' first
    | with_reducible assumption | with_reducible refine updRing_keeps (Sub.trans (by decide) hM) ?_
    | with_reducible refine updTime_keeps (Sub.trans (by decide) hM) ?_
    | with_reducible refine setTime_keeps (Sub.trans (by decide) hM) ?_
    | with_reducible refine condOffInst_keeps (Sub.trans (by decide) hM) ?_
    | with_reducible refine timeFollow_keeps (Sub.trans (by decide) hM) ?_
    | with_reducible refine masterLoss_keeps (Sub.trans (by decide) hM) ?_
    | with_reducible refine keeps_ite (fun _ => ?_) (fun _ => ?_)

theorem timeClaim_keeps {M : Nat} {s : State} (hM : Sub 2097792 M) :
    ∀ {t : State} {a1 a2}, Keeps M s t → Keeps M s (State.timeClaim t a1 a2) := by
  intro _ _ _ h0
  unfold State.timeClaim
  repeat' first
    | with_reducible assumption | with_reducible refine updRing_keeps (Sub.trans (by decide) hM) ?_
    | with_reducible refine updTime_keeps (Sub.trans (by decide) hM) ?_
    | with_reducible refine sourceHeard_keeps (Sub.trans (by decide) hM) ?_

theorem timeAdopt_keeps {M : Nat} {s : State} (hM : Sub 2106104 M) :
    ∀ {t : State} {a1 a2}, Keeps M s t → Keeps M s (State.timeAdopt t a1 a2) := by
  intro _ _ _ h0
  unfold State.timeAdopt
  repeat' first
    | with_reducible assumption | with_reducible refine timeRefresh_keeps (Sub.trans (by decide) hM) ?_
    | with_reducible refine timeClaim_keeps (Sub.trans (by decide) hM) ?_

theorem ppsSync_keeps {M : Nat} {s : State} (hM : Sub 512 M) :
    ∀ {t : State}, Keeps M s t → Keeps M s (State.ppsSync t) := by
  intro _ h0
  unfold State.ppsSync
  repeat' first
    | with_reducible assumption | with_reducible refine updTime_keeps (Sub.trans (by decide) hM) ?_

theorem stepLane_keeps {M : Nat} {s : State} (hM : Sub 131136 M) :
    ∀ {t : State} {a1 a2}, Keeps M s t → Keeps M s (State.stepLane t a1 a2) := by
  intro _ _ _ h0
  unfold State.stepLane
  repeat' first
    | with_reducible assumption | with_reducible refine withdraw_keeps (Sub.trans (by decide) hM) ?_
    | with_reducible refine sendAct_keeps (Sub.trans (by decide) hM) ?_ | with_reducible refine keeps_foldl ?_ ?_
    | with_reducible refine keeps_foldlP ?_ ?_ | with_reducible refine keeps_ite (fun _ => ?_) (fun _ => ?_)
    | with_reducible refine keeps_id ?_ | with_reducible split | with_reducible intro _

theorem timeStep_keeps {M : Nat} {s : State} (hM : Sub 140920 M) :
    ∀ {t : State} {a1}, Keeps M s t → Keeps M s (State.timeStep t a1) := by
  intro _ _ h0
  unfold State.timeStep
  repeat' first
    | with_reducible assumption | with_reducible refine updSta_keeps (Sub.trans (by decide) hM) ?_
    | with_reducible refine updTime_keeps (Sub.trans (by decide) hM) ?_
    | with_reducible refine stepLane_keeps (Sub.trans (by decide) hM) ?_
    | with_reducible refine modStr_keeps (Sub.trans (by decide) hM) ?_
    | with_reducible refine modDly_keeps (Sub.trans (by decide) hM) ?_
    | with_reducible refine later_keeps (Sub.trans (by decide) hM) ?_
    | with_reducible refine note_keeps (Sub.trans (by decide) hM) ?_
    | with_reducible refine ppsSync_keeps (Sub.trans (by decide) hM) ?_ | with_reducible refine keeps_foldl ?_ ?_
    | with_reducible refine keeps_foldlP ?_ ?_ | with_reducible refine keeps_ite (fun _ => ?_) (fun _ => ?_)
    | with_reducible refine keeps_id ?_ | with_reducible split | with_reducible intro _

theorem takeOffset_keeps {M : Nat} {s : State} (hM : Sub 141052 M) :
    ∀ {t : State} {a1}, Keeps M s t → Keeps M s (State.takeOffset t a1) := by
  intro _ _ h0
  unfold State.takeOffset
  repeat' first
    | with_reducible assumption | with_reducible refine updTime_keeps (Sub.trans (by decide) hM) ?_
    | with_reducible refine cond_keeps (Sub.trans (by decide) hM) ?_
    | with_reducible refine setTime_keeps (Sub.trans (by decide) hM) ?_
    | with_reducible refine timeStep_keeps (Sub.trans (by decide) hM) ?_
    | with_reducible refine tookFree_keeps (Sub.trans (by decide) hM) ?_
    | with_reducible refine keeps_ite (fun _ => ?_) (fun _ => ?_)

theorem sendRingTime_keeps {M : Nat} {s : State} (hM : Sub 2162688 M) :
    ∀ {t : State} {a1 a2}, Keeps M s t → Keeps M s (State.sendRingTime t a1 a2) := by
  intro _ _ _ h0
  unfold State.sendRingTime
  repeat' first
    | with_reducible assumption | with_reducible refine updRing_keeps (Sub.trans (by decide) hM) ?_
    | with_reducible refine queueBlock_keeps (Sub.trans (by decide) hM) ?_
    | with_reducible refine keeps_ite (fun _ => ?_) (fun _ => ?_)

theorem nbrNote_keeps {M : Nat} {s : State} (hM : Sub 512 M) :
    ∀ {t : State} {a1 a2}, Keeps M s t → Keeps M s (State.nbrNote t a1 a2) := by
  intro _ _ _ h0
  unfold State.nbrNote
  repeat' first
    | with_reducible assumption | with_reducible refine updTime_keeps (Sub.trans (by decide) hM) ?_

theorem ringTimeValid_keeps {M : Nat} {s : State} (hM : Sub 2171640 M) :
    ∀ {t : State} {a1 a2 a3}, Keeps M s t → Keeps M s (State.ringTimeValid t a1 a2 a3) := by
  intro _ _ _ _ h0
  unfold State.ringTimeValid
  repeat' first
    | with_reducible assumption | with_reducible refine timeRefresh_keeps (Sub.trans (by decide) hM) ?_
    | with_reducible refine nbrNote_keeps (Sub.trans (by decide) hM) ?_
    | with_reducible refine updRing_keeps (Sub.trans (by decide) hM) ?_
    | with_reducible refine sourceHeard_keeps (Sub.trans (by decide) hM) ?_
    | with_reducible refine updTime_keeps (Sub.trans (by decide) hM) ?_
    | with_reducible refine sendRingTime_keeps (Sub.trans (by decide) hM) ?_
    | with_reducible refine keeps_ite (fun _ => ?_) (fun _ => ?_)

theorem ringTime_keeps {M : Nat} {s : State} (hM : Sub 2171640 M) :
    ∀ {t : State} {a1 a2 a3 a4 a5}, Keeps M s t → Keeps M s (State.ringTime t a1 a2 a3 a4 a5) := by
  intro _ _ _ _ _ _ h0
  unfold State.ringTime
  repeat' first
    | with_reducible assumption | with_reducible refine ringTimeValid_keeps (Sub.trans (by decide) hM) ?_
    | with_reducible refine timeClaim_keeps (Sub.trans (by decide) hM) ?_
    | with_reducible refine keeps_ite (fun _ => ?_) (fun _ => ?_)

theorem masterSend_keeps {M : Nat} {s : State} (hM : Sub 65536 M) :
    ∀ {t : State} {a1 a2 a3 a4 a5}, Keeps M s t → Keeps M s (State.masterSend t a1 a2 a3 a4 a5) := by
  intro _ _ _ _ _ _ h0
  unfold State.masterSend
  repeat' first
    | with_reducible assumption | with_reducible refine ringSend_keeps (Sub.trans (by decide) hM) ?_

theorem masterDrop_keeps {M : Nat} {s : State} (hM : Sub 592 M) :
    ∀ {t : State} {a1 a2 a3}, Keeps M s t → Keeps M s (State.masterDrop t a1 a2 a3) := by
  intro _ _ _ _ h0
  unfold State.masterDrop
  repeat' first
    | with_reducible assumption | with_reducible refine refuse_keeps (Sub.trans (by decide) hM) ?_
    | with_reducible refine updTime_keeps (Sub.trans (by decide) hM) ?_ | with_reducible refine keeps_foldl ?_ ?_
    | with_reducible refine keeps_foldlP ?_ ?_ | with_reducible refine keeps_ite (fun _ => ?_) (fun _ => ?_)
    | with_reducible refine keeps_id ?_ | with_reducible split | with_reducible intro _

theorem masterCommit_keeps {M : Nat} {s : State} (hM : Sub 2106104 M) :
    ∀ {t : State}, Keeps M s t → Keeps M s (State.masterCommit t) := by
  intro _ h0
  unfold State.masterCommit
  repeat' first
    | with_reducible assumption | with_reducible refine masterDrop_keeps (Sub.trans (by decide) hM) ?_
    | with_reducible refine replyOk_keeps (Sub.trans (by decide) hM) ?_
    | with_reducible refine timeAdopt_keeps (Sub.trans (by decide) hM) ?_
    | with_reducible refine updTime_keeps (Sub.trans (by decide) hM) ?_ | with_reducible refine keeps_foldl ?_ ?_
    | with_reducible refine keeps_foldlP ?_ ?_ | with_reducible refine keeps_ite (fun _ => ?_) (fun _ => ?_)
    | with_reducible refine keeps_id ?_ | with_reducible split | with_reducible intro _

theorem masterRole_keeps {M : Nat} {s : State} (hM : Sub 592 M) :
    ∀ {t : State}, Keeps M s t → Keeps M s (State.masterRole t) := by
  intro _ h0
  unfold State.masterRole
  repeat' first
    | with_reducible assumption | with_reducible refine masterDrop_keeps (Sub.trans (by decide) hM) ?_
    | with_reducible refine keeps_ite (fun _ => ?_) (fun _ => ?_) | with_reducible refine keeps_id ?_ | with_reducible split

theorem masterClaimed_keeps {M : Nat} {s : State} (hM : Sub 2171640 M) :
    ∀ {t : State} {a1 a2 a3}, Keeps M s t → Keeps M s (State.masterClaimed t a1 a2 a3) := by
  intro _ _ _ _ h0
  unfold State.masterClaimed
  repeat' first
    | with_reducible assumption | with_reducible refine masterSend_keeps (Sub.trans (by decide) hM) ?_
    | with_reducible refine timeAdopt_keeps (Sub.trans (by decide) hM) ?_
    | with_reducible refine masterDrop_keeps (Sub.trans (by decide) hM) ?_
    | with_reducible refine keeps_ite (fun _ => ?_) (fun _ => ?_) | with_reducible refine keeps_id ?_ | with_reducible split

theorem masterAcked_keeps {M : Nat} {s : State} (hM : Sub 2106104 M) :
    ∀ {t : State} {a1 a2 a3 a4}, Keeps M s t → Keeps M s (State.masterAcked t a1 a2 a3 a4) := by
  intro _ _ _ _ _ h0
  unfold State.masterAcked
  repeat' first
    | with_reducible assumption | with_reducible refine updTime_keeps (Sub.trans (by decide) hM) ?_
    | with_reducible refine masterCommit_keeps (Sub.trans (by decide) hM) ?_
    | with_reducible refine keeps_ite (fun _ => ?_) (fun _ => ?_) | with_reducible refine keeps_id ?_ | with_reducible split

theorem tcap_keeps {M : Nat} {s : State} (hM : Sub 512 M) :
    ∀ {t : State} {a1 a2}, Keeps M s t → Keeps M s (State.tcap t a1 a2) := by
  intro _ _ _ h0
  unfold State.tcap
  repeat' first
    | with_reducible assumption | with_reducible refine updTime_keeps (Sub.trans (by decide) hM) ?_
    | with_reducible refine keeps_ite (fun _ => ?_) (fun _ => ?_)

theorem tcapCtrl_keeps {M : Nat} {s : State} (hM : Sub 512 M) :
    ∀ {t : State} {a1}, Keeps M s t → Keeps M s (State.tcapCtrl t a1) := by
  intro _ _ h0
  unfold State.tcapCtrl
  repeat' first
    | with_reducible assumption | with_reducible refine ppsSync_keeps (Sub.trans (by decide) hM) ?_
    | with_reducible refine updTime_keeps (Sub.trans (by decide) hM) ?_
    | with_reducible refine keeps_ite (fun _ => ?_) (fun _ => ?_)

theorem haltCells_keeps {M : Nat} {s : State} (hM : Sub 81928 M) :
    ∀ {t : State}, Keeps M s t → Keeps M s (State.haltCells t) := by
  intro _ h0
  unfold State.haltCells
  repeat' first
    | with_reducible assumption | with_reducible refine setLane_keeps (Sub.trans (by decide) hM) ?_
    | with_reducible refine keeps_foldl ?_ ?_ | with_reducible refine keeps_foldlP ?_ ?_
    | with_reducible refine keeps_ite (fun _ => ?_) (fun _ => ?_) | with_reducible refine keeps_id ?_ | with_reducible split
    | with_reducible intro _

theorem freshCells_keeps {M : Nat} {s : State} (hM : Sub 81996 M) :
    ∀ {t : State}, Keeps M s t → Keeps M s (State.freshCells t) := by
  intro _ h0
  unfold State.freshCells
  repeat' first
    | with_reducible assumption | with_reducible refine freshAttempt_keeps (Sub.trans (by decide) hM) ?_
    | with_reducible refine keeps_foldl ?_ ?_ | with_reducible refine keeps_foldlP ?_ ?_
    | with_reducible refine keeps_ite (fun _ => ?_) (fun _ => ?_) | with_reducible refine keeps_id ?_ | with_reducible split
    | with_reducible intro _

theorem twRole_keeps {M : Nat} {s : State} (hM : Sub 67584 M) :
    ∀ {t : State}, Keeps M s t → Keeps M s (State.twRole t) := by
  intro _ h0
  unfold State.twRole
  repeat' first
    | with_reducible assumption | with_reducible refine updTwin_keeps (Sub.trans (by decide) hM) ?_
    | with_reducible refine twinSend_keeps (Sub.trans (by decide) hM) ?_

theorem setRole_keeps {M : Nat} {s : State} (hM : Sub 2056 M) :
    ∀ {t : State} {a1 a2}, Keeps M s t → Keeps M s (State.setRole t a1 a2) := by
  intro _ _ _ h0
  unfold State.setRole
  repeat' first
    | with_reducible assumption | with_reducible refine later_keeps (Sub.trans (by decide) hM) ?_
    | with_reducible refine updTwin_keeps (Sub.trans (by decide) hM) ?_

theorem twinLinkWatch_keeps {M : Nat} {s : State} (hM : Sub 8440 M) :
    ∀ {t : State}, Keeps M s t → Keeps M s (State.twinLinkWatch t) := by
  intro _ h0
  unfold State.twinLinkWatch
  repeat' first
    | with_reducible assumption | with_reducible refine cond_keeps (Sub.trans (by decide) hM) ?_

theorem twCase_keeps {M : Nat} {s : State} (hM : Sub 65536 M) :
    ∀ {t : State} {a1 a2 a3}, Keeps M s t → Keeps M s (State.twCase t a1 a2 a3) := by
  intro _ _ _ _ h0
  unfold State.twCase
  repeat' first
    | with_reducible assumption | with_reducible refine twinSend_keeps (Sub.trans (by decide) hM) ?_

theorem caseEnd_keeps {M : Nat} {s : State} (hM : Sub 2048 M) :
    ∀ {t : State} {a1 a2}, Keeps M s t → Keeps M s (State.caseEnd t a1 a2) := by
  intro _ _ _ h0
  unfold State.caseEnd
  repeat' first
    | with_reducible assumption | with_reducible refine updTwin_keeps (Sub.trans (by decide) hM) ?_

theorem caseCancel_keeps {M : Nat} {s : State} (hM : Sub 67584 M) :
    ∀ {t : State}, Keeps M s t → Keeps M s (State.caseCancel t) := by
  intro _ h0
  unfold State.caseCancel
  repeat' first
    | with_reducible assumption | with_reducible refine ringSend_keeps (Sub.trans (by decide) hM) ?_
    | with_reducible refine caseEnd_keeps (Sub.trans (by decide) hM) ?_
    | with_reducible refine twCase_keeps (Sub.trans (by decide) hM) ?_ | with_reducible refine keeps_ite (fun _ => ?_) (fun _ => ?_)

theorem toMaint_keeps {M : Nat} {s : State} (hM : Sub 83976 M) :
    ∀ {t : State} {a1}, Keeps M s t → Keeps M s (State.toMaint t a1) := by
  intro _ _ h0
  unfold State.toMaint
  repeat' first
    | with_reducible assumption | with_reducible refine haltCells_keeps (Sub.trans (by decide) hM) ?_
    | with_reducible refine setRole_keeps (Sub.trans (by decide) hM) ?_

theorem toActive_keeps {M : Nat} {s : State} (hM : Sub 3107580 M) :
    ∀ {t : State} {a1}, Keeps M s t → Keeps M s (State.toActive t a1) := by
  intro _ _ h0
  unfold State.toActive
  repeat' first
    | with_reducible assumption | with_reducible refine setRole_keeps (Sub.trans (by decide) hM) ?_
    | with_reducible refine freshCells_keeps (Sub.trans (by decide) hM) ?_
    | with_reducible refine rideRestart_keeps (Sub.trans (by decide) hM) ?_
    | with_reducible refine timeRefresh_keeps (Sub.trans (by decide) hM) ?_
    | with_reducible refine updTwin_keeps (Sub.trans (by decide) hM) ?_
    | with_reducible refine keeps_ite (fun _ => ?_) (fun _ => ?_)

theorem takeOver_keeps {M : Nat} {s : State} (hM : Sub 3107580 M) :
    ∀ {t : State}, Keeps M s t → Keeps M s (State.takeOver t) := by
  intro _ h0
  unfold State.takeOver
  repeat' first
    | with_reducible assumption | with_reducible refine fire_keeps (Sub.trans (by decide) hM) ?_
    | with_reducible refine bump_keeps (Sub.trans (by decide) hM) ?_
    | with_reducible refine toActive_keeps (Sub.trans (by decide) hM) ?_
    | with_reducible refine caseCancel_keeps (Sub.trans (by decide) hM) ?_

theorem surrender_keeps {M : Nat} {s : State} (hM : Sub 83976 M) :
    ∀ {t : State}, Keeps M s t → Keeps M s (State.surrender t) := by
  intro _ h0
  unfold State.surrender
  repeat' first
    | with_reducible assumption | with_reducible refine caseCancel_keeps (Sub.trans (by decide) hM) ?_
    | with_reducible refine toMaint_keeps (Sub.trans (by decide) hM) ?_
    | with_reducible refine twinSend_keeps (Sub.trans (by decide) hM) ?_
    | with_reducible refine keeps_ite (fun _ => ?_) (fun _ => ?_)

theorem splitSeen_keeps {M : Nat} {s : State} (hM : Sub 92408 M) :
    ∀ {t : State} {a1}, Keeps M s t → Keeps M s (State.splitSeen t a1) := by
  intro _ _ h0
  unfold State.splitSeen
  repeat' first
    | with_reducible assumption | with_reducible refine fire_keeps (Sub.trans (by decide) hM) ?_
    | with_reducible refine toMaint_keeps (Sub.trans (by decide) hM) ?_
    | with_reducible refine keeps_ite (fun _ => ?_) (fun _ => ?_)

theorem verdict_keeps {M : Nat} {s : State} (hM : Sub 3107580 M) :
    ∀ {t : State} {a1 a2}, Keeps M s t → Keeps M s (State.verdict t a1 a2) := by
  intro _ _ _ h0
  unfold State.verdict
  repeat' first
    | with_reducible assumption | with_reducible refine note_keeps (Sub.trans (by decide) hM) ?_
    | with_reducible refine caseEnd_keeps (Sub.trans (by decide) hM) ?_
    | with_reducible refine twCase_keeps (Sub.trans (by decide) hM) ?_
    | with_reducible refine fire_keeps (Sub.trans (by decide) hM) ?_
    | with_reducible refine toMaint_keeps (Sub.trans (by decide) hM) ?_
    | with_reducible refine bump_keeps (Sub.trans (by decide) hM) ?_
    | with_reducible refine toActive_keeps (Sub.trans (by decide) hM) ?_
    | with_reducible refine setRole_keeps (Sub.trans (by decide) hM) ?_
    | with_reducible refine keeps_ite (fun _ => ?_) (fun _ => ?_)

theorem caseOpen_keeps {M : Nat} {s : State} (hM : Sub 76024 M) :
    ∀ {t : State} {a1}, Keeps M s t → Keeps M s (State.caseOpen t a1) := by
  intro _ _ h0
  unfold State.caseOpen
  repeat' first
    | with_reducible assumption | with_reducible refine bump_keeps (Sub.trans (by decide) hM) ?_
    | with_reducible refine updTwin_keeps (Sub.trans (by decide) hM) ?_
    | with_reducible refine note_keeps (Sub.trans (by decide) hM) ?_
    | with_reducible refine cond_keeps (Sub.trans (by decide) hM) ?_
    | with_reducible refine ringSend_keeps (Sub.trans (by decide) hM) ?_
    | with_reducible refine keeps_ite (fun _ => ?_) (fun _ => ?_)

theorem qualifyStart_keeps {M : Nat} {s : State} (hM : Sub 67588 M) :
    ∀ {t : State}, Keeps M s t → Keeps M s (State.qualifyStart t) := by
  intro _ h0
  unfold State.qualifyStart
  repeat' first
    | with_reducible assumption | with_reducible refine updTwin_keeps (Sub.trans (by decide) hM) ?_
    | with_reducible refine twinSend_keeps (Sub.trans (by decide) hM) ?_
    | with_reducible refine tookFree_keeps (Sub.trans (by decide) hM) ?_

theorem unqualify_keeps {M : Nat} {s : State} (hM : Sub 83976 M) :
    ∀ {t : State}, Keeps M s t → Keeps M s (State.unqualify t) := by
  intro _ h0
  unfold State.unqualify
  repeat' first
    | with_reducible assumption | with_reducible refine twRole_keeps (Sub.trans (by decide) hM) ?_
    | with_reducible refine haltCells_keeps (Sub.trans (by decide) hM) ?_
    | with_reducible refine updTwin_keeps (Sub.trans (by decide) hM) ?_
    | with_reducible refine keeps_ite (fun _ => ?_) (fun _ => ?_)

theorem acceptJoin_keeps {M : Nat} {s : State} (hM : Sub 67724 M) :
    ∀ {t : State} {a1}, Keeps M s t → Keeps M s (State.acceptJoin t a1) := by
  intro _ _ h0
  unfold State.acceptJoin
  repeat' first
    | with_reducible assumption | with_reducible refine qualifyStart_keeps (Sub.trans (by decide) hM) ?_
    | with_reducible refine twRole_keeps (Sub.trans (by decide) hM) ?_
    | with_reducible refine condOffInst_keeps (Sub.trans (by decide) hM) ?_
    | with_reducible refine updTwin_keeps (Sub.trans (by decide) hM) ?_
    | with_reducible refine setRole_keeps (Sub.trans (by decide) hM) ?_

theorem gatherBoundary_keeps {M : Nat} {s : State} (hM : Sub 2048 M) :
    ∀ {t : State} {a1}, Keeps M s t → Keeps M s (State.gatherBoundary t a1) := by
  intro _ _ h0
  unfold State.gatherBoundary
  repeat' first
    | with_reducible assumption | with_reducible refine updTwin_keeps (Sub.trans (by decide) hM) ?_

theorem gatherPlan_keeps {M : Nat} {s : State} (hM : Sub 2048 M) :
    ∀ {t : State} {a1}, Keeps M s t → Keeps M s (State.gatherPlan t a1) := by
  intro _ _ h0
  unfold State.gatherPlan
  repeat' first
    | with_reducible assumption | with_reducible refine updTwin_keeps (Sub.trans (by decide) hM) ?_
    | with_reducible refine keeps_ite (fun _ => ?_) (fun _ => ?_) | with_reducible refine keeps_id ?_ | with_reducible split

theorem compareSend_keeps {M : Nat} {s : State} (hM : Sub 65536 M) :
    ∀ {t : State} {a1}, Keeps M s t → Keeps M s (State.compareSend t a1) := by
  intro _ _ h0
  unfold State.compareSend
  repeat' first
    | with_reducible assumption | with_reducible refine twinSend_keeps (Sub.trans (by decide) hM) ?_

theorem periodEnd_keeps {M : Nat} {s : State} (hM : Sub 67584 M) :
    ∀ {t : State} {a1 a2}, Keeps M s t → Keeps M s (State.periodEnd t a1 a2) := by
  intro _ _ _ h0
  unfold State.periodEnd
  repeat' first
    | with_reducible assumption | with_reducible refine updTwin_keeps (Sub.trans (by decide) hM) ?_
    | with_reducible refine compareSend_keeps (Sub.trans (by decide) hM) ?_
    | with_reducible refine keeps_ite (fun _ => ?_) (fun _ => ?_)

theorem inputDiff_keeps {M : Nat} {s : State} (hM : Sub 76024 M) :
    ∀ {t : State} {a1}, Keeps M s t → Keeps M s (State.inputDiff t a1) := by
  intro _ _ h0
  unfold State.inputDiff
  repeat' first
    | with_reducible assumption | with_reducible refine twCase_keeps (Sub.trans (by decide) hM) ?_
    | with_reducible refine updTwin_keeps (Sub.trans (by decide) hM) ?_
    | with_reducible refine bump_keeps (Sub.trans (by decide) hM) ?_
    | with_reducible refine fire_keeps (Sub.trans (by decide) hM) ?_ | with_reducible refine keeps_ite (fun _ => ?_) (fun _ => ?_)

theorem classify_keeps {M : Nat} {s : State} (hM : Sub 92408 M) :
    ∀ {t : State} {a1 a2 a3}, Keeps M s t → Keeps M s (State.classify t a1 a2 a3) := by
  intro _ _ _ _ h0
  unfold State.classify
  repeat' first
    | with_reducible assumption | with_reducible refine updTwin_keeps (Sub.trans (by decide) hM) ?_
    | with_reducible refine unqualify_keeps (Sub.trans (by decide) hM) ?_
    | with_reducible refine fire_keeps (Sub.trans (by decide) hM) ?_
    | with_reducible refine bump_keeps (Sub.trans (by decide) hM) ?_
    | with_reducible refine inputDiff_keeps (Sub.trans (by decide) hM) ?_
    | with_reducible refine caseOpen_keeps (Sub.trans (by decide) hM) ?_
    | with_reducible refine twCase_keeps (Sub.trans (by decide) hM) ?_ | with_reducible refine keeps_ite (fun _ => ?_) (fun _ => ?_)

theorem classifyReady_keeps {M : Nat} {s : State} (hM : Sub 92408 M) :
    ∀ {t : State}, Keeps M s t → Keeps M s (State.classifyReady t) := by
  intro _ h0
  unfold State.classifyReady
  repeat' first
    | with_reducible assumption | with_reducible refine classify_keeps (Sub.trans (by decide) hM) ?_
    | with_reducible refine keeps_ite (fun _ => ?_) (fun _ => ?_) | with_reducible refine keeps_id ?_ | with_reducible split

theorem resyncSend_keeps {M : Nat} {s : State} (hM : Sub 67588 M) :
    ∀ {t : State}, Keeps M s t → Keeps M s (State.resyncSend t) := by
  intro _ h0
  unfold State.resyncSend
  repeat' first
    | with_reducible assumption | with_reducible refine updTwin_keeps (Sub.trans (by decide) hM) ?_
    | with_reducible refine twinSend_keeps (Sub.trans (by decide) hM) ?_
    | with_reducible refine tookFree_keeps (Sub.trans (by decide) hM) ?_

theorem takeBypass_keeps {M : Nat} {s : State} (hM : Sub 262144 M) :
    ∀ {t : State} {a1 a2}, Keeps M s t → Keeps M s (State.takeBypass t a1 a2) := by
  intro _ _ _ h0
  unfold State.takeBypass
  repeat' first
    | with_reducible assumption | with_reducible refine modByp_keeps (Sub.trans (by decide) hM) ?_
    | with_reducible refine keeps_ite (fun _ => ?_) (fun _ => ?_) | with_reducible refine keeps_id ?_ | with_reducible split

theorem takeItem_keeps {M : Nat} {s : State} (hM : Sub 2091260 M) :
    ∀ {t : State} {a1}, Keeps M s t → Keeps M s (State.takeItem t a1) := by
  intro _ _ h0
  unfold State.takeItem
  repeat' first
    | with_reducible assumption | with_reducible refine setParam_keeps (Sub.trans (by decide) hM) ?_
    | with_reducible refine laneTypeChanged_keeps (Sub.trans (by decide) hM) ?_
    | with_reducible refine updRoll_keeps (Sub.trans (by decide) hM) ?_
    | with_reducible refine updTwin_keeps (Sub.trans (by decide) hM) ?_
    | with_reducible refine updLe_keeps (Sub.trans (by decide) hM) ?_
    | with_reducible refine modPrt_keeps (Sub.trans (by decide) hM) ?_
    | with_reducible refine tripMask_keeps (Sub.trans (by decide) hM) ?_
    | with_reducible refine takeBypass_keeps (Sub.trans (by decide) hM) ?_
    | with_reducible refine rideMirror_keeps (Sub.trans (by decide) hM) ?_
    | with_reducible refine modDleg_keeps (Sub.trans (by decide) hM) ?_
    | with_reducible refine condOn_keeps (Sub.trans (by decide) hM) ?_
    | with_reducible refine condOff_keeps (Sub.trans (by decide) hM) ?_
    | with_reducible refine modMl_keeps (Sub.trans (by decide) hM) ?_ | with_reducible refine keeps_ite (fun _ => ?_) (fun _ => ?_)
    | with_reducible refine keeps_id ?_ | with_reducible split

theorem resyncAdopt_keeps {M : Nat} {s : State} (hM : Sub 2091260 M) :
    ∀ {t : State} {a1}, Keeps M s t → Keeps M s (State.resyncAdopt t a1) := by
  intro _ _ h0
  unfold State.resyncAdopt
  repeat' first
    | with_reducible assumption | with_reducible refine takeItem_keeps (Sub.trans (by decide) hM) ?_
    | with_reducible refine updTwin_keeps (Sub.trans (by decide) hM) ?_ | with_reducible refine keeps_foldl ?_ ?_
    | with_reducible refine keeps_foldlP ?_ ?_ | with_reducible refine keeps_ite (fun _ => ?_) (fun _ => ?_)
    | with_reducible refine keeps_id ?_ | with_reducible split | with_reducible intro _

theorem resyncStr_keeps {M : Nat} {s : State} (hM : Sub 2091260 M) :
    ∀ {t : State} {a1}, Keeps M s t → Keeps M s (State.resyncStr t a1) := by
  intro _ _ h0
  unfold State.resyncStr
  repeat' first
    | with_reducible assumption | with_reducible refine resyncAdopt_keeps (Sub.trans (by decide) hM) ?_

theorem resyncLoops_keeps {M : Nat} {s : State} (hM : Sub 2091260 M) :
    ∀ {t : State}, Keeps M s t → Keeps M s (State.resyncLoops t) := by
  intro _ h0
  unfold State.resyncLoops
  repeat' first
    | with_reducible assumption | with_reducible refine resyncAdopt_keeps (Sub.trans (by decide) hM) ?_

theorem fatalWatch_keeps {M : Nat} {s : State} (hM : Sub 83976 M) :
    ∀ {t : State}, Keeps M s t → Keeps M s (State.fatalWatch t) := by
  intro _ h0
  unfold State.fatalWatch
  repeat' first
    | with_reducible assumption | with_reducible refine surrender_keeps (Sub.trans (by decide) hM) ?_
    | with_reducible refine keeps_ite (fun _ => ?_) (fun _ => ?_)

theorem checksJudge_keeps {M : Nat} {s : State} (hM : Sub 92408 M) :
    ∀ {t : State} {a1}, Keeps M s t → Keeps M s (State.checksJudge t a1) := by
  intro _ _ h0
  unfold State.checksJudge
  repeat' first
    | with_reducible assumption | with_reducible refine cond_keeps (Sub.trans (by decide) hM) ?_
    | with_reducible refine surrender_keeps (Sub.trans (by decide) hM) ?_
    | with_reducible refine haltCells_keeps (Sub.trans (by decide) hM) ?_
    | with_reducible refine unqualify_keeps (Sub.trans (by decide) hM) ?_
    | with_reducible refine updTwin_keeps (Sub.trans (by decide) hM) ?_
    | with_reducible refine caseCancel_keeps (Sub.trans (by decide) hM) ?_
    | with_reducible refine keeps_ite (fun _ => ?_) (fun _ => ?_)

theorem checkDone_keeps {M : Nat} {s : State} (hM : Sub 92408 M) :
    ∀ {t : State} {a1 a2}, Keeps M s t → Keeps M s (State.checkDone t a1 a2) := by
  intro _ _ _ h0
  unfold State.checkDone
  repeat' first
    | with_reducible assumption | with_reducible refine updTwin_keeps (Sub.trans (by decide) hM) ?_
    | with_reducible refine checksJudge_keeps (Sub.trans (by decide) hM) ?_

theorem walkCounts_keeps {M : Nat} {s : State} (hM : Sub 64 M) :
    ∀ {t : State} {a1}, Keeps M s t → Keeps M s (State.walkCounts t a1) := by
  intro _ _ h0
  unfold State.walkCounts
  repeat' first
    | with_reducible assumption | with_reducible refine bump_keeps (Sub.trans (by decide) hM) ?_
    | with_reducible refine keeps_foldl ?_ ?_ | with_reducible refine keeps_foldlP ?_ ?_
    | with_reducible refine keeps_ite (fun _ => ?_) (fun _ => ?_) | with_reducible refine keeps_id ?_ | with_reducible split
    | with_reducible intro _

theorem publishSet_keeps {M : Nat} {s : State} (hM : Sub 131072 M) :
    ∀ {t : State} {a1}, Keeps M s t → Keeps M s (State.publishSet t a1) := by
  intro _ _ h0
  unfold State.publishSet
  repeat' first
    | with_reducible assumption | with_reducible refine updMod_keeps (Sub.trans (by decide) hM) ?_

theorem publishLate_keeps {M : Nat} {s : State} (hM : Sub 1179648 M) :
    ∀ {t : State}, Keeps M s t → Keeps M s (State.publishLate t) := by
  intro _ h0
  unfold State.publishLate
  repeat' first
    | with_reducible assumption | with_reducible refine publishSet_keeps (Sub.trans (by decide) hM) ?_
    | with_reducible refine updLe_keeps (Sub.trans (by decide) hM) ?_ | with_reducible refine keeps_ite (fun _ => ?_) (fun _ => ?_)
    | with_reducible refine keeps_id ?_ | with_reducible split

theorem walkEnd_keeps {M : Nat} {s : State} (hM : Sub 1048640 M) :
    ∀ {t : State}, Keeps M s t → Keeps M s (State.walkEnd t) := by
  intro _ h0
  unfold State.walkEnd
  repeat' first
    | with_reducible assumption | with_reducible refine walkCounts_keeps (Sub.trans (by decide) hM) ?_
    | with_reducible refine updLe_keeps (Sub.trans (by decide) hM) ?_ | with_reducible refine keeps_foldl ?_ ?_
    | with_reducible refine keeps_foldlP ?_ ?_ | with_reducible refine keeps_ite (fun _ => ?_) (fun _ => ?_)
    | with_reducible refine keeps_id ?_ | with_reducible split

theorem publish_keeps {M : Nat} {s : State} (hM : Sub 2040060 M) :
    ∀ {t : State}, Keeps M s t → Keeps M s (State.publish t) := by
  intro _ h0
  unfold State.publish
  repeat' first
    | with_reducible assumption | with_reducible refine rideWalk_keeps (Sub.trans (by decide) hM) ?_
    | with_reducible refine publishLate_keeps (Sub.trans (by decide) hM) ?_
    | with_reducible refine walkEnd_keeps (Sub.trans (by decide) hM) ?_
    | with_reducible refine keeps_ite (fun _ => ?_) (fun _ => ?_) | with_reducible refine keeps_id ?_ | with_reducible split

theorem loopAdopt_keeps {M : Nat} {s : State} (hM : Sub 1048576 M) :
    ∀ {t : State}, Keeps M s t → Keeps M s (State.loopAdopt t) := by
  intro _ h0
  unfold State.loopAdopt
  repeat' first
    | with_reducible assumption | with_reducible refine updLe_keeps (Sub.trans (by decide) hM) ?_
    | with_reducible refine keeps_foldl ?_ ?_ | with_reducible refine keeps_foldlP ?_ ?_
    | with_reducible refine keeps_ite (fun _ => ?_) (fun _ => ?_) | with_reducible refine keeps_id ?_ | with_reducible split

theorem loopsFresh_keeps {M : Nat} {s : State} (hM : Sub 1048576 M) :
    ∀ {t : State}, Keeps M s t → Keeps M s (State.loopsFresh t) := by
  intro _ h0
  unfold State.loopsFresh
  repeat' first
    | with_reducible assumption | with_reducible refine updLe_keeps (Sub.trans (by decide) hM) ?_

theorem stallTrips_keeps {M : Nat} {s : State} (hM : Sub 991344 M) :
    ∀ {t : State}, Keeps M s t → Keeps M s (State.stallTrips t) := by
  intro _ h0
  unfold State.stallTrips
  repeat' first
    | with_reducible assumption | with_reducible refine trip_keeps (Sub.trans (by decide) hM) ?_
    | with_reducible refine keeps_foldl ?_ ?_ | with_reducible refine keeps_foldlP ?_ ?_
    | with_reducible refine keeps_ite (fun _ => ?_) (fun _ => ?_) | with_reducible refine keeps_id ?_ | with_reducible split
    | with_reducible intro _

theorem skipBoundary_keeps {M : Nat} {s : State} (hM : Sub 2040056 M) :
    ∀ {t : State} {a1}, Keeps M s t → Keeps M s (State.skipBoundary t a1) := by
  intro _ _ h0
  unfold State.skipBoundary
  repeat' first
    | with_reducible assumption | with_reducible refine fire_keeps (Sub.trans (by decide) hM) ?_
    | with_reducible refine bump_keeps (Sub.trans (by decide) hM) ?_
    | with_reducible refine updLe_keeps (Sub.trans (by decide) hM) ?_
    | with_reducible refine stallTrips_keeps (Sub.trans (by decide) hM) ?_
    | with_reducible refine keeps_ite (fun _ => ?_) (fun _ => ?_)

theorem loopStop_keeps {M : Nat} {s : State} (hM : Sub 1384564 M) :
    ∀ {t : State}, Keeps M s t → Keeps M s (State.loopStop t) := by
  intro _ h0
  unfold State.loopStop
  repeat' first
    | with_reducible assumption | with_reducible refine loopAdopt_keeps (Sub.trans (by decide) hM) ?_
    | with_reducible refine updLe_keeps (Sub.trans (by decide) hM) ?_
    | with_reducible refine rideHalt_keeps (Sub.trans (by decide) hM) ?_
    | with_reducible refine keeps_ite (fun _ => ?_) (fun _ => ?_)

theorem walkBoundary_keeps {M : Nat} {s : State} (hM : Sub 2091260 M) :
    ∀ {t : State} {a1 a2}, Keeps M s t → Keeps M s (State.walkBoundary t a1 a2) := by
  intro _ _ _ h0
  unfold State.walkBoundary
  repeat' first
    | with_reducible assumption | with_reducible refine resyncLoops_keeps (Sub.trans (by decide) hM) ?_
    | with_reducible refine loopAdopt_keeps (Sub.trans (by decide) hM) ?_
    | with_reducible refine updLe_keeps (Sub.trans (by decide) hM) ?_
    | with_reducible refine updTwin_keeps (Sub.trans (by decide) hM) ?_
    | with_reducible refine keeps_ite (fun _ => ?_) (fun _ => ?_)

theorem controlBoundary_keeps {M : Nat} {s : State} (hM : Sub 2091260 M) :
    ∀ {t : State} {a1}, Keeps M s t → Keeps M s (State.controlBoundary t a1) := by
  intro _ _ h0
  unfold State.controlBoundary
  repeat' first
    | with_reducible assumption | with_reducible refine updLe_keeps (Sub.trans (by decide) hM) ?_
    | with_reducible refine periodEnd_keeps (Sub.trans (by decide) hM) ?_
    | with_reducible refine loopsFresh_keeps (Sub.trans (by decide) hM) ?_
    | with_reducible refine loopAdopt_keeps (Sub.trans (by decide) hM) ?_
    | with_reducible refine loopStop_keeps (Sub.trans (by decide) hM) ?_
    | with_reducible refine skipBoundary_keeps (Sub.trans (by decide) hM) ?_
    | with_reducible refine walkBoundary_keeps (Sub.trans (by decide) hM) ?_
    | with_reducible refine rideWalk_keeps (Sub.trans (by decide) hM) ?_
    | with_reducible refine walkEnd_keeps (Sub.trans (by decide) hM) ?_
    | with_reducible refine publishLate_keeps (Sub.trans (by decide) hM) ?_
    | with_reducible refine publish_keeps (Sub.trans (by decide) hM) ?_
    | with_reducible refine resyncLoops_keeps (Sub.trans (by decide) hM) ?_
    | with_reducible refine later_keeps (Sub.trans (by decide) hM) ?_ | with_reducible refine keeps_ite (fun _ => ?_) (fun _ => ?_)
    | with_reducible refine keeps_id ?_ | with_reducible split

theorem loopCommit_keeps {M : Nat} {s : State} (hM : Sub 1048640 M) :
    ∀ {t : State} {a1}, Keeps M s t → Keeps M s (State.loopCommit t a1) := by
  intro _ _ h0
  unfold State.loopCommit
  repeat' first
    | with_reducible assumption | with_reducible refine countSave_keeps (Sub.trans (by decide) hM) ?_
    | with_reducible refine updLe_keeps (Sub.trans (by decide) hM) ?_
    | with_reducible refine loopAdopt_keeps (Sub.trans (by decide) hM) ?_
    | with_reducible refine keeps_ite (fun _ => ?_) (fun _ => ?_)

theorem loopLoad_keeps {M : Nat} {s : State} (hM : Sub 1048576 M) :
    ∀ {t : State} {a1 a2 a3 a4}, Keeps M s t → Keeps M s (State.loopLoad t a1 a2 a3 a4) := by
  intro _ _ _ _ _ h0
  unfold State.loopLoad
  repeat' first
    | with_reducible assumption | with_reducible refine updLe_keeps (Sub.trans (by decide) hM) ?_
    | with_reducible refine keeps_foldl ?_ ?_ | with_reducible refine keeps_foldlP ?_ ?_
    | with_reducible refine keeps_ite (fun _ => ?_) (fun _ => ?_) | with_reducible refine keeps_id ?_ | with_reducible split
    | with_reducible intro _

theorem larderPut_keeps {M : Nat} {s : State} (hM : Sub 1048640 M) :
    ∀ {t : State} {a1 a2 a3}, Keeps M s t → Keeps M s (State.larderPut t a1 a2 a3) := by
  intro _ _ _ _ h0
  unfold State.larderPut
  repeat' first
    | with_reducible assumption | with_reducible refine countSave_keeps (Sub.trans (by decide) hM) ?_
    | with_reducible refine updLe_keeps (Sub.trans (by decide) hM) ?_ | with_reducible refine keeps_foldl ?_ ?_
    | with_reducible refine keeps_foldlP ?_ ?_ | with_reducible refine keeps_ite (fun _ => ?_) (fun _ => ?_)
    | with_reducible refine keeps_id ?_ | with_reducible split | with_reducible intro _

theorem modPch_keeps {M : Nat} {s : State} (hM : Sub 16777216 M) :
    ∀ {t : State} {a1 a2}, Keeps M s t → Keeps M s (State.modPch t a1 a2) := by
  intro _ _ _ h0
  unfold State.modPch
  repeat' first
    | with_reducible assumption | with_reducible refine updPos_keeps (Sub.trans (by decide) hM) ?_

theorem cmpFire_keeps {M : Nat} {s : State} (hM : Sub 16785520 M) :
    ∀ {t : State} {a1 a2 a3}, Keeps M s t → Keeps M s (State.cmpFire t a1 a2 a3) := by
  intro _ _ _ _ h0
  unfold State.cmpFire
  repeat' first
    | with_reducible assumption | with_reducible refine setParam_keeps (Sub.trans (by decide) hM) ?_
    | with_reducible refine updPos_keeps (Sub.trans (by decide) hM) ?_
    | with_reducible refine bump_keeps (Sub.trans (by decide) hM) ?_
    | with_reducible refine note_keeps (Sub.trans (by decide) hM) ?_ | with_reducible refine keeps_ite (fun _ => ?_) (fun _ => ?_)

theorem cmpFireAll_keeps {M : Nat} {s : State} (hM : Sub 25174256 M) :
    ∀ {t : State} {a1 a2 a3}, Keeps M s t → Keeps M s (State.cmpFireAll t a1 a2 a3) := by
  intro _ _ _ _ h0
  unfold State.cmpFireAll
  repeat' first
    | with_reducible assumption | with_reducible refine cmpFire_keeps (Sub.trans (by decide) hM) ?_
    | with_reducible refine auxAct_keeps (Sub.trans (by decide) hM) ?_ | with_reducible refine keeps_foldl ?_ ?_
    | with_reducible refine keeps_foldlP ?_ ?_ | with_reducible refine keeps_ite (fun _ => ?_) (fun _ => ?_)
    | with_reducible refine keeps_id ?_ | with_reducible split | with_reducible intro _

theorem posInvalid_keeps {M : Nat} {s : State} (hM : Sub 25174256 M) :
    ∀ {t : State} {a1}, Keeps M s t → Keeps M s (State.posInvalid t a1) := by
  intro _ _ h0
  unfold State.posInvalid
  repeat' first
    | with_reducible assumption | with_reducible refine modPch_keeps (Sub.trans (by decide) hM) ?_
    | with_reducible refine cmpFireAll_keeps (Sub.trans (by decide) hM) ?_
    | with_reducible refine keeps_ite (fun _ => ?_) (fun _ => ?_)

theorem cmpCheck_keeps {M : Nat} {s : State} (hM : Sub 25174256 M) :
    ∀ {t : State} {a1 a2}, Keeps M s t → Keeps M s (State.cmpCheck t a1 a2) := by
  intro _ _ _ h0
  unfold State.cmpCheck
  repeat' first
    | with_reducible assumption | with_reducible refine cmpFireAll_keeps (Sub.trans (by decide) hM) ?_

theorem posMove_keeps {M : Nat} {s : State} (hM : Sub 25174256 M) :
    ∀ {t : State} {a1 a2 a3}, Keeps M s t → Keeps M s (State.posMove t a1 a2 a3) := by
  intro _ _ _ _ h0
  unfold State.posMove
  repeat' first
    | with_reducible assumption | with_reducible refine modPch_keeps (Sub.trans (by decide) hM) ?_
    | with_reducible refine cmpFireAll_keeps (Sub.trans (by decide) hM) ?_
    | with_reducible refine keeps_ite (fun _ => ?_) (fun _ => ?_)

theorem posJump_keeps {M : Nat} {s : State} (hM : Sub 25174256 M) :
    ∀ {t : State} {a1 a2 a3}, Keeps M s t → Keeps M s (State.posJump t a1 a2 a3) := by
  intro _ _ _ _ h0
  unfold State.posJump
  repeat' first
    | with_reducible assumption | with_reducible refine modPch_keeps (Sub.trans (by decide) hM) ?_
    | with_reducible refine cmpCheck_keeps (Sub.trans (by decide) hM) ?_

theorem posRef_keeps {M : Nat} {s : State} (hM : Sub 25174256 M) :
    ∀ {t : State} {a1 a2}, Keeps M s t → Keeps M s (State.posRef t a1 a2) := by
  intro _ _ _ h0
  unfold State.posRef
  repeat' first
    | with_reducible assumption | with_reducible refine modPch_keeps (Sub.trans (by decide) hM) ?_
    | with_reducible refine posJump_keeps (Sub.trans (by decide) hM) ?_
    | with_reducible refine note_keeps (Sub.trans (by decide) hM) ?_ | with_reducible refine keeps_ite (fun _ => ?_) (fun _ => ?_)
    | with_reducible refine keeps_id ?_ | with_reducible split

theorem posQuad_keeps {M : Nat} {s : State} (hM : Sub 25174264 M) :
    ∀ {t : State} {a1 a2 a3}, Keeps M s t → Keeps M s (State.posQuad t a1 a2 a3) := by
  intro _ _ _ _ h0
  unfold State.posQuad
  repeat' first
    | with_reducible assumption | with_reducible refine modPch_keeps (Sub.trans (by decide) hM) ?_
    | with_reducible refine posInvalid_keeps (Sub.trans (by decide) hM) ?_
    | with_reducible refine bump_keeps (Sub.trans (by decide) hM) ?_
    | with_reducible refine fire_keeps (Sub.trans (by decide) hM) ?_
    | with_reducible refine posMove_keeps (Sub.trans (by decide) hM) ?_
    | with_reducible refine keeps_ite (fun _ => ?_) (fun _ => ?_)

theorem toothRef_keeps {M : Nat} {s : State} (hM : Sub 25174264 M) :
    ∀ {t : State} {a1}, Keeps M s t → Keeps M s (State.toothRef t a1) := by
  intro _ _ h0
  unfold State.toothRef
  repeat' first
    | with_reducible assumption | with_reducible refine modPch_keeps (Sub.trans (by decide) hM) ?_
    | with_reducible refine fire_keeps (Sub.trans (by decide) hM) ?_
    | with_reducible refine posInvalid_keeps (Sub.trans (by decide) hM) ?_
    | with_reducible refine bump_keeps (Sub.trans (by decide) hM) ?_
    | with_reducible refine posRef_keeps (Sub.trans (by decide) hM) ?_ | with_reducible refine keeps_ite (fun _ => ?_) (fun _ => ?_)

theorem posTooth_keeps {M : Nat} {s : State} (hM : Sub 25174264 M) :
    ∀ {t : State} {a1}, Keeps M s t → Keeps M s (State.posTooth t a1) := by
  intro _ _ h0
  unfold State.posTooth
  repeat' first
    | with_reducible assumption | with_reducible refine posMove_keeps (Sub.trans (by decide) hM) ?_
    | with_reducible refine modPch_keeps (Sub.trans (by decide) hM) ?_
    | with_reducible refine toothRef_keeps (Sub.trans (by decide) hM) ?_
    | with_reducible refine keeps_ite (fun _ => ?_) (fun _ => ?_) | with_reducible refine keeps_id ?_ | with_reducible split
    | with_reducible intro _ | with_reducible dsimp only

theorem posWindow_keeps {M : Nat} {s : State} (hM : Sub 16777216 M) :
    ∀ {t : State} {a1 a2}, Keeps M s t → Keeps M s (State.posWindow t a1 a2) := by
  intro _ _ _ h0
  unfold State.posWindow
  repeat' first
    | with_reducible assumption | with_reducible refine modPch_keeps (Sub.trans (by decide) hM) ?_

theorem modSafe_keeps {M : Nat} {s : State} (hM : Sub 33554432 M) :
    ∀ {t : State} {a1}, Keeps M s t → Keeps M s (State.modSafe t a1) := by
  intro _ _ h0
  unfold State.modSafe
  repeat' first
    | with_reducible assumption | with_reducible refine updSafe_keeps (Sub.trans (by decide) hM) ?_

theorem safeNote_keeps {M : Nat} {s : State} (hM : Sub 8304 M) :
    ∀ {t : State} {a1}, Keeps M s t → Keeps M s (State.safeNote t a1) := by
  intro _ _ h0
  unfold State.safeNote
  repeat' first
    | with_reducible assumption | with_reducible refine note_keeps (Sub.trans (by decide) hM) ?_
    | with_reducible refine keeps_ite (fun _ => ?_) (fun _ => ?_) | with_reducible refine keeps_id ?_ | with_reducible split

theorem chipReset_keeps {M : Nat} {s : State} (hM : Sub 268435452 M) : ∀ {t : State} {a b : Nat}, Keeps M s t → Keeps M s (t.chipReset a b) := by
  intro t a b h
  unfold State.chipReset
  refine keeps_ite (fun _ => keeps_ite (fun _ => updSys_keeps (Sub.trans (by decide) hM) h) (fun _ => h)) (fun _ => ?_)
  refine freshChallenge_keeps (Sub.trans (by decide) hM) ?_
  refine tookFree_keeps (Sub.trans (by decide) hM) ?_
  refine updRing_keeps (Sub.trans (by decide) hM) ?_
  refine ⟨fun p hp => ?_, fun i => ⟨rfl, ⟨Nat.zero_le _, (h.inv i).faults.attic⟩, ?_⟩⟩
  · have hq := h.all p hp
    have key : ∀ i, Sub (2 ^ i) M → M.testBit i = false → False := fun i a b => by
      rw [Sub.bit i a] at b; cases b
    cases p
    all_goals first
      | exact hq | exact (key 2 (Sub.trans (by decide) hM) hp).elim | exact (key 3 (Sub.trans (by decide) hM) hp).elim
      | exact (key 4 (Sub.trans (by decide) hM) hp).elim | exact (key 5 (Sub.trans (by decide) hM) hp).elim
      | exact (key 6 (Sub.trans (by decide) hM) hp).elim | exact (key 7 (Sub.trans (by decide) hM) hp).elim
      | exact (key 8 (Sub.trans (by decide) hM) hp).elim | exact (key 9 (Sub.trans (by decide) hM) hp).elim
      | exact (key 10 (Sub.trans (by decide) hM) hp).elim | exact (key 11 (Sub.trans (by decide) hM) hp).elim
      | exact (key 12 (Sub.trans (by decide) hM) hp).elim | exact (key 13 (Sub.trans (by decide) hM) hp).elim
      | exact (key 14 (Sub.trans (by decide) hM) hp).elim | exact (key 15 (Sub.trans (by decide) hM) hp).elim
      | exact (key 16 (Sub.trans (by decide) hM) hp).elim | exact (key 17 (Sub.trans (by decide) hM) hp).elim
      | exact (key 18 (Sub.trans (by decide) hM) hp).elim | exact (key 19 (Sub.trans (by decide) hM) hp).elim
      | exact (key 20 (Sub.trans (by decide) hM) hp).elim | exact (key 21 (Sub.trans (by decide) hM) hp).elim
      | exact (key 22 (Sub.trans (by decide) hM) hp).elim | exact (key 23 (Sub.trans (by decide) hM) hp).elim
      | exact (key 24 (Sub.trans (by decide) hM) hp).elim | exact (key 25 (Sub.trans (by decide) hM) hp).elim
      | exact (key 26 (Sub.trans (by decide) hM) hp).elim | exact (key 27 (Sub.trans (by decide) hM) hp).elim
  · exact (⟨by decide, by decide, by decide, by decide, by decide, by decide, by decide⟩ : Notif.Ok {})

theorem holdEnd_keeps {M : Nat} {s : State} (hM : Sub 256 M) :
    ∀ {t : State} {a1}, Keeps M s t → Keeps M s (State.holdEnd t a1) := by
  intro _ _ h0
  unfold State.holdEnd
  repeat' first
    | with_reducible assumption | with_reducible refine updSys_keeps (Sub.trans (by decide) hM) ?_

theorem endOfReset_keeps {M : Nat} {s : State} (hM : Sub 11024 M) :
    ∀ {t : State} {a1}, Keeps M s t → Keeps M s (State.endOfReset t a1) := by
  intro _ _ h0
  unfold State.endOfReset
  repeat' first
    | with_reducible assumption | with_reducible refine updTwin_keeps (Sub.trans (by decide) hM) ?_
    | with_reducible refine updTime_keeps (Sub.trans (by decide) hM) ?_
    | with_reducible refine updSys_keeps (Sub.trans (by decide) hM) ?_
    | with_reducible refine updPantry_keeps (Sub.trans (by decide) hM) ?_ ?_
    | with_reducible refine updHatch_keeps (Sub.trans (by decide) hM) ?_
    | with_reducible refine keeps_ite (fun _ => ?_) (fun _ => ?_) | with_reducible refine keeps_id ?_ | (intro hi; exact hi.mem)

theorem resetReport_keeps {M : Nat} {s : State} (hM : Sub 8304 M) :
    ∀ {t : State}, Keeps M s t → Keeps M s (State.resetReport t) := by
  intro _ h0
  unfold State.resetReport
  repeat' first
    | with_reducible assumption | with_reducible refine note_keeps (Sub.trans (by decide) hM) ?_

theorem restoreParams_keeps {M : Nat} {s : State} (hM : Sub 64 M) :
    ∀ {t : State}, Keeps M s t → Keeps M s (State.restoreParams t) := by
  intro _ h0
  unfold State.restoreParams
  repeat' first
    | with_reducible assumption | with_reducible refine updPar_keeps (Sub.trans (by decide) hM) ?_

theorem restoreTables_keeps {M : Nat} {s : State} (hM : Sub 1081344 M) :
    ∀ {t : State}, Keeps M s t → Keeps M s (State.restoreTables t) := by
  intro _ h0
  unfold State.restoreTables
  repeat' first
    | with_reducible assumption | with_reducible refine updLe_keeps (Sub.trans (by decide) hM) ?_
    | with_reducible refine updRoll_keeps (Sub.trans (by decide) hM) ?_

theorem restoreFaults_keeps {M : Nat} {s : State} (hM : Sub 144 M) :
    ∀ {t : State}, Keeps M s t → Keeps M s (State.restoreFaults t) := by
  intro _ h0
  unfold State.restoreFaults
  repeat' first
    | with_reducible assumption | with_reducible refine faultPin_keeps (Sub.trans (by decide) hM) ?_
    | with_reducible refine updFaults_keeps (Sub.trans (by decide) hM) ?_ ?_
    | with_reducible refine keeps_ite (fun _ => ?_) (fun _ => ?_) | with_reducible refine keeps_id ?_
    | (intro hi; obtain ⟨a, b⟩ := hi.faults; refine ⟨?_, ?_⟩ <;> first | assumption | (simp [recSet]; done) | (simp only [recSet, List.length_map, List.length_append, List.length_take, List.length_cons, List.length_nil]; omega) | exact Nat.le_trans (List.length_filter_le _ _) a)

theorem restoreTherm_keeps {M : Nat} {s : State} (hM : Sub 5185776 M) :
    ∀ {t : State}, Keeps M s t → Keeps M s (State.restoreTherm t) := by
  intro _ h0
  unfold State.restoreTherm
  repeat' first
    | with_reducible assumption | with_reducible refine updHk_keeps (Sub.trans (by decide) hM) ?_
    | with_reducible refine tripMask_keeps (Sub.trans (by decide) hM) ?_
    | with_reducible refine updFaults_keeps (Sub.trans (by decide) hM) ?_ ?_ | with_reducible refine keeps_foldl ?_ ?_
    | with_reducible refine keeps_foldlP ?_ ?_ | with_reducible refine keeps_ite (fun _ => ?_) (fun _ => ?_)
    | with_reducible refine keeps_id ?_
    | (intro hi; obtain ⟨a, b⟩ := hi.faults; refine ⟨?_, ?_⟩ <;> first | assumption | (simp [recSet]; done) | (simp only [recSet, List.length_map, List.length_append, List.length_take, List.length_cons, List.length_nil]; omega) | exact Nat.le_trans (List.length_filter_le _ _) a)
    | with_reducible split | with_reducible intro _

theorem ubferStart_keeps {M : Nat} {s : State} (hM : Sub 207616508 M) :
    ∀ {t : State}, Keeps M s t → Keeps M s (State.ubferStart t) := by
  intro _ h0
  unfold State.ubferStart
  repeat' first
    | with_reducible assumption | with_reducible refine restoreTherm_keeps (Sub.trans (by decide) hM) ?_
    | with_reducible refine restoreFaults_keeps (Sub.trans (by decide) hM) ?_
    | with_reducible refine restoreTables_keeps (Sub.trans (by decide) hM) ?_
    | with_reducible refine restoreParams_keeps (Sub.trans (by decide) hM) ?_
    | with_reducible refine enRestore_keeps (Sub.trans (by decide) hM) ?_
    | with_reducible refine keysAtStart_keeps (Sub.trans (by decide) hM) ?_
    | with_reducible refine tampCopy_keeps (Sub.trans (by decide) hM) ?_
    | with_reducible refine batteryFound_keeps (Sub.trans (by decide) hM) ?_
    | with_reducible refine updSys_keeps (Sub.trans (by decide) hM) ?_
    | with_reducible refine updPantry_keeps (Sub.trans (by decide) hM) ?_ ?_
    | with_reducible refine enAllLimits_keeps (Sub.trans (by decide) hM) ?_
    | with_reducible refine resetReport_keeps (Sub.trans (by decide) hM) ?_
    | with_reducible refine updLanes_keeps (Sub.trans (by decide) hM) ?_
    | with_reducible refine fwActivated_keeps (Sub.trans (by decide) hM) ?_
    | with_reducible refine updFw_keeps (Sub.trans (by decide) hM) ?_ | with_reducible refine keeps_ite (fun _ => ?_) (fun _ => ?_)
    | with_reducible refine keeps_id ?_ | (intro hi; exact hi.mem) | with_reducible split | with_reducible intro _
    | with_reducible dsimp only

theorem blockReset_keeps {M : Nat} {s : State} (hM : Sub 30370044 M) :
    ∀ {t : State} {a1 a2}, Keeps M s t → Keeps M s (State.blockReset t a1 a2) := by
  intro _ _ _ h0
  unfold State.blockReset
  repeat' first
    | with_reducible assumption | with_reducible refine freshAttempt_keeps (Sub.trans (by decide) hM) ?_
    | with_reducible refine setLane_keeps (Sub.trans (by decide) hM) ?_
    | with_reducible refine modRack_keeps (Sub.trans (by decide) hM) ?_
    | with_reducible refine hkReset_keeps (Sub.trans (by decide) hM) ?_
    | with_reducible refine auxAct_keeps (Sub.trans (by decide) hM) ?_
    | with_reducible refine posInvalid_keeps (Sub.trans (by decide) hM) ?_
    | with_reducible refine modPch_keeps (Sub.trans (by decide) hM) ?_ | with_reducible refine keeps_foldl ?_ ?_
    | with_reducible refine keeps_foldlP ?_ ?_ | with_reducible refine keeps_ite (fun _ => ?_) (fun _ => ?_)
    | with_reducible refine keeps_id ?_ | with_reducible split | with_reducible intro _

theorem svcChange_keeps {M : Nat} {s : State} (hM : Sub 2173688 M) :
    ∀ {t : State} {a1 a2}, Keeps M s t → Keeps M s (State.svcChange t a1 a2) := by
  intro _ _ _ h0
  unfold State.svcChange
  repeat' first
    | with_reducible assumption | with_reducible refine timeRefresh_keeps (Sub.trans (by decide) hM) ?_
    | with_reducible refine cond_keeps (Sub.trans (by decide) hM) ?_
    | with_reducible refine updTwin_keeps (Sub.trans (by decide) hM) ?_
    | with_reducible refine twinLinkWatch_keeps (Sub.trans (by decide) hM) ?_
    | with_reducible refine twRole_keeps (Sub.trans (by decide) hM) ?_ | with_reducible refine keeps_ite (fun _ => ?_) (fun _ => ?_)

theorem roleFollow_keeps {M : Nat} {s : State} (hM : Sub 211888888 M) :
    ∀ {t : State}, Keeps M s t → Keeps M s (State.roleFollow t) := by
  intro _ h0
  unfold State.roleFollow
  repeat' first
    | with_reducible assumption | with_reducible refine paramRole_keeps (Sub.trans (by decide) hM) ?_
    | with_reducible refine modLink_keeps (Sub.trans (by decide) hM) ?_
    | with_reducible refine discardHeld_keeps (Sub.trans (by decide) hM) ?_
    | with_reducible refine updRing_keeps (Sub.trans (by decide) hM) ?_
    | with_reducible refine masterRole_keeps (Sub.trans (by decide) hM) ?_
    | with_reducible refine auxWatch_keeps (Sub.trans (by decide) hM) ?_
    | with_reducible refine twRole_keeps (Sub.trans (by decide) hM) ?_
    | with_reducible refine timeRefresh_keeps (Sub.trans (by decide) hM) ?_
    | with_reducible refine enAllLimits_keeps (Sub.trans (by decide) hM) ?_
    | with_reducible refine imageEnd_keeps (Sub.trans (by decide) hM) ?_ | with_reducible refine keeps_foldl ?_ ?_
    | with_reducible refine keeps_foldlP ?_ ?_ | with_reducible refine keeps_ite (fun _ => ?_) (fun _ => ?_)
    | with_reducible refine keeps_id ?_ | with_reducible split | with_reducible intro _

theorem hkMoved_keeps {M : Nat} {s : State} (hM : Sub 4194304 M) :
    ∀ {t : State} {a1}, Keeps M s t → Keeps M s (State.hkMoved t a1) := by
  intro _ _ h0
  unfold State.hkMoved
  repeat' first
    | with_reducible assumption | with_reducible refine updHk_keeps (Sub.trans (by decide) hM) ?_
    | with_reducible refine keeps_ite (fun _ => ?_) (fun _ => ?_)

end Sys2Proof.Machine
end

