-- ==== Sys2Proof/Machine/Frame5.lean ====
section
/-!
DEFINITION. Frames, part 5: the functions from scaleMoved to execRackPllLockStart, in the order of their calls. Each lemma says
which parts its function may change (a mask over Part.bit) and that it keeps the bounds of State.Inv.
-/

namespace Sys2Proof.Machine

set_option linter.unreachableTactic false
set_option linter.unusedTactic false
set_option linter.unusedSimpArgs false

theorem scaleMoved_keeps {M : Nat} {s : State} (hM : Sub 89128960 M) :
    ∀ {t : State} {a1}, Keeps M s t → Keeps M s (State.scaleMoved t a1) := by
  intro _ _ h0
  unfold State.scaleMoved
  repeat' first
    | with_reducible assumption | with_reducible refine hkMoved_keeps (Sub.trans (by decide) hM) ?_
    | with_reducible refine updLe_keeps (Sub.trans (by decide) hM) ?_
    | with_reducible refine modPch_keeps (Sub.trans (by decide) hM) ?_
    | with_reducible refine modEn_keeps (Sub.trans (by decide) hM) ?_ | with_reducible refine keeps_foldl ?_ ?_
    | with_reducible refine keeps_foldlP ?_ ?_ | with_reducible refine keeps_ite (fun _ => ?_) (fun _ => ?_)
    | with_reducible refine keeps_id ?_ | with_reducible split | with_reducible intro _

theorem summarySend_keeps {M : Nat} {s : State} (hM : Sub 2162688 M) :
    ∀ {t : State} {a1}, Keeps M s t → Keeps M s (State.summarySend t a1) := by
  intro _ _ h0
  unfold State.summarySend
  repeat' first
    | with_reducible assumption | with_reducible refine ringSend_keeps (Sub.trans (by decide) hM) ?_
    | with_reducible refine updRing_keeps (Sub.trans (by decide) hM) ?_

theorem summaries_keeps {M : Nat} {s : State} (hM : Sub 2164740 M) :
    ∀ {t : State}, Keeps M s t → Keeps M s (State.summaries t) := by
  intro _ h0
  unfold State.summaries
  repeat' first
    | with_reducible assumption | with_reducible refine summarySend_keeps (Sub.trans (by decide) hM) ?_
    | with_reducible refine resyncSend_keeps (Sub.trans (by decide) hM) ?_ | with_reducible refine keeps_foldl ?_ ?_
    | with_reducible refine keeps_foldlP ?_ ?_ | with_reducible refine keeps_ite (fun _ => ?_) (fun _ => ?_)
    | with_reducible refine keeps_id ?_ | with_reducible split | with_reducible intro _

theorem act_keeps {M : Nat} {s : State} (hM : Sub 268435452 M) :
    ∀ {t : State} {a1}, Keeps M s t → Keeps M s (State.act t a1) := by
  intro _ _ h0
  unfold State.act
  repeat' first
    | with_reducible assumption | with_reducible refine blockReset_keeps (Sub.trans (by decide) hM) ?_
    | with_reducible refine imageLost_keeps (Sub.trans (by decide) hM) ?_
    | with_reducible refine lostMember_keeps (Sub.trans (by decide) hM) ?_
    | with_reducible refine trip_keeps (Sub.trans (by decide) hM) ?_
    | with_reducible refine urgentBypass_keeps (Sub.trans (by decide) hM) ?_
    | with_reducible refine svcChange_keeps (Sub.trans (by decide) hM) ?_
    | with_reducible refine dtFloorRead_keeps (Sub.trans (by decide) hM) ?_
    | with_reducible refine enSample_keeps (Sub.trans (by decide) hM) ?_
    | with_reducible refine rideSample_keeps (Sub.trans (by decide) hM) ?_
    | with_reducible refine protSample_keeps (Sub.trans (by decide) hM) ?_
    | with_reducible refine thermHealth_keeps (Sub.trans (by decide) hM) ?_
    | with_reducible refine healthTaken_keeps (Sub.trans (by decide) hM) ?_
    | with_reducible refine faultTaken_keeps (Sub.trans (by decide) hM) ?_
    | with_reducible refine surrender_keeps (Sub.trans (by decide) hM) ?_
    | with_reducible refine chipReset_keeps (Sub.trans (by decide) hM) ?_
    | with_reducible refine imageSent_keeps (Sub.trans (by decide) hM) ?_
    | with_reducible refine roleFollow_keeps (Sub.trans (by decide) hM) ?_
    | with_reducible refine scaleMoved_keeps (Sub.trans (by decide) hM) ?_
    | with_reducible refine enAllLimits_keeps (Sub.trans (by decide) hM) ?_
    | with_reducible refine summaries_keeps (Sub.trans (by decide) hM) ?_
    | with_reducible refine keeps_ite (fun _ => ?_) (fun _ => ?_) | with_reducible refine keeps_id ?_ | with_reducible split

theorem settleN_keeps {M : Nat} {s : State} (hM : Sub 268435452 M) : ∀ {n : Nat} {t : State}, Keeps M s t → Keeps M s (State.settleN n t) := by
  intro n
  induction n with
  | zero => intro t h; exact h | succ n ih =>
    intro t h
    unfold State.settleN
    split
    · exact h
    · exact ih (act_keeps (Sub.trans (by decide) hM) (updTodo_keeps (Sub.trans (by decide) hM) h))

theorem rideWatch_keeps {M : Nat} {s : State} (hM : Sub 335988 M) :
    ∀ {t : State}, Keeps M s t → Keeps M s (State.rideWatch t) := by
  intro _ h0
  unfold State.rideWatch
  repeat' first
    | with_reducible assumption | with_reducible refine rideReached_keeps (Sub.trans (by decide) hM) ?_
    | with_reducible refine note_keeps (Sub.trans (by decide) hM) ?_ | with_reducible refine keeps_ite (fun _ => ?_) (fun _ => ?_)
    | with_reducible refine keeps_id ?_ | with_reducible split

theorem settle_keeps {M : Nat} {s : State} (hM : Sub 268435452 M) :
    ∀ {t : State}, Keeps M s t → Keeps M s (State.settle t) := by
  intro _ h0
  unfold State.settle
  exact settleN_keeps (Sub.trans (by decide) hM) (rideWatch_keeps (Sub.trans (by decide) hM) (settleN_keeps (Sub.trans (by decide) hM) h0))

theorem done_keeps {M : Nat} {s : State} (hM : Sub 268435452 M) :
    ∀ {t : State}, Keeps M s t → KeepsO M s (State.done t) := by
  intro _ h0
  unfold State.done
  exact keepsO_next (settle_keeps (Sub.trans (by decide) hM) h0)

theorem execAuxPeriodBoundary_keeps {M : Nat} {s : State} (hM : Sub 268435452 M) :
    ∀ {t : State} {a1}, Keeps M s t → KeepsO M s (execAuxPeriodBoundary a1 t) := by
  intro _ _ h0
  unfold execAuxPeriodBoundary
  repeat' first
    | with_reducible assumption | with_reducible refine done_keeps (Sub.trans (by decide) hM) ?_
    | with_reducible refine auxBoundary_keeps (Sub.trans (by decide) hM) ?_
    | with_reducible refine keeps_ite (fun _ => ?_) (fun _ => ?_) | with_reducible refine keeps_id ?_
    | with_reducible refine keepsO_next ?_ | with_reducible refine keepsO_ite (fun _ => ?_) (fun _ => ?_)

theorem hsUnder_keeps {M : Nat} {s : State} (hM : Sub 8388608 M) :
    ∀ {t : State} {a1 a2}, Keeps M s t → Keeps M s (State.hsUnder t a1 a2) := by
  intro _ _ _ h0
  unfold State.hsUnder
  repeat' first
    | with_reducible assumption | with_reducible refine modBr_keeps (Sub.trans (by decide) hM) ?_
    | with_reducible refine modAph_keeps (Sub.trans (by decide) hM) ?_
    | with_reducible refine swOff_keeps (Sub.trans (by decide) hM) ?_

theorem auxEdge_keeps {M : Nat} {s : State} (hM : Sub 8397048 M) :
    ∀ {t : State} {a1 a2}, Keeps M s t → Keeps M s (State.auxEdge t a1 a2) := by
  intro _ _ _ h0
  unfold State.auxEdge
  repeat' first
    | with_reducible assumption | with_reducible refine fire_keeps (Sub.trans (by decide) hM) ?_
    | with_reducible refine hsUnder_keeps (Sub.trans (by decide) hM) ?_
    | with_reducible refine tryOn_keeps (Sub.trans (by decide) hM) ?_
    | with_reducible refine swOff_keeps (Sub.trans (by decide) hM) ?_
    | with_reducible refine modAph_keeps (Sub.trans (by decide) hM) ?_ | with_reducible refine keeps_ite (fun _ => ?_) (fun _ => ?_)

theorem execAuxScheduledEdge_keeps {M : Nat} {s : State} (hM : Sub 268435452 M) :
    ∀ {t : State} {a1}, Keeps M s t → KeepsO M s (execAuxScheduledEdge a1 t) := by
  intro _ _ h0
  unfold execAuxScheduledEdge
  repeat' first
    | with_reducible assumption | with_reducible refine done_keeps (Sub.trans (by decide) hM) ?_
    | with_reducible refine auxEdge_keeps (Sub.trans (by decide) hM) ?_
    | with_reducible refine modBr_keeps (Sub.trans (by decide) hM) ?_ | with_reducible refine keeps_ite (fun _ => ?_) (fun _ => ?_)
    | with_reducible refine keeps_id ?_ | with_reducible refine keepsO_next ?_
    | with_reducible refine keepsO_ite (fun _ => ?_) (fun _ => ?_) | with_reducible split

theorem execAuxOffRise_keeps {M : Nat} {s : State} (hM : Sub 268435452 M) :
    ∀ {t : State} {a1 a2}, Keeps M s t → KeepsO M s (execAuxOffRise a1 a2 t) := by
  intro _ _ _ h0
  unfold execAuxOffRise
  repeat' first
    | with_reducible assumption | with_reducible refine condOff_keeps (Sub.trans (by decide) hM) ?_
    | with_reducible refine modSw_keeps (Sub.trans (by decide) hM) ?_
    | with_reducible refine done_keeps (Sub.trans (by decide) hM) ?_
    | with_reducible refine bump_keeps (Sub.trans (by decide) hM) ?_
    | with_reducible refine swOn_keeps (Sub.trans (by decide) hM) ?_
    | with_reducible refine shortFail_keeps (Sub.trans (by decide) hM) ?_
    | with_reducible refine dropJudge_keeps (Sub.trans (by decide) hM) ?_
    | with_reducible refine keeps_ite (fun _ => ?_) (fun _ => ?_) | with_reducible refine keeps_id ?_
    | with_reducible refine keepsO_next ?_ | with_reducible refine keepsO_ite (fun _ => ?_) (fun _ => ?_)

theorem execAuxConfTimeoutExpire_keeps {M : Nat} {s : State} (hM : Sub 268435452 M) :
    ∀ {t : State} {a1 a2}, Keeps M s t → KeepsO M s (execAuxConfTimeoutExpire a1 a2 t) := by
  intro _ _ _ h0
  unfold execAuxConfTimeoutExpire
  repeat' first
    | with_reducible assumption | with_reducible refine fire_keeps (Sub.trans (by decide) hM) ?_
    | with_reducible refine bump_keeps (Sub.trans (by decide) hM) ?_
    | with_reducible refine modSw_keeps (Sub.trans (by decide) hM) ?_
    | with_reducible refine modAph_keeps (Sub.trans (by decide) hM) ?_
    | with_reducible refine done_keeps (Sub.trans (by decide) hM) ?_
    | with_reducible refine shortFail_keeps (Sub.trans (by decide) hM) ?_
    | with_reducible refine auxTryJudge_keeps (Sub.trans (by decide) hM) ?_
    | with_reducible refine keeps_ite (fun _ => ?_) (fun _ => ?_) | with_reducible refine keeps_id ?_
    | with_reducible refine keepsO_next ?_ | with_reducible refine keepsO_ite (fun _ => ?_) (fun _ => ?_) | with_reducible split

theorem execAuxOffStuckTimeout_keeps {M : Nat} {s : State} (hM : Sub 268435452 M) :
    ∀ {t : State} {a1 a2}, Keeps M s t → KeepsO M s (execAuxOffStuckTimeout a1 a2 t) := by
  intro _ _ _ h0
  unfold execAuxOffStuckTimeout
  repeat' first
    | with_reducible assumption | with_reducible refine done_keeps (Sub.trans (by decide) hM) ?_
    | with_reducible refine condOn_keeps (Sub.trans (by decide) hM) ?_ | with_reducible refine keeps_ite (fun _ => ?_) (fun _ => ?_)
    | with_reducible refine keeps_id ?_ | with_reducible refine keepsO_next ?_
    | with_reducible refine keepsO_ite (fun _ => ?_) (fun _ => ?_) | with_reducible split | with_reducible intro _
    | with_reducible dsimp only

theorem execAuxSgEdge_keeps {M : Nat} {s : State} (hM : Sub 8388608 M) :
    ∀ {t : State} {a1 a2 a3}, Keeps M s t → KeepsO M s (execAuxSgEdge a1 a2 a3 t) := by
  intro _ _ _ _ h0
  unfold execAuxSgEdge
  repeat' first
    | with_reducible assumption | with_reducible refine modSw_keeps (Sub.trans (by decide) hM) ?_
    | with_reducible refine keeps_ite (fun _ => ?_) (fun _ => ?_) | with_reducible refine keeps_id ?_
    | with_reducible refine keepsO_next ?_ | with_reducible refine keepsO_ite (fun _ => ?_) (fun _ => ?_)

theorem execAuxSgFilterExpire_keeps {M : Nat} {s : State} (hM : Sub 268435452 M) :
    ∀ {t : State} {a1 a2}, Keeps M s t → KeepsO M s (execAuxSgFilterExpire a1 a2 t) := by
  intro _ _ _ h0
  unfold execAuxSgFilterExpire
  repeat' first
    | with_reducible assumption | with_reducible refine bump_keeps (Sub.trans (by decide) hM) ?_
    | with_reducible refine modSw_keeps (Sub.trans (by decide) hM) ?_
    | with_reducible refine dropJudge_keeps (Sub.trans (by decide) hM) ?_
    | with_reducible refine swOff_keeps (Sub.trans (by decide) hM) ?_
    | with_reducible refine done_keeps (Sub.trans (by decide) hM) ?_
    | with_reducible refine shortFail_keeps (Sub.trans (by decide) hM) ?_
    | with_reducible refine condOn_keeps (Sub.trans (by decide) hM) ?_
    | with_reducible refine condOff_keeps (Sub.trans (by decide) hM) ?_
    | with_reducible refine keeps_ite (fun _ => ?_) (fun _ => ?_) | with_reducible refine keeps_id ?_
    | with_reducible refine keepsO_next ?_ | with_reducible refine keepsO_ite (fun _ => ?_) (fun _ => ?_)

theorem execAuxNodeChange_keeps {M : Nat} {s : State} (hM : Sub 268435452 M) :
    ∀ {t : State} {a1 a2 a3}, Keeps M s t → KeepsO M s (execAuxNodeChange a1 a2 a3 t) := by
  intro _ _ _ _ h0
  unfold execAuxNodeChange
  repeat' first
    | with_reducible assumption | with_reducible refine modAph_keeps (Sub.trans (by decide) hM) ?_
    | with_reducible refine done_keeps (Sub.trans (by decide) hM) ?_
    | with_reducible refine auxTryJudge_keeps (Sub.trans (by decide) hM) ?_

theorem execAuxNodeWindowEnd_keeps {M : Nat} {s : State} (hM : Sub 268435452 M) :
    ∀ {t : State} {a1 a2}, Keeps M s t → KeepsO M s (execAuxNodeWindowEnd a1 a2 t) := by
  intro _ _ _ h0
  unfold execAuxNodeWindowEnd
  repeat' first
    | with_reducible assumption | with_reducible refine done_keeps (Sub.trans (by decide) hM) ?_
    | with_reducible refine auxTryJudge_keeps (Sub.trans (by decide) hM) ?_

theorem execAuxTripPinEdge_keeps {M : Nat} {s : State} (hM : Sub 8388608 M) :
    ∀ {t : State} {a1 a2 a3}, Keeps M s t → KeepsO M s (execAuxTripPinEdge a1 a2 a3 t) := by
  intro _ _ _ _ h0
  unfold execAuxTripPinEdge
  repeat' first
    | with_reducible assumption | with_reducible refine modBr_keeps (Sub.trans (by decide) hM) ?_
    | with_reducible refine keeps_ite (fun _ => ?_) (fun _ => ?_) | with_reducible refine keeps_id ?_
    | with_reducible refine keepsO_next ?_

theorem execAuxTripActive_keeps {M : Nat} {s : State} (hM : Sub 268435452 M) :
    ∀ {t : State} {a1 a2}, Keeps M s t → KeepsO M s (execAuxTripActive a1 a2 t) := by
  intro _ _ _ h0
  unfold execAuxTripActive
  repeat' first
    | with_reducible assumption | with_reducible refine done_keeps (Sub.trans (by decide) hM) ?_
    | with_reducible refine auxTrip_keeps (Sub.trans (by decide) hM) ?_
    | with_reducible refine keeps_ite (fun _ => ?_) (fun _ => ?_) | with_reducible refine keeps_id ?_
    | with_reducible refine keepsO_next ?_ | with_reducible refine keepsO_ite (fun _ => ?_) (fun _ => ?_)

theorem execAuxDriveStart_keeps {M : Nat} {s : State} (hM : Sub 268435452 M) :
    ∀ {t : State}, Keeps M s t → KeepsO M s (execAuxDriveStart t) := by
  intro _ h0
  unfold execAuxDriveStart
  repeat' first
    | with_reducible assumption | with_reducible refine done_keeps (Sub.trans (by decide) hM) ?_
    | with_reducible refine auxStart_keeps (Sub.trans (by decide) hM) ?_
    | with_reducible refine keeps_ite (fun _ => ?_) (fun _ => ?_) | with_reducible refine keeps_id ?_
    | with_reducible refine keepsO_next ?_ | with_reducible refine keepsO_ite (fun _ => ?_) (fun _ => ?_)

theorem execAuxTripClear_keeps {M : Nat} {s : State} (hM : Sub 268435452 M) :
    ∀ {t : State} {a1}, Keeps M s t → KeepsO M s (execAuxTripClear a1 t) := by
  intro _ _ h0
  unfold execAuxTripClear
  repeat' first
    | with_reducible assumption | with_reducible refine done_keeps (Sub.trans (by decide) hM) ?_
    | with_reducible refine withWrite_keeps (Sub.trans (by decide) hM) ?_ ?_
    | with_reducible refine refuse_keeps (Sub.trans (by decide) hM) ?_
    | with_reducible refine finishWrite_keeps (Sub.trans (by decide) hM) ?_
    | with_reducible refine auxClear_keeps (Sub.trans (by decide) hM) ?_ | with_reducible refine keeps_foldl ?_ ?_
    | with_reducible refine keeps_foldlP ?_ ?_ | with_reducible refine keeps_ite (fun _ => ?_) (fun _ => ?_)
    | with_reducible refine keeps_id ?_ | with_reducible refine keepsO_next ?_
    | with_reducible refine keepsO_ite (fun _ => ?_) (fun _ => ?_) | with_reducible split | with_reducible intro _

theorem execAuxSafe_keeps {M : Nat} {s : State} (hM : Sub 268435452 M) :
    ∀ {t : State} {a1}, Keeps M s t → KeepsO M s (execAuxSafe a1 t) := by
  intro _ _ h0
  unfold execAuxSafe
  repeat' first
    | with_reducible assumption | with_reducible refine done_keeps (Sub.trans (by decide) hM) ?_
    | with_reducible refine withWrite_keeps (Sub.trans (by decide) hM) ?_ ?_
    | with_reducible refine refuse_keeps (Sub.trans (by decide) hM) ?_
    | with_reducible refine finishWrite_keeps (Sub.trans (by decide) hM) ?_
    | with_reducible refine auxAct_keeps (Sub.trans (by decide) hM) ?_ | with_reducible refine keeps_ite (fun _ => ?_) (fun _ => ?_)
    | with_reducible refine keeps_id ?_ | with_reducible refine keepsO_next ?_
    | with_reducible refine keepsO_ite (fun _ => ?_) (fun _ => ?_) | with_reducible split | with_reducible intro _

theorem onRx_keeps {M : Nat} {s : State} (hM : Sub 268435452 M) : ∀ {t : State} {e : Nat} {f : State → State},
    Keeps M s t → (∀ u, Keeps M s u → Keeps M s (f u)) → KeepsO M s (t.onRx e f) := by
  intro t e f h hf
  unfold State.onRx
  refine keepsO_ite (fun _ => ?_) (fun _ => keepsO_next h)
  exact done_keeps (Sub.trans (by decide) hM) (hf _ h)

theorem execMisdirectedRx_keeps {M : Nat} {s : State} (hM : Sub 268435452 M) :
    ∀ {t : State} {a1 a2}, Keeps M s t → KeepsO M s (execMisdirectedRx a1 a2 t) := by
  intro _ _ _ h0
  unfold execMisdirectedRx
  repeat' first
    | with_reducible assumption | with_reducible refine onRx_keeps (Sub.trans (by decide) hM) ?_ ?_
    | with_reducible refine svcTake_keeps (Sub.trans (by decide) hM) ?_ ?_
    | with_reducible refine bump_keeps (Sub.trans (by decide) hM) ?_ | with_reducible refine keeps_ite (fun _ => ?_) (fun _ => ?_)
    | with_reducible refine keeps_id ?_ | with_reducible refine keepsO_next ?_
    | with_reducible refine keepsO_ite (fun _ => ?_) (fun _ => ?_) | with_reducible split | with_reducible intro _

theorem execIdleBlockRx_keeps {M : Nat} {s : State} (hM : Sub 268435452 M) :
    ∀ {t : State} {a1 a2}, Keeps M s t → KeepsO M s (execIdleBlockRx a1 a2 t) := by
  intro _ _ _ h0
  unfold execIdleBlockRx
  repeat' first
    | with_reducible assumption | with_reducible refine onRx_keeps (Sub.trans (by decide) hM) ?_ ?_
    | with_reducible refine rxPort_keeps (Sub.trans (by decide) hM) ?_ ?_
    | with_reducible refine svcTake_keeps (Sub.trans (by decide) hM) ?_ ?_
    | with_reducible refine keeps_ite (fun _ => ?_) (fun _ => ?_) | with_reducible refine keeps_id ?_
    | with_reducible refine keepsO_next ?_ | with_reducible refine keepsO_ite (fun _ => ?_) (fun _ => ?_) | with_reducible split
    | with_reducible intro _

theorem execSampleRx_keeps {M : Nat} {s : State} (hM : Sub 268435452 M) :
    ∀ {t : State} {a1 a2 a3}, Keeps M s t → KeepsO M s (execSampleRx a1 a2 a3 t) := by
  intro _ _ _ _ h0
  unfold execSampleRx
  repeat' first
    | with_reducible assumption | with_reducible refine onRx_keeps (Sub.trans (by decide) hM) ?_ ?_
    | with_reducible refine rxCommon_keeps (Sub.trans (by decide) hM) ?_
    | with_reducible refine bump_keeps (Sub.trans (by decide) hM) ?_
    | with_reducible refine later_keeps (Sub.trans (by decide) hM) ?_
    | with_reducible refine modLink_keeps (Sub.trans (by decide) hM) ?_ | with_reducible refine keeps_foldl ?_ ?_
    | with_reducible refine keeps_foldlP ?_ ?_ | with_reducible refine keeps_ite (fun _ => ?_) (fun _ => ?_)
    | with_reducible refine keeps_id ?_ | with_reducible refine keepsO_next ?_
    | with_reducible refine keepsO_ite (fun _ => ?_) (fun _ => ?_) | with_reducible split | with_reducible intro _

theorem execHealthRx_keeps {M : Nat} {s : State} (hM : Sub 268435452 M) :
    ∀ {t : State} {a1 a2 a3}, Keeps M s t → KeepsO M s (execHealthRx a1 a2 a3 t) := by
  intro _ _ _ _ h0
  unfold execHealthRx
  repeat' first
    | with_reducible assumption | with_reducible refine onRx_keeps (Sub.trans (by decide) hM) ?_ ?_
    | with_reducible refine rxCommon_keeps (Sub.trans (by decide) hM) ?_
    | with_reducible refine later_keeps (Sub.trans (by decide) hM) ?_
    | with_reducible refine modLink_keeps (Sub.trans (by decide) hM) ?_
    | with_reducible refine keeps_ite (fun _ => ?_) (fun _ => ?_) | with_reducible refine keeps_id ?_
    | with_reducible refine keepsO_next ?_ | with_reducible refine keepsO_ite (fun _ => ?_) (fun _ => ?_) | with_reducible split
    | with_reducible intro _

theorem execParamAckRx_keeps {M : Nat} {s : State} (hM : Sub 268435452 M) :
    ∀ {t : State} {a1 a2 a3}, Keeps M s t → KeepsO M s (execParamAckRx a1 a2 a3 t) := by
  intro _ _ _ _ h0
  unfold execParamAckRx
  repeat' first
    | with_reducible assumption | with_reducible refine onRx_keeps (Sub.trans (by decide) hM) ?_ ?_
    | with_reducible refine rxPort_keeps (Sub.trans (by decide) hM) ?_ ?_
    | with_reducible refine paramEnd_keeps (Sub.trans (by decide) hM) ?_
    | with_reducible refine keeps_ite (fun _ => ?_) (fun _ => ?_) | with_reducible refine keeps_id ?_
    | with_reducible refine keepsO_next ?_ | with_reducible refine keepsO_ite (fun _ => ?_) (fun _ => ?_) | with_reducible split
    | with_reducible intro _

theorem execFaultRx_keeps {M : Nat} {s : State} (hM : Sub 268435452 M) :
    ∀ {t : State} {a1 a2 a3}, Keeps M s t → KeepsO M s (execFaultRx a1 a2 a3 t) := by
  intro _ _ _ _ h0
  unfold execFaultRx
  repeat' first
    | with_reducible assumption | with_reducible refine onRx_keeps (Sub.trans (by decide) hM) ?_ ?_
    | with_reducible refine rxCommon_keeps (Sub.trans (by decide) hM) ?_
    | with_reducible refine later_keeps (Sub.trans (by decide) hM) ?_
    | with_reducible refine fire_keeps (Sub.trans (by decide) hM) ?_
    | with_reducible refine modLink_keeps (Sub.trans (by decide) hM) ?_
    | with_reducible refine keeps_ite (fun _ => ?_) (fun _ => ?_) | with_reducible refine keeps_id ?_
    | with_reducible refine keepsO_next ?_ | with_reducible refine keepsO_ite (fun _ => ?_) (fun _ => ?_) | with_reducible split
    | with_reducible intro _

theorem execStreamRx_keeps {M : Nat} {s : State} (hM : Sub 268435452 M) :
    ∀ {t : State} {a1 a2 a3}, Keeps M s t → KeepsO M s (execStreamRx a1 a2 a3 t) := by
  intro _ _ _ _ h0
  unfold execStreamRx
  repeat' first
    | with_reducible assumption | with_reducible refine onRx_keeps (Sub.trans (by decide) hM) ?_ ?_
    | with_reducible refine mpWrite_keeps (Sub.trans (by decide) hM) ?_
    | with_reducible refine updFreeCount_keeps (Sub.trans (by decide) hM) ?_
    | with_reducible refine updLinks_keeps (Sub.trans (by decide) hM) ?_
    | with_reducible refine rxCommon_keeps (Sub.trans (by decide) hM) ?_ | with_reducible refine keeps_foldl ?_ ?_
    | with_reducible refine keeps_foldlP ?_ ?_ | with_reducible refine keeps_ite (fun _ => ?_) (fun _ => ?_)
    | with_reducible refine keeps_id ?_ | with_reducible refine keepsO_next ?_
    | with_reducible refine keepsO_ite (fun _ => ?_) (fun _ => ?_) | with_reducible split | with_reducible intro _

theorem execTimeSyncReplyRx_keeps {M : Nat} {s : State} (hM : Sub 268435452 M) :
    ∀ {t : State} {a1 a2 a3}, Keeps M s t → KeepsO M s (execTimeSyncReplyRx a1 a2 a3 t) := by
  intro _ _ _ _ h0
  unfold execTimeSyncReplyRx
  repeat' first
    | with_reducible assumption | with_reducible refine onRx_keeps (Sub.trans (by decide) hM) ?_ ?_
    | with_reducible refine takeReply_keeps (Sub.trans (by decide) hM) ?_
    | with_reducible refine rxPort_keeps (Sub.trans (by decide) hM) ?_ ?_
    | with_reducible refine svcTake_keeps (Sub.trans (by decide) hM) ?_ ?_
    | with_reducible refine keeps_ite (fun _ => ?_) (fun _ => ?_) | with_reducible refine keeps_id ?_
    | with_reducible refine keepsO_next ?_ | with_reducible refine keepsO_ite (fun _ => ?_) (fun _ => ?_) | with_reducible split
    | with_reducible intro _

theorem execAuthIdentRx_keeps {M : Nat} {s : State} (hM : Sub 268435452 M) :
    ∀ {t : State} {a1 a2 a3}, Keeps M s t → KeepsO M s (execAuthIdentRx a1 a2 a3 t) := by
  intro _ _ _ _ h0
  unfold execAuthIdentRx
  repeat' first
    | with_reducible assumption | with_reducible refine onRx_keeps (Sub.trans (by decide) hM) ?_ ?_
    | with_reducible refine rxPort_keeps (Sub.trans (by decide) hM) ?_ ?_
    | with_reducible refine identCheck_keeps (Sub.trans (by decide) hM) ?_
    | with_reducible refine modLink_keeps (Sub.trans (by decide) hM) ?_
    | with_reducible refine keeps_ite (fun _ => ?_) (fun _ => ?_) | with_reducible refine keeps_id ?_
    | with_reducible refine keepsO_next ?_ | with_reducible refine keepsO_ite (fun _ => ?_) (fun _ => ?_) | with_reducible split
    | with_reducible intro _

theorem execAuthChallengeRx_keeps {M : Nat} {s : State} (hM : Sub 268435452 M) :
    ∀ {t : State} {a1 a2 a3}, Keeps M s t → KeepsO M s (execAuthChallengeRx a1 a2 a3 t) := by
  intro _ _ _ _ h0
  unfold execAuthChallengeRx
  repeat' first
    | with_reducible assumption | with_reducible refine onRx_keeps (Sub.trans (by decide) hM) ?_ ?_
    | with_reducible refine rxPort_keeps (Sub.trans (by decide) hM) ?_ ?_
    | with_reducible refine modLink_keeps (Sub.trans (by decide) hM) ?_
    | with_reducible refine keeps_ite (fun _ => ?_) (fun _ => ?_) | with_reducible refine keeps_id ?_
    | with_reducible refine keepsO_next ?_ | with_reducible refine keepsO_ite (fun _ => ?_) (fun _ => ?_) | with_reducible split
    | with_reducible intro _

theorem execAuthResponseRx_keeps {M : Nat} {s : State} (hM : Sub 268435452 M) :
    ∀ {t : State} {a1 a2 a3}, Keeps M s t → KeepsO M s (execAuthResponseRx a1 a2 a3 t) := by
  intro _ _ _ _ h0
  unfold execAuthResponseRx
  repeat' first
    | with_reducible assumption | with_reducible refine onRx_keeps (Sub.trans (by decide) hM) ?_ ?_
    | with_reducible refine rxPort_keeps (Sub.trans (by decide) hM) ?_ ?_
    | with_reducible refine modLink_keeps (Sub.trans (by decide) hM) ?_
    | with_reducible refine queueBlock_keeps (Sub.trans (by decide) hM) ?_
    | with_reducible refine tookFree_keeps (Sub.trans (by decide) hM) ?_
    | with_reducible refine authFail_keeps (Sub.trans (by decide) hM) ?_
    | with_reducible refine keeps_ite (fun _ => ?_) (fun _ => ?_) | with_reducible refine keeps_id ?_
    | with_reducible refine keepsO_next ?_ | with_reducible refine keepsO_ite (fun _ => ?_) (fun _ => ?_) | with_reducible split
    | with_reducible intro _

theorem execAuthResultRx_keeps {M : Nat} {s : State} (hM : Sub 268435452 M) :
    ∀ {t : State} {a1 a2 a3}, Keeps M s t → KeepsO M s (execAuthResultRx a1 a2 a3 t) := by
  intro _ _ _ _ h0
  unfold execAuthResultRx
  repeat' first
    | with_reducible assumption | with_reducible refine onRx_keeps (Sub.trans (by decide) hM) ?_ ?_
    | with_reducible refine rxPort_keeps (Sub.trans (by decide) hM) ?_ ?_
    | with_reducible refine authFail_keeps (Sub.trans (by decide) hM) ?_
    | with_reducible refine authPass_keeps (Sub.trans (by decide) hM) ?_
    | with_reducible refine keeps_ite (fun _ => ?_) (fun _ => ?_) | with_reducible refine keeps_id ?_
    | with_reducible refine keepsO_next ?_ | with_reducible refine keepsO_ite (fun _ => ?_) (fun _ => ?_) | with_reducible split
    | with_reducible intro _

theorem twinAuthEnd_keeps {M : Nat} {s : State} (hM : Sub 84 M) :
    ∀ {t : State} {a1}, Keeps M s t → Keeps M s (State.twinAuthEnd t a1) := by
  intro _ _ h0
  unfold State.twinAuthEnd
  repeat' first
    | with_reducible assumption | with_reducible refine replyOk_keeps (Sub.trans (by decide) hM) ?_
    | with_reducible refine tookFree_keeps (Sub.trans (by decide) hM) ?_ | with_reducible refine keeps_foldl ?_ ?_
    | with_reducible refine keeps_foldlP ?_ ?_ | with_reducible refine keeps_ite (fun _ => ?_) (fun _ => ?_)
    | with_reducible refine keeps_id ?_ | with_reducible split | with_reducible intro _

theorem execAuthTimeout_keeps {M : Nat} {s : State} (hM : Sub 268435452 M) :
    ∀ {t : State} {a1}, Keeps M s t → KeepsO M s (execAuthTimeout a1 t) := by
  intro _ _ h0
  unfold execAuthTimeout
  repeat' first
    | with_reducible assumption | with_reducible refine twinAuthEnd_keeps (Sub.trans (by decide) hM) ?_
    | with_reducible refine done_keeps (Sub.trans (by decide) hM) ?_
    | with_reducible refine authFail_keeps (Sub.trans (by decide) hM) ?_
    | with_reducible refine keeps_ite (fun _ => ?_) (fun _ => ?_) | with_reducible refine keeps_id ?_
    | with_reducible refine keepsO_next ?_ | with_reducible refine keepsO_ite (fun _ => ?_) (fun _ => ?_)

theorem execAuthRetryExpire_keeps {M : Nat} {s : State} (hM : Sub 268435452 M) :
    ∀ {t : State} {a1}, Keeps M s t → KeepsO M s (execAuthRetryExpire a1 t) := by
  intro _ _ h0
  unfold execAuthRetryExpire
  repeat' first
    | with_reducible assumption | with_reducible refine done_keeps (Sub.trans (by decide) hM) ?_
    | with_reducible refine authStart_keeps (Sub.trans (by decide) hM) ?_
    | with_reducible refine keeps_ite (fun _ => ?_) (fun _ => ?_) | with_reducible refine keeps_id ?_
    | with_reducible refine keepsO_next ?_ | with_reducible refine keepsO_ite (fun _ => ?_) (fun _ => ?_)

theorem execRoleRepeatDue_keeps {M : Nat} {s : State} (hM : Sub 65536 M) :
    ∀ {t : State} {a1}, Keeps M s t → KeepsO M s (execRoleRepeatDue a1 t) := by
  intro _ _ h0
  unfold execRoleRepeatDue
  repeat' first
    | with_reducible assumption | with_reducible refine modLink_keeps (Sub.trans (by decide) hM) ?_
    | with_reducible refine keeps_ite (fun _ => ?_) (fun _ => ?_) | with_reducible refine keeps_id ?_
    | with_reducible refine keepsO_next ?_ | with_reducible refine keepsO_ite (fun _ => ?_) (fun _ => ?_)

theorem execParamRetryTimeout_keeps {M : Nat} {s : State} (hM : Sub 268435452 M) :
    ∀ {t : State} {a1}, Keeps M s t → KeepsO M s (execParamRetryTimeout a1 t) := by
  intro _ _ h0
  unfold execParamRetryTimeout
  repeat' first
    | with_reducible assumption | with_reducible refine done_keeps (Sub.trans (by decide) hM) ?_
    | with_reducible refine paramSend_keeps (Sub.trans (by decide) hM) ?_
    | with_reducible refine modLink_keeps (Sub.trans (by decide) hM) ?_
    | with_reducible refine paramEnd_keeps (Sub.trans (by decide) hM) ?_
    | with_reducible refine keeps_ite (fun _ => ?_) (fun _ => ?_) | with_reducible refine keeps_id ?_
    | with_reducible refine keepsO_next ?_ | with_reducible refine keepsO_ite (fun _ => ?_) (fun _ => ?_) | with_reducible split

theorem execUpLossTimeout_keeps {M : Nat} {s : State} (hM : Sub 268435452 M) :
    ∀ {t : State} {a1}, Keeps M s t → KeepsO M s (execUpLossTimeout a1 t) := by
  intro _ _ h0
  unfold execUpLossTimeout
  repeat' first
    | with_reducible assumption | with_reducible refine modLink_keeps (Sub.trans (by decide) hM) ?_
    | with_reducible refine done_keeps (Sub.trans (by decide) hM) ?_
    | with_reducible refine later_keeps (Sub.trans (by decide) hM) ?_
    | with_reducible refine condOn_keeps (Sub.trans (by decide) hM) ?_ | with_reducible refine keeps_ite (fun _ => ?_) (fun _ => ?_)
    | with_reducible refine keeps_id ?_ | with_reducible refine keepsO_next ?_
    | with_reducible refine keepsO_ite (fun _ => ?_) (fun _ => ?_)

theorem execTsIntervalExpire_keeps {M : Nat} {s : State} (hM : Sub 268435452 M) :
    ∀ {t : State} {a1}, Keeps M s t → KeepsO M s (execTsIntervalExpire a1 t) := by
  intro _ _ h0
  unfold execTsIntervalExpire
  repeat' first
    | with_reducible assumption | with_reducible refine done_keeps (Sub.trans (by decide) hM) ?_
    | with_reducible refine queueSync_keeps (Sub.trans (by decide) hM) ?_
    | with_reducible refine keeps_ite (fun _ => ?_) (fun _ => ?_) | with_reducible refine keeps_id ?_
    | with_reducible refine keepsO_next ?_ | with_reducible refine keepsO_ite (fun _ => ?_) (fun _ => ?_)

theorem execEpParam_keeps {M : Nat} {s : State} (hM : Sub 268435452 M) :
    ∀ {t : State} {a1}, Keeps M s t → KeepsO M s (execEpParam a1 t) := by
  intro _ _ h0
  unfold execEpParam
  repeat' first
    | with_reducible assumption | with_reducible refine done_keeps (Sub.trans (by decide) hM) ?_
    | with_reducible refine withCmd_keeps (Sub.trans (by decide) hM) ?_ ?_
    | with_reducible refine refuse_keeps (Sub.trans (by decide) hM) ?_
    | with_reducible refine waitFor_keeps (Sub.trans (by decide) hM) ?_
    | with_reducible refine paramStart_keeps (Sub.trans (by decide) hM) ?_
    | with_reducible refine keeps_ite (fun _ => ?_) (fun _ => ?_) | with_reducible refine keeps_id ?_
    | with_reducible refine keepsO_next ?_ | with_reducible refine keepsO_ite (fun _ => ?_) (fun _ => ?_) | with_reducible split
    | with_reducible intro _

theorem reauth_keeps {M : Nat} {s : State} (hM : Sub 65628 M) :
    ∀ {t : State} {a1 a2}, Keeps M s t → Keeps M s (State.reauth t a1 a2) := by
  intro _ _ _ h0
  unfold State.reauth
  repeat' first
    | with_reducible assumption | with_reducible refine reauthReply_keeps (Sub.trans (by decide) hM) ?_
    | with_reducible refine later_keeps (Sub.trans (by decide) hM) ?_
    | with_reducible refine waitFor_keeps (Sub.trans (by decide) hM) ?_
    | with_reducible refine authStart_keeps (Sub.trans (by decide) hM) ?_
    | with_reducible refine modLink_keeps (Sub.trans (by decide) hM) ?_
    | with_reducible refine keeps_ite (fun _ => ?_) (fun _ => ?_)

theorem reauthTaken_keeps {M : Nat} {s : State} (hM : Sub 65628 M) :
    ∀ {t : State} {a1 a2}, Keeps M s t → Keeps M s (State.reauthTaken t a1 a2) := by
  intro _ _ _ h0
  unfold State.reauthTaken
  repeat' first
    | with_reducible assumption | with_reducible refine waitFor_keeps (Sub.trans (by decide) hM) ?_
    | with_reducible refine reauth_keeps (Sub.trans (by decide) hM) ?_
    | with_reducible refine replyOk_keeps (Sub.trans (by decide) hM) ?_
    | with_reducible refine keeps_ite (fun _ => ?_) (fun _ => ?_)

theorem execEpReauth_keeps {M : Nat} {s : State} (hM : Sub 268435452 M) :
    ∀ {t : State} {a1}, Keeps M s t → KeepsO M s (execEpReauth a1 t) := by
  intro _ _ h0
  unfold execEpReauth
  repeat' first
    | with_reducible assumption | with_reducible refine done_keeps (Sub.trans (by decide) hM) ?_
    | with_reducible refine withCmd_keeps (Sub.trans (by decide) hM) ?_ ?_
    | with_reducible refine refuse_keeps (Sub.trans (by decide) hM) ?_
    | with_reducible refine waitFor_keeps (Sub.trans (by decide) hM) ?_
    | with_reducible refine forwardRequest_keeps (Sub.trans (by decide) hM) ?_
    | with_reducible refine reauth_keeps (Sub.trans (by decide) hM) ?_ | with_reducible refine keeps_ite (fun _ => ?_) (fun _ => ?_)
    | with_reducible refine keeps_id ?_ | with_reducible refine keepsO_next ?_
    | with_reducible refine keepsO_ite (fun _ => ?_) (fun _ => ?_) | with_reducible split | with_reducible intro _

theorem takeNodeRec_keeps {M : Nat} {s : State} (hM : Sub 598268 M) :
    ∀ {t : State} {a1 a2}, Keeps M s t → Keeps M s (State.takeNodeRec t a1 a2) := by
  intro _ _ _ h0
  unfold State.takeNodeRec
  repeat' first
    | with_reducible assumption | with_reducible refine dtRecord_keeps (Sub.trans (by decide) hM) ?_
    | with_reducible refine keeps_ite (fun _ => ?_) (fun _ => ?_) | with_reducible refine keeps_id ?_ | with_reducible split

theorem execNodeEdgeRx_keeps {M : Nat} {s : State} (hM : Sub 268435452 M) :
    ∀ {t : State} {a1 a2 a3}, Keeps M s t → KeepsO M s (execNodeEdgeRx a1 a2 a3 t) := by
  intro _ _ _ _ h0
  unfold execNodeEdgeRx
  repeat' first
    | with_reducible assumption | with_reducible refine onRx_keeps (Sub.trans (by decide) hM) ?_ ?_
    | with_reducible refine takeNodeRec_keeps (Sub.trans (by decide) hM) ?_
    | with_reducible refine rxCommon_keeps (Sub.trans (by decide) hM) ?_
    | with_reducible refine keeps_ite (fun _ => ?_) (fun _ => ?_) | with_reducible refine keeps_id ?_
    | with_reducible refine keepsO_next ?_ | with_reducible refine keepsO_ite (fun _ => ?_) (fun _ => ?_) | with_reducible split
    | with_reducible intro _

theorem execDtJudgeTimeout_keeps {M : Nat} {s : State} (hM : Sub 268435452 M) :
    ∀ {t : State} {a1 a2}, Keeps M s t → KeepsO M s (execDtJudgeTimeout a1 a2 t) := by
  intro _ _ _ h0
  unfold execDtJudgeTimeout
  repeat' first
    | with_reducible assumption | with_reducible refine done_keeps (Sub.trans (by decide) hM) ?_
    | with_reducible refine dtJudge_keeps (Sub.trans (by decide) hM) ?_ | with_reducible refine keeps_foldl ?_ ?_
    | with_reducible refine keeps_foldlP ?_ ?_ | with_reducible refine keeps_ite (fun _ => ?_) (fun _ => ?_)
    | with_reducible refine keeps_id ?_ | with_reducible refine keepsO_next ?_
    | with_reducible refine keepsO_ite (fun _ => ?_) (fun _ => ?_) | with_reducible split | with_reducible intro _

theorem execSortStatsFormed_keeps {M : Nat} {s : State} (hM : Sub 268435452 M) :
    ∀ {t : State} {a1}, Keeps M s t → KeepsO M s (execSortStatsFormed a1 t) := by
  intro _ _ h0
  unfold execSortStatsFormed
  repeat' first
    | with_reducible assumption | with_reducible refine modSrt_keeps (Sub.trans (by decide) hM) ?_
    | with_reducible refine done_keeps (Sub.trans (by decide) hM) ?_
    | with_reducible refine twState_keeps (Sub.trans (by decide) hM) ?_
    | with_reducible refine keeps_ite (fun _ => ?_) (fun _ => ?_) | with_reducible refine keeps_id ?_
    | with_reducible refine keepsO_next ?_ | with_reducible refine keepsO_ite (fun _ => ?_) (fun _ => ?_)

theorem execTwinOrderTimeout_keeps {M : Nat} {s : State} (hM : Sub 268435452 M) :
    ∀ {t : State} {a1}, Keeps M s t → KeepsO M s (execTwinOrderTimeout a1 t) := by
  intro _ _ h0
  unfold execTwinOrderTimeout
  repeat' first
    | with_reducible assumption | with_reducible refine done_keeps (Sub.trans (by decide) hM) ?_
    | with_reducible refine planNow_keeps (Sub.trans (by decide) hM) ?_
    | with_reducible refine modSrt_keeps (Sub.trans (by decide) hM) ?_
    | with_reducible refine bump_keeps (Sub.trans (by decide) hM) ?_ | with_reducible refine keeps_ite (fun _ => ?_) (fun _ => ?_)
    | with_reducible refine keeps_id ?_ | with_reducible refine keepsO_next ?_
    | with_reducible refine keepsO_ite (fun _ => ?_) (fun _ => ?_)

theorem dtReset_keeps {M : Nat} {s : State} (hM : Sub 524416 M) :
    ∀ {t : State} {a1 a2}, Keeps M s t → Keeps M s (State.dtReset t a1 a2) := by
  intro _ _ _ h0
  unfold State.dtReset
  repeat' first
    | with_reducible assumption | with_reducible refine modDleg_keeps (Sub.trans (by decide) hM) ?_
    | with_reducible refine dtToInit_keeps (Sub.trans (by decide) hM) ?_ | with_reducible refine keeps_foldl ?_ ?_
    | with_reducible refine keeps_foldlP ?_ ?_ | with_reducible refine keeps_ite (fun _ => ?_) (fun _ => ?_)
    | with_reducible refine keeps_id ?_ | with_reducible split | with_reducible intro _

theorem execDtReset_keeps {M : Nat} {s : State} (hM : Sub 268435452 M) :
    ∀ {t : State} {a1}, Keeps M s t → KeepsO M s (execDtReset a1 t) := by
  intro _ _ h0
  unfold execDtReset
  repeat' first
    | with_reducible assumption | with_reducible refine done_keeps (Sub.trans (by decide) hM) ?_
    | with_reducible refine withWrite_keeps (Sub.trans (by decide) hM) ?_ ?_
    | with_reducible refine refuse_keeps (Sub.trans (by decide) hM) ?_
    | with_reducible refine dtReset_keeps (Sub.trans (by decide) hM) ?_
    | with_reducible refine finishWrite_keeps (Sub.trans (by decide) hM) ?_ | with_reducible refine keeps_foldl ?_ ?_
    | with_reducible refine keeps_foldlP ?_ ?_ | with_reducible refine keeps_ite (fun _ => ?_) (fun _ => ?_)
    | with_reducible refine keeps_id ?_ | with_reducible refine keepsO_next ?_
    | with_reducible refine keepsO_ite (fun _ => ?_) (fun _ => ?_) | with_reducible split | with_reducible intro _

theorem execSortRead_keeps {M : Nat} {s : State} (hM : Sub 80 M) :
    ∀ {t : State} {a1}, Keeps M s t → KeepsO M s (execSortRead a1 t) := by
  intro _ _ h0
  unfold execSortRead
  repeat' first
    | with_reducible assumption | with_reducible refine withCmd_keeps (Sub.trans (by decide) hM) ?_ ?_
    | with_reducible refine refuse_keeps (Sub.trans (by decide) hM) ?_
    | with_reducible refine replyOk_keeps (Sub.trans (by decide) hM) ?_
    | with_reducible refine keeps_ite (fun _ => ?_) (fun _ => ?_) | with_reducible refine keeps_id ?_
    | with_reducible refine keepsO_next ?_ | with_reducible refine keepsO_ite (fun _ => ?_) (fun _ => ?_) | with_reducible split
    | with_reducible intro _

theorem execEnergyCopyPeriod_keeps {M : Nat} {s : State} (hM : Sub 67108864 M) :
    ∀ {t : State}, Keeps M s t → KeepsO M s (execEnergyCopyPeriod t) := by
  intro _ h0
  unfold execEnergyCopyPeriod
  repeat' first
    | with_reducible assumption | with_reducible refine enCopy_keeps (Sub.trans (by decide) hM) ?_
    | with_reducible refine keeps_ite (fun _ => ?_) (fun _ => ?_) | with_reducible refine keeps_id ?_
    | with_reducible refine keepsO_next ?_ | with_reducible refine keepsO_ite (fun _ => ?_) (fun _ => ?_)

theorem execDemandIntervalEnd_keeps {M : Nat} {s : State} (hM : Sub 268435452 M) :
    ∀ {t : State}, Keeps M s t → KeepsO M s (execDemandIntervalEnd t) := by
  intro _ h0
  unfold execDemandIntervalEnd
  repeat' first
    | with_reducible assumption | with_reducible refine done_keeps (Sub.trans (by decide) hM) ?_
    | with_reducible refine demandEnd_keeps (Sub.trans (by decide) hM) ?_
    | with_reducible refine keeps_ite (fun _ => ?_) (fun _ => ?_) | with_reducible refine keeps_id ?_
    | with_reducible refine keepsO_next ?_ | with_reducible refine keepsO_ite (fun _ => ?_) (fun _ => ?_)

theorem execRtcSecond_keeps {M : Nat} {s : State} (hM : Sub 268435452 M) :
    ∀ {t : State}, Keeps M s t → KeepsO M s (execRtcSecond t) := by
  intro _ h0
  unfold execRtcSecond
  repeat' first
    | with_reducible assumption | with_reducible refine updBat_keeps (Sub.trans (by decide) hM) ?_
    | with_reducible refine rtcLoad_keeps (Sub.trans (by decide) hM) ?_
    | with_reducible refine done_keeps (Sub.trans (by decide) hM) ?_
    | with_reducible refine enAllLimits_keeps (Sub.trans (by decide) hM) ?_
    | with_reducible refine keeps_ite (fun _ => ?_) (fun _ => ?_) | with_reducible refine keeps_id ?_
    | with_reducible refine keepsO_next ?_ | with_reducible refine keepsO_ite (fun _ => ?_) (fun _ => ?_) | with_reducible split

theorem execEnGraceExpire_keeps {M : Nat} {s : State} (hM : Sub 268435452 M) :
    ∀ {t : State} {a1}, Keeps M s t → KeepsO M s (execEnGraceExpire a1 t) := by
  intro _ _ h0
  unfold execEnGraceExpire
  repeat' first
    | with_reducible assumption | with_reducible refine done_keeps (Sub.trans (by decide) hM) ?_
    | with_reducible refine fire_keeps (Sub.trans (by decide) hM) ?_
    | with_reducible refine bump_keeps (Sub.trans (by decide) hM) ?_
    | with_reducible refine modEn_keeps (Sub.trans (by decide) hM) ?_ | with_reducible refine keeps_ite (fun _ => ?_) (fun _ => ?_)
    | with_reducible refine keeps_id ?_ | with_reducible refine keepsO_next ?_
    | with_reducible refine keepsO_ite (fun _ => ?_) (fun _ => ?_) | with_reducible split | with_reducible intro _
    | with_reducible dsimp only

theorem execEnergyRead_keeps {M : Nat} {s : State} (hM : Sub 268435452 M) :
    ∀ {t : State} {a1}, Keeps M s t → KeepsO M s (execEnergyRead a1 t) := by
  intro _ _ h0
  unfold execEnergyRead
  repeat' first
    | with_reducible assumption | with_reducible refine done_keeps (Sub.trans (by decide) hM) ?_
    | with_reducible refine withCmd_keeps (Sub.trans (by decide) hM) ?_ ?_
    | with_reducible refine refuse_keeps (Sub.trans (by decide) hM) ?_
    | with_reducible refine replyOk_keeps (Sub.trans (by decide) hM) ?_
    | with_reducible refine tookKey_keeps (Sub.trans (by decide) hM) ?_
    | with_reducible refine keeps_ite (fun _ => ?_) (fun _ => ?_) | with_reducible refine keeps_id ?_
    | with_reducible refine keepsO_next ?_ | with_reducible refine keepsO_ite (fun _ => ?_) (fun _ => ?_) | with_reducible split
    | with_reducible intro _

theorem demandZero_keeps {M : Nat} {s : State} (hM : Sub 67108864 M) :
    ∀ {t : State} {a1}, Keeps M s t → Keeps M s (State.demandZero t a1) := by
  intro _ _ h0
  unfold State.demandZero
  repeat' first
    | with_reducible assumption | with_reducible refine modEn_keeps (Sub.trans (by decide) hM) ?_

theorem execDemandReset_keeps {M : Nat} {s : State} (hM : Sub 268435452 M) :
    ∀ {t : State} {a1}, Keeps M s t → KeepsO M s (execDemandReset a1 t) := by
  intro _ _ h0
  unfold execDemandReset
  repeat' first
    | with_reducible assumption | with_reducible refine done_keeps (Sub.trans (by decide) hM) ?_
    | with_reducible refine withWrite_keeps (Sub.trans (by decide) hM) ?_ ?_
    | with_reducible refine refuse_keeps (Sub.trans (by decide) hM) ?_
    | with_reducible refine attic_keeps (Sub.trans (by decide) hM) ?_
    | with_reducible refine demandZero_keeps (Sub.trans (by decide) hM) ?_
    | with_reducible refine finishWrite_keeps (Sub.trans (by decide) hM) ?_ | with_reducible refine keeps_foldl ?_ ?_
    | with_reducible refine keeps_foldlP ?_ ?_ | with_reducible refine keeps_ite (fun _ => ?_) (fun _ => ?_)
    | with_reducible refine keeps_id ?_ | with_reducible refine keepsO_next ?_
    | with_reducible refine keepsO_ite (fun _ => ?_) (fun _ => ?_) | with_reducible split | with_reducible intro _

theorem execRtcSet_keeps {M : Nat} {s : State} (hM : Sub 268435452 M) :
    ∀ {t : State} {a1}, Keeps M s t → KeepsO M s (execRtcSet a1 t) := by
  intro _ _ h0
  unfold execRtcSet
  repeat' first
    | with_reducible assumption | with_reducible refine done_keeps (Sub.trans (by decide) hM) ?_
    | with_reducible refine withCmd_keeps (Sub.trans (by decide) hM) ?_ ?_
    | with_reducible refine refuse_keeps (Sub.trans (by decide) hM) ?_
    | with_reducible refine busy_keeps (Sub.trans (by decide) hM) ?_
    | with_reducible refine updBat_keeps (Sub.trans (by decide) hM) ?_
    | with_reducible refine waitFor_keeps (Sub.trans (by decide) hM) ?_
    | with_reducible refine keeps_ite (fun _ => ?_) (fun _ => ?_) | with_reducible refine keeps_id ?_
    | with_reducible refine keepsO_next ?_ | with_reducible refine keepsO_ite (fun _ => ?_) (fun _ => ?_) | with_reducible split
    | with_reducible intro _

theorem execTampZeroise_keeps {M : Nat} {s : State} (hM : Sub 268435452 M) :
    ∀ {t : State} {a1}, Keeps M s t → KeepsO M s (execTampZeroise a1 t) := by
  intro _ _ h0
  unfold execTampZeroise
  repeat' first
    | with_reducible assumption | with_reducible refine done_keeps (Sub.trans (by decide) hM) ?_
    | with_reducible refine withCmd_keeps (Sub.trans (by decide) hM) ?_ ?_
    | with_reducible refine refuse_keeps (Sub.trans (by decide) hM) ?_
    | with_reducible refine replyOk_keeps (Sub.trans (by decide) hM) ?_
    | with_reducible refine tampEvent_keeps (Sub.trans (by decide) hM) ?_
    | with_reducible refine keeps_ite (fun _ => ?_) (fun _ => ?_) | with_reducible refine keeps_id ?_
    | with_reducible refine keepsO_next ?_ | with_reducible refine keepsO_ite (fun _ => ?_) (fun _ => ?_) | with_reducible split
    | with_reducible intro _

theorem execTamperSample_keeps {M : Nat} {s : State} (hM : Sub 134221828 M) :
    ∀ {t : State} {a1}, Keeps M s t → KeepsO M s (execTamperSample a1 t) := by
  intro _ _ h0
  unfold execTamperSample
  repeat' first
    | with_reducible assumption | with_reducible refine tampInput_keeps (Sub.trans (by decide) hM) ?_
    | with_reducible refine tookFree_keeps (Sub.trans (by decide) hM) ?_
    | with_reducible refine updBat_keeps (Sub.trans (by decide) hM) ?_ | with_reducible refine keeps_foldl ?_ ?_
    | with_reducible refine keeps_foldlP ?_ ?_ | with_reducible refine keeps_ite (fun _ => ?_) (fun _ => ?_)
    | with_reducible refine keeps_id ?_ | with_reducible refine keepsO_next ?_
    | with_reducible refine keepsO_ite (fun _ => ?_) (fun _ => ?_) | with_reducible split | with_reducible intro _

theorem execOscStopDetect_keeps {M : Nat} {s : State} (hM : Sub 134221824 M) :
    ∀ {t : State}, Keeps M s t → KeepsO M s (execOscStopDetect t) := by
  intro _ h0
  unfold execOscStopDetect
  repeat' first
    | with_reducible assumption | with_reducible refine tampEvent_keeps (Sub.trans (by decide) hM) ?_
    | with_reducible refine keeps_ite (fun _ => ?_) (fun _ => ?_) | with_reducible refine keeps_id ?_
    | with_reducible refine keepsO_next ?_ | with_reducible refine keepsO_ite (fun _ => ?_) (fun _ => ?_)

theorem execVbatLowDetect_keeps {M : Nat} {s : State} (hM : Sub 134221824 M) :
    ∀ {t : State} {a1}, Keeps M s t → KeepsO M s (execVbatLowDetect a1 t) := by
  intro _ _ h0
  unfold execVbatLowDetect
  repeat' first
    | with_reducible assumption | with_reducible refine updBat_keeps (Sub.trans (by decide) hM) ?_
    | with_reducible refine tampEvent_keeps (Sub.trans (by decide) hM) ?_
    | with_reducible refine keeps_ite (fun _ => ?_) (fun _ => ?_) | with_reducible refine keeps_id ?_
    | with_reducible refine keepsO_next ?_ | with_reducible refine keepsO_ite (fun _ => ?_) (fun _ => ?_)

theorem execTamperLogCopy_keeps {M : Nat} {s : State} (hM : Sub 268435452 M) :
    ∀ {t : State}, Keeps M s t → KeepsO M s (execTamperLogCopy t) := by
  intro _ h0
  unfold execTamperLogCopy
  repeat' first
    | with_reducible assumption | with_reducible refine done_keeps (Sub.trans (by decide) hM) ?_
    | with_reducible refine tampCopy_keeps (Sub.trans (by decide) hM) ?_
    | with_reducible refine keeps_ite (fun _ => ?_) (fun _ => ?_) | with_reducible refine keeps_id ?_
    | with_reducible refine keepsO_next ?_ | with_reducible refine keepsO_ite (fun _ => ?_) (fun _ => ?_)

theorem execBatterySwitchover_keeps {M : Nat} {s : State} (hM : Sub 4096 M) :
    ∀ {t : State} {a1}, Keeps M s t → KeepsO M s (execBatterySwitchover a1 t) := by
  intro _ _ h0
  unfold execBatterySwitchover
  repeat' first
    | with_reducible assumption | with_reducible refine updBat_keeps (Sub.trans (by decide) hM) ?_
    | with_reducible refine keeps_ite (fun _ => ?_) (fun _ => ?_) | with_reducible refine keeps_id ?_
    | with_reducible refine keepsO_next ?_

theorem execBatteryDomainPowerLoss_keeps {M : Nat} {s : State} (hM : Sub 134221824 M) :
    ∀ {t : State}, Keeps M s t → KeepsO M s (execBatteryDomainPowerLoss t) := by
  intro _ h0
  unfold execBatteryDomainPowerLoss
  repeat' first
    | with_reducible assumption | with_reducible refine updBat_keeps (Sub.trans (by decide) hM) ?_
    | with_reducible refine zeroise_keeps (Sub.trans (by decide) hM) ?_
    | with_reducible refine keeps_ite (fun _ => ?_) (fun _ => ?_) | with_reducible refine keeps_id ?_
    | with_reducible refine keepsO_next ?_ | with_reducible refine keepsO_ite (fun _ => ?_) (fun _ => ?_)

theorem execBatteryDomainPowerReturn_keeps {M : Nat} {s : State} (hM : Sub 4096 M) :
    ∀ {t : State}, Keeps M s t → KeepsO M s (execBatteryDomainPowerReturn t) := by
  intro _ h0
  unfold execBatteryDomainPowerReturn
  repeat' first
    | with_reducible assumption | with_reducible refine updBat_keeps (Sub.trans (by decide) hM) ?_
    | with_reducible refine keeps_ite (fun _ => ?_) (fun _ => ?_) | with_reducible refine keeps_id ?_
    | with_reducible refine keepsO_next ?_ | with_reducible refine keepsO_ite (fun _ => ?_) (fun _ => ?_)

theorem mirrorRec_keeps {M : Nat} {s : State} (hM : Sub 128 M) :
    ∀ {t : State} {a1}, Keeps M s t → Keeps M s (State.mirrorRec t a1) := by
  intro _ _ h0
  unfold State.mirrorRec
  repeat' first
    | with_reducible assumption | with_reducible refine updFaults_keeps (Sub.trans (by decide) hM) ?_ ?_
    | with_reducible refine keeps_ite (fun _ => ?_) (fun _ => ?_) | with_reducible refine keeps_id ?_
    | (intro hi; obtain ⟨a, b⟩ := hi.faults; refine ⟨?_, ?_⟩ <;> first | assumption | (simp [recSet]; done) | (simp only [recSet, List.length_map, List.length_append, List.length_take, List.length_cons, List.length_nil]; omega) | exact Nat.le_trans (List.length_filter_le _ _) a)

theorem execFaultRecordMirror_keeps {M : Nat} {s : State} (hM : Sub 128 M) :
    ∀ {t : State} {a1}, Keeps M s t → KeepsO M s (execFaultRecordMirror a1 t) := by
  intro _ _ h0
  unfold execFaultRecordMirror
  repeat' first
    | with_reducible assumption | with_reducible refine mirrorRec_keeps (Sub.trans (by decide) hM) ?_
    | with_reducible refine keeps_ite (fun _ => ?_) (fun _ => ?_) | with_reducible refine keeps_id ?_
    | with_reducible refine keepsO_next ?_ | with_reducible refine keepsO_ite (fun _ => ?_) (fun _ => ?_) | with_reducible split

theorem execFaultChipResetDue_keeps {M : Nat} {s : State} (hM : Sub 268435452 M) :
    ∀ {t : State}, Keeps M s t → KeepsO M s (execFaultChipResetDue t) := by
  intro _ h0
  unfold execFaultChipResetDue
  repeat' first
    | with_reducible assumption | with_reducible refine done_keeps (Sub.trans (by decide) hM) ?_
    | with_reducible refine later_keeps (Sub.trans (by decide) hM) ?_
    | with_reducible refine updFaults_keeps (Sub.trans (by decide) hM) ?_ ?_
    | with_reducible refine keeps_ite (fun _ => ?_) (fun _ => ?_) | with_reducible refine keeps_id ?_
    | with_reducible refine keepsO_next ?_ | with_reducible refine keepsO_ite (fun _ => ?_) (fun _ => ?_)
    | (intro hi; obtain ⟨a, b⟩ := hi.faults; refine ⟨?_, ?_⟩ <;> first | assumption | (simp [recSet]; done) | (simp only [recSet, List.length_map, List.length_append, List.length_take, List.length_cons, List.length_nil]; omega) | exact Nat.le_trans (List.length_filter_le _ _) a)
    | with_reducible split

theorem execFaultRead_keeps {M : Nat} {s : State} (hM : Sub 268435452 M) :
    ∀ {t : State} {a1}, Keeps M s t → KeepsO M s (execFaultRead a1 t) := by
  intro _ _ h0
  unfold execFaultRead
  repeat' first
    | with_reducible assumption | with_reducible refine done_keeps (Sub.trans (by decide) hM) ?_
    | with_reducible refine withCmd_keeps (Sub.trans (by decide) hM) ?_ ?_
    | with_reducible refine replyOk_keeps (Sub.trans (by decide) hM) ?_
    | with_reducible refine updFaults_keeps (Sub.trans (by decide) hM) ?_ ?_
    | with_reducible refine keeps_ite (fun _ => ?_) (fun _ => ?_) | with_reducible refine keeps_id ?_
    | with_reducible refine keepsO_next ?_ | with_reducible refine keepsO_ite (fun _ => ?_) (fun _ => ?_)
    | (intro hi; obtain ⟨a, b⟩ := hi.faults; refine ⟨?_, ?_⟩ <;> first | assumption | (simp [recSet]; done) | (simp only [recSet, List.length_map, List.length_append, List.length_take, List.length_cons, List.length_nil]; omega) | exact Nat.le_trans (List.length_filter_le _ _) a)
    | with_reducible split | with_reducible intro _

theorem execFaultClear_keeps {M : Nat} {s : State} (hM : Sub 268435452 M) :
    ∀ {t : State} {a1}, Keeps M s t → KeepsO M s (execFaultClear a1 t) := by
  intro _ _ h0
  unfold execFaultClear
  repeat' first
    | with_reducible assumption | with_reducible refine done_keeps (Sub.trans (by decide) hM) ?_
    | with_reducible refine withCmd_keeps (Sub.trans (by decide) hM) ?_ ?_
    | with_reducible refine refuse_keeps (Sub.trans (by decide) hM) ?_
    | with_reducible refine faultPin_keeps (Sub.trans (by decide) hM) ?_
    | with_reducible refine updFaults_keeps (Sub.trans (by decide) hM) ?_ ?_
    | with_reducible refine replyOk_keeps (Sub.trans (by decide) hM) ?_
    | with_reducible refine keeps_ite (fun _ => ?_) (fun _ => ?_) | with_reducible refine keeps_id ?_
    | with_reducible refine keepsO_next ?_ | with_reducible refine keepsO_ite (fun _ => ?_) (fun _ => ?_)
    | (intro hi; obtain ⟨a, b⟩ := hi.faults; refine ⟨?_, ?_⟩ <;> first | assumption | (simp [recSet]; done) | (simp only [recSet, List.length_map, List.length_append, List.length_take, List.length_cons, List.length_nil]; omega) | exact Nat.le_trans (List.length_filter_le _ _) a)
    | with_reducible split | with_reducible intro _

theorem execFaultInject_keeps {M : Nat} {s : State} (hM : Sub 268435452 M) :
    ∀ {t : State} {a1}, Keeps M s t → KeepsO M s (execFaultInject a1 t) := by
  intro _ _ h0
  unfold execFaultInject
  repeat' first
    | with_reducible assumption | with_reducible refine done_keeps (Sub.trans (by decide) hM) ?_
    | with_reducible refine withCmd_keeps (Sub.trans (by decide) hM) ?_ ?_
    | with_reducible refine refuse_keeps (Sub.trans (by decide) hM) ?_
    | with_reducible refine bump_keeps (Sub.trans (by decide) hM) ?_
    | with_reducible refine fireWith_keeps (Sub.trans (by decide) hM) ?_
    | with_reducible refine replyOk_keeps (Sub.trans (by decide) hM) ?_
    | with_reducible refine keeps_ite (fun _ => ?_) (fun _ => ?_) | with_reducible refine keeps_id ?_
    | with_reducible refine keepsO_next ?_ | with_reducible refine keepsO_ite (fun _ => ?_) (fun _ => ?_) | with_reducible split
    | with_reducible intro _

theorem execRackPllLockStart_keeps {M : Nat} {s : State} (hM : Sub 16384 M) :
    ∀ {t : State} {a1}, Keeps M s t → KeepsO M s (execRackPllLockStart a1 t) := by
  intro _ _ h0
  unfold execRackPllLockStart
  repeat' first
    | with_reducible assumption | with_reducible refine modRack_keeps (Sub.trans (by decide) hM) ?_
    | with_reducible refine keeps_ite (fun _ => ?_) (fun _ => ?_) | with_reducible refine keeps_id ?_
    | with_reducible refine keepsO_next ?_ | with_reducible refine keepsO_ite (fun _ => ?_) (fun _ => ?_) | with_reducible split

end Sys2Proof.Machine
end

