-- ==== Sys2Proof/Machine/Frame6.lean ====
section
/-!
DEFINITION. Frames, part 6: the functions from execRackPllLocked to execTimeMasterSet, in the order of their calls. Each lemma says
which parts its function may change (a mask over Part.bit) and that it keeps the bounds of State.Inv.
-/

namespace Sys2Proof.Machine

set_option linter.unreachableTactic false
set_option linter.unusedTactic false
set_option linter.unusedSimpArgs false

theorem execRackPllLocked_keeps {M : Nat} {s : State} (hM : Sub 268435452 M) :
    ∀ {t : State} {a1}, Keeps M s t → KeepsO M s (execRackPllLocked a1 t) := by
  intro _ _ h0
  unfold execRackPllLocked
  repeat' first
    | with_reducible assumption | with_reducible refine condOff_keeps (Sub.trans (by decide) hM) ?_
    | with_reducible refine modRack_keeps (Sub.trans (by decide) hM) ?_
    | with_reducible refine done_keeps (Sub.trans (by decide) hM) ?_
    | with_reducible refine freshAttempt_keeps (Sub.trans (by decide) hM) ?_ | with_reducible refine keeps_foldl ?_ ?_
    | with_reducible refine keeps_foldlP ?_ ?_ | with_reducible refine keeps_ite (fun _ => ?_) (fun _ => ?_)
    | with_reducible refine keeps_id ?_ | with_reducible refine keepsO_next ?_
    | with_reducible refine keepsO_ite (fun _ => ?_) (fun _ => ?_) | with_reducible split | with_reducible intro _

theorem execRackPllUnlock_keeps {M : Nat} {s : State} (hM : Sub 268435452 M) :
    ∀ {t : State} {a1}, Keeps M s t → KeepsO M s (execRackPllUnlock a1 t) := by
  intro _ _ h0
  unfold execRackPllUnlock
  repeat' first
    | with_reducible assumption | with_reducible refine modRack_keeps (Sub.trans (by decide) hM) ?_
    | with_reducible refine setLane_keeps (Sub.trans (by decide) hM) ?_
    | with_reducible refine done_keeps (Sub.trans (by decide) hM) ?_
    | with_reducible refine condOn_keeps (Sub.trans (by decide) hM) ?_ | with_reducible refine keeps_foldl ?_ ?_
    | with_reducible refine keeps_foldlP ?_ ?_ | with_reducible refine keeps_ite (fun _ => ?_) (fun _ => ?_)
    | with_reducible refine keeps_id ?_ | with_reducible refine keepsO_next ?_
    | with_reducible refine keepsO_ite (fun _ => ?_) (fun _ => ?_) | with_reducible split | with_reducible intro _

theorem execLaneClockLock_keeps {M : Nat} {s : State} (hM : Sub 268435452 M) :
    ∀ {t : State} {a1}, Keeps M s t → KeepsO M s (execLaneClockLock a1 t) := by
  intro _ _ h0
  unfold execLaneClockLock
  repeat' first
    | with_reducible assumption | with_reducible refine done_keeps (Sub.trans (by decide) hM) ?_
    | with_reducible refine setLane_keeps (Sub.trans (by decide) hM) ?_
    | with_reducible refine keeps_ite (fun _ => ?_) (fun _ => ?_) | with_reducible refine keeps_id ?_
    | with_reducible refine keepsO_next ?_ | with_reducible refine keepsO_ite (fun _ => ?_) (fun _ => ?_)

theorem execLanePresetTrialEnd_keeps {M : Nat} {s : State} (hM : Sub 16388 M) :
    ∀ {t : State} {a1 a2 a3 a4}, Keeps M s t → KeepsO M s (execLanePresetTrialEnd a1 a2 a3 a4 t) := by
  intro _ _ _ _ _ h0
  unfold execLanePresetTrialEnd
  repeat' first
    | with_reducible assumption | with_reducible refine modLane_keeps (Sub.trans (by decide) hM) ?_
    | with_reducible refine tookFree_keeps (Sub.trans (by decide) hM) ?_ | with_reducible refine keeps_foldl ?_ ?_
    | with_reducible refine keeps_foldlP ?_ ?_ | with_reducible refine keeps_ite (fun _ => ?_) (fun _ => ?_)
    | with_reducible refine keeps_id ?_ | with_reducible refine keepsO_next ?_
    | with_reducible refine keepsO_ite (fun _ => ?_) (fun _ => ?_)

theorem execLaneDfeConverged_keeps {M : Nat} {s : State} (hM : Sub 268435452 M) :
    ∀ {t : State} {a1}, Keeps M s t → KeepsO M s (execLaneDfeConverged a1 t) := by
  intro _ _ h0
  unfold execLaneDfeConverged
  repeat' first
    | with_reducible assumption | with_reducible refine done_keeps (Sub.trans (by decide) hM) ?_
    | with_reducible refine modLane_keeps (Sub.trans (by decide) hM) ?_
    | with_reducible refine setLane_keeps (Sub.trans (by decide) hM) ?_
    | with_reducible refine keeps_ite (fun _ => ?_) (fun _ => ?_) | with_reducible refine keeps_id ?_
    | with_reducible refine keepsO_next ?_ | with_reducible refine keepsO_ite (fun _ => ?_) (fun _ => ?_)

theorem execLaneCheckWindowEnd_keeps {M : Nat} {s : State} (hM : Sub 268435452 M) :
    ∀ {t : State} {a1 a2}, Keeps M s t → KeepsO M s (execLaneCheckWindowEnd a1 a2 t) := by
  intro _ _ _ h0
  unfold execLaneCheckWindowEnd
  repeat' first
    | with_reducible assumption | with_reducible refine done_keeps (Sub.trans (by decide) hM) ?_
    | with_reducible refine modLane_keeps (Sub.trans (by decide) hM) ?_
    | with_reducible refine setLane_keeps (Sub.trans (by decide) hM) ?_
    | with_reducible refine tookFree_keeps (Sub.trans (by decide) hM) ?_
    | with_reducible refine keeps_ite (fun _ => ?_) (fun _ => ?_) | with_reducible refine keeps_id ?_
    | with_reducible refine keepsO_next ?_ | with_reducible refine keepsO_ite (fun _ => ?_) (fun _ => ?_)

theorem execLaneBlockLock_keeps {M : Nat} {s : State} (hM : Sub 268435452 M) :
    ∀ {t : State} {a1}, Keeps M s t → KeepsO M s (execLaneBlockLock a1 t) := by
  intro _ _ h0
  unfold execLaneBlockLock
  repeat' first
    | with_reducible assumption | with_reducible refine done_keeps (Sub.trans (by decide) hM) ?_
    | with_reducible refine enterLinked_keeps (Sub.trans (by decide) hM) ?_
    | with_reducible refine keeps_ite (fun _ => ?_) (fun _ => ?_) | with_reducible refine keeps_id ?_
    | with_reducible refine keepsO_next ?_ | with_reducible refine keepsO_ite (fun _ => ?_) (fun _ => ?_)

theorem execLaneAttemptTimeout_keeps {M : Nat} {s : State} (hM : Sub 268435452 M) :
    ∀ {t : State} {a1}, Keeps M s t → KeepsO M s (execLaneAttemptTimeout a1 t) := by
  intro _ _ h0
  unfold execLaneAttemptTimeout
  repeat' first
    | with_reducible assumption | with_reducible refine done_keeps (Sub.trans (by decide) hM) ?_
    | with_reducible refine attemptFail_keeps (Sub.trans (by decide) hM) ?_
    | with_reducible refine keeps_ite (fun _ => ?_) (fun _ => ?_) | with_reducible refine keeps_id ?_
    | with_reducible refine keepsO_next ?_ | with_reducible refine keepsO_ite (fun _ => ?_) (fun _ => ?_)

theorem execLaneRetryEnd_keeps {M : Nat} {s : State} (hM : Sub 268435452 M) :
    ∀ {t : State} {a1}, Keeps M s t → KeepsO M s (execLaneRetryEnd a1 t) := by
  intro _ _ h0
  unfold execLaneRetryEnd
  repeat' first
    | with_reducible assumption | with_reducible refine done_keeps (Sub.trans (by decide) hM) ?_
    | with_reducible refine startAttempt_keeps (Sub.trans (by decide) hM) ?_
    | with_reducible refine keeps_ite (fun _ => ?_) (fun _ => ?_) | with_reducible refine keeps_id ?_
    | with_reducible refine keepsO_next ?_ | with_reducible refine keepsO_ite (fun _ => ?_) (fun _ => ?_)

theorem execLaneAutoRetrain_keeps {M : Nat} {s : State} (hM : Sub 268435452 M) :
    ∀ {t : State} {a1}, Keeps M s t → KeepsO M s (execLaneAutoRetrain a1 t) := by
  intro _ _ h0
  unfold execLaneAutoRetrain
  repeat' first
    | with_reducible assumption | with_reducible refine done_keeps (Sub.trans (by decide) hM) ?_
    | with_reducible refine freshAttempt_keeps (Sub.trans (by decide) hM) ?_
    | with_reducible refine keeps_ite (fun _ => ?_) (fun _ => ?_) | with_reducible refine keeps_id ?_
    | with_reducible refine keepsO_next ?_ | with_reducible refine keepsO_ite (fun _ => ?_) (fun _ => ?_)

theorem execLaneHuntTimeout_keeps {M : Nat} {s : State} (hM : Sub 268435452 M) :
    ∀ {t : State} {a1}, Keeps M s t → KeepsO M s (execLaneHuntTimeout a1 t) := by
  intro _ _ h0
  unfold execLaneHuntTimeout
  repeat' first
    | with_reducible assumption | with_reducible refine done_keeps (Sub.trans (by decide) hM) ?_
    | with_reducible refine freshAttempt_keeps (Sub.trans (by decide) hM) ?_
    | with_reducible refine keeps_ite (fun _ => ?_) (fun _ => ?_) | with_reducible refine keeps_id ?_
    | with_reducible refine keepsO_next ?_ | with_reducible refine keepsO_ite (fun _ => ?_) (fun _ => ?_)

theorem execLaneSignalDetectChange_keeps {M : Nat} {s : State} (hM : Sub 268435452 M) :
    ∀ {t : State} {a1 a2}, Keeps M s t → KeepsO M s (execLaneSignalDetectChange a1 a2 t) := by
  intro _ _ _ h0
  unfold execLaneSignalDetectChange
  repeat' first
    | with_reducible assumption | with_reducible refine modLane_keeps (Sub.trans (by decide) hM) ?_
    | with_reducible refine done_keeps (Sub.trans (by decide) hM) ?_
    | with_reducible refine lockLoss_keeps (Sub.trans (by decide) hM) ?_
    | with_reducible refine keeps_ite (fun _ => ?_) (fun _ => ?_) | with_reducible refine keeps_id ?_
    | with_reducible refine keepsO_next ?_ | with_reducible refine keepsO_ite (fun _ => ?_) (fun _ => ?_)

theorem execWakeBurstRx_keeps {M : Nat} {s : State} (hM : Sub 16448 M) :
    ∀ {t : State} {a1}, Keeps M s t → KeepsO M s (execWakeBurstRx a1 t) := by
  intro _ _ h0
  unfold execWakeBurstRx
  repeat' first
    | with_reducible assumption | with_reducible refine modLane_keeps (Sub.trans (by decide) hM) ?_
    | with_reducible refine bump_keeps (Sub.trans (by decide) hM) ?_ | with_reducible refine keeps_ite (fun _ => ?_) (fun _ => ?_)
    | with_reducible refine keeps_id ?_ | with_reducible refine keepsO_next ?_
    | with_reducible refine keepsO_ite (fun _ => ?_) (fun _ => ?_)

theorem execWakeMarkerTimeout_keeps {M : Nat} {s : State} (hM : Sub 268435452 M) :
    ∀ {t : State} {a1}, Keeps M s t → KeepsO M s (execWakeMarkerTimeout a1 t) := by
  intro _ _ h0
  unfold execWakeMarkerTimeout
  repeat' first
    | with_reducible assumption | with_reducible refine done_keeps (Sub.trans (by decide) hM) ?_
    | with_reducible refine enterHunt_keeps (Sub.trans (by decide) hM) ?_
    | with_reducible refine keeps_ite (fun _ => ?_) (fun _ => ?_) | with_reducible refine keeps_id ?_
    | with_reducible refine keepsO_next ?_ | with_reducible refine keepsO_ite (fun _ => ?_) (fun _ => ?_) | with_reducible split

theorem execIdleGapTimeout_keeps {M : Nat} {s : State} (hM : Sub 268435452 M) :
    ∀ {t : State} {a1}, Keeps M s t → KeepsO M s (execIdleGapTimeout a1 t) := by
  intro _ _ h0
  unfold execIdleGapTimeout
  repeat' first
    | with_reducible assumption | with_reducible refine done_keeps (Sub.trans (by decide) hM) ?_
    | with_reducible refine lockLoss_keeps (Sub.trans (by decide) hM) ?_
    | with_reducible refine keeps_ite (fun _ => ?_) (fun _ => ?_) | with_reducible refine keeps_id ?_
    | with_reducible refine keepsO_next ?_ | with_reducible refine keepsO_ite (fun _ => ?_) (fun _ => ?_) | with_reducible split

theorem execLaneIdleEnter_keeps {M : Nat} {s : State} (hM : Sub 268435452 M) :
    ∀ {t : State} {a1}, Keeps M s t → KeepsO M s (execLaneIdleEnter a1 t) := by
  intro _ _ h0
  unfold execLaneIdleEnter
  repeat' first
    | with_reducible assumption | with_reducible refine done_keeps (Sub.trans (by decide) hM) ?_
    | with_reducible refine setLane_keeps (Sub.trans (by decide) hM) ?_
    | with_reducible refine keeps_ite (fun _ => ?_) (fun _ => ?_) | with_reducible refine keeps_id ?_
    | with_reducible refine keepsO_next ?_ | with_reducible refine keepsO_ite (fun _ => ?_) (fun _ => ?_)

theorem execIdleMaxGapWake_keeps {M : Nat} {s : State} (hM : Sub 268435452 M) :
    ∀ {t : State} {a1}, Keeps M s t → KeepsO M s (execIdleMaxGapWake a1 t) := by
  intro _ _ h0
  unfold execIdleMaxGapWake
  repeat' first
    | with_reducible assumption | with_reducible refine done_keeps (Sub.trans (by decide) hM) ?_
    | with_reducible refine sendBlock_keeps (Sub.trans (by decide) hM) ?_
    | with_reducible refine burstDue_keeps (Sub.trans (by decide) hM) ?_
    | with_reducible refine keeps_ite (fun _ => ?_) (fun _ => ?_) | with_reducible refine keeps_id ?_
    | with_reducible refine keepsO_next ?_ | with_reducible refine keepsO_ite (fun _ => ?_) (fun _ => ?_)

theorem crcAlarm_keeps {M : Nat} {s : State} (hM : Sub 24824 M) :
    ∀ {t : State} {a1}, Keeps M s t → Keeps M s (State.crcAlarm t a1) := by
  intro _ _ h0
  unfold State.crcAlarm
  repeat' first
    | with_reducible assumption | with_reducible refine fire_keeps (Sub.trans (by decide) hM) ?_
    | with_reducible refine modLane_keeps (Sub.trans (by decide) hM) ?_
    | with_reducible refine keeps_ite (fun _ => ?_) (fun _ => ?_)

theorem execBlockCrcFail_keeps {M : Nat} {s : State} (hM : Sub 268435452 M) :
    ∀ {t : State} {a1}, Keeps M s t → KeepsO M s (execBlockCrcFail a1 t) := by
  intro _ _ h0
  unfold execBlockCrcFail
  repeat' first
    | with_reducible assumption | with_reducible refine modLane_keeps (Sub.trans (by decide) hM) ?_
    | with_reducible refine bump_keeps (Sub.trans (by decide) hM) ?_
    | with_reducible refine crcAlarm_keeps (Sub.trans (by decide) hM) ?_
    | with_reducible refine done_keeps (Sub.trans (by decide) hM) ?_
    | with_reducible refine lockLoss_keeps (Sub.trans (by decide) hM) ?_
    | with_reducible refine keeps_ite (fun _ => ?_) (fun _ => ?_) | with_reducible refine keeps_id ?_
    | with_reducible refine keepsO_next ?_ | with_reducible refine keepsO_ite (fun _ => ?_) (fun _ => ?_)

theorem execCrcWindowEnd_keeps {M : Nat} {s : State} (hM : Sub 268435452 M) :
    ∀ {t : State} {a1}, Keeps M s t → KeepsO M s (execCrcWindowEnd a1 t) := by
  intro _ _ h0
  unfold execCrcWindowEnd
  repeat' first
    | with_reducible assumption | with_reducible refine done_keeps (Sub.trans (by decide) hM) ?_
    | with_reducible refine modLane_keeps (Sub.trans (by decide) hM) ?_
    | with_reducible refine crcAlarm_keeps (Sub.trans (by decide) hM) ?_
    | with_reducible refine keeps_ite (fun _ => ?_) (fun _ => ?_) | with_reducible refine keeps_id ?_
    | with_reducible refine keepsO_next ?_ | with_reducible refine keepsO_ite (fun _ => ?_) (fun _ => ?_)

theorem execDfeAdaptInterval_keeps {M : Nat} {s : State} (hM : Sub 16384 M) :
    ∀ {t : State} {a1 a2 a3 a4 a5 a6}, Keeps M s t → KeepsO M s (execDfeAdaptInterval a1 a2 a3 a4 a5 a6 t) := by
  intro _ _ _ _ _ _ _ h0
  unfold execDfeAdaptInterval
  repeat' first
    | with_reducible assumption | with_reducible refine modLane_keeps (Sub.trans (by decide) hM) ?_
    | with_reducible refine keeps_ite (fun _ => ?_) (fun _ => ?_) | with_reducible refine keeps_id ?_
    | with_reducible refine keepsO_next ?_ | with_reducible refine keepsO_ite (fun _ => ?_) (fun _ => ?_)

theorem execEyeWindowEnd_keeps {M : Nat} {s : State} (hM : Sub 16384 M) :
    ∀ {t : State} {a1 a2 a3 a4}, Keeps M s t → KeepsO M s (execEyeWindowEnd a1 a2 a3 a4 t) := by
  intro _ _ _ _ _ h0
  unfold execEyeWindowEnd
  repeat' first
    | with_reducible assumption | with_reducible refine modLane_keeps (Sub.trans (by decide) hM) ?_
    | with_reducible refine keeps_ite (fun _ => ?_) (fun _ => ?_) | with_reducible refine keeps_id ?_
    | with_reducible refine keepsO_next ?_ | with_reducible refine keepsO_ite (fun _ => ?_) (fun _ => ?_)

theorem patternOut_keeps {M : Nat} {s : State} (hM : Sub 16384 M) :
    ∀ {t : State} {a1 a2}, Keeps M s t → Keeps M s (State.patternOut t a1 a2) := by
  intro _ _ _ h0
  unfold State.patternOut
  repeat' first
    | with_reducible assumption | with_reducible refine modLane_keeps (Sub.trans (by decide) hM) ?_
    | with_reducible refine putOut_keeps (Sub.trans (by decide) hM) ?_ | with_reducible refine keeps_ite (fun _ => ?_) (fun _ => ?_)

theorem execTestCheckerLock_keeps {M : Nat} {s : State} (hM : Sub 16384 M) :
    ∀ {t : State} {a1 a2 a3 a4 a5}, Keeps M s t → KeepsO M s (execTestCheckerLock a1 a2 a3 a4 a5 t) := by
  intro _ _ _ _ _ _ h0
  unfold execTestCheckerLock
  repeat' first
    | with_reducible assumption | with_reducible refine patternOut_keeps (Sub.trans (by decide) hM) ?_
    | with_reducible refine modLane_keeps (Sub.trans (by decide) hM) ?_ | with_reducible refine keeps_foldl ?_ ?_
    | with_reducible refine keeps_foldlP ?_ ?_ | with_reducible refine keeps_ite (fun _ => ?_) (fun _ => ?_)
    | with_reducible refine keeps_id ?_ | with_reducible refine keepsO_next ?_
    | with_reducible refine keepsO_ite (fun _ => ?_) (fun _ => ?_)

theorem unitCmd_keeps {M : Nat} {s : State} (hM : Sub 67664 M) : ∀ {t : State} {a : Nat} {q : Request} {b : Nat} {p : Bytes} {f : State → State},
    Keeps M s t → (∀ u, Keeps M s u → Keeps M s (f u)) → Keeps M s (t.unitCmd a q b p f) := by
  intro t a q b p f h hf
  unfold State.unitCmd
  repeat' first
    | with_reducible assumption | with_reducible refine keeps_ite (fun _ => ?_) (fun _ => ?_) | with_reducible refine hf _ ?_
    | with_reducible refine refuse_keeps (Sub.trans (by decide) hM) ?_
    | with_reducible refine replyOk_keeps (Sub.trans (by decide) hM) ?_
    | with_reducible refine finishWrite_keeps (Sub.trans (by decide) hM) ?_

theorem execLaneRetrain_keeps {M : Nat} {s : State} (hM : Sub 268435452 M) :
    ∀ {t : State} {a1}, Keeps M s t → KeepsO M s (execLaneRetrain a1 t) := by
  intro _ _ h0
  unfold execLaneRetrain
  repeat' first
    | with_reducible assumption | with_reducible refine done_keeps (Sub.trans (by decide) hM) ?_
    | with_reducible refine withCmd_keeps (Sub.trans (by decide) hM) ?_ ?_
    | with_reducible refine unitCmd_keeps (Sub.trans (by decide) hM) ?_ ?_
    | with_reducible refine freshAttempt_keeps (Sub.trans (by decide) hM) ?_
    | with_reducible refine refuse_keeps (Sub.trans (by decide) hM) ?_ | with_reducible refine keeps_foldl ?_ ?_
    | with_reducible refine keeps_foldlP ?_ ?_ | with_reducible refine keeps_ite (fun _ => ?_) (fun _ => ?_)
    | with_reducible refine keeps_id ?_ | with_reducible refine keepsO_next ?_
    | with_reducible refine keepsO_ite (fun _ => ?_) (fun _ => ?_) | with_reducible split | with_reducible intro _

theorem execLaneHalt_keeps {M : Nat} {s : State} (hM : Sub 268435452 M) :
    ∀ {t : State} {a1}, Keeps M s t → KeepsO M s (execLaneHalt a1 t) := by
  intro _ _ h0
  unfold execLaneHalt
  repeat' first
    | with_reducible assumption | with_reducible refine done_keeps (Sub.trans (by decide) hM) ?_
    | with_reducible refine withCmd_keeps (Sub.trans (by decide) hM) ?_ ?_
    | with_reducible refine unitCmd_keeps (Sub.trans (by decide) hM) ?_ ?_
    | with_reducible refine setLane_keeps (Sub.trans (by decide) hM) ?_
    | with_reducible refine refuse_keeps (Sub.trans (by decide) hM) ?_ | with_reducible refine keeps_foldl ?_ ?_
    | with_reducible refine keeps_foldlP ?_ ?_ | with_reducible refine keeps_ite (fun _ => ?_) (fun _ => ?_)
    | with_reducible refine keeps_id ?_ | with_reducible refine keepsO_next ?_
    | with_reducible refine keepsO_ite (fun _ => ?_) (fun _ => ?_) | with_reducible split | with_reducible intro _

theorem startTest_keeps {M : Nat} {s : State} (hM : Sub 81932 M) :
    ∀ {t : State} {a1 a2 a3}, Keeps M s t → Keeps M s (State.startTest t a1 a2 a3) := by
  intro _ _ _ _ h0
  unfold State.startTest
  repeat' first
    | with_reducible assumption | with_reducible refine modLane_keeps (Sub.trans (by decide) hM) ?_
    | with_reducible refine setLane_keeps (Sub.trans (by decide) hM) ?_
    | with_reducible refine tookFree_keeps (Sub.trans (by decide) hM) ?_
    | with_reducible refine patternOut_keeps (Sub.trans (by decide) hM) ?_
    | with_reducible refine burstDue_keeps (Sub.trans (by decide) hM) ?_
    | with_reducible refine keeps_ite (fun _ => ?_) (fun _ => ?_)

theorem execLaneTestStart_keeps {M : Nat} {s : State} (hM : Sub 268435452 M) :
    ∀ {t : State} {a1}, Keeps M s t → KeepsO M s (execLaneTestStart a1 t) := by
  intro _ _ h0
  unfold execLaneTestStart
  repeat' first
    | with_reducible assumption | with_reducible refine done_keeps (Sub.trans (by decide) hM) ?_
    | with_reducible refine withCmd_keeps (Sub.trans (by decide) hM) ?_ ?_
    | with_reducible refine refuse_keeps (Sub.trans (by decide) hM) ?_
    | with_reducible refine unitCmd_keeps (Sub.trans (by decide) hM) ?_ ?_
    | with_reducible refine tookFree_keeps (Sub.trans (by decide) hM) ?_
    | with_reducible refine startTest_keeps (Sub.trans (by decide) hM) ?_
    | with_reducible refine keeps_ite (fun _ => ?_) (fun _ => ?_) | with_reducible refine keeps_id ?_
    | with_reducible refine keepsO_next ?_ | with_reducible refine keepsO_ite (fun _ => ?_) (fun _ => ?_) | with_reducible split
    | with_reducible intro _

theorem execLaneTestStop_keeps {M : Nat} {s : State} (hM : Sub 268435452 M) :
    ∀ {t : State} {a1}, Keeps M s t → KeepsO M s (execLaneTestStop a1 t) := by
  intro _ _ h0
  unfold execLaneTestStop
  repeat' first
    | with_reducible assumption | with_reducible refine done_keeps (Sub.trans (by decide) hM) ?_
    | with_reducible refine withCmd_keeps (Sub.trans (by decide) hM) ?_ ?_
    | with_reducible refine refuse_keeps (Sub.trans (by decide) hM) ?_
    | with_reducible refine unitCmd_keeps (Sub.trans (by decide) hM) ?_ ?_
    | with_reducible refine freshAttempt_keeps (Sub.trans (by decide) hM) ?_
    | with_reducible refine keeps_ite (fun _ => ?_) (fun _ => ?_) | with_reducible refine keeps_id ?_
    | with_reducible refine keepsO_next ?_ | with_reducible refine keepsO_ite (fun _ => ?_) (fun _ => ?_) | with_reducible split
    | with_reducible intro _

theorem execLaneTestRead_keeps {M : Nat} {s : State} (hM : Sub 268435452 M) :
    ∀ {t : State} {a1}, Keeps M s t → KeepsO M s (execLaneTestRead a1 t) := by
  intro _ _ h0
  unfold execLaneTestRead
  repeat' first
    | with_reducible assumption | with_reducible refine done_keeps (Sub.trans (by decide) hM) ?_
    | with_reducible refine withCmd_keeps (Sub.trans (by decide) hM) ?_ ?_
    | with_reducible refine refuse_keeps (Sub.trans (by decide) hM) ?_
    | with_reducible refine replyOk_keeps (Sub.trans (by decide) hM) ?_
    | with_reducible refine keeps_ite (fun _ => ?_) (fun _ => ?_) | with_reducible refine keeps_id ?_
    | with_reducible refine keepsO_next ?_ | with_reducible refine keepsO_ite (fun _ => ?_) (fun _ => ?_) | with_reducible split
    | with_reducible intro _

theorem modPort_keeps {M : Nat} {s : State} (hM : Sub 1024 M) :
    ∀ {t : State} {a1 a2}, Keeps M s t → Keeps M s (State.modPort t a1 a2) := by
  intro _ _ _ h0
  unfold State.modPort
  repeat' first
    | with_reducible assumption | with_reducible refine updSta_keeps (Sub.trans (by decide) hM) ?_

theorem stampPop_keeps {M : Nat} {s : State} (hM : Sub 1024 M) :
    ∀ {t : State} {a1}, Keeps M s t → Keeps M s (State.stampPop t a1) := by
  intro _ _ h0
  unfold State.stampPop
  repeat' first
    | with_reducible assumption | with_reducible refine modPort_keeps (Sub.trans (by decide) hM) ?_

theorem stampPut_keeps {M : Nat} {s : State} (hM : Sub 1088 M) :
    ∀ {t : State} {a1 a2}, Keeps M s t → Keeps M s (State.stampPut t a1 a2).1 := by
  intro _ _ _ h0
  unfold State.stampPut
  repeat' first
    | with_reducible assumption | with_reducible refine bump_keeps (Sub.trans (by decide) hM) ?_
    | with_reducible refine modPort_keeps (Sub.trans (by decide) hM) ?_
    | with_reducible refine keeps_ite (fun _ => ?_) (fun _ => ?_) | with_reducible refine keeps_id ?_ | with_reducible split

theorem ptpOut1_keeps {M : Nat} {s : State} (hM : Sub 1088 M) :
    ∀ {t : State} {a1 a2 a3 a4}, Keeps M s t → Keeps M s (State.ptpOut1 t a1 a2 a3 a4) := by
  intro _ _ _ _ _ h0
  unfold State.ptpOut1
  repeat' first
    | with_reducible assumption | with_reducible refine bump_keeps (Sub.trans (by decide) hM) ?_
    | with_reducible refine modPort_keeps (Sub.trans (by decide) hM) ?_
    | with_reducible refine stampPut_keeps (Sub.trans (by decide) hM) ?_
    | with_reducible refine stampPop_keeps (Sub.trans (by decide) hM) ?_
    | with_reducible refine keeps_ite (fun _ => ?_) (fun _ => ?_) | with_reducible refine keeps_id ?_ | with_reducible split

theorem ptpDrainN_keeps {M : Nat} {s : State} (hM : Sub 1088 M) : ∀ {n : Nat} {k : Nat} {t : State}, Keeps M s t → Keeps M s (State.ptpDrainN n k t) := by
  intro n
  induction n with
  | zero =>
    intro k t h
    unfold State.ptpDrainN
    first
      | exact h
  | succ n ih =>
    intro k t h
    unfold State.ptpDrainN
    repeat' first
      | with_reducible assumption | with_reducible refine keeps_ite (fun _ => ?_) (fun _ => ?_)
      | with_reducible refine ptpOut1_keeps (Sub.trans (by decide) hM) ?_ | with_reducible refine ih ?_ | with_reducible split
  

theorem ptpDrain_keeps {M : Nat} {s : State} (hM : Sub 1088 M) :
    ∀ {t : State} {a1}, Keeps M s t → Keeps M s (State.ptpDrain t a1) := by
  intro _ _ h0
  unfold State.ptpDrain
  repeat' first
    | with_reducible assumption | with_reducible refine ptpDrainN_keeps (Sub.trans (by decide) hM) ?_

theorem ptpSend_keeps {M : Nat} {s : State} (hM : Sub 1088 M) :
    ∀ {t : State} {a1 a2}, Keeps M s t → Keeps M s (State.ptpSend t a1 a2) := by
  intro _ _ _ h0
  unfold State.ptpSend
  repeat' first
    | with_reducible assumption | with_reducible refine ptpDrain_keeps (Sub.trans (by decide) hM) ?_
    | with_reducible refine modPort_keeps (Sub.trans (by decide) hM) ?_

theorem ptpHear_keeps {M : Nat} {s : State} (hM : Sub 1024 M) :
    ∀ {t : State} {a1 a2}, Keeps M s t → Keeps M s (State.ptpHear t a1 a2) := by
  intro _ _ _ h0
  unfold State.ptpHear
  repeat' first
    | with_reducible assumption | with_reducible refine modPort_keeps (Sub.trans (by decide) hM) ?_
    | with_reducible refine keeps_ite (fun _ => ?_) (fun _ => ?_)

theorem ptpAnnounce_keeps {M : Nat} {s : State} (hM : Sub 1088 M) :
    ∀ {t : State} {a1}, Keeps M s t → Keeps M s (State.ptpAnnounce t a1) := by
  intro _ _ h0
  unfold State.ptpAnnounce
  repeat' first
    | with_reducible assumption | with_reducible refine modPort_keeps (Sub.trans (by decide) hM) ?_
    | with_reducible refine ptpSend_keeps (Sub.trans (by decide) hM) ?_
    | with_reducible refine keeps_ite (fun _ => ?_) (fun _ => ?_)

theorem ptpServo_keeps {M : Nat} {s : State} (hM : Sub 1604 M) :
    ∀ {t : State} {a1 a2}, Keeps M s t → Keeps M s (State.ptpServo t a1 a2) := by
  intro _ _ _ h0
  unfold State.ptpServo
  repeat' first
    | with_reducible assumption | with_reducible refine modPort_keeps (Sub.trans (by decide) hM) ?_
    | with_reducible refine ppsSync_keeps (Sub.trans (by decide) hM) ?_
    | with_reducible refine setParam_keeps (Sub.trans (by decide) hM) ?_
    | with_reducible refine setTime_keeps (Sub.trans (by decide) hM) ?_
    | with_reducible refine tookFree_keeps (Sub.trans (by decide) hM) ?_
    | with_reducible refine keeps_ite (fun _ => ?_) (fun _ => ?_)

theorem ptpTake_keeps {M : Nat} {s : State} (hM : Sub 1604 M) :
    ∀ {t : State} {a1 a2 a3}, Keeps M s t → Keeps M s (State.ptpTake t a1 a2 a3) := by
  intro _ _ _ _ h0
  unfold State.ptpTake
  repeat' first
    | with_reducible assumption | with_reducible refine modPort_keeps (Sub.trans (by decide) hM) ?_
    | with_reducible refine ptpServo_keeps (Sub.trans (by decide) hM) ?_
    | with_reducible refine ptpSend_keeps (Sub.trans (by decide) hM) ?_
    | with_reducible refine ptpHear_keeps (Sub.trans (by decide) hM) ?_
    | with_reducible refine keeps_ite (fun _ => ?_) (fun _ => ?_) | with_reducible refine keeps_id ?_ | with_reducible split

theorem newTransaction_keeps {M : Nat} {s : State} (hM : Sub 8192 M) :
    ∀ {t : State}, Keeps M s t → Keeps M s (State.newTransaction t) := by
  intro _ h0
  unfold State.newTransaction
  repeat' first
    | with_reducible assumption | with_reducible refine updPantry_keeps (Sub.trans (by decide) hM) ?_ ?_
    | with_reducible refine keeps_ite (fun _ => ?_) (fun _ => ?_) | with_reducible refine keeps_id ?_ | (intro hi; exact hi.mem)

theorem hostWrote_keeps {M : Nat} {s : State} (hM : Sub 16 M) :
    ∀ {t : State}, Keeps M s t → Keeps M s (State.hostWrote t) := by
  intro _ h0
  unfold State.hostWrote
  repeat' first
    | with_reducible assumption | with_reducible refine updHatch_keeps (Sub.trans (by decide) hM) ?_

theorem hostReads_keeps {M : Nat} {s : State} (hM : Sub 16 M) :
    ∀ {t : State} {a1}, Keeps M s t → Keeps M s (State.hostReads t a1) := by
  intro _ _ h0
  unfold State.hostReads
  repeat' first
    | with_reducible assumption | with_reducible refine updHatch_keeps (Sub.trans (by decide) hM) ?_

theorem ringBox_keeps {M : Nat} {s : State} (hM : Sub 16 M) :
    ∀ {t : State} {a1}, Keeps M s t → Keeps M s (State.ringBox t a1) := by
  intro _ _ h0
  unfold State.ringBox
  repeat' first
    | with_reducible assumption | with_reducible refine updHatch_keeps (Sub.trans (by decide) hM) ?_
    | with_reducible refine modBox_keeps (Sub.trans (by decide) hM) ?_
    | with_reducible refine hostErrSet_keeps (Sub.trans (by decide) hM) ?_
    | with_reducible refine keeps_ite (fun _ => ?_) (fun _ => ?_) | with_reducible refine keeps_id ?_ | with_reducible split

theorem doorbell_keeps {M : Nat} {s : State} (hM : Sub 16 M) :
    ∀ {t : State} {a1}, Keeps M s t → Keeps M s (State.doorbell t a1) := by
  intro _ _ h0
  unfold State.doorbell
  repeat' first
    | with_reducible assumption | with_reducible refine ringBox_keeps (Sub.trans (by decide) hM) ?_
    | with_reducible refine keeps_foldl ?_ ?_ | with_reducible refine keeps_foldlP ?_ ?_
    | with_reducible refine keeps_ite (fun _ => ?_) (fun _ => ?_) | with_reducible refine keeps_id ?_ | with_reducible split
    | with_reducible intro _

theorem execHatchDoorbell_keeps {M : Nat} {s : State} (hM : Sub 16 M) :
    ∀ {t : State} {a1}, Keeps M s t → KeepsO M s (execHatchDoorbell a1 t) := by
  intro _ _ h0
  unfold execHatchDoorbell
  repeat' first
    | with_reducible assumption | with_reducible refine doorbell_keeps (Sub.trans (by decide) hM) ?_
    | with_reducible refine hostWrote_keeps (Sub.trans (by decide) hM) ?_
    | with_reducible refine keeps_ite (fun _ => ?_) (fun _ => ?_) | with_reducible refine keeps_id ?_
    | with_reducible refine keepsO_next ?_ | with_reducible refine keepsO_ite (fun _ => ?_) (fun _ => ?_)

theorem doneWrite_keeps {M : Nat} {s : State} (hM : Sub 16 M) :
    ∀ {t : State} {a1}, Keeps M s t → Keeps M s (State.doneWrite t a1) := by
  intro _ _ h0
  unfold State.doneWrite
  repeat' first
    | with_reducible assumption | with_reducible refine modBox_keeps (Sub.trans (by decide) hM) ?_
    | with_reducible refine keeps_foldl ?_ ?_ | with_reducible refine keeps_foldlP ?_ ?_
    | with_reducible refine keeps_ite (fun _ => ?_) (fun _ => ?_) | with_reducible refine keeps_id ?_ | with_reducible split
    | with_reducible intro _

theorem execHatchDoneWrite_keeps {M : Nat} {s : State} (hM : Sub 16 M) :
    ∀ {t : State} {a1}, Keeps M s t → KeepsO M s (execHatchDoneWrite a1 t) := by
  intro _ _ h0
  unfold execHatchDoneWrite
  repeat' first
    | with_reducible assumption | with_reducible refine doneWrite_keeps (Sub.trans (by decide) hM) ?_
    | with_reducible refine hostWrote_keeps (Sub.trans (by decide) hM) ?_
    | with_reducible refine keeps_ite (fun _ => ?_) (fun _ => ?_) | with_reducible refine keeps_id ?_
    | with_reducible refine keepsO_next ?_ | with_reducible refine keepsO_ite (fun _ => ?_) (fun _ => ?_)

theorem hostErrClear_keeps {M : Nat} {s : State} (hM : Sub 16 M) :
    ∀ {t : State} {a1}, Keeps M s t → Keeps M s (State.hostErrClear t a1) := by
  intro _ _ h0
  unfold State.hostErrClear
  repeat' first
    | with_reducible assumption | with_reducible refine updHatch_keeps (Sub.trans (by decide) hM) ?_

theorem execHostErrWrite_keeps {M : Nat} {s : State} (hM : Sub 16 M) :
    ∀ {t : State} {a1}, Keeps M s t → KeepsO M s (execHostErrWrite a1 t) := by
  intro _ _ h0
  unfold execHostErrWrite
  repeat' first
    | with_reducible assumption | with_reducible refine hostErrClear_keeps (Sub.trans (by decide) hM) ?_
    | with_reducible refine hostWrote_keeps (Sub.trans (by decide) hM) ?_
    | with_reducible refine keeps_ite (fun _ => ?_) (fun _ => ?_) | with_reducible refine keeps_id ?_
    | with_reducible refine keepsO_next ?_ | with_reducible refine keepsO_ite (fun _ => ?_) (fun _ => ?_)

theorem execGloadRead_keeps {M : Nat} {s : State} (hM : Sub 48 M) :
    ∀ {t : State}, Keeps M s t → KeepsO M s (execGloadRead t) := by
  intro _ h0
  unfold execGloadRead
  repeat' first
    | with_reducible assumption | with_reducible refine updNotif_keeps (Sub.trans (by decide) hM) ?_ ?_
    | with_reducible refine hostReads_keeps (Sub.trans (by decide) hM) ?_
    | with_reducible refine keeps_ite (fun _ => ?_) (fun _ => ?_) | with_reducible refine keeps_id ?_
    | with_reducible refine keepsO_next ?_ | with_reducible refine keepsO_ite (fun _ => ?_) (fun _ => ?_)
    | (intro hi; obtain ⟨a, b, c, d, e, f, g⟩ := hi.notif; refine ⟨?_, ?_, ?_, ?_, ?_, ?_, ?_⟩ <;> first | assumption | exact Nat.mod_lt _ (by decide) | exact Nat.zero_le _ | (simp; done) | (simp; omega))

theorem flushHold_keeps {M : Nat} {s : State} (hM : Sub 8304 M) :
    ∀ {t : State}, Keeps M s t → Keeps M s (State.flushHold t) := by
  intro _ h0
  unfold State.flushHold
  repeat' first
    | with_reducible assumption | with_reducible refine putNote_keeps (Sub.trans (by decide) hM) ?_
    | with_reducible refine updNotif_keeps (Sub.trans (by decide) hM) ?_ ?_ | with_reducible refine keeps_foldl ?_ ?_
    | with_reducible refine keeps_foldlP ?_ ?_ | with_reducible refine keeps_ite (fun _ => ?_) (fun _ => ?_)
    | with_reducible refine keeps_id ?_
    | (intro hi; obtain ⟨a, b, c, d, e, f, g⟩ := hi.notif; refine ⟨?_, ?_, ?_, ?_, ?_, ?_, ?_⟩ <;> first | assumption | exact Nat.mod_lt _ (by decide) | exact Nat.zero_le _ | (simp; done) | (simp; omega))
    | with_reducible split | with_reducible intro _

theorem nrCtrl_keeps {M : Nat} {s : State} (hM : Sub 8304 M) :
    ∀ {t : State} {a1}, Keeps M s t → Keeps M s (State.nrCtrl t a1) := by
  intro _ _ h0
  unfold State.nrCtrl
  repeat' first
    | with_reducible assumption | with_reducible refine updNotif_keeps (Sub.trans (by decide) hM) ?_ ?_
    | with_reducible refine irqSince_keeps (Sub.trans (by decide) hM) ?_ ?_
    | with_reducible refine flushHold_keeps (Sub.trans (by decide) hM) ?_
    | with_reducible refine keeps_ite (fun _ => ?_) (fun _ => ?_) | with_reducible refine keeps_id ?_
    | (intro hi; obtain ⟨a, b, c, d, e, f, g⟩ := hi.notif; refine ⟨?_, ?_, ?_, ?_, ?_, ?_, ?_⟩ <;> first | assumption | exact Nat.mod_lt _ (by decide) | exact Nat.zero_le _ | (simp; done) | (simp; omega))

theorem execNrCtrlWrite_keeps {M : Nat} {s : State} (hM : Sub 8304 M) :
    ∀ {t : State} {a1}, Keeps M s t → KeepsO M s (execNrCtrlWrite a1 t) := by
  intro _ _ h0
  unfold execNrCtrlWrite
  repeat' first
    | with_reducible assumption | with_reducible refine nrCtrl_keeps (Sub.trans (by decide) hM) ?_
    | with_reducible refine hostWrote_keeps (Sub.trans (by decide) hM) ?_
    | with_reducible refine keeps_ite (fun _ => ?_) (fun _ => ?_) | with_reducible refine keeps_id ?_
    | with_reducible refine keepsO_next ?_ | with_reducible refine keepsO_ite (fun _ => ?_) (fun _ => ?_)

theorem nrTail_keeps {M : Nat} {s : State} (hM : Sub 36 M) :
    ∀ {t : State} {a1}, Keeps M s t → Keeps M s (State.nrTail t a1) := by
  intro _ _ h0
  unfold State.nrTail
  repeat' first
    | with_reducible assumption | with_reducible refine tookFree_keeps (Sub.trans (by decide) hM) ?_
    | with_reducible refine updNotif_keeps (Sub.trans (by decide) hM) ?_ ?_
    | with_reducible refine keeps_ite (fun _ => ?_) (fun _ => ?_) | with_reducible refine keeps_id ?_
    | (intro hi; obtain ⟨a, b, c, d, e, f, g⟩ := hi.notif; refine ⟨?_, ?_, ?_, ?_, ?_, ?_, ?_⟩ <;> first | assumption | exact Nat.mod_lt _ (by decide) | exact Nat.zero_le _ | (simp; done) | (simp; omega))

theorem execNrTailWrite_keeps {M : Nat} {s : State} (hM : Sub 52 M) :
    ∀ {t : State} {a1}, Keeps M s t → KeepsO M s (execNrTailWrite a1 t) := by
  intro _ _ h0
  unfold execNrTailWrite
  repeat' first
    | with_reducible assumption | with_reducible refine nrTail_keeps (Sub.trans (by decide) hM) ?_
    | with_reducible refine hostWrote_keeps (Sub.trans (by decide) hM) ?_
    | with_reducible refine keeps_ite (fun _ => ?_) (fun _ => ?_) | with_reducible refine keeps_id ?_
    | with_reducible refine keepsO_next ?_ | with_reducible refine keepsO_ite (fun _ => ?_) (fun _ => ?_)

theorem execNrDroppedRead_keeps {M : Nat} {s : State} (hM : Sub 48 M) :
    ∀ {t : State}, Keeps M s t → KeepsO M s (execNrDroppedRead t) := by
  intro _ h0
  unfold execNrDroppedRead
  repeat' first
    | with_reducible assumption | with_reducible refine updNotif_keeps (Sub.trans (by decide) hM) ?_ ?_
    | with_reducible refine hostReads_keeps (Sub.trans (by decide) hM) ?_
    | with_reducible refine keeps_ite (fun _ => ?_) (fun _ => ?_) | with_reducible refine keeps_id ?_
    | with_reducible refine keepsO_next ?_ | with_reducible refine keepsO_ite (fun _ => ?_) (fun _ => ?_)
    | (intro hi; obtain ⟨a, b, c, d, e, f, g⟩ := hi.notif; refine ⟨?_, ?_, ?_, ?_, ?_, ?_, ?_⟩ <;> first | assumption | exact Nat.mod_lt _ (by decide) | exact Nat.zero_le _ | (simp; done) | (simp; omega))

theorem execNrHoldoffExpire_keeps {M : Nat} {s : State} (hM : Sub 48 M) :
    ∀ {t : State}, Keeps M s t → KeepsO M s (execNrHoldoffExpire t) := by
  intro _ h0
  unfold execNrHoldoffExpire
  repeat' first
    | with_reducible assumption | with_reducible refine irqSince_keeps (Sub.trans (by decide) hM) ?_ ?_
    | with_reducible refine updNotif_keeps (Sub.trans (by decide) hM) ?_ ?_
    | with_reducible refine keeps_ite (fun _ => ?_) (fun _ => ?_) | with_reducible refine keeps_id ?_
    | with_reducible refine keepsO_next ?_ | with_reducible refine keepsO_ite (fun _ => ?_) (fun _ => ?_)
    | (intro hi; obtain ⟨a, b, c, d, e, f, g⟩ := hi.notif; refine ⟨?_, ?_, ?_, ?_, ?_, ?_, ?_⟩ <;> first | assumption | exact Nat.mod_lt _ (by decide) | exact Nat.zero_le _ | (simp; done) | (simp; omega))
    | with_reducible split

theorem genericChecks_go_keeps {M : Nat} {s : State} (hM : Sub 84 M) :
    ∀ {t : State} {a1 a2 a3 a4 a5}, Keeps M s t → Keeps M s (State.genericChecks.go a1 a2 a3 a4 a5 t) := by
  intro _ _ _ _ _ _ h0
  unfold State.genericChecks.go
  repeat' first
    | with_reducible assumption | with_reducible refine generic_keeps (Sub.trans (by decide) hM) ?_
    | with_reducible refine writeReply_keeps (Sub.trans (by decide) hM) ?_
    | with_reducible refine tookFree_keeps (Sub.trans (by decide) hM) ?_
    | with_reducible refine keeps_ite (fun _ => ?_) (fun _ => ?_) | with_reducible refine keeps_id ?_ | with_reducible split

theorem genericChecks_keeps {M : Nat} {s : State} (hM : Sub 84 M) :
    ∀ {t : State} {a1 a2}, Keeps M s t → Keeps M s (State.genericChecks t a1 a2) := by
  intro _ _ _ h0
  unfold State.genericChecks
  repeat' first
    | with_reducible assumption | with_reducible refine enterDone_keeps (Sub.trans (by decide) hM) ?_
    | with_reducible refine generic_keeps (Sub.trans (by decide) hM) ?_
    | with_reducible refine genericChecks_go_keeps (Sub.trans (by decide) hM) ?_
    | with_reducible refine keeps_ite (fun _ => ?_) (fun _ => ?_) | with_reducible refine keeps_id ?_ | with_reducible split
    | with_reducible intro _ | with_reducible dsimp only

theorem execMailboxTake_keeps {M : Nat} {s : State} (hM : Sub 84 M) :
    ∀ {t : State}, Keeps M s t → KeepsO M s (execMailboxTake t) := by
  intro _ h0
  unfold execMailboxTake
  repeat' first
    | with_reducible assumption | with_reducible refine modBox_keeps (Sub.trans (by decide) hM) ?_
    | with_reducible refine updHatch_keeps (Sub.trans (by decide) hM) ?_
    | with_reducible refine genericChecks_keeps (Sub.trans (by decide) hM) ?_
    | with_reducible refine keeps_ite (fun _ => ?_) (fun _ => ?_) | with_reducible refine keeps_id ?_
    | with_reducible refine keepsO_next ?_ | with_reducible refine keepsO_ite (fun _ => ?_) (fun _ => ?_) | with_reducible split

theorem flushDeferred_keeps {M : Nat} {s : State} (hM : Sub 8304 M) :
    ∀ {t : State}, Keeps M s t → Keeps M s (State.flushDeferred t) := by
  intro _ h0
  unfold State.flushDeferred
  repeat' first
    | with_reducible assumption | with_reducible refine putNote_keeps (Sub.trans (by decide) hM) ?_
    | with_reducible refine updNotif_keeps (Sub.trans (by decide) hM) ?_ ?_ | with_reducible refine keeps_foldl ?_ ?_
    | with_reducible refine keeps_foldlP ?_ ?_ | with_reducible refine keeps_ite (fun _ => ?_) (fun _ => ?_)
    | with_reducible refine keeps_id ?_
    | (intro hi; obtain ⟨a, b, c, d, e, f, g⟩ := hi.notif; refine ⟨?_, ?_, ?_, ?_, ?_, ?_, ?_⟩ <;> first | assumption | exact Nat.mod_lt _ (by decide) | exact Nat.zero_le _ | (simp; done) | (simp; omega))
    | with_reducible split | with_reducible intro _

theorem execLoadWindowEnd_keeps {M : Nat} {s : State} (hM : Sub 8304 M) :
    ∀ {t : State} {a1}, Keeps M s t → KeepsO M s (execLoadWindowEnd a1 t) := by
  intro t a1 h
  unfold execLoadWindowEnd
  refine keepsO_ite (fun _ => ?_) (fun _ => keepsO_next h)
  have k : Keeps M s (t.updNotif fun n =>
      { n with mpLoad := min a1.toNat 1000, mpPeak := max n.mpPeak (min a1.toNat 1000), shed := t.nextShed (min a1.toNat 1000),
               windowFrom := t.mono }) := by
    refine updNotif_keeps (Sub.trans (by decide) hM) h ?_
    intro hi
    obtain ⟨a, b, c, d, e, f, g⟩ := hi.notif
    refine ⟨a, b, c, d, ?_, Nat.min_le_right _ _, Nat.max_le.2 ⟨g, Nat.min_le_right _ _⟩⟩
    unfold State.nextShed
    dsimp only
    repeat' split
    all_goals omega
  refine keepsO_ite (fun _ => keepsO_next ?_) (fun _ => keepsO_next k)
  exact flushDeferred_keeps (Sub.trans (by decide) hM) k

theorem execHostLinkDown_keeps {M : Nat} {s : State} (hM : Sub 16 M) :
    ∀ {t : State}, Keeps M s t → KeepsO M s (execHostLinkDown t) := by
  intro _ h0
  unfold execHostLinkDown
  repeat' first
    | with_reducible assumption | with_reducible refine modBox_keeps (Sub.trans (by decide) hM) ?_
    | with_reducible refine discardHeld_keeps (Sub.trans (by decide) hM) ?_
    | with_reducible refine updHatch_keeps (Sub.trans (by decide) hM) ?_ | with_reducible refine keeps_foldl ?_ ?_
    | with_reducible refine keeps_foldlP ?_ ?_ | with_reducible refine keeps_ite (fun _ => ?_) (fun _ => ?_)
    | with_reducible refine keeps_id ?_ | with_reducible refine keepsO_next ?_
    | with_reducible refine keepsO_ite (fun _ => ?_) (fun _ => ?_) | with_reducible split | with_reducible intro _

theorem staleRx_keeps {M : Nat} {s : State} (hM : Sub 2112 M) :
    ∀ {t : State}, Keeps M s t → Keeps M s (State.staleRx t) := by
  intro _ h0
  unfold State.staleRx
  repeat' first
    | with_reducible assumption | with_reducible refine updTwin_keeps (Sub.trans (by decide) hM) ?_
    | with_reducible refine bump_keeps (Sub.trans (by decide) hM) ?_

theorem execSyncRx_keeps {M : Nat} {s : State} (hM : Sub 268435452 M) :
    ∀ {t : State} {a1 a2 a3}, Keeps M s t → KeepsO M s (execSyncRx a1 a2 a3 t) := by
  intro _ _ _ _ h0
  unfold execSyncRx
  repeat' first
    | with_reducible assumption | with_reducible refine onRx_keeps (Sub.trans (by decide) hM) ?_ ?_
    | with_reducible refine svcTake_keeps (Sub.trans (by decide) hM) ?_ ?_
    | with_reducible refine staleRx_keeps (Sub.trans (by decide) hM) ?_
    | with_reducible refine updTime_keeps (Sub.trans (by decide) hM) ?_
    | with_reducible refine queueBlock_keeps (Sub.trans (by decide) hM) ?_
    | with_reducible refine sourceHeard_keeps (Sub.trans (by decide) hM) ?_
    | with_reducible refine keeps_ite (fun _ => ?_) (fun _ => ?_) | with_reducible refine keeps_id ?_
    | with_reducible refine keepsO_next ?_ | with_reducible refine keepsO_ite (fun _ => ?_) (fun _ => ?_) | with_reducible split
    | with_reducible intro _

theorem execDelayRespRx_keeps {M : Nat} {s : State} (hM : Sub 268435452 M) :
    ∀ {t : State} {a1 a2 a3}, Keeps M s t → KeepsO M s (execDelayRespRx a1 a2 a3 t) := by
  intro _ _ _ _ h0
  unfold execDelayRespRx
  repeat' first
    | with_reducible assumption | with_reducible refine onRx_keeps (Sub.trans (by decide) hM) ?_ ?_
    | with_reducible refine svcTake_keeps (Sub.trans (by decide) hM) ?_ ?_
    | with_reducible refine staleRx_keeps (Sub.trans (by decide) hM) ?_
    | with_reducible refine updTime_keeps (Sub.trans (by decide) hM) ?_
    | with_reducible refine takeOffset_keeps (Sub.trans (by decide) hM) ?_
    | with_reducible refine sourceHeard_keeps (Sub.trans (by decide) hM) ?_
    | with_reducible refine keeps_ite (fun _ => ?_) (fun _ => ?_) | with_reducible refine keeps_id ?_
    | with_reducible refine keepsO_next ?_ | with_reducible refine keepsO_ite (fun _ => ?_) (fun _ => ?_) | with_reducible split
    | with_reducible intro _

theorem execRingTimeSend_keeps {M : Nat} {s : State} (hM : Sub 268435452 M) :
    ∀ {t : State}, Keeps M s t → KeepsO M s (execRingTimeSend t) := by
  intro _ h0
  unfold execRingTimeSend
  repeat' first
    | with_reducible assumption | with_reducible refine done_keeps (Sub.trans (by decide) hM) ?_
    | with_reducible refine updTime_keeps (Sub.trans (by decide) hM) ?_
    | with_reducible refine sendRingTime_keeps (Sub.trans (by decide) hM) ?_
    | with_reducible refine keeps_ite (fun _ => ?_) (fun _ => ?_) | with_reducible refine keeps_id ?_
    | with_reducible refine keepsO_next ?_ | with_reducible refine keepsO_ite (fun _ => ?_) (fun _ => ?_)

theorem execRingTimeRx_keeps {M : Nat} {s : State} (hM : Sub 268435452 M) :
    ∀ {t : State} {a1 a2 a3}, Keeps M s t → KeepsO M s (execRingTimeRx a1 a2 a3 t) := by
  intro _ _ _ _ h0
  unfold execRingTimeRx
  repeat' first
    | with_reducible assumption | with_reducible refine onRx_keeps (Sub.trans (by decide) hM) ?_ ?_
    | with_reducible refine rxValid_keeps (Sub.trans (by decide) hM) ?_
    | with_reducible refine bump_keeps (Sub.trans (by decide) hM) ?_
    | with_reducible refine ringTime_keeps (Sub.trans (by decide) hM) ?_
    | with_reducible refine holdEpoch_keeps (Sub.trans (by decide) hM) ?_
    | with_reducible refine heard_keeps (Sub.trans (by decide) hM) ?_ | with_reducible refine keeps_ite (fun _ => ?_) (fun _ => ?_)
    | with_reducible refine keeps_id ?_ | with_reducible refine keepsO_next ?_
    | with_reducible refine keepsO_ite (fun _ => ?_) (fun _ => ?_) | with_reducible split | with_reducible intro _

theorem execTimeNeighbourTimeout_keeps {M : Nat} {s : State} (hM : Sub 268435452 M) :
    ∀ {t : State}, Keeps M s t → KeepsO M s (execTimeNeighbourTimeout t) := by
  intro _ h0
  unfold execTimeNeighbourTimeout
  repeat' first
    | with_reducible assumption | with_reducible refine done_keeps (Sub.trans (by decide) hM) ?_
    | with_reducible refine timeRefresh_keeps (Sub.trans (by decide) hM) ?_
    | with_reducible refine keeps_ite (fun _ => ?_) (fun _ => ?_) | with_reducible refine keeps_id ?_
    | with_reducible refine keepsO_next ?_ | with_reducible refine keepsO_ite (fun _ => ?_) (fun _ => ?_)

theorem execMasterLossExpire_keeps {M : Nat} {s : State} (hM : Sub 268435452 M) :
    ∀ {t : State}, Keeps M s t → KeepsO M s (execMasterLossExpire t) := by
  intro _ h0
  unfold execMasterLossExpire
  repeat' first
    | with_reducible assumption | with_reducible refine done_keeps (Sub.trans (by decide) hM) ?_
    | with_reducible refine masterLoss_keeps (Sub.trans (by decide) hM) ?_
    | with_reducible refine keeps_ite (fun _ => ?_) (fun _ => ?_) | with_reducible refine keeps_id ?_
    | with_reducible refine keepsO_next ?_ | with_reducible refine keepsO_ite (fun _ => ?_) (fun _ => ?_)

theorem execStaFrameRx_keeps {M : Nat} {s : State} (hM : Sub 268435452 M) :
    ∀ {t : State} {a1 a2}, Keeps M s t → KeepsO M s (execStaFrameRx a1 a2 t) := by
  intro _ _ _ h0
  unfold execStaFrameRx
  repeat' first
    | with_reducible assumption | with_reducible refine done_keeps (Sub.trans (by decide) hM) ?_
    | with_reducible refine ptpDrain_keeps (Sub.trans (by decide) hM) ?_
    | with_reducible refine ptpTake_keeps (Sub.trans (by decide) hM) ?_
    | with_reducible refine bump_keeps (Sub.trans (by decide) hM) ?_ | with_reducible refine keeps_ite (fun _ => ?_) (fun _ => ?_)
    | with_reducible refine keeps_id ?_ | with_reducible refine keepsO_next ?_
    | with_reducible refine keepsO_ite (fun _ => ?_) (fun _ => ?_)

theorem execStaLinkUp_keeps {M : Nat} {s : State} (hM : Sub 1024 M) :
    ∀ {t : State} {a1 a2}, Keeps M s t → KeepsO M s (execStaLinkUp a1 a2 t) := by
  intro _ _ _ h0
  unfold execStaLinkUp
  repeat' first
    | with_reducible assumption | with_reducible refine modPort_keeps (Sub.trans (by decide) hM) ?_
    | with_reducible refine keeps_ite (fun _ => ?_) (fun _ => ?_) | with_reducible refine keeps_id ?_
    | with_reducible refine keepsO_next ?_ | with_reducible refine keepsO_ite (fun _ => ?_) (fun _ => ?_)

theorem execPtpMessageTimer_keeps {M : Nat} {s : State} (hM : Sub 1088 M) :
    ∀ {t : State} {a1 a2}, Keeps M s t → KeepsO M s (execPtpMessageTimer a1 a2 t) := by
  intro _ _ _ h0
  unfold execPtpMessageTimer
  repeat' first
    | with_reducible assumption | with_reducible refine ptpAnnounce_keeps (Sub.trans (by decide) hM) ?_
    | with_reducible refine ptpDrain_keeps (Sub.trans (by decide) hM) ?_
    | with_reducible refine modPort_keeps (Sub.trans (by decide) hM) ?_
    | with_reducible refine ptpSend_keeps (Sub.trans (by decide) hM) ?_
    | with_reducible refine keeps_ite (fun _ => ?_) (fun _ => ?_) | with_reducible refine keeps_id ?_
    | with_reducible refine keepsO_next ?_ | with_reducible refine keepsO_ite (fun _ => ?_) (fun _ => ?_) | with_reducible split

theorem execStaLaunchDue_keeps {M : Nat} {s : State} (hM : Sub 1092 M) :
    ∀ {t : State} {a1}, Keeps M s t → KeepsO M s (execStaLaunchDue a1 t) := by
  intro _ _ h0
  unfold execStaLaunchDue
  repeat' first
    | with_reducible assumption | with_reducible refine ptpDrain_keeps (Sub.trans (by decide) hM) ?_
    | with_reducible refine bump_keeps (Sub.trans (by decide) hM) ?_
    | with_reducible refine modPort_keeps (Sub.trans (by decide) hM) ?_
    | with_reducible refine tookFree_keeps (Sub.trans (by decide) hM) ?_
    | with_reducible refine stampPop_keeps (Sub.trans (by decide) hM) ?_
    | with_reducible refine stampPut_keeps (Sub.trans (by decide) hM) ?_
    | with_reducible refine keeps_ite (fun _ => ?_) (fun _ => ?_) | with_reducible refine keeps_id ?_
    | with_reducible refine keepsO_next ?_ | with_reducible refine keepsO_ite (fun _ => ?_) (fun _ => ?_) | with_reducible split
    | with_reducible intro _ | with_reducible dsimp only

theorem tcapWrite_keeps {M : Nat} {s : State} (hM : Sub 516 M) :
    ∀ {t : State} {a1}, Keeps M s t → Keeps M s (State.tcapWrite t a1) := by
  intro _ _ h0
  unfold State.tcapWrite
  repeat' first
    | with_reducible assumption | with_reducible refine tcapCtrl_keeps (Sub.trans (by decide) hM) ?_
    | with_reducible refine tcap_keeps (Sub.trans (by decide) hM) ?_
    | with_reducible refine tookFree_keeps (Sub.trans (by decide) hM) ?_
    | with_reducible refine keeps_ite (fun _ => ?_) (fun _ => ?_)

theorem execTcapCapture_keeps {M : Nat} {s : State} (hM : Sub 532 M) :
    ∀ {t : State} {a1}, Keeps M s t → KeepsO M s (execTcapCapture a1 t) := by
  intro _ _ h0
  unfold execTcapCapture
  repeat' first
    | with_reducible assumption | with_reducible refine tcapWrite_keeps (Sub.trans (by decide) hM) ?_
    | with_reducible refine hostWrote_keeps (Sub.trans (by decide) hM) ?_
    | with_reducible refine keeps_ite (fun _ => ?_) (fun _ => ?_) | with_reducible refine keeps_id ?_
    | with_reducible refine keepsO_next ?_ | with_reducible refine keepsO_ite (fun _ => ?_) (fun _ => ?_)

theorem execTimeCapInEdge_keeps {M : Nat} {s : State} (hM : Sub 516 M) :
    ∀ {t : State} {a1 a2}, Keeps M s t → KeepsO M s (execTimeCapInEdge a1 t a2) := by
  intro _ _ _ h0
  unfold execTimeCapInEdge
  repeat' first
    | with_reducible assumption | with_reducible refine updTime_keeps (Sub.trans (by decide) hM) ?_
    | with_reducible refine tcap_keeps (Sub.trans (by decide) hM) ?_
    | with_reducible refine tookFree_keeps (Sub.trans (by decide) hM) ?_
    | with_reducible refine keeps_ite (fun _ => ?_) (fun _ => ?_) | with_reducible refine keeps_id ?_
    | with_reducible refine keepsO_next ?_ | with_reducible refine keepsO_ite (fun _ => ?_) (fun _ => ?_)

theorem tcapStatus_keeps {M : Nat} {s : State} (hM : Sub 512 M) :
    ∀ {t : State} {a1}, Keeps M s t → Keeps M s (State.tcapStatus t a1) := by
  intro _ _ h0
  unfold State.tcapStatus
  repeat' first
    | with_reducible assumption | with_reducible refine updTime_keeps (Sub.trans (by decide) hM) ?_

theorem execTcapStatusWrite_keeps {M : Nat} {s : State} (hM : Sub 528 M) :
    ∀ {t : State} {a1}, Keeps M s t → KeepsO M s (execTcapStatusWrite a1 t) := by
  intro _ _ h0
  unfold execTcapStatusWrite
  repeat' first
    | with_reducible assumption | with_reducible refine tcapStatus_keeps (Sub.trans (by decide) hM) ?_
    | with_reducible refine hostWrote_keeps (Sub.trans (by decide) hM) ?_
    | with_reducible refine keeps_ite (fun _ => ?_) (fun _ => ?_) | with_reducible refine keeps_id ?_
    | with_reducible refine keepsO_next ?_ | with_reducible refine keepsO_ite (fun _ => ?_) (fun _ => ?_)

theorem execPpsSecond_keeps {M : Nat} {s : State} (hM : Sub 268435452 M) :
    ∀ {t : State}, Keeps M s t → KeepsO M s (execPpsSecond t) := by
  intro _ h0
  unfold execPpsSecond
  repeat' first
    | with_reducible assumption | with_reducible refine done_keeps (Sub.trans (by decide) hM) ?_
    | with_reducible refine rtcPtp_keeps (Sub.trans (by decide) hM) ?_
    | with_reducible refine updTime_keeps (Sub.trans (by decide) hM) ?_
    | with_reducible refine keeps_ite (fun _ => ?_) (fun _ => ?_) | with_reducible refine keeps_id ?_
    | with_reducible refine keepsO_next ?_ | with_reducible refine keepsO_ite (fun _ => ?_) (fun _ => ?_)

theorem execPpsPulseEnd_keeps {M : Nat} {s : State} (hM : Sub 512 M) :
    ∀ {t : State}, Keeps M s t → KeepsO M s (execPpsPulseEnd t) := by
  intro _ h0
  unfold execPpsPulseEnd
  repeat' first
    | with_reducible assumption | with_reducible refine updTime_keeps (Sub.trans (by decide) hM) ?_
    | with_reducible refine keeps_ite (fun _ => ?_) (fun _ => ?_) | with_reducible refine keeps_id ?_
    | with_reducible refine keepsO_next ?_ | with_reducible refine keepsO_ite (fun _ => ?_) (fun _ => ?_) | with_reducible split

theorem execTimeSet_keeps {M : Nat} {s : State} (hM : Sub 268435452 M) :
    ∀ {t : State} {a1}, Keeps M s t → KeepsO M s (execTimeSet a1 t) := by
  intro _ _ h0
  unfold execTimeSet
  repeat' first
    | with_reducible assumption | with_reducible refine done_keeps (Sub.trans (by decide) hM) ?_
    | with_reducible refine withCmd_keeps (Sub.trans (by decide) hM) ?_ ?_
    | with_reducible refine generic_keeps (Sub.trans (by decide) hM) ?_
    | with_reducible refine refuse_keeps (Sub.trans (by decide) hM) ?_
    | with_reducible refine setParam_keeps (Sub.trans (by decide) hM) ?_
    | with_reducible refine replyOk_keeps (Sub.trans (by decide) hM) ?_
    | with_reducible refine updTime_keeps (Sub.trans (by decide) hM) ?_
    | with_reducible refine timeStep_keeps (Sub.trans (by decide) hM) ?_
    | with_reducible refine keeps_ite (fun _ => ?_) (fun _ => ?_) | with_reducible refine keeps_id ?_
    | with_reducible refine keepsO_next ?_ | with_reducible refine keepsO_ite (fun _ => ?_) (fun _ => ?_) | with_reducible split
    | with_reducible intro _

theorem claimMaster_keeps {M : Nat} {s : State} (hM : Sub 2171640 M) :
    ∀ {t : State} {a1 a2}, Keeps M s t → Keeps M s (State.claimMaster t a1 a2) := by
  intro _ _ _ h0
  unfold State.claimMaster
  repeat' first
    | with_reducible assumption | with_reducible refine waitFor_keeps (Sub.trans (by decide) hM) ?_
    | with_reducible refine masterSend_keeps (Sub.trans (by decide) hM) ?_
    | with_reducible refine updTime_keeps (Sub.trans (by decide) hM) ?_
    | with_reducible refine masterCommit_keeps (Sub.trans (by decide) hM) ?_
    | with_reducible refine keeps_ite (fun _ => ?_) (fun _ => ?_)

theorem execTimeMasterSet_keeps {M : Nat} {s : State} (hM : Sub 268435452 M) :
    ∀ {t : State} {a1}, Keeps M s t → KeepsO M s (execTimeMasterSet a1 t) := by
  intro _ _ h0
  unfold execTimeMasterSet
  repeat' first
    | with_reducible assumption | with_reducible refine done_keeps (Sub.trans (by decide) hM) ?_
    | with_reducible refine withCmd_keeps (Sub.trans (by decide) hM) ?_ ?_
    | with_reducible refine refuse_keeps (Sub.trans (by decide) hM) ?_
    | with_reducible refine claimMaster_keeps (Sub.trans (by decide) hM) ?_
    | with_reducible refine waitFor_keeps (Sub.trans (by decide) hM) ?_
    | with_reducible refine updTime_keeps (Sub.trans (by decide) hM) ?_
    | with_reducible refine masterDrop_keeps (Sub.trans (by decide) hM) ?_
    | with_reducible refine keeps_ite (fun _ => ?_) (fun _ => ?_) | with_reducible refine keeps_id ?_
    | with_reducible refine keepsO_next ?_ | with_reducible refine keepsO_ite (fun _ => ?_) (fun _ => ?_) | with_reducible split
    | with_reducible intro _

end Sys2Proof.Machine
end

