-- ==== Sys2Proof/Machine/Frame7.lean ====
section
/-!
DEFINITION. Frames, part 7: the functions from execRingMasterRx to loopRun, in the order of their calls. Each lemma says
which parts its function may change (a mask over Part.bit) and that it keeps the bounds of State.Inv.
-/

namespace Sys2Proof.Machine

set_option linter.unreachableTactic false
set_option linter.unusedTactic false
set_option linter.unusedSimpArgs false

theorem execRingMasterRx_keeps {M : Nat} {s : State} (hM : Sub 268435452 M) :
    ∀ {t : State} {a1 a2 a3}, Keeps M s t → KeepsO M s (execRingMasterRx a1 a2 a3 t) := by
  intro _ _ _ _ h0
  unfold execRingMasterRx
  repeat' first
    | with_reducible assumption | with_reducible refine onRx_keeps (Sub.trans (by decide) hM) ?_ ?_
    | with_reducible refine ringTake_keeps (Sub.trans (by decide) hM) ?_ ?_
    | with_reducible refine masterClaimed_keeps (Sub.trans (by decide) hM) ?_
    | with_reducible refine masterAcked_keeps (Sub.trans (by decide) hM) ?_
    | with_reducible refine keeps_ite (fun _ => ?_) (fun _ => ?_) | with_reducible refine keeps_id ?_
    | with_reducible refine keepsO_next ?_ | with_reducible refine keepsO_ite (fun _ => ?_) (fun _ => ?_) | with_reducible split
    | with_reducible intro _

theorem execTimeMasterSetTimeout_keeps {M : Nat} {s : State} (hM : Sub 268435452 M) :
    ∀ {t : State}, Keeps M s t → KeepsO M s (execTimeMasterSetTimeout t) := by
  intro _ h0
  unfold execTimeMasterSetTimeout
  repeat' first
    | with_reducible assumption | with_reducible refine done_keeps (Sub.trans (by decide) hM) ?_
    | with_reducible refine masterCommit_keeps (Sub.trans (by decide) hM) ?_
    | with_reducible refine keeps_ite (fun _ => ?_) (fun _ => ?_) | with_reducible refine keeps_id ?_
    | with_reducible refine keepsO_next ?_ | with_reducible refine keepsO_ite (fun _ => ?_) (fun _ => ?_) | with_reducible split

theorem execStaLaunch_keeps {M : Nat} {s : State} (hM : Sub 268435452 M) :
    ∀ {t : State} {a1}, Keeps M s t → KeepsO M s (execStaLaunch a1 t) := by
  intro _ _ h0
  unfold execStaLaunch
  repeat' first
    | with_reducible assumption | with_reducible refine done_keeps (Sub.trans (by decide) hM) ?_
    | with_reducible refine withCmd_keeps (Sub.trans (by decide) hM) ?_ ?_
    | with_reducible refine refuse_keeps (Sub.trans (by decide) hM) ?_
    | with_reducible refine busy_keeps (Sub.trans (by decide) hM) ?_
    | with_reducible refine modPort_keeps (Sub.trans (by decide) hM) ?_
    | with_reducible refine mpTook_keeps (Sub.trans (by decide) hM) ?_
    | with_reducible refine replyOk_keeps (Sub.trans (by decide) hM) ?_
    | with_reducible refine keeps_ite (fun _ => ?_) (fun _ => ?_) | with_reducible refine keeps_id ?_
    | with_reducible refine keepsO_next ?_ | with_reducible refine keepsO_ite (fun _ => ?_) (fun _ => ?_) | with_reducible split
    | with_reducible intro _

theorem execStaStampRead_keeps {M : Nat} {s : State} (hM : Sub 268435452 M) :
    ∀ {t : State} {a1}, Keeps M s t → KeepsO M s (execStaStampRead a1 t) := by
  intro _ _ h0
  unfold execStaStampRead
  repeat' first
    | with_reducible assumption | with_reducible refine done_keeps (Sub.trans (by decide) hM) ?_
    | with_reducible refine withCmd_keeps (Sub.trans (by decide) hM) ?_ ?_
    | with_reducible refine refuse_keeps (Sub.trans (by decide) hM) ?_
    | with_reducible refine modPort_keeps (Sub.trans (by decide) hM) ?_
    | with_reducible refine replyOk_keeps (Sub.trans (by decide) hM) ?_
    | with_reducible refine stampPop_keeps (Sub.trans (by decide) hM) ?_
    | with_reducible refine keeps_ite (fun _ => ?_) (fun _ => ?_) | with_reducible refine keeps_id ?_
    | with_reducible refine keepsO_next ?_ | with_reducible refine keepsO_ite (fun _ => ?_) (fun _ => ?_) | with_reducible split
    | with_reducible intro _

theorem twinTake_keeps {M : Nat} {s : State} (hM : Sub 84168 M) : ∀ {t : State} {e : TwinSide} {k : RxHeader} {f : State → State},
    Keeps M s t → (∀ u, Keeps M s u → Keeps M s (f u)) → Keeps M s (t.twinTake e k f) := by
  intro t e k f h hf
  exact twinFirst_keeps (Sub.trans (by decide) hM) h hf

theorem byEpoch_keeps {M : Nat} {s : State} (hM : Sub 2112 M) : ∀ {t : State} {e : Nat} {f : State → State},
    Keeps M s t → (∀ u, Keeps M s u → Keeps M s (f u)) → Keeps M s (t.byEpoch e f) := by
  intro t e f h hf
  unfold State.byEpoch
  repeat' first
    | with_reducible assumption | with_reducible refine keeps_ite (fun _ => ?_) (fun _ => ?_) | with_reducible refine hf _ ?_
    | with_reducible refine staleRx_keeps (Sub.trans (by decide) hM) ?_

theorem byTag_keeps {M : Nat} {s : State} (hM : Sub 2112 M) : ∀ {t : State} {e : RxHeader} {f : State → State},
    Keeps M s t → (∀ u, Keeps M s u → Keeps M s (f u)) → Keeps M s (t.byTag e f) := by
  intro t e f h hf
  unfold State.byTag
  repeat' first
    | with_reducible assumption | with_reducible refine keeps_ite (fun _ => ?_) (fun _ => ?_) | with_reducible refine hf _ ?_
    | with_reducible refine staleRx_keeps (Sub.trans (by decide) hM) ?_

theorem peerSeen_keeps {M : Nat} {s : State} (hM : Sub 92412 M) :
    ∀ {t : State} {a1 a2 a3 a4 a5}, Keeps M s t → Keeps M s (State.peerSeen t a1 a2 a3 a4 a5) := by
  intro _ _ _ _ _ _ h0
  unfold State.peerSeen
  repeat' first
    | with_reducible assumption | with_reducible refine splitSeen_keeps (Sub.trans (by decide) hM) ?_
    | with_reducible refine acceptJoin_keeps (Sub.trans (by decide) hM) ?_
    | with_reducible refine setRole_keeps (Sub.trans (by decide) hM) ?_
    | with_reducible refine updTwin_keeps (Sub.trans (by decide) hM) ?_
    | with_reducible refine qualifyStart_keeps (Sub.trans (by decide) hM) ?_
    | with_reducible refine keeps_ite (fun _ => ?_) (fun _ => ?_)

theorem execTwRoleRx_keeps {M : Nat} {s : State} (hM : Sub 268435452 M) :
    ∀ {t : State} {a1 a2 a3}, Keeps M s t → KeepsO M s (execTwRoleRx a1 a2 a3 t) := by
  intro _ _ _ _ h0
  unfold execTwRoleRx
  refine onRx_keeps (Sub.trans (by decide) hM) h0 (fun u hu => ?_)
  refine twinTake_keeps (Sub.trans (by decide) hM) hu (fun u hu => ?_)
  refine byEpoch_keeps (Sub.trans (by decide) hM) hu (fun u hu => ?_)
  have k := fun f => updTwin_keeps (f := f) (Sub.trans (by decide) hM : Sub 2048 M) hu
  have p := @peerSeen_keeps M s (Sub.trans (by decide) hM)
  have r := @setRole_keeps M s (Sub.trans (by decide) hM)
  dsimp only
  split
  · exact fatalWatch_keeps (Sub.trans (by decide) hM) (p (k _))
  · exact keeps_ite (fun _ => r (k _)) (fun _ => k _)
  · exact keeps_ite (fun _ => r (k _)) (fun _ => k _)
  · exact k _

theorem execTwCompareRx_keeps {M : Nat} {s : State} (hM : Sub 268435452 M) :
    ∀ {t : State} {a1 a2 a3 a4}, Keeps M s t → KeepsO M s (execTwCompareRx a1 a2 a3 a4 t) := by
  intro _ _ _ _ _ h0
  unfold execTwCompareRx
  repeat' first
    | with_reducible assumption | with_reducible refine onRx_keeps (Sub.trans (by decide) hM) ?_ ?_
    | with_reducible refine twinTake_keeps (Sub.trans (by decide) hM) ?_ ?_
    | with_reducible refine byEpoch_keeps (Sub.trans (by decide) hM) ?_ ?_
    | with_reducible refine classifyReady_keeps (Sub.trans (by decide) hM) ?_
    | with_reducible refine updTwin_keeps (Sub.trans (by decide) hM) ?_
    | with_reducible refine byTag_keeps (Sub.trans (by decide) hM) ?_ ?_
    | with_reducible refine keeps_ite (fun _ => ?_) (fun _ => ?_) | with_reducible refine keeps_id ?_
    | with_reducible refine keepsO_next ?_ | with_reducible refine keepsO_ite (fun _ => ?_) (fun _ => ?_) | with_reducible split
    | with_reducible intro _

theorem execCompareDeadline_keeps {M : Nat} {s : State} (hM : Sub 268435452 M) :
    ∀ {t : State}, Keeps M s t → KeepsO M s (execCompareDeadline t) := by
  intro _ h0
  unfold execCompareDeadline
  repeat' first
    | with_reducible assumption | with_reducible refine updTwin_keeps (Sub.trans (by decide) hM) ?_
    | with_reducible refine classifyReady_keeps (Sub.trans (by decide) hM) ?_
    | with_reducible refine twinLinkWatch_keeps (Sub.trans (by decide) hM) ?_
    | with_reducible refine done_keeps (Sub.trans (by decide) hM) ?_
    | with_reducible refine takeOver_keeps (Sub.trans (by decide) hM) ?_
    | with_reducible refine keeps_ite (fun _ => ?_) (fun _ => ?_) | with_reducible refine keeps_id ?_
    | with_reducible refine keepsO_next ?_ | with_reducible refine keepsO_ite (fun _ => ?_) (fun _ => ?_) | with_reducible split

theorem execTwTripRx_keeps {M : Nat} {s : State} (hM : Sub 268435452 M) :
    ∀ {t : State} {a1 a2 a3}, Keeps M s t → KeepsO M s (execTwTripRx a1 a2 a3 t) := by
  intro _ _ _ _ h0
  unfold execTwTripRx
  repeat' first
    | with_reducible assumption | with_reducible refine onRx_keeps (Sub.trans (by decide) hM) ?_ ?_
    | with_reducible refine twinTake_keeps (Sub.trans (by decide) hM) ?_ ?_
    | with_reducible refine tripMask_keeps (Sub.trans (by decide) hM) ?_
    | with_reducible refine fire_keeps (Sub.trans (by decide) hM) ?_
    | with_reducible refine bump_keeps (Sub.trans (by decide) hM) ?_ | with_reducible refine keeps_ite (fun _ => ?_) (fun _ => ?_)
    | with_reducible refine keeps_id ?_ | with_reducible refine keepsO_next ?_
    | with_reducible refine keepsO_ite (fun _ => ?_) (fun _ => ?_) | with_reducible split | with_reducible intro _

theorem fwdEnd_keeps {M : Nat} {s : State} (hM : Sub 67676 M) :
    ∀ {t : State} {a1 a2}, Keeps M s t → Keeps M s (State.fwdEnd t a1 a2) := by
  intro _ _ _ h0
  unfold State.fwdEnd
  repeat' first
    | with_reducible assumption | with_reducible refine updTwin_keeps (Sub.trans (by decide) hM) ?_
    | with_reducible refine refuse_keeps (Sub.trans (by decide) hM) ?_
    | with_reducible refine reauthTaken_keeps (Sub.trans (by decide) hM) ?_
    | with_reducible refine reply_keeps (Sub.trans (by decide) hM) ?_ | with_reducible refine keeps_ite (fun _ => ?_) (fun _ => ?_)
    | with_reducible refine keeps_id ?_ | with_reducible split

theorem execTwAckRx_keeps {M : Nat} {s : State} (hM : Sub 268435452 M) :
    ∀ {t : State} {a1 a2 a3}, Keeps M s t → KeepsO M s (execTwAckRx a1 a2 a3 t) := by
  intro _ _ _ _ h0
  unfold execTwAckRx
  repeat' first
    | with_reducible assumption | with_reducible refine onRx_keeps (Sub.trans (by decide) hM) ?_ ?_
    | with_reducible refine twinTake_keeps (Sub.trans (by decide) hM) ?_ ?_
    | with_reducible refine byEpoch_keeps (Sub.trans (by decide) hM) ?_ ?_
    | with_reducible refine fwdEnd_keeps (Sub.trans (by decide) hM) ?_ | with_reducible refine keeps_ite (fun _ => ?_) (fun _ => ?_)
    | with_reducible refine keeps_id ?_ | with_reducible refine keepsO_next ?_
    | with_reducible refine keepsO_ite (fun _ => ?_) (fun _ => ?_) | with_reducible split | with_reducible intro _

theorem execTwFwdTimeout_keeps {M : Nat} {s : State} (hM : Sub 268435452 M) :
    ∀ {t : State}, Keeps M s t → KeepsO M s (execTwFwdTimeout t) := by
  intro _ h0
  unfold execTwFwdTimeout
  repeat' first
    | with_reducible assumption | with_reducible refine done_keeps (Sub.trans (by decide) hM) ?_
    | with_reducible refine fwdEnd_keeps (Sub.trans (by decide) hM) ?_ | with_reducible refine keeps_ite (fun _ => ?_) (fun _ => ?_)
    | with_reducible refine keeps_id ?_ | with_reducible refine keepsO_next ?_
    | with_reducible refine keepsO_ite (fun _ => ?_) (fun _ => ?_) | with_reducible split

theorem orderTake_keeps {M : Nat} {s : State} (hM : Sub 917568 M) :
    ∀ {t : State} {a1 a2 a3}, Keeps M s t → Keeps M s (State.orderTake t a1 a2 a3) := by
  intro _ _ _ _ h0
  unfold State.orderTake
  repeat' first
    | with_reducible assumption | with_reducible refine modSrt_keeps (Sub.trans (by decide) hM) ?_
    | with_reducible refine planNow_keeps (Sub.trans (by decide) hM) ?_
    | with_reducible refine modStr_keeps (Sub.trans (by decide) hM) ?_ | with_reducible refine keeps_ite (fun _ => ?_) (fun _ => ?_)
    | with_reducible refine keeps_id ?_ | with_reducible split

theorem twinState_keeps {M : Nat} {s : State} (hM : Sub 2091260 M) :
    ∀ {t : State} {a1}, Keeps M s t → Keeps M s (State.twinState t a1) := by
  intro _ _ h0
  unfold State.twinState
  repeat' first
    | with_reducible assumption | with_reducible refine modDleg_keeps (Sub.trans (by decide) hM) ?_
    | with_reducible refine condOn_keeps (Sub.trans (by decide) hM) ?_
    | with_reducible refine dtUnfall_keeps (Sub.trans (by decide) hM) ?_
    | with_reducible refine orderTake_keeps (Sub.trans (by decide) hM) ?_
    | with_reducible refine takeItem_keeps (Sub.trans (by decide) hM) ?_
    | with_reducible refine updTwin_keeps (Sub.trans (by decide) hM) ?_ | with_reducible refine keeps_foldl ?_ ?_
    | with_reducible refine keeps_foldlP ?_ ?_ | with_reducible refine keeps_ite (fun _ => ?_) (fun _ => ?_)
    | with_reducible refine keeps_id ?_ | with_reducible split | with_reducible intro _

theorem execTwStateRx_keeps {M : Nat} {s : State} (hM : Sub 268435452 M) :
    ∀ {t : State} {a1 a2 a3}, Keeps M s t → KeepsO M s (execTwStateRx a1 a2 a3 t) := by
  intro _ _ _ _ h0
  unfold execTwStateRx
  repeat' first
    | with_reducible assumption | with_reducible refine onRx_keeps (Sub.trans (by decide) hM) ?_ ?_
    | with_reducible refine twinTake_keeps (Sub.trans (by decide) hM) ?_ ?_
    | with_reducible refine byTag_keeps (Sub.trans (by decide) hM) ?_ ?_
    | with_reducible refine twinState_keeps (Sub.trans (by decide) hM) ?_
    | with_reducible refine keeps_ite (fun _ => ?_) (fun _ => ?_) | with_reducible refine keeps_id ?_
    | with_reducible refine keepsO_next ?_ | with_reducible refine keepsO_ite (fun _ => ?_) (fun _ => ?_) | with_reducible split
    | with_reducible intro _

theorem execTwHealthRx_keeps {M : Nat} {s : State} (hM : Sub 268435452 M) :
    ∀ {t : State} {a1 a2 a3}, Keeps M s t → KeepsO M s (execTwHealthRx a1 a2 a3 t) := by
  intro _ _ _ _ h0
  unfold execTwHealthRx
  repeat' first
    | with_reducible assumption | with_reducible refine onRx_keeps (Sub.trans (by decide) hM) ?_ ?_
    | with_reducible refine twinTake_keeps (Sub.trans (by decide) hM) ?_ ?_
    | with_reducible refine byEpoch_keeps (Sub.trans (by decide) hM) ?_ ?_
    | with_reducible refine fatalWatch_keeps (Sub.trans (by decide) hM) ?_
    | with_reducible refine updTwin_keeps (Sub.trans (by decide) hM) ?_
    | with_reducible refine keeps_ite (fun _ => ?_) (fun _ => ?_) | with_reducible refine keeps_id ?_
    | with_reducible refine keepsO_next ?_ | with_reducible refine keepsO_ite (fun _ => ?_) (fun _ => ?_) | with_reducible split
    | with_reducible intro _

theorem resyncBegin_keeps {M : Nat} {s : State} (hM : Sub 2048 M) :
    ∀ {t : State}, Keeps M s t → Keeps M s (State.resyncBegin t) := by
  intro _ h0
  unfold State.resyncBegin
  repeat' first
    | with_reducible assumption | with_reducible refine updTwin_keeps (Sub.trans (by decide) hM) ?_
    | with_reducible refine keeps_ite (fun _ => ?_) (fun _ => ?_)

theorem execTwCaseRx_keeps {M : Nat} {s : State} (hM : Sub 268435452 M) :
    ∀ {t : State} {a1 a2 a3}, Keeps M s t → KeepsO M s (execTwCaseRx a1 a2 a3 t) := by
  intro _ _ _ _ h0
  unfold execTwCaseRx
  repeat' first
    | with_reducible assumption | with_reducible refine onRx_keeps (Sub.trans (by decide) hM) ?_ ?_
    | with_reducible refine twinTake_keeps (Sub.trans (by decide) hM) ?_ ?_
    | with_reducible refine byEpoch_keeps (Sub.trans (by decide) hM) ?_ ?_
    | with_reducible refine caseOpen_keeps (Sub.trans (by decide) hM) ?_
    | with_reducible refine tookFree_keeps (Sub.trans (by decide) hM) ?_
    | with_reducible refine resyncBegin_keeps (Sub.trans (by decide) hM) ?_
    | with_reducible refine splitSeen_keeps (Sub.trans (by decide) hM) ?_
    | with_reducible refine verdict_keeps (Sub.trans (by decide) hM) ?_
    | with_reducible refine caseEnd_keeps (Sub.trans (by decide) hM) ?_
    | with_reducible refine keeps_ite (fun _ => ?_) (fun _ => ?_) | with_reducible refine keeps_id ?_
    | with_reducible refine keepsO_next ?_ | with_reducible refine keepsO_ite (fun _ => ?_) (fun _ => ?_) | with_reducible split
    | with_reducible intro _

theorem execTwSurrenderRx_keeps {M : Nat} {s : State} (hM : Sub 268435452 M) :
    ∀ {t : State} {a1 a2 a3}, Keeps M s t → KeepsO M s (execTwSurrenderRx a1 a2 a3 t) := by
  intro _ _ _ _ h0
  unfold execTwSurrenderRx
  repeat' first
    | with_reducible assumption | with_reducible refine onRx_keeps (Sub.trans (by decide) hM) ?_ ?_
    | with_reducible refine twinTake_keeps (Sub.trans (by decide) hM) ?_ ?_
    | with_reducible refine byEpoch_keeps (Sub.trans (by decide) hM) ?_ ?_
    | with_reducible refine takeOver_keeps (Sub.trans (by decide) hM) ?_
    | with_reducible refine updTwin_keeps (Sub.trans (by decide) hM) ?_
    | with_reducible refine keeps_ite (fun _ => ?_) (fun _ => ?_) | with_reducible refine keeps_id ?_
    | with_reducible refine keepsO_next ?_ | with_reducible refine keepsO_ite (fun _ => ?_) (fun _ => ?_) | with_reducible split
    | with_reducible intro _

theorem execTwResetRx_keeps {M : Nat} {s : State} (hM : Sub 268435452 M) :
    ∀ {t : State} {a1 a2 a3}, Keeps M s t → KeepsO M s (execTwResetRx a1 a2 a3 t) := by
  intro _ _ _ _ h0
  unfold execTwResetRx
  repeat' first
    | with_reducible assumption | with_reducible refine onRx_keeps (Sub.trans (by decide) hM) ?_ ?_
    | with_reducible refine twinTake_keeps (Sub.trans (by decide) hM) ?_ ?_
    | with_reducible refine byEpoch_keeps (Sub.trans (by decide) hM) ?_ ?_
    | with_reducible refine later_keeps (Sub.trans (by decide) hM) ?_ | with_reducible refine keeps_ite (fun _ => ?_) (fun _ => ?_)
    | with_reducible refine keeps_id ?_ | with_reducible refine keepsO_next ?_
    | with_reducible refine keepsO_ite (fun _ => ?_) (fun _ => ?_) | with_reducible split | with_reducible intro _

theorem execPeerAliveTimeout_keeps {M : Nat} {s : State} (hM : Sub 268435452 M) :
    ∀ {t : State}, Keeps M s t → KeepsO M s (execPeerAliveTimeout t) := by
  intro _ h0
  unfold execPeerAliveTimeout
  repeat' first
    | with_reducible assumption | with_reducible refine done_keeps (Sub.trans (by decide) hM) ?_
    | with_reducible refine twinLinkWatch_keeps (Sub.trans (by decide) hM) ?_
    | with_reducible refine updTwin_keeps (Sub.trans (by decide) hM) ?_
    | with_reducible refine keeps_ite (fun _ => ?_) (fun _ => ?_) | with_reducible refine keeps_id ?_
    | with_reducible refine keepsO_next ?_ | with_reducible refine keepsO_ite (fun _ => ?_) (fun _ => ?_)

theorem execTwinAliveInEdge_keeps {M : Nat} {s : State} (hM : Sub 268435452 M) :
    ∀ {t : State}, Keeps M s t → KeepsO M s (execTwinAliveInEdge t) := by
  intro _ h0
  unfold execTwinAliveInEdge
  repeat' first
    | with_reducible assumption | with_reducible refine done_keeps (Sub.trans (by decide) hM) ?_
    | with_reducible refine twinLinkWatch_keeps (Sub.trans (by decide) hM) ?_
    | with_reducible refine updTwin_keeps (Sub.trans (by decide) hM) ?_

theorem execTwinStreamLost_keeps {M : Nat} {s : State} (hM : Sub 268435452 M) :
    ∀ {t : State}, Keeps M s t → KeepsO M s (execTwinStreamLost t) := by
  intro _ h0
  unfold execTwinStreamLost
  repeat' first
    | with_reducible assumption | with_reducible refine done_keeps (Sub.trans (by decide) hM) ?_
    | with_reducible refine timeRefresh_keeps (Sub.trans (by decide) hM) ?_
    | with_reducible refine twinLinkWatch_keeps (Sub.trans (by decide) hM) ?_
    | with_reducible refine updTwin_keeps (Sub.trans (by decide) hM) ?_
    | with_reducible refine keeps_ite (fun _ => ?_) (fun _ => ?_) | with_reducible refine keeps_id ?_
    | with_reducible refine keepsO_next ?_ | with_reducible refine keepsO_ite (fun _ => ?_) (fun _ => ?_)

theorem execSelftestPeriod_keeps {M : Nat} {s : State} (hM : Sub 268435452 M) :
    ∀ {t : State} {a1 a2}, Keeps M s t → KeepsO M s (execSelftestPeriod a1 a2 t) := by
  intro _ _ _ h0
  unfold execSelftestPeriod
  repeat' first
    | with_reducible assumption | with_reducible refine done_keeps (Sub.trans (by decide) hM) ?_
    | with_reducible refine checkDone_keeps (Sub.trans (by decide) hM) ?_
    | with_reducible refine keeps_ite (fun _ => ?_) (fun _ => ?_) | with_reducible refine keeps_id ?_
    | with_reducible refine keepsO_next ?_ | with_reducible refine keepsO_ite (fun _ => ?_) (fun _ => ?_) | with_reducible split

theorem execQualifyComplete_keeps {M : Nat} {s : State} (hM : Sub 268435452 M) :
    ∀ {t : State}, Keeps M s t → KeepsO M s (execQualifyComplete t) := by
  intro _ h0
  unfold execQualifyComplete
  repeat' first
    | with_reducible assumption | with_reducible refine note_keeps (Sub.trans (by decide) hM) ?_
    | with_reducible refine updTwin_keeps (Sub.trans (by decide) hM) ?_
    | with_reducible refine done_keeps (Sub.trans (by decide) hM) ?_
    | with_reducible refine twRole_keeps (Sub.trans (by decide) hM) ?_
    | with_reducible refine freshCells_keeps (Sub.trans (by decide) hM) ?_
    | with_reducible refine keeps_ite (fun _ => ?_) (fun _ => ?_) | with_reducible refine keeps_id ?_
    | with_reducible refine keepsO_next ?_ | with_reducible refine keepsO_ite (fun _ => ?_) (fun _ => ?_)

theorem execTwinLanesDownTimeout_keeps {M : Nat} {s : State} (hM : Sub 268435452 M) :
    ∀ {t : State}, Keeps M s t → KeepsO M s (execTwinLanesDownTimeout t) := by
  intro _ h0
  unfold execTwinLanesDownTimeout
  repeat' first
    | with_reducible assumption | with_reducible refine done_keeps (Sub.trans (by decide) hM) ?_
    | with_reducible refine unqualify_keeps (Sub.trans (by decide) hM) ?_
    | with_reducible refine keeps_ite (fun _ => ?_) (fun _ => ?_) | with_reducible refine keeps_id ?_
    | with_reducible refine keepsO_next ?_ | with_reducible refine keepsO_ite (fun _ => ?_) (fun _ => ?_) | with_reducible split

theorem execTwinStandbyTimeout_keeps {M : Nat} {s : State} (hM : Sub 268435452 M) :
    ∀ {t : State}, Keeps M s t → KeepsO M s (execTwinStandbyTimeout t) := by
  intro _ h0
  unfold execTwinStandbyTimeout
  repeat' first
    | with_reducible assumption | with_reducible refine done_keeps (Sub.trans (by decide) hM) ?_
    | with_reducible refine condOn_keeps (Sub.trans (by decide) hM) ?_
    | with_reducible refine updTwin_keeps (Sub.trans (by decide) hM) ?_
    | with_reducible refine keeps_ite (fun _ => ?_) (fun _ => ?_) | with_reducible refine keeps_id ?_
    | with_reducible refine keepsO_next ?_ | with_reducible refine keepsO_ite (fun _ => ?_) (fun _ => ?_)

theorem execTwinSwitchBoundary_keeps {M : Nat} {s : State} (hM : Sub 268435452 M) :
    ∀ {t : State}, Keeps M s t → KeepsO M s (execTwinSwitchBoundary t) := by
  intro _ h0
  unfold execTwinSwitchBoundary
  repeat' first
    | with_reducible assumption | with_reducible refine updTwin_keeps (Sub.trans (by decide) hM) ?_
    | with_reducible refine done_keeps (Sub.trans (by decide) hM) ?_
    | with_reducible refine toActive_keeps (Sub.trans (by decide) hM) ?_
    | with_reducible refine keeps_ite (fun _ => ?_) (fun _ => ?_) | with_reducible refine keeps_id ?_
    | with_reducible refine keepsO_next ?_ | with_reducible refine keepsO_ite (fun _ => ?_) (fun _ => ?_) | with_reducible split

theorem execSwitchHandoverEnd_keeps {M : Nat} {s : State} (hM : Sub 268435452 M) :
    ∀ {t : State}, Keeps M s t → KeepsO M s (execSwitchHandoverEnd t) := by
  intro _ h0
  unfold execSwitchHandoverEnd
  repeat' first
    | with_reducible assumption | with_reducible refine setRole_keeps (Sub.trans (by decide) hM) ?_
    | with_reducible refine updTwin_keeps (Sub.trans (by decide) hM) ?_
    | with_reducible refine done_keeps (Sub.trans (by decide) hM) ?_
    | with_reducible refine timeRefresh_keeps (Sub.trans (by decide) hM) ?_
    | with_reducible refine keeps_ite (fun _ => ?_) (fun _ => ?_) | with_reducible refine keeps_id ?_
    | with_reducible refine keepsO_next ?_ | with_reducible refine keepsO_ite (fun _ => ?_) (fun _ => ?_) | with_reducible split

theorem execCaseReplayDone_keeps {M : Nat} {s : State} (hM : Sub 268435452 M) :
    ∀ {t : State} {a1}, Keeps M s t → KeepsO M s (execCaseReplayDone a1 t) := by
  intro _ _ h0
  unfold execCaseReplayDone
  repeat' first
    | with_reducible assumption | with_reducible refine updTwin_keeps (Sub.trans (by decide) hM) ?_
    | with_reducible refine tookFree_keeps (Sub.trans (by decide) hM) ?_
    | with_reducible refine done_keeps (Sub.trans (by decide) hM) ?_
    | with_reducible refine ringSend_keeps (Sub.trans (by decide) hM) ?_
    | with_reducible refine keeps_ite (fun _ => ?_) (fun _ => ?_) | with_reducible refine keeps_id ?_
    | with_reducible refine keepsO_next ?_ | with_reducible refine keepsO_ite (fun _ => ?_) (fun _ => ?_)

theorem execArbVdStable_keeps {M : Nat} {s : State} (hM : Sub 268435452 M) :
    ∀ {t : State} {a1}, Keeps M s t → KeepsO M s (execArbVdStable a1 t) := by
  intro _ _ h0
  unfold execArbVdStable
  repeat' first
    | with_reducible assumption | with_reducible refine done_keeps (Sub.trans (by decide) hM) ?_
    | with_reducible refine verdict_keeps (Sub.trans (by decide) hM) ?_
    | with_reducible refine keeps_ite (fun _ => ?_) (fun _ => ?_) | with_reducible refine keeps_id ?_
    | with_reducible refine keepsO_next ?_ | with_reducible refine keepsO_ite (fun _ => ?_) (fun _ => ?_)

theorem execRefTimeoutExpire_keeps {M : Nat} {s : State} (hM : Sub 268435452 M) :
    ∀ {t : State}, Keeps M s t → KeepsO M s (execRefTimeoutExpire t) := by
  intro _ h0
  unfold execRefTimeoutExpire
  repeat' first
    | with_reducible assumption | with_reducible refine done_keeps (Sub.trans (by decide) hM) ?_
    | with_reducible refine verdict_keeps (Sub.trans (by decide) hM) ?_
    | with_reducible refine keeps_ite (fun _ => ?_) (fun _ => ?_) | with_reducible refine keeps_id ?_
    | with_reducible refine keepsO_next ?_ | with_reducible refine keepsO_ite (fun _ => ?_) (fun _ => ?_)

theorem dropRoll_keeps {M : Nat} {s : State} (hM : Sub 114764 M) :
    ∀ {t : State}, Keeps M s t → Keeps M s (State.dropRoll t) := by
  intro _ h0
  unfold State.dropRoll
  repeat' first
    | with_reducible assumption | with_reducible refine laneTypeChanged_keeps (Sub.trans (by decide) hM) ?_
    | with_reducible refine updRoll_keeps (Sub.trans (by decide) hM) ?_ | with_reducible refine keeps_foldl ?_ ?_
    | with_reducible refine keeps_foldlP ?_ ?_ | with_reducible refine keeps_ite (fun _ => ?_) (fun _ => ?_)
    | with_reducible refine keeps_id ?_ | with_reducible split | with_reducible intro _

theorem roleTake_keeps {M : Nat} {s : State} (hM : Sub 3140348 M) :
    ∀ {t : State} {a1}, Keeps M s t → Keeps M s (State.roleTake t a1) := by
  intro _ _ h0
  unfold State.roleTake
  repeat' first
    | with_reducible assumption | with_reducible refine toActive_keeps (Sub.trans (by decide) hM) ?_
    | with_reducible refine updTwin_keeps (Sub.trans (by decide) hM) ?_
    | with_reducible refine setRole_keeps (Sub.trans (by decide) hM) ?_
    | with_reducible refine timeRefresh_keeps (Sub.trans (by decide) hM) ?_
    | with_reducible refine twRole_keeps (Sub.trans (by decide) hM) ?_
    | with_reducible refine haltCells_keeps (Sub.trans (by decide) hM) ?_
    | with_reducible refine surrender_keeps (Sub.trans (by decide) hM) ?_
    | with_reducible refine dropRoll_keeps (Sub.trans (by decide) hM) ?_
    | with_reducible refine keeps_ite (fun _ => ?_) (fun _ => ?_) | with_reducible refine keeps_id ?_ | with_reducible split

theorem execRoleSet_keeps {M : Nat} {s : State} (hM : Sub 268435452 M) :
    ∀ {t : State} {a1}, Keeps M s t → KeepsO M s (execRoleSet a1 t) := by
  intro _ _ h0
  unfold execRoleSet
  repeat' first
    | with_reducible assumption | with_reducible refine done_keeps (Sub.trans (by decide) hM) ?_
    | with_reducible refine withCmd_keeps (Sub.trans (by decide) hM) ?_ ?_
    | with_reducible refine refuse_keeps (Sub.trans (by decide) hM) ?_
    | with_reducible refine roleTake_keeps (Sub.trans (by decide) hM) ?_
    | with_reducible refine replyOk_keeps (Sub.trans (by decide) hM) ?_
    | with_reducible refine keeps_ite (fun _ => ?_) (fun _ => ?_) | with_reducible refine keeps_id ?_
    | with_reducible refine keepsO_next ?_ | with_reducible refine keepsO_ite (fun _ => ?_) (fun _ => ?_) | with_reducible split
    | with_reducible intro _

theorem execTwinSwitch_keeps {M : Nat} {s : State} (hM : Sub 268435452 M) :
    ∀ {t : State} {a1}, Keeps M s t → KeepsO M s (execTwinSwitch a1 t) := by
  intro _ _ h0
  unfold execTwinSwitch
  repeat' first
    | with_reducible assumption | with_reducible refine done_keeps (Sub.trans (by decide) hM) ?_
    | with_reducible refine withCmd_keeps (Sub.trans (by decide) hM) ?_ ?_
    | with_reducible refine generic_keeps (Sub.trans (by decide) hM) ?_
    | with_reducible refine refuse_keeps (Sub.trans (by decide) hM) ?_
    | with_reducible refine waitFor_keeps (Sub.trans (by decide) hM) ?_
    | with_reducible refine forwardRequest_keeps (Sub.trans (by decide) hM) ?_
    | with_reducible refine keeps_ite (fun _ => ?_) (fun _ => ?_) | with_reducible refine keeps_id ?_
    | with_reducible refine keepsO_next ?_ | with_reducible refine keepsO_ite (fun _ => ?_) (fun _ => ?_) | with_reducible split
    | with_reducible intro _

theorem execUnitReset_keeps {M : Nat} {s : State} (hM : Sub 268435452 M) :
    ∀ {t : State} {a1}, Keeps M s t → KeepsO M s (execUnitReset a1 t) := by
  intro _ _ h0
  unfold execUnitReset
  repeat' first
    | with_reducible assumption | with_reducible refine done_keeps (Sub.trans (by decide) hM) ?_
    | with_reducible refine withCmd_keeps (Sub.trans (by decide) hM) ?_ ?_
    | with_reducible refine refuse_keeps (Sub.trans (by decide) hM) ?_
    | with_reducible refine surrender_keeps (Sub.trans (by decide) hM) ?_
    | with_reducible refine replyOk_keeps (Sub.trans (by decide) hM) ?_
    | with_reducible refine updTwin_keeps (Sub.trans (by decide) hM) ?_
    | with_reducible refine keeps_ite (fun _ => ?_) (fun _ => ?_) | with_reducible refine keeps_id ?_
    | with_reducible refine keepsO_next ?_ | with_reducible refine keepsO_ite (fun _ => ?_) (fun _ => ?_) | with_reducible split
    | with_reducible intro _

theorem execUnitResetDelay_keeps {M : Nat} {s : State} (hM : Sub 268435452 M) :
    ∀ {t : State}, Keeps M s t → KeepsO M s (execUnitResetDelay t) := by
  intro _ h0
  unfold execUnitResetDelay
  repeat' first
    | with_reducible assumption | with_reducible refine updTwin_keeps (Sub.trans (by decide) hM) ?_
    | with_reducible refine done_keeps (Sub.trans (by decide) hM) ?_
    | with_reducible refine twinSend_keeps (Sub.trans (by decide) hM) ?_
    | with_reducible refine later_keeps (Sub.trans (by decide) hM) ?_ | with_reducible refine keeps_ite (fun _ => ?_) (fun _ => ?_)
    | with_reducible refine keeps_id ?_ | with_reducible refine keepsO_next ?_
    | with_reducible refine keepsO_ite (fun _ => ?_) (fun _ => ?_) | with_reducible split

theorem execTwinResync_keeps {M : Nat} {s : State} (hM : Sub 268435452 M) :
    ∀ {t : State} {a1}, Keeps M s t → KeepsO M s (execTwinResync a1 t) := by
  intro _ _ h0
  unfold execTwinResync
  repeat' first
    | with_reducible assumption | with_reducible refine done_keeps (Sub.trans (by decide) hM) ?_
    | with_reducible refine withCmd_keeps (Sub.trans (by decide) hM) ?_ ?_
    | with_reducible refine generic_keeps (Sub.trans (by decide) hM) ?_
    | with_reducible refine refuse_keeps (Sub.trans (by decide) hM) ?_
    | with_reducible refine replyOk_keeps (Sub.trans (by decide) hM) ?_
    | with_reducible refine resyncBegin_keeps (Sub.trans (by decide) hM) ?_
    | with_reducible refine tookFree_keeps (Sub.trans (by decide) hM) ?_
    | with_reducible refine keeps_ite (fun _ => ?_) (fun _ => ?_) | with_reducible refine keeps_id ?_
    | with_reducible refine keepsO_next ?_ | with_reducible refine keepsO_ite (fun _ => ?_) (fun _ => ?_) | with_reducible split
    | with_reducible intro _

theorem unitData_keeps {M : Nat} {s : State} (hM : Sub 67664 M) : ∀ {t : State} {a : Nat} {q : Request} {b : Nat} {p d : Bytes} {f : State → State},
    Keeps M s t → (∀ u, Keeps M s u → Keeps M s (f u)) → Keeps M s (t.unitData a q b p d f) := by
  intro t a q b p d f h hf
  unfold State.unitData
  repeat' first
    | with_reducible assumption | with_reducible refine keeps_ite (fun _ => ?_) (fun _ => ?_) | with_reducible refine hf _ ?_
    | with_reducible refine refuse_keeps (Sub.trans (by decide) hM) ?_
    | with_reducible refine replyOk_keeps (Sub.trans (by decide) hM) ?_
    | with_reducible refine finishWrite_keeps (Sub.trans (by decide) hM) ?_

theorem loftWrite_keeps {M : Nat} {s : State} (hM : Sub 134285392 M) :
    ∀ {t : State} {a1 a2 a3}, Keeps M s t → Keeps M s (State.loftWrite t a1 a2 a3) := by
  intro _ _ _ _ h0
  unfold State.loftWrite
  repeat' first
    | with_reducible assumption | with_reducible refine unitData_keeps (Sub.trans (by decide) hM) ?_ ?_
    | with_reducible refine loftPut_keeps (Sub.trans (by decide) hM) ?_
    | with_reducible refine keeps_ite (fun _ => ?_) (fun _ => ?_) | with_reducible refine keeps_id ?_ | with_reducible split
    | with_reducible intro _

theorem execLoftWrite_keeps {M : Nat} {s : State} (hM : Sub 268435452 M) :
    ∀ {t : State} {a1}, Keeps M s t → KeepsO M s (execLoftWrite a1 t) := by
  intro _ _ h0
  unfold execLoftWrite
  repeat' first
    | with_reducible assumption | with_reducible refine done_keeps (Sub.trans (by decide) hM) ?_
    | with_reducible refine withCmd_keeps (Sub.trans (by decide) hM) ?_ ?_
    | with_reducible refine refuse_keeps (Sub.trans (by decide) hM) ?_
    | with_reducible refine loftWrite_keeps (Sub.trans (by decide) hM) ?_
    | with_reducible refine mpTook_keeps (Sub.trans (by decide) hM) ?_ | with_reducible refine keeps_ite (fun _ => ?_) (fun _ => ?_)
    | with_reducible refine keeps_id ?_ | with_reducible refine keepsO_next ?_
    | with_reducible refine keepsO_ite (fun _ => ?_) (fun _ => ?_) | with_reducible split | with_reducible intro _

theorem execLoftVerify_keeps {M : Nat} {s : State} (hM : Sub 268435452 M) :
    ∀ {t : State} {a1}, Keeps M s t → KeepsO M s (execLoftVerify a1 t) := by
  intro _ _ h0
  unfold execLoftVerify
  repeat' first
    | with_reducible assumption | with_reducible refine done_keeps (Sub.trans (by decide) hM) ?_
    | with_reducible refine withCmd_keeps (Sub.trans (by decide) hM) ?_ ?_
    | with_reducible refine refuse_keeps (Sub.trans (by decide) hM) ?_
    | with_reducible refine unitData_keeps (Sub.trans (by decide) hM) ?_ ?_
    | with_reducible refine tookFree_keeps (Sub.trans (by decide) hM) ?_
    | with_reducible refine updFw_keeps (Sub.trans (by decide) hM) ?_ | with_reducible refine keeps_ite (fun _ => ?_) (fun _ => ?_)
    | with_reducible refine keeps_id ?_ | with_reducible refine keepsO_next ?_
    | with_reducible refine keepsO_ite (fun _ => ?_) (fun _ => ?_) | with_reducible split | with_reducible intro _

theorem execLoftSchedule_keeps {M : Nat} {s : State} (hM : Sub 268435452 M) :
    ∀ {t : State} {a1}, Keeps M s t → KeepsO M s (execLoftSchedule a1 t) := by
  intro _ _ h0
  unfold execLoftSchedule
  repeat' first
    | with_reducible assumption | with_reducible refine done_keeps (Sub.trans (by decide) hM) ?_
    | with_reducible refine withCmd_keeps (Sub.trans (by decide) hM) ?_ ?_
    | with_reducible refine refuse_keeps (Sub.trans (by decide) hM) ?_
    | with_reducible refine unitData_keeps (Sub.trans (by decide) hM) ?_ ?_
    | with_reducible refine updFw_keeps (Sub.trans (by decide) hM) ?_ | with_reducible refine keeps_ite (fun _ => ?_) (fun _ => ?_)
    | with_reducible refine keeps_id ?_ | with_reducible refine keepsO_next ?_
    | with_reducible refine keepsO_ite (fun _ => ?_) (fun _ => ?_) | with_reducible split | with_reducible intro _

theorem execLoftActivateAt_keeps {M : Nat} {s : State} (hM : Sub 268435452 M) :
    ∀ {t : State}, Keeps M s t → KeepsO M s (execLoftActivateAt t) := by
  intro _ h0
  unfold execLoftActivateAt
  repeat' first
    | with_reducible assumption | with_reducible refine done_keeps (Sub.trans (by decide) hM) ?_
    | with_reducible refine attic_keeps (Sub.trans (by decide) hM) ?_
    | with_reducible refine note_keeps (Sub.trans (by decide) hM) ?_
    | with_reducible refine updFw_keeps (Sub.trans (by decide) hM) ?_
    | with_reducible refine chipReset_keeps (Sub.trans (by decide) hM) ?_
    | with_reducible refine keeps_ite (fun _ => ?_) (fun _ => ?_) | with_reducible refine keeps_id ?_
    | with_reducible refine keepsO_next ?_ | with_reducible refine keepsO_ite (fun _ => ?_) (fun _ => ?_)

theorem execFwConfirm_keeps {M : Nat} {s : State} (hM : Sub 268435452 M) :
    ∀ {t : State}, Keeps M s t → KeepsO M s (execFwConfirm t) := by
  intro _ h0
  unfold execFwConfirm
  repeat' first
    | with_reducible assumption | with_reducible refine done_keeps (Sub.trans (by decide) hM) ?_
    | with_reducible refine fwActivated_keeps (Sub.trans (by decide) hM) ?_
    | with_reducible refine updFw_keeps (Sub.trans (by decide) hM) ?_ | with_reducible refine keeps_ite (fun _ => ?_) (fun _ => ?_)
    | with_reducible refine keeps_id ?_ | with_reducible refine keepsO_next ?_
    | with_reducible refine keepsO_ite (fun _ => ?_) (fun _ => ?_) | with_reducible split

theorem execFwConfirmTimeout_keeps {M : Nat} {s : State} (hM : Sub 268435452 M) :
    ∀ {t : State}, Keeps M s t → KeepsO M s (execFwConfirmTimeout t) := by
  intro _ h0
  unfold execFwConfirmTimeout
  repeat' first
    | with_reducible assumption | with_reducible refine done_keeps (Sub.trans (by decide) hM) ?_
    | with_reducible refine chipReset_keeps (Sub.trans (by decide) hM) ?_
    | with_reducible refine updFw_keeps (Sub.trans (by decide) hM) ?_ | with_reducible refine keeps_ite (fun _ => ?_) (fun _ => ?_)
    | with_reducible refine keeps_id ?_ | with_reducible refine keepsO_next ?_
    | with_reducible refine keepsO_ite (fun _ => ?_) (fun _ => ?_) | with_reducible split

theorem imageStore_keeps {M : Nat} {s : State} (hM : Sub 134285392 M) :
    ∀ {t : State} {a1 a2 a3}, Keeps M s t → Keeps M s (State.imageStore t a1 a2 a3) := by
  intro _ _ _ _ h0
  unfold State.imageStore
  repeat' first
    | with_reducible assumption | with_reducible refine refuse_keeps (Sub.trans (by decide) hM) ?_
    | with_reducible refine finishWrite_keeps (Sub.trans (by decide) hM) ?_
    | with_reducible refine epStore_keeps (Sub.trans (by decide) hM) ?_
    | with_reducible refine imageEnd_keeps (Sub.trans (by decide) hM) ?_
    | with_reducible refine keeps_ite (fun _ => ?_) (fun _ => ?_) | with_reducible refine keeps_id ?_ | with_reducible split
    | with_reducible intro _ | with_reducible dsimp only

theorem execEpImageStore_keeps {M : Nat} {s : State} (hM : Sub 268435452 M) :
    ∀ {t : State} {a1}, Keeps M s t → KeepsO M s (execEpImageStore a1 t) := by
  intro _ _ h0
  unfold execEpImageStore
  repeat' first
    | with_reducible assumption | with_reducible refine done_keeps (Sub.trans (by decide) hM) ?_
    | with_reducible refine withWrite_keeps (Sub.trans (by decide) hM) ?_ ?_
    | with_reducible refine refuse_keeps (Sub.trans (by decide) hM) ?_
    | with_reducible refine imageStore_keeps (Sub.trans (by decide) hM) ?_
    | with_reducible refine mpTook_keeps (Sub.trans (by decide) hM) ?_ | with_reducible refine keeps_ite (fun _ => ?_) (fun _ => ?_)
    | with_reducible refine keeps_id ?_ | with_reducible refine keepsO_next ?_
    | with_reducible refine keepsO_ite (fun _ => ?_) (fun _ => ?_) | with_reducible split | with_reducible intro _

theorem execEpImageSend_keeps {M : Nat} {s : State} (hM : Sub 268435452 M) :
    ∀ {t : State} {a1}, Keeps M s t → KeepsO M s (execEpImageSend a1 t) := by
  intro _ _ h0
  unfold execEpImageSend
  repeat' first
    | with_reducible assumption | with_reducible refine done_keeps (Sub.trans (by decide) hM) ?_
    | with_reducible refine withCmd_keeps (Sub.trans (by decide) hM) ?_ ?_
    | with_reducible refine refuse_keeps (Sub.trans (by decide) hM) ?_
    | with_reducible refine busy_keeps (Sub.trans (by decide) hM) ?_
    | with_reducible refine imageNext_keeps (Sub.trans (by decide) hM) ?_
    | with_reducible refine updFw_keeps (Sub.trans (by decide) hM) ?_
    | with_reducible refine waitFor_keeps (Sub.trans (by decide) hM) ?_
    | with_reducible refine keeps_ite (fun _ => ?_) (fun _ => ?_) | with_reducible refine keeps_id ?_
    | with_reducible refine keepsO_next ?_ | with_reducible refine keepsO_ite (fun _ => ?_) (fun _ => ?_) | with_reducible split
    | with_reducible intro _

theorem lockSet_keeps {M : Nat} {s : State} (hM : Sub 134217728 M) :
    ∀ {t : State} {a1}, Keeps M s t → Keeps M s (State.lockSet t a1) := by
  intro _ _ h0
  unfold State.lockSet
  repeat' first
    | with_reducible assumption | with_reducible refine updFw_keeps (Sub.trans (by decide) hM) ?_

theorem execOwnerLock_keeps {M : Nat} {s : State} (hM : Sub 268435452 M) :
    ∀ {t : State} {a1}, Keeps M s t → KeepsO M s (execOwnerLock a1 t) := by
  intro _ _ h0
  unfold execOwnerLock
  repeat' first
    | with_reducible assumption | with_reducible refine done_keeps (Sub.trans (by decide) hM) ?_
    | with_reducible refine withWrite_keeps (Sub.trans (by decide) hM) ?_ ?_
    | with_reducible refine finishWrite_keeps (Sub.trans (by decide) hM) ?_
    | with_reducible refine lockSet_keeps (Sub.trans (by decide) hM) ?_
    | with_reducible refine freshChallenge_keeps (Sub.trans (by decide) hM) ?_
    | with_reducible refine refuse_keeps (Sub.trans (by decide) hM) ?_ | with_reducible refine keeps_ite (fun _ => ?_) (fun _ => ?_)
    | with_reducible refine keeps_id ?_ | with_reducible refine keepsO_next ?_
    | with_reducible refine keepsO_ite (fun _ => ?_) (fun _ => ?_) | with_reducible split | with_reducible intro _

theorem energyZero_keeps {M : Nat} {s : State} (hM : Sub 67108864 M) :
    ∀ {t : State}, Keeps M s t → Keeps M s (State.energyZero t) := by
  intro _ h0
  unfold State.energyZero
  repeat' first
    | with_reducible assumption | with_reducible refine updEn_keeps (Sub.trans (by decide) hM) ?_

theorem lcEffects_keeps {M : Nat} {s : State} (hM : Sub 201330692 M) :
    ∀ {t : State} {a1 a2 a3}, Keeps M s t → Keeps M s (State.lcEffects t a1 a2 a3) := by
  intro _ _ _ _ h0
  unfold State.lcEffects
  repeat' first
    | with_reducible assumption | with_reducible refine energyZero_keeps (Sub.trans (by decide) hM) ?_
    | with_reducible refine keyGenUp_keeps (Sub.trans (by decide) hM) ?_
    | with_reducible refine newUnitKeys_keeps (Sub.trans (by decide) hM) ?_
    | with_reducible refine updFw_keeps (Sub.trans (by decide) hM) ?_
    | with_reducible refine zeroise_keeps (Sub.trans (by decide) hM) ?_
    | with_reducible refine keeps_ite (fun _ => ?_) (fun _ => ?_)

theorem lcTransition_keeps {M : Nat} {s : State} (hM : Sub 201339380 M) :
    ∀ {t : State} {a1 a2}, Keeps M s t → Keeps M s (State.lcTransition t a1 a2) := by
  intro _ _ _ h0
  unfold State.lcTransition
  repeat' first
    | with_reducible assumption | with_reducible refine lcEffects_keeps (Sub.trans (by decide) hM) ?_
    | with_reducible refine updFw_keeps (Sub.trans (by decide) hM) ?_
    | with_reducible refine wipe_keeps (Sub.trans (by decide) hM) ?_
    | with_reducible refine updSys_keeps (Sub.trans (by decide) hM) ?_
    | with_reducible refine dbgClose_keeps (Sub.trans (by decide) hM) ?_
    | with_reducible refine note_keeps (Sub.trans (by decide) hM) ?_
    | with_reducible refine attic_keeps (Sub.trans (by decide) hM) ?_ | with_reducible refine keeps_ite (fun _ => ?_) (fun _ => ?_)

theorem execLcSet_keeps {M : Nat} {s : State} (hM : Sub 268435452 M) :
    ∀ {t : State} {a1}, Keeps M s t → KeepsO M s (execLcSet a1 t) := by
  intro _ _ h0
  unfold execLcSet
  repeat' first
    | with_reducible assumption | with_reducible refine done_keeps (Sub.trans (by decide) hM) ?_
    | with_reducible refine withCmd_keeps (Sub.trans (by decide) hM) ?_ ?_
    | with_reducible refine generic_keeps (Sub.trans (by decide) hM) ?_
    | with_reducible refine refuse_keeps (Sub.trans (by decide) hM) ?_
    | with_reducible refine replyOk_keeps (Sub.trans (by decide) hM) ?_
    | with_reducible refine lcTransition_keeps (Sub.trans (by decide) hM) ?_
    | with_reducible refine freshChallenge_keeps (Sub.trans (by decide) hM) ?_
    | with_reducible refine keeps_ite (fun _ => ?_) (fun _ => ?_) | with_reducible refine keeps_id ?_
    | with_reducible refine keepsO_next ?_ | with_reducible refine keepsO_ite (fun _ => ?_) (fun _ => ?_) | with_reducible split
    | with_reducible intro _

theorem execAtticRead_keeps {M : Nat} {s : State} (hM : Sub 268435452 M) :
    ∀ {t : State} {a1}, Keeps M s t → KeepsO M s (execAtticRead a1 t) := by
  intro _ _ h0
  unfold execAtticRead
  repeat' first
    | with_reducible assumption | with_reducible refine done_keeps (Sub.trans (by decide) hM) ?_
    | with_reducible refine withCmd_keeps (Sub.trans (by decide) hM) ?_ ?_
    | with_reducible refine refuse_keeps (Sub.trans (by decide) hM) ?_
    | with_reducible refine replyOk_keeps (Sub.trans (by decide) hM) ?_
    | with_reducible refine keeps_ite (fun _ => ?_) (fun _ => ?_) | with_reducible refine keeps_id ?_
    | with_reducible refine keepsO_next ?_ | with_reducible refine keepsO_ite (fun _ => ?_) (fun _ => ?_) | with_reducible split
    | with_reducible intro _

theorem execHkRound_keeps {M : Nat} {s : State} (hM : Sub 268435452 M) :
    ∀ {t : State}, Keeps M s t → KeepsO M s (execHkRound t) := by
  intro _ h0
  unfold execHkRound
  repeat' first
    | with_reducible assumption | with_reducible refine done_keeps (Sub.trans (by decide) hM) ?_
    | with_reducible refine hkRoundStart_keeps (Sub.trans (by decide) hM) ?_
    | with_reducible refine keeps_ite (fun _ => ?_) (fun _ => ?_) | with_reducible refine keeps_id ?_
    | with_reducible refine keepsO_next ?_ | with_reducible refine keepsO_ite (fun _ => ?_) (fun _ => ?_)

theorem hkReply_keeps {M : Nat} {s : State} (hM : Sub 80 M) :
    ∀ {t : State} {a1 a2 a3 a4 a5}, Keeps M s t → Keeps M s (State.hkReply t a1 a2 a3 a4 a5) := by
  intro _ _ _ _ _ _ h0
  unfold State.hkReply
  repeat' first
    | with_reducible assumption | with_reducible refine replyOk_keeps (Sub.trans (by decide) hM) ?_

theorem urgentDone_keeps {M : Nat} {s : State} (hM : Sub 5187832 M) :
    ∀ {t : State} {a1 a2 a3 a4}, Keeps M s t → Keeps M s (State.urgentDone t a1 a2 a3 a4) := by
  intro _ _ _ _ _ h0
  unfold State.urgentDone
  repeat' first
    | with_reducible assumption | with_reducible refine hkMark_keeps (Sub.trans (by decide) hM) ?_
    | with_reducible refine bumpBy_keeps (Sub.trans (by decide) hM) ?_
    | with_reducible refine hkPaired_keeps (Sub.trans (by decide) hM) ?_
    | with_reducible refine hkSingle_keeps (Sub.trans (by decide) hM) ?_
    | with_reducible refine hkReply_keeps (Sub.trans (by decide) hM) ?_
    | with_reducible refine thermConfirm_keeps (Sub.trans (by decide) hM) ?_
    | with_reducible refine keeps_ite (fun _ => ?_) (fun _ => ?_) | with_reducible refine keeps_id ?_ | with_reducible split

theorem entryDone_keeps {M : Nat} {s : State} (hM : Sub 4202744 M) :
    ∀ {t : State} {a1 a2 a3 a4}, Keeps M s t → Keeps M s (State.entryDone t a1 a2 a3 a4) := by
  intro _ _ _ _ _ h0
  unfold State.entryDone
  repeat' first
    | with_reducible assumption | with_reducible refine hkPaired_keeps (Sub.trans (by decide) hM) ?_
    | with_reducible refine hkSingle_keeps (Sub.trans (by decide) hM) ?_
    | with_reducible refine modPair_keeps (Sub.trans (by decide) hM) ?_
    | with_reducible refine hkMark_keeps (Sub.trans (by decide) hM) ?_
    | with_reducible refine bumpBy_keeps (Sub.trans (by decide) hM) ?_ | with_reducible refine keeps_ite (fun _ => ?_) (fun _ => ?_)

theorem execAdcConversionDone_keeps {M : Nat} {s : State} (hM : Sub 268435452 M) :
    ∀ {t : State} {a1 a2 a3}, Keeps M s t → KeepsO M s (execAdcConversionDone a1 a2 a3 t) := by
  intro _ _ _ _ h0
  unfold execAdcConversionDone
  repeat' first
    | with_reducible assumption | with_reducible refine modPair_keeps (Sub.trans (by decide) hM) ?_
    | with_reducible refine entryDone_keeps (Sub.trans (by decide) hM) ?_
    | with_reducible refine urgentDone_keeps (Sub.trans (by decide) hM) ?_
    | with_reducible refine done_keeps (Sub.trans (by decide) hM) ?_
    | with_reducible refine hkTryEval_keeps (Sub.trans (by decide) hM) ?_
    | with_reducible refine hkNext_keeps (Sub.trans (by decide) hM) ?_ | with_reducible refine keeps_ite (fun _ => ?_) (fun _ => ?_)
    | with_reducible refine keeps_id ?_ | with_reducible refine keepsO_next ?_
    | with_reducible refine keepsO_ite (fun _ => ?_) (fun _ => ?_) | with_reducible split | with_reducible intro _
    | with_reducible dsimp only

theorem execHkPairSleep_keeps {M : Nat} {s : State} (hM : Sub 4194304 M) :
    ∀ {t : State} {a1}, Keeps M s t → KeepsO M s (execHkPairSleep a1 t) := by
  intro _ _ h0
  unfold execHkPairSleep
  repeat' first
    | with_reducible assumption | with_reducible refine modPair_keeps (Sub.trans (by decide) hM) ?_
    | with_reducible refine keeps_ite (fun _ => ?_) (fun _ => ?_) | with_reducible refine keeps_id ?_
    | with_reducible refine keepsO_next ?_ | with_reducible refine keepsO_ite (fun _ => ?_) (fun _ => ?_)

theorem execHkWakeDone_keeps {M : Nat} {s : State} (hM : Sub 268435452 M) :
    ∀ {t : State} {a1}, Keeps M s t → KeepsO M s (execHkWakeDone a1 t) := by
  intro _ _ h0
  unfold execHkWakeDone
  repeat' first
    | with_reducible assumption | with_reducible refine done_keeps (Sub.trans (by decide) hM) ?_
    | with_reducible refine hkNext_keeps (Sub.trans (by decide) hM) ?_
    | with_reducible refine modPair_keeps (Sub.trans (by decide) hM) ?_
    | with_reducible refine keeps_ite (fun _ => ?_) (fun _ => ?_) | with_reducible refine keeps_id ?_
    | with_reducible refine keepsO_next ?_ | with_reducible refine keepsO_ite (fun _ => ?_) (fun _ => ?_) | with_reducible split

theorem execFanTachEdge_keeps {M : Nat} {s : State} (hM : Sub 4194304 M) :
    ∀ {t : State} {a1}, Keeps M s t → KeepsO M s (execFanTachEdge a1 t) := by
  intro _ _ h0
  unfold execFanTachEdge
  repeat' first
    | with_reducible assumption | with_reducible refine updHk_keeps (Sub.trans (by decide) hM) ?_
    | with_reducible refine keeps_ite (fun _ => ?_) (fun _ => ?_) | with_reducible refine keeps_id ?_
    | with_reducible refine keepsO_next ?_

theorem execFanPulseTimeout_keeps {M : Nat} {s : State} (hM : Sub 4194304 M) :
    ∀ {t : State} {a1}, Keeps M s t → KeepsO M s (execFanPulseTimeout a1 t) := by
  intro _ _ h0
  unfold execFanPulseTimeout
  repeat' first
    | with_reducible assumption | with_reducible refine updHk_keeps (Sub.trans (by decide) hM) ?_
    | with_reducible refine keeps_ite (fun _ => ?_) (fun _ => ?_) | with_reducible refine keeps_id ?_
    | with_reducible refine keepsO_next ?_ | with_reducible refine keepsO_ite (fun _ => ?_) (fun _ => ?_) | with_reducible split
    | with_reducible intro _ | with_reducible dsimp only

theorem execHkConvert_keeps {M : Nat} {s : State} (hM : Sub 268435452 M) :
    ∀ {t : State} {a1}, Keeps M s t → KeepsO M s (execHkConvert a1 t) := by
  intro _ _ h0
  unfold execHkConvert
  repeat' first
    | with_reducible assumption | with_reducible refine done_keeps (Sub.trans (by decide) hM) ?_
    | with_reducible refine withCmd_keeps (Sub.trans (by decide) hM) ?_ ?_
    | with_reducible refine refuse_keeps (Sub.trans (by decide) hM) ?_
    | with_reducible refine busy_keeps (Sub.trans (by decide) hM) ?_
    | with_reducible refine hkUrgent_keeps (Sub.trans (by decide) hM) ?_
    | with_reducible refine waitFor_keeps (Sub.trans (by decide) hM) ?_
    | with_reducible refine keeps_ite (fun _ => ?_) (fun _ => ?_) | with_reducible refine keeps_id ?_
    | with_reducible refine keepsO_next ?_ | with_reducible refine keepsO_ite (fun _ => ?_) (fun _ => ?_) | with_reducible split
    | with_reducible intro _

theorem execThermRead_keeps {M : Nat} {s : State} (hM : Sub 268435452 M) :
    ∀ {t : State} {a1}, Keeps M s t → KeepsO M s (execThermRead a1 t) := by
  intro _ _ h0
  unfold execThermRead
  repeat' first
    | with_reducible assumption | with_reducible refine done_keeps (Sub.trans (by decide) hM) ?_
    | with_reducible refine withCmd_keeps (Sub.trans (by decide) hM) ?_ ?_
    | with_reducible refine refuse_keeps (Sub.trans (by decide) hM) ?_
    | with_reducible refine replyOk_keeps (Sub.trans (by decide) hM) ?_
    | with_reducible refine updHk_keeps (Sub.trans (by decide) hM) ?_ | with_reducible refine keeps_ite (fun _ => ?_) (fun _ => ?_)
    | with_reducible refine keeps_id ?_ | with_reducible refine keepsO_next ?_
    | with_reducible refine keepsO_ite (fun _ => ?_) (fun _ => ?_) | with_reducible split | with_reducible intro _

theorem execThermClear_keeps {M : Nat} {s : State} (hM : Sub 268435452 M) :
    ∀ {t : State} {a1}, Keeps M s t → KeepsO M s (execThermClear a1 t) := by
  intro _ _ h0
  unfold execThermClear
  repeat' first
    | with_reducible assumption | with_reducible refine done_keeps (Sub.trans (by decide) hM) ?_
    | with_reducible refine withWrite_keeps (Sub.trans (by decide) hM) ?_ ?_
    | with_reducible refine refuse_keeps (Sub.trans (by decide) hM) ?_
    | with_reducible refine condOff_keeps (Sub.trans (by decide) hM) ?_
    | with_reducible refine updHk_keeps (Sub.trans (by decide) hM) ?_
    | with_reducible refine finishWrite_keeps (Sub.trans (by decide) hM) ?_
    | with_reducible refine keeps_ite (fun _ => ?_) (fun _ => ?_) | with_reducible refine keeps_id ?_
    | with_reducible refine keepsO_next ?_ | with_reducible refine keepsO_ite (fun _ => ?_) (fun _ => ?_) | with_reducible split
    | with_reducible intro _

theorem execControlBoundary_keeps {M : Nat} {s : State} (hM : Sub 268435452 M) :
    ∀ {t : State}, Keeps M s t → KeepsO M s (execControlBoundary t) := by
  intro _ h0
  unfold execControlBoundary
  repeat' first
    | with_reducible assumption | with_reducible refine done_keeps (Sub.trans (by decide) hM) ?_
    | with_reducible refine controlBoundary_keeps (Sub.trans (by decide) hM) ?_
    | with_reducible refine keeps_ite (fun _ => ?_) (fun _ => ?_) | with_reducible refine keeps_id ?_
    | with_reducible refine keepsO_next ?_ | with_reducible refine keepsO_ite (fun _ => ?_) (fun _ => ?_)

theorem execWalkComplete_keeps {M : Nat} {s : State} (hM : Sub 268435452 M) :
    ∀ {t : State}, Keeps M s t → KeepsO M s (execWalkComplete t) := by
  intro _ h0
  unfold execWalkComplete
  repeat' first
    | with_reducible assumption | with_reducible refine done_keeps (Sub.trans (by decide) hM) ?_
    | with_reducible refine publishLate_keeps (Sub.trans (by decide) hM) ?_
    | with_reducible refine publish_keeps (Sub.trans (by decide) hM) ?_
    | with_reducible refine keeps_ite (fun _ => ?_) (fun _ => ?_) | with_reducible refine keeps_id ?_
    | with_reducible refine keepsO_next ?_ | with_reducible refine keepsO_ite (fun _ => ?_) (fun _ => ?_) | with_reducible split

theorem execLoopLoad_keeps {M : Nat} {s : State} (hM : Sub 268435452 M) :
    ∀ {t : State} {a1}, Keeps M s t → KeepsO M s (execLoopLoad a1 t) := by
  intro _ _ h0
  unfold execLoopLoad
  repeat' first
    | with_reducible assumption | with_reducible refine done_keeps (Sub.trans (by decide) hM) ?_
    | with_reducible refine withWrite_keeps (Sub.trans (by decide) hM) ?_ ?_
    | with_reducible refine refuse_keeps (Sub.trans (by decide) hM) ?_
    | with_reducible refine finishWrite_keeps (Sub.trans (by decide) hM) ?_
    | with_reducible refine loopLoad_keeps (Sub.trans (by decide) hM) ?_
    | with_reducible refine mpTook_keeps (Sub.trans (by decide) hM) ?_ | with_reducible refine keeps_ite (fun _ => ?_) (fun _ => ?_)
    | with_reducible refine keeps_id ?_ | with_reducible refine keepsO_next ?_
    | with_reducible refine keepsO_ite (fun _ => ?_) (fun _ => ?_) | with_reducible split | with_reducible intro _

theorem loopRun_keeps {M : Nat} {s : State} (hM : Sub 1116244 M) :
    ∀ {t : State} {a1 a2 a3}, Keeps M s t → Keeps M s (State.loopRun t a1 a2 a3) := by
  intro _ _ _ _ h0
  unfold State.loopRun
  repeat' first
    | with_reducible assumption | with_reducible refine busy_keeps (Sub.trans (by decide) hM) ?_
    | with_reducible refine reply_keeps (Sub.trans (by decide) hM) ?_
    | with_reducible refine tookFree_keeps (Sub.trans (by decide) hM) ?_
    | with_reducible refine loopCommit_keeps (Sub.trans (by decide) hM) ?_
    | with_reducible refine finishWrite_keeps (Sub.trans (by decide) hM) ?_
    | with_reducible refine keeps_ite (fun _ => ?_) (fun _ => ?_) | with_reducible refine keeps_id ?_ | with_reducible split

end Sys2Proof.Machine
end

