-- ==== Sys2Proof/Machine/Frame8.lean ====
section
/-!
DEFINITION. Frames, part 8: the functions from execLoopCommit to execParamSet, in the order of their calls. Each lemma says
which parts its function may change (a mask over Part.bit) and that it keeps the bounds of State.Inv.
-/

namespace Sys2Proof.Machine

set_option linter.unreachableTactic false
set_option linter.unusedTactic false
set_option linter.unusedSimpArgs false

theorem execLoopCommit_keeps {M : Nat} {s : State} (hM : Sub 268435452 M) :
    ∀ {t : State} {a1}, Keeps M s t → KeepsO M s (execLoopCommit a1 t) := by
  intro _ _ h0
  unfold execLoopCommit
  repeat' first
    | with_reducible assumption | with_reducible refine done_keeps (Sub.trans (by decide) hM) ?_
    | with_reducible refine withWrite_keeps (Sub.trans (by decide) hM) ?_ ?_
    | with_reducible refine loopRun_keeps (Sub.trans (by decide) hM) ?_
    | with_reducible refine keeps_ite (fun _ => ?_) (fun _ => ?_) | with_reducible refine keeps_id ?_
    | with_reducible refine keepsO_next ?_ | with_reducible refine keepsO_ite (fun _ => ?_) (fun _ => ?_) | with_reducible split
    | with_reducible intro _

theorem execLarderWrite_keeps {M : Nat} {s : State} (hM : Sub 268435452 M) :
    ∀ {t : State} {a1}, Keeps M s t → KeepsO M s (execLarderWrite a1 t) := by
  intro _ _ h0
  unfold execLarderWrite
  repeat' first
    | with_reducible assumption | with_reducible refine done_keeps (Sub.trans (by decide) hM) ?_
    | with_reducible refine withWrite_keeps (Sub.trans (by decide) hM) ?_ ?_
    | with_reducible refine refuse_keeps (Sub.trans (by decide) hM) ?_
    | with_reducible refine finishWrite_keeps (Sub.trans (by decide) hM) ?_
    | with_reducible refine larderPut_keeps (Sub.trans (by decide) hM) ?_
    | with_reducible refine mpTook_keeps (Sub.trans (by decide) hM) ?_ | with_reducible refine keeps_ite (fun _ => ?_) (fun _ => ?_)
    | with_reducible refine keeps_id ?_ | with_reducible refine keepsO_next ?_
    | with_reducible refine keepsO_ite (fun _ => ?_) (fun _ => ?_) | with_reducible split | with_reducible intro _

theorem execLarderRead_keeps {M : Nat} {s : State} (hM : Sub 268435452 M) :
    ∀ {t : State} {a1}, Keeps M s t → KeepsO M s (execLarderRead a1 t) := by
  intro _ _ h0
  unfold execLarderRead
  repeat' first
    | with_reducible assumption | with_reducible refine done_keeps (Sub.trans (by decide) hM) ?_
    | with_reducible refine withCmd_keeps (Sub.trans (by decide) hM) ?_ ?_
    | with_reducible refine refuse_keeps (Sub.trans (by decide) hM) ?_
    | with_reducible refine replyOk_keeps (Sub.trans (by decide) hM) ?_
    | with_reducible refine keeps_ite (fun _ => ?_) (fun _ => ?_) | with_reducible refine keeps_id ?_
    | with_reducible refine keepsO_next ?_ | with_reducible refine keepsO_ite (fun _ => ?_) (fun _ => ?_) | with_reducible split
    | with_reducible intro _

theorem execLeStart_keeps {M : Nat} {s : State} (hM : Sub 268435452 M) :
    ∀ {t : State} {a1}, Keeps M s t → KeepsO M s (execLeStart a1 t) := by
  intro _ _ h0
  unfold execLeStart
  repeat' first
    | with_reducible assumption | with_reducible refine done_keeps (Sub.trans (by decide) hM) ?_
    | with_reducible refine withWrite_keeps (Sub.trans (by decide) hM) ?_ ?_
    | with_reducible refine refuse_keeps (Sub.trans (by decide) hM) ?_
    | with_reducible refine finishWrite_keeps (Sub.trans (by decide) hM) ?_
    | with_reducible refine updLe_keeps (Sub.trans (by decide) hM) ?_ | with_reducible refine keeps_ite (fun _ => ?_) (fun _ => ?_)
    | with_reducible refine keeps_id ?_ | with_reducible refine keepsO_next ?_
    | with_reducible refine keepsO_ite (fun _ => ?_) (fun _ => ?_) | with_reducible split | with_reducible intro _

theorem execLeStop_keeps {M : Nat} {s : State} (hM : Sub 268435452 M) :
    ∀ {t : State} {a1}, Keeps M s t → KeepsO M s (execLeStop a1 t) := by
  intro _ _ h0
  unfold execLeStop
  repeat' first
    | with_reducible assumption | with_reducible refine done_keeps (Sub.trans (by decide) hM) ?_
    | with_reducible refine withWrite_keeps (Sub.trans (by decide) hM) ?_ ?_
    | with_reducible refine refuse_keeps (Sub.trans (by decide) hM) ?_
    | with_reducible refine finishWrite_keeps (Sub.trans (by decide) hM) ?_
    | with_reducible refine updLe_keeps (Sub.trans (by decide) hM) ?_ | with_reducible refine keeps_ite (fun _ => ?_) (fun _ => ?_)
    | with_reducible refine keeps_id ?_ | with_reducible refine keepsO_next ?_
    | with_reducible refine keepsO_ite (fun _ => ?_) (fun _ => ?_) | with_reducible split | with_reducible intro _

theorem execLoopPreset_keeps {M : Nat} {s : State} (hM : Sub 268435452 M) :
    ∀ {t : State} {a1}, Keeps M s t → KeepsO M s (execLoopPreset a1 t) := by
  intro _ _ h0
  unfold execLoopPreset
  repeat' first
    | with_reducible assumption | with_reducible refine done_keeps (Sub.trans (by decide) hM) ?_
    | with_reducible refine withWrite_keeps (Sub.trans (by decide) hM) ?_ ?_
    | with_reducible refine refuse_keeps (Sub.trans (by decide) hM) ?_
    | with_reducible refine finishWrite_keeps (Sub.trans (by decide) hM) ?_
    | with_reducible refine updLe_keeps (Sub.trans (by decide) hM) ?_ | with_reducible refine keeps_ite (fun _ => ?_) (fun _ => ?_)
    | with_reducible refine keeps_id ?_ | with_reducible refine keepsO_next ?_
    | with_reducible refine keepsO_ite (fun _ => ?_) (fun _ => ?_) | with_reducible split | with_reducible intro _

theorem execStringBoundary_keeps {M : Nat} {s : State} (hM : Sub 268435452 M) :
    ∀ {t : State} {a1}, Keeps M s t → KeepsO M s (execStringBoundary a1 t) := by
  intro _ _ h0
  unfold execStringBoundary
  repeat' first
    | with_reducible assumption | with_reducible refine done_keeps (Sub.trans (by decide) hM) ?_
    | with_reducible refine gatherBoundary_keeps (Sub.trans (by decide) hM) ?_
    | with_reducible refine boundary_keeps (Sub.trans (by decide) hM) ?_
    | with_reducible refine resyncStr_keeps (Sub.trans (by decide) hM) ?_
    | with_reducible refine planDone_keeps (Sub.trans (by decide) hM) ?_
    | with_reducible refine gatherPlan_keeps (Sub.trans (by decide) hM) ?_
    | with_reducible refine keeps_ite (fun _ => ?_) (fun _ => ?_) | with_reducible refine keeps_id ?_
    | with_reducible refine keepsO_next ?_ | with_reducible refine keepsO_ite (fun _ => ?_) (fun _ => ?_)

theorem execPlanComplete_keeps {M : Nat} {s : State} (hM : Sub 268435452 M) :
    ∀ {t : State} {a1}, Keeps M s t → KeepsO M s (execPlanComplete a1 t) := by
  intro _ _ h0
  unfold execPlanComplete
  repeat' first
    | with_reducible assumption | with_reducible refine done_keeps (Sub.trans (by decide) hM) ?_
    | with_reducible refine planDone_keeps (Sub.trans (by decide) hM) ?_
    | with_reducible refine gatherPlan_keeps (Sub.trans (by decide) hM) ?_
    | with_reducible refine keeps_ite (fun _ => ?_) (fun _ => ?_) | with_reducible refine keeps_id ?_
    | with_reducible refine keepsO_next ?_ | with_reducible refine keepsO_ite (fun _ => ?_) (fun _ => ?_)

theorem execShelfEntryExpire_keeps {M : Nat} {s : State} (hM : Sub 268435452 M) :
    ∀ {t : State} {a1}, Keeps M s t → KeepsO M s (execShelfEntryExpire a1 t) := by
  intro _ _ h0
  unfold execShelfEntryExpire
  repeat' first
    | with_reducible assumption | with_reducible refine done_keeps (Sub.trans (by decide) hM) ?_
    | with_reducible refine shelfPass_keeps (Sub.trans (by decide) hM) ?_

theorem execStringFirstOutput_keeps {M : Nat} {s : State} (hM : Sub 268435452 M) :
    ∀ {t : State} {a1}, Keeps M s t → KeepsO M s (execStringFirstOutput a1 t) := by
  intro _ _ h0
  unfold execStringFirstOutput
  repeat' first
    | with_reducible assumption | with_reducible refine modStr_keeps (Sub.trans (by decide) hM) ?_
    | with_reducible refine modByp_keeps (Sub.trans (by decide) hM) ?_
    | with_reducible refine record_keeps (Sub.trans (by decide) hM) ?_
    | with_reducible refine trip_keeps (Sub.trans (by decide) hM) ?_
    | with_reducible refine done_keeps (Sub.trans (by decide) hM) ?_
    | with_reducible refine rideReached_keeps (Sub.trans (by decide) hM) ?_ | with_reducible refine keeps_foldl ?_ ?_
    | with_reducible refine keeps_foldlP ?_ ?_ | with_reducible refine keeps_ite (fun _ => ?_) (fun _ => ?_)
    | with_reducible refine keeps_id ?_ | with_reducible refine keepsO_next ?_
    | with_reducible refine keepsO_ite (fun _ => ?_) (fun _ => ?_) | with_reducible split | with_reducible intro _

theorem execStringStopOutput_keeps {M : Nat} {s : State} (hM : Sub 268435452 M) :
    ∀ {t : State} {a1}, Keeps M s t → KeepsO M s (execStringStopOutput a1 t) := by
  intro _ _ h0
  unfold execStringStopOutput
  repeat' first
    | with_reducible assumption | with_reducible refine done_keeps (Sub.trans (by decide) hM) ?_
    | with_reducible refine becomeStopped_keeps (Sub.trans (by decide) hM) ?_
    | with_reducible refine keeps_ite (fun _ => ?_) (fun _ => ?_) | with_reducible refine keeps_id ?_
    | with_reducible refine keepsO_next ?_ | with_reducible refine keepsO_ite (fun _ => ?_) (fun _ => ?_) | with_reducible split

theorem execStringStart_keeps {M : Nat} {s : State} (hM : Sub 268435452 M) :
    ∀ {t : State} {a1}, Keeps M s t → KeepsO M s (execStringStart a1 t) := by
  intro _ _ h0
  unfold execStringStart
  repeat' first
    | with_reducible assumption | with_reducible refine done_keeps (Sub.trans (by decide) hM) ?_
    | with_reducible refine withWrite_keeps (Sub.trans (by decide) hM) ?_ ?_
    | with_reducible refine refuse_keeps (Sub.trans (by decide) hM) ?_
    | with_reducible refine startString_keeps (Sub.trans (by decide) hM) ?_
    | with_reducible refine finishWrite_keeps (Sub.trans (by decide) hM) ?_
    | with_reducible refine keeps_ite (fun _ => ?_) (fun _ => ?_) | with_reducible refine keeps_id ?_
    | with_reducible refine keepsO_next ?_ | with_reducible refine keepsO_ite (fun _ => ?_) (fun _ => ?_) | with_reducible split
    | with_reducible intro _

theorem execStringStop_keeps {M : Nat} {s : State} (hM : Sub 268435452 M) :
    ∀ {t : State} {a1}, Keeps M s t → KeepsO M s (execStringStop a1 t) := by
  intro _ _ h0
  unfold execStringStop
  repeat' first
    | with_reducible assumption | with_reducible refine done_keeps (Sub.trans (by decide) hM) ?_
    | with_reducible refine withWrite_keeps (Sub.trans (by decide) hM) ?_ ?_
    | with_reducible refine refuse_keeps (Sub.trans (by decide) hM) ?_
    | with_reducible refine finishWrite_keeps (Sub.trans (by decide) hM) ?_
    | with_reducible refine hostStop_keeps (Sub.trans (by decide) hM) ?_
    | with_reducible refine keeps_ite (fun _ => ?_) (fun _ => ?_) | with_reducible refine keeps_id ?_
    | with_reducible refine keepsO_next ?_ | with_reducible refine keepsO_ite (fun _ => ?_) (fun _ => ?_) | with_reducible split
    | with_reducible intro _

theorem rawTake_keeps {M : Nat} {s : State} (hM : Sub 131072 M) :
    ∀ {t : State} {a1}, Keeps M s t → Keeps M s (State.rawTake t a1) := by
  intro _ _ h0
  unfold State.rawTake
  repeat' first
    | with_reducible assumption | with_reducible refine modMl_keeps (Sub.trans (by decide) hM) ?_

theorem rawCheck_keeps {M : Nat} {s : State} (hM : Sub 131072 M) : ∀ {str i : Nat} {l : List RawRec} {t : State}, Keeps M s t → Keeps M s (State.rawCheck str i l t).1 := by
  intro str i l
  induction l generalizing i with
  | nil => intro t h; exact h | cons a r ih =>
    intro t h
    unfold State.rawCheck
    dsimp only
    split
    · exact ih (rawTake_keeps (Sub.trans (by decide) hM) h)
    · exact h

theorem rawJudge_keeps {M : Nat} {s : State} (hM : Sub 524288 M) :
    ∀ {t : State} {a1 a2 a3}, Keeps M s t → Keeps M s (State.rawJudge t a1 a2 a3) := by
  intro _ _ _ _ h0
  unfold State.rawJudge
  repeat' first
    | with_reducible assumption | with_reducible refine modDleg_keeps (Sub.trans (by decide) hM) ?_
    | with_reducible refine keeps_ite (fun _ => ?_) (fun _ => ?_) | with_reducible refine keeps_id ?_ | with_reducible split

theorem rawShelve_keeps {M : Nat} {s : State} (hM : Sub 655424 M) :
    ∀ {t : State} {a1 a2}, Keeps M s t → Keeps M s (State.rawShelve t a1 a2) := by
  intro _ _ _ h0
  unfold State.rawShelve
  repeat' first
    | with_reducible assumption | with_reducible refine rawJudge_keeps (Sub.trans (by decide) hM) ?_
    | with_reducible refine addEntries_keeps (Sub.trans (by decide) hM) ?_ | with_reducible refine keeps_foldl ?_ ?_
    | with_reducible refine keeps_foldlP ?_ ?_ | with_reducible refine keeps_ite (fun _ => ?_) (fun _ => ?_)
    | with_reducible refine keeps_id ?_ | with_reducible split | with_reducible intro _

theorem rawApply_keeps {M : Nat} {s : State} (hM : Sub 655424 M) :
    ∀ {t : State} {a1}, Keeps M s t → Keeps M s (State.rawApply t a1) := by
  intro _ _ h0
  unfold State.rawApply
  repeat' first
    | with_reducible assumption | with_reducible refine rawTake_keeps (Sub.trans (by decide) hM) ?_
    | with_reducible refine rawShelve_keeps (Sub.trans (by decide) hM) ?_ | with_reducible refine keeps_foldl ?_ ?_
    | with_reducible refine keeps_foldlP ?_ ?_ | with_reducible refine keeps_ite (fun _ => ?_) (fun _ => ?_)
    | with_reducible refine keeps_id ?_ | with_reducible split | with_reducible intro _

theorem execRawEdgeLoad_keeps {M : Nat} {s : State} (hM : Sub 268435452 M) :
    ∀ {t : State} {a1}, Keeps M s t → KeepsO M s (execRawEdgeLoad a1 t) := by
  intro _ _ h0
  unfold execRawEdgeLoad
  repeat' first
    | with_reducible assumption | with_reducible refine done_keeps (Sub.trans (by decide) hM) ?_
    | with_reducible refine withWrite_keeps (Sub.trans (by decide) hM) ?_ ?_
    | with_reducible refine reply_keeps (Sub.trans (by decide) hM) ?_
    | with_reducible refine rawCheck_keeps (Sub.trans (by decide) hM) ?_
    | with_reducible refine finishWrite_keeps (Sub.trans (by decide) hM) ?_
    | with_reducible refine rawApply_keeps (Sub.trans (by decide) hM) ?_
    | with_reducible refine busy_keeps (Sub.trans (by decide) hM) ?_ | with_reducible refine keeps_ite (fun _ => ?_) (fun _ => ?_)
    | with_reducible refine keeps_id ?_ | with_reducible refine keepsO_next ?_
    | with_reducible refine keepsO_ite (fun _ => ?_) (fun _ => ?_) | with_reducible split | with_reducible intro _
    | with_reducible dsimp only

theorem slotIdle_keeps {M : Nat} {s : State} (hM : Sub 82432 M) :
    ∀ {t : State} {a1}, Keeps M s t → Keeps M s (State.slotIdle t a1) := by
  intro _ _ h0
  unfold State.slotIdle
  repeat' first
    | with_reducible assumption | with_reducible refine sendBlock_keeps (Sub.trans (by decide) hM) ?_
    | with_reducible refine modLane_keeps (Sub.trans (by decide) hM) ?_

theorem wakeUp_keeps {M : Nat} {s : State} (hM : Sub 81928 M) :
    ∀ {t : State} {a1}, Keeps M s t → Keeps M s (State.wakeUp t a1) := by
  intro _ _ h0
  unfold State.wakeUp
  repeat' first
    | with_reducible assumption | with_reducible refine burstDue_keeps (Sub.trans (by decide) hM) ?_
    | with_reducible refine setLane_keeps (Sub.trans (by decide) hM) ?_

theorem execDownstreamSlot_keeps {M : Nat} {s : State} (hM : Sub 268435452 M) :
    ∀ {t : State} {a1}, Keeps M s t → KeepsO M s (execDownstreamSlot a1 t) := by
  intro _ _ h0
  unfold execDownstreamSlot
  repeat' first
    | with_reducible assumption | with_reducible refine sendBlock_keeps (Sub.trans (by decide) hM) ?_
    | with_reducible refine shelfPass_keeps (Sub.trans (by decide) hM) ?_
    | with_reducible refine done_keeps (Sub.trans (by decide) hM) ?_
    | with_reducible refine later_keeps (Sub.trans (by decide) hM) ?_
    | with_reducible refine modLane_keeps (Sub.trans (by decide) hM) ?_
    | with_reducible refine slotIdle_keeps (Sub.trans (by decide) hM) ?_
    | with_reducible refine wakeUp_keeps (Sub.trans (by decide) hM) ?_ | with_reducible refine keeps_ite (fun _ => ?_) (fun _ => ?_)
    | with_reducible refine keeps_id ?_ | with_reducible refine keepsO_next ?_
    | with_reducible refine keepsO_ite (fun _ => ?_) (fun _ => ?_) | refine slotBody_keeps (Sub.trans (by decide) hM) ?_ ‹_›
    | with_reducible split | with_reducible intro _ | with_reducible dsimp only

theorem holdReset_keeps {M : Nat} {s : State} (hM : Sub 256 M) :
    ∀ {t : State} {a1}, Keeps M s t → Keeps M s (State.holdReset t a1) := by
  intro _ _ h0
  unfold State.holdReset
  repeat' first
    | with_reducible assumption | with_reducible refine updSys_keeps (Sub.trans (by decide) hM) ?_

theorem execSupplyMonitorLow_keeps {M : Nat} {s : State} (hM : Sub 268435452 M) :
    ∀ {t : State} {a1}, Keeps M s t → KeepsO M s (execSupplyMonitorLow a1 t) := by
  intro _ _ h0
  unfold execSupplyMonitorLow
  repeat' first
    | with_reducible assumption | with_reducible refine holdReset_keeps (Sub.trans (by decide) hM) ?_
    | with_reducible refine updSys_keeps (Sub.trans (by decide) hM) ?_
    | with_reducible refine done_keeps (Sub.trans (by decide) hM) ?_
    | with_reducible refine chipReset_keeps (Sub.trans (by decide) hM) ?_
    | with_reducible refine keeps_ite (fun _ => ?_) (fun _ => ?_)

theorem execSupplyMonitorRestore_keeps {M : Nat} {s : State} (hM : Sub 256 M) :
    ∀ {t : State}, Keeps M s t → KeepsO M s (execSupplyMonitorRestore t) := by
  intro _ h0
  unfold execSupplyMonitorRestore
  repeat' first
    | with_reducible assumption | with_reducible refine holdEnd_keeps (Sub.trans (by decide) hM) ?_
    | with_reducible refine keeps_ite (fun _ => ?_) (fun _ => ?_) | with_reducible refine keeps_id ?_
    | with_reducible refine keepsO_next ?_

theorem execResetNAssert_keeps {M : Nat} {s : State} (hM : Sub 268435452 M) :
    ∀ {t : State}, Keeps M s t → KeepsO M s (execResetNAssert t) := by
  intro _ h0
  unfold execResetNAssert
  repeat' first
    | with_reducible assumption | with_reducible refine done_keeps (Sub.trans (by decide) hM) ?_
    | with_reducible refine chipReset_keeps (Sub.trans (by decide) hM) ?_
    | with_reducible refine holdReset_keeps (Sub.trans (by decide) hM) ?_

theorem execResetNRelease_keeps {M : Nat} {s : State} (hM : Sub 256 M) :
    ∀ {t : State}, Keeps M s t → KeepsO M s (execResetNRelease t) := by
  intro _ h0
  unfold execResetNRelease
  repeat' first
    | with_reducible assumption | with_reducible refine holdEnd_keeps (Sub.trans (by decide) hM) ?_
    | with_reducible refine keeps_ite (fun _ => ?_) (fun _ => ?_) | with_reducible refine keeps_id ?_
    | with_reducible refine keepsO_next ?_

theorem execClockLoss_keeps {M : Nat} {s : State} (hM : Sub 268435452 M) :
    ∀ {t : State}, Keeps M s t → KeepsO M s (execClockLoss t) := by
  intro _ h0
  unfold execClockLoss
  repeat' first
    | with_reducible assumption | with_reducible refine done_keeps (Sub.trans (by decide) hM) ?_
    | with_reducible refine chipReset_keeps (Sub.trans (by decide) hM) ?_
    | with_reducible refine updSys_keeps (Sub.trans (by decide) hM) ?_
    | with_reducible refine holdReset_keeps (Sub.trans (by decide) hM) ?_

theorem execClockRestored_keeps {M : Nat} {s : State} (hM : Sub 260 M) :
    ∀ {t : State}, Keeps M s t → KeepsO M s (execClockRestored t) := by
  intro _ h0
  unfold execClockRestored
  repeat' first
    | with_reducible assumption | with_reducible refine holdEnd_keeps (Sub.trans (by decide) hM) ?_
    | with_reducible refine tookFree_keeps (Sub.trans (by decide) hM) ?_
    | with_reducible refine updSys_keeps (Sub.trans (by decide) hM) ?_ | with_reducible refine keeps_ite (fun _ => ?_) (fun _ => ?_)
    | with_reducible refine keeps_id ?_ | with_reducible refine keepsO_next ?_

theorem execMainPllLock_keeps {M : Nat} {s : State} (hM : Sub 11024 M) :
    ∀ {t : State} {a1}, Keeps M s t → KeepsO M s (execMainPllLock t a1) := by
  intro _ _ h0
  unfold execMainPllLock
  repeat' first
    | with_reducible assumption | with_reducible refine endOfReset_keeps (Sub.trans (by decide) hM) ?_
    | with_reducible refine keeps_ite (fun _ => ?_) (fun _ => ?_) | with_reducible refine keeps_id ?_
    | with_reducible refine keepsO_next ?_ | with_reducible refine keepsO_ite (fun _ => ?_) (fun _ => ?_)

theorem execSyncInEdge_keeps {M : Nat} {s : State} (hM : Sub 256 M) :
    ∀ {t : State}, Keeps M s t → KeepsO M s (execSyncInEdge t) := by
  intro _ h0
  unfold execSyncInEdge
  repeat' first
    | with_reducible assumption | with_reducible refine updSys_keeps (Sub.trans (by decide) hM) ?_
    | with_reducible refine keeps_ite (fun _ => ?_) (fun _ => ?_) | with_reducible refine keeps_id ?_
    | with_reducible refine keepsO_next ?_ | with_reducible refine keepsO_ite (fun _ => ?_) (fun _ => ?_)

theorem execClockDivBoundary_keeps {M : Nat} {s : State} (hM : Sub 64 M) :
    ∀ {t : State}, Keeps M s t → KeepsO M s (execClockDivBoundary t) := by
  intro _ h0
  unfold execClockDivBoundary
  repeat' first
    | with_reducible assumption | with_reducible refine capture_keeps (Sub.trans (by decide) hM) ?_
    | with_reducible refine keeps_ite (fun _ => ?_) (fun _ => ?_) | with_reducible refine keeps_id ?_
    | with_reducible refine keepsO_next ?_ | with_reducible refine keepsO_ite (fun _ => ?_) (fun _ => ?_)

theorem execWatchdogExpire_keeps {M : Nat} {s : State} (hM : Sub 268435452 M) :
    ∀ {t : State}, Keeps M s t → KeepsO M s (execWatchdogExpire t) := by
  intro _ h0
  unfold execWatchdogExpire
  repeat' first
    | with_reducible assumption | with_reducible refine updFw_keeps (Sub.trans (by decide) hM) ?_
    | with_reducible refine done_keeps (Sub.trans (by decide) hM) ?_
    | with_reducible refine chipReset_keeps (Sub.trans (by decide) hM) ?_
    | with_reducible refine keeps_ite (fun _ => ?_) (fun _ => ?_) | with_reducible refine keeps_id ?_
    | with_reducible refine keepsO_next ?_ | with_reducible refine keepsO_ite (fun _ => ?_) (fun _ => ?_) | with_reducible split

theorem execBootRomCheckDone_keeps {M : Nat} {s : State} (hM : Sub 268435452 M) :
    ∀ {t : State}, Keeps M s t → KeepsO M s (execBootRomCheckDone t) := by
  intro _ h0
  unfold execBootRomCheckDone
  repeat' first
    | with_reducible assumption | with_reducible refine bootLoft_keeps (Sub.trans (by decide) hM) ?_
    | with_reducible refine updSys_keeps (Sub.trans (by decide) hM) ?_
    | with_reducible refine done_keeps (Sub.trans (by decide) hM) ?_
    | with_reducible refine resetReport_keeps (Sub.trans (by decide) hM) ?_
    | with_reducible refine keeps_ite (fun _ => ?_) (fun _ => ?_) | with_reducible refine keeps_id ?_
    | with_reducible refine keepsO_next ?_ | with_reducible refine keepsO_ite (fun _ => ?_) (fun _ => ?_)

theorem execUbferReady_keeps {M : Nat} {s : State} (hM : Sub 268435452 M) :
    ∀ {t : State}, Keeps M s t → KeepsO M s (execUbferReady t) := by
  intro _ h0
  unfold execUbferReady
  repeat' first
    | with_reducible assumption | with_reducible refine done_keeps (Sub.trans (by decide) hM) ?_
    | with_reducible refine ubferStart_keeps (Sub.trans (by decide) hM) ?_
    | with_reducible refine keeps_ite (fun _ => ?_) (fun _ => ?_) | with_reducible refine keeps_id ?_
    | with_reducible refine keepsO_next ?_ | with_reducible refine keepsO_ite (fun _ => ?_) (fun _ => ?_)

theorem execPcieLinkTrained_keeps {M : Nat} {s : State} (hM : Sub 16 M) :
    ∀ {t : State}, Keeps M s t → KeepsO M s (execPcieLinkTrained t) := by
  intro _ h0
  unfold execPcieLinkTrained
  repeat' first
    | with_reducible assumption | with_reducible refine updHatch_keeps (Sub.trans (by decide) hM) ?_
    | with_reducible refine keeps_ite (fun _ => ?_) (fun _ => ?_) | with_reducible refine keeps_id ?_
    | with_reducible refine keepsO_next ?_ | with_reducible refine keepsO_ite (fun _ => ?_) (fun _ => ?_)

theorem execVddFieldLoss_keeps {M : Nat} {s : State} (hM : Sub 268435452 M) :
    ∀ {t : State}, Keeps M s t → KeepsO M s (execVddFieldLoss t) := by
  intro _ h0
  unfold execVddFieldLoss
  repeat' first
    | with_reducible assumption | with_reducible refine done_keeps (Sub.trans (by decide) hM) ?_
    | with_reducible refine auxWatch_keeps (Sub.trans (by decide) hM) ?_
    | with_reducible refine updSys_keeps (Sub.trans (by decide) hM) ?_

theorem execVddFieldReturn_keeps {M : Nat} {s : State} (hM : Sub 268435452 M) :
    ∀ {t : State}, Keeps M s t → KeepsO M s (execVddFieldReturn t) := by
  intro _ h0
  unfold execVddFieldReturn
  repeat' first
    | with_reducible assumption | with_reducible refine updSys_keeps (Sub.trans (by decide) hM) ?_
    | with_reducible refine done_keeps (Sub.trans (by decide) hM) ?_
    | with_reducible refine auxStart_keeps (Sub.trans (by decide) hM) ?_
    | with_reducible refine keeps_ite (fun _ => ?_) (fun _ => ?_)

theorem extestLeave_keeps {M : Nat} {s : State} (hM : Sub 268435452 M) :
    ∀ {t : State} {a1}, Keeps M s t → Keeps M s (State.extestLeave t a1) := by
  intro _ _ h0
  unfold State.extestLeave
  repeat' first
    | with_reducible assumption | with_reducible refine chipReset_keeps (Sub.trans (by decide) hM) ?_
    | with_reducible refine updSys_keeps (Sub.trans (by decide) hM) ?_

theorem execDbgUnlock_keeps {M : Nat} {s : State} (hM : Sub 268435452 M) :
    ∀ {t : State} {a1}, Keeps M s t → KeepsO M s (execDbgUnlock a1 t) := by
  intro _ _ h0
  unfold execDbgUnlock
  repeat' first
    | with_reducible assumption | with_reducible refine done_keeps (Sub.trans (by decide) hM) ?_
    | with_reducible refine withCmd_keeps (Sub.trans (by decide) hM) ?_ ?_
    | with_reducible refine refuse_keeps (Sub.trans (by decide) hM) ?_
    | with_reducible refine freshChallenge_keeps (Sub.trans (by decide) hM) ?_
    | with_reducible refine replyOk_keeps (Sub.trans (by decide) hM) ?_
    | with_reducible refine note_keeps (Sub.trans (by decide) hM) ?_
    | with_reducible refine updSys_keeps (Sub.trans (by decide) hM) ?_ | with_reducible refine keeps_ite (fun _ => ?_) (fun _ => ?_)
    | with_reducible refine keeps_id ?_ | with_reducible refine keepsO_next ?_
    | with_reducible refine keepsO_ite (fun _ => ?_) (fun _ => ?_) | with_reducible split | with_reducible intro _

theorem execDbgLock_keeps {M : Nat} {s : State} (hM : Sub 268435452 M) :
    ∀ {t : State} {a1}, Keeps M s t → KeepsO M s (execDbgLock a1 t) := by
  intro _ _ h0
  unfold execDbgLock
  repeat' first
    | with_reducible assumption | with_reducible refine done_keeps (Sub.trans (by decide) hM) ?_
    | with_reducible refine withCmd_keeps (Sub.trans (by decide) hM) ?_ ?_
    | with_reducible refine refuse_keeps (Sub.trans (by decide) hM) ?_
    | with_reducible refine replyOk_keeps (Sub.trans (by decide) hM) ?_
    | with_reducible refine dbgClose_keeps (Sub.trans (by decide) hM) ?_
    | with_reducible refine extestLeave_keeps (Sub.trans (by decide) hM) ?_
    | with_reducible refine keeps_ite (fun _ => ?_) (fun _ => ?_) | with_reducible refine keeps_id ?_
    | with_reducible refine keepsO_next ?_ | with_reducible refine keepsO_ite (fun _ => ?_) (fun _ => ?_) | with_reducible split
    | with_reducible intro _

theorem execDbgOpeningExpire_keeps {M : Nat} {s : State} (hM : Sub 268435452 M) :
    ∀ {t : State}, Keeps M s t → KeepsO M s (execDbgOpeningExpire t) := by
  intro _ h0
  unfold execDbgOpeningExpire
  repeat' first
    | with_reducible assumption | with_reducible refine done_keeps (Sub.trans (by decide) hM) ?_
    | with_reducible refine extestLeave_keeps (Sub.trans (by decide) hM) ?_
    | with_reducible refine dbgClose_keeps (Sub.trans (by decide) hM) ?_
    | with_reducible refine keeps_ite (fun _ => ?_) (fun _ => ?_) | with_reducible refine keeps_id ?_
    | with_reducible refine keepsO_next ?_ | with_reducible refine keepsO_ite (fun _ => ?_) (fun _ => ?_) | with_reducible split

theorem execJtagInstructionLoad_keeps {M : Nat} {s : State} (hM : Sub 268435452 M) :
    ∀ {t : State} {a1}, Keeps M s t → KeepsO M s (execJtagInstructionLoad a1 t) := by
  intro _ _ h0
  unfold execJtagInstructionLoad
  repeat' first
    | with_reducible assumption | with_reducible refine done_keeps (Sub.trans (by decide) hM) ?_
    | with_reducible refine extestLeave_keeps (Sub.trans (by decide) hM) ?_
    | with_reducible refine updSys_keeps (Sub.trans (by decide) hM) ?_ | with_reducible refine keeps_ite (fun _ => ?_) (fun _ => ?_)
    | with_reducible refine keeps_id ?_ | with_reducible refine keepsO_next ?_
    | with_reducible refine keepsO_ite (fun _ => ?_) (fun _ => ?_)

theorem execExtestExit_keeps {M : Nat} {s : State} (hM : Sub 268435452 M) :
    ∀ {t : State}, Keeps M s t → KeepsO M s (execExtestExit t) := by
  intro _ h0
  unfold execExtestExit
  repeat' first
    | with_reducible assumption | with_reducible refine done_keeps (Sub.trans (by decide) hM) ?_
    | with_reducible refine extestLeave_keeps (Sub.trans (by decide) hM) ?_
    | with_reducible refine keeps_ite (fun _ => ?_) (fun _ => ?_) | with_reducible refine keeps_id ?_
    | with_reducible refine keepsO_next ?_ | with_reducible refine keepsO_ite (fun _ => ?_) (fun _ => ?_)

theorem modCore_keeps {M : Nat} {s : State} (hM : Sub 256 M) :
    ∀ {t : State} {a1 a2}, Keeps M s t → Keeps M s (State.modCore t a1 a2) := by
  intro _ _ _ h0
  unfold State.modCore
  repeat' first
    | with_reducible assumption | with_reducible refine updSys_keeps (Sub.trans (by decide) hM) ?_

theorem execDebugHalt_keeps {M : Nat} {s : State} (hM : Sub 256 M) :
    ∀ {t : State} {a1}, Keeps M s t → KeepsO M s (execDebugHalt a1 t) := by
  intro _ _ h0
  unfold execDebugHalt
  repeat' first
    | with_reducible assumption | with_reducible refine modCore_keeps (Sub.trans (by decide) hM) ?_
    | with_reducible refine keeps_ite (fun _ => ?_) (fun _ => ?_) | with_reducible refine keeps_id ?_
    | with_reducible refine keepsO_next ?_ | with_reducible refine keepsO_ite (fun _ => ?_) (fun _ => ?_)

theorem execDebugResume_keeps {M : Nat} {s : State} (hM : Sub 256 M) :
    ∀ {t : State} {a1}, Keeps M s t → KeepsO M s (execDebugResume a1 t) := by
  intro _ _ h0
  unfold execDebugResume
  repeat' first
    | with_reducible assumption | with_reducible refine modCore_keeps (Sub.trans (by decide) hM) ?_
    | with_reducible refine keeps_ite (fun _ => ?_) (fun _ => ?_) | with_reducible refine keeps_id ?_
    | with_reducible refine keepsO_next ?_ | with_reducible refine keepsO_ite (fun _ => ?_) (fun _ => ?_)

theorem execDebugStep_keeps {M : Nat} {s : State} (hM : Sub 256 M) :
    ∀ {t : State} {a1}, Keeps M s t → KeepsO M s (execDebugStep a1 t) := by
  intro _ _ h0
  unfold execDebugStep
  repeat' first
    | with_reducible assumption | with_reducible refine modCore_keeps (Sub.trans (by decide) hM) ?_
    | with_reducible refine keeps_ite (fun _ => ?_) (fun _ => ?_) | with_reducible refine keeps_id ?_
    | with_reducible refine keepsO_next ?_ | with_reducible refine keepsO_ite (fun _ => ?_) (fun _ => ?_)

theorem execDebugBreakpointHit_keeps {M : Nat} {s : State} (hM : Sub 256 M) :
    ∀ {t : State} {a1}, Keeps M s t → KeepsO M s (execDebugBreakpointHit a1 t) := by
  intro _ _ h0
  unfold execDebugBreakpointHit
  repeat' first
    | with_reducible assumption | with_reducible refine modCore_keeps (Sub.trans (by decide) hM) ?_
    | with_reducible refine keeps_ite (fun _ => ?_) (fun _ => ?_) | with_reducible refine keeps_id ?_
    | with_reducible refine keepsO_next ?_ | with_reducible refine keepsO_ite (fun _ => ?_) (fun _ => ?_)

theorem regTouch_keeps {M : Nat} {s : State} (hM : Sub 48 M) :
    ∀ {t : State} {a1}, Keeps M s t → Keeps M s (State.regTouch t a1) := by
  intro _ _ h0
  unfold State.regTouch
  repeat' first
    | with_reducible assumption | with_reducible refine updHatch_keeps (Sub.trans (by decide) hM) ?_
    | with_reducible refine updNotif_keeps (Sub.trans (by decide) hM) ?_ ?_
    | with_reducible refine keeps_ite (fun _ => ?_) (fun _ => ?_) | with_reducible refine keeps_id ?_
    | (intro hi; obtain ⟨a, b, c, d, e, f, g⟩ := hi.notif; refine ⟨?_, ?_, ?_, ?_, ?_, ?_, ?_⟩ <;> first | assumption | exact Nat.mod_lt _ (by decide) | exact Nat.zero_le _ | (simp; done) | (simp; omega))
    | with_reducible split

theorem requestWrite_keeps {M : Nat} {s : State} (hM : Sub 20 M) :
    ∀ {t : State} {a1 a2}, Keeps M s t → Keeps M s (State.requestWrite t a1 a2) := by
  intro _ _ _ h0
  unfold State.requestWrite
  repeat' first
    | with_reducible assumption | with_reducible refine tookFree_keeps (Sub.trans (by decide) hM) ?_
    | with_reducible refine modBox_keeps (Sub.trans (by decide) hM) ?_ | with_reducible refine keeps_ite (fun _ => ?_) (fun _ => ?_)

theorem msixWrite_keeps {M : Nat} {s : State} (hM : Sub 16 M) :
    ∀ {t : State} {a1 a2}, Keeps M s t → Keeps M s (State.msixWrite t a1 a2) := by
  intro _ _ _ h0
  unfold State.msixWrite
  repeat' first
    | with_reducible assumption | with_reducible refine updHatch_keeps (Sub.trans (by decide) hM) ?_
    | with_reducible refine keeps_ite (fun _ => ?_) (fun _ => ?_)

theorem regWrite_keeps {M : Nat} {s : State} (hM : Sub 8820 M) :
    ∀ {t : State} {a1 a2}, Keeps M s t → Keeps M s (State.regWrite t a1 a2) := by
  intro _ _ _ h0
  unfold State.regWrite
  repeat' first
    | with_reducible assumption | with_reducible refine requestWrite_keeps (Sub.trans (by decide) hM) ?_
    | with_reducible refine msixWrite_keeps (Sub.trans (by decide) hM) ?_
    | with_reducible refine hostErrClear_keeps (Sub.trans (by decide) hM) ?_
    | with_reducible refine tcapWrite_keeps (Sub.trans (by decide) hM) ?_
    | with_reducible refine tcapStatus_keeps (Sub.trans (by decide) hM) ?_
    | with_reducible refine doorbell_keeps (Sub.trans (by decide) hM) ?_
    | with_reducible refine doneWrite_keeps (Sub.trans (by decide) hM) ?_
    | with_reducible refine irqSince_keeps (Sub.trans (by decide) hM) ?_ ?_
    | with_reducible refine updHatch_keeps (Sub.trans (by decide) hM) ?_
    | with_reducible refine tookFree_keeps (Sub.trans (by decide) hM) ?_
    | with_reducible refine updNotif_keeps (Sub.trans (by decide) hM) ?_ ?_
    | with_reducible refine nrCtrl_keeps (Sub.trans (by decide) hM) ?_
    | with_reducible refine nrTail_keeps (Sub.trans (by decide) hM) ?_ | with_reducible refine keeps_ite (fun _ => ?_) (fun _ => ?_)
    | with_reducible refine keeps_id ?_
    | (intro hi; obtain ⟨a, b, c, d, e, f, g⟩ := hi.notif; refine ⟨?_, ?_, ?_, ?_, ?_, ?_, ?_⟩ <;> first | assumption | exact Nat.mod_lt _ (by decide) | exact Nat.zero_le _ | (simp; done) | (simp; omega))
    | with_reducible split

theorem modAcc_keeps {M : Nat} {s : State} (hM : Sub 16 M) :
    ∀ {t : State} {a1 a2}, Keeps M s t → Keeps M s (State.modAcc t a1 a2) := by
  intro _ _ _ h0
  unfold State.modAcc
  repeat' first
    | with_reducible assumption | with_reducible refine updHatch_keeps (Sub.trans (by decide) hM) ?_

theorem tookWord_keeps {M : Nat} {s : State} (hM : Sub 4 M) :
    ∀ {t : State} {a1}, Keeps M s t → Keeps M s (State.tookWord t a1) := by
  intro _ _ h0
  unfold State.tookWord
  repeat' first
    | with_reducible assumption | with_reducible refine tookFree_keeps (Sub.trans (by decide) hM) ?_
    | with_reducible refine keeps_ite (fun _ => ?_) (fun _ => ?_)

theorem liveRead_keeps {M : Nat} {s : State} (hM : Sub 52 M) :
    ∀ {t : State} {a1 a2}, Keeps M s t → Keeps M s (State.liveRead t a1 a2) := by
  intro _ _ _ h0
  unfold State.liveRead
  repeat' first
    | with_reducible assumption | with_reducible refine tookWord_keeps (Sub.trans (by decide) hM) ?_
    | with_reducible refine regTouch_keeps (Sub.trans (by decide) hM) ?_
    | with_reducible refine modAcc_keeps (Sub.trans (by decide) hM) ?_

theorem wholeRead_keeps {M : Nat} {s : State} (hM : Sub 52 M) :
    ∀ {t : State} {a1 a2}, Keeps M s t → Keeps M s (State.wholeRead t a1 a2) := by
  intro _ _ _ h0
  unfold State.wholeRead
  repeat' first
    | with_reducible assumption | with_reducible refine tookWord_keeps (Sub.trans (by decide) hM) ?_
    | with_reducible refine regTouch_keeps (Sub.trans (by decide) hM) ?_
    | with_reducible refine modAcc_keeps (Sub.trans (by decide) hM) ?_

theorem accRead_keeps {M : Nat} {s : State} (hM : Sub 52 M) :
    ∀ {t : State} {a1 a2}, Keeps M s t → Keeps M s (State.accRead t a1 a2) := by
  intro _ _ _ h0
  unfold State.accRead
  repeat' first
    | with_reducible assumption | with_reducible refine modAcc_keeps (Sub.trans (by decide) hM) ?_
    | with_reducible refine liveRead_keeps (Sub.trans (by decide) hM) ?_
    | with_reducible refine keeps_ite (fun _ => ?_) (fun _ => ?_)

theorem accWrite_keeps {M : Nat} {s : State} (hM : Sub 8820 M) :
    ∀ {t : State} {a1 a2 a3}, Keeps M s t → Keeps M s (State.accWrite t a1 a2 a3) := by
  intro _ _ _ _ h0
  unfold State.accWrite
  repeat' first
    | with_reducible assumption | with_reducible refine modAcc_keeps (Sub.trans (by decide) hM) ?_
    | with_reducible refine regWrite_keeps (Sub.trans (by decide) hM) ?_
    | with_reducible refine keeps_ite (fun _ => ?_) (fun _ => ?_) | with_reducible refine keeps_id ?_ | with_reducible split

theorem wholeWrite_keeps {M : Nat} {s : State} (hM : Sub 8820 M) :
    ∀ {t : State} {a1 a2 a3 a4}, Keeps M s t → Keeps M s (State.wholeWrite t a1 a2 a3 a4) := by
  intro _ _ _ _ _ h0
  unfold State.wholeWrite
  repeat' first
    | with_reducible assumption | with_reducible refine regWrite_keeps (Sub.trans (by decide) hM) ?_
    | with_reducible refine modAcc_keeps (Sub.trans (by decide) hM) ?_

theorem dropHeld_keeps {M : Nat} {s : State} (hM : Sub 16 M) :
    ∀ {t : State} {a1}, Keeps M s t → Keeps M s (State.dropHeld t a1) := by
  intro _ _ h0
  unfold State.dropHeld
  repeat' first
    | with_reducible assumption | with_reducible refine modAcc_keeps (Sub.trans (by decide) hM) ?_

theorem portRead_keeps {M : Nat} {s : State} (hM : Sub 16 M) : ∀ {t : State} {p : AccessPort} {a : Nat} {f : Nat → State},
    Keeps M s t → (∀ n, Keeps M s (f n)) → Keeps M s (t.portRead p a f) := by
  intro t p a f h hf
  unfold State.portRead
  split
  · exact hf _
  · exact modAcc_keeps (Sub.trans (by decide) hM) h
  · exact h
  · exact h

theorem portWrite_keeps {M : Nat} {s : State} (hM : Sub 16 M) : ∀ {t : State} {p : AccessPort} {a : Nat} {f : Nat → State},
    Keeps M s t → (∀ n, Keeps M s (f n)) → Keeps M s (t.portWrite p a f) := by
  intro t p a f h hf
  unfold State.portWrite
  split
  · exact hf _
  · exact dropHeld_keeps (Sub.trans (by decide) hM) h
  · exact h
  · exact h

theorem busStart_keeps {M : Nat} {s : State} (hM : Sub 8192 M) :
    ∀ {t : State} {a1}, Keeps M s t → Keeps M s (State.busStart t a1) := by
  intro _ _ h0
  unfold State.busStart
  repeat' first
    | with_reducible assumption | with_reducible refine newTransaction_keeps (Sub.trans (by decide) hM) ?_
    | with_reducible refine keeps_ite (fun _ => ?_) (fun _ => ?_) | with_reducible refine keeps_id ?_ | with_reducible split

theorem execGstatRead_keeps {M : Nat} {s : State} (hM : Sub 52 M) :
    ∀ {t : State}, Keeps M s t → KeepsO M s (execGstatRead t) := by
  intro _ h0
  unfold execGstatRead
  repeat' first
    | with_reducible assumption | with_reducible refine liveRead_keeps (Sub.trans (by decide) hM) ?_
    | with_reducible refine keeps_ite (fun _ => ?_) (fun _ => ?_) | with_reducible refine keeps_id ?_
    | with_reducible refine keepsO_next ?_ | with_reducible refine keepsO_ite (fun _ => ?_) (fun _ => ?_)

theorem execLowWordRead_keeps {M : Nat} {s : State} (hM : Sub 8244 M) :
    ∀ {t : State} {a1 a2 a3}, Keeps M s t → KeepsO M s (execLowWordRead a1 a2 t a3) := by
  intro _ _ _ _ h0
  unfold execLowWordRead
  repeat' first
    | with_reducible assumption | with_reducible refine busStart_keeps (Sub.trans (by decide) hM) ?_
    | with_reducible refine portRead_keeps (Sub.trans (by decide) hM) ?_ ?_
    | with_reducible refine wholeRead_keeps (Sub.trans (by decide) hM) ?_
    | with_reducible refine liveRead_keeps (Sub.trans (by decide) hM) ?_
    | with_reducible refine keeps_ite (fun _ => ?_) (fun _ => ?_) | with_reducible refine keeps_id ?_
    | with_reducible refine keepsO_next ?_ | with_reducible refine keepsO_ite (fun _ => ?_) (fun _ => ?_) | with_reducible split
    | with_reducible intro _

theorem execHighWordRead_keeps {M : Nat} {s : State} (hM : Sub 8244 M) :
    ∀ {t : State} {a1 a2}, Keeps M s t → KeepsO M s (execHighWordRead a1 a2 t) := by
  intro _ _ _ h0
  unfold execHighWordRead
  repeat' first
    | with_reducible assumption | with_reducible refine busStart_keeps (Sub.trans (by decide) hM) ?_
    | with_reducible refine portRead_keeps (Sub.trans (by decide) hM) ?_ ?_
    | with_reducible refine accRead_keeps (Sub.trans (by decide) hM) ?_
    | with_reducible refine keeps_ite (fun _ => ?_) (fun _ => ?_) | with_reducible refine keeps_id ?_
    | with_reducible refine keepsO_next ?_ | with_reducible refine keepsO_ite (fun _ => ?_) (fun _ => ?_) | with_reducible split
    | with_reducible intro _

theorem execLowWordWrite_keeps {M : Nat} {s : State} (hM : Sub 8820 M) :
    ∀ {t : State} {a1 a2 a3}, Keeps M s t → KeepsO M s (execLowWordWrite a1 a2 a3 t) := by
  intro _ _ _ _ h0
  unfold execLowWordWrite
  repeat' first
    | with_reducible assumption | with_reducible refine busStart_keeps (Sub.trans (by decide) hM) ?_
    | with_reducible refine portWrite_keeps (Sub.trans (by decide) hM) ?_ ?_
    | with_reducible refine accWrite_keeps (Sub.trans (by decide) hM) ?_
    | with_reducible refine keeps_ite (fun _ => ?_) (fun _ => ?_) | with_reducible refine keeps_id ?_
    | with_reducible refine keepsO_next ?_ | with_reducible refine keepsO_ite (fun _ => ?_) (fun _ => ?_) | with_reducible split
    | with_reducible intro _

theorem execHighWordWrite_keeps {M : Nat} {s : State} (hM : Sub 8820 M) :
    ∀ {t : State} {a1 a2 a3 a4}, Keeps M s t → KeepsO M s (execHighWordWrite a1 a2 a3 t a4) := by
  intro _ _ _ _ _ h0
  unfold execHighWordWrite
  repeat' first
    | with_reducible assumption | with_reducible refine busStart_keeps (Sub.trans (by decide) hM) ?_
    | with_reducible refine portWrite_keeps (Sub.trans (by decide) hM) ?_ ?_
    | with_reducible refine wholeWrite_keeps (Sub.trans (by decide) hM) ?_
    | with_reducible refine accWrite_keeps (Sub.trans (by decide) hM) ?_
    | with_reducible refine keeps_ite (fun _ => ?_) (fun _ => ?_) | with_reducible refine keeps_id ?_
    | with_reducible refine keepsO_next ?_ | with_reducible refine keepsO_ite (fun _ => ?_) (fun _ => ?_) | with_reducible split
    | with_reducible intro _

theorem execRegisterWrite_keeps {M : Nat} {s : State} (hM : Sub 8820 M) :
    ∀ {t : State} {a1 a2 a3}, Keeps M s t → KeepsO M s (execRegisterWrite a1 a2 t a3) := by
  intro _ _ _ _ h0
  unfold execRegisterWrite
  repeat' first
    | with_reducible assumption | with_reducible refine busStart_keeps (Sub.trans (by decide) hM) ?_
    | with_reducible refine portWrite_keeps (Sub.trans (by decide) hM) ?_ ?_
    | with_reducible refine accWrite_keeps (Sub.trans (by decide) hM) ?_
    | with_reducible refine keeps_ite (fun _ => ?_) (fun _ => ?_) | with_reducible refine keeps_id ?_
    | with_reducible refine keepsO_next ?_ | with_reducible refine keepsO_ite (fun _ => ?_) (fun _ => ?_) | with_reducible split
    | with_reducible intro _

theorem tcmAccess_keeps {M : Nat} {s : State} (hM : Sub 260 M) :
    ∀ {t : State} {a1 a2}, Keeps M s t → Keeps M s (State.tcmAccess t a1 a2) := by
  intro _ _ _ h0
  unfold State.tcmAccess
  repeat' first
    | with_reducible assumption | with_reducible refine updSys_keeps (Sub.trans (by decide) hM) ?_
    | with_reducible refine tookFree_keeps (Sub.trans (by decide) hM) ?_
    | with_reducible refine keeps_ite (fun _ => ?_) (fun _ => ?_) | with_reducible refine keeps_id ?_ | with_reducible split

theorem pantryAccess_keeps {M : Nat} {s : State} (hM : Sub 2171384 M) :
    ∀ {t : State} {a1 a2}, Keeps M s t → Keeps M s (State.pantryAccess t a1 a2) := by
  intro _ _ _ h0
  unfold State.pantryAccess
  repeat' first
    | with_reducible assumption | with_reducible refine fire_keeps (Sub.trans (by decide) hM) ?_
    | with_reducible refine updSys_keeps (Sub.trans (by decide) hM) ?_
    | with_reducible refine wordWrites_keeps (Sub.trans (by decide) hM) ?_
    | with_reducible refine bump_keeps (Sub.trans (by decide) hM) ?_
    | with_reducible refine bankTouch_keeps (Sub.trans (by decide) hM) ?_
    | with_reducible refine keeps_ite (fun _ => ?_) (fun _ => ?_) | with_reducible refine keeps_id ?_ | with_reducible split

theorem execDebugMemAccess_keeps {M : Nat} {s : State} (hM : Sub 268435452 M) :
    ∀ {t : State} {a1 a2 a3}, Keeps M s t → KeepsO M s (execDebugMemAccess a1 a2 a3 t) := by
  intro _ _ _ _ h0
  unfold execDebugMemAccess
  repeat' first
    | with_reducible assumption | with_reducible refine tcmAccess_keeps (Sub.trans (by decide) hM) ?_
    | with_reducible refine dropHeld_keeps (Sub.trans (by decide) hM) ?_
    | with_reducible refine done_keeps (Sub.trans (by decide) hM) ?_
    | with_reducible refine pantryAccess_keeps (Sub.trans (by decide) hM) ?_
    | with_reducible refine accWrite_keeps (Sub.trans (by decide) hM) ?_
    | with_reducible refine accRead_keeps (Sub.trans (by decide) hM) ?_
    | with_reducible refine updSys_keeps (Sub.trans (by decide) hM) ?_ | with_reducible refine keeps_ite (fun _ => ?_) (fun _ => ?_)
    | with_reducible refine keeps_id ?_ | with_reducible refine keepsO_next ?_
    | with_reducible refine keepsO_ite (fun _ => ?_) (fun _ => ?_) | with_reducible split

theorem paramRead_keeps {M : Nat} {s : State} (hM : Sub 576 M) :
    ∀ {t : State} {a1 a2}, Keeps M s t → Keeps M s (State.paramRead t a1 a2) := by
  intro _ _ _ h0
  unfold State.paramRead
  repeat' first
    | with_reducible assumption | with_reducible refine rcClear_keeps (Sub.trans (by decide) hM) ?_
    | with_reducible refine updTime_keeps (Sub.trans (by decide) hM) ?_
    | with_reducible refine keeps_ite (fun _ => ?_) (fun _ => ?_)

theorem ringEnable_keeps {M : Nat} {s : State} (hM : Sub 2188028 M) :
    ∀ {t : State} {a1}, Keeps M s t → Keeps M s (State.ringEnable t a1) := by
  intro _ _ h0
  unfold State.ringEnable
  repeat' first
    | with_reducible assumption | with_reducible refine updRing_keeps (Sub.trans (by decide) hM) ?_
    | with_reducible refine updFaults_keeps (Sub.trans (by decide) hM) ?_ ?_
    | with_reducible refine timeRefresh_keeps (Sub.trans (by decide) hM) ?_
    | with_reducible refine freshAttempt_keeps (Sub.trans (by decide) hM) ?_
    | with_reducible refine keeps_ite (fun _ => ?_) (fun _ => ?_) | with_reducible refine keeps_id ?_
    | (intro hi; obtain ⟨a, b⟩ := hi.faults; refine ⟨?_, ?_⟩ <;> first | assumption | (simp [recSet]; done) | (simp only [recSet, List.length_map, List.length_append, List.length_take, List.length_cons, List.length_nil]; omega) | exact Nat.le_trans (List.length_filter_le _ _) a)

theorem directWrite_keeps {M : Nat} {s : State} (hM : Sub 8397048 M) :
    ∀ {t : State} {a1}, Keeps M s t → Keeps M s (State.directWrite t a1) := by
  intro _ _ h0
  unfold State.directWrite
  repeat' first
    | with_reducible assumption | with_reducible refine auxDirect_keeps (Sub.trans (by decide) hM) ?_
    | with_reducible refine keeps_ite (fun _ => ?_) (fun _ => ?_)

theorem ptpRole_keeps {M : Nat} {s : State} (hM : Sub 1024 M) :
    ∀ {t : State} {a1 a2 a3}, Keeps M s t → Keeps M s (State.ptpRole t a1 a2 a3) := by
  intro _ _ _ _ h0
  unfold State.ptpRole
  repeat' first
    | with_reducible assumption | with_reducible refine updSta_keeps (Sub.trans (by decide) hM) ?_
    | with_reducible refine keeps_ite (fun _ => ?_) (fun _ => ?_)

theorem paramHook_keeps {M : Nat} {s : State} (hM : Sub 96304892 M) :
    ∀ {t : State} {a1 a2 a3 a4}, Keeps M s t → Keeps M s (State.paramHook t a1 a2 a3 a4) := by
  intro _ _ _ _ _ h0
  unfold State.paramHook
  repeat' first
    | with_reducible assumption | with_reducible refine modLane_keeps (Sub.trans (by decide) hM) ?_
    | with_reducible refine coastRefresh_keeps (Sub.trans (by decide) hM) ?_
    | with_reducible refine updLinks_keeps (Sub.trans (by decide) hM) ?_
    | with_reducible refine coastLanes_keeps (Sub.trans (by decide) hM) ?_
    | with_reducible refine ppsSync_keeps (Sub.trans (by decide) hM) ?_
    | with_reducible refine updSta_keeps (Sub.trans (by decide) hM) ?_
    | with_reducible refine ptpRole_keeps (Sub.trans (by decide) hM) ?_
    | with_reducible refine spreadEnd_keeps (Sub.trans (by decide) hM) ?_
    | with_reducible refine updLe_keeps (Sub.trans (by decide) hM) ?_
    | with_reducible refine rideEn_keeps (Sub.trans (by decide) hM) ?_
    | with_reducible refine freshAttempt_keeps (Sub.trans (by decide) hM) ?_
    | with_reducible refine ringEnable_keeps (Sub.trans (by decide) hM) ?_
    | with_reducible refine bankPowerSet_keeps (Sub.trans (by decide) hM) ?_
    | with_reducible refine directWrite_keeps (Sub.trans (by decide) hM) ?_
    | with_reducible refine posInvalid_keeps (Sub.trans (by decide) hM) ?_
    | with_reducible refine modPch_keeps (Sub.trans (by decide) hM) ?_
    | with_reducible refine cmpCheck_keeps (Sub.trans (by decide) hM) ?_
    | with_reducible refine enAllLimits_keeps (Sub.trans (by decide) hM) ?_
    | with_reducible refine enOff_keeps (Sub.trans (by decide) hM) ?_
    | with_reducible refine enConfig_keeps (Sub.trans (by decide) hM) ?_
    | with_reducible refine tampLog_keeps (Sub.trans (by decide) hM) ?_
    | with_reducible refine updBat_keeps (Sub.trans (by decide) hM) ?_ | with_reducible refine keeps_ite (fun _ => ?_) (fun _ => ?_)
    | with_reducible refine keeps_id ?_ | with_reducible split

theorem setUndefined_keeps {M : Nat} {s : State} (hM : Sub 68 M) :
    ∀ {t : State} {a1 a2 a3}, Keeps M s t → Keeps M s (State.setUndefined t a1 a2 a3) := by
  intro _ _ _ _ h0
  unfold State.setUndefined
  repeat' first
    | with_reducible assumption | with_reducible refine updFreeCount_keeps (Sub.trans (by decide) hM) ?_
    | with_reducible refine updPar_keeps (Sub.trans (by decide) hM) ?_
    | with_reducible refine setParam_keeps (Sub.trans (by decide) hM) ?_

theorem storeRec_keeps {M : Nat} {s : State} (hM : Sub 1101892 M) :
    ∀ {t : State} {a1 a2 a3}, Keeps M s t → Keeps M s (State.storeRec t a1 a2 a3) := by
  intro _ _ _ _ h0
  unfold State.storeRec
  repeat' first
    | with_reducible assumption | with_reducible refine updRoll_keeps (Sub.trans (by decide) hM) ?_
    | with_reducible refine modLane_keeps (Sub.trans (by decide) hM) ?_
    | with_reducible refine loopLoad_keeps (Sub.trans (by decide) hM) ?_
    | with_reducible refine updBat_keeps (Sub.trans (by decide) hM) ?_
    | with_reducible refine setShadow_keeps (Sub.trans (by decide) hM) ?_
    | with_reducible refine setUndefined_keeps (Sub.trans (by decide) hM) ?_
    | with_reducible refine setParam_keeps (Sub.trans (by decide) hM) ?_
    | with_reducible refine keeps_ite (fun _ => ?_) (fun _ => ?_) | with_reducible refine keeps_id ?_ | with_reducible split

theorem applyRec_keeps {M : Nat} {s : State} (hM : Sub 96337660 M) :
    ∀ {t : State} {a1 a2 a3}, Keeps M s t → Keeps M s (State.applyRec t a1 a2 a3) := by
  intro _ _ _ _ h0
  unfold State.applyRec
  repeat' first
    | with_reducible assumption | with_reducible refine storeRec_keeps (Sub.trans (by decide) hM) ?_
    | with_reducible refine paramHook_keeps (Sub.trans (by decide) hM) ?_
    | with_reducible refine saveParam_keeps (Sub.trans (by decide) hM) ?_
    | with_reducible refine keeps_ite (fun _ => ?_) (fun _ => ?_)

theorem applyAll_keeps {M : Nat} {s : State} (hM : Sub 96337660 M) :
    ∀ {t : State} {a1}, Keeps M s t → Keeps M s (State.applyAll t a1) := by
  intro _ _ h0
  unfold State.applyAll
  repeat' first
    | with_reducible assumption | with_reducible refine applyRec_keeps (Sub.trans (by decide) hM) ?_
    | with_reducible refine keeps_foldl ?_ ?_ | with_reducible refine keeps_foldlP ?_ ?_
    | with_reducible refine keeps_ite (fun _ => ?_) (fun _ => ?_) | with_reducible refine keeps_id ?_ | with_reducible split
    | with_reducible intro _

theorem execHatchPing_keeps {M : Nat} {s : State} (hM : Sub 80 M) :
    ∀ {t : State} {a1}, Keeps M s t → KeepsO M s (execHatchPing a1 t) := by
  intro _ _ h0
  unfold execHatchPing
  repeat' first
    | with_reducible assumption | with_reducible refine withCmd_keeps (Sub.trans (by decide) hM) ?_ ?_
    | with_reducible refine replyOk_keeps (Sub.trans (by decide) hM) ?_
    | with_reducible refine keeps_ite (fun _ => ?_) (fun _ => ?_) | with_reducible refine keeps_id ?_
    | with_reducible refine keepsO_next ?_ | with_reducible refine keepsO_ite (fun _ => ?_) (fun _ => ?_) | with_reducible split
    | with_reducible intro _

theorem execParamGet_keeps {M : Nat} {s : State} (hM : Sub 592 M) :
    ∀ {t : State} {a1}, Keeps M s t → KeepsO M s (execParamGet a1 t) := by
  intro _ _ h0
  unfold execParamGet
  repeat' first
    | with_reducible assumption | with_reducible refine withCmd_keeps (Sub.trans (by decide) hM) ?_ ?_
    | with_reducible refine refuse_keeps (Sub.trans (by decide) hM) ?_
    | with_reducible refine replyOk_keeps (Sub.trans (by decide) hM) ?_
    | with_reducible refine paramRead_keeps (Sub.trans (by decide) hM) ?_
    | with_reducible refine keeps_ite (fun _ => ?_) (fun _ => ?_) | with_reducible refine keeps_id ?_
    | with_reducible refine keepsO_next ?_ | with_reducible refine keepsO_ite (fun _ => ?_) (fun _ => ?_) | with_reducible split
    | with_reducible intro _ | with_reducible dsimp only

theorem execParamInfo_keeps {M : Nat} {s : State} (hM : Sub 80 M) :
    ∀ {t : State} {a1}, Keeps M s t → KeepsO M s (execParamInfo a1 t) := by
  intro _ _ h0
  unfold execParamInfo
  repeat' first
    | with_reducible assumption | with_reducible refine withCmd_keeps (Sub.trans (by decide) hM) ?_ ?_
    | with_reducible refine refuse_keeps (Sub.trans (by decide) hM) ?_
    | with_reducible refine replyOk_keeps (Sub.trans (by decide) hM) ?_
    | with_reducible refine keeps_ite (fun _ => ?_) (fun _ => ?_) | with_reducible refine keeps_id ?_
    | with_reducible refine keepsO_next ?_ | with_reducible refine keepsO_ite (fun _ => ?_) (fun _ => ?_) | with_reducible split
    | with_reducible intro _ | with_reducible dsimp only

theorem hold_keeps {M : Nat} {s : State} (hM : Sub 16 M) :
    ∀ {t : State} {a1 a2}, Keeps M s t → Keeps M s (State.hold t a1 a2) := by
  intro _ _ _ h0
  unfold State.hold
  repeat' first
    | with_reducible assumption | with_reducible refine modBox_keeps (Sub.trans (by decide) hM) ?_

theorem finishRecords_keeps {M : Nat} {s : State} (hM : Sub 67664 M) :
    ∀ {t : State} {a1 a2 a3 a4}, Keeps M s t → Keeps M s (State.finishRecords t a1 a2 a3 a4) := by
  intro _ _ _ _ _ h0
  unfold State.finishRecords
  repeat' first
    | with_reducible assumption | with_reducible refine replyOk_keeps (Sub.trans (by decide) hM) ?_
    | with_reducible refine finishWrite_keeps (Sub.trans (by decide) hM) ?_
    | with_reducible refine keeps_ite (fun _ => ?_) (fun _ => ?_)

theorem recordsBarred_keeps {M : Nat} {s : State} (hM : Sub 80 M) :
    ∀ {t t2 : State} {a1 a2 a3}, Keeps M s t → Keeps M s t2 → Keeps M s (State.recordsBarred t a1 a2 a3 t2) := by
  intro _ _ _ _ _ h0 h1
  unfold State.recordsBarred
  repeat' first
    | with_reducible assumption | with_reducible refine busy_keeps (Sub.trans (by decide) hM) ?_
    | with_reducible refine reply_keeps (Sub.trans (by decide) hM) ?_ | with_reducible refine keeps_ite (fun _ => ?_) (fun _ => ?_)

theorem execParamSet_keeps {M : Nat} {s : State} (hM : Sub 268435452 M) :
    ∀ {t : State} {a1}, Keeps M s t → KeepsO M s (execParamSet a1 t) := by
  intro _ _ h0
  unfold execParamSet
  repeat' first
    | with_reducible assumption | with_reducible refine done_keeps (Sub.trans (by decide) hM) ?_
    | with_reducible refine withCmd_keeps (Sub.trans (by decide) hM) ?_ ?_
    | with_reducible refine reply_keeps (Sub.trans (by decide) hM) ?_
    | with_reducible refine recordsBarred_keeps (Sub.trans (by decide) hM) ?_ ?_
    | with_reducible refine replyOk_keeps (Sub.trans (by decide) hM) ?_
    | with_reducible refine hold_keeps (Sub.trans (by decide) hM) ?_
    | with_reducible refine finishRecords_keeps (Sub.trans (by decide) hM) ?_
    | with_reducible refine applyAll_keeps (Sub.trans (by decide) hM) ?_
    | with_reducible refine keeps_ite (fun _ => ?_) (fun _ => ?_) | with_reducible refine keeps_id ?_
    | with_reducible refine keepsO_next ?_ | with_reducible refine keepsO_ite (fun _ => ?_) (fun _ => ?_) | with_reducible split
    | with_reducible intro _

end Sys2Proof.Machine
end

