-- ==== Sys2Proof/Machine/Frame9.lean ====
section
/-!
DEFINITION. Frames, part 9: the functions from execParamCommit to execSafeDemandDue, in the order of their calls. Each lemma says
which parts its function may change (a mask over Part.bit) and that it keeps the bounds of State.Inv.
-/

namespace Sys2Proof.Machine

set_option linter.unreachableTactic false
set_option linter.unusedTactic false
set_option linter.unusedSimpArgs false

theorem execParamCommit_keeps {M : Nat} {s : State} (hM : Sub 268435452 M) :
    ∀ {t : State} {a1}, Keeps M s t → KeepsO M s (execParamCommit a1 t) := by
  intro _ _ h0
  unfold execParamCommit
  repeat' first
    | with_reducible assumption | with_reducible refine done_keeps (Sub.trans (by decide) hM) ?_
    | with_reducible refine withCmd_keeps (Sub.trans (by decide) hM) ?_ ?_
    | with_reducible refine tookFree_keeps (Sub.trans (by decide) hM) ?_
    | with_reducible refine recordsBarred_keeps (Sub.trans (by decide) hM) ?_ ?_
    | with_reducible refine reply_keeps (Sub.trans (by decide) hM) ?_
    | with_reducible refine finishRecords_keeps (Sub.trans (by decide) hM) ?_
    | with_reducible refine applyAll_keeps (Sub.trans (by decide) hM) ?_
    | with_reducible refine modBox_keeps (Sub.trans (by decide) hM) ?_ | with_reducible refine keeps_ite (fun _ => ?_) (fun _ => ?_)
    | with_reducible refine keeps_id ?_ | with_reducible refine keepsO_next ?_
    | with_reducible refine keepsO_ite (fun _ => ?_) (fun _ => ?_) | with_reducible split | with_reducible intro _

theorem execParamDiscard_keeps {M : Nat} {s : State} (hM : Sub 80 M) :
    ∀ {t : State} {a1}, Keeps M s t → KeepsO M s (execParamDiscard a1 t) := by
  intro _ _ h0
  unfold execParamDiscard
  repeat' first
    | with_reducible assumption | with_reducible refine withCmd_keeps (Sub.trans (by decide) hM) ?_ ?_
    | with_reducible refine replyOk_keeps (Sub.trans (by decide) hM) ?_
    | with_reducible refine modBox_keeps (Sub.trans (by decide) hM) ?_ | with_reducible refine keeps_ite (fun _ => ?_) (fun _ => ?_)
    | with_reducible refine keeps_id ?_ | with_reducible refine keepsO_next ?_
    | with_reducible refine keepsO_ite (fun _ => ?_) (fun _ => ?_) | with_reducible split | with_reducible intro _

theorem loadRoll_keeps {M : Nat} {s : State} (hM : Sub 32768 M) :
    ∀ {t : State} {a1 a2 a3}, Keeps M s t → Keeps M s (State.loadRoll t a1 a2 a3) := by
  intro _ _ _ _ h0
  unfold State.loadRoll
  repeat' first
    | with_reducible assumption | with_reducible refine updRoll_keeps (Sub.trans (by decide) hM) ?_
    | with_reducible refine keeps_foldl ?_ ?_ | with_reducible refine keeps_foldlP ?_ ?_
    | with_reducible refine keeps_ite (fun _ => ?_) (fun _ => ?_) | with_reducible refine keeps_id ?_ | with_reducible split
    | with_reducible intro _

theorem execRollLoad_keeps {M : Nat} {s : State} (hM : Sub 268435452 M) :
    ∀ {t : State} {a1}, Keeps M s t → KeepsO M s (execRollLoad a1 t) := by
  intro _ _ h0
  unfold execRollLoad
  repeat' first
    | with_reducible assumption | with_reducible refine done_keeps (Sub.trans (by decide) hM) ?_
    | with_reducible refine withWrite_keeps (Sub.trans (by decide) hM) ?_ ?_
    | with_reducible refine refuse_keeps (Sub.trans (by decide) hM) ?_
    | with_reducible refine finishWrite_keeps (Sub.trans (by decide) hM) ?_
    | with_reducible refine loadRoll_keeps (Sub.trans (by decide) hM) ?_
    | with_reducible refine mpTook_keeps (Sub.trans (by decide) hM) ?_ | with_reducible refine keeps_ite (fun _ => ?_) (fun _ => ?_)
    | with_reducible refine keeps_id ?_ | with_reducible refine keepsO_next ?_
    | with_reducible refine keepsO_ite (fun _ => ?_) (fun _ => ?_) | with_reducible split | with_reducible intro _

theorem rollRun_keeps {M : Nat} {s : State} (hM : Sub 1042684 M) :
    ∀ {t : State} {a1 a2 a3 a4}, Keeps M s t → Keeps M s (State.rollRun t a1 a2 a3 a4) := by
  intro _ _ _ _ _ h0
  unfold State.rollRun
  repeat' first
    | with_reducible assumption | with_reducible refine busy_keeps (Sub.trans (by decide) hM) ?_
    | with_reducible refine reply_keeps (Sub.trans (by decide) hM) ?_
    | with_reducible refine tookFree_keeps (Sub.trans (by decide) hM) ?_
    | with_reducible refine commitRoll_keeps (Sub.trans (by decide) hM) ?_
    | with_reducible refine finishWrite_keeps (Sub.trans (by decide) hM) ?_
    | with_reducible refine keeps_ite (fun _ => ?_) (fun _ => ?_) | with_reducible refine keeps_id ?_ | with_reducible split

theorem execRollCommit_keeps {M : Nat} {s : State} (hM : Sub 268435452 M) :
    ∀ {t : State} {a1}, Keeps M s t → KeepsO M s (execRollCommit a1 t) := by
  intro _ _ h0
  unfold execRollCommit
  repeat' first
    | with_reducible assumption | with_reducible refine done_keeps (Sub.trans (by decide) hM) ?_
    | with_reducible refine withWrite_keeps (Sub.trans (by decide) hM) ?_ ?_
    | with_reducible refine rollRun_keeps (Sub.trans (by decide) hM) ?_
    | with_reducible refine keeps_ite (fun _ => ?_) (fun _ => ?_) | with_reducible refine keeps_id ?_
    | with_reducible refine keepsO_next ?_ | with_reducible refine keepsO_ite (fun _ => ?_) (fun _ => ?_) | with_reducible split
    | with_reducible intro _

theorem execRollRead_keeps {M : Nat} {s : State} (hM : Sub 80 M) :
    ∀ {t : State} {a1}, Keeps M s t → KeepsO M s (execRollRead a1 t) := by
  intro _ _ h0
  unfold execRollRead
  repeat' first
    | with_reducible assumption | with_reducible refine withCmd_keeps (Sub.trans (by decide) hM) ?_ ?_
    | with_reducible refine refuse_keeps (Sub.trans (by decide) hM) ?_
    | with_reducible refine replyOk_keeps (Sub.trans (by decide) hM) ?_
    | with_reducible refine keeps_ite (fun _ => ?_) (fun _ => ?_) | with_reducible refine keeps_id ?_
    | with_reducible refine keepsO_next ?_ | with_reducible refine keepsO_ite (fun _ => ?_) (fun _ => ?_) | with_reducible split
    | with_reducible intro _

theorem pkgTables_keeps {M : Nat} {s : State} (hM : Sub 1081408 M) :
    ∀ {t : State} {a1 a2}, Keeps M s t → Keeps M s (State.pkgTables t a1 a2) := by
  intro _ _ _ h0
  unfold State.pkgTables
  repeat' first
    | with_reducible assumption | with_reducible refine loadRoll_keeps (Sub.trans (by decide) hM) ?_
    | with_reducible refine loopLoad_keeps (Sub.trans (by decide) hM) ?_
    | with_reducible refine larderPut_keeps (Sub.trans (by decide) hM) ?_ | with_reducible refine keeps_foldl ?_ ?_
    | with_reducible refine keeps_foldlP ?_ ?_ | with_reducible refine keeps_ite (fun _ => ?_) (fun _ => ?_)
    | with_reducible refine keeps_id ?_ | with_reducible split | with_reducible intro _

theorem pkgFailure_applyTables_keeps {M : Nat} {s : State} (hM : Sub 1048576 M) :
    ∀ {t : State} {a1}, Keeps M s t → Keeps M s (State.pkgFailure.applyTables t a1) := by
  intro _ _ h0
  unfold State.pkgFailure.applyTables
  repeat' first
    | with_reducible assumption | with_reducible refine loopLoad_keeps (Sub.trans (by decide) hM) ?_
    | with_reducible refine keeps_foldl ?_ ?_ | with_reducible refine keeps_foldlP ?_ ?_
    | with_reducible refine keeps_ite (fun _ => ?_) (fun _ => ?_) | with_reducible refine keeps_id ?_ | with_reducible split
    | with_reducible intro _

theorem pkgWrite_keeps {M : Nat} {s : State} (hM : Sub 96468732 M) :
    ∀ {t : State} {a1 a2}, Keeps M s t → Keeps M s (State.pkgWrite t a1 a2) := by
  intro _ _ _ h0
  unfold State.pkgWrite
  repeat' first
    | with_reducible assumption | with_reducible refine pkgTables_keeps (Sub.trans (by decide) hM) ?_
    | with_reducible refine applyAll_keeps (Sub.trans (by decide) hM) ?_
    | with_reducible refine commitRoll_keeps (Sub.trans (by decide) hM) ?_
    | with_reducible refine loopCommit_keeps (Sub.trans (by decide) hM) ?_
    | with_reducible refine keeps_ite (fun _ => ?_) (fun _ => ?_)

theorem pkgLog_keeps {M : Nat} {s : State} (hM : Sub 128 M) :
    ∀ {t : State} {a1 a2 a3}, Keeps M s t → Keeps M s (State.pkgLog t a1 a2 a3) := by
  intro _ _ _ _ h0
  unfold State.pkgLog
  repeat' first
    | with_reducible assumption | with_reducible refine attic_keeps (Sub.trans (by decide) hM) ?_

theorem pkgRefuse_keeps {M : Nat} {s : State} (hM : Sub 208 M) :
    ∀ {t : State} {a1 a2 a3 a4 a5}, Keeps M s t → Keeps M s (State.pkgRefuse t a1 a2 a3 a4 a5) := by
  intro _ _ _ _ _ _ h0
  unfold State.pkgRefuse
  repeat' first
    | with_reducible assumption | with_reducible refine reply_keeps (Sub.trans (by decide) hM) ?_
    | with_reducible refine pkgLog_keeps (Sub.trans (by decide) hM) ?_

theorem installKeys_keeps {M : Nat} {s : State} (hM : Sub 134226048 M) :
    ∀ {t : State} {a1}, Keeps M s t → Keeps M s (State.installKeys t a1) := by
  intro _ _ h0
  unfold State.installKeys
  repeat' first
    | with_reducible assumption | with_reducible refine pkgLog_keeps (Sub.trans (by decide) hM) ?_
    | with_reducible refine updPantry_keeps (Sub.trans (by decide) hM) ?_ ?_
    | with_reducible refine updFw_keeps (Sub.trans (by decide) hM) ?_ | with_reducible refine keeps_ite (fun _ => ?_) (fun _ => ?_)
    | with_reducible refine keeps_id ?_ | (intro hi; exact hi.mem)

theorem keysApply_keeps {M : Nat} {s : State} (hM : Sub 134226128 M) :
    ∀ {t : State} {a1 a2}, Keeps M s t → Keeps M s (State.keysApply t a1 a2) := by
  intro _ _ _ h0
  unfold State.keysApply
  repeat' first
    | with_reducible assumption | with_reducible refine pkgRefuse_keeps (Sub.trans (by decide) hM) ?_
    | with_reducible refine installKeys_keeps (Sub.trans (by decide) hM) ?_
    | with_reducible refine replyOk_keeps (Sub.trans (by decide) hM) ?_
    | with_reducible refine keeps_ite (fun _ => ?_) (fun _ => ?_) | with_reducible refine keeps_id ?_ | with_reducible split
    | with_reducible intro _ | with_reducible dsimp only

theorem packageApply_keeps {M : Nat} {s : State} (hM : Sub 230686460 M) :
    ∀ {t : State} {a1 a2 a3 a4}, Keeps M s t → Keeps M s (State.packageApply t a1 a2 a3 a4) := by
  intro _ _ _ _ _ h0
  unfold State.packageApply
  repeat' first
    | with_reducible assumption | with_reducible refine pkgRefuse_keeps (Sub.trans (by decide) hM) ?_
    | with_reducible refine pkgLog_keeps (Sub.trans (by decide) hM) ?_
    | with_reducible refine updFw_keeps (Sub.trans (by decide) hM) ?_
    | with_reducible refine pkgWrite_keeps (Sub.trans (by decide) hM) ?_
    | with_reducible refine finishWrite_keeps (Sub.trans (by decide) hM) ?_
    | with_reducible refine keeps_ite (fun _ => ?_) (fun _ => ?_) | with_reducible refine keeps_id ?_ | with_reducible split

theorem pkgApply_keeps {M : Nat} {s : State} (hM : Sub 230686460 M) :
    ∀ {t : State} {a1 a2 a3 a4}, Keeps M s t → Keeps M s (State.pkgApply t a1 a2 a3 a4) := by
  intro _ _ _ _ _ h0
  unfold State.pkgApply
  repeat' first
    | with_reducible assumption | with_reducible refine busy_keeps (Sub.trans (by decide) hM) ?_
    | with_reducible refine reply_keeps (Sub.trans (by decide) hM) ?_
    | with_reducible refine pkgRefuse_keeps (Sub.trans (by decide) hM) ?_
    | with_reducible refine packageApply_keeps (Sub.trans (by decide) hM) ?_
    | with_reducible refine keysApply_keeps (Sub.trans (by decide) hM) ?_
    | with_reducible refine finishWrite_keeps (Sub.trans (by decide) hM) ?_
    | with_reducible refine keeps_ite (fun _ => ?_) (fun _ => ?_) | with_reducible refine keeps_id ?_ | with_reducible split

theorem execPkgApply_keeps {M : Nat} {s : State} (hM : Sub 268435452 M) :
    ∀ {t : State} {a1}, Keeps M s t → KeepsO M s (execPkgApply a1 t) := by
  intro _ _ h0
  unfold execPkgApply
  repeat' first
    | with_reducible assumption | with_reducible refine done_keeps (Sub.trans (by decide) hM) ?_
    | with_reducible refine withCmd_keeps (Sub.trans (by decide) hM) ?_ ?_
    | with_reducible refine reply_keeps (Sub.trans (by decide) hM) ?_
    | with_reducible refine pkgApply_keeps (Sub.trans (by decide) hM) ?_
    | with_reducible refine mpTook_keeps (Sub.trans (by decide) hM) ?_ | with_reducible refine keeps_ite (fun _ => ?_) (fun _ => ?_)
    | with_reducible refine keeps_id ?_ | with_reducible refine keepsO_next ?_
    | with_reducible refine keepsO_ite (fun _ => ?_) (fun _ => ?_) | with_reducible split | with_reducible intro _

theorem hostPantryRead_keeps {M : Nat} {s : State} (hM : Sub 2171132 M) :
    ∀ {t : State} {a1 a2 a3}, Keeps M s t → Keeps M s (State.hostPantryRead t a1 a2 a3) := by
  intro _ _ _ _ h0
  unfold State.hostPantryRead
  repeat' first
    | with_reducible assumption | with_reducible refine hostReads_keeps (Sub.trans (by decide) hM) ?_
    | with_reducible refine sbDenied_keeps (Sub.trans (by decide) hM) ?_
    | with_reducible refine wordRead_keeps (Sub.trans (by decide) hM) ?_
    | with_reducible refine keeps_ite (fun _ => ?_) (fun _ => ?_) | with_reducible refine keeps_id ?_ | with_reducible split

theorem execPantryHostRead_keeps {M : Nat} {s : State} (hM : Sub 268435452 M) :
    ∀ {t : State} {a1 a2 a3 a4}, Keeps M s t → KeepsO M s (execPantryHostRead a1 a2 a3 t a4) := by
  intro _ _ _ _ _ h0
  unfold execPantryHostRead
  repeat' first
    | with_reducible assumption | with_reducible refine done_keeps (Sub.trans (by decide) hM) ?_
    | with_reducible refine hostPantryRead_keeps (Sub.trans (by decide) hM) ?_
    | with_reducible refine newTransaction_keeps (Sub.trans (by decide) hM) ?_
    | with_reducible refine hostReads_keeps (Sub.trans (by decide) hM) ?_
    | with_reducible refine keeps_ite (fun _ => ?_) (fun _ => ?_) | with_reducible refine keeps_id ?_
    | with_reducible refine keepsO_next ?_ | with_reducible refine keepsO_ite (fun _ => ?_) (fun _ => ?_) | with_reducible split

theorem hostPantryWrite_keeps {M : Nat} {s : State} (hM : Sub 2171132 M) :
    ∀ {t : State} {a1 a2 a3 a4 a5}, Keeps M s t → Keeps M s (State.hostPantryWrite t a1 a2 a3 a4 a5) := by
  intro _ _ _ _ _ _ h0
  unfold State.hostPantryWrite
  repeat' first
    | with_reducible assumption | with_reducible refine sbDenied_keeps (Sub.trans (by decide) hM) ?_
    | with_reducible refine mgmtMet_keeps (Sub.trans (by decide) hM) ?_
    | with_reducible refine wordWrites_keeps (Sub.trans (by decide) hM) ?_
    | with_reducible refine tookFree_keeps (Sub.trans (by decide) hM) ?_
    | with_reducible refine keeps_ite (fun _ => ?_) (fun _ => ?_) | with_reducible refine keeps_id ?_ | with_reducible split
    | with_reducible intro _ | with_reducible dsimp only

theorem execPantryHostWrite_keeps {M : Nat} {s : State} (hM : Sub 268435452 M) :
    ∀ {t : State} {a1 a2 a3 a4 a5 a6}, Keeps M s t → KeepsO M s (execPantryHostWrite a1 a2 a3 a4 a5 t a6) := by
  intro _ _ _ _ _ _ _ h0
  unfold execPantryHostWrite
  repeat' first
    | with_reducible assumption | with_reducible refine done_keeps (Sub.trans (by decide) hM) ?_
    | with_reducible refine hostPantryWrite_keeps (Sub.trans (by decide) hM) ?_
    | with_reducible refine newTransaction_keeps (Sub.trans (by decide) hM) ?_
    | with_reducible refine hostWrote_keeps (Sub.trans (by decide) hM) ?_
    | with_reducible refine keeps_ite (fun _ => ?_) (fun _ => ?_) | with_reducible refine keeps_id ?_
    | with_reducible refine keepsO_next ?_ | with_reducible refine keepsO_ite (fun _ => ?_) (fun _ => ?_) | with_reducible split

theorem execBankIdleTimeout_keeps {M : Nat} {s : State} (hM : Sub 8192 M) :
    ∀ {t : State} {a1}, Keeps M s t → KeepsO M s (execBankIdleTimeout a1 t) := by
  intro _ _ h0
  unfold execBankIdleTimeout
  repeat' first
    | with_reducible assumption | with_reducible refine updPantry_keeps (Sub.trans (by decide) hM) ?_ ?_
    | with_reducible refine keeps_ite (fun _ => ?_) (fun _ => ?_) | with_reducible refine keeps_id ?_
    | with_reducible refine keepsO_next ?_ | with_reducible refine keepsO_ite (fun _ => ?_) (fun _ => ?_) | (intro hi; exact hi.mem)
    | with_reducible split

theorem execBankClearDone_keeps {M : Nat} {s : State} (hM : Sub 8192 M) :
    ∀ {t : State} {a1}, Keeps M s t → KeepsO M s (execBankClearDone a1 t) := by
  intro _ _ h0
  unfold execBankClearDone
  repeat' first
    | with_reducible assumption | with_reducible refine updPantry_keeps (Sub.trans (by decide) hM) ?_ ?_
    | with_reducible refine keeps_ite (fun _ => ?_) (fun _ => ?_) | with_reducible refine keeps_id ?_
    | with_reducible refine keepsO_next ?_ | with_reducible refine keepsO_ite (fun _ => ?_) (fun _ => ?_) | (intro hi; exact hi.mem)
    | with_reducible split

theorem execTamperCoreEvent_keeps {M : Nat} {s : State} (hM : Sub 12288 M) :
    ∀ {t : State}, Keeps M s t → KeepsO M s (execTamperCoreEvent t) := by
  intro _ h0
  unfold execTamperCoreEvent
  repeat' first
    | with_reducible assumption | with_reducible refine updBat_keeps (Sub.trans (by decide) hM) ?_
    | with_reducible refine wipe_keeps (Sub.trans (by decide) hM) ?_ | with_reducible refine keeps_ite (fun _ => ?_) (fun _ => ?_)
    | with_reducible refine keeps_id ?_ | with_reducible refine keepsO_next ?_

theorem execStrongboxWipeDone_keeps {M : Nat} {s : State} (hM : Sub 268435452 M) :
    ∀ {t : State}, Keeps M s t → KeepsO M s (execStrongboxWipeDone t) := by
  intro _ h0
  unfold execStrongboxWipeDone
  repeat' first
    | with_reducible assumption | with_reducible refine done_keeps (Sub.trans (by decide) hM) ?_
    | with_reducible refine note_keeps (Sub.trans (by decide) hM) ?_
    | with_reducible refine updPantry_keeps (Sub.trans (by decide) hM) ?_ ?_
    | with_reducible refine keeps_ite (fun _ => ?_) (fun _ => ?_) | with_reducible refine keeps_id ?_
    | with_reducible refine keepsO_next ?_ | with_reducible refine keepsO_ite (fun _ => ?_) (fun _ => ?_) | (intro hi; exact hi.mem)
    | with_reducible split

theorem execPosEdge_keeps {M : Nat} {s : State} (hM : Sub 268435452 M) :
    ∀ {t : State} {a1 a2 a3}, Keeps M s t → KeepsO M s (execPosEdge a1 a2 a3 t) := by
  intro _ _ _ _ h0
  unfold execPosEdge
  repeat' first
    | with_reducible assumption | with_reducible refine done_keeps (Sub.trans (by decide) hM) ?_
    | with_reducible refine posQuad_keeps (Sub.trans (by decide) hM) ?_
    | with_reducible refine modPch_keeps (Sub.trans (by decide) hM) ?_
    | with_reducible refine posTooth_keeps (Sub.trans (by decide) hM) ?_
    | with_reducible refine keeps_ite (fun _ => ?_) (fun _ => ?_) | with_reducible refine keeps_id ?_
    | with_reducible refine keepsO_next ?_ | with_reducible refine keepsO_ite (fun _ => ?_) (fun _ => ?_)

theorem execPosIndex_keeps {M : Nat} {s : State} (hM : Sub 268435452 M) :
    ∀ {t : State} {a1}, Keeps M s t → KeepsO M s (execPosIndex a1 t) := by
  intro _ _ h0
  unfold execPosIndex
  repeat' first
    | with_reducible assumption | with_reducible refine modPch_keeps (Sub.trans (by decide) hM) ?_
    | with_reducible refine done_keeps (Sub.trans (by decide) hM) ?_
    | with_reducible refine posRef_keeps (Sub.trans (by decide) hM) ?_
    | with_reducible refine bump_keeps (Sub.trans (by decide) hM) ?_ | with_reducible refine keeps_ite (fun _ => ?_) (fun _ => ?_)
    | with_reducible refine keeps_id ?_ | with_reducible refine keepsO_next ?_
    | with_reducible refine keepsO_ite (fun _ => ?_) (fun _ => ?_)

theorem execPosPinEdge_keeps {M : Nat} {s : State} (hM : Sub 16777216 M) :
    ∀ {t : State} {a1 a2 a3 a4}, Keeps M s t → KeepsO M s (execPosPinEdge a1 a2 a3 a4 t) := by
  intro _ _ _ _ _ h0
  unfold execPosPinEdge
  repeat' first
    | with_reducible assumption | with_reducible refine modPch_keeps (Sub.trans (by decide) hM) ?_
    | with_reducible refine keeps_ite (fun _ => ?_) (fun _ => ?_) | with_reducible refine keeps_id ?_
    | with_reducible refine keepsO_next ?_

theorem execPosWireFilterExpire_keeps {M : Nat} {s : State} (hM : Sub 268435452 M) :
    ∀ {t : State} {a1 a2}, Keeps M s t → KeepsO M s (execPosWireFilterExpire a1 a2 t) := by
  intro _ _ _ h0
  unfold execPosWireFilterExpire
  repeat' first
    | with_reducible assumption | with_reducible refine modPch_keeps (Sub.trans (by decide) hM) ?_
    | with_reducible refine done_keeps (Sub.trans (by decide) hM) ?_
    | with_reducible refine condOn_keeps (Sub.trans (by decide) hM) ?_
    | with_reducible refine posInvalid_keeps (Sub.trans (by decide) hM) ?_
    | with_reducible refine bump_keeps (Sub.trans (by decide) hM) ?_
    | with_reducible refine condOff_keeps (Sub.trans (by decide) hM) ?_
    | with_reducible refine keeps_ite (fun _ => ?_) (fun _ => ?_) | with_reducible refine keeps_id ?_
    | with_reducible refine keepsO_next ?_ | with_reducible refine keepsO_ite (fun _ => ?_) (fun _ => ?_)

theorem execPosSpeedWindow_keeps {M : Nat} {s : State} (hM : Sub 16777216 M) :
    ∀ {t : State} {a1}, Keeps M s t → KeepsO M s (execPosSpeedWindow a1 t) := by
  intro _ _ h0
  unfold execPosSpeedWindow
  repeat' first
    | with_reducible assumption | with_reducible refine posWindow_keeps (Sub.trans (by decide) hM) ?_
    | with_reducible refine keeps_ite (fun _ => ?_) (fun _ => ?_) | with_reducible refine keeps_id ?_
    | with_reducible refine keepsO_next ?_ | with_reducible refine keepsO_ite (fun _ => ?_) (fun _ => ?_)

theorem execPosZeroTimeout_keeps {M : Nat} {s : State} (hM : Sub 16777216 M) :
    ∀ {t : State} {a1}, Keeps M s t → KeepsO M s (execPosZeroTimeout a1 t) := by
  intro _ _ h0
  unfold execPosZeroTimeout
  repeat' first
    | with_reducible assumption | with_reducible refine modPch_keeps (Sub.trans (by decide) hM) ?_
    | with_reducible refine keeps_ite (fun _ => ?_) (fun _ => ?_) | with_reducible refine keeps_id ?_
    | with_reducible refine keepsO_next ?_ | with_reducible refine keepsO_ite (fun _ => ?_) (fun _ => ?_)

theorem execPosCmpPulseEnd_keeps {M : Nat} {s : State} (hM : Sub 16777216 M) :
    ∀ {t : State} {a1}, Keeps M s t → KeepsO M s (execPosCmpPulseEnd a1 t) := by
  intro _ _ h0
  unfold execPosCmpPulseEnd
  repeat' first
    | with_reducible assumption | with_reducible refine updPos_keeps (Sub.trans (by decide) hM) ?_
    | with_reducible refine keeps_ite (fun _ => ?_) (fun _ => ?_) | with_reducible refine keeps_id ?_
    | with_reducible refine keepsO_next ?_ | with_reducible refine keepsO_ite (fun _ => ?_) (fun _ => ?_) | with_reducible split

theorem execPosSet_keeps {M : Nat} {s : State} (hM : Sub 268435452 M) :
    ∀ {t : State} {a1}, Keeps M s t → KeepsO M s (execPosSet a1 t) := by
  intro _ _ h0
  unfold execPosSet
  repeat' first
    | with_reducible assumption | with_reducible refine done_keeps (Sub.trans (by decide) hM) ?_
    | with_reducible refine withWrite_keeps (Sub.trans (by decide) hM) ?_ ?_
    | with_reducible refine refuse_keeps (Sub.trans (by decide) hM) ?_
    | with_reducible refine finishWrite_keeps (Sub.trans (by decide) hM) ?_
    | with_reducible refine modPch_keeps (Sub.trans (by decide) hM) ?_
    | with_reducible refine posJump_keeps (Sub.trans (by decide) hM) ?_
    | with_reducible refine keeps_ite (fun _ => ?_) (fun _ => ?_) | with_reducible refine keeps_id ?_
    | with_reducible refine keepsO_next ?_ | with_reducible refine keepsO_ite (fun _ => ?_) (fun _ => ?_) | with_reducible split
    | with_reducible intro _

theorem execProtSourceStale_keeps {M : Nat} {s : State} (hM : Sub 268435452 M) :
    ∀ {t : State} {a1}, Keeps M s t → KeepsO M s (execProtSourceStale a1 t) := by
  intro _ _ h0
  unfold execProtSourceStale
  repeat' first
    | with_reducible assumption | with_reducible refine done_keeps (Sub.trans (by decide) hM) ?_
    | with_reducible refine trip_keeps (Sub.trans (by decide) hM) ?_ | with_reducible refine keeps_ite (fun _ => ?_) (fun _ => ?_)
    | with_reducible refine keeps_id ?_ | with_reducible refine keepsO_next ?_
    | with_reducible refine keepsO_ite (fun _ => ?_) (fun _ => ?_)

theorem execUvArmExpire_keeps {M : Nat} {s : State} (hM : Sub 262144 M) :
    ∀ {t : State} {a1}, Keeps M s t → KeepsO M s (execUvArmExpire a1 t) := by
  intro _ _ h0
  unfold execUvArmExpire
  repeat' first
    | with_reducible assumption | with_reducible refine modPrt_keeps (Sub.trans (by decide) hM) ?_
    | with_reducible refine keeps_ite (fun _ => ?_) (fun _ => ?_) | with_reducible refine keeps_id ?_
    | with_reducible refine keepsO_next ?_ | with_reducible refine keepsO_ite (fun _ => ?_) (fun _ => ?_)

theorem refuse4_keeps {M : Nat} {s : State} (hM : Sub 84 M) :
    ∀ {t : State} {a1 a2}, Keeps M s t → Keeps M s (State.refuse4 t a1 a2) := by
  intro _ _ _ h0
  unfold State.refuse4
  repeat' first
    | with_reducible assumption | with_reducible refine reply_keeps (Sub.trans (by decide) hM) ?_
    | with_reducible refine tookFree_keeps (Sub.trans (by decide) hM) ?_

theorem execStringTrip_keeps {M : Nat} {s : State} (hM : Sub 268435452 M) :
    ∀ {t : State} {a1}, Keeps M s t → KeepsO M s (execStringTrip a1 t) := by
  intro _ _ h0
  unfold execStringTrip
  repeat' first
    | with_reducible assumption | with_reducible refine done_keeps (Sub.trans (by decide) hM) ?_
    | with_reducible refine withWrite_keeps (Sub.trans (by decide) hM) ?_ ?_
    | with_reducible refine refuse4_keeps (Sub.trans (by decide) hM) ?_
    | with_reducible refine finishWrite_keeps (Sub.trans (by decide) hM) ?_
    | with_reducible refine trip_keeps (Sub.trans (by decide) hM) ?_ | with_reducible refine keeps_ite (fun _ => ?_) (fun _ => ?_)
    | with_reducible refine keeps_id ?_ | with_reducible refine keepsO_next ?_
    | with_reducible refine keepsO_ite (fun _ => ?_) (fun _ => ?_) | with_reducible split | with_reducible intro _

theorem bypassReply_keeps {M : Nat} {s : State} (hM : Sub 67664 M) :
    ∀ {t : State} {a1 a2 a3}, Keeps M s t → Keeps M s (State.bypassReply t a1 a2 a3) := by
  intro _ _ _ _ h0
  unfold State.bypassReply
  repeat' first
    | with_reducible assumption | with_reducible refine finishWrite_keeps (Sub.trans (by decide) hM) ?_
    | with_reducible refine waitFor_keeps (Sub.trans (by decide) hM) ?_
    | with_reducible refine forwardRequest_keeps (Sub.trans (by decide) hM) ?_
    | with_reducible refine keeps_ite (fun _ => ?_) (fun _ => ?_) | with_reducible refine keeps_id ?_ | with_reducible split

theorem execCellBypass_keeps {M : Nat} {s : State} (hM : Sub 268435452 M) :
    ∀ {t : State} {a1}, Keeps M s t → KeepsO M s (execCellBypass a1 t) := by
  intro _ _ h0
  unfold execCellBypass
  repeat' first
    | with_reducible assumption | with_reducible refine done_keeps (Sub.trans (by decide) hM) ?_
    | with_reducible refine withWrite_keeps (Sub.trans (by decide) hM) ?_ ?_
    | with_reducible refine refuse4_keeps (Sub.trans (by decide) hM) ?_
    | with_reducible refine record_keeps (Sub.trans (by decide) hM) ?_
    | with_reducible refine bypassReply_keeps (Sub.trans (by decide) hM) ?_
    | with_reducible refine enterNow_keeps (Sub.trans (by decide) hM) ?_
    | with_reducible refine urgentBypass_keeps (Sub.trans (by decide) hM) ?_
    | with_reducible refine plannedBypass_keeps (Sub.trans (by decide) hM) ?_
    | with_reducible refine keeps_ite (fun _ => ?_) (fun _ => ?_) | with_reducible refine keeps_id ?_
    | with_reducible refine keepsO_next ?_ | with_reducible refine keepsO_ite (fun _ => ?_) (fun _ => ?_) | with_reducible split
    | with_reducible intro _

theorem execCellRelease_keeps {M : Nat} {s : State} (hM : Sub 268435452 M) :
    ∀ {t : State} {a1}, Keeps M s t → KeepsO M s (execCellRelease a1 t) := by
  intro _ _ h0
  unfold execCellRelease
  repeat' first
    | with_reducible assumption | with_reducible refine done_keeps (Sub.trans (by decide) hM) ?_
    | with_reducible refine withWrite_keeps (Sub.trans (by decide) hM) ?_ ?_
    | with_reducible refine refuse4_keeps (Sub.trans (by decide) hM) ?_
    | with_reducible refine modByp_keeps (Sub.trans (by decide) hM) ?_
    | with_reducible refine waitFor_keeps (Sub.trans (by decide) hM) ?_
    | with_reducible refine forwardRequest_keeps (Sub.trans (by decide) hM) ?_
    | with_reducible refine finishWrite_keeps (Sub.trans (by decide) hM) ?_
    | with_reducible refine bump_keeps (Sub.trans (by decide) hM) ?_ | with_reducible refine keeps_ite (fun _ => ?_) (fun _ => ?_)
    | with_reducible refine keeps_id ?_ | with_reducible refine keepsO_next ?_
    | with_reducible refine keepsO_ite (fun _ => ?_) (fun _ => ?_) | with_reducible split | with_reducible intro _

theorem execTripClear_keeps {M : Nat} {s : State} (hM : Sub 268435452 M) :
    ∀ {t : State} {a1}, Keeps M s t → KeepsO M s (execTripClear a1 t) := by
  intro _ _ h0
  unfold execTripClear
  repeat' first
    | with_reducible assumption | with_reducible refine done_keeps (Sub.trans (by decide) hM) ?_
    | with_reducible refine withWrite_keeps (Sub.trans (by decide) hM) ?_ ?_
    | with_reducible refine reply_keeps (Sub.trans (by decide) hM) ?_
    | with_reducible refine finishWrite_keeps (Sub.trans (by decide) hM) ?_
    | with_reducible refine becomeStopped_keeps (Sub.trans (by decide) hM) ?_
    | with_reducible refine modPrt_keeps (Sub.trans (by decide) hM) ?_ | with_reducible refine keeps_ite (fun _ => ?_) (fun _ => ?_)
    | with_reducible refine keeps_id ?_ | with_reducible refine keepsO_next ?_
    | with_reducible refine keepsO_ite (fun _ => ?_) (fun _ => ?_) | with_reducible split | with_reducible intro _

theorem execRideCmd_keeps {M : Nat} {s : State} (hM : Sub 268435452 M) :
    ∀ {t : State} {a1}, Keeps M s t → KeepsO M s (execRideCmd a1 t) := by
  intro _ _ h0
  unfold execRideCmd
  repeat' first
    | with_reducible assumption | with_reducible refine done_keeps (Sub.trans (by decide) hM) ?_
    | with_reducible refine withWrite_keeps (Sub.trans (by decide) hM) ?_ ?_
    | with_reducible refine finishWrite_keeps (Sub.trans (by decide) hM) ?_
    | with_reducible refine reply_keeps (Sub.trans (by decide) hM) ?_
    | with_reducible refine ridePrecharge_keeps (Sub.trans (by decide) hM) ?_
    | with_reducible refine attic_keeps (Sub.trans (by decide) hM) ?_
    | with_reducible refine rideGo_keeps (Sub.trans (by decide) hM) ?_
    | with_reducible refine rideTo_keeps (Sub.trans (by decide) hM) ?_ | with_reducible refine keeps_ite (fun _ => ?_) (fun _ => ?_)
    | with_reducible refine keeps_id ?_ | with_reducible refine keepsO_next ?_
    | with_reducible refine keepsO_ite (fun _ => ?_) (fun _ => ?_) | with_reducible split | with_reducible intro _

theorem execMvReturnTimeExpire_keeps {M : Nat} {s : State} (hM : Sub 268435452 M) :
    ∀ {t : State}, Keeps M s t → KeepsO M s (execMvReturnTimeExpire t) := by
  intro _ h0
  unfold execMvReturnTimeExpire
  repeat' first
    | with_reducible assumption | with_reducible refine done_keeps (Sub.trans (by decide) hM) ?_
    | with_reducible refine mvReturn_keeps (Sub.trans (by decide) hM) ?_
    | with_reducible refine keeps_ite (fun _ => ?_) (fun _ => ?_) | with_reducible refine keeps_id ?_
    | with_reducible refine keepsO_next ?_ | with_reducible refine keepsO_ite (fun _ => ?_) (fun _ => ?_) | with_reducible split

theorem execDewHoldExpire_keeps {M : Nat} {s : State} (hM : Sub 268435452 M) :
    ∀ {t : State}, Keeps M s t → KeepsO M s (execDewHoldExpire t) := by
  intro _ h0
  unfold execDewHoldExpire
  repeat' first
    | with_reducible assumption | with_reducible refine done_keeps (Sub.trans (by decide) hM) ?_
    | with_reducible refine ridePrecharge_keeps (Sub.trans (by decide) hM) ?_
    | with_reducible refine keeps_ite (fun _ => ?_) (fun _ => ?_) | with_reducible refine keeps_id ?_
    | with_reducible refine keepsO_next ?_ | with_reducible refine keepsO_ite (fun _ => ?_) (fun _ => ?_) | with_reducible split

theorem execDewTimeoutExpire_keeps {M : Nat} {s : State} (hM : Sub 268435452 M) :
    ∀ {t : State}, Keeps M s t → KeepsO M s (execDewTimeoutExpire t) := by
  intro _ h0
  unfold execDewTimeoutExpire
  repeat' first
    | with_reducible assumption | with_reducible refine done_keeps (Sub.trans (by decide) hM) ?_
    | with_reducible refine rideHalt_keeps (Sub.trans (by decide) hM) ?_
    | with_reducible refine keeps_ite (fun _ => ?_) (fun _ => ?_) | with_reducible refine keeps_id ?_
    | with_reducible refine keepsO_next ?_ | with_reducible refine keepsO_ite (fun _ => ?_) (fun _ => ?_)

theorem execPcTimeoutExpire_keeps {M : Nat} {s : State} (hM : Sub 268435452 M) :
    ∀ {t : State}, Keeps M s t → KeepsO M s (execPcTimeoutExpire t) := by
  intro _ h0
  unfold execPcTimeoutExpire
  repeat' first
    | with_reducible assumption | with_reducible refine done_keeps (Sub.trans (by decide) hM) ?_
    | with_reducible refine pcDone_keeps (Sub.trans (by decide) hM) ?_ | with_reducible refine keeps_ite (fun _ => ?_) (fun _ => ?_)
    | with_reducible refine keeps_id ?_ | with_reducible refine keepsO_next ?_
    | with_reducible refine keepsO_ite (fun _ => ?_) (fun _ => ?_)

theorem execSyncTimeoutExpire_keeps {M : Nat} {s : State} (hM : Sub 268435452 M) :
    ∀ {t : State}, Keeps M s t → KeepsO M s (execSyncTimeoutExpire t) := by
  intro _ h0
  unfold execSyncTimeoutExpire
  repeat' first
    | with_reducible assumption | with_reducible refine done_keeps (Sub.trans (by decide) hM) ?_
    | with_reducible refine rideHalt_keeps (Sub.trans (by decide) hM) ?_
    | with_reducible refine keeps_ite (fun _ => ?_) (fun _ => ?_) | with_reducible refine keeps_id ?_
    | with_reducible refine keepsO_next ?_ | with_reducible refine keepsO_ite (fun _ => ?_) (fun _ => ?_)

theorem execStageGapExpire_keeps {M : Nat} {s : State} (hM : Sub 268435452 M) :
    ∀ {t : State}, Keeps M s t → KeepsO M s (execStageGapExpire t) := by
  intro _ h0
  unfold execStageGapExpire
  repeat' first
    | with_reducible assumption | with_reducible refine done_keeps (Sub.trans (by decide) hM) ?_
    | with_reducible refine rideNext_keeps (Sub.trans (by decide) hM) ?_
    | with_reducible refine modRide_keeps (Sub.trans (by decide) hM) ?_
    | with_reducible refine keeps_ite (fun _ => ?_) (fun _ => ?_) | with_reducible refine keeps_id ?_
    | with_reducible refine keepsO_next ?_ | with_reducible refine keepsO_ite (fun _ => ?_) (fun _ => ?_) | with_reducible split

theorem evidNext_keeps {M : Nat} {s : State} (hM : Sub 67588 M) :
    ∀ {t : State}, Keeps M s t → Keeps M s (State.evidNext t) := by
  intro _ h0
  unfold State.evidNext
  repeat' first
    | with_reducible assumption | with_reducible refine updTwin_keeps (Sub.trans (by decide) hM) ?_
    | with_reducible refine ringSend_keeps (Sub.trans (by decide) hM) ?_
    | with_reducible refine tookFree_keeps (Sub.trans (by decide) hM) ?_
    | with_reducible refine keeps_ite (fun _ => ?_) (fun _ => ?_) | with_reducible refine keeps_id ?_ | with_reducible split

theorem ringSlot_keeps {M : Nat} {s : State} (hM : Sub 84484 M) :
    ∀ {t : State} {a1}, Keeps M s t → Keeps M s (State.ringSlot t a1) := by
  intro _ _ h0
  unfold State.ringSlot
  repeat' first
    | with_reducible assumption | with_reducible refine evidNext_keeps (Sub.trans (by decide) hM) ?_
    | with_reducible refine modLink_keeps (Sub.trans (by decide) hM) ?_
    | with_reducible refine sendTagged_keeps (Sub.trans (by decide) hM) ?_
    | with_reducible refine sendBlock_keeps (Sub.trans (by decide) hM) ?_
    | with_reducible refine keeps_ite (fun _ => ?_) (fun _ => ?_) | with_reducible refine keeps_id ?_ | with_reducible split
    | with_reducible intro _ | with_reducible dsimp only

theorem twinNext_keeps {M : Nat} {s : State} (hM : Sub 84480 M) :
    ∀ {t : State} {a1}, Keeps M s t → Keeps M s (State.twinNext t a1) := by
  intro _ _ h0
  unfold State.twinNext
  repeat' first
    | with_reducible assumption | with_reducible refine updTwin_keeps (Sub.trans (by decide) hM) ?_
    | with_reducible refine modLink_keeps (Sub.trans (by decide) hM) ?_
    | with_reducible refine queueSync_keeps (Sub.trans (by decide) hM) ?_
    | with_reducible refine sendBlock_keeps (Sub.trans (by decide) hM) ?_
    | with_reducible refine keeps_ite (fun _ => ?_) (fun _ => ?_)

theorem twinSlot_keeps {M : Nat} {s : State} (hM : Sub 84480 M) :
    ∀ {t : State} {a1}, Keeps M s t → Keeps M s (State.twinSlot t a1) := by
  intro _ _ h0
  unfold State.twinSlot
  repeat' first
    | with_reducible assumption | with_reducible refine sendBlock_keeps (Sub.trans (by decide) hM) ?_
    | with_reducible refine modLink_keeps (Sub.trans (by decide) hM) ?_
    | with_reducible refine updTwin_keeps (Sub.trans (by decide) hM) ?_
    | with_reducible refine twinNext_keeps (Sub.trans (by decide) hM) ?_
    | with_reducible refine keeps_ite (fun _ => ?_) (fun _ => ?_) | with_reducible refine keeps_id ?_ | with_reducible split

theorem execServiceSlot_keeps {M : Nat} {s : State} (hM : Sub 268435452 M) :
    ∀ {t : State} {a1}, Keeps M s t → KeepsO M s (execServiceSlot a1 t) := by
  intro _ _ h0
  unfold execServiceSlot
  repeat' first
    | with_reducible assumption | with_reducible refine done_keeps (Sub.trans (by decide) hM) ?_
    | with_reducible refine ringSlot_keeps (Sub.trans (by decide) hM) ?_
    | with_reducible refine twinSlot_keeps (Sub.trans (by decide) hM) ?_
    | with_reducible refine sendBlock_keeps (Sub.trans (by decide) hM) ?_
    | with_reducible refine keeps_ite (fun _ => ?_) (fun _ => ?_) | with_reducible refine keeps_id ?_
    | with_reducible refine keepsO_next ?_ | with_reducible refine keepsO_ite (fun _ => ?_) (fun _ => ?_)

theorem censusSend_keeps {M : Nat} {s : State} (hM : Sub 2162688 M) :
    ∀ {t : State}, Keeps M s t → Keeps M s (State.censusSend t) := by
  intro _ h0
  unfold State.censusSend
  repeat' first
    | with_reducible assumption | with_reducible refine updRing_keeps (Sub.trans (by decide) hM) ?_
    | with_reducible refine ringSend_keeps (Sub.trans (by decide) hM) ?_

theorem execCensusPeriod_keeps {M : Nat} {s : State} (hM : Sub 268435452 M) :
    ∀ {t : State}, Keeps M s t → KeepsO M s (execCensusPeriod t) := by
  intro _ h0
  unfold execCensusPeriod
  repeat' first
    | with_reducible assumption | with_reducible refine done_keeps (Sub.trans (by decide) hM) ?_
    | with_reducible refine censusSend_keeps (Sub.trans (by decide) hM) ?_
    | with_reducible refine keeps_ite (fun _ => ?_) (fun _ => ?_) | with_reducible refine keeps_id ?_
    | with_reducible refine keepsO_next ?_ | with_reducible refine keepsO_ite (fun _ => ?_) (fun _ => ?_)

theorem census_keeps {M : Nat} {s : State} (hM : Sub 2189560 M) :
    ∀ {t : State} {a1}, Keeps M s t → Keeps M s (State.census t a1) := by
  intro _ _ h0
  unfold State.census
  repeat' first
    | with_reducible assumption | with_reducible refine condOffInst_keeps (Sub.trans (by decide) hM) ?_
    | with_reducible refine modNode_keeps (Sub.trans (by decide) hM) ?_
    | with_reducible refine splitSeen_keeps (Sub.trans (by decide) hM) ?_
    | with_reducible refine keeps_ite (fun _ => ?_) (fun _ => ?_)

theorem ownCensus_keeps {M : Nat} {s : State} (hM : Sub 2105592 M) :
    ∀ {t : State} {a1}, Keeps M s t → Keeps M s (State.ownCensus t a1) := by
  intro _ _ h0
  unfold State.ownCensus
  repeat' first
    | with_reducible assumption | with_reducible refine modNode_keeps (Sub.trans (by decide) hM) ?_
    | with_reducible refine condOn_keeps (Sub.trans (by decide) hM) ?_ | with_reducible refine keeps_ite (fun _ => ?_) (fun _ => ?_)

theorem execRingCensusRx_keeps {M : Nat} {s : State} (hM : Sub 268435452 M) :
    ∀ {t : State} {a1 a2 a3}, Keeps M s t → KeepsO M s (execRingCensusRx a1 a2 a3 t) := by
  intro _ _ _ _ h0
  unfold execRingCensusRx
  repeat' first
    | with_reducible assumption | with_reducible refine onRx_keeps (Sub.trans (by decide) hM) ?_ ?_
    | with_reducible refine ringTake_keeps (Sub.trans (by decide) hM) ?_ ?_
    | with_reducible refine census_keeps (Sub.trans (by decide) hM) ?_
    | with_reducible refine ownCensus_keeps (Sub.trans (by decide) hM) ?_
    | with_reducible refine keeps_ite (fun _ => ?_) (fun _ => ?_) | with_reducible refine keeps_id ?_
    | with_reducible refine keepsO_next ?_ | with_reducible refine keepsO_ite (fun _ => ?_) (fun _ => ?_) | with_reducible split
    | with_reducible intro _

theorem execCensusNodeTimeout_keeps {M : Nat} {s : State} (hM : Sub 268435452 M) :
    ∀ {t : State} {a1}, Keeps M s t → KeepsO M s (execCensusNodeTimeout a1 t) := by
  intro _ _ h0
  unfold execCensusNodeTimeout
  repeat' first
    | with_reducible assumption | with_reducible refine modNode_keeps (Sub.trans (by decide) hM) ?_
    | with_reducible refine condOn_keeps (Sub.trans (by decide) hM) ?_
    | with_reducible refine done_keeps (Sub.trans (by decide) hM) ?_
    | with_reducible refine condOffInst_keeps (Sub.trans (by decide) hM) ?_
    | with_reducible refine keeps_ite (fun _ => ?_) (fun _ => ?_) | with_reducible refine keeps_id ?_
    | with_reducible refine keepsO_next ?_ | with_reducible refine keepsO_ite (fun _ => ?_) (fun _ => ?_)

theorem execRingSummaryRx_keeps {M : Nat} {s : State} (hM : Sub 268435452 M) :
    ∀ {t : State} {a1 a2 a3}, Keeps M s t → KeepsO M s (execRingSummaryRx a1 a2 a3 t) := by
  intro _ _ _ _ h0
  unfold execRingSummaryRx
  repeat' first
    | with_reducible assumption | with_reducible refine onRx_keeps (Sub.trans (by decide) hM) ?_ ?_
    | with_reducible refine ringTake_keeps (Sub.trans (by decide) hM) ?_ ?_
    | with_reducible refine updRing_keeps (Sub.trans (by decide) hM) ?_
    | with_reducible refine keeps_ite (fun _ => ?_) (fun _ => ?_) | with_reducible refine keeps_id ?_
    | with_reducible refine keepsO_next ?_ | with_reducible refine keepsO_ite (fun _ => ?_) (fun _ => ?_) | with_reducible split
    | with_reducible intro _

theorem execRingWriteRx_keeps {M : Nat} {s : State} (hM : Sub 268435452 M) :
    ∀ {t : State} {a1 a2 a3 a4}, Keeps M s t → KeepsO M s (execRingWriteRx a1 a2 a3 t a4) := by
  intro _ _ _ _ _ h0
  unfold execRingWriteRx
  repeat' first
    | with_reducible assumption | with_reducible refine onRx_keeps (Sub.trans (by decide) hM) ?_ ?_
    | with_reducible refine ringTake_keeps (Sub.trans (by decide) hM) ?_ ?_
    | with_reducible refine ringWrite_keeps (Sub.trans (by decide) hM) ?_
    | with_reducible refine keeps_ite (fun _ => ?_) (fun _ => ?_) | with_reducible refine keeps_id ?_
    | with_reducible refine keepsO_next ?_ | with_reducible refine keepsO_ite (fun _ => ?_) (fun _ => ?_) | with_reducible split
    | with_reducible intro _

theorem execRingHealthRx_keeps {M : Nat} {s : State} (hM : Sub 268435452 M) :
    ∀ {t : State} {a1 a2 a3}, Keeps M s t → KeepsO M s (execRingHealthRx a1 a2 a3 t) := by
  intro _ _ _ _ h0
  unfold execRingHealthRx
  repeat' first
    | with_reducible assumption | with_reducible refine onRx_keeps (Sub.trans (by decide) hM) ?_ ?_
    | with_reducible refine ringTake_keeps (Sub.trans (by decide) hM) ?_ ?_
    | with_reducible refine modNode_keeps (Sub.trans (by decide) hM) ?_
    | with_reducible refine keeps_ite (fun _ => ?_) (fun _ => ?_) | with_reducible refine keeps_id ?_
    | with_reducible refine keepsO_next ?_ | with_reducible refine keepsO_ite (fun _ => ?_) (fun _ => ?_) | with_reducible split
    | with_reducible intro _

theorem refVerdict_keeps {M : Nat} {s : State} (hM : Sub 67584 M) :
    ∀ {t : State} {a1 a2 a3}, Keeps M s t → Keeps M s (State.refVerdict t a1 a2 a3) := by
  intro _ _ _ _ h0
  unfold State.refVerdict
  repeat' first
    | with_reducible assumption | with_reducible refine updTwin_keeps (Sub.trans (by decide) hM) ?_
    | with_reducible refine ringQueue_keeps (Sub.trans (by decide) hM) ?_

theorem refJudge_keeps {M : Nat} {s : State} (hM : Sub 67584 M) : ∀ {n : Nat} {t : State}, Keeps M s t → Keeps M s (State.refJudge n t) := by
  intro n
  induction n with
  | zero =>
    intro t h
    unfold State.refJudge
    first
      | exact h
  | succ n ih =>
    intro t h
    unfold State.refJudge
    repeat' first
      | with_reducible assumption | with_reducible refine keeps_ite (fun _ => ?_) (fun _ => ?_)
      | with_reducible refine updTwin_keeps (Sub.trans (by decide) hM) ?_
      | with_reducible refine refVerdict_keeps (Sub.trans (by decide) hM) ?_ | with_reducible refine ih ?_ | with_reducible split
  

theorem refGo_keeps {M : Nat} {s : State} (hM : Sub 67584 M) :
    ∀ {t : State}, Keeps M s t → Keeps M s (State.refGo t) := by
  intro _ h0
  unfold State.refGo
  repeat' first
    | with_reducible assumption | with_reducible refine refJudge_keeps (Sub.trans (by decide) hM) ?_

theorem modCase_keeps {M : Nat} {s : State} (hM : Sub 2048 M) :
    ∀ {t : State} {a1 a2 a3}, Keeps M s t → Keeps M s (State.modCase t a1 a2 a3) := by
  intro _ _ _ _ h0
  unfold State.modCase
  repeat' first
    | with_reducible assumption | with_reducible refine updTwin_keeps (Sub.trans (by decide) hM) ?_

theorem refereeTake_keeps {M : Nat} {s : State} (hM : Sub 2164736 M) :
    ∀ {t : State} {a1}, Keeps M s t → Keeps M s (State.refereeTake t a1) := by
  intro _ _ h0
  unfold State.refereeTake
  repeat' first
    | with_reducible assumption | with_reducible refine updRing_keeps (Sub.trans (by decide) hM) ?_
    | with_reducible refine refGo_keeps (Sub.trans (by decide) hM) ?_
    | with_reducible refine updTwin_keeps (Sub.trans (by decide) hM) ?_
    | with_reducible refine modCase_keeps (Sub.trans (by decide) hM) ?_
    | with_reducible refine keeps_ite (fun _ => ?_) (fun _ => ?_)

theorem verdictTake_keeps {M : Nat} {s : State} (hM : Sub 3107580 M) :
    ∀ {t : State} {a1}, Keeps M s t → Keeps M s (State.verdictTake t a1) := by
  intro _ _ h0
  unfold State.verdictTake
  repeat' first
    | with_reducible assumption | with_reducible refine splitSeen_keeps (Sub.trans (by decide) hM) ?_
    | with_reducible refine verdict_keeps (Sub.trans (by decide) hM) ?_
    | with_reducible refine keeps_ite (fun _ => ?_) (fun _ => ?_)

theorem execRingRefRx_keeps {M : Nat} {s : State} (hM : Sub 268435452 M) :
    ∀ {t : State} {a1 a2 a3}, Keeps M s t → KeepsO M s (execRingRefRx a1 a2 a3 t) := by
  intro _ _ _ _ h0
  unfold execRingRefRx
  repeat' first
    | with_reducible assumption | with_reducible refine onRx_keeps (Sub.trans (by decide) hM) ?_ ?_
    | with_reducible refine verdictTake_keeps (Sub.trans (by decide) hM) ?_
    | with_reducible refine ringForward_keeps (Sub.trans (by decide) hM) ?_
    | with_reducible refine rxValid_keeps (Sub.trans (by decide) hM) ?_
    | with_reducible refine ringTake_keeps (Sub.trans (by decide) hM) ?_ ?_
    | with_reducible refine refereeTake_keeps (Sub.trans (by decide) hM) ?_
    | with_reducible refine keeps_ite (fun _ => ?_) (fun _ => ?_) | with_reducible refine keeps_id ?_
    | with_reducible refine keepsO_next ?_ | with_reducible refine keepsO_ite (fun _ => ?_) (fun _ => ?_) | with_reducible split
    | with_reducible intro _

theorem execRefereeReplayDone_keeps {M : Nat} {s : State} (hM : Sub 268435452 M) :
    ∀ {t : State} {a1 a2 a3}, Keeps M s t → KeepsO M s (execRefereeReplayDone a1 a2 a3 t) := by
  intro _ _ _ _ h0
  unfold execRefereeReplayDone
  repeat' first
    | with_reducible assumption | with_reducible refine done_keeps (Sub.trans (by decide) hM) ?_
    | with_reducible refine refGo_keeps (Sub.trans (by decide) hM) ?_
    | with_reducible refine refVerdict_keeps (Sub.trans (by decide) hM) ?_
    | with_reducible refine keeps_ite (fun _ => ?_) (fun _ => ?_) | with_reducible refine keeps_id ?_
    | with_reducible refine keepsO_next ?_ | with_reducible refine keepsO_ite (fun _ => ?_) (fun _ => ?_) | with_reducible split

theorem execSafeInputEdge_keeps {M : Nat} {s : State} (hM : Sub 33554432 M) :
    ∀ {t : State} {a1 a2}, Keeps M s t → KeepsO M s (execSafeInputEdge a1 a2 t) := by
  intro _ _ _ h0
  unfold execSafeInputEdge
  repeat' first
    | with_reducible assumption | with_reducible refine modSafe_keeps (Sub.trans (by decide) hM) ?_
    | with_reducible refine keeps_ite (fun _ => ?_) (fun _ => ?_) | with_reducible refine keeps_id ?_
    | with_reducible refine keepsO_next ?_ | with_reducible refine keepsO_ite (fun _ => ?_) (fun _ => ?_)

theorem execSafeDemandFilter_keeps {M : Nat} {s : State} (hM : Sub 33554432 M) :
    ∀ {t : State} {a1}, Keeps M s t → KeepsO M s (execSafeDemandFilter a1 t) := by
  intro _ _ h0
  unfold execSafeDemandFilter
  repeat' first
    | with_reducible assumption | with_reducible refine modSafe_keeps (Sub.trans (by decide) hM) ?_
    | with_reducible refine keeps_ite (fun _ => ?_) (fun _ => ?_) | with_reducible refine keeps_id ?_
    | with_reducible refine keepsO_next ?_ | with_reducible refine keepsO_ite (fun _ => ?_) (fun _ => ?_)

theorem execSafeDiscrepancyTimeout_keeps {M : Nat} {s : State} (hM : Sub 33554432 M) :
    ∀ {t : State} {a1}, Keeps M s t → KeepsO M s (execSafeDiscrepancyTimeout a1 t) := by
  intro _ _ h0
  unfold execSafeDiscrepancyTimeout
  repeat' first
    | with_reducible assumption | with_reducible refine modSafe_keeps (Sub.trans (by decide) hM) ?_
    | with_reducible refine keeps_ite (fun _ => ?_) (fun _ => ?_) | with_reducible refine keeps_id ?_
    | with_reducible refine keepsO_next ?_ | with_reducible refine keepsO_ite (fun _ => ?_) (fun _ => ?_)

theorem execSafeTestPulse_keeps {M : Nat} {s : State} (hM : Sub 33554432 M) :
    ∀ {t : State} {a1 a2 a3}, Keeps M s t → KeepsO M s (execSafeTestPulse a1 a2 a3 t) := by
  intro _ _ _ _ h0
  unfold execSafeTestPulse
  repeat' first
    | with_reducible assumption | with_reducible refine modSafe_keeps (Sub.trans (by decide) hM) ?_
    | with_reducible refine keeps_foldl ?_ ?_ | with_reducible refine keeps_foldlP ?_ ?_
    | with_reducible refine keeps_ite (fun _ => ?_) (fun _ => ?_) | with_reducible refine keeps_id ?_
    | with_reducible refine keepsO_next ?_ | with_reducible refine keepsO_ite (fun _ => ?_) (fun _ => ?_)

theorem execSafeSealCheck_keeps {M : Nat} {s : State} (hM : Sub 33554432 M) :
    ∀ {t : State} {a1}, Keeps M s t → KeepsO M s (execSafeSealCheck a1 t) := by
  intro _ _ h0
  unfold execSafeSealCheck
  repeat' first
    | with_reducible assumption | with_reducible refine modSafe_keeps (Sub.trans (by decide) hM) ?_
    | with_reducible refine keeps_ite (fun _ => ?_) (fun _ => ?_) | with_reducible refine keeps_id ?_
    | with_reducible refine keepsO_next ?_

theorem execSafeClockCheck_keeps {M : Nat} {s : State} (hM : Sub 33554432 M) :
    ∀ {t : State} {a1}, Keeps M s t → KeepsO M s (execSafeClockCheck a1 t) := by
  intro _ _ h0
  unfold execSafeClockCheck
  repeat' first
    | with_reducible assumption | with_reducible refine modSafe_keeps (Sub.trans (by decide) hM) ?_
    | with_reducible refine keeps_ite (fun _ => ?_) (fun _ => ?_) | with_reducible refine keeps_id ?_
    | with_reducible refine keepsO_next ?_ | with_reducible refine keepsO_ite (fun _ => ?_) (fun _ => ?_)

theorem execSafeChannelExchange_keeps {M : Nat} {s : State} (hM : Sub 33554432 M) :
    ∀ {t : State} {a1 a2 a3}, Keeps M s t → KeepsO M s (execSafeChannelExchange a1 a2 a3 t) := by
  intro _ _ _ _ h0
  unfold execSafeChannelExchange
  repeat' first
    | with_reducible assumption | with_reducible refine modSafe_keeps (Sub.trans (by decide) hM) ?_
    | with_reducible refine keeps_ite (fun _ => ?_) (fun _ => ?_) | with_reducible refine keeps_id ?_
    | with_reducible refine keepsO_next ?_ | with_reducible refine keepsO_ite (fun _ => ?_) (fun _ => ?_)

theorem execSafeSelftest_keeps {M : Nat} {s : State} (hM : Sub 33554432 M) :
    ∀ {t : State} {a1 a2}, Keeps M s t → KeepsO M s (execSafeSelftest a1 a2 t) := by
  intro _ _ _ h0
  unfold execSafeSelftest
  repeat' first
    | with_reducible assumption | with_reducible refine modSafe_keeps (Sub.trans (by decide) hM) ?_
    | with_reducible refine keeps_ite (fun _ => ?_) (fun _ => ?_) | with_reducible refine keeps_id ?_
    | with_reducible refine keepsO_next ?_ | with_reducible refine keepsO_ite (fun _ => ?_) (fun _ => ?_) | with_reducible split

theorem execSafeSupplyOut_keeps {M : Nat} {s : State} (hM : Sub 33554432 M) :
    ∀ {t : State}, Keeps M s t → KeepsO M s (execSafeSupplyOut t) := by
  intro _ h0
  unfold execSafeSupplyOut
  repeat' first
    | with_reducible assumption | with_reducible refine modSafe_keeps (Sub.trans (by decide) hM) ?_
    | with_reducible refine keeps_ite (fun _ => ?_) (fun _ => ?_) | with_reducible refine keeps_id ?_
    | with_reducible refine keepsO_next ?_ | with_reducible refine keepsO_ite (fun _ => ?_) (fun _ => ?_)

theorem execSafeSupplyReturn_keeps {M : Nat} {s : State} (hM : Sub 33554432 M) :
    ∀ {t : State}, Keeps M s t → KeepsO M s (execSafeSupplyReturn t) := by
  intro _ h0
  unfold execSafeSupplyReturn
  repeat' first
    | with_reducible assumption | with_reducible refine modSafe_keeps (Sub.trans (by decide) hM) ?_
    | with_reducible refine keeps_ite (fun _ => ?_) (fun _ => ?_) | with_reducible refine keeps_id ?_
    | with_reducible refine keepsO_next ?_ | with_reducible refine keepsO_ite (fun _ => ?_) (fun _ => ?_)

theorem execSafeStartDone_keeps {M : Nat} {s : State} (hM : Sub 33554432 M) :
    ∀ {t : State} {a1}, Keeps M s t → KeepsO M s (execSafeStartDone a1 t) := by
  intro _ _ h0
  unfold execSafeStartDone
  repeat' first
    | with_reducible assumption | with_reducible refine modSafe_keeps (Sub.trans (by decide) hM) ?_
    | with_reducible refine keeps_ite (fun _ => ?_) (fun _ => ?_) | with_reducible refine keeps_id ?_
    | with_reducible refine keepsO_next ?_ | with_reducible refine keepsO_ite (fun _ => ?_) (fun _ => ?_)

theorem execSafeResetRelease_keeps {M : Nat} {s : State} (hM : Sub 33554432 M) :
    ∀ {t : State}, Keeps M s t → KeepsO M s (execSafeResetRelease t) := by
  intro _ h0
  unfold execSafeResetRelease
  repeat' first
    | with_reducible assumption | with_reducible refine modSafe_keeps (Sub.trans (by decide) hM) ?_
    | with_reducible refine keeps_ite (fun _ => ?_) (fun _ => ?_) | with_reducible refine keeps_id ?_
    | with_reducible refine keepsO_next ?_

theorem execSafeLcClearExpire_keeps {M : Nat} {s : State} (hM : Sub 33554432 M) :
    ∀ {t : State}, Keeps M s t → KeepsO M s (execSafeLcClearExpire t) := by
  intro _ h0
  unfold execSafeLcClearExpire
  repeat' first
    | with_reducible assumption | with_reducible refine modSafe_keeps (Sub.trans (by decide) hM) ?_
    | with_reducible refine keeps_ite (fun _ => ?_) (fun _ => ?_) | with_reducible refine keeps_id ?_
    | with_reducible refine keepsO_next ?_ | with_reducible refine keepsO_ite (fun _ => ?_) (fun _ => ?_)

theorem execSafeEdmTimeout_keeps {M : Nat} {s : State} (hM : Sub 33554432 M) :
    ∀ {t : State}, Keeps M s t → KeepsO M s (execSafeEdmTimeout t) := by
  intro _ h0
  unfold execSafeEdmTimeout
  repeat' first
    | with_reducible assumption | with_reducible refine modSafe_keeps (Sub.trans (by decide) hM) ?_
    | with_reducible refine keeps_ite (fun _ => ?_) (fun _ => ?_) | with_reducible refine keeps_id ?_
    | with_reducible refine keepsO_next ?_ | with_reducible refine keepsO_ite (fun _ => ?_) (fun _ => ?_) | with_reducible split

theorem execSafeReadbackTimeout_keeps {M : Nat} {s : State} (hM : Sub 33554432 M) :
    ∀ {t : State} {a1}, Keeps M s t → KeepsO M s (execSafeReadbackTimeout a1 t) := by
  intro _ _ h0
  unfold execSafeReadbackTimeout
  repeat' first
    | with_reducible assumption | with_reducible refine modSafe_keeps (Sub.trans (by decide) hM) ?_
    | with_reducible refine keeps_ite (fun _ => ?_) (fun _ => ?_) | with_reducible refine keeps_id ?_
    | with_reducible refine keepsO_next ?_ | with_reducible refine keepsO_ite (fun _ => ?_) (fun _ => ?_)

theorem execSafeChainMeasure_keeps {M : Nat} {s : State} (hM : Sub 33554432 M) :
    ∀ {t : State} {a1 a2}, Keeps M s t → KeepsO M s (execSafeChainMeasure a1 a2 t) := by
  intro _ _ _ h0
  unfold execSafeChainMeasure
  repeat' first
    | with_reducible assumption | with_reducible refine modSafe_keeps (Sub.trans (by decide) hM) ?_
    | with_reducible refine keeps_ite (fun _ => ?_) (fun _ => ?_) | with_reducible refine keeps_id ?_
    | with_reducible refine keepsO_next ?_

theorem execSafeLoopBrokenTimeout_keeps {M : Nat} {s : State} (hM : Sub 33554432 M) :
    ∀ {t : State} {a1}, Keeps M s t → KeepsO M s (execSafeLoopBrokenTimeout a1 t) := by
  intro _ _ h0
  unfold execSafeLoopBrokenTimeout
  repeat' first
    | with_reducible assumption | with_reducible refine modSafe_keeps (Sub.trans (by decide) hM) ?_
    | with_reducible refine keeps_ite (fun _ => ?_) (fun _ => ?_) | with_reducible refine keeps_id ?_
    | with_reducible refine keepsO_next ?_ | with_reducible refine keepsO_ite (fun _ => ?_) (fun _ => ?_)

theorem execSafeDemandDue_keeps {M : Nat} {s : State} (hM : Sub 33554432 M) :
    ∀ {t : State}, Keeps M s t → KeepsO M s (execSafeDemandDue t) := by
  intro _ h0
  unfold execSafeDemandDue
  repeat' first
    | with_reducible assumption | with_reducible refine updSafe_keeps (Sub.trans (by decide) hM) ?_
    | with_reducible refine keeps_ite (fun _ => ?_) (fun _ => ?_) | with_reducible refine keeps_id ?_
    | with_reducible refine keepsO_next ?_ | with_reducible refine keepsO_ite (fun _ => ?_) (fun _ => ?_)

end Sys2Proof.Machine
end

