-- ==== Sys2Proof/Machine/Frame10.lean ====
section
/-!
DEFINITION. Frames, part 10: the functions from execSafeMirrorSend to execTwHealthPeriod, in the order of their calls. Each lemma says
which parts its function may change (a mask over Part.bit) and that it keeps the bounds of State.Inv.
-/

namespace Sys2Proof.Machine

set_option linter.unreachableTactic false
set_option linter.unusedTactic false
set_option linter.unusedSimpArgs false

theorem execSafeMirrorSend_keeps {M : Nat} {s : State} (hM : Sub 33554432 M) :
    ∀ {t : State}, Keeps M s t → KeepsO M s (execSafeMirrorSend t) := by
  intro _ h0
  unfold execSafeMirrorSend
  repeat' first
    | with_reducible assumption | with_reducible refine updSafe_keeps (Sub.trans (by decide) hM) ?_
    | with_reducible refine keeps_ite (fun _ => ?_) (fun _ => ?_) | with_reducible refine keeps_id ?_
    | with_reducible refine keepsO_next ?_ | with_reducible refine keepsO_ite (fun _ => ?_) (fun _ => ?_)

theorem execSafeMirrorRx_keeps {M : Nat} {s : State} (hM : Sub 268435452 M) :
    ∀ {t : State}, Keeps M s t → KeepsO M s (execSafeMirrorRx t) := by
  intro _ h0
  unfold execSafeMirrorRx
  repeat' first
    | with_reducible assumption | with_reducible refine updSafe_keeps (Sub.trans (by decide) hM) ?_
    | with_reducible refine safeNote_keeps (Sub.trans (by decide) hM) ?_
    | with_reducible refine condOff_keeps (Sub.trans (by decide) hM) ?_
    | with_reducible refine done_keeps (Sub.trans (by decide) hM) ?_
    | with_reducible refine cond_keeps (Sub.trans (by decide) hM) ?_ | with_reducible refine keeps_foldl ?_ ?_
    | with_reducible refine keeps_foldlP ?_ ?_ | with_reducible refine keeps_ite (fun _ => ?_) (fun _ => ?_)
    | with_reducible refine keeps_id ?_ | with_reducible refine keepsO_next ?_
    | with_reducible refine keepsO_ite (fun _ => ?_) (fun _ => ?_) | with_reducible split | with_reducible intro _

theorem execSafeMirrorTimeout_keeps {M : Nat} {s : State} (hM : Sub 268435452 M) :
    ∀ {t : State}, Keeps M s t → KeepsO M s (execSafeMirrorTimeout t) := by
  intro _ h0
  unfold execSafeMirrorTimeout
  repeat' first
    | with_reducible assumption | with_reducible refine done_keeps (Sub.trans (by decide) hM) ?_
    | with_reducible refine condOn_keeps (Sub.trans (by decide) hM) ?_
    | with_reducible refine note_keeps (Sub.trans (by decide) hM) ?_
    | with_reducible refine updSafe_keeps (Sub.trans (by decide) hM) ?_
    | with_reducible refine keeps_ite (fun _ => ?_) (fun _ => ?_) | with_reducible refine keeps_id ?_
    | with_reducible refine keepsO_next ?_ | with_reducible refine keepsO_ite (fun _ => ?_) (fun _ => ?_)

theorem execSafePermitLineChange_keeps {M : Nat} {s : State} (hM : Sub 268435452 M) :
    ∀ {t : State} {a1}, Keeps M s t → KeepsO M s (execSafePermitLineChange a1 t) := by
  intro _ _ h0
  unfold execSafePermitLineChange
  repeat' first
    | with_reducible assumption | with_reducible refine updTwin_keeps (Sub.trans (by decide) hM) ?_
    | with_reducible refine updSafe_keeps (Sub.trans (by decide) hM) ?_
    | with_reducible refine done_keeps (Sub.trans (by decide) hM) ?_
    | with_reducible refine trip_keeps (Sub.trans (by decide) hM) ?_ | with_reducible refine keeps_foldl ?_ ?_
    | with_reducible refine keeps_foldlP ?_ ?_ | with_reducible refine keeps_ite (fun _ => ?_) (fun _ => ?_)
    | with_reducible refine keeps_id ?_ | with_reducible refine keepsO_next ?_
    | with_reducible refine keepsO_ite (fun _ => ?_) (fun _ => ?_) | with_reducible split | with_reducible intro _

theorem execSafeFunctionPermitFilter_keeps {M : Nat} {s : State} (hM : Sub 33554432 M) :
    ∀ {t : State} {a1}, Keeps M s t → KeepsO M s (execSafeFunctionPermitFilter a1 t) := by
  intro _ _ h0
  unfold execSafeFunctionPermitFilter
  repeat' first
    | with_reducible assumption | with_reducible refine updSafe_keeps (Sub.trans (by decide) hM) ?_
    | with_reducible refine keeps_ite (fun _ => ?_) (fun _ => ?_) | with_reducible refine keeps_id ?_
    | with_reducible refine keepsO_next ?_ | with_reducible refine keepsO_ite (fun _ => ?_) (fun _ => ?_)

theorem execSafeThcPairTimeout_keeps {M : Nat} {s : State} (hM : Sub 33554432 M) :
    ∀ {t : State} {a1}, Keeps M s t → KeepsO M s (execSafeThcPairTimeout a1 t) := by
  intro _ _ h0
  unfold execSafeThcPairTimeout
  repeat' first
    | with_reducible assumption | with_reducible refine modSafe_keeps (Sub.trans (by decide) hM) ?_
    | with_reducible refine keeps_ite (fun _ => ?_) (fun _ => ?_) | with_reducible refine keeps_id ?_
    | with_reducible refine keepsO_next ?_ | with_reducible refine keepsO_ite (fun _ => ?_) (fun _ => ?_)

theorem nextOr_keeps {M : Nat} {s : State} (_ : Sub 0 M) : ∀ {t : State} {o}, Keeps M s t → KeepsO M s o → Keeps M s (nextOr t o) := by
  intro t o h ho
  unfold nextOr
  split
  · exact ho _ rfl
  · exact h

theorem runForwarded_keeps {M : Nat} {s : State} (hM : Sub 268435452 M) :
    ∀ {t : State} {a1}, Keeps M s t → Keeps M s (State.runForwarded t a1) := by
  intro _ _ h0
  unfold State.runForwarded
  repeat' first
    | with_reducible assumption | with_reducible refine nextOr_keeps (Sub.trans (by decide) hM) ?_ ?_
    | with_reducible refine execLaneRetrain_keeps (Sub.trans (by decide) hM) ?_
    | with_reducible refine execLaneHalt_keeps (Sub.trans (by decide) hM) ?_
    | with_reducible refine execLaneTestStart_keeps (Sub.trans (by decide) hM) ?_
    | with_reducible refine execLaneTestStop_keeps (Sub.trans (by decide) hM) ?_
    | with_reducible refine execEpReauth_keeps (Sub.trans (by decide) hM) ?_
    | with_reducible refine execStringStart_keeps (Sub.trans (by decide) hM) ?_
    | with_reducible refine execStringStop_keeps (Sub.trans (by decide) hM) ?_
    | with_reducible refine execRawEdgeLoad_keeps (Sub.trans (by decide) hM) ?_
    | with_reducible refine execDtReset_keeps (Sub.trans (by decide) hM) ?_
    | with_reducible refine execLeStart_keeps (Sub.trans (by decide) hM) ?_
    | with_reducible refine execLeStop_keeps (Sub.trans (by decide) hM) ?_
    | with_reducible refine execLoopPreset_keeps (Sub.trans (by decide) hM) ?_
    | with_reducible refine execStringTrip_keeps (Sub.trans (by decide) hM) ?_
    | with_reducible refine execTripClear_keeps (Sub.trans (by decide) hM) ?_
    | with_reducible refine execCellBypass_keeps (Sub.trans (by decide) hM) ?_
    | with_reducible refine execCellRelease_keeps (Sub.trans (by decide) hM) ?_
    | with_reducible refine execRideCmd_keeps (Sub.trans (by decide) hM) ?_
    | with_reducible refine execAuxTripClear_keeps (Sub.trans (by decide) hM) ?_
    | with_reducible refine execAuxSafe_keeps (Sub.trans (by decide) hM) ?_
    | with_reducible refine execPosSet_keeps (Sub.trans (by decide) hM) ?_
    | with_reducible refine execDemandReset_keeps (Sub.trans (by decide) hM) ?_
    | with_reducible refine execLoftVerify_keeps (Sub.trans (by decide) hM) ?_
    | with_reducible refine execLoftSchedule_keeps (Sub.trans (by decide) hM) ?_
    | with_reducible refine refuse_keeps (Sub.trans (by decide) hM) ?_ | with_reducible refine keeps_ite (fun _ => ?_) (fun _ => ?_)
    | with_reducible refine keeps_id ?_ | with_reducible refine keepsO_next ?_
    | with_reducible refine keepsO_ite (fun _ => ?_) (fun _ => ?_) | with_reducible split

theorem thermTake_keeps {M : Nat} {s : State} (hM : Sub 4202744 M) :
    ∀ {t : State} {a1}, Keeps M s t → Keeps M s (State.thermTake t a1) := by
  intro _ _ h0
  unfold State.thermTake
  repeat' first
    | with_reducible assumption | with_reducible refine thermAdd_keeps (Sub.trans (by decide) hM) ?_
    | with_reducible refine keeps_ite (fun _ => ?_) (fun _ => ?_)

theorem thermDrop_keeps {M : Nat} {s : State} (hM : Sub 4194432 M) :
    ∀ {t : State} {a1}, Keeps M s t → Keeps M s (State.thermDrop t a1) := by
  intro _ _ h0
  unfold State.thermDrop
  repeat' first
    | with_reducible assumption | with_reducible refine condOff_keeps (Sub.trans (by decide) hM) ?_
    | with_reducible refine updHk_keeps (Sub.trans (by decide) hM) ?_ | with_reducible refine keeps_ite (fun _ => ?_) (fun _ => ?_)
    | with_reducible refine keeps_id ?_ | with_reducible split

theorem fwdRecords_keeps {M : Nat} {s : State} (hM : Sub 96337660 M) : ∀ {t u : State} {p : Bytes}, Keeps M s t → t.fwdRecords p = some u → Keeps M s u := by
  intro t u p h hu
  unfold State.fwdRecords at hu
  rw [Option.map_eq_some_iff] at hu
  obtain ⟨x, _, rfl⟩ := hu
  exact applyAll_keeps (Sub.trans (by decide) hM) h

theorem fwdRun_keeps {M : Nat} {s : State} (hM : Sub 268435452 M) :
    ∀ {t : State} {a1 a2}, Keeps M s t → Keeps M s (State.fwdRun t a1 a2) := by
  intro _ _ _ h0
  unfold State.fwdRun
  repeat' first
    | with_reducible assumption | with_reducible refine loftWrite_keeps (Sub.trans (by decide) hM) ?_
    | with_reducible refine imageStore_keeps (Sub.trans (by decide) hM) ?_
    | with_reducible refine pkgApply_keeps (Sub.trans (by decide) hM) ?_
    | with_reducible refine rollRun_keeps (Sub.trans (by decide) hM) ?_
    | with_reducible refine loopRun_keeps (Sub.trans (by decide) hM) ?_
    | with_reducible refine runForwarded_keeps (Sub.trans (by decide) hM) ?_
    | with_reducible refine keeps_ite (fun _ => ?_) (fun _ => ?_) | with_reducible refine keeps_id ?_ | with_reducible split

theorem giveBack_keeps {M : Nat} {s : State} (hM : Sub 65616 M) :
    ∀ {t t2 : State}, Keeps M s t → Keeps M s t2 → Keeps M s (State.giveBack t t2) := by
  intro _ _ h0 h1
  unfold State.giveBack
  repeat' first
    | with_reducible assumption | with_reducible refine updHatch_keeps (Sub.trans (by decide) hM) ?_
    | with_reducible refine modBox_keeps (Sub.trans (by decide) hM) ?_
    | with_reducible refine updPar_keeps (Sub.trans (by decide) hM) ?_
    | with_reducible refine modLink_keeps (Sub.trans (by decide) hM) ?_ | with_reducible refine keeps_foldl ?_ ?_
    | with_reducible refine keeps_foldlP ?_ ?_ | with_reducible refine keeps_ite (fun _ => ?_) (fun _ => ?_)
    | with_reducible refine keeps_id ?_ | with_reducible split | with_reducible intro _

theorem fwdCommand_keeps {M : Nat} {s : State} (hM : Sub 268435452 M) :
    ∀ {t : State} {a1 a2}, Keeps M s t → Keeps M s (State.fwdCommand t a1 a2).1 := by
  intro _ _ _ h0
  unfold State.fwdCommand
  repeat' first
    | with_reducible assumption | with_reducible refine updHatch_keeps (Sub.trans (by decide) hM) ?_
    | with_reducible refine modBox_keeps (Sub.trans (by decide) hM) ?_
    | with_reducible refine fwdRun_keeps (Sub.trans (by decide) hM) ?_
    | with_reducible refine giveBack_keeps (Sub.trans (by decide) hM) ?_ ?_

theorem fwdAck_keeps {M : Nat} {s : State} (hM : Sub 65536 M) :
    ∀ {t : State} {a1 a2}, Keeps M s t → Keeps M s (State.fwdAck t a1 a2) := by
  intro _ _ _ h0
  unfold State.fwdAck
  repeat' first
    | with_reducible assumption | with_reducible refine twinSend_keeps (Sub.trans (by decide) hM) ?_

theorem fwdTaken_keeps {M : Nat} {s : State} (hM : Sub 67584 M) :
    ∀ {t : State} {a1}, Keeps M s t → Keeps M s (State.fwdTaken t a1) := by
  intro _ _ h0
  unfold State.fwdTaken
  repeat' first
    | with_reducible assumption | with_reducible refine fwdAck_keeps (Sub.trans (by decide) hM) ?_
    | with_reducible refine updTwin_keeps (Sub.trans (by decide) hM) ?_

theorem fwdDirect_keeps {M : Nat} {s : State} (hM : Sub 234749692 M) : ∀ {t u : State} {q : Request} {d : Bytes}, Keeps M s t →
    t.fwdDirect q d = some (some u) → Keeps M s u := by
  intro t u q d h hu
  unfold State.fwdDirect at hu
  dsimp only at hu
  split at hu
  · exact fwdRecords_keeps (Sub.trans (by decide) hM) h (Option.some.inj hu)
  · cases hu; exact loadRoll_keeps (Sub.trans (by decide) hM) h
  · cases hu; exact loopLoad_keeps (Sub.trans (by decide) hM) h
  · cases hu; exact larderPut_keeps (Sub.trans (by decide) hM) h
  all_goals first
    | (cases hu; done)
    | (replace hu := Option.some.inj hu
       first
         | (cases hu; first
              | exact thermTake_keeps (Sub.trans (by decide) hM) h | exact thermDrop_keeps (Sub.trans (by decide) hM) h
              | exact lockSet_keeps (Sub.trans (by decide) hM) h)
         | (split at hu <;> cases hu
            exact updTwin_keeps (Sub.trans (by decide) hM) h))

theorem fwdApply_keeps {M : Nat} {s : State} (hM : Sub 268435452 M) :
    ∀ {t : State} {a1 a2}, Keeps M s t → Keeps M s (State.fwdApply t a1 a2) := by
  intro _ _ _ h0
  unfold State.fwdApply
  repeat' first
    | with_reducible assumption | with_reducible refine fwdAck_keeps (Sub.trans (by decide) hM) ?_
    | with_reducible refine staleRx_keeps (Sub.trans (by decide) hM) ?_
    | with_reducible refine fwdTaken_keeps (Sub.trans (by decide) hM) ?_
    | with_reducible refine fwdCommand_keeps (Sub.trans (by decide) hM) ?_
    | with_reducible refine keeps_ite (fun _ => ?_) (fun _ => ?_) | with_reducible refine keeps_id ?_
    | refine fwdDirect_keeps (Sub.trans (by decide) hM) ?_ ‹_› | with_reducible split

theorem fwdChunk_keeps {M : Nat} {s : State} (hM : Sub 268435452 M) :
    ∀ {t : State} {a1 a2 a3 a4}, Keeps M s t → Keeps M s (State.fwdChunk t a1 a2 a3 a4) := by
  intro _ _ _ _ _ h0
  unfold State.fwdChunk
  repeat' first
    | with_reducible assumption | with_reducible refine updTwin_keeps (Sub.trans (by decide) hM) ?_
    | with_reducible refine fwdApply_keeps (Sub.trans (by decide) hM) ?_
    | with_reducible refine fwdAck_keeps (Sub.trans (by decide) hM) ?_ | with_reducible refine keeps_ite (fun _ => ?_) (fun _ => ?_)

theorem execTwFwdRx_keeps {M : Nat} {s : State} (hM : Sub 268435452 M) :
    ∀ {t : State} {a1 a2 a3}, Keeps M s t → KeepsO M s (execTwFwdRx a1 a2 a3 t) := by
  intro _ _ _ _ h0
  unfold execTwFwdRx
  repeat' first
    | with_reducible assumption | with_reducible refine onRx_keeps (Sub.trans (by decide) hM) ?_ ?_
    | with_reducible refine twinTake_keeps (Sub.trans (by decide) hM) ?_ ?_
    | with_reducible refine fwdChunk_keeps (Sub.trans (by decide) hM) ?_
    | with_reducible refine staleRx_keeps (Sub.trans (by decide) hM) ?_
    | with_reducible refine fwdAck_keeps (Sub.trans (by decide) hM) ?_ | with_reducible refine keeps_ite (fun _ => ?_) (fun _ => ?_)
    | with_reducible refine keeps_id ?_ | with_reducible refine keepsO_next ?_
    | with_reducible refine keepsO_ite (fun _ => ?_) (fun _ => ?_) | with_reducible split | with_reducible intro _

theorem execTwHealthPeriod_keeps {M : Nat} {s : State} (hM : Sub 268435452 M) :
    ∀ {t : State}, Keeps M s t → KeepsO M s (execTwHealthPeriod t) := by
  intro _ h0
  unfold execTwHealthPeriod
  repeat' first
    | with_reducible assumption | with_reducible refine twinSend_keeps (Sub.trans (by decide) hM) ?_
    | with_reducible refine ringSend_keeps (Sub.trans (by decide) hM) ?_
    | with_reducible refine done_keeps (Sub.trans (by decide) hM) ?_
    | with_reducible refine updTwin_keeps (Sub.trans (by decide) hM) ?_
    | with_reducible refine keeps_ite (fun _ => ?_) (fun _ => ?_) | with_reducible refine keeps_id ?_
    | with_reducible refine keepsO_next ?_ | with_reducible refine keepsO_ite (fun _ => ?_) (fun _ => ?_)

end Sys2Proof.Machine
end

