-- ==== Sys2Proof/Laws/Mailbox.lean ====
section
/-!
SUPPORT. Mailboxes: what running a command, a reply and an interrupt message do.
-/

namespace Sys2Proof.Machine

/-- A message changes nothing but the messages counted and the vectors held back. -/
theorem sendVector_eq (h : Hatch) (v : Nat) : ∃ m k, h.sendVector v = { h with msix := m, msixHeld := k } := by
  unfold Hatch.sendVector
  split
  · exact ⟨h.msix, _, rfl⟩
  · exact ⟨_, _, rfl⟩

/-- An interrupt message changes nothing but the messages counted and the vectors held back. -/
theorem irqSince_eq (a b : State) : ∃ m k, irqSince a b = b.updHatch fun h => { h with msix := m, msixHeld := k } := by
  have key : ∀ (l : List Nat) (b : State), ∃ m k, l.foldl (fun s i => s.updHatch fun h => h.sendVector (irqVector i)) b =
      b.updHatch fun h => { h with msix := m, msixHeld := k } := by
    intro l
    induction l with
    | nil => intro b; exact ⟨b.hatch.msix, b.hatch.msixHeld, rfl⟩
    | cons i r ih =>
      intro b
      obtain ⟨m, k, e⟩ := ih (b.updHatch fun h => h.sendVector (irqVector i))
      obtain ⟨m', k', e'⟩ := sendVector_eq b.hatch (irqVector i)
      refine ⟨m, k, ?_⟩
      rw [List.foldl_cons, e]
      simp [State.updHatch, e']
  unfold irqSince
  split
  · exact ⟨b.hatch.msix, b.hatch.msixHeld, rfl⟩
  · exact key _ b

@[simp] theorem irqSince_box (a b : State) (n : Nat) : (irqSince a b).box n = b.box n := by
  obtain ⟨m, k, e⟩ := irqSince_eq a b
  rw [e]; rfl

@[simp] theorem bumpBy_box (s : State) (id inst field k n : Nat) : (s.bumpBy id inst field k).box n = s.box n := rfl
@[simp] theorem bump_box (s : State) (id inst field n : Nat) : (s.bump id inst field).box n = s.box n := rfl
@[simp] theorem updTwin_box (s : State) (f : Twin → Twin) (n : Nat) : (s.updTwin f).box n = s.box n := rfl

/-- A mailbox leaving the order of taking changes no mailbox. -/
@[simp] theorem left_box (s : State) (g : Hatch → List Nat) (n : Nat) :
    (s.updHatch fun h => { h with active := g h }).box n = s.box n := rfl

/-- A running command with a point of commitment is run: its request is of the unit's epoch. -/
theorem withCmd_runs {s : State} {mb op : Nat} {q : Request} (h : s.Runs mb op q) (c : Bool) (f : Request → State → State) :
    s.withCmd mb op c f = f q s := by
  unfold State.withCmd
  simp [h.taken, h.active, h.waits, h.opcode, h.epoch, h.turn]

/-- A configuration write that nothing turns away is run. -/
theorem withWrite_runs {s : State} {mb op : Nat} {q : Request} (h : s.Runs mb op q) (w : s.Writes mb (op / 256))
    (f : Request → State → State) : s.withWrite mb op f = f q s := by
  unfold State.withWrite
  rw [withCmd_runs h]
  simp [w.handover, w.package, w.barred]

/-- A reply completes its mailbox, and it alone. -/
theorem reply_replies {s : State} {mb : Nat} {q : Request} (h : (s.box mb).taken = some q) (status : Nat) (payload : Bytes) :
    s.Replies (s.reply mb status payload) mb q status payload := by
  unfold State.reply State.writeReply State.enterDone
  rw [h]
  by_cases b : status = stBusy
  · refine ⟨?_, ?_, ?_, ?_, ?_, fun n e => ?_⟩ <;> simp [*]
  · refine ⟨?_, ?_, ?_, ?_, ?_, fun n e => ?_⟩ <;> simp [*]

/-- A reply after effects that leave the mailboxes and the epoch alone. -/
theorem State.Replies.from {s u t : State} {mb : Nat} {q : Request} {status : Nat} {payload : Bytes}
    (h : u.Replies t mb q status payload) (hb : u.hatch.boxes = s.hatch.boxes) (he : u.twin.epoch = s.twin.epoch) :
    s.Replies t mb q status payload := by
  have hx : ∀ n, u.box n = s.box n := fun n => by unfold State.box; rw [hb]
  refine ⟨h.done, h.taken, ?_, ?_, ?_, fun n e => ?_⟩
  · rw [h.reply, he]
  · rw [h.kept, he, hx]
  · rw [h.request, hx]
  · rw [h.others n e, hx]

/-- A reply other than BUSY changes the hatch alone. -/
theorem reply_hatch {M : Nat} {s : State} (hM : Sub 16 M) {t : State} {mb status : Nat} {payload : Bytes} (h : status ≠ stBusy)
    (k : Keeps M s t) : Keeps M s (t.reply mb status payload) := by
  unfold State.reply State.writeReply State.enterDone
  split
  · exact k
  · rename_i q _
    simp only [h, if_false]
    have k' : Keeps M s (if true && status != stBusy then t.modBox mb fun b =>
        { b with kept := some { req := q, reply := replyBytes status q.seq t.twin.epoch payload } } else t) := by
      split
      · exact modBox_keeps (Sub.trans (by decide) hM) k
      · exact k
    exact irqSince_keeps (Sub.trans (by decide) hM) k'
      (updHatch_keeps (Sub.trans (by decide) hM) (modBox_keeps (Sub.trans (by decide) hM) k'))

theorem replyOk_hatch {M : Nat} {s : State} (hM : Sub 16 M) {t : State} {mb : Nat} {payload : Bytes} (k : Keeps M s t) :
    Keeps M s (t.replyOk mb payload) := reply_hatch hM (by decide) k

theorem refuse_hatch {M : Nat} {s : State} (hM : Sub 16 M) {t : State} {mb status reason i : Nat} (h : status ≠ stBusy)
    (k : Keeps M s t) : Keeps M s (t.refuse mb status reason i) := reply_hatch hM h k

end Sys2Proof.Machine
end

