-- ==== Sys2Proof/Laws/Parts.lean ====
section
/-!
SUPPORT. What a frame says of each part.
-/

namespace Sys2Proof.Machine

theorem Keeps.pending {M : Nat} {s t : State} (h : Keeps M s t) (k : M.testBit 0 = false) : t.pending = s.pending := h.all .pending k
theorem Keeps.mono {M : Nat} {s t : State} (h : Keeps M s t) (k : M.testBit 1 = false) : t.mono = s.mono := h.all .mono k
theorem Keeps.freeCount {M : Nat} {s t : State} (h : Keeps M s t) (k : M.testBit 2 = false) : t.freeCount = s.freeCount := h.all .freeCount k
theorem Keeps.todo {M : Nat} {s t : State} (h : Keeps M s t) (k : M.testBit 3 = false) : t.todo = s.todo := h.all .todo k
theorem Keeps.hatch {M : Nat} {s t : State} (h : Keeps M s t) (k : M.testBit 4 = false) : t.hatch = s.hatch := h.all .hatch k
theorem Keeps.notif {M : Nat} {s t : State} (h : Keeps M s t) (k : M.testBit 5 = false) : t.notif = s.notif := h.all .notif k
theorem Keeps.par {M : Nat} {s t : State} (h : Keeps M s t) (k : M.testBit 6 = false) : t.par = s.par := h.all .par k
theorem Keeps.faults {M : Nat} {s t : State} (h : Keeps M s t) (k : M.testBit 7 = false) : t.faults = s.faults := h.all .faults k
theorem Keeps.sys {M : Nat} {s t : State} (h : Keeps M s t) (k : M.testBit 8 = false) : t.sys = s.sys := h.all .sys k
theorem Keeps.time {M : Nat} {s t : State} (h : Keeps M s t) (k : M.testBit 9 = false) : t.time = s.time := h.all .time k
theorem Keeps.sta {M : Nat} {s t : State} (h : Keeps M s t) (k : M.testBit 10 = false) : t.sta = s.sta := h.all .sta k
theorem Keeps.twin {M : Nat} {s t : State} (h : Keeps M s t) (k : M.testBit 11 = false) : t.twin = s.twin := h.all .twin k
theorem Keeps.bat {M : Nat} {s t : State} (h : Keeps M s t) (k : M.testBit 12 = false) : t.bat = s.bat := h.all .bat k
theorem Keeps.pantry {M : Nat} {s t : State} (h : Keeps M s t) (k : M.testBit 13 = false) : t.pantry = s.pantry := h.all .pantry k
theorem Keeps.lanes {M : Nat} {s t : State} (h : Keeps M s t) (k : M.testBit 14 = false) : t.lanes = s.lanes := h.all .lanes k
theorem Keeps.roll {M : Nat} {s t : State} (h : Keeps M s t) (k : M.testBit 15 = false) : t.roll = s.roll := h.all .roll k
theorem Keeps.links {M : Nat} {s t : State} (h : Keeps M s t) (k : M.testBit 16 = false) : t.links = s.links := h.all .links k
theorem Keeps.mod {M : Nat} {s t : State} (h : Keeps M s t) (k : M.testBit 17 = false) : t.mod = s.mod := h.all .mod k
theorem Keeps.prot {M : Nat} {s t : State} (h : Keeps M s t) (k : M.testBit 18 = false) : t.prot = s.prot := h.all .prot k
theorem Keeps.dt {M : Nat} {s t : State} (h : Keeps M s t) (k : M.testBit 19 = false) : t.dt = s.dt := h.all .dt k
theorem Keeps.le {M : Nat} {s t : State} (h : Keeps M s t) (k : M.testBit 20 = false) : t.le = s.le := h.all .le k
theorem Keeps.ring {M : Nat} {s t : State} (h : Keeps M s t) (k : M.testBit 21 = false) : t.ring = s.ring := h.all .ring k
theorem Keeps.hk {M : Nat} {s t : State} (h : Keeps M s t) (k : M.testBit 22 = false) : t.hk = s.hk := h.all .hk k
theorem Keeps.aux {M : Nat} {s t : State} (h : Keeps M s t) (k : M.testBit 23 = false) : t.aux = s.aux := h.all .aux k
theorem Keeps.pos {M : Nat} {s t : State} (h : Keeps M s t) (k : M.testBit 24 = false) : t.pos = s.pos := h.all .pos k
theorem Keeps.safe {M : Nat} {s t : State} (h : Keeps M s t) (k : M.testBit 25 = false) : t.safe = s.safe := h.all .safe k
theorem Keeps.en {M : Nat} {s t : State} (h : Keeps M s t) (k : M.testBit 26 = false) : t.en = s.en := h.all .en k
theorem Keeps.fw {M : Nat} {s t : State} (h : Keeps M s t) (k : M.testBit 27 = false) : t.fw = s.fw := h.all .fw k

/-- A frame over the listed parts. -/
theorem only_of {l : List Part} {s t : State} (h : Keeps (maskOf l) s t) : Only l s t := h.only (Nat.and_self _)

end Sys2Proof.Machine
end

