-- ==== Sys2Proof/Laws/Faults.lean ====
section
/-!
SUPPORT. The fault collector: a firing counts its source, whatever else it does.
-/

namespace Sys2Proof.Machine

theorem attic_firings (s : State) (a b c : Nat) (args : Bytes) : (s.attic a b c args).faults.firings = s.faults.firings := rfl

theorem faultPin_firings (s : State) : s.faultPin.faults.firings = s.faults.firings := by
  unfold State.faultPin
  dsimp only
  split
  · rfl
  · obtain ⟨m, _, e⟩ := irqSince_eq s ((s.updFaults fun f => { f with pinLow := s.faults.pinWanted }).updHatch fun h =>
      { h with faultPinChanged := true })
    rw [e]
    rfl

theorem fireNote_firings (s : State) (src inst : Nat) (t : Option Nat) (f r : Nat) (args : Bytes) (log : Bool) :
    (s.fireNote src inst t f r args log).faults.firings = s.faults.firings := by
  unfold State.fireNote
  dsimp only
  rw [attic_firings, (note_keeps (M := 8304) (by decide) (Keeps.refl _ _)).faults (by decide)]

theorem react_firings (s : State) (r src inst rec_ : Nat) : (s.react r src inst rec_).faults.firings = s.faults.firings := by
  unfold State.react
  dsimp only
  repeat' split
  all_goals rfl

theorem fireOpen_firings (s : State) (src inst react : Nat) (pin inj : Bool) (args : Bytes) (log : Bool) :
    (s.fireOpen src inst react pin inj args log).faults.firings = s.faults.firings := by
  unfold State.fireOpen
  split <;> dsimp only <;> rw [react_firings, fireNote_firings, faultPin_firings] <;> rfl

theorem fireMerge_firings (s : State) (r : FaultRec) (c : Bool) (src inst react : Nat) (pin inj : Bool) (args : Bytes) (log : Bool) :
    (s.fireMerge r c src inst react pin inj args log).faults.firings = s.faults.firings := by
  unfold State.fireMerge
  dsimp only
  split
  · rw [react_firings, fireNote_firings, faultPin_firings]
    split <;> rfl
  · rw [fireNote_firings, faultPin_firings]
    split <;> rfl

/-- A firing of a source of the table counts it; every other source keeps its count. -/
theorem fireWith_firings (s : State) {src : Nat} (h : (faultSource src).isSome) (inst : Nat) (args : Bytes) (inj : Bool) (limit : Nat) :
    (s.fireWith src inst args inj limit).faults.firings = s.faults.firings.set src (satN 32 (s.faults.firings.get 0 src + 1)) := by
  unfold State.fireWith
  split
  · rename_i e
    rw [e] at h
    cases h
  · dsimp only
    repeat' split
    all_goals first
      | (rw [fireMerge_firings]; rfl)
      | (rw [fireOpen_firings]; rfl)
      | (rw [fireNote_firings]; rfl)

/-- A firing has counted its source. -/
theorem fire_fired (s : State) {src : Nat} (h : (faultSource src).isSome) (inst : Nat) (args : Bytes) : s.Fired (s.fire src inst args) src := by
  unfold State.Fired State.fire
  rw [fireWith_firings s h]
  simp only [Tab.get_set, satN]
  split <;> omega

/-- A condition entered has counted its source. -/
theorem condOn_fired (s : State) {src inst sub : Nat} (h : (faultSource src).isSome) (k : s.faults.present.contains { src, inst, sub } = false)
    (args : Bytes) : s.Fired (s.condOn src inst sub args) src := by
  unfold State.condOn
  simp only [k, Bool.false_eq_true, if_false]
  exact fire_fired (s.updFaults fun f => { f with present := f.present ++ [{ src, inst, sub }] }) h inst args

/-- A firing after effects that leave the counts alone. -/
theorem State.Fired.from {s u t : State} {src : Nat} (h : u.Fired t src) (k : u.faults.firings = s.faults.firings) : s.Fired t src := by
  unfold State.Fired at *
  rw [h, k]

end Sys2Proof.Machine
end

