-- ==== Sys2Proof/Laws/Lanes.lean ====
section
/-!
SUPPORT. Lanes: what a change of state and an attempt leave in the lane and in every other.
-/

namespace Sys2Proof.Machine

/-- A lane put into a state. -/
theorem setLane_lane (s : State) (l m : Nat) (st : LaneSt) : (s.setLane l st).lane m =
    if m = l then (s.lane l).enter st s.mono else s.lane m := by
  have key : (s.setLane l st).lanes = (s.modLane l fun l => l.enter st s.mono).lanes := by
    unfold State.setLane
    dsimp only
    split <;> (try rw [(later_keeps (M := 8) (by decide) (Keeps.refl _ _)).lanes (by decide)]) <;> split <;>
      first
        | rfl
        | rw [(linkLeave_keeps (M := 65544) (by decide) (Keeps.refl _ _)).lanes (by decide)]
  by_cases e : m = l
  · subst e
    rw [if_pos rfl]
    unfold State.lane
    rw [key]
    exact lane_modLane s m _
  · rw [if_neg e]
    unfold State.lane
    rw [key]
    exact lane_modLane_ne s e _

@[simp] theorem setLane_lane_same (s : State) (l : Nat) (st : LaneSt) : (s.setLane l st).lane l = (s.lane l).enter st s.mono := by
  rw [setLane_lane, if_pos rfl]

@[simp] theorem setLane_lane_ne (s : State) {l m : Nat} (h : m ≠ l) (st : LaneSt) : (s.setLane l st).lane m = s.lane m := by
  rw [setLane_lane, if_neg h]

@[simp] theorem bump_lane (s : State) (id inst field m : Nat) : (s.bump id inst field).lane m = s.lane m := rfl

@[simp] theorem tookFree_lane (s : State) (m : Nat) : s.tookFree.lane m = s.lane m := rfl

/-- What goes out on a lane's pins changes what the transmitter holds of it, and nothing else of the lane or of another. -/
theorem putOut_lane (s : State) (l m : Nat) (x : List Nat) : ∃ y z, (s.putOut l x).lane m =
    if m = l then { s.lane l with txSym := y, burst := false, lineOut := z } else s.lane m := by
  unfold State.putOut
  dsimp only
  by_cases e : m = l
  · subst e
    exact ⟨_, _, by rw [if_pos rfl, lane_modLane]⟩
  · exact ⟨0, [], by rw [if_neg e, lane_modLane_ne _ e]⟩

/-- An attempt started. -/
theorem startAttempt_lane (s : State) (l n : Nat) : ((s.startAttempt l n).lane l).st = .trainCdr ∧ ((s.startAttempt l n).lane l).attempt = n ∧
    ((s.startAttempt l n).lane l).attemptAt = s.mono ∧ (∀ m, m ≠ l → (s.startAttempt l n).lane m = s.lane m) ∧
    ((s.startAttempt l n).lane l).test = { (s.lane l).test with mode := 0, chkLock := false } := by
  unfold State.startAttempt
  dsimp only
  obtain ⟨y, z, e⟩ := putOut_lane ((((s.setLane l .trainCdr).bump 0x040B l 3).modLane l fun k =>
      { k with attempt := n, attemptAt := s.mono, tried := 0, best := none, presetFixed := decide (s.pu 0x0406 l 0 1 ≠ 0xFF),
               preset := if s.pu 0x0406 l 0 1 = 0xFF then 0 else s.pu 0x0406 l 0 1, hist := [], rxSym := 0, eyeAt := s.mono }).tookFree.burstDue l)
    l l (patSymbols 0 64 s.seed13).1
  rw [if_pos rfl] at e
  refine ⟨?_, ?_, ?_, fun m h => ?_, ?_⟩
  · rw [e]; simp [State.burstDue, Lane.enter]
  · rw [e]; simp [State.burstDue]
  · rw [e]; simp [State.burstDue]
  · obtain ⟨y, z, e⟩ := putOut_lane ((((s.setLane l .trainCdr).bump 0x040B l 3).modLane l fun k =>
        { k with attempt := n, attemptAt := s.mono, tried := 0, best := none, presetFixed := decide (s.pu 0x0406 l 0 1 ≠ 0xFF),
                 preset := if s.pu 0x0406 l 0 1 = 0xFF then 0 else s.pu 0x0406 l 0 1, hist := [], rxSym := 0, eyeAt := s.mono }).tookFree.burstDue l)
      l m (patSymbols 0 64 s.seed13).1
    rw [e, if_neg h]
    simp [State.burstDue, h]
  · rw [e]; simp [State.burstDue, Lane.enter]

/-- An attempt with a fresh retry count, OFF, or HALTED while the lane is held so. -/
theorem freshAttempt_lane (s : State) (l : Nat) : ((s.freshAttempt l).lane l).st = s.freshSt l ∧
    (∀ m, m ≠ l → (s.freshAttempt l).lane m = s.lane m) ∧
    ((s.freshAttempt l).lane l).test = { (s.lane l).test with mode := 0, chkLock := false } := by
  unfold State.freshAttempt State.freshSt
  by_cases h : s.laneUnused l = true ∨ (s.rack (rackOf l)).st ≠ .locked
  · have k : (s.laneUnused l || decide ((s.rack (rackOf l)).st ≠ .locked)) = true := by simpa using h
    rw [if_pos k, if_pos h]
    exact ⟨by simp [Lane.enter], fun m e => by simp [e], by simp [Lane.enter]⟩
  · have k : ¬(s.laneUnused l || decide ((s.rack (rackOf l)).st ≠ .locked)) = true := by simpa using h
    rw [if_neg k, if_neg h]
    by_cases g : s.laneHeld l = true
    · rw [if_pos g, if_pos g]
      exact ⟨by simp [Lane.enter], fun m e => by simp [e], by simp [Lane.enter]⟩
    · rw [if_neg g, if_neg g]
      obtain ⟨a, _, _, b, c⟩ := startAttempt_lane s l 0
      exact ⟨a, b, c⟩

/-- A loss of block lock. -/
theorem lockLoss_lane (s : State) (l : Nat) : ((s.lockLoss l).lane l).st = .hunt ∧ ∀ m, m ≠ l → (s.lockLoss l).lane m = s.lane m := by
  have key : ∀ m, (s.lockLoss l).lane m = (s.enterHunt l).lane m := by
    intro m
    unfold State.lockLoss
    split
    · rfl
    · unfold State.lane
      rw [(fire_keeps (M := 8440) (by decide) (Keeps.refl _ (s.enterHunt l))).lanes (by decide)]
  refine ⟨?_, fun m h => ?_⟩
  · rw [key]
    unfold State.enterHunt
    rw [lane_modLane, bump_lane, setLane_lane_same]; rfl
  · rw [key]
    unfold State.enterHunt
    rw [lane_modLane_ne _ h, bump_lane, setLane_lane_ne _ h]

end Sys2Proof.Machine
end

