-- ==== Sys2Proof/Laws/Links.lean ====
section
/-!
SUPPORT. Links: what the reception of any valid block does on a cell lane.
-/

namespace Sys2Proof.Machine

/-- A valid block on a cell lane counts, marks its lane and link, and ends an upstream loss; no other part changes. -/
theorem rxValid_cell {M : Nat} {s : State} (hM : Sub 82112 M) {t : State} {lane : Nat} {h : RxHeader} (hl : lane < 128)
    (k : Keeps M s t) : Keeps M s (t.rxValid lane h) := by
  unfold State.rxValid
  dsimp only
  have e : ¬ 130 ≤ lane := by omega
  simp only [e, if_false]
  have a : Keeps M s ((t.bump 0x040B lane 0).modLane lane fun l => { l with hist := (false :: l.hist).take 64 }) :=
    modLane_keeps (Sub.trans (by decide) hM) (bump_keeps (Sub.trans (by decide) hM) k)
  repeat' split
  all_goals
    first
      | refine condOff_keeps (Sub.trans (by decide) hM) ?_
      | skip
  all_goals
    refine modLink_keeps (Sub.trans (by decide) hM) ?_
    first
      | exact bumpBy_keeps (Sub.trans (by decide) hM) a
      | exact a

/-- The link of the lane after a valid block. -/
theorem rxValid_lnk (s : State) (lane : Nat) (h : RxHeader) (hl : lane < 130) (m : Nat) : (s.rxValid lane h).lnk m =
    if m = lane then { s.lnk lane with upSeq := some h.seq.toNat, validAt := s.mono, stale := false } else s.lnk m := by
  unfold State.rxValid
  dsimp only
  have e : ¬ 130 ≤ lane := by omega
  simp only [e, if_false]
  by_cases k : m = lane
  · subst k
    rw [if_pos rfl]
    repeat' split
    all_goals simp [State.lnk, State.condOff, State.modLink, State.bumpBy, State.bump, State.modLane]
  · rw [if_neg k]
    repeat' split
    all_goals simp [State.lnk, State.condOff, State.modLink, State.bumpBy, State.bump, State.modLane, k]

end Sys2Proof.Machine
end

