-- ==== Sys2Proof/WellFormed.lean ====
section
/-!
DEFINITION. What a command or event must satisfy to be one of the rows of the table at all: the offsets its row can name and
the ranges the operands' own rules give.
-/

namespace Sys2Proof

/-- Whether an address is a word's (R48, R50). -/
def wordOffset (a : BitVec 24) : Bool := a.toNat % 4 == 0

/-- Well-formedness of a command or event. -/
def Instr.wf : Instr → Bool
  | .lowWordRead _ a _ => a.toNat % 8 == 0
  | .highWordRead _ a => a.toNat % 8 == 4
  | .lowWordWrite _ a _ => a.toNat % 8 == 0
  | .highWordWrite _ a _ _ => a.toNat % 8 == 4
  | .registerWrite a _ _ => wordOffset a
  | .pantryHostRead a _ _ _ => wordOffset a
  | .pantryHostWrite a _ _ _ _ _ => wordOffset a
  | _ => true

end Sys2Proof
end

