-- ==== Sys2Proof/Tests/Slice0.lean ====
section
/-!
SUPPORT. Checks of the model on small states: refused ill-formed terms, values of the spec, and for each statement's clauses a state
and operands that meet its hypotheses, with what the row then does there.
-/

namespace Sys2Proof.Tests

set_option Elab.async false

open Sys2Proof Sys2Proof.Machine Host

/-! ### Helpers -/

/-- A state in which mailbox 0 runs a command with a payload. -/
def running (op : Nat) (p : Bytes) (s : State := State.reset) : State :=
  (s.modBox 0 fun b => { b with state := .active, waiting := .none, taken := some { opcode := op, length := p.length, payload := p } }).updHatch
    fun h => { h with active := [0] }

/-- The request such a mailbox runs. -/
def req (op : Nat) (p : Bytes) : Request := { opcode := op, length := p.length, payload := p }

/-- The next state, or nothing. -/
def ran (c : Instr) (s : State) : State :=
  match exec c s with
  | .next t => t
  | _ => { mono := 1 }

/-- The reply in mailbox 0 after a row. -/
def replied (c : Instr) (s : State) : Bytes := ((ran c s).box 0).reply

/-- State.reset at a tick time, as much time elapsed. -/
def at_ (t : Nat) : State := { State.reset with mono := t, time := { State.reset.time with tick := t } }

/-- What running names, runs. -/
theorem runs_running (op : Nat) (p : Bytes) (s : State) (h : s.twin.epoch = 0) : (running op p s).Runs 0 op (req op p) := by
  refine ⟨?_, ?_, ?_, rfl, ?_, ?_⟩ <;> simp [running, req, h, State.modBox, State.box, State.myTurn]

/-- Nothing turns its write away. -/
theorem writes_running (op : Nat) (p : Bytes) (s : State) (pg : Nat) (h : s.twin.handoverUntil = none) (k : s.fw.pkg = none)
    (m : s.hasStandby = false) : (running op p s).Writes 0 pg := by
  refine ⟨h, ?_, by unfold State.forwardBarred; rw [show (running op p s).hasStandby = false from m]; rfl⟩
  unfold State.pkgHolds
  have e : (running op p s).fw.pkg = none := k
  rw [e]

/-- An active with a standby, its twin link up. -/
def paired (s : State := State.reset) : State :=
  ((s.setParam 0x0D02 noInst [1, 0, 0, 0, 50, 0, 0, 0]).updTwin fun t => { t with role := .active, paired := true, peerRole := some 2, peerAlive := true }).modLane
    130 fun l => { l with st := .linked }

theorem paired_stands : (paired State.reset).hasStandby = true ∧ (paired State.reset).forwardBarred = false := by decide

/-! ### Chapters 01 and 06 -/

/-- An MV cell's entry: enabled, string and position, VCAP_RATED 1000, switches mapped to bits 0 to 3. -/
def mvEntry (str pos : Nat) : Bytes :=
  ([1, 1, BitVec.ofNat 8 str, BitVec.ofNat 8 pos, 0xE8, 3] : Bytes) ++ List.replicate 10 0 ++ [0x80, 0x90, 0x81, 0x91] ++ List.replicate 108 0

/-- An MV cell of string 0 on lane 0. -/
def oneCell (s : State) : State :=
  s.updRoll fun r => { r with working := { cells := [(0, mvEntry 0 0)] }, shadow := { cells := [(0, mvEntry 0 0)] } }

/-- The same with its link up and authenticated. -/
def linkedCell (s : State) : State := ((oneCell s).modLane 0 fun l => { l with st := .linked }).modLink 0 fun l => { l with auth := .passed }

def w_rollLoad : State := running 0x0310 (leBytes 4 0 ++ [127, 1, 0, 0])
def w_rollCommit : State := running 0x0311 (leBytes 4 0) (State.reset.updRoll fun r => { r with shadow := { cells := [(0, mvEntry 0 0)] } })
def w_rollClash : State := running 0x0311 (leBytes 4 7)
def w_rollRead : State := running 0x0312 [127, 1, 0, 0]

theorem witness_RollCommands_load : w_rollLoad.Runs 0 0x0310 (req 0x0310 (leBytes 4 0 ++ [127, 1, 0, 0])) ∧ w_rollLoad.Writes 0 3 ∧
    replied (.rollLoad 0) w_rollLoad = [0, 0, 0, 0, 0, 0, 1, 0, 1] :=
  ⟨runs_running _ _ _ rfl, writes_running _ _ _ _ rfl rfl rfl, by decide⟩

def w_shadow : Tab Bytes := w_rollCommit.roll.shadow
theorem w_shadow_cells : w_shadow = { cells := [(0, mvEntry 0 0)] } := rfl

theorem witness_RollCommands_commit : w_rollCommit.Runs 0 0x0311 (req 0x0311 (leBytes 4 0)) ∧ w_rollCommit.Writes 0 3 ∧
    w_rollCommit.roll.pend = none ∧ w_rollCommit.setReason w_rollCommit.roll.shadow = none ∧
    (∀ l v, w_shadow.get? l = some v → v.length = 128) ∧
    (ran (.rollCommit 0) w_rollCommit).roll.gen = 1 ∧ (ran (.rollCommit 0) w_rollCommit).entry 0 = mvEntry 0 0 := by
  refine ⟨runs_running _ _ _ rfl, writes_running _ _ _ _ rfl rfl rfl, rfl, by decide, fun l v h => ?_, by decide, by decide⟩
  rw [w_shadow_cells] at h
  unfold Tab.get? tabFind tabFind at h
  split at h <;> cases h
  decide +kernel

def w_rollBusy : State := running 0x0311 (leBytes 4 0) (State.reset.updRoll fun r => { r with pend := some { entries := {}, left := [3], since := 0 } })
def w_rollBad : State := running 0x0311 (leBytes 4 0) (State.reset.updRoll fun r => { r with shadow := { cells := [(5, [9])] } })

theorem witness_RollCommands_clash : w_rollClash.Runs 0 0x0311 (req 0x0311 (leBytes 4 7)) ∧ w_rollClash.Writes 0 3 ∧
    (replied (.rollCommit 0) w_rollClash).take 16 = [3, 0, 0, 0, 0, 0, 12, 0, 0, 0, 0, 0, 0xFF, 0x0D, 0, 0] ∧
    w_rollBusy.Writes 0 3 ∧ w_rollBusy.roll.pend.isSome = true ∧ (replied (.rollCommit 0) w_rollBusy).take 8 = [1, 0, 0, 0, 0, 0, 4, 0] ∧
    w_rollBad.Writes 0 3 ∧ w_rollBad.setReason w_rollBad.roll.shadow = some (5, 1) ∧
    (replied (.rollCommit 0) w_rollBad).take 14 = [4, 0, 0, 0, 0, 0, 12, 0, 0, 0, 0, 0, 5, 1] :=
  ⟨runs_running _ _ _ rfl, writes_running _ _ _ _ rfl rfl rfl, by decide, writes_running _ _ _ _ rfl rfl rfl, by decide, by decide,
    writes_running _ _ _ _ rfl rfl rfl, by decide, by decide⟩

theorem witness_RollCommands_read : w_rollRead.Runs 0 0x0312 (req 0x0312 [127, 1, 0, 0]) ∧
    ((ran (.rollRead 0) w_rollRead).box 0).state = .done :=
  ⟨runs_running _ _ _ rfl, by decide⟩

def w_strRun : State := (oneCell (at_ 500000)).modStr 0 fun y => { y with st := .running, stopReq := true, mode := 2 }
def w_strPlan : State := State.reset.modStr 15 fun y => { y with plan := some { at_ := 0 } }
def w_strFirst : State := (oneCell (at_ 500000)).modStr 0 fun y => { y with st := .starting, o0 := 500000 }
def w_strStop : State := (oneCell (at_ 500000)).modStr 0 fun y => { y with st := .stopping, stopAt := some 500000 }
def w_shelf : State := (at_ 500000).modMl 127 fun l => { l with shelf := [{ time := 500000, sent := true }, { time := 500001, sent := true }] }

def w_strPend : State := (at_ 400000).updRoll fun r =>
  { r with working := { cells := [(3, mvEntry 0 1)] }, pend := some { entries := { cells := [(3, mvEntry 0 0)] }, left := [3], since := 400000 } }
def w_strPlans : State := (oneCell (at_ 500000)).modStr 0 fun y => { y with st := .running, mode := 3 }
def w_strO0 : State := (oneCell (at_ 500000)).modStr 0 fun y => { y with st := .starting, mode := 1, first := true, o0 := 440000 }

theorem witness_StringPeriods_stopped : ((at_ 400000).str 15).next ≤ (at_ 400000).now ∧ ((at_ 400000).str 15).st = .stopped ∧
    (at_ 400000).roll.pend = none ∧ (at_ 400000).twin.resyncIn = false ∧
    ((ran (.stringBoundary 15) (at_ 400000)).str 15).next = 800000 ∧ (at_ 399999).now < ((at_ 399999).str 15).next := by decide

theorem witness_StringPeriods_adopts : (w_strPend.str 0).next ≤ w_strPend.now ∧ w_strPend.twin.resyncIn = false ∧ w_strPend.strOf 3 = 0 ∧
    (ran (.stringBoundary 0) w_strPend).entry 3 = mvEntry 0 0 ∧ (ran (.stringBoundary 0) w_strPend).roll.pend = none := by decide +kernel

theorem witness_StringPeriods_plans : (w_strPlans.str 0).next ≤ w_strPlans.now ∧ w_strPlans.roll.pend = none ∧
    ((ran (.stringBoundary 0) w_strPlans).str 0).plan.isSome = true ∧ (w_strO0.str 0).next + w_strO0.modDelay 0 = (w_strO0.str 0).o0 ∧
    ((ran (.stringBoundary 0) w_strO0).str 0).k = 0 ∧ ((ran (.stringBoundary 0) w_strO0).str 0).plan.isSome = true := by decide +kernel

theorem witness_StringPeriods_stop : (w_strRun.str 0).next ≤ w_strRun.now ∧ (w_strRun.str 0).st = .running ∧
    (w_strRun.str 0).stopReq = true ∧ (w_strRun.str 0).plan = none ∧ w_strRun.roll.pend = none ∧ w_strRun.twin.resyncIn = false ∧
    ((ran (.stringBoundary 0) w_strRun).str 0).stopAt = some 440000 := by decide

theorem witness_StringPeriods_plan : (w_strPlan.str 15).plan.isSome = true ∧ ((ran (.planComplete 15) w_strPlan).str 15).plan = none := by
  decide

def w_strByp : State := w_strFirst.updRoll fun r => { r with working := { cells := [(0, (mvEntry 0 0).set 1 3)] } }

theorem witness_StringPeriods_first : (w_strFirst.str 0).st = .starting ∧ (w_strFirst.str 0).first = false ∧
    (w_strFirst.str 0).o0 ≤ w_strFirst.now ∧ (∀ l ∈ w_strFirst.activeMembers 0, eType (w_strFirst.entry l) = 1 → eStartByp (w_strFirst.entry l) = false) ∧
    ((ran (.stringFirstOutput 0) w_strFirst).str 0).st = .running ∧ w_strByp.activeMembers 0 = [0] ∧ eStartByp (w_strByp.entry 0) = true ∧
    ((ran (.stringFirstOutput 0) w_strByp).byp 0).held = some 8 := by decide +kernel

theorem witness_StringPeriods_last : (w_strStop.str 0).stopAt = some 500000 ∧ (w_strStop.str 0).st = .stopping ∧ 500000 ≤ w_strStop.now ∧
    ((ran (.stringStopOutput 0) w_strStop).str 0).st = .stopped := by decide

theorem witness_StringPeriods_shelf : ((ran (.shelfEntryExpire 127) w_shelf).ml 127).shelf = [{ time := 500001, sent := true }] := by decide

def w_start : State := running 0x0820 ([0, 0, 0, 0] ++ leBytes 4 4000000) ((linkedCell (at_ 0)).setParam 0x0802 0 [2])
def w_startDark : State := running 0x0820 ([0, 0, 0, 0] ++ leBytes 4 4000000) ((oneCell (at_ 0)).setParam 0x0802 0 [2])
def w_startRide : State := w_start.modRide fun r => { r with st := .sync }
def w_stop : State := running 0x0821 [15, 0, 0, 0] (State.reset.modStr 15 fun y => { y with st := .running })
def w_stopStart : State := running 0x0821 [15, 0, 0, 0] (State.reset.modStr 15 fun y => { y with st := .starting, o0 := 7 })
def w_trippedStart : State := running 0x0820 [15, 0, 0, 0, 0, 0, 0, 0] (State.reset.modStr 15 fun y => { y with st := .tripped })
def w_raw (word : Nat) : State := running 0x0822 ([0, 1, 0, 0, 0, 0] ++ leBytes 2 word ++ leBytes 4 1000000)
  ((oneCell (at_ 500000)).modStr 0 fun y => { y with st := .running, mode := 4 })
def rawOf (word : Nat) : RawRec := { lane := 0, node := false, word, short := 1000000 }

theorem witness_StringCommands_start : w_start.Runs 0 0x0820 (req 0x0820 ([0, 0, 0, 0] ++ leBytes 4 4000000)) ∧ w_start.Writes 0 8 ∧
    w_start.startRefusal 0 4000000 = none ∧ w_start.prot.ride.st.restarting = false ∧
    (∀ l ∈ w_start.lanesOf 0, w_start.workingLink l = true) ∧
    replied (.stringStart 0) w_start = [0, 0, 0, 0, 0, 0, 8, 0] ++ leBytes 4 3960000 ++ [1, 0, 0, 0] ∧
    w_startDark.workingLink 0 = false ∧ w_startDark.darkExempt 0 = false ∧ ((ran (.stringStart 0) w_startDark).byp 0).held = some 3 :=
  ⟨runs_running _ _ _ rfl, writes_running _ _ _ _ rfl rfl rfl, by decide +kernel, by decide +kernel, by decide +kernel, by decide +kernel, by decide +kernel, by decide +kernel, by decide +kernel⟩

theorem witness_StringCommands_refused : w_trippedStart.Runs 0 0x0820 (req 0x0820 [15, 0, 0, 0, 0, 0, 0, 0]) ∧ w_trippedStart.Writes 0 8 ∧
    (w_trippedStart.str 15).st = .tripped ∧ replied (.stringStart 0) w_trippedStart = [7, 0, 0, 0, 0, 0, 4, 0, 0x41, 0, 0xFF, 0xFF] ∧
    (w_stop.str 15).st ≠ .tripped ∧ (w_stop.str 15).st ≠ .stopped ∧ w_trippedStart.prot.ride.st.restarting = false :=
  ⟨runs_running _ _ _ rfl, writes_running _ _ _ _ rfl rfl rfl, by decide, by decide, by decide, by decide, by decide⟩

theorem witness_StringCommands_stop : w_stop.Runs 0 0x0821 (req 0x0821 [15, 0, 0, 0]) ∧ w_stop.Writes 0 8 ∧ (w_stop.str 15).st = .running ∧
    replied (.stringStop 0) w_stop = [0, 0, 0, 0, 0, 0, 4, 0] ++ leBytes 4 440000 ∧ w_stopStart.Writes 0 8 ∧
    w_stopStart.Runs 0 0x0821 (req 0x0821 [15, 0, 0, 0]) ∧ (w_stopStart.str 15).st = .starting ∧
    replied (.stringStop 0) w_stopStart = [0, 0, 0, 0, 0, 0, 4, 0, 7, 0, 0, 0] :=
  ⟨runs_running _ _ _ rfl, writes_running _ _ _ _ rfl rfl rfl, by decide, by decide, writes_running _ _ _ _ rfl rfl rfl,
    runs_running _ _ _ rfl, by decide, by decide⟩

theorem witness_StringCommands_raw : (w_raw 9).Runs 0 0x0822 (req 0x0822 ([0, 1, 0, 0, 0, 0] ++ leBytes 2 9 ++ leBytes 4 1000000)) ∧
    (w_raw 9).Writes 0 8 ∧ ((w_raw 9).str 0).st = .running ∧ ((w_raw 9).str 0).mode = 4 ∧ (w_raw 9).rawReason 0 (rawOf 9) = 0 ∧
    rawRecords ([0, 1, 0, 0, 0, 0] ++ leBytes 2 9 ++ leBytes 4 1000000) = [rawOf 9] ∧ (w_raw 9).rawRoom [rawOf 9] = true ∧
    ((ran (.rawEdgeLoad 0) (w_raw 9)).ml 0).rawWord = 9 ∧
    (w_raw 3).rawReason 0 (rawOf 3) = 0x4A ∧ replied (.rawEdgeLoad 0) (w_raw 3) = [4, 0, 0, 0, 0, 0, 4, 0, 0, 0, 0x4A, 0] :=
  ⟨runs_running _ _ _ rfl, writes_running _ _ _ _ rfl rfl rfl, by decide, by decide, by decide, by decide, by decide, by decide, by decide, by decide⟩
/-! ### Chapters 07 and 08 -/

/-- A block header of role epoch 0. -/
def hdr : RxHeader := { etag := 0, seq := 1 }

def w_dt : State := (State.reset.modLane 127 fun l => { l with st := .linked }).modDtl 127 fun d =>
  { d with legs := d.legs.set 5 { pend := [{ up := true, tOff := 100, tOn := 2500 }] },
           sent := d.sent.set 3 { time := 100, marks := [{ leg := 5, up := true, off := true, sel := true }] } }
def w_nodeWord : BitVec 96 := BitVec.ofNat 96 (110 * 2 ^ 64 + 3 * 2 ^ 56 + 5 * 2 ^ 53 + 2 ^ 52 + 2 ^ 50)
def w_dtLate : State := { w_dt with time := { w_dt.time with tick := 2500 + 32000 + w_dt.laneDelay 127 } }
def w_dtBoth : State := w_dt.modDleg 127 5 fun d => { d with pend := [{ up := true, tOff := 100, tOn := 2500, on := some { time := 2400, rising := true, kind := 1 } }] }
def w_dtReset : State := running 0x0920 [127, 1, 32, 0] (oneCell (w_dt.modDtl 127 fun d => { d with legs := d.legs.mod {} 5 fun g => { g with dtw := 9, bad := 3 } }))

theorem witness_DeadTimes_record : (w_dt.lane 127).st.receives = true ∧ w_nodeWord.toNat % 2 ^ 48 / 4 % 4 = 0 ∧ w_nodeWord.toNat / 2 ^ 48 / 4 % 4 = 1 ∧
    w_nodeWord.toNat / 2 ^ 48 / 2 ^ 5 % 8 = 5 ∧
    (w_dt.dtl 127).sent.get? (w_nodeWord.toNat / 2 ^ 48 / 2 ^ 8 % 2 ^ 8) =
      some { time := 100, marks := [{ leg := 5, up := true, off := true, sel := true }] } ∧
    (w_dt.dleg 127 5).pend = [{ up := true, tOff := 100, tOn := 2500 }] ∧
    ((ran (.nodeEdgeRx 127 hdr w_nodeWord) w_dt).dleg 127 5).pend =
      [{ up := true, tOff := 100, tOn := 2500, off := some { time := 110, rising := true, kind := 1 } }] ∧
    (w_dtBoth.counts 0x0910 127).length = 9 ∧ ((ran (.nodeEdgeRx 127 hdr w_nodeWord) w_dtBoth).dleg 127 5).pend = [] ∧
    (w_dt.dtl 127).sent.get? 4 = none := by decide

theorem witness_DeadTimes_unused : (w_dt.lane 127).st.receives = true ∧
    ((ran (.nodeEdgeRx 127 hdr 0) w_dt).dleg 127 5).pend = [{ up := true, tOff := 100, tOn := 2500 }] := by decide

theorem witness_DeadTimes_late : (∃ x ∈ (w_dtLate.dleg 127 5).pend, x.tOn + 32000 + w_dtLate.laneDelay 127 ≤ w_dtLate.now) ∧
    ((ran (.dtJudgeTimeout 127 5) w_dtLate).dleg 127 5).pend = [] ∧
    (ran (.dtJudgeTimeout 127 5) w_dtLate).counts 0x0910 127 = [0, 0, 0, 0, 1, 0, 0, 0, 0] := by decide

theorem witness_DeadTimes_reset : w_dtReset.Runs 0 0x0920 (req 0x0920 [127, 1, 32, 0]) ∧ w_dtReset.Writes 0 9 ∧
    w_dtReset.strStopped (w_dtReset.strOf 127) = true ∧ ((ran (.dtReset 0) w_dtReset).dleg 127 5).dtw = 2400 ∧
    ((ran (.dtReset 0) w_dtReset).dleg 127 5).bad = 0 ∧ replied (.dtReset 0) w_dtReset = [0, 0, 0, 0, 0, 0, 8, 0, 0, 0, 0, 0, 0, 0, 0, 0] :=
  ⟨runs_running _ _ _ rfl, writes_running _ _ _ _ rfl rfl rfl, by decide, by decide, by decide, by decide⟩

def w_sort : State := (at_ 6400).modSrt 15 fun x => { x with stat := { mean := 5, at_ := 3840, k := 2 } }
def w_order : State := (at_ 6400).modStr 15 fun y => { y with orderWait := true, k := 3 }
def w_sortRead : State := running 0x0A20 [15, 0, 0, 0] w_sort

theorem witness_SortOrders_formed : (w_sort.srt 15).stat.at_ + 2560 ≤ w_sort.now ∧ (w_sort.srt 15).formed ≠ (w_sort.srt 15).stat ∧
    ((ran (.sortStatsFormed 15) w_sort).srt 15).formed.mean = 5 := by decide

theorem witness_SortOrders_miss : (w_order.str 15).orderWait = true ∧ (w_order.str 15).bAt + 6400 ≤ w_order.now ∧
    ((ran (.twinOrderTimeout 15) w_order).srt 15).judgedK = some 3 ∧ (ran (.twinOrderTimeout 15) w_order).counts 0x0A09 15 = [0, 0, 1] := by
  decide

theorem witness_SortOrders_read : w_sortRead.Runs 0 0x0A20 (req 0x0A20 [15, 0, 0, 0]) ∧
    replied (.sortRead 0) w_sortRead = [0, 0, 0, 0, 0, 0, 8, 0, 2, 0, 0, 0, 0, 0, 0, 0] := ⟨runs_running _ _ _ rfl, by decide⟩

def w_bound : State := { at_ 400000 with le := { next := 400000 } }
def w_boundStart : State := { at_ 400000 with le := { next := 400000, startAt := some 400000 } }
def w_boundSkip : State := { at_ 400000 with le := { next := 400000, running := true, walk := some { j := 4, doneAt := 400081, loops := [], marks := [] } } }
def w_boundLate : State := { at_ 400000 with le := { next := 400000, running := true, walk := some { j := 4, doneAt := 400080, loops := [], marks := [] } } }
def w_boundStop : State := { at_ 400000 with le := { next := 400000, running := true, stopAt := some 400000 } }
def w_outset : State := { at_ 400000 with le := { outset := some (400000, [(3, 7)]) } }
def w_walk : State := { at_ 400000 with le := { walk := some { j := 4, doneAt := 400000, loops := [(511, { out := 7 })], marks := [] } } }

theorem witness_ControlBoundaries_stopped : w_bound.time.running = true ∧ w_bound.le.next ≤ w_bound.now ∧ w_bound.twin.resyncIn = false ∧
    w_bound.le.stopAt = none ∧ w_bound.le.running = false ∧ w_bound.le.startAt = none ∧
    (ran .controlBoundary w_bound).le.next = 400000 + w_bound.p0 0x0B02 ∧ (ran .controlBoundary w_bound).le.running = false := by decide

theorem witness_ControlBoundaries_start : w_boundStart.time.running = true ∧ w_boundStart.le.next ≤ w_boundStart.now ∧
    w_boundStart.le.stopAt = none ∧ w_boundStart.le.startAt = some 400000 ∧ w_boundStart.le.walk = none ∧ w_boundStart.twin.resyncIn = false ∧
    (ran .controlBoundary w_boundStart).le.running = true ∧ (ran .controlBoundary w_boundStart).le.walk.isSome = true ∧
    w_boundStop.le.stopAt = some 400000 ∧ (ran .controlBoundary w_boundStop).le.running = false := by decide

theorem witness_ControlBoundaries_skip : w_boundSkip.time.running = true ∧ w_boundSkip.le.next ≤ w_boundSkip.now ∧ w_boundSkip.twin.resyncIn = false ∧
    w_boundSkip.le.stopAt = none ∧ w_boundSkip.le.running = true ∧ w_boundSkip.le.startAt = none ∧
    w_boundSkip.le.walk = some { j := 4, doneAt := 400081, loops := [], marks := [] } ∧ (ran .controlBoundary w_boundSkip).le.skips = 1 ∧
    (ran .controlBoundary w_boundSkip).faults.firings.get 0 0x30 = 1 ∧ w_boundLate.le.walk = some { j := 4, doneAt := 400080, loops := [], marks := [] } ∧
    (ran .controlBoundary w_boundLate).le.outset = some (400080, []) ∧ (ran .controlBoundary w_boundLate).le.skips = 0 := by decide

theorem witness_ControlBoundaries_walk : w_walk.le.walk = some { j := 4, doneAt := 400000, loops := [(511, { out := 7 })], marks := [] } ∧
    400000 ≤ w_walk.now ∧ w_walk.le.outset = none ∧ ((ran .walkComplete w_walk).le.loop.get {} 511).out = 7 ∧
    (ran .walkComplete w_outset).mod.loopRef.get 0 3 = 7 ∧ (ran .walkComplete w_outset).le.outset = none := by decide

def w_loopLoad : State := running 0x0B10 (leBytes 4 0 ++ [1, 0, 255, 1, 1, 0, 0, 0])
def w_loopCommit : State := running 0x0B11 (leBytes 4 0)
def w_larderWrite : State := running 0x0B12 (leBytes 4 0 ++ leBytes 2 16383 ++ leBytes 2 1)
def w_larderRead : State := running 0x0B13 (leBytes 2 16383 ++ leBytes 2 1) (State.reset.updLe fun e => { e with larder := { cells := [(16383, 7)] } })
def w_leStart : State := running 0x0B14 []
def w_leStop : State := running 0x0B15 [] (State.reset.updLe fun e => { e with running := true, next := 9 })
def w_preset : State := running 0x0B16 [255, 1, 0, 128]

theorem witness_LoopCommands_tables : w_loopLoad.Runs 0 0x0B10 (req 0x0B10 (leBytes 4 0 ++ [1, 0, 255, 1, 1, 0, 0, 0])) ∧
    w_loopLoad.Writes 0 0x0B ∧ replied (.loopLoad 0) w_loopLoad = [0, 0, 0, 0, 0, 0, 4, 0, 1, 0, 0, 0] ∧
    w_loopCommit.Runs 0 0x0B11 (req 0x0B11 (leBytes 4 0)) ∧ w_loopCommit.Writes 0 0x0B ∧ w_loopCommit.le.pend = none ∧
    w_loopCommit.loopFailure w_loopCommit.le.shadow = none ∧ (ran (.loopCommit 0) w_loopCommit).le.gen = 1 :=
  ⟨runs_running _ _ _ rfl, writes_running _ _ _ _ rfl rfl rfl, by decide, runs_running _ _ _ rfl, writes_running _ _ _ _ rfl rfl rfl,
    rfl, by decide, by decide⟩

theorem witness_LoopCommands_larder : w_larderWrite.Runs 0 0x0B12 (req 0x0B12 (leBytes 4 0 ++ leBytes 2 16383 ++ leBytes 2 1)) ∧
    w_larderWrite.Writes 0 0x0B ∧ replied (.larderWrite 0) w_larderWrite = [0, 0, 0, 0, 0, 0, 0, 0] ∧
    w_larderRead.Runs 0 0x0B13 (req 0x0B13 (leBytes 2 16383 ++ leBytes 2 1)) ∧
    replied (.larderRead 0) w_larderRead = [0, 0, 0, 0, 0, 0, 2, 0, 7, 0] :=
  ⟨runs_running _ _ _ rfl, writes_running _ _ _ _ rfl rfl rfl, by decide, runs_running _ _ _ rfl, by decide⟩

theorem witness_LoopCommands_engine : w_leStart.Runs 0 0x0B14 (req 0x0B14 []) ∧ w_leStart.Writes 0 0x0B ∧ w_leStart.le.running = false ∧
    w_leStart.le.startAt = none ∧ w_leStart.inBudget w_leStart.le.work = true ∧
    (ran (.leStart 0) w_leStart).le.startAt = some (w_leStart.p0 0x0B02) ∧
    w_leStop.Runs 0 0x0B15 (req 0x0B15 []) ∧ w_leStop.Writes 0 0x0B ∧ (∀ n < 16, (w_leStop.str n).st = .running → w_leStop.pu 0x080A n 0 1 = 0) ∧
    (ran (.leStop 0) w_leStop).le.stopAt = some 9 ∧ w_preset.Runs 0 0x0B16 (req 0x0B16 (leBytes 2 511 ++ leBytesI 2 (-32768))) ∧
    w_preset.Writes 0 0x0B ∧ (ran (.loopPreset 0) w_preset).le.presets = [(511, -32768)] :=
  ⟨runs_running _ _ _ rfl, writes_running _ _ _ _ rfl rfl rfl, by decide, by decide, by decide, by decide, runs_running _ _ _ rfl,
    writes_running _ _ _ _ rfl rfl rfl, by decide, by decide, runs_running _ _ _ rfl, writes_running _ _ _ _ rfl rfl rfl, by decide⟩

/-! ### Chapter 09 -/

def w_trip : State := running 0x0C20 [15, 0, 0, 0] ((at_ 5).modPrt 15 fun p => { p with mask := 2, first := 1 })
def w_tripAgain : State := w_trip.modStr 15 fun y => { y with st := .tripped }
def w_stale : State := ((at_ 5).setParam 0x0C03 15 [0, 0, 0, 0, 255, 255, 0, 0]).modStr 15 fun y => { y with st := .running }
def w_uvArm : State := (at_ 8000000000).modStr 15 fun y => { y with st := .running }
def w_clear : State := running 0x0C21 [15, 0, 2, 0] (w_tripAgain)
def w_clearNot : State := running 0x0C21 [15, 0, 255, 255] (w_tripAgain.modPrt 15 fun p => { p with mask := 2 ^ 10 })

theorem witness_Trips_command : w_trip.Runs 0 0x0C20 (req 0x0C20 [15, 0, 0, 0]) ∧ w_trip.Writes 0 0x0C ∧
    (∀ n < 8, (w_trip.box n).waiting = .none) ∧ (w_trip.str 15).st ≠ .tripped ∧ (w_tripAgain.str 15).st = .tripped ∧
    ((ran (.stringTrip 0) w_trip).prt 15).mask = 2 ^ 12 ∧ ((ran (.stringTrip 0) w_tripAgain).prt 15).mask = 2 + 2 ^ 12 ∧
    replied (.stringTrip 0) w_trip = [0, 0, 0, 0, 0, 0, 4, 0, 5, 0, 0, 0] :=
  ⟨runs_running _ _ _ rfl, writes_running _ _ _ _ rfl rfl rfl, by decide, by decide, by decide, by decide, by decide, by decide⟩

theorem witness_Trips_events : (w_stale.str 15).st = .running ∧ w_stale.sourceStale 15 = true ∧
    ((ran (.protSourceStale 15) w_stale).prt 15).mask = 64 ∧ (w_uvArm.str 15).st = .running ∧
    (w_uvArm.str 15).o0 + w_uvArm.pu 0x0C06 15 4 4 ≤ w_uvArm.now ∧ ((ran (.uvArmExpire 15) w_uvArm).prt 15).uvArmed = true := by decide

theorem witness_Trips_clear : w_clear.Runs 0 0x0C21 (req 0x0C21 [15, 0, 2, 0]) ∧ w_clear.Writes 0 0x0C ∧ (w_clear.prt 15).mask = 2 ∧
    (w_clear.str 15).st = .tripped ∧ w_clear.persisting 15 = 0 ∧ replied (.tripClear 0) w_clear = [0, 0, 0, 0, 0, 0, 4, 0, 2, 0, 0, 0] ∧
    w_clearNot.Runs 0 0x0C21 (req 0x0C21 [15, 0, 255, 255]) ∧ w_clearNot.Writes 0 0x0C ∧ w_clearNot.persisting 15 ≠ 0 ∧
    replied (.tripClear 0) w_clearNot = [7, 0, 0, 0, 0, 0, 4, 0, 0, 0, 0, 4] :=
  ⟨runs_running _ _ _ rfl, writes_running _ _ _ _ rfl rfl rfl, by decide, by decide, by decide, by decide, runs_running _ _ _ rfl,
    writes_running _ _ _ _ rfl rfl rfl, by decide, by decide⟩

def w_bypass (m : BitVec 8) (st : StrSt) : State := running 0x0C22 [0, m, 0, 0] (((oneCell (at_ 9)).modStr 0 fun y => { y with st }).setParam 0x0C06 0 [0, 0, 1, 0, 0, 0, 0, 0])
def w_release (st : StrSt) : State := running 0x0C23 [0, 0, 0, 0] (((((oneCell (at_ 9)).modStr 0 fun y => { y with st }).modByp 0 fun b =>
  { b with held := some 1, enterAt := some 3 }).modLane 0 fun l => { l with st := .linked }).modLink 0 fun l => { l with auth := .passed, stale := false })

theorem witness_Bypasses_now : (w_bypass 1 .stopped).Runs 0 0x0C22 (req 0x0C22 [0, 1, 0, 0]) ∧ (w_bypass 1 .stopped).Writes 0 0x0C ∧
    (∀ n < 8, ((w_bypass 1 .stopped).box n).waiting = .none) ∧ eEnabled ((w_bypass 1 .stopped).entry 0) = true ∧
    eType ((w_bypass 1 .stopped).entry 0) = 1 ∧ (w_bypass 1 .stopped).bypassed 0 = false ∧
    ((w_bypass 1 .stopped).str ((w_bypass 1 .stopped).strOf 0)).st = .stopped ∧
    ((w_bypass 1 .stopped).record 0 1).limitTrips 0 = false ∧ ((ran (.cellBypass 0) (w_bypass 1 .stopped)).byp 0).enterAt = some 9 :=
  ⟨runs_running _ _ _ rfl, writes_running _ _ _ _ rfl rfl rfl, by decide, by decide, by decide, by decide, by decide, by decide, by decide⟩

theorem witness_Bypasses_planned : (w_bypass 0 .running).Runs 0 0x0C22 (req 0x0C22 [0, 0, 0, 0]) ∧ (w_bypass 0 .running).Writes 0 0x0C ∧
    ((w_bypass 0 .running).str ((w_bypass 0 .running).strOf 0)).st = .running ∧
    (w_bypass 0 .running).bypassed 0 = false ∧ ((w_bypass 0 .running).record 0 1).limitTrips 0 = false ∧
    ((ran (.cellBypass 0) (w_bypass 0 .running)).box 0).waiting = .cellBypass 0 :=
  ⟨runs_running _ _ _ rfl, writes_running _ _ _ _ rfl rfl rfl, by decide, by decide, by decide, by decide⟩

theorem witness_Bypasses_release : (w_release .stopped).Runs 0 0x0C23 (req 0x0C23 [0, 0, 0, 0]) ∧ (w_release .stopped).Writes 0 0x0C ∧
    (w_release .stopped).releaseRefusal 0 = none ∧ ((w_release .stopped).str ((w_release .stopped).strOf 0)).st ≠ .running ∧
    ((ran (.cellRelease 0) (w_release .stopped)).byp 0).held = none :=
  ⟨runs_running _ _ _ rfl, writes_running _ _ _ _ rfl rfl rfl, by decide, by decide, by decide⟩

theorem witness_Bypasses_releaseRunning : ((w_release .running).setParam 0x0C05 0 (List.replicate 8 0)).releaseRefusal 0 = none ∧
    (((w_release .running).setParam 0x0C05 0 (List.replicate 8 0)).byp 0).enterAt.isSome = true ∧
    ((ran (.cellRelease 0) ((w_release .running).setParam 0x0C05 0 (List.replicate 8 0))).box 0).waiting = .cellRelease 0 := by decide

/-- A unit that commands its plant, in a state of the sequence. -/
def riding (t : Nat) (r : Ride) : State := { at_ t with twin := { role := .maint }, prot := { ride := r } }

def w_return : State := riding 80000000000000 { st := .dark, returnFrom := some 0 }
def w_dew : State := (riding 800000000000000 { st := .dewWait }).setParam 0x0C0E noInst [0, 0, 60, 0, 44, 1, 1, 0]
def w_dewHold : State := (oneCell (riding 800000000000000 { st := .dewWait, dewFrom := some 0 })).setParam 0x0C11 noInst
  ([0] ++ List.replicate 15 255 ++ [0, 0, 0, 0])
def w_pc : State := riding 800000000000000 { st := .precharge }
def w_sync : State := riding 800000000000000 { st := .sync }
def w_gapEnd : State := riding 80000000000000 { st := .enable, gapFrom := some 0 }
def w_gapNext : State := ((linkedCell (riding 80000000000000 { st := .enable, gapFrom := some 0 })).setParam 0x0802 0 [2]).setParam 0x0C11
  noInst ([1, 0] ++ List.replicate 14 255 ++ [0, 0, 0, 0])
def w_abort : State := running 0x0C24 [2, 0, 0, 0] (riding 5 { st := .halted, reason := 4 })

theorem witness_RideThrough_return : w_return.commanding = true ∧ w_return.prot.ride.returnFrom = some 0 ∧ w_return.prot.ride.st = .dark ∧
    0 + 8000000 * w_return.pu 0x0C0D noInst 6 2 ≤ w_return.mono ∧ bit (w_return.pu 0x0C0B noInst 0 1) 1 = false ∧
    (ran .mvReturnTimeExpire w_return).prot.ride.st = .halted ∧
    bit ((w_return.setParam 0x0C0B noInst [3, 0, 0, 0, 0, 0, 0, 0]).pu 0x0C0B noInst 0 1) 1 = true ∧
    8000000000 * w_return.pu 0x0C0E noInst 4 2 ≤ w_return.mono - w_return.prot.ride.lostAt ∧
    (ran .mvReturnTimeExpire (w_return.setParam 0x0C0B noInst [3, 0, 0, 0, 0, 0, 0, 0])).prot.ride.st = .dewWait := by decide

theorem witness_RideThrough_expire : w_dew.prot.ride.st = .dewWait ∧ w_dew.pu 0x0C0E noInst 6 2 ≠ 0 ∧
    w_dew.prot.ride.enteredMono + 480000000000 * w_dew.pu 0x0C0E noInst 6 2 ≤ w_dew.mono ∧
    (ran .dewTimeoutExpire w_dew).prot.ride.reason = 2 ∧ w_pc.prot.ride.st = .precharge ∧
    w_pc.prot.ride.enteredMono + 8000000 * w_pc.pu 0x0C0F noInst 4 4 ≤ w_pc.mono ∧ w_pc.pcStrings = [] ∧ w_pc.le.running = false ∧
    (ran .pcTimeoutExpire w_pc).prot.ride.reason = 6 ∧
    w_sync.prot.ride.st = .sync ∧ w_sync.prot.ride.enteredMono + 8000000 * w_sync.pu 0x0C10 noInst 10 2 ≤ w_sync.mono ∧
    (ran .syncTimeoutExpire w_sync).prot.ride.reason = 5 := by decide

theorem witness_RideThrough_gap : w_gapEnd.prot.ride.gapFrom = some 0 ∧ w_gapEnd.prot.ride.st = .enable ∧
    0 + 8000000 * w_gapEnd.pu 0x0C11 noInst 16 2 ≤ w_gapEnd.mono ∧ w_gapEnd.rideOrder.length ≤ w_gapEnd.prot.ride.index + 1 ∧
    (ran .stageGapExpire w_gapEnd).prot.ride.st = .grid := by decide

theorem witness_RideThrough_next : w_gapNext.prot.ride.gapFrom = some 0 ∧ w_gapNext.prot.ride.st = .enable ∧
    0 + 8000000 * w_gapNext.pu 0x0C11 noInst 16 2 ≤ w_gapNext.mono ∧ w_gapNext.rideOrder.drop (w_gapNext.prot.ride.index + 1) = [0] ∧
    (w_gapNext.str 0).st = .stopped ∧ 0 ∉ w_gapNext.prot.ride.stopped ∧ (∀ l ∈ w_gapNext.lanesOf 0, w_gapNext.workingLink l = true) ∧
    w_gapNext.startRefusal 0 ((w_gapNext.now + w_gapNext.modDelay 0 + 16000) % 2 ^ 32) = none ∧
    ((ran .stageGapExpire w_gapNext).str 0).st = .starting := by decide +kernel

theorem witness_RideThrough_hold : w_dewHold.commanding = true ∧ w_dewHold.prot.ride.dewFrom = some 0 ∧ w_dewHold.prot.ride.st = .dewWait ∧
    0 + 8000000000 * w_dewHold.pu 0x0C0E noInst 2 2 ≤ w_dewHold.mono ∧ (∀ n ∈ w_dewHold.pcStrings, (w_dewHold.str n).st ≠ .tripped) ∧
    0 ∈ w_dewHold.pcStrings ∧ 0 ∈ w_dewHold.activeMembers 0 ∧ w_dewHold.capNow 0 < w_dewHold.ps 0x0C0F noInst 0 2 ∧
    (ran .dewHoldExpire w_dewHold).prot.ride.st = .precharge := by decide

theorem witness_RideThrough_abort : w_abort.commanding = true ∧ w_abort.Runs 0 0x0C24 (req 0x0C24 [2, 0, 0, 0]) ∧ w_abort.Writes 0 0x0C ∧
    w_abort.prot.ride.st = .halted ∧
    replied (.rideCmd 0) w_abort = [0, 0, 0, 0, 0, 0, 4, 0, 1, 0, 0, 0] :=
  ⟨by decide, runs_running _ _ _ rfl, writes_running _ _ _ _ rfl rfl rfl, by decide, by decide⟩

/-! ### Chapter 10 -/

/-- A unit with a role, twin lanes LINKED. -/
def pairIn (r : Role) (s : State := at_ 80000000000) : State :=
  ((s.updTwin fun t => { t with role := r, paired := true, peerRole := some (if r = .active then 2 else 1), peerQualified := true, qualified := decide (r = .standby) }).modLane 130 fun l =>
    { l with st := .linked }).setParam 0x0D02 noInst [1, 0, 0, 0, 50, 0, 0, 0]

theorem takes_pairIn (r : Role) (h : RxHeader) : (pairIn r).TwinTakes .a h := ⟨by cases r <;> decide, fun q e => by cases r <;> cases e⟩

def w_tripRx : BitVec 96 := BitVec.ofNat 96 (15 * 2 ^ 72 + 4 * 2 ^ 56)
def w_ack : State := (running 0x0310 [] (pairIn .active)).modBox 0 (fun b => { b with waiting := .standbyAck 0 [7] }) |>.updTwin
  fun t => { t with fwdOut := [{ mb := 0, xfer := 3, at_ := 0 }] }

def w_ackSwitch : State := (running 0x0D11 [] (pairIn .active)).modBox 0 (fun b => { b with waiting := .standbyAck 0 [] }) |>.updTwin
  fun t => { t with fwdOut := [{ mb := 0, xfer := 3, at_ := 0 }] }
/-- An active that no standby has joined. -/
def w_alone : State := (pairIn .active).updTwin fun t => { t with paired := false, peerRole := none }

theorem witness_TwinBlocks_role : (pairIn .standby).twin.role = .standby ∧ sdiff 16 (pbits (0#96) 95 80) (pairIn .standby).twin.epoch = 0 ∧
    sdiff 16 (pbits (BitVec.ofNat 96 (65535 * 2 ^ 80)) 95 80) (pairIn .standby).twin.epoch < 0 ∧ (pairIn .standby).twin.rxB = none ∧
    (pairIn .standby).twin.rxA = none ∧ (ran (.twRoleRx .a hdr 0) (pairIn .standby)).twin.peerRole = some 0 ∧
    (ran (.twRoleRx .a hdr (BitVec.ofNat 96 (65535 * 2 ^ 80))) (pairIn .standby)).twin.roleOwed = true ∧
    (ran (.twRoleRx .a hdr (BitVec.ofNat 96 (9 * 2 ^ 80 + 2 ^ 72))) (pairIn .standby)).twin.epoch = 9 ∧
    (ran (.twCompareRx .a hdr .a 0) (pairIn .standby)).twin.rxA = some (0, 0, 0) ∧
    (ran (.twCompareRx .a hdr .b 5) (pairIn .standby)).twin.rxB = some (0, 0, 0, 5) ∧
    (ran (.twHealthRx .a hdr 0) (pairIn .standby)).twin.peerHealthAt = some 80000000000 ∧
    (pairIn .standby).twin.qualified = true ∧ (ran (.twSurrenderRx .a hdr 0) (pairIn .standby)).twin.role = .active ∧
    (ran (.twHealthRx .a { hdr with etag := 3 } (BitVec.ofNat 96 (65535 * 2 ^ 80))) (pairIn .active)).twin.roleOwed = true ∧
    (hdr.etag.toNat = 0 ∧ ({ hdr with etag := 3 } : RxHeader).etag.toNat ≠ 0) := by decide +kernel

theorem witness_TwinBlocks_split : 0 < sdiff 16 (pbits (BitVec.ofNat 96 (2 ^ 80 + 2 ^ 72)) 95 80) (pairIn .active).twin.epoch ∧
    pbits (BitVec.ofNat 96 (2 ^ 80 + 2 ^ 72)) 79 72 = 1 ∧ (pairIn .active).twin.role = .active ∧ (pairIn .active).twin.handoverUntil = none ∧
    (ran (.twRoleRx .a hdr (BitVec.ofNat 96 (2 ^ 80 + 2 ^ 72))) (pairIn .active)).twin.role = .maint := by decide +kernel

def w_joinRx : BitVec 96 := BitVec.ofNat 96 (2 * 2 ^ 72 + 2 ^ 71)

theorem witness_TwinBlocks_join : pbits w_joinRx 79 72 = 2 ∧ (w_alone).twinEn = true ∧ pbits w_joinRx 71 71 ≠ w_alone.unit ∧
    w_alone.twin.sameStepping = true ∧ w_alone.twin.paired = false ∧ (ran (.twRoleRx .a hdr w_joinRx) w_alone).twin.epoch = 1 ∧
    bits w_alone.twin.failed 7 0 = 0 := by decide +kernel

/-- A standby whose own digests are in, with the active's first record of the period. -/
def w_compare (a : Nat × Nat × Nat) : State := (pairIn .standby).updTwin fun t =>
  { t with digests := [{ j := 9, inDig := 1, outDig := 2, edgeDig := 3, stateDig := 4, cfgDig := 5 }], rxA := some a, stateEqJ := some 8 }

/-- TW_COMPARE_B of period 9. -/
def w_compareB (cfg edge state : Nat) : BitVec 96 := BitVec.ofNat 96 (cfg * 2 ^ 80 + 9 * 2 ^ 64 + edge * 2 ^ 32 + state)

theorem witness_TwinBlocks_classes : (w_compare (9, 1, 2)).twin.qualified = true ∧ (w_compare (9, 1, 2)).twin.resync = false ∧
    (w_compare (9, 1, 2)).twin.caseOpen = false ∧ ((w_compare (9, 1, 2)).twin.digests.find? fun x => x.j % 2 ^ 16 == 9).isSome = true ∧
    (ran (.twCompareRx .a hdr .b (w_compareB 6 3 4)) (w_compare (9, 1, 2))).twin.qualified = false ∧
    (ran (.twCompareRx .a hdr .b (w_compareB 5 3 4)) (w_compare (9, 0, 2))).twin.resync = true ∧
    (ran (.twCompareRx .a hdr .b (w_compareB 5 3 4)) (w_compare (9, 1, 2))).twin.classJ = 9 ∧
    (ran (.twCompareRx .a hdr .b (w_compareB 5 3 4)) (w_compare (9, 1, 0))).twin.caseOpen = true ∧
    (ran (.twCompareRx .a hdr .b (w_compareB 5 3 4)) ((w_compare (9, 1, 0)).updTwin fun t => { t with stateEqJ := none })).twin.resync = true ∧
    (ran (.twCompareRx .a hdr .a (BitVec.ofNat 96 (9 * 2 ^ 64 + 2 ^ 32 + 2))) ((w_compare (0, 0, 0)).updTwin fun t =>
      { t with rxA := none, rxB := some (5, 9, 3, 4) })).twin.classJ = 9 := by decide +kernel

theorem witness_TwinBlocks_trip : pbits w_tripRx 79 72 = 15 ∧ (pairIn .standby).inPair = true ∧
    ((pairIn .standby).str 15).st ≠ .tripped ∧ ((pairIn .standby).prt 15).ownTrip = none ∧
    ((ran (.twTripRx .a hdr w_tripRx) (pairIn .standby)).prt 15).mask = 4 ∧
    (ran (.twTripRx .a hdr w_tripRx) (pairIn .standby)).faults.firings.get 0 0x42 = 1 ∧
    (ran (.twTripRx .a hdr w_tripRx) ((pairIn .standby).modPrt 15 fun p => { p with ownTrip := some 79999968000 })).faults.firings.get 0 0x42 = 0 ∧
    (ran (.twTripRx .a hdr w_tripRx) ((pairIn .standby).modPrt 15 fun p => { p with ownTrip := some 79999967999 })).faults.firings.get 0 0x42 = 1 := by
  decide +kernel

theorem witness_TwinBlocks_chunk : (pairIn .standby).twin.fwdIn = none ∧ pbits (5#96) 87 76 = 0 ∧ pbits (5#96) 75 75 = 0 ∧
    (ran (.twFwdRx .a hdr 5) (pairIn .standby)).twin.fwdIn = some { xfer := 0, data := [0, 0, 0, 0, 0, 0, 0, 5], next := 1 } ∧
    (ran (.twFwdRx .a hdr (BitVec.ofNat 96 (2 ^ 76 + 2 ^ 75))) (pairIn .standby)).twin.fwdIn = none ∧
    ((ran (.twFwdRx .a { hdr with etag := 1 } (BitVec.ofNat 96 (2 ^ 75))) (pairIn .standby)).lnk 130).queue.length = 1 := by decide +kernel

/-- A forwarded request of which the last chunk is to come. -/
def w_lastChunk (r : Role) (head : Bytes) : State := (pairIn r).updTwin fun t => { t with fwdIn := some { xfer := 3, data := head, next := 1 } }

def w_chunk : BitVec 96 := BitVec.ofNat 96 (3 * 2 ^ 88 + 2 ^ 76 + 2 ^ 75 + 2 ^ 56)

theorem witness_TwinBlocks_apply : pbits w_chunk 95 88 = 3 ∧ pbits w_chunk 87 76 = 1 ∧ pbits w_chunk 75 75 = 1 ∧
    (ran (.twFwdRx .a hdr w_chunk) (w_lastChunk .standby [255, 255, 0x11, 0x0D, 4, 0, 0, 0])).twin.roleOwed = true ∧
    (ran (.twFwdRx .a hdr w_chunk) (w_lastChunk .active [0, 0, 0x11, 0x0D, 4, 0, 0, 0])).twin.fwdIn = none ∧
    (ran (.twFwdRx .a hdr w_chunk) (w_lastChunk .standby [0, 0, 0x11, 0x0D, 4, 0, 0, 0])).twin.fwdCount = 1 ∧
    (ran (.twFwdRx .a hdr w_chunk) (w_lastChunk .standby [0, 0, 0x16, 0x18, 8, 0, 0, 0])).fw.locked = true ∧
    (ran (.twFwdRx .a hdr (BitVec.ofNat 96 (3 * 2 ^ 88 + 2 ^ 76))) (w_lastChunk .standby [7])).twin.fwdIn =
      some { xfer := 3, data := [7, 0, 0, 0, 0, 0, 0, 0, 0], next := 2 } := by decide +kernel

theorem witness_TwinBlocks_ack : (w_ack.twin.fwdOut.find? fun f => f.xfer == pbits (BitVec.ofNat 96 (3 * 2 ^ 72)) 79 72) =
      some { mb := 0, xfer := 3, at_ := 0 } ∧ (w_ack.box 0).waiting = .standbyAck 0 [7] ∧
    (w_ack.box 0).taken = some (req 0x0310 []) ∧
    ((ran (.twAckRx .a hdr (BitVec.ofNat 96 (3 * 2 ^ 72))) w_ack).box 0).reply = [0, 0, 0, 0, 0, 0, 1, 0, 7] ∧
    ((ran (.twAckRx .a hdr (BitVec.ofNat 96 (3 * 2 ^ 72 + 2 ^ 64))) w_ack).box 0).reply = [2, 0, 0, 0, 0, 0, 4, 0, 0, 0, 255, 255] ∧
    ((ran (.twAckRx .a hdr (BitVec.ofNat 96 (3 * 2 ^ 72 + 2 ^ 65))) w_ack).box 0).reply = [12, 0, 0, 0, 0, 0, 4, 0, 0x8C, 0, 255, 255] ∧
    (w_ackSwitch.box 0).taken = some (req 0x0D11 []) ∧ (ran (.twAckRx .a hdr (BitVec.ofNat 96 (3 * 2 ^ 72))) w_ackSwitch).twin.switch.isSome = true ∧
    (w_ack.twin.fwdOut.find? fun f => f.xfer == pbits (0#96) 79 72) = none := by decide +kernel

theorem witness_TwinBlocks_state :
    ((ran (.twStateRx .a hdr (.dtStep 127 5 9 (-3))) (pairIn .standby)).dleg 127 5).steps.length = 1 ∧
    ((ran (.twStateRx .a hdr (.dtFallback 127 5 9 800 true)) (pairIn .standby)).dleg 127 5).fallback = true ∧
    ((ran (.twStateRx .a hdr (.dtFallback 127 5 9 800 false)) (pairIn .standby)).dleg 127 5).fallback = false ∧
    ((pairIn .standby).str 15).orderWait = false ∧
    ((ran (.twStateRx .a hdr (.order 15 2 [127])) (pairIn .standby)).srt 15).fromActive = some (2, [127]) ∧
    (ran (.twStateRx .a hdr (.ride 7 4)) (pairIn .standby)).prot.ride.st = .halted ∧
    (ran (.twStateRx .a hdr (.resync [] true)) ((pairIn .standby).updTwin fun t => { t with resync := true })).twin.resyncIn = true ∧
    (ran (.twStateRx .a hdr (.qualify [.param 0x0B02 0xFFFF [1]] true)) ((pairIn .standby).updTwin fun t =>
      { t with qualified := false })).twin.qualifyDone = true := by decide +kernel

def w_case : State := (pairIn .active).updTwin fun t => { t with caseOpen := true, caseAt := 0, arbReqLow := true, digests := [{ j := 9 }] }

theorem witness_TwinBlocks_case : pbits (BitVec.ofNat 96 (2 * 2 ^ 56)) 63 56 = 2 ∧
    (ran (.twCaseRx .a hdr (BitVec.ofNat 96 (2 ^ 56 + 9 * 2 ^ 64))) (pairIn .active)).twin.caseOpen = true ∧
    (ran (.twCaseRx .a hdr (BitVec.ofNat 96 (2 * 2 ^ 56))) (pairIn .active)).twin.resync = true ∧
    pbits (BitVec.ofNat 96 (3 * 2 ^ 56 + 4 * 2 ^ 48)) 55 48 = 4 ∧ w_case.twin.caseOpen = true ∧ w_case.inPair = true ∧
    (ran (.twCaseRx .a hdr (BitVec.ofNat 96 (3 * 2 ^ 56 + 4 * 2 ^ 48))) w_case).twin.case.verdict = 4 ∧
    (ran (.twCaseRx .a hdr (BitVec.ofNat 96 (3 * 2 ^ 56 + 3 * 2 ^ 48))) w_case).twin.epoch = 1 ∧
    (ran (.twCaseRx .a hdr (BitVec.ofNat 96 (2 ^ 80 + 3 * 2 ^ 56 + 2 * 2 ^ 48))) (pairIn .active)).twin.role = .maint ∧
    (ran (.twResetRx .a hdr 0) (pairIn .standby)).mono = 80000000000 := by decide +kernel

def w_alive : State := (pairIn .standby).updTwin fun t => { t with peerAlive := true, digests := [{ j := 9 }], compareJ := some 9 }
def w_late : State := w_ack
def w_missed : State := w_alive.updTwin fun t => { t with compareJ := none, peerAlive := false, missed := 1 }
def w_switch (rising : Bool) : State := (pairIn (if rising then .standby else .active)).updTwin fun t =>
  { t with switch := some { at_ := 80000000000, rising }, handoverUntil := if rising then none else some 80000000000, resetDue := some (80000000000, rising) }
def w_joined : State := (pairIn .standby).updTwin fun t => { t with qualified := false, qualifyDone := true }
def w_downLong : State := (pairIn .standby).updTwin fun t => { t with downSince := some 0 }
def w_serving : State := { pairIn .active with sys := { stage := .serving } }

theorem witness_TwinTimes_alive : w_alive.twin.peerAlive = true ∧ w_alive.twin.aliveAt + 160000 ≤ w_alive.mono ∧
    (ran .peerAliveTimeout w_alive).twin.peerAlive = false ∧ w_alive.twin.dueJ ≠ some 9 ∧
    w_alive.le.next - w_alive.p0 0x0B02 + 64000 ≤ w_alive.now ∧ w_alive.twin.compareJ = some (9 % 2 ^ 16) ∧ w_alive.twin.rxA = none ∧
    (ran .compareDeadline w_alive).twin.dueJ = some 9 ∧ w_alive.twinEn = true ∧ w_alive.twin.rxAt + 16000 ≤ w_alive.mono ∧
    (ran .twinStreamLost w_alive).twin.streamLost = true := by decide

theorem witness_TwinTimes_deadline : w_case.twin.digests = [{ j := 9 }] ∧ w_case.twin.role ≠ .standby ∧ w_case.twin.dueJ ≠ some 9 ∧
    (ran .compareDeadline w_case).twin.dueJ = some 9 ∧ w_missed.twin.qualified = true ∧ w_missed.twin.compareJ ≠ some 9 ∧ w_missed.twin.rxA = none ∧
    w_missed.ringSilent = true ∧ (ran .compareDeadline w_missed).twin.role = .active ∧
    (ran .compareDeadline (w_missed.updTwin fun t => { t with missed := 0 })).twin.missed = 1 := by decide +kernel

theorem witness_TwinTimes_forward : (w_late.twin.fwdOut.find? fun f => decide (f.at_ + 1600000 ≤ w_late.mono)) = some { mb := 0, xfer := 3, at_ := 0 } ∧
    (w_late.box 0).taken = some (req 0x0310 []) ∧
    ((ran .twFwdTimeout w_late).box 0).reply = [12, 0, 0, 0, 0, 0, 4, 0, 0x8C, 0, 0xFF, 0xFF] := by decide +kernel

theorem witness_TwinTimes_tests : (ran (.selftestPeriod 11 .fail) (riding 5 {})).twin.failed = 2048 ∧
    (ran (.selftestPeriod 0 .pass) (riding 5 {})).twin.checkAt.get? 0 = some 5 ∧ checkPeriod 7 = some 8000000000 ∧
    (at_ 16000000000).twin.checkAt.get 0 7 + 2 * 8000000000 ≤ (at_ 16000000000).mono ∧
    (ran (.selftestPeriod 7 .overdue) (at_ 16000000000)).twin.failed = 128 ∧
    (ran (.selftestPeriod 7 .overdue) (at_ 15999999999)).twin.failed = 0 ∧ (pairIn .active).qualifiedStandby = true ∧
    (ran (.selftestPeriod 0 .fail) (pairIn .active)).twin.role = .maint ∧ (ran (.selftestPeriod 0 .fail) (pairIn .standby)).twin.barred = true := by
  decide +kernel

theorem witness_TwinTimes_health : w_serving.sys.stage = .serving ∧ w_serving.twinEn = true ∧ w_serving.twin.healthAt + 7200000 ≤ w_serving.mono ∧
    (ran .twHealthPeriod w_serving).twin.reportSeq = 1 := by decide

theorem witness_TwinTimes_standby : w_joined.twin.qualified = false ∧ w_joined.twin.qualifyDone = true ∧ w_joined.twin.barred = false ∧
    bits w_joined.twin.failed 7 0 = 0 ∧
    (ran .qualifyComplete w_joined).twin.qualified = true ∧ w_downLong.twin.downSince = some 0 ∧ 0 + 8000000000 ≤ w_downLong.mono ∧
    (ran .twinLanesDownTimeout w_downLong).twin.qualified = false := by decide +kernel

theorem witness_TwinTimes_lost : w_serving.twin.role = .active ∧ w_serving.twin.paired = true ∧ w_serving.twin.standbyLost = false ∧
    w_serving.twin.peerAlive = false ∧ w_serving.twin.rxAt + 16000000 ≤ w_serving.mono ∧
    w_serving.faults.present.contains { src := 0x46, inst := noInst, sub := 0 } = false ∧
    (ran .twinStandbyTimeout w_serving).faults.firings.get 0 0x46 = 1 := by decide

theorem witness_TwinTimes_switch : (w_switch true).twin.switch = some { at_ := 80000000000, rising := true } ∧
    80000000000 ≤ (w_switch true).now ∧ (w_switch true).twin.role = .standby ∧ (w_switch true).twin.qualified = true ∧
    (ran .twinSwitchBoundary (w_switch true)).twin.epoch = 1 ∧
    (ran .twinSwitchBoundary ((w_switch true).updTwin fun t => { t with qualified := false })).twin.role = .standby ∧
    (w_switch false).twin.handoverUntil = some 80000000000 ∧ (ran .switchHandoverEnd (w_switch false)).twin.role = .standby ∧
    (ran .twinSwitchBoundary (w_switch false)).twin.handoverUntil = some (80000000000 + 160000) := by decide +kernel

theorem witness_TwinTimes_reset : (w_switch true).twin.resetDue = some (80000000000, true) ∧ 80000000000 ≤ (w_switch true).mono ∧
    (ran .unitResetDelay (w_switch true)).twin.resetDue = none ∧ (ran .unitResetDelay (w_switch false)).twin.resetDue = none := by decide

/-- Service lanes in a state, with a block that waits for a ring lane and one that the other twin lane has sent. -/
def w_slot (st : LaneSt) : State := ((([128, 129, 131].foldl (fun s n => s.modLane n fun l => { l with st }) (pairIn .standby)).modLink 129 fun l =>
  { l with queue := [{ type := 0x41, payload := 5 }] }).updTwin fun t => { t with ahead := t.ahead.set 131 [(7, 0x30, 0)] })

theorem witness_TwinTimes_slot : ((at_ 5).modLane 129 fun l => { l with st := .down }).lane (svcLane .ringW) = { st := .down } ∧
    ((pairIn .standby).lane (svcLane .twinA)).st = .linked ∧ (pairIn .standby).twin.roleOwed = false ∧ (pairIn .standby).twin.role ≠ .active ∧
    (pairIn .standby).twin.ahead.get [] (svcLane .twinA) = [] ∧ (ran (.serviceSlot .twinA) (pairIn .standby)).twin.txSeq = 1 ∧
    (w_slot .align).twin.ahead.get [] 131 = [(7, 0x30, 0)] ∧ ((ran (.serviceSlot .twinB) (w_slot .hunt)).lnk 131).downSeq = 8 ∧
    ((ran (.serviceSlot .twinB) (w_slot .align)).lnk 131).downSeq = 1 ∧ ((w_slot .hunt).lane 129).st = .hunt ∧
    ringFirst ((w_slot .hunt).lnk 129).queue = some { type := 0x41, payload := 5 } ∧
    ((ran (.serviceSlot .ringW) (w_slot .hunt)).lnk 129).queue = [] ∧ ((w_slot .hunt).lnk 128).queue = [] ∧ (w_slot .hunt).twin.evidOut = none ∧
    ((ran (.serviceSlot .ringE) (w_slot .hunt)).lnk 128).downSeq = 1 := by decide +kernel

def w_referee : State := (at_ 5).updTwin fun t =>
  { t with role := .referee, refCases := [{ head := 7, num := 4095, nodes := (14, 15), claimA := some ⟨true, 0, 5⟩, claimS := some ⟨true, 0, 5⟩ }] }

theorem witness_Verdicts_case : w_case.twin.caseOpen = true ∧ w_case.twin.replayed = none ∧ w_case.inPair = true ∧ (ran (.caseReplayDone true) w_case).twin.replayed = some true ∧
    w_case.twin.arbReqLow = true ∧ (ran (.arbVdStable 2) w_case).twin.role = .maint ∧ (ran (.arbVdStable 3) w_case).twin.role = .active ∧
    w_case.twin.caseAt + 4000000 ≤ w_case.mono ∧ w_case.pu 0x0D02 noInst 2 1 = 0 ∧ (ran .refTimeoutExpire w_case).twin.case.rule = 4 := by
  decide +kernel

theorem witness_Verdicts_referee : w_referee.twin.role = .referee ∧
    w_referee.twin.refCases = [{ head := 7, num := 4095, nodes := (14, 15), claimA := some ⟨true, 0, 5⟩, claimS := some ⟨true, 0, 5⟩ }] ∧
    (ran (.refereeReplayDone 7 true false) w_referee).twin.refCases = [] := by decide

def w_roleActive : State := running 0x0D10 [1, 0, 0, 0]
def w_roleReferee : State := running 0x0D10 [3, 0, 0, 0]
def w_twinSwitch : State := running 0x0D11 [] (pairIn .active)
def w_noSwitch : State := running 0x0D11 []
def w_resync : State := running 0x0D13 [] (pairIn .active)
def w_noResync : State := running 0x0D13 []
def w_resetBusy (f : Byte) : State := running 0x0D12 [0, f, 0, 0] ((pairIn .active).modStr 15 fun y => { y with st := .running })
def w_unitReset : State := running 0x0D12 [0, 0, 0, 0]

theorem witness_RoleCommands_set : w_roleActive.Runs 0 0x0D10 (req 0x0D10 [1, 0, 0, 0]) ∧ roleOf 1 = some .active ∧ roleOf 6 = none ∧
    w_roleActive.roleRefusal .active false = none ∧ w_roleActive.roleRefusal .standby false = some 0x82 ∧
    (ran (.roleSet 0) w_roleActive).twin.epoch = 1 ∧ w_roleReferee.Runs 0 0x0D10 (req 0x0D10 [3, 0, 0, 0]) ∧
    replied (.roleSet 0) w_roleReferee = [0, 0, 0, 0, 1, 0, 4, 0, 1, 0, 3, 0] ∧
    replied (.roleSet 0) (running 0x0D10 [6, 0, 0, 0]) = [4, 0, 0, 0, 0, 0, 4, 0, 5, 0, 255, 255] ∧
    replied (.roleSet 0) (running 0x0D10 [2, 0, 0, 0]) = [3, 0, 0, 0, 0, 0, 4, 0, 0x82, 0, 255, 255] :=
  ⟨runs_running _ _ _ rfl, by decide, by decide, by decide +kernel, by decide +kernel, by decide +kernel, runs_running _ _ _ rfl, by decide +kernel,
    by decide +kernel, by decide +kernel⟩

theorem witness_RoleCommands_switch : w_noSwitch.Runs 0 0x0D11 (req 0x0D11 []) ∧ w_noSwitch.twin.role ≠ .active ∧
    replied (.twinSwitch 0) w_noSwitch = [5, 0, 0, 0, 0, 0, 4, 0, 0x8B, 0, 0xFF, 0xFF] ∧ w_twinSwitch.Runs 0 0x0D11 (req 0x0D11 []) ∧
    w_twinSwitch.twin.role = .active ∧ w_twinSwitch.qualifiedStandby = true ∧ w_twinSwitch.twin.caseOpen = false ∧
    w_twinSwitch.twin.resync = false ∧ w_twinSwitch.twinLinkUp = true ∧ ((ran (.twinSwitch 0) w_twinSwitch).box 0).waiting = .standbyAck 0 [] :=
  ⟨runs_running _ _ _ rfl, by decide, by decide, runs_running _ _ _ rfl, by decide, by decide, by decide, by decide, by decide, by decide⟩

theorem witness_RoleCommands_resync : w_noResync.Runs 0 0x0D13 (req 0x0D13 []) ∧
    replied (.twinResync 0) w_noResync = [5, 0, 0, 0, 0, 0, 4, 0, 0x8B, 0, 0xFF, 0xFF] ∧ w_resync.Runs 0 0x0D13 (req 0x0D13 []) ∧
    w_resync.qualifiedStandby = true ∧ (ran (.twinResync 0) w_resync).twin.resync = true :=
  ⟨runs_running _ _ _ rfl, by decide, runs_running _ _ _ rfl, by decide, by decide⟩

theorem witness_RoleCommands_reset : w_unitReset.Runs 0 0x0D12 (req 0x0D12 [0, 0, 0, 0]) ∧ w_unitReset.twin.role ≠ .active ∧
    (ran (.unitReset 0) w_unitReset).twin.resetDue = some (8000000, false) ∧ (w_resetBusy 1).Runs 0 0x0D12 (req 0x0D12 [0, 1, 0, 0]) ∧
    (w_resetBusy 1).twin.role = .active ∧ (List.range 16).all (w_resetBusy 1).strStopped = false ∧
    (ran (.unitReset 0) (w_resetBusy 1)).twin.role = .maint ∧
    replied (.unitReset 0) (w_resetBusy 0) = [3, 0, 0, 0, 0, 0, 4, 0, 0x88, 0, 255, 255] ∧
    replied (.unitReset 0) (running 0x0D12 [2, 0, 0, 0]) = [4, 0, 0, 0, 0, 0, 4, 0, 5, 0, 255, 255] ∧
    replied (.unitReset 0) (running 0x0D12 [1, 0, 0, 0]) = [3, 0, 0, 0, 0, 0, 4, 0, 0x80, 0, 255, 255] :=
  ⟨runs_running _ _ _ rfl, by decide, by decide, runs_running _ _ _ rfl, by decide, by decide, by decide +kernel, by decide, by decide, by decide⟩
/-! ### Chapters 11 and 12 -/

/-- A ring member at node 2 with its ring lanes linked. -/
def ringed (t : Nat := 80000000) : State :=
  (((at_ t).setParam 0x0E01 noInst [1]).setParam 0x0E02 noInst [2, 8, 0, 0]).modLane 128 (fun l => { l with st := .linked }) |>.modLane 129
    fun l => { l with st := .linked }

/-- A block of node 5 for every node. -/
def from5 (body : Nat) : BitVec 96 := BitVec.ofNat 96 (5 * 2 ^ 91 + 31 * 2 ^ 86 + body)

theorem takes_ringed (body : Fin 4) : ringed.RingTakes .e (from5 body) := ⟨by decide, by revert body; decide, by revert body; decide, by revert body; decide⟩

def w_gw : State := { ringed with ring := { headEpoch := { cells := [(2, 0)] }, applied := { cells := [(0, 8191)] } } }

theorem witness_RingBlocks_census : ((ran (.ringCensusRx .e hdr (from5 (2 ^ 60))) ringed).rnode 5).role = 1 ∧
    (ringed.lane (ringLane .w)).st.receives = true ∧ pbits (BitVec.ofNat 96 (2 * 2 ^ 91)) 95 91 = ringed.node ∧
    pbits (BitVec.ofNat 96 (2 * 2 ^ 91)) 15 0 = ringed.ring.nonce ∧
    ((ran (.ringCensusRx .w hdr (BitVec.ofNat 96 (2 * 2 ^ 91))) ringed).rnode 2).present = true ∧
    (ran (.ringCensusRx .w hdr (BitVec.ofNat 96 (2 * 2 ^ 91))) ringed).faults.firings.get 0 0x51 = 0 ∧
    (ran (.ringCensusRx .w hdr (BitVec.ofNat 96 (2 * 2 ^ 91 + 1))) ringed).faults.firings.get 0 0x51 = 1 := by decide +kernel

/-- The active of head 1, whose standby stands at node 3. -/
def w_pairNode : State := (ringed.setParam 0x0D02 noInst [1, 0, 0, 0, 50, 0, 0, 0]).updTwin fun t => { t with role := .active }

theorem witness_RingBlocks_split : w_pairNode.twinEn = true ∧ 3 = 2 * w_pairNode.headId + (1 - w_pairNode.unit) ∧
    0 < sdiff 16 1 w_pairNode.twin.epoch ∧
    (ran (.ringCensusRx .e hdr (BitVec.ofNat 96 (3 * 2 ^ 91 + 31 * 2 ^ 86 + 2 ^ 64 + 2 ^ 60))) w_pairNode).twin.role = .maint := by decide +kernel

def w_oldEpoch : State := { ringed with ring := { headEpoch := { cells := [(2, 1)] } } }

theorem witness_RingBlocks_stale : w_oldEpoch.ringStale (from5 3) = true ∧
    (ran (.ringSummaryRx .e hdr (from5 3)) w_oldEpoch).ring.summary.get? 0 = none := by decide +kernel

theorem witness_RingBlocks_summary : ringed.summaryNew 0 0 = true ∧
    ((ran (.ringSummaryRx .e hdr (from5 3)) ringed).ring.summary.get? 0).map (·.max) = some 3 ∧
    (ran (.ringSummaryRx .e hdr (from5 3)) ringed).summaryNew 0 0 = false ∧
    (ran (.ringSummaryRx .e hdr (from5 3)) ringed).summaryNew 0 1 = true ∧
    ((ran (.ringHealthRx .e hdr (from5 (3 * 2 ^ 48))) ringed).rnode 5).failed = some 3 ∧
    pbits (from5 3) 63 60 ≠ 4 ∧ ringed.twin.role ≠ .referee := by decide +kernel

theorem takes_gw : w_gw.RingTakes .e (from5 (15 * 2 ^ 45 + 7)) := ⟨by decide, by decide, by decide, by decide⟩

theorem witness_RingBlocks_write : w_gw.gwBank = some 0 ∧ w_gw.bankOff 0 = false ∧ w_gw.pantry.mem.wf = true ∧ w_gw.notif.enable = false ∧
    (w_gw.holdEpoch 5 0).ring.applied.get? 0 = some 8191 ∧ (ringed.holdEpoch 5 0).ring.applied.get? 0 = none ∧
    (ran (.ringWriteRx .e hdr (from5 (15 * 2 ^ 45 + 7)) .idle) w_gw).pantry.mem = [(0, 7)] ∧
    (ran (.ringWriteRx .e hdr (from5 (15 * 2 ^ 45 + 7)) .read) ringed).pantry.mem = [(0, 7)] ∧
    (ran (.ringWriteRx .e hdr (from5 (15 * 2 ^ 45 + 8191 * 2 ^ 32 + 7)) .idle) w_gw).pantry.mem = [] ∧
    (ran (.ringWriteRx .e hdr (from5 (2 ^ 45 + 2 ^ 32 + 7)) (.write ⟨9, 15⟩)) w_gw).pantry.mem = [(0, 7)] ∧
    (ran (.ringWriteRx .e hdr (from5 (2 ^ 45 + 2 ^ 32 + 7)) .idle) w_gw).faults.firings.get 0 0x54 = 1 := by decide +kernel

def w_refNode : State := ((ringed.setParam 0x0D03 noInst [255]).updTwin fun t => { t with role := .referee })
/-- A message of a case of head 2. -/
def caseMsg (kind body : Nat) : BitVec 96 := from5 (kind * 2 ^ 60 + 9 * 2 ^ 48 + 2 * 2 ^ 40 + body)

theorem takes_refNode : w_refNode.RingTakes .e (caseMsg 1 0) := ⟨by decide, by decide, by decide, by decide⟩

theorem witness_RingBlocks_referee : w_refNode.twin.role = .referee ∧ w_refNode.ring.refSeen = [] ∧ bit (w_refNode.p0 0x0D03) 2 = true ∧
    (w_refNode.rnode 5).failed = none ∧ (w_refNode.rnode 4).failed = none ∧
    (ran (.ringRefRx .e hdr (caseMsg 1 0)) w_refNode).twin.refCases = [{ head := 2, num := 9, nodes := (4, 5), at_ := 80000000 }] ∧
    (ran (.ringRefRx .e hdr (caseMsg 3 (2 ^ 32 + 77))) (ran (.ringRefRx .e hdr (caseMsg 1 0)) w_refNode)).twin.refCases.map (·.num) = [9] ∧
    (ran (.ringRefRx .e hdr (caseMsg 5 0)) (ran (.ringRefRx .e hdr (caseMsg 1 0)) w_refNode)).twin.refCases = [] := by decide +kernel

def w_verdict : State := ((ringed.setParam 0x0D02 noInst [1, 1, 0, 0, 50, 0, 0, 0]).updTwin fun t =>
  { t with role := .active, caseOpen := true, case := { j := 4095 } })
def verdict16 (e : Nat) : BitVec 96 := BitVec.ofNat 96 (16 * 2 ^ 91 + 31 * 2 ^ 86 + e * 2 ^ 64 + 4 * 2 ^ 60 + 4095 * 2 ^ 48 + 2 ^ 46 + 3 * 2 ^ 43 + 2 ^ 40)

theorem witness_RingBlocks_verdict : (w_verdict.lane (ringLane .e)).st.receives = true ∧ pbits (verdict16 0) 95 91 = 16 ∧
    pbits (verdict16 0) 63 60 = 4 ∧ pbits (verdict16 0) 42 40 = w_verdict.headId ∧ w_verdict.twin.caseOpen = true ∧
    w_verdict.refMode = 1 ∧ pbits (verdict16 0) 59 48 = w_verdict.twin.case.j % 4096 ∧ pbits (verdict16 0) 47 46 = 1 ∧
    sdiff 16 0 w_verdict.twin.epoch = 0 ∧ (ran (.ringRefRx .e hdr (verdict16 0)) w_verdict).twin.case.rule = 3 ∧
    (ran (.ringRefRx .e hdr (verdict16 1)) w_verdict).twin.role = .maint ∧
    (ran (.ringRefRx .e hdr (verdict16 0)) (w_verdict.updTwin fun t => { t with caseOpen := false })).twin.epoch = 0 := by decide +kernel

def w_census : State := ringed.modNode 15 fun x => { x with present := true }
def w_ownCensus : State := ringed.modNode 2 fun x => { x with present := true }
def w_refGone : State := w_verdict.modNode 16 fun x => { x with present := true }

theorem witness_Census : ringed.ringEn = true ∧ ringed.ring.censusAt + 720000 ≤ ringed.mono ∧
    ((ran .censusPeriod ringed).lnk 128).queue.length = 1 ∧ (w_census.rnode 15).present = true ∧
    (w_census.rnode 15).at_ + 2400000 ≤ w_census.mono ∧ 15 ≠ w_census.node ∧
    w_census.faults.present.contains { src := 0x50, inst := 15, sub := 0 } = false ∧
    (ran (.censusNodeTimeout 15) w_census).faults.firings.get 0 0x50 = 1 ∧ (w_ownCensus.rnode 2).present = true ∧ 2 = w_ownCensus.node ∧
    ((ran (.censusNodeTimeout 2) w_ownCensus).rnode 2).present = false ∧ (w_refGone.rnode 16).present = true ∧ w_refGone.refMode = 1 ∧
    w_refGone.inPair = true ∧ (ran (.censusNodeTimeout 16) w_refGone).faults.firings.get 0 0x4A = 1 ∧ (ringed.rnode 4).present = false := by
  decide +kernel

def w_pantry : State := { (at_ 655360) with sys := { State.reset.sys with stage := .serving } } |>.updPantry fun p =>
  { p with mem := [(0x1BFFFC, 1), (0x1BFFFF, 2)], wiping := some (1, 0), awake := { cells := [(3, 575360)] }, clearing := { cells := [(15, 655360)] } }

theorem witness_PantryAccess_word : w_pantry.portUp .pcie = true ∧ hostTarget .pcie false true 0x1BFFFC = .bar2 0x1BFFFC ∧
    hostTarget .pcie true true 0x1BFFFC = .bar2 0x1BFFFC ∧ w_pantry.hostWords 0x1BFFFC = ([0x1BFFFC], 0) ∧
    w_pantry.hostDenied 0x1BFFFC = false ∧ w_pantry.bankOff 13 = false ∧ w_pantry.inGw 0x1BFFFC = false ∧ w_pantry.pantry.mem.wf = true ∧
    w_pantry.openWord 0x1BFFFC = false ∧ (ran (.pantryHostRead 0x1BFFFC .idle none .pcie) w_pantry).hatch.host.lastRead = 0x02000001 ∧
    (ran (.pantryHostWrite 0x1BFFFC 0x11223344 9 .idle none .pcie) w_pantry).pantry.mem = [(0x1BFFFC, 0x44), (0x1BFFFF, 0x11)] := by
  decide +kernel

def w_rotated : State := w_pantry.setParam 0x0F02 noInst [3]

theorem witness_PantryAccess_rotated : w_rotated.hostWords 0x3BFFF8 = ([0x1BFFF8, 0x1BFFFC], 3) ∧ w_rotated.hostDenied 0x3BFFF8 = false ∧
    w_rotated.hostDenied 0x3BFFFC = true ∧ (ran (.pantryHostRead 0x3BFFF8 .idle none .pcie) w_rotated).hatch.host.lastRead = 0x100 ∧
    (ran (.pantryHostWrite 0x3BFFF8 0x11223344 15 .idle none .pcie) w_rotated).pantry.mem =
      [(0x1BFFFB, 0x44), (0x1BFFFC, 0x33), (0x1BFFFD, 0x22), (0x1BFFFE, 0x11), (0x1BFFFF, 2)] := by decide +kernel

def w_bankOff : State := w_pantry.setParam 0x0F01 noInst [0, 0, 0, 8]

theorem witness_PantryAccess_off : w_bankOff.bankOff 13 = true ∧ (ran (.pantryHostRead 0x1BFFFC .idle none .pcie) w_bankOff).hatch.host.lastRead = 0 ∧
    (ran (.pantryHostWrite 0x1BFFFC 9 15 .idle none .pcie) w_bankOff).pantry.mem = w_pantry.pantry.mem := by decide +kernel

def w_pantryRing : State := w_pantry.updNotif fun n => { n with enable := true, base := 3 }

theorem witness_PantryAccess_open : w_pantryRing.openWord 0x6000 = true ∧ w_pantryRing.openWord 0x5FFC = false ∧ w_pantryRing.openWord 0x8000 = false ∧
    (ran (.pantryHostWrite 0x6000 9 0 .idle none .pcie) w_pantryRing).freeCount = w_pantryRing.freeCount + 1 := by decide +kernel

/-- The active of head 1 as a host's port sees it, its group window in bank 0. -/
def w_window : State := { w_pairNode with sys := { State.reset.sys with stage := .serving } }

theorem witness_PantryAccess_window : w_window.portUp .pcie = true ∧ w_window.inGw 0x4000 = true ∧ w_window.gwOwn 0x4000 = true ∧
    w_window.gwOwn 0x3FFC = false ∧ w_window.bankOff 0 = false ∧ w_window.gwWaiting 128 < 512 ∧ w_window.gwWaiting 129 < 512 ∧
    w_window.hostWords 0x4000 = ([0x4000], 0) ∧ (ran (.pantryHostWrite 0x4000 9 15 .idle none .pcie) w_window).pantry.mem = [(0x4000, 9)] ∧
    ((ran (.pantryHostWrite 0x4000 9 15 .idle none .pcie) w_window).lnk 128).queue.length = 1 ∧
    (ran (.pantryHostWrite 0x3FFC 9 15 .idle none .pcie) w_window).pantry.mem = [] := by decide +kernel

theorem witness_PantryAccess_denied : w_pantry.hostDenied 0x1FFFFC = true ∧
    (ran (.pantryHostRead 0x1FFFFC .read none .pcie) w_pantry).hatch.hostErr = 4 ∧
    (ran (.pantryHostWrite 0x1C0000 1 15 .idle none .pcie) w_pantry).hatch.hostErr = 4 := by decide +kernel

def w_serial : State := w_pantry.updHatch fun h => { h with qspi := true }

theorem witness_PantryAccess_serial : w_serial.portUp .pcie = false ∧ w_serial.portUp (.qspi 0x0B) = true ∧
    hostTarget (.qspi 0x0B) false true 0x1BFFFC = .bar2 0x1BFFFC ∧ hostTarget (.qspi 0xEB) false true 0x410000 = .nowhere ∧
    hostTarget (.qspi 0x32) true true 0x410000 = .nowhere ∧ hostTarget (.qspi 0x03) false true 0 = .inert ∧ hostTarget (.qspi 0x03) true true 0 = .inert ∧
    (ran (.pantryHostRead 0x1BFFFC .idle none (.qspi 0x0B)) w_serial).hatch.host.lastRead = 0x02000001 ∧
    (ran (.pantryHostWrite 0x1BFFFC 0x11223344 0 .idle none (.qspi 0x02)) w_serial).pantry.mem =
      [(0x1BFFFC, 0x44), (0x1BFFFD, 0x33), (0x1BFFFE, 0x22), (0x1BFFFF, 0x11)] := by decide +kernel

theorem witness_BanksAndWipes : w_pantry.pantry.awake.get? 3 = some 575360 ∧ 575360 + 80000 ≤ w_pantry.mono ∧
    (ran (.bankIdleTimeout 3) w_pantry).pantry.awake.get? 3 = none ∧ w_pantry.pantry.clearing.get? 15 = some 655360 ∧
    655360 ≤ w_pantry.mono ∧ (ran (.bankClearDone 15) w_pantry).bankOff 15 = false ∧
    (ran .tamperCoreEvent w_pantry).pantry.wiping = some (2, 655360) ∧ w_pantry.pantry.wiping = some (1, 0) ∧ w_pantry.sys.stage ≠ .inReset ∧
    w_pantry.notif.enable = false ∧ (ran .strongboxWipeDone w_pantry).pantry.wipes = 1 := by decide +kernel

/-! ### Chapter 13 -/

def w_hk : State := (at_ 80000000000).setParam 0x1002 0 [1, 0, 0, 0, 0, 0, 0, 0x80, 0xFF, 0x7F, 0, 0] |>.setParam 0x1003 0 ([1, 0, 0, 0, 0x80, 0] ++ List.replicate 62 0)
def w_conv : State := (running 0x1010 [1, 0, 0, 0] w_hk).modPair 1 fun p =>
  { p with awake := true, conv := some (.urgent ⟨0, false, .mailbox 0⟩), convAt := 80000000000 - 1980 }
/-- The same, one converter or PAIRED. -/
def w_convOf (paired : Bool) : State := w_conv.modPair 1 fun p => { p with conv := some (.urgent ⟨0, paired, .mailbox 0⟩) }
/-- A sequence entry of inputs 0 and 1 that ends, or of input 0 PAIRED. -/
def w_entry (e : Byte) : State := (((at_ 80000000000).setParam 0x1002 0 [1, 0, 0, 0, 0, 0, 0, 0x80, 0xFF, 0x7F, 0, 0]).setParam 0x1002 1
  [1, 0, 0, 0, 0, 0, 0, 0x80, 0xFF, 0x7F, 0, 0]).setParam 0x1003 0 ([1, 0, 0, 0, e, if e = 0 then 1 else 0] ++ List.replicate 62 0) |>.modPair 0 fun p =>
  { p with awake := true, conv := some (.seq 0), next := some 0, convAt := 80000000000 - 1980 }
def w_awake : State := w_hk.modPair 1 fun p => { p with awake := true, idleFrom := 80000000000 - 16001 }
def w_waking (u : List Urgent) : State := w_hk.modPair 1 fun p => { p with wakeFrom := some (80000000000 - 3980), urgent := u }
def w_fan : State := w_hk.updHk fun h => { h with fan := h.fan.set 3 { at_ := some 72000000000 } }

def w_round : State := (at_ 80000000000).updPar fun p => { p with eff := p.eff.set (pKey 0x1003 0) ([1, 0, 0, 0, 0x80, 0] ++ List.replicate 62 0) }

theorem witness_Housekeeping_round : w_round.sys.stage ≠ .inReset ∧ ranHas (w_round.now / 80000000) w_round.hk.ran = false ∧
    w_round.hk.ran = [] ∧ (w_round.capture 0x1003 0).pu 0x1003 0 0 1 ≠ 0 ∧ (ran .hkRound w_round).hk.rounds = 1 ∧
    ranHas ((ran .hkRound w_round).now / 80000000) (ran .hkRound w_round).hk.ran = true := by decide +kernel

theorem witness_Housekeeping_urgent : (w_conv.hkPair 1).conv = some (.urgent ⟨0, false, .mailbox 0⟩) ∧
    (w_conv.hkPair 1).convAt + 1980 ≤ w_conv.mono ∧ w_conv.hkKind 0 ≠ 0 ∧ (w_conv.box 0).taken = some (req 0x1010 [1, 0, 0, 0]) ∧
    ((ran (.adcConversionDone 1 4095 0) w_conv).hkVal 0).code = 4095 ∧ ((ran (.adcConversionDone 1 4095 0) w_conv).box 0).state = .done ∧
    ((w_convOf true).hkPair 1).conv = some (.urgent ⟨0, true, .mailbox 0⟩) ∧ (w_convOf true).p0 0x1006 < 4095 ∧
    (ran (.adcConversionDone 1 4095 0) (w_convOf true)).faults.firings.get 0 0x60 = 1 ∧
    ((ran (.adcConversionDone 1 1000 1001) (w_convOf true)).hkVal 0).code = 1000 ∧ (w_hk.hkPair 1).conv = none := by decide +kernel

theorem witness_Housekeeping_entry : (w_entry 0x80).hkEntry 0 0 = (true, 0, 0) ∧ (w_entry 0).hkEntry 0 0 = (false, 0, 1) ∧
    ((w_entry 0).hkPair 0).conv = some (.seq 0) ∧ (w_entry 0).hkKind 1 ≠ 0 ∧
    ((ran (.adcConversionDone 0 100 200) (w_entry 0)).hkVal 0).code = 100 ∧ ((ran (.adcConversionDone 0 100 200) (w_entry 0)).hkVal 1).code = 200 ∧
    ((ran (.adcConversionDone 0 100 101) (w_entry 0x80)).hkVal 0).code = 100 := by decide +kernel

theorem witness_Housekeeping_sleep : (w_awake.hkPair 1).awake = true ∧ (w_awake.hkPair 1).conv = none ∧ (w_awake.hkPair 1).next = none ∧
    (w_awake.hkPair 1).urgent = [] ∧ (w_awake.hkPair 1).idleFrom + 16000 < w_awake.mono ∧
    ((ran (.hkPairSleep 1) w_awake).hkPair 1).awake = false ∧ ((w_waking []).hkPair 1).wakeFrom = some (80000000000 - 3980) ∧
    ((ran (.hkWakeDone 1) (w_waking [])).hkPair 1).awake = true ∧
    ((ran (.hkWakeDone 1) (w_waking [⟨3, true, .confirm 0⟩])).hkPair 1).conv = some (.urgent ⟨3, true, .confirm 0⟩) ∧
    ((ran (.hkWakeDone 1) ((w_waking [⟨3, true, .confirm 0⟩]).modPair 1 fun p => { p with next := some 2, interrupts := 4 })).hkPair 1).conv =
      some (.seq 2) := by decide +kernel

theorem witness_Housekeeping_fan : (w_fan.hk.fan.get {} 3).at_ = some 72000000000 ∧ 72000000000 + 8000000000 ≤ w_fan.mono ∧
    ((ran (.fanTachEdge 3) w_fan).hk.fan.get {} 3).rpm = 30 ∧ ((ran (.fanPulseTimeout 3) w_fan).hk.fan.get {} 3).at_ = none ∧
    (w_fan.hk.fan.get {} 0).at_ = none ∧ ((ran (.fanTachEdge 0) w_fan).hk.fan.get {} 0).rpm = 0 := by decide +kernel

def w_hkConvert : State := running 0x1010 [1, 0, 1, 0] w_hk
def w_rec (read : Bool) : ThermRec := { id := 4294967295, zone := 15, read, rtcSet := false, src := 0, trip := 0, peak := 0, strings := 0, tick := 0, rtc := 0 }
def w_thermRead (l : List ThermRec) : State := running 0x1110 [0xFF, 0, 0, 0] (State.reset.updHk fun h => { h with recs := l })
def w_thermClear (read : Bool) : State := running 0x1111 (leBytes 4 4294967295)
  ((State.reset.updHk fun h => { h with recs := [w_rec read] }).modZone 15 fun z => { z with t := some (-32768) })

theorem witness_ThermalCommands_convert : w_hkConvert.Runs 0 0x1010 (req 0x1010 [1, 0, 1, 0]) ∧ w_hkConvert.hkKind 0 ≠ 0 ∧
    (w_hkConvert.hkPair 1).urgent = [] ∧ (w_hkConvert.hkPair 1).conv = none ∧ (w_hkConvert.hkPair 1).awake = false ∧
    (w_hkConvert.hkPair 1).wakeFrom = none ∧ ((ran (.hkConvert 0) w_hkConvert).box 0).waiting = .hkConvert ∧
    ((ran (.hkConvert 0) (w_hkConvert.modPair 1 fun p => { p with awake := true })).hkPair 1).conv = some (.urgent ⟨0, true, .mailbox 0⟩) ∧
    replied (.hkConvert 0) (w_hkConvert.modPair 1 fun p => { p with urgent := List.replicate 4 ⟨0, true, .confirm 0⟩ }) = [1, 0, 0, 0, 0, 0, 4, 0, 1, 0, 0, 0] ∧
    replied (.hkConvert 0) (running 0x1010 [2, 0, 1, 0]) = [4, 0, 0, 0, 0, 0, 4, 0, 5, 0, 255, 255] ∧
    replied (.hkConvert 0) (running 0x1010 [1, 31, 1, 0]) = [3, 0, 0, 0, 0, 0, 4, 0, 0xA0, 0, 255, 255] :=
  ⟨runs_running _ _ _ rfl, by decide, by decide, by decide, by decide, by decide, by decide, by decide +kernel, by decide +kernel, by decide, by decide⟩

theorem witness_ThermalCommands_read : (w_thermRead []).Runs 0 0x1110 (req 0x1110 [0xFF, 0, 0, 0]) ∧ (w_thermRead []).hk.recs = [] ∧
    (ran (.thermRead 0) (w_thermRead [w_rec false])).hk.recs = [w_rec true] ∧ ((ran (.thermRead 0) (w_thermRead [])).box 0).state = .done ∧
    replied (.thermRead 0) (running 0x1110 [16, 0, 0, 0]) = [4, 0, 0, 0, 0, 0, 4, 0, 5, 0, 255, 255] :=
  ⟨runs_running _ _ _ rfl, by decide, by decide, by decide, by decide⟩

theorem witness_ThermalCommands_clear : (w_thermClear true).Runs 0 0x1111 (req 0x1111 (leBytes 4 4294967295)) ∧ (w_thermClear true).Writes 0 0x11 ∧
    ((w_thermClear true).hk.recs.find? fun r => r.id == 4294967295) = some (w_rec true) ∧ (w_thermClear true).zone 15 = { t := some (-32768) } ∧
    (-32768 : Int) < (w_thermClear true).ps 0x1101 15 12 2 ∧ (ran (.thermClear 0) (w_thermClear true)).hk.recs = [] ∧
    (w_thermClear false).Runs 0 0x1111 (req 0x1111 (leBytes 4 4294967295)) ∧ (w_thermClear false).Writes 0 0x11 ∧
    replied (.thermClear 0) (w_thermClear false) = [3, 0, 0, 0, 0, 0, 4, 0, 0xA7, 0, 0xFF, 0xFF] ∧
    replied (.thermClear 0) (running 0x1111 (leBytes 4 4294967295)) = [4, 0, 0, 0, 0, 0, 4, 0, 0xA6, 0, 0xFF, 0xFF] ∧
    replied (.thermClear 0) ((w_thermClear true).modZone 15 fun z => { z with t := some 32767 }) = [3, 0, 0, 0, 0, 0, 4, 0, 0xA8, 0, 0xFF, 0xFF] :=
  ⟨runs_running _ _ _ rfl, writes_running _ _ _ _ rfl rfl rfl, by decide, by decide, by decide, by decide, runs_running _ _ _ rfl,
    writes_running _ _ _ _ rfl rfl rfl, by decide, by decide, by decide⟩
/-! ### Chapter 02 -/

def w_bells : State := (State.reset.modBox 7 fun b => { b with state := .active }).modBox 0 fun b => { b with state := .done }

theorem witness_HatchDoorbells : w_bells.sys.stage ≠ .inReset ∧ ((ran (.hatchDoorbell 0x83#32) w_bells).box 0).state = .pending ∧
    ((ran (.hatchDoorbell 0x83#32) w_bells).box 7).state = .active ∧ (ran (.hatchDoorbell 0x83#32) w_bells).hatch.order = [0, 1] ∧
    (ran (.hatchDoorbell 0x83#32) w_bells).hatch.hostErr = 0x8008 ∧ ((ran (.hatchDoneWrite 1#32) w_bells).box 0).state = .idle ∧
    (ran (.hostErrWrite 8#32) (ran (.hatchDoorbell 0x83#32) w_bells)).hatch.hostErr = 0x8000 := by decide

theorem witness_ReadLatch : (at_ 0).accOpen (.host .pcie) = true ∧ portTarget (.host .pcie) false (0x0220#24).toNat = .bar0 0x0220 ∧
    portTarget (.host (.qspi 0x0B#8)) false (0x400224#24).toNat = .bar0 0x0224 ∧ lowOf64 0x0220 = true ∧
    (ran (.lowWordRead (.host .pcie) 0x0220#24 false) (at_ (2 ^ 33 + 7))).hatch.host.latch = { tag := some 0x0224, high := 2 } ∧
    (ran (.highWordRead (.host .pcie) 0x0224#24) (ran (.lowWordRead (.host .pcie) 0x0220#24 false) (at_ (2 ^ 33 + 7)))).hatch.host.lastRead = 2 ∧
    (ran (.lowWordRead (.host .pcie) 0x0220#24 true) (at_ (2 ^ 33 + 7))).hatch.host.lastHigh = 2 ∧
    (at_ 0).hatch.host.latch.tag ≠ some 0x020C ∧ lowOf64 0x020C = false ∧
    (ran (.highWordRead (.host .pcie) 0x020C#24) (at_ 0)).hatch.host.latch = {} ∧ (at_ 0).replyOpen 0x2200 = false := by decide

def w_qspi : State := ((at_ 0).updHatch fun h => { h with qspi := true, host := { h.host with lastRead := 5 } }).updPantry fun p => { p with xbusyLow := true }

theorem witness_ReadLatch_qspi : w_qspi.accOpen (.host (.qspi 0xEB#8)) = true ∧ portTarget (.host (.qspi 0xEB#8)) false (0x410000#24).toNat = .nowhere ∧
    (ran (.lowWordRead (.host (.qspi 0xEB#8)) 0x410000#24 false) w_qspi).hatch.host.lastRead = 0 ∧
    (ran (.lowWordRead (.host (.qspi 0xEB#8)) 0x400000#24 false) w_qspi).hatch.host.lastRead = 0x57590128 ∧
    (ran (.lowWordRead (.host (.qspi 0xEB#8)) 0x400000#24 false) w_qspi).pantry.xbusyLow = false ∧
    portTarget (.host (.qspi 0x32#8)) true (0xFFFFFC#24).toNat = .nowhere ∧ w_qspi.portUp .pcie = false := by decide

def w_heldLow : State := ran (.lowWordWrite (.host .pcie) 0x8030#24 5#32) (at_ 0)

theorem witness_HeldWord : writable64 0x8030 = true ∧ writable64 (0x8034 - 4) = true ∧ w_heldLow.accOpen (.host .pcie) = true ∧
    portTarget (.host .pcie) true (0x8034#24).toNat = .bar0 0x8034 ∧
    w_heldLow.hatch.host.heldLow = some (0x8030, 5) ∧ w_heldLow.hatch.msixTable.get 0 0x8030 = 0 ∧
    (ran (.highWordWrite (.host .pcie) 0x8034#24 6#32 none) w_heldLow).hatch.msixTable.get 0 0x8030 = 5 ∧
    (ran (.highWordWrite (.host .pcie) 0x8034#24 6#32 none) w_heldLow).hatch.msixTable.get 0 0x8034 = 6 ∧
    (ran (.highWordWrite (.host .pcie) 0x8034#24 6#32 (some 9#32)) w_heldLow).hatch.msixTable.get 0 0x8030 = 9 ∧
    (ran (.highWordWrite (.host .pcie) 0x8034#24 6#32 none) (at_ 0)).hatch.msixTable.get 0 0x8030 = 0 ∧ writable64 0x100C = false ∧
    (ran (.registerWrite 0x100C#24 0#32 .pcie) w_heldLow).hatch.host.heldLow = none ∧ w_qspi.accOpen (.host (.qspi 0x02#8)) = true ∧
    (ran (.lowWordWrite (.host (.qspi 0x02#8)) 0xFFFFFC#24 1#32) w_qspi).hatch.host.heldLow = none := by decide

def w_unread : State := (at_ 800001).updNotif fun n => { n with enable := true, head := 3, tail := 254, unreadAt := [0] }

theorem witness_RegisterWrites : (at_ 0).portUp .pcie = true ∧ hostTarget .pcie true false (0x100C#24).toNat = .bar0 0x100C ∧
    hostTarget .pcie true false (0x4000#24).toNat = .bar0 0x4000 ∧ hostTarget .pcie true false (0x8034#24).toNat = .bar0 0x8034 ∧
    hostTarget .pcie true false (0x1000#24).toNat = .bar0 0x1000 ∧ hostTarget .pcie true false (0x0208#24).toNat = .bar0 0x0208 ∧
    hostTarget .pcie true false (0x3DFC#24).toNat = .bar0 (0x2000 + 0x400 * 7 + 4 * 127) ∧ hostTarget .pcie true false (0x3FFC#24).toNat = .bar0 0x3FFC ∧
    hostTarget (.qspi 0x32#8) true false (0x40100C#24).toNat = .bar0 0x100C ∧ w_qspi.portUp (.qspi 0x32#8) = true ∧
    (ran (.registerWrite 0x100C#24 0xFFFFFFFF#32 .pcie) (at_ 0)).hatch.irqEn = 2047 ∧
    (ran (.registerWrite 0x40100C#24 3#32 (.qspi 0x32#8)) w_qspi).hatch.irqEn = 3 ∧
    (ran (.registerWrite 0x4000#24 0x001BE000#32 .pcie) (at_ 0)).notif.base = 0xDF ∧ (ran (.registerWrite 0x4000#24 0x001C0000#32 .pcie) (at_ 0)).notif.base = 0 ∧
    ((at_ 0).box 7).state ≠ .pending ∧ (((ran (.registerWrite 0x3DFC#24 0xA5#32 .pcie) (at_ 0)).box 7).request).getD 508 0 = 0xA5 ∧
    (ran (.registerWrite 0x8034#24 7#32 .pcie) (at_ 0)).hatch.msixTable.get 0 0x8034 = 7 ∧
    (ran (.registerWrite 0x0208#24 9#32 .pcie) (at_ 0)).hatch = (at_ 0).hatch ∧ (ran (.registerWrite 0x3FFC#24 9#32 .pcie) (at_ 0)).hatch = (at_ 0).hatch := by
  decide +kernel

theorem witness_RegisterWrites_enabled : w_unread.portUp .pcie = true ∧ w_unread.notif.enable = true ∧ (0x001BE000#32 : Word).toNat / 2 ^ 13 % 256 < 0xE0 ∧
    (ran (.registerWrite 0x4000#24 0x001BE000#32 .pcie) w_unread).notif.base < 0xE0 := ⟨by decide, rfl, by decide, Nat.mod_lt _ (by decide)⟩

def w_loads : State := State.reset.updNotif fun n => { n with mpLoad := 5, mpPeak := 1000, dropped := 7 }

theorem witness_ReadsThatClear : w_loads.sys.stage ≠ .inReset ∧ (ran .gloadRead w_loads).hatch.host.lastRead = 5 + 1000 * 65536 ∧
    (ran .gloadRead w_loads).notif.mpPeak = 0 ∧ (ran .nrDroppedRead w_loads).hatch.host.lastRead = 7 ∧
    (ran .nrDroppedRead w_loads).notif.dropped = 0 ∧ (ran .gstatRead w_loads).hatch.host.lastRead = w_loads.gstat := by decide

theorem witness_NotificationRing : (0x00020101#32 : Word).getLsbD 0 = w_unread.notif.enable ∧ (ran (.nrCtrlWrite 0x00020101#32) w_unread).notif.holdoff = 2 ∧
    (1#32 : Word).getLsbD 0 = true ∧ (at_ 0).notif.enable = false ∧ (at_ 0).notif.hold = [] ∧ (ran (.nrCtrlWrite 1#32) (at_ 0)).notif.enable = true ∧
    ((3#32 : Word).toNat % 256 + 256 - w_unread.notif.tail) % 256 ≤ (w_unread.notif.head + 256 - w_unread.notif.tail) % 256 ∧
    (ran (.nrTailWrite 3#32) w_unread).notif.tail = 3 ∧
    (w_unread.notif.head + 256 - w_unread.notif.tail) % 256 < ((4#32 : Word).toNat % 256 + 256 - w_unread.notif.tail) % 256 ∧
    w_unread.notif.unreadAt = [0] ∧ 0 + 8000 * (max 1 w_unread.notif.holdoff) < w_unread.mono ∧
    (ran .nrHoldoffExpire w_unread).notif.heldOff = true := by decide

def w_held : State := (at_ 0).updNotif fun n => { n with base := 3, lost := true, hold := [{ island := 1, seq := 7, time := 9, code := 0x0304, epoch := 2, args := [5] },
  { island := 1, seq := 8, time := 9, code := 0x0304, epoch := 2, args := [5] }] }

theorem witness_NotificationRing_hold : w_held.sys.stage ≠ .inReset ∧ (1#32 : Word).getLsbD 0 = true ∧ w_held.notif.enable = false ∧
    w_held.notif.hold.length ≤ 64 ∧ w_held.bankOff (w_held.notif.base / 16) = false ∧ (ran (.nrCtrlWrite 1#32) w_held).notif.head = 2 ∧
    ((ran (.nrCtrlWrite 1#32) w_held).pantry.mem.readN (3 * 8192) 8) = [1, 3, 7, 0, 9, 0, 0, 0] ∧
    ((ran (.nrCtrlWrite 1#32) w_held).pantry.mem.readN (3 * 8192 + 32) 8) = [1, 1, 8, 0, 9, 0, 0, 0] ∧
    ((0#32 : Word).getLsbD 0 = false ∧ (ran (.nrCtrlWrite 0#32) w_unread).notif.enable = false) := by decide +kernel

theorem witness_NotificationRing_outside : ((ran (.nrTailWrite 4#32) w_unread).notif.tail < 256) ∧
    (ran (.nrTailWrite 4#32) w_unread).notif.head = 3 := ⟨Nat.mod_lt _ (by decide), rfl⟩

def w_shed (shed : Nat) : State := { (at_ 8000000) with sys := { stage := .serving }, notif := { shed } }

theorem witness_LoadWindow : (w_shed 0).sys.stage = .serving ∧ (w_shed 0).notif.windowFrom + 8000000 ≤ (w_shed 0).mono ∧
    (w_shed 0).p0 0x0204 ≤ (1000#10).toNat ∧
    (ran (.loadWindowEnd 1000#10) (w_shed 0)).notif.shed = 3 ∧ (ran (.loadWindowEnd 0#10) (w_shed 3)).notif.shed = 2 ∧
    (0#10).toNat + (w_shed 3).p0 0x0205 < (w_shed 3).p0 0x0204 ∧
    (w_shed 3).p0 0x0204 ≤ (BitVec.ofNat 10 ((w_shed 3).p0 0x0204 - 1)).toNat + (w_shed 3).p0 0x0205 ∧
    (ran (.loadWindowEnd (BitVec.ofNat 10 ((w_shed 3).p0 0x0204 - 1))) (w_shed 3)).notif.shed = 3 := by decide

def w_deferred : State := (w_shed 2).updNotif fun n => { n with deferred := [{ island := 0, seq := 0, time := 0, code := 0, epoch := 0, args := [] }] }

theorem witness_LoadWindow_deferred : (0#10).toNat + w_deferred.p0 0x0205 < w_deferred.p0 (0x0201 + w_deferred.notif.shed) ∧
    (ran (.loadWindowEnd 0#10) w_deferred).notif.shed = 1 ∧ (ran (.loadWindowEnd 0#10) w_deferred).notif.deferred = [] ∧
    (ran (.loadWindowEnd 0#10) w_deferred).notif.hold.length = 1 := by decide

theorem witness_HostLinkLoss : (ran (.hatchDoorbell 0x83#32) w_bells).hatch.qspi = false ∧
    (((ran .hostLinkDown (ran (.hatchDoorbell 0x83#32) w_bells)).box 0).state = .idle) ∧
    (((ran .hostLinkDown (ran (.hatchDoorbell 0x83#32) w_bells)).box 7).state = .active) ∧
    (ran .hostLinkDown (ran (.hatchDoorbell 0x83#32) w_bells)).hatch.order = [] ∧ w_qspi.hatch.qspi = true := by decide

/-- A mailbox whose request, of an opcode and an epoch, is the only one pending. -/
def ringing (op epoch : Nat) : State :=
  { ((at_ 9).modBox 5 fun b => { b with state := .pending, request := leBytes 2 op ++ [0, 0] ++ leBytes 2 epoch ++ List.replicate 506 0 }).updHatch
      fun h => { h with order := [5] } with sys := { stage := .serving } }

theorem witness_MailboxTaken : (ringing 0x0210 0).sys.stage = .serving ∧ (ringing 0x0210 0).sys.core0.halted = false ∧ (ringing 0x0210 0).sys.core1.halted = false ∧
    (ringing 0x0210 0).hatch.order = [5] ∧ ((ringing 0x0210 0).box 5).kept = none ∧ (ringing 0x0210 0).roleReason 0x0210 = none ∧
    ((ran .mailboxTake (ringing 0x0210 0)).box 5).state = .active ∧ (ran .mailboxTake (ringing 0x0210 0)).hatch.active = [5] ∧
    sdiff 16 (requestOf ((ringing 0x0210 0xFFFF).box 5).request).epoch (ringing 0x0210 0xFFFF).twin.epoch < 0 ∧
    ((ran .mailboxTake (ringing 0x0210 0xFFFF)).box 5).reply.take 2 = leBytes 2 stStale ∧ opRow 0x0299 = none ∧
    0 < sdiff 16 (requestOf ((ringing 0x0210 1).box 5).request).epoch (ringing 0x0210 1).twin.epoch ∧
    ((ran .mailboxTake (ringing 0x0210 1)).box 5).reply.take 2 = leBytes 2 stAhead ∧
    ((ran .mailboxTake (ringing 0x0299 0)).box 5).reply.take 2 = leBytes 2 stUnknown := by decide

/-- The same with a request kept. -/
def w_kept (seq op : Nat) : State := (ringing 0x0210 0).modBox 5 fun b =>
  { b with kept := some { req := { requestOf b.request with opcode := op, seq }, reply := [0xAB] } }

theorem witness_MailboxTaken_checks : ((ran .mailboxTake (w_kept 0 0x0210)).box 5).reply = [0xAB] ∧
    ((ran .mailboxTake (w_kept 0 0x0211)).box 5).reply.take 2 = leBytes 2 stBadSeq ∧
    ((ran .mailboxTake (w_kept 1 0x0211)).box 5).state = .active ∧ (opRow 0x0212).isSome = true ∧
    Role.referee.firstRefused { opcode := 0x0212, length := 16, payload := [1, 0, 0, 0, 3, 8, 0, 0, 0, 0, 0, 0] } = some 0 ∧
    ((ran .mailboxTake { ringing 0x0620 0 with time := {} }).box 5).reply.take 2 = leBytes 2 stBadLength ∧
    ((ran .mailboxTake ((ringing 0x0D11 0).modBox 5 fun b => { b with request := setSlice b.request 6 [4, 0] })).box 5).reply.take 2 = leBytes 2 stNotInRole ∧
    shedExempt { opcode := 0x0420 } = false ∧
    ((ran .mailboxTake ((ringing 0x0420 0).updNotif fun n => { n with shed := 3 })).box 5).reply.take 2 = leBytes 2 stBusy ∧
    ((ran .mailboxTake ((ringing 0x0420 0).modBox 5 fun b => { b with request := setSlice b.request 6 [0xF9, 1] })).box 5).reply.take 2 = leBytes 2 stBadLength ∧
    recoveryOp 0x0420 = false ∧ ((ran .mailboxTake { ringing 0x0420 0 with sys := { stage := .recovery } }).box 5).reply.take 2 = leBytes 2 stUnknown := by decide +kernel

def w_discard : State := (running 0x0214 []).modBox 0 fun b => { b with held := [{ id := 1, inst := 0, value := [] }] }
def w_info (id : Bytes) : State := running 0x0215 id

theorem witness_ParameterReads : (running 0x0210 []).Runs 0 0x0210 (req 0x0210 []) ∧ replied (.hatchPing 0) (running 0x0210 []) = [0, 0, 0, 0, 0, 0, 8, 0, 0, 0, 0, 0, 0, 0, 0, 0] ∧
    w_discard.Runs 0 0x0214 (req 0x0214 []) ∧ ((ran (.paramDiscard 0) w_discard).box 0).held = [] ∧
    (w_info [5, 2, 0, 0]).Runs 0 0x0215 (req 0x0215 [5, 2, 0, 0]) ∧ ((w_info [5, 2, 0, 0]).readRow (uAt [5, 2, 0, 0] 0 2)).isSome = true ∧
    ((ran (.paramInfo 0) (w_info [5, 2, 0, 0])).box 0).state = .done ∧
    ((w_info [0xFF, 2, 0, 0]).readRow (uAt [0xFF, 2, 0, 0] 0 2)) = none ∧
    replied (.paramInfo 0) (w_info [5, 2, 1, 0]) = [4, 0, 0, 0, 0, 0, 4, 0, 0x0D, 0, 0xFF, 0xFF] ∧
    replied (.paramInfo 0) (w_info [0xFF, 2, 0, 0]) = [4, 0, 0, 0, 0, 0, 4, 0, 1, 0, 0xFF, 0xFF] :=
  ⟨runs_running _ _ _ rfl, by decide, ⟨by decide, by decide, by decide, by decide, by decide, by decide⟩, by decide, runs_running _ _ _ rfl, by decide, by decide,
    by decide, by decide, by decide⟩

def w_get (p : Bytes) : State := running 0x0211 p ((State.reset.bump 0x040B 131 0).modBox 1 fun b => b)
def w_set (p : Bytes) : State := running 0x0212 p
def w_hold (l : List HeldRec) : State := (running 0x0213 [0, 0, 0, 0]).modBox 0 fun b => { b with held := l }

theorem witness_ParameterWrites_get : (w_get [5, 2, 0xFF, 0xFF, 0, 0, 0, 0]).Runs 0 0x0211 (req 0x0211 [5, 2, 0xFF, 0xFF, 0, 0, 0, 0]) ∧
    (replied (.paramGet 0) (w_get [5, 2, 0xFF, 0xFF, 0, 0, 0, 0])).take 2 = [0, 0] ∧
    ((w_get [0x0B, 4, 131, 0, 0, 0, 0, 0]).readRow 0x040B).map (·.acc) = some .rc ∧
    (w_get [0x0B, 4, 131, 0, 0, 0, 0, 0]).counts 0x040B 131 ≠ (rcFields 0x040B).map (fun _ => 0) ∧
    (ran (.paramGet 0) (w_get [0x0B, 4, 131, 0, 0, 0, 0, 0])).counts 0x040B 131 = (rcFields 0x040B).map fun _ => 0 :=
  ⟨runs_running _ _ _ rfl, by decide, by decide, by decide, by decide⟩

theorem witness_ParameterWrites_set : (w_set [1, 0, 0, 0, 5, 2, 0xFF, 0xFF, 2, 0, 0, 0, 200, 0, 0, 0]).Runs 0 0x0212
      (req 0x0212 [1, 0, 0, 0, 5, 2, 0xFF, 0xFF, 2, 0, 0, 0, 200, 0, 0, 0]) ∧ ownUnitPage (0x0205 / 256) = true ∧
    layRecords 1 [5, 2, 0xFF, 0xFF, 2, 0, 0, 0, 200, 0, 0, 0] = some [{ rec_ := { id := 0x0205, inst := 0xFFFF, v := [200, 0] }, size := 2, rsvd := 0 }] ∧
    (w_set []).setFailure false 0 [] [{ rec_ := { id := 0x0205, inst := 0xFFFF, v := [200, 0] }, size := 2, rsvd := 0 }] = none ∧
    (w_set []).relationFailure [{ id := 0x0205, inst := 0xFFFF, v := [200, 0] }] = none ∧
    (ran (.paramSet 0) (w_set [1, 0, 0, 0, 5, 2, 0xFF, 0xFF, 2, 0, 0, 0, 200, 0, 0, 0])).p0 0x0205 = 200 ∧
    (w_set []).setFailure false 0 [] [{ rec_ := { id := 0x02FF, inst := 0xFFFF, v := [] }, size := 0, rsvd := 0 }] = some (0, stBadParam, 1) ∧
    replied (.paramSet 0) (w_set [1, 0, 0, 0, 0xFF, 2, 0xFF, 0xFF, 0, 0, 0, 0]) = [4, 0, 0, 0, 0, 0, 8, 0, 0, 0, 0, 0, 1, 0, 0, 0] :=
  ⟨runs_running _ _ _ rfl, by decide, by decide, by decide +kernel, by decide +kernel, by decide +kernel, by decide +kernel, by decide +kernel⟩

def w_holding : State := w_set [1, 0, 1, 0, 3, 8, 15, 0, 4, 0, 0, 0, 0x80, 0x38, 1, 0]

theorem witness_ParameterWrites_hold : w_holding.Runs 0 0x0212 (req 0x0212 [1, 0, 1, 0, 3, 8, 15, 0, 4, 0, 0, 0, 0x80, 0x38, 1, 0]) ∧ w_holding.Writes 0 8 ∧
    w_holding.setFailure true 0 [] [{ rec_ := { id := 0x0803, inst := 15, v := [0x80, 0x38, 1, 0] }, size := 4, rsvd := 0 }] = none ∧
    ((ran (.paramSet 0) w_holding).box 0).held = [{ id := 0x0803, inst := 15, value := [0x80, 0x38, 1, 0], str := some 15 }] ∧
    (paramRow 0x0803).map (fun r => (r.cls, State.reset.blockStopped r 15)) = some (.shadowed, true) ∧
    (paramRow 0x0701).map (fun r => (r.cls, State.reset.haltRuns r 1)) = some (.halt, false) ∧
    (paramRow 0x0205).map (·.cls) = some .live :=
  ⟨runs_running _ _ _ rfl, ⟨rfl, rfl, rfl⟩, by decide +kernel, by decide +kernel, by decide +kernel, by decide +kernel, by decide +kernel⟩

theorem witness_ParameterWrites_commit : (w_hold [{ id := 0x0803, inst := 15, value := [9, 9], str := some 15 }]).Runs 0 0x0213 (req 0x0213 [0, 0, 0, 0]) ∧
    (w_hold [{ id := 0x0803, inst := 15, value := [9, 9], str := some 15 }]).Writes 0 8 ∧ (w_hold [{ id := 0x0803, inst := 15, value := [9, 9], str := some 15 }]).strStopped 15 = true ∧
    (ran (.paramCommit 0) (w_hold [{ id := 0x0803, inst := 15, value := [9, 9], str := some 15 }])).peff 0x0803 15 = [9, 9] ∧
    (w_hold []).Runs 0 0x0213 (req 0x0213 [0, 0, 0, 0]) ∧ ((ran (.paramCommit 0) (w_hold [])).box 0).state = .done :=
  ⟨⟨by decide, by decide, by decide, by decide, by decide, by decide⟩, ⟨rfl, rfl, rfl⟩, by decide, by decide,
    ⟨by decide, by decide, by decide, by decide, by decide, by decide⟩, by decide⟩

/-! ### Chapter 03 -/

/-- Lane 131 in a state, its PLL locked, at elapsed time 1 s. -/
def lane131 (st : LaneSt) (f : Lane → Lane := id) : State :=
  (((at_ 8000000000).setParam 0x0D02 noInst [1, 0, 0, 0, 50, 0, 0, 0]).modRack 8 fun r => { r with st := .locked }).modLane 131
    fun l => f { l with st }

def w_rack (st : RackSt) : State := (lane131 .linked).modRack 8 fun r => { r with st }
def w_pllOff : State := (at_ 144000000).updLanes fun l => { l with readyAt := some 0 }

theorem witness_LanePlls : (w_rack .locking).laneHeld 131 = false ∧ w_pllOff.lanes.readyAt = some 0 ∧ (w_pllOff.rack 7).st = .off ∧ 0 + 16000000 + 16000000 * 7 ≤ w_pllOff.mono ∧
    ((ran (.rackPllLockStart 7) w_pllOff).rack 7).st = .locking ∧ ((w_rack .locking).rack 8).st = .locking ∧
    ((ran (.rackPllLocked 8) ((w_rack .locking).modLane 131 fun l => { l with st := .off })).lane 131).st = .trainCdr ∧
    ((w_rack .locked).rack 8).st = .locked ∧ (w_rack .locked).faults.present.contains { src := 0x13, inst := 8, sub := 0 } = false ∧
    ((ran (.rackPllUnlock 8) (w_rack .locked)).lane 131).st = .off ∧ ((ran (.rackPllUnlock 8) (w_rack .locked)).rack 8).losses = 1 := by decide

theorem witness_LaneTraining_attempt : ((lane131 .trainCdr fun l => { l with signal := true }).lane 131).st = .trainCdr ∧
    ((ran (.laneClockLock 131) (lane131 .trainCdr fun l => { l with signal := true })).lane 131).st = .trainEq ∧
    (lane131 .trainEq).lane 131 = { st := .trainEq } ∧ 4000000 * 4 ≤ (lane131 .trainEq).mono ∧
    ((ran (.lanePresetTrialEnd 131 9 8 64) (lane131 .trainEq fun l => { l with tried := 3, best := some (1, 7) })).lane 131).preset = 3 ∧
    ((ran (.lanePresetTrialEnd 131 9 6 64) (lane131 .trainEq fun l => { l with tried := 3, best := some (1, 7) })).lane 131).preset = 1 ∧
    ((ran (.lanePresetTrialEnd 131 9 6 64) (lane131 .trainEq)).lane 131).preset = 1 ∧
    ((lane131 .trainEq).dfeSettled 131) = true ∧ ((ran (.laneDfeConverged 131) (lane131 .trainEq fun l => { l with presetFixed := true })).lane 131).st = .check ∧
    ((ran (.laneCheckWindowEnd 131 0) (lane131 .check)).lane 131).st = .align ∧
    ((ran (.laneBlockLock 131) (lane131 .align)).lane 131).st = .linked ∧
    ((ran (.laneBlockLock 131) (lane131 .hunt)).lane 131).crcWinAt = 8000000000 := by decide

theorem witness_LaneTraining_retries : (LaneSt.align).training = true ∧ 0 < (lane131 .align).p0 0x040F ∧
    ((ran (.laneAttemptTimeout 131) (lane131 .align)).lane 131).st = .retry ∧
    ((ran (.laneAttemptTimeout 131) (lane131 .align fun l => { l with attempt := 255 })).lane 131).st = .down ∧
    ((ran (.laneRetryEnd 131) (lane131 .retry fun l => { l with attempt := 2 })).lane 131).attempt = 3 ∧
    ((ran (.laneAutoRetrain 131) ((lane131 .down fun l => { l with signal := true }).setParam 0x0413 131 [1])).lane 131).st = .trainCdr ∧
    (decide ((lane131 .hunt).laneUnused 131 = true)) = false ∧ ((lane131 .hunt).rack (rackOf 131)).st = .locked ∧ (lane131 .hunt).laneHeld 131 = false ∧ 8000 * (lane131 .hunt).p0 0x0410 ≤ (lane131 .hunt).mono ∧
    ((ran (.laneHuntTimeout 131) (lane131 .hunt)).lane 131).st = .trainCdr := by decide

/-- As lane131, on lane 127 of rack 7 with idle allowed or not. -/
def lane127 (idle : Bool) (st : LaneSt) (f : Lane → Lane := id) : State :=
  (((at_ 8000000000).setParam 0x040C 127 [if idle then 1 else 0]).modRack 7 fun r => { r with st := .locked }).modLane 127 fun l => f { l with st }

theorem witness_LaneReceiver_signal : ((ran (.laneSignalDetectChange 131 true) (lane131 .linked fun l => { l with rxGap := some 0 })).lane 131).wakeFrom = some 8000000000 ∧
    ((ran (.laneSignalDetectChange 131 false) (lane131 .down fun l => { l with signal := true })).lane 131).signal = false ∧ (lane131 .linked fun l => { l with signal := true }).idleOk 131 = false ∧
    ((ran (.laneSignalDetectChange 131 false) (lane131 .linked fun l => { l with signal := true })).lane 131).st = .hunt ∧
    (lane127 true .linked fun l => { l with signal := true }).idleOk 127 = true ∧
    ((ran (.laneSignalDetectChange 127 false) (lane127 true .linked fun l => { l with signal := true })).lane 127).rxGap = some 8000000000 ∧
    ((ran (.wakeBurstRx 127) (lane127 true .linked fun l => { l with rxGap := some 0 })).lane 127).rxGap = none ∧
    ((ran (.wakeMarkerTimeout 127) (lane127 true .linked fun l => { l with wakeFrom := some (8000000000 - 205) })).lane 127).st = .hunt ∧
    0 + 8000 * ((lane127 true .linked).p0 0x040D + 2) ≤ (lane127 true .linked).mono ∧ (lane127 true .linked).darkExempt 127 = false ∧
    ((ran (.idleGapTimeout 127) (lane127 true .linked fun l => { l with rxGap := some 0 })).lane 127).st = .hunt := by decide

theorem witness_LaneReceiver_crc : ((List.replicate 6 true ++ [false]).take 63).count true < 7 ∧ ¬ (lane131 .linked).p0 0x0411 < 0 + 1 ∧ (lane131 .linked fun l => { l with crcWinFails := 65535 }).p0 0x0411 < 65535 + 1 ∧
    ((ran (.blockCrcFail 131) (lane131 .linked fun l => { l with crcWinFails := 65535 })).lane 131).crcAlarmed = true ∧
    ((ran (.crcWindowEnd 131) (lane131 .linked fun l => { l with crcWinFails := 65536 })).lane 131).crcWinFails = 0 ∧
    ((ran (.blockCrcFail 131) (lane131 .linked fun l => { l with hist := List.replicate 6 true })).lane 131).crcWinFails = 1 ∧
    ((ran (.blockCrcFail 131) (lane131 .linked fun l => { l with hist := List.replicate 6 true })).lane 131).st = .linked ∧
    ((ran (.blockCrcFail 131) (lane131 .linked fun l => { l with hist := List.replicate 7 true })).lane 131).st = .hunt ∧
    ((ran (.crcWindowEnd 131) (lane131 .linked)).lane 131).crcWinAt = 8000000000 ∧
    ((ran (.laneIdleEnter 127) (lane127 true .linked fun l => { l with idleRun := 8 })).lane 127).st = .sleep ∧
    8000 * (lane127 true .sleep).p0 0x040D ≤ (lane127 true .sleep).mono ∧
    ((ran (.idleMaxGapWake 127) (lane127 true .sleep)).lane 127).burstAt = 8000000000 := by decide +kernel

theorem witness_LaneReceiver_adapt : (lane131 .linked).dfeAdapts 131 = true ∧ ((lane131 .linked).lane 131).dfeAt + (lane131 .linked).dfeTicks 131 ≤ (lane131 .linked).mono ∧
    (lane131 .linked).rxRuns 131 = true ∧ ((lane131 .linked).lane 131).taps = [0, 0, 0, 0, 0] ∧
    ((ran (.dfeAdaptInterval 131 5 (-5) 0 1 (-1)) (lane131 .linked)).lane 131).taps = [1, -1, 0, 1, -1] ∧
    ((ran (.eyeWindowEnd 131 64 0 1) (lane131 .linked)).lane 131).eye = [64, 0, 1] := by decide

/-- A lane under test whose checker waits for one more symbol that matches, and one whose checker is locked with 32 errors. -/
def w_checker : LaneTest := { mode := 1, pattern := 1, gen := 1, ref := 1, run := 63 }
def w_checking : LaneTest := { mode := 3, pattern := 1, gen := 1, ref := 1, chkLock := true, errs := List.replicate 32 true }

theorem witness_PatternChecker : (lane131 .test).lane 131 = { st := .test } ∧
    ((ran (.testCheckerLock 131 (some 0) none none none) (lane131 .test fun l => { l with test := w_checker })).lane 131).test.chkLock = true ∧
    ((ran (.testCheckerLock 131 (some 0) none none none) (lane131 .test fun l => { l with test := { w_checker with mode := 2 } })).lane 131).test.chkLock = false ∧
    (patSymbol 1 1).1 = 0 ∧
    ((ran (.testCheckerLock 131 (some 3) none none none) (lane131 .test fun l => { l with test := w_checking })).lane 131).test.lockLosses = 1 ∧
    ((ran (.testCheckerLock 131 (some 3) none none none) (lane131 .test fun l => { l with test := w_checking })).lane 131).test.symErr = 1 ∧
    ((ran (.testCheckerLock 131 (some 0) none none none) (lane131 .test fun l => { l with test := w_checking })).lane 131).test.bits = 2 := by decide

theorem witness_LaneCommands : (running 0x0421 [131, 0, 1, 0, 0, 0, 0, 0] (lane131 .linked)).Runs 0 0x0421 (req 0x0421 [131, 0, 1, 0, 0, 0, 0, 0]) ∧
    rangeOk [0, 0, 132, 0, 0, 0, 0, 0] = true ∧ rangeOk [131, 0, 1, 0, 2, 0, 0, 0] = true ∧
    ((ran (.laneHalt 0) (running 0x0421 [131, 0, 1, 0, 0, 0, 0, 0] (lane131 .linked))).lane 131).st = .halted ∧
    replied (.laneHalt 0) (running 0x0421 [131, 0, 1, 0, 0, 0, 0, 0] (lane131 .linked)) = [0, 0, 0, 0, 0, 0, 4, 0, 1, 0, 0, 0] ∧
    replied (.laneHalt 0) (running 0x0421 [131, 0, 1, 0, 1, 0, 0, 0] (lane131 .linked)) = [4, 0, 0, 0, 0, 0, 4, 0, 0x22, 0, 0xFF, 0xFF] ∧
    (running 0x0424 [131, 0, 0, 0] (lane131 .test)).Runs 0 0x0424 (req 0x0424 [131, 0, 0, 0]) ∧
    ((ran (.laneTestStop 0) (running 0x0424 [131, 0, 0, 0] (lane131 .test))).lane 131).st = .trainCdr ∧
    (running 0x0423 [131, 0, 0, 0]).Runs 0 0x0423 (req 0x0423 [131, 0, 0, 0]) ∧
    (replied (.laneTestRead 0) (running 0x0423 [131, 0, 0, 0])).length = 44 :=
  ⟨runs_running _ _ _ rfl, by decide, by decide, by decide, by decide, by decide, runs_running _ _ _ rfl, by decide, runs_running _ _ _ rfl, by decide⟩

def w_pairHalt : State := running 0x0421 [130, 0, 1, 0, 2, 0, 0, 0] paired

theorem witness_LaneCommands_pair : w_pairHalt.Runs 0 0x0421 (req 0x0421 [130, 0, 1, 0, 2, 0, 0, 0]) ∧ w_pairHalt.hasStandby = true ∧
    w_pairHalt.forwardBarred = false ∧ ((ran (.laneHalt 0) w_pairHalt).lane 130).st = .halted ∧
    ((ran (.laneHalt 0) w_pairHalt).box 0).waiting = .standbyAck stOk [1, 0, 0, 0] ∧
    ((ran (.laneTestStop 0) (running 0x0424 [5, 0, 1, 0] paired)).box 0).waiting = .standbyAck stOk [] ∧
    ((ran (.laneTestStart 0) (running 0x0422 [5, 0, 3, 1, 1, 0, 0, 0] paired)).twin.fwdOut).length = 1 :=
  ⟨runs_running _ _ _ rfl, by decide, by decide, by decide +kernel, by decide +kernel, by decide +kernel, by decide +kernel⟩

def w_allLocked : State := running 0x0420 [131, 0, 1, 0, 0, 0, 0, 0] ((lane131 .down).updLanes fun l =>
  { l with rack := { cells := (List.range 9).map fun k => (k, { st := .locked }) } })
def w_test (lane : Byte) : State := running 0x0422 [lane, 0, 3, 1, 0, 0, 0, 0] (at_ 5)

/-- An active whose lane 5 is enabled in a running string. -/
def w_laneRuns : State := ((paired.updRoll fun r => { r with working := r.working.set 5 (mvEntry 0 0) }).modStr 0 fun x => { x with st := .running })

theorem witness_LaneCommands_start : w_allLocked.Runs 0 0x0420 (req 0x0420 [131, 0, 1, 0, 0, 0, 0, 0]) ∧
    ((ran (.laneRetrain 0) w_allLocked).lane 131).st = .trainCdr ∧
    (w_test 131).Runs 0 0x0422 (req 0x0422 [131, 0, 3, 1, 0, 0, 0, 0]) ∧ (w_test 131).laneUnused 131 = true ∧
    ((ran (.laneTestStart 0) (w_test 131)).lane 131).test.startAt = 5 ∧ ((ran (.laneTestStart 0) (w_test 131)).lane 131).test.mode = 3 ∧
    (w_test 127).laneInUse 127 = false ∧ ((ran (.laneTestStart 0) (w_test 127)).lane 127).st = .test ∧
    replied (.laneTestStart 0) (running 0x0422 [131, 0, 3, 1, 0, 0, 0, 0] (lane131 .down)) = [3, 0, 0, 0, 0, 0, 4, 0, 0x21, 0, 0xFF, 0xFF] ∧
    replied (.laneTestStart 0) (running 0x0422 [5, 0, 3, 1, 0, 0, 0, 0] w_laneRuns) = [3, 0, 0, 0, 0, 0, 4, 0, 0x20, 0, 0xFF, 0xFF] :=
  ⟨runs_running _ _ _ rfl, by decide +kernel, runs_running _ _ _ rfl, by decide, by decide +kernel, by decide +kernel, by decide, by decide +kernel, by decide,
    by decide +kernel⟩
/-! ### Chapter 04 -/

/-- Lane 127 LINKED, with a link. -/
def link127 (f : Link → Link := id) (st : LaneSt := .linked) : State := (lane127 false st).modLink 127 f

theorem takes_127 (f : Link → Link) (h : RxHeader) (e : h.etag = 0) : (link127 f).Takes 127 h := ⟨by rfl, by rw [e]; rfl⟩

def cellSense : Bytes := setSlice (mvEntry 0 0) 80 [1, 0, 0x00, 0x40, 5, 0]
def stamp (ticks : Nat) (group : Nat) (v : Nat) : BitVec 96 := BitVec.ofNat 96 (ticks % 2 ^ 24 * 2 ^ 72 + group * 2 ^ 64 + v * 2 ^ 48)

theorem witness_CellReports_block : ((link127).lane 127).st.receives = true ∧
    ((ran (.misdirectedRx 127 { etag := 0, seq := 9 }) (link127)).lnk 127).upSeq = some 9 ∧
    ((ran (.idleBlockRx 127 { etag := 3, seq := 9 }) (link127)).lnk 127).roleRepeat = true ∧
    ((lane131 .linked).lane 131).st.receives = true ∧ (ran (.misdirectedRx 131 { etag := 0, seq := 9 }) (lane131 .linked)).twin.rxAt = 8000000000 ∧
    ¬ 800 < sdiff 24 ((stamp 8000000000 1 7).toNat / 2 ^ 72 % 2 ^ 24) ((link127).now % 2 ^ 24) ∧
    800 < sdiff 24 ((stamp 8000000801 1 7).toNat / 2 ^ 72 % 2 ^ 24) ((link127).now % 2 ^ 24) ∧
    (((link127).updRoll fun r => { r with working := { cells := [(127, mvEntry 0 0)] } }).entry 127).length = 128 ∧
    (BitVec.ofNat 96 (2 ^ 88)).toNat / 2 ^ 88 = 1 ∧
    ((ran (.healthRx 127 { etag := 0, seq := 9 } (BitVec.ofNat 96 (2 ^ 88))) (link127)).lnk 127).health.length = 12 := by decide +kernel

theorem witness_CellReports_faults : ((link127).lnk 127).faultsSeen = [] ∧
    (ran (.faultRx 127 { etag := 0, seq := 9 } (BitVec.ofNat 96 (4 * 2 ^ 88))) (link127)).faults.firings.get 0 0x38 = 1 ∧
    ((ran (.faultRx 127 { etag := 0, seq := 9 } (BitVec.ofNat 96 (4 * 2 ^ 88))) (link127)).lnk 127).faultsSeen = [(4, 0, 8000000000)] ∧
    (ran (.faultRx 127 { etag := 0, seq := 9 } (BitVec.ofNat 96 (4 * 2 ^ 88))) (link127 fun l => { l with faultsSeen := [(4, 0, 8000000000)] })).faults.firings.get 0 0x38 = 0 := by
  decide

def w_stream : State := (link127).setParam 0x050E 3 (leBytes 2 127 ++ [0, 0] ++ leBytes 4 0x1BFFF0 ++ leBytes 4 16)

theorem witness_CellReports_stream : (∀ x ∈ w_stream.slotOthers 3, 0x1BFFF0 + 16 ≤ x.1 ∨ x.1 + x.2 ≤ 0x1BFFF0) ∧ w_stream.pantry.mem.wf = true ∧
    w_stream.bankOff (0x1BFFF0 / 0x20000) = false ∧ (∀ j < 4, (link127).pu 0x050E j 0 2 ≠ 127) ∧ (∀ j < 4, w_stream.pu 0x050E j 0 2 = 127 ↔ j = 3) ∧
    0x1BFFF0 = w_stream.pu 0x050E 3 4 4 + w_stream.links.wptr.get 0 3 ∧
    (ran (.streamRx 127 { etag := 0, seq := 9 } 0xA5#96) w_stream).links.wptr.get 0 3 = 0 ∧
    (ran (.streamRx 127 { etag := 0, seq := 9 } 0xA5#96) w_stream).pantry.mem.read 0x1BFFFB = 0xA5 := by decide

def authing (f : Link → Link := id) : State := link127 fun l => f { l with auth := .running }
def w_resp : State := { authing fun l => { l with authId := some 5, nonceE := some 6 } with
  pantry := { linkKeys := [(5, [1])] } }
def respP : BitVec 96 := BitVec.ofNat 96 (0x13 * 2 ^ 88 + macOf [1] 0x45 5 0 6)

theorem witness_LinkExchanges_ident : (BitVec.ofNat 96 (0x11 * 2 ^ 88 + 5)).toNat / 2 ^ 88 = 0x11 ∧ ((authing).lnk 127).auth = .running ∧
    ((ran (.authIdentRx 127 { etag := 0, seq := 1 } (BitVec.ofNat 96 (0x11 * 2 ^ 88 + 5))) (authing)).lnk 127).authId = some 5 ∧
    ((ran (.authChallengeRx 127 { etag := 0, seq := 1 } (BitVec.ofNat 96 (0x12 * 2 ^ 88 + 6))) (authing)).lnk 127).nonceE = some 6 ∧
    ((ran (.authResultRx 127 { etag := 0, seq := 1 } (BitVec.ofNat 96 (0x1400 * 2 ^ 80))) (authing fun l => { l with headOutcome := some .passed })).lnk 127).auth = .passed ∧
    ((ran (.authResultRx 127 { etag := 0, seq := 1 } (BitVec.ofNat 96 (0x1401 * 2 ^ 80))) (authing)).lnk 127).auth = .failed := by decide

theorem witness_LinkExchanges_response : w_resp.Takes 127 { etag := 0, seq := 1 } ∧ respP.toNat / 2 ^ 88 = 0x13 ∧ (w_resp.lnk 127).auth = .running ∧
    (w_resp.lnk 127).headOutcome = none ∧ (w_resp.lnk 127).authId = some 5 ∧ (w_resp.lnk 127).nonceE = some 6 ∧
    w_resp.linkKey 5 = some [1] ∧ w_resp.p0 0x0501 ≠ 0 ∧ macOf [1] 0x45 5 (w_resp.lnk 127).nonceH 6 = respP.toNat % 2 ^ 64 ∧
    ((ran (.authResponseRx 127 { etag := 0, seq := 1 } respP) w_resp).lnk 127).headOutcome = some .passed ∧
    ((ran (.authResponseRx 127 { etag := 0, seq := 1 } respP) (w_resp.setParam 0x0501 noInst [0])).lnk 127).headOutcome = some .open_ :=
  ⟨⟨by decide, by decide⟩, by decide +kernel, by decide, by decide, by decide, by decide, by decide, by decide, by decide +kernel, by decide +kernel,
    by decide +kernel⟩

theorem witness_LinkExchanges_refused : macOf [1] 0x45 5 (w_resp.lnk 127).nonceH 6 ≠ (respP + 1).toNat % 2 ^ 64 ∧ (respP + 1).toNat / 2 ^ 88 = 0x13 ∧
    ((ran (.authResponseRx 127 { etag := 0, seq := 1 } (respP + 1)) w_resp).lnk 127).auth = .failed ∧
    ((authing fun l => { l with authId := some 9 }).linkKey 9) = none ∧
    ((ran (.authResponseRx 127 { etag := 0, seq := 1 } respP) ((authing fun l => { l with authId := some 9 }).setParam 0x0501 noInst [0])).lnk 127).headOutcome =
      some .failed := by decide +kernel

def w_exch : ParamExch := { id := 0xFFFF, op := 1, tag := 255, value := 7, tries := 2, sentAt := 0, for_ := .mailbox 0 }
def w_ackWait : State := link127 fun l => { l with param := some { w_exch with for_ := .dtFloor }, paramWait := [{ id := 3, op := 0, value := 0, for_ := .dtFloor }] }
def w_ackRx : State := running 0x0510 [] (link127 fun l => { l with param := some w_exch }) |>.modBox 0 fun b => { b with waiting := .epParam 127 }

theorem witness_LinkExchanges_param : w_ackRx.Takes 127 { etag := 0, seq := 1 } ∧ (w_ackRx.lnk 127).param = some w_exch ∧
    (w_ackRx.lnk 127).paramWait = [] ∧ (w_ackRx.box 0).taken.isSome = true ∧
    (BitVec.ofNat 96 (2 * 2 ^ 88 + 255 * 2 ^ 72 + 0xFFFF * 2 ^ 48)).toNat / 2 ^ 48 % 2 ^ 16 = w_exch.id ∧
    replied (.paramAckRx 127 { etag := 0, seq := 1 } (BitVec.ofNat 96 (2 * 2 ^ 88 + 255 * 2 ^ 72 + 0xFFFF * 2 ^ 48))) w_ackRx =
      [0, 0, 0, 0, 0, 0, 8, 0, 0, 2, 0, 0, 0, 0, 0, 0] ∧
    ((ran (.paramAckRx 127 { etag := 0, seq := 1 } (BitVec.ofNat 96 (2 * 2 ^ 88 + 255 * 2 ^ 72 + 0xFFFF * 2 ^ 48))) w_ackWait).lnk 127).floorDone = true ∧
    (((ran (.paramAckRx 127 { etag := 0, seq := 1 } (BitVec.ofNat 96 (2 * 2 ^ 88 + 255 * 2 ^ 72 + 0xFFFF * 2 ^ 48))) w_ackWait).lnk 127).param.map (·.id)) = some 3 :=
  ⟨⟨by decide, by decide⟩, by decide, by decide, by decide, by decide, by decide, by decide, by decide⟩

def w_cell : State := (link127).updRoll fun r => { r with working := { cells := [(127, setSlice (mvEntry 0 0) 0x40 [1])] } }
def sampleP : BitVec 96 := stamp 8000000000 0 0x4000

theorem witness_CellReports_sample : sdiff 24 (sampleP.toNat / 2 ^ 72 % 2 ^ 24) (w_cell.now % 2 ^ 24) ≤ 800 ∧ (w_cell.lane 127).st.receives = true ∧
    eKind (w_cell.entry 127) 0 = 1 ∧ sampleP.toNat / 2 ^ 64 % 2 = 0 ∧
    (((ran (.sampleRx 127 { etag := 0, seq := 9 } sampleP) w_cell).lnk 127).samples.get {} 0).at_ = some 8000000000 ∧
    (((ran (.sampleRx 127 { etag := 0, seq := 9 } sampleP) w_cell).lnk 127).samples.get {} 0).value =
      sat16 (0x4000 * eGain (w_cell.entry 127) 0 / 16384 + eOffset (w_cell.entry 127) 0) := by decide +kernel

def w4_sync : State := (link127).modDly 127 fun d => { d with exch := some ⟨5, 16 * 7999999000, 7999999000, 0, 0⟩ }

theorem witness_LinkExchanges_delay : w4_sync.Takes 127 { etag := 0, seq := 1 } ∧ (BitVec.ofNat 96 (0x305 * 2 ^ 80)).toNat / 2 ^ 88 = 3 ∧
    (w4_sync.dly 127).exch = some ⟨5, 16 * 7999999000, 7999999000, 0, 0⟩ ∧ (BitVec.ofNat 96 (0x305 * 2 ^ 80)).toNat / 2 ^ 80 % 2 ^ 8 = 5 ∧
    w4_sync.mono ≤ 7999999000 + 160000 ∧ w4_sync.time.stepNo = 0 ∧
    ((ran (.timeSyncReplyRx 127 { etag := 0, seq := 1 } (BitVec.ofNat 96 (0x305 * 2 ^ 80))) w4_sync).dly 127).exch = none :=
  ⟨⟨by decide, by decide⟩, by decide, by decide, by decide, by decide, by decide, by decide⟩

def w4_exch : ParamExch := { id := 0x24, op := 0, tag := 255, value := 0, tries := 3, sentAt := 8000000000 - 400000, for_ := .dtFloor }
def w4_late : State := link127 fun l => { l with param := some w4_exch }
def w4_failed : State := running 0x0510 [] (link127 fun l => { l with param := some { w4_exch with tries := 4, for_ := .mailbox 0 } })
def w_failed : State := link127 fun l => { l with auth := .failed }

theorem witness_LinkTimers : ((link127).lane 127).st.working = true ∧ (link127).p0 0x0508 ≤ ((link127 fun l => { l with sinceRole := 4096 }).lnk 127).sinceRole ∧
    ((ran (.roleRepeatDue 127) (link127 fun l => { l with sinceRole := 4096 })).lnk 127).roleRepeat = true ∧
    (w4_late.lnk 127).param = some w4_exch ∧ (w4_exch.sentAt + 400000 ≤ w4_late.mono) ∧
    replied (.paramRetryTimeout 127) w4_failed = [12, 0, 0, 0, 0, 0, 4, 0, 0x26, 0, 0xFF, 0xFF] ∧ (w4_late.lnk 127).queue = [] ∧
    ((ran (.paramRetryTimeout 127) w4_late).lnk 127).param = some { w4_exch with tries := 4, sentAt := 8000000000 } ∧
    ((ran (.paramRetryTimeout 127) w4_late).lnk 127).queue = [⟨0x05, 0x24 * 2 ^ 80 + 255 * 2 ^ 64⟩] ∧
    ((authing).lnk 127).authAt + 8000000 ≤ (authing).mono ∧ ((authing).lnk 127).authMb = none ∧
    ((ran (.authTimeout 127) (authing)).lnk 127).auth = .failed ∧ (ran (.authTimeout 127) (authing)).faults.firings.get 0 0x15 = 1 ∧
    (w_failed.lnk 127).authAt + 8000000 * w_failed.p0 0x0503 ≤ w_failed.mono ∧ (w_failed.lane 127).st.trained = true := by decide

/-- What the nonce is stays open; that the exchange starts afresh does not. -/
theorem witness_LinkTimers_again : ((ran (.authRetryExpire 127) w_failed).lnk 127).auth = .running ∧
    ((ran (.authRetryExpire 127) w_failed).lnk 127).authAt = 8000000000 := ⟨rfl, rfl⟩

def w_silent : State := link127 fun l => { l with samples := { cells := [(0, { value := 7, at_ := some 0 })] } }
def w_due : State := (link127 fun l => { l with auth := .passed }).modDly 127 fun d => { d with lastSync := some 0, nextId := 9 }

theorem witness_LinkTimers_upLoss : (w_silent.lane 127).st.working = true ∧ w_silent.idleOk 127 = false ∧ (w_silent.lnk 127).stale = false ∧
    (w_silent.lnk 127).validAt + 8000 * w_silent.p0 0x050A ≤ w_silent.mono ∧ w_silent.darkExempt 127 = false ∧
    (w4_sync.dly 127).lastSync = none ∧ w_silent.faults.present.contains { src := 0x14, inst := 127, sub := 0 } = false ∧
    ((ran (.upLossTimeout 127) w_silent).lnk 127).stale = true ∧ ((ran (.upLossTimeout 127) w_silent).lnk 127).samples.get {} 0 = { value := 7, at_ := some 0 } ∧
    (w_due.lane 127).st.trained = true ∧ (w_due.lnk 127).passed = true ∧ (w_due.dly 127).lastSync = some 0 ∧ 8000 * w_due.p0 0x0608 ≤ w_due.mono ∧
    ((ran (.tsIntervalExpire 127) w_due).lnk 127).queue = [⟨0x06, 0x109 * 2 ^ 80⟩] := by decide

def w_owed (st : LaneSt) : State := link127 (fun l => { l with roleOwed := true, downSeq := 255, queue := [⟨0x05, 1⟩] }) st

theorem witness_LinkSending_slot : ((w_owed .hunt).lane 127).st = .hunt ∧ ((w_owed .hunt).lnk 127).roleOwed = true ∧
    ((ran (.downstreamSlot 127) (w_owed .hunt)).lnk 127).roleOwed = false ∧ ((ran (.downstreamSlot 127) (w_owed .linked)).lnk 127).downSeq = 0 ∧
    ((ran (.downstreamSlot 127) (w_owed .linked)).lnk 127).queue = [⟨0x05, 1⟩] ∧ ((w_owed .align).lane 127).st = .align ∧
    ((ran (.downstreamSlot 127) (w_owed .align)).lnk 127).roleOwed = true ∧ ((ran (.downstreamSlot 127) (w_owed .align)).lnk 127).downSeq = 0 := by decide +kernel

def w_queued (st : LaneSt) (l : List DownBlock) : State := (link127 (fun l' => { l' with queue := l }) st).setParam 0x040C 127 [1]

theorem witness_LinkSending_queue : (w_queued .linked [⟨0x05, 1⟩, ⟨0x0A, 2⟩]).timedOk 127 = false ∧
    (w_queued .linked [⟨0x05, 1⟩, ⟨0x0A, 2⟩]).bestQueued 127 = some ⟨0x0A, 2⟩ ∧
    ((ran (.downstreamSlot 127) (w_queued .linked [⟨0x05, 1⟩, ⟨0x0A, 2⟩])).lnk 127).queue = [⟨0x05, 1⟩] ∧
    (w_queued .linked []).bestQueued 127 = none ∧ ((ran (.downstreamSlot 127) (w_queued .linked [])).lane 127).idleRun = 1 ∧
    (w_queued .sleep []).idleOk 127 = true ∧ ((ran (.downstreamSlot 127) (w_queued .sleep [])).lane 127).st = .sleep ∧
    ((w_queued .off []).lane 127).st ∉ [.align, .linked, .hunt, .sleep] := by decide +kernel

def epReq (op : Byte) : Bytes := [127, 0, op, 0, 0xFF, 0xFF, 0, 0, 7, 0, 0, 0]
def w_ep (op : Byte) : State := running 0x0510 (epReq op) (link127 fun l => { l with auth := .passed })
def w_reauth : State := running 0x0511 [127, 0, 0, 0] (link127)

theorem witness_LinkSending_commands : (w_ep 1).Runs 0 0x0510 (req 0x0510 (epReq 1)) ∧ 127 = uAt (epReq 1) 0 2 ∧ uAt (epReq 1) 2 1 ≤ 1 ∧
    ((w_ep 1).lane 127).st.trained = true ∧ ((w_ep 1).lnk 127).passed = true ∧ ((w_ep 1).lnk 127).param = none ∧
    ((ran (.epParam 0) (w_ep 1)).lnk 127).param = some { id := 0xFFFF, op := 1, tag := 0, value := 7, tries := 1, sentAt := 8000000000, for_ := .mailbox 0 } ∧
    ((ran (.epParam 0) (w_ep 0)).lnk 127).param = some { id := 0xFFFF, op := 0, tag := 0, value := 0, tries := 1, sentAt := 8000000000, for_ := .mailbox 0 } ∧
    replied (.epParam 0) (running 0x0510 (epReq 1)) = [3, 0, 0, 0, 0, 0, 4, 0, 0x24, 0, 0xFF, 0xFF] ∧
    w_reauth.Runs 0 0x0511 (req 0x0511 [127, 0, 0, 0]) ∧ eEnabled (w_reauth.entry 127) = false ∧ (w_reauth.lnk 127).authMb = none ∧
    ((ran (.epReauth 0) (running 0x0511 [127, 0, 1, 0] paired)).box 0).waiting = .standbyAck stOk [] ∧
    replied (.epReauth 0) (running 0x0511 [127, 0, 2, 0]) = [4, 0, 0, 0, 0, 0, 4, 0, 0x22, 0, 0xFF, 0xFF] :=
  ⟨runs_running _ _ _ rfl, by decide, by decide, by decide, by decide, by decide, by decide, by decide, by decide, runs_running _ _ _ rfl, by decide, by decide,
    by decide +kernel, by decide⟩

theorem witness_LinkSending_reauth : ((ran (.epReauth 0) w_reauth).lnk 127).auth = .running ∧
    ((ran (.epReauth 0) w_reauth).lnk 127).authMb = some 0 ∧ ((ran (.epReauth 0) w_reauth).box 0).waiting = .reauth 127 := ⟨rfl, rfl, rfl⟩

/-! ### Chapter 05 -/

/-- The service lanes LINKED, at elapsed time 1 s. -/
def svcs (s : State := at_ 8000000000) : State :=
  [128, 129, 130, 131].foldl (fun s l => s.modLane l fun x => { x with st := .linked }) s

def w_answer : State := (svcs).updTime fun t =>
  { t with svcAnswer := { cells := [(130, { id := 5, t1 := 16 * 1000, at_ := 8000000000, stepNo := 0, t2 := 16 * 1300 })] }, source := .twinB }
def w_respP : BitVec 96 := BitVec.ofNat 96 (0x205 * 2 ^ 80 + (16 * 300 + 12800) * 2 ^ 32)

def w_syncP : BitVec 96 := BitVec.ofNat 96 (0x105 * 2 ^ 80 + 77)
def w_respFar : BitVec 96 := BitVec.ofNat 96 (0x205 * 2 ^ 80 + (16 * 300 + 64000000) * 2 ^ 32)

theorem takes_sync : (svcs).SvcTakes .twinB { etag := 0, seq := 1 } := ⟨by decide, by decide, fun _ q h => by cases h⟩
theorem takes_answer : w_answer.SvcTakes .twinB { etag := 0, seq := 1 } := ⟨by decide, by decide, fun _ q h => by cases h⟩

theorem witness_TimeSources_exchange : w_syncP.toNat / 2 ^ 88 = 1 ∧
    ((ran (.syncRx .twinB { etag := 0, seq := 1 } w_syncP) (svcs)).time.svcAnswer.get? 130).isSome = true ∧
    ((ran (.syncRx .twinB { etag := 0, seq := 1 } w_syncP) (svcs)).lnk 130).queue.length = 1 ∧
    w_respP.toNat / 2 ^ 88 = 2 ∧ w_respP.toNat / 2 ^ 80 % 2 ^ 8 = 5 ∧ w_answer.sourceLane (svcLane .twinB) 5 = true ∧
    ((16 * 1000 : Int) + w_respP.toNat / 2 ^ 32 % 2 ^ 32 - 16 * 1300).natAbs = 16 * w_answer.p0 0x0605 ∧
    (ran (.delayRespRx .twinB { etag := 0, seq := 1 } w_respP) w_answer).time.offset = 12800 ∧
    (ran (.delayRespRx .twinB { etag := 0, seq := 1 } w_respP) w_answer).time.svcAnswer.get? 130 = none ∧
    (ran (.delayRespRx .twinB { etag := 0, seq := 1 } w_respP) w_answer).time.stepNo = 0 ∧
    w_respFar.toNat / 2 ^ 88 = 2 ∧ w_respFar.toNat / 2 ^ 80 % 2 ^ 8 = 5 ∧ w_answer.anyRuns = false ∧
    (ran (.delayRespRx .twinB { etag := 0, seq := 1 } w_respFar) w_answer).time.stepNo = 1 ∧
    (ran (.delayRespRx .twinB { etag := 0, seq := 1 } w_respFar) w_answer).time.tick = 8004000000 := by decide +kernel

def w_following : State := ((svcs).setParam 0x0E01 noInst [1]).updTwin (fun t => { t with role := .referee }) |>.updRing fun r => { r with follow := .ringE }

/-- An ACTIVE unit of head 0 with the ring on. -/
def w_group : State := ((svcs).setParam 0x0E01 noInst [1]).updTwin fun t => { t with role := .active }
def ringTimeP (hops gen : Nat) : BitVec 96 := BitVec.ofNat 96 (hops * 2 ^ 81 + gen * 2 ^ 48 + 3 * 2 ^ 45)

theorem witness_TimeSources_ring : w_group.ringEn = true ∧ w_group.isMaster = true ∧ w_group.time.ringDue ≤ w_group.mono ∧
    (w_group.lane 128).st = .linked ∧ (w_group.lane 129).st = .linked ∧ ((ran .ringTimeSend w_group).lnk 129).queue.length = 2 ∧
    (ran .ringTimeSend w_group).time.ringDue = 8000080000 ∧ w_group.ringStale (ringTimeP 16 1) = false ∧
    (ringTimeP 16 1).toNat / 2 ^ 81 % 2 ^ 5 = 16 ∧ sdiff 16 ((ringTimeP 16 1).toNat / 2 ^ 48 % 2 ^ 16) w_group.time.gen = 1 ∧
    (ran (.ringTimeRx .w { etag := 0, seq := 1 } (ringTimeP 16 1)) w_group).time.gen = 1 ∧
    (ran (.ringTimeRx .w { etag := 0, seq := 1 } (ringTimeP 16 1)) w_group).time.masterHead = 3 ∧
    (ran (.ringTimeRx .w { etag := 0, seq := 1 } (ringTimeP 17 1)) w_group).time = w_group.time := by decide

theorem witness_TimeSources_followed : w_following.ring.follow = ringSource (ringLane .e) ∧ w_following.isMaster = false ∧
    w_following.twin.role = .referee ∧ sdiff 16 ((BitVec.ofNat 96 (2 * 2 ^ 81 + 9 * 2 ^ 37)).toNat / 2 ^ 48 % 2 ^ 16) w_following.time.gen = 0 ∧
    (ran (.ringTimeRx .e { etag := 0, seq := 1 } (BitVec.ofNat 96 (2 * 2 ^ 81 + 9 * 2 ^ 37))) w_following).ring.awaited.get? 128 = some 9 ∧
    (ran (.ringTimeRx .e { etag := 0, seq := 1 } (BitVec.ofNat 96 (2 * 2 ^ 81 + 9 * 2 ^ 37))) w_following).time.hops = 2 ∧
    ((ran (.ringTimeRx .e { etag := 0, seq := 1 } (BitVec.ofNat 96 (2 * 2 ^ 81 + 9 * 2 ^ 37))) w_following).lnk 129).queue.length = 2 := by
  decide

def w_lost : State := ((at_ 8000000000).updTime fun t => { t with state := .locked, source := .ringE }).updRing fun r => { r with follow := .ringE }

theorem witness_TimeSources_loss : w_lost.ring.follow = ringSource (ringLane .e) ∧ w_lost.time.east.at_ + 240000 ≤ w_lost.mono ∧
    (ran .timeNeighbourTimeout w_lost).ring.follow = .none ∧ w_lost.time.state = .locked ∧ w_lost.time.lastMsg + 8000 * w_lost.p0 0x0607 ≤ w_lost.mono ∧
    w_lost.faults.present.contains { src := 0x20, inst := noInst, sub := 0 } = false ∧
    (ran .masterLossExpire w_lost).time.state = .holdover ∧ (ran .masterLossExpire w_lost).faults.firings.get 0 0x20 = 1 := by decide

theorem takes_claim : (ringed).RingTakes .e (from5 (2 ^ 60 + 2 ^ 44 + 5 * 2 ^ 41)) := ⟨by decide, by decide, by decide, by decide⟩

def w_claim : State := (running 0x0621 [0, 0, 0xFF, 0xFF] (at_ 1600000)).updTime fun t =>
  { t with claim := some { mbs := [0], head := 7, gen := 32767, waitFor := [3], at_ := 0 } }

def w_ownClaim (gen : Nat) : State := (ringed).updTime fun t => { t with claim := some { mbs := [0], head := 7, gen, waitFor := [2], at_ := 0 } }
def w_ackP (node : Nat) : BitVec 96 := from5 (2 * 2 ^ 60 + 2 ^ 44 + 7 * 2 ^ 41 + node * 2 ^ 36)
theorem takes_ack : (w_ownClaim 1).RingTakes .e (w_ackP (ringed).node) := ⟨by decide, by decide, by decide, by decide⟩

theorem witness_TimeSources_claims : (ringed).time.claim = none ∧ (from5 (2 ^ 60 + 2 ^ 44 + 5 * 2 ^ 41)).toNat / 2 ^ 60 % 2 ^ 4 = 1 ∧
    sdiff 16 ((from5 (2 ^ 60 + 2 ^ 44 + 5 * 2 ^ 41)).toNat / 2 ^ 44 % 2 ^ 16) (ringed).time.gen = 1 ∧
    (ran (.ringMasterRx .e hdr (from5 (2 ^ 60 + 2 ^ 44 + 5 * 2 ^ 41))) ringed).time.masterHead = 5 ∧
    (ran (.ringMasterRx .e hdr (from5 (2 ^ 60 + 2 ^ 44 + 5 * 2 ^ 41))) (w_ownClaim 1)).time.claim = none ∧
    (w_ackP (ringed).node).toNat / 2 ^ 60 % 2 ^ 4 = 2 ∧ (w_ackP (ringed).node).toNat / 2 ^ 36 % 2 ^ 5 = (w_ownClaim 1).node ∧
    (ran (.ringMasterRx .e hdr (w_ackP (ringed).node)) (w_ownClaim 1)).time.gen = 1 ∧
    (ran (.ringMasterRx .e hdr (w_ackP (ringed).node)) (w_ownClaim 1)).time.masterHead = 7 ∧
    w_claim.time.claim = some ⟨[0], 7, 32767, [3], 0⟩ ∧ 1600000 ≤ w_claim.mono ∧ (w_claim.box 0).taken.isSome = true ∧
    (ran .timeMasterSetTimeout w_claim).time.gen = 32767 ∧
    replied .timeMasterSetTimeout w_claim = [0, 0, 0, 0, 0, 0, 2, 0, 255, 127] := by decide

/-- Port 1 on, its link up, at elapsed time 10 s. -/
def w_port (f : StaPort → StaPort := id) : State :=
  ((at_ 80000000000).setParam 0x0701 1 [1]).modPort 1 fun p => f { p with linkUp := true }

def otherFrame : Bytes := List.replicate 60 0
def ptpFrame : Bytes := [0x01, 0x80, 0xC2, 0, 0, 0x0E] ++ List.replicate 6 0 ++ [0x88, 0xF7] ++ List.replicate 46 0xFF

theorem witness_StationPorts_frames : (w_port).staUp 1 = true ∧ (w_port).counts 0x0707 1 = [0, 0, 0, 0, 0] ∧ (w_port).staUp 0 = false ∧
    (w_port).staAdmits 1 otherFrame = false ∧ (ran (.staFrameRx 1 otherFrame) (w_port)).counts 0x0707 1 = [0, 0, 1, 0, 0] ∧
    (w_port).staAdmits 1 ptpFrame = true ∧ (ran (.staFrameRx 1 ptpFrame) (w_port)).counts 0x0707 1 = [0, 1, 0, 0, 0] ∧
    ((ran (.staLinkUp 1 9) (w_port)).port 1).align = 9 := by decide

def w_pdelay : State := (w_port).setParam 0x0705 1 [1, 0, 0, 0, 0, 0, 0, 0] |>.updTwin fun t => { t with role := .active }
def w_frame (at_ : Nat) : State := w_port fun p => { p with queue := [⟨9, false, false, at_, [1, 2]⟩, ⟨8, true, false, 0, []⟩] }

def w_ptpMaster : State := w_port (fun p => { p with listenAt := 0 }) |>.setParam 0x0705 1 [2, 0, 0, 0, 0, 0, 0, 0]

theorem witness_StationPorts_due : (w_pdelay).ptpRuns 1 = true ∧ (w_pdelay.port 1).pdelayAt + logTicks (w_pdelay.ps 0x0705 1 5 1) ≤ w_pdelay.mono ∧
    w_pdelay.ptpCode 1 ≠ 6 ∧ (w_pdelay.port 1).ptpWait = [] ∧ ((ran (.ptpMessageTimer 1 .pdelayReq) w_pdelay).port 1).pdelaySeq = 1 ∧
    ((ran (.ptpMessageTimer 1 .pdelayReq) w_pdelay).port 1).ptpOut.length = 1 ∧
    w_ptpMaster.ptpCode 1 = 6 ∧ w_ptpMaster.ptpRuns 1 = true ∧ (w_ptpMaster.port 1).syncAt + logTicks (w_ptpMaster.ps 0x0705 1 4 1) ≤ w_ptpMaster.mono ∧
    ((ran (.ptpMessageTimer 1 .sync) w_ptpMaster).port 1).syncSeq = 1 ∧ (w_port).ptpRuns 0 = false ∧
    (w_frame 80000000000).portFree 1 80000000000 = (w_frame 80000000000).now ∧ ((w_frame 80000000000).ptpDrain 1) = w_frame 80000000000 ∧
    ((ran (.staLaunchDue 1) (w_frame 80000000000)).port 1).queue = [⟨8, true, false, 0, []⟩] ∧
    ((ran (.staLaunchDue 1) (w_frame 80000000000)).port 1).lastTx.length = 72 ∧
    ran (.staLaunchDue 1) (w_frame 80000000001) = w_frame 80000000001 ∧
    ((ran (.staLaunchDue 1) (ran (.staLaunchDue 1) (w_frame 80000000000))).port 1).queue = [⟨8, true, false, 0, []⟩] := by decide +kernel

def launchReq (short : Nat) : Bytes := leBytes 1 1 ++ [0] ++ leBytes 2 0xEFFF ++ leBytes 4 short ++ leBytes 4 (0x1C0000 - 14) ++ leBytes 2 14 ++ [0, 0]
def w_launch : State := running 0x0710 (launchReq ((w_port).shortNow + 800000000)) (w_port)
def w_stamps : State := running 0x0711 [1, 0, 0, 0] (w_port fun p => { p with stamps := [⟨5, false, 77⟩, ⟨0xF001, false, 78⟩, ⟨0xEFFF, true, 79⟩] })

def w_full : State := (running 0x0710 (launchReq ((w_port).shortNow + 800000000)) (w_port fun p =>
  { p with queue := List.replicate 32 ⟨9, false, false, 80000008001, []⟩ }))

theorem witness_StationPorts_commands : w_launch.Runs 0 0x0710 (req 0x0710 (launchReq ((w_port).shortNow + 800000000))) ∧ (w_launch.port 1).queue = [] ∧
    shortDiff ((w_port).shortNow + 800000000) w_launch.shortNow = 800000000 ∧ (w_port).shortNow + 800000000 < 2 ^ 32 ∧
    replied (.staLaunch 0) w_launch = [0, 0, 0, 0, 0, 0, 4, 0, 31, 0, 0, 0] ∧
    ((ran (.staLaunch 0) w_launch).port 1).queue = [⟨0xEFFF, false, false, 80800000000, List.replicate 14 0⟩] ∧
    replied (.staLaunch 0) w_full = [1, 0, 0, 0, 0, 0, 4, 0, 2, 0, 0, 0] ∧
    w_stamps.Runs 0 0x0711 (req 0x0711 (leBytes 1 1 ++ [0, 0, 0])) ∧ ((ran (.staStampRead 0) w_stamps).port 1).stamps = [] ∧
    replied (.staStampRead 0) w_stamps = [0, 0, 0, 0, 0, 0, 28, 0, 2, 0, 0, 0, 5, 0, 0, 0, 77, 0, 0, 0, 0, 0, 0, 0, 0xFF, 0xEF, 1, 0, 79, 0, 0, 0, 0, 0, 0, 0] :=
  ⟨runs_running _ _ _ rfl, by decide, by decide, by decide, by decide, by decide, by decide, runs_running _ _ _ rfl, by decide, by decide⟩

/-- The time unit runs, a capture held or not. -/
def w_cap (held : Bool) (t : Nat := 80000000000) : State :=
  (at_ t).updTime fun x => { x with running := true, capEdge := 2, capValid := held, capOverrun := held, capTick := 7, ppsEn := true }

theorem witness_TimeCaptures : (w_cap false).sys.stage ≠ .inReset ∧ (3#32 : Word).getLsbD 0 = true ∧ (w_cap false).time.capValid = false ∧
    (ran (.tcapCapture 3#32) (w_cap false)).time.capSeq = 1 ∧ (w_cap true).time.capValid = true ∧
    (ran (.tcapCapture 3#32) (w_cap true)).time.capTick = 7 ∧ (ran (.tcapCapture 3#32) (w_cap true)).time.capOverrun = true ∧
    (ran (.tcapCapture 2#32) (w_cap false)).time.capSeq = 0 ∧
    (w_cap false).time.running = true ∧ (w_cap false).time.capEdge = 2 ∧ (w_cap false).time.capLevel ≠ some false ∧
    ran (.timeCapInEdge false 15#32) (w_cap false) = w_cap false ∧
    (ran (.tcapStatusWrite 4#32) (w_cap true)).time.capOverrun = false ∧ (ran (.tcapStatusWrite 4#32) (w_cap true)).time.capValid = true ∧
    (w_cap false).time.ppsLast ≠ some ((w_cap false).ptpTime (w_cap false).now / 8000000000) ∧
    (ran .ppsSecond (w_cap false)).time.ppsHigh = some (80000000000 + 8000 * (w_cap false).p0 0x060F) ∧
    (ran .ppsPulseEnd ((w_cap false 9).updTime fun t => { t with ppsHigh := some 9 })).time.ppsHigh = none := by decide

/-- The captured tick stays open by two ticks; that there is one does not. -/
theorem witness_TimeCaptures_edge : (ran (.timeCapInEdge false 16#32) (w_cap false)).time.capValid = true ∧
    (ran (.timeCapInEdge false 16#32) (w_cap false)).time.capPin = true ∧
    (ran (.timeCapInEdge true 16#32) (w_cap true)).time.capOverrun = true := ⟨rfl, rfl, rfl⟩

/-- The ACTIVE unit of head 0, the master, with a command running. -/
def w_master (op : Nat) (p : Bytes) : State := (running op p (at_ 80)).updTwin fun t => { t with role := .active }
def newTime : Bytes := leBytes 8 (2 ^ 64 - 1) ++ [0, 0, 0, 0]

theorem runs_master (op : Nat) (p : Bytes) : (w_master op p).Runs 0 op (req op p) := by
  refine ⟨?_, ?_, ?_, rfl, ?_, ?_⟩ <;> simp [w_master, running, req, State.modBox, State.box, State.updTwin, State.myTurn] <;> rfl

def w_others : State := ((w_master 0x0621 [0, 0, 0xFF, 0xFF]).updRing fun r => { r with node := r.node.set 6 { present := true, role := 1 } })
def w_claimOut (head : Nat) : State := w_others.updTime fun t => { t with claim := some { mbs := [3], head, gen := 1, waitFor := [3], at_ := 0 } }

theorem witness_TimeCommands : (w_master 0x0620 newTime).isMaster = true ∧ (w_master 0x0620 newTime).groupRuns = false ∧
    (ran (.timeSet 0) (w_master 0x0620 newTime)).now = 2 ^ 64 - 1 ∧
    replied (.timeSet 0) (w_master 0x0620 newTime) = [0, 0, 0, 0, 0, 0, 8, 0, 80, 0, 0, 0, 0, 0, 0, 0] ∧
    (running 0x0620 newTime).isMaster = false ∧ replied (.timeSet 0) (running 0x0620 newTime) = [5, 0, 0, 0, 0, 0, 4, 0, 0x32, 0, 0xFF, 0xFF] ∧
    (w_master 0x0621 [0, 0, 0xFF, 0xFF]).headId = 0 ∧ (w_master 0x0621 [0, 0, 0xFF, 0xFF]).time.claim = none ∧
    replied (.timeMasterSet 0) (w_master 0x0621 [0, 0, 0xFF, 0xFF]) = [0, 0, 0, 0, 0, 0, 2, 0, 1, 0] ∧
    w_others.headPresent 3 = true ∧ (ran (.timeMasterSet 0) w_others).time.claim = some ⟨[0], 0, 1, [3], 80⟩ ∧
    (ran (.timeMasterSet 0) (w_claimOut 0)).time.claim = some ⟨[3, 0], 0, 1, [3], 0⟩ ∧
    (ran (.timeMasterSet 0) (w_claimOut 3)).time.claim = some ⟨[0], 0, 1, [3], 80⟩ := by decide +kernel
/-! ### Chapter 14 -/

/-- Both bridges driven, at elapsed time 10 s; one switch of bridge 1 set. -/
def w_sw (k : Nat) (f : AuxSw → AuxSw) : State := ((at_ 80000000000).updAux fun a => { a with driving := true }).modSw 1 k f

theorem witness_AuxSwitches_sg : ((w_sw 5 id).sw 1 5).sg ≠ true ∧ ((ran (.auxSgEdge 1 5 true) (w_sw 5 id)).sw 1 5).sgAt = 80000000000 ∧
    ran (.auxSgEdge 1 5 false) (w_sw 5 id) = w_sw 5 id ∧
    ((w_sw 5 fun x => { x with on := true }).sw 1 5).sgAt + 20 * (w_sw 5 id).pu 0x1208 1 2 2 ≤ (w_sw 5 id).mono ∧ ((w_sw 5 id).br 1).short = false ∧
    ((ran (.auxSgFilterExpire 1 5) (w_sw 5 fun x => { x with on := true })).sw 1 5).on = false ∧
    ((ran (.auxSgFilterExpire 1 5) (w_sw 5 fun x => { x with on := true })).sw 1 5).locked = true ∧
    (ran (.auxSgFilterExpire 1 5) (w_sw 5 fun x => { x with on := true })).faults.firings.get 0 0x6B = 1 ∧
    ((ran (.auxSgFilterExpire 1 5) ((w_sw 5 fun x => { x with on := true }).modBr 1 fun x => { x with short := true })).aph 1 2).incomplete = true ∧
    ((ran (.auxSgFilterExpire 1 5) (w_sw 5 fun x => { x with sg := true, locked := true })).sw 1 5).locked = false ∧
    ((w_sw 5 fun x => { x with locked := true }).sw 1 5).sg ≠ ((w_sw 5 fun x => { x with locked := true }).sw 1 5).locked := by decide +kernel

def w_pend : State := (w_sw 4 fun x => { x with sg := true, pend := some 0 }).modSw 1 5 fun x => { x with offAt := some 79999984000 }

theorem witness_AuxSwitches_off : ((w_sw 5 id).sw 1 (swOther 5)).pend = none ∧ ((ran (.auxOffRise 1 5) (w_sw 5 id)).sw 1 5).offSeen = true ∧
    (w_pend.sw 1 (swOther 5)).pend.isSome = true ∧ (w_pend.sw 1 (swOther 5)).locked = false ∧ (w_pend.sw 1 (swOther 5)).sg = true ∧
    (w_pend.sw 1 5).on = false ∧ (w_pend.aph 1 2).judge = none ∧ ((ran (.auxOffRise 1 5) w_pend).sw 1 4).on = true ∧
    ((ran (.auxOffRise 1 5) (w_pend.modSw 1 4 fun x => { x with sg := false })).sw 1 4).pend = none ∧
    (((ran (.auxOffRise 1 5) (w_pend.modAph 1 2 fun y => { y with judge := some { tOff := 79999999000, up := true } })).aph 1 2).judge.map (·.tOn)) =
      some (some 80000000040) ∧
    w_pend.counts 0x120D 1 ≠ [] ∧ (w_pend.sw 1 4).pend = some 0 ∧ 0 + 20 * w_pend.pu 0x1208 1 0 2 ≤ w_pend.mono ∧
    ((ran (.auxConfTimeoutExpire 1 4) w_pend).sw 1 4).pend = none ∧ (ran (.auxConfTimeoutExpire 1 4) w_pend).faults.firings.get 0 0x69 = 1 ∧
    (((ran (.auxConfTimeoutExpire 1 4) (w_pend.modAph 1 2 fun y => { y with judge := some { tOff := 79999999000, up := true } })).aph 1 2).judge.map (·.lost)) =
      some true ∧
    (w_pend.sw 1 5).offAt = some 79999984000 ∧ 79999984000 + 16000 ≤ w_pend.mono ∧
    { src := 0x6A, inst := 1, sub := 5 } ∉ w_pend.faults.present ∧ (ran (.auxOffStuckTimeout 1 5) w_pend).faults.firings.get 0 0x6A = 1 ∧
    (w_pend.sw 1 4).offAt = none := by decide +kernel

def w_edge (on : Bool) (seen : Bool) : State :=
  (((w_sw 2 fun x => { x with sg := true }).modSw 1 3 fun x => { x with offSeen := seen }).modBr 1 fun x =>
    { x with edges := [{ at_ := 80000000000, k := 2, on }] })

theorem witness_AuxSwitches_edges : ((w_edge false true).br 1).edges = [{ at_ := 80000000000, k := 2, on := false, judged := false, check := false }] ∧
    (w_edge false true).aux.driving = true ∧ ((w_edge false true).aph 1 1).judge = none ∧
    ((ran (.auxScheduledEdge 1) (w_edge false true)).br 1).edges = [] ∧ ((w_edge true true).sw 1 2).on = false ∧
    ((w_edge true true).sw 1 (swOther 2)).cmd = false ∧ ((ran (.auxScheduledEdge 1) (w_edge true true)).sw 1 2).on = true ∧
    ((ran (.auxScheduledEdge 1) (w_edge true false)).sw 1 2).on = false ∧
    ((ran (.auxScheduledEdge 1) (w_edge true false)).sw 1 2).pend = some 80000000000 ∧
    ((ran (.auxScheduledEdge 1) ((w_edge true true).modSw 1 3 fun x => { x with cmd := true })).sw 1 2).on = false := by decide +kernel

/-- A refresh's last edge, its gate supply low; and an edge that is judged. -/
def w_refreshEdge : State := (w_sw 3 fun x => { x with on := true }).modBr 1 fun x =>
  { x with edges := [{ at_ := 80000000000, k := 2, on := true, check := true }, { at_ := 80000000001, k := 3, on := false }, { at_ := 80000000002, k := 4, on := false }] }
def w_judgedEdge : State := ((w_sw 3 fun x => { x with on := true }).setParam 0x1206 1 ([1] ++ List.replicate 19 0)).modBr 1 fun x =>
  { x with edges := [{ at_ := 80000000000, k := 3, on := false, judged := true }] }

theorem witness_AuxSwitches_refresh : (w_refreshEdge.sw 1 2).sg = false ∧ (w_refreshEdge.sw 1 3).on = true ∧
    ((ran (.auxScheduledEdge 1) w_refreshEdge).sw 1 3).on = false ∧ (ran (.auxScheduledEdge 1) w_refreshEdge).faults.firings.get 0 0x6C = 1 ∧
    (((ran (.auxScheduledEdge 1) w_refreshEdge).br 1).edges.map (·.k)) = [4] ∧ w_judgedEdge.pu 0x1206 1 0 1 = 1 ∧
    (w_judgedEdge.sw 1 3).on = true ∧ ((ran (.auxScheduledEdge 1) w_judgedEdge).aph 1 1).judge = some { tOff := 80000000000, up := true } ∧
    ((w_sw 3 id).br 1).edges = [] ∧ ran (.auxScheduledEdge 1) { w_judgedEdge with mono := 79999999999 } = { w_judgedEdge with mono := 79999999999 } := by
  decide +kernel

def w_judge (tx : Option Int) (tOn : Option Nat) : State :=
  (at_ 80000000000).modAph 1 2 fun x => { x with judge := some { tOff := 79999984000, up := true, tx, tOn } }

theorem witness_AuxSwitches_node : ((at_ 80000000000).aph 1 2).judge = none ∧ ((ran (.auxNodeChange 1 2 true) (at_ 80000000000)).aph 1 2).node = true ∧
    ((w_judge none none).aph 1 2).judge = some { tOff := 79999984000, up := true } ∧ (w_judge none none).mono ≤ 79999984000 + 16000 ∧
    (((ran (.auxNodeChange 1 2 true) (w_judge none none)).aph 1 2).judge).map (·.tx) =
      some (some ((80000000040 : Int) - 20 * (w_judge none none).pu 0x1206 1 18 2)) ∧
    (((w_judge none (some 5)).aph 1 2).judge).map (fun j => (j.tx, j.tOn)) = some (none, some 5) ∧
    ((w_judge none (some 5)).aph 1 2).bad + 1 < (w_judge none (some 5)).pu 0x1206 1 14 1 ∧
    ((ran (.auxNodeWindowEnd 1 2) (w_judge none (some 5))).aph 1 2).bad = 1 ∧
    ((ran (.auxNodeWindowEnd 1 2) (w_judge none (some 5))).aph 1 2).judge = none ∧
    ((ran (.auxNodeChange 1 2 true) (w_judge none (some 80000000200))).aph 1 2).good = 1 ∧
    ((ran (.auxNodeChange 1 2 true) (w_judge none (some 80000000200))).br 1).lastM = ((w_judge none none).pu 0x1206 1 18 2 : Int) + 8 ∧
    ((ran (.auxNodeChange 1 2 false) (w_judge none (some 80000000200))).aph 1 2).bad = 1 ∧
    ((ran (.auxNodeWindowEnd 1 2) ((w_judge none (some 5)).modAph 1 2 fun y => { y with bad := 254 })).aph 1 2).fallback = true ∧
    ((ran (.auxNodeWindowEnd 1 2) ((w_judge (some 79999990000) (some 80000000200)).modAph 1 2 fun y =>
      { y with fallback := true, good := 63 })).aph 1 2).fallback = false := by decide +kernel

/-- A trip input of bridge 1 low since the start, enabled, its trip latched or not. -/
def w14_trip (latched : Bool) (low : Option Nat := some 0) : State :=
  (((at_ 80000000000).setParam 0x1209 1 [100, 0, 0, 1, 100, 0, 0, 1]).updAux fun a => { a with driving := true }).modBr 1 fun x =>
    { x with mode := 2, trip := { cells := [(1, { lowSince := low, latched })] }, sw := { cells := [(4, { on := true, cmd := true })] } }

/-- A bridge at its boundary, its mode of the next period and of the last. -/
def w14_bound (new : Byte) (old : Nat) (k : Nat := 4) : State := (((at_ 80000000000).setParam 0x1201 1 [new]).updAux fun a => { a with driving := true }).modBr 1 fun x =>
  { x with mode := old, sw := { cells := [(k, { on := true, cmd := true, sg := true })] } }
/-- In PWM, phase 0 at its low level, its comparison value 5000 of 10,000. -/
def w14_pwm : State := ((w14_bound 1 1 1).setParam 0x1203 1 (leBytes 2 5000 ++ List.replicate 6 0)).modAph 1 0 fun y => { y with level := some false }
/-- In DIRECT, high side 0 asked for, its partner confirmed off. -/
def w14_direct : State := ((w14_bound 2 0).setParam 0x1205 1 [1]).modBr 1 fun x =>
  { x with sw := { cells := [(0, { sg := true }), (1, { offSeen := true })] } }

theorem witness_AuxModes_boundary : ((at_ 80000000000).br 1).next ≤ 80000000000 ∧ (at_ 80000000000).sys.stage ≠ .inReset ∧ (at_ 80000000000).aux.driving = false ∧
    ((ran (.auxPeriodBoundary 1) ((at_ 80000000000).setParam 0x1201 1 [2])).br 1).mode = 2 ∧
    ((ran (.auxPeriodBoundary 1) (at_ 80000000000)).br 1).boundaries = 1 ∧
    ((w14_bound 0 2).captureAll auxShadowed 1).pu 0x1201 1 0 1 = 0 ∧ ((w14_bound 0 2).br 1).tripped = false ∧ ((w14_bound 0 2).br 1).short = false ∧
    ((ran (.auxPeriodBoundary 1) (w14_bound 0 2)).sw 1 4).on = false ∧
    ((ran (.auxPeriodBoundary 1) (w14_bound 3 2 5)).br 1).short = true ∧ ((ran (.auxPeriodBoundary 1) (w14_bound 3 2 5)).sw 1 5).on = true ∧
    ((ran (.auxPeriodBoundary 1) (w14_bound 3 2 5)).br 1).edges.map (fun e => (e.at_, e.k)) = [(80000004000, 1), (80000004000, 3)] := by decide +kernel

theorem witness_AuxModes_periods : (w14_pwm.aph 1 0).level = some false ∧ bit (w14_pwm.pu 0x1204 1 0 1) 0 = true ∧ (w14_pwm.br 1).mode = 1 ∧
    w14_pwm.phaseDt 1 0 + max 1 (w14_pwm.pu 0x1207 1 0 2) ≤ 2 * 5000 ∧
    ((((ran (.auxPeriodBoundary 1) w14_pwm).br 1).edges.filter fun e => decide (e.k < 2)).map fun e => (e.at_, e.k, e.on)) =
      [(98000, 1, false), (102000, 0, true), (298000, 0, false), (302000, 1, true)] ∧
    bit (w14_direct.pu 0x1205 1 0 1) 0 = true ∧ bit (w14_direct.pu 0x1205 1 0 1) 1 = false ∧ (w14_direct.sw 1 1).offSeen = true ∧
    ((ran (.auxPeriodBoundary 1) w14_direct).sw 1 0).on = true ∧
    ((ran (.auxPeriodBoundary 1) (w14_direct.setParam 0x1205 1 [3])).sw 1 0).on = false ∧
    ran (.auxPeriodBoundary 1) { w14_direct with sys := { stage := .inReset } } = { w14_direct with sys := { stage := .inReset } } := by decide +kernel

theorem witness_AuxModes_events :
    ((ran (.auxTripPinEdge 1 0 false) (w14_trip false)).br 1).trip.get {} 0 = { lowSince := some 80000000000 } ∧
    ((w14_trip false).br 1).trip.get {} 1 = { lowSince := some 0 } ∧ 0 + 20 * (w14_trip false).pu 0x1209 1 4 2 ≤ (w14_trip false).mono ∧
    bit ((w14_trip false).pu 0x1209 1 7 1) 0 = true ∧ (w14_trip false).pu 0x1209 1 6 1 = 0 ∧ ((w14_trip false).br 1).short = false ∧
    (((ran (.auxTripActive 1 1) (w14_trip false)).br 1).trip.get {} 1).latched = true ∧ ((ran (.auxTripActive 1 1) (w14_trip false)).sw 1 4).on = false ∧
    (ran (.auxTripActive 1 1) (w14_trip false)).faults.firings.get 0 0x6F = 1 ∧
    ((ran (.auxTripActive 1 1) ((w14_trip false).setParam 0x1209 1 [100, 0, 0, 1, 100, 0, 1, 1])).br 1).short = true ∧
    ((ran (.auxTripActive 1 1) ((w14_trip false).updAux fun a => { a with driving := false })).sw 1 4).on = true ∧
    ran (.auxTripActive 1 1) (w14_trip true) = w14_trip true := by decide +kernel

def w14_clear (m : Byte) (s : State) : State := running 0x1220 [1, m, 0, 0] s
def w_auxSafe (a : Byte) : State := running 0x1221 [1, a, 0, 0] (w14_trip false none)

theorem witness_AuxModes_commands : (w14_clear 2 (w14_trip true)).Runs 0 0x1220 (req 0x1220 (leBytes 1 1 ++ leBytes 1 2 ++ [0, 0])) ∧
    (w14_clear 2 (w14_trip true)).Writes 0 0x12 ∧ bit 2 1 = true ∧ (w14_clear 2 (w14_trip true)).auxActive 1 1 = true ∧
    replied (.auxTripClear 0) (w14_clear 2 (w14_trip true)) = [BitVec.ofNat 8 stTrip, 0, 0, 0, 0, 0, 4, 0, 0xB1, 0, 255, 255] ∧
    (w14_clear 2 (w14_trip false none)).auxActive 1 1 = false ∧
    replied (.auxTripClear 0) (w14_clear 2 (w14_trip false none)) = [BitVec.ofNat 8 stRefused, 0, 0, 0, 0, 0, 4, 0, 0xB2, 0, 255, 255] ∧
    (((w14_clear 2 (w14_trip true none)).br 1).trip.get {} 1).latched = true ∧
    replied (.auxTripClear 0) (w14_clear 2 (w14_trip true none)) = [0, 0, 0, 0, 0, 0, 4, 0, 2, 0, 0, 0] ∧
    (((ran (.auxTripClear 0) (w14_clear 2 (w14_trip true none))).br 1).trip.get {} 1).latched = false ∧
    ((ran (.auxTripClear 0) (w14_clear 2 (w14_trip true none))).br 1).mode = 0 ∧ ((ran (.auxTripClear 0) (w14_clear 2 (w14_trip true none))).sw 1 4).on = false ∧
    replied (.auxTripClear 0) (running 0x1220 [2, 1, 0, 0]) = [4, 0, 0, 0, 0, 0, 4, 0, 5, 0, 255, 255] :=
  ⟨runs_running _ _ _ rfl, writes_running _ _ _ _ rfl rfl rfl, by decide, by decide, by decide, by decide, by decide, by decide, by decide, by decide, by decide,
    by decide, by decide⟩

theorem witness_AuxModes_safe : (w_auxSafe 1).Runs 0 0x1221 (req 0x1221 (leBytes 1 1 ++ leBytes 1 1 ++ [0, 0])) ∧ (w_auxSafe 1).Writes 0 0x12 ∧
    (w_auxSafe 1).aux.driving = true ∧ ((w_auxSafe 1).br 1).tripped = false ∧ ((w_auxSafe 1).br 1).short = false ∧
    ((ran (.auxSafe 0) (w_auxSafe 1)).br 1).mode = 3 ∧ ((ran (.auxSafe 0) (w_auxSafe 1)).br 1).short = true ∧
    ((ran (.auxSafe 0) (w_auxSafe 0)).br 1).mode = 0 ∧ ((ran (.auxSafe 0) (w_auxSafe 0)).sw 1 4).on = false ∧
    replied (.auxSafe 0) (w_auxSafe 2) = [4, 0, 0, 0, 0, 0, 4, 0, 5, 0, 255, 255] ∧
    ((ran (.auxSafe 0) (running 0x1221 [1, 0, 0, 0] (w14_trip true none))).sw 1 4).on = true :=
  ⟨runs_running _ _ _ rfl, writes_running _ _ _ _ rfl rfl rfl, by decide, by decide, by decide, by decide, by decide, by decide, by decide, by decide,
    by decide +kernel⟩

def w14_start : State := { (at_ 8000) with sys := { stage := .serving, vddField := true, gated := false }, twin := { role := .active } }

theorem witness_AuxModes_start : w14_start.auxMay = true ∧ w14_start.aux.driving = false ∧ w14_start.twin.roleMono + 8000 ≤ w14_start.mono ∧
    (∀ c < 2, w14_start.pu 0x1201 c 0 1 = 0 ∧ (w14_start.br c).tripped = false) ∧ (ran .auxDriveStart w14_start).aux.driving = true ∧
    ((ran .auxDriveStart (w14_start.setParam 0x1201 1 [3])).br 1).short = true ∧
    ((ran .auxDriveStart (w14_start.modBr 1 fun x => { x with trip := { cells := [(0, { latched := true, short := true })] } })).br 1).short = true ∧
    ran .auxDriveStart (at_ 8000) = at_ 8000 := by decide +kernel
/-! ### Chapter 15 -/

/-- Channel 3 in a mode with flags, its lines at levels since the start, at elapsed time 10 s. -/
def w15 (mode flags : Byte) (a b : Bool) (f : PosChan → PosChan := id) (z : Bool := false) : State :=
  ((at_ 80000000000).setParam 0x1301 3 [mode, 0, 0, 0, flags, 0, 0, 0]).modPch 3 fun x =>
    f { x with line := { cells := [(0, { lv := a }), (1, { lv := b }), (2, { lv := z })] } }

theorem witness_Positions_edges : (w15 1 0 true false).posMode 3 = 1 ∧ (((w15 1 0 true false).pch 3).ln 0).wire = false ∧
    (w15 1 0 true false).posLevel 3 0 = true ∧ (w15 1 0 true false).posLevel 3 1 = false ∧
    ((ran (.posEdge 3 true false) (w15 1 0 true false)).pch 3).count = 1 ∧ ((ran (.posEdge 3 true false) (w15 1 1 true false)).pch 3).count = 2 ^ 32 - 1 ∧
    ((ran (.posEdge 3 false true) (w15 1 0 false true)).pch 3).count = 2 ^ 32 - 1 ∧ (w15 1 0 true true).counts 0x1309 3 ≠ [] ∧
    ((ran (.posEdge 3 true true) (w15 1 0 true true fun c => { c with illegalAt := some 79999920001, valid := true })).pch 3).valid = false ∧
    ((ran (.posEdge 3 true true) (w15 1 0 true true fun c => { c with illegalAt := some 79999920001 })).pch 3).illegal = 1 ∧
    (ran (.posEdge 3 true true) (w15 1 0 true true)).faults.firings.get 0 0x71 = 1 ∧
    ((ran (.posEdge 3 false true) (w15 0 0 false true)).pch 3).b = true ∧
    ran (.posEdge 3 true true) (w15 1 0 true false) = w15 1 0 true false := by decide +kernel

/-- Channel 3 of a wheel of 58 teeth: one, or two, teeth before this one, the last a period ago. -/
def w15_tooth (kind ratio : Byte) (last : Nat) (f : PosChan → PosChan := id) : State :=
  ((w15 2 0 true true fun x => f { x with toothAt := some last }).setParam 0x1302 3 [58, 0, kind, ratio])

theorem witness_Positions_teeth : (w15 2 0 true true).posMode 3 = 2 ∧ ((w15 2 0 true true).pch 3).a = false ∧
    ((ran (.posEdge 3 true true) (w15 2 0 true true)).pch 3).count = 1 ∧ ((ran (.posEdge 3 true true) (w15 2 8 true true)).pch 3).count = 2 ^ 32 - 1 ∧
    ((ran (.posEdge 3 true true) (w15_tooth 0 24 79999999000)).pch 3).prevP = some 1000 ∧
    ((ran (.posEdge 3 true true) (w15_tooth 0 24 79999999000 fun x => { x with prevP := some 1000 })).pch 3).count = 1 ∧
    ((ran (.posEdge 3 true true) (w15_tooth 0 24 79999998000 fun x => { x with prevP := some 1000, pitches := 56, refOnce := true })).pch 3).count = 2 ∧
    ((ran (.posEdge 3 true true) (w15_tooth 0 24 79999998000 fun x => { x with prevP := some 1000, pitches := 56, refOnce := true })).pch 3).valid = true ∧
    ((ran (.posEdge 3 true true) (w15_tooth 0 24 79999998000 fun x => { x with prevP := some 1000, pitches := 55, refOnce := true })).pch 3).valid = false ∧
    (ran (.posEdge 3 true true) (w15_tooth 0 24 79999998000 fun x => { x with prevP := some 1000, pitches := 55, refOnce := true })).faults.firings.get 0 0x72 = 1 ∧
    ((ran (.posEdge 3 true true) (w15_tooth 1 24 79999999000 fun x => { x with prevP := some 2000, pitches := 58, refOnce := true, count := 7 })).pch 3).latch = 7 ∧
    ((ran (.posEdge 3 true true) (w15_tooth 1 24 79999999000 fun x => { x with prevP := some 2000 })).pch 3).extraP = some 1000 := by decide +kernel

/-- The same channel with compare unit 7 armed at 1: pin action, INVALID required. -/
def w15_cmp (s : State) : State := s.setParam 0x1307 7 [1, 0, 0, 0, 1, 0x0A, 0, 0, 100, 0, 0, 0]

theorem witness_Positions_compare : (w15_cmp (w15 1 0 true false)).cmpMode 7 = 1 ∧ sdiff 32 0 ((w15_cmp (w15 1 0 true false)).pu 0x1307 7 0 4) = -1 ∧
    ((ran (.posEdge 3 true false) (w15_cmp (w15 1 0 true false))).pos.cmp.get {} 7).fired = true ∧
    (ran (.posEdge 3 true false) (w15_cmp (w15 1 0 true false))).cmpMode 7 = 0 ∧
    ((ran (.posEdge 3 true true) (w15_cmp (w15 1 0 true true fun c => { c with valid := true }))).pos.cmp.get {} 7).invalid = true ∧
    bit ((w15_cmp (w15 1 0 true true)).pu 0x1307 7 5 1) 3 = true := by decide +kernel

theorem witness_Positions_index : (w15 1 6 false false id true).posFlag 3 1 = true ∧ (w15 1 6 false false id true).pu 0x1301 3 5 1 = 0 ∧
    (w15 1 6 false false id true).posLevel 3 2 = true ∧
    ((ran (.posIndex 3) (w15 1 6 false false (fun c => { c with count := 77 }) true)).pch 3).latch = 77 ∧
    ((ran (.posIndex 3) (w15 1 6 false false (fun c => { c with count := 77 }) true)).pch 3).count = 0 ∧
    ((ran (.posIndex 3) (w15 1 2 false false (fun c => { c with count := 77 }) true)).pch 3).count = 77 ∧
    ((ran (.posIndex 3) (w15 1 2 false false (fun c => { c with count := 77, pending := some 5 }) true)).pch 3).count = 5 ∧
    ((ran (.posIndex 3) (w15 1 0 false false (fun c => { c with count := 77 }) true)).pch 3).latch = 0 ∧
    ran (.posIndex 3) (w15 1 0 false false (fun c => { c with z := true }) true) = w15 1 0 false false (fun c => { c with z := true }) true := by decide +kernel

def w15_wire (minus wire : Bool) : State := w15 1 0 false false fun c =>
  { c with line := { cells := [(2, { plus := true, minus, wire, since := 0 })] }, count := 5, valid := true }

theorem witness_Positions_wires : (((w15_wire true false).pch 3).ln 2).since + 20 * (w15_wire true false).pu 0x1301 3 2 2 ≤ (w15_wire true false).mono ∧
    (((w15_wire true false).pch 3).ln 2).plus = (((w15_wire true false).pch 3).ln 2).minus ∧ (((w15_wire true false).pch 3).ln 2).wire = false ∧
    ((ran (.posWireFilterExpire 3 2) (w15_wire true false)).pch 3).valid = false ∧ ((ran (.posWireFilterExpire 3 2) (w15_wire true false)).pch 3).count = 5 ∧
    (ran (.posWireFilterExpire 3 2) (w15_wire true false)).faults.firings.get 0 0x70 = 1 ∧
    ((((ran (.posWireFilterExpire 3 2) (w15_wire false true)).pch 3).ln 2).wire = false) ∧ (((w15_wire false true).pch 3).ln 2).wire = true ∧
    ran (.posWireFilterExpire 3 2) (w15_wire true true) = w15_wire true true ∧
    (((ran (.posPinEdge 3 2 true true) (w15 1 0 false false)).pch 3).ln 2).plus = true ∧
    (((ran (.posPinEdge 3 2 true false) (w15 1 0 false false)).pch 3).ln 2).lv = true := by decide +kernel

def w15_speed : State := w15 1 0 false false fun c =>
  { c with changes := [79999999000, 79999998000, 79999997000, 79999996000, 79999995000], changeAt := 79999999000, up := true }

theorem witness_Positions_speed : w15_speed.now / max 1 (w15_speed.pu 0x1303 3 0 4) ≠ (w15_speed.pch 3).window ∧ (w15_speed.pch 3).zero = false ∧
    (w15_speed.pch 3).countMode = false ∧ ((ran (.posSpeedWindow 3) w15_speed).pch 3).window = w15_speed.now / max 1 (w15_speed.pu 0x1303 3 0 4) ∧
    (w15_speed.pch 3).changes[w15_speed.pu 0x1303 3 14 1]?.isSome = true ∧ ((ran (.posSpeedWindow 3) w15_speed).pch 3).speed = 128000000 ∧
    ((ran (.posSpeedWindow 3) (w15 1 0 false false fun c => { c with countMode := true, count := 16 })).pch 3).speed =
      16 * 128000000000 / w15_speed.pu 0x1303 3 0 4 ∧
    ((w15 1 0 false false).pch 3).changeAt + 8000000 * (w15 1 0 false false).pu 0x1303 3 12 2 ≤ 80000000000 ∧
    ((ran (.posZeroTimeout 3) (w15 1 0 false false fun c => { c with speed := 9 })).pch 3).speed = 0 ∧
    ((ran (.posZeroTimeout 3) (w15 1 0 false false fun c => { c with speed := 9, zero := true })).pch 3).speed = 9 ∧
    (ran (.posCmpPulseEnd 7) ((w15 1 0 false false).updPos fun p => { p with cmp := { cells := [(7, { pulse := some 80000000000 })] } })).pos.cmp.get {} 7 = {} ∧
    ((ran (.posCmpPulseEnd 7) ((w15 1 0 false false).updPos fun p => { p with cmp := { cells := [(7, { pulse := some 80000000001 })] } })).pos.cmp.get {} 7).pulse =
      some 80000000001 := by decide +kernel

def w15_set (w : Byte) (s : State) : State := running 0x1310 [3, w, 0, 0, 9, 0, 0, 0x80] s

theorem witness_PositionCommand : (w15_set 0 (w15 1 0 false false)).Runs 0 0x1310 (req 0x1310 [3, 0, 0, 0, 9, 0, 0, 0x80]) ∧
    (w15_set 0 (w15 1 0 false false)).Writes 0 0x13 ∧
    replied (.posSet 0) (running 0x1310 [4, 0, 0, 0, 9, 0, 0, 0x80]) = [4, 0, 0, 0, 0, 0, 4, 0, 5, 0, 255, 255] ∧
    replied (.posSet 0) (w15_set 0 (w15 0 0 false false)) = [3, 0, 0, 0, 0, 0, 4, 0, 0xC0, 0, 255, 255] ∧
    replied (.posSet 0) (w15_set 1 (w15 1 0 false false)) = [3, 0, 0, 0, 0, 0, 4, 0, 0xC1, 0, 255, 255] ∧
    replied (.posSet 0) (w15_set 0 (w15_wire true true)) = [3, 0, 0, 0, 0, 0, 4, 0, 0xC4, 0, 255, 255] ∧
    ((ran (.posSet 0) (w15_set 0 (w15 1 0 false false))).pch 3).count = 0x80000009 ∧
    ((ran (.posSet 0) (w15_set 0 (w15 1 0 false false))).pch 3).valid = true ∧
    ((ran (.posSet 0) (w15_set 1 (w15 1 2 false false))).pch 3).pending = some 0x80000009 ∧
    ((ran (.posSet 0) (w15_set 1 (w15 1 2 false false))).pch 3).count = 0 ∧
    ((ran (.posSet 0) (running 0x1310 [3, 0, 0, 0, 9, 0, 0, 0] (w15_cmp (w15 1 0 false false)))).pos.cmp.get {} 7).late = true :=
  ⟨runs_running _ _ _ rfl, writes_running _ _ _ _ rfl rfl rfl, by decide, by decide, by decide, by decide, by decide, by decide, by decide, by decide,
    by decide +kernel⟩

/-! ### Chapter 16 -/

/-- All 17 inputs high, at elapsed time 10 s, the seal read. -/
def w16 (st : SafeState) (sl : Nat := 0xFF00) (f : SafeUnit → SafeUnit := id) : State :=
  { (at_ 80000000000) with safe := f { st, sealIn := some sl, sealOk := true, level := { cells := (List.range 17).map fun i => (i, true) } } }

def high : Tab Bool := { cells := (List.range 17).map fun i => (i, true) }
/-- The unit after a row. -/
def safeAfter (c : Instr) (s : State) : SafeUnit := (ran c s).safe

/-- A SAFE row's state and code after it. -/
def ends (c : Instr) (s : State) : SafeState × Nat := ((safeAfter c s).st, (safeAfter c s).last.code)

theorem witness_SafetyInputs_demand : (w16 .permit).safe.lev 16 ≠ false ∧ (w16 .permit).safe.edm = none ∧ (safeAfter (.safeInputEdge 16 false) (w16 .permit)).lev 16 = false ∧
    (w16 .permit 0xFF00 fun u => { u with level := high.set 1 false }).safe.live = true ∧ safeFn 1 = 0 ∧ (w16 .permit).safe.inUse 0 = true ∧
    (w16 .permit 0xFF00 fun u => { u with level := high.set 1 false }).safe.inDemand 1 80000000000 = true ∧ bit (w16 .permit).safe.demand 0 = false ∧
    (safeAfter (.safeDemandFilter 1) (w16 .permit 0xFF00 fun u => { u with level := high.set 1 false })).st = .stopped ∧
    (safeAfter (.safeDemandFilter 13) (w16 .ready 0xEF10 fun u => { u with level := high.set 13 false })).st = .stopped ∧
    (w16 .ready 0xEF10).safe.inUse (safeFn 13) = true ∧
    (safeAfter (.safeDemandFilter 1) (w16 .lockout 0xFF00 fun u => { u with level := high.set 1 false })).st = .lockout := by decide

theorem witness_SafetyInputs_faults :
    (w16 .permit 0xEF10 fun u => { u with level := high.set 13 false }).safe.lev (safePair 4).1 ≠ (w16 .permit 0xEF10 fun u => { u with level := high.set 13 false }).safe.lev (safePair 4).2 ∧
    (safeAfter (.safeDiscrepancyTimeout 4) (w16 .permit 0xEF10 fun u => { u with level := high.set 13 false })).last.fn = 16 ∧
    (safeAfter (.safeDiscrepancyTimeout 4) (w16 .permit 0xEF10 fun u => { u with level := high.set 13 false })).st = .stopped ∧
    (w16 .permit 0xBF40).safe.sw 6 = true ∧ (w16 .permit 0xBF40).safe.pulseFails 0 0x555 0 = [] ∧
    (safeAfter (.safeTestPulse 0 0x555 0) (w16 .permit 0xBF40)).pulse.get 0 0 = 80000000000 ∧
    (w16 .permit 0xBF40).safe.pulseFails 0 0x554 0 = [0] ∧ (safeAfter (.safeTestPulse 0 0x554 0) (w16 .permit 0xBF40)).last.code = 2 ∧
    (w16 .ready 0xF708).safe.inUse 5 = true ∧ (w16 .ready 0xF708).safe.pressed 1 = false ∧ (w16 .ready 0xF708).safe.released 1 = false ∧
    (safeAfter (.safeThcPairTimeout 1) (w16 .ready 0xF708)).last.code = 3 ∧ (safeAfter (.safeThcPairTimeout 1) (w16 .ready 0xF708)).fault = 32 := by decide

def w16_released : State := w16 .stopped 0xF708 fun u =>
  { u with level := { cells := [(9, true), (11, true)] }, fault := 32 }

/-- Hands armed, the left one actuated 500 ms ago or less, the right one's contacts about to be; elapsed time 10 s. -/
def w16_hands (st : SafeState) (sl : Nat) (first : Option (Nat × Nat)) (since : Nat := 80000000000) : State := w16 st sl fun u =>
  { u with level := ((u.level.set 9 (first = none)).set 8 (first ≠ none)).set 10 false |>.set 11 false, since := { cells := [(11, since)] },
           hands := { armed := true, first } }

theorem witness_SafetyInputs_hands : (w16_hands .ready 0xF708 none).safe.live = true ∧ (w16_hands .ready 0xF708 none).safe.inUse 5 = true ∧
    (safeAfter (.safeInputEdge 10 true) (w16_hands .ready 0xF708 none)).hands = { armed := true, first := some (1, 80000000000) } ∧
    (safeAfter (.safeInputEdge 10 true) (w16_hands .ready 0xF708 (some (0, 76000000000)))).st = .permit ∧
    (safeAfter (.safeInputEdge 10 true) (w16_hands .ready 0xF708 (some (0, 75999999999)))).st = .ready ∧
    (safeAfter (.safeInputEdge 10 true) (w16_hands .stopped 0xD728 (some (0, 76000000000)))).st = .permit ∧
    (safeAfter (.safeInputEdge 10 true) (w16_hands .ready 0xF708 none 79599999999)).last.code = 3 ∧
    (safeAfter (.safeInputEdge 10 true) (w16_hands .ready 0xF708 none 79599999999)).st = .stopped ∧
    (safeAfter (.safeInputEdge 11 true) (w16_hands .ready 0xF708 none)).hands = { armed := true } ∧
    (safeAfter (.safeInputEdge 16 false) (w16 .permit 0xFF00 fun u => { u with level := high.set 15 false, edm := some (79200000000, false) })).edm = none ∧
    (safeAfter (.safeInputEdge 14 false) (w16 .stopped)).press = some 80000000000 ∧
    ran (.safeInputEdge 14 true) (w16 .stopped) = w16 .stopped := by decide +kernel

theorem witness_SafetyInputs_permits : (w16 .stopped).safe.lev (safePair 4).1 = true ∧ (w16 .stopped).safe.lev (safePair 0).2 = true ∧
    (safeAfter (.safeFunctionPermitFilter 0) (w16 .stopped 0xFF00 fun u => { u with demand := 1, fault := 1, together := 1 })).fault = 0 ∧
    (safeAfter (.safeFunctionPermitFilter 0) (w16 .stopped 0xFF00 fun u => { u with demand := 1, fault := 1 })).fault = 1 ∧
    (safeAfter (.safeFunctionPermitFilter 0) (w16 .stopped 0xFF00 fun u => { u with demand := 1, fault := 1 })).demand = 0 ∧
    (safeAfter (.safeFunctionPermitFilter 0) (w16 .stopped 0xFF00 fun u => { u with demand := 1, level := high.set 0 false })).demand = 1 ∧
    (safeAfter (.safeDemandFilter 1) (w16 .stopped 0xFF00 fun u => { u with demand := 1, fault := 1, level := (high.set 0 false).set 1 false })).together = 1 ∧
    w16_released.safe.released 0 = true ∧ w16_released.safe.released 1 = true ∧ (safeAfter (.safeFunctionPermitFilter 5) w16_released).fault = 0 := by decide

theorem witness_SafetyInputs_grants : (w16 .stopped).safe.sw 3 = false ∧ (w16 .stopped).safe.mayGrant 80000000000 .permit = true ∧
    (w16 .stopped 0xF708).safe.sw 3 = true ∧ (w16 .stopped 0xF708).safe.mayGrant 80000000000 .ready = true ∧
    80000000000 - (w16 .stopped 0xFF00 fun u => { u with since := { cells := [(14, 40000000000)] } }).safe.at_ 14 = 40000000000 ∧
    (safeAfter .safeResetRelease (w16 .stopped 0xFF00 fun u => { u with since := { cells := [(14, 40000000000)] } })).st = .permit ∧
    (safeAfter .safeResetRelease (w16 .stopped 0xF708 fun u => { u with since := { cells := [(14, 79200000000)] } })).st = .ready ∧
    (safeAfter .safeResetRelease (w16 .stopped 0xF708 fun u => { u with since := { cells := [(14, 79200000001)] } })).st = .stopped ∧
    (w16 .stopped 0x6F90).safe.sw 7 = true ∧ (w16 .stopped 0x6F90).safe.sw 4 = true ∧ (w16 .stopped 0x6F90).safe.mayGrant 80000000000 .permit = true ∧
    (safeAfter .safeLcClearExpire (w16 .stopped 0x6F90 fun u => { u with cause := 16 })).st = .permit ∧
    (safeAfter .safeLcClearExpire (w16 .stopped 0x6F90 fun u => { u with cause := 17 })).st = .stopped ∧
    (safeAfter .safeResetRelease (w16 .stopped 0xFF00 fun u => { u with level := high.set 14 false, press := some 800000000 })).st = .permit := by decide

theorem witness_SafetyInputs_chains : (w16 .ready).safe.inhibitOn = true ∧ bit (w16 .ready).safe.broken 1 = false ∧ (w16 .ready).safe.edge.get 0 1 + 400000 ≤ 80000000000 ∧
    bit (safeAfter (.safeLoopBrokenTimeout 1) (w16 .ready)).broken 1 = true ∧ (safeAfter (.safeLoopBrokenTimeout 1) (w16 .ready)).last.code = 0x20 ∧
    (safeAfter (.safeChainMeasure 1 76480) (w16 .ready)).edge.get 0 1 = 80000000000 ∧ (safeAfter (.safeChainMeasure 1 76480) (w16 .ready)).st = .ready ∧
    (safeAfter (.safeChainMeasure 0 83520) (w16 .ready)).st = .ready ∧
    ends (.safeChainMeasure 1 83520) (w16 .permit) = (.lockout, 0x14) ∧ ends (.safeChainMeasure 0 5) (w16 .stopped) = (.lockout, 0x13) ∧
    ends (.safeChainMeasure 0 5) (w16 .lockout) = (.lockout, 0) ∧
    (w16 .ready).safe.onAt + 20736000000000000 ≤ 20736000000000000 ∧
    (safeAfter .safeDemandDue { w16 .ready with mono := 20736000000000000 }).due = true := by decide

theorem witness_SafetyLockout_faults : (w16 .permit).safe.live = true ∧ (-100001 : Int).natAbs = 100001 ∧ ends (.safeClockCheck (-100001)) (w16 .permit) = (.lockout, 0x18) ∧
    ends (.safeClockCheck 100000) (w16 .permit) = (.permit, 0) ∧ (w16 .permit).safe.sealIn = some 0xFF00 ∧
    ends (.safeSealCheck 0#16) (w16 .permit) = (.lockout, 0x17) ∧ ends (.safeSealCheck 0xFF00#16) (w16 .permit) = (.permit, 0) ∧
    (safeAfter (.safeSealCheck 0xFF00#16) (w16 .start 0 fun u => { u with sealIn := none })).sealIn = some 0xFF00 ∧
    ends (.safeChannelExchange true false false) (w16 .ready 0xFF00 fun u => { u with differ := some 79991999999 }) = (.lockout, 0x10) ∧
    ends (.safeChannelExchange true true true) (w16 .ready 0xFF00 fun u => { u with inDiffer := some 79991999999 }) = (.lockout, 0x10) ∧
    ends (.safeSelftest .ram .fail) (w16 .stopped) = (.lockout, 0x1A) ∧ (safeAfter (.safeSelftest .ram .pass) (w16 .stopped)).testAt.get 0 1 = 80000000000 ∧
    ends (.safeSelftest .ram .overdue) (w16 .stopped) = (.lockout, 0x1A) ∧ ends (.safeSelftest .rom .overdue) (w16 .stopped) = (.stopped, 0) ∧
    ends .safeEdmTimeout (w16 .permit 0xFF00 fun u => { u with edm := some (79200000000, false) }) = (.lockout, 0x12) ∧
    ends .safeEdmTimeout (w16 .permit 0xFF00 fun u => { u with edm := some (79200000000, true) }) = (.permit, 0) ∧
    ends .safeEdmTimeout (w16 .permit 0xFF00 fun u => { u with edm := some (79200000001, false) }) = (.permit, 0) ∧
    ends (.safeReadbackTimeout 3) (w16 .permit) = (.lockout, 0x11) ∧ ends (.safeReadbackTimeout 3) (w16 .unused) = (.unused, 0) := by decide +kernel

theorem witness_SafetyLockout_channels : (w16 .permit).safe.differ = none ∧ (w16 .permit).safe.inDiffer = none ∧
    ends (.safeChannelExchange true false false) (w16 .permit) = (.stopped, 0) ∧
    (safeAfter .safeSupplyOut (w16 .permit)).line = false ∧ (safeAfter .safeSupplyOut (w16 .permit)).outOn = true ∧
    ends .safeSupplyReturn (w16 .permit 0xFF00 fun u => { u with supplied := false, outOn := true, outAt := 79200000000 }) = (.start, 0x19) ∧
    ends .safeSupplyReturn (w16 .lockout 0xFF00 fun u => { u with supplied := false, outAt := 79200000001 }) = (.lockout, 0) ∧
    ends .safeSupplyReturn (w16 .lockout 0xFF00 fun u => { u with supplied := false, outAt := 79200000000 }) = (.start, 0) ∧
    ends (.safeStartDone 0xFF00#16) (w16 .start 0xFE01) = (.lockout, 0x17) ∧
    State.reset.safe.supplied = true ∧ State.reset.safe.st = .start ∧ State.reset.safe.sealIn = none ∧
    ends (.safeStartDone 0#16) State.reset = (.unused, 0) ∧ ends (.safeStartDone 0xFF01#16) State.reset = (.lockout, 0x15) ∧
    ends (.safeStartDone 0xDF20#16) State.reset = (.lockout, 0x16) ∧ ends (.safeStartDone 0x7F80#16) State.reset = (.lockout, 0x16) ∧
    ends (.safeStartDone 0xFF00#16) State.reset = (.stopped, 0) ∧ (∀ k < 8, bit 0xFF00 k ≠ bit 0xFF00 (k + 8)) ∧ bit 0xFF01 0 = bit 0xFF01 (0 + 8) := by decide

def w16_frame : SafeFrame := { st := 4, outs := 63 }
def w16_runs : State := (w16 .stopped 0xFF00 fun u => { u with permit := true }).modStr 15 fun x => { x with st := .running }

theorem witness_SafetyMirror : (w16 .permit).safe.supplied = true ∧ (safeAfter .safeMirrorSend (w16 .permit)).sent.length = 1 ∧
    (w16 .permit).sys.stage ≠ .inReset ∧ (safeAfter .safeMirrorRx (w16 .permit 0xFF00 fun u => { u with sent := [w16_frame], stale := true })).frame = w16_frame ∧
    (safeAfter .safeMirrorRx (w16 .permit 0xFF00 fun u => { u with sent := [w16_frame], stale := true })).stale = false ∧
    (ran .safeMirrorRx (w16 .permit 0xFF00 fun u => { u with sent := [{ w16_frame with st := 5, events := [.lockout 1 1 1] }] })).faults.firings.get 0 0x79 = 1 ∧
    (safeAfter .safeMirrorRx { w16 .permit 0xFF00 fun u => { u with sent := [w16_frame] } with sys := { stage := .inReset } }).sent = [] ∧
    (w16 .permit).safe.stale = false ∧ (w16 .permit).safe.frameMono + 80000000 ≤ 80000000000 ∧
    (ran .safeMirrorTimeout (w16 .permit)).faults.firings.get 0 0x78 = 1 ∧
    (w16 .permit 0xFF00 fun u => { u with pPermit := true, hPermit := true }).safe.line = true ∧
    (safeAfter (.safePermitLineChange true) (w16 .permit 0xFF00 fun u => { u with pPermit := true, hPermit := true })).permit = true ∧
    w16_runs.safe.line = false ∧ w16_runs.safe.permit = true ∧ (w16_runs.str 15).st = .running ∧ (w16_runs.str 0).st = .stopped ∧
    ((ran (.safePermitLineChange false) w16_runs).str 15).st = .tripped ∧ ((ran (.safePermitLineChange false) w16_runs).prt 15).first = 10 := by decide +kernel

theorem witness_SafetyMirror_form : (safeAfter .safeMirrorSend (w16 .permit)).sent = [(w16 .permit).safe.form] := rfl

/-! ### Chapter 17 -/

/-- Serving at elapsed time 10 s, battery time 905 s. -/
def w17 (b : Battery → Battery := id) : State :=
  { (at_ 80000000000) with sys := { stage := .serving, hold := { pin := false, rails := [] } }, bat := b { powered := true, rtcSec := 905, rtcSet := true } }

/-- Port 15 metered, 3,600 more in its import register than at the interval's start. -/
def w17_port (f : EnPort → EnPort := id) : State :=
  ((w17).setParam 0x1501 15 ([1] ++ List.replicate 59 0)).modEn 15 fun x =>
    f { x with kept := { reg := { cells := [(0, 1000000), (1, 500)] }, imp0 := 100000, mdImp := 7 }, partial_ := false }

theorem witness_EnergyAccounting_events : (w17_port).sys.stage = .serving ∧ (ran .energyCopyPeriod (w17_port)).en.copies.length = 1 ∧
    (((ran .energyCopyPeriod (w17_port)).en.copies.map fun c => (c.port.get {} 15).reg.get 0 0)) = [1000000] ∧
    (w17_port).bat.rtcSec / 900 * 900 ≠ (w17_port).en.from_ ∧ (w17_port).enKind 15 = 1 ∧ (w17_port).enKind 0 = 0 ∧
    ((ran .demandIntervalEnd (w17_port)).enPort 15).kept.lastImp = 3600 ∧ ((ran .demandIntervalEnd (w17_port)).enPort 15).kept.mdImp = 3600 ∧
    ((ran .demandIntervalEnd (w17_port fun x => { x with partial_ := true })).enPort 15).kept.mdImp = 7 ∧
    (ran .demandIntervalEnd (w17_port)).en.from_ = 900 ∧ (w17_port).en.copyAt = none ∧
    ran .energyCopyPeriod ((w17_port).updEn fun e => { e with copyAt := some 79280000001 }) = ((w17_port).updEn fun e => { e with copyAt := some 79280000001 }) ∧
    ran .demandIntervalEnd ((w17_port).updEn fun e => { e with from_ := 900 }) = ((w17_port).updEn fun e => { e with from_ := 900 }) ∧
    ran .rtcSecond (w17 fun b => { b with powered := false }) = (w17 fun b => { b with powered := false }) ∧
    (w17).bat.powered = true ∧ (w17).bat.rtcPending = none ∧ ({ w17 with sys := {} }).sys.stage ≠ .serving ∧
    (ran .rtcSecond { w17 with sys := {} }).bat.rtcSec = 906 ∧
    ((ran .rtcSecond ((w17_port).setParam 0x1506 15 [0, 0x40, 0, 0x20, 0, 0, 0, 0])).enPort 15).limImp = 0x4000 ∧
    ((ran .rtcSecond (((w17_port).setParam 0x1506 15 [0, 0x40, 0, 0x20, 0, 0, 0, 0]).setParam 0x1505 15
      ([1, 0, 0, 0] ++ leBytes 4 906 ++ [0, 0x10, 0, 0x10]))).enPort 15).limExp = 0x1000 := by decide +kernel

def w17_set : State := ((running 0x1610 [100, 0, 0, 0, 0, 0, 0, 0] (w17 fun b => { b with rtcPending := some { mb := 0, sec := 100, ptp := false } })).modBox 0
  fun b => { b with waiting := .rtcSet })

theorem witness_EnergyAccounting_clock : w17_set.bat.powered = true ∧ w17_set.bat.rtcPending = some { mb := 0, sec := 100, ptp := false } ∧
    w17_set.hasStandby = false ∧ (w17_set.box 0).taken.isSome = true ∧ (w17_set.box 0).waiting = .rtcSet ∧ w17_set.bat.log.length < 8 ∧
    (ran .rtcSecond w17_set).bat.rtcSec = 100 ∧
    (ran .rtcSecond (w17_set.updBat fun b => { b with log := List.replicate 8 ⟨1, 0, 0, 0, 0, 0, 0⟩ })).bat.lost = 1 ∧
    (ran .rtcSecond (w17_set.updBat fun b => { b with rtcPending := some { mb := 0, sec := 100, ptp := true } })).bat.rtcSec = 906 ∧ replied .rtcSecond w17_set = [0, 0, 0, 0, 0, 0, 4, 0, 100, 0, 0, 0] ∧
    ((ran .rtcSecond w17_set).bat.log.map fun e => (e.source, e.sec)) = [(0x21, 100)] ∧
    (running 0x1610 [100, 0, 0, 0, 0, 0, 0, 0] (w17)).fw.locked = false ∧
    (ran (.rtcSet 0) (running 0x1610 [100, 0, 0, 0, 0, 0, 0, 0] (w17))).bat.rtcPending = some { mb := 0, sec := 100, ptp := false } ∧
    replied (.rtcSet 0) (running 0x1610 [100, 0, 0, 0, 1, 0, 0, 0] (w17)) = [3, 0, 0, 0, 0, 0, 4, 0, 0xD8, 0, 255, 255] ∧
    replied (.rtcSet 0) (running 0x1610 [100, 0, 0, 0, 0, 0, 0, 0] { w17 with fw := { locked := true } }) = [6, 0, 0, 0, 0, 0, 4, 0, 0xD4, 0, 255, 255] ∧
    replied (.rtcSet 0) (running 0x1610 [100, 0, 0, 0, 0, 0, 0, 0] (w17 fun b => { b with rtcPending := some { mb := 1, sec := 3, ptp := false } })) =
      [1, 0, 0, 0, 0, 0, 4, 0, 0xE8, 3, 0, 0] := by decide +kernel

theorem witness_EnergyAccounting_rtcSet : (running 0x1610 [100, 0, 0, 0, 0, 0, 0, 0] (w17)).Runs 0 0x1610 (req 0x1610 (leBytes 4 100 ++ [0, 0, 0, 0])) :=
  runs_running _ _ _ rfl

theorem witness_EnergyAccounting_limit : ((w17_port fun x => { x with over_ := some 0 }).enPort 15).over_ = some 0 ∧
    0 + 8000000 * (w17_port).pu 0x1506 15 4 2 ≤ (w17_port).mono ∧
    (ran (.enGraceExpire 15) (w17_port fun x => { x with over_ := some 0 })).faults.firings.get 0 0x80 = 1 ∧
    ((ran (.enGraceExpire 15) (w17_port fun x => { x with over_ := some 0 })).enPort 15).armed = false ∧
    ran (.enGraceExpire 15) (w17_port fun x => { x with over_ := some 0, armed := false }) = w17_port fun x => { x with over_ := some 0, armed := false } := by
  decide

def w17_cmd (op : Nat) (p : Bytes) (k : KeyState) (l : Bool) : State :=
  running op p { w17_port with fw := { keyState := k, signKey := some 5, locked := l } }
def nonce8 : Bytes := [1, 2, 3, 4, 5, 6, 7, 8]

theorem witness_EnergyAccounting_commands :
    (w17_cmd 0x1510 ([15, 0, 0, 0] ++ nonce8) .ready false).Runs 0 0x1510 (req 0x1510 (leBytes 1 15 ++ [0, 0, 0] ++ nonce8)) ∧ nonce8.length = 8 ∧
    (w17_cmd 0x1510 ([15, 0, 0, 0] ++ nonce8) .ready false).enKind 15 ≠ 0 ∧
    replied (.energyRead 0) (w17_cmd 0x1510 ([15, 0, 0, 0] ++ nonce8) .new false) =
      [BitVec.ofNat 8 stRefused, 0, 0, 0, 0, 0, 4, 0, 0xD0, 0, 255, 255] ∧
    ((ran (.energyRead 0) (w17_cmd 0x1510 ([15, 0, 0, 0] ++ nonce8) .ready false)).box 0).state = .done ∧
    (ran (.energyRead 0) (w17_cmd 0x1510 ([15, 0, 0, 0] ++ nonce8) .ready false)).freeCount = 4 ∧
    replied (.energyRead 0) (w17_cmd 0x1510 ([16, 0, 0, 0] ++ nonce8) .ready false) = [4, 0, 0, 0, 0, 0, 4, 0, 5, 0, 255, 255] ∧
    replied (.energyRead 0) (w17_cmd 0x1510 ([0, 0, 0, 0] ++ nonce8) .ready false) = [4, 0, 0, 0, 0, 0, 4, 0, 0xD1, 0, 255, 255] ∧
    replied (.energyRead 0) ((w17_cmd 0x1510 ([15, 0, 0, 0] ++ nonce8) .ready false).updFw fun f => { f with signKey := none }) =
      [12, 0, 0, 0, 0, 0, 4, 0, 0xD0, 0, 255, 255] ∧
    (w17_cmd 0x1511 [15, 0, 0, 0] .ready false).Runs 0 0x1511 (req 0x1511 (leBytes 1 15 ++ [0, 0, 0])) ∧
    (w17_cmd 0x1511 [15, 0, 0, 0] .ready false).Writes 0 0x15 ∧
    ((ran (.demandReset 0) (w17_cmd 0x1511 [15, 0, 0, 0] .ready false)).enPort 15).kept.mdImp = 0 ∧
    ((ran (.demandReset 0) (w17_cmd 0x1511 [0xFF, 0, 0, 0] .ready false)).enPort 15).kept.mdImp = 0 ∧
    replied (.demandReset 0) (w17_cmd 0x1511 [16, 0, 0, 0] .ready false) = [4, 0, 0, 0, 0, 0, 4, 0, 5, 0, 255, 255] ∧
    replied (.demandReset 0) (w17_cmd 0x1511 [15, 0, 0, 0] .ready false) = [0, 0, 0, 0, 0, 0, 4, 0, 1, 0, 0, 0] ∧
    (w17_cmd 0x1511 [15, 0, 0, 0] .ready true).fw.locked = true ∧
    replied (.demandReset 0) (w17_cmd 0x1511 [15, 0, 0, 0] .ready true) = [BitVec.ofNat 8 stLocked, 0, 0, 0, 0, 0, 4, 0, 9, 0, 255, 255] :=
  ⟨runs_running _ _ _ rfl, by decide, by decide, by decide, by decide +kernel, by decide +kernel, by decide, by decide, by decide,
    runs_running _ _ _ rfl, writes_running _ _ _ _ rfl rfl rfl, by decide, by decide +kernel, by decide, by decide, by decide, by decide⟩

/-- Keys held, the log of some length. -/
def w17_keys (n : Nat) (f : Battery → Battery := id) : State :=
  { (w17 fun b => f { b with mramKey := 9, log := List.replicate n ⟨1, 0, 0, 0, 0, 0, 0⟩ }) with fw := { signKey := some 5, kaKey := some 6, linkKeys := [(1, [2])] } }

theorem witness_BatteryDomain_events : (w17_keys 7).corePresent = true ∧ (ran .oscStopDetect (w17_keys 7)).bat.log.length = 8 ∧
    (ran .oscStopDetect (w17_keys 8)).bat.lost = 1 ∧ (ran .oscStopDetect (w17_keys 8)).fw.signKey = none ∧
    (2299#16 : BitVec 16).toNat < 2300 ∧ (ran (.vbatLowDetect 2299#16) (w17_keys 0 fun b => { b with onVbat := true })).bat.mramKey = 0 ∧
    (ran (.vbatLowDetect 2300#16) (w17_keys 0 fun b => { b with onVbat := true })).bat.mramKey = 9 ∧
    (ran (.vbatLowDetect 1#16) (w17_keys 0)).bat.vbat = 1 ∧
    ran .oscStopDetect (w17_keys 0 fun b => { b with powered := false }) = (w17_keys 0 fun b => { b with powered := false }) := by decide

def w17_input (n : Nat) : State := w17_keys 0 fun b =>
  { b with tampCfg := { cells := [(3, [1, 2, 0, 0])] }, failing := { cells := [(3, n)] } }

theorem witness_BatteryDomain_samples : uAt ((w17_input 1).bat.tamp 3) 0 1 = 1 ∧ (∀ i < 4, i ≠ 3 → uAt ((w17_input 1).bat.tamp i) 0 1 = 0) ∧
    (w17_input 1).bat.failing.get 0 3 + 1 = max 1 (uAt ((w17_input 1).bat.tamp 3) 1 1) ∧
    (ran (.tamperSample 8#4) (w17_input 1)).bat.mramKey = 0 ∧ (ran (.tamperSample 8#4) (w17_input 0)).bat.mramKey = 9 ∧
    (ran (.tamperSample 0#4) (w17_input 1)).bat.failing.get 9 3 = 0 ∧ (∀ i < 4, uAt ((w17_keys 0).bat.tamp i) 0 1 = 0) ∧
    (ran (.tamperSample 8#4) (w17_keys 0)).bat.levels = 8 ∧
    ((ran (.tamperSample 8#4) (w17_keys 7 fun b => { b with tampCfg := { cells := [(0, [2, 1, 0, 0]), (3, [1, 1, 0, 0])] } })).bat.log.map (·.source)).drop 7 = [0] ∧
    (ran (.tamperSample 8#4) (w17_keys 7 fun b => { b with tampCfg := { cells := [(0, [2, 1, 0, 0]), (3, [1, 1, 0, 0])] } })).bat.lost = 1 ∧
    (ran (.tamperSample 8#4) (w17_keys 7 fun b => { b with tampCfg := { cells := [(3, [3, 1, 0, 0])] } })).bat.mramKey = 0 := by decide +kernel

def w17_zero (v : Nat) : State := running 0x1611 (leBytes 4 v) (w17_keys 3)

theorem witness_BatteryDomain_zeroise : (w17_zero 0x5A45524F).Runs 0 0x1611 (req 0x1611 (leBytes 4 0x5A45524F)) ∧ (w17_zero 0x5A45524F).bat.log.length < 8 ∧
    (ran (.tampZeroise 0) (w17_zero 0x5A45524F)).bat.mramKey = 0 ∧ ((ran (.tampZeroise 0) (w17_zero 0x5A45524F)).bat.log.map (·.source)) = [1, 1, 1, 0x20] ∧
    replied (.tampZeroise 0) (w17_zero 0x5A455250) = [BitVec.ofNat 8 stBadParam, 0, 0, 0, 0, 0, 4, 0, 0xD5, 0, 255, 255] :=
  ⟨runs_running _ _ _ rfl, by decide, by decide, by decide, by decide⟩

def w17_entry (flags : Nat) : State := w17 fun b => { b with log := [⟨3, flags, 1, 2, 3, 4, 0⟩] }

theorem witness_BatteryDomain_log : (w17_entry 3).sys.stage = .serving ∧ bit 3 1 = true ∧ (ran .tamperLogCopy (w17_entry 3)).bat.log = [] ∧
    (ran .tamperLogCopy (w17_entry 3)).en.tampers = 1 ∧ (ran .tamperLogCopy (w17_entry 3)).faults.firings.get 0 0x81 = 1 ∧
    (ran .tamperLogCopy (w17_entry 1)).faults.firings.get 0 0x81 = 0 ∧ (ran .tamperLogCopy (w17_entry 3)).bat.copied.length = 1 ∧
    (ran (.batterySwitchover true) (w17)).bat.onVbat = true ∧ (ran .batteryDomainPowerLoss (w17_keys 2)).bat.log = [] ∧
    (ran .batteryDomainPowerLoss (w17_keys 2)).fw.linkKeys = [] ∧ (w17 fun b => { b with powered := false }).bat.powered = false ∧
    (ran .batteryDomainPowerReturn (w17 fun b => { b with powered := false })).bat.powerOn = true := by decide

/-! ### Chapter 18 -/

/-- An open record of lane fault 0x14. -/
def rec18 (read dirty : Bool) : FaultRec :=
  { id := 0xFFFFFFFE, primary := 0x14, island := 0, reaction := 2, inj := false, pin := true, read, rtcSet := false, inst := 131, epoch := 0,
    tickFirst := 1, tickLast := 2, arg := [0, 0, 0, 0], rtcSec := 0, dirty }

def w18 (read dirty : Bool) (p : List Present := []) (due : Option (Nat × Nat × Nat) := none) : State :=
  { (at_ 80000000000) with faults := { open_ := [rec18 read dirty], present := p, chipResetDue := due, pinLow := true } }

theorem witness_FaultRecords_mirror : (w18 false true).faults.open_.find? (fun x => x.id == (0xFFFFFFFE#32).toNat) = some (rec18 false true) ∧
    (ran (.faultRecordMirror 0xFFFFFFFE#32) (w18 false true)).faults.mirror = [rec18 false false] ∧
    (w18 false false [] (some (7, 0xFFFFFFFE, 90000000000))).faults.chipResetDue = some (7, 0xFFFFFFFE, 90000000000) ∧
    ran .faultChipResetDue (w18 false true [] (some (7, 0xFFFFFFFE, 90000000000))) = w18 false true [] (some (7, 0xFFFFFFFE, 90000000000)) ∧
    (w18 false true [] (some (7, 0xFFFFFFFE, 80000000000))).mono = 80000000000 ∧ (∀ r ∈ (w18 false false).faults.open_, r.dirty = false) ∧
    (ran .faultChipResetDue (w18 false false [] (some (7, 0xFFFFFFFE, 90000000000)))).faults.chipResetDue = none ∧
    ran .faultChipResetDue (w18 false true) = w18 false true ∧ ran (.faultRecordMirror 5#32) (w18 false true) = w18 false true ∧
    ran (.faultRecordMirror 0xFFFFFFFE#32) (w18 false false) = w18 false false := by decide

def w18_read (id : Nat) (s : State) : State := running 0x1710 (leBytes 4 id ++ [0, 0, 0, 0]) s
def w18_clear (id : Nat) (s : State) : State := running 0x1711 (leBytes 4 id) s
def there18 : List Present := [{ src := 0x14, inst := 131, sub := 0 }]

theorem witness_FaultRecords_read : (w18_read 0xFFFFFFFE (w18 false true)).Runs 0 0x1710 (req 0x1710 (leBytes 4 0xFFFFFFFE ++ [0, 0, 0, 0])) ∧
    ((ran (.faultRead 0) (w18_read 0xFFFFFFFE (w18 false false))).faults.open_.map fun r => (r.read, r.dirty)) = [(true, true)] ∧
    (replied (.faultRead 0) (w18_read 0xFFFFFFFE (w18 false true))).length = 88 ∧ (∀ r ∈ (w18 false true).faults.open_, r.id ≠ 5) ∧
    replied (.faultRead 0) (w18_read 5 (w18 false true)) = [0, 0, 0, 0, 0, 0, 80, 0] ++ List.replicate 80 0 ∧
    (replied (.faultRead 0) (running 0x1710 (leBytes 4 5 ++ [1, 0, 0, 0]) (w18 false true))).getD 8 0 = 0xFE :=
  ⟨runs_running _ _ _ rfl, by decide, by decide, by decide, by decide, by decide⟩

theorem witness_FaultRecords_clear : (w18_clear 0xFFFFFFFE (w18 true true)).Runs 0 0x1711 (req 0x1711 (leBytes 4 0xFFFFFFFE)) ∧
    replied (.faultClear 0) (w18_clear 5 (w18 true true)) = [BitVec.ofNat 8 stBadParam, 0, 0, 0, 0, 0, 4, 0, 0xE0, 0, 255, 255] ∧
    (w18 true true there18).faults.recPresent (rec18 true true) = true ∧
    replied (.faultClear 0) (w18_clear 0xFFFFFFFE (w18 true true there18)) = [BitVec.ofNat 8 stRefused, 0, 0, 0, 0, 0, 4, 0, 0xE1, 0, 255, 255] ∧
    (w18 true true).faults.recPresent (rec18 true true) = false ∧
    replied (.faultClear 0) (w18_clear 0xFFFFFFFE (w18 false true)) = [BitVec.ofNat 8 stRefused, 0, 0, 0, 0, 0, 4, 0, 0xE3, 0, 255, 255] ∧
    (ran (.faultClear 0) (w18_clear 0xFFFFFFFE (w18 true true))).faults.open_ = [] ∧
    replied (.faultClear 0) (w18_clear 0xFFFFFFFE (w18 true true)) = [0, 0, 0, 0, 0, 0, 4, 0, 0, 0, 0, 0] ∧
    (ran (.faultClear 0) (w18_clear 0xFFFFFFFE (w18 true true))).faults.pinLow = false ∧
    (ran (.faultClear 0) (w18_clear 0xFFFFFFFF ((w18 true true).updFaults fun f => { f with overflow := true }))).faults.overflow = false ∧
    replied (.faultClear 0) (w18_clear 0xFFFFFFFF ((w18 true true).updFaults fun f => { f with open_ := List.replicate 64 (rec18 true true) })) =
      [3, 0, 0, 0, 0, 0, 4, 0, 0xE2, 0, 255, 255] :=
  ⟨runs_running _ _ _ rfl, by decide, by decide, by decide, by decide, by decide, by decide, by decide, by decide, by decide, by decide +kernel⟩

def inj18 : Bytes := leBytes 1 0x14 ++ leBytes 1 2 ++ leBytes 2 131 ++ [1, 2, 3, 4]
def w18_inject (l : LcState) : State := running 0x1712 inj18 { (at_ 80000000000) with fw := { lc := l } }

theorem witness_FaultRecords_inject : (w18_inject .factory).Runs 0 0x1712 (req 0x1712 inj18) ∧ (faultSource 0x14).isSome = true ∧
    (w18_inject .field).fw.lc = .field ∧
    replied (.faultInject 0) (w18_inject .field) = [BitVec.ofNat 8 stRefused, 0, 0, 0, 0, 0, 4, 0, 0xE7, 0, 255, 255] ∧
    (w18_inject .factory).faults.open_ = [] ∧ 0 < (w18_inject .factory).pu 0x1701 0x14 0 1 ∧
    ((ran (.faultInject 0) (w18_inject .factory)).faults.open_.map fun r => (r.primary, r.inst, r.inj, r.real, r.arg)) =
      [(0x14, 131, true, false, [1, 2, 3, 4])] ∧ ((ran (.faultInject 0) (w18_inject .factory)).box 0).state = .done ∧
    ((ran (.faultInject 0) ((w18_inject .factory).updFaults fun f => { f with open_ := [rec18 true false] })).faults.open_.map (·.merges)) = [1] ∧
    replied (.faultInject 0) (running 0x1712 (leBytes 1 0x14 ++ leBytes 1 0 ++ leBytes 2 131 ++ [1, 2, 3, 4])) =
      [0, 0, 0, 0, 0, 0, 4, 0] ++ leBytes 4 (if bit (State.reset.pu 0x1701 0x14 1 1) 0 then 1 else 0) ∧
    replied (.faultInject 0) (running 0x1712 [0x14, 5, 0, 0, 0, 0, 0, 0]) = [4, 0, 0, 0, 0, 0, 4, 0, 5, 0, 255, 255] ∧
    replied (.faultInject 0) (running 0x1712 [0xFF, 1, 0, 0, 0, 0, 0, 0]) = [4, 0, 0, 0, 0, 0, 4, 0, 0xE6, 0, 255, 255] ∧
    replied (.faultInject 0) (running 0x1712 [0x14, 3, 0, 0, 0, 0, 0, 0] (State.reset.modStr 15 fun x => { x with st := .running })) =
      [3, 0, 0, 0, 0, 0, 4, 0, 0xE4, 0, 255, 255] :=
  ⟨runs_running _ _ _ rfl, by decide, by decide, by decide, by decide, by decide, by decide, by decide, by decide, by decide, by decide, by decide,
    by decide⟩

/-! ### Chapter 19 -/

/-- An owner's key: the public key of RFC 6979's P-256 example. -/
def key19 : Bytes := (leBytes 64
  0x60fed4ba255a9d31c961eb74c6356d68c049b8923b61fa6ce669622e60f29fb67903fe1008b8bc99a41ae9e95628bc64f2f1b20c2d7e9f5177a3c294d4462299).reverse

/-- An item by the owner, its VERSION 9 and IMAGE_ID 7, with the digest of its body and its signature as computed outside the model. -/
def signed19 (kind : Byte) (family : Nat) (body : Bytes) (digest sig : Nat) : Bytes :=
  leBytes 4 0x4B505851 ++ [kind, 1, 0, 0, 9, 0, 0, 0] ++ leBytes 4 0 ++ leBytes 4 body.length ++ leBytes 2 family ++ [0, 0, 7, 0] ++
    List.replicate 6 0 ++ (leBytes 32 digest).reverse ++ List.replicate 64 0 ++ (leBytes 64 sig).reverse ++ body

/-- An ENDPOINT image for cell type 3, without a body. -/
def image19 : Bytes := signed19 2 0x3 [] 0xe3b0c44298fc1c149afbf4c8996fb92427ae41e4649b934ca495991b7852b855
  0xefd48b2aacb6a8fd1140dd9cd45e81d69d2c877b56aaf991c34d0ea84eaf3716e56079ae3d52e7b0d6abd2d059f444236d6b1253f88c30365f6b2fa6b49982ba

/-- A KEYS item without keys, one with a key that nothing unwraps, and one of a part of a key. -/
def keys19 : Bytes := signed19 4 0x128 [] 0xe3b0c44298fc1c149afbf4c8996fb92427ae41e4649b934ca495991b7852b855
  0xefd48b2aacb6a8fd1140dd9cd45e81d69d2c877b56aaf991c34d0ea84eaf37166959ca8d915fbf9982c928e2e123c7c01168b5de0de8bd534ef5a2fe3386bc45

def badKey19 : Bytes := signed19 4 0x128 (List.replicate 32 0) 0x66687aadf862bd776c8fc18b8e9f8e20089714856ee233b3902a591d0d5f2925
  0xefd48b2aacb6a8fd1140dd9cd45e81d69d2c877b56aaf991c34d0ea84eaf3716626dbe44ec357cec49d26807d4d9fe81610b1a47298be5dfbe74ab24da4a94f0

def partKey19 : Bytes := signed19 4 0x128 [0] 0x6e340b9cffb37a989ca544e6bb780a2c78901d3fb33738768511a30617afa01d
  0xefd48b2aacb6a8fd1140dd9cd45e81d69d2c877b56aaf991c34d0ea84eaf37162deb337d224fd35bf44bc63886e2feac342859791460381e283f129750db662c

/-- A package of one PARAM record, of 0x1902, and one of a record of no type. -/
def package19 : Bytes := signed19 3 0x128 [1, 0, 0, 0, 12, 0, 0, 0, 2, 25, 255, 255, 1, 0, 0, 0, 8, 0, 0, 0] 0xea3250a6396680c2c6dde7d95ae341c0f01a51e16fb2a955a9177d6db51eb383
  0xefd48b2aacb6a8fd1140dd9cd45e81d69d2c877b56aaf991c34d0ea84eaf37165251427c8657ca71aabda59f2f563243edb8d1f7a3168ecf3aa1059965e5a74a

def badPackage19 : Bytes := signed19 3 0x128 [9, 0, 0, 0, 0, 0, 0, 0] 0xcbbd5f990c53684d7ae650b40fcb5656e02261b53da5f6a7d8c819c92f2828f8
  0xefd48b2aacb6a8fd1140dd9cd45e81d69d2c877b56aaf991c34d0ea84eaf371620502458d5afb0b12e17416b993f47c755ee8f7e296d6b004edb6ff1534eff4e

/-- A unit with the owner's key, a loft in a state, and an item in its pantry. -/
def w19 (f : Firm → Firm := id) (it : Bytes := []) : State :=
  { (at_ 80000000000) with sys := { stage := .serving }, fw := f { ownerKey := some key19, loftSt := .verified, lc := .field },
                           pantry := { mem := Memory.writeN [] 0 it } }

/-- Its twin link down, the peer alive, and its standby gone. -/
def barred19 (s : State) : State := (paired s).modLane 130 fun l => { l with st := .off }

def loftReq (unit : Byte) (off dst n : Nat) : Bytes := [unit, 0, 0, 0] ++ leBytes 4 off ++ leBytes 4 dst ++ leBytes 4 n
def w19_write (unit : Byte) (n : Nat) (f : State → State := id) : State :=
  running 0x1810 (loftReq unit 4 0x1FFFFC n) (f (w19 id [1, 2, 3, 4, 5, 6, 7, 8]))
def w19_verify (unit : Byte) (loft : Image := { factory := true }) (f : State → State := id) : State :=
  running 0x1811 [unit, 0, 0, 0] (f (w19 fun f => { f with loft, loftSt := .scheduled }))
def w19_at (t : Nat) (st : LoftState) (unit : Byte := 0) (f : State → State := id) : State :=
  running 0x1812 ([unit, 0, 0, 0, 0, 0, 0, 0] ++ leBytes 8 t) (f (w19 fun f => { f with loftSt := st }))

theorem witness_LoftAndImages_loft : (w19_write 0 4).Runs 0 0x1810 (req 0x1810 (loftReq 0 4 0x1FFFFC 4)) ∧
    (w19_write 0 4).fw.loft.mem.wf = true ∧
    (ran (.loftWrite 0) (w19_write 0 4)).fw.loft.mem = [(0x1FFFFC, 5), (0x1FFFFD, 6), (0x1FFFFE, 7), (0x1FFFFF, 8)] ∧
    (ran (.loftWrite 0) (w19_write 0 4)).fw.loftSt = .written ∧
    (ran (.loftWrite 0) (w19_write 2 4 (paired ·))).fw.loftSt = .written ∧ (ran (.loftWrite 0) (w19_write 1 4 (paired ·))).fw.loftSt = .verified ∧
    ((ran (.loftWrite 0) (w19_write 1 4 (paired ·))).box 0).waiting = .standbyAck stOk [] ∧
    replied (.loftWrite 0) (w19_write 0 8) = [4, 0, 0, 0, 0, 0, 4, 0, 5, 0, 255, 255] ∧
    replied (.loftWrite 0) (w19_write 2 4) = [4, 0, 0, 0, 0, 0, 4, 0, 0x22, 0, 255, 255] ∧
    replied (.loftWrite 0) (w19_write 1 4 barred19) = [3, 0, 0, 0, 0, 0, 4, 0, 0x80, 0, 255, 255] :=
  ⟨runs_running _ _ _ rfl, by decide +kernel⟩

theorem witness_LoftAndImages_verify : (w19_verify 0).Runs 0 0x1811 (req 0x1811 [0, 0, 0, 0]) ∧ (w19_verify 0).loftFault = none ∧
    (ran (.loftVerify 0) (w19_verify 0)).fw.loftSt = .verified ∧
    replied (.loftVerify 0) (w19_verify 3) = [4, 0, 0, 0, 0, 0, 4, 0, 5, 0, 255, 255] ∧
    replied (.loftVerify 0) (w19_verify 0 {}) = [4, 0, 0, 0, 0, 0, 4, 0, 0xF0, 0, 255, 255] ∧
    replied (.loftVerify 0) (w19_verify 1) = [4, 0, 0, 0, 0, 0, 4, 0, 0x22, 0, 255, 255] ∧
    replied (.loftVerify 0) (w19_verify 1 {} barred19) = [3, 0, 0, 0, 0, 0, 4, 0, 0x80, 0, 255, 255] ∧
    (ran (.loftVerify 0) (w19_verify 1 {} (paired ·))).freeCount = 1 ∧ (ran (.loftVerify 0) (w19_verify 1 {} (paired ·))).fw.loftSt = .scheduled :=
  ⟨runs_running _ _ _ rfl, by decide +kernel⟩

/-- Where the peer's image is the one the loft's asks for, and where it is older. -/
theorem witness_LoftAndImages_both (h : Config.fwPairMin = 2) :
    (Config.peerVersion = 2 → ¬ Config.peerVersion.toNat < (w19_verify 2).fw.loft.pairMin) ∧
    (Config.peerVersion = 1 → Config.peerVersion.toNat < (w19_verify 2).fw.loft.pairMin) ∧
    (w19_verify 2).loftFault = none ∧ (w19_verify 2).hasStandby = false ∧
    (w19_verify 2 { factory := true } (paired ·)).hasStandby = true ∧ (w19_verify 2 { factory := true } barred19).forwardBarred = true := by
  have e : (w19_verify 2).fw.loft.pairMin = Config.fwPairMin.toNat := rfl
  refine ⟨?_, ?_, by decide⟩ <;> intro k <;> rw [e, h, k] <;> decide

theorem witness_LoftAndImages_schedule : (w19_at 80008000000 .verified).Runs 0 0x1812 (req 0x1812 ([0, 0, 0, 0, 0, 0, 0, 0] ++ leBytes 8 80008000000)) ∧
    (w19_at 80008000000 .verified).now + 8000000 = 80008000000 ∧ (ran (.loftSchedule 0) (w19_at 80008000000 .verified)).fw.activateAt = 80008000000 ∧
    (ran (.loftSchedule 0) (w19_at 0 .scheduled)).fw.loftSt = .verified ∧
    (ran (.loftSchedule 0) (w19_at 80008000000 .written 1 (paired ·))).fw.loftSt = .written ∧
    ((ran (.loftSchedule 0) (w19_at 80008000000 .written 1 (paired ·))).box 0).waiting = .standbyAck stOk [] ∧
    replied (.loftSchedule 0) (w19_at 0 .scheduled 3) = [4, 0, 0, 0, 0, 0, 4, 0, 5, 0, 255, 255] ∧
    replied (.loftSchedule 0) (w19_at 80008000000 .previous) = [3, 0, 0, 0, 0, 0, 4, 0, 0xF9, 0, 255, 255] ∧
    replied (.loftSchedule 0) (w19_at 80007999999 .verified) = [4, 0, 0, 0, 0, 0, 4, 0, 0xFA, 0, 255, 255] ∧
    replied (.loftSchedule 0) (w19_at 0 .scheduled 2) = [4, 0, 0, 0, 0, 0, 4, 0, 0x22, 0, 255, 255] ∧
    replied (.loftSchedule 0) (w19_at 0 .scheduled 2 barred19) = [3, 0, 0, 0, 0, 0, 4, 0, 0x80, 0, 255, 255] :=
  ⟨runs_running _ _ _ rfl, by decide +kernel⟩

def storeReq (slot : Byte) (off n : Nat) : Bytes := [slot, 0, 0, 0] ++ leBytes 4 off ++ leBytes 4 n
def w19_store (it : Bytes) (slot : Byte := 1) (f : Firm → Firm := id) : State := running 0x1813 (storeReq slot 0 it.length) (w19 f it)

/-- An item whose signature verifies and whose digest is the body's is sound. -/
theorem sound19 (s : State) (rd : ItemBytes) (kinds : List Nat) (room : Nat) {k : Bytes}
    (h1 : ¬(Machine.hdr rd 0 4 ≠ 0x4B505851 ∨ kinds.contains (itemKind rd) = false ∨ Machine.hdr rd 6 2 ≠ 0 ∨ Machine.hdr rd 11 1 ≠ 0 ∨ allZero (rd 26 6) = false ∨
      room < 192 + itemBodyLen rd)) (h2 : ¬(Machine.hdr rd 5 1 = 1 ∧ s.fw.ownerKey.isNone = true)) (h3 : ¬signerOk (itemKind rd) (Machine.hdr rd 5 1) = false)
    (h4 : ¬((itemKind rd ≠ 2 ∧ Machine.hdr rd 20 2 ≠ 0x0128) ∨ (Machine.hdr rd 22 2 ≠ 0 ∧ Machine.hdr rd 22 2 ≠ stepAscii))) (hk : s.itemKey rd = some k)
    (hv : ecdsaVerify k (sha256 (rd 0 128)) (rd 128 64) = true) (hd : sha256 (rd 192 (itemBodyLen rd)) = leNat (rd 32 32).reverse) :
    s.itemFault rd kinds room = none := by
  unfold State.itemFault
  simp only []
  rw [if_neg h1, if_neg h2, if_neg h3, hk]
  simp only [hv, hd, ne_eq, not_true_eq_false, if_false, reduceCtorEq]
  rw [if_neg h4]

/-- The bytes of an item, as the statements read them. -/
def read19 (d : Bytes) : ItemBytes := fun o k => slice d o k

theorem signed_image19 : ecdsaVerify key19 (sha256 (slice image19 0 128)) (slice image19 128 64) = true := by decide +kernel
theorem signed_keys19 : ecdsaVerify key19 (sha256 (slice keys19 0 128)) (slice keys19 128 64) = true := by decide +kernel
theorem signed_badKey19 : ecdsaVerify key19 (sha256 (slice badKey19 0 128)) (slice badKey19 128 64) = true := by decide +kernel
theorem signed_partKey19 : ecdsaVerify key19 (sha256 (slice partKey19 0 128)) (slice partKey19 128 64) = true := by decide +kernel
theorem signed_package19 : ecdsaVerify key19 (sha256 (slice package19 0 128)) (slice package19 128 64) = true := by decide +kernel
theorem signed_badPackage19 : ecdsaVerify key19 (sha256 (slice badPackage19 0 128)) (slice badPackage19 128 64) = true := by decide +kernel

theorem witness_LoftAndImages_refused : (w19_store [1, 2]).Runs 0 0x1813 (req 0x1813 (storeReq 1 0 2)) ∧ (w19_store [1, 2]).Writes 0 0x18 ∧
    (w19_store [1, 2]).itemFault (read19 ((w19_store [1, 2]).mpRead 0 2)) [2] 2 = some (4, 0xF0) ∧
    replied (.epImageStore 0) (w19_store [1, 2]) = [4, 0, 0, 0, 0, 0, 4, 0, 0xF0, 0, 255, 255] ∧
    replied (.epImageStore 0) (w19_store [1, 2] 2) = [4, 0, 0, 0, 0, 0, 4, 0, 5, 0, 255, 255] ∧
    (w19_store image19 1 fun f => { f with slots := [(7, 10)] }).fw.tooOld (read19 image19) = true :=
  ⟨runs_running _ _ _ rfl, writes_running _ _ _ _ rfl rfl rfl, by decide +kernel⟩

theorem witness_LoftAndImages_stored : (w19_store image19).Runs 0 0x1813 (req 0x1813 (storeReq 1 0 192)) ∧ (w19_store image19).Writes 0 0x18 ∧
    (w19_store image19).mpRead 0 192 = image19 ∧ (w19_store image19).itemFault (read19 image19) [2] 192 = none ∧
    (w19_store image19).fw.tooOld (read19 image19) = false ∧ (w19_store image19).fw.sending = none :=
  ⟨runs_running _ _ _ rfl, writes_running _ _ _ _ rfl rfl rfl, by decide +kernel,
   sound19 _ _ _ _ (by decide +kernel) (by decide +kernel) (by decide +kernel) (by decide +kernel) (k := key19) (by decide +kernel) signed_image19
     (by decide +kernel), by decide +kernel, rfl⟩

def w19_send (p : Bytes) (f : Firm → Firm := id) : State :=
  running 0x1814 p (((w19 fun x => f { x with slot := { cells := [(1, { valid := true, target := 1, length := 192 })] } }).updRoll
    fun r => { r with working := { cells := [(127, mvEntry 0 0)] } }).modLane 127 fun l => { l with st := .linked })

theorem witness_LoftAndImages_send : (w19_send [1, 0, 128, 0]).Runs 0 0x1814 (req 0x1814 [1, 0, 128, 0]) ∧
    (w19_send [1, 0, 128, 0]).imageLanes 1 0 128 = [127] ∧ ((w19_send [1, 0, 128, 0]).lane 127).st.working = true ∧
    ((w19_send [1, 0, 128, 0]).fw.slot.get {} 1).chunks = 24 ∧
    (ran (.epImageSend 0) (w19_send [1, 0, 128, 0])).fw.sending = some { mb := 0, slot := 1, lanes := [127], next := 1 } ∧
    ((ran (.epImageSend 0) (w19_send [1, 0, 128, 0])).lnk 127).queue.length = 1 ∧
    replied (.epImageSend 0) (w19_send [1, 1, 128, 0]) = [4, 0, 0, 0, 0, 0, 4, 0, 5, 0, 255, 255] ∧
    replied (.epImageSend 0) (w19_send [1, 0, 127, 0]) = [0, 0, 0, 0, 0, 0, 4, 0, 0, 0, 0, 0] ∧
    replied (.epImageSend 0) (w19_send [1, 0, 128, 0] fun f => { f with sending := some { mb := 3, slot := 0, lanes := [4] } }) =
      [1, 0, 0, 0, 0, 0, 4, 0, 232, 3, 0, 0] :=
  ⟨runs_running _ _ _ rfl, by decide +kernel⟩

def w19_due (f : State → State := id) : State :=
  f ((w19 fun x => { x with loftSt := .scheduled, activateAt := 80000000000 }).updTime fun t => { t with running := true })
def w19_confirm (t : Nat) : State := w19 fun f => { f with boot := .confirm t }

theorem witness_LoftAndImages_start : (w19_due).fw.activateAt ≤ (w19_due).now ∧ (w19_due).time.running = true ∧ (w19_due).sys.stage ≠ .inReset ∧
    (∀ str < 16, (w19_due).strStopped str = true) ∧ (ran .loftActivateAt (w19_due)).sys.stage = .inReset ∧ (ran .loftActivateAt (w19_due)).sys.cause = 7 ∧
    ran .loftActivateAt (w19) = w19 ∧ (w19).fw.loftSt = .verified ∧
    (w19_due fun s => (s.updTwin fun t => { t with role := .active }).modStr 3 fun x => { x with st := .running }).strStopped 3 = false ∧
    (ran .loftActivateAt (w19_due fun s => (s.updTwin fun t => { t with role := .active }).modStr 3 fun x => { x with st := .running })).fw.loftSt = .verified ∧
    (∀ b < 8, (((w19_confirm 0).updTwin fun t => { t with checkAt := { cells := (List.range 8).map fun b => (b, 0) } }).twin.checkAt.get? b).isSome = true) ∧
    (ran .fwConfirm ((w19_confirm 0).updTwin fun t => { t with checkAt := { cells := (List.range 8).map fun b => (b, 0) } })).fw.boot = .none ∧
    (w19_confirm 0).twin.checkAt.get? 7 = none ∧ ran .fwConfirm (w19_confirm 0) = w19_confirm 0 ∧
    40000000000 + 40000000000 ≤ (w19_confirm 40000000000).mono ∧ (ran .fwConfirmTimeout (w19_confirm 40000000000)).sys.cause = 7 ∧
    ran .fwConfirmTimeout (w19_confirm 40000000001) = w19_confirm 40000000001 ∧ (w19).fw.boot = .none := by decide +kernel

def lockReq (a : Byte) (token : Nat) : Bytes := [a, 0, 0, 0] ++ (leBytes 64 token).reverse
def w19_lock (a : Byte) (token : Nat := 7) : State := running 0x1816 (lockReq a token) (w19 fun f => { f with locked := a == 2 })

theorem witness_KeysAndLifeCycle_lock : (w19_lock 1).Runs 0 0x1816 (req 0x1816 (lockReq 1 7)) ∧
    (w19_lock 1).Writes 0 0x18 ∧ (ran (.ownerLock 0) (w19_lock 1)).fw.locked = true ∧
    replied (.ownerLock 0) (w19_lock 0) = [4, 0, 0, 0, 0, 0, 4, 0, 5, 0, 255, 255] ∧
    (w19_lock 2 0).tokenOk (w19_lock 2 0).fw.ownerKey 0x1816 [2] (slice (lockReq 2 0) 4 64) = false ∧
    (ran (.ownerLock 0) (w19_lock 2 0)).fw.locked = true ∧
    replied (.ownerLock 0) (w19_lock 2 0) = [4, 0, 0, 0, 0, 0, 4, 0, 0xFE, 0, 255, 255] := by
  have h : (w19_lock 2 0).tokenOk (w19_lock 2 0).fw.ownerKey 0x1816 [2] (slice (lockReq 2 0) 4 64) = false := by rfl
  exact ⟨runs_running _ _ _ rfl, writes_running _ _ _ _ rfl rfl rfl, by decide +kernel, by decide +kernel, h, by decide +kernel, by decide +kernel⟩

def token19 : Nat := 0xefd48b2aacb6a8fd1140dd9cd45e81d69d2c877b56aaf991c34d0ea84eaf3716ba4e8d9542afc2ea52bdba773ffcb595c90041d12a30361f30d66bbc53c08861

/-- The owner's token for a unit of serial number 1 with challenge 0 releases the lock. -/
theorem witness_KeysAndLifeCycle_token (h : Config.serial = 1) :
    (w19_lock 2 token19).tokenOk (w19_lock 2 token19).fw.ownerKey 0x1816 [2] (slice (lockReq 2 token19) 4 64) = true := by
  unfold State.tokenOk
  rw [h]
  decide +kernel

def lifeReq (n : Byte) (token : Nat) : Bytes := [n, 0, 0, 0] ++ (leBytes 64 token).reverse
def w19_life (n : Byte) (f : Firm → Firm := fun f => { f with lc := .factory, ownerKey := none }) (token : Nat := 0) (g : State → State := id) : State :=
  running 0x1817 (lifeReq n token) (g (w19 f))

theorem witness_KeysAndLifeCycle_life : (w19_life 1).Runs 0 0x1817 (req 0x1817 (lifeReq 1 0)) ∧
    (w19_life 1).twinEn = false ∧ (∀ str < 16, ((w19_life 1).str str).st = .stopped) ∧ (w19_life 1).sys.jtag ≠ .extest ∧ (w19_life 1).fw.lc = .factory ∧
    (ran (.lcSet 0) (w19_life 1)).fw.lc = .provisioned ∧ (ran (.lcSet 0) (w19_life 1)).fw.ownerKey = some (List.replicate 64 0) ∧
    (ran (.lcSet 0) (w19_life 1)).fw.keyState = .new ∧
    replied (.lcSet 0) (w19_life 4) = [4, 0, 0, 0, 0, 0, 4, 0, 5, 0, 255, 255] ∧
    replied (.lcSet 0) (w19_life 2) = [3, 0, 0, 0, 0, 0, 4, 0, 0xFD, 0, 255, 255] ∧
    replied (.lcSet 0) (w19_life 1 id 0 fun s => s.modStr 15 fun x => { x with st := .tripped }) = [3, 0, 0, 0, 0, 0, 4, 0, 0xFF, 0, 255, 255] ∧
    replied (.lcSet 0) (w19_life 1 id 0 fun s => s.updSys fun y => { y with jtag := .extest }) = [3, 0, 0, 0, 0, 0, 4, 0, 0x97, 0, 255, 255] ∧
    replied (.lcSet 0) (w19_life 1 id 0 (paired ·)) = [5, 0, 0, 0, 0, 0, 4, 0, 0x8B, 0, 255, 255] ∧
    replied (.lcSet 0) (w19_life 3 fun f => { f with ownerKey := none }) = [4, 0, 0, 0, 0, 0, 4, 0, 0xFE, 0, 255, 255] :=
  ⟨runs_running _ _ _ rfl, by decide +kernel⟩

def toField19 : Nat := 0xefd48b2aacb6a8fd1140dd9cd45e81d69d2c877b56aaf991c34d0ea84eaf37168372a10d1972bdca9ef804baeadbef0d23a69aea39f60a2c2bef11a99478e9ee
def toReturned19 : Nat := 0xefd48b2aacb6a8fd1140dd9cd45e81d69d2c877b56aaf991c34d0ea84eaf371641593db661bb9c835e6fda56ab04c54912882791c92f112f192453b903326ccd
def toProvisioned19 : Nat := 0xefd48b2aacb6a8fd1140dd9cd45e81d69d2c877b56aaf991c34d0ea84eaf371646d9a794f5603dba74217485939c2119772629d6ef295102d0d3299700f68579
def toFactory19 : Nat := 0xefd48b2aacb6a8fd1140dd9cd45e81d69d2c877b56aaf991c34d0ea84eaf37169b4df5d0a9f55ec6a8525a96e9fb96caef0052f8a648acaa5bb26b3896ed5146

/-- A unit's active image that carries the key as the vendor's. -/
def vendor19 (f : Firm) : Firm := { f with lc := .returned, active := { mem := Memory.writeN [] 64 key19 } }

/-- The tokens of a unit of serial number 1 with challenge 0, for every transition that asks for one. -/
theorem witness_KeysAndLifeCycle_tokens (h : Config.serial = 1) :
    (w19_life 2 (fun f => { f with lc := .provisioned }) toField19).tokenOk (some key19) 0x1817 [2] (slice (lifeReq 2 toField19) 4 64) = true ∧
    (w19_life 1 id toProvisioned19).tokenOk (some key19) 0x1817 [1] (slice (lifeReq 1 toProvisioned19) 4 64) = true ∧
    (w19_life 3 id toReturned19).tokenOk (some key19) 0x1817 [3] (slice (lifeReq 3 toReturned19) 4 64) = true ∧
    (w19_life 0 vendor19 toFactory19).vendorKey = some key19 ∧
    (w19_life 0 vendor19 toFactory19).tokenOk (some key19) 0x1817 [0] (slice (lifeReq 0 toFactory19) 4 64) = true := by
  unfold State.tokenOk
  rw [h]
  decide +kernel

/-- An attic entry of a sequence number. -/
def entry19 (seq : Nat) : Bytes := leBytes 4 seq ++ List.replicate 28 1
def w19_attic (seq n : Nat) : State :=
  { (running 0x1818 (leBytes 4 seq ++ leBytes 1 n ++ [0, 0, 0])) with faults := { attic := [entry19 (2 ^ 32 - 1), entry19 0], atticSeq := 1 } }

theorem witness_KeysAndLifeCycle_attic : (w19_attic 0 15).Runs 0 0x1818 (req 0x1818 (leBytes 4 0 ++ leBytes 1 15 ++ [0, 0, 0])) ∧
    replied (.atticRead 0) (w19_attic 0 15) = [0, 0, 0, 0, 0, 0, 40, 0, 0, 0, 0, 0, 1, 0, 0, 0] ++ entry19 0 ∧
    replied (.atticRead 0) (w19_attic 1 1) = [0, 0, 0, 0, 0, 0, 8, 0, 1, 0, 0, 0, 0, 0, 0, 0] ∧
    replied (.atticRead 0) (w19_attic 1 0) = [4, 0, 0, 0, 0, 0, 4, 0, 5, 0, 255, 255] := by
  exact ⟨⟨by decide, by decide, by decide, by decide, by decide, by decide⟩, by decide, by decide, by decide⟩

def pkgReq (unit : Byte) (n : Nat) : Bytes := [unit, 0, 0, 0] ++ leBytes 4 0 ++ leBytes 4 n
def w19_pkg (it : Bytes) (unit : Byte := 0) (f : Firm → Firm := id) (g : State → State := id) : State :=
  running 0x1815 (pkgReq unit it.length) (g (w19 f it))

/-- Status, FAIL_INDEX and reason of a PKG_APPLY's reply. -/
def pkgSays (s : State) : Byte × Nat × Byte := ((replied (.pkgApply 0) s).getD 0 0, uAt (replied (.pkgApply 0) s) 8 2, (replied (.pkgApply 0) s).getD 10 0)

theorem witness_Packages_refused : (w19_pkg [1]).Runs 0 0x1815 (req 0x1815 (pkgReq 0 1)) ∧
    pkgSays (w19_pkg [1] 2) = (4, 0xFFFF, 5) ∧ pkgSays (w19_pkg [1]) = (4, 0xFFFF, 0xF0) ∧
    replied (.pkgApply 0) (w19_pkg keys19 1 id fun s => s.updTwin fun t => { t with handoverUntil := some 5 }) = [1, 0, 0, 0, 0, 0, 4, 0, 20, 0, 0, 0] ∧
    pkgSays (w19_pkg package19 0 id barred19) = (3, 0xFFFF, 0x80) ∧
    (w19_pkg keys19 0 id fun s => s.updRoll fun r => { r with pend := some { entries := {}, left := [1], since := 0 } }).roll.pend.isSome = true ∧
    (w19_pkg keys19 0 id fun s => s.updLe fun e => { e with pend := some {} }).le.pend.isSome = true :=
  ⟨runs_running _ _ _ rfl, by decide +kernel⟩

/-- Sound items are read as they stand, and what the branches behind the checks of the item ask. -/
theorem witness_Packages_sound : (w19_pkg keys19).itemFault (read19 keys19) [3, 4] 192 = none ∧ (w19_pkg keys19).mpRead 0 192 = keys19 ∧
    (w19_pkg package19).itemFault (read19 package19) [3, 4] 212 = none ∧ (w19_pkg package19).mpRead 0 212 = package19 ∧
    (w19_pkg badPackage19).itemFault (read19 badPackage19) [3, 4] 200 = none ∧ (w19_pkg badPackage19).mpRead 0 200 = badPackage19 ∧
    (w19_pkg badKey19).itemFault (read19 badKey19) [3, 4] 224 = none ∧ (w19_pkg badKey19).mpRead 0 224 = badKey19 ∧
    (w19_pkg partKey19).itemFault (read19 partKey19) [3, 4] 193 = none ∧ (w19_pkg partKey19).mpRead 0 193 = partKey19 := by
  refine ⟨sound19 _ _ _ _ ?_ ?_ ?_ ?_ (k := key19) ?_ signed_keys19 ?_, ?_, sound19 _ _ _ _ ?_ ?_ ?_ ?_ (k := key19) ?_ signed_package19 ?_, ?_,
    sound19 _ _ _ _ ?_ ?_ ?_ ?_ (k := key19) ?_ signed_badPackage19 ?_, ?_, sound19 _ _ _ _ ?_ ?_ ?_ ?_ (k := key19) ?_ signed_badKey19 ?_, ?_,
    sound19 _ _ _ _ ?_ ?_ ?_ ?_ (k := key19) ?_ signed_partKey19 ?_, ?_⟩ <;> decide +kernel

theorem witness_Packages_branches : itemKind (read19 partKey19) = 4 ∧ itemBodyLen (read19 partKey19) % 32 ≠ 0 ∧ itemKind (read19 package19) = 3 ∧
    (w19_pkg package19 0 fun f => { f with lc := .returned }).fw.lc = .returned ∧ (w19_pkg package19 1 id (paired ·)).forwardBarred = false ∧
    (w19_pkg package19 0 id fun s => s.modStr 2 fun x => { x with st := .running }).pkgLoad = true ∧
    ((w19_pkg package19 0 id fun s => s.setParam 0x1804 noInst [0, 0, 0, 0]).mpTook 0 212).pkgSupply = true ∧
    (pkgRecords 8 (read19 badPackage19 192 8)).1.length = 1 ∧
    ((w19_pkg badPackage19).mpTook 0 200).pkgFailure (pkgRecords 8 (read19 badPackage19 192 8)).1 (pkgRecords 8 (read19 badPackage19 192 8)).2 = some 0 ∧
    (w19_pkg badKey19).unwrapKeys (read19 badKey19 64 64) 1 (badKey19.drop 192) = none ∧ (w19_pkg keys19 1).hasStandby = false ∧
    (w19_pkg keys19 1 id (paired ·)).hasStandby = true ∧ itemBodyLen (read19 keys19) = 0 ∧
    (w19_pkg keys19).unwrapKeys (read19 keys19 64 64) 0 [] = some [] ∧ (w19_pkg package19).pkgLoad = false ∧
    ((w19_pkg package19).mpTook 0 212).pkgSupply = false ∧
    ((w19_pkg package19).mpTook 0 212).pkgFailure (pkgRecords 20 (read19 package19 192 20)).1 (pkgRecords 20 (read19 package19 192 20)).2 = none := by
  decide +kernel

theorem witness_Packages_keys : pkgSays (w19_pkg keys19) = (0, 0xFFFF, 0) := by decide +kernel

/-! ### Chapter 20 -/

/-- Serving, string 3 running, at elapsed time 10 s. -/
def w20 (y : Sys → Sys := id) : State :=
  ({ (at_ 80000000000) with sys := y { stage := .serving, hold := { pin := false, rails := [] }, gated := false, pll := .locked, resets := 65535 } }).modStr 3
    fun x => { x with st := .running }

theorem witness_ChipResets : (w20).sys.stage ≠ .inReset ∧ (ran .resetNAssert (w20)).sys.stage = .inReset ∧ (ran .resetNAssert (w20)).sys.cause = 2 ∧
    ((ran .resetNAssert (w20)).str 3).st = .stopped ∧ (ran .clockLoss (w20)).sys.cause = 6 ∧ (ran (.supplyMonitorLow 4) (w20)).sys.cause = 1 ∧
    (w20).sys.hold.rails.contains 0 = false ∧ (ran (.supplyMonitorLow 4) (w20)).sys.resets = 65535 ∧ (ran (.supplyMonitorLow 0) (w20)).sys.resets = 0 ∧
    (w20).wdtHeld = false ∧ (ran .watchdogExpire (w20)).sys.cause = 5 ∧ (w20 fun y => { y with jtag := .extest }).sys.jtag = .extest ∧
    (ran .extestExit (w20 fun y => { y with jtag := .extest })).sys.cause = 2 ∧ (w20).sys.jtag ≠ .extest ∧
    (ran .watchdogExpire ((w20).updFw fun f => { f with boot := .confirm 3 })).fw.boot = .revert ∧
    ((w20 fun y => { y with core1 := { halted := true } }).setParam 0x1A02 noInst [1]).wdtHeld = true := by decide

def w20_held (pin : Bool) (rails : List Nat) (clock : Bool) (pll : PllState := .off) : State :=
  w20 fun y => { y with stage := .inReset, hold := { pin, rails, clock }, pll, gated := true, cause := 5, resetAt := some 80000000000 }

theorem witness_ChipResets_joined : (w20_held false [] false).sys.stage = .inReset ∧
    (w20_held false [] false).sys.resetAt = some (w20_held false [] false).mono ∧ (ran .resetNAssert (w20_held false [] false)).sys.cause = 2 ∧
    (ran .clockLoss (w20_held false [] false)).sys.cause = 5 ∧ (ran (.supplyMonitorLow 3) (w20_held false [2] false)).sys.hold.rails = [2, 3] ∧
    (ran .extestExit (w20 fun y => { y with stage := .inReset, jtag := .extest })).sys.jtag = .bypass := by decide

theorem witness_Starting_holds : (w20_held false [0, 2] false).sys.stage = .inReset ∧ (w20_held false [0, 2] false).sys.pll = .off ∧
    (ran .supplyMonitorRestore (w20_held false [0, 2] false)).sys.pll = .locking ∧ (ran .resetNRelease (w20_held true [] false)).sys.pll = .locking ∧
    (ran .clockRestored (w20_held false [] true)).sys.pll = .locking ∧ (ran .clockRestored (w20_held true [] true)).sys.pll = .off ∧
    (ran .supplyMonitorRestore (w20_held true [0] false)).sys.pll = .off ∧
    (w20_held false [] false .locking).sys.hold = { pin := false, rails := [], clock := false } ∧
    (ran (.mainPllLock true) (w20_held false [] false .locking)).sys.stage = .bootRom ∧
    (ran (.mainPllLock true) (w20_held false [] false .locking)).hatch.qspi = true ∧
    (ran (.mainPllLock true) (w20_held false [] false .locking)).now = 0 ∧ ran (.mainPllLock true) (w20) = w20 := by decide

def w20_boot (f : Bool) (boot : BootPlan := .none) : State :=
  { (w20 fun y => { y with stage := .bootRom }) with fw := { active := { factory := f }, boot, loft := { factory := true } }, pantry := {} }

theorem witness_Starting_boot : (w20_boot true).sys.stage = .bootRom ∧ (w20_boot true).pantry.wiping = none ∧ (w20_boot true).fw.boot = .none ∧
    (w20_boot true).bootable (w20_boot true).fw.active = true ∧ (ran .bootRomCheckDone (w20_boot true)).sys.stage = .ubferStarting ∧
    (w20_boot false).bootable (w20_boot false).fw.active = false ∧ (ran .bootRomCheckDone (w20_boot false)).sys.stage = .recovery ∧
    (w20_boot false (.exchange 7)).bootable (w20_boot false (.exchange 7)).fw.loft = true ∧
    (ran .bootRomCheckDone (w20_boot false (.exchange 7))).fw.boot = .confirm 7 ∧ (ran .bootRomCheckDone (w20_boot false .revert)).fw.report = some 2 ∧
    ran .bootRomCheckDone (w20) = w20 ∧ (ran .ubferReady (w20 fun y => { y with stage := .ubferStarting })).sys.stage = .serving ∧
    (w20).sys.stage ≠ .ubferStarting ∧ (ran .syncInEdge (w20)).sys.syncAligned = true ∧ (w20 fun y => { y with pll := .off }).sys.pll ≠ .locked := by
  decide +kernel

def w20_div : State := ((w20).updTime fun t => { t with running := true }).setShadow 0x1902 noInst [9]
def w20_field (f : State → State := id) : State := f (((w20 fun y => { y with vddField := false }).updTwin fun t => { t with role := .active }))

theorem witness_Starting_rest : w20_div.par.shadow.get? (pKey 0x1902 noInst) = some [9] ∧ w20_div.time.running = true ∧ w20_div.peff 0x1902 noInst ≠ [9] ∧
    (ran .clockDivBoundary w20_div).peff 0x1902 noInst = [9] ∧ (w20).par.shadow.get? (pKey 0x1902 noInst) = none ∧ (w20).hatch.qspi = false ∧
    (ran .pcieLinkTrained (w20)).hatch.pcieUp = true ∧ (w20_held false [] false).sys.stage = .inReset ∧
    ((ran .vddFieldLoss ((w20).updAux fun a => { a with driving := true, bridge := { cells := [(1, { sw := { cells := [(5, { on := true })] } })] } })).sw 1 5).on = false ∧
    (w20_field).sys.vddField = false ∧ (w20_field).sys.stage = .serving ∧ (w20_field).sys.gated = false ∧ (w20_field).twin.handoverUntil = none ∧
    (w20_field).commanding = true ∧ (w20_field).twin.roleMono + 8000 ≤ (w20_field).mono ∧ (ran .vddFieldReturn (w20_field)).aux.driving = true ∧
    (ran .vddFieldReturn (w20_field fun s => s.updTwin fun t => { t with handoverUntil := some 3 })).aux.driving = false := by decide +kernel

/-- A unit in the field with a debug opening of a scope that ends at 900 s. -/
def w20_open (scope : Nat) (rtc : Nat := 0) : State :=
  { (w20 fun y => { y with opening := some (scope, 900), core0 := { halted := true }, core1 := { halted := true } }) with
    fw := { lc := .field }, bat := { rtcSec := rtc } }

theorem witness_DebugPort_cores : bit (w20).dbgScope 0 = true ∧ (ran (.debugHalt 1) (w20)).sys.core1.halted = true ∧
    (ran (.debugBreakpointHit 0) (w20)).sys.core0.halted = true ∧ (ran (.debugResume 1) (w20_open 1)).sys.core1.halted = false ∧
    bit (w20_open 1).dbgScope 0 = true ∧ (ran (.debugStep 0) (w20_open 1)).sys.core0.stepped = 1 ∧ (ran (.debugStep 1) (w20)).sys.core1.stepped = 0 ∧
    bit (w20_open 2).dbgScope 0 = false ∧ ran (.debugResume 0) (w20_open 2) = w20_open 2 := by decide

theorem witness_DebugPort_memory : (w20_open 2).accOpen .debug = true ∧ (w20_open 1).accOpen .debug = false ∧
    (ran (.debugMemAccess .tcm 0xFFFFF#32 (some 7#32)) (w20_open 2)).sys.tcm.get? 0xFFFFC = some 7 ∧
    (ran (.debugMemAccess .tcm 0xFFFFC#32 none) (ran (.debugMemAccess .tcm 0xFFFFF#32 (some 7#32)) (w20_open 2))).sys.debugRead = 7 ∧
    (w20_open 2).sys.tcm.get? 0 = none ∧ (ran (.debugMemAccess .tcm 0#32 none) (w20_open 2)).freeCount = 1 ∧
    0x1C0000 ≤ (0x1C0000#32 : BitVec 32).toNat % 0x200000 / 4 * 4 ∧
    (ran (.debugMemAccess .pantry 0x1C0000#32 none) (w20_open 2)).faults.firings.get 0 0x58 = 1 ∧
    ran (.debugMemAccess .tcm 0#32 (some 7#32)) (w20_open 1) = w20_open 1 := by decide

/-- The group window in bank 13, the debug port open for memory, in a role, the node's head 0. -/
def w20_window (role : Role) : State :=
  (((w20_open 2).setParam 0x0E01 noInst [1]).setParam 0x0E02 noInst [0, 17, 13, 0]).updTwin fun t => { t with role }

theorem witness_DebugPort_pantry : (w20_open 2).bankOff 13 = false ∧ (w20_open 2).inGw 0x1BFFFC = false ∧ (w20_open 2).pantry.mem.wf = true ∧
    ((ran (.debugMemAccess .pantry 0x1BFFFF#32 (some 0x01020304#32)) (w20_open 2)).pantry.mem.readN 0x1BFFFC 4) = [4, 3, 2, 1] ∧
    (ran (.debugMemAccess .pantry 0x1BFFFC#32 none) (ran (.debugMemAccess .pantry 0x1BFFFF#32 (some 0x01020304#32)) (w20_open 2))).sys.debugRead =
      0x01020304 ∧
    ((w20_open 2).updPantry fun p => { p with clearing := p.clearing.set 13 9 }).bankOff 13 = true ∧
    ((w20_window .standby).inGw 0x1A0000 = true ∧ (w20_window .standby).gwOwn 0x1A0000 = false) ∧
    ((w20_window .active).inGw 0x1A0000 = true ∧ (w20_window .active).gwOwn 0x1A0000 = true ∧ (w20_window .active).bankOff 13 = false ∧
      (w20_window .active).gwWaiting 129 = 0 ∧ (ran (.debugMemAccess .pantry 0x1A0000#32 (some 5#32)) (w20_window .active)).ring.wseq = 1) ∧
    (ran (.debugMemAccess .bar0 0x0000#32 none) (w20_open 2)).sys.debugRead = (w20_open 2).regWord 0 := by decide +kernel

def unlockReq (scope : Byte) (mins token : Nat) : Bytes := [scope, 0] ++ leBytes 2 mins ++ (leBytes 64 token).reverse
def w20_unlock (lc : LcState) (scope : Byte := 3) (mins : Nat := 1440) (token : Nat := 0) : State :=
  running 0x1A10 (unlockReq scope mins token) { w20 with fw := { lc, ownerKey := some key19 } }
def token20 : Nat := 0xefd48b2aacb6a8fd1140dd9cd45e81d69d2c877b56aaf991c34d0ea84eaf3716d81954771f3d7c418fe582081f5adfa6f67383e79f746af9ea949da764ba6ade

theorem witness_DebugPort_unlock : (w20_unlock .field).Runs 0 0x1A10 (req 0x1A10 (unlockReq 3 1440 0)) ∧
    replied (.dbgUnlock 0) (w20_unlock .factory) = [3, 0, 0, 0, 0, 0, 4, 0, 0x95, 0, 255, 255] ∧
    replied (.dbgUnlock 0) (w20_unlock .field 8) = [4, 0, 0, 0, 0, 0, 4, 0, 5, 0, 255, 255] ∧
    replied (.dbgUnlock 0) (w20_unlock .field 3 1441) = [4, 0, 0, 0, 0, 0, 4, 0, 5, 0, 255, 255] ∧
    replied (.dbgUnlock 0) (w20_unlock .field 4) = [3, 0, 0, 0, 0, 0, 4, 0, 0x96, 0, 255, 255] ∧
    replied (.dbgUnlock 0) (w20_unlock .field) = [4, 0, 0, 0, 0, 0, 4, 0, 0x94, 0, 255, 255] := by
  have h : (w20_unlock .field).tokenOk (w20_unlock .field).fw.ownerKey 0x1A10 [3, 1440] (slice (unlockReq 3 1440 0) 4 64) = false := rfl
  exact ⟨runs_running _ _ _ rfl, by decide +kernel, by decide +kernel, by decide +kernel, by decide +kernel, by decide +kernel⟩

/-- The owner's token for a unit of serial number 1 with challenge 0 opens the port. -/
theorem witness_DebugPort_token (h : Config.serial = 1) :
    (w20_unlock .field 3 1440 token20).tokenOk (w20_unlock .field).fw.ownerKey 0x1A10 [3, 1440] (slice (unlockReq 3 1440 token20) 4 64) = true := by
  unfold State.tokenOk
  rw [h]
  decide +kernel

def w20_lock (y : Sys → Sys := id) (lc : LcState := .field) : State := running 0x1A11 [] (((w20_open 3 900).updSys y).updFw fun f => { f with lc })

theorem witness_DebugPort_close : (w20_lock).Runs 0 0x1A11 (req 0x1A11 []) ∧ (w20_lock).fw.lc = .field ∧ (w20_lock).sys.opening = some (3, 900) ∧
    (ran (.dbgLock 0) (w20_lock)).sys.opening = none ∧ replied (.dbgLock 0) (w20_lock) = [0, 0, 0, 0, 0, 0, 4, 0, 2, 0, 0, 0] ∧
    replied (.dbgLock 0) (w20_lock id .factory) = [3, 0, 0, 0, 0, 0, 4, 0, 0x95, 0, 255, 255] ∧
    replied (.dbgLock 0) (w20_lock fun y => { y with opening := none }) = [0, 0, 0, 0, 0, 0, 4, 0, 0, 0, 0, 0] ∧
    (ran (.dbgLock 0) (w20_lock fun y => { y with jtag := .extest })).sys.cause = 2 ∧ (900 : Nat) ≤ (w20_lock).bat.rtcSec ∧
    (ran .dbgOpeningExpire (w20_lock)).sys.core1.halted = false ∧ (ran .dbgOpeningExpire (w20_lock fun y => { y with jtag := .extest })).sys.cause = 2 ∧
    ran .dbgOpeningExpire (w20_open 3 899) = w20_open 3 899 :=
  ⟨runs_running _ _ _ rfl, by decide⟩

theorem witness_DebugPort_jtag : (w20).sys.jtag ≠ .extest ∧ (ran (.jtagInstructionLoad .privateDebug) (w20_open 0)).sys.jtag = .bypass ∧
    (ran (.jtagInstructionLoad .privateDebug) (w20)).sys.jtag = .privateDebug ∧ (w20).extestMay = false ∧
    (ran (.jtagInstructionLoad .extest) (w20)).sys.jtag = .bypass ∧ (ran (.jtagInstructionLoad .extest) State.reset).sys.jtag = .extest ∧
    (ran (.jtagInstructionLoad .idcode) (w20 fun y => { y with jtag := .extest })).sys.cause = 2 ∧
    (ran (.jtagInstructionLoad .idcode) (w20 fun y => { y with jtag := .extest })).sys.jtag = .idcode := by decide

/-! ### Rules over several chapters -/

/-- String 15 TRIPPED by cause 3. -/
def w98 : State := ((at_ 80000000000).modStr 15 fun x => { x with st := .tripped }).modPrt 15 fun x => { x with mask := 8, first := 3 }

theorem witness_TrippedAgain : (w98.str 15).st = .tripped ∧ (w98.trip 15 10 0).prt 15 = { w98.prt 15 with mask := 8 ||| 1024 } ∧
    (running 0x0C20 [15, 0, 0, 0] w98).Runs 0 0x0C20 (req 0x0C20 [15, 0, 0, 0]) ∧ (running 0x0C20 [15, 0, 0, 0] w98).Writes 0 0x0C ∧
    ((ran (.stringTrip 0) (running 0x0C20 [15, 0, 0, 0] w98)).prt 15).mask = 8 ||| 4096 ∧
    ((ran (.stringTrip 0) (running 0x0C20 [15, 0, 0, 0] w98)).prt 15).first = 3 ∧
    (ran (.stringTrip 0) (running 0x0C20 [15, 0, 0, 0] (paired w98))).twin.fwdOut.length = 1 :=
  ⟨by decide, by decide, runs_running _ _ _ rfl, writes_running _ _ _ _ rfl rfl rfl, by decide, by decide, by decide +kernel⟩

/-- Input 1 of bridge 1 low long enough, with an ACTION, the bridge in a short or not. -/
def w98_trip (action : Byte) (short : Bool) : State :=
  (((at_ 80000000000).setParam 0x1209 1 [100, 0, 0, 1, 100, 0, action, 1]).updAux fun a => { a with driving := true }).modBr 1 fun x =>
    { x with mode := if short then 3 else 2, short, trip := { cells := [(0, { latched := short, short }), (1, { lowSince := some 0 })] } }

theorem witness_ShortPrevails : ((w98_trip 1 false).br 1).trip.get {} 1 = { lowSince := some 0 } ∧ 0 + 20 * (w98_trip 1 false).pu 0x1209 1 4 2 ≤ (w98_trip 1 false).mono ∧
    bit ((w98_trip 1 false).pu 0x1209 1 7 1) 0 = true ∧ (w98_trip 1 false).aux.driving = true ∧ (w98_trip 1 false).pu 0x1209 1 6 1 = 1 ∧
    ((ran (.auxTripActive 1 1) (w98_trip 1 false)).br 1).short = true ∧ ((w98_trip 0 true).br 1).short = true ∧
    ((ran (.auxTripActive 1 1) (w98_trip 0 true)).br 1).short = true ∧ (((ran (.auxTripActive 1 1) (w98_trip 0 true)).br 1).trip.get {} 1).latched = true := by decide

/-- The state a step leads to. -/
def stepped (s : State) : State :=
  match step s with
  | .next t => t
  | _ => { mono := 9 }

theorem witness_StepRunsFront : (stepped { State.reset with pending := [.pcieLinkTrained, .pcieLinkTrained] }).pending = [.pcieLinkTrained] ∧
    (stepped (at_ 7)).mono = 8 ∧ (stepped (at_ 7)).time.tick = 8 ∧ (at_ 7).time.running = true ∧
    (stepped ((at_ 7).updTime fun t => { t with running := false })).time.tick = 7 ∧ State.reset.settle = State.reset := by decide

theorem witness_RefusedCommit : ((ran (.rollCommit 0) (running 0x0311 [9, 9, 9, 9])).box 0).state = .done ∧
    uAt ((ran (.rollCommit 0) (running 0x0311 [9, 9, 9, 9])).box 0).reply 0 2 ≠ 0 := by decide

theorem witness_InvKept : step State.reset = .next (stepped State.reset) := rfl

/-- The check value of the CRC of R137: 0x29B1 over the nine digits in ASCII. -/
theorem test_crc16 : crc16 (("123456789".toList.map Char.toNat).flatMap (bitsMsb 8)) = 0x29B1 := by decide +kernel

/-! ### Refused terms, and values of the spec -/

theorem test_wf_low_read : (Instr.lowWordRead (.host .pcie) 0x0224 false).wf = false ∧ (Instr.lowWordRead .mp 0x0220 true).wf = true := by decide
theorem test_wf_high_read : (Instr.highWordRead .debug 0x0220).wf = false ∧ (Instr.highWordRead .debug 0x0224).wf = true := by decide
theorem test_wf_low_write : (Instr.lowWordWrite .mp 0x8034 0).wf = false ∧ (Instr.lowWordWrite .mp 0x8030 0).wf = true := by decide
theorem test_wf_high_write : (Instr.highWordWrite .mp 0x8030 0 none).wf = false ∧ (Instr.highWordWrite .mp 0x8034 0 (some 1)).wf = true := by decide
theorem test_wf_register : (Instr.registerWrite 2 0 .pcie).wf = false ∧ (Instr.registerWrite 4 0 .pcie).wf = true := by decide
theorem test_wf_pantry_read : (Instr.pantryHostRead 2 .idle none .pcie).wf = false ∧ (Instr.pantryHostRead 4 .idle none .pcie).wf = true := by decide
theorem test_wf_pantry_write : (Instr.pantryHostWrite 6 0 15 .idle none .pcie).wf = false ∧ (Instr.pantryHostWrite 8 0 15 .idle none .pcie).wf = true := by
  decide

end Sys2Proof.Tests
end

section
/-!
PROOFS. A refused ROLL_COMMIT (R35). The one way to a refusal that changes the roll would be a commit whose own mailbox ends with another
status than OK. What a commit sets off answers mailboxes that wait for a planned bypass or release (R362), so it is shown that a mailbox
which waits for nothing, as the committing one does, is left as it was; the answer of an accepted commit is then OK, or waits for the standby.
-/

namespace Sys2Proof.Machine

/-! ### Frames of the mailboxes: notes and faults -/

/-- A frame that leaves the hatch out leaves every mailbox. -/
theorem Keeps.box {M : Nat} {s t : State} (h : Keeps M s t) (k : M.testBit 4 = false) (n : Nat) : t.box n = s.box n := by
  unfold State.box
  rw [h.hatch k]

@[simp] theorem mpWrite_box (s : State) (off : Nat) (v : Bytes) (n : Nat) : (s.mpWrite off v).box n = s.box n :=
  (mpWrite_keeps (M := 8256) (by decide) (Keeps.refl _ s)).box (by decide) n

@[simp] theorem react_box (s : State) (r src inst rec_ n : Nat) : (s.react r src inst rec_).box n = s.box n :=
  (react_keeps (M := 200) (by decide) (Keeps.refl _ s)).box (by decide) n

@[simp] theorem updNotif_box (s : State) (f : Notif → Notif) (n : Nat) : (s.updNotif f).box n = s.box n := rfl
@[simp] theorem updFaults_box (s : State) (f : Faults → Faults) (n : Nat) : (s.updFaults f).box n = s.box n := rfl
@[simp] theorem attic_box (s : State) (cls sub code : Nat) (args : Bytes) (n : Nat) : (s.attic cls sub code args).box n = s.box n := rfl

@[simp] theorem hostErrSet_box (s : State) (mask n : Nat) : (s.hostErrSet mask).box n = s.box n := irqSince_box s _ n

@[simp] theorem dropNote_box (s : State) (n : Nat) : s.dropNote.box n = s.box n := hostErrSet_box _ 0x10 n

@[simp] theorem putNote_box (s : State) (e : Note) (n : Nat) : (s.putNote e).box n = s.box n := by
  unfold State.putNote
  repeat' split
  all_goals simp

@[simp] theorem note_box (s : State) (island code : Nat) (args : Bytes) (info : Bool) (n : Nat) :
    (s.note island code args info).box n = s.box n := by
  unfold State.note State.noteAt
  dsimp only
  split <;> simp

@[simp] theorem faultPin_box (s : State) (n : Nat) : s.faultPin.box n = s.box n := by
  unfold State.faultPin
  dsimp only
  split
  · rfl
  · exact irqSince_box s _ n

@[simp] theorem fireNote_box (s : State) (src inst : Nat) (t : Option Nat) (f r : Nat) (args : Bytes) (log : Bool) (n : Nat) :
    (s.fireNote src inst t f r args log).box n = s.box n := by
  simp [State.fireNote]

@[simp] theorem fireMerge_box (s : State) (r : FaultRec) (c : Bool) (src inst react : Nat) (pin inj : Bool) (args : Bytes) (log : Bool)
    (n : Nat) : (s.fireMerge r c src inst react pin inj args log).box n = s.box n := by
  unfold State.fireMerge
  dsimp only
  repeat' split
  all_goals simp

@[simp] theorem fireOpen_box (s : State) (src inst react : Nat) (pin inj : Bool) (args : Bytes) (log : Bool) (n : Nat) :
    (s.fireOpen src inst react pin inj args log).box n = s.box n := by
  unfold State.fireOpen
  split <;> simp

@[simp] theorem fireWith_box (s : State) (src inst : Nat) (args : Bytes) (inj : Bool) (limit n : Nat) :
    (s.fireWith src inst args inj limit).box n = s.box n := by
  unfold State.fireWith
  dsimp only
  repeat' split
  all_goals simp

@[simp] theorem condOn_box (s : State) (src inst sub : Nat) (args : Bytes) (n : Nat) : (s.condOn src inst sub args).box n = s.box n := by
  unfold State.condOn State.fire
  dsimp only
  split <;> simp

@[simp] theorem cond_box (s : State) (on : Bool) (src inst sub : Nat) (args : Bytes) (n : Nat) :
    (s.cond on src inst sub args).box n = s.box n := by
  unfold State.cond
  split
  · exact condOn_box s src inst sub args n
  · rfl

@[simp] theorem identCheck_box (s : State) (lane n : Nat) : (s.identCheck lane).box n = s.box n := by
  unfold State.identCheck
  dsimp only
  repeat' split
  all_goals simp

/-! ### A mailbox that waits for nothing -/

/-- Between two states a mailbox that waits for nothing stays as it is. -/
def State.LeavesBox (n : Nat) (s t : State) : Prop := (s.box n).waiting = .none → t.box n = s.box n

/-- The mask of every part but the hatch. -/
def noHatch : Nat := 2 ^ 28 - 1 - 2 ^ 4

section
variable {n : Nat} {s t : State}

theorem State.LeavesBox.refl : s.LeavesBox n s := fun _ => rfl

theorem State.LeavesBox.box_eq {u : State} (h : s.LeavesBox n t) (k : u.box n = t.box n) : s.LeavesBox n u :=
  fun w => k.trans (h w)

/-- What leaves the hatch alone leaves the mailbox. -/
theorem State.LeavesBox.keeps {u : State} (h : s.LeavesBox n t) (k : Keeps noHatch t u) : s.LeavesBox n u :=
  h.box_eq (k.box (by decide) n)

theorem leavesBox_ite {u : State} {c : Prop} [Decidable c] (h : c → s.LeavesBox n t) (k : ¬c → s.LeavesBox n u) :
    s.LeavesBox n (if c then t else u) := by
  split
  · exact h ‹_›
  · exact k ‹_›

theorem leavesBox_foldl {α : Type} {l : List α} {f : State → α → State} (h : s.LeavesBox n t)
    (hf : ∀ u x, s.LeavesBox n u → s.LeavesBox n (f u x)) : s.LeavesBox n (l.foldl f t) := by
  induction l generalizing t with
  | nil => exact h
  | cons a r ih => exact ih (hf t a h)

/-- A reply to a mailbox leaves every other. -/
theorem reply_box_ne {m : Nat} (e : n ≠ m) (status : Nat) (payload : Bytes) : (t.reply m status payload).box n = t.box n := by
  cases h : (t.box m).taken with
  | none => simp [State.reply, State.writeReply, h]
  | some q => exact (reply_replies h status payload).others n e

theorem plannedReply_box_ne {m : Nat} (e : n ≠ m) (payload : Bytes) : (t.plannedReply m payload).box n = t.box n := by
  unfold State.plannedReply
  split
  · exact box_modBox_ne t e _
  · exact reply_box_ne e stOk payload

/-- The answers go to mailboxes that wait, and so not to one that waits for nothing (R362). -/
theorem answerWaiting_leavesBox {w : Waiting} (hw : w ≠ .none) (payload : Bytes) (h : s.LeavesBox n t) :
    s.LeavesBox n (t.answerWaiting w payload) := by
  refine leavesBox_foldl h fun u m hu => leavesBox_ite (fun hm idle => ?_) fun _ => hu
  have e : n ≠ m := by
    rintro rfl
    rw [hu idle, idle] at hm
    exact hw hm.symm
  rw [plannedReply_box_ne e, hu idle]

/-! ### Trips and bypasses (R337, R344, R345) -/

theorem record_leavesBox (lane cause : Nat) (h : s.LeavesBox n t) : s.LeavesBox n (t.record lane cause) :=
  (answerWaiting_leavesBox (by simp) _ h).keeps (modByp_keeps (by decide) (.refl _ _))

theorem enterNow_leavesBox (lane : Nat) (h : s.LeavesBox n t) : s.LeavesBox n (t.enterNow lane) :=
  answerWaiting_leavesBox (by simp) _
    (h.keeps (sendAct_keeps (by decide) (modByp_keeps (by decide) (laneOut_keeps (by decide) (.refl _ _)))))

theorem tripLane_leavesBox (str lane : Nat) (h : s.LeavesBox n t) : s.LeavesBox n (t.tripLane str lane) := by
  unfold State.tripLane
  have out := laneOut_keeps (M := noHatch) (a1 := lane) (by decide) (.refl _ t)
  refine .keeps (answerWaiting_leavesBox (by simp) _ (answerWaiting_leavesBox (by simp) _ (h.keeps ?untilAnswers)))
    (keeps_ite (fun _ => tripAction_keeps (by decide) (.refl _ _)) fun _ => .refl _ _)
  exact modByp_keeps (by decide) (keeps_ite (fun _ => modByp_keeps (by decide) out) fun _ => out)

theorem tripMask_leavesBox (str mask lane : Nat) (h : s.LeavesBox n t) : s.LeavesBox n (t.tripMask str mask lane) := by
  unfold State.tripMask
  refine leavesBox_ite (fun _ => h.keeps (modPrt_keeps (by decide) (.refl _ _))) fun _ => ?_
  refine .keeps (.box_eq (.keeps ?lanes (bump_keeps (by decide) (.refl _ _))) (note_box ..)) (coastLanes_keeps (by decide) (.refl _ _))
  exact leavesBox_foldl (h.keeps (modPrt_keeps (by decide) (modStr_keeps (by decide) (.refl _ _)))) fun _ l hu =>
    tripLane_leavesBox str l hu

theorem trip_leavesBox (str cause lane : Nat) (h : s.LeavesBox n t) : s.LeavesBox n (t.trip str cause lane) := by
  have masked := tripMask_leavesBox str (2 ^ cause) lane h
  exact leavesBox_ite (fun _ => masked) fun _ =>
    masked.keeps (twinTrip_keeps (by decide) (modPrt_keeps (by decide) (.refl _ _)))

theorem urgentBypass_leavesBox (lane cause : Nat) (h : s.LeavesBox n t) : s.LeavesBox n (t.urgentBypass lane cause) := by
  have made := record_leavesBox lane cause h
  have counted := made.keeps (bump_keeps (a1 := 0x0C09) (a2 := t.strOf lane) (a3 := 1) (by decide) (.refl _ _))
  unfold State.urgentBypass
  exact leavesBox_ite (fun _ => leavesBox_ite (fun _ => enterNow_leavesBox lane made) fun _ => made) fun _ =>
    leavesBox_ite (fun _ => trip_leavesBox _ 8 0xFFFF counted) fun _ => enterNow_leavesBox lane counted

theorem plannedBypass_leavesBox (lane cause : Nat) (h : s.LeavesBox n t) : s.LeavesBox n (t.plannedBypass lane cause) := by
  have made := record_leavesBox lane cause h
  have counted := made.keeps (bump_keeps (a1 := 0x0C09) (a2 := t.strOf lane) (a3 := 2) (by decide) (.refl _ _))
  unfold State.plannedBypass
  exact leavesBox_ite (fun _ => made) fun _ => leavesBox_ite (fun _ => trip_leavesBox _ 8 0xFFFF counted) fun _ =>
    leavesBox_ite (fun _ => counted) fun _ => enterNow_leavesBox lane counted

theorem cellFail_leavesBox (lane : Nat) (h : s.LeavesBox n t) : s.LeavesBox n (t.cellFail lane) :=
  trip_leavesBox _ 7 0xFFFF (h.keeps (modPrt_keeps (by decide) (.refl _ _)))

theorem lostMember_leavesBox (lane : Nat) (auth : Bool) (h : s.LeavesBox n t) : s.LeavesBox n (t.lostMember lane auth) := by
  unfold State.lostMember
  refine leavesBox_ite (fun _ => h) fun _ => leavesBox_ite (fun _ => ?mv) fun _ => leavesBox_ite (fun _ => ?sense) fun _ =>
    cellFail_leavesBox lane h
  case mv =>
    exact leavesBox_ite (fun _ => h.keeps (bump_keeps (by decide) (.refl _ _))) fun _ => urgentBypass_leavesBox lane 3 h
  case sense =>
    exact leavesBox_foldl (.box_eq (h.keeps (modLink_keeps (by decide) (.refl _ _))) (condOn_box ..)) fun u str hu =>
      leavesBox_ite (fun _ => trip_leavesBox str 6 0xFFFF hu) fun _ => hu

/-! ### Adoption (R29, R32, R33, R38, R43) -/

theorem adoptEnable_leavesBox (lane : Nat) (old new : Bytes) (h : s.LeavesBox n t) : s.LeavesBox n (t.adoptEnable lane old new) := by
  unfold State.adoptEnable
  refine leavesBox_ite (fun _ => h) fun _ => leavesBox_ite (fun _ => leavesBox_ite (fun _ => ?joins) fun _ => h) fun _ =>
    leavesBox_ite (fun _ => plannedBypass_leavesBox lane 2 h) fun _ => leavesBox_ite (fun _ => ?fails) fun _ => h
  case joins =>
    have made := (record_leavesBox lane 2 h).keeps
      (modByp_keeps (a1 := lane) (a2 := fun b => { b with enterAt := some t.now }) (by decide) (.refl _ _))
    exact leavesBox_ite (fun _ => trip_leavesBox _ 8 0xFFFF made) fun _ => made
  case fails => exact trip_leavesBox _ 7 0xFFFF (h.keeps (modPrt_keeps (by decide) (.refl _ _)))

theorem adoptLost_leavesBox (lane : Nat) (old new : Bytes) (h : s.LeavesBox n t) : s.LeavesBox n (t.adoptLost lane old new) :=
  leavesBox_ite (fun _ => lostMember_leavesBox lane false h) fun _ => h

theorem adoptLane_leavesBox (lane : Nat) (new : Bytes) (h : s.LeavesBox n t) : s.LeavesBox n (t.adoptLane lane new) := by
  have taken := h.keeps (laneTypeChanged_keeps (a1 := lane) (a2 := eType (t.entry lane)) (a3 := eType new) (by decide)
    (updRoll_keeps (by decide) (f := fun r =>
      { r with working := if allZero new then r.working.erase lane else r.working.set lane new }) (.refl _ _)))
  have judged := leavesBox_ite (c := eId (t.entry lane) = eId new) (fun _ => taken) fun _ => taken.box_eq (identCheck_box _ lane n)
  have reset := leavesBox_ite (c := sameH (t.entry lane) new = true) (fun _ => judged) fun _ =>
    judged.keeps (dtRollChange_keeps (a1 := lane) (by decide) (.refl _ _))
  exact (adoptLost_leavesBox lane _ new (adoptEnable_leavesBox lane _ new reset)).keeps (coastRefresh_keeps (by decide) (.refl _ _))

theorem adoptWhere_leavesBox (p : State → Nat → Bool) (h : s.LeavesBox n t) : s.LeavesBox n (t.adoptWhere p) := by
  unfold State.adoptWhere
  split
  · exact h
  · exact leavesBox_foldl (h.keeps (updRoll_keeps (by decide) (.refl _ _))) fun _ l hu => adoptLane_leavesBox l _ hu

/-- A commit leaves a mailbox that waits for nothing, whatever the strings make of the new roll. -/
theorem commitRoll_leavesBox (set : Tab Bytes) (since : Nat) : s.LeavesBox n (s.commitRoll set since) :=
  adoptWhere_leavesBox _ (State.LeavesBox.refl.keeps (countSave_keeps (by decide) (updRoll_keeps (by decide) (.refl _ _))))

end

/-! ### Answers -/

/-- A mailbox has ended with another status than OK. -/
def State.EndedRefused (s : State) (mb : Nat) : Prop := (s.box mb).state = .done ∧ uAt (s.box mb).reply 0 2 ≠ 0

theorem reply_roll (s : State) (mb status : Nat) (payload : Bytes) : (s.reply mb status payload).roll = s.roll :=
  (reply_keeps (M := 80) (by decide) (Keeps.refl _ s)).roll (by decide)

/-- The status is the first field of a reply (R66). -/
theorem status_replyBytes_ok (seq epoch : Nat) (payload : Bytes) : uAt (replyBytes stOk seq epoch payload) 0 2 = 0 := rfl

/-- What running a command can do: nothing, a refusal, or the command's own effect on a request that is being executed. -/
theorem withCmd_elim {P : State → Prop} {s : State} {mb op : Nat} {c : Bool} {f : Request → State → State} (idle : P s)
    (refused : ∀ status payload, P (s.reply mb status payload))
    (runs : ∀ q, (s.box mb).taken = some q → (s.box mb).state = .active → (s.box mb).waiting = .none → P (f q s)) :
    P (s.withCmd mb op c f) := by
  unfold State.withCmd
  split
  · exact idle
  · rename_i q taken
    split
    · exact idle
    · rename_i may
      simp only [not_or, ne_eq, not_not] at may
      obtain ⟨active, waits, -, -⟩ := may
      split
      · exact refused _ _
      · exact runs q taken active waits

/-- What running a configuration write can do. -/
theorem withWrite_elim {P : State → Prop} {s : State} {mb op : Nat} {f : Request → State → State} (idle : P s)
    (refused : ∀ status payload, P (s.reply mb status payload))
    (runs : ∀ q, (s.box mb).taken = some q → (s.box mb).state = .active → (s.box mb).waiting = .none → P (f q s)) :
    P (s.withWrite mb op f) := by
  refine withCmd_elim idle refused fun q taken active waits => ?_
  repeat' split
  · exact refused _ _
  · exact refused _ _
  · exact refused _ _
  · exact runs q taken active waits

/-- An accepted configuration write is answered OK, or its mailbox stays ACTIVE until the standby acknowledges (R72, R373). -/
theorem finishWrite_not_refused {s : State} {mb : Nat} {q r : Request} (taken : (s.box mb).taken = some r)
    (active : (s.box mb).state = .active) (payload data : Bytes) : ¬(s.finishWrite mb q payload data).EndedRefused mb := by
  rintro ⟨done, status⟩
  unfold State.finishWrite at done status
  split at done
  case isTrue =>
    have sent := (forwardRequest_keeps (M := 67584) (a1 := mb) (a2 := q) (a3 := data) (by decide) (Keeps.refl _ s)).box (by decide) mb
    simp [State.waitFor, sent, active] at done
  case isFalse standby =>
    rw [if_neg standby, State.replyOk, (reply_replies taken stOk payload).reply] at status
    exact status (status_replyBytes_ok ..)

/-! ### ROLL_COMMIT -/

/-- ROLL_COMMIT on a set leaves the roll, or its mailbox has not ended with another status than OK (R34, R35). -/
theorem rollRun_roll_or_not_refused {s : State} {mb : Nat} {r : Request} (taken : (s.box mb).taken = some r)
    (active : (s.box mb).state = .active) (waits : (s.box mb).waiting = .none) (q : Request) (set : Tab Bytes) (since : Nat) :
    (s.rollRun mb q set since).roll = s.roll ∨ ¬(s.rollRun mb q set since).EndedRefused mb := by
  unfold State.rollRun
  dsimp only
  split
  · exact .inl (reply_roll ..)
  split
  · exact .inl (reply_roll s.tookFree ..)
  split
  · exact .inl (reply_roll s.tookFree ..)
  · have left := commitRoll_leavesBox (n := mb) set since waits
    exact .inr (finishWrite_not_refused (by rw [left, taken]) (by rw [left, active]) _ _)

theorem execRollCommit_roll_or_not_refused (s : State) (mb : Fin 8) :
    Lands (execRollCommit mb s) fun e => e.roll = s.roll ∨ ¬e.EndedRefused mb :=
  ⟨_, rfl, withWrite_elim (P := fun e => e.roll = s.roll ∨ ¬e.EndedRefused mb) (.inl rfl) (fun _ _ => .inl (reply_roll ..))
    fun q taken active waits => rollRun_roll_or_not_refused taken active waits q _ _⟩

/-- Settles O58: a commit that ends refused has left the whole roll. -/
theorem refusedCommit : Obligations.RefusedCommit := by
  intro s mb
  obtain ⟨e, lands, same | ended⟩ := execRollCommit_roll_or_not_refused s mb
  · exact ⟨e, lands, fun _ _ => by simp only [same, and_self]⟩
  · exact ⟨e, lands, fun done status => absurd ⟨done, status⟩ ended⟩

end Sys2Proof.Machine
end

section
/-!
PROOFS. Loss of the host link (R92). A change made to each of a list of mailboxes changes every mailbox of the list once and the boxes alone,
so the two passes over the mailboxes, which return the pending ones to IDLE and discard the held sets, come together in each mailbox.
-/

namespace Sys2Proof.Machine

/-- A change of mailboxes leaves the rest of the hatch. -/
theorem foldl_modBox_hatch (f : Mailbox → Mailbox) (l : List Nat) (s : State) :
    (l.foldl (fun s n => s.modBox n f) s).hatch = { s.hatch with boxes := (l.foldl (fun s n => s.modBox n f) s).hatch.boxes } := by
  induction l generalizing s with
  | nil => rfl
  | cons m l ih =>
    rw [List.foldl_cons, ih]
    rfl

/-- Changing mailboxes other than one leaves that one. -/
theorem foldl_modBox_box_of_notMem (f : Mailbox → Mailbox) {l : List Nat} {n : Nat} (out : n ∉ l) (s : State) :
    (l.foldl (fun s n => s.modBox n f) s).box n = s.box n := by
  induction l generalizing s with
  | nil => rfl
  | cons m l ih =>
    obtain ⟨other, out⟩ := List.ne_and_not_mem_of_not_mem_cons out
    rw [List.foldl_cons, ih out, box_modBox_ne s other]

/-- A change made once to each of several mailboxes is made once to any one of them. -/
theorem foldl_modBox_box (f : Mailbox → Mailbox) {l : List Nat} {n : Nat} (once : l.Nodup) (mem : n ∈ l) (s : State) :
    (l.foldl (fun s n => s.modBox n f) s).box n = f (s.box n) := by
  induction l generalizing s with
  | nil => cases mem
  | cons m l ih =>
    obtain ⟨fresh, once⟩ := List.nodup_cons.1 once
    rw [List.foldl_cons]
    obtain rfl | mem := List.mem_cons.1 mem
    · rw [foldl_modBox_box_of_notMem f fresh, box_modBox]
    · have other : n ≠ m := fun e => fresh (e ▸ mem)
      rw [ih once mem, box_modBox_ne s other]

/-- The held sets discarded: the rest of the hatch stays (R92). -/
theorem discardHeld_hatch (s : State) : s.discardHeld.hatch = { s.hatch with boxes := s.discardHeld.hatch.boxes } :=
  foldl_modBox_hatch _ _ s

/-- The held sets discarded: each mailbox loses its own and nothing else (R92). -/
theorem discardHeld_box (s : State) {n : Nat} (h : n < 8) : s.discardHeld.box n = { s.box n with held := [] } :=
  foldl_modBox_box _ List.nodup_range (List.mem_range.2 h) s

/-- The mailboxes whose requests are pending, returned to IDLE (R92). -/
def State.idlePending (s : State) : State :=
  (List.range 8).foldl (fun s n => s.modBox n fun b => { b with state := if b.state = .pending then .idle else b.state }) s

theorem idlePending_hatch (s : State) : s.idlePending.hatch = { s.hatch with boxes := s.idlePending.hatch.boxes } :=
  foldl_modBox_hatch _ _ s

theorem idlePending_box (s : State) {n : Nat} (h : n < 8) :
    s.idlePending.box n = { s.box n with state := if (s.box n).state = .pending then .idle else (s.box n).state } :=
  foldl_modBox_box _ List.nodup_range (List.mem_range.2 h) s

/-- The state the loss of a PCI Express link leaves (R92). -/
def State.linkLost (s : State) : State := (s.idlePending.updHatch fun h => { h with order := [], pcieUp := false }).discardHeld

theorem execHostLinkDown_pcie {s : State} (pcie : s.hatch.qspi = false) : execHostLinkDown s = .next s.linkLost := by
  unfold execHostLinkDown
  rw [pcie]
  rfl

theorem execHostLinkDown_qspi {s : State} (qspi : s.hatch.qspi = true) : execHostLinkDown s = .next s := by
  unfold execHostLinkDown
  rw [qspi]
  rfl

theorem linkLost_only {s : State} (pcie : s.hatch.qspi = false) : Only [.hatch] s s.linkLost :=
  only_of (execHostLinkDown_keeps (by decide) (Keeps.refl _ s) _ (execHostLinkDown_pcie pcie))

/-- No request is pending, the link is down, and what is not in a mailbox is otherwise left (R92). -/
theorem linkLost_hatch (s : State) :
    s.linkLost.hatch = { s.hatch with boxes := s.linkLost.hatch.boxes, order := [], pcieUp := false } := by
  unfold State.linkLost
  rw [discardHeld_hatch, updHatch_hatch, idlePending_hatch]

/-- What the loss does to a mailbox (R92). -/
theorem linkLost_box (s : State) {n : Nat} (h : n < 8) :
    s.linkLost.box n =
      { s.box n with state := if (s.box n).state = .pending then .idle else (s.box n).state, held := [] } := by
  have queue : (s.idlePending.updHatch fun h => { h with order := [], pcieUp := false }).box n = s.idlePending.box n := rfl
  rw [State.linkLost, discardHeld_box _ h, queue, idlePending_box s h]

/-- Settles O12: the requests of PCI Express are discarded with the held sets, and QSPI has no link to lose. -/
theorem hostLinkLoss : Obligations.HostLinkLoss := by
  intro s
  refine ⟨fun pcie => ⟨s.linkLost, execHostLinkDown_pcie pcie, linkLost_only pcie, ?_, ?_, ?_, fun n => linkLost_box s⟩,
    execHostLinkDown_qspi⟩
  all_goals rw [linkLost_hatch]

end Sys2Proof.Machine
end

section
/-!
PROOFS. A cause in a string that is TRIPPED (R341). The trip comes down to one write of the mask, so every clause is what that write leaves;
STRING_TRIP then ends as every accepted configuration write does, which is said here once for any state a command's effect leads to.
-/

namespace Sys2Proof.Machine

/-! ### What an accepted configuration write leaves and answers (R72, R373) -/

/-- Two changes after each other touch the parts of either. -/
theorem Only.trans {l m : List Part} {s t u : State} (h : Only l s t) (k : Only m t u) : Only (m ++ l) s u := by
  intro p out
  rw [List.mem_append, not_or] at out
  have before := h p out.2
  have after := k p out.1
  cases p <;> exact Eq.trans after before

/-- The end of an accepted write takes the hatch and, with a standby, the twin's transfers and the twin lanes' queue. -/
theorem finishWrite_only (s : State) (mb : Nat) (q : Request) (payload data : Bytes) :
    Only (.hatch :: if s.hasStandby then [.twin, .links] else []) s (s.finishWrite mb q payload data) := by
  unfold State.finishWrite
  split
  · exact only_of (waitFor_keeps (by decide) (forwardRequest_keeps (by decide) (.refl _ s)))
  · exact only_of (replyOk_hatch (by decide) (.refl _ s))

/-- An accepted write whose effect leaves the standby as it was takes, beyond its effect, what its end takes. -/
theorem Only.finishWrite {l : List Part} {s u : State} (effect : Only l s u) (standby : u.hasStandby = s.hasStandby) (mb : Nat)
    (q : Request) (payload data : Bytes) : OnlyWrite l s (u.finishWrite mb q payload data) := by
  have ends := finishWrite_only u mb q payload data
  rw [standby] at ends
  exact effect.trans ends

/-- A forwarded request joins the transfers to be acknowledged. -/
theorem forwardRequest_fwdOut (s : State) (mb : Nat) (q : Request) (data : Bytes) :
    (s.forwardRequest mb q data).twin.fwdOut = s.twin.fwdOut ++ [{ mb, xfer := s.twin.xfer, at_ := s.mono }] := by
  have queued : ∀ l : List Nat, Keeps 65536 s (l.foldl (fun s p => s.twinSend 0x34 p) s) := fun _ =>
    keeps_foldl (.refl _ s) fun _ _ => twinSend_keeps (by decide)
  simp only [State.forwardRequest, updTwin_twin, (queued _).twin (by decide)]

/-- The mailbox of a forwarded request waits for the acknowledgement, and no other changes. -/
theorem forwardRequest_waitFor_forwards (s : State) (mb : Nat) (q : Request) (payload data : Bytes) :
    s.Forwards ((s.forwardRequest mb q data).waitFor mb (.standbyAck stOk payload)) mb payload := by
  have boxes := (forwardRequest_keeps (M := 67584) (a1 := mb) (a2 := q) (a3 := data) (by decide) (.refl _ s)).box (by decide)
  refine ⟨?_, fun n other => ?_, forwardRequest_fwdOut s mb q data⟩
  · simp only [State.waitFor, box_modBox, boxes]
  · rw [State.waitFor, box_modBox_ne _ other, boxes]

/-- The end of an accepted write answers its mailbox OK, or has it wait for the standby, and changes no other. -/
theorem finishWrite_accepts {s : State} {mb : Nat} {q : Request} (taken : (s.box mb).taken = some q) (payload data : Bytes) :
    s.Accepts (s.finishWrite mb q payload data) mb q payload := by
  unfold State.Accepts State.finishWrite
  split
  · exact forwardRequest_waitFor_forwards s mb q payload data
  · exact reply_replies taken stOk payload

/-- An answer after effects that leave the mailboxes, the twin, the elapsed time and the standby alone. -/
theorem State.Accepts.from {s u t : State} {mb : Nat} {q : Request} {payload : Bytes} (h : u.Accepts t mb q payload)
    (boxes : u.hatch.boxes = s.hatch.boxes) (twin : u.twin = s.twin) (mono : u.mono = s.mono)
    (standby : u.hasStandby = s.hasStandby) : s.Accepts t mb q payload := by
  have box : ∀ n, u.box n = s.box n := fun n => by rw [State.box, boxes, State.box]
  unfold State.Accepts at *
  rw [standby] at h
  split at h
  · rename_i paired
    rw [if_pos paired]
    refine ⟨?_, fun n other => ?_, ?_⟩
    · rw [← box]; exact h.box
    · rw [h.others n other, box]
    · rw [h.sent, twin, mono]
  · rename_i single
    rw [if_neg single]
    exact h.from boxes (by rw [twin])

/-! ### The mask of a string's causes -/

/-- A change of a string's protection is a change of the protection alone. -/
theorem modPrt_only (s : State) (str : Nat) (f : ProtStr → ProtStr) : Only [.prot] s (s.modPrt str f) :=
  only_of (modPrt_keeps (by decide) (.refl _ s))

/-- What ends a write leaves every string's protection. -/
@[simp] theorem finishWrite_prt (s : State) (mb : Nat) (q : Request) (payload data : Bytes) (n : Nat) :
    (s.finishWrite mb q payload data).prt n = s.prt n := by
  rw [State.prt, (finishWrite_keeps (M := 67664) (by decide) (.refl _ s)).prot (by decide), State.prt]

/-- A cause raised in a TRIPPED string joins the mask, and that is all (R341). -/
theorem trip_of_tripped {s : State} {str : Nat} (tripped : (s.str str).st = .tripped) (cause lane : Nat) :
    s.trip str cause lane = s.modPrt str fun p => { p with mask := p.mask ||| 2 ^ cause } := by
  rw [State.trip, if_pos tripped, State.tripMask, if_pos tripped]

/-- STRING_TRIP on a string it can name trips it by HOST and answers the instant (R341, R362). -/
theorem execStringTrip_runs {s : State} {mb : Fin 8} {q : Request} (runs : s.Runs mb 0x0C20 q) (writes : s.Writes mb 0x0C)
    (named : ¬15 < uAt q.payload 0 1) : exec (.stringTrip mb) s =
      .next ((s.trip (uAt q.payload 0 1) 12 0xFFFF).finishWrite mb q (leBytes 4 s.shortNow)).settle := by
  have run : exec (.stringTrip mb) s = execStringTrip mb s := rfl
  rw [run, execStringTrip, withWrite_runs runs writes]
  dsimp only
  rw [if_neg named, State.done]

/-- Settles O59: the trip of a TRIPPED string is one write of its mask, by whichever way the cause comes. -/
theorem trippedAgain : Obligations.TrippedAgain := by
  intro s str tripped
  refine ⟨fun cause lane => ?_, fun mb q runs writes names => ?_⟩
  · rw [trip_of_tripped tripped]
    exact ⟨modPrt_only _ _ _, prt_modPrt _ _ _, fun n other => prt_modPrt_ne s other _⟩
  · refine ⟨_, execStringTrip_runs runs writes (by omega), ?_⟩
    rw [names, trip_of_tripped tripped]
    refine ⟨(modPrt_only s str _).finishWrite rfl _ _ _ _, ?_, fun n other => ?_, ?_⟩
    · rw [finishWrite_prt, prt_modPrt]
    · rw [finishWrite_prt, prt_modPrt_ne s other]
    · refine (finishWrite_accepts ?taken _ _).from rfl rfl rfl rfl
      exact runs.taken

end Sys2Proof.Machine
end

section
/-!
PROOFS. A trip on a bridge with an ACTION of SHORT (R490). Of a bridge, the trip reads and sets its short and its trip inputs; the switches,
phases and edges a short works through leave both, so what a short and a latching do to that pair settles every clause.
-/

namespace Sys2Proof.Machine

/-! ### The short and the trip inputs of a bridge -/

/-- What of a bridge a trip is about: whether it is in an active short, and its trip inputs. -/
def Bridge.tripState (x : Bridge) : Bool × Tab AuxTripIn := (x.short, x.trip)

theorem modBr_tripState (s : State) (b : Nat) {f : Bridge → Bridge} (left : ∀ x, (f x).tripState = x.tripState) :
    ((s.modBr b f).br b).tripState = (s.br b).tripState := by
  rw [br_modBr, left]

@[simp] theorem modSw_tripState (s : State) (b k : Nat) (f : AuxSw → AuxSw) : ((s.modSw b k f).br b).tripState = (s.br b).tripState :=
  modBr_tripState s b fun _ => rfl

@[simp] theorem modAph_tripState (s : State) (b p : Nat) (f : AuxPhase → AuxPhase) :
    ((s.modAph b p f).br b).tripState = (s.br b).tripState :=
  modBr_tripState s b fun _ => rfl

@[simp] theorem addEdges_tripState (s : State) (b : Nat) (l : List AuxEdge) : ((s.addEdges b l).br b).tripState = (s.br b).tripState :=
  modBr_tripState s b fun _ => rfl

@[simp] theorem swOff_tripState (s : State) (b k : Nat) : ((s.swOff b k).br b).tripState = (s.br b).tripState := by
  unfold State.swOff
  dsimp only
  split <;> split <;> simp

theorem foldl_tripState {α : Type} (b : Nat) {f : State → α → State} (left : ∀ s x, ((f s x).br b).tripState = (s.br b).tripState)
    (l : List α) (s : State) : ((l.foldl f s).br b).tripState = (s.br b).tripState := by
  induction l generalizing s with
  | nil => rfl
  | cons x l ih => rw [List.foldl_cons, ih, left]

/-- A short started is one its bridge is in, and leaves the trip inputs (R487). -/
theorem shortStart_tripState (s : State) (b : Nat) : ((s.shortStart b).br b).tripState = (true, (s.br b).trip) := by
  unfold State.shortStart
  dsimp only
  rw [addEdges_tripState, foldl_tripState, br_modBr]
  · rfl
  · intro s p
    split <;> simp

/-! ### The trip (R488, R490) -/

/-- The latching alone of a trip input, with the ACTION it has, and its count. -/
def State.latchTrip (s : State) (b i : Nat) : State :=
  (s.modBr b fun x => { x with trip := x.trip.mod {} i fun t =>
    { t with latched := true, short := s.pu 0x1209 b (4 * i + 2) 1 == 1 } }).bump 0x120D b 6

theorem latchTrip_br (s : State) (b i : Nat) : (s.latchTrip b i).br b = { s.br b with trip := (s.br b).trip.mod {} i fun t =>
    { t with latched := true, short := s.pu 0x1209 b (4 * i + 2) 1 == 1 } } :=
  br_modBr s b _

theorem latchTrip_latched (s : State) (b i : Nat) : (((s.latchTrip b i).br b).trip.get {} i).latched = true := by
  rw [latchTrip_br, Tab.get_mod]

/-- A condition entered leaves every bridge. -/
@[simp] theorem condOn_br (s : State) (src inst sub : Nat) (args : Bytes) (b : Nat) : (s.condOn src inst sub args).br b = s.br b := by
  rw [State.br, (condOn_keeps (M := 8440) (by decide) (.refl _ s)).aux (by decide), State.br]

/-- A trip of a bridge in a short latches its input and does no more to the bridge (R490). -/
theorem auxTrip_br_of_short {s : State} {b : Nat} (short : (s.br b).short = true) (i : Nat) :
    (s.auxTrip b i).br b = (s.latchTrip b i).br b := by
  simp only [State.auxTrip, condOn_br, short, Bool.or_true, if_true, State.latchTrip]

/-- A trip with an ACTION of SHORT puts a driven bridge that is in no short into one (R490). -/
theorem auxTrip_br_of_action {s : State} {b i : Nat} (driving : s.aux.driving = true) (open_ : (s.br b).short = false)
    (action : s.pu 0x1209 b (4 * i + 2) 1 = 1) : (s.auxTrip b i).br b = ((s.latchTrip b i).shortStart b).br b := by
  simp [State.auxTrip, State.latchTrip, driving, open_, action]

/-- A trip that latches while the bridge is in a short keeps the short and every switch (R490). -/
theorem auxTrip_keeps_short {s : State} {b : Nat} (short : (s.br b).short = true) (i : Nat) :
    ((s.auxTrip b i).br b).short = true ∧ (((s.auxTrip b i).br b).trip.get {} i).latched = true ∧
      ∀ k, (s.auxTrip b i).sw b k = s.sw b k := by
  have same := auxTrip_br_of_short short i
  refine ⟨?_, ?_, fun k => ?_⟩
  · rw [same, latchTrip_br, short]
  · rw [same, latchTrip_latched]
  · rw [State.sw, same, latchTrip_br, State.sw]

/-- A trip with an ACTION of SHORT leaves its driven bridge in a short, whatever it was in (R490). -/
theorem auxTrip_short {s : State} {b i : Nat} (driving : s.aux.driving = true) (action : s.pu 0x1209 b (4 * i + 2) 1 = 1) :
    ((s.auxTrip b i).br b).short = true ∧ (((s.auxTrip b i).br b).trip.get {} i).latched = true := by
  cases before : (s.br b).short with
  | true =>
    obtain ⟨short, latched, -⟩ := auxTrip_keeps_short before i
    exact ⟨short, latched⟩
  | false =>
    obtain ⟨short, trip⟩ := Prod.mk.inj (shortStart_tripState (s.latchTrip b i) b)
    rw [auxTrip_br_of_action driving before action, short, trip]
    exact ⟨rfl, latchTrip_latched s b i⟩

/-- An input low for FILT steps is active (R488). -/
theorem auxActive_of_low {s : State} {b i t : Nat} (low : ((s.br b).trip.get {} i).lowSince = some t)
    (filtered : t + 20 * s.pu 0x1209 b (4 * i) 2 ≤ s.mono) : s.auxActive b i = true := by
  rw [State.auxActive, low]
  exact decide_eq_true filtered

/-- An enabled input that becomes active trips its bridge, and the step ends there (R488). -/
theorem execAuxTripActive_comes {s : State} {b i : Fin 2} (active : s.auxActive b i = true)
    (enabled : bit (s.pu 0x1209 b (4 * i + 3) 1) 0 = true) (fresh : ((s.br b).trip.get {} i).latched = false) :
    exec (.auxTripActive b i) s = .next (s.auxTrip b i).settle :=
  if_pos ⟨active, enabled, fresh⟩

/-- Settles O60: the trip starts the short its ACTION asks for, or finds the bridge in one and leaves its switches. -/
theorem shortPrevails : Obligations.ShortPrevails := by
  intro s b i t low filtered enabled fresh driving
  have comes := execAuxTripActive_comes (auxActive_of_low low filtered) enabled fresh
  refine ⟨fun action => ⟨_, comes, auxTrip_short driving action⟩, fun short => ⟨_, comes, ?_⟩⟩
  obtain ⟨kept, latched, switches⟩ := auxTrip_keeps_short short i
  exact ⟨kept, latched, fun k _ => switches k⟩

end Sys2Proof.Machine
end

section
/-!
PROOFS. What holds of every row: it has a next state, within the frame of its own lemma, which leaves the queue and the elapsed time alone
and keeps the bounds. A step is a row on the state with the rest of the queue, or one tick.
-/

namespace Sys2Proof.Machine

open Host

/-! ### Every row has a next state -/

theorem goesOn_next (t : State) : goesOn (.next t) := ⟨t, rfl⟩

theorem goesOn_done (s : State) : goesOn s.done := ⟨_, rfl⟩

theorem goesOn_ite {c : Prop} [Decidable c] {a b : Outcome State Fault Refusal} (h : goesOn a) (k : goesOn b) :
    goesOn (if c then a else b) := by
  split <;> assumption

theorem goesOn_onRx (s : State) (lane : Nat) (f : State → State) : goesOn (s.onRx lane f) :=
  goesOn_ite (goesOn_done _) (goesOn_next _)

/-- Every row has a next state: a branch of its meaning is a state or the end of a step. The meanings unfolded by name are those that branch
on an optional value. -/
theorem exec_goesOn (c : Instr) (s : State) : goesOn (exec c s) := by
  cases c
  all_goals dsimp only [exec, execAdcConversionDone, execAuxConfTimeoutExpire, execAuxOffStuckTimeout, execAuxScheduledEdge,
    execAuxTripPinEdge, execBankClearDone,
    execBankIdleTimeout, execBatterySwitchover, execClockRestored, execCompareDeadline, execDbgOpeningExpire, execDewHoldExpire,
    execDownstreamSlot, execEnGraceExpire, execFanPulseTimeout, execFanTachEdge, execFaultChipResetDue, execFaultRecordMirror, execFwConfirm,
    execFwConfirmTimeout, execHatchPing, execHkWakeDone, execIdleGapTimeout, execMvReturnTimeExpire, execNrHoldoffExpire, execParamDiscard,
    execParamGet, execParamInfo, execParamRetryTimeout, execPosCmpPulseEnd, execPosPinEdge, execPpsPulseEnd, execRackPllLockStart,
    execRefereeReplayDone, execResetNRelease, execRollRead, execSafeChainMeasure, execSafeEdmTimeout, execSafeMirrorRx, execSafeResetRelease,
    execSafeSealCheck, execSafeSelftest, execSortRead, execStaLaunchDue, execStageGapExpire, execStringStopOutput, execStrongboxWipeDone,
    execSupplyMonitorRestore, execSwitchHandoverEnd, execTamperCoreEvent, execTimeMasterSetTimeout, execTwFwdTimeout, execTwinLanesDownTimeout,
    execTwinSwitchBoundary, execUnitResetDelay, execWakeMarkerTimeout, execWalkComplete]
  all_goals repeat' first
    | with_reducible exact goesOn_next _
    | with_reducible exact goesOn_done _
    | with_reducible refine goesOn_ite ?_ ?_
    | split
    | refine goesOn_ite ?_ ?_
    | exact goesOn_onRx _ _ _
    | exact goesOn_done _

/-! ### Every row keeps its frame -/

/-- The mask of every part but the queue and the elapsed time. -/
def rowParts : Nat := 268435452

/-- Every row leaves the queue and the elapsed time alone and keeps the bounds: each by the frame of its meaning. -/
theorem exec_keeps (s : State) (c : Instr) : KeepsO rowParts s (exec c s) := by
  cases c
  all_goals dsimp only [exec]
  case hatchDoorbell => exact execHatchDoorbell_keeps (by decide) (.refl _ s)
  case hatchDoneWrite => exact execHatchDoneWrite_keeps (by decide) (.refl _ s)
  case hostErrWrite => exact execHostErrWrite_keeps (by decide) (.refl _ s)
  case gstatRead => exact execGstatRead_keeps (by decide) (.refl _ s)
  case gloadRead => exact execGloadRead_keeps (by decide) (.refl _ s)
  case lowWordRead => exact execLowWordRead_keeps (by decide) (.refl _ s)
  case highWordRead => exact execHighWordRead_keeps (by decide) (.refl _ s)
  case lowWordWrite => exact execLowWordWrite_keeps (by decide) (.refl _ s)
  case highWordWrite => exact execHighWordWrite_keeps (by decide) (.refl _ s)
  case nrCtrlWrite => exact execNrCtrlWrite_keeps (by decide) (.refl _ s)
  case nrTailWrite => exact execNrTailWrite_keeps (by decide) (.refl _ s)
  case nrDroppedRead => exact execNrDroppedRead_keeps (by decide) (.refl _ s)
  case registerWrite => exact execRegisterWrite_keeps (by decide) (.refl _ s)
  case mailboxTake => exact execMailboxTake_keeps (by decide) (.refl _ s)
  case hatchPing => exact execHatchPing_keeps (by decide) (.refl _ s)
  case paramGet => exact execParamGet_keeps (by decide) (.refl _ s)
  case paramSet => exact execParamSet_keeps (by decide) (.refl _ s)
  case paramCommit => exact execParamCommit_keeps (by decide) (.refl _ s)
  case paramDiscard => exact execParamDiscard_keeps (by decide) (.refl _ s)
  case paramInfo => exact execParamInfo_keeps (by decide) (.refl _ s)
  case nrHoldoffExpire => exact execNrHoldoffExpire_keeps (by decide) (.refl _ s)
  case loadWindowEnd => exact execLoadWindowEnd_keeps (by decide) (.refl _ s)
  case hostLinkDown => exact execHostLinkDown_keeps (by decide) (.refl _ s)
  case rollLoad => exact execRollLoad_keeps (by decide) (.refl _ s)
  case rollCommit => exact execRollCommit_keeps (by decide) (.refl _ s)
  case rollRead => exact execRollRead_keeps (by decide) (.refl _ s)
  case rackPllLockStart => exact execRackPllLockStart_keeps (by decide) (.refl _ s)
  case rackPllLocked => exact execRackPllLocked_keeps (by decide) (.refl _ s)
  case laneClockLock => exact execLaneClockLock_keeps (by decide) (.refl _ s)
  case lanePresetTrialEnd => exact execLanePresetTrialEnd_keeps (by decide) (.refl _ s)
  case laneDfeConverged => exact execLaneDfeConverged_keeps (by decide) (.refl _ s)
  case laneCheckWindowEnd => exact execLaneCheckWindowEnd_keeps (by decide) (.refl _ s)
  case laneBlockLock => exact execLaneBlockLock_keeps (by decide) (.refl _ s)
  case laneAttemptTimeout => exact execLaneAttemptTimeout_keeps (by decide) (.refl _ s)
  case laneRetryEnd => exact execLaneRetryEnd_keeps (by decide) (.refl _ s)
  case laneSignalDetectChange => exact execLaneSignalDetectChange_keeps (by decide) (.refl _ s)
  case laneAutoRetrain => exact execLaneAutoRetrain_keeps (by decide) (.refl _ s)
  case laneHuntTimeout => exact execLaneHuntTimeout_keeps (by decide) (.refl _ s)
  case rackPllUnlock => exact execRackPllUnlock_keeps (by decide) (.refl _ s)
  case crcWindowEnd => exact execCrcWindowEnd_keeps (by decide) (.refl _ s)
  case dfeAdaptInterval => exact execDfeAdaptInterval_keeps (by decide) (.refl _ s)
  case eyeWindowEnd => exact execEyeWindowEnd_keeps (by decide) (.refl _ s)
  case laneIdleEnter => exact execLaneIdleEnter_keeps (by decide) (.refl _ s)
  case idleMaxGapWake => exact execIdleMaxGapWake_keeps (by decide) (.refl _ s)
  case wakeBurstRx => exact execWakeBurstRx_keeps (by decide) (.refl _ s)
  case wakeMarkerTimeout => exact execWakeMarkerTimeout_keeps (by decide) (.refl _ s)
  case idleGapTimeout => exact execIdleGapTimeout_keeps (by decide) (.refl _ s)
  case testCheckerLock => exact execTestCheckerLock_keeps (by decide) (.refl _ s)
  case laneRetrain => exact execLaneRetrain_keeps (by decide) (.refl _ s)
  case laneHalt => exact execLaneHalt_keeps (by decide) (.refl _ s)
  case laneTestStart => exact execLaneTestStart_keeps (by decide) (.refl _ s)
  case laneTestStop => exact execLaneTestStop_keeps (by decide) (.refl _ s)
  case laneTestRead => exact execLaneTestRead_keeps (by decide) (.refl _ s)
  case downstreamSlot => exact execDownstreamSlot_keeps (by decide) (.refl _ s)
  case blockCrcFail => exact execBlockCrcFail_keeps (by decide) (.refl _ s)
  case misdirectedRx => exact execMisdirectedRx_keeps (by decide) (.refl _ s)
  case sampleRx => exact execSampleRx_keeps (by decide) (.refl _ s)
  case nodeEdgeRx => exact execNodeEdgeRx_keeps (by decide) (.refl _ s)
  case healthRx => exact execHealthRx_keeps (by decide) (.refl _ s)
  case paramAckRx => exact execParamAckRx_keeps (by decide) (.refl _ s)
  case faultRx => exact execFaultRx_keeps (by decide) (.refl _ s)
  case streamRx => exact execStreamRx_keeps (by decide) (.refl _ s)
  case timeSyncReplyRx => exact execTimeSyncReplyRx_keeps (by decide) (.refl _ s)
  case authIdentRx => exact execAuthIdentRx_keeps (by decide) (.refl _ s)
  case authChallengeRx => exact execAuthChallengeRx_keeps (by decide) (.refl _ s)
  case authResponseRx => exact execAuthResponseRx_keeps (by decide) (.refl _ s)
  case authResultRx => exact execAuthResultRx_keeps (by decide) (.refl _ s)
  case roleRepeatDue => exact execRoleRepeatDue_keeps (by decide) (.refl _ s)
  case paramRetryTimeout => exact execParamRetryTimeout_keeps (by decide) (.refl _ s)
  case authTimeout => exact execAuthTimeout_keeps (by decide) (.refl _ s)
  case authRetryExpire => exact execAuthRetryExpire_keeps (by decide) (.refl _ s)
  case upLossTimeout => exact execUpLossTimeout_keeps (by decide) (.refl _ s)
  case epParam => exact execEpParam_keeps (by decide) (.refl _ s)
  case epReauth => exact execEpReauth_keeps (by decide) (.refl _ s)
  case tsIntervalExpire => exact execTsIntervalExpire_keeps (by decide) (.refl _ s)
  case syncRx => exact execSyncRx_keeps (by decide) (.refl _ s)
  case delayRespRx => exact execDelayRespRx_keeps (by decide) (.refl _ s)
  case ringTimeSend => exact execRingTimeSend_keeps (by decide) (.refl _ s)
  case ringTimeRx => exact execRingTimeRx_keeps (by decide) (.refl _ s)
  case timeNeighbourTimeout => exact execTimeNeighbourTimeout_keeps (by decide) (.refl _ s)
  case masterLossExpire => exact execMasterLossExpire_keeps (by decide) (.refl _ s)
  case staFrameRx => exact execStaFrameRx_keeps (by decide) (.refl _ s)
  case staLinkUp => exact execStaLinkUp_keeps (by decide) (.refl _ s)
  case ptpMessageTimer => exact execPtpMessageTimer_keeps (by decide) (.refl _ s)
  case staLaunchDue => exact execStaLaunchDue_keeps (by decide) (.refl _ s)
  case tcapCapture => exact execTcapCapture_keeps (by decide) (.refl _ s)
  case timeCapInEdge => exact execTimeCapInEdge_keeps (by decide) (.refl _ s)
  case tcapStatusWrite => exact execTcapStatusWrite_keeps (by decide) (.refl _ s)
  case ppsSecond => exact execPpsSecond_keeps (by decide) (.refl _ s)
  case ppsPulseEnd => exact execPpsPulseEnd_keeps (by decide) (.refl _ s)
  case timeSet => exact execTimeSet_keeps (by decide) (.refl _ s)
  case timeMasterSet => exact execTimeMasterSet_keeps (by decide) (.refl _ s)
  case ringMasterRx => exact execRingMasterRx_keeps (by decide) (.refl _ s)
  case timeMasterSetTimeout => exact execTimeMasterSetTimeout_keeps (by decide) (.refl _ s)
  case staLaunch => exact execStaLaunch_keeps (by decide) (.refl _ s)
  case staStampRead => exact execStaStampRead_keeps (by decide) (.refl _ s)
  case stringBoundary => exact execStringBoundary_keeps (by decide) (.refl _ s)
  case planComplete => exact execPlanComplete_keeps (by decide) (.refl _ s)
  case shelfEntryExpire => exact execShelfEntryExpire_keeps (by decide) (.refl _ s)
  case stringStart => exact execStringStart_keeps (by decide) (.refl _ s)
  case stringStop => exact execStringStop_keeps (by decide) (.refl _ s)
  case rawEdgeLoad => exact execRawEdgeLoad_keeps (by decide) (.refl _ s)
  case stringFirstOutput => exact execStringFirstOutput_keeps (by decide) (.refl _ s)
  case stringStopOutput => exact execStringStopOutput_keeps (by decide) (.refl _ s)
  case dtJudgeTimeout => exact execDtJudgeTimeout_keeps (by decide) (.refl _ s)
  case sortStatsFormed => exact execSortStatsFormed_keeps (by decide) (.refl _ s)
  case twinOrderTimeout => exact execTwinOrderTimeout_keeps (by decide) (.refl _ s)
  case dtReset => exact execDtReset_keeps (by decide) (.refl _ s)
  case sortRead => exact execSortRead_keeps (by decide) (.refl _ s)
  case controlBoundary => exact execControlBoundary_keeps (by decide) (.refl _ s)
  case walkComplete => exact execWalkComplete_keeps (by decide) (.refl _ s)
  case loopLoad => exact execLoopLoad_keeps (by decide) (.refl _ s)
  case loopCommit => exact execLoopCommit_keeps (by decide) (.refl _ s)
  case larderWrite => exact execLarderWrite_keeps (by decide) (.refl _ s)
  case larderRead => exact execLarderRead_keeps (by decide) (.refl _ s)
  case leStart => exact execLeStart_keeps (by decide) (.refl _ s)
  case leStop => exact execLeStop_keeps (by decide) (.refl _ s)
  case loopPreset => exact execLoopPreset_keeps (by decide) (.refl _ s)
  case protSourceStale => exact execProtSourceStale_keeps (by decide) (.refl _ s)
  case uvArmExpire => exact execUvArmExpire_keeps (by decide) (.refl _ s)
  case stringTrip => exact execStringTrip_keeps (by decide) (.refl _ s)
  case tripClear => exact execTripClear_keeps (by decide) (.refl _ s)
  case cellBypass => exact execCellBypass_keeps (by decide) (.refl _ s)
  case cellRelease => exact execCellRelease_keeps (by decide) (.refl _ s)
  case rideCmd => exact execRideCmd_keeps (by decide) (.refl _ s)
  case mvReturnTimeExpire => exact execMvReturnTimeExpire_keeps (by decide) (.refl _ s)
  case dewHoldExpire => exact execDewHoldExpire_keeps (by decide) (.refl _ s)
  case dewTimeoutExpire => exact execDewTimeoutExpire_keeps (by decide) (.refl _ s)
  case pcTimeoutExpire => exact execPcTimeoutExpire_keeps (by decide) (.refl _ s)
  case syncTimeoutExpire => exact execSyncTimeoutExpire_keeps (by decide) (.refl _ s)
  case stageGapExpire => exact execStageGapExpire_keeps (by decide) (.refl _ s)
  case peerAliveTimeout => exact execPeerAliveTimeout_keeps (by decide) (.refl _ s)
  case serviceSlot => exact execServiceSlot_keeps (by decide) (.refl _ s)
  case twRoleRx => exact execTwRoleRx_keeps (by decide) (.refl _ s)
  case twCompareRx => exact execTwCompareRx_keeps (by decide) (.refl _ s)
  case compareDeadline => exact execCompareDeadline_keeps (by decide) (.refl _ s)
  case twTripRx => exact execTwTripRx_keeps (by decide) (.refl _ s)
  case twFwdRx => exact execTwFwdRx_keeps (by decide) (.refl _ s)
  case twAckRx => exact execTwAckRx_keeps (by decide) (.refl _ s)
  case twFwdTimeout => exact execTwFwdTimeout_keeps (by decide) (.refl _ s)
  case twStateRx => exact execTwStateRx_keeps (by decide) (.refl _ s)
  case twHealthRx => exact execTwHealthRx_keeps (by decide) (.refl _ s)
  case twCaseRx => exact execTwCaseRx_keeps (by decide) (.refl _ s)
  case twSurrenderRx => exact execTwSurrenderRx_keeps (by decide) (.refl _ s)
  case twResetRx => exact execTwResetRx_keeps (by decide) (.refl _ s)
  case twinStreamLost => exact execTwinStreamLost_keeps (by decide) (.refl _ s)
  case selftestPeriod => exact execSelftestPeriod_keeps (by decide) (.refl _ s)
  case twHealthPeriod => exact execTwHealthPeriod_keeps (by decide) (.refl _ s)
  case qualifyComplete => exact execQualifyComplete_keeps (by decide) (.refl _ s)
  case twinLanesDownTimeout => exact execTwinLanesDownTimeout_keeps (by decide) (.refl _ s)
  case twinStandbyTimeout => exact execTwinStandbyTimeout_keeps (by decide) (.refl _ s)
  case twinSwitchBoundary => exact execTwinSwitchBoundary_keeps (by decide) (.refl _ s)
  case switchHandoverEnd => exact execSwitchHandoverEnd_keeps (by decide) (.refl _ s)
  case caseReplayDone => exact execCaseReplayDone_keeps (by decide) (.refl _ s)
  case refereeReplayDone => exact execRefereeReplayDone_keeps (by decide) (.refl _ s)
  case arbVdStable => exact execArbVdStable_keeps (by decide) (.refl _ s)
  case refTimeoutExpire => exact execRefTimeoutExpire_keeps (by decide) (.refl _ s)
  case roleSet => exact execRoleSet_keeps (by decide) (.refl _ s)
  case twinSwitch => exact execTwinSwitch_keeps (by decide) (.refl _ s)
  case unitReset => exact execUnitReset_keeps (by decide) (.refl _ s)
  case unitResetDelay => exact execUnitResetDelay_keeps (by decide) (.refl _ s)
  case twinResync => exact execTwinResync_keeps (by decide) (.refl _ s)
  case ringCensusRx => exact execRingCensusRx_keeps (by decide) (.refl _ s)
  case ringSummaryRx => exact execRingSummaryRx_keeps (by decide) (.refl _ s)
  case ringWriteRx => exact execRingWriteRx_keeps (by decide) (.refl _ s)
  case ringHealthRx => exact execRingHealthRx_keeps (by decide) (.refl _ s)
  case ringRefRx => exact execRingRefRx_keeps (by decide) (.refl _ s)
  case censusPeriod => exact execCensusPeriod_keeps (by decide) (.refl _ s)
  case censusNodeTimeout => exact execCensusNodeTimeout_keeps (by decide) (.refl _ s)
  case pantryHostRead => exact execPantryHostRead_keeps (by decide) (.refl _ s)
  case pantryHostWrite => exact execPantryHostWrite_keeps (by decide) (.refl _ s)
  case bankIdleTimeout => exact execBankIdleTimeout_keeps (by decide) (.refl _ s)
  case bankClearDone => exact execBankClearDone_keeps (by decide) (.refl _ s)
  case tamperCoreEvent => exact execTamperCoreEvent_keeps (by decide) (.refl _ s)
  case strongboxWipeDone => exact execStrongboxWipeDone_keeps (by decide) (.refl _ s)
  case hkRound => exact execHkRound_keeps (by decide) (.refl _ s)
  case adcConversionDone => exact execAdcConversionDone_keeps (by decide) (.refl _ s)
  case hkPairSleep => exact execHkPairSleep_keeps (by decide) (.refl _ s)
  case hkWakeDone => exact execHkWakeDone_keeps (by decide) (.refl _ s)
  case fanTachEdge => exact execFanTachEdge_keeps (by decide) (.refl _ s)
  case fanPulseTimeout => exact execFanPulseTimeout_keeps (by decide) (.refl _ s)
  case hkConvert => exact execHkConvert_keeps (by decide) (.refl _ s)
  case thermRead => exact execThermRead_keeps (by decide) (.refl _ s)
  case thermClear => exact execThermClear_keeps (by decide) (.refl _ s)
  case auxPeriodBoundary => exact execAuxPeriodBoundary_keeps (by decide) (.refl _ s)
  case auxScheduledEdge => exact execAuxScheduledEdge_keeps (by decide) (.refl _ s)
  case auxOffRise => exact execAuxOffRise_keeps (by decide) (.refl _ s)
  case auxConfTimeoutExpire => exact execAuxConfTimeoutExpire_keeps (by decide) (.refl _ s)
  case auxOffStuckTimeout => exact execAuxOffStuckTimeout_keeps (by decide) (.refl _ s)
  case auxSgFilterExpire => exact execAuxSgFilterExpire_keeps (by decide) (.refl _ s)
  case auxNodeChange => exact execAuxNodeChange_keeps (by decide) (.refl _ s)
  case auxNodeWindowEnd => exact execAuxNodeWindowEnd_keeps (by decide) (.refl _ s)
  case auxTripPinEdge => exact execAuxTripPinEdge_keeps (by decide) (.refl _ s)
  case auxTripActive => exact execAuxTripActive_keeps (by decide) (.refl _ s)
  case auxDriveStart => exact execAuxDriveStart_keeps (by decide) (.refl _ s)
  case auxTripClear => exact execAuxTripClear_keeps (by decide) (.refl _ s)
  case auxSafe => exact execAuxSafe_keeps (by decide) (.refl _ s)
  case posEdge => exact execPosEdge_keeps (by decide) (.refl _ s)
  case posIndex => exact execPosIndex_keeps (by decide) (.refl _ s)
  case posWireFilterExpire => exact execPosWireFilterExpire_keeps (by decide) (.refl _ s)
  case posSpeedWindow => exact execPosSpeedWindow_keeps (by decide) (.refl _ s)
  case posZeroTimeout => exact execPosZeroTimeout_keeps (by decide) (.refl _ s)
  case posCmpPulseEnd => exact execPosCmpPulseEnd_keeps (by decide) (.refl _ s)
  case posSet => exact execPosSet_keeps (by decide) (.refl _ s)
  case safeInputEdge => exact execSafeInputEdge_keeps (by decide) (.refl _ s)
  case safeDemandFilter => exact execSafeDemandFilter_keeps (by decide) (.refl _ s)
  case safeDiscrepancyTimeout => exact execSafeDiscrepancyTimeout_keeps (by decide) (.refl _ s)
  case safeTestPulse => exact execSafeTestPulse_keeps (by decide) (.refl _ s)
  case safeSealCheck => exact execSafeSealCheck_keeps (by decide) (.refl _ s)
  case safeClockCheck => exact execSafeClockCheck_keeps (by decide) (.refl _ s)
  case safeChannelExchange => exact execSafeChannelExchange_keeps (by decide) (.refl _ s)
  case safeSelftest => exact execSafeSelftest_keeps (by decide) (.refl _ s)
  case safeSupplyOut => exact execSafeSupplyOut_keeps (by decide) (.refl _ s)
  case safeSupplyReturn => exact execSafeSupplyReturn_keeps (by decide) (.refl _ s)
  case safeStartDone => exact execSafeStartDone_keeps (by decide) (.refl _ s)
  case safeResetRelease => exact execSafeResetRelease_keeps (by decide) (.refl _ s)
  case safeLcClearExpire => exact execSafeLcClearExpire_keeps (by decide) (.refl _ s)
  case safeEdmTimeout => exact execSafeEdmTimeout_keeps (by decide) (.refl _ s)
  case safeReadbackTimeout => exact execSafeReadbackTimeout_keeps (by decide) (.refl _ s)
  case safeChainMeasure => exact execSafeChainMeasure_keeps (by decide) (.refl _ s)
  case safeLoopBrokenTimeout => exact execSafeLoopBrokenTimeout_keeps (by decide) (.refl _ s)
  case safeDemandDue => exact execSafeDemandDue_keeps (by decide) (.refl _ s)
  case safeMirrorSend => exact execSafeMirrorSend_keeps (by decide) (.refl _ s)
  case safeMirrorRx => exact execSafeMirrorRx_keeps (by decide) (.refl _ s)
  case safeMirrorTimeout => exact execSafeMirrorTimeout_keeps (by decide) (.refl _ s)
  case safePermitLineChange => exact execSafePermitLineChange_keeps (by decide) (.refl _ s)
  case energyCopyPeriod => exact execEnergyCopyPeriod_keeps (by decide) (.refl _ s)
  case demandIntervalEnd => exact execDemandIntervalEnd_keeps (by decide) (.refl _ s)
  case rtcSecond => exact execRtcSecond_keeps (by decide) (.refl _ s)
  case enGraceExpire => exact execEnGraceExpire_keeps (by decide) (.refl _ s)
  case energyRead => exact execEnergyRead_keeps (by decide) (.refl _ s)
  case demandReset => exact execDemandReset_keeps (by decide) (.refl _ s)
  case rtcSet => exact execRtcSet_keeps (by decide) (.refl _ s)
  case tampZeroise => exact execTampZeroise_keeps (by decide) (.refl _ s)
  case tamperSample => exact execTamperSample_keeps (by decide) (.refl _ s)
  case oscStopDetect => exact execOscStopDetect_keeps (by decide) (.refl _ s)
  case vbatLowDetect => exact execVbatLowDetect_keeps (by decide) (.refl _ s)
  case tamperLogCopy => exact execTamperLogCopy_keeps (by decide) (.refl _ s)
  case batterySwitchover => exact execBatterySwitchover_keeps (by decide) (.refl _ s)
  case faultRecordMirror => exact execFaultRecordMirror_keeps (by decide) (.refl _ s)
  case faultChipResetDue => exact execFaultChipResetDue_keeps (by decide) (.refl _ s)
  case faultRead => exact execFaultRead_keeps (by decide) (.refl _ s)
  case faultClear => exact execFaultClear_keeps (by decide) (.refl _ s)
  case faultInject => exact execFaultInject_keeps (by decide) (.refl _ s)
  case loftWrite => exact execLoftWrite_keeps (by decide) (.refl _ s)
  case loftVerify => exact execLoftVerify_keeps (by decide) (.refl _ s)
  case loftSchedule => exact execLoftSchedule_keeps (by decide) (.refl _ s)
  case loftActivateAt => exact execLoftActivateAt_keeps (by decide) (.refl _ s)
  case fwConfirm => exact execFwConfirm_keeps (by decide) (.refl _ s)
  case fwConfirmTimeout => exact execFwConfirmTimeout_keeps (by decide) (.refl _ s)
  case epImageStore => exact execEpImageStore_keeps (by decide) (.refl _ s)
  case epImageSend => exact execEpImageSend_keeps (by decide) (.refl _ s)
  case pkgApply => exact execPkgApply_keeps (by decide) (.refl _ s)
  case ownerLock => exact execOwnerLock_keeps (by decide) (.refl _ s)
  case lcSet => exact execLcSet_keeps (by decide) (.refl _ s)
  case atticRead => exact execAtticRead_keeps (by decide) (.refl _ s)
  case supplyMonitorLow => exact execSupplyMonitorLow_keeps (by decide) (.refl _ s)
  case supplyMonitorRestore => exact execSupplyMonitorRestore_keeps (by decide) (.refl _ s)
  case resetNAssert => exact execResetNAssert_keeps (by decide) (.refl _ s)
  case resetNRelease => exact execResetNRelease_keeps (by decide) (.refl _ s)
  case clockLoss => exact execClockLoss_keeps (by decide) (.refl _ s)
  case clockRestored => exact execClockRestored_keeps (by decide) (.refl _ s)
  case mainPllLock => exact execMainPllLock_keeps (by decide) (.refl _ s)
  case syncInEdge => exact execSyncInEdge_keeps (by decide) (.refl _ s)
  case clockDivBoundary => exact execClockDivBoundary_keeps (by decide) (.refl _ s)
  case watchdogExpire => exact execWatchdogExpire_keeps (by decide) (.refl _ s)
  case bootRomCheckDone => exact execBootRomCheckDone_keeps (by decide) (.refl _ s)
  case ubferReady => exact execUbferReady_keeps (by decide) (.refl _ s)
  case dbgUnlock => exact execDbgUnlock_keeps (by decide) (.refl _ s)
  case dbgLock => exact execDbgLock_keeps (by decide) (.refl _ s)
  case dbgOpeningExpire => exact execDbgOpeningExpire_keeps (by decide) (.refl _ s)
  case jtagInstructionLoad => exact execJtagInstructionLoad_keeps (by decide) (.refl _ s)
  case extestExit => exact execExtestExit_keeps (by decide) (.refl _ s)
  case debugHalt => exact execDebugHalt_keeps (by decide) (.refl _ s)
  case debugResume => exact execDebugResume_keeps (by decide) (.refl _ s)
  case debugStep => exact execDebugStep_keeps (by decide) (.refl _ s)
  case debugBreakpointHit => exact execDebugBreakpointHit_keeps (by decide) (.refl _ s)
  case debugMemAccess => exact execDebugMemAccess_keeps (by decide) (.refl _ s)
  case idleBlockRx => exact execIdleBlockRx_keeps (by decide) (.refl _ s)
  case twinAliveInEdge => exact execTwinAliveInEdge_keeps (by decide) (.refl _ s)
  case auxSgEdge => exact execAuxSgEdge_keeps (by decide) (.refl _ s)
  case posPinEdge => exact execPosPinEdge_keeps (by decide) (.refl _ s)
  case vddFieldLoss => exact execVddFieldLoss_keeps (by decide) (.refl _ s)
  case vddFieldReturn => exact execVddFieldReturn_keeps (by decide) (.refl _ s)
  case batteryDomainPowerLoss => exact execBatteryDomainPowerLoss_keeps (by decide) (.refl _ s)
  case batteryDomainPowerReturn => exact execBatteryDomainPowerReturn_keeps (by decide) (.refl _ s)
  case pcieLinkTrained => exact execPcieLinkTrained_keeps (by decide) (.refl _ s)
  case safeFunctionPermitFilter => exact execSafeFunctionPermitFilter_keeps (by decide) (.refl _ s)
  case safeThcPairTimeout => exact execSafeThcPairTimeout_keeps (by decide) (.refl _ s)

/-- Settles O5: each row goes on, and its frame holds neither the queue nor the elapsed time. -/
theorem everyCommandCompletes : Obligations.EveryCommandCompletes := by
  intro c s
  obtain ⟨t, next⟩ := exec_goesOn c s
  have kept := exec_keeps s c t next
  exact ⟨t, next, kept.pending rfl, kept.mono rfl⟩

/-! ### A step keeps the bounds -/

theorem inv_of_queue {s : State} (inv : s.Inv) (rest : List Instr) : State.Inv { s with pending := rest } :=
  ⟨inv.mem, inv.faults, inv.notif⟩

theorem inv_idle {s : State} (inv : s.Inv) : s.idle.Inv :=
  ⟨inv.mem, inv.faults, inv.notif⟩

/-- Settles O4: a tick touches no bounded part, and a row keeps the bounds by its frame. -/
theorem invKept : Obligations.InvKept := by
  intro s t inv steps
  unfold step at steps
  split at steps
  · cases steps
    exact inv_idle inv
  · rename_i c rest _
    exact (exec_keeps _ c t steps).inv (inv_of_queue inv rest)

end Sys2Proof.Machine
end

section
/-!
PROOFS. How the block steps, and the bounds of the state after reset. A step is read off the queue; settle has nothing to do where no act
waits and the restart sequence waits for no string.
-/

namespace Sys2Proof.Machine

open Host

/-! ### Nothing left to settle -/

theorem settleN_of_none {s : State} (none_ : s.todo = []) (n : Nat) : s.settleN n = s := by
  cases n with
  | zero => rfl
  | succ n => rw [State.settleN, none_]

theorem rideWatch_of_ne_enable {s : State} (away : s.prot.ride.st ≠ .enable) : s.rideWatch = s := by
  rw [State.rideWatch]
  exact if_neg fun h => away h.1

/-- Where nothing waits, settling leaves the state (log 5). -/
theorem settle_of_atRest {s : State} (rest : s.atRest) : s.settle = s := by
  obtain ⟨none_, away⟩ := rest
  rw [State.settle, settleN_of_none none_, rideWatch_of_ne_enable away, settleN_of_none none_]

/-! ### A tick -/

/-- A tick at the nominal rate moves tick time by one and leaves the fraction (R187, R190). -/
theorem advance_nominal {t : TimeUnit} (running : t.running = true) (rate : t.rate = 0) (frac : t.frac < 1000000000) :
    t.advance = { t with tick := (t.tick + 1) % 2 ^ 64, frac := t.frac } := by
  have whole : ((t.frac : Int) + 1000000000 + 0).toNat = t.frac + 1000000000 := by omega
  have quot : (t.frac + 1000000000) / 1000000000 = 1 := by omega
  have rem : (t.frac + 1000000000) % 1000000000 = t.frac := by omega
  rw [TimeUnit.advance, if_pos running, rate]
  dsimp only
  rw [whole, quot, rem]

theorem advance_stopped {t : TimeUnit} (stopped : t.running = false) : t.advance = t := by
  rw [TimeUnit.advance, stopped]
  exact if_neg Bool.false_ne_true

theorem advance_eq (t : TimeUnit) : t.advance = { t with tick := t.advance.tick, frac := t.advance.frac } := by
  unfold TimeUnit.advance
  split <;> rfl

theorem idle_only (s : State) : Only [.mono, .time] s s.idle :=
  (updTime_keeps (M := maskOf [.mono, .time]) (by decide) (updMono_keeps (by decide) (.refl _ s))).only (by decide)

/-- Settles O1: a step is the command at the front, or one tick. -/
theorem stepRunsFront : Obligations.StepRunsFront := by
  refine ⟨fun c rest s queue => ?_, fun s empty => ⟨s.idle, ?_, idle_only s, rfl, advance_eq s.time, advance_stopped, ?_⟩,
    fun s rest => settle_of_atRest rest⟩
  · rw [step, queue]
  · rw [step, empty]
  · intro running rate frac
    have next : s.idle.time = _ := advance_nominal running rate frac
    rw [next]
    exact ⟨rfl, rfl⟩

/-- Settles O3: after reset the memory lists no byte, and the fault collector and the notification unit are empty. -/
theorem resetInv : Obligations.ResetInv :=
  ⟨rfl, ⟨by decide, by decide⟩, ⟨by decide, by decide, by decide, by decide, by decide, by decide, by decide⟩⟩

end Sys2Proof.Machine
end

section
/-!
PROOFS. Doorbells, DONE clears and HOST_ERR (R59, R60). A doorbell is one ring after another of different mailboxes, and a ring reads and
changes its own mailbox, so each clause is an induction over the mailboxes rung.
-/

namespace Sys2Proof.Machine

open Host

/-! ### Bits of a written word, and the windows -/

theorem bit_eq_testBit (v n : Nat) : bit v n = v.testBit n := by
  rw [bit, Nat.testBit_eq_decide_div_mod_eq]
  rfl

@[simp] theorem bit_toNat {k : Nat} (w : BitVec k) (n : Nat) : bit w.toNat n = w.getLsbD n := by
  rw [bit_eq_testBit, BitVec.testBit_toNat]

theorem windowsUp_of_ne {s : State} (up : s.sys.stage ≠ .inReset) : s.windowsUp = true :=
  decide_eq_true up

/-- The mailboxes a word names, each once. -/
def namedBoxes (v : Nat) : List Nat := (List.range 8).filter fun n => bit v n

theorem mem_namedBoxes (w : Word) (n : Nat) : n ∈ namedBoxes w.toNat ↔ n < 8 ∧ w.getLsbD n = true := by
  simp [namedBoxes]

theorem nodup_namedBoxes (v : Nat) : (namedBoxes v).Nodup :=
  List.nodup_range.filter _

/-! ### One ring (R60) -/

/-- Whether a doorbell can ring a mailbox: it is IDLE or DONE (R60). -/
def Mailbox.ringable (b : Mailbox) : Bool := decide (b.state = .idle) || decide (b.state = .done)

theorem ringable_iff (b : Mailbox) : b.ringable = true ↔ b.state = .idle ∨ b.state = .done := by
  simp [Mailbox.ringable]

theorem not_ringable_iff (b : Mailbox) : b.ringable = false ↔ b.state = .pending ∨ b.state = .active := by
  cases h : b.state <;> simp [Mailbox.ringable, h]

theorem hostErrSet_hatch (s : State) (mask : Nat) : ∃ m k, (s.hostErrSet mask).hatch =
    { s.hatch with hostErr := s.hatch.hostErr ||| mask, msix := m, msixHeld := k } := by
  obtain ⟨m, k, e⟩ := irqSince_eq s (s.updHatch fun h => { h with hostErr := h.hostErr ||| mask })
  exact ⟨m, k, by rw [State.hostErrSet, e]; rfl⟩

/-- A mailbox that can be rung becomes PENDING and is last in the order (R60). -/
theorem ringBox_of_ringable {s : State} {n : Nat} (free : (s.box n).ringable = true) :
    s.ringBox n = (s.modBox n fun b => { b with state := .pending }).updHatch fun h => { h with order := h.order ++ [n] } := by
  rw [State.ringBox]
  obtain idle | done := (ringable_iff _).1 free
  · rw [idle]
  · rw [done]

/-- Another is reported in HOST_ERR (R60). -/
theorem ringBox_of_busy {s : State} {n : Nat} (busy : (s.box n).ringable = false) : s.ringBox n = s.hostErrSet (0x8 + 2 ^ (8 + n)) := by
  rw [State.ringBox]
  obtain pending | active := (not_ringable_iff _).1 busy
  · rw [pending]
  · rw [active]

/-- What a ring does to the mailboxes, the order and HOST_ERR (R60). -/
theorem ringBox_hatch (s : State) (n : Nat) :
    (∀ m, (s.ringBox n).box m = if m = n ∧ (s.box n).ringable = true then { s.box n with state := .pending } else s.box m) ∧
    (s.ringBox n).hatch.order = s.hatch.order ++ (if (s.box n).ringable = true then [n] else []) ∧
    (s.ringBox n).hatch.hostErr = s.hatch.hostErr ||| (if (s.box n).ringable = true then 0 else 0x8 + 2 ^ (8 + n)) := by
  cases free : (s.box n).ringable with
  | true =>
    rw [ringBox_of_ringable free]
    refine ⟨fun m => ?_, rfl, (Nat.or_zero _).symm⟩
    have boxes : ((s.modBox n fun b => { b with state := .pending }).updHatch fun h => { h with order := h.order ++ [n] }).box m =
        (s.modBox n fun b => { b with state := .pending }).box m := rfl
    rw [boxes]
    split
    next same => rw [same.1, box_modBox]
    next other => exact box_modBox_ne s (fun e => other ⟨e, rfl⟩) _
  | false =>
    rw [ringBox_of_busy free]
    obtain ⟨m, k, hatch⟩ := hostErrSet_hatch s (0x8 + 2 ^ (8 + n))
    refine ⟨fun j => ?_, ?_, ?_⟩
    · simp [State.box, hatch]
    · simp [hatch]
    · simp [hatch]

/-- The bits a mailbox that is not rung sets in HOST_ERR. -/
theorem testBit_busyMask (n i : Nat) (h : n < 8) : (0x8 + 2 ^ (8 + n)).testBit i = true ↔ i = 3 ∨ i = 8 + n := by
  have small : 8 < 2 ^ (8 + n) := by
    calc 8 < 2 ^ 8 := by decide
      _ ≤ 2 ^ (8 + n) := Nat.pow_le_pow_right (by decide) (by omega)
  have three : (8 : Nat).testBit i = decide (3 = i) := Nat.testBit_two_pow (n := 3)
  rw [← Nat.or_two_pow_eq_add_of_lt small, Nat.testBit_or, Nat.testBit_two_pow, three]
  simp only [Bool.or_eq_true, decide_eq_true_eq]
  omega

/-! ### A doorbell (R59, R60) -/

theorem foldl_ringBox_box {l : List Nat} (once : l.Nodup) (s : State) (m : Nat) : (l.foldl State.ringBox s).box m =
    if m ∈ l ∧ (s.box m).ringable = true then { s.box m with state := .pending } else s.box m := by
  induction l generalizing s with
  | nil => simp
  | cons n l ih =>
    obtain ⟨fresh, once⟩ := List.nodup_cons.1 once
    obtain ⟨boxes, -, -⟩ := ringBox_hatch s n
    rw [List.foldl_cons, ih once, boxes]
    by_cases same : m = n
    · subst same
      simp [fresh]
    · simp [same]

theorem foldl_ringBox_order {l : List Nat} (once : l.Nodup) (s : State) :
    (l.foldl State.ringBox s).hatch.order = s.hatch.order ++ l.filter fun n => (s.box n).ringable := by
  induction l generalizing s with
  | nil => simp
  | cons n l ih =>
    obtain ⟨fresh, once⟩ := List.nodup_cons.1 once
    obtain ⟨boxes, order, -⟩ := ringBox_hatch s n
    have left : l.filter (fun m => ((s.ringBox n).box m).ringable) = l.filter fun m => (s.box m).ringable := by
      refine List.filter_congr fun m mem => ?_
      have other : m ≠ n := fun e => fresh (e ▸ mem)
      rw [boxes, if_neg fun h => other h.1]
    rw [List.foldl_cons, ih once, order, left, List.filter_cons]
    cases (s.box n).ringable <;> simp

theorem foldl_ringBox_hostErr {l : List Nat} (once : l.Nodup) (small : ∀ n ∈ l, n < 8) (s : State) (i : Nat) :
    (l.foldl State.ringBox s).hatch.hostErr.testBit i = true ↔
      s.hatch.hostErr.testBit i = true ∨ ∃ n ∈ l, (s.box n).ringable = false ∧ (i = 3 ∨ i = 8 + n) := by
  induction l generalizing s with
  | nil => simp
  | cons n l ih =>
    obtain ⟨fresh, once⟩ := List.nodup_cons.1 once
    obtain ⟨boxes, -, err⟩ := ringBox_hatch s n
    have left : ∀ m ∈ l, (s.ringBox n).box m = s.box m := fun m mem => by
      have other : m ≠ n := fun e => fresh (e ▸ mem)
      rw [boxes, if_neg fun h => other h.1]
    have rest : (∃ m ∈ l, ((s.ringBox n).box m).ringable = false ∧ (i = 3 ∨ i = 8 + m)) ↔
        ∃ m ∈ l, (s.box m).ringable = false ∧ (i = 3 ∨ i = 8 + m) :=
      exists_congr fun m => and_congr_right fun mem => by rw [left m mem]
    have first := testBit_busyMask n i (small n List.mem_cons_self)
    rw [List.foldl_cons, ih once (fun m mem => small m (List.mem_cons_of_mem _ mem)), rest, err, Nat.testBit_or]
    cases free : (s.box n).ringable <;> simp [first, free, or_assoc]

/-! ### DONE and HOST_ERR (R11, R55, R59) -/

/-- What HATCH_DONE makes of a mailbox it names (R59). -/
def Mailbox.cleared (b : Mailbox) : Mailbox := if b.state = .done then { b with state := .idle } else b

/-- HATCH_DONE on one mailbox (R59). -/
def State.clearDone (s : State) (n : Nat) : State := if (s.box n).state = .done then s.modBox n fun b => { b with state := .idle } else s

theorem clearDone_box (s : State) (n m : Nat) : (s.clearDone n).box m = if m = n then (s.box n).cleared else s.box m := by
  rw [State.clearDone, Mailbox.cleared]
  by_cases same : m = n
  · subst same
    split <;> simp
  · split <;> simp [same]

theorem foldl_clearDone_box {l : List Nat} (once : l.Nodup) (s : State) (n : Nat) :
    (l.foldl State.clearDone s).box n = if n ∈ l then (s.box n).cleared else s.box n := by
  induction l generalizing s with
  | nil => simp
  | cons m l ih =>
    obtain ⟨fresh, once⟩ := List.nodup_cons.1 once
    rw [List.foldl_cons, ih once, clearDone_box]
    by_cases same : n = m
    · subst same
      simp [fresh]
    · simp [same]

theorem doneWrite_box (s : State) (v n : Nat) : (s.doneWrite v).box n = if n ∈ namedBoxes v then (s.box n).cleared else s.box n :=
  foldl_clearDone_box (nodup_namedBoxes v) s n

theorem doneWrite_hatch (s : State) (v : Nat) : (s.doneWrite v).hatch = { s.hatch with boxes := (s.doneWrite v).hatch.boxes } := by
  unfold State.doneWrite
  generalize (List.range 8).filter (fun n => bit v n) = l
  induction l generalizing s with
  | nil => rfl
  | cons m l ih =>
    rw [List.foldl_cons, ih]
    split <;> rfl

/-- A number less its bits in a mask has its bits outside the mask. -/
theorem testBit_sub_and (a b i : Nat) : (a - (a &&& b)).testBit i = (a.testBit i && !b.testBit i) := by
  induction i generalizing a b with
  | zero =>
    have low : (a &&& b).testBit 0 = (a.testBit 0 && b.testBit 0) := Nat.testBit_and _ _ _
    have le : a &&& b ≤ a := Nat.and_le_left
    simp only [Nat.testBit_zero] at low ⊢
    grind
  | succ i ih =>
    have half : (a &&& b) / 2 = a / 2 &&& b / 2 := Nat.and_div_two
    have low : (a &&& b).testBit 0 = (a.testBit 0 && b.testBit 0) := Nat.testBit_and _ _ _
    have le : a &&& b ≤ a := Nat.and_le_left
    have sub : (a - (a &&& b)) / 2 = a / 2 - (a / 2 &&& b / 2) := by
      rw [← half]
      simp only [Nat.testBit_zero] at low
      grind
    rw [Nat.testBit_succ, Nat.testBit_succ, Nat.testBit_succ, sub, ih]

/-- Settles O6: each clause of a doorbell is an induction over the mailboxes named. -/
theorem hatchDoorbells : Obligations.HatchDoorbells := by
  intro w s up
  have windows := windowsUp_of_ne up
  have rung := execHatchDoorbell_keeps (M := 16) (a1 := w) (by decide) (Keeps.refl _ s)
  have done := execHatchDoneWrite_keeps (M := 16) (a1 := w) (by decide) (Keeps.refl _ s)
  have err := execHostErrWrite_keeps (M := 16) (a1 := w) (by decide) (Keeps.refl _ s)
  rw [execHatchDoorbell, if_pos windows] at rung
  rw [execHatchDoneWrite, if_pos windows] at done
  rw [execHostErrWrite, if_pos windows] at err
  refine ⟨⟨s.hostWrote.doorbell w.toNat, if_pos windows, (rung _ rfl).only (by decide), fun n => ?_, ?_, fun i => ?_⟩,
    ⟨s.hostWrote.doneWrite w.toNat, if_pos windows, (done _ rfl).only (by decide), ?_, ?_, fun n => ?_⟩,
    ⟨s.hostWrote.hostErrClear w.toNat, if_pos windows, (err _ rfl).only (by decide), rfl, rfl, fun i small => ?_⟩⟩
  · refine (foldl_ringBox_box (nodup_namedBoxes _) s.hostWrote n).trans ?_
    simp only [mem_namedBoxes, ringable_iff, and_assoc]
    rfl
  · refine (foldl_ringBox_order (nodup_namedBoxes _) s.hostWrote).trans ?_
    rw [namedBoxes, List.filter_filter]
    simp only [bit_toNat, Bool.and_comm]
    rfl
  · refine (foldl_ringBox_hostErr (nodup_namedBoxes _) (fun n mem => ((mem_namedBoxes w n).1 mem).1) s.hostWrote i).trans ?_
    simp only [mem_namedBoxes, not_ringable_iff, and_assoc]
    rfl
  · rw [doneWrite_hatch]; rfl
  · rw [doneWrite_hatch]; rfl
  · rw [doneWrite_box, Mailbox.cleared]
    simp only [mem_namedBoxes]
    split
    next named =>
      obtain ⟨small, set⟩ := named
      simp only [small, set, true_and]
      rfl
    next other => exact (if_neg fun h => other ⟨h.1, h.2.1⟩).symm
  · have low : (w.toNat % 0x10000).testBit i = w.getLsbD i := by
      have two : 0x10000 = 2 ^ 16 := rfl
      rw [two, Nat.testBit_mod_two_pow, BitVec.testBit_toNat]
      simp [small]
    rw [State.hostErrClear]
    refine (testBit_sub_and _ _ _).trans ?_
    rw [low]
    rfl

end Sys2Proof.Machine
end

section
/-!
PROOFS. The ports of the register window (R52, R53): what the reads and writes of registers leave of every port's latch and held word.
-/

namespace Sys2Proof.Machine

open Host

/-! ### What the ports hold -/

/-- What the ports of the window hold. -/
def State.ports (s : State) : PortState × PortState × PortState := (s.hatch.host, s.hatch.jtag, s.hatch.mp)

theorem acc_of_ports {s t : State} (h : t.ports = s.ports) (p : AccessPort) : t.acc p = s.acc p := by
  simp only [State.ports, Prod.mk.injEq] at h
  obtain ⟨host, jtag, mp⟩ := h
  cases p <;> assumption

theorem ports_of_hatch {s t : State} (h : t.hatch = s.hatch) : t.ports = s.ports := by
  rw [State.ports, h, State.ports]

theorem Keeps.ports {M : Nat} {s t : State} (h : Keeps M s t) (k : M.testBit 4 = false) : t.ports = s.ports :=
  ports_of_hatch (h.hatch k)

theorem foldl_ports {α : Type} {f : State → α → State} (left : ∀ s x, (f s x).ports = s.ports) (l : List α) (s : State) :
    (l.foldl f s).ports = s.ports := by
  induction l generalizing s with
  | nil => rfl
  | cons x l ih => rw [List.foldl_cons, ih, left]

@[simp] theorem acc_modAcc (s : State) (p : AccessPort) (f : PortState → PortState) : (s.modAcc p f).acc p = f (s.acc p) := by
  cases p <;> rfl

/-- A change of what one port holds leaves the other ports. -/
theorem modAcc_otherPorts (s : State) (p : AccessPort) (f : PortState → PortState) : s.OtherPorts (s.modAcc p f) p := by
  cases p <;> refine ⟨?_, ?_, ?_⟩ <;> intro h <;> first | rfl | exact absurd rfl h | cases h

theorem State.OtherPorts.then {s t u : State} {p : AccessPort} (h : s.OtherPorts t p) (k : u.ports = t.ports) : s.OtherPorts u p := by
  simp only [State.ports, Prod.mk.injEq] at k
  obtain ⟨host, jtag, mp⟩ := k
  exact ⟨fun e => host.trans (h.host e), fun e => jtag.trans (h.debug e), fun e => mp.trans (h.mp e)⟩

theorem State.OtherPorts.from {s t u : State} {p : AccessPort} (h : t.OtherPorts u p) (k : t.ports = s.ports) : s.OtherPorts u p := by
  simp only [State.ports, Prod.mk.injEq] at k
  obtain ⟨host, jtag, mp⟩ := k
  exact ⟨fun e => (h.host e).trans host, fun e => (h.debug e).trans jtag, fun e => (h.mp e).trans mp⟩

/-! ### Interrupts and notes leave the ports -/

theorem irqSince_ports (a b : State) : (irqSince a b).ports = b.ports := by
  obtain ⟨m, k, e⟩ := irqSince_eq a b
  rw [e]
  rfl

theorem hostErrSet_ports (s : State) (mask : Nat) : (s.hostErrSet mask).ports = s.ports :=
  irqSince_ports _ _

theorem putNote_ports (s : State) (e : Note) : (s.putNote e).ports = s.ports := by
  unfold State.putNote State.dropNote
  split
  · split
    · exact hostErrSet_ports _ _
    · refine (irqSince_ports _ _).trans ?_
      exact (mpWrite_keeps (M := 8256) (by decide) (Keeps.refl _ s)).ports rfl
  · split
    · rfl
    · exact hostErrSet_ports _ _

/-! ### Register reads and writes leave the ports -/

theorem regTouch_ports (s : State) (off : Nat) : (s.regTouch off).ports = s.ports := by
  unfold State.regTouch
  split <;> rfl

theorem tookWord_ports (s : State) (off : Nat) : (s.tookWord off).ports = s.ports := by
  unfold State.tookWord
  split <;> rfl

theorem busStart_ports (s : State) (p : AccessPort) : (s.busStart p).ports = s.ports := by
  unfold State.busStart
  split <;> rfl

theorem ringBox_ports (s : State) (n : Nat) : (s.ringBox n).ports = s.ports := by
  unfold State.ringBox
  split
  · rfl
  · rfl
  · exact hostErrSet_ports _ _
  · exact hostErrSet_ports _ _

theorem doneWrite_ports (s : State) (v : Nat) : (s.doneWrite v).ports = s.ports := by
  rw [State.ports, doneWrite_hatch]
  rfl

theorem nrCtrl_ports (s : State) (v : Nat) : (s.nrCtrl v).ports = s.ports := by
  unfold State.nrCtrl State.flushHold
  dsimp only
  split
  · exact (irqSince_ports _ _).trans (foldl_ports putNote_ports _ _)
  · exact irqSince_ports _ _

theorem nrTail_ports (s : State) (v : Nat) : (s.nrTail v).ports = s.ports := by
  unfold State.nrTail
  dsimp only
  split <;> rfl

theorem requestWrite_ports (s : State) (off v : Nat) : (s.requestWrite off v).ports = s.ports := by
  unfold State.requestWrite
  dsimp only
  split <;> rfl

theorem msixWrite_hatch (s : State) (off v : Nat) : ∃ m k, (s.msixWrite off v).hatch =
    { s.hatch with msixTable := s.hatch.msixTable.set off v, msix := m, msixHeld := k } := by
  unfold State.msixWrite
  dsimp only
  split
  · obtain ⟨m, k, e⟩ := sendVector_eq { s.hatch with msixTable := s.hatch.msixTable.set off v } ((off - 0x8000) / 16)
    exact ⟨m, k, e⟩
  · exact ⟨s.hatch.msix, s.hatch.msixHeld, rfl⟩

theorem msixWrite_ports (s : State) (off v : Nat) : (s.msixWrite off v).ports = s.ports := by
  obtain ⟨m, k, e⟩ := msixWrite_hatch s off v
  rw [State.ports, e, State.ports]

/-- A register write leaves what the ports hold. -/
theorem regWrite_ports (s : State) (off v : Nat) : (s.regWrite off v).ports = s.ports := by
  unfold State.regWrite
  split
  · split
    · exact requestWrite_ports s off v
    · rfl
  · split
    · exact msixWrite_ports s off v
    · split
      · rfl
      · exact (tcapWrite_keeps (M := 516) (by decide) (Keeps.refl _ s)).ports rfl
      · rfl
      · exact foldl_ports ringBox_ports _ _
      · exact doneWrite_ports s v
      · exact irqSince_ports _ _
      · split
        · split <;> rfl
        · rfl
      · exact nrCtrl_ports s v
      · exact nrTail_ports s v
      · rfl

end Sys2Proof.Machine
end

section
/-!
PROOFS. Reads of the register window (R48, R49, R52, R55, R64, R82): what a read leaves in its port's latch, and the reads that clear.
-/

namespace Sys2Proof.Machine

open Host

/-! ### A read of a port -/

theorem portRead_bar0 {s : State} {p : AccessPort} {a off : Nat} (reaches : portTarget p false a = .bar0 off) (f : Nat → State) :
    s.portRead p a f = f off := by
  rw [State.portRead, reaches]

theorem portRead_nowhere {s : State} {p : AccessPort} {a : Nat} (misses : portTarget p false a = .nowhere) (f : Nat → State) :
    s.portRead p a f = s.modAcc p fun x => { x with lastRead := 0, lastHigh := 0 } := by
  rw [State.portRead, misses]

/-- The start of a transaction changes XBUSY_N alone, which no register shows. -/
theorem busStart_eq (s : State) (p : AccessPort) : ∃ f, s.busStart p = s.updPantry f := by
  unfold State.busStart
  split
  · exact ⟨_, rfl⟩
  · exact ⟨id, rfl⟩

theorem regWord_updPantry (s : State) (f : Pantry → Pantry) (off : Nat) : (s.updPantry f).regWord off = s.regWord off := rfl

theorem regWord_busStart (s : State) (p : AccessPort) (off : Nat) : (s.busStart p).regWord off = s.regWord off := by
  obtain ⟨f, e⟩ := busStart_eq s p
  rw [e, regWord_updPantry]

theorem replyOpen_busStart (s : State) (p : AccessPort) (off : Nat) : (s.busStart p).replyOpen off = s.replyOpen off := by
  obtain ⟨f, e⟩ := busStart_eq s p
  rw [e]
  rfl

theorem acc_busStart (s : State) (p q : AccessPort) : (s.busStart p).acc q = s.acc q :=
  acc_of_ports (busStart_ports s p) q

theorem readWord_closed {s : State} {off : Nat} (closed : s.replyOpen off = false) : s.readWord off = s.regWord off := by
  rw [State.readWord, closed]
  rfl

theorem tookWord_closed {s : State} {off : Nat} (closed : s.replyOpen off = false) : s.tookWord off = s := by
  rw [State.tookWord, closed]
  rfl

theorem replyOpen_regTouch (s : State) (off o : Nat) : (s.regTouch o).replyOpen off = s.replyOpen off := by
  unfold State.regTouch
  split <;> rfl

theorem replyOpen_modAcc (s : State) (p : AccessPort) (f : PortState → PortState) (off : Nat) :
    (s.modAcc p f).replyOpen off = s.replyOpen off := by
  cases p <;> rfl

theorem regTouch_freeCount (s : State) (off : Nat) : (s.regTouch off).freeCount = s.freeCount :=
  (regTouch_keeps (M := 48) (by decide) (Keeps.refl _ s)).freeCount rfl

/-! ### What a live read does (R52) -/

/-- What a live read leaves in its port. -/
theorem liveRead_acc (s : State) (p : AccessPort) (off : Nat) : (s.liveRead p off).acc p =
    { s.acc p with lastRead := s.readWord off,
                   latch := if lowOf64 off then { tag := some (off + 4), high := s.regWord (off + 4) } else (s.acc p).latch } := by
  rw [State.liveRead, acc_of_ports ((tookWord_ports _ _).trans (regTouch_ports _ _)), acc_modAcc]

theorem liveRead_otherPorts (s : State) (p : AccessPort) (off : Nat) : s.OtherPorts (s.liveRead p off) p :=
  (modAcc_otherPorts s p _).then ((tookWord_ports _ _).trans (regTouch_ports _ _))

theorem liveRead_freeCount {s : State} {off : Nat} (closed : s.replyOpen off = false) (p : AccessPort) :
    (s.liveRead p off).freeCount = s.freeCount := by
  rw [State.liveRead, tookWord_closed, regTouch_freeCount]
  · rfl
  · rw [replyOpen_regTouch, replyOpen_modAcc, closed]

/-- What a read of 8 bytes leaves in its port. -/
theorem wholeRead_acc (s : State) (p : AccessPort) (off : Nat) :
    (s.wholeRead p off).acc p = { s.acc p with lastRead := s.readWord off, lastHigh := s.readWord (off + 4) } := by
  rw [State.wholeRead, acc_of_ports (((tookWord_ports _ _).trans (regTouch_ports _ _)).trans (regTouch_ports _ _)), acc_modAcc]

theorem wholeRead_otherPorts (s : State) (p : AccessPort) (off : Nat) : s.OtherPorts (s.wholeRead p off) p :=
  (modAcc_otherPorts s p _).then (((tookWord_ports _ _).trans (regTouch_ports _ _)).trans (regTouch_ports _ _))

theorem wholeRead_freeCount {s : State} {off : Nat} (closed : s.replyOpen off = false) (p : AccessPort) :
    (s.wholeRead p off).freeCount = s.freeCount := by
  rw [State.wholeRead, tookWord_closed, regTouch_freeCount, regTouch_freeCount]
  · rfl
  · rw [replyOpen_regTouch, replyOpen_regTouch, replyOpen_modAcc, closed]

/-- A read at the latched offset takes the latched word. -/
theorem accRead_latched {s : State} {p : AccessPort} {off : Nat} (tag : (s.acc p).latch.tag = some off) :
    s.accRead p off = s.modAcc p fun x => { x with lastRead := x.latch.high, latch := { x.latch with tag := none } } :=
  if_pos tag

theorem accRead_live {s : State} {p : AccessPort} {off : Nat} (tag : (s.acc p).latch.tag ≠ some off) : s.accRead p off = s.liveRead p off :=
  if_neg tag

/-! ### The rows -/

section
variable {s : State} {p : AccessPort} {a : BitVec 24}

theorem execLowWordRead_live {off : Nat} {whole : Bool} (open_ : s.accOpen p = true) (reaches : portTarget p false a.toNat = .bar0 off)
    (narrow : (whole && portWide p) = false) : exec (.lowWordRead p a whole) s = .next ((s.busStart p).liveRead p off) := by
  refine (if_pos open_).trans (congrArg Outcome.next ((portRead_bar0 reaches _).trans (if_neg ?_)))
  rw [narrow]
  exact Bool.false_ne_true

theorem execLowWordRead_whole {off : Nat} (open_ : s.accOpen p = true) (reaches : portTarget p false a.toNat = .bar0 off)
    (wide : portWide p = true) : exec (.lowWordRead p a true) s = .next ((s.busStart p).wholeRead p off) := by
  exact (if_pos open_).trans (congrArg Outcome.next ((portRead_bar0 reaches _).trans (if_pos wide)))

theorem execLowWordRead_nowhere (open_ : s.accOpen p = true) (misses : portTarget p false a.toNat = .nowhere) :
    exec (.lowWordRead p a false) s = .next ((s.busStart p).modAcc p fun x => { x with lastRead := 0, lastHigh := 0 }) :=
  (if_pos open_).trans (congrArg Outcome.next (portRead_nowhere misses _))

theorem execHighWordRead_bar0 {off : Nat} (open_ : s.accOpen p = true) (reaches : portTarget p false a.toNat = .bar0 off) :
    exec (.highWordRead p a) s = .next ((s.busStart p).accRead p off) :=
  (if_pos open_).trans (congrArg Outcome.next (portRead_bar0 reaches _))

theorem execHighWordRead_nowhere (open_ : s.accOpen p = true) (misses : portTarget p false a.toNat = .nowhere) :
    exec (.highWordRead p a) s = .next ((s.busStart p).modAcc p fun x => { x with lastRead := 0, lastHigh := 0 }) :=
  (if_pos open_).trans (congrArg Outcome.next (portRead_nowhere misses _))

end

/-- The frame of a port's access: its bus and what follows. -/
theorem keeps_busStart {M : Nat} (hM : Sub 8192 M) (s : State) (p : AccessPort) : Keeps M s (s.busStart p) :=
  busStart_keeps hM (.refl _ s)

/-- Settles O7: what each kind of read leaves in its port, in the others and in the registers. -/
theorem readLatch : Obligations.ReadLatch := by
  intro p a s open_
  have bus := busStart_ports s p
  refine ⟨fun off reaches => ⟨fun whole narrow => ?_, fun wide => ?_, fun tag => ?_, fun tag => ?_⟩, fun misses => ⟨?_, ?_⟩⟩
  · refine ⟨_, execLowWordRead_live open_ reaches narrow, only_of (liveRead_keeps (by decide) (keeps_busStart (by decide) s p)),
      (liveRead_keeps (M := 52) (by decide) (.refl _ _)).pantry rfl, (liveRead_otherPorts _ p off).from bus, fun closed => ⟨?_, ?_⟩, ?_⟩
    · rw [liveRead_freeCount ((replyOpen_busStart s p off).trans closed)]
      exact (busStart_keeps (M := 8192) (by decide) (.refl _ s)).freeCount rfl
    · rw [liveRead_acc, readWord_closed ((replyOpen_busStart s p off).trans closed)]
      exact regWord_busStart s p off
    · rw [liveRead_acc, regWord_busStart, acc_busStart]
  · refine ⟨_, execLowWordRead_whole open_ reaches wide, only_of (wholeRead_keeps (by decide) (keeps_busStart (by decide) s p)),
      (wholeRead_keeps (M := 52) (by decide) (.refl _ _)).pantry rfl, (wholeRead_otherPorts _ p off).from bus, fun closed => ⟨?_, ?_⟩,
      fun closed => ?_, ?_⟩
    · rw [wholeRead_freeCount ((replyOpen_busStart s p off).trans closed)]
      exact (busStart_keeps (M := 8192) (by decide) (.refl _ s)).freeCount rfl
    · rw [wholeRead_acc, readWord_closed ((replyOpen_busStart s p off).trans closed), regWord_busStart]
    · rw [wholeRead_acc, readWord_closed ((replyOpen_busStart s p _).trans closed), regWord_busStart]
    · rw [wholeRead_acc, acc_busStart]
  · have runs := execHighWordRead_bar0 open_ reaches
    rw [accRead_latched (by rw [acc_busStart, tag])] at runs
    refine ⟨_, runs, only_of (modAcc_keeps (by decide) (keeps_busStart (by decide) s p)),
      (modAcc_keeps (M := 16) (by decide) (.refl _ _)).pantry rfl, (modAcc_otherPorts _ p _).from bus, ?_, ?_⟩
    · rw [acc_modAcc, acc_busStart]
    · rw [acc_modAcc]
  · rw [execHighWordRead_bar0 open_ reaches, execLowWordRead_live open_ reaches (Bool.false_and _), accRead_live]
    rwa [acc_busStart]
  · refine ⟨_, execLowWordRead_nowhere open_ misses, only_of (modAcc_keeps (by decide) (keeps_busStart (by decide) s p)), ?_, ?_,
      (modAcc_otherPorts _ p _).from bus⟩
    · rw [acc_modAcc]
    · rw [acc_modAcc, acc_busStart]
  · rw [execHighWordRead_nowhere open_ misses, execLowWordRead_nowhere open_ misses]

/-- Settles O10: each of the three reads is one write of what it returns and one of what it clears. -/
theorem readsThatClear : Obligations.ReadsThatClear := by
  intro s up
  have windows := windowsUp_of_ne up
  refine ⟨⟨_, if_pos windows, ?_, rfl, rfl, rfl, rfl⟩, ⟨_, if_pos windows, ?_, rfl, rfl, rfl⟩, ⟨_, if_pos windows, ?_, rfl, rfl, rfl⟩⟩
  · have same : ∀ q : Part, q ≠ .hatch → q.same s (s.liveRead (.host .pcie) 0x0100) := fun q other => by
      cases q <;> first | rfl | exact absurd rfl other
    exact fun q out => same q fun e => out (by simp [e])
  · exact only_of (execGloadRead_keeps (by decide) (.refl _ s) _ (if_pos windows))
  · exact only_of (execNrDroppedRead_keeps (by decide) (.refl _ s) _ (if_pos windows))

end Sys2Proof.Machine
end

section
/-!
PROOFS. Writes to the register window (R48 to R50, R53, R55, R57, R59, R82): what a port's write holds back, and what each register takes.
-/

namespace Sys2Proof.Machine

open Host

/-! ### What a write of a port does with its held word (R53) -/

/-- The low word a port holds for the value whose high word stands at an offset. -/
def PortState.lowFor (x : PortState) (off : Nat) : Option Nat :=
  match x.heldLow with
  | some (o, l) => if o + 4 = off ∧ writable64 o = true then some l else none
  | none => none

theorem accWrite_low {s : State} {off : Nat} (low : writable64 off = true) (p : AccessPort) (v : Nat) :
    s.accWrite p off v = s.modAcc p fun x => { x with heldLow := some (off, v) } :=
  if_pos low

theorem accWrite_eq {s : State} {p : AccessPort} {off : Nat} (other : writable64 off = false) (v : Nat) :
    s.accWrite p off v = match (s.acc p).lowFor off with
      | some l => s.wholeWrite p off l v
      | none => (s.dropHeld p).regWrite off v := by
  rw [State.accWrite, other]
  rfl

theorem accWrite_alone {s : State} {p : AccessPort} {off : Nat} (other : writable64 off = false) (none_ : (s.acc p).lowFor off = none)
    (v : Nat) : s.accWrite p off v = (s.dropHeld p).regWrite off v := by
  rw [accWrite_eq other, none_]

theorem accWrite_pair {s : State} {p : AccessPort} {off l : Nat} (other : writable64 off = false) (held : (s.acc p).lowFor off = some l)
    (v : Nat) : s.accWrite p off v = s.wholeWrite p off l v := by
  rw [accWrite_eq other, held]

theorem writable64_iff (off : Nat) : writable64 off = true ↔ 0x8000 ≤ off ∧ off < 0x8040 ∧ off % 16 = 0 := by
  simp [writable64, and_assoc]

/-- A port holds a low word for the table's high words alone. -/
theorem lowFor_of_outside (x : PortState) {off : Nat} (outside : off < 0x8000 ∨ 0x8040 ≤ off) : x.lowFor off = none := by
  unfold PortState.lowFor
  split
  · refine if_neg fun h => ?_
    obtain ⟨next, low⟩ := h
    obtain ⟨above, below, mult⟩ := (writable64_iff _).1 low
    omega
  · rfl

/-- The low word for a high word of the table is the one held at the offset before (R53). -/
theorem lowFor_getD {off : Nat} (four : 4 ≤ off) (low : writable64 (off - 4) = true) (x : PortState) (d : Nat) :
    (x.lowFor off).getD d = match x.heldLow with
      | some (o, l) => if o = off - 4 then l else d
      | none => d := by
  unfold PortState.lowFor
  cases x.heldLow with
  | none => rfl
  | some held =>
    obtain ⟨o, l⟩ := held
    by_cases same : o = off - 4
    · subst same
      simp [low, Nat.sub_add_cancel four]
    · have other : ¬(o + 4 = off ∧ writable64 o = true) := by omega
      simp [same, other]

theorem dropHeld_ports_acc (s : State) (p : AccessPort) : ((s.dropHeld p).acc p).heldLow = none := by
  rw [State.dropHeld, acc_modAcc]

/-- A write that is not of a low word leaves none held. -/
theorem accWrite_heldLow {s : State} {off : Nat} (other : writable64 off = false) (p : AccessPort) (v : Nat) :
    ((s.accWrite p off v).acc p).heldLow = none := by
  cases held : (s.acc p).lowFor off with
  | none => rw [accWrite_alone other held, acc_of_ports (regWrite_ports _ _ _), dropHeld_ports_acc]
  | some l =>
    rw [accWrite_pair other held, State.wholeWrite, acc_of_ports ((regWrite_ports _ _ _).trans (regWrite_ports _ _ _)), acc_modAcc]

theorem portWrite_bar0 {s : State} {p : AccessPort} {a off : Nat} (reaches : portTarget p true a = .bar0 off) (f : Nat → State) :
    s.portWrite p a f = f off := by
  rw [State.portWrite, reaches]

theorem portWrite_nowhere {s : State} {p : AccessPort} {a : Nat} (misses : portTarget p true a = .nowhere) (f : Nat → State) :
    s.portWrite p a f = s.dropHeld p := by
  rw [State.portWrite, misses]

/-! ### The MSI-X table (R47, log 19) -/

theorem regWrite_msix {off : Nat} (above : 0x8000 ≤ off) (below : off < 0x8040) (s : State) (v : Nat) :
    s.regWrite off v = s.msixWrite off v :=
  (if_neg (by omega)).trans (if_pos ⟨above, below⟩)

/-- The hatch with words of the MSI-X table and what the messages make of them. -/
structure State.Tables (s t : State) (table : Tab Nat) : Prop where
  /-- The table's words. -/
  words : t.hatch.msixTable = table
  /-- The mailboxes. -/
  boxes : t.hatch.boxes = s.hatch.boxes
  /-- The ports. -/
  ports : t.ports = s.ports
  /-- Every other part. -/
  frame : Keeps 16 s t

theorem regWrite_tables {off : Nat} (above : 0x8000 ≤ off) (below : off < 0x8040) (s : State) (v : Nat) :
    s.Tables (s.regWrite off v) (s.hatch.msixTable.set off v) := by
  obtain ⟨m, k, e⟩ := msixWrite_hatch s off v
  refine ⟨?_, ?_, regWrite_ports s off v, ?_⟩
  · rw [regWrite_msix above below, e]
  · rw [regWrite_msix above below, e]
  · rw [regWrite_msix above below]
    exact msixWrite_keeps (by decide) (.refl _ s)

/-- Both words of a message address written: its port holds nothing for it. -/
theorem wholeWrite_tables {off : Nat} (four : 4 ≤ off) (low : writable64 (off - 4) = true) (s : State) (p : AccessPort) (l v : Nat) :
    (s.dropHeld p).Tables (s.wholeWrite p off l v) ((s.hatch.msixTable.set (off - 4) l).set off v) := by
  obtain ⟨above, below, mult⟩ := (writable64_iff _).1 low
  have first := regWrite_tables above below (s.dropHeld p) l
  have second := regWrite_tables (off := off) (by omega) (by omega) ((s.dropHeld p).regWrite (off - 4) l) v
  have table : (s.dropHeld p).hatch.msixTable = s.hatch.msixTable := by cases p <;> rfl
  refine ⟨?_, second.boxes.trans first.boxes, second.ports.trans first.ports, first.frame.trans second.frame⟩
  rw [← table, ← first.words]
  exact second.words

/-- A high word of the table written with a port's held low word, or with the current one (R53). -/
theorem accWrite_high_tables {off : Nat} (four : 4 ≤ off) (low : writable64 (off - 4) = true) (s : State) (p : AccessPort) (v : Nat) :
    ∃ table, (s.dropHeld p).Tables (s.accWrite p off v) table ∧ table.get 0 off = v ∧
      table.get 0 (off - 4) = ((s.acc p).lowFor off).getD (s.hatch.msixTable.get 0 (off - 4)) := by
  obtain ⟨above, below, mult⟩ := (writable64_iff _).1 low
  have high : writable64 off = false := by simp [writable64]; omega
  have apart : off - 4 ≠ off := by omega
  cases held : (s.acc p).lowFor off with
  | none =>
    rw [accWrite_alone high held]
    refine ⟨_, regWrite_tables (by omega) (by omega) _ v, Tab.get_set _ _ _ _, ?_⟩
    rw [Tab.get_set_ne _ _ apart]
    cases p <;> rfl
  | some l =>
    rw [accWrite_pair high held]
    refine ⟨_, wholeWrite_tables four low s p l v, Tab.get_set _ _ _ _, ?_⟩
    rw [Tab.get_set_ne _ _ apart, Tab.get_set]
    rfl

theorem State.Tables.otherPorts {s t : State} {p : AccessPort} {table : Tab Nat} (h : (s.dropHeld p).Tables t table) : s.OtherPorts t p :=
  (modAcc_otherPorts s p _).then h.ports

theorem State.Tables.heldLow {s t : State} {p : AccessPort} {table : Tab Nat} (h : (s.dropHeld p).Tables t table) :
    (t.acc p).heldLow = none := by
  rw [acc_of_ports h.ports, dropHeld_ports_acc]

theorem State.Tables.hatch_boxes {s t : State} {p : AccessPort} {table : Tab Nat} (h : (s.dropHeld p).Tables t table) :
    t.hatch.boxes = s.hatch.boxes := by
  rw [h.boxes]
  cases p <;> rfl

theorem busStart_hatch (s : State) (p : AccessPort) : (s.busStart p).hatch = s.hatch :=
  (busStart_keeps (M := 8192) (by decide) (.refl _ s)).hatch rfl

theorem State.Tables.only {s t : State} {p : AccessPort} {table : Tab Nat} (h : ((s.busStart p).dropHeld p).Tables t table) :
    Only [.hatch, .pantry] s t ∧ t.pantry = (s.busStart p).pantry :=
  ⟨only_of ((dropHeld_keeps (by decide) (keeps_busStart (by decide) s p)).trans
    ⟨fun q out => h.frame.all q (by cases q <;> first | rfl | exact absurd out (by decide)), h.frame.inv⟩),
   ((dropHeld_keeps (M := 16) (by decide) (.refl _ _)).trans h.frame).pantry rfl⟩

/-! ### The rows of O8 -/

section
variable {s : State} {p : AccessPort} {a : BitVec 24} {off : Nat}

theorem execLowWordWrite_bar0 (open_ : s.accOpen p = true) (reaches : portTarget p true a.toNat = .bar0 off) (v : BitVec 32) :
    exec (.lowWordWrite p a v) s = .next ((s.busStart p).accWrite p off v.toNat) :=
  (if_pos open_).trans (congrArg Outcome.next (portWrite_bar0 reaches _))

theorem execLowWordWrite_nowhere (open_ : s.accOpen p = true) (misses : portTarget p true a.toNat = .nowhere) (v : BitVec 32) :
    exec (.lowWordWrite p a v) s = .next ((s.busStart p).dropHeld p) :=
  (if_pos open_).trans (congrArg Outcome.next (portWrite_nowhere misses _))

theorem execHighWordWrite_whole (open_ : s.accOpen p = true) (reaches : portTarget p true a.toNat = .bar0 off) (wide : portWide p = true)
    (v l : BitVec 32) : exec (.highWordWrite p a v (some l)) s = .next ((s.busStart p).wholeWrite p off l.toNat v.toNat) :=
  (if_pos open_).trans (congrArg Outcome.next ((portWrite_bar0 reaches _).trans (if_pos wide)))

theorem execHighWordWrite_alone {low : Option (BitVec 32)} (open_ : s.accOpen p = true) (reaches : portTarget p true a.toNat = .bar0 off)
    (alone : low = none ∨ portWide p = false) (v : BitVec 32) :
    exec (.highWordWrite p a v low) s = .next ((s.busStart p).accWrite p off v.toNat) := by
  refine (if_pos open_).trans (congrArg Outcome.next ((portWrite_bar0 reaches _).trans ?_))
  cases low with
  | none => rfl
  | some l =>
    obtain absent | narrow := alone
    · cases absent
    · exact if_neg (by rw [narrow]; exact Bool.false_ne_true)

end

/-- The low word that goes with a high word written to the table: the one written with it, the one held for it or the current one (R53). -/
theorem execHighWordWrite_tables {s : State} {p : AccessPort} {a : BitVec 24} {off : Nat} (open_ : s.accOpen p = true)
    (reaches : portTarget p true a.toNat = .bar0 off) (four : 4 ≤ off) (low64 : writable64 (off - 4) = true) (v : BitVec 32)
    (low : Option (BitVec 32)) : ∃ t table, exec (.highWordWrite p a v low) s = .next t ∧ ((s.busStart p).dropHeld p).Tables t table ∧
      table.get 0 off = v.toNat ∧ table.get 0 (off - 4) =
        (match low, portWide p with
          | some l, true => l.toNat
          | _, _ => ((s.acc p).lowFor off).getD (s.hatch.msixTable.get 0 (off - 4))) := by
  have apart : off - 4 ≠ off := by omega
  by_cases alone : low = none ∨ portWide p = false
  · obtain ⟨table, tables, high, lowWord⟩ := accWrite_high_tables four low64 (s.busStart p) p v.toNat
    rw [acc_busStart, busStart_hatch] at lowWord
    refine ⟨_, table, execHighWordWrite_alone open_ reaches alone v, tables, high, ?_⟩
    obtain rfl | narrow := alone
    · exact lowWord
    · rw [narrow]
      split
      · contradiction
      · exact lowWord
  · obtain ⟨l, rfl⟩ := Option.ne_none_iff_exists'.1 fun e => alone (.inl e)
    have wide : portWide p = true := by
      cases w : portWide p
      · exact absurd (.inr w) alone
      · rfl
    refine ⟨_, _, execHighWordWrite_whole open_ reaches wide v l, wholeWrite_tables four low64 _ p _ _, Tab.get_set _ _ _ _, ?_⟩
    rw [Tab.get_set_ne _ _ apart, Tab.get_set, wide]

/-- Settles O8: the low word is held, and goes with the high word. -/
theorem heldWord : Obligations.HeldWord := by
  intro p a v s open_
  refine ⟨fun off reaches => ⟨fun low => ?_, fun low four low64 => ?_, fun other => ?_⟩, fun h same => ?_, rfl, fun misses => ?_⟩
  · have runs := execLowWordWrite_bar0 open_ reaches v
    rw [accWrite_low low] at runs
    refine ⟨_, runs, only_of (modAcc_keeps (by decide) (keeps_busStart (by decide) s p)),
      (modAcc_keeps (M := 16) (by decide) (.refl _ _)).pantry rfl, ?_, ?_, ?_, (modAcc_otherPorts _ p _).from (busStart_ports s p)⟩
    · rw [← busStart_hatch s p]
      cases p <;> rfl
    · rw [← busStart_hatch s p]
      cases p <;> rfl
    · rw [acc_modAcc]
  · obtain ⟨t, table, runs, tables, high, lowWord⟩ := execHighWordWrite_tables open_ reaches four low64 v low
    obtain ⟨only, pantry⟩ := tables.only
    refine ⟨t, runs, only, pantry, ?_, ?_, ?_, tables.heldLow, tables.otherPorts.from (busStart_ports s p)⟩
    · rw [tables.hatch_boxes, busStart_hatch]
    · rw [tables.words, high]
    · rw [tables.words, lowWord, lowFor_getD four low64]
      cases low <;> cases portWide p <;> cases (s.acc p).heldLow <;> rfl
  · exact ⟨_, execLowWordWrite_bar0 open_ reaches v, accWrite_heldLow other p _⟩
  · subst same
    rfl
  · refine ⟨_, execLowWordWrite_nowhere open_ misses v, only_of (dropHeld_keeps (by decide) (keeps_busStart (by decide) s p)), ?_, ?_,
      dropHeld_ports_acc _ p, (modAcc_otherPorts _ p _).from (busStart_ports s p)⟩
    · rw [← busStart_hatch s p]
      cases p <;> rfl
    · rw [← busStart_hatch s p]
      cases p <;> rfl

end Sys2Proof.Machine
end

section
/-!
PROOFS. Register writes through the host port (R11, R50, R55, R57, R59, R82): the write discards the held word of its port, and the register at
its offset takes the word.
-/

namespace Sys2Proof.Machine

open Host

/-! ### What a host write comes to -/

/-- The state in which a host port's write reaches its register: its transaction has begun and its held word is gone (R53, R428). -/
def State.hostBegun (s : State) (p : HostPort) : State := (s.busStart (.host p)).dropHeld (.host p)

theorem hostBegun_keeps {M : Nat} (hM : Sub 8208 M) (s : State) (p : HostPort) : Keeps M s (s.hostBegun p) :=
  dropHeld_keeps (Sub.trans (by decide) hM) (keeps_busStart (Sub.trans (by decide) hM) s (.host p))

theorem hostBegun_hatch (s : State) (p : HostPort) :
    (s.hostBegun p).hatch = { s.hatch with host := { s.hatch.host with heldLow := none } } := by
  rw [← busStart_hatch s (.host p)]
  rfl

theorem hostBegun_pantry (s : State) (p : HostPort) : (s.hostBegun p).pantry = (s.busStart (.host p)).pantry := rfl

theorem hostBegun_notif (s : State) (p : HostPort) : (s.hostBegun p).notif = s.notif :=
  (hostBegun_keeps (M := 8208) (by decide) s p).notif rfl

theorem hostBegun_box (s : State) (p : HostPort) (n : Nat) : (s.hostBegun p).box n = s.box n := by
  rw [State.box, hostBegun_hatch, State.box]

section
variable {s : State} {p : HostPort} {a : BitVec 24} {off : Nat}

theorem execRegisterWrite_bar0 (up : s.portUp p = true) (reaches : hostTarget p true false a.toNat = .bar0 off) (v : BitVec 32) :
    exec (.registerWrite a v p) s = .next ((s.busStart (.host p)).accWrite (.host p) off v.toNat) :=
  (if_pos up).trans (congrArg Outcome.next (portWrite_bar0 (p := .host p) reaches _))

theorem execRegisterWrite_outside (up : s.portUp p = true) (reaches : hostTarget p true false a.toNat = .bar0 off)
    (outside : off < 0x8000 ∨ 0x8040 ≤ off) (v : BitVec 32) :
    exec (.registerWrite a v p) s = .next ((s.hostBegun p).regWrite off v.toNat) := by
  have other : writable64 off = false := by
    cases low : writable64 off
    · rfl
    · have := (writable64_iff off).1 low
      omega
  rw [execRegisterWrite_bar0 up reaches, accWrite_alone other (lowFor_of_outside _ outside)]
  rfl

end

/-- A held low word stands just below its high word. -/
theorem lowFor_some {x : PortState} {off l : Nat} (held : x.lowFor off = some l) : 4 ≤ off ∧ writable64 (off - 4) = true := by
  unfold PortState.lowFor at held
  split at held
  · split at held
    · rename_i o _ _ h
      obtain ⟨next, low⟩ := h
      have same : off - 4 = o := by omega
      exact ⟨by omega, same ▸ low⟩
    · cases held
  · cases held

theorem Only.notifBase {s t : State} (h : Only [.hatch, .pantry] s t) (b : Nat) :
    Only [.hatch, .notif, .pantry] s (t.updNotif fun n => { n with base := b }) := by
  intro q out
  have same := h q fun mem => out (by simp at mem ⊢; tauto)
  cases q <;> first | exact same | exact absurd out (by decide)

theorem Only.tookFree {l : List Part} {s t : State} (h : Only l s t) : Only (.freeCount :: l) s t.tookFree := by
  intro q out
  have same := h q fun mem => out (List.mem_cons_of_mem _ mem)
  cases q <;> first | exact same | exact absurd List.mem_cons_self out

/-! ### The registers (R50) -/

theorem requestWrite_pending {s : State} {off : Nat} (pending : (s.box ((off - 0x2000) / 0x400)).state = .pending) (v : Nat) :
    s.requestWrite off v = (s.modBox ((off - 0x2000) / 0x400) fun b =>
      { b with request := setSlice (padTo b.request 512) (off % 0x400) (leBytes 4 s.freeVal) }).tookFree :=
  if_pos pending

theorem requestWrite_settled {s : State} {off : Nat} (settled : (s.box ((off - 0x2000) / 0x400)).state ≠ .pending) (v : Nat) :
    s.requestWrite off v = s.modBox ((off - 0x2000) / 0x400) fun b =>
      { b with request := setSlice (padTo b.request 512) (off % 0x400) (leBytes 4 v) } :=
  if_neg settled

theorem regWrite_request {off : Nat} (above : 0x2000 ≤ off) (below : off < 0x4000) (request : off % 0x400 < 0x200) (s : State) (v : Nat) :
    s.regWrite off v = s.requestWrite off v :=
  (if_pos ⟨above, below⟩).trans (if_pos request)

/-- An offset that no row writes: a read-only or unlisted one, or one of a reply area (R50, R57). -/
theorem regWrite_ignored {off : Nat} (unlisted : off ∉ [0x0108, 0x0200, 0x0204, 0x1000, 0x1008, 0x100C, 0x4000, 0x4004, 0x400C])
    (reply : off < 0x2000 ∨ 0x4000 ≤ off ∨ 0x200 ≤ off % 0x400) (outside : off < 0x8000 ∨ 0x8040 ≤ off) (s : State) (v : Nat) :
    s.regWrite off v = s := by
  unfold State.regWrite
  split
  · rw [if_neg (by omega)]
  · rw [if_neg (by omega)]
    split <;> first | rfl | exact absurd (by decide) unlisted

theorem regWrite_irqEn (s : State) (v : Nat) :
    s.regWrite 0x100C v = irqSince s (s.updHatch fun h => { h with irqEn := v % 2 ^ 11 }) := rfl

theorem regWrite_nrBase (s : State) (v : Nat) : s.regWrite 0x4000 v = if bits v 20 13 < 0xE0 then
      if s.notif.enable then (s.updNotif fun n => { n with base := s.freeVal % 0xE0 }).tookFree
      else s.updNotif fun n => { n with base := bits v 20 13 }
    else s := rfl

/-! ### The mailbox areas (R57, R95) -/

/-- A word of a request area stored: open while the mailbox is PENDING. -/
theorem requestWrite_word (s : State) (mb : Fin 8) (k : Fin 128) (v : Nat) :
    ((s.box mb).state ≠ .pending → (s.requestWrite (0x2000 + 0x400 * mb + 4 * k) v).freeCount = s.freeCount) ∧
    (∃ x, ((s.box mb).state ≠ .pending → x = v) ∧ (s.requestWrite (0x2000 + 0x400 * mb + 4 * k) v).box mb =
      { s.box mb with request := setSlice (padTo (s.box mb).request 512) (4 * k) (leBytes 4 x) }) ∧
    ∀ n, n ≠ mb → (s.requestWrite (0x2000 + 0x400 * mb + 4 * k) v).box n = s.box n := by
  have area : (0x2000 + 0x400 * mb.val + 4 * k.val - 0x2000) / 0x400 = mb := by omega
  have word : (0x2000 + 0x400 * mb.val + 4 * k.val) % 0x400 = 4 * k := by omega
  by_cases pending : (s.box mb).state = .pending
  · rw [requestWrite_pending (by rw [area]; exact pending), area, word]
    exact ⟨fun settled => absurd pending settled, ⟨s.freeVal, fun settled => absurd pending settled, box_modBox s mb _⟩,
      fun n other => box_modBox_ne s (fun e => other (Fin.ext e)) _⟩
  · rw [requestWrite_settled (by rw [area]; exact pending), area, word]
    exact ⟨fun _ => rfl, ⟨v, fun _ => rfl, box_modBox s mb _⟩, fun n other => box_modBox_ne s (fun e => other (Fin.ext e)) _⟩

/-- A word of the table that is no low word: it is stored, whatever low word goes with it (R47, R53). -/
theorem accWrite_table_word {off : Nat} (above : 0x8000 ≤ off) (below : off < 0x8040) (other : writable64 off = false) (s : State)
    (p : AccessPort) (v : Nat) : ∃ table, (s.dropHeld p).Tables (s.accWrite p off v) table ∧ table.get 0 off = v := by
  cases held : (s.acc p).lowFor off with
  | none =>
    rw [accWrite_alone other held]
    exact ⟨_, regWrite_tables above below _ v, Tab.get_set _ _ _ _⟩
  | some l =>
    obtain ⟨four, low⟩ := lowFor_some held
    rw [accWrite_pair other held]
    exact ⟨_, wholeWrite_tables four low s p l v, Tab.get_set _ _ _ _⟩

theorem bits_base (v : Nat) : bits v 20 13 = v / 2 ^ 13 % 256 := rfl

/-- Settles O9: each offset's register takes the word, once the held word is gone. -/
theorem registerWrites : Obligations.RegisterWrites := by
  intro p a v s off up reaches
  refine ⟨fun at_ => ?_, fun at_ shut => ?_, fun at_ on below => ?_, fun mb k at_ => ?_, fun above below high => ?_,
    fun pcie => ?_, fun unlisted reply outside => ?_⟩
  · have runs := execRegisterWrite_outside up reaches (by omega) v
    subst at_
    rw [regWrite_irqEn] at runs
    obtain ⟨m, k, e⟩ := irqSince_eq (s.hostBegun p) ((s.hostBegun p).updHatch fun h => { h with irqEn := v.toNat % 2 ^ 11 })
    refine ⟨_, runs, only_of (irqSince_keeps (by decide) (hostBegun_keeps (by decide) s p)
      (updHatch_keeps (by decide) (hostBegun_keeps (by decide) s p))), ?_⟩
    rw [e]
    simp [hostBegun_hatch]
  · have runs := execRegisterWrite_outside up reaches (by omega) v
    subst at_
    rw [regWrite_nrBase, bits_base] at runs
    refine ⟨_, runs, ?_, ?_⟩
    · split
      · obtain off_ | high := shut
        · rw [hostBegun_notif, off_, if_neg Bool.false_ne_true]
          exact ((hostBegun_keeps (M := 8208) (by decide) s p).only (l := [.hatch, .pantry]) (by decide)).notifBase _
        · omega
      · exact only_of (hostBegun_keeps (by decide) s p)
    · split
      · obtain off_ | high := shut
        · rw [hostBegun_notif, off_, if_neg Bool.false_ne_true, updNotif_notif, hostBegun_notif]
        · omega
      · exact hostBegun_notif s p
  · have runs := execRegisterWrite_outside up reaches (by omega) v
    subst at_
    rw [regWrite_nrBase, bits_base, if_pos below, hostBegun_notif, on, if_pos rfl] at runs
    refine ⟨_, runs, ?_, Nat.mod_lt _ (by decide), ?_⟩
    · exact (((hostBegun_keeps (M := 8208) (by decide) s p).only (l := [.hatch, .pantry]) (by decide)).notifBase _).tookFree
    · rw [← hostBegun_notif s p]
      rfl
  · have runs := execRegisterWrite_outside up reaches (by omega) v
    rw [at_, regWrite_request (by omega) (by omega) (by omega)] at runs
    obtain ⟨free, stored, others⟩ := requestWrite_word (s.hostBegun p) mb k v.toNat
    simp only [hostBegun_box] at free stored others
    refine ⟨_, runs, only_of (requestWrite_keeps (by decide) (hostBegun_keeps (by decide) s p)), fun settled => ?_, stored, others⟩
    rw [free settled]
    exact (hostBegun_keeps (M := 8208) (by decide) s p).freeCount rfl
  · obtain ⟨table, tables, word⟩ := accWrite_table_word above below high (s.busStart (.host p)) (.host p) v.toNat
    obtain ⟨only, -⟩ := tables.only
    refine ⟨_, execRegisterWrite_bar0 up reaches v, only, ?_, ?_⟩
    · rw [tables.words, word]
    · rw [tables.hatch_boxes, busStart_hatch]
  · subst pcie
    have windows : s.windowsUp = true := (Bool.and_eq_true_iff.1 up).1
    refine ⟨fun e => ?_, fun e => ?_, fun e => ?_, fun e => ?_, fun e => ?_⟩
    all_goals
      subst e
      exact (execRegisterWrite_outside up reaches (by omega) v).trans (if_pos windows).symm
  · refine ⟨_, execRegisterWrite_outside up reaches outside v, ?_⟩
    rw [regWrite_ignored unlisted reply outside]
    exact ⟨only_of (hostBegun_keeps (by decide) s p), hostBegun_hatch s p, hostBegun_pantry s p⟩

end Sys2Proof.Machine
end

section
/-!
PROOFS. Taking a pending mailbox (R61, R63, R69, R674). The request is copied into the mailbox, and the generic checks answer it or leave it: what
an answer makes of a mailbox is said once, and each check is then one case.
-/

namespace Sys2Proof.Machine

open Host

/-! ### What an answer makes of a mailbox (R61, R66) -/

/-- A mailbox whose request has been answered. -/
def Mailbox.answered (b : Mailbox) (reply : Bytes) : Mailbox := { b with state := .done, reply, taken := none, waiting := .none }

theorem enterDone_box (s : State) (mb : Nat) (reply : Bytes) : (s.enterDone mb reply).box mb = (s.box mb).answered reply := by
  rw [State.enterDone, irqSince_box, left_box, box_modBox]
  rfl

theorem enterDone_box_ne {mb n : Nat} (other : n ≠ mb) (s : State) (reply : Bytes) : (s.enterDone mb reply).box n = s.box n := by
  rw [State.enterDone, irqSince_box, left_box, box_modBox_ne s other]

theorem enterDone_order (s : State) (mb : Nat) (reply : Bytes) : (s.enterDone mb reply).hatch.order = s.hatch.order := by
  obtain ⟨m, k, e⟩ := irqSince_eq s ((s.modBox mb fun b => { b with state := .done, reply, taken := none, waiting := .none }).updHatch
    fun h => { h with active := h.active.filter (· != mb) })
  rw [State.enterDone, e]
  rfl

/-- The state in which a generic check's reply is written: a BUSY is counted (R91). -/
def State.counted (s : State) (status : Nat) : State := if status = stBusy then s.bump 0x0206 noInst 0 else s

theorem counted_hatch (s : State) (status : Nat) : (s.counted status).hatch = s.hatch := by
  unfold State.counted
  split <;> rfl

theorem counted_box (s : State) (status n : Nat) : (s.counted status).box n = s.box n := by
  rw [State.box, counted_hatch, State.box]

theorem writeReply_unkept {s : State} {mb : Nat} {q : Request} (taken : (s.box mb).taken = some q) (status : Nat) (payload : Bytes) :
    s.writeReply mb status payload false = (s.counted status).enterDone mb (replyBytes status q.seq s.twin.epoch payload) := by
  rw [State.writeReply, taken]
  rfl

/-! ### The request taken -/

/-- The state in which the generic checks look at the request just taken (R61). -/
def State.takes (s : State) (mb : Nat) (rest : List Nat) (q : Request) : State :=
  (s.updHatch fun h => { h with order := rest, active := h.active.filter (· != mb) ++ [mb] }).modBox mb fun b =>
    { b with state := .active, taken := some q, waiting := .none }

theorem takes_box (s : State) (mb : Nat) (rest : List Nat) (q : Request) :
    (s.takes mb rest q).box mb = { s.box mb with state := .active, taken := some q, waiting := .none } := by
  rw [State.takes, box_modBox]
  rfl

theorem takes_box_ne {mb n : Nat} (other : n ≠ mb) (s : State) (rest : List Nat) (q : Request) : (s.takes mb rest q).box n = s.box n := by
  rw [State.takes, box_modBox_ne _ other]
  rfl

/-- What the generic checks leave, whatever they answer. -/
structure State.Checked (s t : State) (mb : Nat) : Prop where
  /-- The order of the pending mailboxes. -/
  order : t.hatch.order = s.hatch.order
  /-- Every other mailbox. -/
  others : ∀ n, n ≠ mb → t.box n = s.box n
  /-- The request area. -/
  request : (t.box mb).request = (s.box mb).request
  /-- The held set. -/
  held : (t.box mb).held = (s.box mb).held

theorem checked_refl (s : State) (mb : Nat) : s.Checked s mb := ⟨rfl, fun _ _ => rfl, rfl, rfl⟩

theorem checked_enterDone (s : State) (mb : Nat) (reply : Bytes) : s.Checked (s.enterDone mb reply) mb := by
  refine ⟨enterDone_order s mb reply, fun n other => enterDone_box_ne other s reply, ?_, ?_⟩
  · rw [enterDone_box]
    rfl
  · rw [enterDone_box]
    rfl

theorem State.Checked.from {s u t : State} {mb : Nat} (h : u.Checked t mb) (same : u.hatch = s.hatch) : s.Checked t mb := by
  have boxes : ∀ n, u.box n = s.box n := fun n => by rw [State.box, same, State.box]
  refine ⟨h.order.trans (by rw [same]), fun n other => (h.others n other).trans (boxes n), ?_, ?_⟩
  · rw [h.request, boxes]
  · rw [h.held, boxes]

theorem checked_unkept (s : State) (mb status : Nat) (payload : Bytes) : s.Checked (s.writeReply mb status payload false) mb := by
  cases taken : (s.box mb).taken with
  | none =>
    rw [State.writeReply, taken]
    exact checked_refl s mb
  | some q =>
    rw [writeReply_unkept taken]
    exact (checked_enterDone _ mb _).from (counted_hatch s status)

theorem genericChecks_checked (s : State) (mb : Nat) (q : Request) : s.Checked (s.genericChecks mb q) mb := by
  have go : ∀ known d role, s.Checked (State.genericChecks.go mb q known d role s) mb := fun known d role => by
    unfold State.genericChecks.go
    repeat' split
    all_goals first
      | exact checked_refl s mb
      | exact checked_unkept s mb _ _
      | exact (checked_unkept s.tookFree mb _ _).from rfl
  unfold State.genericChecks
  dsimp only
  split
  · split
    · exact checked_enterDone s mb _
    · split
      · exact checked_unkept s mb _ _
      · exact go _ _ _
  · exact go _ _ _

/-- The generic checks draw a free value for a BUSY alone (R91). -/
theorem genericChecks_freeCount {s : State} (free : s.notif.shed ≠ 3) (mb : Nat) (q : Request) :
    (s.genericChecks mb q).freeCount = s.freeCount := by
  have kept : Keeps 80 s s := .refl _ s
  have go : ∀ known d role, Keeps 80 s (State.genericChecks.go mb q known d role s) := fun known d role => by
    unfold State.genericChecks.go
    repeat' split
    all_goals first
      | with_reducible exact kept
      | with_reducible exact generic_keeps (by decide) kept
      | (rename_i h; exact absurd h.1 free)
  unfold State.genericChecks
  dsimp only
  split
  · split
    · exact (enterDone_keeps (M := 80) (by decide) kept).freeCount rfl
    · split
      · exact (generic_keeps (M := 80) (by decide) kept).freeCount rfl
      · exact (go _ _ _).freeCount rfl
  · exact (go _ _ _).freeCount rfl

/-- A generic check's answer to the request just taken (R674). -/
theorem takes_turned (s : State) {u : State} (mb : Nat) (rest : List Nat) (q : Request) (from_ : u.hatch = (s.takes mb rest q).hatch)
    (epoch : u.twin.epoch = s.twin.epoch) (status : Nat) (payload : Bytes) :
    s.Turned (u.writeReply mb status payload false) mb q status payload := by
  have box : u.box mb = _ := (by rw [State.box, from_, ← State.box] : u.box mb = (s.takes mb rest q).box mb).trans (takes_box s mb rest q)
  have taken : (u.box mb).taken = some q := by rw [box]
  rw [writeReply_unkept taken]
  refine ⟨?_, ?_, ?_, ?_⟩ <;> rw [enterDone_box, counted_box, box]
  · rfl
  · rfl
  · rw [Mailbox.answered, epoch]
  · rfl

/-- The checks on the request's own content, in their order, rows 3 to 8 of R674. -/
theorem genericChecks_go (s : State) (mb : Nat) (rest : List Nat) (q : Request) (t : State)
    (checked : t = State.genericChecks.go mb q
      ((opRow q.opcode).isSome && (decide (s.sys.stage ≠ .recovery) || recoveryOp q.opcode)) (sdiff 16 q.epoch s.twin.epoch) s.twin.role
      (s.takes mb rest q)) :
    if 504 < q.length then s.Turned t mb q stBadLength [0x0C, 0, 0xFF, 0xFF]
    else if s.notif.shed = 3 ∧ shedExempt q = false then ∃ us, 100 ≤ us ∧ us ≤ 10000 ∧ s.Turned t mb q stBusy (leBytes 4 us)
    else if sdiff 16 q.epoch s.twin.epoch < 0 then s.Turned t mb q stStale [0, 0, 0xFF, 0xFF]
    else if 0 < sdiff 16 q.epoch s.twin.epoch then s.Turned t mb q stAhead [0, 0, 0xFF, 0xFF]
    else match opRow q.opcode with
      | none => s.Turned t mb q stUnknown [0, 0, 0xFF, 0xFF]
      | some r =>
        if s.sys.stage = .recovery ∧ recoveryOp q.opcode = false then s.Turned t mb q stUnknown [0, 0, 0xFF, 0xFF]
        else if r.len.isSome = true ∧ r.len ≠ some q.length then s.Turned t mb q stBadLength [0x0C, 0, 0xFF, 0xFF]
        else if q.opcode = 0x0212 then
          (∀ i, s.twin.role.firstRefused q = some i → s.Turned t mb q stNotInRole (leBytes 1 0x8B ++ [0] ++ leBytes 2 i)) ∧
          (s.twin.role.firstRefused q = none → (t.box mb) = { s.box mb with state := .active, taken := some q, waiting := .none })
        else
          (∀ k, s.roleReason q.opcode = some k → s.Turned t mb q stNotInRole (leBytes 1 k ++ [0, 0xFF, 0xFF])) ∧
          (s.roleReason q.opcode = none → (t.box mb) = { s.box mb with state := .active, taken := some q, waiting := .none } ∧
            t.hatch.active = s.hatch.active.filter (· != mb) ++ [mb]) := by
  have turned := fun status payload => takes_turned s (u := s.takes mb rest q) mb rest q rfl rfl status payload
  unfold State.genericChecks.go at checked
  split
  · rw [if_pos ‹_›] at checked
    exact checked ▸ turned _ _
  rw [if_neg ‹_›] at checked
  split
  · rw [if_pos ‹_›] at checked
    refine ⟨100 + s.freeVal % 9901, by omega, by omega, ?_⟩
    rw [checked]
    exact takes_turned s (u := (s.takes mb rest q).tookFree) mb rest q rfl rfl _ _
  rw [if_neg ‹_›] at checked
  split
  · rw [if_pos ‹_›] at checked
    exact checked ▸ turned _ _
  rw [if_neg ‹_›] at checked
  split
  · rw [if_pos ‹_›] at checked
    exact checked ▸ turned _ _
  rw [if_neg ‹_›] at checked
  cases row : opRow q.opcode with
  | none =>
    simp only [row] at checked
    exact checked ▸ turned _ _
  | some r =>
    simp only [row, Option.isSome_some, Bool.true_and] at checked
    dsimp only
    split
    · rename_i recovery
      obtain ⟨recovery, unknown⟩ := recovery
      rw [if_pos (by rw [recovery, unknown]; decide)] at checked
      exact checked ▸ turned _ _
    rename_i served
    have known : ¬(decide (s.sys.stage ≠ .recovery) || recoveryOp q.opcode) = false := fun h => served (by simpa using h)
    rw [if_neg known] at checked
    split
    · rename_i length
      rw [if_pos (by simpa using length)] at checked
      exact checked ▸ turned _ _
    rename_i length
    rw [if_neg (by simpa using length)] at checked
    split
    · rw [if_pos ‹_›] at checked
      refine ⟨fun i refused => ?_, fun accepted => ?_⟩
      · rw [refused] at checked
        exact checked ▸ turned _ _
      · rw [accepted] at checked
        exact checked ▸ takes_box s mb rest q
    · rw [if_neg ‹_›, show (s.takes mb rest q).roleReason q.opcode = s.roleReason q.opcode from rfl] at checked
      refine ⟨fun k refused => ?_, fun accepted => ?_⟩
      · rw [refused] at checked
        exact checked ▸ turned _ _
      · rw [accepted] at checked
        exact checked ▸ ⟨takes_box s mb rest q, rfl⟩

/-- MAILBOX_TAKE, while the hatch is served, takes the oldest pending mailbox (R61). -/
theorem execMailboxTake_serves {s : State} {mb : Nat} {rest : List Nat} (serves : s.sys.stage = .serving ∨ s.sys.stage = .recovery)
    (core0 : s.sys.core0.halted = false) (core1 : s.sys.core1.halted = false) (order : s.hatch.order = mb :: rest) :
    exec .mailboxTake s = .next ((s.takes mb rest (requestOf (s.box mb).request)).genericChecks mb (requestOf (s.box mb).request)) := by
  have run : exec .mailboxTake s = execMailboxTake s := rfl
  have on : ¬(s.sys.stage ≠ .serving ∧ s.sys.stage ≠ .recovery ∨ s.sys.core0.halted = true ∨ s.sys.core1.halted = true) := by
    rw [core0, core1]
    simp only [Bool.false_eq_true, or_false]
    tauto
  rw [run, execMailboxTake, if_neg on, order]
  rfl

/-- Settles O13: the request is copied, and the checks answer it in their order or leave it. -/
theorem mailboxTaken : Obligations.MailboxTaken := by
  intro s mb rest q serves core0 core1 order copy
  subst copy
  have run := execMailboxTake_serves serves core0 core1 order
  have checked := genericChecks_checked (s.takes mb rest (requestOf (s.box mb).request)) mb (requestOf (s.box mb).request)
  have kept : ((s.takes mb rest (requestOf (s.box mb).request)).box mb).kept = (s.box mb).kept := by rw [takes_box]
  have frame := execMailboxTake_keeps (M := maskOf [.freeCount, .hatch, .par]) (by decide) (.refl _ s) _ run
  refine ⟨_, run, only_of frame, checked.order, fun n other => (checked.others n other).trans (takes_box_ne other s rest _), ?_, ?_,
    fun k same repeated => ?_, fun k same differs seq => ?_, fun differs => ?_, fun free => (genericChecks_freeCount (by exact free) _ _).trans rfl⟩
  · rw [checked.request, takes_box]
  · rw [checked.held, takes_box]
  · have repeats : ((s.takes mb rest (requestOf (s.box mb).request)).genericChecks mb (requestOf (s.box mb).request)) =
        (s.takes mb rest (requestOf (s.box mb).request)).enterDone mb k.reply := by
      rw [State.genericChecks, kept, same]
      exact if_pos repeated
    rw [repeats, enterDone_box]
    exact ⟨rfl, rfl⟩
  · have clash : ((s.takes mb rest (requestOf (s.box mb).request)).genericChecks mb (requestOf (s.box mb).request)) =
        (s.takes mb rest (requestOf (s.box mb).request)).generic mb stBadSeq 0 := by
      rw [State.genericChecks, kept, same]
      exact (if_neg differs).trans (if_pos seq)
    rw [clash]
    exact takes_turned s mb rest _ rfl rfl _ _
  · refine genericChecks_go s mb rest _ _ ?_
    rw [State.genericChecks, kept]
    cases before : (s.box mb).kept with
    | none => rfl
    | some k =>
      have seq := differs k before
      have req : k.req ≠ requestOf (s.box mb).request := fun e => seq (by rw [e])
      exact (if_neg req).trans (if_neg seq)

end Sys2Proof.Machine
end

section
/-!
PROOFS. Replies of commands, and the commands that read parameters: HATCH_PING, PARAM_INFO and PARAM_DISCARD (R70, R75, R76, R81).
-/

namespace Sys2Proof.Machine

open Host

/-! ### What a reply makes of its mailbox (R61, R66, R69) -/

/-- A mailbox that has replied to its request. -/
def Mailbox.replied (b : Mailbox) (q : Request) (status epoch : Nat) (payload : Bytes) : Mailbox :=
  { b with state := .done, reply := replyBytes status q.seq epoch payload, taken := none, waiting := .none,
           kept := if status = stBusy then b.kept else some { req := q, reply := replyBytes status q.seq epoch payload } }

theorem reply_box {s : State} {mb : Nat} {q : Request} (taken : (s.box mb).taken = some q) (status : Nat) (payload : Bytes) :
    (s.reply mb status payload).box mb = (s.box mb).replied q status s.twin.epoch payload := by
  rw [State.reply, State.writeReply, taken]
  dsimp only
  rw [enterDone_box]
  by_cases busy : status = stBusy
  · rw [if_pos busy, busy]
    rfl
  · simp [busy, Mailbox.answered, Mailbox.replied]

/-- A reply seen from a state whose mailbox differs in its held set alone. -/
theorem reply_replies_of_held {s u : State} {mb : Nat} {q : Request} (held : ∃ l, u.box mb = { s.box mb with held := l })
    (others : ∀ n, n ≠ mb → u.box n = s.box n) (epoch : u.twin.epoch = s.twin.epoch) (taken : (s.box mb).taken = some q) (status : Nat)
    (payload : Bytes) : s.Replies (u.reply mb status payload) mb q status payload := by
  obtain ⟨l, box⟩ := held
  have reply := reply_box (s := u) (mb := mb) (q := q) (by rw [box]; exact taken) status payload
  rw [box, epoch] at reply
  refine ⟨?_, ?_, ?_, ?_, ?_, fun n other => (reply_box_ne other _ _).trans (others n other)⟩ <;> rw [reply] <;> rfl

theorem reply_only {s : State} {status : Nat} (free : status ≠ stBusy) (mb : Nat) (payload : Bytes) :
    Only [.hatch] s (s.reply mb status payload) :=
  (reply_hatch (M := 16) (by decide) free (.refl _ s)).only (by decide)

section
variable {s : State} {mb : Fin 8} {q : Request}

/-- HATCH_PING answers (R75). -/
theorem execHatchPing_runs (runs : s.Runs mb 0x0210 q) : exec (.hatchPing mb) s = .next (s.reply mb stOk
    (leBytes 1 s.twin.role.code ++ leBytes 1 s.notif.shed ++ leBytes 2 s.notif.mpLoad ++ leBytes 4 s.shortNow)) :=
  congrArg Outcome.next (withCmd_runs runs _ _)

/-- PARAM_DISCARD empties the held set and answers (R76). -/
theorem execParamDiscard_runs (runs : s.Runs mb 0x0214 q) : exec (.paramDiscard mb) s =
    .next ((s.modBox mb fun b => { b with held := [] }).reply mb stOk (leBytes 2 (s.heldSet mb).length)) :=
  congrArg Outcome.next (withCmd_runs runs _ _)

/-- PARAM_INFO of a parameter without an RSVD field set describes it (R75). -/
theorem execParamInfo_describes (runs : s.Runs mb 0x0215 q) {r : ParamRow} (row : s.readRow (uAt q.payload 0 2) = some r)
    (rsvd : uAt q.payload 2 2 = 0) : exec (.paramInfo mb) s = .next (s.reply mb stOk (leBytes 2 (uAt q.payload 0 2) ++ leBytes 2 r.size ++
      leBytes 1 r.acc.code ++ leBytes 1 r.cls.code ++ leBytes 1 r.kind.code ++ [0] ++ leBytes 2 r.count ++
      leBytes 2 (flagNum [ownCommitPage (uAt q.payload 0 2 / 256), r.lockable, decide (r.kind = .none) && s.pageRuns (uAt q.payload 0 2 / 256)]) ++
      [0, 0, 0, 0])) := by
  refine congrArg Outcome.next ((withCmd_runs runs _ _).trans ?_)
  simp only [row, rsvd]
  rfl

/-- PARAM_INFO refuses an RSVD field that is not 0 (R81). -/
theorem execParamInfo_rsvd (runs : s.Runs mb 0x0215 q) {r : ParamRow} (row : s.readRow (uAt q.payload 0 2) = some r)
    (rsvd : uAt q.payload 2 2 ≠ 0) : exec (.paramInfo mb) s = .next (s.reply mb stBadParam [0x0D, 0, 0xFF, 0xFF]) := by
  refine congrArg Outcome.next ((withCmd_runs runs _ _).trans ?_)
  simp only [row]
  exact if_pos rsvd

/-- PARAM_INFO refuses an unknown parameter (R81). -/
theorem execParamInfo_unknown (runs : s.Runs mb 0x0215 q) (row : s.readRow (uAt q.payload 0 2) = none) :
    exec (.paramInfo mb) s = .next (s.reply mb stBadParam [0x01, 0, 0xFF, 0xFF]) := by
  refine congrArg Outcome.next ((withCmd_runs runs _ _).trans ?_)
  simp only [row]
  rfl

end

/-- Settles O14: each of the three commands is one reply, after the held set is emptied in the one that discards it. -/
theorem parameterReads : Obligations.ParameterReads := by
  intro s mb q
  have replies := fun (taken : (s.box mb).taken = some q) status payload => reply_replies taken status payload
  refine ⟨fun runs => ?_, fun runs => ?_, fun runs r row => ?_, fun runs row => ?_⟩
  · exact ⟨_, execHatchPing_runs runs, reply_only (by decide) _ _, replies runs.taken _ _⟩
  · have box : (s.modBox mb fun b => { b with held := [] }).box mb = { s.box mb with held := [] } := box_modBox s mb _
    refine ⟨_, execParamDiscard_runs runs, ?_, ?_, ?_⟩
    · exact (reply_hatch (M := 16) (by decide) (by decide) (modBox_keeps (by decide) (.refl _ s))).only (by decide)
    · rw [reply_box (q := q) (by rw [box]; exact runs.taken), box]
      rfl
    · have length : (s.heldSet mb).length = (s.box mb).held.length := List.length_map _
      rw [length]
      exact reply_replies_of_held ⟨[], box⟩ (fun n other => box_modBox_ne s other _) rfl runs.taken _ _
  · by_cases rsvd : uAt q.payload 2 2 = 0
    · exact ⟨_, execParamInfo_describes runs row rsvd, reply_only (by decide) _ _, fun _ => replies runs.taken _ _,
        fun other => absurd rsvd other⟩
    · exact ⟨_, execParamInfo_rsvd runs row rsvd, reply_only (by decide) _ _, fun other => absurd other rsvd,
        fun _ => replies runs.taken _ _⟩
  · exact ⟨_, execParamInfo_unknown runs row, reply_only (by decide) _ _, replies runs.taken _ _⟩

end Sys2Proof.Machine
end

section
/-!
PROOFS. PARAM_SET beside a package (R614): a refutation. A request that writes an own-unit page and a forwarded page is turned away BUSY where
another mailbox's package holds the own-unit page, though nothing turns the forwarded page's write away.
-/

namespace Sys2Proof.Machine

open Host

/-! ### Settling a state whose acts and restart sequence are those of a state at rest -/

theorem atRest_of_same {s e : State} (rest : s.atRest) (todo : e.todo = s.todo) (prot : e.prot = s.prot) : e.atRest :=
  ⟨todo.trans rest.1, by rw [prot]; exact rest.2⟩

/-- From a state at rest, a row that ends with a state in which no act waits lands in that state alone, if it leaves the acts and the restart
sequence alone. -/
theorem Lands.unique {s t : State} {o : Outcome State Fault Refusal} {P : State → Prop} (lands : Lands o P) (rest : s.atRest)
    (runs : o = .next t.settle) (same : t.todo = s.todo ∧ t.prot = s.prot) (frame : ∀ e, P e → e.todo = s.todo ∧ e.prot = s.prot) : P t := by
  obtain ⟨e, ends, holds⟩ := lands
  have at_t := settle_of_atRest (atRest_of_same rest same.1 same.2)
  have at_e := settle_of_atRest (atRest_of_same rest (frame e holds).1 (frame e holds).2)
  have equal : e = t := by
    have := runs.symm.trans ends
    rw [at_t, at_e] at this
    exact (Outcome.next.inj this).symm
  exact equal ▸ holds

/-! ### The request and the state -/

/-- PARAM_SET of two unknown parameters, one of own-unit page 0x01 and one of page 0x08, without data. -/
def mixedSet : Request :=
  { opcode := 0x0212, length := 20, payload := [2, 0, 0, 0] ++ [0xFF, 1, 0, 0, 0, 0, 0, 0] ++ [0xFF, 8, 0, 0, 0, 0, 0, 0] }

/-- Its records. -/
def mixedRecs : List SetRec :=
  [{ rec_ := { id := 0x01FF, inst := 0, v := [] }, size := 0, rsvd := 0 }, { rec_ := { id := 0x08FF, inst := 0, v := [] }, size := 0, rsvd := 0 }]

/-- Mailbox 0 executes the request while the package of mailbox 1 holds page 0x01. -/
def besidePackage : State :=
  { State.reset with
    hatch := { boxes := { cells := [(0, { state := .active, taken := some mixedSet }), (1, { state := .active, taken := some { opcode := 0x1815 } })] } }
    fw := { State.reset.fw with pkg := some (1, [0x01]) } }

theorem besidePackage_runs : besidePackage.Runs 0 0x0212 mixedSet :=
  ⟨by decide, by decide, by decide, by decide, by decide, by decide⟩

theorem besidePackage_writes : besidePackage.Writes 0 0x08 :=
  ⟨by decide, by decide, by decide⟩

theorem besidePackage_atRest : besidePackage.atRest := ⟨rfl, by decide⟩

theorem besidePackage_busy : exec (.paramSet 0) besidePackage = .next (besidePackage.busy 0 1000).settle :=
  congrArg (fun t => Outcome.next (State.settle t)) ((withCmd_runs besidePackage_runs _ _).trans rfl)

/-- Refutes O15: PARAM_SET is answered BUSY, where the statement asks for the reason of its first record, which is unknown. -/
theorem not_parameterWrites : ¬ Obligations.ParameterWrites := by
  intro holds
  obtain ⟨-, set, -⟩ := holds besidePackage 0 mixedSet
  obtain ⟨refused, -⟩ := set besidePackage_runs mixedRecs (by decide) (by decide) (by decide) (by decide) (by
    intro x mem
    simp only [mixedRecs, List.mem_cons, List.not_mem_nil, or_false] at mem
    obtain rfl | rfl := mem
    · exact .inl (by decide)
    · exact .inr besidePackage_writes)
  have lands := refused (0, stBadParam, 0x01) (by decide)
  have frame := busy_keeps (M := 80) (a1 := 0) (a2 := 1000) (by decide) (.refl _ besidePackage)
  have busy := lands.unique besidePackage_atRest besidePackage_busy ⟨frame.todo rfl, frame.prot rfl⟩ fun e h =>
    ⟨h.1 .todo (by decide), h.1 .prot (by decide)⟩
  have replied := congrArg Mailbox.reply (reply_box besidePackage_runs.taken stBusy (leBytes 4 1000))
  exact absurd (replied.symm.trans busy.2.reply) (by decide)

end Sys2Proof.Machine
end

section
/-!
PROOFS. Rack PLLs (R111, R120, R133). The lanes of a rack are gone through one after the other; what one of them does leaves the others and
what their own fresh attempts depend on, so each clause is an induction over the lanes of the rack.
-/

namespace Sys2Proof.Machine

open Host

/-! ### Landing -/

/-- A row whose condition holds lands in its state before settling. -/
theorem lands_if {c : Prop} [Decidable c] {e : State} {o : Outcome State Fault Refusal} {P : State → Prop} (h : c) (holds : P e) :
    Lands (if c then e.done else o) P := ⟨e, if_pos h, holds⟩

theorem next_if {c : Prop} [Decidable c] {e : State} {o : Outcome State Fault Refusal} {P : State → Prop} (h : c) (holds : P e) :
    Next (if c then .next e else o) P := ⟨e, if_pos h, holds⟩

theorem elapsed_of_le {s : State} {t n : Nat} (h : t + n ≤ s.mono) : s.elapsed t n = true := decide_eq_true h

/-- A count that stays at its greatest value. -/
theorem satN_eq_min (k n : Nat) : satN k n = min (2 ^ k - 1) n := by
  have pos : 0 < 2 ^ k := Nat.two_pow_pos k
  rw [satN]
  split <;> omega

/-! ### What a lane's change of state leaves -/

theorem Keeps.lane {M : Nat} {s t : State} (h : Keeps M s t) (k : M.testBit 14 = false) (l : Nat) : t.lane l = s.lane l := by
  rw [State.lane, h.lanes k, State.lane]

theorem Keeps.rack {M : Nat} {s t : State} (h : Keeps M s t) (k : M.testBit 14 = false) (r : Nat) : t.rack r = s.rack r := by
  rw [State.rack, h.lanes k, State.rack]

theorem Keeps.lnk {M : Nat} {s t : State} (h : Keeps M s t) (k : M.testBit 16 = false) (l : Nat) : t.lnk l = s.lnk l := by
  rw [State.lnk, h.links k, State.lnk]

theorem Keeps.firings {M : Nat} {s t : State} (h : Keeps M s t) (k : M.testBit 7 = false) : t.faults.firings = s.faults.firings := by
  rw [h.faults k]

@[simp] theorem modLane_rack (s : State) (l : Nat) (f : Lane → Lane) (k : Nat) : (s.modLane l f).rack k = s.rack k := rfl

@[simp] theorem modRack_lane (s : State) (k : Nat) (f : Rack → Rack) (l : Nat) : (s.modRack k f).lane l = s.lane l := rfl

@[simp] theorem condOff_lane (s : State) (src inst sub l : Nat) : (s.condOff src inst sub).lane l = s.lane l := rfl

@[simp] theorem condOff_rack (s : State) (src inst sub k : Nat) : (s.condOff src inst sub).rack k = s.rack k := rfl

@[simp] theorem condOn_lane (s : State) (src inst sub : Nat) (args : Bytes) (l : Nat) : (s.condOn src inst sub args).lane l = s.lane l :=
  (condOn_keeps (M := 8440) (by decide) (.refl _ s)).lane (by decide) l

@[simp] theorem condOn_rack (s : State) (src inst sub : Nat) (args : Bytes) (k : Nat) : (s.condOn src inst sub args).rack k = s.rack k :=
  (condOn_keeps (M := 8440) (by decide) (.refl _ s)).rack (by decide) k

@[simp] theorem setLane_rack (s : State) (l : Nat) (st : LaneSt) (k : Nat) : (s.setLane l st).rack k = s.rack k := by
  unfold State.setLane State.linkLeave
  dsimp only
  split <;> split <;> (try split) <;> rfl

@[simp] theorem setLane_par (s : State) (l : Nat) (st : LaneSt) : (s.setLane l st).par = s.par :=
  (setLane_keeps (M := 81928) (by decide) (.refl _ s)).par (by decide)

@[simp] theorem startAttempt_rack (s : State) (l n k : Nat) : (s.startAttempt l n).rack k = s.rack k := setLane_rack s l .trainCdr k

/-- Of the parameters, an attempt changes counts alone. -/
theorem startAttempt_eff (s : State) (l n : Nat) : (s.startAttempt l n).par.eff = s.par.eff := by
  have counts : (s.startAttempt l n).par.eff = (s.setLane l .trainCdr).par.eff := rfl
  rw [counts, setLane_par]

@[simp] theorem freshAttempt_rack (s : State) (l k : Nat) : (s.freshAttempt l).rack k = s.rack k := by
  unfold State.freshAttempt
  split
  · exact setLane_rack s l .off k
  · split
    · exact setLane_rack s l .halted k
    · exact startAttempt_rack s l 0 k

theorem freshAttempt_eff (s : State) (l : Nat) : (s.freshAttempt l).par.eff = s.par.eff := by
  unfold State.freshAttempt
  split
  · rw [setLane_par]
  · split
    · rw [setLane_par]
    · exact startAttempt_eff s l 0

/-! ### What a fresh attempt depends on -/

/-- Two states with the same roll and the same parameters in effect use the same lanes. -/
theorem laneUnused_congr {s t : State} (roll : t.roll = s.roll) (eff : t.par.eff = s.par.eff) (l : Nat) :
    t.laneUnused l = s.laneUnused l := by
  simp only [State.laneUnused, State.entry, State.p0, State.peff, State.twinEn, State.pu, roll, eff]

theorem laneHeld_congr {s t : State} (twin : t.twin = s.twin) (l : Nat) : t.laneHeld l = s.laneHeld l := by
  rw [State.laneHeld, twin, State.laneHeld]

theorem freshSt_congr {s t : State} (roll : t.roll = s.roll) (eff : t.par.eff = s.par.eff) (twin : t.twin = s.twin)
    (rack : ∀ k, t.rack k = s.rack k) (l : Nat) : t.freshSt l = s.freshSt l := by
  rw [State.freshSt, laneUnused_congr roll eff, laneHeld_congr twin, rack, State.freshSt]

@[simp] theorem freshAttempt_freshSt (s : State) (l m : Nat) : (s.freshAttempt l).freshSt m = s.freshSt m := by
  have kept := freshAttempt_keeps (M := 81996) (a1 := l) (by decide) (.refl _ s)
  exact freshSt_congr (kept.roll (by decide)) (freshAttempt_eff s l) (kept.twin (by decide)) (fun k => freshAttempt_rack s l k) m

/-! ### One lane after the other -/

/-- Where each step concerns its own lane, a lane that none of the steps names stays. -/
theorem foldl_lane_of_notMem {f : State → Nat → State} (own : ∀ s l m, m ≠ l → (f s l).lane m = s.lane m) {ls : List Nat} {m : Nat}
    (out : m ∉ ls) (s : State) : (ls.foldl f s).lane m = s.lane m := by
  induction ls generalizing s with
  | nil => rfl
  | cons l ls ih =>
    rw [List.mem_cons, not_or] at out
    rw [List.foldl_cons, ih out.2, own s l m out.1]

theorem rackLanes_nodup : ∀ k < 9, (rackLanes k).Nodup := by decide

theorem mem_rackLanes : ∀ l < 132, ∀ k < 9, l ∈ rackLanes k ↔ rackOf l = k := by decide

/-- Each lane put into a state. -/
theorem foldl_setLane_st {ls : List Nat} (once : ls.Nodup) (st : LaneSt) {m : Nat} (mem : m ∈ ls) (s : State) :
    ((ls.foldl (fun s l => s.setLane l st) s).lane m).st = st := by
  induction ls generalizing s with
  | nil => exact absurd mem List.not_mem_nil
  | cons l ls ih =>
    obtain ⟨fresh, once⟩ := List.nodup_cons.1 once
    rw [List.foldl_cons]
    obtain rfl | later := List.mem_cons.1 mem
    · rw [foldl_lane_of_notMem (fun s l m other => setLane_lane_ne s other st) fresh, setLane_lane_same]
      rfl
    · exact ih once later _

/-- A fresh attempt on each lane of a rack that is OFF (R111). -/
def State.startOff (s : State) (l : Nat) : State := if (s.lane l).st = .off then s.freshAttempt l else s

theorem startOff_lane_ne (s : State) (l m : Nat) (other : m ≠ l) : (s.startOff l).lane m = s.lane m := by
  unfold State.startOff
  split
  · exact (freshAttempt_lane s l).2.1 m other
  · rfl

theorem startOff_rack (s : State) (l k : Nat) : (s.startOff l).rack k = s.rack k := by
  unfold State.startOff
  split
  · exact freshAttempt_rack s l k
  · rfl

theorem startOff_freshSt (s : State) (l m : Nat) : (s.startOff l).freshSt m = s.freshSt m := by
  unfold State.startOff
  split
  · exact freshAttempt_freshSt s l m
  · rfl

theorem foldl_startOff_rack (ls : List Nat) (s : State) (k : Nat) : (ls.foldl State.startOff s).rack k = s.rack k := by
  induction ls generalizing s with
  | nil => rfl
  | cons l ls ih => rw [List.foldl_cons, ih, startOff_rack]

theorem foldl_startOff_off {ls : List Nat} (once : ls.Nodup) {m : Nat} (mem : m ∈ ls) (s : State) (off : (s.lane m).st = .off) :
    ((ls.foldl State.startOff s).lane m).st = s.freshSt m := by
  induction ls generalizing s with
  | nil => exact absurd mem List.not_mem_nil
  | cons l ls ih =>
    obtain ⟨fresh, once⟩ := List.nodup_cons.1 once
    rw [List.foldl_cons]
    by_cases same : m = l
    · subst same
      rw [foldl_lane_of_notMem startOff_lane_ne fresh, State.startOff, if_pos off]
      exact (freshAttempt_lane s m).1
    · have later := (List.mem_cons.1 mem).resolve_left same
      rw [ih once later _ (by rw [startOff_lane_ne s l m same]; exact off), startOff_freshSt]

theorem foldl_startOff_on {ls : List Nat} {m : Nat} (s : State) (on : (s.lane m).st ≠ .off) :
    (ls.foldl State.startOff s).lane m = s.lane m := by
  induction ls generalizing s with
  | nil => rfl
  | cons l ls ih =>
    have left : (s.startOff l).lane m = s.lane m := by
      by_cases same : m = l
      · subst same
        rw [State.startOff, if_neg on]
      · exact startOff_lane_ne s l m same
    rw [List.foldl_cons, ih _ (by rw [left]; exact on), left]

/-- Settles O16: the lock begins on its own PLL; a lock and its loss go through the lanes of the rack. -/
theorem lanePlls : Obligations.LanePlls := by
  intro k s
  refine ⟨fun t ready off due => ?_, fun locking => ?_, fun locked => ?_⟩
  · have due : (s.rack k).st = .off ∧ (k.val = 8 ∨ s.elapsed t (ms 2 + k.val * ms 2 - us 100) = true) := by
      refine ⟨off, due.imp_right fun le => elapsed_of_le ?_⟩
      simp only [ms, us]
      omega
    refine ⟨s.modRack k fun r => { r with st := .locking }, ?_, only_of (modRack_keeps (by decide) (.refl _ s)), ?_, rfl, fun j other => ?_⟩
    · show execRackPllLockStart k s = _
      rw [execRackPllLockStart, ready]
      exact if_pos due
    · rw [rack_modRack]
    · exact rack_modRack_ne s other _
  · refine lands_if locking ?_
    change ((((rackLanes k).foldl State.startOff _).rack k).st = _ ∧ Only _ s ((rackLanes k).foldl State.startOff _) ∧ _)
    have once := rackLanes_nodup k k.isLt
    refine ⟨?_, ?_, fun l small => ?_⟩
    · rw [foldl_startOff_rack, condOff_rack, rack_modRack]
    · refine only_of (keeps_foldl (condOff_keeps (by decide) (modRack_keeps (by decide) (.refl _ s))) fun u l kept => ?_)
      exact keeps_ite (fun _ => freshAttempt_keeps (by decide) kept) fun _ => kept
    · have mem := mem_rackLanes l small k k.isLt
      split
      next h =>
        obtain ⟨own, off⟩ := h
        refine (foldl_startOff_off once (mem.2 own) _ (by exact off)).trans ?_
        rw [State.freshSt, own, condOff_rack, rack_modRack]
        simp only [ne_eq, not_true_eq_false, or_false]
        rfl
      next h =>
        by_cases own : rackOf l = k
        · exact foldl_startOff_on _ fun off => h ⟨own, off⟩
        · exact foldl_lane_of_notMem startOff_lane_ne (fun m => own (mem.1 m)) _
  · refine lands_if locked ?_
    have once := rackLanes_nodup k k.isLt
    have racks : ∀ (ls : List Nat) (u : State), (ls.foldl (fun s l => s.setLane l .off) u).rack k = u.rack k := by
      intro ls
      induction ls with
      | nil => intro u; rfl
      | cons l ls ih => intro u; rw [List.foldl_cons, ih, setLane_rack]
    have offs : Keeps (maskOf [.todo, .lanes, .links]) s ((rackLanes k).foldl (fun s l => s.setLane l .off)
        (s.modRack k fun r => { r with st := .relocking, losses := satN 16 (r.losses + 1) })) :=
      keeps_foldl (modRack_keeps (by decide) (.refl _ s)) fun u l kept => setLane_keeps (by decide) kept
    refine ⟨?_, ?_, fun absent => ?_, ?_, fun l small => ?_⟩
    · rw [condOn_rack, racks, rack_modRack]
    · rw [condOn_rack, racks, rack_modRack]
      exact satN_eq_min 16 _
    · exact (condOn_fired _ rfl (by rw [offs.faults (by decide)]; exact absent) []).from (offs.firings (by decide))
    · refine only_of (condOn_keeps (by decide) (keeps_foldl (modRack_keeps (by decide) (.refl _ s)) fun u l kept => setLane_keeps (by decide) kept))
    · have mem := mem_rackLanes l small k k.isLt
      rw [condOn_lane]
      split
      next own => exact foldl_setLane_st once .off (mem.2 own) _
      next other => exact foldl_lane_of_notMem (fun s l m other => setLane_lane_ne s other .off) (fun m => other (mem.1 m)) _

end Sys2Proof.Machine
end

section
/-!
PROOFS. Training of a lane and its pattern checker (R101, R102, R112 to R119, R126 to R128). Each row of the training changes the state of
its own lane, and a change of the lane's further fields comes after it.
-/

namespace Sys2Proof.Machine

open Host

/-! ### One lane -/

theorem oneLane_modLane (s : State) (l : Nat) (f : Lane → Lane) : s.OneLane (s.modLane l f) l := fun _ other => lane_modLane_ne s other f

theorem State.OneLane.trans {s t u : State} {l : Nat} (h : s.OneLane t l) (k : t.OneLane u l) : s.OneLane u l :=
  fun m other => (k m other).trans (h m other)

theorem oneLane_setLane (s : State) (l : Nat) (st : LaneSt) : s.OneLane (s.setLane l st) l := fun _ other => setLane_lane_ne s other st

theorem Keeps.oneLane {M : Nat} {s t : State} (h : Keeps M s t) (k : M.testBit 14 = false) (l : Nat) : s.OneLane t l :=
  fun m _ => h.lane k m

/-- A lane put into a state and then changed. -/
theorem setLane_modLane_lane (s : State) (l : Nat) (st : LaneSt) (f : Lane → Lane) :
    ((s.setLane l st).modLane l f).lane l = f ((s.lane l).enter st s.mono) := by
  rw [lane_modLane, setLane_lane_same]

theorem setLane_modLane_oneLane (s : State) (l : Nat) (st : LaneSt) (f : Lane → Lane) : s.OneLane ((s.setLane l st).modLane l f) l :=
  (oneLane_setLane s l st).trans (oneLane_modLane _ l f)

@[simp] theorem enter_st (l : Lane) (st : LaneSt) (at_ : Nat) : (l.enter st at_).st = st := rfl

@[simp] theorem enter_attempt (l : Lane) (st : LaneSt) (at_ : Nat) : (l.enter st at_).attempt = l.attempt := rfl

@[simp] theorem linkEnter_lane (s : State) (l m : Nat) : (s.linkEnter l).lane m = s.lane m :=
  (linkEnter_keeps (M := 66060) (by decide) (.refl _ s)).lane (by decide) m

@[simp] theorem linkReturn_lane (s : State) (l m : Nat) : (s.linkReturn l).lane m = s.lane m :=
  (linkReturn_keeps (M := 66056) (by decide) (.refl _ s)).lane (by decide) m

/-- A lane that enters LINKED (R114, R119, R121). -/
theorem enterLinked_lane (s : State) (l : Nat) : ((s.enterLinked l).lane l).st = .linked ∧ ((s.enterLinked l).lane l).crcWinFails = 0 ∧
    ((s.enterLinked l).lane l).crcWinAt = s.mono ∧ s.OneLane (s.enterLinked l) l := by
  have same : ∀ m, (s.enterLinked l).lane m = ((s.setLane l .linked).modLane l fun l =>
      { l with crcWinAt := s.mono, crcWinFails := 0, crcAlarmed := false, hist := [] }).lane m := by
    intro m
    unfold State.enterLinked
    dsimp only
    split
    · exact linkReturn_lane _ l m
    · exact linkEnter_lane _ l m
  refine ⟨?_, ?_, ?_, fun m other => (same m).trans (setLane_modLane_oneLane s l _ _ m other)⟩
  all_goals rw [same, setLane_modLane_lane]
  rfl

/-- A fresh attempt that trains has the count 0 (R115, R116). -/
theorem freshAttempt_attempt (s : State) (l : Nat) (trains : s.freshSt l = .trainCdr) : ((s.freshAttempt l).lane l).attempt = 0 := by
  unfold State.freshSt at trains
  split at trains
  next => cases trains
  next used =>
    split at trains
    next => cases trains
    next free =>
      rw [State.freshAttempt, if_neg (by simpa using used), if_neg free]
      exact (startAttempt_lane s l 0).2.1

/-! ### A trial of a preset (R112) -/

/-- The smallest of three eyes, each of them at most 64. -/
theorem least_eye {u m l : Nat} (hu : u ≤ 64) (hm : m ≤ 64) (hl : l ≤ 64) : ([u, m, l].map (min 64)) = [u, m, l] ∧
    ([u, m, l].map (min 64)).foldl min 64 = min u (min m l) := by
  simp only [List.map_cons, List.map_nil, List.foldl_cons, List.foldl_nil, Nat.min_eq_right hu, Nat.min_eq_right hm, Nat.min_eq_right hl,
    true_and]
  omega

/-! ### The checker (R128) -/

theorem count_true_eq (l : List Bool) : (l.filter id).length = l.count true := by
  rw [List.count, List.countP_eq_length_filter]
  exact congrArg List.length (List.filter_congr fun x _ => by cases x <;> rfl)

/-- A locked checker that has taken a symbol, before its lock is judged. -/
def LaneTest.compared (t : LaneTest) (x : Nat) : LaneTest :=
  let w := patSymbol t.pattern t.ref
  { t with ref := w.2, errs := ((x != w.1) :: t.errs).take 256, bits := satN 64 (t.bits + 2), symErr := satN 64 (t.symErr + b2n (x != w.1)),
           bitErr := satN 64 (t.bitErr + b2n ((symBits x).1 != (symBits w.1).1) + b2n ((symBits x).2 != (symBits w.1).2)) }

theorem check_of_locked {t : LaneTest} (locked : t.chkLock = true) (x : Nat) : t.check x =
    if 32 < (((x != (patSymbol t.pattern t.ref).1) :: t.errs).take 256).count true then
      { t.compared x with chkLock := false, lockLosses := satN 32 (t.lockLosses + 1), run := 0, errs := [] }
    else t.compared x := by
  rw [← count_true_eq, LaneTest.check, if_pos locked]
  rfl

theorem check_of_unlocked {t : LaneTest} (open_ : t.chkLock = false) (x : Nat) : ∃ ref, t.check x =
    { t with ref, run := if t.ref ≠ 0 ∧ x = (patSymbol t.pattern t.ref).1 then t.run + 1 else 0,
             chkLock := decide (64 ≤ if t.ref ≠ 0 ∧ x = (patSymbol t.pattern t.ref).1 then t.run + 1 else 0), errs := [] } :=
  ⟨_, by rw [LaneTest.check, if_neg (by simp [open_])]⟩

theorem check_locked_spec {c : LaneTest} (locked : c.chkLock = true) (x : Nat) :
    (c.check x).bits = min (2 ^ 64 - 1) (c.bits + 2) ∧
    (c.check x).symErr = min (2 ^ 64 - 1) (c.symErr + (if x = (patSymbol c.pattern c.ref).1 then 0 else 1)) ∧
    (x = (patSymbol c.pattern c.ref).1 → (c.check x).bitErr = min (2 ^ 64 - 1) c.bitErr) ∧
    ((c.check x).chkLock = false → (c.check x).lockLosses = min (2 ^ 32 - 1) (c.lockLosses + 1)) ∧
    ((c.check x).chkLock = false ↔ 32 < (((x != (patSymbol c.pattern c.ref).1) :: c.errs).take 256).count true) := by
  have symErr : c.symErr + b2n (x != (patSymbol c.pattern c.ref).1) = c.symErr + (if x = (patSymbol c.pattern c.ref).1 then 0 else 1) := by
    by_cases same : x = (patSymbol c.pattern c.ref).1 <;> simp [same, b2n]
  have bitErr : x = (patSymbol c.pattern c.ref).1 → (c.compared x).bitErr = min (2 ^ 64 - 1) c.bitErr := by
    intro same
    subst same
    simp [LaneTest.compared, b2n, satN_eq_min]
  have bits : (c.compared x).bits = min (2 ^ 64 - 1) (c.bits + 2) := satN_eq_min 64 _
  have errs : (c.compared x).symErr = min (2 ^ 64 - 1) (c.symErr + (if x = (patSymbol c.pattern c.ref).1 then 0 else 1)) := by
    rw [← symErr]
    exact satN_eq_min 64 _
  have lock : (c.compared x).chkLock = true := locked
  rw [check_of_locked locked]
  split
  next lost => exact ⟨bits, errs, bitErr, fun _ => satN_eq_min 32 _, iff_of_true rfl lost⟩
  next kept =>
    exact ⟨bits, errs, bitErr, fun off => absurd (lock.symm.trans off) (by decide), iff_of_false (by simp [lock]) kept⟩

theorem check_unlocked_spec {c : LaneTest} (open_ : c.chkLock = false) (x : Nat) :
    (c.check x).bits = c.bits ∧ (c.check x).symErr = c.symErr ∧ (c.check x).bitErr = c.bitErr ∧ (c.check x).lockLosses = c.lockLosses ∧
    ((c.check x).chkLock = true ↔ c.ref ≠ 0 ∧ x = (patSymbol c.pattern c.ref).1 ∧ 63 ≤ c.run) := by
  obtain ⟨ref, checked⟩ := check_of_unlocked open_ x
  rw [checked]
  refine ⟨rfl, rfl, rfl, rfl, ?_⟩
  rw [decide_eq_true_iff]
  split
  next h => exact ⟨fun le => ⟨h.1, h.2, by omega⟩, fun k => by omega⟩
  next h => exact iff_of_false (by decide) fun k => h ⟨k.1, k.2.1⟩

/-! ### The pattern of a lane under test -/

/-- The pattern going out moves its generator on, and beyond that what the transmitter holds. -/
theorem patternOut_lane (s : State) (l n : Nat) : ((s.patternOut l n).lane l).st = (s.lane l).st ∧
    ((s.patternOut l n).lane l).test =
      { (s.lane l).test with gen := (patSymbols (s.lane l).test.pattern n (s.lane l).test.gen).2 } ∧
    s.OneLane (s.patternOut l n) l := by
  unfold State.patternOut
  dsimp only
  split
  · refine ⟨?_, ?_, oneLane_modLane s l _⟩ <;> rw [lane_modLane]
  · have out := fun m => putOut_lane (s.modLane l fun k =>
      { k with test := { k.test with gen := (patSymbols (s.lane l).test.pattern n (s.lane l).test.gen).2 } }) l m
      (patSymbols (s.lane l).test.pattern n (s.lane l).test.gen).1
    obtain ⟨y, z, own⟩ := out l
    rw [if_pos rfl, lane_modLane] at own
    refine ⟨by rw [own], by rw [own], fun m other => ?_⟩
    obtain ⟨y, z, left⟩ := out m
    rw [left, if_neg other, lane_modLane_ne s other]

/-- What a receiver's inversion makes of a symbol (R102). -/
theorem invertRx_fin (c : Bool) (x : Fin 4) : invertRx c x.val = if c then 3 - x.val else x.val := by
  cases c <;> rfl

/-- The symbols received of a lane under test go through its checker (R101, R102, R126 to R128). -/
theorem testCheckerLock_spec {lane : Fin 132} {x0 x1 x2 x3 : Option (Fin 4)} {s : State} (test : (s.lane lane).st = .test) {rx : List (Fin 4)}
    (received : rx = [x0, x1, x2, x3].filterMap id) :
    Next (exec (.testCheckerLock lane x0 x1 x2 x3) s) fun t => Only [.lanes] s t ∧ (t.lane lane).st = .test ∧ s.OneLane t lane ∧
      ∃ gen, gen = (patSymbols (s.lane lane).test.pattern rx.length (s.lane lane).test.gen).2 ∧
      ((s.lane lane).test.mode = 2 → (t.lane lane).test = { (s.lane lane).test with gen }) ∧
      ((s.lane lane).test.mode = 1 → (t.lane lane).test = ((patSymbols (s.lane lane).test.pattern rx.length (s.lane lane).test.gen).1).foldl
        LaneTest.check { (s.lane lane).test with gen }) ∧
      ((s.lane lane).test.mode ≠ 1 → (s.lane lane).test.mode ≠ 2 → ∀ y, y = rx.map (fun x => if (s.pu 0x0403 lane 0 1).testBit 1 then 3 - x.val else x.val) →
        (t.lane lane).test = (if s.pu 0x0402 lane 0 1 = 1 then unprecode (s.lane lane).rxSym y else y).foldl LaneTest.check
          { (s.lane lane).test with gen }) := by
  obtain ⟨st, gen, other⟩ := patternOut_lane s lane rx.length
  have out := patternOut_keeps (M := 16384) (a1 := lane) (a2 := rx.length) (by decide) (.refl _ s)
  have run : execTestCheckerLock lane x0 x1 x2 x3 s = _ := if_pos test
  by_cases quiet : (s.lane lane).test.mode = 2
  · refine ⟨s.patternOut lane rx.length, ?_, out.only (by decide), st.trans test, other, _, rfl, fun _ => gen,
      fun near => absurd (near.symm.trans quiet) (by decide), fun _ heard => absurd quiet heard⟩
    subst received
    exact run.trans (if_pos quiet)
  · subst received
    refine ⟨_, run.trans (if_neg quiet), (modLane_keeps (by decide) out).only (by decide), ?_, other.trans (oneLane_modLane _ _ _), _, rfl,
      fun two => absurd two quiet, fun near => ?_, fun far _ y sent => ?_⟩
    · rw [lane_modLane]
      exact st.trans test
    · rw [lane_modLane, gen, if_pos near]
    · rw [lane_modLane, gen, if_neg far, sent]
      simp only [invertRx_fin, bit_eq_testBit]

/-- Settles O17, row by row: the training first, then the checker. -/
theorem laneTraining : Obligations.LaneTraining := by
  refine ⟨fun lane s => ⟨?_, ?_, ?_, ?_, ?_, ?_, ?_, ?_, ?_⟩, fun lane x0 x1 x2 x3 s test rx received => ?_,
    fun c x => ⟨fun locked => check_locked_spec locked x, fun open_ => check_unlocked_spec open_ x⟩⟩
  · intro st signal
    refine lands_if ⟨st, signal⟩ ⟨?_, only_of (setLane_keeps (by decide) (.refl _ s)), oneLane_setLane s lane _⟩
    rw [setLane_lane_same]
    rfl
  · intro u m l st open_ hu hm hl due
    have due : s.elapsed (s.lane lane).stateAt (((s.lane lane).tried + 1) * us 500) = true := elapsed_of_le (by simp only [us]; omega)
    obtain ⟨eyes, least⟩ := least_eye hu hm hl
    refine next_if ⟨st, open_, due⟩ ⟨only_of (modLane_keeps (by decide) (tookFree_keeps (by decide) (.refl _ s))), ?_, ?_, ?_, ?_, ?_, ?_, ?_⟩
    · rw [lane_modLane]; rfl
    · rw [lane_modLane]; exact eyes
    · rw [lane_modLane]
    · intro other
      rw [lane_modLane]
      simp only [other, decide_false]
      rfl
    · intro p b last best bu bm bl _
      rw [lane_modLane]
      simp only [last, best, decide_true, if_true, least]
      rw [if_pos (by omega)]
    · intro p b last best worse
      rw [lane_modLane]
      simp only [last, best, decide_true, if_true, least]
      rw [if_neg (by omega)]
    · exact oneLane_modLane s.tookFree lane _
  · intro st fixed due settled
    refine lands_if ⟨st, fixed, elapsed_of_le due, settled⟩ ⟨?_, ?_, only_of (modLane_keeps (by decide) (setLane_keeps (by decide) (.refl _ s))),
      setLane_modLane_oneLane s lane _ _⟩
    · rw [setLane_modLane_lane]; rfl
    · rw [setLane_modLane_lane]
  · intro errors st due few
    refine lands_if ⟨st, elapsed_of_le due, few⟩ ⟨?_, only_of (modLane_keeps (by decide) (setLane_keeps (by decide)
      (tookFree_keeps (by decide) (.refl _ s)))), setLane_modLane_oneLane s.tookFree lane _ _⟩
    rw [setLane_modLane_lane]; rfl
  · intro st
    obtain ⟨linked, fails, at_, other⟩ := enterLinked_lane s lane
    exact lands_if st ⟨linked, fails, at_, only_of (enterLinked_keeps (by decide) (.refl _ s)), other⟩
  · intro training due
    have due : (s.lane lane).st.training = true ∧ s.elapsed (s.lane lane).attemptAt (ms 15) = true := ⟨training, elapsed_of_le due⟩
    refine ⟨fun more => ?_, fun last => ?_⟩
    · refine lands_if due ?_
      rw [State.attemptFail, if_pos more]
      refine ⟨?_, ?_, only_of (setLane_keeps (by decide) (.refl _ s)), oneLane_setLane s lane _⟩
      · rw [setLane_lane_same]; rfl
      · rw [setLane_lane_same]; rfl
    · refine lands_if due ?_
      have kept := setLane_keeps (M := maskOf [.todo, .lanes, .links]) (a1 := lane) (a2 := .down) (by decide) (.refl _ s)
      have fired := fun args => fire_keeps (M := 8440) (a1 := 0x10) (a2 := lane) (a3 := args) (by decide) (.refl _ (s.setLane lane .down))
      rw [State.attemptFail, if_neg (by omega)]
      refine ⟨?_, (fire_fired _ rfl _ _).from (kept.firings (by decide)), only_of (fire_keeps (by decide) (setLane_keeps (by decide) (.refl _ s))),
        (oneLane_setLane s lane .down).trans ((fired _).oneLane (by decide) lane)⟩
      rw [(fired _).lane (by decide), setLane_lane_same]
      rfl
  · intro st due
    obtain ⟨cdr, attempt, at_, other, -⟩ := startAttempt_lane s lane ((s.lane lane).attempt + 1)
    exact lands_if ⟨st, elapsed_of_le due⟩ ⟨cdr, attempt, at_, only_of (startAttempt_keeps (by decide) (.refl _ s)), other⟩
  · intro st auto signal since entered
    have due : s.elapsed (max (s.lane lane).signalAt (s.lane lane).stateAt) (ms 1) = true := elapsed_of_le (by simp only [ms]; omega)
    exact lands_if ⟨st, auto, signal, due⟩ ⟨(freshAttempt_lane s lane).1, freshAttempt_attempt s lane,
      only_of (freshAttempt_keeps (by decide) (.refl _ s)), (freshAttempt_lane s lane).2.1⟩
  · intro st due
    exact lands_if ⟨st, elapsed_of_le due⟩ ⟨(freshAttempt_lane s lane).1, freshAttempt_attempt s lane,
      only_of (freshAttempt_keeps (by decide) (.refl _ s)), (freshAttempt_lane s lane).2.1⟩
  · exact testCheckerLock_spec test received

end Sys2Proof.Machine
end

section
/-!
PROOFS. The receiver of a lane (R101 to R106, R118, R121 to R128). A loss of block lock is a change of the lane's state and, unless the dark
hold excuses it, a firing; the alarm of CRC failures is a firing and a flag.
-/

namespace Sys2Proof.Machine

open Host

/-! ### A loss of block lock -/

/-- A loss of block lock that nothing excuses is raised (R118, R353). -/
theorem lockLoss_fired {s : State} {l : Nat} (told : 128 ≤ l ∨ s.darkExempt l = false) : s.Fired (s.lockLoss l) 0x11 := by
  have raised : ¬(decide (l < 128) && s.darkExempt l) = true := by
    rw [Bool.and_eq_true, decide_eq_true_iff]
    rintro ⟨cell, excused⟩
    obtain service | alone := told
    · omega
    · exact absurd (alone.symm.trans excused) (by decide)
  rw [State.lockLoss, if_neg raised]
  exact (fire_fired _ rfl l []).from ((enterHunt_keeps (M := 81992) (by decide) (.refl _ s)).firings (by decide))

theorem enterHunt_lane (s : State) (l : Nat) : ((s.enterHunt l).lane l).st = .hunt ∧ s.OneLane (s.enterHunt l) l := by
  unfold State.enterHunt
  refine ⟨?_, fun m other => ?_⟩
  · rw [lane_modLane, bump_lane, setLane_lane_same]; rfl
  · rw [lane_modLane_ne _ other, bump_lane, setLane_lane_ne _ other]

/-! ### The alarm of CRC failures (R121) -/

/-- The alarm of a window that counts too many failures, once. -/
theorem crcAlarm_of_many {s : State} {l : Nat} (many : s.p0 0x0411 < (s.lane l).crcWinFails ∧ (s.lane l).crcAlarmed = false) :
    s.Fired (s.crcAlarm l) 0x12 ∧ (s.crcAlarm l).lane l = { s.lane l with crcAlarmed := true } ∧ s.OneLane (s.crcAlarm l) l := by
  have fired := fun args => fire_keeps (M := 8440) (a1 := 0x12) (a2 := l) (a3 := args) (by decide)
    (.refl _ (s.modLane l fun l => { l with crcAlarmed := true }))
  rw [State.crcAlarm, if_pos many]
  refine ⟨(fire_fired _ rfl l _).from rfl, ?_, (oneLane_modLane s l _).trans ((fired _).oneLane (by decide) l)⟩
  rw [(fired _).lane (by decide), lane_modLane]

theorem crcAlarm_of_few {s : State} {l : Nat} (few : ¬(s.p0 0x0411 < (s.lane l).crcWinFails ∧ (s.lane l).crcAlarmed = false)) :
    s.crcAlarm l = s := if_neg few

/-- The lane after the window has been judged differs in the flag of the alarm alone. -/
theorem crcAlarm_lane (s : State) (l : Nat) : (∃ a, (s.crcAlarm l).lane l = { s.lane l with crcAlarmed := a }) ∧ s.OneLane (s.crcAlarm l) l := by
  by_cases many : s.p0 0x0411 < (s.lane l).crcWinFails ∧ (s.lane l).crcAlarmed = false
  · obtain ⟨-, own, other⟩ := crcAlarm_of_many many
    exact ⟨⟨true, own⟩, other⟩
  · rw [crcAlarm_of_few many]
    exact ⟨⟨_, rfl⟩, fun _ _ => rfl⟩

/-! ### A block sent -/

/-- A block sent changes what the lane's transmitter holds, and nothing else of the lane or of another. -/
theorem sendBlock_lane (s : State) (l m ty p : Nat) : ∃ y z, (s.sendBlock l ty p).lane m =
    if m = l then { s.lane l with txSym := y, burst := false, lineOut := z } else s.lane m := by
  obtain ⟨y, z, out⟩ := putOut_lane s l m (symbols (blockBits ty (s.twin.epoch % 4) (s.lnk l).downSeq (s.stampPayload ty p)))
  refine ⟨y, z, Eq.trans ?_ out⟩
  exact (noteSent_keeps (M := 66048) (by decide) (.refl _ _)).lane (by decide) m

/-- The failures of the latest 64 blocks, one of which fails now (R118). -/
theorem fails_of_64 (h : List Bool) : (((true :: h).take 64).filter id).length = (h.take 63).count true + 1 := by
  rw [count_true_eq, List.take_succ_cons, List.count_cons_self]

/-- A block that fails on a lane, before the loss of block lock is judged (R121, R139). -/
def State.crcFailed (s : State) (l : Nat) : State :=
  (s.bump 0x040B l 1).modLane l fun k => { k with hist := (true :: (s.lane l).hist).take 64, crcWinFails := (s.lane l).crcWinFails + 1 }

theorem crcFailed_lane (s : State) (l : Nat) : (s.crcFailed l).lane l =
    { s.lane l with hist := (true :: (s.lane l).hist).take 64, crcWinFails := (s.lane l).crcWinFails + 1 } :=
  lane_modLane (s.bump 0x040B l 1) l _

theorem crcFailed_keeps {M : Nat} {s : State} (hM : Sub 16448 M) {t : State} (l : Nat) (h : Keeps M s t) : Keeps M s (t.crcFailed l) :=
  modLane_keeps (Sub.trans (by decide) hM) (bump_keeps (Sub.trans (by decide) hM) h)

/-- Settles O18, row by row. -/
theorem laneReceiver : Obligations.LaneReceiver := by
  intro lane s
  refine ⟨?_, ?_, ?_, ?_, ?_, ?_, ?_, ?_, ?_, ?_, ?_, ?_, ?_, ?_⟩
  · intro dark
    refine ⟨_, (if_neg (by simp [dark])).trans (if_pos rfl), only_of (modLane_keeps (by decide) (modLane_keeps (by decide) (.refl _ s))),
      ?_, ?_, ?_, fun gap => ?_, (oneLane_modLane s lane _).trans (oneLane_modLane _ lane _)⟩
    all_goals rw [lane_modLane, lane_modLane]
    exact if_pos gap
  · intro lit away
    refine ⟨_, (if_neg (by simp [lit])).trans ((if_neg (by decide)).trans (if_neg (by simp [away]))),
      only_of (modLane_keeps (by decide) (.refl _ s)), lane_modLane s lane _, oneLane_modLane s lane _⟩
  · intro lit receives idle
    refine ⟨_, (if_neg (by simp [lit])).trans ((if_neg (by decide)).trans ((if_pos receives).trans (if_pos idle))),
      only_of (modLane_keeps (by decide) (modLane_keeps (by decide) (.refl _ s))), ?_, ?_, ?_,
      (oneLane_modLane s lane _).trans (oneLane_modLane _ lane _)⟩
    all_goals rw [lane_modLane, lane_modLane]
  · intro lit receives busy
    refine ⟨_, (if_neg (by simp [lit])).trans ((if_neg (by decide)).trans ((if_pos receives).trans (if_neg (by simp [busy])))),
      (lockLoss_lane _ lane).1, fun told => (lockLoss_fired (by exact told)).from rfl,
      only_of (lockLoss_keeps (by decide) (modLane_keeps (by decide) (.refl _ s))),
      (oneLane_modLane s lane _).trans (lockLoss_lane _ lane).2⟩
  · intro receives gap
    refine next_if ⟨receives, gap⟩ ⟨only_of (modLane_keeps (by decide) (bump_keeps (by decide) (.refl _ s))), ?_, ?_, ?_,
      oneLane_modLane (s.bump 0x040B lane 4) lane _⟩
    all_goals rw [lane_modLane]
    rfl
  · intro t since receives due
    have run : execWakeMarkerTimeout lane s =
        if (s.lane lane).st.receives = true ∧ s.elapsed t 205 = true then (s.enterHunt lane).done else .next s := by
      rw [execWakeMarkerTimeout, since]
    obtain ⟨hunt, other⟩ := enterHunt_lane s lane
    exact ⟨_, run.trans (if_pos ⟨receives, elapsed_of_le due⟩), hunt, only_of (enterHunt_keeps (by decide) (.refl _ s)), other⟩
  · intro t since receives due
    have run : execIdleGapTimeout lane s =
        if (s.lane lane).st.receives = true ∧ s.elapsed t (us (s.p0 0x040D + 2)) = true then (s.lockLoss lane).done else .next s := by
      rw [execIdleGapTimeout, since]
    obtain ⟨hunt, other⟩ := lockLoss_lane s lane
    exact ⟨_, run.trans (if_pos ⟨receives, elapsed_of_le due⟩), hunt, lockLoss_fired, only_of (lockLoss_keeps (by decide) (.refl _ s)), other⟩
  · intro receives few
    have run : exec (.blockCrcFail lane) s = ((s.crcFailed lane).crcAlarm lane).done :=
      (if_pos receives).trans (congrArg State.done (if_neg (by rw [fails_of_64]; omega)))
    have one := (oneLane_modLane (s.bump 0x040B lane 1) lane _).trans (crcAlarm_lane (s.crcFailed lane) lane).2
    obtain ⟨a, own⟩ := (crcAlarm_lane (s.crcFailed lane) lane).1
    refine ⟨_, run, ?_, ?_, ?_, one⟩
    · rw [own, crcFailed_lane]
    · rw [own, crcFailed_lane]
    · have judged : (s.crcFailed lane).p0 0x0411 < ((s.crcFailed lane).lane lane).crcWinFails ∧
          ((s.crcFailed lane).lane lane).crcAlarmed = false ↔
          s.p0 0x0411 < (s.lane lane).crcWinFails + 1 ∧ (s.lane lane).crcAlarmed = false := by
        rw [crcFailed_lane]
        rfl
      split
      next many =>
        obtain ⟨fired, alarmed, -⟩ := crcAlarm_of_many (judged.2 many)
        exact ⟨fired.from rfl, by rw [alarmed], only_of (crcAlarm_keeps (by decide) (crcFailed_keeps (by decide) lane (.refl _ s)))⟩
      next few =>
        rw [crcAlarm_of_few (judged.not.2 few)]
        exact only_of (crcFailed_keeps (by decide) lane (.refl _ s))
  · intro receives many
    have run : exec (.blockCrcFail lane) s = (((s.crcFailed lane).crcAlarm lane).lockLoss lane).done :=
      (if_pos receives).trans (congrArg State.done (if_pos (by rw [fails_of_64]; omega)))
    have one := (oneLane_modLane (s.bump 0x040B lane 1) lane _).trans (crcAlarm_lane (s.crcFailed lane) lane).2
    exact ⟨_, run, (lockLoss_lane _ lane).1,
      only_of (lockLoss_keeps (by decide) (crcAlarm_keeps (by decide) (crcFailed_keeps (by decide) lane (.refl _ s)))),
      State.OneLane.trans one (lockLoss_lane _ lane).2⟩
  · intro receives due
    obtain ⟨⟨a, own⟩, other⟩ := crcAlarm_lane s lane
    refine lands_if ⟨receives, elapsed_of_le due⟩ ⟨?_, ?_, ?_, ?_, other.trans (oneLane_modLane _ lane _)⟩
    · rw [lane_modLane]
    · rw [lane_modLane]
    · rw [lane_modLane, own]
      rfl
    · split
      next many =>
        exact ⟨(crcAlarm_of_many many).1, only_of (modLane_keeps (by decide) (crcAlarm_keeps (by decide) (.refl _ s)))⟩
      next few =>
        rw [crcAlarm_of_few few]
        exact only_of (modLane_keeps (by decide) (.refl _ s))
  · intro linked idle run
    refine lands_if ⟨linked, idle, run⟩ ⟨?_, ?_, only_of (setLane_keeps (by decide) (.refl _ s)), oneLane_setLane s lane _⟩
    · rw [setLane_lane_same]; rfl
    · rw [setLane_lane_same]; rfl
  · intro sleep due
    have sent := fun m => sendBlock_lane (s.burstDue lane) lane m tyIdle 0
    obtain ⟨y, z, own⟩ := sent lane
    rw [if_pos rfl, State.burstDue, lane_modLane] at own
    refine lands_if ⟨sleep, elapsed_of_le due⟩ ⟨?_, ?_, only_of (sendBlock_keeps (by decide) (burstDue_keeps (by decide) (.refl _ s))),
      fun m other => ?_⟩
    · rw [State.burstDue, own]; exact sleep
    · rw [State.burstDue, own]
    · obtain ⟨y, z, left⟩ := sent m
      rw [left, if_neg other]
      exact lane_modLane_ne s other _
  · intro s1 s2 s3 s4 s5 adapts due t1 t2 t3 t4 t5 taps
    refine next_if ⟨adapts, elapsed_of_le due⟩ ⟨only_of (modLane_keeps (by decide) (.refl _ s)), ?_, ?_, oneLane_modLane s lane _⟩
    · rw [lane_modLane, taps]
      rfl
    · rw [lane_modLane]
  · intro u m l runs due hu hm hl
    refine next_if ⟨runs, elapsed_of_le due⟩ ⟨only_of (modLane_keeps (by decide) (.refl _ s)), ?_, ?_, oneLane_modLane s lane _⟩
    · rw [lane_modLane]
      exact (least_eye hu hm hl).1
    · rw [lane_modLane]

end Sys2Proof.Machine
end

section
/-!
PROOFS. The commands of a lane (R116, R127, R128, R132, R373). A command with a UNIT field has its own part, on this unit, and its end, which
answers or forwards; the two are said apart, and the lanes of a range are gone through one after the other.
-/

namespace Sys2Proof.Machine

open Host

/-! ### A command with a UNIT field (R132, R373) -/

/-- Without a twin there is no unit to name (R132). -/
theorem unitCmd_of_alone {s : State} {unit : Nat} (named : 1 ≤ unit) (alone : s.hasStandby = false) (mb : Nat) (q : Request) (payload : Bytes)
    (own : State → State) : s.unitCmd mb q unit payload own = s.refuse mb stBadParam 0x22 := if_pos ⟨named, alone⟩

/-- The part of a command that this unit carries out. -/
def State.unitPart (s : State) (unit : Nat) (own : State → State) : State := if unit = 1 then s else own s

theorem unitCmd_of_paired {s : State} {unit : Nat} (paired : unit = 0 ∨ (s.hasStandby = true ∧ s.forwardBarred = false)) (mb : Nat) (q : Request)
    (payload : Bytes) (own : State → State) : s.unitCmd mb q unit payload own =
      if unit = 0 then (s.unitPart unit own).replyOk mb payload else (s.unitPart unit own).finishWrite mb q payload := by
  rw [State.unitCmd, if_neg fun h => ?alone, if_neg fun h => ?barred]
  · rfl
  case alone =>
    obtain ⟨named, alone⟩ := h
    obtain zero | ⟨standby, -⟩ := paired
    · omega
    · exact absurd (alone.symm.trans standby) (by decide)
  case barred =>
    obtain ⟨named, barred⟩ := h
    obtain zero | ⟨-, free⟩ := paired
    · omega
    · exact absurd (free.symm.trans barred) (by decide)

/-- More parts may differ. -/
theorem Only.mono {l m : List Part} {s t : State} (h : Only l s t) (sub : ∀ p, p ∈ l → p ∈ m) : Only m s t :=
  fun p out => h p fun mem => out (sub p mem)

/-- A reply after a command's own effect, where that leaves the mailboxes and the epoch. -/
theorem reply_ends {s u : State} {l : List Part} {mb : Nat} {q : Request} (taken : (s.box mb).taken = some q) (part : Only l s u)
    (hatch : u.hatch = s.hatch) (twin : u.twin = s.twin) {status : Nat} (free : status ≠ stBusy) (payload : Bytes) :
    Only (.hatch :: l) s (u.reply mb status payload) ∧ s.Replies (u.reply mb status payload) mb q status payload :=
  ⟨part.trans (reply_only free mb payload), (reply_replies (by rw [State.box, hatch]; exact taken) status payload).from (by rw [hatch]) (by rw [twin])⟩

@[simp] theorem reply_lane (s : State) (mb status : Nat) (payload : Bytes) (l : Nat) : (s.reply mb status payload).lane l = s.lane l :=
  (reply_keeps (M := 80) (by decide) (.refl _ s)).lane (by decide) l

/-- The end of a command with a UNIT field after its part in this unit, where that part leaves the hatch, the twin, the elapsed time and what tells
that there is a standby. -/
theorem unitCmd_ends {s u : State} {l : List Part} {mb : Nat} {q : Request} {unit : Nat} (taken : (s.box mb).taken = some q)
    (part : Only l s u) (hatch : u.hatch = s.hatch) (twin : u.twin = s.twin) (mono : u.mono = s.mono) (standby : u.hasStandby = s.hasStandby)
    (paired : unit = 0 ∨ (s.hasStandby = true ∧ s.forwardBarred = false)) (payload : Bytes) {e : State}
    (ends : e = if unit = 0 then u.replyOk mb payload else u.finishWrite mb q payload) :
    OnlyWrite l s e ∧ (∀ m, e.lane m = u.lane m) ∧ if unit = 0 then s.Replies e mb q stOk payload else s.Forwards e mb payload := by
  have taken' : (u.box mb).taken = some q := by rw [State.box, hatch]; exact taken
  subst ends
  by_cases zero : unit = 0
  · rw [if_pos zero, if_pos zero]
    obtain ⟨only, replies⟩ := reply_ends taken part hatch twin (status := stOk) (by decide) payload
    refine ⟨only.mono fun p mem => ?_, fun m => reply_lane u mb stOk payload m, replies⟩
    obtain rfl | mem := List.mem_cons.1 mem
    · exact List.mem_cons_self
    · exact List.mem_append_right _ mem
  · obtain ⟨there, -⟩ := paired.resolve_left zero
    rw [if_neg zero, if_neg zero]
    refine ⟨part.finishWrite standby mb q payload [], ?_, ?_⟩
    · exact (finishWrite_keeps (M := 67664) (by decide) (.refl _ u)).lane (by decide)
    · have accepted := (finishWrite_accepts taken' payload []).from (by rw [hatch]) twin mono standby
      rw [State.Accepts, if_pos there] at accepted
      exact accepted

theorem unitPart_zero (s : State) (own : State → State) : s.unitPart 0 own = own s := rfl

theorem unitPart_one (s : State) (own : State → State) : s.unitPart 1 own = s := rfl

/-! ### What tells that there is a standby -/

theorem hasStandby_congr {s t : State} (twin : t.twin = s.twin) (eff : t.par.eff = s.par.eff) : t.hasStandby = s.hasStandby := by
  simp only [State.hasStandby, State.twinEn, State.pu, State.peff, twin, eff]

/-! ### The lanes of a range -/

theorem mem_rangeLanes {s : State} {first count l : Nat} :
    l ∈ s.rangeLanes first count ↔ first ≤ l ∧ l < first + count ∧ (s.lane l).st ≠ .off := by
  simp only [State.rangeLanes, List.mem_filter, List.mem_map, List.mem_range, decide_eq_true_eq]
  constructor
  · rintro ⟨⟨k, small, rfl⟩, on⟩
    exact ⟨by omega, by omega, on⟩
  · rintro ⟨low, high, on⟩
    exact ⟨⟨l - first, by omega, by omega⟩, on⟩

theorem rangeLanes_nodup (s : State) (first count : Nat) : (s.rangeLanes first count).Nodup := by
  refine List.Nodup.filter _ (List.nodup_range.map fun a b same => ?_)
  simpa using same

theorem length_rangeLanes (s : State) (first count : Nat) : (s.rangeLanes first count).length =
    (List.range count).countP fun k => decide ((s.lane (first + k)).st ≠ .off) := by
  rw [State.rangeLanes, List.filter_map, List.length_map, List.countP_eq_length_filter]
  rfl

/-- A fresh attempt on each lane. -/
theorem foldl_freshAttempt_st {ls : List Nat} (once : ls.Nodup) {m : Nat} (mem : m ∈ ls) (s : State) :
    ((ls.foldl State.freshAttempt s).lane m).st = s.freshSt m := by
  induction ls generalizing s with
  | nil => exact absurd mem List.not_mem_nil
  | cons l ls ih =>
    obtain ⟨fresh, once⟩ := List.nodup_cons.1 once
    rw [List.foldl_cons]
    obtain rfl | later := List.mem_cons.1 mem
    · rw [foldl_lane_of_notMem (fun s l m other => (freshAttempt_lane s l).2.1 m other) fresh]
      exact (freshAttempt_lane s m).1
    · rw [ih once later, freshAttempt_freshSt]

theorem foldl_freshAttempt_eff (ls : List Nat) (s : State) : (ls.foldl State.freshAttempt s).par.eff = s.par.eff := by
  induction ls generalizing s with
  | nil => rfl
  | cons l ls ih => rw [List.foldl_cons, ih, freshAttempt_eff]

/-- What a range command on lanes leaves and answers, given what it makes of one lane. -/
theorem range_lands {s : State} {mb : Nat} {q : Request} {op : Nat} {l : List Part} {first count unit : Nat} {own : State → State}
    {after : Nat → LaneSt} (runs : s.Runs mb op q) (part : Only l s (own s)) (hatch : (own s).hatch = s.hatch) (twin : (own s).twin = s.twin)
    (mono : (own s).mono = s.mono) (eff : (own s).par.eff = s.par.eff)
    (named : ∀ m ∈ s.rangeLanes first count, ((own s).lane m).st = after m) (left : ∀ m, m ∉ s.rangeLanes first count → (own s).lane m = s.lane m)
    (paired : unit = 0 ∨ (s.hasStandby = true ∧ s.forwardBarred = false)) {o : Outcome State Fault Refusal}
    (run : o = (s.unitCmd mb q unit (leBytes 2 (if unit = 1 then 0 else (s.rangeLanes first count).length) ++ [0, 0]) own).done) :
    Lands o fun e => OnlyWrite l s e ∧
      (∀ l < 132, if unit ≠ 1 ∧ first ≤ l ∧ l < first + count ∧ (s.lane l).st ≠ .off then (e.lane l).st = after l else e.lane l = s.lane l) ∧
      ∃ n, n = (if unit = 1 then 0 else (List.range count).countP fun k => decide ((s.lane (first + k)).st ≠ .off)) ∧
        if unit = 0 then s.Replies e mb q stOk (leBytes 2 n ++ [0, 0]) else s.Forwards e mb (leBytes 2 n ++ [0, 0]) := by
  have whole : Only l s (s.unitPart unit own) ∧ (s.unitPart unit own).hatch = s.hatch ∧ (s.unitPart unit own).twin = s.twin ∧
      (s.unitPart unit own).mono = s.mono ∧ (s.unitPart unit own).par.eff = s.par.eff := by
    unfold State.unitPart
    split
    · exact ⟨fun p _ => by cases p <;> rfl, rfl, rfl, rfl, rfl⟩
    · exact ⟨part, hatch, twin, mono, eff⟩
  obtain ⟨part', hatch', twin', mono', eff'⟩ := whole
  obtain ⟨only, lanes, answers⟩ := unitCmd_ends runs.taken part' hatch' twin' mono' (hasStandby_congr twin' eff') paired
    (leBytes 2 (if unit = 1 then 0 else (s.rangeLanes first count).length) ++ [0, 0]) rfl
  refine ⟨_, by rw [run, unitCmd_of_paired paired]; rfl, only, fun m small => ?_, _, rfl, ?_⟩
  · rw [lanes]
    unfold State.unitPart
    by_cases twinOnly : unit = 1
    · rw [if_neg fun h => h.1 twinOnly, if_pos twinOnly]
    · rw [if_neg twinOnly]
      split
      next h => exact named m (mem_rangeLanes.2 h.2)
      next h => exact left m fun mem => h ⟨twinOnly, mem_rangeLanes.1 mem⟩
  · rw [← length_rangeLanes]
    exact answers

/-- The refusal of a UNIT that is not there (R132). -/
theorem unitCmd_refused {s : State} {mb : Nat} {q : Request} (taken : (s.box mb).taken = some q) {unit : Nat} (named : 1 ≤ unit)
    (alone : s.hasStandby = false) (payload : Bytes) (own : State → State) {o : Outcome State Fault Refusal}
    (run : o = (s.unitCmd mb q unit payload own).done) :
    Lands o fun e => Only [.hatch] s e ∧ s.Replies e mb q stBadParam [0x22, 0, 0xFF, 0xFF] :=
  ⟨_, by rw [run, unitCmd_of_alone named alone]; rfl, only_of (refuse_hatch (by decide) (by decide) (.refl _ s)),
    reply_replies taken stBadParam (reasonPayload 0x22 0xFFFF)⟩

/-! ### A lane under test -/

theorem burstDue_oneLane (s : State) (l : Nat) : s.OneLane (s.burstDue l) l := oneLane_modLane s l _

/-- The lane that enters TEST (R127, R128). -/
theorem startTest_lane (s : State) (l mode pattern : Nat) : ((s.startTest l mode pattern).lane l).st = .test ∧
    (∃ gen, ((s.startTest l mode pattern).lane l).test = { mode, pattern, startAt := s.mono, gen }) ∧ s.OneLane (s.startTest l mode pattern) l := by
  unfold State.startTest
  extract_lets idle seed u
  have own : u.lane l = { (s.lane l).enter .test s.mono with
      rxSym := 0, eyeAt := s.mono, dfeAt := s.mono, lineOut := if mode = 1 then [] else ((s.lane l).enter .test s.mono).lineOut,
      test := { mode, pattern, startAt := s.mono, gen := seed } } := setLane_modLane_lane s.tookFree l .test _
  have one : s.OneLane u l := setLane_modLane_oneLane s.tookFree l .test _
  split
  · exact ⟨by rw [own]; rfl, ⟨seed, by rw [own]⟩, one⟩
  · have burst : ∃ x, (if idle = true then u.burstDue l else u).lane l = x ∧ x.st = .test ∧
        x.test = { mode, pattern, startAt := s.mono, gen := seed } := by
      split
      · exact ⟨_, rfl, by rw [State.burstDue, lane_modLane, own]; rfl, by rw [State.burstDue, lane_modLane, own]⟩
      · exact ⟨_, rfl, by rw [own]; rfl, by rw [own]⟩
    have one' : s.OneLane (if idle = true then u.burstDue l else u) l := by
      split
      · exact one.trans (burstDue_oneLane u l)
      · exact one
    obtain ⟨x, same, st, test⟩ := burst
    obtain ⟨st', test', other⟩ := patternOut_lane (if idle = true then u.burstDue l else u) l 64
    exact ⟨st'.trans (by rw [same]; exact st), ⟨_, by rw [test', same, test]⟩, one'.trans other⟩

theorem startTest_only (s : State) (l mode pattern : Nat) : Only [.freeCount, .todo, .lanes, .links] s (s.startTest l mode pattern) :=
  only_of (startTest_keeps (by decide) (.refl _ s))

/-- LANE_TEST_START where its operands are in range and nothing turns it away (R132). -/
theorem laneTestStart_runs {s : State} {mb : Fin 8} {q : Request} (runs : s.Runs mb 0x0422 q) (lane : uAt q.payload 0 2 ≤ 131)
    (mode : uAt q.payload 2 1 ∈ [1, 2, 3]) (pat : uAt q.payload 3 1 ≤ 1) (unit : uAt q.payload 4 1 ≤ 1)
    (free : ¬(uAt q.payload 4 1 = 0 ∧ uAt q.payload 0 2 < 128 ∧ s.laneInUse (uAt q.payload 0 2) = true))
    (spare : ¬(128 ≤ uAt q.payload 0 2 ∧ s.laneUnused (uAt q.payload 0 2) = false ∧ (uAt q.payload 4 1 = 0 ∨ s.hasStandby = true))) :
    exec (.laneTestStart mb) s = (s.tookFree.unitCmd mb q (uAt q.payload 4 1)
      (leBytes 4 (if uAt q.payload 4 1 = 0 then s.shortNow else s.freeVal))
      fun s => s.startTest (uAt q.payload 0 2) (uAt q.payload 2 1) (uAt q.payload 3 1)).done := by
  simp only [List.mem_cons, List.not_mem_nil, or_false] at mode
  refine congrArg State.done ((withCmd_runs runs _ _).trans ?_)
  exact (if_neg (by omega)).trans ((if_neg free).trans (if_neg spare))

/-- LANE_TEST_START where its operands are in range and the lane is in use. -/
theorem laneTestStart_refused {s : State} {mb : Fin 8} {q : Request} (runs : s.Runs mb 0x0422 q) (lane : uAt q.payload 0 2 ≤ 131)
    (mode : uAt q.payload 2 1 ∈ [1, 2, 3]) (pat : uAt q.payload 3 1 ≤ 1) (unit : uAt q.payload 4 1 = 0) :
    (uAt q.payload 0 2 < 128 → s.laneInUse (uAt q.payload 0 2) = true →
      exec (.laneTestStart mb) s = (s.refuse mb stRefused 0x20).done) ∧
    (128 ≤ uAt q.payload 0 2 → s.laneUnused (uAt q.payload 0 2) = false →
      exec (.laneTestStart mb) s = (s.refuse mb stRefused 0x21).done) := by
  simp only [List.mem_cons, List.not_mem_nil, or_false] at mode
  refine ⟨fun cell used => ?_, fun service used => ?_⟩
  · refine congrArg State.done ((withCmd_runs runs _ _).trans ?_)
    exact (if_neg (by omega)).trans (if_pos ⟨unit, cell, used⟩)
  · refine congrArg State.done ((withCmd_runs runs _ _).trans ?_)
    exact (if_neg (by omega)).trans ((if_neg (by omega)).trans (if_pos ⟨service, used, .inl unit⟩))

/-- A refusal lands and answers with its reason. -/
theorem refuse_lands {s : State} {mb : Nat} {q : Request} (taken : (s.box mb).taken = some q) {status : Nat} (known : status ≠ stBusy) (reason : Nat)
    {o : Outcome State Fault Refusal} (run : o = (s.refuse mb status reason).done) :
    Lands o fun e => Only [.hatch] s e ∧ s.Replies e mb q status (reasonPayload reason 0xFFFF) :=
  ⟨_, run, only_of (refuse_hatch (by decide) known (.refl _ s)), reply_replies taken status (reasonPayload reason 0xFFFF)⟩

/-- A lane taken back from TEST (R132). -/
def State.stopTest (s : State) (l : Nat) : State := if (s.lane l).st = .test then s.freshAttempt l else s

theorem stopTest_lane (s : State) (l : Nat) : (if (s.lane l).st = .test
      then ((s.stopTest l).lane l).st = s.freshSt l ∧ ((s.stopTest l).lane l).test = { (s.lane l).test with mode := 0, chkLock := false }
      else (s.stopTest l).lane l = s.lane l) ∧ s.OneLane (s.stopTest l) l := by
  obtain ⟨st, other, test⟩ := freshAttempt_lane s l
  unfold State.stopTest
  split
  next => exact ⟨⟨st, test⟩, other⟩
  next => exact ⟨rfl, fun _ _ => rfl⟩

theorem stopTest_keeps {M : Nat} {s : State} (hM : Sub 81996 M) {t : State} (l : Nat) (h : Keeps M s t) : Keeps M s (t.stopTest l) :=
  keeps_ite (fun _ => freshAttempt_keeps hM h) fun _ => h

/-- LANE_TEST_STOP where its operands are in range (R132). -/
theorem laneTestStop_runs {s : State} {mb : Fin 8} {q : Request} (runs : s.Runs mb 0x0424 q) (lane : uAt q.payload 0 2 ≤ 131)
    (unit : uAt q.payload 2 1 ≤ 1) : exec (.laneTestStop mb) s =
      (s.unitCmd mb q (uAt q.payload 2 1) [] fun s => s.stopTest (uAt q.payload 0 2)).done :=
  congrArg State.done ((withCmd_runs runs _ _).trans (if_neg (by omega)))

/-- Settles O19, command by command. -/
theorem laneCommands : Obligations.LaneCommands := by
  intro s mb q first count unit hfirst hcount hunit
  subst hfirst hcount hunit
  refine ⟨fun runs ok => ⟨fun paired => ?_, fun named alone => ?_⟩, fun runs ok => ⟨fun paired => ?_, fun named alone => ?_⟩,
    fun mode pat un runs lane hmode hpat modeIs patIs unIs => ?_, fun runs lane => ⟨fun un => ?_, fun un standby free => ?_, fun un alone => ?_⟩,
    fun runs lane => ?_⟩
  · have kept : Keeps (maskOf [.freeCount, .todo, .par, .lanes, .links]) s
        ((s.rangeLanes (uAt q.payload 0 2) (uAt q.payload 2 2)).foldl State.freshAttempt s) :=
      keeps_foldl (.refl _ s) fun u l kept => freshAttempt_keeps (by decide) kept
    exact range_lands (own := fun s => List.foldl State.freshAttempt s _) runs (only_of kept) (kept.hatch (by decide)) (kept.twin (by decide))
      (kept.mono (by decide)) (foldl_freshAttempt_eff _ s) (fun m mem => foldl_freshAttempt_st (rangeLanes_nodup s _ _) mem s)
      (fun m out => foldl_lane_of_notMem (fun s l m other => (freshAttempt_lane s l).2.1 m other) out s) paired
      (congrArg State.done ((withCmd_runs runs _ _).trans (if_pos ok)))
  · exact unitCmd_refused runs.taken named alone _ _ (congrArg State.done ((withCmd_runs runs _ _).trans (if_pos ok)))
  · have kept : Keeps (maskOf [.todo, .lanes, .links]) s
        ((s.rangeLanes (uAt q.payload 0 2) (uAt q.payload 2 2)).foldl (fun s l => s.setLane l .halted) s) :=
      keeps_foldl (.refl _ s) fun u l kept => setLane_keeps (by decide) kept
    exact range_lands (own := fun s => List.foldl (fun s l => s.setLane l .halted) s _) (after := fun _ => .halted) runs (only_of kept)
      (kept.hatch (by decide)) (kept.twin (by decide)) (kept.mono (by decide)) (by rw [kept.par (by decide)])
      (fun m mem => foldl_setLane_st (rangeLanes_nodup s _ _) .halted mem s)
      (fun m out => foldl_lane_of_notMem (fun s l m other => setLane_lane_ne s other .halted) out s) paired
      (congrArg State.done ((withCmd_runs runs _ _).trans (if_pos ok)))
  · exact unitCmd_refused runs.taken named alone _ _ (congrArg State.done ((withCmd_runs runs _ _).trans (if_pos ok)))
  · subst modeIs patIs unIs
    refine ⟨fun own free => ?_, fun own cell used => ?_, fun own service used => ?_, fun other standby free spare => ?_, fun other alone => ?_⟩
    · have run := laneTestStart_runs runs lane hmode hpat (by omega)
        (fun h => by rw [if_pos h.2.1] at free; exact absurd (free.symm.trans h.2.2) (by decide))
        (fun h => by rw [if_neg (by omega)] at free; exact absurd (free.symm.trans h.2.1) (by decide))
      obtain ⟨st, ⟨gen, test⟩, one⟩ := startTest_lane s.tookFree (uAt q.payload 0 2) (uAt q.payload 2 1) (uAt q.payload 3 1)
      have kept := startTest_keeps (M := maskOf [.freeCount, .todo, .lanes, .links]) (a1 := uAt q.payload 0 2) (a2 := uAt q.payload 2 1)
        (a3 := uAt q.payload 3 1) (by decide) (tookFree_keeps (by decide) (.refl _ s))
      obtain ⟨only, replies⟩ := reply_ends runs.taken (only_of kept) (kept.hatch (by decide)) (kept.twin (by decide)) (status := stOk) (by decide)
        (leBytes 4 s.shortNow)
      rw [own] at run
      refine ⟨_, run.trans (congrArg State.done (unitCmd_of_paired (.inl rfl) _ _ _ _)), only.mono (by simp), ?_, ?_, ?_, replies⟩
      · exact (congrArg Lane.st (reply_lane _ _ _ _ _)).trans st
      · change (State.lane (State.reply _ mb stOk _) _).test = { mode := _, pattern := _, startAt := _, gen := (State.lane (State.reply _ mb stOk _) _).test.gen }
        rw [reply_lane]
        change (State.lane (State.startTest _ _ _ _) _).test = { mode := _, pattern := _, startAt := _, gen := (State.lane (State.startTest _ _ _ _) _).test.gen }
        rw [test]
        rfl
      · exact State.OneLane.trans one fun m _ => reply_lane _ _ _ _ m
    · exact refuse_lands runs.taken (by decide) 0x20 ((laneTestStart_refused runs lane hmode hpat own).1 cell used)
    · exact refuse_lands runs.taken (by decide) 0x21 ((laneTestStart_refused runs lane hmode hpat own).2 service used)
    · have run := laneTestStart_runs runs lane hmode hpat (by omega) (fun h => by omega)
        (fun h => absurd ((spare h.1).symm.trans h.2.1) (by decide))
      obtain ⟨only, -, answers⟩ := unitCmd_ends (s := s.tookFree) (u := s.tookFree) (l := []) (unit := 1) runs.taken (fun p _ => by cases p <;> rfl) rfl
        rfl rfl rfl (.inr ⟨standby, free⟩) (leBytes 4 s.freeVal) rfl
      rw [other] at run
      refine ⟨_, run.trans (congrArg State.done (unitCmd_of_paired (s := s.tookFree) (.inr ⟨standby, free⟩) _ _ _ _)), ?_, s.freeVal, answers.box, answers.others,
        answers.sent⟩
      have there : s.tookFree.hasStandby = true := standby
      rw [OnlyWrite, if_pos there] at only
      exact Only.mono (Only.trans (only_of (tookFree_keeps (M := maskOf [.freeCount]) (by decide) (.refl _ s))) only) (by simp)
    · have run := laneTestStart_runs runs lane hmode hpat (by omega) (fun h => by omega)
        (fun h => h.2.2.elim (by omega) fun there => absurd (alone.symm.trans there) (by decide))
      rw [other] at run
      obtain ⟨e, ends, only, replies⟩ := unitCmd_refused (s := s.tookFree) runs.taken (Nat.le_refl 1) alone _ _ run
      exact ⟨e, ends, (only_of (tookFree_keeps (M := maskOf [.freeCount]) (by decide) (.refl _ s))).trans only |>.mono (by simp),
        replies.from rfl rfl⟩
  · obtain ⟨own, one⟩ := stopTest_lane s (uAt q.payload 0 2)
    have kept := stopTest_keeps (M := maskOf [.freeCount, .todo, .par, .lanes, .links]) (by decide) (uAt q.payload 0 2) (.refl _ s)
    obtain ⟨only, replies⟩ := reply_ends runs.taken (only_of kept) (kept.hatch (by decide)) (kept.twin (by decide)) (status := stOk) (by decide) []
    have run : exec (.laneTestStop mb) s = _ := laneTestStop_runs runs lane (by omega)
    rw [un] at run
    refine ⟨_, run.trans (congrArg State.done (unitCmd_of_paired (.inl rfl) _ _ _ _)), only.mono (by simp), ?_, ?_, replies⟩
    · change if _ then (State.lane (State.reply _ mb stOk _) _).st = _ ∧ (State.lane (State.reply _ mb stOk _) _).test = _
        else State.lane (State.reply _ mb stOk _) _ = _
      simp only [reply_lane]
      exact own
    · exact State.OneLane.trans one fun m _ => reply_lane _ _ _ _ m
  · have run : exec (.laneTestStop mb) s = _ := laneTestStop_runs runs lane (by omega)
    rw [un] at run
    obtain ⟨only, -, answers⟩ := unitCmd_ends (s := s) (u := s) (l := []) (unit := 1) runs.taken (fun p _ => by cases p <;> rfl) rfl
        rfl rfl rfl (.inr ⟨standby, free⟩) [] rfl
    rw [OnlyWrite, if_pos standby] at only
    exact ⟨_, run.trans (congrArg State.done (unitCmd_of_paired (.inr ⟨standby, free⟩) _ _ _ _)), only.mono (by simp), answers⟩
  · have run : exec (.laneTestStop mb) s = _ := laneTestStop_runs runs lane (by omega)
    rw [un] at run
    exact unitCmd_refused runs.taken (Nat.le_refl 1) alone _ _ run
  · refine ⟨_, congrArg State.done ((withCmd_runs runs _ _).trans (if_neg (by omega))), only_of (replyOk_hatch (by decide) (.refl _ s)), ?_⟩
    exact reply_replies runs.taken _ _

end Sys2Proof.Machine
end

section
/-!
PROOFS. What a head takes from upstream blocks (R42, R139 to R161, R179 to R186). Every valid block marks its link and counts on its lane;
what a report adds is said apart, and what a stream record writes is a write through the management port.
-/

namespace Sys2Proof.Machine

open Host

theorem Keeps.weaken {M N : Nat} {s t : State} (h : Keeps M s t) (sub : Sub M N) : Keeps N s t := by
  refine ⟨fun p out => h.all p ?_, h.inv⟩
  rw [← sub, Nat.testBit_and, out, Bool.and_false]

/-! ### One link -/

theorem State.OneLink.trans {s t u : State} {l : Nat} (h : s.OneLink t l) (k : t.OneLink u l) : s.OneLink u l :=
  fun m other => (k m other).trans (h m other)

theorem oneLink_modLink (s : State) (l : Nat) (f : Link → Link) : s.OneLink (s.modLink l f) l := fun _ other => lnk_modLink_ne s other f

theorem oneLink_of_links {s t : State} (links : t.links = s.links) (l : Nat) : s.OneLink t l := fun m _ => by rw [State.lnk, links, State.lnk]

theorem Keeps.oneLink {M : Nat} {s t : State} (h : Keeps M s t) (k : M.testBit 16 = false) (l : Nat) : s.OneLink t l :=
  oneLink_of_links (h.links k) l

/-! ### A valid block (R139, R179) -/

@[simp] theorem bump_lnk (s : State) (id inst field m : Nat) : (s.bump id inst field).lnk m = s.lnk m := rfl

/-- What a valid block makes of its link. -/
def Link.heard (l : Link) (seq at_ : Nat) : Link := { l with upSeq := some seq, validAt := at_, stale := false }

/-- The blocks counted of a lane, those its SEQ implies lost among them, and the lane's history (R131, R139). -/
def State.rxCounted (s : State) (lane : Nat) (h : RxHeader) : State :=
  let gap := match (s.lnk lane).upSeq with
    | some q => (h.seq.toNat + 255 - q) % 256
    | none => 0
  let s1 := (s.bump 0x040B lane 0).modLane lane fun l => { l with hist := (false :: l.hist).take 64 }
  if lane < 128 ∧ 0 < gap then s1.bumpBy 0x050B lane 0 gap else s1

theorem rxCounted_keeps {M : Nat} {s : State} (hM : Sub 16448 M) {t : State} (lane : Nat) (h : RxHeader) (k : Keeps M s t) :
    Keeps M s (t.rxCounted lane h) := by
  have counted : Keeps M s ((t.bump 0x040B lane 0).modLane lane fun l => { l with hist := (false :: l.hist).take 64 }) :=
    modLane_keeps (Sub.trans (by decide) hM) (bump_keeps (Sub.trans (by decide) hM) k)
  exact keeps_ite (fun _ => bumpBy_keeps (Sub.trans (by decide) hM) counted) fun _ => counted

theorem rxCounted_eff (s : State) (lane : Nat) (h : RxHeader) : (s.rxCounted lane h).par.eff = s.par.eff := by
  unfold State.rxCounted
  dsimp only
  split <;> split <;> rfl

theorem rxCounted_lanes (s : State) (lane : Nat) (h : RxHeader) :
    (s.rxCounted lane h).lanes = (s.modLane lane fun l => { l with hist := (false :: l.hist).take 64 }).lanes := by
  unfold State.rxCounted
  dsimp only
  split <;> split <;> rfl

/-- The twin's stream goes on with a block on one of its lanes (R371). -/
def State.rxStream (s : State) (lane : Nat) (at_ : Nat) (lost : Bool) : State :=
  if 130 ≤ lane then
    let s1 := s.updTwin fun t => { t with rxAt := at_, streamLost := false }
    if lost then s1.later (.svcLink lane true) else s1
  else s

theorem rxStream_keeps {M : Nat} {s : State} (hM : Sub 2056 M) {t : State} (lane at_ : Nat) (lost : Bool) (k : Keeps M s t) :
    Keeps M s (t.rxStream lane at_ lost) := by
  have heard := updTwin_keeps (f := fun t => { t with rxAt := at_, streamLost := false }) (Sub.trans (by decide) hM) k
  exact keeps_ite (fun _ => keeps_ite (fun _ => later_keeps (Sub.trans (by decide) hM) heard) fun _ => heard) fun _ => k

theorem rxValid_eq (s : State) (lane : Nat) (h : RxHeader) : s.rxValid lane h =
    let s1 := ((s.rxCounted lane h).modLink lane fun l => l.heard h.seq.toNat s.mono).rxStream lane s.mono s.twin.streamLost
    if (s.lnk lane).stale then s1.condOff 0x14 lane 0 else s1 := rfl

/-- The state after a valid block, but for the end of an upstream loss. -/
def State.rxMarked (s : State) (lane : Nat) (h : RxHeader) : State :=
  ((s.rxCounted lane h).modLink lane fun l => l.heard h.seq.toNat s.mono).rxStream lane s.mono s.twin.streamLost

theorem rxValid_marked (s : State) (lane : Nat) (h : RxHeader) : Keeps 128 (s.rxMarked lane h) (s.rxValid lane h) ∧
    (s.rxValid lane h).faults.firings = (s.rxMarked lane h).faults.firings := by
  rw [rxValid_eq]
  dsimp only
  split
  · exact ⟨condOff_keeps (by decide) (.refl _ _), rfl⟩
  · exact ⟨.refl _ _, rfl⟩

/-- What a valid block leaves: its lane's history and link are its own, the parameters keep their values, and a twin lane notes the time. -/
theorem rxValid_spec (s : State) (lane : Nat) (h : RxHeader) :
    (s.rxValid lane h).lnk lane = (s.lnk lane).heard h.seq.toNat s.mono ∧ s.OneLink (s.rxValid lane h) lane ∧
    s.OneLane (s.rxValid lane h) lane ∧ (s.rxValid lane h).par.eff = s.par.eff ∧ (s.rxValid lane h).faults.firings = s.faults.firings ∧
    (s.rxValid lane h).links.wptr = s.links.wptr ∧ (130 ≤ lane → (s.rxValid lane h).twin.rxAt = s.mono) := by
  obtain ⟨after, firings⟩ := rxValid_marked s lane h
  have counted := rxCounted_keeps (M := 16448) (by decide) lane h (.refl _ s)
  have stream := rxStream_keeps (M := 2056) (by decide) lane s.mono s.twin.streamLost
    (.refl _ ((s.rxCounted lane h).modLink lane fun l => l.heard h.seq.toNat s.mono))
  have links := (after.links (by decide)).trans (stream.links (by decide))
  have lanes := (after.lanes (by decide)).trans (stream.lanes (by decide))
  have lnk : ∀ m, (s.rxValid lane h).lnk m = ((s.rxCounted lane h).modLink lane fun l => l.heard h.seq.toNat s.mono).lnk m := fun m => by
    rw [State.lnk, links, State.lnk]
  refine ⟨?_, fun m other => ?_, fun m other => ?_, ?_, ?_, ?_, fun twinLane => ?_⟩
  · rw [lnk, lnk_modLink, counted.lnk (by decide)]
  · rw [lnk, lnk_modLink_ne _ other, counted.lnk (by decide)]
  · rw [State.lane, lanes]
    change ((s.rxCounted lane h).lanes.lane.get {} m) = _
    rw [rxCounted_lanes]
    exact lane_modLane_ne s other _
  · rw [after.par (by decide), State.rxMarked, stream.par (by decide)]
    exact rxCounted_eff s lane h
  · rw [firings, State.rxMarked, stream.faults (by decide)]
    exact counted.firings (by decide)
  · rw [links]
    exact (congrArg Links.wptr (counted.links (by decide)) :)
  · rw [after.twin (by decide), State.rxMarked, State.rxStream, if_pos twinLane]
    dsimp only
    split <;> rfl

/-- A block of a cell lane changes counts, the fault conditions, its lane and its link. -/
theorem rxCommon_cell {M : Nat} {s : State} (hM : Sub 82112 M) {t : State} {lane : Nat} {h : RxHeader} (cell : lane < 128)
    (k : Keeps M s t) : Keeps M s (t.rxCommon lane h) :=
  keeps_ite (fun _ => rxValid_cell hM cell k) fun _ => bump_keeps (Sub.trans (by decide) hM) (rxValid_cell hM cell k)

theorem rxCommon_spec (s : State) (lane : Nat) (h : RxHeader) :
    (s.rxCommon lane h).lnk lane = (s.lnk lane).heard h.seq.toNat s.mono ∧ s.OneLink (s.rxCommon lane h) lane ∧
    (s.rxCommon lane h).par.eff = s.par.eff ∧ (s.rxCommon lane h).faults.firings = s.faults.firings ∧
    (s.rxCommon lane h).links.wptr = s.links.wptr := by
  obtain ⟨own, other, -, eff, firings, wptr, -⟩ := rxValid_spec s lane h
  unfold State.rxCommon
  dsimp only
  split
  · exact ⟨own, other, eff, firings, wptr⟩
  · exact ⟨own, other, eff, firings, wptr⟩

/-- A block of the unit's own epoch is taken by its row (R148). -/
theorem rxPort_of_tag {s : State} {lane : Nat} {h : RxHeader} (tag : h.etag.toNat = s.twin.epoch % 4) (f : State → State) :
    s.rxPort lane h f = f (s.rxValid lane h) := if_pos tag

/-- A received block is taken while its lane is block-locked (R109). -/
theorem onRx_lands {s e : State} {lane : Nat} {f : State → State} {P : State → Prop} (receives : (s.lane lane).st.receives = true)
    (ends : f s = e) (holds : P e) : Lands (s.onRx lane f) P := ⟨e, by rw [State.onRx, if_pos receives, ends]; rfl, holds⟩

theorem pbits_eq (p : BitVec 96) (hi lo : Nat) : pbits p hi lo = p.toNat / 2 ^ lo % 2 ^ (hi - lo + 1) := rfl

/-- The first byte of a payload is what its division leaves. -/
theorem pbits_top (p : BitVec 96) : pbits p 95 88 = p.toNat / 2 ^ 88 := by
  have lt := p.isLt
  rw [pbits_eq]
  exact Nat.mod_eq_of_lt (by omega)

/-! ### Blocks without a report (R140) -/

/-- A block that every lane can receive is marked on its link, and what a row adds on a service lane leaves lanes, links and the twin's time. -/
theorem svcTake_spec {s : State} {lane : Nat} {h : RxHeader} {f : State → State} (links : ∀ u, (f u).links = u.links)
    (lanes : ∀ u, (f u).lanes = u.lanes) (rxAt : ∀ u, (f u).twin.rxAt = u.twin.rxAt) :
    (s.svcTake lane h f).links = (s.rxValid lane h).links ∧ (s.svcTake lane h f).lanes = (s.rxValid lane h).lanes ∧
    (s.svcTake lane h f).twin.rxAt = (s.rxValid lane h).twin.rxAt := by
  unfold State.svcTake State.twinFirst
  dsimp only
  split
  · split
    · split
      · exact ⟨rfl, rfl, rfl⟩
      · exact ⟨links _, lanes _, rxAt _⟩
    · exact ⟨links _, lanes _, rxAt _⟩
  · exact ⟨links _, lanes _, rxAt _⟩

/-- What misdirected blocks count (R140, R371, R406). -/
def State.misdirected (lane : Nat) (s : State) : State :=
  if lane < 128 then s.bump 0x050B lane 3 else if lane < 130 then s.bump 0x0E05 noInst 6 else s

theorem misdirected_spec (lane : Nat) (s : State) : (s.misdirected lane).links = s.links ∧ (s.misdirected lane).lanes = s.lanes ∧
    (s.misdirected lane).twin = s.twin := by
  unfold State.misdirected
  split
  · exact ⟨rfl, rfl, rfl⟩
  · split <;> exact ⟨rfl, rfl, rfl⟩

theorem misdirected_keeps {M : Nat} {s : State} (hM : Sub 64 M) {t : State} (lane : Nat) (h : Keeps M s t) : Keeps M s (t.misdirected lane) :=
  keeps_ite (fun _ => bump_keeps hM h) fun _ => keeps_ite (fun _ => bump_keeps hM h) fun _ => h

/-- On the ring's lanes and the cells' a block changes no more than counts, conditions, its lane and its link. -/
theorem rxValid_ring {M : Nat} {s : State} (hM : Sub 82112 M) {t : State} {lane : Nat} {h : RxHeader} (ring : lane < 130)
    (k : Keeps M s t) : Keeps M s (t.rxValid lane h) := by
  have marked : t.rxMarked lane h = (t.rxCounted lane h).modLink lane fun l => l.heard h.seq.toNat t.mono := if_neg (by omega)
  have counted := modLink_keeps (a1 := lane) (a2 := fun l => l.heard h.seq.toNat t.mono) (Sub.trans (by decide) hM)
    (rxCounted_keeps (Sub.trans (by decide) hM) lane h k)
  have after := (rxValid_marked t lane h).1
  rw [marked] at after
  exact counted.trans (after.weaken (Sub.trans (by decide) hM))

/-- What a block without a report leaves (R140). -/
structure State.Plain (s e : State) (lane : Nat) (h : RxHeader) : Prop where
  parts : Only [.todo, .par, .faults, .twin, .lanes, .links] s e
  ring : lane < 130 → Only [.par, .faults, .lanes, .links] s e
  links : s.OneLink e lane
  lanes : s.OneLane e lane
  seq : (e.lnk lane).upSeq = some h.seq.toNat
  at_ : (e.lnk lane).validAt = s.mono
  stale : (e.lnk lane).stale = false
  samples : (e.lnk lane).samples = (s.lnk lane).samples
  queue : (e.lnk lane).queue = (s.lnk lane).queue
  rxAt : 130 ≤ lane → e.twin.rxAt = s.mono

theorem svcTake_plain {s : State} {lane : Nat} {h : RxHeader} {f : State → State} (links : ∀ u, (f u).links = u.links)
    (lanes : ∀ u, (f u).lanes = u.lanes) (rxAt : ∀ u, (f u).twin.rxAt = u.twin.rxAt) (counts : ∀ u, Keeps 64 u (f u)) :
    s.Plain (s.svcTake lane h f) lane h := by
  obtain ⟨own, other, lane_, -, -, -, stamped⟩ := rxValid_spec s lane h
  obtain ⟨links', lanes', rxAt'⟩ := svcTake_spec (s := s) (lane := lane) (h := h) links lanes rxAt
  have lnk : ∀ m, (s.svcTake lane h f).lnk m = (s.rxValid lane h).lnk m := fun m => by rw [State.lnk, links', State.lnk]
  refine ⟨?_, fun ring => ?_, fun m out => (lnk m).trans (other m out), fun m out => ?_, ?_, ?_, ?_, ?_, ?_, fun twinLane => ?_⟩
  · exact only_of (svcTake_keeps (by decide) (.refl _ s) fun u k => k.trans ((counts u).weaken (by decide)))
  · rw [State.svcTake, if_neg (by omega)]
    exact only_of ((rxValid_ring (by decide) ring (.refl _ s)).trans ((counts _).weaken (by decide)))
  · rw [State.lane, lanes']
    exact lane_ m out
  · rw [lnk, own]; rfl
  · rw [lnk, own]; rfl
  · rw [lnk, own]; rfl
  · rw [lnk, own]; rfl
  · rw [lnk, own]; rfl
  · rw [rxAt']
    exact stamped twinLane

/-- An IDLE of a cell lane (R139, R148). -/
theorem rxPort_plain {s : State} {lane : Nat} (h : RxHeader) (cell : lane < 128) : s.Plain (s.rxPort lane h id) lane h ∧
    (h.etag.toNat ≠ s.twin.epoch % 4 → ((s.rxPort lane h id).lnk lane).roleRepeat = true) := by
  obtain ⟨own, other, lane_, -, -, -, -⟩ := rxValid_spec s lane h
  have kept : Keeps (maskOf [.par, .faults, .lanes, .links]) s (s.rxValid lane h) := rxValid_cell (by decide) cell (.refl _ s)
  unfold State.rxPort
  dsimp only
  split
  next tag =>
    refine ⟨⟨(only_of kept).mono (by simp), fun _ => only_of kept, other, lane_, ?_, ?_, ?_, ?_, ?_, fun k => absurd k (by omega)⟩,
      fun off => absurd tag off⟩
    all_goals rw [id_eq, own]; rfl
  next off =>
    have kept' := modLink_keeps (a1 := lane) (a2 := fun l => { l with roleRepeat := true }) (by decide)
      (bump_keeps (a1 := 0x050B) (a2 := lane) (a3 := 1) (by decide) kept)
    refine ⟨⟨(only_of kept').mono (by simp), fun _ => only_of kept',
      other.trans (oneLink_modLink ((s.rxValid lane h).bump 0x050B lane 1) lane _), lane_, ?_, ?_, ?_, ?_, ?_, fun k => absurd k (by omega)⟩,
      fun _ => by rw [lnk_modLink]⟩
    all_goals rw [lnk_modLink, bump_lnk, own]; rfl

/-! ### Samples (R157) -/

/-- A channel's sample after a further value. -/
def Sample.next (o : Sample) (v : Int) (t : Nat) : Sample := { value := v, at_ := some t, value0 := o.value, at0 := o.at_ }

/-- One used value of a sample block, taken as its channel's latest (R26, R157). -/
def State.takeSample (s : State) (lane : Nat) (e : Bytes) (p : BitVec 96) (g t i : Nat) : State :=
  if eKind e (g + i) = 0 then s
  else
    (s.modLink lane fun l =>
      { l with samples := l.samples.set (g + i) ((l.samples.get {} (g + i)).next
          (convert e (g + i) (signed 16 (pbits p (63 - 16 * i) (48 - 16 * i)))) t) }).later (.sample lane (g + i))

theorem takeSample_keeps {M : Nat} {s : State} (hM : Sub 65544 M) {u : State} (lane : Nat) (e : Bytes) (p : BitVec 96) (g t i : Nat)
    (h : Keeps M s u) : Keeps M s (u.takeSample lane e p g t i) :=
  keeps_ite (fun _ => h) fun _ => later_keeps (Sub.trans (by decide) hM) (modLink_keeps (Sub.trans (by decide) hM) h)

/-- A value taken changes its channel's latest and nothing else of a link. -/
theorem takeSample_lnk (s : State) (lane : Nat) (e : Bytes) (p : BitVec 96) (g t i : Nat) :
    s.OneLink (s.takeSample lane e p g t i) lane ∧ ((s.takeSample lane e p g t i).lnk lane).health = (s.lnk lane).health ∧
    (eKind e (g + i) ≠ 0 → (((s.takeSample lane e p g t i).lnk lane).samples.get {} (g + i)).value =
      convert e (g + i) (signed 16 (pbits p (63 - 16 * i) (48 - 16 * i))) ∧
      (((s.takeSample lane e p g t i).lnk lane).samples.get {} (g + i)).at_ = some t) ∧
    ∀ c, c ≠ g + i ∨ eKind e (g + i) = 0 → ((s.takeSample lane e p g t i).lnk lane).samples.get {} c = (s.lnk lane).samples.get {} c := by
  unfold State.takeSample
  split
  next unused => exact ⟨fun _ _ => rfl, rfl, fun used => absurd unused used, fun _ _ => rfl⟩
  next used =>
    have later_ : ∀ (u : State) a m, (u.later a).lnk m = u.lnk m := fun _ _ _ => rfl
    refine ⟨fun m other => lnk_modLink_ne s other _, ?_, fun _ => ⟨?_, ?_⟩, fun c out => ?_⟩
    · rw [later_, lnk_modLink]
    · rw [later_, lnk_modLink, Tab.get_set]; rfl
    · rw [later_, lnk_modLink, Tab.get_set]; rfl
    · rw [later_, lnk_modLink, Tab.get_set_ne _ _ (out.resolve_right used)]

/-- The values of a block, taken one after the other. -/
theorem foldl_takeSample (lane : Nat) (e : Bytes) (p : BitVec 96) (g t : Nat) {l : List Nat} (once : l.Nodup) (s : State) :
    let u := l.foldl (fun s i => s.takeSample lane e p g t i) s
    s.OneLink u lane ∧ (u.lnk lane).health = (s.lnk lane).health ∧
    (∀ i ∈ l, eKind e (g + i) ≠ 0 → ((u.lnk lane).samples.get {} (g + i)).value = convert e (g + i) (signed 16 (pbits p (63 - 16 * i) (48 - 16 * i))) ∧
      ((u.lnk lane).samples.get {} (g + i)).at_ = some t) ∧
    ∀ c, (∀ i ∈ l, c ≠ g + i) ∨ eKind e c = 0 → (u.lnk lane).samples.get {} c = (s.lnk lane).samples.get {} c := by
  induction l generalizing s with
  | nil => exact ⟨fun _ _ => rfl, rfl, fun i mem => absurd mem List.not_mem_nil, fun _ _ => rfl⟩
  | cons i l ih =>
    obtain ⟨fresh, once⟩ := List.nodup_cons.1 once
    obtain ⟨one, health, taken, left⟩ := takeSample_lnk s lane e p g t i
    obtain ⟨one', health', taken', left'⟩ := ih once (s.takeSample lane e p g t i)
    refine ⟨one.trans one', health'.trans health, fun j mem used => ?_, fun c out => ?_⟩
    · obtain rfl | later := List.mem_cons.1 mem
      · rw [List.foldl_cons, left' (g + j) (.inl fun k mem same => fresh ((Nat.add_left_cancel same) ▸ mem))]
        exact taken used
      · exact taken' j later used
    · rw [List.foldl_cons, left' c (out.imp_left fun away k mem => away k (List.mem_cons_of_mem _ mem)), left c]
      obtain away | unused := out
      · exact .inl (away i List.mem_cons_self)
      · by_cases same : c = g + i
        · exact .inr (same ▸ unused)
        · exact .inl same

/-- The bits of a raw value in its block. -/
theorem pbits_raw (p : BitVec 96) {i : Nat} (small : i < 4) : pbits p (63 - 16 * i) (48 - 16 * i) = p.toNat / 2 ^ (48 - 16 * i) % 2 ^ 16 := by
  have width : 63 - 16 * i - (48 - 16 * i) + 1 = 16 := by omega
  rw [pbits_eq, width]

/-- SAMPLE_RX of a block that is not stamped too far ahead. -/
theorem sampleRx_lands {lane : Fin 128} {h : RxHeader} {p : BitVec 96} {s : State} (receives : (s.lane lane).st.receives = true) :
    Lands (exec (.sampleRx lane h p) s) fun e =>
      Only [.todo, .par, .faults, .lanes, .links] s e ∧ s.OneLink e lane ∧ (e.lnk lane).health = (s.lnk lane).health ∧
      (800 < sdiff 24 (p.toNat / 2 ^ 72 % 2 ^ 24) (s.now % 2 ^ 24) → (e.lnk lane).samples = (s.lnk lane).samples) ∧
      (sdiff 24 (p.toNat / 2 ^ 72 % 2 ^ 24) (s.now % 2 ^ 24) ≤ 800 →
        (∀ i < 4, ∀ c, c = 4 * (p.toNat / 2 ^ 64 % 2) + i → eKind (s.entry lane) c ≠ 0 →
          ((e.lnk lane).samples.get {} c).value = sat16 (signed 16 (p.toNat / 2 ^ (48 - 16 * i) % 2 ^ 16) * eGain (s.entry lane) c / 16384 +
            eOffset (s.entry lane) c) ∧
          ((e.lnk lane).samples.get {} c).at_ = some ((s.now : Int) + sdiff 24 (p.toNat / 2 ^ 72 % 2 ^ 24) (s.now % 2 ^ 24)).toNat) ∧
        (∀ c, c / 4 ≠ p.toNat / 2 ^ 64 % 2 ∨ eKind (s.entry lane) c = 0 → (e.lnk lane).samples.get {} c = (s.lnk lane).samples.get {} c)) := by
  obtain ⟨own, other, -, -, -⟩ := rxCommon_spec s lane h
  have kept : Keeps (maskOf [.todo, .par, .faults, .lanes, .links]) s (s.rxCommon lane h) := rxCommon_cell (by decide) lane.isLt (.refl _ s)
  have group : pbits p 71 64 % 2 = p.toNat / 2 ^ 64 % 2 := by rw [pbits_eq]; omega
  have stamp : p.toNat / 2 ^ 72 % 2 ^ 24 = pbits p 95 72 := (pbits_eq p 95 72).symm
  rw [stamp]
  generalize far : sdiff 24 (pbits p 95 72) (s.now % 2 ^ 24) = d
  by_cases ahead : 800 < d
  · have run : exec (.sampleRx lane h p) s = ((s.rxCommon lane h).bump 0x050B lane 5).done :=
      (if_pos receives).trans (congrArg State.done (if_pos (by rw [far]; exact ahead)))
    refine ⟨_, run, ⟨only_of (bump_keeps (by decide) kept), other, ?_, fun _ => ?_, fun near => absurd near (by omega)⟩⟩
    all_goals rw [bump_lnk, own]; rfl
  · obtain ⟨one, health, taken, left⟩ := foldl_takeSample lane (s.entry lane) p (4 * (pbits p 71 64 % 2))
      ((s.now : Int) + d).toNat List.nodup_range (l := List.range 4) (s.rxCommon lane h)
    have run : exec (.sampleRx lane h p) s = ((List.range 4).foldl (fun u i => u.takeSample lane (s.entry lane) p (4 * (pbits p 71 64 % 2))
        ((s.now : Int) + d).toNat i) (s.rxCommon lane h)).done := by
      rw [← far]
      exact (if_pos receives).trans (congrArg State.done (if_neg (by rw [far]; exact ahead)))
    refine ⟨_, run, ⟨?_, other.trans one, ?_, fun far => absurd far ahead, fun _ => ⟨fun i small c channel used => ?_, fun c out => ?_⟩⟩⟩
    · exact only_of (keeps_foldl kept fun u i k => takeSample_keeps (by decide) lane _ p _ _ i k)
    · exact health.trans (by rw [own]; rfl)
    · subst channel
      rw [← group] at used ⊢
      rw [← pbits_raw p small]
      exact taken i (List.mem_range.2 small) used
    · refine (left c (out.imp_left fun away i mem same => away ?_)).trans (by rw [own]; rfl)
      have small := List.mem_range.1 mem
      rw [group] at same
      omega

end Sys2Proof.Machine
end

section
/-!
PROOFS. Health, faults and stream records of a cell (R159 to R161, R186).
-/

namespace Sys2Proof.Machine

open Host

/-! ### Health and faults (R159, R160) -/

@[simp] theorem later_lnk (s : State) (a : Act) (m : Nat) : (s.later a).lnk m = s.lnk m := rfl

theorem fire_lnk (s : State) (src inst : Nat) (args : Bytes) (m : Nat) : (s.fire src inst args).lnk m = s.lnk m :=
  (fire_keeps (M := 8440) (by decide) (.refl _ s)).lnk (by decide) m

theorem healthRx_lands {lane : Fin 128} {h : RxHeader} {p : BitVec 96} {s : State} (receives : (s.lane lane).st.receives = true) :
    Lands (exec (.healthRx lane h p) s) fun e => Only [.todo, .par, .faults, .lanes, .links] s e ∧ s.OneLink e lane ∧
      (e.lnk lane).samples = (s.lnk lane).samples ∧
      (if p.toNat / 2 ^ 88 = 1 then (e.lnk lane).health = rxBytes p ∧ (e.lnk lane).healthAt = s.shortNow
        else (e.lnk lane).health = (s.lnk lane).health ∧ (e.lnk lane).healthAt = (s.lnk lane).healthAt) := by
  obtain ⟨own, other, -⟩ := rxCommon_spec s lane h
  have kept : Keeps (maskOf [.todo, .par, .faults, .lanes, .links]) s (s.rxCommon lane h) := rxCommon_cell (by decide) lane.isLt (.refl _ s)
  rw [← pbits_top]
  split
  next used =>
    have run : exec (.healthRx lane h p) s = (((s.rxCommon lane h).modLink lane fun l =>
        { l with health := rxBytes p, healthAt := s.shortNow, healthMono := some s.mono }).later (.health lane)).done :=
      (if_pos receives).trans (congrArg State.done (if_pos used))
    refine ⟨_, run, only_of (later_keeps (by decide) (modLink_keeps (by decide) kept)), other.trans (oneLink_modLink _ lane _), ?_, ?_, ?_⟩
    all_goals rw [later_lnk, lnk_modLink]
    rw [own]; rfl
  next unused =>
    have run : exec (.healthRx lane h p) s = (s.rxCommon lane h).done := (if_pos receives).trans (congrArg State.done (if_neg unused))
    refine ⟨_, run, only_of kept, other, ?_, ?_, ?_⟩
    all_goals rw [own]; rfl

/-- The faults of a lane seen within the time in which a copy can come (R160). -/
def State.recentFaults (s : State) (lane : Nat) : List (Nat × Nat × Nat) :=
  (s.lnk lane).faultsSeen.filter fun x => decide (s.mono < x.2.2 + 2 ^ 31)

theorem recentFaults_any (s : State) (lane code t : Nat) : ((s.recentFaults lane).any fun x => x.1 == code && x.2.1 == t) = true ↔
    ∃ x ∈ (s.lnk lane).faultsSeen, x.1 = code ∧ x.2.1 = t ∧ s.mono < x.2.2 + 2 ^ 31 := by
  simp only [State.recentFaults, List.any_eq_true, List.mem_filter, decide_eq_true_eq, Bool.and_eq_true, beq_iff_eq]
  constructor
  · rintro ⟨x, ⟨mem, recent⟩, same, at_⟩
    exact ⟨x, mem, same, at_, recent⟩
  · rintro ⟨x, mem, same, at_, recent⟩
    exact ⟨x, ⟨mem, recent⟩, same, at_⟩

theorem faultRx_lands {lane : Fin 128} {h : RxHeader} {p : BitVec 96} {s : State} (receives : (s.lane lane).st.receives = true) :
    Lands (exec (.faultRx lane h p) s) fun e => s.OneLink e lane ∧
      if ∃ x ∈ (s.lnk lane).faultsSeen, x.1 = p.toNat / 2 ^ 88 ∧ x.2.1 = p.toNat / 2 ^ 32 % 2 ^ 32 ∧ s.mono < x.2.2 + 2 ^ 31
      then Only [.par, .faults, .lanes, .links] s e ∧ e.faults.firings = s.faults.firings
      else s.Fired e 0x38 ∧ Only [.todo, .hatch, .notif, .par, .faults, .pantry, .lanes, .links] s e ∧
        (e.lnk lane).faultsSeen.head? = some (p.toNat / 2 ^ 88, p.toNat / 2 ^ 32 % 2 ^ 32, s.mono) := by
  obtain ⟨-, other, -, firings, -⟩ := rxCommon_spec s lane h
  have stamp : p.toNat / 2 ^ 32 % 2 ^ 32 = pbits p 63 32 := (pbits_eq p 63 32).symm
  rw [stamp, ← pbits_top]
  by_cases copy : ((s.recentFaults lane).any fun x => x.1 == pbits p 95 88 && x.2.1 == pbits p 63 32) = true
  · have run : exec (.faultRx lane h p) s = (s.rxCommon lane h).done := (if_pos receives).trans (congrArg State.done (if_pos copy))
    refine ⟨_, run, other, ?_⟩
    rw [if_pos ((recentFaults_any s lane _ _).1 copy)]
    exact ⟨only_of (rxCommon_cell (by decide) lane.isLt (.refl _ s)), firings⟩
  · have run : exec (.faultRx lane h p) s = ((((s.rxCommon lane h).modLink lane fun l =>
        { l with faultsSeen := (pbits p 95 88, pbits p 63 32, s.mono) :: s.recentFaults lane }).fire 0x38 lane
        (leBytes 1 (pbits p 95 88) ++ leBytes 1 (pbits p 87 84) ++ leBytes 1 (pbits p 79 72) ++ leBytes 1 (pbits p 71 64) ++
          leBytes 4 (pbits p 63 32) ++ leBytes 4 (pbits p 31 0))).later (.epFault lane (pbits p 95 88))).done :=
      (if_pos receives).trans (congrArg State.done (if_neg copy))
    refine ⟨_, run, ?_, ?_⟩
    · exact other.trans ((oneLink_modLink _ lane _).trans fun m _ => (later_lnk _ _ m).trans (fire_lnk _ _ _ _ m))
    · rw [if_neg fun seen => copy ((recentFaults_any s lane _ _).2 seen)]
      refine ⟨(fire_fired _ rfl _ _).from firings, ?_, ?_⟩
      · exact only_of (later_keeps (by decide) (fire_keeps (by decide) (modLink_keeps (by decide) (rxCommon_cell (by decide) lane.isLt (.refl _ s)))))
      · rw [later_lnk, fire_lnk, lnk_modLink]
        rfl

/-! ### A write through the management port -/

/-- A write into an Off bank is dropped; any other is a write of its bytes (R429, R438). -/
theorem mpWrite_mem (s : State) (off : Nat) (v : Bytes) : (s.mpWrite off v).pantry.mem =
    if s.bankOff (off / 0x20000) = true then s.pantry.mem else s.pantry.mem.writeN off v := by
  unfold State.mpWrite State.bankTouch
  split
  · rfl
  · split <;> rfl

theorem mpWrite_eff (s : State) (off : Nat) (v : Bytes) : (s.mpWrite off v).par.eff = s.par.eff := by
  unfold State.mpWrite State.bankTouch
  split
  · rfl
  · split <;> rfl

/-! ### A stream record (R161, R186) -/

/-- What a stream record does for one slot (R161). -/
def State.streamSlot (lane : Nat) (p : BitVec 96) (s : State) (k : Nat) : State :=
  if s.pu 0x050E k 0 2 = lane then
    let w := s.links.wptr.get 0 k
    let a := s.pu 0x050E k 4 4 + w
    let clash := (s.slotOthers k).any fun x => decide (x.1 < a + 16) && decide (a < x.1 + x.2)
    let s1 := if clash then (s.updFreeCount (· + 16)).mpWrite a (s.freeBytes 16) else s.mpWrite a (rxBytes p ++ leBytes 4 s.shortNow)
    s1.updLinks fun l => { l with wptr := l.wptr.set k ((w + 16) % max 16 (s.pu 0x050E k 8 4)) }
  else s

theorem pu_congr {s t : State} (eff : t.par.eff = s.par.eff) (id inst off n : Nat) : t.pu id inst off n = s.pu id inst off n := by
  rw [State.pu, State.peff, eff, State.pu, State.peff]

theorem p0_congr {s t : State} (eff : t.par.eff = s.par.eff) (id : Nat) : t.p0 id = s.p0 id := by
  rw [State.p0, State.peff, eff, State.p0, State.peff]

/-- The bytes a slot's record leaves in the pantry, at an address. -/
def State.streamData (s : State) (p : BitVec 96) (k a : Nat) : Bytes :=
  if ((s.slotOthers k).any fun x => decide (x.1 < a + 16) && decide (a < x.1 + x.2)) = true then s.freeBytes 16
  else rxBytes p ++ leBytes 4 s.shortNow

theorem length_leBytes (n v : Nat) : (leBytes n v).length = n := by
  induction n generalizing v with
  | zero => rfl
  | succ n ih => rw [leBytes, List.length_cons, ih]

theorem length_streamData (s : State) (p : BitVec 96) (k a : Nat) : (s.streamData p k a).length = 16 := by
  unfold State.streamData
  split
  · simp [State.freeBytes]
  · simp [rxBytes, length_leBytes]

/-- A record written for the slot that names its lane. -/
theorem streamSlot_spec {s : State} {lane k : Nat} {p : BitVec 96} (names : s.pu 0x050E k 0 2 = lane) {a : Nat}
    (at_ : a = s.pu 0x050E k 4 4 + s.links.wptr.get 0 k) :
    (s.streamSlot lane p k).links = { s.links with wptr := s.links.wptr.set k ((s.links.wptr.get 0 k + 16) % max 16 (s.pu 0x050E k 8 4)) } ∧
    (s.streamSlot lane p k).par.eff = s.par.eff ∧
    (s.streamSlot lane p k).pantry.mem = (if s.bankOff (a / 0x20000) = true then s.pantry.mem else s.pantry.mem.writeN a (s.streamData p k a)) ∧
    (¬((s.slotOthers k).any fun x => decide (x.1 < a + 16) && decide (a < x.1 + x.2)) = true → (s.streamSlot lane p k).freeCount = s.freeCount) := by
  subst at_
  have touched := fun (u : State) a v => mpWrite_keeps (M := 8256) (a1 := a) (a2 := v) (by decide) (.refl _ u)
  rw [State.streamSlot, if_pos names, State.streamData]
  dsimp only
  split
  next clash =>
    refine ⟨?_, mpWrite_eff _ _ _, mpWrite_mem (s.updFreeCount (· + 16)) _ _, fun free => absurd clash free⟩
    rw [updLinks_links, (touched _ _ _).links (by decide)]
    rfl
  next free =>
    refine ⟨?_, mpWrite_eff _ _ _, mpWrite_mem s _ _, fun _ => (touched _ _ _).freeCount (by decide)⟩
    rw [updLinks_links, (touched _ _ _).links (by decide)]

theorem streamSlot_keeps {M : Nat} {s : State} (hM : Sub 73796 M) {t : State} (lane : Nat) (p : BitVec 96) (k : Nat) (h : Keeps M s t) :
    Keeps M s (t.streamSlot lane p k) := by
  refine keeps_ite (fun _ => updLinks_keeps (Sub.trans (by decide) hM) (keeps_ite (fun _ => ?_) fun _ => ?_)) fun _ => h
  · exact mpWrite_keeps (Sub.trans (by decide) hM) (updFreeCount_keeps (Sub.trans (by decide) hM) h)
  · exact mpWrite_keeps (Sub.trans (by decide) hM) h

/-- Where at most one slot names the lane, a record is what it does for that slot. -/
theorem foldl_streamSlot {lane k : Nat} {p : BitVec 96} {l : List Nat} (once : l.Nodup) (mem : k ∈ l) {s : State}
    (names : ∀ j ∈ l, s.pu 0x050E j 0 2 = lane ↔ j = k) : l.foldl (State.streamSlot lane p) s = s.streamSlot lane p k := by
  have idle : ∀ (l : List Nat) (u : State), (∀ j ∈ l, u.pu 0x050E j 0 2 ≠ lane) → l.foldl (State.streamSlot lane p) u = u := by
    intro l u
    induction l with
    | nil => intro; rfl
    | cons j l ih =>
      intro away
      rw [List.foldl_cons, State.streamSlot, if_neg (away j List.mem_cons_self)]
      exact ih fun i mem => away i (List.mem_cons_of_mem _ mem)
  induction l with
  | nil => exact absurd mem List.not_mem_nil
  | cons j l ih =>
    obtain ⟨fresh, once⟩ := List.nodup_cons.1 once
    rw [List.foldl_cons]
    by_cases same : j = k
    · subst same
      refine idle l _ fun i mem' => ?_
      rw [pu_congr (streamSlot_spec ((names j List.mem_cons_self).2 rfl) rfl).2.1]
      exact fun hit => fresh ((names i (List.mem_cons_of_mem _ mem')).1 hit ▸ mem')
    · have stays : s.streamSlot lane p j = s := if_neg fun hit => same ((names j List.mem_cons_self).1 hit)
      rw [stays]
      exact ih once ((List.mem_cons.1 mem).resolve_left (Ne.symm same)) fun i mem => names i (List.mem_cons_of_mem _ mem)

theorem streamRx_idle {lane : Fin 128} {h : RxHeader} {p : BitVec 96} {s : State} (receives : (s.lane lane).st.receives = true)
    (away : ∀ j < 4, s.pu 0x050E j 0 2 ≠ lane.val) : exec (.streamRx lane h p) s = (s.rxCommon lane h).done := by
  have eff := (rxCommon_spec s lane h).2.2.1
  refine (if_pos receives).trans (congrArg State.done ?_)
  have idle : ∀ (l : List Nat), (∀ j ∈ l, j < 4) → l.foldl (State.streamSlot lane p) (s.rxCommon lane h) = s.rxCommon lane h := by
    intro l
    induction l with
    | nil => intro; rfl
    | cons j l ih =>
      intro small
      have stays : (s.rxCommon lane h).streamSlot lane p j = s.rxCommon lane h :=
        if_neg (by rw [pu_congr eff]; exact away j (small j List.mem_cons_self))
      rw [List.foldl_cons, stays]
      exact ih fun i mem => small i (List.mem_cons_of_mem _ mem)
  exact idle (List.range 4) fun j mem => List.mem_range.1 mem

theorem streamRx_slot {lane : Fin 128} {h : RxHeader} {p : BitVec 96} {s : State} (receives : (s.lane lane).st.receives = true) {k : Nat}
    (small : k < 4) (names : ∀ j < 4, s.pu 0x050E j 0 2 = lane.val ↔ j = k) :
    exec (.streamRx lane h p) s = ((s.rxCommon lane h).streamSlot lane p k).done := by
  have eff := (rxCommon_spec s lane h).2.2.1
  refine (if_pos receives).trans (congrArg State.done (foldl_streamSlot List.nodup_range (List.mem_range.2 small) fun j mem => ?_))
  rw [pu_congr eff]
  exact names j (List.mem_range.1 mem)

theorem slotOthers_congr {s t : State} (eff : t.par.eff = s.par.eff) (notif : t.notif = s.notif) (k : Nat) : t.slotOthers k = s.slotOthers k := by
  simp only [State.slotOthers, State.pu, State.peff, eff, notif]

theorem bankOff_congr {s t : State} (eff : t.par.eff = s.par.eff) (pantry : t.pantry = s.pantry) (b : Nat) : t.bankOff b = s.bankOff b := by
  simp only [State.bankOff, State.bankPower, State.p0, State.peff, eff, pantry]

theorem streamRx_lands {lane : Fin 128} {h : RxHeader} {p : BitVec 96} {s : State} (receives : (s.lane lane).st.receives = true) {k : Nat}
    (small : k < 4) {a : Nat} (at_ : a = s.pu 0x050E k 4 4 + s.links.wptr.get 0 k) (names : ∀ j < 4, s.pu 0x050E j 0 2 = lane.val ↔ j = k)
    (wf : s.pantry.mem.wf = true) :
    Lands (exec (.streamRx lane h p) s) fun e => Only [.freeCount, .par, .faults, .pantry, .lanes, .links] s e ∧
        e.links.wptr.get 0 k = (s.links.wptr.get 0 k + 16) % max 16 (s.pu 0x050E k 8 4) ∧ s.OneLink e lane ∧
        (∀ b, b < a ∨ a + 16 ≤ b → e.pantry.mem.read b = s.pantry.mem.read b) ∧
        (s.bankOff (a / 0x20000) = true → e.pantry.mem = s.pantry.mem) ∧
        (s.bankOff (a / 0x20000) = false → (∀ x ∈ s.slotOthers k, a + 16 ≤ x.1 ∨ x.1 + x.2 ≤ a) → e.freeCount = s.freeCount ∧
          ∀ i < 16, e.pantry.mem.read (a + i) = (rxBytes p ++ leBytes 4 s.shortNow).getD i 0) := by
  obtain ⟨-, other, eff, -, wptr⟩ := rxCommon_spec s lane h
  have heard : Keeps 82112 s (s.rxCommon lane h) := rxCommon_cell (by decide) lane.isLt (.refl _ s)
  have pantry := heard.pantry (by decide)
  have others := slotOthers_congr eff (heard.notif (by decide)) k
  obtain ⟨links, -, mem, free⟩ := streamSlot_spec (s := s.rxCommon lane h) (p := p) (lane := lane) (k := k) (a := a)
    (by rw [pu_congr eff]; exact (names k small).2 rfl) (by rw [pu_congr eff, wptr]; exact at_)
  rw [bankOff_congr eff pantry, pantry] at mem
  have read : ∀ b, ((s.rxCommon lane h).streamSlot lane p k).pantry.mem.read b = if s.bankOff (a / 0x20000) = true then s.pantry.mem.read b
      else (s.pantry.mem.writeN a ((s.rxCommon lane h).streamData p k a)).read b := fun b => by rw [mem]; split <;> rfl
  refine ⟨_, streamRx_slot receives small names, ?_, ?_, ?_, fun b out => ?_, fun off => ?_, fun on apart => ?_⟩
  · exact only_of (streamSlot_keeps (by decide) lane p k (heard.weaken (by decide)))
  · rw [links, Tab.get_set, pu_congr eff, wptr]
  · refine other.trans fun m _ => ?_
    rw [State.lnk, links]
    rfl
  · rw [read]
    split
    · rfl
    · exact Memory.read_writeN_other _ a b _ (by rw [length_streamData]; exact out) wf
  · rw [mem, if_pos off]
  · have quiet : ¬(((s.rxCommon lane h).slotOthers k).any fun x => decide (x.1 < a + 16) && decide (a < x.1 + x.2)) = true := by
      rw [others]
      simp only [List.any_eq_true, Bool.and_eq_true, decide_eq_true_eq, not_exists, not_and]
      intro x mem low high
      have := apart x mem
      omega
    refine ⟨(free quiet).trans (heard.freeCount (by decide)), fun i small => ?_⟩
    have data : (s.rxCommon lane h).streamData p k a = rxBytes p ++ leBytes 4 s.shortNow := by
      rw [State.streamData, if_neg quiet, State.shortNow, heard.time (by decide)]
      rfl
    have long : i < (rxBytes p ++ leBytes 4 s.shortNow).length := by rw [← data, length_streamData]; exact small
    rw [read, if_neg (by simp [on]), data, Memory.read_writeN_same _ a i _ long wf, List.getD_eq_getElem _ _ long]

/-- Settles O20, block by block. -/
theorem cellReports : Obligations.CellReports := by
  refine ⟨fun lane h s receives c mem => ?_, fun lane h p s receives => ⟨sampleRx_lands receives, healthRx_lands receives, faultRx_lands receives,
    fun away => ?_, fun k small a at_ names wf => streamRx_lands receives small at_ names wf⟩⟩
  · suffices holds : ∃ e : State, exec c s = e.done ∧ s.Plain e lane h ∧ (lane.val < 128 → c = .idleBlockRx lane h →
        h.etag.toNat ≠ s.twin.epoch % 4 → (e.lnk lane).roleRepeat = true) by
      obtain ⟨e, run, plain, repeats⟩ := holds
      exact ⟨e, run, plain.parts, plain.ring, plain.links, plain.lanes, plain.seq, plain.at_, plain.stale, plain.samples, plain.queue, repeats,
        plain.rxAt⟩
    simp only [List.mem_cons, List.not_mem_nil, or_false] at mem
    obtain rfl | rfl := mem
    · exact ⟨s.svcTake lane h (State.misdirected lane), if_pos receives, svcTake_plain (fun u => (misdirected_spec lane u).1)
        (fun u => (misdirected_spec lane u).2.1) (fun u => by rw [(misdirected_spec lane u).2.2])
        fun u => misdirected_keeps (by decide) lane (.refl _ u), fun _ same => by cases same⟩
    · by_cases cell : lane.val < 128
      · obtain ⟨holds, repeats⟩ := rxPort_plain (s := s) h cell
        exact ⟨_, (if_pos receives).trans (congrArg State.done (if_pos cell)), holds, fun _ _ => repeats⟩
      · exact ⟨_, (if_pos receives).trans (congrArg State.done (if_neg cell)), svcTake_plain (f := id) (fun _ => rfl) (fun _ => rfl)
          (fun _ => rfl) fun u => .refl _ u, fun small => absurd small cell⟩
  · obtain ⟨-, other, -, -, wptr⟩ := rxCommon_spec s lane h
    exact ⟨_, streamRx_idle receives away, only_of (rxCommon_cell (by decide) lane.isLt (.refl _ s)), wptr, other⟩

end Sys2Proof.Machine
end

section
/-!
PROOFS. The operations of a link (R163, R165, R170 to R173): what a block queued, COAST_CFG, a PARAM exchange and the end of an authentication
leave of the lane's link, and that they leave every other.
-/

namespace Sys2Proof.Machine

open Host

/-! ### The queue -/

theorem queueLane_of_ring {l : Nat} (h : l < 131) : queueLane l = l := if_neg (by omega)

theorem queueLane_idem (l : Nat) : queueLane (queueLane l) = queueLane l := by
  by_cases h : l = 131
  · rw [h]
    rfl
  · have same : queueLane l = l := if_neg h
    rw [same, same]

theorem queueBlock_lnk (s : State) (l ty p : Nat) : (s.queueBlock l ty p).lnk (queueLane l) =
    { s.lnk (queueLane l) with queue := (s.lnk (queueLane l)).queue ++ [{ type := ty, payload := p }] } := lnk_modLink s _ _

theorem queueBlock_lnk_ne (s : State) {l m : Nat} (h : m ≠ queueLane l) (ty p : Nat) : (s.queueBlock l ty p).lnk m = s.lnk m :=
  lnk_modLink_ne s h _

theorem queueBlock_lnk_own (s : State) {l : Nat} (h : l < 131) (ty p : Nat) : (s.queueBlock l ty p).lnk l =
    { s.lnk l with queue := (s.lnk l).queue ++ [{ type := ty, payload := p }] } := by
  have own := queueBlock_lnk s l ty p
  rw [queueLane_of_ring h] at own
  exact own

theorem queueBlock_oneLink (s : State) {l : Nat} (h : l < 131) (ty p : Nat) : s.OneLink (s.queueBlock l ty p) l := fun m other =>
  queueBlock_lnk_ne s (by rw [queueLane_of_ring h]; exact other) ty p

/-! ### COAST_CFG (R165) -/

theorem idleWatch_lnk (s : State) (l : Nat) : (∃ i v, (s.idleWatch l).lnk l = { s.lnk l with idleWas := i, validAt := v }) ∧
    s.OneLink (s.idleWatch l) l := by
  unfold State.idleWatch
  dsimp only
  split
  · exact ⟨⟨_, _, rfl⟩, fun _ _ => rfl⟩
  · exact ⟨⟨_, _, lnk_modLink s l _⟩, oneLink_modLink s l _⟩

/-- A refresh of COAST_CFG touches what it keeps of it, and the queue. -/
theorem coastRefresh_lnk (s : State) {l : Nat} (h : l < 131) : (∃ i v c q, (s.coastRefresh l).lnk l =
    { s.lnk l with idleWas := i, validAt := v, coast := c, queue := q }) ∧ s.OneLink (s.coastRefresh l) l := by
  obtain ⟨⟨i, v, own⟩, other⟩ := idleWatch_lnk s l
  unfold State.coastRefresh
  dsimp only
  split
  · refine ⟨⟨i, v, some ((s.idleWatch l).coastPayload l), (s.lnk l).queue ++
      [{ type := tyCoast, payload := (s.idleWatch l).coastPayload l }], ?_⟩, other.trans ((queueBlock_oneLink _ h _ _).trans (oneLink_modLink _ l _))⟩
    rw [lnk_modLink, queueBlock_lnk_own _ h, own]
  · exact ⟨⟨i, v, _, _, own⟩, other⟩

/-! ### A PARAM exchange (R163) -/

/-- The exchange that a waiting access becomes. -/
def ParamWait.exchange (w : ParamWait) (tag at_ : Nat) : ParamExch :=
  { id := w.id, op := w.op, tag, value := w.value, tries := 1, sentAt := at_, for_ := w.for_ }

/-- An access started or put behind the one in progress touches the exchange, the accesses that wait, and the queue. -/
theorem paramStart_lnk (s : State) {l : Nat} (h : l < 131) (w : ParamWait) : (∃ x t r q, (s.paramStart l w).lnk l =
    { s.lnk l with param := x, paramTag := t, paramWait := r, queue := q }) ∧ s.OneLink (s.paramStart l w) l := by
  unfold State.paramStart
  dsimp only
  split
  · exact ⟨⟨_, _, _, _, lnk_modLink s l _⟩, oneLink_modLink s l _⟩
  · refine ⟨⟨some (w.exchange (s.lnk l).paramTag s.mono), ((s.lnk l).paramTag + 1) % 256, (s.lnk l).paramWait, (s.lnk l).queue ++
      [{ type := tyParam, payload := pf 80 w.id + pf 72 w.op + pf 64 (s.lnk l).paramTag + pf 32 w.value }], ?_⟩, (oneLink_modLink s l _).trans (queueBlock_oneLink _ h _ _)⟩
    rw [State.paramSend, queueBlock_lnk_own _ h, lnk_modLink]
    rfl

/-- With no exchange in progress an access starts. -/
theorem paramStart_of_none {s : State} {l : Nat} (h : l < 131) (none_ : (s.lnk l).param = none) (w : ParamWait) :
    ((s.paramStart l w).lnk l).param = some (w.exchange (s.lnk l).paramTag s.mono) ∧
    ((s.paramStart l w).lnk l).paramWait = (s.lnk l).paramWait ∧ ((s.paramStart l w).lnk l).floorDone = (s.lnk l).floorDone := by
  unfold State.paramStart
  dsimp only
  rw [none_]
  refine ⟨?_, ?_, ?_⟩
  all_goals
    rw [if_neg (by decide), State.paramSend, queueBlock_lnk_own _ h, lnk_modLink]
  rfl

/-! ### The reply of an EP_REAUTH (R185) -/

@[simp] theorem reply_lnk (s : State) (mb status : Nat) (payload : Bytes) (l : Nat) : (s.reply mb status payload).lnk l = s.lnk l :=
  (reply_keeps (M := 80) (by decide) (.refl _ s)).lnk (by decide) l

theorem reauthReply_lnk (s : State) (l code : Nat) : (s.reauthReply l code).lnk l = { s.lnk l with authMb := none } ∧
    s.OneLink (s.reauthReply l code) l := by
  unfold State.reauthReply
  split
  · refine ⟨?_, fun m other => ?_⟩
    · exact (reply_lnk _ _ _ _ l).trans (lnk_modLink s l _)
    · exact (reply_lnk _ _ _ _ m).trans (lnk_modLink_ne s other _)
  · rename_i none_
    exact ⟨by rw [← none_], fun _ _ => rfl⟩

theorem reauthReply_of_some {s : State} {l mb : Nat} (waits : (s.lnk l).authMb = some mb) (code : Nat) : s.reauthReply l code =
    (s.modLink l fun l => { l with authMb := none }).reply mb stOk (leBytes 1 code ++ [0, 0, 0]) := by
  rw [State.reauthReply, waits]
  rfl

theorem reauthReply_of_none {s : State} {l : Nat} (none_ : (s.lnk l).authMb = none) (code : Nat) : s.reauthReply l code = s := by
  rw [State.reauthReply, none_]

/-! ### The end of an authentication (R172) -/

/-- The state after a passed exchange, but for the reply of a mailbox that waits for it. -/
def State.authPassed (s : State) (l : Nat) (as_ : AuthSt) : State :=
  ((((s.modLink l fun l => { l with auth := as_ }).updDt fun d =>
    { d with lane := d.lane.mod {} l fun l => { l with floor := none } }).coastRefresh l).condOff 0x39 l 0).paramStart l
      { id := 0x000B, op := 0, value := 0, for_ := .dtFloor }

theorem authPass_eq (s : State) (l : Nat) (as_ : AuthSt) : s.authPass l as_ = (s.authPassed l as_).reauthReply l (if as_ = .open_ then 4 else 2) := rfl

theorem authPassed_keeps {M : Nat} {s : State} (hM : Sub 589952 M) {t : State} (l : Nat) (as_ : AuthSt) (h : Keeps M s t) :
    Keeps M s (t.authPassed l as_) :=
  paramStart_keeps (Sub.trans (by decide) hM) (condOff_keeps (Sub.trans (by decide) hM) (coastRefresh_keeps (Sub.trans (by decide) hM)
    (updDt_keeps (Sub.trans (by decide) hM) (modLink_keeps (Sub.trans (by decide) hM) h))))

theorem authPassed_spec (s : State) {l : Nat} (h : l < 131) (as_ : AuthSt) : ((s.authPassed l as_).lnk l).auth = as_ ∧
    ((s.authPassed l as_).lnk l).authMb = (s.lnk l).authMb ∧ s.OneLink (s.authPassed l as_) l ∧
    ((s.authPassed l as_).dt.lane.get {} l).floor = none := by
  have refreshed := coastRefresh_lnk ((s.modLink l fun l => { l with auth := as_ }).updDt fun d =>
    { d with lane := d.lane.mod {} l fun l => { l with floor := none } }) h
  obtain ⟨⟨i, v, c, q, own⟩, other⟩ := refreshed
  obtain ⟨⟨x, t, r, q', own'⟩, other'⟩ := paramStart_lnk ((((s.modLink l fun l => { l with auth := as_ }).updDt fun d =>
    { d with lane := d.lane.mod {} l fun l => { l with floor := none } }).coastRefresh l).condOff 0x39 l 0) h
      { id := 0x000B, op := 0, value := 0, for_ := .dtFloor }
  have cond : ∀ (u : State) m, (u.condOff 0x39 l 0).lnk m = u.lnk m := fun _ _ => rfl
  have floors : ∀ (u : State) f m, (u.updDt f).lnk m = u.lnk m := fun _ _ _ => rfl
  rw [cond, own, floors, lnk_modLink] at own'
  refine ⟨by rw [State.authPassed, own'], by rw [State.authPassed, own'],
    (oneLink_modLink s l _).trans (State.OneLink.trans other (fun m out => other' m out)), ?_⟩
  rw [State.authPassed, (paramStart_keeps (M := 65536) (by decide) (.refl _ _)).dt (by decide)]
  change ((State.coastRefresh _ l).dt.lane.get {} l).floor = none
  rw [(coastRefresh_keeps (M := 65536) (by decide) (.refl _ _)).dt (by decide)]
  simp

/-- A failed exchange (R172). -/
theorem authFail_spec (s : State) (l cause : Nat) : ((s.authFail l cause).lnk l).auth = .failed ∧ ((s.authFail l cause).lnk l).authAt = s.mono ∧
    ((s.authFail l cause).lnk l).headOutcome = (s.lnk l).headOutcome ∧ ((s.authFail l cause).lnk l).queue = (s.lnk l).queue ∧
    s.Fired (s.authFail l cause) 0x15 ∧ s.OneLink (s.authFail l cause) l := by
  let u := ((s.modLink l fun k => { k with auth := .failed, authAt := s.mono }).fire 0x15 l
    (leBytes 1 cause ++ leBytes 8 ((s.lnk l).authId.getD 0))).later (.memberLost l true)
  have lnk : ∀ m, u.lnk m = (s.modLink l fun k => { k with auth := .failed, authAt := s.mono }).lnk m := fun m =>
    (later_lnk _ _ m).trans (fire_lnk _ _ _ _ m)
  obtain ⟨own, other⟩ := reauthReply_lnk u l 3
  rw [lnk, lnk_modLink] at own
  have result : s.authFail l cause = u.reauthReply l 3 := rfl
  refine ⟨?_, ?_, ?_, ?_, ?_, ?_⟩
  · rw [result, own]
  · rw [result, own]
  · rw [result, own]
  · rw [result, own]
  · have fired : s.Fired u 0x15 := (fire_fired _ rfl _ _).from rfl
    rw [State.Fired, result, (reauthReply_keeps (M := 65616) (by decide) (.refl _ u)).firings (by decide)]
    exact fired
  · rw [result]
    exact State.OneLink.trans (fun m out => (lnk m).trans (lnk_modLink_ne s out _)) other

end Sys2Proof.Machine
end

section
/-!
PROOFS. Authentication and parameter exchanges of a link (R42, R148, R163, R168, R170 to R173, R205). A block of the unit's own epoch is taken on
the state its reception leaves, whose link differs in what every valid block marks.
-/

namespace Sys2Proof.Machine

open Host

/-! ### What a block is taken on -/

/-- A per-port block of the unit's epoch is taken on the state its reception leaves (R109, R148). -/
theorem taken_run {s : State} {lane : Nat} {h : RxHeader} (takes : s.Takes lane h) (f : State → State) :
    s.onRx lane (fun s => s.rxPort lane h f) = (f (s.rxValid lane h)).done :=
  (if_pos takes.receives).trans (congrArg State.done (if_pos takes.tag))

/-- What the reception of a block on a cell lane leaves for the row that takes it. -/
structure State.Heard (s u : State) (lane : Nat) : Prop where
  kept : Keeps 82112 s u
  eff : u.par.eff = s.par.eff
  firings : u.faults.firings = s.faults.firings
  links : s.OneLink u lane
  lnk : ∃ q v, u.lnk lane = { s.lnk lane with upSeq := q, validAt := v, stale := false }

theorem rxValid_heard (s : State) {lane : Nat} (cell : lane < 128) (h : RxHeader) : s.Heard (s.rxValid lane h) lane := by
  obtain ⟨own, other, -, eff, firings, -, -⟩ := rxValid_spec s lane h
  exact ⟨rxValid_cell (by decide) cell (.refl _ s), eff, firings, other, _, _, own⟩

/-! ### The identity (R42, R170) -/

/-- What an IDENT makes of a link (R42, R170, R183). -/
def Link.identified (l : Link) (p : BitVec 96) : Link :=
  { l with ident := { id := pbits p 63 0, cellType := pbits p 87 80, version := pbits p 79 64, fresh := true },
           authId := if l.auth = .running then some (pbits p 63 0) else l.authId }

theorem identCheck_lnk (s : State) (l m : Nat) : (s.identCheck l).lnk m = s.lnk m :=
  (identCheck_keeps (M := 8440) (by decide) (.refl _ s)).lnk (by decide) m

theorem authIdentRx_lands {lane : Fin 128} {h : RxHeader} {p : BitVec 96} {s : State} (takes : s.Takes lane h) (code : p.toNat / 2 ^ 88 = 0x11) :
    Lands (exec (.authIdentRx lane h p) s) fun e =>
      (e.lnk lane).ident = { id := p.toNat % 2 ^ 64, cellType := p.toNat / 2 ^ 80 % 2 ^ 8, version := p.toNat / 2 ^ 64 % 2 ^ 16, fresh := true } ∧
      (e.lnk lane).authId = (if (s.lnk lane).auth = .running then some (p.toNat % 2 ^ 64) else (s.lnk lane).authId) ∧
      Only [.todo, .hatch, .notif, .par, .faults, .pantry, .lanes, .links] s e ∧ s.OneLink e lane := by
  obtain ⟨kept, -, -, other, q, v, own⟩ := rxValid_heard s lane.isLt h
  have run : exec (.authIdentRx lane h p) s = (((s.rxValid lane h).modLink lane fun l => l.identified p).identCheck lane).done :=
    (taken_run takes _).trans (congrArg State.done (if_pos ((pbits_top p).trans code)))
  have id_ : pbits p 63 0 = p.toNat % 2 ^ 64 := by rw [pbits_eq, Nat.pow_zero, Nat.div_one]
  refine ⟨_, run, ?_, ?_, ?_, other.trans ((oneLink_modLink _ lane _).trans fun m _ => identCheck_lnk _ lane m)⟩
  · rw [identCheck_lnk, lnk_modLink, ← id_]
    rfl
  · rw [identCheck_lnk, lnk_modLink, own, ← id_]
    rfl
  · exact only_of (identCheck_keeps (by decide) (modLink_keeps (by decide) (kept.weaken (by decide))))

theorem authChallengeRx_lands {lane : Fin 128} {h : RxHeader} {p : BitVec 96} {s : State} (takes : s.Takes lane h)
    (code : p.toNat / 2 ^ 88 = 0x12) (running : (s.lnk lane).auth = .running) : Lands (exec (.authChallengeRx lane h p) s) fun e =>
      (e.lnk lane).nonceE = some (p.toNat % 2 ^ 64) ∧ (e.lnk lane).auth = .running ∧ Only [.par, .faults, .lanes, .links] s e ∧
      s.OneLink e lane := by
  obtain ⟨kept, -, -, other, q, v, own⟩ := rxValid_heard s lane.isLt h
  have id_ : pbits p 63 0 = p.toNat % 2 ^ 64 := by rw [pbits_eq, Nat.pow_zero, Nat.div_one]
  have run : exec (.authChallengeRx lane h p) s = ((s.rxValid lane h).modLink lane fun l => { l with nonceE := some (pbits p 63 0) }).done :=
    (taken_run takes _).trans (congrArg State.done (if_pos ⟨(pbits_top p).trans code, by rw [own]; exact running⟩))
  refine ⟨_, run, ?_, ?_, only_of (modLink_keeps (by decide) kept), other.trans (oneLink_modLink _ lane _)⟩
  · rw [lnk_modLink, ← id_]
  · rw [lnk_modLink, own]
    exact running

/-! ### The response (R170 to R173) -/

/-- The head's RESPONSE and RESULT, with its own outcome (R171, R172). -/
def State.respond (s : State) (lane macH code : Nat) (out : AuthSt) : State :=
  ((s.tookFree.queueBlock lane tyAuth (pf 88 2 + macH)).queueBlock lane tyAuth (pf 88 3 + pf 80 code)).modLink lane
    fun l => { l with headOutcome := some out }

theorem respond_keeps {M : Nat} {s : State} (hM : Sub 65540 M) {t : State} (lane macH code : Nat) (out : AuthSt) (h : Keeps M s t) :
    Keeps M s (t.respond lane macH code out) :=
  modLink_keeps (Sub.trans (by decide) hM) (queueBlock_keeps (Sub.trans (by decide) hM) (queueBlock_keeps (Sub.trans (by decide) hM)
    (tookFree_keeps (Sub.trans (by decide) hM) h)))

theorem respond_lnk (s : State) {lane : Nat} (h : lane < 131) (macH code : Nat) (out : AuthSt) : (s.respond lane macH code out).lnk lane =
    { s.lnk lane with headOutcome := some out, queue := (s.lnk lane).queue ++
      [{ type := tyAuth, payload := pf 88 2 + macH }, { type := tyAuth, payload := pf 88 3 + pf 80 code }] } := by
  have took : ∀ m, s.tookFree.lnk m = s.lnk m := fun _ => rfl
  rw [State.respond, lnk_modLink, queueBlock_lnk_own _ h, queueBlock_lnk_own _ h, took, List.append_assoc]
  rfl

theorem respond_oneLink (s : State) {lane : Nat} (h : lane < 131) (macH code : Nat) (out : AuthSt) :
    s.OneLink (s.respond lane macH code out) lane :=
  State.OneLink.trans (t := s.tookFree.queueBlock lane tyAuth (pf 88 2 + macH)) (queueBlock_oneLink s.tookFree h _ _)
    ((queueBlock_oneLink _ h _ _).trans (oneLink_modLink _ lane _))

/-- AUTH_RESPONSE on the state its reception leaves: the exchange's values, then the outcome. -/
def State.takeResponse (s : State) (lane : Nat) (p : BitVec 96) : State :=
  let l := s.lnk lane
  let key := match l.authId with
    | some i => s.linkKey i
    | none => none
  let i := l.authId.getD 0
  let ne := l.nonceE.getD 0
  let good := match key, l.nonceE with
    | some k, some _ => macOf k 0x45 i l.nonceH ne == pbits p 63 0
    | _, _ => false
  let open_ := decide (s.p0 0x0501 = 0) && key.isSome
  let macH := match key, l.nonceE with
    | some k, some _ => macOf k 0x48 i ne l.nonceH
    | _, _ => s.freeVal
  let out : AuthSt := if open_ then .open_ else if good then .passed else .failed
  let code := if open_ then 2 else if good then 0 else 1
  let s1 := s.respond lane macH code out
  if out = .failed then s1.authFail lane (if key.isSome then 0 else 1) else s1

theorem authResponseRx_run {lane : Fin 128} {h : RxHeader} {p : BitVec 96} {s : State} (takes : s.Takes lane h)
    (code : p.toNat / 2 ^ 88 = 0x13) (running : (s.lnk lane).auth = .running) (first : (s.lnk lane).headOutcome = none) :
    exec (.authResponseRx lane h p) s = ((s.rxValid lane h).takeResponse lane p).done := by
  obtain ⟨-, -, -, -, q, v, own⟩ := rxValid_heard s lane.isLt h
  refine (taken_run takes _).trans (congrArg State.done (if_pos ⟨(pbits_top p).trans code, ?_, ?_⟩))
  · rw [own]; exact running
  · rw [own]; exact first

/-- A right response, or any where no authentication is required (R172). -/
theorem takeResponse_right {s : State} {lane : Nat} {p : BitVec 96} {id ne : Nat} {key : Bytes} (named : (s.lnk lane).authId = some id)
    (nonce : (s.lnk lane).nonceE = some ne) (known : s.linkKey id = some key)
    (right : s.p0 0x0501 = 0 ∨ macOf key 0x45 id (s.lnk lane).nonceH ne = pbits p 63 0) : s.takeResponse lane p =
      s.respond lane (macOf key 0x48 id ne (s.lnk lane).nonceH) (if s.p0 0x0501 = 0 then 2 else 0)
        (if s.p0 0x0501 = 0 then .open_ else .passed) := by
  unfold State.takeResponse
  simp only [named, nonce, known, Option.getD_some, Option.isSome_some, Bool.and_true, decide_eq_true_eq]
  by_cases off : s.p0 0x0501 = 0
  · simp [off]
  · simp [off, right.resolve_left off]

/-- A wrong response, or one of an unknown identity (R172). -/
theorem takeResponse_wrong {s : State} {lane : Nat} {p : BitVec 96} {id : Nat} (named : (s.lnk lane).authId = some id)
    (wrong : s.linkKey id = none ∨ (s.p0 0x0501 ≠ 0 ∧ ∀ key ne, s.linkKey id = some key → (s.lnk lane).nonceE = some ne →
      macOf key 0x45 id (s.lnk lane).nonceH ne ≠ pbits p 63 0)) :
    ∃ macH cause, s.takeResponse lane p = (s.respond lane macH 1 .failed).authFail lane cause := by
  unfold State.takeResponse
  simp only [named, Option.getD_some]
  cases known : s.linkKey id with
  | none =>
    simp only [Option.isSome_none, Bool.and_false, Bool.false_eq_true, if_false, if_true]
    exact ⟨_, _, rfl⟩
  | some key =>
    obtain ⟨required, differs⟩ := wrong.resolve_left (by simp [known])
    cases nonce : (s.lnk lane).nonceE with
    | none =>
      simp only [required, decide_false, Bool.false_and, Bool.false_eq_true, if_false, if_true]
      exact ⟨_, _, rfl⟩
    | some ne =>
      have differs' : (macOf key 0x45 id (s.lnk lane).nonceH ne == pbits p 63 0) = false := by simpa using differs key ne known nonce
      simp only [required, differs', Option.getD_some, decide_false, Bool.false_and, Bool.false_eq_true, if_false, if_true]
      exact ⟨_, _, rfl⟩

theorem linkKey_congr {s t : State} (pantry : t.pantry = s.pantry) (id : Nat) : t.linkKey id = s.linkKey id := by
  rw [State.linkKey, pantry, State.linkKey]

theorem authResponseRx_right {lane : Fin 128} {h : RxHeader} {p : BitVec 96} {s : State} (takes : s.Takes lane h) {id ne : Nat} {key : Bytes}
    (code : p.toNat / 2 ^ 88 = 0x13) (running : (s.lnk lane).auth = .running) (first : (s.lnk lane).headOutcome = none)
    (named : (s.lnk lane).authId = some id) (nonce : (s.lnk lane).nonceE = some ne) (known : s.linkKey id = some key)
    (right : s.p0 0x0501 = 0 ∨ macOf key 0x45 id (s.lnk lane).nonceH ne = p.toNat % 2 ^ 64) : Lands (exec (.authResponseRx lane h p) s) fun e =>
        (e.lnk lane).headOutcome = some (if s.p0 0x0501 = 0 then .open_ else .passed) ∧ (e.lnk lane).auth = .running ∧
        (e.lnk lane).queue = (s.lnk lane).queue ++ [{ type := 0x0A, payload := 2 * 2 ^ 88 + macOf key 0x48 id ne (s.lnk lane).nonceH },
          { type := 0x0A, payload := 3 * 2 ^ 88 + (if s.p0 0x0501 = 0 then 2 * 2 ^ 80 else 0) }] ∧
        Only [.freeCount, .par, .faults, .lanes, .links] s e ∧ s.OneLink e lane := by
  obtain ⟨kept, eff, -, other, q, v, own⟩ := rxValid_heard s lane.isLt h
  have small : lane.val < 131 := by omega
  have id_ : pbits p 63 0 = p.toNat % 2 ^ 64 := by rw [pbits_eq, Nat.pow_zero, Nat.div_one]
  have p0 := p0_congr eff 0x0501
  have result := takeResponse_right (s := s.rxValid lane h) (lane := lane) (p := p) (by rw [own]; exact named) (by rw [own]; exact nonce)
    (by rw [linkKey_congr (kept.pantry (by decide))]; exact known) (by rw [p0, own, id_]; exact right)
  rw [p0, own] at result
  refine ⟨_, authResponseRx_run takes code running first, ?_⟩
  rw [result]
  have lnk := respond_lnk (s.rxValid lane h) small (macOf key 0x48 id ne (s.lnk lane).nonceH) (if s.p0 0x0501 = 0 then 2 else 0)
    (if s.p0 0x0501 = 0 then .open_ else .passed)
  rw [own] at lnk
  refine ⟨?_, ?_, ?_, only_of (respond_keeps (by decide) _ _ _ _ (kept.weaken (by decide))), other.trans (respond_oneLink _ small _ _ _)⟩
  · rw [lnk]
  · rw [lnk]; exact running
  · rw [lnk]
    have field : pf 80 (if s.p0 0x0501 = 0 then 2 else 0) = if s.p0 0x0501 = 0 then 2 * 2 ^ 80 else 0 := by split <;> rfl
    rw [field]
    rfl

theorem authResponseRx_wrong {lane : Fin 128} {h : RxHeader} {p : BitVec 96} {s : State} (takes : s.Takes lane h) {id : Nat}
    (code : p.toNat / 2 ^ 88 = 0x13) (running : (s.lnk lane).auth = .running) (first : (s.lnk lane).headOutcome = none)
    (named : (s.lnk lane).authId = some id) (wrong : s.linkKey id = none ∨ (s.p0 0x0501 ≠ 0 ∧ ∀ key ne, s.linkKey id = some key →
      (s.lnk lane).nonceE = some ne → macOf key 0x45 id (s.lnk lane).nonceH ne ≠ p.toNat % 2 ^ 64)) :
    Lands (exec (.authResponseRx lane h p) s) fun e =>
        (e.lnk lane).headOutcome = some .failed ∧ (e.lnk lane).auth = .failed ∧ s.Fired e 0x15 ∧
        (∃ m, (e.lnk lane).queue = (s.lnk lane).queue ++ [{ type := 0x0A, payload := 2 * 2 ^ 88 + m },
          { type := 0x0A, payload := 3 * 2 ^ 88 + 2 ^ 80 }]) ∧
        Only [.freeCount, .todo, .hatch, .notif, .par, .faults, .pantry, .lanes, .links] s e ∧ s.OneLink e lane := by
  obtain ⟨kept, eff, firings, other, q, v, own⟩ := rxValid_heard s lane.isLt h
  have small : lane.val < 131 := by omega
  have id_ : pbits p 63 0 = p.toNat % 2 ^ 64 := by rw [pbits_eq, Nat.pow_zero, Nat.div_one]
  obtain ⟨macH, cause, result⟩ := takeResponse_wrong (s := s.rxValid lane h) (lane := lane) (p := p) (by rw [own]; exact named) (by
    rw [linkKey_congr (kept.pantry (by decide)), p0_congr eff, own, id_]
    exact wrong)
  refine ⟨_, authResponseRx_run takes code running first, ?_⟩
  rw [result]
  have lnk := respond_lnk (s.rxValid lane h) small macH 1 .failed
  obtain ⟨auth, -, outcome, queue, fired, one⟩ := authFail_spec ((s.rxValid lane h).respond lane macH 1 .failed) lane cause
  have responded := respond_keeps (M := 65540) (by decide) lane macH 1 .failed (.refl _ (s.rxValid lane h))
  refine ⟨?_, auth, fired.from ((responded.firings (by decide)).trans firings), ⟨macH, ?_⟩, ?_, (other.trans (respond_oneLink _ small _ _ _)).trans one⟩
  · rw [outcome, lnk]
  · rw [queue, lnk, own]
    rfl
  · exact only_of (authFail_keeps (by decide) (respond_keeps (by decide) _ _ _ _ (kept.weaken (by decide))))

/-! ### The result (R172, R185) -/

theorem authResultRx_pass {lane : Fin 128} {h : RxHeader} {p : BitVec 96} {s : State} (takes : s.Takes lane h) {o : AuthSt}
    (code : p.toNat / 2 ^ 80 = 0x1400) (running : (s.lnk lane).auth = .running) (outcome : (s.lnk lane).headOutcome = some o) :
      Lands (exec (.authResultRx lane h p) s) fun e => (e.lnk lane).auth = o ∧ (e.dt.lane.get {} lane).floor = none ∧
        (∀ mb q, (s.lnk lane).authMb = some mb → (s.box mb).taken = some q →
          s.Replies e mb q stOk (leBytes 1 (if o = .open_ then 4 else 2) ++ [0, 0, 0])) ∧
        ((s.lnk lane).authMb = none → e.hatch = s.hatch) ∧
        Only [.hatch, .par, .faults, .lanes, .links, .dt] s e ∧ s.OneLink e lane := by
  obtain ⟨kept, -, -, other, sq, v, own⟩ := rxValid_heard s lane.isLt h
  have small : lane.val < 131 := by omega
  have top : pbits p 95 88 = 0x14 := by rw [pbits_top]; omega
  have zero : pbits p 87 80 = 0 := by rw [pbits_eq, code]; decide
  have run : exec (.authResultRx lane h p) s = ((s.rxValid lane h).authPass lane o).done := by
    refine (taken_run takes _).trans (congrArg State.done ((if_pos ⟨top, by rw [own]; exact running⟩).trans ((if_neg (by rw [zero]; decide)).trans ?_)))
    rw [own]
    simp only [outcome]
  obtain ⟨auth, waits, one, floor⟩ := authPassed_spec (s.rxValid lane h) small o
  obtain ⟨replied, alone⟩ := reauthReply_lnk ((s.rxValid lane h).authPassed lane o) lane (if o = .open_ then 4 else 2)
  have passed : Keeps (maskOf [.par, .faults, .lanes, .links, .dt]) s ((s.rxValid lane h).authPassed lane o) :=
    authPassed_keeps (by decide) lane o (kept.weaken (by decide))
  have mb_ : (((s.rxValid lane h).authPassed lane o).lnk lane).authMb = (s.lnk lane).authMb := by rw [waits, own]
  refine ⟨_, run, ?_, ?_, fun mb q waiting taken => ?_, fun none_ => ?_, ?_, (other.trans one).trans alone⟩
  · rw [authPass_eq, replied]
    exact auth
  · rw [authPass_eq, (reauthReply_keeps (M := 65616) (by decide) (.refl _ _)).dt (by decide)]
    exact floor
  · rw [authPass_eq, reauthReply_of_some (mb_.trans waiting)]
    have freed := modLink_keeps (a1 := lane) (a2 := fun l => { l with authMb := none }) (by decide) passed
    have hatch := freed.hatch (by decide)
    exact (reply_replies (by rw [State.box, hatch]; exact taken) _ _).from (by rw [hatch]) (by rw [freed.twin (by decide)])
  · rw [authPass_eq, reauthReply_of_none (mb_.trans none_)]
    exact passed.hatch (by decide)
  · exact only_of (authPass_keeps (by decide) (kept.weaken (by decide)))

theorem authResultRx_fail {lane : Fin 128} {h : RxHeader} {p : BitVec 96} {s : State} (takes : s.Takes lane h) (code : p.toNat / 2 ^ 88 = 0x14)
    (result : p.toNat / 2 ^ 80 % 2 ^ 8 ≠ 0) (running : (s.lnk lane).auth = .running) :
      Lands (exec (.authResultRx lane h p) s) fun e => (e.lnk lane).auth = .failed ∧ (e.lnk lane).authAt = s.mono ∧ s.Fired e 0x15 ∧
        Only [.todo, .hatch, .notif, .par, .faults, .pantry, .lanes, .links] s e ∧ s.OneLink e lane := by
  obtain ⟨kept, -, firings, other, sq, v, own⟩ := rxValid_heard s lane.isLt h
  have run : exec (.authResultRx lane h p) s = ((s.rxValid lane h).authFail lane 2).done :=
    (taken_run takes _).trans (congrArg State.done ((if_pos ⟨(pbits_top p).trans code, by rw [own]; exact running⟩).trans (if_pos result)))
  obtain ⟨auth, at_, -, -, fired, one⟩ := authFail_spec (s.rxValid lane h) lane 2
  exact ⟨_, run, auth, at_.trans (kept.mono (by decide)), fired.from firings, only_of (authFail_keeps (by decide) (kept.weaken (by decide))),
    other.trans one⟩

end Sys2Proof.Machine
end

section
/-!
PROOFS. The end of a PARAM exchange, and the replies of a delay measurement (R163, R168, R184, R205, R277, R407).
-/

namespace Sys2Proof.Machine

open Host

/-! ### The end of an exchange (R163) -/

/-- The result of an exchange handed on to what asked for it, which has ended (R163, R184, R277). -/
def State.paramHanded (s : State) (lane : Nat) (x : ParamExch) (res : Option (Nat × Nat)) : State :=
  let s1 := s.modLink lane fun l => { l with param := none }
  let s2 := match x.for_ with
    | .mailbox mb =>
      match res with
      | some (r, v) => s1.replyOk mb (leBytes 1 r ++ leBytes 1 x.tries ++ [0, 0] ++ leBytes 4 v)
      | none => (s1.refuse mb stFailed 0x26)
    | .dtFloor => (s1.modLink lane fun l => { l with floorDone := true }).later (.dtFloor lane res)
  if res.isNone then s2.bump 0x050B lane 4 else s2

theorem paramEnd_eq {s : State} {lane : Nat} {x : ParamExch} (some_ : (s.lnk lane).param = some x) (res : Option (Nat × Nat)) :
    s.paramEnd lane res = match ((s.paramHanded lane x res).lnk lane).paramWait with
      | [] => s.paramHanded lane x res
      | w :: r => ((s.paramHanded lane x res).modLink lane fun l => { l with paramWait := r }).paramStart lane w := by
  rw [State.paramEnd, some_]
  rfl

/-- The link after an exchange has been handed on. -/
theorem paramHanded_lnk (s : State) (lane : Nat) (x : ParamExch) (res : Option (Nat × Nat)) :
    (∃ f, (s.paramHanded lane x res).lnk lane = { s.lnk lane with param := none, floorDone := f } ∧
      (x.for_ = .dtFloor → f = true)) ∧ s.OneLink (s.paramHanded lane x res) lane := by
  have handed : ∃ u : State, (∀ m, (s.paramHanded lane x res).lnk m = u.lnk m) ∧ (∃ f, u.lnk lane = { s.lnk lane with param := none, floorDone := f } ∧
      (x.for_ = .dtFloor → f = true)) ∧ s.OneLink u lane := by
    have plain : ∀ m, ((s.modLink lane fun l => { l with param := none }).lnk m) = (s.modLink lane fun l => { l with param := none }).lnk m :=
      fun _ => rfl
    have ended : ((s.modLink lane fun l => { l with param := none }).lnk lane) = { s.lnk lane with param := none } := lnk_modLink s lane _
    unfold State.paramHanded
    dsimp only
    cases for_ : x.for_ with
    | mailbox mb =>
      refine ⟨s.modLink lane fun l => { l with param := none }, fun m => ?_, ⟨_, ended, fun h => by cases h⟩, oneLink_modLink s lane _⟩
      cases res with
      | none => exact reply_lnk _ _ _ _ m
      | some r => exact reply_lnk _ _ _ _ m
    | dtFloor =>
      refine ⟨(s.modLink lane fun l => { l with param := none }).modLink lane fun l => { l with floorDone := true }, fun m => ?_,
        ⟨true, ?_, fun _ => rfl⟩, (oneLink_modLink s lane _).trans (oneLink_modLink _ lane _)⟩
      · split <;> rfl
      · rw [lnk_modLink, ended]
  obtain ⟨u, same, ⟨f, own, floor⟩, other⟩ := handed
  exact ⟨⟨f, (same lane).trans own, floor⟩, fun m out => (same m).trans (other m out)⟩

/-- The next waiting access starts once an exchange has been handed on, where one waits. -/
theorem paramEnd_lnk {s : State} {lane : Nat} (small : lane < 131) {x : ParamExch} (some_ : (s.lnk lane).param = some x)
    (res : Option (Nat × Nat)) : s.OneLink (s.paramEnd lane res) lane ∧
    ((s.lnk lane).paramWait = [] → ((s.paramEnd lane res).lnk lane).param = none) ∧
    (∀ w r, (s.lnk lane).paramWait = w :: r → ((s.paramEnd lane res).lnk lane).paramWait = r ∧ ((s.paramEnd lane res).lnk lane).param =
      some (w.exchange (s.lnk lane).paramTag (s.paramHanded lane x res).mono)) ∧
    (x.for_ = .dtFloor → ((s.paramEnd lane res).lnk lane).floorDone = true) := by
  obtain ⟨⟨f, own, floor⟩, other⟩ := paramHanded_lnk s lane x res
  rw [paramEnd_eq some_, own]
  cases waits : (s.lnk lane).paramWait with
  | nil =>
    refine ⟨other, fun _ => ?_, fun w r h => (List.cons_ne_nil _ _ h.symm).elim, fun h => ?_⟩
    · simp only [own]
    · simp only [own]
      exact floor h
  | cons w r =>
    have free : (((s.paramHanded lane x res).modLink lane fun l => { l with paramWait := r }).lnk lane) =
        { s.lnk lane with param := none, floorDone := f, paramWait := r } := by rw [lnk_modLink, own]
    obtain ⟨started, left, done⟩ := paramStart_of_none small (s := (s.paramHanded lane x res).modLink lane fun l => { l with paramWait := r })
      (by rw [free]) w
    rw [free] at started left done
    dsimp only
    refine ⟨(other.trans (oneLink_modLink _ lane _)).trans (paramStart_lnk _ small w).2, fun h => (List.cons_ne_nil _ _ h).elim,
      fun w' r' h => ?_, fun h => ?_⟩
    · obtain ⟨rfl, rfl⟩ := List.cons.inj h
      exact ⟨left, started⟩
    · exact done.trans (floor h)

/-- Beyond handing an exchange on, its end touches links alone. -/
theorem paramEnd_after {s : State} {lane : Nat} {x : ParamExch} (some_ : (s.lnk lane).param = some x) (res : Option (Nat × Nat)) :
    Keeps 65536 (s.paramHanded lane x res) (s.paramEnd lane res) := by
  rw [paramEnd_eq some_]
  split
  · exact .refl _ _
  · exact paramStart_keeps (by decide) (modLink_keeps (by decide) (.refl _ _))

theorem paramHanded_mono (s : State) (lane : Nat) (x : ParamExch) (res : Option (Nat × Nat)) : (s.paramHanded lane x res).mono = s.mono := by
  unfold State.paramHanded
  dsimp only
  have handed : ∀ mb status payload, ((s.modLink lane fun l => { l with param := none }).reply mb status payload).mono = s.mono :=
    fun mb status payload => (reply_keeps (M := 80) (by decide) (.refl _ (s.modLink lane fun l => { l with param := none }))).mono (by decide)
  cases x.for_ with
  | mailbox mb =>
    cases res with
    | none => exact handed _ _ _
    | some r => exact handed _ _ _
  | dtFloor => split <;> rfl

/-- An exchange of a mailbox replies to it (R163, R184). -/
theorem paramEnd_replies {s : State} {lane : Nat} {x : ParamExch} (some_ : (s.lnk lane).param = some x) {mb : Nat} {q : Request}
    (asked : x.for_ = .mailbox mb) (taken : (s.box mb).taken = some q) :
    (∀ r v, s.Replies (s.paramEnd lane (some (r, v))) mb q stOk (leBytes 1 r ++ leBytes 1 x.tries ++ [0, 0] ++ leBytes 4 v)) ∧
    s.Replies (s.paramEnd lane none) mb q stFailed [0x26, 0, 0xFF, 0xFF] := by
  have ended : ∀ res status payload, s.paramHanded lane x res = ((s.modLink lane fun l => { l with param := none }).reply mb status payload) ∨
      s.paramHanded lane x res = ((s.modLink lane fun l => { l with param := none }).reply mb status payload).bump 0x050B lane 4 →
      s.Replies (s.paramEnd lane res) mb q status payload := by
    intro res status payload handed
    have replied : s.Replies ((s.modLink lane fun l => { l with param := none }).reply mb status payload) mb q status payload :=
      (reply_replies (by exact taken) status payload).from rfl rfl
    have box : ∀ n, (s.paramEnd lane res).box n = ((s.modLink lane fun l => { l with param := none }).reply mb status payload).box n := fun n => by
      rw [(paramEnd_after some_ res).box (by decide)]
      obtain h | h := handed <;> rw [h]
      rfl
    exact ⟨by rw [box]; exact replied.done, by rw [box]; exact replied.taken, by rw [box]; exact replied.reply, by rw [box]; exact replied.kept,
      by rw [box]; exact replied.request, fun n other => (box n).trans (replied.others n other)⟩
  refine ⟨fun r v => ended _ _ _ (.inl ?_), ended _ _ _ (.inr ?_)⟩
  · rw [State.paramHanded, asked]
    rfl
  · rw [State.paramHanded, asked]
    rfl

/-- The read of DT_FLOOR asks for no mailbox (R277). -/
theorem paramEnd_hatch {s : State} {lane : Nat} {x : ParamExch} (some_ : (s.lnk lane).param = some x) (asked : x.for_ = .dtFloor)
    (res : Option (Nat × Nat)) : (s.paramEnd lane res).hatch = s.hatch := by
  rw [(paramEnd_after some_ res).hatch (by decide), State.paramHanded, asked]
  dsimp only
  split <;> rfl

theorem paramAckRx_lands {lane : Fin 128} {h : RxHeader} {p : BitVec 96} {s : State} (takes : s.Takes lane h) {x : ParamExch}
    (some_ : (s.lnk lane).param = some x) (code : p.toNat / 2 ^ 88 = 2) (tag : p.toNat / 2 ^ 72 % 2 ^ 8 = x.tag)
    (id_ : p.toNat / 2 ^ 48 % 2 ^ 16 = x.id) :
      Lands (exec (.paramAckRx lane h p) s) fun e => Only [.todo, .hatch, .par, .faults, .lanes, .links] s e ∧ s.OneLink e lane ∧
        ((s.lnk lane).paramWait = [] → (e.lnk lane).param = none) ∧
        (∀ w r, (s.lnk lane).paramWait = w :: r → (e.lnk lane).paramWait = r ∧ (e.lnk lane).param = some
          { id := w.id, op := w.op, tag := (s.lnk lane).paramTag, value := w.value, tries := 1, sentAt := s.mono, for_ := w.for_ }) ∧
        (x.for_ = .dtFloor → (e.lnk lane).floorDone = true ∧ e.hatch = s.hatch) ∧
        ∀ mb q, x.for_ = .mailbox mb → (s.box mb).taken = some q →
          s.Replies e mb q stOk (leBytes 1 (p.toNat / 2 ^ 80 % 2 ^ 8) ++ leBytes 1 x.tries ++ [0, 0] ++ leBytes 4 (p.toNat % 2 ^ 32)) := by
  obtain ⟨kept, -, -, other, sq, v, own⟩ := rxValid_heard s lane.isLt h
  have small : lane.val < 131 := by omega
  have there : ((s.rxValid lane h).lnk lane).param = some x := by rw [own]; exact some_
  have low : p.toNat % 2 ^ 32 = pbits p 31 0 := by rw [pbits_eq, Nat.pow_zero, Nat.div_one]
  have run : exec (.paramAckRx lane h p) s = ((s.rxValid lane h).paramEnd lane (some (pbits p 87 80, pbits p 31 0))).done := by
    refine (taken_run takes _).trans (congrArg State.done ?_)
    simp only [there]
    exact if_pos ⟨(pbits_top p).trans code, tag.symm, id_.symm⟩
  obtain ⟨one, none_, some', floor⟩ := paramEnd_lnk small there (some (pbits p 87 80, pbits p 31 0))
  rw [own] at none_ some'
  refine ⟨_, run, only_of (paramEnd_keeps (by decide) (kept.weaken (by decide))), other.trans one, none_, fun w r waits => ?_,
    fun read => ⟨floor read, (paramEnd_hatch there read _).trans (kept.hatch (by decide))⟩, fun mb q asked taken => ?_⟩
  · obtain ⟨left, started⟩ := some' w r waits
    rw [paramHanded_mono, kept.mono (by decide)] at started
    exact ⟨left, started⟩
  · rw [low]
    exact ((paramEnd_replies there asked (by rw [kept.box (by decide)]; exact taken)).1 _ _).from (by rw [kept.hatch (by decide)])
      (by rw [kept.twin (by decide)])

/-! ### The reply of a delay measurement (R168, R205) -/

@[simp] theorem fire_dly (s : State) (src inst : Nat) (args : Bytes) (m : Nat) : (s.fire src inst args).dly m = s.dly m := by
  rw [State.dly, (fire_keeps (M := 8440) (by decide) (.refl _ s)).time (by decide), State.dly]

/-- A measurement touches its lane's measurements and drops, and no exchange. -/
theorem measure_spec (s : State) (l : Nat) (m : Int) : ((s.measure l m).dly l).exch = (s.dly l).exch ∧
    (∀ n, n ≠ l → (s.measure l m).dly n = s.dly n) ∧ (s.measure l m).time.tick = s.time.tick := by
  have fired : ∀ (u : State) src args, (u.fire src l args).time.tick = u.time.tick := fun u src args => by
    rw [(fire_keeps (M := 8440) (by decide) (.refl _ u)).time (by decide)]
  unfold State.measure
  dsimp only
  split
  · exact ⟨by rw [fire_dly], fun n _ => fire_dly _ _ _ _ n, fired _ _ _⟩
  · split
    · split
      · exact ⟨by rw [dly_modDly], fun n out => dly_modDly_ne s out _, rfl⟩
      · exact ⟨by rw [fire_dly, dly_modDly], fun n out => (fire_dly _ _ _ _ n).trans (dly_modDly_ne s out _), fired _ _ _⟩
    · exact ⟨by rw [dly_modDly], fun n out => dly_modDly_ne s out _, rfl⟩

theorem wrap_lt (w : Nat) (i : Int) : wrap w i < 2 ^ w := by
  have pos : (0 : Int) < (2 ^ w : Nat) := by exact_mod_cast Nat.two_pow_pos w
  have low := Int.emod_nonneg i (Int.ne_of_gt pos)
  have high := Int.emod_lt_of_pos i pos
  rw [wrap]
  omega

/-- A DELAY_RESP queued carries the number of its exchange and 32 bits of a delay (R168). -/
theorem delayResp_queue (s : State) {l : Nat} (lane : queueLane l = l) (id : Nat) (i : Int) : ∃ v < 2 ^ 32,
    ((s.queueBlock l tyTime (pf 88 2 + pf 80 id + pf 32 (wrap 32 i))).lnk l).queue =
      (s.lnk l).queue ++ [{ type := 0x06, payload := 2 * 2 ^ 88 + id * 2 ^ 80 + v * 2 ^ 32 }] := by
  have queued := queueBlock_lnk s l tyTime (pf 88 2 + pf 80 id + pf 32 (wrap 32 i))
  rw [lane] at queued
  exact ⟨wrap 32 i, wrap_lt 32 i, by rw [queued]; rfl⟩

/-- The reply of the exchange in progress (R205, R407). -/
theorem takeReply_spec {s : State} {l : Nat} (lane : queueLane l = l) {p : BitVec 96} {x : Exchange} (some_ : (s.dly l).exch = some x)
    (id_ : x.id = p.toNat / 2 ^ 80 % 2 ^ 8) :
    ((s.takeReply l p).dly l).exch = none ∧ (∀ m, m ≠ l → (s.takeReply l p).dly m = s.dly m) ∧ (s.takeReply l p).time.tick = s.time.tick ∧
    if s.mono ≤ x.at_ + 160000 ∧ x.stepNo = s.time.stepNo then
      ∃ v < 2 ^ 32, ((s.takeReply l p).lnk l).queue = (s.lnk l).queue ++ [{ type := 0x06, payload := 2 * 2 ^ 88 + x.id * 2 ^ 80 + v * 2 ^ 32 }]
    else ((s.takeReply l p).lnk l).queue = (s.lnk l).queue := by
  have same : ¬x.id ≠ pbits p 87 80 := fun h => h id_
  unfold State.takeReply
  rw [some_]
  dsimp only
  rw [if_neg same]
  by_cases late : x.at_ + us 20 < s.mono ∨ x.stepNo ≠ s.time.stepNo
  · rw [if_pos late, if_neg fun h => ?_]
    · exact ⟨by rw [dly_modDly], fun m out => dly_modDly_ne s out _, rfl, rfl⟩
    · simp only [us] at late
      omega
  · rw [if_neg late, if_pos ?_]
    · obtain ⟨exch, other, tick⟩ := measure_spec (s.modDly l fun d => { d with exch := none }) l
        ((s.fineRx - x.t1 - 16 * shortDiff (pbits p 31 0) (pbits p 63 32)) / 2)
      have lnk := fun m => (measure_keeps (M := 8952) (a1 := l) (a2 := (s.fineRx - x.t1 - 16 * shortDiff (pbits p 31 0) (pbits p 63 32)) / 2)
        (by decide) (.refl _ (s.modDly l fun d => { d with exch := none }))).lnk (by decide) m
      have dly : ∀ (u : State) ty v m, (u.queueBlock l ty v).dly m = u.dly m := fun _ _ _ _ => rfl
      refine ⟨?_, fun m out => ?_, tick, ?_⟩
      · rw [dly, exch, dly_modDly]
      · rw [dly, other m out, dly_modDly_ne s out]
      · have same : (s.lnk l).queue = (((s.modDly l fun d => { d with exch := none }).measure l
            ((s.fineRx - x.t1 - 16 * shortDiff (pbits p 31 0) (pbits p 63 32)) / 2)).lnk l).queue := by
          rw [lnk]
          rfl
        rw [same]
        exact delayResp_queue _ lane x.id _
    · simp only [us] at late
      omega

theorem rxValid_time (s : State) (lane : Nat) (h : RxHeader) : (s.rxValid lane h).time = s.time :=
  (rxValid_keeps (M := 84168) (by decide) (.refl _ s)).time (by decide)

theorem rxValid_queue (s : State) (lane : Nat) (h : RxHeader) (m : Nat) : ((s.rxValid lane h).lnk m).queue = (s.lnk m).queue := by
  obtain ⟨own, other, -⟩ := rxValid_spec s lane h
  by_cases same : m = lane
  · rw [same, own]
    rfl
  · rw [other m same]

/-- A block of a service lane is taken on a state that differs from the one its reception leaves at most in the twin's stream. -/
theorem svcTake_first {s : State} {lane : Nat} {h : RxHeader} (first : ∀ q, 130 ≤ lane → s.twin.rxSeq = some q → 0 < sdiff 8 h.seq.toNat q)
    (f : State → State) : ∃ u, s.svcTake lane h f = f u ∧ Keeps 2048 (s.rxValid lane h) u := by
  by_cases twinLane : 130 ≤ lane
  · rw [State.svcTake, if_pos twinLane, State.twinFirst]
    refine ⟨_, if_neg ?_, updTwin_keeps (by decide) (.refl _ _)⟩
    split
    · rename_i q seq
      have := first q twinLane seq
      simp only [decide_eq_true_eq]
      omega
    · decide
  · rw [State.svcTake, if_neg twinLane]
    exact ⟨_, rfl, .refl _ _⟩

theorem timeSyncReplyRx_lands {lane : Fin 132} {h : RxHeader} {p : BitVec 96} {s : State} {x : Exchange} {l : Nat} (hl : l = queueLane lane)
    (receives : (s.lane lane).st.receives = true) (tag : lane.val < 128 → h.etag.toNat = s.twin.epoch % 4)
    (first : ∀ q, 130 ≤ lane.val → s.twin.rxSeq = some q → 0 < sdiff 8 h.seq.toNat q) (code : p.toNat / 2 ^ 88 = 3)
    (some_ : (s.dly l).exch = some x) (id_ : x.id = p.toNat / 2 ^ 80 % 2 ^ 8) :
    Lands (exec (.timeSyncReplyRx lane h p) s) fun e => (e.dly l).exch = none ∧ (∀ m, m ≠ l → e.dly m = s.dly m) ∧
      Only [.todo, .hatch, .notif, .par, .faults, .time, .twin, .pantry, .lanes, .links] s e ∧ e.time.tick = s.time.tick ∧
      if s.mono ≤ x.at_ + 160000 ∧ x.stepNo = s.time.stepNo then
        ∃ v < 2 ^ 32, (e.lnk l).queue = (s.lnk l).queue ++ [{ type := 0x06, payload := 2 * 2 ^ 88 + x.id * 2 ^ 80 + v * 2 ^ 32 }]
      else (e.lnk l).queue = (s.lnk l).queue := by
  have taken : ∃ u : State, exec (.timeSyncReplyRx lane h p) s = (u.takeReply l p).done ∧ Keeps 2048 (s.rxValid lane h) u := by
    have top := (pbits_top p).trans code
    by_cases cell : lane.val < 128
    · refine ⟨s.rxValid lane h, (if_pos receives).trans (congrArg State.done ((if_pos cell).trans ((if_pos (tag cell)).trans ?_))), .refl _ _⟩
      rw [hl]
      exact if_pos top
    · obtain ⟨u, run, kept⟩ := svcTake_first first fun s => if pbits p 95 88 = 3 then s.takeReply (queueLane lane) p else s
      refine ⟨u, (if_pos receives).trans (congrArg State.done ((if_neg cell).trans (run.trans ?_))), kept⟩
      rw [hl]
      exact if_pos top
  obtain ⟨u, run, kept⟩ := taken
  have heard := rxValid_keeps (M := 84168) (a1 := lane) (a2 := h) (by decide) (.refl _ s)
  have time : u.time = s.time := (kept.time (by decide)).trans (heard.time (by decide))
  have mono : u.mono = s.mono := (kept.mono (by decide)).trans (heard.mono (by decide))
  have dly : ∀ m, u.dly m = s.dly m := fun m => by rw [State.dly, time, State.dly]
  have queue : (u.lnk l).queue = (s.lnk l).queue := by rw [kept.lnk (by decide), rxValid_queue]
  obtain ⟨exch, other, tick, answer⟩ := takeReply_spec (s := u) (l := l) (by rw [hl, queueLane_idem]) (by rw [dly]; exact some_) id_
  rw [mono, time, queue] at answer
  refine ⟨_, run, exch, fun m out => (other m out).trans (dly m), ?_, tick.trans (by rw [time]), answer⟩
  exact only_of (takeReply_keeps (by decide) ((heard.weaken (by decide)).trans (kept.weaken (by decide))))

/-- Settles O21, block by block. -/
theorem linkExchanges : Obligations.LinkExchanges :=
  ⟨fun _ _ _ _ takes => ⟨fun code => authIdentRx_lands takes code, fun code running => authChallengeRx_lands takes code running,
      fun _ _ _ code running first named nonce known right => authResponseRx_right takes code running first named nonce known right,
      fun _ code running first named wrong => authResponseRx_wrong takes code running first named wrong,
      fun _ code running outcome => authResultRx_pass takes code running outcome,
      fun code result running => authResultRx_fail takes code result running,
      fun _ some_ code tag id_ => paramAckRx_lands takes some_ code tag id_⟩,
    fun _ _ _ _ _ _ hl receives tag first code some_ id_ => timeSyncReplyRx_lands hl receives tag first code some_ id_⟩

end Sys2Proof.Machine
end

section
/-!
PROOFS. The times a link runs out of (R143, R163, R170, R172, R179, R184, R185, R204).
-/

namespace Sys2Proof.Machine

open Host

/-- No PARAM block waits in a queue of other types. -/
theorem noParam_of_types {l : List DownBlock} (types : ∀ b ∈ l, b.type ≠ 0x05) : (l.any fun b => b.type == tyParam) = false := by
  rw [List.any_eq_false]
  exact fun b mem same => types b mem (eq_of_beq same)

/-- PARAM_RETRY_TIMEOUT with an exchange in progress (R163, R184). -/
theorem paramRetryTimeout_run {lane : Fin 128} {s : State} {x : ParamExch} (some_ : (s.lnk lane).param = some x)
    (due : x.sentAt + 400000 ≤ s.mono) (free : (s.lane lane).st.working = false ∨ ∀ b ∈ (s.lnk lane).queue, b.type ≠ 0x05) :
    exec (.paramRetryTimeout lane) s =
      if x.tries < 4 ∧ (s.lane lane).st.working = true then
        ((s.modLink lane fun l => { l with param := some { x with tries := x.tries + 1, sentAt := s.mono } }).paramSend lane
          { x with tries := x.tries + 1, sentAt := s.mono }).done
      else (s.paramEnd lane none).done := by
  change execParamRetryTimeout lane s = _
  rw [execParamRetryTimeout, some_]
  exact if_pos ⟨elapsed_of_le due, free.imp_right noParam_of_types⟩

/-- An exchange started takes a nonce and sends its challenge (R170). -/
theorem authStart_spec (s : State) {l : Nat} (h : l < 131) : ((s.authStart l).lnk l).auth = .running ∧ ((s.authStart l).lnk l).authAt = s.mono ∧
    ((s.authStart l).lnk l).headOutcome = none ∧ ((s.authStart l).lnk l).queue = (s.lnk l).queue ++
      [{ type := 0x0A, payload := 2 ^ 88 + ((s.authStart l).lnk l).nonceH }] ∧ s.OneLink (s.authStart l) l := by
  have took : ∀ m, s.tookFree.lnk m = s.lnk m := fun _ => rfl
  have field : pf 88 1 = 2 ^ 88 := rfl
  refine ⟨?_, ?_, ?_, ?_, ?_⟩
  · rw [State.authStart, queueBlock_lnk_own _ h, lnk_modLink]
  · rw [State.authStart, queueBlock_lnk_own _ h, lnk_modLink]
  · rw [State.authStart, queueBlock_lnk_own _ h, lnk_modLink]
  · rw [State.authStart, queueBlock_lnk_own _ h, lnk_modLink, took, field]
    rfl
  · exact State.OneLink.trans (oneLink_modLink s.tookFree l _) (queueBlock_oneLink _ h _ _)

/-- A SYNC queued takes the next number (R204). -/
theorem queueSync_spec (s : State) {l : Nat} (h : l < 131) : ((s.queueSync l).dly l).lastSync = some s.mono ∧
    ((s.queueSync l).dly l).syncOwed = false ∧ (∀ m, m ≠ l → (s.queueSync l).dly m = s.dly m) ∧
    ((s.queueSync l).lnk l).queue = (s.lnk l).queue ++ [{ type := 0x06, payload := 2 ^ 88 + (s.dly l).nextId * 2 ^ 80 }] ∧
    s.OneLink (s.queueSync l) l := by
  have field : pf 88 1 = 2 ^ 88 := rfl
  have queued : ∀ (u : State) p m, (u.queueBlock l tyTime p).dly m = u.dly m := fun _ _ _ => rfl
  refine ⟨?_, ?_, fun m out => ?_, ?_, ?_⟩
  · rw [State.queueSync, queued, dly_modDly]
  · rw [State.queueSync, queued, dly_modDly]
  · rw [State.queueSync, queued, dly_modDly_ne s out]
  · rw [State.queueSync, queueBlock_lnk_own _ h, field]
    rfl
  · exact fun m out => queueBlock_oneLink (s.modDly l fun d =>
      { d with nextId := (d.nextId + 1) % 256, lastSync := some s.mono, syncOwed := false }) h tyTime _ m out

/-- Settles O22, timer by timer. -/
theorem linkTimers : Obligations.LinkTimers := by
  intro lane s
  have small : lane.val < 131 := by omega
  refine ⟨fun working repeats => ?_, fun x some_ due few working types => ?_, fun x some_ due ends => ?_, fun running due => ?_,
    fun failed due trained => ?_, fun working awake fresh due => ?_, fun trained owed => ?_⟩
  · exact next_if ⟨working, repeats⟩ ⟨only_of (modLink_keeps (by decide) (.refl _ s)), lnk_modLink s lane _, oneLink_modLink s lane _⟩
  · refine ⟨_, (paramRetryTimeout_run some_ due (.inr types)).trans (if_pos ⟨few, working⟩), ?_, ?_, ?_, ?_⟩
    · exact only_of (paramSend_keeps (by decide) (modLink_keeps (by decide) (.refl _ s)))
    · rw [State.paramSend, queueBlock_lnk_own _ small, lnk_modLink]
    · rw [State.paramSend, queueBlock_lnk_own _ small, lnk_modLink]
      rfl
    · exact (oneLink_modLink s lane _).trans (queueBlock_oneLink _ small _ _)
  · have free : (s.lane lane).st.working = false ∨ ∀ b ∈ (s.lnk lane).queue, b.type ≠ 0x05 := ends.imp_right And.right
    have last : ¬(x.tries < 4 ∧ (s.lane lane).st.working = true) := by
      rintro ⟨few, working⟩
      obtain idle | ⟨many, -⟩ := ends
      · exact absurd (idle.symm.trans working) (by decide)
      · omega
    obtain ⟨one, none_, -, -⟩ := paramEnd_lnk small some_ none
    exact ⟨_, (paramRetryTimeout_run some_ due free).trans (if_neg last), only_of (paramEnd_keeps (by decide) (.refl _ s)), one, none_,
      fun mb q asked taken => (paramEnd_replies some_ asked taken).2⟩
  · have others := twinAuthEnd_keeps (M := 84) (a1 := lane) (by decide) (.refl _ s)
    have run : exec (.authTimeout lane) s = ((s.twinAuthEnd lane).authFail lane 3).done := if_pos ⟨running, elapsed_of_le due⟩
    obtain ⟨auth, at_, -, -, fired, one⟩ := authFail_spec (s.twinAuthEnd lane) lane 3
    refine ⟨_, run, auth, at_.trans (others.mono (by decide)), fired.from (others.firings (by decide)), ?_,
      (others.oneLink (by decide) lane).trans one⟩
    exact only_of (authFail_keeps (by decide) (others.weaken (by decide)))
  · obtain ⟨auth, at_, outcome, queue, one⟩ := authStart_spec s small
    exact lands_if ⟨failed, elapsed_of_le due, trained⟩ ⟨auth, at_, outcome, queue, only_of (authStart_keeps (by decide) (.refl _ s)), one⟩
  · refine lands_if ⟨working, awake, fresh, elapsed_of_le due⟩ ?_
    have marked := oneLink_modLink s lane fun l => { l with stale := true }
    by_cases excused : s.darkExempt lane = true
    · rw [if_pos excused, if_pos excused]
      refine ⟨?_, only_of (later_keeps (by decide) (modLink_keeps (by decide) (.refl _ s))),
        only_of (later_keeps (by decide) (modLink_keeps (by decide) (.refl _ s))), marked⟩
      rw [later_lnk, lnk_modLink]
    · rw [if_neg excused, if_neg excused]
      have raised := condOn_keeps (M := 8440) (a1 := 0x14) (a2 := lane) (a3 := 0) (a4 := []) (by decide)
        (.refl _ (s.modLink lane fun l => { l with stale := true }))
      have fired : s.faults.present.contains { src := 0x14, inst := lane, sub := 0 } = false →
          s.Fired ((s.modLink lane fun l => { l with stale := true }).condOn 0x14 lane 0 []) 0x14 := fun absent =>
        (condOn_fired (s.modLink lane fun l => { l with stale := true }) rfl absent []).from rfl
      refine ⟨?_, fired,
        only_of (later_keeps (by decide) (condOn_keeps (by decide) (modLink_keeps (by decide) (.refl _ s)))),
        State.OneLink.trans marked (raised.oneLink (by decide) lane)⟩
      rw [later_lnk, raised.lnk (by decide), lnk_modLink]
  · obtain ⟨last, free, other, queue, one⟩ := queueSync_spec s small
    refine lands_if ⟨trained, owed.imp_right fun h => ⟨h.1, ?_⟩⟩ ⟨only_of (queueSync_keeps (by decide) (.refl _ s)), last, free, other, queue, one⟩
    obtain never | ⟨t, since, past⟩ := h.2
    · rw [never]
    · rw [since]
      obtain whole | slot := past
      · exact Bool.or_eq_true_iff.2 (.inr (elapsed_of_le whole))
      · exact Bool.or_eq_true_iff.2 (.inl (decide_eq_true slot))

end Sys2Proof.Machine
end

section
/-!
PROOFS. The values in effect: a write of a parameter, a boundary that takes a shadow value up and a start change them, and nothing else does. Said
once of each operation the protection, the roll and the faults are built from; what a unit takes for its standby then stays (R72).
-/

namespace Sys2Proof.Machine

open Host

/-! ### Counters, notifications and faults -/

/-- The mask of every part but the parameters. -/
abbrev noPar : Nat := 2 ^ 28 - 1 - 64

theorem Keeps.eff {s t : State} (h : Keeps noPar s t) : t.par.eff = s.par.eff := by rw [h.par (by decide)]

theorem foldl_eff {α : Type} (f : State → α → State) (h : ∀ s x, (f s x).par.eff = s.par.eff) (l : List α) (s : State) :
    (l.foldl f s).par.eff = s.par.eff := by
  induction l generalizing s with
  | nil => rfl
  | cons a r ih => rw [List.foldl_cons, ih, h]

@[simp] theorem bumpBy_eff (s : State) (id inst field n : Nat) : (s.bumpBy id inst field n).par.eff = s.par.eff := rfl
@[simp] theorem bump_eff (s : State) (id inst field : Nat) : (s.bump id inst field).par.eff = s.par.eff := rfl
@[simp] theorem countSave_eff (s : State) : s.countSave.par.eff = s.par.eff := rfl
@[simp] theorem saveParam_eff (s : State) (id inst : Nat) (v : Bytes) : (s.saveParam id inst v).par.eff = s.par.eff := rfl

@[simp] theorem putNote_eff (s : State) (e : Note) : (s.putNote e).par.eff = s.par.eff := by
  have drop : s.dropNote.par.eff = s.par.eff := (dropNote_keeps (M := noPar) (by decide) (.refl _ s)).eff
  unfold State.putNote
  split
  · split
    · exact drop
    · dsimp only
      obtain ⟨m, k, e⟩ := irqSince_eq s ((s.mpWrite (s.notif.base * 8192 + s.notif.head * 32) (e.bytes s.notif.phase s.notif.lost)).updNotif
        fun n => { n with head := (n.head + 1) % 256, phase := if n.head = 255 then !n.phase else n.phase, lost := false,
                          unreadAt := n.unreadAt ++ [s.mono] })
      rw [e]
      exact mpWrite_eff s _ _
  · split
    · rfl
    · exact drop

@[simp] theorem noteAt_eff (s : State) (island code time : Nat) (args : Bytes) (info : Bool) :
    (s.noteAt island code time args info).par.eff = s.par.eff := by
  rw [State.noteAt]
  split
  · rfl
  · rw [putNote_eff, updNotif_par]

@[simp] theorem note_eff (s : State) (island code : Nat) (args : Bytes) (info : Bool) : (s.note island code args info).par.eff = s.par.eff :=
  noteAt_eff ..

@[simp] theorem fireNote_eff (s : State) (src inst : Nat) (taken : Option Nat) (flags rec : Nat) (args : Bytes) (log : Bool) :
    (s.fireNote src inst taken flags rec args log).par.eff = s.par.eff := by
  rw [State.fireNote, (attic_keeps (M := noPar) (by decide) (.refl _ _)).eff, note_eff]

@[simp] theorem react_eff (s : State) (react src inst rec : Nat) : (s.react react src inst rec).par.eff = s.par.eff := by
  unfold State.react
  split <;> split <;> split <;> rfl

@[simp] theorem faultPin_eff (s : State) : s.faultPin.par.eff = s.par.eff := (faultPin_keeps (M := noPar) (by decide) (.refl _ s)).eff

@[simp] theorem fireMerge_eff (s : State) (r : FaultRec) (case1 : Bool) (src inst react : Nat) (pin inj : Bool) (args : Bytes) (log : Bool) :
    (s.fireMerge r case1 src inst react pin inj args log).par.eff = s.par.eff := by
  unfold State.fireMerge
  dsimp only
  split <;> split <;> simp only [react_eff, fireNote_eff, faultPin_eff, bump_eff, updFaults_par]

@[simp] theorem fireOpen_eff (s : State) (src inst react : Nat) (pin inj : Bool) (args : Bytes) (log : Bool) :
    (s.fireOpen src inst react pin inj args log).par.eff = s.par.eff := by
  unfold State.fireOpen
  split <;> simp only [react_eff, fireNote_eff, faultPin_eff, bump_eff, updFaults_par]

@[simp] theorem fireWith_eff (s : State) (src inst : Nat) (args : Bytes) (inj : Bool) (limit : Nat) :
    (s.fireWith src inst args inj limit).par.eff = s.par.eff := by
  unfold State.fireWith
  split
  · rfl
  · dsimp only
    generalize (if inj = true then min (s.pu 0x1701 src 0 1) limit else s.pu 0x1701 src 0 1) = react
    split
    · rw [fireMerge_eff, updFaults_par]
    · split
      · rw [fireOpen_eff, updFaults_par]
      · rw [fireNote_eff, updFaults_par]

@[simp] theorem fire_eff (s : State) (src inst : Nat) (args : Bytes) : (s.fire src inst args).par.eff = s.par.eff := fireWith_eff ..

@[simp] theorem condOn_eff (s : State) (src inst sub : Nat) (args : Bytes) : (s.condOn src inst sub args).par.eff = s.par.eff := by
  unfold State.condOn
  dsimp only
  split
  · rfl
  · rw [fire_eff, updFaults_par]

@[simp] theorem cond_eff (s : State) (on : Bool) (src inst sub : Nat) (args : Bytes) :
    (s.cond on src inst sub args).par.eff = s.par.eff := by
  unfold State.cond
  split
  · exact condOn_eff ..
  · exact (condOff_keeps (M := noPar) (by decide) (.refl _ s)).eff

/-! ### Replies -/

@[simp] theorem writeReply_eff (s : State) (mb status : Nat) (payload : Bytes) (kept : Bool) :
    (s.writeReply mb status payload kept).par.eff = s.par.eff := by
  unfold State.writeReply
  split
  · rfl
  · have ends : ∀ (u : State) r, (u.enterDone mb r).par.eff = u.par.eff := fun u r => (enterDone_keeps (M := noPar) (by decide) (.refl _ u)).eff
    dsimp only
    rw [ends]
    split <;> split <;> rfl

@[simp] theorem reply_eff (s : State) (mb status : Nat) (payload : Bytes) : (s.reply mb status payload).par.eff = s.par.eff :=
  writeReply_eff ..

@[simp] theorem answerWaiting_eff (s : State) (w : Waiting) (payload : Bytes) : (s.answerWaiting w payload).par.eff = s.par.eff := by
  have planned : ∀ (u : State) (mb : Nat), (u.plannedReply mb payload).par.eff = u.par.eff := fun u mb => by
    unfold State.plannedReply
    split
    · exact (waitFor_keeps (M := noPar) (by decide) (.refl _ u)).eff
    · exact reply_eff ..
  unfold State.answerWaiting
  refine foldl_eff _ (fun u mb => ?_) _ s
  split
  · exact planned u mb
  · rfl

/-! ### The shelves and the actions of a cell -/

@[simp] theorem addEntries_eff (s : State) (lane : Nat) (xs : List Entry) : (s.addEntries lane xs).par.eff = s.par.eff := by
  unfold State.addEntries
  dsimp only
  split <;> rfl

@[simp] theorem withdraw_eff (s : State) (lane : Nat) (p : Entry → Bool) : (s.withdraw lane p).par.eff = s.par.eff := addEntries_eff ..

@[simp] theorem sendAct_eff (s : State) (lane : Nat) (a : BypAct) (t : Int) : (s.sendAct lane a t).par.eff = s.par.eff := by
  unfold State.sendAct
  split
  · exact addEntries_eff ..
  · rfl

@[simp] theorem laneOut_eff (s : State) (lane : Nat) : (s.laneOut lane).par.eff = s.par.eff := by
  rw [State.laneOut, (modStr_keeps (M := noPar) (by decide) (dtDiscard_keeps (by decide) (modMl_keeps (by decide) (.refl _ _)))).eff,
    withdraw_eff]

@[simp] theorem tripAction_eff (s : State) (str lane : Nat) (t : Int) (again entered : Bool) :
    (s.tripAction str lane t again entered).par.eff = s.par.eff := by
  unfold State.tripAction
  dsimp only
  repeat' split
  all_goals simp only [sendAct_eff]

/-! ### Trips and bypasses -/

@[simp] theorem record_eff (s : State) (lane cause : Nat) : (s.record lane cause).par.eff = s.par.eff := by
  have held : ∀ (u : State) f, (u.modByp lane f).par.eff = u.par.eff := fun _ _ => rfl
  rw [State.record, held, answerWaiting_eff]

@[simp] theorem enterNow_eff (s : State) (lane : Nat) : (s.enterNow lane).par.eff = s.par.eff := by
  rw [State.enterNow, answerWaiting_eff, sendAct_eff, (modByp_keeps (M := noPar) (by decide) (.refl _ _)).eff, laneOut_eff]

@[simp] theorem tripLane_eff (s : State) (str lane : Nat) : (s.tripLane str lane).par.eff = s.par.eff := by
  have held : ∀ (u : State) f, (u.modByp lane f).par.eff = u.par.eff := fun _ _ => rfl
  unfold State.tripLane
  dsimp only
  split <;> split <;> simp only [tripAction_eff, answerWaiting_eff, held, laneOut_eff]

@[simp] theorem coastLanes_eff (s : State) (ls : List Nat) : (s.coastLanes ls).par.eff = s.par.eff :=
  (coastLanes_keeps (M := noPar) (by decide) (.refl _ s)).eff

@[simp] theorem tripMask_eff (s : State) (str mask lane : Nat) : (s.tripMask str mask lane).par.eff = s.par.eff := by
  unfold State.tripMask
  dsimp only
  split
  · rfl
  · rw [coastLanes_eff, note_eff, bump_eff, foldl_eff _ fun u l => tripLane_eff u str l]
    rfl

@[simp] theorem trip_eff (s : State) (str cause lane : Nat) : (s.trip str cause lane).par.eff = s.par.eff := by
  unfold State.trip
  split
  · exact tripMask_eff ..
  · rw [(twinTrip_keeps (M := noPar) (by decide) (modPrt_keeps (by decide) (.refl _ _))).eff, tripMask_eff]

@[simp] theorem urgentBypass_eff (s : State) (lane cause : Nat) : (s.urgentBypass lane cause).par.eff = s.par.eff := by
  unfold State.urgentBypass
  dsimp only
  repeat' split
  all_goals simp only [enterNow_eff, trip_eff, bump_eff, record_eff]

@[simp] theorem plannedBypass_eff (s : State) (lane cause : Nat) : (s.plannedBypass lane cause).par.eff = s.par.eff := by
  unfold State.plannedBypass
  dsimp only
  repeat' split
  all_goals simp only [enterNow_eff, trip_eff, bump_eff, record_eff]

@[simp] theorem cellFail_eff (s : State) (lane : Nat) : (s.cellFail lane).par.eff = s.par.eff := trip_eff ..

@[simp] theorem lostMember_eff (s : State) (lane : Nat) (auth : Bool) : (s.lostMember lane auth).par.eff = s.par.eff := by
  unfold State.lostMember
  dsimp only
  split
  · rfl
  split
  · split
    · exact bump_eff ..
    · exact urgentBypass_eff ..
  split
  · rw [foldl_eff _ fun u str => ?_, condOn_eff]
    · rfl
    · split
      · exact trip_eff ..
      · rfl
  · exact cellFail_eff ..

/-! ### Adoption of a roll -/

@[simp] theorem laneTypeChanged_eff (s : State) (lane old new : Nat) : (s.laneTypeChanged lane old new).par.eff = s.par.eff := by
  unfold State.laneTypeChanged
  split
  · rfl
  · exact freshAttempt_eff s lane

@[simp] theorem identCheck_eff (s : State) (lane : Nat) : (s.identCheck lane).par.eff = s.par.eff := by
  unfold State.identCheck
  dsimp only
  split
  · rw [cond_eff]
    split
    · rfl
    · exact cond_eff ..
  · rfl

@[simp] theorem adoptEnable_eff (s : State) (lane : Nat) (old new : Bytes) : (s.adoptEnable lane old new).par.eff = s.par.eff := by
  have held : ∀ (u : State) f, (u.modByp lane f).par.eff = u.par.eff := fun _ _ => rfl
  have prot : ∀ f, (s.modPrt (eStr new) f).par.eff = s.par.eff := fun _ => rfl
  have joined : (if eType new = 1 ∧ s.bypassed lane = false then
      let s1 := (s.record lane 2).modByp lane fun b => { b with enterAt := some s.now }
      if s1.limitTrips (eStr new) then s1.trip (eStr new) 8 0xFFFF else s1
    else s).par.eff = s.par.eff := by
    dsimp only
    split
    · split
      · rw [trip_eff, held, record_eff]
      · rw [held, record_eff]
    · rfl
  unfold State.adoptEnable
  dsimp only
  split
  · rfl
  split
  · exact joined
  split
  · exact plannedBypass_eff ..
  split
  · rw [trip_eff, prot]
  · rfl

@[simp] theorem adoptLane_eff (s : State) (lane : Nat) (new : Bytes) : (s.adoptLane lane new).par.eff = s.par.eff := by
  have refresh : ∀ u : State, (u.coastRefresh lane).par.eff = u.par.eff := fun u =>
    (coastRefresh_keeps (M := noPar) (by decide) (.refl _ u)).eff
  have legs : ∀ u : State, (u.dtRollChange lane).par.eff = u.par.eff := fun u => (dtRollChange_keeps (M := noPar) (by decide) (.refl _ u)).eff
  have lost : ∀ (u : State) (old : Bytes), (u.adoptLost lane old new).par.eff = u.par.eff := fun u old => by
    unfold State.adoptLost
    split
    · exact lostMember_eff ..
    · rfl
  rw [State.adoptLane, refresh, lost, adoptEnable_eff]
  split <;> split <;> simp only [legs, identCheck_eff, laneTypeChanged_eff, updRoll_par]

@[simp] theorem adoptWhere_eff (s : State) (p : State → Nat → Bool) : (s.adoptWhere p).par.eff = s.par.eff := by
  unfold State.adoptWhere
  split
  · rfl
  · exact foldl_eff _ (fun u l => adoptLane_eff u l _) _ _

@[simp] theorem adoptStr_eff (s : State) (str b : Nat) : (s.adoptStr str b).par.eff = s.par.eff := by
  unfold State.adoptStr
  split
  · split
    · exact adoptWhere_eff ..
    · rfl
  · rfl

@[simp] theorem commitRoll_eff (s : State) (set : Tab Bytes) (since : Nat) : (s.commitRoll set since).par.eff = s.par.eff := by
  rw [State.commitRoll, State.adoptStopped, adoptWhere_eff, countSave_eff, updRoll_par]

end Sys2Proof.Machine
end

section
/-!
PROOFS. The commands of the roll (R34 to R41). The shadow roll is read entry by entry, as R34 reads it; a commit's adoption is a fold over the
lanes that adopt, of which each takes its own entry and leaves every other.
-/

namespace Sys2Proof.Machine

open Host

/-! ### The end of a configuration write after an effect -/

/-- An effect that leaves the hatch, the twin, the elapsed time and the values in effect alone, and then the end of an accepted write. -/
theorem write_ends {s u : State} {l : List Part} {mb : Nat} {q : Request} (taken : (s.box mb).taken = some q) (part : Only l s u)
    (hatch : u.hatch = s.hatch) (twin : u.twin = s.twin) (mono : u.mono = s.mono) (eff : u.par.eff = s.par.eff) (payload data : Bytes) :
    OnlyWrite l s (u.finishWrite mb q payload data) ∧ s.Accepts (u.finishWrite mb q payload data) mb q payload := by
  have standby := hasStandby_congr twin eff
  have held : (u.box mb).taken = some q := by rw [State.box, hatch]; exact taken
  exact ⟨part.finishWrite standby mb q payload data, (finishWrite_accepts held payload data).from (by rw [hatch]) twin mono standby⟩

/-- The end of an accepted write answers its own mailbox, whatever its effect has answered besides. -/
theorem finishWrite_answers {s u : State} {mb : Nat} {q : Request} (taken : (u.box mb).taken = some q) (twin : u.twin = s.twin)
    (eff : u.par.eff = s.par.eff) (payload data : Bytes) : s.Answers (u.finishWrite mb q payload data) mb q payload := by
  have ends := finishWrite_accepts taken payload data
  rw [State.Accepts, hasStandby_congr twin eff] at ends
  unfold State.Answers
  split at ends
  · rename_i paired
    rw [if_pos paired, ends.box]
  · rename_i alone
    rw [if_neg alone, ← twin]
    exact ⟨ends.done, ends.taken, ends.reply⟩

/-- The end of a write takes the hatch in any case. -/
theorem OnlyWrite.of_hatch {l : List Part} {s e : State} (h : OnlyWrite (.hatch :: l) s e) : OnlyWrite l s e :=
  Only.mono h fun p mem => by
    rw [List.cons_append, List.mem_cons, List.mem_append] at *
    obtain first | more | again | last := mem.imp_right fun h => h.imp_right List.mem_cons.1
    · exact .inl first
    · exact .inr (.inl more)
    · exact .inl again
    · exact .inr (.inr last)

theorem finishWrite_roll (s : State) (mb : Nat) (q : Request) (payload data : Bytes) : (s.finishWrite mb q payload data).roll = s.roll :=
  (finishWrite_keeps (M := 67664) (by decide) (.refl _ s)).roll (by decide)

/-- A command that ends in one of two ways, as its operands say. -/
theorem lands_ite {c : Prop} [Decidable c] {o : Outcome State Fault Refusal} {P Q : State → Prop} (yes : c → Lands o P) (no : ¬c → Lands o Q) :
    Lands o fun e => if c then P e else Q e := by
  split
  · exact yes ‹_›
  · exact no ‹_›

/-! ### Entries -/

@[simp] theorem length_slice (l : Bytes) (off n : Nat) : (slice l off n).length = n := by
  rw [slice, List.length_map, List.length_range]

theorem eq_zeros_of_allZero {l : Bytes} (zero : allZero l = true) : l = List.replicate l.length 0 :=
  List.eq_replicate_iff.2 ⟨rfl, fun _ mem => eq_of_beq (List.all_eq_true.1 zero _ mem)⟩

/-- A roll with one lane's entry taken: an entry of zeros is none. -/
def takeEntry (t : Tab Bytes) (lane : Nat) (e : Bytes) : Tab Bytes := if allZero e then t.erase lane else t.set lane e

theorem entryOf_takeEntry (t : Tab Bytes) (lane : Nat) {e : Bytes} (whole : e.length = 128) : entryOf (takeEntry t lane e) lane = e := by
  unfold takeEntry entryOf
  split
  · rename_i zero
    rw [Tab.get?_erase, eq_zeros_of_allZero zero, whole]
    rfl
  · rw [Tab.get?_set]
    rfl

theorem entryOf_takeEntry_ne (t : Tab Bytes) {lane m : Nat} (e : Bytes) (other : m ≠ lane) :
    entryOf (takeEntry t lane e) m = entryOf t m := by
  unfold takeEntry entryOf
  split
  · rw [Tab.get?_erase_ne t other]
  · rw [Tab.get?_set_ne t other]

/-! ### ROLL_LOAD -/

/-- Entries loaded leave everything but the shadow roll. -/
theorem loadRoll_spec (s : State) (first : Nat) (data : Bytes) (n : Nat) : ∃ shadow, s.loadRoll first n data =
      s.updRoll (fun r => { r with shadow := shadow }) ∧
    ∀ l, entryOf shadow l = if first ≤ l ∧ l < first + n then slice data (128 * (l - first)) 128 else entryOf s.roll.shadow l := by
  induction n with
  | zero => exact ⟨s.roll.shadow, rfl, fun l => (if_neg (by omega)).symm⟩
  | succ n ih =>
    obtain ⟨shadow, before, entries⟩ := ih
    refine ⟨takeEntry shadow (first + n) (slice data (128 * n) 128), ?_, fun l => ?_⟩
    · rw [State.loadRoll, List.range_succ, List.foldl_append, ← State.loadRoll, before]
      rfl
    · by_cases last : l = first + n
      · rw [last, entryOf_takeEntry _ _ (length_slice ..), if_pos (by omega), Nat.add_sub_cancel_left]
      · rw [entryOf_takeEntry_ne _ _ last, entries]
        by_cases inside : first ≤ l ∧ l < first + n
        · rw [if_pos inside, if_pos (by omega)]
        · rw [if_neg inside, if_neg (by omega)]

theorem mpTook_eff (s : State) (off n : Nat) : (s.mpTook off n).par.eff = s.par.eff := by
  refine foldl_eff _ (fun u b => ?_) _ s
  dsimp only
  split
  · rfl
  split
  · rfl
  · rw [State.bankTouch]
    split <;> rfl

theorem rollLoad_run {s : State} {mb : Fin 8} {q : Request} (runs : s.Runs mb 0x0310 q) (may : s.Writes mb 3) :
    Lands (exec (.rollLoad mb) s) fun e =>
      let off := uAt q.payload 0 4
      let first := uAt q.payload 4 1
      let n := uAt q.payload 5 1
      if off % 128 ≠ 0 ∨ 0x1C0000 < off + 128 * n ∨ 127 < first ∨ n < 1 ∨ 128 < n ∨ 128 < first + n then
        Only [.hatch] s e ∧ s.Replies e mb q stBadParam [0x05, 0, 0xFF, 0xFF]
      else OnlyWrite [.par, .pantry, .roll] s e ∧ e.roll.working = s.roll.working ∧ e.roll.gen = s.roll.gen ∧
        (∀ l, entryOf e.roll.shadow l = if first ≤ l ∧ l < first + n then slice (s.mpRead off (128 * n)) (128 * (l - first)) 128
          else entryOf s.roll.shadow l) ∧ s.Accepts e mb q (leBytes 1 n) := by
  have run : exec (.rollLoad mb) s = (if uAt q.payload 0 4 % 128 ≠ 0 ∨ spanOk (uAt q.payload 0 4) (128 * uAt q.payload 5 1) = false ∨
        127 < uAt q.payload 4 1 ∨ inR (uAt q.payload 5 1) 1 128 = false ∨ 128 < uAt q.payload 4 1 + uAt q.payload 5 1 then
        s.refuse mb stBadParam 0x05
      else ((s.mpTook (uAt q.payload 0 4) (128 * uAt q.payload 5 1)).loadRoll (uAt q.payload 4 1) (uAt q.payload 5 1)
        (s.mpRead (uAt q.payload 0 4) (128 * uAt q.payload 5 1))).finishWrite mb q (leBytes 1 (uAt q.payload 5 1))
          (s.mpRead (uAt q.payload 0 4) (128 * uAt q.payload 5 1))).done :=
    congrArg State.done (withWrite_runs runs may _)
  generalize uAt q.payload 0 4 = off at *
  generalize uAt q.payload 4 1 = first at *
  generalize uAt q.payload 5 1 = n at *
  have same : (off % 128 ≠ 0 ∨ spanOk off (128 * n) = false ∨ 127 < first ∨ inR n 1 128 = false ∨ 128 < first + n) ↔
      (off % 128 ≠ 0 ∨ 0x1C0000 < off + 128 * n ∨ 127 < first ∨ n < 1 ∨ 128 < n ∨ 128 < first + n) := by
    simp only [spanOk, inR, decide_eq_false_iff_not, Bool.and_eq_false_iff, not_le, or_assoc]
  refine lands_ite (fun bad => refuse_lands runs.taken (by decide) 0x05 (run.trans (congrArg State.done (if_pos (same.2 bad))))) fun good => ?_
  rw [if_neg (mt same.1 good)] at run
  obtain ⟨shadow, loaded, entries⟩ := loadRoll_spec (s.mpTook off (128 * n)) first (s.mpRead off (128 * n)) n
  have took := mpTook_keeps (M := 8256) (a1 := off) (a2 := 128 * n) (by decide) (.refl _ s)
  have part : Only [.par, .pantry, .roll] s ((s.mpTook off (128 * n)).updRoll fun r => { r with shadow := shadow }) :=
    only_of (updRoll_keeps (by decide) (took.weaken (by decide)))
  rw [loaded] at run
  obtain ⟨only, accepts⟩ := write_ends runs.taken part (took.hatch (by decide)) (took.twin (by decide)) (took.mono (by decide))
    (mpTook_eff s _ _) (leBytes 1 n) (s.mpRead off (128 * n))
  rw [took.roll (by decide)] at entries
  refine ⟨_, run, only, ?_, ?_, fun l => ?_, accepts⟩
  · rw [finishWrite_roll, updRoll_roll, took.roll (by decide)]
  · rw [finishWrite_roll, updRoll_roll, took.roll (by decide)]
  · rw [finishWrite_roll]; exact entries l

/-! ### ROLL_COMMIT -/

/-- What one lane's adoption leaves of the roll. -/
theorem adoptLane_roll (s : State) (lane : Nat) (new : Bytes) :
    (s.adoptLane lane new).roll = { s.roll with working := takeEntry s.roll.working lane new } := by
  have taken : (s.updRoll fun r => { r with working := takeEntry r.working lane new }).roll =
    { s.roll with working := takeEntry s.roll.working lane new } := rfl
  rw [← taken]
  have after := laneTypeChanged_keeps (M := 2 ^ 28 - 1 - 32768) (a1 := lane) (a2 := eType (s.entry lane)) (a3 := eType new) (by decide)
    (.refl _ (s.updRoll fun r => { r with working := takeEntry r.working lane new }))
  refine Keeps.roll (M := 2 ^ 28 - 1 - 32768) ?_ (by decide)
  refine coastRefresh_keeps (by decide) (adoptLost_keeps (by decide) (adoptEnable_keeps (by decide) ?_))
  refine keeps_ite (fun _ => ?_) fun _ => dtRollChange_keeps (by decide) ?_
  · exact keeps_ite (fun _ => after) fun _ => identCheck_keeps (by decide) after
  · exact keeps_ite (fun _ => after) fun _ => identCheck_keeps (by decide) after

/-- The lanes of a list adopt: each takes its entry, and nothing else of the roll changes. -/
theorem foldl_adoptLane_roll (entries : Tab Bytes) (whole : ∀ l, (entryOf entries l).length = 128) (ls : List Nat) (s : State) :
    ∃ working, (ls.foldl (fun s l => s.adoptLane l (entryOf entries l)) s).roll = { s.roll with working := working } ∧
      ∀ l, entryOf working l = if l ∈ ls then entryOf entries l else s.entry l := by
  induction ls generalizing s with
  | nil => exact ⟨s.roll.working, rfl, fun l => (if_neg List.not_mem_nil).symm⟩
  | cons a r ih =>
    obtain ⟨working, roll, taken⟩ := ih (s.adoptLane a (entryOf entries a))
    refine ⟨working, by rw [List.foldl_cons, roll, adoptLane_roll], fun l => ?_⟩
    rw [taken, State.entry, adoptLane_roll]
    by_cases later : l ∈ r
    · rw [if_pos later, if_pos (List.mem_cons_of_mem a later)]
    · rw [if_neg later]
      by_cases own : l = a
      · rw [own, if_pos List.mem_cons_self]
        exact entryOf_takeEntry _ _ (whole a)
      · rw [if_neg (by simp [own, later])]
        exact entryOf_takeEntry_ne _ _ own

theorem length_entryOf {set : Tab Bytes} (whole : ∀ l v, set.get? l = some v → v.length = 128) (l : Nat) : (entryOf set l).length = 128 := by
  unfold entryOf
  cases listed : set.get? l with
  | none => exact List.length_replicate
  | some v => exact whole l v listed

/-- What a commit leaves of the roll: it counts and saves, the lanes of stopped strings have adopted, and what is left waits. -/
theorem commitRoll_roll (s : State) (set : Tab Bytes) (since : Nat) (whole : ∀ l v, set.get? l = some v → v.length = 128) :
    (s.commitRoll set since).roll.gen = (if s.roll.gen = 0xFFFFFFFF then 1 else s.roll.gen + 1) ∧
    (s.commitRoll set since).roll.stored = set ∧ (s.commitRoll set since).roll.storedGen = (s.commitRoll set since).roll.gen ∧
    (s.commitRoll set since).roll.shadow = s.roll.shadow ∧
    (∀ l < 128, s.strStopped (s.strOf l) = true → (s.commitRoll set since).entry l = entryOf set l) ∧
    (∀ l < 128, (s.commitRoll set since).entry l = entryOf set l ∨
      ∃ p, (s.commitRoll set since).roll.pend = some p ∧ p.since = since ∧ l ∈ p.left ∧ (s.commitRoll set since).entry l = s.entry l) := by
  set gen := if s.roll.gen = 0xFFFFFFFF then 1 else s.roll.gen + 1 with hgen
  set left := (List.range 128).filter fun l => entryOf set l != s.entry l with hleft
  have waits : ∀ l < 128, l ∉ left → s.entry l = entryOf set l := fun l small out => by
    by_contra differ
    exact out (List.mem_filter.2 ⟨List.mem_range.2 small, bne_iff_ne.2 (Ne.symm differ)⟩)
  set handed : State := (s.updRoll fun r =>
    { r with pend := if left.isEmpty then none else some { entries := set, left, since }, gen, stored := set, storedGen := gen }).countSave
    with hhanded
  have run : s.commitRoll set since = handed.adoptStopped := rfl
  rw [run, State.adoptStopped, State.adoptWhere]
  by_cases empty : left.isEmpty = true
  · have none_ : handed.roll.pend = none := if_pos empty
    have settled : ∀ l < 128, handed.entry l = entryOf set l := fun l small =>
      waits l small (by rw [List.isEmpty_iff.1 empty]; exact List.not_mem_nil)
    rw [none_]
    exact ⟨rfl, rfl, rfl, rfl, fun l small _ => settled l small, fun l small => .inl (settled l small)⟩
  · have some_ : handed.roll.pend = some { entries := set, left, since } := if_neg empty
    rw [some_]
    dsimp only
    set goes := fun l => handed.strStopped (handed.adoptsWith l)
    set rest := left.filter fun l => !goes l
    set moved := handed.updRoll fun r => { r with pend := if rest.isEmpty then none else some { entries := set, left := rest, since } }
    obtain ⟨working, roll, taken⟩ := foldl_adoptLane_roll set (length_entryOf whole) (left.filter goes) moved
    refine ⟨by rw [roll]; rfl, by rw [roll]; rfl, by rw [roll]; rfl, by rw [roll]; rfl, fun l small stopped => ?_, fun l small => ?_⟩
    all_goals rw [State.entry, roll, taken]
    · by_cases listed : l ∈ left.filter goes
      · rw [if_pos listed]
      · rw [if_neg listed]
        exact waits l small fun mem => listed (List.mem_filter.2 ⟨mem, stopped⟩)
    · by_cases listed : l ∈ left.filter goes
      · exact .inl (if_pos listed)
      · rw [if_neg listed]
        by_cases waiting : l ∈ left
        · have stays : l ∈ rest := List.mem_filter.2 ⟨waiting, by simpa [waiting] using listed⟩
          refine .inr ⟨{ entries := set, left := rest, since }, ?_, rfl, stays, rfl⟩
          exact if_neg fun none_ => List.not_mem_nil (List.isEmpty_iff.1 none_ ▸ stays)
        · exact .inl (waits l small waiting)

/-- ROLL_COMMIT of a set that passes its checks (R36, R38, R41). -/
theorem rollRun_commits {s : State} {mb : Nat} {q : Request} {set : Tab Bytes} (since : Nat) (free : s.roll.pend = none)
    (expected : uAt q.payload 0 4 = 0xFFFFFFFF ∨ uAt q.payload 0 4 = s.roll.gen) (sound : s.setReason set = none) :
    s.rollRun mb q set since = (s.commitRoll set since).finishWrite mb q
      (rollReply (s.commitRoll set since).roll.gen 0xFF 0 (s.commitRoll set since).adoptBy) (rollSetBytes set since) := by
  have other : ¬(uAt q.payload 0 4 ≠ 0xFFFFFFFF ∧ uAt q.payload 0 4 ≠ s.roll.gen) := fun h => expected.elim h.1 h.2
  rw [State.rollRun, free, sound]
  exact (if_neg Bool.false_ne_true).trans (if_neg other)

/-- The end of a write leaves what says when the pending set is adopted. -/
theorem finishWrite_adoptBy (s : State) (mb : Nat) (q : Request) (payload data : Bytes) :
    (s.finishWrite mb q payload data).adoptBy = s.adoptBy := by
  have ends := finishWrite_keeps (M := 67664) (a1 := mb) (a2 := q) (a3 := payload) (a4 := data) (by decide) (.refl _ s)
  simp only [State.adoptBy, State.strBoundaryFrom, State.adoptsWith, State.strOf, State.entry, State.str, State.now, ends.roll (by decide),
    ends.mod (by decide), ends.time (by decide)]

/-- Settles O27, command by command. -/
theorem rollCommands : Obligations.RollCommands := by
  intro s mb q
  refine ⟨rollLoad_run, fun runs may => ?_, fun runs => ?_⟩
  · refine ⟨s.rollRun mb q s.roll.shadow s.adoptSince, congrArg State.done (withWrite_runs runs may _), fun pending => ?_,
      fun free other known => ?_, fun free expected f failing => ?_, fun free expected sound whole => ?_⟩
    · have run : s.rollRun mb q s.roll.shadow s.adoptSince = s.busy mb s.rollRetry := if_pos pending
      rw [run]
      exact ⟨only_of (busy_keeps (by decide) (.refl _ s)), reply_replies runs.taken stBusy _⟩
    · have run : s.rollRun mb q s.roll.shadow s.adoptSince =
          s.tookFree.reply mb stRefused (rollReply s.roll.gen 0xFF 0x0D s.freeVal) := by
        rw [State.rollRun, free]
        exact (if_neg Bool.false_ne_true).trans (if_pos ⟨other, known⟩)
      rw [run]
      exact ⟨only_of (reply_hatch (by decide) (by decide) (tookFree_keeps (by decide) (.refl _ s))), s.freeVal % 2 ^ 32,
        (reply_replies (s := s.tookFree) runs.taken stRefused _).from rfl rfl⟩
    · have run : s.rollRun mb q s.roll.shadow s.adoptSince =
          s.tookFree.reply mb (if f.2 = 0x0C then stRefused else stBadParam) (rollReply s.roll.gen f.1 f.2 s.freeVal) := by
        have same : ¬(uAt q.payload 0 4 ≠ 0xFFFFFFFF ∧ uAt q.payload 0 4 ≠ s.roll.gen) := fun h => expected.elim h.1 h.2
        rw [State.rollRun, free, failing]
        exact (if_neg Bool.false_ne_true).trans (if_neg same)
      have answered : (if f.2 = 0x0C then stRefused else stBadParam) ≠ stBusy := by split <;> decide
      rw [run]
      exact ⟨only_of (reply_hatch (by decide) answered (tookFree_keeps (by decide) (.refl _ s))), s.freeVal % 2 ^ 32,
        (reply_replies (s := s.tookFree) runs.taken _ _).from rfl rfl⟩
    · have keeps := commitRoll_keeps (M := 1040636) (a1 := s.roll.shadow) (a2 := s.adoptSince) (by decide) (.refl _ s)
      obtain ⟨gen, stored, storedGen, shadow, stopped, every⟩ := commitRoll_roll s s.roll.shadow s.adoptSince whole
      have box := commitRoll_leavesBox (n := mb.val) (s := s) s.roll.shadow s.adoptSince runs.waits
      have eff := commitRoll_eff s s.roll.shadow s.adoptSince
      have twin := keeps.twin (by decide)
      rw [rollRun_commits s.adoptSince free expected sound]
      simp only [State.entry, finishWrite_roll, finishWrite_adoptBy]
      have part : Only [.hatch, .freeCount, .todo, .notif, .par, .faults, .pantry, .lanes, .roll, .links, .mod, .prot, .dt] s
          (s.commitRoll s.roll.shadow s.adoptSince) :=
        only_of (commitRoll_keeps (by decide) (.refl _ s))
      exact ⟨(part.finishWrite (hasStandby_congr twin eff) mb q _ _).of_hatch, gen, stored, storedGen, shadow,
        finishWrite_answers (by rw [box]; exact runs.taken) twin eff _ _, stopped, every⟩
  · refine ⟨_, congrArg Outcome.next (withCmd_runs runs _ _), ?_⟩
    dsimp only
    by_cases bad : 127 < uAt q.payload 0 1 ∨ 1 < uAt q.payload 1 1
    · rw [if_pos bad, if_pos bad]
      exact ⟨only_of (refuse_hatch (by decide) (by decide) (.refl _ s)), reply_replies runs.taken stBadParam (reasonPayload 0x05 0xFFFF)⟩
    · rw [if_neg bad, if_neg bad]
      exact ⟨only_of (replyOk_hatch (by decide) (.refl _ s)), reply_replies runs.taken stOk _⟩

end Sys2Proof.Machine
end

section
/-!
PROOFS. Trips of a string (R334, R335, R337, R341, R349, R350, R362). What a trip does to its lanes leaves of every string all but its plan, and of the
protection the strings' part; so the clauses come down to the two writes of the tripped string itself.
-/

namespace Sys2Proof.Machine

open Host

/-! ### Strings and their protection under the operations of a cell -/

theorem Keeps.str {M : Nat} {s t : State} (h : Keeps M s t) (k : M.testBit 17 = false) (n : Nat) : t.str n = s.str n := by
  rw [State.str, h.mod k, State.str]

theorem Keeps.prt {M : Nat} {s t : State} (h : Keeps M s t) (k : M.testBit 18 = false) (n : Nat) : t.prt n = s.prt n := by
  rw [State.prt, h.prot k, State.prt]

theorem Keeps.byp {M : Nat} {s t : State} (h : Keeps M s t) (k : M.testBit 18 = false) (n : Nat) : t.byp n = s.byp n := by
  rw [State.byp, h.prot k, State.byp]

@[simp] theorem modMl_str (s : State) (l : Nat) (f : ModLane → ModLane) (n : Nat) : (s.modMl l f).str n = s.str n := rfl
@[simp] theorem modByp_prt (s : State) (l : Nat) (f : Byp → Byp) (n : Nat) : (s.modByp l f).prt n = s.prt n := rfl
@[simp] theorem modByp_str (s : State) (l : Nat) (f : Byp → Byp) (n : Nat) : (s.modByp l f).str n = s.str n := rfl
@[simp] theorem modPrt_str (s : State) (l : Nat) (f : ProtStr → ProtStr) (n : Nat) : (s.modPrt l f).str n = s.str n := rfl
@[simp] theorem modStr_prt (s : State) (l : Nat) (f : Str → Str) (n : Nat) : (s.modStr l f).prt n = s.prt n := rfl

@[simp] theorem addEntries_str (s : State) (lane : Nat) (xs : List Entry) (n : Nat) : (s.addEntries lane xs).str n = s.str n := by
  unfold State.addEntries
  dsimp only
  split <;> rfl

@[simp] theorem withdraw_str (s : State) (lane : Nat) (p : Entry → Bool) (n : Nat) : (s.withdraw lane p).str n = s.str n := addEntries_str ..

@[simp] theorem sendAct_str (s : State) (lane : Nat) (a : BypAct) (t : Int) (n : Nat) : (s.sendAct lane a t).str n = s.str n := by
  unfold State.sendAct
  split
  · exact addEntries_str ..
  · rfl

@[simp] theorem sendAct_prt (s : State) (lane : Nat) (a : BypAct) (t : Int) (n : Nat) : (s.sendAct lane a t).prt n = s.prt n :=
  (sendAct_keeps (M := 131136) (by decide) (.refl _ s)).prt (by decide) n

@[simp] theorem answerWaiting_str (s : State) (w : Waiting) (payload : Bytes) (n : Nat) : (s.answerWaiting w payload).str n = s.str n :=
  (answerWaiting_keeps (M := 80) (by decide) (.refl _ s)).str (by decide) n

@[simp] theorem answerWaiting_prt (s : State) (w : Waiting) (payload : Bytes) (n : Nat) : (s.answerWaiting w payload).prt n = s.prt n :=
  (answerWaiting_keeps (M := 80) (by decide) (.refl _ s)).prt (by decide) n

@[simp] theorem coastLanes_str (s : State) (ls : List Nat) (n : Nat) : (s.coastLanes ls).str n = s.str n :=
  (coastLanes_keeps (M := 65536) (by decide) (.refl _ s)).str (by decide) n

@[simp] theorem coastLanes_prt (s : State) (ls : List Nat) (n : Nat) : (s.coastLanes ls).prt n = s.prt n :=
  (coastLanes_keeps (M := 65536) (by decide) (.refl _ s)).prt (by decide) n

@[simp] theorem dtDiscard_str (s : State) (lane n : Nat) : (s.dtDiscard lane).str n = s.str n :=
  (dtDiscard_keeps (M := 524288) (by decide) (.refl _ s)).str (by decide) n

@[simp] theorem dtDiscard_prt (s : State) (lane n : Nat) : (s.dtDiscard lane).prt n = s.prt n :=
  (dtDiscard_keeps (M := 524288) (by decide) (.refl _ s)).prt (by decide) n

/-! ### A cell taken out of its string -/

/-- Between two states no string changes but in its plan. -/
def State.PlanOnly (s t : State) : Prop := ∀ n, t.str n = { s.str n with plan := (t.str n).plan }

theorem State.PlanOnly.of_eq {s t : State} (h : ∀ n, t.str n = s.str n) : s.PlanOnly t := fun n => by rw [h]

theorem State.PlanOnly.trans {s t u : State} (h : s.PlanOnly t) (k : t.PlanOnly u) : s.PlanOnly u := fun n => by
  rw [k n, h n]

theorem laneOut_planOnly (s : State) (lane : Nat) : s.PlanOnly (s.laneOut lane) := by
  intro n
  unfold State.laneOut
  by_cases own : n = s.strOf lane
  · rw [own, str_modStr, dtDiscard_str, modMl_str, withdraw_str]
  · rw [str_modStr_ne _ own, dtDiscard_str, modMl_str, withdraw_str]

@[simp] theorem laneOut_prt (s : State) (lane n : Nat) : (s.laneOut lane).prt n = s.prt n :=
  (laneOut_keeps (M := 655424) (by decide) (.refl _ s)).prt (by decide) n

@[simp] theorem tripAction_str (s : State) (str lane : Nat) (t : Int) (again entered : Bool) (n : Nat) :
    (s.tripAction str lane t again entered).str n = s.str n := by
  unfold State.tripAction
  dsimp only
  repeat' split
  all_goals simp only [sendAct_str]

@[simp] theorem tripAction_prt (s : State) (str lane : Nat) (t : Int) (again entered : Bool) (n : Nat) :
    (s.tripAction str lane t again entered).prt n = s.prt n :=
  (tripAction_keeps (M := 131136) (by decide) (.refl _ s)).prt (by decide) n

theorem tripLane_planOnly (s : State) (str lane : Nat) : s.PlanOnly (s.tripLane str lane) := by
  refine (laneOut_planOnly s lane).trans (.of_eq fun n => ?_)
  unfold State.tripLane
  dsimp only
  split <;> split <;> simp only [tripAction_str, answerWaiting_str, modByp_str]

@[simp] theorem tripLane_prt (s : State) (str lane n : Nat) : (s.tripLane str lane).prt n = s.prt n := by
  unfold State.tripLane
  dsimp only
  split <;> split <;> simp only [tripAction_prt, answerWaiting_prt, modByp_prt, laneOut_prt]

theorem foldl_tripLane (str : Nat) (ls : List Nat) (s : State) : s.PlanOnly (ls.foldl (fun s l => s.tripLane str l) s) ∧
    ∀ n, (ls.foldl (fun s l => s.tripLane str l) s).prt n = s.prt n := by
  induction ls generalizing s with
  | nil => exact ⟨.of_eq fun _ => rfl, fun _ => rfl⟩
  | cons a r ih =>
    obtain ⟨plans, prts⟩ := ih (s.tripLane str a)
    exact ⟨(tripLane_planOnly s str a).trans plans, fun n => (prts n).trans (tripLane_prt s str a n)⟩

/-! ### Mailboxes that wait for nothing -/

/-- No mailbox waits. -/
def State.idleBoxes (s : State) : Prop := ∀ n < 8, (s.box n).waiting = .none

theorem answerWaiting_of_idle {s : State} (idle : s.idleBoxes) {w : Waiting} (some_ : w ≠ .none) (payload : Bytes) :
    s.answerWaiting w payload = s := by
  have none_ : ∀ (l : List Nat), (∀ n ∈ l, n < 8) →
      l.foldl (fun s mb => if (s.box mb).waiting = w then s.plannedReply mb payload else s) s = s := by
    intro l
    induction l with
    | nil => exact fun _ => rfl
    | cons a r ih =>
      intro small
      rw [List.foldl_cons, if_neg fun same => some_ (same.symm.trans (idle a (small a List.mem_cons_self)))]
      exact ih fun n mem => small n (List.mem_cons_of_mem a mem)
  exact none_ _ fun n mem => List.mem_range.1 mem

theorem idleBoxes_congr {s t : State} (same : ∀ n, t.box n = s.box n) (idle : s.idleBoxes) : t.idleBoxes := fun n small => by
  rw [same]; exact idle n small

theorem tripLane_box {s : State} (idle : s.idleBoxes) (str lane n : Nat) : (s.tripLane str lane).box n = s.box n := by
  unfold State.tripLane
  dsimp only
  generalize hready : State.modByp (if (((s.laneOut lane).byp lane).held.isSome && ((s.laneOut lane).byp lane).enterAt.isNone) = true then
    (s.laneOut lane).modByp lane _ else s.laneOut lane) lane _ = ready
  have out := laneOut_keeps (M := 917568) (a1 := lane) (by decide) (.refl _ s)
  have boxes : ∀ m, ready.box m = s.box m := by
    rw [← hready]
    exact (modByp_keeps (M := 917568) (by decide) (keeps_ite (fun _ => modByp_keeps (by decide) out) fun _ => out)).box (by decide)
  have still := idleBoxes_congr boxes idle
  rw [answerWaiting_of_idle still Waiting.noConfusion, answerWaiting_of_idle still Waiting.noConfusion]
  split
  · rw [(tripAction_keeps (M := 131136) (by decide) (.refl _ ready)).box (by decide), boxes]
  · exact boxes n

theorem foldl_tripLane_box (str : Nat) (ls : List Nat) {s : State} (idle : s.idleBoxes) (n : Nat) :
    (ls.foldl (fun s l => s.tripLane str l) s).box n = s.box n := by
  induction ls generalizing s with
  | nil => rfl
  | cons a r ih =>
    have step := tripLane_box idle str a
    exact (ih (idleBoxes_congr step idle)).trans (step n)

/-! ### A trip -/

/-- The mask a string that is not TRIPPED trips with (R337, R341). -/
theorem tripMask_spec {s : State} {str : Nat} (live : (s.str str).st ≠ .tripped) (mask lane : Nat) :
    ((s.tripMask str mask lane).str str).st = .tripped ∧
    (∀ n, n ≠ str → (s.tripMask str mask lane).str n = { s.str n with plan := ((s.tripMask str mask lane).str n).plan }) ∧
    (s.tripMask str mask lane).prt str = { s.prt str with
      mask, first := ((List.range 16).find? fun b => bit mask b).getD 0, tripAt := s.shortNow, uvArmed := false } ∧
    (∀ n, n ≠ str → (s.tripMask str mask lane).prt n = s.prt n) ∧
    (s.idleBoxes → ∀ n, (s.tripMask str mask lane).box n = s.box n) := by
  have note_ : ∀ (u : State) a b c n, (u.note a b c).str n = u.str n := fun u a b c n =>
    (note_keeps (M := 8304) (by decide) (.refl _ u)).str (by decide) n
  have notePrt : ∀ (u : State) a b c n, (u.note a b c).prt n = u.prt n := fun u a b c n =>
    (note_keeps (M := 8304) (by decide) (.refl _ u)).prt (by decide) n
  have bump_ : ∀ (u : State) a b c n, (u.bump a b c).str n = u.str n := fun _ _ _ _ _ => rfl
  have bumpPrt : ∀ (u : State) a b c n, (u.bump a b c).prt n = u.prt n := fun _ _ _ _ _ => rfl
  have coast : ∀ (u : State) ls n, (u.coastLanes ls).box n = u.box n := fun u _ => (coastLanes_keeps (M := 65536) (by decide) (.refl _ u)).box (by decide)
  unfold State.tripMask
  dsimp only
  rw [if_neg live]
  set s1 := (s.modStr str fun y => { y with
    st := .tripped, plan := none, orderWait := false, stopReq := false, stopAt := none, darkStop := false, first := false, n := 0 }).modPrt str
    fun p => { p with mask, first := ((List.range 16).find? fun b => bit mask b).getD 0, tripAt := s.shortNow, uvArmed := false } with hs1
  obtain ⟨plans, prts⟩ := foldl_tripLane str (s.lanesOf str) s1
  refine ⟨?_, fun n other => ?_, ?_, fun n other => ?_, fun idle n => ?_⟩
  · rw [coastLanes_str, note_, bump_, plans str, hs1, modPrt_str, str_modStr]
  · rw [coastLanes_str, note_, bump_]
    conv_lhs => rw [plans n, hs1, modPrt_str, str_modStr_ne s other]
  · rw [coastLanes_prt, notePrt, bumpPrt, prts, hs1, prt_modPrt, modStr_prt]
  · rw [coastLanes_prt, notePrt, bumpPrt, prts, hs1, prt_modPrt_ne _ other, modStr_prt]
  · have same : ∀ m, s1.box m = s.box m := fun _ => rfl
    rw [coast, note_box, bump_box, foldl_tripLane_box str _ (idleBoxes_congr same idle), same]

/-- A trip of a string that is not TRIPPED (R337, R341). -/
theorem trip_spec {s : State} {str : Nat} (live : (s.str str).st ≠ .tripped) (cause lane : Nat) :
    ((s.trip str cause lane).str str).st = .tripped ∧
    (∀ n, n ≠ str → (s.trip str cause lane).str n = { s.str n with plan := ((s.trip str cause lane).str n).plan } ∧
      (s.trip str cause lane).prt n = s.prt n) ∧
    ((s.trip str cause lane).prt str).mask = 2 ^ cause ∧
    ((s.trip str cause lane).prt str).first = ((List.range 16).find? fun b => bit (2 ^ cause) b).getD 0 ∧
    ((s.trip str cause lane).prt str).tripAt = s.shortNow ∧
    (s.idleBoxes → ∀ n, (s.trip str cause lane).box n = s.box n) := by
  obtain ⟨st, others, own, prts, boxes⟩ := tripMask_spec live (2 ^ cause) lane
  have tells := twinTrip_keeps (M := 65536) (a1 := str) (a2 := 2 ^ cause) (by decide)
    (.refl _ ((s.tripMask str (2 ^ cause) lane).modPrt str fun p => { p with ownTrip := some s.mono }))
  have held : ∀ f n, ((s.tripMask str (2 ^ cause) lane).modPrt str f).box n = (s.tripMask str (2 ^ cause) lane).box n := fun _ _ => rfl
  rw [State.trip, if_neg live]
  refine ⟨?_, fun n other => ⟨?_, ?_⟩, ?_, ?_, ?_, fun idle n => ?_⟩
  · rw [tells.str (by decide), modPrt_str]; exact st
  · rw [tells.str (by decide), modPrt_str]; exact others n other
  · rw [tells.prt (by decide), prt_modPrt_ne _ other]; exact prts n other
  · rw [tells.prt (by decide), prt_modPrt, own]
  · rw [tells.prt (by decide), prt_modPrt, own]
  · rw [tells.prt (by decide), prt_modPrt, own]
  · rw [tells.box (by decide), held]; exact boxes idle n

end Sys2Proof.Machine
end

section
/-!
PROOFS. The commands of a trip (R334, R335, R341, R349, R350, R362), from what a trip does.
-/

namespace Sys2Proof.Machine

open Host

/-! ### Refusals and answers -/

/-- A refusal in the layout of a command with one field. -/
theorem refuse4_lands {s : State} {mb : Nat} {q : Request} (taken : (s.box mb).taken = some q) {status : Nat} (known : status ≠ stBusy)
    {o : Outcome State Fault Refusal} (run : o = (s.refuse4 mb status).done) :
    Lands o fun e => Only [.freeCount, .hatch] s e ∧ ∃ t, s.Replies e mb q status (leBytes 4 t) :=
  ⟨_, run, only_of (reply_hatch (by decide) known (tookFree_keeps (by decide) (.refl _ s))), s.freeVal,
    (reply_replies (s := s.tookFree) taken status _).from rfl rfl⟩

/-- An answer after effects that leave every mailbox, the twin, the elapsed time and the values in effect alone. -/
theorem State.Accepts.of_boxes {s u t : State} {mb : Nat} {q : Request} {payload : Bytes} (h : u.Accepts t mb q payload)
    (box : ∀ n, u.box n = s.box n) (twin : u.twin = s.twin) (mono : u.mono = s.mono) (eff : u.par.eff = s.par.eff) :
    s.Accepts t mb q payload := by
  unfold State.Accepts at *
  rw [hasStandby_congr twin eff] at h
  split at h
  · rename_i paired
    rw [if_pos paired]
    refine ⟨?_, fun n other => ?_, ?_⟩
    · rw [← box]; exact h.box
    · rw [h.others n other, box]
    · rw [h.sent, twin, mono]
  · rename_i single
    rw [if_neg single]
    refine ⟨h.done, h.taken, ?_, ?_, ?_, fun n other => ?_⟩
    · rw [h.reply, twin]
    · rw [h.kept, twin, box]
    · rw [h.request, box]
    · rw [h.others n other, box]

theorem finishWrite_mod (s : State) (mb : Nat) (q : Request) (payload data : Bytes) : (s.finishWrite mb q payload data).mod = s.mod :=
  (finishWrite_keeps (M := 67664) (by decide) (.refl _ s)).mod (by decide)

@[simp] theorem finishWrite_str (s : State) (mb : Nat) (q : Request) (payload data : Bytes) (n : Nat) :
    (s.finishWrite mb q payload data).str n = s.str n := by
  rw [State.str, finishWrite_mod, State.str]

/-! ### STRING_TRIP -/

/-- A trip leaves a TRIPPED string TRIPPED, and no other string but in its plan. -/
theorem trip_leaves (s : State) (str cause lane : Nat) : ((s.trip str cause lane).str str).st = .tripped ∧
    (∀ n, n ≠ str → (s.trip str cause lane).str n = { s.str n with plan := ((s.trip str cause lane).str n).plan } ∧
      (s.trip str cause lane).prt n = s.prt n) ∧ (s.idleBoxes → ∀ n, (s.trip str cause lane).box n = s.box n) := by
  by_cases tripped : (s.str str).st = .tripped
  · rw [trip_of_tripped tripped]
    exact ⟨tripped, fun n other => ⟨rfl, prt_modPrt_ne s other _⟩, fun _ _ => rfl⟩
  · obtain ⟨st, others, -, -, -, boxes⟩ := trip_spec tripped cause lane
    exact ⟨st, others, boxes⟩

theorem stringTrip_lands {s : State} {mb : Fin 8} {q : Request} (runs : s.Runs mb 0x0C20 q) (may : s.Writes mb 0x0C) :
    Lands (exec (.stringTrip mb) s) fun e =>
      let str := uAt q.payload 0 1
      if 15 < str then Only [.freeCount, .hatch] s e ∧ ∃ t, s.Replies e mb q stBadParam (leBytes 4 t)
      else OnlyWrite [.notif, .par, .pantry, .links, .mod, .prot, .dt] s e ∧ (e.str str).st = .tripped ∧
        (∀ n, n ≠ str → e.str n = { s.str n with plan := (e.str n).plan } ∧ e.prt n = s.prt n) ∧
        ((s.str str).st = .tripped → (e.prt str).mask = (s.prt str).mask ||| 2 ^ 12 ∧ (e.prt str).first = (s.prt str).first ∧
          e.mod = s.mod) ∧
        ((s.str str).st ≠ .tripped → (e.prt str).mask = 2 ^ 12 ∧ (e.prt str).first = 12 ∧ (e.prt str).tripAt = s.shortNow) ∧
        s.Answers e mb q (leBytes 4 s.shortNow) ∧ ((∀ n < 8, (s.box n).waiting = .none) → s.Accepts e mb q (leBytes 4 s.shortNow)) := by
  have run : exec (.stringTrip mb) s = (if 15 < uAt q.payload 0 1 then s.refuse4 mb stBadParam
      else (s.trip (uAt q.payload 0 1) 12 0xFFFF).finishWrite mb q (leBytes 4 s.shortNow)).done :=
    congrArg State.done (withWrite_runs runs may _)
  dsimp only
  generalize uAt q.payload 0 1 = str at *
  refine lands_ite (fun bad => refuse4_lands runs.taken (by decide) (run.trans (congrArg State.done (if_pos bad)))) fun good => ?_
  rw [if_neg good] at run
  have keeps := trip_keeps (M := 991344) (a1 := str) (a2 := 12) (a3 := 0xFFFF) (by decide) (.refl _ s)
  have part : Only [.hatch, .notif, .par, .pantry, .links, .mod, .prot, .dt] s (s.trip str 12 0xFFFF) :=
    only_of (trip_keeps (by decide) (.refl _ s))
  have box : (s.trip str 12 0xFFFF).box mb = s.box mb := trip_leavesBox str 12 0xFFFF .refl runs.waits
  have held : ((s.trip str 12 0xFFFF).box mb).taken = some q := by rw [box]; exact runs.taken
  have twin := keeps.twin (by decide)
  have eff := trip_eff s str 12 0xFFFF
  obtain ⟨st, others, boxes⟩ := trip_leaves s str 12 0xFFFF
  refine ⟨_, run, (part.finishWrite (hasStandby_congr twin eff) mb q _ _).of_hatch, ?_, fun n other => ?_, fun tripped => ?_, fun live => ?_,
    finishWrite_answers held twin eff _ _, fun idle => (finishWrite_accepts held _ _).of_boxes (boxes idle) twin (keeps.mono (by decide)) eff⟩
  · rw [finishWrite_str]; exact st
  · rw [finishWrite_str, finishWrite_prt]; exact others n other
  · rw [finishWrite_prt, finishWrite_mod, trip_of_tripped tripped, prt_modPrt]
    exact ⟨rfl, rfl, rfl⟩
  · obtain ⟨-, -, mask, first, at_, -⟩ := trip_spec live 12 0xFFFF
    rw [finishWrite_prt]
    exact ⟨mask, first.trans (by decide), at_⟩

/-! ### TRIP_CLEAR -/

/-- A string that becomes STOPPED changes no other, and nothing of the protection but UV_ARM of its own (R260, R349). -/
theorem becomeStopped_spec (s : State) (str : Nat) : ((s.becomeStopped str).str str).st = .stopped ∧
    (∀ n, n ≠ str → (s.becomeStopped str).str n = s.str n ∧ (s.becomeStopped str).prt n = s.prt n) ∧
    (s.becomeStopped str).prt str = { s.prt str with uvArmed := false } ∧ (s.becomeStopped str).par.eff = s.par.eff := by
  unfold State.becomeStopped
  dsimp only
  set s1 := (s.modStr str fun y => { y with st := .stopped, stopAt := none, stopReq := false, darkStop := false, first := false,
                                            orderWait := false, plan := none, n := 0 }).modPrt str fun p => { p with uvArmed := false } with hs1
  have lane : ∀ (u : State) (l : Nat), let v := (u.modMl l fun m => { m with on := false, legs := {}, nlc := 0, cycle := none }).dtDiscard l
      let w := if eType (v.entry l) = 1 then v else v.sendAct l .release ((v.now + 8000 : Nat) : Int)
      (∀ n, w.str n = u.str n ∧ w.prt n = u.prt n) ∧ w.par.eff = u.par.eff := by
    intro u l v w
    have mods := dtDiscard_keeps (M := 655360) (a1 := l) (by decide) (modMl_keeps (M := 655360) (a1 := l)
      (a2 := fun m => { m with on := false, legs := {}, nlc := 0, cycle := none }) (by decide) (.refl _ u))
    have before : (∀ n, v.str n = u.str n ∧ v.prt n = u.prt n) ∧ v.par.eff = u.par.eff :=
      ⟨fun n => ⟨dtDiscard_str .., mods.prt (by decide) n⟩, congrArg Params.eff (mods.par (by decide))⟩
    by_cases mv : eType (v.entry l) = 1
    · rw [show w = v from if_pos mv]; exact before
    · rw [show w = v.sendAct l .release ((v.now + 8000 : Nat) : Int) from if_neg mv]
      exact ⟨fun n => ⟨(sendAct_str ..).trans (before.1 n).1, (sendAct_prt ..).trans (before.1 n).2⟩, (sendAct_eff ..).trans before.2⟩
  have lanes : ∀ (ls : List Nat) (u : State), let w := ls.foldl (fun s l =>
        let s := (s.modMl l fun m => { m with on := false, legs := {}, nlc := 0, cycle := none }).dtDiscard l
        if eType (s.entry l) = 1 then s else s.sendAct l .release ((s.now + 8000 : Nat) : Int)) u
      (∀ n, w.str n = u.str n ∧ w.prt n = u.prt n) ∧ w.par.eff = u.par.eff := by
    intro ls
    induction ls with
    | nil => exact fun u => ⟨fun _ => ⟨rfl, rfl⟩, rfl⟩
    | cons a r ih =>
      intro u
      obtain ⟨own, eff⟩ := lane u a
      obtain ⟨rest, effs⟩ := ih _
      exact ⟨fun n => ⟨(rest n).1.trans (own n).1, (rest n).2.trans (own n).2⟩, effs.trans eff⟩
  obtain ⟨same, eff⟩ := lanes (s1.members str) s1
  refine ⟨?_, fun n other => ⟨?_, ?_⟩, ?_, ?_⟩
  · rw [coastLanes_str, (same str).1, hs1, modPrt_str, str_modStr]
  · rw [coastLanes_str, (same n).1, hs1, modPrt_str, str_modStr_ne s other]
  · rw [coastLanes_prt, (same n).2, hs1, prt_modPrt_ne _ other, modStr_prt]
  · rw [coastLanes_prt, (same str).2, hs1, prt_modPrt, modStr_prt]
  · rw [coastLanes_eff, eff]; rfl

theorem tripClear_lands {s : State} {mb : Fin 8} {q : Request} (runs : s.Runs mb 0x0C21 q) (may : s.Writes mb 0x0C) :
    Lands (exec (.tripClear mb) s) fun e =>
      let str := uAt q.payload 0 1
      let expect := uAt q.payload 2 2
      let p := s.persisting str
      if 15 < str then Only [.hatch] s e ∧ s.Replies e mb q stBadParam [0, 0, 0, 0]
      else if (s.str str).st ≠ .tripped ∨ (expect ≠ 0xFFFF ∧ expect ≠ (s.prt str).mask) then
        Only [.hatch] s e ∧ s.Replies e mb q stRefused ([0, 0] ++ leBytes 2 p)
      else if p ≠ 0 then Only [.hatch] s e ∧ s.Replies e mb q stTrip ([0, 0] ++ leBytes 2 p)
      else OnlyWrite [.par, .links, .mod, .prot, .dt] s e ∧ (e.str str).st = .stopped ∧ (e.prt str).mask = 0 ∧
        (∀ n, n ≠ str → e.str n = s.str n ∧ e.prt n = s.prt n) ∧ s.Accepts e mb q (leBytes 2 (s.prt str).mask ++ [0, 0]) := by
  have run : exec (.tripClear mb) s = (if 15 < uAt q.payload 0 1 then s.reply mb stBadParam (clearReply 0 0)
      else if (s.str (uAt q.payload 0 1)).st ≠ .tripped then s.reply mb stRefused (clearReply 0 (s.persisting (uAt q.payload 0 1)))
      else if uAt q.payload 2 2 ≠ 0xFFFF ∧ uAt q.payload 2 2 ≠ (s.prt (uAt q.payload 0 1)).mask then
        s.reply mb stRefused (clearReply 0 (s.persisting (uAt q.payload 0 1)))
      else if s.persisting (uAt q.payload 0 1) ≠ 0 then s.reply mb stTrip (clearReply 0 (s.persisting (uAt q.payload 0 1)))
      else ((s.modPrt (uAt q.payload 0 1) fun x => { x with mask := 0, failed := [], disabled := [], ocRun := 0 }).becomeStopped
        (uAt q.payload 0 1)).finishWrite mb q (clearReply (s.prt (uAt q.payload 0 1)).mask 0)).done :=
    congrArg State.done (withWrite_runs runs may _)
  dsimp only
  generalize uAt q.payload 0 1 = str at *
  have refused : ∀ status (known : status ≠ stBusy) payload, exec (.tripClear mb) s = (s.reply mb status payload).done →
      Lands (exec (.tripClear mb) s) fun e => Only [.hatch] s e ∧ s.Replies e mb q status payload := fun status known payload ends =>
    ⟨_, ends, only_of (reply_hatch (by decide) known (.refl _ s)), reply_replies runs.taken status payload⟩
  refine lands_ite (fun bad => refused _ (by decide) _ (run.trans (congrArg State.done (if_pos bad)))) fun good => ?_
  rw [if_neg good] at run
  refine lands_ite (fun other => refused _ (by decide) _ (run.trans (congrArg State.done ?_))) fun named => ?_
  · by_cases live : (s.str str).st ≠ .tripped
    · exact if_pos live
    · exact (if_neg live).trans (if_pos (other.resolve_left live))
  rw [not_or] at named
  rw [if_neg named.1, if_neg named.2] at run
  refine lands_ite (fun present => refused _ (by decide) _ (run.trans (congrArg State.done (if_pos present)))) fun absent => ?_
  rw [if_neg absent] at run
  set u := s.modPrt str fun x => { x with mask := 0, failed := [], disabled := [], ocRun := 0 } with hu
  have keeps := becomeStopped_keeps (M := 983104) (a1 := str) (by decide) (modPrt_keeps (M := 983104) (a1 := str)
    (a2 := fun x => { x with mask := 0, failed := [], disabled := [], ocRun := 0 }) (by decide) (.refl _ s))
  obtain ⟨stopped, others, own, eff⟩ := becomeStopped_spec u str
  have part : Only [.par, .links, .mod, .prot, .dt] s (u.becomeStopped str) := only_of keeps
  obtain ⟨only, accepts⟩ := write_ends runs.taken part (keeps.hatch (by decide)) (keeps.twin (by decide)) (keeps.mono (by decide)) eff
    (clearReply (s.prt str).mask 0) []
  refine ⟨_, run, only, ?_, ?_, fun n other => ?_, accepts⟩
  · rw [finishWrite_str]; exact stopped
  · rw [finishWrite_prt, own, hu, prt_modPrt]
  · rw [finishWrite_str, finishWrite_prt, (others n other).1, (others n other).2, hu, modPrt_str, prt_modPrt_ne s other]
    exact ⟨rfl, rfl⟩

/-- Settles O33, command by command. -/
theorem trips : Obligations.Trips := by
  intro s mb q
  refine ⟨stringTrip_lands, fun str running stale => ?_, fun str fresh => if_neg fun h => ?_, fun str running due => ?_, tripClear_lands⟩
  · obtain ⟨st, others, mask, -, -, -⟩ := trip_spec (s := s) (str := str) (by rw [running]; decide) 6 0xFFFF
    exact lands_if ⟨running, stale⟩ ⟨only_of (trip_keeps (by decide) (.refl _ s)), st, mask, others⟩
  · exact fresh.elim (fun idle => idle h.1) fun fresh => Bool.false_ne_true (fresh.symm.trans h.2)
  · exact next_if ⟨running, due⟩ ⟨only_of (modPrt_keeps (by decide) (.refl _ s)), prt_modPrt s str _, fun n other => prt_modPrt_ne s other _⟩

end Sys2Proof.Machine
end

section
/-!
PROOFS. Bypass and release of a cell (R344 to R347, R362). A bypass record is followed through what makes it: its making, an ENTER at once, and the
trip that a record beyond BYP_MAX sets off, which times the ENTER of every record of the string that waits for one.
-/

namespace Sys2Proof.Machine

open Host

/-! ### A record through the operations of a cell -/

@[simp] theorem answerWaiting_byp (s : State) (w : Waiting) (payload : Bytes) (n : Nat) : (s.answerWaiting w payload).byp n = s.byp n :=
  (answerWaiting_keeps (M := 80) (by decide) (.refl _ s)).byp (by decide) n

@[simp] theorem sendAct_byp (s : State) (lane : Nat) (a : BypAct) (t : Int) (n : Nat) : (s.sendAct lane a t).byp n = s.byp n :=
  (sendAct_keeps (M := 131136) (by decide) (.refl _ s)).byp (by decide) n

@[simp] theorem laneOut_byp (s : State) (lane n : Nat) : (s.laneOut lane).byp n = s.byp n :=
  (laneOut_keeps (M := 655424) (by decide) (.refl _ s)).byp (by decide) n

@[simp] theorem tripAction_byp (s : State) (str lane : Nat) (t : Int) (again entered : Bool) (n : Nat) :
    (s.tripAction str lane t again entered).byp n = s.byp n :=
  (tripAction_keeps (M := 131136) (by decide) (.refl _ s)).byp (by decide) n

@[simp] theorem finishWrite_byp (s : State) (mb : Nat) (q : Request) (payload data : Bytes) (n : Nat) :
    (s.finishWrite mb q payload data).byp n = s.byp n :=
  (finishWrite_keeps (M := 67664) (by decide) (.refl _ s)).byp (by decide) n

theorem bump_now (s : State) (id inst field : Nat) : (s.bump id inst field).now = s.now := rfl

theorem bump_byp (s : State) (id inst field n : Nat) : (s.bump id inst field).byp n = s.byp n := rfl

/-- A record as one more cause leaves it: the first cause stays, and a release is discarded (R344). -/
def Byp.joined (b : Byp) (cause : Nat) : Byp :=
  match b.held with
  | some _ => { b with relWanted := false }
  | none => { held := some cause, fresh := true }

theorem Byp.joined_of_none {b : Byp} (h : b.held = none) (cause : Nat) : b.joined cause = { held := some cause, fresh := true } := by
  rw [Byp.joined, h]

theorem Byp.joined_of_held {b : Byp} (h : b.held.isSome = true) (cause : Nat) : b.joined cause = { b with relWanted := false } := by
  obtain ⟨c, held⟩ := Option.isSome_iff_exists.1 h
  rw [Byp.joined, held]

theorem record_byp (s : State) (lane cause : Nat) : (s.record lane cause).byp lane = (s.byp lane).joined cause := by
  rw [State.record, byp_modByp, answerWaiting_byp]
  rfl

theorem record_byp_ne (s : State) {lane n : Nat} (cause : Nat) (other : n ≠ lane) : (s.record lane cause).byp n = s.byp n := by
  rw [State.record, byp_modByp_ne _ other, answerWaiting_byp]

theorem record_now (s : State) (lane cause : Nat) : (s.record lane cause).now = s.now := by
  rw [State.now, (record_keeps (M := 262224) (by decide) (.refl _ s)).time (by decide), State.now]

theorem enterNow_byp (s : State) (lane : Nat) : (s.enterNow lane).byp lane = { s.byp lane with enterAt := some s.now } := by
  rw [State.enterNow, answerWaiting_byp, sendAct_byp, byp_modByp, laneOut_byp]

theorem enterNow_byp_ne (s : State) {lane n : Nat} (other : n ≠ lane) : (s.enterNow lane).byp n = s.byp n := by
  rw [State.enterNow, answerWaiting_byp, sendAct_byp, byp_modByp_ne _ other, laneOut_byp]

/-! ### A record through a trip (R337, R345) -/

/-- A record as a trip of its string leaves it: the ENTER that waits for a boundary is timed at once, and no release is ahead. -/
def Byp.ofTrip (b : Byp) (now : Nat) : Byp :=
  { b with enterAt := if b.held.isSome && b.enterAt.isNone then some now else b.enterAt, relWanted := false, relAt := none, judgeAt := none }

theorem Byp.ofTrip_ofTrip (b : Byp) (now : Nat) : (b.ofTrip now).ofTrip now = b.ofTrip now := by
  unfold Byp.ofTrip
  cases b.held <;> cases b.enterAt <;> rfl

theorem tripLane_byp (s : State) (str lane m : Nat) : (s.tripLane str lane).byp m = if m = lane then (s.byp m).ofTrip s.now else s.byp m := by
  have ready : ((if ((s.laneOut lane).byp lane).held.isSome && ((s.laneOut lane).byp lane).enterAt.isNone then
        (s.laneOut lane).modByp lane fun b => { b with enterAt := some s.now }
      else s.laneOut lane).modByp lane fun b => { b with relWanted := false, relAt := none, judgeAt := none }).byp m =
      if m = lane then (s.byp m).ofTrip s.now else s.byp m := by
    by_cases own : m = lane
    · rw [if_pos own, own, byp_modByp, laneOut_byp, Byp.ofTrip]
      split
      · rw [byp_modByp, laneOut_byp]
      · rw [laneOut_byp]
    · rw [if_neg own, byp_modByp_ne _ own]
      split
      · rw [byp_modByp_ne _ own, laneOut_byp]
      · exact laneOut_byp ..
  rw [← ready]
  unfold State.tripLane
  dsimp only
  split
  · rw [tripAction_byp, answerWaiting_byp, answerWaiting_byp]
  · rw [answerWaiting_byp, answerWaiting_byp]

theorem tripLane_now (s : State) (str lane : Nat) : (s.tripLane str lane).now = s.now := by
  rw [State.now, (tripLane_keeps (M := 917584) (by decide) (.refl _ s)).time (by decide), State.now]

theorem foldl_tripLane_byp (str : Nat) (ls : List Nat) (s : State) (m : Nat) :
    (ls.foldl (fun s l => s.tripLane str l) s).byp m = if m ∈ ls then (s.byp m).ofTrip s.now else s.byp m := by
  induction ls generalizing s with
  | nil => exact (if_neg List.not_mem_nil).symm
  | cons a r ih =>
    rw [List.foldl_cons, ih, tripLane_byp, tripLane_now]
    by_cases own : m = a
    · rw [if_pos own, Byp.ofTrip_ofTrip, ite_self, if_pos (by rw [own]; exact List.mem_cons_self)]
    · rw [if_neg own]
      exact if_congr (by rw [List.mem_cons]; exact (or_iff_right own).symm) rfl rfl

theorem trip_byp {s : State} {str : Nat} (live : (s.str str).st ≠ .tripped) (cause lane m : Nat) :
    (s.trip str cause lane).byp m = if m ∈ s.lanesOf str then (s.byp m).ofTrip s.now else s.byp m := by
  have told : ∀ (u : State) a b, (u.twinTrip a b).byp m = u.byp m := fun u a b =>
    (twinTrip_keeps (M := 65536) (by decide) (.refl _ u)).byp (by decide) m
  have noted : ∀ (u : State) a b c, (u.note a b c).byp m = u.byp m := fun u a b c => (note_keeps (M := 8304) (by decide) (.refl _ u)).byp (by decide) m
  have coasts : ∀ (u : State) ls, (u.coastLanes ls).byp m = u.byp m := fun u ls =>
    (coastLanes_keeps (M := 65536) (by decide) (.refl _ u)).byp (by decide) m
  have strs : ∀ (u : State) f, (u.modPrt str f).byp m = u.byp m := fun _ _ => rfl
  rw [State.trip, if_neg live, told, strs]
  unfold State.tripMask
  dsimp only
  rw [if_neg live, coasts, noted, bump_byp, foldl_tripLane_byp]
  rfl

/-! ### Members -/

theorem mem_of_tabFind {α : Type} {k : Nat} {v : α} {l : List (Nat × α)} (h : tabFind k l = some v) : (k, v) ∈ l := by
  induction l with
  | nil => exact absurd h (by simp [tabFind])
  | cons c r ih =>
    obtain ⟨k', v'⟩ := c
    unfold tabFind at h
    split at h
    · rename_i same
      rw [same, Option.some.inj h]
      exact List.mem_cons_self
    · exact List.mem_cons_of_mem _ (ih h)

/-- A lane whose working entry has a type is one of its string's. -/
theorem mem_lanesOf_strOf {s : State} {lane : Nat} (typed : eType (s.entry lane) ≠ 0) : lane ∈ s.lanesOf (s.strOf lane) := by
  cases listed : s.roll.working.get? lane with
  | none =>
    have zeros : s.entry lane = List.replicate 128 0 := by rw [State.entry, entryOf, listed]; rfl
    exact absurd (by rw [zeros]; decide) typed
  | some v =>
    have entry : s.entry lane = v := by rw [State.entry, entryOf, listed]; rfl
    refine List.mem_map.2 ⟨(lane, v), List.mem_filter.2 ⟨mem_of_tabFind listed, ?_⟩, rfl⟩
    rw [entry] at typed
    exact Bool.and_eq_true_iff.2 ⟨bne_iff_ne.2 typed, by rw [State.strOf, entry]; exact beq_self_eq_true _⟩

theorem limitTrips_live {s : State} {str : Nat} (past : s.limitTrips str = true) : (s.str str).st ≠ .tripped := by
  intro tripped
  rw [State.limitTrips, tripped] at past
  exact Bool.false_ne_true past

/-! ### A record made -/

/-- A bypass record of a cell that held none: planned or urgent, the string trips where it is past BYP_MAX, a planned one of a running string waits
for the boundary, and every other ENTER is timed at once (R344 to R346). -/
def State.bypassMade (s : State) (lane cause : Nat) (urgent : Bool) : State :=
  let s1 := (s.record lane cause).bump 0x0C09 (s.strOf lane) (if urgent then 1 else 2)
  if s1.limitTrips (s.strOf lane) then s1.trip (s.strOf lane) 8 0xFFFF
  else if urgent = false ∧ (s.str (s.strOf lane)).st = .running then s1
  else s1.enterNow lane

theorem urgentBypass_made {s : State} {lane : Nat} (free : s.bypassed lane = false) (cause : Nat) :
    s.urgentBypass lane cause = s.bypassMade lane cause true := by
  rw [State.urgentBypass, free]
  exact if_neg Bool.false_ne_true

theorem plannedBypass_made {s : State} {lane : Nat} (free : s.bypassed lane = false) (cause : Nat) :
    s.plannedBypass lane cause = s.bypassMade lane cause false := by
  simp only [State.plannedBypass, State.bypassMade, free, Bool.false_eq_true, if_false, true_and]

theorem limitTrips_congr {s t : State} {str : Nat} (mod : t.mod = s.mod) (roll : t.roll = s.roll) (prot : t.prot = s.prot)
    (eff : t.par.eff = s.par.eff) : t.limitTrips str = s.limitTrips str := by
  have members : t.members str = s.members str := by rw [State.members, roll, State.members]
  have entry : ∀ l, t.entry l = s.entry l := fun l => by rw [State.entry, roll, State.entry]
  have bypassed : ∀ l, t.bypassed l = s.bypassed l := fun l => by rw [State.bypassed, State.byp, prot, State.bypassed, State.byp]
  have most : t.pu 0x0C06 str 2 1 = s.pu 0x0C06 str 2 1 := by rw [State.pu, State.peff, eff, State.pu, State.peff]
  have count : t.bypCount str = s.bypCount str := by
    rw [State.bypCount, members, State.bypCount]
    exact congrArg List.length (List.filter_congr fun l _ => by rw [entry, bypassed])
  rw [State.limitTrips, State.str, mod, State.bypOver, most, count, State.limitTrips, State.str, State.bypOver]

theorem limitTrips_bump (s : State) (id inst field str : Nat) : (s.bump id inst field).limitTrips str = s.limitTrips str :=
  have keeps := bump_keeps (M := 64) (a1 := id) (a2 := inst) (a3 := field) (by decide) (.refl _ s)
  limitTrips_congr (keeps.mod (by decide)) (keeps.roll (by decide)) (keeps.prot (by decide)) (bump_eff ..)

/-- The record that is made, whatever comes of its string. -/
theorem bypassMade_byp {s : State} {lane : Nat} (typed : eType (s.entry lane) ≠ 0) (free : s.bypassed lane = false) (cause : Nat) (urgent : Bool) :
    ((s.bypassMade lane cause urgent).byp lane).held = some cause ∧ ((s.bypassMade lane cause urgent).byp lane).relWanted = false ∧
    ((s.str (s.strOf lane)).st ≠ .running ∨ urgent = true → ((s.bypassMade lane cause urgent).byp lane).enterAt = some s.now) ∧
    (urgent = false → (s.str (s.strOf lane)).st = .running → (s.record lane cause).limitTrips (s.strOf lane) = false →
      ((s.bypassMade lane cause urgent).byp lane).enterAt = none) ∧
    ((s.record lane cause).limitTrips (s.strOf lane) = false → ∀ n, n ≠ lane → (s.bypassMade lane cause urgent).byp n = s.byp n) := by
  have none_ : (s.byp lane).held = none := Option.not_isSome_iff_eq_none.1 fun h => Bool.false_ne_true (free.symm.trans h)
  unfold State.bypassMade
  dsimp only
  generalize hmade : (s.record lane cause).bump 0x0C09 (s.strOf lane) (if urgent then 1 else 2) = made
  have new : made.byp lane = { held := some cause, fresh := true } := by
    rw [← hmade, bump_byp, record_byp, Byp.joined_of_none none_]
  have others : ∀ n, n ≠ lane → made.byp n = s.byp n := fun n other => by rw [← hmade, bump_byp, record_byp_ne s cause other]
  have now : made.now = s.now := by rw [← hmade, bump_now, record_now]
  have limit : made.limitTrips (s.strOf lane) = (s.record lane cause).limitTrips (s.strOf lane) := by rw [← hmade, limitTrips_bump]
  have lanes : made.lanesOf (s.strOf lane) = s.lanesOf (s.strOf lane) := by
    rw [← hmade, State.lanesOf, (bump_keeps (M := 262224) (by decide) (record_keeps (by decide) (.refl _ s))).roll (by decide), State.lanesOf]
  rw [← limit]
  by_cases past : made.limitTrips (s.strOf lane) = true
  · have under : made.limitTrips (s.strOf lane) ≠ false := fun under => Bool.false_ne_true (under.symm.trans past)
    rw [if_pos past, trip_byp (limitTrips_live past), lanes, if_pos (mem_lanesOf_strOf typed), new, now]
    exact ⟨rfl, rfl, fun _ => rfl, fun _ _ h => absurd h under, fun h => absurd h under⟩
  rw [if_neg past]
  by_cases waits : urgent = false ∧ (s.str (s.strOf lane)).st = .running
  · rw [if_pos waits, new]
    refine ⟨rfl, rfl, fun at_ => ?_, fun _ _ _ => rfl, fun _ => others⟩
    exact at_.elim (fun idle => absurd waits.2 idle) fun urgent_ => absurd (waits.1.symm.trans urgent_) (by decide)
  · rw [if_neg waits, enterNow_byp, new, now]
    exact ⟨rfl, rfl, fun _ => rfl, fun planned running _ => absurd ⟨planned, running⟩ waits, fun _ n other =>
      (enterNow_byp_ne _ other).trans (others n other)⟩

/-! ### The end of CELL_BYPASS and CELL_RELEASE -/

/-- A request that waits for its string's boundary: it goes to the standby where there is one, and stays ACTIVE (R72, R362). -/
theorem waits_ends {l : List Part} {s u : State} {mb : Nat} {q : Request} (part : Only l s u) (box : u.box mb = s.box mb)
    (twin : u.twin = s.twin) (eff : u.par.eff = s.par.eff) (w : Waiting) :
    OnlyWrite l s ((if u.hasStandby then u.forwardRequest mb q else u).waitFor mb w) ∧
    ((if u.hasStandby then u.forwardRequest mb q else u).waitFor mb w).box mb = { s.box mb with waiting := w } ∧
    ∀ n, ((if u.hasStandby then u.forwardRequest mb q else u).waitFor mb w).byp n = u.byp n := by
  have waited : ∀ (v : State) n, (v.waitFor mb w).byp n = v.byp n := fun _ _ => rfl
  by_cases paired : u.hasStandby = true
  · have sent := forwardRequest_keeps (M := 67584) (a1 := mb) (a2 := q) (a3 := []) (by decide) (.refl _ u)
    rw [if_pos paired, State.waitFor, box_modBox, sent.box (by decide), box, OnlyWrite, ← hasStandby_congr twin eff, if_pos paired]
    refine ⟨?_, rfl, fun n => (waited _ n).trans (sent.byp (by decide) n)⟩
    have tail : Only [.hatch, .twin, .links] u ((u.forwardRequest mb q []).modBox mb fun b => { b with waiting := w }) :=
      only_of (modBox_keeps (by decide) (sent.weaken (by decide)))
    exact part.trans tail
  · rw [if_neg paired, State.waitFor, box_modBox, box, OnlyWrite, ← hasStandby_congr twin eff, if_neg paired]
    have tail : Only [.hatch] u (u.modBox mb fun b => { b with waiting := w }) := only_of (modBox_keeps (by decide) (.refl _ u))
    exact ⟨part.trans tail, rfl, fun _ => rfl⟩

/-- The reply of a bypass: at once where its ENTER is timed, else at the boundary (R362). -/
theorem bypassReply_ends {l : List Part} {s u : State} {mb : Nat} {q : Request} (taken : (s.box mb).taken = some q)
    (active : (s.box mb).state = .active) (part : Only (.hatch :: l) s u) (box : u.box mb = s.box mb) (twin : u.twin = s.twin)
    (eff : u.par.eff = s.par.eff) (lane : Nat) :
    OnlyWrite l s (u.bypassReply mb q lane) ∧ (∀ n, (u.bypassReply mb q lane).byp n = u.byp n) ∧
    ((u.byp lane).enterAt = none → ((u.bypassReply mb q lane).box mb).waiting = .cellBypass lane ∧
      ((u.bypassReply mb q lane).box mb).state = .active ∧ ((u.bypassReply mb q lane).box mb).taken = some q) ∧
    ∀ t, (u.byp lane).enterAt = some t → s.Answers (u.bypassReply mb q lane) mb q (leBytes 4 (t % 2 ^ 32)) := by
  rw [State.bypassReply]
  cases timed : (u.byp lane).enterAt with
  | some t =>
    have held : (u.box mb).taken = some q := by rw [box]; exact taken
    refine ⟨(part.finishWrite (hasStandby_congr twin eff) mb q _ _).of_hatch, finishWrite_byp u mb q _ _, fun h => ?_, fun k same => ?_⟩
    · exact absurd h (Option.some_ne_none t)
    · rw [← Option.some.inj same]
      exact finishWrite_answers held twin eff _ _
  | none =>
    obtain ⟨only, own, byp⟩ := waits_ends (q := q) part box twin eff (.cellBypass lane)
    refine ⟨only.of_hatch, byp, fun _ => ?_, fun k h => nomatch h⟩
    rw [own]
    exact ⟨rfl, active, taken⟩

/-! ### CELL_BYPASS -/

/-- A further bypass of a cell that holds a record: a release not taken is discarded, and an ENTER that waits may be timed at once. -/
def State.bypassAgain (s : State) (lane mode : Nat) : State :=
  if mode = 1 ∧ ((s.record lane 1).byp lane).enterAt.isNone = true then (s.record lane 1).enterNow lane else s.record lane 1

theorem bypassAgain_byp {s : State} {lane : Nat} (held : s.bypassed lane = true) (mode : Nat) :
    ((s.bypassAgain lane mode).byp lane).held = (s.byp lane).held ∧ ((s.bypassAgain lane mode).byp lane).relWanted = false ∧
    ∀ n, n ≠ lane → (s.bypassAgain lane mode).byp n = s.byp n := by
  have joined : (s.record lane 1).byp lane = { s.byp lane with relWanted := false } := by
    rw [record_byp, Byp.joined_of_held held]
  unfold State.bypassAgain
  split
  · rw [enterNow_byp, joined]
    exact ⟨rfl, rfl, fun n other => by rw [enterNow_byp_ne _ other, record_byp_ne s 1 other]⟩
  · rw [joined]
    exact ⟨rfl, rfl, fun n other => record_byp_ne s 1 other⟩

/-- What an effect on a bypass record leaves for its command's end. -/
structure State.Bypasses (s u : State) (mb : Nat) : Prop where
  /-- The parts. -/
  part : Only [.hatch, .notif, .par, .pantry, .links, .mod, .prot, .dt] s u
  /-- The command's mailbox. -/
  box : u.box mb = s.box mb
  /-- The twin. -/
  twin : u.twin = s.twin
  /-- The values in effect. -/
  eff : u.par.eff = s.par.eff

theorem bypassAgain_leaves {s : State} {mb : Nat} (waits : (s.box mb).waiting = .none) (lane mode : Nat) :
    s.Bypasses (s.bypassAgain lane mode) mb := by
  have made := record_leavesBox lane 1 (.refl (n := mb) (s := s))
  have keeps : Keeps 991344 s (s.bypassAgain lane mode) := by
    unfold State.bypassAgain
    exact keeps_ite (fun _ => enterNow_keeps (by decide) (record_keeps (by decide) (.refl _ s))) fun _ => record_keeps (by decide) (.refl _ s)
  refine ⟨only_of keeps, ?_, keeps.twin (by decide), ?_⟩
  · exact leavesBox_ite (fun _ => enterNow_leavesBox lane made) (fun _ => made) waits
  · unfold State.bypassAgain
    split
    · rw [enterNow_eff, record_eff]
    · exact record_eff ..

theorem bypassMade_leaves {s : State} {mb lane : Nat} (waits : (s.box mb).waiting = .none) (free : s.bypassed lane = false) (cause : Nat)
    (urgent : Bool) : s.Bypasses (s.bypassMade lane cause urgent) mb := by
  cases urgent with
  | true =>
    rw [← urgentBypass_made free]
    exact ⟨only_of (urgentBypass_keeps (by decide) (.refl _ s)), urgentBypass_leavesBox lane cause .refl waits,
      (urgentBypass_keeps (M := 991344) (by decide) (.refl _ s)).twin (by decide), urgentBypass_eff s lane cause⟩
  | false =>
    rw [← plannedBypass_made free]
    exact ⟨only_of (plannedBypass_keeps (by decide) (.refl _ s)), plannedBypass_leavesBox lane cause .refl waits,
      (plannedBypass_keeps (M := 991344) (by decide) (.refl _ s)).twin (by decide), plannedBypass_eff s lane cause⟩

theorem cellBypass_lands {s : State} {mb : Fin 8} {q : Request} (runs : s.Runs mb 0x0C22 q) (may : s.Writes mb 0x0C) :
    Lands (exec (.cellBypass mb) s) fun e =>
      let lane := uAt q.payload 0 1
      let mode := uAt q.payload 1 1
      let str := s.strOf lane
      let refused := fun st => Only [.freeCount, .hatch] s e ∧ ∃ t, s.Replies e mb q st (leBytes 4 t)
      if 127 < lane ∨ 1 < mode then refused stBadParam
      else if eEnabled (s.entry lane) = false ∨ eType (s.entry lane) ≠ 1 then refused stRefused
      else if s.bypassed lane = false ∧ (s.str str).st = .running ∧ s.pu 0x0C06 str 2 1 < s.bypCount str + 1 then refused stRefused
      else OnlyWrite [.notif, .par, .pantry, .links, .mod, .prot, .dt] s e ∧
        (e.byp lane).held = (if s.bypassed lane = true then (s.byp lane).held else some 1) ∧ (e.byp lane).relWanted = false ∧
        ((e.byp lane).enterAt = none → (e.box mb).waiting = .cellBypass lane ∧ (e.box mb).state = .active ∧
          (e.box mb).taken = some q) ∧
        (∀ t, (e.byp lane).enterAt = some t → s.Answers e mb q (leBytes 4 (t % 2 ^ 32))) ∧
        (s.bypassed lane = false → (s.str str).st = .stopped ∨ mode = 1 → (e.byp lane).enterAt = some s.now) ∧
        (s.bypassed lane = false → mode = 0 → (s.str str).st = .running → (s.record lane 1).limitTrips str = false →
          (e.byp lane).enterAt = none) ∧
        (s.bypassed lane = true ∨ (s.record lane 1).limitTrips str = false → ∀ n, n ≠ lane → e.byp n = s.byp n) := by
  have run : exec (.cellBypass mb) s = (if 127 < uAt q.payload 0 1 ∨ 1 < uAt q.payload 1 1 then s.refuse4 mb stBadParam
      else if eEnabled (s.entry (uAt q.payload 0 1)) = false ∨ eType (s.entry (uAt q.payload 0 1)) ≠ 1 then s.refuse4 mb stRefused
      else if s.bypassed (uAt q.payload 0 1) then (s.bypassAgain (uAt q.payload 0 1) (uAt q.payload 1 1)).bypassReply mb q (uAt q.payload 0 1)
      else if (s.str (s.strOf (uAt q.payload 0 1))).st = .running ∧
          s.pu 0x0C06 (s.strOf (uAt q.payload 0 1)) 2 1 < s.bypCount (s.strOf (uAt q.payload 0 1)) + 1 then s.refuse4 mb stRefused
      else (if uAt q.payload 1 1 = 1 then s.urgentBypass (uAt q.payload 0 1) 1 else s.plannedBypass (uAt q.payload 0 1) 1).bypassReply mb q
        (uAt q.payload 0 1)).done :=
    congrArg State.done (withWrite_runs runs may _)
  dsimp only
  generalize uAt q.payload 0 1 = lane at *
  generalize uAt q.payload 1 1 = mode at *
  refine lands_ite (fun bad => refuse4_lands runs.taken (by decide) (run.trans (congrArg State.done (if_pos bad)))) fun good => ?_
  rw [if_neg good] at run
  refine lands_ite (fun bad => refuse4_lands runs.taken (by decide) (run.trans (congrArg State.done (if_pos bad)))) fun cell => ?_
  rw [if_neg cell] at run
  have typed : eType (s.entry lane) ≠ 0 := fun zero => cell (.inr (by rw [zero]; decide))
  refine lands_ite (fun full => refuse4_lands runs.taken (by decide) (run.trans (congrArg State.done ?_))) fun room => ?_
  · rw [full.1]
    exact (if_neg Bool.false_ne_true).trans (if_pos full.2)
  cases held : s.bypassed lane with
  | true =>
    rw [held, if_pos rfl] at run
    obtain ⟨part, box, twin, eff⟩ := bypassAgain_leaves runs.waits lane mode
    obtain ⟨first, kept, others⟩ := bypassAgain_byp held mode
    obtain ⟨only, byp, waits, answers⟩ := bypassReply_ends runs.taken runs.active part box twin eff lane
    refine ⟨_, run, only, ?_⟩
    rw [byp, if_pos rfl]
    exact ⟨first, kept, waits, answers, fun h => (nomatch h), fun h => (nomatch h), fun _ n other => (byp n).trans (others n other)⟩
  | false =>
    rw [held, if_neg Bool.false_ne_true, if_neg fun full => room ⟨held, full⟩] at run
    have made : (if mode = 1 then s.urgentBypass lane 1 else s.plannedBypass lane 1) = s.bypassMade lane 1 (decide (mode = 1)) := by
      by_cases urgent : mode = 1
      · rw [if_pos urgent, urgentBypass_made held, decide_eq_true urgent]
      · rw [if_neg urgent, plannedBypass_made held, decide_eq_false urgent]
    rw [made] at run
    obtain ⟨part, box, twin, eff⟩ := bypassMade_leaves runs.waits held 1 (decide (mode = 1))
    obtain ⟨first, kept, timed, ahead, others⟩ := bypassMade_byp typed held 1 (decide (mode = 1))
    obtain ⟨only, byp, waits, answers⟩ := bypassReply_ends runs.taken runs.active part box twin eff lane
    refine ⟨_, run, only, ?_⟩
    rw [byp, if_neg Bool.false_ne_true]
    refine ⟨first, kept, waits, answers, fun _ now => timed ?_, fun _ planned => ahead (decide_eq_false (by omega)), fun under n other => ?_⟩
    · exact now.imp (fun stopped running => absurd (stopped.symm.trans running) (by decide)) decide_eq_true
    · exact (byp n).trans (others (under.resolve_left Bool.false_ne_true) n other)

/-! ### CELL_RELEASE -/

theorem releaseRefusal_known {s : State} {lane st : Nat} (refused : s.releaseRefusal lane = some st) : st ≠ stBusy := by
  have known : st = stRefused ∨ st = stTrip := by
    unfold State.releaseRefusal at refused
    dsimp only at refused
    split at refused
    · exact .inl (Option.some.inj refused).symm
    split at refused
    · exact .inl (Option.some.inj refused).symm
    split at refused
    · exact .inr (Option.some.inj refused).symm
    split at refused
    · exact .inl (Option.some.inj refused).symm
    · exact nomatch refused
  obtain rfl | rfl := known <;> decide

theorem cellRelease_lands {s : State} {mb : Fin 8} {q : Request} (runs : s.Runs mb 0x0C23 q) (may : s.Writes mb 0x0C) :
    Lands (exec (.cellRelease mb) s) fun e =>
      let lane := uAt q.payload 0 1
      let refused := fun st => Only [.freeCount, .hatch] s e ∧ ∃ t, s.Replies e mb q st (leBytes 4 t)
      if 127 < lane then refused stBadParam
      else
        (∀ st, s.releaseRefusal lane = some st → refused st) ∧
        (s.releaseRefusal lane = none → (∀ n, n ≠ lane → e.byp n = s.byp n) ∧
          ((s.str (s.strOf lane)).st ≠ .running → OnlyWrite [.par, .prot] s e ∧
            e.byp lane = { s.byp lane with held := none, enterAt := none } ∧ s.Accepts e mb q [0, 0, 0, 0]) ∧
          ((s.str (s.strOf lane)).st = .running → OnlyWrite [.prot] s e ∧ e.byp lane = { s.byp lane with relWanted := true } ∧
            (e.box mb).waiting = .cellRelease lane ∧ (e.box mb).state = .active ∧ (e.box mb).taken = some q)) := by
  have run := congrArg State.done (withWrite_runs runs may fun q s =>
    let lane := uAt q.payload 0 1
    if 127 < lane then s.refuse4 mb stBadParam
    else
      match s.releaseRefusal lane with
      | some st => s.refuse4 mb st
      | none =>
        if (s.str (s.strOf lane)).st = .running then
          let s1 := s.modByp lane fun b => { b with relWanted := true }
          (if s1.hasStandby then s1.forwardRequest mb q else s1).waitFor mb (.cellRelease lane)
        else
          ((s.modByp lane fun b => { b with held := none, enterAt := none }).bump 0x0C09 (s.strOf lane) 3).finishWrite mb q
            (leBytes 4 0))
  have run : exec (.cellRelease mb) s = _ := run
  dsimp only at run ⊢
  generalize uAt q.payload 0 1 = lane at *
  refine lands_ite (fun bad => refuse4_lands runs.taken (by decide) (run.trans (congrArg State.done (if_pos bad)))) fun good => ?_
  rw [if_neg good] at run
  cases refusal : s.releaseRefusal lane with
  | some st =>
    rw [refusal] at run
    obtain ⟨e, lands, refused⟩ := refuse4_lands runs.taken (releaseRefusal_known refusal) run
    exact ⟨e, lands, fun st' same => by rw [← Option.some.inj same]; exact refused, fun h => nomatch h⟩
  | none =>
    rw [refusal] at run
    dsimp only at run
    by_cases running : (s.str (s.strOf lane)).st = .running
    · rw [if_pos running] at run
      have part : Only [.prot] s (s.modByp lane fun b => { b with relWanted := true }) := only_of (modByp_keeps (by decide) (.refl _ s))
      obtain ⟨only, own, byp⟩ := waits_ends (q := q) (mb := mb.val) part rfl rfl rfl (.cellRelease lane)
      refine ⟨_, run, ?_⟩
      refine ⟨fun st h => (nomatch h), fun _ => ⟨fun n other => ?_, fun idle => absurd running idle, fun _ => ⟨only, ?_, ?_⟩⟩⟩
      · rw [byp, byp_modByp_ne s other]
      · rw [byp, byp_modByp]
      · rw [own]
        exact ⟨rfl, runs.active, runs.taken⟩
    · rw [if_neg running] at run
      have keeps := bump_keeps (M := 262208) (a1 := 0x0C09) (a2 := s.strOf lane) (a3 := 3) (by decide) (modByp_keeps (M := 262208) (a1 := lane)
        (a2 := fun b => { b with held := none, enterAt := none }) (by decide) (.refl _ s))
      have part : Only [.par, .prot] s ((s.modByp lane fun b => { b with held := none, enterAt := none }).bump 0x0C09 (s.strOf lane) 3) :=
        only_of keeps
      obtain ⟨only, accepts⟩ := write_ends runs.taken part (keeps.hatch (by decide)) (keeps.twin (by decide)) (keeps.mono (by decide))
        (bump_eff ..) (leBytes 4 0) []
      refine ⟨_, run, ?_⟩
      refine ⟨fun st h => (nomatch h), fun _ => ⟨fun n other => ?_, fun _ => ⟨only, ?_, accepts⟩, fun h => absurd h running⟩⟩
      · rw [finishWrite_byp, bump_byp, byp_modByp_ne s other]
      · rw [finishWrite_byp, bump_byp, byp_modByp]

/-- Settles O34, command by command. -/
theorem bypasses : Obligations.Bypasses := fun _ _ _ => ⟨cellBypass_lands, cellRelease_lands⟩

end Sys2Proof.Machine
end

section
/-!
PROOFS. What the sequence's steps leave (R351 to R360). Trips, bypasses and starts leave the sequence itself alone, the values in effect and every
mailbox that waits for nothing; a step of the sequence moves it to one of a few states, which is all its timers' clauses turn on.
-/

namespace Sys2Proof.Machine

open Host

/-! ### The sequence under the operations of a string -/

theorem Keeps.ride {M : Nat} {s t : State} (h : Keeps M s t) (k : M.testBit 18 = false) : t.prot.ride = s.prot.ride := by rw [h.prot k]

@[simp] theorem modByp_ride (s : State) (l : Nat) (f : Byp → Byp) : (s.modByp l f).prot.ride = s.prot.ride := rfl
@[simp] theorem modPrt_ride (s : State) (l : Nat) (f : ProtStr → ProtStr) : (s.modPrt l f).prot.ride = s.prot.ride := rfl

@[simp] theorem answerWaiting_ride (s : State) (w : Waiting) (payload : Bytes) : (s.answerWaiting w payload).prot.ride = s.prot.ride :=
  (answerWaiting_keeps (M := 80) (by decide) (.refl _ s)).ride (by decide)

@[simp] theorem sendAct_ride (s : State) (lane : Nat) (a : BypAct) (t : Int) : (s.sendAct lane a t).prot.ride = s.prot.ride :=
  (sendAct_keeps (M := 131136) (by decide) (.refl _ s)).ride (by decide)

@[simp] theorem laneOut_ride (s : State) (lane : Nat) : (s.laneOut lane).prot.ride = s.prot.ride :=
  (laneOut_keeps (M := 655424) (by decide) (.refl _ s)).ride (by decide)

@[simp] theorem tripAction_ride (s : State) (str lane : Nat) (t : Int) (again entered : Bool) :
    (s.tripAction str lane t again entered).prot.ride = s.prot.ride :=
  (tripAction_keeps (M := 131136) (by decide) (.refl _ s)).ride (by decide)

@[simp] theorem coastLanes_ride (s : State) (ls : List Nat) : (s.coastLanes ls).prot.ride = s.prot.ride :=
  (coastLanes_keeps (M := 65536) (by decide) (.refl _ s)).ride (by decide)

@[simp] theorem note_ride (s : State) (island code : Nat) (args : Bytes) (info : Bool) : (s.note island code args info).prot.ride = s.prot.ride :=
  (note_keeps (M := 8304) (by decide) (.refl _ s)).ride (by decide)

@[simp] theorem bump_ride (s : State) (id inst field : Nat) : (s.bump id inst field).prot.ride = s.prot.ride := rfl

@[simp] theorem fire_ride (s : State) (src inst : Nat) (args : Bytes) : (s.fire src inst args).prot.ride = s.prot.ride :=
  (fire_keeps (M := 8440) (by decide) (.refl _ s)).ride (by decide)

@[simp] theorem condOn_ride (s : State) (src inst sub : Nat) (args : Bytes) : (s.condOn src inst sub args).prot.ride = s.prot.ride :=
  (condOn_keeps (M := 8440) (by decide) (.refl _ s)).ride (by decide)

theorem foldl_ride {α : Type} (f : State → α → State) (h : ∀ s x, (f s x).prot.ride = s.prot.ride) (l : List α) (s : State) :
    (l.foldl f s).prot.ride = s.prot.ride := by
  induction l generalizing s with
  | nil => rfl
  | cons a r ih => rw [List.foldl_cons, ih, h]

@[simp] theorem record_ride (s : State) (lane cause : Nat) : (s.record lane cause).prot.ride = s.prot.ride := by
  rw [State.record, modByp_ride, answerWaiting_ride]

@[simp] theorem enterNow_ride (s : State) (lane : Nat) : (s.enterNow lane).prot.ride = s.prot.ride := by
  rw [State.enterNow, answerWaiting_ride, sendAct_ride, modByp_ride, laneOut_ride]

@[simp] theorem tripLane_ride (s : State) (str lane : Nat) : (s.tripLane str lane).prot.ride = s.prot.ride := by
  unfold State.tripLane
  dsimp only
  split <;> split <;> simp only [tripAction_ride, answerWaiting_ride, modByp_ride, laneOut_ride]

@[simp] theorem tripMask_ride (s : State) (str mask lane : Nat) : (s.tripMask str mask lane).prot.ride = s.prot.ride := by
  unfold State.tripMask
  dsimp only
  split
  · rfl
  · rw [coastLanes_ride, note_ride, bump_ride, foldl_ride _ fun u l => tripLane_ride u str l]
    rfl

@[simp] theorem trip_ride (s : State) (str cause lane : Nat) : (s.trip str cause lane).prot.ride = s.prot.ride := by
  unfold State.trip
  split
  · exact tripMask_ride ..
  · rw [(twinTrip_keeps (M := 65536) (by decide) (.refl _ _)).ride (by decide), modPrt_ride, tripMask_ride]

@[simp] theorem urgentBypass_ride (s : State) (lane cause : Nat) : (s.urgentBypass lane cause).prot.ride = s.prot.ride := by
  unfold State.urgentBypass
  dsimp only
  repeat' split
  all_goals simp only [enterNow_ride, trip_ride, bump_ride, record_ride]

@[simp] theorem plannedBypass_ride (s : State) (lane cause : Nat) : (s.plannedBypass lane cause).prot.ride = s.prot.ride := by
  unfold State.plannedBypass
  dsimp only
  repeat' split
  all_goals simp only [enterNow_ride, trip_ride, bump_ride, record_ride]

@[simp] theorem lostMember_ride (s : State) (lane : Nat) (auth : Bool) : (s.lostMember lane auth).prot.ride = s.prot.ride := by
  unfold State.lostMember
  dsimp only
  split
  · rfl
  split
  · split
    · exact bump_ride ..
    · exact urgentBypass_ride ..
  split
  · rw [foldl_ride _ fun u str => ?_, condOn_ride]
    · rfl
    · split
      · exact trip_ride ..
      · rfl
  · rw [State.cellFail, trip_ride, modPrt_ride]

/-! ### What a step beside the sequence leaves -/

theorem State.LeavesBox.trans {n : Nat} {s t u : State} (h : s.LeavesBox n t) (k : t.LeavesBox n u) : s.LeavesBox n u := fun idle =>
  (k (by rw [h idle]; exact idle)).trans (h idle)

/-- The sequence, the values in effect and every mailbox that waits for nothing are left alone. -/
structure State.Calm (s t : State) : Prop where
  /-- The sequence. -/
  ride : t.prot.ride = s.prot.ride
  /-- The values in effect. -/
  eff : t.par.eff = s.par.eff
  /-- The mailboxes. -/
  box : ∀ n, s.LeavesBox n t

theorem State.Calm.refl (s : State) : s.Calm s := ⟨rfl, rfl, fun _ => .refl⟩

theorem State.Calm.trans {s t u : State} (h : s.Calm t) (k : t.Calm u) : s.Calm u :=
  ⟨k.ride.trans h.ride, k.eff.trans h.eff, fun n => (h.box n).trans (k.box n)⟩

/-- The mask of what a step leaves that takes neither the hatch nor the parameters nor the protection. -/
abbrev besideRide : Nat := 2 ^ 28 - 1 - 64 - 16 - 262144

theorem Keeps.calm {s t : State} (h : Keeps besideRide s t) : s.Calm t :=
  ⟨h.ride (by decide), by rw [h.par (by decide)], fun n _ => h.box (by decide) n⟩

theorem foldl_calm {α : Type} {f : State → α → State} (h : ∀ (u : State) x, u.Calm (f u x)) (l : List α) (s : State) : s.Calm (l.foldl f s) := by
  induction l generalizing s with
  | nil => exact .refl s
  | cons a r ih => exact (h s a).trans (ih _)

theorem ite_calm {c : Prop} [Decidable c] {s t u : State} (h : c → s.Calm t) (k : ¬c → s.Calm u) : s.Calm (if c then t else u) := by
  split
  · exact h ‹_›
  · exact k ‹_›

theorem modPrt_calm (s : State) (str : Nat) (f : ProtStr → ProtStr) : s.Calm (s.modPrt str f) := ⟨rfl, rfl, fun _ _ => rfl⟩

theorem sendAct_calm (s : State) (lane : Nat) (a : BypAct) (t : Int) : s.Calm (s.sendAct lane a t) :=
  ⟨sendAct_ride .., sendAct_eff .., fun n _ => (sendAct_keeps (M := 131136) (by decide) (.refl _ s)).box (by decide) n⟩

theorem note_calm (s : State) (island code : Nat) (args : Bytes) : s.Calm (s.note island code args) :=
  ⟨note_ride .., note_eff .., fun _ _ => note_box ..⟩

theorem fire_calm (s : State) (src inst : Nat) (args : Bytes) : s.Calm (s.fire src inst args) :=
  ⟨fire_ride .., fire_eff .., fun n _ => fireWith_box s src inst args false 4 n⟩

theorem lostMember_calm (s : State) (lane : Nat) (auth : Bool) : s.Calm (s.lostMember lane auth) :=
  ⟨lostMember_ride .., lostMember_eff .., fun _ => lostMember_leavesBox lane auth .refl⟩

theorem becomeStopped_calm (s : State) (str : Nat) : s.Calm (s.becomeStopped str) := by
  obtain ⟨-, -, -, eff⟩ := becomeStopped_spec s str
  refine ⟨?_, eff, fun n _ => (becomeStopped_keeps (M := 983104) (by decide) (.refl _ s)).box (by decide) n⟩
  unfold State.becomeStopped
  dsimp only
  rw [coastLanes_ride, foldl_ride _ fun u l => ?_, modPrt_ride, (modStr_keeps (M := 131072) (by decide) (.refl _ s)).ride (by decide)]
  have out : ∀ f, ((u.modMl l f).dtDiscard l).prot.ride = u.prot.ride := fun f =>
    (dtDiscard_keeps (M := 655360) (by decide) (modMl_keeps (by decide) (.refl _ u))).ride (by decide)
  split
  · exact out _
  · rw [sendAct_ride, out]

theorem startString_calm (s : State) (str short : Nat) : s.Calm (s.startString str short) := by
  unfold State.startString State.lostAtStart
  refine .trans ?_ (foldl_calm (fun u l => lostMember_calm u l false) _ _)
  have coast : ∀ (u : State) ls, u.Calm (u.coastLanes ls) := fun u ls => (coastLanes_keeps (by decide) (.refl _ u)).calm
  have sorts : ∀ (u : State) f, u.Calm (u.modSrt str f) := fun u f => (modSrt_keeps (by decide) (.refl _ u)).calm
  have modes : ∀ f, s.Calm (s.modStr str f) := fun f => (modStr_keeps (by decide) (.refl _ s)).calm
  exact (((modes _).trans (modPrt_calm _ str _)).trans (sorts _ _)).trans (coast _ _)

theorem pcFail_calm (s : State) (lane cause : Nat) : s.Calm (s.pcFail lane cause) := by
  unfold State.pcFail
  refine .trans (ite_calm (fun _ => ?_) fun _ => ?_) (fire_calm _ _ _ _)
  · exact ⟨urgentBypass_ride .., urgentBypass_eff .., fun _ => urgentBypass_leavesBox lane cause .refl⟩
  · exact ⟨plannedBypass_ride .., plannedBypass_eff .., fun _ => plannedBypass_leavesBox lane cause .refl⟩

theorem pcJudge_calm (s : State) (str : Nat) : s.Calm (s.pcJudge str) := by
  unfold State.pcJudge
  exact foldl_calm (fun u l => ite_calm (fun _ => pcFail_calm u l 3) fun _ => ite_calm (fun _ => pcFail_calm u l 9) fun _ => .refl u) _ s

/-! ### Steps of the sequence -/

/-- The sequence has moved to one of some states; the return of the supply it noted, the values in effect and every mailbox that waits for nothing
are left alone. -/
structure State.Moves (l : List RideSt) (s t : State) : Prop where
  /-- The state it has come to. -/
  st : t.prot.ride.st ∈ l
  /-- The return of the supply. -/
  returned : t.prot.ride.returnedAt = s.prot.ride.returnedAt
  /-- The values in effect. -/
  eff : t.par.eff = s.par.eff
  /-- The mailboxes. -/
  box : ∀ n, s.LeavesBox n t

theorem State.Moves.of_calm {l : List RideSt} {s t u : State} (h : s.Calm t) (k : t.Moves l u) : s.Moves l u :=
  ⟨k.st, k.returned.trans (congrArg Ride.returnedAt h.ride), k.eff.trans h.eff, fun n => (h.box n).trans (k.box n)⟩

theorem State.Moves.calm {l : List RideSt} {s t u : State} (h : s.Moves l t) (k : t.Calm u) : s.Moves l u :=
  ⟨by rw [k.ride]; exact h.st, by rw [k.ride]; exact h.returned, k.eff.trans h.eff, fun n => (h.box n).trans (k.box n)⟩

theorem State.Moves.trans {l m : List RideSt} {s t u : State} (h : s.Moves l t) (k : t.Moves m u) : s.Moves m u :=
  ⟨k.st, k.returned.trans h.returned, k.eff.trans h.eff, fun n => (h.box n).trans (k.box n)⟩

theorem State.Moves.mono {l m : List RideSt} {s t : State} (h : s.Moves l t) (sub : l ⊆ m) : s.Moves m t :=
  ⟨sub h.st, h.returned, h.eff, h.box⟩

theorem State.Moves.not {l : List RideSt} {s t : State} (h : s.Moves l t) {st : RideSt} (out : st ∉ l) : t.prot.ride.st ≠ st := fun same =>
  out (same ▸ h.st)

theorem ite_moves {c : Prop} [Decidable c] {l : List RideSt} {s t u : State} (h : c → s.Moves l t) (k : ¬c → s.Moves l u) :
    s.Moves l (if c then t else u) := by
  split
  · exact h ‹_›
  · exact k ‹_›

theorem twState_calm (s : State) (kind : Nat) : s.Calm (s.twState kind) := (twState_keeps (by decide) (.refl _ s)).calm

@[simp] theorem rideTo_ride (s : State) (st : RideSt) (reason str : Nat) : (s.rideTo st reason str).prot.ride =
    { s.prot.ride with st, reason, str, enteredAt := s.shortNow, enteredMono := s.mono } := by
  rw [State.rideTo, (twState_calm _ 3).ride, note_ride]
  rfl

@[simp] theorem rideTo_box (s : State) (st : RideSt) (reason str n : Nat) : (s.rideTo st reason str).box n = s.box n := by
  rw [State.rideTo, (twState_keeps (M := 65540) (by decide) (.refl _ _)).box (by decide), note_box]
  rfl

theorem rideTo_moves (s : State) (st : RideSt) (reason str : Nat) : s.Moves [st] (s.rideTo st reason str) := by
  refine ⟨?_, ?_, ?_, fun n => ?_⟩
  · rw [rideTo_ride]; exact List.mem_singleton_self st
  · rw [rideTo_ride]
  · rw [State.rideTo, (twState_calm _ 3).eff, note_eff]; rfl
  · exact fun _ => rideTo_box ..

/-- A change of the sequence's own fields but for its state and the return it noted. -/
theorem modRide_moves {l : List RideSt} {s t : State} {f : Ride → Ride} (st : ∀ r, (f r).st = r.st)
    (returned : ∀ r, (f r).returnedAt = r.returnedAt) (h : s.Moves l t) : s.Moves l (t.modRide f) :=
  ⟨by rw [State.modRide, updProt_prot, st]; exact h.st, by rw [State.modRide, updProt_prot, returned]; exact h.returned, h.eff, h.box⟩

@[simp] theorem rideHalt_ride (s : State) (reason str : Nat) : (s.rideHalt reason str).prot.ride =
    { s.prot.ride with st := .halted, halted := s.prot.ride.st, reason, str, enteredAt := s.shortNow, enteredMono := s.mono } := by
  rw [State.rideHalt, bump_ride, rideTo_ride]
  rfl

theorem rideHalt_moves (s : State) (reason str : Nat) : s.Moves [.halted] (s.rideHalt reason str) := by
  refine ⟨?_, ?_, ?_, fun n _ => ?_⟩
  · rw [rideHalt_ride]; exact List.mem_singleton_self _
  · rw [rideHalt_ride]
  · rw [State.rideHalt, bump_eff, (rideTo_moves _ _ _ _).eff]; rfl
  · rw [State.rideHalt, bump_box, rideTo_box]; rfl

theorem State.Calm.moves {s u : State} (calm : s.Calm u) : s.Moves [s.prot.ride.st] u :=
  ⟨by rw [calm.ride]; exact List.mem_singleton_self _, by rw [calm.ride], calm.eff, calm.box⟩

/-- The strings of the order taken in turn end at one that starts, in a halt, or in GRID (R358). -/
theorem rideNext_moves (n : Nat) (s : State) : s.Moves [.grid, .halted, s.prot.ride.st] (State.rideNext n s) := by
  induction n generalizing s with
  | zero => exact (rideTo_moves s .grid 0 0).mono (by simp)
  | succ n ih =>
    have skips : ∀ u : State, s.Calm u → s.Moves [.grid, .halted, s.prot.ride.st]
        (State.rideNext n (u.modRide fun r => { r with index := r.index + 1 })) := fun u calm => by
      have step := modRide_moves (f := fun r => { r with index := r.index + 1 }) (fun _ => rfl) (fun _ => rfl) calm.moves
      have next := ih (u.modRide fun r => { r with index := r.index + 1 })
      rw [List.mem_singleton.1 step.st] at next
      exact step.trans next
    unfold State.rideNext
    dsimp only
    split
    · exact (rideTo_moves s .grid 0 0).mono (by simp)
    · rename_i str rest drop
      refine ite_moves (fun _ => ?_) fun _ => ite_moves (fun _ => ?_) fun _ => ite_moves (fun _ => ?_) fun _ => ?_
      · exact skips _ (note_calm s 0x08 0x0C03 (leBytes 1 str))
      · exact skips s (.refl s)
      · exact (rideHalt_moves s 0x07 str).mono (by simp)
      · exact modRide_moves (fun _ => rfl) (fun _ => rfl) ((startString_calm s str _).moves.mono (by simp))

theorem rideEnable_moves (s : State) : s.Moves [.grid, .halted, .enable] s.rideEnable := by
  have enters : s.Moves [.enable] ((s.rideTo .enable).modRide fun r => { r with index := 0, gapFrom := none }) :=
    modRide_moves (fun _ => rfl) (fun _ => rfl) (rideTo_moves s .enable 0 0)
  have next := rideNext_moves 17 ((s.rideTo .enable).modRide fun r => { r with index := 0, gapFrom := none })
  rw [List.mem_singleton.1 enters.st] at next
  exact enters.trans next

/-- The states SYNC ends in, or stays in (R357). -/
theorem rideSync_moves (s : State) : s.Moves [.grid, .halted, .enable, .sync] s.rideSync := by
  have enters := rideTo_moves s .sync 0 0
  unfold State.rideSync
  refine ite_moves (fun _ => ?_) fun _ => ite_moves (fun _ => ?_) fun _ => ?_
  · exact (enters.trans (rideHalt_moves _ 0x06 0)).mono (by simp)
  · exact (enters.trans (rideEnable_moves _)).mono (by simp)
  · exact modRide_moves (fun _ => rfl) (fun _ => rfl) (enters.mono (by simp))

theorem pcDone_moves (s : State) : s.Moves [.grid, .halted, .enable, .sync] s.pcDone := by
  have judged := foldl_calm pcJudge_calm s.pcStrings s
  unfold State.pcDone
  exact ite_moves (fun _ => .of_calm judged ((rideHalt_moves _ 0x03 0).mono (by simp))) fun _ => .of_calm judged (rideSync_moves _)

/-! ### PRECHARGE (R356) -/

/-- A string that tripped for the dark alone is cleared (R356). -/
def State.pcClear (s : State) (str : Nat) : State :=
  if (s.str str).st = .tripped ∧ (s.prt str).mask = 2 ^ 13 then
    (s.modPrt str fun p => { p with mask := 0, failed := [], disabled := [] }).becomeStopped str
  else s

theorem pcClear_calm (s : State) (str : Nat) : s.Calm (s.pcClear str) := by
  unfold State.pcClear
  exact ite_calm (fun _ => (modPrt_calm s str _).trans (becomeStopped_calm _ str)) fun _ => .refl s

/-- The members of the order's MV_CELL strings. -/
def State.pcMembers (s : State) : List Nat := (s.pcStrings.map s.activeMembers).flatten

/-- The strings cleared for the pre-charge. -/
def State.pcCleared (s : State) : State := s.pcStrings.foldl State.pcClear (s.modRide fun r => { r with st := .precharge })

/-- The members told ALL_OFF for the pre-charge. -/
def State.pcReady (s : State) : State := s.pcCleared.pcMembers.foldl (fun s l => s.sendAct l .allOff s.now) s.pcCleared

/-- The members' voltages at the entry. -/
def State.pcNotes (s : State) : Tab Int := s.pcCleared.pcMembers.foldl (fun t l => t.set l (s.pcReady.capNow l)) {}

/-- The sequence in PRECHARGE, before it judges whether the level is reached. -/
def State.pcEnter (s : State) : State := (s.pcReady.modRide fun r => { r with pcNoted := s.pcNotes }).rideTo .precharge

theorem ridePrecharge_eq (s : State) : s.ridePrecharge false = if s.pcEnter.pcReached then s.pcEnter.pcDone else s.pcEnter := by
  unfold State.ridePrecharge
  dsimp only
  rw [if_neg Bool.false_ne_true]
  rfl

theorem pcReady_moves (s : State) : s.Moves [.precharge] s.pcReady := by
  have entered : s.Moves [.precharge] (s.modRide fun r => { r with st := .precharge }) :=
    ⟨List.mem_singleton_self _, rfl, rfl, fun _ _ => rfl⟩
  have cleared : s.Moves [.precharge] s.pcCleared := entered.calm (foldl_calm pcClear_calm _ _)
  exact cleared.calm (foldl_calm (fun u l => sendAct_calm u l .allOff u.now) _ _)

theorem pcEnter_moves (s : State) : s.Moves [.precharge] s.pcEnter := by
  have notes := modRide_moves (f := fun r => { r with pcNoted := s.pcNotes }) (fun _ => rfl) (fun _ => rfl) (pcReady_moves s)
  exact notes.trans (rideTo_moves (s.pcReady.modRide fun r => { r with pcNoted := s.pcNotes }) .precharge 0 0)

theorem ridePrecharge_moves (s : State) : s.Moves [.grid, .halted, .enable, .sync, .precharge] (s.ridePrecharge false) := by
  rw [ridePrecharge_eq]
  exact ite_moves (fun _ => ((pcEnter_moves s).trans (pcDone_moves _)).mono (by simp)) fun _ => (pcEnter_moves s).mono (by simp)

/-! ### DEW_WAIT and GO (R355, R359) -/

theorem dewWait_moves (s : State) : s.Moves [.dewWait] ((s.rideTo .dewWait).bump 0x0C12 noInst 1) := by
  obtain ⟨st, returned, eff, box⟩ := rideTo_moves s .dewWait 0 0
  exact ⟨by rw [bump_ride]; exact st, by rw [bump_ride]; exact returned, by rw [bump_eff]; exact eff, fun n idle => by
    rw [bump_box]; exact box n idle⟩

theorem rideDew_moves (s : State) : s.Moves [.grid, .halted, .enable, .sync, .precharge, .dewWait] s.rideDew := by
  unfold State.rideDew
  exact ite_moves (fun _ => (ridePrecharge_moves s).mono (by simp)) fun _ => (dewWait_moves s).mono (by simp)

theorem rideGo_moves (s : State) : s.Moves [.grid, .halted, .enable, .sync, .precharge, .dewWait] s.rideGo := by
  unfold State.rideGo
  refine ite_moves (fun _ => rideDew_moves s) fun _ => ?_
  split
  · exact (dewWait_moves s).mono (by simp)
  · exact (ridePrecharge_moves s).mono (by simp)
  · exact (rideSync_moves s).mono (by simp)
  · exact (rideEnable_moves s).mono (by simp)
  · exact rideDew_moves s

end Sys2Proof.Machine
end

section
/-!
PROOFS. Riding through an outage (R351, R354 to R359, R363): the entry into PRECHARGE in detail, and each timer's and command's clause from the
states the sequence can move to.
-/

namespace Sys2Proof.Machine

open Host

/-! ### What the pre-charge looks at (R356) -/

/-- A view of a link that its queue, its COAST_CFG and its IDLE_OK are no part of. -/
def coastFree {α : Type} (g : Link → α) : Prop :=
  ∀ (l : Link) q c w v, g { l with queue := q, coast := c, idleWas := w, validAt := v } = g l

section
variable {α : Type} {g : Link → α}

theorem modLink_view (s : State) (lane : Nat) {f : Link → Link} (h : ∀ l, g (f l) = g l) (n : Nat) :
    g ((s.modLink lane f).lnk n) = g (s.lnk n) := by
  by_cases own : n = lane
  · rw [own, lnk_modLink, h]
  · rw [lnk_modLink_ne s own]

theorem queueBlock_view (free : coastFree g) (s : State) (lane type payload n : Nat) :
    g ((s.queueBlock lane type payload).lnk n) = g (s.lnk n) :=
  modLink_view s (queueLane lane) (by intro l; exact free l _ l.coast l.idleWas l.validAt) n

theorem coastRefresh_view (free : coastFree g) (s : State) (lane n : Nat) : g ((s.coastRefresh lane).lnk n) = g (s.lnk n) := by
  have watched : g ((s.idleWatch lane).lnk n) = g (s.lnk n) := by
    unfold State.idleWatch
    dsimp only
    split
    · rfl
    · exact modLink_view s lane (by intro l; exact free l l.queue l.coast _ _) n
  unfold State.coastRefresh
  dsimp only
  split
  · refine (modLink_view _ lane (by intro l; exact free l l.queue _ l.idleWas l.validAt) n).trans ?_
    rw [queueBlock_view free, watched]
  · exact watched

theorem coastLanes_view (free : coastFree g) (s : State) (ls : List Nat) (n : Nat) : g ((s.coastLanes ls).lnk n) = g (s.lnk n) := by
  unfold State.coastLanes
  induction ls generalizing s with
  | nil => rfl
  | cons a r ih => rw [List.foldl_cons, ih, coastRefresh_view free]

end

theorem coastFree_samples : coastFree Link.samples := fun _ _ _ _ _ => rfl
theorem coastFree_passed : coastFree Link.passed := fun _ _ _ _ _ => rfl

/-- What the pre-charge looks at is the same in two states: the roll, the values in effect, the bypass records and the samples. -/
structure State.PcView (s t : State) : Prop where
  /-- The roll. -/
  roll : t.roll = s.roll
  /-- The values in effect. -/
  eff : t.par.eff = s.par.eff
  /-- The bypass records. -/
  byp : ∀ l, t.byp l = s.byp l
  /-- The samples. -/
  samples : ∀ l, (t.lnk l).samples = (s.lnk l).samples

theorem State.PcView.refl (s : State) : s.PcView s := ⟨rfl, rfl, fun _ => rfl, fun _ => rfl⟩

theorem State.PcView.trans {s t u : State} (h : s.PcView t) (k : t.PcView u) : s.PcView u :=
  ⟨k.roll.trans h.roll, k.eff.trans h.eff, fun l => (k.byp l).trans (h.byp l), fun l => (k.samples l).trans (h.samples l)⟩

theorem foldl_pcView {α : Type} {f : State → α → State} (h : ∀ (u : State) x, u.PcView (f u x)) (l : List α) (s : State) :
    s.PcView (l.foldl f s) := by
  induction l generalizing s with
  | nil => exact .refl s
  | cons a r ih => exact (h s a).trans (ih _)

theorem State.PcView.entry {s t : State} (h : s.PcView t) (l : Nat) : t.entry l = s.entry l := by rw [State.entry, h.roll, State.entry]

theorem State.PcView.pcStrings {s t : State} (h : s.PcView t) : t.pcStrings = s.pcStrings := by
  have members : ∀ str, t.members str = s.members str := fun str => by rw [State.members, h.roll, State.members]
  have type : ∀ str, t.strType str = s.strType str := fun str => by
    rw [State.strType, members, State.strType]
    split
    · rw [h.entry]
    · rfl
  have order : t.rideOrder = s.rideOrder := by
    simp only [State.rideOrder, State.pu, State.peff, h.eff]
  rw [State.pcStrings, order, State.pcStrings]
  exact List.filter_congr fun str _ => by rw [type]

theorem State.PcView.activeMembers {s t : State} (h : s.PcView t) (str : Nat) : t.activeMembers str = s.activeMembers str := by
  rw [State.activeMembers, State.members, h.roll, State.activeMembers, State.members]
  exact List.filter_congr fun l _ => by rw [State.bypassed, h.byp, State.bypassed]

theorem State.PcView.capNow {s t : State} (h : s.PcView t) (l : Nat) : t.capNow l = s.capNow l := by
  rw [State.capNow, h.entry, State.capNow]
  split
  · rw [h.samples]
  · rfl

theorem State.PcView.pcMembers {s t : State} (h : s.PcView t) : t.pcMembers = s.pcMembers := by
  rw [State.pcMembers, h.pcStrings, State.pcMembers]
  exact congrArg List.flatten (List.map_congr_left fun str _ => h.activeMembers str)

theorem State.PcView.pcReached {s t : State} (h : s.PcView t) : t.pcReached = s.pcReached := by
  have level : t.ps 0x0C0F noInst 0 2 = s.ps 0x0C0F noInst 0 2 := by rw [State.ps, State.peff, h.eff, State.ps, State.peff]
  rw [State.pcReached, h.pcStrings, level, State.pcReached]
  simp only [h.activeMembers, h.capNow]

theorem modRide_pcView (s : State) (f : Ride → Ride) : s.PcView (s.modRide f) := ⟨rfl, rfl, fun _ => rfl, fun _ => rfl⟩

theorem sendAct_pcView (s : State) (lane : Nat) (a : BypAct) (t : Int) : s.PcView (s.sendAct lane a t) :=
  have keeps := sendAct_keeps (M := 131136) (a1 := lane) (a2 := a) (a3 := t) (by decide) (.refl _ s)
  ⟨keeps.roll (by decide), sendAct_eff .., fun l => sendAct_byp s lane a t l, fun l => by rw [keeps.lnk (by decide)]⟩

theorem rideTo_pcView (s : State) (st : RideSt) (reason str : Nat) : s.PcView (s.rideTo st reason str) := by
  have noted := note_keeps (M := 8304) (a1 := 0x08) (a2 := 0x0C02) (a3 := leBytes 1 st.code ++ leBytes 1 reason) (a4 := false) (by decide)
    (.refl _ (s.modRide fun r => { r with st, reason, str, enteredAt := s.shortNow, enteredMono := s.mono }))
  refine ⟨(rideTo_keeps (M := 335988) (by decide) (.refl _ s)).roll (by decide), (rideTo_moves s st reason str).eff, fun l => ?_, fun l => ?_⟩
  · rw [State.rideTo, (twState_keeps (M := 65540) (by decide) (.refl _ _)).byp (by decide), noted.byp (by decide)]
    rfl
  · have told : ∀ (u : State), ((u.twState 3).lnk l).samples = (u.lnk l).samples := fun u => by
      unfold State.twState State.twinSend
      split
      · split
        · rw [queueBlock_view coastFree_samples]; rfl
        · rfl
      · rfl
    rw [State.rideTo, told, noted.lnk (by decide)]
    rfl

theorem coastLanes_pcView (s : State) (ls : List Nat) : s.PcView (s.coastLanes ls) :=
  have coast := coastLanes_keeps (M := 65536) (a1 := ls) (by decide) (.refl _ s)
  ⟨coast.roll (by decide), coastLanes_eff s ls, coast.byp (by decide), coastLanes_view coastFree_samples s ls⟩

theorem becomeStopped_pcView (s : State) (str : Nat) : s.PcView (s.becomeStopped str) := by
  unfold State.becomeStopped
  dsimp only
  have first : s.PcView ((s.modStr str fun y => { y with
      st := .stopped, stopAt := none, stopReq := false, darkStop := false, first := false, orderWait := false, plan := none, n := 0 }).modPrt str fun p => { p with uvArmed := false }) :=
    ⟨rfl, rfl, fun _ => rfl, fun _ => rfl⟩
  have lane : ∀ (u : State) l, u.PcView (let v := (u.modMl l fun m => { m with on := false, legs := {}, nlc := 0, cycle := none }).dtDiscard l
      if eType (v.entry l) = 1 then v else v.sendAct l .release ((v.now + 8000 : Nat) : Int)) := fun u l => by
    have out := dtDiscard_keeps (M := 655360) (a1 := l) (by decide) (modMl_keeps (M := 655360) (a1 := l)
      (a2 := fun m => { m with on := false, legs := {}, nlc := 0, cycle := none }) (by decide) (.refl _ u))
    have left : u.PcView ((u.modMl l fun m => { m with on := false, legs := {}, nlc := 0, cycle := none }).dtDiscard l) :=
      ⟨out.roll (by decide), by rw [out.par (by decide)], out.byp (by decide), fun n => by rw [out.lnk (by decide)]⟩
    dsimp only
    split
    · exact left
    · exact left.trans (sendAct_pcView _ l .release _)
  exact (first.trans (foldl_pcView lane _ _)).trans (coastLanes_pcView _ _)

theorem pcClear_pcView (s : State) (str : Nat) : s.PcView (s.pcClear str) := by
  unfold State.pcClear
  split
  · have cleared : s.PcView (s.modPrt str fun p => { p with mask := 0, failed := [], disabled := [] }) :=
      ⟨rfl, rfl, fun _ => rfl, fun _ => rfl⟩
    exact cleared.trans (becomeStopped_pcView _ str)
  · exact .refl s

theorem pcCleared_pcView (s : State) : s.PcView s.pcCleared := (modRide_pcView s _).trans (foldl_pcView pcClear_pcView _ _)

theorem pcReady_pcView (s : State) : s.PcView s.pcReady :=
  (pcCleared_pcView s).trans (foldl_pcView (fun u l => sendAct_pcView u l .allOff u.now) _ _)

theorem pcEnter_pcView (s : State) : s.PcView s.pcEnter :=
  ((pcReady_pcView s).trans (modRide_pcView _ _)).trans (rideTo_pcView _ .precharge 0 0)

/-! ### The entry into PRECHARGE (R356) -/

theorem foldl_set_get (v : Nat → Int) (ls : List Nat) (t : Tab Int) (l : Nat) :
    (ls.foldl (fun t l => t.set l (v l)) t).get 0 l = if l ∈ ls then v l else t.get 0 l := by
  induction ls generalizing t with
  | nil => exact (if_neg List.not_mem_nil).symm
  | cons a r ih =>
    rw [List.foldl_cons, ih]
    by_cases later : l ∈ r
    · rw [if_pos later, if_pos (List.mem_cons_of_mem a later)]
    · rw [if_neg later]
      by_cases own : l = a
      · rw [own, Tab.get_set, if_pos List.mem_cons_self]
      · rw [Tab.get_set_ne t 0 own, if_neg (by simp [own, later])]

theorem pcNotes_get (s : State) {str l : Nat} (listed : str ∈ s.pcStrings) (member : l ∈ s.activeMembers str) :
    s.pcNotes.get 0 l = s.capNow l := by
  have mem : l ∈ s.pcMembers := List.mem_flatten.2 ⟨_, List.mem_map.2 ⟨str, listed, rfl⟩, member⟩
  rw [State.pcNotes, foldl_set_get, (pcCleared_pcView s).pcMembers, if_pos mem, (pcReady_pcView s).capNow]

/-- A string cleared for the pre-charge (R356). -/
theorem pcClear_own (s : State) (str : Nat) : (s.str str).st = .tripped → (s.prt str).mask = 2 ^ 13 →
    ((s.pcClear str).str str).st = .stopped ∧ ((s.pcClear str).prt str).mask = 0 := by
  intro tripped dark
  obtain ⟨st, -, prt, -⟩ := becomeStopped_spec (s.modPrt str fun p => { p with mask := 0, failed := [], disabled := [] }) str
  rw [State.pcClear, if_pos ⟨tripped, dark⟩, prt, prt_modPrt]
  exact ⟨st, rfl⟩

theorem pcClear_stopped {s : State} {str n : Nat} (stopped : (s.str n).st = .stopped) :
    (s.pcClear str).str n = s.str n ∧ (s.pcClear str).prt n = s.prt n := by
  unfold State.pcClear
  split
  · rename_i dark
    have other : n ≠ str := fun same => by
      rw [same, dark.1] at stopped
      exact nomatch stopped
    obtain ⟨-, others, -, -⟩ := becomeStopped_spec (s.modPrt str fun p => { p with mask := 0, failed := [], disabled := [] }) str
    rw [(others n other).1, (others n other).2, modPrt_str, prt_modPrt_ne s other]
    exact ⟨rfl, rfl⟩
  · exact ⟨rfl, rfl⟩

theorem pcClear_ne (s : State) {str n : Nat} (other : n ≠ str) : (s.pcClear str).str n = s.str n ∧ (s.pcClear str).prt n = s.prt n := by
  unfold State.pcClear
  split
  · obtain ⟨-, others, -, -⟩ := becomeStopped_spec (s.modPrt str fun p => { p with mask := 0, failed := [], disabled := [] }) str
    rw [(others n other).1, (others n other).2, modPrt_str, prt_modPrt_ne s other]
    exact ⟨rfl, rfl⟩
  · exact ⟨rfl, rfl⟩

theorem foldl_pcClear_stopped (ls : List Nat) {s : State} {n : Nat} (stopped : (s.str n).st = .stopped) :
    (ls.foldl State.pcClear s).str n = s.str n ∧ (ls.foldl State.pcClear s).prt n = s.prt n := by
  induction ls generalizing s with
  | nil => exact ⟨rfl, rfl⟩
  | cons a r ih =>
    obtain ⟨str, prt⟩ := pcClear_stopped (str := a) stopped
    obtain ⟨strs, prts⟩ := ih (s := s.pcClear a) (by rw [str]; exact stopped)
    exact ⟨strs.trans str, prts.trans prt⟩

theorem foldl_pcClear_clears (ls : List Nat) {s : State} {n : Nat} (mem : n ∈ ls) (tripped : (s.str n).st = .tripped)
    (dark : (s.prt n).mask = 2 ^ 13) : ((ls.foldl State.pcClear s).str n).st = .stopped ∧ ((ls.foldl State.pcClear s).prt n).mask = 0 := by
  induction ls generalizing s with
  | nil => exact absurd mem List.not_mem_nil
  | cons a r ih =>
    by_cases own : n = a
    · obtain ⟨st, mask⟩ := pcClear_own s n tripped dark
      rw [List.foldl_cons, ← own, (foldl_pcClear_stopped r st).1, (foldl_pcClear_stopped r st).2]
      exact ⟨st, mask⟩
    · obtain ⟨str, prt⟩ := pcClear_ne s own
      exact ih ((List.mem_cons.1 mem).resolve_left own) (by rw [str]; exact tripped) (by rw [prt]; exact dark)

theorem foldl_pcClear_none (ls : List Nat) {s : State} (none_ : ∀ n ∈ ls, (s.str n).st ≠ .tripped) : ls.foldl State.pcClear s = s := by
  induction ls with
  | nil => rfl
  | cons a r ih =>
    have keeps : s.pcClear a = s := if_neg fun h => none_ a List.mem_cons_self h.1
    rw [List.foldl_cons, keeps]
    exact ih fun n mem => none_ n (List.mem_cons_of_mem a mem)

theorem foldl_sendAct_strs (ls : List Nat) (s : State) : (ls.foldl (fun s l => s.sendAct l .allOff s.now) s).mod.str = s.mod.str ∧
    ∀ n, (ls.foldl (fun s l => s.sendAct l .allOff s.now) s).prt n = s.prt n := by
  have one : ∀ (u : State) l, (u.sendAct l .allOff u.now).mod.str = u.mod.str := fun u l => by
    unfold State.sendAct State.pushAct State.addEntries
    dsimp only
    split
    · split <;> rfl
    · rfl
  induction ls generalizing s with
  | nil => exact ⟨rfl, fun _ => rfl⟩
  | cons a r ih =>
    obtain ⟨strs, prts⟩ := ih (s.sendAct a .allOff s.now)
    exact ⟨strs.trans (one s a), fun n => (prts n).trans (sendAct_prt ..)⟩

@[simp] theorem rideTo_prt (s : State) (st : RideSt) (reason str n : Nat) : (s.rideTo st reason str).prt n = s.prt n := by
  rw [State.rideTo, (twState_keeps (M := 65540) (by decide) (.refl _ _)).prt (by decide),
    (note_keeps (M := 8304) (by decide) (.refl _ _)).prt (by decide)]
  rfl

theorem rideTo_mod (s : State) (st : RideSt) (reason str : Nat) : (s.rideTo st reason str).mod = s.mod :=
  (rideTo_keeps (M := 335988) (by decide) (.refl _ s)).mod (by decide)

theorem modRide_mod (s : State) (f : Ride → Ride) : (s.modRide f).mod = s.mod := rfl
theorem modRide_prt (s : State) (f : Ride → Ride) (n : Nat) : (s.modRide f).prt n = s.prt n := rfl
theorem modRide_mono (s : State) (f : Ride → Ride) : (s.modRide f).mono = s.mono := rfl

/-- The strings after the entry are those cleared. -/
theorem pcEnter_strs (s : State) : s.pcEnter.mod.str = s.pcCleared.mod.str ∧ ∀ n, s.pcEnter.prt n = s.pcCleared.prt n := by
  obtain ⟨strs, prts⟩ := foldl_sendAct_strs s.pcCleared.pcMembers s.pcCleared
  refine ⟨?_, fun n => ?_⟩
  · rw [State.pcEnter, rideTo_mod, modRide_mod, State.pcReady, strs]
  · rw [State.pcEnter, rideTo_prt, modRide_prt, State.pcReady, prts]

theorem pcReady_mono (s : State) : s.pcReady.mono = s.mono := by
  have cleared : Keeps 983104 s s.pcCleared := by
    unfold State.pcCleared
    refine keeps_foldl (modRide_keeps (by decide) (.refl _ s)) fun u str h => ?_
    unfold State.pcClear
    exact keeps_ite (fun _ => becomeStopped_keeps (by decide) (modPrt_keeps (by decide) h)) fun _ => h
  have told : Keeps 983104 s s.pcReady := keeps_foldl cleared fun u l h => sendAct_keeps (by decide) h
  exact told.mono (by decide)

/-- The sequence after the entry. -/
theorem pcEnter_ride (s : State) : s.pcEnter.prot.ride.st = .precharge ∧ s.pcEnter.prot.ride.enteredMono = s.mono ∧
    s.pcEnter.prot.ride.pcNoted = s.pcNotes := by
  have ride := rideTo_ride (s.pcReady.modRide fun r => { r with pcNoted := s.pcNotes }) .precharge 0 0
  have at_ : (s.pcReady.modRide fun r => { r with pcNoted := s.pcNotes }).mono = s.mono := (modRide_mono s.pcReady _).trans (pcReady_mono s)
  rw [at_] at ride
  unfold State.pcEnter
  rw [ride]
  generalize s.pcNotes = notes
  exact ⟨rfl, rfl, rfl⟩

end Sys2Proof.Machine
end

section
/-!
PROOFS. Riding through an outage: the clauses of its timers and its command (R351, R354 to R359, R363).
-/

namespace Sys2Proof.Machine

open Host

/-! ### DARK, DEW_WAIT, SYNC -/

/-- The state at the return of the supply, before its effect. -/
def State.mvBack (s : State) : State := (s.modRide fun r => { r with returnedAt := s.mono }).condOff 0x3C noInst 0

theorem mvReturn_eq (s : State) : s.mvReturn = if bit (s.pu 0x0C0B noInst 0 1) 1 then s.mvBack.rideDew else s.mvBack.rideHalt 0x01 := by
  have same : s.mvBack.pu 0x0C0B noInst 0 1 = s.pu 0x0C0B noInst 0 1 := by
    have eff : s.mvBack.par.eff = s.par.eff :=
      congrArg Params.eff ((condOff_keeps (M := 262272) (by decide) (modRide_keeps (by decide) (.refl _ s))).par (by decide))
    rw [State.pu, State.peff, eff, State.pu, State.peff]
  rw [← same]
  rfl

theorem mvBack_spec (s : State) : s.mvBack.prot.ride = { s.prot.ride with returnedAt := s.mono } ∧ s.mvBack.mono = s.mono ∧
    s.mvBack.par.eff = s.par.eff := by
  have off := condOff_keeps (M := 128) (a1 := 0x3C) (a2 := noInst) (a3 := 0) (by decide)
    (.refl _ (s.modRide fun r => { r with returnedAt := s.mono }))
  exact ⟨off.ride (by decide), off.mono (by decide), congrArg Params.eff (off.par (by decide))⟩

theorem mvReturnTimeExpire_lands {s : State} {t : Nat} (runs : s.commanding = true) (from_ : s.prot.ride.returnFrom = some t)
    (dark : s.prot.ride.st = .dark) (due : t + 8000000 * s.pu 0x0C0D noInst 6 2 ≤ s.mono) :
    Lands (exec .mvReturnTimeExpire s) fun e => e.prot.ride.st ≠ .dark ∧ e.prot.ride.returnedAt = s.mono ∧
      (bit (s.pu 0x0C0B noInst 0 1) 1 = false → e.prot.ride.st = .halted ∧ e.prot.ride.reason = 1 ∧ e.prot.ride.halted = .dark ∧
        Only [.freeCount, .hatch, .notif, .par, .faults, .pantry, .links, .prot] s e) ∧
      (bit (s.pu 0x0C0B noInst 0 1) 1 = true → 8000000000 * s.pu 0x0C0E noInst 4 2 ≤ s.mono - s.prot.ride.lostAt →
        e.prot.ride.st = .dewWait ∧ e.prot.ride.enteredMono = s.mono ∧
        Only [.freeCount, .hatch, .notif, .par, .faults, .pantry, .links, .prot] s e) ∧
      Only [.freeCount, .todo, .hatch, .notif, .par, .faults, .pantry, .links, .mod, .prot, .dt] s e := by
  have run : exec .mvReturnTimeExpire s = s.mvReturn.done := by
    change execMvReturnTimeExpire s = _
    rw [execMvReturnTimeExpire, from_]
    exact if_pos ⟨dark, runs, elapsed_of_le (by rw [ms]; omega)⟩
  obtain ⟨ride, mono, eff⟩ := mvBack_spec s
  have back : s.mvBack.prot.ride.returnedAt = s.mono := by rw [ride]
  have was : s.mvBack.prot.ride.st = .dark := by rw [ride]; exact dark
  have whole : Only [.freeCount, .todo, .hatch, .notif, .par, .faults, .pantry, .links, .mod, .prot, .dt] s s.mvReturn :=
    only_of (mvReturn_keeps (by decide) (.refl _ s))
  refine ⟨s.mvReturn, run, ?_⟩
  rw [mvReturn_eq] at whole ⊢
  by_cases dew : bit (s.pu 0x0C0B noInst 0 1) 1 = true
  · rw [if_pos dew] at whole ⊢
    have moves := rideDew_moves s.mvBack
    refine ⟨moves.not (by decide), moves.returned.trans back, fun off => absurd (dew.symm.trans off) (by decide), fun _ long => ?_, whole⟩
    have skip : s.mvBack.rideDew = (s.mvBack.rideTo .dewWait).bump 0x0C12 noInst 1 := by
      refine if_neg ?_
      have skipTime : s.mvBack.pu 0x0C0E noInst 4 2 = s.pu 0x0C0E noInst 4 2 := by rw [State.pu, State.peff, eff, State.pu, State.peff]
      rw [back, ride, skipTime, ms]
      dsimp only
      omega
    rw [skip, bump_ride, rideTo_ride]
    refine ⟨rfl, mono, only_of ?_⟩
    exact bump_keeps (by decide) (rideTo_keeps (by decide) (condOff_keeps (by decide) (modRide_keeps (by decide) (.refl _ s))))
  · rw [if_neg dew] at whole ⊢
    refine ⟨(rideHalt_moves _ _ _).not (by decide), (rideHalt_moves _ _ _).returned.trans back, fun _ => ?_, fun on => absurd on dew, whole⟩
    rw [rideHalt_ride]
    refine ⟨rfl, rfl, was, only_of ?_⟩
    exact rideHalt_keeps (by decide) (condOff_keeps (by decide) (modRide_keeps (by decide) (.refl _ s)))

theorem dewHoldExpire_lands {s : State} {t : Nat} (runs : s.commanding = true) (from_ : s.prot.ride.dewFrom = some t)
    (waits : s.prot.ride.st = .dewWait) (due : t + 8000000000 * s.pu 0x0C0E noInst 2 2 ≤ s.mono) :
    Lands (exec .dewHoldExpire s) fun e => e.prot.ride.st ≠ .dewWait ∧
      Only [.freeCount, .todo, .hatch, .notif, .par, .faults, .pantry, .links, .mod, .prot, .dt] s e ∧
      (∀ str l, str ∈ s.pcStrings → l ∈ s.activeMembers str → s.capNow l < s.ps 0x0C0F noInst 0 2 →
        e.prot.ride.st = .precharge ∧ e.prot.ride.enteredMono = s.mono ∧ e.prot.ride.pcNoted.get 0 l = s.capNow l ∧
        (∀ n ∈ s.pcStrings, (s.str n).st = .tripped → (s.prt n).mask = 2 ^ 13 → (e.str n).st = .stopped ∧ (e.prt n).mask = 0) ∧
        ((∀ n ∈ s.pcStrings, (s.str n).st ≠ .tripped) → e.mod.str = s.mod.str)) := by
  have run : exec .dewHoldExpire s = (s.ridePrecharge false).done := by
    change execDewHoldExpire s = _
    rw [execDewHoldExpire, from_]
    exact if_pos ⟨waits, runs, elapsed_of_le (by rw [ms]; omega)⟩
  refine ⟨_, run, (ridePrecharge_moves s).not (by decide), only_of (ridePrecharge_keeps (by decide) (.refl _ s)), fun str l listed member low => ?_⟩
  have below : s.pcEnter.pcReached = false := by
    rw [(pcEnter_pcView s).pcReached, State.pcReached, List.all_eq_false]
    refine ⟨str, listed, fun all => ?_⟩
    have reached := of_decide_eq_true (List.all_eq_true.1 all l member)
    omega
  obtain ⟨st, mono, noted⟩ := pcEnter_ride s
  obtain ⟨strs, prts⟩ := pcEnter_strs s
  have str_ : ∀ n, s.pcEnter.str n = s.pcCleared.str n := fun n => by rw [State.str, strs, State.str]
  rw [ridePrecharge_eq, below, if_neg Bool.false_ne_true, noted]
  refine ⟨st, mono, pcNotes_get s listed member, fun n mem tripped masked => ?_, fun live => ?_⟩
  · rw [str_, prts]
    exact foldl_pcClear_clears s.pcStrings (s := s.modRide fun r => { r with st := .precharge }) mem tripped masked
  · rw [strs, State.pcCleared, foldl_pcClear_none s.pcStrings (s := s.modRide fun r => { r with st := .precharge }) live, modRide_mod]

theorem dewTimeoutExpire_lands {s : State} (runs : s.commanding = true) (waits : s.prot.ride.st = .dewWait)
    (bounded : s.pu 0x0C0E noInst 6 2 ≠ 0) (due : s.prot.ride.enteredMono + 480000000000 * s.pu 0x0C0E noInst 6 2 ≤ s.mono) :
    Lands (exec .dewTimeoutExpire s) fun e =>
      Only [.freeCount, .hatch, .notif, .par, .pantry, .links, .prot] s e ∧ e.prot.ride.st = .halted ∧ e.prot.ride.reason = 2 ∧
      e.prot.ride.halted = .dewWait := by
  refine lands_if ⟨waits, runs, bounded, elapsed_of_le (by rw [ms]; omega)⟩ ⟨only_of (rideHalt_keeps (by decide) (.refl _ s)), ?_⟩
  rw [rideHalt_ride]
  exact ⟨rfl, rfl, waits⟩

theorem syncTimeoutExpire_lands {s : State} (runs : s.commanding = true) (sync : s.prot.ride.st = .sync)
    (due : s.prot.ride.enteredMono + 8000000 * s.pu 0x0C10 noInst 10 2 ≤ s.mono) :
    Lands (exec .syncTimeoutExpire s) fun e => Only [.freeCount, .hatch, .notif, .par, .pantry, .links, .prot] s e ∧
      e.prot.ride.st = .halted ∧ e.prot.ride.reason = 5 ∧ e.prot.ride.halted = .sync := by
  refine lands_if ⟨sync, runs, elapsed_of_le (by rw [ms]; omega)⟩ ⟨only_of (rideHalt_keeps (by decide) (.refl _ s)), ?_⟩
  rw [rideHalt_ride]
  exact ⟨rfl, rfl, sync⟩

theorem pcTimeoutExpire_lands {s : State} (runs : s.commanding = true) (charging : s.prot.ride.st = .precharge)
    (due : s.prot.ride.enteredMono + 8000000 * s.pu 0x0C0F noInst 4 4 ≤ s.mono) :
    Lands (exec .pcTimeoutExpire s) fun e =>
      Only [.freeCount, .todo, .hatch, .notif, .par, .faults, .pantry, .links, .mod, .prot, .dt] s e ∧ e.prot.ride.st ≠ .precharge ∧
      (s.pcStrings = [] → s.le.running = false → e.prot.ride.st = .halted ∧ e.prot.ride.reason = 6) := by
  refine lands_if ⟨charging, runs, elapsed_of_le (by rw [ms]; omega)⟩
    ⟨only_of (pcDone_keeps (by decide) (.refl _ s)), (pcDone_moves s).not (by decide), fun none_ stopped => ?_⟩
  have sync : s.pcDone = s.rideSync := by
    rw [State.pcDone, none_, List.foldl_nil, none_, List.any_nil]
    exact if_neg Bool.false_ne_true
  have halt : s.rideSync = (s.rideTo .sync).rideHalt 0x06 := by
    rw [State.rideSync, stopped]
    exact if_pos rfl
  rw [sync, halt, rideHalt_ride]
  exact ⟨rfl, rfl⟩

/-! ### ENABLE (R358) -/

section
variable {s : State} {str : Nat} {rest : List Nat} {n : Nat}

theorem rideNext_of_nil (ends : s.rideOrder.drop s.prot.ride.index = []) : State.rideNext (n + 1) s = s.rideTo .grid := by
  rw [State.rideNext, ends]

theorem rideNext_of_tripped (next : s.rideOrder.drop s.prot.ride.index = str :: rest) (tripped : (s.str str).st = .tripped) :
    State.rideNext (n + 1) s = State.rideNext n ((s.note 0x08 0x0C03 (leBytes 1 str)).modRide fun r => { r with index := r.index + 1 }) := by
  rw [State.rideNext, next]
  exact if_pos tripped

theorem rideNext_of_stopped (next : s.rideOrder.drop s.prot.ride.index = str :: rest) (live : (s.str str).st ≠ .tripped)
    (stopped : str ∈ s.prot.ride.stopped) :
    State.rideNext (n + 1) s = State.rideNext n (s.modRide fun r => { r with index := r.index + 1 }) := by
  rw [State.rideNext, next]
  exact (if_neg live).trans (if_pos (List.contains_iff_mem.2 stopped))

theorem rideNext_of_live (next : s.rideOrder.drop s.prot.ride.index = str :: rest) (live : (s.str str).st ≠ .tripped)
    (stopped : str ∉ s.prot.ride.stopped) : State.rideNext (n + 1) s =
      if (s.startRefusal str ((s.now + s.modDelay str + 16000) % 2 ^ 32)).isSome then s.rideHalt 0x07 str
      else (s.startString str ((s.now + s.modDelay str + 16000) % 2 ^ 32)).modRide fun r => { r with gapFrom := none } := by
  rw [State.rideNext, next]
  exact (if_neg live).trans (if_neg fun h => stopped (List.contains_iff_mem.1 h))

end

/-- The next of a string that is passed is the rest of the order. -/
theorem drop_succ_of_cons {l rest : List Nat} {i str : Nat} (h : l.drop i = str :: rest) : l.drop (i + 1) = rest := by
  rw [← List.tail_drop, h, List.tail_cons]

/-- A start of a string whose enabled lanes all work (R43, R257). -/
theorem startString_of_working {s : State} {str : Nat} (working : ∀ l ∈ s.lanesOf str, eEnabled (s.entry l) = true → s.workingLink l = true)
    (short : Nat) : ((s.startString str short).str str).st = .starting ∧ ∀ n, n ≠ str → (s.startString str short).str n = s.str n := by
  unfold State.startString State.lostAtStart
  dsimp only
  generalize hgoes : (State.modSrt _ str _) = goes
  have keeps : Keeps 917504 s goes := by
    rw [← hgoes]
    exact modSrt_keeps (by decide) (modPrt_keeps (by decide) (modStr_keeps (by decide) (.refl _ s)))
  have ready : Keeps 983040 s (goes.coastLanes (goes.lanesOf str)) := coastLanes_keeps (by decide) (keeps.weaken (by decide))
  have lanes : (goes.coastLanes (goes.lanesOf str)).lanesOf str = s.lanesOf str := by
    rw [State.lanesOf, ready.roll (by decide), State.lanesOf]
  have entry : ∀ l, (goes.coastLanes (goes.lanesOf str)).entry l = s.entry l := fun l => by
    rw [State.entry, ready.roll (by decide), State.entry]
  have works : ∀ l, (goes.coastLanes (goes.lanesOf str)).workingLink l = s.workingLink l := fun l => by
    rw [State.workingLink, ready.lane (by decide), coastLanes_view coastFree_passed, keeps.lnk (by decide), State.workingLink]
  have none_ : ((goes.coastLanes (goes.lanesOf str)).lanesOf str).filter
      (fun l => eEnabled ((goes.coastLanes (goes.lanesOf str)).entry l) && !(goes.coastLanes (goes.lanesOf str)).workingLink l) = [] := by
    rw [lanes]
    refine List.filter_eq_nil_iff.2 fun l mem lost => ?_
    rw [entry, works, Bool.and_eq_true_iff] at lost
    rw [working l mem lost.1] at lost
    exact Bool.false_ne_true lost.2
  rw [none_, List.foldl_nil]
  refine ⟨?_, fun n other => ?_⟩
  · rw [coastLanes_str, ← hgoes, (modSrt_keeps (M := 524288) (by decide) (.refl _ _)).str (by decide), modPrt_str, str_modStr]
  · rw [coastLanes_str, ← hgoes, (modSrt_keeps (M := 524288) (by decide) (.refl _ _)).str (by decide), modPrt_str, str_modStr_ne s other]

theorem modRide_str (s : State) (f : Ride → Ride) (n : Nat) : (s.modRide f).str n = s.str n := rfl

/-- The order taken up at a string: past one that is TRIPPED or that the host has stopped, a halt at one that does not start, and ENABLE with the
one that does (R358, R363). -/
theorem rideNext_spec {u : State} (stage : u.prot.ride.st = .enable) (n : Nat) {str : Nat} {rest : List Nat}
    (next : u.rideOrder.drop u.prot.ride.index = str :: rest) :
    ((u.str str).st = .tripped ∨ str ∈ u.prot.ride.stopped → rest = [] → (State.rideNext (n + 2) u).prot.ride.st = .grid) ∧
    ((u.str str).st ≠ .tripped → str ∉ u.prot.ride.stopped →
      let refusal := u.startRefusal str ((u.now + u.modDelay str + 16000) % 2 ^ 32)
      let e := State.rideNext (n + 2) u
      (refusal.isSome = true → e.prot.ride.st = .halted ∧ e.prot.ride.reason = 7 ∧ e.prot.ride.str = str ∧ e.prot.ride.halted = .enable) ∧
      (refusal = none → e.prot.ride.st = .enable ∧ e.prot.ride.index = u.prot.ride.index ∧ e.prot.ride.gapFrom = none ∧
        ((∀ l ∈ u.lanesOf str, eEnabled (u.entry l) = true → u.workingLink l = true) →
          (e.str str).st = .starting ∧ ∀ n, n ≠ str → e.str n = u.str n))) := by
  have grid : ∀ v : State, (v.rideTo .grid).prot.ride.st = .grid := fun v => by rw [rideTo_ride]
  have after := drop_succ_of_cons next
  refine ⟨fun passed last => ?_, fun live free => ?_⟩
  · rw [last] at after
    by_cases tripped : (u.str str).st = .tripped
    · have order : ((u.note 0x08 0x0C03 (leBytes 1 str)).modRide fun r => { r with index := r.index + 1 }).rideOrder = u.rideOrder := by
        have eff : ((u.note 0x08 0x0C03 (leBytes 1 str)).modRide fun r => { r with index := r.index + 1 }).par.eff = u.par.eff :=
          note_eff u 0x08 0x0C03 (leBytes 1 str) false
        simp only [State.rideOrder, State.pu, State.peff, eff]
      have index : ((u.note 0x08 0x0C03 (leBytes 1 str)).modRide fun r => { r with index := r.index + 1 }).prot.ride.index =
          u.prot.ride.index + 1 := by
        rw [State.modRide, updProt_prot, note_ride]
      rw [rideNext_of_tripped next tripped, rideNext_of_nil (by rw [order, index]; exact after), grid]
    · rw [rideNext_of_stopped next tripped (passed.resolve_left tripped), rideNext_of_nil after, grid]
  · dsimp only
    rw [rideNext_of_live next live free]
    generalize (u.now + u.modDelay str + 16000) % 2 ^ 32 = short
    refine ⟨fun refused => ?_, fun goes => ?_⟩
    · rw [if_pos refused, rideHalt_ride]
      exact ⟨rfl, rfl, rfl, stage⟩
    · rw [goes, if_neg (fun h => nomatch h)]
      have calm := (startString_calm u str short).ride
      have started := startString_of_working (s := u) (str := str) (short := short)
      generalize u.startString str short = v at calm started ⊢
      have ride : (v.modRide fun r => { r with gapFrom := none }).prot.ride = { u.prot.ride with gapFrom := none } := by
        rw [State.modRide, updProt_prot, calm]
      rw [ride]
      refine ⟨stage, rfl, rfl, fun working => ?_⟩
      obtain ⟨own, others⟩ := started working
      exact ⟨by rw [modRide_str]; exact own, fun n other => by rw [modRide_str]; exact others n other⟩

theorem stageGapExpire_lands {s : State} {t : Nat} (runs : s.commanding = true) (from_ : s.prot.ride.gapFrom = some t)
    (stage : s.prot.ride.st = .enable) (due : t + 8000000 * s.pu 0x0C11 noInst 16 2 ≤ s.mono) :
    Lands (exec .stageGapExpire s) fun e =>
      Only [.freeCount, .todo, .hatch, .notif, .par, .faults, .pantry, .links, .mod, .prot, .dt] s e ∧
      (s.rideOrder.length ≤ s.prot.ride.index + 1 → e.prot.ride.st = .grid) ∧
      ∀ str rest, s.rideOrder.drop (s.prot.ride.index + 1) = str :: rest →
        ((s.str str).st = .tripped ∨ str ∈ s.prot.ride.stopped → rest = [] → e.prot.ride.st = .grid) ∧
        ((s.str str).st ≠ .tripped → str ∉ s.prot.ride.stopped →
          let refusal := s.startRefusal str ((s.now + s.modDelay str + 16000) % 2 ^ 32)
          (refusal.isSome = true → e.prot.ride.st = .halted ∧ e.prot.ride.reason = 7 ∧ e.prot.ride.str = str ∧ e.prot.ride.halted = .enable) ∧
          (refusal = none → e.prot.ride.st = .enable ∧ e.prot.ride.index = s.prot.ride.index + 1 ∧ e.prot.ride.gapFrom = none ∧
            ((∀ l ∈ s.lanesOf str, eEnabled (s.entry l) = true → s.workingLink l = true) →
              (e.str str).st = .starting ∧ ∀ n, n ≠ str → e.str n = s.str n))) := by
  have run : exec .stageGapExpire s = (State.rideNext 17 (s.modRide fun r => { r with index := r.index + 1, gapFrom := none })).done := by
    change execStageGapExpire s = _
    rw [execStageGapExpire, from_]
    exact if_pos ⟨stage, runs, elapsed_of_le (by rw [ms]; omega)⟩
  have whole := rideNext_keeps (M := 991484) (n := 17) (by decide) (modRide_keeps (a1 := fun r => { r with index := r.index + 1, gapFrom := none })
    (by decide) (.refl _ s))
  have ends : s.rideOrder.length ≤ s.prot.ride.index + 1 →
      (State.rideNext 17 (s.modRide fun r => { r with index := r.index + 1, gapFrom := none })).prot.ride.st = .grid := fun past => by
    rw [rideNext_of_nil (n := 16) (s := s.modRide fun r => { r with index := r.index + 1, gapFrom := none }) (List.drop_eq_nil_of_le past), rideTo_ride]
  exact ⟨_, run, only_of whole, ends, fun _ _ next =>
    rideNext_spec (u := s.modRide fun r => { r with index := r.index + 1, gapFrom := none }) stage 15 next⟩

/-! ### RIDE_CMD (R359, R362) -/

/-- What RIDE_CMD shows of the sequence. -/
def State.rideShown (s : State) : Bytes := leBytes 1 s.prot.ride.st.code ++ leBytes 1 s.prot.ride.reason ++ [0, 0]

/-- A step of the sequence for the host, and its answer (R362). -/
theorem rideStep_ends {s u : State} {l : List RideSt} {mb : Nat} {q : Request} (taken : (s.box mb).taken = some q)
    (waits : (s.box mb).waiting = .none) (moves : s.Moves l u) (keeps : Keeps 991484 s u) :
    OnlyWrite [.freeCount, .todo, .notif, .par, .faults, .pantry, .links, .mod, .prot, .dt] s (u.finishWrite mb q u.rideShown) ∧
    s.Answers (u.finishWrite mb q u.rideShown) mb q (u.finishWrite mb q u.rideShown).rideShown ∧
    (u.finishWrite mb q u.rideShown).prot.ride = u.prot.ride := by
  have ride := (finishWrite_keeps (M := 67664) (a1 := mb) (a2 := q) (a3 := u.rideShown) (a4 := []) (by decide) (.refl _ u)).ride (by decide)
  have part : Only [.hatch, .freeCount, .todo, .notif, .par, .faults, .pantry, .links, .mod, .prot, .dt] s u :=
    only_of (keeps.weaken (by decide))
  have twin := keeps.twin (by decide)
  have held : (u.box mb).taken = some q := by rw [moves.box mb waits]; exact taken
  have shown : (u.finishWrite mb q u.rideShown).rideShown = u.rideShown := by rw [State.rideShown, ride, State.rideShown]
  rw [shown]
  exact ⟨(part.finishWrite (hasStandby_congr twin moves.eff) mb q _ _).of_hatch, finishWrite_answers held twin moves.eff _ _, ride⟩

theorem attic_moves {l : List RideSt} {s t : State} (h : s.Moves l t) (kind island code : Nat) (args : Bytes) :
    s.Moves l (t.attic kind island code args) := by
  have kept := attic_keeps (M := 128) (a1 := kind) (a2 := island) (a3 := code) (a4 := args) (by decide) (.refl _ t)
  exact ⟨by rw [kept.ride (by decide)]; exact h.st, by rw [kept.ride (by decide)]; exact h.returned, by rw [kept.par (by decide)]; exact h.eff,
    fun n idle => (kept.box (by decide) n).trans (h.box n idle)⟩

theorem rideCmd_lands {s : State} {mb : Fin 8} {q : Request} (runs : s.Runs mb 0x0C24 q) (may : s.Writes mb 0x0C) :
    Lands (exec (.rideCmd mb) s) fun e =>
      let a := uAt q.payload 0 1
      let r := s.prot.ride
      let shows := fun (u : State) => leBytes 1 u.prot.ride.st.code ++ leBytes 1 u.prot.ride.reason ++ [0, 0]
      if a < 1 ∨ 3 < a then Only [.hatch] s e ∧ s.Replies e mb q stBadParam (shows s)
      else if (a = 3 ∧ (r.st = .dewWait ∨ (r.st = .halted ∧ r.reason = 2))) ∨ (a ≤ 2 ∧ r.st = .halted) then
        OnlyWrite [.freeCount, .todo, .notif, .par, .faults, .pantry, .links, .mod, .prot, .dt] s e ∧ s.Answers e mb q (shows e) ∧
        (a = 2 → e.prot.ride.st = .grid ∧ e.prot.ride.reason = 0 ∧ s.Accepts e mb q (shows e)) ∧
        (a = 1 → r.reason ≠ 1 → r.halted = .dewWait → e.prot.ride.st = .dewWait ∧ e.prot.ride.enteredMono = s.mono) ∧
        (a = 3 → e.prot.ride.st ≠ .dewWait)
      else Only [.hatch] s e ∧ s.Replies e mb q stRefused (shows s) := by
  have run : exec (.rideCmd mb) s = (if (!inR (uAt q.payload 0 1) 1 3) = true then s.reply mb stBadParam s.rideShown
      else if uAt q.payload 0 1 = 3 ∧ (s.prot.ride.st = .dewWait ∨ (s.prot.ride.st = .halted ∧ s.prot.ride.reason = 2)) then
        ((s.ridePrecharge false).attic 6 0 0x0C02 (leBytes 1 (s.ridePrecharge false).prot.ride.st.code ++
          leBytes 1 (s.ridePrecharge false).prot.ride.reason)).finishWrite mb q ((s.ridePrecharge false).attic 6 0 0x0C02
            (leBytes 1 (s.ridePrecharge false).prot.ride.st.code ++ leBytes 1 (s.ridePrecharge false).prot.ride.reason)).rideShown
      else if uAt q.payload 0 1 = 1 ∧ s.prot.ride.st = .halted then s.rideGo.finishWrite mb q s.rideGo.rideShown
      else if uAt q.payload 0 1 = 2 ∧ s.prot.ride.st = .halted then (s.rideTo .grid).finishWrite mb q (s.rideTo .grid).rideShown
      else s.reply mb stRefused s.rideShown).done :=
    congrArg State.done (withWrite_runs runs may _)
  dsimp only
  generalize uAt q.payload 0 1 = a at *
  have refused : ∀ status (known : status ≠ stBusy), exec (.rideCmd mb) s = (s.reply mb status s.rideShown).done →
      Lands (exec (.rideCmd mb) s) fun e => Only [.hatch] s e ∧ s.Replies e mb q status s.rideShown := fun status known ends =>
    ⟨_, ends, only_of (reply_hatch (by decide) known (.refl _ s)), reply_replies runs.taken status _⟩
  have range : (!inR a 1 3) = true ↔ a < 1 ∨ 3 < a := by
    simp only [inR, Bool.not_eq_true', Bool.and_eq_false_iff, decide_eq_false_iff_not, not_le]
  refine lands_ite (fun bad => refused _ (by decide) (run.trans (congrArg State.done (if_pos (range.2 bad))))) fun good => ?_
  rw [if_neg (mt range.1 good)] at run
  refine lands_ite (fun takes => ?_) fun idle => refused _ (by decide) (run.trans (congrArg State.done ?_))
  · by_cases ends : a = 3 ∧ (s.prot.ride.st = .dewWait ∨ (s.prot.ride.st = .halted ∧ s.prot.ride.reason = 2))
    · rw [if_pos ends] at run
      have moves := attic_moves (ridePrecharge_moves s) 6 0 0x0C02
        (leBytes 1 (s.ridePrecharge false).prot.ride.st.code ++ leBytes 1 (s.ridePrecharge false).prot.ride.reason)
      obtain ⟨only, answers, ride⟩ := rideStep_ends runs.taken runs.waits moves (attic_keeps (by decide) (ridePrecharge_keeps (by decide) (.refl _ s)))
      refine ⟨_, run, only, answers, fun h => by omega, fun h => by omega, fun _ => ?_⟩
      rw [ride]
      exact moves.not (by decide)
    rw [if_neg ends] at run
    obtain ⟨_, halted⟩ := takes.resolve_left ends
    by_cases go : a = 1
    · rw [if_pos ⟨go, halted⟩] at run
      obtain ⟨only, answers, ride⟩ := rideStep_ends runs.taken runs.waits (rideGo_moves s) (rideGo_keeps (by decide) (.refl _ s))
      refine ⟨_, run, only, answers, fun h => by omega, fun _ other was => ?_, fun h => by omega⟩
      have again : s.rideGo = (s.rideTo .dewWait).bump 0x0C12 noInst 1 := by
        rw [State.rideGo, if_neg other, was]
      rw [ride, again, bump_ride, rideTo_ride]
      exact ⟨rfl, rfl⟩
    · have abort : a = 2 := by omega
      rw [if_neg fun h => go h.1, if_pos ⟨abort, halted⟩] at run
      have moves := rideTo_moves s .grid 0 0
      have keeps := rideTo_keeps (M := 335988) (a1 := .grid) (a2 := 0) (a3 := 0) (by decide) (.refl _ s)
      obtain ⟨only, answers, ride⟩ := rideStep_ends runs.taken runs.waits moves (keeps.weaken (by decide))
      refine ⟨_, run, only, answers, fun _ => ⟨?_, ?_, ?_⟩, fun h => absurd h go, fun h => by omega⟩
      · rw [ride, rideTo_ride]
      · rw [ride, rideTo_ride]
      · have shown : ((s.rideTo .grid).finishWrite mb q (s.rideTo .grid).rideShown).rideShown = (s.rideTo .grid).rideShown := by
          rw [State.rideShown, ride, State.rideShown]
        have held : ((s.rideTo .grid).box mb).taken = some q := by rw [rideTo_box]; exact runs.taken
        change s.Accepts _ mb q ((s.rideTo .grid).finishWrite mb q (s.rideTo .grid).rideShown).rideShown
        rw [shown]
        exact (finishWrite_accepts held _ _).of_boxes (rideTo_box s .grid 0 0) (keeps.twin (by decide)) (keeps.mono (by decide)) moves.eff
  · rw [not_or] at idle
    refine (if_neg idle.1).trans ((if_neg fun h => idle.2 ⟨by omega, h.2⟩).trans (if_neg fun h => idle.2 ⟨by omega, h.2⟩))

/-- Settles O35, timer by timer. -/
theorem rideThrough : Obligations.RideThrough := fun _ runs =>
  ⟨fun _ => mvReturnTimeExpire_lands runs, fun _ => dewHoldExpire_lands runs, dewTimeoutExpire_lands runs, pcTimeoutExpire_lands runs,
    syncTimeoutExpire_lands runs, fun _ => stageGapExpire_lands runs, fun _ _ => rideCmd_lands⟩

end Sys2Proof.Machine
end

section
/-!
PROOFS. Banks and wipes of the pantry (R430, R431, R436, R437, R618). A notification takes of the pantry its memory and the access time of a bank,
and neither while the ring is off.
-/

namespace Sys2Proof.Machine

open Host

theorem mpWrite_pantry (s : State) (off : Nat) (v : Bytes) :
    ∃ mem awake, (s.mpWrite off v).pantry = { s.pantry with mem := mem, awake := awake } := by
  unfold State.mpWrite State.bankTouch
  split
  · exact ⟨s.pantry.mem, s.pantry.awake, rfl⟩
  · split
    · exact ⟨_, _, rfl⟩
    · exact ⟨_, s.pantry.awake, rfl⟩

theorem irqSince_pantry (a b : State) : (irqSince a b).pantry = b.pantry := by
  obtain ⟨m, k, e⟩ := irqSince_eq a b
  rw [e]; rfl

theorem putNote_pantry (s : State) (e : Note) : (∃ mem awake, (s.putNote e).pantry = { s.pantry with mem := mem, awake := awake }) ∧
    (s.notif.enable = false → (s.putNote e).pantry = s.pantry) := by
  have same : ∀ t : State, t.pantry = s.pantry →
      (∃ mem awake, t.pantry = { s.pantry with mem := mem, awake := awake }) ∧ (s.notif.enable = false → t.pantry = s.pantry) := fun t h =>
    ⟨⟨s.pantry.mem, s.pantry.awake, h⟩, fun _ => h⟩
  have dropped := same _ ((dropNote_keeps (M := 48) (by decide) (.refl _ s)).pantry (by decide))
  unfold State.putNote
  split
  · rename_i on
    split
    · exact dropped
    · dsimp only
      rw [irqSince_pantry]
      exact ⟨mpWrite_pantry s _ _, fun off => absurd (on.symm.trans off) (by decide)⟩
  · split
    · exact same _ rfl
    · exact dropped

theorem note_pantry (s : State) (island code : Nat) (args : Bytes) (info : Bool) :
    (∃ mem awake, (s.note island code args info).pantry = { s.pantry with mem := mem, awake := awake }) ∧
    (s.notif.enable = false → (s.note island code args info).pantry = s.pantry) := by
  rw [State.note, State.noteAt]
  split
  · exact ⟨⟨s.pantry.mem, s.pantry.awake, rfl⟩, fun _ => rfl⟩
  · exact putNote_pantry (s.updNotif fun n => { n with seq := n.seq.set island ((s.notif.seq.get 0 island + 1) % 65536) }) _

/-- Settles O42, row by row. -/
theorem banksAndWipes : Obligations.BanksAndWipes := by
  intro s
  refine ⟨fun b t awake => ⟨fun due => ?_, fun early => ?_⟩, fun b t clears => ⟨fun due => ?_, fun early => ?_⟩, ?_, fun c t wipes live due => ?_⟩
  · refine ⟨s.updPantry fun p => { p with awake := p.awake.erase b }, ?_, only_of (updPantry_keeps (by decide) (.refl _ s) State.Inv.mem), rfl, Tab.get?_erase ..⟩
    change execBankIdleTimeout b s = _
    rw [execBankIdleTimeout, awake]
    exact if_pos (elapsed_of_le due)
  · change execBankIdleTimeout b s = _
    rw [execBankIdleTimeout, awake]
    exact if_neg fun past => absurd (of_decide_eq_true past) (by rw [us]; omega)
  · refine ⟨s.updPantry fun p => { p with clearing := p.clearing.erase b }, ?_, only_of (updPantry_keeps (by decide) (.refl _ s) State.Inv.mem), rfl, ?_⟩
    · change execBankClearDone b s = _
      rw [execBankClearDone, clears]
      exact if_pos due
    · have ended : (s.updPantry fun p => { p with clearing := p.clearing.erase b }).pantry.clearing.get? b = none := Tab.get?_erase ..
      rw [State.bankOff, ended, Option.isSome_none, Bool.or_false]
      rfl
  · change execBankClearDone b s = _
    rw [execBankClearDone, clears]
    exact if_neg (by omega)
  · exact ⟨_, rfl, only_of (updBat_keeps (by decide) (wipe_keeps (by decide) (.refl _ s))), rfl, rfl, rfl, rfl, rfl⟩
  · set ended := s.updPantry fun p => { p with
      linkKeys := if c = 3 ∧ s.fw.lc ≠ .returned then s.fw.linkKeys else s.pantry.linkKeys, wiping := none, wipes := satN 16 (p.wipes + 1),
      wipeDoneAt := s.shortNow } with hended
    have run : exec .strongboxWipeDone s = (ended.note 0x0A 0x0F03 (leBytes 1 c)).done := by
      change execStrongboxWipeDone s = _
      rw [execStrongboxWipeDone, wipes]
      exact if_pos ⟨live, elapsed_of_le due⟩
    obtain ⟨⟨mem, awake, pantry⟩, off⟩ := note_pantry ended 0x0A 0x0F03 (leBytes 1 c) false
    refine ⟨_, run, only_of (note_keeps (by decide) (updPantry_keeps (by decide) (.refl _ s) State.Inv.mem)), ?_, ?_, ?_, ?_, fun disabled => ?_⟩
    · rw [pantry]; rfl
    · rw [pantry]; exact satN_eq_min 16 _
    · rw [pantry]; rfl
    · rw [pantry]; rfl
    · rw [off disabled]; rfl

end Sys2Proof.Machine
end

section
/-!
PROOFS. The commands of housekeeping and of thermal records (R448, R461, R463, R466, R467).
-/

namespace Sys2Proof.Machine

open Host

/-! ### The urgent conversions of a pair (R448) -/

theorem bump_hkPair (s : State) (id inst field n : Nat) : (s.bump id inst field).hkPair n = s.hkPair n := rfl

theorem hkStart_pair (s : State) (k : Nat) (c : HkConv) : (s.hkStart k c).hkPair k =
    { s.hkPair k with conv := some c, convAt := s.mono, convShort := s.shortNow } := hkPair_modPair s k _

/-- A pair's next conversion changes no other pair, and of its own urgent ones it takes the first at most. -/
theorem hkNext_spec (s : State) (k : Nat) : (∀ j, j ≠ k → (s.hkNext k).hkPair j = s.hkPair j) ∧
    ∀ u ∈ (s.hkPair k).urgent, u ∈ ((s.hkNext k).hkPair k).urgent ∨ ((s.hkNext k).hkPair k).conv = some (.urgent u) := by
  have stays : (∀ j, j ≠ k → s.hkPair j = s.hkPair j) ∧ ∀ u ∈ (s.hkPair k).urgent, u ∈ (s.hkPair k).urgent ∨ (s.hkPair k).conv = some (.urgent u) :=
    ⟨fun _ _ => rfl, fun _ mem => .inl mem⟩
  have first : ∀ (u : Urgent) r, (s.hkPair k).urgent = u :: r →
      (∀ j, j ≠ k → ((s.modPair k fun p => { p with urgent := r }).hkStart k (.urgent u)).hkPair j = s.hkPair j) ∧
      ∀ v ∈ (s.hkPair k).urgent, v ∈ (((s.modPair k fun p => { p with urgent := r }).hkStart k (.urgent u)).hkPair k).urgent ∨
        (((s.modPair k fun p => { p with urgent := r }).hkStart k (.urgent u)).hkPair k).conv = some (.urgent v) := fun u r list => by
    refine ⟨fun j other => ?_, fun v mem => ?_⟩
    · rw [State.hkStart, hkPair_modPair_ne _ other, hkPair_modPair_ne _ other]
    · rw [hkStart_pair, hkPair_modPair]
      rw [list] at mem
      obtain same | later := List.mem_cons.1 mem
      · exact .inr (by rw [same])
      · exact .inl later
  have seq : ∀ i, (∀ j, j ≠ k → (s.hkStart k (.seq i)).hkPair j = s.hkPair j) ∧
      ∀ u ∈ (s.hkPair k).urgent, u ∈ ((s.hkStart k (.seq i)).hkPair k).urgent ∨ ((s.hkStart k (.seq i)).hkPair k).conv = some (.urgent u) :=
    fun i => ⟨fun j other => hkPair_modPair_ne s other _, fun u mem => .inl (by rw [hkStart_pair]; exact mem)⟩
  unfold State.hkNext
  dsimp only
  split
  · exact stays
  split
  · exact stays
  split
  · split
    · exact stays
    · exact ⟨fun j other => by rw [bump_hkPair, hkPair_modPair_ne s other], fun u mem => .inl (by rw [bump_hkPair, hkPair_modPair]; exact mem)⟩
  split
  · rename_i u r list none_
    exact first u r list
  · rename_i u r i list some_
    split
    · exact first u r list
    · exact seq i
  · rename_i i none_ some_
    exact seq i
  · exact stays

/-- An urgent conversion queued waits, or is the one in progress; no other pair changes. -/
theorem hkUrgent_spec (s : State) (k : Nat) (u : Urgent) : (∀ j, j ≠ k → (s.hkUrgent k u).hkPair j = s.hkPair j) ∧
    (u ∈ ((s.hkUrgent k u).hkPair k).urgent ∨ ((s.hkUrgent k u).hkPair k).conv = some (.urgent u)) := by
  set s1 := (s.modPair k fun p => { p with urgent := p.urgent ++ [u] }).bump 0x100B noInst 2 with hs1
  have queued : (s1.hkPair k).urgent = (s.hkPair k).urgent ++ [u] := by rw [hs1, bump_hkPair, hkPair_modPair]
  have others : ∀ j, j ≠ k → s1.hkPair j = s.hkPair j := fun j other => by rw [hs1, bump_hkPair, hkPair_modPair_ne s other]
  have mem : u ∈ (s1.hkPair k).urgent := by rw [queued]; exact List.mem_append_right _ (List.mem_singleton_self u)
  unfold State.hkUrgent
  dsimp only
  rw [← hs1]
  split
  · split
    · set s2 := (s1.modPair k fun p => { p with conv := none, interrupts := p.interrupts + 1 }).bump 0x100B noInst 3 with hs2
      obtain ⟨rest, own⟩ := hkNext_spec s2 k
      have kept : (s2.hkPair k).urgent = (s1.hkPair k).urgent := by rw [hs2, bump_hkPair, hkPair_modPair]
      refine ⟨fun j other => ?_, own u (by rw [kept]; exact mem)⟩
      rw [rest j other, hs2, bump_hkPair, hkPair_modPair_ne _ other, others j other]
    · exact ⟨others, .inl mem⟩
  · exact ⟨others, .inl mem⟩
  · obtain ⟨rest, own⟩ := hkNext_spec s1 k
    exact ⟨fun j other => (rest j other).trans (others j other), own u mem⟩

/-- The first urgent conversion of a pair that sleeps wakes it; of one that is awake and has no sequence under way it starts. -/
theorem hkUrgent_first {s : State} {k : Nat} (u : Urgent) (empty : (s.hkPair k).urgent = []) (idle : (s.hkPair k).conv = none) :
    ((s.hkPair k).awake = false → (s.hkPair k).wakeFrom = none →
      (s.hkUrgent k u).hkPair k = { s.hkPair k with urgent := [u], wakeFrom := some s.mono }) ∧
    ((s.hkPair k).awake = true → (s.hkPair k).next = none →
      (s.hkUrgent k u).hkPair k = { s.hkPair k with conv := some (.urgent u), convAt := s.mono, convShort := s.shortNow }) := by
  generalize hp : s.hkPair k = p at *
  obtain ⟨awake, wakeFrom, idleFrom, conv, convAt, convShort, next, interrupts, urgent⟩ := p
  obtain rfl : urgent = [] := empty
  obtain rfl : conv = none := idle
  set s1 := (s.modPair k fun p => { p with urgent := p.urgent ++ [u] }).bump 0x100B noInst 2 with hs1
  have pair : s1.hkPair k = ⟨awake, wakeFrom, idleFrom, none, convAt, convShort, next, interrupts, [u]⟩ := by
    rw [hs1, bump_hkPair, hkPair_modPair, hp]; rfl
  have run : s.hkUrgent k u = s1.hkNext k := by
    unfold State.hkUrgent
    rw [hp]
  have mono : s1.mono = s.mono := rfl
  have short : s1.shortNow = s.shortNow := rfl
  rw [run]
  unfold State.hkNext
  rw [pair]
  refine ⟨fun asleep unwoken => ?_, fun up ends => ?_⟩
  · obtain rfl : awake = false := asleep
    obtain rfl : wakeFrom = none := unwoken
    change ((s1.modPair k fun p => { p with wakeFrom := some s1.mono }).bump 0x100B noInst 1).hkPair k = _
    rw [bump_hkPair, hkPair_modPair, pair, mono]
  · obtain rfl : awake = true := up
    obtain rfl : next = none := ends
    change ((s1.modPair k fun p => { p with urgent := [] }).hkStart k (.urgent u)).hkPair k = _
    rw [hkStart_pair, hkPair_modPair, pair]
    rfl

/-! ### The commands -/

theorem hkConvert_lands {s : State} {mb : Fin 8} {q : Request} (runs : s.Runs mb 0x1010 q) : Lands (exec (.hkConvert mb) s) fun e =>
    let k := uAt q.payload 0 1
    let i := uAt q.payload 1 1
    let u : Urgent := { input := i, paired := bit (uAt q.payload 2 1) 0, for_ := .mailbox mb }
    if 1 < k ∨ 31 < i then Only [.hatch] s e ∧ s.Replies e mb q stBadParam [5, 0, 0xFF, 0xFF]
    else if s.hkKind i = 0 then Only [.hatch] s e ∧ s.Replies e mb q stRefused [0xA0, 0, 0xFF, 0xFF]
    else if 4 ≤ (s.hkPair k).urgent.length then Only [.hatch, .par] s e ∧ s.Replies e mb q stBusy [1, 0, 0, 0]
    else Only [.hatch, .par, .hk] s e ∧ (e.box mb).waiting = .hkConvert ∧ (e.box mb).state = .active ∧ (e.box mb).taken = some q ∧
      (∀ j, j ≠ k → e.hkPair j = s.hkPair j) ∧ (u ∈ (e.hkPair k).urgent ∨ (e.hkPair k).conv = some (.urgent u)) ∧
      ((s.hkPair k).urgent = [] → (s.hkPair k).conv = none → (s.hkPair k).awake = false → (s.hkPair k).wakeFrom = none →
        e.hkPair k = { s.hkPair k with urgent := [u], wakeFrom := some s.mono }) ∧
      ((s.hkPair k).urgent = [] → (s.hkPair k).conv = none → (s.hkPair k).awake = true → (s.hkPair k).next = none →
        e.hkPair k = { s.hkPair k with conv := some (.urgent u), convAt := s.mono, convShort := s.shortNow }) := by
  have run : exec (.hkConvert mb) s = (if 1 < uAt q.payload 0 1 ∨ 31 < uAt q.payload 1 1 then s.refuse mb stBadParam 0x05
      else if s.hkKind (uAt q.payload 1 1) = 0 then s.refuse mb stRefused 0xA0
      else if 4 ≤ (s.hkPair (uAt q.payload 0 1)).urgent.length then s.busy mb 1
      else (s.waitFor mb .hkConvert).hkUrgent (uAt q.payload 0 1)
        { input := uAt q.payload 1 1, paired := bit (uAt q.payload 2 1) 0, for_ := .mailbox mb }).done :=
    congrArg State.done (withCmd_runs runs _ _)
  dsimp only
  generalize uAt q.payload 0 1 = k at *
  generalize uAt q.payload 1 1 = i at *
  generalize bit (uAt q.payload 2 1) 0 = paired at *
  refine lands_ite (fun bad => refuse_lands runs.taken (by decide) 0x05 (run.trans (congrArg State.done (if_pos bad)))) fun good => ?_
  rw [if_neg good] at run
  refine lands_ite (fun unused => refuse_lands runs.taken (by decide) 0xA0 (run.trans (congrArg State.done (if_pos unused)))) fun used => ?_
  rw [if_neg used] at run
  refine lands_ite (fun full => ⟨_, run.trans (congrArg State.done (if_pos full)), only_of (busy_keeps (by decide) (.refl _ s)),
    reply_replies runs.taken stBusy (leBytes 4 1)⟩) fun room => ?_
  rw [if_neg room] at run
  have pairs : ∀ j, (s.waitFor mb .hkConvert).hkPair j = s.hkPair j := fun _ => rfl
  generalize ({ input := i, paired := paired, for_ := .mailbox mb } : Urgent) = u at *
  have keeps := hkUrgent_keeps (M := 4194368) (a1 := k) (a2 := u) (by decide) (.refl _ (s.waitFor mb .hkConvert))
  have box : ((s.waitFor mb .hkConvert).hkUrgent k u).box mb = { s.box mb with waiting := .hkConvert } := by
    rw [keeps.box (by decide), State.waitFor, box_modBox]
  have mono : (s.waitFor mb .hkConvert).mono = s.mono := rfl
  have short : (s.waitFor mb .hkConvert).shortNow = s.shortNow := rfl
  have part : Only [.hatch, .par, .hk] s ((s.waitFor mb .hkConvert).hkUrgent k u) :=
    only_of (hkUrgent_keeps (by decide) (waitFor_keeps (by decide) (.refl _ s)))
  obtain ⟨others, own⟩ := hkUrgent_spec (s.waitFor mb .hkConvert) k u
  have first := hkUrgent_first (s := s.waitFor mb .hkConvert) (k := k) u
  rw [pairs, mono, short] at first
  generalize (s.waitFor mb .hkConvert).hkUrgent k u = e at *
  refine ⟨e, run, part, ?_, ?_, ?_, fun j other => (others j other).trans (pairs j), own, fun empty idle => (first empty idle).1,
    fun empty idle => (first empty idle).2⟩
  · rw [box]
  · rw [box]; exact runs.active
  · rw [box]; exact runs.taken

/-- A thermal record marked as read. -/
def State.thermMark (s : State) (r : ThermRec) : State :=
  s.updHk fun h => { h with recs := h.recs.map fun x => if x = r then { r with read := true } else x }

theorem thermMark_bytes (s : State) (r x : ThermRec) : (s.thermMark r).thermBytes x = s.thermBytes x := by
  have count : (s.thermMark r).hk.recs.length = s.hk.recs.length := List.length_map ..
  have zone : ∀ z, (s.thermMark r).zone z = s.zone z := fun _ => rfl
  rw [State.thermBytes, count, zone, State.thermBytes]

theorem thermRead_lands {s : State} {mb : Fin 8} {q : Request} (runs : s.Runs mb 0x1110 q) : Lands (exec (.thermRead mb) s) fun e =>
    let z := uAt q.payload 0 1
    if 15 < z ∧ z ≠ 0xFF then Only [.hatch] s e ∧ s.Replies e mb q stBadParam [5, 0, 0xFF, 0xFF]
    else Only [.hatch, .hk] s e ∧
      match s.hk.recs.find? fun r => z == 0xFF || r.zone == z with
      | none => e.hk = s.hk ∧ s.Replies e mb q stOk (List.replicate 32 0)
      | some r => e.hk = { s.hk with recs := s.hk.recs.map fun x => if x = r then { r with read := true } else x } ∧
          s.Replies e mb q stOk (s.thermBytes { r with read := true }) := by
  have found : ∀ z, (if z = 0xFF then s.hk.recs.head? else s.thermRec z) = s.hk.recs.find? fun r => z == 0xFF || r.zone == z := fun z => by
    by_cases all : z = 0xFF
    · subst all
      rw [if_pos rfl]
      cases s.hk.recs <;> rfl
    · rw [if_neg all, State.thermRec]
      have other : (z == 0xFF) = false := beq_false_of_ne all
      simp only [other, Bool.false_or]
  have run : exec (.thermRead mb) s = (if 15 < uAt q.payload 0 1 ∧ uAt q.payload 0 1 ≠ 0xFF then s.refuse mb stBadParam 0x05
      else
        match if uAt q.payload 0 1 = 0xFF then s.hk.recs.head? else s.thermRec (uAt q.payload 0 1) with
        | none => s.replyOk mb (List.replicate 32 0)
        | some r => (s.thermMark r).replyOk mb ((s.thermMark r).thermBytes { r with read := true })).done :=
    congrArg State.done (withCmd_runs runs false _)
  dsimp only
  generalize uAt q.payload 0 1 = z at *
  refine lands_ite (fun bad => refuse_lands runs.taken (by decide) 0x05 (run.trans (congrArg State.done (if_pos bad)))) fun good => ?_
  rw [if_neg good, found] at run
  cases listed : s.hk.recs.find? fun r => z == 0xFF || r.zone == z with
  | none =>
    rw [listed] at run
    exact ⟨_, run, only_of (replyOk_hatch (by decide) (.refl _ s)), by rw [(replyOk_keeps (M := 80) (by decide) (.refl _ s)).hk (by decide)],
      reply_replies runs.taken stOk _⟩
  | some r =>
    rw [listed] at run
    dsimp only at run
    rw [thermMark_bytes] at run
    have part : Only [.hk] s (s.thermMark r) := only_of (updHk_keeps (by decide) (.refl _ s))
    obtain ⟨only, replies⟩ := reply_ends runs.taken part rfl rfl (status := stOk) (by decide) (s.thermBytes { r with read := true })
    exact ⟨_, run, only, (reply_keeps (M := 80) (by decide) (.refl _ (s.thermMark r))).hk (by decide), replies⟩

theorem thermClear_lands {s : State} {mb : Fin 8} {q : Request} (runs : s.Runs mb 0x1111 q) (may : s.Writes mb 0x11) :
    Lands (exec (.thermClear mb) s) fun e =>
      let refused := fun st (x : Byte) => Only [.hatch] s e ∧ s.Replies e mb q st [x, 0, 0xFF, 0xFF]
      match s.hk.recs.find? fun r => r.id == uAt q.payload 0 4 with
      | none => refused stBadParam 0xA6
      | some r =>
        if r.read = false then refused stRefused 0xA7
        else if ∃ t, (s.zone r.zone).t = some t ∧ t < s.ps 0x1101 r.zone 12 2 then
          OnlyWrite [.faults, .hk] s e ∧ e.hk = { s.hk with recs := s.hk.recs.filter fun x => x ≠ r } ∧
          e.faults.firings = s.faults.firings ∧
          s.Accepts e mb q (leBytes 1 (s.hk.recs.filter fun x => x ≠ r).length ++ [0, 0, 0])
        else refused stRefused 0xA8 := by
  have run : exec (.thermClear mb) s = (match s.hk.recs.find? fun r : ThermRec => r.id == uAt q.payload 0 4 with
      | none => s.refuse mb stBadParam 0xA6
      | some r =>
        if r.read = false then s.refuse mb stRefused 0xA7
        else if (match (s.zone r.zone).t with
          | some t => decide (t < s.ps 0x1101 r.zone 12 2)
          | none => false) = false then s.refuse mb stRefused 0xA8
        else ((s.updHk fun h => { h with recs := h.recs.filter fun x => x ≠ r }).condOff 0x64 r.zone 0).finishWrite mb q
          (leBytes 1 (s.hk.recs.filter fun x => x ≠ r).length ++ [0, 0, 0])).done :=
    congrArg State.done (withWrite_runs runs may _)
  dsimp only
  cases listed : s.hk.recs.find? fun r : ThermRec => r.id == uAt q.payload 0 4 with
  | none =>
    rw [listed] at run
    exact refuse_lands runs.taken (by decide) 0xA6 run
  | some r =>
    rw [listed] at run
    dsimp only at run ⊢
    refine lands_ite (fun unread => refuse_lands runs.taken (by decide) 0xA7 (run.trans (congrArg State.done (if_pos unread)))) fun read => ?_
    rw [if_neg read] at run
    have low : (∃ t, (s.zone r.zone).t = some t ∧ t < s.ps 0x1101 r.zone 12 2) ↔
        ¬(match (s.zone r.zone).t with
          | some t => decide (t < s.ps 0x1101 r.zone 12 2)
          | none => false) = false := by
      cases (s.zone r.zone).t <;> simp
    refine lands_ite (fun cooled => ?_) fun hot => ?_
    · rw [if_neg (low.1 cooled)] at run
      have part : Only [.faults, .hk] s ((s.updHk fun h => { h with recs := h.recs.filter fun x => x ≠ r }).condOff 0x64 r.zone 0) :=
        only_of (condOff_keeps (by decide) (updHk_keeps (by decide) (.refl _ s)))
      obtain ⟨only, accepts⟩ := write_ends runs.taken part rfl rfl rfl rfl (leBytes 1 (s.hk.recs.filter fun x => x ≠ r).length ++ [0, 0, 0]) []
      have ends := fun (u : State) payload => finishWrite_keeps (M := 67664) (a1 := mb) (a2 := q) (a3 := payload) (a4 := []) (by decide) (.refl _ u)
      exact ⟨_, run, only, (ends _ _).hk (by decide), (ends _ _).firings (by decide), accepts⟩
    · exact refuse_lands runs.taken (by decide) 0xA8 (run.trans (congrArg State.done (if_pos (not_not.1 (mt low.2 hot)))))

/-- Settles O44, command by command. -/
theorem thermalCommands : Obligations.ThermalCommands := fun _ _ _ => ⟨hkConvert_lands, thermRead_lands, thermClear_lands⟩

end Sys2Proof.Machine
end

section
/-!
PROOFS. The commands of the loop engine (R304, R322 to R325, R327 to R331). A load is a fold of entries over the shadow, or over the larder; a commit
hands the shadow over, and a stopped engine adopts it at once.
-/

namespace Sys2Proof.Machine

open Host

theorem finishWrite_le (s : State) (mb : Nat) (q : Request) (payload data : Bytes) : (s.finishWrite mb q payload data).le = s.le :=
  (finishWrite_keeps (M := 67664) (by decide) (.refl _ s)).le (by decide)

/-! ### What is read of the pantry -/

theorem getD_map_range (f : Nat → Byte) (d : Byte) {n k : Nat} (inside : k < n) : ((List.range n).map f).getD k d = f k := by
  rw [List.getD_eq_getElem _ _ (by simpa using inside), List.getElem_map, List.getElem_range]

/-- A part of what is read is what is read there. -/
theorem slice_mpRead (s : State) (off n a m : Nat) (inside : a + m ≤ n) : slice (s.mpRead off n) a m = s.mpRead (off + a) m := by
  unfold slice State.mpRead
  refine List.map_congr_left fun i mem => ?_
  rw [getD_map_range _ _ (by have := List.mem_range.1 mem; omega), ← Nat.add_assoc]

theorem uAt_mpRead (s : State) (off n a m : Nat) (inside : a + m ≤ n) : uAt (s.mpRead off n) a m = leNat (s.mpRead (off + a) m) := by
  rw [uAt, slice_mpRead s off n a m inside]

/-! ### LOOP_LOAD -/

/-- A shadow with entries of one table taken from bytes. -/
def LoopTables.loaded (t : LoopTables) (table first : Nat) (data : Bytes) : Nat → LoopTables
  | 0 => t
  | n + 1 =>
    let before := t.loaded table first data n
    if table = 0 then { before with desc := before.desc.set (first + n) (slice data (48 * n) 48) }
    else { before with coef := before.coef.set (first + n) (slice data (32 * n) 32) }

theorem loopLoad_loaded (s : State) (table first : Nat) (data : Bytes) (n : Nat) :
    s.loopLoad table first n data = s.updLe fun l => { l with shadow := s.le.shadow.loaded table first data n } := by
  induction n with
  | zero => rfl
  | succ n ih =>
    rw [State.loopLoad, List.range_succ, List.foldl_append, ← State.loopLoad, ih]
    by_cases desc : table = 0
    · simp only [List.foldl_cons, List.foldl_nil, desc, if_true, LoopTables.loaded]; rfl
    · simp only [List.foldl_cons, List.foldl_nil, desc, if_false, LoopTables.loaded]; rfl

theorem descOf_loaded (t : LoopTables) (first : Nat) (data : Bytes) (n k : Nat) : (t.loaded 0 first data n).coefOf k = t.coefOf k ∧
    (t.loaded 0 first data n).descOf k = if first ≤ k ∧ k < first + n then slice data (48 * (k - first)) 48 else t.descOf k := by
  induction n with
  | zero => exact ⟨rfl, (if_neg (by omega)).symm⟩
  | succ n ih =>
    obtain ⟨coef, desc⟩ := ih
    refine ⟨coef, ?_⟩
    have run : (t.loaded 0 first data (n + 1)).descOf k =
        (((t.loaded 0 first data n).desc.set (first + n) (slice data (48 * n) 48)).get? k).getD (List.replicate 48 0) := rfl
    rw [run]
    by_cases last : k = first + n
    · rw [last, Tab.get?_set, if_pos (by omega), Nat.add_sub_cancel_left]; rfl
    · rw [Tab.get?_set_ne _ last, ← LoopTables.descOf, desc]
      by_cases inside : first ≤ k ∧ k < first + n
      · rw [if_pos inside, if_pos (by omega)]
      · rw [if_neg inside, if_neg (by omega)]

theorem coefOf_loaded (t : LoopTables) (first : Nat) (data : Bytes) (n k : Nat) : (t.loaded 1 first data n).descOf k = t.descOf k ∧
    (t.loaded 1 first data n).coefOf k = if first ≤ k ∧ k < first + n then slice data (32 * (k - first)) 32 else t.coefOf k := by
  induction n with
  | zero => exact ⟨rfl, (if_neg (by omega)).symm⟩
  | succ n ih =>
    obtain ⟨desc, coef⟩ := ih
    refine ⟨desc, ?_⟩
    have run : (t.loaded 1 first data (n + 1)).coefOf k =
        (((t.loaded 1 first data n).coef.set (first + n) (slice data (32 * n) 32)).get? k).getD (List.replicate 32 0) := rfl
    rw [run]
    by_cases last : k = first + n
    · rw [last, Tab.get?_set, if_pos (by omega), Nat.add_sub_cancel_left]; rfl
    · rw [Tab.get?_set_ne _ last, ← LoopTables.coefOf, coef]
      by_cases inside : first ≤ k ∧ k < first + n
      · rw [if_pos inside, if_pos (by omega)]
      · rw [if_neg inside, if_neg (by omega)]

theorem loopLoad_lands {s : State} {mb : Fin 8} {q : Request} (runs : s.Runs mb 0x0B10 q) (may : s.Writes mb 0x0B) :
    Lands (exec (.loopLoad mb) s) fun e =>
      let off := uAt q.payload 0 4
      let table := uAt q.payload 4 1
      let first := uAt q.payload 6 2
      let n := uAt q.payload 8 2
      if off % 16 ≠ 0 ∨ 0x1C0000 < off + (if table = 0 then 48 else 32) * n ∨ 1 < table ∨ 511 < first ∨ n < 1 ∨ 512 < n ∨ 512 < first + n then
        Only [.hatch] s e ∧ s.Replies e mb q stBadParam [0x05, 0, 0xFF, 0xFF]
      else OnlyWrite [.par, .pantry, .le] s e ∧ e.le.work = s.le.work ∧ e.le.gen = s.le.gen ∧ e.le.larder = s.le.larder ∧
        (table = 0 → (∀ k, e.le.shadow.coefOf k = s.le.shadow.coefOf k) ∧ ∀ k, e.le.shadow.descOf k =
          if first ≤ k ∧ k < first + n then s.mpRead (off + 48 * (k - first)) 48 else s.le.shadow.descOf k) ∧
        (table = 1 → (∀ k, e.le.shadow.descOf k = s.le.shadow.descOf k) ∧ ∀ k, e.le.shadow.coefOf k =
          if first ≤ k ∧ k < first + n then s.mpRead (off + 32 * (k - first)) 32 else s.le.shadow.coefOf k) ∧
        s.Accepts e mb q (leBytes 2 n ++ [0, 0]) := by
  have run : exec (.loopLoad mb) s = (if uAt q.payload 0 4 % 16 ≠ 0 ∨
        spanOk (uAt q.payload 0 4) ((if uAt q.payload 4 1 = 0 then 48 else 32) * uAt q.payload 8 2) = false ∨ 1 < uAt q.payload 4 1 ∨
        511 < uAt q.payload 6 2 ∨ inR (uAt q.payload 8 2) 1 512 = false ∨ 512 < uAt q.payload 6 2 + uAt q.payload 8 2 then
        s.refuse mb stBadParam 0x05
      else ((s.mpTook (uAt q.payload 0 4) ((if uAt q.payload 4 1 = 0 then 48 else 32) * uAt q.payload 8 2)).loopLoad (uAt q.payload 4 1)
        (uAt q.payload 6 2) (uAt q.payload 8 2) (s.mpRead (uAt q.payload 0 4) ((if uAt q.payload 4 1 = 0 then 48 else 32) * uAt q.payload 8 2))).finishWrite
          mb q (leBytes 2 (uAt q.payload 8 2) ++ [0, 0])
          (s.mpRead (uAt q.payload 0 4) ((if uAt q.payload 4 1 = 0 then 48 else 32) * uAt q.payload 8 2))).done :=
    congrArg State.done (withWrite_runs runs may _)
  generalize uAt q.payload 0 4 = off at *
  generalize uAt q.payload 4 1 = table at *
  generalize uAt q.payload 6 2 = first at *
  generalize uAt q.payload 8 2 = n at *
  dsimp only
  have width : ∀ w, table = 0 ∧ w = 48 ∨ table ≠ 0 ∧ w = 32 → (if table = 0 then 48 else 32) = w := fun w h => by
    obtain ⟨t, rfl⟩ | ⟨t, rfl⟩ := h
    · exact if_pos t
    · exact if_neg t
  generalize (if table = 0 then 48 else 32) = w at *
  have same : (off % 16 ≠ 0 ∨ spanOk off (w * n) = false ∨ 1 < table ∨ 511 < first ∨ inR n 1 512 = false ∨ 512 < first + n) ↔
      (off % 16 ≠ 0 ∨ 0x1C0000 < off + w * n ∨ 1 < table ∨ 511 < first ∨ n < 1 ∨ 512 < n ∨ 512 < first + n) := by
    simp only [spanOk, inR, decide_eq_false_iff_not, Bool.and_eq_false_iff, not_le, or_assoc]
  refine lands_ite (fun bad => refuse_lands runs.taken (by decide) 0x05 (run.trans (congrArg State.done (if_pos (same.2 bad))))) fun good => ?_
  rw [if_neg (mt same.1 good)] at run
  have took := mpTook_keeps (M := 8256) (a1 := off) (a2 := w * n) (by decide) (.refl _ s)
  rw [loopLoad_loaded, took.le (by decide)] at run
  have part : Only [.par, .pantry, .le] s ((s.mpTook off (w * n)).updLe fun l =>
      { l with shadow := s.le.shadow.loaded table first (s.mpRead off (w * n)) n }) :=
    only_of (updLe_keeps (by decide) (took.weaken (by decide)))
  obtain ⟨only, accepts⟩ := write_ends runs.taken part (took.hatch (by decide)) (took.twin (by decide)) (took.mono (by decide))
    (mpTook_eff s _ _) (leBytes 2 n ++ [0, 0]) (s.mpRead off (w * n))
  have le : ∀ d, (((s.mpTook off (w * n)).updLe fun l => { l with shadow := s.le.shadow.loaded table first (s.mpRead off (w * n)) n }).finishWrite mb q
      (leBytes 2 n ++ [0, 0]) d).le = { s.le with shadow := s.le.shadow.loaded table first (s.mpRead off (w * n)) n } := fun d => by
    rw [finishWrite_le, updLe_le, took.le (by decide)]
  refine ⟨_, run, only, by rw [le], by rw [le], by rw [le], fun desc => ?_, fun coef => ?_, accepts⟩
  · obtain rfl := desc
    rw [le]
    refine ⟨fun k => (descOf_loaded ..).1, fun k => ((descOf_loaded ..).2).trans ?_⟩
    split
    · rw [slice_mpRead _ _ _ _ _ (by rw [width 48 (.inl ⟨rfl, rfl⟩)]; omega)]
    · rfl
  · obtain rfl := coef
    rw [le]
    refine ⟨fun k => (coefOf_loaded ..).1, fun k => ((coefOf_loaded ..).2).trans ?_⟩
    split
    · rw [slice_mpRead _ _ _ _ _ (by rw [width 32 (.inr ⟨by decide, rfl⟩)]; omega)]
    · rfl

/-! ### LOOP_COMMIT -/

/-- A shadow handed over: a running engine keeps it pending, a stopped one works with it at once. -/
theorem loopCommit_spec (s : State) (since : Nat) :
    (s.loopCommit since).hatch = s.hatch ∧ (s.loopCommit since).twin = s.twin ∧ (s.loopCommit since).mono = s.mono ∧
    (s.loopCommit since).par.eff = s.par.eff ∧
    (s.loopCommit since).le.gen = (if s.le.gen = 0xFFFFFFFF then 1 else s.le.gen + 1) ∧ (s.loopCommit since).le.stored = s.le.shadow ∧
    (s.le.running = true → (s.loopCommit since).le.pend = some s.le.shadow ∧ (s.loopCommit since).le.pendSince = since ∧
      (s.loopCommit since).le.work = s.le.work) ∧
    (s.le.running = false → (s.loopCommit since).le.pend = none ∧ (s.loopCommit since).le.work = s.le.shadow) := by
  unfold State.loopCommit
  dsimp only
  generalize hgiven : (State.countSave _) = given
  have le : given.le = { s.le with
      pend := some s.le.shadow, pendSince := since, gen := if s.le.gen = 0xFFFFFFFF then 1 else s.le.gen + 1,
      stored := s.le.shadow, storedGen := if s.le.gen = 0xFFFFFFFF then 1 else s.le.gen + 1 } := by
    rw [← hgiven]; rfl
  have rest : given.hatch = s.hatch ∧ given.twin = s.twin ∧ given.mono = s.mono ∧ given.par.eff = s.par.eff := by
    rw [← hgiven]; exact ⟨rfl, rfl, rfl, rfl⟩
  obtain ⟨hatch, twin, mono, eff⟩ := rest
  by_cases on : s.le.running = true
  · rw [if_pos (by rw [le]; exact on), le]
    exact ⟨hatch, twin, mono, eff, rfl, rfl, fun _ => ⟨rfl, rfl, rfl⟩, fun off => absurd (on.symm.trans off) (by decide)⟩
  · have pend : given.le.pend = some s.le.shadow := by rw [le]
    rw [if_neg (by rw [le]; exact on), State.loopAdopt, pend]
    dsimp only
    rw [updLe_le, le]
    exact ⟨hatch, twin, mono, eff, rfl, rfl, fun yes => absurd yes on, fun _ => ⟨rfl, rfl⟩⟩

/-- Whatever check a shadow fails, the status is the same. -/
theorem loopFailure_status {s : State} {t : LoopTables} {f : Nat × Nat × Nat} (failing : s.loopFailure t = some f) : f.1 = stBadParam := by
  unfold State.loopFailure at failing
  split at failing
  · rename_i g first
    obtain rfl := Option.some.inj failing
    obtain ⟨x, -, named⟩ := List.exists_of_findSome?_eq_some first
    dsimp only at named
    split at named
    · cases named
    · rw [← Option.some.inj named]
  split at failing
  · rw [← Option.some.inj failing]
  split at failing
  · cases failing
  · rw [← Option.some.inj failing]

theorem loopCommit_lands {s : State} {mb : Fin 8} {q : Request} (runs : s.Runs mb 0x0B11 q) (may : s.Writes mb 0x0B) :
    Lands (exec (.loopCommit mb) s) fun e =>
      let expect := uAt q.payload 0 4
      let cost := leBytes 2 s.le.shadow.cost ++ [0, 0]
      (s.le.pend.isSome = true → Only [.hatch, .par] s e ∧ s.Replies e mb q stBusy (leBytes 4 (ceilDiv (s.p0 0x0B02) 8000))) ∧
      (s.le.pend = none → expect ≠ 0xFFFFFFFF → expect ≠ s.le.gen → Only [.freeCount, .hatch] s e ∧
        ∃ by_, s.Replies e mb q stRefused (leBytes 4 s.le.gen ++ [0xFF, 0xFF, 0x68, 0] ++ leBytes 4 by_ ++ cost)) ∧
      (∀ f, s.le.pend = none → expect = 0xFFFFFFFF ∨ expect = s.le.gen → s.loopFailure s.le.shadow = some f → Only [.freeCount, .hatch] s e ∧
        ∃ by_, s.Replies e mb q f.1 (leBytes 4 s.le.gen ++ leBytes 2 f.2.1 ++ leBytes 1 f.2.2 ++ [0] ++ leBytes 4 by_ ++ cost)) ∧
      (s.le.pend = none → expect = 0xFFFFFFFF ∨ expect = s.le.gen → s.loopFailure s.le.shadow = none → OnlyWrite [.par, .le] s e ∧
        e.le.gen = (if s.le.gen = 0xFFFFFFFF then 1 else s.le.gen + 1) ∧ e.le.stored = s.le.shadow ∧
        (s.le.running = true → e.le.pend = some s.le.shadow ∧ e.le.pendSince = s.adoptSince ∧ e.le.work = s.le.work) ∧
        (s.le.running = false → e.le.pend = none ∧ e.le.work = s.le.shadow) ∧
        s.Accepts e mb q (leBytes 4 e.le.gen ++ [0xFF, 0xFF, 0, 0] ++ leBytes 4 (s.loopAdoptAt s.adoptSince % 2 ^ 32) ++ cost)) := by
  have reply : ∀ gen fail reason by_ cost, loopReply gen fail reason by_ cost =
      leBytes 4 gen ++ leBytes 2 fail ++ leBytes 1 reason ++ [0] ++ leBytes 4 (by_ % 2 ^ 32) ++ (leBytes 2 cost ++ [0, 0]) :=
    fun _ _ _ _ _ => List.append_assoc ..
  refine ⟨s.loopRun mb q s.adoptSince, congrArg State.done (withWrite_runs runs may _), fun pending => ?_,
    fun free other known => ?_, fun f free expected failing => ?_, fun free expected sound => ?_⟩
  · rw [State.loopRun, if_pos pending]
    exact ⟨only_of (busy_keeps (by decide) (.refl _ s)), reply_replies runs.taken stBusy _⟩
  · have run : s.loopRun mb q s.adoptSince = s.tookFree.reply mb stRefused (loopReply s.le.gen 0xFFFF 0x68 s.freeVal s.le.shadow.cost) := by
      rw [State.loopRun, free]
      exact (if_neg Bool.false_ne_true).trans (if_pos ⟨other, known⟩)
    rw [run, reply]
    exact ⟨only_of (reply_hatch (by decide) (by decide) (tookFree_keeps (by decide) (.refl _ s))), s.freeVal % 2 ^ 32,
      (reply_replies (s := s.tookFree) runs.taken stRefused _).from rfl rfl⟩
  · have run : s.loopRun mb q s.adoptSince = s.tookFree.reply mb f.1 (loopReply s.le.gen f.2.1 f.2.2 s.freeVal s.le.shadow.cost) := by
      have same : ¬(uAt q.payload 0 4 ≠ 0xFFFFFFFF ∧ uAt q.payload 0 4 ≠ s.le.gen) := fun h => expected.elim h.1 h.2
      rw [State.loopRun, free, failing]
      exact (if_neg Bool.false_ne_true).trans (if_neg same)
    have answered : f.1 ≠ stBusy := by rw [loopFailure_status failing]; decide
    rw [run, reply]
    exact ⟨only_of (reply_hatch (by decide) answered (tookFree_keeps (by decide) (.refl _ s))), s.freeVal % 2 ^ 32,
      (reply_replies (s := s.tookFree) runs.taken _ _).from rfl rfl⟩
  · have run : s.loopRun mb q s.adoptSince = (s.loopCommit s.adoptSince).finishWrite mb q
        (loopReply (s.loopCommit s.adoptSince).le.gen 0xFFFF 0 (s.loopAdoptAt s.adoptSince) s.le.shadow.cost) (leBytes 8 s.adoptSince) := by
      have same : ¬(uAt q.payload 0 4 ≠ 0xFFFFFFFF ∧ uAt q.payload 0 4 ≠ s.le.gen) := fun h => expected.elim h.1 h.2
      rw [State.loopRun, free, sound]
      exact (if_neg Bool.false_ne_true).trans (if_neg same)
    obtain ⟨hatch, twin, mono, eff, gen, stored, on, off⟩ := loopCommit_spec s s.adoptSince
    have part : Only [.par, .le] s (s.loopCommit s.adoptSince) := only_of (loopCommit_keeps (by decide) (.refl _ s))
    rw [run, reply]
    generalize s.loopCommit s.adoptSince = done at *
    obtain ⟨only, accepts⟩ := write_ends runs.taken part hatch twin mono eff
      (leBytes 4 done.le.gen ++ leBytes 2 0xFFFF ++ leBytes 1 0 ++ [0] ++ leBytes 4 (s.loopAdoptAt s.adoptSince % 2 ^ 32) ++
        (leBytes 2 s.le.shadow.cost ++ [0, 0])) (leBytes 8 s.adoptSince)
    rw [finishWrite_le]
    exact ⟨only, gen, stored, on, off, accepts⟩

/-! ### The larder -/

/-- Entries written to the larder leave everything else of the engine but their stored copy. -/
theorem larderPut_spec (s : State) (first : Nat) (data : Bytes) (n : Nat) : ∃ larder stored, s.larderPut first n data =
      (s.updLe fun l => { l with larder := larder, storedLarder := stored }).countSave ∧
    ∀ k, larder.get 0 k = if first ≤ k ∧ k < first + n then uAt data (2 * (k - first)) 2 else s.le.larder.get 0 k := by
  unfold State.larderPut
  have puts : ∃ larder stored, (List.range n).foldl (fun s k => s.updLe fun l =>
      { l with larder := l.larder.set (first + k) (uAt data (2 * k) 2), storedLarder := l.storedLarder.set (first + k) (uAt data (2 * k) 2) }) s =
      (s.updLe fun l => { l with larder := larder, storedLarder := stored }) ∧
      ∀ k, larder.get 0 k = if first ≤ k ∧ k < first + n then uAt data (2 * (k - first)) 2 else s.le.larder.get 0 k := by
    induction n with
    | zero => exact ⟨s.le.larder, s.le.storedLarder, rfl, fun k => (if_neg (by omega)).symm⟩
    | succ n ih =>
      obtain ⟨larder, stored, before, entries⟩ := ih
      refine ⟨larder.set (first + n) (uAt data (2 * n) 2), stored.set (first + n) (uAt data (2 * n) 2), ?_, fun k => ?_⟩
      · rw [List.range_succ, List.foldl_append, before]; rfl
      · by_cases last : k = first + n
        · rw [last, Tab.get_set, if_pos (by omega), Nat.add_sub_cancel_left]
        · rw [Tab.get_set_ne _ _ last, entries]
          by_cases inside : first ≤ k ∧ k < first + n
          · rw [if_pos inside, if_pos (by omega)]
          · rw [if_neg inside, if_neg (by omega)]
  obtain ⟨larder, stored, eq, entries⟩ := puts
  exact ⟨larder, stored, by rw [eq], entries⟩

theorem larderWrite_lands {s : State} {mb : Fin 8} {q : Request} (runs : s.Runs mb 0x0B12 q) (may : s.Writes mb 0x0B) :
    Lands (exec (.larderWrite mb) s) fun e =>
      let off := uAt q.payload 0 4
      let first := uAt q.payload 4 2
      let n := uAt q.payload 6 2
      if off % 2 ≠ 0 ∨ 0x1C0000 < off + 2 * n ∨ 16383 < first ∨ 16384 < first + n ∨ 0x1C0000 ≤ off then
        Only [.hatch] s e ∧ s.Replies e mb q stBadParam [0x05, 0, 0xFF, 0xFF]
      else OnlyWrite [.par, .pantry, .le] s e ∧
        (∀ k, e.le.larder.get 0 k = if first ≤ k ∧ k < first + n then leNat (s.mpRead (off + 2 * (k - first)) 2) else s.le.larder.get 0 k) ∧
        e.le.work = s.le.work ∧ e.le.shadow = s.le.shadow ∧ s.Accepts e mb q [] := by
  have run : exec (.larderWrite mb) s = (if uAt q.payload 0 4 % 2 ≠ 0 ∨ spanOk (uAt q.payload 0 4) (2 * uAt q.payload 6 2) = false ∨
        16383 < uAt q.payload 4 2 ∨ 16384 < uAt q.payload 4 2 + uAt q.payload 6 2 ∨ 0x1C0000 ≤ uAt q.payload 0 4 then s.refuse mb stBadParam 0x05
      else ((s.mpTook (uAt q.payload 0 4) (2 * uAt q.payload 6 2)).larderPut (uAt q.payload 4 2) (uAt q.payload 6 2)
        (s.mpRead (uAt q.payload 0 4) (2 * uAt q.payload 6 2))).finishWrite mb q [] (s.mpRead (uAt q.payload 0 4) (2 * uAt q.payload 6 2))).done :=
    congrArg State.done (withWrite_runs runs may _)
  generalize uAt q.payload 0 4 = off at *
  generalize uAt q.payload 4 2 = first at *
  generalize uAt q.payload 6 2 = n at *
  dsimp only
  have same : (off % 2 ≠ 0 ∨ spanOk off (2 * n) = false ∨ 16383 < first ∨ 16384 < first + n ∨ 0x1C0000 ≤ off) ↔
      (off % 2 ≠ 0 ∨ 0x1C0000 < off + 2 * n ∨ 16383 < first ∨ 16384 < first + n ∨ 0x1C0000 ≤ off) := by
    simp only [spanOk, decide_eq_false_iff_not, not_le]
  refine lands_ite (fun bad => refuse_lands runs.taken (by decide) 0x05 (run.trans (congrArg State.done (if_pos (same.2 bad))))) fun good => ?_
  rw [if_neg (mt same.1 good)] at run
  have took := mpTook_keeps (M := 8256) (a1 := off) (a2 := 2 * n) (by decide) (.refl _ s)
  obtain ⟨larder, stored, put, entries⟩ := larderPut_spec (s.mpTook off (2 * n)) first (s.mpRead off (2 * n)) n
  rw [put] at run
  have part : Only [.par, .pantry, .le] s ((s.mpTook off (2 * n)).updLe fun l => { l with larder := larder, storedLarder := stored }).countSave :=
    only_of (countSave_keeps (by decide) (updLe_keeps (by decide) (took.weaken (by decide))))
  obtain ⟨only, accepts⟩ := write_ends runs.taken part (took.hatch (by decide)) (took.twin (by decide)) (took.mono (by decide))
    (mpTook_eff s _ _) [] (s.mpRead off (2 * n))
  have le : ∀ d, ((((s.mpTook off (2 * n)).updLe fun l => { l with larder := larder, storedLarder := stored }).countSave).finishWrite mb q [] d).le =
      { s.le with larder := larder, storedLarder := stored } := fun d => by
    rw [finishWrite_le, State.countSave, updPar_le, updLe_le, took.le (by decide)]
  rw [took.le (by decide)] at entries
  refine ⟨_, run, only, fun k => ?_, by rw [le], by rw [le], accepts⟩
  rw [le, entries]
  split
  · rw [uAt_mpRead _ _ _ _ _ (by omega)]
  · rfl

theorem larderRead_lands {s : State} {mb : Fin 8} {q : Request} (runs : s.Runs mb 0x0B13 q) :
    Lands (exec (.larderRead mb) s) fun e => Only [.hatch] s e ∧
      let first := uAt q.payload 0 2
      let n := uAt q.payload 2 2
      if n < 1 ∨ 248 < n ∨ 16384 < first + n then s.Replies e mb q stBadParam [0x05, 0, 0xFF, 0xFF]
      else s.Replies e mb q stOk (((List.range n).map fun k => leBytes 2 (s.le.larder.get 0 (first + k))).flatten) := by
  have run : exec (.larderRead mb) s = (if inR (uAt q.payload 2 2) 1 248 = false ∨ 16384 < uAt q.payload 0 2 + uAt q.payload 2 2 then
        s.refuse mb stBadParam 0x05
      else s.replyOk mb (((List.range (uAt q.payload 2 2)).map fun k => leBytes 2 (s.le.larder.get 0 (uAt q.payload 0 2 + k))).flatten)).done :=
    congrArg State.done (withCmd_runs runs _ _)
  have same : (inR (uAt q.payload 2 2) 1 248 = false ∨ 16384 < uAt q.payload 0 2 + uAt q.payload 2 2) ↔
      (uAt q.payload 2 2 < 1 ∨ 248 < uAt q.payload 2 2 ∨ 16384 < uAt q.payload 0 2 + uAt q.payload 2 2) := by
    simp only [inR, decide_eq_false_iff_not, Bool.and_eq_false_iff, not_le, or_assoc]
  refine ⟨_, run, ?_⟩
  dsimp only
  by_cases bad : uAt q.payload 2 2 < 1 ∨ 248 < uAt q.payload 2 2 ∨ 16384 < uAt q.payload 0 2 + uAt q.payload 2 2
  · rw [if_pos bad, if_pos (same.2 bad)]
    exact ⟨only_of (refuse_hatch (by decide) (by decide) (.refl _ s)), reply_replies runs.taken stBadParam (reasonPayload 0x05 0xFFFF)⟩
  · rw [if_neg bad, if_neg (mt same.1 bad)]
    exact ⟨only_of (replyOk_hatch (by decide) (.refl _ s)), reply_replies runs.taken stOk _⟩

/-! ### The engine's start and stop, and presets -/

/-- A command whose effect is on the loop engine alone, and then the end of an accepted write. -/
theorem leWrite_ends {s : State} {mb : Nat} {q : Request} {o : Outcome State Fault Refusal} (taken : (s.box mb).taken = some q)
    (f : LoopEng → LoopEng) (payload : Bytes) (run : o = ((s.updLe f).finishWrite mb q payload).done) :
    Lands o fun e => OnlyWrite [.le] s e ∧ e.le = f s.le ∧ s.Accepts e mb q payload := by
  obtain ⟨only, accepts⟩ := write_ends (u := s.updLe f) taken (only_of (l := [.le]) (updLe_keeps (by decide) (.refl _ s))) rfl rfl rfl rfl payload []
  exact ⟨_, run, only, finishWrite_le .., accepts⟩

theorem leStart_lands {s : State} {mb : Fin 8} {q : Request} (runs : s.Runs mb 0x0B14 q) (may : s.Writes mb 0x0B) :
    Lands (exec (.leStart mb) s) fun e =>
      let c := s.boundaryFrom (s.now + 8000)
      if s.le.running = true then Only [.hatch] s e ∧ s.Replies e mb q stRefused [0x6A, 0, 0xFF, 0xFF]
      else if s.inBudget s.le.work = false then Only [.hatch] s e ∧ s.Replies e mb q stBadParam [0x67, 0, 0xFF, 0xFF]
      else OnlyWrite [.le] s e ∧ e.le = { s.le with startAt := some (min c (s.le.startAt.getD c)) } ∧ s.Accepts e mb q (leBytes 4 c) := by
  have run : exec (.leStart mb) s = (if s.le.running = true then s.refuse mb stRefused 0x6A
      else if s.inBudget s.le.work = false then s.refuse mb stBadParam 0x67
      else (s.updLe fun e => { e with startAt := some (min (s.boundaryFrom (s.now + 8000)) (e.startAt.getD (s.boundaryFrom (s.now + 8000)))) }).finishWrite
        mb q (leBytes 4 (s.boundaryFrom (s.now + 8000)))).done :=
    congrArg State.done (withWrite_runs runs may _)
  refine lands_ite (fun on => refuse_lands runs.taken (by decide) 0x6A (run.trans (congrArg State.done (if_pos on)))) fun stopped => ?_
  rw [if_neg stopped] at run
  refine lands_ite (fun dear => refuse_lands runs.taken (by decide) 0x67 (run.trans (congrArg State.done (if_pos dear)))) fun fits => ?_
  rw [if_neg fits] at run
  exact leWrite_ends runs.taken _ _ run

theorem leStop_lands {s : State} {mb : Fin 8} {q : Request} (runs : s.Runs mb 0x0B15 q) (may : s.Writes mb 0x0B) :
    Lands (exec (.leStop mb) s) fun e =>
      if (List.range 16).any (fun n => decide ((s.str n).st = .running) && s.pu 0x080A n 0 1 != 0) = true then
        Only [.hatch] s e ∧ s.Replies e mb q stRefused [0x6B, 0, 0xFF, 0xFF]
      else OnlyWrite [.le] s e ∧ e.le = { s.le with startAt := none, stopAt := if s.le.running then some s.le.next else none } ∧
        s.Accepts e mb q (leBytes 4 s.le.next) := by
  have run : exec (.leStop mb) s = (if (List.range 16).any (fun str => decide ((s.str str).st = .running) && s.pu 0x080A str 0 1 != 0) then
        s.refuse mb stRefused 0x6B
      else (s.updLe fun e => { e with startAt := none, stopAt := if e.running then some s.le.next else none }).finishWrite mb q
        (leBytes 4 s.le.next)).done :=
    congrArg State.done (withWrite_runs runs may _)
  refine lands_ite (fun on => refuse_lands runs.taken (by decide) 0x6B (run.trans (congrArg State.done (if_pos on)))) fun off => ?_
  rw [if_neg off] at run
  exact leWrite_ends runs.taken _ _ run

theorem loopPreset_lands {s : State} {mb : Fin 8} {q : Request} (runs : s.Runs mb 0x0B16 q) (may : s.Writes mb 0x0B) :
    Lands (exec (.loopPreset mb) s) fun e =>
      let n := uAt q.payload 0 2
      if 511 < n then Only [.hatch] s e ∧ s.Replies e mb q stBadParam [0x05, 0, 0xFF, 0xFF]
      else OnlyWrite [.le] s e ∧ e.le = { s.le with presets := s.le.presets ++ [(n, sAt q.payload 2 2)] } ∧
        s.Accepts e mb q (leBytes 4 (s.le.startAt.getD s.le.next)) := by
  have run : exec (.loopPreset mb) s = (if 511 < uAt q.payload 0 2 then s.refuse mb stBadParam 0x05
      else (s.updLe fun e => { e with presets := e.presets ++ [(uAt q.payload 0 2, sAt q.payload 2 2)] }).finishWrite mb q
        (leBytes 4 (s.le.startAt.getD s.le.next))).done :=
    congrArg State.done (withWrite_runs runs may _)
  refine lands_ite (fun bad => refuse_lands runs.taken (by decide) 0x05 (run.trans (congrArg State.done (if_pos bad)))) fun good => ?_
  rw [if_neg good] at run
  exact leWrite_ends runs.taken _ _ run

/-- Settles O32, command by command. -/
theorem loopCommands : Obligations.LoopCommands := fun _ _ _ =>
  ⟨loopLoad_lands, loopCommit_lands, larderWrite_lands, larderRead_lands, leStart_lands, leStop_lands, loopPreset_lands⟩

end Sys2Proof.Machine
end

section
/-!
PROOFS. The control boundaries of the loop engine (R296 to R299, R303, R308, R323, R330, R331). What a boundary brings is said step by step: the start,
the stop, the walk that is late, overtaken or complete, and the walk that begins; the references are published by the set of a walk alone.
-/

namespace Sys2Proof.Machine

open Host

/-! ### The references under the operations of a string -/

/-- A fold of steps that leave a part of the state alone leaves it alone. -/
theorem foldl_view {α β : Type} (g : State → β) {f : State → α → State} (h : ∀ s x, g (f s x) = g s) (l : List α) (s : State) :
    g (l.foldl f s) = g s := by
  induction l generalizing s with
  | nil => rfl
  | cons a r ih => rw [List.foldl_cons, ih, h]

theorem modByp_mod (s : State) (l : Nat) (f : Byp → Byp) : (s.modByp l f).mod = s.mod := rfl
@[simp] theorem modMl_loopRef (s : State) (n : Nat) (f : ModLane → ModLane) : (s.modMl n f).mod.loopRef = s.mod.loopRef := rfl
@[simp] theorem modStr_loopRef (s : State) (n : Nat) (f : Str → Str) : (s.modStr n f).mod.loopRef = s.mod.loopRef := rfl

@[simp] theorem addEntries_loopRef (s : State) (lane : Nat) (xs : List Entry) : (s.addEntries lane xs).mod.loopRef = s.mod.loopRef := by
  unfold State.addEntries
  dsimp only
  split <;> rfl

@[simp] theorem withdraw_loopRef (s : State) (lane : Nat) (p : Entry → Bool) : (s.withdraw lane p).mod.loopRef = s.mod.loopRef :=
  addEntries_loopRef ..

@[simp] theorem sendAct_loopRef (s : State) (lane : Nat) (a : BypAct) (t : Int) : (s.sendAct lane a t).mod.loopRef = s.mod.loopRef := by
  unfold State.sendAct
  split
  · exact addEntries_loopRef ..
  · rfl

@[simp] theorem laneOut_loopRef (s : State) (lane : Nat) : (s.laneOut lane).mod.loopRef = s.mod.loopRef := by
  unfold State.laneOut
  rw [modStr_loopRef, (dtDiscard_keeps (M := 524288) (by decide) (.refl _ _)).mod (by decide), modMl_loopRef, withdraw_loopRef]

@[simp] theorem answerWaiting_loopRef (s : State) (w : Waiting) (payload : Bytes) : (s.answerWaiting w payload).mod.loopRef = s.mod.loopRef := by
  rw [(answerWaiting_keeps (M := 80) (by decide) (.refl _ s)).mod (by decide)]

@[simp] theorem record_loopRef (s : State) (lane cause : Nat) : (s.record lane cause).mod.loopRef = s.mod.loopRef := by
  rw [State.record, modByp_mod, answerWaiting_loopRef]

@[simp] theorem enterNow_loopRef (s : State) (lane : Nat) : (s.enterNow lane).mod.loopRef = s.mod.loopRef := by
  rw [State.enterNow, answerWaiting_loopRef, sendAct_loopRef, modByp_mod, laneOut_loopRef]

@[simp] theorem tripAction_loopRef (s : State) (str lane : Nat) (t : Int) (again entered : Bool) :
    (s.tripAction str lane t again entered).mod.loopRef = s.mod.loopRef := by
  unfold State.tripAction
  dsimp only
  repeat' split
  all_goals simp only [sendAct_loopRef]

@[simp] theorem tripLane_loopRef (s : State) (str lane : Nat) : (s.tripLane str lane).mod.loopRef = s.mod.loopRef := by
  unfold State.tripLane
  dsimp only
  split <;> split <;> simp only [tripAction_loopRef, answerWaiting_loopRef, modByp_mod, laneOut_loopRef]

@[simp] theorem tripMask_loopRef (s : State) (str mask lane : Nat) : (s.tripMask str mask lane).mod.loopRef = s.mod.loopRef := by
  unfold State.tripMask
  dsimp only
  split
  · rfl
  · rw [(coastLanes_keeps (M := 65536) (by decide) (.refl _ _)).mod (by decide), (note_keeps (M := 8304) (by decide) (.refl _ _)).mod (by decide),
      (bump_keeps (M := 64) (by decide) (.refl _ _)).mod (by decide),
      foldl_view (fun u : State => u.mod.loopRef) (fun u l => tripLane_loopRef u str l)]
    rfl

@[simp] theorem trip_loopRef (s : State) (str cause lane : Nat) : (s.trip str cause lane).mod.loopRef = s.mod.loopRef := by
  unfold State.trip
  split
  · exact tripMask_loopRef ..
  · rw [(twinTrip_keeps (M := 65536) (by decide) (.refl _ _)).mod (by decide)]
    exact tripMask_loopRef ..

@[simp] theorem bump_mod (s : State) (id inst field : Nat) : (s.bump id inst field).mod = s.mod := rfl

@[simp] theorem urgentBypass_loopRef (s : State) (lane cause : Nat) : (s.urgentBypass lane cause).mod.loopRef = s.mod.loopRef := by
  unfold State.urgentBypass
  dsimp only
  repeat' split
  all_goals simp only [enterNow_loopRef, trip_loopRef, bump_mod, record_loopRef]

@[simp] theorem lostMember_loopRef (s : State) (lane : Nat) (auth : Bool) : (s.lostMember lane auth).mod.loopRef = s.mod.loopRef := by
  unfold State.lostMember
  dsimp only
  split
  · rfl
  split
  · split
    · rfl
    · exact urgentBypass_loopRef ..
  split
  · rw [foldl_view (fun u : State => u.mod.loopRef) (fun u str => ?_), (condOn_keeps (M := 8440) (by decide) (.refl _ _)).mod (by decide)]
    · rfl
    · split
      · exact trip_loopRef ..
      · rfl
  · exact trip_loopRef ..

@[simp] theorem startString_loopRef (s : State) (str short : Nat) : (s.startString str short).mod.loopRef = s.mod.loopRef := by
  unfold State.startString State.lostAtStart
  dsimp only
  rw [foldl_view (fun u : State => u.mod.loopRef) (fun u l => lostMember_loopRef u l false),
    (coastLanes_keeps (M := 65536) (by decide) (.refl _ _)).mod (by decide), (modSrt_keeps (M := 524288) (by decide) (.refl _ _)).mod (by decide),
    (modPrt_keeps (M := 262144) (by decide) (.refl _ _)).mod (by decide), modStr_loopRef]

@[simp] theorem rideTo_loopRef (s : State) (st : RideSt) (reason str : Nat) : (s.rideTo st reason str).mod.loopRef = s.mod.loopRef := by
  rw [rideTo_mod]

@[simp] theorem rideNext_loopRef (n : Nat) (s : State) : (State.rideNext n s).mod.loopRef = s.mod.loopRef := by
  induction n generalizing s with
  | zero => exact rideTo_loopRef ..
  | succ n ih =>
    rw [State.rideNext]
    dsimp only
    split
    · exact rideTo_loopRef ..
    split
    · rw [ih, modRide_mod, (note_keeps (M := 8304) (by decide) (.refl _ _)).mod (by decide)]
    split
    · rw [ih, modRide_mod]
    split
    · exact congrArg Mod.loopRef ((rideHalt_keeps (M := 335988) (by decide) (.refl _ s)).mod (by decide))
    · rw [modRide_mod]; exact startString_loopRef ..

@[simp] theorem rideWalk_loopRef (s : State) : s.rideWalk.mod.loopRef = s.mod.loopRef := by
  unfold State.rideWalk
  dsimp only
  split
  · split
    · split
      · rw [State.rideEnable, rideNext_loopRef, modRide_mod]; exact rideTo_loopRef ..
      · rfl
    · rfl
  · rfl

/-! ### The start and the stop of the engine at a boundary -/

/-- Whether a start or a stop is due by a tick time. -/
def leDue (o : Option Nat) (c : Nat) : Bool :=
  match o with
  | some t => decide (t ≤ c)
  | none => false

theorem leDue_iff {o : Option Nat} {c : Nat} : leDue o c = true ↔ ∃ t, o = some t ∧ t ≤ c := by
  cases o with
  | none => exact ⟨fun h => (Bool.false_ne_true h).elim, fun ⟨_, h, _⟩ => nomatch h⟩
  | some t => simp [leDue]

theorem any_leDue (o : Option Nat) (c : Nat) : (o.any fun t => decide (t ≤ c)) = leDue o c := by cases o <;> rfl

/-- The state once the comparison period before a boundary has ended and the boundary is counted. -/
def State.cbOpened (s : State) (c : Nat) : State :=
  (s.periodEnd s.le.j (s.le.walkedAt == some (c - s.p0 0x0B02))).updLe fun e => { e with j := s.boundaryJ c, next := c + max 1 (s.p0 0x0B02) }

/-- The state once a start that is due has begun. -/
def State.cbStarted (s : State) (c : Nat) : State :=
  if leDue (s.cbOpened c).le.startAt c then
    ((s.cbOpened c).updLe fun e => { e with running := true, startAt := none }).loopAdopt.loopsFresh
  else s.cbOpened c

/-- The state once a stop that is due has been made. -/
def State.cbStopped (s : State) (c : Nat) : State := if leDue (s.cbStarted c).le.stopAt c then (s.cbStarted c).loopStop else s.cbStarted c

/-- The walk of a boundary, from the state in which the engine runs or not. -/
def State.cbWalked (s : State) (j c : Nat) : State :=
  match s.le.walk with
  | some w =>
    if s.le.running = false then s
    else if c + publishTicks < w.doneAt then s.skipBoundary w.j
    else if c < w.doneAt then s.publishLate.walkEnd.rideWalk.walkBoundary j c
    else s.publish.walkBoundary j c
  | none => if s.le.running then s.walkBoundary j c else s.resyncLoops

theorem controlBoundary_eq (s : State) (c : Nat) :
    s.controlBoundary c = ((s.cbStopped c).cbWalked (s.boundaryJ c) c).later .summaries := by
  unfold State.controlBoundary State.cbStopped State.cbStarted State.cbOpened State.cbWalked leDue
  rfl

theorem cbOpened_spec (s : State) (c : Nat) :
    (s.cbOpened c).le = { s.le with j := s.boundaryJ c, next := c + max 1 (s.p0 0x0B02) } ∧ (s.cbOpened c).twin.resyncIn = s.twin.resyncIn ∧
    Keeps 1116160 s (s.cbOpened c) := by
  unfold State.cbOpened
  refine ⟨?_, ?_, ?_⟩
  · rw [updLe_le, (periodEnd_keeps (M := 67584) (by decide) (.refl _ s)).le (by decide)]
  · rw [updLe_twin]
    unfold State.periodEnd
    dsimp only
    split
    · rw [(compareSend_keeps (M := 65536) (by decide) (.refl _ _)).twin (by decide)]; rfl
    · rfl
  · exact updLe_keeps (by decide) (periodEnd_keeps (by decide) (.refl _ s))

/-- An adoption takes of the engine its tables and its loops' states. -/
theorem loopAdopt_le (s : State) : ∃ loop, s.loopAdopt.le = { s.le with work := s.le.pend.getD s.le.work, pend := none, loop := loop } := by
  unfold State.loopAdopt
  split
  · rename_i none_
    refine ⟨s.le.loop, ?_⟩
    generalize s.le = l at *
    obtain ⟨⟩ := l
    obtain rfl := none_
    rfl
  · rename_i t some_
    rw [some_]
    exact ⟨_, rfl⟩

theorem loopAdopt_keeps_le (s : State) : Keeps 1048576 s s.loopAdopt := loopAdopt_keeps (by decide) (.refl _ s)

theorem cbStarted_keeps (s : State) (c : Nat) : Keeps 1116160 s (s.cbStarted c) :=
  keeps_ite (fun _ => loopsFresh_keeps (by decide) (loopAdopt_keeps (by decide) (updLe_keeps (by decide) (cbOpened_spec s c).2.2)))
    fun _ => (cbOpened_spec s c).2.2

/-- The engine after a start that is due. -/
theorem cbStarted_le (s : State) (c : Nat) : ∃ loop,
    (leDue s.le.startAt c = true → (s.cbStarted c).le = { s.le with
      running := true, startAt := none, j := s.boundaryJ c, next := c + max 1 (s.p0 0x0B02), work := s.le.pend.getD s.le.work, pend := none,
      loop := loop }) ∧
    (leDue s.le.startAt c = false → s.cbStarted c = s.cbOpened c) ∧ (s.cbStarted c).twin.resyncIn = s.twin.resyncIn := by
  obtain ⟨le, resync, -⟩ := cbOpened_spec s c
  have start : (s.cbOpened c).le.startAt = s.le.startAt := by rw [le]
  unfold State.cbStarted
  rw [start]
  generalize s.cbOpened c = u at *
  obtain ⟨loop, adopted⟩ := loopAdopt_le (u.updLe fun e => { e with running := true, startAt := none })
  have twin := (loopAdopt_keeps_le (u.updLe fun e => { e with running := true, startAt := none })).twin (by decide)
  generalize (u.updLe fun e => { e with running := true, startAt := none }).loopAdopt = v at *
  by_cases due : leDue s.le.startAt c = true
  · rw [if_pos due, due]
    refine ⟨v.loopsFresh.le.loop, fun _ => ?_, (nomatch ·), ?_⟩
    · rw [State.loopsFresh, updLe_le, adopted, updLe_le, le]
    · rw [State.loopsFresh, updLe_twin, twin, updLe_twin, resync]
  · rw [if_neg due]
    exact ⟨s.le.loop, fun yes => absurd yes due, fun _ => rfl, resync⟩

/-- A boundary at which a stop is due: the engine is stopped and nothing is walked. -/
theorem cbStopped_of_stop {s : State} {c : Nat} (stop : leDue s.le.stopAt c = true) (resync : s.twin.resyncIn = false) :
    let e := s.controlBoundary c
    e.le.running = false ∧ e.le.stopAt = none ∧ e.le.skips = 0 ∧ e.le.pend = none ∧ e.le.walk = s.le.walk ∧ e.le.j = s.boundaryJ c ∧
      e.le.next = c + max 1 (s.p0 0x0B02) ∧ ∀ t, s.le.pend = some t → e.le.work = t := by
  obtain ⟨loop, due, idle, twin⟩ := cbStarted_le s c
  obtain ⟨opened, -, -⟩ := cbOpened_spec s c
  have began : ∃ startAt running loop work pend, (s.cbStarted c).le = { s.le with
      running := running, startAt := startAt, j := s.boundaryJ c, next := c + max 1 (s.p0 0x0B02), work := work, pend := pend, loop := loop } ∧
      pend.getD work = s.le.pend.getD s.le.work := by
    cases hd : leDue s.le.startAt c
    · exact ⟨_, _, _, _, _, by rw [idle hd]; exact opened, rfl⟩
    · exact ⟨_, _, _, _, _, due hd, rfl⟩
  obtain ⟨startAt, running, loop', work, pend, le, tables⟩ := began
  have stopped : s.cbStopped c = (s.cbStarted c).loopStop := by
    unfold State.cbStopped
    exact if_pos (by rw [le]; exact stop)
  have halted : ∃ loop, (s.cbStopped c).le = { s.le with
      running := false, startAt := startAt, stopAt := none, skips := 0, j := s.boundaryJ c, next := c + max 1 (s.p0 0x0B02),
      work := s.le.pend.getD s.le.work, pend := none, loop := loop } ∧ (s.cbStopped c).twin.resyncIn = false := by
    rw [stopped]
    unfold State.loopStop
    dsimp only
    obtain ⟨loop, adopted⟩ := loopAdopt_le ((s.cbStarted c).updLe fun e => { e with running := false, stopAt := none, skips := 0 })
    have kept := (loopAdopt_keeps_le ((s.cbStarted c).updLe fun e => { e with running := false, stopAt := none, skips := 0 })).twin (by decide)
    generalize State.loopAdopt _ = v at *
    rw [updLe_le, le] at adopted
    rw [updLe_twin] at kept
    rw [← tables]
    have same : v.twin.resyncIn = false := by rw [kept, twin, resync]
    split
    · have halts := rideHalt_keeps (M := 335988) (a1 := 6) (a2 := 0) (by decide) (.refl _ v)
      rw [halts.le (by decide), halts.twin (by decide)]
      exact ⟨loop, adopted, same⟩
    · exact ⟨loop, adopted, same⟩
  obtain ⟨loop'', leq, same⟩ := halted
  have walked : (s.cbStopped c).cbWalked (s.boundaryJ c) c = s.cbStopped c := by
    have off : (s.cbStopped c).le.running = false := by rw [leq]
    unfold State.cbWalked
    split
    · exact if_pos off
    · rw [off]
      exact (if_neg Bool.false_ne_true).trans (if_neg (by rw [same]; exact Bool.false_ne_true))
  dsimp only
  rw [controlBoundary_eq, walked, show ((s.cbStopped c).later .summaries).le = (s.cbStopped c).le from rfl, leq]
  exact ⟨rfl, rfl, rfl, rfl, rfl, rfl, rfl, fun t pend => by rw [pend]; rfl⟩

/-- A boundary of a stopped engine at which neither a start nor a stop is due. -/
theorem controlBoundary_of_idle {s : State} {c : Nat} (off : s.le.running = false) (start : leDue s.le.startAt c = false)
    (stop : leDue s.le.stopAt c = false) (resync : s.twin.resyncIn = false) :
    s.controlBoundary c = (s.cbOpened c).later .summaries := by
  obtain ⟨loop, -, idle, twin⟩ := cbStarted_le s c
  obtain ⟨opened, kept, -⟩ := cbOpened_spec s c
  have stopped : s.cbStopped c = s.cbOpened c := by
    unfold State.cbStopped
    rw [idle start]
    exact if_neg (by rw [opened]; exact ne_true_of_eq_false stop)
  have still : (s.cbOpened c).le.running = false := by rw [opened]; exact off
  rw [controlBoundary_eq, stopped]
  refine congrArg (State.later · .summaries) ?_
  unfold State.cbWalked
  split
  · exact if_pos still
  · rw [still]
    exact (if_neg Bool.false_ne_true).trans (if_neg (by rw [kept, resync]; exact Bool.false_ne_true))

/-! ### The walk -/

/-- The tables a walked boundary works with: what is pending and due is adopted first. -/
theorem walkBoundary_le {s : State} (resync : s.twin.resyncIn = false) (j c : Nat) : ∃ loop walk,
    (s.walkBoundary j c).le = { s.le with
      work := if s.le.pendSince ≤ c then s.le.pend.getD s.le.work else s.le.work, pend := if s.le.pendSince ≤ c then none else s.le.pend,
      loop := loop, walk := some walk, presets := [], skips := 0, walkedAt := some c } ∧
    walk.j = j ∧ walk.doneAt = c + 400 + 20 * (s.walkBoundary j c).le.work.cost + 80 := by
  have adopted : ∃ loop, (if s.le.pendSince ≤ c then s.loopAdopt else s).le = { s.le with
      work := if s.le.pendSince ≤ c then s.le.pend.getD s.le.work else s.le.work, pend := if s.le.pendSince ≤ c then none else s.le.pend,
      loop := loop } := by
    by_cases due : s.le.pendSince ≤ c
    · simp only [if_pos due]; exact loopAdopt_le s
    · simp only [if_neg due]; exact ⟨s.le.loop, rfl⟩
  have twin : (if s.le.pendSince ≤ c then s.loopAdopt else s).twin.resyncIn = false := by
    split
    · rw [(loopAdopt_keeps_le s).twin (by decide)]; exact resync
    · exact resync
  unfold State.walkBoundary
  dsimp only
  generalize (if s.le.pendSince ≤ c then s.loopAdopt else s) = u at *
  have settled : u.resyncLoops = u := if_neg (by rw [twin]; exact Bool.false_ne_true)
  obtain ⟨loop, le⟩ := adopted
  rw [settled, updLe_le, updTwin_le, le]
  exact ⟨loop, _, rfl, rfl, by rw [State.walkAt, le]; rfl⟩

theorem rideWalk_keeps_le (s : State) : Keeps 991484 s s.rideWalk := rideWalk_keeps (by decide) (.refl _ s)

/-- A complete walk leaves the engine its loops' states and its set. -/
theorem walkEnd_le {s : State} {w : Walk} (walk : s.le.walk = some w) : ∃ loop,
    s.walkEnd.le = { s.le with walk := none, loop := loop, outset := some (w.doneAt, s.outsetOf w) } := by
  unfold State.walkEnd
  rw [walk]
  dsimp only
  rw [(walkCounts_keeps (M := 64) (by decide) (.refl _ _)).le (by decide)]
  exact ⟨_, rfl⟩

theorem publishLate_le (s : State) : s.publishLate.le = { s.le with outset := none } := by
  unfold State.publishLate
  split
  · rfl
  · rename_i none_
    generalize s.le = l at *
    obtain ⟨⟩ := l
    obtain rfl := none_
    rfl

/-! ### A walk that is late -/

/-- The trips of a stall: a RUNNING string that depends on the engine is TRIPPED, and a TRIPPED one stays so. -/
theorem foldl_stall_tripped {n : Nat} (ls : List Nat) (s : State) :
    let e := ls.foldl (fun s str => if (s.str str).st = .running ∧ s.pu 0x080A str 0 1 ≠ 0 then s.trip str 9 0xFFFF else s) s
    ((s.str n).st = .tripped → (e.str n).st = .tripped) ∧
    ((s.str n).st = .running → s.pu 0x080A n 0 1 ≠ 0 → n ∈ ls → (e.str n).st = .tripped) := by
  induction ls generalizing s with
  | nil => exact ⟨id, fun _ _ mem => absurd mem List.not_mem_nil⟩
  | cons a r ih =>
    dsimp only at ih ⊢
    rw [List.foldl_cons]
    by_cases goes : (s.str a).st = .running ∧ s.pu 0x080A a 0 1 ≠ 0
    · rw [if_pos goes]
      obtain ⟨stays, trips⟩ := ih (s.trip a 9 0xFFFF)
      obtain ⟨own, others, -⟩ := trip_leaves s a 9 0xFFFF
      by_cases same : n = a
      · rw [same]
        rw [same] at stays
        exact ⟨fun _ => stays own, fun _ _ _ => stays own⟩
      · have st : ((s.trip a 9 0xFFFF).str n).st = (s.str n).st := by rw [(others n same).1]
        rw [st, pu_congr (trip_eff ..)] at trips
        rw [st] at stays
        exact ⟨stays, fun run on mem => trips run on ((List.mem_cons.1 mem).resolve_left same)⟩
    · rw [if_neg goes]
      obtain ⟨stays, trips⟩ := ih s
      refine ⟨stays, fun run on mem => trips run on ((List.mem_cons.1 mem).resolve_left fun same => goes ?_)⟩
      rw [← same]; exact ⟨run, on⟩

/-- A boundary that finds the walk unfinished (R303). -/
theorem skipBoundary_spec (s : State) (j : Nat) : (s.skipBoundary j).le = { s.le with skips := s.le.skips + 1 } ∧ s.Fired (s.skipBoundary j) 0x30 ∧
    (s.le.skips = 1 → s.Fired (s.skipBoundary j) 0x31 ∧
      ∀ n < 16, (s.str n).st = .running → s.pu 0x080A n 0 1 ≠ 0 → ((s.skipBoundary j).str n).st = .tripped) := by
  unfold State.skipBoundary
  dsimp only
  have fired := fire_fired (((s.updLe fun e => { e with skips := s.le.skips + 1 }).bump 0x0B0B noInst 0).bump 0x0B0B noInst 1) (src := 0x30) (by decide)
    noInst (leBytes 4 j)
  have counted := (fireWith_firings (((s.updLe fun e => { e with skips := s.le.skips + 1 }).bump 0x0B0B noInst 0).bump 0x0B0B noInst 1) (src := 0x30)
    (by decide) noInst (leBytes 4 j) false 4)
  have keeps : Keeps 8440 (((s.updLe fun e => { e with skips := s.le.skips + 1 }).bump 0x0B0B noInst 0).bump 0x0B0B noInst 1)
    (((s.updLe fun e => { e with skips := s.le.skips + 1 }).bump 0x0B0B noInst 0).bump 0x0B0B noInst 1 |>.fire 0x30 noInst (leBytes 4 j)) :=
    fire_keeps (by decide) (.refl _ _)
  have eff := fire_eff (((s.updLe fun e => { e with skips := s.le.skips + 1 }).bump 0x0B0B noInst 0).bump 0x0B0B noInst 1) 0x30 noInst (leBytes 4 j)
  rw [← State.fire] at counted
  generalize hu : ((s.updLe fun e => { e with skips := s.le.skips + 1 }).bump 0x0B0B noInst 0).bump 0x0B0B noInst 1 = u at *
  have before : u.le = { s.le with skips := s.le.skips + 1 } ∧ u.faults = s.faults ∧ u.mod = s.mod ∧ u.par.eff = s.par.eff := by
    rw [← hu]; exact ⟨rfl, rfl, rfl, by rw [bump_eff, bump_eff]; rfl⟩
  obtain ⟨le, faults, mod_, same⟩ := before
  generalize u.fire 0x30 noInst (leBytes 4 j) = v at *
  have vle : v.le = { s.le with skips := s.le.skips + 1 } := by rw [keeps.le (by decide), le]
  have once : s.Fired v 0x30 := fired.from (by rw [faults])
  have firings : v.faults.firings = s.faults.firings.set 0x30 (satN 32 (s.faults.firings.get 0 0x30 + 1)) := by rw [counted, faults]
  by_cases second : s.le.skips + 1 = 2
  · rw [if_pos second]
    have again := fire_fired v (src := 0x31) (by decide) noInst (leBytes 4 j)
    have twice := fireWith_firings v (src := 0x31) (by decide) noInst (leBytes 4 j) false 4
    have fires : Keeps 8440 v (v.fire 0x31 noInst (leBytes 4 j)) := fire_keeps (by decide) (.refl _ _)
    have feff := fire_eff v 0x31 noInst (leBytes 4 j)
    rw [← State.fire] at twice
    generalize v.fire 0x31 noInst (leBytes 4 j) = w at *
    have trips : Keeps 991344 w w.stallTrips := stallTrips_keeps (by decide) (.refl _ w)
    have strs : ∀ n, w.str n = s.str n := fun n => by
      rw [fires.str (by decide), keeps.str (by decide), State.str, mod_, State.str]
    refine ⟨by rw [trips.le (by decide), fires.le (by decide), vle], ?_, fun _ => ⟨?_, fun n small run on => ?_⟩⟩
    · rw [State.Fired, trips.firings (by decide), twice, Tab.get_set_ne _ _ (by decide), once]
    · rw [State.Fired, trips.firings (by decide), again, firings, Tab.get_set_ne _ _ (by decide)]
    · refine (foldl_stall_tripped (List.range 16) w).2 (by rw [strs]; exact run) ?_ (List.mem_range.2 small)
      rw [pu_congr (feff.trans (eff.trans same))]
      exact on
  · rw [if_neg second]
    exact ⟨vle, once, fun one => absurd (congrArg (· + 1) one) second⟩

/-! ### A boundary of a running engine -/

/-- The engine that walks, as it stands at a boundary: the engine before it, but for what a start that is due has begun. -/
theorem cbStopped_of_runs {s : State} {c : Nat} (runs : s.le.running = true ∨ leDue s.le.startAt c = true) (stop : leDue s.le.stopAt c = false) :
    Keeps 1116160 s (s.cbStopped c) ∧ (s.cbStopped c).twin.resyncIn = s.twin.resyncIn ∧ ∃ loop work pend,
      (s.cbStopped c).le = { s.le with
        running := true, startAt := if leDue s.le.startAt c = true then none else s.le.startAt, j := s.boundaryJ c,
        next := c + max 1 (s.p0 0x0B02), work := work, pend := pend, loop := loop } ∧
      (leDue s.le.startAt c = true → work = s.le.pend.getD s.le.work ∧ pend = none) ∧
      (leDue s.le.startAt c = false → work = s.le.work ∧ pend = s.le.pend) := by
  obtain ⟨loop, due, idle, twin⟩ := cbStarted_le s c
  obtain ⟨opened, -, -⟩ := cbOpened_spec s c
  have keeps := cbStarted_keeps s c
  have stays : (s.cbStarted c).le.stopAt = s.le.stopAt := by
    cases hd : leDue s.le.startAt c
    · rw [idle hd, opened]
    · rw [due hd]
  have same : s.cbStopped c = s.cbStarted c := by
    unfold State.cbStopped
    rw [stays]
    exact if_neg (ne_true_of_eq_false stop)
  rw [same]
  refine ⟨keeps, twin, ?_⟩
  cases hd : leDue s.le.startAt c
  · have on : s.le.running = true := runs.resolve_right (by rw [hd]; decide)
    refine ⟨s.le.loop, s.le.work, s.le.pend, ?_, (nomatch ·), fun _ => ⟨rfl, rfl⟩⟩
    rw [idle hd, opened, if_neg Bool.false_ne_true, ← on]
  · refine ⟨loop, _, none, ?_, fun _ => ⟨rfl, rfl⟩, (nomatch ·)⟩
    rw [due hd, if_pos rfl]

theorem outsetOf_congr {s t : State} (work : t.le.work = s.le.work) (w : Walk) : t.outsetOf w = s.outsetOf w := by
  rw [State.outsetOf, work, State.outsetOf]

theorem publish_eq {s : State} {w : Walk} (walk : s.le.walk = some w) : s.publish = s.publishLate.walkEnd.publishLate.rideWalk := by
  rw [State.publish, walk]

/-- What precedes the walk of a boundary has ended the walk before it, and published what was due. -/
theorem beforeWalk_le {s : State} {w : Walk} (walk : s.le.walk = some w) : ∃ loop,
    (s.publishLate.walkEnd.rideWalk.le = { s.le with walk := none, loop := loop, outset := some (w.doneAt, s.outsetOf w) } ∧
      s.publishLate.walkEnd.rideWalk.twin = s.twin) ∧
    s.publish.le = { s.le with walk := none, loop := loop, outset := none } ∧ s.publish.twin = s.twin := by
  have late := publishLate_le s
  have lateTwin : s.publishLate.twin = s.twin := (publishLate_keeps (M := 1179648) (by decide) (.refl _ s)).twin (by decide)
  have out : s.publishLate.outsetOf w = s.outsetOf w := outsetOf_congr (by rw [late]) w
  rw [publish_eq walk]
  generalize s.publishLate = a at *
  obtain ⟨loop, ended⟩ := walkEnd_le (s := a) (w := w) (by rw [late]; exact walk)
  have endTwin : a.walkEnd.twin = a.twin := (walkEnd_keeps (M := 1048640) (by decide) (.refl _ a)).twin (by decide)
  generalize a.walkEnd = b at *
  have published := publishLate_le b
  have pubTwin : b.publishLate.twin = b.twin := (publishLate_keeps (M := 1179648) (by decide) (.refl _ b)).twin (by decide)
  generalize b.publishLate = d at *
  have ride := fun u => (rideWalk_keeps_le u).le (by decide)
  have rideTwin := fun u => (rideWalk_keeps_le u).twin (by decide)
  refine ⟨loop, ⟨?_, ?_⟩, ?_, ?_⟩
  · rw [ride, ended, late, out]
  · rw [rideTwin, endTwin, lateTwin]
  · rw [ride, published, ended, late]
  · rw [rideTwin, pubTwin, endTwin, lateTwin]

/-- A boundary at which the engine runs and the walk before it has had its time. -/
theorem cbWalked_walks {s : State} {c : Nat} (runs : s.le.running = true) (resync : s.twin.resyncIn = false) (j : Nat)
    (had : ∀ w, s.le.walk = some w → w.doneAt ≤ c + 80) : ∃ loop walk outset,
    (s.cbWalked j c).le = { s.le with
      work := if s.le.pendSince ≤ c then s.le.pend.getD s.le.work else s.le.work, pend := if s.le.pendSince ≤ c then none else s.le.pend,
      loop := loop, walk := some walk, presets := [], skips := 0, walkedAt := some c, outset := outset } ∧
    walk.j = j ∧ walk.doneAt = c + 400 + 20 * (s.cbWalked j c).le.work.cost + 80 ∧
    ∀ w, s.le.walk = some w → c < w.doneAt → outset = some (w.doneAt, s.outsetOf w) := by
  unfold State.cbWalked
  cases walk : s.le.walk with
  | none =>
    dsimp only
    rw [if_pos runs]
    obtain ⟨loop, next, le, number, done⟩ := walkBoundary_le resync j c
    exact ⟨loop, next, s.le.outset, le, number, done, fun _ h => nomatch h⟩
  | some w =>
    dsimp only
    rw [if_neg (by rw [runs]; decide), if_neg (by have := had w walk; rw [publishTicks]; omega)]
    obtain ⟨loop, ⟨early, earlyTwin⟩, whole, wholeTwin⟩ := beforeWalk_le walk
    by_cases overtaken : c < w.doneAt
    · rw [if_pos overtaken]
      generalize s.publishLate.walkEnd.rideWalk = u at *
      obtain ⟨loop', next, le, number, done⟩ := walkBoundary_le (s := u) (by rw [earlyTwin]; exact resync) j c
      refine ⟨loop', next, some (w.doneAt, s.outsetOf w), by rw [le, early], number, done, fun v same _ => ?_⟩
      rw [Option.some.inj same]
    · rw [if_neg overtaken]
      generalize s.publish = u at *
      obtain ⟨loop', next, le, number, done⟩ := walkBoundary_le (s := u) (by rw [wholeTwin]; exact resync) j c
      refine ⟨loop', next, none, by rw [le, whole], number, done, fun v same later => absurd later ?_⟩
      rw [← Option.some.inj same]; exact overtaken

/-- A boundary of an engine that runs, or whose start is due (R296 to R299, R303, R323). -/
theorem controlBoundary_of_runs {s : State} {c : Nat} (runs : s.le.running = true ∨ leDue s.le.startAt c = true)
    (stop : leDue s.le.stopAt c = false) (resync : s.twin.resyncIn = false) :
    let e := s.controlBoundary c
    let starts := leDue s.le.startAt c = true
    e.le.j = s.boundaryJ c ∧ e.le.next = c + max 1 (s.p0 0x0B02) ∧ e.le.running = true ∧ e.le.startAt = (if starts then none else s.le.startAt) ∧
    ((∀ w, s.le.walk = some w → w.doneAt ≤ c + 80) → e.le.presets = [] ∧ e.le.skips = 0 ∧ e.le.walkedAt = some c ∧
      (∃ w, e.le.walk = some w ∧ w.j = e.le.j ∧ w.doneAt = c + 400 + 20 * e.le.work.cost + 80) ∧
      (∀ t, s.le.pend = some t → s.le.pendSince ≤ c ∨ starts → e.le.work = t ∧ e.le.pend = none) ∧
      (∀ w, s.le.walk = some w → c < w.doneAt → e.le.outset = some (w.doneAt, s.outsetOf w) ∨ starts)) ∧
    (∀ w, s.le.walk = some w → c + 80 < w.doneAt → e.le.skips = s.le.skips + 1 ∧ e.le.walk = some w ∧ s.Fired e 0x30 ∧
      (s.le.skips = 1 → s.Fired e 0x31 ∧ ∀ n < 16, (s.str n).st = .running → s.pu 0x080A n 0 1 ≠ 0 → (e.str n).st = .tripped)) := by
  obtain ⟨keeps, twin, loop, work, pend, le, started, going⟩ := cbStopped_of_runs runs stop
  dsimp only
  rw [controlBoundary_eq]
  have last : ∀ u : State, (u.later .summaries).le = u.le ∧ (u.later .summaries).faults = u.faults ∧ (u.later .summaries).mod = u.mod :=
    fun _ => ⟨rfl, rfl, rfl⟩
  obtain ⟨lastLe, lastFaults, lastMod⟩ := last ((s.cbStopped c).cbWalked (s.boundaryJ c) c)
  generalize State.later _ _ = e at *
  generalize s.cbStopped c = u at *
  have on : u.le.running = true := by rw [le]
  have walkSame : u.le.walk = s.le.walk := by rw [le]
  have walks : (∀ w, s.le.walk = some w → w.doneAt ≤ c + 80) → _ := fun had =>
    cbWalked_walks on (twin.trans resync) (s.boundaryJ c) (fun w walk => had w (walkSame.symm.trans walk))
  have late : ∀ w, s.le.walk = some w → c + 80 < w.doneAt → u.cbWalked (s.boundaryJ c) c = u.skipBoundary w.j := fun w walk after => by
    unfold State.cbWalked
    rw [walkSame, walk]
    dsimp only
    rw [if_neg (by rw [on]; decide)]
    exact if_pos after
  have every : e.le.j = s.boundaryJ c ∧ e.le.next = c + max 1 (s.p0 0x0B02) ∧ e.le.running = true ∧
      e.le.startAt = (if leDue s.le.startAt c = true then none else s.le.startAt) := by
    rw [lastLe]
    by_cases had : ∀ w, s.le.walk = some w → w.doneAt ≤ c + 80
    · obtain ⟨_, _, _, walked, -⟩ := walks had
      rw [walked, le]
      exact ⟨rfl, rfl, rfl, rfl⟩
    · push Not at had
      obtain ⟨w, walk, after⟩ := had
      rw [late w walk after, (skipBoundary_spec u w.j).1, le]
      exact ⟨rfl, rfl, rfl, rfl⟩
  obtain ⟨j, next, running, startAt⟩ := every
  refine ⟨j, next, running, startAt, fun had => ?_, fun w walk after => ?_⟩
  · obtain ⟨loop', walk, outset, walked, number, done, sets⟩ := walks had
    rw [j]
    rw [← lastLe] at walked done
    refine ⟨by rw [walked], by rw [walked], by rw [walked], ⟨walk, by rw [walked], number, done⟩, fun t pending due => ?_, fun w before after => ?_⟩
    · rw [walked, le]
      dsimp only
      cases hd : leDue s.le.startAt c
      · obtain ⟨same, kept⟩ := going hd
        have time : s.le.pendSince ≤ c := due.resolve_right (by rw [hd]; decide)
        rw [if_pos time, if_pos time, kept, pending]
        exact ⟨rfl, rfl⟩
      · obtain ⟨same, kept⟩ := started hd
        rw [kept, same, pending]
        exact ⟨ite_self _, ite_self _⟩
    · cases hd : leDue s.le.startAt c
      · refine .inl ?_
        rw [walked]
        refine (sets w (walkSame.trans before) after).trans ?_
        rw [outsetOf_congr (s := s) (by rw [le]; exact (going hd).1) w]
      · exact .inr rfl
  · obtain ⟨skips, fired, twice⟩ := skipBoundary_spec u w.j
    rw [← late w walk after] at skips fired twice
    have faults : e.faults.firings = (u.cbWalked (s.boundaryJ c) c).faults.firings := by rw [lastFaults]
    have kept : u.faults.firings = s.faults.firings := keeps.firings (by decide)
    have counts : u.le.skips = s.le.skips := by rw [le]
    rw [lastLe, skips, counts]
    refine ⟨rfl, walkSame.trans walk, ?_, fun second => ?_⟩
    · rw [State.Fired, faults, fired, kept]
    · obtain ⟨again, trips⟩ := twice (counts.trans second)
      refine ⟨by rw [State.Fired, faults, again, kept], fun n small run depends => ?_⟩
      have str : e.str n = (u.cbWalked (s.boundaryJ c) c).str n := by rw [State.str, lastMod, State.str]
      rw [str]
      exact trips n small (by rw [keeps.str (by decide)]; exact run) ((pu_congr (s := s) (by rw [keeps.par (by decide)]) ..).trans_ne depends)

/-! ### The publication of a set -/

/-- What a list of settings leaves at a key: the one value it gives there, or what was there. -/
theorem get_foldl_set {α : Type} {d v : α} {k : Nat} (l : List (Nat × α)) {t : Tab α} (one : ∀ x ∈ l, x.1 = k → x.2 = v)
    (given : (∃ x ∈ l, x.1 = k) ∨ t.get d k = v) : (l.foldl (fun t x => t.set x.1 x.2) t).get d k = v := by
  induction l generalizing t with
  | nil => exact given.resolve_left fun ⟨_, mem, _⟩ => List.not_mem_nil mem
  | cons a r ih =>
    rw [List.foldl_cons]
    refine ih (fun x mem => one x (List.mem_cons_of_mem a mem)) ?_
    by_cases own : a.1 = k
    · exact .inr (by rw [own, Tab.get_set]; exact one a List.mem_cons_self own)
    · rw [Tab.get_set_ne _ _ (Ne.symm own)]
      refine given.imp_left fun ⟨x, mem, key⟩ => ⟨x, (List.mem_cons.1 mem).resolve_left fun same => own ?_, key⟩
      rw [← same]; exact key

theorem get_foldl_set_of_nodup {α : Type} {d : α} {l : List (Nat × α)} (nodup : (l.map (·.1)).Nodup) {x : Nat × α} (mem : x ∈ l) (t : Tab α) :
    (l.foldl (fun t x => t.set x.1 x.2) t).get d x.1 = x.2 :=
  get_foldl_set l (fun y other key => by rw [List.inj_on_of_nodup_map nodup other mem key]) (.inl ⟨x, mem, rfl⟩)

theorem publishLate_of_some {s : State} {o : Nat × List (Nat × Int)} (outset : s.le.outset = some o) :
    s.publishLate = (s.updLe fun e => { e with outset := none }).publishSet o.2 := by
  rw [State.publishLate, outset]

theorem publishLate_of_none {s : State} (outset : s.le.outset = none) : s.publishLate = s := by rw [State.publishLate, outset]

theorem walkComplete_late {s : State} {o : Nat × List (Nat × Int)} (outset : s.le.outset = some o) (due : o.1 ≤ s.now) :
    Lands (exec .walkComplete s) fun e => Only [.mod, .le] s e ∧ e.le = { s.le with outset := none } ∧
      ((o.2.map (·.1)).Nodup → ∀ x ∈ o.2, e.mod.loopRef.get 0 x.1 = x.2) := by
  have run : exec .walkComplete s = s.publishLate.done := by
    change execWalkComplete s = _
    rw [execWalkComplete, outset]
    exact if_pos due
  rw [publishLate_of_some outset] at run
  exact ⟨_, run, only_of (publishSet_keeps (by decide) (updLe_keeps (by decide) (.refl _ s))), rfl,
    fun nodup x mem => get_foldl_set_of_nodup nodup mem _⟩

/-- A walk that is complete leaves its loops' states, and its set waits. -/
theorem walkEnd_spec {s : State} {w : Walk} (walk : s.le.walk = some w) : ∃ loop : Tab LoopSt,
    s.walkEnd.le = { s.le with
      walk := none, loop := w.loops.foldl (fun t x => t.set x.1 x.2) loop, outset := some (w.doneAt, s.outsetOf w) } ∧ s.walkEnd.mod = s.mod := by
  unfold State.walkEnd
  rw [walk]
  dsimp only
  rw [(walkCounts_keeps (M := 64) (by decide) (.refl _ _)).le (by decide), (walkCounts_keeps (M := 64) (by decide) (.refl _ _)).mod (by decide)]
  exact ⟨_, rfl, rfl⟩

theorem mem_outsetOf {s : State} {w : Walk} {x : Nat × Int} :
    x ∈ s.outsetOf w ↔ ∃ y ∈ w.loops, destKey (s.le.work.descOf y.1) = some x.1 ∧ y.2.out = x.2 := by
  rw [State.outsetOf, List.mem_filterMap]
  refine exists_congr fun y => and_congr_right fun _ => ?_
  cases destKey (s.le.work.descOf y.1) with
  | none => simp
  | some k => simp [Prod.ext_iff]

theorem walkComplete_whole {s : State} {w : Walk} (outset : s.le.outset = none) (walk : s.le.walk = some w) (due : w.doneAt ≤ s.now)
    (nodup : (w.loops.map (·.1)).Nodup) : Lands (exec .walkComplete s) fun e =>
      Only [.freeCount, .todo, .hatch, .notif, .par, .faults, .pantry, .links, .mod, .prot, .dt, .le] s e ∧ e.le.walk = none ∧ e.le.outset = none ∧
      (∀ n x, (n, x) ∈ w.loops → e.le.loop.get {} n = x) ∧
      (∀ n x k, (n, x) ∈ w.loops → destKey (s.le.work.descOf n) = some k →
        (∀ m y, (m, y) ∈ w.loops → destKey (s.le.work.descOf m) = some k → m = n) → e.mod.loopRef.get 0 k = x.out) ∧
      (∀ k, (∀ m y, (m, y) ∈ w.loops → destKey (s.le.work.descOf m) ≠ some k) → e.mod.loopRef.get 0 k = s.mod.loopRef.get 0 k) ∧
      e.le.work = s.le.work ∧ e.le.larder = s.le.larder ∧ e.le.j = s.le.j ∧ e.le.next = s.le.next := by
  have run : exec .walkComplete s = s.publish.done := by
    change execWalkComplete s = _
    rw [execWalkComplete, outset, walk]
    exact if_pos due
  have part : Only [.freeCount, .todo, .hatch, .notif, .par, .faults, .pantry, .links, .mod, .prot, .dt, .le] s s.publish :=
    only_of (publish_keeps (by decide) (.refl _ s))
  refine ⟨s.publish, run, part, ?_⟩
  rw [publish_eq walk, publishLate_of_none outset]
  obtain ⟨loop, le, same⟩ := walkEnd_spec walk
  have keeps := rideWalk_keeps_le s.walkEnd.publishLate
  have refs := rideWalk_loopRef s.walkEnd.publishLate
  generalize s.walkEnd.publishLate.rideWalk = e at *
  rw [publishLate_of_some (o := (w.doneAt, s.outsetOf w)) (by rw [le])] at keeps refs
  generalize s.walkEnd = u at *
  have ele : e.le = { s.le with walk := none, loop := w.loops.foldl (fun t x => t.set x.1 x.2) loop, outset := none } := by
    rw [keeps.le (by decide), State.publishSet, updMod_le, updLe_le, le]
  have eref : e.mod.loopRef = (s.outsetOf w).foldl (fun t x => t.set x.1 x.2) s.mod.loopRef := by
    rw [refs, State.publishSet, updMod_mod, updLe_mod, same]
  rw [ele, eref]
  refine ⟨rfl, rfl, fun n x mem => get_foldl_set_of_nodup nodup mem _, fun n x k mem dest only => ?_, fun k none_ => ?_, rfl, rfl, rfl, rfl⟩
  · refine get_foldl_set _ (fun y out key => ?_) (.inl ⟨(k, x.out), mem_outsetOf.2 ⟨(n, x), mem, dest, rfl⟩, rfl⟩)
    obtain ⟨z, listed, named, value⟩ := mem_outsetOf.1 out
    have twin := only z.1 z.2 listed (named.trans (congrArg some key))
    rw [← value, List.inj_on_of_nodup_map nodup listed mem twin]
  · refine get_foldl_set _ (fun y out key => ?_) (.inr rfl)
    obtain ⟨z, listed, named, -⟩ := mem_outsetOf.1 out
    exact absurd (named.trans (congrArg some key)) (none_ z.1 z.2 listed)

/-! ### The parts a boundary takes -/

theorem resyncLoops_of {s : State} (resync : s.twin.resyncIn = false) : s.resyncLoops = s :=
  if_neg (by rw [resync]; exact Bool.false_ne_true)

theorem walkBoundary_takes {s : State} (resync : s.twin.resyncIn = false) (j c : Nat) : Keeps 1050624 s (s.walkBoundary j c) := by
  unfold State.walkBoundary
  dsimp only
  have adopted : Keeps 1048576 s (if s.le.pendSince ≤ c then s.loopAdopt else s) := keeps_ite (fun _ => loopAdopt_keeps_le s) fun _ => .refl _ s
  generalize (if s.le.pendSince ≤ c then s.loopAdopt else s) = u at *
  rw [resyncLoops_of (by rw [adopted.twin (by decide)]; exact resync)]
  exact updLe_keeps (by decide) (updTwin_keeps (by decide) (adopted.weaken (by decide)))

theorem cbWalked_takes {s : State} (resync : s.twin.resyncIn = false) (j c : Nat) : Keeps 2042108 s (s.cbWalked j c) := by
  have early : Keeps 2040060 s s.publishLate.walkEnd.rideWalk :=
    rideWalk_keeps (by decide) (walkEnd_keeps (by decide) (publishLate_keeps (by decide) (.refl _ s)))
  have whole : Keeps 2040060 s s.publish := publish_keeps (by decide) (.refl _ s)
  have walked : ∀ u, Keeps 2040060 s u → Keeps 2042108 s (u.walkBoundary j c) := fun u keeps =>
    (keeps.weaken (by decide)).trans ((walkBoundary_takes (by rw [keeps.twin (by decide)]; exact resync) j c).weaken (by decide))
  unfold State.cbWalked
  split
  · split
    · exact .refl _ s
    split
    · exact skipBoundary_keeps (by decide) (.refl _ s)
    split
    · exact walked _ early
    · exact walked _ whole
  · split
    · exact walked s (.refl _ s)
    · rw [resyncLoops_of resync]; exact .refl _ s

theorem controlBoundary_takes {s : State} (resync : s.twin.resyncIn = false) (c : Nat) : Keeps 2042108 s (s.controlBoundary c) := by
  obtain ⟨-, -, -, started⟩ := cbStarted_le s c
  have keeps := cbStarted_keeps s c
  have stopped : Keeps 2042108 s (s.cbStopped c) :=
    keeps_ite (fun _ => loopStop_keeps (by decide) (keeps.weaken (by decide))) fun _ => keeps.weaken (by decide)
  have same : (s.cbStopped c).twin.resyncIn = false := by
    unfold State.cbStopped
    split
    · rw [(loopStop_keeps (M := 1384564) (by decide) (.refl _ (s.cbStarted c))).twin (by decide), started, resync]
    · rw [started, resync]
  rw [controlBoundary_eq]
  exact later_keeps (by decide) (stopped.trans (cbWalked_takes same _ c))

/-- Settles O31, by the cases of the engine at the boundary, and then the publications. -/
theorem controlBoundaries : Obligations.ControlBoundaries := by
  intro s
  refine ⟨fun running due resync => ?_, fun early => ?_, fun o outset due => walkComplete_late outset due,
    fun w outset walk due nodup => walkComplete_whole outset walk due nodup⟩
  · have run : exec .controlBoundary s = (s.controlBoundary s.le.next).done := by
      change execControlBoundary s = _
      rw [execControlBoundary]
      exact if_pos ⟨running, due⟩
    have part : Only [.freeCount, .todo, .hatch, .notif, .par, .faults, .twin, .pantry, .links, .mod, .prot, .dt, .le] s
        (s.controlBoundary s.le.next) := only_of (controlBoundary_takes resync s.le.next)
    refine ⟨s.controlBoundary s.le.next, run, ?_⟩
    dsimp only
    rw [← leDue_iff, ← leDue_iff, any_leDue]
    generalize s.le.next = c at *
    cases stop : leDue s.le.stopAt c
    · by_cases runs : s.le.running = true ∨ leDue s.le.startAt c = true
      · obtain ⟨j, next, engine, startAt, walks, late⟩ := controlBoundary_of_runs runs stop resync
        refine ⟨j, next, part, fun off none_ => absurd runs ?_, (nomatch ·), fun _ _ => ⟨engine, startAt, walks, late⟩⟩
        rw [off]
        exact fun h => h.elim Bool.false_ne_true none_
      · obtain ⟨off, none_⟩ := not_or.1 runs
        have idle := controlBoundary_of_idle (Bool.eq_false_iff.2 off) (Bool.eq_false_iff.2 none_) stop resync
        obtain ⟨le, -, keeps⟩ := cbOpened_spec s c
        have same : (s.controlBoundary c).le = { s.le with j := s.boundaryJ c, next := c + max 1 (s.p0 0x0B02) } := by
          rw [idle]; exact le
        have quiet : Only [.todo, .twin, .links, .le] s (s.controlBoundary c) := by
          rw [idle]
          exact only_of (later_keeps (by decide) (keeps.weaken (by decide)))
        rw [same]
        exact ⟨rfl, rfl, part, fun _ _ _ => ⟨rfl, quiet⟩, (nomatch ·), fun some_ => absurd some_ runs⟩
    · obtain ⟨halted, stopAt, skips, pend, walk, j, next, work⟩ := cbStopped_of_stop stop resync
      exact ⟨j, next, part, fun _ _ none_ => absurd rfl none_, fun _ => ⟨halted, stopAt, skips, pend, walk, work⟩,
        fun _ none_ => absurd rfl none_⟩
  · change execControlBoundary s = _
    rw [execControlBoundary]
    refine if_neg fun ⟨running, due⟩ => early.elim (fun off => ?_) fun before => ?_
    · rw [running] at off; cases off
    · exact absurd before (Nat.not_lt.2 due)

end Sys2Proof.Machine
end

section
/-!
PROOFS. Cases and verdicts (R388 to R391). A verdict ends the case and moves the roles; what a take-over does beside that counts no firing but those of
three sources, and leaves the twin to the few values it names.
-/

namespace Sys2Proof.Machine

open Host

/-! ### The firings a step does not count -/

/-- Between two states a source has counted no firing. -/
def State.Unfired (n : Nat) (s t : State) : Prop := t.faults.firings.get 0 n = s.faults.firings.get 0 n

theorem State.Unfired.refl {n : Nat} (s : State) : State.Unfired n s s := rfl

theorem State.Unfired.trans {n : Nat} {s t u : State} (h : State.Unfired n s t) (k : State.Unfired n t u) : State.Unfired n s u := Eq.trans k h

theorem Keeps.unfired {M n : Nat} {s t : State} (h : Keeps M s t) (k : M.testBit 7 = false) : State.Unfired n s t := by
  rw [State.Unfired, h.firings k]

theorem foldl_unfired {α : Type} {n : Nat} {f : State → α → State} (h : ∀ u x, State.Unfired n u (f u x)) (l : List α) (s : State) :
    State.Unfired n s (l.foldl f s) := foldl_view (fun u : State => u.faults.firings.get 0 n) h l s

theorem ite_unfired {c : Prop} [Decidable c] {n : Nat} {s t u : State} (h : c → State.Unfired n s t) (k : ¬c → State.Unfired n s u) :
    State.Unfired n s (if c then t else u) := by
  split
  · exact h ‹_›
  · exact k ‹_›

theorem fire_unfired {n src : Nat} (other : n ≠ src) (known : (faultSource src).isSome) (s : State) (inst : Nat) (args : Bytes) :
    State.Unfired n s (s.fire src inst args) := by
  rw [State.Unfired, State.fire, fireWith_firings s known, Tab.get_set_ne _ _ other]

theorem condOn_unfired {n src : Nat} (other : n ≠ src) (known : (faultSource src).isSome) (s : State) (inst sub : Nat) (args : Bytes) :
    State.Unfired n s (s.condOn src inst sub args) := by
  unfold State.condOn
  exact ite_unfired (fun _ => .refl s) fun _ =>
    fire_unfired other known (s.updFaults fun f => { f with present := f.present ++ [{ src, inst, sub }] }) inst args

theorem lostMember_unfired {n : Nat} (other : n ≠ 0x39) (s : State) (lane : Nat) (auth : Bool) : State.Unfired n s (s.lostMember lane auth) := by
  unfold State.lostMember
  refine ite_unfired (fun _ => .refl s) fun _ => ite_unfired (fun _ => ite_unfired (fun _ => ?_) fun _ => ?_) fun _ =>
    ite_unfired (fun _ => ?_) fun _ => ?_
  · exact (bump_keeps (M := 64) (by decide) (.refl _ s)).unfired (by decide)
  · exact (urgentBypass_keeps (M := 991344) (by decide) (.refl _ s)).unfired (by decide)
  · have stale : State.Unfired n s (s.modLink lane fun l => { l with stale := true }) :=
      (modLink_keeps (M := 65536) (by decide) (.refl _ s)).unfired (by decide)
    exact (stale.trans (condOn_unfired other (by decide) _ lane 0 [])).trans (foldl_unfired (fun u str => ite_unfired
      (fun _ => (trip_keeps (M := 991344) (by decide) (.refl _ u)).unfired (by decide)) fun _ => .refl u) _ _)
  · exact (cellFail_keeps (M := 991344) (by decide) (.refl _ s)).unfired (by decide)

theorem startString_unfired {n : Nat} (other : n ≠ 0x39) (s : State) (str short : Nat) : State.Unfired n s (s.startString str short) := by
  unfold State.startString State.lostAtStart
  dsimp only
  refine State.Unfired.trans ?_ (foldl_unfired (fun u l => lostMember_unfired other u l false) _ _)
  have ready : ∀ u ls, Keeps 983040 s u → State.Unfired n s (u.coastLanes ls) := fun u ls keeps =>
    (coastLanes_keeps (M := 983040) (by decide) keeps).unfired (by decide)
  exact ready _ _ (modSrt_keeps (by decide) (modPrt_keeps (by decide) (modStr_keeps (by decide) (.refl _ s))))

theorem rideTo_unfired {n : Nat} (s : State) (st : RideSt) (reason str : Nat) : State.Unfired n s (s.rideTo st reason str) :=
  (rideTo_keeps (M := 335988) (by decide) (.refl _ s)).unfired (by decide)

theorem rideHalt_unfired {n : Nat} (s : State) (reason str : Nat) : State.Unfired n s (s.rideHalt reason str) :=
  (rideHalt_keeps (M := 335988) (by decide) (.refl _ s)).unfired (by decide)

theorem modRide_unfired {n : Nat} (s : State) (f : Ride → Ride) : State.Unfired n s (s.modRide f) := rfl

theorem rideNext_unfired {n : Nat} (other : n ≠ 0x39) (k : Nat) (s : State) : State.Unfired n s (State.rideNext k s) := by
  induction k generalizing s with
  | zero => exact rideTo_unfired s .grid 0 0
  | succ k ih =>
    rw [State.rideNext]
    dsimp only
    split
    · exact rideTo_unfired s .grid 0 0
    · refine ite_unfired (fun _ => ?_) fun _ => ite_unfired (fun _ => ?_) fun _ => ite_unfired (fun _ => rideHalt_unfired s _ _) fun _ => ?_
      · exact State.Unfired.trans (t := s.note 0x08 0x0C03 _) ((note_keeps (M := 8304) (by decide) (.refl _ s)).unfired (by decide)) (ih _)
      · exact State.Unfired.trans (modRide_unfired s _) (ih _)
      · exact (startString_unfired other s _ _).trans (modRide_unfired _ _)

theorem rideEnable_unfired {n : Nat} (other : n ≠ 0x39) (s : State) : State.Unfired n s s.rideEnable :=
  ((rideTo_unfired s .enable 0 0).trans (modRide_unfired _ _)).trans (rideNext_unfired other 17 _)

theorem rideSync_unfired {n : Nat} (other : n ≠ 0x39) (s : State) : State.Unfired n s s.rideSync := by
  have enters := rideTo_unfired (n := n) s .sync 0 0
  unfold State.rideSync
  exact ite_unfired (fun _ => enters.trans (rideHalt_unfired _ 0x06 0)) fun _ =>
    ite_unfired (fun _ => enters.trans (rideEnable_unfired other _)) fun _ => enters.trans (modRide_unfired _ _)

theorem pcFail_unfired {n : Nat} (other : n ≠ 0x3B) (s : State) (lane cause : Nat) : State.Unfired n s (s.pcFail lane cause) := by
  unfold State.pcFail
  refine State.Unfired.trans (ite_unfired (fun _ => ?_) fun _ => ?_) (fire_unfired other (by decide) _ _ _)
  · exact (urgentBypass_keeps (M := 991344) (by decide) (.refl _ s)).unfired (by decide)
  · exact (plannedBypass_keeps (M := 991344) (by decide) (.refl _ s)).unfired (by decide)

theorem pcJudge_unfired {n : Nat} (other : n ≠ 0x3B) (s : State) (str : Nat) : State.Unfired n s (s.pcJudge str) := by
  unfold State.pcJudge
  exact foldl_unfired (fun u l => ite_unfired (fun _ => pcFail_unfired other u l 3) fun _ =>
    ite_unfired (fun _ => pcFail_unfired other u l 9) fun _ => .refl u) _ s

theorem pcDone_unfired {n : Nat} (source : n ≠ 0x39) (charge : n ≠ 0x3B) (s : State) : State.Unfired n s s.pcDone := by
  unfold State.pcDone
  have judged : State.Unfired n s (s.pcStrings.foldl (fun s str => s.pcJudge str) s) := foldl_unfired (pcJudge_unfired charge) _ s
  exact ite_unfired (fun _ => judged.trans (rideHalt_unfired _ 0x03 0)) fun _ => judged.trans (rideSync_unfired source _)

/-- PRECHARGE as it is entered, or taken up again, before it judges whether the level is reached. -/
def State.pcEntered (s : State) (keep : Bool) : State :=
  (if keep then s.pcReady else s.pcReady.modRide fun r => { r with pcNoted := s.pcNotes }).rideTo .precharge

theorem ridePrecharge_entered (s : State) (keep : Bool) :
    s.ridePrecharge keep = if (s.pcEntered keep).pcReached then (s.pcEntered keep).pcDone else s.pcEntered keep := by
  unfold State.ridePrecharge
  rfl

theorem pcClear_unfired {n : Nat} (s : State) (str : Nat) : State.Unfired n s (s.pcClear str) := by
  unfold State.pcClear
  exact ite_unfired (fun _ => (becomeStopped_keeps (M := 2 ^ 28 - 1 - 128) (by decide) (modPrt_keeps (by decide) (.refl _ s))).unfired (by decide))
    fun _ => .refl s

theorem pcReady_unfired {n : Nat} (s : State) : State.Unfired n s s.pcReady := by
  have cleared : State.Unfired n s s.pcCleared := State.Unfired.trans (modRide_unfired s _) (foldl_unfired pcClear_unfired _ _)
  exact cleared.trans (foldl_unfired (fun u l => (sendAct_keeps (M := 131136) (by decide) (.refl _ u)).unfired (by decide)) _ _)

theorem ridePrecharge_unfired {n : Nat} (source : n ≠ 0x39) (charge : n ≠ 0x3B) (s : State) (keep : Bool) :
    State.Unfired n s (s.ridePrecharge keep) := by
  have entered : State.Unfired n s (s.pcEntered keep) := by
    refine State.Unfired.trans ?_ (rideTo_unfired _ .precharge 0 0)
    exact ite_unfired (fun _ => pcReady_unfired s) fun _ => (pcReady_unfired s).trans (modRide_unfired _ _)
  rw [ridePrecharge_entered]
  exact ite_unfired (fun _ => entered.trans (pcDone_unfired source charge _)) fun _ => entered

theorem rideRestart_unfired {n : Nat} (source : n ≠ 0x39) (charge : n ≠ 0x3B) (s : State) : State.Unfired n s s.rideRestart := by
  unfold State.rideRestart
  split
  · exact rideTo_unfired s .dewWait 0 0
  · exact ridePrecharge_unfired source charge s true
  · exact rideSync_unfired source s
  · exact rideEnable_unfired source s
  · exact .refl s

theorem timeRefresh_unfired {n : Nat} (master : n ≠ 0x20) (s : State) : State.Unfired n s s.timeRefresh := by
  unfold State.timeRefresh
  dsimp only
  have sources : ∀ f g, State.Unfired n s ((s.updRing f).updTime g) := fun _ _ => rfl
  generalize hu : State.updTime _ _ = u
  have before : State.Unfired n s u := by rw [← hu]; exact sources _ _
  have follows : State.Unfired n u u.timeFollow := (timeFollow_keeps (M := 512) (by decide) (.refl _ u)).unfired (by decide)
  have sets : ∀ v st rate, State.Unfired n v (State.setTime v st rate) := fun v _ _ =>
    (setTime_keeps (M := 512) (by decide) (.refl _ v)).unfired (by decide)
  have lost : State.Unfired n u u.masterLoss :=
    State.Unfired.trans (t := (u.updTime fun t => { t with within := 0, beyond := 0 }).setTime .holdover u.heldRate)
      (sets (u.updTime fun t => { t with within := 0, beyond := 0 }) _ _) (condOn_unfired master (by decide) _ _ _ _)
  refine before.trans (ite_unfired (fun _ => ite_unfired (fun _ => .refl u) fun _ => ?_) fun _ => ite_unfired (fun _ => ite_unfired (fun _ => follows)
    fun _ => ite_unfired (fun _ => lost) fun _ => sets u _ _) fun _ => ite_unfired (fun _ => follows) fun _ => .refl u)
  exact State.Unfired.trans (t := u.condOffInst 0x20 noInst) (show State.Unfired n u _ from rfl) (sets _ _ _)

/-- A take-over counts a firing of the sources of a lost source of references, of a failed pre-charge and of a lost master alone. -/
theorem toActive_unfired {n : Nat} (source : n ≠ 0x39) (charge : n ≠ 0x3B) (master : n ≠ 0x20) (s : State) (e : Nat) :
    State.Unfired n s (s.toActive e) := by
  unfold State.toActive
  dsimp only
  have set_ : State.Unfired n s (s.setRole .active e) := (setRole_keeps (M := 2056) (by decide) (.refl _ s)).unfired (by decide)
  have cells : State.Unfired n (s.setRole .active e) (s.setRole .active e).freshCells :=
    (freshCells_keeps (M := 2 ^ 28 - 1 - 128) (by decide) (.refl _ _)).unfired (by decide)
  refine State.Unfired.trans (State.Unfired.trans (t := State.updTwin _ _) ?_ (timeRefresh_unfired master _)) (rideRestart_unfired source charge _)
  exact ite_unfired (fun _ => set_) fun _ => ite_unfired (fun _ => set_.trans cells) fun _ => set_

/-! ### A role taken -/

theorem setRole_twin (s : State) (r : Role) (e : Nat) : (s.setRole r e).twin =
    { s.twin with role := r, epoch := e % 2 ^ 16, roleAt := s.shortNow, roleMono := s.mono, healthOwed := true,
                  qualified := s.twin.qualified && decide (r = .standby) } := rfl

theorem toMaint_twin (s : State) (e : Nat) : (s.toMaint e).twin = (s.setRole .maint e).twin :=
  (haltCells_keeps (M := 81928) (by decide) (.refl _ (s.setRole .maint e))).twin (by decide)

theorem toActive_twin (s : State) (e : Nat) : (s.toActive e).twin =
    { (s.setRole .active e).twin with qualifying := none, missed := 0, switch := none } := by
  unfold State.toActive
  dsimp only
  rw [(rideRestart_keeps (M := 2 ^ 28 - 1 - 2048) (by decide) (.refl _ _)).twin (by decide),
    (timeRefresh_keeps (M := 2 ^ 28 - 1 - 2048) (by decide) (.refl _ _)).twin (by decide), updTwin_twin]
  have cells := (freshCells_keeps (M := 2 ^ 28 - 1 - 2048) (by decide) (.refl _ (s.setRole .active e))).twin (by decide)
  have chosen : (if s.twin.role = .standby ∧ s.twin.qualified = true then s.setRole .active e
      else if s.twin.role = .standby ∨ s.twin.role = .maint then (s.setRole .active e).freshCells else s.setRole .active e).twin =
      (s.setRole .active e).twin := by
    split
    · rfl
    split
    · exact cells
    · rfl
  rw [chosen]

/-- A verdict's end of a case, as a state that comes after it still shows it. -/
structure CaseEnded (v rule : Nat) (t : Twin) : Prop where
  /-- No case is open. -/
  closed : t.caseOpen = false
  /-- The arbiter is asked no longer. -/
  released : t.arbReqLow = false
  /-- The verdict. -/
  verdict : t.case.verdict = v
  /-- Its rule. -/
  rule : t.case.rule = rule

theorem CaseEnded.of_setRole {v rule : Nat} {s : State} (h : CaseEnded v rule s.twin) (r : Role) (e : Nat) :
    CaseEnded v rule (s.setRole r e).twin := by
  obtain ⟨closed, released, verdict, rules⟩ := h
  rw [setRole_twin]
  exact ⟨closed, released, verdict, rules⟩

theorem CaseEnded.of_toMaint {v rule : Nat} {s : State} (h : CaseEnded v rule s.twin) (e : Nat) : CaseEnded v rule (s.toMaint e).twin := by
  rw [toMaint_twin]; exact h.of_setRole .maint e

theorem CaseEnded.of_toActive {v rule : Nat} {s : State} (h : CaseEnded v rule s.twin) (e : Nat) : CaseEnded v rule (s.toActive e).twin := by
  obtain ⟨closed, released, verdict, rules⟩ := h.of_setRole .active e
  rw [toActive_twin]
  exact ⟨closed, released, verdict, rules⟩

/-! ### A verdict -/

/-- A verdict's case, note and, where none can be trusted, its fault, before the roles move. -/
def State.judged (s : State) (v rule : Nat) : State :=
  let s1 := ((s.twCase 3 v s.twin.case.j).caseEnd v rule).note 0x0A 0x0D03 (leBytes 1 v ++ leBytes 1 rule)
  if v = 3 ∧ s.twin.role = .active then s1.fire 0x49 noInst (leBytes 4 s.twin.case.j ++ leBytes 1 rule) else s1

theorem verdict_judged {s : State} (case_ : s.twin.caseOpen = true) (v rule : Nat) : s.verdict v rule =
    if v = 2 then
      if s.twin.role = .active then (s.judged v rule).toMaint s.nextEpoch
      else if s.twin.role = .standby then
        (((s.judged v rule).toActive s.nextEpoch).bump 0x0D05 noInst 7).fire 0x45 noInst (leBytes 2 s.nextEpoch)
      else s.judged v rule
    else if s.twin.role = .active then (s.judged v rule).setRole .active s.nextEpoch
    else if s.twin.role = .standby then (s.judged v rule).toMaint s.nextEpoch
    else s.judged v rule := by
  rw [State.verdict, case_]
  rfl

theorem judged_spec (s : State) (v rule : Nat) : CaseEnded v rule (s.judged v rule).twin ∧ (s.judged v rule).twin.role = s.twin.role ∧
    (s.judged v rule).twin.epoch = s.twin.epoch ∧ (v = 3 → s.twin.role = .active → s.Fired (s.judged v rule) 0x49) ∧
    (v ≠ 3 → State.Unfired 0x45 s (s.judged v rule)) := by
  unfold State.judged
  dsimp only
  have told := twCase_keeps (M := 65536) (a1 := 3) (a2 := v) (a3 := s.twin.case.j) (by decide) (.refl _ s)
  generalize s.twCase 3 v s.twin.case.j = a at *
  have ended : CaseEnded v rule (a.caseEnd v rule).twin ∧ (a.caseEnd v rule).twin.role = a.twin.role ∧
      (a.caseEnd v rule).twin.epoch = a.twin.epoch := ⟨⟨rfl, rfl, rfl, rfl⟩, rfl, rfl⟩
  have counts : (a.caseEnd v rule).faults = a.faults := rfl
  generalize a.caseEnd v rule = b at *
  have noted := note_keeps (M := 8304) (a1 := 0x0A) (a2 := 0x0D03) (a3 := leBytes 1 v ++ leBytes 1 rule) (a4 := false) (by decide) (.refl _ b)
  generalize b.note 0x0A 0x0D03 (leBytes 1 v ++ leBytes 1 rule) = c at *
  have twin : c.twin = b.twin := noted.twin (by decide)
  have firings : c.faults.firings = s.faults.firings := by rw [noted.firings (by decide), counts, told.firings (by decide)]
  rw [← twin, told.twin (by decide)] at ended
  obtain ⟨closed, role, epoch⟩ := ended
  split
  · rename_i open_
    have fires : ∀ args, Keeps 8440 c (c.fire 0x49 noInst args) := fun _ => fire_keeps (by decide) (.refl _ c)
    rw [(fires _).twin (by decide)]
    exact ⟨closed, role, epoch, fun _ _ => (fire_fired c (by decide) noInst _).from firings, fun other => absurd open_.1 other⟩
  · rename_i sure
    exact ⟨closed, role, epoch, fun three active => absurd ⟨three, active⟩ sure, fun _ => by rw [State.Unfired, firings]⟩

/-- A verdict ends the case and moves the roles at the next epoch (R391). -/
theorem verdict_spec {s : State} (case_ : s.twin.caseOpen = true) (v rule : Nat) :
    let e := s.verdict v rule
    e.twin.caseOpen = false ∧ e.twin.arbReqLow = false ∧ e.twin.case.verdict = v ∧ e.twin.case.rule = rule ∧
      e.twin.epoch = (if s.twin.role = .active ∨ s.twin.role = .standby then (s.twin.epoch + 1) % 2 ^ 16 else s.twin.epoch) ∧
      e.twin.role = (if s.twin.role = .active then (if v = 2 then .maint else .active)
        else if s.twin.role = .standby then (if v = 2 then .active else .maint) else s.twin.role) ∧
      (v = 3 → s.twin.role = .active → s.Fired e 0x49) ∧ (v = 2 → s.twin.role = .standby → s.Fired e 0x45) := by
  obtain ⟨ended, role, epoch, distrust, quiet⟩ := judged_spec s v rule
  have next : s.nextEpoch % 2 ^ 16 = (s.twin.epoch + 1) % 2 ^ 16 := Nat.mod_mod ..
  have together : ∀ {e : State} {r : Role} {n : Nat}, CaseEnded v rule e.twin → e.twin.role = r → e.twin.epoch = n →
      (v = 3 → s.twin.role = .active → s.Fired e 0x49) → (v = 2 → s.twin.role = .standby → s.Fired e 0x45) →
      e.twin.caseOpen = false ∧ e.twin.arbReqLow = false ∧ e.twin.case.verdict = v ∧ e.twin.case.rule = rule ∧ e.twin.epoch = n ∧
        e.twin.role = r ∧ (v = 3 → s.twin.role = .active → s.Fired e 0x49) ∧ (v = 2 → s.twin.role = .standby → s.Fired e 0x45) :=
    fun ⟨closed, released, verdict, rules⟩ role epoch a b => ⟨closed, released, verdict, rules, epoch, role, a, b⟩
  dsimp only
  rw [verdict_judged case_]
  generalize s.judged v rule = u at *
  have maint : ∀ e, (u.toMaint e).twin.role = .maint ∧ (u.toMaint e).twin.epoch = e % 2 ^ 16 := fun e => by
    rw [toMaint_twin, setRole_twin]; exact ⟨rfl, rfl⟩
  by_cases other : v = 2
  · rw [if_pos other]
    by_cases active : s.twin.role = .active
    · rw [if_pos active, if_pos (.inl active), if_pos active, if_pos other]
      exact together (ended.of_toMaint _) (maint _).1 ((maint _).2.trans next) (fun three => absurd (other.symm.trans three) (by decide))
        fun _ standby => absurd (active.symm.trans standby) (by decide)
    by_cases standby : s.twin.role = .standby
    · rw [if_neg active, if_pos standby, if_pos (.inr standby), if_neg active, if_pos standby, if_pos other]
      have fires := fun (w : State) => fire_keeps (M := 8440) (a1 := 0x45) (a2 := noInst) (a3 := leBytes 2 s.nextEpoch) (by decide) (.refl _ w)
      have counted := (quiet (by omega)).trans (toActive_unfired (n := 0x45) (by decide) (by decide) (by decide) u s.nextEpoch)
      have closed := ended.of_toActive s.nextEpoch
      have taken : (u.toActive s.nextEpoch).twin.role = .active ∧ (u.toActive s.nextEpoch).twin.epoch = s.nextEpoch % 2 ^ 16 := by
        rw [toActive_twin, setRole_twin]; exact ⟨rfl, rfl⟩
      generalize u.toActive s.nextEpoch = w at *
      have bumped : (w.bump 0x0D05 noInst 7).twin = w.twin ∧ (w.bump 0x0D05 noInst 7).faults = w.faults := ⟨rfl, rfl⟩
      obtain ⟨sameTwin, sameFaults⟩ := bumped
      generalize w.bump 0x0D05 noInst 7 = x at *
      have last : (x.fire 0x45 noInst (leBytes 2 s.nextEpoch)).twin = w.twin := by rw [(fires x).twin (by decide), sameTwin]
      refine together (by rw [last]; exact closed) (by rw [last]; exact taken.1) (by rw [last]; exact taken.2.trans next)
        (fun three => absurd (other.symm.trans three) (by decide)) fun _ _ => ?_
      have fired := fire_fired x (src := 0x45) (by decide) noInst (leBytes 2 s.nextEpoch)
      rw [State.Fired, fired, sameFaults, counted]
    · rw [if_neg active, if_neg standby, if_neg (not_or.2 ⟨active, standby⟩), if_neg active, if_neg standby]
      exact together ended role epoch (fun _ a => absurd a active) fun _ a => absurd a standby
  · rw [if_neg other]
    by_cases active : s.twin.role = .active
    · rw [if_pos active, if_pos (.inl active), if_pos active, if_neg other]
      exact together (ended.of_setRole _ _) rfl next (fun three _ => (distrust three active)) fun two => absurd two other
    by_cases standby : s.twin.role = .standby
    · rw [if_neg active, if_pos standby, if_pos (.inr standby), if_neg active, if_pos standby, if_neg other]
      exact together (ended.of_toMaint _) (maint _).1 ((maint _).2.trans next) (fun _ a => absurd a active) fun two => absurd two other
    · rw [if_neg active, if_neg standby, if_neg (not_or.2 ⟨active, standby⟩), if_neg active, if_neg standby]
      exact together ended role epoch (fun _ a => absurd a active) fun _ a => absurd a standby

/-! ### The referee -/

/-- The block a referee tells a verdict with (R413). -/
def State.refBlock (s : State) (c : RefereeCase) (v rule : Nat) : DownBlock :=
  { type := 0x46, payload := pf 91 s.node + pf 86 allNodes + pf 64 ((s.ring.headEpoch.get? c.head).getD 0) + pf 60 4 + pf 48 c.num + pf 46 v +
    pf 43 rule + pf 40 c.head }

/-- A referee's verdict drops the case, and goes out on the ring. -/
theorem refVerdict_spec (s : State) (c : RefereeCase) (v rule : Nat) :
    (s.refVerdict c v rule).twin.refCases = (s.twin.refCases.filter fun x => x ≠ c) ∧
    ((s.refVerdict c v rule).lnk 128).queue =
      (s.lnk 128).queue ++ (if (s.lane 128).st = .linked then [s.refBlock c v rule] else []) := by
  unfold State.refVerdict
  dsimp only
  rw [updTwin_twin]
  have first : ∀ p, (s.ringQueue 128 0x46 p).twin = s.twin ∧
      ((s.ringQueue 128 0x46 p).lnk 128).queue = (s.lnk 128).queue ++ (if (s.lane 128).st = .linked then [{ type := 0x46, payload := p }] else []) :=
    fun p => by
      unfold State.ringQueue
      split
      · exact ⟨(queueBlock_keeps (M := 65536) (by decide) (.refl _ s)).twin (by decide), by rw [queueBlock_lnk_own s (by decide)]⟩
      · exact ⟨rfl, (List.append_nil _).symm⟩
  have second : ∀ (u : State) p, (u.ringQueue 129 0x46 p).twin = u.twin ∧ (u.ringQueue 129 0x46 p).lnk 128 = u.lnk 128 := fun u p => by
    unfold State.ringQueue
    split
    · exact ⟨(queueBlock_keeps (M := 65536) (by decide) (.refl _ u)).twin (by decide), queueBlock_oneLink u (l := 129) (by decide) _ _ 128 (by decide)⟩
    · exact ⟨rfl, rfl⟩
  have last : ∀ (u : State) f n, (u.updTwin f).lnk n = u.lnk n := fun _ _ _ => rfl
  rw [last, (second _ _).2, (second _ _).1, (first _).1, (first _).2]
  exact ⟨rfl, by rw [State.refBlock]⟩

/-- What a referee judges next takes cases away, and adds blocks. -/
theorem refJudge_spec (n : Nat) (s : State) : (∀ c ∈ (State.refJudge n s).twin.refCases, c ∈ s.twin.refCases) ∧
    ∃ more, ((State.refJudge n s).lnk 128).queue = (s.lnk 128).queue ++ more := by
  induction n generalizing s with
  | zero => exact ⟨fun _ mem => mem, [], (List.append_nil _).symm⟩
  | succ n ih =>
    have stays : (∀ c ∈ s.twin.refCases, c ∈ s.twin.refCases) ∧ ∃ more, (s.lnk 128).queue = (s.lnk 128).queue ++ more :=
      ⟨fun _ mem => mem, [], (List.append_nil _).symm⟩
    have verdict : ∀ c v rule, (∀ d ∈ (State.refJudge n (s.refVerdict c v rule)).twin.refCases, d ∈ s.twin.refCases) ∧
        ∃ more, ((State.refJudge n (s.refVerdict c v rule)).lnk 128).queue = (s.lnk 128).queue ++ more := fun c v rule => by
      obtain ⟨left, queue⟩ := refVerdict_spec s c v rule
      obtain ⟨sub, more, adds⟩ := ih (s.refVerdict c v rule)
      refine ⟨fun d mem => ?_, _, by rw [adds, queue, List.append_assoc]⟩
      have still := sub d mem
      rw [left] at still
      exact (List.mem_filter.1 still).1
    rw [State.refJudge]
    split
    · exact stays
    · rename_i c r cases_
      split
      · obtain ⟨sub, more, adds⟩ := ih (s.updTwin fun t => { t with refCases := r })
        exact ⟨fun d mem => by rw [cases_]; exact List.mem_cons_of_mem c (sub d mem), more, adds⟩
      dsimp only
      split
      · exact verdict c _ 1
      split
      · split
        · exact verdict c _ 2
        split
        · exact verdict c _ 4
        · exact stays
      · exact stays

theorem refereeReplayDone_lands {s : State} {c : RefereeCase} {r : List RefereeCase} {x y : RefClaim} {a b : Bool} {head : Fin 8}
    (cases_ : s.twin.refCases = c :: r) (named : c.head = head) (claimA : c.claimA = some x) (claimS : c.claimS = some y)
    (first : x.reproduced = true) (second : y.reproduced = true) (same : x.dig = y.dig) (whole : x.chunks ≤ c.evidence.cells.length)
    (role : s.twin.role = .referee) : Lands (exec (.refereeReplayDone head a b) s) fun e =>
      Only [.twin, .links] s e ∧ c ∉ e.twin.refCases ∧ ((s.lane 128).st = .linked → ∃ more, (e.lnk 128).queue = (s.lnk 128).queue ++
        { type := 0x46, payload := pf 91 s.node + pf 86 31 + pf 64 ((s.ring.headEpoch.get? head).getD 0) + pf 60 4 + pf 48 c.num +
          pf 46 (if a && b then 1 + s.pu 0x0D02 noInst 2 1 else if a then 1 else if b then 2 else 3) +
          pf 43 (if a && b then 4 else 3) + pf 40 head } :: more) := by
  have run : exec (.refereeReplayDone head a b) s =
      (s.refVerdict c (if a && b then 1 + s.pu 0x0D02 noInst 2 1 else if a then 1 else if b then 2 else 3) (if a && b then 4 else 3)).refGo.done := by
    change execRefereeReplayDone head a b s = _
    rw [execRefereeReplayDone, cases_]
    dsimp only
    rw [claimA, claimS]
    dsimp only
    rw [if_pos ⟨role, named, first, second, same, whole⟩]
    cases a <;> cases b <;> rfl
  generalize (if a && b then 1 + s.pu 0x0D02 noInst 2 1 else if a then 1 else if b then 2 else 3) = v at *
  generalize (if a && b then 4 else 3) = rule at *
  obtain ⟨left, queue⟩ := refVerdict_spec s c v rule
  obtain ⟨sub, more, adds⟩ := refJudge_spec ((s.refVerdict c v rule).twin.refCases.length + 1) (s.refVerdict c v rule)
  refine ⟨_, run, only_of (refGo_keeps (by decide) (refVerdict_keeps (by decide) (.refl _ s))), fun mem => ?_, fun linked => ?_⟩
  · have still := sub c mem
    rw [left] at still
    exact (of_decide_eq_true (List.mem_filter.1 still).2) rfl
  · refine ⟨more, ?_⟩
    rw [State.refGo, adds, queue, if_pos linked, List.append_assoc, State.refBlock, named]
    rfl

/-! ### The rows -/

/-- A replay kept, with what the evidence that goes out is to be (R390). -/
def State.caseReplayed (s : State) (r : Bool) (chunks : Option (Nat × Nat × Nat)) : State :=
  s.tookFree.updTwin fun t => { t with
    replayed := some r
    case := { t.case with
      replay := if decide (s.twin.role = .active) then b2n r + 2 * (s.freeVal % 2) else s.freeVal % 2 + 2 * b2n r }
    evidOut := chunks }

theorem caseReplayDone_lands {s : State} {r : Bool} (case_ : s.twin.caseOpen = true) (fresh : s.twin.replayed = none) (pair : s.inPair = true) :
    Lands (exec (.caseReplayDone r) s) fun e => Only [.freeCount, .twin, .links] s e ∧ e.twin.replayed = some r ∧ e.twin.caseOpen = true ∧
      e.twin.role = s.twin.role ∧ e.twin.case.replay.testBit (if s.twin.role = .active then 0 else 1) = r := by
  have shown : ∀ (own : Bool) (f : Nat), (if decide (s.twin.role = .active) then b2n own + 2 * (f % 2) else f % 2 + 2 * b2n own).testBit
      (if s.twin.role = .active then 0 else 1) = own := fun own f => by
    by_cases active : s.twin.role = .active
    · rw [if_pos (decide_eq_true active), if_pos active]
      cases own <;> simp [b2n, Nat.testBit_zero]
    · rw [if_neg (by rw [decide_eq_false active]; exact Bool.false_ne_true), if_neg active]
      cases own <;> simp [b2n, Nat.testBit_succ]
  obtain ⟨body, chunks, run⟩ : ∃ body chunks, exec (.caseReplayDone r) s =
      (if s.refMode = 1 then (s.caseReplayed r chunks).ringSend 0x46 16 body else s.caseReplayed r chunks).done :=
    ⟨_, _, if_pos ⟨case_, fresh, pair⟩⟩
  have kept : Keeps 67588 s (s.caseReplayed r chunks) := updTwin_keeps (by decide) (tookFree_keeps (by decide) (.refl _ s))
  have twin : (if s.refMode = 1 then (s.caseReplayed r chunks).ringSend 0x46 16 body else s.caseReplayed r chunks).twin =
      (s.caseReplayed r chunks).twin := by
    split
    · exact (ringSend_keeps (M := 65536) (by decide) (.refl _ _)).twin (by decide)
    · rfl
  refine ⟨_, run, only_of (keeps_ite (fun _ => ringSend_keeps (by decide) kept) fun _ => kept), ?_⟩
  rw [twin]
  exact ⟨rfl, case_, rfl, shown r _⟩

/-- Settles O38, row by row. -/
theorem verdicts : Obligations.Verdicts := by
  intro s
  refine ⟨fun r case_ fresh pair => caseReplayDone_lands case_ fresh pair, fun code given asked case_ => ?_, fun code idle => ?_,
    fun case_ due => ?_, fun c r x y a b head cases_ named claimA claimS first second same whole role =>
      refereeReplayDone_lands cases_ named claimA claimS first second same whole role⟩
  · exact ⟨_, if_pos ⟨asked, given⟩, only_of (verdict_keeps (by decide) (.refl _ s)), verdict_spec case_ _ _⟩
  · exact if_neg fun ⟨asked, given⟩ => idle.elim given fun off => by rw [asked] at off; cases off
  · exact ⟨_, if_pos ⟨case_, elapsed_of_le due⟩, only_of (verdict_keeps (by decide) (.refl _ s)), verdict_spec case_ _ _⟩

end Sys2Proof.Machine
end

section
/-!
PROOFS. The battery domain and tampering (R564 to R569). What one event does is said once; a sample is a fold of the inputs, of which those that have
failed often enough are events, and a copy of the log is a fold of its entries.
-/

namespace Sys2Proof.Machine

open Host

/-! ### A tamper event (R567, R568) -/

/-- The battery domain after an event's entry. -/
def Battery.entered (b : Battery) (e : TampEntry) (core : Bool) : Battery :=
  { b with
    mramKey := 0, logSeq := (b.logSeq + 1) % 65536, signals := b.signals + b2n core
    log := if b.log.length < 8 then b.log ++ [e] else b.log
    lost := if b.log.length < 8 then b.lost else min 65535 (b.lost + 1) }

/-- The key and every secret stored under it are gone. -/
def State.keysGone (t : State) : Prop := t.bat.mramKey = 0 ∧ t.fw.signKey = none ∧ t.fw.kaKey = none ∧ t.fw.linkKeys = []

theorem tampEvent_bat (s : State) (src : Nat) : (s.tampEvent src).bat = s.bat.entered (s.tampEntry src true 0) s.corePresent := by
  have entry : s.zeroise.tampEntry src true 0 = s.tampEntry src true 0 := rfl
  have logged : (s.zeroise.tampLog src true 0).bat = { s.bat with
      mramKey := 0, logSeq := (s.bat.logSeq + 1) % 65536
      log := if s.bat.log.length < 8 then s.bat.log ++ [s.tampEntry src true 0] else s.bat.log
      lost := if s.bat.log.length < 8 then s.bat.lost else min 65535 (s.bat.lost + 1) } := by
    have zero : s.zeroise.bat = { s.bat with mramKey := 0 } := rfl
    rw [State.tampLog, updBat_bat, entry, zero]
    dsimp only
    by_cases room : s.bat.log.length < 8
    · simp only [if_pos room]
    · simp only [if_neg room, satN_eq_min]; rfl
  unfold State.tampEvent
  dsimp only
  cases core : s.corePresent
  · rw [if_neg Bool.false_ne_true, logged]; rfl
  · rw [if_pos rfl, updBat_bat, logged]; rfl

theorem tampEvent_keysGone (s : State) (src : Nat) : (s.tampEvent src).keysGone := by
  refine ⟨by rw [tampEvent_bat]; rfl, ?_⟩
  unfold State.tampEvent
  dsimp only
  split <;> exact ⟨rfl, rfl, rfl⟩

/-- What the obligation says of an event, of the state it comes to. -/
theorem tampEvent_event {s u : State} (src : Nat) (bat : u.bat.log = s.bat.log ∧ u.bat.lost = s.bat.lost ∧ u.bat.logSeq = s.bat.logSeq ∧
      u.bat.signals = s.bat.signals) (entry : u.tampEntry src true 0 = s.tampEntry src true 0) (core : u.corePresent = s.corePresent) :
    (u.tampEvent src).keysGone ∧ (u.tampEvent src).bat.signals = s.bat.signals + b2n s.corePresent ∧
      (u.tampEvent src).bat.logSeq = (s.bat.logSeq + 1) % 65536 ∧
      if s.bat.log.length < 8 then (u.tampEvent src).bat.log = s.bat.log ++ [s.tampEntry src true 0] ∧ (u.tampEvent src).bat.lost = s.bat.lost
      else (u.tampEvent src).bat.log = s.bat.log ∧ (u.tampEvent src).bat.lost = min 65535 (s.bat.lost + 1) := by
  obtain ⟨log, lost, logSeq, signals⟩ := bat
  refine ⟨tampEvent_keysGone u src, ?_⟩
  rw [tampEvent_bat, entry, core, Battery.entered, log, lost, logSeq, signals]
  refine ⟨rfl, rfl, ?_⟩
  split <;> exact ⟨rfl, rfl⟩

theorem tampEvent_only (s : State) (src : Nat) : Keeps 134221824 s (s.tampEvent src) := tampEvent_keeps (by decide) (.refl _ s)

/-! ### A sample (R566) -/

/-- The failing samples in a row of an input after a sample. -/
def State.tampRun (s : State) (levels i : Nat) : Nat :=
  if tampFails (uAt (s.bat.tamp i) 0 1) (bit levels i) s.bat.drv then s.bat.failing.get 0 i + 1 else 0

/-- Whether an input has failed often enough. -/
def State.tampHit (s : State) (levels i : Nat) : Bool :=
  decide (s.tampRun levels i ≠ 0 ∧ s.tampRun levels i = max 1 (uAt (s.bat.tamp i) 1 1))

theorem tampFails_iff (mode : Nat) (level drv : Bool) : tampFails mode level drv = true ↔
    (mode = 1 ∧ level = true) ∨ (mode = 2 ∧ level = false) ∨ (mode = 3 ∧ level ≠ drv) := by
  unfold tampFails
  split
  · simp
  · simp
  · simp
  · rename_i one two three
    exact ⟨(nomatch ·), fun h => h.elim (fun h => (one h.1).elim) fun h => h.elim (fun h => (two h.1).elim) fun h => (three h.1).elim⟩

/-- One input of a sample: an input that is a hit is an event, and another one its run alone. -/
theorem tampInput_of_hit {s : State} {levels i : Nat} (hit : s.tampHit levels i = true) : s.tampInput i (bit levels i) =
    (s.updBat fun b => { b with failing := b.failing.set i (s.tampRun levels i) }).tampEvent i := if_pos (of_decide_eq_true hit)

theorem tampInput_of_miss {s : State} {levels i : Nat} (miss : s.tampHit levels i = false) : s.tampInput i (bit levels i) =
    s.updBat fun b => { b with failing := b.failing.set i (s.tampRun levels i) } := if_neg (of_decide_eq_false miss)

theorem tampRun_congr {s t : State} (cfg : t.bat.tampCfg = s.bat.tampCfg) (drv : t.bat.drv = s.bat.drv) (levels : Nat) {i : Nat}
    (run : t.bat.failing.get 0 i = s.bat.failing.get 0 i) : t.tampRun levels i = s.tampRun levels i ∧
      t.tampHit levels i = s.tampHit levels i := by
  have same : t.tampRun levels i = s.tampRun levels i := by
    rw [State.tampRun, State.tampRun, Battery.tamp, Battery.tamp, cfg, drv, run]
  exact ⟨same, by rw [State.tampHit, State.tampHit, same, Battery.tamp, Battery.tamp, cfg]⟩

/-- What the inputs of a list have made of a state: their runs, and an event for each of them that has failed often enough. -/
structure Sampled (levels : Nat) (ls : List Nat) (s t : State) : Prop where
  /-- The configuration stands. -/
  cfg : t.bat.tampCfg = s.bat.tampCfg
  /-- The pin stands. -/
  drv : t.bat.drv = s.bat.drv
  /-- The runs. -/
  run : ∀ i, t.bat.failing.get 0 i = if i ∈ ls then s.tampRun levels i else s.bat.failing.get 0 i
  /-- The entries, as long as there is room. -/
  log : t.bat.log.map (·.source) = s.bat.log.map (·.source) ++ (ls.filter (s.tampHit levels)).take (8 - s.bat.log.length)
  /-- The others are lost. -/
  lost : t.bat.lost = if (ls.filter (s.tampHit levels)).length ≤ 8 - s.bat.log.length then s.bat.lost
    else min 65535 (s.bat.lost + ((ls.filter (s.tampHit levels)).length - (8 - s.bat.log.length)))
  /-- Without an event nothing else changes. -/
  quiet : ls.filter (s.tampHit levels) = [] → Keeps 4096 s t ∧ t.bat.mramKey = s.bat.mramKey
  /-- An event zeroises the key. -/
  event : ls.filter (s.tampHit levels) ≠ [] → t.keysGone

theorem sampled_miss {s : State} {levels i : Nat} (miss : s.tampHit levels i = false) : Sampled levels [i] s (s.tampInput i (bit levels i)) := by
  have none_ : [i].filter (s.tampHit levels) = [] := by simp [miss]
  rw [tampInput_of_miss miss]
  refine ⟨rfl, rfl, fun j => ?_, ?_, ?_, fun _ => ⟨updBat_keeps (by decide) (.refl _ s), rfl⟩, fun some_ => absurd none_ some_⟩
  · by_cases own : j = i
    · rw [own, if_pos (List.mem_singleton_self i)]; exact Tab.get_set ..
    · rw [if_neg (mt List.mem_singleton.1 own)]; exact Tab.get_set_ne _ _ own _
  · rw [none_, List.take_nil, List.append_nil]; rfl
  · rw [none_, List.length_nil, if_pos (Nat.zero_le _)]; rfl

theorem sampled_hit {s : State} {levels i : Nat} (hit : s.tampHit levels i = true) : Sampled levels [i] s (s.tampInput i (bit levels i)) := by
  have one : [i].filter (s.tampHit levels) = [i] := by simp [hit]
  rw [tampInput_of_hit hit]
  have gone := tampEvent_keysGone (s.updBat fun b => { b with failing := b.failing.set i (s.tampRun levels i) }) i
  have bat := tampEvent_bat (s.updBat fun b => { b with failing := b.failing.set i (s.tampRun levels i) }) i
  generalize State.tampEvent _ i = t at *
  rw [Battery.entered, updBat_bat] at bat
  dsimp only at bat
  refine ⟨by rw [bat], by rw [bat], fun j => ?_, ?_, ?_, fun none_ =>
    absurd (one.symm.trans none_) (List.cons_ne_nil _ _), fun _ => gone⟩
  · rw [bat]
    dsimp only
    by_cases own : j = i
    · rw [own, if_pos (List.mem_singleton_self i), Tab.get_set]
    · rw [if_neg (mt List.mem_singleton.1 own), Tab.get_set_ne _ _ own]
  · rw [bat, one]
    dsimp only
    by_cases room : s.bat.log.length < 8
    · obtain ⟨k, free⟩ := Nat.exists_eq_add_of_lt room
      rw [if_pos room, show 8 - s.bat.log.length = k + 1 by omega, List.map_append, List.take_succ_cons, List.take_nil]; rfl
    · rw [if_neg room, show 8 - s.bat.log.length = 0 by omega]; exact (List.append_nil _).symm
  · rw [bat, one]
    dsimp only
    by_cases room : s.bat.log.length < 8
    · rw [if_pos room, if_pos (by rw [List.length_singleton]; omega)]
    · rw [if_neg room, show 8 - s.bat.log.length = 0 by omega]; rfl

/-- The inputs of a list one after another. -/
theorem Sampled.append {levels i : Nat} {ls : List Nat} {s t u : State} (first : Sampled levels [i] s t) (fresh : i ∉ ls)
    (rest : Sampled levels ls t u) : Sampled levels (i :: ls) s u := by
  have same : ∀ j ∈ ls, t.tampRun levels j = s.tampRun levels j ∧ t.tampHit levels j = s.tampHit levels j := fun j mem =>
    tampRun_congr first.cfg first.drv levels (by rw [first.run, if_neg (by rintro h; exact fresh (List.mem_singleton.1 h ▸ mem))])
  have hits : ls.filter (t.tampHit levels) = ls.filter (s.tampHit levels) := List.filter_congr fun j mem => (same j mem).2
  have all : (i :: ls).filter (s.tampHit levels) = [i].filter (s.tampHit levels) ++ ls.filter (s.tampHit levels) :=
    List.filter_append (l₁ := [i]) ls
  obtain ⟨cfg, drv, run, log, lost, quiet, event⟩ := first
  obtain ⟨cfg', drv', run', log', lost', quiet', event'⟩ := rest
  rw [hits] at log' lost' quiet' event'
  have length : t.bat.log.length = s.bat.log.length + (([i].filter (s.tampHit levels)).take (8 - s.bat.log.length)).length := by
    have count := congrArg List.length log
    rwa [List.length_map, List.length_append, List.length_map] at count
  rw [List.length_take] at length
  refine ⟨cfg'.trans cfg, drv'.trans drv, fun j => ?_, ?_, ?_, fun none_ => ?_, fun some_ => ?_⟩
  · rw [run', run]
    by_cases later : j ∈ ls
    · rw [if_pos later, if_pos (List.mem_cons_of_mem i later), (same j later).1]
    · rw [if_neg later]
      exact if_congr (by simp [later]) rfl rfl
  · rw [log', log, all, List.append_assoc, List.take_append]
    congr 3
    omega
  · rw [lost', lost, all, List.length_append]
    generalize ([i].filter (s.tampHit levels)).length = a at *
    generalize (ls.filter (s.tampHit levels)).length = b at *
    split <;> split <;> split <;> omega
  · rw [all, List.append_eq_nil_iff] at none_
    obtain ⟨keeps, key⟩ := quiet none_.1
    obtain ⟨keeps', key'⟩ := quiet' none_.2
    exact ⟨keeps.trans keeps', key'.trans key⟩
  · by_cases later : ls.filter (s.tampHit levels) = []
    · obtain ⟨keeps', key'⟩ := quiet' later
      rw [all, later, List.append_nil] at some_
      obtain ⟨key, sign, ka, links⟩ := event some_
      have fw : u.fw = t.fw := keeps'.fw (by decide)
      exact ⟨key'.trans key, by rw [fw]; exact sign, by rw [fw]; exact ka, by rw [fw]; exact links⟩
    · exact event' later

theorem sampled_foldl (levels : Nat) (ls : List Nat) (distinct : ls.Nodup) (s : State) :
    Sampled levels ls s (ls.foldl (fun s i => s.tampInput i (bit levels i)) s) := by
  induction ls generalizing s with
  | nil => exact ⟨rfl, rfl, fun i => (if_neg List.not_mem_nil).symm, by simp, by simp, fun _ => ⟨.refl _ s, rfl⟩, fun some_ => absurd rfl some_⟩
  | cons i r ih =>
    obtain ⟨fresh, distinct⟩ := List.nodup_cons.1 distinct
    rw [List.foldl_cons]
    refine Sampled.append ?_ fresh (ih distinct _)
    cases hit : s.tampHit levels i
    · exact sampled_miss hit
    · exact sampled_hit hit

/-- A row that ends in one of two ways, as the state says. -/
theorem next_ite {c : Prop} [Decidable c] {o : Outcome State Fault Refusal} {P Q : State → Prop} (yes : c → Next o P) (no : ¬c → Next o Q) :
    Next o fun t => if c then P t else Q t := by
  split
  · exact yes ‹_›
  · exact no ‹_›

theorem tamperSample_lands (s : State) (l : BitVec 4) : Next (exec (.tamperSample l) s) fun t =>
    if s.bat.powered = false then t = s
    else
      let run := fun i =>
        if (uAt (s.bat.tamp i) 0 1 = 1 ∧ bit l.toNat i = true) ∨ (uAt (s.bat.tamp i) 0 1 = 2 ∧ bit l.toNat i = false) ∨
          (uAt (s.bat.tamp i) 0 1 = 3 ∧ bit l.toNat i ≠ s.bat.drv) then s.bat.failing.get 0 i + 1 else 0
      let hits := (List.range 4).filter fun i => decide (run i ≠ 0 ∧ run i = max 1 (uAt (s.bat.tamp i) 1 1))
      t.bat.levels = l.toNat ∧ t.freeCount = s.freeCount + 1 ∧ (∀ i < 4, t.bat.failing.get 0 i = run i) ∧
      t.bat.log.map (·.source) = s.bat.log.map (·.source) ++ hits.take (8 - s.bat.log.length) ∧
      t.bat.lost = (if hits.length ≤ 8 - s.bat.log.length then s.bat.lost
        else min 65535 (s.bat.lost + (hits.length - (8 - s.bat.log.length)))) ∧
      if hits = [] then Only [.freeCount, .bat] s t ∧ t.bat.mramKey = s.bat.mramKey else Only [.freeCount, .bat, .fw] s t ∧ t.keysGone := by
  refine next_ite (fun off => ⟨s, if_pos off, rfl⟩) fun off => ?_
  have run : exec (.tamperSample l) s = .next ((((List.range 4).foldl (fun s i => s.tampInput i (bit l.toNat i)) s).updBat fun b =>
      { b with levels := l.toNat, drv := bit ((List.range 4).foldl (fun s i => s.tampInput i (bit l.toNat i)) s).freeVal 0 }).tookFree) := if_neg off
  refine ⟨_, run, ?_⟩
  have runs : ∀ i, (if (uAt (s.bat.tamp i) 0 1 = 1 ∧ bit l.toNat i = true) ∨ (uAt (s.bat.tamp i) 0 1 = 2 ∧ bit l.toNat i = false) ∨
      (uAt (s.bat.tamp i) 0 1 = 3 ∧ bit l.toNat i ≠ s.bat.drv) then s.bat.failing.get 0 i + 1 else 0) = s.tampRun l.toNat i := fun i =>
    if_congr (tampFails_iff ..).symm rfl rfl
  simp only [runs]
  have hits : (List.range 4).filter (fun i => decide (s.tampRun l.toNat i ≠ 0 ∧ s.tampRun l.toNat i = max 1 (uAt (s.bat.tamp i) 1 1))) =
      (List.range 4).filter (s.tampHit l.toNat) := rfl
  rw [hits]
  obtain ⟨-, -, fails, log, lost, quiet, event⟩ := sampled_foldl l.toNat (List.range 4) List.nodup_range s
  have keeps : Keeps 134221824 s ((List.range 4).foldl (fun s i => s.tampInput i (bit l.toNat i)) s) :=
    keeps_foldl (.refl _ s) fun _ _ h => tampInput_keeps (by decide) h
  generalize (List.range 4).foldl (fun s i => s.tampInput i (bit l.toNat i)) s = u at *
  refine ⟨rfl, ?_, fun i small => (fails i).trans (if_pos (List.mem_range.2 small)), log, lost, ?_⟩
  · exact congrArg (· + 1) (keeps.freeCount (by decide))
  · split
    · rename_i none_
      obtain ⟨still, key⟩ := quiet none_
      exact ⟨only_of (tookFree_keeps (by decide) (updBat_keeps (by decide) (still.weaken (by decide)))), key⟩
    · rename_i some_
      exact ⟨only_of (tookFree_keeps (by decide) (updBat_keeps (by decide) (keeps.weaken (by decide)))), event some_⟩

/-! ### The copy of the log (R568) -/

/-- An entry copied: written to the attic, and where it says that the key was zeroised, fired and counted. -/
def State.tampCopyOne (s : State) (e : TampEntry) : State :=
  if bit e.flags 1 then
    ((s.tampAttic e).fire 0x81 e.source (leBytes 1 e.flags ++ leBytes 2 e.seq ++ leBytes 4 e.sec ++ leBytes 2 e.sub ++ leBytes 2 e.lost)).updEn
      fun n => { n with tampers := satN 16 (n.tampers + 1) }
  else s.tampAttic e

theorem tampCopy_eq (s : State) : s.tampCopy = (s.bat.log.foldl State.tampCopyOne s).updBat fun b => { b with log := [] } := rfl

theorem tampCopyOne_spec (s : State) (e : TampEntry) : (s.tampCopyOne e).bat = { s.bat with copied := (e :: s.bat.copied).take 8 } ∧
    (s.tampCopyOne e).faults.firings.get 0 0x81 =
      (if bit e.flags 1 = true then min (2 ^ 32 - 1) (s.faults.firings.get 0 0x81 + 1) else s.faults.firings.get 0 0x81) ∧
    (s.tampCopyOne e).en = { s.en with tampers := if bit e.flags 1 = true then min 65535 (s.en.tampers + 1) else s.en.tampers } := by
  have bat : (s.tampAttic e).bat = { s.bat with copied := (e :: s.bat.copied).take 8 } := rfl
  have firings : (s.tampAttic e).faults.firings = s.faults.firings := rfl
  have en : (s.tampAttic e).en = s.en := rfl
  unfold State.tampCopyOne
  by_cases zeroised : bit e.flags 1 = true
  · simp only [if_pos zeroised]
    generalize s.tampAttic e = u at *
    generalize leBytes 1 e.flags ++ leBytes 2 e.seq ++ leBytes 4 e.sec ++ leBytes 2 e.sub ++ leBytes 2 e.lost = args
    have fires : Keeps 8440 u (u.fire 0x81 e.source args) := fire_keeps (by decide) (.refl _ u)
    have fired := fire_fired u (src := 0x81) (by decide) e.source args
    generalize u.fire 0x81 e.source args = v at *
    refine ⟨by rw [updEn_bat, fires.bat (by decide), bat], ?_, ?_⟩
    · rw [updEn_faults, fired, firings]
    · rw [updEn_en, fires.en (by decide), en, satN_eq_min]; rfl
  · simp only [if_neg zeroised]
    exact ⟨bat, by rw [firings], en⟩

theorem take_append_take {α : Type} (n : Nat) (a b : List α) : (a ++ b.take n).take n = (a ++ b).take n := by
  rw [List.take_append, List.take_append, List.take_take]
  congr 2
  omega

/-- Saturating counts of a list, by its head. -/
theorem count_cons (m f k : Nat) (b : Bool) :
    (if k = 0 then (if b = true then min m (f + 1) else f) else min m ((if b = true then min m (f + 1) else f) + k)) =
      if (if b = true then k + 1 else k) = 0 then f else min m (f + if b = true then k + 1 else k) := by
  cases b
  · rfl
  · rw [if_pos rfl, if_pos rfl, if_neg (Nat.succ_ne_zero k)]
    split <;> omega

theorem foldl_tampCopyOne (l : List TampEntry) (s : State) :
    (l.foldl State.tampCopyOne s).bat = { s.bat with copied := if l = [] then s.bat.copied else (l.reverse ++ s.bat.copied).take 8 } ∧
    (l.foldl State.tampCopyOne s).faults.firings.get 0 0x81 = (if (l.filter fun x => bit x.flags 1).length = 0 then s.faults.firings.get 0 0x81
      else min (2 ^ 32 - 1) (s.faults.firings.get 0 0x81 + (l.filter fun x => bit x.flags 1).length)) ∧
    (l.foldl State.tampCopyOne s).en = { s.en with
      tampers := if (l.filter fun x => bit x.flags 1).length = 0 then s.en.tampers
      else min 65535 (s.en.tampers + (l.filter fun x => bit x.flags 1).length) } := by
  induction l generalizing s with
  | nil => exact ⟨rfl, rfl, rfl⟩
  | cons e r ih =>
    obtain ⟨bat, firings, en⟩ := tampCopyOne_spec s e
    obtain ⟨bat', firings', en'⟩ := ih (s.tampCopyOne e)
    rw [List.foldl_cons, bat', firings', en', bat, firings, en, List.filter_cons]
    refine ⟨?_, ?_, ?_⟩
    · rw [if_neg (List.cons_ne_nil e r)]
      dsimp only
      by_cases last : r = []
      · rw [if_pos last, last]; rfl
      · rw [if_neg last, take_append_take, List.reverse_cons, List.append_assoc]; rfl
    · rw [apply_ite List.length, List.length_cons]
      exact count_cons ..
    · rw [apply_ite List.length, List.length_cons]
      exact congrArg (fun n => { s.en with tampers := n }) (count_cons ..)

theorem tamperLogCopy_lands {s : State} (serves : s.sys.stage = .serving) : Lands (exec .tamperLogCopy s) fun e =>
    let k := (s.bat.log.filter fun x => bit x.flags 1).length
    Only [.todo, .hatch, .notif, .par, .faults, .bat, .pantry, .en] s e ∧
    e.bat = { s.bat with log := [], copied := if s.bat.log = [] then s.bat.copied else (s.bat.log.reverse ++ s.bat.copied).take 8 } ∧
    e.faults.firings.get 0 0x81 = (if k = 0 then s.faults.firings.get 0 0x81 else min (2 ^ 32 - 1) (s.faults.firings.get 0 0x81 + k)) ∧
    e.en = { s.en with tampers := if k = 0 then s.en.tampers else min 65535 (s.en.tampers + k) } := by
  obtain ⟨bat, firings, en⟩ := foldl_tampCopyOne s.bat.log s
  refine ⟨s.tampCopy, if_pos serves, only_of (tampCopy_keeps (by decide) (.refl _ s)), ?_⟩
  rw [tampCopy_eq]
  refine ⟨?_, firings, en⟩
  rw [updBat_bat, bat]

/-! ### The supply, and the command -/

theorem vbatLowDetect_lands (s : State) (mv : BitVec 16) : Next (exec (.vbatLowDetect mv) s) fun t => t.bat.vbat = mv.toNat ∧
    t.bat.vbatLow = (decide (mv.toNat < 2300) && s.bat.onVbat) ∧
    if mv.toNat < 2300 ∧ s.bat.onVbat = true ∧ s.bat.vbatLow = false ∧ s.bat.powered = true then
      Only [.bat, .fw] s t ∧ t.keysGone ∧ t.bat.signals = s.bat.signals + b2n s.corePresent ∧ t.bat.logSeq = (s.bat.logSeq + 1) % 65536 ∧
        if s.bat.log.length < 8 then t.bat.log = s.bat.log ++ [s.tampEntry 0x11 true 0] ∧ t.bat.lost = s.bat.lost
        else t.bat.log = s.bat.log ∧ t.bat.lost = min 65535 (s.bat.lost + 1)
    else Only [.bat] s t ∧ t.bat = { s.bat with vbat := mv.toNat, vbatLow := decide (mv.toNat < 2300) && s.bat.onVbat } := by
  have same : (mv.toNat < 2300 ∧ s.bat.onVbat = true ∧ s.bat.vbatLow = false ∧ s.bat.powered = true) ↔
      ((decide (mv.toNat < 2300) && s.bat.onVbat) = true ∧ s.bat.vbatLow = false ∧ s.bat.powered = true) := by
    rw [Bool.and_eq_true_iff, decide_eq_true_iff, and_assoc]
  by_cases low : mv.toNat < 2300 ∧ s.bat.onVbat = true ∧ s.bat.vbatLow = false ∧ s.bat.powered = true
  · refine ⟨_, if_pos (same.1 low), ?_⟩
    dsimp only
    rw [if_pos low]
    have event := tampEvent_event (s := s) (u := s.updBat fun b =>
      { b with vbat := mv.toNat, vbatLow := decide (mv.toNat < 2300) && s.bat.onVbat }) 0x11 ⟨rfl, rfl, rfl, rfl⟩ rfl rfl
    have bat := tampEvent_bat (s.updBat fun b => { b with vbat := mv.toNat, vbatLow := decide (mv.toNat < 2300) && s.bat.onVbat }) 0x11
    exact ⟨by rw [bat]; rfl, by rw [bat]; rfl, only_of (tampEvent_keeps (by decide) (updBat_keeps (by decide) (.refl _ s))), event⟩
  · refine ⟨_, if_neg (mt same.2 low), rfl, rfl, ?_⟩
    dsimp only
    rw [if_neg low]
    exact ⟨only_of (updBat_keeps (by decide) (.refl _ s)), rfl⟩

theorem tampZeroise_lands {s : State} {mb : Fin 8} {q : Request} (runs : s.Runs mb 0x1611 q) : Lands (exec (.tampZeroise mb) s) fun e =>
    if uAt q.payload 0 4 = 0x5A45524F then
      Only [.hatch, .bat, .fw] s e ∧ (e.keysGone ∧ e.bat.signals = s.bat.signals + b2n s.corePresent ∧ e.bat.logSeq = (s.bat.logSeq + 1) % 65536 ∧
        if s.bat.log.length < 8 then e.bat.log = s.bat.log ++ [s.tampEntry 0x20 true 0] ∧ e.bat.lost = s.bat.lost
        else e.bat.log = s.bat.log ∧ e.bat.lost = min 65535 (s.bat.lost + 1)) ∧ s.Replies e mb q stOk []
    else Only [.hatch] s e ∧ s.Replies e mb q stBadParam [0xD5, 0, 0xFF, 0xFF] := by
  have run : exec (.tampZeroise mb) s = (if uAt q.payload 0 4 ≠ 0x5A45524F then s.refuse mb stBadParam 0xD5
      else (s.tampEvent 0x20).replyOk mb []).done := congrArg State.done (withCmd_runs runs _ _)
  refine lands_ite (fun known => ?_) fun other => refuse_lands runs.taken (by decide) 0xD5 (run.trans (congrArg State.done (if_pos other)))
  rw [if_neg (not_not.2 known)] at run
  have event := tampEvent_event (s := s) (u := s) 0x20 ⟨rfl, rfl, rfl, rfl⟩ rfl rfl
  have keeps := tampEvent_only s 0x20
  generalize s.tampEvent 0x20 = u at *
  have ends : Keeps 16 u (u.replyOk mb []) := replyOk_hatch (by decide) (.refl _ u)
  have bat : (u.replyOk mb []).bat = u.bat := ends.bat (by decide)
  have fw : (u.replyOk mb []).fw = u.fw := ends.fw (by decide)
  refine ⟨_, run, only_of (replyOk_hatch (by decide) (keeps.weaken (by decide))), ?_,
    (reply_replies (s := u) (by rw [keeps.box (by decide)]; exact runs.taken) stOk []).from (by rw [keeps.hatch (by decide)])
      (by rw [keeps.twin (by decide)])⟩
  unfold State.keysGone at event ⊢
  rw [bat, fw]
  exact event

/-- Settles O51, row by row. -/
theorem batteryDomain : Obligations.BatteryDomain := by
  intro s
  refine ⟨?_, vbatLowDetect_lands s, tamperSample_lands s, fun mb q runs => tampZeroise_lands runs, fun other => if_neg other,
    tamperLogCopy_lands, fun v => ⟨_, rfl, only_of (updBat_keeps (by decide) (.refl _ s)), rfl⟩, ?_, ?_⟩
  · exact next_ite (fun on => ⟨_, if_pos on, only_of (tampEvent_only s 0x10), tampEvent_event 0x10 ⟨rfl, rfl, rfl, rfl⟩ rfl rfl⟩)
      fun off => ⟨s, if_neg off, rfl⟩
  · exact next_ite (fun on => ⟨_, if_neg (by rw [on]; decide), only_of (updBat_keeps (by decide) (zeroise_keeps (by decide) (.refl _ s))),
      ⟨rfl, rfl, rfl, rfl⟩, rfl⟩) fun off => ⟨s, if_pos (Bool.eq_false_iff.2 off), rfl⟩
  · exact next_ite (fun off => ⟨_, if_neg (by rw [off]; decide), only_of (updBat_keeps (by decide) (.refl _ s)), rfl⟩)
      fun on => ⟨s, if_pos (Bool.of_not_eq_false on), rfl⟩

end Sys2Proof.Machine
end

section
/-!
PROOFS. Chip resets (R626, R632, R634 to R637, R645, R650). Outside reset every cause starts the reset of one operation, which says what is kept; in reset
it joins the holds, and the first of the causes of one instant is recorded.
-/

namespace Sys2Proof.Machine

open Host

/-! ### The start of a chip reset -/

theorem unschedule_kept (f : Firm) : f.unschedule.lc = f.lc ∧ f.unschedule.locked = f.locked ∧ f.unschedule.signKey = f.signKey ∧
    f.unschedule.boot = f.boot := by
  unfold Firm.unschedule
  split <;> exact ⟨rfl, rfl, rfl, rfl⟩

theorem firmAtReset_kept (f : Firm) : f.atReset.lc = f.lc ∧ f.atReset.locked = f.locked ∧ f.atReset.signKey = f.signKey ∧
    f.atReset.boot = f.boot := by
  unfold Firm.atReset
  split
  · exact ⟨rfl, rfl, rfl, rfl⟩
  · exact unschedule_kept f

/-- What a chip reset that starts makes of a state, and what it keeps of it (R634 to R637). -/
structure ChipReset (cause : Nat) (s e : State) : Prop where
  /-- The chip is in reset, with the cause, its gates off and no opening. -/
  sys : e.sys = { s.sys.atReset cause 0xFF with resetAt := some s.mono }
  /-- The mailboxes are empty. -/
  box : ∀ n, e.box n = {}
  /-- The parameters are at their defaults, and their stored values stand. -/
  par : e.par = { store := s.par.store }
  /-- The parts that start afresh. -/
  fresh : e.mod = {} ∧ e.prot = {} ∧ e.lanes = {} ∧ e.links = {} ∧ e.time = {} ∧ e.twin = {}
  /-- The fault mirror and the attic. -/
  faults : e.faults = s.faults.atReset
  /-- The stored tables and the thermal records. -/
  stored : e.roll.stored = s.roll.stored ∧ e.le.stored = s.le.stored ∧ e.hk.recs = s.hk.recs
  /-- The battery domain. -/
  bat : e.bat = { s.bat with rtcPending := none, signals := 0 }
  /-- The firmware. -/
  fw : e.fw = { s.fw.atReset with challenge := e.fw.challenge }
  /-- The safety island. -/
  safe : e.safe = s.safe.atReset s.mono
  /-- The queue and the elapsed time. -/
  rest : e.pending = s.pending ∧ e.mono = s.mono

theorem chipReset_starts {s : State} (out : s.sys.stage ≠ .inReset) (cause : Nat) : ChipReset cause s (s.chipReset cause 0xFF) := by
  unfold State.chipReset
  rw [if_neg out]
  exact ⟨rfl, fun _ => rfl, rfl, ⟨rfl, rfl, rfl, rfl, rfl, rfl⟩, rfl, ⟨rfl, rfl, rfl⟩, rfl, rfl, rfl, rfl, rfl⟩

theorem ChipReset.stage {cause : Nat} {s e : State} (h : ChipReset cause s e) :
    e.sys.stage = .inReset ∧ e.sys.cause = cause ∧ e.sys.gated = true ∧ e.sys.opening = none ∧ e.sys.hold = s.sys.hold := by
  rw [h.sys]
  refine ⟨rfl, rfl, rfl, rfl, ?_⟩
  change (s.sys.counted cause (s.sys.hold.rails.contains 0)).hold = _
  unfold Sys.counted
  split <;> rfl

/-- The main PLL is off while anything holds the reset. -/
theorem ChipReset.pll {cause : Nat} {s e : State} (h : ChipReset cause s e) (held : s.sys.hold.free = false) : e.sys.pll = .off := by
  rw [h.sys]
  exact if_neg (by rw [held]; exact Bool.false_ne_true)

/-- The count of resets: one more while VDD_CORE has been present, and 0 once it is lost (R637). -/
theorem ChipReset.resets {cause : Nat} {s e : State} (h : ChipReset cause s e) :
    e.sys.resets = if s.sys.hold.rails.contains 0 = true then 0 else min 65535 (s.sys.resets + 1) := by
  rw [h.sys]
  change (s.sys.counted cause (s.sys.hold.rails.contains 0)).resets = _
  unfold Sys.counted
  split
  · rfl
  · exact satN_eq_min 16 _

theorem ChipReset.boot {cause : Nat} {s e : State} (h : ChipReset cause s e) (revert : s.fw.boot = .revert) : e.fw.boot = .revert := by
  rw [h.fw]
  exact (firmAtReset_kept s.fw).2.2.2.trans revert

/-- A cause's own part of the obligation: the state it hands to the reset, and what it has changed of the supplies. -/
theorem ChipReset.of_sys {cause : Nat} {s u e : State} (h : ChipReset cause u e) (mono : u.mono = s.mono) (pending : u.pending = s.pending)
    (par : u.par = s.par) (faults : u.faults = s.faults) (roll : u.roll = s.roll) (le : u.le = s.le) (hk : u.hk = s.hk) (bat : u.bat = s.bat)
    (fw : u.fw.lc = s.fw.lc ∧ u.fw.locked = s.fw.locked ∧ u.fw.signKey = s.fw.signKey) (safe : u.safe = s.safe) {R : Prop} (last : R) :
    e.sys.stage = .inReset ∧ e.sys.cause = cause ∧ e.sys.gated = true ∧ e.sys.opening = none ∧
      (∀ n, e.box n = {}) ∧ e.par.eff = {} ∧ e.par.shadow = {} ∧ e.par.store = s.par.store ∧ e.mod = {} ∧ e.prot = {} ∧ e.lanes = {} ∧
      e.links = {} ∧ e.time = {} ∧ e.twin = {} ∧ e.faults.open_ = [] ∧ e.faults.mirror = s.faults.mirror ∧
      e.faults.attic = s.faults.attic ∧ e.roll.stored = s.roll.stored ∧ e.le.stored = s.le.stored ∧ e.hk.recs = s.hk.recs ∧
      e.bat.rtcSec = s.bat.rtcSec ∧ e.bat.mramKey = s.bat.mramKey ∧ e.fw.lc = s.fw.lc ∧ e.fw.locked = s.fw.locked ∧
      e.fw.signKey = s.fw.signKey ∧ e.safe.st = s.safe.st ∧ e.safe.demand = s.safe.demand ∧ e.pending = s.pending ∧ e.mono = s.mono ∧
      R := by
  obtain ⟨stage, because, gated, opening, -⟩ := h.stage
  obtain ⟨mod_, prot, lanes, links, time, twin⟩ := h.fresh
  obtain ⟨rollStored, leStored, recs⟩ := h.stored
  obtain ⟨lc, locked, signKey, -⟩ := firmAtReset_kept u.fw
  obtain ⟨lc', locked', signKey'⟩ := fw
  have firm : e.fw.lc = u.fw.atReset.lc ∧ e.fw.locked = u.fw.atReset.locked ∧ e.fw.signKey = u.fw.atReset.signKey := by
    rw [h.fw]; exact ⟨rfl, rfl, rfl⟩
  refine ⟨stage, because, gated, opening, h.box, by rw [h.par], by rw [h.par], by rw [h.par, par], mod_, prot, lanes, links, time, twin,
    by rw [h.faults]; rfl, by rw [h.faults, faults]; rfl, by rw [h.faults, faults]; rfl, by rw [rollStored, roll], by rw [leStored, le],
    by rw [recs, hk], by rw [h.bat, bat], by rw [h.bat, bat], by rw [firm.1, lc, lc'], by rw [firm.2.1, locked, locked'],
    by rw [firm.2.2, signKey, signKey'], by rw [h.safe, safe]; rfl, by rw [h.safe, safe]; rfl, h.rest.1.trans pending, h.rest.2.trans mono, last⟩

/-! ### A cause in reset (R634, R650) -/

/-- A chip reset joins the one in progress: the first cause of one instant is recorded. -/
theorem chipReset_joins {s : State} (in_ : s.sys.stage = .inReset) (cause : Nat) : ∃ y, s.chipReset cause 0xFF = s.updSys (fun _ => y) ∧
    y.stage = .inReset ∧ y.hold = s.sys.hold ∧ y.pll = s.sys.pll ∧ y.refclk = s.sys.refclk ∧ y.resets = s.sys.resets ∧ y.jtag = s.sys.jtag ∧
    y.cause = if s.sys.resetAt = some s.mono ∧ cause < s.sys.cause then cause else s.sys.cause := by
  unfold State.chipReset
  rw [if_pos in_]
  by_cases first : s.sys.resetAt = some s.mono ∧ cause < s.sys.cause
  · rw [if_pos first, if_pos first]
    exact ⟨_, rfl, in_, rfl, rfl, rfl, rfl, rfl, rfl⟩
  · rw [if_neg first, if_neg first]
    exact ⟨_, rfl, in_, rfl, rfl, rfl, rfl, rfl, rfl⟩

theorem updSys_updSys (s : State) (f g : Sys → Sys) : (s.updSys f).updSys g = s.updSys fun y => g (f y) := rfl

theorem only_sys (s : State) (f : Sys → Sys) : Only [.sys] s (s.updSys f) := only_of (updSys_keeps (by decide) (.refl _ s))

/-- A cause that holds the reset, in reset. -/
theorem holdReset_joins {s : State} (in_ : s.sys.stage = .inReset) (f : Sys → Sys) (kept : (f s.sys).stage = s.sys.stage ∧
      (f s.sys).resetAt = s.sys.resetAt ∧ (f s.sys).cause = s.sys.cause) (cause : Nat) :
    let e := (s.updSys f).chipReset cause 0xFF
    Only [.sys] s e ∧ e.sys.stage = .inReset ∧ e.sys.hold = (f s.sys).hold ∧ e.sys.pll = (f s.sys).pll ∧ e.sys.refclk = (f s.sys).refclk ∧
      e.sys.resets = (f s.sys).resets ∧ e.sys.jtag = (f s.sys).jtag ∧
      e.sys.cause = if s.sys.resetAt = some s.mono ∧ cause < s.sys.cause then cause else s.sys.cause := by
  obtain ⟨stage, resetAt, because⟩ := kept
  obtain ⟨y, eq, st, hold, pll, refclk, resets, jtag, recorded⟩ := chipReset_joins (s := s.updSys f) (stage.trans in_) cause
  dsimp only
  rw [eq, updSys_updSys]
  refine ⟨only_sys s _, st, hold, pll, refclk, resets, jtag, recorded.trans ?_⟩
  rw [updSys_sys, resetAt, because]
  rfl

/-! ### A rail below its threshold, and the watchdog -/

/-- The rails a low one joins. -/
def lowRails (l : List Nat) (n : Nat) : List Nat := if l.contains n then l else l ++ [n]

theorem mem_lowRails (l : List Nat) (n : Nat) : n ∈ lowRails l n ∧ ∀ m ∈ l, m ∈ lowRails l n := by
  unfold lowRails
  split
  · rename_i listed
    exact ⟨List.contains_iff_mem.1 listed, fun _ mem => mem⟩
  · exact ⟨List.mem_append_right l (List.mem_singleton_self n), fun _ mem => List.mem_append_left _ mem⟩

theorem contains_lowRails_of_ne {l : List Nat} {n : Nat} (core : l.contains 0 = false) (other : n ≠ 0) : (lowRails l n).contains 0 = false := by
  unfold lowRails
  split
  · exact core
  · rw [Bool.eq_false_iff, ne_eq, List.contains_iff_mem, List.mem_append, List.mem_singleton, not_or]
    exact ⟨fun mem => absurd (List.contains_iff_mem.2 mem) (ne_true_of_eq_false core), Ne.symm other⟩

/-- The supplies as a low rail leaves them. -/
def Sys.railLow (n : Nat) (y : Sys) : Sys :=
  { y with
    hold := { y.hold with rails := lowRails y.hold.rails n }, pll := .off, resets := if n = 0 then 0 else y.resets
    wdtResets := if n = 0 then 0 else y.wdtResets, clkResets := if n = 0 then 0 else y.clkResets }

theorem supplyMonitorLow_run (s : State) (r : Fin 5) :
    exec (.supplyMonitorLow r) s = ((s.updSys (Sys.railLow r.val)).chipReset 1 0xFF).done := by
  change execSupplyMonitorLow r s = _
  unfold execSupplyMonitorLow Sys.railLow lowRails
  by_cases core : r.val = 0
  · simp only [core, if_true]; rfl
  · simp only [core, if_false]; rfl

theorem watchdogExpire_run {s : State} (out : s.sys.stage ≠ .inReset) (free : s.wdtHeld = false) : ∃ f : Firm, exec .watchdogExpire s =
      ((s.updFw fun _ => f).chipReset 5 0xFF).done ∧ (f.lc = s.fw.lc ∧ f.locked = s.fw.locked ∧ f.signKey = s.fw.signKey) ∧
      ∀ t, s.fw.boot = .confirm t → f.boot = .revert := by
  have run : exec .watchdogExpire s = ((match s.fw.boot with
      | .confirm _ => s.updFw fun f => { f with boot := .revert }
      | _ => s).chipReset 5 0xFF).done := if_neg (not_or.2 ⟨out, ne_true_of_eq_false free⟩)
  rw [run]
  split
  · exact ⟨_, rfl, ⟨rfl, rfl, rfl⟩, fun _ _ => rfl⟩
  · rename_i other
    exact ⟨s.fw, rfl, ⟨rfl, rfl, rfl⟩, fun t confirm => absurd confirm (other t)⟩

/-- Settles O55: outside reset by the cause, in reset by the hold it joins. -/
theorem chipResets : Obligations.ChipResets := by
  intro s
  refine ⟨fun c cause out which => ?_, fun in_ => ?_, fun idle => if_pos idle, fun other => if_neg other⟩
  · obtain ⟨rfl, rfl⟩ | ⟨rfl, rfl⟩ | ⟨r, rfl, rfl⟩ | ⟨rfl, free, rfl⟩ | ⟨rfl, test, rfl⟩ := which
    · have h := chipReset_starts (s := s.holdReset fun h => { h with pin := true }) out 2
      refine ⟨_, rfl, h.of_sys (s := s) rfl rfl rfl rfl rfl rfl rfl rfl ⟨rfl, rfl, rfl⟩ rfl ⟨fun _ core => ?_, (nomatch ·), fun _ => ⟨?_, h.pll rfl⟩,
        (nomatch ·), fun _ => (nomatch ·), fun _ => (nomatch ·)⟩⟩
      · exact h.resets.trans (if_neg (ne_true_of_eq_false core))
      · rw [h.stage.2.2.2.2]; rfl
    · have h := chipReset_starts (s := (s.holdReset fun h => { h with clock := true }).updSys fun y => { y with refclk := false }) out 6
      refine ⟨_, rfl, h.of_sys (s := s) rfl rfl rfl rfl rfl rfl rfl rfl ⟨rfl, rfl, rfl⟩ rfl ⟨fun _ core => ?_, (nomatch ·), (nomatch ·),
        fun _ => ⟨?_, h.pll ?_⟩, fun _ => (nomatch ·), fun _ => (nomatch ·)⟩⟩
      · exact h.resets.trans (if_neg (ne_true_of_eq_false core))
      · rw [h.stage.2.2.2.2]; rfl
      · exact Bool.and_false _
    · have h := chipReset_starts (s := s.updSys (Sys.railLow r.val)) out 1
      have resets := h.resets
      have low := mem_lowRails s.sys.hold.rails r.val
      have held : (s.updSys (Sys.railLow r.val)).sys.hold.rails = lowRails s.sys.hold.rails r.val := rfl
      rw [held] at resets
      refine ⟨_, supplyMonitorLow_run s r, h.of_sys (s := s) rfl rfl rfl rfl rfl rfl rfl rfl ⟨rfl, rfl, rfl⟩ rfl ⟨fun io core => ?_, fun same => ?_,
        (nomatch ·), (nomatch ·), fun n same => ?_, fun _ => (nomatch ·)⟩⟩
      · have other : r.val ≠ 0 := fun zero => io r rfl (Fin.ext zero)
        rw [resets, if_neg (ne_true_of_eq_false (contains_lowRails_of_ne core other))]
        exact congrArg (fun n => min 65535 (n + 1)) (if_neg other)
      · obtain rfl := Instr.supplyMonitorLow.inj same
        exact resets.trans (if_pos (List.contains_iff_mem.2 low.1))
      · obtain rfl := Instr.supplyMonitorLow.inj same
        refine ⟨by rw [h.stage.2.2.2.2]; exact low.1, h.pll ?_⟩
        rw [ResetHold.free, held, List.isEmpty_eq_false_iff.2 (List.ne_nil_of_mem low.1), Bool.and_false, Bool.false_and]
    · obtain ⟨f, run, firm, confirm⟩ := watchdogExpire_run out free
      have h := chipReset_starts (s := s.updFw fun _ => f) out 5
      exact ⟨_, run, h.of_sys (s := s) rfl rfl rfl rfl rfl rfl rfl rfl firm rfl ⟨fun _ core => h.resets.trans (if_neg (ne_true_of_eq_false core)),
        (nomatch ·), (nomatch ·), (nomatch ·), fun _ => (nomatch ·), fun t _ starts => h.boot (confirm t starts)⟩⟩
    · have h := chipReset_starts (s := s.updSys fun y => { y with jtag := .bypass }) out 2
      refine ⟨_, if_pos test, h.of_sys (s := s) rfl rfl rfl rfl rfl rfl rfl rfl ⟨rfl, rfl, rfl⟩ rfl ⟨fun _ core => ?_, (nomatch ·), (nomatch ·),
        (nomatch ·), fun _ => (nomatch ·), fun _ => (nomatch ·)⟩⟩
      exact h.resets.trans (if_neg (ne_true_of_eq_false core))
  · refine ⟨?_, ?_, fun r => ?_, fun test => ?_⟩
    · obtain ⟨only, stage, hold, pll, -, -, -, because⟩ := holdReset_joins in_ (fun y => { y with hold := { y.hold with pin := true }, pll := .off })
        ⟨rfl, rfl, rfl⟩ 2
      exact ⟨_, rfl, only, stage, hold, pll, because⟩
    · obtain ⟨only, stage, hold, pll, refclk, -, -, because⟩ := holdReset_joins in_
        (fun y => { y with hold := { y.hold with clock := true }, pll := .off, refclk := false }) ⟨rfl, rfl, rfl⟩ 6
      exact ⟨_, rfl, only, stage, hold, pll, refclk, because⟩
    · obtain ⟨only, stage, hold, pll, -, resets, -, because⟩ := holdReset_joins in_ (Sys.railLow r.val) ⟨rfl, rfl, rfl⟩ 1
      have low := mem_lowRails s.sys.hold.rails r.val
      refine ⟨_, supplyMonitorLow_run s r, only, stage, ?_, ?_, pll, because, fun core => ?_⟩
      · rw [hold]; exact low.1
      · rw [hold]; exact low.2
      · rw [resets, core]; rfl
    · obtain ⟨only, stage, -, -, -, -, jtag, -⟩ := holdReset_joins in_ (fun y => { y with jtag := .bypass }) ⟨rfl, rfl, rfl⟩ 2
      exact ⟨_, if_pos test, only, stage, jtag⟩

end Sys2Proof.Machine
end

section
/-!
PROOFS. Accesses to the pantry (R48, R51, R415, R424, R426, R429, R433 to R435, R440). A host access is one word, or two through the alias; what a word gives
and takes is said once, and the four bytes of the access are put together from the words' bytes.
-/

namespace Sys2Proof.Machine

open Host

/-! ### The words of an access (R433) -/

/-- The word a host access begins at. -/
def hostFirst (off : Nat) : Nat := off % 0x200000 / 4 * 4

theorem hostWords_cases (s : State) (off : Nat) : s.hostWords off = ([hostFirst off], 0) ∨
    ∃ r, 0 < r ∧ s.hostWords off = ([hostFirst off, (hostFirst off + 4) % 0x200000], r) := by
  unfold State.hostWords
  dsimp only
  generalize (if 0x200000 ≤ off then s.pu 0x0F02 noInst 0 1 else 0) = r
  by_cases direct : r = 0
  · exact .inl (by rw [if_pos direct, direct]; rfl)
  · exact .inr ⟨r, Nat.pos_of_ne_zero direct, by rw [if_neg direct]; rfl⟩

/-- The words of an access that is not denied. -/
theorem hostWords_allowed {s : State} {off : Nat} (allowed : s.hostDenied off = false) : hostFirst off < 0x1C0000 ∧
    (s.hostWords off = ([hostFirst off], 0) ∨ ∃ r, 0 < r ∧ s.hostWords off = ([hostFirst off, hostFirst off + 4], r)) := by
  unfold State.hostDenied at allowed
  have aligned : hostFirst off % 4 = 0 := Nat.mul_mod_left ..
  obtain one | ⟨r, pos, two⟩ := hostWords_cases s off
  · rw [one] at allowed
    simp only [List.any_cons, List.any_nil, Bool.or_false, decide_eq_false_iff_not, not_le] at allowed
    exact ⟨allowed, .inl one⟩
  · rw [two] at allowed
    simp only [List.any_cons, List.any_nil, Bool.or_false, Bool.or_eq_false_iff, decide_eq_false_iff_not, not_le] at allowed
    refine ⟨allowed.1, .inr ⟨r, pos, ?_⟩⟩
    rw [two, Nat.mod_eq_of_lt (by omega)]

/-! ### A word read -/

/-- What a read of a word leaves: the access time of its bank, or a count where the bank is Off. -/
def State.wordTouch (s : State) (a : Nat) : State :=
  if s.bankOff (a / 0x20000) then s.bump 0x0F03 noInst 4 else s.bankTouch (a / 0x20000)

theorem bankTouch_mem (s : State) (b : Nat) : (s.bankTouch b).pantry.mem = s.pantry.mem ∧ (s.bankTouch b).pantry.clearing = s.pantry.clearing := by
  unfold State.bankTouch
  split <;> exact ⟨rfl, rfl⟩

theorem wordTouch_mem (s : State) (a : Nat) : (s.wordTouch a).pantry.mem = s.pantry.mem ∧ (s.wordTouch a).pantry.clearing = s.pantry.clearing := by
  unfold State.wordTouch
  split
  · exact ⟨rfl, rfl⟩
  · exact bankTouch_mem ..

theorem wordTouch_eff (s : State) (a : Nat) : (s.wordTouch a).par.eff = s.par.eff := by
  unfold State.wordTouch
  split
  · exact bump_eff ..
  · rw [(bankTouch_keeps (M := 8192) (by decide) (.refl _ s)).par (by decide)]

theorem wordTouch_hatch (s : State) (a : Nat) : (s.wordTouch a).hatch = s.hatch := by
  unfold State.wordTouch
  split
  · rfl
  · exact (bankTouch_keeps (M := 8192) (by decide) (.refl _ s)).hatch (by decide)

theorem wordTouch_keeps {s t : State} (h : Keeps 8272 s t) (a : Nat) : Keeps 8272 s (t.wordTouch a) :=
  keeps_ite (fun _ => bump_keeps (by decide) h) fun _ => bankTouch_keeps (by decide) h

theorem wordTouch_keeps_on {s t : State} {a : Nat} (on : t.bankOff (a / 0x20000) = false) (h : Keeps 8208 s t) : Keeps 8208 s (t.wordTouch a) := by
  unfold State.wordTouch
  rw [if_neg (ne_true_of_eq_false on)]
  exact bankTouch_keeps (by decide) h

/-- Whether a bank is Off turns on its power and its clearing alone. -/
theorem bankOff_of_clearing {s t : State} (eff : t.par.eff = s.par.eff) (clearing : t.pantry.clearing = s.pantry.clearing) (b : Nat) :
    t.bankOff b = s.bankOff b := by
  simp only [State.bankOff, State.bankPower, State.p0, State.peff, eff, clearing]

/-- Without a write in the same cycle nothing is written. -/
theorem wordWrites_none (s : State) (off : Nat) : s.wordWrites off none none none = s := by
  unfold State.wordWrites
  have none_ : s.gwJudge off none = (s, none) := rfl
  simp only [none_]
  exact ite_self _

theorem wordRead_quiet (s : State) (a : Nat) :
    s.wordRead a none none = (s.wordTouch a, if s.bankOff (a / 0x20000) then 0 else s.wordValue a) := by
  unfold State.wordRead
  exact Prod.ext (wordWrites_none _ a) rfl

/-- What a word of a bank that is on holds. -/
theorem wordValue_on {s : State} {a : Nat} (aligned : a % 4 = 0) (on : s.bankOff (a / 0x20000) = false) :
    s.wordValue a = leNat (s.pantry.mem.readN a 4) := by
  unfold State.wordValue State.mpRead Memory.readN
  refine congrArg leNat (List.map_congr_left fun i small => ?_)
  have less := List.mem_range.1 small
  rw [show (a + i) / 0x20000 = a / 0x20000 by omega, if_neg (ne_true_of_eq_false on)]

theorem leNat_readN_four (m : Memory) (a : Nat) : leNat (m.readN a 4) =
    (m.read a).toNat + 256 * ((m.read (a + 1)).toNat + 256 * ((m.read (a + 2)).toNat + 256 * (m.read (a + 3)).toNat)) := by
  simp [Memory.readN, List.range_succ, leNat]

/-- The four bytes of a rotated access, put together from its two words. -/
theorem rotated_read (m : Memory) (a : Nat) {r : Nat} (pos : 0 < r) (small : r ≤ 3) :
    (leNat (m.readN (a + 4) 4) * 2 ^ 32 + leNat (m.readN a 4)) / 2 ^ (8 * r) % 2 ^ 32 = leNat (m.readN (a + r) 4) := by
  have byte : ∀ k, (m.read k).toNat < 256 := fun k => (m.read k).isLt
  have b0 := byte a; have b1 := byte (a + 1); have b2 := byte (a + 2); have b3 := byte (a + 3)
  have b4 := byte (a + 4); have b5 := byte (a + 5); have b6 := byte (a + 6); have b7 := byte (a + 7)
  simp only [leNat_readN_four, Nat.add_assoc]
  obtain rfl | rfl | rfl : r = 1 ∨ r = 2 ∨ r = 3 := by omega
  all_goals simp only [Nat.reduceMul, Nat.reducePow, Nat.reduceAdd, ← Nat.add_assoc]; omega

theorem hostReads_spec (s : State) (v : Nat) : (s.hostReads v).hatch.host.lastRead = v ∧ (s.hostReads v).pantry = s.pantry ∧
    (s.hostReads v).hatch.boxes = s.hatch.boxes ∧ (s.hostReads v).hatch.hostErr = s.hatch.hostErr := ⟨rfl, rfl, rfl, rfl⟩

/-- What a word of a bank gives. -/
def State.wordGives (s : State) (a : Nat) : Nat := if s.bankOff (a / 0x20000) then 0 else s.wordValue a

theorem wordTouch_gives (s : State) (a b : Nat) : (s.wordTouch a).wordGives b = s.wordGives b ∧
    (s.wordTouch a).bankOff (b / 0x20000) = s.bankOff (b / 0x20000) := by
  obtain ⟨mem, clearing⟩ := wordTouch_mem s a
  have off : ∀ k, (s.wordTouch a).bankOff k = s.bankOff k := bankOff_of_clearing (wordTouch_eff s a) clearing
  refine ⟨?_, off _⟩
  simp only [State.wordGives, State.wordValue, State.mpRead, off, mem]

/-- A host read of one word, with no other port in the cycle. -/
theorem hostPantryRead_one {s : State} {off a : Nat} (allowed : s.hostDenied off = false) (words : s.hostWords off = ([a], 0)) :
    s.hostPantryRead off .idle none = (s.wordTouch a).hostReads (s.wordGives a % 2 ^ 32) := by
  unfold State.hostPantryRead
  rw [if_neg (ne_true_of_eq_false allowed), words]
  simp only [List.headD_cons, List.drop_succ_cons, List.drop_zero, mgmtWrite, wordRead_quiet, Nat.zero_mul, Nat.zero_add, Nat.mul_zero, Nat.pow_zero,
    Nat.div_one]
  rfl

/-- A host read through the alias, with no other port in the cycle. -/
theorem hostPantryRead_two {s : State} {off a b r : Nat} (allowed : s.hostDenied off = false) (words : s.hostWords off = ([a, b], r)) :
    s.hostPantryRead off .idle none =
      ((s.wordTouch a).wordTouch b).hostReads ((s.wordGives b * 2 ^ 32 + s.wordGives a) / 2 ^ (8 * r) % 2 ^ 32) := by
  have second : (if (s.wordTouch a).bankOff (b / 0x20000) then 0 else (s.wordTouch a).wordValue b) = s.wordGives b := (wordTouch_gives s a b).1
  unfold State.hostPantryRead
  rw [if_neg (ne_true_of_eq_false allowed), words]
  simp only [List.headD_cons, List.drop_succ_cons, List.drop_zero, mgmtWrite, wordRead_quiet, second]
  rfl

/-- The value of an access to banks that are on, and of one to banks that are Off. -/
theorem hostPantryRead_quiet {s : State} {off : Nat} (allowed : s.hostDenied off = false) (small : (s.hostWords off).2 ≤ 3) :
    let e := s.hostPantryRead off .idle none
    ((∀ w ∈ (s.hostWords off).1, s.bankOff (w / 0x20000) = false) → Keeps 8208 s e ∧ e.pantry.mem = s.pantry.mem ∧
      e.hatch.boxes = s.hatch.boxes ∧ e.hatch.host.lastRead = leNat (s.pantry.mem.readN (hostFirst off + (s.hostWords off).2) 4)) ∧
    ((∀ w ∈ (s.hostWords off).1, s.bankOff (w / 0x20000) = true) → Keeps 8272 s e ∧ e.pantry.mem = s.pantry.mem ∧ e.hatch.host.lastRead = 0) := by
  have aligned : hostFirst off % 4 = 0 := Nat.mul_mod_left ..
  have value : ∀ {a : Nat}, a % 4 = 0 → s.bankOff (a / 0x20000) = false → s.wordGives a = leNat (s.pantry.mem.readN a 4) := fun h on =>
    (if_neg (ne_true_of_eq_false on)).trans (wordValue_on h on)
  have nothing : ∀ {a : Nat}, s.bankOff (a / 0x20000) = true → s.wordGives a = 0 := fun h => if_pos h
  have word : ∀ a, leNat (s.pantry.mem.readN a 4) < 2 ^ 32 := fun a => by
    have byte : ∀ k, (s.pantry.mem.read k).toNat < 256 := fun k => (s.pantry.mem.read k).isLt
    have b0 := byte a; have b1 := byte (a + 1); have b2 := byte (a + 2); have b3 := byte (a + 3)
    rw [leNat_readN_four]
    omega
  obtain ⟨-, one | ⟨r, pos, two⟩⟩ := hostWords_allowed allowed
  · rw [hostPantryRead_one allowed one, one]
    have mem := (wordTouch_mem s (hostFirst off)).1
    have hatch := wordTouch_hatch s (hostFirst off)
    refine ⟨fun on => ?_, fun dead => ?_⟩
    · have lit := on _ (List.mem_singleton_self _)
      refine ⟨hostReads_keeps (by decide) (wordTouch_keeps_on lit (.refl _ s)), by rw [(hostReads_spec ..).2.1, mem],
        (hostReads_spec ..).2.2.1.trans (congrArg Hatch.boxes hatch), ?_⟩
      rw [(hostReads_spec ..).1, value aligned lit, Nat.mod_eq_of_lt (word _)]
      rfl
    · refine ⟨hostReads_keeps (by decide) (wordTouch_keeps (.refl _ s) _), by rw [(hostReads_spec ..).2.1, mem], ?_⟩
      rw [(hostReads_spec ..).1, nothing (dead _ (List.mem_singleton_self _)), Nat.zero_mod]
  · rw [two] at small ⊢
    dsimp only at small ⊢
    rw [hostPantryRead_two allowed two]
    have mem := ((wordTouch_mem (s.wordTouch (hostFirst off)) (hostFirst off + 4)).1).trans (wordTouch_mem s (hostFirst off)).1
    have hatch := (wordTouch_hatch (s.wordTouch (hostFirst off)) (hostFirst off + 4)).trans (wordTouch_hatch s (hostFirst off))
    refine ⟨fun on => ?_, fun dead => ?_⟩
    · have first := on _ List.mem_cons_self
      have second := on _ (List.mem_cons_of_mem _ (List.mem_singleton_self _))
      refine ⟨hostReads_keeps (by decide) (wordTouch_keeps_on ((wordTouch_gives ..).2.trans second) (wordTouch_keeps_on first (.refl _ s))),
        by rw [(hostReads_spec ..).2.1, mem],
        (hostReads_spec ..).2.2.1.trans (congrArg Hatch.boxes hatch), ?_⟩
      rw [(hostReads_spec ..).1, value aligned first, value (by omega) second, rotated_read s.pantry.mem (hostFirst off) pos small]
    · refine ⟨hostReads_keeps (by decide) (wordTouch_keeps (wordTouch_keeps (.refl _ s) _) _), by rw [(hostReads_spec ..).2.1, mem], ?_⟩
      rw [(hostReads_spec ..).1, nothing (dead _ List.mem_cons_self), nothing (dead _ (List.mem_cons_of_mem _ (List.mem_singleton_self _))),
        Nat.zero_mul, Nat.zero_add, Nat.zero_div, Nat.zero_mod]

/-! ### The strongbox (R435) -/

theorem hostErrSet_spec (s : State) (mask : Nat) : (s.hostErrSet mask).hatch.hostErr = s.hatch.hostErr ||| mask ∧
    (s.hostErrSet mask).pantry = s.pantry := by
  unfold State.hostErrSet
  obtain ⟨m, k, e⟩ := irqSince_eq s (s.updHatch fun h => { h with hostErr := h.hostErr ||| mask })
  rw [e]
  exact ⟨rfl, rfl⟩

theorem sbDenied_spec (s : State) : s.sbDenied.hatch.hostErr.testBit 2 = true ∧ s.sbDenied.pantry = s.pantry := by
  obtain ⟨err, pantry⟩ := hostErrSet_spec s 4
  have same : s.sbDenied.hatch = (s.hostErrSet 4).hatch ∧ s.sbDenied.pantry = (s.hostErrSet 4).pantry := ⟨rfl, rfl⟩
  rw [same.1, same.2, err, pantry, Nat.testBit_or]
  exact ⟨Bool.or_true _, rfl⟩

/-! ### A word written (R424, R429) -/

/-- What a list of byte writes leaves at an address: the one value it writes there, or what was there. -/
theorem read_foldl_write {x : Nat} {v : Byte} (l : List (Nat × Byte)) {m : Memory} (wf : m.wf = true) (one : ∀ c ∈ l, c.1 = x → c.2 = v)
    (given : (∃ c ∈ l, c.1 = x) ∨ m.read x = v) : (l.foldl (fun m c => m.write c.1 c.2) m).read x = v := by
  induction l generalizing m with
  | nil => exact given.resolve_left fun ⟨_, mem, _⟩ => List.not_mem_nil mem
  | cons a r ih =>
    rw [List.foldl_cons]
    refine ih (Memory.write_wf m a.1 a.2 wf) (fun c mem => one c (List.mem_cons_of_mem a mem)) ?_
    by_cases own : a.1 = x
    · exact .inr (by rw [own, Memory.read_write_same m x a.2 wf]; exact one a List.mem_cons_self own)
    · rw [Memory.read_write_other m a.1 x a.2 (Ne.symm own) wf]
      refine given.imp_left fun ⟨c, mem, at_⟩ => ⟨c, (List.mem_cons.1 mem).resolve_left fun same => own ?_, at_⟩
      rw [← same]; exact at_

/-- The byte a word write gives an address, if it enables one there. -/
def portByte (w : PortWrite) (a x : Nat) : Option Byte :=
  if a ≤ x ∧ x < a + 4 ∧ bit w.be.toNat (x - a) = true then some (BitVec.ofNat 8 (w.data.toNat / 2 ^ (8 * (x - a)))) else none

theorem mem_enabledBytes {a : Nat} {w : PortWrite} {c : Nat × Byte} : c ∈ enabledBytes a w ↔ portByte w a c.1 = some c.2 := by
  unfold enabledBytes portByte
  constructor
  · intro mem
    obtain ⟨k, listed, rfl⟩ := List.mem_map.1 mem
    obtain ⟨small, on⟩ := List.mem_filter.1 listed
    have less := List.mem_range.1 small
    rw [if_pos ⟨by omega, by omega, by rw [Nat.add_sub_cancel_left]; exact on⟩, Nat.add_sub_cancel_left]
  · intro given
    split at given
    · rename_i on
      obtain ⟨low, high, enabled⟩ := on
      refine List.mem_map.2 ⟨c.1 - a, List.mem_filter.2 ⟨List.mem_range.2 (by omega), enabled⟩, ?_⟩
      exact Prod.ext (by dsimp only; omega) (Option.some.inj given)
    · cases given

theorem read_enabledBytes {m : Memory} (wf : m.wf = true) (a : Nat) (w : PortWrite) (x : Nat) :
    ((enabledBytes a w).foldl (fun m c => m.write c.1 c.2) m).read x = (portByte w a x).getD (m.read x) := by
  cases given : portByte w a x with
  | none => exact read_foldl_write _ wf (fun c mem at_ => by rw [mem_enabledBytes, at_, given] at mem; cases mem) (.inr rfl)
  | some v =>
    refine read_foldl_write _ wf (fun c mem at_ => ?_) (.inl ⟨(x, v), mem_enabledBytes.2 given, rfl⟩)
    rw [mem_enabledBytes, at_, given] at mem
    exact (Option.some.inj mem).symm

/-- A word write into a bank that is on. -/
theorem land_on {s : State} {a : Nat} (on : s.bankOff (a / 0x20000) = false) (w : PortWrite) : Keeps 8192 s (s.land a w) ∧
    (s.land a w).pantry.mem = (enabledBytes a w).foldl (fun m c => m.write c.1 c.2) s.pantry.mem ∧
    (s.land a w).pantry.clearing = s.pantry.clearing := by
  have run : s.land a w = (s.bankTouch (a / 0x20000)).updPantry fun p =>
      { p with mem := (enabledBytes a w).foldl (fun m c => m.write c.1 c.2) p.mem } := if_neg (ne_true_of_eq_false on)
  obtain ⟨mem, clearing⟩ := bankTouch_mem s (a / 0x20000)
  rw [run]
  have touched : Keeps 8192 s (s.bankTouch (a / 0x20000)) := bankTouch_keeps (by decide) (.refl _ s)
  generalize s.bankTouch (a / 0x20000) = u at *
  exact ⟨updPantry_keeps (by decide) touched fun inv => Memory.foldl_write_wf _ _ (State.Inv.mem inv),
    by rw [updPantry_pantry, mem], by rw [updPantry_pantry]; exact clearing⟩

theorem land_off {s : State} {a : Nat} (off : s.bankOff (a / 0x20000) = true) (w : PortWrite) : (s.land a w).pantry = s.pantry ∧
    (s.land a w).par.eff = s.par.eff := by
  have run : s.land a w = s.bump 0x0F03 noInst 4 := if_pos off
  rw [run]
  exact ⟨rfl, bump_eff ..⟩

/-- A host write outside the group window, with no other port in the cycle. -/
theorem wordWrites_outside {s : State} {a : Nat} (out : s.inGw a = false) (w : PortWrite) : s.wordWrites a none none (some w) = s.land a w := by
  unfold State.wordWrites
  have first : s.gwJudge a none = (s, none) := rfl
  have second : s.gwJudge a (some w) = (s, some w) := by
    unfold State.gwJudge
    rw [out]; rfl
  simp only [first, second]
  rw [if_neg (ne_true_of_eq_false out)]

theorem gwJudge_of_own {s : State} {a : Nat} (own : s.gwOwn a = true) (w : Option PortWrite) : s.gwJudge a w = (s, w) := by
  unfold State.gwJudge
  rw [own, Bool.not_true, Bool.and_false]
  exact if_neg Bool.false_ne_true

theorem wordWrites_own {s : State} {a : Nat} (inside : s.inGw a = true) (own : s.gwOwn a = true) (w : PortWrite) :
    s.wordWrites a none none (some w) = (s.land a w).gwSend a w := by
  unfold State.wordWrites
  simp only [gwJudge_of_own own]
  rw [if_pos inside, State.landLocal, if_pos inside]

theorem bump_inGw (s : State) (id inst field a : Nat) : (s.bump id inst field).inGw a = s.inGw a := by
  have eff := bump_eff s id inst field
  simp only [State.inGw, State.gwBank, State.ringEn, State.pu, State.p0, State.peff, eff]
  rfl

theorem wordWrites_foreign {s : State} {a : Nat} (inside : s.inGw a = true) (own : s.gwOwn a = false) (w : PortWrite) :
    s.wordWrites a none none (some w) = s.bump 0x0E05 noInst 5 := by
  unfold State.wordWrites
  have first : s.gwJudge a none = (s, none) := rfl
  have second : s.gwJudge a (some w) = (s.bump 0x0E05 noInst 5, none) := by
    unfold State.gwJudge
    rw [inside, own]; rfl
  simp only [first, second]
  exact if_pos ((bump_inGw ..).trans inside)

/-! ### The group window (R415) -/

/-- A write that goes to the ring, of a unit whose queues have room. -/
theorem gwSend_spec {s : State} {a : Nat} (on : s.ringEn = true) (room : s.gwWaiting 128 < 512 ∧ s.gwWaiting 129 < 512) (w : PortWrite) :
    (s.gwSend a w).pantry = s.pantry ∧ (s.gwSend a w).ring.wseq = (s.ring.wseq + 1) % 8192 ∧
    (s.gwSend a w).ring.applied.get? (gwSlice a) = some s.ring.wseq ∧
    ((s.lane 128).st = .linked → ((s.gwSend a w).lnk 128).queue.length = (s.lnk 128).queue.length + 1) := by
  unfold State.gwSend
  dsimp only
  rw [if_neg (by omega)]
  generalize hu : (s.updRing _) = u
  have before : u.pantry = s.pantry ∧ u.ring.wseq = (s.ring.wseq + 1) % 8192 ∧ u.ring.applied.get? (gwSlice a) = some s.ring.wseq ∧
      u.ringEn = true ∧ u.lane 128 = s.lane 128 ∧ u.lnk 128 = s.lnk 128 := by
    rw [← hu]; exact ⟨rfl, rfl, Tab.get?_set .., on, rfl, rfl⟩
  obtain ⟨pantry, wseq, applied, ringOn, lane, lnk⟩ := before
  generalize pf 61 (gwSlice a) + pf 49 (a % 0x4000 / 4) + pf 45 w.be.toNat + pf 32 s.ring.wseq + w.data.toNat = body
  have sends := ringSend_keeps (M := 65536) (a1 := 0x43) (a2 := allNodes) (a3 := body) (by decide) (.refl _ u)
  refine ⟨by rw [sends.pantry (by decide), pantry], by rw [sends.ring (by decide), wseq], by rw [sends.ring (by decide), applied], fun linked => ?_⟩
  have second : ∀ (v : State) p, (v.ringQueue 129 0x43 p).lnk 128 = v.lnk 128 := fun v p => by
    unfold State.ringQueue
    split
    · exact queueBlock_oneLink v (l := 129) (by decide) _ _ 128 (by decide)
    · rfl
  unfold State.ringSend
  rw [if_pos ringOn, second, State.ringQueue, if_pos (by rw [lane]; exact linked), queueBlock_lnk_own u (by decide), lnk]
  exact List.length_append

/-! ### The bytes of a host write (R48, R433) -/

/-- What a host write gives the words of its access: the first and, through the alias, the second. -/
def hostPart (v be r k : Nat) : PortWrite := { data := BitVec.ofNat 32 (v * 2 ^ (8 * r) / 2 ^ (32 * k)), be := BitVec.ofNat 4 (be * 2 ^ r / 16 ^ k) }

/-- The byte a host write gives an address, from the first of its four. -/
def hostByte (v be lo x : Nat) : Option Byte :=
  if lo ≤ x ∧ x < lo + 4 ∧ be.testBit (x - lo) = true then some (BitVec.ofNat 8 (v / 2 ^ (8 * (x - lo)))) else none

theorem portByte_first (v be a x : Nat) {r : Nat} (small : r ≤ 3) :
    portByte (hostPart v be r 0) a x = if x < a + 4 then hostByte v be (a + r) x else none := by
  have enabled : ∀ k < 4, bit (hostPart v be r 0).be.toNat k = (decide (r ≤ k) && be.testBit (k - r)) := fun k less => by
    rw [bit_eq_testBit, hostPart, BitVec.toNat_ofNat, Nat.pow_zero, Nat.div_one, Nat.testBit_mod_two_pow, Nat.testBit_mul_two_pow,
      decide_eq_true less, Bool.true_and]
  have value : ∀ k, r ≤ k → k < 4 → BitVec.ofNat 8 ((hostPart v be r 0).data.toNat / 2 ^ (8 * k)) = BitVec.ofNat 8 (v / 2 ^ (8 * (k - r))) :=
    fun k low less => by
      refine BitVec.eq_of_toNat_eq ?_
      rw [BitVec.toNat_ofNat, BitVec.toNat_ofNat, hostPart, BitVec.toNat_ofNat, Nat.mul_zero, Nat.pow_zero, Nat.div_one]
      interval_cases k <;> interval_cases r <;> omega
  unfold portByte hostByte
  by_cases inside : x < a + 4
  · rw [if_pos inside]
    by_cases low : a + r ≤ x
    · rw [enabled (x - a) (by omega), decide_eq_true (by omega : r ≤ x - a), Bool.true_and, value (x - a) (by omega) (by omega),
        show x - (a + r) = x - a - r by omega]
      exact if_congr ⟨fun h => ⟨low, by omega, h.2.2⟩, fun h => ⟨by omega, inside, h.2.2⟩⟩ rfl rfl
    · refine (if_neg fun h => ?_).trans (if_neg fun h => low h.1).symm
      rw [enabled (x - a) (by omega), decide_eq_false (by omega), Bool.false_and] at h
      exact Bool.false_ne_true h.2.2
  · rw [if_neg inside, if_neg fun h => inside h.2.1]

theorem portByte_second (v a x : Nat) {be r : Nat} (four : be < 16) (small : r ≤ 3) :
    portByte (hostPart v be r 1) (a + 4) x = if a + 4 ≤ x then hostByte v be (a + r) x else none := by
  have enabled : ∀ k < 4, bit (hostPart v be r 1).be.toNat k = be.testBit (k + 4 - r) := fun k less => by
    have bits4 : (hostPart v be r 1).be.toNat = be * 2 ^ r / 2 ^ 4 % 2 ^ 4 := BitVec.toNat_ofNat ..
    rw [bit_eq_testBit, bits4, Nat.testBit_mod_two_pow, decide_eq_true less, Bool.true_and, Nat.testBit_div_two_pow, Nat.testBit_mul_two_pow,
      decide_eq_true (by omega), Bool.true_and]
  have value : ∀ k < r, BitVec.ofNat 8 ((hostPart v be r 1).data.toNat / 2 ^ (8 * k)) = BitVec.ofNat 8 (v / 2 ^ (8 * (k + 4 - r))) :=
    fun k less => by
      refine BitVec.eq_of_toNat_eq ?_
      rw [BitVec.toNat_ofNat, BitVec.toNat_ofNat, hostPart, BitVec.toNat_ofNat, Nat.mul_one]
      interval_cases r <;> interval_cases k <;> omega
  have beyond : ∀ k, 4 ≤ k → be.testBit k = false := fun k high =>
    Nat.testBit_lt_two_pow (four.trans_le (Nat.pow_le_pow_right (by decide : 0 < 2) high))
  unfold portByte hostByte
  by_cases inside : a + 4 ≤ x
  · rw [if_pos inside]
    by_cases high : x < a + r + 4
    · rw [enabled (x - (a + 4)) (by omega), value (x - (a + 4)) (by omega), show x - (a + 4) + 4 - r = x - (a + r) by omega]
      exact if_congr ⟨fun h => ⟨by omega, by omega, h.2.2⟩, fun h => ⟨inside, by omega, h.2.2⟩⟩ rfl rfl
    · refine (if_neg fun h => ?_).trans (if_neg fun h => high h.2.1).symm
      rw [enabled (x - (a + 4)) (by omega), beyond _ (by omega)] at h
      exact Bool.false_ne_true h.2.2
  · rw [if_neg inside, if_neg fun h => inside h.1]

/-- Both words of a rotated write together. -/
theorem portByte_both (v a x : Nat) {be r : Nat} (four : be < 16) (small : r ≤ 3) (m : Byte) :
    (portByte (hostPart v be r 1) (a + 4) x).getD ((portByte (hostPart v be r 0) a x).getD m) = (hostByte v be (a + r) x).getD m := by
  rw [portByte_first v be a x small, portByte_second v a x four small]
  by_cases inside : x < a + 4
  · rw [if_pos inside, if_neg (Nat.not_le.2 inside)]; rfl
  · rw [if_neg inside, if_pos (Nat.not_lt.1 inside)]; rfl

theorem portByte_direct (v be a x : Nat) : portByte (hostPart v be 0 0) a x = hostByte v be a x := by
  rw [portByte_first v be a x (Nat.zero_le 3)]
  by_cases inside : x < a + 4
  · exact if_pos inside
  · rw [if_neg inside]
    exact (if_neg fun h => inside h.2.1).symm

/-- A word without an enabled byte gives none. -/
theorem portByte_of_none {w : PortWrite} (none_ : w.be = 0) (a x : Nat) : portByte w a x = none :=
  if_neg fun h => by
    have := h.2.2
    rw [none_, bit_eq_testBit] at this
    simp at this

/-! ### A host write -/

/-- The state and the value of a host write: where R440 leaves the result undefined, a free value (log 35). -/
def State.writeStart (s : State) (open_ : Bool) : State := if open_ then s.tookFree else s

def State.writeValue (s : State) (open_ : Bool) (v : Nat) : Nat := if open_ then s.freeVal % 2 ^ 32 else v

theorem writeStart_spec (s : State) (open_ : Bool) : Keeps 4 s (s.writeStart open_) :=
  keeps_ite (fun _ => tookFree_keeps (by decide) (.refl _ s)) fun _ => .refl _ s

theorem hostPantryWrite_one {s : State} {off a : Nat} (allowed : s.hostDenied off = false) (words : s.hostWords off = ([a], 0)) (v be : Nat) :
    s.hostPantryWrite off v be .idle none = (s.writeStart ([a].any s.openWord)).wordWrites a none none
      (some (hostPart (s.writeValue ([a].any s.openWord) v) be 0 0)) := by
  unfold State.hostPantryWrite
  rw [if_neg (ne_true_of_eq_false allowed), words]
  rfl

theorem hostPantryWrite_two {s : State} {off a b r : Nat} (allowed : s.hostDenied off = false) (words : s.hostWords off = ([a, b], r)) (v be : Nat) :
    s.hostPantryWrite off v be .idle none =
      let value := s.writeValue ([a, b].any s.openWord) v
      let first := (s.writeStart ([a, b].any s.openWord)).wordWrites a none none (some (hostPart value be r 0))
      if (hostPart value be r 1).be = 0 then first else first.wordWrites b none none (some (hostPart value be r 1)) := by
  unfold State.hostPantryWrite
  rw [if_neg (ne_true_of_eq_false allowed), words]
  rfl

theorem inGw_congr {s t : State} (eff : t.par.eff = s.par.eff) (a : Nat) : t.inGw a = s.inGw a := by
  simp only [State.inGw, State.gwBank, State.ringEn, State.pu, State.p0, State.peff, eff]
  rfl

/-- A word of the access, outside the group window and in a bank that is on. -/
theorem wordWrite_on {s u : State} {M : Nat} (keeps : Keeps M s u) (pantry : Sub 8192 M) (eff : u.par.eff = s.par.eff)
    (clearing : u.pantry.clearing = s.pantry.clearing) (wf : u.pantry.mem.wf = true) {a : Nat} (out : s.inGw a = false)
    (on : s.bankOff (a / 0x20000) = false) (w : PortWrite) :
    let e := u.wordWrites a none none (some w)
    Keeps M s e ∧ e.par.eff = s.par.eff ∧ e.pantry.clearing = s.pantry.clearing ∧ e.pantry.mem.wf = true ∧
      ∀ x, e.pantry.mem.read x = (portByte w a x).getD (u.pantry.mem.read x) := by
  dsimp only
  rw [wordWrites_outside ((inGw_congr eff a).trans out)]
  obtain ⟨lands, mem, kept⟩ := land_on (s := u) ((bankOff_of_clearing eff clearing _).trans on) w
  rw [mem]
  exact ⟨keeps.trans (lands.weaken pantry), by rw [lands.par (by decide), eff], kept.trans clearing, Memory.foldl_write_wf _ _ wf,
    fun x => read_enabledBytes wf a w x⟩

/-- A host write to banks that are on, outside the group window. -/
theorem hostPantryWrite_on {s : State} {off : Nat} (allowed : s.hostDenied off = false) (small : (s.hostWords off).2 ≤ 3) (wf : s.pantry.mem.wf = true)
    (on : ∀ w ∈ (s.hostWords off).1, s.inGw w = false ∧ s.bankOff (w / 0x20000) = false) (v : Nat) {be : Nat} (four : be < 16) :
    let e := s.hostPantryWrite off v be .idle none
    let open_ := (s.hostWords off).1.any s.openWord
    Keeps 8196 s e ∧ (open_ = false → Keeps 8192 s e) ∧
      ∀ x, e.pantry.mem.read x = (hostByte (s.writeValue open_ v) be (hostFirst off + (s.hostWords off).2) x).getD (s.pantry.mem.read x) := by
  have start : ∀ o, Keeps 4 s (s.writeStart o) := writeStart_spec s
  have same : ∀ o, (s.writeStart o).par.eff = s.par.eff ∧ (s.writeStart o).pantry = s.pantry := fun o => by
    rw [(start o).par (by decide), (start o).pantry (by decide)]; exact ⟨rfl, rfl⟩
  obtain ⟨-, one | ⟨r, pos, two⟩⟩ := hostWords_allowed allowed
  · rw [one] at on ⊢
    rw [hostPantryWrite_one allowed one]
    dsimp only
    obtain ⟨out, lit⟩ := on _ (List.mem_singleton_self _)
    generalize hopen : [hostFirst off].any s.openWord = o
    have word : ∀ M, Keeps M s (s.writeStart o) → Sub 8192 M → _ := fun M keeps sub => wordWrite_on keeps sub (same o).1
      (congrArg Pantry.clearing (same o).2) (by rw [(same o).2]; exact wf) out lit (hostPart (s.writeValue o v) be 0 0)
    refine ⟨(word 8196 ((start o).weaken (by decide)) (by decide)).1, fun shut => ?_, fun x => ?_⟩
    · have here : s.writeStart o = s := by rw [shut]; rfl
      exact (word 8192 (by rw [here]; exact .refl _ s) (by decide)).1
    · rw [(word 8196 ((start o).weaken (by decide)) (by decide)).2.2.2.2 x, portByte_direct, (same o).2]; rfl
  · rw [two] at on small ⊢
    rw [hostPantryWrite_two allowed two]
    dsimp only at small ⊢
    obtain ⟨out, lit⟩ := on _ List.mem_cons_self
    obtain ⟨out', lit'⟩ := on _ (List.mem_cons_of_mem _ (List.mem_singleton_self _))
    generalize hopen : [hostFirst off, hostFirst off + 4].any s.openWord = o
    generalize hvalue : s.writeValue o v = value
    have both : ∀ M, Keeps M s (s.writeStart o) → Sub 8192 M →
        Keeps M s (if (hostPart value be r 1).be = 0 then (s.writeStart o).wordWrites (hostFirst off) none none (some (hostPart value be r 0))
          else ((s.writeStart o).wordWrites (hostFirst off) none none (some (hostPart value be r 0))).wordWrites (hostFirst off + 4) none none
            (some (hostPart value be r 1))) ∧
        ∀ x, (if (hostPart value be r 1).be = 0 then (s.writeStart o).wordWrites (hostFirst off) none none (some (hostPart value be r 0))
          else ((s.writeStart o).wordWrites (hostFirst off) none none (some (hostPart value be r 0))).wordWrites (hostFirst off + 4) none none
            (some (hostPart value be r 1))).pantry.mem.read x = (hostByte value be (hostFirst off + r) x).getD (s.pantry.mem.read x) :=
      fun M keeps sub => by
        obtain ⟨first, eff, clearing, wf', bytes⟩ := wordWrite_on keeps sub (same o).1 (congrArg Pantry.clearing (same o).2)
          (by rw [(same o).2]; exact wf) out lit (hostPart value be r 0)
        rw [(same o).2] at bytes
        generalize (s.writeStart o).wordWrites (hostFirst off) none none (some (hostPart value be r 0)) = u at *
        by_cases none_ : (hostPart value be r 1).be = 0
        · rw [if_pos none_]
          refine ⟨first, fun x => ?_⟩
          rw [← portByte_both value (hostFirst off) x four small, portByte_of_none none_, bytes x]
          rfl
        · rw [if_neg none_]
          obtain ⟨second, -, -, -, bytes'⟩ := wordWrite_on first sub eff clearing wf' out' lit' (hostPart value be r 1)
          refine ⟨second, fun x => ?_⟩
          rw [← portByte_both value (hostFirst off) x four small, bytes' x, bytes x]
    obtain ⟨keeps, bytes⟩ := both 8196 ((start o).weaken (by decide)) (by decide)
    refine ⟨keeps, fun shut => ?_, bytes⟩
    have here : s.writeStart o = s := by rw [shut]; rfl
    exact (both 8192 (by rw [here]; exact .refl _ s) (by decide)).1

/-- A host write to banks that are Off, outside the group window, changes nothing of the pantry. -/
theorem hostPantryWrite_off {s : State} {off : Nat} (allowed : s.hostDenied off = false)
    (dead : ∀ w ∈ (s.hostWords off).1, s.inGw w = false ∧ s.bankOff (w / 0x20000) = true) (v be : Nat) :
    (s.hostPantryWrite off v be .idle none).pantry = s.pantry := by
  have start : ∀ o, (s.writeStart o).par.eff = s.par.eff ∧ (s.writeStart o).pantry = s.pantry := fun o => by
    have keeps := writeStart_spec s o
    rw [keeps.par (by decide), keeps.pantry (by decide)]; exact ⟨rfl, rfl⟩
  have word : ∀ {u : State} {a : Nat} (w : PortWrite), u.par.eff = s.par.eff → u.pantry = s.pantry → s.inGw a = false →
      s.bankOff (a / 0x20000) = true → (u.wordWrites a none none (some w)).pantry = s.pantry ∧
        (u.wordWrites a none none (some w)).par.eff = s.par.eff := fun {u a} w eff pantry out gone => by
    rw [wordWrites_outside ((inGw_congr eff a).trans out)]
    obtain ⟨same, kept⟩ := land_off (s := u) ((bankOff_of_clearing eff (congrArg Pantry.clearing pantry) _).trans gone) w
    exact ⟨same.trans pantry, kept.trans eff⟩
  obtain ⟨-, one | ⟨r, pos, two⟩⟩ := hostWords_allowed allowed
  · rw [one] at dead
    rw [hostPantryWrite_one allowed one]
    obtain ⟨out, gone⟩ := dead _ (List.mem_singleton_self _)
    exact (word _ (start _).1 (start _).2 out gone).1
  · rw [two] at dead
    rw [hostPantryWrite_two allowed two]
    obtain ⟨out, gone⟩ := dead _ List.mem_cons_self
    obtain ⟨out', gone'⟩ := dead _ (List.mem_cons_of_mem _ (List.mem_singleton_self _))
    dsimp only
    split
    · exact (word _ (start _).1 (start _).2 out gone).1
    · obtain ⟨same, kept⟩ := word (hostPart (s.writeValue ([hostFirst off, hostFirst off + 4].any s.openWord) v) be r 0)
        (start ([hostFirst off, hostFirst off + 4].any s.openWord)).1 (start _).2 out gone
      exact (word _ kept same out' gone').1

theorem gwWaiting_congr {s t : State} (eff : t.par.eff = s.par.eff) (links : t.links = s.links) (lane : Nat) :
    t.gwWaiting lane = s.gwWaiting lane := by
  simp only [State.gwWaiting, State.lnk, State.node, State.pu, State.peff, eff, links]

theorem ringEn_of_inGw {s : State} {a : Nat} (inside : s.inGw a = true) : s.ringEn = true := by
  by_contra off
  have closed : s.gwBank = none := if_neg fun on => off (Bool.and_eq_true_iff.1 on).1
  rw [State.inGw, closed] at inside
  exact nomatch inside

/-- A host write of one word of the group window (R415). -/
theorem hostPantryWrite_window {s : State} {off w : Nat} (allowed : s.hostDenied off = false) (words : (s.hostWords off).1 = [w])
    (inside : s.inGw w = true) (v be : Nat) :
    let e := s.hostPantryWrite off v be .idle none
    (s.gwOwn w = false → e.pantry = s.pantry ∧ e.ring = s.ring) ∧
    (s.gwOwn w = true → s.bankOff (w / 0x20000) = false → s.gwWaiting 128 < 512 → s.gwWaiting 129 < 512 → s.pantry.mem.wf = true →
      (∀ x, e.pantry.mem.read x = (hostByte (s.writeValue (s.openWord w) v) be (hostFirst off + (s.hostWords off).2) x).getD (s.pantry.mem.read x)) ∧
      e.ring.wseq = (s.ring.wseq + 1) % 8192 ∧ e.ring.applied.get? (gwSlice w) = some s.ring.wseq ∧
      ((s.lane 128).st = .linked → (e.lnk 128).queue.length = (s.lnk 128).queue.length + 1)) := by
  obtain ⟨-, one | ⟨r, pos, two⟩⟩ := hostWords_allowed allowed
  · obtain rfl : hostFirst off = w := by rw [one] at words; exact List.head_eq_of_cons_eq words
    rw [hostPantryWrite_one allowed one, one]
    dsimp only
    have any : [hostFirst off].any s.openWord = s.openWord (hostFirst off) := Bool.or_false _
    rw [any]
    generalize s.openWord (hostFirst off) = o
    have start := writeStart_spec s o
    have eff : (s.writeStart o).par.eff = s.par.eff := by rw [start.par (by decide)]
    have in_ : (s.writeStart o).inGw (hostFirst off) = true := (inGw_congr eff _).trans inside
    have owner : (s.writeStart o).gwOwn (hostFirst off) = s.gwOwn (hostFirst off) := by
      simp only [State.gwOwn, State.headId, State.pu, State.peff, eff, start.twin (by decide)]
      rfl
    generalize s.writeValue o v = value
    refine ⟨fun foreign => ?_, fun own on free free' wf => ?_⟩
    · rw [wordWrites_foreign in_ (owner.trans foreign)]
      have counts := bump_keeps (M := 68) (a1 := 0x0E05) (a2 := noInst) (a3 := 5) (by decide) (start.weaken (by decide))
      exact ⟨counts.pantry (by decide), counts.ring (by decide)⟩
    · rw [wordWrites_own in_ (owner.trans own)]
      have lit : (s.writeStart o).bankOff (hostFirst off / 0x20000) = false :=
        (bankOff_of_clearing eff (congrArg Pantry.clearing (start.pantry (by decide))) _).trans on
      obtain ⟨lands, mem, -⟩ := land_on lit (hostPart value be 0 0)
      have landed : Keeps 8196 s ((s.writeStart o).land (hostFirst off) (hostPart value be 0 0)) :=
        (start.weaken (by decide)).trans (lands.weaken (by decide))
      rw [start.pantry (by decide)] at mem
      generalize (s.writeStart o).land (hostFirst off) (hostPart value be 0 0) = u at *
      have eff' : u.par.eff = s.par.eff := by rw [landed.par (by decide)]
      have waits := gwWaiting_congr eff' (landed.links (by decide))
      obtain ⟨pantry, wseq, applied, queue⟩ := gwSend_spec (s := u) (a := hostFirst off) (ringEn_of_inGw ((inGw_congr eff' _).trans inside))
        ⟨(waits 128).trans_lt free, (waits 129).trans_lt free'⟩ (hostPart value be 0 0)
      rw [landed.ring (by decide)] at wseq applied
      refine ⟨fun x => ?_, wseq, applied, fun linked => ?_⟩
      · rw [pantry, mem, read_enabledBytes wf, portByte_direct]; rfl
      · rw [queue (by rw [landed.lane (by decide)]; exact linked), landed.lnk (by decide)]
  · rw [two] at words
    exact absurd words (by simp)

/-! ### The obligation -/

theorem hostByte_of_on {v be lo x : Nat} (on : lo ≤ x ∧ x < lo + 4 ∧ be.testBit (x - lo) = true) :
    hostByte v be lo x = some (BitVec.ofNat 8 (v / 2 ^ (8 * (x - lo)))) := if_pos on

theorem hostByte_of_off {v be lo x : Nat} (out : ¬(lo ≤ x ∧ x < lo + 4 ∧ be.testBit (x - lo) = true)) : hostByte v be lo x = none := if_neg out

/-- The byte enables of a port: a QSPI write has none, and writes every byte (R48). -/
theorem enables_iff (p : HostPort) (be : BitVec 4) {lo x : Nat} : (lo ≤ x ∧ x < lo + 4 ∧ (if p = .pcie then be.toNat else 15).testBit (x - lo) = true) ↔
    (lo ≤ x ∧ x < lo + 4 ∧ (p = .pcie → be.getLsbD (x - lo) = true)) := by
  refine and_congr_right fun low => and_congr_right fun high => ?_
  by_cases pcie : p = .pcie
  · rw [if_pos pcie]
    exact ⟨fun h _ => h, fun h => h pcie⟩
  · rw [if_neg pcie]
    refine ⟨fun _ same => absurd same pcie, fun _ => ?_⟩
    have less : x - lo < 4 := by omega
    interval_cases x - lo <;> rfl

theorem enables_lt (p : HostPort) (be : BitVec 4) : (if p = .pcie then be.toNat else 15) < 16 := by
  split
  · exact be.isLt
  · decide

/-- What the bytes of a write say of the addresses it enables and of the others. -/
theorem writes_bytes {m m' : Memory} {v be lo : Nat} {o : Bool} {s : State} {p : HostPort} {e : BitVec 4} (same : be = if p = .pcie then e.toNat else 15)
    (bytes : ∀ x, m'.read x = (hostByte (s.writeValue o v) be lo x).getD (m.read x)) :
    (∀ a, ¬(lo ≤ a ∧ a < lo + 4 ∧ (p = .pcie → e.getLsbD (a - lo) = true)) → m'.read a = m.read a) ∧
    (o = false → ∀ a, (lo ≤ a ∧ a < lo + 4 ∧ (p = .pcie → e.getLsbD (a - lo) = true)) →
      m'.read a = BitVec.ofNat 8 (v / 2 ^ (8 * (a - lo)))) := by
  obtain rfl := same
  refine ⟨fun a out => ?_, fun shut a on => ?_⟩
  · rw [bytes, hostByte_of_off (mt (enables_iff p e).1 out)]; rfl
  · rw [bytes, hostByte_of_on ((enables_iff p e).2 on), shut]; rfl

/-- Settles O41: the port, the target of the address, and then the access word by word. -/
theorem pantryAccess : Obligations.PantryAccess := by
  intro p addr s
  have begin_ : Keeps 8208 s s.hostWrote.newTransaction := newTransaction_keeps (by decide) (hostWrote_keeps (by decide) (.refl _ s))
  have boxes : s.hostWrote.newTransaction.hatch.boxes = s.hatch.boxes := rfl
  have mem : s.hostWrote.newTransaction.pantry.mem = s.pantry.mem := rfl
  refine ⟨fun down v be m r => ⟨?_, ?_⟩, fun up nowhere m r => ?_, fun up nowhere v be m r => ?_, fun inert m r => ?_, fun inert v be m r => ?_,
    fun off m r up target => ?_, fun off v be m r up target => ?_⟩
  · exact if_neg (ne_true_of_eq_false down)
  · exact if_neg (ne_true_of_eq_false down)
  · refine ⟨s.newTransaction.hostReads 0, ?_, only_of (hostReads_keeps (by decide) (newTransaction_keeps (by decide) (.refl _ s))), rfl, rfl⟩
    refine (if_pos up).trans ?_
    rw [nowhere]
  · refine ⟨s.hostWrote.newTransaction, ?_, only_of begin_, rfl, rfl⟩
    refine (if_pos up).trans ?_
    rw [nowhere]
  · refine (?_ : execPantryHostRead addr m r s p = _)
    unfold execPantryHostRead
    rw [inert]
    exact ite_self _
  · refine (?_ : execPantryHostWrite addr v be m r s p = _)
    unfold execPantryHostWrite
    rw [inert]
    exact ite_self _
  · have run : exec (.pantryHostRead addr m r p) s = (s.newTransaction.hostPantryRead off m r).done := by
      refine (if_pos up).trans ?_
      rw [target]
    refine ⟨_, run, ?_⟩
    dsimp only
    cases denied : s.hostDenied off
    · rw [if_neg Bool.false_ne_true]
      refine ⟨only_of (hostPantryRead_keeps (by decide) (newTransaction_keeps (by decide) (.refl _ s))), fun idle none_ small => ?_⟩
      obtain rfl := idle
      obtain rfl := none_
      obtain ⟨on, dead⟩ := hostPantryRead_quiet (s := s.newTransaction) (off := off) denied small
      have opened : Keeps 8192 s s.newTransaction := newTransaction_keeps (by decide) (.refl _ s)
      refine ⟨fun lit => ?_, fun gone => ?_⟩
      · obtain ⟨keeps, mem, boxes, value⟩ := on lit
        exact ⟨only_of ((opened.weaken (by decide)).trans keeps), mem, boxes, value⟩
      · obtain ⟨keeps, mem, value⟩ := dead gone
        exact ⟨only_of ((opened.weaken (by decide)).trans keeps), mem, value⟩
    · rw [if_pos rfl]
      have denies : s.newTransaction.hostPantryRead off m r = s.newTransaction.sbDenied.hostReads 0 := if_pos denied
      obtain ⟨err, pantry⟩ := sbDenied_spec s.newTransaction
      rw [denies, (hostReads_spec ..).2.1, (hostReads_spec ..).1, (hostReads_spec ..).2.2.2, pantry]
      exact ⟨only_of (hostReads_keeps (by decide) (sbDenied_keeps (by decide) (newTransaction_keeps (by decide) (.refl _ s)))), rfl, rfl, err⟩
  · have run : exec (.pantryHostWrite addr v be m r p) s =
        (s.hostWrote.newTransaction.hostPantryWrite off v.toNat (if p = .pcie then be.toNat else 15) m r).done := by
      refine (if_pos up).trans ?_
      rw [target]
    refine ⟨_, run, ?_⟩
    dsimp only
    cases denied : s.hostDenied off
    · rw [if_neg Bool.false_ne_true]
      refine ⟨only_of (hostPantryWrite_keeps (by decide) (begin_.weaken (by decide))), fun idle none_ small wf => ⟨fun on => ?_, fun dead => ?_,
        fun w words inside => ?_⟩⟩
      all_goals
        obtain rfl := idle
        obtain rfl := none_
      · obtain ⟨keeps, quiet, bytes⟩ := hostPantryWrite_on (s := s.hostWrote.newTransaction) denied small wf on v.toNat (enables_lt p be)
        obtain ⟨kept, lands⟩ := writes_bytes rfl bytes
        exact ⟨(congrArg Hatch.boxes (keeps.hatch (by decide))).trans boxes, kept, fun shut => ⟨only_of (begin_.trans ((quiet shut).weaken (by decide))), lands shut⟩⟩
      · exact (congrArg Pantry.mem (hostPantryWrite_off (s := s.hostWrote.newTransaction) denied dead v.toNat _)).trans mem
      · obtain ⟨foreign, own⟩ := hostPantryWrite_window (s := s.hostWrote.newTransaction) denied words inside v.toNat
          (if p = .pcie then be.toNat else 15)
        refine ⟨fun other => ?_, fun mine lit free free' => ?_⟩
        · obtain ⟨pantry, ring⟩ := foreign other
          exact ⟨(congrArg Pantry.mem pantry).trans mem, ring⟩
        · obtain ⟨bytes, wseq, applied, queue⟩ := own mine lit free free' wf
          obtain ⟨kept, lands⟩ := writes_bytes rfl bytes
          exact ⟨kept, lands, wseq, applied, queue⟩
    · rw [if_pos rfl]
      have denies : s.hostWrote.newTransaction.hostPantryWrite off v.toNat (if p = .pcie then be.toNat else 15) m r =
          s.hostWrote.newTransaction.sbDenied := if_pos denied
      obtain ⟨err, pantry⟩ := sbDenied_spec s.hostWrote.newTransaction
      rw [denies, pantry]
      exact ⟨only_of (sbDenied_keeps (by decide) (begin_.weaken (by decide))), rfl, err⟩

end Sys2Proof.Machine
end

section
/-!
PROOFS. The commands of roles (R383, R387, R394, R396 to R399). A role that is taken moves the twin to its epoch and leaves every mailbox that waits
for nothing as it is.
-/

namespace Sys2Proof.Machine

open Host

/-! ### What the role taken leaves of the mailboxes -/

theorem ridePrecharge_keep_moves (s : State) : s.Moves [.grid, .halted, .enable, .sync, .precharge] (s.ridePrecharge true) := by
  have entered : s.Moves [.precharge] (s.pcEntered true) := (pcReady_moves s).trans (rideTo_moves _ .precharge 0 0)
  rw [ridePrecharge_entered]
  exact ite_moves (fun _ => (entered.trans (pcDone_moves _)).mono (by simp)) fun _ => entered.mono (by simp)

theorem rideRestart_leavesBox (s : State) (n : Nat) : s.LeavesBox n s.rideRestart := by
  unfold State.rideRestart
  split
  · exact (rideTo_moves s .dewWait 0 0).box n
  · exact (ridePrecharge_keep_moves s).box n
  · exact (rideSync_moves s).box n
  · exact (rideEnable_moves s).box n
  · exact .refl

theorem setTime_box (s : State) (st : TimeState) (rate : Int) (n : Nat) : (s.setTime st rate).box n = s.box n :=
  (setTime_keeps (M := 512) (by decide) (.refl _ s)).box (by decide) n

theorem masterLoss_box (s : State) (n : Nat) : s.masterLoss.box n = s.box n := by
  rw [State.masterLoss, condOn_box, setTime_box]
  rfl

theorem timeFollow_box (s : State) (n : Nat) : s.timeFollow.box n = s.box n :=
  (timeFollow_keeps (M := 512) (by decide) (.refl _ s)).box (by decide) n

theorem timeRefresh_box (s : State) (n : Nat) : s.timeRefresh.box n = s.box n := by
  unfold State.timeRefresh
  dsimp only
  have sources : ∀ f g, ((s.updRing f).updTime g).box n = s.box n := fun _ _ => rfl
  have ends : ∀ u : State, (u.condOffInst 0x20 noInst).box n = u.box n := fun u =>
    (condOffInst_keeps (M := 128) (by decide) (.refl _ u)).box (by decide) n
  generalize hu : State.updTime _ _ = u
  have before : u.box n = s.box n := by rw [← hu]; exact sources _ _
  rw [← before]
  split
  · split
    · rfl
    · exact (setTime_box _ _ _ n).trans (ends u)
  split
  · split
    · exact timeFollow_box u n
    split
    · exact masterLoss_box u n
    · exact setTime_box ..
  split
  · exact timeFollow_box u n
  · rfl

theorem toActive_leavesBox (s : State) (epoch n : Nat) : s.LeavesBox n (s.toActive epoch) := by
  unfold State.toActive
  dsimp only
  refine State.LeavesBox.trans (fun _ => ?_) (rideRestart_leavesBox _ n)
  have fresh := (freshCells_keeps (M := 81996) (by decide) (.refl _ (s.setRole .active epoch))).box (by decide) n
  have set_ : (s.setRole .active epoch).box n = s.box n := (setRole_keeps (M := 2056) (by decide) (.refl _ s)).box (by decide) n
  rw [timeRefresh_box, (updTwin_keeps (M := 2048) (by decide) (.refl _ _)).box (by decide)]
  split
  · exact set_
  split
  · exact fresh.trans set_
  · exact set_

/-! ### The role taken (R368, R369, R396) -/

/-- The epoch a ROLE_SET takes its role at (R396). -/
def State.setEpoch (s : State) (r : Role) : Nat :=
  if r = s.twin.role then s.twin.epoch
  else if r = .standby ∧ 0 < sdiff 16 s.twin.peerEpoch s.twin.epoch then (s.twin.peerEpoch + 1) % 2 ^ 16
  else (s.twin.epoch + 1) % 2 ^ 16

/-- A role that has been taken at an epoch, as a state that comes after it still shows it. -/
structure RoleTaken (r : Role) (epoch at_ : Nat) (t : Twin) : Prop where
  /-- The role. -/
  role : t.role = r
  /-- Its epoch. -/
  epoch : t.epoch = epoch
  /-- When it was taken. -/
  since : t.roleAt = at_

theorem setRole_taken (s : State) (r : Role) (e : Nat) : RoleTaken r (e % 2 ^ 16) s.shortNow (s.setRole r e).twin := by
  rw [setRole_twin]
  exact ⟨rfl, rfl, rfl⟩

theorem surrender_twin {s : State} (active : s.twin.role = .active) :
    RoleTaken .maint ((s.twin.epoch + 1) % 2 ^ 16) s.shortNow s.surrender.twin := by
  rw [State.surrender, if_pos active]
  dsimp only
  rw [toMaint_twin]
  have cancels := caseCancel_keeps (M := 67584) (by decide) (.refl _ s)
  generalize s.caseCancel = c at *
  have told := (twinSend_keeps (M := 65536) (a1 := 0x39) (a2 := pf 80 s.twin.epoch + pf 64 s.twin.failed) (by decide) (.refl _ c))
  have time := (told.time (by decide)).trans (cancels.time (by decide))
  generalize c.twinSend _ _ = d at *
  have taken := setRole_taken d .maint s.nextEpoch
  rwa [State.nextEpoch, Nat.mod_mod, show d.shortNow = s.shortNow by unfold State.shortNow; rw [time]] at taken

theorem laneTypeChanged_roll (s : State) (lane a b : Nat) : (s.laneTypeChanged lane a b).roll = s.roll :=
  (laneTypeChanged_keeps (M := 81996) (by decide) (.refl _ s)).roll (by decide)

theorem dropRoll_roll (s : State) : s.dropRoll.roll = { s.roll with working := {}, shadow := {}, pend := none, gen := 0 } := by
  unfold State.dropRoll
  exact foldl_view (fun u : State => u.roll) (fun u (c : Nat × Bytes) => laneTypeChanged_roll u c.1 (eType c.2) 0) _ _


theorem roleTake_twin (s : State) (r : Role) (unless_ : r ≠ s.twin.role) :
    RoleTaken r (s.setEpoch r) s.shortNow (s.roleTake r).twin := by
  unfold State.roleTake
  rw [if_neg unless_, State.setEpoch, if_neg unless_]
  have next : s.nextEpoch % 2 ^ 16 = (s.twin.epoch + 1) % 2 ^ 16 := Nat.mod_mod ..
  have others : ∀ r, RoleTaken r ((s.twin.epoch + 1) % 2 ^ 16) s.shortNow (s.setRole r s.nextEpoch).twin := fun r =>
    next ▸ setRole_taken s r s.nextEpoch
  cases r with
  | none => exact others .none
  | ringMember => exact others .ringMember
  | active =>
    obtain ⟨role, epoch, since⟩ := others .active
    rw [if_neg (fun h => nomatch h.1)]
    dsimp only
    rw [toActive_twin]
    exact ⟨role, epoch, since⟩
  | referee =>
    dsimp only
    rw [(dropRoll_keeps (M := 114764) (by decide) (.refl _ _)).twin (by decide)]
    exact others .referee
  | maint =>
    rw [if_neg (fun h => nomatch h.1)]
    dsimp only
    split
    · exact surrender_twin (by rename_i h; exact h.1)
    · exact others .maint
  | standby =>
    dsimp only
    rw [(timeRefresh_keeps (M := 2 ^ 28 - 1 - 2048) (by decide) (.refl _ _)).twin (by decide), State.twRole, updTwin_twin,
      (twinSend_keeps (M := 65536) (by decide) (.refl _ _)).twin (by decide), (haltCells_keeps (M := 81928) (by decide) (.refl _ _)).twin (by decide),
      updTwin_twin]
    obtain ⟨role, epoch, since⟩ := setRole_taken s .standby ((if 0 < sdiff 16 s.twin.peerEpoch s.twin.epoch then s.twin.peerEpoch else s.twin.epoch) + 1)
    refine ⟨role, epoch.trans ?_, since⟩
    by_cases later : 0 < sdiff 16 s.twin.peerEpoch s.twin.epoch
    · rw [if_pos later, if_pos ⟨rfl, later⟩]
    · rw [if_neg later, if_neg fun h => later h.2]

theorem roleTake_leavesBox (s : State) (r : Role) (n : Nat) : s.LeavesBox n (s.roleTake r) := by
  unfold State.roleTake
  refine leavesBox_ite (fun _ => .refl) fun _ => ?_
  have set_ : ∀ r e, (s.setRole r e).box n = s.box n := fun r e => (setRole_keeps (M := 2056) (by decide) (.refl _ s)).box (by decide) n
  split
  · exact toActive_leavesBox s s.nextEpoch n
  · dsimp only
    intro _
    rw [timeRefresh_box, (twRole_keeps (M := 67584) (by decide) (.refl _ _)).box (by decide),
      (haltCells_keeps (M := 81928) (by decide) (.refl _ _)).box (by decide), (updTwin_keeps (M := 2048) (by decide) (.refl _ _)).box (by decide), set_]
  · exact leavesBox_ite (fun _ _ => (surrender_keeps (M := 83976) (by decide) (.refl _ s)).box (by decide) n) fun _ _ => set_ ..
  · exact fun _ => ((dropRoll_keeps (M := 114764) (by decide) (.refl _ _)).box (by decide) n).trans (set_ ..)
  · exact fun _ => set_ ..

theorem roleOf_code {n : Nat} {r : Role} (known : roleOf n = some r) : r.code = n := by
  unfold roleOf at known
  split at known <;> cases known <;> rfl

theorem roleSet_lands {s : State} {mb : Fin 8} {q : Request} (runs : s.Runs mb 0x0D10 q) : Lands (exec (.roleSet mb) s) fun e =>
    (roleOf (uAt q.payload 0 1) = none → Only [.hatch] s e ∧ s.Replies e mb q stBadParam [5, 0, 0xFF, 0xFF]) ∧
    ∀ r, roleOf (uAt q.payload 0 1) = some r →
      (∀ x, s.roleRefusal r (bit (uAt q.payload 1 1) 0) = some x → Only [.hatch] s e ∧
        s.Replies e mb q stRefused (leBytes 1 x ++ [0, 0xFF, 0xFF])) ∧
      (s.roleRefusal r (bit (uAt q.payload 1 1) 0) = none →
        Only [.freeCount, .todo, .hatch, .notif, .par, .faults, .time, .twin, .pantry, .lanes, .roll, .links, .mod, .prot, .dt, .ring] s e ∧
        e.twin.role = r ∧ (r ≠ s.twin.role → e.twin.roleAt = s.shortNow) ∧ e.twin.epoch =
          (if r = s.twin.role then s.twin.epoch
           else if r = .standby ∧ 0 < sdiff 16 s.twin.peerEpoch s.twin.epoch then (s.twin.peerEpoch + 1) % 2 ^ 16
           else (s.twin.epoch + 1) % 2 ^ 16) ∧
        (r = .referee → s.twin.role ≠ .referee → e.roll = { s.roll with working := {}, shadow := {}, pend := none, gen := 0 }) ∧
        (e.box mb).state = .done ∧ (e.box mb).taken = none ∧
        (e.box mb).reply = replyBytes stOk q.seq e.twin.epoch (leBytes 2 e.twin.epoch ++ leBytes 1 (uAt q.payload 0 1) ++ [0])) := by
  have run : exec (.roleSet mb) s = State.done (match roleOf (uAt q.payload 0 1) with
    | none => s.refuse mb stBadParam 0x05
    | some r =>
      match s.roleRefusal r (bit (uAt q.payload 1 1) 0) with
      | some x => s.refuse mb stRefused x
      | none => (s.roleTake r).replyOk mb (leBytes 2 (s.roleTake r).twin.epoch ++ leBytes 1 (s.roleTake r).roleCode ++ [0])) :=
    congrArg State.done (withCmd_runs runs _ _)
  generalize bit (uAt q.payload 1 1) 0 = force at *
  cases known : roleOf (uAt q.payload 0 1) with
  | none =>
    rw [known] at run
    obtain ⟨e, run, part⟩ := refuse_lands runs.taken (by decide) 0x05 run
    exact ⟨e, run, fun _ => part, fun r some_ => nomatch some_⟩
  | some r =>
    rw [known] at run
    dsimp only at run
    cases refusal : s.roleRefusal r force with
    | some x =>
      rw [refusal] at run
      obtain ⟨e, run, part⟩ := refuse_lands runs.taken (by decide) x run
      refine ⟨e, run, (nomatch ·), fun r' same => ?_⟩
      cases same
      exact ⟨fun y h => by rw [refusal] at h; cases h; exact part, fun h => by rw [refusal] at h; cases h⟩
    | none =>
      rw [refusal] at run
      refine ⟨_, run, (nomatch ·), fun r' same => ?_⟩
      cases same
      refine ⟨fun y h => (by rw [refusal] at h; cases h), fun _ => ?_⟩
      have keeps := roleTake_keeps (M := 3140348) (a1 := r) (by decide) (.refl _ s)
      have box := roleTake_leavesBox s r mb runs.waits
      have taken := roleTake_twin s r
      have same : r = s.twin.role → s.roleTake r = s := fun h => by unfold State.roleTake; rw [if_pos h]
      have roll : r = .referee → s.twin.role ≠ .referee →
          (s.roleTake r).roll = { s.roll with working := {}, shadow := {}, pend := none, gen := 0 } := fun h other => by
        subst h
        unfold State.roleTake
        rw [if_neg (Ne.symm other)]
        exact (dropRoll_roll (s.setRole .referee s.nextEpoch)).trans rfl
      generalize s.roleTake r = u at *
      have held : (u.box mb).taken = some q := by rw [box]; exact runs.taken
      have role : u.twin.role = r := by
        by_cases h : r = s.twin.role
        · rw [same h, h]
        · exact (taken h).role
      have epoch : u.twin.epoch = s.setEpoch r := by
        by_cases h : r = s.twin.role
        · rw [same h, State.setEpoch, if_pos h]
        · exact (taken h).epoch
      have code : u.roleCode = uAt q.payload 0 1 := by rw [State.roleCode, role, roleOf_code known]
      have replies := reply_replies held stOk (leBytes 2 u.twin.epoch ++ leBytes 1 u.roleCode ++ [0])
      have ends := reply_hatch (M := 3140348) (mb := mb) (by decide) (status := stOk) (by decide) keeps
        (payload := leBytes 2 u.twin.epoch ++ leBytes 1 u.roleCode ++ [0])
      have last := reply_hatch (M := 16) (mb := mb) (by decide) (status := stOk) (by decide) (.refl _ u)
        (payload := leBytes 2 u.twin.epoch ++ leBytes 1 u.roleCode ++ [0])
      have twin : (u.replyOk mb (leBytes 2 u.twin.epoch ++ leBytes 1 u.roleCode ++ [0])).twin = u.twin := last.twin (by decide)
      have rolls : (u.replyOk mb (leBytes 2 u.twin.epoch ++ leBytes 1 u.roleCode ++ [0])).roll = u.roll := last.roll (by decide)
      have done : (u.replyOk mb (leBytes 2 u.twin.epoch ++ leBytes 1 u.roleCode ++ [0])) =
        u.reply mb stOk (leBytes 2 u.twin.epoch ++ leBytes 1 u.roleCode ++ [0]) := rfl
      rw [← done] at replies ends
      generalize u.replyOk mb _ = e at *
      rw [twin, rolls]
      exact ⟨only_of ends, role, fun h => (taken h).since, epoch, roll, replies.done, replies.taken, code ▸ replies.reply⟩

/-! ### TWIN_SWITCH, TWIN_RESYNC and UNIT_RESET (R383, R387, R397 to R399) -/

/-- A request that a generic check's status turns away is answered, and what its mailbox keeps stays (R69, R674). -/
theorem generic_lands {s : State} {mb : Nat} {q : Request} (taken : (s.box mb).taken = some q) {status : Nat} (known : status ≠ stBusy) (reason : Nat)
    {o : Outcome State Fault Refusal} (run : o = (s.generic mb status reason).done) :
    Lands o fun e => Only [.hatch] s e ∧ s.Turned e mb q status (reasonPayload reason 0xFFFF) := by
  refine ⟨_, run, ?_⟩
  rw [State.generic, writeReply_unkept taken, State.counted, if_neg known]
  refine ⟨only_of (enterDone_keeps (by decide) (.refl _ s)), ?_, ?_, ?_, ?_⟩ <;> rw [enterDone_box] <;> rfl

/-- What TWIN_SWITCH and TWIN_RESYNC ask of the twin before they act. -/
theorem pairCommand_lands {s : State} {mb : Fin 8} {q : Request} {o : Outcome State Fault Refusal} {u : State} {P : State → Prop}
    (taken : (s.box mb).taken = some q)
    (run : o = State.done (if s.twin.role ≠ .active then s.generic mb stNotInRole 0x8B
      else if s.qualifiedStandby = false then s.refuse mb stRefused 0x86
      else if s.twin.caseOpen = true ∨ s.twin.resync = true then s.refuse mb stRefused 0x87
      else if s.twinLinkUp = false then s.refuse mb stRefused 0x80
      else u))
    (acts : s.twin.role = .active → P u) : Lands o fun e =>
    let refused := fun x : Byte => Only [.hatch] s e ∧ s.Replies e mb q stRefused [x, 0, 0xFF, 0xFF]
    if s.twin.role ≠ .active then Only [.hatch] s e ∧ s.Turned e mb q stNotInRole [0x8B, 0, 0xFF, 0xFF]
    else if s.qualifiedStandby = false then refused 0x86
    else if s.twin.caseOpen = true ∨ s.twin.resync = true then refused 0x87
    else if s.twinLinkUp = false then refused 0x80
    else P e := by
  refine lands_ite (fun bad => generic_lands taken (by decide) 0x8B (run.trans (congrArg State.done (if_pos bad)))) fun active => ?_
  rw [if_neg active] at run
  refine lands_ite (fun bad => refuse_lands taken (by decide) 0x86 (run.trans (congrArg State.done (if_pos bad)))) fun good => ?_
  rw [if_neg good] at run
  refine lands_ite (fun bad => refuse_lands taken (by decide) 0x87 (run.trans (congrArg State.done (if_pos bad)))) fun good => ?_
  rw [if_neg good] at run
  refine lands_ite (fun bad => refuse_lands taken (by decide) 0x80 (run.trans (congrArg State.done (if_pos bad)))) fun good => ?_
  rw [if_neg good] at run
  exact ⟨_, run, acts (not_not.1 active)⟩

theorem forwardRequest_role (s : State) (mb : Nat) (q : Request) (data : Bytes) : (s.forwardRequest mb q data).twin.role = s.twin.role := by
  have queued : ∀ l : List Nat, Keeps 65536 s (l.foldl (fun s p => s.twinSend 0x34 p) s) := fun _ =>
    keeps_foldl (.refl _ s) fun _ _ => twinSend_keeps (by decide)
  simp only [State.forwardRequest, updTwin_twin, (queued _).twin (by decide)]

theorem twinSwitch_lands {s : State} {mb : Fin 8} {q : Request} (runs : s.Runs mb 0x0D11 q) : Lands (exec (.twinSwitch mb) s) fun e =>
    let refused := fun x : Byte => Only [.hatch] s e ∧ s.Replies e mb q stRefused [x, 0, 0xFF, 0xFF]
    if s.twin.role ≠ .active then Only [.hatch] s e ∧ s.Turned e mb q stNotInRole [0x8B, 0, 0xFF, 0xFF]
    else if s.qualifiedStandby = false then refused 0x86
    else if s.twin.caseOpen = true ∨ s.twin.resync = true then refused 0x87
    else if s.twinLinkUp = false then refused 0x80
    else Only [.hatch, .twin, .links] s e ∧ s.Forwards e mb [] ∧ e.twin.role = .active ∧ (e.box mb).taken = some q := by
  refine pairCommand_lands runs.taken (u := (s.forwardRequest mb q).waitFor mb (.standbyAck stOk []))
    (congrArg State.done (withCmd_runs runs _ _)) fun active => ?_
  have forwards := forwardRequest_waitFor_forwards s mb q [] []
  refine ⟨only_of (waitFor_keeps (by decide) (forwardRequest_keeps (by decide) (.refl _ s))), forwards,
    (forwardRequest_role s mb q []).trans active, ?_⟩
  rw [forwards.box]
  exact runs.taken

theorem twinResync_lands {s : State} {mb : Fin 8} {q : Request} (runs : s.Runs mb 0x0D13 q) : Lands (exec (.twinResync mb) s) fun e =>
    let refused := fun x : Byte => Only [.hatch] s e ∧ s.Replies e mb q stRefused [x, 0, 0xFF, 0xFF]
    if s.twin.role ≠ .active then Only [.hatch] s e ∧ s.Turned e mb q stNotInRole [0x8B, 0, 0xFF, 0xFF]
    else if s.qualifiedStandby = false then refused 0x86
    else if s.twin.caseOpen = true ∨ s.twin.resync = true then refused 0x87
    else if s.twinLinkUp = false then refused 0x80
    else Only [.freeCount, .hatch, .twin] s e ∧ e.twin.resync = true ∧ e.twin.resyncFrom = s.le.j ∧ e.twin.role = .active ∧
      ∃ n, s.Replies e mb q stOk (leBytes 4 n) := by
  refine pairCommand_lands runs.taken (u := (s.tookFree.resyncBegin).replyOk mb (leBytes 4 s.freeVal))
    (congrArg State.done (withCmd_runs runs _ _)) fun active => ?_
  have begins : s.tookFree.resyncBegin = s.tookFree.updTwin fun t =>
    { t with resync := true, resyncFrom := s.le.j, resyncIn := false, resyncItems := [], healthOwed := true } := if_pos active
  have keeps : Keeps 2052 s s.tookFree.resyncBegin := resyncBegin_keeps (by decide) (tookFree_keeps (by decide) (.refl _ s))
  have twin : s.tookFree.resyncBegin.twin =
    { s.twin with resync := true, resyncFrom := s.le.j, resyncIn := false, resyncItems := [], healthOwed := true } := by rw [begins]; rfl
  have epoch : s.tookFree.resyncBegin.twin.epoch = s.twin.epoch := by rw [twin]
  generalize s.tookFree.resyncBegin = u at *
  have last : (u.replyOk mb (leBytes 4 s.freeVal)).twin = u.twin := (replyOk_hatch (M := 16) (by decide) (.refl _ u)).twin (by decide)
  have replies : s.Replies (u.replyOk mb (leBytes 4 s.freeVal)) mb q stOk (leBytes 4 s.freeVal) :=
    (reply_replies (by rw [keeps.box (by decide)]; exact runs.taken) stOk (leBytes 4 s.freeVal)).from (by rw [keeps.hatch (by decide)]) epoch
  rw [last, twin]
  exact ⟨only_of (replyOk_hatch (by decide) (keeps.weaken (by decide))), rfl, rfl, active, s.freeVal, replies⟩

/-- Whether a unit's surrender is needed for its reset, for its strings run (R398). -/
abbrev State.resetBusy (s : State) : Prop := s.twin.role = .active ∧ (List.range 16).all s.strStopped = false

theorem haltCells_lane (s : State) : ∀ l < 128, (s.haltCells.lane l).st = if (s.lane l).st = .off then .off else .halted := by
  have halts : ∀ (u : State) (ls : List Nat) l, ((ls.foldl (fun s l =>
      if (s.lane l).st = .off ∨ (s.lane l).st = .halted then s else s.setLane l .halted) u).lane l).st =
      if l ∈ ls then (if (u.lane l).st = .off then .off else .halted) else (u.lane l).st := by
    intro u ls l
    induction ls generalizing u with
    | nil => rw [List.foldl_nil, if_neg List.not_mem_nil]
    | cons a ls ih =>
      rw [List.foldl_cons, ih]
      have step : ((if (u.lane a).st = .off ∨ (u.lane a).st = .halted then u else u.setLane a .halted).lane l).st =
          if l = a then (if (u.lane l).st = .off then .off else .halted) else (u.lane l).st := by
        by_cases own : l = a
        · subst own
          rw [if_pos rfl]
          by_cases off : (u.lane l).st = .off
          · rw [if_pos (.inl off), if_pos off, off]
          by_cases halted : (u.lane l).st = .halted
          · rw [if_pos (.inr halted), if_neg off, halted]
          · rw [if_neg (not_or.2 ⟨off, halted⟩), if_neg off, setLane_lane_same]
            rfl
        · rw [if_neg own]
          split
          · rfl
          · rw [setLane_lane_ne _ own]
      rw [step]
      by_cases own : l = a
      · subst own
        rw [if_pos rfl, if_pos List.mem_cons_self]
        by_cases off : (u.lane l).st = .off
        · rw [if_pos off, if_pos rfl, ite_self]
        · rw [if_neg off]
          exact ite_self _
      · rw [if_neg own]
        simp only [List.mem_cons, own, false_or]
  intro l small
  rw [State.haltCells, halts, if_pos (List.mem_range.2 small)]

theorem surrender_lane {s : State} (active : s.twin.role = .active) :
    ∀ l < 128, (s.surrender.lane l).st = if (s.lane l).st = .off then .off else .halted := by
  intro l small
  rw [State.surrender, if_pos active]
  dsimp only [State.toMaint]
  rw [haltCells_lane _ l small, (setRole_keeps (M := 2056) (by decide) (.refl _ _)).lane (by decide),
    (twinSend_keeps (M := 65536) (by decide) (.refl _ _)).lane (by decide), (caseCancel_keeps (M := 67584) (by decide) (.refl _ s)).lane (by decide)]

theorem unitReset_lands {s : State} {mb : Fin 8} {q : Request} (runs : s.Runs mb 0x0D12 q) : Lands (exec (.unitReset mb) s) fun e =>
    let target := uAt q.payload 0 1
    let busy := s.twin.role = .active ∧ (List.range 16).all s.strStopped = false
    let refused := fun x : Byte => Only [.hatch] s e ∧ s.Replies e mb q stRefused [x, 0, 0xFF, 0xFF]
    if 1 < target then Only [.hatch] s e ∧ s.Replies e mb q stBadParam [5, 0, 0xFF, 0xFF]
    else if target = 0 ∧ busy then
      if bit (uAt q.payload 1 1) 0 = false then refused 0x88
      else Only [.todo, .hatch, .twin, .lanes, .links] s e ∧ e.twin.role = .maint ∧ e.twin.epoch = (s.twin.epoch + 1) % 2 ^ 16 ∧
        e.twin.resetDue = some (s.mono + 8000000, false) ∧ (e.box mb).reply = replyBytes stOk q.seq e.twin.epoch [] ∧
        (e.box mb).state = .done ∧ (∀ l < 128, (e.lane l).st = if (s.lane l).st = .off then .off else .halted)
    else if target = 1 ∧ s.twin.peerRole = some 1 then refused 0x89
    else if target = 1 ∧ s.twinLinkUp = false then refused 0x80
    else Only [.hatch, .twin] s e ∧ e.twin = { s.twin with resetDue := some (s.mono + 8000000, target == 1) } ∧ s.Replies e mb q stOk [] := by
  have run : exec (.unitReset mb) s = State.done (if 1 < uAt q.payload 0 1 then s.refuse mb stBadParam 0x05
      else if uAt q.payload 0 1 = 0 ∧ s.resetBusy ∧ bit (uAt q.payload 1 1) 0 = false then s.refuse mb stRefused 0x88
      else if uAt q.payload 0 1 = 1 ∧ s.twin.peerRole = some 1 then s.refuse mb stRefused 0x89
      else if uAt q.payload 0 1 = 1 ∧ s.twinLinkUp = false then s.refuse mb stRefused 0x80
      else ((if uAt q.payload 0 1 = 0 ∧ s.resetBusy then s.surrender else s).updTwin fun t =>
        { t with resetDue := some (s.mono + ms 1, uAt q.payload 0 1 == 1) }).replyOk mb []) := congrArg State.done (withCmd_runs runs _ _)
  dsimp only
  generalize uAt q.payload 0 1 = target at *
  generalize bit (uAt q.payload 1 1) 0 = force at *
  refine lands_ite (fun bad => refuse_lands runs.taken (by decide) 0x05 (run.trans (congrArg State.done (if_pos bad)))) fun good => ?_
  rw [if_neg good] at run
  refine lands_ite (fun busy => lands_ite (fun unforced => ?_) fun forced => ?_) fun free => ?_
  · exact refuse_lands runs.taken (by decide) 0x88 (run.trans (congrArg State.done (if_pos ⟨busy.1, busy.2, unforced⟩)))
  · have notOne : target ≠ 1 := by rw [busy.1]; decide
    rw [if_neg fun h => forced h.2.2, if_neg fun h => notOne h.1, if_neg fun h => notOne h.1, if_pos busy] at run
    refine ⟨_, run, ?_⟩
    have keeps := surrender_keeps (M := 83976) (by decide) (.refl _ s)
    obtain ⟨role, epoch, -⟩ := surrender_twin busy.2.1
    have lanes := surrender_lane busy.2.1
    generalize s.surrender = u at *
    have due := updTwin_keeps (M := 83976) (f := fun t => { t with resetDue := some (s.mono + ms 1, target == 1) }) (by decide) keeps
    have after : (u.updTwin fun t => { t with resetDue := some (s.mono + ms 1, target == 1) }).twin =
      { u.twin with resetDue := some (s.mono + ms 1, target == 1) } := rfl
    have sameLanes : ∀ l, (u.updTwin fun t => { t with resetDue := some (s.mono + ms 1, target == 1) }).lane l = u.lane l := fun _ => rfl
    generalize u.updTwin _ = v at *
    have replies := reply_replies (mb := mb) (q := q) (by rw [due.box (by decide)]; exact runs.taken) stOk []
    have last : Keeps 16 v (v.replyOk mb []) := replyOk_hatch (by decide) (.refl _ v)
    have ends : Keeps 83992 s (v.replyOk mb []) := replyOk_hatch (by decide) (due.weaken (by decide))
    have same : v.reply mb stOk [] = v.replyOk mb [] := rfl
    rw [same] at replies
    generalize v.replyOk mb [] = e at *
    have twin : e.twin = { u.twin with resetDue := some (s.mono + ms 1, target == 1) } := (last.twin (by decide)).trans after
    refine ⟨only_of ends, by rw [twin]; exact role, by rw [twin]; exact epoch, by rw [twin, beq_false_of_ne notOne]; rfl, ?_, replies.done, fun l small => ?_⟩
    · rw [replies.reply, last.twin (by decide)]
    · rw [last.lane (by decide), sameLanes, lanes l small]
  · rw [if_neg fun h => free ⟨h.1, h.2.1⟩] at run
    refine lands_ite (fun bad => refuse_lands runs.taken (by decide) 0x89 (run.trans (congrArg State.done (if_pos bad)))) fun good => ?_
    rw [if_neg good] at run
    refine lands_ite (fun bad => refuse_lands runs.taken (by decide) 0x80 (run.trans (congrArg State.done (if_pos bad)))) fun good => ?_
    rw [if_neg good, if_neg free] at run
    refine ⟨_, run, only_of (replyOk_hatch (by decide) (updTwin_keeps (by decide) (.refl _ s))), ?_,
      (reply_replies (s := s.updTwin _) runs.taken stOk []).from rfl rfl⟩
    rw [(replyOk_hatch (M := 16) (by decide) (.refl _ _)).twin (by decide)]
    rfl

/-- Settles O39: each command's checks in their order, and for each role what it takes and what it leaves of the twin and the mailboxes. -/
theorem roleCommands : Obligations.RoleCommands := by
  unfold Obligations.RoleCommands
  exact fun _ _ _ => ⟨roleSet_lands, twinSwitch_lands, twinResync_lands, unitReset_lands⟩

end Sys2Proof.Machine
end

section
/-!
PROOFS. Housekeeping (R441 to R448, R450, R453, R459, R466). What a conversion gives its input is said once; all that follows it in the step leaves the
values, the round and the mailboxes that wait for nothing as they are, but for the mark of a converter found implausible.
-/

namespace Sys2Proof.Machine

open Host

/-! ### What the evaluation of a round leaves -/

/-- The values of housekeeping, its round, the count of the firings of HK_MISMATCH and every mailbox that waits for nothing are left alone. -/
structure State.Judges (s t : State) : Prop where
  /-- The values. -/
  value : t.hk.value = s.hk.value
  /-- The number of the round. -/
  rounds : t.hk.rounds = s.hk.rounds
  /-- Its time. -/
  roundAt : t.hk.roundAt = s.hk.roundAt
  /-- The boundaries that have run. -/
  ran : t.hk.ran = s.hk.ran
  /-- The firings of HK_MISMATCH. -/
  quiet : State.Unfired 0x60 s t
  /-- The mailboxes. -/
  box : ∀ n, s.LeavesBox n t

theorem State.Judges.refl (s : State) : s.Judges s := ⟨rfl, rfl, rfl, rfl, rfl, fun _ => .refl⟩

theorem State.Judges.trans {s t u : State} (h : s.Judges t) (k : t.Judges u) : s.Judges u :=
  ⟨k.value.trans h.value, k.rounds.trans h.rounds, k.roundAt.trans h.roundAt, k.ran.trans h.ran, h.quiet.trans k.quiet,
    fun n => (h.box n).trans (k.box n)⟩

theorem foldl_judges {α : Type} {f : State → α → State} (h : ∀ (u : State) x, u.Judges (f u x)) (l : List α) (s : State) : s.Judges (l.foldl f s) := by
  induction l generalizing s with
  | nil => exact .refl s
  | cons a r ih => exact (h s a).trans (ih _)

theorem ite_judges {c : Prop} [Decidable c] {s t u : State} (h : c → s.Judges t) (k : ¬c → s.Judges u) : s.Judges (if c then t else u) := by
  split
  · exact h ‹_›
  · exact k ‹_›

/-- A step that touches neither housekeeping, nor the hatch, nor the faults. -/
theorem Keeps.judges {s t : State} (h : Keeps (2 ^ 28 - 1 - 16 - 128 - 4194304) s t) : s.Judges t :=
  have hk := h.hk (by decide)
  ⟨by rw [hk], by rw [hk], by rw [hk], by rw [hk], h.unfired (by decide), fun n _ => h.box (by decide) n⟩

/-- A change of housekeeping alone that leaves its values and its round. -/
theorem updHk_judges (s : State) {f : HkUnit → HkUnit} (same : ∀ h, (f h).value = h.value ∧ (f h).rounds = h.rounds ∧ (f h).roundAt = h.roundAt ∧ (f h).ran = h.ran) :
    s.Judges (s.updHk f) :=
  have ⟨value, rounds, roundAt, ran⟩ := same s.hk
  ⟨value, rounds, roundAt, ran, rfl, fun _ _ => rfl⟩

theorem modZone_judges (s : State) (z : Nat) (f : ThermZone → ThermZone) : s.Judges (s.modZone z f) := updHk_judges s fun _ => ⟨rfl, rfl, rfl, rfl⟩

theorem modPair_judges (s : State) (k : Nat) (f : HkPair → HkPair) : s.Judges (s.modPair k f) := updHk_judges s fun _ => ⟨rfl, rfl, rfl, rfl⟩

theorem bump_judges (s : State) (id inst field : Nat) : s.Judges (s.bump id inst field) := (bump_keeps (by decide) (.refl _ s)).judges

theorem condOn_judges (s : State) {src : Nat} (other : 0x60 ≠ src) (known : (faultSource src).isSome) (inst sub : Nat) (args : Bytes) :
    s.Judges (s.condOn src inst sub args) := by
  have hk := (condOn_keeps (M := 8440) (a1 := src) (a2 := inst) (a3 := sub) (a4 := args) (by decide) (.refl _ s)).hk (by decide)
  exact ⟨by rw [hk], by rw [hk], by rw [hk], by rw [hk], condOn_unfired other known .., fun n _ => condOn_box ..⟩

theorem condOff_judges (s : State) (src inst sub : Nat) : s.Judges (s.condOff src inst sub) := ⟨rfl, rfl, rfl, rfl, rfl, fun _ _ => rfl⟩

theorem cond_judges (s : State) (on : Bool) {src : Nat} (other : 0x60 ≠ src) (known : (faultSource src).isSome) (inst sub : Nat) (args : Bytes) :
    s.Judges (s.cond on src inst sub args) := by
  unfold State.cond
  exact ite_judges (fun _ => condOn_judges s other known inst sub args) fun _ => condOff_judges s src inst sub

theorem note_judges (s : State) (island code : Nat) (args : Bytes) (info : Bool) : s.Judges (s.note island code args info) := by
  have keeps := note_keeps (M := 8304) (a1 := island) (a2 := code) (a3 := args) (a4 := info) (by decide) (.refl _ s)
  have hk := keeps.hk (by decide)
  exact ⟨by rw [hk], by rw [hk], by rw [hk], by rw [hk], keeps.unfired (by decide), fun n _ => note_box ..⟩

theorem trip_judges (s : State) (str cause lane : Nat) : s.Judges (s.trip str cause lane) := by
  have keeps := trip_keeps (M := 991344) (a1 := str) (a2 := cause) (a3 := lane) (by decide) (.refl _ s)
  have hk := keeps.hk (by decide)
  exact ⟨by rw [hk], by rw [hk], by rw [hk], by rw [hk], keeps.unfired (by decide), fun n => trip_leavesBox str cause lane .refl⟩

theorem forwardRequest_judges (s : State) (mb : Nat) (q : Request) (data : Bytes) : s.Judges (s.forwardRequest mb q data) :=
  (forwardRequest_keeps (by decide) (.refl _ s)).judges

theorem zoneForm_judges (s : State) (z : Nat) : s.Judges (s.zoneForm z) := by
  unfold State.zoneForm
  dsimp only
  have formed : ∀ (on c : Bool) f, s.Judges (if c then ((s.modZone z f).cond on 0x63 z 0 []).bump 0x1104 noInst 3 else (s.modZone z f).cond on 0x63 z 0 []) :=
    fun on c f => ite_judges (fun _ => (((modZone_judges s z f).trans (cond_judges _ on (by decide) (by decide) z 0 [])).trans (bump_judges ..)))
      fun _ => (modZone_judges s z f).trans (cond_judges _ on (by decide) (by decide) z 0 [])
  split
  · exact (formed _ _ _).trans (updHk_judges _ fun _ => ⟨rfl, rfl, rfl, rfl⟩)
  · exact formed _ _ _

theorem thermShut_judges (s : State) (z src : Nat) (t : Int) : s.Judges (s.thermShut z src t) := by
  unfold State.thermShut
  dsimp only
  split
  · exact updHk_judges s fun _ => ⟨rfl, rfl, rfl, rfl⟩
  refine ite_judges (fun _ => .refl s) fun _ => ?_
  have tripped : s.Judges (s.thermTrip (s.pu 0x1101 z 18 2)) := foldl_judges (fun u n => trip_judges u n 11 0xFFFF) _ s
  have added : ∀ (u : State) r, u.Judges (u.thermAdd r) := fun u r =>
    (updHk_judges u (f := fun h => { h with recs := h.recs ++ [r] }) fun _ => ⟨rfl, rfl, rfl, rfl⟩).trans (condOn_judges _ (by decide) (by decide) ..)
  have made := fun r => ((tripped.trans (updHk_judges _ (f := fun h => { h with lastId := nextThermId s.hk.recs 17 s.hk.lastId }) fun _ => ⟨rfl, rfl, rfl, rfl⟩)).trans
    (added _ r)).trans (bump_judges _ 0x1104 noInst 2)
  exact ite_judges (fun _ => (made _).trans (forwardRequest_judges ..)) fun _ => made _

theorem hkNext_judges (s : State) (k : Nat) : s.Judges (s.hkNext k) := by
  unfold State.hkNext
  dsimp only
  refine ite_judges (fun _ => .refl s) fun _ => ite_judges (fun _ => .refl s) fun _ => ite_judges (fun _ => ite_judges (fun _ => .refl s) fun _ => ?_)
    fun _ => ?_
  · exact (modPair_judges s k _).trans (bump_judges ..)
  have urgent : ∀ f g, s.Judges ((s.modPair k f).modPair k g) := fun f g => (modPair_judges s k f).trans (modPair_judges _ k g)
  split
  · exact urgent _ _
  · exact ite_judges (fun _ => urgent _ _) fun _ => modPair_judges s k _
  · exact modPair_judges s k _
  · exact .refl s

theorem hkUrgent_judges (s : State) (k : Nat) (u : Urgent) : s.Judges (s.hkUrgent k u) := by
  unfold State.hkUrgent
  dsimp only
  have queued : s.Judges ((s.modPair k fun p => { p with urgent := p.urgent ++ [u] }).bump 0x100B noInst 2) := (modPair_judges s k _).trans (bump_judges ..)
  split
  · exact ite_judges (fun _ => ((queued.trans (modPair_judges _ k _)).trans (bump_judges ..)).trans (hkNext_judges _ k)) fun _ => queued
  · exact queued
  · exact queued.trans (hkNext_judges _ k)

theorem thermAsk_judges (s : State) (z : Nat) : s.Judges (s.thermAsk z) := by
  unfold State.thermAsk
  dsimp only
  split
  · exact .refl s
  refine ite_judges (fun _ => .refl s) fun _ => ite_judges (fun _ => hkUrgent_judges ..) fun _ => ?_
  split
  · exact ite_judges (fun _ => thermShut_judges ..) fun _ => modZone_judges ..
  · exact modZone_judges ..

theorem derPublish_judges (s : State) (z : Nat) : s.Judges (s.derPublish z) := by
  unfold State.derPublish
  dsimp only
  have first : s.Judges (if s.thermActs then (s.modZone z fun x => { x with factor := derFactor (s.zone z).d }).later .limits else s) :=
    ite_judges (fun _ => (modZone_judges s z _).trans (later_keeps (by decide) (.refl _ _)).judges) fun _ => .refl s
  have set_ : ∀ (u : State) id inst v, u.Judges (u.setParam id inst v) := fun u _ _ _ => (setParam_keeps (by decide) (.refl _ u)).judges
  exact ite_judges (fun _ => ite_judges (fun _ => (first.trans (set_ ..)).trans (forwardRequest_judges ..)) fun _ => first.trans (set_ ..)) fun _ => first

theorem derate_judges (s : State) (z : Nat) : s.Judges (s.derate z) := by
  unfold State.derate
  dsimp only
  refine ite_judges (fun _ => ?_) fun _ => .refl s
  refine .trans (ite_judges (fun _ => modZone_judges ..) fun _ => ?_) (derPublish_judges ..)
  exact ((modZone_judges s z _).trans (bump_judges ..)).trans (note_judges ..)

theorem fanRound_judges (s : State) (f : Nat) : s.Judges (s.fanRound f) := by
  unfold State.fanRound
  dsimp only
  refine ite_judges (fun _ => ite_judges (fun _ => ?_) fun _ => ?_) fun _ => ?_
  · refine State.Judges.trans ?_ (condOn_judges _ (by decide) (by decide) ..)
    exact updHk_judges s fun _ => ⟨rfl, rfl, rfl, rfl⟩
  · exact updHk_judges s fun _ => ⟨rfl, rfl, rfl, rfl⟩
  · refine State.Judges.trans ?_ (condOff_judges ..)
    exact updHk_judges s fun _ => ⟨rfl, rfl, rfl, rfl⟩

theorem rideMargin_judges (s : State) (m : Option Int) : s.Judges (s.rideMargin m) := (rideMargin_keeps (by decide) (.refl _ s)).judges

theorem tookFree_judges (s : State) : s.Judges s.tookFree := (tookFree_keeps (by decide) (.refl _ s)).judges

theorem hkDew_judges (s : State) : s.Judges s.hkDew := by
  unfold State.hkDew
  dsimp only
  refine ite_judges (fun _ => State.Judges.trans ?_ (rideMargin_judges ..)) fun _ => State.Judges.trans ?_ (rideMargin_judges ..)
  · refine (tookFree_judges s).trans ?_
    exact updHk_judges _ fun _ => ⟨rfl, rfl, rfl, rfl⟩
  · exact updHk_judges s fun _ => ⟨rfl, rfl, rfl, rfl⟩

theorem hkPublish_judges (s : State) : s.Judges s.hkPublish := by
  unfold State.hkPublish
  refine State.Judges.trans (State.Judges.trans (State.Judges.trans ?_ (hkDew_judges _)) (foldl_judges derate_judges _ _))
    (foldl_judges fanRound_judges _ _)
  exact updHk_judges s fun _ => ⟨rfl, rfl, rfl, rfl⟩

theorem hkTryPublish_judges (s : State) : s.Judges s.hkTryPublish := by
  unfold State.hkTryPublish
  exact ite_judges (fun _ => hkPublish_judges s) fun _ => .refl s

theorem hkTryEval_judges (s : State) : s.Judges s.hkTryEval := by
  unfold State.hkTryEval
  refine ite_judges (fun _ => State.Judges.trans (State.Judges.trans (State.Judges.trans ?_ (foldl_judges zoneForm_judges _ _))
    (foldl_judges thermAsk_judges _ _)) (hkTryPublish_judges _)) fun _ => hkTryPublish_judges s
  exact updHk_judges s fun _ => ⟨rfl, rfl, rfl, rfl⟩

/-! ### What a conversion gives (R442 to R446) -/

/-- What a step that takes conversions leaves: the values in effect, the round, the pairs, the twin and the mailboxes. -/
structure State.Converts (s t : State) : Prop where
  /-- The values in effect. -/
  eff : t.par.eff = s.par.eff
  /-- The number of the round. -/
  rounds : t.hk.rounds = s.hk.rounds
  /-- The pairs. -/
  pair : t.hk.pair = s.hk.pair
  /-- The twin. -/
  twin : t.twin = s.twin
  /-- The mailboxes. -/
  box : ∀ n, t.box n = s.box n

theorem State.Converts.refl (s : State) : s.Converts s := ⟨rfl, rfl, rfl, rfl, fun _ => rfl⟩

theorem State.Converts.trans {s t u : State} (h : s.Converts t) (k : t.Converts u) : s.Converts u :=
  ⟨k.eff.trans h.eff, k.rounds.trans h.rounds, k.pair.trans h.pair, k.twin.trans h.twin, fun n => (k.box n).trans (h.box n)⟩

theorem ite_converts {c : Prop} [Decidable c] {s t u : State} (h : c → s.Converts t) (k : ¬c → s.Converts u) : s.Converts (if c then t else u) := by
  split
  · exact h ‹_›
  · exact k ‹_›

theorem modHkVal_converts (s : State) (i : Nat) (f : HkValue → HkValue) : s.Converts (s.modHkVal i f) := ⟨rfl, rfl, rfl, rfl, fun _ => rfl⟩

theorem hkResult_converts (s : State) (conv i c : Nat) : s.Converts (s.hkResult conv i c) := ⟨rfl, rfl, rfl, rfl, fun _ => rfl⟩

theorem bump_converts (s : State) (id inst field : Nat) : s.Converts (s.bump id inst field) := ⟨rfl, rfl, rfl, rfl, fun _ => rfl⟩

theorem bumpBy_converts (s : State) (id inst field n : Nat) : s.Converts (s.bumpBy id inst field n) := ⟨rfl, rfl, rfl, rfl, fun _ => rfl⟩

theorem fire_converts (s : State) (src inst : Nat) (args : Bytes) : s.Converts (s.fire src inst args) := by
  have keeps := fire_keeps (M := 8440) (a1 := src) (a2 := inst) (a3 := args) (by decide) (.refl _ s)
  have hk := keeps.hk (by decide)
  exact ⟨fire_eff .., by rw [hk], by rw [hk], keeps.twin (by decide), fun n => fireWith_box s src inst args false 4 n⟩

theorem cond_converts (s : State) (on : Bool) (src inst sub : Nat) (args : Bytes) : s.Converts (s.cond on src inst sub args) := by
  have keeps := cond_keeps (M := 8440) (a1 := on) (a2 := src) (a3 := inst) (a4 := sub) (a5 := args) (by decide) (.refl _ s)
  have hk := keeps.hk (by decide)
  exact ⟨cond_eff .., by rw [hk], by rw [hk], keeps.twin (by decide), fun n => cond_box ..⟩

theorem hkLimit_converts (s : State) (i : Nat) (out : Bool) (v : Int) : s.Converts (s.hkLimit i out v) := by
  unfold State.hkLimit
  exact ite_converts (fun _ => (cond_converts ..).trans (bump_converts ..)) fun _ => cond_converts ..

theorem hkLimit_value (s : State) (i : Nat) (out : Bool) (v : Int) : (s.hkLimit i out v).hk.value = s.hk.value := by
  have limit := cond_keeps (M := 8440) (a1 := out) (a2 := 0x61) (a3 := i) (a4 := 0) (a5 := leBytesI 2 v) (by decide) (.refl _ s)
  unfold State.hkLimit
  dsimp only
  split
  · rw [(bump_keeps (M := 64) (by decide) (.refl _ _)).hk (by decide), limit.hk (by decide)]
  · rw [limit.hk (by decide)]

theorem hkLimit_unfired (s : State) (i : Nat) (out : Bool) (v : Int) : State.Unfired 0x60 s (s.hkLimit i out v) := by
  have limit := (cond_judges s out (src := 0x61) (by decide) (by decide) i 0 (leBytesI 2 v)).quiet
  unfold State.hkLimit
  exact ite_unfired (fun _ => limit.trans (bump_judges ..).quiet) fun _ => limit

/-- A value taken from a code (R443). -/
structure HkReads (s : State) (i code : Nat) (x : HkValue) : Prop where
  /-- The value. -/
  value : x.value = s.hkConvert i code
  /-- The code. -/
  codes : x.code = code
  /-- It is valid. -/
  valid : x.valid = true
  /-- Its round. -/
  round : x.round = s.hk.rounds % 2 ^ 16
  /-- Below its limits. -/
  below : x.below = decide (s.hkConvert i code < s.ps 0x1002 i 6 2)
  /-- Above them. -/
  above : x.above = decide (s.ps 0x1002 i 8 2 < s.hkConvert i code)

theorem ps_congr {s t : State} (eff : t.par.eff = s.par.eff) (id inst off n : Nat) : t.ps id inst off n = s.ps id inst off n := by
  rw [State.ps, State.peff, eff, State.ps, State.peff]

theorem hkConvert_congr {s t : State} (eff : t.par.eff = s.par.eff) (i c : Nat) : t.hkConvert i c = s.hkConvert i c := by
  unfold State.hkConvert
  simp only [pu_congr eff, ps_congr eff]

theorem HkReads.congr {s t : State} (eff : t.par.eff = s.par.eff) (rounds : t.hk.rounds = s.hk.rounds) {i code : Nat} {x : HkValue}
    (k : HkReads t i code x) : HkReads s i code x := by
  obtain ⟨value, codes, valid, round, below, above⟩ := k
  rw [hkConvert_congr eff] at value below above
  rw [rounds] at round
  rw [ps_congr eff] at below above
  exact ⟨value, codes, valid, round, below, above⟩

theorem State.Converts.hkKind {s t : State} (h : s.Converts t) (i : Nat) : t.hkKind i = s.hkKind i := pu_congr h.eff ..

theorem State.Converts.reads {s t : State} (h : s.Converts t) {i code : Nat} {x : HkValue} (k : HkReads t i code x) : HkReads s i code x :=
  k.congr h.eff h.rounds

theorem hkStore_ne (s : State) {i j : Nat} (other : j ≠ i) (c : Nat) (out : Bool) : (s.hkStore i c out).hkVal j = s.hkVal j := by
  unfold State.hkStore
  split
  · rfl
  · dsimp only
    rw [State.hkVal, hkLimit_value, ← State.hkVal, hkVal_modHkVal_ne s other]

theorem hkStore_reads (s : State) {i : Nat} (used : s.hkKind i ≠ 0) (c : Nat) (out : Bool) : HkReads s i c ((s.hkStore i c out).hkVal i) := by
  unfold State.hkStore
  rw [if_neg used]
  dsimp only
  rw [State.hkVal, hkLimit_value, ← State.hkVal, hkVal_modHkVal]
  exact ⟨rfl, rfl, rfl, rfl, rfl, rfl⟩

theorem hkStore_converts (s : State) (i c : Nat) (out : Bool) : s.Converts (s.hkStore i c out) := by
  unfold State.hkStore
  exact ite_converts (fun _ => .refl s) fun _ => (modHkVal_converts s i _).trans (hkLimit_converts ..)

theorem modHkVal_unfired (s : State) (i : Nat) (f : HkValue → HkValue) : State.Unfired 0x60 s (s.modHkVal i f) := rfl

theorem hkStore_unfired (s : State) (i c : Nat) (out : Bool) : State.Unfired 0x60 s (s.hkStore i c out) := by
  unfold State.hkStore
  exact ite_unfired (fun _ => .refl s) fun _ => (modHkVal_unfired s i _).trans (hkLimit_unfired ..)

/-- A PAIRED conversion of an input in use: the mean, or a mismatch (R445). -/
def HkBoth (s : State) (i a b : Nat) (was x : HkValue) (t : State) : Prop :=
  if s.p0 0x1006 < ((a : Int) - b).natAbs then x.bad = true ∧ (x.value = was.value ∧ x.code = was.code) ∧ s.Fired t 0x60
  else HkReads s i ((a + b) / 2) x

/-- The state in which the two results of a PAIRED conversion are noted. -/
def State.hkTwo (s : State) (k i a b : Nat) : State := (s.hkResult (2 * k) i a).hkResult (2 * k + 1) i b

theorem hkTwo_converts (s : State) (k i a b : Nat) : s.Converts (s.hkTwo k i a b) := ⟨rfl, rfl, rfl, rfl, fun _ => rfl⟩

theorem hkTwo_value (s : State) (k i a b : Nat) : (s.hkTwo k i a b).hk.value = s.hk.value ∧ (s.hkTwo k i a b).faults = s.faults := ⟨rfl, rfl⟩

theorem hkPaired_two (s : State) (k i a b : Nat) : s.hkPaired k i a b =
    if s.hkKind i = 0 then s.hkTwo k i a b
    else if s.p0 0x1006 < ((a : Int) - b).natAbs then
      (((s.hkTwo k i a b).modHkVal i fun x => { x with bad := true }).bump 0x100B noInst 4).fire 0x60 i (leBytes 2 a ++ leBytes 2 b)
    else (s.hkTwo k i a b).hkStore i ((a + b) / 2) (inR i 28 29 && (s.hkOutside i a || s.hkOutside i b)) := rfl

theorem hkPaired_spec (s : State) (k i a b : Nat) : s.Converts (s.hkPaired k i a b) ∧
    (∀ j, j ≠ i → (s.hkPaired k i a b).hkVal j = s.hkVal j) ∧
    (s.hkKind i ≠ 0 → HkBoth s i a b (s.hkVal i) ((s.hkPaired k i a b).hkVal i) (s.hkPaired k i a b)) := by
  have two := hkTwo_converts s k i a b
  obtain ⟨value, faults⟩ := hkTwo_value s k i a b
  have vals : ∀ j, (s.hkTwo k i a b).hkVal j = s.hkVal j := fun j => by rw [State.hkVal, value, State.hkVal]
  have firings : (s.hkTwo k i a b).faults.firings = s.faults.firings := by rw [faults]
  rw [hkPaired_two]
  generalize s.hkTwo k i a b = u at *
  by_cases used : s.hkKind i = 0
  · rw [if_pos used]
    exact ⟨two, fun j _ => vals j, fun h => absurd used h⟩
  rw [if_neg used, HkBoth]
  by_cases apart : s.p0 0x1006 < ((a : Int) - b).natAbs
  · rw [if_pos apart]
    have keeps := fun args => fire_keeps (M := 8440) (a1 := 0x60) (a2 := i) (a3 := args) (by decide)
      (.refl _ ((u.modHkVal i fun x => { x with bad := true }).bump 0x100B noInst 4))
    have after : ∀ j, ((((u.modHkVal i fun x => { x with bad := true }).bump 0x100B noInst 4).fire 0x60 i (leBytes 2 a ++ leBytes 2 b)).hkVal j) =
        (u.modHkVal i fun x => { x with bad := true }).hkVal j := fun j => by
      rw [State.hkVal, (keeps _).hk (by decide), (bump_keeps (M := 64) (by decide) (.refl _ _)).hk (by decide), ← State.hkVal]
    have fired := fire_fired ((u.modHkVal i fun x => { x with bad := true }).bump 0x100B noInst 4) (src := 0x60) (by decide) i (leBytes 2 a ++ leBytes 2 b)
    refine ⟨((two.trans (modHkVal_converts u i _)).trans (bump_converts ..)).trans (fire_converts ..), fun j other => ?_, fun _ => ?_⟩
    · rw [after, hkVal_modHkVal_ne u other, vals]
    · rw [if_pos apart, after, hkVal_modHkVal, vals]
      exact ⟨rfl, ⟨rfl, rfl⟩, fired.from firings⟩
  · rw [if_neg apart]
    refine ⟨two.trans (hkStore_converts ..), fun j other => by rw [hkStore_ne u other, vals], fun _ => ?_⟩
    rw [if_neg apart]
    exact two.reads (hkStore_reads u (by rw [two.hkKind]; exact used) _ _)

theorem hkSingle_spec (s : State) (conv i c : Nat) : s.Converts (s.hkSingle conv i c) ∧
    (∀ j, j ≠ i → (s.hkSingle conv i c).hkVal j = s.hkVal j) ∧ (s.hkKind i ≠ 0 → HkReads s i c ((s.hkSingle conv i c).hkVal i)) := by
  have noted := hkResult_converts s conv i c
  have vals : ∀ j, (s.hkResult conv i c).hkVal j = s.hkVal j := fun _ => rfl
  unfold State.hkSingle
  generalize s.hkResult conv i c = u at *
  exact ⟨noted.trans (hkStore_converts ..), fun j other => by rw [hkStore_ne u other, vals],
    fun used => noted.reads (hkStore_reads u (by rw [noted.hkKind]; exact used) _ _)⟩

/-! ### The mark of a converter found implausible (R446) -/

/-- A value that may have been marked IMPLAUSIBLE. -/
def HkMarked (x y : HkValue) : Prop := y = x ∨ y = { x with bad := true }

theorem HkMarked.reads {s : State} {i code : Nat} {x y : HkValue} (h : HkMarked x y) (k : HkReads s i code x) : HkReads s i code y := by
  obtain ⟨value, code_, valid, round, below, above⟩ := k
  obtain rfl | rfl := h <;> exact ⟨value, code_, valid, round, below, above⟩

theorem HkMarked.same {x y : HkValue} (h : HkMarked x y) : y.value = x.value ∧ y.code = x.code := by
  obtain rfl | rfl := h <;> exact ⟨rfl, rfl⟩

theorem HkMarked.bad {x y : HkValue} (h : HkMarked x y) (bad : x.bad = true) : y.bad = true := by
  obtain rfl | rfl := h
  · exact bad
  · rfl

theorem HkMarked.trans {x y z : HkValue} (h : HkMarked x y) (k : HkMarked y z) : HkMarked x z := by
  obtain rfl | rfl := h
  · exact k
  · obtain rfl | rfl := k <;> exact .inr rfl

theorem HkMarked.both {s t u : State} {i a b : Nat} {was x y : HkValue} (h : HkMarked x y) (quiet : State.Unfired 0x60 t u)
    (k : HkBoth s i a b was x t) : HkBoth s i a b was y u := by
  unfold HkBoth at *
  split at k
  · rename_i apart
    obtain ⟨bad, ⟨value, code⟩, fired⟩ := k
    obtain ⟨sameValue, sameCode⟩ := h.same
    rw [if_pos apart]
    exact ⟨h.bad bad, ⟨sameValue.trans value, sameCode.trans code⟩, by rw [State.Fired, quiet, fired]⟩
  · rename_i close_
    rw [if_neg close_]
    exact h.reads k

theorem hkMark_spec (s : State) : s.Converts s.hkMark ∧ s.hkMark.faults = s.faults ∧ ∀ j, HkMarked (s.hkVal j) (s.hkMark.hkVal j) := by
  have marks : ∀ (rs : List (Nat × Nat)) (u : State),
      let t := rs.foldl (fun s r => if s.hk.badConv.contains r.1 then s.modHkVal r.2 fun x => { x with bad := true } else s) u
      u.Converts t ∧ t.faults = u.faults ∧ ∀ j, HkMarked (u.hkVal j) (t.hkVal j) := by
    intro rs
    induction rs with
    | nil => exact fun u => ⟨.refl u, rfl, fun j => .inl rfl⟩
    | cons r rs ih =>
      intro u
      rw [List.foldl_cons]
      split
      · obtain ⟨converts, faults, vals⟩ := ih (u.modHkVal r.2 fun x => { x with bad := true })
        refine ⟨(modHkVal_converts u r.2 _).trans converts, faults, fun j => .trans ?_ (vals j)⟩
        by_cases own : j = r.2
        · rw [own, hkVal_modHkVal]
          exact .inr rfl
        · rw [hkVal_modHkVal_ne u own]
          exact .inl rfl
      · exact ih u
  exact marks s.hk.results s

/-! ### The end of a conversion (R444 to R448, R459, R466) -/

/-- The state after an urgent conversion's results, before they are handed over. -/
def State.urgentTaken (s : State) (k : Nat) (u : Urgent) (a b : Nat) : State :=
  ((if u.paired then s.hkPaired k u.input a b else s.hkSingle (2 * k) u.input a).bumpBy 0x100B noInst 0 (if u.paired then 2 else 1)).hkMark

theorem urgentDone_taken (s : State) (k : Nat) (u : Urgent) (a b : Nat) : s.urgentDone k u a b =
    match u.for_ with
    | .mailbox mb => (s.urgentTaken k u a b).hkReply mb k u a b
    | .confirm z => (s.urgentTaken k u a b).thermConfirm z u.input a b := by
  unfold State.urgentDone
  rfl

/-- What the inputs hold after an urgent conversion. -/
structure UrgentReads (s t : State) (u : Urgent) (a b : Nat) : Prop where
  /-- Every other input. -/
  others : ∀ j, j ≠ u.input → (t.hkVal j).value = (s.hkVal j).value ∧ (t.hkVal j).code = (s.hkVal j).code
  /-- A pair's input. -/
  both : u.paired = true → s.hkKind u.input ≠ 0 → HkBoth s u.input a b (s.hkVal u.input) (t.hkVal u.input) t
  /-- A single one. -/
  single : ¬u.paired = true → s.hkKind u.input ≠ 0 → HkReads s u.input a (t.hkVal u.input)

theorem UrgentReads.judged {s t e : State} {u : Urgent} {a b : Nat} (h : UrgentReads s t u a b) (value : e.hk.value = t.hk.value)
    (quiet : State.Unfired 0x60 t e) : UrgentReads s e u a b := by
  have vals : ∀ j, e.hkVal j = t.hkVal j := fun j => by rw [State.hkVal, value, State.hkVal]
  refine ⟨fun j other => by rw [vals]; exact h.others j other, fun paired used => ?_, fun single used => by rw [vals]; exact h.single single used⟩
  rw [vals]
  exact (show HkMarked _ _ from .inl rfl).both quiet (h.both paired used)

theorem urgentTaken_spec (s : State) (k : Nat) (u : Urgent) (a b : Nat) :
    s.Converts (s.urgentTaken k u a b) ∧ UrgentReads s (s.urgentTaken k u a b) u a b := by
  unfold State.urgentTaken
  obtain ⟨paired, others, both⟩ := hkPaired_spec s k u.input a b
  obtain ⟨alone, rest, reads⟩ := hkSingle_spec s (2 * k) u.input a
  have taken : s.Converts (if u.paired then s.hkPaired k u.input a b else s.hkSingle (2 * k) u.input a) := ite_converts (fun _ => paired) fun _ => alone
  have given : UrgentReads s (if u.paired then s.hkPaired k u.input a b else s.hkSingle (2 * k) u.input a) u a b := by
    by_cases c : u.paired = true
    · rw [if_pos c]
      exact ⟨fun j other => by rw [others j other]; exact ⟨rfl, rfl⟩, fun _ => both, fun h => absurd c h⟩
    · rw [if_neg c]
      exact ⟨fun j other => by rw [rest j other]; exact ⟨rfl, rfl⟩, fun h => absurd h c, fun _ => reads⟩
  generalize (if u.paired then s.hkPaired k u.input a b else s.hkSingle (2 * k) u.input a) = v at *
  have counted := bumpBy_converts v 0x100B noInst 0 (if u.paired then 2 else 1)
  have same : (v.bumpBy 0x100B noInst 0 (if u.paired then 2 else 1)).hk = v.hk ∧
    (v.bumpBy 0x100B noInst 0 (if u.paired then 2 else 1)).faults = v.faults := ⟨rfl, rfl⟩
  generalize v.bumpBy 0x100B noInst 0 (if u.paired then 2 else 1) = w at *
  obtain ⟨marks, faults, vals⟩ := hkMark_spec w
  have quiet : State.Unfired 0x60 v w.hkMark := by rw [State.Unfired, faults, same.2]
  have marked : ∀ j, HkMarked (v.hkVal j) (w.hkMark.hkVal j) := fun j => by rw [State.hkVal, ← same.1, ← State.hkVal]; exact vals j
  refine ⟨(taken.trans counted).trans marks, fun j other => ?_, fun paired used => (marked _).both quiet (given.both paired used),
    fun single used => (marked _).reads (given.single single used)⟩
  obtain ⟨value, code⟩ := (marked j).same
  obtain ⟨sameValue, sameCode⟩ := given.others j other
  exact ⟨value.trans sameValue, code.trans sameCode⟩

theorem thermConfirm_judges (s : State) (z i a b : Nat) : s.Judges (s.thermConfirm z i a b) := by
  unfold State.thermConfirm
  exact ite_judges (fun _ => thermShut_judges ..) fun _ => .refl s

/-- The payload HK_CONVERT is answered with (R466). -/
def hkPayload (x : HkValue) (u : Urgent) (a b at_ : Nat) : Bytes :=
  leBytes 2 a ++ leBytes 2 (if u.paired then b else 0xFFFF) ++ leBytesI 2 x.value ++
    leBytes 1 (b2n x.valid + 2 * b2n x.bad + 4 * b2n x.below + 8 * b2n x.above) ++ [0] ++ leBytes 4 at_

theorem urgentDone_spec (s : State) (k : Nat) (u : Urgent) (a b : Nat) : UrgentReads s (s.urgentDone k u a b) u a b ∧
    ∀ mb q, u.for_ = .mailbox mb → (s.box mb).taken = some q →
      ((s.urgentDone k u a b).box mb).state = .done ∧ ((s.urgentDone k u a b).box mb).taken = none ∧
      ((s.urgentDone k u a b).box mb).waiting = .none ∧
      ((s.urgentDone k u a b).box mb).reply =
        replyBytes stOk q.seq s.twin.epoch (hkPayload ((s.urgentDone k u a b).hkVal u.input) u a b (s.hkPair k).convShort) := by
  rw [urgentDone_taken]
  obtain ⟨taken, reads⟩ := urgentTaken_spec s k u a b
  generalize s.urgentTaken k u a b = v at *
  cases for_ : u.for_ with
  | confirm z =>
    dsimp only
    have judges := thermConfirm_judges v z u.input a b
    exact ⟨reads.judged judges.value judges.quiet, fun mb q own => nomatch own⟩
  | mailbox mb =>
    dsimp only
    have pair : v.hkPair k = s.hkPair k := by rw [State.hkPair, taken.pair, State.hkPair]
    have answers : v.hkReply mb k u a b = v.reply mb stOk (hkPayload (v.hkVal u.input) u a b (v.hkPair k).convShort) := rfl
    rw [answers, pair]
    have last : Keeps 16 v (v.reply mb stOk (hkPayload (v.hkVal u.input) u a b (s.hkPair k).convShort)) := reply_hatch (by decide) (by decide) (.refl _ v)
    have value := congrArg HkUnit.value (last.hk (by decide))
    have val : ∀ j, (v.reply mb stOk (hkPayload (v.hkVal u.input) u a b (s.hkPair k).convShort)).hkVal j = v.hkVal j := fun j => by
      rw [State.hkVal, value, State.hkVal]
    refine ⟨reads.judged value (last.unfired (by decide)), fun mb' q own held => ?_⟩
    cases own
    have there : (v.box mb).taken = some q := by rw [taken.box]; exact held
    have replies := reply_replies there stOk (hkPayload (v.hkVal u.input) u a b (s.hkPair k).convShort)
    refine ⟨replies.done, replies.taken, ?_, ?_⟩
    · rw [reply_box there]
      rfl
    · rw [replies.reply, val, taken.twin]

/-- What the inputs hold after a sequence entry (R444, R445). -/
structure EntryReads (s t : State) (x : Bool × Nat × Nat) (a b : Nat) : Prop where
  /-- Every input that the entry does not name. -/
  others : ∀ j, j ≠ x.2.1 → j ≠ x.2.2 → (t.hkVal j).value = (s.hkVal j).value ∧ (t.hkVal j).code = (s.hkVal j).code
  /-- The input of a PAIRED entry. -/
  both : x.1 = true → s.hkKind x.2.1 ≠ 0 → HkBoth s x.2.1 a b (s.hkVal x.2.1) (t.hkVal x.2.1) t
  /-- The odd converter's input. -/
  odd : ¬x.1 = true → s.hkKind x.2.2 ≠ 0 → HkReads s x.2.2 b (t.hkVal x.2.2)
  /-- The even converter's input. -/
  even : ¬x.1 = true → x.2.1 ≠ x.2.2 → s.hkKind x.2.1 ≠ 0 → HkReads s x.2.1 a (t.hkVal x.2.1)

theorem EntryReads.judged {s t e : State} {x : Bool × Nat × Nat} {a b : Nat} (h : EntryReads s t x a b) (value : e.hk.value = t.hk.value)
    (quiet : State.Unfired 0x60 t e) : EntryReads s e x a b := by
  have vals : ∀ j, e.hkVal j = t.hkVal j := fun j => by rw [State.hkVal, value, State.hkVal]
  refine ⟨fun j even odd => by rw [vals]; exact h.others j even odd, fun paired used => ?_, fun c used => by rw [vals]; exact h.odd c used,
    fun c apart used => by rw [vals]; exact h.even c apart used⟩
  rw [vals]
  exact (show HkMarked _ _ from .inl rfl).both quiet (h.both paired used)

theorem entryDone_spec (s : State) (k i a b : Nat) : EntryReads s (s.entryDone k i a b) (s.hkEntry k i) a b := by
  unfold State.entryDone
  dsimp only
  generalize s.hkEntry k i = x
  obtain ⟨paired, odd, both⟩ := hkPaired_spec s k x.2.1 a b
  obtain ⟨first, firstRest, firstReads⟩ := hkSingle_spec s (2 * k) x.2.1 a
  obtain ⟨second, secondRest, secondReads⟩ := hkSingle_spec (s.hkSingle (2 * k) x.2.1 a) (2 * k + 1) x.2.2 b
  have given : EntryReads s (if x.1 then s.hkPaired k x.2.1 a b else (s.hkSingle (2 * k) x.2.1 a).hkSingle (2 * k + 1) x.2.2 b) x a b := by
    by_cases c : x.1 = true
    · rw [if_pos c]
      exact ⟨fun j other _ => by rw [odd j other]; exact ⟨rfl, rfl⟩, fun _ => both, fun h => absurd c h, fun h => absurd c h⟩
    · rw [if_neg c]
      refine ⟨fun j notEven notOdd => by rw [secondRest j notOdd, firstRest j notEven]; exact ⟨rfl, rfl⟩, fun h => absurd h c,
        fun _ used => first.reads (secondReads (by rw [first.hkKind]; exact used)), fun _ apart used => ?_⟩
      rw [secondRest _ apart]
      exact firstReads used
  generalize (if x.1 then s.hkPaired k x.2.1 a b else (s.hkSingle (2 * k) x.2.1 a).hkSingle (2 * k + 1) x.2.2 b) = v at *
  have same : (v.bumpBy 0x100B noInst 0 2).hk = v.hk ∧ (v.bumpBy 0x100B noInst 0 2).faults = v.faults := ⟨rfl, rfl⟩
  generalize v.bumpBy 0x100B noInst 0 2 = w at *
  obtain ⟨marks, faults, vals⟩ := hkMark_spec w
  have quiet : State.Unfired 0x60 v w.hkMark := by rw [State.Unfired, faults, same.2]
  have marked : ∀ j, HkMarked (v.hkVal j) (w.hkMark.hkVal j) := fun j => by rw [State.hkVal, ← same.1, ← State.hkVal]; exact vals j
  have ends : EntryReads s w.hkMark x a b := by
    refine ⟨fun j even odd => ?_, fun paired used => (marked _).both quiet (given.both paired used), fun c used => (marked _).reads (given.odd c used),
      fun c apart used => (marked _).reads (given.even c apart used)⟩
    obtain ⟨value, code⟩ := (marked j).same
    obtain ⟨sameValue, sameCode⟩ := given.others j even odd
    exact ⟨value.trans sameValue, code.trans sameCode⟩
  exact ends.judged rfl rfl

/-- The parts a housekeeping step can change. -/
abbrev hkParts : List Part := [.freeCount, .todo, .hatch, .notif, .par, .faults, .twin, .pantry, .links, .mod, .prot, .dt, .hk]

/-- The pair's conversion has ended: nothing is converted. -/
def State.convEnds (s : State) (k : Nat) : State := s.modPair k fun p => { p with conv := none, idleFrom := s.mono }

theorem convEnds_judges (s : State) (k : Nat) : s.Judges (s.convEnds k) := modPair_judges s k _

theorem HkBoth.congr {s u t : State} (eff : u.par.eff = s.par.eff) (rounds : u.hk.rounds = s.hk.rounds) (faults : u.faults = s.faults)
    {i a b : Nat} {was x : HkValue} (h : HkBoth u i a b was x t) : HkBoth s i a b was x t := by
  unfold HkBoth at *
  rw [p0_congr eff] at h
  split at h
  · rename_i apart
    rw [if_pos apart]
    exact ⟨h.1, h.2.1, h.2.2.from (by rw [faults])⟩
  · rename_i close_
    rw [if_neg close_]
    exact h.congr eff rounds

theorem HkReads.stated {s : State} {i code : Nat} {x : HkValue} (h : HkReads s i code x) : x.value = s.hkConvert i code ∧ x.code = code ∧
    x.valid = true ∧ x.round = s.hk.rounds % 2 ^ 16 ∧ x.below = decide (s.hkConvert i code < s.ps 0x1002 i 6 2) ∧
    x.above = decide (s.ps 0x1002 i 8 2 < s.hkConvert i code) := ⟨h.value, h.codes, h.valid, h.round, h.below, h.above⟩

theorem HkBoth.stated {s t : State} {i a b : Nat} {was x : HkValue} (h : HkBoth s i a b was x t) :
    if s.p0 0x1006 < ((a : Int) - b).natAbs then x.bad = true ∧ (x.value = was.value ∧ x.code = was.code) ∧ s.Fired t 0x60
    else s.hkKind i ≠ 0 → x.value = s.hkConvert i ((a + b) / 2) ∧ x.code = (a + b) / 2 ∧ x.valid = true ∧ x.round = s.hk.rounds % 2 ^ 16 ∧
      x.below = decide (s.hkConvert i ((a + b) / 2) < s.ps 0x1002 i 6 2) ∧ x.above = decide (s.ps 0x1002 i 8 2 < s.hkConvert i ((a + b) / 2)) := by
  unfold HkBoth at h
  split at h
  · rename_i apart
    rwa [if_pos apart]
  · rename_i close_
    rw [if_neg close_]
    exact fun _ => h.stated

theorem adcConversionDone_lands {s : State} (pair : Fin 2) (codeE codeO : BitVec 12) {c : HkConv} (conv : (s.hkPair pair).conv = some c)
    (due : (s.hkPair pair).convAt + 1980 ≤ s.mono) : Lands (exec (.adcConversionDone pair codeE codeO) s) fun e =>
      let holds := fun (i code : Nat) => s.hkKind i ≠ 0 → (e.hkVal i).value = s.hkConvert i code ∧ (e.hkVal i).code = code ∧
        (e.hkVal i).valid = true ∧ (e.hkVal i).round = s.hk.rounds % 2 ^ 16 ∧
        (e.hkVal i).below = decide (s.hkConvert i code < s.ps 0x1002 i 6 2) ∧
        (e.hkVal i).above = decide (s.ps 0x1002 i 8 2 < s.hkConvert i code)
      let same := fun (i : Nat) => (e.hkVal i).value = (s.hkVal i).value ∧ (e.hkVal i).code = (s.hkVal i).code
      let both := fun (i : Nat) => s.hkKind i ≠ 0 →
        if s.p0 0x1006 < ((codeE.toNat : Int) - codeO.toNat).natAbs then (e.hkVal i).bad = true ∧ same i ∧ s.Fired e 0x60
        else holds i ((codeE.toNat + codeO.toNat) / 2)
      Only hkParts s e ∧
      (∀ u, c = .urgent u → (∀ j, j ≠ u.input → same j) ∧ (if u.paired = true then both u.input else holds u.input codeE.toNat) ∧
        ∀ mb q, u.for_ = .mailbox mb → (s.box mb).taken = some q →
          let x := e.hkVal u.input
          (e.box mb).state = .done ∧ (e.box mb).taken = none ∧ (e.box mb).reply = replyBytes stOk q.seq s.twin.epoch
            (leBytes 2 codeE.toNat ++ leBytes 2 (if u.paired then codeO.toNat else 0xFFFF) ++ leBytesI 2 x.value ++
              leBytes 1 (b2n x.valid + 2 * b2n x.bad + 4 * b2n x.below + 8 * b2n x.above) ++ [0] ++ leBytes 4 (s.hkPair pair).convShort)) ∧
      (∀ i, c = .seq i →
        let x := s.hkEntry pair i
        (∀ j, j ≠ x.2.1 → j ≠ x.2.2 → same j) ∧
        if x.1 = true then both x.2.1 else holds x.2.2 codeO.toNat ∧ (x.2.1 ≠ x.2.2 → holds x.2.1 codeE.toNat)) := by
  have run : exec (.adcConversionDone pair codeE codeO) s = State.done (((match c with
      | .seq i => (s.convEnds pair).entryDone pair i codeE.toNat codeO.toNat
      | .urgent u => (s.convEnds pair).urgentDone pair u codeE.toNat codeO.toNat).hkNext pair).hkTryEval) := by
    change execAdcConversionDone pair codeE codeO s = _
    rw [execAdcConversionDone, conv]
    exact if_neg (by rw [elapsed_of_le due]; decide)
  generalize codeE.toNat = a at *
  generalize codeO.toNat = b at *
  have ended := convEnds_judges s pair
  have keeps : Keeps 5187836 s (s.convEnds pair) := modPair_keeps (by decide) (.refl _ s)
  have eff : (s.convEnds pair).par.eff = s.par.eff := rfl
  have faults : (s.convEnds pair).faults = s.faults := rfl
  have twin : (s.convEnds pair).twin = s.twin := rfl
  have box : ∀ n, (s.convEnds pair).box n = s.box n := fun _ => rfl
  have at_ : ((s.convEnds pair).hkPair pair).convShort = (s.hkPair pair).convShort := by rw [State.convEnds, hkPair_modPair]
  have entry : ∀ i, (s.convEnds pair).hkEntry pair i = s.hkEntry pair i := fun _ => rfl
  generalize s.convEnds pair = v at *
  have val : ∀ j, v.hkVal j = s.hkVal j := fun j => by rw [State.hkVal, ended.value, State.hkVal]
  have kind : ∀ j, v.hkKind j = s.hkKind j := fun j => pu_congr eff ..
  have after : ∀ t : State, t.Judges ((t.hkNext pair).hkTryEval) := fun t => (hkNext_judges t pair).trans (hkTryEval_judges _)
  have part : ∀ t : State, Keeps 5187836 v t → Only hkParts s ((t.hkNext pair).hkTryEval) := fun t h => only_of
    (hkTryEval_keeps (by decide) (hkNext_keeps (by decide) (keeps.trans h)))
  cases c with
  | urgent u =>
    refine ⟨_, run, ?_⟩
    dsimp only
    obtain ⟨reads, answers⟩ := urgentDone_spec v pair u a b
    have some_ := part _ (urgentDone_keeps (a1 := pair) (a2 := u) (a3 := a) (a4 := b) (by decide) (.refl _ v))
    generalize v.urgentDone pair u a b = t at *
    have judged := after t
    have last := reads.judged judged.value judged.quiet
    generalize (t.hkNext pair).hkTryEval = e at *
    refine ⟨some_, fun u' own => ?_, fun i own => (nomatch own)⟩
    cases own
    refine ⟨fun j other => ?_, ?_, fun mb q for_ held => ?_⟩
    · rw [← val]; exact last.others j other
    · split
      · rename_i paired
        exact fun used => (val _ ▸ (last.both paired (by rw [kind]; exact used)).congr eff ended.rounds faults).stated
      · rename_i single
        exact fun used => ((last.single single (by rw [kind]; exact used)).congr eff ended.rounds).stated
    · obtain ⟨done, taken, waits, reply⟩ := answers mb q for_ (by rw [box]; exact held)
      have valT : e.hkVal u.input = t.hkVal u.input := by rw [State.hkVal, judged.value, State.hkVal]
      rw [judged.box mb waits, valT]
      refine ⟨done, taken, ?_⟩
      rw [reply, at_, twin]
      rfl
  | seq i =>
    refine ⟨_, run, ?_⟩
    dsimp only
    have reads := entryDone_spec v pair i a b
    have some_ := part _ (entryDone_keeps (a1 := pair) (a2 := i) (a3 := a) (a4 := b) (by decide) (.refl _ v))
    rw [entry] at reads
    generalize v.entryDone pair i a b = t at *
    have judged := after t
    have last := reads.judged judged.value judged.quiet
    generalize (t.hkNext pair).hkTryEval = e at *
    refine ⟨some_, fun u own => (nomatch own), fun i' own => ?_⟩
    cases own
    generalize s.hkEntry pair i = x at *
    refine ⟨fun j even odd => ?_, ?_⟩
    · rw [← val]; exact last.others j even odd
    · split
      · rename_i paired
        exact fun used => (val _ ▸ (last.both paired (by rw [kind]; exact used)).congr eff ended.rounds faults).stated
      · rename_i single
        exact ⟨fun used => ((last.odd single (by rw [kind]; exact used)).congr eff ended.rounds).stated,
          fun apart used => ((last.even single apart (by rw [kind]; exact used)).congr eff ended.rounds).stated⟩

/-! ### A round's start (R444, R450) -/

theorem capture_pu_ne (s : State) {id inst id' inst' : Nat} (other : pKey id' inst' ≠ pKey id inst) (off n : Nat) :
    (s.capture id inst).pu id' inst' off n = s.pu id' inst' off n := by
  unfold State.capture
  split
  · rw [State.pu, State.peff, updPar_par, Tab.get?_set_ne _ other]
    rfl
  · rfl

theorem ranHas_ranAdd (n : Nat) {l : List (Nat × Nat)} (spans : ∀ x ∈ l, x.1 ≤ x.2) : ranHas n (ranAdd n l) = true := by
  induction l with
  | nil => simp [ranAdd, ranHas]
  | cons x l ih =>
    obtain ⟨a, b⟩ := x
    have first : a ≤ b := spans (a, b) List.mem_cons_self
    unfold ranAdd
    split
    · rename_i next
      have upTo : a ≤ n := by omega
      simp [ranHas, upTo]
    · have rest := ih fun x mem => spans x (List.mem_cons_of_mem _ mem)
      unfold ranHas at *
      rw [List.any_cons, rest, Bool.or_true]

/-- A pair takes up work: no more of housekeeping changes than the pairs, and of these not what their sequences do next. -/
structure State.PairOnly (s t : State) : Prop where
  /-- Housekeeping beside its pairs. -/
  hk : { t.hk with pair := s.hk.pair } = s.hk
  /-- The sequences. -/
  next : ∀ j, (t.hkPair j).next = (s.hkPair j).next

theorem State.PairOnly.refl (s : State) : s.PairOnly s := ⟨rfl, fun _ => rfl⟩

theorem modPair_pairOnly (s : State) (k : Nat) {f : HkPair → HkPair} (next : ∀ p, (f p).next = p.next) : s.PairOnly (s.modPair k f) := by
  refine ⟨rfl, fun j => ?_⟩
  by_cases own : j = k
  · rw [own, hkPair_modPair, next]
  · rw [hkPair_modPair_ne s own]

theorem State.PairOnly.trans {s t u : State} (h : s.PairOnly t) (k : t.PairOnly u) : s.PairOnly u := by
  refine ⟨?_, fun j => (k.next j).trans (h.next j)⟩
  have second := k.hk
  have first := h.hk
  rw [← first, ← second]

theorem bump_pairOnly (s : State) (id inst field : Nat) : s.PairOnly (s.bump id inst field) := ⟨rfl, fun _ => rfl⟩

theorem hkStart_pairOnly (s : State) (k : Nat) (c : HkConv) : s.PairOnly (s.hkStart k c) := modPair_pairOnly s k fun _ => rfl

theorem hkNext_pairOnly (s : State) (k : Nat) : s.PairOnly (s.hkNext k) := by
  have urgent : ∀ r c, s.PairOnly ((s.modPair k fun p => { p with urgent := r }).hkStart k c) := fun r c => by
    refine State.PairOnly.trans ?_ (hkStart_pairOnly _ k c)
    exact modPair_pairOnly s k fun _ => rfl
  unfold State.hkNext
  dsimp only
  split
  · exact .refl s
  split
  · exact .refl s
  split
  · split
    · exact .refl s
    · refine State.PairOnly.trans ?_ (bump_pairOnly ..)
      exact modPair_pairOnly s k fun _ => rfl
  split
  · exact urgent _ _
  · split
    · exact urgent _ _
    · exact hkStart_pairOnly ..
  · exact hkStart_pairOnly ..
  · exact .refl s

/-- What a restart of a pair's sequence leaves, and where the sequence goes on (R444). -/
theorem hkRestart_spec (s : State) (k : Nat) : { (s.hkRestart k).hk with pair := s.hk.pair } = s.hk ∧
    ((s.hkRestart k).hkPair k).next = (if s.pu 0x1003 k 0 1 = 0 then none else some 0) ∧
    ∀ j, j ≠ k → ((s.hkRestart k).hkPair j).next = (s.hkPair j).next := by
  unfold State.hkRestart
  generalize hu : State.modPair s k _ = u
  have pairOnly := hkNext_pairOnly u k
  have own : (u.hkPair k).next = (if s.pu 0x1003 k 0 1 = 0 then none else some 0) := by rw [← hu, hkPair_modPair]
  have others : ∀ j, j ≠ k → u.hkPair j = s.hkPair j := fun j other => by rw [← hu, hkPair_modPair_ne s other]
  have same : { u.hk with pair := s.hk.pair } = s.hk := by rw [← hu]; rfl
  refine ⟨?_, (pairOnly.next k).trans own, fun j other => by rw [pairOnly.next, others j other]⟩
  have rest := pairOnly.hk
  rw [← same, ← rest]

theorem hkRestart_judges (s : State) (k : Nat) : s.Judges (s.hkRestart k) := by
  unfold State.hkRestart
  exact (modPair_judges s k _).trans (hkNext_judges _ k)

/-- The round's state with the sequences and the zones' configuration taken up. -/
def State.hkAdopt (s : State) : State :=
  (List.range 16).foldl (fun s z => s.capture 0x1101 z) ((List.range 2).foldl (fun s k => s.capture 0x1003 k) s)

theorem hkAdopt_keeps {M : Nat} {s t : State} (hM : Sub 64 M) (h : Keeps M s t) : Keeps M s t.hkAdopt :=
  keeps_foldl (keeps_foldl h fun _ _ => capture_keeps hM) fun _ _ => capture_keeps hM

theorem hkAdopt_pu (s : State) : s.hkAdopt.pu 0x1003 0 0 1 = (s.capture 0x1003 0).pu 0x1003 0 0 1 := by
  have zones : ∀ (zs : List Nat) (u : State), (zs.foldl (fun s z => s.capture 0x1101 z) u).pu 0x1003 0 0 1 = u.pu 0x1003 0 0 1 := fun zs u =>
    foldl_view (fun s : State => s.pu 0x1003 0 0 1) (fun s z => capture_pu_ne s (by unfold pKey; omega) 0 1) zs u
  rw [State.hkAdopt, zones]
  exact capture_pu_ne (s.capture 0x1003 0) (by decide) 0 1

/-- The round begun, before its sequences start. -/
def State.hkOpen (s : State) (n : Nat) : State := s.hkAdopt.updHk fun h =>
  { h with rounds := (h.rounds + 1) % 2 ^ 32, ran := ranAdd n h.ran, roundAt := s.mono, open_ := true, publish := false,
           badConv := [], results := [] }

theorem hkRoundStart_open (s : State) (n : Nat) : s.hkRoundStart n = (((s.hkOpen n).hkRestart 0).hkRestart 1).hkTryEval := by
  have mono : s.hkAdopt.mono = s.mono := (hkAdopt_keeps (M := 64) (by decide) (.refl _ s)).mono (by decide)
  unfold State.hkRoundStart State.hkOpen
  rw [← mono]
  rfl

theorem hkOpen_hk (s : State) (n : Nat) : (s.hkOpen n).hk =
    { s.hk with rounds := (s.hk.rounds + 1) % 2 ^ 32, ran := ranAdd n s.hk.ran, roundAt := s.mono, open_ := true, publish := false,
                badConv := [], results := [] } := by
  have hk := (hkAdopt_keeps (M := 64) (by decide) (.refl _ s)).hk (by decide)
  unfold State.hkOpen
  rw [updHk_hk, hk]

theorem hkOpen_keeps (s : State) (n : Nat) : Keeps 4194368 s (s.hkOpen n) := by
  unfold State.hkOpen
  exact updHk_keeps (by decide) (hkAdopt_keeps (by decide) (.refl _ s))

theorem hkOpen_par (s : State) (n : Nat) : (s.hkOpen n).par = s.hkAdopt.par := by
  unfold State.hkOpen
  rw [updHk_par]

theorem hkRound_lands {s : State} (up : s.sys.stage ≠ .inReset) (new : ranHas (s.now / 80000000) s.hk.ran = false) :
    Lands (exec .hkRound s) fun e => Only hkParts s e ∧
      e.hk.rounds = (s.hk.rounds + 1) % 2 ^ 32 ∧ e.hk.roundAt = s.mono ∧
      ((∀ x ∈ s.hk.ran, x.1 ≤ x.2) → ranHas (s.now / 80000000) e.hk.ran = true) ∧
      ((s.capture 0x1003 0).pu 0x1003 0 0 1 ≠ 0 → Only [.par, .hk] s e ∧ e.hk.open_ = true ∧ (e.hkPair 0).next = some 0 ∧
        e.hk.value = s.hk.value ∧ e.hk.zone = s.hk.zone ∧ e.hk.recs = s.hk.recs) := by
  have run : exec .hkRound s = (s.hkRoundStart (s.now / 80000000)).done := if_neg (not_or.2 ⟨up, by rw [new]; decide⟩)
  generalize s.now / 80000000 = n at *
  refine ⟨_, run, only_of (hkRoundStart_keeps (by decide) (.refl _ s)), ?_⟩
  rw [hkRoundStart_open]
  have begun := hkOpen_hk s n
  have keeps := hkOpen_keeps s n
  have length : (s.hkOpen n).pu 0x1003 0 0 1 = (s.capture 0x1003 0).pu 0x1003 0 0 1 :=
    (pu_congr (congrArg Params.eff (hkOpen_par s n)) ..).trans (hkAdopt_pu s)
  generalize s.hkOpen n = u at *
  obtain ⟨first, next, -⟩ := hkRestart_spec u 0
  have restarts := (hkRestart_judges u 0).trans (hkRestart_judges (u.hkRestart 0) 1)
  have part : Keeps 4194368 s ((u.hkRestart 0).hkRestart 1) := hkRestart_keeps (by decide) (hkRestart_keeps (by decide) keeps)
  obtain ⟨second, -, others⟩ := hkRestart_spec (u.hkRestart 0) 1
  generalize u.hkRestart 0 = v at *
  generalize v.hkRestart 1 = w at *
  have judged := restarts.trans (hkTryEval_judges w)
  refine ⟨by rw [judged.rounds, begun], by rw [judged.roundAt, begun], fun spans => ?_, fun some_ => ?_⟩
  · rw [judged.ran, begun]
    exact ranHas_ranAdd n spans
  · rw [length, if_neg some_] at next
    have goesOn : (w.hkPair 0).next = some 0 := (others 0 (by decide)).trans next
    have same : { w.hk with pair := u.hk.pair } = u.hk := by
      have rest := second
      rw [← first, ← rest]
    have open_ : w.hk.open_ = true := by
      have := congrArg HkUnit.open_ same
      rw [begun] at this
      exact this
    have publish : w.hk.publish = false := by
      have := congrArg HkUnit.publish same
      rw [begun] at this
      exact this
    have waits : w.hkTryEval = w := by
      unfold State.hkTryEval State.hkTryPublish HkPair.ended
      rw [goesOn, publish, if_neg (by simp), if_neg (by simp)]
    rw [waits]
    refine ⟨only_of part, open_, goesOn, restarts.value.trans (by rw [begun]), ?_, ?_⟩
    · have zone := congrArg HkUnit.zone same
      rw [begun] at zone
      exact zone
    · have recs := congrArg HkUnit.recs same
      rw [begun] at recs
      exact recs

/-! ### Sleep, wakes and fans (R447, R453) -/

theorem hkPairSleep_next {s : State} (pair : Fin 2) (awake : (s.hkPair pair).awake = true) (conv : (s.hkPair pair).conv = none)
    (next : (s.hkPair pair).next = none) (urgent : (s.hkPair pair).urgent = []) (idle : (s.hkPair pair).idleFrom + 16000 < s.mono) :
    Next (exec (.hkPairSleep pair) s) fun t =>
      Only [.hk] s t ∧ t.hkPair pair = { s.hkPair pair with awake := false } ∧ ∀ k, k ≠ pair.val → t.hkPair k = s.hkPair k :=
  ⟨_, if_pos ⟨awake, conv, next, urgent, idle⟩, only_of (modPair_keeps (by decide) (.refl _ s)), hkPair_modPair s pair _,
    fun _ other => hkPair_modPair_ne s other _⟩

/-- What an awake pair takes up next, and what of it changes (R448). -/
theorem hkNext_awake {s : State} {k : Nat} (awake : (s.hkPair k).awake = true) :
    Only [.hk] s (s.hkNext k) ∧
    ((s.hkPair k).conv.isSome = true ∨ ((s.hkPair k).urgent = [] ∧ (s.hkPair k).next = none) → s.hkNext k = s) ∧
    ((s.hkPair k).conv = none →
      (∀ u r, (s.hkPair k).urgent = u :: r → (s.hkPair k).next = none ∨ (s.hkPair k).interrupts < 4 →
        s.hkNext k = (s.modPair k fun p => { p with urgent := r }).hkStart k (.urgent u)) ∧
      (∀ i, (s.hkPair k).next = some i → (s.hkPair k).urgent = [] ∨ 4 ≤ (s.hkPair k).interrupts → s.hkNext k = s.hkStart k (.seq i))) := by
  unfold State.hkNext
  dsimp only
  generalize s.hkPair k = p at *
  obtain ⟨awake', wakeFrom, idleFrom, conv, convAt, convShort, next, interrupts, urgent⟩ := p
  obtain rfl : awake' = true := awake
  dsimp only
  have urgents : ∀ r c, Only [.hk] s ((s.modPair k fun p => { p with urgent := r }).hkStart k c) := fun r c =>
    only_of (hkStart_keeps (by decide) (modPair_keeps (by decide) (.refl _ s)))
  have starts : ∀ c, Only [.hk] s (s.hkStart k c) := fun c => only_of (hkStart_keeps (by decide) (.refl _ s))
  cases conv with
  | some c => exact ⟨only_of (.refl _ s), fun _ => rfl, fun h => (nomatch h)⟩
  | none =>
    cases urgent with
    | nil =>
      cases next with
      | none => exact ⟨only_of (.refl _ s), fun _ => rfl, fun _ => ⟨fun _ _ h => (nomatch h), fun _ h => (nomatch h)⟩⟩
      | some i =>
        exact ⟨starts _, fun h => (by simp at h), fun _ => ⟨fun _ _ h => (nomatch h), fun j h _ => by cases h; rfl⟩⟩
    | cons u r =>
      cases next with
      | none => exact ⟨urgents _ _, fun h => (by simp at h), fun _ => ⟨fun _ _ h _ => by cases h; rfl, fun _ h => (nomatch h)⟩⟩
      | some i =>
        by_cases few : interrupts < 4
        · refine ⟨?_, fun h => (by simp at h), fun _ => ⟨fun _ _ h _ => ?_, fun _ _ h => ?_⟩⟩
          · simpa [few] using urgents r (.urgent u)
          · cases h
            simp [few]
          · simp at h
            omega
        · refine ⟨?_, fun h => (by simp at h), fun _ => ⟨fun _ _ _ h => ?_, fun _ h _ => ?_⟩⟩
          · simpa [few] using starts (.seq i)
          · simp [few] at h
          · cases h
            simp [few]

theorem hkWakeDone_lands {s : State} (pair : Fin 2) {t : Nat} (from_ : (s.hkPair pair).wakeFrom = some t) (due : t + 3980 ≤ s.mono) :
    Lands (exec (.hkWakeDone pair) s) fun e =>
      Only [.hk] s e ∧ (∀ k, k ≠ pair.val → e.hkPair k = s.hkPair k) ∧
      let p : HkPair := { s.hkPair pair with awake := true, wakeFrom := none, idleFrom := s.mono }
      let starts := fun (p : HkPair) (c : HkConv) => e.hkPair pair = { p with conv := some c, convAt := s.mono, convShort := s.shortNow }
      (p.conv.isSome = true ∨ (p.urgent = [] ∧ p.next = none) → e.hkPair pair = p) ∧
      (p.conv = none →
        (∀ u r, p.urgent = u :: r → p.next = none ∨ p.interrupts < 4 → starts { p with urgent := r } (.urgent u)) ∧
        (∀ i, p.next = some i → p.urgent = [] ∨ 4 ≤ p.interrupts → starts p (.seq i))) := by
  have run : exec (.hkWakeDone pair) s =
      ((s.modPair pair fun p => { p with awake := true, wakeFrom := none, idleFrom := s.mono }).hkNext pair).done := by
    change execHkWakeDone pair s = _
    rw [execHkWakeDone, from_]
    exact if_pos (elapsed_of_le due)
  have own := hkPair_modPair s pair fun p => { p with awake := true, wakeFrom := none, idleFrom := s.mono }
  have others : ∀ k, k ≠ pair.val → (s.modPair pair fun p => { p with awake := true, wakeFrom := none, idleFrom := s.mono }).hkPair k = s.hkPair k :=
    fun _ other => hkPair_modPair_ne s other _
  have keeps : Only [.hk] s (s.modPair pair fun p => { p with awake := true, wakeFrom := none, idleFrom := s.mono }) :=
    only_of (modPair_keeps (by decide) (.refl _ s))
  have mono : (s.modPair pair fun p => { p with awake := true, wakeFrom := none, idleFrom := s.mono }).mono = s.mono := rfl
  have short : (s.modPair pair fun p => { p with awake := true, wakeFrom := none, idleFrom := s.mono }).shortNow = s.shortNow := rfl
  generalize s.modPair pair _ = u at *
  obtain ⟨part, stays, takes⟩ := hkNext_awake (s := u) (k := pair) (by rw [own])
  have rest := (hkNext_spec u pair).1
  rw [own] at stays takes
  refine ⟨_, run, (keeps.trans part).mono (by decide), fun k other => (rest k other).trans (others k other), fun h => by rw [stays h, own], fun idle => ?_⟩
  obtain ⟨urgent, seq⟩ := takes idle
  refine ⟨fun v r list may => ?_, fun i next may => ?_⟩
  · dsimp only
    have sameMono : (u.modPair pair fun p => { p with urgent := r }).mono = s.mono := mono
    have sameShort : (u.modPair pair fun p => { p with urgent := r }).shortNow = s.shortNow := short
    rw [urgent v r list may, hkStart_pair, hkPair_modPair, own, sameMono, sameShort]
  · dsimp only
    rw [seq i next may, hkStart_pair, own, mono, short]

theorem fanTachEdge_next (s : State) (fan : Fin 4) : Next (exec (.fanTachEdge fan) s) fun u =>
    Only [.hk] s u ∧ (∀ f, f ≠ fan.val → u.hk.fan.get {} f = s.hk.fan.get {} f) ∧ (u.hk.fan.get {} fan).at_ = some s.mono ∧
    (u.hk.fan.get {} fan).low = (s.hk.fan.get {} fan).low ∧
    ((s.hk.fan.get {} fan).at_ = none → (u.hk.fan.get {} fan).rpm = (s.hk.fan.get {} fan).rpm) ∧
    ∀ t, (s.hk.fan.get {} fan).at_ = some t →
      (u.hk.fan.get {} fan).rpm = min 65535 (480000000000 / max 1 ((s.mono - t) * max 1 (s.pu 0x1007 fan 0 1))) := by
  refine ⟨_, rfl, only_of (updHk_keeps (by decide) (.refl _ s)), fun f other => ?_, ?_⟩
  · rw [updHk_hk, Tab.get_set_ne _ _ other]
  rw [updHk_hk, Tab.get_set]
  refine ⟨rfl, rfl, fun none_ => ?_, fun t some_ => ?_⟩
  · rw [none_]
  · rw [some_]
    exact satN_eq_min 16 _

theorem fanPulseTimeout_next {s : State} (fan : Fin 4) {t : Nat} (from_ : (s.hk.fan.get {} fan).at_ = some t) (due : t + 8000000000 ≤ s.mono) :
    Next (exec (.fanPulseTimeout fan) s) fun u => Only [.hk] s u ∧ (∀ f, f ≠ fan.val → u.hk.fan.get {} f = s.hk.fan.get {} f) ∧
      u.hk.fan.get {} fan = { s.hk.fan.get {} fan with at_ := none, rpm := 0 } := by
  have run : exec (.fanPulseTimeout fan) s =
      .next (s.updHk fun h => { h with fan := h.fan.set fan { s.hk.fan.get {} fan with at_ := none, rpm := 0 } }) := by
    change execFanPulseTimeout fan s = _
    rw [execFanPulseTimeout, from_]
    exact if_pos (elapsed_of_le due)
  refine ⟨_, run, only_of (updHk_keeps (by decide) (.refl _ s)), fun f other => ?_, ?_⟩
  · rw [updHk_hk, Tab.get_set_ne _ _ other]
  · rw [updHk_hk, Tab.get_set]

/-- Settles O43: what a conversion gives its inputs stands at the end of the step, for the evaluation of a round leaves the values alone. -/
theorem housekeeping : Obligations.Housekeeping := by
  unfold Obligations.Housekeeping
  refine fun s => ⟨hkRound_lands, fun h => ?_, fun pair codeE codeO => ⟨fun c => adcConversionDone_lands pair codeE codeO, fun h => ?_⟩,
    hkPairSleep_next, fun pair t => hkWakeDone_lands pair, fun fan => ⟨fanTachEdge_next s fan, fun t => fanPulseTimeout_next fan⟩⟩
  · exact if_pos h
  · change execAdcConversionDone pair codeE codeO s = _
    unfold execAdcConversionDone
    dsimp only
    cases conv : (s.hkPair pair).conv with
    | none => rfl
    | some c =>
      obtain none_ | early := h
      · exact nomatch conv.symm.trans none_
      · exact if_pos (decide_eq_false (by omega))

end Sys2Proof.Machine
end

section
/-!
PROOFS. Energy accounting (R555 to R562, R565). What a step does to one port is said once; a fold over the ports then does it to each, for none of
them changes what the next one reads.
-/

namespace Sys2Proof.Machine

open Host

/-! ### Folds over the ports -/

/-- A fold of a step that changes a view of one port alone, by what the step leaves alone. -/
theorem foldl_port {β : Type} (v : EnPort → β) {f : State → Nat → State} {g : State → Nat → β → β}
    (own : ∀ s n, v ((f s n).enPort n) = g s n (v (s.enPort n))) (others : ∀ s n m, m ≠ n → v ((f s n).enPort m) = v (s.enPort m))
    (stable : ∀ s n m, g (f s n) m = g s m) {ls : List Nat} (nodup : ls.Nodup) (s : State) (m : Nat) :
    v ((ls.foldl f s).enPort m) = if m ∈ ls then g s m (v (s.enPort m)) else v (s.enPort m) := by
  induction ls generalizing s with
  | nil => rw [List.foldl_nil, if_neg List.not_mem_nil]
  | cons a ls ih =>
    obtain ⟨notIn, rest⟩ := List.nodup_cons.1 nodup
    rw [List.foldl_cons, ih rest, stable]
    by_cases here : m = a
    · subst here
      rw [if_neg notIn, if_pos List.mem_cons_self, own]
    · rw [others s a m here]
      simp only [List.mem_cons, here, false_or]

/-! ### Copies (R555) -/

theorem copyDue_iff (s : State) : s.copyDue = true ↔ ∀ t, s.en.copyAt = some t → t + 720000000 ≤ s.mono := by
  unfold State.copyDue
  cases s.en.copyAt with
  | none => exact ⟨fun _ t h => (nomatch h), fun _ => rfl⟩
  | some t => exact ⟨fun due _ h => by cases h; exact of_decide_eq_true due, fun due => elapsed_of_le (due t rfl)⟩

theorem energyCopyPeriod_next {s : State} (due : s.sys.stage = .serving ∧ ∀ t, s.en.copyAt = some t → t + 720000000 ≤ s.mono) :
    Next (exec .energyCopyPeriod s) fun t => Only [.en] s t ∧ t.en.port = s.en.port ∧ t.en.copyAt = some s.mono ∧
      ∃ c, t.en.copies = c :: s.en.copies.take 1 ∧
        c.port.cells = s.en.port.cells.map (fun x => (x.1, x.2.kept)) ∧ c.cfgGen = s.en.cfgGen ∧ c.outages = s.en.outages ∧
        c.tampers = s.en.tampers ∧ c.from_ = s.en.from_ ∧ (∀ d, s.en.copies.head? = some d → c.seq = d.seq + 1) := by
  refine ⟨_, if_pos ⟨due.1, (copyDue_iff s).2 due.2⟩, only_of (enCopy_keeps (by decide) (.refl _ s)), rfl, rfl, _, rfl, rfl, rfl, rfl, rfl, rfl,
    fun d first => ?_⟩
  cases list : s.en.copies with
  | nil => rw [list] at first; exact nomatch first
  | cons x l =>
    rw [list] at first
    cases first
    rfl

/-! ### Demand (R556, R557) -/

/-- A port after the end of its interval. -/
def EnPort.demanded (x : EnPort) (from_ : Nat) : EnPort :=
  let imp := demandOf (x.kept.reg.get 0 0 - x.kept.imp0)
  let exp := demandOf (x.kept.reg.get 0 1 - x.kept.exp0)
  let k1 := if !x.partial_ && decide (x.kept.mdImp < imp) then { x.kept with mdImp := imp, mdImpRtc := from_ } else x.kept
  let k2 := if !x.partial_ && decide (x.kept.mdExp < exp) then { k1 with mdExp := exp, mdExpRtc := from_ } else k1
  { x with partial_ := false, kept := { k2 with lastImp := imp, lastExp := exp, imp0 := x.kept.reg.get 0 0, exp0 := x.kept.reg.get 0 1 } }

/-- What the end of a port's interval makes of the port. -/
def State.demandPort (s : State) (n : Nat) (x : EnPort) : EnPort := if s.enKind n = 0 then x else x.demanded s.en.from_

theorem enDemand_own (s : State) (n : Nat) : (s.enDemand n).enPort n = s.demandPort n (s.enPort n) := by
  unfold State.enDemand State.demandPort
  have counted : ∀ u : State, (u.bump 0x1509 n 2).enPort n = u.enPort n := fun _ => rfl
  split
  · rfl
  dsimp only
  split
  · rw [counted, enPort_modEn]
    rfl
  · rw [enPort_modEn]
    rfl

theorem enDemand_ne (s : State) {n m : Nat} (other : m ≠ n) : (s.enDemand n).enPort m = s.enPort m := by
  unfold State.enDemand
  have counted : ∀ u : State, (u.bump 0x1509 n 2).enPort m = u.enPort m := fun _ => rfl
  split
  · rfl
  dsimp only
  split
  · rw [counted, enPort_modEn_ne s other]
  · rw [enPort_modEn_ne s other]

theorem enDemand_leaves (s : State) (n : Nat) : (s.enDemand n).par.eff = s.par.eff ∧ (s.enDemand n).en.from_ = s.en.from_ := by
  unfold State.enDemand
  split
  · exact ⟨rfl, rfl⟩
  dsimp only
  split <;> exact ⟨rfl, rfl⟩

theorem demandPort_stable (s : State) (n m : Nat) : (s.enDemand n).demandPort m = s.demandPort m := by
  obtain ⟨eff, from_⟩ := enDemand_leaves s n
  funext x
  rw [State.demandPort, State.enKind, pu_congr eff, from_, State.demandPort, State.enKind]

theorem demandEnd_port (s : State) (m : Nat) : s.demandEnd.enPort m = if m < 16 then s.demandPort m (s.enPort m) else s.enPort m := by
  have ports := foldl_port id (f := State.enDemand) (g := State.demandPort) enDemand_own (fun s n m => enDemand_ne s) demandPort_stable
    List.nodup_range s (ls := List.range 16) m
  unfold State.demandEnd
  generalize (List.range 16).foldl State.enDemand s = u at *
  rw [State.enPort, updEn_en]
  dsimp only
  rw [← State.enPort]
  simpa only [List.mem_range, id] using ports

theorem demanded_max (x : EnPort) (from_ : Nat) :
    (x.demanded from_).kept.mdImp = (if x.partial_ then x.kept.mdImp else max x.kept.mdImp (demandOf (x.kept.reg.get 0 0 - x.kept.imp0))) ∧
    (x.demanded from_).kept.mdExp = (if x.partial_ then x.kept.mdExp else max x.kept.mdExp (demandOf (x.kept.reg.get 0 1 - x.kept.exp0))) ∧
    (x.demanded from_).kept.reg = x.kept.reg := by
  unfold EnPort.demanded
  dsimp only
  generalize demandOf (x.kept.reg.get 0 0 - x.kept.imp0) = imp
  generalize demandOf (x.kept.reg.get 0 1 - x.kept.exp0) = exp
  cases x.partial_
  · by_cases more : x.kept.mdImp < imp <;> by_cases moreExp : x.kept.mdExp < exp <;> simp [more, moreExp] <;> omega
  · simp

theorem demandIntervalEnd_lands {s : State} (due : s.sys.stage = .serving ∧ s.bat.rtcSec / 900 * 900 ≠ s.en.from_) :
    Lands (exec .demandIntervalEnd s) fun e => Only [.par, .en] s e ∧
      e.en.from_ = s.bat.rtcSec / 900 * 900 ∧ (∀ n, 16 ≤ n ∨ s.enKind n = 0 → e.enPort n = s.enPort n) ∧
      ∀ n < 16, s.enKind n ≠ 0 →
        let x := s.enPort n
        let y := e.enPort n
        y.kept.lastImp = (x.kept.reg.get 0 0 - x.kept.imp0) * 4 / 1000 ∧ y.kept.lastExp = (x.kept.reg.get 0 1 - x.kept.exp0) * 4 / 1000 ∧
        y.kept.imp0 = x.kept.reg.get 0 0 ∧ y.kept.exp0 = x.kept.reg.get 0 1 ∧ y.kept.reg = x.kept.reg ∧ y.partial_ = false ∧
        y.kept.mdImp = (if x.partial_ then x.kept.mdImp else max x.kept.mdImp y.kept.lastImp) ∧
        y.kept.mdExp = (if x.partial_ then x.kept.mdExp else max x.kept.mdExp y.kept.lastExp) := by
  refine ⟨_, if_pos due, only_of (demandEnd_keeps (by decide) (.refl _ s)), rfl, fun n out => ?_, fun n small used => ?_⟩
  · rw [demandEnd_port]
    split
    · rename_i small
      rw [State.demandPort, if_pos (out.resolve_left (by omega))]
    · rfl
  · rw [demandEnd_port, if_pos small, State.demandPort, if_neg used]
    obtain ⟨imp, exp, reg⟩ := demanded_max (s.enPort n) s.en.from_
    exact ⟨rfl, rfl, rfl, rfl, reg, rfl, imp, exp⟩

/-! ### Limits (R558, R559) -/

/-- A limit in effect of a port, by the offset of its direction. -/
def State.enLimit (s : State) (n off : Nat) : Int :=
  min (s.enZone n) (min (s.ps 0x1506 n off 2) (match if s.bat.rtcSet then schedIndex (s.peff 0x1505 n) s.bat.rtcSec else none with
    | some i => sAt (s.peff 0x1505 n) (8 + 8 * i + off) 2
    | none => 0x7FFF))

/-- What a step that publishes host signals leaves: every parameter above theirs, the battery domain, the thermal block and the ports. -/
structure State.Publishes (s t : State) : Prop where
  /-- The parameters. -/
  eff : ∀ id inst, 0x0B08 < id → t.peff id inst = s.peff id inst
  /-- The battery domain. -/
  bat : t.bat = s.bat
  /-- The thermal block. -/
  hk : t.hk = s.hk
  /-- The ports. -/
  en : t.en = s.en

theorem State.Publishes.trans {s t u : State} (h : s.Publishes t) (k : t.Publishes u) : s.Publishes u :=
  ⟨fun id inst above => (k.eff id inst above).trans (h.eff id inst above), k.bat.trans h.bat, k.hk.trans h.hk, k.en.trans h.en⟩

theorem setParam_peff_ne (s : State) {id inst id' inst' : Nat} (other : pKey id' inst' ≠ pKey id inst) (v : Bytes) :
    (s.setParam id inst v).peff id' inst' = s.peff id' inst' := by
  unfold State.setParam
  rw [State.peff, updPar_par]
  dsimp only
  rw [Tab.get?_set_ne _ other, State.peff]

theorem leNat_lt (l : Bytes) : leNat l < 256 ^ l.length := by
  induction l with
  | nil => exact Nat.one_pos
  | cons b l ih =>
    have byte := b.isLt
    rw [leNat, List.length_cons, Nat.pow_succ]
    omega

theorem uAt_lt (l : Bytes) (off n : Nat) : uAt l off n < 256 ^ n :=
  (leNat_lt _).trans_le (Nat.pow_le_pow_right (by decide) (by rw [slice, List.length_map, List.length_range]))

theorem putHostSig_publishes (s : State) {sig : Nat} (small : sig < 65536) (v : Int) : s.Publishes (s.putHostSig sig v) := by
  have set_ : s.Publishes (s.setParam 0x0B08 sig (leBytesI 2 v)) :=
    ⟨fun id inst above => setParam_peff_ne s (by unfold pKey; omega) _, rfl, rfl, rfl⟩
  unfold State.putHostSig
  dsimp only
  generalize s.setParam 0x0B08 sig (leBytesI 2 v) = u at *
  have sent : ∀ q, u.Publishes (u.forwardRequest 8 q) := fun q => by
    have keeps := forwardRequest_keeps (M := 67584) (a1 := 8) (a2 := q) (a3 := []) (by decide) (.refl _ u)
    exact ⟨fun id inst _ => by rw [State.peff, keeps.par (by decide), State.peff], keeps.bat (by decide), keeps.hk (by decide), keeps.en (by decide)⟩
  split
  · exact set_.trans (sent _)
  · exact set_

/-- A step that leaves what the limits of every port are chosen by. -/
structure State.LimitsSame (s t : State) : Prop where
  /-- The parameters. -/
  eff : ∀ id inst, 0x0B08 < id → t.peff id inst = s.peff id inst
  /-- The battery domain. -/
  bat : t.bat = s.bat
  /-- The thermal block. -/
  hk : t.hk = s.hk

theorem State.LimitsSame.pu {s t : State} (h : s.LimitsSame t) {id : Nat} (above : 0x0B08 < id) (inst off n : Nat) :
    t.pu id inst off n = s.pu id inst off n := by rw [State.pu, h.eff id inst above, State.pu]

theorem State.LimitsSame.enLimit {s t : State} (h : s.LimitsSame t) (n off : Nat) : t.enLimit n off = s.enLimit n off := by
  have zones : t.enZone n = s.enZone n := by
    unfold State.enZone State.zoneEn State.zone
    simp only [h.pu (by decide : 0x0B08 < 0x1101), h.hk]
  unfold State.enLimit
  rw [zones, h.eff 0x1505 n (by decide), State.ps, h.eff 0x1506 n (by decide), h.bat, State.ps]

/-- What the limits say of a port: the two limits in effect, and what MRAM keeps. -/
def EnPort.limits (x : EnPort) : Int × Int × EnKept := (x.limImp, x.limExp, x.kept)

theorem enWatch_limits (s : State) (n m : Nat) : ((s.enWatch n).enPort m).limits = (s.enPort m).limits := by
  unfold State.enWatch
  dsimp only
  by_cases own : m = n
  · rw [own, enPort_modEn]
    repeat' split
    all_goals rfl
  · rw [enPort_modEn_ne s own]

theorem enWatch_same (s : State) (n : Nat) : s.LimitsSame (s.enWatch n) := by
  have keeps := enWatch_keeps (M := 67108864) (a1 := n) (by decide) (.refl _ s)
  exact ⟨fun id inst _ => by rw [State.peff, keeps.par (by decide), State.peff], keeps.bat (by decide), keeps.hk (by decide)⟩

theorem modEn_same (s : State) (n : Nat) (f : EnPort → EnPort) : s.LimitsSame (s.modEn n f) := ⟨fun _ _ _ => rfl, rfl, rfl⟩

theorem State.LimitsSame.trans {s t u : State} (h : s.LimitsSame t) (k : t.LimitsSame u) : s.LimitsSame u :=
  ⟨fun id inst above => (k.eff id inst above).trans (h.eff id inst above), k.bat.trans h.bat, k.hk.trans h.hk⟩

/-- A port with its limits chosen afresh, before they are published. -/
def State.enChoose (s : State) (n : Nat) : State := s.modEn n fun x =>
  { x with limImp := s.enLimit n 0, limExp := s.enLimit n 2, sched := (if s.bat.rtcSet then schedIndex (s.peff 0x1505 n) s.bat.rtcSec else none).isSome }

theorem enLimits_choose (s : State) (n : Nat) : s.enLimits n =
    if s.enKind n = 0 then s.enChoose n
    else if s.pu 0x1501 n 2 1 ≠ 0xFF ∧ s.thermActs = true then
      (((s.enChoose n).enWatch n).putHostSig (s.pu 0x1501 n 2 1) (s.enLimit n 0)).putHostSig (s.pu 0x1501 n 2 1 + 1) (s.enLimit n 2)
    else (s.enChoose n).enWatch n := rfl

theorem enLimits_spec (s : State) (n : Nat) : s.LimitsSame (s.enLimits n) ∧
    ((s.enLimits n).enPort n).limits = (s.enLimit n 0, s.enLimit n 2, (s.enPort n).kept) ∧
    ∀ m, m ≠ n → ((s.enLimits n).enPort m).limits = (s.enPort m).limits := by
  rw [enLimits_choose]
  have same : s.LimitsSame (s.enChoose n) := modEn_same s n _
  have own : ((s.enChoose n).enPort n).limits = (s.enLimit n 0, s.enLimit n 2, (s.enPort n).kept) := by
    rw [State.enChoose, enPort_modEn]; rfl
  have others : ∀ m, m ≠ n → ((s.enChoose n).enPort m).limits = (s.enPort m).limits := fun m other => by
    rw [State.enChoose, enPort_modEn_ne s other]
  generalize s.enChoose n = u at *
  have watched := same.trans (enWatch_same u n)
  have watchedOwn := (enWatch_limits u n n).trans own
  have watchedOthers := fun m other => (enWatch_limits u n m).trans (others m other)
  generalize u.enWatch n = v at *
  split
  · exact ⟨same, own, others⟩
  split
  · have small : s.pu 0x1501 n 2 1 < 256 := uAt_lt _ _ 1
    generalize s.pu 0x1501 n 2 1 = sig at *
    have first := putHostSig_publishes v (sig := sig) (by omega) (s.enLimit n 0)
    have both := first.trans (putHostSig_publishes _ (sig := sig + 1) (by omega) (s.enLimit n 2))
    have port : ∀ m, ((v.putHostSig sig (s.enLimit n 0)).putHostSig (sig + 1) (s.enLimit n 2)).enPort m = v.enPort m := fun m => by
      rw [State.enPort, both.en, State.enPort]
    refine ⟨watched.trans ⟨both.eff, both.bat, both.hk⟩, by rw [port]; exact watchedOwn, fun m other => by rw [port]; exact watchedOthers m other⟩
  · exact ⟨watched, watchedOwn, watchedOthers⟩

theorem enAllLimits_port (s : State) {m : Nat} (small : m < 16) :
    (s.enAllLimits.enPort m).limits = (s.enLimit m 0, s.enLimit m 2, (s.enPort m).kept) := by
  have ports := foldl_port EnPort.limits (f := State.enLimits) (g := fun s n x => (s.enLimit n 0, s.enLimit n 2, x.2.2))
    (fun s n => (enLimits_spec s n).2.1) (fun s n m => (enLimits_spec s n).2.2 m)
    (fun s n m => by funext x; rw [(enLimits_spec s n).1.enLimit, (enLimits_spec s n).1.enLimit]) List.nodup_range s (ls := List.range 16) m
  rw [if_pos (List.mem_range.2 small)] at ports
  exact ports

/-! ### The real-time clock (R565) -/

theorem enPartial_port (s : State) (m : Nat) : s.enPartial.enPort m = if m < 16 then { s.enPort m with partial_ := true } else s.enPort m := by
  have ports := foldl_port id (f := fun s n => s.modEn n fun y => { y with partial_ := true }) (g := fun _ _ x => { x with partial_ := true })
    (fun s n => enPort_modEn s n _) (fun s n m other => enPort_modEn_ne s other _) (fun _ _ _ => rfl) List.nodup_range s (ls := List.range 16) m
  rw [State.enPartial]
  simpa only [List.mem_range, id] using ports

/-- The battery domain once a waiting value has been taken (R565, R568). -/
def Battery.loaded (b : Battery) (e : TampEntry) (sec at_ : Nat) : Battery :=
  { b with
    rtcSec := sec, secAt := at_, rtcSet := true, rtcPending := none, logSeq := (b.logSeq + 1) % 65536
    log := if b.log.length < 8 then b.log ++ [e] else b.log
    lost := if b.log.length < 8 then b.lost else min 65535 (b.lost + 1) }

/-- The value taken, and its entry, before the intervals are PARTIAL. -/
def State.rtcTaken (s : State) (r : RtcPending) : State :=
  (s.updBat fun b => { b with rtcSec := r.sec, secAt := s.mono, rtcSet := true, rtcPending := none }).tampLog 0x21 false s.bat.rtcSec

theorem rtcTaken_bat (s : State) (r : RtcPending) : (s.rtcTaken r).bat =
    s.bat.loaded { s.tampEntry 0x21 false s.bat.rtcSec with sec := r.sec, sub := 0 } r.sec s.mono := by
  have entry : (s.updBat fun b => { b with rtcSec := r.sec, secAt := s.mono, rtcSet := true, rtcPending := none }).tampEntry 0x21 false s.bat.rtcSec =
      { s.tampEntry 0x21 false s.bat.rtcSec with sec := r.sec, sub := 0 } := by
    unfold State.tampEntry State.rtcSub
    simp
    rfl
  rw [State.rtcTaken, State.tampLog, updBat_bat, entry, updBat_bat]
  dsimp only
  by_cases room : s.bat.log.length < 8
  · simp only [if_pos room, Battery.loaded]
  · simp only [if_neg room, satN_eq_min, Battery.loaded]; rfl

/-- The energy block once the clock has been set. -/
def State.rtcMarked (s : State) (r : RtcPending) : State := (s.rtcTaken r).enPartial.updEn fun e => { e with from_ := r.sec / 900 * 900 }

theorem rtcLoad_marked (s : State) (r : RtcPending) : s.rtcLoad r =
    if ((s.rtcMarked r).box r.mb).waiting = .rtcSet then (s.rtcMarked r).replyOk r.mb (leBytes 4 r.sec) else s.rtcMarked r := rfl

theorem rtcMarked_keeps (s : State) (r : RtcPending) : Keeps 67112960 s (s.rtcMarked r) := by
  unfold State.rtcMarked State.rtcTaken
  exact updEn_keeps (by decide) (enPartial_keeps (by decide) (tampLog_keeps (by decide) (updBat_keeps (by decide) (.refl _ s))))

theorem rtcMarked_spec (s : State) (r : RtcPending) :
    (s.rtcMarked r).bat = s.bat.loaded { s.tampEntry 0x21 false s.bat.rtcSec with sec := r.sec, sub := 0 } r.sec s.mono ∧
    (s.rtcMarked r).en.from_ = r.sec / 900 * 900 ∧ ∀ n < 16, (s.rtcMarked r).enPort n = { s.enPort n with partial_ := true } := by
  have bat := rtcTaken_bat s r
  have port : ∀ n, (s.rtcTaken r).enPort n = s.enPort n := fun n => by
    have keeps : Keeps 4096 s (s.rtcTaken r) := by
      unfold State.rtcTaken
      exact tampLog_keeps (by decide) (updBat_keeps (by decide) (.refl _ s))
    rw [State.enPort, keeps.en (by decide), State.enPort]
  unfold State.rtcMarked
  generalize s.rtcTaken r = u at *
  refine ⟨?_, rfl, fun n small => ?_⟩
  · rw [updEn_bat, (enPartial_keeps (M := 67108864) (by decide) (.refl _ u)).bat (by decide), bat]
  · rw [State.enPort, updEn_en]
    dsimp only
    rw [← State.enPort, enPartial_port, if_pos small, port]

/-- What a second does to the clock, before the limits are chosen afresh. -/
structure ClockSet (s t : State) : Prop where
  /-- The parts. -/
  part : Keeps 67113040 s t
  /-- The time of the second. -/
  secAt : t.bat.secAt = s.mono
  /-- No value is taken. -/
  counts : (∀ r, s.bat.rtcPending = some r → r.ptp = true) →
    t.bat = { s.bat with rtcSec := (s.bat.rtcSec + 1) % 2 ^ 32, secAt := s.mono } ∧ t.hatch = s.hatch ∧ t.en = s.en
  /-- The value that waits is taken. -/
  sets : ∀ r, s.bat.rtcPending = some r → r.ptp = false →
    t.bat = s.bat.loaded { s.tampEntry 0x21 false s.bat.rtcSec with sec := r.sec, sub := 0 } r.sec s.mono ∧
    t.en.from_ = r.sec / 900 * 900 ∧ (∀ n < 16, t.enPort n = { s.enPort n with partial_ := true }) ∧
    ∀ q, (s.box r.mb).taken = some q → (s.box r.mb).waiting = .rtcSet → s.Replies t r.mb q stOk (leBytes 4 r.sec)
  /-- What the limits are chosen by. -/
  eff : t.par.eff = s.par.eff
  /-- What MRAM keeps. -/
  kept : ∀ n < 16, (t.enPort n).kept = (s.enPort n).kept

theorem rtcLoad_set {s : State} {r : RtcPending} (pending : s.bat.rtcPending = some r) (own : r.ptp = false) : ClockSet s (s.rtcLoad r) := by
  obtain ⟨bat, from_, port⟩ := rtcMarked_spec s r
  have keeps := rtcMarked_keeps s r
  have boxes := keeps.box (by decide)
  rw [rtcLoad_marked, boxes]
  generalize s.rtcMarked r = u at *
  have sets : ∀ t : State, Keeps 16 u t → (∀ q, (s.box r.mb).taken = some q → (s.box r.mb).waiting = .rtcSet → s.Replies t r.mb q stOk (leBytes 4 r.sec)) →
      ClockSet s t := fun t last replies => by
    have sameBat := last.bat (by decide)
    have sameEn := last.en (by decide)
    have ports : ∀ n, t.enPort n = u.enPort n := fun n => by rw [State.enPort, sameEn, State.enPort]
    refine ⟨(keeps.weaken (by decide)).trans (last.weaken (by decide)), by rw [sameBat, bat]; rfl, fun none_ => ?_, fun r' same _ => ?_, ?_, fun n small => ?_⟩
    · exact nomatch own.symm.trans (none_ r pending)
    · cases pending.symm.trans same
      exact ⟨sameBat.trans bat, by rw [sameEn]; exact from_, fun n small => (ports n).trans (port n small), replies⟩
    · rw [last.par (by decide), keeps.par (by decide)]
    · rw [ports, port n small]
  split
  · exact sets _ (replyOk_hatch (by decide) (.refl _ u)) fun q held _ =>
      (reply_replies (by rw [boxes]; exact held) stOk _).from (by rw [keeps.hatch (by decide)]) (by rw [keeps.twin (by decide)])
  · rename_i other
    exact sets u (.refl _ u) fun q _ waits => absurd waits other

theorem tick_set {s : State} (none_ : ∀ r, s.bat.rtcPending = some r → r.ptp = true) :
    ClockSet s (s.updBat fun b => { b with rtcSec := (b.rtcSec + 1) % 2 ^ 32, secAt := s.mono }) :=
  ⟨updBat_keeps (by decide) (.refl _ s), rfl, fun _ => ⟨rfl, rfl, rfl⟩, fun r some_ own => (nomatch own.symm.trans (none_ r some_)), rfl, fun _ _ => rfl⟩

theorem enAllLimits_same (s : State) : s.LimitsSame s.enAllLimits := by
  unfold State.enAllLimits
  generalize List.range 16 = ls
  induction ls generalizing s with
  | nil => exact ⟨fun _ _ _ => rfl, rfl, rfl⟩
  | cons n ls ih => exact (enLimits_spec s n).1.trans (ih _)

/-- What MRAM keeps of a port, and whether its interval is PARTIAL: the limits leave both. -/
def EnPort.interval (x : EnPort) : Bool := x.partial_

theorem modEn_interval (s : State) (n m : Nat) {f : EnPort → EnPort} (same : ∀ x, (f x).interval = x.interval) :
    ((s.modEn n f).enPort m).interval = (s.enPort m).interval := by
  by_cases own : m = n
  · rw [own, enPort_modEn, same]
  · rw [enPort_modEn_ne s own]

theorem enWatch_interval (s : State) (n m : Nat) : ((s.enWatch n).enPort m).interval = (s.enPort m).interval := by
  unfold State.enWatch
  refine modEn_interval s n m fun x => ?_
  dsimp only
  repeat' split
  all_goals rfl

theorem putHostSig_en (s : State) (sig : Nat) (v : Int) : (s.putHostSig sig v).en = s.en :=
  (putHostSig_keeps (M := 67648) (by decide) (.refl _ s)).en (by decide)

theorem enLimits_interval (s : State) (n m : Nat) : ((s.enLimits n).enPort m).interval = (s.enPort m).interval := by
  have chosen : ((s.enChoose n).enPort m).interval = (s.enPort m).interval := modEn_interval s n m fun _ => rfl
  have port : ∀ (u : State) sig v, (u.putHostSig sig v).enPort m = u.enPort m := fun u sig v => by rw [State.enPort, putHostSig_en, State.enPort]
  rw [enLimits_choose]
  split
  · exact chosen
  split
  · rw [port, port, enWatch_interval, chosen]
  · rw [enWatch_interval, chosen]

theorem enLimits_from (s : State) (n : Nat) : (s.enLimits n).en.from_ = s.en.from_ := by
  have mod : ∀ (u : State) (f : EnPort → EnPort), (u.modEn n f).en.from_ = u.en.from_ := fun _ _ => rfl
  have watched : ∀ u : State, (u.enWatch n).en.from_ = u.en.from_ := fun u => by unfold State.enWatch; exact mod u _
  rw [enLimits_choose]
  split
  · exact mod s _
  split
  · rw [putHostSig_en, putHostSig_en, watched]
    exact mod s _
  · rw [watched]
    exact mod s _

theorem enAllLimits_from (s : State) : s.enAllLimits.en.from_ = s.en.from_ := by
  unfold State.enAllLimits
  exact foldl_view (fun s : State => s.en.from_) enLimits_from _ s

theorem enAllLimits_interval (s : State) (n : Nat) : (s.enAllLimits.enPort n).partial_ = (s.enPort n).partial_ := by
  unfold State.enAllLimits
  exact foldl_view (fun s : State => (s.enPort n).interval) (fun s k => enLimits_interval s k n) _ s

/-- The clock's next second. -/
def State.rtcTick (s : State) : State :=
  match s.bat.rtcPending with
  | some r => if r.ptp then s.updBat fun b => { b with rtcSec := (b.rtcSec + 1) % 2 ^ 32, secAt := s.mono } else s.rtcLoad r
  | none => s.updBat fun b => { b with rtcSec := (b.rtcSec + 1) % 2 ^ 32, secAt := s.mono }

theorem rtcTick_set (s : State) : ClockSet s s.rtcTick := by
  unfold State.rtcTick
  cases pending : s.bat.rtcPending with
  | none => exact tick_set fun r some_ => nomatch pending.symm.trans some_
  | some r =>
    dsimp only
    cases own : r.ptp with
    | true =>
      rw [if_pos rfl]
      exact tick_set fun r' some_ => by cases pending.symm.trans some_; exact own
    | false =>
      rw [if_neg Bool.false_ne_true]
      exact rtcLoad_set pending own

theorem rtcSecond_lands {s : State} (powered : s.bat.powered = true) : Lands (exec .rtcSecond s) fun e => e.bat.secAt = s.mono ∧
    (s.sys.stage ≠ .serving → Only [.hatch, .par, .bat, .en] s e) ∧ (s.sys.stage = .serving → Only [.hatch, .par, .twin, .links, .bat, .en] s e) ∧
    ((∀ r, s.bat.rtcPending = some r → r.ptp = true) → e.bat = { s.bat with rtcSec := (s.bat.rtcSec + 1) % 2 ^ 32, secAt := s.mono } ∧
      e.hatch = s.hatch ∧ e.en.from_ = s.en.from_) ∧
    (∀ r, s.bat.rtcPending = some r → r.ptp = false → e.bat.rtcSec = r.sec ∧ e.bat.rtcSet = true ∧ e.bat.rtcPending = none ∧
      e.en.from_ = r.sec / 900 * 900 ∧ (∀ n < 16, (e.enPort n).partial_ = true) ∧
      (s.bat.log.length < 8 → e.bat.log = s.bat.log ++ [{ s.tampEntry 0x21 false s.bat.rtcSec with sec := r.sec, sub := 0 }]) ∧
      (8 ≤ s.bat.log.length → e.bat.log = s.bat.log ∧ e.bat.lost = min 65535 (s.bat.lost + 1)) ∧
      ∀ q, (s.box r.mb).taken = some q → (s.box r.mb).waiting = .rtcSet → s.Replies e r.mb q stOk (leBytes 4 r.sec)) ∧
    (s.sys.stage = .serving → ∀ n < 16,
      let v := s.peff 0x1505 n
      let limit := fun off => min (s.enZone n) (min (s.ps 0x1506 n off 2)
        (match if e.bat.rtcSet = true then schedIndex v e.bat.rtcSec else none with
          | some i => sAt v (8 + 8 * i + off) 2
          | none => 0x7FFF))
      (e.enPort n).limImp = limit 0 ∧ (e.enPort n).limExp = limit 2 ∧ (e.enPort n).kept = (s.enPort n).kept) := by
  have run : exec .rtcSecond s = if s.rtcTick.sys.stage = .serving then s.rtcTick.enAllLimits.done else s.rtcTick.done :=
    if_neg (by rw [powered]; decide)
  have set_ := rtcTick_set s
  generalize s.rtcTick = u at *
  have stage : u.sys.stage = s.sys.stage := by rw [set_.part.sys (by decide)]
  rw [stage] at run
  by_cases serving : s.sys.stage = .serving
  · rw [if_pos serving] at run
    refine ⟨_, run, ?_⟩
    have keeps := enAllLimits_keeps (M := 67176512) (by decide) (.refl _ u)
    have all := enAllLimits_keeps (M := 67180624) (by decide) (set_.part.weaken (by decide))
    have same := enAllLimits_same u
    have from_ : u.enAllLimits.en.from_ = u.en.from_ := enAllLimits_from u
    have interval : ∀ n, (u.enAllLimits.enPort n).partial_ = (u.enPort n).partial_ := enAllLimits_interval u
    have limits := fun n small => enAllLimits_port u (m := n) small
    generalize u.enAllLimits = e at *
    refine ⟨by rw [same.bat]; exact set_.secAt, fun other => absurd serving other, fun _ => only_of all, fun none_ => ?_, fun r some_ own => ?_,
      fun _ n small => ?_⟩
    · obtain ⟨bat, hatch, en⟩ := set_.counts none_
      exact ⟨same.bat.trans bat, (keeps.hatch (by decide)).trans hatch, from_.trans (by rw [en])⟩
    · obtain ⟨bat, began, ports, replies⟩ := set_.sets r some_ own
      rw [same.bat, bat]
      refine ⟨rfl, rfl, rfl, from_.trans began, fun n small => ?_, fun room => if_pos room, fun full => ⟨if_neg (by omega), if_neg (by omega)⟩,
        fun q held waits => ?_⟩
      · rw [interval, ports n small]
      · have reply := replies q held waits
        exact ⟨by rw [keeps.box (by decide)]; exact reply.done, by rw [keeps.box (by decide)]; exact reply.taken,
          by rw [keeps.box (by decide)]; exact reply.reply, by rw [keeps.box (by decide)]; exact reply.kept,
          by rw [keeps.box (by decide)]; exact reply.request, fun n other => by rw [keeps.box (by decide)]; exact reply.others n other⟩
    · have given := limits n small
      have zones : u.enZone n = s.enZone n := by
        unfold State.enZone State.zoneEn State.zone
        simp only [pu_congr set_.eff, set_.part.hk (by decide)]
      have term : ∀ off, u.enLimit n off = min (s.enZone n) (min (s.ps 0x1506 n off 2)
          (match if e.bat.rtcSet = true then schedIndex (s.peff 0x1505 n) e.bat.rtcSec else none with
            | some i => sAt (s.peff 0x1505 n) (8 + 8 * i + off) 2
            | none => 0x7FFF)) := fun off => by
        rw [State.enLimit, zones, ps_congr set_.eff, same.bat, State.peff, set_.eff, ← State.peff]
      rw [term, term] at given
      exact ⟨congrArg Prod.fst given, congrArg (fun x => x.2.1) given, (congrArg (fun x => x.2.2) given).trans (set_.kept n small)⟩
  · rw [if_neg serving] at run
    refine ⟨u, run, set_.secAt, fun _ => only_of set_.part, fun h => absurd h serving, fun none_ => ?_, fun r some_ own => ?_, fun h => absurd h serving⟩
    · obtain ⟨bat, hatch, en⟩ := set_.counts none_
      exact ⟨bat, hatch, by rw [en]⟩
    · obtain ⟨bat, began, ports, replies⟩ := set_.sets r some_ own
      rw [bat]
      exact ⟨rfl, rfl, rfl, began, fun n small => by rw [ports n small], fun room => if_pos room, fun full => ⟨if_neg (by omega), if_neg (by omega)⟩,
        replies⟩

/-! ### A limit exceeded (R560) -/

theorem enGraceExpire_lands {s : State} (n : Fin 16) (armed : (s.enPort n).armed = true) {t : Nat} (over_ : (s.enPort n).over_ = some t)
    (due : t + 8000000 * s.pu 0x1506 n 4 2 ≤ s.mono) : Lands (exec (.enGraceExpire n) s) fun e =>
      Only [.todo, .hatch, .notif, .par, .faults, .pantry, .en] s e ∧ s.Fired e 0x80 ∧
        e.enPort n = { s.enPort n with armed := false } ∧ ∀ m, m ≠ n.val → e.enPort m = s.enPort m := by
  have run : exec (.enGraceExpire n) s = (((s.modEn n fun y => { y with armed := false }).bump 0x1509 n 3).fire 0x80 n
      (leBytesI 4 ((s.enPort n).p.tdiv 1000000) ++ leBytesI 2 (s.enPort n).limit ++ leBytes 1 (b2n (decide ((s.enPort n).p < 0))))).done := by
    change execEnGraceExpire n s = _
    unfold execEnGraceExpire
    dsimp only
    rw [over_]
    exact if_pos ⟨armed, elapsed_of_le due⟩
  refine ⟨_, run, ?_⟩
  have keeps : Keeps 67108928 s ((s.modEn n fun y => { y with armed := false }).bump 0x1509 n 3) :=
    bump_keeps (by decide) (modEn_keeps (by decide) (.refl _ s))
  have own : ((s.modEn n fun y => { y with armed := false }).bump 0x1509 n 3).enPort n = { s.enPort n with armed := false } := enPort_modEn s n _
  have others : ∀ m, m ≠ n.val → ((s.modEn n fun y => { y with armed := false }).bump 0x1509 n 3).enPort m = s.enPort m := fun m other =>
    enPort_modEn_ne s other _
  generalize State.bump _ 0x1509 n 3 = u at *
  generalize leBytesI 4 _ ++ _ ++ _ = args
  have fires := fire_keeps (M := 8440) (a1 := 0x80) (a2 := n.val) (a3 := args) (by decide) (.refl _ u)
  have port : ∀ m, (u.fire 0x80 n args).enPort m = u.enPort m := fun m => by rw [State.enPort, fires.en (by decide), State.enPort]
  refine ⟨only_of (fire_keeps (by decide) (keeps.weaken (by decide))), (fire_fired u (by decide) n.val args).from (by rw [keeps.faults (by decide)]),
    by rw [port]; exact own, fun m other => by rw [port]; exact others m other⟩

/-! ### The commands (R557, R561, R562, R565) -/

theorem energyRead_lands {s : State} {mb : Fin 8} {q : Request} (runs : s.Runs mb 0x1510 q) : Lands (exec (.energyRead mb) s) fun e =>
    let refused := fun e st (x : Byte) => Only [.hatch] s e ∧ s.Replies e mb q st [x, 0, 0xFF, 0xFF]
    let n := uAt q.payload 0 1
    if 15 < n then refused e stBadParam 5
    else if s.enKind n = 0 then refused e stBadParam 0xD1
    else if s.fw.keyState ≠ .ready then refused e stRefused 0xD0
    else match s.fw.signKey with
      | none => refused e stFailed 0xD0
      | some k => Only [.freeCount, .hatch] s e ∧ e.freeCount = s.freeCount + 4 ∧ s.Replies e mb q stOk
          (s.readout n (slice q.payload 4 8) ++ ecdsaSign k (sha256 (s.readout n (slice q.payload 4 8))) s.freeKey) := by
  have run : exec (.energyRead mb) s = State.done (
      if 15 < uAt q.payload 0 1 then s.refuse mb stBadParam 0x05
      else if s.enKind (uAt q.payload 0 1) = 0 then s.refuse mb stBadParam 0xD1
      else if s.fw.keyState ≠ .ready then s.refuse mb stRefused 0xD0
      else
        match s.fw.signKey with
        | none => s.refuse mb stFailed 0xD0
        | some k => s.tookKey.replyOk mb (s.readout (uAt q.payload 0 1) (slice q.payload 4 8) ++
            ecdsaSign k (sha256 (s.readout (uAt q.payload 0 1) (slice q.payload 4 8))) s.freeKey)) := congrArg State.done (withCmd_runs runs _ _)
  dsimp only
  generalize uAt q.payload 0 1 = n at *
  generalize slice q.payload 4 8 = nonce at *
  refine lands_ite (fun bad => refuse_lands runs.taken (by decide) 0x05 (run.trans (congrArg State.done (if_pos bad)))) fun good => ?_
  rw [if_neg good] at run
  refine lands_ite (fun bad => refuse_lands runs.taken (by decide) 0xD1 (run.trans (congrArg State.done (if_pos bad)))) fun good => ?_
  rw [if_neg good] at run
  refine lands_ite (fun bad => refuse_lands runs.taken (by decide) 0xD0 (run.trans (congrArg State.done (if_pos bad)))) fun good => ?_
  rw [if_neg good] at run
  cases key : s.fw.signKey with
  | none =>
    rw [key] at run
    exact refuse_lands runs.taken (by decide) 0xD0 run
  | some k =>
    rw [key] at run
    dsimp only at run ⊢
    generalize s.readout n nonce ++ ecdsaSign k (sha256 (s.readout n nonce)) s.freeKey = payload at *
    refine ⟨_, run, ?_⟩
    have last : Keeps 16 s.tookKey (s.tookKey.replyOk mb payload) := replyOk_hatch (by decide) (.refl _ _)
    exact ⟨only_of (replyOk_hatch (by decide) (tookKey_keeps (by decide) (.refl _ s))), last.freeCount (by decide),
      (reply_replies (s := s.tookKey) runs.taken stOk payload).from rfl rfl⟩

/-- A port with its maxima set to 0. -/
def EnPort.zeroed (x : EnPort) : EnPort :=
  { x with kept := { x.kept with mdImp := 0, mdImpRtc := 0, mdExp := 0, mdExpRtc := 0, resets := satN 16 (x.kept.resets + 1) } }

theorem demandZero_fold (s : State) {ls : List Nat} (nodup : ls.Nodup) (m : Nat) :
    (ls.foldl State.demandZero s).enPort m = if m ∈ ls then (s.enPort m).zeroed else s.enPort m :=
  foldl_port id (f := State.demandZero) (g := fun _ _ x => x.zeroed) (fun s n => enPort_modEn s n _) (fun s _ _ other => enPort_modEn_ne s other _)
    (fun _ _ _ => rfl) nodup s m

theorem demandReset_lands {s : State} {mb : Fin 8} {q : Request} (runs : s.Runs mb 0x1511 q) (may : s.Writes mb 0x15) :
    Lands (exec (.demandReset mb) s) fun e =>
      let refused := fun e st (x : Byte) => Only [.hatch] s e ∧ s.Replies e mb q st [x, 0, 0xFF, 0xFF]
      let n := uAt q.payload 0 1
      if 15 < n ∧ n ≠ 0xFF then refused e stBadParam 5
      else if s.fw.locked = true then refused e stLocked 9
      else OnlyWrite [.faults, .en] s e ∧
        s.Accepts e mb q (leBytes 2 (min 65535 ((s.enPort (if n = 0xFF then 0 else n)).kept.resets + 1)) ++ [0, 0]) ∧
        ∀ m < 16,
          if m = n ∨ n = 0xFF then (e.enPort m).kept.mdImp = 0 ∧ (e.enPort m).kept.mdExp = 0 ∧ (e.enPort m).kept.mdImpRtc = 0 ∧
            (e.enPort m).kept.mdExpRtc = 0 ∧ (e.enPort m).kept.reg = (s.enPort m).kept.reg ∧
            (e.enPort m).kept.resets = min 65535 ((s.enPort m).kept.resets + 1)
          else e.enPort m = s.enPort m := by
  have run : exec (.demandReset mb) s = State.done (
      if 15 < uAt q.payload 0 1 ∧ uAt q.payload 0 1 ≠ 0xFF then s.refuse mb stBadParam 0x05
      else if s.fw.locked = true then s.refuse mb stLocked 0x09
      else
        let s1 := ((if uAt q.payload 0 1 = 0xFF then List.range 16 else [uAt q.payload 0 1]).foldl State.demandZero s).attic 7 0 0x1511
          (leBytes 1 (uAt q.payload 0 1))
        s1.finishWrite mb q (leBytes 2 (s1.enPort (if uAt q.payload 0 1 = 0xFF then 0 else uAt q.payload 0 1)).kept.resets ++ [0, 0])) :=
    congrArg State.done (withWrite_runs runs may _)
  dsimp only at run ⊢
  generalize uAt q.payload 0 1 = n at *
  refine lands_ite (fun bad => refuse_lands runs.taken (by decide) 0x05 (run.trans (congrArg State.done (if_pos bad)))) fun good => ?_
  rw [if_neg good] at run
  refine lands_ite (fun bad => refuse_lands runs.taken (by decide) 0x09 (run.trans (congrArg State.done (if_pos bad)))) fun good' => ?_
  rw [if_neg good'] at run
  refine ⟨_, run, ?_⟩
  have nodup : (if n = 0xFF then List.range 16 else [n]).Nodup := by
    split
    · exact List.nodup_range
    · exact List.nodup_singleton n
  have mem : ∀ m < 16, m ∈ (if n = 0xFF then List.range 16 else [n]) ↔ m = n ∨ n = 0xFF := fun m small => by
    split
    · rename_i all
      exact ⟨fun _ => .inr all, fun _ => List.mem_range.2 small⟩
    · rename_i one
      exact ⟨fun h => .inl (List.mem_singleton.1 h), fun h => List.mem_singleton.2 (h.resolve_right one)⟩
  have first : (if n = 0xFF then 0 else n) ∈ (if n = 0xFF then List.range 16 else [n]) := by
    split
    · exact List.mem_range.2 (by decide)
    · exact List.mem_singleton_self n
  generalize (if n = 0xFF then List.range 16 else [n]) = ls at *
  have ports := demandZero_fold s nodup
  have zeroed : Keeps 67108864 s (ls.foldl State.demandZero s) := keeps_foldl (.refl _ s) fun _ _ => demandZero_keeps (by decide)
  generalize ls.foldl State.demandZero s = u at *
  have keeps := attic_keeps (M := 67108992) (a1 := 7) (a2 := 0) (a3 := 0x1511) (a4 := leBytes 1 n) (by decide) (zeroed.weaken (by decide))
  have en : (u.attic 7 0 0x1511 (leBytes 1 n)).en = u.en := (attic_keeps (M := 128) (by decide) (.refl _ u)).en (by decide)
  generalize u.attic 7 0 0x1511 (leBytes 1 n) = v at *
  have port : ∀ m, v.enPort m = u.enPort m := fun m => by rw [State.enPort, en, State.enPort]
  have resets : (v.enPort (if n = 0xFF then 0 else n)).kept.resets = min 65535 ((s.enPort (if n = 0xFF then 0 else n)).kept.resets + 1) := by
    rw [port, ports, if_pos first]
    exact satN_eq_min 16 _
  rw [resets]
  generalize leBytes 2 _ ++ _ = payload
  obtain ⟨only, accepts⟩ := write_ends (q := q) (mb := mb) runs.taken (only_of keeps : Only [.faults, .en] s v) (keeps.hatch (by decide)) (keeps.twin (by decide))
    (keeps.mono (by decide)) (by rw [keeps.par (by decide)]) payload []
  have last : (v.finishWrite mb q payload).en = v.en := (finishWrite_keeps (M := 67664) (by decide) (.refl _ v)).en (by decide)
  refine ⟨only, accepts, fun m small => ?_⟩
  have after : (v.finishWrite mb q payload).enPort m = if m ∈ ls then (s.enPort m).zeroed else s.enPort m := by
    rw [State.enPort, last, ← State.enPort, port, ports]
  rw [after]
  split
  · rename_i own
    rw [if_pos ((mem m small).2 own)]
    exact ⟨rfl, rfl, rfl, rfl, rfl, satN_eq_min 16 _⟩
  · rename_i other
    rw [if_neg fun h => other ((mem m small).1 h)]

theorem rtcSet_lands {s : State} {mb : Fin 8} {q : Request} (runs : s.Runs mb 0x1610 q) : Lands (exec (.rtcSet mb) s) fun e =>
    let refused := fun e st (x : Byte) => Only [.hatch] s e ∧ s.Replies e mb q st [x, 0, 0xFF, 0xFF]
    let ptp := bit (uAt q.payload 4 1) 0
    if s.fw.locked = true then refused e stLocked 0xD4
    else if ptp = true ∧ s.p0 0x060E = 0 then refused e stRefused 0xD8
    else if s.bat.rtcPending.isSome = true then Only [.hatch, .par] s e ∧ s.Replies e mb q stBusy (leBytes 4 1000)
    else Only [.hatch, .bat] s e ∧ e.bat = { s.bat with rtcPending := some { mb, sec := uAt q.payload 0 4, ptp } } ∧
      (e.box mb).waiting = .rtcSet ∧ (e.box mb).state = .active ∧ (e.box mb).taken = some q ∧ ∀ m, m ≠ mb.val → e.box m = s.box m := by
  have run : exec (.rtcSet mb) s = State.done (
      if s.fw.locked = true then s.refuse mb stLocked 0xD4
      else if bit (uAt q.payload 4 1) 0 = true ∧ s.p0 0x060E = 0 then s.refuse mb stRefused 0xD8
      else
        match s.bat.rtcPending with
        | some _ => s.busy mb 1000
        | none => (s.waitFor mb .rtcSet).updBat fun b =>
            { b with rtcPending := some { mb, sec := uAt q.payload 0 4, ptp := bit (uAt q.payload 4 1) 0 } }) :=
    congrArg State.done (withCmd_runs runs _ _)
  dsimp only
  generalize uAt q.payload 0 4 = sec at *
  generalize bit (uAt q.payload 4 1) 0 = ptp at *
  refine lands_ite (fun bad => refuse_lands runs.taken (by decide) 0xD4 (run.trans (congrArg State.done (if_pos bad)))) fun good => ?_
  rw [if_neg good] at run
  refine lands_ite (fun bad => refuse_lands runs.taken (by decide) 0xD8 (run.trans (congrArg State.done (if_pos bad)))) fun good => ?_
  rw [if_neg good] at run
  cases pending : s.bat.rtcPending with
  | some r =>
    rw [pending] at run
    exact ⟨_, run, only_of (reply_keeps (by decide) (.refl _ s)), reply_replies runs.taken stBusy _⟩
  | none =>
    rw [pending] at run
    refine ⟨_, run, only_of (updBat_keeps (by decide) (waitFor_keeps (by decide) (.refl _ s))), ?_⟩
    have waits : (s.waitFor mb .rtcSet).box mb = { s.box mb with waiting := .rtcSet } := box_modBox s mb _
    have others : ∀ m, m ≠ mb.val → (s.waitFor mb .rtcSet).box m = s.box m := fun m other => box_modBox_ne s other _
    have bat : (s.waitFor mb .rtcSet).bat = s.bat := rfl
    generalize s.waitFor mb .rtcSet = u at *
    refine ⟨by rw [updBat_bat, bat], ?_, ?_, ?_, others⟩
    · exact congrArg Mailbox.waiting waits
    · exact (congrArg Mailbox.state waits).trans runs.active
    · exact (congrArg Mailbox.taken waits).trans runs.taken

/-- Settles O50: per port, then over the ports; the clock's second is judged before the limits are chosen, which read nothing of it but its time. -/
theorem energyAccounting : Obligations.EnergyAccounting := by
  unfold Obligations.EnergyAccounting
  refine fun s => ⟨energyCopyPeriod_next, fun h => ?_, demandIntervalEnd_lands, fun h => if_neg h, fun h => if_pos h, rtcSecond_lands,
    fun n => ⟨fun ⟨armed, t, over_, due⟩ => enGraceExpire_lands n armed over_ due, fun h => ?_⟩,
    fun mb q => ⟨energyRead_lands, demandReset_lands, rtcSet_lands⟩⟩
  · exact if_neg fun both => h ⟨both.1, (copyDue_iff s).1 both.2⟩
  · change execEnGraceExpire n s = _
    unfold execEnGraceExpire
    dsimp only
    cases over_ : (s.enPort n).over_ with
    | none => rfl
    | some t => exact if_neg fun both => h ⟨both.1, t, over_, of_decide_eq_true both.2⟩

end Sys2Proof.Machine
end

section
/-!
PROOFS. Fault records (R580, R583 to R587, R589 to R591, R594 to R596). What a firing makes of the open records is said once, by the record it merges
into or the place it finds; all that follows it in the step leaves the records alone.
-/

namespace Sys2Proof.Machine

open Host

/-! ### What the pin, the notification and the reaction leave of the records -/

/-- The open records, the last ID given and the overflow. -/
def Faults.held (f : Faults) : List FaultRec × Nat × Bool := (f.open_, f.lastId, f.overflow)

theorem faultPin_faults (s : State) : s.faultPin.faults = { s.faults with pinLow := s.faults.pinWanted } := by
  unfold State.faultPin
  dsimp only
  split
  · rename_i same
    generalize s.faults = f at *
    obtain ⟨open_, lastId, lost, overflow, overflowPin, firings, present, mirror, restoredDone, pinLow, nmiTaken, chipResetDue, attic, atticSeq⟩ := f
    exact congrArg (Faults.mk _ _ _ _ _ _ _ _ _ · _ _ _ _) same.symm
  · obtain ⟨m, _, e⟩ := irqSince_eq s ((s.updFaults fun f => { f with pinLow := s.faults.pinWanted }).updHatch fun h =>
      { h with faultPinChanged := true })
    rw [e]
    rfl

theorem fireNote_held (s : State) (src inst : Nat) (t : Option Nat) (f r : Nat) (args : Bytes) (log : Bool) :
    (s.fireNote src inst t f r args log).faults.held = s.faults.held := by
  unfold State.fireNote
  dsimp only
  have entered : ∀ (u : State) a b c d, (u.attic a b c d).faults.held = u.faults.held := fun _ _ _ _ _ => rfl
  rw [entered, (note_keeps (M := 8304) (by decide) (.refl _ s)).faults (by decide)]

theorem react_held (s : State) (r src inst rec_ : Nat) : (s.react r src inst rec_).faults.held = s.faults.held := by
  unfold State.react
  dsimp only
  repeat' split
  all_goals rfl

theorem faultPin_held (s : State) : s.faultPin.faults.held = s.faults.held := by
  rw [faultPin_faults]
  rfl

/-! ### A firing (R584 to R586) -/

/-- The record a firing of a source merges into, as it leaves the record (R585). -/
def FaultRec.merged (r : FaultRec) (src now react : Nat) (pin : Bool) : FaultRec :=
  { r with
    secondary := if r.secondary.contains src then r.secondary else r.secondary ++ [src], merges := min (2 ^ 32 - 1) (r.merges + 1)
    tickLast := now, pin := r.pin || pin, reaction := max r.reaction react, dirty := true }

/-- The record as the model writes it at an injected firing. -/
theorem merged_eq (r : FaultRec) (src now react : Nat) (pin : Bool) : r.merged src now react pin = { r with
    secondary := if r.secondary.contains src then r.secondary else r.secondary ++ [src],
    merges := satN 32 (r.merges + 1), tickLast := now, real := r.real || false, pin := r.pin || pin,
    reaction := if decide (r.reaction < react) then react else r.reaction, dirty := true } := by
  have higher : (if decide (r.reaction < react) then react else r.reaction) = max r.reaction react := by
    by_cases more : r.reaction < react
    · rw [if_pos (decide_eq_true more)]; omega
    · rw [if_neg (by simpa using more)]; omega
  rw [higher, satN_eq_min, Bool.or_false]
  rfl

theorem fireMerge_held (s : State) (r : FaultRec) (c : Bool) (src inst react : Nat) (pin : Bool) (args : Bytes) (log : Bool) :
    (s.fireMerge r c src inst react pin true args log).faults.held =
      (recSet s.faults.open_ (r.merged src s.now react pin), s.faults.lastId, s.faults.overflow) := by
  unfold State.fireMerge
  dsimp only
  simp only [Bool.not_true, Bool.and_false, Bool.false_and]
  rw [← merged_eq]
  generalize hu : State.bump (State.updFaults s _) 0x1705 noInst 1 = u
  have merged : u.faults.held = (recSet s.faults.open_ (r.merged src s.now react pin), s.faults.lastId, s.faults.overflow) := by
    rw [← hu]; rfl
  have bumped : (u.bump 0x1705 noInst 5).faults.held = u.faults.held := rfl
  generalize u.bump 0x1705 noInst 5 = w at *
  have chosen : (if decide (r.reaction < react) = true then w else u).faults.held = u.faults.held := by
    split
    · exact bumped
    · rfl
  generalize (if decide (r.reaction < react) = true then w else u) = x at *
  have noted : ∀ t f rec_, (x.faultPin.fireNote src inst t f rec_ args log).faults.held = u.faults.held := fun _ _ _ =>
    ((fireNote_held ..).trans (faultPin_held x)).trans chosen
  rw [← merged]
  split
  · rw [react_held, noted]
  · exact noted _ _ _

/-- The record a firing opens (R586). -/
def State.newRec (s : State) (src inst react : Nat) (pin : Bool) (args : Bytes) : FaultRec :=
  { id := nextRecordId s.faults.open_ 64 s.faults.lastId, primary := src, island := fireIsland src inst, reaction := react, inj := true, pin,
    rtcSet := s.bat.rtcSet, inst, epoch := s.twin.epoch, tickFirst := s.now, tickLast := s.now, arg := (padTo args 4).take 4, rtcSec := s.bat.rtcSec }

theorem fireOpen_held (s : State) (src inst react : Nat) (pin : Bool) (args : Bytes) (log : Bool) :
    (s.fireOpen src inst react pin true args log).faults.held =
      if 64 ≤ s.faults.open_.length then (s.faults.open_, s.faults.lastId, true)
      else (s.faults.open_ ++ [s.newRec src inst react pin args], (s.newRec src inst react pin args).id, s.faults.overflow) := by
  unfold State.fireOpen
  split
  · dsimp only
    rw [react_held, fireNote_held, faultPin_held]
    rfl
  · dsimp only
    rw [react_held, fireNote_held, faultPin_held]
    rfl

/-- An injected firing of a source of the table, by the record it merges into and the place it finds (R587). -/
theorem fireWith_held (s : State) {src : Nat} (known : faultSource src ≠ none) (inst : Nat) (args : Bytes) (limit : Nat) :
    (s.fireWith src inst args true limit).faults.held =
      let react := min (s.pu 0x1701 src 0 1) limit
      let pin := bit (s.pu 0x1701 src 1 1) 0
      match s.fireTarget src inst with
      | some (r, _) => (recSet s.faults.open_ (r.merged src s.now react pin), s.faults.lastId, s.faults.overflow)
      | none =>
        if 0 < react ∨ pin = true then
          if 64 ≤ s.faults.open_.length then (s.faults.open_, s.faults.lastId, true)
          else (s.faults.open_ ++ [s.newRec src inst react pin args], (s.newRec src inst react pin args).id, s.faults.overflow)
        else s.faults.held := by
  have counted : s.fireTarget src inst =
      (s.updFaults fun f => { f with firings := f.firings.set src (satN 32 (f.firings.get 0 src + 1)) }).fireTarget src inst := rfl
  unfold State.fireWith
  split
  · exact absurd ‹_› known
  simp only [if_true]
  rw [counted]
  cases State.fireTarget (State.updFaults s _) src inst with
  | some x => exact fireMerge_held ..
  | none =>
    dsimp only
    split
    · exact fireOpen_held ..
    · exact fireNote_held ..

/-- A step that opens no record keeps the bounds. -/
theorem updFaults_fewer {M : Nat} {s : State} (hM : Sub 128 M) {f : Faults → Faults} (open_ : (f s.faults).open_.length ≤ s.faults.open_.length)
    (attic : (f s.faults).attic = s.faults.attic) : Keeps M s (s.updFaults f) :=
  updFaults_keeps hM (.refl _ s) fun inv => by
    obtain ⟨few, short⟩ := inv.faults
    exact ⟨open_.trans few, by rw [attic]; exact short⟩

theorem length_recSet (l : List FaultRec) (r : FaultRec) : (recSet l r).length = l.length := List.length_map ..

/-! ### The mirror and the chip reset (R580, R590) -/

theorem faultRecordMirror_next (s : State) (id : BitVec 32) : Next (exec (.faultRecordMirror id) s) fun t =>
    match s.faults.open_.find? fun x => x.id == id.toNat with
    | none => t = s
    | some r =>
      if r.dirty = false then t = s
      else Only [.faults] s t ∧ t.faults.open_ = recSet s.faults.open_ { r with dirty := false } ∧ t.faults.firings = s.faults.firings ∧
        t.faults.mirror = (s.faults.mirror.filter fun x => x.id != r.id) ++ [{ r with dirty := false }] ∧ t.faults.attic = s.faults.attic := by
  change Next (execFaultRecordMirror id s) _
  unfold execFaultRecordMirror
  cases s.faults.open_.find? fun x => x.id == id.toNat with
  | none => exact ⟨s, rfl, rfl⟩
  | some r =>
    dsimp only
    cases dirty : r.dirty with
    | false => exact ⟨s, rfl, rfl⟩
    | true => exact ⟨_, rfl, only_of (mirrorRec_keeps (by decide) (.refl _ s)), rfl, rfl, rfl, rfl⟩

theorem faultChipResetDue_lands {s : State} {src rec_ t : Nat} (due : s.faults.chipResetDue = some (src, rec_, t))
    (ready : t ≤ s.mono ∨ (∀ r ∈ s.faults.open_, r.dirty = false)) : Lands (exec .faultChipResetDue s) fun e =>
      Only [.todo, .faults] s e ∧ e.faults = { s.faults with chipResetDue := none } ∧ e.todo = s.todo ++ [.chipReset 4 src] := by
  have run : exec .faultChipResetDue s = ((s.updFaults fun f => { f with chipResetDue := none }).later (.chipReset 4 src)).done := by
    change execFaultChipResetDue s = _
    rw [execFaultChipResetDue, due]
    refine if_neg fun ⟨dirty, early⟩ => ?_
    obtain late | clean := ready
    · omega
    · obtain ⟨r, mem, yes⟩ := List.any_eq_true.1 dirty
      rw [clean r mem] at yes
      exact nomatch yes
  exact ⟨_, run, only_of (later_keeps (by decide) (updFaults_fewer (by decide) le_rfl rfl)), rfl, rfl⟩

theorem faultChipResetDue_waits {s : State} {src rec_ t : Nat} (due : s.faults.chipResetDue = some (src, rec_, t)) (early : s.mono < t)
    (dirty : ∃ r ∈ s.faults.open_, r.dirty = true) : exec .faultChipResetDue s = .next s := by
  change execFaultChipResetDue s = _
  rw [execFaultChipResetDue, due]
  exact if_pos ⟨List.any_eq_true.2 dirty, early⟩

/-! ### The commands (R594 to R596) -/

theorem faultRead_lands {s : State} {mb : Fin 8} {q : Request} (runs : s.Runs mb 0x1710 q) : Lands (exec (.faultRead mb) s) fun e =>
    match s.faults.open_.find? fun x => if bit (uAt q.payload 4 1) 0 then decide (uAt q.payload 0 4 < x.id) else x.id == uAt q.payload 0 4 with
    | none => Only [.hatch] s e ∧ s.Replies e mb q stOk (List.replicate 80 0)
    | some r => Only [.hatch, .faults] s e ∧ s.Replies e mb q stOk (s.faults.recBytes { r with read := true, dirty := true }) ∧
        e.faults = { s.faults with open_ := recSet s.faults.open_ { r with read := true, dirty := true } } := by
  have run : exec (.faultRead mb) s = State.done (match s.faults.select (uAt q.payload 0 4) (bit (uAt q.payload 4 1) 0) with
    | none => s.replyOk mb (List.replicate 80 0)
    | some r => (s.updFaults fun f => { f with open_ := recSet f.open_ { r with read := true, dirty := true } }).replyOk mb
        (({ s.faults with open_ := recSet s.faults.open_ { r with read := true, dirty := true } } : Faults).recBytes
          { r with read := true, dirty := true })) := congrArg State.done (withCmd_runs runs _ _)
  generalize uAt q.payload 0 4 = id at *
  generalize bit (uAt q.payload 4 1) 0 = next at *
  have selects : s.faults.select id next = s.faults.open_.find? fun x => if next then decide (id < x.id) else x.id == id := by
    cases next <;> rfl
  rw [selects] at run
  cases found : s.faults.open_.find? fun x => if next then decide (id < x.id) else x.id == id with
  | none =>
    rw [found] at run
    exact ⟨_, run, only_of (replyOk_hatch (by decide) (.refl _ s)), reply_replies runs.taken stOk _⟩
  | some r =>
    rw [found] at run
    refine ⟨_, run, ?_⟩
    dsimp only
    generalize hr : ({ r with read := true, dirty := true } : FaultRec) = x at *
    have faults : (s.updFaults fun f => { f with open_ := recSet f.open_ x }).faults = { s.faults with open_ := recSet s.faults.open_ x } := rfl
    have keeps : Keeps 128 s (s.updFaults fun f => { f with open_ := recSet f.open_ x }) :=
      updFaults_fewer (by decide) (length_recSet ..).le rfl
    change Only [.hatch, .faults] s ((s.updFaults _).replyOk mb (s.faults.recBytes x)) ∧
      s.Replies ((s.updFaults _).replyOk mb (s.faults.recBytes x)) mb q stOk (s.faults.recBytes x) ∧
      ((s.updFaults _).replyOk mb (s.faults.recBytes x)).faults = _
    generalize (s.updFaults fun f => { f with open_ := recSet f.open_ x }) = u at *
    have last : Keeps 16 u (u.replyOk mb (s.faults.recBytes x)) := replyOk_hatch (by decide) (.refl _ u)
    exact ⟨only_of (replyOk_hatch (by decide) (keeps.weaken (by decide))), (reply_replies (by rw [keeps.box (by decide)]; exact runs.taken) stOk _).from
      (by rw [keeps.hatch (by decide)]) (by rw [keeps.twin (by decide)]), (last.faults (by decide)).trans faults⟩

/-- The end of a FAULT_CLEAR that clears: the pin follows, and the counts of what is left are answered (R591, R595). -/
theorem faultClear_ends {s u : State} {mb : Nat} {q : Request} (taken : (s.box mb).taken = some q) (keeps : Keeps 128 s u)
    (firings : u.faults.firings = s.faults.firings) :
    let e := u.faultPin.replyOk mb u.faultPin.faults.counts
    (Only [.hatch, .faults] s e ∧ e.faults.open_ = u.faults.open_ ∧ e.faults.pinLow = e.faults.pinWanted ∧ e.faults.firings = s.faults.firings ∧
      s.Replies e mb q stOk (leBytes 1 u.faults.open_.length ++ leBytes 1 (u.faults.open_.filter (·.pin)).length ++ [0, 0])) ∧
    e.faults.overflow = u.faults.overflow ∧ e.faults.overflowPin = u.faults.overflowPin ∧ e.faults.mirror = u.faults.mirror := by
  dsimp only
  have counts : u.faultPin.faults.counts = leBytes 1 u.faults.open_.length ++ leBytes 1 (u.faults.open_.filter (·.pin)).length ++ [0, 0] := by
    rw [faultPin_faults]; rfl
  have pinned := faultPin_faults u
  have part := faultPin_keeps (M := 144) (by decide) (.refl _ u)
  have box : ∀ n, u.faultPin.box n = u.box n := faultPin_box u
  rw [counts]
  generalize leBytes 1 u.faults.open_.length ++ leBytes 1 (u.faults.open_.filter (·.pin)).length ++ [0, 0] = payload
  generalize u.faultPin = v at *
  have boxes : ∀ n, v.box n = s.box n := fun n => (box n).trans (keeps.box (by decide) n)
  have replies := reply_replies (s := v) (mb := mb) (q := q) (by rw [boxes]; exact taken) stOk payload
  have last : Keeps 16 v (v.replyOk mb payload) := replyOk_hatch (by decide) (.refl _ v)
  have ends : Keeps 144 s (v.replyOk mb payload) := replyOk_hatch (by decide) ((keeps.weaken (by decide)).trans part)
  have same : v.reply mb stOk payload = v.replyOk mb payload := rfl
  rw [same] at replies
  generalize v.replyOk mb payload = e at *
  rw [last.faults (by decide), pinned]
  refine ⟨⟨only_of ends, rfl, rfl, firings, ?_⟩, rfl, rfl, rfl⟩
  have epoch : v.twin.epoch = s.twin.epoch := by rw [part.twin (by decide), keeps.twin (by decide)]
  exact ⟨replies.done, replies.taken, by rw [replies.reply, epoch], by rw [replies.kept, epoch, boxes], by rw [replies.request, boxes],
    fun n other => (replies.others n other).trans (boxes n)⟩

theorem faultClear_lands {s : State} {mb : Fin 8} {q : Request} (runs : s.Runs mb 0x1711 q) : Lands (exec (.faultClear mb) s) fun e =>
    let refused := fun e st (x : Byte) => Only [.hatch] s e ∧ s.Replies e mb q st [x, 0, 0xFF, 0xFF]
    let id := uAt q.payload 0 4
    let cleared := fun (l : List FaultRec) => Only [.hatch, .faults] s e ∧ e.faults.open_ = l ∧ e.faults.pinLow = e.faults.pinWanted ∧
      e.faults.firings = s.faults.firings ∧ s.Replies e mb q stOk (leBytes 1 l.length ++ leBytes 1 (l.filter (·.pin)).length ++ [0, 0])
    if id = 2 ^ 32 - 1 then
      if 64 ≤ s.faults.open_.length then refused e stRefused 0xE2
      else cleared s.faults.open_ ∧ e.faults.overflow = false ∧ e.faults.overflowPin = false ∧ e.faults.mirror = s.faults.mirror
    else match s.faults.open_.find? fun x => x.id == id with
      | none => refused e stBadParam 0xE0
      | some r =>
        if s.faults.recPresent r = true then refused e stRefused 0xE1
        else if r.read = false then refused e stRefused 0xE3
        else cleared (s.faults.open_.filter fun x => x.id != id) ∧ e.faults.mirror = s.faults.mirror.filter (fun x => x.id != id) ∧
          e.faults.overflow = s.faults.overflow := by
  have run : exec (.faultClear mb) s = State.done (
      if uAt q.payload 0 4 = 2 ^ 32 - 1 then
        if 64 ≤ s.faults.open_.length then s.refuse mb stRefused 0xE2
        else
          let s1 := (s.updFaults fun f => { f with overflow := false, overflowPin := false }).faultPin
          s1.replyOk mb s1.faults.counts
      else
        match s.faults.open_.find? fun r => r.id == uAt q.payload 0 4 with
        | none => s.refuse mb stBadParam 0xE0
        | some r =>
          if s.faults.recPresent r then s.refuse mb stRefused 0xE1
          else if r.read = false then s.refuse mb stRefused 0xE3
          else
            let s1 := (s.updFaults fun f => { f with
              open_ := f.open_.filter fun x => x.id != uAt q.payload 0 4, mirror := f.mirror.filter fun x => x.id != uAt q.payload 0 4 }).faultPin
            s1.replyOk mb s1.faults.counts) := congrArg State.done (withCmd_runs runs _ _)
  dsimp only at run ⊢
  generalize uAt q.payload 0 4 = id at *
  refine lands_ite (fun all => lands_ite (fun full => ?_) fun room => ?_) fun one => ?_
  · rw [if_pos all] at run
    exact refuse_lands runs.taken (by decide) 0xE2 (run.trans (congrArg State.done (if_pos full)))
  · rw [if_pos all, if_neg room] at run
    obtain ⟨cleared, overflow, pin, mirror⟩ := faultClear_ends (s := s) (u := s.updFaults fun f => { f with overflow := false, overflowPin := false })
      runs.taken (updFaults_fewer (by decide) le_rfl rfl) rfl
    exact ⟨_, run, cleared, overflow, pin, mirror⟩
  · rw [if_neg one] at run
    cases found : s.faults.open_.find? fun x => x.id == id with
    | none =>
      rw [found] at run
      exact refuse_lands runs.taken (by decide) 0xE0 run
    | some r =>
      rw [found] at run
      dsimp only at run
      refine lands_ite (fun bad => refuse_lands runs.taken (by decide) 0xE1 (run.trans (congrArg State.done (if_pos bad)))) fun good => ?_
      rw [if_neg good] at run
      refine lands_ite (fun bad => refuse_lands runs.taken (by decide) 0xE3 (run.trans (congrArg State.done (if_pos bad)))) fun good => ?_
      rw [if_neg good] at run
      obtain ⟨cleared, overflow, -, mirror⟩ := faultClear_ends (s := s) (u := s.updFaults fun f => { f with
        open_ := f.open_.filter fun x => x.id != id, mirror := f.mirror.filter fun x => x.id != id })
        runs.taken (updFaults_fewer (by decide) (List.length_filter_le ..) rfl) rfl
      exact ⟨_, run, cleared, mirror, overflow⟩

theorem allStopped_iff (s : State) : (List.range 16).all s.strStopped = false ↔ ¬ ∀ n < 16, (s.str n).st = .stopped := by
  rw [← Bool.not_eq_true, List.all_eq_true]
  refine not_congr ⟨fun h n small => ?_, fun h n mem => ?_⟩
  · have stopped := h n (List.mem_range.2 small)
    rw [State.strStopped, Bool.or_eq_true] at stopped
    exact of_decide_eq_true (stopped.resolve_left fun big => absurd (of_decide_eq_true big) (by omega))
  · rw [State.strStopped, Bool.or_eq_true]
    exact .inr (decide_eq_true (h n (List.mem_range.1 mem)))

theorem faultInject_lands {s : State} {mb : Fin 8} {q : Request} (runs : s.Runs mb 0x1712 q) : Lands (exec (.faultInject mb) s) fun e =>
    let refused := fun e st (x : Byte) => Only [.hatch] s e ∧ s.Replies e mb q st [x, 0, 0xFF, 0xFF]
    let src := uAt q.payload 0 1
    let limit := uAt q.payload 1 1
    let inst := uAt q.payload 2 2
    let react := min (s.pu 0x1701 src 0 1) limit
    let pin := bit (s.pu 0x1701 src 1 1) 0
    if 4 < limit then refused e stBadParam 5
    else if faultSource src = none then refused e stBadParam 0xE6
    else if 3 ≤ limit ∧ ¬ ∀ n < 16, (s.str n).st = .stopped then refused e stRefused 0xE4
    else if s.fw.lc = .field then refused e stRefused 0xE7
    else Only [.todo, .hatch, .notif, .par, .faults, .pantry] s e ∧ s.Fired e src ∧
      match s.fireTarget src inst with
      | some (r, _) => s.Replies e mb q stOk (leBytes 4 r.id) ∧ e.faults.open_ = recSet s.faults.open_ { r with
          secondary := if r.secondary.contains src then r.secondary else r.secondary ++ [src], merges := min (2 ^ 32 - 1) (r.merges + 1),
          tickLast := s.now, pin := r.pin || pin, reaction := max r.reaction react, dirty := true }
      | none =>
        if (0 < react ∨ pin = true) ∧ s.faults.open_.length < 64 then
          ∃ r, e.faults.open_ = s.faults.open_ ++ [r] ∧ r.primary = src ∧ r.inst = inst ∧ r.inj = true ∧ r.real = false ∧ r.pin = pin ∧
            r.arg = slice q.payload 4 4 ∧ r.reaction = react ∧ r.tickFirst = s.now ∧ r.tickLast = s.now ∧
            (r.id ≠ s.faults.lastId → s.Replies e mb q stOk (leBytes 4 r.id))
        else e.faults.open_ = s.faults.open_ ∧ s.Replies e mb q stOk [0, 0, 0, 0] ∧
          (0 < react ∨ pin = true → e.faults.overflow = true) := by
  have run : exec (.faultInject mb) s = State.done (
      if 4 < uAt q.payload 1 1 then s.refuse mb stBadParam 0x05
      else if (faultSource (uAt q.payload 0 1)).isNone then s.refuse mb stBadParam 0xE6
      else if 3 ≤ uAt q.payload 1 1 ∧ (List.range 16).all s.strStopped = false then s.refuse mb stRefused 0xE4
      else if s.fw.lc = .field then s.refuse mb stRefused 0xE7
      else
        let s1 := (s.fireWith (uAt q.payload 0 1) (uAt q.payload 2 2) (slice q.payload 4 4) true (uAt q.payload 1 1)).bump 0x1705 noInst 2
        let joined := match s.fireTarget (uAt q.payload 0 1) (uAt q.payload 2 2) with
          | some x => x.1.id
          | none => if s1.faults.lastId = s.faults.lastId then 0 else s1.faults.lastId
        s1.replyOk mb (leBytes 4 joined)) := congrArg State.done (withCmd_runs runs _ _)
  dsimp only at run ⊢
  generalize uAt q.payload 0 1 = src at *
  generalize uAt q.payload 1 1 = limit at *
  generalize uAt q.payload 2 2 = inst at *
  have four : (slice q.payload 4 4).length = 4 := by rw [slice, List.length_map, List.length_range]
  generalize slice q.payload 4 4 = args at *
  refine lands_ite (fun bad => refuse_lands runs.taken (by decide) 0x05 (run.trans (congrArg State.done (if_pos bad)))) fun good => ?_
  rw [if_neg good] at run
  refine lands_ite (fun bad => refuse_lands runs.taken (by decide) 0xE6 (run.trans (congrArg State.done (if_pos (by rw [bad]; rfl))))) fun known => ?_
  rw [if_neg (by rw [Option.isNone_iff_eq_none]; exact known)] at run
  refine lands_ite (fun bad => refuse_lands runs.taken (by decide) 0xE4 (run.trans (congrArg State.done (if_pos ⟨bad.1, (allStopped_iff s).2 bad.2⟩))))
    fun good => ?_
  rw [if_neg fun h => good ⟨h.1, (allStopped_iff s).1 h.2⟩] at run
  refine lands_ite (fun bad => refuse_lands runs.taken (by decide) 0xE7 (run.trans (congrArg State.done (if_pos bad)))) fun good => ?_
  rw [if_neg good] at run
  refine ⟨_, run, ?_⟩
  have held := fireWith_held s known inst args limit
  have fired := fireWith_firings s (Option.isSome_iff_ne_none.2 known) inst args true limit
  have keeps := fireWith_keeps (M := 8440) (a1 := src) (a2 := inst) (a3 := args) (a4 := true) (a5 := limit) (by decide) (.refl _ s)
  have box : ∀ n, (s.fireWith src inst args true limit).box n = s.box n := fireWith_box s src inst args true limit
  generalize s.fireWith src inst args true limit = f at *
  have counted : (f.bump 0x1705 noInst 2).faults = f.faults := rfl
  have boxes : ∀ n, (f.bump 0x1705 noInst 2).box n = s.box n := box
  have part : Keeps 8440 s (f.bump 0x1705 noInst 2) := bump_keeps (by decide) keeps
  generalize f.bump 0x1705 noInst 2 = u at *
  rw [← counted] at held fired
  dsimp only at held
  generalize hid : (match s.fireTarget src inst with
    | some x => x.1.id
    | none => if u.faults.lastId = s.faults.lastId then 0 else u.faults.lastId) = joined
  have last : Keeps 16 u (u.replyOk mb (leBytes 4 joined)) := replyOk_hatch (by decide) (.refl _ u)
  have ends : Keeps 8440 s (u.replyOk mb (leBytes 4 joined)) := replyOk_hatch (by decide) part
  have turned := reply_replies (s := u) (mb := mb) (q := q) (by rw [boxes]; exact runs.taken) stOk (leBytes 4 joined)
  have same : u.reply mb stOk (leBytes 4 joined) = u.replyOk mb (leBytes 4 joined) := rfl
  rw [same] at turned
  generalize u.replyOk mb (leBytes 4 joined) = e at *
  have epoch : u.twin.epoch = s.twin.epoch := by rw [part.twin (by decide)]
  have replies : s.Replies e mb q stOk (leBytes 4 joined) :=
    ⟨turned.done, turned.taken, by rw [turned.reply, epoch], by rw [turned.kept, epoch, boxes], by rw [turned.request, boxes],
      fun n other => (turned.others n other).trans (boxes n)⟩
  have faults : e.faults = u.faults := last.faults (by decide)
  rw [← faults] at held fired
  refine ⟨only_of ends, by rw [State.Fired, fired, Tab.get_set, satN_eq_min], ?_⟩
  cases target : s.fireTarget src inst with
  | some x =>
    rw [target] at held hid
    subst hid
    exact ⟨replies, congrArg Prod.fst held⟩
  | none =>
    rw [target] at held hid
    dsimp only at held hid ⊢
    generalize min (s.pu 0x1701 src 0 1) limit = react at *
    generalize bit (s.pu 0x1701 src 1 1) 0 = pin at *
    by_cases opens : 0 < react ∨ pin = true
    · rw [if_pos opens] at held
      by_cases full : 64 ≤ s.faults.open_.length
      · rw [if_pos full] at held
        rw [if_neg fun h => absurd h.2 (by omega)]
        have id : joined = 0 := by
          rw [← hid, ← faults]
          exact if_pos (congrArg (fun x => x.2.1) held)
        rw [id] at replies
        exact ⟨congrArg Prod.fst held, replies, fun _ => congrArg (fun x => x.2.2) held⟩
      · rw [if_neg full] at held
        rw [if_pos ⟨opens, by omega⟩]
        refine ⟨s.newRec src inst react pin args, congrArg Prod.fst held, rfl, rfl, rfl, rfl, rfl, ?_, rfl, rfl, rfl, fun new => ?_⟩
        · change (padTo args 4).take 4 = args
          rw [padTo, four, Nat.sub_self, List.replicate_zero, List.append_nil, List.take_of_length_le four.le]
        · have lastId : u.faults.lastId = (s.newRec src inst react pin args).id := by rw [← faults]; exact congrArg (fun x => x.2.1) held
          have id : joined = (s.newRec src inst react pin args).id := by
            rw [← hid, lastId]
            exact if_neg new
          rw [id] at replies
          exact replies
    · rw [if_neg opens] at held
      rw [if_neg fun h => opens h.1]
      have id : joined = 0 := by
        rw [← hid, ← faults]
        exact if_pos (congrArg (fun x => x.2.1) held)
      rw [id] at replies
      exact ⟨congrArg Prod.fst held, replies, fun h => absurd h opens⟩

/-- Settles O52: each row reads and writes the open records alone, and a firing's are said by the record it merges into. -/
theorem faultRecords : Obligations.FaultRecords := by
  unfold Obligations.FaultRecords
  refine fun s => ⟨faultRecordMirror_next s, fun src rec_ t due => ⟨faultChipResetDue_lands due, faultChipResetDue_waits due⟩, fun none_ => ?_,
    fun mb q => ⟨faultRead_lands, faultClear_lands, faultInject_lands⟩⟩
  change execFaultChipResetDue s = _
  rw [execFaultChipResetDue, none_]

end Sys2Proof.Machine
end

section
/-!
PROOFS. What the operations of the auxiliary drives change (R470 to R493): the switches and the phases each of them may touch, and what of the
bridge it leaves. One relation says both, and every operation has it.
-/

namespace Sys2Proof.Machine

open Host

/-! ### The relation -/

/-- A bridge without its switches, its phases, the latest M, its edges and its short. -/
def Bridge.rest (x : Bridge) : Bridge := { x with sw := {}, phase := {}, lastM := 0, edges := [], short := false }

/-- From the one state to the other at most switches of `K` and phases of `P` of bridge `b` have changed, and its edges and its short; no dead
time in effect and no value of a parameter has. -/
structure State.Drives (b : Nat) (K P : Nat → Prop) (s t : State) : Prop where
  /-- The other bridges. -/
  others : ∀ c, c ≠ b → t.br c = s.br c
  /-- Whether the unit drives. -/
  driving : t.aux.driving = s.aux.driving
  /-- The elapsed time. -/
  mono : t.mono = s.mono
  /-- The values in effect. -/
  eff : t.par.eff = s.par.eff
  /-- The other switches. -/
  sw : ∀ j, ¬ K j → t.sw b j = s.sw b j
  /-- The other phases. -/
  aph : ∀ p, ¬ P p → t.aph b p = s.aph b p
  /-- The dead times in effect. -/
  dt : ∀ p, (t.aph b p).dt = (s.aph b p).dt
  /-- The rest of the bridge. -/
  rest : (t.br b).rest = (s.br b).rest

/-- The bridge's edges and its short stand too. -/
structure State.Holds (b : Nat) (K P : Nat → Prop) (s t : State) : Prop extends State.Drives b K P s t where
  /-- The edges to come. -/
  edges : (t.br b).edges = (s.br b).edges
  /-- The short. -/
  short : (t.br b).short = (s.br b).short

/-- Nothing: no switch, or no phase. -/
def noOne : Nat → Prop := fun _ => False

section
variable {b : Nat} {K L P Q : Nat → Prop} {s t u : State}

theorem State.Drives.refl (b : Nat) (K P : Nat → Prop) (s : State) : s.Drives b K P s :=
  ⟨fun _ _ => rfl, rfl, rfl, rfl, fun _ _ => rfl, fun _ _ => rfl, fun _ => rfl, rfl⟩

theorem State.Drives.trans (h : s.Drives b K P t) (k : t.Drives b K P u) : s.Drives b K P u :=
  ⟨fun c ne => (k.others c ne).trans (h.others c ne), k.driving.trans h.driving, k.mono.trans h.mono, k.eff.trans h.eff,
    fun j no => (k.sw j no).trans (h.sw j no), fun p no => (k.aph p no).trans (h.aph p no), fun p => (k.dt p).trans (h.dt p), k.rest.trans h.rest⟩

theorem State.Drives.wide (h : s.Drives b K P t) (sw : ∀ j, K j → L j) (ph : ∀ p, P p → Q p) : s.Drives b L Q t :=
  { h with sw := fun j no => h.sw j fun yes => no (sw j yes), aph := fun p no => h.aph p fun yes => no (ph p yes) }

theorem State.Holds.refl (b : Nat) (K P : Nat → Prop) (s : State) : s.Holds b K P s := ⟨.refl b K P s, rfl, rfl⟩

theorem State.Holds.trans (h : s.Holds b K P t) (k : t.Holds b K P u) : s.Holds b K P u :=
  ⟨h.toDrives.trans k.toDrives, k.edges.trans h.edges, k.short.trans h.short⟩

theorem State.Holds.wide (h : s.Holds b K P t) (sw : ∀ j, K j → L j) (ph : ∀ p, P p → Q p) : s.Holds b L Q t :=
  ⟨h.toDrives.wide sw ph, h.edges, h.short⟩

theorem State.Drives.pu (h : s.Drives b K P t) (id inst off n : Nat) : t.pu id inst off n = s.pu id inst off n := pu_congr h.eff ..

theorem State.Drives.phaseDt (h : s.Drives b K P t) (p : Nat) : t.phaseDt b p = s.phaseDt b p := by
  rw [State.phaseDt, State.phaseDt, h.dt, State.auxDt, State.auxDt, h.pu]

theorem Bridge.mode_of_rest {x y : Bridge} (h : x.rest = y.rest) : x.mode = y.mode := by injection h
theorem Bridge.trip_of_rest {x y : Bridge} (h : x.rest = y.rest) : x.trip = y.trip := by injection h

theorem State.Drives.mode (h : s.Drives b K P t) : (t.br b).mode = (s.br b).mode := Bridge.mode_of_rest h.rest
theorem State.Drives.trip (h : s.Drives b K P t) : (t.br b).trip = (s.br b).trip := Bridge.trip_of_rest h.rest

/-- A step that leaves the drives leaves every bridge. -/
theorem Keeps.holds {M : Nat} (h : Keeps M s t) (aux : M.testBit 23 = false) (mono : M.testBit 1 = false) (eff : t.par.eff = s.par.eff) :
    s.Holds b K P t := by
  have same : t.aux = s.aux := h.aux aux
  have br : ∀ c, t.br c = s.br c := fun c => by rw [State.br, State.br, same]
  have sw : ∀ j, t.sw b j = s.sw b j := fun j => by rw [State.sw, State.sw, br]
  have aph : ∀ p, t.aph b p = s.aph b p := fun p => by rw [State.aph, State.aph, br]
  exact ⟨⟨fun c _ => br c, by rw [same], h.mono mono, eff, fun j _ => sw j, fun p _ => aph p, fun p => by rw [aph], by rw [br]⟩, by rw [br], by rw [br]⟩

end

/-! ### Writes of one bridge, switch or phase -/

@[simp] theorem sw_modBr (s : State) (b c j : Nat) (f : Bridge → Bridge) (h : ∀ x, (f x).sw = x.sw) : (s.modBr b f).sw c j = s.sw c j := by
  by_cases e : c = b
  · subst e; rw [State.sw, br_modBr, h]; rfl
  · rw [State.sw, br_modBr_ne s e]; rfl

@[simp] theorem aph_modBr (s : State) (b c p : Nat) (f : Bridge → Bridge) (h : ∀ x, (f x).phase = x.phase) : (s.modBr b f).aph c p = s.aph c p := by
  by_cases e : c = b
  · subst e; rw [State.aph, br_modBr, h]; rfl
  · rw [State.aph, br_modBr_ne s e]; rfl

@[simp] theorem aph_modSw (s : State) (b k c p : Nat) (f : AuxSw → AuxSw) : (s.modSw b k f).aph c p = s.aph c p :=
  aph_modBr _ _ _ _ _ fun _ => rfl

@[simp] theorem sw_modAph (s : State) (b p c j : Nat) (f : AuxPhase → AuxPhase) : (s.modAph b p f).sw c j = s.sw c j :=
  sw_modBr _ _ _ _ _ fun _ => rfl

theorem modBr_drives (s : State) (b : Nat) (K P : Nat → Prop) {f : Bridge → Bridge} (sw : ∀ x, (f x).sw = x.sw := by intro _; rfl)
    (phase : ∀ x, (f x).phase = x.phase := by intro _; rfl) (rest : ∀ x, (f x).rest = x.rest := by intro _; rfl) : s.Drives b K P (s.modBr b f) :=
  ⟨fun _ ne => br_modBr_ne s ne f, rfl, rfl, rfl, fun j _ => sw_modBr s b b j f sw, fun p _ => aph_modBr s b b p f phase,
    fun p => by rw [aph_modBr s b b p f phase], by rw [br_modBr, rest]⟩

theorem modSw_holds (s : State) (b k : Nat) (f : AuxSw → AuxSw) (P : Nat → Prop) : s.Holds b (· = k) P (s.modSw b k f) :=
  ⟨⟨fun _ ne => br_modBr_ne s ne _, rfl, rfl, rfl, fun j ne => sw_modSw_ne s (fun h => ne h.2) f, fun p _ => aph_modSw ..,
    fun p => by rw [aph_modSw], by rw [State.modSw, br_modBr]; rfl⟩, by rw [State.modSw, br_modBr], by rw [State.modSw, br_modBr]⟩

theorem modAph_holds (s : State) (b p : Nat) (K : Nat → Prop) {f : AuxPhase → AuxPhase} (dt : ∀ x, (f x).dt = x.dt := by intro _; rfl) :
    s.Holds b K (· = p) (s.modAph b p f) :=
  ⟨⟨fun _ ne => br_modBr_ne s ne _, rfl, rfl, rfl, fun j _ => sw_modAph .., fun q ne => aph_modAph_ne s (fun h => ne h.2) f,
    fun q => by
      by_cases e : q = p
      · subst e; rw [aph_modAph, dt]
      · rw [aph_modAph_ne s (fun h => e h.2) f],
    by rw [State.modAph, br_modBr]; rfl⟩, by rw [State.modAph, br_modBr], by rw [State.modAph, br_modBr]⟩

section
variable (b : Nat) (K P : Nat → Prop) (s : State)

theorem condOn_holds (src inst sub : Nat) (args : Bytes) : s.Holds b K P (s.condOn src inst sub args) :=
  (condOn_keeps (M := 8440) (by decide) (.refl _ s)).holds (by decide) (by decide) (condOn_eff ..)

theorem condOff_holds (src inst sub : Nat) : s.Holds b K P (s.condOff src inst sub) :=
  (condOff_keeps (M := 128) (by decide) (.refl _ s)).holds (by decide) (by decide)
    (condOff_keeps (M := noPar) (by decide) (.refl _ s)).eff

theorem fire_holds (src inst : Nat) (args : Bytes) : s.Holds b K P (s.fire src inst args) :=
  (fire_keeps (M := 8440) (by decide) (.refl _ s)).holds (by decide) (by decide) (fire_eff ..)

theorem bumpBy_holds (id inst field n : Nat) : s.Holds b K P (s.bumpBy id inst field n) :=
  (bumpBy_keeps (M := 64) (by decide) (.refl _ s)).holds (by decide) (by decide) (bumpBy_eff ..)

end

/-! ### Judging -/

theorem auxTally_holds (s : State) (b p : Nat) (bad : Bool) (K : Nat → Prop) : s.Holds b K (· = p) (s.auxTally b p bad) := by
  unfold State.auxTally
  dsimp only
  split
  · split
    · exact ((modAph_holds s b p K).trans (modAph_holds _ b p K)).trans (condOn_holds ..)
    · exact modAph_holds s b p K
  · split
    · exact ((modAph_holds s b p K).trans (modAph_holds _ b p K)).trans (condOff_holds ..)
    · exact modAph_holds s b p K

theorem auxLaw_holds (s : State) (b p : Nat) (m : Int) (K : Nat → Prop) : s.Holds b K (· = p) (s.auxLaw b p m) := by
  unfold State.auxLaw
  dsimp only
  split
  · exact .refl ..
  · split
    · exact modAph_holds s b p K
    · split
      · exact modAph_holds s b p K
      · exact .refl ..

theorem lastM_holds (s : State) (b : Nat) (m : Int) (K P : Nat → Prop) : s.Holds b K P (s.modBr b fun x => { x with lastM := m }) :=
  ⟨modBr_drives s b K P, by rw [br_modBr], by rw [br_modBr]⟩

theorem auxJudge_holds (s : State) (b p : Nat) (j : AuxJudge) (K : Nat → Prop) : s.Holds b K (· = p) (s.auxJudge b p j) := by
  have ended : s.Holds b K (· = p) (s.modAph b p fun y => { y with judge := none }) := modAph_holds s b p K
  unfold State.auxJudge
  dsimp only
  split
  · split
    · exact ended.trans (auxTally_holds ..)
    · exact ((ended.trans (lastM_holds ..)).trans (auxLaw_holds ..)).trans (auxTally_holds ..)
  · exact ended.trans (auxTally_holds ..)

theorem auxTryJudge_holds (s : State) (b p : Nat) (K : Nat → Prop) : s.Holds b K (· = p) (s.auxTryJudge b p) := by
  unfold State.auxTryJudge
  split
  · split
    · exact auxJudge_holds ..
    · exact .refl ..
  · exact .refl ..

/-! ### Switches -/

theorem dropJudge_holds (s : State) (b k : Nat) (K : Nat → Prop) : s.Holds b K (· = k / 2) (s.dropJudge b k) :=
  modAph_holds s b (k / 2) K

theorem swOff_holds (s : State) (b k : Nat) : s.Holds b (· = k) (· = k / 2) (s.swOff b k) := by
  have first : s.Holds b (· = k) (· = k / 2) (if k % 2 = 0 then s.modAph b (k / 2) fun y => { y with through := y.through && y.refreshing } else s) := by
    split
    · exact modAph_holds s b (k / 2) _
    · exact .refl ..
  unfold State.swOff
  dsimp only
  split
  · exact first.trans (modSw_holds ..)
  · exact first.trans (modSw_holds ..)

/-- What a switch is once it has been commanded off. -/
theorem swOff_sw (s : State) (b k : Nat) : (s.swOff b k).sw b k =
    if (s.sw b k).on = true then { s.sw b k with cmd := false, on := false, pend := none, offSeen := false, offAt := some s.mono }
    else { s.sw b k with cmd := false, pend := none } := by
  have first : (if k % 2 = 0 then s.modAph b (k / 2) fun y => { y with through := y.through && y.refreshing } else s).sw b k = s.sw b k := by
    split
    · exact sw_modAph ..
    · rfl
  unfold State.swOff
  dsimp only
  split
  · rw [sw_modSw, first]
  · rw [sw_modSw, first]

/-- A switch is off, and no turn-on of it waits. -/
def AuxSw.rests (x : AuxSw) : Prop := x.on = false ∧ x.cmd = false ∧ x.pend = none

theorem swOff_rests (s : State) (b k : Nat) : ((s.swOff b k).sw b k).rests := by
  rw [swOff_sw]
  split
  · exact ⟨rfl, rfl, rfl⟩
  · rename_i off; exact ⟨Bool.eq_false_iff.2 off, rfl, rfl⟩

theorem shortMade_holds (s : State) (b k : Nat) (K : Nat → Prop) : s.Holds b K (· = k / 2) (s.shortMade b k) := by
  unfold State.shortMade
  split
  · exact (modAph_holds s b (k / 2) K).trans (condOff_holds ..)
  · exact .refl ..

/-- The state a switch that turns on leaves before the transition is judged. -/
def State.swTurned (s : State) (b k t : Nat) : State :=
  ((s.shortMade b k).modSw b k fun y => { y with cmd := true, on := true, off := false, pend := none }).modAph b (k / 2) fun y =>
    { y with judge := y.judge.map fun j => if j.tOn.isNone && (j.up == decide (k % 2 = 0)) then { j with tOn := some t } else j }

theorem swOn_eq (s : State) (b k t : Nat) : s.swOn b k t = (s.swTurned b k t).auxTryJudge b (k / 2) := rfl

theorem swOn_holds (s : State) (b k t : Nat) : s.Holds b (· = k) (· = k / 2) (s.swOn b k t) := by
  rw [swOn_eq]
  exact (((shortMade_holds s b k _).trans (modSw_holds ..)).trans (modAph_holds _ b (k / 2) _)).trans (auxTryJudge_holds ..)

theorem swOn_sw (s : State) (b k t : Nat) : (s.swOn b k t).sw b k = { s.sw b k with cmd := true, on := true, off := false, pend := none } := by
  rw [swOn_eq, (auxTryJudge_holds (s.swTurned b k t) b (k / 2) noOne).sw k (fun no => no), State.swTurned, sw_modAph, sw_modSw,
    (shortMade_holds s b k noOne).sw k (fun no => no)]

theorem shortFail_holds (s : State) (b k : Nat) (K : Nat → Prop) : s.Holds b K (· = k / 2) (s.shortFail b k) := by
  unfold State.shortFail
  split
  · exact (modAph_holds s b (k / 2) K).trans (condOn_holds ..)
  · exact .refl ..

theorem tryOn_holds (s : State) (b k due : Nat) : s.Holds b (· = k) (· = k / 2) (s.tryOn b k due) := by
  unfold State.tryOn
  dsimp only
  split
  · exact .refl ..
  · split
    · exact (dropJudge_holds ..).trans (shortFail_holds ..)
    · split
      · exact swOn_holds ..
      · exact modSw_holds ..

/-! ### Folds over the switches and the phases -/

section
variable {b : Nat} {K P : Nat → Prop}

theorem foldl_drives {α : Type} (f : State → α → State) (l : List α) (s : State) (h : ∀ t : State, ∀ x ∈ l, t.Drives b K P (f t x)) :
    s.Drives b K P (l.foldl f s) := by
  induction l generalizing s with
  | nil => exact .refl ..
  | cons x l ih => exact (h s x List.mem_cons_self).trans (ih (f s x) fun t y mem => h t y (List.mem_cons_of_mem x mem))

theorem foldl_holds {α : Type} (f : State → α → State) (l : List α) (s : State) (h : ∀ t : State, ∀ x ∈ l, t.Holds b K P (f t x)) :
    s.Holds b K P (l.foldl f s) := by
  induction l generalizing s with
  | nil => exact .refl ..
  | cons x l ih => exact (h s x List.mem_cons_self).trans (ih (f s x) fun t y mem => h t y (List.mem_cons_of_mem x mem))

/-- A property that one element of the list establishes and every other one keeps holds after the whole list. -/
theorem foldl_reached {α : Type} (p : State → Prop) (f : State → α → State) (l : List α) (s : State) (x : α) (mem : x ∈ l)
    (made : ∀ t, p (f t x)) (kept : ∀ t y, p t → p (f t y)) : p (l.foldl f s) := by
  have stays : ∀ (m : List α) (t : State), p t → p (m.foldl f t) := fun m => by
    induction m with
    | nil => exact fun _ h => h
    | cons y m ih => exact fun t h => ih _ (kept t y h)
  obtain ⟨l₁, l₂, rfl⟩ := List.append_of_mem mem
  rw [List.foldl_append, List.foldl_cons]
  exact stays l₂ _ (made _)

end

/-! ### Every switch off -/

theorem rests_of_swOff {s : State} {b k j : Nat} (h : (s.sw b j).rests) : ((s.swOff b k).sw b j).rests := by
  by_cases e : j = k
  · rw [e]; exact swOff_rests s b k
  · rw [(swOff_holds s b k).sw j e]; exact h

/-- Every switch and phase. -/
def anyOne : Nat → Prop := fun _ => True

theorem swAllOff_holds (s : State) (b : Nat) : s.Holds b anyOne anyOne ((List.range 6).foldl (fun s k => s.swOff b k) s) :=
  foldl_holds _ _ s fun t k _ => (swOff_holds t b k).wide (fun _ _ => trivial) fun _ _ => trivial

theorem phaseFloat_holds (s : State) (b p : Nat) (K : Nat → Prop) :
    s.Holds b K (· = p) (s.modAph b p fun y => { y with level := none, judge := none, refresh := 0 }) :=
  modAph_holds s b p K

theorem phasesFloat_holds (s : State) (b : Nat) (K : Nat → Prop) :
    s.Holds b K anyOne ((List.range 3).foldl (fun s p => s.modAph b p fun y => { y with level := none, judge := none, refresh := 0 }) s) :=
  foldl_holds _ _ s fun t p _ => (phaseFloat_holds t b p K).wide (fun _ h => h) fun _ _ => trivial

/-- The phases' part of the end of a short. -/
theorem shortPhases_holds (s : State) (b : Nat) (K : Nat → Prop) :
    s.Holds b K anyOne ((List.range 3).foldl (fun s p => (s.modAph b p fun y => { y with incomplete := false }).condOff 0x6E b p) s) :=
  foldl_holds _ _ s fun t p _ =>
    ((modAph_holds t b p K).trans (condOff_holds ..)).wide (fun _ h => h) fun _ _ => trivial

theorem shortEnd_drives (s : State) (b : Nat) (K : Nat → Prop) : s.Drives b K anyOne (s.shortEnd b) ∧ ((s.shortEnd b).br b).short = false ∧
    ((s.shortEnd b).br b).edges = (s.br b).edges := by
  have first : s.Drives b K anyOne (s.modBr b fun x => { x with short := false }) := modBr_drives s b K anyOne
  have phases := shortPhases_holds (s.modBr b fun x => { x with short := false }) b K
  unfold State.shortEnd
  exact ⟨first.trans phases.toDrives, by rw [phases.short, br_modBr], by rw [phases.edges, br_modBr]⟩

/-- The bridge before a short's end, with every switch commanded off. -/
def State.auxStill (s : State) (b : Nat) : State :=
  ((List.range 3).foldl (fun s p => s.modAph b p fun y => { y with level := none, judge := none, refresh := 0 })
    ((List.range 6).foldl (fun s k => s.swOff b k) s)).modBr b fun x => { x with edges := [] }

theorem auxAllOff_eq (s : State) (b : Nat) : s.auxAllOff b = (s.auxStill b).shortEnd b := rfl

theorem edgesNone_drives (s : State) (b : Nat) (K P : Nat → Prop) : s.Drives b K P (s.modBr b fun x => { x with edges := [] }) :=
  modBr_drives s b K P

theorem auxStill_drives (s : State) (b : Nat) : s.Drives b anyOne anyOne (s.auxStill b) := by
  unfold State.auxStill
  exact ((swAllOff_holds s b).toDrives.trans (phasesFloat_holds _ b anyOne).toDrives).trans (edgesNone_drives ..)

theorem auxAllOff_drives (s : State) (b : Nat) : s.Drives b anyOne anyOne (s.auxAllOff b) :=
  (auxStill_drives s b).trans (shortEnd_drives (s.auxStill b) b anyOne).1

theorem auxStill_rests (s : State) (b : Nat) {k : Nat} (lt : k < 6) : ((s.auxStill b).sw b k).rests := by
  unfold State.auxStill
  rw [(edgesNone_drives _ b noOne noOne).sw k fun no => no, (phasesFloat_holds _ b noOne).sw k fun no => no]
  exact foldl_reached (fun t => (t.sw b k).rests) _ _ s k (List.mem_range.2 lt) (fun t => swOff_rests t b k) fun t j h => rests_of_swOff h

/-- What a bridge is once it is off (R477, R491). -/
structure State.AllOff (s : State) (b : Nat) : Prop where
  /-- Its switches. -/
  sw : ∀ k < 6, (s.sw b k).rests
  /-- Its edges to come. -/
  edges : (s.br b).edges = []
  /-- Its short. -/
  short : (s.br b).short = false

theorem auxAllOff_allOff (s : State) (b : Nat) : (s.auxAllOff b).AllOff b := by
  obtain ⟨ends, short, edges⟩ := shortEnd_drives (s.auxStill b) b noOne
  rw [auxAllOff_eq]
  refine ⟨fun k lt => ?_, ?_, short⟩
  · rw [ends.sw k fun no => no]
    exact auxStill_rests s b lt
  · rw [edges, State.auxStill, br_modBr]

end Sys2Proof.Machine
end

section
/-!
PROOFS. The active short, the PWM and the modes of an auxiliary bridge (R475 to R487): each adds edges and commands switches, and the edges to come
that it finds stay.
-/

namespace Sys2Proof.Machine

open Host

/-! ### Edges to come -/

/-- The short stands, and every edge to come still is. -/
structure State.Adds (b : Nat) (K P : Nat → Prop) (s t : State) : Prop extends State.Drives b K P s t where
  /-- The edges to come. -/
  edges : ∀ e ∈ (s.br b).edges, e ∈ (t.br b).edges
  /-- The short. -/
  short : (t.br b).short = (s.br b).short

section
variable {b : Nat} {K L P Q : Nat → Prop} {s t u : State}

theorem State.Holds.adds (h : s.Holds b K P t) : s.Adds b K P t := ⟨h.toDrives, fun e mem => by rw [h.edges]; exact mem, h.short⟩

theorem State.Adds.refl (b : Nat) (K P : Nat → Prop) (s : State) : s.Adds b K P s := (State.Holds.refl b K P s).adds

theorem State.Adds.trans (h : s.Adds b K P t) (k : t.Adds b K P u) : s.Adds b K P u :=
  ⟨h.toDrives.trans k.toDrives, fun e mem => k.edges e (h.edges e mem), k.short.trans h.short⟩

theorem State.Adds.wide (h : s.Adds b K P t) (sw : ∀ j, K j → L j) (ph : ∀ p, P p → Q p) : s.Adds b L Q t :=
  ⟨h.toDrives.wide sw ph, h.edges, h.short⟩

theorem foldl_adds {α : Type} (f : State → α → State) (l : List α) (s : State) (h : ∀ t : State, ∀ x ∈ l, t.Adds b K P (f t x)) :
    s.Adds b K P (l.foldl f s) := by
  induction l generalizing s with
  | nil => exact .refl ..
  | cons x l ih => exact (h s x List.mem_cons_self).trans (ih (f s x) fun t y mem => h t y (List.mem_cons_of_mem x mem))

end

/-- A fold over the phases, seen from one of them. -/
theorem phases_split {p : Nat} (lt : p < 3) : ∃ l₁ l₂ : List Nat, List.range 3 = l₁ ++ p :: l₂ ∧ p ∉ l₁ ∧ p ∉ l₂ := by
  have three : p = 0 ∨ p = 1 ∨ p = 2 := by omega
  rcases three with rfl | rfl | rfl
  · exact ⟨[], [1, 2], rfl, by decide, by decide⟩
  · exact ⟨[0], [2], rfl, by decide, by decide⟩
  · exact ⟨[0, 1], [], rfl, by decide, by decide⟩

theorem mem_edgeInsert {x e : AuxEdge} {l : List AuxEdge} : x ∈ edgeInsert e l ↔ x = e ∨ x ∈ l := by
  induction l with
  | nil => rw [edgeInsert, List.mem_singleton]; exact ⟨.inl, fun h => h.elim id fun no => nomatch no⟩
  | cons y l ih =>
    rw [edgeInsert]
    split
    · rw [List.mem_cons, ih, List.mem_cons, or_left_comm]
    · rw [List.mem_cons]

theorem mem_edgesInserted {x : AuxEdge} {l es : List AuxEdge} : x ∈ l.foldl (fun es e => edgeInsert e es) es ↔ x ∈ l ∨ x ∈ es := by
  induction l generalizing es with
  | nil => exact ⟨.inr, fun h => h.elim (fun no => nomatch no) id⟩
  | cons e l ih => rw [List.foldl_cons, ih, mem_edgeInsert, List.mem_cons, or_left_comm, or_assoc]

theorem mem_addEdges {s : State} {b : Nat} {l : List AuxEdge} {x : AuxEdge} :
    x ∈ ((s.addEdges b l).br b).edges ↔ x ∈ l ∨ x ∈ (s.br b).edges := by
  rw [State.addEdges, br_modBr]
  exact mem_edgesInserted

theorem addEdges_adds (s : State) (b : Nat) (l : List AuxEdge) (K P : Nat → Prop) : s.Adds b K P (s.addEdges b l) :=
  ⟨modBr_drives s b K P, fun _ mem => mem_addEdges.2 (.inr mem), by rw [State.addEdges, br_modBr]⟩

/-! ### The active short (R487) -/

/-- The part of a phase in the begin of a short. -/
def State.shortPhase (b : Nat) (s : State) (p : Nat) : State :=
  let s := (s.swOff b (2 * p)).modAph b p fun y => { y with level := none, judge := none, refresh := 0 }
  if (s.sw b (2 * p + 1)).on then s else s.swOff b (2 * p + 1)

/-- The bridge at the begin of a short, before the edges of its low sides. -/
def State.shortBegun (s : State) (b : Nat) : State :=
  (List.range 3).foldl (State.shortPhase b) (s.modBr b fun x => { x with edges := [], short := true })

theorem shortStart_eq (s : State) (b : Nat) : s.shortStart b =
    (s.shortBegun b).addEdges b (((List.range 3).filter fun p => !((s.shortBegun b).sw b (2 * p + 1)).on).map fun p =>
      { at_ := s.mono + stp (s.phaseDt b p), k := 2 * p + 1, on := true }) := rfl

/-- A switch of a phase commanded off, seen from the phase. -/
theorem phaseOff_holds (s : State) {b k p : Nat} (half : k / 2 = p) : s.Holds b (fun j => j / 2 = p) (· = p) (s.swOff b k) :=
  (swOff_holds s b k).wide (fun _ e => by rw [e, half]) fun _ e => e.trans half

theorem high_half (p : Nat) : 2 * p / 2 = p := by omega
theorem low_half (p : Nat) : (2 * p + 1) / 2 = p := by omega

theorem shortPhase_holds (s : State) (b p : Nat) : s.Holds b (fun j => j / 2 = p) (· = p) (State.shortPhase b s p) := by
  have first := (phaseOff_holds s (b := b) (high_half p)).trans (phaseFloat_holds (s.swOff b (2 * p)) b p _)
  unfold State.shortPhase
  dsimp only
  split
  · exact first
  · exact first.trans (phaseOff_holds _ (low_half p))

theorem shortBegun_drives (s : State) (b : Nat) : s.Drives b anyOne anyOne (s.shortBegun b) ∧ ((s.shortBegun b).br b).short = true := by
  have first : s.Drives b anyOne anyOne (s.modBr b fun x => { x with edges := [], short := true }) := modBr_drives s b _ _
  have phases : (s.modBr b fun x => { x with edges := [], short := true }).Holds b anyOne anyOne (s.shortBegun b) :=
    foldl_holds _ _ _ fun t p _ => (shortPhase_holds t b p).wide (fun _ _ => trivial) fun _ _ => trivial
  exact ⟨first.trans phases.toDrives, by rw [phases.short, br_modBr]⟩

/-- A switch that rests rests on at the begin of a short. -/
theorem shortPhase_rests {s : State} {b p j : Nat} (h : (s.sw b j).rests) : ((State.shortPhase b s p).sw b j).rests := by
  have first : (((s.swOff b (2 * p)).modAph b p fun y => { y with level := none, judge := none, refresh := 0 }).sw b j).rests := by
    rw [sw_modAph]; exact rests_of_swOff h
  unfold State.shortPhase
  dsimp only
  split
  · exact first
  · exact rests_of_swOff first

theorem shortPhase_high (s : State) (b p : Nat) : ((State.shortPhase b s p).sw b (2 * p)).rests := by
  have first : (((s.swOff b (2 * p)).modAph b p fun y => { y with level := none, judge := none, refresh := 0 }).sw b (2 * p)).rests := by
    rw [sw_modAph]; exact swOff_rests s b (2 * p)
  unfold State.shortPhase
  dsimp only
  split
  · exact first
  · exact rests_of_swOff first

/-- The low sides keep the level they have. -/
theorem shortPhase_low (s : State) (b p n : Nat) : ((State.shortPhase b s p).sw b (2 * n + 1)).on = (s.sw b (2 * n + 1)).on := by
  have first : ((s.swOff b (2 * p)).modAph b p fun y => { y with level := none, judge := none, refresh := 0 }).sw b (2 * n + 1) = s.sw b (2 * n + 1) := by
    rw [sw_modAph, (swOff_holds s b (2 * p)).sw _ (by omega)]
  unfold State.shortPhase
  dsimp only
  generalize ((s.swOff b (2 * p)).modAph b p fun y => { y with level := none, judge := none, refresh := 0 }) = u at *
  split
  · rw [first]
  · rename_i off
    by_cases same : n = p
    · subst same
      rw [(swOff_rests u b (2 * n + 1)).1, ← first, Bool.eq_false_iff.2 off]
    · rw [(swOff_holds u b (2 * p + 1)).sw _ (by omega), first]

theorem shortBegun_low (s : State) (b n : Nat) : ((s.shortBegun b).sw b (2 * n + 1)).on = (s.sw b (2 * n + 1)).on := by
  unfold State.shortBegun
  rw [foldl_view (fun u : State => (u.sw b (2 * n + 1)).on) fun u p => shortPhase_low u b p n, sw_modBr]
  exact fun _ => rfl

/-- The bridge `b` is in the short that began at the state `s` (R487). -/
structure State.Shorted (s : State) (b : Nat) (e : State) : Prop where
  /-- The short. -/
  short : (e.br b).short = true
  /-- The high sides are off. -/
  high : ∀ p < 3, (e.sw b (2 * p)).on = false ∧ (e.sw b (2 * p)).cmd = false
  /-- Each low side was on already, or comes on DT later. -/
  low : ∀ p < 3, (s.sw b (2 * p + 1)).on = true ∨
    ({ at_ := s.mono + 20 * e.phaseDt b p, k := 2 * p + 1, on := true } : AuxEdge) ∈ (e.br b).edges

theorem shortStart_drives (s : State) (b : Nat) : s.Drives b anyOne anyOne (s.shortStart b) := by
  rw [shortStart_eq]
  exact (shortBegun_drives s b).1.trans (addEdges_adds ..).toDrives

theorem shortStart_short (s : State) (b : Nat) : ((s.shortStart b).br b).short = true := by
  rw [shortStart_eq, (addEdges_adds (s.shortBegun b) b _ noOne noOne).short, (shortBegun_drives s b).2]

theorem shortStart_sw (s : State) (b j : Nat) : (s.shortStart b).sw b j = (s.shortBegun b).sw b j := by
  rw [shortStart_eq, (addEdges_adds (s.shortBegun b) b _ noOne noOne).sw j fun no => no]

theorem shortStart_rests {s : State} {b j : Nat} (h : (s.sw b j).rests) : ((s.shortStart b).sw b j).rests := by
  rw [shortStart_sw]
  have stays : ∀ (l : List Nat) (t : State), (t.sw b j).rests → ((l.foldl (State.shortPhase b) t).sw b j).rests := fun l => by
    induction l with
    | nil => exact fun _ h => h
    | cons p l ih => exact fun t h => ih _ (shortPhase_rests h)
  exact stays _ _ (by rw [sw_modBr _ _ _ _ (fun x : Bridge => { x with edges := [], short := true }) fun _ => rfl]; exact h)

theorem shortStart_shorted (s : State) (b : Nat) : s.Shorted b (s.shortStart b) := by
  have drives := shortStart_drives s b
  refine ⟨shortStart_short s b, fun p lt => ?_, fun p lt => ?_⟩
  · rw [shortStart_sw]
    obtain ⟨on, cmd, -⟩ : ((s.shortBegun b).sw b (2 * p)).rests := foldl_reached (fun t => (t.sw b (2 * p)).rests) _ _ _ p (List.mem_range.2 lt)
      (fun t => shortPhase_high t b p) fun t q h => shortPhase_rests h
    exact ⟨on, cmd⟩
  · by_cases on : (s.sw b (2 * p + 1)).on = true
    · exact .inl on
    · refine .inr ?_
      rw [drives.phaseDt, shortStart_eq]
      refine mem_addEdges.2 (.inl (List.mem_map.2 ⟨p, List.mem_filter.2 ⟨List.mem_range.2 lt, ?_⟩, rfl⟩))
      rw [shortBegun_low, Bool.eq_false_iff.2 on]
      rfl

/-- What touches no high side, drops no edge and leaves the short leaves the bridge in it. -/
theorem State.Shorted.adds {s t u : State} {b : Nat} {K P : Nat → Prop} (h : s.Shorted b t) (k : t.Adds b K P u) (low : ∀ p, ¬ K (2 * p)) :
    s.Shorted b u :=
  ⟨k.short.trans h.short, fun p lt => by rw [k.sw _ (low p)]; exact h.high p lt, fun p lt =>
    (h.low p lt).imp_right fun mem => k.edges _ (by rw [k.phaseDt]; exact mem)⟩

/-- The low sides. -/
def lowSide : Nat → Prop := fun j => j % 2 = 1

theorem shortRetry_holds (s : State) (b : Nat) : s.Holds b lowSide anyOne (s.shortRetry b) :=
  foldl_holds _ _ s fun t p _ => by
    split
    · exact (tryOn_holds t b (2 * p + 1) t.mono).wide (fun j e => by rw [e]; unfold lowSide; omega) fun _ _ => trivial
    · exact .refl ..

theorem shortRetry_none {s : State} {b : Nat} (whole : ∀ p < 3, (s.aph b p).incomplete = false) : s.shortRetry b = s := by
  have stays : ∀ l : List Nat, (∀ p ∈ l, p < 3) →
      l.foldl (fun s p => if (s.aph b p).incomplete then s.tryOn b (2 * p + 1) s.mono else s) s = s := fun l => by
    induction l with
    | nil => exact fun _ => rfl
    | cons p l ih =>
      intro lt
      rw [List.foldl_cons, if_neg (by rw [whole p (lt p List.mem_cons_self)]; exact Bool.false_ne_true)]
      exact ih fun q mem => lt q (List.mem_cons_of_mem p mem)
  exact stays _ fun p mem => List.mem_range.1 mem

theorem not_lowSide (p : Nat) : ¬ lowSide (2 * p) := by unfold lowSide; omega

/-! ### DIRECT (R475, R477) -/

theorem auxInterlock_holds (s : State) (b p : Nat) : s.Holds b (fun j => j / 2 = p) (· = p) (s.auxInterlock b p) :=
  (((phaseOff_holds s (high_half p)).trans (phaseOff_holds _ (low_half p))).trans (bumpBy_holds ..)).trans (fire_holds ..)

theorem phaseTry_holds (s : State) {b k p due : Nat} (half : k / 2 = p) : s.Holds b (fun j => j / 2 = p) (· = p) (s.tryOn b k due) :=
  (tryOn_holds s b k due).wide (fun _ e => by rw [e, half]) fun _ e => e.trans half

theorem ite_holds {c : Prop} [Decidable c] {b : Nat} {K P : Nat → Prop} {s t u : State} (h : s.Holds b K P t) (k : s.Holds b K P u) :
    s.Holds b K P (if c then t else u) := by
  split
  · exact h
  · exact k

/-- A switch of a phase turned on, unless it is commanded already. -/
def State.phaseOn (s : State) (b k due : Nat) : State := if !(s.sw b k).cmd then s.tryOn b k due else s

/-- The part of a phase in a gate word, by its two bits. -/
def State.directBits (b : Nat) (s : State) (p : Nat) : Bool → Bool → State
  | true, true => s.auxInterlock b p
  | false, false => (s.swOff b (2 * p)).swOff b (2 * p + 1)
  | true, false => (s.swOff b (2 * p + 1)).phaseOn b (2 * p) s.mono
  | false, true => (s.swOff b (2 * p)).phaseOn b (2 * p + 1) s.mono

/-- The part of a phase in a gate word. -/
def State.directPhase (b w : Nat) (s : State) (p : Nat) : State := State.directBits b s p (bit w (2 * p)) (bit w (2 * p + 1))

theorem auxDirect_eq (s : State) (b w : Nat) : s.auxDirect b w = (List.range 3).foldl (State.directPhase b w) s := by
  unfold State.auxDirect
  refine congrArg (fun f => (List.range 3).foldl f s) (funext fun t => funext fun p => ?_)
  unfold State.directPhase
  dsimp only
  cases bit w (2 * p) <;> cases bit w (2 * p + 1) <;> rfl

theorem directPhase_holds (s : State) (b w p : Nat) : s.Holds b (fun j => j / 2 = p) (· = p) (State.directPhase b w s p) := by
  have turned : ∀ (u : State) k, k / 2 = p → u.Holds b (fun j => j / 2 = p) (· = p) (u.phaseOn b k s.mono) := fun u k half =>
    ite_holds (phaseTry_holds u half) (.refl ..)
  unfold State.directPhase State.directBits
  split
  · exact auxInterlock_holds s b p
  · exact (phaseOff_holds s (high_half p)).trans (phaseOff_holds _ (low_half p))
  · exact (phaseOff_holds s (low_half p)).trans (turned _ _ (high_half p))
  · exact (phaseOff_holds s (high_half p)).trans (turned _ _ (low_half p))

theorem auxDirect_holds (s : State) (b w : Nat) : s.Holds b anyOne anyOne (s.auxDirect b w) := by
  rw [auxDirect_eq]
  exact foldl_holds _ _ s fun t p _ => (directPhase_holds t b w p).wide (fun _ _ => trivial) fun _ _ => trivial

/-- A gate word, seen from one phase: what goes ahead and what follows is the other phases'. -/
theorem auxDirect_split (s : State) (b w : Nat) {p : Nat} (lt : p < 3) : ∃ t, s.Holds b (fun j => j / 2 ≠ p) (· ≠ p) t ∧
    (State.directPhase b w t p).Holds b (fun j => j / 2 ≠ p) (· ≠ p) (s.auxDirect b w) := by
  obtain ⟨l₁, l₂, split, before, after⟩ := phases_split lt
  have others : ∀ (l : List Nat) (u : State), p ∉ l → u.Holds b (fun j => j / 2 ≠ p) (· ≠ p) (l.foldl (State.directPhase b w) u) := fun l u no =>
    foldl_holds _ _ u fun v q mem => (directPhase_holds v b w q).wide (fun j e same => no (by rw [← same, e]; exact mem))
      fun j e same => no (by rw [← same, e]; exact mem)
  refine ⟨l₁.foldl (State.directPhase b w) s, others l₁ s before, ?_⟩
  rw [auxDirect_eq, split, List.foldl_append, List.foldl_cons]
  exact others l₂ _ after

/-! ### PWM (R479 to R486) -/

theorem ite_adds {c : Prop} [Decidable c] {b : Nat} {K P : Nat → Prop} {s t u : State} (h : s.Adds b K P t) (k : s.Adds b K P u) :
    s.Adds b K P (if c then t else u) := by
  split
  · exact h
  · exact k

/-- Edges of a phase added to a bridge, and the intervals dropped counted. -/
theorem phaseEdges_adds (s : State) (b p : Nat) (l : List AuxEdge) (n : Nat) {f : AuxPhase → AuxPhase}
    (dt : ∀ x, (f x).dt = x.dt := by intro _; rfl) : s.Adds b noOne (· = p) (((s.modAph b p f).addEdges b l).bumpBy 0x120D b 3 n) :=
  ((modAph_holds s b p noOne dt).adds.trans (addEdges_adds ..)).trans (bumpBy_holds ..).adds

/-- A refresh added to a bridge and counted. -/
theorem refresh_adds (s : State) (b p : Nat) (l : List AuxEdge) :
    s.Adds b noOne (· = p) (((s.modAph b p fun y => { y with refreshing := true }).addEdges b l).bump 0x120D b 4) :=
  ((modAph_holds s b p noOne).adds.trans (addEdges_adds ..)).trans (bumpBy_holds ..).adds

theorem mem_refresh {s : State} {b p : Nat} {l : List AuxEdge} {e : AuxEdge} (mem : e ∈ (s.br b).edges) :
    e ∈ ((((s.modAph b p fun y => { y with refreshing := true }).addEdges b l).bump 0x120D b 4).br b).edges := (refresh_adds s b p l).edges e mem

theorem mem_bumped {s : State} {b id inst field n : Nat} {e : AuxEdge} (mem : e ∈ (s.br b).edges) :
    e ∈ ((s.bumpBy id inst field n).br b).edges := mem

theorem ite_mem {c : Prop} [Decidable c] {b : Nat} {t u : State} {e : AuxEdge} (h : e ∈ (t.br b).edges) (k : e ∈ (u.br b).edges) :
    e ∈ ((if c then t else u).br b).edges := by
  split
  · exact h
  · exact k

/-- An enabled phase only adds its edges. -/
theorem pwmPhase_on {s : State} {b p : Nat} (start delay : Nat) (boundary : Bool) (on : ¬ bit (s.pu 0x1204 b 0 1) p = false) :
    s.Adds b noOne (· = p) (s.pwmPhase b p start delay boundary) := by
  unfold State.pwmPhase
  dsimp only
  rw [if_neg on]
  split
  · exact phaseEdges_adds s b p _ _
  · refine ite_adds ?_ (phaseEdges_adds s b p _ _)
    refine State.Adds.trans ?_ (refresh_adds _ b p _)
    exact phaseEdges_adds s b p _ _

theorem pwmPhase_adds (s : State) (b p start delay : Nat) (boundary : Bool) :
    s.Adds b (fun j => j / 2 = p) (· = p) (s.pwmPhase b p start delay boundary) := by
  by_cases off : bit (s.pu 0x1204 b 0 1) p = false
  · unfold State.pwmPhase
    dsimp only
    rw [if_pos off]
    exact (((phaseOff_holds s (high_half p)).trans (phaseOff_holds _ (low_half p))).trans (modAph_holds _ b p _)).adds
  · exact (pwmPhase_on start delay boundary off).wide (fun _ no => no.elim) fun _ h => h

/-- The part of a phase in a period of the PWM. -/
def State.pwmStep (b start : Nat) (whole boundary : Bool) (s : State) (p : Nat) : State :=
  s.pwmPhase b p start (if whole then s.phaseDt b p else s.phaseDt b p - s.phaseDt b p / 2) boundary

theorem pwmAll_eq (s : State) (b start : Nat) (whole boundary : Bool) :
    s.pwmAll b start whole boundary = (List.range 3).foldl (State.pwmStep b start whole boundary) s := rfl

theorem pwmAll_adds (s : State) (b start : Nat) (whole boundary : Bool) : s.Adds b anyOne anyOne (s.pwmAll b start whole boundary) := by
  rw [pwmAll_eq]
  exact foldl_adds _ _ s fun t p _ => (pwmPhase_adds t b p start _ boundary).wide (fun _ _ => trivial) fun _ _ => trivial

/-- A period of the PWM, seen from one phase. -/
theorem pwmAll_split (s : State) (b start : Nat) (whole boundary : Bool) {p : Nat} (lt : p < 3) :
    ∃ t, s.Adds b (fun j => j / 2 ≠ p) (· ≠ p) t ∧
      (State.pwmStep b start whole boundary t p).Adds b (fun j => j / 2 ≠ p) (· ≠ p) (s.pwmAll b start whole boundary) := by
  obtain ⟨l₁, l₂, split, before, after⟩ := phases_split lt
  have others : ∀ (l : List Nat) (u : State), p ∉ l →
      u.Adds b (fun j => j / 2 ≠ p) (· ≠ p) (l.foldl (State.pwmStep b start whole boundary) u) := fun l u no =>
    foldl_adds _ _ u fun v q mem => (pwmPhase_adds v b q start _ boundary).wide (fun j e same => no (by rw [← same, e]; exact mem))
      fun j e same => no (by rw [← same, e]; exact mem)
  refine ⟨l₁.foldl (State.pwmStep b start whole boundary) s, others l₁ s before, ?_⟩
  rw [pwmAll_eq, split, List.foldl_append, List.foldl_cons]
  exact others l₂ _ after

/-- A disabled phase floats. -/
theorem pwmPhase_off {s : State} {b p : Nat} (start delay : Nat) (boundary : Bool) (off : bit (s.pu 0x1204 b 0 1) p = false) :
    ((s.pwmPhase b p start delay boundary).sw b (2 * p)).on = false := by
  unfold State.pwmPhase
  dsimp only
  rw [if_pos off, sw_modAph]
  exact (rests_of_swOff (swOff_rests s b (2 * p))).1

theorem pwmPhase_rests {s : State} {b p j : Nat} (start delay : Nat) (boundary : Bool) (h : (s.sw b j).rests) :
    ((s.pwmPhase b p start delay boundary).sw b j).rests := by
  by_cases on : bit (s.pu 0x1204 b 0 1) p = false
  · unfold State.pwmPhase
    dsimp only
    rw [if_pos on, sw_modAph]
    exact rests_of_swOff (rests_of_swOff h)
  · rw [(pwmPhase_on start delay boundary on).sw j fun no => no]; exact h

theorem pwmAll_rests {s : State} {b j : Nat} (start : Nat) (whole boundary : Bool) (h : (s.sw b j).rests) :
    ((s.pwmAll b start whole boundary).sw b j).rests := by
  have stays : ∀ (l : List Nat) (t : State), (t.sw b j).rests → ((l.foldl (State.pwmStep b start whole boundary) t).sw b j).rests := fun l => by
    induction l with
    | nil => exact fun _ h => h
    | cons p l ih => exact fun t h => ih _ (pwmPhase_rests _ _ _ h)
  exact stays _ s h

/-- The changes of an enabled phase that was low and neither of whose intervals is too short: up at PER − CMP, down at PER + CMP (R479). -/
theorem pwmChanges_both {per c dt minOn : Nat} (some_ : 0 < c) (most : c < per) (high : dt + max 1 minOn ≤ 2 * c)
    (low : dt + max 1 minOn ≤ 2 * (per - c)) : pwmChanges false per c dt minOn = ([(per - c, true), (per + c, false)], 0) := by
  have long : ∀ n, dt + max 1 minOn ≤ n → tooShort n dt minOn = false := fun n le => decide_eq_false (by omega)
  unfold pwmChanges
  rw [if_neg (by omega), if_neg (by omega)]
  simp [long _ high, long _ low, b2n]

theorem pwmPhase_edges {s : State} {b p : Nat} (start delay : Nat) (boundary : Bool) (on : bit (s.pu 0x1204 b 0 1) p = true)
    (was : (s.aph b p).level = some false)
    (changes : (pwmChanges false (s.pu 0x1202 b 0 2) (s.auxCmp b p) (s.phaseDt b p) (s.pu 0x1207 b 0 2)).1 =
      [(s.pu 0x1202 b 0 2 - s.auxCmp b p, true), (s.pu 0x1202 b 0 2 + s.auxCmp b p, false)]) (e : AuxEdge)
    (mem : e ∈ changeEdges (s.br b).bAt p (s.phaseDt b p) (s.pu 0x1202 b 0 2 - s.auxCmp b p, true) ++
      changeEdges (s.br b).bAt p (s.phaseDt b p) (s.pu 0x1202 b 0 2 + s.auxCmp b p, false)) :
    e ∈ ((s.pwmPhase b p start delay boundary).br b).edges := by
  have new : ∀ u : State, e ∈ ((u.addEdges b ([(s.pu 0x1202 b 0 2 - s.auxCmp b p, true), (s.pu 0x1202 b 0 2 + s.auxCmp b p, false)].map
      (changeEdges (s.br b).bAt p (s.phaseDt b p))).flatten).br b).edges := fun u => mem_addEdges.2 (.inl (by
    rw [List.map_cons, List.map_cons, List.map_nil, List.flatten_cons, List.flatten_cons, List.flatten_nil, List.append_nil]
    exact mem))
  unfold State.pwmPhase
  dsimp only
  rw [if_neg (by rw [on]; decide)]
  split
  · rename_i none_
    rw [was] at none_
    cases none_
  · rename_i lv level
    rw [was] at level
    cases level
    rw [changes]
    exact ite_mem (mem_refresh (mem_bumped (new _))) (mem_bumped (new _))

/-! ### Modes (R477, R482) -/

/-- The state a mode is taken up in. -/
def State.moded (s : State) (b new : Nat) : State := s.modBr b fun x => { x with mode := new }

theorem phasesCleared_drives (s : State) (b : Nat) : s.Drives b noOne anyOne
    ((List.range 3).foldl (fun s p => s.modAph b p fun y => { y with level := none, judge := none, refresh := 0 })
      (s.modBr b fun x => { x with edges := [] })) :=
  (edgesNone_drives s b noOne anyOne).trans (phasesFloat_holds _ b noOne).toDrives

/-- The gate word at the end of an active short: each phase's own part. -/
theorem directAfterShort_adds (s : State) (b w start : Nat) : s.Adds b anyOne anyOne ((List.range 3).foldl (fun s p =>
    let h := bit w (2 * p)
    let l := bit w (2 * p + 1)
    if h && l then s.auxInterlock b p
    else if h || l then s.addEdges b [{ at_ := start + stp (s.phaseDt b p), k := levelSw p h, on := true }]
    else s) s) :=
  foldl_adds _ _ s fun t p _ => by
    dsimp only
    exact ite_adds ((auxInterlock_holds t b p).adds.wide (fun _ _ => trivial) fun _ _ => trivial) (ite_adds (addEdges_adds ..) (.refl ..))

theorem auxMode_drives (s : State) (b old new start : Nat) (boundary : Bool) :
    (s.moded b new).Drives b anyOne anyOne (s.auxMode b old new start boundary) := by
  have off := auxAllOff_drives (s.moded b new) b
  unfold State.auxMode
  dsimp only
  change (s.moded b new).Drives b anyOne anyOne (if new = 0 then if old = 0 then s.moded b new else (s.moded b new).auxAllOff b else _)
  split
  · split
    · exact .refl ..
    · exact off
  split
  · split
    · exact .refl ..
    · exact shortStart_drives (s.moded b new) b
  split
  · split
    · exact (pwmAll_adds (s.moded b new) b start false boundary).toDrives
    · exact off.trans (pwmAll_adds _ b start _ boundary).toDrives
  split
  · exact .refl ..
  split
  · exact off.trans (directAfterShort_adds _ b _ start).toDrives
  · exact ((phasesCleared_drives (s.moded b new) b).wide (fun _ no => no.elim) fun _ _ => trivial).trans (auxDirect_holds _ b _).toDrives

end Sys2Proof.Machine
end

section
/-!
PROOFS. The modes and trips of an auxiliary bridge (R472, R477 to R482, R487 to R491, R493, R495, R496).
-/

namespace Sys2Proof.Machine

open Host

/-! ### A gate word, phase by phase -/

theorem tryOn_on {s : State} {b k : Nat} (due : Nat) (off : (s.sw b k).on = false) (idle : (s.sw b k).pend = none) (free : (s.sw b k).locked = false)
    (fed : (s.sw b k).sg = true) (other : (s.sw b (swOther k)).cmd = false) (seen : (s.sw b (swOther k)).offSeen = true) :
    ((s.tryOn b k due).sw b k).on = true := by
  unfold State.tryOn
  dsimp only
  rw [if_neg (by rw [off, idle]; decide), if_neg (by rw [free, fed, other]; decide), if_pos seen, swOn_sw]

theorem phase_switch {k p : Nat} (half : k / 2 = p) : k = 2 * p ∨ k = 2 * p + 1 := by omega

theorem sw_ne_other (k : Nat) : swOther k ≠ k := by
  unfold swOther
  split
  · omega
  · omega

theorem phaseOn_ne {s : State} {b k j : Nat} (due : Nat) (ne : j ≠ k) : (s.phaseOn b k due).sw b j = s.sw b j := by
  unfold State.phaseOn
  split
  · exact (tryOn_holds s b k due).sw j ne
  · rfl

theorem directPhase_rests {s : State} {b w p k : Nat} (same : bit w (2 * p) = bit w (2 * p + 1)) (half : k / 2 = p) :
    ((State.directPhase b w s p).sw b k).rests := by
  have both : (((s.swOff b (2 * p)).swOff b (2 * p + 1)).sw b k).rests := by
    rcases phase_switch half with rfl | rfl
    · exact rests_of_swOff (swOff_rests s b _)
    · exact swOff_rests _ b _
  unfold State.directPhase
  rw [same]
  cases bit w (2 * p + 1)
  · exact both
  · change (((((s.swOff b (2 * p)).swOff b (2 * p + 1)).bump 0x120D b 2).fire 0x68 b (leBytes 1 p)).sw b k).rests
    rw [(fire_holds b noOne noOne _ _ _ _).sw k fun no => no]
    exact both

theorem directPhase_off {s : State} {b w p k : Nat} (half : k / 2 = p) (off : bit w k = false) :
    ((State.directPhase b w s p).sw b k).on = false := by
  rcases phase_switch half with rfl | rfl
  · cases low : bit w (2 * p + 1)
    · exact (directPhase_rests (off.trans low.symm) half).1
    · unfold State.directPhase
      rw [off, low]
      change (((s.swOff b (2 * p)).phaseOn b (2 * p + 1) s.mono).sw b (2 * p)).on = false
      rw [phaseOn_ne _ (by omega)]
      exact (swOff_rests ..).1
  · cases high : bit w (2 * p)
    · exact (directPhase_rests (high.trans off.symm) half).1
    · unfold State.directPhase
      rw [off, high]
      change (((s.swOff b (2 * p + 1)).phaseOn b (2 * p) s.mono).sw b (2 * p + 1)).on = false
      rw [phaseOn_ne _ (by omega)]
      exact (swOff_rests ..).1

/-- What a switch has to be for a gate word that names it alone to turn it on at once (R473, R476). -/
structure State.MayTurn (s : State) (b k : Nat) : Prop where
  /-- Its gate supply. -/
  fed : (s.sw b k).sg = true
  /-- It is not locked out. -/
  free : (s.sw b k).locked = false
  /-- It is not commanded. -/
  quiet : (s.sw b k).cmd = false
  /-- It is off. -/
  off : (s.sw b k).on = false
  /-- No turn-on of it waits. -/
  idle : (s.sw b k).pend = none
  /-- Its partner is off. -/
  other : (s.sw b (swOther k)).on = false
  /-- Its partner's turn-off is confirmed. -/
  seen : (s.sw b (swOther k)).offSeen = true

theorem State.MayTurn.turned {s : State} {b k : Nat} (h : s.MayTurn b k) (due : Nat) :
    (((s.swOff b (swOther k)).phaseOn b k due).sw b k).on = true := by
  have own := (swOff_holds s b (swOther k)).sw k (sw_ne_other k).symm
  have partner := swOff_sw s b (swOther k)
  rw [if_neg (by rw [h.other]; decide)] at partner
  unfold State.phaseOn
  rw [own, if_pos (by rw [h.quiet]; rfl)]
  exact tryOn_on due (by rw [own]; exact h.off) (by rw [own]; exact h.idle) (by rw [own]; exact h.free) (by rw [own]; exact h.fed)
    (by rw [partner]) (by rw [partner]; exact h.seen)

theorem swOther_high (p : Nat) : swOther (2 * p) = 2 * p + 1 := if_pos (by omega)
theorem swOther_low (p : Nat) : swOther (2 * p + 1) = 2 * p := (if_neg (by omega)).trans (by omega)

theorem directPhase_on {s : State} {b w p k : Nat} (half : k / 2 = p) (on : bit w k = true) (alone : bit w (swOther k) = false)
    (may : s.MayTurn b k) : ((State.directPhase b w s p).sw b k).on = true := by
  unfold State.directPhase
  have turned := may.turned s.mono
  rcases phase_switch half with rfl | rfl
  · rw [swOther_high] at alone turned
    rw [on, alone]
    exact turned
  · rw [swOther_low] at alone turned
    rw [on, alone]
    exact turned

/-! ### What comes ahead of a mode -/

theorem Bridge.rest_mode (x : Bridge) : x.rest.mode = x.mode := rfl
theorem Bridge.rest_trip (x : Bridge) : x.rest.trip = x.trip := rfl
theorem Bridge.rest_bAt (x : Bridge) : x.rest.bAt = x.bAt := rfl
theorem Bridge.rest_next (x : Bridge) : x.rest.next = x.next := rfl
theorem Bridge.rest_boundaries (x : Bridge) : x.rest.boundaries = x.boundaries := rfl

/-- Up to its mode, its trips, its boundary and its dead times, a bridge is as it was, and the others are. -/
structure State.Poised (b : Nat) (s t : State) : Prop where
  /-- The other bridges. -/
  others : ∀ c, c ≠ b → t.br c = s.br c
  /-- Whether the unit drives. -/
  driving : t.aux.driving = s.aux.driving
  /-- The elapsed time. -/
  mono : t.mono = s.mono
  /-- The switches. -/
  sw : ∀ j, t.sw b j = s.sw b j
  /-- The level of each phase. -/
  level : ∀ p, (t.aph b p).level = (s.aph b p).level
  /-- Whether the short of each phase is incomplete. -/
  incomplete : ∀ p, (t.aph b p).incomplete = (s.aph b p).incomplete
  /-- The edges to come. -/
  edges : (t.br b).edges = (s.br b).edges
  /-- The short. -/
  short : (t.br b).short = (s.br b).short

section
variable {b : Nat} {s t u : State}

theorem State.Poised.refl (b : Nat) (s : State) : s.Poised b s :=
  ⟨fun _ _ => rfl, rfl, rfl, fun _ => rfl, fun _ => rfl, fun _ => rfl, rfl, rfl⟩

theorem State.Poised.trans (h : s.Poised b t) (k : t.Poised b u) : s.Poised b u :=
  ⟨fun c ne => (k.others c ne).trans (h.others c ne), k.driving.trans h.driving, k.mono.trans h.mono, fun j => (k.sw j).trans (h.sw j),
    fun p => (k.level p).trans (h.level p), fun p => (k.incomplete p).trans (h.incomplete p), k.edges.trans h.edges, k.short.trans h.short⟩

theorem modBr_poised (s : State) (b : Nat) {f : Bridge → Bridge} (sw : ∀ x, (f x).sw = x.sw := by intro _; rfl)
    (phase : ∀ x, (f x).phase = x.phase := by intro _; rfl) (edges : ∀ x, (f x).edges = x.edges := by intro _; rfl)
    (short : ∀ x, (f x).short = x.short := by intro _; rfl) : s.Poised b (s.modBr b f) :=
  ⟨fun _ ne => br_modBr_ne s ne f, rfl, rfl, fun j => sw_modBr s b b j f sw, fun p => by rw [aph_modBr s b b p f phase],
    fun p => by rw [aph_modBr s b b p f phase], by rw [br_modBr, edges], by rw [br_modBr, short]⟩

theorem State.Holds.poised (h : s.Holds b noOne noOne t) : s.Poised b t :=
  ⟨h.others, h.driving, h.mono, fun j => h.sw j fun no => no, fun p => by rw [h.aph p fun no => no], fun p => by rw [h.aph p fun no => no],
    h.edges, h.short⟩

/-- A step that leaves the drives and the elapsed time alone. -/
theorem Keeps.poised {M : Nat} (h : Keeps M s t) (aux : M.testBit 23 = false) (mono : M.testBit 1 = false) : s.Poised b t := by
  have same : t.aux = s.aux := h.aux aux
  have br : ∀ c, t.br c = s.br c := fun c => by rw [State.br, State.br, same]
  have sw : ∀ j, t.sw b j = s.sw b j := fun j => by rw [State.sw, State.sw, br]
  have aph : ∀ p, t.aph b p = s.aph b p := fun p => by rw [State.aph, State.aph, br]
  exact ⟨fun c _ => br c, by rw [same], h.mono mono, sw, fun p => by rw [aph], fun p => by rw [aph], by rw [br], by rw [br]⟩

theorem State.Poised.shorted (h : s.Poised b t) (k : t.Shorted b u) : s.Shorted b u :=
  ⟨k.short, k.high, fun p lt => by rw [← h.sw, ← h.mono]; exact k.low p lt⟩

theorem State.Poised.otherBr {K P : Nat → Prop} (h : s.Poised b t) (k : t.Drives b K P u) : ∀ c, c ≠ b → u.br c = s.br c := fun c ne =>
  (k.others c ne).trans (h.others c ne)

end

/-! ### The boundary (R478 to R483) -/

theorem auxDtTake_poised (s : State) (b p : Nat) : s.Poised b (s.auxDtTake b p) := by
  unfold State.auxDtTake
  refine ⟨fun _ ne => br_modBr_ne s ne _, rfl, rfl, fun j => sw_modAph .., fun q => ?_, fun q => ?_, ?_, ?_⟩
  · by_cases same : q = p
    · subst same; rw [aph_modAph]
    · rw [aph_modAph_ne s fun h => same h.2]
  · by_cases same : q = p
    · subst same; rw [aph_modAph]
    · rw [aph_modAph_ne s fun h => same h.2]
  · rw [State.modAph, br_modBr]
  · rw [State.modAph, br_modBr]

theorem foldl_poised {b : Nat} {α : Type} (f : State → α → State) (h : ∀ (t : State) x, t.Poised b (f t x)) (l : List α) (s : State) :
    s.Poised b (l.foldl f s) := by
  induction l generalizing s with
  | nil => exact .refl ..
  | cons x l ih => exact (h s x).trans (ih _)

theorem auxDtTake_eff (s : State) (b p : Nat) : (s.auxDtTake b p).par.eff = s.par.eff := rfl

theorem auxDtTake_rest (s : State) (b p : Nat) : ((s.auxDtTake b p).br b).rest = (s.br b).rest := by
  rw [State.auxDtTake, State.modAph, br_modBr]
  rfl

/-- A bridge that has taken a boundary, before it takes its mode. -/
def State.auxEntered (s : State) (b : Nat) : State :=
  (List.range 3).foldl (fun s p => s.auxDtTake b p) ((s.captureAll auxShadowed b).modBr b fun x =>
    { x with bAt := (s.br b).next, next := (s.br b).next + stp (2 * (s.captureAll auxShadowed b).pu 0x1202 b 0 2),
             boundaries := (x.boundaries + 1) % 2 ^ 32 })

theorem captureAll_poised (s : State) (ids : List Nat) (b : Nat) : s.Poised b (s.captureAll ids b) :=
  (captureAll_keeps (M := 64) (by decide) (.refl _ s)).poised (by decide) (by decide)

theorem auxEntered_poised (s : State) (b : Nat) : s.Poised b (s.auxEntered b) :=
  ((captureAll_poised s auxShadowed b).trans (modBr_poised _ b)).trans (foldl_poised _ (fun t p => auxDtTake_poised t b p) _ _)

theorem auxEntered_eff (s : State) (b : Nat) : (s.auxEntered b).par.eff = (s.captureAll auxShadowed b).par.eff :=
  foldl_eff _ (fun t p => auxDtTake_eff t b p) _ _

theorem auxEntered_rest (s : State) (b : Nat) : ((s.auxEntered b).br b).rest =
    { (s.br b).rest with bAt := (s.br b).next, next := (s.br b).next + 40 * (s.captureAll auxShadowed b).pu 0x1202 b 0 2,
                         boundaries := ((s.br b).boundaries + 1) % 2 ^ 32 } := by
  have same : (s.captureAll auxShadowed b).br b = s.br b := by
    rw [State.br, (captureAll_keeps (M := 64) (by decide) (.refl _ s)).aux (by decide)]; rfl
  unfold State.auxEntered
  rw [foldl_view (fun t : State => (t.br b).rest) fun t p => auxDtTake_rest t b p, br_modBr, same, stp, ← Nat.mul_assoc]
  rfl

/-- The low sides a short lacks are tried where the bridge is in one. -/
def State.shortKept (s : State) (b : Nat) : State := if (s.br b).short then s.shortRetry b else s

theorem shortKept_holds (s : State) (b : Nat) : s.Holds b lowSide anyOne (s.shortKept b) := ite_holds (shortRetry_holds s b) (.refl ..)

theorem shortKept_none {s : State} {b : Nat} (no : (s.br b).short = false) : s.shortKept b = s :=
  if_neg (by rw [no]; exact Bool.false_ne_true)

theorem auxBoundary_eq (s : State) (b : Nat) : s.auxBoundary b =
    if !(s.auxEntered b).aux.driving then (s.auxEntered b).moded b ((s.auxEntered b).pu 0x1201 b 0 1)
    else if ((s.auxEntered b).br b).tripped then ((s.auxEntered b).moded b ((s.auxEntered b).pu 0x1201 b 0 1)).shortRetry b
    else State.shortKept (if (s.br b).mode = 3 ∧ (s.auxEntered b).pu 0x1201 b 0 1 = 3 then s.auxEntered b
      else (s.auxEntered b).auxMode b (s.br b).mode ((s.auxEntered b).pu 0x1201 b 0 1) (s.br b).next true) b := rfl

theorem moded_poised (s : State) (b new : Nat) : s.Poised b (s.moded b new) := modBr_poised s b

theorem moded_eff (s : State) (b new : Nat) : (s.moded b new).par.eff = s.par.eff := rfl

theorem moded_rest (s : State) (b new : Nat) : ((s.moded b new).br b).rest = { (s.br b).rest with mode := new } := by
  rw [State.moded, br_modBr]; rfl

theorem moded_mode (s : State) (b new : Nat) : ((s.moded b new).br b).mode = new := by rw [State.moded, br_modBr]

/-- A mode that a bridge has already changes nothing. -/
theorem moded_same {s : State} {b new : Nat} (same : (s.br b).mode = new) : (s.moded b new).Drives b noOne noOne s := by
  have poised := moded_poised s b new
  refine ⟨fun c ne => (poised.others c ne).symm, rfl, rfl, rfl, fun j _ => (poised.sw j).symm, fun p _ => ?_, fun p => ?_, ?_⟩
  · exact (aph_modBr s b b p (fun x => { x with mode := new }) fun _ => rfl).symm
  · exact congrArg AuxPhase.dt (aph_modBr s b b p (fun x => { x with mode := new }) fun _ => rfl).symm
  · rw [moded_rest, ← same]; rfl

theorem auxBoundary_drives (s : State) (b : Nat) :
    ((s.auxEntered b).moded b ((s.captureAll auxShadowed b).pu 0x1201 b 0 1)).Drives b anyOne anyOne (s.auxBoundary b) := by
  rw [auxBoundary_eq, pu_congr (auxEntered_eff s b)]
  generalize (s.captureAll auxShadowed b).pu 0x1201 b 0 1 = new
  have mode : ((s.auxEntered b).br b).mode = (s.br b).mode := by
    rw [← Bridge.rest_mode, auxEntered_rest]
    rfl
  generalize s.auxEntered b = v at *
  have kept : ∀ u : State, u.Drives b anyOne anyOne (u.shortKept b) := fun u =>
    (shortKept_holds u b).toDrives.wide (fun _ _ => trivial) fun _ _ => trivial
  split
  · exact .refl ..
  split
  · exact (shortRetry_holds _ b).toDrives.wide (fun _ _ => trivial) fun _ _ => trivial
  · refine State.Drives.trans ?_ (kept _)
    split
    · rename_i both
      exact (moded_same (mode.trans (both.1.trans both.2.symm))).wide (fun _ no => no.elim) fun _ no => no.elim
    · exact auxMode_drives v b _ new _ true

/-- The bridge at a boundary, with its new mode, is as it was. -/
theorem entered_moded_poised (s : State) (b new : Nat) : s.Poised b ((s.auxEntered b).moded b new) :=
  (auxEntered_poised s b).trans (moded_poised ..)

theorem tripped_of_trip {x y : Bridge} (h : x.trip = y.trip) : x.tripped = y.tripped := by rw [Bridge.tripped, Bridge.tripped, h]

theorem auxEntered_tripped (s : State) (b : Nat) : ((s.auxEntered b).br b).tripped = (s.br b).tripped :=
  tripped_of_trip (by rw [← Bridge.rest_trip, auxEntered_rest]; rfl)

/-- What a boundary makes of the bridge but for its gates. -/
theorem auxBoundary_rest (s : State) (b : Nat) : ((s.auxBoundary b).br b).bAt = (s.br b).next ∧
    ((s.auxBoundary b).br b).next = (s.br b).next + 40 * (s.captureAll auxShadowed b).pu 0x1202 b 0 2 ∧
    ((s.auxBoundary b).br b).boundaries = ((s.br b).boundaries + 1) % 2 ^ 32 ∧
    ((s.auxBoundary b).br b).mode = (s.captureAll auxShadowed b).pu 0x1201 b 0 1 := by
  have rest := ((auxBoundary_drives s b).rest).trans ((moded_rest ..).trans (by rw [auxEntered_rest]))
  refine ⟨?_, ?_, ?_, ?_⟩
  · rw [← Bridge.rest_bAt, rest]
  · rw [← Bridge.rest_next, rest]
  · rw [← Bridge.rest_boundaries, rest]
  · rw [← Bridge.rest_mode, rest]

/-- A bridge that may not move its gates at a boundary does not. -/
theorem auxBoundary_still {s : State} {b : Nat}
    (still : s.aux.driving = false ∨ ((s.br b).tripped = true ∧ ∀ p < 3, (s.aph b p).incomplete = false)) (k : Nat) :
    (s.auxBoundary b).sw b k = s.sw b k := by
  have poised := auxEntered_poised s b
  rw [auxBoundary_eq, poised.driving, auxEntered_tripped]
  generalize (s.auxEntered b).pu 0x1201 b 0 1 = new
  have moded := poised.trans (moded_poised (s.auxEntered b) b new)
  by_cases off : s.aux.driving = false
  · rw [if_pos (by rw [off]; rfl)]
    exact moded.sw k
  · obtain ⟨tripped, whole⟩ := still.resolve_left off
    rw [if_neg (by rw [Bool.not_eq_false _ |>.mp off]; decide), if_pos tripped, shortRetry_none fun p lt => by rw [moded.incomplete]; exact whole p lt]
    exact moded.sw k

/-- A boundary of a bridge that drives and is not tripped, where its mode is not SHORT still. -/
theorem auxBoundary_mode {s : State} {b : Nat} (driving : s.aux.driving = true) (free : (s.br b).tripped = false)
    (moves : ¬ ((s.br b).mode = 3 ∧ (s.captureAll auxShadowed b).pu 0x1201 b 0 1 = 3)) : s.auxBoundary b =
      ((s.auxEntered b).auxMode b (s.br b).mode ((s.captureAll auxShadowed b).pu 0x1201 b 0 1) (s.br b).next true).shortKept b := by
  rw [auxBoundary_eq, (auxEntered_poised s b).driving, auxEntered_tripped, driving, free, pu_congr (auxEntered_eff s b), if_neg moves,
    if_neg (by decide), if_neg (by decide)]

theorem auxMode_off {s : State} {b old : Nat} (start : Nat) (boundary : Bool) (was : old ≠ 0) :
    s.auxMode b old 0 start boundary = (s.moded b 0).auxAllOff b := by
  unfold State.auxMode
  rw [if_pos rfl, if_neg was]
  rfl

theorem auxMode_short {s : State} {b old : Nat} (start : Nat) (boundary : Bool) (no : (s.br b).short = false) :
    s.auxMode b old 3 start boundary = (s.moded b 3).shortStart b := by
  unfold State.auxMode
  rw [if_neg (by decide), if_pos rfl, if_neg (by rw [no]; decide)]
  rfl

theorem auxMode_pwm (s : State) (b start : Nat) (boundary : Bool) :
    s.auxMode b 1 1 start boundary = (s.moded b 1).pwmAll b start false boundary := by
  unfold State.auxMode
  rw [if_neg (by decide), if_neg (by decide), if_pos rfl, if_pos rfl]
  rfl

/-- A bridge whose edges to come are dropped and whose phases float. -/
def State.phasesCleared (s : State) (b : Nat) : State :=
  (List.range 3).foldl (fun s p => s.modAph b p fun y => { y with level := none, judge := none, refresh := 0 })
    (s.modBr b fun x => { x with edges := [] })

theorem auxMode_direct {s : State} {b old new : Nat} (start : Nat) (boundary : Bool) (other : new ≠ 0 ∧ new ≠ 3 ∧ new ≠ 1) (was : old < 2) :
    s.auxMode b old new start boundary = ((s.moded b new).phasesCleared b).auxDirect b (s.pu 0x1205 b 0 1) := by
  obtain ⟨off, short, pwm⟩ := other
  unfold State.auxMode
  rw [if_neg off, if_neg short, if_neg pwm]
  dsimp only
  rw [if_neg (by omega), if_neg (by omega)]
  rfl

theorem phasesCleared_sw (s : State) (b j : Nat) : (s.phasesCleared b).sw b j = s.sw b j := (phasesCleared_drives s b).sw j fun no => no

theorem phasesCleared_short (s : State) (b : Nat) : ((s.phasesCleared b).br b).short = (s.br b).short := by
  unfold State.phasesCleared
  rw [(phasesFloat_holds _ b noOne).short, br_modBr]

/-- What AuxModes asks of a bridge that is off (R477). -/
theorem State.AllOff.every {s : State} {b : Nat} (h : s.AllOff b) :
    (∀ k < 6, (s.sw b k).on = false ∧ (s.sw b k).cmd = false ∧ (s.sw b k).pend = none) ∧ (s.br b).edges = [] ∧ (s.br b).short = false :=
  ⟨h.sw, h.edges, h.short⟩

theorem State.Shorted.every {s e : State} {b : Nat} (h : s.Shorted b e) :
    (e.br b).short = true ∧ ∀ p < 3, (e.sw b (2 * p)).on = false ∧ (e.sw b (2 * p)).cmd = false ∧
      ((s.sw b (2 * p + 1)).on = true ∨ { at_ := s.mono + 20 * e.phaseDt b p, k := 2 * p + 1, on := true } ∈ (e.br b).edges) :=
  ⟨h.short, fun p lt => ⟨(h.high p lt).1, (h.high p lt).2, h.low p lt⟩⟩

theorem boundary_off {s : State} {b : Nat} (driving : s.aux.driving = true) (free : (s.br b).tripped = false)
    (new : (s.captureAll auxShadowed b).pu 0x1201 b 0 1 = 0) (was : (s.br b).mode ≠ 0) : (s.auxBoundary b).AllOff b := by
  have off := auxAllOff_allOff ((s.auxEntered b).moded b 0) b
  rw [auxBoundary_mode driving free (by rw [new]; omega), new, auxMode_off _ _ was, shortKept_none off.short]
  exact off

theorem boundary_short {s : State} {b : Nat} (driving : s.aux.driving = true) (free : (s.br b).tripped = false)
    (new : (s.captureAll auxShadowed b).pu 0x1201 b 0 1 = 3) (was : (s.br b).mode ≠ 3) (no : (s.br b).short = false) :
    s.Shorted b (s.auxBoundary b) := by
  have poised := entered_moded_poised s b 3
  rw [auxBoundary_mode driving free (fun both => was both.1), new, auxMode_short _ _ ((auxEntered_poised s b).short.trans no)]
  exact poised.shorted ((shortStart_shorted _ b).adds (shortKept_holds _ b).adds not_lowSide)

theorem boundary_pwm {s : State} {b : Nat} (driving : s.aux.driving = true) (free : (s.br b).tripped = false)
    (new : (s.captureAll auxShadowed b).pu 0x1201 b 0 1 = 1) (was : (s.br b).mode = 1) {p : Nat} (lt : p < 3) :
    let w := s.captureAll auxShadowed b
    let per := w.pu 0x1202 b 0 2
    let c := min (w.pu 0x1203 b (2 * p) 2) per
    let dt := (s.auxBoundary b).phaseDt b p
    let at_ := fun (n : Nat) => (s.br b).next + 20 * n
    (bit (w.pu 0x1204 b 0 1) p = false → ((s.auxBoundary b).sw b (2 * p)).on = false) ∧
    (bit (w.pu 0x1204 b 0 1) p = true → (s.aph b p).level = some false → 0 < c → c < per →
      dt + max 1 (w.pu 0x1207 b 0 2) ≤ 2 * c → dt + max 1 (w.pu 0x1207 b 0 2) ≤ 2 * (per - c) →
      { at_ := at_ (per - c - dt / 2), k := 2 * p + 1, on := false, judged := true } ∈ ((s.auxBoundary b).br b).edges ∧
      { at_ := at_ (per - c + (dt - dt / 2)), k := 2 * p, on := true, judged := true } ∈ ((s.auxBoundary b).br b).edges ∧
      { at_ := at_ (per + c - dt / 2), k := 2 * p, on := false, judged := true } ∈ ((s.auxBoundary b).br b).edges ∧
      { at_ := at_ (per + c + (dt - dt / 2)), k := 2 * p + 1, on := true, judged := true } ∈ ((s.auxBoundary b).br b).edges) := by
  have poised := entered_moded_poised s b 1
  have eff : ((s.auxEntered b).moded b 1).par.eff = (s.captureAll auxShadowed b).par.eff := (moded_eff ..).trans (auxEntered_eff s b)
  have bAt : (((s.auxEntered b).moded b 1).br b).bAt = (s.br b).next := by rw [← Bridge.rest_bAt, moded_rest, auxEntered_rest]
  rw [auxBoundary_mode driving free (by rw [new]; omega), new, was, auxMode_pwm]
  generalize (s.auxEntered b).moded b 1 = v at *
  obtain ⟨t, before, after⟩ := pwmAll_split v b (s.br b).next false true lt
  have stepEq : State.pwmStep b (s.br b).next false true t p = t.pwmPhase b p (s.br b).next (t.phaseDt b p - t.phaseDt b p / 2) true := by
    unfold State.pwmStep
    rw [if_neg Bool.false_ne_true]
  rw [stepEq] at after
  have kept := (shortKept_holds (v.pwmAll b (s.br b).next false true) b).adds
  generalize v.pwmAll b (s.br b).next false true = u at *
  have pu : ∀ id i o n, (s.captureAll auxShadowed b).pu id i o n = t.pu id i o n := fun _ _ _ _ => by
    rw [before.pu, pu_congr eff]
  have step := pwmPhase_adds t b p (s.br b).next (t.phaseDt b p - t.phaseDt b p / 2) true
  have dt : (u.shortKept b).phaseDt b p = t.phaseDt b p := by
    rw [kept.phaseDt, after.phaseDt, step.phaseDt]
  have tAt : (t.br b).bAt = (s.br b).next := by rw [← Bridge.rest_bAt, before.rest, Bridge.rest_bAt, bAt]
  have level : (t.aph b p).level = (s.aph b p).level := by rw [before.aph p fun no => no rfl, poised.level]
  dsimp only
  rw [dt]
  simp only [pu]
  refine ⟨fun off => ?_, fun on was_ some_ most high low => ?_⟩
  · rw [kept.sw _ (not_lowSide p), after.sw _ fun no => no (high_half p)]
    exact pwmPhase_off _ _ _ off
  · have edges := pwmPhase_edges (s := t) (b := b) (p := p) (s.br b).next (t.phaseDt b p - t.phaseDt b p / 2) true on (level.trans was_)
      (by rw [State.auxCmp, pwmChanges_both some_ most high low])
    have every : ∀ e, _ → e ∈ ((u.shortKept b).br b).edges := fun e mem => kept.edges e (after.edges e (edges e mem))
    rw [tAt] at every
    exact ⟨every _ (List.mem_append_left _ List.mem_cons_self), every _ (List.mem_append_left _ (List.mem_cons_of_mem _ List.mem_cons_self)),
      every _ (List.mem_append_right _ List.mem_cons_self), every _ (List.mem_append_right _ (List.mem_cons_of_mem _ List.mem_cons_self))⟩

theorem State.MayTurn.of_sw {s t : State} {b k : Nat} (h : s.MayTurn b k) (own : t.sw b k = s.sw b k)
    (other : t.sw b (swOther k) = s.sw b (swOther k)) : t.MayTurn b k :=
  ⟨by rw [own]; exact h.fed, by rw [own]; exact h.free, by rw [own]; exact h.quiet, by rw [own]; exact h.off, by rw [own]; exact h.idle,
    by rw [other]; exact h.other, by rw [other]; exact h.seen⟩

theorem swOther_half (k : Nat) : swOther k / 2 = k / 2 := by
  unfold swOther
  split
  · omega
  · omega

theorem boundary_direct {s : State} {b : Nat} (driving : s.aux.driving = true) (free : (s.br b).tripped = false)
    (new : (s.captureAll auxShadowed b).pu 0x1201 b 0 1 = 2) (was : (s.br b).mode < 2) (no : (s.br b).short = false) {p : Nat} (lt : p < 3) :
    let g := (s.captureAll auxShadowed b).pu 0x1205 b 0 1
    let e := s.auxBoundary b
    (bit g (2 * p) = bit g (2 * p + 1) → ∀ k, k / 2 = p → (e.sw b k).on = false ∧ (e.sw b k).cmd = false) ∧
    (∀ k, k / 2 = p → bit g k = false → (e.sw b k).on = false) ∧
    (∀ k, k / 2 = p → bit g k = true → bit g (swOther k) = false → s.MayTurn b k → (e.sw b k).on = true) := by
  have poised := entered_moded_poised s b 2
  rw [auxBoundary_mode driving free (by rw [new]; omega), new, auxMode_direct _ _ ⟨by decide, by decide, by decide⟩ was,
    pu_congr (auxEntered_eff s b)]
  generalize (s.auxEntered b).moded b 2 = v at *
  have sw := fun j => (phasesCleared_sw v b j).trans (poised.sw j)
  have short := (phasesCleared_short v b).trans (poised.short.trans no)
  generalize v.phasesCleared b = u at *
  generalize (s.captureAll auxShadowed b).pu 0x1205 b 0 1 = g
  rw [shortKept_none (((auxDirect_holds u b g).short).trans short)]
  obtain ⟨t, before, after⟩ := auxDirect_split u b g lt
  have ends : ∀ k, k / 2 = p → (u.auxDirect b g).sw b k = (State.directPhase b g t p).sw b k := fun k half => after.sw k fun other => other half
  have begins : ∀ k, k / 2 = p → t.sw b k = s.sw b k := fun k half => (before.sw k fun other => other half).trans (sw k)
  refine ⟨fun same k half => ?_, fun k half off => ?_, fun k half on alone may => ?_⟩
  · rw [ends k half]
    obtain ⟨off, quiet, -⟩ := directPhase_rests (s := t) (b := b) same half
    exact ⟨off, quiet⟩
  · rw [ends k half]
    exact directPhase_off half off
  · rw [ends k half]
    exact directPhase_on half on alone (may.of_sw (begins k half) (begins _ ((swOther_half k).trans half)))

end Sys2Proof.Machine
end

section
/-!
PROOFS. The trips of an auxiliary bridge, its commands and its start (R472, R487 to R491, R493, R495, R496), and the whole of its modes.
-/

namespace Sys2Proof.Machine

open Host

/-! ### Trips (R488, R490) -/

/-- A bridge with a trip latched, before its gates follow. -/
def State.tripLatched (s : State) (b i : Nat) : State :=
  (s.modBr b fun x => { x with trip := x.trip.mod {} i fun t =>
    { t with latched := true, short := s.pu 0x1209 b (4 * i + 2) 1 == 1 } }).bump 0x120D b 6

/-- The gates follow a trip. -/
def State.tripFollowed (s : State) (b : Nat) (short : Bool) : State :=
  if !s.aux.driving || (s.br b).short then s else if short then s.shortStart b else s.auxAllOff b

theorem auxTrip_eq (s : State) (b i : Nat) : s.auxTrip b i =
    ((s.tripLatched b i).tripFollowed b (s.pu 0x1209 b (4 * i + 2) 1 == 1)).condOn 0x6F b i (leBytes 1 i) := by
  have driving : (s.tripLatched b i).aux.driving = s.aux.driving := rfl
  have short : ((s.tripLatched b i).br b).short = (s.br b).short := by
    change ((s.modBr b _).br b).short = _
    rw [br_modBr]
  unfold State.tripFollowed
  rw [driving, short]
  rfl

theorem tripLatched_poised (s : State) (b i : Nat) : s.Poised b (s.tripLatched b i) :=
  (modBr_poised s b).trans (bumpBy_holds b noOne noOne _ 0x120D b 6 1).poised

theorem tripLatched_trip (s : State) (b i : Nat) : ((s.tripLatched b i).br b).trip =
    (s.br b).trip.mod {} i fun t => { t with latched := true, short := s.pu 0x1209 b (4 * i + 2) 1 == 1 } := by
  change ((s.modBr b _).br b).trip = _
  rw [br_modBr]

theorem tripFollowed_drives (s : State) (b : Nat) (short : Bool) : s.Drives b anyOne anyOne (s.tripFollowed b short) := by
  unfold State.tripFollowed
  split
  · exact .refl ..
  split
  · exact shortStart_drives s b
  · exact auxAllOff_drives s b

/-- No firing is counted and no condition is entered. -/
def State.Leaves (s t : State) : Prop := t.faults.firings = s.faults.firings ∧ ∀ x ∈ t.faults.present, x ∈ s.faults.present

theorem Keeps.leaves {M : Nat} {s t : State} (h : Keeps M s t) (k : M.testBit 7 = false) : s.Leaves t := by
  rw [State.Leaves, h.faults k]
  exact ⟨rfl, fun _ mem => mem⟩

theorem State.Leaves.trans {s t u : State} (h : s.Leaves t) (k : t.Leaves u) : s.Leaves u :=
  ⟨k.1.trans h.1, fun x mem => h.2 x (k.2 x mem)⟩

theorem condOff_leaves (s : State) (src inst sub : Nat) : s.Leaves (s.condOff src inst sub) := ⟨rfl, fun _ mem => (List.mem_filter.1 mem).1⟩

theorem foldl_leaves {α : Type} (f : State → α → State) (h : ∀ (t : State) x, t.Leaves (f t x)) (l : List α) (s : State) :
    s.Leaves (l.foldl f s) := by
  induction l generalizing s with
  | nil => exact ⟨rfl, fun _ mem => mem⟩
  | cons x l ih => exact (h s x).trans (ih _)

theorem modAph_leaves (s : State) (b p : Nat) (f : AuxPhase → AuxPhase) : s.Leaves (s.modAph b p f) := ⟨rfl, fun _ mem => mem⟩

theorem auxStill_keeps {M : Nat} {s t : State} (hM : Sub 8388608 M) (b : Nat) (h : Keeps M s t) : Keeps M s (t.auxStill b) :=
  modBr_keeps hM (keeps_foldl (keeps_foldl h fun _ _ => swOff_keeps hM) fun _ _ => modAph_keeps hM)

theorem shortEnd_leaves (s : State) (b : Nat) : s.Leaves (s.shortEnd b) := by
  unfold State.shortEnd
  refine ((modBr_keeps (M := 8388608) (by decide) (.refl _ s)).leaves (by decide)).trans (foldl_leaves _ (fun t p => ?_) _ _)
  exact (modAph_leaves t b p _).trans (condOff_leaves _ 0x6E b p)

theorem auxAllOff_leaves (s : State) (b : Nat) : s.Leaves (s.auxAllOff b) := by
  rw [auxAllOff_eq]
  exact ((auxStill_keeps (M := 8388608) (by decide) b (.refl _ s)).leaves (by decide)).trans (shortEnd_leaves ..)

theorem tripFollowed_leaves (s : State) (b : Nat) (short : Bool) : s.Leaves (s.tripFollowed b short) := by
  unfold State.tripFollowed
  split
  · exact ⟨rfl, fun _ mem => mem⟩
  split
  · exact (shortStart_keeps (M := 8388608) (by decide) (.refl _ s)).leaves (by decide)
  · exact auxAllOff_leaves s b

theorem State.AllOff.holds {s t : State} {b : Nat} (h : s.AllOff b) (k : s.Holds b noOne noOne t) : t.AllOff b :=
  ⟨fun j lt => by rw [k.sw j fun no => no]; exact h.sw j lt, k.edges.trans h.edges, k.short.trans h.short⟩

/-- What a trip does to the gates (R490). -/
theorem auxTrip_gates (s : State) (b i : Nat) :
    if s.aux.driving = false ∨ (s.br b).short = true then
      (∀ k, (s.auxTrip b i).sw b k = s.sw b k) ∧ ((s.auxTrip b i).br b).short = (s.br b).short
    else if s.pu 0x1209 b (4 * i + 2) 1 = 1 then s.Shorted b (s.auxTrip b i)
    else (s.auxTrip b i).AllOff b := by
  have poised := tripLatched_poised s b i
  rw [auxTrip_eq]
  generalize s.tripLatched b i = v at *
  have ends := condOn_holds b noOne noOne (v.tripFollowed b (s.pu 0x1209 b (4 * i + 2) 1 == 1)) 0x6F b i (leBytes 1 i)
  generalize State.condOn _ 0x6F b i (leBytes 1 i) = e at *
  unfold State.tripFollowed at ends
  rw [poised.driving, poised.short] at ends
  split
  · rename_i still
    rw [if_pos (by rcases still with h | h <;> rw [h] <;> simp)] at ends
    exact ⟨fun k => (ends.sw k fun no => no).trans (poised.sw k), ends.short.trans poised.short⟩
  · rename_i moves
    rw [not_or, Bool.not_eq_false, Bool.not_eq_true] at moves
    obtain ⟨driving, no⟩ := moves
    rw [if_neg (by rw [driving, no]; decide)] at ends
    split
    · rename_i asked
      rw [asked, if_pos (beq_self_eq_true 1)] at ends
      exact poised.shorted ((shortStart_shorted v b).adds ends.adds fun _ no => no)
    · rename_i not_
      rw [if_neg fun h => not_ (eq_of_beq h)] at ends
      exact (auxAllOff_allOff v b).holds ends

theorem auxTrip_lands {s : State} {b : Nat} (i : Nat) : Only [.todo, .hatch, .notif, .par, .faults, .pantry, .aux] s (s.auxTrip b i) ∧
    (∀ c, c ≠ b → (s.auxTrip b i).br c = s.br c) ∧
    ((s.auxTrip b i).br b).trip = (s.br b).trip.mod {} i (fun t => { t with latched := true, short := s.pu 0x1209 b (4 * i + 2) 1 == 1 }) ∧
    ({ src := 0x6F, inst := b, sub := i } ∉ s.faults.present → s.Fired (s.auxTrip b i) 0x6F) := by
  have poised := tripLatched_poised s b i
  have trip := tripLatched_trip s b i
  have keeps : Keeps 8388672 s (s.tripLatched b i) := bump_keeps (by decide) (modBr_keeps (by decide) (.refl _ s))
  have first := keeps.leaves (by decide)
  refine ⟨only_of (auxTrip_keeps (by decide) (.refl _ s)), ?_⟩
  rw [auxTrip_eq]
  generalize s.tripLatched b i = v at *
  have follows := tripFollowed_drives v b (s.pu 0x1209 b (4 * i + 2) 1 == 1)
  have leaves := first.trans (tripFollowed_leaves v b (s.pu 0x1209 b (4 * i + 2) 1 == 1))
  generalize v.tripFollowed b _ = u at *
  have ends := follows.trans (condOn_holds b anyOne anyOne u 0x6F b i (leBytes 1 i)).toDrives
  refine ⟨poised.otherBr ends, ends.trip.trans trip, fun absent => ?_⟩
  refine (condOn_fired u (by decide) ?_ _).from leaves.1
  exact Bool.eq_false_iff.2 fun present => absent (leaves.2 _ (List.contains_iff_mem.1 present))

/-! ### The commands (R487, R491, R495, R496) -/

/-- A trip of the mask cleared. -/
def State.clearTrip (b mask : Nat) (s : State) (i : Nat) : State :=
  if bit mask i then
    (s.modBr b fun x => { x with trip := x.trip.mod {} i fun t => { t with latched := false, short := false } }).condOff 0x6F b i
  else s

theorem clearTrip_poised (s : State) (b mask i : Nat) : s.Poised b (State.clearTrip b mask s i) := by
  unfold State.clearTrip
  split
  · exact (modBr_poised s b).trans (condOff_holds b noOne noOne _ 0x6F b i).poised
  · exact .refl ..

theorem clearTrip_trip (s : State) (b mask i j : Nat) : ((State.clearTrip b mask s i).br b).trip.get {} j =
    if j = i ∧ bit mask i = true then { (s.br b).trip.get {} j with latched := false, short := false } else (s.br b).trip.get {} j := by
  unfold State.clearTrip
  split
  · rename_i named
    change (((s.modBr b _).br b).trip).get {} j = _
    rw [br_modBr]
    dsimp only
    by_cases same : j = i
    · rw [if_pos ⟨same, named⟩, same, Tab.get_mod]
    · rw [if_neg fun h => same h.1, Tab.get_mod_ne _ _ same]
  · rename_i other
    rw [if_neg fun h => other h.2]

/-- A mode written to the shadow and into effect, and taken. -/
def State.modeWritten (s : State) (b m : Nat) (v : Bytes) : State := ((s.setParam 0x1201 b v).saveParam 0x1201 b v).moded b m

theorem modeWritten_poised (s : State) (b m : Nat) (v : Bytes) : s.Poised b (s.modeWritten b m v) :=
  ((saveParam_keeps (M := 64) (by decide) (setParam_keeps (by decide) (.refl _ s))).poised (by decide) (by decide)).trans (moded_poised ..)

theorem modeWritten_peff (s : State) (b m : Nat) (v : Bytes) : (s.modeWritten b m v).peff 0x1201 b = v := by
  change ((s.setParam 0x1201 b v).par.eff.get? (pKey 0x1201 b)).getD _ = v
  rw [State.setParam, updPar_par]
  dsimp only
  rw [Tab.get?_set]
  rfl

theorem modeWritten_peff_ne (s : State) (b m : Nat) (v : Bytes) {id inst : Nat} (ne : pKey id inst ≠ pKey 0x1201 b) :
    (s.modeWritten b m v).peff id inst = s.peff id inst := setParam_peff_ne s ne v

theorem auxClear_eq (s : State) (b mask : Nat) :
    s.auxClear b mask = (((List.range 2).foldl (State.clearTrip b mask) s).modeWritten b 0 [0]).auxAllOff b := rfl

theorem auxAct_eq (s : State) (b : Nat) (short : Bool) : s.auxAct b short =
    let t := s.modeWritten b (if short then 3 else 0) (leBytes 1 (if short then 3 else 0))
    if !s.aux.driving || (s.br b).tripped then t
    else if short then (if (s.br b).short then t else t.shortStart b)
    else t.auxAllOff b := rfl

/-- The end of an accepted write after an effect that leaves the standby's presence alone. -/
theorem write_ends_standby {s u : State} {l : List Part} {mb : Nat} {q : Request} (taken : (s.box mb).taken = some q) (part : Only l s u)
    (hatch : u.hatch = s.hatch) (twin : u.twin = s.twin) (mono : u.mono = s.mono) (standby : u.hasStandby = s.hasStandby) (payload data : Bytes) :
    OnlyWrite l s (u.finishWrite mb q payload data) ∧ s.Accepts (u.finishWrite mb q payload data) mb q payload := by
  have held : (u.box mb).taken = some q := by rw [State.box, hatch]; exact taken
  exact ⟨part.finishWrite standby mb q payload data, (finishWrite_accepts held payload data).from (by rw [hatch]) twin mono standby⟩

theorem hasStandby_of_peff {s t : State} (twin : t.twin = s.twin) (peff : t.peff 0x0D02 noInst = s.peff 0x0D02 noInst) :
    t.hasStandby = s.hasStandby := by
  simp only [State.hasStandby, State.twinEn, State.pu, peff, twin]

theorem finishWrite_eff (s : State) (mb : Nat) (q : Request) (payload data : Bytes) : (s.finishWrite mb q payload data).par.eff = s.par.eff := by
  unfold State.finishWrite
  split
  · exact (waitFor_keeps (M := noPar) (by decide) (forwardRequest_keeps (by decide) (.refl _ s))).eff
  · exact reply_eff ..

theorem finishWrite_holds (s : State) (mb : Nat) (q : Request) (payload data : Bytes) (b : Nat) :
    s.Holds b noOne noOne (s.finishWrite mb q payload data) :=
  (finishWrite_keeps (M := 67664) (by decide) (.refl _ s)).holds (by decide) (by decide)
    (finishWrite_eff s mb q payload data)

/-- The trips of the two inputs that a mask names and a predicate holds of. -/
def tripMask2 (m : Nat) (f : Nat → Bool) : Nat := (List.range 2).foldl (fun n i => n + (if bit m i && f i then 2 ^ i else 0)) 0

theorem tripMask2_eq (m : Nat) (f : Nat → Bool) : tripMask2 m f = b2n (bit m 0 && f 0) + 2 * b2n (bit m 1 && f 1) := by
  change 0 + (if (bit m 0 && f 0) = true then 2 ^ 0 else 0) + (if (bit m 1 && f 1) = true then 2 ^ 1 else 0) = _
  cases bit m 0 && f 0 <;> cases bit m 1 && f 1 <;> rfl

theorem tripMask2_bit (m : Nat) (f : Nat → Bool) : bit (tripMask2 m f) 0 = (bit m 0 && f 0) ∧ bit (tripMask2 m f) 1 = (bit m 1 && f 1) := by
  rw [tripMask2_eq]
  cases bit m 0 && f 0 <;> cases bit m 1 && f 1 <;> exact ⟨rfl, rfl⟩

theorem tripMask2_zero (m : Nat) (f : Nat → Bool) : tripMask2 m f = 0 ↔ (bit m 0 && f 0) = false ∧ (bit m 1 && f 1) = false := by
  rw [tripMask2_eq]
  cases bit m 0 && f 0 <;> cases bit m 1 && f 1 <;> decide

/-- What a clearing of trips makes of the bridge. -/
theorem auxClear_spec (s : State) (b mask : Nat) : (∀ c, c ≠ b → (s.auxClear b mask).br c = s.br c) ∧ ((s.auxClear b mask).br b).mode = 0 ∧
    (s.auxClear b mask).AllOff b ∧ (s.auxClear b mask).peff 0x1201 b = [0] ∧
    (∀ id inst, pKey id inst ≠ pKey 0x1201 b → (s.auxClear b mask).peff id inst = s.peff id inst) ∧
    ∀ j < 2, ((s.auxClear b mask).br b).trip.get {} j =
      if bit mask j = true then { (s.br b).trip.get {} j with latched := false, short := false } else (s.br b).trip.get {} j := by
  have trips : ∀ j < 2, (((List.range 2).foldl (State.clearTrip b mask) s).br b).trip.get {} j =
      if bit mask j = true then { (s.br b).trip.get {} j with latched := false, short := false } else (s.br b).trip.get {} j := fun j lt => by
    change ((State.clearTrip b mask (State.clearTrip b mask s 0) 1).br b).trip.get {} j = _
    have two : j = 0 ∨ j = 1 := by omega
    rcases two with rfl | rfl
    · rw [clearTrip_trip, if_neg fun h => absurd h.1 (by decide), clearTrip_trip]
      exact if_congr ⟨fun h => h.2, fun h => ⟨rfl, h⟩⟩ rfl rfl
    · rw [clearTrip_trip, clearTrip_trip, if_neg (c := 1 = 0 ∧ _) fun h => absurd h.1 (by decide)]
      exact if_congr ⟨fun h => h.2, fun h => ⟨rfl, h⟩⟩ rfl rfl
  have cleared := foldl_poised (State.clearTrip b mask) (fun t i => clearTrip_poised t b mask i) (List.range 2) s
  have same : ((List.range 2).foldl (State.clearTrip b mask) s).par.eff = s.par.eff := foldl_eff _ (fun t i => by
    unfold State.clearTrip
    split
    · exact (condOff_holds b noOne noOne (t.modBr b _) 0x6F b i).eff
    · rfl) _ s
  rw [auxClear_eq]
  generalize (List.range 2).foldl (State.clearTrip b mask) s = u at *
  have written := modeWritten_poised u b 0 [0]
  have mode : ((u.modeWritten b 0 [0]).br b).mode = 0 := moded_mode ..
  have trip : ((u.modeWritten b 0 [0]).br b).trip = (u.br b).trip := by
    unfold State.modeWritten
    rw [← Bridge.rest_trip, moded_rest, ← Bridge.rest_trip]
    rfl
  have own := modeWritten_peff u b 0 [0]
  have peffs : ∀ id inst, pKey id inst ≠ pKey 0x1201 b → (u.modeWritten b 0 [0]).peff id inst = s.peff id inst := fun id inst ne =>
    (modeWritten_peff_ne u b 0 [0] ne).trans (by rw [State.peff, same, State.peff])
  generalize u.modeWritten b 0 [0] = v at *
  have off := auxAllOff_drives v b
  have kept : ∀ id inst, (v.auxAllOff b).peff id inst = v.peff id inst := fun id inst => by rw [State.peff, off.eff, State.peff]
  exact ⟨(cleared.trans written).otherBr off, off.mode.trans mode, auxAllOff_allOff v b, (kept ..).trans own,
    fun id inst ne => (kept ..).trans (peffs id inst ne), fun j lt => by rw [off.trip, trip]; exact trips j lt⟩

theorem auxTripClear_lands {s : State} {mb : Fin 8} {q : Request} (runs : s.Runs mb 0x1220 q) (may : s.Writes mb 0x12) :
    Lands (exec (.auxTripClear mb) s) fun e =>
      let i := uAt q.payload 0 1
      let m := uAt q.payload 1 1
      let t := fun j => (s.br i).trip.get {} j
      let refused := fun st (x : Byte) => Only [.hatch] s e ∧ s.Replies e mb q st [x, 0, 0xFF, 0xFF]
      if 1 < i then refused stBadParam 5
      else if (bit m 0 = true ∧ s.auxActive i 0 = true) ∨ (bit m 1 = true ∧ s.auxActive i 1 = true) then refused stTrip 0xB1
      else if (bit m 0 = false ∨ (t 0).latched = false) ∧ (bit m 1 = false ∨ (t 1).latched = false) then refused stRefused 0xB2
      else OnlyWrite [.par, .faults, .aux] s e ∧ (∀ c, c ≠ i → e.br c = s.br c) ∧ (e.br i).mode = 0 ∧
        ((∀ k < 6, (e.sw i k).on = false ∧ (e.sw i k).cmd = false ∧ (e.sw i k).pend = none) ∧ (e.br i).edges = [] ∧ (e.br i).short = false) ∧
        e.peff 0x1201 i = [0] ∧ s.Accepts e mb q (leBytes 1 (b2n (bit m 0 && (t 0).latched) + 2 * b2n (bit m 1 && (t 1).latched)) ++ [0, 0, 0]) ∧
        ∀ j < 2, (e.br i).trip.get {} j = if bit m j = true ∧ (t j).latched = true then { t j with latched := false, short := false } else t j := by
  dsimp only
  have run : exec (.auxTripClear mb) s = State.done (
      if 1 < uAt q.payload 0 1 then s.refuse mb stBadParam 0x05
      else if tripMask2 (uAt q.payload 1 1) (s.auxActive (uAt q.payload 0 1)) ≠ 0 then s.refuse mb stTrip 0xB1
      else if tripMask2 (uAt q.payload 1 1) (fun i => ((s.br (uAt q.payload 0 1)).trip.get {} i).latched) = 0 then s.refuse mb stRefused 0xB2
      else (s.auxClear (uAt q.payload 0 1) (tripMask2 (uAt q.payload 1 1) fun i => ((s.br (uAt q.payload 0 1)).trip.get {} i).latched)).finishWrite mb q
        (leBytes 1 (tripMask2 (uAt q.payload 1 1) fun i => ((s.br (uAt q.payload 0 1)).trip.get {} i).latched) ++ [0, 0, 0])) :=
    congrArg State.done (withWrite_runs runs may _)
  generalize uAt q.payload 0 1 = b at *
  generalize uAt q.payload 1 1 = m at *
  refine lands_ite (fun bad => refuse_lands runs.taken (by decide) 0x05 (run.trans (congrArg State.done (if_pos bad)))) fun small => ?_
  rw [if_neg small] at run
  refine lands_ite (fun active => refuse_lands runs.taken (by decide) 0xB1 (run.trans (congrArg State.done (if_pos ?_)))) fun quiet => ?_
  · rw [Ne, tripMask2_zero]
    rintro ⟨no0, no1⟩
    rcases active with ⟨named, low⟩ | ⟨named, low⟩
    · rw [named, low] at no0; cases no0
    · rw [named, low] at no1; cases no1
  rw [if_neg (c := tripMask2 m (s.auxActive b) ≠ 0) (by
    rw [not_not, tripMask2_zero, Bool.and_eq_false_iff, Bool.and_eq_false_iff]
    rw [not_or, not_and_or, not_and_or, Bool.not_eq_true, Bool.not_eq_true, Bool.not_eq_true, Bool.not_eq_true] at quiet
    exact quiet)] at run
  have none_ : tripMask2 m (fun i => ((s.br b).trip.get {} i).latched) = 0 ↔
      (bit m 0 = false ∨ ((s.br b).trip.get {} 0).latched = false) ∧ (bit m 1 = false ∨ ((s.br b).trip.get {} 1).latched = false) := by
    rw [tripMask2_zero, Bool.and_eq_false_iff, Bool.and_eq_false_iff]
  refine lands_ite (fun empty => refuse_lands runs.taken (by decide) 0xB2 (run.trans (congrArg State.done (if_pos (none_.2 empty))))) fun some_ => ?_
  rw [if_neg fun zero => some_ (none_.1 zero)] at run
  obtain ⟨bit0, bit1⟩ := tripMask2_bit m fun i => ((s.br b).trip.get {} i).latched
  rw [tripMask2_eq m fun i => _] at run
  rw [tripMask2_eq m fun i => _] at bit0 bit1
  generalize b2n (bit m 0 && _) + 2 * b2n (bit m 1 && _) = mask at *
  obtain ⟨others, mode, off, own, peffs, trips⟩ := auxClear_spec s b mask
  have keeps : Keeps 8388800 s (s.auxClear b mask) := auxClear_keeps (by decide) (.refl _ s)
  generalize s.auxClear b mask = u at *
  obtain ⟨only, accepts⟩ := write_ends_standby (q := q) (mb := mb) runs.taken (only_of keeps : Only [.par, .faults, .aux] s u) (keeps.hatch (by decide))
    (keeps.twin (by decide)) (keeps.mono (by decide))
    (hasStandby_of_peff (keeps.twin (by decide)) (peffs _ _ (by unfold pKey noInst; omega))) (leBytes 1 mask ++ [0, 0, 0]) []
  have ends := finishWrite_holds u mb q (leBytes 1 mask ++ [0, 0, 0]) [] b
  refine ⟨_, run, only, fun c ne => (ends.others c ne).trans (others c ne), ends.mode.trans mode, (off.holds ends).every, ?_, accepts, fun j lt => ?_⟩
  · rw [State.peff, ends.eff, ← State.peff]; exact own
  · rw [ends.trip, trips j lt]
    refine if_congr ?_ rfl rfl
    have two : j = 0 ∨ j = 1 := by omega
    rcases two with rfl | rfl
    · rw [bit0, Bool.and_eq_true]
    · rw [bit1, Bool.and_eq_true]

end Sys2Proof.Machine
end

section
/-!
PROOFS. The start of an auxiliary bridge and its safe modes (R472, R487, R492, R493, R495, R496), and the whole of its modes.
-/

namespace Sys2Proof.Machine

open Host

/-! ### AUX_SAFE (R487, R495, R496) -/

theorem modeWritten_mode (s : State) (b m : Nat) (v : Bytes) : ((s.modeWritten b m v).br b).mode = m := moded_mode ..

theorem auxAct_spec (s : State) (b : Nat) (short : Bool) : (∀ c, c ≠ b → (s.auxAct b short).br c = s.br c) ∧
    ((s.auxAct b short).br b).mode = (if short then 3 else 0) ∧ (s.auxAct b short).peff 0x1201 b = leBytes 1 (if short then 3 else 0) ∧
    (∀ id inst, pKey id inst ≠ pKey 0x1201 b → (s.auxAct b short).peff id inst = s.peff id inst) ∧
    if s.aux.driving = false ∨ (s.br b).tripped = true then ∀ k, (s.auxAct b short).sw b k = s.sw b k
    else if short = false then (s.auxAct b short).AllOff b
    else if (s.br b).short = true then ∀ k, (s.auxAct b short).sw b k = s.sw b k
    else s.Shorted b (s.auxAct b short) := by
  have written := modeWritten_poised s b (if short then 3 else 0) (leBytes 1 (if short then 3 else 0))
  have mode := modeWritten_mode s b (if short then 3 else 0) (leBytes 1 (if short then 3 else 0))
  have own := modeWritten_peff s b (if short then 3 else 0) (leBytes 1 (if short then 3 else 0))
  have peffs : ∀ id inst, pKey id inst ≠ pKey 0x1201 b → _ := fun id inst ne =>
    modeWritten_peff_ne s b (if short then 3 else 0) (leBytes 1 (if short then 3 else 0)) (id := id) (inst := inst) ne
  rw [auxAct_eq]
  dsimp only
  generalize s.modeWritten b (if short then 3 else 0) _ = t at *
  have all : ∀ u : State, t.Drives b anyOne anyOne u → (∀ c, c ≠ b → u.br c = s.br c) ∧ (u.br b).mode = (if short then 3 else 0) ∧
      u.peff 0x1201 b = leBytes 1 (if short then 3 else 0) ∧ ∀ id inst, pKey id inst ≠ pKey 0x1201 b → u.peff id inst = s.peff id inst :=
    fun u h => ⟨written.otherBr h, h.mode.trans mode, by rw [State.peff, h.eff, ← State.peff]; exact own, fun id inst ne => by
      rw [State.peff, h.eff, ← State.peff]; exact peffs id inst ne⟩
  have with_ : ∀ {u : State} {P : Prop}, t.Drives b anyOne anyOne u → P → (∀ c, c ≠ b → u.br c = s.br c) ∧
      (u.br b).mode = (if short then 3 else 0) ∧ u.peff 0x1201 b = leBytes 1 (if short then 3 else 0) ∧
      (∀ id inst, pKey id inst ≠ pKey 0x1201 b → u.peff id inst = s.peff id inst) ∧ P := fun h p =>
    ⟨(all _ h).1, (all _ h).2.1, (all _ h).2.2.1, (all _ h).2.2.2, p⟩
  by_cases still : s.aux.driving = false ∨ (s.br b).tripped = true
  · rw [if_pos (by rcases still with h | h <;> rw [h] <;> simp)]
    exact with_ (.refl ..) (by rw [if_pos still]; exact written.sw)
  · rw [if_neg (by
      rw [not_or, Bool.not_eq_false, Bool.not_eq_true] at still
      rw [still.1, still.2]; decide)]
    cases short
    · exact with_ (auxAllOff_drives t b) (by rw [if_neg still, if_pos rfl]; exact auxAllOff_allOff t b)
    · rw [if_pos rfl]
      by_cases in_ : (s.br b).short = true
      · rw [if_pos in_]
        exact with_ (.refl ..) (by rw [if_neg still, if_neg (by decide), if_pos in_]; exact written.sw)
      · rw [if_neg in_]
        exact with_ (shortStart_drives t b) (by rw [if_neg still, if_neg (by decide), if_neg in_]; exact written.shorted (shortStart_shorted t b))

theorem auxSafe_lands {s : State} {mb : Fin 8} {q : Request} (runs : s.Runs mb 0x1221 q) (may : s.Writes mb 0x12) :
    Lands (exec (.auxSafe mb) s) fun e =>
      let i := uAt q.payload 0 1
      let a := uAt q.payload 1 1
      if 1 < i ∨ 1 < a then Only [.hatch] s e ∧ s.Replies e mb q stBadParam [5, 0, 0xFF, 0xFF]
      else OnlyWrite [.par, .faults, .aux] s e ∧ (∀ c, c ≠ i → e.br c = s.br c) ∧ (e.br i).mode = 3 * a ∧
        e.peff 0x1201 i = leBytes 1 (3 * a) ∧ s.Accepts e mb q (leBytes 4 s.shortNow) ∧
        if s.aux.driving = false ∨ (s.br i).tripped = true then ∀ k, e.sw i k = s.sw i k
        else if a = 0 then e.AllOff i
        else if (s.br i).short = true then ∀ k, e.sw i k = s.sw i k
        else s.Shorted i e := by
  dsimp only
  have run : exec (.auxSafe mb) s = State.done (
      if 1 < uAt q.payload 0 1 ∨ 1 < uAt q.payload 1 1 then s.refuse mb stBadParam 0x05
      else (s.auxAct (uAt q.payload 0 1) (uAt q.payload 1 1 == 1)).finishWrite mb q (leBytes 4 s.shortNow)) :=
    congrArg State.done (withWrite_runs runs may _)
  generalize uAt q.payload 0 1 = b at *
  generalize uAt q.payload 1 1 = a at *
  refine lands_ite (fun bad => refuse_lands runs.taken (by decide) 0x05 (run.trans (congrArg State.done (if_pos bad)))) fun good => ?_
  rw [if_neg good] at run
  obtain ⟨others, mode, own, peffs, gates⟩ := auxAct_spec s b (a == 1)
  have keeps : Keeps 8388800 s (s.auxAct b (a == 1)) := auxAct_keeps (by decide) (.refl _ s)
  generalize s.auxAct b (a == 1) = u at *
  obtain ⟨only, accepts⟩ := write_ends_standby (q := q) (mb := mb) runs.taken (only_of keeps : Only [.par, .faults, .aux] s u) (keeps.hatch (by decide))
    (keeps.twin (by decide)) (keeps.mono (by decide))
    (hasStandby_of_peff (keeps.twin (by decide)) (peffs _ _ (by unfold pKey noInst; omega))) (leBytes 4 s.shortNow) []
  have ends := finishWrite_holds u mb q (leBytes 4 s.shortNow) [] b
  have code : (if (a == 1) = true then 3 else 0) = 3 * a ∧ ((a == 1) = false ↔ a = 0) := by
    have two : a = 0 ∨ a = 1 := by omega
    rcases two with rfl | rfl <;> exact ⟨rfl, by decide⟩
  rw [code.1] at mode own
  refine ⟨_, run, only, fun c ne => (ends.others c ne).trans (others c ne), ends.mode.trans mode, ?_, accepts, ?_⟩
  · rw [State.peff, ends.eff, ← State.peff]; exact own
  · have sw := fun k => ends.sw k fun no => no
    split at gates
    · rename_i still
      rw [if_pos still]
      exact fun k => (sw k).trans (gates k)
    rename_i moves
    rw [if_neg moves]
    split at gates
    · rename_i off
      rw [if_pos (code.2.1 off)]
      exact gates.holds ends
    rename_i asked
    rw [if_neg fun zero => asked (code.2.2 zero)]
    split at gates
    · rename_i in_
      rw [if_pos in_]
      exact fun k => (sw k).trans (gates k)
    · rename_i out
      rw [if_neg out]
      exact gates.adds ends.adds fun _ no => no

/-! ### The start (R472, R492, R493) -/

/-- A phase's dead times start afresh. -/
def State.startPhase (b : Nat) (s : State) (p : Nat) : State :=
  (s.modAph b p fun y =>
    { y with dt := none, dtNext := none, fallback := false, bad := 0, good := 0, refresh := 0, through := false, refreshing := false }).condOff 0x6D b p

/-- Whether a latched trip asks for the short. -/
def Bridge.asked (x : Bridge) : Bool :=
  (x.trip.get {} 0).latched && (x.trip.get {} 0).short || (x.trip.get {} 1).latched && (x.trip.get {} 1).short

theorem asked_iff (x : Bridge) : x.asked = true ↔ ((x.trip.get {} 0).latched = true ∧ (x.trip.get {} 0).short = true) ∨
    ((x.trip.get {} 1).latched = true ∧ (x.trip.get {} 1).short = true) := by
  rw [Bridge.asked, Bool.or_eq_true, Bool.and_eq_true, Bool.and_eq_true]

/-- A bridge that starts, before its trips or its mode. -/
def State.startStill (s : State) (b : Nat) : State := (List.range 3).foldl (State.startPhase b) (s.auxAllOff b)

/-- A bridge starts. -/
def State.startBridge (s : State) (b : Nat) : State :=
  if ((s.startStill b).br b).tripped then (if ((s.startStill b).br b).asked then (s.startStill b).shortStart b else s.startStill b)
  else (s.startStill b).auxMode b 0 ((s.startStill b).pu 0x1201 b 0 1) s.mono false

theorem foldl_two {α : Type} (f : α → Nat → α) (s : α) : (List.range 2).foldl f s = f (f s 0) 1 := rfl

theorem auxStart_eq (s : State) :
    s.auxStart = ((s.updAux fun a => { a with driving := true }).startBridge 0).startBridge 1 := by
  have same : s.auxStart = (List.range 2).foldl State.startBridge (s.updAux fun a => { a with driving := true }) := by
    unfold State.auxStart
    exact congrArg (fun f => (List.range 2).foldl f (s.updAux fun a => { a with driving := true })) (funext fun t => funext fun b => rfl)
  rw [same, foldl_two]

theorem startPhase_poised (s : State) (b p : Nat) : s.Poised b (State.startPhase b s p) := by
  refine State.Poised.trans ?_ (condOff_holds b noOne noOne _ 0x6D b p).poised
  refine ⟨fun _ ne => br_modBr_ne s ne _, rfl, rfl, fun j => sw_modAph .., fun q => ?_, fun q => ?_, ?_, ?_⟩
  · by_cases same : q = p
    · subst same; rw [aph_modAph]
    · rw [aph_modAph_ne s fun h => same h.2]
  · by_cases same : q = p
    · subst same; rw [aph_modAph]
    · rw [aph_modAph_ne s fun h => same h.2]
  · rw [State.modAph, br_modBr]
  · rw [State.modAph, br_modBr]

theorem startPhase_rest (s : State) (b p : Nat) : ((State.startPhase b s p).br b).rest = (s.br b).rest := by
  change ((s.modAph b p _).br b).rest = _
  rw [State.modAph, br_modBr]
  rfl

theorem startPhase_eff (s : State) (b p : Nat) : (State.startPhase b s p).par.eff = s.par.eff := rfl

theorem startStill_poised (s : State) (b : Nat) : (s.auxAllOff b).Poised b (s.startStill b) :=
  foldl_poised _ (fun t p => startPhase_poised t b p) _ _

theorem startStill_rest (s : State) (b : Nat) : ((s.startStill b).br b).rest = (s.br b).rest :=
  (foldl_view (fun t : State => (t.br b).rest) (fun t p => startPhase_rest t b p) _ _).trans (auxAllOff_drives s b).rest

theorem startStill_eff (s : State) (b : Nat) : (s.startStill b).par.eff = s.par.eff :=
  (foldl_eff _ (fun t p => startPhase_eff t b p) _ _).trans (auxAllOff_drives s b).eff

theorem startStill_allOff (s : State) (b : Nat) : (s.startStill b).AllOff b := by
  have off := auxAllOff_allOff s b
  have poised := startStill_poised s b
  exact ⟨fun k lt => by rw [poised.sw]; exact off.sw k lt, poised.edges.trans off.edges, poised.short.trans off.short⟩

/-- What a start makes of a bridge. -/
structure State.Started (s : State) (b : Nat) (e : State) : Prop where
  /-- The other bridges. -/
  others : ∀ c, c ≠ b → e.br c = s.br c
  /-- Whether the unit drives. -/
  driving : e.aux.driving = s.aux.driving
  /-- The values in effect. -/
  eff : e.par.eff = s.par.eff
  /-- The trips. -/
  trip : (e.br b).trip = (s.br b).trip
  /-- The mode. -/
  mode : (e.br b).mode = if (s.br b).tripped = true then (s.br b).mode else s.pu 0x1201 b 0 1
  /-- The switches, but for DIRECT. -/
  sw : (s.br b).tripped = true ∨ s.pu 0x1201 b 0 1 < 2 ∨ s.pu 0x1201 b 0 1 = 3 → ∀ k < 6, (e.sw b k).rests
  /-- The short. -/
  short : (e.br b).short = true ↔ if (s.br b).tripped = true then (s.br b).asked = true else s.pu 0x1201 b 0 1 = 3
  /-- The edges to come. -/
  edges : (if (s.br b).tripped = true then (s.br b).asked = false else s.pu 0x1201 b 0 1 = 0) → (e.br b).edges = []

theorem asked_of_trip {x y : Bridge} (h : x.trip = y.trip) : x.asked = y.asked := by rw [Bridge.asked, Bridge.asked, h]

/-- The modes a floating bridge may take. -/
theorem auxMode_started {v : State} {b start : Nat} (off : v.AllOff b) (new : Nat) :
    (new < 2 ∨ new = 3 → ∀ k < 6, ((v.auxMode b 0 new start false).sw b k).rests) ∧
    (((v.auxMode b 0 new start false).br b).short = true ↔ new = 3) ∧ (new = 0 → ((v.auxMode b 0 new start false).br b).edges = []) := by
  have moded := moded_poised v b new
  have still : (v.moded b new).AllOff b :=
    ⟨fun k lt => by rw [moded.sw]; exact off.sw k lt, moded.edges.trans off.edges, moded.short.trans off.short⟩
  by_cases zero : new = 0
  · subst zero
    have eq : v.auxMode b 0 0 start false = v.moded b 0 := rfl
    rw [eq]
    exact ⟨fun _ => still.sw, by rw [still.short]; decide, fun _ => still.edges⟩
  by_cases three : new = 3
  · subst three
    rw [auxMode_short start false off.short]
    exact ⟨fun _ k lt => shortStart_rests (still.sw k lt), ⟨fun _ => rfl, fun _ => shortStart_short ..⟩, fun no => absurd no zero⟩
  by_cases one : new = 1
  · subst one
    have eq : v.auxMode b 0 1 start false = ((v.moded b 1).auxAllOff b).pwmAll b start (decide ((0 : Nat) = 3)) false := rfl
    have gone := auxAllOff_allOff (v.moded b 1) b
    rw [eq]
    refine ⟨fun _ k lt => pwmAll_rests _ _ _ (gone.sw k lt), ?_, fun no => absurd no zero⟩
    rw [(pwmAll_adds ((v.moded b 1).auxAllOff b) b start _ false).short, gone.short]
    exact ⟨fun no => (nomatch no), fun no => absurd no three⟩
  · rw [auxMode_direct start false ⟨zero, three, one⟩ (by decide)]
    refine ⟨fun few => absurd few (by omega), ?_, fun no => absurd no zero⟩
    rw [(auxDirect_holds _ b _).short, phasesCleared_short, still.short]
    exact ⟨fun no => (nomatch no), fun no => absurd no three⟩

theorem startBridge_started (s : State) (b : Nat) : s.Started b (s.startBridge b) := by
  have poised := startStill_poised s b
  have drives := auxAllOff_drives s b
  have rest := startStill_rest s b
  have trip : ((s.startStill b).br b).trip = (s.br b).trip := by rw [← Bridge.rest_trip, rest, Bridge.rest_trip]
  have eff := startStill_eff s b
  have off := startStill_allOff s b
  unfold State.startBridge
  rw [tripped_of_trip trip, asked_of_trip trip, pu_congr eff]
  generalize s.startStill b = v at *
  have others : ∀ c, c ≠ b → v.br c = s.br c := fun c ne => (poised.others c ne).trans (drives.others c ne)
  have driving := poised.driving.trans drives.driving
  have mode : (v.br b).mode = (s.br b).mode := by rw [← Bridge.rest_mode, rest, Bridge.rest_mode]
  by_cases tripped : (s.br b).tripped = true
  · rw [if_pos tripped]
    by_cases asked : (s.br b).asked = true
    · have short := shortStart_drives v b
      rw [if_pos asked]
      refine ⟨fun c ne => (short.others c ne).trans (others c ne), short.driving.trans driving, short.eff.trans eff, short.trip.trans trip,
        by rw [if_pos tripped]; exact short.mode.trans mode, fun _ k lt => shortStart_rests (off.sw k lt), ?_, ?_⟩
      · rw [if_pos tripped]
        exact ⟨fun _ => asked, fun _ => shortStart_short v b⟩
      · rw [if_pos tripped, asked]
        exact fun no => nomatch no
    · rw [if_neg asked]
      refine ⟨others, driving, eff, trip, by rw [if_pos tripped]; exact mode, fun _ => off.sw, ?_, fun _ => off.edges⟩
      rw [if_pos tripped, off.short]
      exact ⟨fun no => (nomatch no), fun no => absurd no asked⟩
  · rw [if_neg tripped]
    obtain ⟨rests, short, edges⟩ := auxMode_started (start := s.mono) off (s.pu 0x1201 b 0 1)
    have moves := auxMode_drives v b 0 (s.pu 0x1201 b 0 1) s.mono false
    have moded := moded_poised v b (s.pu 0x1201 b 0 1)
    refine ⟨fun c ne => (moded.otherBr moves c ne).trans (others c ne), moves.driving.trans (moded.driving.trans driving),
      moves.eff.trans ((moded_eff ..).trans eff), ?_, ?_, fun may => rests (may.resolve_left tripped), ?_, ?_⟩
    · rw [moves.trip, State.moded, br_modBr]
      exact trip
    · rw [if_neg tripped, moves.mode, moded_mode]
    · rw [if_neg tripped]; exact short
    · rw [if_neg tripped]; exact edges

/-- What a start makes of one bridge `x`, whose mode parameter is `new`. -/
structure Bridge.Started (x : Bridge) (new : Nat) (y : Bridge) : Prop where
  /-- The trips. -/
  trip : y.trip = x.trip
  /-- The mode. -/
  mode : y.mode = if x.tripped = true then x.mode else new
  /-- The switches, but for DIRECT. -/
  sw : x.tripped = true ∨ new < 2 ∨ new = 3 → ∀ k < 6, (y.sw.get {} k).rests
  /-- The short. -/
  short : y.short = true ↔ if x.tripped = true then x.asked = true else new = 3
  /-- The edges to come. -/
  edges : (if x.tripped = true then x.asked = false else new = 0) → y.edges = []

theorem State.Started.bridge {s e : State} {b : Nat} (h : s.Started b e) : (s.br b).Started (s.pu 0x1201 b 0 1) (e.br b) :=
  ⟨h.trip, h.mode, h.sw, h.short, h.edges⟩

theorem auxStart_started (s : State) : s.auxStart.aux.driving = true ∧
    ∀ c < 2, (s.br c).Started (s.pu 0x1201 c 0 1) (s.auxStart.br c) := by
  rw [auxStart_eq]
  have begun : ∀ c, (s.updAux fun a => { a with driving := true }).br c = s.br c := fun c => rfl
  have pu : ∀ c, (s.updAux fun a => { a with driving := true }).pu 0x1201 c 0 1 = s.pu 0x1201 c 0 1 := fun c => rfl
  have drives : (s.updAux fun a => { a with driving := true }).aux.driving = true := rfl
  generalize (s.updAux fun a => { a with driving := true }) = u at *
  have first := startBridge_started u 0
  generalize u.startBridge 0 = t at *
  have second := startBridge_started t 1
  refine ⟨second.driving.trans (first.driving.trans drives), fun c lt => ?_⟩
  have two : c = 0 ∨ c = 1 := by omega
  rcases two with rfl | rfl
  · rw [second.others 0 (by decide), ← begun, ← pu]
    exact first.bridge
  · rw [← begun, ← pu, ← first.others 1 (by decide), ← pu_congr first.eff]
    exact second.bridge

/-- Settles O46, row by row. -/
theorem auxModes : Obligations.AuxModes := by
  intro s b
  refine ⟨fun due => ?_, fun early => ?_, fun i level => ?_, fun i => ⟨?_, fun comes => ?_, fun not_ => ?_⟩, fun mb q runs may => ?_,
    fun mb q runs may => ?_, fun starts => ?_, fun not_ => ?_⟩
  · have drives := auxBoundary_drives s b
    obtain ⟨bAt, next, boundaries, mode⟩ := auxBoundary_rest s b
    refine ⟨_, if_pos due, only_of (auxBoundary_keeps (by decide) (.refl _ s)), (entered_moded_poised s b _).otherBr drives, bAt, next, boundaries, mode,
      auxBoundary_still, fun driving free => ⟨fun new was => (boundary_off driving free new was).every,
        fun new was no => (boundary_short driving free new was no).every, fun new was p lt => boundary_pwm driving free new was lt,
        fun new was no p lt => ?_⟩⟩
    obtain ⟨same, off, on⟩ := boundary_direct driving free new was no lt
    exact ⟨same, off, fun k half named alone fed unlocked quiet low idle other seen =>
      on k half named alone ⟨fed, unlocked, quiet, low, idle, other, seen⟩⟩
  · exact if_neg early
  · refine ⟨_, rfl, only_of (modBr_keeps (by decide) (.refl _ s)), ?_, fun j ne => ?_, (modBr_poised s b).sw, (modBr_poised s b).others⟩
    · rw [br_modBr, Tab.get_mod]
    · rw [br_modBr, Tab.get_mod_ne _ _ ne]
  · unfold State.auxActive State.elapsed
    constructor
    · intro low
      split at low
      · rename_i t since
        exact ⟨t, since, of_decide_eq_true low⟩
      · cases low
    · rintro ⟨t, since, late⟩
      rw [since]
      exact decide_eq_true late
  · obtain ⟨only, others, trip, fired⟩ := auxTrip_lands (s := s) (b := b) i
    have gates := auxTrip_gates s b i
    refine ⟨s.auxTrip b i, if_pos comes, only, others, ?_, fun j ne => ?_, fired, ?_⟩
    · rw [trip, Tab.get_mod]
    · rw [trip, Tab.get_mod_ne _ _ ne]
    · split at gates
      · rename_i still
        rw [if_pos still]
        exact gates
      rename_i moves
      rw [if_neg moves]
      split at gates
      · rename_i asked
        rw [if_pos asked]
        exact gates.every
      · rename_i asked
        rw [if_neg asked]
        exact gates.every
  · exact if_neg not_
  · exact auxTripClear_lands runs may
  · obtain ⟨e, run, part⟩ := auxSafe_lands runs may
    refine ⟨e, run, ?_⟩
    dsimp only at part ⊢
    split at part
    · rename_i bad
      rw [if_pos bad]
      exact part
    rename_i good
    rw [if_neg good]
    obtain ⟨only, others, mode, own, accepts, gates⟩ := part
    refine ⟨only, others, mode, own, accepts, ?_⟩
    split at gates
    · rename_i still
      rw [if_pos still]
      exact gates
    rename_i moves
    rw [if_neg moves]
    split at gates
    · rename_i off
      rw [if_pos off]
      exact gates.every
    rename_i on
    rw [if_neg on]
    split at gates
    · rename_i in_
      rw [if_pos in_]
      exact gates
    · rename_i out
      rw [if_neg out]
      exact gates.every
  · obtain ⟨may, idle, due⟩ := starts
    obtain ⟨driving, bridges⟩ := auxStart_started s
    refine ⟨_, if_pos ⟨may, idle, elapsed_of_le due⟩, only_of (auxStart_keeps (by decide) (.refl _ s)), driving, fun c lt => ?_⟩
    obtain ⟨trip, mode, sw, short, edges⟩ := bridges c lt
    have asked := asked_iff (s.br c)
    refine ⟨fun i => by rw [trip], mode, fun h k small => ?_, ?_, fun tripped no => edges ?_, fun free zero => edges ?_⟩
    · obtain ⟨off, quiet, -⟩ := sw h k small
      exact ⟨off, quiet⟩
    · rw [short, asked]
    · rw [if_pos tripped]
      exact Bool.eq_false_iff.2 fun yes => no (asked.1 yes)
    · rw [if_neg (by rw [free]; decide)]
      exact zero
  · exact if_neg fun h => not_ ⟨h.1, h.2.1, of_decide_eq_true h.2.2⟩

end Sys2Proof.Machine
end

section
/-!
PROOFS. How a unit starts (R46, R418, R472, R493, R602, R607, R626, R628 to R630, R632, R634, R638, R639, R641), row by row.
-/

namespace Sys2Proof.Machine

open Host

/-! ### Holds and the main PLL -/

theorem ResetHold.free_iff (h : ResetHold) : h.free = true ↔ h.pin = false ∧ h.rails = [] ∧ h.clock = false := by
  rw [ResetHold.free, Bool.and_eq_true, Bool.and_eq_true, Bool.not_eq_true', Bool.not_eq_true', List.isEmpty_iff, and_assoc]

/-- The main PLL once a hold has changed: it begins to lock where none is left. -/
def State.heldPll (s : State) (h : ResetHold) : PllState :=
  if s.sys.stage = .inReset ∧ h.pin = false ∧ h.rails = [] ∧ h.clock = false ∧ s.sys.pll = .off then .locking else s.sys.pll

theorem holdEnd_sys (s : State) (f : ResetHold → ResetHold) :
    (s.holdEnd f).sys = { s.sys with hold := f s.sys.hold, pll := s.heldPll (f s.sys.hold) } := by
  unfold State.holdEnd State.heldPll
  rw [updSys_sys]
  dsimp only
  have free := ResetHold.free_iff (f s.sys.hold)
  congr 1
  exact if_congr (by rw [free, and_assoc, and_assoc]) rfl rfl

theorem mainPllLock_next (s : State) (sel : Bool)
    (due : s.sys.stage = .inReset ∧ s.sys.hold.pin = false ∧ s.sys.hold.rails = [] ∧ s.sys.hold.clock = false ∧ s.sys.pll = .locking) :
    exec (.mainPllLock sel) s = .next (s.endOfReset sel) := by
  obtain ⟨stage, pin, rails, clock, pll⟩ := due
  exact if_pos ⟨stage, (ResetHold.free_iff _).2 ⟨pin, rails, clock⟩, pll⟩

theorem mainPllLock_early (s : State) (sel : Bool)
    (early : ¬ (s.sys.stage = .inReset ∧ s.sys.hold.pin = false ∧ s.sys.hold.rails = [] ∧ s.sys.hold.clock = false ∧ s.sys.pll = .locking)) :
    exec (.mainPllLock sel) s = .next s := by
  refine if_neg fun h => early ?_
  obtain ⟨stage, free, pll⟩ := h
  obtain ⟨pin, rails, clock⟩ := (ResetHold.free_iff _).1 free
  exact ⟨stage, pin, rails, clock, pll⟩

/-! ### The boot ROM -/

/-- The firmware once the boot ROM has done its work on the loft and the active region (R607). -/
def State.bootFirm (s : State) : Firm :=
  let swapped : Firm := { s.fw with active := s.fw.loft, loft := s.fw.active, loftSt := .previous, activateAt := 0 }
  match s.fw.boot with
  | .exchange t =>
    if s.bootable s.fw.loft = true then { swapped with boot := .confirm t }
    else if s.fw.loftSt = .scheduled then { s.fw with loftSt := .verified, activateAt := 0, boot := .none, report := some 3 }
    else { s.fw with boot := .none, report := some 3 }
  | .revert => { swapped with boot := .none, report := some 2 }
  | _ => s.fw

theorem bootLoft_eq (s : State) : s.bootLoft = { s with fw := s.bootFirm } := by
  unfold State.bootLoft State.bootFirm
  cases s.fw.boot with
  | exchange t =>
    dsimp only
    split
    · rfl
    · unfold Firm.unschedule
      split
      · rename_i scheduled
        change (s.updFw fun f => { f.unschedule with boot := .none, report := some 3 }) = _
        rw [State.updFw, Firm.unschedule, if_pos scheduled]
      · rename_i no
        change (s.updFw fun f => { f.unschedule with boot := .none, report := some 3 }) = _
        rw [State.updFw, Firm.unschedule, if_neg no]
  | revert => rfl
  | none => rfl
  | confirm t => rfl

theorem bootRomCheckDone_lands {s : State} (stage : s.sys.stage = .bootRom) (wiped : s.pantry.wiping = none) :
    (({ s with fw := s.bootFirm } : State).bootable s.bootFirm.active = true → Next (exec .bootRomCheckDone s) fun t =>
      Only [.sys, .fw] s t ∧ t.fw = s.bootFirm ∧ t.sys = { s.sys with stage := .ubferStarting }) ∧
    (({ s with fw := s.bootFirm } : State).bootable s.bootFirm.active = false → Lands (exec .bootRomCheckDone s) fun e =>
      Only [.hatch, .notif, .par, .sys, .pantry, .fw] s e ∧ e.fw = s.bootFirm ∧
      e.sys = { s.sys with stage := .recovery, bootResult := 1, hatchSeen := true }) := by
  have run : exec .bootRomCheckDone s = _ := if_pos ⟨stage, by rw [wiped]; rfl⟩
  have keeps : Keeps 134217728 s s.bootLoft := bootLoft_keeps (by decide) (.refl _ s)
  have fw : s.bootLoft.fw = s.bootFirm := by rw [bootLoft_eq]
  rw [← bootLoft_eq]
  generalize s.bootLoft = u at *
  have sys : u.sys = s.sys := keeps.sys (by decide)
  rw [← fw]
  refine ⟨fun sound => ?_, fun bad => ?_⟩
  · refine ⟨_, run.trans (if_pos sound), only_of (updSys_keeps (by decide) (keeps.weaken (by decide))), rfl, ?_⟩
    rw [updSys_sys, sys]
  · have report : Keeps 8304 (u.updSys fun y => { y with stage := .recovery, bootResult := 1, hatchSeen := true })
      (State.resetReport (u.updSys fun y => { y with stage := .recovery, bootResult := 1, hatchSeen := true })) :=
      resetReport_keeps (by decide) (.refl _ _)
    refine ⟨_, run.trans (if_neg (by rw [bad]; decide)), only_of (resetReport_keeps (by decide) (updSys_keeps (by decide) (keeps.weaken (by decide)))),
      ?_, ?_⟩
    · rw [report.fw (by decide), updSys_fw]
    · rw [report.sys (by decide), updSys_sys, sys]

/-! ### Ubfer -/

/-- What Ubfer restores before it serves. -/
def State.ubferRestored (s : State) : State :=
  (((s.restoreParams.restoreTables.restoreFaults).restoreTherm).batteryFound.tampCopy.keysAtStart).enRestore

/-- Ubfer serves, before it reports an image's start. -/
def State.ubferServes (s : State) : State :=
  let s2 := s.ubferRestored
  let s3 := (s2.updPantry fun p => { p with linkKeys := s2.fw.linkKeys }).updSys fun y =>
    { y with stage := .serving, hatchSeen := true, bootResult := 0 }
  (s3.updLanes fun l => { l with readyAt := some s.mono }).resetReport.enAllLimits

theorem ubferRestored_gen (s : State) : s.ubferRestored.roll.gen = s.roll.storedGen := by
  have rest : ∀ u : State, Keeps (2 ^ 28 - 1 - 32768) u (((u.restoreFaults.restoreTherm).batteryFound.tampCopy.keysAtStart).enRestore) := fun u =>
    enRestore_keeps (by decide) (keysAtStart_keeps (by decide) (tampCopy_keeps (by decide) (batteryFound_keeps (by decide)
      (restoreTherm_keeps (by decide) (restoreFaults_keeps (by decide) (.refl _ u))))))
  unfold State.ubferRestored
  rw [(rest _).roll (by decide)]
  rfl

theorem note_linkKeys (s : State) (island code : Nat) (args : Bytes) (info : Bool) :
    (s.note island code args info).pantry.linkKeys = s.pantry.linkKeys := by
  obtain ⟨⟨mem, awake, pantry⟩, -⟩ := note_pantry s island code args info
  rw [pantry]

/-- What a unit that serves has. -/
structure State.Serves (s e : State) : Prop where
  /-- HATCH_READY. -/
  stage : e.sys.stage = .serving
  /-- The hatch has been seen. -/
  seen : e.sys.hatchSeen = true
  /-- The time of HATCH_READY. -/
  ready : e.lanes.readyAt = some s.mono
  /-- ROLL_GEN. -/
  gen : e.roll.gen = s.roll.storedGen
  /-- The link keys. -/
  keys : e.pantry.linkKeys = e.fw.linkKeys

theorem ubferServes_serves (s : State) : s.Serves s.ubferServes := by
  have gen := ubferRestored_gen s
  unfold State.ubferServes
  dsimp only
  generalize s.ubferRestored = u at *
  have parts : ∀ v : State, v = ((u.updPantry fun p => { p with linkKeys := u.fw.linkKeys }).updSys fun y =>
      { y with stage := .serving, hatchSeen := true, bootResult := 0 }).updLanes (fun l => { l with readyAt := some s.mono }) → s.Serves v :=
    fun v e => by rw [e]; exact ⟨rfl, rfl, rfl, gen, rfl⟩
  have served := parts _ rfl
  generalize State.updLanes _ _ = v at *
  have reported : Keeps 8304 v v.resetReport := resetReport_keeps (by decide) (.refl _ v)
  have keys : v.resetReport.pantry.linkKeys = v.pantry.linkKeys := note_linkKeys ..
  generalize v.resetReport = w at *
  have limits : Keeps 67176512 w w.enAllLimits := enAllLimits_keeps (by decide) (.refl _ w)
  exact ⟨by rw [limits.sys (by decide), reported.sys (by decide)]; exact served.stage,
    by rw [limits.sys (by decide), reported.sys (by decide)]; exact served.seen,
    by rw [limits.lanes (by decide), reported.lanes (by decide)]; exact served.ready,
    by rw [limits.roll (by decide), reported.roll (by decide)]; exact served.gen,
    by rw [limits.pantry (by decide), keys, limits.fw (by decide), reported.fw (by decide)]; exact served.keys⟩

theorem fwActivated_serves {s u : State} (h : s.Serves u) (result : Nat) : s.Serves (u.fwActivated result) := by
  have keeps : Keeps 134226160 u (u.fwActivated result) := fwActivated_keeps (by decide) (.refl _ u)
  have keys : (u.fwActivated result).pantry.linkKeys = u.pantry.linkKeys ∧ (u.fwActivated result).fw.linkKeys = u.fw.linkKeys := by
    unfold State.fwActivated
    dsimp only
    generalize leBytes 1 result ++ _ ++ _ = a
    have noted : Keeps 8304 (u.updFw fun f => { f with result }) (State.note (u.updFw fun f => { f with result }) 0x0A 0x1801 a) :=
      note_keeps (by decide) (.refl _ _)
    have linkKeys := note_linkKeys (u.updFw fun f => { f with result }) 0x0A 0x1801 a false
    refine ⟨linkKeys, ?_⟩
    change (State.note (u.updFw fun f => { f with result }) 0x0A 0x1801 a).fw.linkKeys = _
    rw [noted.fw (by decide), updFw_fw]
  exact ⟨by rw [keeps.sys (by decide)]; exact h.stage, by rw [keeps.sys (by decide)]; exact h.seen,
    by rw [keeps.lanes (by decide)]; exact h.ready, by rw [keeps.roll (by decide)]; exact h.gen, by rw [keys.1, keys.2]; exact h.keys⟩

theorem ubferStart_serves (s : State) : s.Serves s.ubferStart := by
  have serves := ubferServes_serves s
  unfold State.ubferServes State.ubferRestored at serves
  unfold State.ubferStart
  dsimp only at serves ⊢
  generalize State.enAllLimits _ = u at *
  split
  · refine fwActivated_serves ?_ _
    exact ⟨serves.stage, serves.seen, serves.ready, serves.gen, serves.keys⟩
  · exact serves

/-! ### VDD_FIELD -/

theorem auxRelease_eq (s : State) : s.auxRelease = ((s.updAux fun a => { a with driving := false }).auxAllOff 0).auxAllOff 1 := by
  unfold State.auxRelease
  rw [foldl_two]

/-- A release turns every switch off and counts no firing (R472, R493). -/
theorem auxRelease_spec (s : State) : s.auxRelease.aux.driving = false ∧ s.auxRelease.faults.firings = s.faults.firings ∧
    ∀ b < 2, ∀ k < 6, (s.auxRelease.sw b k).on = false := by
  rw [auxRelease_eq]
  have begins : s.Leaves (s.updAux fun a => { a with driving := false }) := ⟨rfl, fun _ mem => mem⟩
  have idle : (s.updAux fun a => { a with driving := false }).aux.driving = false := rfl
  generalize (s.updAux fun a => { a with driving := false }) = u at *
  have first := auxAllOff_drives u 0
  have off0 := auxAllOff_allOff u 0
  have leaves := begins.trans (auxAllOff_leaves u 0)
  generalize u.auxAllOff 0 = v at *
  have second := auxAllOff_drives v 1
  have off1 := auxAllOff_allOff v 1
  refine ⟨second.driving.trans (first.driving.trans idle), (leaves.trans (auxAllOff_leaves v 1)).1, fun b two k six => ?_⟩
  have both : b = 0 ∨ b = 1 := by omega
  rcases both with rfl | rfl
  · rw [State.sw, second.others 0 (by decide)]
    exact (off0.sw k six).1
  · exact (off1.sw k six).1

/-- A unit without VDD_FIELD stops driving. -/
theorem auxWatch_unfed {s : State} (unfed : s.sys.vddField = false) : s.auxWatch.aux.driving = false ∧
    s.auxWatch.faults.firings = s.faults.firings ∧ (s.aux.driving = true → ∀ b < 2, ∀ k < 6, (s.auxWatch.sw b k).on = false) := by
  have no : s.auxMay = false := by rw [State.auxMay, unfed, Bool.and_false]; rfl
  unfold State.auxWatch
  rw [no]
  cases driving : s.aux.driving
  · exact ⟨driving, rfl, fun h => nomatch h⟩
  · obtain ⟨off, firings, sw⟩ := auxRelease_spec s
    exact ⟨off, firings, fun _ => sw⟩

theorem auxMay_iff (s : State) : s.auxMay = true ↔ s.sys.stage = .serving ∧ s.sys.vddField = true ∧ s.sys.gated = false ∧
    s.twin.handoverUntil = none ∧ (s.commanding = true ∨ s.twinEn = false) := by
  rw [State.auxMay, Bool.and_eq_true, Bool.and_eq_true, Bool.and_eq_true, Bool.and_eq_true, decide_eq_true_iff, Bool.not_eq_true', Option.isNone_iff_eq_none,
    Bool.or_eq_true, Bool.not_eq_true', and_assoc, and_assoc, and_assoc]

/-- Settles O56, row by row. -/
theorem starting : Obligations.Starting := by
  intro s
  refine ⟨⟨?_, ?_, ?_⟩, fun sel => ⟨fun early => mainPllLock_early s sel early, fun due => ?_⟩, fun early => ?_, fun stage wiped => ?_,
    fun stage => ?_, fun other => if_neg other, fun locked => ?_, fun out => ⟨s, if_neg out, rfl⟩, fun v running waits => ?_, fun idle => ?_,
    fun pcie on => ?_, fun not_ => if_pos not_, ?_, fun starts => ?_, fun not_ => ?_⟩
  · exact ⟨_, rfl, only_of (holdEnd_keeps (by decide) (.refl _ s)), holdEnd_sys s _⟩
  · exact ⟨_, rfl, only_of (holdEnd_keeps (by decide) (.refl _ s)), holdEnd_sys s _⟩
  · have lt : s.freeVal % 2001 < 2001 := Nat.mod_lt _ (by decide)
    refine ⟨_, rfl, only_of (holdEnd_keeps (by decide) (tookFree_keeps (by decide) (updSys_keeps (by decide) (.refl _ s)))), rfl, ?_, ?_, ?_⟩
    · rw [holdEnd_sys]
      rfl
    · rw [holdEnd_sys]
      change -1000 ≤ ((s.freeVal % 2001 : Nat) : Int) - 1000
      omega
    · rw [holdEnd_sys]
      change ((s.freeVal % 2001 : Nat) : Int) - 1000 ≤ 1000
      omega
  · exact ⟨_, mainPllLock_next s sel due, only_of (endOfReset_keeps (by decide) (.refl _ s)), rfl, rfl, rfl, rfl, rfl, rfl⟩
  · refine if_neg fun h => early ⟨h.1, Option.isNone_iff_eq_none.1 h.2⟩
  · exact bootRomCheckDone_lands stage wiped
  · have serves := ubferStart_serves s
    have keeps : Keeps 207616508 s s.ubferStart := ubferStart_keeps (by decide) (.refl _ s)
    exact ⟨_, if_pos stage, serves.stage, serves.seen, serves.ready, serves.gen, serves.keys, keeps.pending (by decide)⟩
  · exact ⟨_, if_pos locked, only_of (updSys_keeps (by decide) (.refl _ s)), rfl⟩
  · have eq : s.capture 0x1902 noInst = s.updPar fun p => { p with eff := p.eff.set (pKey 0x1902 noInst) v } := by
      unfold State.capture
      rw [waits]
    refine ⟨s.capture 0x1902 noInst, if_pos running, only_of (capture_keeps (by decide) (.refl _ s)), ?_, ?_, fun id n ne => ?_⟩
    · rw [eq, State.peff, updPar_par]
      dsimp only
      rw [Tab.get?_set]
      rfl
    · rw [eq]; rfl
    · rw [eq, State.peff, updPar_par]
      dsimp only
      rw [Tab.get?_set_ne _ ne, State.peff]
  · change (if s.time.running = true then _ else _) = _
    rcases idle with stopped | none_
    · exact if_neg (by rw [stopped]; decide)
    · have eq : s.capture 0x1902 noInst = s := by
        unfold State.capture
        rw [none_]
      rw [eq, ite_self]
  · exact ⟨_, if_neg (not_or.2 ⟨by rw [pcie]; decide, on⟩), only_of (updHatch_keeps (by decide) (.refl _ s)), rfl⟩
  · have keeps : Keeps 8388992 s (State.auxWatch (s.updSys fun y => { y with vddField := false })) :=
      auxWatch_keeps (by decide) (updSys_keeps (by decide) (.refl _ s))
    have watched : Keeps 8388736 (s.updSys fun y => { y with vddField := false }) (State.auxWatch (s.updSys fun y => { y with vddField := false })) :=
      auxWatch_keeps (by decide) (.refl _ _)
    obtain ⟨idle, firings, sw⟩ := auxWatch_unfed (s := s.updSys fun y => { y with vddField := false }) rfl
    exact ⟨_, rfl, only_of keeps, watched.sys (by decide), idle, firings, sw⟩
  · obtain ⟨unfed, serving, driven, free, may, due⟩ := starts
    have go : s.sys.vddField = false ∧ (s.updSys fun y => { y with vddField := true }).auxMay = true ∧
        (s.updSys fun y => { y with vddField := true }).elapsed s.twin.roleMono 8000 = true :=
      ⟨unfed, (auxMay_iff _).2 ⟨serving, rfl, driven, free, may⟩, elapsed_of_le due⟩
    have keeps : Keeps 8397304 s (State.auxStart (s.updSys fun y => { y with vddField := true })) :=
      auxStart_keeps (by decide) (updSys_keeps (by decide) (.refl _ s))
    have started : Keeps 8397048 (s.updSys fun y => { y with vddField := true }) (State.auxStart (s.updSys fun y => { y with vddField := true })) :=
      auxStart_keeps (by decide) (.refl _ _)
    exact ⟨_, congrArg State.done (if_pos go), only_of keeps, started.sys (by decide), (auxStart_started _).1⟩
  · have stays : ¬ (s.sys.vddField = false ∧ (s.updSys fun y => { y with vddField := true }).auxMay = true ∧
        (s.updSys fun y => { y with vddField := true }).elapsed s.twin.roleMono 8000 = true) := fun h => by
      obtain ⟨unfed, may, due⟩ := h
      obtain ⟨serving, -, driven, free, may⟩ := (auxMay_iff _).1 may
      exact not_ ⟨unfed, serving, driven, free, may, of_decide_eq_true due⟩
    exact ⟨_, congrArg State.done (if_neg stays), only_of (updSys_keeps (by decide) (.refl _ s)), rfl⟩

end Sys2Proof.Machine
end

section
/-!
PROOFS. The debug port (R52, R53, R423, R426, R429, R435, R642 to R645, R647 to R649): its cores, and its accesses to the memories and to BAR0.
-/

namespace Sys2Proof.Machine

open Host

/-! ### The cores (R643) -/

theorem modCore_sys (s : State) (c : Fin 2) (f : DebugCore → DebugCore) : (c = 0 → (s.modCore c f).sys = { s.sys with core0 := f s.sys.core0 }) ∧
    (c = 1 → (s.modCore c f).sys = { s.sys with core1 := f s.sys.core1 }) :=
  ⟨fun h => by subst h; rfl, fun h => by subst h; rfl⟩

/-- One instruction of a core that is halted (R643). -/
def DebugCore.step (c : DebugCore) : DebugCore := if c.halted then { c with stepped := c.stepped + 1 } else c

theorem DebugCore.step_halted {c : DebugCore} (h : c.halted = true) : c.step = { halted := true, stepped := c.stepped + 1 } := by
  rw [DebugCore.step, if_pos h, h]

theorem DebugCore.step_running {c : DebugCore} (h : c.halted ≠ true) : c.step = c := if_neg h

theorem debugCores (s : State) (core : Fin 2) : (bit s.dbgScope 0 = true →
      (∀ c, c = .debugHalt core ∨ c = .debugBreakpointHit core → Next (exec c s) fun t => Only [.sys] s t ∧
        (core = 0 → t.sys = { s.sys with core0 := { s.sys.core0 with halted := true } }) ∧
        (core = 1 → t.sys = { s.sys with core1 := { s.sys.core1 with halted := true } })) ∧
      (Next (exec (.debugResume core) s) fun t => Only [.sys] s t ∧
        (core = 0 → t.sys = { s.sys with core0 := { s.sys.core0 with halted := false } }) ∧
        (core = 1 → t.sys = { s.sys with core1 := { s.sys.core1 with halted := false } })) ∧
      (Next (exec (.debugStep core) s) fun t => Only [.sys] s t ∧
        (core = 0 → t.sys = if s.sys.core0.halted = true then { s.sys with core0 := { halted := true, stepped := s.sys.core0.stepped + 1 } }
          else s.sys) ∧
        (core = 1 → t.sys = if s.sys.core1.halted = true then { s.sys with core1 := { halted := true, stepped := s.sys.core1.stepped + 1 } }
          else s.sys))) ∧
    (bit s.dbgScope 0 = false → ∀ c, c = .debugHalt core ∨ c = .debugBreakpointHit core ∨ c = .debugResume core ∨ c = .debugStep core →
      Next (exec c s) fun t => t = s) := by
  have only : ∀ f : DebugCore → DebugCore, Only [.sys] s (s.modCore core f) := fun f => only_of (modCore_keeps (by decide) (.refl _ s))
  refine ⟨fun open_ => ⟨fun c row => ?_, ⟨_, if_pos open_, only _, modCore_sys s core _⟩, ?_⟩, fun shut c row => ?_⟩
  · rcases row with rfl | rfl
    · exact ⟨_, if_pos open_, only _, modCore_sys s core _⟩
    · exact ⟨_, if_pos open_, only _, modCore_sys s core _⟩
  · refine ⟨s.modCore core DebugCore.step, if_pos open_, only _, fun zero => ?_, fun one => ?_⟩
    · rw [(modCore_sys s core _).1 zero]
      split
      · rename_i halted
        rw [DebugCore.step_halted halted]
      · rename_i runs
        rw [DebugCore.step_running runs]
    · rw [(modCore_sys s core _).2 one]
      split
      · rename_i halted
        rw [DebugCore.step_halted halted]
      · rename_i runs
        rw [DebugCore.step_running runs]
  · have closed : ¬ bit s.dbgScope 0 = true := by rw [shut]; decide
    rcases row with rfl | rfl | rfl | rfl
    · exact ⟨s, if_neg closed, rfl⟩
    · exact ⟨s, if_neg closed, rfl⟩
    · exact ⟨s, if_neg closed, rfl⟩
    · exact ⟨s, if_neg closed, rfl⟩

/-! ### A word written by the management port (R424, R426) -/

theorem mgmtWrites_outside {s : State} {a : Nat} (out : s.inGw a = false) (w : PortWrite) : s.wordWrites a none (some w) none = s.land a w := by
  unfold State.wordWrites
  have first : s.gwJudge a (some w) = (s, some w) := by
    unfold State.gwJudge
    rw [out]; rfl
  have second : s.gwJudge a none = (s, none) := rfl
  simp only [first, second]
  rw [if_neg (ne_true_of_eq_false out)]

theorem mgmtWrites_own {s : State} {a : Nat} (inside : s.inGw a = true) (own : s.gwOwn a = true) (w : PortWrite) :
    s.wordWrites a none (some w) none = (s.land a w).gwSend a w := by
  unfold State.wordWrites
  simp only [gwJudge_of_own own]
  rw [if_pos inside, State.landLocal, if_pos inside]
  rfl

theorem mgmtWrites_foreign {s : State} {a : Nat} (inside : s.inGw a = true) (own : s.gwOwn a = false) (w : PortWrite) :
    s.wordWrites a none (some w) none = s.bump 0x0E05 noInst 5 := by
  unfold State.wordWrites
  have first : s.gwJudge a (some w) = (s.bump 0x0E05 noInst 5, none) := by
    unfold State.gwJudge
    rw [inside, own]; rfl
  have second : (s.bump 0x0E05 noInst 5).gwJudge a none = (s.bump 0x0E05 noInst 5, none) := rfl
  simp only [first, second]
  exact if_pos ((bump_inGw ..).trans inside)

/-- The bytes of a word whose every byte is enabled. -/
theorem portByte_whole (v : BitVec 32) (a x : Nat) : portByte { data := v, be := 15 } a x =
    if a ≤ x ∧ x < a + 4 then some (BitVec.ofNat 8 (v.toNat / 2 ^ (8 * (x - a)))) else none := by
  unfold portByte
  refine if_congr ⟨fun h => ⟨h.1, h.2.1⟩, fun h => ⟨h.1, h.2, ?_⟩⟩ rfl rfl
  have less : x - a < 4 := by omega
  change bit 15 (x - a) = true
  interval_cases x - a <;> decide

theorem leBytes_four (v : Nat) : leBytes 4 v = (List.range 4).map fun k => BitVec.ofNat 8 (v / 2 ^ (8 * k)) := by
  have byte : ∀ n, BitVec.ofNat 8 (n % 256) = BitVec.ofNat 8 n := fun n => BitVec.eq_of_toNat_eq (by
    rw [BitVec.toNat_ofNat, BitVec.toNat_ofNat, Nat.mod_mod])
  simp only [leBytes, byte, Nat.div_div_eq_div_mul]
  simp [List.range_succ]

/-- A whole word written to a bank that is on. -/
theorem land_word {s : State} {a : Nat} (on : s.bankOff (a / 0x20000) = false) (wf : s.pantry.mem.wf = true) (v : BitVec 32) :
    (s.land a { data := v, be := 15 }).pantry.mem.readN a 4 = leBytes 4 v.toNat ∧
    ∀ b, b < a ∨ a + 4 ≤ b → (s.land a { data := v, be := 15 }).pantry.mem.read b = s.pantry.mem.read b := by
  obtain ⟨-, mem, -⟩ := land_on on { data := v, be := 15 }
  rw [mem]
  refine ⟨?_, fun b out => ?_⟩
  · rw [Memory.readN, leBytes_four]
    refine List.map_congr_left fun k small => ?_
    have less := List.mem_range.1 small
    rw [read_enabledBytes wf, portByte_whole, if_pos ⟨by omega, by omega⟩, Nat.add_sub_cancel_left]
    rfl
  · rw [read_enabledBytes wf, portByte_whole, if_neg (by omega)]
    rfl

theorem gwSend_ring (s : State) (a : Nat) (w : PortWrite) : (s.gwSend a w).ring.wseq = (s.ring.wseq + 1) % 8192 ∧
    (s.gwSend a w).ring.applied.get? (gwSlice a) = some s.ring.wseq := by
  have first : ∀ u : State, u = s.updRing (fun r =>
      { r with wseq := (s.ring.wseq + 1) % 8192, applied := r.applied.set (gwSlice a) s.ring.wseq, wlast := r.wlast.set (gwSlice a) s.ring.wseq }) →
      u.ring.wseq = (s.ring.wseq + 1) % 8192 ∧ u.ring.applied.get? (gwSlice a) = some s.ring.wseq := fun u e => by
    rw [e]; exact ⟨rfl, Tab.get?_set ..⟩
  have begun := first _ rfl
  unfold State.gwSend
  dsimp only
  generalize s.updRing _ = u at *
  split
  · have keeps := fire_keeps (M := 8440) (a1 := 0x53) (a2 := gwSlice a) (a3 := []) (by decide) (bump_keeps (a1 := 0x0E05) (a2 := noInst) (a3 := 4) (by decide) (.refl _ u))
    rw [keeps.ring (by decide)]; exact begun
  · rw [(ringSend_keeps (M := 65536) (by decide) (.refl _ u)).ring (by decide)]
    exact begun

theorem land_eff (s : State) (a : Nat) (w : PortWrite) : (s.land a w).par.eff = s.par.eff := by
  unfold State.land
  split
  · exact bump_eff ..
  · exact congrArg Params.eff ((bankTouch_keeps (M := 8192) (by decide) (.refl _ s)).par (by decide))

theorem accWrite_otherPorts (s : State) (p : AccessPort) (off v : Nat) : s.OtherPorts (s.accWrite p off v) p := by
  unfold State.accWrite
  split
  · exact modAcc_otherPorts ..
  · dsimp only
    generalize (match (s.acc p).heldLow with
      | some (o, l) => if o + 4 = off ∧ writable64 o = true then some l else none
      | none => none) = low
    split
    · exact (modAcc_otherPorts s p _).then ((regWrite_ports _ _ _).trans (regWrite_ports _ _ _))
    · exact (modAcc_otherPorts s p _).then (regWrite_ports _ _ _)

theorem accRead_otherPorts (s : State) (p : AccessPort) (off : Nat) : s.OtherPorts (s.accRead p off) p := by
  unfold State.accRead
  split
  · exact modAcc_otherPorts ..
  · exact liveRead_otherPorts ..

/-! ### Accesses of the debugger (R643) -/

theorem tcmAccess_lands {s : State} (open_ : s.accOpen .debug = true) (a v : BitVec 32) :
    (Next (exec (.debugMemAccess .tcm a (some v)) s) fun t => Only [.hatch, .sys] s t ∧ s.OtherPorts t .debug ∧ t.hatch.boxes = s.hatch.boxes ∧
      t.hatch.jtag = { s.hatch.jtag with heldLow := none } ∧ t.sys.tcm.get? (a.toNat % 0x100000 / 4 * 4) = some v.toNat ∧
      ∀ b, b ≠ a.toNat % 0x100000 / 4 * 4 → t.sys.tcm.get? b = s.sys.tcm.get? b) ∧
    (∀ x, s.sys.tcm.get? (a.toNat % 0x100000 / 4 * 4) = some x → Next (exec (.debugMemAccess .tcm a none) s) fun t => Only [.sys] s t ∧
      t.sys = { s.sys with debugRead := x }) ∧
    (s.sys.tcm.get? (a.toNat % 0x100000 / 4 * 4) = none → Next (exec (.debugMemAccess .tcm a none) s) fun t => Only [.freeCount, .sys] s t ∧
      t.freeCount = s.freeCount + 1 ∧ t.sys = { s.sys with debugRead := t.sys.debugRead } ∧ t.sys.debugRead < 2 ^ 32) := by
  refine ⟨⟨(s.dropHeld .debug).updSys fun y => { y with tcm := y.tcm.set (a.toNat % 0x100000 / 4 * 4) v.toNat }, if_pos open_, ?_, ?_, rfl, rfl, Tab.get?_set ..,
    fun b ne => Tab.get?_set_ne _ ne _⟩, fun x known => ⟨s.updSys fun y => { y with debugRead := x }, (if_pos open_).trans ?_, only_of (updSys_keeps (by decide) (.refl _ s)), rfl⟩,
    fun unknown => ⟨(s.updSys fun y => { y with debugRead := s.freeVal % 2 ^ 32 }).tookFree, (if_pos open_).trans ?_,
      only_of (tookFree_keeps (by decide) (updSys_keeps (by decide) (.refl _ s))), rfl, rfl, Nat.mod_lt _ (by decide)⟩⟩
  · exact only_of (updSys_keeps (by decide) (dropHeld_keeps (by decide) (.refl _ s)))
  · exact (modAcc_otherPorts s .debug fun x => { x with heldLow := none }).then rfl
  · change Outcome.next (s.tcmAccess _ none) = _
    unfold State.tcmAccess
    rw [known]
  · change Outcome.next (s.tcmAccess _ none) = _
    unfold State.tcmAccess
    rw [unknown]

theorem pantryAccess_run {s : State} (open_ : s.accOpen .debug = true) (a : BitVec 32) (w : Option (BitVec 32)) :
    exec (.debugMemAccess .pantry a w) s = ((if w.isSome then s.dropHeld .debug else s).pantryAccess a.toNat w).done := if_pos open_

theorem strongboxAccess_lands {s : State} (open_ : s.accOpen .debug = true) (a : BitVec 32) (box : 0x1C0000 ≤ a.toNat % 0x200000 / 4 * 4)
    (w : Option (BitVec 32)) : Lands (exec (.debugMemAccess .pantry a w) s) fun e =>
      Only [.todo, .hatch, .notif, .par, .faults, .sys, .pantry] s e ∧ e.sys = { s.sys with debugRead := 0 } ∧ s.Fired e 0x58 := by
  have run := pantryAccess_run open_ a w
  have begun : Keeps 16 s (if w.isSome then s.dropHeld .debug else s) := keeps_ite (fun _ => dropHeld_keeps (by decide) (.refl _ s)) fun _ => .refl _ s
  generalize (if w.isSome then s.dropHeld .debug else s) = u at *
  unfold State.pantryAccess at run
  rw [if_pos box] at run
  generalize leBytes 4 _ ++ [3] = args at run
  have fired : Keeps 8440 (u.updSys fun y => { y with debugRead := 0 }) (State.fire (u.updSys fun y => { y with debugRead := 0 }) 0x58 noInst args) :=
    fire_keeps (by decide) (.refl _ _)
  refine ⟨_, run, only_of (fire_keeps (by decide) (updSys_keeps (by decide) (begun.weaken (by decide)))), ?_, ?_⟩
  · rw [fired.sys (by decide), updSys_sys, begun.sys (by decide)]
  · exact (fire_fired (u.updSys fun y => { y with debugRead := 0 }) (by decide) noInst args).from (begun.firings (by decide))

theorem wordValue_off {s : State} {a : Nat} (aligned : a % 4 = 0) (off : s.bankOff (a / 0x20000) = true) : s.wordValue a = 0 := by
  unfold State.wordValue State.mpRead
  have zeros : (List.range 4).map (fun i => if s.bankOff ((a + i) / 0x20000) then (0 : Byte) else s.pantry.mem.read (a + i)) =
      (List.range 4).map fun _ => 0 := List.map_congr_left fun i small => by
    have less := List.mem_range.1 small
    rw [show (a + i) / 0x20000 = a / 0x20000 by omega, if_pos off]
  rw [zeros]
  rfl

theorem dropHeld_same (s : State) (p : AccessPort) : (s.dropHeld p).par = s.par ∧ (s.dropHeld p).pantry = s.pantry ∧
    (s.dropHeld p).hatch.boxes = s.hatch.boxes ∧ (s.dropHeld p).twin = s.twin ∧ (s.dropHeld p).ring = s.ring ∧ (s.dropHeld p).links = s.links := by
  cases p <;> exact ⟨rfl, rfl, rfl, rfl, rfl, rfl⟩

theorem gwOwn_congr {s t : State} (eff : t.par.eff = s.par.eff) (twin : t.twin = s.twin) (a : Nat) : t.gwOwn a = s.gwOwn a := by
  simp only [State.gwOwn, State.headId, State.pu, State.peff, eff, twin]
  rfl

/-- The debugger's accesses to the pantry below the strongbox (R423, R426, R429). -/
theorem pantryWordAccess_lands {s : State} (open_ : s.accOpen .debug = true) (a v : BitVec 32) (below : a.toNat % 0x200000 / 4 * 4 < 0x1C0000) :
    let off := a.toNat % 0x200000 / 4 * 4
    (s.bankOff (off / 0x20000) = true →
      (Lands (exec (.debugMemAccess .pantry a none) s) fun e => Only [.par, .sys] s e ∧ e.sys = { s.sys with debugRead := 0 }) ∧
      (s.inGw off = false → Lands (exec (.debugMemAccess .pantry a (some v)) s) fun e => Only [.hatch, .par] s e ∧ e.hatch.boxes = s.hatch.boxes)) ∧
    (s.bankOff (off / 0x20000) = false →
      (Lands (exec (.debugMemAccess .pantry a none) s) fun e => Only [.sys, .pantry] s e ∧ e.pantry.mem = s.pantry.mem ∧
        e.sys = { s.sys with debugRead := leNat (s.pantry.mem.readN off 4) }) ∧
      (s.inGw off = false → s.pantry.mem.wf = true → Lands (exec (.debugMemAccess .pantry a (some v)) s) fun e => Only [.hatch, .pantry] s e ∧
        e.hatch.boxes = s.hatch.boxes ∧ e.pantry.mem.readN off 4 = leBytes 4 v.toNat ∧
        ∀ b, b < off ∨ off + 4 ≤ b → e.pantry.mem.read b = s.pantry.mem.read b)) ∧
    (s.inGw off = true → s.gwOwn off = false → Lands (exec (.debugMemAccess .pantry a (some v)) s) fun e =>
      Only [.hatch, .par] s e ∧ e.hatch.boxes = s.hatch.boxes) ∧
    (s.inGw off = true → s.gwOwn off = true → Lands (exec (.debugMemAccess .pantry a (some v)) s) fun e =>
      Only [.todo, .hatch, .notif, .par, .faults, .pantry, .links, .ring] s e ∧ e.ring.wseq = (s.ring.wseq + 1) % 8192 ∧
      e.ring.applied.get? (gwSlice off) = some s.ring.wseq ∧
      (s.bankOff (off / 0x20000) = false → s.gwWaiting 128 < 512 → s.gwWaiting 129 < 512 → s.pantry.mem.wf = true →
        e.pantry.mem.readN off 4 = leBytes 4 v.toNat ∧ ∀ b, b < off ∨ off + 4 ≤ b → e.pantry.mem.read b = s.pantry.mem.read b)) := by
  have aligned : a.toNat % 0x200000 / 4 * 4 % 4 = 0 := Nat.mul_mod_left ..
  have writes : exec (.debugMemAccess .pantry a (some v)) s =
      ((s.dropHeld .debug).wordWrites (a.toNat % 0x200000 / 4 * 4) none (some { data := v, be := 15 }) none).done := by
    refine (pantryAccess_run open_ a (some v)).trans (congrArg State.done ?_)
    exact if_neg (Nat.not_le.2 below)
  have reads : exec (.debugMemAccess .pantry a none) s =
      ((if s.bankOff (a.toNat % 0x200000 / 4 * 4 / 0x20000) then s.bump 0x0F03 noInst 4 else s.bankTouch (a.toNat % 0x200000 / 4 * 4 / 0x20000)).updSys
        fun y => { y with debugRead := s.wordValue (a.toNat % 0x200000 / 4 * 4) }).done := by
    refine (pantryAccess_run open_ a none).trans (congrArg State.done ?_)
    exact if_neg (Nat.not_le.2 below)
  dsimp only
  generalize a.toNat % 0x200000 / 4 * 4 = off at *
  have held : Keeps 16 s (s.dropHeld .debug) := dropHeld_keeps (by decide) (.refl _ s)
  obtain ⟨par, pantry, boxes, twin, ring, links⟩ := dropHeld_same s .debug
  generalize s.dropHeld .debug = u at *
  have eff : u.par.eff = s.par.eff := by rw [par]
  have bank : u.bankOff (off / 0x20000) = s.bankOff (off / 0x20000) := bankOff_of_clearing eff (by rw [pantry]) _
  have window := inGw_congr eff off
  refine ⟨fun dead => ⟨⟨_, reads, ?_, ?_⟩, fun out => ⟨_, writes, ?_, ?_⟩⟩, fun on => ⟨⟨_, reads, ?_, ?_, ?_⟩, fun out wf => ⟨_, writes, ?_⟩⟩,
    fun inside foreign => ⟨_, writes, ?_⟩, fun inside own => ⟨_, writes, ?_⟩⟩
  · rw [if_pos dead]
    exact only_of (updSys_keeps (by decide) (bump_keeps (by decide) (.refl _ s)))
  · rw [if_pos dead, wordValue_off aligned dead]
    rfl
  · rw [mgmtWrites_outside (window.trans out), State.land, if_pos (bank.trans dead)]
    exact only_of (bump_keeps (by decide) (held.weaken (by decide)))
  · rw [mgmtWrites_outside (window.trans out), State.land, if_pos (bank.trans dead)]
    exact boxes
  · rw [if_neg (ne_true_of_eq_false on)]
    exact only_of (updSys_keeps (by decide) (bankTouch_keeps (by decide) (.refl _ s)))
  · rw [if_neg (ne_true_of_eq_false on)]
    exact (bankTouch_mem s _).1
  · rw [if_neg (ne_true_of_eq_false on), updSys_sys, (bankTouch_keeps (M := 8192) (by decide) (.refl _ s)).sys (by decide), wordValue_on aligned on]
  · rw [mgmtWrites_outside (window.trans out)]
    obtain ⟨lands, -, -⟩ := land_on (bank.trans on) { data := v, be := 15 }
    obtain ⟨word, others⟩ := land_word (bank.trans on) (by rw [pantry]; exact wf) v
    rw [pantry] at others
    exact ⟨only_of ((held.weaken (by decide)).trans (lands.weaken (by decide))), (congrArg Hatch.boxes (lands.hatch (by decide))).trans boxes, word, others⟩
  · rw [mgmtWrites_foreign (window.trans inside) ((gwOwn_congr eff twin off).trans foreign)]
    exact ⟨only_of (bump_keeps (by decide) (held.weaken (by decide))), boxes⟩
  · rw [mgmtWrites_own (window.trans inside) ((gwOwn_congr eff twin off).trans own)]
    have landed : Keeps 8256 u (u.land off { data := v, be := 15 }) := land_keeps (by decide) (.refl _ u)
    have sent : Keeps 2171128 u ((u.land off { data := v, be := 15 }).gwSend off { data := v, be := 15 }) := gwSend_keeps (by decide) (landed.weaken (by decide))
    obtain ⟨wseq, applied⟩ := gwSend_ring (u.land off { data := v, be := 15 }) off { data := v, be := 15 }
    rw [landed.ring (by decide), ring] at wseq applied
    refine ⟨only_of ((held.weaken (by decide)).trans (sent.weaken (by decide))), wseq, applied, fun on free free' wf => ?_⟩
    obtain ⟨word, others⟩ := land_word (bank.trans on) (by rw [pantry]; exact wf) v
    have waits := gwWaiting_congr (s := s) (t := u.land off { data := v, be := 15 }) (by rw [land_eff, eff]) (by rw [landed.links (by decide), links])
    obtain ⟨same, -⟩ := gwSend_spec (s := u.land off { data := v, be := 15 }) (a := off)
      (ringEn_of_inGw ((inGw_congr (s := u) (land_eff ..) off).trans (window.trans inside))) ⟨(waits 128).trans_lt free, (waits 129).trans_lt free'⟩ { data := v, be := 15 }
    rw [same]
    rw [pantry] at others
    exact ⟨word, others⟩

/-- BAR0 through the debug port (R52, R53). -/
theorem bar0Access_lands {s : State} (open_ : s.accOpen .debug = true) (a v : BitVec 32) :
    (exec (.debugMemAccess .bar0 a (some v)) s = exec (.lowWordWrite .debug (a.setWidth 24) v) s) ∧
    (Next (exec (.debugMemAccess .bar0 a (some v)) s) fun t => Only [.freeCount, .hatch, .notif, .par, .time, .pantry] s t ∧
      s.OtherPorts t .debug) ∧
    (Next (exec (.debugMemAccess .bar0 a none) s) fun t => ∃ u, exec (.highWordRead .debug (a.setWidth 24)) s = .next u ∧
      Only [.sys] u t ∧ t.sys = { u.sys with debugRead := u.hatch.jtag.lastRead } ∧ s.OtherPorts t .debug) := by
  have offset : (a.setWidth 24).toNat % 0x10000 = a.toNat % 0x10000 := by
    rw [BitVec.toNat_setWidth]
    omega
  have write : exec (.debugMemAccess .bar0 a (some v)) s = .next (s.accWrite .debug (a.toNat % 0x10000) v.toNat) := if_pos open_
  have read : exec (.highWordRead .debug (a.setWidth 24)) s = .next (s.accRead .debug ((a.setWidth 24).toNat % 0x10000)) := if_pos open_
  refine ⟨?_, ⟨_, write, only_of (accWrite_keeps (by decide) (.refl _ s)), accWrite_otherPorts ..⟩,
    ⟨(s.accRead .debug (a.toNat % 0x10000)).updSys fun y => { y with debugRead := (s.accRead .debug (a.toNat % 0x10000)).hatch.jtag.lastRead },
      if_pos open_, _, read, ?_, ?_, ?_⟩⟩
  · refine write.trans (Eq.symm ?_)
    refine (if_pos open_).trans ?_
    change Outcome.next (s.accWrite .debug ((a.setWidth 24).toNat % 0x10000) v.toNat) = _
    rw [offset]
  · rw [offset]
    exact only_of (updSys_keeps (by decide) (.refl _ _))
  · rw [offset]
    rfl
  · exact (accRead_otherPorts s .debug _).then rfl

end Sys2Proof.Machine
end

section
/-!
PROOFS. The opening of the debug port (R642, R644, R645, R648, R649): its token, its end, and EXTEST; and O57.
-/

namespace Sys2Proof.Machine

open Host

/-! ### The token (R648) -/

theorem extestMay_iff (s : State) : s.extestMay = true ↔ (s.twin.role = .none ∨ s.twin.role = .maint) ∧ (List.range 16).all s.strStopped = true := by
  rw [State.extestMay, Bool.and_eq_true, Bool.or_eq_true, decide_eq_true_iff, decide_eq_true_iff]

theorem extestMay_false (s : State) :
    s.extestMay = false ↔ ¬ ((s.twin.role = .none ∨ s.twin.role = .maint) ∧ ∀ str < 16, (s.str str).st = .stopped) := by
  have stopped : (List.range 16).all s.strStopped = true ↔ ∀ n < 16, (s.str n).st = .stopped := by
    have off := not_congr (allStopped_iff s)
    rwa [Bool.not_eq_false, not_not] at off
  rw [← Bool.not_eq_true, extestMay_iff, stopped]

theorem inR_false (n a b : Nat) : inR n a b = false ↔ n < a ∨ b < n := by
  unfold inR
  rw [Bool.and_eq_false_iff, decide_eq_false_iff_not, decide_eq_false_iff_not, Nat.not_le, Nat.not_le]

theorem dbgUnlock_lands {s : State} {mb : Fin 8} {q : Request} (runs : s.Runs mb 0x1A10 q) : Lands (exec (.dbgUnlock mb) s) fun e =>
    let scope := uAt q.payload 0 1
    let mins := uAt q.payload 2 2
    let refused := fun (st : Nat) (x : Byte) => Only [.hatch] s e ∧ s.Replies e mb q st [x, 0, 0xFF, 0xFF]
    if s.fw.lc ≠ .field then refused stRefused 0x95
    else if 7 < scope ∨ mins < 1 ∨ 1440 < mins then refused stBadParam 5
    else if bit scope 2 = true ∧ ¬ ((s.twin.role = .none ∨ s.twin.role = .maint) ∧ ∀ str < 16, (s.str str).st = .stopped) then refused stRefused 0x96
    else if s.tokenOk s.fw.ownerKey 0x1A10 [scope, mins] (slice q.payload 4 64) = true then
      Only [.freeCount, .hatch, .notif, .par, .sys, .pantry, .fw] s e ∧
      e.sys = { s.sys with opening := some (scope, (s.bat.rtcSec + 60 * mins) % 2 ^ 32) } ∧ e.fw = { s.fw with challenge := s.freeVal } ∧
      s.Replies e mb q stOk (leBytes 4 ((s.bat.rtcSec + 60 * mins) % 2 ^ 32) ++ [0, 0, 0, 0])
    else Only [.freeCount, .hatch, .fw] s e ∧ e.fw = { s.fw with challenge := s.freeVal } ∧ s.Replies e mb q stBadParam [0x94, 0, 0xFF, 0xFF] := by
  have run : exec (.dbgUnlock mb) s = State.done (
      if s.fw.lc ≠ .field then s.refuse mb stRefused 0x95
      else if 7 < uAt q.payload 0 1 ∨ inR (uAt q.payload 2 2) 1 1440 = false then s.refuse mb stBadParam 0x05
      else if bit (uAt q.payload 0 1) 2 = true ∧ s.extestMay = false then s.refuse mb stRefused 0x96
      else if s.tokenOk s.fw.ownerKey 0x1A10 [uAt q.payload 0 1, uAt q.payload 2 2] (slice q.payload 4 64) then
        ((s.freshChallenge.updSys fun y => { y with opening := some (uAt q.payload 0 1, (s.bat.rtcSec + 60 * uAt q.payload 2 2) % 2 ^ 32) }).note 0x0A
          0x1A01 (leBytes 1 (uAt q.payload 0 1) ++ [0] ++ leBytes 2 (uAt q.payload 2 2))).replyOk mb
            (leBytes 4 ((s.bat.rtcSec + 60 * uAt q.payload 2 2) % 2 ^ 32) ++ [0, 0, 0, 0])
      else s.freshChallenge.refuse mb stBadParam 0x94) := congrArg State.done (withCmd_runs runs _ _)
  dsimp only at run ⊢
  generalize uAt q.payload 0 1 = scope at *
  generalize uAt q.payload 2 2 = mins at *
  generalize leBytes 1 scope ++ [0] ++ leBytes 2 mins = args at *
  generalize (s.bat.rtcSec + 60 * mins) % 2 ^ 32 = last at *
  refine lands_ite (fun bad => refuse_lands runs.taken (by decide) 0x95 (run.trans (congrArg State.done (if_pos bad)))) fun good => ?_
  rw [if_neg good] at run
  refine lands_ite (fun bad => refuse_lands runs.taken (by decide) 0x05 (run.trans (congrArg State.done
    (if_pos (bad.imp_right (inR_false ..).2))))) fun good => ?_
  rw [if_neg fun h => good (h.imp_right (inR_false ..).1)] at run
  refine lands_ite (fun bad => refuse_lands runs.taken (by decide) 0x96 (run.trans (congrArg State.done
    (if_pos ⟨bad.1, (extestMay_false s).2 bad.2⟩)))) fun good => ?_
  rw [if_neg fun h => good ⟨h.1, (extestMay_false s).1 h.2⟩] at run
  have begun : Keeps 134217732 s s.freshChallenge := freshChallenge_keeps (by decide) (.refl _ s)
  have fresh : s.freshChallenge.fw = { s.fw with challenge := s.freeVal } := rfl
  generalize s.freshChallenge = u at *
  have box : ∀ n, u.box n = s.box n := fun n => congrArg (fun h : Hatch => h.boxes.get {} n) (begun.hatch (by decide))
  refine lands_ite (fun verified => ?_) fun unverified => ?_
  · rw [if_pos verified] at run
    have opened : Keeps 256 u (u.updSys fun y => { y with opening := some (scope, last) }) := updSys_keeps (by decide) (.refl _ u)
    have sys : (u.updSys fun y => { y with opening := some (scope, last) }).sys = { s.sys with opening := some (scope, last) } := by
      rw [updSys_sys, begun.sys (by decide)]
    have same : ∀ n, (u.updSys fun y => { y with opening := some (scope, last) }).box n = s.box n := box
    generalize (u.updSys fun y => { y with opening := some (scope, last) }) = w at *
    have noted : Keeps 8304 w (w.note 0x0A 0x1A01 args) := note_keeps (by decide) (.refl _ w)
    have boxes : ∀ n, (w.note 0x0A 0x1A01 args).box n = s.box n := fun n => (note_box ..).trans (same n)
    generalize w.note 0x0A 0x1A01 args = v at *
    refine ⟨_, run, ?_, ?_, ?_, ?_⟩
    · exact only_of (replyOk_hatch (by decide) ((begun.weaken (by decide)).trans ((opened.weaken (by decide)).trans (noted.weaken (by decide)))))
    · rw [(replyOk_hatch (M := 16) (by decide) (.refl _ v)).sys (by decide), noted.sys (by decide), sys]
    · rw [(replyOk_hatch (M := 16) (by decide) (.refl _ v)).fw (by decide), noted.fw (by decide), opened.fw (by decide), fresh]
    · refine reply_replies_of_held ⟨_, boxes mb⟩ (fun n _ => boxes n) ?_ runs.taken stOk _
      rw [noted.twin (by decide), opened.twin (by decide), begun.twin (by decide)]
  · rw [if_neg unverified] at run
    refine ⟨_, run, ?_, ?_, ?_⟩
    · exact only_of (refuse_hatch (by decide) (by decide) (begun.weaken (by decide)))
    · rw [(refuse_hatch (M := 16) (by decide) (by decide) (.refl _ u)).fw (by decide), fresh]
    · exact reply_replies_of_held ⟨_, box mb⟩ (fun n _ => box n) (by rw [begun.twin (by decide)]) runs.taken stBadParam (reasonPayload 0x94 0xFFFF)

/-! ### The end of an opening (R644, R649) -/

/-- The port is closed and its cores run. -/
def State.Shut (s : State) : Prop := s.sys.opening = none ∧ s.sys.core0.halted = false ∧ s.sys.core1.halted = false

theorem dbgClose_none {s : State} (shut : s.sys.opening = none) : s.dbgClose = s := by
  unfold State.dbgClose
  rw [shut]

theorem dbgClose_some {s : State} {o : Nat × Nat} (open_ : s.sys.opening = some o) : s.dbgClose = (s.updSys Sys.shut).note 0x0A 0x1A02 (leBytes 1 o.1) := by
  unfold State.dbgClose
  rw [open_]

theorem dbgClose_sys {s : State} {o : Nat × Nat} (open_ : s.sys.opening = some o) : s.dbgClose.sys = s.sys.shut := by
  rw [dbgClose_some open_, (note_keeps (M := 8304) (by decide) (.refl _ _)).sys (by decide), updSys_sys]

theorem dbgClose_shut {s : State} {o : Nat × Nat} (open_ : s.sys.opening = some o) : s.dbgClose.Shut := by
  rw [State.Shut, dbgClose_sys open_]
  exact ⟨rfl, rfl, rfl⟩

theorem dbgClose_stage (s : State) : s.dbgClose.sys.stage = s.sys.stage := by
  cases open_ : s.sys.opening with
  | none => rw [dbgClose_none open_]
  | some o => rw [dbgClose_sys open_]; rfl

theorem dbgClose_boxes (s : State) (n : Nat) : s.dbgClose.box n = s.box n := by
  cases open_ : s.sys.opening with
  | none => rw [dbgClose_none open_]
  | some o => rw [dbgClose_some open_, note_box]; rfl

/-! ### EXTEST is left (R645) -/

theorem Sys.recause_port (y : Sys) (cause src : Nat) : (y.recause cause src).opening = y.opening ∧ (y.recause cause src).core0 = y.core0 ∧
    (y.recause cause src).core1 = y.core1 ∧ (y.recause cause src).jtag = y.jtag := ⟨rfl, rfl, rfl, rfl⟩

theorem extestLeave_joins {s : State} (in_ : s.sys.stage = .inReset) (i : JtagInstr) : Only [.sys] s (s.extestLeave i) ∧
    (s.extestLeave i).sys.jtag = i ∧ (s.Shut → (s.extestLeave i).Shut) := by
  have loaded : (s.updSys fun y => { y with jtag := i }).sys.stage = .inReset := in_
  unfold State.extestLeave State.chipReset
  rw [if_pos loaded]
  split
  · exact ⟨only_of (updSys_keeps (by decide) (updSys_keeps (by decide) (.refl _ s))), rfl, fun h => h⟩
  · exact ⟨only_of (updSys_keeps (by decide) (.refl _ s)), rfl, fun h => h⟩

theorem extestLeave_starts {s : State} (out : s.sys.stage ≠ .inReset) {i : JtagInstr} (other : i ≠ .extest) :
    (s.extestLeave i).sys.jtag = i ∧ (s.extestLeave i).Shut ∧ (s.extestLeave i).sys.stage = .inReset ∧ (s.extestLeave i).sys.cause = 2 := by
  have resets : ChipReset 2 (s.updSys fun y => { y with jtag := i }) (s.extestLeave i) :=
    chipReset_starts (s := s.updSys fun y => { y with jtag := i }) out 2
  obtain ⟨stage, cause, -, -, -⟩ := resets.stage
  have sys := resets.sys
  generalize s.extestLeave i = e at *
  refine ⟨?_, ?_, stage, cause⟩
  · rw [sys]
    exact if_neg other
  · rw [State.Shut, sys]
    exact ⟨rfl, rfl, rfl⟩

/-- EXTEST is left in any stage; only a chip reset that starts ends an opening and takes the cause. -/
theorem extestLeave_spec (s : State) {i : JtagInstr} (other : i ≠ .extest) : (s.extestLeave i).sys.jtag = i ∧ (s.Shut → (s.extestLeave i).Shut) ∧
    (s.sys.stage ≠ .inReset → (s.extestLeave i).sys.stage = .inReset ∧ (s.extestLeave i).sys.cause = 2) := by
  by_cases in_ : s.sys.stage = .inReset
  · obtain ⟨-, jtag, shut⟩ := extestLeave_joins in_ i
    exact ⟨jtag, shut, fun out => absurd in_ out⟩
  · obtain ⟨jtag, shut, starts⟩ := extestLeave_starts in_ other
    exact ⟨jtag, fun _ => shut, fun _ => starts⟩

theorem dbgLock_lands {s : State} {mb : Fin 8} {q : Request} (runs : s.Runs mb 0x1A11 q) : Lands (exec (.dbgLock mb) s) fun e =>
    if s.fw.lc ≠ .field then Only [.hatch] s e ∧ s.Replies e mb q stRefused [0x95, 0, 0xFF, 0xFF]
    else if s.sys.jtag = .extest then (s.sys.opening ≠ none → e.Shut) ∧ e.sys.jtag = .bypass ∧
      (s.sys.stage ≠ .inReset → e.sys.stage = .inReset ∧ e.sys.cause = 2)
    else if s.sys.opening = none then Only [.hatch] s e ∧ s.Replies e mb q stOk [0, 0, 0, 0]
    else Only [.hatch, .notif, .par, .sys, .pantry] s e ∧ e.Shut ∧ s.Replies e mb q stOk [2, 0, 0, 0] := by
  have run : exec (.dbgLock mb) s = State.done (
      if s.fw.lc ≠ .field then s.refuse mb stRefused 0x95
      else if s.sys.jtag = .extest then (s.dbgClose.replyOk mb (leBytes 1 s.dbgCode ++ [0, 0, 0])).extestLeave .bypass
      else s.dbgClose.replyOk mb (leBytes 1 s.dbgCode ++ [0, 0, 0])) := congrArg State.done (withCmd_runs runs _ _)
  refine lands_ite (fun bad => refuse_lands runs.taken (by decide) 0x95 (run.trans (congrArg State.done (if_pos bad)))) fun field => ?_
  rw [if_neg field] at run
  have code : s.dbgCode = b2n s.sys.opening.isSome * 2 := if_neg field
  refine lands_ite (fun extest => ?_) fun ordinary => ?_
  · rw [if_pos extest] at run
    have replied : Keeps 16 s.dbgClose (s.dbgClose.replyOk mb (leBytes 1 s.dbgCode ++ [0, 0, 0])) := replyOk_hatch (by decide) (.refl _ _)
    have sys := replied.sys (by decide)
    generalize s.dbgClose.replyOk mb (leBytes 1 s.dbgCode ++ [0, 0, 0]) = u at *
    obtain ⟨jtag, shut, starts⟩ := extestLeave_spec u (i := .bypass) (by decide)
    refine ⟨_, run, fun opened => shut ?_, jtag, fun out => starts ?_⟩
    · obtain ⟨o, open_⟩ := Option.ne_none_iff_exists'.1 opened
      rw [State.Shut, sys]
      exact dbgClose_shut open_
    · rw [sys, dbgClose_stage]
      exact out
  · rw [if_neg ordinary] at run
    refine lands_ite (fun shut => ?_) fun opened => ?_
    · rw [dbgClose_none shut, code, shut] at run
      exact ⟨_, run, reply_only (by decide) mb _, reply_replies runs.taken stOk _⟩
    · obtain ⟨o, open_⟩ := Option.ne_none_iff_exists'.1 opened
      rw [code, open_] at run
      have closed : Keeps 8560 s s.dbgClose := dbgClose_keeps (by decide) (.refl _ s)
      refine ⟨_, run, only_of (replyOk_hatch (by decide) closed), ?_, ?_⟩
      · rw [State.Shut, (replyOk_hatch (M := 16) (by decide) (.refl _ s.dbgClose)).sys (by decide)]
        exact dbgClose_shut open_
      · exact reply_replies_of_held ⟨_, dbgClose_boxes s mb⟩ (fun n _ => dbgClose_boxes s n) (by rw [closed.twin (by decide)]) runs.taken stOk _

theorem dbgOpeningExpire_lands {s : State} {o : Nat × Nat} (open_ : s.sys.opening = some o) (due : o.2 ≤ s.bat.rtcSec) :
    (s.sys.jtag ≠ .extest → Lands (exec .dbgOpeningExpire s) fun e => Only [.hatch, .notif, .par, .sys, .pantry] s e ∧ e.Shut) ∧
    (s.sys.jtag = .extest → Lands (exec .dbgOpeningExpire s) fun e =>
      e.Shut ∧ e.sys.jtag = .bypass ∧ (s.sys.stage ≠ .inReset → e.sys.stage = .inReset ∧ e.sys.cause = 2)) := by
  have run : exec .dbgOpeningExpire s = State.done (if s.sys.jtag = .extest then s.dbgClose.extestLeave .bypass else s.dbgClose) := by
    change execDbgOpeningExpire s = _
    rw [execDbgOpeningExpire, open_]
    exact if_pos due
  refine ⟨fun ordinary => ?_, fun extest => ?_⟩
  · rw [if_neg ordinary] at run
    exact ⟨_, run, only_of (dbgClose_keeps (by decide) (.refl _ s)), dbgClose_shut open_⟩
  · rw [if_pos extest] at run
    obtain ⟨jtag, shut, starts⟩ := extestLeave_spec s.dbgClose (i := .bypass) (by decide)
    exact ⟨_, run, shut (dbgClose_shut open_), jtag, fun out => starts (by rw [dbgClose_stage]; exact out)⟩

theorem dbgOpening_stands {s : State} (early : ∀ o, s.sys.opening = some o → s.bat.rtcSec < o.2) : exec .dbgOpeningExpire s = .next s := by
  change execDbgOpeningExpire s = _
  unfold execDbgOpeningExpire
  cases open_ : s.sys.opening with
  | none => rfl
  | some o => exact if_neg (Nat.not_le.2 (early o open_))

/-! ### The instruction register (R642, R645) -/

/-- The instruction a load selects. -/
def State.selects (s : State) (i : JtagInstr) : JtagInstr :=
  match i with
  | .extest => if bit s.dbgScope 2 = true ∧ (s.twin.role = .none ∨ s.twin.role = .maint) ∧ (List.range 16).all s.strStopped = true then .extest
    else .bypass
  | .privateDebug => if s.dbgScope = 0 then .bypass else .privateDebug
  | .bypass => .bypass
  | .idcode => .idcode
  | .samplePreload => .samplePreload

theorem jtagInstructionLoad_run (s : State) (i : JtagInstr) : exec (.jtagInstructionLoad i) s =
    if s.sys.jtag = .extest ∧ s.selects i ≠ .extest then (s.extestLeave (s.selects i)).done
    else .next (s.updSys fun y => { y with jtag := s.selects i }) := by
  cases i with
  | extest =>
    have same : (if bit s.dbgScope 2 && s.extestMay then JtagInstr.extest else .bypass) = s.selects .extest :=
      if_congr (by rw [Bool.and_eq_true, extestMay_iff]) rfl rfl
    rw [← same]
    rfl
  | privateDebug => rfl
  | bypass => rfl
  | idcode => rfl
  | samplePreload => rfl

theorem jtagInstructionLoad_lands (s : State) (i : JtagInstr) :
    ((s.sys.jtag ≠ .extest ∨ s.selects i = .extest) → Next (exec (.jtagInstructionLoad i) s) fun t => Only [.sys] s t ∧
      t.sys = { s.sys with jtag := s.selects i }) ∧
    (s.sys.jtag = .extest → s.selects i ≠ .extest → Lands (exec (.jtagInstructionLoad i) s) fun e => e.sys.jtag = s.selects i ∧
      (s.sys.stage = .inReset → Only [.sys] s e) ∧ (s.sys.stage ≠ .inReset → e.sys.stage = .inReset ∧ e.sys.cause = 2)) := by
  have run := jtagInstructionLoad_run s i
  generalize s.selects i = j at *
  refine ⟨fun stays => ?_, fun extest other => ?_⟩
  · rw [if_neg fun h => stays.elim (fun no => no h.1) h.2] at run
    exact ⟨_, run, only_of (updSys_keeps (by decide) (.refl _ s)), rfl⟩
  · rw [if_pos ⟨extest, other⟩] at run
    obtain ⟨jtag, -, starts⟩ := extestLeave_spec s other
    exact ⟨_, run, jtag, fun in_ => (extestLeave_joins in_ j).1, starts⟩

/-- Settles O57. -/
theorem debugPort : Obligations.DebugPort := by
  unfold Obligations.DebugPort
  intro s
  refine ⟨debugCores s, fun a v open_ => ?_, fun shut sp a w => ⟨s, if_neg (ne_true_of_eq_false shut), rfl⟩, fun mb q runs => dbgUnlock_lands runs, ?_,
    fun i => jtagInstructionLoad_lands s i⟩
  · obtain ⟨tcmWrites, tcmReads, tcmOpen⟩ := tcmAccess_lands open_ a v
    exact ⟨tcmWrites, tcmReads, tcmOpen, ⟨fun box w => strongboxAccess_lands open_ a box w, fun below => (pantryWordAccess_lands open_ a v below).1,
      fun below => (pantryWordAccess_lands open_ a v below).2.1, fun below => (pantryWordAccess_lands open_ a v below).2.2.1,
      fun below => (pantryWordAccess_lands open_ a v below).2.2.2⟩, bar0Access_lands open_ a v⟩
  · exact ⟨fun mb q runs => dbgLock_lands runs, fun o open_ due => (dbgOpeningExpire_lands open_ due).1,
      fun o open_ due => (dbgOpeningExpire_lands open_ due).2, dbgOpening_stands⟩

end Sys2Proof.Machine
end

section
/-!
PROOFS. The loft and the start of new firmware (R601 to R607): LOFT_WRITE, LOFT_VERIFY, LOFT_SCHEDULE, the activation and its confirmation.
-/

namespace Sys2Proof.Machine

open Host

/-! ### Commands with a UNIT field and an effect of this unit's own (R132, R605) -/

/-- A state differs from another in nothing that tells whether, and how, a write goes to the standby. -/
structure State.Beside (s u : State) : Prop where
  /-- The mailboxes. -/
  hatch : u.hatch = s.hatch
  /-- The twin. -/
  twin : u.twin = s.twin
  /-- The lanes. -/
  lanes : u.lanes = s.lanes
  /-- The elapsed time. -/
  mono : u.mono = s.mono
  /-- The parameters in effect. -/
  eff : u.par.eff = s.par.eff

theorem State.Beside.refl (s : State) : s.Beside s := ⟨rfl, rfl, rfl, rfl, rfl⟩

theorem State.Beside.standby {s u : State} (h : s.Beside u) : u.hasStandby = s.hasStandby := hasStandby_congr h.twin h.eff

theorem State.Beside.barred {s u : State} (h : s.Beside u) : u.forwardBarred = s.forwardBarred := by
  simp only [State.forwardBarred, State.twinLinkUp, h.standby, State.lane, h.lanes, h.twin]
  rfl

theorem State.Beside.box {s u : State} (h : s.Beside u) (n : Nat) : u.box n = s.box n := by rw [State.box, h.hatch]; rfl

/-- What a frame without these parts tells. -/
theorem Keeps.beside {M : Nat} {s u : State} (h : Keeps M s u) (eff : u.par.eff = s.par.eff)
    (out : M.testBit 1 = false ∧ M.testBit 4 = false ∧ M.testBit 11 = false ∧ M.testBit 14 = false) : s.Beside u :=
  ⟨h.hatch out.2.1, h.twin out.2.2.1, h.lanes out.2.2.2, h.mono out.1, eff⟩

/-- How a command with a UNIT field ends: `u` is the state its checks have left, `w` the one its part in this unit has. -/
theorem unitData_lands {s u w : State} {l m : List Part} {mb : Nat} {q : Request} {unit : Nat} (taken : (s.box mb).taken = some q)
    (before : Only l s u) (beside : s.Beside u) (after : Only m s w) (beside' : s.Beside w) {own : State → State}
    (part : (if unit = 1 then u else own u) = w) (payload d : Bytes) {o : Outcome State Fault Refusal}
    (run : o = (u.unitData mb q unit payload d own).done) : Lands o fun e =>
      if 1 ≤ unit ∧ s.hasStandby = false then
        Only (.hatch :: l) s e ∧ s.Replies e mb q stBadParam [0x22, 0, 0xFF, 0xFF] ∧ Keeps 16 u e
      else if 1 ≤ unit ∧ s.forwardBarred = true then
        Only (.hatch :: l) s e ∧ s.Replies e mb q stRefused [0x80, 0, 0xFF, 0xFF] ∧ Keeps 16 u e
      else (if unit = 0 then Only (.hatch :: m) s e ∧ s.Replies e mb q stOk payload
        else Only (.hatch :: .twin :: .links :: m) s e ∧ s.Forwards e mb payload) ∧ Keeps 67664 w e := by
  unfold State.unitData at run
  rw [part, beside.standby, beside.barred] at run
  refine lands_ite (fun alone => ?_) fun paired => ?_
  · rw [if_pos alone] at run
    obtain ⟨only, replies⟩ := reply_ends taken before beside.hatch beside.twin (status := stBadParam) (by decide) (reasonPayload 0x22 0xFFFF)
    exact ⟨_, run, only, replies, refuse_hatch (by decide) (by decide) (.refl _ u)⟩
  · rw [if_neg paired] at run
    refine lands_ite (fun barred => ?_) fun free => ?_
    · rw [if_pos barred] at run
      obtain ⟨only, replies⟩ := reply_ends taken before beside.hatch beside.twin (status := stRefused) (by decide) (reasonPayload 0x80 0xFFFF)
      exact ⟨_, run, only, replies, refuse_hatch (by decide) (by decide) (.refl _ u)⟩
    · rw [if_neg free] at run
      by_cases zero : unit = 0
      · rw [if_pos zero] at run
        refine ⟨_, run, ?_, replyOk_keeps (by decide) (.refl _ w)⟩
        rw [if_pos zero]
        exact reply_ends taken after beside'.hatch beside'.twin (by decide) payload
      · rw [if_neg zero] at run
        have there : s.hasStandby = true := Bool.not_eq_false _ ▸ fun no => paired ⟨by omega, no⟩
        obtain ⟨only, accepts⟩ := write_ends (q := q) taken after beside'.hatch beside'.twin beside'.mono beside'.eff payload d
        refine ⟨_, run, ?_, finishWrite_keeps (by decide) (.refl _ w)⟩
        rw [if_neg zero]
        rw [OnlyWrite, if_pos there] at only
        rw [State.Accepts, if_pos there] at accepts
        exact ⟨only, accepts⟩

/-- What two alternatives give, given what two others do. -/
theorem ite_imp {c d : Prop} [Decidable c] [Decidable d] (same : c ↔ d) {P Q P' Q' : Prop} (yes : c → P → P') (no : ¬c → Q → Q')
    (h : if c then P else Q) : if d then P' else Q' := by
  split at h
  · rename_i holds
    rw [if_pos (same.1 holds)]
    exact yes holds h
  · rename_i fails
    rw [if_neg (mt same.2 fails)]
    exact no fails h

/-! ### LOFT_WRITE (R605) -/

theorem length_mpRead (s : State) (off n : Nat) : (s.mpRead off n).length = n := by
  rw [State.mpRead, List.length_map, List.length_range]

theorem readN_writeN {m : Memory} (wf : m.wf = true) (k : Nat) (d : Bytes) : (m.writeN k d).readN k d.length = d := by
  refine List.ext_getElem ?_ fun i small _ => ?_
  · rw [Memory.readN, List.length_map, List.length_range]
  · rw [Memory.readN, List.length_map, List.length_range] at small
    simp only [Memory.readN, List.getElem_map, List.getElem_range]
    rw [Memory.read_writeN_same m k i d small wf]

theorem mpTook_beside (s : State) (off n : Nat) : Keeps 8256 s (s.mpTook off n) ∧ s.Beside (s.mpTook off n) := by
  have keeps : Keeps 8256 s (s.mpTook off n) := mpTook_keeps (by decide) (.refl _ s)
  exact ⟨keeps, keeps.beside (mpTook_eff s off n) (by decide)⟩

theorem loftWrite_lands {s : State} {mb : Fin 8} {q : Request} (runs : s.Runs mb 0x1810 q) : Lands (exec (.loftWrite mb) s) fun e =>
    let unit := uAt q.payload 0 1
    let off := uAt q.payload 4 4
    let dst := uAt q.payload 8 4
    let n := uAt q.payload 12 4
    if 2 < unit ∨ off % 4 ≠ 0 ∨ dst % 4 ≠ 0 ∨ n < 4 ∨ 131072 < n ∨ 0x1C0000 < off + n ∨ 0x200000 < dst + n then
      Only [.hatch] s e ∧ s.Replies e mb q stBadParam (leBytes 1 5 ++ [0, 0xFF, 0xFF])
    else if 1 ≤ unit ∧ s.hasStandby = false then
      Only [.hatch, .par, .pantry] s e ∧ s.Replies e mb q stBadParam (leBytes 1 0x22 ++ [0, 0xFF, 0xFF])
    else if 1 ≤ unit ∧ s.forwardBarred = true then
      Only [.hatch, .par, .pantry] s e ∧ s.Replies e mb q stRefused (leBytes 1 0x80 ++ [0, 0xFF, 0xFF])
    else (if unit = 0 then Only [.hatch, .par, .pantry, .fw] s e ∧ s.Replies e mb q stOk []
        else Only [.hatch, .twin, .links, .par, .pantry, .fw] s e ∧ s.Forwards e mb []) ∧
      if unit = 1 then e.fw = s.fw
      else e.fw = { s.fw with loft := { mem := e.fw.loft.mem }, loftSt := .written, activateAt := 0 } ∧
        (s.fw.loft.mem.wf = true → e.fw.loft.mem.readN dst n = s.mpRead off n ∧
          ∀ a, a < dst ∨ dst + n ≤ a → e.fw.loft.mem.read a = s.fw.loft.mem.read a) := by
  have run : exec (.loftWrite mb) s = State.done (
      if 2 < uAt q.payload 0 1 ∨ uAt q.payload 4 4 % 4 ≠ 0 ∨ uAt q.payload 8 4 % 4 ≠ 0 ∨ inR (uAt q.payload 12 4) 4 131072 = false ∨
          spanOk (uAt q.payload 4 4) (uAt q.payload 12 4) = false ∨ 0x200000 < uAt q.payload 8 4 + uAt q.payload 12 4 then
        s.refuse mb stBadParam 0x05
      else (s.mpTook (uAt q.payload 4 4) (uAt q.payload 12 4)).unitData mb q (uAt q.payload 0 1) []
        (s.mpRead (uAt q.payload 4 4) (uAt q.payload 12 4)) fun s' => s'.loftPut (uAt q.payload 8 4)
          (s.mpRead (uAt q.payload 4 4) (uAt q.payload 12 4))) := congrArg State.done (withCmd_runs runs _ _)
  dsimp only
  generalize uAt q.payload 0 1 = unit at *
  generalize uAt q.payload 4 4 = off at *
  generalize uAt q.payload 8 4 = dst at *
  generalize uAt q.payload 12 4 = n at *
  have same : (2 < unit ∨ off % 4 ≠ 0 ∨ dst % 4 ≠ 0 ∨ inR n 4 131072 = false ∨ spanOk off n = false ∨ 0x200000 < dst + n) ↔
      (2 < unit ∨ off % 4 ≠ 0 ∨ dst % 4 ≠ 0 ∨ n < 4 ∨ 131072 < n ∨ 0x1C0000 < off + n ∨ 0x200000 < dst + n) := by
    simp only [inR_false, spanOk, decide_eq_false_iff_not, not_le, or_assoc]
  refine lands_ite (fun bad => refuse_lands runs.taken (by decide) 0x05 (run.trans (congrArg State.done (if_pos (same.2 bad))))) fun good => ?_
  rw [if_neg (mt same.1 good)] at run
  obtain ⟨took, beside⟩ := mpTook_beside s off n
  have length := length_mpRead s off n
  generalize s.mpRead off n = d at *
  generalize s.mpTook off n = u at *
  have put : Keeps 134217728 u (if unit = 1 then u else u.loftPut dst d) := keeps_ite (fun _ => .refl _ u) fun _ => loftPut_keeps (by decide) (.refl _ u)
  have after : Only [.par, .pantry, .fw] s (if unit = 1 then u else u.loftPut dst d) := only_of ((took.weaken (by decide)).trans (put.weaken (by decide)))
  have beside' : s.Beside (if unit = 1 then u else u.loftPut dst d) := by
    split
    · exact beside
    · exact ⟨beside.hatch, beside.twin, beside.lanes, beside.mono, beside.eff⟩
  obtain ⟨e, ends, h⟩ := unitData_lands runs.taken (only_of took : Only [.par, .pantry] s u) beside after beside' rfl [] d run
  refine ⟨e, ends, ite_imp .rfl (fun _ h => ⟨h.1, h.2.1⟩) (fun _ => ite_imp .rfl (fun _ h => ⟨h.1, h.2.1⟩) fun _ h => ?_) h⟩
  obtain ⟨answered, last⟩ := h
  refine ⟨answered, ?_⟩
  have fw := last.fw (by decide)
  by_cases one : unit = 1
  · rw [if_pos one] at fw ⊢
    rw [fw, took.fw (by decide)]
  · rw [if_neg one] at fw ⊢
    have written : (u.loftPut dst d).fw = { s.fw with loft := { mem := s.fw.loft.mem.writeN dst d }, loftSt := .written, activateAt := 0 } := by
      rw [State.loftPut, updFw_fw, took.fw (by decide)]
    rw [fw, written]
    refine ⟨rfl, fun wf => ⟨?_, fun a out => ?_⟩⟩
    · rw [← length]
      exact readN_writeN wf dst d
    · exact Memory.read_writeN_other _ _ _ _ (by rw [length]; exact out) wf

/-! ### LOFT_VERIFY and LOFT_SCHEDULE (R602 to R606) -/

/-- An item that is not sound is never answered BUSY. -/
theorem itemFault_status {s : State} {rd : ItemBytes} {kinds : List Nat} {room : Nat} {r : Nat × Nat} (h : s.itemFault rd kinds room = some r) :
    r.1 ≠ stBusy := by
  have four : ∀ x, some (4, x) = some r → r.1 ≠ stBusy := fun x e => by
    cases e
    exact (by decide : 4 ≠ stBusy)
  have three : ∀ x, some (3, x) = some r → r.1 ≠ stBusy := fun x e => by
    cases e
    exact (by decide : 3 ≠ stBusy)
  unfold State.itemFault at h
  dsimp only at h
  split at h
  · exact four _ h
  split at h
  · exact three _ h
  split at h
  · exact four _ h
  split at h
  · exact four _ h
  split at h
  · exact four _ h
  split at h
  · exact four _ h
  split at h
  · exact four _ h
  · exact nomatch h

theorem loftFault_status {s : State} {r : Nat × Nat} (h : s.loftFault = some r) : r.1 ≠ stBusy := by
  unfold State.loftFault at h
  split at h
  · exact (nomatch h)
  split at h
  · rename_i x fault
    cases h
    exact itemFault_status fault
  split at h
  · cases h
    decide
  · exact (nomatch h)

/-- A command with a UNIT field whose checks leave nothing and whose part is the firmware's. -/
theorem unitFirm_lands {s : State} {mb : Nat} {q : Request} (taken : (s.box mb).taken = some q) (unit : Nat) (f : Firm → Firm) (payload : Bytes)
    {o : Outcome State Fault Refusal} (run : o = (s.unitData mb q unit payload [] fun s => s.updFw f).done) : Lands o fun e =>
      if 1 ≤ unit ∧ s.hasStandby = false then Only [.hatch] s e ∧ s.Replies e mb q stBadParam [0x22, 0, 0xFF, 0xFF]
      else if 1 ≤ unit ∧ s.forwardBarred = true then Only [.hatch] s e ∧ s.Replies e mb q stRefused [0x80, 0, 0xFF, 0xFF]
      else (if unit = 0 then Only [.hatch, .fw] s e ∧ s.Replies e mb q stOk payload
        else Only [.hatch, .twin, .links, .fw] s e ∧ s.Forwards e mb payload) ∧ e.fw = if unit = 1 then s.fw else f s.fw := by
  have put : Keeps 134217728 s (if unit = 1 then s else s.updFw f) := keeps_ite (fun _ => .refl _ s) fun _ => updFw_keeps (by decide) (.refl _ s)
  have beside' : s.Beside (if unit = 1 then s else s.updFw f) := by
    split
    · exact .refl s
    · exact ⟨rfl, rfl, rfl, rfl, rfl⟩
  obtain ⟨e, ends, h⟩ := unitData_lands (l := []) taken (fun p _ => by cases p <;> rfl) (.refl s) (only_of put : Only [.fw] s _) beside' rfl
    payload [] run
  refine ⟨e, ends, ite_imp .rfl (fun _ h => ⟨h.1, h.2.1⟩) (fun _ => ite_imp .rfl (fun _ h => ⟨h.1, h.2.1⟩) fun _ h => ⟨h.1, ?_⟩) h⟩
  refine (h.2.fw (by decide)).trans ?_
  split <;> rfl

theorem loftVerify_lands {s : State} {mb : Fin 8} {q : Request} (runs : s.Runs mb 0x1811 q) : Lands (exec (.loftVerify mb) s) fun e =>
    let unit := uAt q.payload 0 1
    let refused := fun (e : State) (st reason : Nat) => Only [.hatch] s e ∧ s.Replies e mb q st (leBytes 1 reason ++ [0, 0xFF, 0xFF])
    let shut := fun (l : List Part) (e : State) (reason st : Nat) => Only (.hatch :: l) s e ∧
      s.Replies e mb q st (leBytes 1 reason ++ [0, 0xFF, 0xFF])
    let took := fun (l : List Part) (e : State) (payload : Bytes) =>
      if unit = 0 then Only (.hatch :: l) s e ∧ s.Replies e mb q stOk payload else Only (.hatch :: .twin :: .links :: l) s e ∧ s.Forwards e mb payload
    if 2 < unit then refused e stBadParam 5
    else if unit = 1 then e.fw = s.fw ∧ e.freeCount = s.freeCount + 1 ∧
      if s.hasStandby = false then shut [.freeCount] e 0x22 stBadParam
      else if s.forwardBarred = true then shut [.freeCount] e 0x80 stRefused
      else took [.freeCount] e (leBytes 8 s.freeVal)
    else match s.loftFault with
      | some r => refused e r.1 r.2
      | none =>
        if unit = 2 ∧ Config.peerVersion.toNat < s.fw.loft.pairMin then refused e stRefused 0xF8
        else if unit = 2 ∧ s.hasStandby = false then refused e stBadParam 0x22
        else if unit = 2 ∧ s.forwardBarred = true then refused e stRefused 0x80
        else took [.fw] e (leBytes 4 s.fw.loft.version ++ leBytes 4 s.fw.loft.pairMin) ∧
          e.fw = { s.fw with loftSt := .verified, activateAt := 0 } := by
  have run : exec (.loftVerify mb) s = State.done (
      if 2 < uAt q.payload 0 1 then s.refuse mb stBadParam 0x05
      else if uAt q.payload 0 1 = 1 then s.tookFree.unitData mb q (uAt q.payload 0 1) (leBytes 8 s.freeVal) [] id
      else
        match s.verifyFault (uAt q.payload 0 1 == 2) with
        | some r => s.refuse mb r.1 r.2
        | none => s.unitData mb q (uAt q.payload 0 1) (leBytes 4 s.fw.loft.version ++ leBytes 4 s.fw.loft.pairMin) [] fun s =>
          s.updFw fun f => { f with loftSt := .verified, activateAt := 0 }) := congrArg State.done (withCmd_runs runs _ _)
  dsimp only
  generalize uAt q.payload 0 1 = unit at *
  refine lands_ite (fun bad => refuse_lands runs.taken (by decide) 0x05 (run.trans (congrArg State.done (if_pos bad)))) fun good => ?_
  rw [if_neg good] at run
  refine lands_ite (fun one => ?_) fun other => ?_
  · rw [if_pos one] at run
    subst one
    have drew : Keeps 4 s s.tookFree := tookFree_keeps (by decide) (.refl _ s)
    have beside : s.Beside s.tookFree := ⟨rfl, rfl, rfl, rfl, rfl⟩
    have count : s.tookFree.freeCount = s.freeCount + 1 := rfl
    generalize s.tookFree = u at *
    have part : Only [.freeCount] s u := only_of drew
    obtain ⟨e, ends, h⟩ := unitData_lands (own := id) runs.taken part beside part beside rfl (leBytes 8 s.freeVal) [] run
    have kept : ∀ {M : Nat} {e : State}, Keeps M u e → M.testBit 27 = false → M.testBit 2 = false → e.fw = s.fw ∧ e.freeCount = s.freeCount + 1 :=
      fun h out out' => ⟨(h.fw out).trans (drew.fw (by decide)), (h.freeCount out').trans count⟩
    refine ⟨e, ends, ?_⟩
    split at h
    · rename_i alone
      obtain ⟨fw, free⟩ := kept h.2.2 (by decide) (by decide)
      exact ⟨fw, free, by rw [if_pos alone.2]; exact ⟨h.1, h.2.1⟩⟩
    rename_i paired
    have paired : ¬ s.hasStandby = false := fun no => paired ⟨le_rfl, no⟩
    split at h
    · rename_i barred
      obtain ⟨fw, free⟩ := kept h.2.2 (by decide) (by decide)
      exact ⟨fw, free, by rw [if_neg paired, if_pos barred.2]; exact ⟨h.1, h.2.1⟩⟩
    rename_i open_
    obtain ⟨fw, free⟩ := kept h.2 (by decide) (by decide)
    exact ⟨fw, free, by rw [if_neg paired, if_neg fun barred => open_ ⟨le_rfl, barred⟩]; exact h.1⟩
  · rw [if_neg other] at run
    unfold State.verifyFault at run
    cases fault : s.loftFault with
    | some r =>
      rw [fault] at run
      exact refuse_lands runs.taken (loftFault_status fault) r.2 run
    | none =>
      rw [fault] at run
      dsimp only at run ⊢
      refine lands_ite (fun bad => refuse_lands runs.taken (by decide) 0xF8 (run.trans ?_)) fun fits => ?_
      · rw [bad.1, decide_eq_true bad.2]
        rfl
      · have both : ((unit == 2) && decide (Config.peerVersion.toNat < s.fw.loft.pairMin)) = false := by
          rw [Bool.and_eq_false_iff, beq_eq_false_iff_ne, decide_eq_false_iff_not]
          exact not_and_or.1 fits
        rw [both] at run
        obtain ⟨e, ends, h⟩ := unitFirm_lands runs.taken unit (fun f => { f with loftSt := .verified, activateAt := 0 }) _ run
        refine ⟨e, ends, ?_⟩
        have named : 1 ≤ unit ↔ unit = 2 := by omega
        rw [if_neg other] at h
        exact ite_imp (and_congr_left' named) (fun _ h => h) (fun _ => ite_imp (and_congr_left' named) (fun _ h => h) fun _ h => h) h

theorem loftSchedule_lands {s : State} {mb : Fin 8} {q : Request} (runs : s.Runs mb 0x1812 q) : Lands (exec (.loftSchedule mb) s) fun e =>
    let unit := uAt q.payload 0 1
    let refused := fun (e : State) (st reason : Nat) => Only [.hatch] s e ∧ s.Replies e mb q st (leBytes 1 reason ++ [0, 0xFF, 0xFF])
    let took := fun (l : List Part) (e : State) (payload : Bytes) =>
      if unit = 0 then Only (.hatch :: l) s e ∧ s.Replies e mb q stOk payload else Only (.hatch :: .twin :: .links :: l) s e ∧ s.Forwards e mb payload
    let t := uAt q.payload 8 8
    if 2 < unit then refused e stBadParam 5
    else if unit ≠ 1 ∧ s.fw.loftSt ≠ .verified ∧ s.fw.loftSt ≠ .scheduled then refused e stRefused 0xF9
    else if t ≠ 0 ∧ t < s.now + 8000000 then refused e stBadParam 0xFA
    else if 1 ≤ unit ∧ s.hasStandby = false then refused e stBadParam 0x22
    else if 1 ≤ unit ∧ s.forwardBarred = true then refused e stRefused 0x80
    else took [.fw] e [] ∧ e.fw = if unit = 1 then s.fw else
      { s.fw with loftSt := if t = 0 then .verified else .scheduled, activateAt := t } := by
  have run : exec (.loftSchedule mb) s = State.done (
      if 2 < uAt q.payload 0 1 then s.refuse mb stBadParam 0x05
      else if uAt q.payload 0 1 ≠ 1 ∧ s.fw.loftSt ≠ .verified ∧ s.fw.loftSt ≠ .scheduled then s.refuse mb stRefused 0xF9
      else if uAt q.payload 8 8 ≠ 0 ∧ uAt q.payload 8 8 < s.now + 8000000 then s.refuse mb stBadParam 0xFA
      else s.unitData mb q (uAt q.payload 0 1) [] [] fun s => s.updFw fun f =>
        { f with loftSt := if uAt q.payload 8 8 = 0 then .verified else .scheduled, activateAt := uAt q.payload 8 8 }) :=
    congrArg State.done (withCmd_runs runs _ _)
  dsimp only
  generalize uAt q.payload 0 1 = unit at *
  generalize uAt q.payload 8 8 = at_ at *
  refine lands_ite (fun bad => refuse_lands runs.taken (by decide) 0x05 (run.trans (congrArg State.done (if_pos bad)))) fun good => ?_
  rw [if_neg good] at run
  refine lands_ite (fun bad => refuse_lands runs.taken (by decide) 0xF9 (run.trans (congrArg State.done (if_pos bad)))) fun good => ?_
  rw [if_neg good] at run
  refine lands_ite (fun bad => refuse_lands runs.taken (by decide) 0xFA (run.trans (congrArg State.done (if_pos bad)))) fun good => ?_
  rw [if_neg good] at run
  exact unitFirm_lands runs.taken unit (fun f => { f with loftSt := if at_ = 0 then .verified else .scheduled, activateAt := at_ }) [] run

/-! ### The start of new firmware (R607) -/

theorem allStopped_fin (s : State) : (List.range 16).all s.strStopped = false ↔ ∃ str < 16, s.strStopped str = false := by
  rw [← Bool.not_eq_true, List.all_eq_true]
  push Not
  simp only [List.mem_range, ne_eq, Bool.not_eq_true]

theorem loftActivateAt_lands (s : State) :
    let due := s.fw.loftSt = .scheduled ∧ s.fw.activateAt ≤ s.now ∧ s.time.running = true
    (¬ due → exec .loftActivateAt s = .next s) ∧
    (due → s.twin.role = .active → (∃ str < 16, s.strStopped str = false) → Lands (exec .loftActivateAt s) fun e =>
      Only [.hatch, .notif, .par, .faults, .pantry, .fw] s e ∧ e.fw = { s.fw with loftSt := .verified, activateAt := 0 }) ∧
    (due → (s.twin.role = .active → ∀ str < 16, s.strStopped str = true) → s.sys.stage ≠ .inReset → Lands (exec .loftActivateAt s) fun e =>
      e.sys.stage = .inReset ∧ e.sys.cause = 7 ∧ e.fw.boot = .exchange s.mono ∧ e.fw.loft = s.fw.loft ∧ e.fw.active = s.fw.active) := by
  refine ⟨fun early => if_neg early, fun due active runs => ⟨_, (if_pos due).trans (if_pos ⟨active, (allStopped_fin s).2 runs⟩), ?_, ?_⟩,
    fun due stopped out => ⟨_, (if_pos due).trans (if_neg fun h => ?_), ?_⟩⟩
  · exact only_of (attic_keeps (by decide) (note_keeps (by decide) (updFw_keeps (by decide) (.refl _ s))))
  · rw [(attic_keeps (M := 192) (by decide) (.refl _ _)).fw (by decide), (note_keeps (M := 8304) (by decide) (.refl _ _)).fw (by decide), updFw_fw,
      Firm.unschedule, if_pos due.1]
  · obtain ⟨n, small, runs⟩ := (allStopped_fin s).1 h.2
    exact absurd (stopped h.1 n small) (by rw [runs]; decide)
  · have resets : ChipReset 7 (s.updFw fun f => { f with boot := .exchange s.mono }) _ :=
      chipReset_starts (s := s.updFw fun f => { f with boot := .exchange s.mono }) out 7
    obtain ⟨stage, cause, -, -, -⟩ := resets.stage
    have fw := resets.fw
    generalize State.chipReset _ 7 0xFF = e at *
    have kept : (s.updFw fun f => { f with boot := .exchange s.mono }).fw.atReset = { s.fw with boot := .exchange s.mono, sending := none } := rfl
    rw [kept] at fw
    exact ⟨stage, cause, by rw [fw], by rw [fw], by rw [fw]⟩

theorem fwConfirm_waits {s : State} (none : ∀ t, s.fw.boot ≠ .confirm t) : exec .fwConfirm s = .next s ∧ exec .fwConfirmTimeout s = .next s := by
  change execFwConfirm s = _ ∧ execFwConfirmTimeout s = _
  unfold execFwConfirm execFwConfirmTimeout
  cases boot : s.fw.boot with
  | confirm t => exact absurd boot (none t)
  | none => exact ⟨rfl, rfl⟩
  | exchange t => exact ⟨rfl, rfl⟩
  | revert => exact ⟨rfl, rfl⟩

theorem allChecked_iff (s : State) :
    (List.range 8).all (fun b => (s.twin.checkAt.get? b).isSome) = true ↔ ∀ b < 8, (s.twin.checkAt.get? b).isSome = true := by
  rw [List.all_eq_true]
  simp only [List.mem_range]

theorem fwActivated_spec (s : State) (result : Nat) : Keeps 134226160 s (s.fwActivated result) ∧ (s.fwActivated result).fw = { s.fw with result } := by
  refine ⟨fwActivated_keeps (by decide) (.refl _ s), ?_⟩
  rw [State.fwActivated, (attic_keeps (M := 192) (by decide) (.refl _ _)).fw (by decide), (note_keeps (M := 8304) (by decide) (.refl _ _)).fw (by decide),
    updFw_fw]

theorem fwConfirm_lands {s : State} {t : Nat} (boot : s.fw.boot = .confirm t) :
    (s.sys.stage = .serving → (∀ b < 8, (s.twin.checkAt.get? b).isSome = true) → Lands (exec .fwConfirm s) fun e =>
      Only [.hatch, .notif, .par, .faults, .pantry, .fw] s e ∧
      e.fw = { s.fw with boot := .none, result := 1, slot0 := max s.fw.slot0 s.fw.active.version }) ∧
    (s.sys.stage ≠ .serving ∨ (∃ b < 8, s.twin.checkAt.get? b = none) → exec .fwConfirm s = .next s) ∧
    (t + 40000000000 ≤ s.mono → s.sys.stage ≠ .inReset → Lands (exec .fwConfirmTimeout s) fun e =>
      e.sys.stage = .inReset ∧ e.sys.cause = 7 ∧ e.fw.boot = .revert) ∧
    (s.mono < t + 40000000000 → exec .fwConfirmTimeout s = .next s) := by
  have confirm : exec .fwConfirm s = if s.sys.stage = .serving ∧ (List.range 8).all (fun b => (s.twin.checkAt.get? b).isSome) = true then
      ((s.updFw fun f => { f with boot := .none, slot0 := max f.slot0 f.active.version }).fwActivated 1).done else .next s := by
    change execFwConfirm s = _
    unfold execFwConfirm
    rw [boot]
  have timeout : exec .fwConfirmTimeout s = if s.elapsed t (ms 5000) = true then
      ((s.updFw fun f => { f with boot := .revert }).chipReset 7 0xFF).done else .next s := by
    change execFwConfirmTimeout s = _
    unfold execFwConfirmTimeout
    rw [boot]
  refine ⟨fun serves checked => ⟨_, confirm.trans (if_pos ⟨serves, (allChecked_iff s).2 checked⟩), ?_, ?_⟩, fun waits => confirm.trans (if_neg fun h => ?_),
    fun late out => ⟨_, timeout.trans (if_pos (elapsed_of_le late)), ?_⟩, fun early => timeout.trans (if_neg fun h => ?_)⟩
  · exact only_of (fwActivated_keeps (by decide) (updFw_keeps (by decide) (.refl _ s)))
  · rw [(fwActivated_spec _ 1).2, updFw_fw]
  · obtain ⟨serves, checked⟩ := h
    obtain other | ⟨b, small, missing⟩ := waits
    · exact other serves
    · have done := (allChecked_iff s).1 checked b small
      rw [missing] at done
      exact Bool.noConfusion done
  · have resets : ChipReset 7 (s.updFw fun f => { f with boot := .revert }) _ :=
      chipReset_starts (s := s.updFw fun f => { f with boot := .revert }) out 7
    obtain ⟨stage, cause, -, -, -⟩ := resets.stage
    have fw := resets.fw
    generalize State.chipReset _ 7 0xFF = e at *
    refine ⟨stage, cause, ?_⟩
    rw [fw, updFw_fw]
    unfold Firm.atReset Firm.unschedule
    dsimp only
    split <;> rfl
  · have late := of_decide_eq_true h
    exact absurd late (Nat.not_le.2 early)

end Sys2Proof.Machine
end

section
/-!
PROOFS. Endpoint images (R610): EP_IMAGE_STORE and EP_IMAGE_SEND; and O53.
-/

namespace Sys2Proof.Machine

open Host

/-! ### EP_IMAGE_STORE -/

/-- The anti-rollback slots once an image has raised its own. -/
theorem rollback_raised (f : Firm) (id v : Nat) :
    (((if (f.rollback id).isSome then f.slots.map fun x => if x.1 = id then (id, v) else x else f.slots ++ [(id, v)]).find?
      fun x => x.1 == id).map (·.2)) = some v := by
  unfold Firm.rollback
  cases found : f.slots.find? fun x => x.1 == id with
  | none =>
    change ((f.slots ++ [(id, v)]).find? fun x => x.1 == id).map (·.2) = some v
    rw [List.find?_append, found]
    simp
  | some y =>
    change ((f.slots.map fun x => if x.1 = id then (id, v) else x).find? fun x => x.1 == id).map (·.2) = some v
    have kept : ((fun x : Nat × Nat => x.1 == id) ∘ fun x => if x.1 = id then (id, v) else x) = fun x => x.1 == id := by
      funext x
      by_cases own : x.1 = id
      · simp [own]
      · simp [own]
    have own : y.1 = id := by simpa using List.find?_some found
    rw [List.find?_map, kept, found]
    simp [own]

/-- The slot an item is stored in. -/
def storedItem (d : Bytes) : EpSlot where
  valid := true
  image := { mem := Memory.writeN [] 0 d }
  imageId := hdr (fun o k => slice d o k) 24 2
  target := hdr (fun o k => slice d o k) 20 2 % 256
  version := hdr (fun o k => slice d o k) 8 4
  length := d.length

theorem epStore_fw (s : State) (slot : Nat) (d : Bytes) :
    let rd := fun o k => slice d o k
    ((s.epStore slot d).fw.slot.get {} slot).valid = true ∧ ((s.epStore slot d).fw.slot.get {} slot).length = d.length ∧
    ((s.epStore slot d).fw.slot.get {} slot).version = hdr rd 8 4 ∧ ((s.epStore slot d).fw.slot.get {} slot).imageId = hdr rd 24 2 ∧
    (∀ k, k ≠ slot → (s.epStore slot d).fw.slot.get {} k = s.fw.slot.get {} k) ∧
    (s.epStore slot d).fw.rollback (hdr rd 24 2) = some (itemVersion rd) ∧ (s.epStore slot d).fw.sending = s.fw.sending := by
  have item := Tab.get_set s.fw.slot ({} : EpSlot) slot (storedItem d)
  unfold storedItem at item
  unfold State.epStore
  rw [updFw_fw]
  dsimp only
  rw [item]
  exact ⟨rfl, rfl, rfl, rfl, fun k other => Tab.get_set_ne (d := ({} : EpSlot)) _ other _, rollback_raised s.fw _ _, rfl⟩

theorem imageEnd_spec (s : State) : Keeps 134217744 s s.imageEnd ∧ (∀ n, (∀ x, s.fw.sending = some x → x.mb ≠ n) → s.imageEnd.box n = s.box n) ∧
    s.imageEnd.fw = { s.fw with sending := none } := by
  unfold State.imageEnd
  split
  · rename_i x sending
    refine ⟨replyOk_hatch (by decide) (updFw_keeps (by decide) (.refl _ s)), fun n other => reply_box_ne (other x sending).symm _ _, ?_⟩
    exact (replyOk_hatch (M := 16) (by decide) (.refl _ _)).fw (by decide)
  · rename_i idle
    exact ⟨.refl _ s, fun _ _ => rfl, by rw [← idle]⟩

theorem itemFault_congr {s t : State} (fw : t.fw = s.fw) (rd : ItemBytes) (kinds : List Nat) (room : Nat) :
    t.itemFault rd kinds room = s.itemFault rd kinds room := by
  simp only [State.itemFault, State.itemKey, fw]

theorem epImageStore_lands {s : State} {mb : Fin 8} {q : Request} (runs : s.Runs mb 0x1813 q) (may : s.Writes mb 0x18) :
    Lands (exec (.epImageStore mb) s) fun e =>
      let slot := uAt q.payload 0 1
      let off := uAt q.payload 4 4
      let n := uAt q.payload 8 4
      let rd := fun o k => slice (s.mpRead off n) o k
      if 1 < slot ∨ 524288 < n ∨ 0x1C0000 < off + n then Only [.hatch] s e ∧ s.Replies e mb q stBadParam (leBytes 1 5 ++ [0, 0xFF, 0xFF])
      else match s.itemFault rd [2] n with
        | some r => Only [.hatch, .par, .pantry] s e ∧ s.Replies e mb q r.1 (leBytes 1 r.2 ++ [0, 0xFF, 0xFF])
        | none =>
          if s.fw.tooOld rd = true then Only [.hatch, .par, .pantry] s e ∧ s.Replies e mb q stRefused (leBytes 1 0xF4 ++ [0, 0xFF, 0xFF])
          else OnlyWrite [.par, .pantry, .fw] s e ∧ ((∀ x, s.fw.sending = some x → x.mb ≠ mb) → s.Answers e mb q []) ∧
            (s.fw.sending = none → s.Accepts e mb q []) ∧
            (e.fw.slot.get {} slot).valid = true ∧ (e.fw.slot.get {} slot).length = n ∧
            (e.fw.slot.get {} slot).version = hdr rd 8 4 ∧ (e.fw.slot.get {} slot).imageId = hdr rd 24 2 ∧
            (∀ k, k ≠ slot → e.fw.slot.get {} k = s.fw.slot.get {} k) ∧ e.fw.rollback (hdr rd 24 2) = some (itemVersion rd) ∧
            (∀ x, s.fw.sending = some x → e.fw.sending = if x.slot = slot then none else some x) := by
  have run : exec (.epImageStore mb) s = State.done (
      if 1 < uAt q.payload 0 1 ∨ 524288 < uAt q.payload 8 4 ∨ spanOk (uAt q.payload 4 4) (uAt q.payload 8 4) = false then s.refuse mb stBadParam 0x05
      else (s.mpTook (uAt q.payload 4 4) (uAt q.payload 8 4)).imageStore mb q (s.mpRead (uAt q.payload 4 4) (uAt q.payload 8 4))) :=
    congrArg State.done (withWrite_runs runs may _)
  unfold State.imageStore at run
  dsimp only at run ⊢
  generalize uAt q.payload 0 1 = slot at *
  generalize uAt q.payload 4 4 = off at *
  generalize uAt q.payload 8 4 = n at *
  have same : (1 < slot ∨ 524288 < n ∨ spanOk off n = false) ↔ (1 < slot ∨ 524288 < n ∨ 0x1C0000 < off + n) := by
    simp only [spanOk, decide_eq_false_iff_not, not_le]
  refine lands_ite (fun bad => refuse_lands runs.taken (by decide) 0x05 (run.trans (congrArg State.done (if_pos (same.2 bad))))) fun good => ?_
  rw [if_neg (mt same.1 good)] at run
  obtain ⟨took, beside⟩ := mpTook_beside s off n
  have length := length_mpRead s off n
  rw [length] at run
  generalize s.mpRead off n = d at *
  generalize s.mpTook off n = u at *
  have fw := took.fw (by decide)
  have part : Only [.par, .pantry] s u := only_of took
  rw [itemFault_congr fw] at run
  cases fault : s.itemFault (fun o k => slice d o k) [2] n with
  | some r =>
    rw [fault] at run
    obtain ⟨only, replies⟩ := reply_ends runs.taken part beside.hatch beside.twin (itemFault_status fault) (reasonPayload r.2 0xFFFF)
    exact ⟨_, run, only, replies⟩
  | none =>
    rw [fault, fw] at run
    dsimp only at run ⊢
    refine lands_ite (fun old => ?_) fun fresh => ?_
    · rw [if_pos old] at run
      obtain ⟨only, replies⟩ := reply_ends runs.taken part beside.hatch beside.twin (status := stRefused) (by decide) (reasonPayload 0xF4 0xFFFF)
      exact ⟨_, run, only, replies⟩
    · rw [if_neg fresh] at run
      obtain ⟨ended, boxes, idle⟩ := imageEnd_spec u
      rw [fw] at boxes idle
      generalize hw : (if (match s.fw.sending with
        | some x => x.slot == slot
        | none => false) then u.imageEnd else u) = w at run
      have either : w = u.imageEnd ∨ w = u := by
        rw [← hw]
        exact (ite_eq_or_eq ..)
      have keeps : Keeps 134217744 u w := by
        rw [← hw]
        exact keeps_ite (fun _ => ended) fun _ => .refl _ u
      have other : (∀ x, s.fw.sending = some x → x.mb ≠ mb) → w.box mb = s.box mb := fun h => by
        rw [← beside.box mb]
        obtain own | own := either
        · rw [own]
          exact boxes mb h
        · rw [own]
      have sends : ∀ x, s.fw.sending = some x → w.fw.sending = if x.slot = slot then none else some x := fun x sending => by
        rw [sending] at hw
        dsimp only at hw
        rw [← hw]
        by_cases own : x.slot = slot
        · rw [if_pos (beq_iff_eq.2 own), if_pos own, idle]
        · rw [if_neg (mt beq_iff_eq.1 own), if_neg own, fw]
          exact sending
      have slots : w.fw.slot = s.fw.slot := by
        obtain own | own := either
        · rw [own, idle]
        · rw [own, fw]
      have calm : s.fw.sending = none → w = u := fun none => by
        rw [none] at hw
        exact hw.symm
      have stored : Keeps 134217728 w (w.epStore slot d) := epStore_keeps (by decide) (.refl _ w)
      obtain ⟨valid, len, version, imageId, others, rollback, sending⟩ := epStore_fw w slot d
      have eff : (w.epStore slot d).par.eff = s.par.eff := by
        rw [stored.par (by decide), keeps.par (by decide)]
        exact beside.eff
      have twin : (w.epStore slot d).twin = s.twin := by
        rw [stored.twin (by decide), keeps.twin (by decide)]
        exact beside.twin
      have effect : Only [.hatch, .par, .pantry, .fw] s (w.epStore slot d) :=
        only_of ((took.weaken (by decide)).trans ((keeps.weaken (by decide)).trans (stored.weaken (by decide))))
      have last : ((w.epStore slot d).finishWrite mb q [] d).fw = (w.epStore slot d).fw := (finishWrite_keeps (M := 67664) (by decide) (.refl _ _)).fw (by decide)
      refine ⟨_, run, (effect.finishWrite (hasStandby_congr twin eff) mb q [] d).of_hatch, fun free => ?_, fun none => ?_, ?_⟩
      · have held : ((w.epStore slot d).box mb).taken = some q := by
          have same : (w.epStore slot d).box mb = s.box mb := (congrArg (fun h : Hatch => h.boxes.get {} mb) (stored.hatch (by decide))).trans (other free)
          rw [same]
          exact runs.taken
        exact finishWrite_answers held twin eff [] d
      · have first := calm none
        subst first
        have alone : Only [.par, .pantry, .fw] s (w.epStore slot d) := only_of ((took.weaken (by decide)).trans (stored.weaken (by decide)))
        exact (write_ends runs.taken alone ((stored.hatch (by decide)).trans beside.hatch) twin ((stored.mono (by decide)).trans beside.mono) eff [] d).2
      · rw [last]
        exact ⟨valid, len.trans length, version, imageId, fun k ne => (others k ne).trans (by rw [slots]), rollback, fun x h => sending.trans (sends x h)⟩

/-! ### EP_IMAGE_SEND -/

/-- A send in progress. -/
def State.withSend (s : State) (x : ImageSend) : State := s.updFw fun f => { f with sending := some x }

/-- A send that has ended. -/
def State.sendEnds (s : State) (mb done : Nat) : State := (s.updFw fun f => { f with sending := none }).replyOk mb (leBytes 1 done ++ [0, 0, 0])

theorem imageNext_withSend (s : State) (x : ImageSend) (k : Nat) : (s.withSend x).imageNext (k + 1) =
    match x.lanes with
    | [] => s.sendEnds x.mb x.done
    | l :: r =>
      let e := s.fw.slot.get {} x.slot
      if (s.lane l).st.working = false then (s.withSend { x with lanes := r, next := 0 }).imageNext k
      else if e.chunks ≤ x.next then (s.withSend { x with lanes := r, next := 0, done := x.done + 1 }).imageNext k
      else ((s.withSend x).queueBlock l 0x09 (pf 80 e.imageId + pf 64 x.next + leNat (e.image.mem.readN (8 * x.next) 8).reverse)).updFw fun f =>
        { f with sending := some { x with next := x.next + 1 } } := by
  rw [State.imageNext]
  rfl

/-- Lanes that do not work are passed, and so are those that an item without a chunk is sent to. -/
theorem imageNext_passes (s : State) {mb slot done k : Nat} {lanes : List Nat} (fuel : lanes.length < k)
    (pass : (lanes.filter fun l => (s.lane l).st.working) = [] ∨ (s.fw.slot.get {} slot).chunks = 0) :
    (s.withSend { mb, slot, lanes, done }).imageNext k = s.sendEnds mb (done + (lanes.filter fun l => (s.lane l).st.working).length) := by
  induction lanes generalizing k done with
  | nil =>
    obtain ⟨k, rfl⟩ := Nat.exists_eq_succ_of_ne_zero (Nat.ne_of_gt fuel)
    exact imageNext_withSend ..
  | cons l r ih =>
    obtain ⟨k, rfl⟩ := Nat.exists_eq_succ_of_ne_zero (Nat.ne_of_gt (Nat.zero_lt_of_lt fuel))
    have less : r.length < k := Nat.lt_of_succ_lt_succ fuel
    rw [Nat.succ_eq_add_one, imageNext_withSend]
    dsimp only
    cases works : (s.lane l).st.working with
    | false =>
      have skip : ((l :: r).filter fun l => (s.lane l).st.working) = r.filter fun l => (s.lane l).st.working :=
        List.filter_cons_of_neg (ne_true_of_eq_false works)
      rw [skip] at pass ⊢
      rw [if_pos rfl]
      exact ih less pass
    | true =>
      have keep : ((l :: r).filter fun l => (s.lane l).st.working) = l :: r.filter fun l => (s.lane l).st.working := List.filter_cons_of_pos works
      rw [keep] at pass ⊢
      have empty := pass.resolve_left (List.cons_ne_nil _ _)
      rw [if_neg (by decide), if_pos (by rw [empty]), ih less (.inr empty), List.length_cons]
      congr 1
      omega

/-- The first chunk goes to the first lane that works. -/
theorem imageNext_queues (s : State) {mb slot k : Nat} {lanes : List Nat} (fuel : lanes.length < k) (chunks : (s.fw.slot.get {} slot).chunks ≠ 0)
    {l : Nat} {rest : List Nat} (first : lanes.dropWhile (fun l => !(s.lane l).st.working) = l :: rest) :
    ∃ p, (s.withSend { mb, slot, lanes }).imageNext k = ((s.withSend { mb, slot, lanes := l :: rest }).queueBlock l 0x09 p).updFw fun f =>
      { f with sending := some { mb, slot, lanes := l :: rest, next := 1 } } := by
  induction lanes generalizing k with
  | nil => exact nomatch first
  | cons m r ih =>
    obtain ⟨k, rfl⟩ := Nat.exists_eq_succ_of_ne_zero (Nat.ne_of_gt (Nat.zero_lt_of_lt fuel))
    have less : r.length < k := Nat.lt_of_succ_lt_succ fuel
    rw [Nat.succ_eq_add_one, imageNext_withSend]
    dsimp only
    cases works : (s.lane m).st.working with
    | false =>
      rw [List.dropWhile_cons_of_pos (by rw [works]; rfl)] at first
      rw [if_pos rfl]
      exact ih less first
    | true =>
      rw [List.dropWhile_cons_of_neg (by rw [works]; decide)] at first
      obtain ⟨rfl, rfl⟩ := List.cons.inj first
      rw [if_neg (by decide), if_neg (by omega)]
      exact ⟨_, rfl⟩

theorem length_imageLanes (s : State) (slot first count : Nat) : (s.imageLanes slot first count).length ≤ count := by
  rw [State.imageLanes]
  refine (List.length_filter_le ..).trans ?_
  rw [List.length_map, List.length_range]

theorem mem_imageLanes {s : State} {slot first count l : Nat} (mem : l ∈ s.imageLanes slot first count) : l < first + count := by
  rw [State.imageLanes, List.mem_filter, List.mem_map] at mem
  obtain ⟨⟨k, small, rfl⟩, -⟩ := mem
  have := List.mem_range.1 small
  omega

theorem epImageSend_lands {s : State} {mb : Fin 8} {q : Request} (runs : s.Runs mb 0x1814 q) : Lands (exec (.epImageSend mb) s) fun e =>
    let slot := uAt q.payload 0 1
    let first := uAt q.payload 1 1
    let count := uAt q.payload 2 1
    let works := (s.imageLanes slot first count).filter fun l => (s.lane l).st.working
    if 1 < slot ∨ 127 < first ∨ 128 < first + count then Only [.hatch] s e ∧ s.Replies e mb q stBadParam (leBytes 1 5 ++ [0, 0xFF, 0xFF])
    else if s.fw.sending.isSome = true then Only [.hatch, .par] s e ∧ s.Replies e mb q stBusy (leBytes 4 1000)
    else if works = [] ∨ (s.fw.slot.get {} slot).chunks = 0 then Only [.hatch, .fw] s e ∧ e.fw = s.fw ∧
      s.Replies e mb q stOk (leBytes 1 works.length ++ [0, 0, 0])
    else Only [.hatch, .links, .fw] s e ∧ (e.box mb).state = .active ∧ (e.box mb).waiting = .epImage ∧ (e.box mb).taken = some q ∧
      ∃ l rest, (s.imageLanes slot first count).dropWhile (fun l => !(s.lane l).st.working) = l :: rest ∧
        e.fw = { s.fw with sending := some { mb, slot, lanes := l :: rest, next := 1 } } ∧
        (e.lnk l).queue.length = (s.lnk l).queue.length + 1 ∧ s.OneLink e l := by
  have run : exec (.epImageSend mb) s = State.done (
      if 1 < uAt q.payload 0 1 ∨ 127 < uAt q.payload 1 1 ∨ 128 < uAt q.payload 1 1 + uAt q.payload 2 1 then s.refuse mb stBadParam 0x05
      else if s.fw.sending.isSome then s.busy mb 1000
      else ((s.waitFor mb .epImage).withSend
        { mb, slot := uAt q.payload 0 1, lanes := s.imageLanes (uAt q.payload 0 1) (uAt q.payload 1 1) (uAt q.payload 2 1) }).imageNext 200) := congrArg State.done (withCmd_runs runs _ _)
  dsimp only
  generalize uAt q.payload 0 1 = slot at *
  generalize uAt q.payload 1 1 = first at *
  generalize uAt q.payload 2 1 = count at *
  refine lands_ite (fun bad => refuse_lands runs.taken (by decide) 0x05 (run.trans (congrArg State.done (if_pos bad)))) fun good => ?_
  rw [if_neg good] at run
  refine lands_ite (fun busy => ?_) fun idle => ?_
  · rw [if_pos busy] at run
    exact ⟨_, run, only_of (busy_keeps (by decide) (.refl _ s)), reply_replies runs.taken stBusy _⟩
  · rw [if_neg idle] at run
    have none : s.fw.sending = none := Option.not_isSome_iff_eq_none.1 idle
    have waits : Keeps 16 s (s.waitFor mb .epImage) := waitFor_keeps (by decide) (.refl _ s)
    have box : (s.waitFor mb .epImage).box mb = { s.box mb with waiting := .epImage } := box_modBox ..
    have others : ∀ n : Nat, n ≠ mb → (s.waitFor mb .epImage).box n = s.box n := fun n ne => box_modBox_ne s ne _
    have fw := waits.fw (by decide)
    have lane : ∀ l, (s.waitFor mb .epImage).lane l = s.lane l := fun l => waits.lane (by decide) l
    generalize s.waitFor mb .epImage = u at *
    have length := length_imageLanes s slot first count
    have small : ∀ l ∈ s.imageLanes slot first count, l < 131 := fun l mem => by have := mem_imageLanes mem; omega
    generalize s.imageLanes slot first count = lanes at *
    have fuel : lanes.length < 200 := by omega
    refine lands_ite (fun pass => ?_) fun sends => ?_
    · have same := imageNext_passes u (mb := mb) (slot := slot) (done := 0) fuel (by simp only [lane, fw]; exact pass)
      simp only [lane, Nat.zero_add] at same
      rw [same] at run
      have replied : Keeps 16 (u.updFw fun f => { f with sending := Option.none }) (u.sendEnds mb (lanes.filter fun l => (s.lane l).st.working).length) :=
        replyOk_hatch (by decide) (.refl _ _)
      refine ⟨_, run, only_of ((waits.weaken (by decide)).trans (replyOk_hatch (by decide) (updFw_keeps (by decide) (.refl _ u)))), ?_, ?_⟩
      · rw [replied.fw (by decide), updFw_fw, fw, ← none]
      · have taken : ((u.updFw fun f => { f with sending := Option.none }).box mb).taken = some q := by
          change (u.box mb).taken = some q
          rw [box]
          exact runs.taken
        obtain ⟨done, out, reply, kept, request, elsewhere⟩ := reply_replies taken stOk (leBytes 1 (lanes.filter fun l => (s.lane l).st.working).length ++ [0, 0, 0])
        have epoch : (u.updFw fun f => { f with sending := Option.none }).twin.epoch = s.twin.epoch := by rw [updFw_twin, waits.twin (by decide)]
        rw [epoch] at reply kept
        exact ⟨done, out, reply, kept, request.trans ((congrArg Mailbox.request box :)), fun n ne => (elsewhere n ne).trans (others n ne)⟩
    · have nonempty : lanes.dropWhile (fun l => !(s.lane l).st.working) ≠ [] := fun empty => sends (.inl ?_)
      · obtain ⟨l, rest, drop⟩ := List.exists_cons_of_ne_nil nonempty
        obtain ⟨p, same⟩ := imageNext_queues u (mb := mb) (slot := slot) (rest := rest) (l := l) fuel
          (by rw [fw]; exact fun zero => sends (.inr zero)) (by simp only [lane]; exact drop)
        rw [same] at run
        have mem : l ∈ lanes := (List.dropWhile_sublist _).subset (drop ▸ List.mem_cons_self)
        have queued : Keeps 65536 (u.withSend { mb, slot, lanes := l :: rest }) ((u.withSend { mb, slot, lanes := l :: rest }).queueBlock l 0x09 p) :=
          queueBlock_keeps (by decide) (.refl _ _)
        have own := queueBlock_lnk_own (u.withSend { mb, slot, lanes := l :: rest }) (small l mem) 0x09 p
        have one := queueBlock_oneLink (u.withSend { mb, slot, lanes := l :: rest }) (small l mem) 0x09 p
        have links : ∀ m, (u.withSend { mb, slot, lanes := l :: rest }).lnk m = s.lnk m := waits.lnk (by decide)
        have boxes : (u.withSend { mb, slot, lanes := l :: rest }).box mb = { s.box mb with waiting := .epImage } := box
        have part : Keeps 134283280 s (u.withSend { mb, slot, lanes := l :: rest }) := updFw_keeps (by decide) (waits.weaken (by decide))
        have firm : (u.withSend { mb, slot, lanes := l :: rest }).fw = { s.fw with sending := some { mb, slot, lanes := l :: rest } } := by
          rw [State.withSend, updFw_fw, fw]
        generalize u.withSend { mb, slot, lanes := l :: rest } = v at *
        have held : (v.queueBlock l 0x09 p).box mb = { s.box mb with waiting := .epImage } :=
          (congrArg (fun h : Hatch => h.boxes.get {} mb) (queued.hatch (by decide))).trans boxes
        have firm' := (queued.fw (by decide)).trans firm
        refine ⟨_, run, only_of (updFw_keeps (by decide) (part.trans (queued.weaken (by decide)))), ?_, ?_, ?_, l, rest, drop, ?_, ?_, fun m other => ?_⟩
        · exact (congrArg Mailbox.state held).trans runs.active
        · exact congrArg Mailbox.waiting held
        · exact (congrArg Mailbox.taken held).trans runs.taken
        · rw [updFw_fw, firm']
        · change ((v.queueBlock l 0x09 p).lnk l).queue.length = _
          rw [own, links, List.length_append]
          rfl
        · exact (one m other).trans (links m)
      · rw [List.dropWhile_eq_nil_iff] at empty
        rw [List.filter_eq_nil_iff]
        intro l mem works
        have passed := empty l mem
        rw [works] at passed
        exact Bool.noConfusion passed

theorem Lands.mono {o : Outcome State Fault Refusal} {P Q : State → Prop} (h : Lands o P) (f : ∀ e, P e → Q e) : Lands o Q := by
  obtain ⟨e, run, holds⟩ := h
  exact ⟨e, run, f e holds⟩

/-- Settles O53. -/
theorem loftAndImages : Obligations.LoftAndImages := by
  unfold Obligations.LoftAndImages
  intro s
  refine ⟨fun mb q => ⟨loftWrite_lands, ?_, ?_, ?_, ?_⟩, loftActivateAt_lands s, fwConfirm_waits, fun t => fwConfirm_lands⟩
  · refine fun runs => (loftVerify_lands runs).mono fun e => ite_imp .rfl (fun _ => id) fun _ => ite_imp .rfl (fun _ => id) fun _ => ?_
    generalize s.loftFault = fault
    cases fault with
    | none => exact id
    | some r => exact id
  · exact loftSchedule_lands
  · refine fun runs may => (epImageStore_lands runs may).mono fun e => ite_imp .rfl (fun _ => id) fun _ => ?_
    generalize s.itemFault _ _ _ = fault
    cases fault with
    | none => exact id
    | some r => exact id
  · exact epImageSend_lands

end Sys2Proof.Machine
end

section
/-!
PROOFS. The owner lock (R616), the life-cycle (R617, R618) and the attic log (R619).
-/

namespace Sys2Proof.Machine

open Host

/-! ### OWNER_LOCK (R616) -/

/-- A token that does not verify: the challenge is drawn again, and that is all. -/
theorem drawn_lands {s : State} {mb : Nat} {q : Request} (taken : (s.box mb).taken = some q) {o : Outcome State Fault Refusal}
    (run : o = (s.freshChallenge.refuse mb stBadParam 0xFE).done) : Lands o fun e =>
      Only [.freeCount, .hatch, .fw] s e ∧ e.fw = { s.fw with challenge := s.freeVal } ∧ s.Replies e mb q stBadParam [0xFE, 0, 0xFF, 0xFF] := by
  have begun : Keeps 134217732 s s.freshChallenge := freshChallenge_keeps (by decide) (.refl _ s)
  have fresh : s.freshChallenge.fw = { s.fw with challenge := s.freeVal } := rfl
  generalize s.freshChallenge = u at *
  refine ⟨_, run, only_of (refuse_hatch (by decide) (by decide) (begun.weaken (by decide))), ?_, ?_⟩
  · rw [(refuse_hatch (M := 16) (by decide) (by decide) (.refl _ u)).fw (by decide), fresh]
  · exact (reply_ends taken (only_of begun : Only [.freeCount, .fw] s u) (begun.hatch (by decide)) (begun.twin (by decide)) (by decide) (reasonPayload 0xFE 0xFFFF)).2

theorem ownerLock_lands {s : State} {mb : Fin 8} {q : Request} (runs : s.Runs mb 0x1816 q) (may : s.Writes mb 0x18) :
    Lands (exec (.ownerLock mb) s) fun e =>
      if uAt q.payload 0 1 = 1 then OnlyWrite [.fw] s e ∧ e.fw = { s.fw with locked := true } ∧ s.Accepts e mb q []
      else if uAt q.payload 0 1 = 2 then
        if s.tokenOk s.fw.ownerKey 0x1816 [2] (slice q.payload 4 64) = true then OnlyWrite [.freeCount, .fw] s e ∧
          e.fw = { s.fw with locked := false, challenge := s.freeVal } ∧ s.Accepts e mb q []
        else Only [.freeCount, .hatch, .fw] s e ∧ e.fw = { s.fw with challenge := s.freeVal } ∧
          s.Replies e mb q stBadParam [0xFE, 0, 0xFF, 0xFF]
      else Only [.hatch] s e ∧ s.Replies e mb q stBadParam [5, 0, 0xFF, 0xFF] := by
  have run : exec (.ownerLock mb) s = State.done (
      if uAt q.payload 0 1 = 1 then (s.lockSet true).finishWrite mb q []
      else if uAt q.payload 0 1 = 2 then
        if s.tokenOk s.fw.ownerKey 0x1816 [2] (slice q.payload 4 64) then (s.freshChallenge.lockSet false).finishWrite mb q []
        else s.freshChallenge.refuse mb stBadParam 0xFE
      else s.refuse mb stBadParam 0x05) := congrArg State.done (withWrite_runs runs may _)
  generalize uAt q.payload 0 1 = code at *
  refine lands_ite (fun lock => ?_) fun other => ?_
  · rw [if_pos lock] at run
    have put : Keeps 134217728 s (s.lockSet true) := updFw_keeps (by decide) (.refl _ s)
    obtain ⟨only, accepts⟩ := write_ends (q := q) runs.taken (only_of put : Only [.fw] s _) (put.hatch (by decide)) (put.twin (by decide)) (put.mono (by decide))
      (congrArg Params.eff (put.par (by decide))) [] []
    exact ⟨_, run, only, (finishWrite_keeps (M := 67664) (by decide) (.refl _ _)).fw (by decide), accepts⟩
  rw [if_neg other] at run
  refine lands_ite (fun release => ?_) fun bad => refuse_lands runs.taken (by decide) 0x05 (run.trans (congrArg State.done (if_neg bad)))
  rw [if_pos release] at run
  refine lands_ite (fun verified => ?_) fun unverified => drawn_lands runs.taken (run.trans (congrArg State.done (if_neg unverified)))
  rw [if_pos verified] at run
  have put : Keeps 134217732 s (s.freshChallenge.lockSet false) := updFw_keeps (by decide) (freshChallenge_keeps (by decide) (.refl _ s))
  have fw : (s.freshChallenge.lockSet false).fw = { s.fw with locked := false, challenge := s.freeVal } := rfl
  generalize s.freshChallenge.lockSet false = u at *
  obtain ⟨only, accepts⟩ := write_ends (q := q) runs.taken (only_of put : Only [.freeCount, .fw] s u) (put.hatch (by decide)) (put.twin (by decide))
    (put.mono (by decide)) (congrArg Params.eff (put.par (by decide))) [] []
  exact ⟨_, run, only, ((finishWrite_keeps (M := 67664) (by decide) (.refl _ u)).fw (by decide)).trans fw, accepts⟩

/-! ### A transition of the life-cycle (R618) -/

/-- The wipe has begun and the word is written. -/
def State.lcMarked (s : State) (new : LcState) : State := (s.wipe 3).updFw fun f => { f.unschedule with lc := new }

/-- The debug port closes: in FIELD whatever opened it, else an opening by token. -/
def State.lcShut (s : State) (new : LcState) : State := if new = .field then s.updSys Sys.shut else s.dbgClose

theorem lcTransition_eq (s : State) (new : LcState) (arg : Bytes) : s.lcTransition new arg =
    ((((s.lcMarked new).lcEffects s.fw.lc new arg).lcShut new).attic 4 0 0x1803 (leBytes 1 s.fw.lc.code ++ leBytes 1 new.code)).note 0x0A 0x1803
      (leBytes 1 s.fw.lc.code ++ leBytes 1 new.code) := rfl

theorem lcMarked_spec (s : State) (new : LcState) : Keeps 134225920 s (s.lcMarked new) ∧ (s.lcMarked new).pantry.wiping = some (3, s.mono) ∧
    (s.lcMarked new).pantry.linkKeys = [] ∧ (s.lcMarked new).fw = { s.fw.unschedule with lc := new } :=
  ⟨updFw_keeps (by decide) (wipe_keeps (by decide) (.refl _ s)), rfl, rfl, rfl⟩

theorem lcShut_spec (s : State) (new : LcState) : Keeps 8560 s (s.lcShut new) ∧ (s.lcShut new).sys.opening = none ∧
    (s.lcShut new).pantry.wiping = s.pantry.wiping ∧ (s.lcShut new).pantry.linkKeys = s.pantry.linkKeys ∧ ∀ n, (s.lcShut new).box n = s.box n := by
  unfold State.lcShut
  split
  · exact ⟨updSys_keeps (by decide) (.refl _ s), rfl, rfl, rfl, fun _ => rfl⟩
  · refine ⟨dbgClose_keeps (by decide) (.refl _ s), ?_⟩
    cases open_ : s.sys.opening with
    | none =>
      rw [dbgClose_none open_]
      exact ⟨open_, rfl, rfl, fun _ => rfl⟩
    | some o =>
      refine ⟨(dbgClose_shut open_).1, ?_, ?_, dbgClose_boxes s⟩
      · obtain ⟨⟨mem, awake, pantry⟩, -⟩ := note_pantry (s.updSys Sys.shut) 0x0A 0x1A02 (leBytes 1 o.1) false
        rw [dbgClose_some open_, pantry]
        rfl
      · rw [dbgClose_some open_, note_linkKeys]
        rfl

/-- What a transition makes of the firmware and the battery domain. -/
structure LcMoved (s e : State) (new : LcState) (arg : Bytes) : Prop where
  /-- The word. -/
  lc : e.fw.lc = new
  /-- The challenge. -/
  challenge : e.fw.challenge = s.fw.challenge
  /-- A FACTORY unit's keys. -/
  factory : s.fw.lc = .factory → e.fw.ownerKey = some arg ∧ e.fw.keyState = .new ∧ e.fw.keyGen = (s.fw.keyGen + 1) % 65536 ∧
    e.fw.locked = s.fw.locked
  /-- The keys of one that is returned. -/
  returned : s.fw.lc ≠ .factory → new = .returned → e.bat.mramKey = 0 ∧ e.fw.signKey = none ∧ e.fw.ownerKey = none ∧ e.fw.locked = false
  /-- Any other. -/
  kept : s.fw.lc ≠ .factory → new ≠ .returned → e.fw.ownerKey = s.fw.ownerKey ∧ e.fw.locked = s.fw.locked ∧ e.bat = s.bat

theorem unschedule_keys (f : Firm) : f.unschedule.challenge = f.challenge ∧ f.unschedule.ownerKey = f.ownerKey ∧ f.unschedule.locked = f.locked ∧
    f.unschedule.keyGen = f.keyGen := by
  unfold Firm.unschedule
  split <;> exact ⟨rfl, rfl, rfl, rfl⟩

theorem lcEffects_factory (s : State) (new : LcState) (arg : Bytes) : (s.lcEffects .factory new arg).fw =
    { s.fw with ownerKey := some arg, signKey := (s.lcEffects .factory new arg).fw.signKey, kaKey := (s.lcEffects .factory new arg).fw.kaKey,
                keyState := .new, keyGen := (s.fw.keyGen + 1) % 65536 } := rfl

theorem lcEffects_returned (s : State) {old : LcState} (other : old ≠ .factory) (arg : Bytes) : s.lcEffects old .returned arg =
    s.zeroise.updFw fun f => { f with ownerKey := none, locked := false } := (if_neg other).trans (if_pos rfl)

theorem lcEffects_other (s : State) {old new : LcState} (other : old ≠ .factory) (stays : new ≠ .returned) (arg : Bytes) :
    s.lcEffects old new arg = s := (if_neg other).trans (if_neg stays)

theorem lcEffects_moved (s : State) (new : LcState) (arg : Bytes) : LcMoved s ((s.lcMarked new).lcEffects s.fw.lc new arg) new arg := by
  obtain ⟨marked, -, -, fw⟩ := lcMarked_spec s new
  obtain ⟨challenge, ownerKey, locked, keyGen⟩ := unschedule_keys s.fw
  have bat := marked.bat (by decide)
  generalize s.lcMarked new = u at *
  cases first : decide (s.fw.lc = .factory) with
  | true =>
    have first := of_decide_eq_true first
    rw [first]
    have all := lcEffects_factory u new arg
    generalize u.lcEffects .factory new arg = e at *
    refine ⟨by rw [all, fw], by rw [all, fw]; exact challenge, fun _ => ⟨by rw [all], by rw [all], by rw [all, fw]; exact congrArg (fun n => (n + 1) % 65536) keyGen,
      by rw [all, fw]; exact locked⟩, fun no => absurd first no, fun no => absurd first no⟩
  | false =>
    have other := of_decide_eq_false first
    by_cases gone : new = .returned
    · subst gone
      rw [lcEffects_returned u other]
      refine ⟨?_, ?_, fun h => absurd h other, fun _ _ => ⟨rfl, rfl, rfl, rfl⟩, fun _ no => absurd rfl no⟩
      · exact congrArg Firm.lc fw
      · exact (congrArg Firm.challenge fw).trans challenge
    · rw [lcEffects_other u other gone]
      exact ⟨by rw [fw], by rw [fw]; exact challenge, fun h => absurd h other, fun _ h => absurd h gone,
        fun _ _ => ⟨by rw [fw]; exact ownerKey, by rw [fw]; exact locked, bat⟩⟩

theorem lcTransition_spec (s : State) (new : LcState) (arg : Bytes) : Keeps 201339380 s (s.lcTransition new arg) ∧ LcMoved s (s.lcTransition new arg) new arg ∧
    (s.lcTransition new arg).pantry.wiping = some (3, s.mono) ∧ (s.lcTransition new arg).pantry.linkKeys = [] ∧
    (s.lcTransition new arg).sys.opening = none ∧ ∀ n, (s.lcTransition new arg).box n = s.box n := by
  refine ⟨lcTransition_keeps (by decide) (.refl _ s), ?_⟩
  rw [lcTransition_eq]
  generalize leBytes 1 s.fw.lc.code ++ leBytes 1 new.code = args
  obtain ⟨lc, challenge, factory, returned, kept⟩ := lcEffects_moved s new arg
  obtain ⟨marked, wiping, linkKeys, -⟩ := lcMarked_spec s new
  have effects : Keeps 201330692 (s.lcMarked new) ((s.lcMarked new).lcEffects s.fw.lc new arg) := lcEffects_keeps (by decide) (.refl _ _)
  rw [← effects.pantry (by decide)] at wiping linkKeys
  have boxes : ∀ n, ((s.lcMarked new).lcEffects s.fw.lc new arg).box n = s.box n := fun n =>
    (effects.box (by decide) n).trans (marked.box (by decide) n)
  generalize (s.lcMarked new).lcEffects s.fw.lc new arg = u at *
  obtain ⟨shuts, opening, wiping', linkKeys', boxes'⟩ := lcShut_spec u new
  have fw := shuts.fw (by decide)
  have bat := shuts.bat (by decide)
  generalize u.lcShut new = v at *
  have logged : Keeps 128 v (v.attic 4 0 0x1803 args) := attic_keeps (by decide) (.refl _ v)
  have boxes2 : ∀ n, (v.attic 4 0 0x1803 args).box n = v.box n := fun n => attic_box ..
  rw [← logged.fw (by decide)] at fw
  rw [← logged.bat (by decide)] at bat
  rw [← logged.sys (by decide)] at opening
  rw [← logged.pantry (by decide)] at wiping' linkKeys'
  generalize v.attic 4 0 0x1803 args = w at *
  have noted : Keeps 8304 w (w.note 0x0A 0x1803 args) := note_keeps (by decide) (.refl _ w)
  obtain ⟨⟨mem, awake, pantry⟩, -⟩ := note_pantry w 0x0A 0x1803 args false
  have boxes3 : ∀ n, (w.note 0x0A 0x1803 args).box n = w.box n := fun n => note_box ..
  have fw' := (noted.fw (by decide)).trans fw
  have bat' := (noted.bat (by decide)).trans bat
  rw [← noted.sys (by decide)] at opening
  generalize w.note 0x0A 0x1803 args = e at *
  refine ⟨⟨by rw [fw']; exact lc, by rw [fw']; exact challenge, by rw [fw']; exact factory, by rw [fw', bat']; exact returned, by rw [fw', bat']; exact kept⟩,
    ?_, ?_, opening, fun n => (boxes3 n).trans ((boxes2 n).trans ((boxes' n).trans (boxes n)))⟩
  · rw [pantry]
    exact wiping'.trans wiping
  · rw [pantry]
    exact linkKeys'.trans linkKeys

/-! ### LC_SET (R618, R645) -/

/-- What LC_SET's statement says of a transition. -/
def LcAnswered (s e : State) (mb : Nat) (q : Request) (arg : Bytes) (new : LcState) (challenge : Nat) : Prop :=
  Only [.freeCount, .hatch, .notif, .par, .faults, .sys, .bat, .pantry, .en, .fw] s e ∧ e.fw.lc = new ∧ e.fw.challenge = challenge ∧
  e.pantry.wiping = some (3, s.mono) ∧ e.pantry.linkKeys = [] ∧ e.sys.opening = none ∧ s.Replies e mb q stOk [] ∧
  (s.fw.lc = .factory → e.fw.ownerKey = some arg ∧ e.fw.keyState = .new ∧ e.fw.keyGen = (s.fw.keyGen + 1) % 65536 ∧
    e.fw.locked = s.fw.locked) ∧
  (s.fw.lc ≠ .factory → new = .returned → e.bat.mramKey = 0 ∧ e.fw.signKey = none ∧ e.fw.ownerKey = none ∧ e.fw.locked = false) ∧
  (s.fw.lc ≠ .factory → new ≠ .returned → e.fw.ownerKey = s.fw.ownerKey ∧ e.fw.locked = s.fw.locked ∧ e.bat = s.bat)

/-- What LC_SET's statement says of a token that does not verify. -/
def TokenRefused (s e : State) (mb : Nat) (q : Request) : Prop :=
  Only [.freeCount, .hatch, .fw] s e ∧ e.fw = { s.fw with challenge := s.freeVal } ∧ s.Replies e mb q stBadParam [0xFE, 0, 0xFF, 0xFF]

/-- A transition and its reply, from a state whose challenge may have been drawn again. -/
theorem lcTransition_lands {s u : State} {mb : Nat} {q : Request} (taken : (s.box mb).taken = some q) {c : Nat}
    (begun : Keeps 134217732 s u) (fw : u.fw = { s.fw with challenge := c }) (new : LcState) (arg : Bytes) {o : Outcome State Fault Refusal}
    (run : o = ((u.lcTransition new arg).replyOk mb []).done) : Lands o fun e => LcAnswered s e mb q arg new c := by
  obtain ⟨moves, ⟨lc, challenge, factory, returned, kept⟩, wiping, linkKeys, opening, boxes⟩ := lcTransition_spec u new arg
  have boxes : ∀ n, (u.lcTransition new arg).box n = s.box n := fun n => (boxes n).trans (begun.box (by decide) n)
  have bat := begun.bat (by decide)
  rw [fw] at challenge factory returned kept
  rw [begun.mono (by decide)] at wiping
  generalize u.lcTransition new arg = v at *
  have last : Keeps 16 v (v.replyOk mb []) := replyOk_hatch (by decide) (.refl _ v)
  have reply : s.Replies (v.replyOk mb []) mb q stOk [] := by
    refine reply_replies_of_held ⟨_, boxes mb⟩ (fun n _ => boxes n) ?_ taken stOk []
    rw [moves.twin (by decide), begun.twin (by decide)]
  have firm := last.fw (by decide)
  have battery := last.bat (by decide)
  refine ⟨_, run, only_of (replyOk_hatch (by decide) ((begun.weaken (by decide)).trans moves)), ?_, ?_, ?_, ?_, ?_, reply, ?_, ?_, ?_⟩
  · rw [firm, lc]
  · rw [firm, challenge]
  · rw [last.pantry (by decide), wiping]
  · rw [last.pantry (by decide), linkKeys]
  · rw [last.sys (by decide), opening]
  · rw [firm]
    exact factory
  · rw [firm, battery]
    exact returned
  · rw [firm, battery, ← bat]
    exact kept

/-- A transition that a token has to sign. -/
theorem lcSigned_lands {s : State} {mb : Nat} {q : Request} (taken : (s.box mb).taken = some q) (key : Option Bytes) (new : LcState) (arg : Bytes)
    {o : Outcome State Fault Refusal} (run : o = State.done (if s.tokenOk key 0x1817 [new.code] arg then
      (s.freshChallenge.lcTransition new arg).replyOk mb [] else s.freshChallenge.refuse mb stBadParam 0xFE)) : Lands o fun e =>
      if s.tokenOk key 0x1817 [new.code] arg = true then LcAnswered s e mb q arg new s.freeVal
      else TokenRefused s e mb q := by
  refine lands_ite (fun verified => ?_) fun unverified => drawn_lands taken (run.trans (congrArg State.done (if_neg unverified)))
  rw [if_pos verified] at run
  exact lcTransition_lands taken (freshChallenge_keeps (by decide) (.refl _ s)) rfl new arg run

theorem lcOf_of_big {n : Nat} (big : 3 < n) : lcOf n = none := by
  unfold lcOf
  split
  · omega
  · omega
  · omega
  · omega
  · rfl

theorem lcSet_lands {s : State} {mb : Fin 8} {q : Request} (runs : s.Runs mb 0x1817 q) : Lands (exec (.lcSet mb) s) fun e =>
    let refused := fun (e : State) (st : Nat) (x : Byte) => Only [.hatch] s e ∧ s.Replies e mb q st [x, 0, 0xFF, 0xFF]
    let code := uAt q.payload 0 1
    let arg := slice q.payload 4 64
    let by_ := fun (new : LcState) (key : Option Bytes) =>
      if s.tokenOk key 0x1817 [code] arg = true then LcAnswered s e mb q arg new s.freeVal
      else TokenRefused s e mb q
    if s.twin.role ≠ .maint ∧ s.twinEn = true then Only [.hatch] s e ∧ s.Turned e mb q stNotInRole [0x8B, 0, 0xFF, 0xFF]
    else if 3 < code then refused e stBadParam 5
    else if ¬ ∀ str < 16, (s.str str).st = .stopped then refused e stRefused 0xFF
    else if s.sys.jtag = .extest then refused e stRefused 0x97
    else match s.fw.lc, code with
      | .factory, 1 => LcAnswered s e mb q arg .provisioned s.fw.challenge
      | .provisioned, 2 => by_ .field s.fw.ownerKey
      | .field, 1 => by_ .provisioned s.fw.ownerKey
      | .provisioned, 3 => by_ .returned s.fw.ownerKey
      | .field, 3 => by_ .returned s.fw.ownerKey
      | .returned, 0 => by_ .factory s.vendorKey
      | _, _ => refused e stRefused 0xFD := by
  have run : exec (.lcSet mb) s = State.done (
      if s.twin.role ≠ .maint ∧ s.twinEn = true then s.generic mb stNotInRole 0x8B
      else
        match lcOf (uAt q.payload 0 1) with
        | none => s.refuse mb stBadParam 0x05
        | some new =>
          if (List.range 16).all s.strStopped = false then s.refuse mb stRefused 0xFF
          else if s.sys.jtag = .extest then s.refuse mb stRefused 0x97
          else
            match lcSigner s.fw.lc new with
            | none => s.refuse mb stRefused 0xFD
            | some 0 => (s.lcTransition new (slice q.payload 4 64)).replyOk mb []
            | some k =>
              if s.tokenOk (if k = 1 then s.fw.ownerKey else s.vendorKey) 0x1817 [new.code] (slice q.payload 4 64) then
                (s.freshChallenge.lcTransition new (slice q.payload 4 64)).replyOk mb []
              else s.freshChallenge.refuse mb stBadParam 0xFE) := congrArg State.done (withCmd_runs runs _ _)
  dsimp only
  generalize uAt q.payload 0 1 = code at *
  generalize slice q.payload 4 64 = arg at *
  refine lands_ite (fun bad => generic_lands runs.taken (by decide) 0x8B (run.trans (congrArg State.done (if_pos bad)))) fun good => ?_
  rw [if_neg good] at run
  refine lands_ite (fun bad => refuse_lands runs.taken (by decide) 0x05 (run.trans (by rw [lcOf_of_big bad]))) fun small => ?_
  have known : ∃ new, lcOf code = some new ∧ new.code = code := by
    interval_cases code
    · exact ⟨_, rfl, rfl⟩
    · exact ⟨_, rfl, rfl⟩
    · exact ⟨_, rfl, rfl⟩
    · exact ⟨_, rfl, rfl⟩
  obtain ⟨new, is, rfl⟩ := known
  rw [is] at run
  dsimp only at run
  refine lands_ite (fun bad => refuse_lands runs.taken (by decide) 0xFF (run.trans (congrArg State.done (if_pos ((allStopped_iff s).2 bad))))) fun good => ?_
  rw [if_neg (mt (allStopped_iff s).1 good)] at run
  refine lands_ite (fun bad => refuse_lands runs.taken (by decide) 0x97 (run.trans (congrArg State.done (if_pos bad)))) fun good => ?_
  rw [if_neg good] at run
  have none_ : ∀ {P : State → Prop}, (∀ e, Only [.hatch] s e ∧ s.Replies e mb q stRefused [0xFD, 0, 0xFF, 0xFF] → P e) →
      lcSigner s.fw.lc new = none → Lands (exec (.lcSet mb) s) P := fun imp no => by
    rw [no] at run
    exact (refuse_lands runs.taken (by decide) 0xFD run).mono imp
  have signed : ∀ k key, lcSigner s.fw.lc new = some (k + 1) → (if k + 1 = 1 then s.fw.ownerKey else s.vendorKey) = key →
      Lands (exec (.lcSet mb) s) fun e => if s.tokenOk key 0x1817 [new.code] arg = true then LcAnswered s e mb q arg new s.freeVal
        else TokenRefused s e mb q := fun k key yes by_ => by
    rw [yes] at run
    rw [← by_]
    exact lcSigned_lands runs.taken _ new arg run
  cases old : s.fw.lc <;> rw [old] at none_ signed run <;> cases new <;> dsimp only [LcState.code] at signed ⊢
  case factory.provisioned => exact lcTransition_lands runs.taken (.refl _ s) rfl _ arg run
  case provisioned.field => exact signed 0 s.fw.ownerKey rfl rfl
  case field.provisioned => exact signed 0 s.fw.ownerKey rfl rfl
  case provisioned.returned => exact signed 0 s.fw.ownerKey rfl rfl
  case field.returned => exact signed 0 s.fw.ownerKey rfl rfl
  case returned.factory => exact signed 1 s.vendorKey rfl rfl
  all_goals exact none_ (fun _ => id) rfl

/-! ### ATTIC_READ (R619) -/

theorem atticRead_lands {s : State} {mb : Fin 8} {q : Request} (runs : s.Runs mb 0x1818 q) : Lands (exec (.atticRead mb) s) fun e =>
    let n := uAt q.payload 4 1
    if n < 1 ∨ 15 < n then Only [.hatch] s e ∧ s.Replies e mb q stBadParam [5, 0, 0xFF, 0xFF]
    else Only [.hatch] s e ∧ s.Replies e mb q stOk
      (match (s.faults.attic.filter fun x => decide (0 ≤ sdiff 32 (uAt x 0 4) (uAt q.payload 0 4))).take n with
        | [] => leBytes 4 s.faults.atticSeq ++ [0, 0, 0, 0]
        | x :: r => leBytes 4 (uAt x 0 4) ++ leBytes 1 (r.length + 1) ++ [0, 0, 0] ++ x ++ r.flatten) := by
  have run : exec (.atticRead mb) s = State.done (
      if inR (uAt q.payload 4 1) 1 15 = false then s.refuse mb stBadParam 0x05
      else
        let l := (s.faults.attic.filter fun x => decide (0 ≤ sdiff 32 (uAt x 0 4) (uAt q.payload 0 4))).take (uAt q.payload 4 1)
        let first := match l with
          | [] => s.faults.atticSeq
          | e :: _ => uAt e 0 4
        s.replyOk mb (leBytes 4 first ++ leBytes 1 l.length ++ [0, 0, 0] ++ l.flatten)) := congrArg State.done (withCmd_runs runs _ _)
  dsimp only at run ⊢
  generalize uAt q.payload 4 1 = n at *
  refine lands_ite (fun bad => refuse_lands runs.taken (by decide) 0x05 (run.trans (congrArg State.done (if_pos ((inR_false ..).2 bad))))) fun good => ?_
  rw [if_neg (mt (inR_false ..).1 good)] at run
  generalize (s.faults.attic.filter fun x => decide (0 ≤ sdiff 32 (uAt x 0 4) (uAt q.payload 0 4))).take n = l at *
  cases l with
  | nil =>
    rw [List.flatten_nil, List.append_nil, List.append_assoc] at run
    exact ⟨_, run, reply_only (by decide) mb _, reply_replies runs.taken stOk _⟩
  | cons x r =>
    rw [List.flatten_cons, ← List.append_assoc] at run
    exact ⟨_, run, reply_only (by decide) mb _, reply_replies runs.taken stOk _⟩

end Sys2Proof.Machine
end

section
/-!
PROOFS. PKG_APPLY (R602, R612 to R615): what a package leaves of the counts of the roll and the loop tables; its refusals; and O54.
-/

namespace Sys2Proof.Machine

open Host

/-! ### ROLL_GEN and LE_GEN through a package -/

/-- The counts of the two tables. -/
def State.gens (s : State) : Nat × Nat := (s.roll.gen, s.le.gen)

theorem Keeps.gens {M : Nat} {s t : State} (h : Keeps M s t) (out : M.testBit 15 = false ∧ M.testBit 20 = false) : t.gens = s.gens := by
  rw [State.gens, h.roll out.1, h.le out.2]
  rfl

theorem loopLoad_gens (s : State) (table first n : Nat) (data : Bytes) : (s.loopLoad table first n data).gens = s.gens := by
  rw [loopLoad_loaded]
  rfl

theorem loadRoll_gens (s : State) (first n : Nat) (data : Bytes) : (s.loadRoll first n data).gens = s.gens := by
  obtain ⟨shadow, loaded, -⟩ := loadRoll_spec s first data n
  rw [loaded]
  rfl

theorem larderPut_gens (s : State) (first n : Nat) (data : Bytes) : (s.larderPut first n data).gens = s.gens := by
  obtain ⟨larder, stored, put, -⟩ := larderPut_spec s first data n
  rw [put]
  rfl

theorem storeRec_gens (s : State) (r : ParamRow) (n : Nat) (v : Bytes) : (s.storeRec r n v).gens = s.gens := by
  unfold State.storeRec
  split
  · rfl
  · rfl
  · exact loopLoad_gens ..
  · exact loopLoad_gens ..
  · rfl
  · rfl
  · split
    · exact (setShadow_keeps (M := 64) (by decide) (.refl _ s)).gens (by decide)
    · split
      · exact (setUndefined_keeps (M := 68) (by decide) (.refl _ s)).gens (by decide)
      · exact (setParam_keeps (M := 64) (by decide) (.refl _ s)).gens (by decide)

theorem paramHook_gens (s : State) (id n : Nat) (old v : Bytes) : (s.paramHook id n old v).gens = s.gens := by
  have other : ∀ {t}, Keeps 95256316 s t → t.gens = s.gens := fun h => h.gens (by decide)
  unfold State.paramHook
  split
  · exact other (modLane_keeps (by decide) (.refl _ s))
  · exact other (keeps_ite (fun _ => coastRefresh_keeps (by decide) (.refl _ s)) fun _ => .refl _ s)
  · exact other (updLinks_keeps (by decide) (.refl _ s))
  · exact other (coastLanes_keeps (by decide) (.refl _ s))
  · exact other (coastRefresh_keeps (by decide) (.refl _ s))
  · exact other (coastRefresh_keeps (by decide) (.refl _ s))
  · exact other (coastLanes_keeps (by decide) (.refl _ s))
  · exact other (coastRefresh_keeps (by decide) (.refl _ s))
  · exact other (ppsSync_keeps (by decide) (.refl _ s))
  · exact other (ppsSync_keeps (by decide) (.refl _ s))
  · exact other (updSta_keeps (by decide) (.refl _ s))
  · exact other (ptpRole_keeps (by decide) (.refl _ s))
  · exact other (keeps_ite (fun _ => spreadEnd_keeps (by decide) (.refl _ s)) fun _ => .refl _ s)
  · rfl
  · rfl
  · exact other (rideEn_keeps (by decide) (.refl _ s))
  · exact other (keeps_ite (fun _ => .refl _ s) fun _ => freshAttempt_keeps (by decide) (freshAttempt_keeps (by decide) (.refl _ s)))
  · exact other (keeps_ite (fun _ => .refl _ s) fun _ => ringEnable_keeps (by decide) (.refl _ s))
  · exact other (bankPowerSet_keeps (by decide) (.refl _ s))
  · exact other (directWrite_keeps (by decide) (.refl _ s))
  · exact other (keeps_ite (fun _ => .refl _ s) fun _ => posInvalid_keeps (by decide) (modPch_keeps (by decide) (.refl _ s)))
  · exact other (keeps_ite (fun _ => .refl _ s) fun _ => cmpCheck_keeps (by decide) (.refl _ s))
  · exact other (enAllLimits_keeps (by decide) (enOff_keeps (by decide) (enConfig_keeps (by decide) (.refl _ s))))
  · exact other (enAllLimits_keeps (by decide) (enConfig_keeps (by decide) (.refl _ s)))
  · exact other (enAllLimits_keeps (by decide) (.refl _ s))
  · exact other (tampLog_keeps (by decide) (updBat_keeps (by decide) (.refl _ s)))
  · rfl

theorem applyAll_gens (s : State) (l : List ParamRec) : (s.applyAll l).gens = s.gens := by
  unfold State.applyAll
  refine foldl_view State.gens (fun s x => ?_) l s
  split
  · unfold State.applyRec
    dsimp only
    rw [paramHook_gens]
    split
    · exact ((saveParam_keeps (M := 64) (by decide) (.refl _ _)).gens (by decide)).trans (storeRec_gens ..)
    · exact storeRec_gens ..
  · rfl

theorem pkgTables_gens (s : State) (l : List PkgRec) (type : Nat) : (s.pkgTables l type).gens = s.gens := by
  unfold State.pkgTables
  refine foldl_view State.gens (fun s x => ?_) _ s
  split
  · exact loadRoll_gens ..
  · exact loopLoad_gens ..
  · exact loopLoad_gens ..
  · exact larderPut_gens ..

/-- One more, past the end of the range from 1 on. -/
def genUp (n : Nat) : Nat := if n = 2 ^ 32 - 1 then 1 else n + 1

theorem foldl_adoptLane_gen (g : Nat → Bytes) (ls : List Nat) (s : State) : (ls.foldl (fun s l => s.adoptLane l (g l)) s).roll.gen = s.roll.gen :=
  foldl_view (fun s => s.roll.gen) (fun s l => by rw [adoptLane_roll]) ls s

theorem adoptWhere_gen (s : State) (goes : State → Nat → Bool) : (s.adoptWhere goes).roll.gen = s.roll.gen := by
  unfold State.adoptWhere
  split
  · rfl
  · exact foldl_adoptLane_gen ..

theorem commitRoll_gens (s : State) (set : Tab Bytes) (since : Nat) : (s.commitRoll set since).gens = (genUp s.roll.gen, s.le.gen) := by
  rw [State.gens, (commitRoll_keeps (M := 1040636) (by decide) (.refl _ s)).le (by decide)]
  congr 1
  unfold State.commitRoll State.adoptStopped
  exact adoptWhere_gen ..

theorem loopCommit_gens (s : State) (since : Nat) : (s.loopCommit since).gens = (s.roll.gen, genUp s.le.gen) := by
  obtain ⟨-, -, -, -, gen, -⟩ := loopCommit_spec s since
  rw [State.gens, gen, (loopCommit_keeps (M := 1048640) (by decide) (.refl _ s)).roll (by decide)]
  rfl

/-- A package counts each table it holds records of. -/
theorem pkgWrite_gens (s : State) (l : List PkgRec) (since : Nat) : (s.pkgWrite l since).gens =
    (if pkgHas l [2] then genUp s.roll.gen else s.roll.gen, if pkgHas l [3, 4] then genUp s.le.gen else s.le.gen) := by
  have first : ((s.applyAll (pkgParams l)).pkgTables l 5).gens = s.gens := (pkgTables_gens ..).trans (applyAll_gens ..)
  unfold State.pkgWrite
  dsimp only
  generalize (s.applyAll (pkgParams l)).pkgTables l 5 = t at *
  have second : (if pkgHas l [2] then (t.pkgTables l 2).commitRoll (t.pkgTables l 2).roll.shadow since else t).gens =
      (if pkgHas l [2] then genUp s.roll.gen else s.roll.gen, s.le.gen) := by
    obtain ⟨roll, le⟩ := Prod.mk.inj first
    split
    · obtain ⟨roll', le'⟩ := Prod.mk.inj (pkgTables_gens t l 2)
      rw [commitRoll_gens, roll', le', roll, le]
    · rw [State.gens, roll, le]
  generalize (if pkgHas l [2] then (t.pkgTables l 2).commitRoll (t.pkgTables l 2).roll.shadow since else t) = u at *
  obtain ⟨roll, le⟩ := Prod.mk.inj second
  split
  · obtain ⟨roll', le'⟩ := Prod.mk.inj ((pkgTables_gens (u.pkgTables l 3) l 4).trans (pkgTables_gens u l 3))
    rw [loopCommit_gens, roll', le', roll, le]
  · rw [State.gens, roll, le]

/-! ### What reading the item leaves (R51, R614) -/

theorem mpTook_keys (s : State) (off n : Nat) : (s.mpTook off n).pantry.wiping = s.pantry.wiping ∧
    (s.mpTook off n).pantry.linkKeys = s.pantry.linkKeys := by
  have view : ∀ {β : Type} (g : Pantry → β), (∀ p a, g { p with awake := a } = g p) → g (s.mpTook off n).pantry = g s.pantry := fun g free => by
    unfold State.mpTook
    refine foldl_view (fun s => g s.pantry) (fun s b => ?_) _ s
    dsimp only
    split
    · rfl
    split
    · rfl
    · unfold State.bankTouch
      split
      · exact free _ _
      · rfl
  exact ⟨view Pantry.wiping fun _ _ => rfl, view Pantry.linkKeys fun _ _ => rfl⟩

theorem rollRetry_congr {s u : State} (mod : u.mod = s.mod) (roll : u.roll = s.roll) : u.rollRetry = s.rollRetry := by
  simp only [State.rollRetry, State.strStopped, State.adoptsWith, State.strOf, State.entry, State.str, mod, roll]
  rfl

theorem pkgLoad_congr {s u : State} (mod : u.mod = s.mod) (en : u.en = s.en) (mono : u.mono = s.mono) (eff : u.par.eff = s.par.eff) :
    u.pkgLoad = s.pkgLoad := by
  simp only [State.pkgLoad, State.enKind, State.pu, State.peff, State.str, State.enPort, State.elapsed, mod, en, mono, eff]
  rfl

theorem unwrapKeys_congr {s u : State} (fw : u.fw = s.fw) (pub : Bytes) (n : Nat) (l : Bytes) : u.unwrapKeys pub n l = s.unwrapKeys pub n l := by
  induction n generalizing l with
  | zero => rfl
  | succ n ih => simp only [State.unwrapKeys, fw, ih]

/-! ### The refusals and the keys -/

/-- An answer of PKG_APPLY after its item has been read, in the attic or not. -/
theorem pkgReply_lands {s u v : State} {mb : Nat} {q : Request} (taken : (s.box mb).taken = some q) (took : Keeps 8256 s u) (logged : Keeps 128 u v)
    {status : Nat} (free : status ≠ stBusy) (reason index : Nat) {o : Outcome State Fault Refusal}
    (run : o = (v.reply mb status (u.pkgReply index reason)).done) : Lands o fun e =>
      Only [.hatch, .par, .faults, .pantry] s e ∧ s.Replies e mb q status (s.pkgReply index reason) := by
  have same : u.pkgReply index reason = s.pkgReply index reason := by simp only [State.pkgReply, took.roll (by decide), took.le (by decide)]
  rw [same] at run
  have part : Keeps 8384 s v := (took.weaken (by decide)).trans (logged.weaken (by decide))
  exact ⟨_, run, reply_ends taken (only_of part : Only [.par, .faults, .pantry] s v) (part.hatch (by decide)) (part.twin (by decide)) free _⟩

theorem pkgLog_keeps' (s : State) (kind status reason : Nat) : Keeps 128 s (s.pkgLog kind status reason) := pkgLog_keeps (by decide) (.refl _ s)

theorem pkgRefuse_lands {s u : State} {mb : Nat} {q : Request} (taken : (s.box mb).taken = some q) (took : Keeps 8256 s u) (kind : Nat)
    {status : Nat} (free : status ≠ stBusy) (reason index : Nat) {o : Outcome State Fault Refusal}
    (run : o = (u.pkgRefuse mb kind status reason index).done) : Lands o fun e =>
      Only [.hatch, .par, .faults, .pantry] s e ∧ s.Replies e mb q status (s.pkgReply index reason) :=
  pkgReply_lands taken took (pkgLog_keeps' u kind status reason) free reason index run

theorem pkgBusy_lands {s u : State} {mb : Nat} {q : Request} (taken : (s.box mb).taken = some q) (took : Keeps 8256 s u) {n : Nat} (retry : Nat)
    (same : retry = n) {o : Outcome State Fault Refusal} (run : o = (u.busy mb retry).done) : Lands o fun e =>
      Only [.hatch, .par, .pantry] s e ∧ s.Replies e mb q stBusy (leBytes 4 n) := by
  subst same
  refine ⟨_, run, only_of (busy_keeps (by decide) (took.weaken (by decide))), ?_⟩
  exact reply_replies_of_held ⟨_, took.box (by decide) mb⟩ (fun n _ => took.box (by decide) n) (by rw [took.twin (by decide)]) taken stBusy _

theorem keysApply_lands {s u : State} {mb : Nat} {q : Request} (taken : (s.box mb).taken = some q) (took : Keeps 8256 s u)
    (keys : u.pantry.wiping = s.pantry.wiping ∧ u.pantry.linkKeys = s.pantry.linkKeys) (d : Bytes) {o : Outcome State Fault Refusal}
    (run : o = (u.keysApply mb d).done) : Lands o fun e =>
      match s.unwrapKeys (slice d 64 64) (itemBodyLen (fun o k => slice d o k) / 32) (d.drop 192) with
      | none => Only [.hatch, .par, .faults, .pantry] s e ∧ s.Replies e mb q stBadParam (s.pkgReply 0xFFFF 0xFC)
      | some keys => Only [.hatch, .par, .faults, .pantry, .fw] s e ∧
          e.fw = { s.fw with linkKeys := keysPut s.fw.linkKeys keys, keyState := .ready } ∧
          e.pantry.linkKeys = (if s.pantry.wiping.isSome = true then s.pantry.linkKeys else keysPut s.pantry.linkKeys keys) ∧
          s.Replies e mb q stOk (s.pkgReply 0xFFFF 0) := by
  unfold State.keysApply at run
  dsimp only at run
  rw [unwrapKeys_congr (took.fw (by decide))] at run
  cases opened : s.unwrapKeys (slice d 64 64) (itemBodyLen (fun o k => slice d o k) / 32) (d.drop 192) with
  | none =>
    rw [opened] at run
    exact pkgRefuse_lands taken took 4 (by decide) 0xFC 0xFFFF run
  | some ks =>
    rw [opened] at run
    dsimp only at run ⊢
    have installed : Keeps 134226048 u (u.installKeys ks) := installKeys_keeps (by decide) (.refl _ u)
    have fw : (u.installKeys ks).fw = { s.fw with linkKeys := keysPut s.fw.linkKeys ks, keyState := .ready } := by
      rw [State.installKeys, (pkgLog_keeps' _ _ _ _).fw (by decide), updPantry_fw, updFw_fw, took.fw (by decide)]
    have pantry : (u.installKeys ks).pantry.linkKeys = if s.pantry.wiping.isSome = true then s.pantry.linkKeys else keysPut s.pantry.linkKeys ks := by
      rw [State.installKeys, (pkgLog_keeps' _ _ _ _).pantry (by decide), updPantry_pantry, updFw_pantry, ← keys.1, ← keys.2]
    have all : Keeps 134226112 s (u.installKeys ks) := (took.weaken (by decide)).trans (installed.weaken (by decide))
    have same : (u.installKeys ks).pkgReply 0xFFFF 0 = s.pkgReply 0xFFFF 0 := by simp only [State.pkgReply, all.roll (by decide), all.le (by decide)]
    rw [same] at run
    generalize u.installKeys ks = v at *
    obtain ⟨only, replies⟩ := reply_ends taken (only_of all : Only [.par, .faults, .pantry, .fw] s v) (all.hatch (by decide)) (all.twin (by decide))
      (by decide : stOk ≠ stBusy) (s.pkgReply 0xFFFF 0)
    have last : Keeps 16 v (v.replyOk mb (s.pkgReply 0xFFFF 0)) := replyOk_hatch (by decide) (.refl _ v)
    exact ⟨_, run, only, (last.fw (by decide)).trans fw, (congrArg Pantry.linkKeys (last.pantry (by decide))).trans pantry, replies⟩

/-! ### PKG_APPLY (R602, R612 to R615) -/

/-- What a package that fails no check leaves (R614). -/
theorem packageApply_lands {s u : State} {mb : Nat} {q : Request} (taken : (s.box mb).taken = some q) (took : Keeps 8256 s u) (beside : s.Beside u)
    (d : Bytes) {o : Outcome State Fault Refusal} (run : o = (u.packageApply mb q d s.adoptSince).done) : Lands o fun e =>
      let rd := fun o k => slice d o k
      let l := pkgRecords (rd 192 (itemBodyLen rd)).length (rd 192 (itemBodyLen rd))
      let refused := fun (st reason index : Nat) => Only [.hatch, .par, .faults, .pantry] s e ∧ s.Replies e mb q st (s.pkgReply index reason)
      if s.pkgLoad = true then refused stRefused 0xF5 0xFFFF
      else if u.pkgSupply = true then refused stRefused 0xF6 0xFFFF
      else if s.fw.locked = true then refused stLocked 9 0xFFFF
      else match u.pkgFailure l.1 l.2 with
        | some k => refused stBadParam 0xFB k
        | none =>
          let t := (((u.pkgWrite l.1 s.adoptSince).updFw fun f => { f with pkg := some (mb, pkgPages l.1) }).pkgLog 3 0 0)
          e = t.finishWrite mb q (t.pkgReply 0xFFFF 0) (d ++ leBytes 8 s.adoptSince) ∧ e.fw = { s.fw with pkg := some (mb, pkgPages l.1) } ∧
          e.roll.gen = (if pkgHas l.1 [2] then genUp s.roll.gen else s.roll.gen) ∧
          e.le.gen = (if pkgHas l.1 [3, 4] then genUp s.le.gen else s.le.gen) := by
  unfold State.packageApply at run
  dsimp only at run ⊢
  generalize pkgRecords _ _ = l at *
  rw [pkgLoad_congr (took.mod (by decide)) (took.en (by decide)) beside.mono beside.eff, took.fw (by decide)] at run
  refine lands_ite (fun bad => pkgRefuse_lands taken took 3 (by decide) 0xF5 0xFFFF (run.trans (congrArg State.done (if_pos bad)))) fun good => ?_
  rw [if_neg good] at run
  refine lands_ite (fun bad => pkgRefuse_lands taken took 3 (by decide) 0xF6 0xFFFF (run.trans (congrArg State.done (if_pos bad)))) fun good => ?_
  rw [if_neg good] at run
  refine lands_ite (fun bad => pkgRefuse_lands taken took 3 (by decide) 0x09 0xFFFF (run.trans (congrArg State.done (if_pos bad)))) fun good => ?_
  rw [if_neg good] at run
  cases failing : u.pkgFailure l.1 l.2 with
  | some k =>
    rw [failing] at run
    exact pkgRefuse_lands taken took 3 (by decide) 0xFB k run
  | none =>
    rw [failing] at run
    dsimp only at run ⊢
    have gens := pkgWrite_gens u l.1 s.adoptSince
    rw [took.roll (by decide), took.le (by decide)] at gens
    have fw : (u.pkgWrite l.1 s.adoptSince).fw = s.fw := ((pkgWrite_keeps (M := 96468732) (by decide) (.refl _ u)).fw (by decide)).trans (took.fw (by decide))
    generalize u.pkgWrite l.1 s.adoptSince = w at *
    obtain ⟨roll, le⟩ := Prod.mk.inj gens
    have logged : Keeps 128 (w.updFw fun f => { f with pkg := some (mb, pkgPages l.1) })
        ((w.updFw fun f => { f with pkg := some (mb, pkgPages l.1) }).pkgLog 3 0 0) := pkgLog_keeps' _ _ _ _
    have firm : (w.updFw fun f => { f with pkg := some (mb, pkgPages l.1) }).fw = { s.fw with pkg := some (mb, pkgPages l.1) } := by
      rw [updFw_fw, fw]
    have same : (w.updFw fun f => { f with pkg := some (mb, pkgPages l.1) }).roll = w.roll ∧
      (w.updFw fun f => { f with pkg := some (mb, pkgPages l.1) }).le = w.le := ⟨rfl, rfl⟩
    generalize (w.updFw fun f => { f with pkg := some (mb, pkgPages l.1) }) = x at *
    obtain ⟨roll', le'⟩ := same
    have ends : Keeps 67664 (x.pkgLog 3 0 0) ((x.pkgLog 3 0 0).finishWrite mb q ((x.pkgLog 3 0 0).pkgReply 0xFFFF 0) (d ++ leBytes 8 s.adoptSince)) :=
      finishWrite_keeps (by decide) (.refl _ _)
    refine ⟨_, run, rfl, (ends.fw (by decide)).trans ((logged.fw (by decide)).trans firm), ?_, ?_⟩
    · rw [ends.roll (by decide), logged.roll (by decide), roll', roll]
    · rw [ends.le (by decide), logged.le (by decide), le', le]

/-- A KEYS item that goes to the standby, and a package that does not. -/
theorem pkgForward_lands {s u : State} {mb : Nat} {q : Request} (taken : (s.box mb).taken = some q) (took : Keeps 8256 s u) (beside : s.Beside u)
    (d : Bytes) {o : Outcome State Fault Refusal} (run : o = State.done (if u.hasStandby = false then u.reply mb stBadParam (u.pkgReply 0xFFFF 0x22)
      else u.finishWrite mb q (u.pkgReply 0xFFFF 0) d)) : Lands o fun e =>
      if s.hasStandby = false then Only [.hatch, .par, .faults, .pantry] s e ∧ s.Replies e mb q stBadParam (s.pkgReply 0xFFFF 0x22)
      else Only [.hatch, .par, .twin, .pantry, .links] s e ∧ s.Forwards e mb (s.pkgReply 0xFFFF 0) := by
  rw [beside.standby] at run
  refine lands_ite (fun alone => pkgReply_lands taken took (.refl _ u) (by decide) 0x22 0xFFFF (run.trans (congrArg State.done (if_pos alone)))) fun paired => ?_
  rw [if_neg paired] at run
  have there := (Bool.not_eq_false _).mp paired
  obtain ⟨only, accepts⟩ := write_ends (q := q) taken (only_of took : Only [.par, .pantry] s u) beside.hatch beside.twin beside.mono beside.eff (u.pkgReply 0xFFFF 0) d
  rw [OnlyWrite, if_pos there] at only
  rw [State.Accepts, if_pos there] at accepts
  have same : u.pkgReply 0xFFFF 0 = s.pkgReply 0xFFFF 0 := by simp only [State.pkgReply, took.roll (by decide), took.le (by decide)]
  rw [same] at only accepts run
  exact ⟨_, run, only.mono (by decide), accepts⟩

theorem pkgApply_lands {s : State} {mb : Fin 8} {q : Request} (runs : s.Runs mb 0x1815 q) {unit off n : Nat} (unit_ : uAt q.payload 0 1 = unit)
    (off_ : uAt q.payload 4 4 = off) (n_ : uAt q.payload 8 4 = n) {d : Bytes} (d_ : s.mpRead off n = d) : Lands (exec (.pkgApply mb) s) fun e =>
    let rd := fun o k => slice d o k
    let kind := itemKind rd
    let refused := fun (st reason index : Nat) => Only [.hatch, .par, .faults, .pantry] s e ∧ s.Replies e mb q st (s.pkgReply index reason)
    let busy := fun (us_ : Nat) => Only [.hatch, .par, .pantry] s e ∧ s.Replies e mb q stBusy (leBytes 4 us_)
    if 1 < unit ∨ 0x1C0000 < off + n then refused stBadParam 5 0xFFFF
    else if (kind = 3 ∨ unit = 1) ∧ s.twin.handoverUntil.isSome = true then busy 20
    else if (kind = 3 ∨ unit = 1) ∧ s.forwardBarred = true then refused stRefused 0x80 0xFFFF
    else if s.roll.pend.isSome = true then busy s.rollRetry
    else if s.le.pend.isSome = true then busy (ceilDiv (s.p0 0x0B02) 8000)
    else match s.itemFault rd [3, 4] n with
      | some f => refused f.1 f.2 0xFFFF
      | none =>
        if s.fw.lc = .factory ∨ s.fw.lc = .returned then refused stRefused 0xF7 0xFFFF
        else if (kind = 3 ∧ 131072 < itemBodyLen rd) ∨ (kind = 4 ∧ itemBodyLen rd % 32 ≠ 0) then refused stBadParam 0xF0 0xFFFF
        else if kind = 3 then
          let l := pkgRecords (rd 192 (itemBodyLen rd)).length (rd 192 (itemBodyLen rd))
          if unit ≠ 0 then refused stBadParam 5 0xFFFF
          else if s.pkgLoad = true then refused stRefused 0xF5 0xFFFF
          else if (s.mpTook off n).pkgSupply = true then refused stRefused 0xF6 0xFFFF
          else if s.fw.locked = true then refused stLocked 9 0xFFFF
          else match (s.mpTook off n).pkgFailure l.1 l.2 with
            | some k => refused stBadParam 0xFB k
            | none =>
              let t := ((((s.mpTook off n).pkgWrite l.1 s.adoptSince).updFw fun f => { f with pkg := some (mb, pkgPages l.1) }).pkgLog 3 0 0)
              e = t.finishWrite mb q (t.pkgReply 0xFFFF 0) (d ++ leBytes 8 s.adoptSince) ∧ e.fw = { s.fw with pkg := some (mb, pkgPages l.1) } ∧
              e.roll.gen = (if pkgHas l.1 [2] then genUp s.roll.gen else s.roll.gen) ∧
              e.le.gen = (if pkgHas l.1 [3, 4] then genUp s.le.gen else s.le.gen)
        else if unit = 0 then
          match s.unwrapKeys (rd 64 64) (itemBodyLen rd / 32) (d.drop 192) with
          | none => refused stBadParam 0xFC 0xFFFF
          | some keys => Only [.hatch, .par, .faults, .pantry, .fw] s e ∧
              e.fw = { s.fw with linkKeys := keysPut s.fw.linkKeys keys, keyState := .ready } ∧
              e.pantry.linkKeys = (if s.pantry.wiping.isSome = true then s.pantry.linkKeys else keysPut s.pantry.linkKeys keys) ∧
              s.Replies e mb q stOk (s.pkgReply 0xFFFF 0)
        else if s.hasStandby = false then refused stBadParam 0x22 0xFFFF
        else Only [.hatch, .par, .twin, .pantry, .links] s e ∧ s.Forwards e mb (s.pkgReply 0xFFFF 0) := by
  have run : exec (.pkgApply mb) s = State.done (
      if 1 < uAt q.payload 0 1 ∨ spanOk (uAt q.payload 4 4) (uAt q.payload 8 4) = false then s.reply mb stBadParam (s.pkgReply 0xFFFF 0x05)
      else (s.mpTook (uAt q.payload 4 4) (uAt q.payload 8 4)).pkgApply mb q (s.mpRead (uAt q.payload 4 4) (uAt q.payload 8 4)) s.adoptSince) :=
    congrArg State.done (withCmd_runs runs _ _)
  unfold State.pkgApply at run
  rw [unit_, off_, n_, d_] at run
  have length : d.length = n := by rw [← d_]; exact length_mpRead s off n
  have keys := mpTook_keys s off n
  obtain ⟨took, beside⟩ := mpTook_beside s off n
  have taken := runs.taken
  generalize s.mpTook off n = u at *
  dsimp only at run ⊢
  have span : (1 < unit ∨ spanOk off n = false) ↔ (1 < unit ∨ 0x1C0000 < off + n) := by
    simp only [spanOk, decide_eq_false_iff_not, not_le]
  refine lands_ite (fun bad => pkgReply_lands taken (.refl _ s) (.refl _ s) (by decide) 0x05 0xFFFF (run.trans (congrArg State.done (if_pos (span.2 bad)))))
    fun good => ?_
  rw [if_neg (mt span.1 good), beside.twin, beside.barred, took.roll (by decide), took.le (by decide), length] at run
  generalize itemKind (fun o k => slice d o k) = kind at *
  have told : ∀ c : Bool, ((kind == 3 || unit == 1) && c) = true ↔ (kind = 3 ∨ unit = 1) ∧ c = true := fun c => by simp
  refine lands_ite (fun bad => pkgBusy_lands taken took 20 rfl (run.trans (congrArg State.done (if_pos ((told _).2 bad))))) fun good => ?_
  rw [if_neg (mt (told _).1 good)] at run
  refine lands_ite (fun bad => pkgReply_lands taken took (.refl _ u) (by decide) 0x80 0xFFFF (run.trans (congrArg State.done (if_pos ((told _).2 bad)))))
    fun good => ?_
  rw [if_neg (mt (told _).1 good)] at run
  refine lands_ite (fun bad => pkgBusy_lands taken took _ (rollRetry_congr (took.mod (by decide)) (took.roll (by decide)))
    (run.trans (congrArg State.done (if_pos bad)))) fun good => ?_
  rw [if_neg good] at run
  refine lands_ite (fun bad => pkgBusy_lands taken took _ (by rw [p0_congr beside.eff]) (run.trans (congrArg State.done (if_pos bad)))) fun good => ?_
  rw [if_neg good, itemFault_congr (took.fw (by decide))] at run
  cases fault : s.itemFault (fun o k => slice d o k) [3, 4] n with
  | some f =>
    rw [fault] at run
    exact pkgRefuse_lands taken took kind (itemFault_status fault) f.2 0xFFFF run
  | none =>
    rw [fault, took.fw (by decide)] at run
    dsimp only at run ⊢
    refine lands_ite (fun bad => pkgRefuse_lands taken took kind (by decide) 0xF7 0xFFFF (run.trans (congrArg State.done (if_pos bad)))) fun good => ?_
    rw [if_neg good] at run
    refine lands_ite (fun bad => pkgRefuse_lands taken took kind (by decide) 0xF0 0xFFFF (run.trans (congrArg State.done (if_pos bad)))) fun good => ?_
    rw [if_neg good] at run
    refine lands_ite (fun package => ?_) fun keys_ => ?_
    · rw [if_pos package] at run
      refine lands_ite (fun bad => pkgReply_lands taken took (.refl _ u) (by decide) 0x05 0xFFFF (run.trans (congrArg State.done (if_neg bad)))) fun good => ?_
      rw [if_pos (not_not.1 good)] at run
      exact packageApply_lands taken took beside d run
    · rw [if_neg keys_] at run
      refine lands_ite (fun own => ?_) fun there => ?_
      · rw [if_pos own] at run
        exact keysApply_lands taken took keys d run
      · rw [if_neg there] at run
        exact pkgForward_lands taken took beside d run

/-- Settles O54. -/
theorem keysAndLifeCycle : Obligations.KeysAndLifeCycle := by
  unfold Obligations.KeysAndLifeCycle
  refine ⟨fun s mb q => ⟨ownerLock_lands, fun runs => (lcSet_lands runs).mono fun e => ?_, fun runs => (atticRead_lands runs).mono fun e => ?_⟩,
    fun s mb q runs => (pkgApply_lands runs rfl rfl rfl rfl).mono fun e => ?_⟩
  · refine ite_imp .rfl (fun _ => id) fun _ => ite_imp .rfl (fun _ => id) fun _ => ite_imp .rfl (fun _ => id) fun _ => ite_imp .rfl (fun _ => id) fun _ => ?_
    exact id
  · refine ite_imp .rfl (fun _ => id) fun _ => And.imp_right ?_
    generalize List.take _ _ = l
    cases l with
    | nil => exact id
    | cons x r => exact id
  · refine ite_imp .rfl (fun _ => id) fun _ => ite_imp .rfl (fun _ => id) fun _ => ite_imp .rfl (fun _ => id) fun _ => ite_imp .rfl (fun _ => id) fun _ =>
      ite_imp .rfl (fun _ => id) fun _ => ?_
    generalize s.itemFault _ _ _ = fault
    cases fault with
    | some f => exact id
    | none =>
      refine ite_imp .rfl (fun _ => id) fun _ => ite_imp .rfl (fun _ => id) fun _ => ite_imp .rfl (fun _ => ?_) fun _ =>
        ite_imp .rfl (fun _ => ?_) fun _ => id
      · refine ite_imp .rfl (fun _ => id) fun _ => ite_imp .rfl (fun _ => id) fun _ => ite_imp .rfl (fun _ => id) fun _ =>
          ite_imp .rfl (fun _ => id) fun _ => ?_
        generalize State.pkgFailure _ _ _ = failing
        cases failing with
        | some k => exact id
        | none => exact id
      · generalize s.unwrapKeys _ _ _ = keys
        cases keys with
        | none => exact id
        | some ks => exact id

end Sys2Proof.Machine
end

section
/-!
PROOFS. The safety island's shared operations (R517 to R539): a bit set, a stop, a lockout, a fault of a function and a grant.
-/

namespace Sys2Proof.Machine

open Host

/-! ### A bit set -/

/-- A number by the bits above one, the bit and the bits below. -/
theorem eq_parts (v n : Nat) : v = 2 ^ n * (2 * (v / 2 ^ (n + 1)) + b2n (bit v n)) + v % 2 ^ n := by
  have half : v / 2 ^ n = 2 * (v / 2 ^ (n + 1)) + b2n (bit v n) := by
    have two : v / 2 ^ (n + 1) = v / 2 ^ n / 2 := by rw [Nat.pow_succ, Nat.div_div_eq_div_mul]
    have odd : b2n (bit v n) = v / 2 ^ n % 2 := by
      unfold bit b2n
      have := Nat.mod_two_eq_zero_or_one (v / 2 ^ n)
      obtain zero | one := this
      · rw [zero]; rfl
      · rw [one]; rfl
    rw [two, odd]
    omega
  rw [← half]
  exact (Nat.div_add_mod v (2 ^ n)).symm

theorem setBit_eq (v n : Nat) (b : Bool) : setBit v n b = 2 ^ n * (2 * (v / 2 ^ (n + 1)) + b2n b) + v % 2 ^ n := by
  have parts := eq_parts v n
  unfold setBit
  generalize v / 2 ^ (n + 1) = q at *
  generalize v % 2 ^ n = r at *
  generalize b2n (bit v n) = a at *
  generalize b2n b = c at *
  have left : 2 ^ n * (2 * q + a) = 2 ^ n * (2 * q) + a * 2 ^ n := by ring
  have right : 2 ^ n * (2 * q + c) = 2 ^ n * (2 * q) + c * 2 ^ n := by ring
  rw [left] at parts
  rw [right]
  generalize 2 ^ n * (2 * q) = x at *
  generalize a * 2 ^ n = y at *
  omega

/-- The bit after a multiple of 2, and every bit above it. -/
theorem testBit_twice (q : Nat) (b : Bool) (j : Nat) : (2 * q + b2n b).testBit j = if j = 0 then b else q.testBit (j - 1) := by
  have bit : b2n b = b.toNat := by cases b <;> rfl
  rw [bit, ← Nat.bit_val]
  cases j with
  | zero => exact Nat.testBit_bit_zero b q
  | succ j => exact Nat.testBit_bit_succ j b q

@[simp] theorem bit_setBit (v n : Nat) (b : Bool) : bit (setBit v n b) n = b := by
  rw [setBit_eq, bit_eq_testBit, Nat.testBit_two_pow_mul_add _ (Nat.mod_lt _ (Nat.two_pow_pos n)), if_neg (Nat.lt_irrefl n), Nat.sub_self,
    testBit_twice]
  rfl

theorem bit_setBit_ne (v : Nat) {n k : Nat} (other : k ≠ n) (b : Bool) : bit (setBit v n b) k = bit v k := by
  have above : ∀ c : Bool, (2 ^ n * (2 * (v / 2 ^ (n + 1)) + b2n c) + v % 2 ^ n).testBit k =
      if k < n then (v % 2 ^ n).testBit k else (v / 2 ^ (n + 1)).testBit (k - n - 1) := fun c => by
    rw [Nat.testBit_two_pow_mul_add _ (Nat.mod_lt _ (Nat.two_pow_pos n))]
    split
    · rfl
    · rw [testBit_twice, if_neg (by omega)]
  rw [setBit_eq, bit_eq_testBit, bit_eq_testBit, above]
  conv_rhs => rw [eq_parts v n]
  exact (above _).symm

/-! ### Leaving and entering a state -/

section
variable (u : SafeUnit) (m : Nat)

@[simp] theorem SafeUnit.enter_st (st : SafeState) : (u.enter st).st = st := by
  unfold SafeUnit.enter
  split
  · rename_i same
    exact same.symm
  · rfl

/-- Entering a state changes the state and reports it, and that is all. -/
theorem SafeUnit.enter_eq (st : SafeState) : u.enter st = { u with st := st, events := (u.enter st).events } := by
  unfold SafeUnit.enter
  split
  · rename_i same
    rw [same]
  · rfl

/-- What an island that may run on has to show once its outputs are off. -/
structure SafeUnit.Stopped (u v : SafeUnit) (m : Nat) : Prop where
  /-- The outputs are off. -/
  off : v.inhibitOn = false
  /-- Outputs that were on have gone off now. -/
  stops : u.inhibitOn = true → v.st = .stopped ∧ v.pPermit = false ∧ v.hPermit = false ∧ v.offAt = m
  /-- Where none was on, the state stays. -/
  stays : u.inhibitOn = false → v.st = u.st

/-- What a stop changes of the island. -/
theorem SafeUnit.stop_eq : ∃ p h d b o e c ev st, u.stop m =
    { u with pPermit := p, hPermit := h, due := d, broken := b, offAt := o, edm := e, cause := c, events := ev, st := st } := by
  unfold SafeUnit.stop
  split
  · rw [SafeUnit.enter_eq]
    exact ⟨_, _, _, _, _, _, _, _, _, rfl⟩
  · exact ⟨u.pPermit, u.hPermit, u.due, u.broken, u.offAt, u.edm, u.cause, u.events, u.st, rfl⟩

theorem SafeUnit.stop_stopped : u.Stopped (u.stop m) m := by
  unfold SafeUnit.stop
  cases on : u.inhibitOn with
  | true =>
    rw [if_pos rfl, SafeUnit.enter_eq]
    refine ⟨?_, fun _ => ⟨rfl, rfl, rfl, ?_⟩, fun no => Bool.noConfusion (on.symm.trans no)⟩
    · rw [SafeUnit.inhibitOn]
      exact Bool.and_false _
    · exact if_pos on
  | false =>
    rw [if_neg (by decide)]
    exact ⟨on, fun yes => Bool.noConfusion (on.symm.trans yes), fun _ => rfl⟩

theorem SafeUnit.stop_of_off (off : u.inhibitOn = false) : u.stop m = u := if_neg (ne_true_of_eq_false off)

/-! ### A lockout (R535) -/

/-- An island in LOCKOUT, with every output off. -/
def SafeUnit.Locked (v : SafeUnit) (code : Nat) : Prop :=
  v.st = .lockout ∧ v.last.code = code ∧ v.last.fn = 0xFF ∧ v.inhibitOn = false ∧ v.tripOn = false ∧ v.line = false

theorem SafeUnit.locked_of_st {v : SafeUnit} (st : v.st = .lockout) {code : Nat} (last : v.last.code = code ∧ v.last.fn = 0xFF) : v.Locked code := by
  have off : v.inhibitOn = false := by rw [SafeUnit.inhibitOn, st]; exact Bool.and_false _
  refine ⟨st, last.1, last.2, off, ?_, ?_⟩
  · rw [SafeUnit.tripOn, st]
    exact Bool.and_false _
  · rw [SafeUnit.line, off]
    rfl

theorem SafeUnit.lockout_of_live (live : u.live = true) (code by_ : Nat) : (u.lockout m code by_).Locked code ∧
    (u.lockout m code by_).sealIn = u.sealIn := by
  unfold SafeUnit.lockout
  rw [if_pos live]
  dsimp only
  split
  · rename_i locked
    exact ⟨SafeUnit.locked_of_st locked ⟨rfl, rfl⟩, rfl⟩
  · rw [SafeUnit.enter_eq]
    exact ⟨SafeUnit.locked_of_st rfl ⟨rfl, rfl⟩, rfl⟩

theorem SafeUnit.lockout_of_dead (dead : u.live = false) (code by_ : Nat) : u.lockout m code by_ = u := if_neg (ne_true_of_eq_false dead)

/-! ### A fault of a function (R534) -/

/-- Whether a fault of a function is a new one. -/
def SafeUnit.faultNew (u : SafeUnit) (fn : Nat) : Prop := u.live = true ∧ u.inUse fn = true ∧ bit u.fault fn = false

theorem SafeUnit.fnFault_old {fn : Nat} (old : ¬ u.faultNew fn) (code by_ : Nat) : u.fnFault m code fn by_ = u := by
  refine if_pos ?_
  rw [SafeUnit.faultNew] at old
  cases live : u.live with
  | false => rfl
  | true =>
    cases used : u.inUse fn with
    | false => rfl
    | true =>
      cases faulty : bit u.fault fn with
      | true => rfl
      | false => exact absurd ⟨live, used, faulty⟩ old

/-- The island at a new fault, before it stops. -/
def SafeUnit.faulted (u : SafeUnit) (m code fn by_ : Nat) : SafeUnit :=
  { (({ u with fault := setBit u.fault fn true, together := setBit u.together fn false } : SafeUnit).record m code (2 ^ fn) by_).count 2 with
    events := u.events ++ [.funcFault code (2 ^ fn) by_] }

theorem SafeUnit.fnFault_new {fn : Nat} (new : u.faultNew fn) (code by_ : Nat) : u.fnFault m code fn by_ = (u.faulted m code fn by_).stop m := by
  refine if_neg ?_
  obtain ⟨live, used, clear⟩ := new
  rw [live, used, clear]
  decide

/-- What a new fault leaves as it was: all but the fault, its record and what a stop changes. -/
theorem SafeUnit.fnFault_kept (code fn by_ : Nat) : (u.fnFault m code fn by_).supplied = u.supplied ∧ (u.fnFault m code fn by_).sealIn = u.sealIn ∧
    (u.fnFault m code fn by_).level = u.level ∧ (u.fnFault m code fn by_).since = u.since ∧ (u.fnFault m code fn by_).pulse = u.pulse ∧
    (u.fnFault m code fn by_).demand = u.demand ∧ (u.fnFault m code fn by_).hands = u.hands := by
  by_cases new : u.faultNew fn
  · rw [SafeUnit.fnFault_new u m new]
    obtain ⟨p, h, d, b, o, e, c, ev, st, eq⟩ := (u.faulted m code fn by_).stop_eq m
    rw [eq]
    exact ⟨rfl, rfl, rfl, rfl, rfl, rfl, rfl⟩
  · rw [SafeUnit.fnFault_old u m new]
    exact ⟨rfl, rfl, rfl, rfl, rfl, rfl, rfl⟩

theorem SafeUnit.fnFault_spec {fn : Nat} (new : u.faultNew fn) (code by_ : Nat) : (u.fnFault m code fn by_).fault = setBit u.fault fn true ∧
    (u.fnFault m code fn by_).last.code = code ∧ (u.fnFault m code fn by_).last.fn = 2 ^ fn ∧ (u.fnFault m code fn by_).last.by_ = by_ ∧
    u.Stopped (u.fnFault m code fn by_) m := by
  rw [SafeUnit.fnFault_new u m new]
  have stopped : u.Stopped ((u.faulted m code fn by_).stop m) m := by
    obtain ⟨off, stops, stays⟩ := (u.faulted m code fn by_).stop_stopped m
    exact ⟨off, stops, stays⟩
  obtain ⟨p, h, d, b, o, e, c, ev, st, eq⟩ := (u.faulted m code fn by_).stop_eq m
  refine ⟨?_, ?_, ?_, ?_, stopped⟩
  · rw [eq]; rfl
  · rw [eq]; rfl
  · rw [eq]; rfl
  · rw [eq]; rfl

/-! ### A grant (R533) -/

theorem SafeUnit.grant_refused {dst : SafeState} (no : u.mayGrant m dst = false) : u.grant m dst = u := if_neg (ne_true_of_eq_false no)

/-- What a grant changes of the island. -/
theorem SafeUnit.grant_spec {dst : SafeState} (may : u.mayGrant m dst = true) (outs : dst = .ready ∨ dst = .permit) :
    (u.grant m dst).st = dst ∧ (u.grant m dst).line = true ∧ (dst = .permit → (u.grant m dst).edm = some (m, false)) := by
  have supplied : u.supplied = true := by
    rw [SafeUnit.mayGrant] at may
    simp only [Bool.and_eq_true, SafeUnit.live] at may
    exact may.1.1.1.1.1.1
  unfold SafeUnit.grant
  rw [if_pos may]
  dsimp only
  rw [SafeUnit.enter_eq]
  refine ⟨rfl, ?_, fun permit => if_pos permit⟩
  unfold SafeUnit.line SafeUnit.inhibitOn
  obtain rfl | rfl := outs
  · dsimp only [SafeUnit.count]
    rw [supplied]
    rfl
  · dsimp only [SafeUnit.count]
    rw [supplied]
    rfl

/-- A grant leaves the inputs, the demands, the faults and the hands. -/
theorem SafeUnit.grant_kept (dst : SafeState) : (u.grant m dst).supplied = u.supplied ∧ (u.grant m dst).level = u.level ∧
    (u.grant m dst).since = u.since ∧ (u.grant m dst).demand = u.demand ∧ (u.grant m dst).hands = u.hands ∧ (u.grant m dst).press = u.press := by
  unfold SafeUnit.grant
  split
  · rw [SafeUnit.enter_eq]
    exact ⟨rfl, rfl, rfl, rfl, rfl, rfl⟩
  · exact ⟨rfl, rfl, rfl, rfl, rfl, rfl⟩

end

theorem modSafe_only (s : State) (f : SafeUnit → Nat → SafeUnit) : Only [.safe] s (s.modSafe f) := only_of (updSafe_keeps (by decide) (.refl _ s))

theorem updSafe_only (s : State) (f : SafeUnit → SafeUnit) : Only [.safe] s (s.updSafe f) := only_of (updSafe_keeps (by decide) (.refl _ s))

/-- An island left as it was is a state left as it was. -/
theorem modSafe_same {s : State} {f : SafeUnit → Nat → SafeUnit} (same : f s.safe s.mono = s.safe) : s.modSafe f = s :=
  congrArg (fun u => ({ s with safe := u } : State)) same

end Sys2Proof.Machine
end

section
/-!
PROOFS. The lockouts of the safety island (R518 to R525, R532, R535, R536, R547), its mirror link and the permit line (R334, R540, R541, R544); and O49.
-/

namespace Sys2Proof.Machine

open Host

/-! ### Checks that end in LOCKOUT -/

/-- A check of the island: it locks a live island out, and changes one that is not live in nothing. -/
theorem lockout_next (s : State) (code by_ : Nat) : Next (.next (s.modSafe fun u m => u.lockout m code by_)) fun t => Only [.safe] s t ∧
    if s.safe.live = true then t.safe.Locked code else t = s := by
  refine ⟨_, rfl, modSafe_only s _, ?_⟩
  split
  · rename_i live
    exact (SafeUnit.lockout_of_live s.safe s.mono live code by_).1
  · rename_i dead
    exact modSafe_same (SafeUnit.lockout_of_dead s.safe s.mono (Bool.eq_false_of_not_eq_true dead) code by_)

theorem not_elapsed {s : State} {t n : Nat} (early : s.mono < t + n) : ¬ s.elapsed t n = true := fun past =>
  absurd (of_decide_eq_true past) (Nat.not_le.2 early)

/-- A row that leaves the state. -/
theorem stays_next (s : State) : Next (.next s) fun t => Only [.safe] s t ∧ t = s := ⟨s, rfl, fun p _ => by cases p <;> rfl, rfl⟩

theorem Next.mono {o : Outcome State Fault Refusal} {P Q : State → Prop} (h : Next o P) (f : ∀ t, P t → Q t) : Next o Q := by
  obtain ⟨t, run, holds⟩ := h
  exact ⟨t, run, f t holds⟩

theorem safeClockCheck_next (s : State) (d : Int) : Next (exec (.safeClockCheck d) s) fun t => Only [.safe] s t ∧
    if 100000 < d.natAbs ∧ s.safe.live = true then t.safe.Locked 0x18 else t = s := by
  change Next (execSafeClockCheck d s) _
  unfold execSafeClockCheck
  split
  · rename_i far
    exact (lockout_next s 0x18 3).mono fun t => And.imp_right (ite_imp ⟨fun live => ⟨far, live⟩, fun h => h.2⟩ (fun _ => id) fun _ => id)
  · rename_i near
    exact (stays_next s).mono fun t => And.imp_right fun same => by rw [if_neg fun h => near h.1]; exact same

theorem safeSealCheck_next (s : State) (v : BitVec 16) : Next (exec (.safeSealCheck v) s) fun t => Only [.safe] s t ∧
    if s.safe.live = false ∨ s.safe.sealIn = some v.toNat then t = s
    else match s.safe.sealIn with
      | none => t.safe = { s.safe with sealIn := some v.toNat }
      | some _ => t.safe.Locked 0x17 := by
  refine ⟨_, rfl, modSafe_only s _, ?_⟩
  by_cases dead : s.safe.live = false
  · rw [if_pos (.inl dead)]
    refine modSafe_same ?_
    cases seal_ : s.safe.sealIn with
    | none => exact if_neg (ne_true_of_eq_false dead)
    | some w =>
      dsimp only
      split
      · rfl
      · exact SafeUnit.lockout_of_dead s.safe s.mono dead 0x17 3
  · have live := Bool.eq_true_of_not_eq_false dead
    cases seal_ : s.safe.sealIn with
    | none =>
      rw [if_neg fun h => h.elim dead fun no => nomatch no]
      change (match s.safe.sealIn with
        | none => if s.safe.live then { s.safe with sealIn := some v.toNat } else s.safe
        | some w => if w = v.toNat then s.safe else s.safe.lockout s.mono 0x17 3) = _
      rw [seal_]
      exact if_pos live
    | some w =>
      by_cases same : w = v.toNat
      · rw [if_pos (.inr (congrArg some same))]
        refine modSafe_same ?_
        rw [seal_]
        exact if_pos same
      · rw [if_neg fun h => h.elim dead fun no => same (Option.some.inj no)]
        change (match s.safe.sealIn with
          | none => if s.safe.live then { s.safe with sealIn := some v.toNat } else s.safe
          | some w => if w = v.toNat then s.safe else s.safe.lockout s.mono 0x17 3).Locked 0x17
        rw [seal_]
        dsimp only
        rw [if_neg same]
        exact (SafeUnit.lockout_of_live s.safe s.mono live 0x17 3).1

theorem heldMs_sinceIf (on : Bool) (since : Option Nat) (m : Nat) : heldMs (sinceIf on since m) m = true ↔ on = true ∧ since.getD m + 8000000 < m := by
  cases on with
  | false => exact ⟨fun h => Bool.noConfusion h, fun h => Bool.noConfusion h.1⟩
  | true => exact decide_eq_true_iff.trans (and_iff_right rfl).symm

/-- The island with the decisions of an exchange (R533, R536). -/
def SafeUnit.exchanged (u : SafeUnit) (m : Nat) (p h d : Bool) : SafeUnit :=
  { u with pPermit := p, hPermit := h, differ := sinceIf (p != h) u.differ m, inDiffer := sinceIf d u.inDiffer m }

theorem safeChannelExchange_next (s : State) (p h d : Bool) : Next (exec (.safeChannelExchange p h d) s) fun t => Only [.safe] s t ∧
    if s.safe.live = true ∧ s.safe.st ≠ .lockout then
      if (p ≠ h ∧ s.safe.differ.getD s.mono + 8000000 < s.mono) ∨ (d = true ∧ s.safe.inDiffer.getD s.mono + 8000000 < s.mono) then
        t.safe.Locked 0x10
      else t.safe.pPermit = p ∧ t.safe.hPermit = h ∧
        t.safe.differ = (if p ≠ h then some (s.safe.differ.getD s.mono) else none) ∧
        t.safe.inDiffer = (if d = true then some (s.safe.inDiffer.getD s.mono) else none) ∧
        t.safe.st = (if s.safe.inhibitOn = true ∧ (p && h) = false then .stopped else s.safe.st)
    else t = s := by
  change Next (execSafeChannelExchange p h d s) _
  unfold execSafeChannelExchange
  split
  · rename_i waits
    exact (stays_next s).mono fun t => And.imp_right fun same => by rw [if_neg fun h => waits.elim (fun no => Bool.noConfusion (no.symm.trans h.1)) h.2]; exact same
  · rename_i works
    have live : s.safe.live = true := Bool.eq_true_of_not_eq_false fun no => works (.inl no)
    refine ⟨_, rfl, modSafe_only s _, ?_⟩
    rw [if_pos ⟨live, fun no => works (.inr no)⟩]
    generalize hv : s.safe.exchanged s.mono p h d = v
    have safe : (s.modSafe fun u m =>
        let v := { u with pPermit := p, hPermit := h, differ := sinceIf (p != h) u.differ m, inDiffer := sinceIf d u.inDiffer m }
        if heldMs v.differ m || heldMs v.inDiffer m then v.lockout m 0x10 3
        else if v.inhibitOn && !(p && h) then { v.stop m with pPermit := p, hPermit := h }
        else v).safe = if heldMs v.differ s.mono || heldMs v.inDiffer s.mono then v.lockout s.mono 0x10 3
        else if v.inhibitOn && !(p && h) then { v.stop s.mono with pPermit := p, hPermit := h } else v := by
      rw [← hv]; rfl
    rw [safe]
    have differ : v.differ = sinceIf (p != h) s.safe.differ s.mono := by rw [← hv]; rfl
    have inDiffer : v.inDiffer = sinceIf d s.safe.inDiffer s.mono := by rw [← hv]; rfl
    have same : (heldMs v.differ s.mono || heldMs v.inDiffer s.mono) = true ↔
        (p ≠ h ∧ s.safe.differ.getD s.mono + 8000000 < s.mono) ∨ (d = true ∧ s.safe.inDiffer.getD s.mono + 8000000 < s.mono) := by
      rw [Bool.or_eq_true, differ, inDiffer, heldMs_sinceIf, heldMs_sinceIf, bne_iff_ne]
    have live' : v.live = true := by rw [← hv]; exact live
    have on : v.inhibitOn = s.safe.inhibitOn := by rw [← hv]; rfl
    have rest : v.pPermit = p ∧ v.hPermit = h ∧ v.st = s.safe.st := by rw [← hv]; exact ⟨rfl, rfl, rfl⟩
    obtain ⟨pp, hp, st⟩ := rest
    have differ' : sinceIf (p != h) s.safe.differ s.mono = if p ≠ h then some (s.safe.differ.getD s.mono) else none :=
      if_congr bne_iff_ne rfl rfl
    by_cases late : (p ≠ h ∧ s.safe.differ.getD s.mono + 8000000 < s.mono) ∨ (d = true ∧ s.safe.inDiffer.getD s.mono + 8000000 < s.mono)
    · rw [if_pos late, if_pos (same.2 late)]
      exact (SafeUnit.lockout_of_live v s.mono live' 0x10 3).1
    · rw [if_neg late, if_neg (mt same.1 late), on]
      by_cases stops : s.safe.inhibitOn = true ∧ (p && h) = false
      · rw [if_pos (by rw [stops.1, stops.2]; rfl), if_pos stops]
        have stopped := (v.stop_stopped s.mono).stops (on.trans stops.1)
        obtain ⟨a, b, c, d', e, f, g, ev, x, eq⟩ := v.stop_eq s.mono
        refine ⟨rfl, rfl, ?_, ?_, stopped.1⟩
        · rw [eq]
          exact differ.trans differ'
        · rw [eq]
          exact inDiffer
      · rw [if_neg (by rw [Bool.and_eq_true, Bool.not_eq_true']; exact stops), if_neg stops]
        exact ⟨pp, hp, differ.trans differ', inDiffer, st⟩

theorem safeSelftest_next (s : State) (k : SafeTest) (r : TestResult) : Next (exec (.safeSelftest k r) s) fun t => Only [.safe] s t ∧
    let n := match k with | .cpu => 0 | .ram => 1 | .rom => 2
    let period := match k with | .cpu => 4000000 | .ram => 8000000000 | .rom => 80000000000
    if r = .pass then t.safe = { s.safe with testAt := s.safe.testAt.set n s.mono }
    else if s.safe.live = true ∧ (r = .fail ∨ max s.safe.startAt (s.safe.testAt.get 0 n) + 2 * period < s.mono) then t.safe.Locked 0x1A
    else t = s := by
  have test : safeTest k = (match k with | .cpu => 0 | .ram => 1 | .rom => 2, match k with | .cpu => 4000000 | .ram => 8000000000 | .rom => 80000000000) := by
    cases k <;> rfl
  change Next (execSafeSelftest k r s) _
  unfold execSafeSelftest
  rw [test]
  dsimp only
  generalize (match k with | .cpu => 0 | .ram => 1 | .rom => 2) = n
  generalize (match k with | .cpu => 4000000 | .ram => 8000000000 | .rom => 80000000000) = period
  cases r with
  | pass => exact ⟨_, rfl, modSafe_only s _, rfl⟩
  | fail =>
    refine (lockout_next s 0x1A 1).mono fun t => And.imp_right fun h => ?_
    rw [if_neg (by decide)]
    exact ite_imp ⟨fun live => ⟨live, .inl rfl⟩, fun h => h.1⟩ (fun _ => id) (fun _ => id) h
  | overdue =>
    dsimp only
    split
    · rename_i late
      refine (lockout_next s 0x1A 1).mono fun t => And.imp_right fun h => ?_
      rw [if_neg (by decide)]
      exact ite_imp ⟨fun live => ⟨live, .inr late⟩, fun h => h.1⟩ (fun _ => id) (fun _ => id) h
    · rename_i early
      refine (stays_next s).mono fun t => And.imp_right fun same => ?_
      rw [if_neg (by decide), if_neg fun h => h.2.elim (by decide) early]
      exact same

theorem safeEdmTimeout_next (s : State) : Next (exec .safeEdmTimeout s) fun t => Only [.safe] s t ∧
    match s.safe.edm with
    | some (a, w) =>
      if s.mono < a + 800000000 then t = s
      else if s.safe.live = true ∧ (s.safe.lev 15 ≠ w ∨ s.safe.lev 16 ≠ w) then t.safe.Locked 0x12
      else t.safe = { s.safe with edm := none }
    | none => t = s := by
  change Next (execSafeEdmTimeout s) _
  unfold execSafeEdmTimeout
  cases edm : s.safe.edm with
  | none => exact stays_next s
  | some x =>
    obtain ⟨a, w⟩ := x
    dsimp only
    by_cases early : s.mono < a + 800000000
    · rw [if_neg (not_elapsed (n := ms 100) early)]
      exact (stays_next s).mono fun t => And.imp_right fun same => by rw [if_pos early]; exact same
    · rw [if_pos (elapsed_of_le (n := ms 100) (Nat.not_lt.1 early))]
      refine ⟨_, rfl, modSafe_only s _, ?_⟩
      rw [if_neg early]
      change if s.safe.live = true ∧ (s.safe.lev 15 ≠ w ∨ s.safe.lev 16 ≠ w) then (if s.safe.lev 15 = w ∧ s.safe.lev 16 = w then { s.safe with edm := none }
        else ({ s.safe with edm := none } : SafeUnit).lockout s.mono 0x12 3).Locked 0x12
        else (if s.safe.lev 15 = w ∧ s.safe.lev 16 = w then { s.safe with edm := none }
          else ({ s.safe with edm := none } : SafeUnit).lockout s.mono 0x12 3) = { s.safe with edm := none }
      by_cases returned : s.safe.lev 15 = w ∧ s.safe.lev 16 = w
      · rw [if_pos returned, if_neg fun h => h.2.elim (fun no => no returned.1) fun no => no returned.2]
      · rw [if_neg returned]
        split
        · rename_i fails
          exact (SafeUnit.lockout_of_live { s.safe with edm := none } s.mono fails.1 0x12 3).1
        · rename_i passes
          refine SafeUnit.lockout_of_dead { s.safe with edm := none } s.mono (Bool.eq_false_of_not_eq_true fun live => passes ⟨live, ?_⟩) 0x12 3
          by_contra both
          rw [not_or, not_not, not_not] at both
          exact returned both

theorem safeReadbackTimeout_next (s : State) (o : Fin 4) : Next (exec (.safeReadbackTimeout o) s) fun t => Only [.safe] s t ∧
    if s.safe.live = true then t.safe.Locked 0x11 else t = s := by
  have run : exec (.safeReadbackTimeout o) s = .next (s.modSafe fun u m => u.lockout m 0x11 3) := if_pos o.isLt
  rw [run]
  exact lockout_next s 0x11 3

/-! ### The supply and the start (R518, R525, R532, R535) -/

theorem safeSupplyOut_next (s : State) : Next (exec .safeSupplyOut s) fun t => Only [.safe] s t ∧
    if s.safe.supplied = true then t.safe.supplied = false ∧ t.safe.inhibitOn = false ∧ t.safe.tripOn = false ∧ t.safe.outAt = s.mono ∧
      t.safe.outOn = s.safe.inhibitOn ∧ t.safe.st = s.safe.st
    else t = s := by
  change Next (execSafeSupplyOut s) _
  unfold execSafeSupplyOut
  cases supplied : s.safe.supplied with
  | false => exact stays_next s
  | true => exact ⟨_, if_neg (by decide), modSafe_only s _, rfl, rfl, rfl, rfl, rfl, rfl⟩

theorem safeSupplyReturn_next (s : State) : Next (exec .safeSupplyReturn s) fun t => Only [.safe] s t ∧ t.safe.supplied = true ∧
    if s.safe.supplied = true then t = s
    else if s.safe.st = .lockout ∧ s.mono < s.safe.outAt + 800000000 then t.safe = { s.safe with supplied := true }
    else t.safe.st = .start ∧ t.safe.startAt = s.mono ∧ t.safe.fault = 0 ∧ t.safe.demand = 0 ∧ t.safe.sealIn = none ∧
      (s.safe.outOn = true → t.safe.last.code = 0x19) := by
  change Next (execSafeSupplyReturn s) _
  unfold execSafeSupplyReturn
  by_cases supplied : s.safe.supplied = true
  · rw [if_pos supplied]
    exact ⟨s, rfl, fun p _ => by cases p <;> rfl, supplied, by rw [if_pos supplied]⟩
  · rw [if_neg supplied]
    refine ⟨_, rfl, modSafe_only s _, ?_⟩
    rw [if_neg supplied, State.modSafe, updSafe_safe]
    by_cases held : s.safe.st = .lockout ∧ s.mono < s.safe.outAt + 800000000
    · have held' : s.safe.st = .lockout ∧ s.mono < s.safe.outAt + ms 100 := held
      rw [if_pos held, if_pos held']
      exact ⟨rfl, rfl⟩
    · have held' : ¬ (s.safe.st = .lockout ∧ s.mono < s.safe.outAt + ms 100) := held
      rw [if_neg held, if_neg held']
      dsimp only
      cases on : s.safe.outOn with
      | true => exact ⟨rfl, rfl, rfl, rfl, rfl, rfl, fun _ => rfl⟩
      | false => exact ⟨rfl, rfl, rfl, rfl, rfl, rfl, fun h => Bool.noConfusion h⟩

/-- A seal that has no complementary pair of bits, or a pair of switches that exclude one another, and a sound one. -/
theorem safeStartDone_next (s : State) (v : BitVec 16) : Next (exec (.safeStartDone v) s) fun t => Only [.safe] s t ∧
    if s.safe.supplied = false ∨ s.safe.st ≠ .start then t = s
    else if s.safe.sealIn.getD v.toNat ≠ v.toNat then t.safe.st = .lockout ∧ t.safe.last.code = 0x17
    else t.safe.sealIn = some v.toNat ∧
      if v = 0 then t.safe.st = .unused ∧ t.safe.inhibitOn = false
      else if ∃ k : Fin 8, bit v.toNat k = bit v.toNat (k.val + 8) then t.safe.st = .lockout ∧ t.safe.last.code = 0x15
      else if (bit v.toNat 5 = true ∧ bit v.toNat 3 = false) ∨ (bit v.toNat 7 = true ∧ bit v.toNat 4 = false) then
        t.safe.st = .lockout ∧ t.safe.last.code = 0x16
      else t.safe.st = .stopped ∧ t.safe.sealOk = true := by
  change Next (execSafeStartDone v s) _
  unfold execSafeStartDone
  dsimp only
  split
  · exact stays_next s
  rename_i starts
  obtain ⟨supplied, st⟩ := not_or.1 starts
  have live : ({ s.safe with sealIn := some (s.safe.sealIn.getD v.toNat) } : SafeUnit).live = true := by
    have start := not_not.1 st
    rw [SafeUnit.live, start, Bool.eq_true_of_not_eq_false supplied]
    rfl
  refine ⟨_, rfl, modSafe_only s _, ?_⟩
  rw [State.modSafe, updSafe_safe]
  have seal_ : ({ s.safe with sealIn := some (s.safe.sealIn.getD v.toNat) } : SafeUnit).sealIn = some (s.safe.sealIn.getD v.toNat) := rfl
  generalize ({ s.safe with sealIn := some (s.safe.sealIn.getD v.toNat) } : SafeUnit) = w at *
  have locks : ∀ code, (w.lockout s.mono code 3).st = .lockout ∧ (w.lockout s.mono code 3).last.code = code := fun code => by
    obtain ⟨⟨lockout, last, -⟩, -⟩ := SafeUnit.lockout_of_live w s.mono live code 3
    exact ⟨lockout, last⟩
  have kept : ∀ code, (w.lockout s.mono code 3).sealIn = w.sealIn := fun code => (SafeUnit.lockout_of_live w s.mono live code 3).2
  by_cases other : s.safe.sealIn.getD v.toNat ≠ v.toNat
  · rw [if_pos other, if_pos other]
    exact locks 0x17
  rw [if_neg other, if_neg other]
  have first : some (s.safe.sealIn.getD v.toNat) = some v.toNat := congrArg some (not_not.1 other)
  have seal_ := seal_.trans first
  have zero : v.toNat = 0 ↔ v = 0 := ⟨fun h => BitVec.eq_of_toNat_eq h, fun h => by rw [h]; rfl⟩
  by_cases blank : v = 0
  · rw [if_pos blank, if_pos (zero.2 blank)]
    refine ⟨by rw [SafeUnit.enter_eq]; exact seal_, by rw [SafeUnit.enter_st], ?_⟩
    rw [SafeUnit.inhibitOn, SafeUnit.enter_st]
    exact Bool.and_false _
  rw [if_neg blank, if_neg (mt zero.1 blank)]
  have pairs : ((List.range 8).any fun k => bit v.toNat k == bit v.toNat (k + 8)) = true ↔ ∃ k : Fin 8, bit v.toNat k = bit v.toNat (k.val + 8) := by
    rw [List.any_eq_true]
    simp only [List.mem_range, beq_iff_eq]
    exact ⟨fun ⟨k, small, same⟩ => ⟨⟨k, small⟩, same⟩, fun ⟨k, same⟩ => ⟨k, k.isLt, same⟩⟩
  by_cases bad : ∃ k : Fin 8, bit v.toNat k = bit v.toNat (k.val + 8)
  · rw [if_pos bad, if_pos (pairs.2 bad)]
    exact ⟨(kept 0x15).trans seal_, locks 0x15⟩
  rw [if_neg bad, if_neg (mt pairs.1 bad)]
  have switches : ((bit v.toNat 5 && !bit v.toNat 3) || (bit v.toNat 7 && !bit v.toNat 4)) = true ↔
      (bit v.toNat 5 = true ∧ bit v.toNat 3 = false) ∨ (bit v.toNat 7 = true ∧ bit v.toNat 4 = false) := by
    simp only [Bool.or_eq_true, Bool.and_eq_true, Bool.not_eq_true']
  by_cases wrong : (bit v.toNat 5 = true ∧ bit v.toNat 3 = false) ∨ (bit v.toNat 7 = true ∧ bit v.toNat 4 = false)
  · rw [if_pos wrong, if_pos (switches.2 wrong)]
    exact ⟨(kept 0x16).trans seal_, locks 0x16⟩
  rw [if_neg wrong, if_neg (mt switches.1 wrong)]
  exact ⟨by rw [SafeUnit.enter_eq]; exact first, by rw [SafeUnit.enter_st], by rw [SafeUnit.enter_eq]⟩

/-! ### The mirror link (R541, R544) -/

theorem safeMirrorSend_next (s : State) : Next (exec .safeMirrorSend s) fun t => Only [.safe] s t ∧
    if s.safe.supplied = true then t.safe = { s.safe with sent := s.safe.sent ++ [s.safe.form], events := [] } else t = s := by
  change Next (execSafeMirrorSend s) _
  unfold execSafeMirrorSend
  cases supplied : s.safe.supplied with
  | false => exact stays_next s
  | true => exact ⟨_, if_neg (by decide), updSafe_only s _, rfl⟩

theorem safeMirrorRx_empty {s : State} (empty : s.safe.sent = []) : exec .safeMirrorRx s = .next s := by
  change execSafeMirrorRx s = _
  rw [execSafeMirrorRx, empty]

/-- The state with a frame taken (R541). -/
def State.frameTaken (s : State) (f : SafeFrame) (r : List SafeFrame) : State := s.updSafe fun u =>
  { u with sent := r, frame := f, frameAt := s.shortNow, frameMono := s.mono, stale := false,
           faultAt := if f.last = u.frame.last then u.faultAt else s.shortNow }

theorem condOff_firings (s : State) (src inst sub : Nat) : (s.condOff src inst sub).faults.firings = s.faults.firings ∧
    ∀ p, p ∈ (s.condOff src inst sub).faults.present ↔ p ∈ s.faults.present ∧ p ≠ { src, inst, sub } := by
  refine ⟨rfl, fun p => ?_⟩
  change p ∈ s.faults.present.filter (fun p => p ≠ { src, inst, sub }) ↔ _
  rw [List.mem_filter, decide_eq_true_iff]

theorem safeMirrorRx_lands {s : State} {f : SafeFrame} {r : List SafeFrame} (sent : s.safe.sent = f :: r) :
    (s.sys.stage = .inReset → Next (exec .safeMirrorRx s) fun t => Only [.safe] s t ∧ t.safe = { s.safe with sent := r }) ∧
    (s.sys.stage ≠ .inReset → Lands (exec .safeMirrorRx s) fun e => Only [.todo, .hatch, .notif, .par, .faults, .pantry, .safe] s e ∧
      e.safe = { s.safe with sent := r, frame := f, frameAt := s.shortNow, frameMono := s.mono, stale := false, faultAt :=
        (if f.last = s.safe.frame.last then s.safe.faultAt else s.shortNow) } ∧
      (f.st = 5 → { src := 0x79, inst := 0xFFFF, sub := 0 } ∉ s.faults.present → s.Fired e 0x79) ∧
      (f.st ≠ 5 → e.faults.firings = s.faults.firings ∧ { src := 0x79, inst := 0xFFFF, sub := 0 } ∉ e.faults.present) ∧
      (f.st ≠ 5 → f.events = [] → Only [.faults, .safe] s e)) := by
  refine ⟨fun in_ => ⟨s.updSafe fun u => { u with sent := r }, ?_, updSafe_only s _, rfl⟩, fun out => ?_⟩
  · change execSafeMirrorRx s = _
    rw [execSafeMirrorRx, sent]
    exact if_pos in_
  · have run : exec .safeMirrorRx s = State.done ((f.events.foldl (fun s e => s.safeNote e) ((s.frameTaken f r).condOff 0x78 0xFFFF 0)).cond (f.st == 5)
        0x79 0xFFFF 0 (leBytes 1 f.last.code ++ leBytes 1 f.last.fn ++ leBytes 1 f.last.by_)) := by
      change execSafeMirrorRx s = _
      rw [execSafeMirrorRx, sent]
      exact if_neg out
    generalize leBytes 1 f.last.code ++ leBytes 1 f.last.fn ++ leBytes 1 f.last.by_ = args at run
    have taken : Keeps 33554432 s (s.frameTaken f r) := updSafe_keeps (by decide) (.refl _ s)
    have safe : (s.frameTaken f r).safe = { s.safe with sent := r, frame := f, frameAt := s.shortNow, frameMono := s.mono, stale := false, faultAt :=
      (if f.last = s.safe.frame.last then s.safe.faultAt else s.shortNow) } := rfl
    generalize s.frameTaken f r = u at *
    have faults := taken.faults (by decide)
    obtain ⟨firings, present⟩ := condOff_firings u 0x78 0xFFFF 0
    have left : Keeps 128 u (u.condOff 0x78 0xFFFF 0) := condOff_keeps (by decide) (.refl _ u)
    rw [faults] at firings present
    generalize u.condOff 0x78 0xFFFF 0 = v at *
    have noted : Keeps 8304 v (f.events.foldl (fun s e => s.safeNote e) v) := keeps_foldl (.refl _ v) fun _ _ => safeNote_keeps (by decide)
    have quiet : f.events = [] → f.events.foldl (fun s e => s.safeNote e) v = v := fun none => by rw [none]; rfl
    have faults' := noted.faults (by decide)
    rw [← faults'] at firings present
    generalize f.events.foldl (fun s e => s.safeNote e) v = w at *
    have ends : Keeps 8440 w (w.cond (f.st == 5) 0x79 0xFFFF 0 args) := cond_keeps (by decide) (.refl _ w)
    have off : f.st ≠ 5 → w.cond (f.st == 5) 0x79 0xFFFF 0 args = w.condOff 0x79 0xFFFF 0 := fun other => by
      rw [State.cond, if_neg (by rw [beq_iff_eq]; exact other)]
    refine ⟨_, run, only_of ((taken.weaken (by decide)).trans ((left.weaken (by decide)).trans ((noted.weaken (by decide)).trans (ends.weaken (by decide))))),
      ?_, fun lockout absent => ?_, fun other => ?_, fun other none => ?_⟩
    · rw [ends.safe (by decide), noted.safe (by decide), left.safe (by decide), safe]
    · have on : w.cond (f.st == 5) 0x79 0xFFFF 0 args = w.condOn 0x79 0xFFFF 0 args := by rw [State.cond, if_pos (by rw [lockout]; rfl)]
      rw [on]
      refine (condOn_fired w (by decide) ?_ args).from firings
      rw [List.contains_eq_mem, decide_eq_false_iff_not, present]
      exact fun h => absent h.1
    · rw [off other]
      obtain ⟨same, gone⟩ := condOff_firings w 0x79 0xFFFF 0
      exact ⟨same.trans firings, fun mem => ((gone _).1 mem).2 rfl⟩
    · rw [off other, quiet none]
      exact only_of (condOff_keeps (by decide) ((taken.weaken (by decide)).trans (left.weaken (by decide))))

theorem safeMirrorTimeout_lands (s : State) :
    let due := s.sys.stage ≠ .inReset ∧ s.safe.stale = false ∧ s.safe.frameMono + 80000000 ≤ s.mono
    (due → Lands (exec .safeMirrorTimeout s) fun e => Only [.todo, .hatch, .notif, .par, .faults, .pantry, .safe] s e ∧
      e.safe = { s.safe with stale := true } ∧ ({ src := 0x78, inst := 0xFFFF, sub := 0 } ∉ s.faults.present → s.Fired e 0x78)) ∧
    (¬ due → exec .safeMirrorTimeout s = .next s) := by
  refine ⟨fun ⟨out, fresh, late⟩ => ?_, fun early => if_pos ?_⟩
  · have run : exec .safeMirrorTimeout s = (((s.updSafe fun u => { u with stale := true }).note 0x0D 0x1406 []).condOn 0x78 0xFFFF 0 []).done := by
      refine if_neg fun h => ?_
      obtain in_ | stale | soon := h
      · exact out in_
      · exact Bool.noConfusion (fresh.symm.trans stale)
      · exact Bool.noConfusion (soon.symm.trans (elapsed_of_le (n := ms 10) late))
    have noted : Keeps 8304 (s.updSafe fun u => { u with stale := true }) ((s.updSafe fun u => { u with stale := true }).note 0x0D 0x1406 []) :=
      note_keeps (by decide) (.refl _ _)
    have all : Keeps 33562736 s ((s.updSafe fun u => { u with stale := true }).note 0x0D 0x1406 []) :=
      note_keeps (by decide) (updSafe_keeps (by decide) (.refl _ s))
    have safe := (noted.safe (by decide)).trans (updSafe_safe s _)
    have faults := all.faults (by decide)
    generalize (s.updSafe fun u => { u with stale := true }).note 0x0D 0x1406 [] = v at *
    refine ⟨_, run, only_of (condOn_keeps (by decide) (all.weaken (by decide))), ?_, fun absent => ?_⟩
    · rw [(condOn_keeps (M := 8440) (by decide) (.refl _ v)).safe (by decide), safe]
    · refine (condOn_fired v (by decide) ?_ []).from (congrArg Faults.firings faults)
      rw [List.contains_eq_mem, decide_eq_false_iff_not, faults]
      exact absent
  · by_contra none
    obtain ⟨out, others⟩ := not_or.1 none
    obtain ⟨fresh, late⟩ := not_or.1 others
    exact early ⟨out, Bool.eq_false_of_not_eq_true fresh, of_decide_eq_true (Bool.eq_true_of_not_eq_false late)⟩

/-! ### The permit line (R334, R540) -/

/-- A string as it was, but for what a plan keeps of it. -/
def State.KeepsStr (s t : State) (n : Nat) : Prop := t.str n = { s.str n with plan := (t.str n).plan } ∧ t.prt n = s.prt n

theorem State.KeepsStr.trans {s t u : State} {n : Nat} (h : s.KeepsStr t n) (k : t.KeepsStr u n) : s.KeepsStr u n := by
  obtain ⟨str, prt⟩ := h
  obtain ⟨str', prt'⟩ := k
  refine ⟨?_, prt'.trans prt⟩
  rw [str'] at *
  rw [str]

/-- The fall of the permit line at one string. -/
def State.permitFalls (s : State) (str : Nat) : State :=
  match (s.str str).st with
  | .starting => s.trip str 10 0xFFFF
  | .running => s.trip str 10 0xFFFF
  | .stopping => s.trip str 10 0xFFFF
  | .stopped => s
  | .tripped => s

theorem permitFalls_eq (s : State) (str : Nat) :
    s.permitFalls str = if (s.str str).st = .stopped ∨ (s.str str).st = .tripped then s else s.trip str 10 0xFFFF := by
  unfold State.permitFalls
  cases st : (s.str str).st with
  | stopped => exact (if_pos (.inl rfl)).symm
  | tripped => exact (if_pos (.inr rfl)).symm
  | starting => exact (if_neg (by decide)).symm
  | running => exact (if_neg (by decide)).symm
  | stopping => exact (if_neg (by decide)).symm

/-- What the fall leaves of a string of the list. -/
def State.Fallen (s t : State) (n : Nat) : Prop :=
  if (s.str n).st = .stopped ∨ (s.str n).st = .tripped then s.KeepsStr t n
  else (t.str n).st = .tripped ∧ (t.prt n).mask = 2 ^ 10 ∧ (t.prt n).first = 10

theorem permitFalls_spec (s : State) (str : Nat) : s.Fallen (s.permitFalls str) str ∧ ∀ n, n ≠ str → s.KeepsStr (s.permitFalls str) n := by
  rw [permitFalls_eq]
  unfold State.Fallen
  by_cases idle : (s.str str).st = .stopped ∨ (s.str str).st = .tripped
  · rw [if_pos idle, if_pos idle]
    exact ⟨⟨rfl, rfl⟩, fun _ _ => ⟨rfl, rfl⟩⟩
  · rw [if_neg idle, if_neg idle]
    obtain ⟨st, others, mask, first, -⟩ := trip_spec (s := s) (str := str) (fun tripped => idle (.inr tripped)) 10 0xFFFF
    exact ⟨⟨st, mask, first.trans (by decide)⟩, others⟩

/-- A string of the list has fallen, whatever the others do before and after it. -/
theorem permitFalls_foldl (ls : List Nat) (nodup : ls.Nodup) (s : State) :
    (∀ n ∈ ls, s.Fallen (ls.foldl State.permitFalls s) n) ∧ ∀ n, n ∉ ls → s.KeepsStr (ls.foldl State.permitFalls s) n := by
  induction ls generalizing s with
  | nil => exact ⟨fun n mem => (nomatch mem), fun n _ => ⟨rfl, rfl⟩⟩
  | cons a r ih =>
    obtain ⟨fresh, nodup⟩ := List.nodup_cons.1 nodup
    obtain ⟨fallen, kept⟩ := ih nodup (s.permitFalls a)
    obtain ⟨own, others⟩ := permitFalls_spec s a
    rw [List.foldl_cons]
    refine ⟨fun n mem => ?_, fun n out => ?_⟩
    · obtain rfl | later := List.mem_cons.1 mem
      · obtain ⟨str, prt⟩ := kept n fresh
        unfold State.Fallen at own ⊢
        refine ite_imp .rfl (fun _ same => same.trans ⟨str, prt⟩) (fun _ ⟨st, mask, first⟩ => ⟨?_, ?_, ?_⟩) own
        · rw [str]; exact st
        · rw [prt]; exact mask
        · rw [prt]; exact first
      · have other : n ≠ a := fun same => fresh (same ▸ later)
        obtain ⟨str, prt⟩ := others n other
        have st : ((s.permitFalls a).str n).st = (s.str n).st := by rw [str]
        have falls := fallen n later
        unfold State.Fallen at falls ⊢
        rw [st] at falls
        exact ite_imp .rfl (fun _ same => (others n other).trans same) (fun _ => id) falls
    · obtain ⟨first, later⟩ := not_or.1 (mt List.mem_cons.2 out)
      exact (others n first).trans (kept n later)

theorem safePermitLineChange_lands (s : State) (level : Bool) :
    (s.safe.line ≠ level ∨ s.safe.permit = level ∨ s.sys.stage = .inReset → exec (.safePermitLineChange level) s = .next s) ∧
    (s.safe.line = level → s.safe.permit ≠ level → s.sys.stage ≠ .inReset → Lands (exec (.safePermitLineChange level) s) fun e =>
      e.safe = { s.safe with permit := level } ∧
      if level = true then Only [.twin, .safe] s e
      else Only [.hatch, .notif, .par, .twin, .pantry, .links, .mod, .prot, .dt, .safe] s e ∧
        ∀ str < 16,
          if (s.str str).st = .stopped ∨ (s.str str).st = .tripped then e.str str = { s.str str with plan := (e.str str).plan } ∧ e.prt str = s.prt str
          else (e.str str).st = .tripped ∧ (e.prt str).mask = 2 ^ 10 ∧ (e.prt str).first = 10) := by
  refine ⟨fun stays => if_pos stays, fun follows new out => ?_⟩
  have goes : ¬ (s.safe.line ≠ level ∨ s.safe.permit = level ∨ s.sys.stage = .inReset) := by
    rintro (no | no | no)
    · exact no follows
    · exact new no
    · exact out no
  cases level with
  | true => exact ⟨_, (if_neg goes).trans (if_pos rfl), rfl, only_of (updTwin_keeps (by decide) (updSafe_keeps (by decide) (.refl _ s)))⟩
  | false =>
    have run : exec (.safePermitLineChange false) s = ((List.range 16).foldl State.permitFalls
      ((s.updSafe fun u => { u with permit := false }).updTwin fun t => { t with healthOwed := true })).done := (if_neg goes).trans (if_neg (by decide))
    have begun : Keeps 33556480 s ((s.updSafe fun u => { u with permit := false }).updTwin fun t => { t with healthOwed := true }) :=
      updTwin_keeps (by decide) (updSafe_keeps (by decide) (.refl _ s))
    have safe : ((s.updSafe fun u => { u with permit := false }).updTwin fun t => { t with healthOwed := true }).safe = { s.safe with permit := false } := rfl
    generalize (s.updSafe fun u => { u with permit := false }).updTwin _ = v at *
    have one : ∀ t n, Keeps 991344 v t → Keeps 991344 v (State.permitFalls t n) := fun t n h => by
      rw [permitFalls_eq]
      exact keeps_ite (fun _ => h) fun _ => trip_keeps (by decide) h
    have all : Keeps 991344 v ((List.range 16).foldl State.permitFalls v) := keeps_foldl (.refl _ v) one
    obtain ⟨fallen, -⟩ := permitFalls_foldl (List.range 16) List.nodup_range v
    refine ⟨_, run, (all.safe (by decide)).trans safe, only_of ((begun.weaken (by decide)).trans (all.weaken (by decide))), fun n small => ?_⟩
    have falls := fallen n (List.mem_range.2 small)
    unfold State.Fallen State.KeepsStr at falls
    rw [begun.str (by decide), begun.prt (by decide)] at falls
    exact falls

/-- Settles O49. -/
theorem safetyLockout : Obligations.SafetyLockout := by
  unfold Obligations.SafetyLockout
  refine ⟨fun s => ⟨safeClockCheck_next s, fun v => (safeSealCheck_next s v).mono fun t => And.imp_right (ite_imp .rfl (fun _ => id) fun _ => ?_),
    safeChannelExchange_next s, fun k r => (safeSelftest_next s k r).mono fun t => And.imp_right ?_, (safeEdmTimeout_next s).mono fun t => And.imp_right ?_,
    safeReadbackTimeout_next s, safeSupplyOut_next s, safeSupplyReturn_next s, safeStartDone_next s⟩,
    fun s => ⟨safeMirrorSend_next s, safeMirrorRx_empty, fun f r => safeMirrorRx_lands, safeMirrorTimeout_lands s, safePermitLineChange_lands s⟩⟩
  · cases s.safe.sealIn with
    | none => exact id
    | some w => exact id
  · cases k with
    | cpu => exact id
    | ram => exact id
    | rom => exact id
  · cases s.safe.edm with
    | none => exact id
    | some x => exact id

end Sys2Proof.Machine
end

section
/-!
PROOFS. The inputs of the safety island (R523, R526 to R534, R538, R539); and O48.
-/

namespace Sys2Proof.Machine

open Host

/-! ### A hand of the two-hand control (R530) -/

section
variable (u : SafeUnit) (m : Nat)

theorem SafeUnit.released_not_pressed {h : Nat} (small : h < 2) (pressed : u.pressed h = true) : (u.released 0 && u.released 1) = false := by
  have no : u.released h = false := by
    unfold SafeUnit.pressed at pressed
    unfold SafeUnit.released
    rw [Bool.and_eq_true] at pressed
    rw [pressed.1]
    rfl
  obtain rfl | rfl : h = 0 ∨ h = 1 := by omega
  · rw [no]; rfl
  · rw [no]; exact Bool.and_false _

/-- How far apart the changes of a hand's contacts lie. -/
def SafeUnit.apart (u : SafeUnit) (h : Nat) : Nat := max (u.at_ (8 + 2 * h)) (u.at_ (9 + 2 * h)) - min (u.at_ (8 + 2 * h)) (u.at_ (9 + 2 * h))

/-- What a change at a hand's contact does, case by case. -/
theorem SafeUnit.handEdge_cases {h : Nat} (small : h < 2) (live : u.live = true) (used : u.inUse 5 = true) :
    (u.released 0 = true → u.released 1 = true → u.handEdge m h = { u with hands := { armed := true } }) ∧
    (u.pressed h = true → 400000000 < u.apart h → u.handEdge m h = ({ u with hands := {} } : SafeUnit).fnFault m 3 5 3) ∧
    (u.pressed h = true → u.apart h ≤ 400000000 → u.hands.armed = true → u.released (1 - h) = true → u.hands.first = none →
      u.handEdge m h = { u with hands := { armed := true, first := some (h, m) } }) ∧
    (∀ a, u.pressed h = true → u.apart h ≤ 400000000 → u.hands = { armed := true, first := some (1 - h, a) } →
      u.handEdge m h = if m ≤ a + 4000000000 then ({ u with hands := {} } : SafeUnit).actuation m else ({ u with hands := {} } : SafeUnit).count 3) := by
  have works : ¬ (!u.live || !u.inUse 5) = true := by rw [live, used]; decide
  have presses : u.pressed h = true → u.handEdge m h = (
      if 400000000 < u.apart h then ({ u with hands := {} } : SafeUnit).fnFault m 3 5 3
      else
        match u.hands.armed, u.hands.first with
        | false, _ => u
        | true, none => if u.released (1 - h) then { u with hands := { armed := true, first := some (h, m) } } else { u with hands := {} }
        | true, some (k, t) =>
          if k = h then u
          else if m ≤ t + ms 500 then ({ u with hands := {} } : SafeUnit).actuation m
          else ({ u with hands := {} } : SafeUnit).count 3) := fun pressed =>
    (if_neg works).trans ((if_neg (ne_true_of_eq_false (u.released_not_pressed small pressed))).trans (if_pos pressed))
  refine ⟨fun first second => ?_, fun pressed far => ?_, fun pressed near armed other none => ?_, fun a pressed near hands => ?_⟩
  · exact (if_neg works).trans (if_pos (by rw [first, second]; rfl))
  · rw [presses pressed, if_pos far]
  · rw [presses pressed, if_neg (Nat.not_lt.2 near), armed, none]
    exact if_pos other
  · rw [presses pressed, if_neg (Nat.not_lt.2 near), hands]
    exact if_neg (by omega)

/-- A change at a hand's contact leaves the levels and the demands. -/
theorem SafeUnit.handEdge_kept (h : Nat) : (u.handEdge m h).level = u.level ∧ (u.handEdge m h).since = u.since ∧
    (u.handEdge m h).demand = u.demand := by
  have fault : (({ u with hands := {} } : SafeUnit).fnFault m 3 5 3).level = u.level ∧ (({ u with hands := {} } : SafeUnit).fnFault m 3 5 3).since = u.since ∧
      (({ u with hands := {} } : SafeUnit).fnFault m 3 5 3).demand = u.demand := by
    obtain ⟨-, -, level, since, -, demand, -⟩ := ({ u with hands := {} } : SafeUnit).fnFault_kept m 3 5 3
    exact ⟨level, since, demand⟩
  have granted : (({ u with hands := {} } : SafeUnit).actuation m).level = u.level ∧ (({ u with hands := {} } : SafeUnit).actuation m).since = u.since ∧
      (({ u with hands := {} } : SafeUnit).actuation m).demand = u.demand := by
    unfold SafeUnit.actuation
    split
    · obtain ⟨-, level, since, demand, -⟩ := ({ u with hands := {} } : SafeUnit).grant_kept m .permit
      exact ⟨level, since, demand⟩
    · exact ⟨rfl, rfl, rfl⟩
  unfold SafeUnit.handEdge
  dsimp only
  split
  · exact ⟨rfl, rfl, rfl⟩
  split
  · exact ⟨rfl, rfl, rfl⟩
  split
  · split
    · exact fault
    split
    · exact ⟨rfl, rfl, rfl⟩
    · split
      · exact ⟨rfl, rfl, rfl⟩
      · exact ⟨rfl, rfl, rfl⟩
    · split
      · exact ⟨rfl, rfl, rfl⟩
      split
      · exact granted
      · exact ⟨rfl, rfl, rfl⟩
  · exact ⟨rfl, rfl, rfl⟩

theorem SafeUnit.actuation_spec (used : u.sw 3 = true) :
    (u.st = (if u.sw 5 then .stopped else .ready) → u.mayGrant m .permit = true →
      (u.actuation m).st = .permit ∧ (u.actuation m).line = true ∧ (u.actuation m).edm = some (m, false)) ∧
    (u.st ≠ (if u.sw 5 then .stopped else .ready) ∨ u.mayGrant m .permit = false → (u.actuation m).st = u.st) := by
  have asked : (u.sw 3 && ((decide (u.st = .ready) && !u.sw 5) || (decide (u.st = .stopped) && u.sw 5))) = true ↔
      u.st = (if u.sw 5 then .stopped else .ready) := by
    rw [used]
    cases u.sw 5 with
    | true => simp
    | false => simp
  unfold SafeUnit.actuation
  refine ⟨fun st may => ?_, fun no => ?_⟩
  · rw [if_pos (asked.2 st)]
    obtain ⟨st, line, edm⟩ := u.grant_spec m may (.inr rfl)
    exact ⟨st, line, edm rfl⟩
  · split
    · rename_i yes
      rw [u.grant_refused m (no.resolve_left fun other => other (asked.1 yes))]
    · rfl

theorem SafeUnit.actuation_hands : (u.actuation m).hands = u.hands := by
  unfold SafeUnit.actuation
  split
  · exact (u.grant_kept m .permit).2.2.2.2.1
  · rfl

end

/-! ### The levels (R526) -/

/-- What the statement says of a stop. -/
def SafeUnit.Stops (u v : SafeUnit) (m : Nat) : Prop :=
  v.inhibitOn = false ∧ if u.inhibitOn = true then v.st = .stopped ∧ v.pPermit = false ∧ v.hPermit = false ∧ v.offAt = m else v.st = u.st

theorem SafeUnit.Stopped.stops' {u v : SafeUnit} {m : Nat} (h : u.Stopped v m) : u.Stops v m := by
  refine ⟨h.off, ?_⟩
  split
  · exact h.stops ‹_›
  · exact h.stays (Bool.eq_false_of_not_eq_true ‹_›)

/-- The island with a new level. -/
def SafeUnit.levelled (u : SafeUnit) (i : Nat) (level : Bool) (m : Nat) : SafeUnit :=
  { u with level := u.level.set i level, since := u.since.set i m,
           press := if i = 14 ∧ level = false then some (m - u.at_ 14) else u.press }

/-- The check of the EDM inputs at a new level. -/
def SafeUnit.edmChecked (v : SafeUnit) (i m : Nat) : SafeUnit :=
  match v.edm with
  | some (t, want) => if 15 ≤ i ∧ v.lev 15 = want ∧ v.lev 16 = want ∧ m ≤ t + ms 100 then { v with edm := none } else v
  | none => v

theorem SafeUnit.edmChecked_eq (v : SafeUnit) (i m : Nat) : v.edmChecked i m = { v with edm := (v.edmChecked i m).edm } := by
  unfold SafeUnit.edmChecked
  split
  · split <;> rfl
  · rfl

theorem SafeUnit.edmChecked_edm (v : SafeUnit) (i m : Nat) : (v.edmChecked i m).edm = match v.edm with
    | some (a, w) => if 15 ≤ i ∧ v.lev 15 = w ∧ v.lev 16 = w ∧ m ≤ a + 800000000 then none else v.edm
    | none => none := by
  unfold SafeUnit.edmChecked
  cases edm : v.edm with
  | none => exact edm
  | some x =>
    dsimp only
    by_cases back : 15 ≤ i ∧ v.lev 15 = x.2 ∧ v.lev 16 = x.2 ∧ m ≤ x.1 + 800000000
    · rw [if_pos back]
      exact congrArg SafeUnit.edm (if_pos back)
    · rw [if_neg back]
      exact (congrArg SafeUnit.edm (if_neg back)).trans edm

theorem SafeUnit.edmChecked_of_small (v : SafeUnit) {i : Nat} (small : i < 15) (m : Nat) : v.edmChecked i m = v := by
  unfold SafeUnit.edmChecked
  split
  · exact if_neg fun h => absurd h.1 (by omega)
  · rfl

theorem safeInputEdge_run {s : State} {i : Fin 17} {level : Bool} (new : s.safe.lev i ≠ level) : exec (.safeInputEdge i level) s =
    .next (s.modSafe fun u m => if 8 ≤ i.val ∧ i.val < 12 then ((u.levelled i level m).edmChecked i m).handEdge m ((i.val - 8) / 2)
      else (u.levelled i level m).edmChecked i m) := if_neg new

theorem safeInputEdge_next (s : State) (i : Fin 17) (level : Bool) : Next (exec (.safeInputEdge i level) s) fun t => Only [.safe] s t ∧
    if s.safe.lev i = level then t = s
    else
      let u := s.safe
      let v := { u with level := u.level.set i level, since := u.since.set i s.mono }
      t.safe.lev i = level ∧ t.safe.at_ i = s.mono ∧ (∀ j, j ≠ i.val → t.safe.lev j = u.lev j ∧ t.safe.at_ j = u.at_ j) ∧
      t.safe.demand = u.demand ∧
      (i.val < 8 ∨ 12 ≤ i.val → t.safe.st = u.st ∧ t.safe.fault = u.fault ∧ t.safe.hands = u.hands ∧
        (i = 14 → level = false → t.safe.press = some (s.mono - u.at_ 14)) ∧
        t.safe.edm = match u.edm with
          | some (a, w) => if 15 ≤ i.val ∧ v.lev 15 = w ∧ v.lev 16 = w ∧ s.mono ≤ a + 800000000 then none else u.edm
          | none => none) ∧
      (8 ≤ i.val → i.val < 12 → u.live = true → u.inUse 5 = true →
        let h := (i.val - 8) / 2
        let apart := max (v.at_ (8 + 2 * h)) (v.at_ (9 + 2 * h)) - min (v.at_ (8 + 2 * h)) (v.at_ (9 + 2 * h))
        (v.released 0 = true → v.released 1 = true → t.safe.hands = { armed := true } ∧ t.safe.st = u.st) ∧
        (v.pressed h = true → 400000000 < apart → bit u.fault 5 = false → bit t.safe.fault 5 = true ∧ t.safe.last.code = 3 ∧ u.Stops t.safe s.mono) ∧
        (v.pressed h = true → apart ≤ 400000000 → u.hands.armed = true → v.released (1 - h) = true → u.hands.first = none →
          t.safe.hands = { armed := true, first := some (h, s.mono) } ∧ t.safe.st = u.st) ∧
        (∀ a, v.pressed h = true → apart ≤ 400000000 → u.hands = { armed := true, first := some (1 - h, a) } → t.safe.hands = {} ∧
          if s.mono ≤ a + 4000000000 then
            (u.st = (if u.sw 5 then .stopped else .ready) → v.mayGrant s.mono .permit = true →
              t.safe.st = .permit ∧ t.safe.line = true ∧ t.safe.edm = some (s.mono, false)) ∧
            (u.st ≠ (if u.sw 5 then .stopped else .ready) ∨ v.mayGrant s.mono .permit = false → t.safe.st = u.st)
          else t.safe.st = u.st ∧ t.safe.fault = u.fault)) := by
  by_cases same : s.safe.lev i = level
  · exact ⟨s, if_pos same, fun p _ => by cases p <;> rfl, by rw [if_pos same]⟩
  refine ⟨_, safeInputEdge_run same, modSafe_only s _, ?_⟩
  rw [if_neg same, State.modSafe, updSafe_safe]
  dsimp only
  generalize hu : s.safe = u at *
  generalize s.mono = m
  have level_ : (u.levelled i level m).level = u.level.set i level ∧ (u.levelled i level m).since = u.since.set i m := ⟨rfl, rfl⟩
  have tables : ∀ x : SafeUnit, x.level = u.level.set i level → x.since = u.since.set i m →
      x.lev i = level ∧ x.at_ i = m ∧ ∀ j, j ≠ i.val → x.lev j = u.lev j ∧ x.at_ j = u.at_ j := fun x lev at_ => by
    unfold SafeUnit.lev SafeUnit.at_
    rw [lev, at_]
    exact ⟨Tab.get_set .., Tab.get_set .., fun j other => ⟨Tab.get_set_ne _ _ other _, Tab.get_set_ne _ _ other _⟩⟩
  by_cases hand : 8 ≤ i.val ∧ i.val < 12
  · rw [if_pos hand, SafeUnit.edmChecked_of_small _ (by omega)]
    have small : (i.val - 8) / 2 < 2 := by omega
    generalize (i.val - 8) / 2 = h at *
    obtain ⟨lev, since, demand⟩ := (u.levelled i level m).handEdge_kept m h
    obtain ⟨own, at_, others⟩ := tables _ (lev.trans level_.1) (since.trans level_.2)
    refine ⟨own, at_, others, demand, fun out => absurd hand (by omega), fun _ _ live used => ?_⟩
    obtain ⟨both, far, first, second⟩ := (u.levelled i level m).handEdge_cases m small live used
    refine ⟨fun r0 r1 => ?_, fun pressed away clear => ?_, fun pressed near armed other none => ?_, fun a pressed near hands => ?_⟩
    · rw [both r0 r1]
      exact ⟨rfl, rfl⟩
    · rw [far pressed away]
      have new : ({ (u.levelled i level m) with hands := {} } : SafeUnit).faultNew 5 := ⟨live, used, clear⟩
      obtain ⟨fault, code, -, -, stopped⟩ := SafeUnit.fnFault_spec _ m new 3 3
      exact ⟨by rw [fault]; exact bit_setBit .., code, stopped.stops'⟩
    · rw [first pressed near armed other none]
      exact ⟨rfl, rfl⟩
    · rw [second a pressed near hands]
      split
      · obtain ⟨grants, refuses⟩ := SafeUnit.actuation_spec ({ (u.levelled i level m) with hands := {} } : SafeUnit) m used
        exact ⟨SafeUnit.actuation_hands .., grants, refuses⟩
      · exact ⟨rfl, rfl, rfl⟩
  · rw [if_neg hand]
    have eq := (u.levelled i level m).edmChecked_eq i m
    have edm := (u.levelled i level m).edmChecked_edm i m
    generalize (u.levelled i level m).edmChecked i m = w at *
    obtain ⟨own, at_, others⟩ := tables w (by rw [eq]; exact level_.1) (by rw [eq]; exact level_.2)
    refine ⟨own, at_, others, by rw [eq]; rfl, fun _ => ⟨by rw [eq]; rfl, by rw [eq]; rfl, by rw [eq]; rfl, fun reset low => ?_, edm⟩,
      fun low high => absurd ⟨low, high⟩ hand⟩
    rw [eq]
    exact if_pos ⟨congrArg Fin.val reset, low⟩

end Sys2Proof.Machine
end

section
/-!
PROOFS. The demands, the timers and the grants of the safety island (R527 to R534, R538, R539); and O48.
-/

namespace Sys2Proof.Machine

open Host

theorem modSafe_safe_of {s : State} {f : SafeUnit → Nat → SafeUnit} {v : SafeUnit} (same : f s.safe s.mono = v) : (s.modSafe f).safe = v := same

/-! ### Demands and timers (R528 to R530) -/

theorem safeDemandFilter_next (s : State) (i : Fin 14) : Next (exec (.safeDemandFilter i) s) fun t => Only [.safe] s t ∧
    if s.safe.live = true ∧ safeFn i ≠ 5 ∧ s.safe.inUse (safeFn i) = true ∧ s.safe.inDemand i s.mono = true then
      bit t.safe.demand (safeFn i) = true ∧
      (s.safe.inDemand (safePair (safeFn i)).1 s.mono = true → s.safe.inDemand (safePair (safeFn i)).2 s.mono = true → bit s.safe.fault (safeFn i) = true →
        bit t.safe.together (safeFn i) = true) ∧
      if bit s.safe.demand (safeFn i) = true then t.safe.demand = s.safe.demand ∧ t.safe.st = s.safe.st
      else s.safe.Stops t.safe s.mono ∧ bit t.safe.cause (safeFn i) = true
    else t = s := by
  change Next (execSafeDemandFilter i s) _
  unfold execSafeDemandFilter
  generalize safeFn i = fn
  dsimp only
  split
  · rename_i waits
    have early : ¬ (s.safe.live = true ∧ fn ≠ 5 ∧ s.safe.inUse fn = true ∧ s.safe.inDemand i s.mono = true) := by
      rintro ⟨live, other, used, low⟩
      obtain no | no | no | no := waits
      · exact Bool.noConfusion (no.symm.trans live)
      · exact other no
      · exact Bool.noConfusion (no.symm.trans used)
      · exact Bool.noConfusion (no.symm.trans low)
    exact (stays_next s).mono fun t => And.imp_right fun same => by rw [if_neg early]; exact same
  rename_i works
  have due : s.safe.live = true ∧ fn ≠ 5 ∧ s.safe.inUse fn = true ∧ s.safe.inDemand i s.mono = true := by
    rw [not_or, not_or, not_or, Bool.not_eq_false, Bool.not_eq_false, Bool.not_eq_false] at works
    exact works
  refine ⟨_, rfl, modSafe_only s _, ?_⟩
  rw [if_pos due, State.modSafe, updSafe_safe]
  generalize hv : (if (s.safe.inDemand (safePair fn).1 s.mono && s.safe.inDemand (safePair fn).2 s.mono) && bit s.safe.fault fn then
    { s.safe with together := setBit s.safe.together fn true } else s.safe) = v
  have eq : v = { s.safe with together := v.together } := by
    rw [← hv]
    split <;> rfl
  have together : s.safe.inDemand (safePair fn).1 s.mono = true → s.safe.inDemand (safePair fn).2 s.mono = true → bit s.safe.fault fn = true →
      bit v.together fn = true := fun first second fault => by
    rw [← hv, if_pos (by rw [first, second, fault]; rfl)]
    exact bit_setBit ..
  have demand : v.demand = s.safe.demand := by rw [eq]
  by_cases known : bit s.safe.demand fn = true
  · rw [if_pos (by rw [demand]; exact known), if_pos known]
    exact ⟨by rw [demand]; exact known, together, demand, by rw [eq]⟩
  · rw [if_neg (by rw [demand]; exact known), if_neg known]
    have asked : (({ v with demand := setBit v.demand fn true } : SafeUnit).count 0).inhibitOn = s.safe.inhibitOn ∧
        (({ v with demand := setBit v.demand fn true } : SafeUnit).count 0).st = s.safe.st := by
      rw [eq]
      exact ⟨rfl, rfl⟩
    obtain ⟨off, stops, stays⟩ := (({ v with demand := setBit v.demand fn true } : SafeUnit).count 0).stop_stopped s.mono
    obtain ⟨p, h, d, b, o, e, c, ev, st, stop⟩ := (({ v with demand := setBit v.demand fn true } : SafeUnit).count 0).stop_eq s.mono
    rw [asked.1] at stops stays
    rw [asked.2] at stays
    generalize hw : (({ v with demand := setBit v.demand fn true } : SafeUnit).count 0).stop s.mono = w at *
    refine ⟨?_, fun first second fault => ?_, SafeUnit.Stopped.stops' (v := { w with cause := setBit w.cause fn true, events := w.events ++ [.demand w.demand] })
      ⟨off, stops, stays⟩, bit_setBit ..⟩
    · change bit w.demand fn = true
      rw [stop]
      exact bit_setBit ..
    · change bit w.together fn = true
      rw [stop]
      exact together first second fault

/-- What the statement says of a fault of a function. -/
def FaultsOnce (s t : State) (fn code : Nat) : Prop :=
  if s.safe.live = true ∧ s.safe.inUse fn = true ∧ bit s.safe.fault fn = false then
    bit t.safe.fault fn = true ∧ t.safe.last.code = code ∧ t.safe.last.fn = 2 ^ fn ∧ t.safe.last.by_ = 3 ∧ s.safe.Stops t.safe s.mono
  else t.safe = s.safe

theorem fnFault_next (s : State) (fn code : Nat) : Next (.next (s.modSafe fun u m => u.fnFault m code fn 3)) fun t => Only [.safe] s t ∧
    FaultsOnce s t fn code := by
  refine ⟨_, rfl, modSafe_only s _, ?_⟩
  unfold FaultsOnce
  rw [State.modSafe, updSafe_safe]
  split
  · rename_i new
    obtain ⟨fault, code_, fn_, by_, stopped⟩ := s.safe.fnFault_spec s.mono new code 3
    exact ⟨by rw [fault]; exact bit_setBit .., code_, fn_, by_, stopped.stops'⟩
  · rename_i old
    exact s.safe.fnFault_old s.mono old code 3

theorem safeDiscrepancyTimeout_next (s : State) (k : Fin 5) : Next (exec (.safeDiscrepancyTimeout k) s) fun t => Only [.safe] s t ∧
    if s.safe.lev (safePair k).1 ≠ s.safe.lev (safePair k).2 ∧
      max (s.safe.at_ (safePair k).1) (s.safe.at_ (safePair k).2) + (if k = 4 then 160000000 else 800000000) < s.mono then FaultsOnce s t k 1
    else t = s := by
  have time : (if k.val = 4 then ms 20 else ms 100) = if k = 4 then 160000000 else 800000000 := if_congr (by rw [Fin.ext_iff]; rfl) rfl rfl
  change Next (execSafeDiscrepancyTimeout k s) _
  unfold execSafeDiscrepancyTimeout
  dsimp only
  rw [time]
  generalize (if k = 4 then 160000000 else 800000000) = n
  split
  · exact fnFault_next s k 1
  · exact stays_next s

theorem safeThcPairTimeout_next (s : State) (h : Fin 2) : Next (exec (.safeThcPairTimeout h) s) fun t => Only [.safe] s t ∧
    if s.safe.pressed h = false ∧ s.safe.released h = false ∧ max (s.safe.at_ (8 + 2 * h)) (s.safe.at_ (9 + 2 * h)) + 400000000 < s.mono then
      FaultsOnce s t 5 3
    else t = s := by
  change Next (execSafeThcPairTimeout h s) _
  unfold execSafeThcPairTimeout
  dsimp only
  by_cases done : s.safe.pressed h = true ∨ s.safe.released h = true
  · rw [if_pos done]
    refine (stays_next s).mono fun t => And.imp_right fun same => ?_
    rw [if_neg fun ⟨p, r, _⟩ => done.elim (fun yes => Bool.noConfusion (p.symm.trans yes)) fun yes => Bool.noConfusion (r.symm.trans yes)]
    exact same
  · obtain ⟨p, r⟩ := not_or.1 done
    rw [if_neg done]
    by_cases late : max (s.safe.at_ (8 + 2 * h)) (s.safe.at_ (9 + 2 * h)) + ms 50 < s.mono
    · rw [if_pos late]
      refine (fnFault_next s 5 3).mono fun t => And.imp_right fun once => ?_
      rw [if_pos ⟨Bool.eq_false_of_not_eq_true p, Bool.eq_false_of_not_eq_true r, late⟩]
      exact once
    · rw [if_neg late]
      refine (stays_next s).mono fun t => And.imp_right fun same => ?_
      rw [if_neg fun h => late h.2.2]
      exact same

/-! ### A test pulse (R527) -/

section
variable (m : Nat)

/-- A fault of a function leaves an island whose outputs are off off, as it was. -/
theorem SafeUnit.fnFault_of_off {u : SafeUnit} (off : u.inhibitOn = false) (code fn by_ : Nat) : (u.fnFault m code fn by_).st = u.st ∧
    (u.fnFault m code fn by_).pPermit = u.pPermit ∧ (u.fnFault m code fn by_).hPermit = u.hPermit ∧ (u.fnFault m code fn by_).offAt = u.offAt ∧
    (u.fnFault m code fn by_).inhibitOn = false := by
  by_cases new : u.faultNew fn
  · rw [u.fnFault_new m new, SafeUnit.stop_of_off (u.faulted m code fn by_) m off]
    exact ⟨rfl, rfl, rfl, rfl, off⟩
  · rw [u.fnFault_old m new]
    exact ⟨rfl, rfl, rfl, rfl, off⟩

/-- The faults of several functions. -/
def SafeUnit.fnFaults (u : SafeUnit) (m : Nat) (l : List Nat) : SafeUnit := l.foldl (fun v fn => v.fnFault m 2 fn 3) u

theorem SafeUnit.fnFault_live {u : SafeUnit} (code fn by_ : Nat) (live : u.live = true) : (u.fnFault m code fn by_).live = true := by
  by_cases new : u.faultNew fn
  · obtain ⟨-, -, -, -, stopped⟩ := u.fnFault_spec m new code by_
    rw [SafeUnit.live, Bool.and_eq_true, decide_eq_true_iff] at live ⊢
    refine ⟨(u.fnFault_kept m code fn by_).1.trans live.1, fun unused => ?_⟩
    cases on : u.inhibitOn with
    | true => exact absurd ((stopped.stops on).1.symm.trans unused) (by decide)
    | false => exact live.2 ((stopped.stays on).symm.trans unused)
  · rw [u.fnFault_old m new]
    exact live

theorem SafeUnit.inUse_congr {u v : SafeUnit} (same : v.sealIn = u.sealIn) (fn : Nat) : v.inUse fn = u.inUse fn := by
  unfold SafeUnit.inUse SafeUnit.sw
  rw [same]

/-- What the faults of several functions leave, and which they are. -/
theorem SafeUnit.fnFaults_spec (l : List Nat) (u : SafeUnit) (live : u.live = true) :
    (u.fnFaults m l).pulse = u.pulse ∧ (u.fnFaults m l).demand = u.demand ∧
    (∀ fn, bit (u.fnFaults m l).fault fn = true ↔ bit u.fault fn = true ∨ (u.inUse fn = true ∧ fn ∈ l)) ∧
    (u.inhibitOn = false → (u.fnFaults m l).st = u.st ∧ (u.fnFaults m l).pPermit = u.pPermit ∧ (u.fnFaults m l).hPermit = u.hPermit ∧
      (u.fnFaults m l).offAt = u.offAt ∧ (u.fnFaults m l).inhibitOn = false) ∧
    ((∃ fn ∈ l, bit u.fault fn = false ∧ u.inUse fn = true) → u.Stopped (u.fnFaults m l) m ∧ (u.fnFaults m l).last.code = 2) ∧
    ((∀ fn ∈ l, bit u.fault fn = true ∨ u.inUse fn = false) → u.fnFaults m l = u) := by
  induction l generalizing u with
  | nil => exact ⟨rfl, rfl, fun fn => ⟨.inl, fun h => h.elim id fun no => nomatch no.2⟩, fun off => ⟨rfl, rfl, rfl, rfl, off⟩,
      fun ⟨_, mem, _⟩ => (nomatch mem), fun _ => rfl⟩
  | cons a r ih =>
    have step : u.fnFaults m (a :: r) = (u.fnFault m 2 a 3).fnFaults m r := rfl
    rw [step]
    by_cases new : u.faultNew a
    · obtain ⟨pulse, demand, faults, quiet, some_, none_⟩ := ih (u.fnFault m 2 a 3) (SafeUnit.fnFault_live m 2 a 3 live)
      obtain ⟨-, sealed, -, -, pulse', demand', -⟩ := u.fnFault_kept m 2 a 3
      have use := SafeUnit.inUse_congr sealed
      obtain ⟨fault, code, -, -, stopped⟩ := u.fnFault_spec m new 2 3
      have off := SafeUnit.fnFault_of_off m (u := u) (code := 2) (fn := a) (by_ := 3)
      generalize u.fnFault m 2 a 3 = v at *
      obtain ⟨st, pp, hp, at_, stays⟩ := quiet stopped.off
      refine ⟨pulse.trans pulse', demand.trans demand', fun fn => ?_, fun out => ?_, fun _ => ⟨⟨stays, fun on => ?_, fun out => ?_⟩, ?_⟩, fun none => ?_⟩
      · rw [faults, use, fault, List.mem_cons]
        by_cases own : fn = a
        · subst own
          rw [bit_setBit]
          exact ⟨fun _ => .inr ⟨new.2.1, .inl rfl⟩, fun _ => .inl rfl⟩
        · rw [bit_setBit_ne _ own]
          simp only [own, false_or]
      · obtain ⟨st', pp', hp', at', -⟩ := off out
        exact ⟨st.trans st', pp.trans pp', hp.trans hp', at_.trans at', stays⟩
      · obtain ⟨st', pp', hp', at'⟩ := stopped.stops on
        exact ⟨st.trans st', pp.trans pp', hp.trans hp', at_.trans at'⟩
      · exact st.trans (stopped.stays out)
      · by_cases more : ∃ fn ∈ r, bit v.fault fn = false ∧ v.inUse fn = true
        · exact (some_ more).2
        · rw [none_ fun fn mem => ?_, code]
          by_contra neither
          obtain ⟨clear, used⟩ := not_or.1 neither
          exact more ⟨fn, mem, Bool.eq_false_of_not_eq_true clear, Bool.eq_true_of_not_eq_false used⟩
      · exact absurd new fun h => (none a List.mem_cons_self).elim (fun yes => Bool.noConfusion (h.2.2.symm.trans yes))
          fun no => Bool.noConfusion (h.2.1.symm.trans no)
    · rw [u.fnFault_old m new]
      obtain ⟨pulse, demand, faults, quiet, some_, none_⟩ := ih u live
      have old : u.inUse a = true → bit u.fault a = true := fun used => by
        by_contra clear
        exact new ⟨live, used, Bool.eq_false_of_not_eq_true clear⟩
      refine ⟨pulse, demand, fun fn => ?_, quiet, fun ⟨fn, mem, clear, used⟩ => some_ ?_, fun none => none_ fun fn mem => none fn (List.mem_cons_of_mem a mem)⟩
      · rw [faults, List.mem_cons]
        refine ⟨fun h => h.imp_right fun ⟨used, mem⟩ => ⟨used, .inr mem⟩, fun h => ?_⟩
        obtain faulty | ⟨used, rfl | mem⟩ := h
        · exact .inl faulty
        · exact .inl (old used)
        · exact .inr ⟨used, mem⟩
      · obtain rfl | later := List.mem_cons.1 mem
        · exact Bool.noConfusion (clear.symm.trans (old used))
        · exact ⟨fn, later, clear, used⟩

end

theorem mem_pulseFails (u : SafeUnit) (out own cross fn : Nat) : fn ∈ u.pulseFails out own cross ↔ ∃ i < 12, safeFn i = fn ∧ u.lev i = true ∧
    (i % 2 = out ∧ bit own i = false ∨ i % 2 ≠ out ∧ bit cross i = true) := by
  unfold SafeUnit.pulseFails
  rw [List.mem_map]
  simp only [List.mem_filter, List.mem_range]
  refine exists_congr fun i => ⟨fun ⟨⟨small, fails⟩, own⟩ => ⟨small, own, ?_⟩, fun ⟨small, own, fails⟩ => ⟨⟨small, ?_⟩, own⟩⟩
  all_goals
    have feed : safeFeed i = some out ↔ i % 2 = out := by rw [safeFeed, if_pos small, Option.some.injEq]
  · by_cases here : i % 2 = out
    · rw [if_pos (feed.2 here), Bool.and_eq_true, Bool.not_eq_true'] at fails
      exact ⟨fails.1, .inl ⟨here, fails.2⟩⟩
    · rw [if_neg (mt feed.1 here), Bool.and_eq_true] at fails
      exact ⟨fails.1, .inr ⟨here, fails.2⟩⟩
  · obtain ⟨closed, ⟨here, clear⟩ | ⟨there, shows⟩⟩ := fails
    · rw [if_pos (feed.2 here), closed, clear]
      rfl
    · rw [if_neg (mt feed.1 there), closed, shows]
      rfl

theorem safeTestPulse_next (s : State) (o : Fin 2) (own cross : BitVec 17) : Next (exec (.safeTestPulse o own cross) s) fun t => Only [.safe] s t ∧
    if s.safe.live = true ∧ s.safe.sw 6 = true then
      let fails := fun fn => ∃ i < 12, safeFn i = fn ∧ s.safe.lev i = true ∧
        (i % 2 = o.val ∧ bit own.toNat i = false ∨ i % 2 ≠ o.val ∧ bit cross.toNat i = true)
      t.safe.pulse = s.safe.pulse.set o s.mono ∧ t.safe.demand = s.safe.demand ∧
      (∀ fn < 6, bit t.safe.fault fn = true ↔ bit s.safe.fault fn = true ∨ (s.safe.inUse fn = true ∧ fails fn)) ∧
      ((∃ fn < 6, bit s.safe.fault fn = false ∧ s.safe.inUse fn = true ∧ fails fn) → s.safe.Stops t.safe s.mono ∧ t.safe.last.code = 2) ∧
      ((∀ fn < 6, bit s.safe.fault fn = true ∨ s.safe.inUse fn = false ∨ ¬ fails fn) → t.safe = { s.safe with pulse := s.safe.pulse.set o s.mono })
    else t = s := by
  change Next (execSafeTestPulse o own cross s) _
  unfold execSafeTestPulse
  split
  · rename_i waits
    refine (stays_next s).mono fun t => And.imp_right fun same => ?_
    rw [if_neg fun h => waits.elim (fun no => Bool.noConfusion (no.symm.trans h.1)) fun no => Bool.noConfusion (no.symm.trans h.2)]
    exact same
  rename_i works
  obtain ⟨live, test⟩ := not_or.1 works
  have live : s.safe.live = true := Bool.eq_true_of_not_eq_false live
  refine ⟨_, rfl, modSafe_only s _, ?_⟩
  rw [if_pos ⟨live, Bool.eq_true_of_not_eq_false test⟩]
  have safe : (s.modSafe fun u m => (u.pulseFails o own.toNat cross.toNat).foldl (fun v fn => v.fnFault m 2 fn 3) { u with pulse := u.pulse.set o m }).safe =
    ({ s.safe with pulse := s.safe.pulse.set o s.mono } : SafeUnit).fnFaults s.mono (s.safe.pulseFails o own.toNat cross.toNat) := rfl
  dsimp only at safe ⊢
  rw [safe]
  obtain ⟨pulse, demand, faults, -, some_, none_⟩ :=
    SafeUnit.fnFaults_spec s.mono (s.safe.pulseFails o own.toNat cross.toNat) { s.safe with pulse := s.safe.pulse.set o s.mono } live
  have known : ∀ fn ∈ s.safe.pulseFails o own.toNat cross.toNat, fn < 6 := fun fn mem => by
    obtain ⟨i, small, rfl, -⟩ := (mem_pulseFails ..).1 mem
    interval_cases i <;> decide
  refine ⟨pulse, demand, fun fn _ => (faults fn).trans (or_congr_right (and_congr_right' (mem_pulseFails ..))), fun ⟨fn, small, clear, used, fails⟩ => ?_, fun none => ?_⟩
  · obtain ⟨⟨off, stops, stays⟩, code⟩ := some_ ⟨fn, (mem_pulseFails ..).2 fails, clear, used⟩
    exact ⟨SafeUnit.Stopped.stops' ⟨off, stops, stays⟩, code⟩
  · refine none_ fun fn mem => ?_
    obtain faulty | idle | passes := none fn (known fn mem)
    · exact .inl faulty
    · exact .inr idle
    · exact absurd ((mem_pulseFails ..).1 mem) passes

/-! ### The end of a demand, the reset and the curtain (R531, R533, R534) -/

theorem safeFunctionPermitFilter_next (s : State) (fn : Fin 6) : Next (exec (.safeFunctionPermitFilter fn) s) fun t => Only [.safe] s t ∧
    t.safe.st = s.safe.st ∧
    if s.safe.live = true ∧ (if fn = 5 then s.safe.released 0 = true ∧ s.safe.released 1 = true
        else s.safe.lev (safePair fn).1 = true ∧ s.safe.lev (safePair fn).2 = true ∧
          max (s.safe.at_ (safePair fn).1) (s.safe.at_ (safePair fn).2) + (if fn = 4 then 3200000 else 1600000) ≤ s.mono) then
      bit t.safe.fault fn = (if fn = 5 then false else bit s.safe.fault fn && !bit s.safe.together fn) ∧ (fn ≠ 5 → bit t.safe.demand fn = false) ∧
      ∀ k < 6, k ≠ fn.val → bit t.safe.fault k = bit s.safe.fault k ∧ bit t.safe.demand k = bit s.safe.demand k
    else t = s := by
  have five : fn = 5 ↔ fn.val = 5 := by rw [Fin.ext_iff]; rfl
  have time : (if fn = 4 then 3200000 else 1600000) = if fn.val = 4 then us 400 else us 200 := if_congr (by rw [Fin.ext_iff]; rfl) rfl rfl
  have stays : Next (.next s) fun t => Only [.safe] s t ∧ t.safe.st = s.safe.st ∧ t = s := ⟨s, rfl, fun p _ => by cases p <;> rfl, rfl, rfl⟩
  change Next (execSafeFunctionPermitFilter fn s) _
  unfold execSafeFunctionPermitFilter
  dsimp only
  rw [time]
  by_cases dead : s.safe.live = false
  · rw [if_pos dead]
    refine stays.mono fun t => And.imp_right (And.imp_right fun same => ?_)
    rw [if_neg fun h => Bool.noConfusion (dead.symm.trans h.1)]
    exact same
  have live := Bool.eq_true_of_not_eq_false dead
  rw [if_neg dead]
  by_cases hands : fn.val = 5
  · rw [if_pos hands]
    simp only [if_pos (five.2 hands)]
    by_cases released : s.safe.released 0 = true ∧ s.safe.released 1 = true
    · rw [if_pos released]
      refine ⟨_, rfl, updSafe_only s _, rfl, ?_⟩
      rw [if_pos ⟨live, released⟩, hands]
      exact ⟨bit_setBit .., fun other => absurd (five.2 hands) other, fun k _ other => ⟨bit_setBit_ne _ other _, rfl⟩⟩
    · rw [if_neg released]
      refine stays.mono fun t => And.imp_right (And.imp_right fun same => ?_)
      rw [if_neg fun h => released h.2]
      exact same
  · rw [if_neg hands]
    simp only [if_neg (mt five.1 hands)]
    by_cases high : s.safe.lev (safePair fn).1 = true ∧ s.safe.lev (safePair fn).2 = true ∧
        max (s.safe.at_ (safePair fn).1) (s.safe.at_ (safePair fn).2) + (if fn.val = 4 then us 400 else us 200) ≤ s.mono
    · rw [if_pos high]
      refine ⟨_, rfl, updSafe_only s _, rfl, ?_⟩
      rw [if_pos ⟨live, high⟩, updSafe_safe]
      refine ⟨?_, fun _ => bit_setBit .., fun k _ other => ⟨?_, bit_setBit_ne _ other _⟩⟩
      · cases both : bit s.safe.together fn with
        | true => rw [if_pos rfl, bit_setBit]; exact (Bool.and_false _).symm
        | false => exact (Bool.and_true _).symm
      · dsimp only
        split
        · exact bit_setBit_ne _ other _
        · rfl
    · rw [if_neg high]
      refine stays.mono fun t => And.imp_right (And.imp_right fun same => ?_)
      rw [if_neg fun h => high h.2]
      exact same

/-- The state a reset leads to (R531). -/
def SafeUnit.resetTo (u : SafeUnit) : SafeState := if u.sw 3 = true then .ready else .permit

theorem SafeUnit.resetTo_outs (u : SafeUnit) : u.resetTo = .ready ∨ u.resetTo = .permit := ite_eq_or_eq ..

theorem SafeUnit.resetEvent_spec (u : SafeUnit) (m : Nat) :
    (u.st = .stopped → u.mayGrant m u.resetTo = true → (u.resetEvent m).st = u.resetTo ∧ (u.resetEvent m).line = true) ∧
    (u.st ≠ .stopped ∨ u.mayGrant m u.resetTo = false → u.resetEvent m = u) := by
  unfold SafeUnit.resetEvent
  refine ⟨fun stopped may => ?_, fun no => ?_⟩
  · rw [if_pos stopped]
    obtain ⟨st, line, -⟩ := u.grant_spec m may u.resetTo_outs
    exact ⟨st, line⟩
  · split
    · rename_i stopped
      exact u.grant_refused m (no.resolve_left fun other => other stopped)
    · rfl

/-- A grant asks for no input but those of the functions and the EDM. -/
theorem SafeUnit.mayGrant_congr {u v : SafeUnit} (same : v = { u with level := v.level, since := v.since, press := v.press }) (m : Nat)
    (inputs : ∀ j, j ≠ 14 → v.lev j = u.lev j ∧ v.at_ j = u.at_ j) (dst : SafeState) : v.mayGrant m dst = u.mayGrant m dst := by
  have sw : ∀ k, v.sw k = u.sw k := fun k => by rw [same]; rfl
  have inDemand : ∀ j, j ≠ 14 → v.inDemand j m = u.inDemand j m := fun j other => by
    have pulse : v.pulse = u.pulse := by rw [same]
    simp only [SafeUnit.inDemand, SafeUnit.held, (inputs j other).1, (inputs j other).2, sw, pulse]
    rfl
  have demands : ∀ fn, v.demands m fn = u.demands m fn := fun fn => by
    have use : v.inUse fn = u.inUse fn := SafeUnit.inUse_congr (by rw [same]) fn
    have demand : v.demand = u.demand := by rw [same]
    unfold SafeUnit.demands
    rw [use, demand]
    by_cases small : fn < 5
    · rw [inDemand _ (by unfold safePair; split <;> dsimp only <;> omega), inDemand _ (by unfold safePair; split <;> dsimp only <;> omega)]
    · rw [decide_eq_false small, Bool.and_false]
      rfl
  have live : v.live = u.live := by rw [same]; rfl
  have rest : v.fault = u.fault ∧ v.differ = u.differ ∧ v.inDiffer = u.inDiffer := by rw [same]; exact ⟨rfl, rfl, rfl⟩
  unfold SafeUnit.mayGrant
  simp only [live, demands, rest.1, rest.2.1, rest.2.2, (inputs 15 (by decide)).1, (inputs 16 (by decide)).1]

/-- The island once SAFE_RESET has been released. -/
def SafeUnit.pressEnds (u : SafeUnit) (m : Nat) : SafeUnit :=
  if u.lev 14 then { u with level := u.level.set 14 false, since := u.since.set 14 m, press := none } else { u with press := none }

theorem SafeUnit.pressEnds_spec (u : SafeUnit) (m : Nat) : (u.pressEnds m).lev 14 = false ∧ (u.pressEnds m).press = none ∧
    u.pressEnds m = { u with level := (u.pressEnds m).level, since := (u.pressEnds m).since, press := (u.pressEnds m).press } ∧
    ∀ j, j ≠ 14 → (u.pressEnds m).lev j = u.lev j ∧ (u.pressEnds m).at_ j = u.at_ j := by
  unfold SafeUnit.pressEnds
  split
  · exact ⟨Tab.get_set .., rfl, rfl, fun j other => ⟨Tab.get_set_ne _ _ other _, Tab.get_set_ne _ _ other _⟩⟩
  · rename_i low
    exact ⟨Bool.eq_false_of_not_eq_true low, rfl, rfl, fun _ _ => ⟨rfl, rfl⟩⟩

/-- A press ends as a reset where it has been long enough and not too long. -/
theorem safeResetRelease_run (s : State) : exec .safeResetRelease s = .next (s.modSafe fun u m =>
    if 800000000 ≤ (if u.lev 14 then some (m - u.at_ 14) else u.press).getD 0 ∧ (if u.lev 14 then some (m - u.at_ 14) else u.press).getD 0 ≤ 40000000000 ∧
      u.sw 5 = false then (u.pressEnds m).resetEvent m else u.pressEnds m) := by
  refine congrArg Outcome.next (congrArg s.modSafe ?_)
  funext u m
  change (match if u.lev 14 then some (m - u.at_ 14) else u.press with
    | some n => if ms 100 ≤ n ∧ n ≤ ms 5000 ∧ u.sw 5 = false then (u.pressEnds m).resetEvent m else u.pressEnds m
    | none => u.pressEnds m) = _
  generalize (if u.lev 14 then some (m - u.at_ 14) else u.press) = o
  cases o with
  | none => exact (if_neg fun h => absurd h.1 (by decide)).symm
  | some n => rfl

theorem safeResetRelease_next (s : State) : Next (exec .safeResetRelease s) fun t => Only [.safe] s t ∧ t.safe.lev 14 = false ∧ t.safe.press = none ∧
    if s.safe.st = .stopped ∧ s.safe.sw 5 = false ∧ s.safe.mayGrant s.mono s.safe.resetTo = true ∧
      (if s.safe.lev 14 = true then 800000000 ≤ s.mono - s.safe.at_ 14 ∧ s.mono - s.safe.at_ 14 ≤ 40000000000
        else 800000000 ≤ s.safe.press.getD 0 ∧ s.safe.press.getD 0 ≤ 40000000000) then
      t.safe.st = s.safe.resetTo ∧ t.safe.line = true
    else t.safe.st = s.safe.st ∧ t.safe.pPermit = s.safe.pPermit ∧ t.safe.hPermit = s.safe.hPermit := by
  refine ⟨_, safeResetRelease_run s, modSafe_only s _, ?_⟩
  rw [State.modSafe, updSafe_safe]
  generalize s.safe = u
  generalize s.mono = m
  obtain ⟨low, press, same, inputs⟩ := u.pressEnds_spec m
  have may := SafeUnit.mayGrant_congr same m inputs u.resetTo
  have to_ : (u.pressEnds m).resetTo = u.resetTo := by rw [same]; rfl
  have rest : (u.pressEnds m).st = u.st ∧ (u.pressEnds m).pPermit = u.pPermit ∧ (u.pressEnds m).hPermit = u.hPermit := by
    rw [same]
    exact ⟨rfl, rfl, rfl⟩
  have length : (if u.lev 14 = true then 800000000 ≤ m - u.at_ 14 ∧ m - u.at_ 14 ≤ 40000000000
      else 800000000 ≤ u.press.getD 0 ∧ u.press.getD 0 ≤ 40000000000) ↔
      800000000 ≤ (if u.lev 14 then some (m - u.at_ 14) else u.press).getD 0 ∧ (if u.lev 14 then some (m - u.at_ 14) else u.press).getD 0 ≤ 40000000000 := by
    split
    · exact Iff.rfl
    · exact Iff.rfl
  simp only [length]
  generalize (if u.lev 14 then some (m - u.at_ 14) else u.press).getD 0 = n
  obtain ⟨resets, waits⟩ := (u.pressEnds m).resetEvent_spec m
  rw [to_, may] at resets waits
  rw [rest.1] at resets waits
  by_cases valid : 800000000 ≤ n ∧ n ≤ 40000000000 ∧ u.sw 5 = false
  · rw [if_pos valid]
    by_cases goes : u.st = .stopped ∧ u.mayGrant m u.resetTo = true
    · obtain ⟨st, line⟩ := resets goes.1 goes.2
      have kept : ((u.pressEnds m).resetEvent m).level = (u.pressEnds m).level ∧ ((u.pressEnds m).resetEvent m).press = (u.pressEnds m).press := by
        unfold SafeUnit.resetEvent
        split
        · obtain ⟨-, level, -, -, -, press'⟩ := (u.pressEnds m).grant_kept m (if (u.pressEnds m).sw 3 = true then .ready else .permit)
          exact ⟨level, press'⟩
        · exact ⟨rfl, rfl⟩
      refine ⟨?_, kept.2.trans press, ?_⟩
      · rw [SafeUnit.lev, kept.1]
        exact low
      · rw [if_pos ⟨goes.1, valid.2.2, goes.2, valid.1, valid.2.1⟩]
        exact ⟨st, line⟩
    · have no : u.st ≠ .stopped ∨ u.mayGrant m u.resetTo = false := by
        by_contra both
        obtain ⟨stopped, granted⟩ := not_or.1 both
        exact goes ⟨not_not.1 stopped, Bool.eq_true_of_not_eq_false granted⟩
      rw [waits no, if_neg fun h => goes ⟨h.1, h.2.2.1⟩]
      exact ⟨low, press, rest⟩
  · rw [if_neg valid, if_neg fun h => valid ⟨h.2.2.2.1, h.2.2.2.2, h.2.1⟩]
    exact ⟨low, press, rest⟩

theorem safeLcClearExpire_next (s : State) : Next (exec .safeLcClearExpire s) fun t => Only [.safe] s t ∧
    if s.safe.st = .stopped ∧ s.safe.sw 7 = true ∧ s.safe.sw 4 = true ∧ s.safe.cause = 16 ∧ s.safe.lev 12 = true ∧ s.safe.lev 13 = true ∧
      max (s.safe.at_ 12) (s.safe.at_ 13) + 4000000000 ≤ s.mono ∧ s.safe.mayGrant s.mono s.safe.resetTo = true then
      t.safe.st = s.safe.resetTo ∧ t.safe.line = true
    else t = s := by
  change Next (execSafeLcClearExpire s) _
  unfold execSafeLcClearExpire
  dsimp only
  by_cases clear : s.safe.st = .stopped ∧ s.safe.sw 7 = true ∧ s.safe.sw 4 = true ∧ s.safe.cause = 16 ∧ s.safe.lev 12 = true ∧ s.safe.lev 13 = true ∧
      max (s.safe.at_ 12) (s.safe.at_ 13) + ms 500 ≤ s.mono
  · rw [if_pos clear]
    obtain ⟨st, s7, s4, cause, l12, l13, late⟩ := clear
    obtain ⟨resets, waits⟩ := s.safe.resetEvent_spec s.mono
    refine ⟨_, rfl, modSafe_only s _, ?_⟩
    split
    · rename_i h
      exact resets h.1 h.2.2.2.2.2.2.2
    · rename_i h
      exact modSafe_same (waits (.inr (Bool.eq_false_of_not_eq_true fun may => h ⟨st, s7, s4, cause, l12, l13, late, may⟩)))
  · rw [if_neg clear]
    refine (stays_next s).mono fun t => And.imp_right fun same => ?_
    rw [if_neg fun ⟨st, s7, s4, cause, l12, l13, late, _⟩ => clear ⟨st, s7, s4, cause, l12, l13, late⟩]
    exact same

/-! ### The chain (R538, R539) -/

theorem safeLoopBrokenTimeout_next (s : State) (k : Fin 2) : Next (exec (.safeLoopBrokenTimeout k) s) fun t => Only [.safe] s t ∧
    if s.safe.inhibitOn = true ∧ bit s.safe.broken k = false ∧ s.safe.edge.get 0 k + 400000 ≤ s.mono then
      bit t.safe.broken k = true ∧ t.safe.last.code = 0x20 ∧ t.safe.st = s.safe.st
    else t = s := by
  change Next (execSafeLoopBrokenTimeout k s) _
  unfold execSafeLoopBrokenTimeout
  dsimp only
  have time : us 50 = 400000 := rfl
  rw [time]
  by_cases due : s.safe.inhibitOn = true ∧ bit s.safe.broken k = false ∧ s.safe.edge.get 0 k + 400000 ≤ s.mono
  · rw [if_pos due]
    refine ⟨_, rfl, modSafe_only s _, ?_⟩
    rw [if_pos due]
    exact ⟨bit_setBit .., rfl, rfl⟩
  · rw [if_neg due]
    exact (stays_next s).mono fun t => And.imp_right fun same => by rw [if_neg due]; exact same

theorem safeChainMeasure_next (s : State) (k : Fin 2) (p : Nat) : Next (exec (.safeChainMeasure k p) s) fun t => Only [.safe] s t ∧
    if s.safe.inhibitOn = true then
      if (if k = 0 then 76480 else 80320) ≤ p ∧ p ≤ (if k = 0 then 79680 else 83520) then
        t.safe.st = .lockout ∧ t.safe.last.code = 0x14 ∧ t.safe.inhibitOn = false
      else t.safe.edge.get 0 k = s.mono ∧ bit t.safe.broken k = false ∧ t.safe.st = s.safe.st ∧ (bit s.safe.broken k = false → t.safe.last = s.safe.last)
    else if s.safe.live = true ∧ s.safe.st ≠ .lockout ∧ s.safe.offAt + 400000 < s.mono then t.safe.st = .lockout ∧ t.safe.last.code = 0x13
    else t = s := by
  refine ⟨_, rfl, modSafe_only s _, ?_⟩
  have zero : k = 0 ↔ k.val = 0 := by rw [Fin.ext_iff]; rfl
  have other : (if k.val = 0 then inR p 76480 79680 else inR p 80320 83520) = true ↔
      (if k = 0 then 76480 else 80320) ≤ p ∧ p ≤ (if k = 0 then 79680 else 83520) := by
    by_cases first : k = 0
    · rw [if_pos first, if_pos first, if_pos (zero.1 first), inR, Bool.and_eq_true, decide_eq_true_iff, decide_eq_true_iff]
    · rw [if_neg first, if_neg first, if_neg (mt zero.2 first), inR, Bool.and_eq_true, decide_eq_true_iff, decide_eq_true_iff]
  by_cases on : s.safe.inhibitOn = true
  · rw [if_pos on]
    have live : s.safe.live = true := by
      unfold SafeUnit.inhibitOn at on
      rw [Bool.and_eq_true, Bool.or_eq_true, decide_eq_true_iff, decide_eq_true_iff] at on
      rw [SafeUnit.live, Bool.and_eq_true, decide_eq_true_iff]
      refine ⟨on.1, fun unused => ?_⟩
      obtain ready | permit := on.2
      · exact absurd (unused.symm.trans ready) (by decide)
      · exact absurd (unused.symm.trans permit) (by decide)
    by_cases crossed : (if k = 0 then 76480 else 80320) ≤ p ∧ p ≤ (if k = 0 then 79680 else 83520)
    · rw [if_pos crossed, modSafe_safe_of (((if_pos on).trans (if_pos (other.2 crossed))))]
      obtain ⟨⟨st, code, -, off, -⟩, -⟩ := SafeUnit.lockout_of_live s.safe s.mono live 0x14 1
      exact ⟨st, code, off⟩
    · rw [if_neg crossed, modSafe_safe_of (((if_pos on).trans (if_neg (mt other.1 crossed))))]
      cases broken : bit s.safe.broken k with
      | true => exact ⟨Tab.get_set .., bit_setBit .., rfl, fun no => Bool.noConfusion no⟩
      | false => exact ⟨Tab.get_set .., bit_setBit .., rfl, fun _ => rfl⟩
  · rw [if_neg on]
    have asked : (s.safe.live && decide (s.safe.st ≠ .lockout) && decide (s.safe.offAt + us 50 < s.mono)) = true ↔
        s.safe.live = true ∧ s.safe.st ≠ .lockout ∧ s.safe.offAt + 400000 < s.mono := by
      rw [Bool.and_eq_true, Bool.and_eq_true, decide_eq_true_iff, decide_eq_true_iff, and_assoc]
      rfl
    by_cases stray : s.safe.live = true ∧ s.safe.st ≠ .lockout ∧ s.safe.offAt + 400000 < s.mono
    · rw [if_pos stray, modSafe_safe_of (((if_neg on).trans (if_pos (asked.2 stray))))]
      obtain ⟨⟨st, code, -⟩, -⟩ := SafeUnit.lockout_of_live s.safe s.mono stray.1 0x13 1
      exact ⟨st, code⟩
    · rw [if_neg stray]
      exact modSafe_same ((if_neg on).trans (if_neg (mt asked.1 stray)))

theorem safeDemandDue_next (s : State) : Next (exec .safeDemandDue s) fun t => Only [.safe] s t ∧
    if s.safe.inhibitOn = true ∧ s.safe.onAt + 20736000000000000 ≤ s.mono then t.safe = { s.safe with due := true } else t = s := by
  change Next (execSafeDemandDue s) _
  unfold execSafeDemandDue
  have time : ms 2592000000 = 20736000000000000 := rfl
  rw [time]
  by_cases due : s.safe.inhibitOn = true ∧ s.safe.onAt + 20736000000000000 ≤ s.mono
  · rw [if_pos due]
    refine ⟨_, rfl, updSafe_only s _, ?_⟩
    rw [if_pos due]
    rfl
  · rw [if_neg due]
    exact (stays_next s).mono fun t => And.imp_right fun same => by rw [if_neg due]; exact same

/-- Settles O48, row by row. -/
theorem safetyInputs : Obligations.SafetyInputs := by
  unfold Obligations.SafetyInputs
  intro s
  refine ⟨fun i level => (safeInputEdge_next s i level).mono fun t => And.imp_right (ite_imp .rfl (fun _ => id) fun _ => ?_), safeDemandFilter_next s,
    safeDiscrepancyTimeout_next s, safeThcPairTimeout_next s, safeTestPulse_next s, safeFunctionPermitFilter_next s, safeResetRelease_next s,
    safeLcClearExpire_next s, safeLoopBrokenTimeout_next s, safeChainMeasure_next s, safeDemandDue_next s⟩
  dsimp only
  cases s.safe.edm with
  | none => exact id
  | some x => exact id

end Sys2Proof.Machine
end

section
/-!
PROOFS. The period of a string (O28), refuted: the statement asks of every state that no sent entry of a shelf outlives its time, and a state whose
waiting list holds a sent entry, which no run of the model brings about, takes it onto the shelf as it is.
-/

namespace Sys2Proof.Machine

open Host

/-- A held entry that counts as sent, timed at tick 0. -/
def sentEntry : Entry := { time := 0, sent := true, marks := [{ leg := 0, up := true, off := true, held := true }] }

/-- Lane 0 has an empty shelf, and the sent entry waits for room on it. -/
def sentWaits : State := { State.reset with mod := { State.reset.mod with lane := { cells := [(0, { wait := [sentEntry] })] } } }

theorem sentWaits_atRest : sentWaits.atRest := ⟨rfl, by decide⟩

theorem sentWaits_pass : (sentWaits.shelfPass 0).todo = sentWaits.todo ∧ (sentWaits.shelfPass 0).prot = sentWaits.prot :=
  have kept := shelfPass_keeps (M := 196672) (a1 := 0) (by decide) (.refl _ sentWaits)
  ⟨kept.todo rfl, kept.prot rfl⟩

theorem sentWaits_shelf : sentEntry ∈ ((sentWaits.shelfPass 0).ml 0).shelf := by decide

/-- Refutes O28: SHELF_ENTRY_EXPIRE expands a waiting entry that counts as sent onto the shelf though its time has passed. -/
theorem not_stringPeriods : ¬ Obligations.StringPeriods := by
  intro holds
  obtain ⟨-, -, -, -, -, -, expire⟩ := holds 0 sentWaits
  obtain ⟨-, later, -⟩ := (expire 0).unique sentWaits_atRest rfl sentWaits_pass fun e h => ⟨h.1 .todo (by decide), h.1 .prot (by decide)⟩
  exact absurd (later sentEntry sentWaits_shelf rfl) (by decide)

end Sys2Proof.Machine
end

section
/-!
PROOFS. The position channels (O47), refuted: POS_EDGE of a channel that is not in use leaves its state without taking the acts that wait, where the
statement asks for a state from which every act has been taken. The two differ in a state in which an act still waits, which no step leaves behind.
-/

namespace Sys2Proof.Machine

open Host

/-- The reset state with an act still to be taken: a block reset of a source that resets no block. -/
def actWaits : State := { State.reset with todo := [.blockReset 0 0] }

/-- The act does nothing, and the restart sequence is off: settling takes the act off the list. -/
theorem settle_of_actWaits {e : State} (waits : e.todo = actWaits.todo) (off : e.prot = actWaits.prot) : e.settle.todo = [] := by
  have once : ∀ n, State.settleN (n + 1) e = State.settleN n (e.updTodo fun _ => []) := fun n => by
    unfold State.settleN
    rw [waits]
    cases n <;> rfl
  have none_ : ∀ n, State.settleN n (e.updTodo fun _ => []) = e.updTodo fun _ => [] := fun n => by
    cases n <;> rfl
  have still : (e.updTodo fun _ => []).rideWatch = e.updTodo fun _ => [] := by
    unfold State.rideWatch
    exact if_neg fun h => absurd (off ▸ h.1 : actWaits.prot.ride.st = .enable) (by decide)
  rw [State.settle, once, none_, still, none_]
  rfl

/-- Refutes O47: an edge of a channel that is not in use leaves the act that waits, and no state with that act settles so. -/
theorem not_positions : ¬ Obligations.Positions := by
  rintro ⟨holds, -⟩
  obtain ⟨e, ends, only, -, -, -, off⟩ := (holds actWaits 0).1 false false |>.2 (by decide) (by decide)
  rw [if_neg (by decide), if_neg (by decide)] at off
  have left : e.settle.todo = actWaits.todo := by
    rw [← Outcome.next.inj ends]
    rfl
  rw [settle_of_actWaits (off.1 .todo (by decide)) (off.1 .prot (by decide))] at left
  exact absurd left (by decide)

end Sys2Proof.Machine
end

section
/-!
PROOFS. STRING_START (O29): the refusals, and a start of a string with and without lanes that have no working link.
-/

namespace Sys2Proof.Machine

open Host

/-! ### Bypass records that stand -/

/-- Every bypass record of a state stands in another. -/
structure State.StaysByp (s t : State) : Prop where
  /-- The record of a lane. -/
  stays : ∀ n, s.bypassed n = true → t.bypassed n = true

theorem State.StaysByp.refl (s : State) : s.StaysByp s := ⟨fun _ held => held⟩

theorem State.StaysByp.trans {s t u : State} (h : s.StaysByp t) (k : t.StaysByp u) : s.StaysByp u :=
  ⟨fun n held => k.stays n (h.stays n held)⟩

theorem State.StaysByp.of_same {s t : State} (h : ∀ n, t.byp n = s.byp n) : s.StaysByp t := ⟨fun n held => by
  rw [State.bypassed, h]
  exact held⟩

theorem Byp.joined_held (b : Byp) (cause : Nat) : (b.joined cause).held.isSome = true := by
  cases held : b.held with
  | none => rw [Byp.joined_of_none held]; rfl
  | some c => rw [Byp.joined_of_held (by rw [held]; rfl), held]; rfl

theorem record_bypassed (s : State) (lane cause : Nat) : (s.record lane cause).bypassed lane = true := by
  rw [State.bypassed, record_byp]
  exact Byp.joined_held ..

theorem record_staysByp (s : State) (lane cause : Nat) : s.StaysByp (s.record lane cause) := ⟨fun n held => by
  by_cases own : n = lane
  · rw [own]
    exact record_bypassed ..
  · rw [State.bypassed, record_byp_ne s cause own]
    exact held⟩

theorem enterNow_staysByp (s : State) (lane : Nat) : s.StaysByp (s.enterNow lane) := ⟨fun n held => by
  by_cases own : n = lane
  · rw [own] at held ⊢
    rw [State.bypassed, enterNow_byp]
    exact held
  · rw [State.bypassed, enterNow_byp_ne s own]
    exact held⟩

theorem bump_staysByp (s : State) (id inst field : Nat) : s.StaysByp (s.bump id inst field) := .of_same (bump_byp s id inst field)

theorem trip_staysByp (s : State) (str cause lane : Nat) : s.StaysByp (s.trip str cause lane) := ⟨fun n held => by
  by_cases tripped : (s.str str).st = .tripped
  · rw [trip_of_tripped tripped]
    exact held
  · rw [State.bypassed, trip_byp tripped]
    split
    · exact held
    · exact held⟩

/-- What an urgent bypass does once the record is made. -/
theorem urgentBypass_of_record (s : State) (lane cause : Nat) : (s.record lane cause).StaysByp (s.urgentBypass lane cause) := by
  unfold State.urgentBypass
  dsimp only
  split
  · split
    · exact enterNow_staysByp _ lane
    · exact .refl _
  · refine (bump_staysByp _ 0x0C09 (s.strOf lane) 1).trans ?_
    split
    · exact trip_staysByp ..
    · exact enterNow_staysByp _ lane

theorem urgentBypass_staysByp (s : State) (lane cause : Nat) : s.StaysByp (s.urgentBypass lane cause) :=
  (record_staysByp s lane cause).trans (urgentBypass_of_record s lane cause)

theorem urgentBypass_bypassed (s : State) (lane cause : Nat) : (s.urgentBypass lane cause).bypassed lane = true :=
  (urgentBypass_of_record s lane cause).stays lane (record_bypassed s lane cause)

theorem foldl_staysByp {α : Type} {f : State → α → State} (h : ∀ (u : State) x, u.StaysByp (f u x)) (l : List α) (s : State) :
    s.StaysByp (l.foldl f s) := by
  induction l generalizing s with
  | nil => exact .refl s
  | cons a r ih => exact (h s a).trans (ih _)

theorem cellFail_staysByp (s : State) (lane : Nat) : s.StaysByp (s.cellFail lane) := by
  unfold State.cellFail
  dsimp only
  generalize hu : s.modPrt (s.strOf lane) _ = u
  have same : s.StaysByp u := .of_same fun n => by
    rw [← hu]
    rfl
  exact same.trans (trip_staysByp u _ _ _)

theorem lostMember_staysByp (s : State) (lane : Nat) (auth : Bool) : s.StaysByp (s.lostMember lane auth) := by
  unfold State.lostMember
  dsimp only
  split
  · exact .refl s
  split
  · split
    · exact bump_staysByp ..
    · exact urgentBypass_staysByp ..
  split
  · refine .trans (.of_same fun n => ?_) (foldl_staysByp (fun u str => ?_) _ _)
    · exact (condOn_keeps (M := 73976) (by decide) (modLink_keeps (by decide) (.refl _ s))).byp (by decide) n
    · split
      · exact trip_staysByp ..
      · exact .refl u
  · exact cellFail_staysByp ..

theorem lostMember_roll (s : State) (lane : Nat) (auth : Bool) : (s.lostMember lane auth).roll = s.roll :=
  (lostMember_keeps (M := 991480) (by decide) (.refl _ s)).roll (by decide)

/-! ### The MV cells without a working link -/

theorem darkExempt_congr {s t : State} (roll : t.roll = s.roll) (ride : t.prot.ride = s.prot.ride) (eff : t.par.eff = s.par.eff) (lane : Nat) :
    t.darkExempt lane = s.darkExempt lane := by
  unfold State.darkExempt
  rw [ride, State.entry, roll, State.pu, State.peff, eff]
  rfl

/-- An enabled MV cell that the dark hold does not excuse. -/
structure State.MustBypass (s : State) (lane : Nat) : Prop where
  /-- It is enabled. -/
  enabled : eEnabled (s.entry lane) = true
  /-- Its type. -/
  mv : eType (s.entry lane) = 1
  /-- The dark hold. -/
  dark : s.darkExempt lane = false

theorem State.MustBypass.congr {s t : State} {lane : Nat} (h : s.MustBypass lane) (roll : t.roll = s.roll) (ride : t.prot.ride = s.prot.ride)
    (eff : t.par.eff = s.par.eff) : t.MustBypass lane := by
  have entry : t.entry lane = s.entry lane := by rw [State.entry, roll, State.entry]
  exact ⟨by rw [entry]; exact h.enabled, by rw [entry]; exact h.mv, by rw [darkExempt_congr roll ride eff]; exact h.dark⟩

theorem lostMember_bypassed {s : State} {lane : Nat} (must : s.MustBypass lane) : (s.lostMember lane).bypassed lane = true := by
  unfold State.lostMember
  dsimp only
  rw [if_neg (by rw [must.enabled]; exact Bool.false_ne_true), if_pos must.mv, if_neg (by rw [must.dark]; exact Bool.false_ne_true)]
  exact urgentBypass_bypassed ..

/-- The lanes that have no working link: each that must be bypassed is (R43). -/
theorem foldl_lostMember_bypassed {ls : List Nat} {s : State} {lane : Nat} (mem : lane ∈ ls) (must : s.MustBypass lane) :
    (ls.foldl (fun s l => s.lostMember l) s).bypassed lane = true := by
  induction ls generalizing s with
  | nil => exact absurd mem List.not_mem_nil
  | cons a r ih =>
    rw [List.foldl_cons]
    by_cases own : lane = a
    · rw [← own]
      exact (foldl_staysByp (fun u l => lostMember_staysByp u l false) r _).stays lane (lostMember_bypassed must)
    · exact ih ((List.mem_cons.1 mem).resolve_left own) (must.congr (lostMember_roll s a false) (lostMember_ride s a false) (lostMember_eff s a false))

/-! ### The start -/

/-- A string handed to the modulator, before the reactions to its lanes without a working link (R257). -/
def State.startReady (s : State) (str short : Nat) : State :=
  let s1 := s.modStr str fun y =>
    { y with st := .starting, mode := s.pu 0x0802 str 0 1, o0 := s.tickOf short, first := true,
             next := min y.next (s.tickOf short - s.modDelay str), stopReq := false, darkStop := false, rejected := none, plan := none }
  let s2 := (s1.modPrt str fun p => { p with uvArmed := false }).modSrt str fun x => { x with order := [] }
  s2.coastLanes (s2.lanesOf str)

theorem startString_eq (s : State) (str short : Nat) : s.startString str short = (s.startReady str short).lostAtStart str := rfl

theorem startReady_keeps (s : State) (str short : Nat) : Keeps 983040 s (s.startReady str short) :=
  coastLanes_keeps (by decide) (modSrt_keeps (by decide) (modPrt_keeps (by decide) (modStr_keeps (by decide) (.refl _ s))))

theorem startReady_ride (s : State) (str short : Nat) : (s.startReady str short).prot.ride = s.prot.ride := by
  unfold State.startReady
  rw [coastLanes_ride, (modSrt_keeps (M := 524288) (by decide) (.refl _ _)).ride (by decide), modPrt_ride,
    (modStr_keeps (M := 131072) (by decide) (.refl _ s)).ride (by decide)]

theorem startReady_str (s : State) (str short : Nat) : (s.startReady str short).str str =
    { s.str str with st := .starting, mode := s.pu 0x0802 str 0 1, o0 := s.tickOf short, first := true,
                     next := min (s.str str).next (s.tickOf short - s.modDelay str), stopReq := false, darkStop := false, rejected := none,
                     plan := none } := by
  unfold State.startReady
  rw [coastLanes_str, (modSrt_keeps (M := 524288) (by decide) (.refl _ _)).str (by decide), modPrt_str, str_modStr]

theorem startReady_str_ne (s : State) {str n : Nat} (other : n ≠ str) (short : Nat) : (s.startReady str short).str n = s.str n := by
  unfold State.startReady
  rw [coastLanes_str, (modSrt_keeps (M := 524288) (by decide) (.refl _ _)).str (by decide), modPrt_str, str_modStr_ne s other]

theorem startReady_working (s : State) (str short lane : Nat) : (s.startReady str short).workingLink lane = s.workingLink lane := by
  have lanes := (startReady_keeps s str short).lane (by decide) lane
  rw [State.workingLink, lanes, State.workingLink]
  unfold State.startReady
  rw [coastLanes_view coastFree_passed,
    (modSrt_keeps (M := 917504) (by decide) (modPrt_keeps (by decide) (modStr_keeps (by decide) (.refl _ s)))).lnk (by decide)]

/-- The lanes of a string that starts without a working link. -/
def State.lostLanes (s : State) (str : Nat) : List Nat := (s.lanesOf str).filter fun l => eEnabled (s.entry l) && !s.workingLink l

theorem startString_lost (s : State) (str short : Nat) :
    s.startString str short = (s.lostLanes str).foldl (fun s l => s.lostMember l) (s.startReady str short) := by
  have roll := (startReady_keeps s str short).roll (by decide)
  have lost : (s.startReady str short).lostLanes str = s.lostLanes str := by
    rw [State.lostLanes, State.lanesOf, roll, State.lostLanes, State.lanesOf]
    refine List.filter_congr fun l _ => ?_
    rw [startReady_working, State.entry, roll, State.entry]
  rw [startString_eq, ← lost]
  rfl

theorem startRefusal_known {s : State} {str short : Nat} {r : Nat × Nat} (refused : s.startRefusal str short = some r) : r.1 ≠ stBusy := by
  unfold State.startRefusal at refused
  dsimp only at refused
  split_ifs at refused <;> cases refused <;> decide

theorem startRefusal_tripped {s : State} {str : Nat} (tripped : (s.str str).st = .tripped) (short : Nat) :
    s.startRefusal str short = some (stTrip, 0x41) := if_pos tripped

theorem startRefusal_live {s : State} {str : Nat} (untripped : (s.str str).st ≠ .tripped) (live : (s.str str).st ≠ .stopped) (short : Nat) :
    s.startRefusal str short = some (stRefused, 0x42) := (if_neg untripped).trans (if_pos live)

theorem planMembers_congr {s t : State} (roll : t.roll = s.roll) (mod : t.mod = s.mod) (prot : t.prot = s.prot) (str : Nat) :
    t.planMembers str = s.planMembers str := by
  unfold State.planMembers State.activeMembers State.members State.bypassed State.byp State.entry State.str
  rw [roll, mod, prot]

theorem stringStart_lands {s : State} {mb : Fin 8} {q : Request} (runs : s.Runs mb 0x0820 q) (may : s.Writes mb 8) :
    Lands (exec (.stringStart mb) s) fun e =>
      let str := uAt q.payload 0 1
      let short := uAt q.payload 4 4
      if 15 < str then Only [.hatch] s e ∧ s.Replies e mb q stBadParam [0x05, 0, 0xFF, 0xFF]
      else
        (∀ r, s.startRefusal str short = some r → Only [.hatch] s e ∧ s.Replies e mb q r.1 (leBytes 1 r.2 ++ [0, 0xFF, 0xFF])) ∧
        (s.startRefusal str short = none → s.prot.ride.st.restarting = true → str ∈ s.rideOrder →
          Only [.hatch] s e ∧ s.Replies e mb q stRefused [0x77, 0, 0xFF, 0xFF]) ∧
        (s.startRefusal str short = none → (s.prot.ride.st.restarting = false ∨ str ∉ s.rideOrder) →
          OnlyWrite [.todo, .notif, .par, .faults, .pantry, .links, .mod, .prot, .dt] s e ∧
          (∀ l ∈ s.lanesOf str, eEnabled (s.entry l) = true → eType (s.entry l) = 1 → s.workingLink l = false → s.darkExempt l = false →
            (e.byp l).held.isSome = true) ∧
          ((∀ l ∈ s.lanesOf str, eEnabled (s.entry l) = true → s.workingLink l = true) →
            OnlyWrite [.links, .mod, .prot, .dt] s e ∧ (e.str str).st = .starting ∧ (e.str str).mode = s.pu 0x0802 str 0 1 ∧
            (e.str str).o0 = s.tickOf short ∧ (e.str str).first = true ∧
            (e.str str).next = min (s.str str).next (s.tickOf short - s.modDelay str) ∧ (∀ n, n ≠ str → e.str n = s.str n) ∧
            s.Accepts e mb q (leBytes 4 ((s.tickOf short - s.modDelay str) % 2 ^ 32) ++ leBytes 1 (e.planMembers str).length ++ [0, 0, 0]))) := by
  have run : exec (.stringStart mb) s = (if 15 < uAt q.payload 0 1 then s.refuse mb stBadParam 0x05
      else match s.startRefusal (uAt q.payload 0 1) (uAt q.payload 4 4) with
        | some r => s.refuse mb r.1 r.2
        | none =>
          if (s.prot.ride.st.restarting && s.rideOrder.contains (uAt q.payload 0 1)) = true then s.refuse mb stRefused 0x77
          else (s.startString (uAt q.payload 0 1) (uAt q.payload 4 4)).finishWrite mb q
            (leBytes 4 ((s.tickOf (uAt q.payload 4 4) - s.modDelay (uAt q.payload 0 1)) % 2 ^ 32) ++
              leBytes 1 ((s.startString (uAt q.payload 0 1) (uAt q.payload 4 4)).planMembers (uAt q.payload 0 1)).length ++ [0, 0, 0])).done :=
    congrArg State.done (withWrite_runs runs may _)
  dsimp only
  generalize uAt q.payload 0 1 = str at *
  generalize uAt q.payload 4 4 = short at *
  refine lands_ite (fun bad => refuse_lands runs.taken (by decide) 0x05 (run.trans (congrArg State.done (if_pos bad)))) fun good => ?_
  rw [if_neg good] at run
  cases refusal : s.startRefusal str short with
  | some r =>
    rw [refusal] at run
    refine (refuse_lands runs.taken (startRefusal_known refusal) r.2 run).mono fun e told => ⟨fun x same => ?_, fun none_ => ?_, fun none_ => ?_⟩
    · cases same
      exact told
    · exact nomatch none_
    · exact nomatch none_
  | none =>
    rw [refusal] at run
    dsimp only at run
    by_cases rides : (s.prot.ride.st.restarting && s.rideOrder.contains str) = true
    · rw [if_pos rides] at run
      obtain ⟨restarts, listed⟩ := Bool.and_eq_true_iff.1 rides
      refine (refuse_lands runs.taken (by decide) 0x77 run).mono fun e told => ⟨fun x same => (nomatch same), fun _ _ _ => told, fun _ free => ?_⟩
      exact free.elim (fun no => absurd (no.symm.trans restarts) (by decide)) fun no => absurd (List.contains_iff_mem.1 listed) no
    · rw [if_neg rides] at run
      have calm := startString_calm s str short
      have keeps := startString_keeps (M := 991480) (a1 := str) (a2 := short) (by decide) (.refl _ s)
      have twin := keeps.twin (by decide)
      have part : Only [.hatch, .todo, .notif, .par, .faults, .pantry, .links, .mod, .prot, .dt] s (s.startString str short) :=
        only_of (startString_keeps (by decide) (.refl _ s))
      refine ⟨_, run, fun x same => (nomatch same), fun _ restarts listed =>
        absurd (Bool.and_eq_true_iff.2 ⟨restarts, List.contains_iff_mem.2 listed⟩) rides, fun _ _ =>
        ⟨(part.finishWrite (hasStandby_congr twin calm.eff) mb q _ _).of_hatch, fun l mem enabled mv lost dark => ?_, fun working => ?_⟩⟩
      · have must : (s.startReady str short).MustBypass l := State.MustBypass.congr ⟨enabled, mv, dark⟩ ((startReady_keeps s str short).roll (by decide))
          (startReady_ride s str short) (congrArg Params.eff ((startReady_keeps s str short).par (by decide)))
        have listed : l ∈ s.lostLanes str := List.mem_filter.2 ⟨mem, by rw [enabled, lost]; rfl⟩
        rw [finishWrite_byp, startString_lost]
        exact foldl_lostMember_bypassed listed must
      · have none_ : s.lostLanes str = [] := List.filter_eq_nil_iff.2 fun l mem lost => by
          obtain ⟨enabled, off⟩ := Bool.and_eq_true_iff.1 lost
          rw [working l mem enabled] at off
          exact Bool.false_ne_true off
        have ready := startReady_keeps s str short
        have starts : s.startString str short = s.startReady str short := by rw [startString_lost, none_, List.foldl_nil]
        rw [starts]
        obtain ⟨only, accepts⟩ := write_ends (l := [.links, .mod, .prot, .dt]) runs.taken (only_of (ready.weaken (by decide))) (ready.hatch (by decide))
          (ready.twin (by decide)) (ready.mono (by decide)) (congrArg Params.eff (ready.par (by decide)))
          (leBytes 4 ((s.tickOf short - s.modDelay str) % 2 ^ 32) ++ leBytes 1 ((s.startReady str short).planMembers str).length ++ [0, 0, 0]) []
        have ends := fun p => finishWrite_keeps (M := 67664) (a1 := mb) (a2 := q) (a3 := p) (a4 := []) (by decide) (.refl _ (s.startReady str short))
        refine ⟨only, ?_, ?_, ?_, ?_, ?_, fun n other => ?_, ?_⟩
        · rw [finishWrite_str, startReady_str]
        · rw [finishWrite_str, startReady_str]
        · rw [finishWrite_str, startReady_str]
        · rw [finishWrite_str, startReady_str]
        · rw [finishWrite_str, startReady_str]
        · rw [finishWrite_str, startReady_str_ne s other]
        · rw [planMembers_congr ((ends _).roll (by decide)) ((ends _).mod (by decide)) ((ends _).prot (by decide))]
          exact accepts

end Sys2Proof.Machine
end

section
/-!
PROOFS. STRING_STOP and RAW_EDGE_LOAD (O29), and the statement.
-/

namespace Sys2Proof.Machine

open Host

/-! ### Stopping -/

theorem foldl_laneOut_planOnly (ls : List Nat) (s : State) : s.PlanOnly (ls.foldl (fun s l => s.laneOut l) s) := by
  induction ls generalizing s with
  | nil => exact .of_eq fun _ => rfl
  | cons a r ih => exact (laneOut_planOnly s a).trans (ih _)

theorem foldl_laneOut_eff (ls : List Nat) (s : State) : (ls.foldl (fun s l => s.laneOut l) s).par.eff = s.par.eff :=
  foldl_eff _ (fun u l => laneOut_eff u l) ls s

/-- A start called off: its string is STOPPED, and no other state changes (R267). -/
theorem cancelStart_spec (s : State) (str : Nat) : ((s.cancelStart str).str str).st = .stopped ∧
    (∀ n, n ≠ str → ((s.cancelStart str).str n).st = (s.str n).st) ∧ (s.cancelStart str).par.eff = s.par.eff := by
  unfold State.cancelStart
  obtain ⟨st, others, -, eff⟩ := becomeStopped_spec ((s.lanesOf str).foldl (fun s l => s.laneOut l) s) str
  refine ⟨st, fun n other => ?_, eff.trans (foldl_laneOut_eff ..)⟩
  rw [(others n other).1, foldl_laneOut_planOnly (s.lanesOf str) s n]

theorem hostStop_mod (s : State) (str : Nat) : (s.hostStop str).mod = (s.askStop str false).mod := by
  unfold State.hostStop
  dsimp only
  split <;> rfl

theorem hostStop_eff (s : State) (str : Nat) : (s.hostStop str).par.eff = (s.askStop str false).par.eff := by
  unfold State.hostStop
  dsimp only
  split <;> rfl

theorem hostStop_str (s : State) (str n : Nat) : (s.hostStop str).str n = (s.askStop str false).str n := by
  rw [State.str, hostStop_mod, State.str]

theorem askStop_of_starting {s : State} {str : Nat} (starts : (s.str str).st = .starting) (dark : Bool) :
    s.askStop str dark = s.cancelStart str := if_pos starts

theorem askStop_of_running {s : State} {str : Nat} (runs : (s.str str).st = .running) (dark : Bool) :
    s.askStop str dark = s.modStr str fun y => { y with stopReq := true, darkStop := y.darkStop || dark } :=
  (if_neg (by rw [runs]; decide)).trans (if_pos runs)

/-- A stop of a running string touches the modulator, and the sequence beside it. -/
theorem hostStop_of_running {s : State} {str : Nat} (runs : (s.str str).st = .running) : Keeps 393216 s (s.hostStop str) := by
  unfold State.hostStop
  rw [askStop_of_running runs]
  have asked : ∀ f, Keeps 393216 s (s.modStr str f) := fun f => modStr_keeps (by decide) (.refl _ s)
  exact keeps_ite (fun _ => updProt_keeps (by decide) (asked _)) fun _ => asked _

theorem shortOf_nat (n : Nat) : shortOf (n : Int) = n % 2 ^ 32 := by
  unfold shortOf wrap
  rw [← Int.natCast_mod]
  rfl

theorem stringStop_lands {s : State} {mb : Fin 8} {q : Request} (runs : s.Runs mb 0x0821 q) (may : s.Writes mb 8) :
    Lands (exec (.stringStop mb) s) fun e =>
      let str := uAt q.payload 0 1
      if 15 < str then Only [.hatch] s e ∧ s.Replies e mb q stBadParam [0x05, 0, 0xFF, 0xFF]
      else if (s.str str).st = .starting then OnlyWrite [.par, .links, .mod, .prot, .dt] s e ∧ (e.str str).st = .stopped ∧
        (∀ n, n ≠ str → (e.str n).st = (s.str n).st) ∧ s.Accepts e mb q (leBytes 4 ((s.str str).o0 % 2 ^ 32))
      else if (s.str str).st = .running then OnlyWrite [.mod, .prot] s e ∧ e.str str = { s.str str with stopReq := true } ∧
        (∀ n, n ≠ str → e.str n = s.str n) ∧ s.Accepts e mb q (leBytes 4 (((s.str str).next + s.modDelay str) % 2 ^ 32))
      else Only [.hatch] s e ∧ s.Replies e mb q stRefused [0x42, 0, 0xFF, 0xFF] := by
  have run : exec (.stringStop mb) s = (if 15 < uAt q.payload 0 1 then s.refuse mb stBadParam 0x05
      else if (s.str (uAt q.payload 0 1)).st = .starting then
        (s.hostStop (uAt q.payload 0 1)).finishWrite mb q (leBytes 4 (shortOf (s.str (uAt q.payload 0 1)).o0))
      else if (s.str (uAt q.payload 0 1)).st = .running then (s.hostStop (uAt q.payload 0 1)).finishWrite mb q
        (leBytes 4 (shortOf ((s.str (uAt q.payload 0 1)).next + s.modDelay (uAt q.payload 0 1) : Nat)))
      else s.refuse mb stRefused 0x42).done := congrArg State.done (withWrite_runs runs may _)
  dsimp only
  generalize uAt q.payload 0 1 = str at *
  rw [shortOf_nat, shortOf_nat] at run
  refine lands_ite (fun bad => refuse_lands runs.taken (by decide) 0x05 (run.trans (congrArg State.done (if_pos bad)))) fun good => ?_
  rw [if_neg good] at run
  refine lands_ite (fun starts => ?_) fun idle => ?_
  · rw [if_pos starts] at run
    obtain ⟨st, others, eff⟩ := cancelStart_spec s str
    have asks := askStop_of_starting starts false
    have keeps := hostStop_keeps (M := 983104) (a1 := str) (by decide) (.refl _ s)
    obtain ⟨only, accepts⟩ := write_ends (l := [.par, .links, .mod, .prot, .dt]) runs.taken (only_of (hostStop_keeps (by decide) (.refl _ s)))
      (keeps.hatch (by decide)) (keeps.twin (by decide)) (keeps.mono (by decide)) (by rw [hostStop_eff, asks]; exact eff)
      (leBytes 4 ((s.str str).o0 % 2 ^ 32)) []
    refine ⟨_, run, only, ?_, fun n other => ?_, accepts⟩
    · rw [finishWrite_str, hostStop_str, asks]; exact st
    · rw [finishWrite_str, hostStop_str, asks]; exact others n other
  rw [if_neg idle] at run
  refine lands_ite (fun live => ?_) fun rest => refuse_lands runs.taken (by decide) 0x42 (run.trans (congrArg State.done (if_neg rest)))
  rw [if_pos live] at run
  have asks := askStop_of_running live false
  have keeps := hostStop_of_running live
  obtain ⟨only, accepts⟩ := write_ends (l := [.mod, .prot]) runs.taken (only_of (keeps.weaken (by decide))) (keeps.hatch (by decide))
    (keeps.twin (by decide)) (keeps.mono (by decide)) (congrArg Params.eff (keeps.par (by decide)))
    (leBytes 4 (((s.str str).next + s.modDelay str) % 2 ^ 32)) []
  refine ⟨_, run, only, ?_, fun n other => ?_, accepts⟩
  · rw [finishWrite_str, hostStop_str, asks, str_modStr, Bool.or_false]
  · rw [finishWrite_str, hostStop_str, asks, str_modStr_ne s other]

/-! ### Raw edges -/

theorem addEntries_ml_ne (s : State) {lane n : Nat} (other : n ≠ lane) (xs : List Entry) : (s.addEntries lane xs).ml n = s.ml n := by
  unfold State.addEntries
  dsimp only
  split
  · exact ml_modMl_ne s other _
  · exact ml_modMl_ne s other _

theorem addEntries_modStr (s : State) (lane : Nat) (xs : List Entry) : (s.addEntries lane xs).mod.str = s.mod.str := by
  unfold State.addEntries
  dsimp only
  split <;> rfl

theorem foldl_rawJudge_keeps (lane : Nat) (t : Int) (marks : List EdgeMark) (s : State) :
    Keeps 524288 s (marks.foldl (fun s m => s.rawJudge lane t m) s) :=
  keeps_foldl (.refl _ s) fun _ _ h => rawJudge_keeps (by decide) h

/-- One record of RAW_EDGE_LOAD taken whole (R264). -/
def State.rawOne (s : State) (r : RawRec) : State := (s.rawShelve (s.ml r.lane).rawWord r).rawTake r

theorem rawApply_eq (s : State) (rs : List RawRec) : s.rawApply rs = rs.foldl State.rawOne s := rfl

theorem rawShelve_mod (s : State) (old : Nat) (r : RawRec) : ∃ xs, (s.rawShelve old r).mod = (s.addEntries r.lane xs).mod ∧
    (s.rawShelve old r).par = (s.addEntries r.lane xs).par := by
  unfold State.rawShelve
  dsimp only
  exact ⟨_, (foldl_rawJudge_keeps ..).mod (by decide), (foldl_rawJudge_keeps ..).par (by decide)⟩

/-- What one record leaves: no string, no other lane, and its own word and time in its lane. -/
structure State.RawOne (s : State) (r : RawRec) (t : State) : Prop where
  /-- The strings. -/
  str : t.mod.str = s.mod.str
  /-- The values in effect. -/
  eff : t.par.eff = s.par.eff
  /-- The time. -/
  time : t.time = s.time
  /-- The other lanes. -/
  others : ∀ l, l ≠ r.lane → t.ml l = s.ml l
  /-- The word. -/
  word : (t.ml r.lane).rawWord = r.word
  /-- The time of the record. -/
  last : (t.ml r.lane).rawLast = some (s.tickOf r.short : Int)

theorem tickOf_congr {s t : State} (time : t.time = s.time) (short : Nat) : t.tickOf short = s.tickOf short := by
  unfold State.tickOf State.shortNow State.now
  rw [time]

theorem rawOne_spec (s : State) (r : RawRec) : s.RawOne r (s.rawOne r) := by
  obtain ⟨xs, mod, par⟩ := rawShelve_mod s (s.ml r.lane).rawWord r
  have shelved := rawShelve_keeps (M := 655424) (a1 := (s.ml r.lane).rawWord) (a2 := r) (by decide) (.refl _ s)
  unfold State.rawOne State.rawTake
  dsimp only
  refine ⟨?_, ?_, ?_, fun l other => ?_, ?_, ?_⟩
  · exact (congrArg Mod.str mod).trans (addEntries_modStr ..)
  · exact (congrArg Params.eff par).trans (addEntries_eff ..)
  · exact shelved.time (by decide)
  · rw [ml_modMl_ne _ other, State.ml, mod]
    exact addEntries_ml_ne s other xs
  · rw [ml_modMl]
  · rw [ml_modMl, tickOf_congr (shelved.time (by decide))]

/-- What the records leave. -/
theorem foldl_rawOne_spec (rs : List RawRec) (s : State) : (rs.foldl State.rawOne s).mod.str = s.mod.str ∧
    (rs.foldl State.rawOne s).par.eff = s.par.eff ∧ (rs.foldl State.rawOne s).time = s.time ∧
    ∀ l, (∀ r ∈ rs, r.lane ≠ l) → (rs.foldl State.rawOne s).ml l = s.ml l := by
  induction rs generalizing s with
  | nil => exact ⟨rfl, rfl, rfl, fun _ _ => rfl⟩
  | cons a r ih =>
    have one := rawOne_spec s a
    obtain ⟨str, eff, time, others⟩ := ih (s.rawOne a)
    exact ⟨str.trans one.str, eff.trans one.eff, time.trans one.time, fun l free =>
      (others l fun x mem => free x (List.mem_cons_of_mem a mem)).trans (one.others l (free a List.mem_cons_self).symm)⟩

theorem rawApply_last {s : State} {rs : List RawRec} {r : RawRec} (last : rs.getLast? = some r) :
    ((s.rawApply rs).ml r.lane).rawWord = r.word ∧ ((s.rawApply rs).ml r.lane).rawLast = some (s.tickOf r.short : Int) := by
  obtain ⟨before, whole⟩ := List.getLast?_eq_some_iff.1 last
  have one := rawOne_spec (before.foldl State.rawOne s) r
  rw [rawApply_eq, whole, List.foldl_append, List.foldl_cons, List.foldl_nil]
  refine ⟨one.word, one.last.trans ?_⟩
  rw [tickOf_congr (foldl_rawOne_spec before s).2.2.1]

theorem rawEdgeLoad_lands {s : State} {mb : Fin 8} {q : Request} (runs : s.Runs mb 0x0822 q) (may : s.Writes mb 8) :
    Lands (exec (.rawEdgeLoad mb) s) fun e =>
      let str := uAt q.payload 0 1
      let n := uAt q.payload 1 1
      let rs := rawRecords q.payload
      if n < 1 ∨ 60 < n ∨ 15 < str then Only [.hatch] s e ∧ s.Replies e mb q stBadParam [0, 0xFF, 0x05, 0]
      else if q.length ≠ 4 + 8 * n then Only [.hatch] s e ∧ s.Replies e mb q stBadLength [0, 0xFF, 0x0C, 0]
      else if (s.str str).st ≠ .running ∨ (s.str str).mode ≠ 4 then Only [.hatch] s e ∧ s.Replies e mb q stRefused [0, 0xFF, 0x42, 0]
      else
        (∀ f, (State.rawCheck str 0 rs s).2 = some f → Only [.hatch] s e ∧
          s.Replies e mb q stBadParam ([0] ++ leBytes 1 f.1 ++ leBytes 1 f.2 ++ [0])) ∧
        ((State.rawCheck str 0 rs s).2 = none → s.rawRoom rs = false → Only [.hatch, .par] s e ∧
          s.Replies e mb q stBusy (leBytes 4 (s.rawRetry rs))) ∧
        ((State.rawCheck str 0 rs s).2 = none → s.rawRoom rs = true → OnlyWrite [.par, .mod, .dt] s e ∧ e.mod.str = s.mod.str ∧
          s.Accepts e mb q (leBytes 1 n ++ [0xFF, 0, 0]) ∧ (∀ l, (∀ r ∈ rs, r.lane ≠ l) → e.ml l = s.ml l) ∧
          ∀ r, rs.getLast? = some r → (e.ml r.lane).rawWord = r.word ∧ (e.ml r.lane).rawLast = some (s.tickOf r.short : Int)) := by
  have run : exec (.rawEdgeLoad mb) s = (if (!inR (uAt q.payload 1 1) 1 60 || decide (15 < uAt q.payload 0 1)) = true then
        s.reply mb stBadParam (rawReply 0 0xFF 0x05)
      else if q.length ≠ 4 + 8 * uAt q.payload 1 1 then s.reply mb stBadLength (rawReply 0 0xFF 0x0C)
      else if (s.str (uAt q.payload 0 1)).st ≠ .running ∨ (s.str (uAt q.payload 0 1)).mode ≠ 4 then s.reply mb stRefused (rawReply 0 0xFF 0x42)
      else match (State.rawCheck (uAt q.payload 0 1) 0 (rawRecords q.payload) s).2 with
        | some f => s.reply mb stBadParam (rawReply 0 f.1 f.2)
        | none => if s.rawRoom (rawRecords q.payload) = true then
            (s.rawApply (rawRecords q.payload)).finishWrite mb q (rawReply (uAt q.payload 1 1) 0xFF 0)
          else s.busy mb (s.rawRetry (rawRecords q.payload))).done := congrArg State.done (withWrite_runs runs may _)
  have tells : ∀ {o : Outcome State Fault Refusal} {status : Nat}, status ≠ stBusy → ∀ payload, o = (s.reply mb status payload).done →
      Lands o fun e => Only [.hatch] s e ∧ s.Replies e mb q status payload := fun known payload run =>
    ⟨_, run, reply_only known mb payload, reply_replies runs.taken _ payload⟩
  dsimp only
  generalize uAt q.payload 0 1 = str at *
  generalize uAt q.payload 1 1 = n at *
  generalize rawRecords q.payload = rs at *
  have range : (!inR n 1 60 || decide (15 < str)) = true ↔ n < 1 ∨ 60 < n ∨ 15 < str := by
    unfold inR
    simp only [Bool.or_eq_true, Bool.not_eq_true', Bool.and_eq_false_iff, decide_eq_false_iff_not, decide_eq_true_eq]
    omega
  refine lands_ite (fun bad => tells (by decide) _ (run.trans (congrArg State.done (if_pos (range.2 bad))))) fun good => ?_
  rw [if_neg fun h => good (range.1 h)] at run
  refine lands_ite (fun bad => tells (by decide) _ (run.trans (congrArg State.done (if_pos bad)))) fun long => ?_
  rw [if_neg long] at run
  refine lands_ite (fun bad => tells (by decide) _ (run.trans (congrArg State.done (if_pos bad)))) fun live => ?_
  rw [if_neg live] at run
  cases check : (State.rawCheck str 0 rs s).2 with
  | some f =>
    rw [check] at run
    refine (tells (by decide) _ run).mono fun e told => ⟨fun x same => ?_, fun none_ => (nomatch none_), fun none_ => (nomatch none_)⟩
    cases same
    exact told
  | none =>
    rw [check] at run
    dsimp only at run
    by_cases room : s.rawRoom rs = true
    · rw [if_pos room] at run
      obtain ⟨str', eff, -, others⟩ := foldl_rawOne_spec rs s
      have keeps := rawApply_keeps (M := 655424) (a1 := rs) (by decide) (.refl _ s)
      obtain ⟨only, accepts⟩ := write_ends (l := [.par, .mod, .dt]) runs.taken (only_of (rawApply_keeps (by decide) (.refl _ s)))
        (keeps.hatch (by decide)) (keeps.twin (by decide)) (keeps.mono (by decide)) eff (rawReply n 0xFF 0) []
      refine ⟨_, run, fun x same => (nomatch same), fun _ full => absurd (room.symm.trans full) (by decide), fun _ _ =>
        ⟨only, ?_, ?_, fun l free => ?_, fun r last => ?_⟩⟩
      · rw [finishWrite_mod]; exact str'
      · exact accepts
      · rw [State.ml, finishWrite_mod]; exact others l free
      · rw [State.ml, finishWrite_mod]; exact rawApply_last last
    · rw [if_neg room] at run
      exact ⟨_, run, fun x same => (nomatch same), fun _ _ => ⟨only_of (busy_keeps (by decide) (.refl _ s)), reply_replies runs.taken stBusy _⟩,
        fun _ yes => absurd yes room⟩

theorem and_of_ite_zero {c : Prop} [Decidable c] {a b : Nat} (zero : (if c then a else b) = 0) (bad : a ≠ 0) : ¬c ∧ b = 0 := by
  split at zero
  · exact absurd zero bad
  · exact ⟨‹_›, zero⟩

/-- A record that passes every check (R264). -/
theorem rawReason_of_zero {s : State} {str : Nat} {r : RawRec} (_ : r.lane ≤ 127) (passes : s.rawReason str r = 0) :
    r.lane ∈ s.activeMembers str ∧ s.aheadOk r.short = true ∧
      s.now + s.lead r.lane ≤ s.tickOf r.short ∧ (∀ u, (s.ml r.lane).rawLast = some u → u < s.tickOf r.short) ∧
      ∀ b < 16, bit r.word b = true → mapUsed (eMap (s.entry r.lane) b) = true ∧
        ∀ c, otherBit (s.entry r.lane) b = some c → bit r.word c = false := by
  unfold State.rawReason at passes
  dsimp only at passes
  obtain ⟨member, passes⟩ := and_of_ite_zero passes (by decide)
  obtain ⟨ahead, passes⟩ := and_of_ite_zero passes (by decide)
  obtain ⟨order, passes⟩ := and_of_ite_zero passes (by decide)
  obtain ⟨used, passes⟩ := and_of_ite_zero passes (by decide)
  obtain ⟨alone, -⟩ := and_of_ite_zero passes (by decide)
  have bits : ∀ b < 16, bit r.word b = true → b ∈ (List.range 16).filter fun b => bit r.word b := fun b low on =>
    List.mem_filter.2 ⟨List.mem_range.2 low, on⟩
  rw [Bool.not_eq_true, Bool.or_eq_false_iff] at member ahead
  refine ⟨?_, ?_, ?_, fun u same => ?_, fun b low on => ⟨?_, fun c other => ?_⟩⟩
  · have listed := member.2
    rw [Bool.not_eq_false'] at listed
    exact List.contains_iff_mem.1 listed
  · have clear := ahead.1
    rw [Bool.not_eq_false'] at clear
    exact clear
  · have := of_decide_eq_false ahead.2
    omega
  · rw [same] at order
    exact not_le.1 fun late => order (decide_eq_true late)
  · rw [Bool.not_eq_true, List.any_eq_false] at used
    have := used b (bits b low on)
    rw [Bool.not_eq_true, Bool.not_eq_false'] at this
    exact this
  · rw [Bool.not_eq_true, List.any_eq_false] at alone
    have := alone b (bits b low on)
    rw [other] at this
    exact Bool.eq_false_of_not_eq_true this

/-! ### The statement -/

/-- Settles O29, command by command. -/
theorem stringCommands : Obligations.StringCommands := fun _ _ _ =>
  ⟨stringStart_lands, fun _ short tripped => startRefusal_tripped tripped short, fun _ short untripped live => startRefusal_live untripped live short,
    stringStop_lands, rawEdgeLoad_lands, fun _ _ => rawReason_of_zero⟩

end Sys2Proof.Machine
end

section
/-!
PROOFS. Dead times and the orders of the sorter (O30), refuted: the counts of a lane and those of a string are kept under keys formed from the parameter's
ID and the instance, and the key of MOD_LANE_CNT of a lane far beyond the last is that of SORT_CNT of a string. A member listed under such a number, which
no commit of a roll makes, counts its dropped pulses there.
-/

namespace Sys2Proof.Machine

open Host

/-! ### A state that nothing waits in -/

theorem settleN_of_nil {s : State} (none_ : s.todo = []) (n : Nat) : State.settleN n s = s := by
  cases n with
  | zero => rfl
  | succ n =>
    unfold State.settleN
    rw [none_]

/-- Where no act waits, a sequence that is OFF once all is settled was not in ENABLE before. -/
theorem not_enable_of_settle {e : State} (none_ : e.todo = []) (off : e.settle.prot.ride.st = .off) : e.prot.ride.st ≠ .enable := by
  intro waits
  have free : e.rideWatch.todo = [] := ((rideWatch_keeps (M := 335988) (by decide) (.refl _ e)).todo rfl).trans none_
  rw [State.settle, settleN_of_nil none_, settleN_of_nil free] at off
  have reached : ∀ (u : State) str, u.prot.ride.st = .enable → (u.rideReached str).prot.ride.st ≠ .off := fun u str enabled => by
    unfold State.rideReached
    dsimp only
    split
    · split
      · rw [rideTo_ride]
        exact RideSt.noConfusion
      · exact fun h => absurd (enabled.symm.trans h) (by decide)
    · exact fun h => absurd (enabled.symm.trans h) (by decide)
  have stays : e.prot.ride.st ≠ .off := fun h => absurd (waits.symm.trans h) (by decide)
  revert off
  unfold State.rideWatch
  dsimp only
  split
  · split
    · exact stays
    · split
      · exact reached _ _ ((congrArg Ride.st (note_ride ..)).trans waits)
      · split
        · exact reached _ _ waits
        · exact stays
  · exact stays

/-- From a state in which no act waits, a row that ends with a state in which none waits and the restart sequence is OFF lands in that state alone, if it
leaves the acts alone. -/
theorem Lands.alone {s t : State} {o : Outcome State Fault Refusal} {P : State → Prop} (lands : Lands o P) (none_ : s.todo = [])
    (runs : o = .next t.settle) (same : t.todo = s.todo) (off : t.prot.ride.st = .off) (frame : ∀ e, P e → e.todo = s.todo) : P t := by
  obtain ⟨e, ends, holds⟩ := lands
  have at_t : t.settle = t := settle_of_atRest ⟨same.trans none_, fun waits => absurd (off.symm.trans waits) (by decide)⟩
  have equal : t = e.settle := at_t.symm.trans (Outcome.next.inj (runs.symm.trans ends))
  have free := (frame e holds).trans none_
  have at_e : e.settle = e := settle_of_atRest ⟨free, not_enable_of_settle free (by rw [← equal]; exact off)⟩
  rw [equal, at_e]
  exact holds

/-! ### The state -/

/-- The lane whose count of MOD_LANE_CNT has the key of SORT_CNT of string 0. -/
def farLane : Nat := 0x1F9 * 65536

/-- An enabled half-bridge cell of string 0 with the lower switch of its leg. -/
def farEntry : Bytes := [2, 1, 0, 0] ++ List.replicate 12 0 ++ [0x80] ++ List.replicate 111 0

/-- The lane holds a pulse of no length for its next plan. -/
def farPulse : ModLane :=
  { on := true, legs := { cells := [(0, { held := [{ t := 0, up := true, dt := 0 }, { t := 0, up := false, dt := 0 }] })] } }

/-- The plan of string 0 waits for the active's order. -/
def farMember : State :=
  ({ State.reset with
      roll := { State.reset.roll with working := { cells := [(farLane, farEntry)] } }
      time := { State.reset.time with tick := 6400 }
      mod := { State.reset.mod with lane := { cells := [(farLane, farPulse)] } } }).modStr 0 fun y => { y with orderWait := true }

/-- The plan made with the string's own order. -/
def farPlanned : State := ((farMember.bump 0x0A09 0 2).modSrt 0 fun x => { x with judgedK := some (farMember.str 0).k }).planNow 0

theorem farPlanned_counts : farPlanned.counts 0x0A09 0 = [1, 0, 2] := by decide

theorem farPlanned_keeps : Keeps 917568 farMember farPlanned :=
  planNow_keeps (by decide) (modSrt_keeps (by decide) (bump_keeps (by decide) (.refl _ farMember)))

/-- Refutes O30: TWIN_ORDER_TIMEOUT counts the miss in SORT_CNT, and the pulse the plan drops in the same counts. -/
theorem not_deadTimes : ¬ Obligations.DeadTimes := by
  rintro ⟨-, holds⟩
  obtain ⟨-, missed, -⟩ := holds 0 farMember
  obtain ⟨-, -, -, -, -, counts, -⟩ := (missed (by decide) (by decide)).alone rfl rfl (farPlanned_keeps.todo rfl) (by decide) fun e h => h.1 .todo (by decide)
  rw [show ((0 : Fin 16) : Nat) = 0 from rfl] at counts
  exact absurd (farPlanned_counts.symm.trans counts) (by decide)

end Sys2Proof.Machine
end

section
/-!
PROOFS. The station ports (O25): what the sending of PTP messages leaves of a port and what it counts, then a row's outcome, row by row.
-/

namespace Sys2Proof.Machine

open Host

/-! ### Counts -/

theorem counts_bump (s : State) (id inst k : Nat) : (s.bump id inst k).counts id inst =
    (s.counts id inst).set k (satN (8 * (rcFields id).getD k 4) ((s.counts id inst).getD k 0 + 1)) := by
  simp only [State.counts, State.bump, State.bumpBy, updPar_par, Tab.get?_set, Option.getD_some]

/-- A count of another field does not move. -/
theorem counts_bump_ne (s : State) (id inst : Nat) {j k : Nat} (h : k ≠ j) :
    ((s.bump id inst k).counts id inst).getD j 0 = (s.counts id inst).getD j 0 := by
  rw [counts_bump, List.getD_eq_getElem?_getD, List.getElem?_set_ne h, ← List.getD_eq_getElem?_getD]

/-! ### What the sending of PTP messages leaves -/

/-- What of a port the sending of PTP messages does not touch. -/
def StaPort.rest (p : StaPort) : StaPort :=
  { p with stamps := [], ptpWait := [], ptpOut := [], busyUntil := 0, pdelayT1 := 0, announceAt := none, announceSeq := 0 }

/-- A state after PTP messages have been sent on a port. -/
structure State.PtpSent (n : Nat) (s t : State) : Prop where
  /-- The parts. -/
  keeps : Keeps 1088 s t
  /-- The parameters in effect. -/
  eff : t.par.eff = s.par.eff
  /-- The port. -/
  own : (t.port n).rest = (s.port n).rest
  /-- The other port. -/
  other : ∀ m, m ≠ n → t.port m = s.port m
  /-- The frames received. -/
  received : (t.counts 0x0707 n).getD 1 0 = (s.counts 0x0707 n).getD 1 0

namespace State.PtpSent

variable {n : Nat} {s t u : State}

theorem refl (n : Nat) (s : State) : PtpSent n s s := ⟨.refl _ s, rfl, rfl, fun _ _ => rfl, rfl⟩

theorem trans (h : PtpSent n s t) (k : PtpSent n t u) : PtpSent n s u :=
  ⟨h.keeps.trans k.keeps, k.eff.trans h.eff, k.own.trans h.own, fun m ne => (k.other m ne).trans (h.other m ne), k.received.trans h.received⟩

theorem field {α : Type} {f : StaPort → α} (g : ∀ p : StaPort, f p.rest = f p) (h : PtpSent n s t) : f (t.port n) = f (s.port n) := by
  rw [← g, h.own, g]

theorem queue (h : PtpSent n s t) : (t.port n).queue = (s.port n).queue := h.field (f := StaPort.queue) fun _ => rfl

theorem linkUp (h : PtpSent n s t) : (t.port n).linkUp = (s.port n).linkUp := h.field (f := StaPort.linkUp) fun _ => rfl

theorem mono (h : PtpSent n s t) : t.mono = s.mono := h.keeps.mono (by decide)

theorem time (h : PtpSent n s t) : t.time = s.time := h.keeps.time (by decide)

theorem isMaster (h : PtpSent n s t) : t.isMaster = s.isMaster := by
  rw [State.isMaster, State.isMaster, State.headId, State.headId, h.time, h.keeps.twin (by decide), pu_congr h.eff]

end State.PtpSent

theorem modPort_ptpSent (n : Nat) (s : State) {f : StaPort → StaPort} (h : (f (s.port n)).rest = (s.port n).rest) :
    State.PtpSent n s (s.modPort n f) :=
  ⟨modPort_keeps (by decide) (.refl _ s), rfl, by rw [port_modPort, h], fun m ne => port_modPort_ne s ne f, rfl⟩

theorem bump_ptpSent (n : Nat) (s : State) {k : Nat} (h : k ≠ 1) : State.PtpSent n s (s.bump 0x0707 n k) :=
  ⟨bump_keeps (by decide) (.refl _ s), rfl, rfl, fun _ _ => rfl, counts_bump_ne s _ _ h⟩

theorem stampPop_ptpSent (n : Nat) (s : State) : State.PtpSent n s (s.stampPop n) := modPort_ptpSent n s rfl

theorem stampPut_ptpSent (n : Nat) (s : State) (x : StaStamp) : State.PtpSent n s (s.stampPut n x).1 := by
  rw [State.stampPut]
  split
  · exact bump_ptpSent n s (by decide)
  · exact modPort_ptpSent n s rfl

theorem ptpOut1_ptpSent (n : Nat) (s : State) (x : PtpMsg) (rest : List PtpMsg) (start : Nat) : State.PtpSent n s (s.ptpOut1 n x rest start) := by
  have sent := (modPort_ptpSent n s (f := fun p => { p with
    ptpWait := rest, ptpOut := (p.ptpOut ++ [wireFrame x.data]).drop (p.ptpOut.length - 7),
    busyUntil := start + frameTicks x.data.length }) rfl).trans (bump_ptpSent n _ (k := 0) (by decide))
  rw [State.ptpOut1]
  dsimp only
  split
  · exact sent
  · have put := fun y => sent.trans ((stampPut_ptpSent n _ y).trans (stampPop_ptpSent n _))
    split
    · exact (put _).trans (modPort_ptpSent n _ rfl)
    · exact put _

theorem ptpDrainN_ptpSent (n k : Nat) (s : State) : State.PtpSent n s (State.ptpDrainN k n s) := by
  induction k generalizing s with
  | zero => exact .refl n s
  | succ k ih =>
    rw [State.ptpDrainN]
    split
    · exact .refl n s
    · dsimp only
      split
      · exact .refl n s
      · exact (ptpOut1_ptpSent n s _ _ _).trans (ih _)

theorem ptpDrain_ptpSent (n : Nat) (s : State) : State.PtpSent n s (s.ptpDrain n) := ptpDrainN_ptpSent n _ s

theorem ptpSend_ptpSent (n : Nat) (s : State) (x : PtpMsg) : State.PtpSent n s (s.ptpSend n x) :=
  (modPort_ptpSent n s rfl).trans (ptpDrain_ptpSent n _)

theorem ptpAnnounce_ptpSent (n : Nat) (s : State) : State.PtpSent n s (s.ptpAnnounce n) := by
  rw [State.ptpAnnounce]
  exact iteInduction (motive := State.PtpSent n s) (fun _ => (modPort_ptpSent n s rfl).trans (ptpSend_ptpSent n _ _)) fun _ => .refl n s

theorem ptpDrain_of_empty {n : Nat} {s : State} (h : (s.port n).ptpWait = []) : s.ptpDrain n = s := by rw [State.ptpDrain, h]; rfl

theorem ptpAnnounce_of_ne {n : Nat} {s : State} (h : s.ptpCode n ≠ 6) : s.ptpAnnounce n = s := by
  rw [State.ptpAnnounce]
  exact if_neg fun both => h both.1

/-! ### What a port is does not depend on what it sends -/

section
variable {n m : Nat} {s t : State} (h : State.PtpSent n s t)
include h

theorem State.PtpSent.staOn : t.staOn m = s.staOn m := by rw [State.staOn, State.staOn, pu_congr h.eff]

theorem State.PtpSent.part {α : Type} {f : StaPort → α} (g : ∀ p : StaPort, f p.rest = f p) : f (t.port m) = f (s.port m) := by
  by_cases same : m = n
  · rw [same]
    exact h.field g
  · rw [h.other m same]

theorem State.PtpSent.staUp : t.staUp m = s.staUp m := by
  rw [State.staUp, State.staUp, h.staOn, h.part (f := StaPort.linkUp) fun _ => rfl]

theorem State.PtpSent.ptpRuns : t.ptpRuns m = s.ptpRuns m := by
  rw [State.ptpRuns, State.ptpRuns, pu_congr h.eff, h.staUp, h.isMaster]

theorem State.PtpSent.staMac : t.staMac m = s.staMac m := by rw [State.staMac, State.staMac, State.peff, State.peff, h.eff]

theorem State.PtpSent.ptpBest : t.ptpBest m = s.ptpBest m := by
  rw [State.ptpBest, State.ptpBest, h.part (f := StaPort.foreign) fun _ => rfl, h.mono]

theorem State.PtpSent.ptpWish : t.ptpWish m = s.ptpWish m := by
  rw [State.ptpWish, State.ptpWish, h.ptpBest, pu_congr h.eff, h.isMaster, h.part (f := StaPort.listenAt) fun _ => rfl, State.ptpOwn, State.ptpOwn,
    State.ptpIdent, State.ptpIdent, h.staMac, pu_congr h.eff, pu_congr h.eff, pu_congr h.eff, State.elapsed, State.elapsed, h.mono]

theorem State.PtpSent.ptpCode : t.ptpCode m = s.ptpCode m := by
  rw [State.ptpCode, State.ptpCode, h.staOn, pu_congr h.eff, h.ptpRuns, h.ptpRuns, h.ptpWish, h.ptpWish, h.ptpBest, h.ptpBest,
    h.part (f := StaPort.linkUp) fun _ => rfl, h.part (f := StaPort.servo) fun _ => rfl]

end

theorem ptpCode_of_stopped {s : State} {n : Nat} (h : s.ptpRuns n = false) : s.ptpCode n ≠ 6 := by
  rw [State.ptpCode]
  split
  · decide
  split
  · decide
  split
  · decide
  · decide

end Sys2Proof.Machine
end

section
/-!
PROOFS. The station ports (O25): the rows of the ports, and the settling of the statement.
-/

namespace Sys2Proof.Machine

open Host

/-! ### Frames received (R210 to R213) -/

/-- A state after a port has taken a frame. -/
structure State.FrameTaken (n : Nat) (s t : State) : Prop where
  /-- The parts. -/
  keeps : Keeps 1604 s t
  /-- Tick time. -/
  tick : t.time.tick = s.time.tick
  /-- The port's launch queue. -/
  queue : (t.port n).queue = (s.port n).queue
  /-- The other port. -/
  other : ∀ m, m ≠ n → t.port m = s.port m
  /-- The frames received. -/
  received : (t.counts 0x0707 n).getD 1 0 = (s.counts 0x0707 n).getD 1 0

namespace State.FrameTaken

variable {n : Nat} {s t u : State}

theorem refl (n : Nat) (s : State) : FrameTaken n s s := ⟨.refl _ s, rfl, rfl, fun _ _ => rfl, rfl⟩

theorem trans (h : FrameTaken n s t) (k : FrameTaken n t u) : FrameTaken n s u :=
  ⟨h.keeps.trans k.keeps, k.tick.trans h.tick, k.queue.trans h.queue, fun m ne => (k.other m ne).trans (h.other m ne),
    k.received.trans h.received⟩

end State.FrameTaken

theorem State.PtpSent.taken {n : Nat} {s t : State} (h : State.PtpSent n s t) : State.FrameTaken n s t :=
  ⟨h.keeps.weaken (by decide), by rw [h.time], h.queue, h.other, h.received⟩

theorem modPort_taken (n : Nat) (s : State) {f : StaPort → StaPort} (h : (f (s.port n)).queue = (s.port n).queue) :
    State.FrameTaken n s (s.modPort n f) :=
  ⟨modPort_keeps (by decide) (.refl _ s), rfl, by rw [port_modPort, h], fun m ne => port_modPort_ne s ne f, rfl⟩

theorem ptpServo_taken (n : Nat) (s : State) (off : Int) : State.FrameTaken n s (s.ptpServo n off) := by
  rw [State.ptpServo]
  have offset := modPort_taken n s (f := fun p => { p with servo := s.ptpParent n, ptpOffset := satI 32 off }) rfl
  refine iteInduction (motive := State.FrameTaken n s) (fun _ => iteInduction (motive := State.FrameTaken n s) (fun _ => ?_) fun _ => ?_) fun _ => offset
  · exact offset.trans ⟨ppsSync_keeps (by decide) (setParam_keeps (by decide) (.refl _ _)), rfl, rfl, fun _ _ => rfl, rfl⟩
  · exact offset.trans ⟨setTime_keeps (by decide) (tookFree_keeps (by decide) (.refl _ _)), rfl, rfl, fun _ _ => rfl, rfl⟩

theorem ptpHear_taken (n : Nat) (s : State) (m : Bytes) : State.FrameTaken n s (s.ptpHear n m) := by
  rw [State.ptpHear]
  exact iteInduction (motive := State.FrameTaken n s) (fun _ => .refl n s) fun _ => modPort_taken n s rfl

theorem ptpTake_taken (n : Nat) (s : State) (m : Bytes) (rx : Nat) : State.FrameTaken n s (s.ptpTake n m rx) := by
  rw [State.ptpTake]
  refine iteInduction (motive := State.FrameTaken n s) (fun _ => .refl n s) fun _ => ?_
  split
  · refine iteInduction (motive := State.FrameTaken n s) (fun _ => ?_) fun _ => .refl n s
    exact iteInduction (motive := State.FrameTaken n s) (fun _ => modPort_taken n s rfl) fun _ => ptpServo_taken ..
  · split
    · exact iteInduction (motive := State.FrameTaken n s) (fun _ => (modPort_taken n s rfl).trans (ptpServo_taken ..)) fun _ => .refl n s
    · exact .refl n s
  · exact (ptpSend_ptpSent ..).taken
  · exact iteInduction (motive := State.FrameTaken n s) (fun _ => modPort_taken n s rfl) fun _ => .refl n s
  · split
    · exact modPort_taken n s rfl
    · exact .refl n s
  · exact ptpHear_taken ..
  · exact .refl n s

theorem counts_of_five {s : State} {n a b c d f : Nat} (h : s.counts 0x0707 n = [a, b, c, d, f]) :
    (s.bump 0x0707 n 0).counts 0x0707 n = [min (2 ^ 32 - 1) (a + 1), b, c, d, f] ∧
    (s.bump 0x0707 n 1).counts 0x0707 n = [a, min (2 ^ 32 - 1) (b + 1), c, d, f] ∧
    (s.bump 0x0707 n 2).counts 0x0707 n = [a, b, min (2 ^ 32 - 1) (c + 1), d, f] ∧
    (s.bump 0x0707 n 3).counts 0x0707 n = [a, b, c, min 65535 (d + 1), f] ∧
    (s.bump 0x0707 n 4).counts 0x0707 n = [a, b, c, d, min 65535 (f + 1)] := by
  have widths : rcFields 0x0707 = [4, 4, 4, 2, 2] := by decide
  refine ⟨?_, ?_, ?_, ?_, ?_⟩ <;> rw [counts_bump, widths, h, satN_eq_min] <;> rfl

theorem staFrameRx_dropped {s : State} {port : Fin 2} {frame : List (BitVec 8)} {a b c d f : Nat} (up : s.staUp port = true)
    (counts : s.counts 0x0707 port = [a, b, c, d, f]) (admits : s.staAdmits port frame = false) :
    Next (exec (.staFrameRx port frame) s) fun t => Only [.par] s t ∧ t.counts 0x0707 port = [a, b, min (2 ^ 32 - 1) (c + 1), d, f] := by
  refine ⟨s.bump 0x0707 port 2, ?_, only_of (bump_keeps (by decide) (.refl _ s)), (counts_of_five counts).2.2.1⟩
  exact (if_pos up).trans (if_neg (by rw [admits]; decide))

theorem staFrameRx_taken {s : State} {port : Fin 2} {frame : List (BitVec 8)} {a b c d f : Nat} (up : s.staUp port = true)
    (counts : s.counts 0x0707 port = [a, b, c, d, f]) (admits : s.staAdmits port frame = true) :
    Lands (exec (.staFrameRx port frame) s) fun e => Only [.freeCount, .par, .time, .sta] s e ∧
      (e.counts 0x0707 port).getD 1 0 = min (2 ^ 32 - 1) (b + 1) ∧ e.time.tick = s.time.tick ∧ (e.port port).queue = (s.port port).queue ∧
      ∀ n, n ≠ port.val → e.port n = s.port n := by
  have taken := (ptpTake_taken port (s.bump 0x0707 port 1) (frame.drop (etherAt frame + 2)) (s.staRxStamp port)).trans
    (ptpDrain_ptpSent port _).taken
  refine ⟨_, (if_pos up).trans (if_pos admits), only_of ((bump_keeps (by decide) (.refl _ s)).trans taken.keeps), ?_, taken.tick, taken.queue,
    taken.other⟩
  rw [taken.received, (counts_of_five counts).2.1]
  rfl

theorem staFrameRx_down {s : State} {port : Fin 2} (frame : List (BitVec 8)) (down : s.staUp port = false) :
    exec (.staFrameRx port frame) s = .next s :=
  if_neg (Bool.eq_false_iff.1 down)

theorem staLinkUp_next {s : State} {port : Fin 2} (align : Fin 10) (on : s.staOn port = true) : Next (exec (.staLinkUp port align) s) fun t =>
    Only [.sta] s t ∧
      t.port port = { s.port port with linkUp := true, align, listenAt := if (s.port port).linkUp = true then (s.port port).listenAt else s.mono } ∧
      ∀ n, n ≠ port.val → t.port n = s.port n :=
  ⟨_, if_pos on, only_of (modPort_keeps (by decide) (.refl _ s)), port_modPort .., fun _ ne => port_modPort_ne s ne _⟩

/-! ### The timer of the PTP messages (R211, R214, R217) -/

/-- The Pdelay_Req a port sends. -/
def State.pdelayReq (s : State) (n : Nat) : PtpMsg :=
  { data := s.ptpFrame n (s.ptpHdr n 2 54 (s.port n).pdelaySeq 0 ++ beBytes 10 0 ++ beBytes 10 0), event := some (s.port n).pdelaySeq,
    keep := true, at_ := s.now }

/-- The state in which a Pdelay_Req is sent. -/
def State.pdelayBegun (s : State) (n : Nat) : State :=
  s.modPort n fun p => { p with pdelayAt := s.mono, pdelaySeq := (p.pdelaySeq + 1) % 2 ^ 16, pdelayT4 := none }

/-- The Sync a port sends, and the Follow_Up it announces. -/
def State.syncMsg (s : State) (n : Nat) : PtpMsg :=
  { data := s.ptpFrame n (s.ptpHdr n 0 44 (s.port n).syncSeq 0x0200 ++ beBytes 10 0), event := some (s.port n).syncSeq,
    follow := some (s.ptpFrame n (s.ptpHdr n 8 44 (s.port n).syncSeq 0), []), at_ := s.now }

/-- The state in which a Sync is sent. -/
def State.syncBegun (s : State) (n : Nat) : State :=
  s.modPort n fun p => { p with syncAt := s.mono, syncSeq := (p.syncSeq + 1) % 2 ^ 16 }

theorem ptpMessageTimer_run (s : State) (port : Fin 2) (kind : PtpTimer) : exec (.ptpMessageTimer port kind) s =
    let u := (s.ptpDrain port).ptpAnnounce port
    if u.ptpRuns port = false then .next u
    else match kind with
      | .pdelayReq => if u.elapsed (u.port port).pdelayAt (logTicks (u.ps 0x0705 port 5 1)) then
          .next ((u.pdelayBegun port).ptpSend port (u.pdelayReq port)) else .next u
      | .sync => if u.ptpCode port = 6 ∧ u.elapsed (u.port port).syncAt (logTicks (u.ps 0x0705 port 4 1)) = true then
          .next ((u.syncBegun port).ptpSend port (u.syncMsg port)) else .next u := rfl

theorem ptpBegun_ptpSent (n : Nat) (s : State) : State.PtpSent n s ((s.ptpDrain n).ptpAnnounce n) :=
  (ptpDrain_ptpSent n s).trans (ptpAnnounce_ptpSent n _)

theorem ptpMessageTimer_stopped {s : State} {port : Fin 2} (kind : PtpTimer) (stopped : s.ptpRuns port = false)
    (empty : (s.port port).ptpWait = []) : exec (.ptpMessageTimer port kind) s = .next s := by
  rw [ptpMessageTimer_run, ptpDrain_of_empty empty, ptpAnnounce_of_ne (ptpCode_of_stopped stopped)]
  exact if_pos stopped

theorem getLast?_drop_append {α : Type} (l : List α) (y : α) (k : Nat) : ((l ++ [y]).drop (l.length - k)).getLast? = some y := by
  rw [List.drop_append_of_le_length (Nat.sub_le ..), List.getLast?_append, List.getLast?_singleton, Option.some_or]

/-- A port that sends a message. -/
def State.ptpTx (s : State) (n : Nat) (x : PtpMsg) (rest : List PtpMsg) (start : Nat) : State :=
  (s.modPort n fun p =>
    { p with ptpWait := rest, ptpOut := (p.ptpOut ++ [wireFrame x.data]).drop (p.ptpOut.length - 7),
             busyUntil := start + frameTicks x.data.length }).bump 0x0707 n 0

theorem ptpTx_port (s : State) (n : Nat) (x : PtpMsg) (rest : List PtpMsg) (start : Nat) : (s.ptpTx n x rest start).port n =
    { s.port n with ptpWait := rest, ptpOut := ((s.port n).ptpOut ++ [wireFrame x.data]).drop ((s.port n).ptpOut.length - 7),
                    busyUntil := start + frameTicks x.data.length } := port_modPort ..

theorem stampPut_full {s : State} {n : Nat} (x : StaStamp) (full : 16 ≤ (s.port n).stamps.length) :
    s.stampPut n x = (s.bump 0x0707 n 4, false) := if_pos full

theorem stampPut_free {s : State} {n : Nat} (x : StaStamp) (free : ¬16 ≤ (s.port n).stamps.length) :
    s.stampPut n x = (s.modPort n fun p => { p with stamps := p.stamps ++ [x] }, true) := if_neg free

theorem stampPop_port (s : State) (n : Nat) : (s.stampPop n).port n =
    { s.port n with stamps := (s.port n).stamps.dropWhile fun x => decide (0xF000 ≤ x.id) } := port_modPort ..

theorem ptpOut1_event {s : State} {n : Nat} {x : PtpMsg} {seq : Nat} (rest : List PtpMsg) (start : Nat) (event : x.event = some seq)
    (alone : x.follow = none) (keep : x.keep = true) : s.ptpOut1 n x rest start =
    let t := start + 384 + s.pu 0x0703 n 0 2
    let r := (s.ptpTx n x rest start).stampPut n { id := 0xF000 + seq % 0x1000, late := false, tick := t }
    if r.2 then (r.1.stampPop n).modPort n fun p => { p with pdelayT1 := t } else r.1.stampPop n := by
  rw [State.ptpOut1, event, alone, keep]
  rfl

/-- What a message without a follower leaves of its port as it is sent. -/
theorem ptpOut1_port {s : State} {n : Nat} {x : PtpMsg} {seq : Nat} (start : Nat) (event : x.event = some seq) (alone : x.follow = none)
    (keep : x.keep = true) : let p := (s.ptpOut1 n x [] start).port n
    p.ptpWait = [] ∧ p.ptpOut.getLast? = some (wireFrame x.data) ∧
      ((s.port n).stamps.length < 16 → p.pdelayT1 = start + 384 + s.pu 0x0703 n 0 2) := by
  have sent := ptpTx_port s n x [] start
  rw [ptpOut1_event [] start event alone keep]
  dsimp only
  generalize s.ptpTx n x [] start = u at *
  have last := getLast?_drop_append (s.port n).ptpOut (wireFrame x.data) 7
  by_cases full : 16 ≤ (u.port n).stamps.length
  · rw [stampPut_full _ full, if_neg Bool.false_ne_true, stampPop_port, show (u.bump 0x0707 n 4).port n = u.port n from rfl, sent]
    exact ⟨rfl, last, fun few => absurd full (by rw [sent]; exact Nat.not_le.2 few)⟩
  · rw [stampPut_free _ full, if_pos rfl, port_modPort, stampPop_port, port_modPort, sent]
    exact ⟨rfl, last, fun _ => rfl⟩

/-- A message that finds its port free is sent at once, and its stamp is kept where there is a place for it. -/
theorem ptpSend_alone {s : State} {n : Nat} {x : PtpMsg} {seq : Nat} (up : s.staUp n = true) (empty : (s.port n).ptpWait = [])
    (idle : (s.port n).queue = []) (free : (s.port n).busyUntil = 0) (now : x.at_ = s.now) (event : x.event = some seq) (alone : x.follow = none)
    (keep : x.keep = true) :
    ((s.ptpSend n x).port n).ptpOut.getLast? = some (wireFrame x.data) ∧
      ((s.port n).stamps.length < 16 → ((s.ptpSend n x).port n).pdelayT1 = s.now + 384 + s.pu 0x0703 n 0 2) := by
  let w := s.modPort n fun p => { p with ptpWait := p.ptpWait ++ [x] }
  have own : w.port n = { s.port n with ptpWait := [x] } := by rw [port_modPort, empty]; rfl
  have free' : w.portFree n x.at_ = s.now := by rw [State.portFree, own, now, free]; exact Nat.max_zero _
  obtain ⟨waits, out, stamp⟩ := ptpOut1_port (s := w) s.now event alone keep (n := n)
  have runs : s.ptpSend n x = w.ptpOut1 n x [] s.now := by
    have first : s.ptpSend n x = State.ptpDrainN 1 n (w.ptpOut1 n x [] s.now) := by
      rw [State.ptpSend, State.ptpDrain]
      change State.ptpDrainN (2 * (w.port n).ptpWait.length) n w = _
      rw [own]
      change State.ptpDrainN 2 n w = _
      rw [State.ptpDrainN, own]
      dsimp only
      rw [free', idle, if_neg]
      rintro (late | timed | down)
      · exact absurd late (Nat.lt_irrefl _)
      · exact Bool.false_ne_true timed
      · refine absurd up (Bool.eq_false_iff.1 (Eq.trans ?_ down))
        rw [State.staUp, State.staUp, own]
        rfl
    rw [first, State.ptpDrainN, waits]
  rw [runs]
  exact ⟨out, fun few => stamp (by rw [own]; exact few)⟩

/-- What a Pdelay_Req leaves of its port, but for what is sent. -/
theorem pdelayBegun_sent (n : Nat) (s : State) : let t := (s.pdelayBegun n).ptpSend n (s.pdelayReq n)
    Keeps 1088 s t ∧ (t.port n).pdelayAt = s.mono ∧ (t.port n).pdelaySeq = ((s.port n).pdelaySeq + 1) % 65536 ∧ (t.port n).pdelayT4 = none ∧
      (t.port n).queue = (s.port n).queue ∧ ∀ m, m ≠ n → t.port m = s.port m := by
  have sent := ptpSend_ptpSent n (s.pdelayBegun n) (s.pdelayReq n)
  have own : (s.pdelayBegun n).port n =
    { s.port n with pdelayAt := s.mono, pdelaySeq := ((s.port n).pdelaySeq + 1) % 2 ^ 16, pdelayT4 := none } := port_modPort ..
  refine ⟨(modPort_keeps (by decide) (.refl _ s)).trans sent.keeps, (sent.field (f := StaPort.pdelayAt) fun _ => rfl).trans (by rw [own]),
    (sent.field (f := StaPort.pdelaySeq) fun _ => rfl).trans (by rw [own]; rfl), (sent.field (f := StaPort.pdelayT4) fun _ => rfl).trans (by rw [own]),
    sent.queue.trans (by rw [own]), fun m ne => (sent.other m ne).trans (port_modPort_ne s ne _)⟩

theorem pdelayReq_next {s : State} {port : Fin 2} (runs : s.ptpRuns port = true)
    (due : (s.port port).pdelayAt + logTicks (s.ps 0x0705 port 5 1) ≤ s.mono) : Next (exec (.ptpMessageTimer port .pdelayReq) s) fun t =>
      Only [.par, .sta] s t ∧ (t.port port).pdelayAt = s.mono ∧ (t.port port).pdelaySeq = ((s.port port).pdelaySeq + 1) % 65536 ∧
      (t.port port).pdelayT4 = none ∧ (t.port port).queue = (s.port port).queue ∧ (∀ n, n ≠ port.val → t.port n = s.port n) ∧
      (s.ptpCode port ≠ 6 → (s.port port).ptpWait = [] → (s.port port).queue = [] → (s.port port).busyUntil = 0 →
        (t.port port).ptpOut.getLast? = some (wireFrame (s.ptpFrame port
          (s.ptpHdr port 2 54 (s.port port).pdelaySeq 0 ++ beBytes 10 0 ++ beBytes 10 0))) ∧
        ((s.port port).stamps.length < 16 → (t.port port).pdelayT1 = s.now + 384 + s.pu 0x0703 port 0 2)) := by
  have begun := ptpBegun_ptpSent port s
  have run := ptpMessageTimer_run s port .pdelayReq
  have quiet : s.ptpCode port ≠ 6 → (s.port port).ptpWait = [] → (s.ptpDrain port).ptpAnnounce port = s := fun slave empty => by
    rw [ptpDrain_of_empty empty, ptpAnnounce_of_ne slave]
  generalize (s.ptpDrain port).ptpAnnounce port = u at *
  dsimp only at run
  rw [if_neg (by rw [begun.ptpRuns, runs]; decide), if_pos (elapsed_of_le (by
    rw [begun.field (f := StaPort.pdelayAt) fun _ => rfl, ps_congr begun.eff, begun.mono]; exact due))] at run
  obtain ⟨keeps, at_, seq, t4, queue, other⟩ := pdelayBegun_sent port u
  refine ⟨_, run, only_of (begun.keeps.trans keeps), at_.trans begun.mono, ?_, t4, queue.trans begun.queue,
    fun n ne => (other n ne).trans (begun.other n ne), fun slave empty idle free => ?_⟩
  · rw [seq, begun.field (f := StaPort.pdelaySeq) fun _ => rfl]
  · rw [quiet slave empty]
    have own : (s.pdelayBegun port).port port =
      { s.port port with pdelayAt := s.mono, pdelaySeq := ((s.port port).pdelaySeq + 1) % 2 ^ 16, pdelayT4 := none } := port_modPort ..
    have up : (s.pdelayBegun port).staUp port = true := by
      rw [State.ptpRuns, Bool.and_eq_true] at runs
      rw [← runs.1, State.staUp, State.staUp, own]
      rfl
    obtain ⟨out, stamp⟩ := ptpSend_alone (x := s.pdelayReq port) up (by rw [own, ← empty]) (by rw [own, ← idle]) (by rw [own, ← free]) rfl rfl rfl rfl
    exact ⟨out, fun few => stamp (by rw [own]; exact few)⟩

theorem syncBegun_sent (n : Nat) (s : State) : let t := (s.syncBegun n).ptpSend n (s.syncMsg n)
    Keeps 1088 s t ∧ (t.port n).syncAt = s.mono ∧ (t.port n).syncSeq = ((s.port n).syncSeq + 1) % 65536 ∧
      (t.port n).queue = (s.port n).queue ∧ ∀ m, m ≠ n → t.port m = s.port m := by
  have sent := ptpSend_ptpSent n (s.syncBegun n) (s.syncMsg n)
  have own : (s.syncBegun n).port n = { s.port n with syncAt := s.mono, syncSeq := ((s.port n).syncSeq + 1) % 2 ^ 16 } := port_modPort ..
  refine ⟨(modPort_keeps (by decide) (.refl _ s)).trans sent.keeps, (sent.field (f := StaPort.syncAt) fun _ => rfl).trans (by rw [own]),
    (sent.field (f := StaPort.syncSeq) fun _ => rfl).trans (by rw [own]; rfl), sent.queue.trans (by rw [own]),
    fun m ne => (sent.other m ne).trans (port_modPort_ne s ne _)⟩

theorem sync_next {s : State} {port : Fin 2} (master : s.ptpCode port = 6) (runs : s.ptpRuns port = true)
    (due : (s.port port).syncAt + logTicks (s.ps 0x0705 port 4 1) ≤ s.mono) : Next (exec (.ptpMessageTimer port .sync) s) fun t =>
      Only [.par, .sta] s t ∧ (t.port port).syncAt = s.mono ∧ (t.port port).syncSeq = ((s.port port).syncSeq + 1) % 65536 ∧
      (t.port port).queue = (s.port port).queue ∧ ∀ n, n ≠ port.val → t.port n = s.port n := by
  have begun := ptpBegun_ptpSent port s
  have run := ptpMessageTimer_run s port .sync
  generalize (s.ptpDrain port).ptpAnnounce port = u at *
  dsimp only at run
  rw [if_neg (by rw [begun.ptpRuns, runs]; decide), if_pos ⟨begun.ptpCode.trans master, elapsed_of_le (by
    rw [begun.field (f := StaPort.syncAt) fun _ => rfl, ps_congr begun.eff, begun.mono]; exact due)⟩] at run
  obtain ⟨keeps, at_, seq, queue, other⟩ := syncBegun_sent port u
  refine ⟨_, run, only_of (begun.keeps.trans keeps), at_.trans begun.mono, ?_, queue.trans begun.queue,
    fun n ne => (other n ne).trans (begun.other n ne)⟩
  rw [seq, begun.field (f := StaPort.syncSeq) fun _ => rfl]

end Sys2Proof.Machine
end

section
/-!
PROOFS. The station ports (O25): the launch of frames and the two commands, and the settling of the statement.
-/

namespace Sys2Proof.Machine

open Host

/-! ### Launches (R210, R216 to R218) -/

/-- A port that launches a frame. -/
def State.launched (s : State) (n : Nat) (x : StaFrame) (rest : List StaFrame) (start : Nat) : State :=
  (s.tookFree.modPort n fun p => { p with queue := rest, lastTx := wireFrame x.data, busyUntil := start + frameTicks x.data.length }).bump 0x0707 n 0

/-- A launch that counts as late, or does not. -/
def State.lateAs (s : State) (n : Nat) (late : Bool) : State := if late then s.bump 0x0707 n 3 else s

theorem lateAs_port (s : State) (n m : Nat) (late : Bool) : (s.lateAs n late).port m = s.port m := by
  rw [State.lateAs]
  split <;> rfl

theorem lateAs_keeps (s : State) (n : Nat) (late : Bool) : Keeps 64 s (s.lateAs n late) :=
  keeps_ite (fun _ => bump_keeps (by decide) (.refl _ s)) fun _ => .refl _ s

theorem lateAs_counts {s : State} {n a b c d f : Nat} (h : s.counts 0x0707 n = [a, b, c, d, f]) (late : Bool) :
    (s.lateAs n late).counts 0x0707 n = [a, b, c, if late = true then min 65535 (d + 1) else d, f] := by
  cases late
  · exact h
  · exact (counts_of_five h).2.2.2.1

theorem staLaunchDue_run (s : State) (port : Fin 2) : exec (.staLaunchDue port) s =
    let u := s.ptpDrain port
    match (u.port port).queue with
    | [] => .next u
    | x :: rest =>
      let start := u.portFree port x.at_
      let late := x.late || decide (x.at_ < start)
      let v := (u.launched port x rest start).lateAs port late
      if u.now < start ∨ u.staUp port = false then .next u
      else .next (if x.stamp then ((v.stampPut port { id := x.id, late, tick := start + u.freeVal % 65 }).1).stampPop port else v) := rfl

theorem staLaunchDue_down {s : State} {port : Fin 2} (down : s.staUp port = false) (empty : (s.port port).ptpWait = []) :
    exec (.staLaunchDue port) s = .next s := by
  rw [staLaunchDue_run, ptpDrain_of_empty empty]
  dsimp only
  split
  · rfl
  · exact if_pos (.inr down)

theorem staLaunchDue_next {s u : State} {port : Fin 2} {x : StaFrame} {rest : List StaFrame} {a b c d f : Nat} (drained : s.ptpDrain port = u)
    (queue : (u.port port).queue = x :: rest) (due : u.portFree port x.at_ ≤ s.now) (up : s.staUp port = true)
    (counts : u.counts 0x0707 port = [a, b, c, d, f]) : Next (exec (.staLaunchDue port) s) fun t =>
      Only [.freeCount, .par, .sta] s t ∧ (t.port port).queue = rest ∧ (t.port port).lastTx = wireFrame x.data ∧
      (t.port port).busyUntil = u.portFree port x.at_ + frameTicks x.data.length ∧
      (let late := x.late || decide (x.at_ < u.portFree port x.at_)
        let lost := x.stamp && decide (16 ≤ (u.port port).stamps.length)
        t.counts 0x0707 port = [min (2 ^ 32 - 1) (a + 1), b, c, if late = true then min 65535 (d + 1) else d,
          if lost = true then min 65535 (f + 1) else f] ∧
        (x.stamp = false → (t.port port).stamps = (u.port port).stamps) ∧
        (x.stamp = true → lost = false → ∃ k ≤ 64, (t.port port).stamps = List.dropWhile (fun y : StaStamp => decide (0xF000 ≤ y.id))
          ((u.port port).stamps ++ [{ id := x.id, late, tick := u.portFree port x.at_ + k }]))) ∧
      ∀ n, n ≠ port.val → t.port n = s.port n := by
  have sent := drained ▸ ptpDrain_ptpSent port s
  have run := staLaunchDue_run s port
  rw [drained] at run
  dsimp only at run
  rw [queue] at run
  dsimp only at run
  have now : u.now = s.now := by rw [State.now, State.now, sent.time]
  generalize u.portFree port x.at_ = start at *
  rw [if_neg (by rw [not_or, now, sent.staUp, up]; exact ⟨Nat.not_lt.2 due, by decide⟩)] at run
  generalize hl : (x.late || decide (x.at_ < start)) = late at *
  have small : u.freeVal % 65 ≤ 64 := Nat.le_of_lt_succ (Nat.mod_lt _ (by decide))
  generalize u.freeVal % 65 = k at *
  have own : ((u.launched port x rest start).lateAs port late).port port =
      { u.port port with queue := rest, lastTx := wireFrame x.data, busyUntil := start + frameTicks x.data.length } := by
    rw [lateAs_port]
    exact port_modPort ..
  have other : ∀ n, n ≠ port.val → ((u.launched port x rest start).lateAs port late).port n = s.port n := fun n ne => by
    rw [lateAs_port, ← sent.other n ne]
    exact port_modPort_ne _ ne _
  have kept : Keeps 1092 s ((u.launched port x rest start).lateAs port late) :=
    ((sent.keeps.weaken (by decide)).trans (bump_keeps (by decide) (modPort_keeps (by decide) (tookFree_keeps (by decide) (.refl _ u))))).trans
      ((lateAs_keeps _ _ _).weaken (by decide))
  have counted : ((u.launched port x rest start).lateAs port late).counts 0x0707 port =
      [min (2 ^ 32 - 1) (a + 1), b, c, if late = true then min 65535 (d + 1) else d, f] :=
    lateAs_counts ((counts_of_five (s := u.tookFree.modPort port _) counts).1) late
  generalize (u.launched port x rest start).lateAs port late = v at *
  cases stamp : x.stamp with
  | false =>
    rw [if_neg (by rw [stamp]; decide)] at run
    refine ⟨v, run, only_of kept, by rw [own], by rw [own], by rw [own], ⟨counted, fun _ => by rw [own], (nomatch ·)⟩, other⟩
  | true =>
    rw [if_pos stamp] at run
    have popped := stampPop_keeps (M := 1092) (a1 := port) (by decide) (stampPut_keeps (a1 := port) (a2 := { id := x.id, late, tick := start + k })
      (by decide) kept)
    refine ⟨_, run, only_of popped, ?_⟩
    have same : (v.port port).stamps = (u.port port).stamps := by rw [own]
    by_cases full : 16 ≤ (u.port port).stamps.length
    · rw [stampPut_full _ (by rw [same]; exact full), stampPop_port, show (v.bump 0x0707 port 4).port port = v.port port from rfl, own]
      refine ⟨rfl, rfl, rfl, ⟨?_, (nomatch ·), fun _ lost => ?_⟩, fun n ne => (port_modPort_ne _ ne _).trans (other n ne)⟩
      · rw [Bool.true_and, decide_eq_true full, if_pos rfl]
        exact (counts_of_five counted).2.2.2.2
      · rw [Bool.true_and, decide_eq_true full] at lost
        exact absurd lost.symm Bool.false_ne_true
    · rw [stampPut_free _ (by rw [same]; exact full), stampPop_port, port_modPort, own]
      refine ⟨rfl, rfl, rfl, ⟨?_, (nomatch ·), fun _ _ => ⟨k, small, rfl⟩⟩,
        fun n ne => (port_modPort_ne _ ne _).trans ((port_modPort_ne _ ne _).trans (other n ne))⟩
      rw [Bool.true_and, decide_eq_false full, if_neg Bool.false_ne_true]
      exact counted

/-! ### The commands (R189, R216 to R218, R228, R229) -/

theorem length_launchInsert (x : StaFrame) (l : List StaFrame) : (launchInsert x l).length = l.length + 1 := by
  induction l with
  | nil => rfl
  | cons y r ih =>
    rw [launchInsert]
    split
    · rw [List.length_cons, ih, List.length_cons]
    · rfl

/-- The frame of a request, put into its port's launch queue. -/
def State.queued (s : State) (port off len : Nat) (x : StaFrame) : State :=
  (s.mpTook off len).modPort port fun p => { p with queue := launchInsert x p.queue }

theorem mpTook_port (s : State) (off len n : Nat) : (s.mpTook off len).port n = s.port n := by
  rw [State.port, (mpTook_beside s off len).1.sta (by decide), State.port]

theorem queued_port (s : State) (port off len : Nat) (x : StaFrame) : (s.queued port off len x).port port =
    { s.port port with queue := launchInsert x (s.port port).queue } := by
  rw [State.queued, port_modPort, mpTook_port]

theorem queued_port_ne (s : State) {n port : Nat} (ne : n ≠ port) (off len : Nat) (x : StaFrame) : (s.queued port off len x).port n = s.port n :=
  (port_modPort_ne _ ne _).trans (mpTook_port s off len n)

@[simp] theorem reply_port (s : State) (mb status : Nat) (payload : Bytes) (n : Nat) : (s.reply mb status payload).port n = s.port n :=
  congrArg (fun l => l.get {} n) ((reply_keeps (M := 80) (by decide) (.refl _ s)).sta (by decide))

theorem staLaunch_lands {s : State} {mb : Fin 8} {q : Request} (runs : s.Runs mb 0x0710 q) : Lands (exec (.staLaunch mb) s) fun e =>
    let p := uAt q.payload 0 1
    let id := uAt q.payload 2 2
    let off := uAt q.payload 8 4
    let len := uAt q.payload 12 2
    let d := shortDiff (uAt q.payload 4 4) s.shortNow
    let tells := fun status (reason : Byte) => Only [.hatch] s e ∧ s.Replies e mb q status [reason, 0, 0xFF, 0xFF]
    if 1 < p then tells stBadParam 0x05
    else if s.staOn p = false then tells stRefused 0x36
    else if 0xF000 ≤ id then tells stBadParam 0x35
    else if len < 14 ∨ 1514 < len ∨ 0x1C0000 < off + len then tells stBadParam 0x05
    else if 800000000 < d then tells stBadParam 0x34
    else if d ≤ 0 ∧ s.pu 0x0708 p 0 1 = 0 then tells stRefused 0x33
    else if 32 ≤ (s.port p).queue.length then ∃ us, Only [.hatch, .par] s e ∧ s.Replies e mb q stBusy (leBytes 4 us) ∧
      ∀ x rest, (s.port p).queue = x :: rest → us = ceilDiv (s.portFree p x.at_ - s.now) 8000
    else Only [.hatch, .par, .pantry, .sta] s e ∧ s.Replies e mb q stOk (leBytes 1 (31 - (s.port p).queue.length) ++ [0, 0, 0]) ∧
      (e.port p).queue = launchInsert ⟨id, bit (uAt q.payload 1 1) 0, decide (d ≤ 0),
        if d ≤ 0 then s.now else s.tickOf (uAt q.payload 4 4), s.mpRead off len⟩ (s.port p).queue ∧
      ∀ n, n ≠ p → e.port n = s.port n := by
  have run : exec (.staLaunch mb) s = (if 1 < uAt q.payload 0 1 then s.refuse mb stBadParam 0x05
      else if s.staOn (uAt q.payload 0 1) = false then s.refuse mb stRefused 0x36
      else if 0xF000 ≤ uAt q.payload 2 2 then s.refuse mb stBadParam 0x35
      else if inR (uAt q.payload 12 2) 14 1514 = false ∨ spanOk (uAt q.payload 8 4) (uAt q.payload 12 2) = false then s.refuse mb stBadParam 0x05
      else if 800000000 < shortDiff (uAt q.payload 4 4) s.shortNow then s.refuse mb stBadParam 0x34
      else if shortDiff (uAt q.payload 4 4) s.shortNow ≤ 0 ∧ s.pu 0x0708 (uAt q.payload 0 1) 0 1 = 0 then s.refuse mb stRefused 0x33
      else if 32 ≤ (s.port (uAt q.payload 0 1)).queue.length then
        s.busy mb (ceilDiv (s.portFree (uAt q.payload 0 1) ((((s.port (uAt q.payload 0 1)).queue.map (·.at_)).head?).getD s.now) - s.now) 8000)
      else (s.queued (uAt q.payload 0 1) (uAt q.payload 8 4) (uAt q.payload 12 2) ⟨uAt q.payload 2 2, bit (uAt q.payload 1 1) 0,
          decide (shortDiff (uAt q.payload 4 4) s.shortNow ≤ 0),
          if shortDiff (uAt q.payload 4 4) s.shortNow ≤ 0 then s.now else s.tickOf (uAt q.payload 4 4),
          s.mpRead (uAt q.payload 8 4) (uAt q.payload 12 2)⟩).replyOk mb
        (leBytes 1 (32 - ((s.queued (uAt q.payload 0 1) (uAt q.payload 8 4) (uAt q.payload 12 2) ⟨uAt q.payload 2 2, bit (uAt q.payload 1 1) 0,
          decide (shortDiff (uAt q.payload 4 4) s.shortNow ≤ 0),
          if shortDiff (uAt q.payload 4 4) s.shortNow ≤ 0 then s.now else s.tickOf (uAt q.payload 4 4),
          s.mpRead (uAt q.payload 8 4) (uAt q.payload 12 2)⟩).port (uAt q.payload 0 1)).queue.length) ++ [0, 0, 0])).done :=
    congrArg State.done (withCmd_runs runs _ _)
  generalize s.tickOf (uAt q.payload 4 4) = tick at *
  generalize uAt q.payload 0 1 = p, uAt q.payload 2 2 = id, uAt q.payload 8 4 = off, uAt q.payload 12 2 = len,
    shortDiff (uAt q.payload 4 4) s.shortNow = d, bit (uAt q.payload 1 1) 0 = stamp at *
  generalize hx : (⟨id, stamp, decide (d ≤ 0), if d ≤ 0 then s.now else tick, s.mpRead off len⟩ : StaFrame) = x at *
  have span : (inR len 14 1514 = false ∨ spanOk off len = false) ↔ (len < 14 ∨ 1514 < len ∨ 0x1C0000 < off + len) := by
    rw [inR_false, spanOk, decide_eq_false_iff_not, Nat.not_le, or_assoc]
  simp only [span] at run
  dsimp only
  refine lands_ite (fun bad => refuse_lands runs.taken (by decide) 0x05 (run.trans (congrArg State.done (if_pos bad)))) fun good => ?_
  rw [if_neg good] at run
  refine lands_ite (fun bad => refuse_lands runs.taken (by decide) 0x36 (run.trans (congrArg State.done (if_pos bad)))) fun good => ?_
  rw [if_neg good] at run
  refine lands_ite (fun bad => refuse_lands runs.taken (by decide) 0x35 (run.trans (congrArg State.done (if_pos bad)))) fun good => ?_
  rw [if_neg good] at run
  refine lands_ite (fun bad => refuse_lands runs.taken (by decide) 0x05 (run.trans (congrArg State.done (if_pos bad)))) fun good => ?_
  rw [if_neg good] at run
  refine lands_ite (fun bad => refuse_lands runs.taken (by decide) 0x34 (run.trans (congrArg State.done (if_pos bad)))) fun good => ?_
  rw [if_neg good] at run
  refine lands_ite (fun bad => refuse_lands runs.taken (by decide) 0x33 (run.trans (congrArg State.done (if_pos bad)))) fun good => ?_
  rw [if_neg good] at run
  refine lands_ite (fun full => ?_) fun room => ?_
  · rw [if_pos full] at run
    refine ⟨_, run, _, only_of (busy_keeps (by decide) (.refl _ s)), reply_replies runs.taken stBusy _, fun y rest queue => ?_⟩
    rw [queue]
    rfl
  · rw [if_neg room] at run
    rw [queued_port, show 32 - (launchInsert x (s.port p).queue).length = 31 - (s.port p).queue.length by rw [length_launchInsert]; omega] at run
    obtain ⟨keeps, beside⟩ := mpTook_beside s off len
    obtain ⟨part, replies⟩ := reply_ends (u := s.queued p off len x) runs.taken (l := [.par, .pantry, .sta])
      (only_of (modPort_keeps (by decide) (keeps.weaken (by decide)))) beside.hatch beside.twin (status := stOk) (by decide)
      (leBytes 1 (31 - (s.port p).queue.length) ++ [0, 0, 0])
    refine ⟨_, run, part, replies, ?_, fun n ne => ?_⟩
    · exact (congrArg StaPort.queue (reply_port ..)).trans (by rw [queued_port, hx])
    · exact (reply_port ..).trans (queued_port_ne s ne off len x)

theorem dropWhile_filter {α : Type} (p : α → Bool) (l : List α) : (l.filter p).dropWhile p = [] :=
  List.dropWhile_eq_nil_iff.2 fun _ mem => (List.mem_filter.1 mem).2

theorem staStampRead_lands {s : State} {mb : Fin 8} {q : Request} (runs : s.Runs mb 0x0711 q) : Lands (exec (.staStampRead mb) s) fun e =>
    let p := uAt q.payload 0 1
    let mine := (s.port p).stamps.filter fun x => decide (x.id < 0xF000)
    if 1 < p then Only [.hatch] s e ∧ s.Replies e mb q stBadParam [0x05, 0, 0xFF, 0xFF]
    else Only [.hatch, .sta] s e ∧ e.port p = { s.port p with stamps := [] } ∧ (∀ n, n ≠ p → e.port n = s.port n) ∧
      s.Replies e mb q stOk (leBytes 1 mine.length ++ [0] ++ leBytes 2 ((s.counts 0x0707 p).getD 4 0) ++
        (mine.map fun x => leBytes 2 x.id ++ leBytes 2 (b2n x.late) ++ leBytes 8 x.tick).flatten) := by
  let kept (p : Nat) := (s.modPort p fun x => { x with stamps := x.stamps.filter fun y => decide (0xF000 ≤ y.id) }).stampPop p
  let payload (p : Nat) := leBytes 1 ((s.port p).stamps.filter fun x => decide (x.id < 0xF000)).length ++ [0] ++
    leBytes 2 ((s.counts 0x0707 p).getD 4 0) ++ (((s.port p).stamps.filter fun x => decide (x.id < 0xF000)).map
      fun x => leBytes 2 x.id ++ leBytes 2 (b2n x.late) ++ leBytes 8 x.tick).flatten
  have run : exec (.staStampRead mb) s = (if 1 < uAt q.payload 0 1 then s.refuse mb stBadParam 0x05
      else (kept (uAt q.payload 0 1)).replyOk mb (payload (uAt q.payload 0 1))).done := congrArg State.done (withCmd_runs runs _ _)
  dsimp only
  generalize uAt q.payload 0 1 = p at *
  refine lands_ite (fun bad => refuse_lands runs.taken (by decide) 0x05 (run.trans (congrArg State.done (if_pos bad)))) fun good => ?_
  rw [if_neg good] at run
  obtain ⟨part, replies⟩ := reply_ends (u := kept p) runs.taken (l := [.sta])
    (only_of (stampPop_keeps (by decide) (modPort_keeps (by decide) (.refl _ s)))) rfl rfl (status := stOk) (by decide) (payload p)
  refine ⟨_, run, part, (reply_port ..).trans ?_, fun n ne => (reply_port ..).trans ?_, replies⟩
  · rw [stampPop_port, port_modPort]
    dsimp only
    rw [dropWhile_filter]
  · exact (port_modPort_ne _ ne _).trans (port_modPort_ne s ne _)

/-- Settles O25: frames received, a link's alignment, the PTP messages' timer and the launches row by row, then the two commands. -/
theorem stationPorts : Obligations.StationPorts := by
  unfold Obligations.StationPorts
  intro s port
  exact ⟨fun frame a b c d f up counts => ⟨staFrameRx_dropped up counts, staFrameRx_taken up counts⟩,
    fun frame down => staFrameRx_down frame down, fun align on => staLinkUp_next align on, fun runs due => pdelayReq_next runs due,
    fun master runs due => sync_next master runs due, fun kind stopped empty => ptpMessageTimer_stopped kind stopped empty,
    fun x rest a b c d f => staLaunchDue_next rfl, fun down empty => staLaunchDue_down down empty,
    fun mb q runs => staLaunch_lands runs, fun mb q runs => staStampRead_lands runs⟩

end Sys2Proof.Machine
end

section
/-!
PROOFS. What the operations of the time unit leave (O24, O26): the choice of a source, a step of tick time, and the replies to the mailboxes of a claim.
-/

namespace Sys2Proof.Machine

open Host

/-! ### A reply to each mailbox of a list -/

theorem reply_untaken {s : State} {mb : Nat} (h : (s.box mb).taken = none) (status : Nat) (payload : Bytes) : s.reply mb status payload = s := by
  rw [State.reply, State.writeReply, h]

/-- A reply to each mailbox of a list. -/
def State.replyAll (s : State) (l : List Nat) (status : Nat) (payload : Bytes) : State := l.foldl (fun s mb => s.reply mb status payload) s

theorem replyAll_untaken (l : List Nat) {s : State} {n : Nat} (h : (s.box n).taken = none) (status : Nat) (payload : Bytes) :
    (s.replyAll l status payload).box n = s.box n := by
  induction l generalizing s with
  | nil => rfl
  | cons m l ih =>
    have same : (s.reply m status payload).box n = s.box n := by
      by_cases own : n = m
      · rw [← own, reply_untaken h]
      · exact reply_box_ne own _ _
    exact (ih (by rw [same]; exact h)).trans same

theorem replyAll_box_ne {l : List Nat} {n : Nat} (h : n ∉ l) (s : State) (status : Nat) (payload : Bytes) :
    (s.replyAll l status payload).box n = s.box n := by
  induction l generalizing s with
  | nil => rfl
  | cons m l ih =>
    obtain ⟨own, rest⟩ := not_or.1 (mt List.mem_cons.2 h)
    exact (ih rest _).trans (reply_box_ne own _ _)

/-- A mailbox of the list has its reply, once. -/
theorem replyAll_box {l : List Nat} {s : State} {n : Nat} {q : Request} (mem : n ∈ l) (taken : (s.box n).taken = some q) (status : Nat)
    (payload : Bytes) : (s.replyAll l status payload).box n = (s.box n).replied q status s.twin.epoch payload := by
  induction l generalizing s with
  | nil => exact (List.not_mem_nil mem).elim
  | cons m l ih =>
    by_cases own : n = m
    · subst own
      have replied := reply_box taken status payload
      exact (replyAll_untaken l (by rw [replied]; rfl) status payload).trans replied
    · have same : (s.reply m status payload).box n = s.box n := reply_box_ne own _ _
      have kept := ih (s := s.reply m status payload) ((List.mem_cons.1 mem).resolve_left own) (by rw [same]; exact taken)
      rw [same, (reply_keeps (M := 80) (by decide) (.refl _ s)).twin (by decide)] at kept
      exact kept

theorem replyAll_hatch {M : Nat} {s t : State} (hM : Sub 16 M) (l : List Nat) {status : Nat} (known : status ≠ stBusy) (payload : Bytes)
    (h : Keeps M s t) : Keeps M s (t.replyAll l status payload) :=
  keeps_foldl h fun _ _ kept => reply_hatch hM known kept

/-! ### The choice of a source (R192, R197, R198) -/

/-- What of the time unit the choice of a source does not touch. -/
def TimeUnit.rest (t : TimeUnit) : TimeUnit :=
  { t with source := .none, within := 0, beyond := 0, state := .free, rate := 0, rateHist := [], rateSince := 0, lastMsg := 0, held := false }

/-- A state after a source has been chosen, followed or lost. -/
structure State.Sourced (s t : State) : Prop where
  /-- The parts. -/
  keeps : Keeps 2106104 s t
  /-- The time unit. -/
  rest : t.time.rest = s.time.rest
  /-- The mailboxes. -/
  box : ∀ n, t.box n = s.box n
  /-- The parameters in effect. -/
  eff : t.par.eff = s.par.eff

namespace State.Sourced

variable {s t u : State}

theorem refl (s : State) : Sourced s s := ⟨.refl _ s, rfl, fun _ => rfl, rfl⟩

theorem trans (h : Sourced s t) (k : Sourced t u) : Sourced s u :=
  ⟨h.keeps.trans k.keeps, k.rest.trans h.rest, fun n => (k.box n).trans (h.box n), k.eff.trans h.eff⟩

theorem field {α : Type} {f : TimeUnit → α} (g : ∀ t : TimeUnit, f t.rest = f t) (h : Sourced s t) : f t.time = f s.time := by
  rw [← g, h.rest, g]

theorem tick (h : Sourced s t) : t.time.tick = s.time.tick := h.field (f := TimeUnit.tick) fun _ => rfl

end State.Sourced

theorem ite_sourced {c : Prop} [Decidable c] {s t u : State} (yes : c → State.Sourced s t) (no : ¬c → State.Sourced s u) :
    State.Sourced s (if c then t else u) := iteInduction (motive := State.Sourced s) yes no

theorem updTime_sourced (s : State) {f : TimeUnit → TimeUnit} (h : (f s.time).rest = s.time.rest) : State.Sourced s (s.updTime f) :=
  ⟨updTime_keeps (by decide) (.refl _ s), h, fun _ => rfl, rfl⟩

theorem setTime_sourced (s : State) (st : TimeState) (rate : Int) : State.Sourced s (s.setTime st rate) :=
  ⟨setTime_keeps (by decide) (.refl _ s), rfl, fun _ => rfl, rfl⟩

theorem timeFollow_sourced (s : State) : State.Sourced s s.timeFollow := (updTime_sourced s rfl).trans (setTime_sourced ..)

theorem condOffInst_sourced (s : State) (src inst : Nat) : State.Sourced s (s.condOffInst src inst) :=
  ⟨condOffInst_keeps (by decide) (.refl _ s), rfl, fun _ => rfl, rfl⟩

theorem condOn_sourced (s : State) (src inst sub : Nat) (args : Bytes) : State.Sourced s (s.condOn src inst sub args) := by
  have kept := condOn_keeps (M := 8440) (a1 := src) (a2 := inst) (a3 := sub) (a4 := args) (by decide) (.refl _ s)
  exact ⟨kept.weaken (by decide), by rw [kept.time (by decide)], condOn_box s src inst sub args, condOn_eff ..⟩

theorem masterLoss_sourced (s : State) : State.Sourced s s.masterLoss :=
  ((updTime_sourced s rfl).trans (setTime_sourced ..)).trans (condOn_sourced ..)

theorem sourceHeard_sourced (s : State) : State.Sourced s s.sourceHeard :=
  ite_sourced (fun _ => ((updTime_sourced s rfl).trans (condOffInst_sourced ..)).trans (timeFollow_sourced _)) fun _ => updTime_sourced s rfl

/-- The state in which the source has been chosen and TIME_STATE not yet. -/
def State.resourced (s : State) : State :=
  let s1 := s.updRing fun r => { r with follow := s.pickFollow }
  let src := s1.pickSource
  s1.updTime fun t =>
    { t with source := src, within := if src = t.source then t.within else 0, beyond := if src = t.source then t.beyond else 0 }

theorem resourced_sourced (s : State) : State.Sourced s s.resourced := by
  rw [State.resourced]
  exact ⟨updTime_keeps (by decide) (updRing_keeps (by decide) (.refl _ s)), rfl, fun _ => rfl, rfl⟩

/-- TIME_STATE as it goes with the source chosen. -/
def State.restated (s : State) : State :=
  if s.isMaster then
    if s.time.state = .master then s else (s.condOffInst 0x20 noInst).setTime .master s.time.rate
  else if s.time.state = .master then
    if s.time.source ≠ .none then s.timeFollow else if s.time.held then s.masterLoss else s.setTime .free s.time.rate
  else if s.time.state = .free ∧ s.time.source ≠ .none then s.timeFollow
  else s

theorem timeRefresh_eq (s : State) : s.timeRefresh = s.resourced.restated := rfl

theorem restated_sourced (s : State) : State.Sourced s s.restated :=
  ite_sourced (fun _ => ite_sourced (fun _ => .refl s) fun _ => (condOffInst_sourced s _ _).trans (setTime_sourced ..)) fun _ =>
    ite_sourced (fun _ => ite_sourced (fun _ => timeFollow_sourced s) fun _ => ite_sourced (fun _ => masterLoss_sourced s) fun _ => setTime_sourced ..)
      fun _ => ite_sourced (fun _ => timeFollow_sourced s) fun _ => .refl s

theorem timeRefresh_sourced (s : State) : State.Sourced s s.timeRefresh := (resourced_sourced s).trans (restated_sourced _)

/-! ### A claim taken (R197, R227) -/

/-- What a claim to the mastership makes of the time unit. -/
def State.claimed (s : State) (gen head : Nat) : State :=
  (s.updTime fun t =>
    { t with gen, masterHead := head, east := {}, west := {},
             named := t.named || (decide (s.headId = head) && decide (s.twin.role = .active)) }).updRing fun r => { r with follow := .none }

theorem timeClaim_sourced (s : State) (gen head : Nat) : State.Sourced (s.claimed gen head) (s.timeClaim gen head) := sourceHeard_sourced _

theorem timeAdopt_sourced (s : State) (gen head : Nat) : State.Sourced (s.claimed gen head) (s.timeAdopt gen head) :=
  (timeClaim_sourced s gen head).trans (timeRefresh_sourced _)

theorem claimed_keeps {M : Nat} {s t : State} (hM : Sub 2097664 M) (gen head : Nat) (h : Keeps M s t) : Keeps M s (t.claimed gen head) :=
  updRing_keeps (Sub.trans (by decide) hM) (updTime_keeps (Sub.trans (by decide) hM) h)

/-! ### The end of a claim (R227) -/

theorem masterDrop_eq (s : State) (c : MasterClaim) (status reason : Nat) : s.masterDrop c status reason =
    (s.updTime fun t => { t with claim := none }).replyAll c.mbs status (reasonPayload reason 0xFFFF) := rfl

/-- A claim that comes too late, and the reason code. -/
def State.claimLate (s : State) (c : MasterClaim) : Option Nat :=
  if 0 < sdiff 16 s.time.gen c.gen then some 0x39
  else if sdiff 16 s.time.gen c.gen = 0 ∧ s.time.masterHead < c.head then some 0x38 else none

theorem masterCommit_of_late {s : State} {c : MasterClaim} {reason : Nat} (claim : s.time.claim = some c) (late : s.claimLate c = some reason) :
    s.masterCommit = s.masterDrop c stRefused reason := by
  rw [State.masterCommit, claim]
  rw [State.claimLate] at late
  dsimp only
  split at late
  · rw [if_pos ‹_›, ← Option.some.inj late]
  rename_i newer
  rw [if_neg newer]
  split at late
  · rw [if_pos ‹_›, ← Option.some.inj late]
  · exact (nomatch late)

theorem masterCommit_of_timely {s : State} {c : MasterClaim} (claim : s.time.claim = some c) (timely : s.claimLate c = none) :
    s.masterCommit = ((s.updTime fun t => { t with claim := none }).timeAdopt c.gen c.head).replyAll c.mbs stOk (leBytes 2 c.gen) := by
  rw [State.masterCommit, claim]
  rw [State.claimLate] at timely
  dsimp only
  split at timely
  · exact (nomatch timely)
  rename_i newer
  rw [if_neg newer]
  split at timely
  · exact (nomatch timely)
  · rw [if_neg ‹_›]
    rfl

/-! ### A step of tick time (R195, R204, R260, R672) -/

theorem stepLane_keeps' (s : State) (old lane : Nat) : Keeps 131136 s (s.stepLane old lane) := stepLane_keeps (by decide) (.refl _ s)

theorem stepLane_eff (s : State) (old lane : Nat) : (s.stepLane old lane).par.eff = s.par.eff := by
  rw [State.stepLane]
  refine (foldl_eff _ (fun u x => ?_) _ _).trans (withdraw_eff ..)
  split
  · exact sendAct_eff ..
  · rfl

theorem stepLane_str (s : State) (old lane n : Nat) : (s.stepLane old lane).str n = s.str n := by
  rw [State.stepLane]
  refine (foldl_view (fun u : State => u.str n) (fun u x => ?_) _ _).trans (withdraw_str ..)
  split
  · exact sendAct_str ..
  · rfl

/-- What a fold makes of a number's own part, where each step touches the part of its own number alone. -/
theorem foldl_own {β : Type} (g : State → β) {n : Nat} {f : State → Nat → State} (P : State → Prop) {h : β → β} (stays : ∀ s m, P s → P (f s m))
    (other : ∀ s m, n ≠ m → g (f s m) = g s) (own : ∀ s, P s → g (f s n) = h (g s)) {l : List Nat} (nodup : l.Nodup) (mem : n ∈ l) {s : State}
    (holds : P s) : g (l.foldl f s) = h (g s) := by
  induction l generalizing s with
  | nil => exact (List.not_mem_nil mem).elim
  | cons m l ih =>
    obtain ⟨out, nodup⟩ := List.nodup_cons.1 nodup
    by_cases same : n = m
    · subst same
      have rest : ∀ (l : List Nat) (u : State), n ∉ l → g (l.foldl f u) = g u := fun l => by
        induction l with
        | nil => exact fun _ _ => rfl
        | cons k l ih =>
          intro u out
          obtain ⟨ne, out⟩ := not_or.1 (mt List.mem_cons.2 out)
          exact (ih _ out).trans (other u k ne)
      exact (rest l _ out).trans (own s holds)
    · rw [List.foldl_cons, ih nodup ((List.mem_cons.1 mem).resolve_left same) (stays s m holds), other s m same]

/-- The time unit but for the lanes' filters and the second of the latest pulse. -/
def TimeUnit.scale (t : TimeUnit) : TimeUnit := { t with delay := {}, ppsLast := none }

/-- The state in which tick time has its new value. -/
def State.rescaled (s : State) (new : Nat) : State :=
  (s.updSta fun t => (t.mod {} 0 fun p => p.step s.now new).mod {} 1 fun p => p.step s.now new).updTime fun t =>
    { t with tick := new % 2 ^ 64, frac := 0, genStep := true, stepNo := t.stepNo + 1 }

/-- The actions of every lane issued afresh. -/
def State.reissued (s : State) (old : Nat) : State :=
  (List.range 128).foldl (fun s l => if (s.ml l).shelf.isEmpty && (s.ml l).wait.isEmpty then s else s.stepLane old l) s

/-- The clocks of the strings that do not run, started anew. -/
def State.restarted (s : State) : State :=
  (List.range 16).foldl (fun s n => if s.strRuns n then s else s.modStr n fun y => { y with next := s.now + y.period }) s

/-- A SYNC owed by every lane. -/
def State.owing (s : State) : State :=
  (List.range 128).foldl (fun s l => if (s.lane l).st.trained then s.modDly l fun d => { d with syncOwed := true } else s) s

/-- A state whose lanes' actions have been issued afresh, whose strings' clocks start anew and whose lanes owe a SYNC. -/
def State.stepped (s : State) (new : Nat) : State := ((s.rescaled new).reissued s.now).restarted.owing

theorem timeStep_eq (s : State) (new : Nat) : s.timeStep new =
    ((s.stepped new).ppsSync.note 0x08 0x0601 (leBytesI 8 ((new : Int) - s.now))).later (.timeStepped s.now) := rfl

theorem reissued_keeps (s : State) (old : Nat) : Keeps 131136 s (s.reissued old) :=
  keeps_foldl (.refl _ s) fun u l kept => keeps_ite (fun _ => kept) fun _ => kept.trans (stepLane_keeps' u old l)

theorem reissued_eff (s : State) (old : Nat) : (s.reissued old).par.eff = s.par.eff := by
  rw [State.reissued]
  refine foldl_eff _ (fun u l => ?_) _ s
  split
  · rfl
  · exact stepLane_eff ..

theorem reissued_str (s : State) (old n : Nat) : (s.reissued old).str n = s.str n :=
  foldl_view (fun u : State => u.str n) (fun u l => by split <;> [rfl; exact stepLane_str ..]) _ s

theorem restarted_keeps (s : State) : Keeps 131072 s s.restarted :=
  keeps_foldl (.refl _ s) fun _ _ kept => keeps_ite (fun _ => kept) fun _ => modStr_keeps (by decide) kept

theorem restarted_str {s : State} (still : ∀ n, n < 16 → s.strRuns n = false) {n : Nat} (low : n < 16) :
    s.restarted.str n = { s.str n with next := s.now + (s.str n).period } := by
  refine foldl_own (State.str · n) (P := fun u => u.time = s.time ∧ ∀ m, (u.str m).st = (s.str m).st)
    (h := fun y => { y with next := s.now + y.period }) (fun u m same => ?_) (fun u m other => ?_) (fun u same => ?_) List.nodup_range
    (List.mem_range.2 low) ⟨rfl, fun _ => rfl⟩
  · obtain ⟨time, st⟩ := same
    split
    · exact ⟨time, st⟩
    · refine ⟨time, fun k => ?_⟩
      by_cases own : k = m
      · rw [own, str_modStr]
        exact st m
      · rw [str_modStr_ne u own, st k]
  · split
    · rfl
    · exact str_modStr_ne u other _
  · obtain ⟨time, st⟩ := same
    have stopped : u.strRuns n = false := by
      rw [State.strRuns, st, ← still n low, State.strRuns]
    rw [if_neg (by rw [stopped]; decide), str_modStr, State.now, time, State.now]

theorem owing_keeps (s : State) : Keeps 512 s s.owing :=
  keeps_foldl (.refl _ s) fun _ _ kept => keeps_ite (fun _ => modDly_keeps (by decide) kept) fun _ => kept

theorem owing_scale (s : State) : s.owing.time.scale = s.time.scale :=
  foldl_view (fun u : State => u.time.scale) (fun u l => by split <;> rfl) _ s

theorem owing_dly {s : State} {n : Nat} (low : n < 128) (trained : (s.lane n).st.trained = true) : (s.owing.dly n).syncOwed = true := by
  refine congrArg DelayFilter.syncOwed (foldl_own (State.dly · n) (P := fun u => (u.lane n).st.trained = true)
    (h := fun d => { d with syncOwed := true }) (fun u m same => ?_) (fun u m other => ?_) (fun u same => ?_) List.nodup_range (List.mem_range.2 low)
    trained)
  · split <;> exact same
  · split
    · exact dly_modDly_ne u other _
    · rfl
  · rw [if_pos same, dly_modDly]

theorem rescaled_keeps (s : State) (new : Nat) : Keeps 1536 s (s.rescaled new) :=
  updTime_keeps (by decide) (updSta_keeps (by decide) (.refl _ s))

theorem restarted_owing_keeps (s : State) : Keeps 131584 s s.restarted.owing :=
  ((restarted_keeps s).weaken (by decide)).trans ((owing_keeps _).weaken (by decide))

theorem stepped_keeps (s : State) (new : Nat) : Keeps 132672 s (s.stepped new) :=
  ((rescaled_keeps s new).weaken (by decide)).trans (((reissued_keeps _ _).weaken (by decide)).trans ((restarted_owing_keeps _).weaken (by decide)))

theorem stepped_eff (s : State) (new : Nat) : (s.stepped new).par.eff = s.par.eff := by
  rw [State.stepped, (restarted_owing_keeps _).par (by decide), reissued_eff]
  rfl

/-- A step's last part: the second of PTP time, the notification, the act. -/
theorem timeStep_tail (s : State) (new : Nat) : Keeps 8824 (s.stepped new) (s.timeStep new) := by
  rw [timeStep_eq]
  exact later_keeps (by decide) (note_keeps (by decide) (ppsSync_keeps (by decide) (.refl _ _)))

theorem timeStep_eff (s : State) (new : Nat) : (s.timeStep new).par.eff = s.par.eff := by
  rw [timeStep_eq, State.later, updTodo_par, note_eff, (ppsSync_keeps (M := 512) (by decide) (.refl _ _)).par (by decide), stepped_eff]

theorem timeStep_box (s : State) (new n : Nat) : (s.timeStep new).box n = s.box n := by
  rw [timeStep_eq, (later_keeps (M := 8) (by decide) (.refl _ _)).box (by decide), note_box, (ppsSync_keeps (M := 512) (by decide) (.refl _ _)).box (by decide),
    (stepped_keeps s new).box (by decide)]

theorem timeStep_time (s : State) (new : Nat) : (s.timeStep new).time = (s.stepped new).ppsSync.time := by
  rw [timeStep_eq]
  generalize s.stepped new = u
  rw [State.later, updTodo_time, (note_keeps (M := 8304) (by decide) (.refl _ _)).time (by decide)]

theorem timeStep_scale (s : State) (new : Nat) : (s.timeStep new).time.scale =
    { s.time with tick := new % 2 ^ 64, frac := 0, genStep := true, stepNo := s.time.stepNo + 1, delay := {}, ppsLast := none } := by
  have synced (u : State) : u.ppsSync.time.scale = u.time.scale := rfl
  rw [timeStep_time, synced, State.stepped, owing_scale]
  have kept : ((s.rescaled new).reissued s.now).restarted.time = (s.rescaled new).time := by
    rw [(restarted_keeps _).time (by decide), (reissued_keeps _ _).time (by decide)]
  exact congrArg TimeUnit.scale kept

theorem timeStep_field {α : Type} {f : TimeUnit → α} (g : ∀ t : TimeUnit, f t.scale = f t) (s : State) (new : Nat) : f (s.timeStep new).time =
    f { s.time with tick := new % 2 ^ 64, frac := 0, genStep := true, stepNo := s.time.stepNo + 1, delay := {}, ppsLast := none } := by
  rw [← g, timeStep_scale]

theorem timeStep_dly {s : State} (new : Nat) {n : Nat} (low : n < 128) (trained : (s.lane n).st.trained = true) :
    ((s.timeStep new).dly n).syncOwed = true := by
  have same : (s.timeStep new).dly n = (s.stepped new).dly n := by
    rw [State.dly, timeStep_time]
    generalize s.stepped new = u
    rfl
  rw [same, State.stepped]
  refine owing_dly low ?_
  rw [(restarted_keeps _).lane (by decide), (reissued_keeps _ _).lane (by decide), (rescaled_keeps _ _).lane (by decide)]
  exact trained

theorem timeStep_str {s : State} (new : Nat) (still : ∀ n, n < 16 → s.strRuns n = false) {n : Nat} (low : n < 16) :
    (s.timeStep new).str n = { s.str n with next := new % 2 ^ 64 + (s.str n).period } := by
  have str (m : Nat) : ((s.rescaled new).reissued s.now).str m = s.str m := reissued_str ..
  rw [(timeStep_tail s new).str (by decide), State.stepped, (owing_keeps _).str (by decide), restarted_str (fun m less => ?_) low, str, State.now,
    (reissued_keeps _ _).time (by decide)]
  · rfl
  · rw [State.strRuns, str, ← still m less, State.strRuns]

end Sys2Proof.Machine
end

section
/-!
PROOFS. Captures, pulses and the commands of time (O26).
-/

namespace Sys2Proof.Machine

open Host

/-! ### Captures (R220, R221) -/

theorem bits_getLsbD (w : BitVec 32) (k : Nat) : bit w.toNat k = w.getLsbD k := by rw [bit_eq_testBit]; rfl

theorem tcap_of_valid {s : State} (valid : s.time.capValid = true) (tick : Nat) (pin : Bool) :
    s.tcap tick pin = s.updTime fun t => { t with capOverrun := true } := if_pos valid

theorem tcap_of_free {s : State} (free : s.time.capValid = false) (tick : Nat) (pin : Bool) : s.tcap tick pin = s.updTime fun t =>
    { t with capValid := true, capPin := pin, capSeq := (t.capSeq + 1) % 2 ^ 16, capTick := tick % 2 ^ 64,
             capSec := s.ptpTime tick / 8000000000, capNs := s.ptpTime tick % 8000000000 / 8, capSub := s.ptpTime tick % 8 } :=
  if_neg (by rw [free]; decide)

/-- The state in which TCAP_CTRL's fields are written. -/
def State.tcapSet (s : State) (w : BitVec 32) : State := s.hostWrote.tcapCtrl w.toNat

theorem tcapCtrl_time (s : State) (w : Nat) : ∃ last, (s.tcapCtrl w).time = { s.time with ppsLast := last, capEdge := bits w 5 4, ppsEn := bit w 1 } := by
  rw [State.tcapCtrl]
  dsimp only
  rw [updTime_time]
  split
  · exact ⟨_, rfl⟩
  · exact ⟨s.time.ppsLast, rfl⟩

theorem tcapSet_keeps (s : State) (w : BitVec 32) : Keeps 528 s (s.tcapSet w) :=
  tcapCtrl_keeps (by decide) (updHatch_keeps (by decide) (.refl _ s))

theorem tcapCtrl_ptp (s : State) (w k : Nat) : (s.tcapCtrl w).ptpTime k = s.ptpTime k := by
  rw [State.ptpTime, State.ptpTime, State.ptpOffset, State.ptpOffset, State.peff, State.peff,
    (tcapCtrl_keeps (M := 512) (by decide) (.refl _ s)).par (by decide)]

theorem tcapCapture_run {s : State} (w : BitVec 32) (up : s.sys.stage ≠ .inReset) : exec (.tcapCapture w) s =
    .next (if bit w.toNat 0 then (s.tcapSet w).tookFree.tcap (s.now + 1200 + (s.tcapSet w).freeVal % 1601) false else s.tcapSet w) :=
  if_pos (decide_eq_true up)

theorem tcapCapture_next {s : State} (w : BitVec 32) (up : s.sys.stage ≠ .inReset) : Next (exec (.tcapCapture w) s) fun t =>
    Only [.freeCount, .hatch, .time] s t ∧ t.hatch.boxes = s.hatch.boxes ∧
    t.time.ppsEn = w.getLsbD 1 ∧ t.time.capEdge = w.toNat / 2 ^ 4 % 2 ^ 2 ∧ t.time.tick = s.time.tick ∧
    (w.getLsbD 0 = true → s.time.capValid = false → t.time.capValid = true ∧ t.time.capPin = false ∧
      t.time.capSeq = (s.time.capSeq + 1) % 65536 ∧ ∃ k, s.now + 1200 ≤ k ∧ k ≤ s.now + 2800 ∧ t.time.capTick = k % 2 ^ 64 ∧
        t.time.capSec = s.ptpTime k / 8000000000 ∧ t.time.capNs = s.ptpTime k % 8000000000 / 8 ∧ t.time.capSub = s.ptpTime k % 8) ∧
    (w.getLsbD 0 = true → s.time.capValid = true → t.time.capOverrun = true ∧ t.time.capTick = s.time.capTick ∧
      t.time.capSeq = s.time.capSeq ∧ t.time.capValid = true) ∧
    (w.getLsbD 0 = false → t.time.capValid = s.time.capValid ∧ t.time.capOverrun = s.time.capOverrun ∧ t.time.capTick = s.time.capTick ∧
      t.time.capSeq = s.time.capSeq) := by
  have run := tcapCapture_run w up
  have kept := tcapSet_keeps s w
  have boxes : (s.tcapSet w).hatch.boxes = s.hatch.boxes := by
    rw [State.tcapSet, (tcapCtrl_keeps (M := 512) (by decide) (.refl _ _)).hatch (by decide)]
    rfl
  obtain ⟨last, time⟩ := tcapCtrl_time s.hostWrote w.toNat
  have ptp (k : Nat) : (s.tcapSet w).tookFree.ptpTime k = s.ptpTime k := tcapCtrl_ptp s.hostWrote w.toNat k
  rw [bits_getLsbD] at time
  have small : (s.tcapSet w).freeVal % 1601 < 1601 := Nat.mod_lt _ (by decide)
  generalize hk : s.now + 1200 + (s.tcapSet w).freeVal % 1601 = k at *
  have early : s.now + 1200 ≤ k := by omega
  have late : k ≤ s.now + 2800 := by omega
  rw [bits_getLsbD] at run
  change (s.tcapSet w).time = _ at time
  generalize s.tcapSet w = u at *
  cases capture : w.getLsbD 0 with
  | false =>
    rw [if_neg (by rw [capture]; decide)] at run
    refine ⟨u, run, only_of (kept.weaken (by decide)), boxes, ?_⟩
    rw [time]
    exact ⟨rfl, rfl, rfl, (nomatch ·), (nomatch ·), fun _ => ⟨rfl, rfl, rfl, rfl⟩⟩
  | true =>
    rw [if_pos capture] at run
    have stored := tcap_keeps (M := 532) (a1 := k) (a2 := false) (by decide) (tookFree_keeps (by decide) (kept.weaken (by decide)))
    refine ⟨_, run, only_of stored, ?_⟩
    cases valid : s.time.capValid with
    | true =>
      rw [tcap_of_valid (show u.tookFree.time.capValid = true from (congrArg TimeUnit.capValid time).trans valid), updTime_hatch, updTime_time]
      change u.hatch.boxes = _ ∧ _
      change _ ∧ u.time.ppsEn = _ ∧ u.time.capEdge = _ ∧ u.time.tick = _ ∧ _ ∧ (_ → _ → _ ∧ u.time.capTick = _ ∧ u.time.capSeq = _ ∧ u.time.capValid = _) ∧ _
      rw [time]
      exact ⟨boxes, rfl, rfl, rfl, fun _ => (nomatch ·), fun _ _ => ⟨rfl, rfl, rfl, valid⟩, (nomatch ·)⟩
    | false =>
      rw [tcap_of_free (show u.tookFree.time.capValid = false from (congrArg TimeUnit.capValid time).trans valid), updTime_hatch, updTime_time, ptp]
      change u.hatch.boxes = _ ∧ u.time.ppsEn = _ ∧ u.time.capEdge = _ ∧ u.time.tick = _ ∧ (_ → _ → _ ∧ _ ∧ (u.time.capSeq + 1) % 65536 = _ ∧ _) ∧ _
      rw [time]
      exact ⟨boxes, rfl, rfl, rfl, fun _ _ => ⟨rfl, rfl, rfl, k, early, late, rfl, rfl, rfl, rfl⟩, fun _ => (nomatch ·), (nomatch ·)⟩

theorem timeCapInEdge_run {s : State} {rising : Bool} {ticks : BitVec 32} (stands : 16 ≤ ticks.toNat) (new : s.time.capLevel ≠ some rising) :
    exec (.timeCapInEdge rising ticks) s =
      let u := s.updTime fun t => { t with capLevel := some rising }
      if s.time.running && (s.time.capEdge == 2 || (s.time.capEdge == 0 && rising) || (s.time.capEdge == 1 && !rising)) then
        .next (u.tookFree.tcap (s.now + s.freeVal % 5 - 2) true) else .next u :=
  if_neg fun bad => bad.elim (fun short => absurd stands (Nat.not_le.2 short)) new

theorem timeCapInEdge_next {s : State} {rising : Bool} {ticks : BitVec 32} (stands : 16 ≤ ticks.toNat) (new : s.time.capLevel ≠ some rising) :
    Next (exec (.timeCapInEdge rising ticks) s) fun t => Only [.freeCount, .time] s t ∧ t.time.capLevel = some rising ∧
      t.time.tick = s.time.tick ∧
      if s.time.running = true ∧ (s.time.capEdge = 2 ∨ (s.time.capEdge = 0 ∧ rising = true) ∨ (s.time.capEdge = 1 ∧ rising = false)) then
        (s.time.capValid = false → t.time.capValid = true ∧ t.time.capPin = true ∧ t.time.capSeq = (s.time.capSeq + 1) % 65536 ∧
          ∃ k, s.now ≤ k + 2 ∧ k ≤ s.now + 2 ∧ t.time.capTick = k % 2 ^ 64 ∧ t.time.capSec = s.ptpTime k / 8000000000 ∧
            t.time.capNs = s.ptpTime k % 8000000000 / 8 ∧ t.time.capSub = s.ptpTime k % 8) ∧
        (s.time.capValid = true → t.time = { s.time with capLevel := some rising, capOverrun := true })
      else t.time = { s.time with capLevel := some rising } := by
  have run := timeCapInEdge_run stands new
  have selects : (s.time.running && (s.time.capEdge == 2 || (s.time.capEdge == 0 && rising) || (s.time.capEdge == 1 && !rising))) = true ↔
      s.time.running = true ∧ (s.time.capEdge = 2 ∨ (s.time.capEdge = 0 ∧ rising = true) ∨ (s.time.capEdge = 1 ∧ rising = false)) := by
    simp only [Bool.and_eq_true, Bool.or_eq_true, beq_iff_eq, Bool.not_eq_true', or_assoc]
  dsimp only at run
  simp only [selects] at run
  have levelled : Keeps 516 s ((s.updTime fun t => { t with capLevel := some rising }).tookFree) :=
    tookFree_keeps (by decide) (updTime_keeps (by decide) (.refl _ s))
  have small : s.freeVal % 5 < 5 := Nat.mod_lt _ (by decide)
  generalize hk : s.now + s.freeVal % 5 - 2 = k at *
  have early : s.now ≤ k + 2 := by omega
  have late : k ≤ s.now + 2 := by omega
  by_cases on : s.time.running = true ∧ (s.time.capEdge = 2 ∨ (s.time.capEdge = 0 ∧ rising = true) ∨ (s.time.capEdge = 1 ∧ rising = false))
  · rw [if_pos on] at run
    refine ⟨_, run, only_of (tcap_keeps (by decide) levelled), ?_⟩
    rw [if_pos on]
    cases valid : s.time.capValid with
    | true =>
      rw [tcap_of_valid (by exact valid)]
      exact ⟨rfl, rfl, (nomatch ·), fun _ => rfl⟩
    | false =>
      rw [tcap_of_free (by exact valid)]
      exact ⟨rfl, rfl, fun _ => ⟨rfl, rfl, rfl, k, early, late, rfl, rfl, rfl, rfl⟩, (nomatch ·)⟩
  · rw [if_neg on] at run
    refine ⟨_, run, only_of (updTime_keeps (by decide) (.refl _ s)), rfl, rfl, ?_⟩
    rw [if_neg on]
    rfl

theorem timeCapInEdge_filtered {s : State} {rising : Bool} {ticks : BitVec 32} (bad : ticks.toNat < 16 ∨ s.time.capLevel = some rising) :
    exec (.timeCapInEdge rising ticks) s = .next s := if_pos bad

theorem tcapStatusWrite_next {s : State} (w : BitVec 32) (up : s.sys.stage ≠ .inReset) : Next (exec (.tcapStatusWrite w) s) fun t =>
    Only [.hatch, .time] s t ∧
    t.time = { s.time with capValid := s.time.capValid && !w.getLsbD 0, capOverrun := s.time.capOverrun && !w.getLsbD 2 } ∧
    t.hatch.boxes = s.hatch.boxes := by
  refine ⟨s.hostWrote.tcapStatus w.toNat, if_pos (decide_eq_true up), only_of (updTime_keeps (by decide) (updHatch_keeps (by decide) (.refl _ s))), ?_, rfl⟩
  rw [State.tcapStatus, updTime_time, bits_getLsbD, bits_getLsbD]
  rfl

/-! ### The pulse (R223) -/

theorem ppsSecond_lands {s : State} (running : s.time.running = true) (new : s.time.ppsLast ≠ some (s.ptpTime s.now / 8000000000)) :
    Lands (exec .ppsSecond s) fun e =>
      e.time = { s.time with ppsLast := some (s.ptpTime s.now / 8000000000),
                             ppsHigh := if s.time.ppsEn = true then some (s.mono + 8000 * s.p0 0x060F) else s.time.ppsHigh } ∧
      Only [.hatch, .par, .time, .bat, .en] s e := by
  refine ⟨_, if_pos ⟨running, new⟩, ?_, only_of (rtcPtp_keeps (by decide) (updTime_keeps (by decide) (.refl _ s)))⟩
  rw [(rtcPtp_keeps (M := 67113040) (by decide) (.refl _ _)).time (by decide), updTime_time]
  rfl

theorem ppsPulseEnd_next {s : State} {k : Nat} (high : s.time.ppsHigh = some k) (due : k ≤ s.mono) : Next (exec .ppsPulseEnd s) fun t =>
    Only [.time] s t ∧ t.time = { s.time with ppsHigh := none } := by
  refine ⟨s.updTime fun t => { t with ppsHigh := none }, ?_, only_of (updTime_keeps (by decide) (.refl _ s)), rfl⟩
  change execPpsPulseEnd s = _
  rw [execPpsPulseEnd, high]
  exact if_pos due

end Sys2Proof.Machine
end

section
/-!
PROOFS. The commands of time (O26): TIME_SET, TIME_MASTER_SET, and the settling of the statement.
-/

namespace Sys2Proof.Machine

open Host

/-! ### TIME_SET (R226, R672) -/

/-- The state in which TIME_SET steps tick time: with FLAGS bit 0, PTP_OFFSET makes up for the step. -/
def State.ptpHeld (s : State) (flags new : Nat) : State :=
  if bit flags 0 then s.setParam 0x060D noInst (ptpBytes ((s.ptpOffset : Int) + s.now - new)) else s

theorem ptpHeld_keeps (s : State) (flags new : Nat) : Keeps 64 s (s.ptpHeld flags new) :=
  keeps_ite (fun _ => setParam_keeps (by decide) (.refl _ s)) fun _ => .refl _ s

theorem ptpHeld_peff (s : State) (flags new : Nat) : (s.ptpHeld flags new).peff 0x060D noInst =
    if bit flags 0 = true then ptpBytes ((s.ptpOffset : Int) + s.now - new) else s.peff 0x060D noInst := by
  rw [State.ptpHeld]
  split
  · rw [State.peff, State.setParam, updPar_par, Tab.get?_set, Option.getD_some]
  · rfl

theorem timeSet_lands {s : State} {mb : Fin 8} {q : Request} (runs : s.Runs mb 0x0620 q) : Lands (exec (.timeSet mb) s) fun e =>
    if s.isMaster = false then Only [.hatch] s e ∧ s.Turned e mb q stNotInRole [0x32, 0, 0xFF, 0xFF]
    else if s.groupRuns = true then Only [.hatch] s e ∧ s.Replies e mb q stRefused [0x30, 0, 0xFF, 0xFF]
    else e.now = uAt q.payload 0 8 ∧ e.time.named = true ∧ e.time.genStep = true ∧ e.time.stepNo = s.time.stepNo + 1 ∧
      e.peff 0x060D noInst = (if bit (uAt q.payload 8 1) 0 = true then ptpBytes ((s.ptpOffset : Int) + s.now - uAt q.payload 0 8)
        else s.peff 0x060D noInst) ∧
      (∀ lane < 128, (s.lane lane).st.trained = true → (e.dly lane).syncOwed = true) ∧
      (∀ n < 16, (e.str n).next = uAt q.payload 0 8 + (s.str n).period) ∧
      Only [.todo, .hatch, .notif, .par, .time, .sta, .pantry, .mod] s e ∧ s.Replies e mb q stOk (leBytes 8 s.now) := by
  have run : exec (.timeSet mb) s = (if s.isMaster = false then s.generic mb stNotInRole 0x32
      else if s.groupRuns = true then s.refuse mb stRefused 0x30
      else (((s.ptpHeld (uAt q.payload 8 1) (uAt q.payload 0 8)).timeStep (uAt q.payload 0 8)).updTime fun t =>
        { t with named := true }).replyOk mb (leBytes 8 s.now)).done := congrArg State.done (withCmd_runs runs _ _)
  refine lands_ite (fun bad => generic_lands runs.taken (by decide) 0x32 (run.trans (congrArg State.done (if_pos bad)))) fun good => ?_
  rw [if_neg good] at run
  refine lands_ite (fun bad => refuse_lands runs.taken (by decide) 0x30 (run.trans (congrArg State.done (if_pos bad)))) fun still => ?_
  rw [if_neg still] at run
  have low : uAt q.payload 0 8 < 2 ^ 64 := uAt_lt ..
  have held := ptpHeld_keeps s (uAt q.payload 8 1) (uAt q.payload 0 8)
  have peff := ptpHeld_peff s (uAt q.payload 8 1) (uAt q.payload 0 8)
  generalize uAt q.payload 0 8 = new at *
  generalize s.ptpHeld (uAt q.payload 8 1) new = u at *
  have stepped : Keeps 140920 u (u.timeStep new) := timeStep_keeps (by decide) (.refl _ u)
  have quiet : ∀ n, n < 16 → u.strRuns n = false := fun n less => by
    rw [State.groupRuns, Bool.not_eq_true, Bool.or_eq_false_iff, State.anyRuns, List.any_eq_false] at still
    rw [State.strRuns, held.str (by decide)]
    exact Bool.eq_false_iff.2 (still.1 n (List.mem_range.2 less))
  have stepBox := timeStep_box u new
  have stepEff := timeStep_eff u new
  have tick := timeStep_field (f := TimeUnit.tick) (fun _ => rfl) u new
  have genStep := timeStep_field (f := TimeUnit.genStep) (fun _ => rfl) u new
  have stepNo := timeStep_field (f := TimeUnit.stepNo) (fun _ => rfl) u new
  have owed := fun n less trained => timeStep_dly (s := u) new (n := n) less trained
  have clocks := fun n less => timeStep_str new quiet (n := n) less
  generalize u.timeStep new = w at *
  have kept : Keeps 140920 s (w.updTime fun t => { t with named := true }) :=
    updTime_keeps (by decide) ((held.weaken (by decide)).trans stepped)
  have box (n : Nat) : (w.updTime fun t => { t with named := true }).box n = s.box n := (stepBox n).trans (held.box (by decide) n)
  have eff : (w.updTime fun t => { t with named := true }).par.eff = u.par.eff := stepEff
  have time : (w.updTime fun t => { t with named := true }).time = { w.time with named := true } := rfl
  have dly (n : Nat) : (w.updTime fun t => { t with named := true }).dly n = w.dly n := rfl
  have str (n : Nat) : (w.updTime fun t => { t with named := true }).str n = w.str n := rfl
  generalize (w.updTime fun t => { t with named := true }) = v at *
  have replied := reply_keeps (M := 80) (a1 := mb) (a2 := stOk) (a3 := leBytes 8 s.now) (by decide) (.refl _ v)
  refine ⟨_, run, ?_, ?_, ?_, ?_, ?_, fun lane less trained => ?_, fun n less => ?_, ?_, ?_⟩
  · rw [State.now, State.replyOk, replied.time (by decide), time]
    exact tick.trans (Nat.mod_eq_of_lt low)
  · rw [State.replyOk, replied.time (by decide), time]
  · rw [State.replyOk, replied.time (by decide), time]
    exact genStep
  · rw [State.replyOk, replied.time (by decide), time]
    exact stepNo.trans (by rw [held.time (by decide)])
  · rw [← peff, State.replyOk, State.peff, reply_eff, eff, State.peff]
  · rw [State.dly, State.replyOk, replied.time (by decide), ← State.dly, dly]
    exact owed lane less (by rw [held.lane (by decide)]; exact trained)
  · rw [State.replyOk, replied.str (by decide), str, clocks n less, held.str (by decide), Nat.mod_eq_of_lt low]
  · exact only_of (reply_hatch (by decide) (by decide) kept)
  · exact reply_replies_of_held (s := s) ⟨(s.box mb).held, box mb⟩ (fun n _ => box n) (by rw [kept.twin (by decide)]) runs.taken stOk _

/-! ### A claim sent (R227) -/

theorem ringQueue_lnk (s : State) {lane : Nat} (low : lane < 131) (ty p : Nat) : ((s.ringQueue lane ty p).lnk lane).queue =
    if (s.lane lane).st = .linked then (s.lnk lane).queue ++ [{ type := ty, payload := p }] else (s.lnk lane).queue := by
  rw [State.ringQueue]
  split
  · rw [queueBlock_lnk_own s low]
  · rfl

theorem ringQueue_lnk_ne (s : State) {lane m : Nat} (low : lane < 131) (other : m ≠ lane) (ty p : Nat) : (s.ringQueue lane ty p).lnk m = s.lnk m := by
  rw [State.ringQueue]
  split
  · exact queueBlock_oneLink s low ty p m other
  · rfl

theorem ringQueue_keeps' (s : State) (lane ty p : Nat) : Keeps 65536 s (s.ringQueue lane ty p) := ringQueue_keeps (by decide) (.refl _ s)

/-- A block of the unit goes out on each ring lane that is LINKED. -/
theorem ringSend_queue (s : State) (ty dst body : Nat) {lane : Nat} (ring : lane ∈ [128, 129]) : ((s.ringSend ty dst body).lnk lane).queue =
    if s.ringEn = true ∧ (s.lane lane).st = .linked then (s.lnk lane).queue ++ [{ type := ty, payload := s.ringHdr dst + body }]
    else (s.lnk lane).queue := by
  rw [State.ringSend]
  by_cases on : s.ringEn = true
  · rw [if_pos on]
    rcases List.mem_pair.1 ring with rfl | rfl
    · rw [ringQueue_lnk_ne _ (by decide) (by decide), ringQueue_lnk _ (by decide)]
      exact if_congr (by rw [and_iff_right on]) rfl rfl
    · rw [ringQueue_lnk _ (by decide), ringQueue_lnk_ne _ (by decide) (by decide), (ringQueue_keeps' ..).lane (by decide)]
      exact if_congr (by rw [and_iff_right on]) rfl rfl
  · rw [if_neg on, if_neg fun both => on both.1]

/-- The claim this unit makes for a head. -/
def State.newClaim (s : State) (mb head : Nat) : MasterClaim :=
  { mbs := [mb], head, gen := (s.time.gen + 1) % 65536, waitFor := (List.range 8).filter fun h => h != s.headId && s.headPresent h, at_ := s.mono }

/-- The state in which a claim has been sent. -/
def State.claimSent (s : State) (mb head : Nat) : State :=
  ((s.updTime fun t => { t with claim := some (s.newClaim mb head) }).masterSend 1 allNodes ((s.time.gen + 1) % 65536) head s.node).waitFor mb .timeMaster

theorem claimMaster_eq (s : State) (mb head : Nat) : s.claimMaster mb head =
    if (s.newClaim mb head).waitFor.isEmpty then (s.claimSent mb head).masterCommit else s.claimSent mb head := rfl

section
variable (s : State) (mb head : Nat)

theorem claimSent_keeps : Keeps 66064 s (s.claimSent mb head) :=
  waitFor_keeps (by decide) (masterSend_keeps (by decide) (updTime_keeps (by decide) (.refl _ s)))

theorem claimSent_time : (s.claimSent mb head).time = { s.time with claim := some (s.newClaim mb head) } := by
  rw [State.claimSent, (waitFor_keeps (M := 16) (by decide) (.refl _ _)).time (by decide),
    (masterSend_keeps (M := 65536) (by decide) (.refl _ _)).time (by decide), updTime_time]

theorem masterSend_box (u : State) (kind dst gen h c n : Nat) : (u.masterSend kind dst gen h c).box n = u.box n :=
  (masterSend_keeps (M := 65536) (by decide) (.refl _ u)).box (by decide) n

theorem claimSent_box : (s.claimSent mb head).box mb = { s.box mb with waiting := .timeMaster } := by
  rw [State.claimSent, State.waitFor, box_modBox, masterSend_box]
  rfl

theorem claimSent_box_ne {n : Nat} (other : n ≠ mb) : (s.claimSent mb head).box n = s.box n := by
  rw [State.claimSent, State.waitFor, box_modBox_ne _ other, masterSend_box]
  rfl

theorem claimSent_queue {lane : Nat} (ring : lane ∈ [128, 129]) : ((s.claimSent mb head).lnk lane).queue =
    if s.ringEn = true ∧ (s.lane lane).st = .linked then (s.lnk lane).queue ++
      [{ type := 0x44, payload := s.ringHdr allNodes + (2 ^ 60 + (s.time.gen + 1) % 65536 * 2 ^ 44 + head * 2 ^ 41 + s.node * 2 ^ 36) }]
    else (s.lnk lane).queue := by
  rw [State.claimSent, (waitFor_keeps (M := 16) (by decide) (.refl _ _)).lnk (by decide), State.masterSend, ringSend_queue _ _ _ _ ring]
  simp only [pf, Nat.one_mul]
  rfl

end

/-- The generation a unit claims is the next one. -/
theorem sdiff_next (g : Nat) : sdiff 16 g ((g + 1) % 65536) = -1 := by
  have wraps : wrap 16 ((g : Int) - ((g + 1) % 65536 : Nat)) = 65535 := by
    rw [wrap]
    omega
  rw [sdiff, wraps]
  decide

/-- A reply seen from a state whose mailbox did not wait. -/
theorem reply_replies_of_waiting {s u : State} {mb : Nat} {q : Request} (waits : ∃ w, u.box mb = { s.box mb with waiting := w })
    (others : ∀ n, n ≠ mb → u.box n = s.box n) (epoch : u.twin.epoch = s.twin.epoch) (taken : (s.box mb).taken = some q) (status : Nat)
    (payload : Bytes) : s.Replies (u.reply mb status payload) mb q status payload := by
  obtain ⟨w, box⟩ := waits
  have reply := reply_box (s := u) (mb := mb) (q := q) (by rw [box]; exact taken) status payload
  rw [box, epoch] at reply
  refine ⟨?_, ?_, ?_, ?_, ?_, fun n other => (reply_box_ne other _ _).trans (others n other)⟩ <;> rw [reply] <;> rfl

/-- A claim that no other head need acknowledge is committed at once. -/
theorem claimMaster_alone {s : State} {mb head : Nat} {q : Request} (taken : (s.box mb).taken = some q)
    (alone : (s.newClaim mb head).waitFor = []) : let e := s.claimMaster mb head
    e.time.gen = (s.time.gen + 1) % 65536 ∧ e.time.masterHead = head ∧ e.time.claim = none ∧
      s.Replies e mb q stOk (leBytes 2 ((s.time.gen + 1) % 65536)) := by
  have sent := claimSent_keeps s mb head
  have time := claimSent_time s mb head
  have own := claimSent_box s mb head
  have ne := fun n other => claimSent_box_ne s mb head (n := n) other
  dsimp only
  rw [claimMaster_eq, if_pos (by rw [alone]; rfl)]
  generalize s.claimSent mb head = u at *
  have timely : u.claimLate (s.newClaim mb head) = none := by
    have next : sdiff 16 u.time.gen (s.newClaim mb head).gen = -1 := by
      rw [time]
      exact sdiff_next s.time.gen
    rw [State.claimLate, if_neg (by rw [next]; decide), if_neg fun both => absurd (next.symm.trans both.1) (by decide)]
  have claim : u.time.claim = some (s.newClaim mb head) := by rw [time]
  rw [masterCommit_of_timely claim timely]
  have adopted := timeAdopt_sourced (u.updTime fun t => { t with claim := none }) (s.newClaim mb head).gen (s.newClaim mb head).head
  generalize (u.updTime fun t => { t with claim := none }).timeAdopt (s.newClaim mb head).gen (s.newClaim mb head).head = v at *
  have replied := replyAll_hatch (M := 16) (by decide) [mb] (status := stOk) (by decide) (leBytes 2 (s.newClaim mb head).gen) (.refl _ v)
  have box (n : Nat) : v.box n = u.box n := adopted.box n
  change ((v.replyAll [mb] stOk _).time.gen = _ ∧ _)
  refine ⟨?_, ?_, ?_, ?_⟩
  · exact (congrArg TimeUnit.gen (replied.time (by decide))).trans (adopted.field (f := TimeUnit.gen) fun _ => rfl)
  · exact (congrArg TimeUnit.masterHead (replied.time (by decide))).trans (adopted.field (f := TimeUnit.masterHead) fun _ => rfl)
  · exact (congrArg TimeUnit.claim (replied.time (by decide))).trans (adopted.field (f := TimeUnit.claim) fun _ => rfl)
  · refine reply_replies_of_waiting (s := s) ⟨_, (box mb).trans own⟩ (fun n other => (box n).trans (ne n other)) ?_ taken _ _
    have twin : v.twin = u.twin := adopted.keeps.twin (by decide)
    rw [twin, sent.twin (by decide)]

theorem timeMasterSet_run {s : State} {mb : Fin 8} {q : Request} (runs : s.Runs mb 0x0621 q) : exec (.timeMasterSet mb) s =
    (if 7 < uAt q.payload 0 1 ∨ s.headPresent (uAt q.payload 0 1) = false then s.refuse mb stBadParam 0x05
    else if uAt q.payload 2 2 ≠ 0xFFFF ∧ uAt q.payload 2 2 ≠ s.time.gen then s.refuse mb stRefused 0x39
    else match s.time.claim with
      | none => s.claimMaster mb (uAt q.payload 0 1)
      | some c =>
        if uAt q.payload 0 1 = c.head then (s.updTime fun t => { t with claim := some { c with mbs := c.mbs ++ [mb.val] } }).waitFor mb .timeMaster
        else if uAt q.payload 0 1 < c.head then (s.masterDrop c stRefused 0x38).claimMaster mb (uAt q.payload 0 1)
        else s.refuse mb stRefused 0x38).done :=
  congrArg State.done ((withCmd_runs runs _ _).trans rfl)

/-- What the end of a claim leaves. -/
theorem masterDrop_spec (s : State) (c : MasterClaim) {status : Nat} (known : status ≠ stBusy) (reason : Nat) :
    let t := s.masterDrop c status reason
    Keeps 528 s t ∧ t.time = { s.time with claim := none } ∧ (∀ n, n ∉ c.mbs → t.box n = s.box n) ∧
      ∀ n ∈ c.mbs, ∀ r, (s.box n).taken = some r → t.box n = (s.box n).replied r status s.twin.epoch (reasonPayload reason 0xFFFF) := by
  rw [masterDrop_eq]
  have replied := replyAll_hatch (M := 16) (by decide) c.mbs known (reasonPayload reason 0xFFFF) (.refl _ (s.updTime fun t => { t with claim := none }))
  exact ⟨replyAll_hatch (by decide) c.mbs known _ (updTime_keeps (by decide) (.refl _ s)), replied.time (by decide),
    fun n out => replyAll_box_ne out _ _ _, fun n mem r taken => replyAll_box mem (s := s.updTime fun t => { t with claim := none }) taken _ _⟩

theorem headPresent_congr {s t : State} (twin : t.twin = s.twin) (ring : t.ring = s.ring) (eff : t.par.eff = s.par.eff) (h : Nat) :
    t.headPresent h = s.headPresent h := by
  have rnode : t.rnode = s.rnode := funext fun n => by rw [State.rnode, ring, State.rnode]
  rw [State.headPresent, State.headPresent, State.headId, State.headId, twin, rnode, pu_congr eff]

theorem timeMasterSet_lands {s : State} {mb : Fin 8} {q : Request} (runs : s.Runs mb 0x0621 q) : Lands (exec (.timeMasterSet mb) s) fun e =>
    let head := uAt q.payload 0 1
    let gen := (s.time.gen + 1) % 65536
    let others := (List.range 8).filter fun h => h != s.headId && s.headPresent h
    if 7 < head ∨ s.headPresent head = false then Only [.hatch] s e ∧ s.Replies e mb q stBadParam [0x05, 0, 0xFF, 0xFF]
    else if uAt q.payload 2 2 ≠ 0xFFFF ∧ uAt q.payload 2 2 ≠ s.time.gen then
      Only [.hatch] s e ∧ s.Replies e mb q stRefused [0x39, 0, 0xFF, 0xFF]
    else
      (s.time.claim = none → others = [] → e.time.gen = gen ∧ e.time.masterHead = head ∧ e.time.claim = none ∧
        s.Replies e mb q stOk (leBytes 2 gen)) ∧
      (s.time.claim = none → others ≠ [] → Only [.hatch, .time, .links] s e ∧
        e.time = { s.time with claim := some { mbs := [mb.val], head, gen, waitFor := others, at_ := s.mono } } ∧
        e.box mb = { s.box mb with waiting := .timeMaster } ∧ (∀ n, n ≠ mb.val → e.box n = s.box n) ∧
        ∀ lane ∈ [128, 129], (e.lnk lane).queue = if s.ringEn = true ∧ (s.lane lane).st = .linked then (s.lnk lane).queue ++
          [{ type := 0x44, payload := s.ringHdr allNodes + (2 ^ 60 + gen * 2 ^ 44 + head * 2 ^ 41 + s.node * 2 ^ 36) }]
          else (s.lnk lane).queue) ∧
      ∀ c, s.time.claim = some c →
        (head = c.head → Only [.hatch, .time] s e ∧ e.time = { s.time with claim := some { c with mbs := c.mbs ++ [mb.val] } } ∧
          e.box mb = { s.box mb with waiting := .timeMaster } ∧ ∀ n, n ≠ mb.val → e.box n = s.box n) ∧
        (c.head < head → Only [.hatch] s e ∧ s.Replies e mb q stRefused [0x38, 0, 0xFF, 0xFF]) ∧
        (head < c.head → others ≠ [] → mb.val ∉ c.mbs →
          e.time = { s.time with claim := some { mbs := [mb.val], head, gen, waitFor := others, at_ := s.mono } } ∧
          e.box mb = { s.box mb with waiting := .timeMaster } ∧ ∀ n ∈ c.mbs, ∀ r, (s.box n).taken = some r → (e.box n).state = .done ∧
            (e.box n).reply = replyBytes stRefused r.seq s.twin.epoch [0x38, 0, 0xFF, 0xFF]) := by
  have run := timeMasterSet_run runs
  dsimp only
  generalize uAt q.payload 0 1 = head, uAt q.payload 2 2 = expect at *
  refine lands_ite (fun bad => refuse_lands runs.taken (by decide) 0x05 (run.trans (congrArg State.done (if_pos bad)))) fun good => ?_
  rw [if_neg good] at run
  refine lands_ite (fun bad => refuse_lands runs.taken (by decide) 0x39 (run.trans (congrArg State.done (if_pos bad)))) fun good => ?_
  rw [if_neg good] at run
  have named : (List.range 8).filter (fun h => h != s.headId && s.headPresent h) = (s.newClaim mb head).waitFor := rfl
  rw [named]
  cases claim : s.time.claim with
  | none =>
    rw [claim] at run
    refine ⟨_, run, fun _ alone => claimMaster_alone runs.taken alone, fun _ others => ?_, (nomatch ·, ·)⟩
    have out : s.claimMaster mb head = s.claimSent mb head := by
      rw [claimMaster_eq, if_neg (by rw [List.isEmpty_iff]; exact others)]
    rw [out]
    exact ⟨only_of (claimSent_keeps s mb head), claimSent_time s mb head, claimSent_box s mb head, fun n other => claimSent_box_ne s mb head other,
      fun lane ring => claimSent_queue s mb head ring⟩
  | some c =>
    rw [claim] at run
    dsimp only at run
    suffices joins : Lands (exec (.timeMasterSet mb) s) fun e =>
        (head = c.head → Only [.hatch, .time] s e ∧ e.time = { s.time with claim := some { c with mbs := c.mbs ++ [mb.val] } } ∧
          e.box mb = { s.box mb with waiting := .timeMaster } ∧ ∀ n, n ≠ mb.val → e.box n = s.box n) ∧
        (c.head < head → Only [.hatch] s e ∧ s.Replies e mb q stRefused [0x38, 0, 0xFF, 0xFF]) ∧
        (head < c.head → (s.newClaim mb head).waitFor ≠ [] → mb.val ∉ c.mbs →
          e.time = { s.time with claim := some (s.newClaim mb head) } ∧
          e.box mb = { s.box mb with waiting := .timeMaster } ∧ ∀ n ∈ c.mbs, ∀ r, (s.box n).taken = some r → (e.box n).state = .done ∧
            (e.box n).reply = replyBytes stRefused r.seq s.twin.epoch [0x38, 0, 0xFF, 0xFF]) from
      joins.mono fun e told => ⟨(nomatch ·), (nomatch ·), fun d same => Option.some.inj same ▸ told⟩
    rcases Nat.lt_trichotomy head c.head with less | same | more
    · rw [if_neg (Nat.ne_of_lt less), if_pos less] at run
      refine ⟨_, run, fun same => absurd same (Nat.ne_of_lt less), fun more => absurd more (Nat.lt_asymm less), fun _ others fresh => ?_⟩
      obtain ⟨kept, time, ne, answers⟩ := masterDrop_spec s c (status := stRefused) (by decide) 0x38
      generalize s.masterDrop c stRefused 0x38 = u at *
      have par : u.par.eff = s.par.eff := by rw [kept.par (by decide)]
      have again : u.newClaim mb head = s.newClaim mb head := by
        have head' (h : Nat) := headPresent_congr (kept.twin (by decide)) (kept.ring (by decide)) par h
        simp only [State.newClaim, time, kept.mono (by decide), State.headId, pu_congr par, head']
      have out : u.claimMaster mb head = u.claimSent mb head := by
        rw [claimMaster_eq, if_neg (by rw [List.isEmpty_iff, again]; exact others)]
      rw [out]
      refine ⟨by rw [claimSent_time, time, again], by rw [claimSent_box, ne _ fresh], fun n mem r taken => ?_⟩
      rw [claimSent_box_ne u mb head (fun own => fresh (own ▸ mem)), answers n mem r taken]
      exact ⟨rfl, rfl⟩
    · rw [if_pos same] at run
      exact ⟨_, run, fun _ => ⟨only_of (waitFor_keeps (by decide) (updTime_keeps (by decide) (.refl _ s))), rfl, box_modBox .., fun n other =>
        box_modBox_ne _ other _⟩, fun more => absurd same.symm (Nat.ne_of_lt more), fun less => absurd same (Nat.ne_of_lt less)⟩
    · rw [if_neg (Nat.ne_of_gt more), if_neg (Nat.lt_asymm more)] at run
      exact (refuse_lands runs.taken (by decide) 0x38 run).mono fun e told =>
        ⟨fun same => absurd same (Nat.ne_of_gt more), fun _ => told, fun less => absurd less (Nat.lt_asymm more)⟩

/-- Settles O26: the captures and the pulse row by row, then the two commands. -/
theorem timeCaptures : Obligations.TimeCaptures := by
  unfold Obligations.TimeCaptures
  exact ⟨fun s w => ⟨fun up => tcapCapture_next w up, fun rising ticks stands new => timeCapInEdge_next stands new,
      fun rising ticks bad => timeCapInEdge_filtered bad, fun up => tcapStatusWrite_next w up, ppsSecond_lands, fun k => ppsPulseEnd_next⟩,
    fun s mb q => ⟨timeSet_lands, timeMasterSet_lands⟩⟩

end Sys2Proof.Machine
end

section
/-!
PROOFS. Where a unit takes its time from (O24): the exchanges with a source.
-/

namespace Sys2Proof.Machine

open Host

/-! ### A message of the source (R198) -/

theorem sourceHeard_holdover {s : State} (lost : s.time.state = .holdover) :
    s.sourceHeard = ((s.updTime fun t => { t with lastMsg := s.mono }).condOffInst 0x20 noInst).timeFollow := if_pos lost

theorem sourceHeard_held {s : State} (held : s.time.state ≠ .holdover) : s.sourceHeard = s.updTime fun t => { t with lastMsg := s.mono } := if_neg held

theorem sourceHeard_lastMsg (s : State) : s.sourceHeard.time.lastMsg = s.mono := by
  by_cases lost : s.time.state = .holdover
  · rw [sourceHeard_holdover lost]
    rfl
  · rw [sourceHeard_held lost]
    rfl

theorem sourceHeard_state (s : State) : s.sourceHeard.time.state = if s.time.state = .holdover then .locking else s.time.state := by
  by_cases lost : s.time.state = .holdover
  · rw [sourceHeard_holdover lost, if_pos lost]
    rfl
  · rw [sourceHeard_held lost, if_neg lost]
    rfl

theorem sourceHeard_state_ne (s : State) : s.sourceHeard.time.state ≠ .holdover := by
  rw [sourceHeard_state]
  split
  · decide
  · assumption

theorem sourceHeard_within (s : State) : s.sourceHeard.time.within = if s.time.state = .holdover then 0 else s.time.within := by
  by_cases lost : s.time.state = .holdover
  · rw [sourceHeard_holdover lost, if_pos lost]
    rfl
  · rw [sourceHeard_held lost, if_neg lost]
    rfl

theorem sourceHeard_beyond (s : State) : s.sourceHeard.time.beyond = if s.time.state = .holdover then 0 else s.time.beyond := by
  by_cases lost : s.time.state = .holdover
  · rw [sourceHeard_holdover lost, if_pos lost]
    rfl
  · rw [sourceHeard_held lost, if_neg lost]
    rfl

theorem sourceHeard_keeps' (s : State) : Keeps 640 s s.sourceHeard := sourceHeard_keeps (by decide) (.refl _ s)

/-! ### A block of a service lane -/

/-- What the reception of a block of a service lane leaves to its row. -/
structure State.SvcHeard (s u : State) (port : ServiceLane) : Prop where
  /-- The parts. -/
  keeps : Keeps 84168 s u
  /-- The queue. -/
  queue : ∀ m, (u.lnk m).queue = (s.lnk m).queue
  /-- The parameters in effect. -/
  eff : u.par.eff = s.par.eff
  /-- The epoch. -/
  epoch : u.twin.epoch = s.twin.epoch

theorem rxValid_epoch (s : State) (lane : Nat) (h : RxHeader) : (s.rxValid lane h).twin.epoch = s.twin.epoch := by
  have counted : (s.rxCounted lane h).twin.epoch = s.twin.epoch :=
    congrArg Twin.epoch ((rxCounted_keeps (M := 16448) (by decide) lane h (.refl _ s)).twin (by decide))
  rw [(rxValid_marked s lane h).1.twin (by decide), State.rxMarked, State.rxStream]
  split
  · dsimp only
    split <;> exact counted
  · exact counted

theorem State.SvcHeard.of {s u : State} {port : ServiceLane} {h : RxHeader} (kept : Keeps 2048 (s.rxValid (svcLane port) h) u)
    (epoch : u.twin.epoch = (s.rxValid (svcLane port) h).twin.epoch) : s.SvcHeard u port := by
  refine ⟨(rxValid_keeps (by decide) (.refl _ s)).trans (kept.weaken (by decide)), fun m => ?_, ?_, epoch.trans (rxValid_epoch s _ h)⟩
  · rw [kept.lnk (by decide), rxValid_queue]
  · rw [kept.par (by decide), (rxValid_spec s _ h).2.2.2.1]

theorem svcTakes_heard {s : State} {port : ServiceLane} {h : RxHeader} (takes : s.SvcTakes port h) (f : State → State) :
    ∃ u, s.SvcHeard u port ∧ s.svcTake (svcLane port) h f = f u := by
  by_cases twinLane : 130 ≤ svcLane port
  · refine ⟨(s.rxValid (svcLane port) h).updTwin fun t => { t with rxSeq := some h.seq.toNat }, .of (updTwin_keeps (by decide) (.refl _ _)) rfl, ?_⟩
    rw [State.svcTake, if_pos twinLane, State.twinFirst]
    refine if_neg ?_
    split
    · rename_i q seq
      have newer := takes.first twinLane q seq
      rw [decide_eq_true_eq]
      omega
    · decide
  · exact ⟨s.rxValid (svcLane port) h, .of (.refl _ _) rfl, if_neg twinLane⟩

theorem tagOk_congr {s u : State} (epoch : u.twin.epoch = s.twin.epoch) (lane : Nat) (h : RxHeader) : u.tagOk lane h = s.tagOk lane h := by
  rw [State.tagOk, State.tagOk, epoch]

/-- A block of a service lane that is taken comes to its row (R371, R372). -/
theorem svcTakes_run {s : State} {port : ServiceLane} {h : RxHeader} (takes : s.SvcTakes port h) (f : State → State) :
    ∃ u, s.SvcHeard u port ∧ s.onRx (svcLane port) (fun s => s.svcTake (svcLane port) h fun u =>
      if u.tagOk (svcLane port) h = false then u.staleRx else f u) = (f u).done := by
  obtain ⟨u, heard, run⟩ := svcTakes_heard takes fun u => if u.tagOk (svcLane port) h = false then u.staleRx else f u
  refine ⟨u, heard, (if_pos takes.receives).trans (congrArg State.done (run.trans (if_neg ?_)))⟩
  rw [tagOk_congr heard.epoch, takes.tag]
  decide

/-! ### SYNC (R167, R202, R371) -/

/-- The exchange a SYNC begins. -/
def State.syncExchange (s : State) (p : BitVec 96) (u : State) : Exchange :=
  { id := pbits p 87 80, t1 := 16 * pbits p 63 0, at_ := s.mono, stepNo := s.time.stepNo, t2 := u.fineRx.toNat }

/-- What the SYNC of the unit's source also does. -/
def State.heardFrom (s : State) (lane : Nat) : State := if s.fromSource lane then s.sourceHeard else s

theorem heardFrom_sourced (s : State) (lane : Nat) : State.Sourced s (s.heardFrom lane) := ite_sourced (fun _ => sourceHeard_sourced s) fun _ => .refl s

theorem heardFrom_keeps (s : State) (lane : Nat) : Keeps 640 s (s.heardFrom lane) :=
  keeps_ite (fun _ => sourceHeard_keeps' s) fun _ => .refl _ s

theorem syncRx_lands {s : State} {port : ServiceLane} {h : RxHeader} {p : BitVec 96} (takes : s.SvcTakes port h) (code : p.toNat / 2 ^ 88 = 1) :
    Lands (exec (.syncRx port h p) s) fun e =>
      (∃ x, e.time.svcAnswer.get? (queueLane (svcLane port)) = some x ∧ x.id = p.toNat / 2 ^ 80 % 2 ^ 8 ∧ x.t1 = 16 * (p.toNat % 2 ^ 64) ∧
        x.at_ = s.mono ∧ x.stepNo = s.time.stepNo ∧ (e.lnk (queueLane (svcLane port))).queue = (s.lnk (queueLane (svcLane port))).queue ++
          [{ type := 0x25, payload := 3 * 2 ^ 88 + (p.toNat / 2 ^ 80 % 2 ^ 8) * 2 ^ 80 + ((x.t2 + 8) / 16 % 2 ^ 32) * 2 ^ 32 }]) ∧
      e.time.tick = s.time.tick ∧ (s.fromSource (svcLane port) = true → e.time.lastMsg = s.mono ∧ e.time.state ≠ .holdover) ∧
      Only [.todo, .par, .faults, .time, .twin, .lanes, .links] s e := by
  obtain ⟨u, heard, run⟩ := svcTakes_run takes fun u => if pbits p 95 88 ≠ 1 then u
    else ((u.updTime fun t => { t with svcAnswer := t.svcAnswer.set (queueLane (svcLane port)) (s.syncExchange p u) }).heardFrom
      (svcLane port)).queueBlock (svcLane port) tyReply (pf 88 3 + pf 80 (pbits p 87 80) + pf 32 ((u.fineRx.toNat + 8) / 16 % 2 ^ 32))
  rw [if_neg (not_not.2 ((pbits_top p).trans code))] at run
  have time : u.time = s.time := heard.keeps.time (by decide)
  have kept : Keeps 84680 s (u.updTime fun t => { t with svcAnswer := t.svcAnswer.set (queueLane (svcLane port)) (s.syncExchange p u) }) :=
    updTime_keeps (by decide) (heard.keeps.weaken (by decide))
  have answer : (u.updTime fun t => { t with svcAnswer := t.svcAnswer.set (queueLane (svcLane port)) (s.syncExchange p u) }).time =
      { s.time with svcAnswer := s.time.svcAnswer.set (queueLane (svcLane port)) (s.syncExchange p u) } := by rw [updTime_time, time]
  have queue (m : Nat) : ((u.updTime fun t => { t with svcAnswer := t.svcAnswer.set (queueLane (svcLane port)) (s.syncExchange p u) }).lnk m).queue =
      (s.lnk m).queue := heard.queue m
  generalize (u.updTime fun t => { t with svcAnswer := t.svcAnswer.set (queueLane (svcLane port)) (s.syncExchange p u) }) = v at *
  have sourced := heardFrom_sourced v (svcLane port)
  have part := heardFrom_keeps v (svcLane port)
  have follows : s.fromSource (svcLane port) = true → (v.heardFrom (svcLane port)).time.lastMsg = s.mono ∧
      (v.heardFrom (svcLane port)).time.state ≠ .holdover := fun source => by
    have source' : v.fromSource (svcLane port) = true := by rw [State.fromSource, answer]; exact source
    rw [State.heardFrom, if_pos source', sourceHeard_lastMsg, kept.mono (by decide)]
    exact ⟨rfl, sourceHeard_state_ne v⟩
  generalize v.heardFrom (svcLane port) = w at *
  have sent := queueBlock_keeps (M := 65536) (a1 := svcLane port) (a2 := tyReply)
    (a3 := pf 88 3 + pf 80 (pbits p 87 80) + pf 32 ((u.fineRx.toNat + 8) / 16 % 2 ^ 32)) (by decide) (.refl _ w)
  have stamp : pbits p 63 0 = p.toNat % 2 ^ 64 := by rw [pbits_eq, Nat.pow_zero, Nat.div_one]
  refine ⟨_, run, ⟨s.syncExchange p u, ?_, rfl, congrArg (16 * ·) stamp, rfl, rfl, ?_⟩, ?_, fun source => ?_, ?_⟩
  · rw [sent.time (by decide), sourced.field (f := TimeUnit.svcAnswer) fun _ => rfl, answer]
    exact Tab.get?_set ..
  · rw [queueBlock_lnk]
    dsimp only
    rw [part.lnk (by decide), queue]
    rfl
  · rw [sent.time (by decide), sourced.tick, answer]
  · rw [sent.time (by decide)]
    exact follows source
  · exact only_of ((kept.trans (part.weaken (by decide))).trans (sent.weaken (by decide)))

/-! ### An offset to the source (R193 to R195) -/

/-- An offset noted, and how many in a row lay within or beyond the limits (R193). -/
def State.offsetNoted (s : State) (c : Int) : State :=
  s.updTime fun t =>
    { t with offset := satI 32 c, within := if (c.natAbs : Int) ≤ (s.p0 0x0606 : Int) then t.within + 1 else 0,
             beyond := if 2 * (s.p0 0x0606 : Int) < (c.natAbs : Int) then t.beyond + 1 else 0, lastMsg := s.mono }

/-- Whether an offset is large enough for a step (R195). -/
def State.offsetLarge (s : State) (c : Int) : Bool := decide (16 * (s.p0 0x0605 : Int) < (c.natAbs : Int))

/-- An offset noted, and TIME_STEP_BLOCKED entered or left. -/
def State.offsetJudged (s : State) (c : Int) : State :=
  (s.offsetNoted c).cond (s.offsetLarge c && s.anyRuns) 0x21 noInst 0 (leBytesI 8 (c / 16))

/-- TIME_STATE after a slew (R193). -/
def State.slewState (s : State) : TimeState :=
  if 8 ≤ s.time.within then .locked else if s.time.state = .locked ∧ s.time.beyond < 2 then .locked else .locking

theorem takeOffset_eq (s : State) (c : Int) : s.takeOffset c = if s.offsetLarge c && !s.anyRuns then
      (((s.offsetJudged c).timeStep ((s.now : Int) + c / 16).toNat).updTime fun t => { t with within := 0, beyond := 0 }).setTime .locking
        (s.offsetJudged c).time.rate
    else (s.offsetJudged c).tookFree.setTime (s.offsetJudged c).slewState
      ((s.offsetJudged c).heldRate + Int.sign c * ((s.offsetJudged c).freeVal % (s.p0 0x0604 + 1) : Nat)) := rfl

theorem cond_time (s : State) (on : Bool) (src inst sub : Nat) (args : Bytes) : (s.cond on src inst sub args).time = s.time :=
  (cond_keeps (M := 8440) (by decide) (.refl _ s)).time (by decide)

theorem offsetJudged_time (s : State) (c : Int) : (s.offsetJudged c).time = (s.offsetNoted c).time := cond_time ..

theorem clampI_bounds (v : Int) : -200000 ≤ clampI (-200000) 200000 v ∧ clampI (-200000) 200000 v ≤ 200000 := by
  rw [clampI]
  omega

theorem setTime_time (s : State) (st : TimeState) (rate : Int) : (s.setTime st rate).time =
    { s.time with state := st, rate := clampI (-200000) 200000 rate, rateHist := s.rateSpans, rateSince := s.mono } := rfl

theorem takeOffset_step {s : State} {c : Int} (large : s.offsetLarge c = true) (still : s.anyRuns = false) : let e := (s.takeOffset c).time
    e.offset = satI 32 c ∧ e.lastMsg = s.mono ∧ -200000 ≤ e.rate ∧ e.rate ≤ 200000 ∧ e.tick = ((s.now : Int) + c / 16).toNat % 2 ^ 64 ∧
      e.stepNo = s.time.stepNo + 1 ∧ e.genStep = true ∧ e.state = .locking ∧ e.svcAnswer = s.time.svcAnswer := by
  have judged := offsetJudged_time s c
  have field {α : Type} {f : TimeUnit → α} (g : ∀ t : TimeUnit, f t.scale = f t) :=
    timeStep_field g (s.offsetJudged c) ((s.now : Int) + c / 16).toNat
  rw [takeOffset_eq, if_pos (by rw [large, still]; rfl)]
  dsimp only
  generalize (s.offsetJudged c).timeStep _ = v at *
  rw [setTime_time, updTime_time]
  have ⟨low, high⟩ := clampI_bounds (s.offsetJudged c).time.rate
  refine ⟨?_, ?_, low, high, ?_, ?_, ?_, rfl, ?_⟩
  · exact (field (f := TimeUnit.offset) fun _ => rfl).trans (by rw [judged]; rfl)
  · exact (field (f := TimeUnit.lastMsg) fun _ => rfl).trans (by rw [judged]; rfl)
  · exact field (f := TimeUnit.tick) fun _ => rfl
  · exact (field (f := TimeUnit.stepNo) fun _ => rfl).trans (by rw [judged]; rfl)
  · exact field (f := TimeUnit.genStep) fun _ => rfl
  · exact (field (f := TimeUnit.svcAnswer) fun _ => rfl).trans (by rw [judged]; rfl)

theorem takeOffset_slew {s : State} {c : Int} (slews : s.offsetLarge c = false ∨ s.anyRuns = true) : let e := (s.takeOffset c).time
    let within := if c.natAbs ≤ s.p0 0x0606 then s.time.within + 1 else 0
    let beyond := if 2 * s.p0 0x0606 < c.natAbs then s.time.beyond + 1 else 0
    e.offset = satI 32 c ∧ e.lastMsg = s.mono ∧ -200000 ≤ e.rate ∧ e.rate ≤ 200000 ∧ e.tick = s.time.tick ∧ e.stepNo = s.time.stepNo ∧
      e.within = within ∧ (e.state = if 8 ≤ within ∨ (s.time.state = .locked ∧ beyond < 2) then .locked else .locking) ∧
      e.svcAnswer = s.time.svcAnswer := by
  have judged := offsetJudged_time s c
  have within : (s.offsetNoted c).time.within = if c.natAbs ≤ s.p0 0x0606 then s.time.within + 1 else 0 := by
    refine (show _ = if (c.natAbs : Int) ≤ (s.p0 0x0606 : Int) then _ else _ from rfl).trans (if_congr ?_ rfl rfl)
    exact Int.ofNat_le
  have beyond : (s.offsetNoted c).time.beyond = if 2 * s.p0 0x0606 < c.natAbs then s.time.beyond + 1 else 0 := by
    refine (show _ = if 2 * (s.p0 0x0606 : Int) < (c.natAbs : Int) then _ else _ from rfl).trans (if_congr ?_ rfl rfl)
    omega
  have state : (s.offsetNoted c).time.state = s.time.state := rfl
  rw [takeOffset_eq, if_neg (by rcases slews with small | runs <;> simp [*])]
  dsimp only
  rw [setTime_time]
  have ⟨low, high⟩ := clampI_bounds ((s.offsetJudged c).heldRate + Int.sign c * ((s.offsetJudged c).freeVal % (s.p0 0x0604 + 1) : Nat))
  have free : (s.offsetJudged c).tookFree.time = (s.offsetNoted c).time := judged
  refine ⟨?_, ?_, low, high, ?_, ?_, ?_, ?_, ?_⟩
  · rw [free]; rfl
  · rw [free]; rfl
  · rw [free]; rfl
  · rw [free]; rfl
  · rw [← within, free]
  · rw [← within, ← beyond, ← state, ← judged]
    change State.slewState _ = _
    rw [State.slewState]
    split
    · rw [if_pos (.inl ‹_›)]
    · rename_i few
      exact if_congr (by rw [or_iff_right few]) rfl rfl
  · rw [free]; rfl

/-! ### DELAY_RESP (R193 to R195, R198, R205) -/

theorem sourceHeard_eff (s : State) : s.sourceHeard.par.eff = s.par.eff := (sourceHeard_sourced s).eff

/-- What the time unit is after an offset has been taken, in the words of the state the DELAY_RESP meets. -/
structure State.OffsetTaken (s : State) (c : Int) (e : TimeUnit) : Prop where
  /-- The offset. -/
  offset : e.offset = satI 32 c
  /-- The source's latest message. -/
  lastMsg : e.lastMsg = s.mono
  /-- The rate's lower bound. -/
  low : -200000 ≤ e.rate
  /-- The rate's upper bound. -/
  high : e.rate ≤ 200000
  /-- A step. -/
  step : s.offsetLarge c = true → s.anyRuns = false → e.tick = ((s.now : Int) + c / 16).toNat % 2 ^ 64 ∧ e.stepNo = s.time.stepNo + 1 ∧
    e.genStep = true ∧ e.state = .locking
  /-- A slew. -/
  slew : s.offsetLarge c = false ∨ s.anyRuns = true →
    let within := if c.natAbs ≤ s.p0 0x0606 then (if s.time.state = .holdover then 0 else s.time.within) + 1 else 0
    let beyond := if 2 * s.p0 0x0606 < c.natAbs then (if s.time.state = .holdover then 0 else s.time.beyond) + 1 else 0
    e.tick = s.time.tick ∧ e.stepNo = s.time.stepNo ∧ e.within = within ∧
      e.state = if 8 ≤ within ∨ (s.time.state = .locked ∧ beyond < 2) then .locked else .locking

theorem heardOffset_taken (s : State) (c : Int) : s.OffsetTaken c (s.sourceHeard.takeOffset c).time := by
  have kept := sourceHeard_keeps' s
  have lim (id : Nat) : s.sourceHeard.p0 id = s.p0 id := p0_congr (sourceHeard_eff s) id
  have large : s.sourceHeard.offsetLarge c = s.offsetLarge c := by rw [State.offsetLarge, lim, State.offsetLarge]
  have runs : s.sourceHeard.anyRuns = s.anyRuns := by
    have str (n : Nat) : s.sourceHeard.strRuns n = s.strRuns n := by rw [State.strRuns, kept.str (by decide), State.strRuns]
    rw [State.anyRuns, State.anyRuns, funext str]
  have tick := (sourceHeard_sourced s).tick
  have stepNo := (sourceHeard_sourced s).field (f := TimeUnit.stepNo) fun _ => rfl
  have stays : s.sourceHeard.time.state = .locked ↔ s.time.state = .locked := by
    rw [sourceHeard_state]
    split
    · rename_i lost
      rw [lost]
      exact ⟨(nomatch ·), (nomatch ·)⟩
    · exact .rfl
  by_cases steps : s.offsetLarge c = true ∧ s.anyRuns = false
  · obtain ⟨offset, last, low, high, tick', stepNo', gen, state, -⟩ := takeOffset_step (large.trans steps.1) (runs.trans steps.2)
    refine ⟨offset, last.trans (kept.mono (by decide)), low, high, fun _ _ => ⟨?_, stepNo'.trans (by rw [stepNo]), gen, state⟩, fun slews => ?_⟩
    · rw [tick', State.now, tick, State.now]
    · rcases slews with small | runs
      · exact absurd (small.symm.trans steps.1) (by decide)
      · exact absurd (runs.symm.trans steps.2) (by decide)
  · have slews : s.offsetLarge c = false ∨ s.anyRuns = true := by
      rw [not_and_or, Bool.not_eq_true, Bool.not_eq_false] at steps
      exact steps
    obtain ⟨offset, last, low, high, tick', stepNo', within, state, -⟩ := takeOffset_slew (s := s.sourceHeard) (c := c)
      (slews.imp (large.trans ·) (runs.trans ·))
    rw [sourceHeard_within, lim] at within
    rw [sourceHeard_within, sourceHeard_beyond, lim] at state
    refine ⟨offset, last.trans (kept.mono (by decide)), low, high, fun large still => absurd ⟨large, still⟩ steps, fun _ => ?_⟩
    refine ⟨tick'.trans tick, stepNo'.trans stepNo, within, state.trans (if_congr ?_ rfl rfl)⟩
    rw [stays]

theorem takeOffset_svcAnswer (s : State) (c : Int) : (s.takeOffset c).time.svcAnswer = s.time.svcAnswer := by
  by_cases steps : s.offsetLarge c = true ∧ s.anyRuns = false
  · exact (takeOffset_step steps.1 steps.2).2.2.2.2.2.2.2.2
  · rw [not_and_or, Bool.not_eq_true, Bool.not_eq_false] at steps
    exact (takeOffset_slew steps).2.2.2.2.2.2.2.2

theorem State.OffsetTaken.from {s w : State} {c : Int} {e : TimeUnit} {answers : Tab Exchange} (h : w.OffsetTaken c e) (mono : w.mono = s.mono)
    (eff : w.par.eff = s.par.eff) (mod_ : w.mod = s.mod) (time : w.time = { s.time with svcAnswer := answers }) : s.OffsetTaken c e := by
  have large : w.offsetLarge c = s.offsetLarge c := by rw [State.offsetLarge, p0_congr eff, State.offsetLarge]
  have runs : w.anyRuns = s.anyRuns := by
    have str (n : Nat) : w.strRuns n = s.strRuns n := by rw [State.strRuns, State.str, mod_, State.strRuns, State.str]
    rw [State.anyRuns, State.anyRuns, funext str]
  obtain ⟨offset, last, low, high, step, slew⟩ := h
  rw [large, runs, State.now, time] at step
  rw [large, runs, p0_congr eff, time] at slew
  exact ⟨offset, last.trans mono, low, high, step, slew⟩

/-- What a DELAY_RESP of a lane does, in the words of the state it meets. -/
def State.respTaken (s : State) (lane : Nat) (p : BitVec 96) (u : State) : State :=
  match u.time.svcAnswer.get? (queueLane lane) with
  | some x =>
    if pbits p 95 88 = 2 ∧ x.id = pbits p 87 80 then
      let s2 := u.updTime fun t => { t with svcAnswer := t.svcAnswer.erase (queueLane lane) }
      if x.stepNo = s.time.stepNo ∧ s.sourceLane lane x.id = true then s2.sourceHeard.takeOffset ((x.t1 : Int) + pbits p 63 32 - x.t2) else s2
    else u
  | none => u

theorem delayRespRx_lands {s : State} {port : ServiceLane} {h : RxHeader} {p : BitVec 96} {x : Exchange} (takes : s.SvcTakes port h)
    (code : p.toNat / 2 ^ 88 = 2) (waits : s.time.svcAnswer.get? (queueLane (svcLane port)) = some x) (id_ : x.id = p.toNat / 2 ^ 80 % 2 ^ 8) :
    Lands (exec (.delayRespRx port h p) s) fun e =>
      e.time.svcAnswer.get? (queueLane (svcLane port)) = none ∧
      Only [.freeCount, .todo, .hatch, .notif, .par, .faults, .time, .sta, .twin, .pantry, .lanes, .links, .mod] s e ∧
      if x.stepNo = s.time.stepNo ∧ s.sourceLane (svcLane port) x.id = true then
        s.OffsetTaken ((x.t1 : Int) + p.toNat / 2 ^ 32 % 2 ^ 32 - x.t2) e.time
      else e.time = { s.time with svcAnswer := s.time.svcAnswer.erase (queueLane (svcLane port)) } := by
  obtain ⟨u, heard, run⟩ := svcTakes_run takes (s.respTaken (svcLane port) p)
  have time : u.time = s.time := heard.keeps.time (by decide)
  rw [State.respTaken, time, waits] at run
  dsimp only at run
  rw [if_pos ⟨(pbits_top p).trans code, id_⟩] at run
  have kept : Keeps 84680 s (u.updTime fun t => { t with svcAnswer := t.svcAnswer.erase (queueLane (svcLane port)) }) :=
    updTime_keeps (by decide) (heard.keeps.weaken (by decide))
  have eff : (u.updTime fun t => { t with svcAnswer := t.svcAnswer.erase (queueLane (svcLane port)) }).par.eff = s.par.eff := heard.eff
  have erased : (u.updTime fun t => { t with svcAnswer := t.svcAnswer.erase (queueLane (svcLane port)) }).time =
      { s.time with svcAnswer := s.time.svcAnswer.erase (queueLane (svcLane port)) } := by rw [updTime_time, time]
  generalize (u.updTime fun t => { t with svcAnswer := t.svcAnswer.erase (queueLane (svcLane port)) }) = w at *
  by_cases source : x.stepNo = s.time.stepNo ∧ s.sourceLane (svcLane port) x.id = true
  · rw [if_pos source] at run
    refine ⟨_, run, ?_, only_of (takeOffset_keeps (by decide) (sourceHeard_keeps (by decide) (kept.weaken (by decide)))), ?_⟩
    · rw [takeOffset_svcAnswer, (sourceHeard_sourced w).field (f := TimeUnit.svcAnswer) fun _ => rfl, erased]
      exact Tab.get?_erase ..
    · rw [if_pos source]
      exact (heardOffset_taken w _).from (kept.mono (by decide)) eff (kept.mod (by decide)) erased
  · rw [if_neg source] at run
    refine ⟨w, run, ?_, only_of (kept.weaken (by decide)), ?_⟩
    · rw [erased]
      exact Tab.get?_erase ..
    · rw [if_neg source]
      exact erased

end Sys2Proof.Machine
end

section
/-!
PROOFS. Where a unit takes its time from (O24): the ring's time messages, the losses and the mastership, and the settling of the statement.
-/

namespace Sys2Proof.Machine

open Host

/-! ### RING_TIME sent (R196, R407) -/

/-- What RING_TIME and its SYNC add to a queue. -/
def State.timeBlocks (s : State) (hops id : Nat) : List DownBlock :=
  [{ type := 0x40, payload := s.ringHdr allNodes + hops * 2 ^ 81 + s.time.gen * 2 ^ 48 + s.time.masterHead * 2 ^ 45 + id * 2 ^ 37 },
    { type := 0x06, payload := 2 ^ 88 + id * 2 ^ 80 }]

theorem sendRingTime_keeps' (s : State) (lane hops : Nat) : Keeps 2162688 s (s.sendRingTime lane hops) := sendRingTime_keeps (by decide) (.refl _ s)

theorem sendRingTime_queue (s : State) {lane : Nat} (low : lane < 131) (hops : Nat) : ((s.sendRingTime lane hops).lnk lane).queue =
    if (s.lane lane).st = .linked then (s.lnk lane).queue ++ s.timeBlocks hops s.ring.syncId else (s.lnk lane).queue := by
  rw [State.sendRingTime]
  split
  · dsimp only
    rw [(updRing_keeps (M := 2097152) (by decide) (.refl _ _)).lnk (by decide), queueBlock_lnk_own _ low, queueBlock_lnk_own _ low]
    simp only [List.append_assoc, List.cons_append, List.nil_append, State.timeBlocks, pf, Nat.one_mul]
    rfl
  · rfl

theorem sendRingTime_other (s : State) {lane : Nat} (low : lane < 131) (hops : Nat) {m : Nat} (other : m ≠ lane) :
    (s.sendRingTime lane hops).lnk m = s.lnk m := by
  rw [State.sendRingTime]
  split
  · dsimp only
    rw [(updRing_keeps (M := 2097152) (by decide) (.refl _ _)).lnk (by decide), queueBlock_oneLink _ low _ _ m other, queueBlock_oneLink _ low _ _ m other]
  · rfl

theorem sendRingTime_syncId (s : State) (lane hops : Nat) : (s.sendRingTime lane hops).ring.syncId =
    if (s.lane lane).st = .linked then (s.ring.syncId + 1) % 256 else s.ring.syncId := by
  rw [State.sendRingTime]
  split <;> rfl

theorem timeBlocks_congr {s t : State} (time : t.time.gen = s.time.gen) (head : t.time.masterHead = s.time.masterHead)
    (eff : t.par.eff = s.par.eff) (epoch : t.twin.epoch = s.twin.epoch) (hops id : Nat) : t.timeBlocks hops id = s.timeBlocks hops id := by
  rw [State.timeBlocks, State.timeBlocks, State.ringHdr, State.ringHdr, State.node, State.node, pu_congr eff, epoch, time, head]

theorem ringTimeSend_lands {s : State} (on : s.ringEn = true) (master : s.isMaster = true) (due : s.time.ringDue ≤ s.mono) :
    Lands (exec .ringTimeSend s) fun e => e.time = { s.time with ringDue := s.mono + 80000 } ∧ Only [.time, .links, .ring] s e ∧
      ∀ lane ∈ [128, 129], (e.lnk lane).queue = if (s.lane lane).st = .linked then
        let id := if lane = 129 ∧ (s.lane 128).st = .linked then (s.ring.syncId + 1) % 256 else s.ring.syncId
        (s.lnk lane).queue ++ [{ type := 0x40, payload := s.ringHdr allNodes + s.time.gen * 2 ^ 48 + s.time.masterHead * 2 ^ 45 + id * 2 ^ 37 },
          { type := 0x06, payload := 2 ^ 88 + id * 2 ^ 80 }] else (s.lnk lane).queue := by
  have first := sendRingTime_keeps' s 128 0
  have second := sendRingTime_keeps' (s.sendRingTime 128 0) 129 0
  have queue128 := sendRingTime_queue s (lane := 128) (by decide) 0
  have queue129 := sendRingTime_queue (s.sendRingTime 128 0) (lane := 129) (by decide) 0
  have stays := sendRingTime_other (s.sendRingTime 128 0) (lane := 129) (by decide) 0 (m := 128) (by decide)
  have before := sendRingTime_other s (lane := 128) (by decide) 0 (m := 129) (by decide)
  have id_ := sendRingTime_syncId s 128 0
  have run : exec .ringTimeSend s = (((s.sendRingTime 128 0).sendRingTime 129 0).updTime fun t => { t with ringDue := s.mono + us 10 }).done :=
    if_pos ⟨on, master, due⟩
  have blocks (hops id : Nat) : (s.sendRingTime 128 0).timeBlocks hops id = s.timeBlocks hops id :=
    timeBlocks_congr (by rw [first.time (by decide)]) (by rw [first.time (by decide)]) (by rw [first.par (by decide)]) (by rw [first.twin (by decide)]) _ _
  have zero (id : Nat) : s.timeBlocks 0 id = [{ type := 0x40, payload := s.ringHdr allNodes + s.time.gen * 2 ^ 48 + s.time.masterHead * 2 ^ 45 + id * 2 ^ 37 },
      { type := 0x06, payload := 2 ^ 88 + id * 2 ^ 80 }] := by rw [State.timeBlocks, Nat.zero_mul, Nat.add_zero]
  rw [zero] at queue128
  rw [blocks, zero, before, first.lane (by decide), id_] at queue129
  generalize (s.sendRingTime 128 0).sendRingTime 129 0 = u at *
  have kept := first.trans second
  refine ⟨_, run, ?_, only_of (updTime_keeps (by decide) (kept.weaken (by decide))), fun lane ring => ?_⟩
  · rw [updTime_time, kept.time (by decide)]
    rfl
  · change (u.lnk lane).queue = _
    rcases List.mem_pair.1 ring with rfl | rfl
    · rw [stays, queue128]
      rfl
    · rw [queue129]
      refine if_congr Iff.rfl ?_ rfl
      have same : (if 129 = 129 ∧ (s.lane 128).st = .linked then (s.ring.syncId + 1) % 256 else s.ring.syncId) =
        if (s.lane 128).st = .linked then (s.ring.syncId + 1) % 256 else s.ring.syncId := if_congr (and_iff_right rfl) rfl rfl
      rw [same]

/-! ### The losses (R197, R198) -/

/-- The source chosen for a neighbour that has been silent is the other one, where that is heard (R197). -/
theorem pickFollow_silent {s : State} {side : RingSide} (follows : s.ring.follow = ringSource (ringLane side))
    (silent : (if side = .e then s.time.east else s.time.west).at_ + 240000 ≤ s.mono) : s.pickFollow =
      if s.nbrFresh (if side = .e then s.time.west else s.time.east) = true then ringSource (otherRing (ringLane side)) else .none := by
  have stale : s.nbrFresh (if side = .e then s.time.east else s.time.west) = false := by
    rw [State.nbrFresh, Bool.and_eq_false_iff]
    exact .inr (decide_eq_false (Nat.not_lt.2 silent))
  cases side with
  | e =>
    have follows : s.ring.follow = .ringE := follows
    have stale : s.nbrFresh s.time.east = false := stale
    rw [State.pickFollow, follows, stale]
    cases h : s.nbrFresh s.time.west <;> simp [h, ringSource, otherRing, ringLane]
  | w =>
    have follows : s.ring.follow = .ringW := follows
    have stale : s.nbrFresh s.time.west = false := stale
    rw [State.pickFollow, follows, stale]
    cases h : s.nbrFresh s.time.east <;> simp [h, ringSource, otherRing, ringLane]

theorem restated_keeps (s : State) : Keeps 8952 s s.restated := by
  have follows : Keeps 8952 s s.timeFollow := timeFollow_keeps (by decide) (.refl _ s)
  have sets (st : TimeState) : Keeps 8952 s (s.setTime st s.time.rate) := setTime_keeps (by decide) (.refl _ s)
  exact keeps_ite (fun _ => keeps_ite (fun _ => .refl _ s) fun _ => setTime_keeps (by decide) (condOffInst_keeps (by decide) (.refl _ s))) fun _ =>
    keeps_ite (fun _ => keeps_ite (fun _ => follows) fun _ => keeps_ite (fun _ => masterLoss_keeps (by decide) (.refl _ s)) fun _ => sets _)
      fun _ => keeps_ite (fun _ => follows) fun _ => .refl _ s

theorem restated_ring (s : State) : s.restated.ring = s.ring := (restated_keeps s).ring (by decide)

theorem timeRefresh_follow (s : State) : s.timeRefresh.ring = { s.ring with follow := s.pickFollow } := by
  rw [timeRefresh_eq, restated_ring]
  rfl

theorem timeNeighbourTimeout_lands {s : State} {side : RingSide} (follows : s.ring.follow = ringSource (ringLane side))
    (silent : (if side = .e then s.time.east else s.time.west).at_ + 240000 ≤ s.mono) : Lands (exec .timeNeighbourTimeout s) fun e =>
      e.time.tick = s.time.tick ∧
      e.ring.follow = (if s.nbrFresh (if side = .e then s.time.west else s.time.east) = true then ringSource (otherRing (ringLane side)) else .none) ∧
      Only [.todo, .hatch, .notif, .par, .faults, .time, .pantry, .ring] s e := by
  have sourced := timeRefresh_sourced s
  have some_ : s.ring.follow ≠ .none := by
    rw [follows]
    cases side <;> decide
  have late : s.elapsed (if s.ring.follow = .ringE then s.time.east else s.time.west).at_ (us 30) = true := by
    cases side with
    | e => rw [if_pos (show s.ring.follow = .ringE from follows)]; exact elapsed_of_le silent
    | w => rw [if_neg (by rw [follows]; decide)]; exact elapsed_of_le silent
  refine ⟨s.timeRefresh, if_pos ⟨some_, late⟩, sourced.tick, ?_, only_of sourced.keeps⟩
  rw [timeRefresh_follow, ← pickFollow_silent follows silent]

theorem masterLossExpire_lands {s : State} (state : s.time.state = .locking ∨ s.time.state = .locked)
    (silent : s.time.lastMsg + 8000 * s.p0 0x0607 ≤ s.mono) : Lands (exec .masterLossExpire s) fun e => e.time.state = .holdover ∧
      e.time.rate = clampI (-200000) 200000 s.heldRate ∧ e.time.tick = s.time.tick ∧
      (s.faults.present.contains { src := 0x20, inst := noInst, sub := 0 } = false → s.Fired e 0x20) ∧
      Only [.todo, .hatch, .notif, .par, .faults, .time, .pantry] s e := by
  have lost : s.masterLoss = ((s.updTime fun t => { t with within := 0, beyond := 0 }).setTime .holdover s.heldRate).condOn 0x20 noInst 0
    (leBytes 1 s.time.masterHead ++ leBytes 2 s.time.gen) := rfl
  have left : Keeps 512 s ((s.updTime fun t => { t with within := 0, beyond := 0 }).setTime .holdover s.heldRate) :=
    setTime_keeps (by decide) (updTime_keeps (by decide) (.refl _ s))
  have cond := condOn_keeps (M := 8440) (a1 := 0x20) (a2 := noInst) (a3 := 0) (a4 := leBytes 1 s.time.masterHead ++ leBytes 2 s.time.gen) (by decide)
    (.refl _ ((s.updTime fun t => { t with within := 0, beyond := 0 }).setTime .holdover s.heldRate))
  refine ⟨s.masterLoss, if_pos ⟨state, elapsed_of_le silent⟩, ?_, ?_, (masterLoss_sourced s).tick, fun new => ?_, ?_⟩
  · rw [lost, cond.time (by decide)]
    rfl
  · rw [lost, cond.time (by decide)]
    rfl
  · rw [lost]
    exact (condOn_fired _ (by decide) (by rw [left.faults (by decide)]; exact new) _).from (by rw [left.faults (by decide)])
  · rw [lost]
    exact only_of ((left.weaken (by decide)).trans (cond.weaken (by decide)))

end Sys2Proof.Machine
end

section
/-!
PROOFS. Where a unit takes its time from (O24): what is taken from a block of the ring, and the ring's time messages.
-/

namespace Sys2Proof.Machine

open Host

/-! ### A block of the ring (R405, R408, R409) -/

/-- What the reception of a block of the ring leaves to its row. -/
structure State.RingHeard (s u : State) : Prop where
  /-- The parts. -/
  keeps : Keeps 2179264 s u
  /-- The lanes' states. -/
  st : ∀ m, (u.lane m).st = (s.lane m).st
  /-- The parameters in effect. -/
  eff : u.par.eff = s.par.eff
  /-- The neighbour followed. -/
  follow : u.ring.follow = s.ring.follow
  /-- The next SYNC's number. -/
  syncId : u.ring.syncId = s.ring.syncId

namespace State.RingHeard

variable {s t u : State}

theorem trans (h : RingHeard s t) (k : RingHeard t u) : RingHeard s u :=
  ⟨h.keeps.trans k.keeps, fun m => (k.st m).trans (h.st m), k.eff.trans h.eff, k.follow.trans h.follow, k.syncId.trans h.syncId⟩

theorem refl (s : State) : RingHeard s s := ⟨.refl _ s, fun _ => rfl, rfl, rfl, rfl⟩

theorem time (h : RingHeard s t) : t.time = s.time := h.keeps.time (by decide)

theorem twin (h : RingHeard s t) : t.twin = s.twin := h.keeps.twin (by decide)

theorem mono (h : RingHeard s t) : t.mono = s.mono := h.keeps.mono (by decide)

theorem box (h : RingHeard s t) (n : Nat) : t.box n = s.box n := h.keeps.box (by decide) n

theorem isMaster (h : RingHeard s t) : t.isMaster = s.isMaster := by
  rw [State.isMaster, State.isMaster, State.headId, State.headId, h.time, h.twin, pu_congr h.eff]

theorem ringHdr (h : RingHeard s t) (dst : Nat) : t.ringHdr dst = s.ringHdr dst := by
  rw [State.ringHdr, State.ringHdr, State.node, State.node, pu_congr h.eff, h.twin]

theorem ringEn (h : RingHeard s t) : t.ringEn = s.ringEn := by rw [State.ringEn, State.ringEn, p0_congr h.eff]

end State.RingHeard

theorem rxValid_ringHeard (s : State) {lane : Nat} (ring : lane < 130) (h : RxHeader) : State.RingHeard s (s.rxValid lane h) := by
  have kept := rxValid_ring (M := 82112) (h := h) (by decide) ring (.refl _ s)
  refine ⟨kept.weaken (by decide), fun m => ?_, (rxValid_spec s lane h).2.2.2.1, by rw [kept.ring (by decide)], by rw [kept.ring (by decide)]⟩
  by_cases own : m = lane
  · subst own
    have marked := rxValid_marked s m h
    rw [marked.1.lane (by decide), State.rxMarked, (rxStream_keeps (M := 2056) (by decide) _ _ _ (.refl _ _)).lane (by decide)]
    change ((s.rxCounted m h).lane m).st = _
    rw [State.lane, rxCounted_lanes]
    exact (congrArg Lane.st (lane_modLane s m _)).trans rfl
  · rw [(rxValid_spec s lane h).2.2.1 m own]

theorem bump_ringHeard (s : State) (id inst field : Nat) : State.RingHeard s (s.bump id inst field) :=
  ⟨bump_keeps (by decide) (.refl _ s), fun _ => rfl, rfl, rfl, rfl⟩

theorem heard_ringHeard (s : State) (n : Nat) : State.RingHeard s (s.heard n) :=
  ⟨heard_keeps (by decide) (.refl _ s), fun _ => rfl, rfl, rfl, rfl⟩

theorem holdEpoch_ringHeard (s : State) (n e : Nat) : State.RingHeard s (s.holdEpoch n e) := by
  refine iteInduction (motive := State.RingHeard s) (fun _ => .refl s) fun _ => ?_
  exact iteInduction (motive := State.RingHeard s) (fun _ => ⟨updRing_keeps (by decide) (.refl _ s), fun _ => rfl, rfl, rfl, rfl⟩) fun _ =>
    ⟨updRing_keeps (by decide) (.refl _ s), fun _ => rfl, rfl, rfl, rfl⟩

theorem ringForward_ringHeard (s : State) (lane ty : Nat) (p : BitVec 96) : State.RingHeard s (s.ringForward lane ty p) := by
  rw [State.ringForward]
  refine iteInduction (motive := State.RingHeard s) (fun _ => .refl s) fun _ => ?_
  refine iteInduction (motive := State.RingHeard s) (fun _ => bump_ringHeard ..) fun _ => ?_
  refine iteInduction (motive := State.RingHeard s) (fun _ => ?_) fun _ => .refl s
  exact ⟨bump_keeps (by decide) (queueBlock_keeps (by decide) (.refl _ s)), fun _ => rfl, rfl, rfl, rfl⟩

theorem ringStale_congr {s u : State} (ring : u.ring = s.ring) (p : BitVec 96) : u.ringStale p = s.ringStale p := by
  have held (n : Nat) : u.epochHeld n = s.epochHeld n := by
    rw [State.epochHeld, State.epochHeld, State.ofHead, State.ofHead, State.rnode, State.rnode, ring]
  rw [State.ringStale, State.ringStale, held]

theorem ringLane_lt (side : RingSide) : ringLane side < 130 := by cases side <;> decide

/-- A block of the ring that is for this node comes to its row. -/
theorem ringTakes_run {s : State} {side : RingSide} {p : BitVec 96} (takes : s.RingTakes side p) (h : RxHeader) (ty : Nat) (f : State → State) :
    ∃ u, s.RingHeard u ∧ s.onRx (ringLane side) (fun s => s.ringTake side h ty p f) = (f u).done := by
  have valid := rxValid_ringHeard s (ringLane_lt side) h
  have ring : ((s.rxValid (ringLane side) h).ringForward (ringLane side) ty p).ring = s.ring := by
    rw [(ringForward_keeps (M := 65600) (by decide) (.refl _ _)).ring (by decide),
      (rxValid_ring (M := 82112) (by decide) (ringLane_lt side) (.refl _ s)).ring (by decide)]
  have forwarded := valid.trans (ringForward_ringHeard (s.rxValid (ringLane side) h) (ringLane side) ty p)
  refine ⟨_, (forwarded.trans (heard_ringHeard _ (pbits p 95 91))).trans (holdEpoch_ringHeard _ (pbits p 95 91) (pbits p 79 64)), ?_⟩
  refine (if_pos takes.receives).trans (congrArg State.done ?_)
  exact (if_neg (by rw [ringStale_congr ring, takes.fresh]; decide)).trans (if_pos ⟨takes.source, takes.dest⟩)

end Sys2Proof.Machine
end

section
/-!
PROOFS. Where a unit takes its time from (O24): RING_TIME taken (R197, R198, R407).
-/

namespace Sys2Proof.Machine

open Host

/-! ### RING_TIME judged -/

/-- What of the time unit a valid time message of the ring does not touch. -/
def TimeUnit.noHops (t : TimeUnit) : TimeUnit := { t.rest with hops := 0 }

theorem State.Sourced.noHops {s t : State} (h : State.Sourced s t) : t.time.noHops = s.time.noHops := by
  rw [TimeUnit.noHops, TimeUnit.noHops, h.rest]

/-- The state in which a neighbour's message has been noted and the source chosen. -/
def State.nbrTaken (s : State) (lane hops : Nat) : State := (s.nbrNote lane hops).timeRefresh

/-- The message of the neighbour followed, kept for its exchange and taken as the source's where it is. -/
def State.nbrFollowed (s : State) (lane hops id : Nat) : State :=
  let s2 := s.updRing fun r => { r with awaited := r.awaited.set lane id }
  if s2.time.source = ringSource lane then (s2.updTime fun t => { t with hops }).sourceHeard else s2

theorem ringTimeValid_eq (s : State) (lane hops id : Nat) : s.ringTimeValid lane hops id =
    if (s.nbrTaken lane hops).isMaster then s.nbrTaken lane hops
    else if (s.nbrTaken lane hops).ring.follow ≠ ringSource lane then s.nbrTaken lane hops
    else if ((s.nbrTaken lane hops).nbrFollowed lane hops id).time.state = .holdover then (s.nbrTaken lane hops).nbrFollowed lane hops id
    else ((s.nbrTaken lane hops).nbrFollowed lane hops id).sendRingTime (otherRing lane) (hops + 1) := rfl

theorem nbrTaken_noHops (s : State) (lane hops : Nat) : (s.nbrTaken lane hops).time.noHops = (s.nbrNote lane hops).time.noHops :=
  (timeRefresh_sourced _).noHops

theorem nbrFollowed_noHops (s : State) (lane hops id : Nat) : (s.nbrFollowed lane hops id).time.noHops = s.time.noHops := by
  rw [State.nbrFollowed]
  split
  · exact (sourceHeard_sourced _).noHops
  · rfl

theorem ringTimeValid_noHops (s : State) (lane hops id : Nat) : (s.ringTimeValid lane hops id).time.noHops = (s.nbrNote lane hops).time.noHops := by
  rw [ringTimeValid_eq, ← nbrTaken_noHops]
  split
  · rfl
  split
  · rfl
  rw [← nbrFollowed_noHops (s.nbrTaken lane hops) lane hops id]
  split
  · rfl
  · rw [(sendRingTime_keeps' ..).time (by decide)]

theorem ringTimeValid_field {α : Type} {f : TimeUnit → α} (g : ∀ t : TimeUnit, f t.noHops = f t) (s : State) (lane hops id : Nat) :
    f (s.ringTimeValid lane hops id).time = f (s.nbrNote lane hops).time := by
  rw [← g, ringTimeValid_noHops, g]

/-- Whether a RING_TIME is of the current or a newer claim to the mastership and has not gone too far. -/
abbrev State.timeStale (s : State) (hops gen head : Nat) : Prop :=
  16 < hops ∨ sdiff 16 gen s.time.gen < 0 ∨ (sdiff 16 gen s.time.gen = 0 ∧ s.time.masterHead < head)

theorem ringTime_stale {s : State} {hops gen head : Nat} (stale : s.timeStale hops gen head) (lane id : Nat) :
    s.ringTime lane hops gen head id = s := by
  rw [State.ringTime]
  rcases stale with far | old | ⟨same, higher⟩
  · exact if_pos far
  · split
    · rfl
    · exact if_pos old
  · split
    · rfl
    dsimp only
    rw [if_neg (by rw [same]; decide), if_neg (by rw [same]; decide), if_neg (Nat.lt_asymm higher)]

/-- The state in which a RING_TIME is taken: a newer claim has been adopted. -/
def State.timeCame (s : State) (gen head : Nat) : State :=
  if 0 < sdiff 16 gen s.time.gen ∨ head < s.time.masterHead then s.timeClaim gen head else s

theorem ringTime_taken {s : State} {hops gen head : Nat} (fresh : ¬s.timeStale hops gen head) (lane id : Nat) :
    s.ringTime lane hops gen head id = (s.timeCame gen head).ringTimeValid lane hops id := by
  obtain ⟨near, new⟩ := not_or.1 fresh
  obtain ⟨new, own⟩ := not_or.1 new
  rw [State.ringTime, if_neg near, State.timeCame]
  dsimp only
  rw [if_neg new]
  by_cases newer : 0 < sdiff 16 gen s.time.gen
  · rw [if_pos newer, if_pos (.inl newer)]
  rw [if_neg newer]
  by_cases lower : head < s.time.masterHead
  · rw [if_pos lower, if_pos (.inr lower)]
  · rw [if_neg lower, if_neg (fun higher => own ⟨by omega, higher⟩), if_neg fun either => either.elim newer lower]

theorem nbrNote_gen (s : State) (lane hops : Nat) : (s.nbrNote lane hops).time.gen = s.time.gen ∧
    (s.nbrNote lane hops).time.masterHead = s.time.masterHead ∧ (s.nbrNote lane hops).time.tick = s.time.tick := by
  rw [State.nbrNote, updTime_time]
  split <;> exact ⟨rfl, rfl, rfl⟩

theorem nbrNote_side (s : State) (side : RingSide) (hops : Nat) :
    (if side = .e then (s.nbrNote (ringLane side) hops).time.east else (s.nbrNote (ringLane side) hops).time.west) =
      { hops := some hops, at_ := s.mono } := by
  cases side <;> rfl

theorem timeCame_time (s : State) (gen head : Nat) : (s.timeCame gen head).time.tick = s.time.tick ∧
    if 0 < sdiff 16 gen s.time.gen ∨ head < s.time.masterHead then (s.timeCame gen head).time.gen = gen ∧ (s.timeCame gen head).time.masterHead = head
    else (s.timeCame gen head).time.gen = s.time.gen ∧ (s.timeCame gen head).time.masterHead = s.time.masterHead := by
  have claim := timeClaim_sourced s gen head
  rw [State.timeCame]
  split
  · exact ⟨claim.tick, claim.field (f := TimeUnit.gen) fun _ => rfl, claim.field (f := TimeUnit.masterHead) fun _ => rfl⟩
  · exact ⟨rfl, rfl, rfl⟩

theorem timeCame_mono (s : State) (gen head : Nat) : (s.timeCame gen head).mono = s.mono := by
  rw [State.timeCame]
  split
  · exact (timeClaim_keeps (M := 2097792) (by decide) (.refl _ s)).mono (by decide)
  · rfl

/-! ### The neighbour followed (R197) -/

/-- A neighbour that has just been heard and is followed stays so. -/
theorem pickFollow_own {s : State} {side : RingSide} (follows : s.ring.follow = ringSource (ringLane side)) (hops : Nat) :
    (s.nbrNote (ringLane side) hops).pickFollow = ringSource (ringLane side) := by
  have fresh : (s.nbrNote (ringLane side) hops).nbrFresh { hops := some hops, at_ := s.mono } = true := by
    rw [State.nbrFresh, Bool.and_eq_true, decide_eq_true_eq]
    exact ⟨rfl, Nat.lt_add_of_pos_right (by decide)⟩
  have ring : (s.nbrNote (ringLane side) hops).ring.follow = ringSource (ringLane side) := follows
  rw [State.pickFollow]
  cases side with
  | e => exact if_pos ⟨ring, fresh⟩
  | w => exact (if_neg fun both => absurd (both.1.symm.trans ring) (by decide)).trans (if_pos ⟨ring, fresh⟩)

theorem isMaster_congr {s t : State} (head : t.time.masterHead = s.time.masterHead) (twin : t.twin = s.twin) (eff : t.par.eff = s.par.eff) :
    t.isMaster = s.isMaster := by
  rw [State.isMaster, State.isMaster, State.headId, State.headId, head, twin, pu_congr eff]

theorem restated_source (s : State) : s.restated.time.source = s.time.source := by
  have lost : s.masterLoss.time.source = s.time.source := by
    rw [State.masterLoss, (condOn_keeps (M := 8440) (by decide) (.refl _ _)).time (by decide)]
    rfl
  rw [State.restated]
  split
  · split <;> rfl
  split
  · split
    · rfl
    split
    · exact lost
    · rfl
  split <;> rfl

theorem pickSource_ring {s : State} (on : s.ringEn = true) (slave : s.isMaster = false)
    (role : s.twin.role = .active ∨ s.twin.role = .referee ∨ s.twin.role = .ringMember) : s.pickSource = s.ring.follow := by
  rw [State.pickSource, if_pos on]
  rcases role with role | role | role
  · rw [role]
    exact if_neg (by rw [slave]; decide)
  · rw [role]
  · rw [role]

theorem ringTimeValid_follows {s : State} {side : RingSide} (follows : s.ring.follow = ringSource (ringLane side)) (slave : s.isMaster = false)
    (on : s.ringEn = true) (role : s.twin.role = .active ∨ s.twin.role = .referee ∨ s.twin.role = .ringMember) (hops id : Nat) :
    let e := s.ringTimeValid (ringLane side) hops id
    e.ring.awaited.get? (ringLane side) = some id ∧ e.time.lastMsg = s.mono ∧ e.time.hops = hops ∧
      ((s.lane (otherRing (ringLane side))).st = .linked → (e.lnk (otherRing (ringLane side))).queue =
        (s.lnk (otherRing (ringLane side))).queue ++ s.timeBlocks (hops + 1) s.ring.syncId) := by
  have note : Keeps 512 s (s.nbrNote (ringLane side) hops) := nbrNote_keeps (by decide) (.refl _ s)
  have sourced := timeRefresh_sourced (s.nbrNote (ringLane side) hops)
  have kept := (note.weaken (N := 2106104) (by decide)).trans sourced.keeps
  have gen := nbrNote_gen s (ringLane side) hops
  have taken : (s.nbrTaken (ringLane side) hops).ring = { s.ring with follow := ringSource (ringLane side) } := by
    rw [State.nbrTaken, timeRefresh_follow, pickFollow_own follows, note.ring (by decide)]
  have eff : (s.nbrTaken (ringLane side) hops).par.eff = s.par.eff := sourced.eff
  have gen' : (s.nbrTaken (ringLane side) hops).time.gen = s.time.gen := (sourced.field (f := TimeUnit.gen) fun _ => rfl).trans gen.1
  have head' : (s.nbrTaken (ringLane side) hops).time.masterHead = s.time.masterHead :=
    (sourced.field (f := TimeUnit.masterHead) fun _ => rfl).trans gen.2.1
  have twin : (s.nbrTaken (ringLane side) hops).twin = s.twin := kept.twin (by decide)
  have slave' : (s.nbrTaken (ringLane side) hops).isMaster = false := (isMaster_congr head' twin eff).trans slave
  have source : (s.nbrTaken (ringLane side) hops).time.source = ringSource (ringLane side) := by
    rw [State.nbrTaken, timeRefresh_eq, restated_source]
    have slave : (s.nbrNote (ringLane side) hops).isMaster = false :=
      (isMaster_congr gen.2.1 (note.twin (by decide)) (by rw [note.par (by decide)])).trans slave
    exact (pickSource_ring (s := (s.nbrNote (ringLane side) hops).updRing fun r => { r with follow := (s.nbrNote (ringLane side) hops).pickFollow }) on slave
      role).trans (pickFollow_own follows hops)
  have mono : (s.nbrTaken (ringLane side) hops).mono = s.mono := kept.mono (by decide)
  have lanes : (s.nbrTaken (ringLane side) hops).lanes = s.lanes := kept.lanes (by decide)
  have links : (s.nbrTaken (ringLane side) hops).links = s.links := kept.links (by decide)
  rw [ringTimeValid_eq]
  dsimp only
  generalize s.nbrTaken (ringLane side) hops = u at *
  have followed : u.nbrFollowed (ringLane side) hops id = ((u.updRing fun r => { r with awaited := r.awaited.set (ringLane side) id }).updTime
    fun t => { t with hops }).sourceHeard := if_pos source
  have last := sourceHeard_lastMsg ((u.updRing fun r => { r with awaited := r.awaited.set (ringLane side) id }).updTime fun t => { t with hops })
  have alive := sourceHeard_state_ne ((u.updRing fun r => { r with awaited := r.awaited.set (ringLane side) id }).updTime fun t => { t with hops })
  have heard := sourceHeard_sourced ((u.updRing fun r => { r with awaited := r.awaited.set (ringLane side) id }).updTime fun t => { t with hops })
  have part := sourceHeard_keeps' ((u.updRing fun r => { r with awaited := r.awaited.set (ringLane side) id }).updTime fun t => { t with hops })
  rw [← followed] at last alive heard part
  rw [if_neg (by rw [slave']; decide), if_neg (by rw [taken]; exact not_not.2 rfl), if_neg alive]
  generalize u.nbrFollowed (ringLane side) hops id = w at *
  have sent := sendRingTime_keeps' w (otherRing (ringLane side)) (hops + 1)
  have awaited : (w.sendRingTime (otherRing (ringLane side)) (hops + 1)).ring.awaited = w.ring.awaited := by
    rw [State.sendRingTime]
    split <;> rfl
  refine ⟨?_, ?_, ?_, fun linked => ?_⟩
  · rw [awaited, part.ring (by decide)]
    exact Tab.get?_set ..
  · rw [sent.time (by decide), last]
    exact mono
  · rw [sent.time (by decide)]
    exact heard.field (f := TimeUnit.hops) fun _ => rfl
  · have low : otherRing (ringLane side) < 131 := by cases side <;> decide
    rw [sendRingTime_queue w low, if_pos, part.lnk (by decide), part.ring (by decide)]
    · rw [timeBlocks_congr (s := s) ((heard.field (f := TimeUnit.gen) fun _ => rfl).trans gen') ((heard.field (f := TimeUnit.masterHead) fun _ => rfl).trans head')
        (heard.eff.trans eff) (by rw [part.twin (by decide)]; exact congrArg Twin.epoch twin)]
      change (u.lnk _).queue ++ s.timeBlocks _ u.ring.syncId = _
      rw [taken, State.lnk, links, State.lnk]
    · rw [part.lane (by decide)]
      change (u.lane _).st = _
      rw [State.lane, lanes, ← State.lane]
      exact linked

end Sys2Proof.Machine
end

section
/-!
PROOFS. Where a unit takes its time from (O24): the ring's rows, the mastership, and the settling of the statement.
-/

namespace Sys2Proof.Machine

open Host

/-! ### RING_TIME (R196 to R198) -/

theorem timeStale_congr {s u : State} (time : u.time = s.time) (hops gen head : Nat) : u.timeStale hops gen head ↔ s.timeStale hops gen head := by
  rw [State.timeStale, State.timeStale, time]

theorem ringTimeRx_lands {s : State} {side : RingSide} {h : RxHeader} {p : BitVec 96} (receives : (s.lane (ringLane side)).st.receives = true) :
    Lands (exec (.ringTimeRx side h p) s) fun e => e.time.tick = s.time.tick ∧
      Only [.todo, .hatch, .notif, .par, .faults, .time, .twin, .pantry, .lanes, .links, .ring] s e ∧
      let gen := p.toNat / 2 ^ 48 % 2 ^ 16
      let head := p.toNat / 2 ^ 45 % 2 ^ 3
      let hops := p.toNat / 2 ^ 81 % 2 ^ 5
      if s.ringStale p = true ∨ s.timeStale hops gen head then
        e.time = s.time ∧ (e.lnk 128).queue = (s.lnk 128).queue ∧ (e.lnk 129).queue = (s.lnk 129).queue
      else
        (if 0 < sdiff 16 gen s.time.gen ∨ head < s.time.masterHead then e.time.gen = gen ∧ e.time.masterHead = head
          else e.time.gen = s.time.gen ∧ e.time.masterHead = s.time.masterHead) ∧
        (if side = .e then e.time.east else e.time.west) = { hops := some hops, at_ := s.mono } ∧
        (sdiff 16 gen s.time.gen = 0 → head = s.time.masterHead → s.ring.follow = ringSource (ringLane side) → s.isMaster = false → s.ringEn = true →
          (s.twin.role = .active ∨ s.twin.role = .referee ∨ s.twin.role = .ringMember) →
          e.ring.awaited.get? (ringLane side) = some (p.toNat / 2 ^ 37 % 2 ^ 8) ∧ e.time.lastMsg = s.mono ∧
          e.time.hops = hops ∧ ((s.lane (otherRing (ringLane side))).st = .linked →
            (e.lnk (otherRing (ringLane side))).queue = (s.lnk (otherRing (ringLane side))).queue ++ s.timeBlocks (hops + 1) s.ring.syncId)) := by
  have valid := rxValid_ringHeard s (ringLane_lt side) h
  have ring : (s.rxValid (ringLane side) h).ring = s.ring := (rxValid_ring (M := 82112) (by decide) (ringLane_lt side) (.refl _ s)).ring (by decide)
  have stale : (s.rxValid (ringLane side) h).ringStale p = s.ringStale p := ringStale_congr ring p
  have queue := rxValid_queue s (ringLane side) h
  have run : exec (.ringTimeRx side h p) s = (if (s.rxValid (ringLane side) h).ringStale p then (s.rxValid (ringLane side) h).bump 0x0E05 noInst 1
      else (((s.rxValid (ringLane side) h).heard (pbits p 95 91)).holdEpoch (pbits p 95 91) (pbits p 79 64)).ringTime (ringLane side)
        (p.toNat / 2 ^ 81 % 2 ^ 5) (p.toNat / 2 ^ 48 % 2 ^ 16) (p.toNat / 2 ^ 45 % 2 ^ 3) (p.toNat / 2 ^ 37 % 2 ^ 8)).done := if_pos receives
  generalize p.toNat / 2 ^ 81 % 2 ^ 5 = hops, p.toNat / 2 ^ 48 % 2 ^ 16 = gen, p.toNat / 2 ^ 45 % 2 ^ 3 = head, p.toNat / 2 ^ 37 % 2 ^ 8 = id at *
  rw [stale] at run
  generalize s.rxValid (ringLane side) h = v at *
  cases old : s.ringStale p with
  | true =>
    rw [if_pos old] at run
    refine ⟨_, run, congrArg TimeUnit.tick valid.time, ?_, ?_⟩
    · exact only_of (bump_keeps (by decide) (valid.keeps.weaken (by decide)))
    · rw [if_pos (.inl rfl)]
      exact ⟨valid.time, queue 128, queue 129⟩
  | false =>
    rw [if_neg (by rw [old]; decide)] at run
    have heard := (valid.trans (heard_ringHeard v (pbits p 95 91))).trans (holdEpoch_ringHeard _ (pbits p 95 91) (pbits p 79 64))
    have queue' (m : Nat) : ((((v.heard (pbits p 95 91)).holdEpoch (pbits p 95 91) (pbits p 79 64))).lnk m).queue = (s.lnk m).queue := by
      rw [(holdEpoch_keeps (M := 2097152) (by decide) (heard_keeps (by decide) (.refl _ v))).lnk (by decide), queue]
    generalize (v.heard (pbits p 95 91)).holdEpoch (pbits p 95 91) (pbits p 79 64) = u at *
    have part := ringTime_keeps (M := 2190072) (a1 := ringLane side) (a2 := hops) (a3 := gen) (a4 := head) (a5 := id) (by decide) (heard.keeps.weaken (by decide))
    by_cases refuse : s.timeStale hops gen head
    · rw [ringTime_stale ((timeStale_congr heard.time ..).2 refuse)] at run part
      refine ⟨_, run, congrArg TimeUnit.tick heard.time, only_of part, ?_⟩
      rw [if_pos (.inr refuse)]
      exact ⟨heard.time, queue' 128, queue' 129⟩
    · rw [ringTime_taken (mt (timeStale_congr heard.time ..).1 refuse)] at run part
      obtain ⟨tick, claimed⟩ := timeCame_time u gen head
      have field := fun {α : Type} {f : TimeUnit → α} (g : ∀ t : TimeUnit, f t.noHops = f t) =>
        ringTimeValid_field g (u.timeCame gen head) (ringLane side) hops id
      obtain ⟨gen', head', tick'⟩ := nbrNote_gen (u.timeCame gen head) (ringLane side) hops
      refine ⟨_, run, ?_, only_of part, ?_⟩
      · exact (field (f := TimeUnit.tick) fun _ => rfl).trans (tick'.trans (tick.trans (by rw [heard.time])))
      rw [if_neg (by rintro (bad | bad); exacts [absurd bad (by decide), refuse bad])]
      refine ⟨?_, ?_, fun same own follows slave on role => ?_⟩
      · rw [heard.time] at claimed
        rw [field (f := TimeUnit.gen) fun _ => rfl, field (f := TimeUnit.masterHead) fun _ => rfl, gen', head']
        exact claimed
      · rw [field (f := TimeUnit.east) fun _ => rfl, field (f := TimeUnit.west) fun _ => rfl, nbrNote_side, timeCame_mono, heard.mono]
      · have came : u.timeCame gen head = u := if_neg (by
          rw [heard.time, same, own]
          exact fun bad => bad.elim (fun bad => absurd bad (by decide)) (Nat.lt_irrefl _))
        rw [came]
        obtain ⟨awaited, last, hops', sent⟩ := ringTimeValid_follows (heard.follow.trans follows) (heard.isMaster.trans slave) (heard.ringEn.trans on)
          (by rw [heard.twin]; exact role) hops id
        refine ⟨awaited, last.trans heard.mono, hops', fun linked => ?_⟩
        rw [sent ((heard.st _).trans linked), queue', heard.syncId, timeBlocks_congr (s := s) (by rw [heard.time]) (by rw [heard.time]) heard.eff
          (by rw [heard.twin])]

/-! ### A claim to the mastership (R227) -/

/-- A claim's acknowledgement, last in the queue of each ring lane that is LINKED. -/
def State.Acked (s e : State) (gen head claimant : Nat) : Prop :=
  s.ringEn = true → ∀ lane ∈ [128, 129], (s.lane lane).st = .linked → (e.lnk lane).queue.getLast? =
    some { type := 0x44, payload := s.ringHdr claimant + (2 * 2 ^ 60 + gen * 2 ^ 44 + head * 2 ^ 41 + claimant * 2 ^ 36) }

theorem masterSend_acked (s : State) (gen head claimant : Nat) : s.Acked (s.masterSend 2 claimant gen head claimant) gen head claimant :=
  fun on lane ring linked => by
    rw [State.masterSend, ringSend_queue _ _ _ _ ring, if_pos ⟨on, linked⟩, List.getLast?_append, List.getLast?_singleton, Option.some_or]
    rfl

theorem State.Acked.from {s u e : State} {gen head claimant : Nat} (h : u.Acked e gen head claimant) (eff : u.par.eff = s.par.eff)
    (epoch : u.twin.epoch = s.twin.epoch) (st : ∀ m, (u.lane m).st = (s.lane m).st) : s.Acked e gen head claimant := fun on lane ring linked => by
  rw [h (by rw [State.ringEn, p0_congr eff]; exact on) lane ring ((st lane).trans linked), State.ringHdr, State.node, pu_congr eff, epoch]
  rfl

/-- What a claim taken leaves. -/
structure State.Adopts (s t : State) (gen head : Nat) : Prop where
  /-- The parts. -/
  keeps : Keeps 2106104 s t
  /-- The generation. -/
  gen : t.time.gen = gen
  /-- The head. -/
  head : t.time.masterHead = head
  /-- This unit's claim. -/
  claim : t.time.claim = s.time.claim
  /-- Tick time. -/
  tick : t.time.tick = s.time.tick
  /-- The mailboxes. -/
  box : ∀ n, t.box n = s.box n
  /-- The parameters in effect. -/
  eff : t.par.eff = s.par.eff

theorem timeAdopt_adopts (s : State) (gen head : Nat) : State.Adopts s (s.timeAdopt gen head) gen head := by
  have sourced := timeAdopt_sourced s gen head
  exact ⟨(claimed_keeps (M := 2106104) (by decide) gen head (.refl _ s)).trans sourced.keeps, (sourced.field (f := TimeUnit.gen) fun _ => rfl).trans rfl,
    (sourced.field (f := TimeUnit.masterHead) fun _ => rfl).trans rfl, (sourced.field (f := TimeUnit.claim) fun _ => rfl).trans rfl,
    sourced.tick.trans rfl, fun n => (sourced.box n).trans rfl, sourced.eff.trans rfl⟩

theorem masterSend_time (s : State) (kind dst gen head claimant : Nat) : (s.masterSend kind dst gen head claimant).time = s.time :=
  (masterSend_keeps (M := 65536) (by decide) (.refl _ s)).time (by decide)

theorem masterClaimed_free {s : State} (free : s.time.claim = none) (gen head claimant : Nat) : let e := s.masterClaimed gen head claimant
    e.time.tick = s.time.tick ∧
    (if 0 < sdiff 16 gen s.time.gen ∨ (sdiff 16 gen s.time.gen = 0 ∧ head < s.time.masterHead) then e.time.gen = gen ∧ e.time.masterHead = head
      else e.time.gen = s.time.gen ∧ e.time.masterHead = s.time.masterHead) ∧
    (s.twin.role = .active → 0 ≤ sdiff 16 gen s.time.gen → s.Acked e gen head claimant) := by
  have adopts := timeAdopt_adopts s gen head
  rw [State.masterClaimed, free]
  dsimp only
  obtain ⟨u, hu⟩ : ∃ u, (if 0 < sdiff 16 gen s.time.gen ∨ (sdiff 16 gen s.time.gen = 0 ∧ head < s.time.masterHead) then s.timeAdopt gen head else s) = u :=
    ⟨_, rfl⟩
  have time : u.time.tick = s.time.tick ∧ if 0 < sdiff 16 gen s.time.gen ∨ (sdiff 16 gen s.time.gen = 0 ∧ head < s.time.masterHead) then
      u.time.gen = gen ∧ u.time.masterHead = head else u.time.gen = s.time.gen ∧ u.time.masterHead = s.time.masterHead := by
    rw [← hu]
    split
    · exact ⟨adopts.tick, adopts.gen, adopts.head⟩
    · exact ⟨rfl, rfl, rfl⟩
  have kept : Keeps 2106104 s u ∧ u.par.eff = s.par.eff := by
    rw [← hu]
    split
    · exact ⟨adopts.keeps, adopts.eff⟩
    · exact ⟨.refl _ s, rfl⟩
  rw [hu]
  obtain ⟨kept, eff⟩ := kept
  by_cases answers : s.twin.role = .active ∧ 0 ≤ sdiff 16 gen s.time.gen
  · rw [if_pos answers, masterSend_time]
    exact ⟨time.1, time.2, fun _ _ => (masterSend_acked u gen head claimant).from eff (by rw [kept.twin (by decide)]) fun m => by
      rw [kept.lane (by decide)]⟩
  · rw [if_neg answers]
    exact ⟨time.1, time.2, fun role new => absurd ⟨role, new⟩ answers⟩

theorem masterClaimed_own {s : State} {c : MasterClaim} (claim : s.time.claim = some c) {gen : Nat} (same : c.gen = gen) (head claimant : Nat) :
    let e := s.masterClaimed gen head claimant
    (c.head < head → e.time.claim = some c ∧ e.time.gen = s.time.gen) ∧
    (head < c.head → e.time.claim = none ∧ e.time.gen = gen ∧ e.time.masterHead = head ∧ s.Acked e gen head claimant ∧
      ∀ n ∈ c.mbs, ∀ q, (s.box n).taken = some q → (e.box n).state = .done ∧
        (e.box n).reply = replyBytes stRefused q.seq s.twin.epoch [0x38, 0, 0xFF, 0xFF]) := by
  rw [State.masterClaimed, claim]
  dsimp only
  refine ⟨fun higher => ?_, fun lower => ?_⟩
  · rw [if_pos ⟨same, higher⟩]
    exact ⟨claim, rfl⟩
  · rw [if_neg fun both => Nat.lt_asymm lower both.2, if_pos ⟨same, lower⟩]
    obtain ⟨kept, time, -, answers⟩ := masterDrop_spec s c (status := stRefused) (by decide) 0x38
    generalize s.masterDrop c stRefused 0x38 = u at *
    have adopts := timeAdopt_adopts u gen head
    generalize u.timeAdopt gen head = v at *
    rw [masterSend_time]
    have both := (kept.weaken (N := 2106104) (by decide)).trans adopts.keeps
    refine ⟨adopts.claim.trans (by rw [time]), adopts.gen, adopts.head, ?_, fun n mem q taken => ?_⟩
    · exact (masterSend_acked v gen head claimant).from (adopts.eff.trans (by rw [kept.par (by decide)])) (by rw [both.twin (by decide)]) fun m => by
        rw [both.lane (by decide)]
    · rw [masterSend_box, adopts.box, answers n mem q taken]
      exact ⟨rfl, rfl⟩

theorem masterClaimed_tick (s : State) (gen head claimant : Nat) : (s.masterClaimed gen head claimant).time.tick = s.time.tick := by
  cases claim : s.time.claim with
  | none => exact (masterClaimed_free claim gen head claimant).1
  | some c =>
    rw [State.masterClaimed, claim]
    dsimp only
    split
    · rfl
    split
    · rw [masterSend_time, (timeAdopt_adopts _ gen head).tick, (masterDrop_spec s c (by decide) 0x38).2.1]
    · rw [masterSend_time]

/-! ### The point of commitment (R227) -/

theorem claimLate_spec (s : State) (c : MasterClaim) :
    (0 < sdiff 16 s.time.gen c.gen ∧ s.claimLate c = some 0x39) ∨
    (sdiff 16 s.time.gen c.gen = 0 ∧ s.time.masterHead < c.head ∧ s.claimLate c = some 0x38) ∨
    ((sdiff 16 s.time.gen c.gen < 0 ∨ (sdiff 16 s.time.gen c.gen = 0 ∧ c.head ≤ s.time.masterHead)) ∧ s.claimLate c = none) := by
  rw [State.claimLate]
  by_cases newer : 0 < sdiff 16 s.time.gen c.gen
  · exact .inl ⟨newer, if_pos newer⟩
  rw [if_neg newer]
  by_cases lower : sdiff 16 s.time.gen c.gen = 0 ∧ s.time.masterHead < c.head
  · exact .inr (.inl ⟨lower.1, lower.2, if_pos lower⟩)
  · refine .inr (.inr ⟨?_, if_neg lower⟩)
    omega

/-- A claim dropped at its point of commitment. -/
theorem masterCommit_late {s : State} {c : MasterClaim} {reason : Nat} (claim : s.time.claim = some c) (late : s.claimLate c = some reason) :
    s.masterCommit.time = { s.time with claim := none } ∧ ∀ n ∈ c.mbs, ∀ q, (s.box n).taken = some q →
      s.masterCommit.box n = (s.box n).replied q stRefused s.twin.epoch (reasonPayload reason 0xFFFF) := by
  rw [masterCommit_of_late claim late]
  obtain ⟨-, time, -, answers⟩ := masterDrop_spec s c (status := stRefused) (by decide) reason
  exact ⟨time, answers⟩

theorem masterCommit_commits {s : State} {c : MasterClaim} (claim : s.time.claim = some c) : s.CommitsMaster s.masterCommit c := by
  rcases claimLate_spec s c with ⟨newer, late⟩ | ⟨same, lower, late⟩ | ⟨timely, none_⟩
  · obtain ⟨time, answers⟩ := masterCommit_late claim late
    refine ⟨by rw [time], by rw [time], fun timely => absurd timely (by omega), fun _ => by rw [time]; exact ⟨rfl, rfl⟩, fun n mem q taken => ?_⟩
    rw [answers n mem q taken, if_pos newer]
    exact ⟨rfl, rfl, rfl⟩
  · obtain ⟨time, answers⟩ := masterCommit_late claim late
    refine ⟨by rw [time], by rw [time], fun timely => absurd timely (by omega), fun _ => by rw [time]; exact ⟨rfl, rfl⟩, fun n mem q taken => ?_⟩
    rw [answers n mem q taken, if_neg (by omega), if_pos ⟨same, lower⟩]
    exact ⟨rfl, rfl, rfl⟩
  · rw [masterCommit_of_timely claim none_]
    have adopts := timeAdopt_adopts (s.updTime fun t => { t with claim := none }) c.gen c.head
    generalize (s.updTime fun t => { t with claim := none }).timeAdopt c.gen c.head = u at *
    have replied := replyAll_hatch (M := 16) (by decide) c.mbs (status := stOk) (by decide) (leBytes 2 c.gen) (.refl _ u)
    have time := replied.time (by decide)
    refine ⟨by rw [time, adopts.claim]; rfl, by rw [time, adopts.tick]; rfl, fun _ => by rw [time]; exact ⟨adopts.gen, adopts.head⟩,
      fun late => absurd late (by omega), fun n mem q taken => ?_⟩
    rw [replyAll_box mem (q := q) (by rw [adopts.box]; exact taken), if_neg (by omega), if_neg (by omega), adopts.box, adopts.keeps.twin (by decide)]
    exact ⟨rfl, rfl, rfl⟩

theorem State.CommitsMaster.from {s u e : State} {c d : MasterClaim} (h : u.CommitsMaster e d) (gen : d.gen = c.gen) (head : d.head = c.head)
    (mbs : d.mbs = c.mbs) (time : u.time.gen = s.time.gen ∧ u.time.masterHead = s.time.masterHead ∧ u.time.tick = s.time.tick)
    (box : ∀ n, u.box n = s.box n) (epoch : u.twin.epoch = s.twin.epoch) : s.CommitsMaster e c := by
  obtain ⟨claim, tick, taken, left, answers⟩ := h
  obtain ⟨gen', head', tick'⟩ := time
  rw [tick'] at tick
  rw [gen', head', gen, head] at taken left
  refine ⟨claim, tick, taken, left, fun n mem q has => ?_⟩
  have told := answers n (by rw [mbs]; exact mem) q (by rw [box]; exact has)
  rw [gen', head', gen, head, epoch] at told
  exact told

theorem ringMasterRx_run {s : State} {side : RingSide} {p : BitVec 96} (takes : s.RingTakes side p) (h : RxHeader) : ∃ u, s.RingHeard u ∧
    exec (.ringMasterRx side h p) s = (if pbits p 63 60 = 1 then u.masterClaimed (pbits p 59 44) (pbits p 43 41) (pbits p 40 36)
      else if pbits p 63 60 = 2 then u.masterAcked (pbits p 59 44) (pbits p 43 41) (pbits p 95 91) (pbits p 40 36) else u).done :=
  ringTakes_run takes h 0x44 fun u => if pbits p 63 60 = 1 then u.masterClaimed (pbits p 59 44) (pbits p 43 41) (pbits p 40 36)
    else if pbits p 63 60 = 2 then u.masterAcked (pbits p 59 44) (pbits p 43 41) (pbits p 95 91) (pbits p 40 36) else u

theorem ringMasterRx_claim {s : State} {side : RingSide} {h : RxHeader} {p : BitVec 96} (takes : s.RingTakes side p)
    (kind : p.toNat / 2 ^ 60 % 2 ^ 4 = 1) : Lands (exec (.ringMasterRx side h p) s) fun e =>
      let gen := p.toNat / 2 ^ 44 % 2 ^ 16
      let head := p.toNat / 2 ^ 41 % 2 ^ 3
      let claimant := p.toNat / 2 ^ 36 % 2 ^ 5
      let d := sdiff 16 gen s.time.gen
      e.time.tick = s.time.tick ∧
      (s.time.claim = none → (if 0 < d ∨ (d = 0 ∧ head < s.time.masterHead) then e.time.gen = gen ∧ e.time.masterHead = head
          else e.time.gen = s.time.gen ∧ e.time.masterHead = s.time.masterHead) ∧
        (s.twin.role = .active → 0 ≤ d → s.Acked e gen head claimant)) ∧
      (∀ c, s.time.claim = some c → c.gen = gen →
        (c.head < head → e.time.claim = some c ∧ e.time.gen = s.time.gen) ∧
        (head < c.head → e.time.claim = none ∧ e.time.gen = gen ∧ e.time.masterHead = head ∧ s.Acked e gen head claimant ∧
          ∀ n ∈ c.mbs, ∀ q, (s.box n).taken = some q → (e.box n).state = .done ∧
            (e.box n).reply = replyBytes stRefused q.seq s.twin.epoch [0x38, 0, 0xFF, 0xFF])) := by
  obtain ⟨u, heard, run⟩ := ringMasterRx_run takes h
  rw [if_pos (show pbits p 63 60 = 1 from kind)] at run
  change exec _ s = (u.masterClaimed (p.toNat / 2 ^ 44 % 2 ^ 16) (p.toNat / 2 ^ 41 % 2 ^ 3) (p.toNat / 2 ^ 36 % 2 ^ 5)).done at run
  dsimp only
  generalize p.toNat / 2 ^ 44 % 2 ^ 16 = gen, p.toNat / 2 ^ 41 % 2 ^ 3 = head, p.toNat / 2 ^ 36 % 2 ^ 5 = claimant at *
  have acked {e : State} (h : u.Acked e gen head claimant) : s.Acked e gen head claimant := h.from heard.eff (by rw [heard.twin]) heard.st
  refine ⟨_, run, (masterClaimed_tick ..).trans (by rw [heard.time]), fun free => ?_, fun c claim same => ?_⟩
  · obtain ⟨-, taken, answers⟩ := masterClaimed_free (s := u) (by rw [heard.time]; exact free) gen head claimant
    rw [heard.time] at taken answers
    exact ⟨taken, fun role new => acked (answers (by rw [heard.twin]; exact role) new)⟩
  · obtain ⟨higher, lower⟩ := masterClaimed_own (s := u) (by rw [heard.time]; exact claim) same head claimant
    rw [heard.time] at higher
    refine ⟨higher, fun less => ?_⟩
    obtain ⟨none_, gen', head', answers, told⟩ := lower less
    refine ⟨none_, gen', head', acked answers, fun n mem q taken => ?_⟩
    rw [← heard.twin]
    exact told n mem q (by rw [heard.box]; exact taken)

theorem ringMasterRx_ack {s : State} {side : RingSide} {h : RxHeader} {p : BitVec 96} {c : MasterClaim} (takes : s.RingTakes side p)
    (kind : p.toNat / 2 ^ 60 % 2 ^ 4 = 2) (claim : s.time.claim = some c) (gen : c.gen = p.toNat / 2 ^ 44 % 2 ^ 16)
    (head : c.head = p.toNat / 2 ^ 41 % 2 ^ 3) (own : p.toNat / 2 ^ 36 % 2 ^ 5 = s.node) : Lands (exec (.ringMasterRx side h p) s) fun e =>
      let left := c.waitFor.filter (· != p.toNat / 2 ^ 91 % 2 ^ 5 / 2)
      if left ≠ [] then e.time = { s.time with claim := some { c with waitFor := left } } else s.CommitsMaster e c := by
  obtain ⟨u, heard, run⟩ := ringMasterRx_run takes h
  rw [if_neg (by rw [show pbits p 63 60 = 2 from kind]; decide), if_pos (show pbits p 63 60 = 2 from kind)] at run
  change exec _ s = (u.masterAcked (p.toNat / 2 ^ 44 % 2 ^ 16) (p.toNat / 2 ^ 41 % 2 ^ 3) (p.toNat / 2 ^ 91 % 2 ^ 5) (p.toNat / 2 ^ 36 % 2 ^ 5)).done at run
  have node : u.node = s.node := by rw [State.node, State.node, pu_congr heard.eff]
  rw [State.masterAcked, heard.time, claim] at run
  dsimp only at run ⊢
  rw [if_pos ⟨gen, head, own.trans node.symm⟩] at run
  generalize c.waitFor.filter (· != p.toNat / 2 ^ 91 % 2 ^ 5 / 2) = left at *
  have time : (u.updTime fun t => { t with claim := some { c with waitFor := left } }).time = { s.time with claim := some { c with waitFor := left } } := by
    rw [updTime_time, heard.time]
  have box (n : Nat) : (u.updTime fun t => { t with claim := some { c with waitFor := left } }).box n = s.box n := heard.box n
  have twin : (u.updTime fun t => { t with claim := some { c with waitFor := left } }).twin = s.twin := heard.twin
  generalize (u.updTime fun t => { t with claim := some { c with waitFor := left } }) = v at *
  refine lands_ite (fun some_ => ⟨v, run.trans (congrArg State.done (if_neg (by rw [List.isEmpty_iff]; exact some_))), time⟩) fun none_ => ?_
  refine ⟨_, run.trans (congrArg State.done (if_pos (by rw [List.isEmpty_iff]; exact not_not.1 none_))), ?_⟩
  exact (masterCommit_commits (c := { c with waitFor := left }) (by rw [time])).from rfl rfl rfl (by rw [time]; exact ⟨rfl, rfl, rfl⟩) box (by rw [twin])

theorem timeMasterSetTimeout_lands {s : State} {c : MasterClaim} (claim : s.time.claim = some c) (late : c.at_ + 1600000 ≤ s.mono) :
    Lands (exec .timeMasterSetTimeout s) fun e => s.CommitsMaster e c ∧
      Only [.todo, .hatch, .notif, .par, .faults, .time, .pantry, .ring] s e := by
  have run : exec .timeMasterSetTimeout s = s.masterCommit.done := by
    change execTimeMasterSetTimeout s = _
    rw [execTimeMasterSetTimeout, claim]
    exact if_pos (elapsed_of_le late)
  exact ⟨_, run, masterCommit_commits claim, only_of (masterCommit_keeps (by decide) (.refl _ s))⟩

theorem offsetLarge_nat (s : State) (c : Int) : s.offsetLarge c = decide (16 * s.p0 0x0605 < c.natAbs) := by
  rw [State.offsetLarge, decide_eq_decide]
  omega

/-- Settles O24: the exchanges, the ring's time messages, the losses and the mastership, row by row. -/
theorem timeSources : Obligations.TimeSources := by
  unfold Obligations.TimeSources
  intro s h p
  refine ⟨fun port takes code => syncRx_lands takes code, fun port x takes code waits id_ => (delayRespRx_lands takes code waits id_).mono fun e told =>
      ⟨told.1, told.2.1, ite_imp .rfl (fun _ taken => ?_) (fun _ => id) told.2.2⟩, fun on master due => ringTimeSend_lands on master due, fun side receives => ringTimeRx_lands receives,
    fun side follows silent => timeNeighbourTimeout_lands follows silent, fun state silent => masterLossExpire_lands state silent,
    fun side takes kind => ringMasterRx_claim takes kind, fun side c takes kind claim gen head own => ringMasterRx_ack takes kind claim gen head own,
    fun c claim late => timeMasterSetTimeout_lands claim late⟩
  obtain ⟨offset, last, low, high, step, slew⟩ := taken
  rw [offsetLarge_nat] at step slew
  exact ⟨offset, last, low, high, step, slew⟩

end Sys2Proof.Machine
end

section
/-!
PROOFS. The blocks of the ring (O40): what the reception leaves, and the census, the summaries and the health reports.
-/

namespace Sys2Proof.Machine

open Host

/-! ### The reception of a block (R405, R408, R409) -/

/-- What the reception of a block of the ring leaves to its row of the ring's own state. -/
structure State.RingCame (s u : State) (src epoch : Nat) : Prop where
  /-- The reception. -/
  heard : s.RingHeard u
  /-- This unit's nonce. -/
  nonce : u.ring.nonce = s.ring.nonce
  /-- The summaries. -/
  summary : u.ring.summary = s.ring.summary
  /-- The referee's blocks seen. -/
  refSeen : u.ring.refSeen = s.ring.refSeen
  /-- The writes applied. -/
  applied : u.ring.applied = (s.holdEpoch src epoch).ring.applied
  /-- The counts of firings. -/
  firings : u.faults.firings = s.faults.firings
  /-- The node that sent it. -/
  own : u.rnode src = { s.rnode src with heardAt := some s.mono }
  /-- The other nodes. -/
  other : ∀ n, n ≠ src → u.rnode n = s.rnode n

/-- Whether an epoch of a node is newer than the one held. -/
def State.epochNewer (s : State) (n e : Nat) : Bool :=
  match s.epochHeld n with
  | some h => decide (0 < sdiff 16 e h)
  | none => true

theorem holdEpoch_eq (s : State) (n e : Nat) : s.holdEpoch n e =
    if s.epochNewer n e = false then s
    else if s.ofHead n then s.updRing fun r => { r with headEpoch := r.headEpoch.set (n / 2) e, applied := r.applied.erase (n / 2) }
    else s.updRing fun r => { r with nodeEpoch := r.nodeEpoch.set n e } := by
  have same : s.holdEpoch n e = if !s.epochNewer n e then s
    else if s.ofHead n then s.updRing fun r => { r with headEpoch := r.headEpoch.set (n / 2) e, applied := r.applied.erase (n / 2) }
    else s.updRing fun r => { r with nodeEpoch := r.nodeEpoch.set n e } := rfl
  rw [same]
  exact if_congr (by rw [Bool.not_eq_true']) rfl rfl

theorem holdEpoch_rest (s : State) (n e : Nat) : (s.holdEpoch n e).ring.nonce = s.ring.nonce ∧ (s.holdEpoch n e).ring.summary = s.ring.summary ∧
    (s.holdEpoch n e).ring.refSeen = s.ring.refSeen ∧ (s.holdEpoch n e).ring.node = s.ring.node := by
  rw [holdEpoch_eq]
  split
  · exact ⟨rfl, rfl, rfl, rfl⟩
  split <;> exact ⟨rfl, rfl, rfl, rfl⟩

/-- What a unit holds of a node's epoch does not depend on when the node was heard. -/
theorem holdEpoch_applied {s w : State} (ring : w.ring = s.ring) (n e : Nat) :
    ((w.heard n).holdEpoch n e).ring.applied = (s.holdEpoch n e).ring.applied := by
  have role (m : Nat) : ((w.heard n).rnode m).role = (s.rnode m).role := by
    have before : w.rnode m = s.rnode m := by rw [State.rnode, ring, State.rnode]
    by_cases own : m = n
    · rw [own, State.heard, rnode_modNode, ← own]
      exact (show _ = (w.rnode m).role from rfl).trans (congrArg RingNode.role before)
    · rw [State.heard, rnode_modNode_ne w own, before]
  have head (m : Nat) : (w.heard n).ofHead m = s.ofHead m := by rw [State.ofHead, State.ofHead, role]
  have epochs : (w.heard n).ring.headEpoch = s.ring.headEpoch ∧ (w.heard n).ring.nodeEpoch = s.ring.nodeEpoch ∧
      (w.heard n).ring.applied = s.ring.applied := by
    rw [← ring]
    exact ⟨rfl, rfl, rfl⟩
  have held (m : Nat) : (w.heard n).epochHeld m = s.epochHeld m := by rw [State.epochHeld, State.epochHeld, head, epochs.1, epochs.2.1]
  have newer : (w.heard n).epochNewer n e = s.epochNewer n e := by rw [State.epochNewer, held, State.epochNewer]
  rw [holdEpoch_eq, holdEpoch_eq, newer, head]
  split
  · exact epochs.2.2
  split
  · exact congrArg (fun t : Tab Nat => t.erase (n / 2)) epochs.2.2
  · exact epochs.2.2

theorem came_of_ring {s w : State} (heard : s.RingHeard w) (ring : w.ring = s.ring) (firings : w.faults.firings = s.faults.firings)
    (src epoch : Nat) :
    s.RingCame ((w.heard src).holdEpoch src epoch) src epoch := by
  obtain ⟨nonce, summary, refSeen, node⟩ := holdEpoch_rest (w.heard src) src epoch
  have before (n : Nat) : w.rnode n = s.rnode n := by rw [State.rnode, ring, State.rnode]
  have rnode (n : Nat) : ((w.heard src).holdEpoch src epoch).rnode n = (w.heard src).rnode n := by rw [State.rnode, node, State.rnode]
  refine ⟨(heard.trans (heard_ringHeard w src)).trans (holdEpoch_ringHeard _ _ _), nonce.trans ?_, summary.trans ?_, refSeen.trans ?_,
    holdEpoch_applied ring src epoch, Eq.trans ?_ firings, ?_, fun n out => ?_⟩
  · exact (show _ = w.ring.nonce from rfl).trans (congrArg RingUnit.nonce ring)
  · exact (show _ = w.ring.summary from rfl).trans (congrArg RingUnit.summary ring)
  · exact (show _ = w.ring.refSeen from rfl).trans (congrArg RingUnit.refSeen ring)
  · rw [(holdEpoch_keeps (M := 2097152) (by decide) (heard_keeps (by decide) (.refl _ w))).faults (by decide)]
  · rw [rnode, State.heard, rnode_modNode, before, heard.mono]
  · rw [rnode, State.heard, rnode_modNode_ne w out, before]

/-- A valid block of the ring, passed on. -/
def State.ringPassed (s : State) (side : RingSide) (h : RxHeader) (ty : Nat) (p : BitVec 96) : State :=
  (s.rxValid (ringLane side) h).ringForward (ringLane side) ty p

section
variable (s : State) (side : RingSide) (h : RxHeader) (ty : Nat) (p : BitVec 96)

theorem ringPassed_heard : s.RingHeard (s.ringPassed side h ty p) :=
  (rxValid_ringHeard s (ringLane_lt side) h).trans (ringForward_ringHeard ..)

theorem ringPassed_keeps : Keeps 82112 s (s.ringPassed side h ty p) :=
  ringForward_keeps (by decide) (rxValid_ring (by decide) (ringLane_lt side) (.refl _ s))

theorem ringPassed_firings : (s.ringPassed side h ty p).faults.firings = s.faults.firings := by
  rw [State.ringPassed, (ringForward_keeps (M := 65600) (by decide) (.refl _ _)).faults (by decide)]
  exact (rxValid_spec s (ringLane side) h).2.2.2.2.1

theorem ringPassed_ring : (s.ringPassed side h ty p).ring = s.ring := (ringPassed_keeps s side h ty p).ring (by decide)

end

theorem ringTake_eq (s : State) (side : RingSide) (h : RxHeader) (ty : Nat) (p : BitVec 96) (f : State → State) : s.ringTake side h ty p f =
    let w := s.ringPassed side h ty p
    if w.ringStale p then w.bump 0x0E05 noInst 1
    else
      let u := (w.heard (pbits p 95 91)).holdEpoch (pbits p 95 91) (pbits p 79 64)
      if pbits p 95 91 ≠ s.node ∧ (pbits p 90 86 = s.node ∨ pbits p 90 86 = allNodes) then f u else u := rfl

/-- A block of an old epoch. -/
theorem ringTake_stale {s : State} {p : BitVec 96} (stale : s.ringStale p = true) (side : RingSide) (h : RxHeader) (ty : Nat) (f : State → State) :
    s.ringTake side h ty p f = (s.ringPassed side h ty p).bump 0x0E05 noInst 1 := by
  rw [ringTake_eq]
  exact if_pos (by rw [ringStale_congr (ringPassed_ring ..), stale])

/-- A block that is taken. -/
theorem ringTake_takes {s : State} {side : RingSide} {p : BitVec 96} (takes : s.RingTakes side p) (h : RxHeader) (ty : Nat) (f : State → State) :
    ∃ u, s.RingCame u (pbits p 95 91) (pbits p 79 64) ∧ s.ringTake side h ty p f = f u := by
  refine ⟨_, came_of_ring (ringPassed_heard s side h ty p) (ringPassed_ring ..) (ringPassed_firings ..) _ _, ?_⟩
  rw [ringTake_eq]
  dsimp only
  rw [if_neg (by rw [ringStale_congr (ringPassed_ring ..), takes.fresh]; decide), if_pos ⟨takes.source, takes.dest⟩]

/-- A row of a block that is taken. -/
theorem ringRow_takes {s : State} {side : RingSide} {p : BitVec 96} (takes : s.RingTakes side p) (h : RxHeader) (ty : Nat) (f : State → State) :
    ∃ u, s.RingCame u (pbits p 95 91) (pbits p 79 64) ∧ s.onRx (ringLane side) (fun s => s.ringTake side h ty p f) = (f u).done := by
  obtain ⟨u, came, run⟩ := ringTake_takes takes h ty f
  exact ⟨u, came, (if_pos takes.receives).trans (congrArg State.done run)⟩

/-- The parts the reception of a block changes. -/
abbrev rxParts : List Part := [.par, .faults, .lanes, .links]

theorem staleRow_lands {s : State} {side : RingSide} {p : BitVec 96} (receives : (s.lane (ringLane side)).st.receives = true)
    (stale : s.ringStale p = true) (h : RxHeader) (ty : Nat) (f : State → State) :
    Lands (s.onRx (ringLane side) fun s => s.ringTake side h ty p f) (Only rxParts s) :=
  ⟨_, (if_pos receives).trans (congrArg State.done (ringTake_stale stale side h ty f)),
    only_of (bump_keeps (by decide) (ringPassed_keeps s side h ty p))⟩

/-! ### The census (R410) -/

/-- A census is never this unit's own where another node sent it. -/
theorem ringCensusRx_run {s : State} {side : RingSide} {p : BitVec 96} (receives : (s.lane (ringLane side)).st.receives = true) (h : RxHeader) :
    exec (.ringCensusRx side h p) s = (if pbits p 95 91 = s.node then (s.ringTake side h 0x41 p fun s => s.census p).ownCensus p
      else s.ringTake side h 0x41 p fun s => s.census p).done := if_pos receives

theorem ringCensusRx_stale {s : State} {side : RingSide} {p : BitVec 96} (receives : (s.lane (ringLane side)).st.receives = true)
    (stale : s.ringStale p = true) (h : RxHeader) (foreign : pbits p 95 91 ≠ s.node) : Lands (exec (.ringCensusRx side h p) s) (Only rxParts s) := by
  have run := ringCensusRx_run receives h (p := p)
  rw [if_neg foreign, ringTake_stale stale] at run
  exact ⟨_, run, only_of (bump_keeps (by decide) (ringPassed_keeps s side h 0x41 p))⟩

/-- What this unit does of its own accord or of another's where a pair is split (R386). -/
theorem splitSeen_acts {s : State} {epoch : Nat} (small : epoch < 2 ^ 16) (active : s.twin.role = .active)
    (unplanned : ¬(s.twin.handoverUntil.isSome = true ∧ epoch = s.nextEpoch)) :
    (s.splitSeen epoch).twin.role = .maint ∧ (s.splitSeen epoch).twin.epoch = epoch ∧ s.Fired (s.splitSeen epoch) 0x48 := by
  have split : s.splitSeen epoch = (s.toMaint epoch).fire 0x48 noInst (leBytes 2 epoch) := if_pos ⟨active, unplanned⟩
  have fires := fire_keeps (M := 8440) (a1 := 0x48) (a2 := noInst) (a3 := leBytes 2 epoch) (by decide) (.refl _ (s.toMaint epoch))
  have maint := toMaint_keeps (M := 83976) (a1 := epoch) (by decide) (.refl _ s)
  rw [split, fires.twin (by decide), toMaint_twin, setRole_twin]
  exact ⟨rfl, Nat.mod_eq_of_lt small, (fire_fired _ (by decide) noInst _).from (by rw [maint.faults (by decide)])⟩

theorem splitSeen_ignored {s : State} {epoch : Nat} (ignored : ¬(s.twin.role = .active ∧ ¬(s.twin.handoverUntil.isSome = true ∧ epoch = s.nextEpoch))) :
    s.splitSeen epoch = s := if_neg ignored

/-- What a census says, noted of its node. -/
def State.censusNoted (s : State) (p : BitVec 96) : State :=
  let n := pbits p 95 91
  let s1 := (s.modNode n fun x =>
    { x with present := true, role := pbits p 63 60, qualified := decide (pbits p 59 59 = 1), aligned := decide (pbits p 58 58 = 1),
             head := pbits p 57 55, gen := pbits p 47 32, refServe := pbits p 31 24, nonce := pbits p 15 0, at_ := s.mono,
             short := s.shortNow }).condOffInst 0x50 n
  if n = 16 ∧ pbits p 63 60 = 3 ∧ bit (pbits p 31 24) s.headId = true then s1.condOffInst 0x4A noInst else s1

theorem census_eq (s : State) (p : BitVec 96) : s.census p =
    if s.twinEn = true ∧ pbits p 95 91 = 2 * s.headId + (1 - s.unit) ∧ pbits p 63 60 = 1 ∧ 0 < sdiff 16 (pbits p 79 64) s.twin.epoch then
      (s.censusNoted p).splitSeen (pbits p 79 64) else s.censusNoted p := rfl

theorem censusNoted_spec (s : State) (p : BitVec 96) : Keeps 2097280 s (s.censusNoted p) ∧ (s.censusNoted p).faults.firings = s.faults.firings ∧
    (∀ n, n ≠ pbits p 95 91 → (s.censusNoted p).rnode n = s.rnode n) ∧ (s.censusNoted p).rnode (pbits p 95 91) =
      { s.rnode (pbits p 95 91) with
        present := true, role := pbits p 63 60, qualified := decide (pbits p 59 59 = 1), aligned := decide (pbits p 58 58 = 1),
        head := pbits p 57 55, gen := pbits p 47 32, refServe := pbits p 31 24, nonce := pbits p 15 0, at_ := s.mono, short := s.shortNow } := by
  rw [State.censusNoted]
  dsimp only
  have noted := modNode_keeps (M := 2097280) (a1 := pbits p 95 91) (a2 := fun x =>
    { x with present := true, role := pbits p 63 60, qualified := decide (pbits p 59 59 = 1), aligned := decide (pbits p 58 58 = 1),
             head := pbits p 57 55, gen := pbits p 47 32, refServe := pbits p 31 24, nonce := pbits p 15 0, at_ := s.mono,
             short := s.shortNow }) (by decide) (.refl _ s)
  split
  · exact ⟨condOffInst_keeps (by decide) (condOffInst_keeps (by decide) noted), rfl, fun n out => rnode_modNode_ne s out _, rnode_modNode ..⟩
  · exact ⟨condOffInst_keeps (by decide) noted, rfl, fun n out => rnode_modNode_ne s out _, rnode_modNode ..⟩

/-- A census shows that the other unit of the pair is the active of a later epoch (R386). -/
abbrev State.censusSplits (s : State) (p : BitVec 96) : Prop :=
  s.twinEn = true ∧ pbits p 95 91 = 2 * s.headId + (1 - s.unit) ∧ pbits p 63 60 = 1 ∧ 0 < sdiff 16 (pbits p 79 64) s.twin.epoch ∧
    s.twin.role = .active ∧ ¬(s.twin.handoverUntil.isSome = true ∧ pbits p 79 64 = s.nextEpoch)

theorem pbits_lt (p : BitVec 96) (hi lo : Nat) : pbits p hi lo < 2 ^ (hi - lo + 1) := Nat.mod_lt _ (Nat.two_pow_pos _)

theorem ringCensusRx_takes {s : State} {side : RingSide} {h : RxHeader} {p : BitVec 96} (takes : s.RingTakes side p) :
    Lands (exec (.ringCensusRx side h p) s) fun e =>
      let x := e.rnode (pbits p 95 91)
      x.present = true ∧ x.role = pbits p 63 60 ∧ x.qualified = decide (pbits p 59 59 = 1) ∧ x.aligned = decide (pbits p 58 58 = 1) ∧
      x.head = pbits p 57 55 ∧ x.gen = pbits p 47 32 ∧ x.refServe = pbits p 31 24 ∧ x.nonce = pbits p 15 0 ∧ x.at_ = s.mono ∧
      (∀ n, n ≠ pbits p 95 91 → e.rnode n = s.rnode n) ∧
      (s.censusSplits p → Only (.twin :: ([.todo, .hatch, .notif, .pantry, .ring] ++ rxParts)) s e ∧ e.twin.role = .maint ∧
        e.twin.epoch = pbits p 79 64 ∧ s.Fired e 0x48) ∧
      (¬s.censusSplits p → Only (.ring :: rxParts) s e) := by
  obtain ⟨u, came, run⟩ := ringTake_takes takes h 0x41 fun s => s.census p
  have sent : exec (.ringCensusRx side h p) s = (u.census p).done :=
    (ringCensusRx_run takes.receives h).trans (congrArg State.done ((if_neg takes.source).trans run))
  obtain ⟨noted, firings, ne, own⟩ := censusNoted_spec u p
  have heard := came.heard
  have kept : Keeps 2179264 s (u.censusNoted p) := heard.keeps.trans (noted.weaken (by decide))
  have twin : (u.censusNoted p).twin = s.twin := kept.twin (by decide)
  have other : ∀ n, n ≠ pbits p 95 91 → (u.censusNoted p).rnode n = s.rnode n := fun n out => (ne n out).trans (came.other n out)
  have split : s.censusSplits p ↔ (u.twinEn = true ∧ pbits p 95 91 = 2 * u.headId + (1 - u.unit) ∧ pbits p 63 60 = 1 ∧
      0 < sdiff 16 (pbits p 79 64) u.twin.epoch) ∧ (u.censusNoted p).twin.role = .active ∧
      ¬((u.censusNoted p).twin.handoverUntil.isSome = true ∧ pbits p 79 64 = (u.censusNoted p).nextEpoch) := by
    rw [State.twinEn, State.headId, State.unit, pu_congr heard.eff, pu_congr heard.eff, heard.twin, State.nextEpoch, twin]
    simp only [and_assoc]
    rfl
  have seen : Keeps 92408 (u.censusNoted p) ((u.censusNoted p).splitSeen (pbits p 79 64)) := splitSeen_keeps (by decide) (.refl _ _)
  have acts := splitSeen_acts (s := u.censusNoted p) (epoch := pbits p 79 64) (pbits_lt p 79 64)
  have ignored := splitSeen_ignored (s := u.censusNoted p) (epoch := pbits p 79 64)
  have node : ∀ n, ((u.censusNoted p).splitSeen (pbits p 79 64)).rnode n = (u.censusNoted p).rnode n := fun n => by
    rw [State.rnode, seen.ring (by decide), State.rnode]
  have stamp : u.mono = s.mono := heard.mono
  rw [census_eq] at sent
  have fired : (u.censusNoted p).faults.firings = s.faults.firings := firings.trans came.firings
  suffices told : ∀ e, e = (if u.twinEn = true ∧ pbits p 95 91 = 2 * u.headId + (1 - u.unit) ∧ pbits p 63 60 = 1 ∧
      0 < sdiff 16 (pbits p 79 64) u.twin.epoch then (u.censusNoted p).splitSeen (pbits p 79 64) else u.censusNoted p) →
      (∀ n, e.rnode n = (u.censusNoted p).rnode n) ∧ (s.censusSplits p → Only (.twin :: ([.todo, .hatch, .notif, .pantry, .ring] ++ rxParts)) s e ∧
        e.twin.role = .maint ∧ e.twin.epoch = pbits p 79 64 ∧ s.Fired e 0x48) ∧ (¬s.censusSplits p → Only (.ring :: rxParts) s e) by
    obtain ⟨same, acted, quiet⟩ := told _ rfl
    refine ⟨_, sent, ?_, ?_, ?_, ?_, ?_, ?_, ?_, ?_, ?_, fun n out => (same n).trans (other n out), acted, quiet⟩ <;> rw [same, own]
    exact stamp
  intro e he
  by_cases shows : u.twinEn = true ∧ pbits p 95 91 = 2 * u.headId + (1 - u.unit) ∧ pbits p 63 60 = 1 ∧ 0 < sdiff 16 (pbits p 79 64) u.twin.epoch
  · rw [he, if_pos shows]
    refine ⟨node, fun both => ?_, fun quiet => ?_⟩
    · obtain ⟨-, active, unplanned⟩ := split.1 both
      obtain ⟨role, epoch, fires⟩ := acts active unplanned
      exact ⟨(only_of (l := .twin :: ([.todo, .hatch, .notif, .pantry, .ring] ++ rxParts)) ((kept.weaken (by decide)).trans (seen.weaken (by decide)))),
        role, epoch, fires.from fired⟩
    · rw [ignored fun both => quiet (split.2 ⟨shows, both⟩)]
      exact only_of (l := .ring :: rxParts) kept
  · rw [he, if_neg shows]
    exact ⟨fun _ => rfl, fun both => absurd (split.1 both).1 shows, fun _ => only_of (l := .ring :: rxParts) kept⟩

/-- The reception of a valid block enters no condition. -/
theorem rxValid_absent {s : State} {x : Present} (absent : s.faults.present.contains x = false) (lane : Nat) (h : RxHeader) :
    (s.rxValid lane h).faults.present.contains x = false := by
  have before : (((s.rxCounted lane h).modLink lane fun l => l.heard h.seq.toNat s.mono).rxStream lane s.mono s.twin.streamLost).faults = s.faults := by
    rw [(rxStream_keeps (M := 2056) (by decide) _ _ _ (.refl _ _)).faults (by decide)]
    exact (rxCounted_keeps (M := 16448) (by decide) lane h (.refl _ s)).faults (by decide)
  rw [rxValid_eq]
  dsimp only
  split
  · rw [State.condOff, updFaults_faults, before]
    rw [Bool.eq_false_iff, ne_eq, List.contains_iff_mem] at absent ⊢
    exact fun mem => absent (List.mem_filter.1 mem).1
  · rw [before, absent]

/-- What the reception of a block that bears this unit's own NODE leaves. -/
theorem ringTake_own {s : State} {p : BitVec 96} (own : pbits p 95 91 = s.node) (side : RingSide) (h : RxHeader) (ty : Nat) (f : State → State) :
    let u := s.ringTake side h ty p f
    Keeps 2179264 s u ∧ u.ring.nonce = s.ring.nonce ∧ u.faults.firings = s.faults.firings ∧ (∀ n, n ≠ pbits p 95 91 → u.rnode n = s.rnode n) ∧
      ∀ x, s.faults.present.contains x = false → u.faults.present.contains x = false := by
  have passed := ringPassed_heard s side h ty p
  have ring := ringPassed_ring s side h ty p
  have firings := ringPassed_firings s side h ty p
  have absent : ∀ x, s.faults.present.contains x = false → (s.ringPassed side h ty p).faults.present.contains x = false := fun x none_ => by
    rw [State.ringPassed, (ringForward_keeps (M := 65600) (by decide) (.refl _ _)).faults (by decide)]
    exact rxValid_absent none_ ..
  rw [ringTake_eq]
  generalize s.ringPassed side h ty p = w at *
  dsimp only
  by_cases stale : w.ringStale p = true
  · rw [if_pos stale]
    exact ⟨bump_keeps (by decide) passed.keeps, congrArg RingUnit.nonce ring, firings, fun n _ => by rw [State.rnode, State.rnode, ← ring]; rfl, absent⟩
  · rw [if_neg stale, if_neg fun both => both.1 own]
    have came := came_of_ring passed ring firings (pbits p 95 91) (pbits p 79 64)
    have faults := (holdEpoch_keeps (M := 2097152) (a1 := pbits p 95 91) (a2 := pbits p 79 64) (by decide)
      (heard_keeps (a1 := pbits p 95 91) (by decide) (.refl _ w))).faults (by decide)
    exact ⟨came.heard.keeps, came.nonce, came.firings, came.other, fun x none_ => by rw [faults]; exact absent x none_⟩

/-- A census that bears this unit's own NODE (R410). -/
theorem ringCensusRx_own {s : State} {side : RingSide} {h : RxHeader} {p : BitVec 96} (receives : (s.lane (ringLane side)).st.receives = true)
    (own : pbits p 95 91 = s.node) : Lands (exec (.ringCensusRx side h p) s) fun e =>
      (e.rnode (pbits p 95 91)).present = true ∧ (e.rnode (pbits p 95 91)).at_ = s.mono ∧ (∀ n, n ≠ pbits p 95 91 → e.rnode n = s.rnode n) ∧
      if pbits p 15 0 = s.ring.nonce then Only (.ring :: rxParts) s e
      else Only ([.todo, .hatch, .notif, .pantry, .ring] ++ rxParts) s e ∧
        (s.faults.present.contains { src := 0x51, inst := pbits p 95 91, sub := 0 } = false → s.Fired e 0x51) := by
  have run := ringCensusRx_run receives h (p := p)
  rw [if_pos own] at run
  obtain ⟨keeps, nonce, firings, other, absent⟩ := ringTake_own own side h 0x41 fun s => s.census p
  generalize s.ringTake side h 0x41 p (fun s => s.census p) = u at *
  rw [State.ownCensus] at run
  have mono : u.mono = s.mono := keeps.mono (by decide)
  have shown : Keeps 2179264 s (u.modNode (pbits p 95 91) fun x => { x with present := true, at_ := u.mono, short := u.shortNow }) :=
    modNode_keeps (by decide) keeps
  have node : (u.modNode (pbits p 95 91) fun x => { x with present := true, at_ := u.mono, short := u.shortNow }).rnode (pbits p 95 91) =
    { u.rnode (pbits p 95 91) with present := true, at_ := s.mono, short := u.shortNow } := by rw [rnode_modNode, mono]
  have ne : ∀ n, n ≠ pbits p 95 91 →
      (u.modNode (pbits p 95 91) fun x => { x with present := true, at_ := u.mono, short := u.shortNow }).rnode n = s.rnode n := fun n out =>
    (rnode_modNode_ne u out _).trans (other n out)
  have faults : (u.modNode (pbits p 95 91) fun x => { x with present := true, at_ := u.mono, short := u.shortNow }).faults = u.faults := rfl
  generalize (u.modNode (pbits p 95 91) fun x => { x with present := true, at_ := u.mono, short := u.shortNow }) = v at *
  by_cases same : pbits p 15 0 = s.ring.nonce
  · rw [if_pos (same.trans nonce.symm)] at run
    refine ⟨v, run, by rw [node], by rw [node], ne, ?_⟩
    rw [if_pos same]
    exact only_of (l := .ring :: rxParts) shown
  · rw [if_neg (fun bad => same (bad.trans nonce))] at run
    have clash := condOn_keeps (M := 8440) (a1 := 0x51) (a2 := pbits p 95 91) (a3 := 0) (a4 := leBytes 2 (pbits p 15 0)) (by decide) (.refl _ v)
    have rnode : ∀ n, (v.condOn 0x51 (pbits p 95 91) 0 (leBytes 2 (pbits p 15 0))).rnode n = v.rnode n := fun n => by
      rw [State.rnode, clash.ring (by decide), State.rnode]
    refine ⟨_, run, by rw [rnode, node], by rw [rnode, node], fun n out => (rnode n).trans (ne n out), ?_⟩
    rw [if_neg same]
    refine ⟨only_of (l := [.todo, .hatch, .notif, .pantry, .ring] ++ rxParts) ((shown.weaken (by decide)).trans (clash.weaken (by decide))), fun none_ => ?_⟩
    exact (condOn_fired v (by decide) (by rw [faults]; exact absent _ none_) _).from (by rw [faults, firings])

/-! ### Summaries and health (R380, R413) -/

theorem ringSummaryRx_lands {s : State} {side : RingSide} {h : RxHeader} {p : BitVec 96} (takes : s.RingTakes side p) :
    Lands (exec (.ringSummaryRx side h p) s) fun e => Only (.ring :: rxParts) s e ∧
      (∀ g, g ≠ pbits p 63 57 → e.ring.summary.get? g = s.ring.summary.get? g) ∧
      e.ring.summary.get? (pbits p 63 57) = if s.summaryNew (pbits p 63 57) (pbits p 52 48) = true then
        some ⟨pbits p 56 54, decide (pbits p 53 53 = 1), pbits p 52 48, signed 16 (pbits p 47 32), signed 16 (pbits p 31 16),
          signed 16 (pbits p 15 0), s.now⟩
      else s.ring.summary.get? (pbits p 63 57) := by
  let x (now : Nat) : Summary := ⟨pbits p 56 54, decide (pbits p 53 53 = 1), pbits p 52 48, signed 16 (pbits p 47 32), signed 16 (pbits p 31 16),
    signed 16 (pbits p 15 0), now⟩
  obtain ⟨u, came, run⟩ := ringRow_takes takes h 0x42 fun s => if s.summaryNew (pbits p 63 57) (pbits p 52 48) then
    s.updRing fun r => { r with summary := r.summary.set (pbits p 63 57) (x s.now) } else s
  have now : u.now = s.now := by rw [State.now, State.now, came.heard.time]
  have new : u.summaryNew (pbits p 63 57) (pbits p 52 48) = s.summaryNew (pbits p 63 57) (pbits p 52 48) := by
    rw [State.summaryNew, State.summaryNew, came.summary, now, p0_congr came.heard.eff]
  rw [new, now] at run
  have same (g : Nat) : u.ring.summary.get? g = s.ring.summary.get? g := by rw [came.summary]
  by_cases later : s.summaryNew (pbits p 63 57) (pbits p 52 48) = true
  · rw [if_pos later] at run
    refine ⟨_, run, only_of (l := .ring :: rxParts) (updRing_keeps (by decide) came.heard.keeps), fun g out => ?_, ?_⟩
    · exact (Tab.get?_set_ne _ out _).trans (same g)
    · rw [if_pos later]
      exact Tab.get?_set ..
  · rw [if_neg later] at run
    refine ⟨u, run, only_of (l := .ring :: rxParts) came.heard.keeps, fun g _ => same g, ?_⟩
    rw [if_neg later, same]

theorem ringHealthRx_lands {s : State} {side : RingSide} {h : RxHeader} {p : BitVec 96} (takes : s.RingTakes side p) :
    Lands (exec (.ringHealthRx side h p) s) fun e => Only (.ring :: rxParts) s e ∧
      (∀ n, n ≠ pbits p 95 91 → e.rnode n = s.rnode n) ∧
      e.rnode (pbits p 95 91) = if (s.rnode (pbits p 95 91)).healthSeq = some (pbits p 13 0) then
        { s.rnode (pbits p 95 91) with heardAt := some s.mono }
      else { s.rnode (pbits p 95 91) with
        heardAt := some s.mono, failed := some (pbits p 63 48), failedAt := s.mono, healthSeq := some (pbits p 13 0) } := by
  obtain ⟨u, came, run⟩ := ringRow_takes takes h 0x45 fun s => s.modNode (pbits p 95 91) fun x =>
    if x.healthSeq = some (pbits p 13 0) then x
    else { x with failed := some (pbits p 63 48), failedAt := s.mono, healthSeq := some (pbits p 13 0) }
  refine ⟨_, run, only_of (l := .ring :: rxParts) (modNode_keeps (by decide) came.heard.keeps), fun n out => ?_, ?_⟩
  · rw [rnode_modNode_ne u out, came.other n out]
  · rw [rnode_modNode, came.own, came.heard.mono]

end Sys2Proof.Machine
end

section
/-!
PROOFS. The blocks of the ring (O40): a RING_WRITE lands in the group window by its WSEQ (R415, R416, R426). With the notifications off a warning and a firing
write nothing into the pantry.
-/

namespace Sys2Proof.Machine

open Host

/-! ### Notifications that are off (R85, R87) -/

/-- The pantry's bytes stay while the notifications are off. -/
structure State.Muted (s t : State) : Prop where
  /-- They stay off. -/
  enable : t.notif.enable = false
  /-- The memory. -/
  mem : t.pantry.mem = s.pantry.mem
  /-- The clearing of banks. -/
  clearing : t.pantry.clearing = s.pantry.clearing

theorem State.Muted.trans {s t u : State} (a : s.Muted t) (b : t.Muted u) : s.Muted u :=
  ⟨b.enable, b.mem.trans a.mem, b.clearing.trans a.clearing⟩

theorem Keeps.muted {s t : State} {M : Nat} (h : Keeps M s t) (notif : M.testBit 5 = false) (pantry : M.testBit 13 = false)
    (off : s.notif.enable = false) : s.Muted t :=
  ⟨by rw [h.notif notif, off], by rw [h.pantry pantry], by rw [h.pantry pantry]⟩

theorem dropNote_enable (s : State) : s.dropNote.notif.enable = s.notif.enable := by
  rw [State.dropNote, (hostErrSet_keeps (M := 16) (by decide) (.refl _ _)).notif (by decide)]
  rfl

theorem putNote_enable {s : State} (off : s.notif.enable = false) (e : Note) : (s.putNote e).notif.enable = false := by
  unfold State.putNote
  rw [if_neg (ne_true_of_eq_false off)]
  split
  · exact off
  · rw [dropNote_enable, off]

theorem note_muted {s : State} (off : s.notif.enable = false) (island code : Nat) (args : Bytes) (info : Bool) :
    s.Muted (s.note island code args info) := by
  refine ⟨?_, by rw [(note_pantry s island code args info).2 off], by rw [(note_pantry s island code args info).2 off]⟩
  rw [State.note, State.noteAt]
  split
  · exact off
  · exact putNote_enable (s := s.updNotif fun n => { n with seq := n.seq.set island ((s.notif.seq.get 0 island + 1) % 65536) }) off _

theorem fireNote_muted {s : State} (off : s.notif.enable = false) (src inst : Nat) (taken : Option Nat) (flags rec : Nat) (args : Bytes)
    (log : Bool) : s.Muted (s.fireNote src inst taken flags rec args log) := by
  have noted := note_muted off (fireIsland src inst) (0x1700 + src)
    (leBytes 1 (taken.getD 0xFF) ++ leBytes 1 flags ++ leBytes 2 inst ++ leBytes 4 rec ++ (padTo args 12).take 12) log
  exact noted.trans ((attic_keeps (M := 128) (by decide) (.refl _ _)).muted (by decide) (by decide) noted.enable)

theorem react_muted {s : State} (off : s.notif.enable = false) (react src inst rec : Nat) : s.Muted (s.react react src inst rec) :=
  (react_keeps (M := 200) (by decide) (.refl _ s)).muted (by decide) (by decide) off

/-- The effects that go before a firing's notification touch neither the notifications nor the pantry. -/
theorem fireNote_muted_of {s t : State} (off : s.notif.enable = false) (notif : t.notif = s.notif) (pantry : t.pantry = s.pantry) (src inst : Nat)
    (taken : Option Nat) (flags rec : Nat) (args : Bytes) (log : Bool) : s.Muted (t.faultPin.fireNote src inst taken flags rec args log) := by
  have pinned : t.Muted t.faultPin := (faultPin_keeps (M := 144) (by decide) (.refl _ t)).muted (by decide) (by decide) (by rw [notif, off])
  obtain ⟨enable, mem, clearing⟩ := pinned.trans (fireNote_muted pinned.enable src inst taken flags rec args log)
  exact ⟨enable, by rw [mem, pantry], by rw [clearing, pantry]⟩

theorem fireMerge_muted {s t : State} (off : s.notif.enable = false) (notif : t.notif = s.notif) (pantry : t.pantry = s.pantry) (r : FaultRec)
    (case1 : Bool) (src inst react : Nat) (pin inj : Bool) (args : Bytes) (log : Bool) :
    s.Muted (t.fireMerge r case1 src inst react pin inj args log) := by
  unfold State.fireMerge
  extract_lets full esc taken r' s1 s2 s3
  have noted : s.Muted s3 := by
    refine fireNote_muted_of off ?_ ?_ src inst taken _ r.id args log
    · simp only [s2]
      split <;> exact notif
    · simp only [s2]
      split <;> exact pantry
  cases taken with
  | none => exact noted
  | some c => exact noted.trans (react_muted noted.enable c src inst r.id)

theorem fireOpen_muted {s t : State} (off : s.notif.enable = false) (notif : t.notif = s.notif) (pantry : t.pantry = s.pantry)
    (src inst react : Nat) (pin inj : Bool) (args : Bytes) (log : Bool) : s.Muted (t.fireOpen src inst react pin inj args log) := by
  have reacted (u : State) (notif : u.notif = s.notif) (pantry : u.pantry = s.pantry) (flags rec : Nat) :
      s.Muted ((u.faultPin.fireNote src inst (some react) flags rec args log).react react src inst rec) := by
    have noted := fireNote_muted_of off notif pantry src inst (some react) flags rec args log
    exact noted.trans (react_muted noted.enable react src inst rec)
  unfold State.fireOpen
  split
  · extract_lets s1
    exact reacted s1 notif pantry ..
  · extract_lets id r s1
    exact reacted s1 notif pantry ..

theorem fire_muted {s : State} (off : s.notif.enable = false) (src inst : Nat) (args : Bytes) : s.Muted (s.fire src inst args) := by
  rw [State.fire, State.fireWith]
  split
  · exact ⟨off, rfl, rfl⟩
  · extract_lets conf pin react s1
    have started : s1.notif = s.notif ∧ s1.pantry = s.pantry := ⟨rfl, rfl⟩
    clear_value s1
    obtain ⟨notif, pantry⟩ := started
    split
    · exact fireMerge_muted off notif pantry ..
    · split
      · exact fireOpen_muted off notif pantry ..
      · obtain ⟨enable, mem, clearing⟩ := fireNote_muted (s := s1) (by rw [notif, off]) src inst none (b2n false + 8 * b2n pin) 0 args (conf == 0)
        exact ⟨enable, by rw [mem, pantry], by rw [clearing, pantry]⟩

theorem pantryWarn_muted {s : State} (off : s.notif.enable = false) (code at_ : Nat) : s.Muted (s.pantryWarn 1 code at_) := by
  unfold State.pantryWarn
  extract_lets s1 s2 k w n go
  have started : s2.notif = s.notif ∧ s2.pantry = s.pantry := ⟨rfl, rfl⟩
  have same : s2.pantry.mem = s.pantry.mem ∧ s2.pantry.clearing = s.pantry.clearing := by rw [started.2]; exact ⟨rfl, rfl⟩
  have disabled : s2.notif.enable = false := by rw [started.1, off]
  clear_value s2
  split
  · obtain ⟨enable, mem, clearing⟩ := note_muted (s := s2.updPantry fun p => { p with warn := p.warn.set k { count := 0, at_ := some s2.mono } })
      disabled 0x0A (0x0F01 + code) (leBytes 1 1 ++ [0] ++ leBytes 2 n ++ leBytes 4 at_) true
    exact ⟨enable, mem.trans same.1, clearing.trans same.2⟩
  · exact ⟨disabled, same.1, same.2⟩

/-! ### The word of a RING_WRITE (R416, R426) -/

/-- The ring wins a word of the group window over the management port. -/
theorem wordWrites_ring {s : State} {a : Nat} (inside : s.inGw a = true) (r : PortWrite) (mw : Option PortWrite) :
    ∃ t, t.inGw a = true ∧ (t = s ∨ t = s.bump 0x0E05 noInst 5) ∧ (mw = none → t = s) ∧
      (s.wordWrites a (some r) mw none = t.land a r ∨ mw ≠ none ∧ s.wordWrites a (some r) mw none = (t.land a r).pantryWarn 1 1 a) := by
  have host (u : State) : u.gwJudge a none = (u, none) := rfl
  unfold State.wordWrites
  cases judged : s.gwJudge a mw with
  | mk t m =>
    have told : t.inGw a = true ∧ (t = s ∨ t = s.bump 0x0E05 noInst 5) ∧ (mw = none → t = s ∧ m = none) := by
      rw [State.gwJudge] at judged
      split at judged
      · rename_i foreign
        obtain ⟨rfl, rfl⟩ := Prod.mk.inj judged
        refine ⟨(bump_inGw ..).trans inside, .inr rfl, fun idle => ?_⟩
        rw [idle] at foreign
        cases foreign
      · obtain ⟨rfl, rfl⟩ := Prod.mk.inj judged
        exact ⟨inside, .inl rfl, fun idle => ⟨rfl, idle⟩⟩
    obtain ⟨window, from_, idle⟩ := told
    refine ⟨t, window, from_, fun h => (idle h).1, ?_⟩
    simp only [host]
    rw [if_pos window]
    cases m with
    | none => exact .inl rfl
    | some w => exact .inr ⟨fun h => (nomatch (idle h).2), rfl⟩

/-- What a RING_WRITE leaves where it lands: the word's bytes in a bank that is on. -/
structure State.RingLanded (s t : State) (b slice word be data : Nat) (mgmt : MgmtAccess) : Prop where
  /-- The parts it changes. -/
  keeps : Keeps 8304 s t
  /-- The notifications stay off. -/
  enable : s.notif.enable = false → t.notif.enable = false
  /-- The bytes. -/
  mem : s.pantry.mem.wf = true → s.notif.enable = false ∨ mgmt = .idle → ∀ a, t.pantry.mem.read a =
    let off := b * 0x20000 + slice * 0x4000 + word * 4
    if s.bankOff b = false ∧ off ≤ a ∧ a < off + 4 ∧ be.testBit (a - off) = true then BitVec.ofNat 8 (data / 2 ^ (8 * (a - off)))
    else s.pantry.mem.read a

theorem land_read {s : State} (wf : s.pantry.mem.wf = true) (off be data a : Nat) :
    (s.land off { data := BitVec.ofNat 32 data, be := BitVec.ofNat 4 be }).pantry.mem.read a =
      if s.bankOff (off / 0x20000) = false ∧ off ≤ a ∧ a < off + 4 ∧ be.testBit (a - off) = true then BitVec.ofNat 8 (data / 2 ^ (8 * (a - off)))
      else s.pantry.mem.read a := by
  cases on : s.bankOff (off / 0x20000) with
  | true => rw [(land_off on _).1, if_neg fun h => Bool.noConfusion h.1]
  | false =>
    have direct : portByte { data := BitVec.ofNat 32 data, be := BitVec.ofNat 4 be } off a = hostByte data be off a := by
      rw [← portByte_direct, hostPart]
      simp only [Nat.mul_zero, Nat.pow_zero, Nat.mul_one, Nat.div_one]
    rw [(land_on on _).2.1, read_enabledBytes wf, direct]
    by_cases given : off ≤ a ∧ a < off + 4 ∧ be.testBit (a - off) = true
    · rw [hostByte_of_on given, if_pos ⟨rfl, given⟩]; rfl
    · rw [hostByte_of_off given, if_neg fun h => given h.2]; rfl

theorem land_keeps_notif {s : State} (off : Nat) (w : PortWrite) : Keeps 8256 s (s.land off w) := land_keeps (by decide) (.refl _ s)

/-- A RING_WRITE lands beside what the management port does with the word. -/
theorem ringLand_landed {s : State} {b : Nat} (gw : s.gwBank = some b) {slice word : Nat} (small : slice < 8) (short : word < 4096) (be data : Nat)
    (mgmt : MgmtAccess) : s.RingLanded (s.ringLand slice word be data mgmt) b slice word be data mgmt := by
  have bank : (b * 0x20000 + slice * 0x4000 + word * 4) / 0x20000 = b := by omega
  have run : s.ringLand slice word be data mgmt = (s.wordWrites (b * 0x20000 + slice * 0x4000 + word * 4)
      (some { data := BitVec.ofNat 32 data, be := BitVec.ofNat 4 be }) (mgmtWrite mgmt) none).mgmtMet mgmt 1
        (b * 0x20000 + slice * 0x4000 + word * 4) := by
    rw [State.ringLand, gw]
  rw [run]
  generalize hoff : b * 0x20000 + slice * 0x4000 + word * 4 = off at *
  have inside : s.inGw off = true := by rw [State.inGw, gw, bank, beq_self_eq_true]
  obtain ⟨t, -, from_, idle, wrote⟩ := wordWrites_ring inside { data := BitVec.ofNat 32 data, be := BitVec.ofNat 4 be } (mgmtWrite mgmt)
  have judged : Keeps 8304 s t ∧ t.notif = s.notif ∧ t.pantry = s.pantry ∧ t.par.eff = s.par.eff := by
    obtain rfl | rfl := from_
    · exact ⟨.refl _ _, rfl, rfl, rfl⟩
    · exact ⟨bump_keeps (by decide) (.refl _ s), rfl, rfl, rfl⟩
  obtain ⟨kept, notif, pantry, eff⟩ := judged
  have landed := land_keeps_notif (s := t) off { data := BitVec.ofNat 32 data, be := BitVec.ofNat 4 be }
  have bytes (wf : s.pantry.mem.wf = true) (a : Nat) := land_read (s := t) (by rw [pantry]; exact wf) off be data a
  rw [bankOff_of_clearing eff (by rw [pantry]), bank, pantry] at bytes
  generalize t.land off { data := BitVec.ofNat 32 data, be := BitVec.ofNat 4 be } = u at *
  have quiet : u.notif = s.notif := (landed.notif (by decide)).trans notif
  have ends : (s.wordWrites off (some { data := BitVec.ofNat 32 data, be := BitVec.ofNat 4 be }) (mgmtWrite mgmt) none).mgmtMet mgmt 1 off = u ∨
      mgmt ≠ .idle ∧ ∃ code, (s.wordWrites off (some { data := BitVec.ofNat 32 data, be := BitVec.ofNat 4 be }) (mgmtWrite mgmt)
        none).mgmtMet mgmt 1 off = u.pantryWarn 1 code off := by
    cases mgmt with
    | idle =>
      obtain same | ⟨some_, -⟩ := wrote
      · exact .inl ((if_neg (by decide)).trans same)
      · exact absurd rfl some_
    | read =>
      obtain same | ⟨some_, -⟩ := wrote
      · exact .inr ⟨by decide, 0, (if_pos rfl).trans (congrArg (fun v : State => v.pantryWarn 1 0 off) same)⟩
      · exact absurd rfl some_
    | write w =>
      obtain same | ⟨-, same⟩ := wrote
      · exact .inl ((if_neg (nomatch ·)).trans same)
      · exact .inr ⟨(nomatch ·), 1, (if_neg (nomatch ·)).trans same⟩
  obtain same | ⟨busy, code, same⟩ := ends
  · rw [same]
    exact ⟨kept.trans (landed.weaken (by decide)), fun off_ => by rw [quiet, off_], fun wf _ a => by rw [hoff]; exact bytes wf a⟩
  · rw [same]
    have muted (off_ : s.notif.enable = false) := pantryWarn_muted (s := u) (by rw [quiet, off_]) code off
    refine ⟨pantryWarn_keeps (by decide) (kept.trans (landed.weaken (by decide))), fun off_ => (muted off_).enable, fun wf given a => ?_⟩
    rw [(muted (given.resolve_right busy)).mem, hoff]
    exact bytes wf a

/-! ### A RING_WRITE by its WSEQ (R416) -/

/-- A RING_WRITE that is applied. -/
def State.ringGo (s : State) (slice word be q data : Nat) (mgmt : MgmtAccess) : State :=
  (s.ringLand slice word be data mgmt).updRing fun r => { r with applied := r.applied.set slice q, wlast := r.wlast.set slice q }

theorem ringWrite_eq (s : State) (slice word be q data : Nat) (mgmt : MgmtAccess) : s.ringWrite slice word be q data mgmt =
    match s.ring.applied.get? slice with
    | none => s.ringGo slice word be q data mgmt
    | some last =>
      if sdiff 13 q last ≤ 0 then s.ringSkip slice word mgmt
      else if sdiff 13 q last = 1 then s.ringGo slice word be q data mgmt
      else ((s.ringGo slice word be q data mgmt).bump 0x0E05 noInst 3).fire 0x54 slice (leBytesI 2 (sdiff 13 q last)) := rfl

/-- The group window's bytes after a RING_WRITE that is applied. -/
def State.ringByte (s : State) (slice word be data a : Nat) : Byte :=
  match s.gwBank with
  | some b =>
    let off := 0x20000 * b + 0x4000 * slice + 4 * word
    if s.bankOff b = false ∧ off ≤ a ∧ a < off + 4 ∧ be.testBit (a - off) = true then BitVec.ofNat 8 (data / 2 ^ (8 * (a - off)))
    else s.pantry.mem.read a
  | none => s.pantry.mem.read a

theorem ringGo_spec (s : State) {slice word : Nat} (small : slice < 8) (short : word < 4096) (be q data : Nat) (mgmt : MgmtAccess) :
    let t := s.ringGo slice word be q data mgmt
    t.ring.applied.get? slice = some q ∧ t.faults = s.faults ∧ (s.notif.enable = false → t.notif.enable = false) ∧
    (s.pantry.mem.wf = true → s.notif.enable = false ∨ mgmt = .idle → ∀ a, t.pantry.mem.read a = s.ringByte slice word be data a) := by
  refine ⟨Tab.get?_set .., ?_⟩
  rw [State.ringGo]
  cases gw : s.gwBank with
  | none =>
    have run : s.ringLand slice word be data mgmt = s := by rw [State.ringLand, gw]
    rw [run]
    exact ⟨rfl, id, fun _ _ a => by rw [State.ringByte, gw]; rfl⟩
  | some b =>
    obtain ⟨keeps, enable, mem⟩ := ringLand_landed gw small short be data mgmt
    refine ⟨keeps.faults (by decide), enable, fun wf given a => (mem wf given a).trans ?_⟩
    rw [State.ringByte, gw, Nat.mul_comm b, Nat.mul_comm slice, Nat.mul_comm word]

/-- What a RING_WRITE does, by its WSEQ against the latest applied. -/
theorem ringWrite_spec (s : State) {slice word : Nat} (small : slice < 8) (short : word < 4096) (be q data : Nat) (mgmt : MgmtAccess) :
    let t := s.ringWrite slice word be q data mgmt
    let last := s.ring.applied.get? slice
    let d := sdiff 13 q (last.getD 0)
    (last = none ∨ 0 < d → t.ring.applied.get? slice = some q) ∧
    (∀ r, last = some r → 1 < d → s.Fired t 0x54) ∧
    (∀ r, last = some r → d ≤ 0 → mgmt = .idle → t = s) ∧
    (s.pantry.mem.wf = true → s.notif.enable = false ∨ (mgmt = .idle ∧ (last = none ∨ d = 1)) → last = none ∨ 0 < d →
      ∀ a, t.pantry.mem.read a = s.ringByte slice word be data a) := by
  obtain ⟨applied, faults, enable, mem⟩ := ringGo_spec s small short be q data mgmt
  rw [ringWrite_eq]
  generalize s.ringGo slice word be q data mgmt = t at *
  cases latest : s.ring.applied.get? slice with
  | none =>
    exact ⟨fun _ => applied, fun r h => (nomatch h), fun r h => (nomatch h), fun wf given _ => mem wf (given.imp_right And.left)⟩
  | some last =>
    dsimp only [Option.getD_some]
    by_cases old : sdiff 13 q last ≤ 0
    · rw [if_pos old]
      refine ⟨fun h => ?_, fun r _ h => by omega, fun r _ _ idle => ?_, fun _ _ h => ?_⟩
      · exact absurd (h.resolve_left (nomatch ·)) (by omega)
      · rw [State.ringSkip, idle]
        split
        · exact wordWrites_none ..
        · rfl
      · exact absurd (h.resolve_left (nomatch ·)) (by omega)
    · rw [if_neg old]
      by_cases next : sdiff 13 q last = 1
      · rw [if_pos next]
        exact ⟨fun _ => applied, fun r _ h => by omega, fun r _ h => absurd h old, fun wf given _ => mem wf (given.imp_right And.left)⟩
      · rw [if_neg next]
        have fires := fire_keeps (M := 8440) (a1 := 0x54) (a2 := slice) (a3 := leBytesI 2 (sdiff 13 q last)) (by decide)
          (.refl _ (t.bump 0x0E05 noInst 3))
        refine ⟨fun _ => by rw [fires.ring (by decide)]; exact applied, fun r _ _ => (fire_fired _ (by decide) slice _).from ?_,
          fun r _ h => absurd h old, fun wf given _ a => ?_⟩
        · exact congrArg Faults.firings faults
        · have off : s.notif.enable = false := given.resolve_right fun h => next (h.2.resolve_left (nomatch ·))
          rw [(fire_muted (s := t.bump 0x0E05 noInst 3) (enable off) ..).mem]
          exact mem wf (.inl off) a

theorem ringByte_congr {s u : State} (eff : u.par.eff = s.par.eff) (pantry : u.pantry = s.pantry) (slice word be data a : Nat) :
    u.ringByte slice word be data a = s.ringByte slice word be data a := by
  have bank : u.gwBank = s.gwBank := by
    simp only [State.gwBank, State.ringEn, State.pu, State.p0, State.peff, eff]
    rfl
  have power (b : Nat) : u.bankOff b = s.bankOff b := bankOff_of_clearing eff (by rw [pantry]) b
  rw [State.ringByte, State.ringByte, bank]
  split
  · rw [power, pantry]
  · rw [pantry]

/-- What a RING_WRITE that is taken leaves. -/
theorem ringWriteRx_lands {s : State} {side : RingSide} {h : RxHeader} {p : BitVec 96} (mgmt : MgmtAccess) (takes : s.RingTakes side p) :
    Lands (exec (.ringWriteRx side h p mgmt) s) fun e =>
      let slice := pbits p 63 61
      let q := pbits p 44 32
      let last := (s.holdEpoch (pbits p 95 91) (pbits p 79 64)).ring.applied.get? slice
      let d := sdiff 13 q (last.getD 0)
      Only ([.todo, .hatch, .notif, .pantry, .ring] ++ rxParts) s e ∧
      (last = none ∨ 0 < d → e.ring.applied.get? slice = some q) ∧
      (∀ r, last = some r → 1 < d → s.Fired e 0x54) ∧
      (∀ r, last = some r → d ≤ 0 → mgmt = .idle → e.pantry = s.pantry ∧ e.ring.applied.get? slice = some r) ∧
      (s.pantry.mem.wf = true → s.notif.enable = false ∨ (mgmt = .idle ∧ (last = none ∨ d = 1)) → last = none ∨ 0 < d →
        ∀ a, e.pantry.mem.read a = s.ringByte slice (pbits p 60 49) (pbits p 48 45) (pbits p 31 0) a) := by
  obtain ⟨u, came, run⟩ := ringRow_takes takes h 0x43 fun s =>
    s.ringWrite (pbits p 63 61) (pbits p 60 49) (pbits p 48 45) (pbits p 44 32) (pbits p 31 0) mgmt
  have heard := came.heard.keeps
  have pantry : u.pantry = s.pantry := heard.pantry (by decide)
  have applied : u.ring.applied.get? (pbits p 63 61) = (s.holdEpoch (pbits p 95 91) (pbits p 79 64)).ring.applied.get? (pbits p 63 61) := by
    rw [came.applied]
  obtain ⟨takesIt, fires, skips, lands⟩ := ringWrite_spec u (pbits_lt p 63 61) (pbits_lt p 60 49) (pbits p 48 45) (pbits p 44 32) (pbits p 31 0) mgmt
  rw [applied] at takesIt fires skips lands
  have writes := ringWrite_keeps (M := 2171128) (a1 := pbits p 63 61) (a2 := pbits p 60 49) (a3 := pbits p 48 45) (a4 := pbits p 44 32)
    (a5 := pbits p 31 0) (a6 := mgmt) (by decide) (.refl _ u)
  refine ⟨_, run, only_of (l := [.todo, .hatch, .notif, .pantry, .ring] ++ rxParts) ((heard.weaken (by decide)).trans (writes.weaken (by decide))),
    takesIt, fun r h1 h2 => (fires r h1 h2).from came.firings, fun r h1 h2 idle => ?_, fun wf given new a => ?_⟩
  · rw [skips r h1 h2 idle]
    exact ⟨pantry, applied.trans h1⟩
  · rw [lands (by rw [pantry]; exact wf) (by rw [heard.notif (by decide)]; exact given) new a]
    exact ringByte_congr came.heard.eff pantry ..

end Sys2Proof.Machine
end

section
/-!
PROOFS. The blocks of the ring (O40): cases put to a referee, and verdicts (R388 to R392, R414).
-/

namespace Sys2Proof.Machine

open Host

/-! ### What a referee changes -/

/-- Of a unit's role, its cases alone. -/
def State.CasesOnly (s t : State) : Prop := ∃ cs, t.twin = { s.twin with refCases := cs }

theorem State.CasesOnly.refl (s : State) : s.CasesOnly s := ⟨s.twin.refCases, rfl⟩

theorem State.CasesOnly.trans {s t u : State} (a : s.CasesOnly t) (b : t.CasesOnly u) : s.CasesOnly u := by
  obtain ⟨cs, first⟩ := a
  obtain ⟨ds, second⟩ := b
  exact ⟨ds, by rw [second, first]⟩

theorem refVerdict_casesOnly (s : State) (c : RefereeCase) (v rule : Nat) : s.CasesOnly (s.refVerdict c v rule) := by
  unfold State.refVerdict
  extract_lets e p
  have sent : ((s.ringQueue 128 0x46 p).ringQueue 129 0x46 p).twin = s.twin :=
    (ringQueue_keeps (M := 65536) (by decide) (ringQueue_keeps (by decide) (.refl _ s))).twin (by decide)
  refine ⟨s.twin.refCases.filter fun x => x ≠ c, ?_⟩
  rw [updTwin_twin, sent]

theorem refJudge_casesOnly (n : Nat) (s : State) : s.CasesOnly (State.refJudge n s) := by
  induction n generalizing s with
  | zero => exact .refl s
  | succ n ih =>
    have judged (c : RefereeCase) (v rule : Nat) : s.CasesOnly (State.refJudge n (s.refVerdict c v rule)) :=
      (refVerdict_casesOnly s c v rule).trans (ih _)
    rw [State.refJudge]
    split
    · exact .refl s
    · rename_i c r cases_
      split
      · exact State.CasesOnly.trans ⟨r, rfl⟩ (ih _)
      dsimp only
      split
      · exact judged c _ 1
      split
      · split
        · exact judged c _ 2
        split
        · exact judged c _ 4
        · exact .refl s
      · exact .refl s

theorem refGo_casesOnly (s : State) : s.CasesOnly s.refGo := refJudge_casesOnly _ s

/-- A case that has just come, of two units without a failed check, waits. -/
theorem refGo_waits {s : State} {c : RefereeCase} (alone : s.twin.refCases = [c]) (now : c.at_ = s.mono) (claimless : c.claimA = none)
    (first : (s.rnode c.nodes.1).failed = none) (second : (s.rnode c.nodes.2).failed = none) : s.refGo = s := by
  have early : s.elapsed c.at_ (us 500) = false := by
    rw [State.elapsed, now, decide_eq_false]
    exact Nat.not_le.2 (Nat.lt_add_of_pos_right (by decide))
  have sound : s.refSick c.nodes.1 c.at_ = false ∧ s.refSick c.nodes.2 c.at_ = false := by
    rw [State.refSick, first, State.refSick, second]
    exact ⟨rfl, rfl⟩
  rw [State.refGo, alone, List.length_singleton, State.refJudge]
  split
  · rfl
  · rename_i d r cases_
    obtain ⟨rfl, -⟩ := List.cons.inj (alone.symm.trans cases_)
    rw [if_neg (ne_true_of_eq_false early), sound.1, sound.2, claimless]
    rfl

/-! ### REQUEST, CLAIM, EVIDENCE, CANCEL (R389, R392, R414) -/

/-- What names a block to a referee. -/
def caseKey (p : BitVec 96) : Nat × Nat × Nat × Nat :=
  (pbits p 95 91, pbits p 63 60, pbits p 59 48, if pbits p 63 60 = 3 then pbits p 45 32 else 0)

/-- A block noted as seen. -/
def State.refNoted (s : State) (p : BitVec 96) : State :=
  if pbits p 63 60 = 3 then s else s.updRing fun r => { r with refSeen := (caseKey p :: r.refSeen).take 64 }

/-- The case a REQUEST puts. -/
def refAsked (p : BitVec 96) (at_ : Nat) : RefereeCase :=
  { head := pbits p 42 40, num := pbits p 59 48, nodes := (2 * pbits p 42 40 + (1 - pbits p 95 91 % 2), pbits p 95 91), at_ }

/-- What a CLAIM says. -/
def refClaimed (p : BitVec 96) : RefClaim :=
  { reproduced := decide (pbits p 47 47 = 1), chunks := pbits p 46 32, dig := pbits p 31 0 }

/-- A chunk of evidence. -/
def refEvidence (p : BitVec 96) (c : RefereeCase) : RefereeCase := { c with evidence := c.evidence.set (pbits p 45 32) (pbits p 31 0) }

/-- A claim of a case. -/
def refClaims (p : BitVec 96) (c : RefereeCase) : RefereeCase :=
  if c.nodes.1 = pbits p 95 91 then { c with claimA := some (refClaimed p) } else { c with claimS := some (refClaimed p) }

theorem refereeTake_eq (s : State) (p : BitVec 96) : s.refereeTake p =
    if s.ring.refSeen.contains (caseKey p) then s
    else if pbits p 63 60 = 1 then
      if bit (s.p0 0x0D03) (pbits p 42 40) then
        ((s.refNoted p).updTwin fun t => { t with refCases := t.refCases ++ [refAsked p s.mono] }).refGo
      else s.refNoted p
    else if pbits p 63 60 = 2 then ((s.refNoted p).modCase (pbits p 95 91) (pbits p 59 48) (refClaims p)).refGo
    else if pbits p 63 60 = 3 then (s.refNoted p).modCase (pbits p 95 91) (pbits p 59 48) (refEvidence p)
    else if pbits p 63 60 = 5 then
      ((s.refNoted p).updTwin fun t => { t with refCases := t.refCases.filter fun c => !(c.head == pbits p 42 40 && c.num == pbits p 59 48) }).refGo
    else s.refNoted p := rfl

theorem refNoted_twin (s : State) (p : BitVec 96) : (s.refNoted p).twin = s.twin := by
  rw [State.refNoted]
  split <;> rfl

theorem refereeTake_casesOnly (s : State) (p : BitVec 96) : s.CasesOnly (s.refereeTake p) := by
  have noted : s.CasesOnly (s.refNoted p) := ⟨s.twin.refCases, refNoted_twin s p⟩
  have changed (src num : Nat) (f : RefereeCase → RefereeCase) : s.CasesOnly ((s.refNoted p).modCase src num f) := noted.trans ⟨_, rfl⟩
  rw [refereeTake_eq]
  split
  · exact .refl s
  split
  · split
    · exact (noted.trans ⟨_, rfl⟩).trans (refGo_casesOnly _)
    · exact noted
  split
  · exact (changed ..).trans (refGo_casesOnly _)
  split
  · exact changed ..
  split
  · exact (noted.trans ⟨_, rfl⟩).trans (refGo_casesOnly _)
  · exact noted

/-- A block of another kind than EVIDENCE is marked as seen. -/
theorem refereeTake_seen {s : State} {p : BitVec 96} (kind : pbits p 63 60 ≠ 3) : caseKey p ∈ (s.refereeTake p).ring.refSeen := by
  have noted : caseKey p ∈ (s.refNoted p).ring.refSeen := by
    rw [State.refNoted, if_neg kind, updRing_ring]
    exact List.mem_cons_self
  have gone (t : State) : t.refGo.ring = t.ring := (refGo_keeps (M := 67584) (by decide) (.refl _ t)).ring (by decide)
  rw [refereeTake_eq]
  split
  · rename_i seen
    exact List.contains_iff_mem.1 seen
  split
  · split
    · rw [gone]; exact noted
    · exact noted
  split
  · rw [gone]; exact noted
  split
  · rw [gone]; exact noted
  · exact noted

section
variable {s : State} {p : BitVec 96}

theorem refereeTake_request (new : caseKey p ∉ s.ring.refSeen) (kind : pbits p 63 60 = 1) : s.refereeTake p =
    if bit (s.p0 0x0D03) (pbits p 42 40) then
      ((s.refNoted p).updTwin fun t => { t with refCases := t.refCases ++ [refAsked p s.mono] }).refGo
    else s.refNoted p := by
  rw [refereeTake_eq, if_neg (fun seen => new (List.contains_iff_mem.1 seen)), if_pos kind]

theorem refereeTake_evidence (new : caseKey p ∉ s.ring.refSeen) (kind : pbits p 63 60 = 3) :
    s.refereeTake p = s.modCase (pbits p 95 91) (pbits p 59 48) (refEvidence p) := by
  rw [refereeTake_eq, if_neg (fun seen => new (List.contains_iff_mem.1 seen)), if_neg (by omega), if_neg (by omega), if_pos kind, State.refNoted,
    if_pos kind]

theorem refereeTake_cancel (new : caseKey p ∉ s.ring.refSeen) (kind : pbits p 63 60 = 5) : s.refereeTake p =
    ((s.refNoted p).updTwin fun t => { t with refCases := t.refCases.filter fun c => !(c.head == pbits p 42 40 && c.num == pbits p 59 48) }).refGo := by
  rw [refereeTake_eq, if_neg (fun seen => new (List.contains_iff_mem.1 seen)), if_neg (by omega), if_neg (by omega), if_neg (by omega), if_pos kind]

end

/-! ### The rows of RING_REF_RX -/

theorem ringRefRx_run {s : State} {side : RingSide} {h : RxHeader} {p : BitVec 96} (receives : (s.lane (ringLane side)).st.receives = true)
    (kind : pbits p 63 60 ≠ 4) : exec (.ringRefRx side h p) s =
      (s.ringTake side h 0x46 p fun s => if s.twin.role = .referee then s.refereeTake p else s).done :=
  (if_pos receives).trans (congrArg State.done (if_neg kind))

theorem ringRefRx_takes {s : State} {side : RingSide} {p : BitVec 96} (takes : s.RingTakes side p) (h : RxHeader) (kind : pbits p 63 60 ≠ 4) :
    ∃ u, s.RingCame u (pbits p 95 91) (pbits p 79 64) ∧
      exec (.ringRefRx side h p) s = (if s.twin.role = .referee then u.refereeTake p else u).done := by
  obtain ⟨u, came, run⟩ := ringTake_takes takes h 0x46 fun s => if s.twin.role = .referee then s.refereeTake p else s
  refine ⟨u, came, (ringRefRx_run takes.receives kind).trans (congrArg State.done (run.trans ?_))⟩
  exact if_congr (by rw [came.heard.twin]) rfl rfl

theorem ringRefRx_stale {s : State} {side : RingSide} {p : BitVec 96} (receives : (s.lane (ringLane side)).st.receives = true)
    (stale : s.ringStale p = true) (h : RxHeader) (kind : pbits p 63 60 ≠ 4) : Lands (exec (.ringRefRx side h p) s) (Only rxParts s) :=
  ⟨_, (ringRefRx_run receives kind).trans (congrArg State.done (ringTake_stale stale side h ..)),
    only_of (bump_keeps (by decide) (ringPassed_keeps s side h 0x46 p))⟩

theorem ringRefRx_other {s : State} {side : RingSide} {p : BitVec 96} (takes : s.RingTakes side p) (h : RxHeader) (kind : pbits p 63 60 ≠ 4)
    (other : s.twin.role ≠ .referee) : Lands (exec (.ringRefRx side h p) s) (Only (.ring :: rxParts) s) := by
  obtain ⟨u, came, run⟩ := ringRefRx_takes takes h kind
  rw [if_neg other] at run
  exact ⟨u, run, only_of (l := .ring :: rxParts) came.heard.keeps⟩

/-- What a referee does with a case's blocks. -/
theorem ringRefRx_referee {s : State} {side : RingSide} {p : BitVec 96} (takes : s.RingTakes side p) (h : RxHeader) (kind : pbits p 63 60 ≠ 4)
    (role : s.twin.role = .referee) : Lands (exec (.ringRefRx side h p) s) fun e =>
      let head := pbits p 42 40
      let num := pbits p 59 48
      let src := pbits p 95 91
      Only (.twin :: .ring :: rxParts) s e ∧ (e.twin.role = s.twin.role ∧ e.twin.epoch = s.twin.epoch) ∧
      (pbits p 63 60 ≠ 3 → (src, pbits p 63 60, num, 0) ∉ s.ring.refSeen →
        (src, pbits p 63 60, num, 0) ∈ e.ring.refSeen ∧
        (pbits p 63 60 = 1 → bit (s.p0 0x0D03) head = true → s.twin.refCases = [] → (s.rnode src).failed = none →
          (s.rnode (2 * head + (1 - src % 2))).failed = none → e.twin.refCases = [refAsked p s.mono]) ∧
        (pbits p 63 60 = 1 → bit (s.p0 0x0D03) head = false → e.twin.refCases = s.twin.refCases) ∧
        (pbits p 63 60 = 5 → ∀ c ∈ e.twin.refCases, c.head ≠ head ∨ c.num ≠ num)) ∧
      (pbits p 63 60 = 3 → (src, pbits p 63 60, num, pbits p 45 32) ∉ s.ring.refSeen → e.twin.refCases = s.twin.refCases.map fun c =>
        if c.num = num ∧ (c.nodes.1 = src ∨ c.nodes.2 = src) then refEvidence p c else c) := by
  obtain ⟨u, came, run⟩ := ringRefRx_takes takes h kind
  rw [if_pos role] at run
  have heard := came.heard
  obtain ⟨cs, cases_⟩ := refereeTake_casesOnly u p
  have refers := refereeTake_keeps (M := 2164736) (a1 := p) (by decide) (.refl _ u)
  refine ⟨_, run, only_of (l := .twin :: .ring :: rxParts) ((heard.keeps.weaken (by decide)).trans (refers.weaken (by decide))), ?_,
    fun other new => ?_, fun evidence new => ?_⟩
  · rw [cases_, heard.twin]
    exact ⟨rfl, rfl⟩
  · have key : caseKey p = (pbits p 95 91, pbits p 63 60, pbits p 59 48, 0) := by rw [caseKey, if_neg other]
    rw [← key, ← came.refSeen] at new
    refine ⟨by rw [← key]; exact refereeTake_seen other, fun asks served none_ first second => ?_, fun asks unserved => ?_, fun cancels c mem => ?_⟩
    · rw [refereeTake_request new asks, if_pos (by rw [p0_congr heard.eff]; exact served)]
      have twin : (u.refNoted p).twin.refCases = [] := by rw [refNoted_twin, heard.twin, none_]
      have node (n : Nat) : ((u.refNoted p).rnode n).failed = (s.rnode n).failed := by
        have same : (u.refNoted p).rnode n = u.rnode n := by
          rw [State.refNoted]
          split <;> rfl
        rw [same]
        by_cases own : n = pbits p 95 91
        · rw [own, came.own]
        · rw [came.other n own]
      have mono : (u.refNoted p).mono = u.mono := by
        rw [State.refNoted]
        split <;> rfl
      generalize u.refNoted p = v at *
      have alone : (v.updTwin fun t => { t with refCases := t.refCases ++ [refAsked p u.mono] }).twin.refCases = [refAsked p u.mono] := by
        rw [updTwin_twin]
        dsimp only
        rw [twin, List.nil_append]
      rw [refGo_waits alone mono.symm rfl ((node _).trans second) ((node _).trans first), alone, heard.mono]
    · rw [refereeTake_request new asks, if_neg (by rw [p0_congr heard.eff, unserved]; decide), refNoted_twin, heard.twin]
    · rw [refereeTake_cancel new cancels] at mem
      have still := (refJudge_spec _ _).1 c mem
      rw [updTwin_twin] at still
      have kept := (List.mem_filter.1 still).2
      rw [Bool.not_eq_true', Bool.and_eq_false_iff, beq_eq_false_iff_ne, beq_eq_false_iff_ne] at kept
      exact kept
  · have key : caseKey p = (pbits p 95 91, pbits p 63 60, pbits p 59 48, pbits p 45 32) := by rw [caseKey, if_pos evidence]
    rw [← key, ← came.refSeen] at new
    rw [refereeTake_evidence new evidence, State.modCase, updTwin_twin, heard.twin]

/-! ### Verdicts (R386, R391, R414) -/

/-- A verdict of node 16 for this head. -/
abbrev State.verdictOurs (s : State) (p : BitVec 96) : Prop := pbits p 95 91 = 16 ∧ pbits p 42 40 = s.headId ∧ pbits p 47 46 ≠ 0

/-- A verdict of a later epoch at the active. -/
abbrev State.verdictSplits (s : State) (p : BitVec 96) : Prop := s.twin.role = .active ∧ 0 < sdiff 16 (pbits p 79 64) s.twin.epoch

/-- A verdict of the case that is open. -/
abbrev State.verdictNames (s : State) (p : BitVec 96) : Prop :=
  s.twin.caseOpen = true ∧ s.refMode = 1 ∧ pbits p 59 48 = s.twin.case.j % 4096 ∧ 0 ≤ sdiff 16 (pbits p 79 64) s.twin.epoch

theorem verdictTake_eq (s : State) (p : BitVec 96) : s.verdictTake p =
    if s.verdictOurs p ∧ s.verdictSplits p then s.splitSeen (pbits p 79 64)
    else if s.verdictOurs p ∧ s.verdictNames p then s.verdict (pbits p 47 46) (pbits p 45 43) else s := by
  rw [State.verdictTake]
  refine if_congr ?_ rfl (if_congr ?_ rfl rfl)
  · exact ⟨fun ⟨src, head, role, later, v⟩ => ⟨⟨src, head, v⟩, role, later⟩, fun ⟨⟨src, head, v⟩, role, later⟩ => ⟨src, head, role, later, v⟩⟩
  · exact ⟨fun ⟨src, head, open_, mode, num, epoch, v⟩ => ⟨⟨src, head, v⟩, open_, mode, num, epoch⟩,
      fun ⟨⟨src, head, v⟩, open_, mode, num, epoch⟩ => ⟨src, head, open_, mode, num, epoch, v⟩⟩

theorem ringRefRx_verdict {s : State} {side : RingSide} {h : RxHeader} {p : BitVec 96} (receives : (s.lane (ringLane side)).st.receives = true)
    (kind : pbits p 63 60 = 4) : ∃ w, s.RingHeard w ∧ Keeps 82112 s w ∧ w.faults.firings = s.faults.firings ∧ exec (.ringRefRx side h p) s =
      (if s.verdictOurs p ∧ s.verdictSplits p then w.splitSeen (pbits p 79 64)
        else if s.verdictOurs p ∧ s.verdictNames p then w.verdict (pbits p 47 46) (pbits p 45 43) else w).done := by
  have heard := ringPassed_heard s side h 0x46 p
  refine ⟨s.ringPassed side h 0x46 p, heard, ringPassed_keeps .., ringPassed_firings .., ?_⟩
  have run : exec (.ringRefRx side h p) s = ((s.ringPassed side h 0x46 p).verdictTake p).done :=
    (if_pos receives).trans (congrArg State.done (if_pos kind))
  rw [run, verdictTake_eq]
  generalize s.ringPassed side h 0x46 p = w at *
  have head : w.headId = s.headId := by rw [State.headId, pu_congr heard.eff]; rfl
  have mode : w.refMode = s.refMode := by rw [State.refMode, pu_congr heard.eff]; rfl
  refine congrArg State.done (if_congr ?_ rfl (if_congr ?_ rfl rfl))
  · rw [State.verdictOurs, head, State.verdictSplits, heard.twin]
  · rw [State.verdictOurs, head, State.verdictNames, mode, heard.twin]

theorem ringRefRx_split {s : State} {side : RingSide} {h : RxHeader} {p : BitVec 96} (receives : (s.lane (ringLane side)).st.receives = true)
    (kind : pbits p 63 60 = 4) (ours : s.verdictOurs p) (splits : s.verdictSplits p)
    (unplanned : ¬(s.twin.handoverUntil.isSome = true ∧ pbits p 79 64 = s.nextEpoch)) : Lands (exec (.ringRefRx side h p) s) fun e =>
      Only (.twin :: ([.todo, .hatch, .notif, .pantry, .ring] ++ rxParts)) s e ∧ e.twin.role = .maint ∧ e.twin.epoch = pbits p 79 64 ∧
        s.Fired e 0x48 := by
  obtain ⟨w, heard, kept, firings, run⟩ := ringRefRx_verdict receives kind (h := h)
  rw [if_pos ⟨ours, splits⟩] at run
  have seen : Keeps 92408 w (w.splitSeen (pbits p 79 64)) := splitSeen_keeps (by decide) (.refl _ _)
  obtain ⟨role, epoch, fires⟩ := splitSeen_acts (s := w) (pbits_lt p 79 64) (by rw [heard.twin]; exact splits.1)
    (by rw [State.nextEpoch, heard.twin]; exact unplanned)
  exact ⟨_, run, only_of (l := .twin :: ([.todo, .hatch, .notif, .pantry, .ring] ++ rxParts))
    ((kept.weaken (by decide)).trans (seen.weaken (by decide))), role, epoch, fires.from firings⟩

theorem ringRefRx_case {s : State} {side : RingSide} {h : RxHeader} {p : BitVec 96} (receives : (s.lane (ringLane side)).st.receives = true)
    (kind : pbits p 63 60 = 4) (ours : s.verdictOurs p) (whole : ¬s.verdictSplits p) (names : s.verdictNames p) :
    Lands (exec (.ringRefRx side h p) s) fun e =>
      Only ([.freeCount, .time, .twin, .mod, .prot, .dt] ++ ([.todo, .hatch, .notif, .pantry, .ring] ++ rxParts)) s e ∧ e.twin.caseOpen = false ∧
      e.twin.case.verdict = pbits p 47 46 ∧ e.twin.case.rule = pbits p 45 43 ∧
      e.twin.role = (if s.twin.role = .active then (if pbits p 47 46 = 2 then .maint else .active)
        else if s.twin.role = .standby then (if pbits p 47 46 = 2 then .active else .maint) else s.twin.role) := by
  obtain ⟨w, heard, kept, -, run⟩ := ringRefRx_verdict receives kind (h := h)
  rw [if_neg fun both => whole both.2, if_pos ⟨ours, names⟩] at run
  have judged : Keeps 3107580 w (w.verdict (pbits p 47 46) (pbits p 45 43)) := verdict_keeps (by decide) (.refl _ w)
  obtain ⟨closed, -, verdict, rule, -, role, -⟩ := verdict_spec (s := w) (by rw [heard.twin]; exact names.1) (pbits p 47 46) (pbits p 45 43)
  rw [heard.twin] at role
  exact ⟨_, run, only_of (l := [.freeCount, .time, .twin, .mod, .prot, .dt] ++ ([.todo, .hatch, .notif, .pantry, .ring] ++ rxParts))
    ((kept.weaken (by decide)).trans (judged.weaken (by decide))), closed, verdict, rule, role⟩

theorem ringRefRx_foreign {s : State} {side : RingSide} {h : RxHeader} {p : BitVec 96} (receives : (s.lane (ringLane side)).st.receives = true)
    (kind : pbits p 63 60 = 4) (foreign : ¬s.verdictOurs p ∨ ¬s.verdictSplits p ∧ ¬s.verdictNames p) :
    Lands (exec (.ringRefRx side h p) s) (Only rxParts s) := by
  obtain ⟨w, -, kept, -, run⟩ := ringRefRx_verdict receives kind (h := h)
  rw [if_neg fun both => foreign.elim (· both.1) (·.1 both.2), if_neg fun both => foreign.elim (· both.1) (·.2 both.2)] at run
  exact ⟨w, run, only_of kept⟩

end Sys2Proof.Machine
end

section
/-!
PROOFS. The blocks of the ring (O40): the census is sent and runs out (R392, R406, R410); the obligation is settled.
-/

namespace Sys2Proof.Machine

open Host

/-! ### The conditions that are present are not a firing's to change -/

theorem fireNote_present (s : State) (src inst : Nat) (t : Option Nat) (f r : Nat) (args : Bytes) (log : Bool) :
    (s.faultPin.fireNote src inst t f r args log).faults.present = s.faults.present := by
  have pin : s.faultPin.faults.present = s.faults.present := by
    unfold State.faultPin
    dsimp only
    split
    · rfl
    · obtain ⟨m, k, e⟩ := irqSince_eq s
        ((s.updFaults fun f => { f with pinLow := s.faults.pinWanted }).updHatch fun h => { h with faultPinChanged := true })
      rw [e]
      rfl
  have noted (u : State) : (u.fireNote src inst t f r args log).faults.present = u.faults.present := by
    unfold State.fireNote
    dsimp only
    rw [State.attic, updFaults_faults, (note_keeps (M := 8304) (by decide) (Keeps.refl _ _)).faults (by decide)]
  rw [noted, pin]

theorem react_present (s : State) (r src inst rec_ : Nat) : (s.react r src inst rec_).faults.present = s.faults.present := by
  unfold State.react
  dsimp only
  repeat' split
  all_goals rfl

theorem fireMerge_present (s : State) (r : FaultRec) (c : Bool) (src inst react : Nat) (pin inj : Bool) (args : Bytes) (log : Bool) :
    (s.fireMerge r c src inst react pin inj args log).faults.present = s.faults.present := by
  unfold State.fireMerge
  extract_lets full esc taken r' s1 s2 s3
  have noted : s3.faults.present = s.faults.present := by
    refine (fireNote_present s2 src inst taken _ r.id args log).trans ?_
    simp only [s2]
    split <;> rfl
  cases taken with
  | none => exact noted
  | some c => exact (react_present s3 c src inst r.id).trans noted

theorem fireOpen_present (s : State) (src inst react : Nat) (pin inj : Bool) (args : Bytes) (log : Bool) :
    (s.fireOpen src inst react pin inj args log).faults.present = s.faults.present := by
  unfold State.fireOpen
  split <;> dsimp only <;> rw [react_present, fireNote_present] <;> rfl

theorem fire_present (s : State) (src inst : Nat) (args : Bytes) : (s.fire src inst args).faults.present = s.faults.present := by
  rw [State.fire, State.fireWith]
  split
  · rfl
  · extract_lets conf pin react s1
    have started : s1.faults.present = s.faults.present := rfl
    clear_value s1
    split
    · rw [fireMerge_present, started]
    · split
      · rw [fireOpen_present, started]
      · rw [← started, State.fireNote, State.attic, updFaults_faults, (note_keeps (M := 8304) (by decide) (Keeps.refl _ _)).faults (by decide)]

/-- A condition that is entered leaves the others as they were. -/
theorem condOn_absent {s : State} {x : Present} (absent : s.faults.present.contains x = false) {src inst sub : Nat} (other : x.src ≠ src)
    (args : Bytes) : (s.condOn src inst sub args).faults.present.contains x = false := by
  rw [State.condOn]
  split
  · exact absent
  · rw [fire_present, updFaults_faults]
    rw [Bool.eq_false_iff, ne_eq, List.contains_iff_mem] at absent ⊢
    intro mem
    rcases List.mem_append.1 mem with old | new
    · exact absent old
    · exact other (congrArg Present.src (List.mem_singleton.1 new))

/-! ### The census (R392, R406, R410) -/

theorem censusPeriod_lands {s : State} (on : s.ringEn = true) (due : s.ring.censusOwed = true ∨ s.ring.censusAt + 720000 ≤ s.mono) :
    Lands (exec .censusPeriod s) fun e =>
      Only [.links, .ring] s e ∧ e.ring = { s.ring with censusAt := s.mono, censusOwed := false } ∧
      ∀ l, l = 128 ∨ l = 129 → (e.lnk l).queue = if (s.lane l).st = .linked then (s.lnk l).queue ++
        [{ type := 0x41, payload := s.node * 2 ^ 91 + 31 * 2 ^ 86 + s.twin.epoch * 2 ^ 64 + (s.twin.role.code * 2 ^ 60 + b2n s.twin.qualified * 2 ^ 59 +
            b2n s.sys.syncAligned * 2 ^ 58 + s.headId * 2 ^ 55 + s.time.gen * 2 ^ 32 + s.p0 0x0D03 * 2 ^ 24 + s.ring.nonce) }]
        else (s.lnk l).queue := by
  have run : exec .censusPeriod s = s.censusSend.done := if_pos ⟨on, due.imp_right elapsed_of_le⟩
  have queue (l : Nat) := ringSend_queue s 0x41 allNodes (pf 60 s.roleCode + pf 59 (b2n s.twin.qualified) + pf 58 (b2n s.sys.syncAligned) +
    pf 55 s.headId + pf 32 s.time.gen + pf 24 (s.p0 0x0D03) + s.ring.nonce) (lane := l)
  have sends := ringSend_keeps (M := 65536) (a1 := 0x41) (a2 := allNodes) (a3 := pf 60 s.roleCode + pf 59 (b2n s.twin.qualified) +
    pf 58 (b2n s.sys.syncAligned) + pf 55 s.headId + pf 32 s.time.gen + pf 24 (s.p0 0x0D03) + s.ring.nonce) (by decide) (.refl _ s)
  refine ⟨_, run, only_of (censusSend_keeps (by decide) (.refl _ s)), ?_, fun l ring => ?_⟩
  · rw [State.censusSend, updRing_ring, sends.ring (by decide)]
  · refine (queue l (by rw [List.mem_pair]; exact ring)).trans (if_congr (by rw [and_iff_right on]) rfl rfl)

theorem censusNodeTimeout_early {s : State} {n : Fin 17} (early : (s.rnode n).present = false ∨ s.mono < (s.rnode n).at_ + 2400000) :
    exec (.censusNodeTimeout n) s = .next s :=
  if_neg fun ⟨present, due⟩ => early.elim (fun absent => Bool.noConfusion (present.symm.trans absent)) fun before =>
    absurd (of_decide_eq_true due) (Nat.not_le.2 before)

/-- A firing of another source leaves what has been fired. -/
theorem State.Unfired.fired {s t u : State} {src : Nat} (h : State.Unfired src s t) (k : State.Fired t u src) : s.Fired u src := by
  rw [State.Fired] at *
  rw [k, h]

theorem State.Fired.then {s t u : State} {src : Nat} (h : s.Fired t src) (k : State.Unfired src t u) : s.Fired u src := by
  rw [State.Fired] at *
  exact Eq.trans k h

/-- A referee that goes silent raises its own condition (R392). -/
def State.refereeLost (s : State) (n : Nat) : State :=
  if n = 16 ∧ s.refMode = 1 ∧ s.inPair = true then
    (s.modNode n fun x => { x with present := false }).condOn 0x4A noInst 0 []
  else s.modNode n fun x => { x with present := false }

theorem refereeLost_spec (s : State) (n : Nat) : Keeps 2105592 s (s.refereeLost n) ∧ (s.refereeLost n).rnode n = { s.rnode n with present := false } ∧
    (∀ m, m ≠ n → (s.refereeLost n).rnode m = s.rnode m) ∧ State.Unfired 0x50 s (s.refereeLost n) ∧
    (s.faults.present.contains { src := 0x50, inst := n, sub := 0 } = false →
      (s.refereeLost n).faults.present.contains { src := 0x50, inst := n, sub := 0 } = false) ∧
    (n = 16 ∧ s.refMode = 1 ∧ s.inPair = true → s.faults.present.contains { src := 0x4A, inst := noInst, sub := 0 } = false →
      s.Fired (s.refereeLost n) 0x4A) := by
  have gone : Keeps 2105592 s (s.modNode n fun x => { x with present := false }) := modNode_keeps (by decide) (.refl _ s)
  have own := rnode_modNode s n fun x => { x with present := false }
  have other (m : Nat) (out : m ≠ n) := rnode_modNode_ne s out fun x => { x with present := false }
  have faults : (s.modNode n fun x => { x with present := false }).faults = s.faults := rfl
  rw [State.refereeLost]
  generalize (s.modNode n fun x => { x with present := false }) = t at *
  by_cases referee : n = 16 ∧ s.refMode = 1 ∧ s.inPair = true
  · rw [if_pos referee]
    have fires := condOn_keeps (M := 8440) (a1 := 0x4A) (a2 := noInst) (a3 := 0) (a4 := []) (by decide) (.refl _ t)
    have node (m : Nat) : (t.condOn 0x4A noInst 0 []).rnode m = t.rnode m := by rw [State.rnode, fires.ring (by decide), State.rnode]
    have unfired : State.Unfired 0x50 t (t.condOn 0x4A noInst 0 []) := condOn_unfired (by decide) (by decide) _ _ _ _
    rw [State.Unfired, faults] at unfired
    refine ⟨gone.trans (fires.weaken (by decide)), (node n).trans own, fun m out => (node m).trans (other m out), unfired,
      fun absent => condOn_absent (by rw [faults, absent]) (show (80 : Nat) ≠ 74 by decide) [], fun _ absent => ?_⟩
    exact (condOn_fired t (by decide) (by rw [faults, absent]) []).from (by rw [faults])
  · rw [if_neg referee]
    exact ⟨gone, own, other, by rw [State.Unfired, faults], fun absent => by rw [faults, absent], fun h => absurd h referee⟩

/-- No census of a node for 300 µs. -/
theorem censusNodeTimeout_lands {s : State} {n : Fin 17} (present : (s.rnode n).present = true) (due : (s.rnode n).at_ + 2400000 ≤ s.mono) :
    Lands (exec (.censusNodeTimeout n) s) fun e =>
      Only [.todo, .hatch, .notif, .par, .faults, .pantry, .ring] s e ∧ e.rnode n = { s.rnode n with present := false } ∧
      (∀ m, m ≠ n.val → e.rnode m = s.rnode m) ∧
      (n.val ≠ s.node → s.faults.present.contains { src := 0x50, inst := n, sub := 0 } = false → s.Fired e 0x50) ∧
      (n.val = s.node → n.val ≠ 16 ∨ s.refMode ≠ 1 ∨ s.inPair = false → Only [.faults, .ring] s e ∧ e.faults.firings = s.faults.firings) ∧
      (n.val = 16 → s.refMode = 1 → s.inPair = true → s.faults.present.contains { src := 0x4A, inst := noInst, sub := 0 } = false →
        s.Fired e 0x4A) := by
  have run : exec (.censusNodeTimeout n) s = (if n.val = s.node then (s.refereeLost n).condOffInst 0x51 n
      else (s.refereeLost n).condOn 0x50 n 0 []).done := by
    refine (if_pos ⟨present, elapsed_of_le due⟩).trans ?_
    split <;> rfl
  obtain ⟨kept, own, other, unfired, absent, lost⟩ := refereeLost_spec s n
  by_cases here : n.val = s.node
  · rw [if_pos here] at run
    refine ⟨_, run, only_of (condOffInst_keeps (by decide) kept), own, other, fun foreign => absurd here foreign, fun _ none_ => ?_,
      fun node mode pair none_ => lost ⟨node, mode, pair⟩ none_⟩
    have quiet : s.refereeLost n = s.modNode n fun x => { x with present := false } := if_neg fun ⟨node, mode, pair⟩ =>
      none_.elim (· node) fun h => h.elim (· mode) fun off => Bool.noConfusion (pair.symm.trans off)
    rw [quiet]
    exact ⟨only_of (condOffInst_keeps (by decide) (modNode_keeps (by decide) (.refl _ s))), rfl⟩
  · rw [if_neg here] at run
    have fires := condOn_keeps (M := 8440) (a1 := 0x50) (a2 := n.val) (a3 := 0) (a4 := []) (by decide) (.refl _ (s.refereeLost n))
    have node (m : Nat) : ((s.refereeLost n).condOn 0x50 n 0 []).rnode m = (s.refereeLost n).rnode m := by
      rw [State.rnode, fires.ring (by decide), State.rnode]
    refine ⟨_, run, only_of (condOn_keeps (by decide) kept), (node n).trans own, fun m out => (node m).trans (other m out),
      fun _ none_ => unfired.fired (condOn_fired _ (by decide) (absent none_) []), fun same => absurd same here, fun node mode pair none_ =>
        (lost ⟨node, mode, pair⟩ none_).then (condOn_unfired (by decide) (by decide) _ _ _ _)⟩

/-! ### The obligation -/

/-- A ring block of an old epoch. -/
theorem ringRx_stale {s : State} {side : RingSide} {p : BitVec 96} (receives : (s.lane (ringLane side)).st.receives = true)
    (stale : s.ringStale p = true) (h : RxHeader) :
    ∀ c ∈ [Instr.ringSummaryRx side h p, .ringWriteRx side h p .idle, .ringHealthRx side h p], Lands (exec c s) (Only rxParts s) := by
  intro c mem
  rcases List.mem_cons.1 mem with rfl | mem
  · exact staleRow_lands receives stale h 0x42 _
  rcases List.mem_cons.1 mem with rfl | mem
  · exact staleRow_lands receives stale h 0x43 _
  · obtain rfl := List.mem_singleton.1 mem
    exact staleRow_lands receives stale h 0x45 _

/-- Settles O40, row by row. -/
theorem ringBlocks : Obligations.RingBlocks := by
  refine ⟨fun side h p s => ⟨fun receives stale => ⟨ringRx_stale receives stale h, ringCensusRx_stale receives stale h,
    ringRefRx_stale receives stale h⟩, ringCensusRx_takes, ringCensusRx_own, ringSummaryRx_lands, ringWriteRx_lands, ringHealthRx_lands,
    fun kind takes other => ringRefRx_other takes h kind other, fun kind takes role => ?_, fun kind ours split unplanned => ?_,
    fun kind ours split case_ mode num epoch => ?_, fun kind receives foreign => ?_⟩, fun s => ⟨censusPeriod_lands, fun n => censusNodeTimeout_lands,
    fun n => censusNodeTimeout_early⟩⟩
  · exact ringRefRx_referee takes h kind role
  · obtain ⟨receives, src, head, v⟩ := ours
    exact ringRefRx_split receives kind ⟨src, head, v⟩ split unplanned
  · obtain ⟨receives, src, head, v⟩ := ours
    exact ringRefRx_case receives kind ⟨src, head, v⟩ split ⟨case_, mode, num, epoch⟩
  · refine ringRefRx_foreign receives kind (foreign.imp (fun out ours => out ⟨receives, ours⟩) fun ⟨whole, out⟩ => ⟨whole, fun names => ?_⟩)
    obtain ⟨case_, mode, num, epoch⟩ := names
    rcases out with closed | other | another | old
    · exact Bool.noConfusion (case_.symm.trans closed)
    · exact other mode
    · exact another num
    · exact absurd epoch (Int.not_le.2 old)

end Sys2Proof.Machine
end

section
/-!
PROOFS. The times of a twin (O37): the link, and the records of comparison (R367, R371, R375, R382, R385).
-/

namespace Sys2Proof.Machine

open Host

/-! ### The link's condition (R385) -/

theorem twinLinkWatch_twin (s : State) : s.twinLinkWatch.twin = s.twin :=
  (twinLinkWatch_keeps (M := 8440) (by decide) (.refl _ s)).twin (by decide)

theorem twinLinkWatch_dead {s : State} (dead : s.twin.peerAlive = false) : s.twinLinkWatch = s.condOff 0x47 noInst 0 := by
  rw [State.twinLinkWatch, dead, Bool.and_false, Bool.false_and, State.cond]
  exact if_neg Bool.false_ne_true

theorem cond_unfired {n src : Nat} (other : n ≠ src) (known : (faultSource src).isSome) (s : State) (on : Bool) (inst sub : Nat) (args : Bytes) :
    State.Unfired n s (s.cond on src inst sub args) := by
  rw [State.cond]
  exact ite_unfired (fun _ => condOn_unfired other known s inst sub args) fun _ => rfl

theorem twinLinkWatch_unfired {n : Nat} (other : n ≠ 0x47) (s : State) : State.Unfired n s s.twinLinkWatch :=
  cond_unfired other (by decide) ..

theorem peerAliveTimeout_lands {s : State} (alive : s.twin.peerAlive = true) (due : s.twin.aliveAt + 160000 ≤ s.mono) :
    Lands (exec .peerAliveTimeout s) fun e => Only [.twin, .faults] s e ∧ e.twin = { s.twin with peerAlive := false } := by
  have run : exec .peerAliveTimeout s = ((s.updTwin fun t => { t with peerAlive := false }).twinLinkWatch).done :=
    if_pos ⟨alive, elapsed_of_le due⟩
  rw [twinLinkWatch_dead (by rfl)] at run
  exact ⟨_, run, only_of (condOff_keeps (by decide) (updTwin_keeps (by decide) (.refl _ s))), rfl⟩

theorem twinAliveInEdge_lands (s : State) : Lands (exec .twinAliveInEdge s) fun e =>
    Only [.todo, .hatch, .notif, .par, .faults, .twin, .pantry] s e ∧ e.twin = { s.twin with peerAlive := true, aliveAt := s.mono } :=
  ⟨_, rfl, only_of (twinLinkWatch_keeps (by decide) (updTwin_keeps (by decide) (.refl _ s))), twinLinkWatch_twin _⟩

theorem twinStreamLost_lands {s : State} (on : s.twinEn = true) (heard : s.twin.streamLost = false) (due : s.twin.rxAt + 16000 ≤ s.mono) :
    Lands (exec .twinStreamLost s) fun e => Only [.time, .ring, .todo, .hatch, .notif, .par, .faults, .twin, .pantry] s e ∧
      e.twin = { s.twin with streamLost := true, rxSeq := none } := by
  refine ⟨_, if_pos ⟨on, heard, elapsed_of_le due⟩, only_of (timeRefresh_keeps (by decide) (twinLinkWatch_keeps (by decide)
    (updTwin_keeps (by decide) (.refl _ s)))), ?_⟩
  rw [(timeRefresh_keeps (M := 2 ^ 28 - 1 - 2048) (by decide) (.refl _ _)).twin (by decide), twinLinkWatch_twin]
  rfl

/-! ### What a comparison leaves of the role (R375 to R377) -/

/-- The role, its epoch and the period whose record was due stay. -/
structure Twin.Steady (t u : Twin) : Prop where
  /-- The role. -/
  role : u.role = t.role
  /-- Its epoch. -/
  epoch : u.epoch = t.epoch
  /-- The period. -/
  dueJ : u.dueJ = t.dueJ

theorem Twin.Steady.refl (t : Twin) : t.Steady t := ⟨rfl, rfl, rfl⟩

theorem Twin.Steady.trans {t u v : Twin} (h : t.Steady u) (k : u.Steady v) : t.Steady v :=
  ⟨k.role.trans h.role, k.epoch.trans h.epoch, k.dueJ.trans h.dueJ⟩

theorem Keeps.steady {M : Nat} {s t : State} (h : Keeps M s t) (twin : M.testBit 11 = false) : s.twin.Steady t.twin := by
  rw [h.twin twin]
  exact .refl _

theorem unqualify_twin (s : State) : s.unqualify.twin = if s.twin.role = .standby ∧ s.twin.qualified = true then
    { s.twin with qualified := false, qualifyDone := false, healthOwed := true, roleOwed := false } else s.twin := by
  rw [State.unqualify]
  split
  · rw [State.twRole, updTwin_twin, (twinSend_keeps (M := 65536) (by decide) (.refl _ _)).twin (by decide),
      (haltCells_keeps (M := 81928) (by decide) (.refl _ _)).twin (by decide)]
    rfl
  · rfl

theorem unqualify_steady (s : State) : s.twin.Steady s.unqualify.twin := by
  rw [unqualify_twin]
  split
  · exact ⟨rfl, rfl, rfl⟩
  · exact .refl _

theorem twCase_twin (s : State) (code verdict j : Nat) : (s.twCase code verdict j).twin = s.twin :=
  (twinSend_keeps (M := 65536) (by decide) (.refl _ s)).twin (by decide)

theorem fire_twin (s : State) (src inst : Nat) (args : Bytes) : (s.fire src inst args).twin = s.twin :=
  (fire_keeps (M := 8440) (by decide) (.refl _ s)).twin (by decide)

theorem bump_twin (s : State) (id inst field : Nat) : (s.bump id inst field).twin = s.twin := rfl

theorem cond_twin (s : State) (on : Bool) (src inst sub : Nat) (args : Bytes) : (s.cond on src inst sub args).twin = s.twin :=
  (cond_keeps (M := 8440) (by decide) (.refl _ s)).twin (by decide)

theorem inputDiff_steady (s : State) (j : Nat) : s.twin.Steady (s.inputDiff j).twin := by
  unfold State.inputDiff
  extract_lets sec n raised go s1 s2
  have sent : s.twin.Steady s2.twin := by
    simp only [s2, s1, bump_twin, twCase_twin]
    exact ⟨rfl, rfl, rfl⟩
  split
  · rw [fire_twin]
    exact sent
  · exact sent

theorem caseOpen_steady (s : State) (c : TwinCase) : s.twin.Steady (s.caseOpen c).twin := by
  unfold State.caseOpen
  extract_lets s1 s2 absent s3
  have noted : s.twin.Steady s2.twin := by
    simp only [s2, s1]
    rw [(note_keeps (M := 8304) (by decide) (.refl _ _)).twin (by decide), bump_twin]
    exact ⟨rfl, rfl, rfl⟩
  split
  · have watched : s.twin.Steady s3.twin := by
      simp only [s3]
      rw [cond_twin]
      exact noted
    split
    · rw [(ringSend_keeps (M := 65536) (by decide) (.refl _ s3)).twin (by decide)]
      exact watched
    · exact watched
  · exact noted

theorem classify_steady (s : State) (d : Digests) (a : Nat × Nat × Nat) (b : Nat × Nat × Nat × Nat) : s.twin.Steady (s.classify d a b).twin := by
  unfold State.classify
  extract_lets s0 outEq edgeEq stateEq prevEq s1
  have judged : s.twin.Steady s1.twin := ⟨rfl, rfl, rfl⟩
  have started : s.twin.Steady s0.twin := ⟨rfl, rfl, rfl⟩
  clear_value s1
  split
  · exact started
  split
  · have fired : s.twin.Steady ((s1.bump 0x0D05 noInst 2).fire 0x40 noInst (leBytes 4 d.j)).twin := by
      rw [fire_twin, bump_twin]
      exact judged
    exact fired.trans (unqualify_steady _)
  split
  · exact judged.trans (inputDiff_steady s1 d.j)
  split
  · exact judged
  split
  · refine Twin.Steady.trans ?_ (caseOpen_steady _ _)
    rw [twCase_twin, bump_twin]
    exact judged
  · exact judged.trans (inputDiff_steady s1 d.j)

theorem classifyReady_steady (s : State) : s.twin.Steady s.classifyReady.twin := by
  unfold State.classifyReady
  split
  · split
    · split
      · exact classify_steady ..
      · exact .refl _
    · exact .refl _
  · exact .refl _

theorem classifyReady_waits {s : State} (missing : s.twin.rxA = none ∨ s.twin.rxB = none) : s.classifyReady = s := by
  unfold State.classifyReady
  split
  · rename_i a b first second
    rcases missing with none_ | none_
    · exact absurd (first.symm.trans none_) (nomatch ·)
    · exact absurd (second.symm.trans none_) (nomatch ·)
  · rfl

/-! ### The take-over (R382, R400) -/

/-- What ends a case leaves the role and the records of comparison. -/
theorem caseCancel_kept (s : State) : s.twin.Steady s.caseCancel.twin ∧ s.caseCancel.twin.rxA = s.twin.rxA ∧ s.caseCancel.twin.rxB = s.twin.rxB := by
  unfold State.caseCancel
  split
  · extract_lets s1
    have sent : (s1.twCase 3 4 s.twin.case.j).twin = s.twin := by
      rw [twCase_twin]
      simp only [s1]
      split
      · exact (ringSend_keeps (M := 65536) (by decide) (.refl _ s)).twin (by decide)
      · rfl
    generalize s1.twCase 3 4 s.twin.case.j = u at *
    rw [← sent]
    exact ⟨⟨rfl, rfl, rfl⟩, rfl, rfl⟩
  · exact ⟨.refl _, rfl, rfl⟩

theorem caseCancel_firings (s : State) : s.caseCancel.faults.firings = s.faults.firings :=
  (caseCancel_keeps (M := 67584) (by decide) (.refl _ s)).firings (by decide)

theorem takeOver_spec (s : State) : let e := s.takeOver
    e.twin.role = .active ∧ e.twin.epoch = (s.twin.epoch + 1) % 2 ^ 16 ∧ e.twin.dueJ = s.twin.dueJ ∧ e.twin.rxA = s.twin.rxA ∧
      e.twin.rxB = s.twin.rxB ∧ s.Fired e 0x45 := by
  obtain ⟨steady, rxA, rxB⟩ := caseCancel_kept s
  have unfired : State.Unfired 0x45 s (s.caseCancel.toActive s.nextEpoch) :=
    State.Unfired.trans (by rw [State.Unfired, caseCancel_firings]) (toActive_unfired (by decide) (by decide) (by decide) _ _)
  have twin := toActive_twin s.caseCancel s.nextEpoch
  rw [setRole_twin] at twin
  rw [State.takeOver]
  dsimp only
  rw [fire_twin, bump_twin]
  generalize s.caseCancel.toActive s.nextEpoch = u at *
  rw [twin]
  exact ⟨rfl, Nat.mod_mod .., steady.dueJ, rxA, rxB,
    State.Unfired.fired (t := u.bump 0x0D05 noInst 7) unfired (fire_fired _ (by decide) noInst _)⟩

/-! ### COMPARE_DEADLINE (R375, R382, R400) -/

section
variable {s : State} {d : Digests} {r : List Digests}

/-- The period whose record is due. -/
def State.nowDue (s : State) (j : Nat) : State := s.updTwin fun t => { t with dueJ := some j }

/-- The records judged, and their count of those missed. -/
def State.judgedDue (s : State) (j : Nat) : State :=
  ((s.nowDue j).classifyReady.updTwin fun t =>
    { t with missed := if s.twin.compareJ == some (j % 2 ^ 16) then 0 else t.missed + 1, rxA := none, rxB := none }).twinLinkWatch

theorem compareDeadline_run (first : s.twin.digests = d :: r) (fresh : s.twin.dueJ ≠ some d.j) (due : s.le.next - s.p0 0x0B02 + 64000 ≤ s.now) :
    exec .compareDeadline s = if s.twin.role ≠ .standby ∨ s.twin.qualified = false then .next (s.nowDue d.j)
      else State.done (if 2 ≤ (s.judgedDue d.j).twin.missed ∧ (s.judgedDue d.j).twin.peerAlive = false ∧ (s.judgedDue d.j).twin.qualified = true ∧
        (s.judgedDue d.j).ringSilent = true then (s.judgedDue d.j).takeOver else s.judgedDue d.j) := by
  change execCompareDeadline s = _
  rw [execCompareDeadline, first]
  exact if_pos ⟨due, fresh⟩

theorem compareDeadline_idle (first : s.twin.digests = d :: r) (fresh : s.twin.dueJ ≠ some d.j) (due : s.le.next - s.p0 0x0B02 + 64000 ≤ s.now)
    (other : s.twin.role ≠ .standby ∨ s.twin.qualified = false) : Next (exec .compareDeadline s) fun t => Only [.twin] s t ∧
      t.twin = { s.twin with dueJ := some d.j } :=
  ⟨_, (compareDeadline_run first fresh due).trans (if_pos other), only_of (updTwin_keeps (by decide) (.refl _ s)), rfl⟩

theorem judgedDue_twin (j : Nat) : (s.judgedDue j).twin = { (s.nowDue j).classifyReady.twin with
    missed := if s.twin.compareJ == some (j % 2 ^ 16) then 0 else (s.nowDue j).classifyReady.twin.missed + 1, rxA := none, rxB := none } :=
  twinLinkWatch_twin _

/-- The record of the period has come. -/
theorem compareDeadline_met (first : s.twin.digests = d :: r) (fresh : s.twin.dueJ ≠ some d.j) (due : s.le.next - s.p0 0x0B02 + 64000 ≤ s.now)
    (standby : s.twin.role = .standby) (qualified : s.twin.qualified = true) (came : s.twin.compareJ = some (d.j % 2 ^ 16)) :
    Lands (exec .compareDeadline s) fun e =>
      Only [.lanes, .links, .todo, .hatch, .notif, .par, .faults, .twin, .pantry] s e ∧ e.twin.missed = 0 ∧ e.twin.dueJ = some d.j ∧
      e.twin.rxA = none ∧ e.twin.rxB = none ∧ e.twin.role = .standby ∧ e.twin.epoch = s.twin.epoch := by
  have run := (compareDeadline_run first fresh due).trans (if_neg fun h => h.elim (· standby) fun off => Bool.noConfusion (qualified.symm.trans off))
  have twin := judgedDue_twin (s := s) d.j
  rw [came, beq_self_eq_true, if_pos rfl] at twin
  have missed : (s.judgedDue d.j).twin.missed = 0 := by rw [twin]
  rw [if_neg fun h => absurd h.1 (by rw [missed]; decide)] at run
  have steady := classifyReady_steady (s.nowDue d.j)
  refine ⟨_, run, only_of (twinLinkWatch_keeps (by decide) (updTwin_keeps (by decide) (classifyReady_keeps (by decide)
    (updTwin_keeps (by decide) (.refl _ s))))), missed, ?_, ?_, ?_, ?_, ?_⟩ <;> rw [twin]
  · exact steady.dueJ
  · exact steady.role.trans standby
  · exact steady.epoch

theorem ringSilent_congr {u : State} (eff : u.par.eff = s.par.eff) (ring : u.ring = s.ring) (mono : u.mono = s.mono) :
    u.ringSilent = s.ringSilent := by
  simp only [State.ringSilent, State.headId, State.unit, State.ringEn, State.rnode, State.elapsed, State.pu, State.p0, State.peff, eff, ring, mono]
  rfl

/-- The record of the period has not come, or not whole. -/
theorem compareDeadline_missed (first : s.twin.digests = d :: r) (fresh : s.twin.dueJ ≠ some d.j) (due : s.le.next - s.p0 0x0B02 + 64000 ≤ s.now)
    (standby : s.twin.role = .standby) (qualified : s.twin.qualified = true) (late : s.twin.compareJ ≠ some (d.j % 2 ^ 16))
    (missing : s.twin.rxA = none ∨ s.twin.rxB = none) : Lands (exec .compareDeadline s) fun e =>
      e.twin.dueJ = some d.j ∧ e.twin.rxA = none ∧ e.twin.rxB = none ∧
      if 2 ≤ s.twin.missed + 1 ∧ s.twin.peerAlive = false ∧ s.ringSilent = true then
        Only [.freeCount, .lanes, .links, .time, .ring, .mod, .prot, .dt, .todo, .hatch, .notif, .par, .faults, .twin, .pantry] s e ∧
        e.twin.role = .active ∧ e.twin.epoch = (s.twin.epoch + 1) % 2 ^ 16 ∧ s.Fired e 0x45
      else Only [.todo, .hatch, .notif, .par, .faults, .twin, .pantry] s e ∧ e.twin.missed = s.twin.missed + 1 ∧ e.twin.role = .standby ∧
        e.twin.epoch = s.twin.epoch := by
  have run := (compareDeadline_run first fresh due).trans (if_neg fun h => h.elim (· standby) fun off => Bool.noConfusion (qualified.symm.trans off))
  have waits : (s.nowDue d.j).classifyReady = s.nowDue d.j := classifyReady_waits missing
  have twin := judgedDue_twin (s := s) d.j
  rw [waits, if_neg fun same => late (eq_of_beq same)] at twin
  have whole : s.judgedDue d.j = ((s.nowDue d.j).updTwin fun t =>
      { t with missed := if s.twin.compareJ == some (d.j % 2 ^ 16) then 0 else t.missed + 1, rxA := none, rxB := none }).twinLinkWatch := by
    rw [State.judgedDue, waits]
  have keeps : Keeps 10488 s (s.judgedDue d.j) := by
    rw [whole]
    exact twinLinkWatch_keeps (by decide) (updTwin_keeps (by decide) (updTwin_keeps (by decide) (.refl _ s)))
  have quiet : State.Unfired 0x45 s (s.judgedDue d.j) := by
    rw [whole]
    exact State.Unfired.trans (t := (s.nowDue d.j).updTwin _) rfl (twinLinkWatch_unfired (by decide) _)
  have eff : (s.judgedDue d.j).par.eff = s.par.eff := by rw [whole, State.twinLinkWatch, cond_eff]; rfl
  have silent := ringSilent_congr eff (keeps.ring (by decide)) (keeps.mono (by decide))
  have missed : (s.judgedDue d.j).twin.missed = s.twin.missed + 1 := (congrArg Twin.missed twin).trans rfl
  have alive : (s.judgedDue d.j).twin.peerAlive = s.twin.peerAlive := (congrArg Twin.peerAlive twin).trans rfl
  have still : (s.judgedDue d.j).twin.qualified = true := (congrArg Twin.qualified twin).trans qualified
  have dueJ : (s.judgedDue d.j).twin.dueJ = some d.j := congrArg Twin.dueJ twin
  have rxA : (s.judgedDue d.j).twin.rxA = none := congrArg Twin.rxA twin
  have rxB : (s.judgedDue d.j).twin.rxB = none := congrArg Twin.rxB twin
  have role : (s.judgedDue d.j).twin.role = .standby := (congrArg Twin.role twin).trans standby
  have epoch : (s.judgedDue d.j).twin.epoch = s.twin.epoch := (congrArg Twin.epoch twin).trans rfl
  rw [missed, alive, still, silent] at run
  generalize s.judgedDue d.j = u at *
  by_cases falls : 2 ≤ s.twin.missed + 1 ∧ s.twin.peerAlive = false ∧ s.ringSilent = true
  · rw [if_pos ⟨falls.1, falls.2.1, rfl, falls.2.2⟩] at run
    obtain ⟨rises, next, dueJ', rxA', rxB', fires⟩ := takeOver_spec u
    refine ⟨_, run, dueJ'.trans dueJ, rxA'.trans rxA, rxB'.trans rxB, ?_⟩
    rw [if_pos falls]
    rw [epoch] at next
    have takes : Keeps 3107580 u u.takeOver := takeOver_keeps (by decide) (.refl _ u)
    exact ⟨only_of (l := [.freeCount, .lanes, .links, .time, .ring, .mod, .prot, .dt, .todo, .hatch, .notif, .par, .faults, .twin, .pantry])
      ((keeps.weaken (by decide)).trans (takes.weaken (by decide))), rises, next, quiet.fired fires⟩
  · rw [if_neg fun h => falls ⟨h.1, h.2.1, h.2.2.2⟩] at run
    refine ⟨u, run, dueJ, rxA, rxB, ?_⟩
    rw [if_neg falls]
    exact ⟨only_of (l := [.todo, .hatch, .notif, .par, .faults, .twin, .pantry]) keeps, missed, role, epoch⟩

end

end Sys2Proof.Machine
end

section
/-!
PROOFS. The times of a twin (O37): forwarded writes, checks, the standby's lanes, the planned switch and resets (R369, R370, R373, R379 to R381, R385, R387, R398).
-/

namespace Sys2Proof.Machine

open Host

/-! ### A forwarded write without an answer (R373) -/

/-- A forwarded write that waits no longer. -/
def State.fwdGone (s : State) (f : FwdOut) : State := s.updTwin fun t => { t with fwdOut := t.fwdOut.filter fun x => x.xfer != f.xfer }

theorem fwdGone_spec (s : State) (f : FwdOut) : Keeps 2064 s (s.fwdGone f) ∧
    (s.fwdGone f).twin.fwdOut = s.twin.fwdOut.filter (fun x => x.xfer != f.xfer) ∧ (s.fwdGone f).hatch = s.hatch ∧
    (s.fwdGone f).twin.epoch = s.twin.epoch := ⟨updTwin_keeps (by decide) (.refl _ s), rfl, rfl, rfl⟩

theorem twFwdTimeout_lands {s : State} {f : FwdOut} {q : Request} (oldest : (s.twin.fwdOut.find? fun f => decide (f.at_ + 1600000 ≤ s.mono)) = some f)
    (taken : (s.box f.mb).taken = some q) : Lands (exec .twFwdTimeout s) fun e => Only [.hatch, .twin] s e ∧
      e.twin.fwdOut = s.twin.fwdOut.filter (fun x => x.xfer != f.xfer) ∧ s.Replies e f.mb q stFailed [0x8C, 0, 0xFF, 0xFF] := by
  have run : exec .twFwdTimeout s = ((s.fwdGone f).reply f.mb stFailed [0x8C, 0, 0xFF, 0xFF]).done := by
    change execTwFwdTimeout s = _
    have found : (s.twin.fwdOut.find? fun f => s.elapsed f.at_ (us 200)) = some f := oldest
    rw [execTwFwdTimeout, found]
    rfl
  obtain ⟨keeps, out, hatch, epoch⟩ := fwdGone_spec s f
  generalize s.fwdGone f = u at *
  have taken' : (u.box f.mb).taken = some q := by rw [State.box, hatch]; exact taken
  refine ⟨_, run, only_of (reply_hatch (by decide) (by decide) keeps), ?_, (reply_replies taken' stFailed _).from (congrArg Hatch.boxes hatch) epoch⟩
  rw [(reply_hatch (M := 16) (by decide) (by decide) (.refl _ u)).twin (by decide), out]

/-! ### Checks (R379 to R381) -/

/-- The failed checks and the times of those that passed stay. -/
structure Twin.SameChecks (t u : Twin) : Prop where
  /-- The failed checks. -/
  failed : u.failed = t.failed
  /-- The times. -/
  checkAt : u.checkAt = t.checkAt

theorem Twin.SameChecks.refl (t : Twin) : t.SameChecks t := ⟨rfl, rfl⟩

theorem Twin.SameChecks.trans {t u v : Twin} (h : t.SameChecks u) (k : u.SameChecks v) : t.SameChecks v :=
  ⟨k.failed.trans h.failed, k.checkAt.trans h.checkAt⟩

theorem caseCancel_sameChecks (s : State) : s.twin.SameChecks s.caseCancel.twin := by
  unfold State.caseCancel
  split
  · extract_lets s1
    have sent : (s1.twCase 3 4 s.twin.case.j).twin = s.twin := by
      rw [twCase_twin]
      simp only [s1]
      split
      · exact (ringSend_keeps (M := 65536) (by decide) (.refl _ s)).twin (by decide)
      · rfl
    generalize s1.twCase 3 4 s.twin.case.j = u at *
    rw [← sent]
    exact ⟨rfl, rfl⟩
  · exact .refl _

theorem surrender_sameChecks (s : State) : s.twin.SameChecks s.surrender.twin := by
  unfold State.surrender
  split
  · dsimp only
    rw [toMaint_twin, setRole_twin, (twinSend_keeps (M := 65536) (by decide) (.refl _ _)).twin (by decide)]
    exact (caseCancel_sameChecks s).trans ⟨rfl, rfl⟩
  · exact .refl _

theorem unqualify_sameChecks (s : State) : s.twin.SameChecks s.unqualify.twin := by
  rw [unqualify_twin]
  split <;> exact ⟨rfl, rfl⟩

theorem haltCells_twin (s : State) : s.haltCells.twin = s.twin := (haltCells_keeps (M := 81928) (by decide) (.refl _ s)).twin (by decide)

/-- The reports of failed checks. -/
def State.checksTold (s : State) (f : Nat) (fatal : Bool) : State :=
  let told := if fatal then s.cond (bits f 7 0 != 0) 0x43 noInst 0 (leBytes 2 f) else s
  if told.inPair then told.cond (bits f 11 8 != 0) 0x44 noInst 0 (leBytes 2 f) else told

theorem checksTold_twin (s : State) (f : Nat) (fatal : Bool) : (s.checksTold f fatal).twin = s.twin := by
  rw [State.checksTold]
  have first : (if fatal then s.cond (bits f 7 0 != 0) 0x43 noInst 0 (leBytes 2 f) else s).twin = s.twin := by
    split
    · exact cond_twin ..
    · rfl
  generalize (if fatal then s.cond (bits f 7 0 != 0) 0x43 noInst 0 (leBytes 2 f) else s) = u at *
  split
  · rw [cond_twin, first]
  · exact first

/-- Whether a fatal check has failed that had not. -/
def fatalNew (f before : Nat) : Bool := bits f 7 0 != 0 && bits f 7 0 != bits before 7 0

theorem checksJudge_eq (s : State) (before : Nat) : s.checksJudge before =
    if s.twin.role = .active then
      if fatalNew s.twin.failed before && s.qualifiedStandby then (s.checksTold s.twin.failed false).surrender else s.checksTold s.twin.failed true
    else if s.twin.role = .standby then
      if fatalNew s.twin.failed before then
        (((s.checksTold s.twin.failed true).caseCancel.updTwin fun t => { t with barred := true }).unqualify).haltCells
      else s.checksTold s.twin.failed true
    else s.checksTold s.twin.failed false := rfl

theorem checksJudge_sameChecks (s : State) (before : Nat) : s.twin.SameChecks (s.checksJudge before).twin := by
  have told (fatal : Bool) : s.twin.SameChecks (s.checksTold s.twin.failed fatal).twin := by
    rw [checksTold_twin]
    exact .refl _
  rw [checksJudge_eq]
  split
  · split
    · exact (told false).trans (surrender_sameChecks _)
    · exact told true
  split
  · split
    · have barred (u : State) : u.twin.SameChecks (u.updTwin fun t => { t with barred := true }).twin := ⟨rfl, rfl⟩
      rw [haltCells_twin]
      exact (((told true).trans (caseCancel_sameChecks _)).trans (barred _)).trans (unqualify_sameChecks _)
    · exact told true
  · exact told false

theorem checksTold_qualified (s : State) (f : Nat) (fatal : Bool) : (s.checksTold f fatal).twin.role = s.twin.role := by rw [checksTold_twin]

/-- A fatal check that fails takes an active with a qualified standby out of its role (R381). -/
theorem checksJudge_active {s : State} {before : Nat} (fatal : fatalNew s.twin.failed before = true) (pair : s.qualifiedStandby = true) :
    (s.checksJudge before).twin.role = .maint ∧ (s.checksJudge before).twin.epoch = (s.twin.epoch + 1) % 2 ^ 16 := by
  have active : s.twin.role = .active := by
    rw [State.qualifiedStandby, Bool.and_eq_true, State.hasStandby, Bool.and_eq_true, Bool.and_eq_true, Bool.and_eq_true, Bool.and_eq_true] at pair
    exact of_decide_eq_true pair.1.1.1.1.1
  rw [checksJudge_eq, if_pos active, if_pos (by rw [fatal, pair]; rfl)]
  have twin := checksTold_twin s s.twin.failed false
  obtain ⟨role, epoch, -⟩ := surrender_twin (s := s.checksTold s.twin.failed false) (by rw [twin, active])
  exact ⟨role, by rw [epoch, twin]⟩

/-- A fatal check that fails bars a standby (R381). -/
theorem checksJudge_standby {s : State} {before : Nat} (fatal : fatalNew s.twin.failed before = true) (standby : s.twin.role = .standby) :
    (s.checksJudge before).twin.barred = true ∧ (s.checksJudge before).twin.qualified = false ∧ (s.checksJudge before).twin.role = .standby := by
  rw [checksJudge_eq, if_neg (by rw [standby]; decide), if_pos standby, if_pos fatal, haltCells_twin, unqualify_twin]
  have role : (s.checksTold s.twin.failed true).caseCancel.twin.role = .standby :=
    (caseCancel_kept _).1.role.trans (by rw [checksTold_twin, standby])
  generalize (s.checksTold s.twin.failed true).caseCancel = u at *
  split
  · exact ⟨rfl, rfl, role⟩
  · rename_i out
    exact ⟨rfl, Bool.eq_false_iff.2 fun on => out ⟨role, on⟩, role⟩

theorem bits_low_testBit (v : Nat) {b : Nat} (low : b < 8) : (bits v 7 0).testBit b = v.testBit b := by
  have whole : bits v 7 0 = v % 2 ^ 8 := by rw [bits, Nat.pow_zero, Nat.div_one]
  rw [whole, Nat.testBit_mod_two_pow, decide_eq_true low, Bool.true_and]

theorem testBit_setBit (v n : Nat) (b : Bool) : (setBit v n b).testBit n = b := by rw [← bit_eq_testBit, bit_setBit]

theorem testBit_setBit_ne (v : Nat) {n k : Nat} (other : k ≠ n) (b : Bool) : (setBit v n b).testBit k = v.testBit k := by
  rw [← bit_eq_testBit, bit_setBit_ne v other, bit_eq_testBit]

theorem fatalNew_of_new {v b : Nat} (low : b < 8) (new : v.testBit b = false) : fatalNew (setBit v b true) v = true := by
  have set_ : (bits (setBit v b true) 7 0).testBit b = true := by rw [bits_low_testBit _ low, testBit_setBit]
  rw [fatalNew, Bool.and_eq_true, bne_iff_ne, bne_iff_ne]
  refine ⟨fun zero => ?_, fun same => ?_⟩
  · rw [zero, Nat.zero_testBit] at set_
    exact Bool.noConfusion set_
  · rw [same, bits_low_testBit _ low, new] at set_
    exact Bool.noConfusion set_

/-- The state of a check that completes, before its consequences. -/
def State.checkNoted (s : State) (b : Nat) (pass : Bool) : State := s.updTwin fun t =>
  { t with failed := setBit t.failed b (!pass), checkAt := if pass then t.checkAt.set b s.mono else t.checkAt,
           healthOwed := t.healthOwed || decide (setBit t.failed b (!pass) ≠ s.twin.failed) }

theorem checkDone_lands (s : State) (b : Nat) (pass : Bool) : let e := s.checkDone b pass
    Only [.lanes, .links, .todo, .hatch, .notif, .par, .faults, .twin, .pantry] s e ∧ e.twin.failed.testBit b = !pass ∧
      (∀ k, k ≠ b → e.twin.failed.testBit k = s.twin.failed.testBit k) ∧ e.twin.checkAt = (if pass then s.twin.checkAt.set b s.mono else s.twin.checkAt) ∧
      (b < 8 → pass = false → s.twin.failed.testBit b = false →
        (s.qualifiedStandby = true → e.twin.role = .maint ∧ e.twin.epoch = (s.twin.epoch + 1) % 2 ^ 16) ∧
        (s.twin.role = .standby → e.twin.barred = true ∧ e.twin.qualified = false ∧ e.twin.role = .standby)) := by
  have run : s.checkDone b pass = (s.checkNoted b pass).checksJudge s.twin.failed := rfl
  obtain ⟨failed, checkAt⟩ := checksJudge_sameChecks (s.checkNoted b pass) s.twin.failed
  have noted : (s.checkNoted b pass).twin.failed = setBit s.twin.failed b (!pass) := rfl
  dsimp only
  rw [noted] at failed
  refine ⟨only_of (checkDone_keeps (by decide) (.refl _ s)), ?_, fun k other => ?_, ?_, fun low fails new => ?_⟩
  · rw [run, failed, testBit_setBit]
  · rw [run, failed, testBit_setBit_ne _ other]
  · rw [run, checkAt]
    rfl
  · have fatal : fatalNew (s.checkNoted b pass).twin.failed s.twin.failed = true := by
      rw [noted, fails]
      exact fatalNew_of_new low new
    exact ⟨fun pair => checksJudge_active fatal pair, fun standby => checksJudge_standby fatal standby⟩

/-- A check's result. -/
theorem selftestPeriod_lands {s : State} {b : Fin 12} {r : TestResult} (known : 8 ≤ b.val ∨ r ≠ .overdue) : Lands (exec (.selftestPeriod b r) s) fun e =>
      let ok := if 8 ≤ b.val then s.checkNow b else decide (r = .pass)
      Only [.lanes, .links, .todo, .hatch, .notif, .par, .faults, .twin, .pantry] s e ∧ e.twin.failed.testBit b = !ok ∧
      (∀ k, k ≠ b.val → e.twin.failed.testBit k = s.twin.failed.testBit k) ∧
      e.twin.checkAt.get? b = (if ok = true then some s.mono else s.twin.checkAt.get? b) ∧
      (b.val < 8 → r = .fail → s.twin.failed.testBit b = false →
        (s.qualifiedStandby = true → e.twin.role = .maint ∧ e.twin.epoch = (s.twin.epoch + 1) % 2 ^ 16) ∧
        (s.twin.role = .standby → e.twin.barred = true ∧ e.twin.qualified = false ∧ e.twin.role = .standby)) := by
  have run : exec (.selftestPeriod b r) s = (s.checkDone b (if 8 ≤ b.val then s.checkNow b else decide (r = .pass))).done := by
    by_cases follows : 8 ≤ b.val
    · rw [if_pos follows]
      exact if_pos follows
    · rw [if_neg follows]
      refine (if_neg follows).trans ?_
      cases r with
      | pass => rfl
      | fail => rfl
      | overdue => exact absurd rfl (known.resolve_left follows)
  obtain ⟨only, failed, others, checkAt, fatal⟩ := checkDone_lands s b (if 8 ≤ b.val then s.checkNow b else decide (r = .pass))
  refine ⟨_, run, only, failed, others, ?_, fun low fails new => fatal low ?_ new⟩
  · rw [checkAt]
    generalize (if 8 ≤ b.val then s.checkNow b else decide (r = .pass)) = ok
    cases ok with
    | true => exact Tab.get?_set ..
    | false => rfl
  · rw [if_neg (Nat.not_le.2 low), fails]
    rfl

/-- A check whose time has run out twice over. -/
theorem selftestPeriod_overdue {s : State} {b : Fin 12} (low : b.val < 8) (late : ∀ n, checkPeriod b = some n → s.twin.checkAt.get 0 b + 2 * n ≤ s.mono) :
    Lands (exec (.selftestPeriod b .overdue) s) fun e => Only [.lanes, .links, .todo, .hatch, .notif, .par, .faults, .twin, .pantry] s e ∧
      e.twin.failed.testBit b = true ∧ e.twin.checkAt = s.twin.checkAt := by
  have twice : (match checkPeriod b with
      | some p => s.elapsed (s.twin.checkAt.get 0 b) (2 * p)
      | none => true) = true := by
    split
    · rename_i p period
      exact elapsed_of_le (late p period)
    · rfl
  have run : exec (.selftestPeriod b .overdue) s = (s.checkDone b false).done :=
    (if_neg (Nat.not_le.2 low)).trans (if_pos twice)
  obtain ⟨only, failed, -, checkAt, -⟩ := checkDone_lands s b false
  exact ⟨_, run, only, failed, checkAt⟩

end Sys2Proof.Machine
end

section
/-!
PROOFS. The times of a twin (O37): health reports, qualification, the planned switch and resets (R369, R370, R380, R385, R387, R398).
-/

namespace Sys2Proof.Machine

open Host

/-! ### Blocks for the twin (R371) -/

theorem twinSend_queue (s : State) (ty p : Nat) : ((s.twinSend ty p).lnk 130).queue =
    if s.twinLinkUp = true then (s.lnk 130).queue ++ [{ type := ty, payload := p }] else (s.lnk 130).queue := by
  rw [State.twinSend]
  split
  · rw [queueBlock_lnk_own s (by decide)]
  · rfl

theorem ringSend_lnk_twin (s : State) (ty dst body : Nat) : (s.ringSend ty dst body).lnk 130 = s.lnk 130 := by
  rw [State.ringSend]
  split
  · rw [ringQueue_lnk_ne _ (by decide) (by decide), ringQueue_lnk_ne _ (by decide) (by decide)]
  · rfl

/-! ### Health reports (R380) -/

theorem twHealthPeriod_lands {s : State} (serving : s.sys.stage = .serving) (on : s.twinEn = true)
    (due : s.twin.healthOwed = true ∨ s.twin.healthAt + 7200000 ≤ s.mono) : Lands (exec .twHealthPeriod s) fun e =>
      Only [.twin, .links] s e ∧ e.twin.healthAt = s.mono ∧ e.twin.healthOwed = false ∧
      e.twin.reportSeq = (s.twin.reportSeq + 1) % 2 ^ 16 ∧ e.twin.ownHealth = beBytes 12 s.healthReport ∧
      (s.twinLinkUp = true → (e.lnk 130).queue = (s.lnk 130).queue ++ [{ type := 0x37, payload := s.healthReport }]) := by
  have queue := twinSend_queue s 0x37 s.healthReport
  have told := twinSend_keeps (M := 65536) (a1 := 0x37) (a2 := s.healthReport) (by decide) (.refl _ s)
  generalize hu : s.twinSend 0x37 s.healthReport = u at *
  have sent : Keeps 65536 s (if s.refMode = 1 then u.ringSend 0x45 16 s.ringHealth else u) :=
    keeps_ite (fun _ => ringSend_keeps (by decide) told) fun _ => told
  have link : (if s.refMode = 1 then u.ringSend 0x45 16 s.ringHealth else u).lnk 130 = u.lnk 130 := by
    split
    · exact ringSend_lnk_twin ..
    · rfl
  have run : exec .twHealthPeriod s = ((if s.refMode = 1 then u.ringSend 0x45 16 s.ringHealth else u).updTwin fun t =>
      { t with ownHealth := beBytes 12 s.healthReport, run := s.runMask, healthAt := s.mono, healthOwed := false,
               reportSeq := (t.reportSeq + 1) % 2 ^ 16 }).done := by
    rw [← hu]
    exact if_pos ⟨serving, on, due.imp_right elapsed_of_le⟩
  generalize (if s.refMode = 1 then u.ringSend 0x45 16 s.ringHealth else u) = v at *
  refine ⟨_, run, only_of (updTwin_keeps (by decide) (sent.weaken (by decide))), rfl, rfl, ?_, rfl, fun up => ?_⟩
  · rw [updTwin_twin, sent.twin (by decide)]
  · rw [if_pos up] at queue
    exact (congrArg Link.queue link).trans queue

/-! ### The standby's lanes (R369, R370) -/

theorem freshCells_lane (s : State) : ∀ l < 128, (s.freshCells.lane l).st = if (s.lane l).st = .halted then s.freshSt l else (s.lane l).st := by
  have starts : ∀ (u : State) (ls : List Nat), ls.Nodup → ∀ l, ((ls.foldl (fun s l =>
      if (s.lane l).st = .halted then s.freshAttempt l else s) u).lane l).st =
      if l ∈ ls then (if (u.lane l).st = .halted then u.freshSt l else (u.lane l).st) else (u.lane l).st := by
    intro u ls once l
    induction ls generalizing u with
    | nil => rw [List.foldl_nil, if_neg List.not_mem_nil]
    | cons a ls ih =>
      obtain ⟨fresh, once⟩ := List.nodup_cons.1 once
      rw [List.foldl_cons, ih _ once]
      have step : ((if (u.lane a).st = .halted then u.freshAttempt a else u).lane l).st =
          if l = a then (if (u.lane l).st = .halted then u.freshSt l else (u.lane l).st) else (u.lane l).st := by
        by_cases own : l = a
        · subst own
          rw [if_pos rfl]
          by_cases halted : (u.lane l).st = .halted
          · rw [if_pos halted, if_pos halted, (freshAttempt_lane u l).1]
          · rw [if_neg halted, if_neg halted]
        · rw [if_neg own]
          split
          · rw [(freshAttempt_lane u a).2.1 l own]
          · rfl
      have same : (if (u.lane a).st = .halted then u.freshAttempt a else u).freshSt l = u.freshSt l := by
        split
        · exact freshAttempt_freshSt u a l
        · rfl
      rw [step, same]
      by_cases own : l = a
      · subst own
        rw [if_pos rfl, if_neg fresh, if_pos List.mem_cons_self]
      · rw [if_neg own]
        simp only [List.mem_cons, own, false_or]
  intro l small
  rw [State.freshCells, starts s (List.range 128) List.nodup_range, if_pos (List.mem_range.2 small)]

theorem haltCells_lane_off (s : State) {l : Nat} (out : 128 ≤ l ∨ (s.lane l).st = .off) : s.haltCells.lane l = s.lane l := by
  have stays : ∀ (ls : List Nat) (u : State), (∀ a ∈ ls, a < 128) → (128 ≤ l ∨ (u.lane l).st = .off) → (ls.foldl (fun s l =>
      if (s.lane l).st = .off ∨ (s.lane l).st = .halted then s else s.setLane l .halted) u).lane l = u.lane l := by
    intro ls u small out
    induction ls generalizing u with
    | nil => rfl
    | cons a ls ih =>
      have step : (if (u.lane a).st = .off ∨ (u.lane a).st = .halted then u else u.setLane a .halted).lane l = u.lane l := by
        split
        · rfl
        · rename_i other
          refine setLane_lane_ne u (fun own => ?_) .halted
          subst own
          exact out.elim (fun big => Nat.not_lt.2 big (small l List.mem_cons_self)) fun off => other (.inl off)
      rw [List.foldl_cons, ih _ (fun b mem => small b (List.mem_cons_of_mem a mem)) (by rw [step]; exact out), step]
  exact stays _ s (fun a mem => List.mem_range.1 mem) out

theorem twRole_twin (s : State) : s.twRole.twin = { s.twin with roleOwed := false } := by
  rw [State.twRole, updTwin_twin, (twinSend_keeps (M := 65536) (by decide) (.refl _ s)).twin (by decide)]

theorem qualifyComplete_lands {s : State} (standby : s.twin.role = .standby) (unqualified : s.twin.qualified = false)
    (complete : s.twin.qualifyDone = true) (free : s.twin.barred = false) (sound : bits s.twin.failed 7 0 = 0) :
    Lands (exec .qualifyComplete s) fun e => Only [.freeCount, .todo, .hatch, .notif, .par, .twin, .pantry, .lanes, .links] s e ∧
      e.twin.qualified = true ∧ e.twin.role = .standby ∧ e.twin.epoch = s.twin.epoch ∧ e.twin.missed = 0 ∧
      ∀ l < 128, (e.lane l).st = if (s.lane l).st = .halted then
        (if s.laneUnused l = true ∨ (s.rack (rackOf l)).st ≠ .locked then .off else .trainCdr) else (s.lane l).st := by
  have run : exec .qualifyComplete s = (((s.updTwin fun t => { t with qualified := true, healthOwed := true, missed := 0, stateEqJ := none }).note
      0x0A 0x0D01 (leBytes 2 s.twin.epoch)).freshCells.twRole).done := if_pos ⟨standby, unqualified, complete, free, sound⟩
  have noted := note_keeps (M := 8304) (a1 := 0x0A) (a2 := 0x0D01) (a3 := leBytes 2 s.twin.epoch) (a4 := false) (by decide)
    (.refl _ (s.updTwin fun t => { t with qualified := true, healthOwed := true, missed := 0, stateEqJ := none }))
  have eff := note_eff (s.updTwin fun t => { t with qualified := true, healthOwed := true, missed := 0, stateEqJ := none }) 0x0A 0x0D01
    (leBytes 2 s.twin.epoch) false
  have started : Keeps 2048 s (s.updTwin fun t => { t with qualified := true, healthOwed := true, missed := 0, stateEqJ := none }) :=
    updTwin_keeps (by decide) (.refl _ s)
  have keeps : Keeps 10352 s ((s.updTwin fun t => { t with qualified := true, healthOwed := true, missed := 0, stateEqJ := none }).note
      0x0A 0x0D01 (leBytes 2 s.twin.epoch)) := note_keeps (by decide) (started.weaken (by decide))
  have twin := noted.twin (by decide)
  generalize (s.updTwin fun t => { t with qualified := true, healthOwed := true, missed := 0, stateEqJ := none }).note 0x0A 0x0D01
    (leBytes 2 s.twin.epoch) = u at *
  have cells : u.freshCells.twin = u.twin := (freshCells_keeps (M := 81996) (by decide) (.refl _ u)).twin (by decide)
  refine ⟨_, run, only_of (twRole_keeps (by decide) (freshCells_keeps (by decide) (keeps.weaken (by decide)))), ?_, ?_, ?_, ?_, fun l small => ?_⟩
  · rw [twRole_twin, cells, twin]; rfl
  · rw [twRole_twin, cells, twin]; exact standby
  · rw [twRole_twin, cells, twin]; rfl
  · rw [twRole_twin, cells, twin]; rfl
  · rw [(twRole_keeps (M := 67584) (by decide) (.refl _ _)).lane (by decide), freshCells_lane u l small, keeps.lane (by decide), State.freshSt,
      laneUnused_congr (keeps.roll (by decide)) eff, keeps.rack (by decide), State.laneHeld, twin]
    refine if_congr Iff.rfl (if_congr Iff.rfl rfl (if_neg ?_)) rfl
    rw [updTwin_twin]
    simp

theorem twinLanesDownTimeout_lands {s : State} {t : Nat} (down : s.twin.downSince = some t) (standby : s.twin.role = .standby)
    (qualified : s.twin.qualified = true) (due : t + 8000000000 ≤ s.mono) : Lands (exec .twinLanesDownTimeout s) fun e =>
      Only [.todo, .twin, .lanes, .links] s e ∧ e.twin.qualified = false ∧ e.twin.qualifyDone = false ∧ e.twin.role = .standby ∧
      ∀ l < 132, if l < 128 ∧ (s.lane l).st ≠ .off then (e.lane l).st = .halted else e.lane l = s.lane l := by
  have run : exec .twinLanesDownTimeout s = s.unqualify.done := by
    change execTwinLanesDownTimeout s = _
    rw [execTwinLanesDownTimeout, down]
    exact if_pos ⟨standby, qualified, elapsed_of_le due⟩
  have twin := unqualify_twin s
  rw [if_pos ⟨standby, qualified⟩] at twin
  refine ⟨_, run, only_of (unqualify_keeps (by decide) (.refl _ s)), by rw [twin], by rw [twin], by rw [twin]; exact standby, fun l _ => ?_⟩
  have lane : s.unqualify.lane l =
      (s.updTwin fun t => { t with qualified := false, qualifyDone := false, healthOwed := true, roleOwed := true }).haltCells.lane l := by
    rw [State.unqualify, if_pos ⟨standby, qualified⟩]
    exact (twRole_keeps (M := 67584) (by decide) (.refl _ _)).lane (by decide) l
  split
  · rename_i cell
    rw [lane, haltCells_lane _ l cell.1]
    exact if_neg cell.2
  · rename_i out
    rw [lane]
    exact haltCells_lane_off _ (by
      by_cases small : l < 128
      · exact .inr (by_contra fun live => out ⟨small, live⟩)
      · exact .inl (Nat.not_lt.1 small))

/-! ### The standby's loss, the planned switch, resets (R385, R387, R398) -/

theorem twinStandbyTimeout_lands {s : State} (active : s.twin.role = .active) (paired : s.twin.paired = true) (present : s.twin.standbyLost = false)
    (dead : s.twin.peerAlive = false) (due : s.twin.rxAt + 16000000 ≤ s.mono) : Lands (exec .twinStandbyTimeout s) fun e =>
      Only [.todo, .hatch, .notif, .par, .faults, .twin, .pantry] s e ∧ e.twin.standbyLost = true ∧ e.twin.peerRole = none ∧ e.twin.role = .active ∧
      (s.faults.present.contains { src := 0x46, inst := noInst, sub := 0 } = false → s.Fired e 0x46) := by
  let u := s.updTwin fun t => { t with standbyLost := true, peerRole := none, qualifying := none, resync := false }
  have run : exec .twinStandbyTimeout s = (u.condOn 0x46 noInst 0 []).done := if_pos ⟨active, paired, present, dead, elapsed_of_le due⟩
  have fires := condOn_keeps (M := 8440) (a1 := 0x46) (a2 := noInst) (a3 := 0) (a4 := []) (by decide) (.refl _ u)
  have started : Keeps 10488 s u := updTwin_keeps (by decide) (.refl _ s)
  have twin : u.twin.standbyLost = true ∧ u.twin.peerRole = none ∧ u.twin.role = .active := ⟨rfl, rfl, active⟩
  have faults : u.faults = s.faults := rfl
  clear_value u
  refine ⟨_, run, only_of (condOn_keeps (by decide) started), ?_, ?_, ?_, fun absent => ?_⟩
  · rw [fires.twin (by decide)]; exact twin.1
  · rw [fires.twin (by decide)]; exact twin.2.1
  · rw [fires.twin (by decide)]; exact twin.2.2
  · exact (condOn_fired u (by decide) (by rw [faults]; exact absent) []).from (by rw [faults])

/-- C_s of a planned switch has come (R387). -/
theorem twinSwitchBoundary_lands {s : State} {w : SwitchPlan} (planned : s.twin.switch = some w) (due : w.at_ ≤ s.now) :
    if w.rising = false then Next (exec .twinSwitchBoundary s) fun t => Only [.twin] s t ∧
      t.twin = { s.twin with switch := none, handoverUntil := some (s.mono + 160000) }
    else if s.twin.role = .standby ∧ s.twin.qualified = true then Lands (exec .twinSwitchBoundary s) fun e =>
      Only [.freeCount, .lanes, .links, .time, .ring, .mod, .prot, .dt, .todo, .hatch, .notif, .par, .faults, .twin, .pantry] s e ∧
      e.twin.role = .active ∧ e.twin.epoch = (s.twin.epoch + 1) % 2 ^ 16 ∧ e.twin.switch = none
    else Next (exec .twinSwitchBoundary s) fun t => Only [.twin] s t ∧ t.twin = { s.twin with switch := none } := by
  let u := s.updTwin fun t => { t with switch := none }
  have run : exec .twinSwitchBoundary s = if w.rising = true then
      (if s.twin.role = .standby ∧ s.twin.qualified = true then (u.toActive s.nextEpoch).done else .next u)
      else .next (u.updTwin fun t => { t with handoverUntil := some (s.mono + 160000) }) := by
    change execTwinSwitchBoundary s = _
    rw [execTwinSwitchBoundary, planned]
    exact if_neg (Nat.not_lt.2 due)
  have gone : Keeps 2048 s u := updTwin_keeps (by decide) (.refl _ s)
  by_cases rising : w.rising = true
  · rw [if_pos rising] at run
    rw [if_neg (by rw [rising]; decide)]
    by_cases rises : s.twin.role = .standby ∧ s.twin.qualified = true
    · rw [if_pos rises] at run
      rw [if_pos rises]
      have twin := toActive_twin u s.nextEpoch
      rw [setRole_twin] at twin
      refine ⟨_, run, only_of (toActive_keeps (by decide) (gone.weaken (by decide))), by rw [twin], ?_, by rw [twin]⟩
      rw [twin]
      exact Nat.mod_mod ..
    · rw [if_neg rises] at run
      rw [if_neg rises]
      exact ⟨u, run, only_of gone, rfl⟩
  · rw [if_neg rising] at run
    rw [if_pos (Bool.not_eq_true _ ▸ rising)]
    exact ⟨_, run, only_of (updTwin_keeps (by decide) gone), rfl⟩

theorem switchHandoverEnd_lands {s : State} {t : Nat} (until_ : s.twin.handoverUntil = some t) (due : t ≤ s.mono) :
    Lands (exec .switchHandoverEnd s) fun e => Only [.time, .ring, .todo, .hatch, .notif, .par, .faults, .twin, .pantry] s e ∧
      e.twin.role = .standby ∧ e.twin.epoch = (s.twin.epoch + 1) % 2 ^ 16 ∧ e.twin.handoverUntil = none ∧ e.twin.qualified = true ∧
      e.twin.peerRole = some 1 := by
  let u := (((s.updTwin fun t => { t with handoverUntil := none }).setRole .standby s.nextEpoch).updTwin fun t =>
    { t with qualified := true, qualifyDone := true, peerRole := some 1, missed := 0 })
  have run : exec .switchHandoverEnd s = u.timeRefresh.done := by
    change execSwitchHandoverEnd s = _
    rw [execSwitchHandoverEnd, until_]
    exact if_neg (Nat.not_lt.2 due)
  have keeps : Keeps 2056 s u := updTwin_keeps (by decide) (setRole_keeps (by decide) (updTwin_keeps (by decide) (.refl _ s)))
  have twin : u.twin.role = .standby ∧ u.twin.epoch = s.nextEpoch % 2 ^ 16 ∧ u.twin.handoverUntil = none ∧ u.twin.qualified = true ∧
      u.twin.peerRole = some 1 := ⟨rfl, rfl, rfl, rfl, rfl⟩
  rw [State.nextEpoch, Nat.mod_mod] at twin
  clear_value u
  have same : u.timeRefresh.twin = u.twin := (timeRefresh_keeps (M := 2 ^ 28 - 1 - 2048) (by decide) (.refl _ u)).twin (by decide)
  refine ⟨_, run, only_of (timeRefresh_keeps (by decide) (keeps.weaken (by decide))), ?_⟩
  rw [same]
  exact twin

theorem unitResetDelay_lands {s : State} {t : Nat} {twin : Bool} (asked : s.twin.resetDue = some (t, twin)) (due : t ≤ s.mono) :
    Lands (exec .unitResetDelay s) fun e => Only [.todo, .twin, .links] s e ∧
      e.twin.resetDue = none ∧ (twin = false → e.todo = s.todo ++ [.chipReset 3 0xFF]) ∧
      (twin = true → e.todo = s.todo ∧ (s.twinLinkUp = true →
        (e.lnk 130).queue = (s.lnk 130).queue ++ [{ type := 0x3A, payload := s.twin.epoch * 2 ^ 80 }])) := by
  let u := s.updTwin fun t => { t with resetDue := none }
  have run : exec .unitResetDelay s = (if twin = true then u.twinSend 0x3A (pf 80 s.twin.epoch) else u.later (.chipReset 3 0xFF)).done := by
    change execUnitResetDelay s = _
    rw [execUnitResetDelay, asked]
    exact if_neg (Nat.not_lt.2 due)
  have gone : Keeps 67592 s u := updTwin_keeps (by decide) (.refl _ s)
  have started : u.twin.resetDue = none ∧ u.todo = s.todo ∧ u.twinLinkUp = s.twinLinkUp ∧ u.lnk 130 = s.lnk 130 := ⟨rfl, rfl, rfl, rfl⟩
  clear_value u
  obtain ⟨none_, todo, link, lnk⟩ := started
  cases twin with
  | true =>
    rw [if_pos rfl] at run
    have sends := twinSend_keeps (M := 65536) (a1 := 0x3A) (a2 := pf 80 s.twin.epoch) (by decide) (.refl _ u)
    refine ⟨_, run, only_of (twinSend_keeps (by decide) gone), by rw [sends.twin (by decide), none_], (nomatch ·), fun _ =>
      ⟨by rw [sends.todo (by decide), todo], fun up => ?_⟩⟩
    rw [twinSend_queue, if_pos (link.trans up), lnk]
    rfl
  | false =>
    rw [if_neg Bool.false_ne_true] at run
    exact ⟨_, run, only_of (later_keeps (by decide) gone), none_, fun _ => congrArg (· ++ [Act.chipReset 3 0xFF]) todo, (nomatch ·)⟩

end Sys2Proof.Machine
end

section
/-!
PROOFS. The times of a twin (O37): the slots of the service lanes (R107, R118, R371, R405, R408); the obligation is settled.
-/

namespace Sys2Proof.Machine

open Host

/-! ### A block sent -/

/-- A block's stamp is of the time it is sent at. -/
theorem stampPayload_congr {s u : State} (time : u.time = s.time) (ty p : Nat) : u.stampPayload ty p = s.stampPayload ty p := by
  simp only [State.stampPayload, State.fineTx, State.fine, State.now, time]

/-- What a lane's link is after a block has gone out on it. -/
structure LinkSent (l k : Link) (out seq : Nat) : Prop where
  /-- The block. -/
  lastOut : k.lastOut = out
  /-- The next number. -/
  downSeq : k.downSeq = (seq + 1) % 256
  /-- The queue. -/
  queue : k.queue = l.queue

theorem sendTagged_lnk (s : State) (lane tag ty p : Nat) :
    LinkSent (s.lnk lane) ((s.sendTagged lane tag ty p).lnk lane) (ofMsb (blockBits ty tag (s.lnk lane).downSeq (s.stampPayload ty p)))
      (s.lnk lane).downSeq ∧ ∀ m, m ≠ lane → (s.sendTagged lane tag ty p).lnk m = s.lnk m := by
  unfold State.sendTagged
  extract_lets p' b s1
  let l := { s.lnk lane with lastOut := ofMsb b, downSeq := ((s.lnk lane).downSeq + 1) % 256, sinceRole := (s.lnk lane).sinceRole + 1 }
  have links : s1.links = s.links := (putOut_keeps (M := 16384) (by decide) (.refl _ s)).links (by decide)
  have own : (s1.modLink lane fun l => { l with lastOut := ofMsb b, downSeq := (l.downSeq + 1) % 256, sinceRole := l.sinceRole + 1 }).lnk lane = l := by
    rw [lnk_modLink, State.lnk, links]
    rfl
  have other (m : Nat) (out : m ≠ lane) :
      (s1.modLink lane fun l => { l with lastOut := ofMsb b, downSeq := (l.downSeq + 1) % 256, sinceRole := l.sinceRole + 1 }).lnk m = s.lnk m := by
    rw [lnk_modLink_ne _ out, State.lnk, links, State.lnk]
  generalize (s1.modLink lane fun l => { l with lastOut := ofMsb b, downSeq := (l.downSeq + 1) % 256, sinceRole := l.sinceRole + 1 }) = u at *
  have sent : LinkSent (s.lnk lane) l (ofMsb b) (s.lnk lane).downSeq := ⟨rfl, rfl, rfl⟩
  have noted (f : Link → Link) (same : LinkSent (s.lnk lane) (f l) (ofMsb b) (s.lnk lane).downSeq) :
      LinkSent (s.lnk lane) ((u.modLink lane f).lnk lane) (ofMsb b) (s.lnk lane).downSeq ∧ ∀ m, m ≠ lane → (u.modLink lane f).lnk m = s.lnk m := by
    rw [lnk_modLink, own]
    exact ⟨same, fun m out => (lnk_modLink_ne u out f).trans (other m out)⟩
  have plain : LinkSent (s.lnk lane) (u.lnk lane) (ofMsb b) (s.lnk lane).downSeq ∧ ∀ m, m ≠ lane → u.lnk m = s.lnk m := by
    rw [own]
    exact ⟨sent, other⟩
  unfold State.noteSent
  split
  · exact plain
  split
  · exact noted _ ⟨rfl, rfl, rfl⟩
  split
  · exact noted _ ⟨rfl, rfl, rfl⟩
  split
  · exact noted _ ⟨rfl, rfl, rfl⟩
  split
  · exact noted _ ⟨rfl, rfl, rfl⟩
  · exact plain

/-! ### The common stream of the twin lanes (R371) -/

/-- The first block of the common stream taken, from a state in which it stands first. -/
def State.streamTaken (s v : State) (lane : Nat) : State :=
  let far := if lane = 130 then 131 else 130
  let b := (v.lnk 130).queue.headD { type := tyIdle, payload := 0 }
  let t := (v.modLink 130 fun l => { l with queue := l.queue.drop 1 }).updTwin fun t =>
    { t with txSeq := (v.twin.txSeq + 1) % 256,
             ahead := if (s.lane far).st = .linked then t.ahead.mod [] far fun l => l ++ [(v.twin.txSeq, b.type, b.payload)] else t.ahead }
  t.modLink lane fun l => { l with downSeq := v.twin.txSeq }

/-- The block that goes out next on a twin lane, where no TW_ROLE is owed and the unit is not the active. -/
theorem twinNext_quiet {s : State} {lane : Nat} (unowed : s.twin.roleOwed = false) (other : s.twin.role ≠ .active) : s.twinNext lane =
    let b := (s.lnk 130).queue.headD { type := tyIdle, payload := 0 }
    (s.streamTaken s lane).sendTagged lane ((s.streamTaken s lane).twin.epoch % 4) b.type b.payload := by
  let sends (v : State) : State :=
    let b := (v.lnk 130).queue.headD { type := tyIdle, payload := 0 }
    (s.streamTaken v lane).sendTagged lane ((s.streamTaken v lane).twin.epoch % 4) b.type b.payload
  unfold State.twinNext
  extract_lets far role s1 due s2
  have unsent : s1 = s := if_neg (ne_true_of_eq_false unowed)
  have quiet : s2 = s := (if_neg fun h => other (by rw [← unsent]; exact h.1)).trans unsent
  show sends s2 = sends s
  rw [quiet]

theorem modLink_downSeq_queue (s : State) (lane q n : Nat) : ((s.modLink lane fun l => { l with downSeq := q }).lnk n).queue = (s.lnk n).queue := by
  by_cases own : n = lane
  · rw [own, lnk_modLink]
  · rw [lnk_modLink_ne s own]

theorem streamTaken_spec (s v : State) (lane : Nat) : let u := s.streamTaken v lane
    Keeps 84480 v u ∧ u.twin.txSeq = (v.twin.txSeq + 1) % 256 ∧ u.twin.epoch = v.twin.epoch ∧ u.time = v.time ∧
      (u.lnk lane).downSeq = v.twin.txSeq ∧ (u.lnk 130).queue = (v.lnk 130).queue.drop 1 := by
  unfold State.streamTaken
  extract_lets far b t
  have first : (t.lnk 130).queue = (v.lnk 130).queue.drop 1 := congrArg Link.queue (lnk_modLink v 130 fun l => { l with queue := l.queue.drop 1 })
  have kept : Keeps 84480 v t := updTwin_keeps (by decide) (modLink_keeps (by decide) (.refl _ v))
  have taken : t.twin.txSeq = (v.twin.txSeq + 1) % 256 ∧ t.twin.epoch = v.twin.epoch ∧ t.time = v.time := ⟨rfl, rfl, rfl⟩
  clear_value t
  have link := lnk_modLink t lane fun l => { l with downSeq := v.twin.txSeq }
  refine ⟨modLink_keeps (by decide) kept, taken.1, taken.2.1, taken.2.2, by rw [link], ?_⟩
  rw [← first]
  exact modLink_downSeq_queue t lane v.twin.txSeq 130

/-! ### Service slots -/

/-- A lane of the service ports sends a block. -/
abbrev State.SlotOut (s e : State) (lane seq tag ty p : Nat) : Prop :=
  (e.lnk lane).lastOut = ofMsb (blockBits ty tag seq (s.stampPayload ty p)) ∧ (e.lnk lane).downSeq = (seq + 1) % 256

section
variable {s : State} {port : ServiceLane}

theorem serviceSlot_run : exec (.serviceSlot port) s =
    if (s.lane (svcLane port)).st = .linked ∨ (s.lane (svcLane port)).st = .hunt then
      (if svcLane port < 130 then (s.ringSlot (svcLane port)).done else (s.twinSlot (svcLane port)).done)
    else if (s.lane (svcLane port)).st = .align then .next (s.sendBlock (svcLane port) tyIdle 0) else .next s := rfl

theorem serviceSlot_untrained (linked : (s.lane (svcLane port)).st ≠ .linked) (hunt : (s.lane (svcLane port)).st ≠ .hunt)
    (align : (s.lane (svcLane port)).st ≠ .align) : exec (.serviceSlot port) s = .next s := by
  rw [serviceSlot_run, if_neg (not_or.2 ⟨linked, hunt⟩), if_neg align]

theorem serviceSlot_align (align : (s.lane (svcLane port)).st = .align) : Next (exec (.serviceSlot port) s) fun t => Only [.time, .lanes, .links] s t ∧
    s.SlotOut t (svcLane port) (s.lnk (svcLane port)).downSeq (s.twin.epoch % 4) tyIdle 0 := by
  have run := serviceSlot_run (s := s) (port := port)
  rw [if_neg (by rw [align]; decide), if_pos align] at run
  obtain ⟨⟨out, seq, -⟩, -⟩ := sendTagged_lnk s (svcLane port) (s.twin.epoch % 4) tyIdle 0
  exact ⟨_, run, only_of (sendBlock_keeps (by decide) (.refl _ s)), out, seq⟩

variable (works : (s.lane (svcLane port)).st = .linked ∨ (s.lane (svcLane port)).st = .hunt)
include works

theorem serviceSlot_ring (ring : svcLane port < 130) {b : DownBlock} (first : ringFirst (s.lnk (svcLane port)).queue = some b) :
    Lands (exec (.serviceSlot port) s) fun e => Only [.time, .lanes, .links] s e ∧
      (e.lnk (svcLane port)).queue = removeOne b (s.lnk (svcLane port)).queue ∧
      s.SlotOut e (svcLane port) (s.lnk (svcLane port)).downSeq (if b.type = 0x06 ∨ b.type = 0x25 then s.twin.epoch % 4 else bits b.payload 65 64)
        b.type b.payload := by
  have run := serviceSlot_run (s := s) (port := port)
  rw [if_pos works, if_pos ring] at run
  have filled : (s.lnk (svcLane port)).queue.isEmpty = false := by
    cases waits : (s.lnk (svcLane port)).queue with
    | nil =>
      have none_ : ringFirst [] = none := by decide
      rw [waits, none_] at first
      cases first
    | cons => rfl
  generalize svcLane port = lane at *
  let u := s.modLink lane fun l => { l with queue := removeOne b l.queue }
  have slot : s.ringSlot lane = u.sendTagged lane (if b.type = 0x06 ∨ b.type = 0x25 then s.twin.epoch % 4 else bits b.payload 65 64) b.type b.payload := by
    rw [State.ringSlot, if_neg (ne_true_of_eq_false filled), first]
  have link : u.lnk lane = { s.lnk lane with queue := removeOne b (s.lnk lane).queue } := lnk_modLink ..
  have kept : Keeps 82432 s u := modLink_keeps (by decide) (.refl _ s)
  have stamp : u.stampPayload b.type b.payload = s.stampPayload b.type b.payload := stampPayload_congr rfl ..
  clear_value u
  obtain ⟨⟨out, seq, queue⟩, -⟩ := sendTagged_lnk u lane (if b.type = 0x06 ∨ b.type = 0x25 then s.twin.epoch % 4 else bits b.payload 65 64)
    b.type b.payload
  rw [slot] at run
  rw [link] at out seq queue
  rw [stamp] at out
  exact ⟨_, run, only_of (sendTagged_keeps (by decide) kept), queue, out, seq⟩

theorem serviceSlot_ringIdle (ring : svcLane port < 130) (empty : (s.lnk (svcLane port)).queue = []) (none_ : s.twin.evidOut = none) :
    Lands (exec (.serviceSlot port) s) fun e => Only [.time, .lanes, .links] s e ∧
      s.SlotOut e (svcLane port) (s.lnk (svcLane port)).downSeq (s.twin.epoch % 4) tyIdle 0 := by
  have run := serviceSlot_run (s := s) (port := port)
  rw [if_pos works, if_pos ring] at run
  have quiet : s.evidNext = s := by rw [State.evidNext, none_]
  have slot : s.ringSlot (svcLane port) = s.sendBlock (svcLane port) tyIdle 0 := by
    rw [State.ringSlot, empty, List.isEmpty_nil, if_pos rfl, quiet, empty]
    rfl
  rw [slot] at run
  obtain ⟨⟨out, seq, -⟩, -⟩ := sendTagged_lnk s (svcLane port) (s.twin.epoch % 4) tyIdle 0
  exact ⟨_, run, only_of (sendBlock_keeps (by decide) (.refl _ s)), out, seq⟩

theorem serviceSlot_ahead (twin : 130 ≤ svcLane port) {q ty pl : Nat} {r : List (Nat × Nat × Nat)}
    (ahead : s.twin.ahead.get [] (svcLane port) = (q, ty, pl) :: r) : Lands (exec (.serviceSlot port) s) fun e =>
      Only [.twin, .time, .lanes, .links] s e ∧ e.twin.txSeq = s.twin.txSeq ∧ e.twin.ahead.get [] (svcLane port) = r ∧
      s.SlotOut e (svcLane port) q (s.twin.epoch % 4) ty pl := by
  have run := serviceSlot_run (s := s) (port := port)
  rw [if_pos works, if_neg (Nat.not_lt.2 twin)] at run
  generalize svcLane port = lane at *
  let u := (s.updTwin fun t => { t with ahead := t.ahead.set lane r }).modLink lane fun l => { l with downSeq := q }
  have slot : s.twinSlot lane = u.sendBlock lane ty pl := by rw [State.twinSlot, ahead]
  have link : (u.lnk lane).downSeq = q := congrArg Link.downSeq (lnk_modLink ..)
  have kept : Keeps 84480 s u := modLink_keeps (by decide) (updTwin_keeps (by decide) (.refl _ s))
  have stamp : u.stampPayload ty pl = s.stampPayload ty pl := stampPayload_congr rfl ..
  have given : u.twin = { s.twin with ahead := s.twin.ahead.set lane r } := rfl
  have taken : u.twin.txSeq = s.twin.txSeq ∧ u.twin.ahead.get [] lane = r ∧ u.twin.epoch = s.twin.epoch := by
    rw [given]
    exact ⟨rfl, Tab.get_set .., rfl⟩
  clear_value u
  obtain ⟨txSeq, left, epoch⟩ := taken
  have sends : u.sendBlock lane ty pl = u.sendTagged lane (s.twin.epoch % 4) ty pl := by rw [← epoch]; rfl
  obtain ⟨⟨out, seq, -⟩, -⟩ := sendTagged_lnk u lane (s.twin.epoch % 4) ty pl
  have same : (u.sendTagged lane (s.twin.epoch % 4) ty pl).twin = u.twin := (sendTagged_keeps (M := 82432) (by decide) (.refl _ u)).twin (by decide)
  have keeps : Keeps 84480 s (u.sendTagged lane (s.twin.epoch % 4) ty pl) := sendTagged_keeps (by decide) kept
  rw [slot, sends] at run
  rw [link] at seq
  rw [link, stamp] at out
  exact ⟨_, run, only_of keeps, by rw [same, txSeq], by rw [same, left], out, seq⟩

theorem serviceSlot_next (twin : 130 ≤ svcLane port) (level : s.twin.ahead.get [] (svcLane port) = []) (other : s.twin.role ≠ .active)
    (unowed : s.twin.roleOwed = false) : Lands (exec (.serviceSlot port) s) fun e =>
      Only [.twin, .time, .lanes, .links] s e ∧ e.twin.txSeq = (s.twin.txSeq + 1) % 256 ∧ (e.lnk 130).queue = (s.lnk 130).queue.drop 1 ∧
      let b := (s.lnk 130).queue.headD { type := tyIdle, payload := 0 }
      s.SlotOut e (svcLane port) s.twin.txSeq (s.twin.epoch % 4) b.type b.payload := by
  have run := serviceSlot_run (s := s) (port := port)
  rw [if_pos works, if_neg (Nat.not_lt.2 twin)] at run
  generalize svcLane port = lane at *
  have next : s.twinSlot lane = s.twinNext lane := by rw [State.twinSlot, level]
  obtain ⟨kept, txSeq, epoch, time, seq', queue⟩ := streamTaken_spec s s lane
  rw [next, twinNext_quiet unowed other] at run
  dsimp only
  generalize (s.lnk 130).queue.headD { type := tyIdle, payload := 0 } = b at *
  generalize s.streamTaken s lane = u at *
  obtain ⟨⟨out, seq, whole⟩, rest⟩ := sendTagged_lnk u lane (u.twin.epoch % 4) b.type b.payload
  have same := (sendTagged_keeps (M := 82432) (a1 := lane) (a2 := u.twin.epoch % 4) (a3 := b.type) (a4 := b.payload) (by decide)
    (.refl _ u)).twin (by decide)
  rw [seq'] at seq
  rw [seq', stampPayload_congr time, epoch] at out
  have keeps : Keeps 84480 s (u.sendTagged lane (u.twin.epoch % 4) b.type b.payload) := sendTagged_keeps (by decide) kept
  rw [epoch] at same seq whole rest keeps run
  generalize u.sendTagged lane (s.twin.epoch % 4) b.type b.payload = e at *
  refine ⟨e, run, only_of keeps, by rw [same, txSeq], ?_, out, seq⟩
  rw [← queue]
  by_cases own : 130 = lane
  · rw [own]
    exact whole
  · exact congrArg Link.queue (rest 130 own)

end

/-- Settles O37, row by row. -/
theorem twinTimes : Obligations.TwinTimes := by
  intro s
  refine ⟨peerAliveTimeout_lands, twinAliveInEdge_lands s, fun d r first fresh due => ⟨compareDeadline_idle first fresh due,
    compareDeadline_met first fresh due, compareDeadline_missed first fresh due⟩, fun f q => twFwdTimeout_lands, twinStreamLost_lands,
    fun b r => selftestPeriod_lands, fun b => selftestPeriod_overdue, twHealthPeriod_lands, qualifyComplete_lands, fun t => twinLanesDownTimeout_lands,
    twinStandbyTimeout_lands, fun w => twinSwitchBoundary_lands, fun t => switchHandoverEnd_lands, fun t twin => unitResetDelay_lands,
    fun port => ⟨serviceSlot_untrained, serviceSlot_align, fun works => ⟨fun ring => ⟨fun b => serviceSlot_ring works ring,
    serviceSlot_ringIdle works ring⟩, fun twin => ⟨fun q ty pl r => serviceSlot_ahead works twin, serviceSlot_next works twin⟩⟩⟩⟩

end Sys2Proof.Machine
end

section
/-!
PROOFS. The blocks of a twin (O36): no act that a step sets off asks a string for the active's order. A string's sorter holds the active's order where a
TW_STATE block brought one (R288); the acts discard dead times and orders, and bring none.
-/

namespace Sys2Proof.Machine

open Host

/-! ### States that hold no order of the active -/

/-- A string without an order of the active has none after. -/
def State.Unasked (s t : State) : Prop := ∀ n, (s.srt n).fromActive = none → (t.srt n).fromActive = none

/-- The mask of every part but the dead times and the sorter. -/
abbrev noDt : Nat := 2 ^ 28 - 1 - 524288

theorem State.Unasked.refl (s : State) : s.Unasked s := fun _ h => h

theorem State.Unasked.trans {s t u : State} (a : s.Unasked t) (b : t.Unasked u) : s.Unasked u := fun n h => b n (a n h)

/-- What leaves the sorter as it is. -/
theorem unasked_of_sort {s t : State} (sort : t.dt.sort = s.dt.sort) : s.Unasked t := fun n h => by
  rw [State.srt, sort]
  exact h

theorem Keeps.unasked {s t : State} (h : Keeps noDt s t) : s.Unasked t := unasked_of_sort (by rw [h.dt (by decide)])

theorem State.Unasked.keep {s t u : State} (a : s.Unasked t) (b : Keeps noDt t u) : s.Unasked u := a.trans b.unasked

theorem foldl_unasked {α : Type} {f : State → α → State} (h : ∀ u x, State.Unasked u (f u x)) (l : List α) (s : State) : s.Unasked (l.foldl f s) := by
  induction l generalizing s with
  | nil => exact .refl s
  | cons a r ih => exact (h s a).trans (ih _)

theorem ite_unasked {c : Prop} [Decidable c] {s t u : State} (h : c → s.Unasked t) (k : ¬c → s.Unasked u) : s.Unasked (if c then t else u) :=
  iteInduction (motive := fun v => s.Unasked v) h k

/-! ### Dead times and trips -/

theorem modDtl_unasked (s : State) (lane : Nat) (f : DtLane → DtLane) : s.Unasked (s.modDtl lane f) := unasked_of_sort rfl

theorem dtDiscard_unasked (s : State) (lane : Nat) : s.Unasked (s.dtDiscard lane) := foldl_unasked (fun u _ => modDtl_unasked u lane _) _ s

theorem laneOut_unasked (s : State) (lane : Nat) : s.Unasked (s.laneOut lane) :=
  State.Unasked.keep ((modMl_keeps (by decide) (withdraw_keeps (by decide) (.refl noDt s))).unasked.trans (dtDiscard_unasked _ lane))
    (modStr_keeps (by decide) (.refl _ _))

theorem tripLane_unasked (s : State) (str lane : Nat) : s.Unasked (s.tripLane str lane) := by
  unfold State.tripLane
  extract_lets entered s1 b s2 s3 s4
  have out : s.Unasked s1 := laneOut_unasked s lane
  have entering : s1.Unasked s2 := ite_unasked (fun _ => (modByp_keeps (by decide) (.refl noDt s1)).unasked) fun _ => .refl s1
  have answered : s2.Unasked s4 :=
    (answerWaiting_keeps (by decide) (answerWaiting_keeps (by decide) (modByp_keeps (by decide) (.refl noDt s2)))).unasked
  have whole := (out.trans entering).trans answered
  exact ite_unasked (fun _ => whole.keep (tripAction_keeps (by decide) (.refl _ _))) fun _ => whole

theorem tripMask_unasked (s : State) (str mask lane : Nat) : s.Unasked (s.tripMask str mask lane) := by
  unfold State.tripMask
  extract_lets first s1 s2
  refine ite_unasked (fun _ => (modPrt_keeps (by decide) (.refl _ s)).unasked) fun _ => ?_
  have tripped : s.Unasked s1 := (modPrt_keeps (by decide) (modStr_keeps (by decide) (.refl noDt s))).unasked
  have lanes : s1.Unasked s2 := foldl_unasked (fun u l => tripLane_unasked u str l) _ s1
  exact (tripped.trans lanes).keep (coastLanes_keeps (by decide) (note_keeps (by decide) (bump_keeps (by decide) (.refl _ s2))))

theorem trip_unasked (s : State) (str cause lane : Nat) : s.Unasked (s.trip str cause lane) :=
  ite_unasked (fun _ => tripMask_unasked s str _ lane) fun _ =>
    (tripMask_unasked s str _ lane).keep (twinTrip_keeps (by decide) (modPrt_keeps (by decide) (.refl _ _)))

theorem noFloor_unasked (s : State) (lane : Nat) (args : Bytes) : s.Unasked (s.noFloor lane args) :=
  (modDtl_unasked s lane _).keep (fire_keeps (by decide) (.refl _ _))

theorem dtFloorRead_unasked (s : State) (lane : Nat) (res : Option (Nat × Nat)) : s.Unasked (s.dtFloorRead lane res) := by
  unfold State.dtFloorRead
  split
  · exact ite_unasked (fun _ => (modDtl_unasked s lane _).keep (fire_keeps (by decide) (.refl _ _))) fun _ => modDtl_unasked s lane _
  · exact noFloor_unasked s lane _
  · exact noFloor_unasked s lane _

/-! ### Bypasses and lost members -/

theorem enterNow_unasked (s : State) (lane : Nat) : s.Unasked (s.enterNow lane) :=
  (laneOut_unasked s lane).keep (answerWaiting_keeps (by decide) (sendAct_keeps (by decide) (modByp_keeps (by decide) (.refl _ _))))

theorem urgentBypass_unasked (s : State) (lane cause : Nat) : s.Unasked (s.urgentBypass lane cause) := by
  unfold State.urgentBypass
  have recorded : s.Unasked (s.record lane cause) := (record_keeps (by decide) (.refl _ s)).unasked
  have counted : s.Unasked ((s.record lane cause).bump 0x0C09 (s.strOf lane) 1) := recorded.keep (bump_keeps (by decide) (.refl _ _))
  refine ite_unasked (fun _ => ite_unasked (fun _ => recorded.trans (enterNow_unasked _ lane)) fun _ => recorded) fun _ => ?_
  exact ite_unasked (fun _ => counted.trans (trip_unasked _ _ 8 _)) fun _ => counted.trans (enterNow_unasked _ lane)

theorem plannedBypass_unasked (s : State) (lane cause : Nat) : s.Unasked (s.plannedBypass lane cause) := by
  unfold State.plannedBypass
  have recorded : s.Unasked (s.record lane cause) := (record_keeps (by decide) (.refl _ s)).unasked
  have counted : s.Unasked ((s.record lane cause).bump 0x0C09 (s.strOf lane) 2) := recorded.keep (bump_keeps (by decide) (.refl _ _))
  refine ite_unasked (fun _ => recorded) fun _ => ?_
  exact ite_unasked (fun _ => counted.trans (trip_unasked _ _ 8 _)) fun _ =>
    ite_unasked (fun _ => counted) fun _ => counted.trans (enterNow_unasked _ lane)

theorem cellFail_unasked (s : State) (lane : Nat) : s.Unasked (s.cellFail lane) :=
  (modPrt_keeps (by decide) (.refl noDt s)).unasked.trans (trip_unasked _ _ 7 _)

theorem lostMember_unasked (s : State) (lane : Nat) (auth : Bool) : s.Unasked (s.lostMember lane auth) := by
  unfold State.lostMember
  refine ite_unasked (fun _ => .refl s) fun _ => ite_unasked (fun _ => ?_) fun _ => ite_unasked (fun _ => ?_) fun _ => cellFail_unasked s lane
  · exact ite_unasked (fun _ => (bump_keeps (by decide) (.refl _ s)).unasked) fun _ => urgentBypass_unasked s lane 3
  · exact (condOn_keeps (by decide) (modLink_keeps (by decide) (.refl noDt s))).unasked.trans (foldl_unasked (fun u str =>
      ite_unasked (fun _ => trip_unasked u str 6 _) fun _ => .refl u) _ _)

/-! ### Starts and stops of strings -/

theorem becomeStopped_unasked (s : State) (str : Nat) : s.Unasked (s.becomeStopped str) := by
  unfold State.becomeStopped
  extract_lets s1 mem s2
  have stopped : s.Unasked s1 := (modPrt_keeps (by decide) (modStr_keeps (by decide) (.refl noDt s))).unasked
  have out : s1.Unasked s2 := foldl_unasked (fun u l => by
    have quiet : u.Unasked ((u.modMl l fun m => { m with on := false, legs := {}, nlc := 0, cycle := none }).dtDiscard l) :=
      (modMl_keeps (by decide) (.refl noDt u)).unasked.trans (dtDiscard_unasked _ l)
    exact ite_unasked (fun _ => quiet) fun _ => quiet.keep (sendAct_keeps (by decide) (.refl _ _))) mem s1
  exact (stopped.trans out).keep (coastLanes_keeps (by decide) (.refl _ _))

theorem cancelStart_unasked (s : State) (str : Nat) : s.Unasked (s.cancelStart str) :=
  (foldl_unasked (fun u l => laneOut_unasked u l) _ s).trans (becomeStopped_unasked _ str)

theorem askStop_unasked (s : State) (str : Nat) (dark : Bool) : s.Unasked (s.askStop str dark) :=
  ite_unasked (fun _ => cancelStart_unasked s str) fun _ => ite_unasked (fun _ => (modStr_keeps (by decide) (.refl _ s)).unasked) fun _ => .refl s

theorem lostAtStart_unasked (s : State) (str : Nat) : s.Unasked (s.lostAtStart str) := foldl_unasked (fun u l => lostMember_unasked u l _) _ s

/-- A start discards the order of the sorter, and takes none of the active. -/
theorem modSrt_unasked (s : State) (str : Nat) (f : SortStr → SortStr) (same : ∀ x, (f x).fromActive = x.fromActive) : s.Unasked (s.modSrt str f) := by
  intro n h
  by_cases own : n = str
  · rw [own, srt_modSrt, same, ← own, h]
  · rw [srt_modSrt_ne s own, h]

theorem startString_unasked (s : State) (str short : Nat) : s.Unasked (s.startString str short) := by
  have starts : s.Unasked (((s.modStr str fun y =>
      { y with st := .starting, mode := s.pu 0x0802 str 0 1, o0 := s.tickOf short, first := true, next := min y.next (s.tickOf short - s.modDelay str),
               stopReq := false, darkStop := false, rejected := none, plan := none }).modPrt str fun p => { p with uvArmed := false }).modSrt str
        fun x => { x with order := [] }) :=
    (modPrt_keeps (by decide) (modStr_keeps (by decide) (.refl noDt s))).unasked.trans (modSrt_unasked _ str _ fun _ => rfl)
  exact (starts.keep (coastLanes_keeps (by decide) (.refl _ _))).trans (lostAtStart_unasked _ str)

/-! ### Riding through (R354 to R359) -/

theorem rideNext_unasked (k : Nat) (s : State) : s.Unasked (State.rideNext k s) := by
  induction k generalizing s with
  | zero => exact (rideTo_keeps (by decide) (.refl noDt s)).unasked
  | succ k ih =>
    rw [State.rideNext]
    split
    · exact (rideTo_keeps (by decide) (.refl noDt s)).unasked
    · rename_i str _ _
      refine ite_unasked (fun _ => (modRide_keeps (by decide) (note_keeps (by decide) (.refl noDt s))).unasked.trans (ih _)) fun _ => ?_
      refine ite_unasked (fun _ => (modRide_keeps (by decide) (.refl noDt s)).unasked.trans (ih _)) fun _ => ?_
      exact ite_unasked (fun _ => (rideHalt_keeps (by decide) (.refl noDt s)).unasked) fun _ =>
        (startString_unasked s str _).keep (modRide_keeps (by decide) (.refl _ _))

theorem rideEnable_unasked (s : State) : s.Unasked s.rideEnable :=
  (modRide_keeps (by decide) (rideTo_keeps (by decide) (.refl noDt s))).unasked.trans (rideNext_unasked 17 _)

theorem rideSync_unasked (s : State) : s.Unasked s.rideSync :=
  ite_unasked (fun _ => (rideHalt_keeps (by decide) (rideTo_keeps (by decide) (.refl noDt s))).unasked) fun _ =>
    ite_unasked (fun _ => (rideTo_keeps (by decide) (.refl noDt s)).unasked.trans (rideEnable_unasked _)) fun _ =>
      (modRide_keeps (by decide) (rideTo_keeps (by decide) (.refl noDt s))).unasked

theorem pcFail_unasked (s : State) (lane cause : Nat) : s.Unasked (s.pcFail lane cause) :=
  State.Unasked.keep (ite_unasked (fun _ => urgentBypass_unasked s lane cause) fun _ => plannedBypass_unasked s lane cause)
    (fire_keeps (by decide) (.refl _ _))

theorem pcJudge_unasked (s : State) (str : Nat) : s.Unasked (s.pcJudge str) :=
  foldl_unasked (fun u l => ite_unasked (fun _ => pcFail_unasked u l 3) fun _ => ite_unasked (fun _ => pcFail_unasked u l 9) fun _ => .refl u) _ s

theorem pcDone_unasked (s : State) : s.Unasked s.pcDone := by
  unfold State.pcDone
  have judged : s.Unasked (s.pcStrings.foldl (fun s str => s.pcJudge str) s) := foldl_unasked (fun u str => pcJudge_unasked u str) _ s
  exact ite_unasked (fun _ => judged.keep (rideHalt_keeps (by decide) (.refl _ _))) fun _ => judged.trans (rideSync_unasked _)

theorem darkAction_unasked (s : State) (str : Nat) : s.Unasked (s.darkAction str) :=
  ite_unasked (fun _ => askStop_unasked s str true) fun _ => ite_unasked (fun _ => trip_unasked s str 13 _) fun _ => .refl s

theorem mvLoss_unasked (s : State) (m : Int) : s.Unasked (s.mvLoss m) := by
  unfold State.mvLoss
  extract_lets first s1
  have lost : s.Unasked s1 :=
    (condOn_keeps (by decide) (bump_keeps (by decide) (rideTo_keeps (by decide) (modRide_keeps (by decide) (.refl noDt s))))).unasked
  exact lost.trans (foldl_unasked (fun u str => ite_unasked (fun _ => darkAction_unasked u str) fun _ => .refl u) _ _)

theorem gridEval_unasked (s : State) : s.Unasked s.gridEval := by
  unfold State.gridEval
  have judged (f : Ride → Ride) : s.Unasked (s.modRide f) := (modRide_keeps (by decide) (.refl noDt s)).unasked
  exact ite_unasked (fun _ => (judged _).trans (mvLoss_unasked _ _)) fun _ => judged _

theorem rideSample_unasked (s : State) (lane chan : Nat) : s.Unasked (s.rideSample lane chan) := by
  unfold State.rideSample
  extract_lets s1
  have seen : s.Unasked s1 := ite_unasked (fun _ => gridEval_unasked s) fun _ => .refl s
  exact ite_unasked (fun _ => seen.trans (pcDone_unasked s1)) fun _ => seen

/-! ### Protection (R335 to R342, R349) -/

theorem protCurrent_unasked (s : State) (str lane chan : Nat) : s.Unasked (s.protCurrent str lane chan) := by
  unfold State.protCurrent
  extract_lets x t i p beyond open_ run ror s1
  have kept : s.Unasked s1 := (modPrt_keeps (by decide) (.refl noDt s)).unasked
  exact ite_unasked (fun _ => kept) fun _ => ite_unasked (fun _ => kept.trans (trip_unasked s1 str 0 lane)) fun _ =>
    ite_unasked (fun _ => kept.trans (trip_unasked s1 str 1 lane)) fun _ => kept

theorem protBus_unasked (s : State) (str lane chan : Nat) : s.Unasked (s.protBus str lane chan) :=
  ite_unasked (fun _ => .refl s) fun _ => ite_unasked (fun _ => trip_unasked s str 4 lane) fun _ =>
    ite_unasked (fun _ => trip_unasked s str 5 lane) fun _ => .refl s

theorem protCap_unasked (s : State) (lane chan : Nat) : s.Unasked (s.protCap lane chan) :=
  ite_unasked (fun _ => .refl s) fun _ =>
    ite_unasked (fun _ => ite_unasked (fun _ => urgentBypass_unasked s lane 6) fun _ => trip_unasked s _ 2 lane) fun _ =>
      ite_unasked (fun _ => ite_unasked (fun _ => urgentBypass_unasked s lane 7) fun _ => trip_unasked s _ 3 lane) fun _ => .refl s

theorem protSample_unasked (s : State) (lane chan : Nat) : s.Unasked (s.protSample lane chan) := by
  unfold State.protSample
  refine State.Unasked.trans (foldl_unasked (fun u str => ?_) _ s) (protCap_unasked _ lane chan)
  extract_lets a
  have current : u.Unasked a := ite_unasked (fun _ => protCurrent_unasked u str lane chan) fun _ => .refl u
  exact ite_unasked (fun _ => current.trans (protBus_unasked a str lane chan)) fun _ => current

theorem healthTaken_unasked (s : State) (lane : Nat) : s.Unasked (s.healthTaken lane) := by
  unfold State.healthTaken
  split
  · exact .refl s
  · refine ite_unasked (fun _ => .refl s) fun _ => ?_
    have judged (f : Byp → Byp) : s.Unasked (s.modByp lane f) := (modByp_keeps (by decide) (.refl noDt s)).unasked
    exact ite_unasked (fun _ => ((judged _).trans (urgentBypass_unasked _ lane 0x0A)).keep
      (fire_keeps (by decide) (bump_keeps (by decide) (.refl _ _)))) fun _ => judged _

theorem faultTaken_unasked (s : State) (lane code : Nat) : s.Unasked (s.faultTaken lane code) := by
  unfold State.faultTaken
  have either (mv : Bool) (cause : Nat) : s.Unasked (if mv then s.urgentBypass lane cause else s.cellFail lane) :=
    ite_unasked (fun _ => urgentBypass_unasked s lane cause) fun _ => cellFail_unasked s lane
  refine ite_unasked (fun _ => .refl s) fun _ => ite_unasked (fun _ => either _ 4) fun _ => ite_unasked (fun _ => cellFail_unasked s lane) fun _ => ?_
  exact ite_unasked (fun _ => ite_unasked (fun _ => .refl s) fun _ => either _ 5) fun _ =>
    ite_unasked (fun _ => trip_unasked s _ 14 _) fun _ => .refl s

/-! ### Thermal shutdown (R461 to R463) -/

theorem thermTrip_unasked (s : State) (mask : Nat) : s.Unasked (s.thermTrip mask) := foldl_unasked (fun u n => trip_unasked u n 11 _) _ s

theorem thermShut_unasked (s : State) (z src : Nat) (t : Int) : s.Unasked (s.thermShut z src t) := by
  unfold State.thermShut
  split
  · exact (updHk_keeps (by decide) (.refl noDt s)).unasked
  · refine ite_unasked (fun _ => .refl s) fun _ => ?_
    extract_lets id mask r s1 s2
    have shut : s.Unasked s2 := (thermTrip_unasked s mask).keep (bump_keeps (by decide) (thermAdd_keeps (by decide)
      (updHk_keeps (by decide) (.refl _ _))))
    exact ite_unasked (fun _ => shut.keep (forwardRequest_keeps (by decide) (.refl _ _))) fun _ => shut

theorem thermAsk_unasked (s : State) (z : Nat) : s.Unasked (s.thermAsk z) := by
  have waits (f : ThermZone → ThermZone) : s.Unasked (s.modZone z f) := (modZone_keeps (by decide) (.refl noDt s)).unasked
  unfold State.thermAsk
  dsimp only
  split
  · exact .refl s
  · refine ite_unasked (fun _ => .refl s) fun _ => ite_unasked (fun _ => (hkUrgent_keeps (by decide) (.refl noDt s)).unasked) fun _ => ?_
    split
    · exact ite_unasked (fun _ => thermShut_unasked s z _ _) fun _ => waits _
    · exact waits _

theorem hkTryEval_unasked (s : State) : s.Unasked s.hkTryEval := by
  unfold State.hkTryEval
  refine ite_unasked (fun _ => ?_) fun _ => (hkTryPublish_keeps (by decide) (.refl noDt s)).unasked
  have formed : s.Unasked ((List.range 16).foldl (fun s z => s.zoneForm z) (s.updHk fun h => { h with open_ := false, publish := true })) :=
    (updHk_keeps (by decide) (.refl noDt s)).unasked.trans (foldl_unasked (fun u z => (zoneForm_keeps (by decide) (.refl noDt u)).unasked) _ _)
  exact (formed.trans (foldl_unasked (fun u z => thermAsk_unasked u z) _ _)).keep (hkTryPublish_keeps (by decide) (.refl _ _))

theorem hkReset_unasked (s : State) : s.Unasked s.hkReset := by
  unfold State.hkReset
  extract_lets drop
  have dropped (u : State) (k : Nat) : u.Unasked (drop u k) := by
    simp only [drop]
    refine State.Unasked.keep (foldl_unasked (fun v x => ?_) _ u) (hkRestart_keeps (by decide) (modPair_keeps (by decide) (.refl _ _)))
    split
    · exact (refuse_keeps (by decide) (.refl noDt v)).unasked
    · exact .refl v
  exact ((dropped s 0).trans (dropped _ 1)).trans (hkTryEval_unasked _)

theorem thermHealth_unasked (s : State) (lane : Nat) : s.Unasked (s.thermHealth lane) := by
  unfold State.thermHealth
  extract_lets h t s1
  have kept : s.Unasked s1 := (updHk_keeps (by decide) (.refl noDt s)).unasked
  refine kept.trans (foldl_unasked (fun u z => ?_) _ _)
  refine ite_unasked (fun _ => ?_) fun _ => .refl u
  have heard (f : ThermZone → ThermZone) : u.Unasked (u.modZone z f) := (modZone_keeps (by decide) (.refl noDt u)).unasked
  dsimp only
  split
  · exact ite_unasked (fun _ => (heard _).trans (thermShut_unasked _ z _ _)) fun _ => heard _
  · exact heard _

/-! ### Resets and the acts of a step -/

theorem blockReset_unasked (s : State) (src inst : Nat) : s.Unasked (s.blockReset src inst) := by
  unfold State.blockReset
  refine ite_unasked (fun _ => (freshAttempt_keeps (by decide) (.refl noDt s)).unasked) fun _ => ite_unasked (fun _ => ?_) fun _ => ?_
  · exact (modRack_keeps (by decide) (.refl noDt s)).unasked.trans
      (foldl_unasked (fun u l => (setLane_keeps (by decide) (.refl noDt u)).unasked) _ _)
  refine ite_unasked (fun _ => (freshAttempt_keeps (by decide) (freshAttempt_keeps (by decide) (.refl noDt s))).unasked) fun _ => ?_
  refine ite_unasked (fun _ => hkReset_unasked s) fun _ => ite_unasked (fun _ => (auxAct_keeps (by decide) (.refl noDt s)).unasked) fun _ => ?_
  exact ite_unasked (fun _ => (posInvalid_keeps (by decide) (modPch_keeps (by decide) (.refl noDt s))).unasked) fun _ => .refl s

theorem chipReset_unasked (s : State) (cause src : Nat) : s.Unasked (s.chipReset cause src) := by
  unfold State.chipReset
  refine ite_unasked (fun _ => ite_unasked (fun _ => (updSys_keeps (by decide) (.refl noDt s)).unasked) fun _ => .refl s) fun _ => ?_
  exact fun n _ => rfl

theorem act_unasked (s : State) (a : Act) : s.Unasked (s.act a) := by
  cases a with
  | blockReset src inst => exact blockReset_unasked s src inst
  | memberLost lane auth => exact (lostMember_unasked s lane auth).keep (imageLost_keeps (by decide) (.refl _ _))
  | trip str cause lane => exact trip_unasked s str cause lane
  | urgent lane cause => exact urgentBypass_unasked s lane cause
  | svcLink lane up => exact (svcChange_keeps (by decide) (.refl noDt s)).unasked
  | dtFloor lane res => exact dtFloorRead_unasked s lane res
  | sample lane chan => exact ((protSample_unasked s lane chan).trans (rideSample_unasked _ lane chan)).keep (enSample_keeps (by decide) (.refl _ _))
  | health lane => exact (healthTaken_unasked s lane).trans (thermHealth_unasked _ lane)
  | epFault lane code => exact faultTaken_unasked s lane code
  | surrender => exact (surrender_keeps (by decide) (.refl noDt s)).unasked
  | chipReset cause src => exact chipReset_unasked s cause src
  | imageSent lane => exact (imageSent_keeps (by decide) (.refl noDt s)).unasked
  | roleChanged => exact (roleFollow_keeps (by decide) (.refl noDt s)).unasked
  | timeStepped old =>
    have moved : Keeps noDt s (s.scaleMoved old) := scaleMoved_keeps (by decide) (.refl noDt s)
    exact moved.unasked
  | limits => exact (enAllLimits_keeps (by decide) (.refl noDt s)).unasked
  | summaries => exact (summaries_keeps (by decide) (.refl noDt s)).unasked

theorem settleN_unasked (k : Nat) (s : State) : s.Unasked (State.settleN k s) := by
  induction k generalizing s with
  | zero => exact .refl s
  | succ k ih =>
    rw [State.settleN]
    split
    · exact .refl s
    · exact ((updTodo_keeps (by decide) (.refl noDt s)).unasked.trans (act_unasked _ _)).trans (ih _)

theorem rideWatch_unasked (s : State) : s.Unasked s.rideWatch := by
  unfold State.rideWatch
  refine ite_unasked (fun _ => ?_) fun _ => .refl s
  split
  · exact .refl s
  · exact ite_unasked (fun _ => (rideReached_keeps (by decide) (note_keeps (by decide) (.refl noDt s))).unasked) fun _ =>
      ite_unasked (fun _ => (rideReached_keeps (by decide) (.refl noDt s)).unasked) fun _ => .refl s

theorem settle_unasked (s : State) : s.Unasked s.settle :=
  ((settleN_unasked _ s).trans (rideWatch_unasked _)).trans (settleN_unasked _ _)

/-! ### The obligation's order -/

/-- A standby that receives on its twin lane. -/
def orderStandby : State :=
  (State.reset.updLanes fun l => { l with lane := l.lane.set 130 { st := .linked } }).updTwin fun t => { t with role := .standby }

/-- The active's order of string 0 for its boundary 7, with no lane. -/
def twinOrder : Instr := .twStateRx .a ⟨0, 0⟩ (.order 0 7 [])

/-- The order of the active that string 0 holds after a step. -/
def orderShown : Outcome State Fault Refusal → Option (Nat × List Nat)
  | .next t => (t.srt 0).fromActive
  | _ => none

/-- Refutes O36: the order of a TW_STATE block stands in the sorter, which is of the part of the dead times, while the row names the modulator's part
alone. No state before settling whose sorter still holds none leads to the state the model gives, for no act brings an order. -/
theorem not_twinBlocks : ¬ Obligations.TwinBlocks := by
  intro h
  have rows := h .a ⟨0, 0⟩ 0 orderStandby ⟨by decide, by decide⟩
  obtain ⟨-, -, -, -, -, -, -, -, -, state, -⟩ := rows
  obtain ⟨-, -, order, -⟩ := state (by decide) (by decide)
  obtain ⟨e, run, only, -⟩ := order 0 7 [] (by decide)
  have shown : orderShown (exec twinOrder orderStandby) = some (7, []) := by decide
  have dt : e.dt = orderStandby.dt := only .dt (by decide)
  have none_ : (e.srt 0).fromActive = none := by
    rw [State.srt, dt]
    decide
  have settled := settle_unasked e 0 none_
  rw [show exec twinOrder orderStandby = .next e.settle from run, orderShown, settled] at shown
  cases shown

end Sys2Proof.Machine
end

section
/-!
PROOFS. The switches of an auxiliary bridge (O45): what settling cannot leave behind. A sequence in ENABLE whose string is STOPPED goes on before a step
ends (R358), and no act brings one that did not stand there before it. Said of one such sequence, with a halt reason that no row writes and a stopped
string still before its first boundary.
-/

namespace Sys2Proof.Machine

open Host

/-! ### A sequence that the watch goes on from -/

/-- A sequence in ENABLE that waits for string 0, first of its order and stopped, with reason 99 and the string before its first boundary. -/
structure State.Stranded (s : State) : Prop where
  /-- The state of the sequence. -/
  enable : s.prot.ride.st = .enable
  /-- A reason that no halt has. -/
  reason : s.prot.ride.reason = 99
  /-- No gap between two strings runs. -/
  gap : s.prot.ride.gapFrom = none
  /-- The first string of the order. -/
  index : s.prot.ride.index = 0
  /-- The unit commands its strings. -/
  runs : s.commanding = true
  /-- String 0 is the first of the order. -/
  order : s.rideOrder[0]? = some 0
  /-- String 0 is stopped. -/
  stopped : (s.str 0).st = .stopped
  /-- No boundary of string 0 has come. -/
  first : (s.str 0).first = true

/-- What comes to be stranded was. -/
def State.Behind (s t : State) : Prop := t.Stranded → s.Stranded

theorem State.Behind.refl (s : State) : s.Behind s := id

theorem State.Behind.trans {s t u : State} (a : s.Behind t) (b : t.Behind u) : s.Behind u := fun h => a (b h)

theorem foldl_behind {α : Type} {f : State → α → State} (h : ∀ u x, State.Behind u (f u x)) (l : List α) (s : State) : s.Behind (l.foldl f s) := by
  induction l generalizing s with
  | nil => exact .refl s
  | cons a r ih => exact (h s a).trans (ih _)

theorem ite_behind {c : Prop} [Decidable c] {s t u : State} (h : c → s.Behind t) (k : ¬c → s.Behind u) : s.Behind (if c then t else u) :=
  iteInduction (motive := fun v => s.Behind v) h k

theorem rideOrder_of_peff {s t : State} (order : t.peff 0x0C11 noInst = s.peff 0x0C11 noInst) : t.rideOrder = s.rideOrder := by
  unfold State.rideOrder State.pu
  rw [order]

/-- What leaves the sequence, the role, the order and string 0 as they are. -/
theorem behind_of {s t : State} (ride : t.prot.ride = s.prot.ride) (role : t.twin.role = s.twin.role)
    (order : t.peff 0x0C11 noInst = s.peff 0x0C11 noInst) (str : t.str 0 = s.str 0) : s.Behind t := fun h =>
  { enable := ride ▸ h.enable
    reason := ride ▸ h.reason
    gap := ride ▸ h.gap
    index := ride ▸ h.index
    runs := by
      have runs := h.runs
      rw [State.commanding, role] at runs
      exact runs
    order := rideOrder_of_peff order ▸ h.order
    stopped := str ▸ h.stopped
    first := str ▸ h.first }

/-- A sequence with another reason is not stranded. -/
theorem behind_of_reason {s t : State} (other : t.prot.ride.reason ≠ 99) : s.Behind t := fun h => absurd h.reason other

/-- The mask of every part but the parameters, the twin, the modulator and the protection. -/
abbrev noSeq : Nat := 2 ^ 28 - 1 - 64 - 2048 - 131072 - 262144

/-- The mask of every part but the twin, the modulator and the protection. -/
abbrev noSeqPar : Nat := noSeq + 64

theorem peff_of_eff {s t : State} (eff : t.par.eff = s.par.eff) (id inst : Nat) : t.peff id inst = s.peff id inst := by
  rw [State.peff, eff, State.peff]

theorem Keeps.behindPar {s t : State} (h : Keeps noSeqPar s t) (eff : t.par.eff = s.par.eff) : s.Behind t :=
  behind_of (h.ride (by decide)) (by rw [h.twin (by decide)]) (peff_of_eff eff _ _) (h.str (by decide) 0)

theorem Keeps.behind {s t : State} (h : Keeps noSeq s t) : s.Behind t := (h.weaken (by decide)).behindPar (by rw [h.par (by decide)])

theorem State.Behind.keep {s t u : State} (a : s.Behind t) (b : Keeps noSeq t u) : s.Behind u := a.trans b.behind

/-! ### Counters, notifications, faults, replies and the shelves -/

theorem bump_behind (s : State) (id inst field : Nat) : s.Behind (s.bump id inst field) :=
  Keeps.behindPar (bump_keeps (by decide) (.refl _ s)) (bump_eff ..)

theorem bumpBy_behind (s : State) (id inst field n : Nat) : s.Behind (s.bumpBy id inst field n) :=
  Keeps.behindPar (bumpBy_keeps (by decide) (.refl _ s)) (bumpBy_eff ..)

theorem note_behind (s : State) (island code : Nat) (args : Bytes) (info : Bool) : s.Behind (s.note island code args info) :=
  Keeps.behindPar (note_keeps (by decide) (.refl _ s)) (note_eff ..)

theorem fire_behind (s : State) (src inst : Nat) (args : Bytes) : s.Behind (s.fire src inst args) :=
  Keeps.behindPar (fire_keeps (by decide) (.refl _ s)) (fire_eff ..)

theorem condOn_behind (s : State) (src inst sub : Nat) (args : Bytes) : s.Behind (s.condOn src inst sub args) :=
  Keeps.behindPar (condOn_keeps (by decide) (.refl _ s)) (condOn_eff ..)

theorem cond_behind (s : State) (on : Bool) (src inst sub : Nat) (args : Bytes) : s.Behind (s.cond on src inst sub args) :=
  Keeps.behindPar (cond_keeps (by decide) (.refl _ s)) (cond_eff ..)

theorem reply_behind (s : State) (mb status : Nat) (payload : Bytes) : s.Behind (s.reply mb status payload) :=
  Keeps.behindPar (reply_keeps (by decide) (.refl _ s)) (reply_eff ..)

theorem refuse_behind (s : State) (mb status reason failIndex : Nat) : s.Behind (s.refuse mb status reason failIndex) := reply_behind s mb status _

theorem answerWaiting_behind (s : State) (w : Waiting) (payload : Bytes) : s.Behind (s.answerWaiting w payload) :=
  Keeps.behindPar (answerWaiting_keeps (by decide) (.refl _ s)) (answerWaiting_eff ..)

theorem sendAct_behind (s : State) (lane : Nat) (a : BypAct) (t : Int) : s.Behind (s.sendAct lane a t) :=
  behind_of (sendAct_ride ..) (by rw [(sendAct_keeps (M := 131136) (by decide) (.refl _ s)).twin (by decide)]) (peff_of_eff (sendAct_eff ..) _ _)
    (sendAct_str ..)

theorem withdraw_behind (s : State) (lane : Nat) (p : Entry → Bool) : s.Behind (s.withdraw lane p) :=
  have keeps := withdraw_keeps (M := 131136) (a1 := lane) (a2 := p) (by decide) (.refl _ s)
  behind_of (keeps.ride (by decide)) (by rw [keeps.twin (by decide)]) (peff_of_eff (withdraw_eff ..) _ _) (withdraw_str ..)

theorem modMl_behind (s : State) (lane : Nat) (f : ModLane → ModLane) : s.Behind (s.modMl lane f) := behind_of rfl rfl rfl rfl

theorem modByp_behind (s : State) (lane : Nat) (f : Byp → Byp) : s.Behind (s.modByp lane f) := behind_of rfl rfl rfl rfl

theorem modPrt_behind (s : State) (str : Nat) (f : ProtStr → ProtStr) : s.Behind (s.modPrt str f) := behind_of rfl rfl rfl rfl

/-- A change of a string after which it is stopped before its first boundary only if it was before. -/
theorem modStr_behind (s : State) (str : Nat) (f : Str → Str)
    (back : ∀ y, (f y).st = .stopped → (f y).first = true → y.st = .stopped ∧ y.first = true) : s.Behind (s.modStr str f) := by
  by_cases own : 0 = str
  · intro h
    obtain ⟨enable, reason, gap, index, runs, order, stopped, first⟩ := h
    rw [← own, str_modStr] at stopped first
    obtain ⟨was, before⟩ := back _ stopped first
    exact ⟨enable, reason, gap, index, runs, order, was, before⟩
  · exact behind_of rfl rfl rfl (str_modStr_ne s own f)

/-! ### Trips and bypasses -/

theorem laneOut_behind (s : State) (lane : Nat) : s.Behind (s.laneOut lane) :=
  (((withdraw_behind s lane _).trans (modMl_behind _ lane _)).keep (dtDiscard_keeps (by decide) (.refl _ _))).trans
    (modStr_behind _ _ _ fun _ stopped first => ⟨stopped, first⟩)

theorem tripAction_behind (s : State) (str lane : Nat) (t : Int) (again entered : Bool) : s.Behind (s.tripAction str lane t again entered) :=
  have keeps := tripAction_keeps (M := 131136) (a1 := str) (a2 := lane) (a3 := t) (a4 := again) (a5 := entered) (by decide) (.refl _ s)
  behind_of (tripAction_ride ..) (by rw [keeps.twin (by decide)]) (peff_of_eff (tripAction_eff ..) _ _) (tripAction_str ..)

theorem tripLane_behind (s : State) (str lane : Nat) : s.Behind (s.tripLane str lane) := by
  unfold State.tripLane
  extract_lets entered s1 b s2 s3 s4
  have out : s.Behind s1 := laneOut_behind s lane
  have entering : s1.Behind s2 := ite_behind (fun _ => modByp_behind s1 lane _) fun _ => .refl s1
  have answered : s2.Behind s4 := ((modByp_behind s2 lane _).trans (answerWaiting_behind _ _ _)).trans (answerWaiting_behind _ _ _)
  have whole := (out.trans entering).trans answered
  exact ite_behind (fun _ => whole.trans (tripAction_behind _ _ _ _ _ _)) fun _ => whole

theorem tripMask_behind (s : State) (str mask lane : Nat) : s.Behind (s.tripMask str mask lane) := by
  unfold State.tripMask
  extract_lets first s1 s2
  refine ite_behind (fun _ => modPrt_behind s str _) fun _ => ?_
  have tripped : s.Behind s1 := (modStr_behind s str _ fun _ stopped => by cases stopped).trans (modPrt_behind _ str _)
  have lanes : s1.Behind s2 := foldl_behind (fun u l => tripLane_behind u str l) _ s1
  have noted := ((tripped.trans lanes).trans (bump_behind s2 0x0C09 str 0)).trans
    (note_behind _ 0x08 0x0C01 (leBytes 1 str ++ leBytes 1 first ++ leBytes 2 lane) false)
  exact noted.keep (coastLanes_keeps (by decide) (.refl _ _))

theorem trip_behind (s : State) (str cause lane : Nat) : s.Behind (s.trip str cause lane) :=
  ite_behind (fun _ => tripMask_behind s str _ lane) fun _ =>
    ((tripMask_behind s str _ lane).trans (modPrt_behind _ str _)).keep (twinTrip_keeps (by decide) (.refl _ _))

theorem record_behind (s : State) (lane cause : Nat) : s.Behind (s.record lane cause) :=
  (answerWaiting_behind s _ _).trans (modByp_behind _ lane _)

theorem enterNow_behind (s : State) (lane : Nat) : s.Behind (s.enterNow lane) :=
  (((laneOut_behind s lane).trans (modByp_behind _ lane _)).trans (sendAct_behind _ lane _ _)).trans (answerWaiting_behind _ _ _)

theorem urgentBypass_behind (s : State) (lane cause : Nat) : s.Behind (s.urgentBypass lane cause) := by
  unfold State.urgentBypass
  have recorded : s.Behind (s.record lane cause) := record_behind s lane cause
  have counted : s.Behind ((s.record lane cause).bump 0x0C09 (s.strOf lane) 1) := recorded.trans (bump_behind _ _ _ _)
  refine ite_behind (fun _ => ite_behind (fun _ => recorded.trans (enterNow_behind _ lane)) fun _ => recorded) fun _ => ?_
  exact ite_behind (fun _ => counted.trans (trip_behind _ _ 8 _)) fun _ => counted.trans (enterNow_behind _ lane)

theorem cellFail_behind (s : State) (lane : Nat) : s.Behind (s.cellFail lane) := (modPrt_behind s _ _).trans (trip_behind _ _ 7 _)

theorem lostMember_behind (s : State) (lane : Nat) (auth : Bool) : s.Behind (s.lostMember lane auth) := by
  unfold State.lostMember
  refine ite_behind (fun _ => .refl s) fun _ => ite_behind (fun _ => ?_) fun _ => ite_behind (fun _ => ?_) fun _ => cellFail_behind s lane
  · exact ite_behind (fun _ => bump_behind s _ _ _) fun _ => urgentBypass_behind s lane 3
  · exact (Keeps.behind (modLink_keeps (by decide) (.refl _ s))).trans ((condOn_behind _ _ _ _ _).trans (foldl_behind (fun u str =>
      ite_behind (fun _ => trip_behind u str 6 _) fun _ => .refl u) _ _))

theorem dtFloorRead_behind (s : State) (lane : Nat) (res : Option (Nat × Nat)) : s.Behind (s.dtFloorRead lane res) := by
  have set_ (f : DtLane → DtLane) : s.Behind (s.modDtl lane f) := Keeps.behind (modDtl_keeps (by decide) (.refl _ s))
  have missing (args : Bytes) : s.Behind (s.noFloor lane args) := (set_ _).trans (fire_behind _ _ _ _)
  unfold State.dtFloorRead
  split
  · exact ite_behind (fun _ => (set_ _).trans (fire_behind _ _ _ _)) fun _ => set_ _
  · exact missing _
  · exact missing _

end Sys2Proof.Machine
end

section
/-!
PROOFS. The switches of an auxiliary bridge (O45): the acts of the sequence, of protection and of thermal shutdown leave no sequence stranded. Where the
sequence itself goes on it takes a reason of its own (R354, R359).
-/

namespace Sys2Proof.Machine

open Host

/-! ### The sequence where strings start and stop -/

theorem becomeStopped_ride (s : State) (str : Nat) : (s.becomeStopped str).prot.ride = s.prot.ride := by
  unfold State.becomeStopped
  dsimp only
  rw [coastLanes_ride, foldl_ride _ fun u l => ?_]
  · rfl
  · have quiet : ((u.modMl l fun m => { m with on := false, legs := {}, nlc := 0, cycle := none }).dtDiscard l).prot.ride = u.prot.ride :=
      (dtDiscard_keeps (M := 655360) (by decide) (modMl_keeps (by decide) (.refl _ u))).ride (by decide)
    split
    · exact quiet
    · rw [sendAct_ride, quiet]

theorem cancelStart_ride (s : State) (str : Nat) : (s.cancelStart str).prot.ride = s.prot.ride := by
  rw [State.cancelStart, becomeStopped_ride, foldl_ride _ fun u l => laneOut_ride u l]

theorem askStop_ride (s : State) (str : Nat) (dark : Bool) : (s.askStop str dark).prot.ride = s.prot.ride := by
  unfold State.askStop
  split
  · exact cancelStart_ride s str
  · split <;> rfl

theorem darkAction_ride (s : State) (str : Nat) : (s.darkAction str).prot.ride = s.prot.ride := by
  unfold State.darkAction
  dsimp only
  split
  · exact askStop_ride s str true
  · split
    · exact trip_ride s str 13 0xFFFF
    · rfl

theorem startString_ride (s : State) (str short : Nat) : (s.startString str short).prot.ride = s.prot.ride := by
  unfold State.startString State.lostAtStart
  dsimp only
  rw [foldl_ride _ fun u l => lostMember_ride u l _, coastLanes_ride, (modSrt_keeps (M := 524288) (by decide) (.refl _ _)).ride (by decide),
    modPrt_ride]
  rfl

theorem modRide_ride (s : State) (f : Ride → Ride) : (s.modRide f).prot.ride = f s.prot.ride := rfl

/-! ### The reasons of the sequence (R354 to R359) -/

theorem rideTo_reason (s : State) (st : RideSt) (reason str : Nat) : (s.rideTo st reason str).prot.ride.reason = reason := by rw [rideTo_ride]

theorem rideHalt_reason (s : State) (reason str : Nat) : (s.rideHalt reason str).prot.ride.reason = reason := by rw [rideHalt_ride]

theorem rideNext_reason (k : Nat) (s : State) (other : s.prot.ride.reason ≠ 99) : (State.rideNext k s).prot.ride.reason ≠ 99 := by
  induction k generalizing s with
  | zero =>
    rw [State.rideNext, rideTo_reason]
    decide
  | succ k ih =>
    rw [State.rideNext]
    dsimp only
    split
    · rw [rideTo_reason]
      decide
    · rename_i str _ _
      split
      · refine ih _ ?_
        rw [modRide_ride, note_ride]
        exact other
      split
      · exact ih _ other
      split
      · rw [rideHalt_reason]
        decide
      · rw [modRide_ride, startString_ride]
        exact other

theorem rideEnable_reason (s : State) : s.rideEnable.prot.ride.reason ≠ 99 := by
  refine rideNext_reason 17 _ ?_
  change (s.rideTo .enable).prot.ride.reason ≠ 99
  rw [rideTo_reason]
  decide

theorem rideSync_reason (s : State) : s.rideSync.prot.ride.reason ≠ 99 := by
  unfold State.rideSync
  split
  · rw [rideHalt_reason]
    decide
  split
  · exact rideEnable_reason _
  · change (s.rideTo .sync).prot.ride.reason ≠ 99
    rw [rideTo_reason]
    decide

theorem pcDone_reason (s : State) : s.pcDone.prot.ride.reason ≠ 99 := by
  unfold State.pcDone
  dsimp only
  split
  · rw [rideHalt_reason]
    decide
  · exact rideSync_reason _

theorem mvLoss_reason (s : State) (m : Int) : (s.mvLoss m).prot.ride.reason ≠ 99 := by
  unfold State.mvLoss
  dsimp only
  rw [foldl_ride _ fun u str => ?_, condOn_ride, bump_ride, rideTo_reason]
  · decide
  · split
    · exact darkAction_ride u str
    · rfl

/-- A change of the sequence that leaves its state, its reason, its gap and its index. -/
theorem modRide_behind (s : State) (f : Ride → Ride)
    (same : ∀ r, (f r).st = r.st ∧ (f r).reason = r.reason ∧ (f r).gapFrom = r.gapFrom ∧ (f r).index = r.index) : s.Behind (s.modRide f) := by
  intro h
  obtain ⟨enable, reason, gap, index, runs, order, stopped, first⟩ := h
  obtain ⟨sameSt, sameReason, sameGap, sameIndex⟩ := same s.prot.ride
  exact ⟨sameSt.symm.trans enable, sameReason.symm.trans reason, sameGap.symm.trans gap, sameIndex.symm.trans index, runs, order, stopped, first⟩

theorem gridEval_behind (s : State) : s.Behind s.gridEval := by
  unfold State.gridEval
  exact ite_behind (fun _ => behind_of_reason (mvLoss_reason _ _)) fun _ => modRide_behind s _ fun _ => ⟨rfl, rfl, rfl, rfl⟩

theorem rideSample_behind (s : State) (lane chan : Nat) : s.Behind (s.rideSample lane chan) := by
  unfold State.rideSample
  extract_lets s1
  have seen : s.Behind s1 := ite_behind (fun _ => gridEval_behind s) fun _ => .refl s
  exact ite_behind (fun _ => behind_of_reason (pcDone_reason s1)) fun _ => seen

/-! ### Protection (R335 to R342, R349) -/

theorem protCurrent_behind (s : State) (str lane chan : Nat) : s.Behind (s.protCurrent str lane chan) := by
  unfold State.protCurrent
  extract_lets x t i p beyond open_ run ror s1
  have kept : s.Behind s1 := modPrt_behind s str _
  exact ite_behind (fun _ => kept) fun _ => ite_behind (fun _ => kept.trans (trip_behind s1 str 0 lane)) fun _ =>
    ite_behind (fun _ => kept.trans (trip_behind s1 str 1 lane)) fun _ => kept

theorem protBus_behind (s : State) (str lane chan : Nat) : s.Behind (s.protBus str lane chan) :=
  ite_behind (fun _ => .refl s) fun _ => ite_behind (fun _ => trip_behind s str 4 lane) fun _ =>
    ite_behind (fun _ => trip_behind s str 5 lane) fun _ => .refl s

theorem protCap_behind (s : State) (lane chan : Nat) : s.Behind (s.protCap lane chan) :=
  ite_behind (fun _ => .refl s) fun _ =>
    ite_behind (fun _ => ite_behind (fun _ => urgentBypass_behind s lane 6) fun _ => trip_behind s _ 2 lane) fun _ =>
      ite_behind (fun _ => ite_behind (fun _ => urgentBypass_behind s lane 7) fun _ => trip_behind s _ 3 lane) fun _ => .refl s

theorem protSample_behind (s : State) (lane chan : Nat) : s.Behind (s.protSample lane chan) := by
  unfold State.protSample
  refine State.Behind.trans (foldl_behind (fun u str => ?_) _ s) (protCap_behind _ lane chan)
  extract_lets a
  have current : u.Behind a := ite_behind (fun _ => protCurrent_behind u str lane chan) fun _ => .refl u
  exact ite_behind (fun _ => current.trans (protBus_behind a str lane chan)) fun _ => current

theorem healthTaken_behind (s : State) (lane : Nat) : s.Behind (s.healthTaken lane) := by
  unfold State.healthTaken
  split
  · exact .refl s
  · refine ite_behind (fun _ => .refl s) fun _ => ite_behind (fun _ => ?_) fun _ => modByp_behind s lane _
    exact ((modByp_behind s lane _).trans (urgentBypass_behind _ lane 0x0A)).trans ((bump_behind _ _ _ _).trans (fire_behind _ _ _ _))

theorem faultTaken_behind (s : State) (lane code : Nat) : s.Behind (s.faultTaken lane code) := by
  unfold State.faultTaken
  have either (mv : Bool) (cause : Nat) : s.Behind (if mv then s.urgentBypass lane cause else s.cellFail lane) :=
    ite_behind (fun _ => urgentBypass_behind s lane cause) fun _ => cellFail_behind s lane
  refine ite_behind (fun _ => .refl s) fun _ => ite_behind (fun _ => either _ 4) fun _ => ite_behind (fun _ => cellFail_behind s lane) fun _ => ?_
  exact ite_behind (fun _ => ite_behind (fun _ => .refl s) fun _ => either _ 5) fun _ =>
    ite_behind (fun _ => trip_behind s _ 14 _) fun _ => .refl s

/-! ### Requests told to the twin, and parameters of other blocks -/

theorem forwardRequest_behind (s : State) (mb : Nat) (q : Request) (data : Bytes) : s.Behind (s.forwardRequest mb q data) :=
  have keeps := forwardRequest_keeps (M := 67584) (a1 := mb) (a2 := q) (a3 := data) (by decide) (.refl _ s)
  behind_of (keeps.ride (by decide)) (forwardRequest_role ..) (peff_of_eff (by rw [keeps.par (by decide)]) _ _) (keeps.str (by decide) 0)

/-- The order of the strings is no parameter that an act writes. -/
theorem setParam_behind (s : State) {id inst : Nat} (other : pKey 0x0C11 noInst ≠ pKey id inst) (v : Bytes) : s.Behind (s.setParam id inst v) :=
  behind_of rfl rfl (setParam_peff_ne s other v) rfl

theorem pKey_order_ne_above {id : Nat} (above : 0x0C11 < id) (inst : Nat) : pKey 0x0C11 noInst ≠ pKey id inst := by
  unfold pKey noInst
  omega

theorem pKey_order_ne_reference {sig : Nat} (small : sig < 65536) : pKey 0x0C11 noInst ≠ pKey 0x0B08 sig := by
  unfold pKey noInst
  omega

/-! ### Thermal shutdown and derating (R456 to R463) -/

theorem thermAdd_behind (s : State) (r : ThermRec) : s.Behind (s.thermAdd r) :=
  (Keeps.behind (updHk_keeps (by decide) (.refl _ s))).trans (condOn_behind _ _ _ _ _)

theorem thermTrip_behind (s : State) (mask : Nat) : s.Behind (s.thermTrip mask) := foldl_behind (fun u n => trip_behind u n 11 _) _ s

theorem thermShut_behind (s : State) (z src : Nat) (t : Int) : s.Behind (s.thermShut z src t) := by
  unfold State.thermShut
  split
  · exact Keeps.behind (updHk_keeps (by decide) (.refl _ s))
  · refine ite_behind (fun _ => .refl s) fun _ => ?_
    extract_lets id mask r s1 s2
    have shut : s.Behind s2 := (((thermTrip_behind s mask).keep (updHk_keeps (by decide) (.refl _ _))).trans (thermAdd_behind _ _)).trans
      (bump_behind _ _ _ _)
    exact ite_behind (fun _ => shut.trans (forwardRequest_behind _ _ _ _)) fun _ => shut

theorem hkNext_behind (s : State) (k : Nat) : s.Behind (s.hkNext k) := by
  refine Keeps.behindPar (hkNext_keeps (by decide) (.refl _ s)) ?_
  have started (u : State) (c : HkConv) : (u.hkStart k c).par.eff = u.par.eff := (hkStart_keeps (M := noPar) (by decide) (.refl _ u)).eff
  unfold State.hkNext
  dsimp only
  split
  · rfl
  split
  · rfl
  split
  · split
    · rfl
    · rw [bump_eff]
      rfl
  split
  · rw [started]
    rfl
  · split <;> rw [started]
    rfl
  · rw [started]
  · rfl

theorem hkUrgent_behind (s : State) (k : Nat) (u : Urgent) : s.Behind (s.hkUrgent k u) := by
  have paired (t : State) (f : HkPair → HkPair) : t.Behind (t.modPair k f) := Keeps.behind (modPair_keeps (by decide) (.refl _ t))
  have queued (f : HkPair → HkPair) : s.Behind ((s.modPair k f).bump 0x100B noInst 2) := (paired s f).trans (bump_behind _ _ _ _)
  unfold State.hkUrgent
  dsimp only
  split
  · exact ite_behind (fun _ => (((queued _).trans (paired _ _)).trans (bump_behind _ _ _ _)).trans (hkNext_behind _ k)) fun _ => queued _
  · exact queued _
  · exact (queued _).trans (hkNext_behind _ k)

theorem thermAsk_behind (s : State) (z : Nat) : s.Behind (s.thermAsk z) := by
  have waits (f : ThermZone → ThermZone) : s.Behind (s.modZone z f) := Keeps.behind (modZone_keeps (by decide) (.refl _ s))
  unfold State.thermAsk
  dsimp only
  split
  · exact .refl s
  · refine ite_behind (fun _ => .refl s) fun _ => ite_behind (fun _ => hkUrgent_behind s _ _) fun _ => ?_
    split
    · exact ite_behind (fun _ => thermShut_behind s z _ _) fun _ => waits _
    · exact waits _

theorem thermHealth_behind (s : State) (lane : Nat) : s.Behind (s.thermHealth lane) := by
  unfold State.thermHealth
  extract_lets h t s1
  have kept : s.Behind s1 := Keeps.behind (updHk_keeps (by decide) (.refl _ s))
  refine kept.trans (foldl_behind (fun u z => ?_) _ _)
  refine ite_behind (fun _ => ?_) fun _ => .refl u
  have heard (f : ThermZone → ThermZone) : u.Behind (u.modZone z f) := Keeps.behind (modZone_keeps (by decide) (.refl _ u))
  dsimp only
  split
  · exact ite_behind (fun _ => (heard _).trans (thermShut_behind _ z _ _)) fun _ => heard _
  · exact heard _

theorem zoneForm_behind (s : State) (z : Nat) : s.Behind (s.zoneForm z) := by
  unfold State.zoneForm
  extract_lets h s1 was blind s2 s3
  have formed : s.Behind s2 := (Keeps.behind (modZone_keeps (by decide) (.refl _ s))).trans (cond_behind s1 blind 0x63 z 0 [])
  have counted : s.Behind s3 := ite_behind (fun _ => formed.trans (bump_behind _ _ _ _)) fun _ => formed
  cases h with
  | some x => exact counted.keep (updHk_keeps (by decide) (.refl _ _))
  | none => exact counted

theorem derPublish_behind (s : State) (z : Nat) : s.Behind (s.derPublish z) := by
  unfold State.derPublish
  extract_lets f sig s1 v s2 record
  have acts : s.Behind s1 :=
    ite_behind (fun _ => Keeps.behind (later_keeps (by decide) (modZone_keeps (by decide) (.refl _ s)))) fun _ => .refl s
  have set_ : s.Behind s2 := acts.trans (setParam_behind s1 (pKey_order_ne_reference ((uAt_lt _ 16 1).trans (by decide))) v)
  exact ite_behind (fun _ => ite_behind (fun _ => set_.trans (forwardRequest_behind _ _ _ _)) fun _ => set_) fun _ => acts

theorem derate_behind (s : State) (z : Nat) : s.Behind (s.derate z) := by
  unfold State.derate
  refine ite_behind (fun _ => ?_) fun _ => .refl s
  extract_lets x n s1 s2
  have counted : s.Behind s1 := Keeps.behind (modZone_keeps (by decide) (.refl _ s))
  have told : s.Behind s2 := ite_behind (fun _ => counted) fun _ => (counted.trans (bump_behind s1 _ _ _)).trans (note_behind _ _ _ _ _)
  exact told.trans (derPublish_behind s2 z)

theorem fanRound_behind (s : State) (f : Nat) : s.Behind (s.fanRound f) := by
  unfold State.fanRound
  extract_lets lo x s1
  have counted : s.Behind s1 := Keeps.behind (updHk_keeps (by decide) (.refl _ s))
  exact ite_behind (fun _ => ite_behind (fun _ => counted.trans (condOn_behind _ _ _ _ _)) fun _ => counted) fun _ =>
    Keeps.behind (condOff_keeps (by decide) (updHk_keeps (by decide) (.refl _ s)))

theorem hkDew_behind (s : State) : s.Behind s.hkDew := by
  have margin (u : State) (m : Option Int) : u.Behind (u.rideMargin m) := modRide_behind u _ fun _ => ⟨rfl, rfl, rfl, rfl⟩
  unfold State.hkDew
  exact ite_behind (fun _ => (Keeps.behind (updHk_keeps (by decide) (tookFree_keeps (by decide) (.refl _ s)))).trans (margin _ _)) fun _ =>
    (Keeps.behind (updHk_keeps (by decide) (.refl _ s))).trans (margin _ _)

theorem hkTryPublish_behind (s : State) : s.Behind s.hkTryPublish := by
  have published : s.Behind s.hkPublish :=
    (((Keeps.behind (updHk_keeps (by decide) (.refl _ s))).trans (hkDew_behind _)).trans (foldl_behind derate_behind _ _)).trans
      (foldl_behind fanRound_behind _ _)
  exact ite_behind (fun _ => published) fun _ => .refl s

theorem hkTryEval_behind (s : State) : s.Behind s.hkTryEval := by
  unfold State.hkTryEval
  refine ite_behind (fun _ => ?_) fun _ => hkTryPublish_behind s
  exact (((Keeps.behind (updHk_keeps (by decide) (.refl _ s))).trans (foldl_behind zoneForm_behind _ _)).trans
    (foldl_behind thermAsk_behind _ _)).trans (hkTryPublish_behind _)

theorem hkReset_behind (s : State) : s.Behind s.hkReset := by
  unfold State.hkReset
  extract_lets drop
  have paired (u : State) (k : Nat) (f : HkPair → HkPair) : u.Behind (u.modPair k f) := Keeps.behind (modPair_keeps (by decide) (.refl _ u))
  have restarted (u : State) (k : Nat) : u.Behind (u.hkRestart k) := (paired u k _).trans (hkNext_behind _ k)
  have dropped (u : State) (k : Nat) : u.Behind (drop u k) := by
    simp only [drop]
    refine State.Behind.trans (foldl_behind (fun v x => ?_) _ u) ((paired _ k _).trans (restarted _ k))
    split
    · exact refuse_behind v _ _ _ _
    · exact .refl v
  exact ((dropped s 0).trans (dropped _ 1)).trans (hkTryEval_behind _)

end Sys2Proof.Machine
end

section
/-!
PROOFS. The switches of an auxiliary bridge (O45), refuted: no act leaves a sequence stranded that was not, and settling takes a stranded one on, so that
no state settles to one; but the expiry of a gate-supply filter that is not due leaves such a state as it is.
-/

namespace Sys2Proof.Machine

open Host

/-! ### Accesses and images of the cells -/

theorem paramStale_behind (s : State) (f : ParamFor) : s.Behind (s.paramStale f) := by
  cases f with
  | mailbox mb => exact refuse_behind s mb stStale 0 _
  | dtFloor => exact .refl s

theorem paramRole_behind (s : State) (lane : Nat) : s.Behind (s.paramRole lane) := by
  unfold State.paramRole
  extract_lets wait s1 s2
  have linked (u : State) (f : Link → Link) : u.Behind (u.modLink lane f) := Keeps.behind (modLink_keeps (by decide) (.refl _ u))
  have stale : s.Behind s2 := (foldl_behind (fun u (w : ParamWait) => paramStale_behind u w.for_) _ s).trans (linked s1 _)
  split
  · exact stale
  · rename_i x _
    refine ite_behind (fun _ => stale) fun _ => ?_
    extract_lets s3
    have dropped : s.Behind s3 := (stale.trans (paramStale_behind s2 x.for_)).trans (linked _ _)
    split
    · exact dropped
    · exact (dropped.trans (linked _ _)).keep (paramStart_keeps (by decide) (.refl _ _))

theorem imageNext_behind (k : Nat) (s : State) : s.Behind (s.imageNext k) := by
  have sends (f : Firm → Firm) (u : State) : u.Behind (u.updFw f) := Keeps.behind (updFw_keeps (by decide) (.refl _ u))
  induction k generalizing s with
  | zero => exact .refl s
  | succ k ih =>
    rw [State.imageNext]
    split
    · exact .refl s
    · split
      · exact (sends _ s).trans (reply_behind _ _ _ _)
      · refine ite_behind (fun _ => (sends _ s).trans (ih _)) fun _ => ite_behind (fun _ => (sends _ s).trans (ih _)) fun _ => ?_
        exact (Keeps.behind (queueBlock_keeps (by decide) (.refl _ s))).trans (sends _ _)

theorem imageLost_behind (s : State) (lane : Nat) : s.Behind (s.imageLost lane) := by
  unfold State.imageLost
  split
  · exact ite_behind (fun _ => imageNext_behind 200 s) fun _ => .refl s
  · exact .refl s

theorem imageSent_behind (s : State) (lane : Nat) : s.Behind (s.imageSent lane) := by
  unfold State.imageSent
  split
  · exact ite_behind (fun _ => imageNext_behind 200 s) fun _ => .refl s
  · exact .refl s

theorem imageEnd_behind (s : State) : s.Behind s.imageEnd := by
  unfold State.imageEnd
  split
  · exact (Keeps.behind (updFw_keeps (by decide) (.refl _ s))).trans (reply_behind _ _ _ _)
  · exact .refl s

/-! ### Auxiliary drives and positions -/

theorem auxAct_behind (s : State) (b : Nat) (short : Bool) : s.Behind (s.auxAct b short) := by
  have keeps := auxAct_keeps (M := 8388800) (a1 := b) (a2 := short) (by decide) (.refl _ s)
  obtain ⟨-, -, -, others, -⟩ := auxAct_spec s b short
  exact behind_of (keeps.ride (by decide)) (by rw [keeps.twin (by decide)]) (others _ _ (pKey_order_ne_above (by decide) b)) (keeps.str (by decide) 0)

theorem cmpFire_behind (s : State) (u : Nat) (late invalid : Bool) : s.Behind (s.cmpFire u late invalid) := by
  unfold State.cmpFire
  extract_lets act s1 pulse s2 s3
  have fired : s.Behind s2 := (setParam_behind s (pKey_order_ne_above (by decide) u) _).keep (updPos_keeps (by decide) (.refl _ s1))
  have counted : s.Behind s3 := ite_behind (fun _ => fired.trans (bump_behind _ _ _ _)) fun _ => fired
  exact ite_behind (fun _ => counted.trans (note_behind _ _ _ _ _)) fun _ => counted

theorem cmpFireAll_behind (s : State) (units : List Nat) (late invalid : Bool) : s.Behind (s.cmpFireAll units late invalid) :=
  (foldl_behind (fun u x => cmpFire_behind u x late invalid) units s).trans (foldl_behind (fun u b =>
    ite_behind (fun _ => auxAct_behind u b true) fun _ => ite_behind (fun _ => auxAct_behind u b false) fun _ => .refl u) _ _)

theorem posInvalid_behind (s : State) (c : Nat) : s.Behind (s.posInvalid c) :=
  ite_behind (fun _ => (Keeps.behind (modPch_keeps (by decide) (.refl _ s))).trans (cmpFireAll_behind _ _ _ _)) fun _ => .refl s

/-! ### Energy -/

theorem enGap_behind (s : State) (n dt : Nat) (counts : Bool) : s.Behind (s.enGap n dt counts) := by
  unfold State.enGap
  have waited (f : EnPort → EnPort) (d : Nat) : s.Behind ((s.modEn n f).bumpBy 0x1509 n 1 d) :=
    (Keeps.behind (modEn_keeps (by decide) (.refl _ s))).trans (bumpBy_behind _ _ _ _ _)
  exact ite_behind (fun _ => (waited _ _).trans (bump_behind _ _ _ _)) fun _ => waited _ _

theorem enTake_behind (s : State) (n t : Nat) : s.Behind (s.enTake n t) := by
  unfold State.enTake
  extract_lets x pq s1 q
  have taken : s.Behind s1 := by
    simp only [s1]
    split
    · exact ite_behind (fun _ => enGap_behind s n t false) fun _ => .refl s
    · exact ite_behind (fun _ => enGap_behind s n _ true) fun _ => Keeps.behind (modEn_keeps (by decide) (.refl _ s))
  exact taken.keep (enWatch_keeps (by decide) (modEn_keeps (by decide) (.refl _ s1)))

theorem enSample_behind (s : State) (lane chan : Nat) : s.Behind (s.enSample lane chan) := by
  refine foldl_behind (fun u n => ite_behind (fun _ => ?_) fun _ => .refl u) _ s
  split
  · split
    · exact ite_behind (fun _ => enTake_behind u n _) fun _ => .refl u
    · exact enTake_behind u n _
  · exact .refl u

theorem putHostSig_behind (s : State) {sig : Nat} (small : sig < 65536) (v : Int) : s.Behind (s.putHostSig sig v) := by
  unfold State.putHostSig
  have set_ : s.Behind (s.setParam 0x0B08 sig (leBytesI 2 v)) := setParam_behind s (pKey_order_ne_reference small) _
  exact ite_behind (fun _ => set_.trans (forwardRequest_behind _ _ _ _)) fun _ => set_

theorem enLimits_behind (s : State) (n : Nat) : s.Behind (s.enLimits n) := by
  rw [enLimits_choose]
  have chosen : s.Behind (s.enChoose n) := Keeps.behind (modEn_keeps (by decide) (.refl _ s))
  have watched : s.Behind ((s.enChoose n).enWatch n) := chosen.keep (enWatch_keeps (by decide) (.refl _ _))
  have small : s.pu 0x1501 n 2 1 < 256 := uAt_lt _ _ 1
  exact ite_behind (fun _ => chosen) fun _ => ite_behind (fun _ =>
    (watched.trans (putHostSig_behind _ (by omega) _)).trans (putHostSig_behind _ (by omega) _)) fun _ => watched

theorem enAllLimits_behind (s : State) : s.Behind s.enAllLimits := foldl_behind enLimits_behind _ s

/-! ### Time, the twin and the roles -/

theorem masterLoss_behind (s : State) : s.Behind s.masterLoss :=
  (Keeps.behind (setTime_keeps (by decide) (updTime_keeps (by decide) (.refl _ s)))).trans (condOn_behind _ _ _ _ _)

theorem timeRefresh_behind (s : State) : s.Behind s.timeRefresh := by
  unfold State.timeRefresh
  extract_lets s1 src s2
  have picked : s.Behind s2 := Keeps.behind (updTime_keeps (by decide) (updRing_keeps (by decide) (.refl _ s)))
  have follows : s.Behind s2.timeFollow := picked.keep (timeFollow_keeps (by decide) (.refl _ s2))
  have stands (st : TimeState) (rate : Int) : s.Behind (s2.setTime st rate) := picked.keep (setTime_keeps (by decide) (.refl _ s2))
  refine ite_behind (fun _ => ite_behind (fun _ => picked) fun _ => ?_) fun _ => ?_
  · exact picked.keep (setTime_keeps (by decide) (condOffInst_keeps (by decide) (.refl _ s2)))
  · exact ite_behind (fun _ => ite_behind (fun _ => follows) fun _ => ite_behind (fun _ => picked.trans (masterLoss_behind s2)) fun _ =>
      stands _ _) fun _ => ite_behind (fun _ => follows) fun _ => picked

theorem masterRole_behind (s : State) : s.Behind s.masterRole := by
  unfold State.masterRole
  split
  · exact .refl s
  · exact (Keeps.behind (updTime_keeps (by decide) (.refl _ s))).trans (foldl_behind (fun u mb => refuse_behind u mb _ _ _) _ _)

theorem updTwin_behind (s : State) (f : Twin → Twin) (same : ∀ t, (f t).role = t.role) : s.Behind (s.updTwin f) :=
  behind_of rfl (same s.twin) rfl rfl

theorem twRole_behind (s : State) : s.Behind s.twRole :=
  (Keeps.behind (twinSend_keeps (by decide) (.refl _ s))).trans (updTwin_behind _ _ fun _ => rfl)

theorem svcChange_behind (s : State) (lane : Nat) (up : Bool) : s.Behind (s.svcChange lane up) := by
  unfold State.svcChange
  refine ite_behind (fun _ => State.Behind.trans (ite_behind (fun _ => cond_behind s _ _ _ _ _) fun _ => .refl s) (timeRefresh_behind _)) fun _ => ?_
  extract_lets down s1
  have changed : s.Behind s1 := updTwin_behind s _ fun _ => rfl
  have told : s.Behind (if up = true then s1.twRole else s1) := ite_behind (fun _ => changed.trans (twRole_behind s1)) fun _ => changed
  exact (told.trans (cond_behind _ _ _ _ _ _)).trans (timeRefresh_behind _)

theorem roleFollow_behind (s : State) : s.Behind s.roleFollow := by
  unfold State.roleFollow
  extract_lets met s1 s2 s3
  have discarded : s.Behind s1 := (Keeps.behind (discardHeld_keeps (by decide) (.refl _ s))).trans (foldl_behind (fun u l =>
    ite_behind (fun _ => (paramRole_behind u l).keep (modLink_keeps (by decide) (.refl _ _))) fun _ => paramRole_behind u l) _ _)
  have census : s.Behind s2 := (discarded.trans (masterRole_behind s1)).keep (updRing_keeps (by decide) (.refl _ _))
  have followed : s.Behind s3 := ((census.trans (timeRefresh_behind s2)).trans (twRole_behind _)).keep (auxWatch_keeps (by decide) (.refl _ _))
  exact State.Behind.trans (ite_behind (fun _ => followed) fun _ => followed.trans (imageEnd_behind s3)) (enAllLimits_behind _)

/-- An active that surrenders commanded its strings. -/
theorem surrender_behind (s : State) : s.Behind s.surrender := by
  intro h
  have keeps := surrender_keeps (M := 83976) (by decide) (.refl _ s)
  obtain ⟨enable, reason, gap, index, runs, order, stopped, first⟩ := h
  rw [keeps.ride (by decide)] at enable reason gap index
  rw [keeps.str (by decide)] at stopped first
  have eff : s.surrender.par.eff = s.par.eff := by rw [keeps.par (by decide)]
  rw [rideOrder_of_peff (peff_of_eff eff _ _)] at order
  refine ⟨enable, reason, gap, index, ?_, order, stopped, first⟩
  by_cases active : s.twin.role = .active
  · rw [State.commanding, active]
    decide
  · rw [State.surrender, if_neg active] at runs
    exact runs

theorem summaries_behind (s : State) : s.Behind s.summaries := by
  unfold State.summaries
  extract_lets s1
  have sent : s.Behind s1 :=
    ite_behind (fun _ => foldl_behind (fun u n => Keeps.behind (summarySend_keeps (by decide) (.refl _ u))) _ s) fun _ => .refl s
  exact ite_behind (fun _ => (sent.keep (twinSend_keeps (by decide) (tookFree_keeps (by decide) (.refl _ s1)))).trans
    (updTwin_behind _ _ fun _ => rfl)) fun _ => sent

/-! ### Resets, and the acts of a step -/

theorem blockReset_behind (s : State) (src inst : Nat) : s.Behind (s.blockReset src inst) := by
  have fresh (u : State) (l : Nat) : u.Behind (u.freshAttempt l) := Keeps.behindPar (freshAttempt_keeps (by decide) (.refl _ u)) (freshAttempt_eff u l)
  unfold State.blockReset
  refine ite_behind (fun _ => fresh s inst) fun _ => ite_behind (fun _ => ?_) fun _ => ?_
  · exact (Keeps.behind (modRack_keeps (by decide) (.refl _ s))).trans
      (foldl_behind (fun u l => Keeps.behind (setLane_keeps (by decide) (.refl _ u))) _ _)
  refine ite_behind (fun _ => (fresh s 128).trans (fresh _ 129)) fun _ => ite_behind (fun _ => hkReset_behind s) fun _ => ?_
  exact ite_behind (fun _ => auxAct_behind s inst false) fun _ =>
    ite_behind (fun _ => (Keeps.behind (modPch_keeps (by decide) (.refl _ s))).trans (posInvalid_behind _ inst)) fun _ => .refl s

theorem chipReset_behind (s : State) (cause src : Nat) : s.Behind (s.chipReset cause src) := by
  unfold State.chipReset
  refine ite_behind (fun _ => ite_behind (fun _ => Keeps.behind (updSys_keeps (by decide) (.refl _ s))) fun _ => .refl s) fun _ => ?_
  exact behind_of_reason fun h => absurd (show 0 = 99 from h) (by decide)

theorem act_behind (s : State) (a : Act) : s.Behind (s.act a) := by
  cases a with
  | blockReset src inst => exact blockReset_behind s src inst
  | memberLost lane auth => exact (lostMember_behind s lane auth).trans (imageLost_behind _ lane)
  | trip str cause lane => exact trip_behind s str cause lane
  | urgent lane cause => exact urgentBypass_behind s lane cause
  | svcLink lane up => exact svcChange_behind s lane up
  | dtFloor lane res => exact dtFloorRead_behind s lane res
  | sample lane chan => exact ((protSample_behind s lane chan).trans (rideSample_behind _ lane chan)).trans (enSample_behind _ lane chan)
  | health lane => exact (healthTaken_behind s lane).trans (thermHealth_behind _ lane)
  | epFault lane code => exact faultTaken_behind s lane code
  | surrender => exact surrender_behind s
  | chipReset cause src => exact chipReset_behind s cause src
  | imageSent lane => exact imageSent_behind s lane
  | roleChanged => exact roleFollow_behind s
  | timeStepped old =>
    have moved : Keeps noSeq s (s.scaleMoved old) := scaleMoved_keeps (by decide) (.refl _ s)
    exact moved.behind
  | limits => exact enAllLimits_behind s
  | summaries => exact summaries_behind s

theorem settleN_behind (k : Nat) (s : State) : s.Behind (State.settleN k s) := by
  induction k generalizing s with
  | zero => exact .refl s
  | succ k ih =>
    rw [State.settleN]
    split
    · exact .refl s
    · exact ((Keeps.behind (updTodo_keeps (by decide) (.refl _ s))).trans (act_behind _ _)).trans (ih _)

/-! ### No state settles to a stranded one -/

theorem rideReached_not_stranded {s : State} {str : Nat} (goes : s.prot.ride.st = .enable ∧ s.prot.ride.gapFrom = none ∧
    s.rideOrder[s.prot.ride.index]? = some str ∧ s.rideRuns = true) : ¬(s.rideReached str).Stranded := by
  intro h
  rw [State.rideReached, if_pos goes] at h
  split at h
  · exact absurd h.reason (by rw [rideTo_reason]; decide)
  · exact nomatch h.gap

/-- A stranded sequence is one that the watch goes on from (R358). -/
theorem rideWatch_not_stranded (s : State) : ¬s.rideWatch.Stranded := by
  by_cases strands : s.Stranded
  · have watched : s.rideWatch = s.rideReached 0 := by
      unfold State.rideWatch
      dsimp only
      rw [if_pos ⟨strands.enable, strands.gap, strands.runs⟩, strands.index, strands.order]
      dsimp only
      rw [strands.stopped, if_neg (by decide), if_pos rfl]
    rw [watched]
    exact rideReached_not_stranded ⟨strands.enable, strands.gap, by rw [strands.index, strands.order], strands.runs⟩
  · have reached (u : State) (str : Nat) : u.Behind (u.rideReached str) := by
      by_cases goes : u.prot.ride.st = .enable ∧ u.prot.ride.gapFrom = none ∧ u.rideOrder[u.prot.ride.index]? = some str ∧ u.rideRuns = true
      · exact fun h => absurd h (rideReached_not_stranded goes)
      · rw [State.rideReached, if_neg goes]
        exact .refl u
    have back : s.Behind s.rideWatch := by
      unfold State.rideWatch
      refine ite_behind (fun _ => ?_) fun _ => .refl s
      split
      · exact .refl s
      · exact ite_behind (fun _ => (note_behind s _ _ _ _).trans (reached _ _)) fun _ => ite_behind (fun _ => reached s _) fun _ => .refl s
    exact fun h => strands (back h)

theorem settle_not_stranded (s : State) : ¬s.settle.Stranded := fun h => rideWatch_not_stranded _ (settleN_behind _ _ h)

/-! ### The obligation's gate-supply filter -/

/-- The reset state of an active with a stranded sequence. -/
def strandedState : State :=
  ((((State.reset.setParam 0x0C11 noInst [0]).updTwin fun t => { t with role := .active }).modRide fun r => { r with st := .enable, reason := 99 })).modStr 0
    fun y => { y with st := .stopped, first := true }

theorem strandedState_stranded : strandedState.Stranded :=
  ⟨by decide, by decide, by decide, by decide, by decide, by decide, by decide, by decide⟩

/-- Refutes O45: the filter of a gate supply has not run for its time since reset, and its expiry leaves the state as it is, acts and sequence included,
where the row asks for a state that has been settled. A state with a stopped string that the sequence waits for is none. -/
theorem not_auxSwitches : ¬ Obligations.AuxSwitches := by
  intro h
  obtain ⟨-, ⟨e, settled, -⟩, still, -⟩ := h strandedState 0 0
  have stays : exec (.auxSgFilterExpire 0 0) strandedState = .next strandedState := still (.inl (by decide))
  have same : strandedState = e.settle := Outcome.next.inj (stays.symm.trans settled)
  exact settle_not_stranded e (same ▸ strandedState_stranded)

end Sys2Proof.Machine
end
